-- ==== Sys2Proof/Word.lean ====
section
/-!
DEFINITION. The word types of the device and the shape of a sparse table.
-/

namespace Sys2Proof

/-- One byte. -/
abbrev Byte := BitVec 8

/-- A register word (every register is 32 bits wide, chapter 0). -/
abbrev Word32 := BitVec 32

/-- The information bits of one code word. -/
abbrev Word64 := BitVec 64

/-- A 16-byte vector register or packet sector. -/
abbrev Word128 := BitVec 128

/-- An 80-bit stored code word of the Horuno 79/64 code: 64 information bits, 15 check bits and the poison bit. -/
abbrev CodeWord := BitVec 80

/-- Sparse data by key: pairs in strictly rising key order, no pair equal to what an unlisted key reads as. -/
abbrev Tab (α : Type) := List (Nat × α)

end Sys2Proof
end

