-- ==== Sys2Proof/Syntax.lean ====
section
/-!
DEFINITION. The commands of the block: one constructor for each row of spec/opcode_table.json, with the row's operands.
An index of a like part (sector, MAC block, lane, core) is a Fin of the count the spec gives; what the world outside
hands over (received words, sampled levels, measured values) is an operand too. A `Unit` operand holds nothing: it stands where a
constructor once had an operand whose value the state now gives, and keeps the number of operands as it was (log 133).
-/

namespace Sys2Proof

/-- One command or event of the device. Each docstring is the row's name and governing rule. -/
inductive Instr where
  /-- REGISTER_WRITE (R4). -/
  | registerWrite (off : Nat) (v : Word32)
  /-- READ_CLEAR (R4). -/
  | readClear (off : Nat) (peek : Bool)
  /-- SLOT (R55). -/
  | slot (pins : BitVec 96)
  /-- GUARD_RELEASE (R107). -/
  | guardRelease (u v : Fin 12) (xy : Fin 120) (n : Fin 48)
  /-- TICK_BOUNDARY (R24). -/
  | tickBoundary
  /-- DONE_RISE (R46). -/
  | doneRise
  /-- WAIT_ORBIT_REMINDER (R46). -/
  | waitOrbitReminder
  /-- ORBIT_MARKER_EDGE (R26). -/
  | orbitMarkerEdge (start : Bool)
  /-- TIMING_WORD (R27). -/
  | timingWord (lane : Fin 144) (bad k1 k2 c1 c2 : Unit)
  /-- NOP (R28). -/
  | nop
  /-- ORBIT (R32). -/
  | orbit
  /-- TICK_RESET (R28). -/
  | tickReset
  /-- FRAME_RESET (R37). -/
  | frameReset
  /-- CLEAR_REQ (R31). -/
  | clearReq
  /-- SWAP_GO (R67). -/
  | swapGo
  /-- TEST_PULSE (R28). -/
  | testPulse
  /-- FRAME_BOUNDARY (R36). -/
  | frameBoundary
  /-- CLEARING_WINDOW_OPEN (R34). -/
  | clearingWindowOpen
  /-- USER_MODE_START (R46). -/
  | userModeStart
  /-- START_FORCE (R46). -/
  | startForce
  /-- DONE_FALL (R48). -/
  | doneFall
  /-- TICK_LO_READ (R24). -/
  | tickLoRead
  /-- SWAP_ARM (R72). -/
  | swapArm (sec : Fin 240) (v : Word32)
  /-- SWAP_DISARM (R67). -/
  | swapDisarm (sec : Fin 240) (v : Word32)
  /-- SCHEDULE_WRITE (R72). -/
  | scheduleWrite (sec : Fin 240) (v : Word32)
  /-- SCHEDULE_APPLY (R72). -/
  | scheduleApply (sec : Fin 240)
  /-- SWAP (R68). -/
  | swap (sec : Fin 240)
  /-- MADD (R116). -/
  | madd (sec : Fin 240) (m : Fin 24)
  /-- LEAF (R120). -/
  | leaf (sec : Fin 240) (m : Fin 24)
  /-- HEAD (R120). -/
  | head (sec : Fin 240) (m : Fin 24)
  /-- MAC_PORT_READ (R134). -/
  | macPortRead (sec : Fin 240) (pre : Bool) (p : Fin 8) (m : Fin 32)
  /-- MAC_PORT_WRITE (R134). -/
  | macPortWrite (sec : Fin 240) (pre : Bool) (p : Fin 8) (m : Fin 32)
  /-- MAC_PORT_SERVE (R134). -/
  | macPortServe (sec : Fin 240)
  /-- MAC_PORT_TIMEOUT (R134). -/
  | macPortTimeout (sec : Fin 240)
  /-- TOP (R126). -/
  | top (sec : Fin 240) (r : Fin 2)
  /-- FLUSH (R127). -/
  | flush (sec : Fin 240) (r : Fin 2)
  /-- MERGE (R131). -/
  | merge (sec : Fin 240) (r : Fin 2)
  /-- MATCHER_HIT (R139). -/
  | matcherHit (sec : Fin 240) (h : Fin 4)
  /-- EVENT_END (R140). -/
  | eventEnd (sec : Fin 240)
  /-- ROAD (R141). -/
  | road (sec : Fin 240)
  /-- MT_PORT_READ (R147). -/
  | mtPortRead (sec : Fin 240) (stream : Bool) (a : Fin 16384)
  /-- MT_PORT_WRITE (R147). -/
  | mtPortWrite (sec : Fin 240) (stream : Bool) (a : Fin 16384)
  /-- MT_STREAM_WRITE (R147). -/
  | mtStreamWrite (sec : Fin 240) (v : Word32)
  /-- MT_PORT_SERVE (R147). -/
  | mtPortServe (sec : Fin 240)
  /-- MT_PORT_TIMEOUT (R147). -/
  | mtPortTimeout (sec : Fin 240)
  /-- STORE_CHECK (R148). -/
  | storeCheck (sec : Fin 240)
  /-- BANK_READ (R155). -/
  | bankRead (sec : Fin 240) (i : Fin 8)
  /-- BANK_WRITE (R159). -/
  | bankWrite (sec : Fin 240) (i : Fin 8)
  /-- BANK_ADD (R160). -/
  | bankAdd (sec : Fin 240) (i : Fin 8)
  /-- BANK_ADDU (R160). -/
  | bankAddu (sec : Fin 240) (i : Fin 8)
  /-- BANK_ADDS (R160). -/
  | bankAdds (sec : Fin 240) (i : Fin 8)
  /-- BANK_SWAP (R160). -/
  | bankSwap (sec : Fin 240) (i : Fin 8)
  /-- BANK_NONOWNER_SERVE (R156). -/
  | bankNonownerServe (sec : Fin 240) (i : Fin 8)
  /-- OWNER_HANDOVER (R153). -/
  | ownerHandover (sec : Fin 240) (i : Fin 8) (v : Word32)
  /-- BANK_CONFIG_WRITE (R166). -/
  | bankConfigWrite (sec : Fin 240) (i : Fin 8) (v : Word32)
  /-- BANK_SCRUB_VISIT (R162). -/
  | bankScrubVisit (sec : Fin 240) (i : Fin 8)
  /-- QUAD_MODE_WRITE (R174). -/
  | quadModeWrite (q : Fin 36) (v : Word32)
  /-- FE_ALIGNMENT (R181). -/
  | feAlignment (n : Fin 144) (bits : List Bool) (phase : Nat) (fits rd : Unit)
  /-- FE_WORD_RECEIVE (R184). -/
  | feWordReceive (n : Fin 144) (w : BitVec 80)
  /-- FE_ALIGNMENT_LOSS (R183). -/
  | feAlignmentLoss (n : Fin 144) (drift : Int)
  /-- FE_WORD_TRANSMIT (R185). -/
  | feWordTransmit (n : Fin 144)
  /-- POLARITY_WRITE (R189). -/
  | polarityWrite (n : Fin 144) (v : Word32)
  /-- TRUNK_RATE_WRITE (R191). -/
  | trunkRateWrite (q : Fin 36) (v : Word32)
  /-- CODEWORD_SEND (R196). -/
  | codewordSend (n : Fin 144)
  /-- CODEWORD_RECEIVE (R197). -/
  | codewordReceive (n : Fin 144) (syms : List Int)
  /-- CODEWORD_LOCK (R198). -/
  | codewordLock (n : Fin 144) (slip : Fin 1144) (phase : Nat)
  /-- CODEWORD_LOCK_LOSS (R198). -/
  | codewordLockLoss (n : Fin 144)
  /-- SUPERFRAME_LOCK (R199). -/
  | superframeLock (n : Fin 144)
  /-- SUPERFRAME_LOCK_LOSS (R218). -/
  | superframeLockLoss (n : Fin 144)
  /-- STREAM_VERIFY (R208). -/
  | streamVerify (n : Fin 144) (c : Fin 8)
  /-- STREAM_BLOCK_TRANSMIT (R212). -/
  | streamBlockTransmit (n : Fin 144)
  /-- QUEUE_PACKET_SEND (R202). -/
  | queuePacketSend (n : Fin 144)
  /-- QUEUE_PACKET_RECEIVE (R204). -/
  | queuePacketReceive (n : Fin 144)
  /-- QUEUE_DELIVER (R203). -/
  | queueDeliver (n : Fin 144) (q : Fin 8)
  /-- QACK_RECEIVE (R204). -/
  | qackReceive (n : Fin 144)
  /-- QUEUE_RETRY_TIMEOUT (R204). -/
  | queueRetryTimeout (n : Fin 144) (q : Fin 8)
  /-- QUEUE_TAIL_WRITE (R203). -/
  | queueTailWrite (n : Fin 144) (q : Fin 8) (v : Word32)
  /-- QUEUE_HEAD_WRITE (R203). -/
  | queueHeadWrite (n : Fin 144) (q : Fin 8) (v : Word32)
  /-- LANE_ENABLE (R217). -/
  | laneEnable (n : Fin 144) (v : Word32)
  /-- LANE_RESTART (R219). -/
  | laneRestart (n : Fin 144)
  /-- DETECT_ATTEMPT (R220). -/
  | detectAttempt (n : Fin 144) (found : Bool)
  /-- TRAIN_COMPLETE (R218). -/
  | trainComplete (n : Fin 144)
  /-- BITLOCK_COMPLETE (R218). -/
  | bitlockComplete (n : Fin 144)
  /-- LANE_STATE_TIMEOUT (R218). -/
  | laneStateTimeout (n : Fin 144)
  /-- LOSS_OF_SIGNAL (R218). -/
  | lossOfSignal (n : Fin 144)
  /-- QUAD_PLL_LOCK (R221). -/
  | quadPllLock (q : Fin 36) (t : Unit)
  /-- QUAD_PLL_LOSS (R221). -/
  | quadPllLoss (q : Fin 36)
  /-- QUAD_PLL_RECAL (R221). -/
  | quadPllRecal (q : Fin 36)
  /-- HSK_MESSAGE (R223). -/
  | hskMessage (n : Fin 144)
  /-- HANDSHAKE_EXIT (R225). -/
  | handshakeExit (n : Fin 144)
  /-- LANE_WAKE (R227). -/
  | laneWake (n : Fin 144) (pattern : Bool)
  /-- WAKE_SEND (R228). -/
  | wakeSend (n : Fin 144)
  /-- WAKE_SEND_END (R228). -/
  | wakeSendEnd (n : Fin 144)
  /-- TEST_PATTERN_WRITE (R229). -/
  | testPatternWrite (n : Fin 144) (v : Word32)
  /-- PRBS_ERR_READ (R229). -/
  | prbsErrRead (n : Fin 144)
  /-- INJ_SINGLE (R230). -/
  | injSingle (n : Fin 144)
  /-- INJ_BURST (R230). -/
  | injBurst (n : Fin 144)
  /-- LOOPBACK_SELECT (R231). -/
  | loopbackSelect (n : Fin 144) (lb : Fin 4)
  /-- TELLER_STOP (R235). -/
  | tellerStop (t : Fin 240)
  /-- TELLER_RUN (R235). -/
  | tellerRun (t : Fin 240)
  /-- TELLER_SOFT (R247). -/
  | tellerSoft (t : Fin 240)
  /-- TELLER_INSTRUCTION (R239). -/
  | tellerInstruction (t : Fin 240)
  /-- TELLER_FENCE (R246). -/
  | tellerFence (t : Fin 240)
  /-- TELLER_ECALL (R239). -/
  | tellerEcall (t : Fin 240)
  /-- TELLER_EBREAK (R239). -/
  | tellerEbreak (t : Fin 240)
  /-- VADD (R241). -/
  | vadd (t : Fin 240)
  /-- VSUB (R241). -/
  | vsub (t : Fin 240)
  /-- VMUL (R241). -/
  | vmul (t : Fin 240)
  /-- VMULH (R241). -/
  | vmulh (t : Fin 240)
  /-- VMULHU (R241). -/
  | vmulhu (t : Fin 240)
  /-- VMIN (R241). -/
  | vmin (t : Fin 240)
  /-- VMINU (R241). -/
  | vminu (t : Fin 240)
  /-- VMAX (R241). -/
  | vmax (t : Fin 240)
  /-- VMAXU (R241). -/
  | vmaxu (t : Fin 240)
  /-- VSEQ (R241). -/
  | vseq (t : Fin 240)
  /-- VSLT (R241). -/
  | vslt (t : Fin 240)
  /-- VSLTU (R241). -/
  | vsltu (t : Fin 240)
  /-- VSEL (R241). -/
  | vsel (t : Fin 240)
  /-- VREDSUM (R241). -/
  | vredsum (t : Fin 240)
  /-- VREDSUMU (R241). -/
  | vredsumu (t : Fin 240)
  /-- VSPLAT (R241). -/
  | vsplat (t : Fin 240)
  /-- VEXT (R241). -/
  | vext (t : Fin 240)
  /-- VEXTU (R241). -/
  | vextu (t : Fin 240)
  /-- VINS (R241). -/
  | vins (t : Fin 240)
  /-- VLD (R241). -/
  | vld (t : Fin 240)
  /-- VST (R241). -/
  | vst (t : Fin 240)
  /-- VTALLY (R244). -/
  | vtally (t : Fin 240)
  /-- TWAIT (R248). -/
  | twait (t : Fin 240)
  /-- TSETTLE (R249). -/
  | tsettle (t : Fin 240)
  /-- TRAISE (R252). -/
  | traise (t : Fin 240)
  /-- TELLER_WAKE (R248). -/
  | tellerWake (t : Fin 240)
  /-- TELLER_SETTLE_WAKE (R249). -/
  | tellerSettleWake (t : Fin 240)
  /-- NOC_READ (R259). -/
  | nocRead (r : Fin 360) (vc : Fin 2)
  /-- NOC_WRITE (R259). -/
  | nocWrite (r : Fin 360) (vc : Fin 2)
  /-- NOC_WRLINE (R259). -/
  | nocWrline (r : Fin 360)
  /-- NOC_ADD (R259). -/
  | nocAdd (r : Fin 360) (vc : Fin 2)
  /-- NOC_ADDU (R259). -/
  | nocAddu (r : Fin 360) (vc : Fin 2)
  /-- NOC_ADDS (R259). -/
  | nocAdds (r : Fin 360) (vc : Fin 2)
  /-- NOC_SWAP (R259). -/
  | nocSwap (r : Fin 360) (vc : Fin 2)
  /-- NOC_FLIT_FORWARD (R262). -/
  | nocFlitForward (r : Fin 360) (out : Fin 7) (net : Fin 4)
  /-- NOC_RESPONSE (R267). -/
  | nocResponse (r : Fin 360) (dat : Bool) (vc : Fin 2)
  /-- NOC_TIMEOUT (R265). -/
  | nocTimeout (id : Fin 1024) (ln : Bool) (tag : Fin 256)
  /-- TAG_QUARANTINE_END (R267). -/
  | tagQuarantineEnd (id : Fin 1024) (ln : Bool) (tag : Fin 256)
  /-- NAP_CREDIT_GRANT (R268). -/
  | napCreditGrant (sec : Fin 240)
  /-- NAP_INITIATOR_REQUEST (R268). -/
  | napInitiatorRequest (sec : Fin 240)
  /-- NAP_RESPONSE_PRESENT (R269). -/
  | napResponsePresent (sec : Fin 240)
  /-- NAP_TARGET_PRESENT (R270). -/
  | napTargetPresent (sec : Fin 240)
  /-- NAP_TARGET_ANSWER (R270). -/
  | napTargetAnswer (sec : Fin 240)
  /-- NAP_TARGET_LIMIT (R270). -/
  | napTargetLimit (sec : Fin 240)
  /-- NAP_FENCE (R273). -/
  | napFence (sec : Fin 240)
  /-- NAP_UNFENCE (R273). -/
  | napUnfence (sec : Fin 240)
  /-- MEMORY_SCRUB_VISIT (R291). -/
  | memoryScrubVisit (c : Fin 16)
  /-- REFRESH (R293). -/
  | refresh (c : Fin 16)
  /-- FUSE_PROGRAM_OWNER_KEY (R298). -/
  | fuseProgramOwnerKey (id : Fin 1024)
  /-- FUSE_PROGRAM_FLOOR (R345). -/
  | fuseProgramFloor (id : Fin 1024)
  /-- FUSE_BURN_COMPLETE (R298). -/
  | fuseBurnComplete
  /-- KEY_CLEAR (R301). -/
  | keyClear (id : Fin 1024) (v : Word32)
  /-- ZEROISE (R316). -/
  | zeroise (id : Fin 1024) (v : Word32)
  /-- ZEROISE_COMPLETE (R316). -/
  | zeroiseComplete
  /-- LOCK_WRITE (R317). -/
  | lockWrite (which : Fin 3) (id : Fin 1024) (v : Word32)
  /-- LOCK_WINDOW_EXPIRY (R317). -/
  | lockWindowExpiry (which : Fin 3)
  /-- WINDOW_ENABLE (R304). -/
  | windowEnable (w : Fin 16) (v : Word32)
  /-- WINDOW_DISABLE (R304). -/
  | windowDisable (w : Fin 16) (v : Word32)
  /-- WINDOW_INIT_COMPLETE (R305). -/
  | windowInitComplete (w : Fin 16)
  /-- RNG_READ (R303). -/
  | rngRead (peek : Bool)
  /-- RNG_HEALTH_FAIL (R303). -/
  | rngHealthFail
  /-- STREAM_HEADER (R321). -/
  | streamHeader
  /-- SEGMENT (R324). -/
  | segment
  /-- FRAMES_RECORD (R326). -/
  | framesRecord (bad : Option (Fin 409))
  /-- HARDBLK_RECORD (R325). -/
  | hardblkRecord (late : Unit)
  /-- BANKINIT_RECORD (R325). -/
  | bankinitRecord (late : Unit)
  /-- FIRMWARE_RECORD (R325). -/
  | firmwareRecord (late : Unit)
  /-- TELLER_RECORD (R325). -/
  | tellerRecord (late : Unit)
  /-- KEYS_RECORD (R325). -/
  | keysRecord
  /-- REGS_RECORD (R325). -/
  | regsRecord (late : Unit)
  /-- END_SEGMENT (R324). -/
  | endSegment
  /-- STEWARD_RELEASE (R363). -/
  | stewardRelease (dt : Nat)
  /-- DONE_RELEASE (R332). -/
  | doneRelease
  /-- DONE_GO (R332). -/
  | doneGo
  /-- GO_FLASH (R335). -/
  | goFlash (foff : BitVec 22)
  /-- GO_PORT (R335). -/
  | goPort
  /-- STREAM_ABORT (R335). -/
  | streamAbort
  /-- REFETCH (R341). -/
  | refetch (bad : Bool)
  /-- SERVICE_PORT_WORD (R342). -/
  | servicePortWord (v : Word32)
  /-- FLASH_READ (R343). -/
  | flashRead
  /-- FLASH_PROGRAM (R343). -/
  | flashProgram
  /-- FLASH_ERASE (R343). -/
  | flashErase
  /-- FLASH_COMMAND_COMPLETE (R343). -/
  | flashCommandComplete (failed : Bool)
  /-- CONFIG_SCRUB_CYCLE (R348). -/
  | configScrubCycle (sec : Fin 240)
  /-- SCRUB_RETRY (R358). -/
  | scrubRetry (sec : Fin 240)
  /-- STEWARD_INSTRUCTION (R362). -/
  | stewardInstruction (i : Fin 4)
  /-- CBO_CLEAN (R366). -/
  | cboClean (i : Fin 4)
  /-- CBO_FLUSH (R366). -/
  | cboFlush (i : Fin 4)
  /-- CBO_INVAL (R366). -/
  | cboInval (i : Fin 4)
  /-- FENCE_I (R366). -/
  | fenceI (i : Fin 4)
  /-- STEWARD_FENCE (R371). -/
  | stewardFence (i : Fin 4)
  /-- STEWARD_AMO (R370). -/
  | stewardAmo (i : Fin 4)
  /-- WFI (R377). -/
  | wfi (i : Fin 4)
  /-- SNOOP_REQUEST (R367). -/
  | snoopRequest
  /-- SNOOP_FORWARD (R368). -/
  | snoopForward (j : Fin 4)
  /-- SNOOP_ACK (R367). -/
  | snoopAck
  /-- SNOOP_GRANT (R368). -/
  | snoopGrant (i : Fin 4)
  /-- SNOOP_DONE (R367). -/
  | snoopDone
  /-- SNOOP_ACK_TIMEOUT (R369). -/
  | snoopAckTimeout (i : Fin 4)
  /-- EVENT_PENDING (R373). -/
  | eventPending
  /-- EVENT_CLAIM (R374). -/
  | eventClaim (i : Fin 4) (peek : Bool)
  /-- EVT_SWRAISE (R375). -/
  | evtSwraise (e : Fin 512)
  /-- WDT_ENABLE (R379). -/
  | wdtEnable (id : Fin 1024) (v : Word32)
  /-- WDT_KICK (R379). -/
  | wdtKick (v : Word32)
  /-- WDT_STAGE1_EXPIRY (R379). -/
  | wdtStage1Expiry (dt : Nat)
  /-- WDT_STAGE2_EXPIRY (R379). -/
  | wdtStage2Expiry (dt : Nat)
  /-- RCO_READY (R383). -/
  | rcoReady
  /-- XO_READY (R384). -/
  | xoReady
  /-- XO_START_FAIL (R384). -/
  | xoStartFail
  /-- AON_SOURCE_CHANGE (R385). -/
  | aonSourceChange
  /-- ROOT_SWITCH (R388). -/
  | rootSwitch (src : Fin 4) (m : Fin 512)
  /-- MREF_SETTLED (R387). -/
  | mrefSettled (khz : Nat × Nat)
  /-- CLOCK_MONITOR_TRIP (R391). -/
  | clockMonitorTrip (src : Fin 4)
  /-- SOURCE_RECOVERED (R391). -/
  | sourceRecovered (src : Fin 4)
  /-- RCO_TRIM_WINDOW (R394). -/
  | rcoTrimWindow (count : Nat)
  /-- GPIO_DELAY_COMPENSATE (R395). -/
  | gpioDelayCompensate (b : Fin 4)
  /-- POWER_ON (R397). -/
  | powerOn
  /-- RESET_N_ASSERT (R400). -/
  | resetNAssert
  /-- RESET_N_RELEASE (R400). -/
  | resetNRelease
  /-- FIRMWARE_RESET (R410). -/
  | firmwareReset (id : Fin 1024) (v : Word32)
  /-- VIN_LOSS (R412). -/
  | vinLoss
  /-- SUPPLY_WARNING (R412). -/
  | supplyWarning (vin vaux : Nat)
  /-- DEVICE_START (R403). -/
  | deviceStart (dt : Nat) (raws : List Byte) (rootOk rngOk : Bool) (pin : Option Nat) (bad : List (Nat × Nat × Nat)) (fill : Option (Option (Fin 16)))
      (groups links moved : Unit)
  /-- BLOCK_RESET (R406). -/
  | blockReset (sec : Fin 256)
  /-- BLOCK_RESET_END (R406). -/
  | blockResetEnd
  /-- POWER_STATE_ENTRY (R420). -/
  | powerStateEntry
  /-- ENTRY_BLOCK_TIMEOUT (R420). -/
  | entryBlockTimeout (block : Fin 12)
  /-- WAKE_TIMER (R423). -/
  | wakeTimer (dt : Nat)
  /-- WAKE_FROM_HOLD (R424). -/
  | wakeFromHold
  /-- WAKE_FROM_KEEP (R425). -/
  | wakeFromKeep
  /-- VOLTAGE_REQUEST (R416). -/
  | voltageRequest (v : Word32)
  /-- REGULATOR_FAULT (R414). -/
  | regulatorFault (rail : Fin 10)
  /-- RESIDENCY_READ (R427). -/
  | residencyRead (m : Fin 4) (dt : Nat)
  /-- THERMAL_SAMPLE (R430). -/
  | thermalSample (dt : Nat) (readings : List (BitVec 11)) (failed : List Nat)
  /-- GOVERNOR_DWELL (R434). -/
  | governorDwell
  /-- DUTY_ADJUST (R435). -/
  | dutyAdjust (tot fix : Nat)
  /-- THERMAL_RESTART (R439). -/
  | thermalRestart
  /-- TAP_RESET (R441). -/
  | tapReset
  /-- EXTEST (R445). -/
  | extest (pins v : BitVec 872)
  /-- SAMPLE (R442). -/
  | sample (pins : BitVec 872)
  /-- PRELOAD (R442). -/
  | preload (v : BitVec 872)
  /-- IDCODE (R443). -/
  | idcode
  /-- EXTEST_PULSE (R232). -/
  | extestPulse (pins v : BitVec 872)
  /-- EXTEST_TRAIN (R232). -/
  | extestTrain (pins v : BitVec 872)
  /-- BYPASS (R442). -/
  | bypass
  /-- DBG_ACCESS (R447). -/
  | dbgAccess (v : BitVec 123)
  /-- HALT (R449). -/
  | halt
  /-- RESUME (R450). -/
  | resume
  /-- CUR_ARM (R452). -/
  | curArm (v : BitVec 2)
  /-- SYSRST (R453). -/
  | sysrst
  /-- CFG_STREAM (R454). -/
  | cfgStream (v : Word32)
  /-- CAUSE_READ (R455). -/
  | causeRead
  /-- CORE_RELEASE (R452). -/
  | coreRelease (mask : Fin 16)
  /-- DONE_OK (R452). -/
  | doneOk
  /-- I2C_WRITE (R457). -/
  | i2cWrite (a : BitVec 7) (addr : BitVec 48) (v : Word32)
  /-- I2C_READ (R457). -/
  | i2cRead (a : BitVec 7) (addr : BitVec 48)
  /-- I2C_STREAM (R457). -/
  | i2cStream (a : BitVec 7) (v : Word32)
  /-- I2C_STATUS_READ (R457). -/
  | i2cStatusRead (a : BitVec 7)
  /-- RT_BIST_REQUEST (R460). -/
  | rtBistRequest (pair : Fin 128) (repair : Bool)
  /-- RT_BIST_RUN (R461). -/
  | rtBistRun (fails : List (Fin 144 × Fin 50))
  /-- GPIO_EDGE (R478). -/
  | gpioEdge (b : Fin 4)
  /-- GPIO_WAKE (R478). -/
  | gpioWake (i : Fin 96)
  /-- LOSS_OF_POWER (R412). -/
  | lossOfPower
  /-- MREF_LOST (R387). -/
  | mrefLost (present : Option Nat)
  /-- MACHINE_TIMER_INTERRUPT (R362). -/
  | machineTimerInterrupt (dt : Nat)
  /-- PRBS_CHECKER_SYNC (R229). -/
  | prbsCheckerSync (n : Fin 144)
  /-- PRBS_SYNC_LOSS (R229). -/
  | prbsSyncLoss (n : Fin 144)
  deriving DecidableEq, Repr

end Sys2Proof
end

