-- ==== Sys2Proof/Decode.lean ====
section
/-!
DEFINITION. The command that a word spells. No row of spec/opcode_table.json gives bits: the device's commands are register
accesses, pin events and steps of its own units, and none of them has an encoding.
-/

namespace Sys2Proof

/-- The command spelled by a word of a row that gives bits; no row does. -/
def decodeTableWord (_nbits _w : Nat) : Option Instr := none

end Sys2Proof
end

