-- ==== Sys2Proof/Config.lean ====
section
/-!
DEFINITION. What the spec fixes for one device or leaves open. A free value is an opaque constant with no body:
nothing can be proved of its value, so a claim holds whatever it is.
-/

namespace Sys2Proof.Config

/-- R60: a register fed by a path that does not settle within its slot may take any value. The arguments are the slot and the
destination. -/
opaque unsettled : Nat → Nat → Bool

/-- R128: with an unordered input list a MERGE emits 32 of the 64 entries in an order that depends only on the input
values. The arguments are the 64 entries and the rank asked for; the answer picks one of the entries not yet emitted. -/
opaque mergeOrder : List Nat → Nat → Nat

/-- R267: which of the tags that are neither outstanding nor in quarantine an initiator takes. The argument is the model's
counter. -/
opaque tagPick : Nat → Nat

/-- R203 gives a payload length of 1 to 960 bytes; the length that a ring entry with any other descriptor sends. -/
opaque badLen : Nat → Nat

/-- R303: fresh bits of the random number generator, 32 for each count. -/
opaque random : Nat → BitVec 32

/-- R226: the IV seed drawn for a lane, 48 bits. -/
opaque ivSeed : Nat → BitVec 48

/-- R310: what a reader other than the vault sees of the tree area of an enabled window, one word for each count. -/
opaque treeArea : Nat → BitVec 64

/-- R296: the root key of the part, 32 octets once reduced modulo 256. -/
opaque rootKey : Nat → Nat

/-- R297: the check value of a masked owner key; the spec gives its width and not its rule. -/
opaque okeyCheck : Nat → BitVec 32

/-- R299: which of the bits still to burn a power loss leaves burned. -/
opaque burned : Nat → Nat

/-- R229: the bits that a pattern generator starts from. -/
opaque prbsSeed : Nat → Nat

/-- R435: the duty opens D·16 of 16 cycles, spread evenly; where in the run of 16 the pattern begins. -/
opaque gatePhase : Nat

/-- R394: the trim code that the factory fused. -/
opaque trimCode : Nat → BitVec 12

/-- R394: the RCO cycles that a trim window against MREF should count, from FREQ and WIN; the spec does not say how it is computed. -/
opaque trimCount : Nat → Nat → Nat

/-- R2, R386: the speed grade fused into the part. -/
opaque gradeTwo : Nat → Bool

/-- R365: which of the 4 ways of a full set a cache gives up for a new line; the spec gives no rule. -/
opaque victim : Nat → Nat

/-- R289: whether a request that reaches a controller in the slot of the last one reaches it in the same MEM cycle. -/
opaque sameMemCycle : Nat → Bool

/-- R310: which of the 8,192 trusted nodes the vault gives up for a new one; the spec gives no rule. -/
opaque nodeVictim : Nat → Nat

/-- R395: the correction of a GPIO delay tap for temperature. -/
opaque tapFix : Nat → Nat

/-- R395: the trim code after a correction for temperature. -/
opaque trimComp : Nat → BitVec 12

/-- R362 names no value of mtval for an illegal instruction or a breakpoint, and the privileged architecture leaves it open. -/
opaque mtval : Nat → BitVec 64

end Sys2Proof.Config
end

