-- ==== Sys2Proof/Machine/Code.lean ====
section
/-!
DEFINITION. The Horuno 79/64 code (14_memory_layer.md R284 to R286): a shortened binary BCH code over GF(2^7) that
corrects two errors, with an overall parity bit and, outside the code, a poison bit. The 80-bit format carries 64
information bits (banks, teller and steward RAM, matcher store, configuration), the 88-bit format 72 (memory dies).
Field elements and code words are handled as numbers whose binary digits are the bits.
-/

namespace Sys2Proof.Machine

/-- Multiplication by α in GF(2^7), whose polynomial is x^7 + x^3 + 1 (R284). -/
def gfTimesAlpha (a : Nat) : Nat :=
  if a < 64 then 2 * a else (2 * a) ^^^ 0x89

/-- Product in GF(2^7), over the seven bits of the second factor. -/
def gfMul (a b : Nat) : Nat :=
  let step := fun (acc : Nat × Nat) (i : Nat) =>
    (if b.testBit i then acc.1 ^^^ acc.2 else acc.1, gfTimesAlpha acc.2)
  ((List.range 7).foldl step (0, a)).1

/-- α to the power i. -/
def gfPow : Nat → Nat
  | 0 => 1
  | i + 1 => gfTimesAlpha (gfPow i)

/-- The powers α^0 to α^126, in order. -/
def gfPowers : List Nat :=
  ((List.range 126).foldl (fun (acc : List Nat) _ =>
    match acc with
    | [] => [1]
    | a :: r => gfTimesAlpha a :: a :: r) [1]).reverse

/-- The inverse in GF(2^7): a^126. -/
def gfInv (a : Nat) : Nat :=
  (List.range 5).foldl (fun acc _ => gfMul (gfMul acc acc) a) a |> fun b => gfMul b b

/-- g(x), the product of the minimal polynomials of α and α^3 (R284): degree 14. -/
def codeGen : Nat := 0x4377

/-- The remainder of d(x)·x^14 divided by g(x), information bits taken from the highest down. -/
def codeCheck (k : Nat) (d : Nat) : Nat :=
  (List.range k).foldl (fun acc j =>
    let fb := xor (acc.testBit 13) (d.testBit (k - 1 - j))
    let sh := (acc * 2) % 0x4000
    if fb then sh ^^^ (codeGen % 0x4000) else sh) 0

/-- The number of ones among the low n bits, modulo 2. -/
def parityOf (n w : Nat) : Bool :=
  (List.range n).foldl (fun p j => xor p (w.testBit j)) false

/-- Positions 0 to N of the code word of k information bits: check bits, information bits, parity bit (R284). -/
def codeEncode (k d : Nat) : Nat :=
  let body := codeCheck k d + (d % 2 ^ k) * 2 ^ 14
  if parityOf (14 + k) body then body + 2 ^ (14 + k) else body

/-- S1, the sum of α^j over the ones at positions below n (R285). -/
def syndrome1 (n w : Nat) : Nat :=
  (List.range n).foldl (fun acc j =>
    let a := gfTimesAlpha acc
    if w.testBit (n - 1 - j) then a ^^^ 1 else a) 0

/-- S3, the sum of α^(3j) over the ones at positions below n (R285). -/
def syndrome3 (n w : Nat) : Nat :=
  (List.range n).foldl (fun acc j =>
    let a := gfTimesAlpha (gfTimesAlpha (gfTimesAlpha acc))
    if w.testBit (n - 1 - j) then a ^^^ 1 else a) 0

/-- The exponents i below 127 whose α^i satisfies a test. -/
def gfRoots (p : Nat → Bool) : List Nat :=
  (gfPowers.zipIdx.filter (fun ai => p ai.1)).map (·.2)

/-- The error positions that the decoder finds, or nothing where the word is uncorrectable (Table 14.3). Position n is
the parity bit. -/
def codeErrors (n w : Nat) : Option (List Nat) :=
  let s1 := syndrome1 n w
  let s3 := syndrome3 n w
  let p := parityOf (n + 1) w
  let cube := gfMul s1 (gfMul s1 s1)
  if s1 = 0 then
    if s3 ≠ 0 then none
    else if p then some [n] else some []
  else if s3 = cube then
    match gfRoots (fun a => a == s1) with
    | [i] => if i < n then (if p then some [i] else some [i, n]) else none
    | _ => none
  else if p then none
  else
    let c := gfMul s3 (gfInv s1) ^^^ gfMul s1 s1
    match gfRoots (fun z => gfMul z z ^^^ gfMul s1 z ^^^ c == 0) with
    | [i, j] => if i < n ∧ j < n then some [i, j] else none
    | _ => none

/-- The outcome of decoding: no error, a correctable word, or an uncorrectable one (R285, R286); the data is what the
decoder returns. -/
inductive Decoded (w : Nat) where
  | clean (d : BitVec w)
  | corrected (d : BitVec w)
  | bad
  deriving DecidableEq, Repr

/-- Decoding of a stored word of k information bits: poison at position k + 15, outside the code (R286). -/
def codeDecode (k w : Nat) : Decoded k :=
  if w.testBit (k + 15) then .bad
  else
    match codeErrors (14 + k) w with
    | none => .bad
    | some [] => .clean (BitVec.ofNat k (w / 2 ^ 14))
    | some es => .corrected (BitVec.ofNat k ((es.foldl (fun v i => v ^^^ 2 ^ i) w) / 2 ^ 14))

/-- The 80-bit code word of 64 information bits. -/
def cwEncode (d : Word64) : CodeWord := BitVec.ofNat 80 (codeEncode 64 d.toNat)

/-- Decoding of an 80-bit code word. -/
def cwDecode (w : CodeWord) : Decoded 64 := codeDecode 64 w.toNat

/-- The information bits as stored, uncorrected (R92). -/
def cwInfo (w : CodeWord) : Word64 := BitVec.ofNat 64 (w.toNat / 2 ^ 14)

/-- The poison bit of an 80-bit code word. -/
def cwPoison (w : CodeWord) : Bool := w.getLsbD 79

/-- The word with its poison bit set: "poisoned" (R151, R161). -/
def cwSetPoison (w : CodeWord) : CodeWord := w ||| BitVec.ofNat 80 (2 ^ 79)

/-- The 88-bit memory-die word of 72 information bits (R282). -/
def mwEncode (d : BitVec 72) : BitVec 88 := BitVec.ofNat 88 (codeEncode 72 d.toNat)

/-- Decoding of an 88-bit memory-die word. -/
def mwDecode (w : BitVec 88) : Decoded 72 := codeDecode 72 w.toNat

/-- The poison bit of an 88-bit word. -/
def mwPoison (w : BitVec 88) : Bool := w.getLsbD 87

/-- The word with its poison bit set. -/
def mwSetPoison (w : BitVec 88) : BitVec 88 := w ||| BitVec.ofNat 88 (2 ^ 87)

end Sys2Proof.Machine
end

