-- ==== Sys2Proof/Machine/Fabric.lean ====
section
/-!
DEFINITION. What the fabric carries in one slot: cells (04_cells_tiles.md), tile tracks, segments, wire-register taps
and vertical links (05_routing.md), evaluated from the configuration of the planes active in that slot. The values it
reads (registers, configuration words, attachment sources) come in a view, so that this file does not depend on State.
-/

namespace Sys2Proof.Machine

/-- A tile of the device by its tier coordinates (chapter 5, "Coordinates and directions"). -/
structure Tile where
  t : Nat
  x : Nat
  y : Nat
  deriving DecidableEq, Repr

/-- The sector of a tile. -/
def Tile.sector (g : Tile) : Nat := 120 * g.t + 12 * (g.y / 12) + g.x / 12

/-- The place of a tile in its sector, numbered 12·v + u. -/
def Tile.place (g : Tile) : Nat := 12 * (g.y % 12) + g.x % 12

/-- A number for each tile of the device. -/
def Tile.key (g : Tile) : Nat := (g.t * 120 + g.y) * 144 + g.x

/-- The tile (u, v) of sector s. -/
def tileOf (s u v : Nat) : Tile := ⟨s / 120, 12 * (s % 12) + u, 12 * (s % 120 / 12) + v⟩

/-- The tile a key numbers. -/
def tileOfKey (k : Nat) : Tile := ⟨k / 144 / 120, k % 144, k / 144 % 120⟩

/-- The key of code word w of the plane block of a tile place in plane p of sector s (R90; the order of tiles is the
model's own numbering). -/
def cfgKey (s p place w : Nat) : Nat := ((s * 8 + p) * 144 + place) * 320 + w

/-- The key of slot register (c, p) of a tile place of sector s. -/
def sregKey (s p place c : Nat) : Nat := ((s * 8 + p) * 144 + place) * 80 + c

/-- The key of the wire register of a segment by its far-end tile: m = 16·d + i for clusters, 64 + 2·d + i for globals. -/
def wregKey (g : Tile) (m : Nat) : Nat := g.key * 72 + m

/-- The key of vertical link n of the pair of tiles at (x, y). -/
def vlinkKey (g : Tile) (n : Nat) : Nat := (g.y * 144 + g.x) * 48 + n

/-- What one slot is evaluated from. -/
structure FabView where
  plane : Nat → Nat
  live : Nat → Bool
  word : Nat → Word64
  sreg : Nat → Bool
  wreg : Nat → Bool
  held : Nat → Bool
  asrc : Nat → Nat → Nat → Bool
  /-- What a slot leaves for the elements of a path after t_CO, t_SU and t_U, in 0.1 ps of the grade 2 column, at grade 1 and at
  grade 2 (R113); whether the part is of grade 2. -/
  budget : Nat × Nat
  grade2 : Bool
  /-- What a path that does not settle leaves at a destination (R60). -/
  free : Nat → Bool

/-- The code word w of the active plane's block of a tile. -/
def FabView.cfg (v : FabView) (g : Tile) (w : Nat) : Word64 :=
  v.word (cfgKey g.sector (v.plane g.sector) g.place w)

/-- Bits [lo + len − 1 : lo] of a 64-bit word as a number. -/
def bits64 (w : Word64) (lo len : Nat) : Nat := w.toNat / 2 ^ lo % 2 ^ len

/-- Bit b of the tile routing field RT: ROUTE[b mod 112] of cell b div 112, of which W2 holds [47:0] and W3 [111:48]
(Table 4.5). -/
def rtBit (word : Nat → Word64) (b : Nat) : Bool :=
  let c := b / 112
  let r := b % 112
  if r < 48 then (word (4 * c + 2)).getLsbD (16 + r) else (word (4 * c + 3)).getLsbD (r - 48)

/-- A field of RT as a number. -/
def rtField (word : Nat → Word64) (lo len : Nat) : Nat :=
  (List.range len).foldl (fun acc i => if rtBit word (lo + i) then acc + 2 ^ i else acc) 0

/-- A field of RT of the active plane of a tile. -/
def FabView.rt (v : FabView) (g : Tile) (lo len : Nat) : Nat := rtField (v.cfg g) lo len

/-- A field of the attachment field AF, which is RT[8959:2496] (Table 5.5). -/
def FabView.af (v : FabView) (g : Tile) (lo len : Nat) : Nat := v.rt g (2496 + lo) len

/-- The tile δ steps from a tile in direction d (east, north, west, south), if it lies in the tier. -/
def stepTile (g : Tile) (d δ : Nat) : Option Tile :=
  match d with
  | 0 => if g.x + δ < 144 then some { g with x := g.x + δ } else none
  | 1 => if g.y + δ < 120 then some { g with y := g.y + δ } else none
  | 2 => if δ ≤ g.x then some { g with x := g.x - δ } else none
  | _ => if δ ≤ g.y then some { g with y := g.y - δ } else none

/-- The tile δ steps against direction d. -/
def backTile (g : Tile) (d δ : Nat) : Option Tile := stepTile g ((d + 2) % 4) δ

/-- A value of the fabric in a slot: a source-menu entry of a tile (Table 5.1), a combinational output of a cell
(0 is X, 1 is Y, 2 is COUT), a cell-menu entry of a cluster (Table 4.3), the value a segment carries (m as in
`wregKey`), or the value on a vertical link. -/
inductive Sig where
  | src (g : Tile) (e : Nat)
  | out (g : Tile) (c : Nat) (o : Nat)
  | menu (g : Tile) (k : Nat) (e : Nat)
  | seg (g : Tile) (m : Nat)
  | vlink (g : Tile) (n : Nat)
  deriving DecidableEq, Repr

/-- How many tiles away the far end of segment m is. -/
def segReach (m : Nat) : Nat := if m < 64 then 2 else 6

/-- The direction of segment m. -/
def segDir (m : Nat) : Nat := if m < 64 then m / 16 else (m - 64) / 2

/-- Where RT holds the source select of segment m (Table 5.5). -/
def segSelAt (m : Nat) : Nat := if m < 64 then 1056 + 11 * m else 1760 + 11 * (m - 64)

/-- Where RT holds the far-end select of tap m (Table 5.5). -/
def tapSelAt (m : Nat) : Nat := if m < 64 then 1848 + m else 1912 + (m - 64)

/-- Whether one end of a vertical link would drive: its sector drives at all and VDRV is 1 in its active plane (R103). -/
def FabView.wouldDrive (v : FabView) (g : Tile) (n : Nat) : Bool :=
  v.live g.sector && v.rt g (1920 + 12 * n) 1 == 1

/-- The value of a signal in the slot, once every path has settled. The number bounds the elements of a path; a longer one has no
value (`FabView.at`). -/
def FabView.eval (v : FabView) : Nat → Sig → Bool
  | 0, _ => false
  | f + 1, .src g e =>
    if e < 2 then e == 1
    else if e < 8 then false
    else if e < 648 then v.sreg (sregKey g.sector ((e - 8) % 8) g.place ((e - 8) / 8))
    else if e < 808 then v.eval f (.out g ((e - 648) / 2) ((e - 648) % 2))
    else if e < 936 then
      let a := e - 808
      let m := a % 64
      match backTile g (m / 16) (a / 64 + 1) with
      | none => false
      | some h =>
        if a / 64 = 1 ∧ v.rt g (tapSelAt m) 1 = 1 then v.wreg (wregKey g m)
        else v.eval f (.seg h m)
    else if e < 952 then
      let a := e - 936
      let m := 64 + a % 8
      match backTile g (a % 8 / 2) (3 * (a / 8 + 1)) with
      | none => false
      | some h =>
        if a / 8 = 1 ∧ v.rt g (tapSelAt m) 1 = 1 then v.wreg (wregKey g m)
        else v.eval f (.seg h m)
    else if e < 1000 then v.eval f (.vlink g (e - 952))
    else if e < 1320 then v.asrc g.sector g.place (e - 1000)
    else false
  | f + 1, .seg g m =>
    match stepTile g (segDir m) (segReach m) with
    | none => false
    | some _ =>
      if v.live g.sector then v.eval f (.src g (v.rt g (segSelAt m) 11)) else false
  | f + 1, .vlink g n =>
    let g0 : Tile := { g with t := 0 }
    let g1 : Tile := { g with t := 1 }
    let d0 := v.wouldDrive g0 n
    let d1 := v.wouldDrive g1 n
    if v.held (vlinkKey g n) || (d0 && d1) then false
    else if d0 then v.eval f (.src g0 (v.rt g0 (1920 + 12 * n + 1) 11))
    else if d1 then v.eval f (.src g1 (v.rt g1 (1920 + 12 * n + 1) 11))
    else false
  | f + 1, .menu g k e =>
    if e < 80 then v.sreg (sregKey g.sector (e % 8) g.place (10 * k + e / 8))
    else if e < 100 then v.eval f (.out g (10 * k + (e - 80) / 2) ((e - 80) % 2))
    else if e < 196 then v.eval f (.src g (v.rt g (11 * (e - 100)) 11))
    else if e < 244 then v.eval f (.vlink g (e - 196))
    else if e < 252 then v.asrc g.sector g.place (e - 244)
    else e == 253
  | f + 1, .out g c o =>
    let w0 := v.cfg g (4 * c)
    let w1 := v.cfg g (4 * c + 1)
    let w2 := v.cfg g (4 * c + 2)
    let inp := fun (i : Nat) => v.eval f (.menu g (c / 10) (bits64 w1 (8 * i) 8))
    let mode := bits64 w2 0 2
    let cin := bits64 w2 2 2
    let idx5 := fun (_ : Unit) =>
      (inp 0).toNat + 2 * (inp 1).toNat + 4 * (inp 2).toNat + 8 * (inp 3).toNat + 16 * (inp 4).toNat
    let ci := fun (_ : Unit) =>
      match cin with
      | 0 =>
        if c = 0 then
          if g.y % 12 = 0 then false else v.eval f (.out { g with y := g.y - 1 } 79 2)
        else v.eval f (.out g (c - 1) 2)
      | 1 => false
      | 2 => true
      | _ => inp 5
    if mode = 2 then
      let i5 := idx5 ()
      let p := w0.getLsbD i5
      let cout := if p then ci () else w0.getLsbD (32 + i5)
      if o = 0 then xor p (ci ()) else cout
    else if o = 2 then ci ()
    else if mode = 1 then
      if o = 0 then w0.getLsbD (idx5 ()) else w0.getLsbD (32 + idx5 ())
    else if o = 0 then w0.getLsbD (32 * (inp 5).toNat + idx5 ())
    else w0.getLsbD (idx5 ())

/-- The elements of a path that settles are fewer than this at every permitted clock (R60, Table 5.7 gives at most about a
hundred). -/
def fabDepth : Nat := 4096

/-- The delay of a segment up to its tap a tiles on, with the sector boundary that lies between (Table 5.6). -/
def segDelay (g h : Tile) (a : Nat) : Nat :=
  (match a with | 1 => 700 | 2 => 950 | 3 => 1400 | _ => 2000) + (if g.sector = h.sector then 0 else 200)

/-- The combinational path to a signal settles within `b`, in 0.1 ps of the grade 2 column of Table 5.6 (R113). Every path that the
active planes configure counts, whatever the values on it are. A vertical link costs its delay at the end that drives it as at the far
end (DESIGN CHOICE, log 134). -/
def FabView.settles (v : FabView) : Nat → Nat → Sig → Bool
  | 0, _, _ => false
  | f + 1, b, .src g e =>
    if e < 648 then true
    else if e < 808 then v.settles f b (.out g ((e - 648) / 2) ((e - 648) % 2))
    else if e < 936 then
      let a := e - 808
      if a / 64 = 1 ∧ v.rt g (tapSelAt (a % 64)) 1 = 1 then true
      else
        match backTile g (a % 64 / 16) (a / 64 + 1) with
        | none => true
        | some h => let d := segDelay g h (a / 64 + 1); d ≤ b && v.settles f (b - d) (.seg h (a % 64))
    else if e < 952 then
      let a := e - 936
      if a / 8 = 1 ∧ v.rt g (tapSelAt (64 + a % 8)) 1 = 1 then true
      else
        match backTile g (a % 8 / 2) (3 * (a / 8 + 1)) with
        | none => true
        | some h => let d := segDelay g h (3 * (a / 8 + 1)); d ≤ b && v.settles f (b - d) (.seg h (64 + a % 8))
    else if e < 1000 then 650 ≤ b && v.settles f (b - 650) (.vlink g (e - 952))
    else true
  | f + 1, b, .seg g m =>
    match stepTile g (segDir m) (segReach m) with
    | none => true
    | some _ => !v.live g.sector || v.settles f b (.src g (v.rt g (segSelAt m) 11))
  | f + 1, b, .vlink g n =>
    let g0 : Tile := { g with t := 0 }
    let g1 : Tile := { g with t := 1 }
    let d0 := v.wouldDrive g0 n
    let d1 := v.wouldDrive g1 n
    if v.held (vlinkKey g n) || (d0 && d1) then true
    else if d0 then v.settles f b (.src g0 (v.rt g0 (1920 + 12 * n + 1) 11))
    else if d1 then v.settles f b (.src g1 (v.rt g1 (1920 + 12 * n + 1) 11))
    else true
  | f + 1, b, .menu g k e =>
    if e < 80 then 200 ≤ b
    else if e < 100 then 200 ≤ b && v.settles f (b - 200) (.out g (10 * k + (e - 80) / 2) ((e - 80) % 2))
    else if e < 196 then 550 ≤ b && v.settles f (b - 550) (.src g (v.rt g (11 * (e - 100)) 11))
    else if e < 244 then 650 ≤ b && v.settles f (b - 650) (.vlink g (e - 196))
    else if e < 252 then 200 ≤ b
    else true
  | f + 1, b, .out g c o =>
    let w1 := v.cfg g (4 * c + 1)
    let w2 := v.cfg g (4 * c + 2)
    let mode := bits64 w2 0 2
    let lut := fun (n b : Nat) =>
      600 ≤ b && (List.range n).all (fun i => v.settles f (b - 600) (.menu g (c / 10) (bits64 w1 (8 * i) 8)))
    let carry := 30 ≤ b &&
      match bits64 w2 2 2 with
      | 0 =>
        if c = 0 then g.y % 12 = 0 || (150 ≤ b && v.settles f (b - 150) (.out { g with y := g.y - 1 } 79 2))
        else v.settles f (b - 30) (.out g (c - 1) 2)
      | 3 => v.settles f (b - 30) (.menu g (c / 10) (bits64 w1 40 8))
      | _ => true
    if mode = 2 then (if o = 2 then lut 5 (b - 30) else lut 5 b) && carry
    else if o = 2 then carry
    else lut (if mode ≠ 1 ∧ o = 0 then 6 else 5) b

/-- The path to a signal settles in the slot on the part: what settles at grade 1 settles at grade 2. -/
def FabView.inTime (v : FabView) (g : Sig) : Bool :=
  v.settles fabDepth v.budget.1 g || (v.grade2 && v.settles fabDepth v.budget.2 g)

/-- What a destination sees of a signal: its value, or any value where the path does not settle in the slot (R60, R113). -/
def FabView.at (v : FabView) (dest : Nat) (g : Sig) : Bool := if v.inTime g then v.eval fabDepth g else v.free dest

/-- The source-menu entry that an 11-bit select of a tile names, in this slot. -/
def FabView.sel (v : FabView) (g : Tile) (e : Nat) : Bool := v.at (3 * (g.key * 2048 + e)) (.src g e)

/-- A one-bit input that AF selects: the source whose 11-bit select stands at bit `lo` of AF. -/
def FabView.afIn (v : FabView) (g : Tile) (lo : Nat) : Bool := v.at (3 * (g.key * 8192 + lo) + 1) (.src g (v.af g lo 11))

/-- What segment m carries to the wire register at its far end: the path to its δ = 2 or δ = 6 tap settles, or any value is captured. -/
def FabView.capture (v : FabView) (g : Tile) (m : Nat) : Bool :=
  let far := (stepTile g (segDir m) (segReach m)).getD g
  let d := segDelay g far (segReach m)
  let fits := fun (b : Nat) => d ≤ b && v.settles fabDepth (b - d) (.seg g m)
  if fits v.budget.1 || (v.grade2 && fits v.budget.2) then v.eval fabDepth (.seg g m) else v.free (3 * wregKey far m + 2 ^ 32)

/-- A bus of n inputs, the select of bit i at bit `lo + 11·i` of AF. -/
def FabView.afBus (v : FabView) (g : Tile) (lo n : Nat) : Nat :=
  (List.range n).foldl (fun acc i => if v.afIn g (lo + 11 * i) then acc + 2 ^ i else acc) 0

/-- The value a cell's active-plane register takes at the end of the slot, if its write is enabled (R85, R86). Where a path to its data,
enable or set-reset input does not settle, the register takes any value (R60). -/
def FabView.cellNext (v : FabView) (g : Tile) (c : Nat) : Option Bool :=
  let w1 := v.cfg g (4 * c + 1)
  let w2 := v.cfg g (4 * c + 2)
  let menu := fun (lo : Nat) => Sig.menu g (c / 10) (bits64 w1 lo 8)
  let inp := fun (lo : Nat) => v.eval fabDepth (menu lo)
  let any := v.free (3 * (g.key * 80 + c) + 2)
  let enable := bits64 w2 7 2
  let reset := bits64 w2 9 2
  let data := match bits64 w2 4 3 with
    | 1 => Sig.out g c 1
    | 2 => menu 40
    | 3 => menu 32
    | 4 => .out g c 2
    | _ => .out g c 0
  let timed := (enable < 2 || v.inTime (menu 48)) && (reset % 3 = 0 || v.inTime (menu 56))
  let en := match enable with
    | 0 => false
    | 1 => true
    | 2 => inp 48
    | _ => !(inp 48)
  let sr := match reset with
    | 1 => inp 56
    | 2 => !(inp 56)
    | _ => false
  if enable = 0 then none
  else if !timed then some any
  else if !en then none
  else if sr then some (w2.getLsbD 11)
  else some (if v.inTime data then v.eval fabDepth data else any)

end Sys2Proof.Machine
end

