-- ==== Sys2Proof/Machine/RegMap.lean ====
section
/-!
DEFINITION. The register space of the device, written from the register headings and field tables of every
chapter of spec/: one row per register (offset, copies, reset value, fields with their access types of Table 0.7),
the lookup of an address among them (Table 1.8), and a named field for each row of each field table.
Offsets count from 0x0007_0000_0000.
-/

namespace Sys2Proof.Machine

/-- The access types of Table 0.7 (R4). `W1S` is named there and used by no register. -/
inductive Acc where
  | rw | ro | wo | w1c | w1s | rc
  deriving DecidableEq, Repr

/-- One field of a field table: its bits and its access type. -/
structure FieldRow where
  hi : Nat
  lo : Nat
  acc : Acc
  deriving DecidableEq, Repr

/-- One register heading: its offset in its block, how many copies it has and how far apart, its reset value, its
fields, and whether every reset but power-on leaves it alone (R7). -/
structure RegRow where
  off : Nat
  stride : Nat
  count : Nat
  reset : Nat
  alwaysOn : Bool
  fields : List FieldRow
  deriving DecidableEq, Repr

/-- A named field of one register: the register's offset in the register space and the field's bits. -/
structure Field where
  reg : Nat
  hi : Nat
  lo : Nat
  deriving DecidableEq, Repr

/-- The registers of block TIME (Table 1.8; 02_machine_time.md). -/
def rowsTIME : List RegRow :=
  [ ⟨0x0, 4, 1, 0x50, false, [⟨7, 7, .wo⟩, ⟨6, 6, .rw⟩, ⟨5, 4, .rw⟩, ⟨3, 3, .rw⟩, ⟨1, 0, .rw⟩]⟩,
    ⟨0x4, 4, 1, 0xFA0, false, [⟨24, 0, .rw⟩]⟩,
    ⟨0x8, 4, 1, 0x100, false, [⟨23, 0, .rw⟩]⟩,
    ⟨0xC, 4, 1, 0x7F040000, false, [⟨30, 24, .rw⟩, ⟨23, 16, .rw⟩, ⟨14, 8, .rw⟩, ⟨7, 0, .rw⟩]⟩,
    ⟨0x10, 4, 1, 0x0, false, [⟨15, 15, .ro⟩, ⟨14, 14, .ro⟩, ⟨13, 13, .ro⟩, ⟨12, 12, .ro⟩, ⟨11, 11, .ro⟩, ⟨10, 10, .ro⟩, ⟨9, 9, .ro⟩, ⟨8, 8, .w1c⟩]⟩,
    ⟨0x14, 4, 1, 0x0, false, [⟨31, 0, .ro⟩]⟩,
    ⟨0x18, 4, 1, 0x0, false, [⟨15, 0, .ro⟩]⟩,
    ⟨0x1C, 4, 1, 0x0, false, [⟨23, 0, .ro⟩]⟩,
    ⟨0x20, 4, 1, 0x0, false, [⟨31, 0, .ro⟩]⟩,
    ⟨0x24, 4, 1, 0x0, false, [⟨31, 24, .rc⟩, ⟨23, 16, .rc⟩, ⟨15, 8, .rc⟩, ⟨7, 0, .rc⟩]⟩,
    ⟨0x28, 4, 1, 0x0, false, [⟨31, 0, .rc⟩]⟩,
    ⟨0x2C, 4, 1, 0x0, false, [⟨31, 0, .rc⟩]⟩,
    ⟨0x30, 4, 1, 0x30, false, [⟨10, 0, .rw⟩]⟩,
    ⟨0x40, 4, 8, 0x0, false, [⟨31, 0, .w1c⟩]⟩,
    ⟨0x60, 4, 8, 0x0, false, [⟨31, 0, .w1c⟩]⟩ ]

/-- The registers of block SEC (Table 1.8; 03, 05, 06, 07, 08, 12, 13). -/
def rowsSEC : List RegRow :=
  [ ⟨0x0, 4, 1, 0x30, false, [⟨31, 31, .rw⟩, ⟨30, 29, .rw⟩, ⟨28, 28, .rw⟩, ⟨27, 27, .rw⟩, ⟨26, 24, .rw⟩, ⟨21, 20, .rw⟩, ⟨18, 16, .rw⟩, ⟨5, 4, .rw⟩, ⟨2, 0, .rw⟩]⟩,
    ⟨0x4, 4, 1, 0x0, false, [⟨15, 15, .ro⟩, ⟨14, 12, .ro⟩, ⟨2, 2, .w1c⟩, ⟨1, 1, .w1c⟩, ⟨0, 0, .w1c⟩]⟩,
    ⟨0x8, 4, 1, 0x0, false, [⟨23, 16, .ro⟩, ⟨15, 0, .ro⟩]⟩,
    ⟨0xC, 4, 1, 0x0, false, [⟨31, 16, .rc⟩, ⟨15, 0, .rc⟩]⟩,
    ⟨0x30, 4, 1, 0x0, false, [⟨31, 31, .w1c⟩, ⟨30, 30, .ro⟩, ⟨25, 22, .ro⟩, ⟨21, 18, .ro⟩, ⟨17, 12, .ro⟩, ⟨10, 8, .ro⟩, ⟨6, 4, .ro⟩]⟩,
    ⟨0x34, 4, 1, 0x0, false, [⟨31, 16, .ro⟩, ⟨15, 0, .rc⟩]⟩,
    ⟨0x100, 4, 1, 0x0, false, [⟨31, 31, .wo⟩, ⟨30, 30, .rw⟩, ⟨29, 29, .rw⟩, ⟨10, 8, .rw⟩, ⟨4, 0, .rw⟩]⟩,
    ⟨0x104, 4, 1, 0x0, false, [⟨31, 0, .rw⟩]⟩,
    ⟨0x108, 4, 1, 0x0, false, [⟨31, 0, .rw⟩]⟩,
    ⟨0x10C, 4, 1, 0x0, false, [⟨9, 9, .w1c⟩, ⟨8, 8, .w1c⟩, ⟨7, 7, .w1c⟩, ⟨6, 6, .w1c⟩, ⟨2, 2, .w1c⟩, ⟨1, 1, .w1c⟩, ⟨0, 0, .ro⟩]⟩,
    ⟨0x110, 4, 1, 0x0, false, [⟨31, 16, .rc⟩, ⟨15, 0, .rc⟩]⟩,
    ⟨0x200, 4, 1, 0x0, false, [⟨31, 31, .wo⟩, ⟨30, 30, .rw⟩, ⟨29, 29, .rw⟩, ⟨13, 0, .rw⟩]⟩,
    ⟨0x204, 4, 1, 0x0, false, [⟨31, 0, .rw⟩]⟩,
    ⟨0x208, 4, 1, 0x0, false, [⟨31, 0, .rw⟩]⟩,
    ⟨0x20C, 4, 1, 0x0, false, [⟨29, 16, .ro⟩, ⟨9, 9, .w1c⟩, ⟨8, 8, .w1c⟩, ⟨7, 7, .w1c⟩, ⟨6, 6, .w1c⟩, ⟨5, 5, .w1c⟩, ⟨4, 4, .w1c⟩, ⟨3, 3, .w1c⟩, ⟨2, 2, .w1c⟩, ⟨1, 1, .ro⟩, ⟨0, 0, .ro⟩]⟩,
    ⟨0x210, 4, 1, 0x0, false, [⟨31, 16, .rc⟩, ⟨15, 0, .rc⟩]⟩,
    ⟨0x214, 4, 1, 0x0, false, [⟨31, 0, .rc⟩]⟩,
    ⟨0x218, 4, 1, 0x0, false, [⟨31, 16, .rc⟩, ⟨15, 0, .rc⟩]⟩,
    ⟨0x21C, 4, 1, 0x0, false, [⟨31, 16, .rc⟩, ⟨15, 0, .rc⟩]⟩,
    ⟨0x40, 4, 8, 0x0, false, [⟨31, 30, .rw⟩, ⟨9, 0, .rw⟩]⟩ ]
  ++ [ ⟨0x60, 4, 8, 0x0, false, [⟨3, 3, .rw⟩, ⟨2, 2, .rw⟩, ⟨1, 1, .rw⟩]⟩,
    ⟨0x80, 4, 8, 0x0, false, [⟨31, 25, .rw⟩, ⟨24, 12, .rw⟩, ⟨11, 0, .rw⟩]⟩,
    ⟨0x300, 4, 1, 0x0, false, [⟨30, 28, .ro⟩, ⟨27, 16, .ro⟩, ⟨9, 9, .w1c⟩, ⟨8, 8, .w1c⟩, ⟨7, 7, .w1c⟩, ⟨6, 6, .w1c⟩, ⟨5, 5, .w1c⟩, ⟨4, 4, .w1c⟩]⟩,
    ⟨0x304, 4, 1, 0x0, false, [⟨31, 16, .rc⟩, ⟨15, 0, .rc⟩]⟩,
    ⟨0x308, 4, 1, 0x0, false, [⟨31, 16, .rc⟩, ⟨15, 0, .rc⟩]⟩,
    ⟨0x310, 4, 1, 0x0, false, [⟨31, 0, .rc⟩]⟩,
    ⟨0x314, 4, 1, 0x0, false, [⟨31, 0, .rc⟩]⟩,
    ⟨0x318, 4, 1, 0x0, false, [⟨31, 0, .rc⟩]⟩,
    ⟨0x31C, 4, 1, 0x0, false, [⟨31, 0, .rc⟩]⟩,
    ⟨0x320, 4, 1, 0x0, false, [⟨9, 0, .rw⟩]⟩,
    ⟨0x324, 4, 1, 0x14, false, [⟨4, 4, .rw⟩, ⟨3, 0, .rw⟩]⟩,
    ⟨0x400, 4, 64, 0x0, false, [⟨31, 0, .ro⟩]⟩,
    ⟨0x500, 4, 1, 0x0, false, [⟨2, 2, .ro⟩, ⟨1, 1, .ro⟩, ⟨0, 0, .ro⟩]⟩,
    ⟨0x504, 4, 1, 0x0, false, [⟨31, 0, .ro⟩]⟩,
    ⟨0x600, 4, 1, 0x0, false, [⟨2, 2, .wo⟩, ⟨1, 1, .wo⟩, ⟨0, 0, .wo⟩]⟩,
    ⟨0x604, 4, 1, 0x0, false, [⟨16, 16, .rw⟩, ⟨15, 8, .rw⟩, ⟨2, 2, .rw⟩, ⟨1, 1, .rw⟩, ⟨0, 0, .rw⟩]⟩,
    ⟨0x608, 4, 1, 0x0, false, [⟨14, 1, .rw⟩]⟩,
    ⟨0x60C, 4, 1, 0x0, false, [⟨14, 1, .rw⟩]⟩,
    ⟨0x610, 4, 1, 0x0, false, [⟨31, 29, .ro⟩, ⟨28, 28, .w1c⟩, ⟨27, 27, .w1c⟩, ⟨26, 26, .w1c⟩, ⟨22, 19, .ro⟩, ⟨15, 8, .ro⟩, ⟨3, 0, .ro⟩]⟩,
    ⟨0x614, 4, 1, 0x0, false, [⟨14, 1, .ro⟩]⟩ ]
  ++ [ ⟨0x618, 4, 1, 0x0, false, [⟨31, 0, .ro⟩]⟩,
    ⟨0x61C, 4, 1, 0x0, false, [⟨15, 0, .ro⟩]⟩,
    ⟨0x620, 4, 1, 0x0, false, [⟨31, 16, .rc⟩, ⟨15, 0, .rc⟩]⟩,
    ⟨0x700, 4, 1, 0x1010, false, [⟨31, 31, .rw⟩, ⟨12, 8, .rw⟩, ⟨4, 0, .rw⟩]⟩,
    ⟨0x704, 4, 1, 0x1000, false, [⟨15, 0, .rw⟩]⟩,
    ⟨0x708, 4, 1, 0x0, false, [⟨31, 31, .ro⟩, ⟨30, 30, .ro⟩, ⟨23, 16, .ro⟩, ⟨15, 8, .ro⟩, ⟨3, 3, .w1c⟩, ⟨2, 2, .w1c⟩, ⟨1, 1, .w1c⟩, ⟨0, 0, .w1c⟩]⟩,
    ⟨0x70C, 4, 1, 0x0, false, [⟨31, 16, .rc⟩, ⟨15, 0, .rc⟩]⟩ ]

/-- The registers of block LQ (Table 1.8; 09_frontend_lanes.md, 10_trunk_links.md, 11_lane_bringup_test.md). -/
def rowsLQ : List RegRow :=
  [ ⟨0x0, 4, 1, 0x0, false, [⟨31, 31, .w1c⟩, ⟨30, 30, .ro⟩, ⟨15, 8, .rw⟩, ⟨1, 0, .rw⟩]⟩,
    ⟨0x4, 4, 1, 0x0, false, [⟨31, 31, .ro⟩, ⟨8, 8, .rw⟩, ⟨7, 0, .rw⟩]⟩,
    ⟨0x8, 4, 1, 0x0, false, [⟨31, 31, .ro⟩, ⟨30, 30, .w1c⟩, ⟨29, 29, .w1c⟩, ⟨7, 0, .ro⟩]⟩,
    ⟨0xC, 4, 1, 0x0, false, [⟨15, 0, .rc⟩]⟩ ]

/-- The registers of block LN (Table 1.8; 09_frontend_lanes.md, 10_trunk_links.md, 11_lane_bringup_test.md). -/
def rowsLN : List RegRow :=
  [ ⟨0x100, 4, 1, 0x447, false, [⟨17, 17, .rw⟩, ⟨16, 16, .rw⟩, ⟨15, 12, .rw⟩, ⟨11, 8, .rw⟩, ⟨7, 4, .rw⟩, ⟨2, 0, .rw⟩]⟩,
    ⟨0x104, 4, 1, 0x0, false, [⟨31, 31, .ro⟩, ⟨30, 24, .ro⟩, ⟨18, 16, .ro⟩, ⟨5, 5, .w1c⟩, ⟨4, 4, .w1c⟩, ⟨3, 3, .w1c⟩, ⟨2, 2, .w1c⟩]⟩,
    ⟨0x108, 4, 1, 0x0, false, [⟨31, 16, .rc⟩, ⟨15, 0, .rc⟩]⟩,
    ⟨0x10C, 4, 1, 0x0, false, [⟨31, 0, .rc⟩]⟩,
    ⟨0x110, 4, 1, 0x0, false, [⟨31, 16, .rc⟩, ⟨15, 0, .rc⟩]⟩,
    ⟨0x200, 4, 1, 0x40100448, false, [⟨31, 28, .rw⟩, ⟨27, 24, .rw⟩, ⟨23, 16, .rw⟩, ⟨11, 8, .rw⟩, ⟨7, 4, .rw⟩, ⟨3, 3, .rw⟩, ⟨2, 2, .rw⟩, ⟨1, 1, .rw⟩]⟩,
    ⟨0x204, 4, 1, 0x0, false, [⟨31, 31, .ro⟩, ⟨30, 30, .ro⟩, ⟨29, 29, .w1c⟩, ⟨28, 28, .w1c⟩, ⟨27, 27, .w1c⟩, ⟨26, 26, .w1c⟩, ⟨25, 25, .w1c⟩, ⟨24, 24, .w1c⟩, ⟨18, 16, .ro⟩, ⟨10, 0, .ro⟩]⟩,
    ⟨0x208, 4, 1, 0x0, false, [⟨31, 16, .rc⟩, ⟨15, 0, .rc⟩]⟩,
    ⟨0x20C, 4, 1, 0x0, false, [⟨31, 0, .rc⟩]⟩,
    ⟨0x210, 4, 1, 0x0, false, [⟨31, 16, .rc⟩, ⟨15, 0, .rc⟩]⟩,
    ⟨0x214, 4, 1, 0x0, false, [⟨31, 0, .rc⟩]⟩,
    ⟨0x218, 4, 1, 0x0, false, [⟨31, 16, .rc⟩, ⟨15, 0, .rc⟩]⟩,
    ⟨0x220, 4, 1, 0x88888888, false, [⟨31, 0, .rw⟩]⟩,
    ⟨0x224, 4, 1, 0x88888888, false, [⟨31, 0, .rw⟩]⟩,
    ⟨0x228, 4, 1, 0x88888888, false, [⟨31, 0, .rw⟩]⟩,
    ⟨0x22C, 4, 1, 0x88888888, false, [⟨31, 0, .rw⟩]⟩,
    ⟨0x240, 4, 8, 0x0, false, [⟨31, 31, .rw⟩, ⟨30, 30, .rw⟩, ⟨13, 8, .rw⟩, ⟨5, 0, .rw⟩]⟩,
    ⟨0x260, 4, 8, 0x0, false, [⟨31, 31, .rw⟩, ⟨30, 30, .rw⟩, ⟨29, 29, .rw⟩, ⟨27, 24, .rw⟩, ⟨23, 20, .rw⟩, ⟨19, 14, .rw⟩, ⟨13, 8, .rw⟩, ⟨5, 0, .rw⟩]⟩,
    ⟨0x280, 4, 8, 0x0, false, [⟨31, 0, .rw⟩]⟩,
    ⟨0x2A0, 4, 8, 0x0, false, [⟨31, 0, .rw⟩]⟩ ]
  ++ [ ⟨0x2C0, 4, 8, 0x0, false, [⟨31, 16, .ro⟩, ⟨15, 0, .rw⟩]⟩,
    ⟨0x2E0, 4, 8, 0x0, false, [⟨31, 16, .ro⟩, ⟨15, 0, .rw⟩]⟩,
    ⟨0x0, 4, 1, 0x0, false, [⟨31, 31, .wo⟩, ⟨2, 2, .rw⟩, ⟨0, 0, .rw⟩]⟩,
    ⟨0x4, 4, 1, 0x0, false, [⟨31, 29, .ro⟩, ⟨28, 28, .ro⟩, ⟨27, 27, .w1c⟩, ⟨26, 26, .w1c⟩, ⟨25, 25, .w1c⟩, ⟨24, 24, .w1c⟩, ⟨23, 20, .ro⟩, ⟨19, 12, .ro⟩, ⟨11, 9, .ro⟩]⟩,
    ⟨0x8, 4, 1, 0x0, false, [⟨31, 16, .rc⟩, ⟨15, 0, .rc⟩]⟩,
    ⟨0x20, 4, 1, 0x12000, false, [⟨31, 31, .wo⟩, ⟨30, 30, .wo⟩, ⟨23, 16, .rw⟩, ⟨15, 10, .rw⟩, ⟨9, 9, .rw⟩, ⟨8, 8, .rw⟩, ⟨7, 6, .rw⟩, ⟨5, 3, .rw⟩, ⟨2, 0, .rw⟩]⟩,
    ⟨0x24, 4, 1, 0x0, false, [⟨31, 31, .ro⟩, ⟨30, 30, .w1c⟩]⟩,
    ⟨0x28, 4, 1, 0x0, false, [⟨31, 0, .rc⟩]⟩,
    ⟨0x2C, 4, 1, 0x0, false, [⟨31, 0, .ro⟩]⟩,
    ⟨0x30, 4, 1, 0x0, false, [⟨15, 0, .ro⟩]⟩,
    ⟨0x40, 4, 1, 0x0, false, [⟨31, 31, .wo⟩, ⟨30, 30, .ro⟩, ⟨2, 2, .w1c⟩, ⟨1, 1, .rw⟩, ⟨0, 0, .rw⟩]⟩ ]

/-- The registers of block NOC (Table 1.8; 13_network.md). -/
def rowsNOC : List RegRow :=
  [ ⟨0x0, 4, 1, 0x80010000, false, [⟨31, 31, .rw⟩, ⟨23, 0, .rw⟩]⟩,
    ⟨0x4, 4, 1, 0x0, false, [⟨31, 31, .w1c⟩, ⟨30, 30, .w1c⟩, ⟨29, 28, .ro⟩, ⟨27, 18, .ro⟩, ⟨17, 10, .ro⟩, ⟨9, 9, .ro⟩]⟩,
    ⟨0x8, 4, 1, 0x0, false, [⟨31, 0, .ro⟩]⟩,
    ⟨0xC, 4, 1, 0x0, false, [⟨15, 0, .ro⟩]⟩,
    ⟨0x10, 4, 1, 0x0, false, [⟨31, 16, .rc⟩, ⟨15, 0, .rc⟩]⟩,
    ⟨0x14, 4, 1, 0x0, false, [⟨15, 0, .ro⟩]⟩ ]

/-- The registers of block MEMC (Table 1.8; 14_memory_layer.md). -/
def rowsMEMC : List RegRow :=
  [ ⟨0x0, 4, 1, 0x3, false, [⟨1, 1, .rw⟩, ⟨0, 0, .rw⟩]⟩,
    ⟨0x4, 4, 1, 0x400, false, [⟨15, 0, .rw⟩]⟩,
    ⟨0x8, 4, 1, 0x0, false, [⟨23, 0, .ro⟩]⟩,
    ⟨0xC, 4, 1, 0x0, false, [⟨31, 0, .ro⟩]⟩,
    ⟨0x10, 4, 1, 0x0, false, [⟨31, 31, .ro⟩, ⟨30, 30, .ro⟩, ⟨29, 29, .ro⟩, ⟨5, 5, .w1c⟩, ⟨4, 4, .w1c⟩, ⟨3, 3, .w1c⟩, ⟨2, 2, .w1c⟩]⟩,
    ⟨0x14, 4, 1, 0x0, false, [⟨31, 6, .ro⟩]⟩,
    ⟨0x18, 4, 1, 0x0, false, [⟨16, 16, .ro⟩, ⟨15, 0, .ro⟩]⟩,
    ⟨0x1C, 4, 1, 0x0, false, [⟨31, 16, .rc⟩, ⟨15, 0, .rc⟩]⟩,
    ⟨0x20, 4, 1, 0x0, false, [⟨31, 16, .rc⟩, ⟨15, 0, .rc⟩]⟩ ]

/-- The registers of block VLT (Table 1.8; 15_protection.md). -/
def rowsVLT : List RegRow :=
  [ ⟨0x0, 4, 1, 0x0, false, [⟨31, 30, .ro⟩, ⟨29, 29, .ro⟩, ⟨28, 28, .ro⟩, ⟨27, 27, .ro⟩, ⟨26, 26, .ro⟩, ⟨7, 7, .w1c⟩, ⟨6, 6, .w1c⟩, ⟨5, 5, .w1c⟩, ⟨4, 4, .w1c⟩, ⟨3, 3, .w1c⟩, ⟨2, 2, .w1c⟩, ⟨1, 1, .w1c⟩, ⟨0, 0, .w1c⟩]⟩,
    ⟨0x4, 4, 1, 0x0, false, [⟨25, 16, .ro⟩, ⟨1, 0, .ro⟩]⟩,
    ⟨0x8, 4, 1, 0x0, false, [⟨3, 0, .wo⟩]⟩,
    ⟨0xC, 4, 1, 0x0, false, [⟨5, 0, .wo⟩]⟩,
    ⟨0x10, 4, 1, 0x0, false, [⟨0, 0, .wo⟩]⟩,
    ⟨0x20, 4, 8, 0x0, false, [⟨31, 0, .wo⟩]⟩,
    ⟨0x40, 4, 1, 0x0, false, [⟨31, 0, .ro⟩]⟩,
    ⟨0x44, 4, 1, 0x0, false, [⟨31, 0, .ro⟩]⟩,
    ⟨0x48, 4, 1, 0x0, false, [⟨31, 16, .rc⟩, ⟨15, 0, .rc⟩]⟩,
    ⟨0x4C, 4, 1, 0x0, false, [⟨31, 0, .ro⟩]⟩,
    ⟨0x50, 4, 1, 0x0, true, [⟨31, 28, .ro⟩, ⟨15, 8, .ro⟩, ⟨3, 0, .ro⟩]⟩,
    ⟨0x54, 4, 1, 0x0, true, [⟨27, 0, .ro⟩]⟩,
    ⟨0x100, 16, 16, 0x0, false, [⟨31, 31, .rw⟩, ⟨30, 30, .ro⟩, ⟨29, 28, .rw⟩, ⟨21, 16, .rw⟩, ⟨5, 0, .rw⟩]⟩,
    ⟨0x104, 16, 16, 0x0, false, [⟨11, 0, .rw⟩]⟩,
    ⟨0x108, 16, 16, 0x0, false, [⟨21, 0, .rw⟩]⟩,
    ⟨0x10C, 16, 16, 0x0, false, [⟨31, 28, .ro⟩, ⟨27, 0, .ro⟩]⟩ ]

/-- The registers of block CFG (Table 1.8; 16_configuration.md). -/
def rowsCFG : List RegRow :=
  [ ⟨0x0, 4, 1, 0x0, false, [⟨31, 28, .ro⟩, ⟨27, 26, .ro⟩, ⟨25, 25, .ro⟩, ⟨24, 24, .ro⟩, ⟨23, 23, .ro⟩, ⟨22, 21, .ro⟩, ⟨20, 20, .ro⟩, ⟨19, 19, .ro⟩, ⟨7, 7, .w1c⟩, ⟨6, 6, .w1c⟩, ⟨5, 5, .w1c⟩, ⟨4, 4, .w1c⟩, ⟨3, 3, .w1c⟩, ⟨2, 2, .w1c⟩]⟩,
    ⟨0x4, 4, 1, 0x0, false, [⟨31, 24, .ro⟩, ⟨23, 0, .ro⟩]⟩,
    ⟨0x8, 4, 1, 0x0, false, [⟨31, 0, .ro⟩]⟩,
    ⟨0xC, 4, 1, 0x0, false, [⟨31, 0, .ro⟩]⟩,
    ⟨0x10, 4, 1, 0x0, false, [⟨7, 0, .ro⟩]⟩,
    ⟨0x14, 4, 1, 0x0, false, [⟨31, 31, .wo⟩, ⟨0, 0, .rw⟩]⟩,
    ⟨0x18, 4, 1, 0x0, false, [⟨31, 31, .wo⟩, ⟨30, 30, .wo⟩, ⟨29, 29, .wo⟩, ⟨21, 0, .rw⟩]⟩,
    ⟨0x1C, 4, 1, 0x0, false, [⟨31, 0, .wo⟩]⟩,
    ⟨0x20, 4, 1, 0x100, false, [⟨8, 0, .ro⟩]⟩,
    ⟨0x24, 4, 1, 0x0, false, [⟨31, 16, .rc⟩, ⟨15, 0, .rc⟩]⟩,
    ⟨0x28, 4, 1, 0x0, false, [⟨31, 16, .rc⟩, ⟨15, 0, .rc⟩]⟩ ]

/-- The registers of block FL (Table 1.8; 16_configuration.md). -/
def rowsFL : List RegRow :=
  [ ⟨0x0, 4, 1, 0x3, false, [⟨31, 31, .wo⟩, ⟨1, 0, .rw⟩]⟩,
    ⟨0x4, 4, 1, 0x0, false, [⟨22, 0, .rw⟩]⟩,
    ⟨0x8, 4, 1, 0x0, false, [⟨31, 31, .ro⟩, ⟨3, 3, .w1c⟩, ⟨2, 2, .w1c⟩, ⟨1, 1, .w1c⟩, ⟨0, 0, .w1c⟩]⟩,
    ⟨0xC, 4, 1, 0x0, false, [⟨31, 16, .rc⟩, ⟨15, 0, .rc⟩]⟩,
    ⟨0x200, 4, 128, 0x0, false, [⟨31, 0, .rw⟩]⟩ ]

/-- The registers of block SCRB (Table 1.8; 17_scrubbing.md). -/
def rowsSCRB : List RegRow :=
  [ ⟨0x20, 4, 8, 0x0, false, [⟨31, 0, .w1c⟩]⟩,
    ⟨0x40, 4, 8, 0x0, false, [⟨31, 0, .w1c⟩]⟩,
    ⟨0x60, 4, 8, 0x0, false, [⟨31, 0, .ro⟩]⟩,
    ⟨0x100, 16, 240, 0x0, false, [⟨31, 30, .ro⟩, ⟨29, 29, .wo⟩, ⟨4, 4, .w1c⟩, ⟨3, 3, .w1c⟩, ⟨2, 2, .w1c⟩, ⟨1, 1, .w1c⟩]⟩,
    ⟨0x104, 16, 240, 0x0, false, [⟨31, 19, .ro⟩, ⟨18, 0, .ro⟩]⟩,
    ⟨0x108, 16, 240, 0x0, false, [⟨19, 17, .ro⟩, ⟨16, 13, .ro⟩, ⟨12, 9, .ro⟩, ⟨8, 0, .ro⟩]⟩,
    ⟨0x10C, 16, 240, 0x0, false, [⟨31, 24, .rc⟩, ⟨23, 12, .rc⟩, ⟨11, 0, .rc⟩]⟩,
    ⟨0x1000, 256, 240, 0x80000000, false, [⟨31, 31, .rw⟩, ⟨1, 0, .rw⟩]⟩,
    ⟨0x1004, 256, 240, 0x0, false, [⟨15, 0, .rw⟩]⟩ ] ++ (List.range 62).map (fun w => ⟨0x1008 + 4 * w, 256, 240, 0x0, false, []⟩)

/-- The registers of block EVT (Table 1.8; 18_steward_events.md). -/
def rowsEVT : List RegRow :=
  [ ⟨0x0, 4, 4, 0x0, false, [⟨31, 31, .rc⟩, ⟨8, 0, .rc⟩]⟩,
    ⟨0x10, 4, 4, 0x0, false, [⟨2, 0, .rw⟩]⟩,
    ⟨0x20, 4, 4, 0x0, false, [⟨0, 0, .rw⟩]⟩,
    ⟨0x40, 8, 4, 0xFFFFFFFF, false, [⟨31, 0, .rw⟩]⟩,
    ⟨0x44, 8, 4, 0xFFFFFFFF, false, [⟨31, 0, .rw⟩]⟩,
    ⟨0x60, 4, 1, 0x0, false, [⟨8, 0, .wo⟩]⟩,
    ⟨0x64, 4, 1, 0x0, false, [⟨31, 0, .rc⟩]⟩,
    ⟨0x80, 8, 4, 0x0, false, [⟨31, 0, .ro⟩]⟩,
    ⟨0x84, 8, 4, 0x0, false, [⟨31, 31, .w1c⟩, ⟨17, 16, .ro⟩, ⟨15, 0, .ro⟩]⟩,
    ⟨0x100, 4, 9, 0x0, false, [⟨31, 0, .w1c⟩]⟩,
    ⟨0x200, 4, 32, 0x0, false, [⟨31, 31, .rw⟩, ⟨30, 30, .rw⟩, ⟨21, 16, .rw⟩, ⟨7, 0, .rw⟩]⟩,
    ⟨0x1000, 4, 288, 0x0, false, [⟨31, 31, .rw⟩, ⟨10, 8, .rw⟩, ⟨3, 0, .rw⟩]⟩ ]

/-- The registers of block WDT (Table 1.8; 18_steward_events.md). -/
def rowsWDT : List RegRow :=
  [ ⟨0x0, 4, 1, 0x0, false, [⟨1, 1, .rw⟩, ⟨0, 0, .rw⟩]⟩,
    ⟨0x4, 4, 1, 0xFFFFFF, false, [⟨23, 0, .rw⟩]⟩,
    ⟨0x8, 4, 1, 0xFFFFFF, false, [⟨23, 0, .rw⟩]⟩,
    ⟨0xC, 4, 1, 0x0, false, [⟨31, 0, .wo⟩]⟩,
    ⟨0x10, 4, 1, 0x0, false, [⟨25, 16, .ro⟩, ⟨1, 0, .ro⟩]⟩,
    ⟨0x14, 4, 1, 0x0, false, [⟨31, 31, .ro⟩, ⟨30, 30, .ro⟩, ⟨25, 25, .w1c⟩, ⟨24, 24, .w1c⟩, ⟨23, 0, .ro⟩]⟩ ]

/-- The registers of block CLK (Table 1.8; 19_clocks.md). -/
def rowsCLK : List RegRow :=
  [ ⟨0x0, 4, 1, 0x1, false, [⟨2, 2, .rw⟩, ⟨1, 1, .rw⟩, ⟨0, 0, .rw⟩]⟩,
    ⟨0x4, 4, 1, 0x96, false, [⟨31, 31, .wo⟩, ⟨17, 16, .rw⟩, ⟨8, 0, .rw⟩]⟩,
    ⟨0x8, 4, 1, 0x0, false, [⟨31, 31, .ro⟩, ⟨30, 30, .ro⟩, ⟨29, 29, .ro⟩, ⟨28, 27, .ro⟩, ⟨26, 26, .ro⟩, ⟨25, 25, .ro⟩, ⟨24, 24, .ro⟩, ⟨23, 23, .ro⟩, ⟨22, 22, .ro⟩, ⟨21, 21, .ro⟩, ⟨20, 20, .ro⟩, ⟨11, 10, .ro⟩, ⟨8, 0, .ro⟩]⟩,
    ⟨0xC, 4, 1, 0x0, false, [⟨3, 3, .w1c⟩, ⟨2, 2, .w1c⟩, ⟨1, 1, .w1c⟩, ⟨0, 0, .w1c⟩]⟩,
    ⟨0x10, 4, 1, 0x0, false, [⟨15, 0, .ro⟩]⟩,
    ⟨0x14, 4, 1, 0xA00, false, [⟨31, 31, .rw⟩, ⟨30, 29, .rw⟩, ⟨28, 21, .rw⟩, ⟨11, 8, .rw⟩]⟩,
    ⟨0x18, 4, 1, 0x0, false, [⟨23, 0, .rw⟩]⟩,
    ⟨0x1C, 4, 1, 0x0, false, [⟨11, 0, .ro⟩]⟩,
    ⟨0x20, 4, 1, 0x0, false, [⟨31, 16, .rc⟩, ⟨15, 0, .rc⟩]⟩ ]

/-- The registers of block RST (Table 1.8; 20_reset_startup.md). -/
def rowsRST : List RegRow :=
  [ ⟨0x0, 4, 1, 0x1, true, [⟨12, 12, .ro⟩, ⟨11, 8, .ro⟩, ⟨3, 0, .ro⟩]⟩,
    ⟨0x4, 4, 1, 0x0, false, [⟨16, 16, .ro⟩, ⟨15, 8, .ro⟩, ⟨3, 0, .ro⟩]⟩,
    ⟨0x8, 4, 1, 0x0, false, [⟨31, 28, .ro⟩, ⟨23, 0, .ro⟩]⟩,
    ⟨0xC, 4, 1, 0x0, false, [⟨25, 16, .ro⟩, ⟨1, 0, .ro⟩]⟩,
    ⟨0x10, 4, 1, 0x0, false, [⟨0, 0, .wo⟩]⟩,
    ⟨0x20, 4, 1, 0x0, false, [⟨31, 31, .wo⟩, ⟨30, 30, .ro⟩, ⟨7, 0, .rw⟩]⟩,
    ⟨0x24, 4, 1, 0x0, false, [⟨31, 31, .w1c⟩, ⟨30, 30, .w1c⟩, ⟨29, 29, .w1c⟩, ⟨25, 24, .ro⟩, ⟨7, 0, .ro⟩]⟩,
    ⟨0x28, 4, 1, 0x0, false, [⟨1, 1, .ro⟩, ⟨0, 0, .rw⟩]⟩ ]

/-- The registers of block PWR (Table 1.8; 21_power.md). -/
def rowsPWR : List RegRow :=
  [ ⟨0x0, 4, 1, 0x0, false, [⟨1, 0, .rw⟩]⟩,
    ⟨0x4, 4, 1, 0x0, true, [⟨31, 30, .ro⟩, ⟨29, 27, .ro⟩, ⟨26, 26, .ro⟩, ⟨25, 25, .w1c⟩, ⟨19, 16, .ro⟩, ⟨15, 14, .ro⟩]⟩,
    ⟨0x8, 4, 1, 0x3, true, [⟨2, 2, .rw⟩, ⟨1, 1, .rw⟩, ⟨0, 0, .rw⟩]⟩,
    ⟨0xC, 4, 1, 0x0, true, [⟨31, 0, .rw⟩]⟩,
    ⟨0x10, 4, 1, 0x282828, false, [⟨23, 16, .rw⟩, ⟨15, 8, .rw⟩, ⟨7, 0, .rw⟩]⟩,
    ⟨0x14, 4, 1, 0x282828, false, [⟨31, 31, .ro⟩, ⟨23, 16, .ro⟩, ⟨15, 8, .ro⟩, ⟨7, 0, .ro⟩]⟩,
    ⟨0x18, 4, 1, 0x0, false, [⟨31, 31, .w1c⟩, ⟨30, 30, .w1c⟩, ⟨29, 29, .w1c⟩, ⟨28, 28, .w1c⟩, ⟨3, 0, .ro⟩]⟩,
    ⟨0x1C, 4, 1, 0x0, false, [⟨31, 16, .ro⟩, ⟨15, 0, .ro⟩]⟩,
    ⟨0x20, 8, 4, 0x0, true, [⟨31, 0, .ro⟩]⟩,
    ⟨0x24, 8, 4, 0x0, true, [⟨31, 0, .ro⟩]⟩ ]

/-- The registers of block THM (Table 1.8; 22_thermal.md). -/
def rowsTHM : List RegRow :=
  [ ⟨0x0, 4, 1, 0x80000000, false, [⟨31, 31, .rw⟩]⟩,
    ⟨0x4, 4, 1, 0x39F9A, false, [⟨19, 16, .rw⟩, ⟨15, 8, .rw⟩, ⟨7, 0, .rw⟩]⟩,
    ⟨0x8, 4, 1, 0x8, false, [⟨5, 0, .rw⟩]⟩,
    ⟨0xC, 4, 1, 0xA00012C, false, [⟨31, 24, .rw⟩, ⟨8, 0, .rw⟩]⟩,
    ⟨0x10, 4, 1, 0x4000000, false, [⟨31, 27, .ro⟩, ⟨26, 22, .ro⟩, ⟨21, 21, .ro⟩, ⟨20, 20, .ro⟩, ⟨8, 0, .ro⟩]⟩,
    ⟨0x14, 4, 1, 0x0, false, [⟨31, 16, .ro⟩, ⟨15, 0, .ro⟩]⟩,
    ⟨0x18, 4, 1, 0x960, false, [⟨15, 0, .ro⟩]⟩,
    ⟨0x1C, 4, 1, 0x0, false, [⟨3, 3, .w1c⟩, ⟨2, 2, .w1c⟩, ⟨1, 1, .w1c⟩, ⟨0, 0, .w1c⟩]⟩,
    ⟨0x20, 4, 1, 0x0, false, [⟨31, 16, .rc⟩, ⟨15, 0, .rc⟩]⟩,
    ⟨0x24, 4, 1, 0x0, true, [⟨31, 28, .ro⟩, ⟨8, 0, .ro⟩]⟩,
    ⟨0x100, 4, 272, 0x0, false, [⟨31, 31, .ro⟩, ⟨30, 30, .ro⟩, ⟨10, 0, .ro⟩]⟩ ]

/-- The registers of block DBG (Table 1.8; 23_debug_bist.md). -/
def rowsDBG : List RegRow :=
  [ ⟨0x0, 4, 1, 0x0, false, [⟨31, 31, .ro⟩, ⟨30, 30, .ro⟩, ⟨29, 29, .ro⟩, ⟨28, 27, .ro⟩, ⟨26, 26, .w1c⟩, ⟨3, 0, .ro⟩]⟩,
    ⟨0x4, 4, 1, 0x0, false, [⟨31, 31, .wo⟩, ⟨3, 0, .wo⟩]⟩,
    ⟨0x10, 8, 4, 0x0, false, [⟨31, 0, .rw⟩]⟩,
    ⟨0x14, 8, 4, 0x6, false, [⟨31, 0, .rw⟩]⟩,
    ⟨0x30, 4, 1, 0x5A, false, [⟨6, 0, .rw⟩]⟩ ]

/-- The registers of block BIST (Table 1.8; 23_debug_bist.md). -/
def rowsBIST : List RegRow :=
  [ ⟨0x0, 4, 1, 0x0, false, [⟨31, 16, .ro⟩, ⟨15, 0, .ro⟩]⟩,
    ⟨0x4, 4, 1, 0x0, false, [⟨31, 31, .wo⟩, ⟨30, 30, .rw⟩, ⟨6, 0, .rw⟩]⟩,
    ⟨0x8, 4, 1, 0x0, false, [⟨31, 31, .ro⟩, ⟨30, 30, .w1c⟩, ⟨29, 29, .w1c⟩, ⟨28, 28, .w1c⟩, ⟨27, 27, .w1c⟩, ⟨20, 8, .ro⟩, ⟨7, 0, .ro⟩]⟩,
    ⟨0xC, 4, 1, 0x0, false, [⟨25, 22, .ro⟩, ⟨21, 18, .ro⟩, ⟨17, 12, .ro⟩]⟩ ]

/-- The registers of block GPIO (Table 1.8; 24_pins_package.md). -/
def rowsGPIO : List RegRow :=
  [ ⟨0x0, 4, 96, 0x11, false, [⟨31, 31, .rw⟩, ⟨30, 30, .rw⟩, ⟨29, 28, .rw⟩, ⟨27, 26, .rw⟩, ⟨15, 15, .rw⟩, ⟨14, 8, .rw⟩, ⟨5, 4, .rw⟩, ⟨1, 1, .rw⟩, ⟨0, 0, .rw⟩]⟩,
    ⟨0x200, 4, 4, 0x0, false, [⟨23, 0, .ro⟩]⟩,
    ⟨0x210, 4, 4, 0x0, false, [⟨23, 0, .w1c⟩]⟩,
    ⟨0x220, 4, 4, 0x0, false, [⟨23, 0, .rw⟩]⟩,
    ⟨0x230, 4, 4, 0x0, false, [⟨23, 0, .rw⟩]⟩ ]

/-- Whether a row covers an offset of its block (aligned, R6). -/
def RegRow.covers (r : RegRow) (o : Nat) : Bool :=
  r.off ≤ o && (o - r.off) % r.stride == 0 && (o - r.off) / r.stride < r.count

/-- The block's registers and the offset in the block, for an offset of the register space (Table 1.8); nothing in a
gap of the table. -/
def blockOf (o : Nat) : Option (List RegRow × Nat) :=
  let blk := o / 0x10000
  let r := o % 0x10000
  match blk with
  | 0 => some (rowsTIME, r)
  | 1 => some (rowsCLK, r)
  | 2 => some (rowsRST, r)
  | 3 => some (rowsPWR, r)
  | 4 => some (rowsTHM, r)
  | 5 => some (rowsCFG, r)
  | 6 => some (rowsSCRB, r)
  | 7 => some (rowsVLT, r)
  | 8 => some (rowsEVT, r)
  | 9 => some (rowsWDT, r)
  | 10 => some (rowsDBG, r)
  | 11 => some (rowsBIST, r)
  | 12 => some (rowsNOC, r)
  | 13 => some (rowsGPIO, r)
  | 14 => some (rowsFL, r)
  | _ =>
    if 0x10 ≤ blk ∧ blk < 0x20 then some (rowsMEMC, r)
    else if 0x20 ≤ blk ∧ blk < 0x44 then
      if r < 0x1000 then some (rowsLQ, r)
      else if r < 0x5000 then some (rowsLN, r % 0x1000)
      else none
    else if 0x500000 ≤ o ∧ o < 0x5F0000 then some (rowsSEC, o % 0x1000)
    else none

/-- The register row that an offset names, if a register is defined there (R16). -/
def regRow (o : Nat) : Option RegRow :=
  match blockOf o with
  | some (rows, r) => rows.find? (fun w => w.covers r)
  | none => none

/-- The reset value of the register at an offset; 0 where none is defined. -/
def regReset (o : Nat) : BitVec 32 :=
  match regRow o with
  | some w => BitVec.ofNat 32 w.reset
  | none => 0

/-- Whether the register at an offset keeps its value through every reset except power-on (R7). -/
def regAlwaysOn (o : Nat) : Bool :=
  match regRow o with
  | some w => w.alwaysOn
  | none => false

namespace Reg

/-- TIME_CTRL. -/
def TIME_CTRL : Nat := 0x0
def TIME_CTRL_START_FORCE : Field := ⟨TIME_CTRL, 7, 7⟩
def TIME_CTRL_SLIP_TAINT : Field := ⟨TIME_CTRL, 6, 6⟩
def TIME_CTRL_ORB_MODE : Field := ⟨TIME_CTRL, 5, 4⟩
def TIME_CTRL_START_GATE : Field := ⟨TIME_CTRL, 3, 3⟩
def TIME_CTRL_SRC : Field := ⟨TIME_CTRL, 1, 0⟩
/-- TIME_FRAME_LEN. -/
def TIME_FRAME_LEN : Nat := 0x4
def TIME_FRAME_LEN_FRAME_LEN : Field := ⟨TIME_FRAME_LEN, 24, 0⟩
/-- TIME_CLR_LEN. -/
def TIME_CLR_LEN : Nat := 0x8
def TIME_CLR_LEN_CLR_LEN : Field := ⟨TIME_CLR_LEN, 23, 0⟩
/-- TIME_CMD. -/
def TIME_CMD : Nat := 0xC
def TIME_CMD_START_PIN : Field := ⟨TIME_CMD, 30, 24⟩
def TIME_CMD_CMD_LAT : Field := ⟨TIME_CMD, 23, 16⟩
def TIME_CMD_ORB_PIN : Field := ⟨TIME_CMD, 14, 8⟩
def TIME_CMD_SRC_LANE : Field := ⟨TIME_CMD, 7, 0⟩
/-- TIME_STATUS. -/
def TIME_STATUS : Nat := 0x10
def TIME_STATUS_USER : Field := ⟨TIME_STATUS, 15, 15⟩
def TIME_STATUS_WAIT_ORBIT : Field := ⟨TIME_STATUS, 14, 14⟩
def TIME_STATUS_SLIP : Field := ⟨TIME_STATUS, 13, 13⟩
def TIME_STATUS_SYNC : Field := ⟨TIME_STATUS, 12, 12⟩
def TIME_STATUS_CLR : Field := ⟨TIME_STATUS, 11, 11⟩
def TIME_STATUS_ORB_SEEN : Field := ⟨TIME_STATUS, 10, 10⟩
def TIME_STATUS_CLAMP : Field := ⟨TIME_STATUS, 9, 9⟩
def TIME_STATUS_DONE_DROP : Field := ⟨TIME_STATUS, 8, 8⟩
/-- TIME_TICK_LO. -/
def TIME_TICK_LO : Nat := 0x14
def TIME_TICK_LO_TICK_LO : Field := ⟨TIME_TICK_LO, 31, 0⟩
/-- TIME_TICK_HI. -/
def TIME_TICK_HI : Nat := 0x18
def TIME_TICK_HI_TICK_HI : Field := ⟨TIME_TICK_HI, 15, 0⟩
/-- TIME_TIF. -/
def TIME_TIF : Nat := 0x1C
def TIME_TIF_TIF : Field := ⟨TIME_TIF, 23, 0⟩
/-- TIME_FRAME. -/
def TIME_FRAME : Nat := 0x20
def TIME_FRAME_FRAME : Field := ⟨TIME_FRAME, 31, 0⟩
/-- TIME_ERR. -/
def TIME_ERR : Nat := 0x24
def TIME_ERR_ORB_MISS : Field := ⟨TIME_ERR, 31, 24⟩
def TIME_ERR_SLIP_CNT : Field := ⟨TIME_ERR, 23, 16⟩
def TIME_ERR_CHK_ERR : Field := ⟨TIME_ERR, 15, 8⟩
def TIME_ERR_UNK_CMD : Field := ⟨TIME_ERR, 7, 0⟩
/-- TIME_OVD_CNT. -/
def TIME_OVD_CNT : Nat := 0x28
def TIME_OVD_CNT_OVD_CNT : Field := ⟨TIME_OVD_CNT, 31, 0⟩
/-- TIME_TAINT_CNT. -/
def TIME_TAINT_CNT : Nat := 0x2C
def TIME_TAINT_CNT_TAINT_CNT : Field := ⟨TIME_TAINT_CNT, 31, 0⟩
/-- TIME_FREE. -/
def TIME_FREE : Nat := 0x30
def TIME_FREE_FREE_SLOTS : Field := ⟨TIME_FREE, 10, 0⟩
/-- TIME_OVDn. -/
def TIME_OVD (i : Nat) : Nat := 0x40 + 4 * i
def TIME_OVD_OVD (i : Nat) : Field := ⟨(TIME_OVD i), 31, 0⟩
/-- TIME_TAINTn. -/
def TIME_TAINT (i : Nat) : Nat := 0x60 + 4 * i
def TIME_TAINT_TAINT (i : Nat) : Field := ⟨(TIME_TAINT i), 31, 0⟩
/-- SEC_SCHED. -/
def SEC_SCHED (s : Nat) : Nat := 0x500000 + 0x1000 * s
def SEC_SCHED_ARM (s : Nat) : Field := ⟨(SEC_SCHED s), 31, 31⟩
def SEC_SCHED_WHEN (s : Nat) : Field := ⟨(SEC_SCHED s), 30, 29⟩
def SEC_SCHED_MODE (s : Nat) : Field := ⟨(SEC_SCHED s), 28, 28⟩
def SEC_SCHED_PAIR (s : Nat) : Field := ⟨(SEC_SCHED s), 27, 27⟩
def SEC_SCHED_GROUP (s : Nat) : Field := ⟨(SEC_SCHED s), 26, 24⟩
def SEC_SCHED_NEXT_FOLD (s : Nat) : Field := ⟨(SEC_SCHED s), 21, 20⟩
def SEC_SCHED_NEXT_BASE (s : Nat) : Field := ⟨(SEC_SCHED s), 18, 16⟩
def SEC_SCHED_FOLD (s : Nat) : Field := ⟨(SEC_SCHED s), 5, 4⟩
def SEC_SCHED_BASE (s : Nat) : Field := ⟨(SEC_SCHED s), 2, 0⟩
/-- SEC_SCHED_STAT. -/
def SEC_SCHED_STAT (s : Nat) : Nat := 0x500000 + 0x1000 * s + 0x4
def SEC_SCHED_STAT_REF_PAIR (s : Nat) : Field := ⟨(SEC_SCHED_STAT s), 15, 15⟩
def SEC_SCHED_STAT_REF_PLANE (s : Nat) : Field := ⟨(SEC_SCHED_STAT s), 14, 12⟩
def SEC_SCHED_STAT_BADSCHED (s : Nat) : Field := ⟨(SEC_SCHED_STAT s), 2, 2⟩
def SEC_SCHED_STAT_BADARM (s : Nat) : Field := ⟨(SEC_SCHED_STAT s), 1, 1⟩
def SEC_SCHED_STAT_REFUSED (s : Nat) : Field := ⟨(SEC_SCHED_STAT s), 0, 0⟩
/-- SEC_PLANE. -/
def SEC_PLANE (s : Nat) : Nat := 0x500000 + 0x1000 * s + 0x8
def SEC_PLANE_ACTIVE (s : Nat) : Field := ⟨(SEC_PLANE s), 23, 16⟩
def SEC_PLANE_STATE (s : Nat) : Field := ⟨(SEC_PLANE s), 15, 0⟩
/-- SEC_SWAP_CNT. -/
def SEC_SWAP_CNT (s : Nat) : Nat := 0x500000 + 0x1000 * s + 0xC
def SEC_SWAP_CNT_REFUSE_CNT (s : Nat) : Field := ⟨(SEC_SWAP_CNT s), 31, 16⟩
def SEC_SWAP_CNT_SWAP_CNT (s : Nat) : Field := ⟨(SEC_SWAP_CNT s), 15, 0⟩
/-- SEC_VG_STAT. -/
def SEC_VG_STAT (s : Nat) : Nat := 0x500000 + 0x1000 * s + 0x30
def SEC_VG_STAT_TRIP (s : Nat) : Field := ⟨(SEC_VG_STAT s), 31, 31⟩
def SEC_VG_STAT_HELD (s : Nat) : Field := ⟨(SEC_VG_STAT s), 30, 30⟩
def SEC_VG_STAT_U (s : Nat) : Field := ⟨(SEC_VG_STAT s), 25, 22⟩
def SEC_VG_STAT_V (s : Nat) : Field := ⟨(SEC_VG_STAT s), 21, 18⟩
def SEC_VG_STAT_LINK (s : Nat) : Field := ⟨(SEC_VG_STAT s), 17, 12⟩
def SEC_VG_STAT_OWN_PLANE (s : Nat) : Field := ⟨(SEC_VG_STAT s), 10, 8⟩
def SEC_VG_STAT_PART_PLANE (s : Nat) : Field := ⟨(SEC_VG_STAT s), 6, 4⟩
/-- SEC_VG_CNT. -/
def SEC_VG_CNT (s : Nat) : Nat := 0x500000 + 0x1000 * s + 0x34
def SEC_VG_CNT_HELD_CNT (s : Nat) : Field := ⟨(SEC_VG_CNT s), 31, 16⟩
def SEC_VG_CNT_TRIP_CNT (s : Nat) : Field := ⟨(SEC_VG_CNT s), 15, 0⟩
/-- SEC_MAC_SEL. -/
def SEC_MAC_SEL (s : Nat) : Nat := 0x500000 + 0x1000 * s + 0x100
def SEC_MAC_SEL_GO (s : Nat) : Field := ⟨(SEC_MAC_SEL s), 31, 31⟩
def SEC_MAC_SEL_WR (s : Nat) : Field := ⟨(SEC_MAC_SEL s), 30, 30⟩
def SEC_MAC_SEL_TGT (s : Nat) : Field := ⟨(SEC_MAC_SEL s), 29, 29⟩
def SEC_MAC_SEL_PLANE (s : Nat) : Field := ⟨(SEC_MAC_SEL s), 10, 8⟩
def SEC_MAC_SEL_MAC (s : Nat) : Field := ⟨(SEC_MAC_SEL s), 4, 0⟩
/-- SEC_MAC_DLO. -/
def SEC_MAC_DLO (s : Nat) : Nat := 0x500000 + 0x1000 * s + 0x104
def SEC_MAC_DLO_DLO (s : Nat) : Field := ⟨(SEC_MAC_DLO s), 31, 0⟩
/-- SEC_MAC_DHI. -/
def SEC_MAC_DHI (s : Nat) : Nat := 0x500000 + 0x1000 * s + 0x108
def SEC_MAC_DHI_DHI (s : Nat) : Field := ⟨(SEC_MAC_DHI s), 31, 0⟩
/-- SEC_HB_STAT. -/
def SEC_HB_STAT (s : Nat) : Nat := 0x500000 + 0x1000 * s + 0x10C
def SEC_HB_STAT_RK1_OUT (s : Nat) : Field := ⟨(SEC_HB_STAT s), 9, 9⟩
def SEC_HB_STAT_RK1_IN (s : Nat) : Field := ⟨(SEC_HB_STAT s), 8, 8⟩
def SEC_HB_STAT_RK0_OUT (s : Nat) : Field := ⟨(SEC_HB_STAT s), 7, 7⟩
def SEC_HB_STAT_RK0_IN (s : Nat) : Field := ⟨(SEC_HB_STAT s), 6, 6⟩
def SEC_HB_STAT_ACC_TMO (s : Nat) : Field := ⟨(SEC_HB_STAT s), 2, 2⟩
def SEC_HB_STAT_ACC_ERR (s : Nat) : Field := ⟨(SEC_HB_STAT s), 1, 1⟩
def SEC_HB_STAT_ACC_BUSY (s : Nat) : Field := ⟨(SEC_HB_STAT s), 0, 0⟩
/-- SEC_HB_CNT. -/
def SEC_HB_CNT (s : Nat) : Nat := 0x500000 + 0x1000 * s + 0x110
def SEC_HB_CNT_RK1_REF (s : Nat) : Field := ⟨(SEC_HB_CNT s), 31, 16⟩
def SEC_HB_CNT_RK0_REF (s : Nat) : Field := ⟨(SEC_HB_CNT s), 15, 0⟩
/-- SEC_MT_SEL. -/
def SEC_MT_SEL (s : Nat) : Nat := 0x500000 + 0x1000 * s + 0x200
def SEC_MT_SEL_GO (s : Nat) : Field := ⟨(SEC_MT_SEL s), 31, 31⟩
def SEC_MT_SEL_WR (s : Nat) : Field := ⟨(SEC_MT_SEL s), 30, 30⟩
def SEC_MT_SEL_STREAM (s : Nat) : Field := ⟨(SEC_MT_SEL s), 29, 29⟩
def SEC_MT_SEL_ADDR (s : Nat) : Field := ⟨(SEC_MT_SEL s), 13, 0⟩
/-- SEC_MT_DLO. -/
def SEC_MT_DLO (s : Nat) : Nat := 0x500000 + 0x1000 * s + 0x204
def SEC_MT_DLO_DLO (s : Nat) : Field := ⟨(SEC_MT_DLO s), 31, 0⟩
/-- SEC_MT_DHI. -/
def SEC_MT_DHI (s : Nat) : Nat := 0x500000 + 0x1000 * s + 0x208
def SEC_MT_DHI_DHI (s : Nat) : Field := ⟨(SEC_MT_DHI s), 31, 0⟩
/-- SEC_MT_STAT. -/
def SEC_MT_STAT (s : Nat) : Nat := 0x500000 + 0x1000 * s + 0x20C
def SEC_MT_STAT_UADDR (s : Nat) : Field := ⟨(SEC_MT_STAT s), 29, 16⟩
def SEC_MT_STAT_POISON_RD (s : Nat) : Field := ⟨(SEC_MT_STAT s), 9, 9⟩
def SEC_MT_STAT_PORT_TMO (s : Nat) : Field := ⟨(SEC_MT_STAT s), 8, 8⟩
def SEC_MT_STAT_UNCORR (s : Nat) : Field := ⟨(SEC_MT_STAT s), 7, 7⟩
def SEC_MT_STAT_CORR (s : Nat) : Field := ⟨(SEC_MT_STAT s), 6, 6⟩
def SEC_MT_STAT_PORT_REJ (s : Nat) : Field := ⟨(SEC_MT_STAT s), 5, 5⟩
def SEC_MT_STAT_LOST (s : Nat) : Field := ⟨(SEC_MT_STAT s), 4, 4⟩
def SEC_MT_STAT_CUT (s : Nat) : Field := ⟨(SEC_MT_STAT s), 3, 3⟩
def SEC_MT_STAT_OVF (s : Nat) : Field := ⟨(SEC_MT_STAT s), 2, 2⟩
def SEC_MT_STAT_DRAINING (s : Nat) : Field := ⟨(SEC_MT_STAT s), 1, 1⟩
def SEC_MT_STAT_BUSY (s : Nat) : Field := ⟨(SEC_MT_STAT s), 0, 0⟩
/-- SEC_MT_CNT. -/
def SEC_MT_CNT (s : Nat) : Nat := 0x500000 + 0x1000 * s + 0x210
def SEC_MT_CNT_CUT_CNT (s : Nat) : Field := ⟨(SEC_MT_CNT s), 31, 16⟩
def SEC_MT_CNT_OVF_CNT (s : Nat) : Field := ⟨(SEC_MT_CNT s), 15, 0⟩
/-- SEC_MT_EVCNT. -/
def SEC_MT_EVCNT (s : Nat) : Nat := 0x500000 + 0x1000 * s + 0x214
def SEC_MT_EVCNT_EVENTS (s : Nat) : Field := ⟨(SEC_MT_EVCNT s), 31, 0⟩
/-- SEC_MT_ECC. -/
def SEC_MT_ECC (s : Nat) : Nat := 0x500000 + 0x1000 * s + 0x218
def SEC_MT_ECC_UNC_CNT (s : Nat) : Field := ⟨(SEC_MT_ECC s), 31, 16⟩
def SEC_MT_ECC_COR_CNT (s : Nat) : Field := ⟨(SEC_MT_ECC s), 15, 0⟩
/-- SEC_MT_LOST. -/
def SEC_MT_LOST (s : Nat) : Nat := 0x500000 + 0x1000 * s + 0x21C
def SEC_MT_LOST_PORT_REJ_CNT (s : Nat) : Field := ⟨(SEC_MT_LOST s), 31, 16⟩
def SEC_MT_LOST_LOST_CNT (s : Nat) : Field := ⟨(SEC_MT_LOST s), 15, 0⟩
/-- SEC_BOWNi. -/
def SEC_BOWN (s i : Nat) : Nat := 0x500000 + 0x1000 * s + 0x40 + 4 * i
def SEC_BOWN_CLASS (s i : Nat) : Field := ⟨(SEC_BOWN s i), 31, 30⟩
def SEC_BOWN_ID (s i : Nat) : Field := ⟨(SEC_BOWN s i), 9, 0⟩
/-- SEC_BCFGi. -/
def SEC_BCFG (s i : Nat) : Nat := 0x500000 + 0x1000 * s + 0x60 + 4 * i
def SEC_BCFG_KEEP (s i : Nat) : Field := ⟨(SEC_BCFG s i), 3, 3⟩
def SEC_BCFG_PERSIST (s i : Nat) : Field := ⟨(SEC_BCFG s i), 2, 2⟩
def SEC_BCFG_RING (s i : Nat) : Field := ⟨(SEC_BCFG s i), 1, 1⟩
/-- SEC_BRINGi. -/
def SEC_BRING (s i : Nat) : Nat := 0x500000 + 0x1000 * s + 0x80 + 4 * i
def SEC_BRING_STEP (s i : Nat) : Field := ⟨(SEC_BRING s i), 31, 25⟩
def SEC_BRING_LEN (s i : Nat) : Field := ⟨(SEC_BRING s i), 24, 12⟩
def SEC_BRING_RSTART (s i : Nat) : Field := ⟨(SEC_BRING s i), 11, 0⟩
/-- SEC_BSTAT. -/
def SEC_BSTAT (s : Nat) : Nat := 0x500000 + 0x1000 * s + 0x300
def SEC_BSTAT_UBANK (s : Nat) : Field := ⟨(SEC_BSTAT s), 30, 28⟩
def SEC_BSTAT_UWORD (s : Nat) : Field := ⟨(SEC_BSTAT s), 27, 16⟩
def SEC_BSTAT_SCR_STARVE (s : Nat) : Field := ⟨(SEC_BSTAT s), 9, 9⟩
def SEC_BSTAT_BADCFG (s : Nat) : Field := ⟨(SEC_BSTAT s), 8, 8⟩
def SEC_BSTAT_RANGE (s : Nat) : Field := ⟨(SEC_BSTAT s), 7, 7⟩
def SEC_BSTAT_COLL (s : Nat) : Field := ⟨(SEC_BSTAT s), 6, 6⟩
def SEC_BSTAT_UNCORR (s : Nat) : Field := ⟨(SEC_BSTAT s), 5, 5⟩
def SEC_BSTAT_CORR (s : Nat) : Field := ⟨(SEC_BSTAT s), 4, 4⟩
/-- SEC_BECC. -/
def SEC_BECC (s : Nat) : Nat := 0x500000 + 0x1000 * s + 0x304
def SEC_BECC_UNC_CNT (s : Nat) : Field := ⟨(SEC_BECC s), 31, 16⟩
def SEC_BECC_COR_CNT (s : Nat) : Field := ⟨(SEC_BECC s), 15, 0⟩
/-- SEC_BCOLL. -/
def SEC_BCOLL (s : Nat) : Nat := 0x500000 + 0x1000 * s + 0x308
def SEC_BCOLL_RANGE_CNT (s : Nat) : Field := ⟨(SEC_BCOLL s), 31, 16⟩
def SEC_BCOLL_COLL_CNT (s : Nat) : Field := ⟨(SEC_BCOLL s), 15, 0⟩
/-- SEC_BCONF_FAB. -/
def SEC_BCONF_FAB (s : Nat) : Nat := 0x500000 + 0x1000 * s + 0x310
def SEC_BCONF_FAB_WAIT (s : Nat) : Field := ⟨(SEC_BCONF_FAB s), 31, 0⟩
/-- SEC_BCONF_TLR. -/
def SEC_BCONF_TLR (s : Nat) : Nat := 0x500000 + 0x1000 * s + 0x314
def SEC_BCONF_TLR_WAIT (s : Nat) : Field := ⟨(SEC_BCONF_TLR s), 31, 0⟩
/-- SEC_BCONF_NET. -/
def SEC_BCONF_NET (s : Nat) : Nat := 0x500000 + 0x1000 * s + 0x318
def SEC_BCONF_NET_WAIT (s : Nat) : Field := ⟨(SEC_BCONF_NET s), 31, 0⟩
/-- SEC_BCONF_WATCH. -/
def SEC_BCONF_WATCH (s : Nat) : Nat := 0x500000 + 0x1000 * s + 0x31C
def SEC_BCONF_WATCH_WAIT (s : Nat) : Field := ⟨(SEC_BCONF_WATCH s), 31, 0⟩
/-- SEC_BCONF_SEL. -/
def SEC_BCONF_SEL (s : Nat) : Nat := 0x500000 + 0x1000 * s + 0x320
def SEC_BCONF_SEL_WATCH_ID (s : Nat) : Field := ⟨(SEC_BCONF_SEL s), 9, 0⟩
/-- SEC_BSCRUB. -/
def SEC_BSCRUB (s : Nat) : Nat := 0x500000 + 0x1000 * s + 0x324
def SEC_BSCRUB_EN (s : Nat) : Field := ⟨(SEC_BSCRUB s), 4, 4⟩
def SEC_BSCRUB_INT (s : Nat) : Field := ⟨(SEC_BSCRUB s), 3, 0⟩
/-- SEC_TALLYn. -/
def SEC_TALLY (s i : Nat) : Nat := 0x500000 + 0x1000 * s + 0x400 + 4 * i
def SEC_TALLY_COUNT (s i : Nat) : Field := ⟨(SEC_TALLY s i), 31, 0⟩
/-- SEC_TINFO. -/
def SEC_TINFO (s : Nat) : Nat := 0x500000 + 0x1000 * s + 0x500
def SEC_TINFO_OVD (s : Nat) : Field := ⟨(SEC_TINFO s), 2, 2⟩
def SEC_TINFO_TAINT (s : Nat) : Field := ⟨(SEC_TINFO s), 1, 1⟩
def SEC_TINFO_VALID (s : Nat) : Field := ⟨(SEC_TINFO s), 0, 0⟩
/-- SEC_TFRAME. -/
def SEC_TFRAME (s : Nat) : Nat := 0x500000 + 0x1000 * s + 0x504
def SEC_TFRAME_FRAME (s : Nat) : Field := ⟨(SEC_TFRAME s), 31, 0⟩
/-- SEC_TLR_CMD. -/
def SEC_TLR_CMD (s : Nat) : Nat := 0x500000 + 0x1000 * s + 0x600
def SEC_TLR_CMD_SOFT (s : Nat) : Field := ⟨(SEC_TLR_CMD s), 2, 2⟩
def SEC_TLR_CMD_STOP (s : Nat) : Field := ⟨(SEC_TLR_CMD s), 1, 1⟩
def SEC_TLR_CMD_RUN (s : Nat) : Field := ⟨(SEC_TLR_CMD s), 0, 0⟩
/-- SEC_TLR_CFG. -/
def SEC_TLR_CFG (s : Nat) : Nat := 0x500000 + 0x1000 * s + 0x604
def SEC_TLR_CFG_WAITSET (s : Nat) : Field := ⟨(SEC_TLR_CFG s), 16, 16⟩
def SEC_TLR_CFG_WEN_UW (s : Nat) : Field := ⟨(SEC_TLR_CFG s), 15, 8⟩
def SEC_TLR_CFG_WEN_SOFT (s : Nat) : Field := ⟨(SEC_TLR_CFG s), 2, 2⟩
def SEC_TLR_CFG_WEN_FRAME (s : Nat) : Field := ⟨(SEC_TLR_CFG s), 1, 1⟩
def SEC_TLR_CFG_WEN_TICK (s : Nat) : Field := ⟨(SEC_TLR_CFG s), 0, 0⟩
/-- SEC_TLR_START. -/
def SEC_TLR_START (s : Nat) : Nat := 0x500000 + 0x1000 * s + 0x608
def SEC_TLR_START_START_PC (s : Nat) : Field := ⟨(SEC_TLR_START s), 14, 1⟩
/-- SEC_TLR_OVDPC. -/
def SEC_TLR_OVDPC (s : Nat) : Nat := 0x500000 + 0x1000 * s + 0x60C
def SEC_TLR_OVDPC_OVD_PC (s : Nat) : Field := ⟨(SEC_TLR_OVDPC s), 14, 1⟩
/-- SEC_TLR_STAT. -/
def SEC_TLR_STAT (s : Nat) : Nat := 0x500000 + 0x1000 * s + 0x610
def SEC_TLR_STAT_STATE (s : Nat) : Field := ⟨(SEC_TLR_STAT s), 31, 29⟩
def SEC_TLR_STAT_EVT (s : Nat) : Field := ⟨(SEC_TLR_STAT s), 28, 28⟩
def SEC_TLR_STAT_NETERR (s : Nat) : Field := ⟨(SEC_TLR_STAT s), 27, 27⟩
def SEC_TLR_STAT_CORR (s : Nat) : Field := ⟨(SEC_TLR_STAT s), 26, 26⟩
def SEC_TLR_STAT_FCAUSE (s : Nat) : Field := ⟨(SEC_TLR_STAT s), 22, 19⟩
def SEC_TLR_STAT_EVCODE (s : Nat) : Field := ⟨(SEC_TLR_STAT s), 15, 8⟩
def SEC_TLR_STAT_OUTST (s : Nat) : Field := ⟨(SEC_TLR_STAT s), 3, 0⟩
/-- SEC_TLR_PC. -/
def SEC_TLR_PC (s : Nat) : Nat := 0x500000 + 0x1000 * s + 0x614
def SEC_TLR_PC_PC (s : Nat) : Field := ⟨(SEC_TLR_PC s), 14, 1⟩
/-- SEC_TLR_FADDR. -/
def SEC_TLR_FADDR (s : Nat) : Nat := 0x500000 + 0x1000 * s + 0x618
def SEC_TLR_FADDR_FADDR (s : Nat) : Field := ⟨(SEC_TLR_FADDR s), 31, 0⟩
/-- SEC_TLR_PEND. -/
def SEC_TLR_PEND (s : Nat) : Nat := 0x500000 + 0x1000 * s + 0x61C
def SEC_TLR_PEND_PEND (s : Nat) : Field := ⟨(SEC_TLR_PEND s), 15, 0⟩
/-- SEC_TLR_ECC. -/
def SEC_TLR_ECC (s : Nat) : Nat := 0x500000 + 0x1000 * s + 0x620
def SEC_TLR_ECC_UNC_CNT (s : Nat) : Field := ⟨(SEC_TLR_ECC s), 31, 16⟩
def SEC_TLR_ECC_COR_CNT (s : Nat) : Field := ⟨(SEC_TLR_ECC s), 15, 0⟩
/-- SEC_NAP_CTRL. -/
def SEC_NAP_CTRL (s : Nat) : Nat := 0x500000 + 0x1000 * s + 0x700
def SEC_NAP_CTRL_FENCE (s : Nat) : Field := ⟨(SEC_NAP_CTRL s), 31, 31⟩
def SEC_NAP_CTRL_ICRED (s : Nat) : Field := ⟨(SEC_NAP_CTRL s), 12, 8⟩
def SEC_NAP_CTRL_TCRED (s : Nat) : Field := ⟨(SEC_NAP_CTRL s), 4, 0⟩
/-- SEC_NAP_LIM. -/
def SEC_NAP_LIM (s : Nat) : Nat := 0x500000 + 0x1000 * s + 0x704
def SEC_NAP_LIM_TGT_LIM (s : Nat) : Field := ⟨(SEC_NAP_LIM s), 15, 0⟩
/-- SEC_NAP_STAT. -/
def SEC_NAP_STAT (s : Nat) : Nat := 0x500000 + 0x1000 * s + 0x708
def SEC_NAP_STAT_FENCED (s : Nat) : Field := ⟨(SEC_NAP_STAT s), 31, 31⟩
def SEC_NAP_STAT_IDLE (s : Nat) : Field := ⟨(SEC_NAP_STAT s), 30, 30⟩
def SEC_NAP_STAT_OUT_INIT (s : Nat) : Field := ⟨(SEC_NAP_STAT s), 23, 16⟩
def SEC_NAP_STAT_OUT_TGT (s : Nat) : Field := ⟨(SEC_NAP_STAT s), 15, 8⟩
def SEC_NAP_STAT_TLATE (s : Nat) : Field := ⟨(SEC_NAP_STAT s), 3, 3⟩
def SEC_NAP_STAT_IOVR (s : Nat) : Field := ⟨(SEC_NAP_STAT s), 2, 2⟩
def SEC_NAP_STAT_TMO (s : Nat) : Field := ⟨(SEC_NAP_STAT s), 1, 1⟩
def SEC_NAP_STAT_DROP (s : Nat) : Field := ⟨(SEC_NAP_STAT s), 0, 0⟩
/-- SEC_NAP_CNT. -/
def SEC_NAP_CNT (s : Nat) : Nat := 0x500000 + 0x1000 * s + 0x70C
def SEC_NAP_CNT_TLATE_CNT (s : Nat) : Field := ⟨(SEC_NAP_CNT s), 31, 16⟩
def SEC_NAP_CNT_IOVR_CNT (s : Nat) : Field := ⟨(SEC_NAP_CNT s), 15, 0⟩
/-- LQ_MODE. -/
def LQ_MODE (q : Nat) : Nat := 0x200000 + 0x10000 * q
def LQ_MODE_BADCFG (q : Nat) : Field := ⟨(LQ_MODE q), 31, 31⟩
def LQ_MODE_RATE_ERR (q : Nat) : Field := ⟨(LQ_MODE q), 30, 30⟩
def LQ_MODE_FE_J (q : Nat) : Field := ⟨(LQ_MODE q), 15, 8⟩
def LQ_MODE_MODE (q : Nat) : Field := ⟨(LQ_MODE q), 1, 0⟩
/-- LQ_TRK. -/
def LQ_TRK (q : Nat) : Nat := 0x200000 + 0x10000 * q + 0x4
def LQ_TRK_RATE_ERR (q : Nat) : Field := ⟨(LQ_TRK q), 31, 31⟩
def LQ_TRK_PAM4 (q : Nat) : Field := ⟨(LQ_TRK q), 8, 8⟩
def LQ_TRK_H (q : Nat) : Field := ⟨(LQ_TRK q), 7, 0⟩
/-- LQ_PLL_STAT. -/
def LQ_PLL_STAT (q : Nat) : Nat := 0x200000 + 0x10000 * q + 0x8
def LQ_PLL_STAT_LOCK (q : Nat) : Field := ⟨(LQ_PLL_STAT q), 31, 31⟩
def LQ_PLL_STAT_LOSS (q : Nat) : Field := ⟨(LQ_PLL_STAT q), 30, 30⟩
def LQ_PLL_STAT_VCAL_DUE (q : Nat) : Field := ⟨(LQ_PLL_STAT q), 29, 29⟩
def LQ_PLL_STAT_CAL_T (q : Nat) : Field := ⟨(LQ_PLL_STAT q), 7, 0⟩
/-- LQ_PLL_CNT. -/
def LQ_PLL_CNT (q : Nat) : Nat := 0x200000 + 0x10000 * q + 0xC
def LQ_PLL_CNT_RELOCK_CNT (q : Nat) : Field := ⟨(LQ_PLL_CNT q), 15, 0⟩
/-- LN_FE_CTRL. -/
def LN_FE_CTRL (n : Nat) : Nat := 0x201000 + 0x10000 * (n / 4) + 0x1000 * (n % 4) + 0x100
def LN_FE_CTRL_POL_TX (n : Nat) : Field := ⟨(LN_FE_CTRL n), 17, 17⟩
def LN_FE_CTRL_POL_RX (n : Nat) : Field := ⟨(LN_FE_CTRL n), 16, 16⟩
def LN_FE_CTRL_PLACE (n : Nat) : Field := ⟨(LN_FE_CTRL n), 15, 12⟩
def LN_FE_CTRL_LOSS_CV (n : Nat) : Field := ⟨(LN_FE_CTRL n), 11, 8⟩
def LN_FE_CTRL_ALIGN_N (n : Nat) : Field := ⟨(LN_FE_CTRL n), 7, 4⟩
def LN_FE_CTRL_COMMA_EN (n : Nat) : Field := ⟨(LN_FE_CTRL n), 2, 0⟩
/-- LN_FE_STAT. -/
def LN_FE_STAT (n : Nat) : Nat := 0x201000 + 0x10000 * (n / 4) + 0x1000 * (n % 4) + 0x104
def LN_FE_STAT_ALIGNED (n : Nat) : Field := ⟨(LN_FE_STAT n), 31, 31⟩
def LN_FE_STAT_SLIP (n : Nat) : Field := ⟨(LN_FE_STAT n), 30, 24⟩
def LN_FE_STAT_WAIT (n : Nat) : Field := ⟨(LN_FE_STAT n), 18, 16⟩
def LN_FE_STAT_TXBADK (n : Nat) : Field := ⟨(LN_FE_STAT n), 5, 5⟩
def LN_FE_STAT_PHASE_ERR (n : Nat) : Field := ⟨(LN_FE_STAT n), 4, 4⟩
def LN_FE_STAT_LOCK_LOSS (n : Nat) : Field := ⟨(LN_FE_STAT n), 3, 3⟩
def LN_FE_STAT_ALIGN_FAIL (n : Nat) : Field := ⟨(LN_FE_STAT n), 2, 2⟩
/-- LN_FE_ERR. -/
def LN_FE_ERR (n : Nat) : Nat := 0x201000 + 0x10000 * (n / 4) + 0x1000 * (n % 4) + 0x108
def LN_FE_ERR_CV_CNT (n : Nat) : Field := ⟨(LN_FE_ERR n), 31, 16⟩
def LN_FE_ERR_RD_CNT (n : Nat) : Field := ⟨(LN_FE_ERR n), 15, 0⟩
/-- LN_FE_DISC. -/
def LN_FE_DISC (n : Nat) : Nat := 0x201000 + 0x10000 * (n / 4) + 0x1000 * (n % 4) + 0x10C
def LN_FE_DISC_DISC_CNT (n : Nat) : Field := ⟨(LN_FE_DISC n), 31, 0⟩
/-- LN_FE_CNT. -/
def LN_FE_CNT (n : Nat) : Nat := 0x201000 + 0x10000 * (n / 4) + 0x1000 * (n % 4) + 0x110
def LN_FE_CNT_TXBADK_CNT (n : Nat) : Field := ⟨(LN_FE_CNT n), 31, 16⟩
def LN_FE_CNT_RELOCK_CNT (n : Nat) : Field := ⟨(LN_FE_CNT n), 15, 0⟩
/-- LN_TK_CTRL. -/
def LN_TK_CTRL (n : Nat) : Nat := 0x201000 + 0x10000 * (n / 4) + 0x1000 * (n % 4) + 0x200
def LN_TK_CTRL_SKIP_MAX (n : Nat) : Field := ⟨(LN_TK_CTRL n), 31, 28⟩
def LN_TK_CTRL_PLACE (n : Nat) : Field := ⟨(LN_TK_CTRL n), 27, 24⟩
def LN_TK_CTRL_RTO (n : Nat) : Field := ⟨(LN_TK_CTRL n), 23, 16⟩
def LN_TK_CTRL_LOCK_N (n : Nat) : Field := ⟨(LN_TK_CTRL n), 11, 8⟩
def LN_TK_CTRL_UNLOCK_N (n : Nat) : Field := ⟨(LN_TK_CTRL n), 7, 4⟩
def LN_TK_CTRL_FEC (n : Nat) : Field := ⟨(LN_TK_CTRL n), 3, 3⟩
def LN_TK_CTRL_POL_TX (n : Nat) : Field := ⟨(LN_TK_CTRL n), 2, 2⟩
def LN_TK_CTRL_POL_RX (n : Nat) : Field := ⟨(LN_TK_CTRL n), 1, 1⟩
/-- LN_TK_STAT. -/
def LN_TK_STAT (n : Nat) : Nat := 0x201000 + 0x10000 * (n / 4) + 0x1000 * (n % 4) + 0x204
def LN_TK_STAT_LOCKED (n : Nat) : Field := ⟨(LN_TK_STAT n), 31, 31⟩
def LN_TK_STAT_FEC_ON (n : Nat) : Field := ⟨(LN_TK_STAT n), 30, 30⟩
def LN_TK_STAT_LOCK_LOSS (n : Nat) : Field := ⟨(LN_TK_STAT n), 29, 29⟩
def LN_TK_STAT_VBAD (n : Nat) : Field := ⟨(LN_TK_STAT n), 28, 28⟩
def LN_TK_STAT_LINKDOWN (n : Nat) : Field := ⟨(LN_TK_STAT n), 27, 27⟩
def LN_TK_STAT_BADBLK (n : Nat) : Field := ⟨(LN_TK_STAT n), 26, 26⟩
def LN_TK_STAT_BADSCHED (n : Nat) : Field := ⟨(LN_TK_STAT n), 25, 25⟩
def LN_TK_STAT_QERR (n : Nat) : Field := ⟨(LN_TK_STAT n), 24, 24⟩
def LN_TK_STAT_WAIT (n : Nat) : Field := ⟨(LN_TK_STAT n), 18, 16⟩
def LN_TK_STAT_SLIP (n : Nat) : Field := ⟨(LN_TK_STAT n), 10, 0⟩
/-- LN_TK_FEC. -/
def LN_TK_FEC (n : Nat) : Nat := 0x201000 + 0x10000 * (n / 4) + 0x1000 * (n % 4) + 0x208
def LN_TK_FEC_UNCOR_CNT (n : Nat) : Field := ⟨(LN_TK_FEC n), 31, 16⟩
def LN_TK_FEC_CWCORR_CNT (n : Nat) : Field := ⟨(LN_TK_FEC n), 15, 0⟩
/-- LN_TK_SYM. -/
def LN_TK_SYM (n : Nat) : Nat := 0x201000 + 0x10000 * (n / 4) + 0x1000 * (n % 4) + 0x20C
def LN_TK_SYM_SYMCORR_CNT (n : Nat) : Field := ⟨(LN_TK_SYM n), 31, 0⟩
/-- LN_TK_VER. -/
def LN_TK_VER (n : Nat) : Nat := 0x201000 + 0x10000 * (n / 4) + 0x1000 * (n % 4) + 0x210
def LN_TK_VER_VBAD_CNT (n : Nat) : Field := ⟨(LN_TK_VER n), 31, 16⟩
def LN_TK_VER_VOK_CNT (n : Nat) : Field := ⟨(LN_TK_VER n), 15, 0⟩
/-- LN_TK_DISC. -/
def LN_TK_DISC (n : Nat) : Nat := 0x201000 + 0x10000 * (n / 4) + 0x1000 * (n % 4) + 0x214
def LN_TK_DISC_DISC_CNT (n : Nat) : Field := ⟨(LN_TK_DISC n), 31, 0⟩
/-- LN_TK_CNT. -/
def LN_TK_CNT (n : Nat) : Nat := 0x201000 + 0x10000 * (n / 4) + 0x1000 * (n % 4) + 0x218
def LN_TK_CNT_RETRY_CNT (n : Nat) : Field := ⟨(LN_TK_CNT n), 31, 16⟩
def LN_TK_CNT_BADBLK_CNT (n : Nat) : Field := ⟨(LN_TK_CNT n), 15, 0⟩
/-- LN_TK_TXSCHED0. -/
def LN_TK_TXSCHED0 (n : Nat) : Nat := 0x201000 + 0x10000 * (n / 4) + 0x1000 * (n % 4) + 0x220
def LN_TK_TXSCHED0_ENTRY (n : Nat) : Field := ⟨(LN_TK_TXSCHED0 n), 31, 0⟩
/-- LN_TK_TXSCHED1. -/
def LN_TK_TXSCHED1 (n : Nat) : Nat := 0x201000 + 0x10000 * (n / 4) + 0x1000 * (n % 4) + 0x224
def LN_TK_TXSCHED1_ENTRY (n : Nat) : Field := ⟨(LN_TK_TXSCHED1 n), 31, 0⟩
/-- LN_TK_RXSCHED0. -/
def LN_TK_RXSCHED0 (n : Nat) : Nat := 0x201000 + 0x10000 * (n / 4) + 0x1000 * (n % 4) + 0x228
def LN_TK_RXSCHED0_ENTRY (n : Nat) : Field := ⟨(LN_TK_RXSCHED0 n), 31, 0⟩
/-- LN_TK_RXSCHED1. -/
def LN_TK_RXSCHED1 (n : Nat) : Nat := 0x201000 + 0x10000 * (n / 4) + 0x1000 * (n % 4) + 0x22C
def LN_TK_RXSCHED1_ENTRY (n : Nat) : Field := ⟨(LN_TK_RXSCHED1 n), 31, 0⟩
/-- LN_TK_SCFGi. -/
def LN_TK_SCFG (n i : Nat) : Nat := 0x201000 + 0x10000 * (n / 4) + 0x1000 * (n % 4) + 0x240 + 4 * i
def LN_TK_SCFG_TXEN (n i : Nat) : Field := ⟨(LN_TK_SCFG n i), 31, 31⟩
def LN_TK_SCFG_RXEN (n i : Nat) : Field := ⟨(LN_TK_SCFG n i), 30, 30⟩
def LN_TK_SCFG_RXKEY (n i : Nat) : Field := ⟨(LN_TK_SCFG n i), 13, 8⟩
def LN_TK_SCFG_TXKEY (n i : Nat) : Field := ⟨(LN_TK_SCFG n i), 5, 0⟩
/-- LN_TK_QCFGi. -/
def LN_TK_QCFG (n i : Nat) : Nat := 0x201000 + 0x10000 * (n / 4) + 0x1000 * (n % 4) + 0x260 + 4 * i
def LN_TK_QCFG_TXEN (n i : Nat) : Field := ⟨(LN_TK_QCFG n i), 31, 31⟩
def LN_TK_QCFG_RXEN (n i : Nat) : Field := ⟨(LN_TK_QCFG n i), 30, 30⟩
def LN_TK_QCFG_IRQ (n i : Nat) : Field := ⟨(LN_TK_QCFG n i), 29, 29⟩
def LN_TK_QCFG_RX_RSZ (n i : Nat) : Field := ⟨(LN_TK_QCFG n i), 27, 24⟩
def LN_TK_QCFG_TX_RSZ (n i : Nat) : Field := ⟨(LN_TK_QCFG n i), 23, 20⟩
def LN_TK_QCFG_NKEY (n i : Nat) : Field := ⟨(LN_TK_QCFG n i), 19, 14⟩
def LN_TK_QCFG_RXKEY (n i : Nat) : Field := ⟨(LN_TK_QCFG n i), 13, 8⟩
def LN_TK_QCFG_TXKEY (n i : Nat) : Field := ⟨(LN_TK_QCFG n i), 5, 0⟩
/-- LN_TK_QRXBi. -/
def LN_TK_QRXB (n i : Nat) : Nat := 0x201000 + 0x10000 * (n / 4) + 0x1000 * (n % 4) + 0x280 + 4 * i
def LN_TK_QRXB_BASE (n i : Nat) : Field := ⟨(LN_TK_QRXB n i), 31, 0⟩
/-- LN_TK_QTXBi. -/
def LN_TK_QTXB (n i : Nat) : Nat := 0x201000 + 0x10000 * (n / 4) + 0x1000 * (n % 4) + 0x2A0 + 4 * i
def LN_TK_QTXB_BASE (n i : Nat) : Field := ⟨(LN_TK_QTXB n i), 31, 0⟩
/-- LN_TK_QRXPi. -/
def LN_TK_QRXP (n i : Nat) : Nat := 0x201000 + 0x10000 * (n / 4) + 0x1000 * (n % 4) + 0x2C0 + 4 * i
def LN_TK_QRXP_TAIL (n i : Nat) : Field := ⟨(LN_TK_QRXP n i), 31, 16⟩
def LN_TK_QRXP_HEAD (n i : Nat) : Field := ⟨(LN_TK_QRXP n i), 15, 0⟩
/-- LN_TK_QTXPi. -/
def LN_TK_QTXP (n i : Nat) : Nat := 0x201000 + 0x10000 * (n / 4) + 0x1000 * (n % 4) + 0x2E0 + 4 * i
def LN_TK_QTXP_HEAD (n i : Nat) : Field := ⟨(LN_TK_QTXP n i), 31, 16⟩
def LN_TK_QTXP_TAIL (n i : Nat) : Field := ⟨(LN_TK_QTXP n i), 15, 0⟩
/-- LN_BU_CTRL. -/
def LN_BU_CTRL (n : Nat) : Nat := 0x201000 + 0x10000 * (n / 4) + 0x1000 * (n % 4)
def LN_BU_CTRL_RESTART (n : Nat) : Field := ⟨(LN_BU_CTRL n), 31, 31⟩
def LN_BU_CTRL_DET_EN (n : Nat) : Field := ⟨(LN_BU_CTRL n), 2, 2⟩
def LN_BU_CTRL_EN (n : Nat) : Field := ⟨(LN_BU_CTRL n), 0, 0⟩
/-- LN_BU_STAT. -/
def LN_BU_STAT (n : Nat) : Nat := 0x201000 + 0x10000 * (n / 4) + 0x1000 * (n % 4) + 0x4
def LN_BU_STAT_STATE (n : Nat) : Field := ⟨(LN_BU_STAT n), 31, 29⟩
def LN_BU_STAT_PARTNER (n : Nat) : Field := ⟨(LN_BU_STAT n), 28, 28⟩
def LN_BU_STAT_LOS (n : Nat) : Field := ⟨(LN_BU_STAT n), 27, 27⟩
def LN_BU_STAT_TMO (n : Nat) : Field := ⟨(LN_BU_STAT n), 26, 26⟩
def LN_BU_STAT_SF_LOSS (n : Nat) : Field := ⟨(LN_BU_STAT n), 25, 25⟩
def LN_BU_STAT_REFUSED (n : Nat) : Field := ⟨(LN_BU_STAT n), 24, 24⟩
def LN_BU_STAT_REF_CAUSE (n : Nat) : Field := ⟨(LN_BU_STAT n), 23, 20⟩
def LN_BU_STAT_PEER_LANE (n : Nat) : Field := ⟨(LN_BU_STAT n), 19, 12⟩
def LN_BU_STAT_TMO_STATE (n : Nat) : Field := ⟨(LN_BU_STAT n), 11, 9⟩
/-- LN_BU_CNT. -/
def LN_BU_CNT (n : Nat) : Nat := 0x201000 + 0x10000 * (n / 4) + 0x1000 * (n % 4) + 0x8
def LN_BU_CNT_TMO_CNT (n : Nat) : Field := ⟨(LN_BU_CNT n), 31, 16⟩
def LN_BU_CNT_ACT_CNT (n : Nat) : Field := ⟨(LN_BU_CNT n), 15, 0⟩
/-- LN_TEST_CTRL. -/
def LN_TEST_CTRL (n : Nat) : Nat := 0x201000 + 0x10000 * (n / 4) + 0x1000 * (n % 4) + 0x20
def LN_TEST_CTRL_INJ_SINGLE (n : Nat) : Field := ⟨(LN_TEST_CTRL n), 31, 31⟩
def LN_TEST_CTRL_INJ_BURST (n : Nat) : Field := ⟨(LN_TEST_CTRL n), 30, 30⟩
def LN_TEST_CTRL_BURST_LEN (n : Nat) : Field := ⟨(LN_TEST_CTRL n), 23, 16⟩
def LN_TEST_CTRL_RATE_EXP (n : Nat) : Field := ⟨(LN_TEST_CTRL n), 15, 10⟩
def LN_TEST_CTRL_RATE_EN (n : Nat) : Field := ⟨(LN_TEST_CTRL n), 9, 9⟩
def LN_TEST_CTRL_INV (n : Nat) : Field := ⟨(LN_TEST_CTRL n), 8, 8⟩
def LN_TEST_CTRL_LB (n : Nat) : Field := ⟨(LN_TEST_CTRL n), 7, 6⟩
def LN_TEST_CTRL_RXPAT (n : Nat) : Field := ⟨(LN_TEST_CTRL n), 5, 3⟩
def LN_TEST_CTRL_TXPAT (n : Nat) : Field := ⟨(LN_TEST_CTRL n), 2, 0⟩
/-- LN_TEST_STAT. -/
def LN_TEST_STAT (n : Nat) : Nat := 0x201000 + 0x10000 * (n / 4) + 0x1000 * (n % 4) + 0x24
def LN_TEST_STAT_SYNC (n : Nat) : Field := ⟨(LN_TEST_STAT n), 31, 31⟩
def LN_TEST_STAT_SYNC_LOSS (n : Nat) : Field := ⟨(LN_TEST_STAT n), 30, 30⟩
/-- LN_PRBS_ERR. -/
def LN_PRBS_ERR (n : Nat) : Nat := 0x201000 + 0x10000 * (n / 4) + 0x1000 * (n % 4) + 0x28
def LN_PRBS_ERR_ERR_CNT (n : Nat) : Field := ⟨(LN_PRBS_ERR n), 31, 0⟩
/-- LN_PRBS_BITS_LO. -/
def LN_PRBS_BITS_LO (n : Nat) : Nat := 0x201000 + 0x10000 * (n / 4) + 0x1000 * (n % 4) + 0x2C
def LN_PRBS_BITS_LO_BITS_LO (n : Nat) : Field := ⟨(LN_PRBS_BITS_LO n), 31, 0⟩
/-- LN_PRBS_BITS_HI. -/
def LN_PRBS_BITS_HI (n : Nat) : Nat := 0x201000 + 0x10000 * (n / 4) + 0x1000 * (n % 4) + 0x30
def LN_PRBS_BITS_HI_BITS_HI (n : Nat) : Field := ⟨(LN_PRBS_BITS_HI n), 15, 0⟩
/-- LN_WAKE. -/
def LN_WAKE (n : Nat) : Nat := 0x201000 + 0x10000 * (n / 4) + 0x1000 * (n % 4) + 0x40
def LN_WAKE_SEND (n : Nat) : Field := ⟨(LN_WAKE n), 31, 31⟩
def LN_WAKE_SENDING (n : Nat) : Field := ⟨(LN_WAKE n), 30, 30⟩
def LN_WAKE_SEEN (n : Nat) : Field := ⟨(LN_WAKE n), 2, 2⟩
def LN_WAKE_CLASS (n : Nat) : Field := ⟨(LN_WAKE n), 1, 1⟩
def LN_WAKE_EN (n : Nat) : Field := ⟨(LN_WAKE n), 0, 0⟩
/-- NOC_TMO. -/
def NOC_TMO : Nat := 0xC0000
def NOC_TMO_EN : Field := ⟨NOC_TMO, 31, 31⟩
def NOC_TMO_TMO : Field := ⟨NOC_TMO, 23, 0⟩
/-- NOC_STAT. -/
def NOC_STAT : Nat := 0xC0004
def NOC_STAT_TMO : Field := ⟨NOC_STAT, 31, 31⟩
def NOC_STAT_LATE : Field := ⟨NOC_STAT, 30, 30⟩
def NOC_STAT_NET : Field := ⟨NOC_STAT, 29, 28⟩
def NOC_STAT_ID : Field := ⟨NOC_STAT, 27, 18⟩
def NOC_STAT_TAG : Field := ⟨NOC_STAT, 17, 10⟩
def NOC_STAT_LN : Field := ⟨NOC_STAT, 9, 9⟩
/-- NOC_TADDR_LO. -/
def NOC_TADDR_LO : Nat := 0xC0008
def NOC_TADDR_LO_ADDR_LO : Field := ⟨NOC_TADDR_LO, 31, 0⟩
/-- NOC_TADDR_HI. -/
def NOC_TADDR_HI : Nat := 0xC000C
def NOC_TADDR_HI_ADDR_HI : Field := ⟨NOC_TADDR_HI, 15, 0⟩
/-- NOC_CNT. -/
def NOC_CNT : Nat := 0xC0010
def NOC_CNT_TMO_CNT : Field := ⟨NOC_CNT, 31, 16⟩
def NOC_CNT_LATE_CNT : Field := ⟨NOC_CNT, 15, 0⟩
/-- NOC_QUAR. -/
def NOC_QUAR : Nat := 0xC0014
def NOC_QUAR_QUAR : Field := ⟨NOC_QUAR, 15, 0⟩
/-- MEMC_CTRL. -/
def MEMC_CTRL (c : Nat) : Nat := 0x100000 + 0x10000 * c
def MEMC_CTRL_WB_EN (c : Nat) : Field := ⟨(MEMC_CTRL c), 1, 1⟩
def MEMC_CTRL_SCRUB_EN (c : Nat) : Field := ⟨(MEMC_CTRL c), 0, 0⟩
/-- MEMC_SCRUB. -/
def MEMC_SCRUB (c : Nat) : Nat := 0x100000 + 0x10000 * c + 0x4
def MEMC_SCRUB_LINE_GAP (c : Nat) : Field := ⟨(MEMC_SCRUB c), 15, 0⟩
/-- MEMC_SCRUB_POS. -/
def MEMC_SCRUB_POS (c : Nat) : Nat := 0x100000 + 0x10000 * c + 0x8
def MEMC_SCRUB_POS_LINE (c : Nat) : Field := ⟨(MEMC_SCRUB_POS c), 23, 0⟩
/-- MEMC_SWEEP. -/
def MEMC_SWEEP (c : Nat) : Nat := 0x100000 + 0x10000 * c + 0xC
def MEMC_SWEEP_SWEEPS (c : Nat) : Field := ⟨(MEMC_SWEEP c), 31, 0⟩
/-- MEMC_STAT. -/
def MEMC_STAT (c : Nat) : Nat := 0x100000 + 0x10000 * c + 0x10
def MEMC_STAT_FILLFAIL (c : Nat) : Field := ⟨(MEMC_STAT c), 31, 31⟩
def MEMC_STAT_SREF (c : Nat) : Field := ⟨(MEMC_STAT c), 30, 30⟩
def MEMC_STAT_HOT (c : Nat) : Field := ⟨(MEMC_STAT c), 29, 29⟩
def MEMC_STAT_WRPOIS (c : Nat) : Field := ⟨(MEMC_STAT c), 5, 5⟩
def MEMC_STAT_POISON_RD (c : Nat) : Field := ⟨(MEMC_STAT c), 4, 4⟩
def MEMC_STAT_UNCORR (c : Nat) : Field := ⟨(MEMC_STAT c), 3, 3⟩
def MEMC_STAT_CORR (c : Nat) : Field := ⟨(MEMC_STAT c), 2, 2⟩
/-- MEMC_UADDR_LO. -/
def MEMC_UADDR_LO (c : Nat) : Nat := 0x100000 + 0x10000 * c + 0x14
def MEMC_UADDR_LO_ADDR_LO (c : Nat) : Field := ⟨(MEMC_UADDR_LO c), 31, 6⟩
/-- MEMC_UADDR_HI. -/
def MEMC_UADDR_HI (c : Nat) : Nat := 0x100000 + 0x10000 * c + 0x18
def MEMC_UADDR_HI_SRC (c : Nat) : Field := ⟨(MEMC_UADDR_HI c), 16, 16⟩
def MEMC_UADDR_HI_ADDR_HI (c : Nat) : Field := ⟨(MEMC_UADDR_HI c), 15, 0⟩
/-- MEMC_ECC. -/
def MEMC_ECC (c : Nat) : Nat := 0x100000 + 0x10000 * c + 0x1C
def MEMC_ECC_UNC_CNT (c : Nat) : Field := ⟨(MEMC_ECC c), 31, 16⟩
def MEMC_ECC_COR_CNT (c : Nat) : Field := ⟨(MEMC_ECC c), 15, 0⟩
/-- MEMC_ERRCNT. -/
def MEMC_ERRCNT (c : Nat) : Nat := 0x100000 + 0x10000 * c + 0x20
def MEMC_ERRCNT_POIS_RD_CNT (c : Nat) : Field := ⟨(MEMC_ERRCNT c), 31, 16⟩
def MEMC_ERRCNT_WRPOIS_CNT (c : Nat) : Field := ⟨(MEMC_ERRCNT c), 15, 0⟩
/-- VLT_STAT. -/
def VLT_STAT : Nat := 0x70000
def VLT_STAT_OKEY_STATE : Field := ⟨VLT_STAT, 31, 30⟩
def VLT_STAT_ROOT_OK : Field := ⟨VLT_STAT, 29, 29⟩
def VLT_STAT_RNG_OK : Field := ⟨VLT_STAT, 28, 28⟩
def VLT_STAT_FUSE_BUSY : Field := ⟨VLT_STAT, 27, 27⟩
def VLT_STAT_INIT_BUSY : Field := ⟨VLT_STAT, 26, 26⟩
def VLT_STAT_FUSE_FAIL : Field := ⟨VLT_STAT, 7, 7⟩
def VLT_STAT_RNGFAIL : Field := ⟨VLT_STAT, 6, 6⟩
def VLT_STAT_KEYUNC : Field := ⟨VLT_STAT, 5, 5⟩
def VLT_STAT_KEYBUSY : Field := ⟨VLT_STAT, 4, 4⟩
def VLT_STAT_BADWIN : Field := ⟨VLT_STAT, 3, 3⟩
def VLT_STAT_EMPTYIDX : Field := ⟨VLT_STAT, 2, 2⟩
def VLT_STAT_MISMATCH : Field := ⟨VLT_STAT, 1, 1⟩
def VLT_STAT_LOCKERR : Field := ⟨VLT_STAT, 0, 0⟩
/-- VLT_LOCK. -/
def VLT_LOCK : Nat := 0x70004
def VLT_LOCK_OWNER : Field := ⟨VLT_LOCK, 25, 16⟩
def VLT_LOCK_STATE : Field := ⟨VLT_LOCK, 1, 0⟩
/-- VLT_FUSECMD. -/
def VLT_FUSECMD : Nat := 0x70008
def VLT_FUSECMD_CMD : Field := ⟨VLT_FUSECMD, 3, 0⟩
/-- VLT_KEYCLR. -/
def VLT_KEYCLR : Nat := 0x7000C
def VLT_KEYCLR_INDEX : Field := ⟨VLT_KEYCLR, 5, 0⟩
/-- VLT_ZEROISE. -/
def VLT_ZEROISE : Nat := 0x70010
def VLT_ZEROISE_GO : Field := ⟨VLT_ZEROISE, 0, 0⟩
/-- VLT_OKEYn. -/
def VLT_OKEY (i : Nat) : Nat := 0x70020 + 4 * i
def VLT_OKEY_KO (i : Nat) : Field := ⟨(VLT_OKEY i), 31, 0⟩
/-- VLT_KEYVAL0. -/
def VLT_KEYVAL0 : Nat := 0x70040
def VLT_KEYVAL0_VALID : Field := ⟨VLT_KEYVAL0, 31, 0⟩
/-- VLT_KEYVAL1. -/
def VLT_KEYVAL1 : Nat := 0x70044
def VLT_KEYVAL1_VALID : Field := ⟨VLT_KEYVAL1, 31, 0⟩
/-- VLT_CNT. -/
def VLT_CNT : Nat := 0x70048
def VLT_CNT_EMPTY_CNT : Field := ⟨VLT_CNT, 31, 16⟩
def VLT_CNT_MIS_CNT : Field := ⟨VLT_CNT, 15, 0⟩
/-- VLT_RNG. -/
def VLT_RNG : Nat := 0x7004C
def VLT_RNG_RANDOM : Field := ⟨VLT_RNG, 31, 0⟩
/-- VLT_HALT0. -/
def VLT_HALT0 : Nat := 0x70050
def VLT_HALT0_SUBCODE : Field := ⟨VLT_HALT0, 31, 28⟩
def VLT_HALT0_LANE : Field := ⟨VLT_HALT0, 15, 8⟩
def VLT_HALT0_UNIT : Field := ⟨VLT_HALT0, 3, 0⟩
/-- VLT_HALT1. -/
def VLT_HALT1 : Nat := 0x70054
def VLT_HALT1_LINE : Field := ⟨VLT_HALT1, 27, 0⟩
/-- VLT_WCTLw. -/
def VLT_WCTL (i : Nat) : Nat := 0x70100 + 16 * i
def VLT_WCTL_EN (i : Nat) : Field := ⟨(VLT_WCTL i), 31, 31⟩
def VLT_WCTL_INIT (i : Nat) : Field := ⟨(VLT_WCTL i), 30, 30⟩
def VLT_WCTL_MODE (i : Nat) : Field := ⟨(VLT_WCTL i), 29, 28⟩
def VLT_WCTL_KEY (i : Nat) : Field := ⟨(VLT_WCTL i), 21, 16⟩
def VLT_WCTL_SIZE_LOG2 (i : Nat) : Field := ⟨(VLT_WCTL i), 5, 0⟩
/-- VLT_WBASEw. -/
def VLT_WBASE (i : Nat) : Nat := 0x70104 + 16 * i
def VLT_WBASE_BASE (i : Nat) : Field := ⟨(VLT_WBASE i), 11, 0⟩
/-- VLT_WTREEw. -/
def VLT_WTREE (i : Nat) : Nat := 0x70108 + 16 * i
def VLT_WTREE_TBASE (i : Nat) : Field := ⟨(VLT_WTREE i), 21, 0⟩
/-- VLT_WINFOw. -/
def VLT_WINFO (i : Nat) : Nat := 0x7010C + 16 * i
def VLT_WINFO_LEVELS (i : Nat) : Field := ⟨(VLT_WINFO i), 31, 28⟩
def VLT_WINFO_TREE_LINES (i : Nat) : Field := ⟨(VLT_WINFO i), 27, 0⟩
/-- CFG_STAT. -/
def CFG_STAT : Nat := 0x50000
def CFG_STAT_STATE : Field := ⟨CFG_STAT, 31, 28⟩
def CFG_STAT_COPY : Field := ⟨CFG_STAT, 27, 26⟩
def CFG_STAT_FALLBACK : Field := ⟨CFG_STAT, 25, 25⟩
def CFG_STAT_A_VALID : Field := ⟨CFG_STAT, 24, 24⟩
def CFG_STAT_B_VALID : Field := ⟨CFG_STAT, 23, 23⟩
def CFG_STAT_PSRC : Field := ⟨CFG_STAT, 22, 21⟩
def CFG_STAT_RFX_BUSY : Field := ⟨CFG_STAT, 20, 20⟩
def CFG_STAT_RFX_OVF : Field := ⟨CFG_STAT, 19, 19⟩
def CFG_STAT_SPOVR : Field := ⟨CFG_STAT, 7, 7⟩
def CFG_STAT_BUSYREJ : Field := ⟨CFG_STAT, 6, 6⟩
def CFG_STAT_REFETCH_FAIL : Field := ⟨CFG_STAT, 5, 5⟩
def CFG_STAT_REGION_REF : Field := ⟨CFG_STAT, 4, 4⟩
def CFG_STAT_ABORT : Field := ⟨CFG_STAT, 3, 3⟩
def CFG_STAT_DONE_OK : Field := ⟨CFG_STAT, 2, 2⟩
/-- CFG_ERR. -/
def CFG_ERR : Nat := 0x50004
def CFG_ERR_CODE : Field := ⟨CFG_ERR, 31, 24⟩
def CFG_ERR_SEG : Field := ⟨CFG_ERR, 23, 0⟩
/-- CFG_SEQ_LO. -/
def CFG_SEQ_LO : Nat := 0x50008
def CFG_SEQ_LO_SEQ_LO : Field := ⟨CFG_SEQ_LO, 31, 0⟩
/-- CFG_SEQ_HI. -/
def CFG_SEQ_HI : Nat := 0x5000C
def CFG_SEQ_HI_SEQ_HI : Field := ⟨CFG_SEQ_HI, 31, 0⟩
/-- CFG_FLOOR. -/
def CFG_FLOOR : Nat := 0x50010
def CFG_FLOOR_FLOOR : Field := ⟨CFG_FLOOR, 7, 0⟩
/-- CFG_CTRL. -/
def CFG_CTRL : Nat := 0x50014
def CFG_CTRL_DONE_GO : Field := ⟨CFG_CTRL, 31, 31⟩
def CFG_CTRL_DONE_HOLD : Field := ⟨CFG_CTRL, 0, 0⟩
/-- CFG_PCMD. -/
def CFG_PCMD : Nat := 0x50018
def CFG_PCMD_GO_FLASH : Field := ⟨CFG_PCMD, 31, 31⟩
def CFG_PCMD_GO_PORT : Field := ⟨CFG_PCMD, 30, 30⟩
def CFG_PCMD_ABORT : Field := ⟨CFG_PCMD, 29, 29⟩
def CFG_PCMD_FOFF : Field := ⟨CFG_PCMD, 21, 0⟩
/-- CFG_SPDATA. -/
def CFG_SPDATA : Nat := 0x5001C
def CFG_SPDATA_DATA : Field := ⟨CFG_SPDATA, 31, 0⟩
/-- CFG_SPSTAT. -/
def CFG_SPSTAT : Nat := 0x50020
def CFG_SPSTAT_SPACE : Field := ⟨CFG_SPSTAT, 8, 0⟩
/-- CFG_CNT. -/
def CFG_CNT : Nat := 0x50024
def CFG_CNT_ABORT_CNT : Field := ⟨CFG_CNT, 31, 16⟩
def CFG_CNT_OK_CNT : Field := ⟨CFG_CNT, 15, 0⟩
/-- CFG_RFX. -/
def CFG_RFX : Nat := 0x50028
def CFG_RFX_RFX_FAIL_CNT : Field := ⟨CFG_RFX, 31, 16⟩
def CFG_RFX_RFX_CNT : Field := ⟨CFG_RFX, 15, 0⟩
/-- FL_CMD. -/
def FL_CMD : Nat := 0xE0000
def FL_CMD_GO : Field := ⟨FL_CMD, 31, 31⟩
def FL_CMD_OP : Field := ⟨FL_CMD, 1, 0⟩
/-- FL_ADDR. -/
def FL_ADDR : Nat := 0xE0004
def FL_ADDR_PAGE : Field := ⟨FL_ADDR, 22, 0⟩
/-- FL_STAT. -/
def FL_STAT : Nat := 0xE0008
def FL_STAT_BUSY : Field := ⟨FL_STAT, 31, 31⟩
def FL_STAT_PROT : Field := ⟨FL_STAT, 3, 3⟩
def FL_STAT_UNC : Field := ⟨FL_STAT, 2, 2⟩
def FL_STAT_FAIL : Field := ⟨FL_STAT, 1, 1⟩
def FL_STAT_DONE : Field := ⟨FL_STAT, 0, 0⟩
/-- FL_ECC. -/
def FL_ECC : Nat := 0xE000C
def FL_ECC_UNC_CNT : Field := ⟨FL_ECC, 31, 16⟩
def FL_ECC_COR_CNT : Field := ⟨FL_ECC, 15, 0⟩
/-- FL_BUFn. -/
def FL_BUF (i : Nat) : Nat := 0xE0200 + 4 * i
def FL_BUF_DATA (i : Nat) : Field := ⟨(FL_BUF i), 31, 0⟩
/-- SCRB_UNCn. -/
def SCRB_UNC (i : Nat) : Nat := 0x60020 + 4 * i
def SCRB_UNC_UNC (i : Nat) : Field := ⟨(SCRB_UNC i), 31, 0⟩
/-- SCRB_CORRn. -/
def SCRB_CORR (i : Nat) : Nat := 0x60040 + 4 * i
def SCRB_CORR_CORR (i : Nat) : Field := ⟨(SCRB_CORR i), 31, 0⟩
/-- SCRB_HELDn. -/
def SCRB_HELD (i : Nat) : Nat := 0x60060 + 4 * i
def SCRB_HELD_HELD (i : Nat) : Field := ⟨(SCRB_HELD i), 31, 0⟩
/-- SCRB_SSTATs. -/
def SCRB_SSTAT (i : Nat) : Nat := 0x60100 + 16 * i
def SCRB_SSTAT_STATE (i : Nat) : Field := ⟨(SCRB_SSTAT i), 31, 30⟩
def SCRB_SSTAT_RETRY (i : Nat) : Field := ⟨(SCRB_SSTAT i), 29, 29⟩
def SCRB_SSTAT_ZFIX (i : Nat) : Field := ⟨(SCRB_SSTAT i), 4, 4⟩
def SCRB_SSTAT_VOTEFIX (i : Nat) : Field := ⟨(SCRB_SSTAT i), 3, 3⟩
def SCRB_SSTAT_UNCORR (i : Nat) : Field := ⟨(SCRB_SSTAT i), 2, 2⟩
def SCRB_SSTAT_CORR (i : Nat) : Field := ⟨(SCRB_SSTAT i), 1, 1⟩
/-- SCRB_SPOSs. -/
def SCRB_SPOS (i : Nat) : Nat := 0x60104 + 16 * i
def SCRB_SPOS_SWEEPS (i : Nat) : Field := ⟨(SCRB_SPOS i), 31, 19⟩
def SCRB_SPOS_POS (i : Nat) : Field := ⟨(SCRB_SPOS i), 18, 0⟩
/-- SCRB_SUADDRs. -/
def SCRB_SUADDR (i : Nat) : Nat := 0x60108 + 16 * i
def SCRB_SUADDR_P (i : Nat) : Field := ⟨(SCRB_SUADDR i), 19, 17⟩
def SCRB_SUADDR_V (i : Nat) : Field := ⟨(SCRB_SUADDR i), 16, 13⟩
def SCRB_SUADDR_U (i : Nat) : Field := ⟨(SCRB_SUADDR i), 12, 9⟩
def SCRB_SUADDR_WORD (i : Nat) : Field := ⟨(SCRB_SUADDR i), 8, 0⟩
/-- SCRB_SCNTs. -/
def SCRB_SCNT (i : Nat) : Nat := 0x6010C + 16 * i
def SCRB_SCNT_VOTE_CNT (i : Nat) : Field := ⟨(SCRB_SCNT i), 31, 24⟩
def SCRB_SCNT_UNC_CNT (i : Nat) : Field := ⟨(SCRB_SCNT i), 23, 12⟩
def SCRB_SCNT_COR_CNT (i : Nat) : Field := ⟨(SCRB_SCNT i), 11, 0⟩
/-- SCRB_PCTLs. -/
def SCRB_PCTL (i : Nat) : Nat := 0x61000 + 256 * i
def SCRB_PCTL_EN (i : Nat) : Field := ⟨(SCRB_PCTL i), 31, 31⟩
def SCRB_PCTL_POLICY (i : Nat) : Field := ⟨(SCRB_PCTL i), 1, 0⟩
/-- SCRB_PTHRs. -/
def SCRB_PTHR (i : Nat) : Nat := 0x61004 + 256 * i
def SCRB_PTHR_CORR_THR (i : Nat) : Field := ⟨(SCRB_PTHR i), 15, 0⟩
/-- EVT_CLAIMi. -/
def EVT_CLAIM (i : Nat) : Nat := 0x80000 + 4 * i
def EVT_CLAIM_VALID (i : Nat) : Field := ⟨(EVT_CLAIM i), 31, 31⟩
def EVT_CLAIM_SOURCE (i : Nat) : Field := ⟨(EVT_CLAIM i), 8, 0⟩
/-- EVT_THRESHi. -/
def EVT_THRESH (i : Nat) : Nat := 0x80010 + 4 * i
def EVT_THRESH_THRESH (i : Nat) : Field := ⟨(EVT_THRESH i), 2, 0⟩
/-- EVT_MSIPi. -/
def EVT_MSIP (i : Nat) : Nat := 0x80020 + 4 * i
def EVT_MSIP_MSIP (i : Nat) : Field := ⟨(EVT_MSIP i), 0, 0⟩
/-- EVT_TCMPi_LO. -/
def EVT_TCMP_LO (i : Nat) : Nat := 0x80040 + 8 * i
def EVT_TCMP_LO_TCMP (i : Nat) : Field := ⟨(EVT_TCMP_LO i), 31, 0⟩
/-- EVT_TCMPi_HI. -/
def EVT_TCMP_HI (i : Nat) : Nat := 0x80044 + 8 * i
def EVT_TCMP_HI_TCMP (i : Nat) : Field := ⟨(EVT_TCMP_HI i), 31, 0⟩
/-- EVT_SWRAISE. -/
def EVT_SWRAISE : Nat := 0x80060
def EVT_SWRAISE_SOURCE : Field := ⟨EVT_SWRAISE, 8, 0⟩
/-- EVT_LOST. -/
def EVT_LOST : Nat := 0x80064
def EVT_LOST_LOST : Field := ⟨EVT_LOST, 31, 0⟩
/-- EVT_BERRLOi. -/
def EVT_BERRLO (i : Nat) : Nat := 0x80080 + 8 * i
def EVT_BERRLO_ADDR_LO (i : Nat) : Field := ⟨(EVT_BERRLO i), 31, 0⟩
/-- EVT_BERRHIi. -/
def EVT_BERRHI (i : Nat) : Nat := 0x80084 + 8 * i
def EVT_BERRHI_BUSERR (i : Nat) : Field := ⟨(EVT_BERRHI i), 31, 31⟩
def EVT_BERRHI_STATUS (i : Nat) : Field := ⟨(EVT_BERRHI i), 17, 16⟩
def EVT_BERRHI_ADDR_HI (i : Nat) : Field := ⟨(EVT_BERRHI i), 15, 0⟩
/-- EVT_PENDn. -/
def EVT_PEND (i : Nat) : Nat := 0x80100 + 4 * i
def EVT_PEND_PEND (i : Nat) : Field := ⟨(EVT_PEND i), 31, 0⟩
/-- EVT_USRCu. -/
def EVT_USRC (i : Nat) : Nat := 0x80200 + 4 * i
def EVT_USRC_EN (i : Nat) : Field := ⟨(EVT_USRC i), 31, 31⟩
def EVT_USRC_ANY (i : Nat) : Field := ⟨(EVT_USRC i), 30, 30⟩
def EVT_USRC_COUNTER (i : Nat) : Field := ⟨(EVT_USRC i), 21, 16⟩
def EVT_USRC_SECTOR (i : Nat) : Field := ⟨(EVT_USRC i), 7, 0⟩
/-- EVT_CFGe. -/
def EVT_CFG (i : Nat) : Nat := 0x81000 + 4 * i
def EVT_CFG_EN (i : Nat) : Field := ⟨(EVT_CFG i), 31, 31⟩
def EVT_CFG_PRIO (i : Nat) : Field := ⟨(EVT_CFG i), 10, 8⟩
def EVT_CFG_MASK (i : Nat) : Field := ⟨(EVT_CFG i), 3, 0⟩
/-- WDT_CTRL. -/
def WDT_CTRL : Nat := 0x90000
def WDT_CTRL_STICKY : Field := ⟨WDT_CTRL, 1, 1⟩
def WDT_CTRL_EN : Field := ⟨WDT_CTRL, 0, 0⟩
/-- WDT_LOAD1. -/
def WDT_LOAD1 : Nat := 0x90004
def WDT_LOAD1_LOAD1 : Field := ⟨WDT_LOAD1, 23, 0⟩
/-- WDT_LOAD2. -/
def WDT_LOAD2 : Nat := 0x90008
def WDT_LOAD2_LOAD2 : Field := ⟨WDT_LOAD2, 23, 0⟩
/-- WDT_KICK. -/
def WDT_KICK : Nat := 0x9000C
def WDT_KICK_KEY : Field := ⟨WDT_KICK, 31, 0⟩
/-- WDT_LOCK. -/
def WDT_LOCK : Nat := 0x90010
def WDT_LOCK_OWNER : Field := ⟨WDT_LOCK, 25, 16⟩
def WDT_LOCK_STATE : Field := ⟨WDT_LOCK, 1, 0⟩
/-- WDT_STAT. -/
def WDT_STAT : Nat := 0x90014
def WDT_STAT_STAGE : Field := ⟨WDT_STAT, 31, 31⟩
def WDT_STAT_FROZEN : Field := ⟨WDT_STAT, 30, 30⟩
def WDT_STAT_BADKICK : Field := ⟨WDT_STAT, 25, 25⟩
def WDT_STAT_LOCKERR : Field := ⟨WDT_STAT, 24, 24⟩
def WDT_STAT_COUNT : Field := ⟨WDT_STAT, 23, 0⟩
/-- CLK_CTRL. -/
def CLK_CTRL : Nat := 0x10000
def CLK_CTRL_MREFO_EN : Field := ⟨CLK_CTRL, 2, 2⟩
def CLK_CTRL_RCO_SLEEP : Field := ⟨CLK_CTRL, 1, 1⟩
def CLK_CTRL_AON_SRC : Field := ⟨CLK_CTRL, 0, 0⟩
/-- CLK_ROOT. -/
def CLK_ROOT : Nat := 0x10004
def CLK_ROOT_GO : Field := ⟨CLK_ROOT, 31, 31⟩
def CLK_ROOT_SRC : Field := ⟨CLK_ROOT, 17, 16⟩
def CLK_ROOT_M : Field := ⟨CLK_ROOT, 8, 0⟩
/-- CLK_STAT. -/
def CLK_STAT : Nat := 0x10008
def CLK_STAT_LOCK : Field := ⟨CLK_STAT, 31, 31⟩
def CLK_STAT_SWITCHING : Field := ⟨CLK_STAT, 30, 30⟩
def CLK_STAT_MUX_BUSY : Field := ⟨CLK_STAT, 29, 29⟩
def CLK_STAT_SRC_NOW : Field := ⟨CLK_STAT, 28, 27⟩
def CLK_STAT_RCO_READY : Field := ⟨CLK_STAT, 26, 26⟩
def CLK_STAT_XO_READY : Field := ⟨CLK_STAT, 25, 25⟩
def CLK_STAT_XO_OK : Field := ⟨CLK_STAT, 24, 24⟩
def CLK_STAT_RCO_OK : Field := ⟨CLK_STAT, 23, 23⟩
def CLK_STAT_MREF_OK : Field := ⟨CLK_STAT, 22, 22⟩
def CLK_STAT_MREF_SETTLED : Field := ⟨CLK_STAT, 21, 21⟩
def CLK_STAT_AON_NOW : Field := ⟨CLK_STAT, 20, 20⟩
def CLK_STAT_TRIP_SRC : Field := ⟨CLK_STAT, 11, 10⟩
def CLK_STAT_M_NOW : Field := ⟨CLK_STAT, 8, 0⟩
/-- CLK_FLAG. -/
def CLK_FLAG : Nat := 0x1000C
def CLK_FLAG_XO_FAIL : Field := ⟨CLK_FLAG, 3, 3⟩
def CLK_FLAG_TRIP : Field := ⟨CLK_FLAG, 2, 2⟩
def CLK_FLAG_RANGE_ERR : Field := ⟨CLK_FLAG, 1, 1⟩
def CLK_FLAG_BADCFG : Field := ⟨CLK_FLAG, 0, 0⟩
/-- CLK_MREF. -/
def CLK_MREF : Nat := 0x10010
def CLK_MREF_FREQ : Field := ⟨CLK_MREF, 15, 0⟩
/-- CLK_TRIM. -/
def CLK_TRIM : Nat := 0x10014
def CLK_TRIM_EN : Field := ⟨CLK_TRIM, 31, 31⟩
def CLK_TRIM_SRC : Field := ⟨CLK_TRIM, 30, 29⟩
def CLK_TRIM_LANE : Field := ⟨CLK_TRIM, 28, 21⟩
def CLK_TRIM_WIN : Field := ⟨CLK_TRIM, 11, 8⟩
/-- CLK_TEXP. -/
def CLK_TEXP : Nat := 0x10018
def CLK_TEXP_EXPECT : Field := ⟨CLK_TEXP, 23, 0⟩
/-- CLK_TCODE. -/
def CLK_TCODE : Nat := 0x1001C
def CLK_TCODE_CODE : Field := ⟨CLK_TCODE, 11, 0⟩
/-- CLK_CNT. -/
def CLK_CNT : Nat := 0x10020
def CLK_CNT_TRIP_CNT : Field := ⟨CLK_CNT, 31, 16⟩
def CLK_CNT_SWITCH_CNT : Field := ⟨CLK_CNT, 15, 0⟩
/-- RST_CAUSE. -/
def RST_CAUSE : Nat := 0x20000
def RST_CAUSE_CUR : Field := ⟨RST_CAUSE, 12, 12⟩
def RST_CAUSE_SUB : Field := ⟨RST_CAUSE, 11, 8⟩
def RST_CAUSE_CAUSE : Field := ⟨RST_CAUSE, 3, 0⟩
/-- RST_STRAP. -/
def RST_STRAP : Nat := 0x20004
def RST_STRAP_UNSTABLE : Field := ⟨RST_STRAP, 16, 16⟩
def RST_STRAP_RAW : Field := ⟨RST_STRAP, 15, 8⟩
def RST_STRAP_CODE : Field := ⟨RST_STRAP, 3, 0⟩
/-- RST_STAGE. -/
def RST_STAGE : Nat := 0x20008
def RST_STAGE_STEP : Field := ⟨RST_STAGE, 31, 28⟩
def RST_STAGE_RELEASE_T : Field := ⟨RST_STAGE, 23, 0⟩
/-- RST_LOCK. -/
def RST_LOCK : Nat := 0x2000C
def RST_LOCK_OWNER : Field := ⟨RST_LOCK, 25, 16⟩
def RST_LOCK_STATE : Field := ⟨RST_LOCK, 1, 0⟩
/-- RST_FULL. -/
def RST_FULL : Nat := 0x20010
def RST_FULL_GO : Field := ⟨RST_FULL, 0, 0⟩
/-- RST_BLK. -/
def RST_BLK : Nat := 0x20020
def RST_BLK_GO : Field := ⟨RST_BLK, 31, 31⟩
def RST_BLK_BUSY : Field := ⟨RST_BLK, 30, 30⟩
def RST_BLK_SECTOR : Field := ⟨RST_BLK, 7, 0⟩
/-- RST_BSTAT. -/
def RST_BSTAT : Nat := 0x20024
def RST_BSTAT_DONE : Field := ⟨RST_BSTAT, 31, 31⟩
def RST_BSTAT_REFUSED : Field := ⟨RST_BSTAT, 30, 30⟩
def RST_BSTAT_LOCKERR : Field := ⟨RST_BSTAT, 29, 29⟩
def RST_BSTAT_REF_WHY : Field := ⟨RST_BSTAT, 25, 24⟩
def RST_BSTAT_LAST : Field := ⟨RST_BSTAT, 7, 0⟩
/-- RST_ALARM. -/
def RST_ALARM : Nat := 0x20028
def RST_ALARM_PIN : Field := ⟨RST_ALARM, 1, 1⟩
def RST_ALARM_FW : Field := ⟨RST_ALARM, 0, 0⟩
/-- PWR_MODE. -/
def PWR_MODE : Nat := 0x30000
def PWR_MODE_MODE : Field := ⟨PWR_MODE, 1, 0⟩
/-- PWR_STATUS. -/
def PWR_STATUS : Nat := 0x30004
def PWR_STATUS_LAST_WAKE : Field := ⟨PWR_STATUS, 31, 30⟩
def PWR_STATUS_WAKE_SRC : Field := ⟨PWR_STATUS, 29, 27⟩
def PWR_STATUS_ENTERING : Field := ⟨PWR_STATUS, 26, 26⟩
def PWR_STATUS_REFUSED : Field := ⟨PWR_STATUS, 25, 25⟩
def PWR_STATUS_REF_BLOCK : Field := ⟨PWR_STATUS, 19, 16⟩
def PWR_STATUS_REF_WHY : Field := ⟨PWR_STATUS, 15, 14⟩
/-- PWR_WAKE. -/
def PWR_WAKE : Nat := 0x30008
def PWR_WAKE_TIMER_EN : Field := ⟨PWR_WAKE, 2, 2⟩
def PWR_WAKE_GPIO_EN : Field := ⟨PWR_WAKE, 1, 1⟩
def PWR_WAKE_LANE_EN : Field := ⟨PWR_WAKE, 0, 0⟩
/-- PWR_WTIME. -/
def PWR_WTIME : Nat := 0x3000C
def PWR_WTIME_TICKS : Field := ⟨PWR_WTIME, 31, 0⟩
/-- PWR_VSET. -/
def PWR_VSET : Nat := 0x30010
def PWR_VSET_VS_REQ : Field := ⟨PWR_VSET, 23, 16⟩
def PWR_VSET_VT_REQ : Field := ⟨PWR_VSET, 15, 8⟩
def PWR_VSET_VF_REQ : Field := ⟨PWR_VSET, 7, 0⟩
/-- PWR_VNOW. -/
def PWR_VNOW : Nat := 0x30014
def PWR_VNOW_SLEW : Field := ⟨PWR_VNOW, 31, 31⟩
def PWR_VNOW_VS_NOW : Field := ⟨PWR_VNOW, 23, 16⟩
def PWR_VNOW_VT_NOW : Field := ⟨PWR_VNOW, 15, 8⟩
def PWR_VNOW_VF_NOW : Field := ⟨PWR_VNOW, 7, 0⟩
/-- PWR_FLAG. -/
def PWR_FLAG : Nat := 0x30018
def PWR_FLAG_VIN_WARN : Field := ⟨PWR_FLAG, 31, 31⟩
def PWR_FLAG_VAUX_WARN : Field := ⟨PWR_FLAG, 30, 30⟩
def PWR_FLAG_REGFAULT : Field := ⟨PWR_FLAG, 29, 29⟩
def PWR_FLAG_BADVSET : Field := ⟨PWR_FLAG, 28, 28⟩
def PWR_FLAG_FAULT_RAIL : Field := ⟨PWR_FLAG, 3, 0⟩
/-- PWR_VMON. -/
def PWR_VMON : Nat := 0x3001C
def PWR_VMON_VIN : Field := ⟨PWR_VMON, 31, 16⟩
def PWR_VMON_VAUX : Field := ⟨PWR_VMON, 15, 0⟩
/-- PWR_RESm_LO. -/
def PWR_RES_LO (i : Nat) : Nat := 0x30020 + 8 * i
def PWR_RES_LO_RES_LO (i : Nat) : Field := ⟨(PWR_RES_LO i), 31, 0⟩
/-- PWR_RESm_HI. -/
def PWR_RES_HI (i : Nat) : Nat := 0x30024 + 8 * i
def PWR_RES_HI_RES_HI (i : Nat) : Field := ⟨(PWR_RES_HI i), 31, 0⟩
/-- THM_CTRL. -/
def THM_CTRL : Nat := 0x40000
def THM_CTRL_TEN : Field := ⟨THM_CTRL, 31, 31⟩
/-- THM_LIMIT. -/
def THM_LIMIT : Nat := 0x40004
def THM_LIMIT_HYST : Field := ⟨THM_LIMIT, 19, 16⟩
def THM_LIMIT_T_THR : Field := ⟨THM_LIMIT, 15, 8⟩
def THM_LIMIT_T_WARN : Field := ⟨THM_LIMIT, 7, 0⟩
/-- THM_RATE. -/
def THM_RATE : Nat := 0x40008
def THM_RATE_RATE_MAX : Field := ⟨THM_RATE, 5, 0⟩
/-- THM_PL. -/
def THM_PL : Nat := 0x4000C
def THM_PL_DWELL : Field := ⟨THM_PL, 31, 24⟩
def THM_PL_PL_MAX : Field := ⟨THM_PL, 8, 0⟩
/-- THM_STAT. -/
def THM_STAT : Nat := 0x40010
def THM_STAT_STEP : Field := ⟨THM_STAT, 31, 27⟩
def THM_STAT_DUTY : Field := ⟨THM_STAT, 26, 22⟩
def THM_STAT_FAST : Field := ⟨THM_STAT, 21, 21⟩
def THM_STAT_DEF_NOW : Field := ⟨THM_STAT, 20, 20⟩
def THM_STAT_HOT : Field := ⟨THM_STAT, 8, 0⟩
/-- THM_POWER. -/
def THM_POWER : Nat := 0x40014
def THM_POWER_P_TOT : Field := ⟨THM_POWER, 31, 16⟩
def THM_POWER_P_FIX : Field := ⟨THM_POWER, 15, 0⟩
/-- THM_PLNOW. -/
def THM_PLNOW : Nat := 0x40018
def THM_PLNOW_PL : Field := ⟨THM_PLNOW, 15, 0⟩
/-- THM_FLAG. -/
def THM_FLAG : Nat := 0x4001C
def THM_FLAG_BADSENS : Field := ⟨THM_FLAG, 3, 3⟩
def THM_FLAG_WARN : Field := ⟨THM_FLAG, 2, 2⟩
def THM_FLAG_RATE : Field := ⟨THM_FLAG, 1, 1⟩
def THM_FLAG_DEFICIT : Field := ⟨THM_FLAG, 0, 0⟩
/-- THM_CNT. -/
def THM_CNT : Nat := 0x40020
def THM_CNT_STEP_CNT : Field := ⟨THM_CNT, 31, 16⟩
def THM_CNT_RATE_CNT : Field := ⟨THM_CNT, 15, 0⟩
/-- THM_TRIP. -/
def THM_TRIP : Nat := 0x40024
def THM_TRIP_SUB : Field := ⟨THM_TRIP, 31, 28⟩
def THM_TRIP_SENSOR : Field := ⟨THM_TRIP, 8, 0⟩
/-- THM_TEMPn. -/
def THM_TEMP (i : Nat) : Nat := 0x40100 + 4 * i
def THM_TEMP_VALID (i : Nat) : Field := ⟨(THM_TEMP i), 31, 31⟩
def THM_TEMP_BAD (i : Nat) : Field := ⟨(THM_TEMP i), 30, 30⟩
def THM_TEMP_TEMP (i : Nat) : Field := ⟨(THM_TEMP i), 10, 0⟩
/-- DBG_STAT. -/
def DBG_STAT : Nat := 0xA0000
def DBG_STAT_HALTED : Field := ⟨DBG_STAT, 31, 31⟩
def DBG_STAT_HALT_PEND : Field := ⟨DBG_STAT, 30, 30⟩
def DBG_STAT_ACC_BUSY : Field := ⟨DBG_STAT, 29, 29⟩
def DBG_STAT_ACC_RESP : Field := ⟨DBG_STAT, 28, 27⟩
def DBG_STAT_ACC_OVR : Field := ⟨DBG_STAT, 26, 26⟩
def DBG_STAT_HELD : Field := ⟨DBG_STAT, 3, 0⟩
/-- DBG_CUR. -/
def DBG_CUR : Nat := 0xA0004
def DBG_CUR_DONE_OK : Field := ⟨DBG_CUR, 31, 31⟩
def DBG_CUR_GO : Field := ⟨DBG_CUR, 3, 0⟩
/-- DBG_PCi_LO. -/
def DBG_PC_LO (i : Nat) : Nat := 0xA0010 + 8 * i
def DBG_PC_LO_PC (i : Nat) : Field := ⟨(DBG_PC_LO i), 31, 0⟩
/-- DBG_PCi_HI. -/
def DBG_PC_HI (i : Nat) : Nat := 0xA0014 + 8 * i
def DBG_PC_HI_PC (i : Nat) : Field := ⟨(DBG_PC_HI i), 31, 0⟩
/-- DBG_I2C. -/
def DBG_I2C : Nat := 0xA0030
def DBG_I2C_ADDR : Field := ⟨DBG_I2C, 6, 0⟩
/-- BIST_POST. -/
def BIST_POST : Nat := 0xB0000
def BIST_POST_GROUPS_REP : Field := ⟨BIST_POST, 31, 16⟩
def BIST_POST_LINKS_REP : Field := ⟨BIST_POST, 15, 0⟩
/-- BIST_RT_CTRL. -/
def BIST_RT_CTRL : Nat := 0xB0004
def BIST_RT_CTRL_GO : Field := ⟨BIST_RT_CTRL, 31, 31⟩
def BIST_RT_CTRL_REPAIR : Field := ⟨BIST_RT_CTRL, 30, 30⟩
def BIST_RT_CTRL_PAIR : Field := ⟨BIST_RT_CTRL, 6, 0⟩
/-- BIST_RT_STAT. -/
def BIST_RT_STAT : Nat := 0xB0008
def BIST_RT_STAT_BUSY : Field := ⟨BIST_RT_STAT, 31, 31⟩
def BIST_RT_STAT_DONE : Field := ⟨BIST_RT_STAT, 30, 30⟩
def BIST_RT_STAT_FAIL : Field := ⟨BIST_RT_STAT, 29, 29⟩
def BIST_RT_STAT_ABORT : Field := ⟨BIST_RT_STAT, 28, 28⟩
def BIST_RT_STAT_REFUSED : Field := ⟨BIST_RT_STAT, 27, 27⟩
def BIST_RT_STAT_FAIL_CNT : Field := ⟨BIST_RT_STAT, 20, 8⟩
def BIST_RT_STAT_REP_CNT : Field := ⟨BIST_RT_STAT, 7, 0⟩
/-- BIST_RT_FAIL. -/
def BIST_RT_FAIL : Nat := 0xB000C
def BIST_RT_FAIL_U : Field := ⟨BIST_RT_FAIL, 25, 22⟩
def BIST_RT_FAIL_V : Field := ⟨BIST_RT_FAIL, 21, 18⟩
def BIST_RT_FAIL_LINK : Field := ⟨BIST_RT_FAIL, 17, 12⟩
/-- GPIO_CFGi. -/
def GPIO_CFG (i : Nat) : Nat := 0xD0000 + 4 * i
def GPIO_CFG_WAKE_EN (i : Nat) : Field := ⟨(GPIO_CFG i), 31, 31⟩
def GPIO_CFG_WAKE_POL (i : Nat) : Field := ⟨(GPIO_CFG i), 30, 30⟩
def GPIO_CFG_EVT (i : Nat) : Field := ⟨(GPIO_CFG i), 29, 28⟩
def GPIO_CFG_PAIR (i : Nat) : Field := ⟨(GPIO_CFG i), 27, 26⟩
def GPIO_CFG_DDIR (i : Nat) : Field := ⟨(GPIO_CFG i), 15, 15⟩
def GPIO_CFG_DEL (i : Nat) : Field := ⟨(GPIO_CFG i), 14, 8⟩
def GPIO_CFG_DRIVE (i : Nat) : Field := ⟨(GPIO_CFG i), 5, 4⟩
def GPIO_CFG_SRC (i : Nat) : Field := ⟨(GPIO_CFG i), 1, 1⟩
def GPIO_CFG_PU (i : Nat) : Field := ⟨(GPIO_CFG i), 0, 0⟩
/-- GPIO_INb. -/
def GPIO_IN (i : Nat) : Nat := 0xD0200 + 4 * i
def GPIO_IN_LEVEL (i : Nat) : Field := ⟨(GPIO_IN i), 23, 0⟩
/-- GPIO_EVTb. -/
def GPIO_EVT (i : Nat) : Nat := 0xD0210 + 4 * i
def GPIO_EVT_EDGE (i : Nat) : Field := ⟨(GPIO_EVT i), 23, 0⟩
/-- GPIO_OUTb. -/
def GPIO_OUT (i : Nat) : Nat := 0xD0220 + 4 * i
def GPIO_OUT_OUT (i : Nat) : Field := ⟨(GPIO_OUT i), 23, 0⟩
/-- GPIO_OEb. -/
def GPIO_OE (i : Nat) : Nat := 0xD0230 + 4 * i
def GPIO_OE_OE (i : Nat) : Field := ⟨(GPIO_OE i), 23, 0⟩

end Reg

end Sys2Proof.Machine
end

