-- ==== Sys2Proof/Machine/State.lean ====
section
/-!
DEFINITION. The state of the device as plain data, the state right after a power-on reset, and the reasons a step can
stop. Every software-visible register bit lives in `regs`, sparse, keyed by its offset from 0x0007_0000_0000; what the
spec gives the machine beside its registers lives in the other fields, one group for each unit.
-/

namespace Sys2Proof.Machine

/-- A stop with a fault. No meaning raises one: every command has an effect or none. -/
inductive Fault where
  /-- Raised by nobody; it keeps the type inhabited. Safe: a run never ends in it. -/
  | none
  deriving DecidableEq, Repr

/-- A stop for want of a meaning. -/
inductive Refusal where
  /-- Raised by the dispatch for a command that has no meaning yet. Safe: nothing is claimed of it. -/
  | notModelled (mnemonic : String)
  deriving DecidableEq, Repr

/-- What the last register access answered: status 0 OKAY, 1 SLVERR, 2 DECERR, and the data of a read. The model's own
port: the spec's responses travel on the network. -/
structure Response where
  status : Nat
  data : Word64
  deriving DecidableEq, Repr

/-- One timing command waiting for its effect tick (R28): ticks still to pass, the CMD code, the ARG. -/
structure TimingCmd where
  wait : Nat
  cmd : Nat
  arg : Nat
  /-- It completed in tick d or later (R46). -/
  late : Bool
  deriving DecidableEq, Repr

/-- Machine time (02_machine_time.md). -/
structure TimeState where
  /-- The global slot counter (R51); its value modulo 8 is the slot number k. -/
  slots : Nat
  /-- VCO cycles that the slots run so far have taken, four for each outside the ramps of a root switch (R382, R388). -/
  vco : Nat
  /-- Slots that ran while CFG and TLR stood still (R389). -/
  off : Nat
  /-- Slots of the present tick that have run. -/
  inTick : Nat
  /-- Slots per tick in force (R22, TIME_FREE). -/
  tickSlots : Nat
  /-- TICK, 48 bits. -/
  tick : BitVec 48
  /-- FRAME_LEN in force (R33). -/
  len : Nat
  /-- CLR_LEN in force (R33). -/
  clr : Nat
  /-- SRC in force. -/
  src : Nat
  /-- CMD_LAT in force. -/
  cmdLat : Nat
  /-- The ORB_PIN the sample count stands for (R26). -/
  pinSel : Nat
  /-- Consecutive low samples of the selected orbit-marker pin (R26). -/
  lows : Nat
  /-- Timing commands that have completed and not yet taken effect, oldest first. -/
  due : List TimingCmd
  /-- The beat in which the last timing word completed (R27). -/
  wordBeat : Option Nat
  /-- TEST of the timing bus. -/
  test : Bool
  /-- TEST_TYPE of the timing bus. -/
  testType : BitVec 8
  /-- FRAME_STB of the timing bus: the next slot is slot 0 of tick 0 of a frame. -/
  frameStb : Bool
  /-- DONE as last sampled (R46, R48). -/
  doneHigh : Bool
  /-- Tick d has come: DONE has been sampled high (R46). -/
  doneSeen : Bool
  /-- The slot in which event 226 was last raised for a refused swap (R78). -/
  refusedAt : Option Nat
  /-- Ticks until the start tick, where one is set (R46). -/
  startIn : Option Nat
  /-- A START_FORCE is waiting for the next tick boundary (R46). -/
  forceStart : Bool
  /-- Ticks until event 285 is raised again while WAIT_ORBIT is 1 (R46). -/
  remindIn : Nat
  /-- The SWAP_GO groups released in this slot 0 (R67). -/
  swapGo : BitVec 8
  deriving DecidableEq, Repr

/-- Machine time after reset: no tick has passed, lengths at their reset values. -/
def TimeState.reset : TimeState :=
  { slots := 0, vco := 0, off := 0, inTick := 0, tickSlots := 48, tick := 0, len := 4000, clr := 256, src := 0, cmdLat := 4, pinSel := 0,
    lows := 0, due := [], wordBeat := none, test := false, testType := 0, frameStb := false, doneHigh := false, doneSeen := false,
    refusedAt := none,    startIn := none, forceStart := false, remindIn := 0, swapGo := 0 }

/-- The type of a MAC operation (MCTL.OP). -/
inductive MacKind where
  | madd | leaf | head
  deriving DecidableEq, Repr

/-- A MAC operation in flight: its issue slot and plane, T (or the leaf sum) and the extended C as exact integers, and
the control bits its stage 3 needs (Table 6.2). -/
structure MacOp where
  at_ : Nat
  plane : Nat
  kind : MacKind
  t : Int
  c : Int
  zsel : Nat
  ld : Bool
  wracc : Bool
  sat : Bool
  deriving DecidableEq, Repr

/-- A MAC block: operations in flight and its output register (R117). -/
structure MacBlock where
  ops : List MacOp
  p : Word64
  ovf : Bool
  new : Bool
  deriving DecidableEq, Repr

def MacBlock.reset : MacBlock := { ops := [], p := 0, ovf := false, new := false }

/-- A MERGE whose input slots are not over: its issue slot, sources and delays, and the groups taken (R131). -/
structure MergeIn where
  at_ : Nat
  srcA : Nat
  srcB : Nat
  dA : Nat
  dB : Nat
  a : List Nat
  b : List Nat
  deriving DecidableEq, Repr

/-- A ranker: retained list, MERGE in progress, groups to present by slot, CO, what CO presented in past slots, the
slot from which its source records stand, and the slot in which an operation has come to it (R54). An
entry is its 32-bit number; a group is 8 of them; an empty list stands for the all-empty group. -/
structure Ranker where
  list : List Nat
  merge : Option MergeIn
  outs : List (Nat × List Nat)
  co : List Nat
  past : List (List Nat)
  since : Nat
  opAt : Option Nat
  deriving DecidableEq, Repr

def Ranker.reset : Ranker := { list := [], merge := none, outs := [], co := [], past := [], since := 0, opAt := none }

/-- One matcher context: for each pattern the layers its hits have matched, and whether it accepted a hit (R139). -/
structure MatchCtx where
  bits : Tab Nat
  hit : Bool
  deriving DecidableEq, Repr

/-- A road of an evaluated event (R141). -/
structure Road where
  pattern : Nat
  lmap : Nat
  count : Nat
  payload : Nat
  deriving DecidableEq, Repr

/-- An event that drains: its context, end slot, THR and ORDER, EVNUM, and once evaluated its roads and OVF (R141 to R143). -/
structure Drain where
  ctx : Nat
  at_ : Nat
  thr : Nat
  order : Nat
  evnum : Nat
  roads : Option (List Road × Bool)
  deriving DecidableEq, Repr

/-- The word on a matcher's attachment sources (Table 7.2). -/
structure RoadWord where
  road : Option Road
  done : Bool
  ovf : Bool
  cut : Bool
  ctx : Nat
  evnum : Nat
  deriving DecidableEq, Repr

/-- A matcher: contexts, the one filling, the draining event, the slot at whose end the other context stopped draining for a new one (R144),
EVNUM, the slot of the last event end, the word shown and its slot, a cut event's DONE word and its slot, the checker's next address and the slot of
its last visit, and the slots its pending port access has
waited. -/
structure Matcher where
  ctx0 : MatchCtx
  ctx1 : MatchCtx
  fill : Nat
  drain : Option Drain
  drained : Option Nat
  evnum : Nat
  endedAt : Option Nat
  shown : Option (Nat × RoadWord)
  cutWord : Option (Nat × RoadWord)
  check : Nat
  checkAt : Option Nat
  waited : Nat
  deriving DecidableEq, Repr

def Matcher.reset : Matcher :=
  { ctx0 := ⟨[], false⟩, ctx1 := ⟨[], false⟩, fill := 0, drain := none, drained := none, evnum := 0, endedAt := none, shown := none,
    cutWord := none, check := 0, checkAt := none, waited := 0 }

/-- A bank operation (Table 8.4; a line access performs eight reads or writes). -/
inductive BankOp where
  | read | write | add | addu | adds | swap
  deriving DecidableEq, Repr

/-- A request at a bank (R155 to R160): the initiator ID and tag (0x3FF for the fabric), the operation, the word address,
the byte offset in the word, byte enables, the size in bytes, data words placed in their byte lanes, how many word
operations a line access has performed and the data and error it has gathered, whether it addressed the upper half of a persistent
bank, whether the read half of a two-cycle operation is done, and the word it read. -/
structure BankReq where
  id : Nat
  tag : Nat
  op : BankOp
  word : Nat
  off : Nat
  be : Nat
  size : Nat
  data : List Nat
  step : Nat
  got : List Nat
  err : Bool
  range : Bool
  half : Bool
  old : Nat
  deriving DecidableEq, Repr

/-- A result on its way to the fabric port: the slot it is presented in, the data, RERR, and whether it is one. -/
structure BankResult where
  slot : Nat
  data : Nat
  err : Bool
  deriving DecidableEq, Repr

/-- A bank beside its words and registers: the owner in force (CLASS, ID; R153), an owner's two-cycle operation whose write half falls
into the present cycle (R155), the last cycle used, the last in which a non-owner was served, the last in which a candidate performed a
part of a line access (R158), the fabric's held request and its slot,
the sector teller's requests, the network queue, the rotating pointer (0 fabric, 1 teller, 2 network), the non-owner two-cycle
operation between its halves with its candidate, results on their way, RDATA with RERR and its slot, the slots of the last ACCEPT and
REFUSED, PTR and the fields in force at the last frame boundary (R164, R166), and the scrubber: next word, slot of its last visit since
it started, slots for which a due visit has found no free cycle, and a rewrite that waits for one (R162). -/
structure Bank where
  own : Nat × Nat
  second : Option BankReq
  usedAt : Option Nat
  servAt : Option Nat
  partAt : Option Nat
  held : Option BankReq
  heldAt : Nat
  tlr : List BankReq
  net : List BankReq
  ptr : Nat
  mid : Option (Nat × BankReq)
  results : List BankResult
  rdata : Nat
  rerr : Bool
  rvalidAt : Option Nat
  acceptAt : Option Nat
  refusedAt : Option Nat
  ringPtr : Nat
  ring : Bool
  persist : Bool
  bring : Nat × Nat × Nat
  scrubWord : Nat
  scrubAt : Option Nat
  scrubWait : Nat
  fix : Option (Nat × CodeWord)
  deriving DecidableEq, Repr

/-- A bank after reset: the fabric owns it and the pointer stands at the network candidate (R156). -/
def Bank.reset : Bank :=
  { own := (0, 0), second := none, usedAt := none, servAt := none, partAt := none, held := none, heldAt := 0, tlr := [], net := [], ptr := 2, mid := none, results := [],
    rdata := 0, rerr := false, rvalidAt := none, acceptAt := none, refusedAt := none, ringPtr := 0,
    ring := false, persist := false, bring := (0, 0, 0), scrubWord := 0, scrubAt := none, scrubWait := 0, fix := none }

/-- A vertical link that the contention guard holds: the slot of the trip, and for each of its two sectors whether a full sweep that
began after it is over (R107, R359). -/
structure HeldLink where
  at_ : Nat
  ok0 : Bool
  ok1 : Bool
  deriving DecidableEq, Repr

/-- A response on its way to an initiator: initiator ID, tag, status (0 OKAY, 1 SLVERR, 2 DECERR), data words, and the
slot before which it does not leave a bank (R155). -/
structure Rsp where
  id : Nat
  tag : Nat
  status : Nat
  data : List Nat
  ready : Nat
  deriving DecidableEq, Repr

/-- A received character: K-flag, value, whether it was a code violation, whether a disparity error, and the running
disparity after it (R179). -/
structure RxChar where
  k : Bool
  v : Nat
  cv : Bool
  rdErr : Bool
  rd : Bool
  deriving DecidableEq, Repr

/-- The comma search of R181: the last ten bits with the newest in bit 9 and how many have been taken, the bits of the present character,
the sum of the slips, the commas at offset 0 still awaited once one has been found, the running disparity, and the disparity before the
comma that ended the search. -/
structure CommaSearch where
  win : Nat
  seen : Nat
  cnt : Nat
  slip : Nat
  need : Option Nat
  rd : Bool
  done : Option Bool
  deriving DecidableEq, Repr

def CommaSearch.reset : CommaSearch := { win := 0, seen := 0, cnt := 0, slip := 0, need := none, rd := false, done := none }

/-- The phase buffer of an aligned lane (R182, R186), in 1,024ths of a slot: when word 0 completes and the time from there to its capture
edge; the slot from which word 0 is presented; after a debug halt the next word to complete becomes word 0 (R189). -/
structure PhaseBuf where
  done0 : Nat
  e : Nat
  first : Nat
  rebase : Bool
  deriving DecidableEq, Repr

def PhaseBuf.reset : PhaseBuf := { done0 := 0, e := 0, first := 0, rebase := false }

/-- A lane in front-end mode (09_frontend_lanes.md). -/
structure FeLane where
  srch : CommaSearch
  buf : PhaseBuf
  /-- The COMMA_EN of the alignment in force (R181). -/
  commas : Nat
  /-- The slot in which the last word completed. -/
  gotAt : Option Nat
  /-- The last code-group, the running disparity, and which of the last 63 characters were code violations, newest first. -/
  last : Option Nat
  rxRd : Bool
  cv : List Bool
  /-- Words in the buffer, each with the slot from which it is presented. -/
  words : List (Nat × List RxChar)
  /-- The lane was ACTIVE and aligned when the present beat began (Table 9.3). -/
  live : Bool
  /-- The characters of a timing word that has begun, and the beat whose word the timing decoder has taken (R188). -/
  part : List RxChar
  timedAt : Option Nat
  txRd : Bool
  /-- The first slot of the tick of entry to ACTIVE, and the slots of four ticks then (R185). -/
  actSlot : Nat
  period : Nat
  /-- The slot in which the last transmit word was taken, the last word coded, and the word on the pins, none in electrical idle. -/
  sentAt : Option Nat
  txWord : BitVec 80
  pins : Option (BitVec 80)
  deriving DecidableEq, Repr

def FeLane.reset : FeLane :=
  { srch := CommaSearch.reset, buf := PhaseBuf.reset, commas := 0, gotAt := none, last := none, rxRd := false, cv := [], words := [],
    live := false, part := [], timedAt := none, txRd := false, actSlot := 0, period := 0, sentAt := none, txWord := 0, pins := none }

/-- Where the device stands: no power, held in reset until a start may begin, in steps 1 to 5 of a start, held after a
failure of step 3 or 4 (R404), running, in a low-power state (R417), or in integrity halt (R313). -/
inductive Phase where
  | unpowered | waiting | start | bistHeld | run | hold | keep | off | integrity
  deriving DecidableEq, Repr

/-- A request on the network: the fields of a REQ flit (Table 13.3); WRLINE carries its line in `data`. -/
structure NocReq where
  op : Nat
  size : Nat
  src : Nat
  tag : Nat
  key : Nat
  addr : Nat
  data : Nat
  peek : Bool
  ln : Bool
  deriving DecidableEq, Repr

/-- A flit as its bits: of REQ, of RSP, of DAT with its sideband (Tables 13.2 and 13.3), or of SNP (Table 18.2) with the router that it is
bound for, which that flit does not name. -/
inductive Flit where
  | req (bits : BitVec 160)
  | rsp (bits : BitVec 96)
  | dat (bits : BitVec 1024) (side : BitVec 64)
  | snp (bits : Nat) (dst : Nat)
  deriving DecidableEq, Repr

/-- A request outstanding at its initiator: T_o once it has entered its injection queue (R265), what the initiator needs to know of it when the response
comes (`note`, `aux`), and whether the initiator has abandoned it (R38, R250). -/
structure Outst where
  id : Nat
  ln : Bool
  tag : Nat
  op : Nat
  addr : Nat
  size : Nat
  tmo : Option Nat
  note : Nat
  aux : Nat
  deriving DecidableEq, Repr

/-- A user-window request at a NAP: the request, its virtual channel, its handle and the slot it was presented in. -/
structure UwReq where
  r : NocReq
  vc : Nat
  shown : Option (Nat × Nat)
  deriving DecidableEq, Repr

/-- A response for user logic: arrival slot, whether the NAP made it itself, user tag, status, data (R269). -/
structure UserRsp where
  at_ : Nat
  own : Bool
  ut : Nat
  status : Nat
  data : Nat
  deriving DecidableEq, Repr

/-- A NAP beside its registers: unused credits, credits that the fence withdrew and user logic may still present, ICRED and
TCRED in force, the slots of the last grant, of the last request taken and of the last answer taken, responses waiting and the one presented with its slot, user-window
requests, the one presented with its slot, and the fence in force (R268 to R273). -/
structure Nap where
  cred : Nat
  lost : Nat
  reqAt : Option Nat
  ansAt : Option Nat
  icred : Nat
  tcred : Nat
  grantAt : Option Nat
  resps : List UserRsp
  shown : Option (Nat × UserRsp)
  uw : List UwReq
  uwShown : Option (Nat × UwReq)
  fenced : Bool
  deriving DecidableEq, Repr

def Nap.reset : Nap :=
  { cred := 0, lost := 0, reqAt := none, ansAt := none, icred := 16, tcred := 16, grantAt := none, resps := [], shown := none, uw := [], uwShown := none,
    fenced := false }

/-- What a teller's instruction in progress waits for: nothing; accesses of own banks, one after another (kind 0 load,
1 VLD, 2 store or VST, 3 VTALLY; the register, size and sign of a load; the address of the request at the bank; addresses and
requests to come; words got; the address of the first error); a network load's parts (tags to come, data got by part); TWAIT; TSETTLE; or
FRAME after an overdraft. `next` is the address of the next instruction. -/
inductive TlrWait where
  | none
  | bank (kind reg size : Nat) (signed : Bool) (addr : Nat) (todo : List (Nat × BankReq)) (got : List Nat)
      (bad : Option Nat) (next : Nat)
  | net (vector : Bool) (reg size : Nat) (signed : Bool) (addr : Nat) (left : List Nat) (got : List (Nat × Nat)) (err : Bool)
      (next : Nat)
  | twait (rd next : Nat)
  | settle (rd next : Nat)
  | overdraft
  deriving DecidableEq, Repr

/-- What the two ports of a teller's RAMs have done in a TLR cycle (R237): whether the network port has served an access, the words written in
the cycle as they were before it, and the writes of the network port (word, data, bytes). -/
structure RamCycle where
  cycle : Nat
  net : Bool
  olds : List (Nat × CodeWord)
  nets : List (Nat × Nat × Nat)
  deriving DecidableEq, Repr

def RamCycle.reset : RamCycle := { cycle := 0, net := false, olds := [], nets := [] }

/-- A teller beside its SEC registers: program counter, x1 to x31, v0 to v15, the local page, PEND without the causes
latched in TLR cycle `freshAt`, those causes, the wake lines of the last slot, the TLR cycle from which CYCLE counts, the
first TLR cycle in which an instruction may issue, the instruction in progress, and the values of SEC_TLR_CFG,
SEC_TLR_START and SEC_TLR_OVDPC that a write in a TLR cycle leaves in force until the next one (R254). Of an own-bank access in progress, the
cycle it issued in and the open cycles it has had (R234); the cycle at whose end a TWAIT or TSETTLE completes, with the state in which the
teller waited; the RAM ports; the slot of the last response. -/
structure Teller where
  pc : Nat
  x : Tab Word32
  v : Tab Word128
  xbase : Nat
  nkey : Nat
  pend : Nat
  fresh : Nat
  freshAt : Nat
  uw : Nat
  cycle : Nat
  ready : Nat
  wait : TlrWait
  old : Option (Nat × Word32 × Word32 × Word32)
  since : Nat
  spent : Nat
  waking : Option (Nat × Nat)
  ram : RamCycle
  ansAt : Option Nat
  deriving DecidableEq, Repr

def Teller.reset : Teller :=
  { pc := 0, x := [], v := [], xbase := 0, nkey := 0, pend := 0, fresh := 0, freshAt := 0, uw := 0, cycle := 0, ready := 0,
    wait := .none, old := none, since := 0, spent := 0, waking := none, ram := RamCycle.reset,
    ansAt := none }

/-- The settings a trunk lane samples at entry to HANDSHAKE (fields marked "at HANDSHAKE"), with the key copies it takes. -/
structure TkCfg where
  txSched : Nat
  rxSched : Nat
  scfg : List Nat
  qcfg : List Nat
  rxBase : List Nat
  txBase : List Nat
  h : Nat
  pam4 : Bool
  fec : Bool
  keys : List (Nat × List Nat)
  deriving DecidableEq, Repr

/-- A word taken from the fabric: its stream position counted from entry to ACTIVE, its payload as sent, whether its
valid was 1, and the sector's TAINT (R212). -/
structure TkWord where
  pos : Nat
  payload : Nat
  valid : Bool
  taint : Bool
  deriving DecidableEq, Repr

/-- A queue packet: queue, sequence number, payload length in bytes, payload words (as on the line while encrypted), the
16 bits of QST, QEND's CRC, the TAG word, and whether a codeword of it was lost. -/
structure TkPkt where
  q : Nat
  seq : Nat
  len : Nat
  words : List Nat
  qst : Nat
  crc : Nat
  tag : Nat
  bad : Bool
  deriving DecidableEq, Repr

/-- A ring entry that is being read: the packet so far, the entry, whether the descriptor has come, lines got. -/
structure TkRead where
  q : Nat
  entry : Nat
  len : Option Nat
  lines : List (Nat × Nat)
  left : List Nat
  deriving DecidableEq, Repr

/-- A transmit queue: the next entry to send, the next SEQ, ACK + 1, the highest SEQ ever sent plus one, LIMIT, codewords
since ACK advanced, and whether TAIL has been written since the lane last returned to TRAIN (R215). -/
structure TkTxQ where
  send : Nat
  seq : Nat
  acked : Nat
  top : Nat
  limit : Option Nat
  wait : Nat
  live : Bool
  deriving DecidableEq, Repr

/-- A packet in the receive buffer whose ring writes go on: writes not yet issued (address, size code, data), tags
outstanding, whether an error came. -/
structure TkBuf where
  q : Nat
  seq : Nat
  todo : List (Nat × Nat × Nat)
  left : List Nat
  err : Bool
  deriving DecidableEq, Repr

/-- One stream at the receiver: payloads of the present and of the last superframe, whether each is spoiled, CHK and TAG of
the closing blocks, whether a verdict is due and the beat of its presentation, the last TAINT. -/
structure TkRxS where
  words : List Nat
  spoiled : Bool
  prev : List Nat
  prevSpoiled : Bool
  chk : Option Nat
  tag : Option Nat
  due : Bool
  beat : Nat
  taint : Bool
  deriving DecidableEq, Repr

def TkRxS.reset : TkRxS :=
  { words := [], spoiled := true, prev := [], prevSpoiled := true, chk := none, tag := none, due := false, beat := 0, taint := false }

/-- One stream at the transmitter: payloads of the present superframe, its TAINT, and CRC, tag and TAINT of the last. -/
structure TkTxS where
  words : List Nat
  taint : Bool
  crc : Nat
  tag : Nat
  closed : Bool
  deriving DecidableEq, Repr

def TkTxS.reset : TkTxS := { words := [], taint := false, crc := 0, tag := 0, closed := false }

/-- A trunk lane (10_trunk_links.md, 11_lane_bringup_test.md). -/
structure TkLane where
  cfg : TkCfg
  /-- The last 58 scrambled bits, newest in bit 0, of transmitter and receiver. -/
  txScr : Nat
  rxScr : Nat
  /-- FEC in use on the line. -/
  txFec : Bool
  rxFec : Bool
  /-- The IV seed drawn for the transmit direction, and the partner's. -/
  seed : Option Nat
  peerSeed : Nat
  /-- The next codeword to send, counted from entry to ACTIVE. -/
  txCw : Nat
  /-- The first slot of the tick of entry to ACTIVE. -/
  actSlot : Nat
  /-- Beats of line time that have passed in debug halts since then. -/
  lag : Nat
  taken : List TkWord
  txs : List TkTxS
  /-- Blocks of the packet being sent: (control form, payload). -/
  qOut : List (Bool × Nat)
  acks : List Nat
  reading : Option TkRead
  ready : Option TkPkt
  txq : List TkTxQ
  rr : Nat
  /-- The last codeword sent and its length, and its symbols on the pins, none in electrical idle. -/
  line : Nat
  lineLen : Nat
  pins : Option (List Int)
  /-- Consecutive good and consecutive uncorrectable codewords received, and codewords received in ACTIVE without
  superframe lock. -/
  good : Nat
  bad : Nat
  unlocked : Nat
  /-- The next codeword to receive, counted from LAST; none before it. -/
  rxCw : Option Nat
  sfSeen : Nat
  sfOk : Bool
  sfMiss : Nat
  rxs : List TkRxS
  /-- Blocks to present: 4·beat + position, data, sideband (Table 10.5). -/
  rxOut : List (Nat × Nat × Nat)
  rxLast : Nat
  vok : Nat
  vbad : Nat
  /-- Streams whose VBAD is presented in the next beat: superframes that a loss of lock has left incomplete (R208). -/
  vbadNext : Nat
  /-- Consecutive superframes with a keyed stream presented VBAD, and whether the superframe under verification is one (R209). -/
  bads : Nat
  badSf : Bool
  asm_ : Option TkPkt
  packets : List TkPkt
  buf : List TkBuf
  /-- For each receive queue the next SEQ to accept and the next SEQ to deliver. -/
  rxq : List (Nat × Nat)
  qacks : List Nat
  /-- HSK payloads of the last good codeword, whether the last two agreed (R223), the accepted message, whether it passed R224, codewords sent with ACK = 1,
  whether the partner's ACK or CHK was seen, whether LAST has been received. -/
  hsk : Option (List Nat)
  hskTwo : Bool
  peer : Option (List Nat)
  passed : Bool
  acksSent : Nat
  ackSeen : Bool
  lastSeen : Bool
  /-- The present superframe met a debug halt (R215). -/
  halted : Bool
  deriving DecidableEq, Repr

def TkCfg.reset : TkCfg :=
  { txSched := 0x8888888888888888, rxSched := 0x8888888888888888, scfg := [], qcfg := [], rxBase := [], txBase := [],
    h := 0, pam4 := false, fec := false, keys := [] }

def TkTxQ.reset : TkTxQ := { send := 0, seq := 0, acked := 0, top := 0, limit := none, wait := 0, live := true }

def TkLane.reset : TkLane :=
  { cfg := TkCfg.reset, txScr := 0, rxScr := 0, txFec := true, rxFec := true, seed := none, peerSeed := 0, txCw := 0,
    actSlot := 0, lag := 0, taken := [], txs := List.replicate 8 TkTxS.reset, qOut := [], acks := [], reading := none, ready := none,
    txq := List.replicate 8 TkTxQ.reset, rr := 0, line := 0, lineLen := 0, pins := none, good := 0, bad := 0, unlocked := 0, rxCw := none,
    sfSeen := 0, sfOk := false, sfMiss := 0, rxs := List.replicate 8 TkRxS.reset, rxOut := [], rxLast := 0, vok := 0, vbad := 0,
    vbadNext := 0, bads := 0, badSf := false, asm_ := none, packets := [], buf := [], rxq := List.replicate 8 (0, 0), qacks := [], hsk := none, hskTwo := false, halted := false, peer := none,
    passed := false, acksSent := 0, ackSeen := false, lastSeen := false }

/-- Test state of a lane (R229 to R231): bits of an injection still to invert, bits sent since the last rate-controlled
inversion; the pattern generator's and the checker's last bits, newest at bit 0; consecutive agreeing bits; whether the checker compares;
the errors of the last 1,024 compared bits and how many they are; whether synchronisation was lost; compared bits, and those of the slot
named; the last bits received, for the far-end loopback. -/
structure LaneTest where
  inj : Nat
  rate : Nat
  gen : Nat
  chk : Nat
  run : Nat
  cmp : Bool
  win : Nat
  errs : Nat
  lost : Bool
  bits : Nat
  bitsAt : Nat × Nat
  raw : Nat
  deriving DecidableEq, Repr

def LaneTest.reset : LaneTest := { inj := 0, rate := 0, gen := 0, chk := 0, run := 0, cmp := false, win := 0, errs := 0,
                                     lost := false, bits := 0, bitsAt := (0, 0), raw := 0 }

/-- The fuses of the owner key and the rollback floor (R297 to R299, R345). -/
structure Fuses where
  /-- Owner-key bits burned (masked key, 256 bits, then the 32 check bits above it). -/
  okey : Nat
  /-- An owner-key burn was cut off after it had burned a bit (R299). -/
  cut : Bool
  /-- Burn in progress: 0 none, 1 owner key, 2 rollback floor; and the value latched for it. -/
  burning : Nat
  latch : Nat
  /-- Rollback-floor fuses burned. -/
  floor : Nat
  deriving DecidableEq, Repr
/-- A FRAMES segment of flash that blocks can be fetched from again (R340): its flash address, its key, its blocks. -/
structure RfxEntry where
  addr : Nat
  key : List Nat
  index : Nat
  blocks : List Nat
  deriving DecidableEq, Repr

/-- The loader (16_configuration.md). -/
structure Loader where
  /-- Copies that have failed in this start: bit 0 A, bit 1 B. -/
  failed : Nat
  /-- The source of the stream in progress: 0 none, 1 copy A, 2 copy B, 3 the library, 4 the service port. -/
  src : Nat
  full : Bool
  /-- The header has been accepted. -/
  open_ : Bool
  /-- The flash address of the stream and the bytes of it taken. -/
  base : Nat
  pos : Nat
  hdr : List Nat
  len : Nat
  /-- Segments before the next one; the key of the next segment. -/
  index : Nat
  key : List Nat
  /-- The verified segment whose records go on: type and body left; its flash address and key. -/
  seg : Option (Nat × List Nat)
  segAt : Nat
  segKey : List Nat
  /-- What END digests. -/
  seen : List Nat
  secs : List Nat
  planes : List Nat
  declared : Bool
  /-- Blocks written by the stream. -/
  got : Tab Bool
  /-- Bytes of the service port taken from the FIFO, and the FIFO. -/
  buf : List Nat
  fifo : List Word32
  /-- The steward has been released; the device has released DONE; connect-under-reset keeps DONE low. -/
  released : Bool
  doneRel : Bool
  doneCur : Bool
  /-- The refetch table, and the blocks whose refetch is requested, oldest first. -/
  rfx : List RfxEntry
  rfxq : List Nat
  /-- Words of the record at hand that have been written, and whether the writes of the next one are under way. -/
  word : Nat
  busy : Bool
  /-- Writes of SEC_MAC_SEL and SEC_MT_SEL that the loader has issued. -/
  seq : Nat
  /-- The access that the loader has started through an indirect port: 0 accumulator, 1 matcher store; its sector; and once the access has
  ended whether it was served. -/
  port : Option (Nat × Nat × Option Bool)
  /-- The FLASH command taken: OP and PAGE, and whether it is in progress or waits until the loader does not read (R343). -/
  flCmd : Option (Nat × Nat)
  flOn : Bool
  deriving DecidableEq, Repr

def Loader.reset : Loader :=
  { failed := 0, src := 0, full := false, open_ := false, base := 0, pos := 0, hdr := [], len := 0, index := 0, key := [],
    seg := none, segAt := 0, segKey := [], seen := [], secs := [], planes := [], declared := false, got := [], buf := [],
    fifo := [], released := false, doneRel := false, doneCur := false, rfx := [], rfxq := [], word := 0, busy := false, seq := 0, port := none, flCmd := none,
    flOn := false }

/-- The scrub engine of a sector (17_scrubbing.md): the last CFG cycle it ran in, the slot in which its sweep began, rewrites to make (cycle of the
finding, key, word), correctable
words of the sweep and CORR_THR in force for it, planes skipped in it, blocks whose refetch is pending and blocks whose
refetch failed, the policy that governs the repair in progress, and effects due at the start of a slot: 0 taint, 1 taint and
hold, 2 end of the hold, 3 hold, 4 the sector leaves FAILED. -/
structure Scrub where
  cycle : Option Nat
  begun : Nat
  fixes : List (Nat × Nat × CodeWord)
  corr : Nat
  thr : Nat
  skip : List Nat
  pend : List Nat
  failed : List Nat
  policy : Nat
  due : List (Nat × Nat)
  deriving DecidableEq, Repr

def Scrub.reset : Scrub :=
  { cycle := none, begun := 0, fixes := [], corr := 0, thr := 0, skip := [], pend := [], failed := [], policy := 0, due := [] }

/-- What a steward core waits for: nothing; a line for its instruction cache; an uncached fetch; an uncached load or atomic;
the answer of one, which the instruction takes when it runs again; an access fault to take; a coherence request of a type
for a line, as sent (stage 1), granted and reading the line to install it in E (2), S (3) or M (4), or finished but for a
write-back (5); cache maintenance that is
done; an interrupt. -/
inductive CoreWait where
  | none
  | ifill (line : Nat)
  | ufetch (addr : Nat)
  | data
  | have (v : Nat)
  | fault (cause addr : Nat)
  | coh (kind line addr stage : Nat)
  | cboDone
  | wfi
  deriving DecidableEq, Repr

/-- A steward core (18_steward_events.md): whether it runs or is held, program counter, x1 to x31, CSRs that hold a value of
their own, retired instructions, the STW cycle at which mcycle stood at 0, the tag of its coherence request (R367), wait, halfwords fetched uncached, reservation, instruction-cache lines (line + 1) and words,
data-cache lines (line, state 1 S 2 E 3 M, key index) and words, write-backs outstanding (tag, line), and snoops taken whose
ACK waits for a write-back (line, SNP flit to send). A cache line of way w, set i stands at 4·i + w, its words at 8 times
that. -/
structure Core where
  on : Bool
  held : Bool
  pc : Nat
  x : Tab Word64
  csr : Tab Word64
  retired : Nat
  cycle0 : Nat
  snp : Option Nat
  wait : CoreWait
  ubuf : List (Nat × Nat)
  resv : Option Nat
  iline : Tab Nat
  iword : Tab CodeWord
  dline : Tab (Nat × Nat × Nat)
  dword : Tab CodeWord
  wb : List (Nat × Nat)
  acks : List (Nat × Nat)
  deriving DecidableEq, Repr

def Core.reset : Core :=
  { on := false, held := false, pc := 0x600000000, x := [], csr := [], retired := 0, cycle0 := 0, snp := none, wait := .none, ubuf := [],
    resv := none, iline := [], iword := [], dline := [], dword := [], wb := [], acks := [] }

/-- A request at the snoop hub: its SNP flit, whether it has been forwarded, how many ACKs are missing, SHARED so far, and
whether GRANT has been sent (R367). -/
structure HubReq where
  flit : Nat
  fwd : Bool
  left : Nat
  shared : Bool
  granted : Bool
  deriving DecidableEq, Repr

/-- The always-on domain beside its registers (chapters 19 to 23): AON ticks since the last reset; ticks in each power state;
RESET_N recognised low; the first cause, in the order of R399, of the reset that leads to the next start, with its subcode;
the cooling condition of R439 still to come; a start that a wake began (2 KEEP, 3 OFF); banks whose contents KEEP
holds; the connect-under-reset latch; the location of the first BIST failure; ALARM_N is held low until the next start (R409); VIN is
valid and the AON ticks for which it has been (R411); VB is in regulation, so that the service pins work (R441); the low-power state that
the entry in progress is for (R422); the codes that VF, VT and VS have reached on their way to their setpoints (R415); VIN and VAUX in mV as
last measured. -/
structure Aon where
  ticks : Nat
  res : List Nat
  resetLow : Bool
  cause : Option (Nat × Nat)
  hot : Bool
  wakeFrom : Nat
  retained : List Nat
  cur : Bool
  bistAt : Nat × Nat
  /-- Ticks since the start of step 2. -/
  startAt : Nat
  /-- An entry into a low-power state (R420): 0 none, 1 asked and waiting for the end of a tick, 2 stopped up to the network
  and waiting for its queues; and the tick in which entry completed. -/
  entry : Nat
  entryAt : Nat
  alarm : Bool
  vinOk : Bool
  vinFor : Nat
  vb : Bool
  mode : Nat
  rails : Nat × Nat × Nat
  vmon : Nat × Nat
  deriving DecidableEq, Repr

def Aon.reset : Aon :=
  { ticks := 0, res := [0, 0, 0, 0], resetLow := false, cause := some (1, 0), hot := false, wakeFrom := 0,
    retained := [], cur := false, bistAt := (0, 0), startAt := 0, entry := 0, entryAt := 0, alarm := false, vinOk := false, vinFor := 0,
    vb := false, mode := 0, rails := (40, 40, 40), vmon := (0, 0) }

/-- The thermal governor beside its registers (22_thermal.md): readings with their time in 1/16 ms, newest first, by sensor;
the present time; time since a sensor last read near a threshold; sensors at 110 °C or more, and sensors above RATE_TRIP, in
the last sample; whether RATE_MAX is exceeded in it; T_WARN has been reached; PL_MAX in force; P_FIX has not yet fallen
below PL since the last DEFICIT; DWELL in force, and the time of the last dwell boundary (R434, R437); time for which every sentinel has
stayed at or below 80 °C (R439). -/
structure Thermal where
  hist : Tab (List (Nat × Nat))
  now : Nat
  quiet : Nat
  hot : List Nat
  rated : List Nat
  rate : Bool
  warned : Bool
  plMax : Nat
  deficit : Bool
  /-- The mean of THS240 to THS255 that the RCO trim was last corrected for. -/
  comp : Nat
  dwell : Nat
  bound : Option Nat
  cool : Nat
  deriving DecidableEq, Repr

def Thermal.reset : Thermal :=
  { hist := [], now := 0, quiet := 0, hot := [], rated := [], rate := false, warned := false, plMax := 300, deficit := false, comp := 0,
    dwell := 10, bound := none, cool := 0 }

/-- A run-time link test (R460 to R463): the pair, REPAIR, and once it runs the slot its window opened in, with the wire
registers of the pair as they stood. -/
structure RtTest where
  pair : Nat
  repair : Bool
  start : Option Nat
  saved : Tab Bool
  deriving DecidableEq, Repr

/-- Service pins and the debug engine (23_debug_bist.md): the boundary register's update latches; the data register last
captured; the request outstanding belongs to the I2C target; the read value; a request that waits for the network to run
again; the I2C address in force; bits of a byte group of I2C_STREAM. -/
structure Dbg where
  bnd : BitVec 872
  dr : Nat
  i2c : Bool
  val : Word64
  wait : Option NocReq
  i2cAddr : Nat
  /-- A RESUME came while a halt was pending. -/
  resume : Bool
  deriving DecidableEq, Repr

def Dbg.reset : Dbg := { bnd := 0, dr := 0, i2c := false, val := 0, wait := none, i2cAddr := 0x5A, resume := false }

/-- GPIO pins (24_pins_package.md): I0 and I1 as sampled in the present beat and as presented to the fabric; the output
registers D0, D1 and OE; edges of the beat not yet recorded; GPIO_CFGi, GPIO_OUTb and GPIO_OEb in force since the last beat
boundary (bank settings SRC, OUT0, OUT1, OE as 96-bit maps); the corrected delay taps. -/
structure Gpio where
  s0 : BitVec 96
  s1 : BitVec 96
  i0 : BitVec 96
  i1 : BitVec 96
  d0 : BitVec 96
  d1 : BitVec 96
  oe : BitVec 96
  edge : BitVec 96
  tap : Tab Nat
  deriving DecidableEq, Repr

def Gpio.reset : Gpio := { s0 := 0, s1 := 0, i0 := 0, i1 := 0, d0 := 0, d1 := 0, oe := 0, edge := 0, tap := [] }

/-- Clocks beside their registers, which report them (R383 to R391): whether RCO has run for 50 µs, whether XO is ready, whether XO is
not started until the next reset (R384), whether XO drives AON; the frequency of MREF in kHz while it is present, and the 1 ms windows
for which it has been stable since the strap wait began; sources that tripped and have not recovered, by TRIP_SRC number; a root switch
in progress (R388): 0 until the beat boundary at which the tick ends, then the number of the ramp slot about to run, 1 to 1,536; its SRC
and M and the frequency of its reference in Hz at GO; the hang of the root's multiplexer (R390). -/
structure Clocks where
  rco : Bool
  xo : Bool
  xoStop : Bool
  aonXo : Bool
  mref : Option Nat
  stable : Nat
  tripped : List Nat
  ramp : Option Nat
  next : Nat × Nat
  nextHz : Nat
  hang : Bool
  deriving DecidableEq, Repr

def Clocks.reset : Clocks :=
  { rco := false, xo := false, xoStop := false, aonXo := false, mref := none, stable := 0, tripped := [], ramp := none, next := (0, 150),
    nextHz := 50000000, hang := false }


/-- What hardware has done to one register since the slot began: W1C bits it has set, the value that the register had before its
counts of this slot and those counts, field by field, and the fields that a finding of this slot would have captured, under the bit
that guards them; and those of its W1C bits that an access of this slot has tried to clear. -/
structure HwReg where
  bits : Word32
  acked : Word32
  old : Option Word32
  inc : Word32
  caps : List (Nat × List (Field × Nat))
  deriving DecidableEq, Repr

def HwReg.reset : HwReg := { bits := 0, acked := 0, old := none, inc := 0, caps := [] }

/-- What a timeout of a lane has changed, for the case that a cause that prevails falls in the same slot or tick (R219): STATE, TMO and
TMO_STATE before it, whether TMO_CNT stood at its limit, the lane's state in both modes, and whether the event was raised by it. -/
structure LaneUndo where
  state : Nat
  tmo : Bool
  tmoState : Nat
  full : Bool
  fe : FeLane
  tk : TkLane
  ev : Bool
  deriving DecidableEq, Repr

/-- What hardware has done since the present slot began, or the present cycle of the unit that a register or an event belongs to, for
accesses and causes that fall into the same slot or cycle (R50, R78, R114, R135, R150, R172, R190, R216, R233, R254, R279, R347, R396,
R427, R440): registers by offset, event sources raised, sources whose raising was counted as coalesced, and what the
end of the slot completes. -/
structure SlotLog where
  regs : Tab HwReg
  evs : List Nat
  lost : List Nat
  /-- Sectors whose accumulator access, and whose matcher store access, has been served, and those in which one has started, which no slot
  before the next serves; rewrites of matcher store words that stand from the next slot, by key: the word as read and as rewritten (R14,
  R134, R147, R148). -/
  acc : List Nat
  mt : List Nat
  accNew : List Nat
  mtNew : List Nat
  fixes : List (Nat × CodeWord × CodeWord)
  /-- The tally snapshot that a boundary in this slot has replaced: its registers by offset (R171). -/
  snap : Option (Tab Word32)
  /-- Lanes that have changed their state, and what the timeouts among those changes undid (R219); kept while slots are stopped too. -/
  moved : List Nat
  timed : Tab (Option LaneUndo)
  /-- Routers at which a request has reached a memory controller (R289); kept while slots are stopped too. -/
  arrived : List Nat
  /-- Registers that accesses have written since the slot began, as they stood before, and recovery policies so written, by sector: a
  boundary of slot 0 samples what stood when the slot began (R14). -/
  olds : Tab (Option Word32)
  pols : Tab (Option Nat)
  deriving DecidableEq, Repr

def SlotLog.reset : SlotLog := { regs := [], evs := [], lost := [], acc := [], mt := [], accNew := [], mtNew := [], fixes := [], snap := none, moved := [], timed := [], arrived := [],
                                 olds := [], pols := [] }

/-- A request that has reached a memory controller and waits there: the controller's router, its queue, its lines, the input
port it came in by and the MEM cycle it came in, counted among those of the requests that wait (R289). -/
structure MemArrival where
  router : Nat
  net : Nat
  vc : Nat
  line : Nat
  lines : Nat
  port : Nat
  cycle : Nat
  deriving DecidableEq, Repr

/-- The device. -/
structure State where
  /-- Commands that wait, first in, first out. -/
  pending : List Instr
  /-- The register space: every register that does not hold its reset value (R7). -/
  regs : Tab Word32
  /-- The answer of the last register access. -/
  resp : Response
  /-- The model's own counter: each free value that a step takes is the next one. -/
  fresh : Nat
  /-- Event sources raised and not yet made pending (R373). -/
  raised : List Nat
  /-- What hardware has done in the present slot. -/
  cyc : SlotLog
  /-- The slot clock runs (R95). -/
  clockOn : Bool
  time : TimeState
  /-- A FOLD and BASE write that waits for the next tick boundary, by sector: 1 + 8·FOLD + BASE, and 64 more until that
  boundary has come; 0 for none (R72). -/
  schedPend : Tab Nat
  /-- A swap armed since the last tick boundary, by sector (R14). -/
  armFresh : Tab Bool
  /-- Configuration code words, by `cfgKey` (die C). -/
  cfgw : Tab CodeWord
  /-- Slot registers, by `sregKey`. -/
  sreg : Tab Bool
  /-- Wire registers, by `wregKey`. -/
  wreg : Tab Bool
  /-- Held vertical links, by `vlinkKey`. -/
  vheld : Tab (Option HeldLink)
  /-- Full configuration sweeps completed by the scrub engine of a sector (R107, R351). -/
  sweepDone : Tab Nat
  /-- ACC[p] of MAC m of sector s at (24·s + m)·8 + p. -/
  macAcc : Tab Word64
  /-- PRE[p], numbered the same way. -/
  macPre : Tab Word64
  macs : Tab MacBlock
  /-- Slots that the pending accumulator access of a sector has waited (R134). -/
  macWait : Tab Nat
  /-- Ranker r of sector s at 2·s + r. -/
  rankers : Tab Ranker
  /-- Matcher store words, address a of sector s at 16384·s + a. -/
  mstore : Tab CodeWord
  matchers : Tab Matcher
  /-- Bank words, physical word w of bank b at 4096·b + w. -/
  bmem : Tab CodeWord
  banks : Tab Bank
  /-- Select bits of persistent banks, address a of bank b at 2048·b + a (R165). -/
  bsel : Tab Bool
  /-- Dirty bits, numbered the same way. -/
  bdirty : Tab Bool
  /-- Tally counter n of sector s at 64·s + n. -/
  tally : Tab Nat
  /-- The recovery policy in force of a sector: 0 HOLD, 1 CONTINUE, 2 G7 (R356). -/
  policy : Tab Nat
  /-- The sector under a block reset and the slots it has left (R406). -/
  blk : Option (Nat × Nat)
  /-- Sectors whose present frame is tainted (R39). -/
  taint : Tab Bool
  /-- Responses on their way to initiators. -/
  rsps : List Rsp
  /-- Lanes in front-end mode, by lane number. -/
  fe : Tab FeLane
  /-- The frequency of the root PLL's reference in Hz, and the multiplier M in force (R175, R386). -/
  refHz : Nat
  rootM : Nat
  /-- Where the device stands in start-up and power. -/
  phase : Phase
  /-- A debug halt is in force. -/
  dbgHalt : Bool
  /-- Flits in the input queue of a router's port (0 to 6) or in its ejection queue (7), oldest first, by `queueKey`. -/
  netq : Tab (List Flit)
  /-- The pointer of the arbiter of a router's output on a network, by `arbKey` (R262). -/
  netPtr : Tab Nat
  /-- Requests that wait at memory controllers, in the order in which each controller is to perform those to one line; the input
  port a controller's scheduler chose last, by router (R289). -/
  memq : List MemArrival
  memPtr : Tab Nat
  /-- Flits of the endpoints of a router that wait to enter its injection queues: network, virtual channel, flit. -/
  inject : Tab (List (Nat × Nat × Flit))
  /-- Requests outstanding at their initiators. -/
  outst : List Outst
  /-- Tags in quarantine: tag space 2·ID + LN, tag (R267). -/
  quar : List (Nat × Nat)
  /-- NAP of each sector. -/
  naps : Tab Nap
  /-- Memory-die words, by address / 8. -/
  mem : Tab (BitVec 88)
  /-- Instruction RAM word w of teller s at 8192·s + w, data RAM word w at 8192·s + 4096 + w. -/
  tram : Tab CodeWord
  /-- Steward RAM words. -/
  sram : Tab CodeWord
  tellers : Tab Teller
  /-- Working key table word i of entry e at 4·e + i (R300). -/
  keyw : Tab CodeWord
  /-- Key copies bound to enabled windows. -/
  winKey : Tab (List Nat)
  /-- Root SRAM word i of window w at 7·w + i (R309). -/
  rootw : Tab CodeWord
  /-- Trusted nodes by line address (R310): their 512 bits plus 2^512. -/
  nodes : Tab Nat
  /-- Zeroisation in progress: the windows it cut off (R316). -/
  zeroing : List Nat
  /-- VLT_OKEYn as written; none for one not written since reset or the last command (R298). -/
  okeys : Tab (Option Word32)
  fuses : Fuses
  /-- Trunk lanes. -/
  tk : Tab TkLane
  laneTest : Tab LaneTest
  /-- The band calibration of a quad's PLL is due (R221). -/
  pllDue : Tab Bool
  /-- Wake causes latched in the present low-power state: bit 0 lane, 1 GPIO, 2 timer (R423). -/
  wakes : Nat
  /-- The code of the instruction that the TAP holds (Table 23.1). -/
  tapIr : Nat
  /-- Flash words, by address / 8; an unlisted word is erased. -/
  flash : Tab CodeWord
  ld : Loader
  /-- The loaded bit of plane block b in its three copies, as bits 0 to 2 (R353). -/
  loaded : Tab Nat
  scrub : Tab Scrub
  /-- Copy c of word w of the parameter store of sector s at 64·(3·s + c) + w (R350). -/
  pstore : Tab Word32
  /-- Copy c of the sweep index of sector s at 3·s + c (R351). -/
  sweepIdx : Tab Nat
  cores : Tab Core
  /-- Requests at the snoop hub, oldest first. -/
  hub : List HubReq
  /-- The claim pointer of core i (R374). -/
  evtPtr : Tab Nat
  aon : Aon
  th : Thermal
  rt : Option RtTest
  /-- Vertical links that read 0 at both ends until the next start (R462). -/
  vdead : Tab Bool
  /-- Spare links of a tile's group in use (R8, R462), by place 144·s + 12·v + u. -/
  spares : Tab Nat
  dbg : Dbg
  gpio : Gpio
  clk : Clocks
  deriving DecidableEq, Repr

/-- The device right after a power-on reset: every register at its reset value, nothing configured, no command waiting. -/
def State.reset : State :=
  { pending := [], regs := [], resp := ⟨0, 0⟩, fresh := 0, raised := [], cyc := SlotLog.reset, clockOn := false, time := TimeState.reset,
    schedPend := [], armFresh := [], cfgw := [], sreg := [], wreg := [], vheld := [], sweepDone := [], macAcc := [], macPre := [],
    macs := [], macWait := [], rankers := [], mstore := [], matchers := [], bmem := [], banks := [], bsel := [],
    bdirty := [], tally := [], policy := [], blk := none, taint := [], rsps := [], fe := [],
    refHz := 50000000, rootM := 150
    , phase := .waiting, dbgHalt := false, netq := [], netPtr := [], memq := [], memPtr := [], inject := [], outst := [], quar := [], naps := [],
    mem := [], tram := [], sram := [], tellers := [], keyw := [], winKey := [], rootw := [], nodes := [], zeroing := [],
    okeys := [], fuses := ⟨0, false, 0, 0, 0⟩, tk := [], laneTest := []
    , pllDue := [], wakes := 0, tapIr := 2
    , flash := [], ld := Loader.reset, loaded := [], scrub := [], pstore := [], sweepIdx := [], cores := [], hub := [],
    evtPtr := [], aon := Aon.reset, th := Thermal.reset, rt := none, vdead := [], spares := [], dbg := Dbg.reset,
    gpio := Gpio.reset, clk := Clocks.reset
  }

end Sys2Proof.Machine
end

