-- ==== Sys2Proof/Machine/Ops.lean ====
section
/-!
DEFINITION. The named operations over the state: sparse tables, registers and their fields, counters and flags, events,
and the plain facts about sectors, planes and schedules that every unit reads.
-/

namespace Sys2Proof.Machine

/-- The outcome of a command. -/
abbrev Res := Host.Outcome State Fault Refusal

/-! ### Sparse tables -/

/-- What a table holds at a key; `d` is what an unlisted key reads as. -/
def tget {α : Type} (d : Nat → α) : Tab α → Nat → α
  | [], k => d k
  | (k', v) :: r, k => if k' = k then v else tget d r k

/-- A pair put in its place in rising key order. -/
def tinsert {α : Type} (k : Nat) (v : α) : Tab α → Tab α
  | [] => [(k, v)]
  | (k', v') :: r => if k < k' then (k, v) :: (k', v') :: r else (k', v') :: tinsert k v r

/-- A table with one key set; a value equal to what the unlisted key reads as is not listed. -/
def tset {α : Type} [DecidableEq α] (d : Nat → α) (t : Tab α) (k : Nat) (v : α) : Tab α :=
  match t.filter (fun kv => kv.1 != k) with
  | [] => if v = d k then [] else [(k, v)]
  | kv :: r => if v = d k then kv :: r else tinsert k v (kv :: r)

/-- Several keys set, one after another. -/
def tsets {α : Type} [DecidableEq α] (d : Nat → α) (t : Tab α) (kvs : List (Nat × α)) : Tab α :=
  kvs.foldl (fun acc kv => tset d acc kv.1 kv.2) t

/-- Every listed value changed by a function of its key; values that become the unlisted value are dropped. -/
def tmap {α : Type} [DecidableEq α] (d : Nat → α) (f : Nat → α → α) (t : Tab α) : Tab α :=
  (t.map (fun kv => (kv.1, f kv.1 kv.2))).filter (fun kv => kv.2 ≠ d kv.1)

/-- The canonical form: keys strictly rising, no value equal to what the unlisted key reads as. -/
def twf {α : Type} [DecidableEq α] (d : Nat → α) : Tab α → Bool
  | [] => true
  | [(k, v)] => v ≠ d k
  | (k, v) :: (k', v') :: r => v ≠ d k && (k < k' && twf d ((k', v') :: r))

/-- The keys of a table among a range, mapped and made distinct. -/
def tkeys {α : Type} (f : Nat → Nat) (t : Tab α) : List Nat :=
  (t.map (fun kv => f kv.1)).eraseDups

/-! ### Registers and fields -/

/-- The register at an offset. -/
def State.reg (s : State) (o : Nat) : Word32 := tget regReset s.regs o

/-- A register set. -/
def State.setReg (s : State) (o : Nat) (v : Word32) : State := { s with regs := tset regReset s.regs o v }

/-- The value of a field. -/
def State.getF (s : State) (f : Field) : Nat := (s.reg f.reg).toNat / 2 ^ f.lo % 2 ^ (f.hi + 1 - f.lo)

/-- A word with a field replaced. -/
def putBits (w : Word32) (hi lo v : Nat) : Word32 :=
  let n := 2 ^ (hi + 1 - lo)
  let x := w.toNat
  BitVec.ofNat 32 (x % 2 ^ lo + 2 ^ lo * (v % n) + 2 ^ (hi + 1) * (x / 2 ^ (hi + 1)))

/-- A field set. -/
def State.setF (s : State) (f : Field) (v : Nat) : State := s.setReg f.reg (putBits (s.reg f.reg) f.hi f.lo v)

/-- Whether a one-bit field is 1. -/
def State.flag (s : State) (f : Field) : Bool := s.getF f != 0

/-- Slots run: what hardware does is recorded for the accesses of the same slot. -/
def State.logs (s : State) : Bool := s.clockOn && !s.dbgHalt

/-- A register of the CLK, PWR or THM block, whose coincidences are those of an AON tick (R396, R427, R440). -/
def ofAon (o : Nat) : Bool := (decide (0x10000 ≤ o) && decide (o < 0x20000)) || (decide (0x30000 ≤ o) && decide (o < 0x50000))

/-- VCO cycles in an AON tick of 1 µs (DESIGN CHOICE, log 154: AON ticks are taken to begin at multiples of it). -/
def State.aonLen (s : State) : Nat := max 4 (s.refHz * s.rootM / 1000000)

/-- VCO cycles in the cycle whose coincidences a register is held to: AON tick, CFG cycle, CRY or STW cycle, NOC cycle, beat, else the
slot (R50, R279, R318, R347, R361, R381, R396, R427, R440, R483; Table 19.1). -/
def State.regCycle (s : State) (o : Nat) : Nat :=
  if ofAon o then s.aonLen
  else if (0x50000 ≤ o ∧ o < 0x70000) ∨ (0xE0000 ≤ o ∧ o < 0xF0000) then 8
  else if 0x70000 ≤ o ∧ o < 0xA0000 then 5
  else if 0xC0000 ≤ o ∧ o < 0xD0000 then 6
  else if 0xD0000 ≤ o ∧ o < 0xE0000 then 32
  else 4

/-- VCO cycles in the cycle in which the causes of an event source are one raising of it. -/
def State.evCycle (e : Nat) : Nat :=
  if 228 ≤ e ∧ e ≤ 231 then 6 else if 196 ≤ e ∧ e ≤ 203 then 5 else if e = 224 ∨ e = 225 then 8 else 4

/-- The slot that begins lies in the same cycle of a length as the slot just over; a slot lies in the cycle that its first VCO cycle
lies in. -/
def State.sameCycle (s : State) (len : Nat) : Bool := s.time.vco / len == (s.time.vco - 4) / len

/-- Records are made for a register: slots run, or it is one of the always-on domain. -/
def State.logsAt (s : State) (o : Nat) : Bool := s.logs || ofAon o

/-- What hardware has done to a register in the present slot. -/
def State.hwReg (s : State) (o : Nat) : HwReg := tget (fun _ => HwReg.reset) s.cyc.regs o

/-- That record changed. -/
def State.note (s : State) (o : Nat) (h : HwReg) : State :=
  { s with cyc := if s.logsAt o then { s.cyc with regs := tset (fun _ => HwReg.reset) s.cyc.regs o h } else s.cyc }

/-- A one-bit field set to 1 by hardware; a W1C write of the same slot leaves it set. -/
def State.raiseF (s : State) (f : Field) : State :=
  (s.setF f 1).note f.reg { s.hwReg f.reg with bits := (s.hwReg f.reg).bits ||| BitVec.ofNat 32 (2 ^ f.lo) }

/-- A one-bit field cleared. -/
def State.clearF (s : State) (f : Field) : State := s.setF f 0

/-- A one-bit field set to a Boolean. -/
def State.putF (s : State) (f : Field) (b : Bool) : State := s.setF f b.toNat

/-- A field of a word. -/
def Field.of (f : Field) (w : Word32) : Nat := w.toNat / 2 ^ f.lo % 2 ^ (f.hi + 1 - f.lo)

/-- A field of a word raised by n; it saturates at all ones. -/
def Field.add (f : Field) (w : Word32) (n : Nat) : Word32 := putBits w f.hi f.lo (min (f.of w + n) (2 ^ (f.hi + 1 - f.lo) - 1))

/-- A counter field raised by n; it saturates at all ones. A read of the same slot returns the count without it (`genericRead`). -/
def State.addF (s : State) (f : Field) (n : Nat) : State :=
  let h := s.hwReg f.reg
  (s.setReg f.reg (f.add (s.reg f.reg) n)).note f.reg
    { h with old := some (h.old.getD (s.reg f.reg)), inc := f.add h.inc n }

/-- A counter field raised by one; it saturates. -/
def State.incF (s : State) (f : Field) : State := s.addF f 1

/-- The fields that a finding captures while the bit that guards them is 0; the first finding of a slot is kept for a W1C write of
the bit in that slot. -/
def State.capture (s : State) (f : Field) (vals : List (Field × Nat)) : State :=
  if s.logsAt f.reg && (s.hwReg f.reg).bits.getLsbD f.lo then s
  else if s.flag f then s.note f.reg { s.hwReg f.reg with caps := (f.lo, vals) :: (s.hwReg f.reg).caps }
  else vals.foldl (fun t x => t.setF x.1 x.2) s

/-- W1C bits of a register written 1: they clear, but those that hardware has set in the same slot, which stay and whose captured
fields then describe what set them. -/
def State.w1c (s : State) (o : Nat) (m : Word32) : State :=
  let h := if s.logsAt o then s.hwReg o else HwReg.reset
  let again := h.caps.filter (fun c => m.getLsbD c.1)
  let s1 := if h.bits &&& m = 0 then s else s.note o { h with acked := h.acked ||| m }
  again.foldl (fun t c => c.2.foldl (fun u x => u.setF x.1 x.2) t) (s1.setReg o (s.reg o &&& ~~~(m &&& ~~~h.bits)))

/-- RC fields of a register read: the value before the counts of the same slot, which the counter carries on. -/
def State.rc (s : State) (o : Nat) (m : Word32) : State :=
  let h := s.hwReg o
  if s.logsAt o && h.old.isSome then
    (s.setReg o ((s.reg o &&& ~~~m) ||| (h.inc &&& m))).note o { h with old := h.old.map (· &&& ~~~m) }
  else s.setReg o (s.reg o &&& ~~~m)

/-- What a read of a register with the RC fields `m` finds. -/
def State.rcValue (s : State) (o : Nat) (m : Word32) : Word32 :=
  let h := s.hwReg o
  if s.logsAt o then (s.reg o &&& ~~~m) ||| (h.old.getD (s.reg o) &&& m) else s.reg o

/-- Event source e is raised (R373), once in a slot however many of its causes the slot brings. -/
def State.raiseEv (s : State) (e : Nat) : State :=
  { s with
    raised := if s.logs && s.cyc.evs.contains e then s.raised else s.raised ++ [e]
    cyc := if s.logs && !s.cyc.evs.contains e then { s.cyc with evs := s.cyc.evs ++ [e] } else s.cyc }

/-- Event source e is raised for each of its causes. -/
def State.raiseEach (s : State) (e : Nat) : State := { s with raised := s.raised ++ [e] }

/-- An access through an indirect port (0 accumulator, 1 matcher store) of a sector ends, served or not: the loader learns it of its
own. -/
def State.portEnds (s : State) (kind sec : Nat) (served : Bool) : State :=
  match s.ld.port with
  | some (k, q, none) => if k = kind ∧ q = sec then { s with ld := { s.ld with port := some (k, q, some served) } } else s
  | _ => s

/-- A slot is over: accesses and causes from here on fall into another one, and for a unit of longer cycles into another cycle where one
of its cycles has ended with the slot. -/
def State.newSlot (s : State) : State :=
  { s with cyc := { SlotLog.reset with regs := s.cyc.regs.filter (fun x => s.sameCycle (s.regCycle x.1))
                                       evs := s.cyc.evs.filter (fun e => s.sameCycle (State.evCycle e)) } }

/-- AON ticks have passed: accesses and causes of the always-on domain fall into another tick. While slots are stopped, lanes and memory
controllers stand in another tick or cycle too (R219, R289). -/
def State.newAonTick (s : State) : State :=
  let c := { s.cyc with regs := s.cyc.regs.filter (fun x => !ofAon x.1) }
  { s with cyc := if s.logs then c else { c with moved := [], timed := [], arrived := [] } }

/-- What the last slot of a frame does at its end falls into that slot, not into the one that begins. -/
def State.inLastSlot (s : State) (f : State → State) : State := { f { s with cyc := SlotLog.reset } with cyc := s.cyc }

/-- The registers as they stood when the present slot began (R14). -/
def State.began (s : State) : State :=
  { s with regs := s.cyc.olds.foldl (fun t kv => match kv.2 with | some v => tset regReset t kv.1 v | none => t) s.regs }

/-- A boundary begins slot 0: what was written before it stands when that slot begins. -/
def State.begin (s : State) : State := { s with cyc := { s.cyc with olds := [], pols := [] } }

/-- An access is about to write a register: what it holds is kept for the rest of the slot. -/
def State.keepOld (s : State) (o : Nat) : State :=
  if s.logs && !(s.cyc.olds.any (fun x => x.1 == o)) then
    { s with cyc := { s.cyc with olds := tset (fun _ => none) s.cyc.olds o (some (s.reg o)) } }
  else s

/-- A lane moves to a state; the slot or tick keeps that it has moved (R219). -/
def State.laneTo (s : State) (n st : Nat) : State :=
  { s.setF (Reg.LN_BU_STAT_STATE n) st with
    cyc := { s.cyc with moved := if s.cyc.moved.contains n then s.cyc.moved else s.cyc.moved ++ [n] } }

/-- TMO, TMO_STATE and TMO_CNT without a timeout of the same slot or tick: an access made since acts on what it left, TMO as it was
before and a count without it (R219, R233). -/
def State.untimedRegs (s : State) (n : Nat) (u : LaneUndo) : State :=
  let h := s.hwReg (Reg.LN_BU_STAT n)
  let c := s.getF (Reg.LN_BU_CNT_TMO_CNT n)
  let s1 := ((s.setF (Reg.LN_BU_STAT_STATE n) u.state).setF (Reg.LN_BU_STAT_TMO_STATE n) u.tmoState).putF (Reg.LN_BU_STAT_TMO n)
    (u.tmo && !h.acked.getLsbD (Reg.LN_BU_STAT_TMO n).lo)
  let s2 := if u.full && c == 0xFFFF then s1 else s1.setF (Reg.LN_BU_CNT_TMO_CNT n) (c - 1)
  let k := s2.hwReg (Reg.LN_BU_CNT n)
  (s2.note (Reg.LN_BU_STAT n) { h with bits := h.bits &&& ~~~(BitVec.ofNat 32 (2 ^ (Reg.LN_BU_STAT_TMO n).lo)) }).note (Reg.LN_BU_CNT n)
    { k with inc := k.inc &&& 0x0000FFFF#32 }

/-- The state of a lane without a timeout of the same slot or tick, over which a loss of signal, a loss of lock and a normal exit
prevail (R219). -/
def State.untimed (s : State) (n : Nat) : State :=
  match tget (fun _ => none) s.cyc.timed n with
  | none => s
  | some u =>
    let drop := fun (l : List Nat) => if u.ev then (l.reverse.erase n).reverse else l
    let s1 := s.untimedRegs n u
    { s1 with
      fe := tset (fun _ => FeLane.reset) s.fe n u.fe
      tk := tset (fun _ => TkLane.reset) s.tk n u.tk
      raised := drop s.raised
      cyc := { s1.cyc with moved := s.cyc.moved.erase n, timed := tset (fun _ => none) s.cyc.timed n none, evs := drop s.cyc.evs } }

/-- Bit i of a bitmap of eight 32-bit registers, one bit for each sector. -/
def mapBit (reg : Nat → Nat) (i : Nat) : Field := ⟨reg (i / 32), i % 32, i % 32⟩

/-- A next state. -/
abbrev ok (s : State) : Res := .next s

/-- The state changed if a condition holds, and left as it is where the event that the command names has no cause. -/
def okIf (c : Bool) (s t : State) : Res := if c then .next t else .next s

/-! ### Machine time and schedules -/

/-- The device answers register accesses and runs its base-die logic. -/
def State.alive (s : State) : Bool := (s.phase == .run || s.phase == .start) && !s.dbgHalt && !s.clk.hang

/-- Entry into a low-power state has reached the network: every NAP and every initiator interface is fenced until the state begins or
entry is abandoned, and no request enters the network (R274, R420). -/
def State.fencing (s : State) : Bool := s.aon.entry == 2

/-- A sector's NAP is fenced, by its register or by the entry into a low-power state (R273, R274). -/
def State.napFenced (s : State) (sec : Nat) : Bool := (tget (fun _ => Nap.reset) s.naps sec).fenced || s.fencing

/-- The service pins work whenever VB is in regulation: once it is up, and in a RESET_N hold once VIN is valid (R441). -/
def servicePins (s : State) : Bool :=
  s.phase != .unpowered && s.phase != .keep && s.phase != .off &&
    (s.aon.vb || (s.phase == .waiting && s.aon.resetLow && s.aon.vinOk && !s.aon.hot))

/-- VB is lost: the TAP and the I2C target lose what they hold, and start from Test-Logic-Reset when VB comes up again (R441). -/
def vbDown (s : State) : State := { s with tapIr := 2, dbg := Dbg.reset, aon := { s.aon with vb := false } }

/-- The slots of the two ramps of a root switch run, which belong to no tick (R388). -/
def State.ramping (s : State) : Bool := match s.clk.ramp with
  | some (_ + 1) => true
  | _ => false

/-- The slot number k (R51). -/
def State.k (s : State) : Nat := s.time.slots % 8

/-- The slots in which CFG and TLR run: two of them are a cycle of each (R234, R348). -/
def State.cfgSlots (s : State) : Nat := s.time.slots - s.time.off

/-- A cycle of a gated domain is open under the duty of R435: D·16 cycles in each run of 16, spread evenly. -/
def dutyOpen (s : State) (cycle : Nat) : Bool :=
  let d := s.getF Reg.THM_STAT_DUTY
  let c := (cycle + Config.gatePhase) % 16
  16 ≤ d || decide (c * d / 16 < (c + 1) * d / 16)

/-- The present cycle of a domain of VCO/len is open; it is the one that the slot's first VCO cycle lies in. -/
def State.gateOpen (s : State) (len : Nat) : Bool := dutyOpen s (s.time.vco / len)

/-- HOT of channel c follows the readings of the four sensors of its die (R293). -/
def hotFollows (s : State) (c : Nat) : State :=
  s.putF (Reg.MEMC_STAT_HOT c)
    ((List.range 4).any (fun i => decide (4 * (85 + 64) < s.getF (Reg.THM_TEMP_TEMP (256 + 4 * (c / 4) + i)))))

/-- A steward core. -/
def State.core (s : State) (i : Nat) : Core := tget (fun _ => Core.reset) s.cores i

def State.setCore (s : State) (i : Nat) (c : Core) : State := { s with cores := tset (fun _ => Core.reset) s.cores i c }

/-- User mode (R46). -/
def State.user (s : State) : Bool := s.flag Reg.TIME_STATUS_USER

/-- The clearing window is open (R34). -/
def State.clrOpen (s : State) : Bool := s.flag Reg.TIME_STATUS_CLR

/-- The sector whose SEC_SCHED a sector follows (R66). -/
def State.leader (s : State) (sec : Nat) : Nat :=
  if 120 ≤ sec ∧ s.flag (Reg.SEC_SCHED_PAIR sec) then sec - 120 else sec

/-- The fold factor in force (R52). -/
def State.fold (s : State) (sec : Nat) : Nat := 2 ^ s.getF (Reg.SEC_SCHED_FOLD (s.leader sec))

/-- The personality base in force. -/
def State.base (s : State) (sec : Nat) : Nat := s.getF (Reg.SEC_SCHED_BASE (s.leader sec))

/-- The active plane: B + (k mod F) (R52). -/
def State.plane (s : State) (sec : Nat) : Nat := s.base sec + s.k % s.fold sec

/-- The planes of the schedule in force. -/
def State.personality (s : State) (sec : Nat) : List Nat := (List.range (s.fold sec)).map (s.base sec + ·)

/-- The state of plane p: 0 EMPTY, 1 READY, 2 ESCROW. -/
def State.planeState (s : State) (sec p : Nat) : Nat := s.getF ⟨Reg.SEC_PLANE sec, 2 * p + 1, 2 * p⟩

/-- A plane's state set. -/
def State.setPlaneState (s : State) (sec p v : Nat) : State := s.setF ⟨Reg.SEC_PLANE sec, 2 * p + 1, 2 * p⟩ v

/-- The sector of the other tier at the same (x, y). -/
def partner (sec : Nat) : Nat := if sec < 120 then sec + 120 else sec - 120

/-- The sector's recovery policy in force is G7: while blocks of it wait for their repair the policy of the repair, else the one sampled
(R356). -/
def State.isG7 (s : State) (sec : Nat) : Bool :=
  let x := tget (fun _ => Scrub.reset) s.scrub sec
  (if x.pend.isEmpty && x.failed.isEmpty then tget (fun _ => 0) s.policy sec else x.policy) == 2

/-- The sector's present frame is tainted. -/
def State.tainted (s : State) (sec : Nat) : Bool := tget (fun _ => false) s.taint sec

/-- The global set-reset holds the sector: before user mode, under HOLD repair or FAILED, or under a block reset (R58). -/
def State.held (s : State) (sec : Nat) : Bool :=
  !s.user || s.flag (mapBit (Reg.SCRB_HELD ·) sec) || (match s.blk with | some (b, n) => b == sec && decide (n ≤ 64) && n != 0 | none => false)

/-- The configuration words a cell uses are the information bits as stored (R92). -/
def State.cfgInfo (s : State) (key : Nat) : Word64 := cwInfo (tget (fun _ => 0) s.cfgw key)

/-- FRAME_TAINT (R39): the marker, the sector's bit in TIME_TAINTn, and one count for each tainted sector-frame. -/
def State.taintSector (s : State) (sec : Nat) : State :=
  if s.tainted sec then s
  else
    let s1 := { s with taint := tset (fun _ => false) s.taint sec true }
    (s1.raiseF (mapBit (Reg.TIME_TAINT ·) sec)).incF Reg.TIME_TAINT_CNT_TAINT_CNT

/-- The next free value's index, and the state that has used it. -/
def State.draw (s : State) : Nat × State := (s.fresh, { s with fresh := s.fresh + 1 })

/-- Bits [hi:lo] of a number. -/
def nbits (x hi lo : Nat) : Nat := x / 2 ^ lo % 2 ^ (hi + 1 - lo)

/-- The two's-complement integer of the low n bits of a number. -/
def sext (n x : Nat) : Int := let y := x % 2 ^ n; if y < 2 ^ (n - 1) then (y : Int) else (y : Int) - (2 ^ n : Nat)

/-- An integer modulo 2^n as a number. -/
def wrapN (n : Nat) (x : Int) : Nat := (x % ((2 ^ n : Nat) : Int)).toNat

end Sys2Proof.Machine
end

