-- ==== Sys2Proof/Machine/Attach.lean ====
section
/-!
DEFINITION. What the attachment points of a sector present to the fabric (Table 5.2), the timing bus (Table 5.4), and
the view of the fabric in the present slot.
-/

namespace Sys2Proof.Machine

/-- Bit a of a number as a source. -/
def srcBit (x a : Nat) : Bool := x.testBit a

/-- The MAC block m of sector s. -/
def State.mac (s : State) (sec m : Nat) : MacBlock := tget (fun _ => MacBlock.reset) s.macs (24 * sec + m)

/-- MAC m attaches at (2, m) or (9, m − 12) (Table 5.2). -/
def macTile (sec m : Nat) : Tile := if m < 12 then tileOf sec 2 m else tileOf sec 9 (m - 12)

/-- Sources of a MAC block (Table 6.4); 0 while the set-reset holds the sector (R122). -/
def macSource (s : State) (sec m a : Nat) : Bool :=
  let b := s.mac sec m
  !s.held sec && (if a < 64 then b.p.getLsbD a else if a = 64 then b.ovf else a == 65 && b.new)

/-- The ranker r of sector s. -/
def State.ranker (s : State) (sec r : Nat) : Ranker := tget (fun _ => Ranker.reset) s.rankers (2 * sec + r)

/-- Ranker 0 attaches at (5, 2) and ranker 1 at (6, 2). -/
def rankerTile (sec r : Nat) : Tile := tileOf sec (5 + r) 2

/-- A group as its 256 bits, entry e at bits [32·e + 31:32·e]. -/
def groupBits (g : List Nat) : Nat :=
  (g.take 8).zipIdx.foldl (fun acc ei => acc + (ei.1 % 2 ^ 32) * 2 ^ (32 * ei.2)) 0

/-- The group on a ranker's output port in the present slot (R127). -/
def Ranker.port (r : Ranker) (slot : Nat) : List Nat :=
  match r.outs.find? (fun o => o.1 == slot) with
  | some o => o.2
  | none => []

/-- The matcher of a sector. -/
def State.matcher (s : State) (sec : Nat) : Matcher := tget (fun _ => Matcher.reset) s.matchers sec

/-- The matcher attaches at (5, 9). -/
def matcherTile (sec : Nat) : Tile := tileOf sec 5 9

/-- A road word as source bits AS0 to AS52 (Table 7.2). -/
def roadBits (w : RoadWord) : Nat :=
  let r := match w.road with
    | some r => r.pattern + 2 ^ 12 * r.lmap + 2 ^ 20 * r.count + 2 ^ 24 * r.payload + 2 ^ 40
    | none => 0
  r + 2 ^ 41 * w.done.toNat + 2 ^ 42 * w.ovf.toNat + 2 ^ 43 * w.cut.toNat + 2 ^ 44 * w.ctx + 2 ^ 45 * (w.evnum % 256)

/-- Sources of the matcher in the present slot: the word shown in it, and DRAINING, from the slot after the event end (R143); 0 while the
set-reset holds the sector (R146). -/
def matcherSource (s : State) (sec a : Nat) : Bool :=
  let m := s.matcher sec
  if s.held sec then false
  else if a = 53 then m.drain.any (fun d => decide (d.at_ < s.time.slots)) || m.drained == some s.time.slots
  else
    match m.shown with
    | some (j, w) => j == s.time.slots && a < 53 && srcBit (roadBits w) a
    | none => false

/-- The bank b = 8·s + i. -/
def State.bank (s : State) (b : Nat) : Bank := tget (fun _ => Bank.reset) s.banks b

/-- The attachment tile of bank i of a sector. -/
def bankTile (sec i : Nat) : Tile := if i < 4 then tileOf sec 4 (1 + 3 * i) else tileOf sec 7 (1 + 3 * (i - 4))

/-- Sources of a bank (Table 8.3). -/
def bankSource (s : State) (b a : Nat) : Bool :=
  let k := s.bank b
  let now := some s.time.slots
  if a < 64 then srcBit k.rdata a
  else
    match a with
    | 64 => k.rvalidAt == now
    | 65 => k.rerr && k.rvalidAt == now
    | 66 => k.acceptAt == now
    | 67 => k.own.1 != 0 && ((k.held.isSome && k.heldAt < s.time.slots) || k.acceptAt == now)
    | 68 => k.refusedAt == now
    | 69 => k.own.1 == 0
    | _ => false

/-- The timing bus of a sector, AS256 upward (Table 5.4). -/
def timingSource (s : State) (sec a : Nat) : Bool :=
  let first := s.time.inTick == 0 && !s.ramping
  if a = 256 then first
  else if a = 257 then first && s.time.frameStb
  else if a < 282 then srcBit (s.getF Reg.TIME_TIF_TIF) (a - 258)
  else if a < 290 then srcBit (s.getF Reg.TIME_FRAME_FRAME) (a - 282)
  else if a < 300 then srcBit (if s.ramping then s.time.inTick - 1 else s.time.inTick) (a - 290)
  else
    match a with
    | 300 => s.clrOpen
    | 301 => s.tainted sec
    | 302 => s.flag Reg.TIME_STATUS_SLIP
    | 303 => s.time.test
    | _ => if a < 312 then s.time.testType.getLsbD (a - 304) else false

/-- The lane that lands in a sector (Table 9.1). -/
def laneOf (sec : Nat) : Option Nat :=
  if sec < 132 then some sec else if 228 ≤ sec ∧ sec < 240 then some (sec - 96) else none

/-- The sector a lane lands in. -/
def landing (n : Nat) : Nat := if n < 132 then n else n + 96

/-- The front-end state of a lane. -/
def State.feLane (s : State) (n : Nat) : FeLane := tget (fun _ => FeLane.reset) s.fe n

/-- The state of a lane's bring-up (Table 11.1): 0 IDLE, 1 DETECT, 2 TRAIN, 3 BITLOCK, 4 SYMLOCK, 5 HANDSHAKE, 6 ACTIVE,
7 TEST. -/
def State.laneState (s : State) (n : Nat) : Nat := s.getF (Reg.LN_BU_STAT_STATE n)

/-- The mode of a lane's quad: 1 front-end, 2 trunk, otherwise off. -/
def State.laneMode (s : State) (n : Nat) : Nat := s.getF (Reg.LQ_MODE_MODE (n / 4))

/-- A front-end lane is ACTIVE and aligned. -/
def feLocked (s : State) (n : Nat) : Bool :=
  s.laneMode n == 1 && s.laneState n == 6 && s.flag (Reg.LN_FE_STAT_ALIGNED n)

/-- TX_RDY (R185): the present beat, counted from the tick in which the lane entered ACTIVE in periods of four such ticks, takes one of
the words floor(i × M / (8·J)). -/
def feTxReady (s : State) (n : Nat) : Bool :=
  let j := s.getF (Reg.LQ_MODE_FE_J (n / 4))
  let l := s.feLane n
  let b := (s.time.slots - l.actSlot) / 8 % max 1 (l.period / 8)
  l.live && (List.range j).any (fun i => i * s.rootM / (8 * max 1 j) == b)

/-- The first slot of the present beat. -/
def State.beatSlot (s : State) : Nat := 8 * (s.time.slots / 8)

/-- The word that the buffer gives to the present beat (R184). -/
def feBeatWord (s : State) (n : Nat) : Option (List RxChar) :=
  let l := s.feLane n
  if l.live then (l.words.find? (fun x => x.1 == s.beatSlot)).map (fun x => x.2) else none

/-- Values of the characters of a word put together, b bits each, character 0 lowest. -/
def packChars (b : Nat) (f : RxChar → Nat) (cs : List RxChar) : Nat := cs.foldr (fun c acc => f c + 2 ^ b * acc) 0

/-- Sources of tile (11, 4) in front-end mode (Table 5.3, Table 9.3): the word of the beat outside the clearing window, TX_RDY, LOCKED. -/
def fePortSource (s : State) (n a : Nat) : Bool :=
  let cs := if s.clrOpen then [] else (feBeatWord s n).getD []
  if a < 64 then srcBit (packChars 8 (fun c => c.v) cs) a
  else if a < 72 then srcBit (packChars 1 (fun c => c.k.toNat) cs) (a - 64)
  else
    match a with
    | 72 => !cs.isEmpty
    | 73 => feTxReady s n
    | 74 => (s.feLane n).live
    | _ => false

/-! ### Trunk lanes -/

/-- The trunk state of a lane. -/
def State.tkLane (s : State) (n : Nat) : TkLane := tget (fun _ => TkLane.reset) s.tk n

/-- The stream that a schedule gives a position to; positions 0 and 1 belong to the queue pool (R200). -/
def streamAt (sched p : Nat) : Option Nat :=
  let e := sched / 16 ^ p % 16
  if p < 2 ∨ 8 ≤ e then none else some e

/-- Bits of a codeword on the line (R196). -/
def cwBits (fec : Bool) : Nat := if fec then 1144 else 1056

/-- Stream c is sent, and its transmit key index. -/
def txEnabled (l : TkLane) (c : Nat) : Bool := (l.cfg.scfg.getD c 0).testBit 31
def txKeyOf (l : TkLane) (c : Nat) : Nat := nbits (l.cfg.scfg.getD c 0) 5 0

/-- The deadline beat of transmit position `pos` (16·codeword + block), counted from entry to ACTIVE: the latest beat whose
end lies at least 27 slots + 9.4 ns, and 2 slots more for a keyed stream, before its departure (R212). Slots are
M/(80·H·b) of a bit; everything is scaled by 4·10^10 of that denominator. -/
def deadlineBeat (s : State) (l : TkLane) (pos : Nat) : Option Nat :=
  match streamAt l.cfg.txSched (pos % 16) with
  | none => none
  | some c =>
    let d := 80 * l.cfg.h * (if l.cfg.pam4 then 2 else 1)
    let dep := (pos / 16 * cwBits l.txFec + 66 * (pos % 16)) * s.rootM * 40000000000
    let q := d * 40000000000
    let lat := (if txKeyOf l c = 0 then 27 else 29) * q + 94 * s.rootM * s.refHz * d
    if txEnabled l c ∧ d ≠ 0 ∧ lat + 8 * q ≤ dep then some ((dep - lat) / (8 * q) - 1) else none

/-- The positions with deadline beat b, in order of transmission. -/
def withDeadline (s : State) (l : TkLane) (b : Nat) : List Nat :=
  let d := 80 * l.cfg.h * (if l.cfg.pam4 then 2 else 1)
  let cw := (8 * (b + 1) + 27) * d / (max 1 s.rootM * cwBits l.txFec)
  ((List.range 96).map (fun i => 16 * (cw - 1) + i)).filter (fun p => deadlineBeat s l p == some b)

/-- Positions in order of transmission. -/
def inOrder (ps : List Nat) : List Nat := ps.foldr (fun x acc => acc.takeWhile (fun y => decide (y < x)) ++ x :: acc.dropWhile (fun y => decide (y < x))) []

/-- The positions that do not fit into beat b or a later one and go to the beat before it; `fuel` beats are looked at. -/
def pushedFrom (s : State) (l : TkLane) : Nat → Nat → List Nat
  | 0, _ => []
  | fuel + 1, b => let all := inOrder (withDeadline s l b ++ pushedFrom s l fuel (b + 1)); all.take (all.length - 4)

/-- The positions granted in beat b, p = 0, 1, … (R212). -/
def grantsIn (s : State) (l : TkLane) (b : Nat) : List Nat :=
  let all := inOrder (withDeadline s l b ++ pushedFrom s l 64 (b + 1))
  all.drop (all.length - 4)

/-- The positions granted to a lane in the present beat: line time goes on in a debug halt (R212, R215). -/
def tkGrants (s : State) (n : Nat) : List Nat :=
  let l := s.tkLane n
  if s.laneMode n = 2 ∧ s.laneState n = 6 then grantsIn s l ((s.time.slots - l.actSlot) / 8 + l.lag) else []

/-- The lane is ACTIVE with superframe lock. -/
def tkLocked (s : State) (n : Nat) : Bool := s.laneMode n == 2 && s.laneState n == 6 && (s.tkLane n).sfOk

/-- The block on receive position p in the present beat: data and sideband (R211). -/
def tkPresent (s : State) (n p : Nat) : Nat × Nat :=
  if s.clrOpen then (0, 0)
  else
    match (s.tkLane n).rxOut.find? (fun e => e.1 == 4 * (s.time.slots / 8) + p) with
    | some e => e.2
    | none => (0, 0)

/-- Sources of tiles (11, 4) and (11, 5) in trunk mode (Tables 10.5, 10.6). -/
def tkPortSource (s : State) (n v a : Nat) : Bool :=
  if a < 128 then srcBit (tkPresent s n (2 * (v - 4) + a / 64)).1 (a % 64)
  else if v = 5 then a < 160 && srcBit (tkPresent s n ((a - 128) / 8)).2 (a % 8)
  else if a < 144 then
    match (tkGrants s n)[(a - 128) / 4]? with
    | some pos =>
      if a % 4 = 0 then true
      else srcBit ((streamAt (s.tkLane n).cfg.txSched (pos % 16)).getD 0) (a % 4 - 1)
    | none => false
  else if a = 144 then tkLocked s n
  else if a < 153 then srcBit (s.tkLane n).vok (a - 145)
  else if a < 161 then srcBit (s.tkLane n).vbad (a - 153)
  else false

/-! ### The NAP -/

def State.nap (s : State) (sec : Nat) : Nap := tget (fun _ => Nap.reset) s.naps sec

/-- Sources of the NAP tiles (0, 4) to (0, 6) (Table 13.7). -/
def napSource (s : State) (sec v a : Nat) : Bool :=
  let p := s.nap sec
  let now := s.time.slots
  match v with
  | 4 => if a = 0 then p.grantAt == some now else a == 1 && s.napFenced sec
  | 5 =>
    match p.shown with
    | some (j, r) =>
      j == now && (if a < 64 then srcBit r.data a else if a < 70 then srcBit r.ut (a - 64)
        else if a < 72 then srcBit r.status (a - 70) else a == 72)
    | none => false
  | 6 =>
    match p.uwShown with
    | some (j, w) =>
      j == now && (if a < 64 then srcBit w.r.data a else if a < 84 then srcBit w.r.addr (a - 64)
        else if a < 88 then srcBit w.r.op (a - 84) else if a < 91 then srcBit w.r.size (a - 88)
        else if a < 95 then srcBit ((w.shown.map (fun x => x.1)).getD 0) (a - 91) else if a = 95 then true
        else a == 96 && w.r.peek)
    | none => false
  | _ => false

/-- The odd pin of a pair whose even pin sets PAIR (R474). -/
def pairOdd (s : State) (i : Nat) : Bool := i % 2 == 1 && s.getF (Reg.GPIO_CFG_PAIR (i - 1)) != 0

/-- Sources of tile (0, 10) of the T0 sectors with y = 0 (Table 24.7): pins 8·x to 8·x + 7. -/
def gpioSource (s : State) (sec a : Nat) : Bool :=
  let i := 8 * sec + a / 2
  sec < 12 && a < 16 && (if a % 2 = 0 then s.gpio.i0.getLsbD i else s.gpio.i1.getLsbD i)

/-- A run-time link test drives the vertical links of the T0 sector under tile place key `k` (R461). -/
def underTest (s : State) (k : Nat) : Bool :=
  match s.rt with
  | some t => t.start.any (fun j => decide (s.time.slots < j + 200)) && ({ t := 0, x := k / 48 % 144, y := k / 48 / 144 } : Tile).sector == t.pair
  | none => false

/-- The guard holds a vertical link, or a test drives it. -/
def guardHeld (s : State) (k : Nat) : Bool := (tget (fun _ => none) s.vheld k).isSome || underTest s k

/-- The lane port of a sector, in tile (11, 4) or (11, 5) (Table 5.3). -/
def portSource (s : State) (sec v a : Nat) : Bool :=
  match laneOf sec with
  | none => false
  | some n =>
    match s.laneMode n with
    | 1 => v == 4 && fePortSource s n a
    | 2 => tkPortSource s n v a
    | _ => false

/-- The attachment source ASa of a tile place (12·v + u) of a sector (Table 5.2). -/
def attachSource (s : State) (sec place a : Nat) : Bool :=
  let u := place % 12
  let v := place / 12
  if 256 ≤ a then timingSource s sec a
  else if u = 2 then macSource s sec v a
  else if u = 9 then macSource s sec (12 + v) a
  else if v = 2 ∧ (u = 5 ∨ u = 6) then
    !s.held sec && srcBit (groupBits ((s.ranker sec (u - 5)).port s.time.slots)) a
  else if u = 5 ∧ v = 9 then matcherSource s sec a
  else if u = 4 ∧ v % 3 = 1 then bankSource s (8 * sec + v / 3) a
  else if u = 7 ∧ v % 3 = 1 then bankSource s (8 * sec + 4 + v / 3) a
  else if u = 11 ∧ (v = 4 ∨ v = 5) then portSource s sec v a
  else if u = 0 ∧ 4 ≤ v ∧ v ≤ 6 then napSource s sec v a
  else if u = 0 ∧ v = 10 then gpioSource s sec a
  else false

/-- What 1/CX leaves for the elements of a path after t_CO + t_SU + t_U, in 0.1 ps of the grade 2 column: each figure at grade 1 is 1.2
times that (R113). CX is a quarter of the VCO (R22). -/
def slotBudget (s : State) : Nat × Nat :=
  let hz := max 1 (s.refHz * s.rootM)
  (400000000000000 / (12 * hz) - 1000, 40000000000000 / hz - 1000)

/-- The fabric in the present slot. -/
def State.view (s : State) : FabView :=
  { plane := s.plane
    live := fun sec => !s.held sec
    word := s.cfgInfo
    sreg := fun k => tget (fun _ => false) s.sreg k && (s.held (k / 80 / 144 / 8) || s.planeState (k / 80 / 144 / 8) (k / 80 / 144 % 8) != 2)
    wreg := fun k => tget (fun _ => false) s.wreg k
    held := fun k => guardHeld s k || tget (fun _ => false) s.vdead k
    asrc := attachSource s
    budget := slotBudget s
    grade2 := Config.gradeTwo 0
    free := Config.unsettled s.time.slots }

/-- A slot can run: the slot clock runs and the tick is not over. -/
def State.slotRuns (s : State) : Bool := s.clockOn && !s.dbgHalt && !s.clk.hang && (s.ramping || s.time.inTick < s.time.tickSlots)

/-- The hard blocks of a sector may issue in the present slot (R93). -/
def State.mayIssue (s : State) (sec : Nat) : Bool := s.slotRuns && !s.held sec

end Sys2Proof.Machine
end

