-- ==== Sys2Proof/Machine/BankOps.lean ====
section
/-!
DEFINITION. Banks (08_banks_tallies.md R151 to R172): array operations with their code, owner and non-owner service,
the fabric port, ring mode, persistence, handover and the scrubber. Tally counters (R170, R171) stand at the end.
-/

namespace Sys2Proof.Machine

def State.setBank (s : State) (b : Nat) (k : Bank) : State :=
  { s with banks := tset (fun _ => Bank.reset) s.banks b k }

/-- A physical word of a bank. -/
def State.bankWord (s : State) (b w : Nat) : CodeWord := tget (fun _ => 0) s.bmem (4096 * b + w)

/-- A physical word written; a scrubber rewrite of the word that waits is dropped (R162). -/
def State.setBankWord (s : State) (b w : Nat) (c : CodeWord) : State :=
  let k := s.bank b
  let s1 := match k.fix with
    | some (fw, _) => if fw = w then s.setBank b { k with fix := none } else s
    | none => s
  { s1 with bmem := tset (fun _ => 0) s1.bmem (4096 * b + w) c }

/-- The bank is persistent and its sector runs under G7, both as in force (R165, R166). -/
def bankPending (s : State) (b : Nat) : Bool := (s.bank b).persist && s.isG7 (b / 8)

def selBit (s : State) (b a : Nat) : Bool := tget (fun _ => false) s.bsel (2048 * b + a)

def dirtyBit (s : State) (b a : Nat) : Bool := tget (fun _ => false) s.bdirty (2048 * b + a)

/-- The physical word of the committed copy of an address below 2,048. -/
def committedWord (s : State) (b a : Nat) : Nat := if selBit s b a then a + 2048 else a

/-- The physical word of the pending copy. -/
def pendingWord (s : State) (b a : Nat) : Nat := if selBit s b a then a else a + 2048

/-- The physical word that a read of an address returns (R165); outside G7 the select bits exchange the halves (R166). -/
def readWord (s : State) (b a : Nat) : Nat :=
  if bankPending s b then (if dirtyBit s b a then pendingWord s b a else committedWord s b a)
  else if a < 2048 then committedWord s b a else pendingWord s b (a - 2048)

/-- The physical word that a write of an address goes to. -/
def writeWord (s : State) (b a : Nat) : Nat :=
  if bankPending s b then pendingWord s b a
  else if a < 2048 then committedWord s b a else pendingWord s b (a - 2048)

/-- A correctable finding (R161). -/
def bankCorr (s : State) (b : Nat) : State :=
  (s.raiseF (Reg.SEC_BSTAT_CORR (b / 8))).incF (Reg.SEC_BECC_COR_CNT (b / 8))

/-- BANK_UNCORRECTABLE (R161): the finding recorded and event 225 raised. -/
def bankUnc (s : State) (b w : Nat) : State :=
  let sec := b / 8
  let s1 := s.capture (Reg.SEC_BSTAT_UNCORR sec) [(Reg.SEC_BSTAT_UBANK sec, b % 8), (Reg.SEC_BSTAT_UWORD sec, w)]
  ((s1.raiseF (Reg.SEC_BSTAT_UNCORR sec)).incF (Reg.SEC_BECC_UNC_CNT sec)).raiseEv 225

/-- An array read of a physical word: the data, or nothing where the word is uncorrectable or poisoned. -/
def arrayRead (s : State) (b w : Nat) : State × Option Word64 :=
  match cwDecode (s.bankWord b w) with
  | .clean d => (s, some d)
  | .corrected d => (bankCorr s b, some d)
  | .bad => (bankUnc s b w, none)

/-- The bytes of a mask: bit i of the enables selects byte i. -/
def byteMask (be : Nat) : Nat := (List.range 8).foldl (fun acc i => if be.testBit i then acc + 255 * 256 ^ i else acc) 0

/-- A word with the enabled bytes replaced. -/
def mergeBytes (old data be : Nat) : Nat := (data &&& byteMask be) ||| (old &&& byteMask (255 - be % 256))

/-- The new value of an atomic (R160). -/
def atomicValue (op : BankOp) (old x : Nat) : Nat :=
  match op with
  | .add => (old + x) % 2 ^ 64
  | .addu => min (old + x) (2 ^ 64 - 1)
  | .adds =>
    let v := sext 64 old + sext 64 x
    wrapN 64 (max (-(2 ^ 63 : Nat) : Int) (min v ((2 ^ 63 : Nat) - 1 : Int)))
  | _ => x % 2 ^ 64

/-- A word stored with fresh check bits; the dirty bit is set in a persistent bank (R165). -/
def bankStore (s : State) (b a : Nat) (v : Nat) : State :=
  let w := writeWord s b a
  let s1 := s.setBankWord b w (cwEncode (BitVec.ofNat 64 v))
  if bankPending s b then { s1 with bdirty := tset (fun _ => false) s1.bdirty (2048 * b + a) true } else s1

/-- Two-cycle operations: narrow writes and atomics (Table 8.2). -/
def twoCycle (op : BankOp) (be : Nat) : Bool :=
  match op with
  | .read => false
  | .write => be % 256 != 255
  | _ => true

/-- The bytes of a narrow read, in the lanes that the address selects (R258, R268). -/
def laneValue (r : BankReq) (v : Nat) : Nat :=
  if 8 ≤ r.size then v else v / 256 ^ r.off % 256 ^ r.size * 256 ^ r.off

/-- How many word operations a request is (R159). -/
def reqWords (r : BankReq) : Nat := if 64 ≤ r.size then 8 else 1

/-- A request to the upper half of a persistent bank is not performed: RANGE, and one count for the request (R165). -/
def bankRange (s : State) (b : Nat) (r : BankReq) : State × BankReq :=
  let sec := b / 8
  let r1 := { r with err := true, range := true }
  (if r.range then s else (s.raiseF (Reg.SEC_BSTAT_RANGE sec)).incF (Reg.SEC_BCOLL_RANGE_CNT sec), r1)

/-- The word at hand of a request lies in the upper half of a persistent bank. -/
def outOfRange (s : State) (b : Nat) (r : BankReq) : Bool := bankPending s b && decide (2048 ≤ r.word + r.step)

/-- One array operation of a request that is not a two-cycle operation: its next word read or written (R159, R161). -/
def bankWordOp (s : State) (b : Nat) (r : BankReq) : State × BankReq :=
  if outOfRange s b r then
    let x := bankRange s b r
    (x.1, { x.2 with step := r.step + 1, got := if r.op = .write then r.got else r.got ++ [0] })
  else if r.op = .write then (bankStore s b (r.word + r.step) (r.data.getD r.step 0), { r with step := r.step + 1 })
  else
    match arrayRead s b (readWord s b (r.word + r.step)) with
    | (s1, none) => (s1, { r with step := r.step + 1, err := true, got := r.got ++ [0] })
    | (s1, some d) => (s1, { r with step := r.step + 1, got := r.got ++ [laneValue r d.toNat] })

/-- The read half of a two-cycle operation: its word is read and decoded (R155, R156, R161). -/
def bankReadHalf (s : State) (b : Nat) (r : BankReq) : State × BankReq :=
  if outOfRange s b r then let x := bankRange s b r; (x.1, { x.2 with half := true })
  else
    match arrayRead s b (readWord s b r.word) with
    | (s1, none) => (s1, { r with half := true, err := true })
    | (s1, some d) => (s1, { r with half := true, err := false, old := d.toNat })

/-- The write half: the word formed from what the read half found is stored, unless that was an error. -/
def bankWriteHalf (s : State) (b : Nat) (r : BankReq) : State × BankReq :=
  let x := r.data.headD 0
  let v := if r.op = .write then mergeBytes r.old x r.be else atomicValue r.op r.old x
  let r1 := { r with step := 1, got := if r.op = .write then [] else [if r.err then 0 else laneValue r r.old] }
  (if r.err then s else bankStore s b r.word v, r1)

/-- A non-owner's operation between its halves starts again when the owner writes its word (R156). -/
def restartHalf (s : State) (b w : Nat) : State :=
  let k := s.bank b
  match k.mid with
  | some (c, r) => if r.half && readWord s b r.word == w then s.setBank b { k with mid := some (c, { r with half := false }) } else s
  | none => s

/-- A word operation of an owner, with the restart of R156. -/
def ownerWordOp (s : State) (b : Nat) (r : BankReq) : State × BankReq :=
  let a := r.word + r.step
  let x := bankWordOp s b r
  (if r.op = .write ∧ !outOfRange s b r then restartHalf x.1 b (writeWord s b a) else x.1, x.2)

/-- The write half of an owner, with the restart of R156. -/
def ownerWriteHalf (s : State) (b : Nat) (r : BankReq) : State × BankReq :=
  let x := bankWriteHalf s b r
  (if r.err then x.1 else restartHalf x.1 b (writeWord s b r.word), x.2)

/-- The initiator ID of a request that nobody waits for any more. -/
def nobody : Nat := 0x3FE

/-- The response of a finished request, leaving the bank in the slot given. -/
def reqResponse (r : BankReq) (ready : Nat) : Rsp :=
  { id := r.id, tag := r.tag, status := if r.err then 1 else 0, data := if r.err then [] else r.got, ready := ready }

/-- Whether a result is presented to the fabric: read data, an atomic's old value, or the error of a narrow write. -/
def fabricAnswers (r : BankReq) : Bool :=
  match r.op with
  | .write => r.be % 256 != 255 && r.err && !r.range
  | _ => true

/-- A request completed in the present cycle: a result for the fabric 4 slots later, a response of the port 4 slots later, or in the
next slot for a write (R155). -/
def reqDone (s : State) (b : Nat) (r : BankReq) : State :=
  let now := s.time.slots
  if r.id = 0x3FF then
    let k := s.bank b
    if fabricAnswers r then
      s.setBank b { k with results := k.results ++ [{ slot := now + 4, data := if r.err then 0 else r.got.headD 0, err := r.err }] }
    else s
  else if r.id = nobody then s
  else { s with rsps := s.rsps ++ [reqResponse r (if r.op = .write then now + 1 else now + 4)] }

/-! ### The fabric port -/

/-- BCTL.RING of the active plane. -/
def bctlRing (v : FabView) (sec i : Nat) : Bool := v.af (bankTile sec i) 992 1 == 1

/-- The word a ring-mode request addresses (R163). -/
def ringWord (k : Bank) (a : Nat) : Nat :=
  let len := if k.bring.2.1 = 0 ∨ 4096 < k.bring.2.1 then 4096 else k.bring.2.1
  (k.bring.2.2 + (k.ringPtr + a) % len) % 4096

/-- The operation of an OP code (Table 8.4). -/
def bankOpCode (c : Nat) : Option BankOp :=
  match c with
  | 0 => some .read
  | 1 => some .write
  | 2 => some .add
  | 3 => some .addu
  | 4 => some .adds
  | 5 => some .swap
  | _ => none

/-- The request that the fabric presents to a bank in this slot (R169). -/
def fabricReq (s : State) (sec i : Nat) : Option BankReq :=
  let v := s.view
  let g := bankTile sec i
  let k := s.bank (8 * sec + i)
  if s.mayIssue sec && v.afIn g 0 then
    match bankOpCode (v.afBus g 11 3) with
    | none => none
    | some op =>
      let a := v.afBus g 44 12
      let be := v.afBus g 880 8
      if op = .write ∧ be = 0 then none
      else
        some { id := 0x3FF, tag := 0, op := op, word := if bctlRing v sec i && k.ring then ringWord k a else a, off := 0,
               be := be, size := 8, data := [v.afBus g 176 64], step := 0, got := [], err := false,
               range := false, half := false, old := 0 }
  else none

/-- A fabric owner's operation begins in the present cycle (R155): a read or a full write is done in it, a two-cycle operation reads. -/
def fabricOwnerDo (s : State) (b : Nat) (r : BankReq) : State :=
  let now := some s.time.slots
  if twoCycle r.op r.be then
    let x := bankReadHalf s b r
    x.1.setBank b { x.1.bank b with second := some x.2, usedAt := now, acceptAt := now }
  else
    let x := ownerWordOp s b r
    let t := reqDone x.1 b x.2
    t.setBank b { t.bank b with usedAt := now, acceptAt := now }

/-- A fabric request of one operation: performed at once for the owner, refused in the second cycle of a two-cycle operation, held for
a non-owner, ignored while one is held (R155, R157). The second cycle of a port owner's operation that a handover to the fabric leaves
refuses it too, and a request in the slot in which a held one is performed is dropped (DESIGN CHOICE, log 120). -/
def fabricTake (s : State) (sec i : Nat) (op : BankOp) : Res :=
  let b := 8 * sec + i
  let k := s.bank b
  let now := some s.time.slots
  match fabricReq s sec i with
  | none => ok s
  | some r =>
    if r.op ≠ op ∨ k.acceptAt = now ∨ k.refusedAt = now then ok s
    else if k.own.1 = 0 then
      if k.second.isSome then
        ok (((s.setBank b { k with refusedAt := now }).raiseF (Reg.SEC_BSTAT_COLL sec)).incF
          (Reg.SEC_BCOLL_COLL_CNT sec))
      else ok (fabricOwnerDo s b r)
    else if k.held.isSome then ok s
    else ok (s.setBank b { k with held := some r, heldAt := s.time.slots })

/-- BANK_READ: a fabric READ (R155). -/
def execBankRead (sec : Fin 240) (i : Fin 8) (s : State) : Res := fabricTake s sec i .read

/-- BANK_WRITE: a fabric WRITE under byte enables (R159). -/
def execBankWrite (sec : Fin 240) (i : Fin 8) (s : State) : Res := fabricTake s sec i .write

/-- BANK_ADD: a fabric atomic add (R160). -/
def execBankAdd (sec : Fin 240) (i : Fin 8) (s : State) : Res := fabricTake s sec i .add

/-- BANK_ADDU: a fabric atomic add with unsigned saturation (R160). -/
def execBankAddu (sec : Fin 240) (i : Fin 8) (s : State) : Res := fabricTake s sec i .addu

/-- BANK_ADDS: a fabric atomic add with signed saturation (R160). -/
def execBankAdds (sec : Fin 240) (i : Fin 8) (s : State) : Res := fabricTake s sec i .adds

/-- BANK_SWAP: a fabric atomic swap (R160). -/
def execBankSwap (sec : Fin 240) (i : Fin 8) (s : State) : Res := fabricTake s sec i .swap

/-! ### The NAP/teller port -/

/-- Whether an initiator ID owns a bank (R153, R154). -/
def ownsBank (s : State) (b id : Nat) : Bool :=
  let k := s.bank b
  match k.own.1 with
  | 1 => id == 0x100 + b / 8
  | 2 => id == k.own.2 && !(id == 0x100 + b / 8) && (id < 0xF0 || (0x100 ≤ id && id < 0x1F0) || (0x200 ≤ id && id < 0x207))
  | _ => false

/-- A request that arrives through the NAP/teller port waits in its queue: the teller's, or the network's in order of arrival. One that
arrives when the cycle of the present slot has been used arrives for the next (DESIGN CHOICE, log 120). -/
def bankArrive (s : State) (b : Nat) (r : BankReq) : State :=
  let k := s.bank b
  if r.id = 0x100 + b / 8 then s.setBank b { k with tlr := k.tlr ++ [r] }
  else s.setBank b { k with net := k.net ++ [r] }

/-- The owner's oldest request that waits at the port (R155). -/
def ownerWaits (s : State) (b : Nat) : Option BankReq :=
  let k := s.bank b
  match k.own.1 with
  | 1 => k.tlr.head?
  | 2 => if ownsBank s b k.own.2 then k.net.find? (fun r => r.id == k.own.2) else none
  | _ => none

/-- The owner's oldest request replaced, or taken away. -/
def ownerPut (k : Bank) (x : Option BankReq) : Bank :=
  match k.own.1 with
  | 1 => { k with tlr := x.toList ++ k.tlr.drop 1 }
  | _ =>
    let i := k.net.findIdx (fun r => r.id == k.own.2)
    { k with net := k.net.take i ++ (x.toList ++ k.net.drop (i + 1)) }

/-- A fabric request that a handover has made the owner's, not yet performed (R153). -/
def heldOwner (k : Bank) : Option BankReq := if k.own.1 = 0 then k.held else none

/-- An owner request from the port in the present cycle: the next word, or the read half of a two-cycle operation. -/
def portOwnerDo (s : State) (b : Nat) (r : BankReq) : State :=
  if twoCycle r.op r.be then
    let x := bankReadHalf s b r
    x.1.setBank b { ownerPut (x.1.bank b) none with second := some x.2 }
  else
    let x := ownerWordOp s b r
    if x.2.step < reqWords r then x.1.setBank b (ownerPut (x.1.bank b) (some x.2))
    else reqDone (x.1.setBank b (ownerPut (x.1.bank b) none)) b x.2

/-- The owner's operation of the present cycle, where no command has used it: the write half of a two-cycle operation whose read half fell in the slot before, a held request
that a handover made the fabric's own, or the oldest request of the owner at the port. -/
def ownerCycle (s : State) (b : Nat) : State :=
  let k := s.bank b
  match k.second with
  | some r =>
    if k.usedAt = some s.time.slots then s
    else
    let x := ownerWriteHalf s b r
    reqDone (x.1.setBank b { x.1.bank b with second := none }) b x.2
  | none =>
    if k.usedAt = some s.time.slots then s
    else
      match heldOwner k with
      | some r => fabricOwnerDo (s.setBank b { k with held := none }) b r
      | none =>
        match ownerWaits s b with
        | some r => portOwnerDo s b r
        | none => s

/-- The owner uses the present bank cycle, or has used it. -/
def ownerBusy (s : State) (b : Nat) : Bool :=
  let k := s.bank b
  k.second.isSome || (heldOwner k).isSome || (ownerWaits s b).isSome

/-! ### Non-owner service -/

/-- Whether a candidate (0 fabric, 1 teller, 2 network) waits. -/
def candWaits (s : State) (k : Bank) (c : Nat) : Bool :=
  match c with
  | 0 => k.own.1 != 0 && k.held.isSome && k.heldAt < s.time.slots
  | 1 => !k.tlr.isEmpty
  | _ => !k.net.isEmpty

/-- The request that a cycle idle for non-owners goes to: the one between its halves, or the first waiting candidate after the pointer
(R156). -/
def nextCand (s : State) (k : Bank) : Option (Nat × BankReq) :=
  match k.mid with
  | some x => some x
  | none =>
    [1, 2, 3].findSome? (fun d =>
      let c := (k.ptr + d) % 3
      let r := match c with
        | 0 => k.held
        | 1 => k.tlr.head?
        | _ => k.net.head?
      if candWaits s k c then r.map (fun r => (c, r)) else none)

/-- A candidate's request replaced, or taken away. -/
def candPut (k : Bank) (c : Nat) (r : Option BankReq) : Bank :=
  match c with
  | 0 => { k with held := r }
  | 1 => { k with tlr := r.toList ++ k.tlr.drop 1 }
  | _ => { k with net := r.toList ++ k.net.drop 1 }

/-- No owner operation falls in the present bank cycle, and nothing has used it. -/
def cycleIdle (s : State) (sec i : Nat) : Bool :=
  let k := s.bank (8 * sec + i)
  s.slotRuns && !ownerBusy s (8 * sec + i) && k.usedAt != some s.time.slots && !(k.own.1 == 0 && (fabricReq s sec i).isSome)

/-- One bank cycle given to a non-owner request of candidate c (R156): the read half or the write half of a two-cycle operation, or the
next word; between the words of a line the pointer rotates (DESIGN CHOICE, log 120). A two-cycle operation that starts again raises no
second ACCEPT (DESIGN CHOICE, log 120). -/
def nonownerServe (s : State) (b c : Nat) (r : BankReq) : State :=
  let k := s.bank b
  let now := some s.time.slots
  let first := c = 0 ∧ k.mid.isNone = true
  let s1 := s.setBank b { k with usedAt := now, servAt := now, ptr := c, acceptAt := if first then now else k.acceptAt }
  if twoCycle r.op r.be then
    if r.half then
      let x := bankWriteHalf s1 b r
      reqDone (x.1.setBank b { x.1.bank b with mid := none }) b x.2
    else
      let x := bankReadHalf s1 b r
      let k1 := x.1.bank b
      x.1.setBank b { (if k.mid.isNone then candPut k1 c none else k1) with mid := some (c, x.2) }
  else
    let x := bankWordOp s1 b r
    if x.2.step < reqWords r then x.1.setBank b { candPut (x.1.bank b) c (some x.2) with partAt := now }
    else reqDone (x.1.setBank b (candPut (x.1.bank b) c none)) b x.2

/-- BANK_NONOWNER_SERVE: one bank cycle given to the candidate that rotation chooses (R156). -/
def execBankNonownerServe (sec : Fin 240) (i : Fin 8) (s : State) : Res :=
  let b := 8 * sec.val + i.val
  match nextCand s (s.bank b) with
  | some (c, r) => okIf (cycleIdle s sec i) s (nonownerServe s b c r)
  | none => ok s

/-! ### Registers of banks -/

/-- A write of SEC_BOWNi: CLASS 11b is ignored and sets BADCFG; the owner changes from the next bank cycle (R153). -/
def bownWrite (s : State) (sec i : Nat) (v : Word32) : State :=
  if nbits v.toNat 31 30 = 3 then s.raiseF (Reg.SEC_BSTAT_BADCFG sec)
  else s.setReg (Reg.SEC_BOWN sec i) (v &&& 0xC00003FF#32)

/-- OWNER_HANDOVER: a SEC_BOWNi write. -/
def execOwnerHandover (sec : Fin 240) (i : Fin 8) (v : Word32) (s : State) : Res :=
  okIf s.alive s (bownWrite s sec i v)

/-- A write of SEC_BCFGi: PERSIST and RING together are refused with BADCFG (R166). -/
def bcfgWrite (s : State) (sec i : Nat) (v : Word32) : State :=
  if v.getLsbD 2 && v.getLsbD 1 then s.raiseF (Reg.SEC_BSTAT_BADCFG sec)
  else s.setReg (Reg.SEC_BCFG sec i) (v &&& 0xE#32)

/-- BANK_CONFIG_WRITE: a SEC_BCFGi write. -/
def execBankConfigWrite (sec : Fin 240) (i : Fin 8) (v : Word32) (s : State) : Res :=
  okIf s.alive s (bcfgWrite (s.keepOld (Reg.SEC_BCFG sec i)) sec i v)

/-! ### The scrubber (R162) -/

/-- A visit is due: EN is 1, and 2^INT slots have passed since the last visit, if there has been one. -/
def scrubDueAt (s : State) (sec i : Nat) : Bool :=
  let k := s.bank (8 * sec + i)
  s.flag (Reg.SEC_BSCRUB_EN sec) &&
    (match k.scrubAt with | some j => decide (j + 2 ^ s.getF (Reg.SEC_BSCRUB_INT sec) ≤ s.time.slots) | none => true)

/-- A free cycle for the scrubber: no master uses it; after 65,536 slots without one, the next cycle that the owner
leaves idle, which starves non-owners. -/
def scrubFree (s : State) (sec i : Nat) : Bool × Bool :=
  let k := s.bank (8 * sec + i)
  let idle := cycleIdle s sec i
  let quiet := k.mid.isNone && [0, 1, 2].all (fun c => !candWaits s k c)
  let starved := decide (65536 ≤ k.scrubWait)
  (idle && (quiet || starved), idle && !quiet && starved)

/-- BANK_SCRUB_VISIT: the interval has passed and the next word is read in a free cycle; a correctable word is to be
rewritten in the next free cycle, an uncorrectable one to be poisoned there. -/
def execBankScrubVisit (sec : Fin 240) (i : Fin 8) (s : State) : Res :=
  let b := 8 * sec.val + i.val
  let k := s.bank b
  let now := s.time.slots
  let free := scrubFree s sec i
  if scrubDueAt s sec i && free.1 && k.fix.isNone then
    let w := k.scrubWord
    let c := s.bankWord b w
    let k1 := { k with scrubWord := (w + 1) % 4096, scrubAt := some now, scrubWait := 0, usedAt := some now }
    let s1 := if free.2 then (s.setBank b k1).raiseF (Reg.SEC_BSTAT_SCR_STARVE sec) else s.setBank b k1
    if cwPoison c then ok s1
    else
      match cwDecode c with
      | .clean _ => ok s1
      | .corrected d => ok ((bankCorr s1 b).setBank b { k1 with fix := some (w, cwEncode d) })
      | .bad => ok ((bankUnc s1 b w).setBank b { k1 with fix := some (w, cwSetPoison c) })
  else ok s

/-! ### What a slot does to the banks -/

/-- The conflict counters of a sector raised by the requests of one bank that wait and are not served in this slot; `k` is the bank
after its cycle, `own` the owner's request that the cycle has served in part (R158). -/
def bankConflicts (s : State) (b : Nat) (k : Bank) (own : Option Nat) : State :=
  let sec := b / 8
  let now := s.time.slots
  let served := k.servAt = some now
  let midOf := fun (c : Nat) => match k.mid with
    | some (c', r) => if c' = c ∧ ¬ served then [r.id] else []
    | none => []
  let fab := (if candWaits s k 0 then 1 else 0) + (midOf 0).length
  let tlr := (if k.own.1 = 1 then 0 else k.tlr.length) + (midOf 1).length
  let part := match own with
    | some id => some id
    | none => if k.partAt = some now ∧ k.ptr = 2 then k.net.head?.map (fun r => r.id) else none
  let ids := k.net.map (fun r => r.id)
  let net := (match part with | some id => ids.erase id | none => ids) ++ midOf 2
  let watch := s.getF (Reg.SEC_BCONF_SEL_WATCH_ID sec)
  (((s.addF (Reg.SEC_BCONF_FAB_WAIT sec) fab).addF (Reg.SEC_BCONF_TLR_WAIT sec) tlr).addF
    (Reg.SEC_BCONF_NET_WAIT sec) net.length).addF (Reg.SEC_BCONF_WATCH_WAIT sec) (net.filter (· == watch)).length

/-- What the end of a slot shows the fabric in the next one: a result that is due. -/
def bankPresent (s : State) (b now : Nat) : State :=
  let k := s.bank b
  let nxt := k.results.find? (fun r => r.slot == now + 1)
  s.setBank b { k with
    results := k.results.filter (fun r => now + 1 < r.slot)
    rdata := (match nxt with | some r => r.data | none => k.rdata)
    rerr := (match nxt with | some r => r.err | none => k.rerr)
    rvalidAt := (match nxt with | some _ => some (now + 1) | none => k.rvalidAt) }

/-- A change of owner comes into force with the next cycle (R153). A request that the fabric holds becomes its own and is accepted in
the first cycle that the second cycle of an operation already started does not take. -/
def bankHandover (s0 s : State) (b : Nat) : State :=
  let own := (s0.getF (Reg.SEC_BOWN_CLASS (b / 8) (b % 8)), s0.getF (Reg.SEC_BOWN_ID (b / 8) (b % 8)))
  let k := s.bank b
  if own = k.own then s
  else
    let c := s0.time.slots + (if k.second.isSome then 2 else 1)
    s.setBank b { k with own := own, acceptAt := if own.1 = 0 ∧ k.held.isSome then some c
      else if k.acceptAt = some (s0.time.slots + 1) then none else k.acceptAt }

/-- The scrubber at the end of a slot: a waiting rewrite is done in a free cycle, and a due visit that finds none waits on. -/
def scrubSlot (s0 s : State) (b : Nat) : State :=
  let sec := b / 8
  let i := b % 8
  let free := (scrubFree s0 sec i).1
  let k := s.bank b
  match k.fix with
  | some (w, c) =>
    if free then (s.setBank b { k with fix := none }).setBankWord b w c
    else s.setBank b { k with scrubWait := k.scrubWait + 1 }
  | none =>
    if scrubDueAt s0 sec i && !free then s.setBank b { k with scrubWait := k.scrubWait + 1 }
    else s.setBank b { k with scrubWait := 0 }

/-- What the end of a slot does to one bank: the owner's operation of the cycle, a waiting scrubber rewrite, conflicts counted, a
result presented in the next slot, and a change of owner brought into force. -/
def bankSlot (s0 s : State) (b : Nat) : State :=
  let now := s0.time.slots
  let k0 := s.bank b
  let s1 := ownerCycle s b
  let part := if k0.second.isNone && k0.usedAt != some now then
      (ownerWaits s b).bind (fun r => if (ownerWaits s1 b).any (fun x => decide (0 < x.step)) then some r.id else none)
    else none
  let s2 := scrubSlot s0 s1 b
  let s3 := bankConflicts s2 b (s2.bank b) part
  bankHandover s0 (bankPresent s3 b now) b

/-- Banks whose owner register differs from the owner in force, or that hold any state. -/
def banksSlot (s0 s : State) : State :=
  let byReg := s0.regs.filterMap (fun kv =>
    if 0x500000 ≤ kv.1 ∧ 0x40 ≤ kv.1 % 0x1000 ∧ kv.1 % 0x1000 < 0x60 then
      some (8 * ((kv.1 - 0x500000) / 0x1000) + (kv.1 % 0x1000 - 0x40) / 4) else none)
  ((s0.banks.map (fun kv => kv.1) ++ byReg).eraseDups).foldl (bankSlot s0) s

/-- RING_POINTER_STEP (R164): PTR advances by STEP modulo LEN in every ring-mode bank. -/
def ringStep (s : State) : State :=
  let f := fun (_ : Nat) (k : Bank) =>
    if k.ring then
      let len := if k.bring.2.1 = 0 ∨ 4096 < k.bring.2.1 then 4096 else k.bring.2.1
      { k with ringPtr := (k.ringPtr + k.bring.1) % len }
    else k
  { s with banks := tmap (fun _ => Bank.reset) f s.banks }

/-- The bank fields that take effect at a frame boundary, and the rebase of PTR (R164, R166). -/
def banksSample (s : State) : State :=
  let byReg := s.regs.filterMap (fun kv =>
    if 0x500000 ≤ kv.1 ∧ 0x60 ≤ kv.1 % 0x1000 ∧ kv.1 % 0x1000 < 0xA0 then
      some (8 * ((kv.1 - 0x500000) / 0x1000) + (kv.1 % 0x1000 - 0x60) / 4 % 8) else none)
  ((s.banks.map (fun kv => kv.1) ++ byReg).eraseDups).foldl (fun acc b =>
    let sec := b / 8
    let i := b % 8
    acc.setBank b { acc.bank b with
      ringPtr := 0
      ring := s.began.flag (Reg.SEC_BCFG_RING sec i)
      persist := s.began.flag (Reg.SEC_BCFG_PERSIST sec i)
      bring := (s.began.getF (Reg.SEC_BRING_STEP sec i), s.began.getF (Reg.SEC_BRING_LEN sec i), s.began.getF (Reg.SEC_BRING_RSTART sec i)) }) s

/-- PENDING_COMMIT (R41, R165): in each G7 sector, dirty addresses of persistent banks flip their select bits when the
frame is not tainted; all dirty bits clear either way, those too of a sector that has ceased to be G7 with a repair. -/
def pendingCommit (s : State) : State :=
  let b := fun (key : Nat) => key / 2048
  let now := fun (key : Nat) => bankPending s (b key)
  let flip := (s.bdirty.filter (fun kv => now kv.1 && kv.2 && !s.tainted (b kv.1 / 8))).map (fun kv => kv.1)
  { s with
    bsel := flip.foldl (fun t key => tset (fun _ => false) t key (!tget (fun _ => false) t key)) s.bsel
    bdirty := [] }

/-! ### Tally counters -/

/-- TALLY_INCREMENT (R170): in a slot of user mode each counter whose increment input is 1 adds 1, saturating. -/
def talliesSlot (s0 s : State) (secs : List Nat) : State :=
  let v := s0.view
  let upd := fun (t : Tab Nat) (sec : Nat) =>
    if s0.held sec then t
    else
      (List.range 64).foldl (fun t n =>
        let sel := v.af (tileOf sec 6 9) (11 * n) 11
        if sel != 0 && v.sel (tileOf sec 6 9) sel then
          let key := 64 * sec + n
          tset (fun _ => 0) t key (min (tget (fun _ => 0) t key + 1) 0xFFFFFFFF)
        else t) t
  { s with tally := secs.foldl upd s.tally }

/-- The registers of a tally snapshot: SEC_TALLYn, SEC_TINFO and SEC_TFRAME. -/
def snapReg (o : Nat) : Bool := decide (0x500000 ≤ o) && decide (0x400 ≤ o % 0x1000) && decide (o % 0x1000 < 0x508)

/-- TALLY_SNAPSHOT (R171): the counts, the number of the frame that ended, and its taint and overdraft state move into
the snapshot buffer, and the counters clear. What it replaces is what reads of this slot return. -/
def tallySnapshot (s : State) (frame : Nat) (ovd tnt : Nat → Bool) : State :=
  let was := s.regs.filter (fun kv => snapReg kv.1)
  let old := was.filter (fun kv => kv.1 % 0x1000 < 0x500)
  let s0 := old.foldl (fun acc kv => acc.setReg kv.1 0) s
  let s1 := s.tally.foldl (fun acc kv => acc.setReg (Reg.SEC_TALLY (kv.1 / 64) (kv.1 % 64)) (BitVec.ofNat 32 kv.2)) s0
  let s2 := (List.range 240).foldl (fun acc sec =>
    ((((acc.setReg (Reg.SEC_TFRAME sec) (BitVec.ofNat 32 frame)).putF (Reg.SEC_TINFO_OVD sec) (ovd sec)).putF
      (Reg.SEC_TINFO_TAINT sec) (tnt sec)).setF (Reg.SEC_TINFO_VALID sec) 1)) s1
  { s2 with tally := [], cyc := { s2.cyc with snap := some (s2.cyc.snap.getD was) } }

end Sys2Proof.Machine
end

