-- ==== Sys2Proof/Machine/Code8b10b.lean ====
section
/-!
DEFINITION. The 8b/10b code of IEEE 802.3 Clause 36 as R178 and R179 use it. A code-group is a 10-bit number whose bit
0 is bit a, sent first; a running disparity is true when positive.
-/

namespace Sys2Proof.Machine

/-- abcdei of D.x and K.28 in the column of negative running disparity, written with a at bit 0. -/
def code6 : List Nat :=
  [0x39, 0x2E, 0x2D, 0x23, 0x2B, 0x25, 0x26, 0x07, 0x27, 0x29, 0x2A, 0x0B, 0x2C, 0x0D, 0x0E, 0x3A,
   0x36, 0x31, 0x32, 0x13, 0x34, 0x15, 0x16, 0x17, 0x33, 0x19, 0x1A, 0x1B, 0x1C, 0x1D, 0x1E, 0x35]

/-- fghj of D.x.y in the column of negative running disparity, f at bit 0; the last entry is the alternate D.x.A7. -/
def code4 : List Nat := [0xD, 0x9, 0xA, 0x3, 0xB, 0x5, 0x6, 0x7, 0xE]

/-- fghj of K.x.y in the column of negative running disparity. -/
def code4K : List Nat := [0xD, 0x6, 0x5, 0x3, 0xB, 0xA, 0x9, 0xE]

/-- The number of ones among the low n bits. -/
def onesOf (n x : Nat) : Nat := (List.range n).foldl (fun acc i => acc + (x.testBit i).toNat) 0

/-- The sub-block for a running disparity: the complement where the block is not neutral, or where it is one of the two
neutral blocks that alternate. -/
def column (n x : Nat) (alternate rd : Bool) : Nat :=
  if rd && (2 * onesOf n x != n || alternate) then 2 ^ n - 1 - x else x

/-- The running disparity after a sub-block. -/
def afterBlock (n x : Nat) (rd : Bool) : Bool :=
  if 2 * onesOf n x = n then rd else decide (n < 2 * onesOf n x)

/-- The code-group of a character and the running disparity after it. -/
def encode8b10b (k : Bool) (v : Nat) (rd : Bool) : Nat × Bool :=
  let x := v % 32
  let y := v / 32 % 8
  let b6 := if k && x == 28 then column 6 0x3C false rd else column 6 (code6.getD x 0) (x == 7) rd
  let r1 := afterBlock 6 b6 rd
  let b4 :=
    if k then column 4 (code4K.getD y 0) true r1
    else
      let a7 := y == 7 && (if r1 then x == 11 || x == 13 || x == 14 else x == 17 || x == 18 || x == 20)
      column 4 (code4.getD (if a7 then 8 else y) 0) (y == 3) r1
  (b6 + 64 * b4, afterBlock 4 b4 r1)

/-- The twelve special code-groups: K28.0 to K28.7, K23.7, K27.7, K29.7, K30.7 (R178). -/
def specialGroups : List Nat := [0x1C, 0x3C, 0x5C, 0x7C, 0x9C, 0xBC, 0xDC, 0xFC, 0xF7, 0xFB, 0xFD, 0xFE]

/-- The character that a code-group stands for in the column of one running disparity. -/
def lookup8b10b (g : Nat) (rd : Bool) : Option (Bool × Nat) :=
  match (List.range 256).find? (fun v => (encode8b10b false v rd).1 == g) with
  | some v => some (false, v)
  | none =>
    match specialGroups.find? (fun v => (encode8b10b true v rd).1 == g) with
    | some v => some (true, v)
    | none => none

/-- A code-group checked against the current running disparity (R179). -/
def decode8b10b (g : Nat) (rd : Bool) : RxChar :=
  match lookup8b10b g rd with
  | some (k, v) => ⟨k, v, false, false, (encode8b10b k v rd).2⟩
  | none =>
    match lookup8b10b g (!rd) with
    | some (k, v) => ⟨k, v, false, true, (encode8b10b k v (!rd)).2⟩
    | none => ⟨true, 0xFE, true, false, if onesOf 10 g = 5 then rd else decide (5 < onesOf 10 g)⟩

end Sys2Proof.Machine
end

