-- ==== Sys2Proof/Machine/LaneTest.lean ====
section
/-!
DEFINITION. The test features of a lane (11_lane_bringup_test.md R229 to R231): error injection, pattern generator, checker
and loopbacks.
-/

namespace Sys2Proof.Machine

def State.test (s : State) (n : Nat) : LaneTest := tget (fun _ => LaneTest.reset) s.laneTest n

def State.setTest (s : State) (n : Nat) (t : LaneTest) : State :=
  { s with laneTest := tset (fun _ => LaneTest.reset) s.laneTest n t }

/-- The period of rate-controlled injection in bits: 2^RATE_EXP, RATE_EXP held to 8 to 48. -/
def injPeriod (s : State) (n : Nat) : Nat := 2 ^ max 8 (min 48 (s.getF (Reg.LN_TEST_CTRL_RATE_EXP n)))

/-- The bits that injection inverts among the next `len` bits sent: those of a single or burst injection, and one in every
period while RATE_EN is 1; a bit that both name is inverted once (R230). -/
def injMask (s : State) (n len : Nat) : Nat :=
  let t := s.test n
  let rated := s.flag (Reg.LN_TEST_CTRL_RATE_EN n)
  (List.range len).foldl (fun acc i =>
    if i < t.inj || (rated && (t.rate + i + 1) % injPeriod s n == 0) then acc + 2 ^ i else acc) 0

/-- `len` bits sent by a lane, with injection. -/
def injectInto (s : State) (n w len : Nat) : State × Nat :=
  let t := s.test n
  let t1 : LaneTest := { t with inj := t.inj - len, rate := if s.flag (Reg.LN_TEST_CTRL_RATE_EN n) then (t.rate + len) % injPeriod s n else 0 }
  (s.setTest n t1, w ^^^ injMask s n len)

/-- A single or burst injection of `bits` bits is requested: dropped while an earlier one is being sent, or in IDLE. -/
def injRequest (s : State) (n bits : Nat) : State :=
  let t := s.test n
  if t.inj = 0 ∧ s.laneState n ≠ 0 then s.setTest n { t with inj := bits } else s

/-- INJ_SINGLE: one transmitted bit is inverted. -/
def execInjSingle (n : Fin 144) (s : State) : Res := okIf s.alive s (injRequest s n.val 1)

/-- INJ_BURST: BURST_LEN transmitted bits are inverted; 0 acts as 1. -/
def execInjBurst (n : Fin 144) (s : State) : Res :=
  okIf s.alive s (injRequest s n.val (max 1 (s.getF (Reg.LN_TEST_CTRL_BURST_LEN n.val))))

/-! ### Patterns -/

/-- The taps of a pattern field: PRBS7, 9, 15, 23, 31; none where the pattern is off (R229). -/
def prbsTaps (pat : Nat) : Option (Nat × Nat) :=
  match pat with
  | 1 => some (7, 6)
  | 2 => some (9, 5)
  | 3 => some (15, 14)
  | 4 => some (23, 18)
  | 5 => some (31, 28)
  | _ => none

/-- The next bit of a pattern after the bits of a history. -/
def prbsNext (t : Nat × Nat) (h : Nat) : Bool := xor (h.testBit (t.1 - 1)) (h.testBit (t.2 - 1))

/-- A bit pushed into a history of 31. -/
def prbsPush (h : Nat) (b : Bool) : Nat := (2 * h + b.toNat) % 2 ^ 31

/-- A lane is in TEST because a pattern field is not off. -/
def patterned (s : State) (n : Nat) : Bool :=
  (prbsTaps (s.getF (Reg.LN_TEST_CTRL_TXPAT n))).isSome || (prbsTaps (s.getF (Reg.LN_TEST_CTRL_RXPAT n))).isSome

/-- `len` bits of the generator; a generator that has not run starts from free bits. -/
def prbsSend (s : State) (n len : Nat) : State × Option Nat :=
  match prbsTaps (s.getF (Reg.LN_TEST_CTRL_TXPAT n)) with
  | none => (s, none)
  | some t =>
    let d := s.draw
    let s0 := if (s.test n).gen % 2 ^ t.1 = 0 then d.2 else s
    let g0 := if (s.test n).gen % 2 ^ t.1 = 0 then Config.prbsSeed d.1 % (2 ^ t.1 - 1) + 1 else (s.test n).gen
    let r := (List.range len).foldl (fun (acc : Nat × Nat) i =>
      let b := prbsNext t acc.2
      (acc.1 + b.toNat * 2 ^ i, prbsPush acc.2 b)) (0, g0)
    let w := if s.flag (Reg.LN_TEST_CTRL_INV n) then 2 ^ len - 1 - r.1 else r.1
    (s0.setTest n { s0.test n with gen := r.2 }, some w)

/-- A bit compared with the running prediction and counted; 32 errors within 1,024 bits end synchronisation (R229). -/
def prbsCompare (t : LaneTest) (p b : Bool) : LaneTest :=
  let e := (xor b p).toNat
  let errs := t.errs + e - (t.win.testBit 1023).toNat
  let t1 := { t with chk := prbsPush t.chk p, win := (2 * t.win + e) % 2 ^ 1024, errs := errs, bits := min (t.bits + 1) (2 ^ 48 - 1) }
  if 32 ≤ errs then { t1 with cmp := false, lost := true, run := 0, win := 0, errs := 0 } else t1

/-- A bit from which the checker seeds itself: 64 consecutive ones that agree with the prediction synchronise it (R229). -/
def prbsSeed (t : LaneTest) (p b : Bool) : LaneTest :=
  let run := if b = p then t.run + 1 else 0
  { t with chk := prbsPush t.chk b, run := run, cmp := decide (64 ≤ run) }

/-- One received bit at the checker, and the errors so far. -/
def prbsBit (taps : Nat × Nat) (acc : LaneTest × Nat) (b : Bool) : LaneTest × Nat :=
  let t := acc.1
  let p := prbsNext taps t.chk
  if t.cmp then (prbsCompare t p b, acc.2 + (xor b p).toNat) else (prbsSeed t p b, acc.2)

/-- `len` received bits at the checker of a lane in TEST. -/
def prbsReceive (s : State) (n w len : Nat) : State :=
  match prbsTaps (s.getF (Reg.LN_TEST_CTRL_RXPAT n)) with
  | none => s
  | some taps =>
    let inv := s.flag (Reg.LN_TEST_CTRL_INV n)
    let t := s.test n
    let r := (List.range len).foldl (fun acc i => prbsBit taps acc (xor (w.testBit i) inv)) (t, 0)
    let before := if t.bitsAt.1 = s.time.slots then t.bitsAt.2 else 0
    let t1 := { r.1 with bitsAt := if s.logs then (s.time.slots, before + (r.1.bits - t.bits)) else t.bitsAt }
    (s.setTest n t1).addF (Reg.LN_PRBS_ERR_ERR_CNT n) r.2

/-- PRBS_CHECKER_SYNC: 64 consecutive bits have agreed with the prediction (R229). -/
def execPrbsCheckerSync (n : Fin 144) (s : State) : Res :=
  okIf (s.laneState n.val == 7 && (prbsTaps (s.getF (Reg.LN_TEST_CTRL_RXPAT n.val))).isSome && (s.test n.val).cmp &&
      !s.flag (Reg.LN_TEST_STAT_SYNC n.val)) s
    (s.raiseF (Reg.LN_TEST_STAT_SYNC n.val))

/-- PRBS_SYNC_LOSS: 32 or more errors have fallen within 1,024 bits: SYNC clears, SYNC_LOSS is set, event n raised; the checker has
seeded itself again from the bit after the last of them (R229, R233). -/
def execPrbsSyncLoss (n : Fin 144) (s : State) : Res :=
  okIf (s.laneState n.val == 7 && (s.test n.val).lost) s
    ((((s.clearF (Reg.LN_TEST_STAT_SYNC n.val)).raiseF (Reg.LN_TEST_STAT_SYNC_LOSS n.val)).raiseEv n.val).setTest n.val
      { s.test n.val with lost := false })

/-- A read of LN_PRBS_ERR without the peek attribute: the error count is returned and cleared, the compared-bit count
captured and cleared (R229). Errors and bits of the slot of the read are carried on (R233). -/
def prbsErrRead (s : State) (n : Nat) : State × Word32 :=
  let t := s.test n
  let now := if s.logs ∧ t.bitsAt.1 = s.time.slots then t.bitsAt.2 else 0
  let b := t.bits - now
  let s1 := (s.setReg (Reg.LN_PRBS_BITS_LO n) (BitVec.ofNat 32 (b % 2 ^ 32))).setReg (Reg.LN_PRBS_BITS_HI n) (BitVec.ofNat 32 (b / 2 ^ 32))
  ((s1.rc (Reg.LN_PRBS_ERR n) 0xFFFFFFFF#32).setTest n { t with bits := now }, s.rcValue (Reg.LN_PRBS_ERR n) 0xFFFFFFFF#32)

/-- PRBS_ERR_READ. -/
def execPrbsErrRead (n : Fin 144) (s : State) : Res :=
  let r := prbsErrRead s n.val
  okIf s.alive s { r.1 with resp := ⟨0, BitVec.ofNat 64 r.2.toNat⟩ }

/-! ### Loopbacks -/

/-- What a lane's receiver takes: the bits on the line, or what the lane itself sends, in the near-end serial and PCS
loopbacks (R231). -/
def loopedBack (s : State) (n sent line : Nat) : Nat :=
  let lb := s.getF (Reg.LN_TEST_CTRL_LB n)
  if lb = 1 ∨ lb = 2 then sent else line

end Sys2Proof.Machine
end

