-- ==== Sys2Proof/Machine/FeLane.lean ====
section
/-!
DEFINITION. Front-end lanes (09_frontend_lanes.md R173 to R190): quad mode and rate, alignment, received and transmitted
words.
-/

namespace Sys2Proof.Machine

def State.setFe (s : State) (n : Nat) (l : FeLane) : State := { s with fe := tset (fun _ => FeLane.reset) s.fe n l }

/-! ### Mode and rate -/

/-- The front-end rate of a quad breaks R175 under the root reference and M in force: R = 20·J·f_ref lies outside 2.4 to
16 Gbit/s, or exceeds 10·CX. -/
def feRateBad (s : State) (j : Nat) : Bool :=
  let r := 20 * j * s.refHz
  j == 0 || r < 2400000000 || 16000000000 < r || s.rootM < 8 * j

/-- RATE_ERR evaluated afresh; event 144 + q when it changes from 0 to 1 (R176). -/
def feRateCheck (s : State) (q : Nat) : State :=
  let bad := s.getF (Reg.LQ_MODE_MODE q) == 1 && feRateBad s (s.getF (Reg.LQ_MODE_FE_J q))
  let s1 := s.putF (Reg.LQ_MODE_RATE_ERR q) bad
  if bad && !s.flag (Reg.LQ_MODE_RATE_ERR q) then s1.raiseEv (144 + q) else s1

/-- The front-end results of a lane clear when its quad leaves front-end mode. -/
def feClear (s : State) (n : Nat) : State :=
  (((((s.setReg (Reg.LN_FE_STAT n) 0).setReg (Reg.LN_FE_ERR n) 0).setReg (Reg.LN_FE_DISC n) 0).setReg
    (Reg.LN_FE_CNT n) 0)).setFe n FeLane.reset

/-- Every lane of a quad has bring-up disabled. -/
def quadDisabled (s : State) (q : Nat) : Bool :=
  (List.range 4).all (fun l => !s.flag (Reg.LN_BU_CTRL_EN (4 * q + l)))

/-- A write of LQ_MODE (R174): BADCFG is W1C; MODE and FE_J change only while bring-up is disabled on every lane. -/
def lqModeWrite (s : State) (q : Nat) (v : Word32) : State :=
  let x := v.toNat
  let mode := nbits x 1 0
  let j := nbits x 15 8
  let same := mode == s.getF (Reg.LQ_MODE_MODE q) && j == s.getF (Reg.LQ_MODE_FE_J q)
  let s0 := s.w1c (Reg.LQ_MODE q) (v &&& 0x80000000#32)
  if same then s0
  else if quadDisabled s q then
    let leaves := s.getF (Reg.LQ_MODE_MODE q) == 1 && mode != 1
    let s1 := (s0.setF (Reg.LQ_MODE_MODE q) mode).setF (Reg.LQ_MODE_FE_J q) j
    let s2 := if leaves then (List.range 4).foldl (fun acc l => feClear acc (4 * q + l)) s1 else s1
    feRateCheck s2 q
  else s0.raiseF (Reg.LQ_MODE_BADCFG q)

/-! ### Alignment -/

/-- The code-groups of the commas that COMMA_EN accepts, in both columns, with the running disparity after each (R178, R181). -/
def commaGroups (en : Nat) : List (Nat × Bool) :=
  ([0x3C, 0xBC, 0xFC].zipIdx.filter (fun vi => en.testBit vi.2)).flatMap
    (fun vi => [encode8b10b true vi.1 false, encode8b10b true vi.1 true])

/-- The accepted comma that ten bits are: the running disparity after it. -/
def commaAt (en g : Nat) : Option Bool := ((commaGroups en).find? (fun c => c.1 == g)).map (fun c => c.2)

/-- A whole character at offset 0 of the search that is not its last comma: a code violation begins the search again, a comma counts. -/
def CommaSearch.char (en : Nat) (c : CommaSearch) : CommaSearch :=
  let x := decode8b10b c.win c.rd
  match c.need with
  | none => c
  | some k => if x.cv then { c with need := none } else { c with rd := x.rd, need := some (k - ((commaAt en c.win).isSome).toNat) }

/-- One bit of the search of R181: a comma found while none counts, or at a nonzero offset, slips the character clock by its offset; the
last comma awaited at offset 0 ends the search. -/
def CommaSearch.bit (en alignN : Nat) (c : CommaSearch) (b : Bool) : CommaSearch :=
  if c.done.isSome then c
  else
    let c1 := { c with win := c.win / 2 + 512 * b.toNat, seen := min 10 (c.seen + 1), cnt := (c.cnt + 1) % 10 }
    match (if c1.seen = 10 then commaAt en c1.win else none) with
    | some rd =>
      if c.need.isNone || c1.cnt != 0 then { c1 with slip := c1.slip + c1.cnt, cnt := 0, need := some (max 1 alignN), rd := rd }
      else if c.need == some 1 then { c1 with done := some c1.rd }
      else c1.char en
    | none => if c1.cnt = 0 then c1.char en else c1

/-- The search carried on over received bits, earliest first, inverted where POL_RX says so. -/
def feSearch (s : State) (n : Nat) (bits : List Bool) : CommaSearch :=
  let inv := s.flag (Reg.LN_FE_CTRL_POL_RX n)
  bits.foldl (fun c b => c.bit (s.getF (Reg.LN_FE_CTRL_COMMA_EN n)) (s.getF (Reg.LN_FE_CTRL_ALIGN_N n)) (xor b inv)) (s.feLane n).srch

/-- The placement of R182 for a word that completes at a time in 1,024ths of a slot, captured `d` + w slots before its presentation: w, the
capture edge, and whether the margin is left. A capture edge lies at most one slot after the first edge that leaves the margin (DEDUCED
from R186, log 126). -/
def placeWord (d place done : Nat) : Nat × Nat × Bool :=
  if 1 ≤ place ∧ place ≤ 8 then
    let first := (done + 128 + 1023) / 1024
    let cap := first + (8 - (first + d + (place - 1)) % 8) % 8
    (place - 1, cap, decide (1024 * cap ≤ done + 1536))
  else
    let cap := (done + 512 + 1023) / 1024
    ((8 - (cap + d) % 8) % 8, cap, true)

/-- The lane aligns: ALIGNED, WAIT, the read offset, and ACTIVE (R181, R182, R218). -/
def feAlign (s : State) (n w cap done : Nat) (c : CommaSearch) (rd : Bool) : State :=
  let l := s.feLane n
  let s1 := ((s.raiseF (Reg.LN_FE_STAT_ALIGNED n)).setF (Reg.LN_FE_STAT_WAIT n) w).laneTo n 6
  let buf : PhaseBuf := { done0 := done, e := 1024 * cap - done, first := cap + 30 + w, rebase := !s.logs }
  let l1 := { l with srch := c, buf := buf, commas := s.getF (Reg.LN_FE_CTRL_COMMA_EN n), gotAt := none, last := none, rxRd := rd, cv := [],
                     txRd := false, actSlot := s.time.slots - s.time.inTick, period := 4 * s.time.tickSlots }
  (((s1.incF (Reg.LN_BU_CNT_ACT_CNT n)).raiseEv n)).setFe n l1

/-- The bits that the search takes: those received, or in the near-end serial and PCS loopbacks as many of the lane's own stream, the word
sent last over and over (R231). -/
def feReturned (s : State) (n : Nat) (line : List Bool) : List Bool :=
  let lb := s.getF (Reg.LN_TEST_CTRL_LB n)
  if lb = 1 ∨ lb = 2 then (List.range line.length).map (fun i => (s.feLane n).txWord.getLsbD (i % 80)) else line

/-- FE_ALIGNMENT: the search of a lane in SYMLOCK goes on over the bits received since it last did. Where it completes, the word whose
character 0 is the alignment comma completes `phase` 1,024ths of a slot after the present slot begins: the arrival phase, from which the
placement follows. A forced placement without its margin sets ALIGN_FAIL, and the search is repeated (R181, R182). -/
def execFeAlignment (n : Fin 144) (line : List Bool) (phase : Nat) (_ _ : Unit) (s0 : State) : Res :=
  let s := s0.untimed n
  let c := feSearch s n (feReturned s n line)
  let s1 := (s.setFe n { s.feLane n with srch := c }).setF (Reg.LN_FE_STAT_SLIP n) (c.slip % 80)
  let done := 1024 * s.time.slots + phase
  let p := placeWord 30 (s.getF (Reg.LN_FE_CTRL_PLACE n)) done
  if s.laneMode n == 1 && s.laneState n == 4 then
    match (if p.2.2 then c.done else none) with
    | some rd => ok (feAlign s1 n p.1 p.2.1 done c rd)
    | none =>
      let again := { s.feLane n with srch := { CommaSearch.reset with slip := c.slip } }
      okIf (s0.laneState n == 4) s0
        (if c.done.isNone then s1 else ((s1.setFe n again).raiseF (Reg.LN_FE_STAT_ALIGN_FAIL n)).raiseEv n)
  else ok s0

/-- What a lane that leaves its state or its alignment keeps: what the port shows to the end of the beat, and its transmitter. -/
def FeLane.left (beat : Nat) (l : FeLane) : FeLane :=
  { FeLane.reset with words := l.words.filter (fun x => x.1 == beat), live := l.live, timedAt := l.timedAt, txRd := l.txRd,
                      actSlot := l.actSlot, period := l.period, sentAt := l.sentAt, txWord := l.txWord, pins := l.pins }

/-- A front-end lane enters SYMLOCK: the search begins, and SLIP restarts from 0 (R181). -/
def feSymlock (s : State) (n : Nat) : State :=
  (((s.setFe n ((s.feLane n).left s.beatSlot)).clearF (Reg.LN_FE_STAT_ALIGNED n)).setF (Reg.LN_FE_STAT_SLIP n) 0).laneTo n 4

/-- Alignment ends (R183): LOCK_LOSS, RELOCK_CNT, event n, and the lane goes back to SYMLOCK. -/
def feLose (s : State) (n : Nat) : State :=
  (((feSymlock s n).raiseF (Reg.LN_FE_STAT_LOCK_LOSS n)).incF (Reg.LN_FE_CNT_RELOCK_CNT n)).raiseEv n

/-- A drift of the arrival phase in 1,024ths of a slot, positive to later completion, exceeds the margin left at alignment (R183). Without
a drift nothing is lost, also where the capture edge lies more than a slot after the completion (DEDUCED, log 126). -/
def driftLost (l : FeLane) (drift : Int) : Bool :=
  decide ((l.buf.e : Int) < drift) || (decide (drift < 0) && decide (1024 - (l.buf.e : Int) < -drift))

/-- FE_ALIGNMENT_LOSS: the arrival phase of an aligned lane has drifted since its alignment: beyond the margin it sets PHASE_ERR and
ends alignment. The other causes of R183 lie in what is received (FE_WORD_RECEIVE) and in a write of POL_RX. -/
def execFeAlignmentLoss (n : Fin 144) (drift : Int) (s : State) : Res :=
  okIf (feLocked s n && driftLost (s.feLane n) drift) s (feLose (s.raiseF (Reg.LN_FE_STAT_PHASE_ERR n)) n)

/-! ### Receive -/

/-- The bits of a word of eight code-groups, inverted where the polarity bit says so. -/
def polarised (inv : Bool) (w : BitVec 80) : Nat := if inv then (~~~w).toNat else w.toNat

/-- What the receiver knows as it takes the code-groups of a word: disparity, violations among the last 63 characters, the code-group
before, the characters decoded, and whether alignment was lost. -/
structure RxScan where
  rd : Bool
  cv : List Bool
  last : Option Nat
  cs : List RxChar
  lost : Bool
  deriving DecidableEq, Repr

/-- An accepted comma lies at a nonzero bit offset across two code-groups (R183). -/
def commaAcross (en : Nat) (last : Option Nat) (g : Nat) : Bool :=
  match last with
  | none => false
  | some p => (List.range 9).any (fun o => (commaAt en ((p + 1024 * g) / 2 ^ (o + 1) % 1024)).isSome)

/-- One code-group of an aligned lane: decoded, and alignment lost by LOSS_CV violations within 64 characters or by a comma at a nonzero
offset (R179, R183). -/
def RxScan.group (en lim : Nat) (r : RxScan) (g : Nat) : RxScan :=
  if r.lost then r
  else
    let x := decode8b10b g r.rd
    let cv := x.cv :: r.cv
    { rd := x.rd, cv := cv.take 63, last := some g, cs := r.cs ++ [x],
      lost := decide (max 1 lim ≤ (cv.filter id).length) || commaAcross en r.last g }

/-- The eight code-groups of a word taken in order by an aligned lane. -/
def feScan (s : State) (n w : Nat) : RxScan :=
  let l := s.feLane n
  (List.range 8).foldl (fun r c => r.group l.commas (s.getF (Reg.LN_FE_CTRL_LOSS_CV n)) (w / 2 ^ (10 * c) % 1024))
    { rd := l.rxRd, cv := l.cv, last := l.last, cs := [], lost := false }

/-- The phase buffer in force for a word that completes in the present slot: after a debug halt that word becomes word 0, the read offset
and with it the placement w as they were (R189); it is presented in the next beat to begin 30 + w slots after its capture, or later
(DESIGN CHOICE, log 147). -/
def PhaseBuf.at (slot w : Nat) (p : PhaseBuf) : PhaseBuf :=
  let done := 1024 * slot + (1024 - p.e % 1024) % 1024
  if p.rebase then { p with done0 := done, first := ((done + p.e) / 1024 + 37 + w) / 8 * 8, rebase := false } else p

/-- The word that completes in a slot, by its number from word 0: words of 8 characters lie M/J slots apart (R177). -/
def PhaseBuf.word (p : PhaseBuf) (m j slot : Nat) : Option Nat :=
  let i := ((1024 * slot - p.done0) * j + 1024 * m - 1) / (1024 * max 1 m)
  if p.done0 * j + 1024 * i * m < 1024 * (slot + 1) * j then some i else none

/-- The slot from which a word is presented: the same beats of every period of 4 ticks, M slots (R177, R182). -/
def PhaseBuf.shows (p : PhaseBuf) (m j i : Nat) : Nat := p.first + 8 * ((i * m + 8 * j - 1) / (8 * max 1 j))

/-- A word received by an aligned lane while slots run: into the phase buffer; while they are stopped only errors count (R184, R189). -/
def feTake (s : State) (n w : Nat) (put : List RxChar → FeLane → FeLane) : State :=
  let r := feScan s n w
  let count := fun (p : RxChar → Bool) => (r.cs.filter p).length
  let s1 := (s.addF (Reg.LN_FE_ERR_CV_CNT n) (count (fun c => c.cv))).addF (Reg.LN_FE_ERR_RD_CNT n) (count (fun c => c.rdErr))
  if r.lost then feLose s1 n
  else s1.setFe n (put r.cs { s.feLane n with rxRd := r.rd, cv := r.cv, last := r.last })

/-- FE_WORD_RECEIVE: a word of eight code-groups completes. An aligned lane decodes and checks it, and puts it into the phase buffer where
a word completes in the present slot; while slots are stopped it only counts errors. In TEST the bits go to the checker; every lane keeps
the bits recovered last (R179, R184, R189, R229, R231). -/
def execFeWordReceive (n : Fin 144) (w : BitVec 80) (s0 : State) : Res :=
  let l := s0.feLane n
  let bits : BitVec 80 := BitVec.ofNat 80 (loopedBack s0 n l.txWord.toNat w.toNat)
  let s := s0.setTest n { s0.test n with raw := bits.toNat }
  let v := polarised (s0.flag (Reg.LN_FE_CTRL_POL_RX n)) bits
  let j := s0.getF (Reg.LQ_MODE_FE_J (n / 4))
  let slot := s0.time.slots
  let buf := l.buf.at slot (s0.getF (Reg.LN_FE_STAT_WAIT n))
  if s0.laneMode n == 1 && s0.laneState n == 7 then ok (prbsReceive s n v 80)
  else if !feLocked s0 n then ok s
  else if !s0.logs then ok (feTake s n v (fun _ l1 => l1))
  else
    match (if l.gotAt == some slot then none else buf.word s0.rootM j slot) with
    | none => ok s0
    | some i =>
      ok (feTake s n v (fun cs l1 => { l1 with buf := buf, gotAt := some slot, words := l.words ++ [(buf.shows s0.rootM j i, cs)] }))

/-- The clearing window discards the words of the beat that begins (R184). -/
def feDiscards (s : State) : State :=
  if s.k = 0 ∧ s.clrOpen then
    (tkeys id s.fe).foldl (fun acc n => if (feBeatWord s n).isSome then acc.addF (Reg.LN_FE_DISC_DISC_CNT n) 8 else acc) s
  else s

/-- The end of a beat: its words are gone, and LOCKED and TX_RDY of the next are those of the lane as it then stands (Table 9.3). -/
def feBeatEnd (s : State) : State :=
  if s.k = 7 then
    let f := fun (n : Nat) (l : FeLane) =>
      { l with words := l.words.filter (fun x => decide (s.time.slots < x.1)), live := feLocked s n }
    { s with fe := tmap (fun _ => FeLane.reset) f s.fe }
  else s

/-- The slot clock restarts after a debug halt: words that completed before it are lost (R189). -/
def feResume (s : State) : State :=
  let f := fun (_ : Nat) (l : FeLane) =>
    if l.buf = PhaseBuf.reset then { l with words := [] } else { l with words := [], buf := { l.buf with rebase := true } }
  { s with fe := tmap (fun _ => FeLane.reset) f s.fe }

/-! ### Transmit -/

/-- Eight characters coded in order: the code-groups, the disparity after them, and how many were no special code-group
(R178, R180). -/
def encodeWord (data ks : Nat) (rd : Bool) : Nat × Bool × Nat :=
  (List.range 8).foldl (fun (acc : Nat × Bool × Nat) c =>
    let v := data / 2 ^ (8 * c) % 256
    let k := ks.testBit c
    let badK := k && !specialGroups.contains v
    let e := encode8b10b k (if badK then 0xFE else v) acc.2.1
    (acc.1 + e.1 * 2 ^ (10 * c), e.2, acc.2.2 + badK.toNat)) (0, rd, 0)

/-- The fill word: four /I2/ ordered sets, K28.5 D16.2 (R185). -/
def fillData : Nat := 0x50BC50BC50BC50BC
def fillKs : Nat := 0x55

/-- A word leaves a lane: it is what the loopbacks return, and the pins carry it but in PCS loopback, where they stay idle (R231). -/
def feOut (s : State) (n out : Nat) (rd : Bool) : State :=
  let w := BitVec.ofNat 80 out
  let l := s.feLane n
  let pins := if s.getF (Reg.LN_TEST_CTRL_LB n) = 2 then none else some w
  s.setFe n { l with txRd := rd, txWord := w, pins := pins, sentAt := if s.logs then some s.time.slots else l.sentAt }

/-- A word of ten-bit groups sent by a lane: polarity, then injection (R230). -/
def feSend (s : State) (n w : Nat) (rd : Bool) : State :=
  let sent : BitVec 80 := BitVec.ofNat 80 w
  let pol := if s.flag (Reg.LN_FE_CTRL_POL_TX n) then ~~~sent else sent
  let (s1, out) := injectInto s n pol.toNat 80
  feOut s1 n out rd

/-- FE_WORD_TRANSMIT: at k = 7 of a beat with TX_RDY the word of the active plane is coded and sent, or a fill word where
its valid input is 0 or the sector is held; fill words too while the slot clock is stopped and in training; in TEST the
pattern; in far-end loopback the bits received, also where a pattern is set (R185, R189, R218, R229, R231; the latter DESIGN CHOICE, log
144). A lane that has lost alignment within a beat with TX_RDY sends a fill word in it (DESIGN CHOICE, log 148). -/
def execFeWordTransmit (n : Fin 144) (s : State) : Res :=
  let l := s.feLane n
  let sec := landing n
  let v := s.view
  let g := tileOf sec 11 4
  let st := s.laneState n
  let fe := s.laneMode n == 1
  let runs := s.slotRuns && s.k == 7 && feTxReady s n && fe && st == 6 && l.sentAt != some s.time.slots
  let trains := fe && (st == 2 || st == 3 || st == 4 || st == 7)
  let halted := fe && st == 6 && !s.logs
  if runs || halted || trains then
    if s.getF (Reg.LN_TEST_CTRL_LB n) = 3 then
      let (s1, out) := injectInto s n (s.test n).raw 80
      ok (feOut s1 n out l.txRd)
    else
      match (if st = 7 then prbsSend s n 80 else (s, none)) with
      | (s1, some w) => ok (feSend s1 n w l.txRd)
      | _ =>
        let valid := runs && !s.held sec && v.afIn g 792
        let data := if valid then v.afBus g 0 64 else fillData
        let ks := if valid then v.afBus g 704 8 else fillKs
        let (w, rd, badN) := encodeWord data ks l.txRd
        let s1 := feSend s n w rd
        if badN = 0 then ok s1
        else ok (((s1.raiseF (Reg.LN_FE_STAT_TXBADK n)).addF (Reg.LN_FE_CNT_TXBADK_CNT n) badN).raiseEv n)
  else ok s

/-- A write of LN_FE_CTRL: ignored outside front-end mode; a change of POL_RX ends alignment (R183, R189). -/
def feCtrlWrite (s : State) (n : Nat) (v : Word32) : State :=
  if s.laneMode n = 1 then
    let turned := v.getLsbD 16 != s.flag (Reg.LN_FE_CTRL_POL_RX n)
    let s1 := s.setReg (Reg.LN_FE_CTRL n) (v &&& 0x0003FFF7#32)
    if turned && feLocked s n then feLose s1 n else s1
  else s

/-- POLARITY_WRITE: a write of LN_FE_CTRL. -/
def execPolarityWrite (n : Fin 144) (v : Word32) (s : State) : Res :=
  okIf s.alive s (feCtrlWrite s n v)

end Sys2Proof.Machine
end

