-- ==== Sys2Proof/Machine/Crypto.lean ====
section
/-!
DEFINITION. The functions the spec takes from public standards, over lists of octets (numbers below 256, first octet
first): the CRC-32 of IEEE 802.3, AES-256 (FIPS 197), GCM (SP 800-38D), XTS (IEEE 1619), the key wrap of RFC 3394 and
SHA-384 (FIPS 180-4).
-/

namespace Sys2Proof.Machine

/-! ### Octets -/

/-- The n octets of a number, least significant first. -/
def leBytes (n x : Nat) : List Nat := (List.range n).map (fun i => x / 256 ^ i % 256)

/-- The number whose octets, least significant first, are given. -/
def leNat (bs : List Nat) : Nat := bs.foldr (fun b acc => b + 256 * acc) 0

/-- The n octets of a number, most significant first. -/
def beBytes (n x : Nat) : List Nat := (leBytes n x).reverse

/-- The number whose octets, most significant first, are given. -/
def beNat (bs : List Nat) : Nat := bs.foldl (fun acc b => 256 * acc + b) 0

/-- Octet by octet exclusive or. -/
def xorBytes (a b : List Nat) : List Nat := List.zipWith (· ^^^ ·) a b

/-- A list cut into pieces of n, the last one possibly shorter; `fuel` bounds the number of pieces. -/
def chunks (n : Nat) : Nat → List Nat → List (List Nat)
  | 0, _ => []
  | fuel + 1, l => if l.isEmpty then [] else l.take n :: chunks n fuel (l.drop n)

/-- A list padded with zeros to a multiple of n. -/
def padTo (n : Nat) (l : List Nat) : List Nat := l ++ List.replicate ((n - l.length % n) % n) 0

/-! ### CRC-32 -/

/-- One octet fed to the reflected CRC register. -/
def crcStep (c b : Nat) : Nat :=
  (List.range 8).foldl (fun acc _ => if acc % 2 = 1 then acc / 2 ^^^ 0xEDB88320 else acc / 2) (c ^^^ b)

/-- The frame check sequence of IEEE 802.3 Clause 3 as a number, bit 0 first on the line. -/
def crc32 (bs : List Nat) : Nat := bs.foldl crcStep 0xFFFFFFFF ^^^ 0xFFFFFFFF

/-! ### AES-256 -/

/-- Twice an element of GF(2^8) with x^8 + x^4 + x^3 + x + 1. -/
def xtime (a : Nat) : Nat := if 128 ≤ a then (2 * a ^^^ 0x11B) % 256 else 2 * a

/-- The product in GF(2^8). -/
def gf8Mul (a b : Nat) : Nat :=
  ((List.range 8).foldl (fun (acc : Nat × Nat) i =>
    (if b.testBit i then acc.1 ^^^ acc.2 else acc.1, xtime acc.2)) (0, a)).1

/-- The inverse in GF(2^8), a^254; 0 for 0. -/
def gf8Inv (a : Nat) : Nat :=
  let a2 := gf8Mul a a
  let a3 := gf8Mul a2 a
  let a12 := let y := gf8Mul a3 a3; gf8Mul y y
  let a15 := gf8Mul a12 a3
  let a240 := (List.range 4).foldl (fun y _ => gf8Mul y y) a15
  gf8Mul a240 (gf8Mul a12 a2)

/-- Rotation of an octet to the left. -/
def rotl8 (a n : Nat) : Nat := (a * 2 ^ n) % 256 + a / 2 ^ (8 - n)

/-- The substitution box of FIPS 197. -/
def aesSub (a : Nat) : Nat :=
  let b := gf8Inv a
  b ^^^ rotl8 b 1 ^^^ rotl8 b 2 ^^^ rotl8 b 3 ^^^ rotl8 b 4 ^^^ 0x63

/-- The inverse substitution box. -/
def aesInvSub (a : Nat) : Nat := gf8Inv (rotl8 a 1 ^^^ rotl8 a 3 ^^^ rotl8 a 6 ^^^ 0x05)

/-- The 15 round keys of a 256-bit key, each 16 octets. -/
def aesKeys (key : List Nat) : List (List Nat) :=
  let start : List (List Nat) := (List.range 8).map (fun i => (key.drop (4 * i)).take 4)
  let ws := (List.range 52).foldl (fun (acc : List (List Nat) × Nat) j =>
    let i := j + 8
    let t := acc.1.getD (i - 1) []
    let back := acc.1.getD (i - 8) []
    if i % 8 = 0 then
      let r := (t.drop 1 ++ t.take 1).map aesSub
      (acc.1 ++ [xorBytes back (xorBytes r [acc.2, 0, 0, 0])], xtime acc.2)
    else if i % 8 = 4 then (acc.1 ++ [xorBytes back (t.map aesSub)], acc.2)
    else (acc.1 ++ [xorBytes back t], acc.2)) (start, 1)
  (List.range 15).map (fun r => ((ws.1.drop (4 * r)).take 4).flatten)

/-- ShiftRows on a state in column order. -/
def shiftRows (s : List Nat) : List Nat := (List.range 16).map (fun i => s.getD ((i + 4 * (i % 4)) % 16) 0)

/-- InvShiftRows. -/
def invShiftRows (s : List Nat) : List Nat := (List.range 16).map (fun i => s.getD ((i + 12 * (i % 4)) % 16) 0)

/-- Each column multiplied by the circulant matrix of the four coefficients. -/
def mixWith (c : List Nat) (s : List Nat) : List Nat :=
  (List.range 16).map (fun i => (List.range 4).foldl (fun acc j =>
    acc ^^^ gf8Mul (c.getD j 0) (s.getD (4 * (i / 4) + (i + j) % 4) 0)) 0)

/-- AES-256 encryption of one block. -/
def aesEnc (key blk : List Nat) : List Nat :=
  let ks := aesKeys key
  let s0 := xorBytes blk (ks.getD 0 [])
  let s1 := (List.range 13).foldl (fun s r =>
    xorBytes (mixWith [2, 3, 1, 1] (shiftRows (s.map aesSub))) (ks.getD (r + 1) [])) s0
  xorBytes (shiftRows (s1.map aesSub)) (ks.getD 14 [])

/-- AES-256 decryption of one block. -/
def aesDec (key blk : List Nat) : List Nat :=
  let ks := aesKeys key
  let s0 := xorBytes blk (ks.getD 14 [])
  let s1 := (List.range 13).foldl (fun s r =>
    mixWith [14, 11, 13, 9] (xorBytes ((invShiftRows s).map aesInvSub) (ks.getD (13 - r) []))) s0
  xorBytes ((invShiftRows s1).map aesInvSub) (ks.getD 0 [])

/-- D(K, c): the key that the vault derives from a key and a label (R296). -/
def deriveKey (key : List Nat) (c : Nat) : List Nat :=
  let blk := fun (last : Nat) => c :: List.replicate 14 0 ++ [last]
  aesEnc key (blk 1) ++ aesEnc key (blk 2)

/-! ### GCM -/

/-- The product of two blocks in GF(2^128) of SP 800-38D, blocks as numbers, first octet most significant. -/
def ghashMul (x y : Nat) : Nat :=
  ((List.range 128).foldl (fun (acc : Nat × Nat) i =>
    let z := if x.testBit (127 - i) then acc.1 ^^^ acc.2 else acc.1
    let v := if acc.2 % 2 = 1 then acc.2 / 2 ^^^ 0xE1000000000000000000000000000000 else acc.2 / 2
    (z, v)) (0, y)).1

/-- GHASH under H of octets whose number is a multiple of 16. -/
def ghash (h : Nat) (bs : List Nat) : Nat :=
  (chunks 16 (bs.length / 16 + 1) bs).foldl (fun acc b => ghashMul (acc ^^^ beNat b) h) 0

/-- Block i of the key stream of GCM with a 96-bit IV; data block j uses i = j + 2, the tag i = 1. -/
def gcmStream (key iv : List Nat) (i : Nat) : List Nat := aesEnc key (iv ++ beBytes 4 i)

/-- Octets encrypted or decrypted by the GCM key stream. -/
def gcmCrypt (key iv data : List Nat) : List Nat :=
  ((chunks 16 (data.length / 16 + 1) data).zipIdx.map (fun bi => xorBytes bi.1 (gcmStream key iv (bi.2 + 2)))).flatten

/-- The 16-octet tag over additional data and ciphertext. -/
def gcmTag (key iv aad ct : List Nat) : List Nat :=
  let h := beNat (aesEnc key (List.replicate 16 0))
  let body := padTo 16 aad ++ padTo 16 ct ++ beBytes 8 (8 * aad.length) ++ beBytes 8 (8 * ct.length)
  xorBytes (beBytes 16 (ghash h body)) (gcmStream key iv 1)

/-! ### XTS -/

/-- The tweak times the primitive element, octets least significant first. -/
def xtsTimes (t : List Nat) : List Nat :=
  let x := 2 * leNat t
  leBytes 16 (if 2 ^ 128 ≤ x then (x - 2 ^ 128) ^^^ 0x87 else x)

/-- A 64-octet data unit of sequence number n encrypted (or decrypted) in XTS mode. -/
def xtsUnit (dec : Bool) (key1 key2 : List Nat) (n : Nat) (data : List Nat) : List Nat :=
  ((chunks 16 5 data).foldl (fun (acc : List Nat × List Nat) b =>
    let x := xorBytes b acc.2
    let y := if dec then aesDec key1 x else aesEnc key1 x
    (acc.1 ++ xorBytes y acc.2, xtsTimes acc.2)) ([], aesEnc key2 (leBytes 16 n))).1

/-! ### Key wrap -/

/-- The unwrap of RFC 3394: the n 64-bit halves that follow the integrity value, if it is A6A6A6A6A6A6A6A6. -/
def keyUnwrap (kek ct : List Nat) : Option (List Nat) :=
  let n := ct.length / 8 - 1
  let r0 := chunks 8 (n + 1) (ct.drop 8)
  let out := (List.range (6 * n)).foldl (fun (acc : List Nat × List (List Nat)) j =>
    let t := 6 * n - j
    let i := (t - 1) % n
    let b := aesDec kek (xorBytes acc.1 (beBytes 8 t) ++ acc.2.getD i [])
    (b.take 8, acc.2.set i (b.drop 8))) (ct.take 8, r0)
  if out.1 = List.replicate 8 0xA6 then some out.2.flatten else none

/-! ### SHA-384 -/

/-- The largest number of n bits whose k-th power is at most x, one bit after another from the highest. -/
def rootFloor (k n x : Nat) : Nat :=
  (List.range n).foldl (fun r i => let t := r + 2 ^ (n - 1 - i); if t ^ k ≤ x then t else r) 0

/-- The first 80 primes. -/
def shaPrimes : List Nat :=
  (List.range 410).filter (fun p => 2 ≤ p && (List.range p).all (fun d => d < 2 || p % d != 0))

/-- The first 64 bits of the fraction of the k-th root of a prime below 512. -/
def rootFraction (k p : Nat) : Nat := rootFloor k 69 (p * 2 ^ (64 * k)) % 2 ^ 64

/-- The round constants of SHA-384: FIPS 180-4 takes them from the cube roots of the first 80 primes. -/
def roundWords : List Nat := shaPrimes.map (rootFraction 3)

/-- The initial value of SHA-384: FIPS 180-4 takes it from the square roots of the ninth to the sixteenth prime. -/
def firstHash : List Nat := ((shaPrimes.drop 8).take 8).map (rootFraction 2)

/-- Rotation of a 64-bit word to the right. -/
def rotr64 (x n : Nat) : Nat := x / 2 ^ n + x % 2 ^ n * 2 ^ (64 - n)

/-- The message schedule of one 128-octet block. -/
def shaSchedule (blk : List Nat) : List Nat :=
  (List.range 64).foldl (fun w j =>
    let i := j + 16
    let a := w.getD (i - 15) 0
    let b := w.getD (i - 2) 0
    let s0 := rotr64 a 1 ^^^ rotr64 a 8 ^^^ a / 2 ^ 7
    let s1 := rotr64 b 19 ^^^ rotr64 b 61 ^^^ b / 2 ^ 6
    w ++ [(w.getD (i - 16) 0 + s0 + w.getD (i - 7) 0 + s1) % 2 ^ 64]) ((chunks 8 17 blk).map beNat)

/-- One block of SHA-512 compression. -/
def shaBlock (h : List Nat) (blk : List Nat) : List Nat :=
  let w := shaSchedule blk
  let r := (List.zip roundWords w).foldl (fun (v : List Nat) kw =>
    let a := v.getD 0 0; let b := v.getD 1 0; let c := v.getD 2 0; let d := v.getD 3 0
    let e := v.getD 4 0; let f := v.getD 5 0; let g := v.getD 6 0; let hh := v.getD 7 0
    let s1 := rotr64 e 14 ^^^ rotr64 e 18 ^^^ rotr64 e 41
    let ch := (e &&& f) ^^^ ((2 ^ 64 - 1 - e) &&& g)
    let t1 := hh + s1 + ch + kw.1 + kw.2
    let s0 := rotr64 a 28 ^^^ rotr64 a 34 ^^^ rotr64 a 39
    let maj := (a &&& b) ^^^ (a &&& c) ^^^ (b &&& c)
    [(t1 + s0 + maj) % 2 ^ 64, a, b, c, (d + t1) % 2 ^ 64, e, f, g]) h
  List.zipWith (fun x y => (x + y) % 2 ^ 64) h r

/-- SHA-384 of a list of octets: 48 octets. -/
def sha384 (msg : List Nat) : List Nat :=
  let l := msg.length
  let padded := msg ++ [0x80] ++ List.replicate ((239 - l % 128) % 128) 0 ++ beBytes 16 (8 * l)
  let h := (chunks 128 (padded.length / 128 + 1) padded).foldl shaBlock firstHash
  ((h.take 6).map (beBytes 8)).flatten

end Sys2Proof.Machine
end

