-- ==== Sys2Proof/Machine/Net.lean ====
section
/-!
DEFINITION. The network on chip (13_network.md): where endpoints sit, how a request is issued, how a router forwards one
flit, and how a target sends its response.
-/

namespace Sys2Proof.Machine

/-! ### Endpoints and addresses -/

/-- Router (x, y, z) as a number: 120·z + 12·y + x. The router of sector s is 120 + s (R255). -/
def routerAt (x y z : Nat) : Nat := 120 * z + 12 * y + x

/-- The router of an initiator (Table 13.1). -/
def initiatorRouter (id : Nat) : Nat :=
  if id < 240 then 120 + id
  else if 0x100 ≤ id ∧ id < 0x1F0 then 120 + (id - 0x100)
  else if 0x200 ≤ id ∧ id < 0x204 then routerAt (4 + (id - 0x200)) 9 0
  else if id = 0x205 then routerAt 11 9 0
  else if id = 0x206 then routerAt 11 8 0
  else routerAt 0 9 0

/-- The router of the steward RAM and of the snoop hub. -/
def hubRouter : Nat := routerAt 5 8 0

/-- The regions of the physical address map (Table 1.7). -/
inductive Region where
  | dies (c : Nat) | bank (b : Nat) | tram (s : Nat) | sram | regs | uwin (s : Nat) | none
  deriving DecidableEq, Repr

/-- The region of an address (R15, R16). -/
def regionOf (a : Nat) : Region :=
  if a < 0x400000000 then .dies (a / 256 % 16)
  else if a < 0x403C00000 then .bank ((a - 0x400000000) / 0x8000)
  else if 0x500000000 ≤ a ∧ a < 0x500F00000 then .tram ((a - 0x500000000) / 0x10000)
  else if 0x600000000 ≤ a ∧ a < 0x600400000 then .sram
  else if 0x700000000 ≤ a ∧ a < 0x7005F0000 then .regs
  else if 0x800000000 ≤ a ∧ a < 0x80F000000 then .uwin ((a - 0x800000000) / 0x100000)
  else .none

/-- The router of memory controller c. -/
def controllerRouter (c : Nat) : Nat := routerAt (1 + 3 * (c % 4)) (1 + 2 * (c / 4)) 0

/-- The sector a lane lands in, as the base-die router under it. -/
def underLanding (n : Nat) : Nat := (if n < 132 then n else n + 96) % 120

/-- The router of the target of an address (R256). -/
def targetRouter (a : Nat) : Nat :=
  match regionOf a with
  | .dies c => controllerRouter c
  | .bank b => 120 + b / 8
  | .tram s => 120 + s
  | .sram => hubRouter
  | .uwin s => 120 + s
  | .none => routerAt 0 9 0
  | .regs =>
    let o := a - 0x700000000
    if 0x200000 ≤ o ∧ o < 0x440000 ∧ o % 0x10000 < 0x5000 then underLanding (4 * ((o - 0x200000) / 0x10000))
    else if 0x500000 ≤ o then 120 + (o - 0x500000) / 0x1000
    else routerAt 0 9 0

/-- The management class (R257). -/
def management (r : NocReq) : Bool := r.src == 0x204 || regionOf r.addr == .regs

/-- The virtual channel of a request, and of its response on RSP: VC0 for a line write, which DAT carries on VC0 (Table 13.2). -/
def requestVc (r : NocReq) : Nat := if r.op = 2 then 0 else (management r).toNat

/-! ### Flits (Table 13.3) -/

/-- Bits of a router in DSTX, DSTY and DSTZ from bit 144 on. -/
def routerBits (d : Nat) : Nat := 2 ^ 144 * (d % 12) + 2 ^ 148 * (d / 12 % 10) + 2 ^ 152 * (d / 120 % 4)

/-- The REQ flit of a request bound for a router; reserved bits are 0. -/
def reqBits (r : NocReq) (dst : Nat) : Nat :=
  r.op % 16 + 2 ^ 4 * (r.size % 8) + 2 ^ 7 * r.peek.toNat + 2 ^ 8 * (r.src % 1024) + 2 ^ 18 * (r.tag % 256) + 2 ^ 26 * (r.key % 64) +
    2 ^ 32 * (r.addr % 2 ^ 48) + 2 ^ 80 * (r.data % 2 ^ 64) + routerBits dst + 2 ^ 154 * r.ln.toNat

/-- The request that a REQ flit carries. -/
def reqOf (x : Nat) : NocReq :=
  { op := nbits x 3 0, size := nbits x 6 4, src := nbits x 17 8, tag := nbits x 25 18, key := nbits x 31 26, addr := nbits x 79 32,
    data := nbits x 143 80, peek := x.testBit 7, ln := x.testBit 154 }

/-- The router that a REQ flit names. -/
def reqDst (x : Nat) : Nat := routerAt (nbits x 147 144) (nbits x 151 148) (nbits x 153 152)

/-- A request as the flit that carries it: on DAT, with the line and the REQ flit in HDR, for a line write, else on REQ. -/
def Flit.ofReq (r : NocReq) (dst : Nat) : Flit :=
  if r.op = 2 then .dat (BitVec.ofNat 1024 (r.data % 2 ^ 512 + 2 ^ 512 * reqBits { r with data := 0 } dst)) 0
  else .req (BitVec.ofNat 160 (reqBits r dst))

/-- DST, TAG, LN and STATUS of a response, as RSP and the sideband of DAT hold them. -/
def rspHead (id tag : Nat) (ln : Bool) (status : Nat) : Nat := id % 1024 + 2 ^ 10 * (tag % 256) + 2 ^ 18 * ln.toNat + 2 ^ 19 * (status % 4)

/-- A response as its flit: on DAT for a line or a line pair, whose second line H1V announces, else on RSP. -/
def Flit.ofRsp (dat pair : Bool) (id tag : Nat) (ln : Bool) (status data : Nat) : Flit :=
  let h := rspHead id tag ln status
  if dat then .dat (BitVec.ofNat 1024 data) (BitVec.ofNat 64 (h + 2 ^ 21 * pair.toNat + 2 ^ 22))
  else .rsp (BitVec.ofNat 96 (h + 2 ^ 21 * (data % 2 ^ 66)))

/-- The request that a flit carries, if it carries one; KIND tells a line write from read data. -/
def Flit.request : Flit → Option NocReq
  | .req b => some (reqOf b.toNat)
  | .dat b side => if side.getLsbD 22 then none else some { reqOf (b.toNat / 2 ^ 512 % 2 ^ 160) with data := b.toNat % 2 ^ 512 }
  | _ => none

/-- What a response tells its initiator. -/
structure NocRsp where
  id : Nat
  tag : Nat
  ln : Bool
  status : Nat
  data : Nat
  deriving DecidableEq, Repr

/-- The response that a flit carries, if it carries one; data that H1V does not announce is not read. -/
def Flit.response : Flit → Option NocRsp
  | .rsp b => some ⟨nbits b.toNat 9 0, nbits b.toNat 17 10, b.getLsbD 18, nbits b.toNat 20 19, nbits b.toNat 86 21⟩
  | .dat b side =>
    if side.getLsbD 22 then
      some ⟨nbits side.toNat 9 0, nbits side.toNat 17 10, side.getLsbD 18, nbits side.toNat 20 19,
        b.toNat % 2 ^ (if side.getLsbD 21 then 1024 else 512)⟩
    else none
  | _ => none

/-- The router a flit is bound for: a request names it, a response goes to the router of its initiator (R256). -/
def Flit.dst (f : Flit) : Nat :=
  match f with
  | .req b => reqDst b.toNat
  | .snp _ d => d
  | .rsp b => initiatorRouter (nbits b.toNat 9 0)
  | .dat b side => if side.getLsbD 22 then initiatorRouter (nbits side.toNat 9 0) else reqDst (b.toNat / 2 ^ 512)

/-! ### Queues -/

/-- Flits a queue holds (Table 13.2): networks 0 REQ, 1 RSP, 2 DAT, 3 SNP. -/
def queueDepth (net : Nat) : Nat := if net = 2 then 2 else 4

/-- Port 0 is local, 1 to 6 are +X −X +Y −Y +Z −Z, 7 is the ejection queue. -/
def queueKey (r net port vc : Nat) : Nat := ((r * 4 + net) * 8 + port) * 2 + vc

def State.queue (s : State) (r net port vc : Nat) : List Flit := tget (fun _ => []) s.netq (queueKey r net port vc)

def State.setQueue (s : State) (r net port vc : Nat) (q : List Flit) : State :=
  { s with netq := tset (fun _ => []) s.netq (queueKey r net port vc) q }

/-- A flit of an endpoint waits to enter the injection queue of its router. -/
def injectFlit (s : State) (r net vc : Nat) (f : Flit) : State :=
  { s with inject := tset (fun _ => []) s.inject r (tget (fun _ => []) s.inject r ++ [(net, vc, f)]) }

/-- The network runs: the device is on, and neither a debug halt nor a low-power state stops it. -/
def State.nocRuns (s : State) : Bool := (s.phase == .run || s.phase == .start) && !s.dbgHalt && !s.clk.hang

/-- T_o for a request issued now (R265). -/
def issueTimeout (s : State) : Nat := max 1024 (s.getF Reg.NOC_TMO_TMO)

/-! ### Arrival at a memory controller -/

/-- The place of an input port in the rotating priority of a controller's scheduler; it stands past port 6 after reset. -/
def portRank (s : State) (r port : Nat) : Nat := (port + 6 - tget (fun _ => 6) s.memPtr r) % 7

/-- A request put behind those that the controller is to perform before it: in front of requests of its own MEM cycle that the
scheduler places after it, otherwise last. -/
def placeArrival (s : State) (x : MemArrival) : List MemArrival → List MemArrival
  | [] => [x]
  | y :: ys =>
    if y.router = x.router ∧ y.cycle = x.cycle ∧ portRank s x.router x.port < portRank s x.router y.port then x :: y :: ys
    else y :: placeArrival s x ys

/-- A request to a memory controller reaches the ejection queue of its router (R289): the order in which the controller performs
the requests to one line is settled here. The requests of one MEM cycle come over different networks. -/
def memArrive (s : State) (r net vc port : Nat) (q : NocReq) : State :=
  let mine := s.memq.filter (fun y => y.router == r)
  let last := match mine.getLast? with | some y => y.cycle | none => 0
  let may := s.cyc.arrived.contains r && !(mine.any (fun y => y.cycle == last && y.net == net)) && !mine.isEmpty
  let (n, s1) := if may then s.draw else (0, s)
  let cycle := if may && Config.sameMemCycle n then last else last + 1
  let x : MemArrival :=
    { router := r, net := net, vc := vc, line := q.addr / 64, lines := if q.size = 5 then 2 else 1, port := port, cycle := cycle }
  { s1 with memq := placeArrival s1 x s1.memq, cyc := { s1.cyc with arrived := s1.cyc.arrived ++ [r] } }

/-- The flit that an ejection queue has just taken, if it is a request to a memory controller, arrives there. -/
def ejectArrive (s : State) (r net vc port : Nat) (f : Option Flit) : State :=
  match f.bind Flit.request with
  | some q =>
    match regionOf q.addr with
    | .dies _ => memArrive s r net vc port q
    | _ => s
  | none => s

/-- The request at the head of a queue, where it waits at a memory controller. -/
def memWaits (s : State) (r net vc : Nat) : Option MemArrival :=
  s.memq.find? (fun y => y.router == r && y.net == net && y.vc == vc)

/-- The controller may perform the request at the head of a queue: none that shares a line with it is to be performed before it. -/
def memTurn (s : State) (r net vc : Nat) : Bool :=
  match memWaits s r net vc with
  | none => true
  | some x =>
    !((s.memq.takeWhile (fun y => y != x)).any (fun y =>
      y.router == r && decide (y.line < x.line + x.lines) && decide (x.line < y.line + y.lines)))

/-- The request at the head of a queue has been chosen: it waits no more. -/
def memChosen (s : State) (r net vc : Nat) : State :=
  match memWaits s r net vc with
  | none => s
  | some x => { s with memq := s.memq.erase x, memPtr := tset (fun _ => 6) s.memPtr r x.port }

/-! ### Injection -/

/-- A flit enters its queue; with a request its timer starts (R265). One that enters the ejection queue comes by the local port. -/
def enterQueue (s : State) (r net port vc : Nat) (f : Flit) : State :=
  let s0 := s.setQueue r net port vc (s.queue r net port vc ++ [f])
  let s1 := if port = 7 then ejectArrive s0 r net vc 0 (some f) else s0
  match f.request with
  | some q => { s1 with outst := s1.outst.map (fun o =>
      if o.id == q.src && o.ln == q.ln && o.tag == q.tag then { o with tmo := some (issueTimeout s) } else o) }
  | none => s1

/-- The requests an initiator may have outstanding (Table 13.1). -/
def maxOut (id : Nat) (ln : Bool) : Nat :=
  if id < 240 then (if ln then 32 else 16) else if 0x100 ≤ id ∧ id < 0x1F0 then 8 else if id = 0x204 then 1 else 64

/-- The address that a REQ flit carries, in 48 bits: one beyond them lies in no range, as the highest one does (R16; DESIGN CHOICE, log
137). -/
def flitAddr (a : Nat) : Nat := if a < 2 ^ 48 then a else 2 ^ 48 - 1

/-- The interface of an initiator sends a request on: it is not fenced, the NOC cycle is open for injection (R435), and no more requests than the initiator may have outstanding have
been issued (R256, R274). -/
def mayEnter (s : State) (f : Flit) : Bool :=
  match f.request with
  | some q =>
    !s.fencing && s.gateOpen 6 && decide ((s.outst.filter (fun o => o.id == q.src && o.ln == q.ln && o.tmo.isSome)).length < maxOut q.src q.ln)
  | none => true

/-- Two waiting flits of one endpoint on one network and virtual channel, which keep their order (R263). -/
def sameFlow (a b : Nat × Nat × Flit) : Bool :=
  a.1 == b.1 && a.2.1 == b.2.1 && a.2.2.request.map (fun q => (q.src, q.ln)) == b.2.2.request.map (fun q => (q.src, q.ln))

/-- Waiting flits enter the injection queues of a router while these have room, in order within each flow. A flit bound for
the router itself enters its ejection queue, beside the arbiter, at which only the six network ports can ask for ejection (Table 13.5;
DESIGN CHOICE, log 123). -/
def pullInject (s : State) (r : Nat) : State :=
  let go := fun (acc : State × List (Nat × Nat × Flit)) (e : Nat × Nat × Flit) =>
    let port := if e.2.2.dst = r then 7 else 0
    let q := acc.1.queue r e.1 port e.2.1
    if acc.2.any (sameFlow e) || !mayEnter acc.1 e.2.2 || queueDepth e.1 ≤ q.length then (acc.1, acc.2 ++ [e])
    else (enterQueue acc.1 r e.1 port e.2.1 e.2.2, acc.2)
  let out := (tget (fun _ => []) s.inject r).foldl go (s, [])
  { out.1 with inject := tset (fun _ => []) out.1.inject r out.2 }

/-! ### Issue -/

/-- Requests outstanding of an initiator. -/
def outCount (s : State) (id : Nat) (ln : Bool) : Nat := (s.outst.filter (fun o => o.id == id && o.ln == ln)).length

/-- The tags an initiator may issue (R267). -/
def freeTags (s : State) (id : Nat) (ln : Bool) : List Nat :=
  (List.range 256).filter (fun t => !s.outst.any (fun o => o.id == id && o.ln == ln && o.tag == t) &&
    !s.quar.contains (2 * id + ln.toNat, t) && !(0x200 ≤ id && id < 0x204 && (s.core (id - 0x200)).snp == some t))

/-- The tag of a request that an initiator issues: one of its free tags, no rule says which. Table 13.1 leaves every initiator tags
enough for quarantine never to delay an issue (R267): where the space holds no free tag, the quarantine of its oldest one is over. -/
def takeTag (s : State) (id : Nat) (ln : Bool) : State × Nat :=
  let (n, s1) := s.draw
  match freeTags s id ln with
  | t :: ts => (s1, (t :: ts).getD (Config.tagPick n % (ts.length + 1)) t)
  | [] =>
    match s.quar.find? (fun p => p.1 == 2 * id + ln.toNat) with
    | some p => ({ s1 with quar := s.quar.erase p }, p.2)
    | none => (s1, 0)

/-- A request is issued: it takes a tag, is recorded at its initiator, and its flit enters the injection queue as soon as it has room. The
answer is the tag. -/
def issue (s : State) (r : NocReq) (note aux : Nat) : State × Nat :=
  let (s1, tag) := takeTag s r.src r.ln
  let o : Outst := { id := r.src, ln := r.ln, tag := tag, op := r.op, addr := r.addr, size := r.size, tmo := none,
                     note := note, aux := aux }
  let s2 := { s1 with outst := s1.outst ++ [o] }
  let at_ := initiatorRouter r.src
  let s3 := injectFlit s2 at_ (if r.op = 2 then 2 else 0) (requestVc r) (Flit.ofReq { r with tag := tag, addr := flitAddr r.addr } (targetRouter r.addr))
  (if s.nocRuns then pullInject s3 at_ else s3, tag)

/-- A request with the common fields. -/
def mkReq (op size src key addr data : Nat) : NocReq :=
  { op := op, size := size, src := src, tag := 0, key := key, addr := addr, data := data, peek := false, ln := false }

/-- A debug request that waited for the network is issued (R448). -/
def dbgFlush (s : State) : State :=
  match s.dbg.wait with
  | some r => (issue { s with dbg := { s.dbg with wait := none } } r 0 0).1
  | none => s

/-! ### Responses -/

/-- A target at router `at_` answers a request (Table 13.4). -/
def sendResponse (s : State) (at_ : Nat) (r : NocReq) (status data : Nat) : State :=
  let dat := r.op = 0 ∧ 4 ≤ r.size
  injectFlit s at_ (if dat then 2 else 1) (if dat then 1 else requestVc r) (Flit.ofRsp dat (r.size == 5) r.src r.tag r.ln status data)

/-- The tag word that a bank carries for a request: tag, LN, virtual channel of the response, line read, local path. -/
def bankTag (r : NocReq) (at_ : Nat) : Nat :=
  r.tag + 256 * r.ln.toNat + 512 * requestVc r + 1024 * (if r.op = 0 ∧ 4 ≤ r.size then 1 else 0) + 4096 * at_

/-- The tag word of a teller's request through the local path. -/
def localTag (t : Nat) : Nat := 2048 + t

/-- The data words of a response as one number. -/
def wordsNat (ws : List Nat) : Nat := ws.zipIdx.foldl (fun acc wi => acc + wi.1 % 2 ^ 64 * 2 ^ (64 * wi.2)) 0

/-- Responses of banks whose slot has come enter the list of their router. -/
def collectBankRsps (s : State) (r : Nat) : State :=
  let mine := fun (p : Rsp) => !p.tag.testBit 11 && p.tag / 4096 == r && decide (p.ready ≤ s.time.slots)
  let s1 := { s with rsps := s.rsps.filter (fun p => !mine p) }
  (s.rsps.filter mine).foldl (fun acc p =>
    let dat := p.tag.testBit 10
    injectFlit acc r (if dat then 2 else 1) (if dat then 1 else (p.tag.testBit 9).toNat)
      (Flit.ofRsp dat false p.id (p.tag % 256) (p.tag.testBit 8) p.status (wordsNat p.data))) s1

/-! ### Forwarding -/

/-- The output a flit takes at router r: along X, then Y, then Z, then ejection (R261). -/
def nextPort (r dst : Nat) : Nat :=
  let x := r % 12; let y := r / 12 % 10; let z := r / 120
  let dx := dst % 12; let dy := dst / 12 % 10; let dz := dst / 120
  if x < dx then 1 else if dx < x then 2
  else if y < dy then 3 else if dy < y then 4
  else if z < dz then 5 else if dz < z then 6 else 0

/-- The queue that an output of router r leads to: router and port. -/
def beyond (r out : Nat) : Nat × Nat :=
  match out with
  | 1 => (r + 1, 2)
  | 2 => (r - 1, 1)
  | 3 => (r + 12, 4)
  | 4 => (r - 12, 3)
  | 5 => (r + 120, 6)
  | 6 => (r - 120, 5)
  | _ => (r, 7)

def arbKey (r out net : Nat) : Nat := (r * 7 + out) * 4 + net

/-- The pointer of an arbiter; it stands at 13 after reset (R262). -/
def State.arbPtr (s : State) (r out net : Nat) : Nat := tget (fun _ => 13) s.netPtr (arbKey r out net)

/-- Pair p (2·port + VC) of router r is eligible for an output: its head needs it and a credit is held (R260, R262). -/
def eligible (s : State) (r out net p : Nat) : Bool :=
  match (s.queue r net (p / 2) (p % 2)).head? with
  | none => false
  | some f =>
    let b := beyond r out
    nextPort r f.dst == out && decide ((s.queue b.1 net b.2 (p % 2)).length < queueDepth net)

/-- The pair that the arbiter grants: the first eligible one after the pointer. -/
def arbWinner (s : State) (r out net : Nat) : Option Nat :=
  ((List.range 14).map (fun d => (s.arbPtr r out net + 1 + d) % 14)).find? (eligible s r out net)

/-- NOC_FLIT_FORWARD: one grant of the arbiter of an output (0 ejection) of a router on a network (R262). -/
def execNocFlitForward (r : Fin 360) (out : Fin 7) (net : Fin 4) (s : State) : Res :=
  if s.nocRuns then
    let s0 := pullInject (collectBankRsps s r.val) r.val
    match arbWinner s0 r.val out.val net.val with
    | none => ok s0
    | some p =>
      let q := s0.queue r.val net.val (p / 2) (p % 2)
      let b := beyond r.val out.val
      let s1 := s0.setQueue r.val net.val (p / 2) (p % 2) (q.drop 1)
      let s2 := s1.setQueue b.1 net.val b.2 (p % 2) (s1.queue b.1 net.val b.2 (p % 2) ++ q.take 1)
      let s3 := { s2 with netPtr := tset (fun _ => 13) s2.netPtr (arbKey r.val out.val net.val) p }
      ok (if out.val = 0 then ejectArrive s3 r.val net.val (p % 2) (p / 2) q.head? else s3)
  else ok s

/-- The flit at the head of an ejection queue. -/
def State.ejected (s : State) (r net vc : Nat) : Option Flit := (s.queue r net 7 vc).head?

/-- The head of an ejection queue is taken by its endpoint. -/
def State.eject (s : State) (r net vc : Nat) : State := s.setQueue r net 7 vc ((s.queue r net 7 vc).drop 1)

/-! ### Quarantine -/

/-- A request ends without its response: its tag goes into quarantine (R267). -/
def endOutst (s : State) (o : Outst) : State :=
  { s with outst := s.outst.filter (fun p => !(p.id == o.id && p.ln == o.ln && p.tag == o.tag)),
           quar := s.quar ++ [(2 * o.id + o.ln.toNat, o.tag)] }

/-- A request ends with its response. -/
def closeOutst (s : State) (o : Outst) : State :=
  { s with outst := s.outst.filter (fun p => !(p.id == o.id && p.ln == o.ln && p.tag == o.tag)) }

/-- TAG_QUARANTINE_END: 2·T_o NOC cycles have passed since a tag went into quarantine (R267). -/
def execTagQuarantineEnd (id : Fin 1024) (ln : Bool) (tag : Fin 256) (s : State) : Res :=
  okIf s.nocRuns s { s with quar := s.quar.filter (fun p => p != (2 * id.val + ln.toNat, tag.val)) }

end Sys2Proof.Machine
end

