-- ==== Sys2Proof/Machine/Vault.lean ====
section
/-!
DEFINITION. The vault (15_protection.md): the working key table, integrity halt, locked sequences, random numbers, fuse
programming and zeroisation. Memory windows stand in Memory.lean.
-/

namespace Sys2Proof.Machine

/-- A code word table read at a key; an unlisted word is the code word of 0. -/
def cwAt (t : Tab CodeWord) (k : Nat) : CodeWord := tget (fun _ => 0) t k

def cwPut (t : Tab CodeWord) (k : Nat) (w : CodeWord) : Tab CodeWord := tset (fun _ => 0) t k w

/-! ### The working key table -/

/-- The bit of VLT_KEYVALm that reports entry e. -/
def keyValBit (e : Nat) : Field :=
  if e < 32 then ⟨Reg.VLT_KEYVAL0, e, e⟩ else ⟨Reg.VLT_KEYVAL1, e - 32, e - 32⟩

/-- Entry e holds a key; entry 0 never does (R300). -/
def keyHeld (s : State) (e : Nat) : Bool := e != 0 && e < 64 && s.flag (keyValBit e)

/-- The key copies of trunk lanes without those of an entry. -/
def dropLaneKey (e : Nat) (l : TkLane) : TkLane :=
  { l with cfg := { l.cfg with keys := l.cfg.keys.filter (fun k => k.1 != e) } }

/-- Entry e emptied, with every engine copy it supplied (R300). -/
def emptyKey (s : State) (e : Nat) : State :=
  let kw := (List.range 4).foldl (fun t i => cwPut t (4 * e + i) 0) s.keyw
  let wk := tmap (fun _ => []) (fun w k => if s.getF (Reg.VLT_WCTL_KEY w) = e then [] else k) s.winKey
  let tk := tmap (fun _ => TkLane.reset) (fun _ l => dropLaneKey e l) s.tk
  { s.clearF (keyValBit e) with keyw := kw, winKey := wk, tk := tk }

/-- The key of an entry as 32 octets, read through the code; an uncorrectable word empties the entry, sets KEYUNC and
raises event 199 (R300). -/
def readKey (s : State) (e : Nat) : State × Option (List Nat) :=
  if keyHeld s e then
    let words := (List.range 4).map (fun i => cwDecode (cwAt s.keyw (4 * e + i)))
    let val := fun (d : Decoded 64) => match d with | .clean v => some v.toNat | .corrected v => some v.toNat | .bad => none
    if words.all (fun d => (val d).isSome) then
      (s, some (words.map (fun d => leBytes 8 ((val d).getD 0))).flatten)
    else (((emptyKey s e).raiseF Reg.VLT_STAT_KEYUNC).raiseEv 199, none)
  else (s, none)

/-- Entry e filled with a key of 32 octets. -/
def fillKey (s : State) (e : Nat) (key : List Nat) : State :=
  let kw := (List.range 4).foldl (fun t i =>
    cwPut t (4 * e + i) (cwEncode (BitVec.ofNat 64 (leNat ((key.drop (8 * i)).take 8))))) s.keyw
  { s.raiseF (keyValBit e) with keyw := kw }

/-- A trunk lane in HANDSHAKE or ACTIVE uses an entry for an enabled stream or queue (R301). -/
def laneUsesKey (s : State) (n e : Nat) : Bool :=
  let l := tget (fun _ => TkLane.reset) s.tk n
  let st := s.getF (Reg.LN_BU_STAT_STATE n)
  let uses := fun (c : Nat) => (c.testBit 31 && nbits c 5 0 == e) || (c.testBit 30 && nbits c 13 8 == e)
  s.getF (Reg.LQ_MODE_MODE (n / 4)) == 2 && (st == 5 || st == 6) && (l.cfg.scfg ++ l.cfg.qcfg).any uses

/-- Entry e is in use: it is the bound key of an enabled encrypted window, or a lane uses it (R301). -/
def keyInUse (s : State) (e : Nat) : Bool :=
  (List.range 16).any (fun w => s.flag (Reg.VLT_WCTL_EN w) && s.getF (Reg.VLT_WCTL_MODE w) != 0 &&
    s.getF (Reg.VLT_WCTL_KEY w) == e) ||
  (tkeys id s.tk).any (fun n => laneUsesKey s n e)

/-! ### Integrity halt -/

/-- Every lane in IDLE: no training, no alignment. -/
def lanesIdle (s : State) : State :=
  let s1 := (List.range 144).foldl (fun acc n =>
    if acc.getF (Reg.LN_BU_STAT_STATE n) = 0 then acc
    else (acc.laneTo n 0).clearF (Reg.LN_FE_STAT_ALIGNED n)) s
  { s1 with fe := tmap (fun _ => FeLane.reset) (fun _ _ => FeLane.reset) s1.fe,
            tk := tmap (fun _ => TkLane.reset) (fun _ _ => TkLane.reset) s1.tk }

/-- Key material gone: table, engine copies, IV seeds, node cache, root SRAM, VLT_OKEYn latches (R314). -/
def wipeKeys (s : State) : State :=
  let lanes := tmap (fun _ => TkLane.reset) (fun _ (l : TkLane) =>
    { l with seed := none, peerSeed := 0, cfg := { l.cfg with keys := [] } }) s.tk
  { ((s.setReg Reg.VLT_KEYVAL0 0).setReg Reg.VLT_KEYVAL1 0) with
      keyw := [], winKey := [], nodes := [], rootw := [], okeys := [], tk := lanes,
      ld := { s.ld with key := [], segKey := [], rfx := [] } }

/-- Integrity halt: subcode, lane, unit and line are recorded, keys are wiped, ALARM_N goes low, every clock but the
always-on domain stops, every lane is idle and every GPIO output floats. Nothing after the first cause is recorded (R313 to R315); commands
that each find a cause find it one after another (DESIGN CHOICE, log 158). -/
def integrityHalt (s : State) (sub lane unit line : Nat) : State :=
  if s.phase = .integrity then s
  else
    let h0 := BitVec.ofNat 32 (sub * 2 ^ 28 + lane % 256 * 256 + unit % 16)
    let s1 := (s.setReg Reg.VLT_HALT0 h0).setReg Reg.VLT_HALT1 (BitVec.ofNat 32 (line % 2 ^ 28))
    let s2 := lanesIdle (wipeKeys (s1.raiseF Reg.RST_ALARM_PIN))
    { s2 with phase := .integrity, clockOn := false, inject := [], netq := [], memq := [], rsps := [],
              gpio := { s2.gpio with d0 := 0, d1 := 0, oe := 0 } }

/-! ### Locked sequences -/

/-- The lock registers: VLT_LOCK, WDT_LOCK, RST_LOCK, with their LOCKERR bits and events (R317, R378, chapter 20). -/
def lockReg (which : Nat) : Nat :=
  match which with
  | 0 => Reg.VLT_LOCK
  | 1 => Reg.WDT_LOCK
  | _ => Reg.RST_LOCK

def lockState (which : Nat) : Field := ⟨lockReg which, 1, 0⟩
def lockOwner (which : Nat) : Field := ⟨lockReg which, 25, 16⟩

/-- A sequence is abandoned or refused: LOCKERR and its event. -/
def lockFail (s : State) (which : Nat) : State :=
  let s1 := s.setReg (lockReg which) 0
  match which with
  | 0 => (s1.raiseF Reg.VLT_STAT_LOCKERR).raiseEv 201
  | 1 => (s1.raiseF Reg.WDT_STAT_LOCKERR).raiseEv 209
  | _ => (s1.raiseF Reg.RST_BSTAT_LOCKERR).raiseEv 212

/-- A write to a lock register by an initiator; the Boolean says whether it is answered without error (R317). Any access of
DBG_ACCESS aborts a sequence in progress, one of its own too; while none is, it is an initiator like any other (R15). -/
def lockWrite (s : State) (which id : Nat) (v : Word32) : State × Bool :=
  let st := s.getF (lockState which)
  if id = 0x204 ∧ st ≠ 0 then (lockFail s which, false)
  else if st = 0 ∧ v = 0x4C454447#32 then
    ((s.setF (lockState which) 1).setF (lockOwner which) id, true)
  else if st = 1 ∧ v = 0x42414E4B#32 ∧ s.getF (lockOwner which) = id then (s.setF (lockState which) 2, true)
  else (lockFail s which, false)

/-- A read of a lock register: by DBG_ACCESS it aborts a sequence in progress. -/
def lockRead (s : State) (which id : Nat) : State :=
  if id = 0x204 ∧ s.getF (lockState which) ≠ 0 then lockFail s which else s

/-- A write of a locked register: performed where its initiator owns a completed sequence, which it ends; otherwise the
sequence is abandoned and the write receives an error (R317). -/
def lockedWrite (s : State) (which id : Nat) (f : State → State) : State × Bool :=
  if s.getF (lockState which) = 2 ∧ s.getF (lockOwner which) = id then (f (s.setReg (lockReg which) 0), true)
  else (lockFail s which, false)

/-- The status of an answer recorded in the model's port. -/
def answerWrite (r : State × Bool) : Res :=
  ok { r.1 with resp := ⟨if r.2 then 0 else 1, 0⟩ }

/-- LOCK_WRITE: a write to VLT_LOCK (0), WDT_LOCK (1) or RST_LOCK (2). -/
def execLockWrite (which : Fin 3) (id : Fin 1024) (v : Word32) (s : State) : Res :=
  if s.alive then answerWrite (lockWrite s which.val id.val v) else ok s

/-- LOCK_WINDOW_EXPIRY: 64 STW cycles pass in a sequence in progress; STW stops in a debug halt (R317). -/
def execLockWindowExpiry (which : Fin 3) (s : State) : Res :=
  okIf (s.alive && s.getF (lockState which.val) != 0) s (lockFail s which.val)

/-! ### Keys cleared, random numbers -/

/-- A write of VLT_KEYCLR after its lock: the entry is emptied unless it is in use (R301). -/
def keyClear (s : State) (e : Nat) : State :=
  if e = 0 then s
  else if keyInUse s e then s.raiseF Reg.VLT_STAT_KEYBUSY
  else emptyKey s e

/-- KEY_CLEAR: a locked write of VLT_KEYCLR by an initiator. -/
def execKeyClear (id : Fin 1024) (v : Word32) (s : State) : Res :=
  if s.alive then answerWrite (lockedWrite s 0 id.val (fun t => keyClear t (nbits v.toNat 5 0))) else ok s

/-- A read of VLT_RNG: 32 fresh bits while RNG_OK is 1; a peek read draws nothing (R303). -/
def rngRead (s : State) (peek : Bool) : State × Word32 :=
  if peek || !s.flag Reg.VLT_STAT_RNG_OK then (s, 0)
  else
    let (n, s1) := s.draw
    (s1, Config.random n)

/-- RNG_READ. -/
def execRngRead (peek : Bool) (s : State) : Res :=
  if s.alive then
    let r := rngRead s peek
    ok { r.1 with resp := ⟨0, BitVec.ofNat 64 r.2.toNat⟩ }
  else ok s

/-- RNG_HEALTH_FAIL: RNG_OK clears until the next reset, RNGFAIL is set and event 202 raised (R303). -/
def execRngHealthFail (s : State) : Res :=
  okIf (s.alive && s.flag Reg.VLT_STAT_RNG_OK) s
    (((s.clearF Reg.VLT_STAT_RNG_OK).raiseF Reg.VLT_STAT_RNGFAIL).raiseEv 202)

/-! ### Fuses -/

/-- The root key of the part as 32 octets (R296). -/
def rootKey : List Nat := (List.range 32).map (fun i => Config.rootKey i % 256)

/-- The number a mask of 32 octets stands for, octet i at bits [8i + 7:8i]. -/
def okeyMask : Nat := leNat (deriveKey rootKey 0x4F)

/-- What the owner-key fuses hold for a key: KO xor D(KR, 0x4F), with the check value above it (R297). -/
def okeyFuses (ko : Nat) : Nat := (ko ^^^ okeyMask) + 2 ^ 256 * (Config.okeyCheck (ko ^^^ okeyMask)).toNat

/-- The state of the owner-key fuses (R297); BROKEN after a burn that was cut off (R299). -/
def okeyStateOf (f : Fuses) : Nat :=
  if f.okey = 0 then 0
  else if !f.cut && f.okey / 2 ^ 256 == (Config.okeyCheck (f.okey % 2 ^ 256)).toNat then 1 else 2

/-- The bits that a cut burn of the owner key has burned: some of the key bits, or all of them and some of the check bits, which
are burned after them (R298, R299). -/
def okeyCut (latch part : Nat) : Nat :=
  let key := latch % 2 ^ 256
  if key &&& part = key then latch &&& part else key &&& part

/-- The consecutive burned floor fuses from bit 0 (R345). -/
def floorOf (f : Nat) : Nat := ((List.range 255).takeWhile (fun i => f.testBit i)).length

/-- A refused fuse command (R298). It is a command all the same: each VLT_OKEYn it needed has to be written anew (DEDUCED, log 138). -/
def fuseRefuse (s : State) : State := { (s.raiseF Reg.VLT_STAT_FUSE_FAIL).raiseEv 200 with okeys := [] }

/-- VLT_OKEYn as one number; nothing where one has not been written. -/
def okeyLatched (s : State) : Option Nat :=
  (List.range 8).foldr (fun n acc =>
    match tget (fun _ => none) s.okeys n, acc with
    | some w, some x => some (w.toNat + 2 ^ 32 * x)
    | _, _ => none) (some 0)

/-- An accepted burn: the latch is taken, FUSE_BUSY rises, VLT_OKEYn clear. -/
def startBurn (s : State) (kind value : Nat) : State :=
  { s.raiseF Reg.VLT_STAT_FUSE_BUSY with okeys := [], fuses := { s.fuses with burning := kind, latch := value } }

/-- CMD 0x1: program the owner key, or a refusal (R298). -/
def fuseOwnerKey (s : State) : State :=
  match okeyLatched s with
  | some ko =>
    if s.getF Reg.VLT_STAT_OKEY_STATE = 0 ∧ s.flag Reg.VLT_STAT_ROOT_OK ∧ !s.flag Reg.VLT_STAT_FUSE_BUSY then
      startBurn s 1 (okeyFuses ko)
    else fuseRefuse s
  | none => fuseRefuse s

/-- CMD 0x2: raise the rollback floor to N = VLT_OKEY0[7:0], or a refusal (R345). -/
def fuseFloor (s : State) : State :=
  match tget (fun _ => none) s.okeys 0 with
  | some w =>
    let n := w.toNat % 256
    if !s.flag Reg.VLT_STAT_FUSE_BUSY ∧ floorOf s.fuses.floor < n ∧ n ≤ s.getF Reg.CFG_SEQ_HI_SEQ_HI / 2 ^ 24 then startBurn s 2 n
    else fuseRefuse s
  | none => fuseRefuse s

/-- A write of VLT_FUSECMD after its lock. -/
def fuseCommand (s : State) (cmd : Nat) : State :=
  match cmd with
  | 1 => fuseOwnerKey s
  | 2 => fuseFloor s
  | _ => s

/-- A write of VLT_FUSECMD: locked (R317). CMD 0x2 without a completed sequence acts as a refused fuse command beside that (R345; log 138). -/
def fuseWrite (s : State) (id cmd : Nat) : State × Bool :=
  let r := lockedWrite s 0 id (fun t => fuseCommand t cmd)
  if cmd = 2 ∧ r.2 = false then ((r.1.raiseF Reg.VLT_STAT_FUSE_FAIL).raiseEv 200, false) else r

/-- FUSE_PROGRAM_OWNER_KEY: a locked CMD 0x1 by an initiator. -/
def execFuseProgramOwnerKey (id : Fin 1024) (s : State) : Res :=
  if s.alive then answerWrite (fuseWrite s id.val 1) else ok s

/-- FUSE_PROGRAM_FLOOR: a locked CMD 0x2 by an initiator. -/
def execFuseProgramFloor (id : Fin 1024) (s : State) : Res :=
  if s.alive then answerWrite (fuseWrite s id.val 2) else ok s

/-- The fuses with the bits of a burn from FLOOR to N − 1 set. -/
def burnFloor (f n : Nat) : Nat := (List.range n).foldl (fun acc i => acc ||| 2 ^ i) f

/-- FUSE_BURN_COMPLETE: the burn ends, the fuses are read back, FUSE_BUSY clears, OKEY_STATE takes its new value, event
200 is raised. It goes on in the always-on domain through every stop but a loss of VAUX and RESET_N (R298, R299). -/
def execFuseBurnComplete (s : State) : Res :=
  if s.fuses.burning = 0 ∨ s.phase = .unpowered then ok s
  else
    let f := s.fuses
    let f1 : Fuses := { f with burning := 0, latch := 0, okey := if f.burning = 1 then f.okey ||| f.latch else f.okey,
                               floor := if f.burning = 2 then burnFloor f.floor f.latch else f.floor }
    let s1 := { s with fuses := f1 }
    let s2 := if f.burning = 1 then s1.setF Reg.VLT_STAT_OKEY_STATE (okeyStateOf f1) else s1
    ok ((s2.clearF Reg.VLT_STAT_FUSE_BUSY).raiseEv 200)

/-- A burn cut off by a loss of VAUX or RESET_N leaves a subset of its bits burned (R299, R345). -/
def cutBurn (s : State) : State :=
  let f := s.fuses
  if f.burning = 0 then s
  else
    let (n, s1) := s.draw
    let part := Config.burned n
    let f1 : Fuses := { f with burning := 0, latch := 0, okey := if f.burning = 1 then f.okey ||| okeyCut f.latch part else f.okey,
                               cut := f.cut || (f.burning == 1 && okeyCut f.latch part != 0),
                               floor := if f.burning = 2 then burnFloor f.floor (floorOf f.floor + part % (f.latch + 1 - floorOf f.floor)) else f.floor }
    { s1 with fuses := f1 }

/-! ### Zeroisation -/

/-- Windows of mode ENC or ENC+INT that are enabled. -/
def protectedWindows (s : State) : List Nat :=
  (List.range 16).filter (fun w => s.flag (Reg.VLT_WCTL_EN w) && s.getF (Reg.VLT_WCTL_MODE w) != 0)

/-- A window is initialising. -/
def anyInit (s : State) : Bool := (List.range 16).any (fun w => s.flag (Reg.VLT_WCTL_INIT w))

/-- ZEROISE_COMPLETE: requests to the former windows go on. -/
def execZeroiseComplete (s : State) : Res :=
  okIf (s.alive && s.flag Reg.VLT_STAT_INIT_BUSY) s ({ s with zeroing := [] }.putF Reg.VLT_STAT_INIT_BUSY (anyInit s))

end Sys2Proof.Machine
end

