-- ==== Sys2Proof/Machine/Memory.lean ====
section
/-!
DEFINITION. The memory layer (14_memory_layer.md) and the memory windows of the vault (15_protection.md R304 to R312): lines
of 88-bit words, demand accesses, the scrubber, encryption, integrity tags and the counter tree.
-/

namespace Sys2Proof.Machine

/-! ### Lines -/

/-- The stored word at address / 8; a word never written is the code word of 0. -/
def memWord (s : State) (k : Nat) : BitVec 88 := tget (fun _ => 0) s.mem k

def setMemWord (s : State) (k : Nat) (w : BitVec 88) : State := { s with mem := tset (fun _ => 0) s.mem k w }

/-- The channel of an address (R281). -/
def channelOf (a : Nat) : Nat := a / 256 % 16

/-- The channel offset O of an address (R281). -/
def channelOffset (a : Nat) : Nat := a / 2 ^ 12 % 2 ^ 22 * 256 + a % 256

/-- The address of a channel offset. -/
def channelAddr (c o : Nat) : Nat := o / 256 * 2 ^ 12 + c * 256 + o % 256

/-- The line at a 64-byte-aligned address is poisoned (R286). -/
def linePoisoned (s : State) (a : Nat) : Bool := (List.range 8).any (fun i => mwPoison (memWord s (a / 8 + i)))

/-- The line poisoned: the poison bits of all eight words. -/
def poisonLine (s : State) (a : Nat) : State :=
  (List.range 8).foldl (fun acc i => setMemWord acc (a / 8 + i) (mwSetPoison (memWord acc (a / 8 + i)))) s

/-- A line written with fresh check bits and clear poison: 512 data bits and 64 tag bits (R282). -/
def putLine (s : State) (a data tag : Nat) : State :=
  (List.range 8).foldl (fun acc i =>
    let info := data / 2 ^ (64 * i) % 2 ^ 64 + 2 ^ 64 * (tag / 256 ^ i % 256)
    setMemWord acc (a / 8 + i) (mwEncode (BitVec.ofNat 72 info))) s

/-- A line found uncorrectable: poisoned and reported (R290); `src` is 1 for the scrubber. -/
def reportUnc (s : State) (a src : Nat) : State :=
  let c := channelOf a
  let s1 := poisonLine s a
  let s2 := s1.capture (Reg.MEMC_STAT_UNCORR c)
    [(⟨Reg.MEMC_UADDR_LO c, 31, 0⟩, a), (Reg.MEMC_UADDR_HI_SRC c, src), (Reg.MEMC_UADDR_HI_ADDR_HI c, a / 2 ^ 32)]
  ((s2.raiseF (Reg.MEMC_STAT_UNCORR c)).incF (Reg.MEMC_ECC_UNC_CNT c)).raiseEv (180 + c)

/-- Decoded words of a line: data and tag bits of the words touched, how many of them were corrected, and whether one of them is
uncorrectable. -/
structure LineData where
  data : Nat
  tag : Nat
  fixed : Nat
  bad : Bool

/-- The words of a line that are named, decoded (R285). -/
def decodeLine (s : State) (a : Nat) (words : List Nat) : LineData :=
  words.foldl (fun (l : LineData) i =>
    let put := fun (v : BitVec 72) (n : Nat) =>
      { l with data := l.data + v.toNat % 2 ^ 64 * 2 ^ (64 * i), tag := l.tag + v.toNat / 2 ^ 64 * 256 ^ i, fixed := l.fixed + n }
    match mwDecode (memWord s (a / 8 + i)) with
    | .clean v => put v 0
    | .corrected v => put v 1
    | .bad => { l with bad := true }) { data := 0, tag := 0, fixed := 0, bad := false }

/-- The correctable words of a line rewritten corrected. -/
def rewriteLine (s : State) (a : Nat) : State :=
  (List.range 8).foldl (fun acc i =>
    match mwDecode (memWord acc (a / 8 + i)) with
    | .corrected v => setMemWord acc (a / 8 + i) (mwEncode v)
    | _ => acc) s

def allWords : List Nat := List.range 8

/-- Correctable words found in a line: CORR and COR_CNT (R290). -/
def reportCorr (s : State) (a fixed : Nat) : State :=
  if fixed = 0 then s
  else (s.raiseF (Reg.MEMC_STAT_CORR (channelOf a))).addF (Reg.MEMC_ECC_COR_CNT (channelOf a)) fixed

/-- A read of a line that is already poisoned (R290). -/
def reportPoison (s : State) (a : Nat) : State :=
  let c := channelOf a
  ((s.raiseF (Reg.MEMC_STAT_POISON_RD c)).incF (Reg.MEMC_ERRCNT_POIS_RD_CNT c)).raiseEv (180 + c)

/-- What a read that corrected words leaves: they are reported, and with WB_EN the line is rewritten (R290). -/
def correctedRead (s : State) (a fixed : Nat) : State :=
  if fixed ≠ 0 ∧ s.flag (Reg.MEMC_CTRL_WB_EN (channelOf a)) then rewriteLine (reportCorr s a fixed) a else reportCorr s a fixed

/-- A demand read of words of a line (R290): the data, or nothing with the reports of an uncorrectable or poisoned line. -/
def demandRead (s : State) (a : Nat) (words : List Nat) : State × Option LineData :=
  if linePoisoned s a then (reportPoison s a, none)
  else
    let l := decodeLine s a words
    if l.bad then (reportUnc (reportCorr s a l.fixed) a 0, none) else (correctedRead s a l.fixed, some l)

/-- The read of a read-modify-write (R288): an uncorrectable or poisoned line refuses the write. One found uncorrectable here is poisoned
without UNCORR and its count, as R288 lists WRPOIS alone (DESIGN CHOICE, log 152). -/
def rmwRead (s : State) (a : Nat) : State × Option LineData :=
  let c := channelOf a
  let l := decodeLine s a allWords
  let refused := fun (t : State) =>
    ((t.raiseF (Reg.MEMC_STAT_WRPOIS c)).incF (Reg.MEMC_ERRCNT_WRPOIS_CNT c)).raiseEv (180 + c)
  if linePoisoned s a then (refused s, none)
  else if l.bad then (refused (poisonLine (reportCorr s a l.fixed) a), none)
  else (reportCorr s a l.fixed, some l)

/-! ### Windows -/

/-- A window's data range holds an address. -/
def inWindow (s : State) (w a : Nat) : Bool :=
  let base := s.getF (Reg.VLT_WBASE_BASE w) * 2 ^ 22
  s.flag (Reg.VLT_WCTL_EN w) && decide (base ≤ a) && decide (a < base + 2 ^ s.getF (Reg.VLT_WCTL_SIZE_LOG2 w))

/-- The enabled window that covers an address. -/
def windowOf (s : State) (a : Nat) : Option Nat := (List.range 16).find? (fun w => inWindow s w a)

/-- The node counts n_k of the tree of a window of 2^size bytes, level 0 first (R309); `fuel` bounds the levels. -/
def treeLevels : Nat → Nat → List Nat
  | 0, n => [n]
  | fuel + 1, n => if n ≤ 8 then [n] else n :: treeLevels fuel (n / 8)

def levelsOf (size : Nat) : List Nat := treeLevels 10 (2 ^ (size - 6) / 8)

/-- The tree area of a window in lines, o_L. -/
def treeLines (size : Nat) : Nat := (levelsOf size).foldl (· + ·) 0

/-- The offset o_k of a level. -/
def levelOffset (size k : Nat) : Nat := ((levelsOf size).take k).foldl (· + ·) 0

def winSize (s : State) (w : Nat) : Nat := s.getF (Reg.VLT_WCTL_SIZE_LOG2 w)

/-- The address of node j of level k of a window. -/
def nodeAddr (s : State) (w k j : Nat) : Nat :=
  s.getF (Reg.VLT_WTREE_TBASE w) * 4096 + 64 * (levelOffset (winSize s w) k + j)

/-- The enabled ENC+INT window whose tree area holds an address. -/
def treeAreaOf (s : State) (a : Nat) : Option Nat :=
  (List.range 16).find? (fun w =>
    let base := s.getF (Reg.VLT_WTREE_TBASE w) * 4096
    s.flag (Reg.VLT_WCTL_EN w) && s.getF (Reg.VLT_WCTL_MODE w) == 2 && decide (base ≤ a) &&
      decide (a < base + 64 * treeLines (winSize s w)))

/-- The key that a request with an index uses in a window: the bound copy, or the table entry (Table 15.1). Where the read itself empties
the entry, the request fails without EMPTYIDX and its count, since the entry was not empty when it came (R302; DESIGN CHOICE, log 153). -/
def windowKey (s : State) (w e : Nat) : State × Option (List Nat) :=
  if e = s.getF (Reg.VLT_WCTL_KEY w) then
    let k := tget (fun _ => []) s.winKey w
    (s, if k.isEmpty then none else some k)
  else readKey s e

/-- A line encrypted or decrypted by XTS under a key (R307). -/
def xtsLine (dec : Bool) (key : List Nat) (a data : Nat) : Nat :=
  leNat (xtsUnit dec (deriveKey key 0x45) (deriveKey key 0x54) (a / 64) (leBytes 64 data))

/-- The IV of a line of an ENC+INT window (R308). -/
def lineIv (a v : Nat) : List Nat := 1 :: beBytes 4 (a / 64) ++ beBytes 7 v

/-- Ciphertext and stored tag of a line at a version. -/
def gcmLine (key : List Nat) (a v data : Nat) : Nat × Nat :=
  let k := deriveKey key 0x49
  let ct := gcmCrypt k (lineIv a v) (leBytes 64 data)
  (leNat ct, leNat ((gcmTag k (lineIv a v) [] ct).take 8))

/-- The IV of a tree node (R309). -/
def nodeIv (k j v : Nat) : List Nat := beBytes 12 (2 * 2 ^ 88 + k % 16 * 2 ^ 84 + j % 2 ^ 28 * 2 ^ 56 + v % 2 ^ 56)

/-- The tag of a node with the given counters and version. -/
def nodeTag (key : List Nat) (k j v ctrs : Nat) : Nat :=
  leNat ((gcmTag (deriveKey key 0x49) (nodeIv k j v) (leBytes 56 ctrs) []).take 8)

/-- Counter i of a node or root entry. -/
def ctr (x i : Nat) : Nat := x / 2 ^ (56 * i) % 2 ^ 56

/-- Counter i raised by one. -/
def ctrInc (x i : Nat) : Nat := x + 2 ^ (56 * i)

/-- The root entry of a window; nothing where a word of it is uncorrectable (R309, Table 15.2). -/
def rootEntry (s : State) (w : Nat) : Option Nat :=
  (List.range 7).foldl (fun (acc : Option Nat) i =>
    match acc, cwDecode (cwAt s.rootw (7 * w + i)) with
    | some x, .clean v => some (x + v.toNat * 2 ^ (64 * i))
    | some x, .corrected v => some (x + v.toNat * 2 ^ (64 * i))
    | _, _ => none) (some 0)

def setRoot (s : State) (w x : Nat) : State :=
  { s with rootw := (List.range 7).foldl (fun t i =>
      cwPut t (7 * w + i) (cwEncode (BitVec.ofNat 64 (x / 2 ^ (64 * i))))) s.rootw }

/-- A cached node written back to its line in the tree area, with fresh check bits and clear poison (R310, R312). -/
def writeBackNode (s : State) (a : Nat) : State := putLine s a (tget (fun _ => 0) s.nodes a % 2 ^ 512) 0

/-- Room in the cache of trusted nodes: where it holds 8,192, one of them is written back and dropped (R310). -/
def nodeRoom (s : State) : State :=
  if s.nodes.length < 8192 then s
  else
    let (n, s1) := s.draw
    match s1.nodes[Config.nodeVictim n % 8192]? with
    | none => s1
    | some e => { writeBackNode s1 e.1 with nodes := tset (fun _ => 0) s1.nodes e.1 0 }

/-- A node put into the cache of trusted nodes: its 512 bits plus 2^512. -/
def trustNode (s : State) (a node : Nat) : State :=
  let s1 := if tget (fun _ => 0) s.nodes a = 0 then nodeRoom s else s
  { s1 with nodes := tset (fun _ => 0) s1.nodes a (2 ^ 512 + node) }

/-- The counters of a trusted node at an address: what the cache of verified nodes holds, if it holds the node. -/
def trustedNode (s : State) (a : Nat) : Option Nat :=
  let c := tget (fun _ => 0) s.nodes a
  if c = 0 then none else some (c % 2 ^ 448)

/-- A trusted node whose line in memory is poisoned or uncorrectable: the line is rewritten from the copy (R312). -/
def restoreNode (s : State) (a : Nat) : State :=
  if linePoisoned s a || (decodeLine s a allWords).bad then writeBackNode s a else s

/-- The version of node j of the level below the root: the root entry's counter, or the failure of a bad root. -/
def rootVersion (s : State) (w j : Nat) : State × Option Nat :=
  match rootEntry s w with
  | some r => (s, some (ctr r j))
  | none => (integrityHalt s 5 0 w 0, none)

/-- A node read from memory (R290) and checked against its version (R310): trusted if its tag holds, else the failure. Where its
line is uncorrectable or poisoned its tag is not checked (R312). -/
def nodeCheck (key : List Nat) (w k j a : Nat) (par : State × Option Nat) : State × Option Nat :=
  match par.2 with
  | none => (par.1, none)
  | some v =>
    let l := decodeLine par.1 a allWords
    if linePoisoned par.1 a || l.bad then (integrityHalt par.1 3 0 w (a / 64), none)
    else
      let ctrs := l.data % 2 ^ 448
      let s1 := correctedRead par.1 a l.fixed
      if nodeTag key k j v ctrs = l.data / 2 ^ 448 then (trustNode s1 a l.data, some ctrs)
      else (integrityHalt s1 2 0 w (a / 64), none)

/-- Node j of level k, verified up to a trusted node or the root; `up` counts the levels above it. Nothing where the
device has entered integrity halt (R310, R312). -/
def getNode (key : List Nat) (w : Nat) : Nat → Nat → Nat → State → State × Option Nat
  | 0, k, j, s =>
    match trustedNode s (nodeAddr s w k j) with
    | some v => (restoreNode s (nodeAddr s w k j), some v)
    | none => nodeCheck key w k j (nodeAddr s w k j) (rootVersion s w j)
  | u + 1, k, j, s =>
    match trustedNode s (nodeAddr s w k j) with
    | some v => (restoreNode s (nodeAddr s w k j), some v)
    | none =>
      let p := getNode key w u (k + 1) (j / 8) s
      nodeCheck key w k j (nodeAddr s w k j) (p.1, p.2.map (fun x => ctr x (j % 8)))

/-- The version of window line i (R309). -/
def lineVersion (s : State) (key : List Nat) (w i : Nat) : State × Option Nat :=
  let l := levelsOf (winSize s w)
  let r := getNode key w (l.length - 1) 0 (i / 8) s
  (r.1, r.2.map (fun x => ctr x (i % 8)))

/-- The nodes on the path of window line i, level 0 first: level, node, slot of its child. -/
def pathOf (s : State) (w i : Nat) : List (Nat × Nat × Nat) :=
  (List.range (levelsOf (winSize s w)).length).map (fun k => (k, i / 8 ^ (k + 1), i / 8 ^ k % 8))

/-- A write of window line i increments the counter of every node on its path and the root's, and recomputes the node tags;
nothing where a counter is at its limit or a check failed (R310, R311). The answer is the new version. -/
def bumpPath (s : State) (key : List Nat) (w i lineA : Nat) : State × Option Nat :=
  let path := pathOf s w i
  let top := path.getLast?.map (fun p => p.2.1)
  let got := path.foldl (fun (acc : State × Option (List Nat)) p =>
    match acc.2 with
    | none => acc
    | some xs =>
      let r := getNode key w (path.length - 1 - p.1) p.1 p.2.1 acc.1
      (r.1, r.2.map (fun x => xs ++ [x]))) (s, some [])
  match got.2, top with
  | some xs, some tj =>
    let old := path.zip xs
    let lim := 2 ^ 56 - 1
    match old.find? (fun px => ctr px.2 px.1.2.2 == lim) with
    | some px =>
      let a := if px.1.1 = 0 then lineA else nodeAddr s w (px.1.1 - 1) (i / 8 ^ px.1.1)
      (integrityHalt got.1 4 0 w (a / 64), none)
    | none =>
      match rootEntry got.1 w with
      | none => (integrityHalt got.1 5 0 w 0, none)
      | some root =>
      if ctr root tj = lim then (integrityHalt got.1 4 0 w (nodeAddr s w (path.length - 1) tj / 64), none)
      else
        let new := old.map (fun px => (px.1, ctrInc px.2 px.1.2.2))
        let root1 := ctrInc root tj
        let verOf := fun (k : Nat) => match new[k + 1]? with
          | some px => ctr px.2 px.1.2.2
          | none => ctr root1 tj
        let s1 := new.foldl (fun acc px =>
          let a := nodeAddr s w px.1.1 px.1.2.1
          let t := nodeTag key px.1.1 px.1.2.1 (verOf px.1.1) px.2
          trustNode (putLine acc a (px.2 + 2 ^ 448 * t) 0) a (px.2 + 2 ^ 448 * t)) (setRoot got.1 w root1)
        (s1, new.head?.map (fun px => ctr px.2 px.1.2.2))
  | _, _ => (got.1, none)

/-! ### Requests at a controller -/

/-- How a target takes a request: it answers, it keeps the request and answers later, or the request waits. -/
inductive Served where
  | answer (s : State) (status data : Nat)
  | taken (s : State)
  | waits

/-- The bytes that a narrow access names, as an 8-bit mask within its word. -/
def laneMask (a size : Nat) : Nat := (2 ^ (2 ^ size) - 1) * 2 ^ (a % 8)

/-- A mask of bytes as a mask of bits. -/
def maskBits (be : Nat) : Nat := (List.range 8).foldl (fun acc i => if be.testBit i then acc + 255 * 256 ^ i else acc) 0

/-- A word with the bytes of a narrow write merged; data stand in their byte lanes (R258). -/
def mergeWord (old data a size : Nat) : Nat :=
  let m := maskBits (laneMask a size)
  (data &&& m) ||| (old &&& (2 ^ 64 - 1 - m))

/-- A 512-bit line with a narrow write merged. -/
def mergeLine (line data a size : Nat) : Nat :=
  let i := a / 8 % 8
  let old := line / 2 ^ (64 * i) % 2 ^ 64
  line - old * 2 ^ (64 * i) + mergeWord old data a size * 2 ^ (64 * i)

/-- The bytes a narrow read returns, in the byte lanes of the address. -/
def readLanes (word a size : Nat) : Nat := word % 2 ^ 64 &&& maskBits (laneMask a size)

/-- Size of an access in bytes. -/
def sizeBytes (size : Nat) : Nat := if size ≤ 3 then 2 ^ size else if size = 4 then 64 else 128

/-- What a line of a window (or of none) holds in plain, for a read of some words: state, and the line or an error. -/
def readPlain (s : State) (a key : Nat) (words : List Nat) : State × Option Nat :=
  match windowOf s a with
  | none =>
    match treeAreaOf s a with
    | some _ =>
      let r := demandRead s a words
      let (n, s1) := r.1.draw
      (s1, r.2.map (fun _ => (List.range 8).foldl (fun acc i => acc + (Config.treeArea (8 * n + i)).toNat * 2 ^ (64 * i)) 0))
    | none => let r := demandRead s a words; (r.1, r.2.map (·.data))
  | some w =>
    match s.getF (Reg.VLT_WCTL_MODE w) with
    | 1 =>
      if key = 0 then let r := demandRead s a words; (r.1, r.2.map (·.data))
      else
        let (s0, k) := windowKey s w key
        match k with
        | none => (s0, none)
        | some kb => let r := demandRead s0 a allWords; (r.1, r.2.map (fun l => xtsLine true kb a l.data))
    | 2 =>
      let kb := tget (fun _ => []) s.winKey w
      let r := demandRead s a allWords
      match r.2 with
      | none => (r.1, none)
      | some l =>
        let i := (a - s.getF (Reg.VLT_WBASE_BASE w) * 2 ^ 22) / 64
        let vr := lineVersion r.1 kb w i
        match vr.2 with
        | none => (vr.1, none)
        | some v =>
          let k := deriveKey kb 0x49
          let ct := leBytes 64 l.data
          if leNat ((gcmTag k (lineIv a v) [] ct).take 8) = l.tag then (vr.1, some (leNat (gcmCrypt k (lineIv a v) ct)))
          else (integrityHalt vr.1 1 0 w (a / 64), none)
    | _ => let r := demandRead s a words; (r.1, r.2.map (·.data))

/-- A whole line written; false where nothing was written. -/
def writePlainLine (s : State) (a key data : Nat) : State × Bool :=
  match windowOf s a with
  | none => (putLine s a data 0, true)
  | some w =>
    match s.getF (Reg.VLT_WCTL_MODE w) with
    | 1 =>
      if key = 0 then (putLine s a data 0, true)
      else
        let (s0, k) := windowKey s w key
        match k with
        | none => (s0, false)
        | some kb => (putLine s0 a (xtsLine false kb a data) 0, true)
    | 2 =>
      let kb := tget (fun _ => []) s.winKey w
      let i := (a - s.getF (Reg.VLT_WBASE_BASE w) * 2 ^ 22) / 64
      let b := bumpPath s kb w i a
      match b.2 with
      | none => (b.1, false)
      | some v => let e := gcmLine kb a v data; (putLine b.1 a e.1 e.2, true)
    | _ => (putLine s a data 0, true)

/-- The line that a narrow write reads, in plain (R288, R307, R308). -/
def rmwPlain (s : State) (a key : Nat) : State × Option Nat :=
  match windowOf s a with
  | none => let r := rmwRead s a; (r.1, r.2.map (·.data))
  | some w =>
    match s.getF (Reg.VLT_WCTL_MODE w) with
    | 1 =>
      if key = 0 then let r := rmwRead s a; (r.1, r.2.map (·.data))
      else
        let (s0, k) := windowKey s w key
        match k with
        | none => (s0, none)
        | some kb => let r := rmwRead s0 a; (r.1, r.2.map (fun l => xtsLine true kb a l.data))
    | 2 =>
      let kb := tget (fun _ => []) s.winKey w
      let r := rmwRead s a
      match r.2 with
      | none => (r.1, none)
      | some l =>
        let i := (a - s.getF (Reg.VLT_WBASE_BASE w) * 2 ^ 22) / 64
        let vr := lineVersion r.1 kb w i
        match vr.2 with
        | none => (vr.1, none)
        | some v =>
          let k := deriveKey kb 0x49
          let ct := leBytes 64 l.data
          if leNat ((gcmTag k (lineIv a v) [] ct).take 8) = l.tag then (vr.1, some (leNat (gcmCrypt k (lineIv a v) ct)))
          else (integrityHalt vr.1 1 0 w (a / 64), none)
    | _ => let r := rmwRead s a; (r.1, r.2.map (·.data))

/-- The key index test of Table 15.1: the state with the refusal recorded, and whether the request is refused. -/
def keyRefused (s : State) (a key : Nat) : State × Bool :=
  match windowOf s a with
  | none => (s, false)
  | some w =>
    match s.getF (Reg.VLT_WCTL_MODE w) with
    | 1 =>
      if key = 0 ∨ keyHeld s key then (s, false)
      else (((s.raiseF Reg.VLT_STAT_EMPTYIDX).incF Reg.VLT_CNT_EMPTY_CNT).raiseEv 197, true)
    | 2 =>
      if key = s.getF (Reg.VLT_WCTL_KEY w) ∧ keyHeld s key then (s, false)
      else (((s.raiseF Reg.VLT_STAT_MISMATCH).incF Reg.VLT_CNT_MIS_CNT).raiseEv 196, true)
    | _ => (s, false)

/-- A request to the window waits while the window initialises or is being zeroised (R305, R316). -/
def windowBusy (s : State) (a : Nat) : Bool :=
  (match windowOf s a with | some w => s.flag (Reg.VLT_WCTL_INIT w) | none => false) ||
  s.zeroing.any (fun w =>
    let base := s.getF (Reg.VLT_WBASE_BASE w) * 2 ^ 22
    decide (base ≤ a) && decide (a < base + 2 ^ winSize s w))

/-- The answer to a read of a line or less. -/
def serveRead (s : State) (r : NocReq) : Served :=
  let la := r.addr / 64 * 64
  let words := if r.size ≤ 3 then [r.addr / 8 % 8] else allWords
  let p := readPlain s la r.key words
  match p.2 with
  | none => if p.1.phase = .integrity then .taken p.1 else .answer p.1 1 0
  | some d => .answer p.1 0 (if r.size ≤ 3 then readLanes (d / 2 ^ (64 * (r.addr / 8 % 8))) r.addr r.size else d)

/-- One of the two MEM cycles of the slot is open for demand requests (R435). -/
def memOpen (s : State) : Bool := dutyOpen s (s.time.vco / 2) || dutyOpen s (s.time.vco / 2 + 1)

/-- A memory controller serves a request (R287 to R290, R306 to R308). No answer leaves it in an integrity halt (R314). -/
def serveMem (s : State) (r : NocReq) : Served :=
  let c := channelOf r.addr
  let la := r.addr / 64 * 64
  if s.flag (Reg.MEMC_STAT_SREF c) || windowBusy s r.addr || !memOpen s then .waits
  else if r.addr % sizeBytes r.size ≠ 0 then .answer s 1 0
  else
    let kr := keyRefused s la r.key
    match r.op with
    | 0 =>
      if 5 < r.size then .answer s 1 0
      else if kr.2 then .answer kr.1 1 0
      else if r.size = 5 then
        let p := readPlain s la r.key allWords
        let q := readPlain p.1 (la + 64) r.key allWords
        if q.1.phase = .integrity then .taken q.1
        else
          match p.2, q.2 with
          | some x, some y => .answer q.1 0 (x + 2 ^ 512 * y)
          | _, _ => .answer q.1 1 0
      else serveRead s r
    | 1 =>
      if 3 < r.size then .answer s 1 0
      else if kr.2 then .answer kr.1 1 0
      else
        let p := rmwPlain s la r.key
        match p.2 with
        | none => if p.1.phase = .integrity then .taken p.1 else .answer p.1 1 0
        | some d =>
          let w := writePlainLine p.1 la r.key (mergeLine d r.data r.addr r.size)
          if w.1.phase = .integrity then .taken w.1 else .answer w.1 (if w.2 then 0 else 1) 0
    | 2 =>
      if kr.2 then .answer kr.1 1 0
      else
        let w := writePlainLine s la r.key (r.data % 2 ^ 512)
        if w.1.phase = .integrity then .taken w.1 else .answer w.1 (if w.2 then 0 else 1) 0
    | _ => .answer s 1 0

/-! ### The scrubber and refresh -/

/-- The controllers run: the device is on, no debug halt or low-power state holds them. -/
def memRuns (s : State) (c : Nat) : Bool := s.alive && !s.flag (Reg.MEMC_STAT_SREF c)

/-- MEMORY_SCRUB_VISIT: the scrubber of channel c reads its next line (R291). -/
def execMemoryScrubVisit (c : Fin 16) (s : State) : Res :=
  if memRuns s c.val && s.flag (Reg.MEMC_CTRL_SCRUB_EN c.val) then
    let l := s.getF (Reg.MEMC_SCRUB_POS_LINE c.val)
    let a := channelAddr c.val (64 * l)
    let d := decodeLine s a allWords
    let s1 :=
      if linePoisoned s a then reportPoison s a
      else if d.bad then reportUnc (reportCorr s a d.fixed) a 1
      else if d.fixed = 0 then s else rewriteLine (reportCorr s a d.fixed) a
    let last := l = 16777215
    let s2 := s1.setF (Reg.MEMC_SCRUB_POS_LINE c.val) (if last then 0 else l + 1)
    ok (if last then s2.setReg (Reg.MEMC_SWEEP c.val) (s2.reg (Reg.MEMC_SWEEP c.val) + 1) else s2)
  else ok s

/-- REFRESH: a refresh command is issued (R293). The command changes no stored word. -/
def execRefresh (c : Fin 16) (s : State) : Res := okIf (memRuns s c.val) s (hotFollows s c.val)

/-! ### Enabling and disabling windows -/

/-- The data range and, for ENC+INT, the tree area of a window setting, as (start, length) pairs. -/
def rangesOf (mode size base tbase : Nat) : List (Nat × Nat) :=
  (base * 2 ^ 22, 2 ^ size) :: (if mode = 2 then [(tbase * 4096, 64 * treeLines size)] else [])

def rangesOverlap (a b : Nat × Nat) : Bool := decide (a.1 < b.1 + b.2) && decide (b.1 < a.1 + a.2)

/-- The tests of R304 for enabling window w with a WCTL value. -/
def windowAllowed (s : State) (w : Nat) (v : Nat) : Bool :=
  let mode := nbits v 29 28
  let size := nbits v 5 0
  let base := s.getF (Reg.VLT_WBASE_BASE w)
  let tbase := s.getF (Reg.VLT_WTREE_TBASE w)
  let mine := rangesOf mode size base tbase
  let others := ((List.range 16).filter (fun o => o != w && s.flag (Reg.VLT_WCTL_EN o))).flatMap (fun o =>
    rangesOf (s.getF (Reg.VLT_WCTL_MODE o)) (winSize s o) (s.getF (Reg.VLT_WBASE_BASE o)) (s.getF (Reg.VLT_WTREE_TBASE o)))
  decide (22 ≤ size) && decide (size ≤ 34) && (base * 2 ^ 22) % 2 ^ size == 0 && mode != 3 &&
    (mode == 0 || keyHeld s (nbits v 21 16)) &&
    (mode != 2 || (decide (size ≤ 33) && decide (tbase * 4096 + 64 * treeLines size ≤ 2 ^ 34))) &&
    !(mine.any (fun a => others.any (rangesOverlap a))) &&
    !(mode == 2 && rangesOverlap (mine.getD 0 (0, 0)) (mine.getD 1 (0, 0)))

/-- An accepted enable: the key is bound, WINFO reports the tree, initialisation starts for ENC and ENC+INT (R304, R305). -/
def windowOn (s : State) (w v : Nat) : State :=
  let mode := nbits v 29 28
  let size := nbits v 5 0
  let r := readKey s (nbits v 21 16)
  let s1 := r.1.setReg (Reg.VLT_WCTL w) (BitVec.ofNat 32 (v % 2 ^ 32) &&& 0xB03F003F#32)
  let s2 := { s1 with winKey := tset (fun _ => []) s1.winKey w (if mode = 0 then [] else r.2.getD []) }
  let info := if mode = 2 then (levelsOf size).length * 2 ^ 28 + treeLines size else 0
  let s3 := s2.setReg (Reg.VLT_WINFO w) (BitVec.ofNat 32 info)
  if mode = 0 then s3 else (s3.raiseF (Reg.VLT_WCTL_INIT w)).raiseF Reg.VLT_STAT_INIT_BUSY

/-- A disable: the binding ends, contents stay, every node of the window in the cache is written back (R310). -/
def windowOff (s : State) (w v : Nat) : State :=
  let base := s.getF (Reg.VLT_WTREE_TBASE w) * 4096
  let n := treeLines (winSize s w)
  let mine := fun (a : Nat) => s.getF (Reg.VLT_WCTL_MODE w) == 2 && decide (base ≤ a) && decide (a < base + 64 * n)
  let s0 := ((tkeys id s.nodes).filter mine).foldl writeBackNode s
  let s1 := s0.setReg (Reg.VLT_WCTL w) (BitVec.ofNat 32 (v % 2 ^ 32) &&& 0x303F003F#32)
  let s2 := { s1.setReg (Reg.VLT_WINFO w) 0 with
                winKey := tset (fun _ => []) s1.winKey w [], nodes := tmap (fun _ => 0) (fun a x => if mine a then 0 else x) s1.nodes }
  s2.putF Reg.VLT_STAT_INIT_BUSY (anyInit s2 || !s2.zeroing.isEmpty)

/-- A write of VLT_WCTLw (R304). -/
def wctlWrite (s : State) (w : Nat) (v : Word32) : State :=
  let on := s.flag (Reg.VLT_WCTL_EN w)
  if v.getLsbD 31 then
    if on then s
    else if windowAllowed s w v.toNat then windowOn s w v.toNat
    else (s.raiseF Reg.VLT_STAT_BADWIN).raiseEv 198
  else if on then windowOff s w v.toNat
  else s.setReg (Reg.VLT_WCTL w) (v &&& 0x303F003F#32)

/-- WINDOW_ENABLE: a write of VLT_WCTLw with EN = 1. -/
def execWindowEnable (w : Fin 16) (v : Word32) (s : State) : Res :=
  if s.alive then ok (wctlWrite s w.val (v ||| 0x80000000#32)) else ok s

/-- WINDOW_DISABLE: a write of VLT_WCTLw with EN = 0. -/
def execWindowDisable (w : Fin 16) (v : Word32) (s : State) : Res :=
  if s.alive then ok (wctlWrite s w.val (v &&& 0x7FFFFFFF#32)) else ok s

/-- Every line of a window written as the encryption of zero data (R305). -/
def initLines (s : State) (w : Nat) : State :=
  let kb := tget (fun _ => []) s.winKey w
  let base := s.getF (Reg.VLT_WBASE_BASE w) * 2 ^ 22
  (List.range (2 ^ (winSize s w - 6))).foldl (fun acc i =>
    let a := base + 64 * i
    if s.getF (Reg.VLT_WCTL_MODE w) = 2 then let e := gcmLine kb a 0 0; putLine acc a e.1 e.2
    else putLine acc a (xtsLine false kb a 0) 0) s

/-- The tree of a window written with all counters 0 and valid node tags, and its root entry cleared (R305). -/
def initTree (s : State) (w : Nat) : State :=
  let kb := tget (fun _ => []) s.winKey w
  let lv := levelsOf (winSize s w)
  let s1 := (lv.zipIdx).foldl (fun acc nk =>
    (List.range nk.1).foldl (fun acc2 j => putLine acc2 (nodeAddr s w nk.2 j) (2 ^ 448 * nodeTag kb nk.2 j 0 0) 0) acc) s
  setRoot s1 w 0

/-- WINDOW_INIT_COMPLETE: the lines (and the tree) have been written, INIT clears and event 198 is raised (R305). -/
def execWindowInitComplete (w : Fin 16) (s : State) : Res :=
  if s.alive && s.flag (Reg.VLT_WCTL_INIT w.val) then
    let s1 := initLines s w.val
    let s2 := if s.getF (Reg.VLT_WCTL_MODE w.val) = 2 then initTree s1 w.val else s1
    let s3 := s2.clearF (Reg.VLT_WCTL_INIT w.val)
    ok ((s3.putF Reg.VLT_STAT_INIT_BUSY (anyInit s3 || !s3.zeroing.isEmpty)).raiseEv 198)
  else ok s

end Sys2Proof.Machine
end

