-- ==== Sys2Proof/Machine/TrunkCode.lean ====
section
/-!
DEFINITION. The line coding of trunk lanes (10_trunk_links.md R194 to R197): 66-bit blocks, the self-synchronising scrambler
and the RS(104,96) code over GF(2^11). A codeword is a number whose bit i is the i-th bit sent.
-/

namespace Sys2Proof.Machine

/-! ### GF(2^11) -/

/-- α times an element, with α^11 = α^2 + 1. -/
def gf11Alpha (a : Nat) : Nat := if 1024 ≤ a then (2 * a ^^^ 0x805) % 2048 else 2 * a

/-- The product in GF(2^11). -/
def gf11Mul (a b : Nat) : Nat :=
  ((List.range 11).foldl (fun (acc : Nat × Nat) i =>
    (if b.testBit i then acc.1 ^^^ acc.2 else acc.1, gf11Alpha acc.2)) (0, a)).1

/-- α^n. -/
def gf11Pow : Nat → Nat
  | 0 => 1
  | n + 1 => gf11Alpha (gf11Pow n)

/-- The inverse, a^2046. -/
def gf11Inv (a : Nat) : Nat :=
  ((List.range 10).foldl (fun (acc : Nat × Nat) _ => let sq := gf11Mul acc.2 acc.2; (gf11Mul acc.1 sq, sq)) (1, a)).1

/-- A polynomial, constant term first, at a point. -/
def gf11Eval (p : List Nat) (x : Nat) : Nat := p.foldr (fun c acc => c ^^^ gf11Mul acc x) 0

/-- The product of two polynomials, constant term first. -/
def gf11PolyMul (p q : List Nat) : List Nat :=
  (List.range (p.length + q.length - 1)).map (fun k =>
    (List.range (k + 1)).foldl (fun acc i => acc ^^^ gf11Mul (p.getD i 0) (q.getD (k - i) 0)) 0)

/-- The generator (x − α^0) … (x − α^7), constant term first (R196). -/
def rsGen : List Nat := (List.range 8).foldl (fun g i => gf11PolyMul g [gf11Pow i, 1]) [1]

/-! ### Symbols -/

/-- The level of a pair of bits, the earlier bit the more significant: 00, 01, 11, 10 are −3, −1, +1, +3 (R194). -/
def pam4Level (first second : Bool) : Int :=
  match first, second with
  | false, false => -3
  | false, true => -1
  | true, true => 1
  | true, false => 3

/-- The pair of bits that a received level stands for, by the thresholds −2, 0, +2 between the levels. -/
def pam4Pair (x : Int) : Bool × Bool := (decide (0 ≤ x), decide (-2 ≤ x) && decide (x < 2))

/-- The symbols of `len` bits, bit 0 first: in NRZ one bit each, written −1 and +1. -/
def lineSymbols (pam4 : Bool) (len w : Nat) : List Int :=
  if pam4 then (List.range (len / 2)).map (fun i => pam4Level (w.testBit (2 * i)) (w.testBit (2 * i + 1)))
  else (List.range len).map (fun i => if w.testBit i then 1 else -1)

/-- The bits of received symbols. -/
def symbolBits (pam4 : Bool) (syms : List Int) : Nat :=
  syms.foldr (fun x acc =>
    if pam4 then (pam4Pair x).1.toNat + 2 * (pam4Pair x).2.toNat + 4 * acc else (decide (0 ≤ x)).toNat + 2 * acc) 0

/-! ### RS(104,96) -/

/-- Symbol j of a codeword. -/
def cwSymbol (w j : Nat) : Nat := w / 2 ^ (11 * j) % 2048

/-- The parity symbols of 96 message symbols, degree 7 first. -/
def rsParity (msg : List Nat) : List Nat :=
  msg.foldl (fun (r : List Nat) m =>
    let fb := m ^^^ r.getD 0 0
    (List.range 8).map (fun i => r.getD (i + 1) 0 ^^^ gf11Mul fb (rsGen.getD (7 - i) 0))) (List.replicate 8 0)

/-- A codeword with its parity, 1,144 bits (R196). -/
def rsEncode (w : Nat) : Nat :=
  let par := rsParity ((List.range 96).map (cwSymbol w))
  w % 2 ^ 1056 + par.zipIdx.foldl (fun acc pi => acc + pi.1 * 2 ^ (1056 + 11 * pi.2)) 0

/-- The syndromes of a received codeword; symbol j stands at degree 103 − j. -/
def rsSyndromes (w : Nat) : List Nat :=
  (List.range 8).map (fun i => (List.range 104).foldl (fun acc j => gf11Mul acc (gf11Pow i) ^^^ cwSymbol w j) 0)

/-- The state of the Berlekamp-Massey search: locator, previous locator, its length, shift, last discrepancy. -/
structure BmState where
  c : List Nat
  b : List Nat
  len : Nat
  shift : Nat
  last : Nat

/-- One step of the search, for syndrome n. -/
def bmStep (syn : List Nat) (t : BmState) (n : Nat) : BmState :=
  let d := (List.range (t.len + 1)).foldl (fun acc i => acc ^^^ gf11Mul (t.c.getD i 0) (if i ≤ n then syn.getD (n - i) 0 else 0)) 0
  if d = 0 then { t with shift := t.shift + 1 }
  else
    let f := gf11Mul d (gf11Inv t.last)
    let sh := List.replicate t.shift 0 ++ t.b
    let c1 := (List.range (max t.c.length sh.length)).map (fun i => t.c.getD i 0 ^^^ gf11Mul f (sh.getD i 0))
    if 2 * t.len ≤ n then { c := c1, b := t.c, len := n + 1 - t.len, shift := 1, last := d }
    else { t with c := c1, shift := t.shift + 1 }

/-- The error locator. -/
def rsLocator (syn : List Nat) : BmState :=
  (List.range 8).foldl (bmStep syn) { c := [1], b := [1], len := 0, shift := 1, last := 1 }

/-- Degrees below 104 at which the locator finds an error, with α^-degree. -/
def rsPlaces (c : List Nat) : List (Nat × Nat) :=
  let inv := gf11Inv 2
  (((List.range 104).foldl (fun (acc : List (Nat × Nat) × Nat) d =>
    (if gf11Eval c acc.2 = 0 then acc.1 ++ [(d, acc.2)] else acc.1, gf11Mul acc.2 inv)) ([], 1))).1

/-- A received codeword decoded: the corrected one and how many symbols were corrected, or nothing (R197). -/
def rsDecode (w : Nat) : Option (Nat × Nat) :=
  let syn := rsSyndromes w
  if syn.all (fun x => x == 0) then some (w, 0)
  else
    let t := rsLocator syn
    let places := rsPlaces t.c
    if 4 < t.len ∨ places.length ≠ t.len then none
    else
      let omega := (gf11PolyMul syn t.c).take 8
      let deriv := (List.range 8).map (fun i => if i % 2 = 0 then t.c.getD (i + 1) 0 else 0)
      let fixed := places.foldl (fun acc p =>
        let e := gf11Mul (gf11Inv p.2) (gf11Mul (gf11Eval omega p.2) (gf11Inv (gf11Eval deriv p.2)))
        acc ^^^ e * 2 ^ (11 * (103 - p.1))) w
      if (rsSyndromes fixed).all (fun x => x == 0) then some (fixed, t.len) else none

/-! ### Blocks -/

/-- 64 payload bits scrambled, bit 0 first; the state holds the last 58 scrambled bits, newest at bit 0 (Table 10.2). -/
def scramble (st payload : Nat) : Nat × Nat :=
  (List.range 64).foldl (fun (acc : Nat × Nat) i =>
    let b := (xor (payload.testBit i) (xor (acc.2.testBit 38) (acc.2.testBit 57))).toNat
    (acc.1 + b * 2 ^ i, (2 * acc.2 + b) % 2 ^ 58)) (0, st)

/-- 64 received bits descrambled. -/
def descramble (st payload : Nat) : Nat × Nat :=
  (List.range 64).foldl (fun (acc : Nat × Nat) i =>
    let r := payload.testBit i
    let b := (xor r (xor (acc.2.testBit 38) (acc.2.testBit 57))).toNat
    (acc.1 + b * 2 ^ i, (2 * acc.2 + r.toNat) % 2 ^ 58)) (0, st)

/-- A block on the line: sync header 01 for data form and 10 for control form, first bit first, then the payload. -/
def blockBits (ctrl : Bool) (payload : Nat) : Nat := (if ctrl then 1 else 2) + 4 * payload

/-- Sixteen blocks (control form, payload) scrambled and, with FEC, coded; the codeword and the scrambler's state. -/
def encodeCw (fec : Bool) (st : Nat) (blocks : List (Bool × Nat)) : Nat × Nat :=
  let r := blocks.zipIdx.foldl (fun (acc : Nat × Nat) bi =>
    let sc := scramble acc.2 bi.1.2
    (acc.1 + blockBits bi.1.1 sc.1 * 2 ^ (66 * bi.2), sc.2)) (0, st)
  (if fec then rsEncode r.1 else r.1, r.2)

/-- The blocks of a codeword, descrambled, and the descrambler's state. -/
def cwBlocks (st w : Nat) : List (Bool × Nat) × Nat :=
  (List.range 16).foldl (fun (acc : List (Bool × Nat) × Nat) i =>
    let b := w / 2 ^ (66 * i) % 2 ^ 66
    let ds := descramble acc.2 (b / 4)
    (acc.1 ++ [(b % 4 == 1, ds.1)], ds.2)) ([], st)

/-- Every sync header is 01 or 10. -/
def headersOk (w : Nat) : Bool :=
  (List.range 16).all (fun i => let h := w / 2 ^ (66 * i) % 4; h == 1 || h == 2)

/-- A received codeword: corrected symbols, or nothing where it is uncorrectable (R197); and the codeword to descramble. -/
def decodeCw (fec : Bool) (w : Nat) : Option Nat × Nat :=
  if fec then
    match rsDecode w with
    | some (x, n) => if headersOk x then (some n, x) else (none, x)
    | none => (none, w)
  else if headersOk w then (some 0, w) else (none, w)

end Sys2Proof.Machine
end

