-- ==== Sys2Proof/Machine/Trunk.lean ====
section
/-!
DEFINITION. Trunk lanes (10_trunk_links.md R191 to R216): rate, codewords, superframes, streams and queues.
-/

namespace Sys2Proof.Machine

def State.setTk (s : State) (n : Nat) (l : TkLane) : State := { s with tk := tset (fun _ => TkLane.reset) s.tk n l }

/-! ### Rate -/

/-- The trunk rate of a quad breaks R192 under the root reference and M in force: baud 20·H·f_ref outside 25.6 to 32 GBd,
or a line rate above 35·CX with CX = M·f_ref/4. -/
def tkRateBad (s : State) (h : Nat) (pam4 : Bool) : Bool :=
  let baud := 20 * h * s.refHz
  let b := if pam4 then 2 else 1
  h == 0 || baud < 25600000000 || 32000000000 < baud || 35 * s.rootM < 80 * h * b

/-- RATE_ERR of LQ_TRK evaluated afresh; event 144 + q when it changes from 0 to 1 (R193). -/
def tkRateCheck (s : State) (q : Nat) : State :=
  let bad := s.getF (Reg.LQ_MODE_MODE q) == 2 && tkRateBad s (s.getF (Reg.LQ_TRK_H q)) (s.flag (Reg.LQ_TRK_PAM4 q))
  let s1 := s.putF (Reg.LQ_TRK_RATE_ERR q) bad
  if bad && !s.flag (Reg.LQ_TRK_RATE_ERR q) then s1.raiseEv (144 + q) else s1

/-- A write of LQ_TRK, under the conditions of R174 (R191). -/
def lqTrkWrite (s : State) (q : Nat) (v : Word32) : State :=
  let h := nbits v.toNat 7 0
  let p := v.getLsbD 8
  if h = s.getF (Reg.LQ_TRK_H q) ∧ p = s.flag (Reg.LQ_TRK_PAM4 q) then s
  else if quadDisabled s q then tkRateCheck ((s.setF (Reg.LQ_TRK_H q) h).putF (Reg.LQ_TRK_PAM4 q) p) q
  else s.raiseF (Reg.LQ_MODE_BADCFG q)

/-! ### Settings sampled at HANDSHAKE -/

/-- Receive key index and enables of a stream or queue setting. -/
def rxEnabled (c : Nat) : Bool := c.testBit 30
def rxKeyOf (c : Nat) : Nat := nbits c 13 8

/-- A set of enables as eight bits. -/
def enableSet (cs : List Nat) (bit : Nat) : Nat :=
  cs.zipIdx.foldl (fun acc ci => if ci.1.testBit bit then acc + 2 ^ ci.2 else acc) 0

/-- The settings of a lane as they stand. -/
def sampleCfg (s : State) (n : Nat) : TkCfg :=
  let reg8 := fun (f : Nat → Nat → Nat) => (List.range 8).map (fun i => (s.reg (f n i)).toNat)
  { txSched := (s.reg (Reg.LN_TK_TXSCHED0 n)).toNat + 2 ^ 32 * (s.reg (Reg.LN_TK_TXSCHED1 n)).toNat
    rxSched := (s.reg (Reg.LN_TK_RXSCHED0 n)).toNat + 2 ^ 32 * (s.reg (Reg.LN_TK_RXSCHED1 n)).toNat
    scfg := reg8 Reg.LN_TK_SCFG
    qcfg := reg8 Reg.LN_TK_QCFG
    rxBase := reg8 Reg.LN_TK_QRXB
    txBase := reg8 Reg.LN_TK_QTXB
    h := s.getF (Reg.LQ_TRK_H (n / 4))
    pam4 := s.flag (Reg.LQ_TRK_PAM4 (n / 4))
    fec := s.flag (Reg.LN_TK_CTRL_FEC n)
    keys := [] }

/-- The key indices that enabled streams and queues of a setting name: TXKEY where TXEN is 1 and RXKEY where RXEN is 1 (DESIGN CHOICE,
log 118: R224 does not say in which direction a stream or queue must be enabled). -/
def keysNamed (c : TkCfg) : List Nat :=
  ((c.scfg ++ c.qcfg).flatMap (fun x =>
    (if x.testBit 31 then [nbits x 5 0] else []) ++ (if rxEnabled x then [rxKeyOf x] else []))).eraseDups.filter (· != 0)

/-- A stream entry stands at position 0 or 1 (R200). -/
def badSched (x : Nat) : Bool := x % 16 < 8 || x / 16 % 16 < 8

/-- Entry to HANDSHAKE: settings are sampled, keys copied, an IV seed drawn while RNG_OK is 1 (R206, R226, R303). -/
def enterHandshake (s : State) (n : Nat) : State :=
  let c := sampleCfg s n
  let r := (keysNamed c).foldl (fun (acc : State × List (Nat × List Nat)) e =>
    let k := readKey acc.1 e
    (k.1, match k.2 with | some b => acc.2 ++ [(e, b)] | none => acc.2)) (s, [])
  let rng := r.1.flag Reg.VLT_STAT_RNG_OK
  let d := r.1.draw
  let s1 := if rng then d.2 else r.1
  let l := s1.tkLane n
  let l1 := { TkLane.reset with cfg := { c with keys := r.2 }, txScr := l.txScr, rxScr := l.rxScr, txq := l.txq,
                                seed := if rng then some (Config.ivSeed d.1).toNat else none,
                                line := l.line, lineLen := l.lineLen, pins := l.pins, vbad := l.vbad, vbadNext := l.vbadNext }
  let s2 := (s1.setTk n l1).laneTo n 5
  if badSched c.txSched || badSched c.rxSched then (s2.raiseF (Reg.LN_TK_STAT_BADSCHED n)).raiseEv n else s2

/-- What a return to TRAIN or an exit from ACTIVE clears: SFN, SEQ, send points, unacknowledged packets and everything on
the way; the scramblers run on, and verdicts are presented to the end of their beat (R208, R215, R218). -/
def tkClear (l : TkLane) : TkLane :=
  { TkLane.reset with txScr := l.txScr, rxScr := l.rxScr, line := l.line, lineLen := l.lineLen, pins := l.pins,
                      vok := l.vok, vbad := l.vbad, vbadNext := l.vbadNext,
                      txq := List.replicate 8 { TkTxQ.reset with live := false } }

/-- The lane leaves ACTIVE, or an earlier trunk state, for a given state. -/
def tkLeave (s : State) (n st : Nat) : State :=
  ((s.setTk n (tkClear (s.tkLane n))).clearF (Reg.LN_TK_STAT_LOCKED n)).laneTo n st

/-- The streams whose superframes a loss of lock leaves incomplete: those presented, where superframe lock was held. -/
def openStreams (l : TkLane) : List Nat :=
  if l.sfOk then (List.range 8).filter (fun c => rxEnabled (l.cfg.scfg.getD c 0)) else []

/-- The superframes of stream c that a loss of lock leaves incomplete: the one in progress, where a codeword of it has come, and the one
before, where its verdict has not been presented (R208). -/
def openFrames (l : TkLane) (c : Nat) : Nat :=
  let cw := l.rxCw.getD 0
  (decide (cw % 256 ≠ 0)).toNat + (decide (256 ≤ cw ∧ cw % 256 ≤ c) || (l.rxs.getD c TkRxS.reset).due).toNat

/-- The lane leaves ACTIVE by a loss of lock: each superframe that stays incomplete is presented VBAD in the next beat: VBAD, VBAD_CNT,
event n (R208). Both superframes of a stream fall into that one beat (DESIGN CHOICE, log 128). -/
def tkLoseLock (s : State) (n st : Nat) : State :=
  let l := s.tkLane n
  let cs := (openStreams l).filter (fun c => openFrames l c != 0)
  let s1 := s.setTk n { l with vbadNext := l.vbadNext ||| cs.foldl (fun acc c => acc + 2 ^ c) 0 }
  let s2 := if cs.isEmpty then s1
    else ((s1.raiseF (Reg.LN_TK_STAT_VBAD n)).addF (Reg.LN_TK_VER_VBAD_CNT n) (cs.foldl (fun acc c => acc + openFrames l c) 0)).raiseEv n
  tkLeave s2 n st

/-! ### Keys and IVs -/

def laneKey (l : TkLane) (e : Nat) : List Nat :=
  match l.cfg.keys.find? (fun k => k.1 == e) with
  | some k => k.2
  | none => List.replicate 32 0

/-- The IV of a stream superframe (identifier c) or packet (identifier 8 + q) (R206). -/
def linkIv (seed ident count : Nat) : List Nat := beBytes 6 seed ++ [ident] ++ beBytes 5 (count % 2 ^ 40)

/-- Positions of a stream in a codeword. -/
def streamPlaces (sched c : Nat) : List Nat := (List.range 16).filter (fun p => streamAt sched p == some c)

/-- The place in its superframe of the word of stream c at position p of codeword cw. -/
def wordIndex (sched c cw p : Nat) : Nat :=
  let ps := streamPlaces sched c
  cw % 256 * ps.length + (ps.takeWhile (fun q => q < p)).length

/-- A stream word encrypted or decrypted: the key stream depends on the IV and the word's place only (R206). -/
def streamCrypt (key : List Nat) (seed c sfn j payload : Nat) : Nat :=
  let ks := gcmStream key (linkIv seed c sfn) (j / 2 + 2)
  payload ^^^ leNat ((ks.drop (8 * (j % 2))).take 8)

/-- The octets of 64-bit payloads in order. -/
def payloadBytes (ws : List Nat) : List Nat := ws.flatMap (leBytes 8)

/-- The first 64 bits of a GCM tag as a payload, tag octet 0 first (R206). -/
def tag64 (key iv aad ct : List Nat) : Nat := leNat ((gcmTag key iv aad ct).take 8)

/-! ### Sending -/

/-- A sector's present TAINT. -/
def sectorTaint (s : State) (n : Nat) : Bool := s.tainted (landing n)

/-- Ring entries of a size field (R203). -/
def ringSize (rsz : Nat) : Nat := 2 ^ max 1 (min 12 rsz)

def txRing (l : TkLane) (q : Nat) : Nat := ringSize (nbits (l.cfg.qcfg.getD q 0) 23 20)
def rxRing (l : TkLane) (q : Nat) : Nat := ringSize (nbits (l.cfg.qcfg.getD q 0) 27 24)

/-- The QACK of receive queue q (R204): ACK is the last SEQ delivered, LIMIT the highest the ring has room for. -/
def qackFor (s : State) (l : TkLane) (n q : Nat) (nak : Bool) : Nat :=
  let size := rxRing l q
  let head := s.getF (Reg.LN_TK_QRXP_HEAD n q) % size
  let tail := s.getF (Reg.LN_TK_QRXP_TAIL n q) % size
  let free := (head + size - 1 - tail) % size
  let d := (l.rxq.getD q (0, 0)).2
  0x66 + q * 2 ^ 8 + nak.toNat * 2 ^ 11 + (d + 2 ^ 16 - 1) % 2 ^ 16 * 2 ^ 12 + (d + free + 2 ^ 16 - 1) % 2 ^ 16 * 2 ^ 28

/-- A QACK queued. -/
def queueAck (s : State) (n q : Nat) (nak : Bool) : State :=
  let l := s.tkLane n
  s.setTk n { l with acks := l.acks ++ [qackFor s l n q nak] }

/-- The superframe that ends at codeword cw is closed at the transmitter: CRC, tag and TAINT of every stream (R199, R206). -/
def closeTx (l : TkLane) (cw : Nat) : TkLane :=
  let sfn := cw / 256 - 1
  let close := fun (c : Nat) (t : TkTxS) =>
    let k := txKeyOf l c
    let bs := payloadBytes t.words
    let keyed := txEnabled l c && k != 0 && 0 < cw
    { words := [], taint := false, crc := crc32 bs, closed := t.taint,
      tag := if keyed then tag64 (laneKey l k) (linkIv (l.seed.getD 0) c sfn) [] bs else 0 : TkTxS }
  { l with txs := l.txs.zipIdx.map (fun tc => close tc.2 tc.1) }

/-- The block of stream c at position p of codeword cw, and the lane that has sent it (R201). -/
def streamBlock (l : TkLane) (c cw p : Nat) (taintNow : Bool) : TkLane × (Bool × Nat) :=
  let word := l.taken.find? (fun w => w.pos == 16 * cw + p)
  let k := txKeyOf l c
  let taint := match word with | some w => w.taint | none => taintNow
  let sidl := 0x78 + c * 2 ^ 8 + taint.toNat * 2 ^ 11
  let blk : Bool × Nat :=
    if !txEnabled l c then (true, sidl)
    else if k = 0 then
      match word with
      | some w => if w.valid then (false, w.payload) else (true, sidl)
      | none => (true, sidl)
    else
      match word with
      | some w => (false, w.payload)
      | none => (false, streamCrypt (laneKey l k) (l.seed.getD 0) c (cw / 256) (wordIndex l.cfg.txSched c cw p) 0)
  let t := l.txs.getD c TkTxS.reset
  let t1 : TkTxS := { t with words := t.words ++ [blk.2], taint := t.taint || (match word with | some w => w.taint | none => false) }
  ({ l with txs := l.txs.set c t1, taken := l.taken.filter (fun w => w.pos != 16 * cw + p) }, blk)

/-- The block of the queue pool: the packet being sent, else a QACK, else the next packet, whose first block is a QST, else IDL; nothing
but IDL in a debug halt (R202, R204, R215). -/
def poolBlock (l : TkLane) (halt : Bool) : TkLane × (Bool × Nat) :=
  if halt then (l, (true, 0x1E))
  else
    match l.qOut, l.acks with
    | b :: r, a :: as =>
      if b.1 && nbits b.2 7 0 == 0x4B then ({ l with acks := as }, (true, a)) else ({ l with qOut := r }, b)
    | b :: r, [] => ({ l with qOut := r }, b)
    | [], a :: r => ({ l with acks := r }, (true, a))
    | [], [] => (l, (true, 0x1E))

/-- The sixteen blocks of codeword cw in ACTIVE (R199, R200). -/
def activeBlocks (s : State) (n : Nat) (l0 : TkLane) : TkLane × List (Bool × Nat) :=
  let cw := l0.txCw
  let c := cw % 256
  let l := if c = 0 then closeTx l0 cw else l0
  let sfnClosed := (cw / 256 + 2 ^ 16 - 1) % 2 ^ 16
  (List.range 16).foldl (fun (acc : TkLane × List (Bool × Nat)) p =>
    let t := acc.1.txs.getD c TkTxS.reset
    let step : TkLane × (Bool × Nat) :=
      if c < 8 ∧ p = 0 then (acc.1, (true, 0x2D + c * 2 ^ 8 + t.closed.toNat * 2 ^ 11 + sfnClosed * 2 ^ 16 + t.crc * 2 ^ 32))
      else if c < 8 ∧ p = 1 then (acc.1, (false, t.tag))
      else
        match streamAt acc.1.cfg.txSched p with
        | some st => streamBlock acc.1 st cw p (sectorTaint s n)
        | none => poolBlock acc.1 s.dbgHalt
    (step.1, acc.2 ++ [step.2])) (l, [])

/-- The HSK payloads of a lane without ACK and LAST (Table 11.3). -/
def hskPayloads (n : Nat) (l : TkLane) : List Nat :=
  let c := l.cfg
  let head := fun (i : Nat) => 0x33 + i * 2 ^ 8
  let keys := fun (cs : List Nat) => cs.zipIdx.foldl (fun acc ci => acc + nbits ci.1 5 0 * 2 ^ (16 + 6 * ci.2)) 0
  let b := [head 0 + 2 ^ 16 + c.h * 2 ^ 24 + c.pam4.toNat * 2 ^ 32 + c.fec.toNat * 2 ^ 33 + enableSet c.scfg 31 * 2 ^ 40 +
              enableSet c.qcfg 31 * 2 ^ 48,
            head 1 + enableSet c.scfg 30 * 2 ^ 16 + enableSet c.qcfg 30 * 2 ^ 24 + n * 2 ^ 32,
            head 2 + l.seed.getD 0 * 2 ^ 16, head 3 + keys c.scfg, head 4 + keys c.qcfg]
  b ++ [head 5 + crc32 (payloadBytes b) * 2 ^ 16]

/-- A handshake codeword. -/
def hskBlocks (n : Nat) (l : TkLane) (ack last : Bool) : List (Bool × Nat) :=
  (hskPayloads n l).map (fun x => (true, x + ack.toNat * 2 ^ 11 + last.toNat * 2 ^ 12)) ++ List.replicate 10 (true, 0x1E)

def idleBlocks : List (Bool × Nat) := List.replicate 16 (true, 0x1E)

/-- Bits that a lane sends, with injection: what the loopbacks return, and in symbols what the pins carry, which stay idle in PCS loopback
(R194, R230, R231). -/
def tkOut (s : State) (n : Nat) (l : TkLane) (w len : Nat) : State :=
  let r := injectInto (s.setTk n l) n w len
  let pins := if s.getF (Reg.LN_TEST_CTRL_LB n) = 2 then none else some (lineSymbols (s.flag (Reg.LQ_TRK_PAM4 (n / 4))) len r.2)
  r.1.setTk n { l with line := r.2, lineLen := len, pins := pins }

/-- Bits with the polarity of the line turned where `inv` says so: in PAM4 a level changes its sign, which is the earlier bit of a pair
under the Gray mapping of R194. -/
def turned (inv pam4 : Bool) (len w : Nat) : Nat :=
  if inv then w ^^^ (if pam4 then (2 ^ len - 1) / 3 else 2 ^ len - 1) else w

/-- A codeword put on the line: scrambled, coded, polarity. -/
def sendCw (s : State) (n : Nat) (l : TkLane) (fec : Bool) (blocks : List (Bool × Nat)) : State :=
  let e := encodeCw fec l.txScr blocks
  let len := cwBits fec
  tkOut s n { l with txScr := e.2 } (turned (s.flag (Reg.LN_TK_CTRL_POL_TX n)) (s.flag (Reg.LQ_TRK_PAM4 (n / 4))) len e.1) len

/-- Codewords since ACK advanced, for queues with unacknowledged packets. -/
def countWait (t : TkTxQ) : TkTxQ := if t.acked < t.top then { t with wait := t.wait + 1 } else t

/-- One QACK for each receive queue, at least once in every superframe (R204). -/
def periodicAcks (s : State) (n : Nat) : State :=
  let l := s.tkLane n
  if l.txCw % 256 = 0 ∧ !s.dbgHalt then
    (List.range 8).foldl (fun acc q => if s.flag (Reg.LN_TK_QCFG_RXEN n q) then queueAck acc n q false else acc) s
  else s

/-- CODEWORD_SEND: the transmitter sends one codeword: IDL in training, the handshake message in HANDSHAKE, traffic in
ACTIVE, the pattern or the training stream in TEST; the received bits in far-end loopback, which prevails over a pattern (R196, R199 to
R202, R218, R222, R229, R231; the last DESIGN CHOICE, log 144). -/
def execCodewordSend (n : Fin 144) (s : State) : Res :=
  let l := s.tkLane n
  let st := s.laneState n
  if s.laneMode n ≠ 2 ∨ st < 2 then ok s
  else if s.getF (Reg.LN_TEST_CTRL_LB n) = 3 then ok (tkOut s n l (s.test n).raw (cwBits l.txFec))
  else
    match st with
    | 5 =>
      if l.seed.isNone then ok s
      else ok (sendCw s n { l with acksSent := l.acksSent + l.passed.toNat } true (hskBlocks n l l.passed false))
    | 6 =>
      let s1 := periodicAcks s n
      let b := activeBlocks s1 n (s1.tkLane n)
      let l1 := { b.1 with txCw := b.1.txCw + 1, txq := b.1.txq.map countWait }
      let s2 := sendCw s1 n l1 l1.txFec b.2
      if l1.txCw = 2 ^ 48 then ok (tkLeave s2 n 2) else ok s2
    | 7 =>
      match prbsSend s n (cwBits true) with
      | (s1, some w) =>
        ok (tkOut s1 n l (turned (s.flag (Reg.LN_TK_CTRL_POL_TX n)) (s.flag (Reg.LQ_TRK_PAM4 (n / 4))) (cwBits true) w) (cwBits true))
      | _ => ok (sendCw s n l true idleBlocks)
    | _ => ok (sendCw s n l true idleBlocks)

/-- Words taken at the end of the slot with k = 7 at the grant positions of the beat (R212). -/
def takeWords (s : State) (n : Nat) (v : FabView) : List TkWord :=
  let l := s.tkLane n
  let sec := landing n
  (tkGrants s n).zipIdx.map (fun gp =>
    let pos := gp.1
    let p := gp.2
    let g := tileOf sec 11 (4 + p / 2)
    let valid := !s.held sec && v.afIn g (1408 + 11 * (p % 2))
    let data := if valid then v.afBus g (704 * (p % 2)) 64 else 0
    let c := (streamAt l.cfg.txSched (pos % 16)).getD 0
    let k := txKeyOf l c
    let payload := if k = 0 then data
      else streamCrypt (laneKey l k) (l.seed.getD 0) c (pos / 16 / 256) (wordIndex l.cfg.txSched c (pos / 16) (pos % 16)) data
    { pos := pos, payload := payload, valid := valid, taint := sectorTaint s n : TkWord })

/-- STREAM_BLOCK_TRANSMIT: at k = 7 the words of the granted positions are taken, encrypted for keyed streams, and queued
for their stream positions (R212). -/
def execStreamBlockTransmit (n : Fin 144) (s : State) : Res :=
  let l := s.tkLane n
  okIf (s.slotRuns && s.k == 7 && s.laneMode n == 2 && s.laneState n == 6) s
    (s.setTk n { l with taken := l.taken ++ takeWords s n s.view })

/-! ### Rings -/

/-- The address of entry e of a ring. -/
def ringAddr (base e : Nat) : Nat := base * 2 ^ 16 + e * 1024

/-- A ring access issued through the NAP of the landing sector, with key index NKEY (R203). -/
def ringIssue (s : State) (n q op size addr data note : Nat) : State × Nat :=
  let r : NocReq := { op := op, size := size, src := landing n, tag := 0, key := s.getF (Reg.LN_TK_QCFG_NKEY n q), addr := addr,
                      data := data, peek := false, ln := true }
  issue s r note q

/-- Queue q of the lane can send its next entry (R203, R204). -/
def txReady (s : State) (n q : Nat) : Bool :=
  let l := s.tkLane n
  let t := l.txq.getD q TkTxQ.reset
  s.flag (Reg.LN_TK_QCFG_TXEN n q) && (l.cfg.qcfg.getD q 0).testBit 31 && t.live &&
    t.send % txRing l q != s.getF (Reg.LN_TK_QTXP_TAIL n q) % txRing l q &&
    (match t.limit with | some m => decide (t.seq ≤ m) | none => false)

/-- A packet that is read but whose queue no longer sends leaves the packet buffer; its entry is read again when the queue is ready. -/
def dropUnready (s : State) (l : TkLane) (n : Nat) : TkLane :=
  if l.ready.any (fun p => !s.flag (Reg.LN_TK_QCFG_TXEN n p.q)) then { l with ready := none } else l

/-- The next ready entry is read from its ring while the lane's packet buffer is free, queues by rotating priority (R202), which starts
with queue 1 at entry to ACTIVE (DESIGN CHOICE, log 146). -/
def ringFetch (s0 : State) (n : Nat) : State :=
  let l := dropUnready s0 (s0.tkLane n) n
  let s := s0.setTk n l
  if s.laneState n = 6 ∧ s.laneMode n = 2 ∧ !s.dbgHalt ∧ l.reading.isNone ∧ l.ready.isNone then
    match ((List.range 8).map (fun d => (l.rr + 1 + d) % 8)).find? (txReady s n) with
    | none => s
    | some q =>
      let e := (l.txq.getD q TkTxQ.reset).send % txRing l q
      let r := ringIssue s n q 0 4 (ringAddr (l.cfg.txBase.getD q 0) e) 0 0
      r.1.setTk n { l with rr := q, reading := some { q := q, entry := e, len := none, lines := [], left := [r.2] } }
  else s

/-- Writes of received packets are issued while the lane has requests to spare (Table 13.1). -/
def ringWrites (s : State) (n : Nat) : State :=
  (List.range 4).foldl (fun acc i =>
    (List.range 32).foldl (fun acc2 _ =>
      let l := acc2.tkLane n
      match l.buf[i]? with
      | none => acc2
      | some b =>
        match b.todo with
        | [] => acc2
        | t :: rest =>
          if outCount acc2 (landing n) true < 32 ∧ !acc2.dbgHalt then
            let r := ringIssue acc2 n b.q (if t.2.1 = 4 then 2 else 1) t.2.1 t.1 t.2.2 100
            let l1 := r.1.tkLane n
            r.1.setTk n { l1 with buf := l1.buf.set i { b with todo := rest, left := b.left ++ [r.2] } }
          else acc2) acc) s

/-- A ring access received an error response: QERR, the queue's enable cleared, event n; every one of a packet's, and one of a read that the
lane no longer needs (R204). -/
def ringError (s : State) (n q : Nat) (tx : Bool) : State :=
  let s1 := s.raiseF (Reg.LN_TK_STAT_QERR n)
  ((if tx then s1.clearF (Reg.LN_TK_QCFG_TXEN n q) else s1.clearF (Reg.LN_TK_QCFG_RXEN n q))).raiseEv n

/-- The packet of a ring entry whose lines have all come. -/
def readyPacket (r : TkRead) (len : Nat) : TkPkt :=
  let word := fun (i : Nat) =>
    let line := (r.lines.find? (fun x => x.1 == i / 8 + 1)).map (fun x => x.2)
    (line.getD 0) / 2 ^ (64 * (i % 8)) % 2 ^ 64
  { q := r.q, seq := 0, len := len, words := (List.range ((len + 7) / 8)).map word, qst := 0, crc := 0, tag := 0, bad := false }

/-- A response to a ring read of a lane. -/
def ringReadDone (s : State) (n : Nat) (rd : TkRead) (tag line status data : Nat) : State :=
  let l := s.tkLane n
  if status ≠ 0 then s.setTk n { l with reading := none }
  else
    let rd1 := { rd with left := rd.left.filter (· != tag), lines := rd.lines ++ [(line, data)] }
    if line = 0 then
      let d := s.draw
      let given := data % 2 ^ 16
      let good := 1 ≤ given ∧ given ≤ 960
      let len := if good then given else Config.badLen d.1 % 960 + 1
      let s0 := if good then s else d.2
      let base := ringAddr (l.cfg.txBase.getD rd.q 0) rd.entry
      let r := (List.range ((len + 63) / 64)).foldl (fun (acc : State × List Nat) i =>
        let x := ringIssue acc.1 n rd.q 0 4 (base + 64 * (i + 1)) 0 (i + 1)
        (x.1, acc.2 ++ [x.2])) (s0, [])
      r.1.setTk n { r.1.tkLane n with reading := some { rd1 with len := some len, left := r.2 } }
    else if rd1.left.isEmpty then s.setTk n { l with reading := none, ready := some (readyPacket rd1 (rd1.len.getD 1)) }
    else s.setTk n { l with reading := some rd1 }

/-- A response that reaches the trunk rings of a lane (R204, R266); `aux` of the request names its queue. -/
def laneRespond (s0 : State) (n : Nat) (o : Outst) (status data : Nat) : State :=
  let s := if status ≠ 0 ∧ s0.laneMode n = 2 then ringError s0 n o.aux (o.note != 100) else s0
  let l := s.tkLane n
  if o.note = 100 then
    match l.buf.findIdx? (fun b => b.left.contains o.tag) with
    | none => s
    | some i =>
      let b := l.buf.getD i { q := 0, seq := 0, todo := [], left := [], err := false }
      let bad := status ≠ 0
      let b1 := { b with left := b.left.filter (· != o.tag), err := b.err || bad, todo := if bad then [] else b.todo }
      let s1 := s.setTk n { l with buf := l.buf.set i b1 }
      if bad then s1 else ringWrites s1 n
  else
    match l.reading with
    | some rd => if rd.left.contains o.tag then ringReadDone s n rd o.tag o.note status data else s
    | none => s

/-! ### Sending packets -/

/-- The additional data of a packet: the 64-bit QST payload padded to 128 bits (R206). -/
def packetAad (qst : Nat) : List Nat := leBytes 8 qst ++ List.replicate 8 0

/-- The blocks of a packet (R202): QST, data, TAG for a keyed queue, QEND. -/
def packetBlocks (l : TkLane) (p : TkPkt) (seq : Nat) : List (Bool × Nat) :=
  let n := (p.len + 7) / 8
  let qst := 0x4B + p.q * 2 ^ 8 + n * 2 ^ 12 + seq % 2 ^ 16 * 2 ^ 19
  let key := nbits (l.cfg.qcfg.getD p.q 0) 5 0
  let plain := (payloadBytes p.words).take p.len
  let kb := laneKey l key
  let iv := linkIv (l.seed.getD 0) (8 + p.q) seq
  let ct := if key = 0 then plain else gcmCrypt kb iv plain
  let words := (chunks 8 (n + 1) ct).map leNat
  let body := if key = 0 then words else words ++ [tag64 kb iv (packetAad qst) ct]
  let qend := 0x55 + p.q * 2 ^ 8 + (8 * n - p.len) * 2 ^ 11 + crc32 (payloadBytes (qst :: body)) * 2 ^ 32
  (true, qst) :: body.map (fun w => (false, w)) ++ [(true, qend)]

/-- QUEUE_PACKET_SEND: a packet read whole from its ring is sent; SEQ is assigned in order, a packet sent again counts in
RETRY_CNT (R202 to R204). -/
def execQueuePacketSend (n : Fin 144) (s : State) : Res :=
  let l := s.tkLane n
  match (dropUnready s l n).ready with
  | none => ok (ringFetch s n.val)
  | some p =>
    let t := l.txq.getD p.q TkTxQ.reset
    if s.laneMode n = 2 ∧ s.laneState n = 6 ∧ !s.dbgHalt ∧ l.qOut.isEmpty ∧ s.flag (Reg.LN_TK_QCFG_TXEN n p.q) ∧
        t.seq ≤ t.limit.getD 0 ∧ t.limit.isSome then
      let t1 := { t with send := (t.send + 1) % txRing l p.q, seq := t.seq + 1, top := max t.top (t.seq + 1) }
      let l1 := { l with ready := none, qOut := packetBlocks l p t.seq, txq := l.txq.set p.q t1 }
      let s1 := s.setTk n l1
      ok (ringFetch (if t.seq < t.top then s1.incF (Reg.LN_TK_CNT_RETRY_CNT n) else s1) n.val)
    else ok s

/-- Every unacknowledged packet is sent again, from ACK + 1 in order (R204). -/
def resend (s : State) (n q : Nat) : State :=
  let l := s.tkLane n
  let t := l.txq.getD q TkTxQ.reset
  let mine := fun (x : Nat) => x == q
  let l1 := { l with txq := l.txq.set q { t with send := s.getF (Reg.LN_TK_QTXP_HEAD n q) % txRing l q, seq := t.acked, wait := 0 },
                     reading := if (l.reading.map (fun r => mine r.q)).getD false then none else l.reading,
                     ready := if (l.ready.map (fun r => mine r.q)).getD false then none else l.ready }
  ringFetch (s.setTk n l1) n

/-- QACK_RECEIVE: a QACK advances ACK, HEAD and LIMIT, or asks for a resend (R204). -/
def execQackReceive (n : Fin 144) (s : State) : Res :=
  let l := s.tkLane n
  match l.qacks with
  | [] => ok s
  | a :: rest =>
    let q := nbits a 10 8
    let t := l.txq.getD q TkTxQ.reset
    let delta := (nbits a 27 12 + 1 + 2 ^ 16 - t.acked % 2 ^ 16) % 2 ^ 16
    let adv := if t.acked + delta ≤ t.top then delta else 0
    let acked := t.acked + adv
    let lim := acked + (nbits a 43 28 + 1 + 2 ^ 16 - acked % 2 ^ 16) % 2 ^ 16
    let t1 := { t with acked := acked, limit := if lim = 0 then none else some (lim - 1), wait := if adv = 0 then t.wait else 0 }
    let size := txRing l q
    let s1 := s.setTk n { l with qacks := rest, txq := l.txq.set q t1 }
    let s2 := s1.setF (Reg.LN_TK_QTXP_HEAD n q) ((s.getF (Reg.LN_TK_QTXP_HEAD n q) + adv) % size)
    ok (if a.testBit 11 then resend s2 n.val q else ringFetch s2 n.val)

/-- QUEUE_RETRY_TIMEOUT: ACK has not advanced for RTO × 64 codewords while packets are unacknowledged (R204). -/
def execQueueRetryTimeout (n : Fin 144) (q : Fin 8) (s : State) : Res :=
  let t := (s.tkLane n).txq.getD q.val TkTxQ.reset
  okIf (s.laneMode n == 2 && s.laneState n == 6 && decide (t.acked < t.top) && decide (64 * max 1 (s.getF (Reg.LN_TK_CTRL_RTO n)) ≤ t.wait)) s
    (resend s n.val q.val)

/-- A write of LN_TK_QTXPi: TAIL; after a return to TRAIN it restarts the queue at HEAD (R203, R215). -/
def queueTailWrite (s : State) (n q : Nat) (v : Word32) : State :=
  if s.laneMode n = 2 then
    let s1 := s.setF (Reg.LN_TK_QTXP_TAIL n q) (v.toNat % 2 ^ 16)
    let l := s1.tkLane n
    let t := l.txq.getD q TkTxQ.reset
    let t1 := if t.live then t else { t with live := true, send := s.getF (Reg.LN_TK_QTXP_HEAD n q) }
    ringFetch (s1.setTk n { l with txq := l.txq.set q t1 }) n
  else s

/-- QUEUE_TAIL_WRITE. -/
def execQueueTailWrite (n : Fin 144) (q : Fin 8) (v : Word32) (s : State) : Res :=
  if s.alive then ok (queueTailWrite s n.val q.val v) else ok s

/-- A write of LN_TK_QRXPi: HEAD. -/
def queueHeadWrite (s : State) (n q : Nat) (v : Word32) : State :=
  if s.laneMode n = 2 then s.setF (Reg.LN_TK_QRXP_HEAD n q) (v.toNat % 2 ^ 16) else s

/-- QUEUE_HEAD_WRITE. -/
def execQueueHeadWrite (n : Fin 144) (q : Fin 8) (v : Word32) (s : State) : Res :=
  if s.alive then ok (queueHeadWrite s n.val q.val v) else ok s

/-! ### Receiving -/

/-- A control block is discarded (R195). -/
def badBlock (s : State) (n : Nat) : State :=
  ((s.raiseF (Reg.LN_TK_STAT_BADBLK n)).incF (Reg.LN_TK_CNT_BADBLK_CNT n)).raiseEv n

/-- The receive side at the first codeword of a superframe. -/
def rotateRx (l : TkLane) (halt : Bool) : TkLane :=
  let f := fun (t : TkRxS) => { t with prev := t.words, prevSpoiled := t.spoiled || l.halted, words := [],
                                       spoiled := !l.sfOk || halt || l.halted : TkRxS }
  { l with rxs := l.rxs.map f, halted := halt }

/-- The sideband of a presented block (Table 10.5). -/
def sideband (valid : Bool) (c : Nat) (err taint first : Bool) : Nat :=
  valid.toNat + 2 * c + 16 * err.toNat + 32 * taint.toNat + 64 * first.toNat

/-- The blocks of a stream position: what is presented, and the receiver after it. `lost` says that the codeword was
uncorrectable. A control block belongs there only as SIDL, for a clear or a disabled stream (R195, R197, R201, R211). -/
def rxStreamBlock (s : State) (n : Nat) (l : TkLane) (c cw p : Nat) (blk : Bool × Nat) (lost : Bool) :
    State × TkLane × Option (Nat × Nat) :=
  let t := l.rxs.getD c TkRxS.reset
  let cfg := l.cfg.scfg.getD c 0
  let key := rxKeyOf cfg
  let j := wordIndex l.cfg.rxSched c cw p
  let isSidl := blk.1 && nbits blk.2 7 0 == 0x78
  let clear := key == 0
  let discard := !lost && blk.1 && !(isSidl && (clear || !rxEnabled cfg))
  let taint := if !lost && isSidl then blk.2.testBit 11 else t.taint
  let t1 : TkRxS := { t with words := t.words ++ [blk.2], taint := taint, spoiled := t.spoiled || lost }
  let s1 := if discard then badBlock s n else s
  let l1 := { l with rxs := l.rxs.set c t1 }
  let out : Nat × Nat :=
    if lost then (0, sideband true c true taint (j == 0))
    else if discard then (0, sideband false c true taint (j == 0))
    else if isSidl then (0, sideband false c false taint (j == 0))
    else if clear then (blk.2, sideband true c false taint (j == 0))
    else (streamCrypt (laneKey l key) l.peerSeed c (cw / 256) j blk.2, sideband true c false taint (j == 0))
  (s1, l1, if rxEnabled cfg then some out else none)

/-- A block that belongs to the queue pool (R202, R204). -/
def rxPoolBlock (s : State) (n : Nat) (l : TkLane) (blk : Bool × Nat) : State × TkLane :=
  let x := blk.2
  let fail := fun (l : TkLane) => match l.asm_ with
    | some p => { l with packets := l.packets ++ [{ p with bad := true }], asm_ := none }
    | none => l
  if blk.1 then
    match nbits x 7 0 with
    | 0x1E => (s, fail l)
    | 0x4B =>
      (s, { fail l with asm_ := some { q := nbits x 10 8, seq := nbits x 34 19, len := nbits x 18 12, words := [], qst := x, crc := 0,
                                       tag := 0, bad := false } })
    | 0x55 =>
      match l.asm_ with
      | some p =>
        let keyed := rxKeyOf (l.cfg.qcfg.getD p.q 0) != 0
        let need := p.len + keyed.toNat
        let okLen := p.words.length == need && p.q == nbits x 10 8 && 1 ≤ p.len && p.len ≤ 120
        let okCrc := crc32 (payloadBytes (p.qst :: p.words)) == nbits x 63 32
        let pad := nbits x 13 11
        (s, { l with asm_ := none, packets := l.packets ++ [{ p with
                bad := p.bad || !okLen || !okCrc, crc := nbits x 63 32, tag := p.words.getD p.len 0, words := p.words.take p.len,
                len := 8 * p.len - pad }] })
      | none =>
        (s, { l with packets := l.packets ++ [{ q := nbits x 10 8, seq := 0, len := 0, words := [], qst := 0, crc := 0, tag := 0, bad := true }] })
    | 0x66 => (s, { fail l with qacks := l.qacks ++ [x] })
    | _ => (badBlock s n, l)
  else
    match l.asm_ with
    | some p => (s, { l with asm_ := some { p with words := p.words ++ [x] } })
    | none => (s, l)

/-- The CHK block that a receiver expects for codeword c: type, stream and predicted SFN (R199). -/
def chkMatches (cw : Nat) (blk : Bool × Nat) : Bool :=
  blk.1 && nbits blk.2 7 0 == 0x2D && nbits blk.2 10 8 == cw % 256 && nbits blk.2 31 16 == (cw / 256 + 2 ^ 16 - 1) % 2 ^ 16

/-- The verification of a superframe begins: the count of consecutive superframes with a VBAD goes on or starts again (R209). -/
def newRound (l : TkLane) : TkLane := { l with bads := if l.badSf then l.bads else 0, badSf := false }

/-- The first beat in which blocks of a codeword received now are presented: the next to begin once D_RX + w slots have passed, and 2 more
for a keyed stream (R109, R206, R214; DESIGN CHOICE, log 145: the codeword is captured in the slot of its command). -/
def firstBeat (s : State) (n : Nat) (fec keyed : Bool) : Nat :=
  (s.time.slots + (if fec then 37 else 21) + s.getF (Reg.LN_TK_STAT_WAIT n) + 2 * keyed.toNat + 7) / 8

/-- The first stream position of a codeword belongs to a keyed stream. -/
def firstKeyed (l : TkLane) : Bool :=
  match (List.range 16).findSome? (fun p => if p < 2 then none else streamAt l.cfg.rxSched p) with
  | some c => rxKeyOf (l.cfg.scfg.getD c 0) != 0
  | none => false

/-- The two reserved blocks of codewords 0 to 7 of a superframe; the verdict that they allow is presented 16 slots after the codeword's
first beat (R199, R207). -/
def rxReserved (s : State) (n : Nat) (l0 : TkLane) (cw : Nat) (blks : List (Bool × Nat)) (lost : Bool) : State × TkLane :=
  let c := cw % 256
  let l := if c = 0 then newRound l0 else l0
  let chk := blks.getD 0 (true, 0)
  let tg := blks.getD 1 (true, 0)
  let okChk := !lost && chkMatches cw chk
  let wrong := !lost && (!chk.1 || nbits chk.2 7 0 != 0x2D)
  let t := l.rxs.getD c TkRxS.reset
  let t1 : TkRxS := { t with chk := if okChk then some (nbits chk.2 63 32) else none, tag := if !lost && !tg.1 then some tg.2 else none,
                             due := l.sfOk && decide (256 ≤ cw), beat := firstBeat s n l.rxFec (firstKeyed l) + 2, taint := if okChk then chk.2.testBit 11 else t.taint }
  let seen := if okChk then (if c = 0 then 1 else if c = 1 ∧ l.sfSeen = 1 then 2 else if l.sfSeen = 2 then 2 else 0) else (if c < 2 then 0 else l.sfSeen)
  let good := okChk || (c != 0 && l.sfMiss % 2 == 1)
  let miss := if c = 7 then (if good then 0 else (l.sfMiss / 2 + 1) * 2) else l.sfMiss / 2 * 2 + good.toNat
  let s1 := if wrong && chk.1 then badBlock s n else s
  let s2 := if !lost && tg.1 then badBlock s1 n else s1
  (s2, { l with rxs := l.rxs.set c t1, sfSeen := seen, sfMiss := miss })

/-- A control block of the queue pool before superframe lock: packets are not accepted, wrong types are discarded (R195, R199). -/
def rxPoolEarly (s : State) (n : Nat) (blk : Bool × Nat) : State :=
  if blk.1 && !([0x1E, 0x4B, 0x55, 0x66].contains (nbits blk.2 7 0)) then badBlock s n else s

/-- A codeword received with a predicted number, that is, after LAST (R197, R199, R211). -/
def rxActive (s : State) (n : Nat) (l0 : TkLane) (cw : Nat) (blks : List (Bool × Nat)) (lost : Bool) : State × TkLane :=
  let c := cw % 256
  let l := if c = 0 then rotateRx l0 s.dbgHalt else l0
  let spoil := fun (l : TkLane) => if lost || s.dbgHalt then { l with rxs := l.rxs.map (fun t => { t with spoiled := true }), halted := l.halted || s.dbgHalt } else l
  let r0 : State × TkLane := if c < 8 then rxReserved s n (spoil l) cw blks lost else (s, spoil l)
  let out := (List.range 16).foldl (fun (acc : State × TkLane × Nat × List (Nat × Nat × Nat)) p =>
    let st := acc.1
    let ln := acc.2.1
    let m := acc.2.2.1
    if c < 8 ∧ p < 2 then acc
    else
      match streamAt ln.cfg.rxSched p with
      | some sc =>
        let r := rxStreamBlock st n ln sc cw p (blks.getD p (true, 0)) lost
        let beat := 4 * (firstBeat s n l.rxFec (rxKeyOf (ln.cfg.scfg.getD sc 0) != 0) + m / 4) + m % 4
        match r.2.2 with
        | some ds =>
          if ln.sfOk && s.laneState n == 6 && !s.dbgHalt then
            let pos := max beat (ln.rxLast + 1)
            (r.1, { r.2.1 with rxLast := pos }, m + 1, acc.2.2.2 ++ [(pos, ds.1, ds.2)])
          else (r.1, r.2.1, m + 1, acc.2.2.2)
        | none => (r.1, r.2.1, m + 1, acc.2.2.2)
      | none =>
        if !ln.sfOk then (if lost then st else rxPoolEarly st n (blks.getD p (true, 0)), ln, m, acc.2.2.2)
        else if lost then (st, { ln with asm_ := ln.asm_.map (fun x => { x with bad := true }) }, m, acc.2.2.2)
        else
          let r := rxPoolBlock st n ln (blks.getD p (true, 0))
          (r.1, r.2, m, acc.2.2.2)) (r0.1, r0.2, 0, [])
  (out.1, { out.2.1 with rxOut := out.2.1.rxOut ++ out.2.2.2, rxCw := some (cw + 1) })

/-- A payload without its ACK and LAST bits. -/
def hskBare (x : Nat) : Nat := x - (x / 2 ^ 11 % 4) * 2 ^ 11

/-- The six HSK payloads of a codeword, IDX 0 to 5 in positions 0 to 5. -/
def hskOf (blks : List (Bool × Nat)) : Option (List Nat) :=
  let six := blks.take 6
  if six.zipIdx.all (fun bi => bi.1.1 && nbits bi.1.2 7 0 == 0x33 && nbits bi.1.2 10 8 == bi.2) ∧ six.length = 6 then
    some (six.map (·.2))
  else none

/-- A control block that does not belong in a handshake codeword: HSK with IDX 0 to 5 stands in positions 0 to 5 and IDL in the others;
training codewords carry IDL everywhere (R195, R218, R222). -/
def hskWrong (p : Nat) (blk : Bool × Nat) : Bool :=
  let t := nbits blk.2 7 0
  blk.1 && t != 0x1E && !(decide (p < 6) && t == 0x33 && decide (nbits blk.2 10 8 < 6))

/-- The blocks of a handshake codeword that are discarded, counted (R195, R222). -/
def hskDiscards (s : State) (n : Nat) (blks : List (Bool × Nat)) : State :=
  blks.zipIdx.foldl (fun acc bp => if hskWrong bp.2 bp.1 then badBlock acc n else acc) s

/-- A codeword received before LAST has been seen: handshake messages, ACK and LAST (R222, R223, R225). -/
def rxHandshake (s : State) (n : Nat) (l : TkLane) (blks : List (Bool × Nat)) (lost : Bool) : State × TkLane :=
  if lost then (s, { l with hsk := none, hskTwo := false })
  else
    match hskOf blks with
    | some h =>
      let bare := h.map hskBare
      let last := (h.getD 0 0).testBit 12
      let two := l.hsk == some bare
      let l1 := { l with hsk := some bare, hskTwo := two, ackSeen := l.ackSeen || (h.getD 0 0).testBit 11 }
      if last ∧ l.passed then
        let peerFec := ((l.peer.getD []).getD 0 0).testBit 33
        (hskDiscards s n blks, { l1 with lastSeen := true, rxCw := some 0, rxFec := l.cfg.fec && peerFec })
      else (hskDiscards s n blks, l1)
    | none =>
      let b0 := blks.getD 0 (true, 0)
      let chk := b0.1 && nbits b0.2 7 0 == 0x2D
      let l1 := { l with hsk := none, hskTwo := false, ackSeen := l.ackSeen || chk }
      if chk && chkMatches 0 b0 && l.passed then rxActive s n { l1 with lastSeen := true } 0 blks false
      else (if chk then s else hskDiscards s n blks, l1)

/-- CODEWORD_RECEIVE: a codeword of 1,144 bits (1,056 without FEC) arrives as symbols, bit 0 first: polarity, FEC, descrambling, then
its blocks act (R194, R197). In SYMLOCK it is only decoded, before it only kept for the far-end loopback. A receiver that has decoded LAST seeks superframe lock, in HANDSHAKE too
(R225). In TEST the bits go to the checker. -/
def execCodewordReceive (n : Fin 144) (syms : List Int) (s0 : State) : Res :=
  let l := s0.tkLane n
  let st := s0.laneState n
  if s0.laneMode n ≠ 2 ∨ st < 2 then ok s0
  else
    let len := cwBits l.rxFec
    let raw := loopedBack s0 n l.line (symbolBits (s0.flag (Reg.LQ_TRK_PAM4 (n / 4))) syms) % 2 ^ len
    let s := s0.setTest n { s0.test n with raw := raw }
    let bits := turned (s.flag (Reg.LN_TK_CTRL_POL_RX n)) (s.flag (Reg.LQ_TRK_PAM4 (n / 4))) len raw
    if st < 4 then ok s
    else if st = 7 then ok (prbsReceive s n bits len)
    else
      let d := decodeCw l.rxFec bits
      let b := cwBlocks l.rxScr d.2
      let lost := d.1.isNone
      let l1 := { l with rxScr := b.2, good := if lost then 0 else l.good + 1, bad := if lost then l.bad + 1 else 0 }
      let s1 := match d.1 with
        | none => s.incF (Reg.LN_TK_FEC_UNCOR_CNT n)
        | some 0 => s
        | some k => (s.incF (Reg.LN_TK_FEC_CWCORR_CNT n)).addF (Reg.LN_TK_SYM_SYMCORR_CNT n) k
      if st = 4 then ok (s1.setTk n l1)
      else
        let r := match l1.rxCw with
          | some cw => rxActive s1 n l1 cw b.1 lost
          | none => rxHandshake s1 n l1 b.1 lost
        ok (r.1.setTk n { r.2 with unlocked := if st = 6 ∧ !r.2.sfOk then r.2.unlocked + 1 else 0 })

/-- CODEWORD_LOCK: LOCK_N consecutive codewords have decoded; `slip` bits were slipped, and of the codewords of the pattern period the one
with the least margin completes `phase` 1,024ths of a slot after the present slot begins. The lane enters HANDSHAKE; a forced placement
without its margin raises event n, and the search is repeated (R182, R198, R214). -/
def execCodewordLock (n : Fin 144) (slip : Fin 1144) (phase : Nat) (s0 : State) : Res :=
  let s := s0.untimed n
  let l := s.tkLane n
  let p := placeWord 37 (s.getF (Reg.LN_TK_CTRL_PLACE n)) (1024 * s.time.slots + phase)
  okIf (s.laneMode n == 2 && s.laneState n == 4 && decide (max 1 (s.getF (Reg.LN_TK_CTRL_LOCK_N n)) ≤ l.good)) s0
    (if p.2.2 then enterHandshake ((s.setF (Reg.LN_TK_STAT_SLIP n) slip.val).setF (Reg.LN_TK_STAT_WAIT n) p.1) n.val
    else (s0.setTk n { s0.tkLane n with good := 0 }).raiseEv n)

/-- CODEWORD_LOCK_LOSS: UNLOCK_N consecutive uncorrectable codewords end lock: LOCK_LOSS, event n, back to SYMLOCK (R198). -/
def execCodewordLockLoss (n : Fin 144) (s0 : State) : Res :=
  let s := s0.untimed n
  let l := s.tkLane n
  okIf (s.laneMode n == 2 && (s.laneState n == 5 || s.laneState n == 6) &&
      decide (max 1 (s.getF (Reg.LN_TK_CTRL_UNLOCK_N n)) ≤ l.bad)) s0
    (tkLoseLock ((s.raiseF (Reg.LN_TK_STAT_LOCK_LOSS n)).raiseEv n) n.val 4)

/-- SUPERFRAME_LOCK: the CHK blocks of streams 0 and 1 stood in two consecutive codewords with the predicted SFN (R199). -/
def execSuperframeLock (n : Fin 144) (s0 : State) : Res :=
  let s := s0.untimed n
  let l := s.tkLane n
  let l1 := { l with sfOk := true, sfMiss := 0, unlocked := 0, bads := 0, badSf := false,
                     rxs := l.rxs.map (fun t => { t with spoiled := true, prevSpoiled := true }) }
  okIf (s.laneMode n == 2 && (s.laneState n == 5 || s.laneState n == 6) && !l.sfOk && l.sfSeen == 2) s0
    ((s.setTk n l1).raiseF (Reg.LN_TK_STAT_LOCKED n))

/-- SUPERFRAME_LOCK_LOSS: the CHK blocks of two consecutive superframes failed to carry the predicted SFN: SF_LOSS, event n,
back to TRAIN (R218). -/
def execSuperframeLockLoss (n : Fin 144) (s : State) : Res :=
  let l := s.tkLane n
  okIf (s.laneMode n == 2 && s.laneState n == 6 && l.sfOk && decide (4 ≤ l.sfMiss)) s
    (tkLoseLock ((s.raiseF (Reg.LN_BU_STAT_SF_LOSS n)).raiseEv n) n.val 2)

/-! ### Verification -/

/-- VBAD is presented for stream c: VBAD, VBAD_CNT, event n; after SKIP_MAX consecutive superframes in which a keyed stream of the lane
is, the lane sets LINKDOWN and trains afresh (R208, R209). -/
def presentBad (s : State) (n c : Nat) (keyed : Bool) : State :=
  let l := s.tkLane n
  let t := l.rxs.getD c TkRxS.reset
  let bads := if keyed && !l.badSf then l.bads + 1 else l.bads
  let s1 := ((s.setTk n { l with vbad := l.vbad ||| 2 ^ c, rxs := l.rxs.set c { t with due := false }, bads := bads,
                                 badSf := l.badSf || keyed }).raiseF
    (Reg.LN_TK_STAT_VBAD n)).incF (Reg.LN_TK_VER_VBAD_CNT n)
  let m := s.getF (Reg.LN_TK_CTRL_SKIP_MAX n)
  if keyed && m != 0 && decide (m ≤ bads) then (tkLeave (s1.raiseF (Reg.LN_TK_STAT_LINKDOWN n)) n 2).raiseEv n
  else s1.raiseEv n

/-- STREAM_VERIFY: the closing blocks of stream c have arrived; CRC and tag of the last superframe are checked, and the
outcome is presented for the beat that begins 16 slots after the first of the codeword that carried them (R207, R208); in a debug halt no
beat passes. A failed tag is an integrity halt. -/
def execStreamVerify (n : Fin 144) (c : Fin 8) (s : State) : Res :=
  let l := s.tkLane n
  let t := l.rxs.getD c.val TkRxS.reset
  let cfg := l.cfg.scfg.getD c.val 0
  let key := rxKeyOf cfg
  let sfn := (l.rxCw.getD 0 - 1) / 256 - 1
  if s.laneMode n == 2 && s.laneState n == 6 && t.due && (!s.logs || s.time.slots == 8 * t.beat) then
    if !rxEnabled cfg then ok (s.setTk n { l with rxs := l.rxs.set c.val { t with due := false } })
    else
      let bs := payloadBytes t.prev
      let clean := !t.prevSpoiled && t.chk == some (crc32 bs) && (key == 0 || t.tag.isSome)
      if !clean then ok (presentBad s n.val c.val (key != 0))
      else if key = 0 then ok (s.setTk n { l with rxs := l.rxs.set c.val { t with due := false } })
      else if t.tag = some (tag64 (laneKey l key) (linkIv l.peerSeed c.val sfn) [] bs) then
        ok ((s.setTk n { l with vok := l.vok ||| 2 ^ c.val, rxs := l.rxs.set c.val { t with due := false } }).incF
          (Reg.LN_TK_VER_VOK_CNT n))
      else ok (integrityHalt s 6 n.val c.val 0)
  else ok s

/-- The end of a beat at the trunk ports: VOK and VBAD last one beat; blocks whose beat is over go, and those of a clearing
window are counted in DISC_CNT (R207, R215). -/
def tkBeatEnd (s : State) : State :=
  if s.k = 7 then
    let beat := s.time.slots / 8
    (tkeys id s.tk).foldl (fun acc n =>
      let l := acc.tkLane n
      let gone := l.rxOut.filter (fun e => e.1 / 4 ≤ beat)
      let acc1 := if s.clrOpen then acc.addF (Reg.LN_TK_DISC_DISC_CNT n) gone.length else acc
      acc1.setTk n { l with vok := 0, vbad := l.vbadNext, vbadNext := 0, rxOut := l.rxOut.filter (fun e => beat < e.1 / 4) }) s
  else s

/-! ### Receiving packets -/

/-- The ring writes of a packet: payload from byte 64 of the entry, then the descriptor in bytes 0 to 7 (R203). -/
def packetWrites (base : Nat) (p : TkPkt) (seq : Nat) : List (Nat × Nat × Nat) :=
  let lines := p.words.length / 8
  let full := (List.range lines).map (fun i =>
    (base + 64 * (i + 1), 4, wordsNat ((p.words.drop (8 * i)).take 8)))
  let rest := (List.range (p.words.length - 8 * lines)).map (fun i =>
    (base + 64 * (lines + 1) + 8 * i, 3, p.words.getD (8 * lines + i) 0))
  full ++ rest ++ [(base, 3, p.len + p.q * 2 ^ 16 + seq % 2 ^ 40 * 2 ^ 24)]

/-- The slot clock restarts after a debug halt: the words of the next grants leave behind the codewords that the line has carried, the one
in progress then ending with the halt (R212, R215; DESIGN CHOICE, log 129). -/
def tkResume (s : State) : State :=
  let f := fun (n : Nat) (l : TkLane) =>
    if s.laneMode n = 2 ∧ s.laneState n = 6 then
      let d := 8 * max 1 (80 * l.cfg.h * (if l.cfg.pam4 then 2 else 1))
      let beats := (l.txCw * cwBits l.txFec * s.rootM + d - 1) / d
      { l with lag := max l.lag (beats - (s.time.slots - l.actSlot) / 8) }
    else l
  { s with tk := tmap (fun _ => TkLane.reset) f s.tk }

/-- QUEUE_PACKET_RECEIVE: the next received packet is accepted, repeated, or discarded with a NAK (R204, R210). A packet for a queue that
does not receive is discarded without a QACK (DESIGN CHOICE, log 118). -/
def execQueuePacketReceive (n : Fin 144) (s : State) : Res :=
  let l := s.tkLane n
  match l.packets with
  | [] => ok s
  | p :: rest =>
    let s0 := s.setTk n { l with packets := rest }
    let q := p.q
    let cfg := l.cfg.qcfg.getD q 0
    let nx := (l.rxq.getD q (0, 0)).1
    let dl := (l.rxq.getD q (0, 0)).2
    let ahead := (p.seq + 2 ^ 16 - nx % 2 ^ 16) % 2 ^ 16
    let size := rxRing l q
    let head := s.getF (Reg.LN_TK_QRXP_HEAD n q) % size
    let tail := s.getF (Reg.LN_TK_QRXP_TAIL n q) % size
    let free := (head + size - 1 - tail) % size
    if !(s.flag (Reg.LN_TK_QCFG_RXEN n q) && rxEnabled cfg) then ok s0
    else if !p.bad && decide (2 ^ 15 ≤ ahead) then ok (queueAck s0 n.val q false)
    else if p.bad || ahead != 0 || decide (free ≤ nx - dl) || decide (4 ≤ l.buf.length) || s.dbgHalt then ok (queueAck s0 n.val q true)
    else
      let key := rxKeyOf cfg
      let kb := laneKey l key
      let iv := linkIv l.peerSeed (8 + q) nx
      let ct := (payloadBytes p.words).take p.len
      if key ≠ 0 ∧ tag64 kb iv (packetAad p.qst) ct ≠ p.tag then ok (integrityHalt s0 7 n.val q 0)
      else
        let plain := if key = 0 then ct else gcmCrypt kb iv ct
        let p1 := { p with words := (chunks 8 (p.words.length + 1) plain).map leNat }
        let e := (tail + (nx - dl)) % size
        let b : TkBuf := { q := q, seq := nx, todo := packetWrites (ringAddr (l.cfg.rxBase.getD q 0) e) p1 nx, left := [], err := false }
        ok (ringWrites (s0.setTk n { l with packets := rest, buf := l.buf ++ [b], rxq := l.rxq.set q (nx + 1, dl) }) n.val)

/-- QUEUE_DELIVER: every ring write of the oldest packet of queue q has responded: TAIL advances, event n under IRQ, for each delivery (R216), and a
QACK goes out; after an error response the packet is not delivered (R203, R204). -/
def execQueueDeliver (n : Fin 144) (q : Fin 8) (s : State) : Res :=
  let l := s.tkLane n
  match l.buf.findIdx? (fun b => b.q == q.val) with
  | none => ok s
  | some i =>
    match l.buf[i]? with
    | none => ok s
    | some b =>
      if !(b.todo.isEmpty && b.left.isEmpty) || s.dbgHalt then ok (ringWrites s n.val)
      else
        let l1 := { l with buf := l.buf.eraseIdx i }
        let xy := l.rxq.getD q.val (0, 0)
        if b.err then ok (s.setTk n { l1 with rxq := l1.rxq.set q.val (xy.2, xy.2), buf := l1.buf.filter (fun c => c.q != q.val) })
        else
          let s1 := (s.setTk n { l1 with rxq := l1.rxq.set q.val (xy.1, xy.2 + 1) }).setF (Reg.LN_TK_QRXP_TAIL n q.val)
            ((s.getF (Reg.LN_TK_QRXP_TAIL n q.val) + 1) % rxRing l q.val)
          let s2 := queueAck s1 n.val q.val false
          ok (ringWrites (if s.flag (Reg.LN_TK_QCFG_IRQ n q.val) then s2.raiseEach n.val else s2) n.val)

/-! ### Zeroisation -/

/-- A trunk lane with a keyed stream or queue. -/
def laneKeyed (s : State) (n : Nat) : Bool :=
  let l := tget (fun _ => TkLane.reset) s.tk n
  (l.cfg.scfg ++ l.cfg.qcfg).any (fun c => (c.testBit 31 && nbits c 5 0 != 0) || (c.testBit 30 && nbits c 13 8 != 0))

/-- A locked write of GO: keys are wiped without a halt, protected windows are disabled, keyed lanes return to TRAIN, event
198 is raised; requests to the former windows wait until it completes (R316). -/
def zeroise (s : State) : State :=
  let ws := protectedWindows s
  let lanes := (tkeys id s.tk).filter (fun n => laneKeyed s n && 2 < s.getF (Reg.LN_BU_STAT_STATE n) &&
    s.getF (Reg.LN_BU_STAT_STATE n) != 7)
  let s1 := ws.foldl (fun acc w => ((acc.clearF (Reg.VLT_WCTL_EN w)).clearF (Reg.VLT_WCTL_INIT w)).setReg (Reg.VLT_WINFO w) 0) s
  let s2 := lanes.foldl (fun acc n => tkLeave acc n 2) (wipeKeys s1)
  { s2.raiseF Reg.VLT_STAT_INIT_BUSY with zeroing := ws }.raiseEv 198

/-- ZEROISE: a locked write of VLT_ZEROISE by an initiator. -/
def execZeroise (id : Fin 1024) (v : Word32) (s : State) : Res :=
  if s.alive then answerWrite (lockedWrite s 0 id.val (fun t => if v.getLsbD 0 then zeroise t else t)) else ok s

end Sys2Proof.Machine
end

