-- ==== Sys2Proof/Machine/BringUp.lean ====
section
/-!
DEFINITION. Lane bring-up, wake and the quad PLL (11_lane_bringup_test.md R217 to R228), the handshake, and the writes that
move a lane between its states.
-/

namespace Sys2Proof.Machine

/-! ### States -/

/-- The TAP holds EXTEST, EXTEST_PULSE or EXTEST_TRAIN (R217, R445). -/
def tapAc (s : State) : Bool := s.tapIr == 0x00 || s.tapIr == 0x08 || s.tapIr == 0x09

/-- A condition of R217 holds the lane in IDLE. -/
def idleCond (s : State) (n : Nat) : Bool :=
  let q := n / 4
  let m := s.laneMode n
  !s.flag (Reg.LN_BU_CTRL_EN n) || s.getF Reg.CFG_STAT_STATE < 3 || (m != 1 && m != 2) || (m == 1 && s.flag (Reg.LQ_MODE_RATE_ERR q)) ||
    (m == 2 && s.flag (Reg.LQ_TRK_RATE_ERR q)) || !s.flag (Reg.LQ_PLL_STAT_LOCK q) || s.phase != .run || s.aon.entry == 2 || tapAc s ||
    s.flag (Reg.LN_WAKE_SENDING n)

/-- A lane put into a state; what alignment, traffic and checker held is gone with the state it leaves (R215, R218). A trunk lane in IDLE
holds a scrambler of zeros, and so it enters TRAIN (DESIGN CHOICE, log 142: R194 names no value to start from). -/
def laneEnter (s : State) (n st : Nat) : State :=
  if s.laneMode n = 2 then
    let l := s.tkLane n
    if st = 0 then ((s.setTk n { TkLane.reset with vok := l.vok, vbad := l.vbad, vbadNext := l.vbadNext }).clearF (Reg.LN_TK_STAT_LOCKED n)).laneTo n 0
    else if st = 1 then tkLeave (s.setTk n { l with pins := none }) n 1
    else tkLeave s n st
  else
    let l := (s.feLane n).left s.beatSlot
    let s1 := (s.clearF (Reg.LN_FE_STAT_ALIGNED n)).setFe n (if st ≤ 1 then { l with pins := none } else l)
    s1.laneTo n st

/-- DETECT for trunk lanes and front-end lanes with DET_EN = 1, TRAIN otherwise (R218). -/
def restartTo (s : State) (n : Nat) : Nat := if s.laneMode n = 2 ∨ s.flag (Reg.LN_BU_CTRL_DET_EN n) then 1 else 2

/-- The checker starts afresh. -/
def checkerReset (s : State) (n : Nat) : State :=
  (s.clearF (Reg.LN_TEST_STAT_SYNC n)).setTest n { s.test n with run := 0, cmp := false, win := 0, errs := 0, lost := false, chk := 0 }

/-- The lane enters TEST. -/
def enterTest (s : State) (n : Nat) : State := checkerReset (laneEnter s n 7) n

/-- The lane restarts, or goes to TEST while a pattern is set. -/
def laneRestart (s : State) (n : Nat) : State := if patterned s n then enterTest s n else laneEnter s n (restartTo s n)

/-- A lane moved into IDLE, or out of it, as the conditions of R217 now are. -/
def laneReeval (s : State) (n : Nat) : State :=
  if idleCond s n then (if s.laneState n = 0 then s else laneEnter s n 0)
  else if s.laneState n = 0 then laneRestart s n
  else s

def quadReeval (s : State) (q : Nat) : State := (List.range 4).foldl (fun acc l => laneReeval acc (4 * q + l)) s

def allLanesReeval (s : State) : State := (List.range 144).foldl laneReeval s

/-- The TAP holds another instruction; entering or leaving the EXTEST class moves the lanes (R217, R232). -/
def setIr (s : State) (code : Nat) : State :=
  let s1 := { s with tapIr := code }
  if tapAc s != tapAc s1 then allLanesReeval s1 else s1

/-! ### Control writes -/

/-- A write of LN_BU_CTRL: DET_EN, EN, and RESTART, which acts in every state but IDLE and TEST (R217, R219). -/
def buCtrlWrite (s : State) (n : Nat) (v : Word32) : State :=
  let s1 := laneReeval (s.setReg (Reg.LN_BU_CTRL n) (v &&& 0x00000005#32)) n
  if v.getLsbD 31 ∧ s1.laneState n ≠ 0 ∧ s1.laneState n ≠ 7 ∧ s.laneState n ≠ 0 then laneRestart s1 n else s1

/-- LANE_ENABLE: a write of LN_BU_CTRL. -/
def execLaneEnable (n : Fin 144) (v : Word32) (s : State) : Res := if s.alive then ok (buCtrlWrite s n.val v) else ok s

/-- LANE_RESTART: a write of RESTART with EN and DET_EN as they stand. -/
def execLaneRestart (n : Fin 144) (s : State) : Res :=
  if s.alive then ok (buCtrlWrite s n.val (s.reg (Reg.LN_BU_CTRL n) ||| 0x80000000#32)) else ok s

/-- A write of LN_TEST_CTRL: a pattern set or changed moves the lane into TEST or starts its checker afresh, patterns set to off restart
it, a change of LB restarts it, and the injection bits act (R219, R229 to R231). Where a write sets INJ_SINGLE and INJ_BURST, the single
inversion comes first and the burst is dropped (DESIGN CHOICE, log 118). -/
def testCtrlWrite (s : State) (n : Nat) (v : Word32) : State :=
  let before := patterned s n
  let rxBefore := s.getF (Reg.LN_TEST_CTRL_RXPAT n)
  let lbBefore := s.getF (Reg.LN_TEST_CTRL_LB n)
  let s1 := s.setReg (Reg.LN_TEST_CTRL n) (v &&& 0x00FFFFFF#32)
  let st := s1.laneState n
  let s2 :=
    if st = 0 then s1
    else if patterned s1 n then
      (if st ≠ 7 ∨ s1.getF (Reg.LN_TEST_CTRL_LB n) ≠ lbBefore then enterTest s1 n
       else if s1.getF (Reg.LN_TEST_CTRL_RXPAT n) ≠ rxBefore then checkerReset s1 n else s1)
    else if before || s1.getF (Reg.LN_TEST_CTRL_LB n) != lbBefore then laneRestart s1 n
    else s1
  let s3 := if v.getLsbD 31 then injRequest s2 n 1 else s2
  if v.getLsbD 30 then injRequest s3 n (max 1 (s3.getF (Reg.LN_TEST_CTRL_BURST_LEN n))) else s3

/-- TEST_PATTERN_WRITE: a write of LN_TEST_CTRL. -/
def execTestPatternWrite (n : Fin 144) (v : Word32) (s : State) : Res := if s.alive then ok (testCtrlWrite s n.val v) else ok s

/-- LOOPBACK_SELECT: a write of LB with the other fields as they stand. -/
def execLoopbackSelect (n : Fin 144) (lb : Fin 4) (s : State) : Res :=
  let w := putBits (s.reg (Reg.LN_TEST_CTRL n)) 7 6 lb.val
  if s.alive then ok (testCtrlWrite s n.val w) else ok s

/-- The results of trunk lanes of a quad clear when MODE leaves trunk; so do the pointers of their rings. -/
def tkRegsClear (s : State) (n : Nat) : State :=
  let s1 := [Reg.LN_TK_STAT n, Reg.LN_TK_FEC n, Reg.LN_TK_SYM n, Reg.LN_TK_VER n, Reg.LN_TK_DISC n, Reg.LN_TK_CNT n].foldl
    (fun acc r => acc.setReg r 0) s
  (List.range 8).foldl (fun acc i => (acc.setReg (Reg.LN_TK_QRXP n i) 0).setReg (Reg.LN_TK_QTXP n i) 0) (s1.setTk n TkLane.reset)

/-- The quad PLL stops where MODE is off or the rate is in error; that is no loss of lock (R221). -/
def pllStop (s : State) (q : Nat) : State :=
  let m := s.getF (Reg.LQ_MODE_MODE q)
  let runs := (m == 1 && !s.flag (Reg.LQ_MODE_RATE_ERR q)) || (m == 2 && !s.flag (Reg.LQ_TRK_RATE_ERR q))
  if runs then s else s.clearF (Reg.LQ_PLL_STAT_LOCK q)

/-- A write of LQ_MODE (R174, R193, R221). -/
def quadModeWrite (s : State) (q : Nat) (v : Word32) : State :=
  let was := s.getF (Reg.LQ_MODE_MODE q)
  let s1 := lqModeWrite s q v
  let s2 := if was = 2 ∧ s1.getF (Reg.LQ_MODE_MODE q) ≠ 2 then (List.range 4).foldl (fun acc l => tkRegsClear acc (4 * q + l)) s1 else s1
  quadReeval (pllStop (tkRateCheck s2 q) q) q

/-- QUAD_MODE_WRITE: a write of LQ_MODE. -/
def execQuadModeWrite (q : Fin 36) (v : Word32) (s : State) : Res := if s.alive then ok (quadModeWrite s q.val v) else ok s

/-- A write of LQ_TRK with what it does to the quad PLL. -/
def quadTrkWrite (s : State) (q : Nat) (v : Word32) : State := quadReeval (pllStop (lqTrkWrite s q v) q) q

/-- TRUNK_RATE_WRITE: a write of LQ_TRK. -/
def execTrunkRateWrite (q : Fin 36) (v : Word32) (s : State) : Res := if s.alive then ok (quadTrkWrite s q.val v) else ok s

/-! ### Transitions -/

/-- DETECT_ATTEMPT: a detection attempt ends; `found` says whether the line settled as with a receiver (R220). -/
def execDetectAttempt (n : Fin 144) (found : Bool) (s : State) : Res :=
  if s.laneState n = 1 ∧ !idleCond s n then
    let s1 := s.putF (Reg.LN_BU_STAT_PARTNER n) found
    ok (if found then laneEnter s1 n.val 2 else s1)
  else ok s

/-- TRAIN_COMPLETE: 100 µs have passed and adaptation has converged (R218). -/
def execTrainComplete (n : Fin 144) (s : State) : Res :=
  okIf ((s.untimed n).laneState n == 2) s ((s.untimed n).laneTo n 3)

/-- BITLOCK_COMPLETE: clock recovery has been locked for 10 µs (R218). -/
def execBitlockComplete (n : Fin 144) (s : State) : Res :=
  let u := s.untimed n
  okIf (u.laneState n == 3) s (if u.laneMode n = 2 then u.laneTo n 4 else feSymlock u n)

/-- A timeout applies in the present state (Table 11.2), which the lane has not entered in the same slot or tick: what moved it prevails
(R219). A lane without an IV seed leaves HANDSHAKE by its timeout whatever it accepts (R303). -/
def mayTimeout (s : State) (n : Nat) : Bool :=
  let l := s.tkLane n
  !s.cyc.moved.contains n &&
    match s.laneState n with
    | 2 => true
    | 3 => true
    | 4 => true
    | 5 => l.peer.isNone || l.seed.isNone
    | 6 => s.laneMode n == 2 && !l.sfOk && decide (1024 ≤ l.unlocked)
    | _ => false

/-- A timeout: TMO, TMO_STATE, TMO_CNT, event n, and the move of Table 11.2. -/
def laneTimeout (s : State) (n : Nat) : State :=
  let st := s.laneState n
  let s1 := (((s.raiseF (Reg.LN_BU_STAT_TMO n)).setF (Reg.LN_BU_STAT_TMO_STATE n) st).incF (Reg.LN_BU_CNT_TMO_CNT n)).raiseEv n
  if st = 2 then laneRestart s1 n else laneEnter s1 n 2

/-- What a timeout changes, kept to the end of the slot or tick. -/
def laneUndo (s : State) (n : Nat) : LaneUndo :=
  { state := s.laneState n, tmo := s.flag (Reg.LN_BU_STAT_TMO n), tmoState := s.getF (Reg.LN_BU_STAT_TMO_STATE n),
    full := s.getF (Reg.LN_BU_CNT_TMO_CNT n) == 0xFFFF, fe := s.feLane n, tk := s.tkLane n,
    ev := !(s.logs && s.cyc.evs.contains n) }

/-- LANE_STATE_TIMEOUT: a bring-up state times out; a normal exit of the state in the same slot or tick prevails over it (R218, R219). -/
def execLaneStateTimeout (n : Fin 144) (s : State) : Res :=
  let t := laneTimeout s n
  okIf (mayTimeout s n) s { t with cyc := { t.cyc with timed := tset (fun _ => none) t.cyc.timed n (some (laneUndo s n)) } }

/-- LOSS_OF_SIGNAL: energy has stayed below squelch for 10 µs: LOS, event n, restart (R218). The alignment that the restart ends is no loss
of alignment: LOCK_LOSS and RELOCK_CNT stay (DESIGN CHOICE, log 118). -/
def execLossOfSignal (n : Fin 144) (s : State) : Res :=
  let u := s.untimed n
  okIf (3 ≤ u.laneState n && u.laneState n ≤ 6) s (laneRestart ((u.raiseF (Reg.LN_BU_STAT_LOS n)).raiseEv n) n.val)

/-! ### The quad PLL -/

/-- The reading held for the base-die sensor nearest a quad, 4·(T + 64) (R221, R428). -/
def quadReading (s : State) (q : Nat) : Nat := s.getF (Reg.THM_TEMP_TEMP (248 + 2 * (q / 9) + q % 9 / 5))

/-- The quad PLL may run: the root is locked and not on RCO, MODE is not off and the rate is valid; in a debug halt too, in which bring-up
goes on (R219, R221, R386). -/
def pllMayRun (s : State) (q : Nat) : Bool :=
  let m := s.getF (Reg.LQ_MODE_MODE q)
  (s.phase == .run || s.phase == .start) && s.flag Reg.CLK_STAT_LOCK && s.getF Reg.CLK_STAT_SRC_NOW != 2 &&
    ((m == 1 && !s.flag (Reg.LQ_MODE_RATE_ERR q)) || (m == 2 && !s.flag (Reg.LQ_TRK_RATE_ERR q)))

/-- QUAD_PLL_LOCK: the PLL locks with a band calibration at the temperature of the nearest sensor, recorded in whole °C + 64 (R221). -/
def execQuadPllLock (q : Fin 36) (_ : Unit) (s : State) : Res :=
  if pllMayRun s q && !s.flag (Reg.LQ_PLL_STAT_LOCK q) then
    let s1 := (s.raiseF (Reg.LQ_PLL_STAT_LOCK q)).setF (Reg.LQ_PLL_STAT_CAL_T q) (quadReading s q / 4)
    ok (quadReeval { s1 with pllDue := tset (fun _ => false) s1.pllDue q.val false } q.val)
  else ok s

/-- A loss of lock: LOSS, RELOCK_CNT, event 144 + q, the lanes enter IDLE. -/
def pllLose (s : State) (q : Nat) : State :=
  if s.flag (Reg.LQ_PLL_STAT_LOCK q) then
    quadReeval ((((s.clearF (Reg.LQ_PLL_STAT_LOCK q)).raiseF (Reg.LQ_PLL_STAT_LOSS q)).incF (Reg.LQ_PLL_CNT_RELOCK_CNT q)).raiseEv
      (144 + q)) q
  else s

/-- QUAD_PLL_LOSS. -/
def execQuadPllLoss (q : Fin 36) (s : State) : Res := ok (pllLose s q.val)

/-- The sensor nearest a quad against CAL_T, in steps of 0.25 °C: more than 40 °C away sets VCAL_DUE and raises event 144 + q (R221). -/
def pllTemperature (s : State) (q : Nat) : State :=
  let c := 4 * s.getF (Reg.LQ_PLL_STAT_CAL_T q)
  let t := quadReading s q
  let far := decide (c + 160 < t) || decide (t + 160 < c)
  let due := tget (fun _ => false) s.pllDue q
  if s.flag (Reg.LQ_PLL_STAT_LOCK q) && far && !due then
    ({ s with pllDue := tset (fun _ => false) s.pllDue q true }.raiseF (Reg.LQ_PLL_STAT_VCAL_DUE q)).raiseEv (144 + q)
  else s

/-- QUAD_PLL_RECAL: every lane of the quad is in IDLE or DETECT and a recalibration is due: the PLL leaves lock for it, which
is no loss of lock, and its lanes stay in IDLE until it locks (R221). -/
def execQuadPllRecal (q : Fin 36) (s : State) : Res :=
  okIf (tget (fun _ => false) s.pllDue q.val && s.flag (Reg.LQ_PLL_STAT_LOCK q.val) &&
      (List.range 4).all (fun l => s.laneState (4 * q.val + l) ≤ 1)) s
    (quadReeval (s.clearF (Reg.LQ_PLL_STAT_LOCK q.val)) q.val)

/-! ### The handshake -/

/-- Key index i of a list of eight fields. -/
def hskKey (payload i : Nat) : Nat := nbits payload (16 + 6 * i + 5) (16 + 6 * i)

/-- The cause for which a message is refused, 2 to 6, lowest first; 0 where it passes (R224). -/
def hskCause (s : State) (l : TkLane) (m : List Nat) : Nat :=
  let b0 := m.getD 0 0
  let b1 := m.getD 1 0
  let c := l.cfg
  let keyBad := fun (cs : List Nat) (p : Nat) => cs.zipIdx.any (fun ci => rxEnabled ci.1 && rxKeyOf ci.1 != hskKey p ci.2)
  if nbits b0 31 24 ≠ c.h ∨ b0.testBit 32 ≠ c.pam4 then 2
  else if nbits b0 47 40 ≠ enableSet c.scfg 30 ∨ nbits b1 23 16 ≠ enableSet c.scfg 31 then 3
  else if nbits b0 55 48 ≠ enableSet c.qcfg 30 ∨ nbits b1 31 24 ≠ enableSet c.qcfg 31 then 4
  else if keyBad c.scfg (m.getD 3 0) || keyBad c.qcfg (m.getD 4 0) then 5
  else if (keysNamed c).any (fun e => !keyHeld s e) then 6
  else 0

/-- HSK_MESSAGE: two consecutive codewords carried one message with a good CRC and VERSION 0x01; it is accepted and
checked (R223, R224). The count of codewords sent with ACK starts again with a message accepted afresh (DESIGN CHOICE, log 143). -/
def execHskMessage (n : Fin 144) (s0 : State) : Res :=
  let s := s0.untimed n
  let l := s.tkLane n
  match l.hsk with
  | none => ok s0
  | some m =>
    let crcOk := nbits (m.getD 5 0) 47 16 == crc32 (payloadBytes (m.take 5))
    if s.laneMode n == 2 && s.laneState n == 5 && l.hskTwo && crcOk && nbits (m.getD 0 0) 23 16 == 1 && l.peer != some m then
      let cause := hskCause s l m
      let s1 := (s.setTk n { l with peer := some m, passed := cause == 0, peerSeed := (m.getD 2 0) / 2 ^ 16, acksSent := 0 }).setF
        (Reg.LN_BU_STAT_PEER_LANE n) (nbits (m.getD 1 0) 39 32)
      if cause = 0 then ok s1
      else ok (((s1.raiseF (Reg.LN_BU_STAT_REFUSED n)).setF (Reg.LN_BU_STAT_REF_CAUSE n) cause).raiseEv n)
    else ok s0

/-- HANDSHAKE_EXIT: two codewords with ACK have gone out and the partner's ACK has come: the final codeword with LAST is
sent and the lane enters ACTIVE at the agreed FEC setting (R225). -/
def execHandshakeExit (n : Fin 144) (s0 : State) : Res :=
  let s := s0.untimed n
  let l := s.tkLane n
  if s.laneMode n == 2 && s.laneState n == 5 && l.passed && 2 ≤ l.acksSent && l.ackSeen && l.seed.isSome then
    let fec := l.cfg.fec && ((l.peer.getD []).getD 0 0).testBit 33
    let s1 := sendCw s n l true (hskBlocks n l true true)
    let l1 := s1.tkLane n
    let s2 := s1.setTk n { l1 with txFec := fec, txCw := 0, actSlot := s.time.slots - s.time.inTick, lag := 0, taken := [] }
    ok ((((s2.putF (Reg.LN_TK_STAT_FEC_ON n) fec).laneTo n 6).incF (Reg.LN_BU_CNT_ACT_CNT n)).raiseEv n)
  else ok s0

/-! ### Wake -/

/-- LANE_WAKE: the wake detector sees energy on a watched lane in HOLD or KEEP; `pattern` says that it was 32 good cycles of
the wake pattern. A lane behind another cause, latched before, does not wake the device (R227, R423). -/
def execLaneWake (n : Fin 144) (pattern : Bool) (s : State) : Res :=
  let awake := (s.phase == .hold || s.phase == .keep || (s.aon.entry == 2 && s.aon.mode != 3)) && s.flag (Reg.LN_WAKE_EN n) && s.flag Reg.PWR_WAKE_LANE_EN
  okIf (awake && s.wakes == 0 && (pattern || !s.flag (Reg.LN_WAKE_CLASS n))) s
    ({ s.raiseF (Reg.LN_WAKE_SEEN n) with wakes := 1 }.raiseEv n)

/-- A write of LN_WAKE: CLASS and EN, SEEN is W1C, and SEND starts a pattern in RUN unless one is being sent or the lane is
in TEST (R228). -/
def wakeWrite (s : State) (n : Nat) (v : Word32) : State :=
  let s1 := (s.setF (Reg.LN_WAKE_CLASS n) (v.toNat / 2 % 2)).setF (Reg.LN_WAKE_EN n) (v.toNat % 2)
  let s2 := s1.w1c (Reg.LN_WAKE n) (v &&& 0x00000004#32)
  if v.getLsbD 31 && s2.phase == .run && !s2.flag (Reg.LN_WAKE_SENDING n) && s2.laneState n != 7 then
    laneReeval (s2.raiseF (Reg.LN_WAKE_SENDING n)) n
  else s2

/-- WAKE_SEND: a write of LN_WAKE.SEND. -/
def execWakeSend (n : Fin 144) (s : State) : Res :=
  let keep := s.reg (Reg.LN_WAKE n) &&& 0x00000003#32
  if s.alive then ok (wakeWrite s n.val (keep ||| 0x80000000#32)) else ok s

/-- WAKE_SEND_END: the 3,276.8 µs of the pattern are over, and the lane restarts (R228). -/
def execWakeSendEnd (n : Fin 144) (s : State) : Res :=
  okIf (s.flag (Reg.LN_WAKE_SENDING n)) s (laneReeval (s.clearF (Reg.LN_WAKE_SENDING n)) n.val)

end Sys2Proof.Machine
end

