-- ==== Sys2Proof/Machine/Match.lean ====
section
/-!
DEFINITION. The matcher (07_matcher.md R136 to R150): hits, event ends, roads, its two contexts, the store port and the
store checker.
-/

namespace Sys2Proof.Machine

def State.setMatcher (s : State) (sec : Nat) (m : Matcher) : State :=
  { s with matchers := tset (fun _ => Matcher.reset) s.matchers sec m }

/-- The store word at an address of a sector's matcher, as stored. -/
def State.storeWord (s : State) (sec a : Nat) : CodeWord := tget (fun _ => 0) s.mstore (16384 * sec + a)

def State.setStoreWord (s : State) (sec a : Nat) (w : CodeWord) : State :=
  { s with mstore := tset (fun _ => 0) s.mstore (16384 * sec + a) w }

/-- The information bits of word w of pattern n. -/
def patWord (s : State) (sec n w : Nat) : Nat := (cwInfo (s.storeWord sec (4 * n + w))).toNat

/-- A pattern with a poisoned word matches no layer and never qualifies (R148). -/
def patPoisoned (s : State) (sec n : Nat) : Bool :=
  (List.range 4).any (fun w => cwPoison (s.storeWord sec (4 * n + w)))

/-- LAYER_EN of a pattern. -/
def layerEn (s : State) (sec n : Nat) : Nat := nbits (patWord s sec n 0) 47 40

/-- The layer field of a pattern: key in [15:0], DC in [19:16] (Table 7.1). -/
def layerField (s : State) (sec n l : Nat) : Nat :=
  let w := patWord s sec n (l / 2)
  if l % 2 = 0 then nbits w 19 0 else nbits w 39 20

/-- R138: layer L of pattern n is matched by a hit (L, K). -/
def layerMatches (s : State) (sec n l key : Nat) : Bool :=
  let f := layerField s sec n l
  let d := f / 65536
  (layerEn s sec n).testBit l && !patPoisoned s sec n && key / 2 ^ d == f % 65536 / 2 ^ d

/-- The patterns of a sector that any store word is listed for; every other pattern is all zero and never matches. -/
def patterns (s : State) (sec : Nat) : List Nat :=
  ((s.mstore.filter (fun kv => kv.1 / 16384 == sec)).map (fun kv => kv.1 % 16384 / 4)).eraseDups

/-- XCTL of the active plane (AF[943:912]). -/
def xctl (v : FabView) (sec : Nat) : Nat := v.af (matcherTile sec) 912 32

/-- Hit h of the slot, if it is accepted: its layer and key (R139). -/
def hitOf (s : State) (sec h : Nat) : Option (Nat × Nat) :=
  let v := s.view
  let g := matcherTile sec
  if s.mayIssue sec && (xctl v sec).testBit 0 && v.afIn g (220 * h + 209) then
    some (v.afBus g (220 * h + 176) 3, v.afBus g (220 * h) 16)
  else none

/-- The matcher accepts some hit in the present slot. -/
def anyHit (s : State) (sec : Nat) : Bool := (List.range 4).any (fun h => (hitOf s sec h).isSome)

def Matcher.ctx (m : Matcher) (c : Nat) : MatchCtx := if c = 0 then m.ctx0 else m.ctx1

def Matcher.setCtx (m : Matcher) (c : Nat) (x : MatchCtx) : Matcher :=
  if c = 0 then { m with ctx0 := x } else { m with ctx1 := x }

/-- A hit added to a context: the matched bit of its layer is set in every pattern it matches (R139). -/
def addHit (s : State) (sec l key : Nat) (x : MatchCtx) : MatchCtx :=
  let upd := fun (t : Tab Nat) (n : Nat) =>
    if layerMatches s sec n l key then
      let b := tget (fun _ => 0) t n
      tset (fun _ => 0) t n (b ||| 2 ^ l)
    else t
  { bits := (patterns s sec).foldl upd x.bits, hit := true }

/-- MATCHER_HIT: a valid hit is accepted into the context that fills; in a slot that has already ended an event, the
hits belong to the event that ended (R140). -/
def execMatcherHit (sec : Fin 240) (h : Fin 4) (s : State) : Res :=
  let m := s.matcher sec
  match hitOf s sec h with
  | none => ok s
  | some (l, key) =>
    let c := if m.endedAt = some s.time.slots then 1 - m.fill else m.fill
    ok (s.setMatcher sec (m.setCtx c (addHit s sec l key (m.ctx c))))

/-- The number of layers in a layer map. -/
def popCount8 (x : Nat) : Nat := (List.range 8).foldl (fun acc i => acc + (x.testBit i).toNat) 0

/-- Descending count, and ascending index among equal counts: where ORDER 1 puts a road. -/
def roadInsert (r : Road) : List Road → List Road
  | [] => [r]
  | x :: t => if x.count < r.count then r :: x :: t else x :: roadInsert r t

/-- The roads of an event in the order of R141, at most 256 of them, and whether more qualified (R142). -/
def roadsOf (s : State) (sec : Nat) (x : MatchCtx) (thr order : Nat) : List Road × Bool :=
  let t := if thr = 0 then 1 else min thr 8
  let pats := (List.range 4096).filter (fun n => x.bits.any (fun kv => kv.1 == n))
  let all := pats.filterMap (fun n =>
    let lm := tget (fun _ => 0) x.bits n &&& layerEn s sec n
    let c := popCount8 lm
    if t ≤ c && !patPoisoned s sec n then
      some { pattern := n, lmap := lm, count := c, payload := nbits (patWord s sec n 1) 55 40 : Road }
    else none)
  let l := if order = 0 then all else (all.foldl (fun acc r => roadInsert r acc) [])
  (l.take 256, 256 < l.length)

/-- The slot of an event's DONE word (R141, R143), once its roads are known. -/
def Drain.doneSlot (d : Drain) : Option Nat :=
  match d.roads with
  | some (rs, _) => some (d.at_ + 23 + max rs.length 1)
  | none => none

/-- The word due in a slot for a draining event (R141). -/
def Drain.due (d : Drain) (j : Nat) : Option RoadWord :=
  match d.roads with
  | none => none
  | some (rs, ovf) =>
    if j < d.at_ + 24 then none
    else
      let i := j - (d.at_ + 24)
      let last := i + 1 == max rs.length 1
      if i < max rs.length 1 then
        some { road := rs[i]?, done := last, ovf := last && ovf, cut := false, ctx := d.ctx, evnum := d.evnum }
      else none

/-- The word a matcher has due in a slot: a cut event's DONE word, or the draining event's. -/
def Matcher.due (m : Matcher) (j : Nat) : Option RoadWord :=
  match m.cutWord with
  | some (c, w) => if c = j then some w else (m.drain.bind (·.due j))
  | none => m.drain.bind (·.due j)

/-- ROAD: the road or DONE word due in the present slot is presented on the attachment sources. -/
def execRoad (sec : Fin 240) (s : State) : Res :=
  let m := s.matcher sec
  match m.due s.time.slots with
  | none => ok s
  | some w =>
    okIf (s.mayIssue sec && m.shown.all (fun x => x.1 != s.time.slots)) s
      (s.setMatcher sec { m with shown := some (s.time.slots, w) })

/-- The event-end input of the active plane (R140). -/
def eventEnds (s : State) (sec : Nat) : Bool :=
  let v := s.view
  s.mayIssue sec && (xctl v sec).testBit 1 && v.afIn (matcherTile sec) 880

/-- An empty context. -/
def MatchCtx.empty : MatchCtx := ⟨[], false⟩

/-- EVENT_END: the filling context drains and the other one fills; an event still draining is cut (R140, R143, R144). -/
def execEventEnd (sec : Fin 240) (s : State) : Res :=
  let m := s.matcher sec
  let j := s.time.slots
  if eventEnds s sec && m.endedAt != some j then
    let c := xctl s.view sec
    let other := 1 - m.fill
    -- the word of this slot is presented whatever the event-end input says
    let shown := match m.due j with
      | some w => some (j, w)
      | none => m.shown
    let cut := match m.drain with
      | some d => d.doneSlot != some j
      | none => false
    let cutWord : Option (Nat × RoadWord) := match m.drain with
      | some d =>
        if cut then
          some (j + 1, { road := none, done := true, cut := true, ctx := d.ctx, evnum := d.evnum,
                         ovf := match d.roads with | some (_, o) => o | none => false })
        else none
      | none => none
    let new : Drain :=
      { ctx := m.fill, at_ := j, thr := nbits c 7 4, order := nbits c 8 8, evnum := m.evnum, roads := none }
    let m1 := { (m.setCtx other MatchCtx.empty) with
      fill := other, drain := some new, drained := if m.drain.any (fun d => decide (d.at_ < j)) then some j else m.drained, evnum := (m.evnum + 1) % 256, endedAt := some j, shown := shown, cutWord := cutWord }
    let s1 := (s.setMatcher sec m1).incF (Reg.SEC_MT_EVCNT_EVENTS sec)
    ok (if cut then (s1.raiseF (Reg.SEC_MT_STAT_CUT sec)).incF (Reg.SEC_MT_CNT_CUT_CNT sec) else s1)
  else ok s

/-- What the end of a slot does to one matcher: an event that ended in it drains from here on; an event is evaluated by the end of slot j + 23, and its context is free
after its DONE word (R142, R143). -/
def matcherSlot (s0 s : State) (sec : Nat) : State :=
  let m := s.matcher sec
  let j := s0.time.slots
  match m.drain with
  | none => s
  | some d =>
    if j = d.at_ then s.raiseF (Reg.SEC_MT_STAT_DRAINING sec)
    else if j = d.at_ + 23 then
      let rs := roadsOf s0 sec (m.ctx d.ctx) d.thr d.order
      let s1 := s.setMatcher sec { m with drain := some { d with roads := some rs } }
      if rs.2 then (s1.raiseF (Reg.SEC_MT_STAT_OVF sec)).incF (Reg.SEC_MT_CNT_OVF_CNT sec) else s1
    else if d.doneSlot = some j then
      (s.setMatcher sec { (m.setCtx d.ctx MatchCtx.empty) with drain := none }).clearF (Reg.SEC_MT_STAT_DRAINING sec)
    else s

/-- Contexts that are lost when the contexts are cleared: one that drains, and one that fills with a hit (R146). -/
def lostContexts (m : Matcher) : Nat := m.drain.isSome.toNat + (m.ctx m.fill).hit.toNat

/-- MATCHER_FRAME_CLEAR (R146): both contexts and every word not yet presented go, EVNUM returns to 0 and C0 fills. -/
def matcherClear (s : State) (sec : Nat) : State :=
  let m := s.matcher sec
  let n := lostContexts m
  let s1 := (s.setMatcher sec { Matcher.reset with check := m.check, checkAt := m.checkAt, waited := m.waited }).clearF
    (Reg.SEC_MT_STAT_DRAINING sec)
  if n = 0 then s1 else (s1.raiseF (Reg.SEC_MT_STAT_LOST sec)).addF (Reg.SEC_MT_LOST_LOST_CNT sec) n

/-- The same for every matcher, at the end of a frame. -/
def matchersFrameEnd (s : State) : State := (s.matchers.map (fun kv => kv.1)).foldl matcherClear s

/-- Every matcher in one slot. -/
def matchersSlot (s0 s : State) : State := (s0.matchers.map (fun kv => kv.1)).foldl (matcherSlot s0) s

/-! ### The store port (R147) -/

/-- A store write of user mode is refused while the clearing window is closed (R147). -/
def storeClosed (s : State) : Bool := s.user && !s.clrOpen

/-- A store write that has no effect: PORT_REJ and its count. -/
def portReject (s : State) (sec : Nat) : State :=
  (s.raiseF (Reg.SEC_MT_STAT_PORT_REJ sec)).incF (Reg.SEC_MT_LOST_PORT_REJ_CNT sec)

/-- An access starts. -/
def portStart (s : State) (sec : Nat) : State :=
  let s1 := s.raiseF (Reg.SEC_MT_STAT_BUSY sec)
  { s1.setMatcher sec { s1.matcher sec with waited := 0 } with
      cyc := if s1.logs then { s1.cyc with mtNew := sec :: s1.cyc.mtNew } else s1.cyc }

/-- A write of SEC_MT_SEL; the Boolean says whether it receives an error response. A refused store write has no effect
beside its record. -/
def mtSelWrite (s : State) (sec : Nat) (v : Word32) : State × Bool :=
  if s.flag (Reg.SEC_MT_STAT_BUSY sec) then (s, true)
  else if v.getLsbD 31 && v.getLsbD 30 && storeClosed s then (portReject s sec, true)
  else
    let s1 := s.setReg (Reg.SEC_MT_SEL sec) (v &&& 0x60003FFF#32)
    (if v.getLsbD 31 then portStart s1 sec else s1, false)

/-- A write of SEC_MT_DHI; in stream mode with WR = 1 it also starts a store write. -/
def mtDhiWrite (s : State) (sec : Nat) (v : Word32) : State × Bool :=
  if s.flag (Reg.SEC_MT_STAT_BUSY sec) then (s, true)
  else if s.flag (Reg.SEC_MT_SEL_STREAM sec) && s.flag (Reg.SEC_MT_SEL_WR sec) then
    if storeClosed s then (portReject s sec, true)
    else (portStart (s.setReg (Reg.SEC_MT_DHI sec) v) sec, false)
  else (s.setReg (Reg.SEC_MT_DHI sec) v, false)

/-- The answer of a register access recorded. -/
def State.answer (s : State) (status : Nat) (data : Word64) : State := { s with resp := ⟨status, data⟩ }

/-- A register write's answer: OKAY, or SLVERR where it fails. -/
def answered (r : State × Bool) : State := r.1.answer (if r.2 then 1 else 0) 0

/-- The word that a GO carries: GO, WR, STREAM, ADDR. -/
def mtSelWord (wr stream : Bool) (a : Nat) : Word32 :=
  BitVec.ofNat 32 (2 ^ 31 + 2 ^ 30 * wr.toNat + 2 ^ 29 * stream.toNat + a)

/-- MT_PORT_READ: GO with WR = 0. -/
def execMtPortRead (sec : Fin 240) (stream : Bool) (a : Fin 16384) (s : State) : Res :=
  okIf s.alive s (answered (mtSelWrite s sec (mtSelWord false stream a)))

/-- MT_PORT_WRITE: GO with WR = 1. -/
def execMtPortWrite (sec : Fin 240) (stream : Bool) (a : Fin 16384) (s : State) : Res :=
  okIf s.alive s (answered (mtSelWrite s sec (mtSelWord true stream a)))

/-- MT_STREAM_WRITE: a write of SEC_MT_DHI in stream mode. -/
def execMtStreamWrite (sec : Fin 240) (v : Word32) (s : State) : Res :=
  okIf s.alive s (answered (mtDhiWrite s sec v))

/-- The pending access performed: a write stores DHI:DLO with fresh check bits; a read returns the decoded word, or the
information bits as stored with POISON_RD and an error response. -/
def mtPortDo (s : State) (sec : Nat) : State :=
  let a := s.getF (Reg.SEC_MT_SEL_ADDR sec)
  let out := fun (t : State) (d : Word64) =>
    (t.setReg (Reg.SEC_MT_DLO sec) (d.setWidth 32)).setReg (Reg.SEC_MT_DHI sec) ((d >>> 32).setWidth 32)
  let s1 :=
    if s.flag (Reg.SEC_MT_SEL_WR sec) then
      s.setStoreWord sec a (cwEncode (s.reg (Reg.SEC_MT_DHI sec) ++ s.reg (Reg.SEC_MT_DLO sec)))
    else
      match cwDecode (s.storeWord sec a) with
      | .clean d => (out s d).answer 0 d
      | .corrected d =>
        ((out s d).raiseF (Reg.SEC_MT_STAT_CORR sec)).incF (Reg.SEC_MT_ECC_COR_CNT sec) |>.answer 0 d
      | .bad =>
        let d := cwInfo (s.storeWord sec a)
        ((out s d).raiseF (Reg.SEC_MT_STAT_POISON_RD sec)).answer 1 d
  let s2 := if s.flag (Reg.SEC_MT_SEL_STREAM sec) then s1.setF (Reg.SEC_MT_SEL_ADDR sec) ((a + 1) % 16384) else s1
  let s3 := s2.setMatcher sec { s2.matcher sec with waited := 0 }
  State.portEnds { s3 with cyc := { s3.cyc with mt := s3.cyc.mt ++ [sec] } } 1 sec true

/-- The accesses served in a slot end with it. -/
def mtPortsDone (s : State) : State := s.cyc.mt.foldl (fun t sec => t.clearF (Reg.SEC_MT_STAT_BUSY sec)) s

/-- An access leaves the port without effect; the loader issues its own again (R339). -/
def portGiveUp (s : State) (sec : Nat) : State :=
  let t := s.clearF (Reg.SEC_MT_STAT_BUSY sec)
  (t.setMatcher sec { t.matcher sec with waited := 0 }).portEnds 1 sec false

/-- MT_PORT_SERVE: a pending access is served in a slot in which the matcher accepts no hit; BUSY is 1 to the end of that slot. The error
of a read of a poisoned word is the command's own answer: the GO write has had its own before (R147; DESIGN CHOICE, log 150). -/
def execMtPortServe (sec : Fin 240) (s : State) : Res :=
  okIf (s.slotRuns && s.flag (Reg.SEC_MT_STAT_BUSY sec) && !s.cyc.mt.contains sec.val && !s.cyc.mtNew.contains sec.val &&
    decide ((s.matcher sec).waited < 16384) && !anyHit s sec) s (mtPortDo s sec)

/-- MT_PORT_TIMEOUT: an access that found no hit-free slot within 16,384 slots is abandoned and PORT_TMO is set. -/
def execMtPortTimeout (sec : Fin 240) (s : State) : Res :=
  okIf (s.flag (Reg.SEC_MT_STAT_BUSY sec) && 16384 ≤ (s.matcher sec).waited) s
    ((portGiveUp s sec).raiseF (Reg.SEC_MT_STAT_PORT_TMO sec))

/-- MT_PORT_ABANDON: a store write still pending at the end of a frame of user mode is abandoned. -/
def mtPortAbandon (s : State) (sec : Nat) : State :=
  if s.flag (Reg.SEC_MT_STAT_BUSY sec) && s.flag (Reg.SEC_MT_SEL_WR sec) then
    portReject (portGiveUp s sec) sec
  else s

/-- Sectors with a pending store access, found among the listed registers. -/
def mtWaiting (s : State) : List Nat :=
  s.regs.filterMap (fun kv =>
    if 0x500000 ≤ kv.1 ∧ kv.1 % 0x1000 = 0x20C ∧ kv.2.getLsbD 0 then some ((kv.1 - 0x500000) / 0x1000) else none)

/-- One more slot waited by every pending store access. -/
def mtPortsWait (s : State) : State :=
  ((mtWaiting s).filter (fun sec => !s.cyc.mtNew.contains sec)).foldl (fun t sec => t.setMatcher sec { t.matcher sec with waited := (t.matcher sec).waited + 1 }) s

/-! ### The checker (R148) -/

/-- A rewrite that the checker leaves to the end of its slot. -/
def storeFix (s : State) (sec a : Nat) (w : CodeWord) : State :=
  { s with cyc := { s.cyc with fixes := s.cyc.fixes ++ [(16384 * sec + a, s.storeWord sec a, w)] } }

/-- The checker's rewrites of a slot stand from the next one; a port write of the same word in the same slot prevails. -/
def storeFixes (s : State) : State :=
  { s with mstore := s.cyc.fixes.foldl (fun t x =>
      if tget (fun _ => 0) t x.1 = x.2.1 then tset (fun _ => 0) t x.1 x.2.2 else t) s.mstore }

/-- STORE_CHECK: in the slot with k = 7 the checker decodes one word, corrects or poisons it from the next slot on, and moves on. -/
def execStoreCheck (sec : Fin 240) (s : State) : Res :=
  let m := s.matcher sec
  let a := m.check
  let s1 := s.setMatcher sec { m with check := (a + 1) % 16384, checkAt := some s.time.slots }
  if s.slotRuns && s.k == 7 && m.checkAt != some s.time.slots then
    if cwPoison (s.storeWord sec a) then ok s1
    else
      match cwDecode (s.storeWord sec a) with
      | .clean _ => ok s1
      | .corrected d =>
        ok (((storeFix s1 sec a (cwEncode d)).raiseF (Reg.SEC_MT_STAT_CORR sec)).incF (Reg.SEC_MT_ECC_COR_CNT sec))
      | .bad =>
        let s2 := storeFix s1 sec a (cwSetPoison (s.storeWord sec a))
        let s3 := s2.capture (Reg.SEC_MT_STAT_UNCORR sec) [(Reg.SEC_MT_STAT_UADDR sec, a)]
        ok (((s3.raiseF (Reg.SEC_MT_STAT_UNCORR sec)).incF (Reg.SEC_MT_ECC_UNC_CNT sec)).raiseEv 225)
  else ok s

end Sys2Proof.Machine
end

