-- ==== Sys2Proof/Machine/Mac.lean ====
section
/-!
DEFINITION. MAC blocks (06_mac_ranker.md R115 to R124) and the indirect port to their accumulators and presets (R134).
-/

namespace Sys2Proof.Machine

/-- ACC[p] of MAC m of a sector. -/
def State.acc (s : State) (sec m p : Nat) : Word64 := tget (fun _ => 0) s.macAcc ((24 * sec + m) * 8 + p)

/-- PRE[p] of MAC m of a sector. -/
def State.pre (s : State) (sec m p : Nat) : Word64 := tget (fun _ => 0) s.macPre ((24 * sec + m) * 8 + p)

def State.setAcc (s : State) (sec m p : Nat) (v : Word64) : State :=
  { s with macAcc := tset (fun _ => 0) s.macAcc ((24 * sec + m) * 8 + p) v }

def State.setPre (s : State) (sec m p : Nat) (v : Word64) : State :=
  { s with macPre := tset (fun _ => 0) s.macPre ((24 * sec + m) * 8 + p) v }

def State.setMac (s : State) (sec m : Nat) (b : MacBlock) : State :=
  { s with macs := tset (fun _ => MacBlock.reset) s.macs (24 * sec + m) b }

/-- MCTL of a MAC block in the active plane (AF[1375:1344]). -/
def mctl (v : FabView) (g : Tile) : Nat := v.af g 1344 32

/-- An operand as an integer: signed when its SGN bit is 1. -/
def operand (signed : Bool) (w x : Nat) : Int := if signed then sext w x else ((x % 2 ^ w : Nat) : Int)

/-- The pre-adder result AD (Table 6.2). -/
def preAdd (pre : Nat) (a d : Int) : Int :=
  match pre with
  | 0 => a
  | 1 => a + d
  | 2 => a - d
  | _ => d

/-- T of a MADD: the product AD × B, negated when NEG is 1 (Table 6.2). -/
def maddTerm (c a d b : Nat) : Int :=
  let sad := c.testBit 10
  let m := preAdd (nbits c 8 7) (operand sad 24 a) (operand sad 24 d) * operand (c.testBit 11) 24 b
  if c.testBit 9 then -m else m

/-- The leaf sum ±(A + D + B + C[23:0]) (R120). -/
def leafSum (c a d b x : Nat) : Int :=
  let sad := c.testBit 10
  let l := operand sad 24 a + operand sad 24 d + operand (c.testBit 11) 24 b + operand (c.testBit 12) 24 x
  if c.testBit 9 then -l else l

/-- The operation that the active plane issues on a MAC block in this slot: nothing when OP is IDLE for the block or EN
is 0 (R115). LEAF belongs to the members of a tree group and HEAD to its head (R120). -/
def macIssue (s : State) (sec m : Nat) : Option MacOp :=
  let v := s.view
  let g := macTile sec m
  let c := mctl v g
  let kind := match nbits c 2 0 with
    | 1 => some MacKind.madd
    | 2 => if m % 4 = 3 then none else some MacKind.leaf
    | 3 => if m % 4 = 3 then some MacKind.head else none
    | _ => none
  match kind with
  | none => none
  | some kd =>
    if v.afIn g 1320 then
      let a := v.afBus g 0 24
      let d := v.afBus g 264 24
      let b := v.afBus g 528 24
      let x := v.afBus g 792 48
      some
        { at_ := s.time.slots, plane := s.plane sec, kind := kd,
          t := if kd = .madd then maddTerm c a d b else leafSum c a d b x,
          c := operand (c.testBit 12) 48 x, zsel := nbits c 6 4, ld := v.afIn g 1331, wracc := c.testBit 13,
          sat := c.testBit 14 }
    else none

/-- An operation of one type taken into a block; a block accepts at most one operation in a slot (R54). -/
def macTake (s : State) (sec m : Nat) (kind : MacKind) : Res :=
  let b := s.mac sec m
  if s.mayIssue sec && b.ops.all (fun o => o.at_ != s.time.slots) then
    match macIssue s sec m with
    | some o => if o.kind = kind then ok (s.setMac sec m { b with ops := b.ops ++ [o] }) else ok s
    | none => ok s
  else ok s

/-- MADD: a multiply-add is issued; its result is presented three slots later (R116, R117). -/
def execMadd (sec : Fin 240) (m : Fin 24) (s : State) : Res := macTake s sec m .madd

/-- LEAF: a tree member forms its leaf sum (R120). -/
def execLeaf (sec : Fin 240) (m : Fin 24) (s : State) : Res := macTake s sec m .leaf

/-- HEAD: a tree head sums its group's leaves with Z (R120). -/
def execHead (sec : Fin 240) (m : Fin 24) (s : State) : Res := macTake s sec m .head

/-- The predecessor of a MAC block in its cascade chain, as sector and block. -/
def macPred (sec m : Nat) : Option (Nat × Nat) :=
  if m = 0 ∨ m = 12 then (if sec % 120 < 12 then none else some (sec - 12, m + 11)) else some (sec, m - 1)

/-- CASI of the operation in stage 3: the P that the predecessor's stage 3 gave in the slot before (R119); 0 from a sector
that the set-reset holds (R122). -/
def casi (s : State) (sec m : Nat) : Int :=
  match macPred sec m with
  | some (ps, pm) => let b := s.mac ps pm; if b.new && !s.held ps then sext 64 b.p.toNat else 0
  | none => 0

/-- Reduction of S to P with OVF (Table 6.2). -/
def reduceS (sat : Bool) (x : Int) : Word64 × Bool :=
  let lo : Int := -(2 ^ 63 : Nat)
  let hi : Int := (2 ^ 63 : Nat) - 1
  let ovf := x < lo || hi < x
  (if sat then BitVec.ofInt 64 (if x < lo then lo else if hi < x then hi else x) else BitVec.ofInt 64 x, ovf)

/-- Z of an operation in stage 3 (Table 6.2; R120 for a head). -/
def zTerm (o : MacOp) (acct casi : Int) : Int :=
  match o.kind with
  | .leaf => 0
  | .head => if o.zsel = 1 then acct else 0
  | .madd =>
    match o.zsel with
    | 1 => acct
    | 2 => casi
    | 3 => acct + casi
    | 4 => o.c
    | 5 => acct + o.c
    | 6 => casi + o.c
    | _ => 0

/-- The leaf sums of the members of a head's group that issued LEAF in the head's issue slot (R120). -/
def leafTotal (s : State) (sec m : Nat) (at_ : Nat) : Int :=
  (List.range 3).foldl (fun acc i =>
    match (s.mac sec (m - 3 + i)).ops.find? (fun o => o.at_ == at_ && o.kind == .leaf) with
    | some o => acc + o.t
    | none => acc) 0

/-- P and OVF of the operation in stage 3. -/
def macResult (s : State) (sec m : Nat) (o : MacOp) : Word64 × Bool :=
  let acct := if o.ld then 0 else sext 64 (s.acc sec m o.plane).toNat
  match o.kind with
  | .leaf => (BitVec.ofInt 64 o.t, false)
  | .head => reduceS o.sat (zTerm o acct 0 + o.t + leafTotal s sec m o.at_)
  | .madd => reduceS o.sat (zTerm o acct (casi s sec m) + o.t)

/-- The operation in stage 3 of a block in the present slot: issued two slots before. -/
def stage3 (s : State) (sec m : Nat) : Option MacOp :=
  (s.mac sec m).ops.find? (fun o => o.at_ + 2 == s.time.slots)

/-- What a slot does to one MAC block: stage 3 of the operation issued two slots before, read from the state `s0` before
the slot (R117, R118, R121). -/
def macSlot (s0 s : State) (key : Nat) : State :=
  let sec := key / 24
  let m := key % 24
  let b := s0.mac sec m
  if s0.held sec then s.setMac sec m MacBlock.reset
  else
    let rest := b.ops.filter (fun o => s0.time.slots < o.at_ + 2)
    match stage3 s0 sec m with
    | some o =>
      let (p, ovf) := macResult s0 sec m o
      let s1 := s.setMac sec m { ops := rest, p := p, ovf := ovf, new := true }
      if o.wracc && o.kind != .leaf then s1.setAcc sec m o.plane p else s1
    | none => s.setMac sec m { b with ops := rest, new := false }

/-- Row 1 of Table 6.3: while the set-reset holds a sector, every ACC[p] takes PRE[p]. -/
def accHeld (s : State) : State :=
  let isHeld := fun key => s.held (key / 192)
  let keep := s.macAcc.filter (fun kv => !isHeld kv.1)
  let pres := s.macPre.filter (fun kv => isHeld kv.1)
  { s with macAcc := tsets (fun _ => 0) keep pres }

/-- The whole MAC array in one slot. -/
def macsSlot (s : State) : State :=
  accHeld ((s.macs.map (·.1)).foldl (fun acc key => macSlot s acc key) s)

/-- ACC_SCOPE of plane p of a MAC block, whether or not the plane is active. -/
def accScope (s : State) (sec m p : Nat) : Bool :=
  rtField (fun w => s.cfgInfo (cfgKey sec p (macTile sec m).place w)) (2496 + 1344 + 15) 1 == 1

/-- Row 2 of Table 6.3, and the end of operations in flight in G7 sectors (R122), at the end of a frame. -/
def macsFrameEnd (s : State) : State :=
  let hit := fun key => s.isG7 (key / 192) || accScope s (key / 192) (key / 8 % 24) (key % 8)
  let keep := s.macAcc.filter (fun kv => !hit kv.1)
  let pres := s.macPre.filter (fun kv => hit kv.1)
  { s with
    macAcc := tsets (fun _ => 0) keep pres
    macs := tmap (fun _ => MacBlock.reset) (fun key b => if s.isG7 (key / 24) then MacBlock.reset else b) s.macs }

/-- A swap with clear: operations in flight are discarded and ACC[p] of incoming planes takes PRE[p] (R68, R122). A result written at
the end of the slot before stands in the output register. -/
def macsSwapClear (s : State) (sec : Nat) (planes : List Nat) : State :=
  let hit := fun key => key / 192 == sec && planes.contains (key % 8)
  let keep := s.macAcc.filter (fun kv => !hit kv.1)
  let pres := s.macPre.filter (fun kv => hit kv.1)
  { s with
    macAcc := tsets (fun _ => 0) keep pres
    macs := tmap (fun _ => MacBlock.reset)
      (fun key b => if key / 24 == sec then { b with ops := [] } else b) s.macs }

/-! ### The accumulator port (R134) -/

/-- A write of SEC_MAC_SEL: ignored while ACC_BUSY is 1; GO starts an access, or sets ACC_ERR for MAC 24 and above. -/
def macSelWrite (s : State) (sec : Nat) (v : Word32) : State :=
  if s.flag (Reg.SEC_HB_STAT_ACC_BUSY sec) then s
  else
    let s1 := s.setReg (Reg.SEC_MAC_SEL sec) (v &&& 0x6000071F#32)
    if v.getLsbD 31 then
      if 24 ≤ nbits v.toNat 4 0 then s1.raiseF (Reg.SEC_HB_STAT_ACC_ERR sec)
      else { s1.raiseF (Reg.SEC_HB_STAT_ACC_BUSY sec) with
        macWait := tset (fun _ => 0) s1.macWait sec 0
        cyc := if s1.logs then { s1.cyc with accNew := sec :: s1.cyc.accNew } else s1.cyc }
    else s1

/-- The word that a GO carries: GO, WR, TGT, PLANE, MAC. -/
def macSelWord (wr pre : Bool) (p m : Nat) : Word32 :=
  BitVec.ofNat 32 (2 ^ 31 + 2 ^ 30 * wr.toNat + 2 ^ 29 * pre.toNat + 2 ^ 8 * p + m)

/-- MAC_PORT_READ: GO with WR = 0. -/
def execMacPortRead (sec : Fin 240) (pre : Bool) (p : Fin 8) (m : Fin 32) (s : State) : Res :=
  okIf s.alive s (macSelWrite s sec (macSelWord false pre p m))

/-- MAC_PORT_WRITE: GO with WR = 1. -/
def execMacPortWrite (sec : Fin 240) (pre : Bool) (p : Fin 8) (m : Fin 32) (s : State) : Res :=
  okIf s.alive s (macSelWrite s sec (macSelWord true pre p m))

/-- The pending access performed: a read copies the value into DLO and DHI, a write stores them; a write of ACC is lost
while the set-reset holds the sector. -/
def macPortDo (s : State) (sec : Nat) : State :=
  let m := s.getF (Reg.SEC_MAC_SEL_MAC sec)
  let p := s.getF (Reg.SEC_MAC_SEL_PLANE sec)
  let pre := s.flag (Reg.SEC_MAC_SEL_TGT sec)
  let s1 :=
    if s.flag (Reg.SEC_MAC_SEL_WR sec) then
      let v : Word64 := s.reg (Reg.SEC_MAC_DHI sec) ++ s.reg (Reg.SEC_MAC_DLO sec)
      if pre then s.setPre sec m p v else if s.held sec then s else s.setAcc sec m p v
    else
      let v := if pre then s.pre sec m p else if s.held sec then s.pre sec m p else s.acc sec m p
      (s.setReg (Reg.SEC_MAC_DLO sec) (v.setWidth 32)).setReg (Reg.SEC_MAC_DHI sec) ((v >>> 32).setWidth 32)
  State.portEnds { s1 with macWait := tset (fun _ => 0) s1.macWait sec 0, cyc := { s1.cyc with acc := s1.cyc.acc ++ [sec] } } 0 sec true

/-- The accesses served in a slot end with it. -/
def macPortsDone (s : State) : State := s.cyc.acc.foldl (fun t sec => t.clearF (Reg.SEC_HB_STAT_ACC_BUSY sec)) s

/-- MAC_PORT_SERVE: the pending access is served in a slot in which stage 3 of the addressed block is idle; ACC_BUSY is 1 to the end
of that slot. -/
def execMacPortServe (sec : Fin 240) (s : State) : Res :=
  okIf (s.slotRuns && s.flag (Reg.SEC_HB_STAT_ACC_BUSY sec) && !s.cyc.acc.contains sec.val && !s.cyc.accNew.contains sec.val &&
      decide (tget (fun _ => 0) s.macWait sec.val < 16384)
      && (stage3 s sec (s.getF (Reg.SEC_MAC_SEL_MAC sec))).isNone)
    s (macPortDo s sec)

/-- MAC_PORT_TIMEOUT: an access not served within 16,384 slots is abandoned and ACC_TMO is set. -/
def execMacPortTimeout (sec : Fin 240) (s : State) : Res :=
  okIf (s.flag (Reg.SEC_HB_STAT_ACC_BUSY sec) && 16384 ≤ tget (fun _ => 0) s.macWait sec) s
    (State.portEnds { (s.clearF (Reg.SEC_HB_STAT_ACC_BUSY sec)).raiseF (Reg.SEC_HB_STAT_ACC_TMO sec) with
      macWait := tset (fun _ => 0) s.macWait sec 0 } 0 sec false)

/-- Sectors with a pending accumulator access, found among the listed registers. -/
def macWaiting (s : State) : List Nat :=
  (s.regs.filterMap (fun kv =>
    if 0x500000 ≤ kv.1 ∧ kv.1 % 0x1000 = 0x10C ∧ kv.2.getLsbD 0 then some ((kv.1 - 0x500000) / 0x1000) else none))

/-- One more slot waited by every pending accumulator access. -/
def macPortsWait (s : State) : State :=
  { s with macWait := ((macWaiting s).filter (fun sec => !s.cyc.accNew.contains sec)).foldl (fun t sec => tset (fun _ => 0) t sec (tget (fun _ => 0) t sec + 1)) s.macWait }

end Sys2Proof.Machine
end

