-- ==== Sys2Proof/Machine/Rv.lean ====
section
/-!
DEFINITION. The RISC-V encodings that tellers (R239) and steward cores (R362) execute: the decoder of 32-bit and
compressed instructions, and the arithmetic of the I, M and A extensions. Values are numbers below 2^w.
-/

namespace Sys2Proof.Machine

/-- Arithmetic of register-register instructions. -/
inductive AluOp where
  | add | sub | sll | slt | sltu | xor | srl | sra | or | and
  | mul | mulh | mulhsu | mulhu | div | divu | rem | remu
  deriving DecidableEq, Repr

/-- Branch conditions. -/
inductive BrCond where
  | eq | ne | lt | ge | ltu | geu
  deriving DecidableEq, Repr

/-- Read-modify-write operations of the A extension. -/
inductive AmoOp where
  | swap | add | xor | and | or | min | max | minu | maxu
  deriving DecidableEq, Repr

/-- A decoded instruction. `word` marks the 32-bit forms of RV64. -/
inductive Rv where
  | lui (rd : Nat) (imm : Int)
  | auipc (rd : Nat) (imm : Int)
  | jal (rd : Nat) (imm : Int)
  | jalr (rd rs1 : Nat) (imm : Int)
  | branch (c : BrCond) (rs1 rs2 : Nat) (imm : Int)
  | load (rd rs1 : Nat) (imm : Int) (size : Nat) (signed : Bool)
  | store (rs1 rs2 : Nat) (imm : Int) (size : Nat)
  | opImm (op : AluOp) (rd rs1 : Nat) (imm : Int) (word : Bool)
  | op (op : AluOp) (rd rs1 rs2 : Nat) (word : Bool)
  | fence (pause : Bool)
  | fenceI
  | ecall
  | ebreak
  | wfi
  | mret
  | csr (f3 rd rs1 num : Nat)
  | lr (rd rs1 size : Nat)
  | sc (rd rs1 rs2 size : Nat)
  | amo (op : AmoOp) (rd rs1 rs2 size : Nat)
  | cbo (kind rs1 : Nat)
  | custom (w : Nat)
  | illegal
  deriving DecidableEq, Repr

/-! ### 32-bit encodings -/

/-- Bits of an encoding as a signed number of n bits. -/
def immI (w : Nat) : Int := sext 12 (nbits w 31 20)
def immS (w : Nat) : Int := sext 12 (nbits w 31 25 * 32 + nbits w 11 7)
def immB (w : Nat) : Int :=
  sext 13 (nbits w 31 31 * 4096 + nbits w 7 7 * 2048 + nbits w 30 25 * 32 + nbits w 11 8 * 2)
def immU (w : Nat) : Int := sext 32 (nbits w 31 12 * 4096)
def immJ (w : Nat) : Int :=
  sext 21 (nbits w 31 31 * 1048576 + nbits w 19 12 * 4096 + nbits w 20 20 * 2048 + nbits w 30 21 * 2)

/-- Branch conditions by funct3. -/
def brCond (f3 : Nat) : Option BrCond :=
  match f3 with
  | 0 => some .eq
  | 1 => some .ne
  | 4 => some .lt
  | 5 => some .ge
  | 6 => some .ltu
  | 7 => some .geu
  | _ => none

/-- Loads by funct3: size and whether it is sign-extended. -/
def loadForm (rv64 : Bool) (f3 : Nat) : Option (Nat × Bool) :=
  match f3 with
  | 0 => some (1, true)
  | 1 => some (2, true)
  | 2 => some (4, true)
  | 3 => if rv64 then some (8, true) else none
  | 4 => some (1, false)
  | 5 => some (2, false)
  | 6 => if rv64 then some (4, false) else none
  | _ => none

/-- Register-register operations by funct7 and funct3. -/
def aluForm (f7 f3 : Nat) : Option AluOp :=
  match f7, f3 with
  | 0, 0 => some .add
  | 0x20, 0 => some .sub
  | 0, 1 => some .sll
  | 0, 2 => some .slt
  | 0, 3 => some .sltu
  | 0, 4 => some .xor
  | 0, 5 => some .srl
  | 0x20, 5 => some .sra
  | 0, 6 => some .or
  | 0, 7 => some .and
  | 1, 0 => some .mul
  | 1, 1 => some .mulh
  | 1, 2 => some .mulhsu
  | 1, 3 => some .mulhu
  | 1, 4 => some .div
  | 1, 5 => some .divu
  | 1, 6 => some .rem
  | 1, 7 => some .remu
  | _, _ => none

/-- Operations that have a 32-bit form in RV64. -/
def hasWordForm (o : AluOp) : Bool :=
  match o with
  | .add | .sub | .sll | .srl | .sra | .mul | .div | .divu | .rem | .remu => true
  | _ => false

/-- Shift-immediate forms: `top` is the encoding above the shift amount. -/
def shiftImm (w rd rs1 bits : Nat) (word : Bool) : Rv :=
  let sh : Int := (nbits w (19 + bits) 20 : Nat)
  let top := nbits w 31 (20 + bits)
  let alt := 2 ^ (10 - bits)
  match nbits w 14 12 with
  | 1 => if top = 0 then .opImm .sll rd rs1 sh word else .illegal
  | 5 => if top = 0 then .opImm .srl rd rs1 sh word else if top = alt then .opImm .sra rd rs1 sh word else .illegal
  | _ => .illegal

/-- OP-IMM. -/
def decodeOpImm (rv64 : Bool) (w rd rs1 : Nat) : Rv :=
  match nbits w 14 12 with
  | 0 => .opImm .add rd rs1 (immI w) false
  | 2 => .opImm .slt rd rs1 (immI w) false
  | 3 => .opImm .sltu rd rs1 (immI w) false
  | 4 => .opImm .xor rd rs1 (immI w) false
  | 6 => .opImm .or rd rs1 (immI w) false
  | 7 => .opImm .and rd rs1 (immI w) false
  | _ => shiftImm w rd rs1 (if rv64 then 6 else 5) false

/-- AMOs by funct5. -/
def amoForm (f5 : Nat) : Option AmoOp :=
  match f5 with
  | 0x01 => some .swap
  | 0x00 => some .add
  | 0x04 => some .xor
  | 0x0C => some .and
  | 0x08 => some .or
  | 0x10 => some .min
  | 0x14 => some .max
  | 0x18 => some .minu
  | 0x1C => some .maxu
  | _ => none

/-- The A extension (RV64 only here). -/
def decodeAmo (w rd rs1 rs2 : Nat) : Rv :=
  let size := match nbits w 14 12 with
    | 2 => 4
    | 3 => 8
    | _ => 0
  if size = 0 then .illegal
  else
    match nbits w 31 27 with
    | 0x02 => if rs2 = 0 then .lr rd rs1 size else .illegal
    | 0x03 => .sc rd rs1 rs2 size
    | f5 =>
      match amoForm f5 with
      | some o => .amo o rd rs1 rs2 size
      | none => .illegal

/-- SYSTEM. -/
def decodeSystem (rv64 : Bool) (w rd rs1 : Nat) : Rv :=
  let f3 := nbits w 14 12
  if w = 0x00000073 then .ecall
  else if w = 0x00100073 then .ebreak
  else if rv64 then
    (if w = 0x10500073 then .wfi
      else if w = 0x30200073 then .mret
      else if f3 ≠ 0 ∧ f3 ≠ 4 then .csr f3 rd rs1 (nbits w 31 20)
      else .illegal)
  else .illegal

/-- MISC-MEM: FENCE, PAUSE, and for steward cores FENCE.I and the cache-block operations. -/
def decodeMisc (rv64 : Bool) (w rd rs1 : Nat) : Rv :=
  match nbits w 14 12 with
  | 0 => .fence false
  | 1 => if rv64 then .fenceI else .illegal
  | 2 => if rv64 && rd == 0 && nbits w 31 20 < 3 then .cbo (nbits w 31 20) rs1 else .illegal
  | _ => .illegal

/-- A 32-bit encoding. -/
def decode32 (rv64 : Bool) (w : Nat) : Rv :=
  let rd := nbits w 11 7
  let rs1 := nbits w 19 15
  let rs2 := nbits w 24 20
  let f3 := nbits w 14 12
  match nbits w 6 0 with
  | 0x37 => .lui rd (immU w)
  | 0x17 => .auipc rd (immU w)
  | 0x6F => .jal rd (immJ w)
  | 0x67 => if f3 = 0 then .jalr rd rs1 (immI w) else .illegal
  | 0x63 => match brCond f3 with
    | some c => .branch c rs1 rs2 (immB w)
    | none => .illegal
  | 0x03 => match loadForm rv64 f3 with
    | some (n, sg) => .load rd rs1 (immI w) n sg
    | none => .illegal
  | 0x23 => if f3 ≤ 2 ∨ (rv64 ∧ f3 = 3) then .store rs1 rs2 (immS w) (2 ^ f3) else .illegal
  | 0x13 => decodeOpImm rv64 w rd rs1
  | 0x33 => match aluForm (nbits w 31 25) f3 with
    | some o => .op o rd rs1 rs2 false
    | none => .illegal
  | 0x1B =>
    if !rv64 then .illegal else if f3 = 0 then .opImm .add rd rs1 (immI w) true else shiftImm w rd rs1 5 true
  | 0x3B => match aluForm (nbits w 31 25) f3 with
    | some o => if rv64 && hasWordForm o then .op o rd rs1 rs2 true else .illegal
    | none => .illegal
  | 0x0F => decodeMisc rv64 w rd rs1
  | 0x73 => decodeSystem rv64 w rd rs1
  | 0x2F => if rv64 then decodeAmo w rd rs1 rs2 else .illegal
  | 0x0B => if rv64 then .illegal else .custom w
  | 0x2B => if rv64 then .illegal else .custom w
  | _ => .illegal

/-! ### Compressed encodings -/

/-- The three-bit register fields. -/
def creg (h lo : Nat) : Nat := 8 + nbits h (lo + 2) lo

/-- The signed six-bit immediate of CI forms. -/
def immCI (h : Nat) : Int := sext 6 (nbits h 12 12 * 32 + nbits h 6 2)

def immCJ (h : Nat) : Int :=
  sext 12 (nbits h 12 12 * 2048 + nbits h 8 8 * 1024 + nbits h 10 9 * 256 + nbits h 6 6 * 128 + nbits h 7 7 * 64 +
    nbits h 2 2 * 32 + nbits h 11 11 * 16 + nbits h 5 3 * 2)

def immCB (h : Nat) : Int :=
  sext 9 (nbits h 12 12 * 256 + nbits h 6 5 * 64 + nbits h 2 2 * 32 + nbits h 11 10 * 8 + nbits h 4 3 * 2)

/-- Offsets of C.LW and C.SW, and of C.LD and C.SD. -/
def offCW (h : Nat) : Int := (nbits h 5 5 * 64 + nbits h 12 10 * 8 + nbits h 6 6 * 4 : Nat)
def offCD (h : Nat) : Int := (nbits h 6 5 * 64 + nbits h 12 10 * 8 : Nat)

/-- Quadrant 0. -/
def decodeC0 (rv64 : Bool) (h : Nat) : Rv :=
  let rd := creg h 2
  let rs := creg h 7
  match nbits h 15 13 with
  | 0 =>
    let imm := nbits h 10 7 * 64 + nbits h 12 11 * 16 + nbits h 5 5 * 8 + nbits h 6 6 * 4
    if imm = 0 then .illegal else .opImm .add rd 2 (imm : Int) false
  | 2 => .load rd rs (offCW h) 4 true
  | 3 => if rv64 then .load rd rs (offCD h) 8 true else .illegal
  | 6 => .store rs rd (offCW h) 4
  | 7 => if rv64 then .store rs rd (offCD h) 8 else .illegal
  | _ => .illegal

/-- The arithmetic group of quadrant 1. -/
def decodeC1Alu (rv64 : Bool) (h : Nat) : Rv :=
  let rd := creg h 7
  let rs2 := creg h 2
  let sh : Int := (nbits h 12 12 * 32 + nbits h 6 2 : Nat)
  let shBad := !rv64 && nbits h 12 12 == 1
  match nbits h 11 10 with
  | 0 => if shBad then .illegal else .opImm .srl rd rd sh false
  | 1 => if shBad then .illegal else .opImm .sra rd rd sh false
  | 2 => .opImm .and rd rd (immCI h) false
  | _ =>
    match nbits h 12 12, nbits h 6 5 with
    | 0, 0 => .op .sub rd rd rs2 false
    | 0, 1 => .op .xor rd rd rs2 false
    | 0, 2 => .op .or rd rd rs2 false
    | 0, _ => .op .and rd rd rs2 false
    | _, 0 => if rv64 then .op .sub rd rd rs2 true else .illegal
    | _, 1 => if rv64 then .op .add rd rd rs2 true else .illegal
    | _, _ => .illegal

/-- Quadrant 1. -/
def decodeC1 (rv64 : Bool) (h : Nat) : Rv :=
  let rd := nbits h 11 7
  match nbits h 15 13 with
  | 0 => .opImm .add rd rd (immCI h) false
  | 1 => if rv64 then (if rd = 0 then .illegal else .opImm .add rd rd (immCI h) true) else .jal 1 (immCJ h)
  | 2 => .opImm .add rd 0 (immCI h) false
  | 3 =>
    if rd = 2 then
      let imm := sext 10 (nbits h 12 12 * 512 + nbits h 4 3 * 128 + nbits h 5 5 * 64 + nbits h 2 2 * 32 + nbits h 6 6 * 16)
      if imm = 0 then .illegal else .opImm .add 2 2 imm false
    else if immCI h = 0 then .illegal
    else .lui rd (immCI h * 4096)
  | 4 => decodeC1Alu rv64 h
  | 5 => .jal 0 (immCJ h)
  | 6 => .branch .eq (creg h 7) 0 (immCB h)
  | _ => .branch .ne (creg h 7) 0 (immCB h)

/-- Quadrant 2. -/
def decodeC2 (rv64 : Bool) (h : Nat) : Rv :=
  let rd := nbits h 11 7
  let rs2 := nbits h 6 2
  let top := nbits h 12 12
  match nbits h 15 13 with
  | 0 => if !rv64 && top == 1 then .illegal else .opImm .sll rd rd ((top * 32 + rs2 : Nat) : Int) false
  | 2 =>
    if rd = 0 then .illegal else .load rd 2 ((nbits h 3 2 * 64 + top * 32 + nbits h 6 4 * 4 : Nat) : Int) 4 true
  | 3 =>
    if rd = 0 ∨ !rv64 then .illegal
    else .load rd 2 ((nbits h 4 2 * 64 + top * 32 + nbits h 6 5 * 8 : Nat) : Int) 8 true
  | 4 =>
    if top = 0 then
      (if rs2 ≠ 0 then .op .add rd 0 rs2 false else if rd = 0 then .illegal else .jalr 0 rd 0)
    else if rs2 ≠ 0 then .op .add rd rd rs2 false
    else if rd = 0 then .ebreak
    else .jalr 1 rd 0
  | 6 => .store 2 rs2 ((nbits h 8 7 * 64 + nbits h 12 9 * 4 : Nat) : Int) 4
  | 7 => if rv64 then .store 2 rs2 ((nbits h 9 7 * 64 + nbits h 12 10 * 8 : Nat) : Int) 8 else .illegal
  | _ => .illegal

/-- An instruction is compressed unless its low two bits are 11b. -/
def isShort (w : Nat) : Bool := w % 4 != 3

/-- The instruction whose first 32 bits are w: its meaning and its length in bytes. -/
def decodeRv (rv64 : Bool) (w : Nat) : Rv × Nat :=
  match w % 4 with
  | 0 => (decodeC0 rv64 (w % 65536), 2)
  | 1 => (decodeC1 rv64 (w % 65536), 2)
  | 2 => (decodeC2 rv64 (w % 65536), 2)
  | _ => (decode32 rv64 w, 4)

/-! ### Arithmetic -/

/-- Division and remainder as the M extension defines them, by zero and at overflow too. -/
def divSigned (w a b : Nat) : Nat := if b = 0 then 2 ^ w - 1 else wrapN w (Int.tdiv (sext w a) (sext w b))
def remSigned (w a b : Nat) : Nat := if b = 0 then a else wrapN w (Int.tmod (sext w a) (sext w b))

/-- A register-register operation on w-bit values. -/
def aluEval (w : Nat) (o : AluOp) (a b : Nat) : Nat :=
  let sh := b % w
  match o with
  | .add => (a + b) % 2 ^ w
  | .sub => (a + 2 ^ w - b) % 2 ^ w
  | .sll => a * 2 ^ sh % 2 ^ w
  | .slt => (decide (sext w a < sext w b)).toNat
  | .sltu => (decide (a < b)).toNat
  | .xor => a ^^^ b
  | .srl => a / 2 ^ sh
  | .sra => wrapN w (sext w a / (2 ^ sh : Nat))
  | .or => a ||| b
  | .and => a &&& b
  | .mul => a * b % 2 ^ w
  | .mulh => wrapN w (sext w a * sext w b / (2 ^ w : Nat))
  | .mulhsu => wrapN w (sext w a * b / (2 ^ w : Nat))
  | .mulhu => a * b / 2 ^ w
  | .div => divSigned w a b
  | .divu => if b = 0 then 2 ^ w - 1 else a / b
  | .rem => remSigned w a b
  | .remu => if b = 0 then a else a % b

/-- An operation of a w-bit machine; the 32-bit forms sign-extend their result. -/
def aluFull (w : Nat) (o : AluOp) (word : Bool) (a b : Nat) : Nat :=
  if word then wrapN w (sext 32 (aluEval 32 o (a % 2 ^ 32) (b % 2 ^ 32))) else aluEval w o a b

/-- Whether a branch is taken. -/
def brTaken (w : Nat) (c : BrCond) (a b : Nat) : Bool :=
  match c with
  | .eq => a == b
  | .ne => a != b
  | .lt => decide (sext w a < sext w b)
  | .ge => decide (sext w b ≤ sext w a)
  | .ltu => decide (a < b)
  | .geu => decide (b ≤ a)

/-- The value that an AMO stores, on w-bit values. -/
def amoEval (w : Nat) (o : AmoOp) (a b : Nat) : Nat :=
  match o with
  | .swap => b
  | .add => (a + b) % 2 ^ w
  | .xor => a ^^^ b
  | .and => a &&& b
  | .or => a ||| b
  | .min => if sext w a < sext w b then a else b
  | .max => if sext w b < sext w a then a else b
  | .minu => min a b
  | .maxu => max a b

/-- A loaded value of a size in bytes, extended to w bits. -/
def loadExt (w size : Nat) (signed : Bool) (v : Nat) : Nat :=
  if signed then wrapN w (sext (8 * size) v) else v % 2 ^ (8 * size)

/-- An instruction that touches neither memory nor anything beside registers and pc: the next pc, and the register written
with its value; nothing for the other instructions. -/
def rvPlain (w : Nat) (i : Rv) (len pc : Nat) (x : Nat → Nat) : Option (Nat × Nat × Nat) :=
  let next := (pc + len) % 2 ^ w
  let rel := fun (d : Int) => wrapN w ((pc : Int) + d)
  match i with
  | .lui rd imm => some (next, rd, wrapN w imm)
  | .auipc rd imm => some (next, rd, rel imm)
  | .jal rd imm => some (rel imm, rd, next)
  | .jalr rd rs1 imm => some (wrapN w ((x rs1 : Int) + imm) / 2 * 2, rd, next)
  | .branch c a b imm => some (if brTaken w c (x a) (x b) then rel imm else next, 0, 0)
  | .opImm o rd rs1 imm word => some (next, rd, aluFull w o word (x rs1) (wrapN w imm))
  | .op o rd a b word => some (next, rd, aluFull w o word (x a) (x b))
  | _ => none

end Sys2Proof.Machine
end

