-- ==== Sys2Proof/Machine/Teller.lean ====
section
/-!
DEFINITION. Tellers (12_tellers.md): state, control, address space, RAMs, issue, own-bank and network accesses, wakes, and
the base instructions. The T extension stands in TellerVec.lean.
-/

namespace Sys2Proof.Machine

/-! ### State and control -/

def State.tlr (s : State) (sec : Nat) : Teller := tget (fun _ => Teller.reset) s.tellers sec

def State.setTlr (s : State) (sec : Nat) (t : Teller) : State :=
  { s with tellers := tset (fun _ => Teller.reset) s.tellers sec t }

/-- Table 12.1: 0 STOP, 1 RUN, 2 WAIT, 3 SETTLED, 4 FAULT. -/
def State.tlrState (s : State) (sec : Nat) : Nat := s.getF (Reg.SEC_TLR_STAT_STATE sec)

def State.setTlrState (s : State) (sec st : Nat) : State := s.setF (Reg.SEC_TLR_STAT_STATE sec) st

/-- The present TLR cycle (R234). -/
def State.tlrCycle (s : State) : Nat := s.cfgSlots / 2

/-- SEC_TLR_CFG, SEC_TLR_START and SEC_TLR_OVDPC in force (R254). -/
def tlrRegs (s : State) (sec : Nat) : Word32 × Word32 × Word32 :=
  match (s.tlr sec).old with
  | some (c, a, b, d) =>
    if c = s.tlrCycle then (a, b, d)
    else (s.reg (Reg.SEC_TLR_CFG sec), s.reg (Reg.SEC_TLR_START sec), s.reg (Reg.SEC_TLR_OVDPC sec))
  | none => (s.reg (Reg.SEC_TLR_CFG sec), s.reg (Reg.SEC_TLR_START sec), s.reg (Reg.SEC_TLR_OVDPC sec))

/-- A write of one of these registers, in force from the next TLR cycle. -/
def tlrRegWrite (s : State) (sec reg : Nat) (v : Word32) : State :=
  let r := tlrRegs s sec
  (s.setTlr sec { s.tlr sec with old := some (s.tlrCycle, r.1, r.2.1, r.2.2) }).setReg reg v

/-- START_PC and OVD_PC as addresses. -/
def tlrStartPc (s : State) (sec : Nat) : Nat := (tlrRegs s sec).2.1.toNat % 32768 / 2 * 2
def tlrOvdPc (s : State) (sec : Nat) : Nat := (tlrRegs s sec).2.2.toNat % 32768 / 2 * 2

/-- The group event of a teller (R252). -/
def tlrEvent (s : State) (sec : Nat) : State := s.raiseEv (232 + sec / 15)

/-- TELLER_FAULT (R239): FAULT, the cause, the data address where there is one, the group event. -/
def tlrFault (s : State) (sec cause : Nat) (addr : Option Nat) : State :=
  let s1 := (s.setTlr sec { s.tlr sec with wait := .none, waking := none }).setTlrState sec 4
  let s2 := s1.setF (Reg.SEC_TLR_STAT_FCAUSE sec) cause
  let s3 := match addr with
    | some a => s2.setReg (Reg.SEC_TLR_FADDR sec) (BitVec.ofNat 32 a)
    | none => s2
  tlrEvent s3 sec

/-- The own-bank request of an abandoned instruction is withdrawn, with a result on its way; the second cycle of a two-cycle operation
of the owner completes (R153) and answers nobody. -/
def tlrWithdraw (s : State) (sec : Nat) : State :=
  let s1 := { s with rsps := s.rsps.filter (fun p => !(p.id == 0x100 + sec && p.tag.testBit 11)) }
  (List.range 8).foldl (fun acc i =>
    let b := 8 * sec + i
    let k := acc.bank b
    acc.setBank b { k with
      tlr := []
      mid := if k.mid.any (fun m => m.1 == 1) then none else k.mid
      second := k.second.map (fun r => if r.id = 0x100 + sec then { r with id := nobody } else r) }) s1

/-- The instruction in progress is abandoned: it writes no register, and the response of a network load is consumed with
no effect. -/
def tlrAbandon (s : State) (sec : Nat) : State :=
  let mute := fun (o : Outst) => if o.id = 0x100 + sec ∧ o.note = 1 then { o with note := 2 } else o
  tlrWithdraw ({ s with outst := s.outst.map mute }.setTlr sec { s.tlr sec with wait := .none, waking := none }) sec

/-- STOP (R235). -/
def tlrStop (s : State) (sec : Nat) : State :=
  if s.tlrState sec = 0 then s else (tlrAbandon s sec).setTlrState sec 0

/-- RUN: in STOP or FAULT the teller starts at START_PC with no cause pending; it issues from the next TLR cycle. -/
def tlrRun (s : State) (sec : Nat) : State :=
  if s.tlrState sec = 0 ∨ s.tlrState sec = 4 then
    let t := { s.tlr sec with pend := 0, fresh := 0, pc := tlrStartPc s sec, ready := s.tlrCycle + 1, wait := .none }
    ((s.setTlr sec t).setF (Reg.SEC_TLR_STAT_FCAUSE sec) 0).setTlrState sec 1
  else s

/-- Wake causes latched in the present cycle, visible from the next; none while the slot clock is stopped (R247). -/
def tlrLatch (s : State) (sec bits : Nat) : State :=
  let t := s.tlr sec
  if bits = 0 ∨ !s.clockOn then s
  else if t.freshAt = s.tlrCycle then s.setTlr sec { t with fresh := t.fresh ||| bits }
  else s.setTlr sec { t with pend := t.pend ||| t.fresh, fresh := bits, freshAt := s.tlrCycle }

/-- PEND as the teller sees it in the present cycle. -/
def tlrPend (s : State) (sec : Nat) : Nat :=
  let t := s.tlr sec
  if t.freshAt < s.tlrCycle then t.pend ||| t.fresh else t.pend

/-- Visible causes cleared. -/
def tlrClear (s : State) (sec bits : Nat) : State :=
  let t := s.tlr sec
  let keep := fun (p : Nat) => p &&& (0xFFFF ^^^ bits)
  if t.freshAt < s.tlrCycle then s.setTlr sec { t with pend := keep (t.pend ||| t.fresh), fresh := 0 }
  else s.setTlr sec { t with pend := keep t.pend }

/-- A write of SEC_TLR_CMD: STOP acts before RUN, which does nothing before a full load has ended (R331, R332); SOFT is latched last, so that
a RUN in the same write does not clear it (DESIGN CHOICE, log 141). -/
def tlrCmdWrite (s : State) (sec : Nat) (v : Word32) : State :=
  let s1 := if v.getLsbD 1 then tlrStop s sec else s
  let s2 := if v.getLsbD 0 && (s.phase != .start || 3 ≤ s.getF Reg.CFG_STAT_STATE) then tlrRun s1 sec else s1
  if v.getLsbD 2 then tlrLatch s2 sec 4 else s2

/-- TELLER_STOP: a write of STOP. -/
def execTellerStop (t : Fin 240) (s : State) : Res := if s.alive then ok (tlrCmdWrite s t.val 2) else ok s

/-- TELLER_RUN: a write of RUN. -/
def execTellerRun (t : Fin 240) (s : State) : Res := if s.alive then ok (tlrCmdWrite s t.val 1) else ok s

/-- TELLER_SOFT: a write of SOFT. -/
def execTellerSoft (t : Fin 240) (s : State) : Res := if s.alive then ok (tlrCmdWrite s t.val 4) else ok s

/-- What a reset or a block reset leaves of a teller: STOP, registers and local page at 0 (R235, R253). -/
def tlrReset (s : State) (sec : Nat) : State :=
  let s1 := (tlrAbandon s sec).setTlrState sec 0
  s1.setTlr sec { Teller.reset with cycle := s.tlrCycle, uw := (s.tlr sec).uw }

/-! ### Registers and RAM -/

/-- Register x_r; x0 reads 0. -/
def tlrX (s : State) (sec r : Nat) : Nat := if r = 0 then 0 else (tget (fun _ => 0) (s.tlr sec).x r).toNat

def tlrSetX (s : State) (sec r v : Nat) : State :=
  if r = 0 then s
  else s.setTlr sec { s.tlr sec with x := tset (fun _ => 0) (s.tlr sec).x r (BitVec.ofNat 32 v) }

def tlrV (s : State) (sec r : Nat) : Nat := (tget (fun _ => 0) (s.tlr sec).v r).toNat

def tlrSetV (s : State) (sec r v : Nat) : State :=
  s.setTlr sec { s.tlr sec with v := tset (fun _ => 0) (s.tlr sec).v r (BitVec.ofNat 128 v) }

/-- What the ports of a teller's RAMs have done in the present TLR cycle. -/
def ramCycle (s : State) (sec : Nat) : RamCycle :=
  let c := (s.tlr sec).ram
  if s.logs && c.cycle == s.tlrCycle then c else { RamCycle.reset with cycle := s.tlrCycle }

def setRamCycle (s : State) (sec : Nat) (c : RamCycle) : State := if s.logs then s.setTlr sec { s.tlr sec with ram := c } else s

/-- A word of a teller's RAM before the writes of the present cycle, where there were any. -/
def ramBefore (s : State) (sec k : Nat) : Option CodeWord := ((ramCycle s sec).olds.find? (fun e => e.1 == k)).map (fun e => e.2)

/-- A word of a teller's RAM set; a read of the same cycle still finds the one before (R237). -/
def tramPut (s : State) (sec k : Nat) (w : CodeWord) : State :=
  let c := ramCycle s sec
  let key := 8192 * sec + k
  let c1 := if (ramBefore s sec k).isSome then c else { c with olds := c.olds ++ [(k, cwAt s.tram key)] }
  { setRamCycle s sec c1 with tram := cwPut s.tram key w }

/-- TELLER_RAM_ECC (R238): word k of a RAM read with its code; nothing where it is uncorrectable, which poisons it. A word that the network
port has written in the same cycle is read as it was, and keeps what was written. -/
def tramRead (s : State) (sec k : Nat) : State × Option Nat :=
  let key := 8192 * sec + k
  let put := fun (w : CodeWord) => if (ramBefore s sec k).isSome then s else { s with tram := cwPut s.tram key w }
  let word := (ramBefore s sec k).getD (cwAt s.tram key)
  match cwDecode word with
  | .clean d => (s, some d.toNat)
  | .corrected d => (((put (cwEncode d)).raiseF (Reg.SEC_TLR_STAT_CORR sec)).incF (Reg.SEC_TLR_ECC_COR_CNT sec), some d.toNat)
  | .bad => ((put (cwSetPoison word)).incF (Reg.SEC_TLR_ECC_UNC_CNT sec), none)

/-- A full word written by the teller with fresh check bits, before the network port's writes of the same cycle (R237). -/
def tramWrite (s : State) (sec k v : Nat) : State :=
  let w := ((ramCycle s sec).nets.filter (fun e => e.1 == k)).foldl (fun acc e => mergeBytes acc e.2.1 e.2.2) v
  tramPut s sec k (cwEncode (BitVec.ofNat 64 w))

/-- A word written by the network port: `v` is the whole word, of which the write names the bytes `be`. -/
def tramNetWrite (s : State) (sec k v be : Nat) : State :=
  let s1 := tramPut s sec k (cwEncode (BitVec.ofNat 64 v))
  let c := ramCycle s1 sec
  setRamCycle s1 sec { c with nets := c.nets ++ [(k, v, be)] }

/-- Where a data address leads (Table 12.2): a data RAM word, an own bank (bank, word), the local page, the network. -/
inductive TlrTarget where
  | ram (word : Nat) | bank (i word : Nat) | page (off : Nat) | net (phys : Nat) | none
  deriving DecidableEq, Repr

def tlrTarget (s : State) (sec a : Nat) : TlrTarget :=
  if 0x10000 ≤ a ∧ a < 0x18000 then .ram (4096 + (a - 0x10000) / 8)
  else if 0x20000 ≤ a ∧ a < 0x60000 then .bank ((a - 0x20000) / 0x8000) (a % 0x8000 / 8)
  else if 0x60000 ≤ a ∧ a < 0x60018 then .page (a - 0x60000)
  else if 0x80000000 ≤ a then
    let p := (s.tlr sec).xbase * 2 ^ 31 + (a - 0x80000000)
    match regionOf p with
    | .bank b => if b / 8 = sec then .bank (b % 8) (p % 0x8000 / 8) else .net p
    | _ => .net p
  else .none

/-! ### Issue -/

/-- TLR and CFG run: they stop from step 3 to step 6 of a root switch (R388). -/
def tlrClock (s : State) : Bool := match s.clk.ramp with
  | some n => decide (n ≤ 768)
  | none => true

/-- An instruction of a teller may issue: first slot of an open TLR cycle, RUN, nothing in progress. -/
def tlrMayIssue (s : State) (sec : Nat) : Bool :=
  let t := s.tlr sec
  s.slotRuns && tlrClock s && s.cfgSlots % 2 == 0 && dutyOpen s s.tlrCycle && s.tlrState sec == 1 && t.wait == .none &&
    decide (t.ready ≤ s.tlrCycle)

/-- A halfword of the instruction RAM; a fault cause where it cannot be fetched. -/
def tlrHalf (s : State) (sec a : Nat) : State × (Nat ⊕ Nat) :=
  if 0x8000 ≤ a then (s, .inr 3)
  else
    let r := tramRead s sec (a / 8)
    match r.2 with
    | some d => (r.1, .inl (nbits d (a % 8 * 8 + 15) (a % 8 * 8)))
    | none => (r.1, .inr 5)

/-- The instruction at the program counter with its length, or a fault cause. -/
def tlrFetch (s : State) (sec : Nat) : State × ((Rv × Nat) ⊕ Nat) :=
  let pc := (s.tlr sec).pc
  match tlrHalf s sec pc with
  | (s1, .inr c) => (s1, .inr c)
  | (s1, .inl lo) =>
    if isShort lo then (s1, .inl (decodeRv false lo))
    else if (pc + 2) / 8 = pc / 8 then
      (s1, .inl (decodeRv false (lo + 65536 * nbits (((tramRead s sec (pc / 8)).2).getD 0) (pc % 8 * 8 + 31) (pc % 8 * 8 + 16))))
    else
      match tlrHalf s1 sec (pc + 2) with
      | (s2, .inr c) => (s2, .inr c)
      | (s2, .inl hi) => (s2, .inl (decodeRv false (lo + 65536 * hi)))

/-- An instruction completes in its issue cycle. -/
def tlrNext (s : State) (sec pc : Nat) : State :=
  s.setTlr sec { s.tlr sec with pc := pc, ready := s.tlrCycle + 1 }

/-! ### Accesses -/

/-- The words of an access read from a table of byte lanes. -/
def lanesOut (v a size : Nat) : Nat := v / 256 ^ (a % 8) % 256 ^ size

/-- Data placed in the byte lanes of an address. -/
def lanesIn (v a size : Nat) : Nat := v % 256 ^ size * 256 ^ (a % 8)

/-- Byte enables of an access. -/
def lanesBe (a size : Nat) : Nat := (2 ^ size - 1) * 2 ^ (a % 8)

/-- A teller's request to an own bank. -/
def tlrBankReq (sec : Nat) (op : BankOp) (word a size v : Nat) : BankReq :=
  { id := 0x100 + sec, tag := localTag 0, op := op, word := word, off := a % 8, be := lanesBe a size, size := size,
    data := [lanesIn v a size], step := 0, got := [], err := false, range := false, half := false, old := 0 }

/-- The first request of an own-bank access is presented in the present slot. -/
def tlrBankStart (s : State) (sec i kind reg size : Nat) (signed : Bool) (reqs : List (Nat × BankReq)) (next : Nat) : State :=
  match reqs with
  | [] => s
  | (a, r) :: todo =>
    let todo1 := todo.map (fun (e : Nat × BankReq) => (e.1, e.2))
    let t := { s.tlr sec with wait := .bank kind reg size signed a todo1 [] none next, since := s.tlrCycle, spent := 0 }
    bankArrive (s.setTlr sec t) (8 * sec + i) r

/-- Requests outstanding of a teller, and stores among them. -/
def tlrOut (s : State) (sec : Nat) : Nat := outCount s (0x100 + sec) false
def tlrStores (s : State) (sec : Nat) : Bool := s.outst.any (fun o => o.id == 0x100 + sec && o.note == 0)

/-- A teller's network request: note 0 store, 1 load; aux the part of a vector access. -/
def tlrIssue (s : State) (sec op a size v note aux : Nat) : State × Nat :=
  let r := mkReq op (Nat.log2 size) (0x100 + sec) (s.tlr sec).nkey a (lanesIn v a size)
  issue s r note aux

/-- The local page read (24 bytes, 32-bit registers). -/
def pageRead (s : State) (sec off : Nat) : Nat :=
  let t := s.tlr sec
  match off with
  | 0 => t.xbase
  | 4 => t.nkey
  | 8 => s.getF Reg.TIME_TIF_TIF
  | 12 => s.getF Reg.TIME_FRAME_FRAME
  | 16 => tlrPend s sec
  | _ => (s.tlrCycle - t.cycle) % 2 ^ 32

/-- The local page written; its read-only registers ignore a write. -/
def pageWrite (s : State) (sec off v : Nat) : State :=
  match off with
  | 0 => s.setTlr sec { s.tlr sec with xbase := v % 2 ^ 17 }
  | 4 => s.setTlr sec { s.tlr sec with nkey := v % 64 }
  | _ => s

/-- A load of 1, 2 or 4 bytes at address a. -/
def tlrLoad (s : State) (sec rd a size : Nat) (signed : Bool) (next : Nat) : State :=
  if a % size ≠ 0 then tlrFault s sec 2 (some a)
  else
    match tlrTarget s sec a with
    | .ram w =>
      match tramRead s sec w with
      | (s1, some d) => tlrNext (tlrSetX s1 sec rd (loadExt 32 size signed (lanesOut d a size))) sec next
      | (s1, none) => tlrFault s1 sec 5 (some a)
    | .page off =>
      if size = 4 then tlrNext (tlrSetX s sec rd (pageRead s sec off)) sec next else tlrFault s sec 3 (some a)
    | .bank i w => tlrBankStart s sec i 0 rd size signed [(a, tlrBankReq sec .read w a size 0)] next
    | .net p =>
      if tlrStores s sec || 8 ≤ tlrOut s sec || s.napFenced sec then s
      else
        let r := tlrIssue s sec 0 p size 0 1 0
        r.1.setTlr sec { s.tlr sec with wait := .net false rd size signed a [r.2] [] false next }
    | .none => tlrFault s sec 3 (some a)

/-- A store of 1, 2 or 4 bytes. -/
def tlrStore (s : State) (sec a size v next : Nat) : State :=
  if a % size ≠ 0 then tlrFault s sec 2 (some a)
  else
    match tlrTarget s sec a with
    | .ram w =>
      match tramRead s sec w with
      | (s1, some d) => tlrNext (tramWrite s1 sec w (mergeBytes d (lanesIn v a size) (lanesBe a size))) sec next
      | (s1, none) => tlrFault s1 sec 5 (some a)
    | .page off => if size = 4 then tlrNext (pageWrite s sec off v) sec next else tlrFault s sec 3 (some a)
    | .bank i w => tlrBankStart s sec i 2 0 size false [(a, tlrBankReq sec .write w a size v)] next
    | .net p =>
      if 8 ≤ tlrOut s sec || s.napFenced sec then s
      else tlrNext (tlrIssue s sec 1 p size v 0 0).1 sec next
    | .none => tlrFault s sec 3 (some a)

/-- An instruction in progress at own banks completes at the end of the TLR cycle whose last slot is `e`. -/
def tlrBankDone (s : State) (sec e : Nat) : State :=
  match (s.tlr sec).wait with
  | .bank kind reg size signed addr _ got bad next =>
    match bad with
    | some a =>
      tlrFault s sec 4 (some a)
    | none =>
      let s1 := s.setTlr sec { s.tlr sec with wait := .none, pc := next, ready := e / 2 + 1 }
      match kind with
      | 0 => tlrSetX s1 sec reg (loadExt 32 size signed (lanesOut (got.getD 0 0) addr size))
      | 1 => tlrSetV s1 sec reg (got.getD 0 0 + 2 ^ 64 * got.getD 1 0)
      | _ => s1
  | _ => s

/-- The bank of a request's address. -/
def tlrBankOf (s : State) (sec a : Nat) : Nat :=
  match tlrTarget s sec a with
  | .bank i _ => 8 * sec + i
  | _ => 8 * sec

/-- What the slot that has just ended did for a teller's own-bank access: the next request is presented in the slot that
begins, or the instruction completes: at the end of the TLR cycle that contains its last slot, and of one more for each closed cycle
among its cycles (R234, R242, R243). -/
def tlrBankStep (s : State) (sec : Nat) : State :=
  let e := s.time.slots - 1
  match (s.tlr sec).wait with
  | .bank kind reg size signed addr todo got bad next =>
    match s.rsps.find? (fun p => p.id == 0x100 + sec && p.tag.testBit 11) with
    | none => s
    | some p =>
      let performed := if kind = 2 then p.ready - 1 else p.ready - 4
      let ends := if kind ≤ 1 then p.ready else performed
      let bad1 := if bad.isNone ∧ p.status ≠ 0 then some addr else bad
      let got1 := got ++ [p.data.getD 0 0]
      let drop := { s with rsps := s.rsps.filter (fun q => !(q.id == 0x100 + sec && q.tag.testBit 11)) }
      match todo with
      | (a, r) :: rest =>
        if performed ≤ e then
          bankArrive (drop.setTlr sec { s.tlr sec with wait := .bank kind reg size signed a rest got1 bad1 next })
            (tlrBankOf s sec a) r
        else s
      | [] =>
        if ends ≤ e ∧ (s.cfgSlots - 1) % 2 = 1 ∧ (ends - s.time.off) / 2 + 1 ≤ (s.tlr sec).since + (s.tlr sec).spent then
          tlrBankDone (drop.setTlr sec { s.tlr sec with wait := .bank kind reg size signed addr [] got1 bad1 next }) sec e
        else s
  | _ => s

/-- A network response, or a synthesised error (status 3), reaches a teller (R246). -/
def tlrRespond (s0 : State) (o : Outst) (status data : Nat) : State :=
  let sec := o.id - 0x100
  let s := s0.setTlr sec { s0.tlr sec with ansAt := some s0.time.slots }
  if o.note = 0 then
    (if status = 0 then s else tlrEvent (s.raiseF (Reg.SEC_TLR_STAT_NETERR sec)) sec)
  else if o.note = 1 then
    match (s.tlr sec).wait with
    | .net vector reg size signed addr left got err next =>
      let left1 := left.filter (· != o.tag)
      let got1 := got ++ [(o.aux, data)]
      let err1 := err || status != 0
      let s1 := s.setTlr sec { s.tlr sec with wait := .net vector reg size signed addr left1 got1 err1 next }
      if left1 ≠ [] then s1
      else if err1 then tlrFault s1 sec 4 (some addr)
      else
        let part := fun i => ((got1.find? (fun e => e.1 == i)).map (fun e => e.2)).getD 0
        let s2 := s1.setTlr sec { s1.tlr sec with wait := .none, pc := next, ready := s.tlrCycle + 1 }
        if vector then tlrSetV s2 sec reg (part 0 % 2 ^ 64 + 2 ^ 64 * (part 1 % 2 ^ 64))
        else tlrSetX s2 sec reg (loadExt 32 size signed (lanesOut (part 0) addr size))
    | _ => s
  else s

/-! ### Wakes, the settle point, overdraft -/

/-- Enabled causes: bits 3 and 4 follow FRAME (R248). -/
def tlrWaitCauses (s : State) (sec : Nat) : Nat :=
  let cfg := (tlrRegs s sec).1.toNat
  let e := tlrPend s sec &&& ((cfg &&& 0xFF07))
  if e.testBit 1 then e ||| (tlrPend s sec &&& 0x18) else e

/-- TWAIT or TSETTLE ends with the present cycle: at once where it has just issued, in RUN; a teller that waits stays in its state to the
end of the cycle (R248, R249). -/
def tlrResume (s : State) (sec next : Nat) : State :=
  let woke := if s.tlrState sec = 1 then none else some (s.tlrCycle, s.tlrState sec)
  s.setTlr sec { s.tlr sec with wait := .none, pc := next, ready := s.tlrCycle + 1, waking := woke }

/-- TWAIT takes the pending enabled causes and completes. -/
def tlrTwaitTake (s : State) (sec rd next : Nat) : State :=
  let c := tlrWaitCauses s sec
  tlrResume (tlrClear (tlrSetX s sec rd c) sec c) sec next

/-- TSETTLE takes FRAME and its bits and completes. -/
def tlrSettleTake (s : State) (sec rd next : Nat) : State :=
  let c := tlrPend s sec &&& 0x1A
  tlrResume (tlrClear (tlrSetX s sec rd c) sec c) sec next

/-- TELLER_WAKE: in WAIT with an enabled cause visible, TWAIT completes (R248); also one latched before a write of SEC_TLR_CFG enabled it
(DESIGN CHOICE, log 151). -/
def execTellerWake (t : Fin 240) (s : State) : Res :=
  let sec := t.val
  match (s.tlr sec).wait with
  | .twait rd next =>
    okIf (s.slotRuns && tlrClock s && dutyOpen s s.tlrCycle && s.tlrState sec == 2 && tlrWaitCauses s sec != 0) s (tlrTwaitTake s sec rd next)
  | _ => ok s

/-- TELLER_SETTLE_WAKE: in SETTLED with FRAME visible, TSETTLE completes, or the teller starts at OVD_PC after an overdraft
(R249, R250). -/
def execTellerSettleWake (t : Fin 240) (s : State) : Res :=
  let sec := t.val
  let go := s.slotRuns && tlrClock s && dutyOpen s s.tlrCycle && s.tlrState sec == 3 && (tlrPend s sec).testBit 1
  match (s.tlr sec).wait with
  | .settle rd next => okIf go s (tlrSettleTake s sec rd next)
  | .overdraft =>
    okIf go s (tlrResume s sec (s.tlr sec).pc)
  | _ => ok s

/-- The state of a teller at the start of the last slot that ran: one that woke in that slot's cycle still waited. -/
def tlrLastState (s : State) (sec : Nat) : Nat :=
  match (s.tlr sec).waking with
  | some (c, st) => if s.cfgSlots ≤ 2 * c + 2 then st else s.tlrState sec
  | none => s.tlrState sec

/-- SEC_TLR_CFG, START and OVDPC as they were in force in the last slot that ran. -/
def tlrLastRegs (s : State) (sec : Nat) : Word32 × Word32 × Word32 :=
  match (s.tlr sec).old with
  | some (c, a, b, d) => if (s.cfgSlots - 1) / 2 ≤ c then (a, b, d) else tlrRegs s sec
  | none => tlrRegs s sec

/-- No network request was outstanding at the start of the last slot that ran. -/
def tlrLastIdle (s : State) (sec : Nat) : Bool :=
  tlrOut s sec == 0 && ((s.tlr sec).ansAt.all (fun j => decide (j + 1 < s.time.slots)))

/-- The teller is at its settle point in the last slot, or counts as stopped (R249). -/
def tlrDrained (s : State) (sec : Nat) : Bool :=
  match tlrLastState s sec with
  | 3 => true
  | 2 => (tlrLastRegs s sec).1.getLsbD 16 && tlrLastIdle s sec
  | 0 => tlrOut s sec == 0
  | 4 => tlrOut s sec == 0
  | _ => false

/-- TELLER_OVERDRAFT (R250): the instruction in progress and outstanding requests are abandoned; OVD_PC, SETTLED. A teller
in STOP or FAULT is not moved. -/
def tlrOverdraft (s : State) (sec : Nat) : State :=
  let s1 := (s.outst.filter (fun o => o.id == 0x100 + sec)).foldl endOutst s
  let s2 := tlrWithdraw s1 sec
  if s.tlrState sec = 0 ∨ s.tlrState sec = 4 then s2
  else (s2.setTlr sec { s2.tlr sec with wait := .overdraft, pc := (tlrLastRegs s sec).2.2.toNat % 32768 / 2 * 2, waking := none }).setTlrState sec 3

/-- Wake lines of a sector in the present slot (R251). -/
def wakeLines (s : State) (sec : Nat) : Nat :=
  if s.held sec then 0
  else
    let v := s.view
    let tile := tileOf sec 0 4
    (List.range 8).foldl (fun acc n =>
      let sel := v.af tile (11 * n) 11
      if sel != 0 && v.sel tile sel then acc + 2 ^ n else acc) 0

/-- USER_WAKE_EDGE (R251): rising edges of the wake lines latch their causes. -/
def wakesSlot (s0 s : State) (secs : List Nat) : State :=
  let all := (secs ++ (s0.tellers.filter (fun (kv : Nat × Teller) => kv.2.uw != 0)).map (fun kv => kv.1)).eraseDups
  all.foldl (fun acc sec =>
    let now := wakeLines s0 sec
    let rise := now &&& (0xFF ^^^ (s0.tlr sec).uw)
    if now = (s0.tlr sec).uw then acc
    else
      let acc1 := tlrLatch acc sec (256 * rise)
      acc1.setTlr sec { acc1.tlr sec with uw := now }) s

/-- A teller has an own-bank access in progress, or wakes. -/
def Teller.moves (t : Teller) : Bool :=
  match t.wait with
  | .bank .. => true
  | _ => t.waking.isSome

/-- The end of a TLR cycle at a teller: an open cycle more for its own-bank access; a TWAIT or TSETTLE that ends has it in RUN. -/
def tlrCycleEnd (s : State) (sec : Nat) : State :=
  let e := s.cfgSlots - 1
  let t := s.tlr sec
  if e % 2 = 0 then s
  else
    match t.waking with
    | some (c, _) =>
      if c = e / 2 then s.setTlrState sec 1
      else s.setTlr sec { t with waking := none, spent := t.spent + (dutyOpen s (e / 2)).toNat }
    | none => s.setTlr sec { t with spent := t.spent + (dutyOpen s (e / 2)).toNat }

/-- Own-bank accesses of all tellers, and their wakes, move on at the end of a slot. -/
def tellersSlot (s : State) : State :=
  (s.tellers.filter (fun (kv : Nat × Teller) => kv.2.moves)).foldl (fun acc kv => tlrBankStep (tlrCycleEnd acc kv.1) kv.1) s

/-- TICK_WAKE_LATCH and FRAME_WAKE_LATCH: causes latched in slot 0, the same for every teller but for OVD and TAINT. -/
def tlrLatchAll (s : State) (bits : Nat → Nat) : State := (List.range 240).foldl (fun acc sec => tlrLatch acc sec (bits sec)) s

/-! ### Base instructions -/

/-- The effect of an instruction of RV32IMC without a deviation of its own, of an illegal one, and of PAUSE. -/
def tlrBase (s : State) (sec : Nat) (i : Rv) (len : Nat) : State :=
  let pc := (s.tlr sec).pc
  let next := (pc + len) % 2 ^ 32
  match rvPlain 32 i len pc (tlrX s sec) with
  | some (n, rd, v) => tlrNext (tlrSetX s sec rd v) sec n
  | none =>
    match i with
    | .load rd rs1 imm size signed => tlrLoad s sec rd (wrapN 32 ((tlrX s sec rs1 : Int) + imm)) size signed next
    | .store rs1 rs2 imm size => tlrStore s sec (wrapN 32 ((tlrX s sec rs1 : Int) + imm)) size (tlrX s sec rs2) next
    | .fence _ => tlrNext s sec next
    | _ => tlrFault s sec 1 none

/-- The instruction that a teller fetches in the present slot when it may issue, run by the row it belongs to: `mine` says
whether it is this row's, `run` is its effect, `fail` the effect of a fetch that faults. -/
def tlrRow (s : State) (sec : Nat) (mine : Rv → Bool) (run : State → Rv → Nat → State) (fail : Bool) : Res :=
  if tlrMayIssue s sec then
    match tlrFetch s sec with
    | (s1, .inl (i, len)) => okIf (mine i) s (run s1 i len)
    | (s1, .inr c) => okIf fail s (tlrFault s1 sec c none)
  else ok s

/-- TELLER_FENCE: FENCE or FENCE.TSO completes when no store is outstanding (R246). -/
def execTellerFence (t : Fin 240) (s : State) : Res :=
  tlrRow s t.val (fun i => i == .fence false)
    (fun s1 _ len => if tlrStores s1 t.val then s1 else tlrNext s1 t.val (((s1.tlr t.val).pc + len) % 2 ^ 32)) false

/-- TELLER_ECALL: fault, cause 6. -/
def execTellerEcall (t : Fin 240) (s : State) : Res :=
  tlrRow s t.val (fun i => i == .ecall) (fun s1 _ _ => tlrFault s1 t.val 6 none) false

/-- TELLER_EBREAK: EBREAK or C.EBREAK faults with cause 7. -/
def execTellerEbreak (t : Fin 240) (s : State) : Res :=
  tlrRow s t.val (fun i => i == .ebreak) (fun s1 _ _ => tlrFault s1 t.val 7 none) false

end Sys2Proof.Machine
end

