-- ==== Sys2Proof/Machine/Nap.lean ====
section
/-!
DEFINITION. The NAP of a sector (R268 to R273): user credits and requests, responses to user logic, the user window, the
fence, and what a frame boundary does to them.
-/

namespace Sys2Proof.Machine

def State.setNap (s : State) (sec : Nat) (p : Nap) : State := { s with naps := tset (fun _ => Nap.reset) s.naps sec p }

/-- The tiles of the user ports. -/
def napTile (sec : Nat) : Tile := tileOf sec 0 4
def uwTile (sec : Nat) : Tile := tileOf sec 0 6

/-! ### The initiator port -/

/-- User slots in use: granted credits and requests outstanding. -/
def napBusy (s : State) (sec : Nat) : Nat := (s.nap sec).cred + outCount s sec false

/-- NAP_CREDIT_GRANT: one credit in a slot, for a free user slot, outside the clearing window, the fence and a hold (R268). -/
def execNapCreditGrant (sec : Fin 240) (s : State) : Res :=
  let p := s.nap sec.val
  let now := s.time.slots
  okIf (s.mayIssue sec.val && !s.clrOpen && !s.napFenced sec && p.grantAt != some now && decide (napBusy s sec.val < p.icred)) s
    (s.setNap sec.val { p with cred := p.cred + 1, grantAt := some now })

/-- IVALID in the present slot. -/
def napValid (s : State) (sec : Nat) : Bool := s.view.afIn (napTile sec) 88

/-- Whether user logic may issue an operation: READ, WRITE and atomics up to 8 bytes. -/
def napOpOk (op size : Nat) : Bool := size ≤ 3 && (op == 0 || op == 1 || (3 ≤ op && op ≤ 6))

/-- A response of the NAP itself arrives in the next slot. -/
def napOwn (s : State) (sec ut : Nat) : State :=
  let p := s.nap sec
  s.setNap sec { p with resps := p.resps ++ [⟨s.time.slots + 1, true, ut, 1, 0⟩] }

/-- The request on the port of a NAP, as the fields of a REQ flit and UT. -/
def napRequest (s : State) (sec : Nat) : NocReq × Nat :=
  let v := s.view
  let g := napTile sec
  (mkReq (v.afBus g 99 4) (v.afBus g 143 3) sec (v.afBus g 1408 6) (v.afBus g 176 48) (v.afBus g 704 64), v.afBus g 1474 6)

/-- NAP_INITIATOR_REQUEST: IVALID takes one request, which uses a credit; without one it is discarded (R268, R273). -/
def execNapInitiatorRequest (sec : Fin 240) (s : State) : Res :=
  let p := s.nap sec.val
  let now := s.time.slots
  if s.mayIssue sec.val && p.reqAt != some now && napValid s sec.val then
    let rq := napRequest s sec.val
    let s1 := s.setNap sec.val { p with reqAt := some now, cred := p.cred - 1, lost := if p.cred = 0 then p.lost - 1 else p.lost }
    if s.napFenced sec && p.cred + p.lost != 0 then ok (napOwn s1 sec.val rq.2)
    else if p.cred = 0 then
      ok (((s.setNap sec.val { p with reqAt := some now }).raiseF (Reg.SEC_NAP_STAT_IOVR sec)).incF (Reg.SEC_NAP_CNT_IOVR_CNT sec))
    else if napOpOk rq.1.op rq.1.size then ok (issue s1 rq.1 rq.2 0).1
    else ok (napOwn s1 sec.val rq.2)
  else ok s

/-- A response, or a synthesised error (status 3), reaches user logic's NAP (R266, R269). -/
def napRespond (s : State) (o : Outst) (status data : Nat) : State :=
  let p := s.nap o.id
  let s1 := s.setNap o.id { p with resps := p.resps ++ [⟨s.time.slots, false, o.note, status, data % 2 ^ 64⟩] }
  if status = 3 then s1.raiseF (Reg.SEC_NAP_STAT_TMO o.id) else s1

/-- The response to present in a slot: the first to have arrived, one from the network before one of the NAP's own. -/
def nextResp (rs : List UserRsp) (now : Nat) : Option UserRsp :=
  let due := rs.filter (fun r => decide (r.at_ ≤ now))
  let first := due.foldl (fun acc r => min acc r.at_) now
  match due.find? (fun r => r.at_ == first && !r.own) with
  | some r => some r
  | none => due.find? (fun r => r.at_ == first)

/-- NAP_RESPONSE_PRESENT: one waiting response is presented for one slot (R269). -/
def execNapResponsePresent (sec : Fin 240) (s : State) : Res :=
  let p := s.nap sec.val
  let now := s.time.slots
  if s.slotRuns && (p.shown.map (fun x => x.1)) != some now then
    match nextResp p.resps now with
    | some r => ok (s.setNap sec.val { p with shown := some (now, r), resps := p.resps.erase r })
    | none => ok s
  else ok s

/-! ### The user window -/

/-- The NAP answers user-window requests with SLVERR itself (R17, R270). -/
def napRefuses (s : State) (sec : Nat) : Bool :=
  let p := s.nap sec
  p.tcred == 0 || s.napFenced sec || s.held sec || (s.personality sec).all (fun q => s.planeState sec q == 0)

/-- A request for the user window at its NAP; false where its buffer is full and the request waits in the network. -/
def napAccept (s : State) (sec : Nat) (r : NocReq) (vc : Nat) : State × Bool :=
  let p := s.nap sec
  if napRefuses s sec || 1 < r.op || 3 < r.size || r.addr % 2 ^ r.size != 0 then (sendResponse s (120 + sec) r 1 0, true)
  else if p.uw.length < 16 then (s.setNap sec { p with uw := p.uw ++ [{ r := r, vc := vc, shown := none }] }, true)
  else (s, false)

/-- Requests presented and not answered. -/
def uwOpen (p : Nap) : List UwReq := p.uw.filter (fun q => q.shown.isSome)

/-- NAP_TARGET_PRESENT: a waiting user-window request is presented for one slot under a free handle (R270, R271). -/
def execNapTargetPresent (sec : Fin 240) (s : State) : Res :=
  let p := s.nap sec.val
  let now := s.time.slots
  if s.mayIssue sec.val && !s.clrOpen && (p.uwShown.map (fun x => x.1)) != some now && decide ((uwOpen p).length < p.tcred) then
    match p.uw.find? (fun q => q.shown.isNone) with
    | none => ok s
    | some q =>
      let used := (uwOpen p).filterMap (fun u => u.shown.map (fun x => x.1))
      let free := (List.range 16).filter (fun h => !used.contains h)
      let (n, s1) := s.draw
      let h := free.getD (Config.tagPick n % max 1 free.length) 0
      let q1 := { q with shown := some (h, now) }
      ok (s1.setNap sec.val { p with uw := p.uw.map (fun u => if u = q then q1 else u), uwShown := some (now, q1) })
  else ok s

/-- A presented request leaves with an answer. -/
def uwAnswer (s : State) (sec : Nat) (q : UwReq) (status data : Nat) : State :=
  let p := s.nap sec
  sendResponse (s.setNap sec { p with uw := p.uw.erase q }) (120 + sec) q.r status (if q.r.op = 0 ∧ status = 0 then data else 0)

/-- NAP_TARGET_ANSWER: user logic sets SV; an answer whose handle names no presented request is ignored (R270). -/
def execNapTargetAnswer (sec : Fin 240) (s : State) : Res :=
  let p := s.nap sec.val
  let v := s.view
  let g := uwTile sec.val
  if s.mayIssue sec.val && p.ansAt != some s.time.slots && v.afIn g 0 then
    let s1 := s.setNap sec.val { p with ansAt := some s.time.slots }
    match p.uw.find? (fun q => q.shown.map (fun x => x.1) == some (v.afBus g 11 4)) with
    | some q => ok (uwAnswer s1 sec.val q (v.afIn g 55).toNat (v.afBus g 66 64))
    | none => ok s1
  else ok s

/-- NAP_TARGET_LIMIT: a request has been presented for TGT_LIM slots without an answer (R270). -/
def execNapTargetLimit (sec : Fin 240) (s : State) : Res :=
  let p := s.nap sec.val
  let lim := max 1 (s.getF (Reg.SEC_NAP_LIM_TGT_LIM sec))
  if s.slotRuns then
    match p.uw.find? (fun q => match q.shown with
      | some (_, j) => decide (j + lim ≤ s.time.slots)
      | none => false) with
    | some q => ok (((uwAnswer s sec.val q 1 0).raiseF (Reg.SEC_NAP_STAT_TLATE sec)).incF (Reg.SEC_NAP_CNT_TLATE_CNT sec))
    | none => ok s
  else ok s

/-! ### The fence -/

/-- A write of SEC_NAP_CTRL.FENCE; it is in force from the next slot. -/
def fenceWrite (s : State) (sec : Nat) (b : Bool) : State := s.putF (Reg.SEC_NAP_CTRL_FENCE sec) b

/-- NAP_FENCE: a write of FENCE = 1. -/
def execNapFence (sec : Fin 240) (s : State) : Res := if s.alive then ok (fenceWrite s sec.val true) else ok s

/-- NAP_UNFENCE: a write of FENCE = 0. -/
def execNapUnfence (sec : Fin 240) (s : State) : Res := if s.alive then ok (fenceWrite s sec.val false) else ok s

/-- IDLE (R273). -/
def napIdle (s : State) (sec : Nat) : Bool :=
  (s.flag (Reg.SEC_NAP_CTRL_FENCE sec) || s.fencing) && outCount s sec false == 0 && tlrOut s sec == 0 && (uwOpen (s.nap sec)).isEmpty

/-- OUT_INIT and OUT_TGT as SEC_NAP_STAT reports them. -/
def napOutInit (s : State) (sec : Nat) : Nat := outCount s sec false + outCount s sec true + tlrOut s sec

/-- User-window requests that wait unpresented are answered with SLVERR while the NAP refuses. -/
def uwFlush (s : State) (sec : Nat) : State :=
  if napRefuses s sec then ((s.nap sec).uw.filter (fun q => q.shown.isNone)).foldl (fun acc q => uwAnswer acc sec q 1 0) s
  else s

/-- What the end of a slot does to one NAP: the fence comes into force or ends, and a fence or a hold withdraws credits. -/
def napSlot (s : State) (sec : Nat) : State :=
  let p := s.nap sec
  let f := s.flag (Reg.SEC_NAP_CTRL_FENCE sec)
  let p1 := if f && !p.fenced then { p with fenced := true, lost := p.cred, cred := 0 }
    else if !f then { p with fenced := false, lost := 0 } else p
  let p2 := if s.held sec then { p1 with cred := 0 } else p1
  uwFlush (s.setNap sec p2) sec

/-- Every NAP that holds anything, or whose control register has been written. -/
def napsSlot (s : State) : State :=
  let byReg := s.regs.filterMap (fun kv =>
    if 0x500000 ≤ kv.1 ∧ kv.1 % 0x1000 = 0x700 then some ((kv.1 - 0x500000) / 0x1000) else none)
  ((s.naps.map (fun kv => kv.1) ++ byReg).eraseDups).foldl napSlot s

/-! ### Frame boundaries -/

/-- Slot 0 of a frame (R271): unused credits are withdrawn, ICRED and TCRED take effect. -/
def napsFrame (s : State) : State :=
  let byReg := s.regs.filterMap (fun kv =>
    if 0x500000 ≤ kv.1 ∧ kv.1 % 0x1000 = 0x700 then some ((kv.1 - 0x500000) / 0x1000) else none)
  ((s.naps.map (fun kv => kv.1) ++ byReg).eraseDups).foldl (fun acc sec =>
    acc.setNap sec { acc.nap sec with cred := 0, lost := 0, icred := min 16 (s.began.getF (Reg.SEC_NAP_CTRL_ICRED sec)),
                                      tcred := min 16 (s.began.getF (Reg.SEC_NAP_CTRL_TCRED sec)) }) s

/-- A sector has drained (R35); ring accesses do not count (R205). -/
def sectorDrained (s : State) (sec : Nat) : Bool :=
  outCount s sec false == 0 && tlrOut s sec == 0 && (uwOpen (s.nap sec)).isEmpty && tlrDrained s sec

/-- What an overdraft does at the NAP and the teller of a sector (R38, R250). -/
def sectorOverdraft (s : State) (sec : Nat) : State :=
  let s1 := (s.outst.filter (fun o => o.id == sec && !o.ln)).foldl endOutst s
  let s2 := (uwOpen (s1.nap sec)).foldl (fun acc q => uwAnswer acc sec q 1 0) s1
  if tlrDrained s sec && tlrOut s sec == 0 then s2 else tlrOverdraft s2 sec

end Sys2Proof.Machine
end

