-- ==== Sys2Proof/Machine/Rank.lean ====
section
/-!
DEFINITION. Rankers (06_mac_ranker.md R125 to R133): TOP, FLUSH and MERGE, the chain output registers, and what frames
and swaps do to them.
-/

namespace Sys2Proof.Machine

def State.setRanker (s : State) (sec r : Nat) (x : Ranker) : State :=
  { s with rankers := tset (fun _ => Ranker.reset) s.rankers (2 * sec + r) x }

/-- The key of an entry, bits [31:16]. -/
def entryKey (e : Nat) : Nat := e / 65536 % 65536

/-- An entry put behind every entry whose key is not lower (R126). -/
def rankInsert (e : Nat) : List Nat → List Nat
  | [] => [e]
  | x :: r => if entryKey x < entryKey e then e :: x :: r else x :: rankInsert e r

/-- Entries taken into a list in the order they enter; empty entries (key 0) are dropped and the 32 highest are kept
(R125, R126). -/
def rankAll (list : List Nat) (es : List Nat) : List Nat :=
  (es.foldl (fun acc e => if entryKey e = 0 then acc else rankInsert e acc) list).take 32

/-- Group g of a list. -/
def groupOf (list : List Nat) (g : Nat) : List Nat := (list.drop (8 * g)).take 8

/-- RCTL of a ranker in the active plane (AF[2879:2848]). -/
def rctl (v : FabView) (sec r : Nat) : Nat := v.af (rankerTile sec r) 2848 32

/-- The eight fabric entries that the active plane selects. -/
def fabEntries (v : FabView) (sec r : Nat) : List Nat :=
  (List.range 8).map (fun e => v.afBus (rankerTile sec r) (352 * e) 32)

/-- The serpentine position of a sector in its tier. -/
def serpPos (sec : Nat) : Nat :=
  let y := sec % 120 / 12
  let x := sec % 12
  if y % 2 = 0 then 12 * y + x else 12 * y + 11 - x

/-- The sector at a serpentine position of a tier. -/
def serpSec (tier pos : Nat) : Nat :=
  let y := pos / 12
  let x := if y % 2 = 0 then pos % 12 else 11 - pos % 12
  120 * tier + 12 * y + x

/-- The ranker whose CO a chain source names (Table 6.6). -/
def chainSource (sec r src : Nat) : Option (Nat × Nat) :=
  let t := sec / 120
  let pos := serpPos sec
  match src with
  | 2 => some (sec, r)
  | 3 => some (sec, 1 - r)
  | 4 => if pos = 0 then none else some (serpSec t (pos - 1), 0)
  | 5 => if pos = 0 then none else some (serpSec t (pos - 1), 1)
  | 6 => if pos = 119 then none else some (serpSec t (pos + 1), 0)
  | 7 => if pos = 119 then none else some (serpSec t (pos + 1), 1)
  | 8 => some (partner sec, 0)
  | 9 => some (partner sec, 1)
  | _ => none

/-- The group that a chain source presented d slots ago (R130, R131). -/
def chainGroup (s : State) (sec r src d : Nat) : List Nat :=
  match chainSource sec r src with
  | none => []
  | some (ps, pr) =>
    let x := s.ranker ps pr
    if d = 0 then (if s.held ps then [] else x.co)
    else x.past.getD (d - 1) []

/-- The group that list A or B of a MERGE takes in the present slot; the records of a ranker hold nothing from before the last slot in
which its sector was held (R407). -/
def mergeGroup (s : State) (sec r src d : Nat) (fab : Bool) : List Nat :=
  if src = 1 then (if fab then fabEntries s.view sec r else [])
  else if s.time.slots < (s.ranker sec r).since + d then []
  else chainGroup s sec r src d

/-- The slots an output of four groups would take overlap slots already promised (R129). -/
def overlaps (x : Ranker) (first : Nat) : Bool :=
  x.outs.any (fun o => first ≤ o.1 && o.1 ≤ first + 3)

/-- The refusal of an operation: the flag of its cause and one count (R129). Where both causes hold, the flag is IN (DESIGN CHOICE, log
118). -/
def rankRefuse (s : State) (sec r : Nat) (inSide : Bool) : State :=
  let f := if r = 0 then (if inSide then Reg.SEC_HB_STAT_RK0_IN sec else Reg.SEC_HB_STAT_RK0_OUT sec)
    else (if inSide then Reg.SEC_HB_STAT_RK1_IN sec else Reg.SEC_HB_STAT_RK1_OUT sec)
  let t := (s.raiseF f).incF (if r = 0 then Reg.SEC_HB_CNT_RK0_REF sec else Reg.SEC_HB_CNT_RK1_REF sec)
  t.setRanker sec r { s.ranker sec r with opAt := some s.time.slots }

/-- A MERGE issued in an earlier slot still takes its inputs. -/
def merging (s : State) (x : Ranker) : Bool :=
  match x.merge with
  | some m => m.at_ < s.time.slots
  | none => false

/-- The active plane issues operation `op` on a ranker in this slot (R133); a ranker takes one operation in a slot (R54). -/
def rankIssues (s : State) (sec r op : Nat) : Bool :=
  s.mayIssue sec && (s.ranker sec r).opAt != some s.time.slots && nbits (rctl s.view sec r) 2 0 == op && s.view.afIn (rankerTile sec r) 2816

/-- TOP: eight entries are inserted into the retained list (R126). -/
def execTop (sec : Fin 240) (r : Fin 2) (s : State) : Res :=
  let x := s.ranker sec r
  if rankIssues s sec r 1 then
    if merging s x then ok (rankRefuse s sec r true)
    else ok (s.setRanker sec r { x with list := rankAll x.list (fabEntries s.view sec r), opAt := some s.time.slots })
  else ok s

/-- FLUSH: eight entries are inserted, the list is emitted as four groups from slot j + 14, and emptied (R127). -/
def execFlush (sec : Fin 240) (r : Fin 2) (s : State) : Res :=
  let x := s.ranker sec r
  let j := s.time.slots
  if rankIssues s sec r 2 then
    if merging s x then ok (rankRefuse s sec r true)
    else if overlaps x (j + 14) then ok (rankRefuse s sec r false)
    else
      let l := rankAll x.list (fabEntries s.view sec r)
      ok (s.setRanker sec r
        { x with list := [], opAt := some j, outs := x.outs ++ (List.range 4).map (fun g => (j + 14 + g, groupOf l g)) })
  else ok s

/-- MERGE: two lists of 32 are taken in slots t to t + 3; the output slots are t + 13 to t + 16 (R127, R131). -/
def execMerge (sec : Fin 240) (r : Fin 2) (s : State) : Res :=
  let x := s.ranker sec r
  let j := s.time.slots
  let c := rctl s.view sec r
  if rankIssues s sec r 3 then
    if merging s x then ok (rankRefuse s sec r true)
    else if overlaps x (j + 13) then ok (rankRefuse s sec r false)
    else
      ok (s.setRanker sec r
        { x with
          merge := some { at_ := j, srcA := nbits c 7 4, srcB := nbits c 11 8, dA := nbits c 16 12, dB := nbits c 21 17,
                          a := [], b := [] }
          opAt := some j
          outs := x.outs ++ (List.range 4).map (fun g => (j + 13 + g, [])) })
  else ok s

/-- A list in the order of R126: keys do not rise, and empty entries come last. -/
def ranked : List Nat → Bool
  | [] => true
  | [_] => true
  | a :: b :: r => entryKey b ≤ entryKey a && ranked (b :: r)

/-- Element i taken out of a list. -/
def takeOut (l : List Nat) (i : Nat) : Nat × List Nat := (l.getD i 0, l.eraseIdx i)

/-- The 32 entries a MERGE emits: the top 32 where both lists are in order, 32 of the entries in a free order otherwise
(R128). -/
def mergeLists (a b : List Nat) : List Nat :=
  if ranked a && ranked b then rankAll [] (a ++ b)
  else
    let all := a ++ b
    ((List.range 32).foldl (fun (acc : List Nat × List Nat) i =>
      let (e, rest) := takeOut acc.2 (Config.mergeOrder all i % max 1 acc.2.length)
      (acc.1 ++ [if entryKey e = 0 then 0 else e], rest)) ([], all)).1

/-- A group padded to eight entries, empty entries as 0 (R125). -/
def padGroup (g : List Nat) : List Nat := ((g.map (fun e => if entryKey e = 0 then 0 else e)) ++ List.replicate 8 0).take 8

/-- What CO takes at the end of a slot (R130, COSEL of Table 6.6). -/
def coNext (s : State) (sec r : Nat) (x : Ranker) : List Nat :=
  let sel := nbits (rctl s.view sec r) 25 22
  match sel with
  | 1 => padGroup (fabEntries s.view sec r)
  | 2 => x.co
  | 11 => x.co
  | 10 => x.port s.time.slots
  | _ => if 3 ≤ sel ∧ sel ≤ 9 then chainGroup s sec r sel 0 else []

/-- A group of all-empty entries as the empty list, so that equal groups are equal data. -/
def normGroup (g : List Nat) : List Nat := if g.all (· == 0) then [] else g

/-- The last 31 groups that a CO presented, with no empty tail. -/
def normPast (p : List (List Nat)) : List (List Nat) := ((p.take 31).reverse.dropWhile (fun g => g.isEmpty)).reverse

/-- The input step of a MERGE in one slot: the groups it takes, and in its fourth slot the output groups (R127, R131). -/
def mergeStep (s0 : State) (sec r : Nat) (m : MergeIn) (outs : List (Nat × List Nat)) :
    Option MergeIn × List (Nat × List Nat) :=
  let a := m.a ++ padGroup (mergeGroup s0 sec r m.srcA m.dA true)
  let b := m.b ++ padGroup (mergeGroup s0 sec r m.srcB m.dB (m.srcA != 1))
  if m.at_ + 3 ≤ s0.time.slots then
    let l := mergeLists a b
    (none, outs.map (fun o =>
      if m.at_ + 13 ≤ o.1 ∧ o.1 ≤ m.at_ + 16 then (o.1, normGroup (groupOf l (o.1 - (m.at_ + 13)))) else o))
  else (some { m with a := a, b := b }, outs)

/-- What a slot does to one ranker, all of it read from the state `s0` before the slot. A ranker of a held sector is empty (R355, R407). -/
def rankerSlot (s0 s : State) (key : Nat) : State :=
  let sec := key / 2
  let r := key % 2
  let x := s0.ranker sec r
  if s0.held sec then s.setRanker sec r { Ranker.reset with past := normPast ([] :: x.past), since := s0.time.slots + 1 }
  else
    let outs := x.outs.filter (fun o => s0.time.slots < o.1)
    let mo : Option MergeIn × List (Nat × List Nat) := match x.merge with
      | none => (none, outs)
      | some m => mergeStep s0 sec r m outs
    s.setRanker sec r
      { list := x.list, merge := mo.1, outs := mo.2, co := normGroup (coNext s0 sec r x), past := normPast (x.co :: x.past),
        since := x.since, opAt := none }

/-- Sectors that hold any configuration. -/
def cfgSectors (s : State) : List Nat := tkeys (fun k => k / 320 / 144 / 8) s.cfgw

/-- Every ranker with state or with configuration, in one slot. -/
def rankersSlot (s0 s : State) : State :=
  let ks := (s0.rankers.map (fun (kv : Nat × Ranker) => kv.1) ++ (cfgSectors s0).flatMap (fun sec => [2 * sec, 2 * sec + 1])).eraseDups
  ks.foldl (fun acc k => rankerSlot s0 acc k) s

/-- RANKER_FRAME_CLEAR (R132): every list, operation, CO and record is emptied. -/
def rankersFrameEnd (s : State) : State := { s with rankers := [] }

/-- A swap of a sector: CO takes an empty group in either mode; with clear, the lists and operations go too (R132). -/
def rankersSwap (s : State) (sec : Nat) (clear : Bool) : State :=
  let f := fun (key : Nat) (x : Ranker) =>
    if key / 2 == sec then
      (if clear then { x with list := [], merge := none, outs := [], co := [] } else { x with co := [] })
    else x
  { s with rankers := tmap (fun _ => Ranker.reset) f s.rankers }

end Sys2Proof.Machine
end

