-- ==== Sys2Proof/Machine/Time.lean ====
section
/-!
DEFINITION. Machine time (02_machine_time.md): timing words and the orbit marker, the commands waiting for their effect
tick, the group start, and the parts of a tick and of a frame boundary that concern the counters. The boundaries as a
whole stand in Frame.lean.
-/

namespace Sys2Proof.Machine

/-- A field of the time state changed. -/
def State.setTime (s : State) (t : TimeState) : State := { s with time := t }

/-! ### Timing words -/

/-- CHK of bits [15:4] of a command word: polynomial x^4 + x + 1, initial value 0, bit 15 first (Table 2.3). -/
def timingChk (w : Nat) : Nat :=
  (List.range 12).foldl (fun acc i =>
    let fb := xor (acc.testBit 3) (w.testBit (15 - i))
    let sh := acc * 2 % 16
    if fb then sh ^^^ 3 else sh) 0

/-- Lane n is in front-end mode and ACTIVE (R25). -/
def frontEndActive (s : State) (n : Nat) : Bool :=
  s.getF (Reg.LQ_MODE_MODE (n / 4)) == 1 && s.getF (Reg.LN_BU_STAT_STATE n) == 6

/-- Lane n supplies timing commands: SRC in force is 01b, SRC_LANE names it, and it is a front-end lane in ACTIVE (R25). -/
def suppliesWords (s : State) (n : Nat) : Bool :=
  s.time.src == 1 && s.getF Reg.TIME_CMD_SRC_LANE == n && frontEndActive s n

/-- A command that completes now, waiting CMD_LAT ticks (R28). -/
def schedule (s : State) (cmd arg : Nat) : State :=
  s.setTime { s.time with
    due := s.time.due ++ [{ wait := s.time.cmdLat, cmd := cmd, arg := arg, late := s.time.doneSeen }] }

/-- TIMING_WORD_DISCARD (R27): counted, and event 284 raised. -/
def discardWord (s : State) (count : Field) : State := (s.incF count).raiseEv 284

/-- A timing word completes: discarded and counted, or its command waits for its effect tick (R27). -/
def timingWord (s : State) (bad k1 k2 : Bool) (c1 c2 : Nat) : State :=
  let beat := s.time.slots / 8
  let w := 256 * c1 + c2
  let again := s.time.wordBeat == some beat
  let s1 := s.setTime { s.time with wordBeat := some beat }
  if bad || k1 || k2 || again || timingChk w != w % 16 then discardWord s1 Reg.TIME_ERR_CHK_ERR
  else if 7 ≤ w / 4096 then discardWord s1 Reg.TIME_ERR_UNK_CMD
  else schedule s1 (w / 4096) (w / 16 % 256)

/-- One character of the timing lane: K28.1 begins a timing word, and the second character after it completes it. A K28.1 in a data
position is a K character there and begins no word (DESIGN CHOICE, log 127). -/
def timingChar (acc : State × List RxChar) (c : RxChar) : State × List RxChar :=
  match acc.2 with
  | [] => if c.k && c.v == 0x3C then (acc.1, [c]) else acc
  | [a] => (acc.1, [a, c])
  | a :: b :: _ => (timingWord acc.1 ([a, b, c].any (fun x => x.cv || x.rdErr)) b.k c.k b.v c.v, [])

/-- The timing decoder takes the word of the present beat of the lane that supplies timing words, once, before the clearing-window idle;
it acts only while the lane is ACTIVE and aligned (R188). -/
def feTiming (s : State) (n : Nat) : State :=
  let l := s.feLane n
  let beat := s.time.slots / 8
  match (if s.logs && suppliesWords s n && feLocked s n && l.timedAt != some beat then feBeatWord s n else none) with
  | none => s
  | some cs =>
    let r := cs.foldl timingChar (s, l.part)
    r.1.setFe n { l with part := r.2, timedAt := some beat }

/-- What the decoder of every lane has done when a beat ends; a lane that supplies no timing words has none begun. -/
def feTimings (s : State) : State :=
  if s.k = 7 then
    let f := fun (n : Nat) (l : FeLane) => if suppliesWords s n then l else { l with part := [] }
    feTiming { s with fe := tmap (fun _ => FeLane.reset) f s.fe } (s.getF Reg.TIME_CMD_SRC_LANE)
  else s

/-- TIMING_WORD: the timing decoder takes the word that the lane presents in the present beat: the timing words that complete in it are
decoded and checked. A beat in which this is not commanded has its word decoded in its last slot. None completes while the slot clock is
stopped (R27, R71, R188). -/
def execTimingWord (lane : Fin 144) (_ _ _ _ _ : Unit) (s : State) : Res := ok (feTiming s lane)

/-- ORBIT_MARKER_EDGE: the selected pin samples high after two low samples and supplies an ORBIT; `start` is the level of
the start pin at the same beat boundary (R26). -/
def execOrbitMarkerEdge (start : Bool) (s : State) : Res :=
  okIf (s.slotRuns && s.k == 0 && s.time.src == 2 && s.getF Reg.TIME_CMD_ORB_PIN < 96 &&
      s.time.pinSel == s.getF Reg.TIME_CMD_ORB_PIN && 2 ≤ s.time.lows) s
    (schedule (s.setTime { s.time with lows := 0 }) 1
      (start && s.getF Reg.TIME_CMD_START_PIN < 96).toNat)

/-- The sample that each beat boundary takes of the selected pin (R26). -/
def sampleMarker (s : State) (pins : BitVec 96) : State :=
  let pin := s.getF Reg.TIME_CMD_ORB_PIN
  if s.k = 0 ∧ s.time.src = 2 ∧ pin < 96 then
    let lows := if s.time.pinSel = pin then s.time.lows else 0
    s.setTime { s.time with pinSel := pin, lows := if pins.getLsbD pin then 0 else lows + 1 }
  else s

/-- A write that changes ORB_PIN begins the sample count afresh (R26). -/
def orbPinChange (old s : State) : State :=
  if s.getF Reg.TIME_CMD_ORB_PIN = old.getF Reg.TIME_CMD_ORB_PIN then s else s.setTime { s.time with lows := 0 }

/-! ### Effect ticks -/

/-- The present slot is slot 0 of a tick and has not run. -/
def State.slot0 (s : State) : Bool := s.clockOn && !s.dbgHalt && s.time.inTick == 0 && !s.ramping

/-- A command that takes effect in the present tick. -/
def isDue (cmd : Nat) (c : TimingCmd) : Bool := c.wait == 0 && c.cmd == cmd

/-- Commands of one kind take effect now: it is slot 0, some are due, and none of an earlier kind is (R29). -/
def takesEffect (s : State) (cmd : Nat) (before : List Nat) : Bool :=
  s.slot0 && s.time.due.any (isDue cmd) && before.all (fun b => !s.time.due.any (isDue b))

/-- The commands of one kind removed once they have acted. -/
def dropDue (s : State) (cmd : Nat) : State :=
  s.setTime { s.time with due := s.time.due.filter (fun c => !isDue cmd c) }

/-- The ARGs of the commands of one kind that are due, oldest first. -/
def dueArgs (s : State) (cmd : Nat) : List Nat := (s.time.due.filter (isDue cmd)).map (fun c => c.arg)

/-- The ARGs combined by OR (R29). -/
def dueOr (s : State) (cmd : Nat) : Nat := (dueArgs s cmd).foldl (· ||| ·) 0

/-- NOP: takes effect with no effect and is not counted. -/
def execNop (s : State) : Res := okIf (takesEffect s 0 []) s (dropDue s 0)

/-- TICK_RESET: TICK becomes 0. -/
def execTickReset (s : State) : Res :=
  okIf (takesEffect s 2 []) s (let t := dropDue s 2; t.setTime { t.time with tick := 0 })

/-- SWAP_GO: armed swaps whose group bit is set are released; ignored before user mode (R30, R67). -/
def execSwapGo (s : State) : Res :=
  let t := dropDue s 5
  okIf (takesEffect s 5 [2, 1, 3, 4]) s
    (if s.user then t.setTime { t.time with swapGo := BitVec.ofNat 8 (dueOr s 5) } else t)

/-- TEST_PULSE: TEST is 1 in slot 0 and TEST_TYPE takes the ARG of the word that completed last; ignored before user mode
(R29, R30). -/
def execTestPulse (s : State) : Res :=
  let t := dropDue s 6
  okIf (takesEffect s 6 [2, 1, 3, 4, 5]) s
    (if s.user then
      t.setTime { t.time with test := true, testType := BitVec.ofNat 8 ((dueArgs s 6).getLastD 0) }
    else t)

/-! ### Counters -/

/-- A value kept between limits. -/
def clampN (lo hi x : Nat) : Nat := max lo (min hi x)

/-- FRAME_LENGTH_SAMPLE (R33): the lengths sampled and limited, and CLAMP. -/
def sampleLengths (s : State) : State :=
  let wl := s.began.getF Reg.TIME_FRAME_LEN_FRAME_LEN
  let wc := s.began.getF Reg.TIME_CLR_LEN_CLR_LEN
  let l := clampN 16 (2 ^ 24) wl
  let c := clampN 8 (l - 8) wc
  (s.setTime { s.time with len := l, clr := c }).putF Reg.TIME_STATUS_CLAMP (l != wl || c != wc)

/-- Slots per tick of free-running ticks (TIME_FREE). -/
def freeSlots (s : State) : Nat := clampN 16 1024 (s.getF Reg.TIME_FREE_FREE_SLOTS / 8 * 8)

/-- The count of slots of the present tick has expired. -/
def State.tickOver (s : State) : Bool := s.clockOn && !s.dbgHalt && !s.ramping && s.time.tickSlots ≤ s.time.inTick

/-- TIF stands at the last tick of the frame. -/
def State.lastTick (s : State) : Bool := s.time.len ≤ s.getF Reg.TIME_TIF_TIF + 1

/-- What every tick boundary does to machine time: TICK advances, the slot count starts again, SRC and CMD_LAT take
effect, FREE_SLOTS too while SYNC is 0, commands come one tick nearer, and the counts of the group start move on. -/
def tickAdvance (s : State) : State :=
  let t := s.time
  let src := s.getF Reg.TIME_CTRL_SRC
  let lat := s.getF Reg.TIME_CMD_CMD_LAT
  let s1 := s.setTime { t with
    inTick := 0
    tick := t.tick + 1
    tickSlots := if s.flag Reg.TIME_STATUS_SYNC then t.tickSlots else freeSlots s
    src := src
    lows := if src = t.src then t.lows else 0
    cmdLat := if lat = 0 then 1 else lat
    due := (t.due.filter (fun c => c.wait != 0)).map (fun c => { c with wait := c.wait - 1 })
    test := false
    frameStb := false
    swapGo := 0
    startIn := if t.forceStart then some 0 else t.startIn.map (· - 1)
    forceStart := false
    remindIn := t.remindIn - 1 }
  { s1 with armFresh := [], schedPend := s1.schedPend.map (fun kv => (kv.1, kv.2 % 64)) }

/-! ### Group start -/

/-- DONE_RISE: DONE is sampled high in slot 0 of a tick. The first time, the device waits for an ORBIT when SRC selects a
source, and for 64 ticks when it does not (R46). -/
def execDoneRise (s : State) : Res :=
  let t := s.time
  if s.slot0 && !t.doneHigh && s.ld.doneRel then
    let s1 := s.setTime { t with doneHigh := true }
    if s.user || t.doneSeen then ok s1
    else if t.src = 1 ∨ t.src = 2 then
      ok (((s1.setTime { s1.time with doneSeen := true, remindIn := t.len }).raiseF Reg.TIME_STATUS_WAIT_ORBIT).raiseEv 285)
    else ok (s1.setTime { s1.time with doneSeen := true, startIn := some 64 })
  else ok s

/-- WAIT_ORBIT_REMINDER: event 285 again every FRAME_LEN ticks while the device waits (R46). -/
def execWaitOrbitReminder (s : State) : Res :=
  okIf (s.slot0 && s.flag Reg.TIME_STATUS_WAIT_ORBIT && s.time.remindIn == 0) s
    ((s.setTime { s.time with remindIn := s.time.len }).raiseEv 285)

/-- The write of START_FORCE: acts only while WAIT_ORBIT is 1 (R46). -/
def startForce (s : State) : State :=
  if s.flag Reg.TIME_STATUS_WAIT_ORBIT then s.setTime { s.time with forceStart := true } else s

/-- START_FORCE: the next tick boundary is the start tick. -/
def execStartForce (s : State) : Res := okIf s.alive s (startForce s)

/-- DONE_FALL: DONE is sampled low after a high sample; in user mode a device of a group records the fall (R48). -/
def execDoneFall (s : State) : Res :=
  let s1 := s.setTime { s.time with doneHigh := false }
  okIf (s.slot0 && s.time.doneHigh) s
    (if s.user && (s.getF Reg.RST_STRAP_CODE).testBit 0 then
      (s1.raiseF Reg.TIME_STATUS_DONE_DROP).raiseEv 285
    else s1)

/-- A read of TIME_TICK_LO captures TICK[47:32] into TIME_TICK_HI (R24). -/
def tickLoRead (s : State) : Word32 × State :=
  (s.time.tick.setWidth 32, s.setReg Reg.TIME_TICK_HI ((s.time.tick >>> 32).setWidth 32))

/-- TICK_LO_READ. -/
def execTickLoRead (s : State) : Res :=
  let r := tickLoRead s
  okIf s.alive s { r.2 with resp := ⟨0, r.1.setWidth 64⟩ }

end Sys2Proof.Machine
end

