-- ==== Sys2Proof/Machine/Sched.lean ====
section
/-!
DEFINITION. Schedules, personality swaps and plane states (03_slots_planes.md R51 to R78), slot registers and wire
registers in one slot, the contention guard of the vertical links (05_routing.md R106, R107).
-/

namespace Sys2Proof.Machine

/-! ### SEC_SCHED -/

/-- The fields of a SEC_SCHED word that a swap uses: ARM, WHEN, MODE, GROUP, NEXT_FOLD, NEXT_BASE. -/
def schedSwapMask : Word32 := 0xF7370000#32

/-- The arming test: WHEN is not 11b and NEXT_BASE is a multiple of NEXT_FOLD (R72). -/
def armValid (v : Word32) : Bool :=
  let x := v.toNat
  nbits x 30 29 != 3 && nbits x 18 16 % 2 ^ nbits x 21 20 == 0

/-- A write of SEC_SCHED (R66, R67, R72). A sector that follows its partner keeps its own fields; whether it follows is judged by PAIR
before the write, so a write that clears PAIR leaves the other fields (DESIGN CHOICE, log 118). -/
def schedWrite (s : State) (sec : Nat) (v : Word32) : State :=
  let o := Reg.SEC_SCHED sec
  let arm := v.getLsbD 31
  if arm && !armValid v then s.raiseF (Reg.SEC_SCHED_STAT_BADARM sec)
  else
    let follows := s.leader sec != sec
    let s1 := if 120 ≤ sec && !s.user then s.putF (Reg.SEC_SCHED_PAIR sec) (v.getLsbD 27) else s
    if follows then s1
    else
      let s2 := s1.setReg o ((s1.reg o &&& ~~~schedSwapMask) ||| (v &&& schedSwapMask))
      let s3 := { s2 with armFresh := tset (fun _ => false) s2.armFresh sec arm }
      if s.user then s3
      else
        let f := nbits v.toNat 5 4
        let b := nbits v.toNat 2 0
        if b % 2 ^ f = 0 then
          { s3 with schedPend := tset (fun _ => 0) s3.schedPend sec (64 + 1 + 8 * f + b) }
        else s3.raiseF (Reg.SEC_SCHED_STAT_BADSCHED sec)

/-- SWAP_ARM: a SEC_SCHED write with ARM = 1. -/
def execSwapArm (sec : Fin 240) (v : Word32) (s : State) : Res :=
  okIf s.alive s (schedWrite s sec (v ||| 0x80000000#32))

/-- SWAP_DISARM: a SEC_SCHED write with ARM = 0. -/
def execSwapDisarm (sec : Fin 240) (v : Word32) (s : State) : Res :=
  okIf s.alive s (schedWrite s sec (v &&& 0x7FFFFFFF#32))

/-- SCHEDULE_WRITE: a write of FOLD and BASE before user mode. -/
def execScheduleWrite (sec : Fin 240) (v : Word32) (s : State) : Res := okIf s.alive s (schedWrite s sec v)

/-- The planes of a schedule given by its fold code and base. -/
def planesOf (f b : Nat) : List Nat := (List.range (2 ^ f)).map (fun p => (b + p) % 8)

/-- The T1 partner that follows a T0 sector (R66). -/
def follower (s : State) (sec : Nat) : Option Nat :=
  if sec < 120 ∧ s.flag (Reg.SEC_SCHED_PAIR (sec + 120)) then some (sec + 120) else none

/-- Some plane of a list is in ESCROW in a sector or in the partner that follows it. -/
def anyEscrow (s : State) (sec : Nat) (planes : List Nat) : Bool :=
  planes.any (fun p => s.planeState sec p == 2 ||
    (match follower s sec with | some q => s.planeState q p == 2 | none => false))

/-- SCHEDULE_APPLY: at a tick boundary an accepted schedule takes effect, unless it would include a plane in escrow (R72). -/
def execScheduleApply (sec : Fin 240) (s : State) : Res :=
  let v := tget (fun _ => 0) s.schedPend sec
  let s1 := { s with schedPend := tset (fun _ => 0) s.schedPend sec 0 }
  if s.slot0 && v != 0 && v < 64 then
    let f := (v - 1) / 8
    let b := (v - 1) % 8
    if anyEscrow s sec (planesOf f b) then ok (s1.raiseF (Reg.SEC_SCHED_STAT_BADSCHED sec))
    else ok ((s1.setF (Reg.SEC_SCHED_FOLD sec) f).setF (Reg.SEC_SCHED_BASE sec) b)
  else ok s

/-! ### Slot registers by reset value -/

/-- Sector, plane, place and word of a configuration key. -/
def keySec (k : Nat) : Nat := k / 320 / 144 / 8
def keyPlane (k : Nat) : Nat := k / 320 / 144 % 8
def keyPlace (k : Nat) : Nat := k / 320 % 144
def keyWord (k : Nat) : Nat := k % 320

/-- The tile at a place of a sector. -/
def tileAt (sec place : Nat) : Tile := tileOf sec (place % 12) (place / 12)

/-- Every slot register of the planes named takes its reset value SRV (Table 3.2, rows 1 and 4). -/
def sregReset (s : State) (hit : Nat → Nat → Bool) : State :=
  let sec := fun (k : Nat) => k / 80 / 144 / 8
  let pl := fun (k : Nat) => k / 80 / 144 % 8
  let keep := s.sreg.filter (fun kv => !hit (sec kv.1) (pl kv.1))
  let ones := (s.cfgw.filter (fun kv =>
      keyWord kv.1 % 4 == 2 && hit (keySec kv.1) (keyPlane kv.1) && (cwInfo kv.2).getLsbD 11)).map
    (fun kv => (sregKey (keySec kv.1) (keyPlane kv.1) (keyPlace kv.1) (keyWord kv.1 / 4), true))
  { s with sreg := tsets (fun _ => false) keep ones }

/-- Row 3 of Table 3.2: at the end of a frame, frame-scoped registers and every register of a G7 sector take their
reset values (R36, R42, R57), 0 in a plane in escrow; those of a held sector stand at them. -/
def sregFrameEnd (s : State) : State :=
  let w2 := fun (k : Nat) => s.cfgInfo (cfgKey (k / 80 / 144 / 8) (k / 80 / 144 % 8) (k / 80 % 144) (4 * (k % 80) + 2))
  let hit := fun (k : Nat) => !s.held (k / 80 / 144 / 8) && (s.isG7 (k / 80 / 144 / 8) || (w2 k).getLsbD 12)
  let keep := s.sreg.filter (fun kv => !hit kv.1)
  let ones := (s.cfgw.filter (fun kv =>
      keyWord kv.1 % 4 == 2 && (cwInfo kv.2).getLsbD 11 && ((cwInfo kv.2).getLsbD 12 || s.isG7 (keySec kv.1)) &&
        !s.held (keySec kv.1) && s.planeState (keySec kv.1) (keyPlane kv.1) != 2)).map
    (fun kv => (sregKey (keySec kv.1) (keyPlane kv.1) (keyPlace kv.1) (keyWord kv.1 / 4), true))
  { s with sreg := tsets (fun _ => false) keep ones }

/-- Row 2 of Table 3.2: the registers of planes in escrow are 0, where the set-reset does not hold their sector. -/
def sregEscrow (s : State) (t : Tab Bool) : Tab Bool :=
  t.filter (fun kv => s.held (kv.1 / 80 / 144 / 8) || s.planeState (kv.1 / 80 / 144 / 8) (kv.1 / 80 / 144 % 8) != 2)

/-- The sector that a wire register belongs to (R102). -/
def wregSector (k : Nat) : Nat := (tileOfKey (k / 72)).sector

/-- Wire registers of the sectors named take 0. -/
def wregClear (s : State) (hit : Nat → Bool) : State :=
  { s with wreg := s.wreg.filter (fun kv => !hit (wregSector kv.1)) }

/-! ### Swaps -/

/-- What a link test that begins in this slot has saved of a sector's wire registers is what the slot before left in them: 0 where the
slot begins a swap (R102, R461). -/
def savedClear (s : State) (sec : Nat) : State :=
  { s with rt := s.rt.map (fun t =>
      if t.start = some s.time.slots then { t with saved := t.saved.filter (fun kv => wregSector kv.1 != sec) } else t) }

/-- What a swap puts into force in one sector: registers of incoming planes, wire registers, hard blocks (R68, R70). -/
def swapSector (s : State) (sec : Nat) (planes : List Nat) (clear : Bool) : State :=
  let s1 := savedClear (wregClear s (· == sec)) sec
  let s2 := rankersSwap s1 sec clear
  if clear then
    matcherClear (macsSwapClear (sregReset s2 (fun q p => q == sec && planes.contains p)) sec planes) sec
  else s2

/-- A refusal recorded in one sector, seen from its own side (R69): `own` tells whether a plane p is in escrow in it. -/
def refuseIn (s : State) (sec plane : Nat) (partnerOnly : Bool) : State :=
  ((((s.raiseF (Reg.SEC_SCHED_STAT_REFUSED sec)).setF (Reg.SEC_SCHED_STAT_REF_PLANE sec) plane).putF
    (Reg.SEC_SCHED_STAT_REF_PAIR sec) partnerOnly).incF (Reg.SEC_SWAP_CNT_REFUSE_CNT sec))

/-- SWAP_REFUSAL (R69): an incoming plane is in escrow. Event 226 is raised once for a slot (R78). -/
def swapRefuse (s : State) (sec plane : Nat) : State :=
  let own := s.planeState sec plane == 2
  let s1 := (refuseIn s sec plane (!own)).clearF (Reg.SEC_SCHED_ARM sec)
  let s2 := match follower s sec with
    | some q => refuseIn s1 q plane (s.planeState q plane != 2)
    | none => s1
  if s.time.refusedAt = some s.time.slots then s2
  else (s2.setTime { s2.time with refusedAt := some s.time.slots }).raiseEv 226

/-- The boundary that WHEN names has come (R67). -/
def swapBoundary (s : State) (sec : Nat) : Bool :=
  match s.getF (Reg.SEC_SCHED_WHEN sec) with
  | 0 => true
  | 1 => s.time.frameStb
  | 2 => s.time.swapGo.getLsbD (s.getF (Reg.SEC_SCHED_GROUP sec))
  | _ => false

/-- SWAP: at the armed boundary the new personality takes effect with clear or resume, or the swap is refused. -/
def execSwap (sec : Fin 240) (s : State) : Res :=
  let fresh := tget (fun _ => false) s.armFresh sec
  if s.slot0 && s.leader sec == sec && s.flag (Reg.SEC_SCHED_ARM sec) && !fresh && swapBoundary s sec then
    let f := s.getF (Reg.SEC_SCHED_NEXT_FOLD sec)
    let b := s.getF (Reg.SEC_SCHED_NEXT_BASE sec)
    let planes := planesOf f b
    match planes.find? (fun p => anyEscrow s sec [p]) with
    | some p => ok (swapRefuse s sec p)
    | none =>
      let clear := !s.flag (Reg.SEC_SCHED_MODE sec)
      let s1 := ((s.setF (Reg.SEC_SCHED_FOLD sec) f).setF (Reg.SEC_SCHED_BASE sec) b).clearF (Reg.SEC_SCHED_ARM sec)
      let s2 := (swapSector s1 sec planes clear).incF (Reg.SEC_SWAP_CNT_SWAP_CNT sec)
      match follower s sec with
      | some q => ok ((swapSector s2 q planes clear).incF (Reg.SEC_SWAP_CNT_SWAP_CNT q))
      | none => ok s2
  else ok s

/-! ### The contention guard -/

/-- The tiles of T0 that hold configuration at their place in either tier. -/
def linkTiles (s : State) : List Nat :=
  (s.cfgw.map (fun kv =>
    let g := tileAt (keySec kv.1) (keyPlace kv.1)
    ({ g with t := 0 } : Tile).key)).eraseDups

/-- The links whose both ends would drive in this slot and that are not yet held, in the order of v, u and link (R106). A link that
a run-time test took out of use (R462) trips like the others (DESIGN CHOICE, log 119). -/
def tripLinks (s : State) : List (Tile × Nat) :=
  let v := s.view
  ((linkTiles s).map tileOfKey).flatMap (fun g =>
    (List.range 48).filterMap (fun n =>
      if !guardHeld s (vlinkKey g n) && v.wouldDrive { g with t := 0 } n && v.wouldDrive { g with t := 1 } n then
        some (g, n) else none))

/-- The tile place (x, y) of the die of a vertical link's key, and the sector of tier 0 that holds it. -/
def linkTile (k : Nat) : Tile := ⟨0, k / 48 % 144, k / 48 / 144⟩

def linkSector (k : Nat) : Nat := (linkTile k).sector

/-- HELD and HELD_CNT of a sector, counted among the held links of its tiles. -/
def heldCount (s : State) (sec : Nat) : State :=
  let n := (s.vheld.filter (fun kv => kv.2.isSome && linkSector kv.1 == sec % 120)).length
  (s.setF (Reg.SEC_VG_CNT_HELD_CNT sec) n).putF (Reg.SEC_VG_STAT_HELD sec) (n != 0)

/-- The trips of one slot recorded in one sector: the first of them captured if TRIP was 0, all of them counted. What was captured
stands in its fields after TRIP is cleared, until the next capture (DESIGN CHOICE, log 118). -/
def recordTrips (s : State) (sec other : Nat) (trips : List (Tile × Nat)) : State :=
  let before := fun (a b : Tile × Nat) =>
    decide (a.1.y % 12 < b.1.y % 12) || (a.1.y % 12 == b.1.y % 12 && (decide (a.1.x % 12 < b.1.x % 12) ||
      (a.1.x % 12 == b.1.x % 12 && decide (a.2 < b.2))))
  match trips with
  | [] => s
  | t0 :: rest =>
    let (g, n) := rest.foldl (fun m t => if before t m then t else m) t0
    let s1 := s.capture (Reg.SEC_VG_STAT_TRIP sec)
      [(Reg.SEC_VG_STAT_U sec, g.x % 12), (Reg.SEC_VG_STAT_V sec, g.y % 12), (Reg.SEC_VG_STAT_LINK sec, n),
       (Reg.SEC_VG_STAT_OWN_PLANE sec, s.plane sec), (Reg.SEC_VG_STAT_PART_PLANE sec, s.plane other)]
    heldCount ((s1.raiseF (Reg.SEC_VG_STAT_TRIP sec)).addF (Reg.SEC_VG_CNT_TRIP_CNT sec) trips.length) sec

/-- GUARD_TRIP (R106): every link that both ends would drive is held from this slot on, the trips are recorded in both
sectors, and event 227 is raised once. -/
def guardTrips (s : State) : State :=
  let trips := tripLinks s
  if trips.isEmpty then s
  else
    let hold := trips.foldl (fun t gn =>
      tset (fun _ => none) t (vlinkKey gn.1 gn.2) (some ⟨s.time.slots, false, false⟩)) s.vheld
    let s1 := { s with vheld := hold }
    let secs := (trips.map (fun gn => ({ gn.1 with t := 0 } : Tile).sector)).eraseDups
    let s2 := secs.foldl (fun acc sec =>
      let mine := trips.filter (fun gn => ({ gn.1 with t := 0 } : Tile).sector == sec)
      recordTrips (recordTrips acc sec (sec + 120) mine) (sec + 120) sec mine) s1
    s2.raiseEv 227

/-- Every held link released (a reset of the device, R107). -/
def releaseLinks (s : State) : State := { s with vheld := [] }

/-! ### Cells and wire registers in one slot -/

/-- The cells whose active plane may write: key and new value of each register written in the slot (rows 5 and 6 of
Table 3.2). A plane in escrow writes nothing. -/
def cellWrites (s : State) : List (Nat × Bool) :=
  let v := s.view
  s.cfgw.filterMap (fun kv =>
    let k := kv.1
    let sec := keySec k
    let p := keyPlane k
    if keyWord k % 4 = 2 && p == s.plane sec && !s.held sec && s.planeState sec p != 2 then
      let c := keyWord k / 4
      (v.cellNext (tileAt sec (keyPlace k)) c).map (fun x => (sregKey sec p (keyPlace k) c, x))
    else none)

/-- WIRE_REGISTER_CAPTURE (R101): each wire register takes what its segment carried, 0 where its sector is held. -/
def wireCapture (s : State) : Tab Bool :=
  let v := s.view
  let tiles := (s.cfgw.filterMap (fun kv =>
    let sec := keySec kv.1
    if keyPlane kv.1 == s.plane sec && !s.held sec then some (tileAt sec (keyPlace kv.1)).key else none)).eraseDups
  let vals := tiles.flatMap (fun tk =>
    let g := tileOfKey tk
    (List.range 72).filterMap (fun m =>
      match stepTile g (segDir m) (segReach m) with
      | none => none
      | some far =>
        if v.rt g (segSelAt m) 11 != 0 && !s.held far.sector && v.capture g m then
          some (wregKey far m, true) else none))
  tsets (fun _ => false) [] vals

/-- The fabric in one slot: registers written, set-reset values held, wire registers captured, all from the state
before the slot. -/
def fabricSlot (s0 s : State) : State :=
  let s1 := { s with sreg := sregEscrow s0 (tsets (fun _ => false) s.sreg (cellWrites s0)), wreg := wireCapture s0 }
  sregReset s1 (fun sec _ => s0.held sec)

end Sys2Proof.Machine
end

