-- ==== Sys2Proof/Machine/Reset.lean ====
section
/-!
DEFINITION. Reset and start-up (20_reset_startup.md): what a reset leaves, the causes, RESET_N, the start, block resets and
ALARM_N; and the passing of always-on time.
-/

namespace Sys2Proof.Machine

/-! ### Always-on time -/

/-- The watchdog counts: enabled, and neither a debug halt nor HOLD nor an integrity halt stops it (R380). -/
def wdtRuns (s : State) : Bool :=
  s.flag Reg.WDT_CTRL_EN && !s.dbgHalt && s.phase != .hold && s.phase != .integrity && s.phase != .unpowered

/-- The state whose residency counter runs (R426): 0 RUN, 1 HOLD, 2 KEEP, 3 OFF. A cause that is latched ends HOLD (R423). -/
def residencyOf (s : State) : Nat :=
  match s.phase with
  | .hold => if s.wakes = 0 then 1 else 0
  | .keep => 2
  | .off => 3
  | _ => s.aon.wakeFrom

/-- The MREF settle wait that strap bits 2:1 select, in windows of 1 ms; without a wait one stable window suffices (R387, R402). -/
def strapWait (s : State) : Nat :=
  match s.getF Reg.RST_STRAP_CODE / 2 % 4 with
  | 0 => 1
  | 1 => 10
  | 2 => 100
  | _ => 1000

/-- MUX_BUSY: the AON multiplexer has a change to make, to XO once that is ready and to RCO at once, or the root's hangs (R385, R390). -/
def muxBusy (s : State) : State :=
  s.putF Reg.CLK_STAT_MUX_BUSY (s.clk.hang || (s.flag Reg.CLK_CTRL_AON_SRC != s.clk.aonXo && (!s.flag Reg.CLK_CTRL_AON_SRC || s.clk.xo)))

/-- XO passes the monitor while it is ready, RCO while both are (R391). -/
def xoPasses (s : State) : Bool := s.clk.xo && !s.clk.tripped.contains 0
def rcoPasses (s : State) : Bool := s.clk.rco && s.clk.xo && !s.clk.tripped.contains 1

/-- The oscillators as CLK_STAT reports them (R383 to R385, R391). -/
def oscReport (s : State) : State :=
  ((((s.putF Reg.CLK_STAT_RCO_READY s.clk.rco).putF Reg.CLK_STAT_XO_READY s.clk.xo).putF Reg.CLK_STAT_XO_OK (xoPasses s)).putF
    Reg.CLK_STAT_RCO_OK (rcoPasses s)).putF Reg.CLK_STAT_AON_NOW s.clk.aonXo

/-- MREF as CLK_STAT and CLK_MREF report it (R387). -/
def mrefReport (s : State) : State :=
  ((s.setF Reg.CLK_MREF_FREQ (s.clk.mref.getD 0)).putF Reg.CLK_STAT_MREF_OK (s.clk.mref.isSome && !s.clk.tripped.contains 2)).putF
    Reg.CLK_STAT_MREF_SETTLED (s.clk.mref.isSome && decide (strapWait s ≤ s.clk.stable))

/-- The sources as the CLK block reports them; a reset clears its fields, and the sources run on through it (R398; log 121). -/
def clkReport (s : State) : State := muxBusy (mrefReport (oscReport s))

/-- The inputs as PWR_VMON reports them at all times (R412). -/
def vmonReport (s : State) : State := (s.setF Reg.PWR_VMON_VIN s.aon.vmon.1).setF Reg.PWR_VMON_VAUX s.aon.vmon.2

/-- The lowest codes of VF, VT and VS for a VCO in kHz (Table 21.3). -/
def minCodes (khz : Nat) : Nat × Nat × Nat :=
  if khz ≤ 6400000 then (24, 20, 24) else if khz ≤ 7040000 then (32, 28, 32)
  else if khz ≤ 7680000 then (40, 36, 40) else (46, 42, 46)

/-- The VCO in kHz. -/
def vcoKhz (refHz m : Nat) : Nat := refHz * m / 1000

/-- The VCO that sets the minima: the higher of old and new while a switch is in progress (R415). -/
def voltVco (s : State) : Nat :=
  let now := vcoKhz s.refHz s.rootM
  match s.clk.ramp with
  | none => now
  | some _ => max now (vcoKhz s.clk.nextHz s.clk.next.2)

/-- The applied setpoints as codes of VF, VT and VS. -/
def setpoints (s : State) : Nat × Nat × Nat :=
  (s.getF Reg.PWR_VNOW_VF_NOW, s.getF Reg.PWR_VNOW_VT_NOW, s.getF Reg.PWR_VNOW_VS_NOW)

/-- SLEW reads 1 while a rail is on its way to its setpoint (R415). -/
def slewShow (s : State) : State := s.putF Reg.PWR_VNOW_SLEW (s.aon.rails != setpoints s)

/-- Applied setpoints: the larger of request and minimum (R415). -/
def applyVolts (s : State) (khz : Nat) : State :=
  let m := minCodes khz
  slewShow (((s.setF Reg.PWR_VNOW_VF_NOW (max (s.getF Reg.PWR_VSET_VF_REQ) m.1)).setF Reg.PWR_VNOW_VT_NOW
    (max (s.getF Reg.PWR_VSET_VT_REQ) m.2.1)).setF Reg.PWR_VNOW_VS_NOW (max (s.getF Reg.PWR_VSET_VS_REQ) m.2.2))

/-- A rail moves towards its setpoint by at most `d` codes. -/
def railMove (d now set_ : Nat) : Nat := if now < set_ then min set_ (now + d) else max set_ (now - d)

/-- The adjustable rails in `dt` AON ticks: the setpoints that stand apply, and each rail slews by 10 mV, two codes, in a tick (R415,
R416). The rails are off while VB is. -/
def railsPass (s : State) (dt : Nat) : State :=
  if s.aon.vb then
    let s1 := applyVolts s (voltVco s)
    let g := setpoints s1
    let r := s1.aon.rails
    slewShow { s1 with aon := { s1.aon with rails :=
      (railMove (2 * dt) r.1 g.1, railMove (2 * dt) r.2.1 g.2.1, railMove (2 * dt) r.2.2 g.2.2) } }
  else s

/-- AON ticks pass: time, residency and the watchdog count move, a count stops at 0, rails move, the sources and inputs are reported
(R362, R379, R411, R415, R426). -/
def aonPass (s : State) (dt : Nat) : State :=
  if s.phase = .unpowered ∨ dt = 0 then s
  else
    let m := residencyOf s
    let a := s.aon
    let s1 := { s with aon := { a with ticks := a.ticks + dt, res := a.res.set m ((a.res.getD m 0 + dt) % 2 ^ 64),
                                       vinFor := if a.vinOk then a.vinFor + dt else 0 } }
    let s2 := if wdtRuns s then s1.setF Reg.WDT_STAT_COUNT (s1.getF Reg.WDT_STAT_COUNT - dt) else s1
    vmonReport (clkReport (railsPass s2 dt)).newAonTick

/-- The watchdog resumes after a debug halt or HOLD with at least 1,024 ticks (R380). -/
def wdtThaw (s : State) : State :=
  let s1 := s.clearF Reg.WDT_STAT_FROZEN
  if s1.flag Reg.WDT_CTRL_EN && s1.getF Reg.WDT_STAT_COUNT < 1024 then s1.setF Reg.WDT_STAT_COUNT 1024 else s1

/-- The watchdog freezes. -/
def wdtFreeze (s : State) : State := s.putF Reg.WDT_STAT_FROZEN (s.flag Reg.WDT_CTRL_EN)

/-! ### What a reset leaves -/

/-- ALARM_N is driven low (R409). -/
def alarmDue (s : State) : Bool :=
  s.phase == .integrity || s.phase == .bistHeld || s.aon.alarm || s.flag Reg.RST_ALARM_FW

/-- RST_ALARM.PIN follows its conditions. -/
def setAlarm (s : State) : State := s.putF Reg.RST_ALARM_PIN (alarmDue s)

/-- Fields of a list carried over from one state to another. -/
def keepFields (old s : State) (fs : List Field) : State := fs.foldl (fun acc f => acc.setF f (old.getF f)) s

/-- What no reset but POWER_ON changes: the fields marked always-on (R398). -/
def alwaysOn : List Field :=
  [Reg.RST_CAUSE_CAUSE, Reg.RST_CAUSE_SUB, Reg.RST_CAUSE_CUR, Reg.VLT_HALT0_SUBCODE, Reg.VLT_HALT0_LANE, Reg.VLT_HALT0_UNIT, Reg.VLT_HALT1_LINE,
   Reg.THM_TRIP_SUB, Reg.THM_TRIP_SENSOR, Reg.CLK_FLAG_XO_FAIL, Reg.CLK_FLAG_TRIP, Reg.CLK_STAT_TRIP_SRC, Reg.CLK_CNT_TRIP_CNT]

/-- Registers of the PWR block that KEEP, OFF and a wake keep (chapter 21). -/
def pwrKept : List Field :=
  [Reg.PWR_STATUS_LAST_WAKE, Reg.PWR_STATUS_WAKE_SRC, Reg.PWR_STATUS_ENTERING, Reg.PWR_STATUS_REFUSED, Reg.PWR_STATUS_REF_BLOCK,
   Reg.PWR_STATUS_REF_WHY, Reg.PWR_WAKE_TIMER_EN, Reg.PWR_WAKE_GPIO_EN, Reg.PWR_WAKE_LANE_EN, Reg.PWR_WTIME_TICKS,
   ⟨Reg.PWR_RES_HI 0, 31, 0⟩, ⟨Reg.PWR_RES_HI 1, 31, 0⟩, ⟨Reg.PWR_RES_HI 2, 31, 0⟩, ⟨Reg.PWR_RES_HI 3, 31, 0⟩]

/-- What of the thermal sensing runs on through a reset and every power state (R430, R438): the time, the hot and the fast-rising sensors of
the last sample with the readings behind them, and the cooling count. -/
def thKept (t : Thermal) : Thermal := { Thermal.reset with hist := t.hist, now := t.now, hot := t.hot, rated := t.rated, cool := t.cool }

/-- A sensor on the always-on rail: a base-die sensor or a sentinel (Table 22.1). -/
def sensorAlwaysOn (n : Nat) : Bool := (decide (240 ≤ n) && decide (n < 256)) || [146, 153, 206, 213].contains n

/-- Everything at its reset value but what survives every reset and the model's own fields: fuses and a burn in progress,
flash, the service pins, the clock sources, the course of the sensors' readings. -/
def blank (s : State) (p : Phase) (kept : List Field) : State :=
  let s1 := { State.reset with
    pending := s.pending, resp := s.resp, fresh := s.fresh, phase := p, fuses := s.fuses, flash := s.flash, aon := s.aon,
    clk := { s.clk with ramp := none, hang := false }, th := thKept s.th, tapIr := s.tapIr,
    dbg := { s.dbg with wait := none, i2c := false, resume := false } }
  let s2 := keepFields s s1 kept
  (s2.setF Reg.CLK_TCODE_CODE (Config.trimCode 0).toNat).putF Reg.VLT_STAT_FUSE_BUSY (s.fuses.burning != 0)

/-- The causes of Table 20.1 in the order of R399. -/
def causeOrder : List Nat := [1, 6, 9, 5, 10, 4, 3, 2, 8, 7]

/-- The first in order of a cause that waits and a new one. -/
def firstCause (old : Option (Nat × Nat)) (new : Nat × Nat) : Nat × Nat :=
  match old with
  | none => new
  | some o => if causeOrder.findIdx (· == o.1) ≤ causeOrder.findIdx (· == new.1) then o else new

/-- The clock sources at a reset: RCO runs, or starts where it was asleep; XO, and AON from it, only where XO_FAIL is 0, and an XO that was
stopped starts again; the strap wait begins anew (R384, R387, R403). -/
def clocksReset (s : State) : Clocks :=
  let fail := s.flag Reg.CLK_FLAG_XO_FAIL
  { s.clk with xo := s.clk.xo && !fail, xoStop := fail, aonXo := s.clk.aonXo && !fail, stable := 0,
               tripped := if fail || s.clk.xoStop then s.clk.tripped.filter (· != 0) else s.clk.tripped, ramp := none, hang := false }

/-- RST_CAUSE takes the cause of the reset that leads to the start; a wake writes none (R399). -/
def causeWrite (s : State) : State :=
  match s.aon.cause with
  | some (c, sub) => ((s.setF Reg.RST_CAUSE_CAUSE c).setF Reg.RST_CAUSE_SUB sub).clearF Reg.RST_CAUSE_CUR
  | none => s

/-- The oscillators that a start needs are ready: RCO, and XO where RCO has tripped (R383, R392). -/
def clocksReady (s : State) : Bool := s.clk.rco && (!s.clk.tripped.contains 1 || s.clk.xo)

/-- A start that begins at step 2 begins as soon as RESET_N is high, the device has cooled and the fall-back source is ready; STEP shows it,
and RST_CAUSE is written (R397, R399, R403). -/
def stepTwo (s : State) : State :=
  if s.phase == .waiting && decide (s.getF Reg.RST_STAGE_STEP ≤ 1) && !s.aon.resetLow && !s.aon.hot && clocksReady s then
    causeWrite (s.setF Reg.RST_STAGE_STEP 2)
  else s

/-- A reset acts (R397): all activity outside the always-on domain ends and the device waits for its start. ALARM_N stays low after an
integrity halt or a thermal shutdown (R409). -/
def deviceReset (s : State) (cause sub : Nat) : State :=
  let a := { s.aon with ticks := 0, res := [0, 0, 0, 0], cause := some (firstCause s.aon.cause (cause, sub)), wakeFrom := 0,
                        retained := [], bistAt := (0, 0), entry := 0, alarm := s.aon.alarm || s.phase == .integrity }
  stepTwo (setAlarm { blank s .waiting alwaysOn with aon := a, clk := clocksReset s })

/-- A source of reset that acts while the device waits for a start, starts, runs or holds. -/
def State.resettable (s : State) : Bool := s.phase == .waiting || s.phase == .start || s.phase == .run || s.phase == .hold

/-! ### Power and RESET_N -/

/-- POWER_ON: VAUX rises through its valid level. Fuses and flash survive (R398). -/
def execPowerOn (s : State) : Res :=
  okIf (s.phase == .unpowered) s
    (({ State.reset with pending := s.pending, resp := s.resp, fresh := s.fresh, fuses := s.fuses, flash := s.flash,
                         aon := { Aon.reset with resetLow := s.aon.resetLow } }.setF Reg.CLK_TCODE_CODE (Config.trimCode 0).toNat).setF
      Reg.RST_STAGE_STEP 1)

/-- LOSS_OF_POWER: VAUX is lost; a burn in progress is cut off (R299, R412). -/
def execLossOfPower (s : State) : Res :=
  if s.phase = .unpowered then ok s
  else
    let s1 := cutBurn s
    ok { State.reset with pending := s.pending, resp := s.resp, fresh := s1.fresh, fuses := s1.fuses, flash := s.flash,
                          phase := .unpowered, aon := { Aon.reset with resetLow := s.aon.resetLow } }

/-- RESET_N_ASSERT: RESET_N is recognised low; it ends an integrity halt with that halt's subcode (R397, R400). -/
def execResetNAssert (s : State) : Res :=
  if s.phase = .unpowered ∨ s.aon.resetLow then ok s
  else
    let s0 := cutBurn { s with aon := { s.aon with resetLow := true } }
    ok (if s.phase = .integrity then deviceReset s0 6 (s.getF Reg.VLT_HALT0_SUBCODE) else deviceReset s0 2 0)

/-- RESET_N_RELEASE: RESET_N has read high for 2 µs. -/
def execResetNRelease (s : State) : Res := ok (stepTwo { s with aon := { s.aon with resetLow := false } })

/-- FIRMWARE_RESET: a locked write of RST_FULL.GO (R410). -/
def firmwareReset (s : State) (v : Word32) : State := if v.getLsbD 0 then deviceReset s 7 0 else s

def execFirmwareReset (id : Fin 1024) (v : Word32) (s : State) : Res :=
  if s.alive then answerWrite (lockedWrite s 2 id.val (fun t => firmwareReset t v)) else ok s

/-- VIN_LOSS: VIN is lost while VAUX stays valid, and the rails with it; KEEP and OFF do not watch it, and the held states end only by
RESET_N or the removal of power (R315, R404, R412). -/
def execVinLoss (s : State) : Res :=
  let s1 := vbDown { s with aon := { s.aon with vinOk := false, vinFor := 0 } }
  if s.resettable then ok (deviceReset s1 10 0) else okIf (s.phase == .bistHeld || s.phase == .integrity) s s1

/-- SYSRST: a debug reset request (R453). -/
def execSysrst (s : State) : Res := okIf (servicePins s && s.resettable) s (deviceReset s 8 0)

/-! ### The start -/

/-- The strap code of a converter reading (R401): round(15·RAW/255). -/
def strapCode (raw : Nat) : Nat := (2 * 15 * raw + 255) / 510

/-- The code given most often, the lower one on a tie. -/
def strapMode (codes : List Nat) : Nat :=
  (List.range 16).foldl (fun best c => if codes.count best < codes.count c then c else best) 0

/-- The strap is measured from 16 samples (R401). -/
def measureStrap (s : State) (raws : List Byte) : State :=
  let codes := raws.map (fun r => strapCode r.toNat)
  let code := strapMode codes
  ((s.setF Reg.RST_STRAP_CODE code).setF Reg.RST_STRAP_RAW ((raws.map (·.toNat)).getLastD 0)).putF Reg.RST_STRAP_UNSTABLE
    (codes.any (· != code))

/-- The root runs on XO, or on RCO where XO has failed, with M = 150 (R386). -/
def bootRoot (s : State) : State :=
  let rco := s.flag Reg.CLK_FLAG_XO_FAIL
  let s1 := (((s.raiseF Reg.CLK_STAT_LOCK).setF Reg.CLK_STAT_SRC_NOW (if rco then 2 else 0)).setF Reg.CLK_STAT_M_NOW 150)
  { s1 with clockOn := true, refHz := 50000000, rootM := 150, time := { s1.time with tickSlots := 48 },
            aon := { s1.aon with vb := true, rails := setpoints s1 } }

/-- Step 2: the cause is recorded (a wake writes none), the rails come up, fuses are read, the root key reconstructed, the generator
instantiated (R296, R297, R303, R345, R399). -/
def startStep2 (s : State) (rootOk rngOk : Bool) : State :=
  let s1 := bootRoot (clkReport (causeWrite (s.setF Reg.RST_STAGE_STEP 2)))
  let s2 := { s1 with phase := .start, aon := { s1.aon with cause := none, startAt := s.aon.ticks, alarm := false } }
  let s3 := ((s2.setF Reg.VLT_STAT_OKEY_STATE (okeyStateOf s.fuses)).putF Reg.VLT_STAT_ROOT_OK rootOk).putF
    Reg.VLT_STAT_RNG_OK rngOk |> fun t => if rngOk then t else (t.raiseF Reg.VLT_STAT_RNGFAIL).raiseEv 202
  let s4 := s3.setF Reg.CFG_FLOOR_FLOOR (floorOf s.fuses.floor)
  setAlarm (if rootOk then s4 else s4.raiseEv 200)

/-- Step 5 begins: the loader checks the copies, or waits for the service port (R328, R330). -/
def startStep5 (s : State) : State :=
  let s1 := s.setF Reg.RST_STAGE_STEP 5
  if (s.getF Reg.RST_STRAP_CODE).testBit 3 then s1 else s1.setF Reg.CFG_STAT_STATE 2

/-- A failure of step 3 or 4: the device stays held with cause BIST (R404). -/
def bistFailed (s : State) (sub path index : Nat) : State :=
  let s1 := { s with phase := .bistHeld, clockOn := false, aon := { s.aon with cause := some (9, sub), bistAt := (path, index) } }
  let s2 := ((s1.setF Reg.RST_CAUSE_CAUSE 9).setF Reg.RST_CAUSE_SUB sub).setF Reg.RST_STAGE_STEP 15
  setAlarm (if sub = 3 ∧ path = 7 then (s2.raiseF (Reg.MEMC_STAT_FILLFAIL (index % 16))).raiseEv (180 + index % 16) else s2)

/-- The conditions on which step 2 of a start ends `dt` AON ticks on, as far as the state holds them: RESET_N high, cooled down, RCO ready,
XO ready or failed, the fall-back source ready, VIN valid for 20 ms (R392, R397, R403, R411, R439). -/
def startReady (s : State) (dt : Nat) : Bool :=
  s.phase == .waiting && !s.aon.resetLow && !s.aon.hot && clocksReady s && (s.clk.xo || s.flag Reg.CLK_FLAG_XO_FAIL) &&
    s.aon.vinOk && decide (20000 ≤ s.aon.vinFor + dt)

/-- The spares of a group in use: 1 + the working link moved onto link 48, then 64 times the same for link 49. -/
def spareUser (m n : Nat) : Option Nat :=
  let u := if n = 48 then m % 64 else m / 64
  if u = 0 then none else some (u - 1)

def spareSet (m n link : Nat) : Nat := if n = 48 then m / 64 * 64 + (link + 1) else m % 64 + 64 * (link + 1)

/-- The working links of a group of a path (R8). -/
def groupLinks (path : Nat) : Nat := if path = 2 then 44 else 48

/-- The key of a group in the repair map: tile vertical groups by their INDEX, the groups of the other paths above them. -/
def groupKey (g : Nat × Nat) : Nat := if g.1 = 1 then g.2 else 2 ^ 20 * g.1 + g.2

/-- The links that fail in a group, each named once. -/
def groupBad (bad : List (Nat × Nat × Nat)) (g : Nat × Nat) : List Nat :=
  ((bad.filter (fun e => (e.1, e.2.1) == g)).map (fun e => e.2.2)).eraseDups

/-- The failing working links of a group, each with the passing spare it moves onto (the first spare as 48, the second as 49). -/
def groupMoves (bad : List (Nat × Nat × Nat)) (g : Nat × Nat) : List (Nat × Nat) :=
  let fails := groupBad bad g
  let w := groupLinks g.1
  (fails.filter (fun l => decide (l < w))).zip (([0, 1].filter (fun n => !fails.contains (w + n))).map (48 + ·))

/-- Power-on BIST moves the failing working links of a group of at most two failing links onto its spares (R8). -/
def postMove (bad : List (Nat × Nat × Nat)) (s : State) (g : Nat × Nat) : State :=
  { s with spares := tset (fun _ => 0) s.spares (groupKey g) ((groupMoves bad g).foldl (fun m e => spareSet m e.2 e.1) 0) }

/-- The groups that have a failing link, in the order in which the test finds them. -/
def badGroups (bad : List (Nat × Nat × Nat)) : List (Nat × Nat) := (bad.map (fun e => (e.1, e.2.1))).eraseDups

/-- The repair of step 3: the map, and in BIST_POST the groups that use a spare and the links moved (R459). -/
def postRepair (s : State) (bad : List (Nat × Nat × Nat)) : State :=
  let moves := (badGroups bad).map (groupMoves bad)
  (((badGroups bad).foldl (postMove bad) s).setF Reg.BIST_POST_GROUPS_REP (moves.filter (fun m => !m.isEmpty)).length).setF
    Reg.BIST_POST_LINKS_REP (moves.map List.length).sum

/-- The failure that holds the device, as its subcode, PATH and INDEX: a pin, a group with more than two failing links, a channel whose
calibration or fill fails, or a fill write to a bank, a teller RAM or steward RAM that times out, which has no place in Table 23.6 (R266,
R292, R404, Table 23.6). -/
def startFailure (pin : Option Nat) (bad : List (Nat × Nat × Nat)) (fill : Option (Option (Fin 16))) : Option (Nat × Nat × Nat) :=
  match pin, (badGroups bad).find? (fun g => decide (2 < (groupBad bad g).length)), fill with
  | some p, _, _ => some (1, 7, p)
  | none, some g, _ => some (2, g.1, g.2)
  | none, none, some (some c) => some (3, 7, c.val)
  | none, none, some none => some (3, 0, 0)
  | none, none, none => none

/-- DEVICE_START: steps 1 to 4 of a start and the beginning of step 5, `dt` AON ticks after the last always-on command: the
16 strap samples, whether the root key is reconstructed and the generator healthy, and what BIST and the fill find: the first
failing ball, the failing die-to-die links as PATH, INDEX and number in the group in the order in which they are found, and the memory
channel that fails, or that a fill write over the network fails (R8, R266, R403, R404, R459). -/
def execDeviceStart (dt : Nat) (raws : List Byte) (rootOk rngOk : Bool) (pin : Option Nat) (bad : List (Nat × Nat × Nat))
    (fill : Option (Option (Fin 16))) (_ _ _ : Unit) (s : State) : Res :=
  if startReady s dt then
    let s1 := (startStep2 (aonPass (measureStrap s raws) dt) rootOk rngOk).setF Reg.RST_STAGE_STEP 3
    match startFailure pin bad fill with
    | none => ok (startStep5 ((postRepair s1 bad).setF Reg.RST_STAGE_STEP 4))
    | some (sub, path, index) => ok (bistFailed s1 sub path index)
  else ok s

/-- The state at the end of BIST, which a failed full load returns to, with the memory fill repeated (R329): every plane
EMPTY, no key, no window, registers at their reset values but those that the start itself has set. -/
def endOfBist (s : State) : State :=
  let kept := alwaysOn ++ pwrKept ++
    [Reg.RST_STRAP_CODE, Reg.RST_STRAP_RAW, Reg.RST_STRAP_UNSTABLE, Reg.RST_STAGE_STEP, Reg.RST_ALARM_PIN, Reg.CLK_STAT_LOCK,
     Reg.CLK_STAT_SRC_NOW, Reg.CLK_STAT_M_NOW, Reg.CLK_CNT_SWITCH_CNT, Reg.VLT_STAT_OKEY_STATE, Reg.VLT_STAT_ROOT_OK, Reg.VLT_STAT_RNG_OK,
     Reg.VLT_STAT_RNGFAIL, Reg.CFG_FLOOR_FLOOR, Reg.BIST_POST_GROUPS_REP, Reg.BIST_POST_LINKS_REP, Reg.THM_STAT_FAST, Reg.THM_STAT_HOT,
     Reg.THM_POWER_P_TOT, Reg.THM_POWER_P_FIX, Reg.DBG_STAT_ACC_BUSY, Reg.DBG_STAT_ACC_RESP, Reg.PWR_VMON_VIN, Reg.PWR_VMON_VAUX]
  let s1 := blank s .start kept
  let temps := (List.range 272).foldl (fun acc n => acc.setReg (Reg.THM_TEMP n) (s.reg (Reg.THM_TEMP n))) s1
  let keepBank := fun (b : Nat) => s.aon.retained.contains b
  let wake := if s.aon.wakeFrom = 2 then
      (List.range 144).foldl (fun acc n => keepFields s acc [Reg.LN_WAKE_SEEN n, Reg.LN_WAKE_CLASS n, Reg.LN_WAKE_EN n]) temps
    else temps
  let bcfg := s.aon.retained.foldl (fun acc b => acc.setReg (Reg.SEC_BCFG (b / 8) (b % 8)) (s.reg (Reg.SEC_BCFG (b / 8) (b % 8)))) wake
  (List.range 16).foldl hotFollows <| clkReport
    { bcfg with
      clk := s.clk, cyc := s.cyc, clockOn := s.clockOn, refHz := s.refHz, rootM := s.rootM, vdead := s.vdead, spares := s.spares, th := s.th,
      raised := s.raised,
      time := { TimeState.reset with slots := s.time.slots, vco := s.time.vco, off := s.time.off, inTick := s.time.inTick, tick := s.time.tick },
      bmem := s.bmem.filter (fun kv => keepBank (kv.1 / 4096)),
      bsel := s.bsel.filter (fun kv => keepBank (kv.1 / 2048)),
      outst := s.outst.filter (fun o => o.id == 0x204), quar := s.quar, dbg := s.dbg }

/-! ### Block reset -/

/-- BLOCK_RESET as a write of RST_BLK with GO = 1 (R406). -/
def blockReset (s : State) (sec : Nat) : State :=
  let refuse := fun (why : Nat) =>
    (((s.raiseF Reg.RST_BSTAT_REFUSED).setF Reg.RST_BSTAT_REF_WHY why).setF Reg.RST_BSTAT_LAST sec).raiseEv 212
  if 240 ≤ sec then refuse 3
  else if s.blk.isSome then refuse 2
  else if !(s.napFenced sec && napIdle s sec) then refuse 1
  else { s.raiseF Reg.RST_BLK_BUSY with blk := some (sec, 65) }

/-- BLOCK_RESET. -/
def execBlockReset (sec : Fin 256) (s : State) : Res :=
  if s.alive then ok (blockReset (s.setF Reg.RST_BLK_SECTOR sec.val) sec.val) else ok s

/-- A slot of a block reset is over: the reset of a request of that slot is due (66), a slot of one in force has run. -/
def blkSlot (s : State) : State :=
  match s.blk with
  | some (sec, 65) => { s with blk := some (sec, 66) }
  | some (sec, n) => { s with blk := some (sec, n - 1) }
  | none => s

/-- A block reset takes hold with the slot that begins, the one after its request: the frame is tainted, the teller stops, MAC blocks,
rankers and the matcher stand at their reset values (R406, R407). -/
def blkBegin (s : State) : State :=
  match s.blk with
  | some (sec, 66) => matcherClear (tlrReset { s.taintSector sec with blk := some (sec, 64) } sec) sec
  | _ => s

/-- BLOCK_RESET_END: 64 slots have run. -/
def execBlockResetEnd (s : State) : Res :=
  match s.blk with
  | some (sec, 0) =>
    ok ((({ s.clearF Reg.RST_BLK_BUSY with blk := none }.raiseF Reg.RST_BSTAT_DONE).setF Reg.RST_BSTAT_LAST sec).raiseEv 212)
  | _ => ok s

end Sys2Proof.Machine
end

