-- ==== Sys2Proof/Machine/Scrub.lean ====
section
/-!
DEFINITION. Scrubbing and upset handling (17_scrubbing.md): the sweep of a sector's engine, the parameter store, findings, and
what a sector does while it is under repair.
-/

namespace Sys2Proof.Machine

def State.scrubOf (s : State) (sec : Nat) : Scrub := tget (fun _ => Scrub.reset) s.scrub sec

def State.setScrub (s : State) (sec : Nat) (x : Scrub) : State :=
  { s with scrub := tset (fun _ => Scrub.reset) s.scrub sec x }

/-- Words of a sector, and the block with number `blk` of the device: sector·1,152 + L (R348). -/
def sweepWords : Nat := 368640

def blockSec (b : Nat) : Nat := b / 1152
def blockPlane (b : Nat) : Nat := b % 1152 / 144

/-! ### Triplicated values -/

/-- Bitwise majority of three. -/
def major3 (a b c : Nat) : Nat := (a &&& b) ||| (a &&& c) ||| (b &&& c)

def pstoreReset (k : Nat) : Word32 := if k % 64 = 0 then 0x80000000#32 else 0

/-- Copy c of word w of the parameter store. -/
def pcopy (s : State) (sec c w : Nat) : Word32 := tget pstoreReset s.pstore (64 * (3 * sec + c) + w)

/-- The voted value of a store word (R350). -/
def pread (s : State) (sec w : Nat) : Nat := major3 (pcopy s sec 0 w).toNat (pcopy s sec 1 w).toNat (pcopy s sec 2 w).toNat

/-- All three copies of a store word written. -/
def pwrite (s : State) (sec w v : Nat) : State :=
  { s with pstore := (List.range 3).foldl (fun t c => tset pstoreReset t (64 * (3 * sec + c) + w) (BitVec.ofNat 32 v)) s.pstore }

/-- POLICY as it acts: 3 acts as 0. -/
def policyOf (s : State) (sec : Nat) : Nat := let p := pread s sec 0 % 4; if p = 3 then 0 else p

/-- An access is about to write a policy: what stands is kept for the rest of the slot, as a boundary of slot 0 samples it (R14, R356). -/
def keepPolicy (s : State) (sec : Nat) : State :=
  if s.logs && !(s.cyc.pols.any (fun x => x.1 == sec)) then
    { s with cyc := { s.cyc with pols := tset (fun _ => none) s.cyc.pols sec (some (policyOf s sec)) } }
  else s

/-- A register write of word 0 (PCTL) or 1 (PTHR); reserved bits and words stay 0. -/
def pstoreWrite (s : State) (sec w : Nat) (v : Word32) : State :=
  match w with
  | 0 => pwrite (keepPolicy s sec) sec 0 (v &&& 0x80000003#32).toNat
  | 1 => pwrite s sec 1 (v &&& 0x0000FFFF#32).toNat
  | _ => s

/-- A register read of a store word: the reserved words 2 to 63 read 0. -/
def pstoreRead (s : State) (sec w : Nat) : Nat := if w < 2 then pread s sec w else 0

def scrubEn (s : State) (sec : Nat) : Bool := (pread s sec 0).testBit 31

/-- The voted sweep index (R351). -/
def sweepAt (s : State) (sec : Nat) : Nat :=
  let c := fun (i : Nat) => tget (fun _ => 0) s.sweepIdx (3 * sec + i)
  major3 (c 0) (c 1) (c 2)

/-- All three copies of the sweep index take a value. -/
def sweepCopies (s : State) (sec i : Nat) : State :=
  { s with sweepIdx := (List.range 3).foldl (fun t c => tset (fun _ => 0) t (3 * sec + c) i) s.sweepIdx }

def setSweep (s : State) (sec i : Nat) : State := sweepCopies (s.setF (Reg.SCRB_SPOS_POS sec) i) sec i

/-- The voted loaded bit of a block (R353). -/
def blockLoaded (s : State) (b : Nat) : Bool :=
  let x := tget (fun _ => 0) s.loaded b
  1 < (x.testBit 0).toNat + (x.testBit 1).toNat + (x.testBit 2).toNat

/-! ### Repair -/

def scrubState (s : State) (sec : Nat) : Nat := s.getF (Reg.SCRB_SSTAT_STATE sec)

/-- The global set-reset takes hold of a sector: everything it holds is at its reset value from this slot on (R93, R355). -/
def holdBegin (s : State) (sec : Nat) : State :=
  let s1 := s.raiseF (mapBit (Reg.SCRB_HELD ·) sec)
  accHeld (matcherClear (wregClear (sregReset s1 (fun x _ => x == sec)) (· == sec)) sec)

/-- The slot in which a sector leaves FAILED: with refetches of other blocks pending it is in REPAIR, and stays held under HOLD alone
(R355, R357, R358). -/
def leaveFailed (s : State) (sec : Nat) : State :=
  let x := s.scrubOf sec
  if scrubState s sec ≠ 2 ∨ x.failed.isEmpty = false then s
  else
    let s1 := s.setF (Reg.SCRB_SSTAT_STATE sec) (if x.pend.isEmpty then 0 else 1)
    if x.policy = 0 ∧ x.pend.isEmpty = false then s1 else s1.clearF (mapBit (Reg.SCRB_HELD ·) sec)

/-- Effects due by the present slot (Scrub.due). -/
def dueStep (s : State) (sec : Nat) : State :=
  let x := s.scrubOf sec
  let now := x.due.filter (fun e => decide (e.1 ≤ s.time.slots))
  let s1 := s.setScrub sec { x with due := x.due.filter (fun e => !decide (e.1 ≤ s.time.slots)) }
  now.foldl (fun acc e =>
    match e.2 with
    | 0 => acc.taintSector sec
    | 1 => holdBegin (acc.taintSector sec) sec
    | 2 => acc.clearF (mapBit (Reg.SCRB_HELD ·) sec)
    | 3 => holdBegin acc sec
    | _ => leaveFailed acc sec) s1

/-- What the slot that begins brings, once no tick boundary waits: effects due at it and a block reset of a request of the slot before. -/
def slotBegins (s : State) : State :=
  if s.tickOver then s else blkBegin ((s.scrub.map (fun kv => kv.1)).foldl dueStep s)

/-- The loader's queue of refetches, which RFX_BUSY shows. -/
def setRfxq (s : State) (q : List Nat) : State :=
  { s with ld := { s.ld with rfxq := q } }.putF Reg.CFG_STAT_RFX_BUSY (!q.isEmpty)

/-- An uncorrectable word found in a loaded block (R354): UADDR, flags and count, taint (and hold) from slot 2c + 4, a refetch
unless one is pending. -/
def uncFound (s : State) (sec key : Nat) (policy : Nat) : State :=
  let b := key / 320
  let x := s.scrubOf sec
  let c := s.tlrCycle
  let s1 := s.capture (Reg.SCRB_SSTAT_UNCORR sec)
    [(⟨Reg.SCRB_SUADDR sec, 31, 0⟩, blockPlane b * 2 ^ 17 + b % 144 / 12 * 2 ^ 13 + b % 12 * 2 ^ 9 + key % 320)]
  let s2 := (((s1.raiseF (Reg.SCRB_SSTAT_UNCORR sec)).incF (Reg.SCRB_SCNT_UNC_CNT sec)).raiseF (mapBit (Reg.SCRB_UNC ·) sec)).raiseEv 225
  let fresh := scrubState s sec = 0
  let gov := if fresh then policy else x.policy
  let s3 := if fresh then s2.setF (Reg.SCRB_SSTAT_STATE sec) 1 else s2
  let ask := !x.pend.contains b
  let s4 := if ask then setRfxq s3 (s3.ld.rfxq ++ [b]) else s3
  s4.setScrub sec { x with policy := gov, pend := if ask then x.pend ++ [b] else x.pend,
                           due := x.due ++ [(2 * c + 4 + s.time.off, if gov = 0 then 1 else 0)] }

/-- One word of the sweep read and decoded (R352 to R354). -/
def sweepWord (sec : Nat) (s : State) (i : Nat) : State :=
  let key := sec * sweepWords + i
  let b := key / 320
  let x := s.scrubOf sec
  let w := tget (fun _ => 0) s.cfgw key
  if x.skip.contains (blockPlane b) ∨ s.planeState sec (blockPlane b) = 2 then s
  else
    match cwDecode w with
    | .clean _ => s
    | .corrected d =>
      let n := x.corr + 1
      let s1 := ((s.raiseF (Reg.SCRB_SSTAT_CORR sec)).incF (Reg.SCRB_SCNT_COR_CNT sec)).raiseF (mapBit (Reg.SCRB_CORR ·) sec)
      let s2 := if x.thr ≠ 0 ∧ n = x.thr then s1.raiseEv 225 else s1
      s2.setScrub sec { x with corr := n, fixes := x.fixes ++ [(s.tlrCycle, key, cwEncode d)] }
    | .bad =>
      if !blockLoaded s b then
        let s1 := ((s.raiseF (Reg.SCRB_SSTAT_ZFIX sec)).incF (Reg.SCRB_SCNT_UNC_CNT sec)).raiseF (mapBit (Reg.SCRB_UNC ·) sec)
        s1.setScrub sec { x with fixes := x.fixes ++ [(s.tlrCycle, key, cwEncode 0)] }
      else if cwPoison w && (x.pend.contains b || x.failed.contains b) then s
      else
        uncFound { s with cfgw := tset (fun _ => 0) s.cfgw key (cwSetPoison w) } sec key (tget (fun _ => 0) s.policy sec)

/-- The first cycle of a sweep: every store word is voted and rewritten, CORR_THR is sampled, planes in ESCROW are noted
(R348, R350). -/
def sweepBegin (s : State) (sec : Nat) : State :=
  let bad := (List.range 64).any (fun w => pcopy s sec 0 w != pcopy s sec 1 w || pcopy s sec 0 w != pcopy s sec 2 w)
  let s1 := if bad then
      (((List.range 64).foldl (fun acc w => pwrite acc sec w (pread s sec w)) s).raiseF (Reg.SCRB_SSTAT_VOTEFIX sec)).incF
        (Reg.SCRB_SCNT_VOTE_CNT sec) |>.raiseEv 225
    else s
  s1.setScrub sec { s1.scrubOf sec with begun := 2 * s.tlrCycle + s.time.off, corr := 0, thr := pread s sec 1 % 65536,
                                        skip := (List.range 8).filter (fun p => s.planeState sec p == 2) }

/-- The engines run: configured, the slot clock and CFG run (R349). -/
def scrubRuns (s : State) : Bool := s.slotRuns && tlrClock s && 3 ≤ s.getF Reg.CFG_STAT_STATE

/-- A completed sweep of a sector counts for the links held before its first CFG cycle (R107, R359). -/
def sweepCounts (s : State) (sec : Nat) : State :=
  let b := (s.scrubOf sec).begun
  let seen := fun (k : Nat) (h : HeldLink) =>
    if linkSector k = sec % 120 ∧ h.at_ < b then { h with ok0 := h.ok0 || decide (sec < 120), ok1 := h.ok1 || decide (120 ≤ sec) } else h
  { s with sweepDone := tset (fun _ => 0) s.sweepDone sec (tget (fun _ => 0) s.sweepDone sec + 1)
           vheld := tmap (fun _ => none) (fun k o => o.map (seen k)) s.vheld }

/-- CONFIG_SCRUB_CYCLE: the engine of a sector reads 4 words in the present CFG cycle, once in each cycle (R348). Where it does not sweep,
the copies of its index are voted and rewritten all the same (R351). -/
def execConfigScrubCycle (sec : Fin 240) (s : State) : Res :=
  let i := sweepAt s sec.val
  if scrubRuns s && (s.scrubOf sec.val).cycle != some s.tlrCycle && (i != 0 || scrubEn s sec.val) then
    let s1 := if i = 0 then sweepBegin s sec.val else s
    let s2 := s1.setScrub sec.val { s1.scrubOf sec.val with cycle := some s.tlrCycle }
    let s3 := (List.range 4).foldl (fun acc j => sweepWord sec.val acc (i + j)) s2
    if i + 4 < sweepWords then ok (setSweep s3 sec.val (i + 4))
    else
      let s4 := (setSweep s3 sec.val 0).setF (Reg.SCRB_SPOS_SWEEPS sec.val) (s.getF (Reg.SCRB_SPOS_SWEEPS sec.val) + 1)
      ok (sweepCounts s4 sec.val)
  else okIf (s.slotRuns && tlrClock s) s (sweepCopies s sec.val i)

/-- Rewrites found in cycle c are made by the end of cycle c + 1 (R352, R353); the slot counter already names the next slot. -/
def scrubFix (s : State) (sec : Nat) : State :=
  let x := s.scrubOf sec
  let now := x.fixes.filter (fun e => decide (2 * e.1 + 4 ≤ s.cfgSlots))
  if now.isEmpty then s
  else
    { s.setScrub sec { x with fixes := x.fixes.filter (fun e => !decide (2 * e.1 + 4 ≤ s.cfgSlots)) } with
        cfgw := tsets (fun _ => 0) s.cfgw (now.map (fun e => e.2)) }

def scrubFixes (s : State) : State := (s.scrub.map (fun kv => kv.1)).foldl scrubFix s

/-! ### The end of a repair -/

/-- A block has been rewritten: by a refetch, or by a partial stream that has left escrow. The last pending block of a repair
ends it; the last failed block of a FAILED sector lets it go in the slot after, whatever else is pending (R357, R358). -/
def blockRepaired (s : State) (b : Nat) : State :=
  let sec := blockSec b
  let x := s.scrubOf sec
  let x1 := { x with pend := x.pend.filter (· != b), failed := x.failed.filter (· != b) }
  let s1 := s.setScrub sec x1
  let st := scrubState s sec
  if st = 0 ∨ !x1.failed.isEmpty ∨ (st ≠ 2 ∧ !x1.pend.isEmpty) then s1
  else if st = 2 then s1.setScrub sec { x1 with due := x1.due ++ [(s.time.slots + 1, 4)] }
  else
    let s2 := s1.setF (Reg.SCRB_SSTAT_STATE sec) 0
    if x.policy = 0 then s2.setScrub sec { x1 with due := x1.due ++ [(s.time.slots + 1, 2)] } else s2

/-- A refetch of a block fails: REFETCH_FAIL, event 224, and the sector enters FAILED, held from the next slot (R341, R358). -/
def blockFailed (s : State) (b : Nat) : State :=
  let sec := blockSec b
  let x := s.scrubOf sec
  let s1 := (((s.incF Reg.CFG_RFX_RFX_FAIL_CNT).raiseF Reg.CFG_STAT_REFETCH_FAIL).raiseEv 224).setF (Reg.SCRB_SSTAT_STATE sec) 2
  s1.setScrub sec { x with pend := x.pend.filter (· != b), failed := (x.failed.filter (· != b)) ++ [b],
                           due := x.due ++ [(s.time.slots + 1, 3)] }

/-- A write of RETRY: every failed block of a FAILED sector is refetched (R358). -/
def scrubRetry (s : State) (sec : Nat) : State :=
  let x := s.scrubOf sec
  let ask := x.failed.filter (fun b => !x.pend.contains b)
  if scrubState s sec = 2 then
    setRfxq (s.setScrub sec { x with pend := x.pend ++ ask }) (s.ld.rfxq ++ ask)
  else s

/-- SCRUB_RETRY. -/
def execScrubRetry (sec : Fin 240) (s : State) : Res := if s.alive then ok (scrubRetry s sec.val) else ok s

/-- Every word found in a tile of a sector is repaired: no block of the tile waits for its refetch, no rewrite of one of its words is
still to be made, and the sector is not in FAILED (R107, R359). -/
def tileMended (s : State) (sec : Nat) (g : Tile) : Bool :=
  let x := s.scrubOf sec
  let mine := fun (b : Nat) => b % 144 == g.place
  scrubState s sec != 2 && !x.pend.any mine && !x.fixes.any (fun e => mine (e.2.1 / 320))

/-- GUARD_RELEASE: a held link is released once a full sweep of both sectors' engines that began after the trip is over and
every uncorrectable word found in its two tiles is repaired (R107). -/
def execGuardRelease (u v : Fin 12) (xy : Fin 120) (n : Fin 48) (s : State) : Res :=
  let g := tileOf xy.val u.val v.val
  let k := vlinkKey g n.val
  match tget (fun _ => none) s.vheld k with
  | some h =>
    okIf (h.ok0 && h.ok1 && tileMended s xy.val g && tileMended s (xy.val + 120) g) s
      (heldCount (heldCount { s with vheld := tset (fun _ => none) s.vheld k none } xy.val) (xy.val + 120))
  | none => ok s

end Sys2Proof.Machine
end

