-- ==== Sys2Proof/Machine/CfgPort.lean ====
section
/-!
DEFINITION. The register side of the loader (16_configuration.md): starting and ending streams, the service port, the FLASH
block, and how a stream fails. What the loader reads and writes stands in Loader.lean.
-/

namespace Sys2Proof.Machine

/-! ### Flash -/

/-- An erased flash word: all ones, which reads as uncorrectable (R343). -/
def erased : CodeWord := BitVec.ofNat 80 (2 ^ 80 - 1)

def flashWord (s : State) (k : Nat) : CodeWord := tget (fun _ => erased) s.flash k

/-- `n` bytes of flash from byte address a; nothing where a word is uncorrectable. Counts go to FL_ECC. -/
def flashBytes (s : State) (a n : Nat) : State × Option (List Nat) :=
  let first := a / 8
  let words := (List.range ((a + n + 7) / 8 - first)).map (fun i => cwDecode (flashWord s (first + i)))
  let val := fun (d : Decoded 64) => match d with | .clean v => v.toNat | .corrected v => v.toNat | .bad => 0
  let bad := (words.filter (fun d => match d with | .bad => true | _ => false)).length
  let cor := (words.filter (fun d => match d with | .corrected _ => true | _ => false)).length
  let s1 := (s.addF Reg.FL_ECC_UNC_CNT bad).addF Reg.FL_ECC_COR_CNT cor
  if bad = 0 then (s1, some (((words.map (fun d => leBytes 8 (val d))).flatten.drop (a % 8)).take n)) else (s1, none)

/-- The first byte address and size of the ledger copy that COPY names. -/
def activeCopy (s : State) (a : Nat) : Bool :=
  match s.getF Reg.CFG_STAT_COPY with
  | 1 => decide (0x20000000 ≤ a) && decide (a < 0x90000000)
  | 2 => decide (0x90000000 ≤ a)
  | _ => false

/-- The loader reads flash: a FLASH command does not start (R343). -/
def loaderReads (s : State) : Bool :=
  (s.ld.src != 0 && s.ld.src != 4) || !s.ld.rfxq.isEmpty || s.getF Reg.CFG_STAT_STATE == 0

/-- A FLASH command that waits starts once the loader does not read (R343). -/
def flStart (s : State) : State :=
  if s.ld.flCmd.isSome && !loaderReads s then { s with ld := { s.ld with flOn := true } } else s

/-- A write of FL_CMD: OP is stored; GO starts it, and is ignored while BUSY is 1 (R343). -/
def flCmdWrite (s : State) (v : Word32) : State :=
  let op := v.toNat % 4
  let page := s.getF Reg.FL_ADDR_PAGE
  let a := if op = 2 then page / 512 * 0x40000 else page * 512
  let s1 := s.setF Reg.FL_CMD_OP op
  if !v.getLsbD 31 || s.flag Reg.FL_STAT_BUSY || op == 3 then s1
  else if op ≠ 0 ∧ activeCopy s a then s1.raiseF Reg.FL_STAT_PROT
  else flStart { s1.raiseF Reg.FL_STAT_BUSY with ld := { s1.ld with flCmd := some (op, page) } }

/-- FLASH_READ, FLASH_PROGRAM, FLASH_ERASE: a write of FL_CMD with GO and the OP. -/
def execFlashRead (s : State) : Res := if s.alive then ok (flCmdWrite s 0x80000000#32) else ok s
def execFlashProgram (s : State) : Res := if s.alive then ok (flCmdWrite s 0x80000001#32) else ok s
def execFlashErase (s : State) : Res := if s.alive then ok (flCmdWrite s 0x80000002#32) else ok s

/-- READ: a page into FL_BUF. -/
def flRead (s : State) (page : Nat) : State :=
  let words := (List.range 64).map (fun i => cwDecode (flashWord s (page * 64 + i)))
  let out := words.zipIdx.foldl (fun (acc : State) di =>
    let put := fun (t : State) (v : Nat) =>
      (t.setReg (Reg.FL_BUF (2 * di.2)) (BitVec.ofNat 32 v)).setReg (Reg.FL_BUF (2 * di.2 + 1)) (BitVec.ofNat 32 (v / 2 ^ 32))
    match di.1 with
    | .clean v => put acc v.toNat
    | .corrected v => (put acc v.toNat).incF Reg.FL_ECC_COR_CNT
    | .bad =>
      let (n, s1) := acc.draw
      ((put s1 (Config.random n).toNat).incF Reg.FL_ECC_UNC_CNT).raiseF Reg.FL_STAT_UNC) s
  out

/-- PROGRAM: FL_BUF into an erased page. -/
def flProgram (s : State) (page : Nat) : State :=
  if (List.range 64).all (fun i => flashWord s (page * 64 + i) == erased) then
    { s with flash := tsets (fun _ => erased) s.flash ((List.range 64).map (fun i =>
        (page * 64 + i, cwEncode (BitVec.ofNat 64 ((s.reg (Reg.FL_BUF (2 * i))).toNat +
          2 ^ 32 * (s.reg (Reg.FL_BUF (2 * i + 1))).toNat))))) }
  else s.raiseF Reg.FL_STAT_FAIL

/-- ERASE: 512 pages. -/
def flErase (s : State) (page : Nat) : State :=
  { s with flash := s.flash.filter (fun kv => kv.1 / 32768 != page / 512) }

/-- FLASH_COMMAND_COMPLETE: the command in progress acts and completes; `failed` says that a PROGRAM or
ERASE did not take (R343). -/
def execFlashCommandComplete (failed : Bool) (s : State) : Res :=
  match s.ld.flCmd with
  | some (op, page) =>
    let s1 := match op with
      | 0 => flRead s page
      | 1 => if failed then s.raiseF Reg.FL_STAT_FAIL else flProgram s page
      | _ => if failed then s.raiseF Reg.FL_STAT_FAIL else flErase s page
    let s2 := (s1.clearF Reg.FL_STAT_BUSY).raiseF Reg.FL_STAT_DONE
    okIf (s.alive && s.ld.flOn) s ({ s2 with ld := { s2.ld with flCmd := none, flOn := false } }.raiseEv 224)
  | none => ok s

/-! ### Streams: start, failure, words -/

/-- The loader with no stream: what outlives one stays. -/
def Loader.idle (l : Loader) : Loader :=
  { Loader.reset with failed := l.failed, released := l.released, doneRel := l.doneRel, doneCur := l.doneCur, rfx := l.rfx,
                      rfxq := l.rfxq, flCmd := l.flCmd, flOn := l.flOn, seq := l.seq }

/-- CFG_SPSTAT follows the FIFO. -/
def setSpace (s : State) : State := s.setF Reg.CFG_SPSTAT_SPACE (256 - s.ld.fifo.length)

/-- What the loader still has outstanding belongs to no stream any more. -/
def orphanWrites (s : State) : State := { s with outst := s.outst.map (fun o => if o.id = 0x205 then { o with note := 0 } else o) }

/-- STREAM_FAILURE: the stream fails with a code at a segment. A full load returns the device to the end of BIST and starts
over or waits for the port (R329, R330), where the failure is recorded (log 139); a partial stream is aborted, its region stays in escrow
(R337). -/
def streamFail (s : State) (code seg : Nat) : State :=
  let l := s.ld
  let failure := fun (t : State) =>
    (((t.setF Reg.CFG_ERR_CODE code).setF Reg.CFG_ERR_SEG seg).raiseF Reg.CFG_STAT_ABORT).incF Reg.CFG_CNT_ABORT_CNT
  if l.full then
    let copy := l.src = 1 ∨ l.src = 2
    let s1 := failure (endOfBist s)
    let s2 := { s1 with ld := { Loader.reset with failed := if l.src = 1 then l.failed ||| 1 else if l.src = 2 then l.failed ||| 2 else l.failed } }
    let s3 := if copy then s2.raiseF Reg.CFG_STAT_FALLBACK else s2.setF Reg.CFG_STAT_STATE 2
    s3.raiseEv 224
  else
    let s2 := (((failure s).setF Reg.CFG_STAT_STATE 3).setF Reg.CFG_STAT_PSRC 0).raiseEv 224
    let s3 := if l.declared ∨ code = 15 then s2.raiseEv 226 else s2
    setSpace (orphanWrites { s3 with ld := l.idle })

/-- A record of `n` bytes has been taken from the body; the last one ends the segment. -/
def consume (s : State) (n : Nat) : State :=
  let l := { s.ld with word := 0, busy := false, port := none }
  match s.ld.seg with
  | some (t, body) =>
    if body.length ≤ n then { s with ld := { l with seg := none, index := s.ld.index + 1 } }
    else { s with ld := { l with seg := some (t, body.drop n) } }
  | none => s

def recFail (s : State) (code : Nat) : State := streamFail s code s.ld.index

/-- The loader receives the answer to one of its writes, or a synthesised error (status 3): an error fails the segment, with code 0x11 for
a timeout (R325). Of its writes through an indirect port only the last one starts the access; where that has no effect the loader issues
the word again, and so it does where the window of a store write has closed (R339; the latter DEDUCED, log 124); an answer that comes when
a later word is under way changes nothing. The next REGS record
begins once the last has been answered. -/
def loaderRespond (s : State) (o : Outst) (status : Nat) : State :=
  if o.note = 0 then s
  else if status ≠ 0 then
    if o.note = 3 ∧ o.aux ≠ s.ld.seq then s
    else if o.note = 3 ∧ status = 1 ∧ storeClosed s then { s with ld := { s.ld with busy := false } }
    else recFail s (if status = 3 then 0x11 else 0x0C)
  else if o.note = 2 then consume s 8
  else if o.note = 3 ∧ o.aux = s.ld.seq ∧ s.ld.port.isNone then { s with ld := { s.ld with busy := false } }
  else s

/-- The index that a failure at the present point records. -/
def failSeg (s : State) : Nat := if s.ld.open_ then s.ld.index else 0xFFFFFF

/-- Start of a partial stream, or its refusal (R335). A command of the FLASH block that is in progress then holds up the loader's reads
(R343). -/
def partialStart (s : State) (src base : Nat) : State :=
  if s.ld.src != 0 || !s.ld.rfxq.isEmpty || s.getF Reg.CFG_STAT_STATE != 3 then s.raiseF Reg.CFG_STAT_BUSYREJ
  else
    let s1 := (s.setF Reg.CFG_STAT_STATE 4).setF Reg.CFG_STAT_PSRC (if src = 4 then 2 else 1)
    { s1 with ld := { s1.ld.idle with src := src, base := base } }

/-- A write of ABORT: the stream in progress ends with code 0x12. -/
def streamAbort (s : State) : State := if s.ld.src = 0 then s else streamFail s 0x12 (failSeg s)

/-- A write of CFG_PCMD. -/
def pcmdWrite (s : State) (v : Word32) : State :=
  let s1 := s.setF Reg.CFG_PCMD_FOFF (v.toNat % 2 ^ 22)
  let s2 := if v.getLsbD 29 then streamAbort s1 else s1
  match v.getLsbD 31, v.getLsbD 30 with
  | true, true => s2.raiseF Reg.CFG_STAT_BUSYREJ
  | true, false => partialStart s2 3 (v.toNat % 2 ^ 22 * 1024)
  | false, true => partialStart s2 4 0
  | false, false => s2

/-- GO_FLASH: a write of CFG_PCMD with GO_FLASH and FOFF. -/
def execGoFlash (foff : BitVec 22) (s : State) : Res :=
  if s.alive then ok (pcmdWrite s (BitVec.ofNat 32 (2 ^ 31 + foff.toNat))) else ok s

/-- GO_PORT. -/
def execGoPort (s : State) : Res :=
  if s.alive then ok (pcmdWrite s (BitVec.ofNat 32 (2 ^ 30 + s.getF Reg.CFG_PCMD_FOFF))) else ok s

/-- STREAM_ABORT. -/
def execStreamAbort (s : State) : Res :=
  if s.alive then ok (pcmdWrite s (BitVec.ofNat 32 (2 ^ 29 + s.getF Reg.CFG_PCMD_FOFF))) else ok s

/-- A word offered to the service-port FIFO; the Boolean says that it was taken. In WAIT_PORT the first word starts a full
stream (R342). -/
def spWord (s : State) (v : Word32) : State × Bool :=
  let waiting := s.getF Reg.CFG_STAT_STATE == 2
  if s.ld.fifo.length = 256 ∨ (s.ld.src ≠ 4 ∧ !waiting) then (s.raiseF Reg.CFG_STAT_SPOVR, false)
  else
    let s1 := if waiting then
        { (s.setF Reg.CFG_STAT_STATE 1).setF Reg.CFG_STAT_PSRC 2 with ld := { s.ld.idle with src := 4, full := true } }
      else s
    (setSpace { s1 with ld := { s1.ld with fifo := s1.ld.fifo ++ [v] } }, true)

/-- The device takes service-port words in a debug halt too. -/
def spOn (s : State) : Bool := s.phase == .run || s.phase == .start

/-- SERVICE_PORT_WORD: a write of CFG_SPDATA. -/
def execServicePortWord (v : Word32) (s : State) : Res := if spOn s then answerWrite (spWord s v) else ok s

/-- CFG_STREAM: Update-DR offers a word (R454). -/
def execCfgStream (v : Word32) (s : State) : Res :=
  let s1 := setIr s 0x24
  okIf (servicePins s) s (if spOn s1 then (spWord s1 v).1 else s1)

/-! ### Release of the steward and of DONE -/

/-- A write of CFG_CTRL: DONE_HOLD, and DONE_GO, which releases DONE when DONE_HOLD is 1 and the steward has been released
(R332). -/
def releaseDone (s : State) : State :=
  { s.setF Reg.RST_STAGE_STEP (if s.user then 8 else 7) with ld := { s.ld with doneRel := true } }

def cfgCtrlWrite (s : State) (v : Word32) : State :=
  let s1 := s.putF Reg.CFG_CTRL_DONE_HOLD (v.getLsbD 0)
  if v.getLsbD 31 && s.flag Reg.CFG_CTRL_DONE_HOLD && s.ld.released && !s.ld.doneCur && !s.ld.doneRel then releaseDone s1 else s1

/-- DONE_GO: a write of CFG_CTRL.DONE_GO. -/
def execDoneGo (s : State) : Res :=
  if s.alive then ok (cfgCtrlWrite s (BitVec.ofNat 32 (2 ^ 31 + s.getF Reg.CFG_CTRL_DONE_HOLD))) else ok s

/-- DONE_RELEASE: in the AON tick after the steward's release, unless DONE_HOLD or connect-under-reset keeps DONE low. -/
def execDoneRelease (s : State) : Res :=
  okIf (s.ld.released && !s.ld.doneRel && !s.ld.doneCur && !s.flag Reg.CFG_CTRL_DONE_HOLD) s (releaseDone s)

end Sys2Proof.Machine
end

