-- ==== Sys2Proof/Machine/Clock.lean ====
section
/-!
DEFINITION. Clocks (19_clocks.md) and the voltage rule that follows them (21_power.md R415, R416).
-/

namespace Sys2Proof.Machine

/-! ### Sources -/

/-- RCO_READY: RCO has run for 50 µs, at power-up and when it has started again on a wake (R383). -/
def execRcoReady (s : State) : Res :=
  okIf (s.phase != .unpowered && !s.clk.rco && s.phase != .keep && !(s.phase == .hold && s.wakes == 0)) s
    (stepTwo (clkReport { s with clk := { s.clk with rco := true } }))

/-- XO starts, or is due to (R384). -/
def xoStarting (s : State) : Bool := s.phase != .unpowered && s.clk.rco && !s.clk.xo && !s.clk.xoStop

/-- XO_READY: 2,048 AON ticks after oscillation (R384); AON then goes over to the source that AON_SRC names (R385). -/
def execXoReady (s : State) : Res :=
  okIf (xoStarting s) s (stepTwo (clkReport { s with clk := { s.clk with xo := true } }))

/-- XO_START_FAIL: XO is not ready 10 ms after RCO_READY; it is not started again before the next reset (R384). -/
def execXoStartFail (s : State) : Res :=
  okIf (xoStarting s) s ((({ s with clk := { s.clk with xoStop := true } }).raiseF Reg.CLK_FLAG_XO_FAIL).raiseEv 204)

/-- AON_SOURCE_CHANGE: the multiplexer goes over to the source that AON_SRC names, once that source is ready (R385, R390). -/
def execAonSourceChange (s : State) : Res :=
  let xo := s.flag Reg.CLK_CTRL_AON_SRC
  okIf (s.phase != .unpowered && (if xo then s.clk.xo else s.clk.rco)) s (clkReport { s with clk := { s.clk with aonXo := xo } })

/-- Two windows of MREF differ by no more than 100 ppm, at the resolution of FREQ (R387). -/
def mrefSame (a b : Nat) : Bool := decide (10000 * (a - b) ≤ a) && decide (10000 * (b - a) ≤ a)

/-- MREF is present at a frequency in kHz between 19 and 51 MHz (R387). -/
def mrefPresent (khz : Nat) : Bool := decide (19000 ≤ khz) && decide (khz ≤ 51000)

/-- The root's reference input multiplexer changes over: the hang is over (R390). -/
def hangEnds (s : State) (relock : State → State) : State :=
  if s.clk.hang then relock { s with clk := { s.clk with hang := false } } else s

/-! ### The monitor -/

/-- A source is watched: 0 XO, 1 RCO, 2 MREF, 3 ROOT (Table 19.3, Table 19.4). -/
def sourceWatched (s : State) (src : Nat) : Bool :=
  let early := s.clk.hang || (match s.clk.ramp with | some n => decide (n ≤ 768) | none => true)
  !s.clk.tripped.contains src &&
  match src with
  | 0 => s.clk.xo && early
  | 1 => s.clk.rco && s.clk.xo && early
  | 2 => s.getF Reg.CLK_STAT_SRC_NOW == 1 && early
  | _ => s.flag Reg.CLK_STAT_LOCK

/-- A source is in use: it drives AON, it is the root reference, or it is ROOT (R391). -/
def sourceInUse (s : State) (src : Nat) : Bool :=
  let root := s.flag Reg.CLK_STAT_LOCK || s.flag Reg.CLK_STAT_SWITCHING
  let now := s.getF Reg.CLK_STAT_SRC_NOW
  match src with
  | 0 => s.clk.aonXo || (root && now == 0)
  | 1 => !s.clk.aonXo || (root && now == 2)
  | 2 => root && now == 1
  | _ => true

/-- The AON multiplexer is forced onto the fall-back source: RCO for XO, XO for RCO; a tripped XO is no longer ready (R392). -/
def fallBack (s : State) (src : Nat) : State :=
  match src with
  | 0 => { s with clk := { s.clk with xo := false, aonXo := false } }
  | 1 => { s with clk := { s.clk with aonXo := true } }
  | _ => s

/-- A trip is recorded: TRIP, TRIP_SRC, TRIP_CNT, and XO_FAIL for XO; the source is tripped until it recovers, and CLK_STAT follows
(R391, R392). -/
def tripRecord (s : State) (src : Nat) : State :=
  let s1 := ((s.raiseF Reg.CLK_FLAG_TRIP).setF Reg.CLK_STAT_TRIP_SRC src).incF Reg.CLK_CNT_TRIP_CNT
  let s2 := if src = 0 then s1.raiseF Reg.CLK_FLAG_XO_FAIL else s1
  { s2 with clk := { s2.clk with tripped := if src = 3 then s2.clk.tripped else s2.clk.tripped ++ [src] } }

/-- CLOCK_MONITOR_TRIP: a watched source fails its check. In an integrity halt or held under R404 the trip is recorded and AON falls back,
and no start follows (R315, R391, R392, R404). -/
def execClockMonitorTrip (src : Fin 4) (s : State) : Res :=
  let s1 := tripRecord s src.val
  if s.phase != .unpowered && sourceWatched s src.val then
    if !sourceInUse s src.val then ok ((clkReport s1).raiseEv (if src.val = 2 then 205 else 204))
    else if s.phase == .integrity || s.phase == .bistHeld then ok (clkReport (fallBack s1 src.val))
    else ok (deviceReset (fallBack s1 src.val) 4 (src.val + 1))
  else ok s

/-- A tripped source can meet its check: the condition on which Table 19.3 watches it, or MREF is present (R391). -/
def sourceRuns (s : State) (src : Nat) : Bool :=
  match src with
  | 0 => s.clk.xo
  | 1 => s.clk.rco && s.clk.xo
  | 2 => s.clk.mref.isSome
  | _ => false

/-- SOURCE_RECOVERED: a tripped source has met its check for 1 ms (R391). -/
def execSourceRecovered (src : Fin 4) (s : State) : Res :=
  okIf (s.clk.tripped.contains src.val && sourceRuns s src.val) s
    (clkReport { s with clk := { s.clk with tripped := s.clk.tripped.filter (· != src.val) } })

/-! ### Voltages -/

/-- A write of PWR_VSET; what it stores applies from the AON tick after it (R416; `railsPass`). -/
def vsetWrite (s : State) (v : Word32) : State :=
  let x := v.toNat
  let run := s.user && s.flag Reg.TIME_STATUS_SYNC
  let put := fun (acc : State) (e : Field × Nat × Bool) =>
    if e.2.2 || e.2.1 < 10 || 60 < e.2.1 then acc.raiseF Reg.PWR_FLAG_BADVSET else acc.setF e.1 e.2.1
  let vf := nbits x 7 0
  let s1 := put s (Reg.PWR_VSET_VF_REQ, vf, run && vf != s.getF Reg.PWR_VSET_VF_REQ)
  let s2 := put s1 (Reg.PWR_VSET_VT_REQ, nbits x 15 8, false)
  put s2 (Reg.PWR_VSET_VS_REQ, nbits x 23 16, false)

/-- VOLTAGE_REQUEST: a write of PWR_VSET. -/
def execVoltageRequest (v : Word32) (s : State) : Res := if s.alive then ok (vsetWrite s v) else ok s

/-! ### The root switch -/

/-- CX limit of the part in kHz (Table 0.1). -/
def cxLimit : Nat := if Config.gradeTwo 0 then 1920000 else 1600000

/-- A GO is allowed (R386). -/
def rootAllowed (s : State) (src m : Nat) : Bool :=
  let khz := if src = 1 then s.getF Reg.CLK_MREF_FREQ else 50000
  let vco := khz * m
  s.ld.released && s.clk.ramp.isNone && decide (vco ≤ 4 * cxLimit) &&
  match src with
  | 0 => decide (120 ≤ m) && decide (m ≤ 160)
  | 1 => s.flag Reg.CLK_STAT_MREF_SETTLED && m % 32 == 0 && decide (6000000 ≤ vco) && decide (vco ≤ 8000000)
  | 2 => m == 150
  | _ => false

/-- TIMESLIP: SLIP, event 285, SLIP_CNT; every sector is tainted while SLIP_TAINT is 1, and a frame whose last slot has run is not: the
next one begins tainted (R39, R49). -/
def slip (s : State) : State :=
  let s1 := ((s.raiseF Reg.TIME_STATUS_SLIP).incF Reg.TIME_ERR_SLIP_CNT).raiseEv 285
  if s.flag Reg.TIME_CTRL_SLIP_TAINT && !(s.tickOver && s.lastTick) then (List.range 240).foldl State.taintSector s1 else s1

/-- Every controller in self-refresh, or out of it (R294). -/
def selfRefresh (s : State) (b : Bool) : State := (List.range 16).foldl (fun acc c => acc.putF (Reg.MEMC_STAT_SREF c) b) s

/-- Step 1 of a root switch, once every rail has settled: the controllers are in self-refresh (R388, R415). -/
def switchStep1 (s : State) : State := if s.flag Reg.PWR_VNOW_SLEW then s else selfRefresh s true

/-- The reference of a root switch in Hz. -/
def nextRef (s : State) (src : Nat) : Nat := if src = 1 then s.getF Reg.CLK_MREF_FREQ * 1000 else 50000000

/-- A write of CLK_ROOT: with GO a root switch is in progress, or BADCFG is set (R386, R388). Rails that have to rise do so before step 1,
self-refresh (R415). -/
def rootWrite (s : State) (v : Word32) : State :=
  let x := v.toNat
  let src := nbits x 17 16
  let m := nbits x 8 0
  let s1 := (s.setF Reg.CLK_ROOT_SRC src).setF Reg.CLK_ROOT_M m
  if v.getLsbD 31 then
    if rootAllowed s src m then
      let s2 := s1.raiseF Reg.CLK_STAT_SWITCHING
      let s3 := { s2 with clk := { s2.clk with ramp := some 0, next := (src, m), nextHz := nextRef s src } }
      let s4 := switchStep1 (applyVolts (if src = 1 then s3 else s3.clearF Reg.TIME_STATUS_SYNC) (voltVco s3))
      if s.user then slip s4 else s4
    else s1.raiseF Reg.CLK_FLAG_BADCFG
  else s1

/-- ROOT_SWITCH: a write of CLK_ROOT with GO = 1; the slots of the ramps complete it (Table 19.2). -/
def execRootSwitch (src : Fin 4) (m : Fin 512) (s : State) : Res :=
  if s.alive then ok (rootWrite s (BitVec.ofNat 32 (2 ^ 31 + src.val * 2 ^ 16 + m.val))) else ok s

/-- Step 3: the domains on ROOT stop and quad PLLs lose lock. -/
def rootStop (s : State) : State := (List.range 36).foldl pllLose s

/-- Steps 4 and 5: the reference and M change, rates are checked afresh, self-refresh ends. The frequency is that of the reference at GO
(R393; DESIGN CHOICE, log 135). -/
def rootRelock (s : State) : State :=
  let s2 := { (s.setF Reg.CLK_STAT_SRC_NOW s.clk.next.1).setF Reg.CLK_STAT_M_NOW s.clk.next.2 with refHz := s.clk.nextHz, rootM := s.clk.next.2 }
  let s3 := (List.range 36).foldl (fun acc q => pllStop (tkRateCheck (feRateCheck acc q) q) q) s2
  clkReport (selfRefresh s3 false)

/-- Step 4 begins: the multiplexer hangs where its old clock, MREF, has stopped, until a trip or a reset, or MREF runs again (R390). -/
def rootMux (s : State) : State :=
  if s.getF Reg.CLK_STAT_SRC_NOW = 1 ∧ s.clk.mref = none then muxBusy { s with clk := { s.clk with hang := true } } else rootRelock s

/-- MREF_SETTLED: MREF has been present at a frequency in kHz for some further 1 ms windows, in which it was stable; once that makes up
the strap wait, it is settled (R387). -/
def execMrefSettled (m : Nat × Nat) (s : State) : Res :=
  let same := s.clk.mref.any (fun f => mrefSame f m.1)
  let s1 := { s with clk := { s.clk with mref := some m.1, stable := if same then s.clk.stable + m.2 else m.2 } }
  okIf (s.phase != .unpowered && mrefPresent m.1) s (hangEnds (clkReport s1) rootRelock)

/-- MREF_LOST: MREF stops being present, or stays present at a frequency in kHz that is not stable (R387). -/
def execMrefLost (present : Option Nat) (s : State) : Res :=
  let m := present.filter mrefPresent
  let s1 := clkReport { s with clk := { s.clk with mref := m, stable := 0 } }
  okIf (s.phase != .unpowered) s (if m.isSome then hangEnds s1 rootRelock else s1)

/-- Step 6: ticks of the new length begin, LOCK, SWITCH_CNT, event 206; SYNC on MREF; rails fall to the new VCO. -/
def rootDone (s : State) : State :=
  let s1 := ((((s.raiseF Reg.CLK_STAT_LOCK).clearF Reg.CLK_STAT_SWITCHING).incF Reg.CLK_CNT_SWITCH_CNT).raiseEv 206).putF
    Reg.TIME_STATUS_SYNC (s.clk.next.1 == 1)
  let slots := if s.clk.next.1 = 1 then s.clk.next.2 / 4 else freeSlots s
  let s2 := { s1 with clk := { s1.clk with ramp := none }, time := { s1.time with tickSlots := slots, inTick := slots } }
  applyVolts s2 (voltVco s2)

/-- What the end of a slot does to a root switch; the state's slot counter already names the next slot. -/
def rampSlot (s : State) : State :=
  match s.clk.ramp with
  | none => s
  | some 0 =>
    if s.flag Reg.PWR_VNOW_SLEW then s
    else if s.k = 0 then { (selfRefresh s true).clearF Reg.CLK_STAT_LOCK with clk := { s.clk with ramp := some 1 } }
    else selfRefresh s true
  | some n =>
    if n = 1536 then rootDone s
    else
      let s1 := { s.clearF Reg.CLK_STAT_LOCK with clk := { s.clk with ramp := some (n + 1) } }
      if n = 768 then rootMux (rootStop s1) else s1

/-! ### Trimming and compensation -/

/-- WIN as it acts: values above 14 act as 14. -/
def trimWin (s : State) : Nat := min 14 (s.getF Reg.CLK_TRIM_WIN)

/-- The reference of the trim is there and has not tripped: XO, MREF, a source of orbit markers, a trunk lane with superframe lock (R394). -/
def trimRefOk (s : State) : Bool :=
  let n := s.getF Reg.CLK_TRIM_LANE
  match s.getF Reg.CLK_TRIM_SRC with
  | 0 => xoPasses s
  | 1 => s.clk.mref.isSome && !s.clk.tripped.contains 2
  | 2 => s.time.src == 1 || s.time.src == 2
  | _ => decide (n < 144) && s.laneMode n == 2 && s.flag (Reg.LN_TK_STAT_LOCKED n)

/-- The RCO cycles that a window of the trim should count; the number for MREF is free (R394). -/
def trimNominal (s : State) : Nat :=
  match s.getF Reg.CLK_TRIM_SRC with
  | 0 => 2 ^ trimWin s * 50
  | 1 => Config.trimCount (s.getF Reg.CLK_MREF_FREQ) (trimWin s)
  | _ => s.getF Reg.CLK_TEXP_EXPECT * 2 ^ trimWin s

/-- RCO_TRIM_WINDOW: a window ends with RCO cycles counted; the code moves one step towards zero error, a count below the nominal raising
it (DEDUCED, log 136), or RANGE_ERR is set at a limit. A window whose reference is absent or tripped is discarded (R394). -/
def execRcoTrimWindow (count : Nat) (s : State) : Res :=
  let c := s.getF Reg.CLK_TCODE_CODE
  let atLimit := (s.raiseF Reg.CLK_FLAG_RANGE_ERR).raiseEv 207
  if s.phase != .unpowered && s.clk.rco && s.flag Reg.CLK_TRIM_EN && trimRefOk s then
    if count < trimNominal s then ok (if c = 4095 then atLimit else s.setF Reg.CLK_TCODE_CODE (c + 1))
    else if trimNominal s < count then ok (if c = 0 then atLimit else s.setF Reg.CLK_TCODE_CODE (c - 1))
    else ok s
  else ok s

/-- GPIO_DELAY_COMPENSATE: the tap codes of a bank's pins are corrected for temperature and applied at a beat boundary
(R395); the correction itself is free. -/
def execGpioDelayCompensate (b : Fin 4) (s : State) : Res :=
  if s.alive && s.k == 0 then
    ok ((List.range 24).foldl (fun acc ii =>
      let i := 24 * b.val + ii
      let (n, s1) := acc.draw
      let g := s1.gpio
      { s1 with gpio := { g with tap := tset (fun _ => 0) g.tap i (s1.getF (Reg.GPIO_CFG_DEL i) + Config.tapFix n) } }) s)
  else ok s

end Sys2Proof.Machine
end

