-- ==== Sys2Proof/Machine/Evt.lean ====
section
/-!
DEFINITION. The event controller and the watchdog (18_steward_events.md R373 to R381).
-/

namespace Sys2Proof.Machine

/-! ### Events -/

/-- The pending bit of a source. -/
def pendBit (e : Nat) : Field := mapBit (Reg.EVT_PEND ·) e

/-- A raising reaches the controller: it sets the pending bit, or is coalesced (R373). Either way the bit stays set under a claim or a
W1C write of the same slot, which then takes the count back (R375). -/
def evtLatch (s : State) (e : Nat) : State :=
  if 288 ≤ e then s
  else if s.flag (pendBit e) then
    let t := (s.incF Reg.EVT_LOST_LOST).raiseF (pendBit e)
    { t with cyc := if s.logs then { t.cyc with lost := t.cyc.lost ++ [e] } else t.cyc }
  else s.raiseF (pendBit e)

/-- The raisings of source e that reached the controller in the present slot and found it pending are not lost after all: a claim or a
W1C write of the source falls into the slot (R375). -/
def unlost (s : State) (e : Nat) : State :=
  let n := s.cyc.lost.count e
  let h := s.hwReg Reg.EVT_LOST
  let inc := h.inc - BitVec.ofNat 32 n
  if !s.logs || n = 0 then s
  else
    let t := (s.setReg Reg.EVT_LOST (Reg.EVT_LOST_LOST.add (h.old.getD 0) (Reg.EVT_LOST_LOST.of inc))).note Reg.EVT_LOST
      { h with inc := inc }
    { t with cyc := { t.cyc with lost := t.cyc.lost.filter (· != e) } }

/-- A source pending when the slot began, and raised again in it, is pending after a claim (R375). -/
def claimClear (s : State) (e : Nat) : State :=
  if s.logs && s.cyc.lost.contains e then unlost s e else s.clearF (pendBit e)

/-- A write of EVT_PENDn: the bits written 1 clear, but those raised in the same slot (R375). -/
def pendWrite (s : State) (n : Nat) (v : Word32) : State :=
  (((s.cyc.lost.eraseDups).filter (fun e => e / 32 == n && v.getLsbD (e % 32))).foldl unlost s).w1c (Reg.EVT_PEND n) v

/-- EVENT_PENDING: the oldest raising becomes pending; STW stops in a debug halt and in HOLD. -/
def execEventPending (s : State) : Res :=
  match s.raised with
  | [] => ok s
  | e :: r => okIf s.alive s (evtLatch { s with raised := r } e)

/-- Source e is a candidate for core i (R373). -/
def candidate (s : State) (i e : Nat) : Bool :=
  s.flag (pendBit e) && s.flag (Reg.EVT_CFG_EN e) && (s.getF (Reg.EVT_CFG_MASK e)).testBit i &&
    decide (s.getF (Reg.EVT_THRESH_THRESH i) < s.getF (Reg.EVT_CFG_PRIO e))

/-- MEIP of core i. -/
def meip (s : State) (i : Nat) : Bool := (List.range 288).any (candidate s i)

/-- The source that a claim of core i takes: the highest priority, the first after the pointer among equals (R374). -/
def claimPick (s : State) (i : Nat) : Option Nat :=
  let ptr := tget (fun _ => 287) s.evtPtr i
  let cs := ((List.range 288).map (fun d => (ptr + 1 + d) % 288)).filter (candidate s i)
  let prio := fun (e : Nat) => s.getF (Reg.EVT_CFG_PRIO e)
  let top := cs.foldl (fun m e => max m (prio e)) 0
  cs.find? (fun e => prio e == top)

/-- A read of EVT_CLAIMi. -/
def claimRead (s : State) (i : Nat) (peek : Bool) : State × Word32 :=
  match claimPick s i with
  | none => (s, 0)
  | some e =>
    let v := BitVec.ofNat 32 (2 ^ 31 + e)
    if peek then (s, v)
    else ({ claimClear s e with evtPtr := tset (fun _ => 287) s.evtPtr i e }, v)

/-- EVENT_CLAIM. -/
def execEventClaim (i : Fin 4) (peek : Bool) (s : State) : Res :=
  if s.alive then
    let r := claimRead s i.val peek
    ok { r.1 with resp := ⟨0, r.2.setWidth 64⟩ }
  else ok s

/-- A write of EVT_SWRAISE (R375). -/
def swraise (s : State) (v : Word32) : State := let e := v.toNat % 512; if e < 288 then s.raiseEach e else s

/-- EVT_SWRAISE. -/
def execEvtSwraise (e : Fin 512) (s : State) : Res := if s.alive then ok (swraise s (BitVec.ofNat 32 e.val)) else ok s

/-! ### The watchdog -/

/-- The length of a stage (WDT_LOAD1, WDT_LOAD2). -/
def wdtLoad (s : State) (stage : Nat) : Nat :=
  max 1024 (if stage = 0 then s.getF Reg.WDT_LOAD1_LOAD1 else s.getF Reg.WDT_LOAD2_LOAD2)

/-- A stage starts. -/
def wdtStage (s : State) (stage : Nat) : State := (s.setF Reg.WDT_STAT_STAGE stage).setF Reg.WDT_STAT_COUNT (wdtLoad s stage)

/-- An accepted write of WDT_CTRL (R378, R379). -/
def wdtCtrlWrite (s : State) (v : Word32) : State :=
  let sticky := s.flag Reg.WDT_CTRL_STICKY
  let was := s.flag Reg.WDT_CTRL_EN
  let en := v.getLsbD 0 || (sticky && was)
  let s1 := (s.putF Reg.WDT_CTRL_STICKY (sticky || v.getLsbD 1)).putF Reg.WDT_CTRL_EN en
  if en && !was then wdtStage s1 0 else s1

/-- WDT_ENABLE: a locked write of WDT_CTRL. -/
def execWdtEnable (id : Fin 1024) (v : Word32) (s : State) : Res :=
  if s.alive then answerWrite (lockedWrite s 1 id.val (fun t => wdtCtrlWrite t v)) else ok s

/-- A write of WDT_KICK while EN is 1 (R379). -/
def wdtKick (s : State) (v : Word32) : State :=
  if !s.flag Reg.WDT_CTRL_EN then s
  else if v = 0x4B49434B#32 then wdtStage s 0
  else (s.raiseF Reg.WDT_STAT_BADKICK).raiseEv 209

/-- WDT_KICK. -/
def execWdtKick (v : Word32) (s : State) : Res := if s.alive then ok (wdtKick s v) else ok s

/-- WDT_STAGE1_EXPIRY: `dt` AON ticks pass and the count of stage 1 reaches 0 (R379). -/
def execWdtStage1Expiry (dt : Nat) (s : State) : Res :=
  let s1 := aonPass s dt
  okIf (wdtRuns s && s1.getF Reg.WDT_STAT_STAGE == 0 && s1.getF Reg.WDT_STAT_COUNT == 0) s1 ((wdtStage s1 1).raiseEv 208)

/-- WDT_STAGE2_EXPIRY: the count of stage 2 reaches 0, and the device is reset with cause WATCHDOG. -/
def execWdtStage2Expiry (dt : Nat) (s : State) : Res :=
  let s1 := aonPass s dt
  okIf (wdtRuns s && s1.getF Reg.WDT_STAT_STAGE == 1 && s1.getF Reg.WDT_STAT_COUNT == 0) s1 (deviceReset s1 3 0)

/-- MACHINE_TIMER_INTERRUPT: `dt` AON ticks pass; MTIP of core i is 1 while the time CSR is at or above EVT_TCMPi (Table
18.1). -/
def execMachineTimerInterrupt (dt : Nat) (s : State) : Res := ok (aonPass s dt)

/-- What a CSR holds when nothing has written it. -/
def csrReset (n : Nat) : Word64 := if n = 0x305 then 0x600000000#64 else 0

def Core.csrGet (c : Core) (n : Nat) : Nat := (tget csrReset c.csr n).toNat

def Core.csrPut (c : Core) (n v : Nat) : Core := { c with csr := tset csrReset c.csr n (BitVec.ofNat 64 v) }

/-- MTIP of core i. -/
def mtip (s : State) (i : Nat) : Bool :=
  decide ((s.reg (Reg.EVT_TCMP_LO i)).toNat + 2 ^ 32 * (s.reg (Reg.EVT_TCMP_HI i)).toNat ≤ s.aon.ticks % 2 ^ 64)

/-! ### Interrupts of a core -/

/-- mip of core i: MSIP in bit 3, MTIP in bit 7, MEIP in bit 11 (Table 18.1). -/
def mip (s : State) (i : Nat) : Nat :=
  8 * (s.flag (Reg.EVT_MSIP_MSIP i)).toNat + 128 * (mtip s i).toNat + 2048 * (meip s i).toNat

/-- Interrupts of core i that are pending and enabled in mie. -/
def coreInts (s : State) (i : Nat) : Nat := mip s i &&& (s.core i).csrGet 0x304

end Sys2Proof.Machine
end

