-- ==== Sys2Proof/Machine/Power.lean ====
section
/-!
DEFINITION. Power supply and power states (21_power.md): entry in the order of Table 21.6, wakes, supply and regulator flags,
residency.
-/

namespace Sys2Proof.Machine

/-- All four cores are stopped in WFI, and none has an enabled interrupt pending, on which it leaves WFI (R377). -/
def allWfi (s : State) : Bool := (List.range 4).all (fun i => (s.core i).on && (s.core i).wait == .wfi && coreInts s i == 0)

/-! ### Entry -/

/-- Entry is abandoned: the stopped blocks restart, the refusal is recorded, event 216 is raised (R421). -/
def entryRefuse (s : State) (block why : Nat) : State :=
  let s1 := (((s.raiseF Reg.PWR_STATUS_REFUSED).setF Reg.PWR_STATUS_REF_BLOCK block).setF Reg.PWR_STATUS_REF_WHY why).clearF
    Reg.PWR_STATUS_ENTERING
  allLanesReeval ({ s1 with clockOn := true, aon := { s1.aon with entry := 0 } }.raiseEv 216)

/-- The block of Table 21.6 after the lanes that answers NACK, if one does: CFG and FLASH, vault, CLK (R420). -/
def entryNack (s : State) : Option Nat :=
  if s.ld.src != 0 || !s.ld.rfxq.isEmpty || s.flag Reg.FL_STAT_BUSY then some 5
  else if s.flag Reg.VLT_STAT_FUSE_BUSY || s.flag Reg.VLT_STAT_INIT_BUSY then some 6
  else if s.clk.ramp.isSome then some 7
  else none

/-- Every router queue is empty; only requests that the fence holds back wait at their initiators. -/
def netEmpty (s : State) : Bool :=
  s.netq.isEmpty && s.rsps.isEmpty && s.inject.all (fun kv => kv.2.all (fun e => e.2.2.request.isSome))

/-- What KEEP and OFF keep of the sensors, which run on: the BAD marks, and the readings of those on VA (R428 to R430). -/
def sensorsKept (old s : State) : State :=
  (List.range 272).foldl (fun acc n =>
    if sensorAlwaysOn n then acc.setReg (Reg.THM_TEMP n) (old.reg (Reg.THM_TEMP n)) else keepFields old acc [Reg.THM_TEMP_BAD n]) s

/-- RCO stops in HOLD and KEEP where RCO_SLEEP is 1 and AON runs from XO (R383). -/
def rcoSleep (s : State) (asleep : Bool) : State :=
  clkReport { s with clk := { s.clk with rco := s.clk.rco && !asleep } }

/-- Entry completes (Table 21.4): HOLD keeps everything; KEEP keeps the always-on fields, the wake settings of lanes and the
banks with KEEP = 1; OFF keeps the always-on fields. In KEEP and OFF the rails, VB among them, are off. -/
def entryDone (s : State) : State :=
  let mode := s.aon.mode
  let sleeps := decide (mode ≤ 2) && s.flag Reg.CLK_CTRL_RCO_SLEEP && s.clk.aonXo
  let s0 := s.clearF Reg.PWR_STATUS_ENTERING
  let aon := { s0.aon with entry := 0, entryAt := s0.aon.ticks }
  if mode = 1 then
    let s1 := (List.range 36).foldl (fun acc q => acc.clearF (Reg.LQ_PLL_STAT_LOCK q)) (wdtFreeze (selfRefresh s0 true))
    rcoSleep (allLanesReeval { s1 with phase := .hold, clockOn := false, wakes := 0, aon := aon }) sleeps
  else
    let kept := if mode = 2 then (List.range 1920).filter (fun b => s.flag (Reg.SEC_BCFG_KEEP (b / 8) (b % 8))) else []
    let s1 := sensorsKept s0 (blank s0 (if mode = 2 then .keep else .off) (alwaysOn ++ pwrKept))
    let s2 := kept.foldl (fun acc b => acc.setReg (Reg.SEC_BCFG (b / 8) (b % 8)) (s.reg (Reg.SEC_BCFG (b / 8) (b % 8)))) s1
    let s3 := if mode = 2 then (List.range 144).foldl (fun acc n =>
      keepFields s acc [Reg.LN_WAKE_SEEN n, Reg.LN_WAKE_CLASS n, Reg.LN_WAKE_EN n]) s2 else s2
    rcoSleep (vbDown { s3 with aon := { aon with retained := kept },
                               bmem := s.bmem.filter (fun kv => kept.contains (kv.1 / 4096)),
                               bsel := s.bsel.filter (fun kv => kept.contains (kv.1 / 2048)) }) sleeps

/-- The network is asked: every NAP and initiator interface is fenced, and the unused credits of user logic are withdrawn (R273, R274,
R420). -/
def entryFence (s : State) : State :=
  { s with naps := tmap (fun _ => Nap.reset) (fun _ p => { p with lost := p.lost + p.cred, cred := 0 }) s.naps }

/-- The counters stand at the end of a tick: the slot clock stops, and the other blocks are asked in order; a block that refuses after the
lanes finds them in IDLE (R420, R421). -/
def entryStops (s : State) : State :=
  let s1 := { s with clockOn := false }
  if (List.range 144).any (fun n => s.flag (Reg.LN_WAKE_SENDING n)) then entryRefuse s1 3 1
  else
    let s2 := allLanesReeval { s1 with aon := { s1.aon with entry := 2 } }
    match entryNack s2 with
    | some b => entryRefuse s2 b 1
    | none => let s3 := entryFence s2; if netEmpty s3 then entryDone s3 else s3

/-- POWER_STATE_ENTRY: with all cores in WFI and PWR_MODE not RUN, the blocks are asked in order. Counters and fabric stop at
the end of a tick; the network is drained before its clock stops (R377, R420, R421). The command runs again while entry
waits for the end of a tick or for the queues. A later write of PWR_MODE is for the next entry (R422). -/
def execPowerStateEntry (s : State) : Res :=
  let a := s.aon
  let mode := if a.entry = 0 then s.getF Reg.PWR_MODE_MODE else a.mode
  if s.phase == .run && !s.dbgHalt && (a.entry != 0 || (mode != 0 && allWfi s)) then
    let s0 := { s.raiseF Reg.PWR_STATUS_ENTERING with aon := { a with entry := max 1 a.entry, mode := mode } }
    if s.wakes != 0 then ok (entryRefuse { s0 with wakes := 0 } 0 3)
    else if a.entry = 2 then ok (if netEmpty s0 then entryDone s0 else s0)
    else if mode = 1 ∧ s.user then ok (entryRefuse s0 1 1)
    else if (if s.ramping then s.k != 0 else decide (s.time.inTick < s.time.tickSlots)) then ok s0
    else ok (entryStops s0)
  else ok s

/-- ENTRY_BLOCK_TIMEOUT: a block has not answered within 1 ms (R420). -/
def execEntryBlockTimeout (block : Fin 12) (s : State) : Res :=
  okIf (s.aon.entry != 0 && block.val != 0) s (entryRefuse s block.val 2)

/-! ### Wakes -/

/-- A wake cause is latched; the first one ends the state (R423). -/
def latchWake (s : State) (bit : Nat) : State := { s with wakes := if s.wakes = 0 then bit else s.wakes }

/-- WAKE_TIMER: `dt` AON ticks on, PWR_WTIME ticks have passed since entry completed (R423). -/
def execWakeTimer (dt : Nat) (s : State) : Res :=
  let s1 := aonPass s dt
  let w := s.getF Reg.PWR_WTIME_TICKS
  let asleep := s.phase == .hold || s.phase == .keep || s.phase == .off
  okIf (asleep && s.flag Reg.PWR_WAKE_TIMER_EN && w != 0 && decide (s.aon.entryAt + w ≤ s1.aon.ticks)) s1 (latchWake s1 4)

/-- The wake recorded. -/
def recordWake (s : State) (from_ : Nat) : State :=
  { (s.setF Reg.PWR_STATUS_LAST_WAKE from_).setF Reg.PWR_STATUS_WAKE_SRC s.wakes with wakes := 0 }

/-- WAKE_FROM_HOLD: the blocks restart from where they stopped, lanes from IDLE; event 217 (R424). -/
def execWakeFromHold (s : State) : Res :=
  okIf (s.phase == .hold && s.wakes != 0) s
    ((allLanesReeval (dbgFlush { wdtThaw (selfRefresh (recordWake s 1) false) with phase := .run, clockOn := true })).raiseEv 217)

/-- WAKE_FROM_KEEP: the rails switch on and a start runs from step 2; RST_CAUSE is left alone (R425). -/
def execWakeFromKeep (s : State) : Res :=
  let n := if s.phase = .keep then 2 else 3
  let s1 := recordWake s n
  okIf ((s.phase == .keep || s.phase == .off) && s.wakes != 0) s
    { s1.setF Reg.RST_STAGE_STEP 2 with phase := .waiting, aon := { s1.aon with wakeFrom := n } }

/-! ### Supplies, regulators, residency -/

/-- VIN is valid from a rise above 10.5 V; a loss of it is VIN_LOSS, but in KEEP and OFF, where it is not monitored, and while no rail runs
from it (R411, R412, Table 21.1). -/
def vinValid (s : State) (vin : Nat) : Bool :=
  if 10500 < vin then true else if vin < 10200 ∧ !s.aon.vb then false else s.aon.vinOk

/-- SUPPLY_WARNING: VIN and VAUX as measured in mV; outside its warning range an input sets its flag and raises event 223
(R411, R412). -/
def execSupplyWarning (vin vaux : Nat) (s : State) : Res :=
  let good := vinValid s vin
  let s1 := vmonReport { s with aon := { s.aon with vmon := (vin, vaux), vinOk := good, vinFor := if good then s.aon.vinFor else 0 } }
  let bi := decide (vin < 10800) || decide (13200 < vin)
  let ba := decide (vaux < 3135) || decide (3465 < vaux)
  let s2 := if bi then s1.raiseF Reg.PWR_FLAG_VIN_WARN else s1
  let s3 := if ba then s2.raiseF Reg.PWR_FLAG_VAUX_WARN else s2
  okIf (s.phase != .unpowered) s (if bi || ba then s3.raiseEv 223 else s3)

/-- MREFO_P/N: floating without VG and VB, low in HOLD, otherwise VCO/M while it is enabled and SYNC is 1 (Table 21.5, CLK_CTRL). -/
inductive Mrefo where
  | floating | low | running
  deriving DecidableEq, Repr

def mrefo (s : State) : Mrefo :=
  if !s.aon.vb then .floating
  else if s.phase == .run && s.flag Reg.CLK_CTRL_MREFO_EN && s.flag Reg.TIME_STATUS_SYNC then .running
  else .low

/-- REGULATOR_FAULT: a rail in RUN has stayed more than 5 % low for 10 µs (R414). -/
def execRegulatorFault (rail : Fin 10) (s : State) : Res :=
  let s1 := s.capture Reg.PWR_FLAG_REGFAULT [(Reg.PWR_FLAG_FAULT_RAIL, rail.val)]
  okIf (s.phase == .run) s ((s1.raiseF Reg.PWR_FLAG_REGFAULT).raiseEv 222)

/-- A read of PWR_RESm_LO captures the high half (R427). -/
def residencyRead (s : State) (m : Nat) : State × Word32 :=
  let c := s.aon.res.getD m 0
  (s.setReg (Reg.PWR_RES_HI m) (BitVec.ofNat 32 (c / 2 ^ 32)), BitVec.ofNat 32 c)

/-- RESIDENCY_READ, `dt` AON ticks on. -/
def execResidencyRead (m : Fin 4) (dt : Nat) (s : State) : Res :=
  if s.alive then
    let r := residencyRead (aonPass s dt) m.val
    ok { r.1 with resp := ⟨0, r.2.setWidth 64⟩ }
  else ok s

end Sys2Proof.Machine
end

