-- ==== Sys2Proof/Machine/LinkTest.lean ====
section
/-!
DEFINITION. The run-time link test (23_debug_bist.md R460 to R463) and the DBG registers that act on held cores (R452).
-/

namespace Sys2Proof.Machine

/-! ### Connect-under-reset -/

/-- A write of DBG_CUR: GO releases held cores at DBG_PCi, DONE_OK lets DONE go (R452). -/
def curWrite (s : State) (v : Word32) : State :=
  let s1 := (List.range 4).foldl (fun acc i =>
    if v.getLsbD i && (acc.core i).held then
      let pc := (acc.reg (Reg.DBG_PC_LO i)).toNat + 2 ^ 32 * (acc.reg (Reg.DBG_PC_HI i)).toNat
      (acc.setCore i { acc.core i with held := false, pc := pc }).clearF ⟨Reg.DBG_STAT, i, i⟩
    else acc) s
  if v.getLsbD 31 then { s1 with ld := { s1.ld with doneCur := false } } else s1

/-- CORE_RELEASE: a write of DBG_CUR.GO. -/
def execCoreRelease (mask : Fin 16) (s : State) : Res := if s.alive then ok (curWrite s (BitVec.ofNat 32 mask.val)) else ok s

/-- DONE_OK: a write of DBG_CUR.DONE_OK. -/
def execDoneOk (s : State) : Res := if s.alive then ok (curWrite s 0x80000000#32) else ok s

/-! ### The test -/

/-- A write of BIST_RT_CTRL: REPAIR and PAIR are stored; GO requests a test (R460). -/
def rtWrite (s : State) (v : Word32) : State :=
  let pair := v.toNat % 128
  let s1 := (s.putF Reg.BIST_RT_CTRL_REPAIR (v.getLsbD 30)).setF Reg.BIST_RT_CTRL_PAIR pair
  if !v.getLsbD 31 then s1
  else if 120 ≤ pair ∨ s.rt.isSome ∨ !s.user then s1.raiseF Reg.BIST_RT_STAT_REFUSED
  else { s1.raiseF Reg.BIST_RT_STAT_BUSY with rt := some { pair := pair, repair := v.getLsbD 30, start := none, saved := [] } }

/-- RT_BIST_REQUEST: a write of BIST_RT_CTRL with GO = 1. -/
def execRtBistRequest (pair : Fin 128) (repair : Bool) (s : State) : Res :=
  if s.alive then ok (rtWrite s (BitVec.ofNat 32 (2 ^ 31 + repair.toNat * 2 ^ 30 + pair.val))) else ok s

/-- The wire register of a key belongs to the pair. -/
def inPair (pair k : Nat) : Bool := wregSector k % 120 == pair

/-- A clearing window opens: a requested test begins in it where it has at least 200 slots (R461). -/
def rtOpen (s : State) : State :=
  match s.rt with
  | some t =>
    if t.start.isNone && decide (200 ≤ s.time.clr * s.time.tickSlots) then
      { s with rt := some { t with start := some s.time.slots, saved := s.wreg.filter (fun kv => inPair t.pair kv.1) },
               wreg := s.wreg.filter (fun kv => !inPair t.pair kv.1) }
    else s
  | none => s

/-- The wire registers of the pair after a slot of the test: they present 0, and take their saved values at the end of slot 199
(R461), 0 where the set-reset holds the sector (R102). `s` has the slot counter of the next slot. -/
def rtSlot (s : State) : State :=
  match s.rt with
  | some t =>
    match t.start with
    | some j =>
      if s.time.slots < j + 200 then { s with wreg := s.wreg.filter (fun kv => !inPair t.pair kv.1) }
      else if s.time.slots = j + 200 then
        let back := t.saved.filter (fun kv => !s.held (wregSector kv.1))
        { s with wreg := tsets (fun _ => false) (s.wreg.filter (fun kv => !inPair t.pair kv.1)) back }
      else s
    | none => s
  | none => s

/-- A forced frame boundary in slots 0 to 199 abandons the test (R463). -/
def rtAbort (s : State) : State :=
  match s.rt with
  | some t =>
    if t.start.any (fun j => decide (s.time.slots < j + 200)) then
      { (s.raiseF Reg.BIST_RT_STAT_ABORT).clearF Reg.BIST_RT_STAT_BUSY with rt := none }.raiseEv 213
    else s
  | none => s

/-- The physical link of a working link: itself, or the spare it has been moved onto. -/
def physical (m link : Nat) : Nat :=
  if spareUser m 48 = some link then 48 else if spareUser m 49 = some link then 49 else link

/-- One group of the pair after the test, where the physical links of `bad` fail. -/
def rtGroup (s : State) (pair place : Nat) (repair : Bool) (bad : List Nat) : State :=
  let key := 144 * pair + place
  let g := tileOf pair (place % 12) (place / 12)
  let m0 := tget (fun _ => 0) s.spares key
  let lost := fun (t : State) => (t.raiseF Reg.BIST_RT_STAT_FAIL).incF Reg.BIST_RT_STAT_FAIL_CNT
  let s1 := (List.range 48).foldl (fun acc link =>
    if bad.contains (physical m0 link) && !tget (fun _ => false) acc.vdead (vlinkKey g link) then
      let m := tget (fun _ => 0) acc.spares key
      match [48, 49].find? (fun n => (spareUser m n).isNone && !bad.contains n) with
      | some n =>
        if repair then { acc.incF Reg.BIST_RT_STAT_REP_CNT with spares := tset (fun _ => 0) acc.spares key (spareSet m n link) }
        else lost { acc with vdead := tset (fun _ => false) acc.vdead (vlinkKey g link) true }
      | none => lost { acc with vdead := tset (fun _ => false) acc.vdead (vlinkKey g link) true }
    else acc) s
  ([48, 49].filter (fun n => bad.contains n && (spareUser m0 n).isNone)).foldl (fun acc _ => lost acc) s1

/-- RT_BIST_RUN: the test has run for its 200 slots; `fails` are the links found failing, by tile place and number, in the order
they are found (R462). -/
def execRtBistRun (fails : List (Fin 144 × Fin 50)) (s : State) : Res :=
  match s.rt with
  | some t =>
    if t.start.any (fun j => decide (j + 200 ≤ s.time.slots)) then
      let s0 := ((s.setF Reg.BIST_RT_STAT_FAIL_CNT 0).setF Reg.BIST_RT_STAT_REP_CNT 0).setReg Reg.BIST_RT_FAIL 0
      let s1 := match fails with
        | (p, n) :: _ =>
          ((s0.setF Reg.BIST_RT_FAIL_U (p.val % 12)).setF Reg.BIST_RT_FAIL_V (p.val / 12)).setF Reg.BIST_RT_FAIL_LINK n.val
        | [] => s0
      let places := (fails.map (fun f => f.1.val)).eraseDups
      let s2 := places.foldl (fun acc p =>
        rtGroup acc t.pair p t.repair ((fails.filter (fun f => f.1.val == p)).map (fun f => f.2.val))) s1
      ok ({ (s2.raiseF Reg.BIST_RT_STAT_DONE).clearF Reg.BIST_RT_STAT_BUSY with rt := none }.raiseEv 213)
    else ok s
  | none => ok s

end Sys2Proof.Machine
end

