-- ==== Sys2Proof/Machine/Steward.lean ====
section
/-!
DEFINITION. Steward cores (18_steward_events.md): caches, coherence through the snoop hub, CSRs, traps and the instructions of
RV64IMAC with Zicsr, Zifencei and Zicbom.
-/

namespace Sys2Proof.Machine

def coreId (i : Nat) : Nat := 0x200 + i

/-- Only the memory dies and the steward RAM are cacheable (R365). -/
def cacheable (a : Nat) : Bool := match regionOf a with
  | .dies _ => true
  | .sram => true
  | _ => false

/-- Register x_r of a core. -/
def Core.rx (c : Core) (r : Nat) : Nat := if r = 0 then 0 else (tget (fun _ => 0) c.x r).toNat

def Core.setX (c : Core) (r v : Nat) : Core :=
  if r = 0 then c else { c with x := tset (fun _ => 0) c.x r (BitVec.ofNat 64 v) }

/-! ### CSRs and traps -/

/-- A trap is taken: mepc, mcause, mtval, MPIE and MIE, and the pc goes to mtvec; an interrupt in vectored mode to its entry. -/
def coreTrap (s : State) (i cause : Nat) (int : Bool) (tval : Nat) : State :=
  let c := s.core i
  let st := c.csrGet 0x300
  let mie := st / 8 % 2
  let vec := c.csrGet 0x305
  let base := vec / 4 * 4
  let c1 := (((c.csrPut 0x341 c.pc).csrPut 0x342 (cause + if int then 2 ^ 63 else 0)).csrPut 0x343 tval).csrPut 0x300 (128 * mie)
  s.setCore i { c1 with pc := (if int ∧ vec % 4 = 1 then base + 4 * cause else base) % 2 ^ 64, wait := .none, ubuf := [] }

/-- A trap whose mtval the spec leaves open. -/
def coreTrapFree (s : State) (i cause : Nat) : State :=
  let (n, s1) := s.draw
  coreTrap s1 i cause false (Config.mtval n).toNat

/-- The present STW cycle, and mcycle of a core: the STW cycles since it stood at 0 (R362). -/
def State.stwCycle (s : State) : Nat := s.time.vco / 5

def mcycle (s : State) (i : Nat) : Nat := (s.stwCycle + 2 ^ 64 - (s.core i).cycle0) % 2 ^ 64

/-- The value of a CSR of core i (Table 18.1); nothing for a CSR that does not exist. -/
def csrRead (s : State) (i n : Nat) : State × Option Nat :=
  let c := s.core i
  if n = 0x300 then (s, some (c.csrGet 0x300 + 0x1800))
  else if n = 0x301 then (s, some 0x8000000000001105)
  else if n = 0x304 ∨ n = 0x305 ∨ (0x340 ≤ n ∧ n ≤ 0x343) ∨ n = 0x7C0 then (s, some (c.csrGet n))
  else if n = 0x344 then (s, some (mip s i))
  else if n = 0xB00 ∨ n = 0xC00 then (s, some (mcycle s i))
  else if n = 0xB02 ∨ n = 0xC02 then (s, some c.retired)
  else if n = 0xC01 then (s, some (s.aon.ticks % 2 ^ 64))
  else if n = 0xF11 ∨ n = 0xF12 ∨ n = 0xF15 then (s, some 0)
  else if n = 0xF13 then (s, some 1)
  else if n = 0xF14 then (s, some i)
  else if n = 0x320 ∨ (0x323 ≤ n ∧ n ≤ 0x33F) ∨ (0x3A0 ≤ n ∧ n ≤ 0x3AF ∧ n % 2 = 0) ∨ (0x3B0 ≤ n ∧ n ≤ 0x3EF) ∨
      (0xB03 ≤ n ∧ n ≤ 0xB1F) ∨ (0xC03 ≤ n ∧ n ≤ 0xC1F) then (s, some 0)
  else (s, none)

/-- A CSR written in STW cycle `now`: each keeps the bits it has. -/
def csrWrite (now : Nat) (c : Core) (n v : Nat) : Core :=
  match n with
  | 0x300 => c.csrPut n (v &&& 0x88)
  | 0x304 => c.csrPut n (v &&& 0x888)
  | 0x305 => c.csrPut n (v / 4 * 4 + v % 2)
  | 0x340 => c.csrPut n v
  | 0x341 => c.csrPut n (v / 2 * 2)
  | 0x342 => c.csrPut n v
  | 0x343 => c.csrPut n v
  | 0x7C0 => c.csrPut n (v % 64)
  | 0xB00 => { c with cycle0 := (now + 2 ^ 64 - v % 2 ^ 64) % 2 ^ 64 }
  | 0xB02 => { c with retired := v % 2 ^ 64 }
  | _ => c

/-! ### The data cache -/

/-- The slot that holds a line. -/
def dSlot (c : Core) (line : Nat) : Option Nat :=
  ((List.range 4).map (fun w => 4 * (line % 128) + w)).find? (fun k =>
    let d := tget (fun _ => (0, 0, 0)) c.dline k
    d.1 == line && d.2.1 != 0)

def dState (c : Core) (k : Nat) : Nat := (tget (fun _ => (0, 0, 0)) c.dline k).2.1
def dKey (c : Core) (k : Nat) : Nat := (tget (fun _ => (0, 0, 0)) c.dline k).2.2

/-- A line's state set; 0 empties the slot. -/
def dSet (c : Core) (k line st key : Nat) : Core :=
  let v := if st = 0 then (0, 0, 0) else (line, st, key)
  { c with dline := tset (fun _ => (0, 0, 0)) c.dline k v, resv := if st = 0 ∧ c.resv = some line then none else c.resv }

def dWordAt (c : Core) (k j : Nat) : CodeWord := tget (fun _ => 0) c.dword (8 * k + j)

def dPut (c : Core) (k j v : Nat) : Core :=
  { c with dword := tset (fun _ => 0) c.dword (8 * k + j) (cwEncode (BitVec.ofNat 64 v)) }

/-- The value of a decoded word. -/
def decVal (d : Decoded 64) : Option Nat := match d with
  | .clean v => some v.toNat
  | .corrected v => some v.toNat
  | .bad => none

/-- A whole line; nothing where a word is uncorrectable. -/
def dLine (c : Core) (k : Nat) : Option Nat :=
  (List.range 8).foldl (fun acc j =>
    match acc, decVal (cwDecode (dWordAt c k j)) with
    | some x, some v => some (x + v * 2 ^ (64 * j))
    | _, _ => none) (some 0)

/-- A core has as many requests outstanding as Table 13.1 allows; an access that needs one more waits. -/
def coreFull (s : State) (i : Nat) : Bool := decide (64 ≤ outCount s (coreId i) false)

/-- A modified line is written back; one with an uncorrectable word is discarded, with event 211 (R368, R372). -/
def writeBack (s : State) (i k line : Nat) : State :=
  let c := s.core i
  match dLine c k with
  | none => (s.setCore i (dSet c k line 0 0)).raiseEv 211
  | some data =>
    let r := issue s (mkReq 2 4 (coreId i) (dKey c k) (64 * line) data) 2 line
    r.1.setCore i { r.1.core i with wb := c.wb ++ [(r.2, line)] }

/-- A line leaves the cache: written back where it is modified and that is asked for. -/
def dEvict (s : State) (i k line : Nat) (wb : Bool) : State :=
  let s1 := if wb && dState (s.core i) k == 3 then writeBack s i k line else s
  s1.setCore i (dSet (s1.core i) k line 0 0)

/-- A line comes in: a free way, or one that gives up its line (R365). -/
def dInstall (s : State) (i line st key data : Nat) : State :=
  let c := s.core i
  let ways := (List.range 4).map (fun w => 4 * (line % 128) + w)
  let place : State × Nat := match ways.find? (fun k => dState c k == 0) with
    | some k => (s, k)
    | none =>
      let (n, s1) := s.draw
      let k := 4 * (line % 128) + Config.victim n % 4
      (dEvict s1 i k (tget (fun _ => (0, 0, 0)) c.dline k).1 true, k)
  let c1 := dSet (place.1.core i) place.2 line st key
  place.1.setCore i ((List.range 8).foldl (fun acc j => dPut acc place.2 j (data / 2 ^ (64 * j) % 2 ^ 64)) c1)

/-! ### The snoop hub -/

/-- The SNP flit of Table 18.2 for a line address. -/
def snpFlit (type core fwd line tag shared err : Nat) : Nat :=
  let sram : Bool := decide (0x600000000 ≤ 64 * line)
  type + 2 ^ 4 * core + 2 ^ 6 * fwd + 2 ^ 7 * sram.toNat + 2 ^ 8 * (if sram then line % 0x10000 else line % 2 ^ 28) +
    2 ^ 36 * tag + 2 ^ 42 * shared + 2 ^ 43 * err

def snpType (f : Nat) : Nat := f % 16
def snpCore (f : Nat) : Nat := f / 2 ^ 4 % 4
def snpLine (f : Nat) : Nat := f / 2 ^ 8 % 2 ^ 28 + (if f.testBit 7 then 0x600000000 / 64 else 0)

/-- A SNP flit sent from a router. -/
def sendSnp (s : State) (at_ f dst : Nat) : State := injectFlit s at_ 3 0 (.snp f dst)

/-- The SNP flit at the head of a router's ejection queue. -/
def snpHead (s : State) (r : Nat) : Option Nat := match s.ejected r 3 0 with
  | some (.snp f _) => some f
  | _ => none

/-- A write-back of a line is outstanding at a core. -/
def wbOpen (c : Core) (line : Nat) : Bool := c.wb.any (fun e => e.2 == line)

/-- The SNP type of a request: those of an LR, 7 and 8, are an RDX and an UPG. -/
def snpKind (kind : Nat) : Nat := if 7 ≤ kind then kind - 5 else kind

/-- A core asks the hub under a request tag of its own, one of those that the SNP flit has room for. It waits while it has no such tag, or
while its own write-back of the line is under way, which its read of the line must not pass (R367; DEDUCED, log 149). -/
def askHub (s : State) (i kind line addr : Nat) : State :=
  let d := s.draw
  match (freeTags s (coreId i) false).filter (fun t => t < 64) with
  | [] => s
  | t :: ts =>
    if wbOpen (s.core i) line then s
    else
      let tag := (t :: ts).getD (Config.tagPick d.1 % (ts.length + 1)) t
      let s1 := d.2.setCore i { d.2.core i with wait := .coh kind line addr 1, snp := some tag }
      sendSnp s1 (initiatorRouter (coreId i)) (snpFlit (snpKind kind) i 0 line tag 0 0) hubRouter

/-- The oldest waiting request for a line is forwarded to the other three cores, where none is being served (R367). -/
def hubServe (s : State) (line : Nat) : State :=
  let mine := fun (h : HubReq) => snpLine h.flit == line
  if s.hub.any (fun h => mine h && h.fwd) then s
  else
    match s.hub.find? mine with
    | none => s
    | some h =>
      let s1 := { s with hub := s.hub.map (fun g => if g = h then { g with fwd := true, left := 3 } else g) }
      ((List.range 4).filter (· != snpCore h.flit)).foldl (fun acc j =>
        sendSnp acc hubRouter (h.flit + 2 ^ 6) (initiatorRouter (coreId j))) s1

/-- SNOOP_REQUEST: the hub takes a request and forwards it once no other is served for its line. -/
def execSnoopRequest (s : State) : Res :=
  match snpHead s hubRouter with
  | some f =>
    if s.nocRuns && 1 ≤ snpType f && snpType f ≤ 6 then
      let s1 := s.eject hubRouter 3 0
      ok (hubServe { s1 with hub := s1.hub ++ [{ flit := f, fwd := false, left := 0, shared := false, granted := false }] } (snpLine f))
    else ok s
  | none => ok s

/-- The ACK of a snoop, with SHARED where the core keeps a copy. -/
def ackFlit (s : State) (j f : Nat) : Nat :=
  let keeps := match dSlot (s.core j) (snpLine f) with
    | some _ => 1
    | none => 0
  snpFlit 8 (snpCore f) 0 (snpLine f) (f / 2 ^ 36 % 64) keeps 0

/-- The action of a snooped core (Table 18.3). -/
def snoopAct (s : State) (j f : Nat) : State :=
  let line := snpLine f
  match dSlot (s.core j) line with
  | none => s
  | some k =>
    let st := dState (s.core j) k
    let put := fun (t : State) (n : Nat) => t.setCore j (dSet (t.core j) k line n (dKey (t.core j) k))
    let saved := if st = 3 then writeBack s j k line else s
    let keep := fun (n : Nat) => if (dSlot (saved.core j) line).isSome then put saved n else saved
    match snpType f with
    | 1 => keep 1
    | 4 => if st = 3 then keep 2 else s
    | 6 => dEvict s j k line false
    | _ => dEvict saved j k line false

/-- ACKs whose write-back has its response are sent (R368). -/
def sendAcks (s : State) (j : Nat) : State :=
  let c := s.core j
  let now := c.acks.filter (fun e => !wbOpen c e.1)
  now.foldl (fun acc e => sendSnp acc (initiatorRouter (coreId j)) e.2 hubRouter)
    (s.setCore j { c with acks := c.acks.filter (fun e => wbOpen c e.1) })

/-- SNOOP_FORWARD: a core acts on a forwarded request and sends its ACK, after the write-back that its action needs. -/
def execSnoopForward (j : Fin 4) (s : State) : Res :=
  let r := initiatorRouter (coreId j)
  match snpHead s r with
  | some f =>
    if s.nocRuns && f.testBit 6 then
      let s1 := snoopAct (s.eject r 3 0) j f
      let c := s1.core j
      ok (sendAcks (s1.setCore j { c with acks := c.acks ++ [(snpLine f, ackFlit s1 j f)] }) j)
    else ok s
  | none => ok s

/-- The hub sends GRANT to the requester of a request. -/
def hubGrant (s : State) (h : HubReq) (err : Nat) : State :=
  let s1 := { s with hub := s.hub.map (fun g => if g = h then { g with granted := true } else g) }
  sendSnp s1 hubRouter (snpFlit 9 (snpCore h.flit) 0 (snpLine h.flit) (h.flit / 2 ^ 36 % 64) h.shared.toNat err)
    (initiatorRouter (coreId (snpCore h.flit)))

/-- A response that finds no request is dropped and recorded (R267). -/
def lateDrop (s : State) : State := ((s.raiseF Reg.NOC_STAT_LATE).incF Reg.NOC_CNT_LATE_CNT).raiseEv 229

/-- SNOOP_ACK: the hub collects an ACK, and sends GRANT with the last. -/
def execSnoopAck (s : State) : Res :=
  match snpHead s hubRouter with
  | some f =>
    if s.nocRuns && snpType f == 8 then
      let s1 := s.eject hubRouter 3 0
      match s1.hub.find? (fun h => h.fwd && !h.granted && h.left != 0 && snpLine h.flit == snpLine f &&
          snpCore h.flit == snpCore f && h.flit / 2 ^ 36 % 64 == f / 2 ^ 36 % 64) with
      | none => ok (lateDrop s1)
      | some h =>
        let h1 := { h with left := h.left - 1, shared := h.shared || f.testBit 42 }
        let s2 := { s1 with hub := s1.hub.map (fun g => if g = h then h1 else g) }
        ok (if h1.left = 0 then hubGrant s2 h1 0 else s2)
    else ok s
  | none => ok s

/-- A core ends its coherence request with DONE, which frees its tag. -/
def sendDone (s : State) (i line : Nat) : State :=
  sendSnp (s.setCore i { s.core i with snp := none }) (initiatorRouter (coreId i)) (snpFlit 10 i 0 line ((s.core i).snp.getD 0) 0 0)
    hubRouter

/-- The cause of the access fault of a coherence request: a load for RD and for those of an LR, otherwise a store or AMO (R371). -/
def cohCause (kind : Nat) : Nat := if kind = 1 ∨ 7 ≤ kind then 5 else 7

/-- A line is read for a granted request. -/
def cohRead (s : State) (i kind line addr stage : Nat) : State :=
  let key := (s.core i).csrGet 0x7C0
  let r := issue s (mkReq 0 4 (coreId i) key (64 * line) 0) 3 key
  r.1.setCore i { r.1.core i with wait := .coh kind line addr stage }

/-- Cache maintenance at the requester itself; a modified line that cannot be written back is an access fault (R372). -/
def cohOwn (s : State) (i kind line addr : Nat) : State :=
  let lost := match dSlot (s.core i) line with
    | none => false
    | some k => (kind == 4 || kind == 5) && dState (s.core i) k == 3 && (dLine (s.core i) k).isNone
  let s1 := match dSlot (s.core i) line with
    | none => s
    | some k =>
      match kind with
      | 4 =>
        if dState (s.core i) k = 3 then
          let t := writeBack s i k line
          if lost then t else t.setCore i (dSet (t.core i) k line 2 (dKey (t.core i) k))
        else s
      | 5 => dEvict s i k line true
      | _ => dEvict s i k line false
  if lost then sendDone (s1.setCore i { s1.core i with wait := .fault (cohCause kind) addr }) i line
  else if wbOpen (s1.core i) line then s1.setCore i { s1.core i with wait := .coh kind line addr 5 }
  else sendDone (s1.setCore i { s1.core i with wait := .cboDone }) i line

/-- SNOOP_GRANT: the requester completes its access on GRANT (R368, R369). -/
def execSnoopGrant (i : Fin 4) (s : State) : Res :=
  let r := initiatorRouter (coreId i)
  match snpHead s r, (s.core i).wait with
  | some f, .coh kind line addr 1 =>
    if s.nocRuns && snpType f == 9 then
      let s1 := s.eject r 3 0
      if f.testBit 43 then ok (sendDone (s1.setCore i { s1.core i with wait := .fault (cohCause kind) addr }) i line)
      else
        match snpKind kind with
        | 1 => ok (cohRead s1 i kind line addr (if f.testBit 42 then 3 else 2))
        | 2 => ok (cohRead s1 i kind line addr 4)
        | 3 =>
          match dSlot (s1.core i) line with
          | some k => ok (sendDone (s1.setCore i { dSet (s1.core i) k line 3 (dKey (s1.core i) k) with wait := .none }) i line)
          | none => ok (cohRead s1 i kind line addr 4)
        | _ => ok (cohOwn s1 i kind line addr)
    else ok s
  | some f, _ => ok (if s.nocRuns && snpType f == 9 then s.eject r 3 0 else s)
  | _, _ => ok s

/-- SNOOP_DONE: the hub takes DONE and serves the next request for the line; flits of other types are consumed. -/
def execSnoopDone (s : State) : Res :=
  match snpHead s hubRouter with
  | some f =>
    let t := snpType f
    if s.nocRuns && t != 8 && !(1 ≤ t && t ≤ 6) then
      let s1 := s.eject hubRouter 3 0
      if t = 10 then
        let s2 := { s1 with hub := s1.hub.filter (fun h => !(h.fwd && snpLine h.flit == snpLine f && snpCore h.flit == snpCore f)) }
        ok (hubServe s2 (snpLine f))
      else ok s1
    else ok s
  | none => ok s

/-- SNOOP_ACK_TIMEOUT: an ACK of the request that the hub serves for core i is missing at T_o, while timers run; the request's tag is
quarantined, so that the ACK is dropped when it comes (R265, R267, R369). -/
def execSnoopAckTimeout (i : Fin 4) (s : State) : Res :=
  match s.hub.find? (fun h => h.fwd && !h.granted && snpCore h.flit == i.val) with
  | some h =>
    let a := 64 * snpLine h.flit
    let s1 := ((((s.setF Reg.NOC_STAT_NET 2).setF Reg.NOC_STAT_ID (coreId i.val)).setF Reg.NOC_STAT_TAG (h.flit / 2 ^ 36 % 64)).setF
      Reg.NOC_STAT_LN 0)
    let s2 := (s1.setReg Reg.NOC_TADDR_LO (BitVec.ofNat 32 a)).setF Reg.NOC_TADDR_HI_ADDR_HI (a / 2 ^ 32)
    let s3 := { s2 with quar := s2.quar ++ [(2 * coreId i.val, h.flit / 2 ^ 36 % 64)] }
    okIf (s.nocRuns && s.flag Reg.NOC_TMO_EN) s ((hubGrant s3 h 1).raiseEv 231)
  | none => ok s

end Sys2Proof.Machine
end

