-- ==== Sys2Proof/Machine/StewardExec.lean ====
section
/-!
DEFINITION. What a steward core executes (18_steward_events.md R362 to R372, R377), how it takes responses from the network,
and its release (R363).
-/

namespace Sys2Proof.Machine

/-! ### Fetch -/

/-- The slot of the instruction cache that holds a line. -/
def iSlot (c : Core) (line : Nat) : Option Nat :=
  ((List.range 4).map (fun w => 4 * (line % 128) + w)).find? (fun k => tget (fun _ => 0) c.iline k == line + 1)

/-- A line for the instruction cache is read. -/
def iFill (s : State) (i line a : Nat) : State :=
  if coreFull s i then s
  else
    let r := issue s (mkReq 0 4 (coreId i) ((s.core i).csrGet 0x7C0) (64 * line) 0) 4 a
    r.1.setCore i { r.1.core i with wait := .ifill line }

/-- A line comes into the instruction cache, into a free way or one that is given up. -/
def iInstall (s : State) (i line data : Nat) : State :=
  let c := s.core i
  let ways := (List.range 4).map (fun w => 4 * (line % 128) + w)
  let place : State × Nat := match ways.find? (fun k => tget (fun _ => 0) c.iline k == 0) with
    | some k => (s, k)
    | none =>
      let (n, s1) := s.draw
      (s1, 4 * (line % 128) + Config.victim n % 4)
  let k := place.2
  let words := (List.range 8).map (fun j => (8 * k + j, cwEncode (BitVec.ofNat 64 (data / 2 ^ (64 * j)))))
  place.1.setCore i { c with iline := tset (fun _ => 0) c.iline k (line + 1), iword := tsets (fun _ => 0) c.iword words }

/-- The halfword at an address, or the beginning of the access that brings it (R365, R372). -/
def fetchHalf (s : State) (i a : Nat) : State × Option Nat :=
  let c := s.core i
  if cacheable a then
    let line := a / 64
    match iSlot c line with
    | none => (iFill s i line a, none)
    | some k =>
      match decVal (cwDecode (tget (fun _ => 0) c.iword (8 * k + a % 64 / 8))) with
      | some v => (s, some (v / 2 ^ (8 * (a % 8)) % 65536))
      | none => (iFill (s.setCore i { c with iline := tset (fun _ => 0) c.iline k 0 }) i line a, none)
  else
    match c.ubuf.find? (fun e => e.1 == a) with
    | some e => (s, some e.2)
    | none =>
      if coreFull s i then (s, none)
      else
        let r := issue s (mkReq 0 1 (coreId i) (c.csrGet 0x7C0) a 0) 5 a
        (r.1.setCore i { r.1.core i with wait := .ufetch a }, none)

/-- The instruction at the program counter with its length, once all of it is there. -/
def coreFetch (s : State) (i : Nat) : State × Option (Rv × Nat) :=
  let pc := (s.core i).pc
  match fetchHalf s i pc with
  | (s1, none) => (s1, none)
  | (s1, some lo) =>
    if isShort lo then (s1, some (decodeRv true lo))
    else
      match fetchHalf s1 i ((pc + 2) % 2 ^ 64) with
      | (s2, none) => (s2, none)
      | (s2, some hi) => (s2, some (decodeRv true (lo + 65536 * hi)))

/-! ### Running an instruction -/

/-- An instruction retires: pc and minstret move, and what it fetched or waited for is over. -/
def coreRetire (s : State) (i npc : Nat) : State :=
  let c := s.core i
  s.setCore i { c with pc := npc, retired := (c.retired + 1) % 2 ^ 64, wait := .none, ubuf := [] }

/-- An instruction writes a register and retires. -/
def coreFinish (s : State) (i npc rd v : Nat) : State := coreRetire (s.setCore i ((s.core i).setX rd v)) i npc

/-- A core executes: released, not held, and its clock runs. -/
def coreRuns (s : State) (i : Nat) : Bool := s.alive && s.phase == .run && (s.core i).on && !(s.core i).held

/-- A core is ready to go on with an instruction: it waits for nothing, or has what it waited for. -/
def coreReady (c : Core) : Bool := match c.wait with
  | .none => true
  | .have _ => true
  | .cboDone => true
  | _ => false

/-- An interrupt is taken before the next instruction: external, then software, then timer (Table 18.1). -/
def coreInterrupt (s : State) (i : Nat) : Option Nat :=
  let m := coreInts s i
  if ((s.core i).csrGet 0x300).testBit 3 ∧ (s.core i).wait = .none ∧ m ≠ 0 then
    some (if m.testBit 11 then 11 else if m.testBit 3 then 3 else 7)
  else none

/-- The command of one kind of instruction: `mine` says which instructions it runs. Where the core waits, an interrupt or a
fault is due, or the instruction is another's, nothing happens but that its fetch may begin. No instruction issues in a closed STW cycle
(R435). -/
def coreRow (s : State) (i : Nat) (mine : Rv → Bool) (run : State → Rv → Nat → State) : Res :=
  if coreRuns s i && s.gateOpen 5 && coreReady (s.core i) && (coreInterrupt s i).isNone then
    match coreFetch s i with
    | (s1, none) => ok s1
    | (s1, some (ins, len)) => if mine ins then ok (run s1 ins len) else ok s1
  else ok s

/-- The address after an instruction. -/
def coreNext (s : State) (i len : Nat) : Nat := ((s.core i).pc + len) % 2 ^ 64

def sizeCode (n : Nat) : Nat := if n = 1 then 0 else if n = 2 then 1 else if n = 4 then 2 else 3

/-- A word of a cached line, where it can be used. A clean line with a bad word is dropped, for a refill; a modified one is
lost, and the answer is a fault (R372). -/
def dWord (s : State) (i k line j : Nat) : State × Option Nat × Bool :=
  match decVal (cwDecode (dWordAt (s.core i) k j)) with
  | some v => (s, some v, false)
  | none =>
    let m := dState (s.core i) k == 3
    let s1 := s.setCore i (dSet (s.core i) k line 0 0)
    if m then (s1.raiseEv 211, none, true) else (s1, none, false)

/-- A request for an uncached access, whose answer the core waits for. -/
def uncached (s : State) (i op size a data note : Nat) : State :=
  if coreFull s i then s
  else
    let r := issue s (mkReq op (sizeCode size) (coreId i) ((s.core i).csrGet 0x7C0) a (data * 2 ^ (8 * (a % 8)) % 2 ^ 64)) note 0
    r.1.setCore i { r.1.core i with wait := .data }

/-- A load (R365, R371). -/
def coreLoad (s : State) (i rd a size : Nat) (signed : Bool) (npc : Nat) : State :=
  let line := a / 64
  let done := fun (t : State) (v : Nat) => coreFinish t i npc rd (loadExt 64 size signed (v / 2 ^ (8 * (a % 8))))
  if a % size ≠ 0 then coreTrap s i 4 false a
  else if cacheable a then
    match dSlot (s.core i) line with
    | none => askHub s i 1 line a
    | some k =>
      match dWord s i k line (a % 64 / 8) with
      | (s1, some v, _) => done s1 v
      | (s1, none, true) => coreTrap s1 i 5 false a
      | (s1, none, false) => askHub s1 i 1 line a
  else
    match (s.core i).wait with
    | .have v => done s v
    | _ => uncached s i 0 size a 0 1

/-- A word with `size` bytes from the byte lane of an address replaced. -/
def coreMerge (old a size v : Nat) : Nat :=
  let lo := 8 * (a % 8)
  old % 2 ^ lo + v % 2 ^ (8 * size) * 2 ^ lo + old / 2 ^ (lo + 8 * size) * 2 ^ (lo + 8 * size)

/-- The line of a write, or of an LR, is brought to M: the answer is its slot where it is there already. E goes to M in silence. -/
def ownLine (s : State) (i line a : Nat) (lr : Bool) : State × Option Nat :=
  match dSlot (s.core i) line with
  | none => (askHub s i (if lr then 7 else 2) line a, none)
  | some k =>
    match dState (s.core i) k with
    | 1 => (askHub s i (if lr then 8 else 3) line a, none)
    | 2 => (s.setCore i (dSet (s.core i) k line 3 (dKey (s.core i) k)), some k)
    | _ => (s, some k)

/-- A word of a line that is brought to M, with its slot. A bad word of a clean line is filled anew; one of a modified line is
an access fault (R372). -/
def ownWord (s : State) (i line a : Nat) (lr : Bool) : State × Option (Nat × Nat) :=
  match dSlot (s.core i) line with
  | none => (askHub s i (if lr then 7 else 2) line a, none)
  | some k =>
    match dWord s i k line (a % 64 / 8) with
    | (s1, some v, _) =>
      match ownLine s1 i line a lr with
      | (s2, some k2) => (s2, some (k2, v))
      | (s2, none) => (s2, none)
    | (s1, none, true) => (coreTrap s1 i (if lr then 5 else 7) false a, none)
    | (s1, none, false) => (askHub s1 i (if lr then 7 else 2) line a, none)

/-- Posted stores outstanding. -/
def postedStores (s : State) (i : Nat) : Bool := s.outst.any (fun o => o.id == coreId i && o.note == 0)

/-- A store (R365, R371). -/
def coreStore (s : State) (i a size v npc : Nat) : State :=
  let line := a / 64
  if a % size ≠ 0 then coreTrap s i 6 false a
  else if cacheable a then
    if size = 8 then
      match ownLine s i line a false with
      | (s1, none) => s1
      | (s1, some k) => coreRetire (s1.setCore i (dPut (s1.core i) k (a % 64 / 8) v)) i npc
    else
      match ownWord s i line a false with
      | (s1, none) => s1
      | (s1, some (k, old)) => coreRetire (s1.setCore i (dPut (s1.core i) k (a % 64 / 8) (coreMerge old a size v))) i npc
  else if !coreFull s i then
    let d := v % 2 ^ (8 * size) * 2 ^ (8 * (a % 8))
    coreRetire (issue s (mkReq 1 (sizeCode size) (coreId i) ((s.core i).csrGet 0x7C0) a d) 0 0).1 i npc
  else s

/-- CSRRW, CSRRS, CSRRC and their immediate forms. -/
def coreCsr (s : State) (i f3 rd rs1 num npc : Nat) : State :=
  let src := if f3 < 4 then (s.core i).rx rs1 else rs1
  let writes := f3 % 4 = 1 ∨ rs1 ≠ 0
  match csrRead s i num with
  | (_, none) => coreTrapFree s i 2
  | (s1, some old) =>
    if writes ∧ 0xC00 ≤ num then coreTrapFree s i 2
    else
      let v := if f3 % 4 = 1 then src else if f3 % 4 = 2 then old ||| src else old - (old &&& src)
      let c1 := if writes then csrWrite s1.stwCycle (s1.core i) num v else s1.core i
      let s2 := coreFinish (s1.setCore i c1) i npc rd old
      if writes ∧ num = 0xB02 then s2.setCore i { s2.core i with retired := v % 2 ^ 64 } else s2

/-- MRET: MIE takes MPIE, MPIE becomes 1, the pc goes to mepc. -/
def coreMret (s : State) (i : Nat) : State :=
  let c := s.core i
  let st := c.csrGet 0x300
  coreRetire (s.setCore i (c.csrPut 0x300 (128 + 8 * (st / 128 % 2)))) i (c.csrGet 0x341)

/-- What STEWARD_INSTRUCTION runs: everything without a row of its own. -/
def plainRv (ins : Rv) : Bool := match ins with
  | .fence p => p
  | .fenceI => false
  | .wfi => false
  | .lr .. => false
  | .sc .. => false
  | .amo .. => false
  | .cbo .. => false
  | _ => true

/-- The effect of such an instruction. -/
def coreRun (s : State) (i : Nat) (ins : Rv) (len : Nat) : State :=
  let c := s.core i
  let npc := coreNext s i len
  match rvPlain 64 ins len c.pc c.rx with
  | some (n, rd, v) => coreFinish s i n rd v
  | none =>
    match ins with
    | .load rd rs1 imm size signed => coreLoad s i rd (wrapN 64 ((c.rx rs1 : Int) + imm)) size signed npc
    | .store rs1 rs2 imm size => coreStore s i (wrapN 64 ((c.rx rs1 : Int) + imm)) size (c.rx rs2) npc
    | .csr f3 rd rs1 num => coreCsr s i f3 rd rs1 num npc
    | .mret => coreMret s i
    | .ecall => coreTrap s i 11 false 0
    | .ebreak => coreTrapFree s i 3
    | .fence _ => coreRetire s i npc
    | _ => coreTrapFree s i 2

/-- A core stopped in WFI goes on past it (R377). -/
def wfiEnd (s : State) (i : Nat) : State := coreRetire s i (coreNext s i 4)

/-- STEWARD_INSTRUCTION: core i takes the fault that its last access met, or an interrupt, or executes one instruction that has
no row of its own. -/
def execStewardInstruction (i : Fin 4) (s : State) : Res :=
  if coreRuns s i.val then
    match (s.core i.val).wait with
    | .fault cause a => ok (coreTrap s i.val cause false a)
    | .wfi => okIf (coreInts s i.val != 0) s (wfiEnd s i.val)
    | _ =>
      match coreInterrupt s i.val with
      | some c => ok (coreTrap s i.val c true 0)
      | none => coreRow s i.val plainRv (fun t ins len => coreRun t i.val ins len)
  else ok s

/-- WFI: completes at once with an interrupt pending and enabled, otherwise the core stops until it has one (R377). -/
def execWfi (i : Fin 4) (s : State) : Res :=
  if coreRuns s i.val && (s.core i.val).wait == .wfi then okIf (coreInts s i.val != 0) s (wfiEnd s i.val)
  else
    coreRow s i.val (fun ins => ins == .wfi) (fun t _ len =>
      if coreInts t i.val != 0 then coreRetire t i.val (coreNext t i.val len)
      else t.setCore i.val { t.core i.val with wait := .wfi })

/-- FENCE_I: the instruction cache of the core is emptied (R366). -/
def execFenceI (i : Fin 4) (s : State) : Res :=
  coreRow s i.val (fun ins => ins == .fenceI) (fun t _ len =>
    let n := coreNext t i.val len
    coreRetire (t.setCore i.val { t.core i.val with iline := [], iword := [] }) i.val n)

/-- STEWARD_FENCE: completes when no posted store and no write-back is outstanding (R371). -/
def execStewardFence (i : Fin 4) (s : State) : Res :=
  coreRow s i.val (fun ins => ins == .fence false) (fun t _ len =>
    if postedStores t i.val || !(t.core i.val).wb.isEmpty then t else coreRetire t i.val (coreNext t i.val len))

/-- Cache maintenance of all four data caches by the hub (R366); type 4 CLEAN, 5 FLUSH, 6 DISCARD. -/
def cboRun (s : State) (i rs1 type len : Nat) : State :=
  let a := (s.core i).rx rs1
  if (s.core i).wait = .cboDone ∨ !cacheable a then coreRetire s i (coreNext s i len) else askHub s i type (a / 64) a

/-- One cache-block operation: the kind in the encoding and the SNP type. -/
def cboRow (s : State) (i kind type : Nat) : Res :=
  coreRow s i (fun ins => match ins with | .cbo k _ => k == kind | _ => false) (fun t ins len =>
    match ins with
    | .cbo _ rs1 => cboRun t i rs1 type len
    | _ => t)

/-- CBO_INVAL. -/
def execCboInval (i : Fin 4) (s : State) : Res := cboRow s i.val 0 6

/-- CBO_CLEAN. -/
def execCboClean (i : Fin 4) (s : State) : Res := cboRow s i.val 1 4

/-- CBO_FLUSH. -/
def execCboFlush (i : Fin 4) (s : State) : Res := cboRow s i.val 2 5

/-! ### Atomics -/

/-- The old value that an atomic returns. -/
def amoOld (w a size : Nat) : Nat := w / 2 ^ (8 * (a % 8)) % 2 ^ (8 * size)

/-- A cached atomic: `f` gives from the old value what is stored, if anything, and the value of rd (R370). -/
def cachedAmo (s : State) (i a size rd npc : Nat) (f : Core → Nat → Option Nat × Nat) (resv : Option Nat) (lr : Bool) : State :=
  match ownWord s i (a / 64) a lr with
  | (s1, none) => s1
  | (s1, some (k, w)) =>
    let c := s1.core i
    let r := f c (amoOld w a size)
    let c1 := match r.1 with
      | some v => dPut c k (a % 64 / 8) (coreMerge w a size v)
      | none => c
    coreFinish (s1.setCore i { c1 with resv := resv }) i npc rd r.2

/-- An AMO on an uncached address: AMOADD.D and AMOSWAP.D of a bank become network atomics, anything else faults (R370). -/
def uncachedAmo (s : State) (i : Nat) (o : AmoOp) (rd rs2 a size npc : Nat) : State :=
  let bank : Bool := match regionOf a with
    | .bank _ => true
    | _ => false
  if bank && size == 8 && (o == .add || o == .swap) then
    match (s.core i).wait with
    | .have v => coreFinish s i npc rd v
    | _ => uncached s i (if o = .add then 3 else 6) 8 a ((s.core i).rx rs2) 6
  else coreTrap s i 7 false a

/-- LR, SC and the AMOs. -/
def amoRun (s : State) (i : Nat) (ins : Rv) (len : Nat) : State :=
  let c := s.core i
  let npc := coreNext s i len
  match ins with
  | .lr rd rs1 size =>
    let a := c.rx rs1
    if a % size ≠ 0 then coreTrap s i 4 false a
    else if cacheable a then cachedAmo s i a size rd npc (fun _ old => (none, loadExt 64 size true old)) (some (a / 64)) true
    else coreTrap s i 7 false a
  | .sc rd rs1 rs2 size =>
    let a := c.rx rs1
    if a % size ≠ 0 then coreTrap s i 6 false a
    else if !cacheable a then coreTrap s i 7 false a
    else if c.resv = some (a / 64) then cachedAmo s i a size rd npc (fun d _ => (some (d.rx rs2), 0)) none false
    else coreFinish (s.setCore i { c with resv := none }) i npc rd 1
  | .amo o rd rs1 rs2 size =>
    let a := c.rx rs1
    if a % size ≠ 0 then coreTrap s i 6 false a
    else if cacheable a then
      cachedAmo s i a size rd npc (fun d old =>
        (some (amoEval (8 * size) o old (d.rx rs2 % 2 ^ (8 * size))), loadExt 64 size true old)) c.resv false
    else uncachedAmo s i o rd rs2 a size npc
  | _ => s

/-- STEWARD_AMO. -/
def execStewardAmo (i : Fin 4) (s : State) : Res :=
  coreRow s i.val (fun ins => match ins with | .lr .. => true | .sc .. => true | .amo .. => true | _ => false)
    (fun t ins len => amoRun t i.val ins len)

/-! ### Responses -/

/-- BUSERR of core i: event 210, and the address and status of the first (R371). -/
def busErr (s : State) (i a status : Nat) : State :=
  let s1 := s.capture (Reg.EVT_BERRHI_BUSERR i)
    [(⟨Reg.EVT_BERRLO i, 31, 0⟩, a), (Reg.EVT_BERRHI_ADDR_HI i, a / 2 ^ 32), (Reg.EVT_BERRHI_STATUS i, status)]
  (s1.raiseF (Reg.EVT_BERRHI_BUSERR i)).raiseEv 210

/-- A write-back has its response: ACKs that waited for it go out, and cache maintenance that waited for it ends. -/
def wbAnswered (s : State) (i : Nat) (o : Outst) : State :=
  let c := s.core i
  let s1 := sendAcks (s.setCore i { c with wb := c.wb.filter (fun e => e.1 != o.tag) }) i
  match (s1.core i).wait with
  | .coh _ line _ 5 => if wbOpen (s1.core i) line then s1 else sendDone (s1.setCore i { s1.core i with wait := .cboDone }) i line
  | _ => s1

/-- A line that a granted request read comes in, or its access faults (R368, R371). -/
def cohInstall (s : State) (i key status data : Nat) : State :=
  match (s.core i).wait with
  | .coh kind line a stage =>
    let s1 := if status = 0 then
        let st := if stage = 2 then 2 else if stage = 3 then 1 else 3
        let t := dInstall s i line st key data
        t.setCore i { t.core i with wait := .none }
      else s.setCore i { s.core i with wait := .fault (cohCause kind) a }
    sendDone s1 i line
  | _ => s

/-- A response to a steward core: posted store (note 0), load (1), write-back (2), granted line (3), instruction line (4),
uncached fetch (5), atomic (6). -/
def stewardRespond (s : State) (o : Outst) (status data : Nat) : State :=
  let i := o.id - 0x200
  let put := fun (w : CoreWait) => s.setCore i { s.core i with wait := w }
  match o.note with
  | 0 => if status = 0 then s else busErr s i o.addr status
  | 1 => put (if status = 0 then .have data else .fault 5 o.addr)
  | 2 => wbAnswered (if status = 0 then s else busErr s i o.addr status) i o
  | 3 => cohInstall s i o.aux status data
  | 4 =>
    if status = 0 then
      let t := iInstall s i (o.addr / 64) data
      t.setCore i { t.core i with wait := .none }
    else put (.fault 1 o.aux)
  | 5 =>
    if status = 0 then
      let c := s.core i
      s.setCore i { c with wait := .none, ubuf := c.ubuf ++ [(o.aux, data / 2 ^ (8 * (o.aux % 8)) % 65536)] }
    else put (.fault 1 o.aux)
  | _ => put (if status = 0 then .have data else .fault 7 o.addr)

/-! ### Release -/

/-- Under connect-under-reset the release leaves the cores halted, the latch clears and DONE stays low (R452). -/
def releaseCores (s : State) : State :=
  let cur := s.aon.cur
  let s1 := (List.range 4).foldl (fun acc i => acc.setCore i { Core.reset with on := true, held := cur, cycle0 := s.stwCycle }) s
  let s2 := if cur then (s1.raiseF Reg.RST_CAUSE_CUR).setF Reg.DBG_STAT_HELD 15 else s1
  { s2 with ld := { s2.ld with released := true, doneCur := cur }, aon := { s2.aon with cur := false } }

/-- STEWARD_RELEASE: `dt` AON ticks on, a full load has completed and every window initialisation has ended, so the cores start
(R332, R363) and step 6 begins. RELEASE_T is the time from the start of step 2. -/
def execStewardRelease (dt : Nat) (s : State) : Res :=
  if s.phase == .start && 3 ≤ s.getF Reg.CFG_STAT_STATE && !anyInit s && !s.ld.released then
    let s1 := aonPass s dt
    let t := min (s1.aon.ticks - s1.aon.startAt) 0xFFFFFF
    let s2 := ((releaseCores s1).setF Reg.RST_STAGE_STEP 6).setF Reg.RST_STAGE_RELEASE_T t
    ok (allLanesReeval { s2 with phase := .run, aon := { s2.aon with wakeFrom := 0, retained := [] } })
  else ok s

end Sys2Proof.Machine
end

