-- ==== Sys2Proof/Machine/Thermal.lean ====
section
/-!
DEFINITION. Thermal sensing and protection (22_thermal.md): sampling, thresholds and rates, the governor and its duty, hardware
shutdown and the restart after it. A reading is 4·(T + 64).
-/

namespace Sys2Proof.Machine

/-- The sentinels (Table 22.1). -/
def sentinels : List Nat := [146, 153, 206, 213]

/-- A dwell time in 1/16 ms (THM_PL). -/
def dwellTime (d : Nat) : Nat := 16 * max 1 d

/-- A sensor has power in the present state. -/
def sensorPowered (s : State) (n : Nat) : Bool :=
  s.phase != .unpowered && (sensorAlwaysOn n || (!s.aon.hot && s.phase != .keep && s.phase != .off && s.phase != .waiting))

/-- A sensor is valid: powered and not BAD. -/
def sensorValid (s : State) (n : Nat) : Bool := s.flag (Reg.THM_TEMP_VALID n)

/-- The last reading of a sensor. -/
def sensorTemp (s : State) (n : Nat) : Nat := s.getF (Reg.THM_TEMP_TEMP n)

/-- The sensors that take part in throttling, thresholds and the hottest reading. -/
def validSensors (s : State) : List Nat := (List.range 272).filter (sensorValid s)

/-- A threshold in °C + 64 as a reading. -/
def thrReading (c : Nat) : Nat := 4 * c

def hystReading (s : State) : Nat := 4 * max 1 (s.getF Reg.THM_LIMIT_HYST)

/-- RATE_MAX in readings per ms: the steps of both are 0.25 °C. -/
def rateMax (s : State) : Nat := clampN 1 32 (s.getF Reg.THM_RATE_RATE_MAX)

/-- The rise of a sensor over the last 1 ms (R431). -/
def riseOf (s : State) (n : Nat) : Nat :=
  let h := tget (fun _ => []) s.th.hist n
  match h.find? (fun e => decide (e.1 + 16 ≤ s.th.now)) with
  | some e => sensorTemp s n - e.2
  | none => 0

/-- One sensor sampled: powered or not, failed in its own check or moved by more than 20 °C (R428, R429). -/
def sampleSensor (failed : List Nat) (s : State) (nr : Nat × Nat) : State :=
  let n := nr.1
  let r := nr.2 % 2048
  if sensorPowered s n then
    let h := tget (fun _ => []) s.th.hist n
    let jump := match h.head? with
      | some e => decide (e.2 + 80 < r) || decide (r + 80 < e.2)
      | none => false
    let was := s.flag (Reg.THM_TEMP_BAD n)
    let bad := was || failed.contains n || jump
    let s1 := ((s.setF (Reg.THM_TEMP_TEMP n) r).putF (Reg.THM_TEMP_BAD n) bad).putF (Reg.THM_TEMP_VALID n) (!bad)
    let s2 := { s1 with th := { s1.th with hist := tset (fun _ => []) s1.th.hist n (((s1.th.now, r) :: h).take 40) } }
    if bad && !was then (s2.raiseF Reg.THM_FLAG_BADSENS).raiseEv 220 else s2
  else
    let s1 := (s.setF (Reg.THM_TEMP_TEMP n) 0).putF (Reg.THM_TEMP_VALID n) false
    { s1 with th := { s1.th with hist := tset (fun _ => []) s1.th.hist n [] } }

/-- A sensor counts towards shutdown: valid, or an always-on one gone BAD whose last valid reading did (R429). -/
def countsHot (s : State) (old : List Nat) (n : Nat) : Bool :=
  if sensorValid s n then decide (696 ≤ sensorTemp s n) else sensorPowered s n && sensorAlwaysOn n && old.contains n

/-- The same for the rate of rise above RATE_TRIP (R429, R438). -/
def countsRated (s : State) (old : List Nat) (n : Nat) : Bool :=
  if sensorValid s n then decide (64 < riseOf s n) else sensorPowered s n && sensorAlwaysOn n && old.contains n

/-- Thermal shutdown (R438): ALARM_N, every rail but VA off, THM_TRIP, cause THERMAL. In an integrity halt, and held under R404, the device
stays so. The 10 s of R439 begin anew. -/
def thermalShutdown (s : State) (sub sensor : Nat) : State :=
  let s1 := (s.setF Reg.THM_TRIP_SUB sub).setF Reg.THM_TRIP_SENSOR sensor
  let s2 := vbDown { s1 with aon := { s1.aon with hot := true, alarm := true }, th := { s1.th with cool := 0 } }
  if s.phase = .integrity ∨ s.phase = .bistHeld then s2 else deviceReset s2 5 sub

/-- The RCO trim code is corrected when the mean of THS240 to THS255 has moved by 1 °C (R395). -/
def trimCompensate (s : State) : State :=
  let mean := ((List.range 16).map (fun i => sensorTemp s (240 + i))).foldl (· + ·) 0 / 16
  if mean < s.th.comp + 4 ∧ s.th.comp < mean + 4 then s
  else
    let (n, s1) := s.draw
    { s1.setF Reg.CLK_TCODE_CODE (Config.trimComp n).toNat with th := { s1.th with comp := mean } }

/-- Thresholds and rate of a sample (R430 to R432). -/
def sampleJudge (s : State) : State :=
  let vs := validSensors s
  let hot := vs.foldl (fun m n => if sensorTemp s m < sensorTemp s n ∨ !sensorValid s m then n else m) (vs.headD 0)
  let top := sensorTemp s hot
  let warn := thrReading (s.getF Reg.THM_LIMIT_T_WARN)
  let rate := vs.any (fun n => rateMax s < riseOf s n)
  let s1 := s.setF Reg.THM_STAT_HOT hot
  let reached := !vs.isEmpty && decide (warn ≤ top)
  let s2 := if reached && !s.th.warned then (s1.raiseF Reg.THM_FLAG_WARN).raiseEv 220 else s1
  let s3 := if rate then ((s2.raiseF Reg.THM_FLAG_RATE).incF Reg.THM_CNT_RATE_CNT).raiseEv 221 else s2
  let fine := decide (top + hystReading s < warn)
  { s3 with th := { s3.th with rate := rate, warned := if reached then true else if fine then false else s.th.warned } }

/-- A valid sensor reads within 5 °C below a threshold (R430). -/
def nearThreshold (s : State) : Bool :=
  let ts := [thrReading (s.getF Reg.THM_LIMIT_T_WARN), thrReading (s.getF Reg.THM_LIMIT_T_THR), 696]
  (validSensors s).any (fun n => ts.any (fun t => decide (t ≤ sensorTemp s n + 20) && decide (sensorTemp s n ≤ t)))

/-- FAST, and the count of the time without a reading near a threshold. -/
def sampleRate (s : State) (step : Nat) : State :=
  if nearThreshold s then { s.raiseF Reg.THM_STAT_FAST with th := { s.th with quiet := 0 } }
  else
    let q := s.th.quiet + step
    { s.putF Reg.THM_STAT_FAST (s.flag Reg.THM_STAT_FAST && decide (q < 16)) with th := { s.th with quiet := q } }

/-- The sensors of the cooling condition: the sentinels, or THS240 to THS255 where all sentinels are BAD (R429, R439). -/
def coolSensors (s : State) : List Nat :=
  let good := sentinels.filter (fun n => !s.flag (Reg.THM_TEMP_BAD n))
  if good.isEmpty then (List.range 16).map (· + 240) else good

/-- Every sensor of the cooling condition reads 80 °C or less. -/
def coolNow (s : State) : Bool := (coolSensors s).all (fun n => sensorValid s n && sensorTemp s n ≤ 576)

/-- The time without a break at or below 80 °C (R439): from the sample before this one, where that was cool. -/
def coolTime (was s : State) (step : Nat) : Nat := if coolNow s then (if coolNow was then was.th.cool + step else 0) else 0

/-- THERMAL_SAMPLE: 272 readings; `failed` names the sensors whose built-in check fails (R428 to R432, R438). -/
def execThermalSample (dt : Nat) (readings : List (BitVec 11)) (failed : List Nat) (s : State) : Res :=
  if s.phase = .unpowered then ok s
  else
    let step := if s.flag Reg.THM_STAT_FAST then 1 else 16
    let s0 := aonPass { s with th := { s.th with now := s.th.now + step } } dt
    let s1 := (List.range 272).foldl (fun acc n => sampleSensor failed acc (n, ((readings[n]?).getD 0).toNat)) s0
    let s2 := trimCompensate (sampleRate (sampleJudge s1) step)
    let s3 := (List.range 36).foldl pllTemperature ((List.range 16).foldl hotFollows s2)
    let hot := (List.range 272).filter (countsHot s3 s.th.hot)
    let rated := (List.range 272).filter (countsRated s3 s.th.rated)
    let s4 := { s3 with th := { s3.th with hot := hot, rated := rated, cool := coolTime s s3 step } }
    match hot.find? (fun n => s.th.hot.contains n), rated.find? (fun n => s.th.rated.contains n) with
    | some n, _ => ok (if s.aon.hot then s4 else thermalShutdown s4 1 n)
    | none, some n => ok (if s.aon.hot then s4 else thermalShutdown s4 2 n)
    | none, none => ok s4

/-! ### The governor -/

/-- PL in units of 0.125 W (R434). -/
def plOf (plMax n : Nat) : Nat := 8 * plMax * (16 - n) / 16

/-- PL_MAX as written, within its limits (R437). -/
def plWritten (s : State) : Nat := clampN 50 300 (s.getF Reg.THM_PL_PL_MAX)

/-- A step n with its PL; PL_MAX and DWELL take effect (R434, R437). -/
def setStep (s : State) (n : Nat) : State :=
  let s1 := { s with th := { s.th with plMax := plWritten s, dwell := s.getF Reg.THM_PL_DWELL } }
  (s1.setF Reg.THM_STAT_STEP n).setF Reg.THM_PLNOW_PL (plOf s1.th.plMax n)

/-- A change of n is counted and raises event 219 (R434). -/
def stepTo (s : State) (n : Nat) : State :=
  if n = s.getF Reg.THM_STAT_STEP then setStep s n else ((setStep s n).incF Reg.THM_CNT_STEP_CNT).raiseEv 219

/-- A write of THM_PL acts at once while n = 0 (R437). -/
def thmPlWrite (s : State) (v : Word32) : State :=
  let s1 := s.setReg Reg.THM_PL (v &&& 0xFF0001FF#32)
  if s1.getF Reg.THM_STAT_STEP = 0 then setStep s1 0 else s1

/-- A trigger of R434 in the last sample. -/
def thmTrigger (s : State) : Bool :=
  s.th.rate || (validSensors s).any (fun n => decide (thrReading (s.getF Reg.THM_LIMIT_T_THR) ≤ sensorTemp s n))

/-- Every valid reading is below T_THR − HYST and no rate is exceeded. -/
def thmCooled (s : State) : Bool :=
  !s.th.rate && (validSensors s).all (fun n => decide (sensorTemp s n + hystReading s < thrReading (s.getF Reg.THM_LIMIT_T_THR)))

/-- A write of THM_CTRL: with TEN = 0, n is 0 and the gate opens (R434). -/
def thmCtrlWrite (s : State) (v : Word32) : State :=
  let s1 := s.setReg Reg.THM_CTRL (v &&& 0x80000000#32)
  if v.getLsbD 31 then s1 else (stepTo s1 0).setF Reg.THM_STAT_DUTY 16

/-- A dwell boundary is due in the last sample: with n = 0 where a trigger has appeared, else DWELL ms after the one before (R434). -/
def dwellDue (s : State) : Bool :=
  if s.getF Reg.THM_STAT_STEP = 0 then thmTrigger s && s.th.bound != some s.th.now
  else s.th.bound.all (fun t => decide (t + dwellTime s.th.dwell ≤ s.th.now))

/-- GOVERNOR_DWELL: the governor evaluates at a dwell boundary that is due (R434). -/
def execGovernorDwell (s : State) : Res :=
  let n := s.getF Reg.THM_STAT_STEP
  if s.phase != .unpowered && s.flag Reg.THM_CTRL_TEN && dwellDue s then
    let t := stepTo s (if thmTrigger s then min 16 (n + 1) else if thmCooled s then n - 1 else n)
    ok { t with th := { t.th with bound := some s.th.now } }
  else ok s

/-- DUTY_ADJUST: the 100 µs averages of total and FIXED draw in units of 0.125 W; the duty moves one step, DEFICIT is judged
(R435, R436). -/
def execDutyAdjust (tot fix : Nat) (s : State) : Res :=
  if s.phase = .unpowered then ok s
  else
    let pl := s.getF Reg.THM_PLNOW_PL
    let d := s.getF Reg.THM_STAT_DUTY
    let d1 := if !s.flag Reg.THM_CTRL_TEN then 16
      else if s.getF Reg.THM_STAT_STEP = 0 then min 16 (d + 1)
      else if pl < tot then max 1 (d - 1)
      else if 8 * tot + s.th.plMax ≤ 4 * (s.th.plMax * (16 - s.getF Reg.THM_STAT_STEP)) then min 16 (d + 1)
      else d
    let above := decide (pl < fix)
    let s1 := (((s.setF Reg.THM_POWER_P_TOT tot).setF Reg.THM_POWER_P_FIX fix).setF Reg.THM_STAT_DUTY d1).putF Reg.THM_STAT_DEF_NOW above
    let s2 := if above && !s.th.deficit then (s1.raiseF Reg.THM_FLAG_DEFICIT).raiseEv 218 else s1
    ok { s2 with th := { s2.th with deficit := if above then true else if fix < pl then false else s.th.deficit } }

/-! ### Restart -/

/-- THERMAL_RESTART: every sentinel has stayed at or below 80 °C for 10 s without a break; outside an integrity halt the start may begin
(R439). -/
def execThermalRestart (s : State) : Res :=
  okIf (s.aon.hot && s.phase == .waiting && coolNow s && decide (160000 ≤ s.th.cool)) s (stepTwo { s with aon := { s.aon with hot := false } })

end Sys2Proof.Machine
end

