-- ==== Sys2Proof/Machine/RegWrite.lean ====
section
/-!
DEFINITION. The register decoder: what a 32-bit write or read of the register space does (R4 to R7, R14 to R16). Every register
with an effect beyond storing its fields is listed; the others act by the access types of their fields.
-/

namespace Sys2Proof.Machine

/-! ### Access by field type (Table 0.7) -/

/-- The bits of the fields of one access type. -/
def accMask (fields : List FieldRow) (a : Acc) : Word32 :=
  BitVec.ofNat 32 ((fields.filter (fun f => f.acc = a)).foldl (fun acc f => acc + (2 ^ (f.hi + 1) - 2 ^ f.lo)) 0)

/-- A write by access types: RW fields take the value, W1C bits written 1 clear (`State.w1c`), W1S bits written 1 are set. -/
def genericWrite (s : State) (o : Nat) (v : Word32) : State :=
  match regRow o with
  | none => s
  | some r =>
    let rw := accMask r.fields .rw
    let s1 := s.setReg o (((s.reg o &&& ~~~rw) ||| (v &&& rw)) ||| (v &&& accMask r.fields .w1s))
    s1.w1c o (v &&& accMask r.fields .w1c)

/-- A read by access types: WO fields read 0; RC fields clear unless the read carries the peek attribute. Counts of the same slot are
not in the value and stay in the register (R78, R114, R135, R150, R172, R190, R216, R233, R254, R279). -/
def genericRead (s : State) (o : Nat) (peek : Bool) : State × Word32 :=
  match regRow o with
  | none => (s, 0)
  | some r =>
    let rc := accMask r.fields .rc
    (if peek then s else s.rc o rc, s.rcValue o rc &&& ~~~(accMask r.fields .wo))

/-! ### Where an offset lies -/

/-- The lane that owns a lane register offset, with the offset in its block. -/
def laneReg (o : Nat) : Option (Nat × Nat) :=
  if 0x200000 ≤ o ∧ o < 0x440000 then
    let q := (o - 0x200000) / 0x10000
    let r := (o - 0x200000) % 0x10000
    if 0x1000 ≤ r ∧ r < 0x5000 then some (4 * q + (r / 0x1000 - 1), r % 0x1000) else none
  else none

/-- The registers of a lane whose mode is not theirs read 0 and ignore writes (chapters 9 and 10). -/
def laneHidden (s : State) (o : Nat) : Bool :=
  match laneReg o with
  | some (n, r) => (0x100 ≤ r && r < 0x200 && s.laneMode n != 1) || (0x200 ≤ r && s.laneMode n != 2)
  | none => false

/-- An accepted write without an error. -/
def okay (s : State) : Option (State × Bool) := some (s, true)

/-! ### Writes with effects -/

/-- TIME, CLK, RST, PWR and THM. -/
def writeLow (s : State) (o : Nat) (v : Word32) (id : Nat) : Option (State × Bool) :=
  if o = Reg.TIME_CTRL then
    let s1 := genericWrite s o v
    let s2 := if s1.user && s1.flag Reg.TIME_STATUS_SLIP && v.getLsbD 6 then (List.range 240).foldl State.taintSector s1 else s1
    okay (if v.getLsbD 7 then startForce s2 else s2)
  else if o = Reg.TIME_CMD then okay (orbPinChange s (genericWrite s o v))
  else if o = Reg.CLK_CTRL then okay (muxBusy (genericWrite s o v))
  else if o = Reg.CLK_ROOT then okay (rootWrite s v)
  else if o = Reg.RST_LOCK then some (lockWrite s 2 id v)
  else if o = Reg.RST_FULL then some (lockedWrite s 2 id (fun t => firmwareReset t v))
  else if o = Reg.RST_BLK then
    let s1 := genericWrite s o v
    okay (if v.getLsbD 31 then blockReset s1 (v.toNat % 256) else s1)
  else if o = Reg.RST_ALARM then okay (setAlarm (genericWrite s o v))
  else if o = Reg.PWR_VSET then okay (vsetWrite s v)
  else if o = Reg.THM_CTRL then okay (thmCtrlWrite s v)
  else if o = Reg.THM_PL then okay (thmPlWrite s v)
  else none

/-- CFG, FLASH and SCRB. -/
def writeConfig (s : State) (o : Nat) (v : Word32) : Option (State × Bool) :=
  if o = Reg.CFG_CTRL then okay (cfgCtrlWrite s v)
  else if o = Reg.CFG_PCMD then okay (pcmdWrite s v)
  else if o = Reg.CFG_SPDATA then some (spWord s v)
  else if o = Reg.FL_CMD then okay (flCmdWrite s v)
  else if 0x60100 ≤ o ∧ o < 0x61000 ∧ o % 16 = 0 then
    let s1 := genericWrite s o v
    okay (if v.getLsbD 29 then scrubRetry s1 ((o - 0x60100) / 16) else s1)
  else if 0x61000 ≤ o ∧ o < 0x70000 then okay (pstoreWrite s ((o - 0x61000) / 256) (o % 256 / 4) v)
  else none

/-- VLT. -/
def writeVault (s : State) (o : Nat) (v : Word32) (id : Nat) : Option (State × Bool) :=
  if o = Reg.VLT_LOCK then some (lockWrite s 0 id v)
  else if o = Reg.VLT_FUSECMD then some (fuseWrite s id (v.toNat % 16))
  else if o = Reg.VLT_KEYCLR then some (lockedWrite s 0 id (fun t => keyClear t (v.toNat % 64)))
  else if o = Reg.VLT_ZEROISE then some (lockedWrite s 0 id (fun t => if v.getLsbD 0 then zeroise t else t))
  else if 0x70020 ≤ o ∧ o < 0x70040 then okay { s with okeys := tset (fun _ => none) s.okeys ((o - 0x70020) / 4) (some v) }
  else if 0x70100 ≤ o ∧ o < 0x70200 then
    let w := (o - 0x70100) / 16
    if o % 16 = 0 then okay (wctlWrite s w v)
    else okay (if s.flag (Reg.VLT_WCTL_EN w) then s else genericWrite s o v)
  else none

/-- EVT, WDT, DBG, BIST and GPIO. -/
def writeService (s : State) (o : Nat) (v : Word32) (id : Nat) : Option (State × Bool) :=
  if o = Reg.EVT_SWRAISE then okay (swraise s v)
  else if 0x80100 ≤ o ∧ o < 0x80124 then okay (pendWrite s ((o - 0x80100) / 4) v)
  else if o = Reg.WDT_CTRL then some (lockedWrite s 1 id (fun t => wdtCtrlWrite t v))
  else if o = Reg.WDT_LOAD1 ∨ o = Reg.WDT_LOAD2 then some (lockedWrite s 1 id (fun t => genericWrite t o v))
  else if o = Reg.WDT_KICK then okay (wdtKick s v)
  else if o = Reg.WDT_LOCK then some (lockWrite s 1 id v)
  else if o = Reg.DBG_CUR then okay (curWrite s v)
  else if 0xA0010 ≤ o ∧ o < 0xA0030 then
    let i := (o - 0xA0010) / 8
    okay (if (s.core i).held then genericWrite s o (if o % 8 = 0 then v &&& 0xFFFFFFFE#32 else v) else s)
  else if o = Reg.BIST_RT_CTRL then okay (rtWrite s v)
  else if 0xD0000 ≤ o ∧ o < 0xD0180 ∧ o % 8 = 4 then okay (genericWrite s o (v &&& 0xF3FFFFFF#32))
  else none

/-- LQ and its lanes. -/
def writeLane (s : State) (o : Nat) (v : Word32) : Option (State × Bool) :=
  let q := (o - 0x200000) / 0x10000
  if (o - 0x200000) % 0x10000 = 0 then okay (quadModeWrite s q v)
  else if (o - 0x200000) % 0x10000 = 4 then okay (quadTrkWrite s q v)
  else
    match laneReg o with
    | none => none
    | some (n, r) =>
      if laneHidden s o then okay s
      else if r = 0 then okay (buCtrlWrite s n v)
      else if r = 0x20 then okay (testCtrlWrite s n v)
      else if r = 0x40 then okay (wakeWrite s n v)
      else if r = 0x100 then okay (feCtrlWrite s n v)
      else if 0x2C0 ≤ r ∧ r < 0x2E0 then okay (queueHeadWrite s n ((r - 0x2C0) / 4) v)
      else if 0x2E0 ≤ r ∧ r < 0x300 then okay (queueTailWrite s n ((r - 0x2E0) / 4) v)
      else none

/-- An access that a register write of initiator `id` has started through an indirect port is the loader's where that is the loader. -/
def portOwner (s t : State) (id kind sec : Nat) (busy : Field) : State :=
  if id = 0x205 ∧ !s.flag busy ∧ t.flag busy then { t with ld := { t.ld with port := some (kind, sec, none) } } else t

/-- SEC. -/
def writeSector (s : State) (o : Nat) (v : Word32) (id : Nat) : Option (State × Bool) :=
  let sec := (o - 0x500000) / 0x1000
  let r := o % 0x1000
  if r = 0 then okay (schedWrite s sec v)
  else if r = 0x100 then okay (portOwner s (macSelWrite s sec v) id 0 sec (Reg.SEC_HB_STAT_ACC_BUSY sec))
  else if r = 0x104 ∨ r = 0x108 then okay (if s.flag (Reg.SEC_HB_STAT_ACC_BUSY sec) then s else genericWrite s o v)
  else if r = 0x200 then let w := mtSelWrite s sec v; some (portOwner s w.1 id 1 sec (Reg.SEC_MT_STAT_BUSY sec), !w.2)
  else if r = 0x204 then (if s.flag (Reg.SEC_MT_STAT_BUSY sec) then some (s, false) else okay (genericWrite s o v))
  else if r = 0x208 then let w := mtDhiWrite s sec v; some (w.1, !w.2)
  else if 0x40 ≤ r ∧ r < 0x60 then okay (bownWrite s sec ((r - 0x40) / 4) v)
  else if 0x60 ≤ r ∧ r < 0x80 then okay (bcfgWrite s sec ((r - 0x60) / 4) v)
  else if r = 0x600 then okay (tlrCmdWrite s sec v)
  else if r = 0x604 then okay (tlrRegWrite s sec o (v &&& 0x0001FF07#32))
  else if r = 0x608 ∨ r = 0x60C then okay (tlrRegWrite s sec o (v &&& 0x00007FFE#32))
  else none

/-- The registers with effects; nothing for the others. -/
def specialWrite (s : State) (o : Nat) (v : Word32) (id : Nat) : Option (State × Bool) :=
  if o < 0x50000 then writeLow s o v id
  else if o < 0x70000 ∨ (0xE0000 ≤ o ∧ o < 0xF0000) then writeConfig s o v
  else if o < 0x80000 then writeVault s o v id
  else if o < 0xE0000 then writeService s o v id
  else if 0x200000 ≤ o ∧ o < 0x440000 then writeLane s o v
  else if 0x500000 ≤ o ∧ o < 0x5F0000 then writeSector s o v id
  else none

/-- Registers that a frame boundary or a beat boundary samples: lengths, bank settings, credits, GPIO settings (R33, R166, R271, R477). -/
def sampledReg (o : Nat) : Bool :=
  o == Reg.TIME_FRAME_LEN || o == Reg.TIME_CLR_LEN || (decide (0xD0000 ≤ o) && decide (o < 0xE0000)) ||
    (decide (0x500000 ≤ o) && (o % 0x1000 == 0x700 || (decide (0x60 ≤ o % 0x1000) && decide (o % 0x1000 < 0xA0))))

/-- A write of the register at an offset by an initiator: the status is 0 OKAY, 1 SLVERR, 2 DECERR (R6, R16). -/
def regWrite (s0 : State) (o : Nat) (v : Word32) (id : Nat) : State × Nat :=
  match regRow o with
  | none => (s0, 2)
  | some _ =>
    let s := if sampledReg o then s0.keepOld o else s0
    match specialWrite s o v id with
    | some (s1, good) => (s1, if good then 0 else 1)
    | none => (genericWrite s o v, 0)

/-! ### Reads with effects or computed fields -/

/-- SEC_PLANE.ACTIVE: the planes of the schedule in force, 0 until configuration is complete. -/
def activeField (s : State) (sec : Nat) : Nat :=
  if s.getF Reg.CFG_STAT_STATE < 3 then 0 else (s.personality sec).foldl (fun acc p => acc ||| 2 ^ p) 0

/-- Registers of a sector whose value is computed. -/
def readSector (s : State) (o : Nat) : Option Word32 :=
  let sec := (o - 0x500000) / 0x1000
  let r := o % 0x1000
  if r = 0 then
    (if s.leader sec = sec then none
      else some (((s.reg (Reg.SEC_SCHED (s.leader sec))) &&& 0xF7FFFFFF#32) ||| (s.reg o &&& 0x08000000#32)))
  else if r = 8 then some (putBits (s.reg o) 23 16 (activeField s sec))
  else if r = 0x610 then some (putBits (s.reg o) 3 0 (tlrOut s sec))
  else if r = 0x614 then
    some (BitVec.ofNat 32 ((if s.tlrState sec = 0 then tlrStartPc s sec else (s.tlr sec).pc) % 2 ^ 15 / 2 * 2))
  else if r = 0x61C then some (BitVec.ofNat 32 (tlrPend s sec % 65536))
  else if r = 0x708 then
    let w1 := putBits (putBits (s.reg o) 31 31 (s.napFenced sec).toNat) 30 30 (napIdle s sec).toNat
    some (putBits (putBits w1 23 16 (napOutInit s sec)) 15 8 (s.nap sec).uw.length)
  else none

/-- Registers whose read does more than return and clear, or whose value is computed. A tally read in the slot of a boundary returns the
snapshot that it replaced (R171). -/
def specialRead (s : State) (o : Nat) (peek : Bool) (id : Nat) : Option (State × Word32) :=
  if snapReg o && s.cyc.snap.isSome then some (s, tget regReset (s.cyc.snap.getD []) o)
  else if o = Reg.TIME_TICK_LO then let r := tickLoRead s; some (r.2, r.1)
  else if 0x30020 ≤ o ∧ o < 0x30040 ∧ o % 8 = 0 then some (residencyRead s ((o - 0x30020) / 8))
  else if o = Reg.RST_LOCK then let t := lockRead s 2 id; some (t, t.reg o)
  else if o = Reg.VLT_LOCK then let t := lockRead s 0 id; some (t, t.reg o)
  else if o = Reg.WDT_LOCK then let t := lockRead s 1 id; some (t, t.reg o)
  else if o = Reg.VLT_RNG then some (rngRead s peek)
  else if 0x61000 ≤ o ∧ o < 0x70000 then some (s, BitVec.ofNat 32 (pstoreRead s ((o - 0x61000) / 256) (o % 256 / 4)))
  else if 0x80000 ≤ o ∧ o < 0x80010 then some (claimRead s ((o - 0x80000) / 4) peek)
  else if o = Reg.NOC_QUAR then some (s, BitVec.ofNat 32 (min 0xFFFF s.quar.length))
  else if laneHidden s o then some (s, 0)
  else if 0x500000 ≤ o then (readSector s o).map (fun w => (s, w))
  else
    match laneReg o with
    | some (n, r) => if r = 0x28 ∧ !peek then some (prbsErrRead s n) else none
    | none => none

/-- A read of the register at an offset by an initiator. -/
def regRead (s : State) (o : Nat) (peek : Bool) (id : Nat) : State × Nat × Word32 :=
  match regRow o with
  | none => (s, 2, 0)
  | some _ =>
    match specialRead s o peek id with
    | some (s1, w) => (s1, 0, w)
    | none => let r := genericRead s o peek; (r.1, 0, r.2)

/-- The initiator that the model's own register commands stand for: steward core 0. -/
def hostId : Nat := 0x200

/-- The status of an access of a misaligned address: SLVERR where a register lies there, DECERR where none does (R6, R16). -/
def misalignedStatus (o : Nat) : Nat := if (regRow (o / 4 * 4)).isSome then 1 else 2

/-- Steward core 0 can access registers: it has been released (R331, R363). -/
def State.hostAlive (s : State) : Bool := s.alive && s.phase == .run

/-- REGISTER_WRITE: an aligned 32-bit write at an offset from 0x0007_0000_0000, with its answer (R4, R14);
an access that is not aligned has no effect (R6). Until the steward is released, registers change only through the loader and the debug
engine (R330, R331). -/
def execRegisterWrite (off : Nat) (v : Word32) (s : State) : Res :=
  if s.hostAlive then
    let r := if off % 4 = 0 then regWrite s off v hostId else (s, misalignedStatus off)
    ok { r.1 with resp := ⟨r.2, 0⟩ }
  else ok s

/-- READ_CLEAR: an aligned 32-bit read; RC fields are cleared unless it carries the peek attribute (R4). -/
def execReadClear (off : Nat) (peek : Bool) (s : State) : Res :=
  if s.hostAlive then
    let r := if off % 4 = 0 then regRead s off peek hostId else (s, misalignedStatus off, 0)
    ok { r.1 with resp := ⟨r.2.1, r.2.2.setWidth 64⟩ }
  else ok s

end Sys2Proof.Machine
end

