-- ==== Sys2Proof/Machine/NocServe.lean ====
section
/-!
DEFINITION. Targets and initiators of the network (13_network.md R256 to R267): what each target does with a request that it
takes, and what each initiator does with a response or a synthesised error.
-/

namespace Sys2Proof.Machine

/-! ### RAM targets -/

/-- A RAM of 64-bit code words as a target sees it: how a word is read, and read to be changed, with its finding recorded, and how one is
written, with the bytes that the write names. -/
structure RamPort where
  look : State → Nat → State × Option Nat
  read : State → Nat → State × Option Nat
  write : State → Nat → Nat → Nat → State

/-- A word of a teller RAM through its network port: corrected, or an error (R238); a read returns the word before the writes of its TLR
cycle, and a write comes after the teller's (R237). -/
def tramPort (sec : Nat) : RamPort :=
  { look := fun s w => (s, decVal (cwDecode ((ramBefore s sec w).getD (cwAt s.tram (8192 * sec + w)))))
    read := fun s w => (s, decVal (cwDecode (cwAt s.tram (8192 * sec + w))))
    write := fun s w v be => tramNetWrite s sec w v be }

/-- A word of the steward RAM (R364): a correctable word is rewritten, an uncorrectable one raises event 211. -/
def sramRead (s : State) (w : Nat) : State × Option Nat :=
  match cwDecode (cwAt s.sram w) with
  | .clean d => (s, some d.toNat)
  | .corrected d => ({ s with sram := cwPut s.sram w (cwEncode d) }, some d.toNat)
  | .bad => (s.raiseEv 211, none)

def sramPort : RamPort :=
  { look := sramRead, read := sramRead, write := fun s w v _ => { s with sram := cwPut s.sram w (cwEncode (BitVec.ofNat 64 v)) } }

/-- Eight words read as a line. -/
def ramLine (p : RamPort) (s : State) (w : Nat) : State × Option Nat :=
  (List.range 8).foldl (fun acc j =>
    let r := p.look acc.1 (w + j)
    (r.1, match acc.2, r.2 with
      | some x, some v => some (x + v * 2 ^ (64 * j))
      | _, _ => none)) (s, some 0)

/-- An answer of SLVERR with nothing done. -/
def refuse (s : State) : Served := .answer s 1 0

/-- A RAM serves a request for word w of it (R18, R238, R364); `atomics` says whether it accepts those. -/
def serveRam (p : RamPort) (atomics : Bool) (s : State) (w : Nat) (r : NocReq) : Served :=
  if r.addr % sizeBytes r.size ≠ 0 ∨ 5 ≤ r.size then refuse s
  else
    match r.op with
    | 0 =>
      let got := if r.size = 4 then ramLine p s w else p.look s w
      match got.2 with
      | some v => .answer got.1 0 (if r.size = 4 then v else readLanes v r.addr r.size)
      | none => refuse got.1
    | 1 =>
      if r.size = 4 then refuse s
      else if r.size = 3 then .answer (p.write s w r.data 255) 0 0
      else
        let got := p.read s w
        match got.2 with
        | some v => .answer (p.write got.1 w (mergeWord v r.data r.addr r.size) (laneMask r.addr r.size)) 0 0
        | none => refuse got.1
    | 2 => .answer ((List.range 8).foldl (fun acc j => p.write acc (w + j) (r.data / 2 ^ (64 * j) % 2 ^ 64) 255) s) 0 0
    | op =>
      let at_ := match op with
        | 3 => some BankOp.add
        | 4 => some BankOp.addu
        | 5 => some BankOp.adds
        | 6 => some BankOp.swap
        | _ => none
      match at_ with
      | none => refuse s
      | some o =>
        if !atomics || r.size != 3 then refuse s
        else
          let got := p.read s w
          match got.2 with
          | some v => .answer (p.write got.1 w (atomicValue o v (r.data % 2 ^ 64)) 255) 0 v
          | none => refuse got.1

/-- The network port of a teller's RAMs: one access in a TLR cycle, a further one waits; instruction RAM is served only in STOP and FAULT
(R237). -/
def serveTram (s : State) (sec : Nat) (r : NocReq) : Served :=
  let w := r.addr % 0x10000 / 8
  let c := ramCycle s sec
  if w < 4096 ∧ s.tlrState sec ≠ 0 ∧ s.tlrState sec ≠ 4 then refuse s
  else if c.net then .waits
  else serveRam (tramPort sec) false (setRamCycle s sec { c with net := true }) w r

/-! ### Banks and registers -/

/-- The operation of a request at a bank. -/
def bankOpOf (op : Nat) : Option BankOp :=
  match op with
  | 0 => some .read
  | 1 => some .write
  | 2 => some .write
  | 3 => some .add
  | 4 => some .addu
  | 5 => some .adds
  | 6 => some .swap
  | _ => none

/-- A bank takes a request from the network (R156, R159); while the slot clock is stopped it waits. -/
def serveBank (s : State) (b : Nat) (r : NocReq) : Served :=
  let line := r.size = 4 ∨ r.op = 2
  let sizeOk := match r.op with
    | 0 => decide (r.size ≤ 4)
    | 1 => decide (r.size ≤ 3)
    | 2 => r.size == 4
    | _ => r.size == 3
  match bankOpOf r.op with
  | none => refuse s
  | some o =>
    if !sizeOk || r.addr % sizeBytes r.size != 0 then refuse s
    else if !s.logs then .waits
    else
      let at_ := 120 + b / 8
      .taken (bankArrive s b
        { id := r.src, tag := bankTag r at_, op := o, word := r.addr % 0x8000 / 8, off := r.addr % 8,
          be := if line then 255 else laneMask r.addr r.size, size := sizeBytes r.size,
          data := if line then (List.range 8).map (fun j => r.data / 2 ^ (64 * j) % 2 ^ 64) else [r.data % 2 ^ 64],
          step := 0, got := [], err := false, range := false, half := false, old := 0 })

/-- The register decoder serves a request: aligned 32-bit reads and writes only (R6, R16). -/
def serveReg (s : State) (r : NocReq) : Served :=
  let o := r.addr - 0x700000000
  if (regRow (o / 4 * 4)).isNone then .answer s 2 0
  else if r.size ≠ 2 ∨ o % 4 ≠ 0 then refuse s
  else
    match r.op with
    | 0 =>
      let g := regRead s o r.peek r.src
      .answer g.1 g.2.1 (g.2.2.toNat * 2 ^ (8 * (o % 8)))
    | 1 =>
      let w := regWrite s o (BitVec.ofNat 32 (r.data / 2 ^ (8 * (o % 8)))) r.src
      .answer w.1 w.2 0
    | _ => refuse s

/-- A target takes a request of virtual channel vc. -/
def serve (s : State) (r : NocReq) (vc : Nat) : Served :=
  match regionOf r.addr with
  | .dies _ => serveMem s r
  | .bank b => serveBank s b r
  | .tram sec => serveTram s sec r
  | .sram => serveRam sramPort true s (r.addr % 0x400000 / 8) r
  | .regs => serveReg s r
  | .uwin sec =>
    let a := napAccept s sec r vc
    if a.2 then .taken a.1 else .waits
  | .none => .answer s 2 0

/-- The request at the head of an ejection queue, if it has one of the operations given, is taken and served, at a memory
controller in its turn (R289). Where serving it
ends the run of the network (a reset, an integrity halt), no answer is sent. -/
def takeRequest (s : State) (r net vc : Nat) (mine : Nat → Bool) : Res :=
  match (s.ejected r net vc).bind Flit.request with
  | some q =>
    if s.nocRuns && mine q.op && memTurn s r net vc then
      match serve (memChosen (s.eject r net vc) r net vc) q vc with
      | .answer s1 status data => ok (if s1.nocRuns then sendResponse s1 r q status data else s1)
      | .taken s1 => ok s1
      | .waits => ok s
    else ok s
  | none => ok s

/-- NOC_READ; a reserved operation is taken here too and receives SLVERR. -/
def execNocRead (r : Fin 360) (vc : Fin 2) (s : State) : Res := takeRequest s r.val 0 vc.val (fun op => op == 0 || decide (7 ≤ op))

/-- NOC_WRITE. -/
def execNocWrite (r : Fin 360) (vc : Fin 2) (s : State) : Res := takeRequest s r.val 0 vc.val (fun op => op == 1)

/-- NOC_WRLINE, on DAT. -/
def execNocWrline (r : Fin 360) (s : State) : Res := takeRequest s r.val 2 0 (fun op => op == 2)

/-- NOC_ADD. -/
def execNocAdd (r : Fin 360) (vc : Fin 2) (s : State) : Res := takeRequest s r.val 0 vc.val (fun op => op == 3)

/-- NOC_ADDU. -/
def execNocAddu (r : Fin 360) (vc : Fin 2) (s : State) : Res := takeRequest s r.val 0 vc.val (fun op => op == 4)

/-- NOC_ADDS. -/
def execNocAdds (r : Fin 360) (vc : Fin 2) (s : State) : Res := takeRequest s r.val 0 vc.val (fun op => op == 5)

/-- NOC_SWAP. -/
def execNocSwap (r : Fin 360) (vc : Fin 2) (s : State) : Res := takeRequest s r.val 0 vc.val (fun op => op == 6)

/-! ### Initiators -/

/-- The engine of DBG_ACCESS takes an answer: BUSY ends, RESP and a read value are kept (R447). -/
def dbgRespond (s : State) (o : Outst) (status data : Nat) : State :=
  let s1 := (s.clearF Reg.DBG_STAT_ACC_BUSY).setF Reg.DBG_STAT_ACC_RESP status
  let v := if status = 0 then data / 2 ^ (8 * (o.addr % 8)) % 2 ^ (8 * sizeBytes o.size) else 0
  if o.op = 0 then { s1 with dbg := { s1.dbg with val := BitVec.ofNat 64 v } } else s1

/-- An answer, or a synthesised error (status 3), reaches its initiator (R266). -/
def deliver (s : State) (o : Outst) (status data : Nat) : State :=
  if o.id < 240 then
    (if o.ln then
      match laneOf o.id with
      | some n => laneRespond s n o status data
      | none => s
    else napRespond s o status data)
  else if 0x100 ≤ o.id ∧ o.id < 0x1F0 then tlrRespond s o status data
  else if 0x200 ≤ o.id ∧ o.id < 0x204 then stewardRespond s o status data
  else if o.id = 0x204 then dbgRespond s o status data
  else if o.id = 0x205 then loaderRespond s o status
  else s

/-- A request of an initiator by its tag. -/
def findOutst (s : State) (id : Nat) (ln : Bool) (tag : Nat) : Option Outst :=
  s.outst.find? (fun o => o.id == id && o.ln == ln && o.tag == tag)

/-- The sector whose NAP an initiator's responses come to: user logic, the trunk rings and the teller of the sector (R256, R267). -/
def napOf (id : Nat) : Option Nat :=
  if id < 240 then some id else if 0x100 ≤ id ∧ id < 0x1F0 then some (id - 0x100) else none

/-- NOC_RESPONSE: the response at the head of the ejection queue of router r on RSP (`dat` false) or DAT reaches its initiator,
or is dropped as late (R267). -/
def execNocResponse (r : Fin 360) (dat : Bool) (vc : Fin 2) (s : State) : Res :=
  let net := if dat then 2 else 1
  match (s.ejected r.val net vc.val).bind Flit.response with
  | some p =>
    if s.nocRuns then
      let s1 := s.eject r.val net vc.val
      match findOutst s1 p.id p.ln p.tag with
      | some o => ok (deliver (closeOutst s1 o) o p.status p.data)
      | none =>
        let s2 := lateDrop s1
        ok (match napOf p.id with
          | some sec => s2.raiseF (Reg.SEC_NAP_STAT_DROP sec)
          | none => s2)
    else ok s
  | none => ok s

/-- NOC_TIMEOUT: the timer of a request that has entered its injection queue reaches its T_o (R265): a synthesised error, and its tag goes into quarantine. -/
def execNocTimeout (id : Fin 1024) (ln : Bool) (tag : Fin 256) (s : State) : Res :=
  match findOutst s id.val ln tag.val with
  | some o =>
    if s.nocRuns && s.flag Reg.NOC_TMO_EN && o.tmo.isSome then
      let s1 := ((((s.raiseF Reg.NOC_STAT_TMO).setF Reg.NOC_STAT_NET (if o.op = 2 then 1 else 0)).setF Reg.NOC_STAT_ID o.id).setF
        Reg.NOC_STAT_TAG o.tag).setF Reg.NOC_STAT_LN o.ln.toNat
      let s2 := ((s1.setReg Reg.NOC_TADDR_LO (BitVec.ofNat 32 o.addr)).setF Reg.NOC_TADDR_HI_ADDR_HI (o.addr / 2 ^ 32)).incF
        Reg.NOC_CNT_TMO_CNT
      ok (deliver (endOutst (s2.raiseEv (if o.op = 2 then 230 else 228)) o) o 3 0)
    else ok s
  | none => ok s

end Sys2Proof.Machine
end

