-- ==== Sys2Proof/Machine/Debug.lean ====
section
/-!
DEFINITION. The service pins (23_debug_bist.md R441 to R458): the TAP and its instructions, debug access, halt and resume,
connect-under-reset, the cause register and the I2C target.
-/

namespace Sys2Proof.Machine

/-- An instruction is in the register and its data register has captured a value. -/
def tapLoad (s : State) (code dr : Nat) : State :=
  let s1 := setIr s code
  { s1 with dbg := { s1.dbg with dr := dr } }

/-! ### IEEE 1149.1 and 1149.6 -/

/-- TAP_RESET: Test-Logic-Reset loads IDCODE (R441, R442). -/
def execTapReset (s : State) : Res := okIf (servicePins s) s (setIr s 0x02)

/-- IDCODE captures the identification (R443). -/
def execIdcode (s : State) : Res := okIf (servicePins s) s (tapLoad s 0x02 0x1A980DD3)

/-- BYPASS: the 1-bit register captures 0; every opcode not listed acts so (R442). -/
def execBypass (s : State) : Res := okIf (servicePins s) s (tapLoad s 0xFF 0)

/-- SAMPLE: the boundary register takes the values at the pins, `pins` by cell. -/
def execSample (pins : BitVec 872) (s : State) : Res := okIf (servicePins s) s (tapLoad s 0x01 pins.toNat)

/-- PRELOAD: the boundary register is loaded. -/
def execPreload (v : BitVec 872) (s : State) : Res :=
  let s1 := setIr s 0x03
  okIf (servicePins s) s { s1 with dbg := { s1.dbg with bnd := v } }

/-- EXTEST, EXTEST_PULSE, EXTEST_TRAIN: the boundary register captures the pins, then drives every pin with a cell (R445). -/
def extestRun (s : State) (code : Nat) (pins v : BitVec 872) : State :=
  let s1 := tapLoad s code pins.toNat
  { s1 with dbg := { s1.dbg with bnd := v } }

def execExtest (pins v : BitVec 872) (s : State) : Res := okIf (servicePins s) s (extestRun s 0x00 pins v)

/-- EXTEST_PULSE. -/
def execExtestPulse (pins v : BitVec 872) (s : State) : Res := okIf (servicePins s) s (extestRun s 0x08 pins v)

/-- EXTEST_TRAIN. -/
def execExtestTrain (pins v : BitVec 872) (s : State) : Res := okIf (servicePins s) s (extestRun s 0x09 pins v)

/-! ### The access engine -/

def accBusy (s : State) : Bool := s.flag Reg.DBG_STAT_ACC_BUSY

/-- An address in a register block served at router (0, 9, 0): every block but LQ and SEC (R448). -/
def directBlock (a : Nat) : Bool := regionOf a == .regs && targetRouter a == routerAt 0 9 0

/-- The engine exists outside the network's reset: in a start from step 2, in RUN, and in HOLD. -/
def engineOn (s : State) : Bool := s.phase == .start || s.phase == .run || s.phase == .hold

/-- The request of the debug engine: a write, or a read that changes nothing (R446). -/
def engineReq (write : Bool) (size key addr data : Nat) : NocReq :=
  { mkReq write.toNat size 0x204 key addr (data % 2 ^ (8 * sizeBytes size) * 2 ^ (8 * (addr % 8)) % 2 ^ 64) with peek := !write }

/-- A request of the engine becomes outstanding, for the I2C target or the TAP. -/
def engineBusy (s : State) (i2c : Bool) : State :=
  let s1 := s.raiseF Reg.DBG_STAT_ACC_BUSY
  { s1 with dbg := { s1.dbg with i2c := i2c } }

/-- What the direct path answered a request reaches the engine at once. -/
def engineAnswer (s : State) (r : NocReq) : Served → State
  | .answer s1 status d =>
    dbgRespond s1 { id := 0x204, ln := false, tag := 0, op := r.op, addr := r.addr, size := r.size, tmo := none, note := 0, aux := 0 }
      status d
  | _ => s

/-- The direct path of a debug halt serves a request (R448). -/
def engineDirect (s : State) (r : NocReq) : State := engineAnswer s r (serveReg s r)

/-- The engine issues a request; in a debug halt the direct path serves what it can, and what the stopped network would have
to carry waits (R446 to R448). -/
def engineIssue (s : State) (write i2c : Bool) (size key addr data : Nat) : State :=
  let r := engineReq write size key addr data
  let s1 := engineBusy s i2c
  if s.dbgHalt && directBlock addr then engineDirect s1 r
  else if s.nocRuns then (issue s1 r 0 0).1
  else { s1 with dbg := { s1.dbg with wait := some r } }

/-- The access data register as captured (Table 23.2). -/
def accessCapture (s : State) : Nat :=
  (accBusy s).toNat + 4 * s.getF Reg.DBG_STAT_ACC_RESP + 2 ^ 59 * s.dbg.val.toNat

/-- DBG_ACCESS: the register captures status and read value; Update-DR issues the request it holds, or sets ACC_OVR while one is
outstanding (R447). -/
def execDbgAccess (v : BitVec 123) (s : State) : Res :=
  let x := v.toNat
  let s1 := tapLoad s 0x20 (accessCapture s)
  let op := x % 4
  if !servicePins s then ok s
  else if op = 0 ∨ op = 3 ∨ !engineOn s then ok s1
  else if accBusy s then ok (s1.raiseF Reg.DBG_STAT_ACC_OVR)
  else ok (engineIssue s1 (op == 2) false (x / 4 % 4) (x / 16 % 64) (x / 2 ^ 10 % 2 ^ 48) (x / 2 ^ 59))

/-! ### Halt and resume -/

/-- The halt status register. -/
def haltCapture (s : State) : Nat := (s.flag Reg.DBG_STAT_HALTED).toNat + 2 * (s.flag Reg.DBG_STAT_HALT_PEND).toNat

/-- Every stopped domain restarts (R450). -/
def resumeNow (s : State) : State :=
  let s1 := (fun t => if t.clk.ramp.isSome then t else selfRefresh t false) (s.clearF Reg.DBG_STAT_HALTED)
  let s2 := wdtThaw { s1 with dbgHalt := false, dbg := { s1.dbg with resume := false } }
  let s3 := s2.raiseEv 214
  let s4 := tkResume (feResume s3)
  dbgFlush (if s4.user then slip s4 else s4)

/-- The clocks stop: HALTED (R449), with the memory controllers in self-refresh (R294). A RESUME that came before then takes effect. -/
def haltNow (s : State) : State :=
  let s1 := wdtFreeze ((s.clearF Reg.DBG_STAT_HALT_PEND).raiseF Reg.DBG_STAT_HALTED)
  let s2 := { selfRefresh s1 true with dbgHalt := true }
  if s.dbg.resume then resumeNow s2 else s2

/-- A pending halt takes effect at the end of a slot with k = 7, outside a root switch and an entry into a low-power state (R449,
R451). `s` has the slot counter of the next slot. -/
def haltSlot (s : State) : State :=
  if s.flag Reg.DBG_STAT_HALT_PEND && s.k == 0 && s.clk.ramp.isNone && s.aon.entry == 0 && !s.dbgHalt then haltNow s else s

/-- HALT: the memory controllers enter self-refresh and the halt is pending until the slot clock can stop; at once where it does
not run. -/
def execHalt (s : State) : Res :=
  let s1 := tapLoad s 0x21 (haltCapture s)
  if !servicePins s then ok s
  else if s.dbgHalt || s.flag Reg.DBG_STAT_HALT_PEND || !engineOn s then ok s1
  else
    let s2 := selfRefresh (s1.raiseF Reg.DBG_STAT_HALT_PEND) true
    ok (if s.clockOn || s.phase == .hold || s.aon.entry != 0 then s2 else haltNow s2)

/-- RESUME: with HALTED = 1 the device goes on; while a halt is pending it goes on as soon as that completes (R450). -/
def execResume (s : State) : Res :=
  let s1 := tapLoad s 0x22 (haltCapture s)
  if !servicePins s then ok s
  else if s.dbgHalt then ok (resumeNow s1)
  else if s.flag Reg.DBG_STAT_HALT_PEND then ok { s1 with dbg := { s1.dbg with resume := true } }
  else ok s1

/-! ### Connect-under-reset, cause -/

/-- CUR_ARM: bit 0 sets the latch while RESET_N is low, bit 1 then resets the device with cause DEBUG (R452, R453). -/
def execCurArm (v : BitVec 2) (s : State) : Res :=
  let s1 := tapLoad s 0x23 (s.aon.cur.toNat + 2 * s.aon.resetLow.toNat)
  if !servicePins s then ok s
  else
    let s2 := if v.getLsbD 0 && s.aon.resetLow then { s1 with aon := { s1.aon with cur := true } } else s1
    ok (if v.getLsbD 1 && s2.resettable then deviceReset s2 8 0 else s2)

/-- The cause data register (Table 23.4). -/
def causeCapture (s : State) : Nat :=
  (s.reg Reg.RST_CAUSE).toNat + 2 ^ 32 * s.getF Reg.RST_STAGE_STEP + 2 ^ 36 * s.getF Reg.RST_ALARM_PIN +
    2 ^ 37 * (s.aon.bistAt.1 % 8) + 2 ^ 40 * (s.aon.bistAt.2 % 2 ^ 20)

/-- CAUSE_READ (R455). -/
def execCauseRead (s : State) : Res :=
  let v := causeCapture s
  okIf (servicePins s) s { tapLoad s 0x25 v with resp := ⟨0, BitVec.ofNat 64 v⟩ }

/-! ### The I2C target -/

/-- The target is addressed. -/
def i2cMine (s : State) (a : BitVec 7) : Bool := servicePins s && a.toNat == s.dbg.i2cAddr

/-- The STOP that ends a transaction puts DBG_I2C.ADDR into force (R456). -/
def i2cStop (s : State) : State := { s with dbg := { s.dbg with i2cAddr := s.getF Reg.DBG_I2C_ADDR } }

/-- A command of the target: acknowledged and issued, or NACKed while the engine is busy (R457, R458). The model's port answers 0
for ACK, 1 for NACK. -/
def i2cCommand (s : State) (a : BitVec 7) (write : Bool) (addr data : Nat) : State :=
  if !i2cMine s a then i2cStop s
  else if accBusy s || !engineOn s then i2cStop { s with resp := ⟨1, 0⟩ }
  else i2cStop { engineIssue s write true 2 0 addr data with resp := ⟨0, 0⟩ }

/-- I2C_WRITE: one aligned 32-bit write. -/
def execI2cWrite (a : BitVec 7) (addr : BitVec 48) (v : Word32) (s : State) : Res :=
  ok (i2cCommand s a true addr.toNat v.toNat)

/-- I2C_READ: one aligned 32-bit read. -/
def execI2cRead (a : BitVec 7) (addr : BitVec 48) (s : State) : Res := ok (i2cCommand s a false addr.toNat 0)

/-- I2C_STREAM: a group of 4 bytes for CFG_SPDATA. -/
def execI2cStream (a : BitVec 7) (v : Word32) (s : State) : Res :=
  ok (i2cCommand s a true (0x700000000 + Reg.CFG_SPDATA) v.toNat)

/-- I2C_STATUS_READ: the status byte, then the last read value (R457). -/
def execI2cStatusRead (a : BitVec 7) (s : State) : Res :=
  let st := (accBusy s).toNat + 2 * s.getF Reg.DBG_STAT_ACC_RESP + 8 * s.getF Reg.DBG_STAT_ACC_OVR
  if i2cMine s a then ok (i2cStop { s with resp := ⟨0, BitVec.ofNat 64 (st + 256 * (s.dbg.val.toNat % 2 ^ 32))⟩ })
  else ok (i2cStop s)

end Sys2Proof.Machine
end

