-- ==== Sys2Proof/Machine/Gpio.lean ====
section
/-!
DEFINITION. GPIO (24_pins_package.md R474 to R478): the double-rate registers, edges, and the wake from HOLD.
-/

namespace Sys2Proof.Machine

/-- A 96-bit map built pin by pin. -/
def pinMap (f : Nat → Bool) : BitVec 96 := BitVec.ofNat 96 ((List.range 96).foldl (fun acc i => acc + (f i).toNat * 2 ^ i) 0)

/-- An edge of the direction that EVT selects. -/
def edgeOf (evt : Nat) (was is_ : Bool) : Bool :=
  (evt.testBit 0 && !was && is_) || (evt.testBit 1 && was && !is_)

/-- The beginning of a beat: I0 is taken and compared with the last one (R475, R478). -/
def gpioBeat (s : State) (pins : BitVec 96) : State :=
  let g := s.gpio
  let odd := pairOdd s.began
  let edges := pinMap (fun i => !odd i && edgeOf (s.began.getF (Reg.GPIO_CFG_EVT i)) (g.s0.getLsbD i) (pins.getLsbD i))
  let s1 := { s with gpio := { g with s0 := pins, edge := g.edge ||| edges } }
  (List.range 4).foldl (fun acc b =>
    acc.setF (Reg.GPIO_IN_LEVEL b) ((pins &&& pinMap (fun i => !odd i)).toNat / 2 ^ (24 * b))) s1

/-- The end of the slot with k = 7 that `s0` begins: the samples of the beat go to the fabric for the next one; D0, D1 and OE are taken,
for pins with SRC = 1 from GPIO_OUTb and GPIO_OEb, and the odd pin of a pair follows the even one; the fabric gives 0 in a held sector
(R93, R474 to R477). Outputs are disabled until the steward is released (R331, R405). -/
def gpioTake (s0 s : State) : State :=
  let g := s.gpio
  let odd := pairOdd s
  let live := pinMap (fun i => !odd i)
  let v := s0.view
  let from_ := fun (w : Nat) => pinMap (fun i => !s0.held (i / 8) && v.afIn (tileOf (i / 8) 0 10) (33 * (i % 8) + 11 * w))
  let soft := pinMap (fun i => s.flag (Reg.GPIO_CFG_SRC i))
  let out := pinMap (fun i => (s.reg (Reg.GPIO_OUT (i / 24))).getLsbD (i % 24))
  let oe := pinMap (fun i => (s.reg (Reg.GPIO_OE (i / 24))).getLsbD (i % 24))
  let pick := fun (fab reg : BitVec 96) =>
    let own := (fab &&& ~~~soft) ||| (reg &&& soft)
    pinMap (fun i => own.getLsbD (if odd i then i - 1 else i))
  { s with gpio := { g with i0 := g.s0 &&& live, i1 := g.s1 &&& live,
                            d0 := pick (from_ 0) out, d1 := pick (from_ 1) out,
                            oe := if s.ld.released then pick (from_ 2) oe else 0 } }

/-- The pins sampled in one slot, with their levels at its sample instant. -/
def gpioSlot (s : State) (pins : BitVec 96) : State :=
  if s.k = 0 then gpioBeat s pins
  else if s.k = 4 then { s with gpio := { s.gpio with s1 := pins } }
  else s

/-- GPIO_EDGE: the edges seen on the pins of bank b set their bits of GPIO_EVTb and raise event 280 + b (R478). -/
def execGpioEdge (b : Fin 4) (s : State) : Res :=
  let bits := s.gpio.edge.toNat / 2 ^ (24 * b.val) % 2 ^ 24
  if bits = 0 then ok s
  else
    let s1 := s.setF (Reg.GPIO_EVT_EDGE b.val) (s.getF (Reg.GPIO_EVT_EDGE b.val) ||| bits)
    let rest := s.gpio.edge &&& ~~~(BitVec.ofNat 96 (bits * 2 ^ (24 * b.val)))
    ok ({ s1 with gpio := { s1.gpio with edge := rest } }.raiseEv (280 + b.val))

/-- GPIO_WAKE: in HOLD, or on the way into it, a pin with WAKE_EN has held its wake level for 2 AON ticks (R421, R423, R478). -/
def execGpioWake (i : Fin 96) (s : State) : Res :=
  okIf ((s.phase == .hold || (s.aon.entry != 0 && s.aon.mode == 1)) && s.flag (Reg.GPIO_CFG_WAKE_EN i.val) && !pairOdd s i.val && s.flag Reg.PWR_WAKE_GPIO_EN) s (latchWake s 2)

end Sys2Proof.Machine
end

