-- ==== Sys2Proof/Machine/Slot.lean ====
section
/-!
DEFINITION. One slot of the whole device (R55): every unit reads the state at the beginning of the slot, and what they capture
stands at its end.
-/

namespace Sys2Proof.Machine

/-- FABRIC_USER_EVENT (R376): the tally input that EVT_USRCu names is 1 in a slot of user mode. -/
def userEventInput (s : State) (secs : List Nat) (u : Nat) : Bool :=
  let n := s.getF (Reg.EVT_USRC_COUNTER u)
  let sec := s.getF (Reg.EVT_USRC_SECTOR u)
  let input := fun (sec : Nat) =>
    let v := s.view
    let sel := v.af (tileOf sec 6 9) (11 * n) 11
    !s.held sec && sel != 0 && v.sel (tileOf sec 6 9) sel
  s.flag (Reg.EVT_USRC_EN u) && (if s.flag (Reg.EVT_USRC_ANY u) then secs.any input else decide (sec < 240) && input sec)

/-- Events 248 + u of the slot that `s0` begins. -/
def userEvents (s0 s : State) (secs : List Nat) : State :=
  if s0.user then
    (List.range 32).foldl (fun acc u => if userEventInput s0 secs u then acc.raiseEv (248 + u) else acc) s
  else s

/-- What the slot is before it is evaluated: pins sampled, links held that both ends would drive (R26, R106, R476). -/
def slotStart (s : State) (pins : BitVec 96) : State := guardTrips (gpioSlot (sampleMarker s pins) pins)

/-- Every unit of the device in the slot that `s0` begins. -/
def slotUnits (s0 : State) : State :=
  let secs := cfgSectors s0
  let s1 := macsSlot (fabricSlot s0 s0)
  let s2 := matchersSlot s0 (rankersSlot s0 s1)
  let s3 := talliesSlot s0 (banksSlot s0 s2) secs
  let s4 := userEvents s0 (wakesSlot s0 s3 secs) secs
  let s5 := mtPortsWait (macPortsWait (storeFixes (mtPortsDone (macPortsDone s4))))
  let s6 := napsSlot (tkBeatEnd (feBeatEnd (feTimings (feDiscards s5))))
  if s0.k = 7 then gpioTake s0 s6 else s6

/-- VCO cycles in the present slot: 64 slots at each ratio 5 to 16 in the ramp down and back in the ramp up of a root switch, four
otherwise (R388). -/
def slotLen (s : State) : Nat :=
  match s.clk.ramp with
  | some (n + 1) => if n < 768 then 5 + n / 64 else 16 - (n - 768) / 64
  | _ => 4

/-- The slot counters move on; the signals of slot 0 end with it. Slots of a root switch's ramps belong to no tick (R388). -/
def slotCount (s : State) : State :=
  s.setTime { s.time with slots := s.time.slots + 1, vco := s.time.vco + slotLen s,
                          off := if tlrClock s then s.time.off else s.time.off + 1, inTick := if s.ramping then s.time.inTick else s.time.inTick + 1,
                          test := false, frameStb := false }

/-- What the end of a slot does: what belongs to the slot just over, then what the slot that begins brings. -/
def slotEnd (s : State) : State :=
  let s1 := rampSlot (rtSlot (slotCount s))
  let s2 := if tlrClock s then tellersSlot (scrubFixes s1) else s1
  haltSlot (slotBegins (flStart (blkSlot s2)).newSlot)

/-- SLOT: one CX cycle, with the GPIO pins at its sample instant. None runs where the tick is over, or while the slot clock is
stopped. -/
def execSlot (pins : BitVec 96) (s : State) : Res := okIf s.slotRuns s (slotEnd (slotUnits (slotStart s pins)))

end Sys2Proof.Machine
end

