-- ==== Sys2Proof/Machine/Frame.lean ====
section
/-!
DEFINITION. Ticks, frames and the start of user mode (02_machine_time.md R22 to R49): what a tick boundary, a frame boundary, an
orbit and the opening of the clearing window do to the whole device.
-/

namespace Sys2Proof.Machine

/-! ### The end of a frame -/

def allSectors : List Nat := List.range 240

/-- One sector in overdraft: force-cleared, recorded, tainted (R38). -/
def overdraft (s : State) (sec : Nat) : State :=
  (((sectorOverdraft s sec).raiseF (mapBit (Reg.TIME_OVD ·) sec)).incF Reg.TIME_OVD_CNT_OVD_CNT).taintSector sec

/-- The drain judgement of the last slot of a frame: the sectors that have not drained (R35). -/
def undrained (s : State) : List Nat := allSectors.filter (fun sec => !sectorDrained s sec)

/-- The frame's registers and hard blocks at the end of its last slot (R36, R42, R122, R132, R146, R147). -/
def frameClear (s : State) : State :=
  let s1 := (mtWaiting s).foldl mtPortAbandon s
  let s2 := { sregFrameEnd s1 with wreg := [] }
  matchersFrameEnd (rankersFrameEnd (macsFrameEnd s2))

/-- The seal of a frame of user mode: drain is judged, pending bank halves commit or are discarded, registers take their reset
values (Table 2.5). A frame that a forced boundary ends early is tainted in every sector (R37). It belongs to the last slot of the
frame. -/
def frameSeal (s0 : State) (early : Bool) : State := s0.inLastSlot fun s =>
  let s1 := (undrained s).foldl overdraft s
  let s2 := if early then allSectors.foldl State.taintSector s1 else s1
  frameClear (pendingCommit s2)

/-! ### The beginning of a frame -/

/-- A sector whose new frame is tainted from slot 0: held in reset, under repair, or in a frame under SLIP, which an ORBIT that takes
effect in this tick clears (R39, R49). -/
def taintStays (s : State) (sec : Nat) : Bool :=
  scrubState s sec != 0 || s.flag (mapBit (Reg.SCRB_HELD ·) sec) || (s.blk.any (fun b => b.1 == sec && b.2 != 0)) ||
    (s.flag Reg.TIME_STATUS_SLIP && s.flag Reg.TIME_CTRL_SLIP_TAINT && !s.time.due.any (isDue 1))

/-- The recovery policies in force (R356). -/
def policySample (s : State) : State :=
  { s with policy := tsets (fun _ => 0) [] (allSectors.map (fun sec => (sec, (tget (fun _ => none) s.cyc.pols sec).getD (policyOf s sec)))) }

/-- TIF and FRAME at a boundary, FRAME_STB, and the lengths sampled (R30, R33). -/
def frameCount (s : State) (frame : Word32) : State :=
  let s1 := (s.setF Reg.TIME_TIF_TIF 0).setReg Reg.TIME_FRAME frame
  sampleLengths (s1.setTime { s1.time with frameStb := true })

/-- Slot 0 of tick 0 of a frame of user mode (Table 2.5): tallies move into their snapshot, ring-mode banks rebase, tellers
receive FRAME with OVD and TAINT, the clearing window closes, NAPs take their credits, a taint that persists begins again.
`ovd` are the sectors in overdraft in the frame that ended. -/
def frameBegin (s : State) (ovd : List Nat) (frame : Word32) : State :=
  let tnt := fun (sec : Nat) => s.tainted sec
  let s1 := tallySnapshot s (s.reg Reg.TIME_FRAME).toNat ovd.contains tnt
  let s2 := napsFrame (banksSample (frameCount s1 frame))
  let s3 := tlrLatchAll (s2.clearF Reg.TIME_STATUS_CLR) (fun sec => 3 + 8 * (ovd.contains sec).toNat + 16 * (tnt sec).toNat)
  let s4 := if ovd.isEmpty then s3 else s3.raiseEv 286
  let s5 := if allSectors.any tnt then s4.raiseEv 287 else s4
  let s6 := policySample { s5 with taint := [] }
  (allSectors.filter (taintStays s6)).foldl State.taintSector s6

/-- FRAME + 1. -/
def nextFrame (s : State) : Word32 := s.reg Reg.TIME_FRAME + 1

/-- FORCED_FRAME_BOUNDARY (R37): a boundary in slot 0 of an effect tick that is not tick 0 of a frame. Before user mode it acts on
the counters alone (R30). -/
def forcedBoundary (s : State) (frame : Word32) : State :=
  if s.user then frameBegin (frameSeal (rtAbort s) true) (undrained s) frame else frameCount s frame

/-- The slot is slot 0 of a tick that is not tick 0 of a frame. -/
def midFrame (s : State) : Bool := s.getF Reg.TIME_TIF_TIF != 0

/-! ### Boundaries -/

/-- TICK_BOUNDARY: the slot count of a tick has expired and the frame goes on: TICK and TIF advance, ring-mode banks step, TICK is
latched for the tellers (R24, R164, R247). -/
def execTickBoundary (s : State) : Res :=
  let s1 := (tickAdvance s).setF Reg.TIME_TIF_TIF (s.getF Reg.TIME_TIF_TIF + 1)
  let s2 := if s.user then tlrLatchAll (ringStep s1) (fun _ => 1) else s1
  okIf (s.tickOver && !s.lastTick) s (slotBegins s2.begin)

/-- FRAME_BOUNDARY: the tick count of a frame has expired (R36); before user mode the counters alone move on (R30). -/
def execFrameBoundary (s : State) : Res :=
  let t := if s.user then frameBegin (tickAdvance (frameSeal s.begin false)) (undrained s) (nextFrame s)
    else frameCount (tickAdvance s.begin) (nextFrame s)
  okIf (s.tickOver && s.lastTick) s (slotBegins t)

/-- FRAME_RESET: a forced frame boundary with FRAME = 0; at tick 0 of a frame the boundary has been made (R29, R37). -/
def execFrameReset (s : State) : Res :=
  let t := dropDue s 3
  okIf (takesEffect s 3 [2, 1]) s (if midFrame s then forcedBoundary t 0 else t.setReg Reg.TIME_FRAME 0)

/-- An ORBIT that completed in tick d or later and qualifies starts user mode: its effect tick is the start tick (R46). START_GATE is
the register's value in the effect tick (DESIGN CHOICE, log 118). -/
def startOrbit (s : State) : Bool :=
  let late := s.time.due.filter (fun c => isDue 1 c && c.late)
  !s.user && s.flag Reg.TIME_STATUS_WAIT_ORBIT && !late.isEmpty &&
    (!s.flag Reg.TIME_CTRL_START_GATE || late.any (fun c => c.arg % 2 == 1))

/-- ORBIT in user mode: a miss is counted where ORB_MODE checks; an aligning ORBIT and the first one after SLIP force a boundary
(R32, R49). -/
def orbitUser (s : State) : State :=
  let mode := s.getF Reg.TIME_CTRL_ORB_MODE
  let s1 := if midFrame s && mode != 0 then (s.incF Reg.TIME_ERR_ORB_MISS).raiseEv 285 else s
  let slipped := s.flag Reg.TIME_STATUS_SLIP
  let s2 := s1.clearF Reg.TIME_STATUS_SLIP
  if midFrame s && (mode == 2 || slipped) then forcedBoundary s2 (nextFrame s) else s2

/-- ORBIT before user mode: an aligning one outside tick 0 of a frame makes a forced boundary of the counters (R30). -/
def orbitEarly (s : State) : State :=
  if midFrame s && s.getF Reg.TIME_CTRL_ORB_MODE == 2 then forcedBoundary s (nextFrame s) else s

/-- ORBIT: takes effect at its effect tick; ORB_SEEN is set. -/
def execOrbit (s : State) : Res :=
  let t := (dropDue s 1).raiseF Reg.TIME_STATUS_ORB_SEEN
  let u := if startOrbit s then t.setTime { t.time with startIn := some 0 } else t
  okIf (takesEffect s 1 [2]) s (if s.user then orbitUser t else orbitEarly u)

/-- The clearing window opens; a requested link test begins in it. -/
def openWindow (s : State) : State := rtOpen (s.raiseF Reg.TIME_STATUS_CLR)

/-- CLEAR_REQ: the clearing window opens if it is closed; ignored before user mode (R30, R31). -/
def execClearReq (s : State) : Res :=
  let t := dropDue s 4
  okIf (takesEffect s 4 [2, 1, 3]) s (if s.user && !s.clrOpen then openWindow t else t)

/-- CLEARING_WINDOW_OPEN: slot 0 of tick L − C of a frame of user mode (R34). -/
def execClearingWindowOpen (s : State) : Res :=
  okIf (s.slot0 && s.user && !s.clrOpen && decide (s.time.len ≤ s.getF Reg.TIME_TIF_TIF + s.time.clr)) s (openWindow s)

/-! ### The start of user mode -/

/-- The global set-reset releases: every register and accumulator stands at its reset value (R58, R93). -/
def setResetRelease (s : State) : State := (accHeld (sregReset s (fun _ _ => true))).raiseF Reg.TIME_STATUS_USER

/-- Frame 0 begins: TIF and FRAME are 0, and what a frame boundary puts into force is in force (R46, R164, R166, R271, R356). -/
def frameZero (s : State) : State :=
  let s1 := napsFrame (banksSample (frameCount s 0))
  let s2 := policySample { tlrLatchAll s1 (fun _ => 3) with taint := [] }
  (allSectors.filter (taintStays s2)).foldl State.taintSector s2

/-- USER_MODE_START: slot 0 of the start tick. -/
def execUserModeStart (s : State) : Res :=
  let s1 := (setResetRelease s).clearF Reg.TIME_STATUS_WAIT_ORBIT
  let s2 := frameZero (s1.setTime { s1.time with startIn := none })
  okIf (s.slot0 && !s.user && s.time.startIn == some 0) s (s2.setF Reg.RST_STAGE_STEP 8)

end Sys2Proof.Machine
end

