-- ==== Sys2Proof/Machine/Loader.lean ====
section
/-!
DEFINITION. What the loader reads and writes (16_configuration.md): stream headers, segments, the records of segment bodies,
the end of a stream, and refetches. How a stream starts and fails stands in CfgPort.lean.
-/

namespace Sys2Proof.Machine

/-! ### The bytes of a stream -/

/-- Bytes of the stream in progress: not all there yet (service port), an uncorrectable flash word, or the bytes. -/
inductive LdBytes where
  | wait
  | bad
  | got (bytes : List Nat)

/-- The loader takes what the service-port FIFO holds. -/
def ldFill (s : State) : State :=
  if s.ld.src = 4 then
    setSpace { s with ld := { s.ld with buf := s.ld.buf ++ (s.ld.fifo.map (fun w => leBytes 4 w.toNat)).flatten, fifo := [] } }
  else s

/-- `n` bytes of the stream from the present position on, left in place. -/
def ldRead (s : State) (n : Nat) : State × LdBytes :=
  if s.ld.src = 4 then (s, if n ≤ s.ld.buf.length then .got (s.ld.buf.take n) else .wait)
  else match flashBytes s (s.ld.base + s.ld.pos) n with
    | (s1, some bs) => (s1, .got bs)
    | (s1, none) => (s1, .bad)

/-- The position moves past `n` bytes. -/
def ldSkip (s : State) (n : Nat) : State :=
  { s with ld := { s.ld with pos := s.ld.pos + n, buf := if s.ld.src = 4 then s.ld.buf.drop n else s.ld.buf } }

/-- Octets [lo, lo + n) of a list. -/
def slice (bs : List Nat) (lo n : Nat) : List Nat := (bs.drop lo).take n

/-! ### Owner key and header -/

/-- KO as the loader is offered it (R297, R322). -/
def ownerKey (s : State) : Option (List Nat) :=
  if !s.flag Reg.VLT_STAT_ROOT_OK then none
  else match s.getF Reg.VLT_STAT_OKEY_STATE with
    | 0 => some (List.replicate 32 0)
    | 1 => some (leBytes 32 ((s.fuses.okey % 2 ^ 256) ^^^ okeyMask))
    | _ => none

/-- The key that a valid header wraps, or the code of its first failure (R321, R322); `room` is the size of its flash region
from the first byte of the stream, none for a port stream. -/
def headerCheck (s : State) (room : Option Nat) (hdr : List Nat) : Except Nat (List Nat) :=
  match ownerKey s with
  | none => .error 0x10
  | some ko =>
    let len := leNat (slice hdr 16 8)
    let kw := deriveKey ko 0x57
    let aad := slice hdr 0 48 ++ slice hdr 80 32
    if leNat (slice hdr 0 4) ≠ 0xAED1A980 ∨ hdr.getD 4 0 ≠ 1 ∨ 1 < hdr.getD 5 0 then .error 0x01
    else if (match room with | some r => decide (r < 128 + len) | none => false) then .error 0x04
    else if hdr.getD 15 0 < floorOf s.fuses.floor then .error 0x03
    else if gcmTag kw (slice hdr 24 12) aad (slice hdr 48 32) ≠ slice hdr 112 16 then .error 0x02
    else .ok (gcmCrypt kw (slice hdr 24 12) (slice hdr 48 32))

/-- A header read from flash and checked; an uncorrectable word is code 0x08. The header area is never read: a stream that begins there lies
outside its region, code 0x04 (R319; DEDUCED, log 140). -/
def flashHeader (s : State) (base room : Nat) : State × Except Nat (List Nat × List Nat) :=
  if (ownerKey s).isNone then (s, .error 0x10)
  else if base < 0x100000 then (s, .error 0x04)
  else match flashBytes s base 128 with
    | (s1, none) => (s1, .error 0x08)
    | (s1, some hdr) => (s1, (headerCheck s1 (some room) hdr).map (fun k => (hdr, k)))

def copyBase (src : Nat) : Nat := if src = 1 then 0x20000000 else 0x90000000

/-- A copy that takes part: its header is valid and its KIND is 0x00 (R328). -/
def copyHeader (s : State) (src : Nat) : State × Option (List Nat × List Nat) :=
  match flashHeader s (copyBase src) 0x70000000 with
  | (s1, .ok (hdr, k)) => (s1, if hdr.getD 5 0 = 0 then some (hdr, k) else none)
  | (s1, .error _) => (s1, none)

/-- The header is accepted: the stream is open, K0 is the key of segment 0. -/
def openStream (s : State) (hdr key : List Nat) : State :=
  { ldSkip s 128 with ld := { (ldSkip s 128).ld with open_ := true, hdr := hdr, len := leNat (slice hdr 16 8), key := key,
                                                     index := 0, seen := [] } }

/-- The boot load takes the copy with the higher SEQNUM of those that take part and have not failed in this start, A on a tie;
with none the device waits for the service port (R328 to R330). -/
def bootHeader (s : State) : State :=
  let (s1, a) := copyHeader s 1
  let (s2, b) := copyHeader s1 2
  let s3 := (s2.putF Reg.CFG_STAT_A_VALID a.isSome).putF Reg.CFG_STAT_B_VALID b.isSome
  let a' := if s.ld.failed.testBit 0 then none else a
  let b' := if s.ld.failed.testBit 1 then none else b
  let seq := fun (h : List Nat × List Nat) => leNat (slice h.1 8 8)
  let take := fun (src : Nat) (h : List Nat × List Nat) =>
    let t := (s3.setF Reg.CFG_STAT_STATE 1).setF Reg.CFG_STAT_PSRC 1
    openStream { t with ld := { t.ld with src := src, full := true, base := copyBase src, pos := 0 } } h.1 h.2
  match a', b' with
  | some x, some y => if seq x < seq y then take 2 y else take 1 x
  | some x, none => take 1 x
  | none, some y => take 2 y
  | none, none => s3.setF Reg.CFG_STAT_STATE 2

/-- Sectors and planes that a partial header declares. -/
def declaredSecs (hdr : List Nat) : List Nat := (List.range 240).filter (fun i => (hdr.getD (80 + i / 8) 0).testBit (i % 8))
def declaredPlanes (hdr : List Nat) : List Nat := (List.range 8).filter (fun p => (hdr.getD 110 0).testBit p)

/-- The planes that a declaration may not include: those active in the sector, and, beside them, those of a partner with
PAIR = 1 (R74). -/
def blockedPlane (s : State) (sec p : Nat) : Bool :=
  let b := partner sec
  let paired := s.flag (Reg.SEC_SCHED_PAIR sec) || s.flag (Reg.SEC_SCHED_PAIR b)
  (s.personality sec).contains p || (paired && (s.personality b).contains p)

/-- Every plane of the region enters ESCROW in one slot; its slot registers read 0 to every reader (R74, R75). -/
def escrowEnter (s : State) (secs planes : List Nat) : State :=
  let s1 := secs.foldl (fun acc sec => planes.foldl (fun acc p => acc.setPlaneState sec p 2) acc) s
  { s1 with sreg := s1.sreg.filter (fun kv => !(secs.contains (kv.1 / 92160) && planes.contains (kv.1 / 11520 % 8))),
            ld := { s1.ld with secs := secs, planes := planes, declared := true } }

/-- The declaration of a partial stream's region, or its refusal (R336). -/
def declareRegion (s : State) : State :=
  let secs := declaredSecs s.ld.hdr
  let planes := declaredPlanes s.ld.hdr
  if secs.isEmpty || planes.isEmpty || secs.any (fun sec => planes.any (blockedPlane s sec)) then
    streamFail (s.raiseF Reg.CFG_STAT_REGION_REF) 0x0F 0xFFFFFF
  else escrowEnter s secs planes

/-- A header that passes opens its stream if its KIND suits the source. -/
def acceptHeader (s : State) (hdr key : List Nat) : State :=
  if (hdr.getD 5 0 = 0) = s.ld.full then
    let s1 := openStream s hdr key
    if s.ld.full then s1 else declareRegion s1
  else streamFail s 0x10 0xFFFFFF

/-- The header of the stream that has been started. -/
def startedHeader (s0 : State) : State :=
  let s := ldFill s0
  if s.ld.src = 4 then
    if (ownerKey s).isNone then streamFail s 0x10 0xFFFFFF
    else match ldRead s 128 with
      | (s1, .got hdr) =>
        match headerCheck s1 none hdr with
        | .ok k => acceptHeader s1 hdr k
        | .error c => streamFail s1 c 0xFFFFFF
      | (s1, _) => s1
  else match flashHeader s s.ld.base (2 ^ 32 - s.ld.base) with
    | (s1, .ok (hdr, k)) => acceptHeader s1 hdr k
    | (s1, .error c) => streamFail s1 c 0xFFFFFF

/-- STREAM_HEADER: the headers of the ledger copies at boot (R328), or the header of the stream that has been started. -/
def execStreamHeader (s : State) : Res :=
  if !s.alive then ok s
  else if s.ld.src = 0 then
    okIf (s.phase == .start && s.getF Reg.RST_STAGE_STEP == 5 && s.getF Reg.CFG_STAT_STATE == 0 && !s.ld.flOn) s (bootHeader s)
  else okIf (tlrClock s && !s.ld.open_ && (s.ld.src == 4 || !s.ld.flOn)) s (startedHeader s)

/-! ### Segments -/

/-- A segment type that the kind of stream may hold (Table 16.4). -/
def typeAllowed (full : Bool) (t : Nat) : Bool := t == 1 || t == 2 || t == 15 || (full && decide (3 ≤ t) && decide (t ≤ 7))

def lenAllowed (t n : Nat) : Bool :=
  if t = 15 then n == 48 else n % 8 == 0 && decide (8 ≤ n) && decide (n ≤ 1048544)

/-- Whether a segment's tag verifies under a key; an engine whose key was zeroised verifies nothing (R316). -/
def segTagOk (key seg : List Nat) : Bool :=
  let n := seg.length
  key.length == 32 && gcmTag key (slice seg 16 12) (slice seg 0 32) (slice seg 32 (n - 48)) == slice seg (n - 16) 16

/-- The plaintext of a segment: the next key and the body. -/
def segPlain (key seg : List Nat) : List Nat := gcmCrypt key (slice seg 16 12) (slice seg 32 (seg.length - 48))

/-- A segment whose bytes are all there is verified (R324). -/
def segVerify (s : State) (seg : List Nat) : State :=
  let l := s.ld
  let ty := seg.getD 0 0
  if !segTagOk l.key seg then streamFail s 0x05 l.index
  else if leNat (slice seg 8 4) ≠ l.index ∨ typeAllowed l.full ty = false ∨ lenAllowed ty (seg.length - 80) = false then
    streamFail s 0x06 l.index
  else
    let plain := segPlain l.key seg
    let body := plain.drop 32
    let s1 := ldSkip s seg.length
    { s1 with ld := { s1.ld with key := plain.take 32, segKey := l.key, segAt := l.base + l.pos, seg := some (ty, body),
                                 seen := if ty = 15 then l.seen else l.seen ++ slice seg 0 32 ++ body } }

/-- The next segment is read: first its clear header, whose LEN says how long it is. -/
def segRead (s : State) : State :=
  let left := s.ld.len + 128 - s.ld.pos
  if left < 32 then streamFail s 0x13 s.ld.index
  else match ldRead s 32 with
    | (_, .wait) => s
    | (s1, .bad) => streamFail s1 0x08 s.ld.index
    | (_, .got h) =>
      let n := 80 + leNat (slice h 4 4)
      if left < n then streamFail s 0x13 s.ld.index
      else match ldRead s n with
        | (_, .wait) => s
        | (s1, .bad) => streamFail s1 0x08 s.ld.index
        | (s1, .got seg) => segVerify s1 seg

/-- Writes of the loader that wait for their answer; Table 13.1 allows 64. -/
def ldOut (s : State) : Nat := outCount s 0x205 false

/-- SEGMENT: the next segment is read and verified, once every record of the last has been acted on, its writes are answered and no refetch
waits. -/
def execSegment (s : State) : Res :=
  okIf (s.alive && s.ld.src != 0 && s.ld.open_ && s.ld.seg.isNone && s.ld.rfxq.isEmpty && ldOut s == 0 &&
      tlrClock s && (s.ld.src == 4 || !s.ld.flOn)) s (segRead (ldFill s))

/-! ### Records -/

/-- The body of the verified segment, if it is of a type and records of it are left. -/
def recordBody (s : State) (ty : Nat) : Option (List Nat) :=
  match s.ld.seg with
  | some (t, body) => if t = ty ∧ s.alive ∧ tlrClock s then some body else none
  | none => none

/-- Word i of the 64-bit words that follow a descriptor. -/
def recWord (body : List Nat) (i : Nat) : Word64 := BitVec.ofNat 64 (leNat (slice body (8 + 8 * i) 8))

/-- A write of the loader leaves as a network request of initiator 0x205 (R325). `note` is 1 for a write that may be posted, 2 for one of a
REGS record, 3 for the one that starts an access through an indirect port, `aux` the number of that one. -/
def loaderWrite (s : State) (size addr data note aux : Nat) : State := (issue s (mkReq 1 size 0x205 0 addr data) note aux).1

/-- The next word of a record is written at its place from byte address `at_` on. -/
def postWord (body : List Nat) (at_ : Nat) (s : State) : State :=
  let t := loaderWrite s 3 (at_ + 8 * s.ld.word) (recWord body s.ld.word).toNat 1 0
  { t with ld := { t.ld with word := s.ld.word + 1 } }

/-- As many words of a record of `count` words as may be outstanding are posted; after the last one the record is done. -/
def postWords (s : State) (body : List Nat) (at_ count : Nat) : State :=
  let t := (List.range 64).foldl (fun acc _ => if acc.ld.word < count ∧ ldOut acc < 64 then postWord body at_ acc else acc) s
  if count ≤ t.ld.word then consume t (8 + 8 * count) else t

/-! ### Plane blocks -/

/-- The words of plane block i of a FRAMES body. -/
def blockWords (body : List Nat) (i : Nat) : List Word64 := (List.range 320).map (fun w => recWord body (320 * i + w))

/-- The check of R104 of words for block b: a link driven in them and from the other end in the same plane. -/
def vlinkClash (s : State) (b : Nat) (words : List Word64) : Bool :=
  let far := partner (blockSec b) * 1152 + b % 1152
  (List.range 48).any (fun n =>
    rtBit (fun w => words.getD w 0) (1920 + 12 * n) && rtBit (fun w => s.cfgInfo (320 * far + w)) (1920 + 12 * n))

/-- A block written through the write path of die C: fresh check bits, the loaded bit; rewrites of the scrub engine for its
words are dropped (R327, R353). -/
def putBlock (s : State) (b : Nat) (words : List Word64) : State :=
  let x := s.scrubOf (blockSec b)
  { s.setScrub (blockSec b) { x with fixes := x.fixes.filter (fun e => e.2.1 / 320 != b) } with
      cfgw := tsets (fun _ => 0) s.cfgw (words.zipIdx.map (fun wi => (320 * b + wi.2, cwEncode wi.1))),
      loaded := tset (fun _ => 0) s.loaded b 7 }

/-- An entry of the refetch table names the segment at hand: its flash address, its key and its index. -/
def rfxMine (l : Loader) (e : RfxEntry) : Bool := e.addr == l.segAt && e.key == l.segKey && e.index == l.index

/-- The refetch table after a stream has written block b from the segment at hand: other entries lose it; a segment of flash
gains it, and makes an entry if there is room (R340). -/
def rfxNote (s : State) (b : Nat) : State :=
  let l := s.ld
  let rest := (l.rfx.map (fun e => { e with blocks := e.blocks.filter (· != b) })).filter (fun e =>
    !e.blocks.isEmpty || rfxMine l e)
  if l.src = 4 then { s with ld := { l with rfx := rest.filter (fun e => !e.blocks.isEmpty) } }
  else if rest.any (rfxMine l) then
    { s with ld := { l with rfx := rest.map (fun e => if rfxMine l e then { e with blocks := e.blocks ++ [b] } else e) } }
  else if rest.length < 8192 then
    { s with ld := { l with rfx := rest ++ [{ addr := l.segAt, key := l.segKey, index := l.index, blocks := [b] }] } }
  else { s.raiseF Reg.CFG_STAT_RFX_OVF with ld := { s.ld with rfx := rest } }

/-- One block of a FRAMES record: the code of its failure, or 0 (R104, R327, R337). `bad` says that the block read back
differs. -/
def frameBlock (s : State) (b : Nat) (words : List Word64) (bad : Bool) : State × Nat :=
  let outside := !s.ld.full && !(s.ld.secs.contains (blockSec b) && s.ld.planes.contains (blockPlane b))
  if outside then (s, 0x0E)
  else if vlinkClash s b words then (s, 0x0A)
  else
    let s1 := rfxNote (putBlock s b words) b
    let s2 := setRfxq s1 (s1.ld.rfxq.filter (· != b))
    let s3 := { s2 with ld := { s2.ld with got := tset (fun _ => false) s2.ld.got b true } }
    (s3, if bad then 0x09 else 0)

/-- The first block and COUNT of a FRAMES descriptor that is well formed (Tables 16.5 and 16.6). -/
def framesDesc (body : List Nat) : Option (Nat × Nat) :=
  let d := leNat (slice body 0 8)
  let x := nbits d 14 11
  let y := nbits d 18 15
  let u := nbits d 3 0
  let v := nbits d 7 4
  let count := nbits d 28 20
  let l0 := 144 * nbits d 10 8 + 12 * v + u
  if 1 ≤ count ∧ count ≤ 409 ∧ d / 2 ^ 29 = 0 ∧ x ≤ 11 ∧ y ≤ 9 ∧ u ≤ 11 ∧ v ≤ 11 ∧ l0 + count ≤ 1152 ∧
      body.length = 8 + 2560 * count then
    some ((120 * nbits d 19 19 + 12 * y + x) * 1152 + l0, count)
  else none

/-- The blocks of a FRAMES record, until one fails. -/
def framesBlocks (s : State) (body : List Nat) (first count : Nat) (bad : Option Nat) : State × Nat :=
  (List.range count).foldl (fun (acc : State × Nat) i =>
    if acc.2 ≠ 0 then acc else frameBlock acc.1 (first + i) (blockWords body i) (bad == some i)) (s, 0)

/-- FRAMES_RECORD: COUNT plane blocks of one sector; `bad` names a block whose read-back differs (R326, R327). -/
def execFramesRecord (bad : Option (Fin 409)) (s : State) : Res :=
  match recordBody s 1 with
  | none => ok s
  | some body =>
    match framesDesc body with
    | none => ok (recFail s 0x07)
    | some (first, count) =>
      let (s1, code) := framesBlocks s body first count (bad.map (·.val))
      ok (if code = 0 then consume s1 body.length else recFail s1 code)

/-! ### Other records -/

/-- A HARDBLK descriptor: sector, KIND, START and COUNT where it is well formed. -/
def hardDesc (body : List Nat) : Option (Nat × Nat × Nat × Nat) :=
  let d := leNat (slice body 0 8)
  let sec := nbits d 7 0
  let kind := nbits d 9 8
  let start := nbits d 29 16
  let count := nbits d 47 30
  let top := if kind = 0 then 192 else 16384
  if sec < 240 ∧ kind ≤ 1 ∧ nbits d 15 10 = 0 ∧ d / 2 ^ 48 = 0 ∧ 1 ≤ count ∧ start + count ≤ top ∧
      8 + 8 * count ≤ body.length then some (sec, kind, start, count) else none

/-- The word that the loader writes to SEC_MAC_SEL for preset i, or to SEC_MT_SEL for store word i: GO, WR, the place (R134, R147). -/
def portSel (kind i : Nat) : Word32 := if kind = 0 then macSelWord true true (i % 8) (i / 8) else mtSelWord true false i

/-- The three writes of one word through an indirect port of a sector: DLO, DHI, then SEL, which starts the access. -/
def portWrites (s : State) (sec kind i : Nat) (w : Word64) : State :=
  let at_ := 0x700500000 + 0x1000 * sec + (if kind = 0 then 0x100 else 0x200)
  let put := fun (t : State) (r data note : Nat) => loaderWrite t 2 (at_ + r) (data % 2 ^ 32 * 2 ^ (8 * (r % 8))) note (s.ld.seq + 1)
  let t := put (put (put s 4 w.toNat 1) 8 (w.toNat / 2 ^ 32) 1) 0 (portSel kind i).toNat 3
  { t with ld := { t.ld with busy := true, seq := s.ld.seq + 1 } }

/-- A record of words for an indirect port goes on. Of a word under way it waits for the end of its access: a word served is done, an
abandoned one is issued again. Else the next word's writes leave, a store word's in user mode only while the clearing window is open, and
none while another access is pending (R134, R147, R339). -/
def portRecord (s : State) (body : List Nat) (sec kind start count : Nat) : State :=
  let l := s.ld
  let pending := if kind = 0 then s.flag (Reg.SEC_HB_STAT_ACC_BUSY sec) else s.flag (Reg.SEC_MT_STAT_BUSY sec)
  if l.busy then
    match l.port with
    | some (_, _, some served) =>
      let t := { s with ld := { l with word := if served then l.word + 1 else l.word, busy := false, port := none } }
      if count ≤ t.ld.word then consume t (8 + 8 * count) else t
    | _ => s
  else if pending || (kind == 1 && storeClosed s) || decide (61 < ldOut s) then s
  else portWrites s sec kind (start + l.word) (recWord body l.word)

/-- HARDBLK_RECORD: MAC presets or matcher store words, through the indirect ports of R134 and R147, a word at a time (R325, R339). -/
def execHardblkRecord (_ : Unit) (s : State) : Res :=
  match recordBody s 2 with
  | none => ok s
  | some body =>
    match hardDesc body with
    | none => ok (recFail s 0x07)
    | some (sec, kind, start, count) =>
      let planeOut := kind = 0 ∧ (List.range count).any (fun i => !s.ld.planes.contains ((start + i) % 8)) = true
      if !s.ld.full ∧ (!s.ld.secs.contains sec ∨ planeOut) then ok (recFail s 0x0E)
      else ok (portRecord s body sec kind start count)

/-- BANKINIT_RECORD: words of a bank, through its NAP/teller port (R168); a record for a retained bank is skipped whole. -/
def execBankinitRecord (_ : Unit) (s : State) : Res :=
  match recordBody s 3 with
  | none => ok s
  | some body =>
    let d := leNat (slice body 0 8)
    let b := nbits d 10 0
    let start := nbits d 23 12
    let count := nbits d 36 24
    if b < 1920 ∧ nbits d 11 11 = 0 ∧ d / 2 ^ 37 = 0 ∧ 1 ≤ count ∧ start + count ≤ 4096 ∧ 8 + 8 * count ≤ body.length then
      if s.aon.retained.contains b then ok (consume s (8 + 8 * count))
      else ok (postWords s body (0x400000000 + 0x8000 * b + 8 * start) count)
    else ok (recFail s 0x07)

/-- FIRMWARE_RECORD: steward RAM words. -/
def execFirmwareRecord (_ : Unit) (s : State) : Res :=
  match recordBody s 4 with
  | none => ok s
  | some body =>
    let d := leNat (slice body 0 8)
    let start := nbits d 18 0
    let count := nbits d 38 19
    if d / 2 ^ 39 = 0 ∧ 1 ≤ count ∧ count ≤ 131067 ∧ start + count ≤ 524288 ∧ 8 + 8 * count ≤ body.length then
      ok (postWords s body (0x600000000 + 8 * start) count)
    else ok (recFail s 0x07)

/-- TELLER_RECORD: words of a teller's instruction or data RAM. -/
def execTellerRecord (_ : Unit) (s : State) : Res :=
  match recordBody s 5 with
  | none => ok s
  | some body =>
    let d := leNat (slice body 0 8)
    let sec := nbits d 7 0
    let start := nbits d 20 9
    let count := nbits d 33 21
    if sec < 240 ∧ d / 2 ^ 34 = 0 ∧ 1 ≤ count ∧ start + count ≤ 4096 ∧ 8 + 8 * count ≤ body.length then
      ok (postWords s body (0x500000000 + 0x10000 * sec + 0x8000 * nbits d 8 8 + 8 * start) count)
    else ok (recFail s 0x07)

/-- KEYS_RECORD: a wrapped key unwrapped into an entry; a failed unwrap and an entry in use fail the segment (R301, R325). -/
def execKeysRecord (s : State) : Res :=
  match recordBody s 6 with
  | none => ok s
  | some body =>
    let d := leNat (slice body 0 8)
    let e := nbits d 5 0
    if e = 0 ∨ d / 64 ≠ 0 ∨ body.length < 48 then ok (recFail s 0x07)
    else
      match (ownerKey s).bind (fun ko => keyUnwrap (deriveKey ko 0x4B) (slice body 8 40)) with
      | some k => ok (if keyInUse s e then recFail s 0x0B else consume (fillKey s e k) 48)
      | none => ok (recFail s 0x0B)

/-- REGS_RECORD: one register write under initiator ID 0x205, once every write before it has been answered; the record is done when it is
answered itself, and an error response fails the segment (R325). -/
def execRegsRecord (_ : Unit) (s : State) : Res :=
  match recordBody s 7 with
  | none => ok s
  | some body =>
    let d := leNat (slice body 0 8)
    if d % 4 ≠ 0 ∨ nbits d 31 24 ≠ 0 ∨ body.length < 8 then ok (recFail s 0x07)
    else
      let o := d % 2 ^ 24
      okIf (!s.ld.busy && ldOut s == 0) s
        (let t := loaderWrite s 2 (0x700000000 + o) (d / 2 ^ 32 * 2 ^ (8 * (o % 8))) 2 0
         { t with ld := { t.ld with busy := true } })

/-! ### The end of a stream -/

/-- The blocks of the region that a partial stream has to write. -/
def regionBlocks (l : Loader) : List Nat :=
  (l.secs.map (fun sec => (l.planes.map (fun p => (List.range 144).map (fun i => sec * 1152 + 144 * p + i))).flatten)).flatten

def streamDone (s : State) : State :=
  let s1 := (((s.setF Reg.CFG_STAT_STATE 3).setF Reg.CFG_STAT_PSRC 0).raiseF Reg.CFG_STAT_DONE_OK).incF Reg.CFG_CNT_OK_CNT
  (setSpace { s1 with ld := s1.ld.idle }).raiseEv 224

/-- A full stream is complete: planes that received a block are READY, COPY and SEQ name the image (R332). -/
def fullDone (s : State) : State :=
  let planes := tkeys (fun b => b / 144) s.ld.got
  let s1 := planes.foldl (fun acc q => acc.setPlaneState (q / 8) (q % 8) 1) s
  let s2 := s1.setF Reg.CFG_STAT_COPY (if s.ld.src = 1 then 1 else if s.ld.src = 2 then 2 else 0)
  let seq := leNat (slice s.ld.hdr 8 8)
  streamDone ((s2.setReg Reg.CFG_SEQ_LO (BitVec.ofNat 32 seq)).setReg Reg.CFG_SEQ_HI (BitVec.ofNat 32 (seq / 2 ^ 32)))

/-- A partial stream is complete: its region leaves escrow, slot registers take the reset values of the new configuration, no sweep in
progress reads its planes, and repairs that waited for its blocks end (R76, R338, R348, R358). -/
def partialDone (s : State) : State :=
  let l := s.ld
  let s1 := l.secs.foldl (fun acc sec => l.planes.foldl (fun acc p => acc.setPlaneState sec p 1) acc) s
  let s2 := sregReset s1 (fun sec p => l.secs.contains sec && l.planes.contains p)
  let mend := fun (acc : State) (b : Nat) =>
    let x := acc.scrubOf (blockSec b)
    if x.pend.contains b || x.failed.contains b then blockRepaired acc b else acc
  let skipped := fun (acc : State) (sec : Nat) =>
    acc.setScrub sec { acc.scrubOf sec with skip := (acc.scrubOf sec).skip ++ l.planes }
  streamDone ((l.got.map (·.1)).foldl mend (l.secs.foldl skipped s2))

/-- END_SEGMENT: nothing may follow END within LEN; the digest is compared, and the stream completes or fails (R324, R337). -/
def execEndSegment (s : State) : Res :=
  match recordBody s 15 with
  | none => ok s
  | some body =>
    let l := s.ld
    if ldOut s ≠ 0 then ok s
    else if l.pos < 128 + l.len then ok (recFail s 0x13)
    else if sha384 (slice l.hdr 0 112 ++ l.seen) ≠ body then ok (recFail s 0x0D)
    else if l.full then ok (fullDone s)
    else if (regionBlocks l).any (fun b => !tget (fun _ => false) l.got b) then ok (recFail s 0x14)
    else ok (partialDone s)

/-! ### Refetch -/

/-- The block of a segment of flash that a refetch writes again, where the segment verifies. -/
def refetchWords (s : State) (e : RfxEntry) (b : Nat) : State × Option (List Word64) :=
  let n := 80 + (match (flashBytes s e.addr 32).2 with | some h => leNat (slice h 4 4) | none => 0)
  if 1048624 < n then (s, none)
  else match flashBytes s e.addr n with
    | (s1, none) => (s1, none)
    | (s1, some seg) =>
      if segTagOk e.key seg then
        let body := (segPlain e.key seg).drop 32
        match framesDesc body with
        | some (first, count) => (s1, if first ≤ b ∧ b < first + count then some (blockWords body (b - first)) else none)
        | none => (s1, none)
      else (s1, none)

/-- REFETCH: the oldest refetch is served, between the segments of a stream; `bad` says that the block read back differs
(R341). -/
def execRefetch (bad : Bool) (s : State) : Res :=
  match s.ld.rfxq with
  | [] => ok s
  | b :: rest =>
    if s.alive && tlrClock s && s.ld.seg.isNone && !s.ld.flOn then
      let s1 := setRfxq (s.incF Reg.CFG_RFX_RFX_CNT) rest
      match s.ld.rfx.find? (fun e => e.blocks.contains b) with
      | none => ok (blockFailed s1 b)
      | some e =>
        match refetchWords s1 e b with
        | (s2, some words) =>
          ok (if bad || vlinkClash s2 b words then blockFailed s2 b else blockRepaired (putBlock s2 b words) b)
        | (s2, none) => ok (blockFailed s2 b)
    else ok s

end Sys2Proof.Machine
end

