-- ==== Sys2Proof/Machine/TellerVec.lean ====
section
/-!
DEFINITION. The T extension of the tellers (R240 to R244, R248, R249, R252), and the row that runs every teller instruction
without a row of its own.
-/

namespace Sys2Proof.Machine

/-- Vector-vector operations by OPV (Table 12.6). -/
inductive VOp where
  | add | sub | mul | mulh | mulhu | min | minu | max | maxu | seq | slt | sltu | sel
  deriving DecidableEq, Repr

/-- A decoded T instruction; `w32` is W = 1. -/
inductive TInstr where
  | vv (op : VOp) (w32 : Bool) (vd vs1 vs2 : Nat)
  | vredsum (unsig w32 : Bool) (rd vs1 : Nat)
  | vsplat (w32 : Bool) (vd rs1 : Nat)
  | vext (unsig w32 : Bool) (rd vs1 lane : Nat)
  | vins (w32 : Bool) (vd rs1 lane : Nat)
  | twait (rd : Nat)
  | tsettle (rd : Nat)
  | traise (rs1 : Nat)
  | vld (vd rs1 : Nat) (imm : Int)
  | vst (vs2 rs1 : Nat) (imm : Int)
  | vtally (vc vi rs1 : Nat) (sat : Bool)
  deriving DecidableEq, Repr

/-- OPV of the vector-vector form. -/
def vopOf (opv : Nat) : Option VOp :=
  match opv with
  | 0x00 => some .add
  | 0x01 => some .sub
  | 0x02 => some .mul
  | 0x03 => some .mulh
  | 0x04 => some .mulhu
  | 0x05 => some .min
  | 0x06 => some .minu
  | 0x07 => some .max
  | 0x08 => some .maxu
  | 0x09 => some .seq
  | 0x0A => some .slt
  | 0x0B => some .sltu
  | 0x0C => some .sel
  | _ => none

/-- custom-0, vector-vector. -/
def decodeVV (w : Nat) : Option TInstr :=
  let vd := nbits w 11 7
  let a := nbits w 19 15
  let b := nbits w 24 20
  match vopOf (nbits w 31 26) with
  | some o => if 16 ≤ vd ∨ 16 ≤ a ∨ 16 ≤ b ∨ (o = .sel ∧ w.testBit 25) then none else some (.vv o (w.testBit 25) vd a b)
  | none => none

/-- custom-0, vector-scalar. -/
def decodeVS (w : Nat) : Option TInstr :=
  let d := nbits w 11 7
  let a := nbits w 19 15
  let l := nbits w 24 20
  let w32 := w.testBit 25
  let laneOk := decide (l < (if w32 then 4 else 8))
  match nbits w 31 26 with
  | 0 => if l = 0 ∧ a < 16 then some (.vredsum false w32 d a) else none
  | 1 => if l = 0 ∧ a < 16 then some (.vredsum true w32 d a) else none
  | 2 => if l = 0 ∧ d < 16 then some (.vsplat w32 d a) else none
  | 3 => if laneOk ∧ a < 16 then some (.vext false w32 d a l) else none
  | 4 => if laneOk ∧ a < 16 then some (.vext true w32 d a l) else none
  | 5 => if laneOk ∧ d < 16 then some (.vins w32 d a l) else none
  | _ => none

/-- custom-0, control. -/
def decodeCtl (w : Nat) : Option TInstr :=
  let d := nbits w 11 7
  let a := nbits w 19 15
  if nbits w 25 20 ≠ 0 then none
  else
    match nbits w 31 26 with
    | 0 => if a = 0 then some (.twait d) else none
    | 1 => if a = 0 then some (.tsettle d) else none
    | 2 => if d = 0 then some (.traise a) else none
    | _ => none

/-- A T instruction (Table 12.5); nothing where the encoding is illegal. -/
def decodeT (w : Nat) : Option TInstr :=
  let d := nbits w 11 7
  let a := nbits w 19 15
  let b := nbits w 24 20
  match nbits w 6 0, nbits w 14 12 with
  | 0x0B, 0 => decodeVV w
  | 0x0B, 1 => decodeVS w
  | 0x0B, 2 => decodeCtl w
  | 0x2B, 0 => if d < 16 then some (.vld d a (immI w)) else none
  | 0x2B, 1 => if b < 16 then some (.vst b a (immS w)) else none
  | 0x2B, 2 => if nbits w 31 26 = 0 ∧ b < 16 ∧ d < 16 then some (.vtally d b a (w.testBit 25)) else none
  | _, _ => none

/-! ### Lane arithmetic -/

def laneBits (w32 : Bool) : Nat := if w32 then 32 else 16
def laneCount (w32 : Bool) : Nat := if w32 then 4 else 8

/-- Lane i of a vector. -/
def vlane (w32 : Bool) (v i : Nat) : Nat := v / 2 ^ (laneBits w32 * i) % 2 ^ laneBits w32

/-- A vector of lanes. -/
def vpack (w32 : Bool) (f : Nat → Nat) : Nat :=
  (List.range (laneCount w32)).foldl (fun acc i => acc + f i % 2 ^ laneBits w32 * 2 ^ (laneBits w32 * i)) 0

/-- One lane of a vector-vector operation, on n-bit lanes. -/
def vopLane (n : Nat) (o : VOp) (a b : Nat) : Nat :=
  let all := 2 ^ n - 1
  match o with
  | .add => a + b
  | .sub => a + 2 ^ n - b
  | .mul => a * b
  | .mulh => wrapN n (sext n a * sext n b / (2 ^ n : Nat))
  | .mulhu => a * b / 2 ^ n
  | .min => if sext n a < sext n b then a else b
  | .minu => min a b
  | .max => if sext n b < sext n a then a else b
  | .maxu => max a b
  | .seq => if a = b then all else 0
  | .slt => if sext n a < sext n b then all else 0
  | .sltu => if a < b then all else 0
  | .sel => 0

/-- A vector-vector operation; VSEL is bitwise with vd as its mask. -/
def vopEval (o : VOp) (w32 : Bool) (d a b : Nat) : Nat :=
  match o with
  | .sel => (d &&& a) ||| ((2 ^ 128 - 1 - d) &&& b)
  | _ => vpack w32 (fun i => vopLane (laneBits w32) o (vlane w32 a i) (vlane w32 b i))

/-- The sum of the lanes modulo 2^32. -/
def vredsumEval (unsig w32 : Bool) (a : Nat) : Nat :=
  wrapN 32 ((List.range (laneCount w32)).foldl (fun (acc : Int) i =>
    acc + (if unsig then (vlane w32 a i : Int) else sext (laneBits w32) (vlane w32 a i))) 0)

/-! ### Effects -/

/-- The program counter after a T instruction. -/
def tNext (s : State) (sec : Nat) : Nat := ((s.tlr sec).pc + 4) % 2 ^ 32

/-- The two doublewords of a vector access. -/
def vparts (a : Nat) : List (Nat × Nat) := [(0, a), (1, a + 8)]

/-- VLD. -/
def tlrVld (s : State) (sec vd a : Nat) : State :=
  let next := tNext s sec
  if a % 16 ≠ 0 then tlrFault s sec 2 (some a)
  else
    match tlrTarget s sec a with
    | .ram w =>
      match tramRead s sec w with
      | (s1, none) => tlrFault s1 sec 5 (some a)
      | (s1, some lo) =>
        match tramRead s1 sec (w + 1) with
        | (s2, none) => tlrFault s2 sec 5 (some a)
        | (s2, some hi) => tlrNext (tlrSetV s2 sec vd (lo + 2 ^ 64 * hi)) sec next
    | .bank i w =>
      tlrBankStart s sec i 1 vd 16 false [(a, tlrBankReq sec .read w a 8 0), (a, tlrBankReq sec .read (w + 1) a 8 0)] next
    | .net p =>
      if tlrStores s sec || 6 < tlrOut s sec || s.napFenced sec then s
      else
        let r1 := tlrIssue s sec 0 p 8 0 1 0
        let r2 := tlrIssue r1.1 sec 0 (p + 8) 8 0 1 1
        r2.1.setTlr sec { s.tlr sec with wait := .net true vd 16 false a [r1.2, r2.2] [] false next }
    | _ => tlrFault s sec 3 (some a)

/-- VST. -/
def tlrVst (s : State) (sec vs a : Nat) : State :=
  let next := tNext s sec
  let v := tlrV s sec vs
  let lo := v % 2 ^ 64
  let hi := v / 2 ^ 64
  if a % 16 ≠ 0 then tlrFault s sec 2 (some a)
  else
    match tlrTarget s sec a with
    | .ram w => tlrNext (tramWrite (tramWrite s sec w lo) sec (w + 1) hi) sec next
    | .bank i w =>
      tlrBankStart s sec i 2 0 16 false [(a, tlrBankReq sec .write w a 8 lo), (a, tlrBankReq sec .write (w + 1) a 8 hi)] next
    | .net p =>
      if 6 < tlrOut s sec || s.napFenced sec then s
      else
        let r1 := tlrIssue s sec 1 p 8 lo 0 0
        let r2 := tlrIssue r1.1 sec 1 (p + 8) 8 hi 0 1
        tlrNext r2.1 sec next
    | _ => tlrFault s sec 3 (some a)

/-- VTALLY (R244): eight atomic adds into one own bank, the words taken modulo 4,096. -/
def tlrVtally (s : State) (sec vc vi a : Nat) (sat : Bool) : State :=
  match tlrTarget s sec a with
  | .bank i w0 =>
    if a % 8 ≠ 0 then tlrFault s sec 3 (some a)
    else
      let op := if sat then BankOp.addu else BankOp.add
      let reqs := (List.range 8).map (fun l =>
        let w := (w0 + vlane false (tlrV s sec vi) l) % 4096
        let addr := a - 8 * w0 + 8 * w
        (addr, tlrBankReq sec op w addr 8 (vlane false (tlrV s sec vc) l)))
      tlrBankStart s sec i 3 0 8 false reqs (tNext s sec)
  | _ => tlrFault s sec 3 (some a)

/-- TWAIT issued: pending enabled causes at once, or WAIT. -/
def tlrTwait (s : State) (sec rd : Nat) : State :=
  if tlrWaitCauses s sec ≠ 0 then tlrTwaitTake s sec rd (tNext s sec)
  else (s.setTlr sec { s.tlr sec with wait := .twait rd (tNext s sec) }).setTlrState sec 2

/-- TSETTLE issued: nothing while a request is outstanding; then FRAME at once, or SETTLED. -/
def tlrTsettle (s : State) (sec rd : Nat) : State :=
  if tlrOut s sec ≠ 0 then s
  else if (tlrPend s sec).testBit 1 then tlrSettleTake s sec rd (tNext s sec)
  else (s.setTlr sec { s.tlr sec with wait := .settle rd (tNext s sec) }).setTlrState sec 3

/-- TRAISE: EVT, EVCODE and the group event (R252). -/
def tlrTraise (s : State) (sec rs1 : Nat) : State :=
  let s1 := (s.raiseF (Reg.SEC_TLR_STAT_EVT sec)).setF (Reg.SEC_TLR_STAT_EVCODE sec) (tlrX s sec rs1 % 256)
  tlrNext (tlrEvent s1 sec) sec (tNext s sec)

/-- The effect of a T instruction (R241). -/
def tlrT (s : State) (sec : Nat) (i : TInstr) : State :=
  let x := tlrX s sec
  let v := tlrV s sec
  let next := tNext s sec
  match i with
  | .vv o w32 vd a b => tlrNext (tlrSetV s sec vd (vopEval o w32 (v vd) (v a) (v b))) sec next
  | .vredsum u w32 rd a => tlrNext (tlrSetX s sec rd (vredsumEval u w32 (v a))) sec next
  | .vsplat w32 vd r => tlrNext (tlrSetV s sec vd (vpack w32 (fun _ => x r))) sec next
  | .vext u w32 rd a l => tlrNext (tlrSetX s sec rd (loadExt 32 (laneBits w32 / 8) (!u) (vlane w32 (v a) l))) sec next
  | .vins w32 vd r l => tlrNext (tlrSetV s sec vd (vpack w32 (fun i => if i = l then x r else vlane w32 (v vd) i))) sec next
  | .twait rd => tlrTwait s sec rd
  | .tsettle rd => tlrTsettle s sec rd
  | .traise r => tlrTraise s sec r
  | .vld vd r imm => tlrVld s sec vd (wrapN 32 ((x r : Int) + imm))
  | .vst vs r imm => tlrVst s sec vs (wrapN 32 ((x r : Int) + imm))
  | .vtally vc vi r sat => tlrVtally s sec vc vi (x r) sat

/-- The row of a T instruction: it runs when the teller may issue and fetches an instruction that is its own. -/
def tRow (s : State) (t : Fin 240) (mine : TInstr → Bool) : Res :=
  tlrRow s t.val
    (fun i => match i with
      | .custom w => (match decodeT w with
        | some d => mine d
        | none => false)
      | _ => false)
    (fun s1 i _ => match i with
      | .custom w => (match decodeT w with
        | some d => tlrT s1 t.val d
        | none => s1)
      | _ => s1) false

def isVV (o : VOp) (i : TInstr) : Bool :=
  match i with
  | .vv p _ _ _ _ => p == o
  | _ => false

/-- VADD. -/
def execVadd (t : Fin 240) (s : State) : Res := tRow s t (isVV .add)

/-- VSUB. -/
def execVsub (t : Fin 240) (s : State) : Res := tRow s t (isVV .sub)

/-- VMUL. -/
def execVmul (t : Fin 240) (s : State) : Res := tRow s t (isVV .mul)

/-- VMULH. -/
def execVmulh (t : Fin 240) (s : State) : Res := tRow s t (isVV .mulh)

/-- VMULHU. -/
def execVmulhu (t : Fin 240) (s : State) : Res := tRow s t (isVV .mulhu)

/-- VMIN. -/
def execVmin (t : Fin 240) (s : State) : Res := tRow s t (isVV .min)

/-- VMINU. -/
def execVminu (t : Fin 240) (s : State) : Res := tRow s t (isVV .minu)

/-- VMAX. -/
def execVmax (t : Fin 240) (s : State) : Res := tRow s t (isVV .max)

/-- VMAXU. -/
def execVmaxu (t : Fin 240) (s : State) : Res := tRow s t (isVV .maxu)

/-- VSEQ. -/
def execVseq (t : Fin 240) (s : State) : Res := tRow s t (isVV .seq)

/-- VSLT. -/
def execVslt (t : Fin 240) (s : State) : Res := tRow s t (isVV .slt)

/-- VSLTU. -/
def execVsltu (t : Fin 240) (s : State) : Res := tRow s t (isVV .sltu)

/-- VSEL. -/
def execVsel (t : Fin 240) (s : State) : Res := tRow s t (isVV .sel)

/-- VREDSUM. -/
def execVredsum (t : Fin 240) (s : State) : Res :=
  tRow s t (fun i => match i with
    | .vredsum u _ _ _ => !u
    | _ => false)

/-- VREDSUMU. -/
def execVredsumu (t : Fin 240) (s : State) : Res :=
  tRow s t (fun i => match i with
    | .vredsum u _ _ _ => u
    | _ => false)

/-- VSPLAT. -/
def execVsplat (t : Fin 240) (s : State) : Res :=
  tRow s t (fun i => match i with
    | .vsplat .. => true
    | _ => false)

/-- VEXT. -/
def execVext (t : Fin 240) (s : State) : Res :=
  tRow s t (fun i => match i with
    | .vext u _ _ _ _ => !u
    | _ => false)

/-- VEXTU. -/
def execVextu (t : Fin 240) (s : State) : Res :=
  tRow s t (fun i => match i with
    | .vext u _ _ _ _ => u
    | _ => false)

/-- VINS. -/
def execVins (t : Fin 240) (s : State) : Res :=
  tRow s t (fun i => match i with
    | .vins .. => true
    | _ => false)

/-- VLD. -/
def execVld (t : Fin 240) (s : State) : Res :=
  tRow s t (fun i => match i with
    | .vld .. => true
    | _ => false)

/-- VST. -/
def execVst (t : Fin 240) (s : State) : Res :=
  tRow s t (fun i => match i with
    | .vst .. => true
    | _ => false)

/-- VTALLY. -/
def execVtally (t : Fin 240) (s : State) : Res :=
  tRow s t (fun i => match i with
    | .vtally .. => true
    | _ => false)

/-- TWAIT. -/
def execTwait (t : Fin 240) (s : State) : Res :=
  tRow s t (fun i => match i with
    | .twait .. => true
    | _ => false)

/-- TSETTLE. -/
def execTsettle (t : Fin 240) (s : State) : Res :=
  tRow s t (fun i => match i with
    | .tsettle .. => true
    | _ => false)

/-- TRAISE. -/
def execTraise (t : Fin 240) (s : State) : Res :=
  tRow s t (fun i => match i with
    | .traise .. => true
    | _ => false)

/-- Instructions that have a row of their own. -/
def ownRow (i : Rv) : Bool :=
  match i with
  | .fence p => !p
  | .ecall => true
  | .ebreak => true
  | .custom w => (decodeT w).isSome
  | _ => false

/-- TELLER_INSTRUCTION: an instruction of RV32IMC without a deviation of its own, an illegal one, or a fetch that faults
(R239). -/
def execTellerInstruction (t : Fin 240) (s : State) : Res :=
  tlrRow s t.val (fun i => !ownRow i) (fun s1 i len => tlrBase s1 t.val i len) true

end Sys2Proof.Machine
end

