-- ==== Sys2Proof/Machine/Dispatch.lean ====
section
/-!
DEFINITION. The dispatch: one arm for each command, each a direct call of its meaning.
-/

namespace Sys2Proof.Machine

def exec (i : Instr) (s : State) : Host.Outcome State Fault Refusal :=
  match i with
  | .registerWrite off v => Sys2Proof.Machine.execRegisterWrite off v s
  | .readClear off peek => Sys2Proof.Machine.execReadClear off peek s
  | .slot pins => Sys2Proof.Machine.execSlot pins s
  | .guardRelease u v xy n => Sys2Proof.Machine.execGuardRelease u v xy n s
  | .tickBoundary => Sys2Proof.Machine.execTickBoundary s
  | .doneRise => Sys2Proof.Machine.execDoneRise s
  | .waitOrbitReminder => Sys2Proof.Machine.execWaitOrbitReminder s
  | .orbitMarkerEdge start => Sys2Proof.Machine.execOrbitMarkerEdge start s
  | .timingWord lane bad k1 k2 c1 c2 => Sys2Proof.Machine.execTimingWord lane bad k1 k2 c1 c2 s
  | .nop => Sys2Proof.Machine.execNop s
  | .orbit => Sys2Proof.Machine.execOrbit s
  | .tickReset => Sys2Proof.Machine.execTickReset s
  | .frameReset => Sys2Proof.Machine.execFrameReset s
  | .clearReq => Sys2Proof.Machine.execClearReq s
  | .swapGo => Sys2Proof.Machine.execSwapGo s
  | .testPulse => Sys2Proof.Machine.execTestPulse s
  | .frameBoundary => Sys2Proof.Machine.execFrameBoundary s
  | .clearingWindowOpen => Sys2Proof.Machine.execClearingWindowOpen s
  | .userModeStart => Sys2Proof.Machine.execUserModeStart s
  | .startForce => Sys2Proof.Machine.execStartForce s
  | .doneFall => Sys2Proof.Machine.execDoneFall s
  | .tickLoRead => Sys2Proof.Machine.execTickLoRead s
  | .swapArm sec v => Sys2Proof.Machine.execSwapArm sec v s
  | .swapDisarm sec v => Sys2Proof.Machine.execSwapDisarm sec v s
  | .scheduleWrite sec v => Sys2Proof.Machine.execScheduleWrite sec v s
  | .scheduleApply sec => Sys2Proof.Machine.execScheduleApply sec s
  | .swap sec => Sys2Proof.Machine.execSwap sec s
  | .madd sec m => Sys2Proof.Machine.execMadd sec m s
  | .leaf sec m => Sys2Proof.Machine.execLeaf sec m s
  | .head sec m => Sys2Proof.Machine.execHead sec m s
  | .macPortRead sec pre p m => Sys2Proof.Machine.execMacPortRead sec pre p m s
  | .macPortWrite sec pre p m => Sys2Proof.Machine.execMacPortWrite sec pre p m s
  | .macPortServe sec => Sys2Proof.Machine.execMacPortServe sec s
  | .macPortTimeout sec => Sys2Proof.Machine.execMacPortTimeout sec s
  | .top sec r => Sys2Proof.Machine.execTop sec r s
  | .flush sec r => Sys2Proof.Machine.execFlush sec r s
  | .merge sec r => Sys2Proof.Machine.execMerge sec r s
  | .matcherHit sec h => Sys2Proof.Machine.execMatcherHit sec h s
  | .eventEnd sec => Sys2Proof.Machine.execEventEnd sec s
  | .road sec => Sys2Proof.Machine.execRoad sec s
  | .mtPortRead sec stream a => Sys2Proof.Machine.execMtPortRead sec stream a s
  | .mtPortWrite sec stream a => Sys2Proof.Machine.execMtPortWrite sec stream a s
  | .mtStreamWrite sec v => Sys2Proof.Machine.execMtStreamWrite sec v s
  | .mtPortServe sec => Sys2Proof.Machine.execMtPortServe sec s
  | .mtPortTimeout sec => Sys2Proof.Machine.execMtPortTimeout sec s
  | .storeCheck sec => Sys2Proof.Machine.execStoreCheck sec s
  | .bankRead sec ix => Sys2Proof.Machine.execBankRead sec ix s
  | .bankWrite sec ix => Sys2Proof.Machine.execBankWrite sec ix s
  | .bankAdd sec ix => Sys2Proof.Machine.execBankAdd sec ix s
  | .bankAddu sec ix => Sys2Proof.Machine.execBankAddu sec ix s
  | .bankAdds sec ix => Sys2Proof.Machine.execBankAdds sec ix s
  | .bankSwap sec ix => Sys2Proof.Machine.execBankSwap sec ix s
  | .bankNonownerServe sec ix => Sys2Proof.Machine.execBankNonownerServe sec ix s
  | .ownerHandover sec ix v => Sys2Proof.Machine.execOwnerHandover sec ix v s
  | .bankConfigWrite sec ix v => Sys2Proof.Machine.execBankConfigWrite sec ix v s
  | .bankScrubVisit sec ix => Sys2Proof.Machine.execBankScrubVisit sec ix s
  | .quadModeWrite q v => Sys2Proof.Machine.execQuadModeWrite q v s
  | .feAlignment n bits phase fits rd => Sys2Proof.Machine.execFeAlignment n bits phase fits rd s
  | .feWordReceive n w => Sys2Proof.Machine.execFeWordReceive n w s
  | .feAlignmentLoss n drift => Sys2Proof.Machine.execFeAlignmentLoss n drift s
  | .feWordTransmit n => Sys2Proof.Machine.execFeWordTransmit n s
  | .polarityWrite n v => Sys2Proof.Machine.execPolarityWrite n v s
  | .trunkRateWrite q v => Sys2Proof.Machine.execTrunkRateWrite q v s
  | .codewordSend n => Sys2Proof.Machine.execCodewordSend n s
  | .codewordReceive n syms => Sys2Proof.Machine.execCodewordReceive n syms s
  | .codewordLock n slip phase => Sys2Proof.Machine.execCodewordLock n slip phase s
  | .codewordLockLoss n => Sys2Proof.Machine.execCodewordLockLoss n s
  | .superframeLock n => Sys2Proof.Machine.execSuperframeLock n s
  | .superframeLockLoss n => Sys2Proof.Machine.execSuperframeLockLoss n s
  | .streamVerify n c => Sys2Proof.Machine.execStreamVerify n c s
  | .streamBlockTransmit n => Sys2Proof.Machine.execStreamBlockTransmit n s
  | .queuePacketSend n => Sys2Proof.Machine.execQueuePacketSend n s
  | .queuePacketReceive n => Sys2Proof.Machine.execQueuePacketReceive n s
  | .queueDeliver n q => Sys2Proof.Machine.execQueueDeliver n q s
  | .qackReceive n => Sys2Proof.Machine.execQackReceive n s
  | .queueRetryTimeout n q => Sys2Proof.Machine.execQueueRetryTimeout n q s
  | .queueTailWrite n q v => Sys2Proof.Machine.execQueueTailWrite n q v s
  | .queueHeadWrite n q v => Sys2Proof.Machine.execQueueHeadWrite n q v s
  | .laneEnable n v => Sys2Proof.Machine.execLaneEnable n v s
  | .laneRestart n => Sys2Proof.Machine.execLaneRestart n s
  | .detectAttempt n found => Sys2Proof.Machine.execDetectAttempt n found s
  | .trainComplete n => Sys2Proof.Machine.execTrainComplete n s
  | .bitlockComplete n => Sys2Proof.Machine.execBitlockComplete n s
  | .laneStateTimeout n => Sys2Proof.Machine.execLaneStateTimeout n s
  | .lossOfSignal n => Sys2Proof.Machine.execLossOfSignal n s
  | .quadPllLock q t => Sys2Proof.Machine.execQuadPllLock q t s
  | .quadPllLoss q => Sys2Proof.Machine.execQuadPllLoss q s
  | .quadPllRecal q => Sys2Proof.Machine.execQuadPllRecal q s
  | .hskMessage n => Sys2Proof.Machine.execHskMessage n s
  | .handshakeExit n => Sys2Proof.Machine.execHandshakeExit n s
  | .laneWake n pattern => Sys2Proof.Machine.execLaneWake n pattern s
  | .wakeSend n => Sys2Proof.Machine.execWakeSend n s
  | .wakeSendEnd n => Sys2Proof.Machine.execWakeSendEnd n s
  | .testPatternWrite n v => Sys2Proof.Machine.execTestPatternWrite n v s
  | .prbsErrRead n => Sys2Proof.Machine.execPrbsErrRead n s
  | .injSingle n => Sys2Proof.Machine.execInjSingle n s
  | .injBurst n => Sys2Proof.Machine.execInjBurst n s
  | .loopbackSelect n lb => Sys2Proof.Machine.execLoopbackSelect n lb s
  | .tellerStop t => Sys2Proof.Machine.execTellerStop t s
  | .tellerRun t => Sys2Proof.Machine.execTellerRun t s
  | .tellerSoft t => Sys2Proof.Machine.execTellerSoft t s
  | .tellerInstruction t => Sys2Proof.Machine.execTellerInstruction t s
  | .tellerFence t => Sys2Proof.Machine.execTellerFence t s
  | .tellerEcall t => Sys2Proof.Machine.execTellerEcall t s
  | .tellerEbreak t => Sys2Proof.Machine.execTellerEbreak t s
  | .vadd t => Sys2Proof.Machine.execVadd t s
  | .vsub t => Sys2Proof.Machine.execVsub t s
  | .vmul t => Sys2Proof.Machine.execVmul t s
  | .vmulh t => Sys2Proof.Machine.execVmulh t s
  | .vmulhu t => Sys2Proof.Machine.execVmulhu t s
  | .vmin t => Sys2Proof.Machine.execVmin t s
  | .vminu t => Sys2Proof.Machine.execVminu t s
  | .vmax t => Sys2Proof.Machine.execVmax t s
  | .vmaxu t => Sys2Proof.Machine.execVmaxu t s
  | .vseq t => Sys2Proof.Machine.execVseq t s
  | .vslt t => Sys2Proof.Machine.execVslt t s
  | .vsltu t => Sys2Proof.Machine.execVsltu t s
  | .vsel t => Sys2Proof.Machine.execVsel t s
  | .vredsum t => Sys2Proof.Machine.execVredsum t s
  | .vredsumu t => Sys2Proof.Machine.execVredsumu t s
  | .vsplat t => Sys2Proof.Machine.execVsplat t s
  | .vext t => Sys2Proof.Machine.execVext t s
  | .vextu t => Sys2Proof.Machine.execVextu t s
  | .vins t => Sys2Proof.Machine.execVins t s
  | .vld t => Sys2Proof.Machine.execVld t s
  | .vst t => Sys2Proof.Machine.execVst t s
  | .vtally t => Sys2Proof.Machine.execVtally t s
  | .twait t => Sys2Proof.Machine.execTwait t s
  | .tsettle t => Sys2Proof.Machine.execTsettle t s
  | .traise t => Sys2Proof.Machine.execTraise t s
  | .tellerWake t => Sys2Proof.Machine.execTellerWake t s
  | .tellerSettleWake t => Sys2Proof.Machine.execTellerSettleWake t s
  | .nocRead r vc => Sys2Proof.Machine.execNocRead r vc s
  | .nocWrite r vc => Sys2Proof.Machine.execNocWrite r vc s
  | .nocWrline r => Sys2Proof.Machine.execNocWrline r s
  | .nocAdd r vc => Sys2Proof.Machine.execNocAdd r vc s
  | .nocAddu r vc => Sys2Proof.Machine.execNocAddu r vc s
  | .nocAdds r vc => Sys2Proof.Machine.execNocAdds r vc s
  | .nocSwap r vc => Sys2Proof.Machine.execNocSwap r vc s
  | .nocFlitForward r out net => Sys2Proof.Machine.execNocFlitForward r out net s
  | .nocResponse r dat vc => Sys2Proof.Machine.execNocResponse r dat vc s
  | .nocTimeout id ln tag => Sys2Proof.Machine.execNocTimeout id ln tag s
  | .tagQuarantineEnd id ln tag => Sys2Proof.Machine.execTagQuarantineEnd id ln tag s
  | .napCreditGrant sec => Sys2Proof.Machine.execNapCreditGrant sec s
  | .napInitiatorRequest sec => Sys2Proof.Machine.execNapInitiatorRequest sec s
  | .napResponsePresent sec => Sys2Proof.Machine.execNapResponsePresent sec s
  | .napTargetPresent sec => Sys2Proof.Machine.execNapTargetPresent sec s
  | .napTargetAnswer sec => Sys2Proof.Machine.execNapTargetAnswer sec s
  | .napTargetLimit sec => Sys2Proof.Machine.execNapTargetLimit sec s
  | .napFence sec => Sys2Proof.Machine.execNapFence sec s
  | .napUnfence sec => Sys2Proof.Machine.execNapUnfence sec s
  | .memoryScrubVisit c => Sys2Proof.Machine.execMemoryScrubVisit c s
  | .refresh c => Sys2Proof.Machine.execRefresh c s
  | .fuseProgramOwnerKey id => Sys2Proof.Machine.execFuseProgramOwnerKey id s
  | .fuseProgramFloor id => Sys2Proof.Machine.execFuseProgramFloor id s
  | .fuseBurnComplete => Sys2Proof.Machine.execFuseBurnComplete s
  | .keyClear id v => Sys2Proof.Machine.execKeyClear id v s
  | .zeroise id v => Sys2Proof.Machine.execZeroise id v s
  | .zeroiseComplete => Sys2Proof.Machine.execZeroiseComplete s
  | .lockWrite which id v => Sys2Proof.Machine.execLockWrite which id v s
  | .lockWindowExpiry which => Sys2Proof.Machine.execLockWindowExpiry which s
  | .windowEnable w v => Sys2Proof.Machine.execWindowEnable w v s
  | .windowDisable w v => Sys2Proof.Machine.execWindowDisable w v s
  | .windowInitComplete w => Sys2Proof.Machine.execWindowInitComplete w s
  | .rngRead peek => Sys2Proof.Machine.execRngRead peek s
  | .rngHealthFail => Sys2Proof.Machine.execRngHealthFail s
  | .streamHeader => Sys2Proof.Machine.execStreamHeader s
  | .segment => Sys2Proof.Machine.execSegment s
  | .framesRecord bad => Sys2Proof.Machine.execFramesRecord bad s
  | .hardblkRecord late => Sys2Proof.Machine.execHardblkRecord late s
  | .bankinitRecord late => Sys2Proof.Machine.execBankinitRecord late s
  | .firmwareRecord late => Sys2Proof.Machine.execFirmwareRecord late s
  | .tellerRecord late => Sys2Proof.Machine.execTellerRecord late s
  | .keysRecord => Sys2Proof.Machine.execKeysRecord s
  | .regsRecord late => Sys2Proof.Machine.execRegsRecord late s
  | .endSegment => Sys2Proof.Machine.execEndSegment s
  | .stewardRelease dt => Sys2Proof.Machine.execStewardRelease dt s
  | .doneRelease => Sys2Proof.Machine.execDoneRelease s
  | .doneGo => Sys2Proof.Machine.execDoneGo s
  | .goFlash foff => Sys2Proof.Machine.execGoFlash foff s
  | .goPort => Sys2Proof.Machine.execGoPort s
  | .streamAbort => Sys2Proof.Machine.execStreamAbort s
  | .refetch bad => Sys2Proof.Machine.execRefetch bad s
  | .servicePortWord v => Sys2Proof.Machine.execServicePortWord v s
  | .flashRead => Sys2Proof.Machine.execFlashRead s
  | .flashProgram => Sys2Proof.Machine.execFlashProgram s
  | .flashErase => Sys2Proof.Machine.execFlashErase s
  | .flashCommandComplete failed => Sys2Proof.Machine.execFlashCommandComplete failed s
  | .configScrubCycle sec => Sys2Proof.Machine.execConfigScrubCycle sec s
  | .scrubRetry sec => Sys2Proof.Machine.execScrubRetry sec s
  | .stewardInstruction ix => Sys2Proof.Machine.execStewardInstruction ix s
  | .cboClean ix => Sys2Proof.Machine.execCboClean ix s
  | .cboFlush ix => Sys2Proof.Machine.execCboFlush ix s
  | .cboInval ix => Sys2Proof.Machine.execCboInval ix s
  | .fenceI ix => Sys2Proof.Machine.execFenceI ix s
  | .stewardFence ix => Sys2Proof.Machine.execStewardFence ix s
  | .stewardAmo ix => Sys2Proof.Machine.execStewardAmo ix s
  | .wfi ix => Sys2Proof.Machine.execWfi ix s
  | .snoopRequest => Sys2Proof.Machine.execSnoopRequest s
  | .snoopForward j => Sys2Proof.Machine.execSnoopForward j s
  | .snoopAck => Sys2Proof.Machine.execSnoopAck s
  | .snoopGrant ix => Sys2Proof.Machine.execSnoopGrant ix s
  | .snoopDone => Sys2Proof.Machine.execSnoopDone s
  | .snoopAckTimeout ix => Sys2Proof.Machine.execSnoopAckTimeout ix s
  | .eventPending => Sys2Proof.Machine.execEventPending s
  | .eventClaim ix peek => Sys2Proof.Machine.execEventClaim ix peek s
  | .evtSwraise e => Sys2Proof.Machine.execEvtSwraise e s
  | .wdtEnable id v => Sys2Proof.Machine.execWdtEnable id v s
  | .wdtKick v => Sys2Proof.Machine.execWdtKick v s
  | .wdtStage1Expiry dt => Sys2Proof.Machine.execWdtStage1Expiry dt s
  | .wdtStage2Expiry dt => Sys2Proof.Machine.execWdtStage2Expiry dt s
  | .rcoReady => Sys2Proof.Machine.execRcoReady s
  | .xoReady => Sys2Proof.Machine.execXoReady s
  | .xoStartFail => Sys2Proof.Machine.execXoStartFail s
  | .aonSourceChange => Sys2Proof.Machine.execAonSourceChange s
  | .rootSwitch src m => Sys2Proof.Machine.execRootSwitch src m s
  | .mrefSettled khz => Sys2Proof.Machine.execMrefSettled khz s
  | .clockMonitorTrip src => Sys2Proof.Machine.execClockMonitorTrip src s
  | .sourceRecovered src => Sys2Proof.Machine.execSourceRecovered src s
  | .rcoTrimWindow err => Sys2Proof.Machine.execRcoTrimWindow err s
  | .gpioDelayCompensate b => Sys2Proof.Machine.execGpioDelayCompensate b s
  | .powerOn => Sys2Proof.Machine.execPowerOn s
  | .resetNAssert => Sys2Proof.Machine.execResetNAssert s
  | .resetNRelease => Sys2Proof.Machine.execResetNRelease s
  | .firmwareReset id v => Sys2Proof.Machine.execFirmwareReset id v s
  | .vinLoss => Sys2Proof.Machine.execVinLoss s
  | .supplyWarning vin vaux => Sys2Proof.Machine.execSupplyWarning vin vaux s
  | .deviceStart dt raws rootOk rngOk pin bad fill groups links moved => Sys2Proof.Machine.execDeviceStart dt raws rootOk rngOk pin bad fill groups links moved s
  | .blockReset sec => Sys2Proof.Machine.execBlockReset sec s
  | .blockResetEnd => Sys2Proof.Machine.execBlockResetEnd s
  | .powerStateEntry => Sys2Proof.Machine.execPowerStateEntry s
  | .entryBlockTimeout block => Sys2Proof.Machine.execEntryBlockTimeout block s
  | .wakeTimer dt => Sys2Proof.Machine.execWakeTimer dt s
  | .wakeFromHold => Sys2Proof.Machine.execWakeFromHold s
  | .wakeFromKeep => Sys2Proof.Machine.execWakeFromKeep s
  | .voltageRequest v => Sys2Proof.Machine.execVoltageRequest v s
  | .regulatorFault rail => Sys2Proof.Machine.execRegulatorFault rail s
  | .residencyRead m dt => Sys2Proof.Machine.execResidencyRead m dt s
  | .thermalSample dt readings failed => Sys2Proof.Machine.execThermalSample dt readings failed s
  | .governorDwell => Sys2Proof.Machine.execGovernorDwell s
  | .dutyAdjust tot fix => Sys2Proof.Machine.execDutyAdjust tot fix s
  | .thermalRestart => Sys2Proof.Machine.execThermalRestart s
  | .tapReset => Sys2Proof.Machine.execTapReset s
  | .extest pins v => Sys2Proof.Machine.execExtest pins v s
  | .sample pins => Sys2Proof.Machine.execSample pins s
  | .preload v => Sys2Proof.Machine.execPreload v s
  | .idcode => Sys2Proof.Machine.execIdcode s
  | .extestPulse pins v => Sys2Proof.Machine.execExtestPulse pins v s
  | .extestTrain pins v => Sys2Proof.Machine.execExtestTrain pins v s
  | .bypass => Sys2Proof.Machine.execBypass s
  | .dbgAccess v => Sys2Proof.Machine.execDbgAccess v s
  | .halt => Sys2Proof.Machine.execHalt s
  | .resume => Sys2Proof.Machine.execResume s
  | .curArm v => Sys2Proof.Machine.execCurArm v s
  | .sysrst => Sys2Proof.Machine.execSysrst s
  | .cfgStream v => Sys2Proof.Machine.execCfgStream v s
  | .causeRead => Sys2Proof.Machine.execCauseRead s
  | .coreRelease mask => Sys2Proof.Machine.execCoreRelease mask s
  | .doneOk => Sys2Proof.Machine.execDoneOk s
  | .i2cWrite a addr v => Sys2Proof.Machine.execI2cWrite a addr v s
  | .i2cRead a addr => Sys2Proof.Machine.execI2cRead a addr s
  | .i2cStream a v => Sys2Proof.Machine.execI2cStream a v s
  | .i2cStatusRead a => Sys2Proof.Machine.execI2cStatusRead a s
  | .rtBistRequest pair repair => Sys2Proof.Machine.execRtBistRequest pair repair s
  | .rtBistRun fails => Sys2Proof.Machine.execRtBistRun fails s
  | .gpioEdge b => Sys2Proof.Machine.execGpioEdge b s
  | .gpioWake ix => Sys2Proof.Machine.execGpioWake ix s
  | .lossOfPower => Sys2Proof.Machine.execLossOfPower s
  | .mrefLost present => Sys2Proof.Machine.execMrefLost present s
  | .machineTimerInterrupt dt => Sys2Proof.Machine.execMachineTimerInterrupt dt s
  | .prbsCheckerSync n => Sys2Proof.Machine.execPrbsCheckerSync n s
  | .prbsSyncLoss n => Sys2Proof.Machine.execPrbsSyncLoss n s

end Sys2Proof.Machine
end

