-- ==== Sys2Proof/WellFormed.lean ====
section
/-!
DEFINITION. Which commands are well formed: the ranges that the operands of a command have beyond what their types say. Every
meaning is total, so an ill-formed command has an effect too; no statement needs to say what it is.
-/

namespace Sys2Proof

/-- The register space is 16 MiB of 32-bit registers, and an access is aligned (R4, R6). -/
def regOffsetOk (off : Nat) : Bool := off % 4 == 0 && decide (off < 2 ^ 24)

/-- A voltage in the 10-bit code of the monitors fits the registers that hold it (R419). -/
def voltOk (v : Nat) : Bool := decide (v < 2 ^ 16)

/-- A die-to-die link, by PATH, INDEX and its number in its group, that Table 23.6 names; a group has 48 working links and 2 spares, in a
memory channel 44 and 2 (R8). -/
def linkOk (e : Nat × Nat × Nat) : Bool :=
  match e.1 with
  | 1 => decide (e.2.1 < 17280) && decide (e.2.2 < 50)
  | 2 => decide (e.2.1 < 128) && decide (e.2.2 < 46)
  | 3 => decide (e.2.1 < 1920) && decide (e.2.2 < 50)
  | 4 => decide (e.2.1 < 1920) && decide (e.2.2 < 50)
  | 5 => decide (e.2.1 < 491520) && decide (e.2.2 < 50)
  | 6 => decide (e.2.1 < 491520) && decide (e.2.2 < 50)
  | _ => false

/-- The operands of a start: 16 strap samples (R401), a failing ball by its index, failing links (R459, Table 23.6). -/
def startOk (raws : List Byte) (pin : Option Nat) (bad : List (Nat × Nat × Nat)) : Bool :=
  raws.length == 16 && pin.all (fun p => decide (p < 1728)) && bad.all linkOk

/-- A temperature sample has one reading for each of the 272 sensors, and names failing sensors by number (R428). -/
def sampleOk (readings : List (BitVec 11)) (failed : List Nat) : Bool :=
  readings.length == 272 && failed.all (fun n => decide (n < 272))

/-- A command whose operands lie in their ranges. -/
def Instr.wellFormed : Instr → Bool
  | .registerWrite off _ => regOffsetOk off
  | .readClear off _ => regOffsetOk off
  | .codewordReceive _ syms => decide (syms.length ≤ 1144)
  | .mrefSettled khz => decide (khz.1 < 2 ^ 20)
  | .mrefLost present => present.all (fun khz => decide (khz < 2 ^ 20))
  | .supplyWarning vin vaux => voltOk vin && voltOk vaux
  | .deviceStart _ raws _ _ pin bad _ _ _ _ => startOk raws pin bad
  | .thermalSample _ readings failed => sampleOk readings failed
  | .dutyAdjust tot fix => decide (fix ≤ tot)
  | _ => true

end Sys2Proof
end

