-- ==== Sys2Proof/Safety.lean ====
section
/-!
DEFINITION. The words that claims about the device use: which register bits a command leaves alone, the invariant of the state,
what can never come back once a fuse has burned.
-/

namespace Sys2Proof.Machine

/-- Every bit of the register space outside the fields listed is in `t` what it is in `s`. -/
def BitsBut (fs : List Field) (s t : State) : Prop :=
  ∀ o i, (∀ f ∈ fs, f.reg = o → i < f.lo ∨ f.hi < i) → (t.reg o).getLsbD i = (s.reg o).getLsbD i

/-- Nothing but register bits in the fields listed, and the record of what hardware has done in the slot, differs between two
states. -/
def OnlyBits (fs : List Field) (s t : State) : Prop := BitsBut fs s t ∧ { t with regs := s.regs, cyc := s.cyc } = s

/-- Event `e` is raised after those that were raised, once in a slot; nothing else differs but register bits in the fields listed and
the record of the slot. -/
def OnlyBitsEv (fs : List Field) (e : Nat) (s t : State) : Prop :=
  BitsBut fs s t ∧ t.raised = (s.raiseEv e).raised ∧ { t with regs := s.regs, raised := s.raised, cyc := s.cyc } = s

/-- What the always-on block shows of itself in each of its ticks: the watchdog's count, the oscillators, MREF and the multiplexer,
the supplies and the rails (R383 to R390, R408, R411, R415). -/
def tickFields : List Field :=
  [Reg.WDT_STAT_COUNT, Reg.CLK_STAT_RCO_READY, Reg.CLK_STAT_XO_READY, Reg.CLK_STAT_XO_OK, Reg.CLK_STAT_RCO_OK, Reg.CLK_STAT_AON_NOW,
   Reg.CLK_MREF_FREQ, Reg.CLK_STAT_MREF_OK, Reg.CLK_STAT_MREF_SETTLED, Reg.CLK_STAT_MUX_BUSY, Reg.PWR_VMON_VIN, Reg.PWR_VMON_VAUX,
   Reg.PWR_VNOW_VF_NOW, Reg.PWR_VNOW_VT_NOW, Reg.PWR_VNOW_VS_NOW, Reg.PWR_VNOW_SLEW]

/-- What CLK_STAT and CLK_MREF show of the clocks. -/
def clockFields : List Field :=
  [Reg.CLK_STAT_RCO_READY, Reg.CLK_STAT_XO_READY, Reg.CLK_STAT_XO_OK, Reg.CLK_STAT_RCO_OK, Reg.CLK_STAT_AON_NOW,
   Reg.CLK_MREF_FREQ, Reg.CLK_STAT_MREF_OK, Reg.CLK_STAT_MREF_SETTLED, Reg.CLK_STAT_MUX_BUSY]

/-- CLK_STAT and CLK_MREF show the clocks as they are (R383 to R387, R390, R391): an oscillator that runs is ready, it passes its
monitor while the monitor's own reference runs and it has not tripped, MREF is settled once it has been stable for the strapped wait,
and the multiplexer is busy while it owes a change it can make or its old clock has stopped. -/
def ClocksShown (s : State) : Prop :=
  let c := s.clk
  s.flag Reg.CLK_STAT_RCO_READY = c.rco ∧ s.flag Reg.CLK_STAT_XO_READY = c.xo ∧
  s.flag Reg.CLK_STAT_XO_OK = (c.xo && !c.tripped.contains 0) ∧ s.flag Reg.CLK_STAT_RCO_OK = (c.rco && c.xo && !c.tripped.contains 1) ∧
  s.flag Reg.CLK_STAT_AON_NOW = c.aonXo ∧ s.getF Reg.CLK_MREF_FREQ = c.mref.getD 0 % 2 ^ 16 ∧
  s.flag Reg.CLK_STAT_MREF_OK = (c.mref.isSome && !c.tripped.contains 2) ∧
  s.flag Reg.CLK_STAT_MREF_SETTLED = (c.mref.isSome && decide (strapWait s ≤ c.stable)) ∧
  s.flag Reg.CLK_STAT_MUX_BUSY =
    (c.hang || (s.flag Reg.CLK_CTRL_AON_SRC != c.aonXo && (!s.flag Reg.CLK_CTRL_AON_SRC || c.xo)))

/-- A whole register as a field. -/
def wholeReg (o : Nat) : Field := ⟨o, 31, 0⟩

/-- The memories of the device: configuration words, matcher stores, banks, memory dies, teller RAMs, steward RAM, flash. -/
def State.stores (s : State) : Tab CodeWord × Tab CodeWord × Tab CodeWord × Tab (BitVec 88) × Tab CodeWord × Tab CodeWord × Tab CodeWord :=
  (s.cfgw, s.mstore, s.bmem, s.mem, s.tram, s.sram, s.flash)

/-- The invariant of the state: the commands that wait are well formed, and the flash image has its canonical form, keys rising and
no erased word listed. -/
def State.Inv (s : State) : Prop :=
  (∀ c ∈ s.pending, c.wellFormed = true) ∧ twf (fun _ => erased) s.flash = true

/-- Every fuse bit burned in `s` is burned in `t`. -/
def FusesKept (s t : State) : Prop :=
  (∀ i, s.fuses.okey.testBit i = true → t.fuses.okey.testBit i = true) ∧
  (∀ i, s.fuses.floor.testBit i = true → t.fuses.floor.testBit i = true)

end Sys2Proof.Machine
end

