-- ==== Sys2Proof/Certificates/Slice0/Obligations.lean ====
section
/-!
DEFINITION. The statements for the provers: what each family of commands does to the state, what it leaves alone, and what holds of
every step. Each names the rules of the specification that it formalises.
-/

section
open Sys2Proof Sys2Proof.Machine

/-- R28, R29: a NOP, TICK_RESET, SWAP_GO or TEST_PULSE that is due in slot 0 of a tick, and whose turn of Table 2.4 it is, takes
effect: the words of its kind leave the queue of commands that wait; TICK_RESET sets TICK to 0, SWAP_GO (user mode) releases the
groups of all its ARGs together, TEST_PULSE (user mode) sets TEST with the ARG that completed last. Before user mode the last two
only leave the queue. Nothing else changes. -/
def Obligations.TimingCommandsTakeEffect : Prop :=
  ∀ s : Machine.State,
    (Machine.takesEffect s 0 [] = true → Machine.exec .nop s = .next (Machine.dropDue s 0)) ∧
    (Machine.takesEffect s 2 [] = true → Machine.exec .tickReset s =
      .next { s with time := { (Machine.dropDue s 2).time with tick := 0 } }) ∧
    (Machine.takesEffect s 5 [2, 1, 3, 4] = true → s.user = true → Machine.exec .swapGo s =
      .next { s with time := { (Machine.dropDue s 5).time with swapGo := BitVec.ofNat 8 (Machine.dueOr s 5) } }) ∧
    (Machine.takesEffect s 5 [2, 1, 3, 4] = true → s.user = false → Machine.exec .swapGo s = .next (Machine.dropDue s 5)) ∧
    (Machine.takesEffect s 6 [2, 1, 3, 4, 5] = true → s.user = true → Machine.exec .testPulse s =
      .next { s with time := { (Machine.dropDue s 6).time with
                test := true, testType := BitVec.ofNat 8 ((Machine.dueArgs s 6).getLastD 0) } }) ∧
    (Machine.takesEffect s 6 [2, 1, 3, 4, 5] = true → s.user = false → Machine.exec .testPulse s = .next (Machine.dropDue s 6))

/-- R30, R31, R37: the clearing window that CLEAR_REQ opens, and what FRAME_RESET does before user mode and at tick 0 of a frame.
CLEAR_REQ in user mode with the window closed sets TIME_STATUS.CLR; with the window open, and before user mode, it only leaves the
queue. CLEARING_WINDOW_OPEN sets CLR in slot 0 of tick L − C. FRAME_RESET at tick 0 of a frame sets FRAME to 0; before user
mode, in any other tick, it sets FRAME and TIF to 0. Machine time beside those stays; the tables of the fabric stay. -/
def Obligations.WindowAndFrameReset : Prop :=
  ∀ s : Machine.State,
    (Machine.takesEffect s 4 [2, 1, 3] = true → s.user = true → s.clrOpen = false →
      ∃ t, Machine.exec .clearReq s = .next t ∧ t.clrOpen = true ∧ t.time = (Machine.dropDue s 4).time ∧
        BitsBut [Reg.TIME_STATUS_CLR] s t ∧ { t with regs := s.regs, cyc := s.cyc, time := s.time, rt := s.rt, wreg := s.wreg } = s) ∧
    (Machine.takesEffect s 4 [2, 1, 3] = true → (s.user && !s.clrOpen) = false →
      Machine.exec .clearReq s = .next (Machine.dropDue s 4)) ∧
    (s.slot0 = true → s.user = true → s.clrOpen = false → s.time.len ≤ s.getF Reg.TIME_TIF_TIF + s.time.clr →
      ∃ t, Machine.exec .clearingWindowOpen s = .next t ∧ t.clrOpen = true ∧
        BitsBut [Reg.TIME_STATUS_CLR] s t ∧ { t with regs := s.regs, cyc := s.cyc, rt := s.rt, wreg := s.wreg } = s) ∧
    (Machine.takesEffect s 3 [2, 1] = true → s.getF Reg.TIME_TIF_TIF = 0 →
      ∃ t, Machine.exec .frameReset s = .next t ∧ t.reg Reg.TIME_FRAME = 0 ∧
        BitsBut [wholeReg Reg.TIME_FRAME] s t ∧ t.time = (Machine.dropDue s 3).time ∧ { t with regs := s.regs, cyc := s.cyc, time := s.time } = s) ∧
    (Machine.takesEffect s 3 [2, 1] = true → s.getF Reg.TIME_TIF_TIF ≠ 0 → s.user = false →
      ∃ t, Machine.exec .frameReset s = .next t ∧ t.reg Reg.TIME_FRAME = 0 ∧ t.getF Reg.TIME_TIF_TIF = 0 ∧ t.time.frameStb = true ∧
        t.time.tick = s.time.tick ∧
        BitsBut [wholeReg Reg.TIME_FRAME, Reg.TIME_TIF_TIF, Reg.TIME_STATUS_CLAMP] s t ∧ { t with regs := s.regs, cyc := s.cyc, time := s.time } = s)

/-- R24, R30, R55: machine time moves on. A SLOT that may run counts one slot and keeps TICK, the queue of commands, flash and the
burned fuses. At a tick boundary inside a frame TICK counts one and the slot count of the tick starts again, TIF counts one; the
slot counter stays. At the last tick of a frame before user mode FRAME counts one, TIF starts again, the next slot is FRAME_STB. -/
def Obligations.SlotsTicksAndFramesCount : Prop :=
  ∀ s : Machine.State,
    (∀ pins, s.slotRuns = true → ∃ t, Machine.exec (.slot pins) s = .next t ∧ t.time.slots = s.time.slots + 1 ∧
      t.time.tick = s.time.tick ∧ t.pending = s.pending ∧ t.flash = s.flash ∧ FusesKept s t) ∧
    (s.tickOver = true → s.lastTick = false → ∃ t, Machine.exec .tickBoundary s = .next t ∧ t.time.tick = s.time.tick + 1 ∧
      t.time.inTick = 0 ∧ t.time.slots = s.time.slots ∧ t.time.frameStb = false ∧ t.time.test = false ∧
      t.getF Reg.TIME_TIF_TIF = (s.getF Reg.TIME_TIF_TIF + 1) % 2 ^ 24 ∧ t.reg Reg.TIME_FRAME = s.reg Reg.TIME_FRAME ∧
      t.pending = s.pending ∧ t.flash = s.flash ∧ FusesKept s t) ∧
    (s.tickOver = true → s.lastTick = true → s.user = false → ∃ t, Machine.exec .frameBoundary s = .next t ∧
      t.time.tick = s.time.tick + 1 ∧ t.time.inTick = 0 ∧ t.time.slots = s.time.slots ∧ t.time.frameStb = true ∧
      t.getF Reg.TIME_TIF_TIF = 0 ∧ t.reg Reg.TIME_FRAME = s.reg Reg.TIME_FRAME + 1 ∧
      t.pending = s.pending ∧ t.flash = s.flash ∧ FusesKept s t)

/-- R26 to R28, R188: what supplies a timing command. The lane that supplies timing words hands the characters of the word it presents
in a beat to the timing decoder, once in the beat, after those it holds of a word begun before. A K28.1 begins a word, which the second
character after it completes. A timing word that passes its checks waits CMD_LAT ticks with its CMD and ARG; one that fails them is counted
in CHK_ERR, one with CMD 0x7 or above in UNK_CMD, and event 284 is raised. A rising edge of the orbit-marker pin after two low samples
supplies an ORBIT whose ARG is the sample of the start pin. Nothing else changes. -/
def Obligations.TimingCommandsAreSupplied : Prop :=
  ∀ s : Machine.State,
    (∀ (lane : Fin 144) cs, s.logs = true → Machine.suppliesWords s lane = true → Machine.feLocked s lane = true →
      (s.feLane lane).timedAt ≠ some (s.time.slots / 8) → Machine.feBeatWord s lane = some cs →
      Machine.exec (.timingWord lane () () () () ()) s =
        .next ((cs.foldl Machine.timingChar (s, (s.feLane lane).part)).1.setFe lane { s.feLane lane with
          part := (cs.foldl Machine.timingChar (s, (s.feLane lane).part)).2, timedAt := some (s.time.slots / 8) })) ∧
    (∀ lane : Fin 144, s.logs = false ∨ Machine.suppliesWords s lane = false ∨ Machine.feLocked s lane = false ∨
      (s.feLane lane).timedAt = some (s.time.slots / 8) ∨ Machine.feBeatWord s lane = none →
      Machine.exec (.timingWord lane () () () () ()) s = .next s) ∧
    (∀ c, Machine.timingChar (s, []) c = (s, if c.k ∧ c.v = 0x3C then [c] else []) ∧ ∀ a, Machine.timingChar (s, [a]) c = (s, [a, c])) ∧
    (∀ a b c : Machine.RxChar,
      let w := 256 * b.v + c.v
      let good := !(a.cv || a.rdErr || b.cv || b.rdErr || c.cv || c.rdErr) && !b.k && !c.k &&
        s.time.wordBeat != some (s.time.slots / 8) && Machine.timingChk w == w % 16
      (good = true → w / 4096 < 7 → Machine.timingChar (s, [a, b]) c =
        ({ s with time := { s.time with wordBeat := some (s.time.slots / 8), due := s.time.due ++
          [{ wait := s.time.cmdLat, cmd := w / 4096, arg := w / 16 % 256, late := s.time.doneSeen }] } }, [])) ∧
      (good = true → 7 ≤ w / 4096 → ∃ t, Machine.timingChar (s, [a, b]) c = (t, []) ∧
        t.getF Reg.TIME_ERR_UNK_CMD = min (s.getF Reg.TIME_ERR_UNK_CMD + 1) 255 ∧ t.raised = (s.raiseEv 284).raised ∧
        BitsBut [Reg.TIME_ERR_UNK_CMD] s t ∧
        { t with regs := s.regs, cyc := s.cyc, raised := s.raised } = { s with time := { s.time with wordBeat := some (s.time.slots / 8) } }) ∧
      (good = false → ∃ t, Machine.timingChar (s, [a, b]) c = (t, []) ∧
        t.getF Reg.TIME_ERR_CHK_ERR = min (s.getF Reg.TIME_ERR_CHK_ERR + 1) 255 ∧ t.raised = (s.raiseEv 284).raised ∧
        BitsBut [Reg.TIME_ERR_CHK_ERR] s t ∧
        { t with regs := s.regs, cyc := s.cyc, raised := s.raised } = { s with time := { s.time with wordBeat := some (s.time.slots / 8) } })) ∧
    (∀ start, s.slotRuns = true → s.k = 0 → s.time.src = 2 → s.getF Reg.TIME_CMD_ORB_PIN < 96 → 2 ≤ s.time.lows →
      s.time.pinSel = s.getF Reg.TIME_CMD_ORB_PIN → Machine.exec (.orbitMarkerEdge start) s = .next { s with time := { s.time with lows := 0, due := s.time.due ++
        [{ wait := s.time.cmdLat, cmd := 1, arg := (start && decide (s.getF Reg.TIME_CMD_START_PIN < 96)).toNat,
           late := s.time.doneSeen }] } })

/-- R46, R48, R24: the group start and a read of TICK. DONE sampled high for the first time before user mode sets WAIT_ORBIT with
event 285 where SRC selects a source, and the start tick 64 ticks on where it does not; later rises record the level alone. The
reminder raises event 285 again and FRAME_LEN ticks are to come. A fall of DONE in user mode of a grouped device sets DONE_DROP with
event 285. START_FORCE acts only while WAIT_ORBIT is 1. A read of TIME_TICK_LO answers TICK[31:0] and captures TICK[47:32]. -/
def Obligations.GroupStartCommands : Prop :=
  ∀ s : Machine.State,
    (s.slot0 = true → s.time.doneHigh = false → s.ld.doneRel = true → (s.user || s.time.doneSeen) = true →
      Machine.exec .doneRise s = .next { s with time := { s.time with doneHigh := true } }) ∧
    (s.slot0 = true → s.time.doneHigh = false → s.ld.doneRel = true → (s.user || s.time.doneSeen) = false →
      s.time.src = 1 ∨ s.time.src = 2 → ∃ t, Machine.exec .doneRise s = .next t ∧ t.flag Reg.TIME_STATUS_WAIT_ORBIT = true ∧
        t.raised = (s.raiseEv 285).raised ∧ t.time = { s.time with doneHigh := true, doneSeen := true, remindIn := s.time.len } ∧
        BitsBut [Reg.TIME_STATUS_WAIT_ORBIT] s t ∧ { t with regs := s.regs, cyc := s.cyc, raised := s.raised, time := s.time } = s) ∧
    (s.slot0 = true → s.time.doneHigh = false → s.ld.doneRel = true → (s.user || s.time.doneSeen) = false →
      s.time.src ≠ 1 → s.time.src ≠ 2 → Machine.exec .doneRise s =
        .next { s with time := { s.time with doneHigh := true, doneSeen := true, startIn := some 64 } }) ∧
    (s.slot0 = true → s.flag Reg.TIME_STATUS_WAIT_ORBIT = true → s.time.remindIn = 0 →
      ∃ t, Machine.exec .waitOrbitReminder s = .next t ∧ t.time = { s.time with remindIn := s.time.len } ∧
        t.raised = (s.raiseEv 285).raised ∧ { t with cyc := s.cyc, time := s.time, raised := s.raised } = s) ∧
    (s.slot0 = true → s.time.doneHigh = true → (s.user && (s.getF Reg.RST_STRAP_CODE).testBit 0) = true →
      ∃ t, Machine.exec .doneFall s = .next t ∧ t.flag Reg.TIME_STATUS_DONE_DROP = true ∧ t.raised = (s.raiseEv 285).raised ∧
        t.time = { s.time with doneHigh := false } ∧ BitsBut [Reg.TIME_STATUS_DONE_DROP] s t ∧
        { t with regs := s.regs, cyc := s.cyc, raised := s.raised, time := s.time } = s) ∧
    (s.slot0 = true → s.time.doneHigh = true → (s.user && (s.getF Reg.RST_STRAP_CODE).testBit 0) = false →
      Machine.exec .doneFall s = .next { s with time := { s.time with doneHigh := false } }) ∧
    (s.alive = true → s.flag Reg.TIME_STATUS_WAIT_ORBIT = true →
      Machine.exec .startForce s = .next { s with time := { s.time with forceStart := true } }) ∧
    (s.alive = true → s.flag Reg.TIME_STATUS_WAIT_ORBIT = false → Machine.exec .startForce s = .next s) ∧
    (s.alive = true → ∃ t, Machine.exec .tickLoRead s = .next t ∧ t.resp = ⟨0, (s.time.tick.setWidth 32).setWidth 64⟩ ∧
      t.reg Reg.TIME_TICK_HI = (s.time.tick >>> 32).setWidth 32 ∧ BitsBut [wholeReg Reg.TIME_TICK_HI] s t ∧
      { t with regs := s.regs, cyc := s.cyc, resp := s.resp } = s)

/-- R30, R32, R46, R49: an ORBIT at its effect tick, and the start of user mode. Every ORBIT sets ORB_SEEN. In tick 0 of a frame
of user mode it ends SLIP and nothing else; with ORB_MODE 1, no SLIP, in another tick, it counts an ORB_MISS and raises event 285. Before
user mode, outside ORB_MODE 2, a qualifying ORBIT makes the present tick the start tick. At the start tick USER is 1, WAIT_ORBIT 0,
FRAME and TIF 0, RST_STAGE.STEP 8, and no start tick is set any more. -/
def Obligations.OrbitAndUserModeStart : Prop :=
  ∀ s : Machine.State,
    (Machine.takesEffect s 1 [2] = true → s.user = true → s.getF Reg.TIME_TIF_TIF = 0 →
      ∃ t, Machine.exec .orbit s = .next t ∧ t.flag Reg.TIME_STATUS_ORB_SEEN = true ∧ t.flag Reg.TIME_STATUS_SLIP = false ∧
        BitsBut [Reg.TIME_STATUS_ORB_SEEN, Reg.TIME_STATUS_SLIP] s t ∧ t.time = (Machine.dropDue s 1).time ∧
        { t with regs := s.regs, cyc := s.cyc, time := s.time } = s) ∧
    (Machine.takesEffect s 1 [2] = true → s.user = true → s.getF Reg.TIME_TIF_TIF ≠ 0 → s.getF Reg.TIME_CTRL_ORB_MODE = 1 →
      s.flag Reg.TIME_STATUS_SLIP = false →
      ∃ t, Machine.exec .orbit s = .next t ∧ t.flag Reg.TIME_STATUS_ORB_SEEN = true ∧ t.raised = (s.raiseEv 285).raised ∧
        t.getF Reg.TIME_ERR_ORB_MISS = min (s.getF Reg.TIME_ERR_ORB_MISS + 1) 255 ∧
        BitsBut [Reg.TIME_STATUS_ORB_SEEN, Reg.TIME_STATUS_SLIP, Reg.TIME_ERR_ORB_MISS] s t ∧
        { t with regs := s.regs, cyc := s.cyc, time := s.time, raised := s.raised } = s) ∧
    (Machine.takesEffect s 1 [2] = true → s.user = false → s.getF Reg.TIME_CTRL_ORB_MODE ≠ 2 →
      ∃ t, Machine.exec .orbit s = .next t ∧ t.flag Reg.TIME_STATUS_ORB_SEEN = true ∧
        t.time = { (Machine.dropDue s 1).time with
          startIn := if Machine.startOrbit s then some 0 else s.time.startIn } ∧
        BitsBut [Reg.TIME_STATUS_ORB_SEEN] s t ∧ { t with regs := s.regs, cyc := s.cyc, time := s.time } = s) ∧
    (s.slot0 = true → s.user = false → s.time.startIn = some 0 →
      ∃ t, Machine.exec .userModeStart s = .next t ∧ t.user = true ∧ t.flag Reg.TIME_STATUS_WAIT_ORBIT = false ∧
        t.getF Reg.TIME_TIF_TIF = 0 ∧ t.reg Reg.TIME_FRAME = 0 ∧ t.getF Reg.RST_STAGE_STEP = 8 ∧ t.time.startIn = none ∧
        t.time.tick = s.time.tick ∧ t.time.slots = s.time.slots ∧ t.pending = s.pending ∧ t.flash = s.flash ∧ FusesKept s t)

/-- R66, R67, R72: writes of SEC_SCHED in a sector that follows no partner. An arming word that fails the arming test sets
BADARM and nothing else. In user mode an accepted word replaces the fields of the swap, and ARM takes effect only after this slot. Before
user mode a word with ARM = 0 whose BASE is a multiple of its fold factor waits for the next tick boundary; another sets BADSCHED. At
that boundary FOLD and BASE take the waiting values, unless a plane of the new schedule is in escrow (BADSCHED). -/
def Obligations.ScheduleWrites : Prop :=
  ∀ (s : Machine.State) (sec : Fin 240) (v : Word32), s.leader sec = sec →
    let arm := v ||| 0x80000000#32
    let dis := v &&& 0x7FFFFFFF#32
    let stored := fun (w : Word32) => (s.reg (Reg.SEC_SCHED sec) &&& ~~~Machine.schedSwapMask) ||| (w &&& Machine.schedSwapMask)
    (s.alive = true → Machine.armValid arm = false → ∃ t, Machine.exec (.swapArm sec v) s = .next t ∧
      t.flag (Reg.SEC_SCHED_STAT_BADARM sec) = true ∧ OnlyBits [Reg.SEC_SCHED_STAT_BADARM sec] s t) ∧
    (s.alive = true → Machine.armValid arm = true → s.user = true → ∃ t, Machine.exec (.swapArm sec v) s = .next t ∧
      t.reg (Reg.SEC_SCHED sec) = stored arm ∧ Machine.tget (fun _ => false) t.armFresh sec = true ∧
      BitsBut [wholeReg (Reg.SEC_SCHED sec)] s t ∧ { t with regs := s.regs, cyc := s.cyc, armFresh := s.armFresh } = s) ∧
    (s.alive = true → s.user = true → ∃ t, Machine.exec (.swapDisarm sec v) s = .next t ∧
      t.reg (Reg.SEC_SCHED sec) = stored dis ∧ Machine.tget (fun _ => false) t.armFresh sec = false ∧
      BitsBut [wholeReg (Reg.SEC_SCHED sec)] s t ∧ { t with regs := s.regs, cyc := s.cyc, armFresh := s.armFresh } = s) ∧
    (s.alive = true → s.user = false → sec.val < 120 → v.getLsbD 31 = false →
      Machine.nbits v.toNat 2 0 % 2 ^ Machine.nbits v.toNat 5 4 = 0 → ∃ t, Machine.exec (.scheduleWrite sec v) s = .next t ∧
      Machine.tget (fun _ => 0) t.schedPend sec = 65 + 8 * Machine.nbits v.toNat 5 4 + Machine.nbits v.toNat 2 0 ∧
      t.reg (Reg.SEC_SCHED sec) = stored v ∧ BitsBut [wholeReg (Reg.SEC_SCHED sec)] s t ∧
      { t with regs := s.regs, cyc := s.cyc, armFresh := s.armFresh, schedPend := s.schedPend } = s) ∧
    (s.alive = true → s.user = false → sec.val < 120 → v.getLsbD 31 = false →
      Machine.nbits v.toNat 2 0 % 2 ^ Machine.nbits v.toNat 5 4 ≠ 0 → ∃ t, Machine.exec (.scheduleWrite sec v) s = .next t ∧
      t.flag (Reg.SEC_SCHED_STAT_BADSCHED sec) = true ∧
      BitsBut [wholeReg (Reg.SEC_SCHED sec), Reg.SEC_SCHED_STAT_BADSCHED sec] s t ∧
      { t with regs := s.regs, cyc := s.cyc, armFresh := s.armFresh } = s) ∧
    (∀ f b, f < 4 → b < 8 → s.slot0 = true → Machine.tget (fun _ => 0) s.schedPend sec = 1 + 8 * f + b →
      ∃ t, Machine.exec (.scheduleApply sec) s = .next t ∧ Machine.tget (fun _ => 0) t.schedPend sec = 0 ∧
      (Machine.anyEscrow s sec (Machine.planesOf f b) = false → t.getF (Reg.SEC_SCHED_FOLD sec) = f ∧ t.getF (Reg.SEC_SCHED_BASE sec) = b ∧
        BitsBut [Reg.SEC_SCHED_FOLD sec, Reg.SEC_SCHED_BASE sec] s t) ∧
      (Machine.anyEscrow s sec (Machine.planesOf f b) = true → t.flag (Reg.SEC_SCHED_STAT_BADSCHED sec) = true ∧
        BitsBut [Reg.SEC_SCHED_STAT_BADSCHED sec] s t) ∧
      { t with regs := s.regs, cyc := s.cyc, schedPend := s.schedPend } = s)

/-- R67 to R70, R72: an armed swap at its boundary, in a sector that leads. Where no incoming plane is in escrow the schedule becomes
NEXT_FOLD and NEXT_BASE, ARM clears, SWAP_CNT counts, in the sector and in the partner that follows it. Where one is, nothing swaps:
ARM clears, REFUSED and REF_PLANE record the first such plane, REFUSE_CNT counts. Configuration, banks and stores stay. A held
vertical link whose sweeps are over and whose tiles are mended is released (R107). -/
def Obligations.SwapsAndGuardRelease : Prop :=
  ∀ s : Machine.State,
    (∀ sec : Fin 240, s.slot0 = true → s.leader sec = sec → s.flag (Reg.SEC_SCHED_ARM sec) = true →
      Machine.tget (fun _ => false) s.armFresh sec = false → Machine.swapBoundary s sec = true →
      let f := s.getF (Reg.SEC_SCHED_NEXT_FOLD sec)
      let b := s.getF (Reg.SEC_SCHED_NEXT_BASE sec)
      let bits := fun (q : Nat) => [Reg.SEC_SCHED_ARM q, Reg.SEC_SCHED_FOLD q, Reg.SEC_SCHED_BASE q, Reg.SEC_SWAP_CNT_SWAP_CNT q,
        Reg.SEC_MT_STAT_DRAINING q, Reg.SEC_MT_STAT_LOST q, Reg.SEC_MT_LOST_LOST_CNT q]
      ((Machine.planesOf f b).find? (fun p => Machine.anyEscrow s sec [p]) = none →
        ∃ t, Machine.exec (.swap sec) s = .next t ∧ t.getF (Reg.SEC_SCHED_FOLD sec) = f ∧ t.getF (Reg.SEC_SCHED_BASE sec) = b ∧
        t.flag (Reg.SEC_SCHED_ARM sec) = false ∧
        t.getF (Reg.SEC_SWAP_CNT_SWAP_CNT sec) = min (s.getF (Reg.SEC_SWAP_CNT_SWAP_CNT sec) + 1) 65535 ∧
        (∀ q, Machine.follower s sec = some q →
          t.getF (Reg.SEC_SWAP_CNT_SWAP_CNT q) = min (s.getF (Reg.SEC_SWAP_CNT_SWAP_CNT q) + 1) 65535) ∧
        BitsBut (bits sec ++ (Machine.follower s sec).elim [] bits) s t ∧
        t.stores = s.stores ∧ t.time = s.time) ∧
      (∀ p, (Machine.planesOf f b).find? (fun p => Machine.anyEscrow s sec [p]) = some p →
        ∃ t, Machine.exec (.swap sec) s = .next t ∧ t.flag (Reg.SEC_SCHED_ARM sec) = false ∧
        t.getF (Reg.SEC_SCHED_FOLD sec) = s.getF (Reg.SEC_SCHED_FOLD sec) ∧ t.getF (Reg.SEC_SCHED_BASE sec) = s.getF (Reg.SEC_SCHED_BASE sec) ∧
        t.flag (Reg.SEC_SCHED_STAT_REFUSED sec) = true ∧ t.getF (Reg.SEC_SCHED_STAT_REF_PLANE sec) = p ∧
        t.getF (Reg.SEC_SWAP_CNT_REFUSE_CNT sec) = min (s.getF (Reg.SEC_SWAP_CNT_REFUSE_CNT sec) + 1) 65535 ∧
        t.raised = (if s.time.refusedAt = some s.time.slots then s.raised else (s.raiseEv 226).raised) ∧
        { t with regs := s.regs, cyc := s.cyc, raised := s.raised, time := s.time } = s)) ∧
    (∀ (u v : Fin 12) (xy : Fin 120) (n : Fin 48) (h : Machine.HeldLink),
      let k := Machine.vlinkKey (Machine.tileOf xy.val u.val v.val) n.val
      Machine.tget (fun _ => none) s.vheld k = some h → h.ok0 = true → h.ok1 = true →
      Machine.tileMended s xy (Machine.tileOf xy.val u.val v.val) = true →
      Machine.tileMended s (xy.val + 120) (Machine.tileOf xy.val u.val v.val) = true →
      ∃ t, Machine.exec (.guardRelease u v xy n) s = .next t ∧ Machine.tget (fun _ => none) t.vheld k = none ∧
        (∀ k', k' ≠ k → Machine.tget (fun _ => none) t.vheld k' = Machine.tget (fun _ => none) s.vheld k') ∧
        BitsBut [Reg.SEC_VG_CNT_HELD_CNT xy, Reg.SEC_VG_STAT_HELD xy, Reg.SEC_VG_CNT_HELD_CNT (xy.val + 120),
          Reg.SEC_VG_STAT_HELD (xy.val + 120)] s t ∧ { t with regs := s.regs, cyc := s.cyc, vheld := s.vheld } = s)

/-- R54, R115 to R120: in a slot in which the operations of a sector are issued, a block that has taken none in it and whose input EN
is 1 takes the operation its OP names: MADD with OP 1 on every block, LEAF with OP 2 on the members 4g to 4g + 2 of a tree group,
HEAD with OP 3 on member 4g + 3. It joins the operations in flight of the block, with the T and C that the operands of this slot give
and the controls of the block; the block's output, its accumulators and everything else stay. With EN at 0 nothing is issued. -/
def Obligations.MacOperationsAreTaken : Prop :=
  ∀ (s : Machine.State) (sec : Fin 240) (m : Fin 24),
    s.mayIssue sec = true → (s.mac sec m).ops.all (fun p => p.at_ != s.time.slots) = true →
    let g := Machine.macTile sec m
    let c := Machine.mctl s.view g
    let b := fun n w => s.view.afBus g n w
    let o : Machine.MacKind → Machine.MacOp := fun k =>
      { at_ := s.time.slots, plane := s.plane sec, kind := k,
        t := if k = .madd then Machine.maddTerm c (b 0 24) (b 264 24) (b 528 24) else
          Machine.leafSum c (b 0 24) (b 264 24) (b 528 24) (b 792 48),
        c := Machine.operand (c.testBit 12) 48 (b 792 48), zsel := Machine.nbits c 6 4, ld := s.view.afIn g 1331,
        wracc := c.testBit 13, sat := c.testBit 14 }
    let t : Machine.MacKind → Machine.State := fun k =>
      { s with macs := Machine.tset (fun _ => Machine.MacBlock.reset) s.macs (24 * sec.val + m.val)
                         { s.mac sec m with ops := (s.mac sec m).ops ++ [o k] } }
    (s.view.afIn g 1320 = true → Machine.nbits c 2 0 = 1 → Machine.exec (.madd sec m) s = .next (t .madd)) ∧
    (s.view.afIn g 1320 = true → Machine.nbits c 2 0 = 2 → m.val % 4 ≠ 3 → Machine.exec (.leaf sec m) s = .next (t .leaf)) ∧
    (s.view.afIn g 1320 = true → Machine.nbits c 2 0 = 3 → m.val % 4 = 3 → Machine.exec (.head sec m) s = .next (t .head)) ∧
    (s.view.afIn g 1320 = false → Machine.exec (.madd sec m) s = .next s ∧ Machine.exec (.leaf sec m) s = .next s ∧
      Machine.exec (.head sec m) s = .next s)

/-- R116, R117 (Table 6.2): the reduction of S to the 64-bit P. OVF says whether S lies outside the range of a signed 64-bit
number. Inside the range P is S; outside it P is the nearest limit with SAT = 1, and S modulo 2^64 with SAT = 0. -/
def Obligations.MacReductionIsExactSaturatingOrModular : Prop :=
  ∀ (sat : Bool) (x : Int),
    let r := Machine.reduceS sat x
    (r.2 = true ↔ (x < -9223372036854775808 ∨ 9223372036854775807 < x)) ∧
    (r.2 = false → r.1.toInt = x) ∧
    (r.2 = true → sat = true → r.1.toInt = if x < 0 then -9223372036854775808 else 9223372036854775807) ∧
    (sat = false → (r.1.toNat : Int) = x % 18446744073709551616)

/-- R125, R126: inserting entries into a ranked list. The list that results holds at most 32 entries, none of them empty, with keys that
do not rise; and an entry whose key is higher than that of every other entry offered stands first. -/
def Obligations.RankedListsStayRanked : Prop :=
  ∀ (l es : List Nat), Machine.ranked l = true → (∀ e ∈ l, Machine.entryKey e ≠ 0) →
    let r := Machine.rankAll l es
    Machine.ranked r = true ∧ r.length ≤ 32 ∧ (∀ e ∈ r, Machine.entryKey e ≠ 0) ∧ (∀ e ∈ r, e ∈ l ∨ e ∈ es) ∧
    (∀ e ∈ es, Machine.entryKey e ≠ 0 → (∀ f ∈ l ++ es, f = e ∨ Machine.entryKey f < Machine.entryKey e) → r.head? = some e)

/-- R126, R127, R129: TOP, FLUSH and MERGE that the active plane issues while no earlier MERGE takes its inputs. TOP ranks the eight
entries into the list. FLUSH promises the ranked list as four groups from slot j + 14 and empties the list, MERGE takes note of its
sources and promises slots j + 13 to j + 16, where these slots overlap none already promised. An operation that is refused records
its cause and counts, and changes nothing else. A ranker takes one operation in a slot (R54). -/
def Obligations.RankerOperations : Prop :=
  ∀ (s : Machine.State) (sec : Fin 240) (r : Fin 2),
    let x := s.ranker sec r
    let j := s.time.slots
    let es := Machine.fabEntries s.view sec r
    let c := Machine.rctl s.view sec r
    let put := fun (y : Machine.Ranker) =>
      { s with rankers := Machine.tset (fun _ => Machine.Ranker.reset) s.rankers (2 * sec.val + r.val) { y with opAt := some j } }
    let gs := (List.range 4).map (fun g => (j + 13 + g, ([] : List Nat)))
    let m0 : Machine.MergeIn :=
      ⟨j, Machine.nbits c 7 4, Machine.nbits c 11 8, Machine.nbits c 16 12, Machine.nbits c 21 17, [], []⟩
    let fl := (List.range 4).map (fun g => (j + 14 + g, Machine.groupOf (Machine.rankAll x.list es) g))
    let cIn := if r.val = 0 then Reg.SEC_HB_STAT_RK0_IN sec else Reg.SEC_HB_STAT_RK1_IN sec
    let cOut := if r.val = 0 then Reg.SEC_HB_STAT_RK0_OUT sec else Reg.SEC_HB_STAT_RK1_OUT sec
    let refused := fun (f : Field) (t : Machine.State) => t.flag f = true ∧ t.rankers = (put x).rankers ∧
      BitsBut [f, if r.val = 0 then Reg.SEC_HB_CNT_RK0_REF sec else Reg.SEC_HB_CNT_RK1_REF sec] s t ∧
      { t with regs := s.regs, cyc := s.cyc, rankers := s.rankers } = s
    (Machine.rankIssues s sec r 1 = true → Machine.merging s x = false →
      Machine.exec (.top sec r) s = .next (put { x with list := Machine.rankAll x.list es })) ∧
    (Machine.rankIssues s sec r 2 = true → Machine.merging s x = false → Machine.overlaps x (j + 14) = false →
      Machine.exec (.flush sec r) s = .next (put { x with list := [], outs := x.outs ++ fl })) ∧
    (Machine.rankIssues s sec r 3 = true → Machine.merging s x = false → Machine.overlaps x (j + 13) = false →
      Machine.exec (.merge sec r) s = .next (put { x with merge := some m0, outs := x.outs ++ gs })) ∧
    (Machine.rankIssues s sec r 1 = true → Machine.merging s x = true → ∃ t, Machine.exec (.top sec r) s = .next t ∧ refused cIn t) ∧
    (Machine.rankIssues s sec r 2 = true → Machine.merging s x = true → ∃ t, Machine.exec (.flush sec r) s = .next t ∧ refused cIn t) ∧
    (Machine.rankIssues s sec r 3 = true → Machine.merging s x = true → ∃ t, Machine.exec (.merge sec r) s = .next t ∧ refused cIn t) ∧
    (Machine.rankIssues s sec r 2 = true → Machine.merging s x = false → Machine.overlaps x (j + 14) = true →
      ∃ t, Machine.exec (.flush sec r) s = .next t ∧ refused cOut t) ∧
    (Machine.rankIssues s sec r 3 = true → Machine.merging s x = false → Machine.overlaps x (j + 13) = true →
      ∃ t, Machine.exec (.merge sec r) s = .next t ∧ refused cOut t)

/-- R134: the accumulator port of a sector. A GO for a block below 24 starts an access with its selection in SEC_MAC_SEL; for another
it sets ACC_ERR; while ACC_BUSY is 1 it is ignored. An access is served in a slot after the one of its start in which stage 3 of its
block is idle: a write stores DHI:DLO, a read answers in them (PRE[p] for an accumulator under the set-reset). ACC_BUSY is 1 to the
end of that slot. An access that has waited 16,384
slots is given up with ACC_TMO. -/
def Obligations.AccumulatorPort : Prop :=
  ∀ (s : Machine.State) (sec : Fin 240),
    let m := s.getF (Reg.SEC_MAC_SEL_MAC sec)
    let p := s.getF (Reg.SEC_MAC_SEL_PLANE sec)
    let pre := s.flag (Reg.SEC_MAC_SEL_TGT sec)
    let busy := s.flag (Reg.SEC_HB_STAT_ACC_BUSY sec)
    let serves := s.slotRuns && busy && !s.cyc.acc.contains sec.val && !s.cyc.accNew.contains sec.val &&
      decide (Machine.tget (fun _ => 0) s.macWait sec < 16384) && (Machine.stage3 s sec m).isNone
    let started := fun (wr tgt : Bool) (q : Fin 8) (n : Fin 32) (t : Machine.State) =>
      t.getF (Reg.SEC_MAC_SEL_MAC sec) = n.val ∧ t.getF (Reg.SEC_MAC_SEL_PLANE sec) = q.val ∧
      t.flag (Reg.SEC_MAC_SEL_TGT sec) = tgt ∧ t.flag (Reg.SEC_MAC_SEL_WR sec) = wr ∧
      t.flag (Reg.SEC_HB_STAT_ACC_BUSY sec) = decide (n.val < 24) ∧ (24 ≤ n.val → t.flag (Reg.SEC_HB_STAT_ACC_ERR sec) = true) ∧
      BitsBut [wholeReg (Reg.SEC_MAC_SEL sec), Reg.SEC_HB_STAT_ACC_BUSY sec, Reg.SEC_HB_STAT_ACC_ERR sec] s t ∧
      { t with regs := s.regs, cyc := s.cyc, macWait := s.macWait } = s
    (∀ (tgt : Bool) (q : Fin 8) (n : Fin 32), s.alive = true → busy = true →
      Machine.exec (.macPortRead sec tgt q n) s = .next s ∧ Machine.exec (.macPortWrite sec tgt q n) s = .next s) ∧
    (∀ (tgt : Bool) (q : Fin 8) (n : Fin 32), s.alive = true → busy = false →
      ∃ t, Machine.exec (.macPortRead sec tgt q n) s = .next t ∧ started false tgt q n t) ∧
    (∀ (tgt : Bool) (q : Fin 8) (n : Fin 32), s.alive = true → busy = false →
      ∃ t, Machine.exec (.macPortWrite sec tgt q n) s = .next t ∧ started true tgt q n t) ∧
    (serves = true → ∃ t, Machine.exec (.macPortServe sec) s = .next t ∧ t.flag (Reg.SEC_HB_STAT_ACC_BUSY sec) = true ∧
      t.cyc.acc = s.cyc.acc ++ [sec.val] ∧ t.ld = (s.portEnds 0 sec true).ld ∧
      (s.flag (Reg.SEC_MAC_SEL_WR sec) = true → pre = true →
        t.pre sec m p = s.reg (Reg.SEC_MAC_DHI sec) ++ s.reg (Reg.SEC_MAC_DLO sec)) ∧
      (s.flag (Reg.SEC_MAC_SEL_WR sec) = true → pre = false → s.held sec = false →
        t.acc sec m p = s.reg (Reg.SEC_MAC_DHI sec) ++ s.reg (Reg.SEC_MAC_DLO sec)) ∧
      (s.flag (Reg.SEC_MAC_SEL_WR sec) = false → t.reg (Reg.SEC_MAC_DHI sec) ++ t.reg (Reg.SEC_MAC_DLO sec) =
        (if pre || s.held sec then s.pre sec m p else s.acc sec m p)) ∧
      BitsBut [wholeReg (Reg.SEC_MAC_DHI sec), wholeReg (Reg.SEC_MAC_DLO sec)] s t ∧
      { t with regs := s.regs, cyc := s.cyc, macWait := s.macWait, macAcc := s.macAcc, macPre := s.macPre, ld := s.ld } = s) ∧
    (sec.val ∈ s.cyc.acc → (Machine.macPortsDone s).flag (Reg.SEC_HB_STAT_ACC_BUSY sec) = false) ∧
    (busy = true → 16384 ≤ Machine.tget (fun _ => 0) s.macWait sec → ∃ t, Machine.exec (.macPortTimeout sec) s = .next t ∧
      t.flag (Reg.SEC_HB_STAT_ACC_BUSY sec) = false ∧ t.flag (Reg.SEC_HB_STAT_ACC_TMO sec) = true ∧ t.ld = (s.portEnds 0 sec false).ld ∧
      BitsBut [Reg.SEC_HB_STAT_ACC_BUSY sec, Reg.SEC_HB_STAT_ACC_TMO sec] s t ∧
      { t with regs := s.regs, cyc := s.cyc, macWait := s.macWait, ld := s.ld } = s)

/-- R138 to R144: the events of a matcher. A hit (L, K) that is accepted sets the matched bit of layer L in exactly the patterns that
it matches, in the context that fills, or in the one whose event has ended in this very slot. An event end makes that context drain with THR and ORDER of this slot, empties and fills the other
one, counts the event and steps EVNUM; DRAINING rises with the end of this slot; an event still draining is cut, with CUT and its count. A road due in this slot is shown. -/
def Obligations.MatcherEvents : Prop :=
  ∀ (s : Machine.State) (sec : Fin 240),
    let m := s.matcher sec
    let j := s.time.slots
    let c := Machine.xctl s.view sec
    let into := if m.endedAt = some j then 1 - m.fill else m.fill
    (∀ (h : Fin 4) l key, Machine.hitOf s sec h = some (l, key) →
      ∃ t, Machine.exec (.matcherHit sec h) s = .next t ∧ ((t.matcher sec).ctx into).hit = true ∧
        (∀ n, Machine.tget (fun _ => 0) ((t.matcher sec).ctx into).bits n =
          if n ∈ Machine.patterns s sec ∧ Machine.layerMatches s sec n l key = true then
            Machine.tget (fun _ => 0) (m.ctx into).bits n ||| 2 ^ l else Machine.tget (fun _ => 0) (m.ctx into).bits n) ∧
        (∀ q, q ≠ sec.val → t.matcher q = s.matcher q) ∧ { t with matchers := s.matchers } = s) ∧
    (Machine.eventEnds s sec = true → m.endedAt ≠ some j → m.fill < 2 →
      ∃ t, Machine.exec (.eventEnd sec) s = .next t ∧
        (t.matcher sec).drain = some ⟨m.fill, j, Machine.nbits c 7 4, Machine.nbits c 8 8, m.evnum, none⟩ ∧
        (t.matcher sec).fill = 1 - m.fill ∧ (t.matcher sec).evnum = (m.evnum + 1) % 256 ∧
        (t.matcher sec).ctx (1 - m.fill) = Machine.MatchCtx.empty ∧
        (Machine.matcherSlot t t sec).flag (Reg.SEC_MT_STAT_DRAINING sec) = true ∧
        t.getF (Reg.SEC_MT_EVCNT_EVENTS sec) = min (s.getF (Reg.SEC_MT_EVCNT_EVENTS sec) + 1) 0xFFFFFFFF ∧
        (m.drain = none → BitsBut [Reg.SEC_MT_EVCNT_EVENTS sec] s t) ∧
        (∀ d, m.drain = some d → d.doneSlot ≠ some j → t.flag (Reg.SEC_MT_STAT_CUT sec) = true ∧
          t.getF (Reg.SEC_MT_CNT_CUT_CNT sec) = min (s.getF (Reg.SEC_MT_CNT_CUT_CNT sec) + 1) 65535) ∧
        { t with regs := s.regs, cyc := s.cyc, matchers := s.matchers } = s) ∧
    (∀ w, m.due j = some w → s.mayIssue sec = true → m.shown.all (fun x => x.1 != j) = true →
      let m1 := { m with shown := some (j, w) }
      Machine.exec (.road sec) s =
        .next { s with matchers := Machine.tset (fun _ => Machine.Matcher.reset) s.matchers sec m1 })

/-- R147: the store port of a matcher. While BUSY is 1 a GO or a stream write answers SLVERR and nothing else happens; a store write
refused by a closed clearing window counts PORT_REJ. Otherwise the selection stands in SEC_MT_SEL and the access waits with BUSY. A
write of SEC_MT_DHI outside stream mode stores the word alone. A served write stores DHI:DLO with its check bits; a served read answers
the decoded word, or the information bits of a poisoned one with POISON_RD and SLVERR; stream mode counts the address; BUSY is 1 to the
end of the slot that serves. An access that waited 16,384 slots is given up with PORT_TMO. -/
def Obligations.MatcherStorePort : Prop :=
  ∀ (s : Machine.State) (sec : Fin 240),
    let busy := s.flag (Reg.SEC_MT_STAT_BUSY sec)
    let word := s.reg (Reg.SEC_MT_DHI sec) ++ s.reg (Reg.SEC_MT_DLO sec)
    let at_ := s.getF (Reg.SEC_MT_SEL_ADDR sec)
    let serves := s.slotRuns && busy && !s.cyc.mt.contains sec.val && !s.cyc.mtNew.contains sec.val &&
      decide ((s.matcher sec).waited < 16384) && !Machine.anyHit s sec
    let next := if s.flag (Reg.SEC_MT_SEL_STREAM sec) then (at_ + 1) % 16384 else at_
    let streams := s.flag (Reg.SEC_MT_SEL_STREAM sec) && s.flag (Reg.SEC_MT_SEL_WR sec)
    let rejected := fun (t : Machine.State) => t.resp = ⟨1, 0⟩ ∧
      t.flag (Reg.SEC_MT_STAT_PORT_REJ sec) = true ∧
      t.getF (Reg.SEC_MT_LOST_PORT_REJ_CNT sec) = min (s.getF (Reg.SEC_MT_LOST_PORT_REJ_CNT sec) + 1) 65535 ∧
      BitsBut [Reg.SEC_MT_STAT_PORT_REJ sec, Reg.SEC_MT_LOST_PORT_REJ_CNT sec] s t ∧ { t with regs := s.regs, cyc := s.cyc, resp := s.resp } = s
    let waits := fun (o : Nat) (t : Machine.State) => t.resp = ⟨0, 0⟩ ∧
      t.flag (Reg.SEC_MT_STAT_BUSY sec) = true ∧ t.matcher sec = { s.matcher sec with waited := 0 } ∧
      BitsBut [wholeReg o, Reg.SEC_MT_STAT_BUSY sec] s t ∧
      { t with regs := s.regs, cyc := s.cyc, resp := s.resp, matchers := s.matchers } = s
    let served := fun (fs : List Field) (t : Machine.State) => t.flag (Reg.SEC_MT_STAT_BUSY sec) = true ∧
      t.cyc.mt = s.cyc.mt ++ [sec.val] ∧ t.ld = (s.portEnds 1 sec true).ld ∧ t.getF (Reg.SEC_MT_SEL_ADDR sec) = next ∧
      BitsBut (Reg.SEC_MT_SEL_ADDR sec :: fs) s t
    let both := [wholeReg (Reg.SEC_MT_DHI sec), wholeReg (Reg.SEC_MT_DLO sec)]
    (∀ (stream : Bool) (a : Fin 16384), s.alive = true → busy = true →
      Machine.exec (.mtPortRead sec stream a) s = .next { s with resp := ⟨1, 0⟩ } ∧
      Machine.exec (.mtPortWrite sec stream a) s = .next { s with resp := ⟨1, 0⟩ }) ∧
    (∀ v, s.alive = true → busy = true → Machine.exec (.mtStreamWrite sec v) s = .next { s with resp := ⟨1, 0⟩ }) ∧
    (∀ (stream : Bool) (a : Fin 16384), s.alive = true → busy = false → Machine.storeClosed s = true →
      ∃ t, Machine.exec (.mtPortWrite sec stream a) s = .next t ∧ rejected t) ∧
    (∀ v, s.alive = true → busy = false → streams = true → Machine.storeClosed s = true →
      ∃ t, Machine.exec (.mtStreamWrite sec v) s = .next t ∧ rejected t) ∧
    (∀ (stream : Bool) (a : Fin 16384), s.alive = true → busy = false →
      ∃ t, Machine.exec (.mtPortRead sec stream a) s = .next t ∧ waits (Reg.SEC_MT_SEL sec) t ∧
        t.reg (Reg.SEC_MT_SEL sec) = BitVec.ofNat 32 (2 ^ 29 * stream.toNat + a)) ∧
    (∀ (stream : Bool) (a : Fin 16384), s.alive = true → busy = false → Machine.storeClosed s = false →
      ∃ t, Machine.exec (.mtPortWrite sec stream a) s = .next t ∧ waits (Reg.SEC_MT_SEL sec) t ∧
        t.reg (Reg.SEC_MT_SEL sec) = BitVec.ofNat 32 (2 ^ 30 + 2 ^ 29 * stream.toNat + a)) ∧
    (∀ v, s.alive = true → busy = false → streams = false →
      ∃ t, Machine.exec (.mtStreamWrite sec v) s = .next t ∧ t.reg (Reg.SEC_MT_DHI sec) = v ∧ t.resp = ⟨0, 0⟩ ∧
        BitsBut [wholeReg (Reg.SEC_MT_DHI sec)] s t ∧ { t with regs := s.regs, cyc := s.cyc, resp := s.resp } = s) ∧
    (∀ v, s.alive = true → busy = false → streams = true → Machine.storeClosed s = false →
      ∃ t, Machine.exec (.mtStreamWrite sec v) s = .next t ∧ t.reg (Reg.SEC_MT_DHI sec) = v ∧ waits (Reg.SEC_MT_DHI sec) t) ∧
    (serves = true → s.flag (Reg.SEC_MT_SEL_WR sec) = true → ∃ t, Machine.exec (.mtPortServe sec) s = .next t ∧
      t.storeWord sec at_ = Machine.cwEncode word ∧ (∀ k, k ≠ 16384 * sec.val + at_ →
        Machine.tget (fun _ => 0) t.mstore k = Machine.tget (fun _ => 0) s.mstore k) ∧ served [] t ∧
      { t with regs := s.regs, cyc := s.cyc, mstore := s.mstore, matchers := s.matchers, ld := s.ld } = s) ∧
    (∀ d, serves = true → s.flag (Reg.SEC_MT_SEL_WR sec) = false → Machine.cwDecode (s.storeWord sec at_) = .clean d →
      ∃ t, Machine.exec (.mtPortServe sec) s = .next t ∧ t.resp = ⟨0, d⟩ ∧
      t.reg (Reg.SEC_MT_DHI sec) ++ t.reg (Reg.SEC_MT_DLO sec) = d ∧ served both t ∧
      { t with regs := s.regs, cyc := s.cyc, resp := s.resp, matchers := s.matchers, ld := s.ld } = s) ∧
    (serves = true → s.flag (Reg.SEC_MT_SEL_WR sec) = false → Machine.cwDecode (s.storeWord sec at_) = .bad →
      ∃ t, Machine.exec (.mtPortServe sec) s = .next t ∧ t.resp = ⟨1, Machine.cwInfo (s.storeWord sec at_)⟩ ∧
      t.reg (Reg.SEC_MT_DHI sec) ++ t.reg (Reg.SEC_MT_DLO sec) = Machine.cwInfo (s.storeWord sec at_) ∧
      t.flag (Reg.SEC_MT_STAT_POISON_RD sec) = true ∧ served (Reg.SEC_MT_STAT_POISON_RD sec :: both) t ∧
      { t with regs := s.regs, cyc := s.cyc, resp := s.resp, matchers := s.matchers, ld := s.ld } = s) ∧
    (sec.val ∈ s.cyc.mt → (Machine.mtPortsDone s).flag (Reg.SEC_MT_STAT_BUSY sec) = false) ∧
    (busy = true → 16384 ≤ (s.matcher sec).waited → ∃ t, Machine.exec (.mtPortTimeout sec) s = .next t ∧
      t.flag (Reg.SEC_MT_STAT_BUSY sec) = false ∧ t.flag (Reg.SEC_MT_STAT_PORT_TMO sec) = true ∧
      t.matcher sec = { s.matcher sec with waited := 0 } ∧ t.ld = (s.portEnds 1 sec false).ld ∧
      BitsBut [Reg.SEC_MT_STAT_BUSY sec, Reg.SEC_MT_STAT_PORT_TMO sec] s t ∧
      { t with regs := s.regs, cyc := s.cyc, matchers := s.matchers, ld := s.ld } = s)

/-- R148: in a slot with k = 7 in which it has not yet decoded a word, the checker of a matcher decodes its next word and moves on. A
word without error, and a poisoned one, stays; a correctable one is stored corrected from the next slot on, with CORR and its count; an uncorrectable one is
stored poisoned, with UNCORR, its count and event 225. -/
def Obligations.StoreChecker : Prop :=
  ∀ (s : Machine.State) (sec : Fin 240),
    let m := s.matcher sec
    let w := s.storeWord sec m.check
    let m1 := { m with check := (m.check + 1) % 16384, checkAt := some s.time.slots }
    s.slotRuns = true → s.k = 7 → m.checkAt ≠ some s.time.slots →
    (Machine.cwPoison w = true → Machine.exec (.storeCheck sec) s = .next (s.setMatcher sec m1)) ∧
    (∀ d, Machine.cwPoison w = false → Machine.cwDecode w = .clean d →
      Machine.exec (.storeCheck sec) s = .next (s.setMatcher sec m1)) ∧
    (∀ d, Machine.cwPoison w = false → Machine.cwDecode w = .corrected d →
      ∃ t, Machine.exec (.storeCheck sec) s = .next t ∧ t.matcher sec = m1 ∧ t.mstore = s.mstore ∧
        (s.cyc.fixes = [] → (Machine.storeFixes t).storeWord sec m.check = Machine.cwEncode d) ∧
        t.flag (Reg.SEC_MT_STAT_CORR sec) = true ∧
        t.getF (Reg.SEC_MT_ECC_COR_CNT sec) = min (s.getF (Reg.SEC_MT_ECC_COR_CNT sec) + 1) 65535 ∧
        BitsBut [Reg.SEC_MT_STAT_CORR sec, Reg.SEC_MT_ECC_COR_CNT sec] s t ∧
        { t with regs := s.regs, cyc := s.cyc, matchers := s.matchers } = s) ∧
    (Machine.cwPoison w = false → Machine.cwDecode w = .bad →
      ∃ t, Machine.exec (.storeCheck sec) s = .next t ∧ t.matcher sec = m1 ∧ t.mstore = s.mstore ∧
        (s.cyc.fixes = [] → (Machine.storeFixes t).storeWord sec m.check = Machine.cwSetPoison w) ∧
        t.flag (Reg.SEC_MT_STAT_UNCORR sec) = true ∧
        t.getF (Reg.SEC_MT_ECC_UNC_CNT sec) = min (s.getF (Reg.SEC_MT_ECC_UNC_CNT sec) + 1) 65535 ∧ t.raised = (s.raiseEv 225).raised ∧
        BitsBut [Reg.SEC_MT_STAT_UNCORR sec, Reg.SEC_MT_STAT_UADDR sec, Reg.SEC_MT_ECC_UNC_CNT sec] s t ∧
        { t with regs := s.regs, cyc := s.cyc, matchers := s.matchers, raised := s.raised } = s)

/-- R155, R157, R159, R160, R165: the fabric's operations on a bank, presented in this slot and not taken before. A READ of a bank that
the fabric owns, of a word without error, answers its data 4 slots on; a WRITE of all bytes stores the data and answers nothing. A
narrower WRITE and an atomic read in this cycle and write in the next one, where an atomic answers the old value 4 slots on (5 after
its issue). In the second cycle of a two-cycle operation a request is refused with COLL and its count. For a bank of another
owner the request is held, or ignored while one is held. -/
def Obligations.BankFabricOperations : Prop :=
  ∀ (s : Machine.State) (sec : Fin 240) (i : Fin 8) (r : Machine.BankReq),
    let b := 8 * sec.val + i.val
    let k := s.bank b
    let now := s.time.slots
    let w := Machine.writeWord s b r.word
    let inRange := (Machine.bankPending s b && decide (2048 ≤ r.word)) = false
    let old := Machine.cwDecode (s.bankWord b (Machine.readWord s b r.word))
    let fresh := Machine.fabricReq s sec i = some r ∧ k.acceptAt ≠ some now ∧ k.refusedAt ≠ some now
    let owns := k.own.1 = 0 ∧ k.second = none
    let halfRead := fun (d : Word64) =>
      s.setBank b { k with second := some { r with half := true, err := false, old := d.toNat }, usedAt := some now, acceptAt := some now }
    let refused := fun (t : Machine.State) => t.bank b = { k with refusedAt := some now } ∧
      t.flag (Reg.SEC_BSTAT_COLL sec) = true ∧
      t.getF (Reg.SEC_BCOLL_COLL_CNT sec) = min (s.getF (Reg.SEC_BCOLL_COLL_CNT sec) + 1) 65535 ∧
      BitsBut [Reg.SEC_BSTAT_COLL sec, Reg.SEC_BCOLL_COLL_CNT sec] s t ∧ { t with regs := s.regs, cyc := s.cyc, banks := s.banks } = s
    let held := s.setBank b { k with held := some r, heldAt := now }
    (∀ d, fresh → owns → r.op = .read → inRange → old = .clean d →
      ∃ t, Machine.exec (.bankRead sec i) s = .next t ∧ (t.bank b).results = k.results ++ [⟨now + 4, d.toNat, false⟩] ∧
        (t.bank b).usedAt = some now ∧ (t.bank b).acceptAt = some now ∧ { t with banks := s.banks } = s) ∧
    (fresh → owns → r.op = .write → r.be % 256 = 255 → inRange →
      ∃ t, Machine.exec (.bankWrite sec i) s = .next t ∧ (t.bank b).results = k.results ∧ (t.bank b).acceptAt = some now ∧
        t.bankWord b w = Machine.cwEncode (BitVec.ofNat 64 (r.data.headD 0)) ∧
        (∀ x, x ≠ 4096 * b + w → Machine.tget (fun _ => 0) t.bmem x = Machine.tget (fun _ => 0) s.bmem x) ∧
        { t with banks := s.banks, bmem := s.bmem, bdirty := s.bdirty } = s) ∧
    (∀ d, fresh → owns → r.op = .write → r.be % 256 ≠ 255 → inRange → old = .clean d →
      Machine.exec (.bankWrite sec i) s = .next (halfRead d)) ∧
    (∀ d, fresh → owns → r.op = .add → inRange → old = .clean d → Machine.exec (.bankAdd sec i) s = .next (halfRead d)) ∧
    (∀ d, fresh → owns → r.op = .addu → inRange → old = .clean d → Machine.exec (.bankAddu sec i) s = .next (halfRead d)) ∧
    (∀ d, fresh → owns → r.op = .adds → inRange → old = .clean d → Machine.exec (.bankAdds sec i) s = .next (halfRead d)) ∧
    (∀ d, fresh → owns → r.op = .swap → inRange → old = .clean d → Machine.exec (.bankSwap sec i) s = .next (halfRead d)) ∧
    (fresh → k.own.1 = 0 → k.second.isSome = true → r.op = .read → ∃ t, Machine.exec (.bankRead sec i) s = .next t ∧ refused t) ∧
    (fresh → k.own.1 = 0 → k.second.isSome = true → r.op = .write → ∃ t, Machine.exec (.bankWrite sec i) s = .next t ∧ refused t) ∧
    (fresh → k.own.1 = 0 → k.second.isSome = true → r.op = .add → ∃ t, Machine.exec (.bankAdd sec i) s = .next t ∧ refused t) ∧
    (fresh → k.own.1 = 0 → k.second.isSome = true → r.op = .addu → ∃ t, Machine.exec (.bankAddu sec i) s = .next t ∧ refused t) ∧
    (fresh → k.own.1 = 0 → k.second.isSome = true → r.op = .adds → ∃ t, Machine.exec (.bankAdds sec i) s = .next t ∧ refused t) ∧
    (fresh → k.own.1 = 0 → k.second.isSome = true → r.op = .swap → ∃ t, Machine.exec (.bankSwap sec i) s = .next t ∧ refused t) ∧
    (fresh → k.own.1 ≠ 0 → k.held = none → r.op = .read → Machine.exec (.bankRead sec i) s = .next held) ∧
    (fresh → k.own.1 ≠ 0 → k.held = none → r.op = .write → Machine.exec (.bankWrite sec i) s = .next held) ∧
    (fresh → k.own.1 ≠ 0 → k.held = none → r.op = .add → Machine.exec (.bankAdd sec i) s = .next held) ∧
    (fresh → k.own.1 ≠ 0 → k.held = none → r.op = .addu → Machine.exec (.bankAddu sec i) s = .next held) ∧
    (fresh → k.own.1 ≠ 0 → k.held = none → r.op = .adds → Machine.exec (.bankAdds sec i) s = .next held) ∧
    (fresh → k.own.1 ≠ 0 → k.held = none → r.op = .swap → Machine.exec (.bankSwap sec i) s = .next held) ∧
    (k.own.1 ≠ 0 → k.held.isSome = true → Machine.exec (.bankRead sec i) s = .next s ∧ Machine.exec (.bankWrite sec i) s = .next s ∧
      Machine.exec (.bankAdd sec i) s = .next s ∧ Machine.exec (.bankAddu sec i) s = .next s ∧
      Machine.exec (.bankAdds sec i) s = .next s ∧ Machine.exec (.bankSwap sec i) s = .next s) ∧
    (∀ q : Machine.BankReq, k.second = some q → k.usedAt ≠ some now → q.id = 0x3FF → q.err = false → q.size = 8 → q.op ≠ .read →
      q.op ≠ .write →
      ((Machine.ownerCycle s b).bank b).results = k.results ++ [⟨now + 4, q.old, false⟩] ∧
        ((Machine.ownerCycle s b).bank b).second = none ∧
        (Machine.ownerCycle s b).bankWord b (Machine.writeWord s b q.word) =
          Machine.cwEncode (BitVec.ofNat 64 (Machine.atomicValue q.op q.old (q.data.headD 0))))

/-- R153, R156, R162, R166: a write of SEC_BOWN with CLASS 3, and one of SEC_BCFG with PERSIST and RING, sets BADCFG and nothing
else; another stores the defined fields. In an idle bank cycle the candidate that rotation chooses is served: the first half of a two-cycle
operation reads its word and leaves the candidate's queue, a network read of a word without error is answered 4 slots on. A visit of the scrubber to a free
cycle moves it on; a correctable word waits to be rewritten, with CORR and its count. -/
def Obligations.BankServiceAndScrubber : Prop :=
  ∀ (s : Machine.State) (sec : Fin 240) (i : Fin 8),
    let b := 8 * sec.val + i.val
    let k := s.bank b
    let now := s.time.slots
    let visits := Machine.scrubDueAt s sec i && (Machine.scrubFree s sec i).1 && k.fix.isNone
    let cw := s.bankWord b k.scrubWord
    let k1 := { k with scrubWord := (k.scrubWord + 1) % 4096, scrubAt := some now, scrubWait := 0, usedAt := some now }
    (∀ v : Word32, s.alive = true → Machine.nbits v.toNat 31 30 = 3 → ∃ t, Machine.exec (.ownerHandover sec i v) s = .next t ∧
      t.flag (Reg.SEC_BSTAT_BADCFG sec) = true ∧ OnlyBits [Reg.SEC_BSTAT_BADCFG sec] s t) ∧
    (∀ v : Word32, s.alive = true → Machine.nbits v.toNat 31 30 ≠ 3 → ∃ t, Machine.exec (.ownerHandover sec i v) s = .next t ∧
      t.reg (Reg.SEC_BOWN sec i) = v &&& 0xC00003FF#32 ∧ OnlyBits [wholeReg (Reg.SEC_BOWN sec i)] s t) ∧
    (∀ v : Word32, s.alive = true → (v.getLsbD 2 && v.getLsbD 1) = true → ∃ t, Machine.exec (.bankConfigWrite sec i v) s = .next t ∧
      t.flag (Reg.SEC_BSTAT_BADCFG sec) = true ∧ OnlyBits [Reg.SEC_BSTAT_BADCFG sec] s t) ∧
    (∀ v : Word32, s.alive = true → (v.getLsbD 2 && v.getLsbD 1) = false → ∃ t, Machine.exec (.bankConfigWrite sec i v) s = .next t ∧
      t.reg (Reg.SEC_BCFG sec i) = v &&& 0xE#32 ∧ OnlyBits [wholeReg (Reg.SEC_BCFG sec i)] s t) ∧
    (∀ c r d, Machine.cycleIdle s sec i = true → k.mid = none → Machine.nextCand s k = some (c, r) →
      Machine.twoCycle r.op r.be = true → r.half = false → Machine.outOfRange s b r = false →
      Machine.cwDecode (s.bankWord b (Machine.readWord s b r.word)) = .clean d →
      ∃ t, Machine.exec (.bankNonownerServe sec i) s = .next t ∧
        t.bank b = { (Machine.candPut k c none) with
          usedAt := some now, servAt := some now, ptr := c, acceptAt := if c = 0 then some now else k.acceptAt,
          mid := some (c, { r with half := true, err := false, old := d.toNat }) } ∧
        { t with banks := s.banks } = s) ∧
    (∀ r rest d, Machine.cycleIdle s sec i = true → k.mid = none → Machine.nextCand s k = some (2, r) → k.net = r :: rest →
      r.op = .read → r.size < 64 → r.step = 0 → r.err = false → r.got = [] → r.id ≠ 0x3FF → r.id ≠ 0x3FE →
      Machine.outOfRange s b r = false →
      Machine.cwDecode (s.bankWord b (Machine.readWord s b r.word)) = .clean d →
      ∃ t, Machine.exec (.bankNonownerServe sec i) s = .next t ∧
        t.rsps = s.rsps ++ [⟨r.id, r.tag, 0, [Machine.laneValue r d.toNat], now + 4⟩] ∧
        (t.bank b).net = rest ∧ (t.bank b).ptr = 2 ∧ { t with banks := s.banks, rsps := s.rsps } = s) ∧
    (∀ d, visits = true → Machine.cwPoison cw = false → Machine.cwDecode cw = .clean d → (Machine.scrubFree s sec i).2 = false →
      Machine.exec (.bankScrubVisit sec i) s = .next (s.setBank b k1)) ∧
    (∀ d, visits = true → Machine.cwPoison cw = false → Machine.cwDecode cw = .corrected d → (Machine.scrubFree s sec i).2 = false →
      ∃ t, Machine.exec (.bankScrubVisit sec i) s = .next t ∧
        t.bank b = { k1 with fix := some (k.scrubWord, Machine.cwEncode d) } ∧ t.flag (Reg.SEC_BSTAT_CORR sec) = true ∧
        t.getF (Reg.SEC_BECC_COR_CNT sec) = min (s.getF (Reg.SEC_BECC_COR_CNT sec) + 1) 65535 ∧
        BitsBut [Reg.SEC_BSTAT_CORR sec, Reg.SEC_BECC_COR_CNT sec] s t ∧ { t with regs := s.regs, cyc := s.cyc, banks := s.banks } = s)

/-- R4, R6, R14, R16: an aligned write or read of the register space by the steward's register commands. Where no register lies
the answer is DECERR and nothing else happens; a misaligned one answers SLVERR where a register lies there. A register without further
effects acts by its access types: a write stores the RW bits, clears the W1C bits written 1 that hardware has not set in the same slot and
sets the W1S bits written 1; a read answers the register without its WO bits and clears the RC bits, unless it carries the peek attribute;
counts of the slot (of the AON tick, for the always-on block) of the read are not in its value and stay in the register. -/
def Obligations.RegisterAccess : Prop :=
  ∀ (s : Machine.State) (o : Nat) (v : Word32) (peek : Bool), s.hostAlive = true →
    let h := s.hwReg o
    let kept := if s.logsAt o then h.bits else 0
    let before := if s.logsAt o then h.old.getD (s.reg o) else s.reg o
    let since := if s.logsAt o && h.old.isSome then h.inc else 0
    let s0 := if Machine.sampledReg o then s.keepOld o else s
    (o % 4 = 0 → Machine.regRow o = none → Machine.exec (.registerWrite o v) s = .next { s with resp := ⟨2, 0⟩ } ∧
      Machine.exec (.readClear o peek) s = .next { s with resp := ⟨2, 0⟩ }) ∧
    (o % 4 ≠ 0 → let r := if (Machine.regRow (o / 4 * 4)).isSome then 1 else 2
      Machine.exec (.registerWrite o v) s = .next { s with resp := ⟨r, 0⟩ } ∧
      Machine.exec (.readClear o peek) s = .next { s with resp := ⟨r, 0⟩ }) ∧
    (∀ row, o % 4 = 0 → Machine.regRow o = some row → Machine.specialWrite s0 o v 0x200 = none →
      (s.logsAt o = true → h.caps = []) →
      ∃ t, Machine.exec (.registerWrite o v) s = .next t ∧ t.resp = ⟨0, 0⟩ ∧
        (∀ i, (t.reg o).getLsbD i = (((if (Machine.accMask row.fields .rw).getLsbD i then v.getLsbD i else (s.reg o).getLsbD i) ||
            (v.getLsbD i && (Machine.accMask row.fields .w1s).getLsbD i)) &&
          !(v.getLsbD i && (Machine.accMask row.fields .w1c).getLsbD i && !kept.getLsbD i))) ∧
        BitsBut [wholeReg o] s t ∧ { t with regs := s.regs, cyc := s.cyc, resp := s.resp } = s) ∧
    (∀ row, o % 4 = 0 → Machine.regRow o = some row → Machine.specialRead s o peek 0x200 = none →
      let rc := Machine.accMask row.fields .rc
      ∃ t, Machine.exec (.readClear o peek) s = .next t ∧
        t.resp = ⟨0, (((s.reg o &&& ~~~rc) ||| (before &&& rc)) &&& ~~~Machine.accMask row.fields .wo).setWidth 64⟩ ∧
        t.reg o = (if peek then s.reg o else (s.reg o &&& ~~~rc) ||| (since &&& rc)) ∧
        BitsBut [wholeReg o] s t ∧ { t with regs := s.regs, cyc := s.cyc, resp := s.resp } = s)

/-- R174 to R176, R191, R193, R221: writes of LQ_MODE and LQ_TRK of a quad whose four lanes have bring-up disabled and are in
IDLE. MODE and FE_J, or H and PAM4, take the values written; the rate error of the mode is evaluated afresh; the quad PLL loses LOCK where
the quad is off or its rate in error. -/
def Obligations.QuadModeAndRate : Prop :=
  ∀ (s : Machine.State) (q : Fin 36) (v : Word32),
    let mode := Machine.nbits v.toNat 1 0
    let j := Machine.nbits v.toNat 15 8
    let h := Machine.nbits v.toNat 7 0
    s.alive = true → Machine.quadDisabled s q = true → (∀ l, l < 4 → s.laneState (4 * q.val + l) = 0) →
    (s.hwReg (Reg.LQ_MODE q)).caps = [] →
    (s.getF (Reg.LQ_MODE_MODE q) = 0 → mode ≠ 0 → ∃ t, Machine.exec (.quadModeWrite q v) s = .next t ∧
      t.getF (Reg.LQ_MODE_MODE q) = mode ∧ t.getF (Reg.LQ_MODE_FE_J q) = j ∧
      t.flag (Reg.LQ_MODE_RATE_ERR q) = (mode == 1 && Machine.feRateBad s j) ∧
      t.flag (Reg.LQ_TRK_RATE_ERR q) = (mode == 2 && Machine.tkRateBad s (s.getF (Reg.LQ_TRK_H q)) (s.flag (Reg.LQ_TRK_PAM4 q))) ∧
      (mode = 3 → t.flag (Reg.LQ_PLL_STAT_LOCK q) = false) ∧
      BitsBut [wholeReg (Reg.LQ_MODE q), Reg.LQ_TRK_RATE_ERR q, Reg.LQ_PLL_STAT_LOCK q] s t ∧
      { t with regs := s.regs, cyc := s.cyc, raised := s.raised } = s) ∧
    (h ≠ s.getF (Reg.LQ_TRK_H q) → s.getF (Reg.LQ_MODE_MODE q) = 2 → ∃ t, Machine.exec (.trunkRateWrite q v) s = .next t ∧
      t.getF (Reg.LQ_TRK_H q) = h ∧ t.flag (Reg.LQ_TRK_PAM4 q) = v.getLsbD 8 ∧
      t.flag (Reg.LQ_TRK_RATE_ERR q) = Machine.tkRateBad s h (v.getLsbD 8) ∧
      (Machine.tkRateBad s h (v.getLsbD 8) = true → t.flag (Reg.LQ_PLL_STAT_LOCK q) = false) ∧
      BitsBut [Reg.LQ_TRK_H q, Reg.LQ_TRK_PAM4 q, Reg.LQ_TRK_RATE_ERR q, Reg.LQ_PLL_STAT_LOCK q] s t ∧
      { t with regs := s.regs, cyc := s.cyc, raised := s.raised } = s)

/-- R181 to R185, R189, R230: a front-end lane. In SYMLOCK the comma search goes on over the received bits (in a near-end
loopback those that return); where it completes with
a placement that leaves its margin the lane becomes ACTIVE with its slip and WAIT, one more ACT_CNT and event n; a forced
placement without margin sets ALIGN_FAIL. A drift of phase beyond the margin sets PHASE_ERR and ends alignment; the lane goes back to
SYMLOCK with LOCK_LOSS, RELOCK_CNT and event n. A write of LN_FE_CTRL in front-end mode stores its fields; a change of POL_RX ends
alignment. A word received by an aligned lane is decoded, counted and put into the phase buffer with the slot that presents it, or ends
alignment. A word sent is coded from the running disparity. -/
def Obligations.FrontEndLanes : Prop :=
  ∀ (s : Machine.State) (n : Fin 144),
    let l := s.feLane n
    let pol := s.flag (Reg.LN_FE_CTRL_POL_RX n)
    let place := fun (phase : Nat) => Machine.placeWord 30 (s.getF (Reg.LN_FE_CTRL_PLACE n)) (1024 * s.time.slots + phase)
    let lose : Machine.State → Prop := fun t => t.flag (Reg.LN_FE_STAT_ALIGNED n) = false ∧ t.getF (Reg.LN_FE_STAT_SLIP n) = 0 ∧
      t.flag (Reg.LN_FE_STAT_LOCK_LOSS n) = true ∧ t.laneState n = 4 ∧ t.raised = (s.raiseEv n.val).raised ∧
      t.getF (Reg.LN_FE_CNT_RELOCK_CNT n) = min (s.getF (Reg.LN_FE_CNT_RELOCK_CNT n) + 1) 65535
    let lostBits := [Reg.LN_FE_STAT_ALIGNED n, Reg.LN_FE_STAT_SLIP n, Reg.LN_FE_STAT_LOCK_LOSS n, Reg.LN_FE_CNT_RELOCK_CNT n,
      Reg.LN_BU_STAT_STATE n]
    let errBits := [Reg.LN_FE_ERR_CV_CNT n, Reg.LN_FE_ERR_RD_CNT n]
    let seeks := s.laneMode n = 1 ∧ s.laneState n = 4 ∧ Machine.tget (fun _ => none) s.cyc.timed n.val = none
    let srch := fun bits => Machine.feSearch s n (Machine.feReturned s n bits)
    let taken := fun w : BitVec 80 =>
      Machine.polarised pol (BitVec.ofNat 80 (Machine.loopedBack s n l.txWord.toNat w.toNat))
    let scan := fun w : BitVec 80 => Machine.feScan s n (taken w)
    let counted := fun (w : BitVec 80) (t : Machine.State) =>
      t.getF (Reg.LN_FE_ERR_CV_CNT n) = min (s.getF (Reg.LN_FE_ERR_CV_CNT n) + ((scan w).cs.filter (fun c => c.cv)).length) 65535 ∧
      t.getF (Reg.LN_FE_ERR_RD_CNT n) = min (s.getF (Reg.LN_FE_ERR_RD_CNT n) + ((scan w).cs.filter (fun c => c.rdErr)).length) 65535
    let buf := l.buf.at s.time.slots (s.getF (Reg.LN_FE_STAT_WAIT n))
    (∀ bits phase rd, seeks → (srch bits).done = some rd → (place phase).2.2 = true →
      ∃ t, Machine.exec (.feAlignment n bits phase () ()) s = .next t ∧ t.laneState n = 6 ∧
        t.flag (Reg.LN_FE_STAT_ALIGNED n) = true ∧ t.getF (Reg.LN_FE_STAT_SLIP n) = (srch bits).slip % 80 ∧
        t.getF (Reg.LN_FE_STAT_WAIT n) = (place phase).1 % 8 ∧
        t.getF (Reg.LN_BU_CNT_ACT_CNT n) = min (s.getF (Reg.LN_BU_CNT_ACT_CNT n) + 1) 65535 ∧
        (t.feLane n).rxRd = rd ∧ (t.feLane n).buf.first = (place phase).2.1 + 30 + (place phase).1 ∧
        t.raised = (s.raiseEv n.val).raised ∧
        BitsBut [Reg.LN_FE_STAT_ALIGNED n, Reg.LN_FE_STAT_SLIP n, Reg.LN_FE_STAT_WAIT n, Reg.LN_BU_STAT_STATE n, Reg.LN_BU_CNT_ACT_CNT n] s t ∧
        { t with regs := s.regs, cyc := s.cyc, raised := s.raised, fe := s.fe } = s) ∧
    (∀ bits phase rd, seeks → (srch bits).done = some rd → (place phase).2.2 = false →
      ∃ t, Machine.exec (.feAlignment n bits phase () ()) s = .next t ∧ t.flag (Reg.LN_FE_STAT_ALIGN_FAIL n) = true ∧
        t.raised = (s.raiseEv n.val).raised ∧ BitsBut [Reg.LN_FE_STAT_SLIP n, Reg.LN_FE_STAT_ALIGN_FAIL n] s t ∧
        { t with regs := s.regs, cyc := s.cyc, raised := s.raised, fe := s.fe } = s) ∧
    (∀ bits phase, seeks → (srch bits).done = none →
      ∃ t, Machine.exec (.feAlignment n bits phase () ()) s = .next t ∧ (t.feLane n).srch = srch bits ∧
        t.laneState n = 4 ∧ BitsBut [Reg.LN_FE_STAT_SLIP n] s t ∧ { t with regs := s.regs, cyc := s.cyc, fe := s.fe } = s) ∧
    (∀ drift, Machine.feLocked s n = true → Machine.driftLost l drift = true →
      ∃ t, Machine.exec (.feAlignmentLoss n drift) s = .next t ∧ lose t ∧
      t.flag (Reg.LN_FE_STAT_PHASE_ERR n) = true ∧ BitsBut (Reg.LN_FE_STAT_PHASE_ERR n :: lostBits) s t ∧
      { t with regs := s.regs, cyc := s.cyc, raised := s.raised, fe := s.fe } = s) ∧
    (∀ v, s.alive = true → s.laneMode n ≠ 1 → Machine.exec (.polarityWrite n v) s = .next s) ∧
    (∀ v, s.alive = true → s.laneMode n = 1 → (v.getLsbD 16 = pol ∨ Machine.feLocked s n = false) →
      ∃ t, Machine.exec (.polarityWrite n v) s = .next t ∧ t.reg (Reg.LN_FE_CTRL n) = v &&& 0x0003FFF7#32 ∧
        OnlyBits [wholeReg (Reg.LN_FE_CTRL n)] s t) ∧
    (∀ v : Word32, s.alive = true → v.getLsbD 16 ≠ pol → Machine.feLocked s n = true →
      ∃ t, Machine.exec (.polarityWrite n v) s = .next t ∧ t.reg (Reg.LN_FE_CTRL n) = v &&& 0x0003FFF7#32 ∧ lose t ∧
        BitsBut (wholeReg (Reg.LN_FE_CTRL n) :: lostBits) s t ∧
        { t with regs := s.regs, cyc := s.cyc, raised := s.raised, fe := s.fe } = s) ∧
    (∀ w i, Machine.feLocked s n = true → s.logs = true → l.gotAt ≠ some s.time.slots →
      buf.word s.rootM (s.getF (Reg.LQ_MODE_FE_J (n.val / 4))) s.time.slots = some i → (scan w).lost = false →
      ∃ t, Machine.exec (.feWordReceive n w) s = .next t ∧ counted w t ∧
        (t.feLane n).words = l.words ++ [(buf.shows s.rootM (s.getF (Reg.LQ_MODE_FE_J (n.val / 4))) i, (scan w).cs)] ∧
        (t.feLane n).rxRd = (scan w).rd ∧ (t.feLane n).gotAt = some s.time.slots ∧ BitsBut errBits s t ∧
        { t with regs := s.regs, cyc := s.cyc, fe := s.fe, laneTest := s.laneTest } = s) ∧
    (∀ w i, Machine.feLocked s n = true → s.logs = true → l.gotAt ≠ some s.time.slots →
      buf.word s.rootM (s.getF (Reg.LQ_MODE_FE_J (n.val / 4))) s.time.slots = some i → (scan w).lost = true →
      ∃ t, Machine.exec (.feWordReceive n w) s = .next t ∧ counted w t ∧ lose t ∧ BitsBut (errBits ++ lostBits) s t ∧
        { t with regs := s.regs, cyc := s.cyc, raised := s.raised, fe := s.fe, laneTest := s.laneTest } = s) ∧
    (∀ w rd, s.slotRuns = true → s.k = 7 → s.laneMode n = 1 → s.laneState n = 6 → Machine.feTxReady s n = true →
      l.sentAt ≠ some s.time.slots → s.getF (Reg.LN_TEST_CTRL_LB n) ≠ 3 →
      let g := Machine.tileOf (Machine.landing n) 11 4
      let valid := !s.held (Machine.landing n) && s.view.afIn g 792
      Machine.encodeWord (if valid then s.view.afBus g 0 64 else Machine.fillData)
        (if valid then s.view.afBus g 704 8 else Machine.fillKs) l.txRd = (w, rd, 0) →
      ∃ t, Machine.exec (.feWordTransmit n) s = .next t ∧ (t.feLane n).txRd = rd ∧
        (t.feLane n).txWord = BitVec.ofNat 80 ((if s.flag (Reg.LN_FE_CTRL_POL_TX n) then ~~~(BitVec.ofNat 80 w) else BitVec.ofNat 80 w).toNat
          ^^^ Machine.injMask s n 80) ∧
        (s.getF (Reg.LN_TEST_CTRL_LB n) ≠ 2 → (t.feLane n).pins = some (t.feLane n).txWord) ∧
        { t with fe := s.fe, laneTest := s.laneTest } = s)

/-- R194 to R199, R207 to R209, R215, R218, R222: codewords of a trunk lane. In training IDL codewords with FEC are sent, in
HANDSHAKE the handshake message, in ACTIVE traffic; a codeword goes through scrambler, code, polarity, injection and symbols. A received one
counts as good, corrected or uncorrectable. Lock with the margin of its placement makes a lane enter HANDSHAKE; its loss sets LOCK_LOSS and
goes to SYMLOCK; superframe lock sets LOCKED, its loss SF_LOSS and goes to TRAIN; each superframe of a stream that a loss leaves incomplete is
VBAD. The
closing blocks of a superframe verify it: VOK and its count, VBAD and its count; a wrong tag halts the device. -/
def Obligations.TrunkCodewords : Prop :=
  ∀ (s : Machine.State) (n : Fin 144), s.laneMode n = 2 →
    let l := s.tkLane n
    let st := s.laneState n
    let pam := s.flag (Reg.LQ_TRK_PAM4 (n.val / 4))
    let onLine := fun (fec : Bool) (w : Nat) =>
      Machine.turned (s.flag (Reg.LN_TK_CTRL_POL_TX n)) pam (Machine.cwBits fec) w ^^^ Machine.injMask s n (Machine.cwBits fec)
    let pins := fun (fec : Bool) (w : Nat) =>
      if s.getF (Reg.LN_TEST_CTRL_LB n) = 2 then none else some (Machine.lineSymbols pam (Machine.cwBits fec) (onLine fec w))
    let idle := Machine.encodeCw true l.txScr Machine.idleBlocks
    let hsk := Machine.encodeCw true l.txScr (Machine.hskBlocks n l l.passed false)
    let place := fun (phase : Nat) => Machine.placeWord 37 (s.getF (Reg.LN_TK_CTRL_PLACE n)) (1024 * s.time.slots + phase)
    let timely := Machine.tget (fun _ => none) s.cyc.timed n.val = none
    let open_ := (Machine.openStreams l).filter (fun c => Machine.openFrames l c != 0)
    let gone := open_.foldl (fun acc c => acc + Machine.openFrames l c) 0
    let lost := fun (t : Machine.State) => t.flag (Reg.LN_TK_STAT_LOCKED n) = false ∧
      t.tkLane n = Machine.tkClear { l with vbadNext := l.vbadNext ||| open_.foldl (fun acc c => acc + 2 ^ c) 0 } ∧
      t.getF (Reg.LN_TK_VER_VBAD_CNT n) = min (s.getF (Reg.LN_TK_VER_VBAD_CNT n) + gone) 65535 ∧
      (open_ = [] → t.raised = (s.raiseEv n.val).raised) ∧
      { t with regs := s.regs, cyc := s.cyc, raised := s.raised, tk := s.tk } = s
    (st = 2 ∨ st = 3 ∨ st = 4 → s.getF (Reg.LN_TEST_CTRL_LB n) ≠ 3 → ∃ t, Machine.exec (.codewordSend n) s = .next t ∧
      t.tkLane n = { l with txScr := idle.2, lineLen := Machine.cwBits true, line := onLine true idle.1, pins := pins true idle.1 } ∧
      { t with tk := s.tk, laneTest := s.laneTest } = s) ∧
    (st = 5 → l.seed.isSome = true → s.getF (Reg.LN_TEST_CTRL_LB n) ≠ 3 → ∃ t, Machine.exec (.codewordSend n) s = .next t ∧
      t.tkLane n = { l with acksSent := l.acksSent + l.passed.toNat, txScr := hsk.2, lineLen := Machine.cwBits true,
                            line := onLine true hsk.1, pins := pins true hsk.1 } ∧
      { t with tk := s.tk, laneTest := s.laneTest } = s) ∧
    (st = 6 → s.getF (Reg.LN_TEST_CTRL_LB n) ≠ 3 →
      let u := Machine.periodicAcks s n
      let b := Machine.activeBlocks u n (u.tkLane n)
      b.1.txCw + 1 < 2 ^ 48 → ∃ t, Machine.exec (.codewordSend n) s = .next t ∧ (t.tkLane n).txCw = b.1.txCw + 1 ∧
        (t.tkLane n).txScr = (Machine.encodeCw b.1.txFec b.1.txScr b.2).2 ∧ (t.tkLane n).lineLen = Machine.cwBits b.1.txFec ∧
        { t with tk := s.tk, laneTest := s.laneTest } = s) ∧
    (∀ syms : List Int, st = 4 →
      let len := Machine.cwBits l.rxFec
      let raw := Machine.loopedBack s n l.line (Machine.symbolBits pam syms) % 2 ^ len
      let d := Machine.decodeCw l.rxFec (Machine.turned (s.flag (Reg.LN_TK_CTRL_POL_RX n)) pam len raw)
      ∃ t, Machine.exec (.codewordReceive n syms) s = .next t ∧
        t.tkLane n = { l with rxScr := (Machine.cwBlocks l.rxScr d.2).2, good := if d.1.isNone then 0 else l.good + 1,
                              bad := if d.1.isNone then l.bad + 1 else 0 } ∧
        t.getF (Reg.LN_TK_FEC_UNCOR_CNT n) = min (s.getF (Reg.LN_TK_FEC_UNCOR_CNT n) + (if d.1 = none then 1 else 0)) 65535 ∧
        t.getF (Reg.LN_TK_FEC_CWCORR_CNT n) =
          min (s.getF (Reg.LN_TK_FEC_CWCORR_CNT n) + (if d.1 = none ∨ d.1 = some 0 then 0 else 1)) 65535 ∧
        t.getF (Reg.LN_TK_SYM_SYMCORR_CNT n) = min (s.getF (Reg.LN_TK_SYM_SYMCORR_CNT n) + d.1.getD 0) 0xFFFFFFFF ∧
        BitsBut [Reg.LN_TK_FEC_UNCOR_CNT n, Reg.LN_TK_FEC_CWCORR_CNT n, Reg.LN_TK_SYM_SYMCORR_CNT n] s t ∧
        { t with regs := s.regs, cyc := s.cyc, tk := s.tk, laneTest := s.laneTest } = s) ∧
    (∀ (slip : Fin 1144) phase, st = 4 → timely → max 1 (s.getF (Reg.LN_TK_CTRL_LOCK_N n)) ≤ l.good → (place phase).2.2 = true →
      ∃ t, Machine.exec (.codewordLock n slip phase) s = .next t ∧
      t.laneState n = 5 ∧ (Machine.keysNamed (Machine.sampleCfg ((s.setF (Reg.LN_TK_STAT_SLIP n) slip.val).setF (Reg.LN_TK_STAT_WAIT n)
        (place phase).1) n) = [] →
        t.getF (Reg.LN_TK_STAT_SLIP n) = slip.val ∧
        BitsBut [Reg.LN_TK_STAT_SLIP n, Reg.LN_TK_STAT_WAIT n, Reg.LN_TK_STAT_BADSCHED n, Reg.LN_BU_STAT_STATE n] s t ∧
        (t.tkLane n).seed.isSome = s.flag Reg.VLT_STAT_RNG_OK)) ∧
    (∀ (slip : Fin 1144) phase, st = 4 → timely → max 1 (s.getF (Reg.LN_TK_CTRL_LOCK_N n)) ≤ l.good → (place phase).2.2 = false →
      Machine.exec (.codewordLock n slip phase) s = .next ((s.setTk n { l with good := 0 }).raiseEv n)) ∧
    (st = 5 ∨ st = 6 → timely → max 1 (s.getF (Reg.LN_TK_CTRL_UNLOCK_N n)) ≤ l.bad → ∃ t, Machine.exec (.codewordLockLoss n) s = .next t ∧
      t.laneState n = 4 ∧ t.flag (Reg.LN_TK_STAT_LOCK_LOSS n) = true ∧ lost t ∧
      BitsBut [Reg.LN_TK_STAT_LOCK_LOSS n, Reg.LN_TK_STAT_LOCKED n, Reg.LN_TK_STAT_VBAD n, Reg.LN_TK_VER_VBAD_CNT n, Reg.LN_BU_STAT_STATE n] s t) ∧
    (st = 5 ∨ st = 6 → timely → l.sfOk = false → l.sfSeen = 2 → ∃ t, Machine.exec (.superframeLock n) s = .next t ∧
      t.flag (Reg.LN_TK_STAT_LOCKED n) = true ∧ (t.tkLane n).sfOk = true ∧ (t.tkLane n).sfMiss = 0 ∧
      BitsBut [Reg.LN_TK_STAT_LOCKED n] s t ∧ { t with regs := s.regs, cyc := s.cyc, tk := s.tk } = s) ∧
    (st = 6 → l.sfOk = true → 4 ≤ l.sfMiss → ∃ t, Machine.exec (.superframeLockLoss n) s = .next t ∧
      t.laneState n = 2 ∧ t.flag (Reg.LN_BU_STAT_SF_LOSS n) = true ∧ lost t ∧
      BitsBut [Reg.LN_BU_STAT_SF_LOSS n, Reg.LN_TK_STAT_LOCKED n, Reg.LN_TK_STAT_VBAD n, Reg.LN_TK_VER_VBAD_CNT n, Reg.LN_BU_STAT_STATE n] s t) ∧
    (s.slotRuns = true → s.k = 7 → st = 6 → Machine.exec (.streamBlockTransmit n) s =
      .next (s.setTk n { l with taken := l.taken ++ Machine.takeWords s n s.view })) ∧
    (∀ c : Fin 8,
      let r := l.rxs.getD c.val Machine.TkRxS.reset
      let cfg := l.cfg.scfg.getD c.val 0
      let key := Machine.rxKeyOf cfg
      let bs := Machine.payloadBytes r.prev
      let clean := !r.prevSpoiled && r.chk == some (Machine.crc32 bs) && (key == 0 || r.tag.isSome)
      let right := r.tag = some (Machine.tag64 (Machine.laneKey l key) (Machine.linkIv l.peerSeed c.val ((l.rxCw.getD 0 - 1) / 256 - 1)) [] bs)
      st = 6 → r.due = true → (s.logs = true → s.time.slots = 8 * r.beat) → Machine.rxEnabled cfg = true →
      (clean = false → key = 0 → ∃ t, Machine.exec (.streamVerify n c) s = .next t ∧ (t.tkLane n).vbad = l.vbad ||| 2 ^ c.val ∧
        t.flag (Reg.LN_TK_STAT_VBAD n) = true ∧ t.raised = (s.raiseEv n.val).raised ∧
        t.getF (Reg.LN_TK_VER_VBAD_CNT n) = min (s.getF (Reg.LN_TK_VER_VBAD_CNT n) + 1) 65535 ∧
        BitsBut [Reg.LN_TK_STAT_VBAD n, Reg.LN_TK_VER_VBAD_CNT n] s t ∧ { t with regs := s.regs, cyc := s.cyc, raised := s.raised, tk := s.tk } = s) ∧
      (clean = true → key ≠ 0 → right → ∃ t, Machine.exec (.streamVerify n c) s = .next t ∧ (t.tkLane n).vok = l.vok ||| 2 ^ c.val ∧
        t.getF (Reg.LN_TK_VER_VOK_CNT n) = min (s.getF (Reg.LN_TK_VER_VOK_CNT n) + 1) 65535 ∧
        BitsBut [Reg.LN_TK_VER_VOK_CNT n] s t ∧ { t with regs := s.regs, cyc := s.cyc, tk := s.tk } = s) ∧
      (clean = true → key ≠ 0 → ¬ right → Machine.exec (.streamVerify n c) s = .next (Machine.integrityHalt s 6 n.val c.val 0)))

/-- R202 to R204, R210, R215: queues of a trunk lane. A packet ready to go takes the next SEQ and stands before the line as its blocks, and one sent
again counts; an acknowledgment advances HEAD and the limit, a NAK or a retry timeout sends again from the last acknowledged one; a packet
that is late repeats the acknowledgment, one that is bad, out of order or finds no room is discarded with a NAK, a wrong tag halts the device;
delivery advances TAIL and, under IRQ, raises event n. A write of TAIL starts the queue at HEAD; the ring reads that follow are `ringFetch`. -/
def Obligations.TrunkQueues : Prop :=
  ∀ (s : Machine.State) (n : Fin 144), s.laneMode n = 2 →
    let l := s.tkLane n
    let tx := fun (q : Nat) => l.txq.getD q Machine.TkTxQ.reset
    let again := fun (u : Machine.State) (v : Machine.TkLane) (q : Nat) (x : Machine.TkTxQ) (head : Nat) => Machine.ringFetch (u.setTk n { v with
      txq := v.txq.set q { x with send := head % Machine.txRing v q, seq := x.acked, wait := 0 },
      reading := if (v.reading.map (fun r => r.q == q)).getD false then none else v.reading,
      ready := if (v.ready.map (fun r => r.q == q)).getD false then none else v.ready }) n
    (∀ p lim, s.laneState n = 6 → s.dbgHalt = false → l.ready = some p → l.qOut = [] → s.flag (Reg.LN_TK_QCFG_TXEN n p.q) = true →
      (tx p.q).limit = some lim → (tx p.q).seq ≤ lim →
      let u := s.setTk n { l with ready := none, qOut := Machine.packetBlocks l p (tx p.q).seq, txq := l.txq.set p.q { tx p.q with
        send := ((tx p.q).send + 1) % Machine.txRing l p.q, seq := (tx p.q).seq + 1, top := max (tx p.q).top ((tx p.q).seq + 1) } }
      Machine.exec (.queuePacketSend n) s = .next (Machine.ringFetch (if (tx p.q).seq < (tx p.q).top then u.incF (Reg.LN_TK_CNT_RETRY_CNT n) else u) n)) ∧
    (∀ a rest, l.qacks = a :: rest →
      let q := Machine.nbits a 10 8
      let step := (Machine.nbits a 27 12 + 1 + 2 ^ 16 - (tx q).acked % 2 ^ 16) % 2 ^ 16
      let adv := if (tx q).acked + step ≤ (tx q).top then step else 0
      let acked := (tx q).acked + adv
      let room := (Machine.nbits a 43 28 + 1 + 2 ^ 16 - acked % 2 ^ 16) % 2 ^ 16
      let x : Machine.TkTxQ := { tx q with acked := acked, limit := if acked + room = 0 then none else some (acked + room - 1), wait := if adv = 0 then (tx q).wait else 0 }
      let v := { l with qacks := rest, txq := l.txq.set q x }
      let head := (s.getF (Reg.LN_TK_QTXP_HEAD n q) + adv) % Machine.txRing l q
      let u := (s.setTk n v).setF (Reg.LN_TK_QTXP_HEAD n q) head
      q < l.txq.length → Machine.exec (.qackReceive n) s = .next (if a.testBit 11 then again u v q x (u.getF (Reg.LN_TK_QTXP_HEAD n q)) else Machine.ringFetch u n)) ∧
    (∀ q : Fin 8, s.laneState n = 6 → (tx q).acked < (tx q).top → 64 * max 1 (s.getF (Reg.LN_TK_CTRL_RTO n)) ≤ (tx q).wait →
      Machine.exec (.queueRetryTimeout n q) s = .next (again s l q (tx q) (s.getF (Reg.LN_TK_QTXP_HEAD n q)))) ∧
    (∀ (q : Fin 8) (v : Word32), s.alive = true → (tx q).live = false → Machine.exec (.queueTailWrite n q v) s = .next (Machine.ringFetch
      ((s.setF (Reg.LN_TK_QTXP_TAIL n q) (v.toNat % 2 ^ 16)).setTk n
        { l with txq := l.txq.set q { tx q with live := true, send := s.getF (Reg.LN_TK_QTXP_HEAD n q) } }) n)) ∧
    (∀ (q : Fin 8) (v : Word32), s.alive = true → ∃ t, Machine.exec (.queueHeadWrite n q v) s = .next t ∧
      t.getF (Reg.LN_TK_QRXP_HEAD n q) = v.toNat % 2 ^ 16 ∧ OnlyBits [Reg.LN_TK_QRXP_HEAD n q] s t) ∧
    (∀ p rest, l.packets = p :: rest →
      let cfg := l.cfg.qcfg.getD p.q 0
      let accept := (l.rxq.getD p.q (0, 0)).1
      let gone := (l.rxq.getD p.q (0, 0)).2
      let ahead := (p.seq + 2 ^ 16 - accept % 2 ^ 16) % 2 ^ 16
      let size := Machine.rxRing l p.q
      let head := s.getF (Reg.LN_TK_QRXP_HEAD n p.q) % size
      let tail := s.getF (Reg.LN_TK_QRXP_TAIL n p.q) % size
      let room := (head + size - 1 - tail) % size
      let u := s.setTk n { l with packets := rest }
      let key := Machine.rxKeyOf cfg
      let data := (Machine.payloadBytes p.words).take p.len
      let iv := Machine.linkIv l.peerSeed (8 + p.q) accept
      let plain := if key = 0 then data else Machine.gcmCrypt (Machine.laneKey l key) iv data
      let opened : Machine.TkPkt := { p with words := (Machine.chunks 8 (p.words.length + 1) plain).map Machine.leNat }
      let place := Machine.ringAddr (l.cfg.rxBase.getD p.q 0) ((tail + (accept - gone)) % size)
      let buffered : Machine.TkBuf := { q := p.q, seq := accept, left := [], err := false, todo := Machine.packetWrites place opened accept }
      let held : Machine.TkLane := { l with packets := rest, rxq := l.rxq.set p.q (accept + 1, gone), buf := l.buf ++ [buffered] }
      (s.flag (Reg.LN_TK_QCFG_RXEN n p.q) = false → Machine.exec (.queuePacketReceive n) s = .next u) ∧
      (s.flag (Reg.LN_TK_QCFG_RXEN n p.q) = true → Machine.rxEnabled cfg = true →
        (p.bad = false → 2 ^ 15 ≤ ahead → Machine.exec (.queuePacketReceive n) s = .next (Machine.queueAck u n p.q false)) ∧
        (p.bad = true ∨ (0 < ahead ∧ ahead < 2 ^ 15) → Machine.exec (.queuePacketReceive n) s = .next (Machine.queueAck u n p.q true)) ∧
        (p.bad = false → ahead = 0 → accept - gone < room → l.buf.length < 4 → s.dbgHalt = false →
          (key ≠ 0 → Machine.tag64 (Machine.laneKey l key) iv (Machine.packetAad p.qst) data ≠ p.tag →
            Machine.exec (.queuePacketReceive n) s = .next (Machine.integrityHalt u 7 n p.q 0)) ∧
          (key = 0 ∨ Machine.tag64 (Machine.laneKey l key) iv (Machine.packetAad p.qst) data = p.tag →
            Machine.exec (.queuePacketReceive n) s = .next (Machine.ringWrites (u.setTk n held) n))))) ∧
    (∀ (q : Fin 8) (i : Nat) (b : Machine.TkBuf), l.buf.findIdx? (fun b => b.q == q.val) = some i → l.buf[i]? = some b → b.todo = [] → b.left = [] →
      s.dbgHalt = false → b.err = false →
      let u := Machine.queueAck ((s.setTk n { l with buf := l.buf.eraseIdx i, rxq := l.rxq.set q ((l.rxq.getD q (0, 0)).1, (l.rxq.getD q (0, 0)).2 + 1) }).setF
        (Reg.LN_TK_QRXP_TAIL n q) ((s.getF (Reg.LN_TK_QRXP_TAIL n q) + 1) % Machine.rxRing l q)) n q false
      Machine.exec (.queueDeliver n q) s = .next (Machine.ringWrites (if s.flag (Reg.LN_TK_QCFG_IRQ n q) then u.raiseEach n else u) n))

/-- R217 to R220, R232, R233: bring-up of a lane on which no pattern is set. Enabling takes it from IDLE to DETECT or TRAIN once no condition holds
it there, and a condition returns it; RESTART and a loss of signal start it again; detection, training and bit lock move it on (a
front-end lane begins its search with SLIP 0); a timeout is recorded with the state it struck, counted, raised as event n and sends it
to TRAIN. -/
def Obligations.LaneBringUp : Prop :=
  ∀ (s : Machine.State) (n : Fin 144), Machine.patterned s n = false →
    let st := s.laneState n
    let moved := [Reg.LN_BU_STAT_STATE n, Reg.LN_TK_STAT_LOCKED n, Reg.LN_FE_STAT_ALIGNED n]
    let first := fun (u : Machine.State) => if s.laneMode n = 2 ∨ u.flag (Reg.LN_BU_CTRL_DET_EN n) = true then 1 else 2
    let timely := Machine.tget (fun _ => none) s.cyc.timed n.val = none
    (∀ v : Word32, s.alive = true →
      let u := s.setReg (Reg.LN_BU_CTRL n) (v &&& 0x00000005#32)
      (st = 0 → Machine.idleCond u n = true → Machine.exec (.laneEnable n v) s = .next u) ∧
      (st = 0 → Machine.idleCond u n = false → ∃ t, Machine.exec (.laneEnable n v) s = .next t ∧ t.laneState n = first u ∧
        BitsBut (wholeReg (Reg.LN_BU_CTRL n) :: moved) s t ∧ { t with regs := s.regs, cyc := s.cyc, tk := s.tk, fe := s.fe } = s) ∧
      (st ≠ 0 → Machine.idleCond u n = true → ∃ t, Machine.exec (.laneEnable n v) s = .next t ∧ t.laneState n = 0 ∧
        BitsBut (wholeReg (Reg.LN_BU_CTRL n) :: moved) s t ∧ { t with regs := s.regs, cyc := s.cyc, tk := s.tk, fe := s.fe } = s)) ∧
    (s.alive = true → 1 ≤ st ∧ st ≤ 6 →
      let u := s.setReg (Reg.LN_BU_CTRL n) (s.reg (Reg.LN_BU_CTRL n) &&& 0x00000005#32)
      Machine.idleCond u n = false → ∃ t, Machine.exec (.laneRestart n) s = .next t ∧ t.laneState n = first s ∧
        BitsBut (wholeReg (Reg.LN_BU_CTRL n) :: moved) s t ∧ { t with regs := s.regs, cyc := s.cyc, tk := s.tk, fe := s.fe } = s) ∧
    (∀ found, st = 1 → Machine.idleCond s n = false → ∃ t, Machine.exec (.detectAttempt n found) s = .next t ∧
      t.flag (Reg.LN_BU_STAT_PARTNER n) = found ∧ t.laneState n = (if found then 2 else 1) ∧
      BitsBut (Reg.LN_BU_STAT_PARTNER n :: moved) s t ∧ { t with regs := s.regs, cyc := s.cyc, tk := s.tk, fe := s.fe } = s) ∧
    (st = 2 → timely → ∃ t, Machine.exec (.trainComplete n) s = .next t ∧ t.laneState n = 3 ∧ OnlyBits [Reg.LN_BU_STAT_STATE n] s t) ∧
    (st = 3 → timely → s.laneMode n = 2 →
      ∃ t, Machine.exec (.bitlockComplete n) s = .next t ∧ t.laneState n = 4 ∧ OnlyBits [Reg.LN_BU_STAT_STATE n] s t) ∧
    (st = 3 → timely → s.laneMode n ≠ 2 → ∃ t, Machine.exec (.bitlockComplete n) s = .next t ∧ t.laneState n = 4 ∧
      t.getF (Reg.LN_FE_STAT_SLIP n) = 0 ∧ t.flag (Reg.LN_FE_STAT_ALIGNED n) = false ∧
      BitsBut [Reg.LN_BU_STAT_STATE n, Reg.LN_FE_STAT_SLIP n, Reg.LN_FE_STAT_ALIGNED n] s t ∧
      { t with regs := s.regs, cyc := s.cyc, fe := s.fe } = s) ∧
    (Machine.mayTimeout s n = true → ∃ t, Machine.exec (.laneStateTimeout n) s = .next t ∧ t.flag (Reg.LN_BU_STAT_TMO n) = true ∧
      t.getF (Reg.LN_BU_STAT_TMO_STATE n) = st ∧ t.getF (Reg.LN_BU_CNT_TMO_CNT n) = min (s.getF (Reg.LN_BU_CNT_TMO_CNT n) + 1) (2 ^ 16 - 1) ∧
      t.raised = (s.raiseEv n.val).raised ∧ t.laneState n = (if st = 2 then first s else 2) ∧
      BitsBut ([Reg.LN_BU_STAT_TMO n, Reg.LN_BU_STAT_TMO_STATE n, Reg.LN_BU_CNT_TMO_CNT n] ++ moved) s t ∧
      { t with regs := s.regs, cyc := s.cyc, raised := s.raised, tk := s.tk, fe := s.fe } = s) ∧
    (3 ≤ st → st ≤ 6 → timely → ∃ t, Machine.exec (.lossOfSignal n) s = .next t ∧ t.flag (Reg.LN_BU_STAT_LOS n) = true ∧ t.raised = (s.raiseEv n.val).raised ∧
      t.laneState n = first s ∧ BitsBut (Reg.LN_BU_STAT_LOS n :: moved) s t ∧
      { t with regs := s.regs, cyc := s.cyc, raised := s.raised, tk := s.tk, fe := s.fe } = s)

/-- R221, R223 to R228: quad PLL, handshake and wake. The PLL locks with its calibration temperature; a loss clears LOCK, counts and raises event
144 + q; a due recalibration leaves lock without counting as a loss. A handshake message seen twice is accepted with its lane number, and refused
with the lowest cause that R224 names; after two acknowledged codewords the lane enters ACTIVE. A watched lane wakes the device; a wake
pattern sent or ended moves the lane into IDLE or out of it. -/
def Obligations.PllHandshakeAndWake : Prop :=
  ∀ (s : Machine.State),
    (∀ q : Fin 36, Machine.pllMayRun s q = true → s.flag (Reg.LQ_PLL_STAT_LOCK q) = false →
      Machine.exec (.quadPllLock q ()) s = .next (Machine.quadReeval
        { (s.raiseF (Reg.LQ_PLL_STAT_LOCK q)).setF (Reg.LQ_PLL_STAT_CAL_T q) (Machine.quadReading s q / 4) with
          pllDue := Machine.tset (fun _ => false) s.pllDue q false } q)) ∧
    (∀ q : Fin 36, s.flag (Reg.LQ_PLL_STAT_LOCK q) = true → (∀ l < 4, s.laneState (4 * q.val + l) = 0) → ∃ t, Machine.exec (.quadPllLoss q) s = .next t ∧
      t.flag (Reg.LQ_PLL_STAT_LOCK q) = false ∧ t.flag (Reg.LQ_PLL_STAT_LOSS q) = true ∧
      t.getF (Reg.LQ_PLL_CNT_RELOCK_CNT q) = min (s.getF (Reg.LQ_PLL_CNT_RELOCK_CNT q) + 1) (2 ^ 16 - 1) ∧
      OnlyBitsEv [Reg.LQ_PLL_STAT_LOCK q, Reg.LQ_PLL_STAT_LOSS q, Reg.LQ_PLL_CNT_RELOCK_CNT q] (144 + q) s t) ∧
    (∀ q : Fin 36, Machine.tget (fun _ => false) s.pllDue q = true → s.flag (Reg.LQ_PLL_STAT_LOCK q) = true → (∀ l < 4, s.laneState (4 * q.val + l) = 0) →
      ∃ t, Machine.exec (.quadPllRecal q) s = .next t ∧ t.flag (Reg.LQ_PLL_STAT_LOCK q) = false ∧ OnlyBits [Reg.LQ_PLL_STAT_LOCK q] s t) ∧
    (∀ n : Fin 144, s.laneMode n = 2 → s.laneState n = 5 → Machine.tget (fun _ => none) s.cyc.timed n = none →
      let l := s.tkLane n
      (∀ m, l.hsk = some m → l.hskTwo = true → Machine.nbits (m.getD 5 0) 47 16 = Machine.crc32 (Machine.payloadBytes (m.take 5)) →
        Machine.nbits (m.getD 0 0) 23 16 = 1 → l.peer ≠ some m →
        let cause := Machine.hskCause s l m
        ∃ t, Machine.exec (.hskMessage n) s = .next t ∧ t.tkLane n = { l with peer := some m, passed := cause == 0, peerSeed := m.getD 2 0 / 2 ^ 16, acksSent := 0 } ∧
          t.getF (Reg.LN_BU_STAT_PEER_LANE n) = Machine.nbits (m.getD 1 0) 39 32 ∧
          (cause = 0 → t.raised = s.raised ∧ BitsBut [Reg.LN_BU_STAT_PEER_LANE n] s t) ∧
          (cause ≠ 0 → t.flag (Reg.LN_BU_STAT_REFUSED n) = true ∧ t.getF (Reg.LN_BU_STAT_REF_CAUSE n) = cause ∧ t.raised = (s.raiseEv n.val).raised ∧
            BitsBut [Reg.LN_BU_STAT_PEER_LANE n, Reg.LN_BU_STAT_REFUSED n, Reg.LN_BU_STAT_REF_CAUSE n] s t) ∧
          { t with regs := s.regs, cyc := s.cyc, tk := s.tk, raised := s.raised } = s) ∧
      (l.passed = true → 2 ≤ l.acksSent → l.ackSeen = true → l.seed.isSome = true →
        let fec := l.cfg.fec && ((l.peer.getD []).getD 0 0).testBit 33
        ∃ t, Machine.exec (.handshakeExit n) s = .next t ∧ t.laneState n = 6 ∧ t.flag (Reg.LN_TK_STAT_FEC_ON n) = fec ∧
          t.getF (Reg.LN_BU_CNT_ACT_CNT n) = min (s.getF (Reg.LN_BU_CNT_ACT_CNT n) + 1) (2 ^ 16 - 1) ∧ t.raised = (s.raiseEv n.val).raised ∧
          (t.tkLane n).txFec = fec ∧ (t.tkLane n).txCw = 0 ∧ (t.tkLane n).taken = [] ∧
          (t.tkLane n).actSlot = s.time.slots - s.time.inTick ∧ (t.tkLane n).lag = 0 ∧
          (t.tkLane n).lineLen = Machine.cwBits true ∧
          BitsBut [Reg.LN_TK_STAT_FEC_ON n, Reg.LN_BU_STAT_STATE n, Reg.LN_BU_CNT_ACT_CNT n] s t ∧
          { t with regs := s.regs, cyc := s.cyc, tk := s.tk, laneTest := s.laneTest, raised := s.raised } = s)) ∧
    (∀ (n : Fin 144) (pattern : Bool), s.phase = .hold ∨ s.phase = .keep ∨ (s.aon.entry = 2 ∧ s.aon.mode ≠ 3) → s.wakes = 0 → s.flag (Reg.LN_WAKE_EN n) = true → s.flag Reg.PWR_WAKE_LANE_EN = true →
      pattern = true ∨ s.flag (Reg.LN_WAKE_CLASS n) = false → ∃ t, Machine.exec (.laneWake n pattern) s = .next t ∧
      t.flag (Reg.LN_WAKE_SEEN n) = true ∧ t.wakes = 1 ∧ t.raised = (s.raiseEv n.val).raised ∧
      BitsBut [Reg.LN_WAKE_SEEN n] s t ∧ { t with regs := s.regs, cyc := s.cyc, wakes := s.wakes, raised := s.raised } = s) ∧
    (∀ n : Fin 144, s.alive = true → s.phase = .run → s.flag (Reg.LN_WAKE_SENDING n) = false → s.laneState n = 0 → ∃ t, Machine.exec (.wakeSend n) s = .next t ∧
      t.flag (Reg.LN_WAKE_SENDING n) = true ∧ OnlyBits [Reg.LN_WAKE_SENDING n] s t) ∧
    (∀ n : Fin 144, s.flag (Reg.LN_WAKE_SENDING n) = true → Machine.exec (.wakeSendEnd n) s = .next (Machine.laneReeval (s.clearF (Reg.LN_WAKE_SENDING n)) n))

/-- R219, R229 to R231, R233: the test features of a lane. A pattern set moves the lane into TEST and clears its checker; in TEST a
changed receive pattern clears the checker, and a changed loopback enters TEST again; patterns set to off, and a change of loopback, restart it; an injection is taken unless one is under way or the lane is in IDLE; SYNC rises when
64 bits have agreed and clears, with SYNC_LOSS, when 32 errors have fallen among 1,024; a read of the error count returns it, captures the
compared bits and clears both, but for the errors and bits of the slot of the read. -/
def Obligations.LaneTestFeatures : Prop :=
  ∀ (s : Machine.State) (n : Fin 144),
    let st := s.laneState n
    let first := if s.laneMode n = 2 ∨ s.flag (Reg.LN_BU_CTRL_DET_EN n) = true then 1 else 2
    let left := [Reg.LN_BU_STAT_STATE n, Reg.LN_TK_STAT_LOCKED n, Reg.LN_FE_STAT_ALIGNED n]
    let lbKept := fun (u : Machine.State) => u.getF (Reg.LN_TEST_CTRL_LB n) = s.getF (Reg.LN_TEST_CTRL_LB n)
    let fresh := { s.test n with run := 0, cmp := false, win := 0, errs := 0, lost := false, chk := 0 }
    (∀ v : Word32, s.alive = true → v.getLsbD 31 = false → v.getLsbD 30 = false →
      let u := s.setReg (Reg.LN_TEST_CTRL n) (v &&& 0x00FFFFFF#32)
      (st = 0 → Machine.exec (.testPatternWrite n v) s = .next u) ∧
      (st = 7 → Machine.patterned u n = true → lbKept u → u.getF (Reg.LN_TEST_CTRL_RXPAT n) = s.getF (Reg.LN_TEST_CTRL_RXPAT n) →
        Machine.exec (.testPatternWrite n v) s = .next u) ∧
      (st = 7 → Machine.patterned u n = true → lbKept u → u.getF (Reg.LN_TEST_CTRL_RXPAT n) ≠ s.getF (Reg.LN_TEST_CTRL_RXPAT n) →
        ∃ t, Machine.exec (.testPatternWrite n v) s = .next t ∧ t.flag (Reg.LN_TEST_STAT_SYNC n) = false ∧ t.test n = fresh ∧
        BitsBut [wholeReg (Reg.LN_TEST_CTRL n), Reg.LN_TEST_STAT_SYNC n] s t ∧ { t with regs := s.regs, laneTest := s.laneTest } = s) ∧
      (st ≠ 0 → Machine.patterned u n = true → st ≠ 7 ∨ ¬ lbKept u →
        ∃ t, Machine.exec (.testPatternWrite n v) s = .next t ∧ t.laneState n = 7 ∧ t.flag (Reg.LN_TEST_STAT_SYNC n) = false ∧
        t.test n = fresh ∧
        BitsBut ([wholeReg (Reg.LN_TEST_CTRL n), Reg.LN_TEST_STAT_SYNC n] ++ left) s t ∧
        { t with regs := s.regs, cyc := s.cyc, tk := s.tk, fe := s.fe, laneTest := s.laneTest } = s) ∧
      (st ≠ 0 → Machine.patterned u n = false → Machine.patterned s n = true ∨ u.getF (Reg.LN_TEST_CTRL_LB n) ≠ s.getF (Reg.LN_TEST_CTRL_LB n) →
        ∃ t, Machine.exec (.testPatternWrite n v) s = .next t ∧ t.laneState n = first ∧
        BitsBut (wholeReg (Reg.LN_TEST_CTRL n) :: left) s t ∧ { t with regs := s.regs, cyc := s.cyc, tk := s.tk, fe := s.fe } = s) ∧
      (st ≠ 0 → Machine.patterned u n = false → Machine.patterned s n = false → u.getF (Reg.LN_TEST_CTRL_LB n) = s.getF (Reg.LN_TEST_CTRL_LB n) →
        Machine.exec (.testPatternWrite n v) s = .next u)) ∧
    (∀ lb : Fin 4, s.alive = true → st ≠ 0 → Machine.patterned s n = false → s.getF (Reg.LN_TEST_CTRL_LB n) ≠ lb.val →
      s.reg (Reg.LN_TEST_CTRL n) &&& 0xFF000000#32 = 0 → ∃ t, Machine.exec (.loopbackSelect n lb) s = .next t ∧
      t.getF (Reg.LN_TEST_CTRL_LB n) = lb.val ∧
      t.laneState n = first ∧
      BitsBut (Reg.LN_TEST_CTRL_LB n :: left) s t ∧ { t with regs := s.regs, cyc := s.cyc, tk := s.tk, fe := s.fe } = s) ∧
    (s.alive = true → st ≠ 0 → (s.test n).inj = 0 →
      Machine.exec (.injSingle n) s = .next (s.setTest n { s.test n with inj := 1 }) ∧
      Machine.exec (.injBurst n) s = .next (s.setTest n { s.test n with inj := max 1 (s.getF (Reg.LN_TEST_CTRL_BURST_LEN n)) })) ∧
    (s.alive = true → st = 0 ∨ (s.test n).inj ≠ 0 → Machine.exec (.injSingle n) s = .next s ∧ Machine.exec (.injBurst n) s = .next s) ∧
    (s.alive = true → (s.test n).bits < 2 ^ 48 →
      let h := s.hwReg (Reg.LN_PRBS_ERR n)
      let now := if s.logs = true ∧ (s.test n).bitsAt.1 = s.time.slots then (s.test n).bitsAt.2 else 0
      ∃ t, Machine.exec (.prbsErrRead n) s = .next t ∧
      t.resp = ⟨0, ((if s.logs then h.old.getD (s.reg (Reg.LN_PRBS_ERR n)) else s.reg (Reg.LN_PRBS_ERR n))).setWidth 64⟩ ∧
      t.reg (Reg.LN_PRBS_ERR n) = (if s.logs && h.old.isSome then h.inc else 0) ∧
      (t.reg (Reg.LN_PRBS_BITS_LO n)).toNat + 2 ^ 32 * (t.reg (Reg.LN_PRBS_BITS_HI n)).toNat = (s.test n).bits - now ∧
      t.test n = { s.test n with bits := now } ∧
      BitsBut [wholeReg (Reg.LN_PRBS_ERR n), wholeReg (Reg.LN_PRBS_BITS_LO n), wholeReg (Reg.LN_PRBS_BITS_HI n)] s t ∧
      { t with regs := s.regs, cyc := s.cyc, resp := s.resp, laneTest := s.laneTest } = s) ∧
    (st = 7 → (Machine.prbsTaps (s.getF (Reg.LN_TEST_CTRL_RXPAT n))).isSome = true → s.flag (Reg.LN_TEST_STAT_SYNC n) = false → (s.test n).cmp = true →
      ∃ t, Machine.exec (.prbsCheckerSync n) s = .next t ∧ t.flag (Reg.LN_TEST_STAT_SYNC n) = true ∧ OnlyBits [Reg.LN_TEST_STAT_SYNC n] s t) ∧
    (st = 7 → (s.test n).lost = true →
      ∃ t, Machine.exec (.prbsSyncLoss n) s = .next t ∧ t.flag (Reg.LN_TEST_STAT_SYNC n) = false ∧ t.flag (Reg.LN_TEST_STAT_SYNC_LOSS n) = true ∧
        t.raised = (s.raiseEv n.val).raised ∧ t.test n = { s.test n with lost := false } ∧
        BitsBut [Reg.LN_TEST_STAT_SYNC n, Reg.LN_TEST_STAT_SYNC_LOSS n] s t ∧
        { t with regs := s.regs, cyc := s.cyc, laneTest := s.laneTest, raised := s.raised } = s) ∧
    (∀ (l : LaneTest) (p b : Bool),
      (64 ≤ (if b = p then l.run + 1 else 0) ↔ (Machine.prbsSeed l p b).cmp = true) ∧
      (l.errs + (if b = p then 0 else 1) - (if l.win.testBit 1023 then 1 else 0) < 32 → (Machine.prbsCompare l p b).lost = l.lost ∧
        (Machine.prbsCompare l p b).cmp = l.cmp) ∧
      (32 ≤ l.errs + (if b = p then 0 else 1) - (if l.win.testBit 1023 then 1 else 0) → (Machine.prbsCompare l p b).lost = true ∧
        (Machine.prbsCompare l p b).cmp = false ∧ (Machine.prbsCompare l p b).run = 0))

/-- R235, R236, R239, R242, R246, R247, R254: control of a teller and its base instructions. STOP abandons what is in progress; RUN starts it at
START_PC with no cause pending; SOFT latches its cause. An instruction that a teller may issue and fetches runs: a computing one writes its register
and the program counter, a load or store at its data RAM moves the bytes named, FENCE completes once no store is outstanding, ECALL and EBREAK, a
misaligned address, an address with nothing behind it and a fetch that fails take the teller to FAULT with the cause and the group event. -/
def Obligations.TellerControl : Prop :=
  ∀ (s : Machine.State) (t : Fin 240),
    let st := s.tlrState t
    let cyc := s.tlrCycle
    let fault := fun (s1 u : Machine.State) (cause : Nat) => u.tlrState t = 4 ∧ u.getF (Reg.SEC_TLR_STAT_FCAUSE t) = cause ∧
      u.raised = (s1.raiseEv (232 + t.val / 15)).raised ∧ u.tlr t = { s1.tlr t with wait := .none, waking := none } ∧
      BitsBut [Reg.SEC_TLR_STAT_STATE t, Reg.SEC_TLR_STAT_FCAUSE t, Reg.SEC_TLR_FADDR_FADDR t] s1 u ∧
      { u with regs := s1.regs, cyc := s1.cyc, raised := s1.raised, tellers := s1.tellers } = s1
    (s.alive = true → st = 0 → Machine.exec (.tellerStop t) s = .next s) ∧
    (s.alive = true → st ≠ 0 → ∃ u, Machine.exec (.tellerStop t) s = .next u ∧ u.tlrState t = 0 ∧
      u.tlr t = { s.tlr t with wait := .none, waking := none } ∧ BitsBut [Reg.SEC_TLR_STAT_STATE t] s u ∧
      { u with regs := s.regs, cyc := s.cyc, tellers := s.tellers, banks := s.banks, outst := s.outst, rsps := s.rsps } = s) ∧
    (s.alive = true → s.phase = .start → s.getF Reg.CFG_STAT_STATE < 3 → Machine.exec (.tellerRun t) s = .next s) ∧
    (s.alive = true → s.phase ≠ .start ∨ 3 ≤ s.getF Reg.CFG_STAT_STATE → st = 0 ∨ st = 4 → ∃ u, Machine.exec (.tellerRun t) s = .next u ∧ u.tlrState t = 1 ∧ u.getF (Reg.SEC_TLR_STAT_FCAUSE t) = 0 ∧
      u.tlr t = { s.tlr t with pend := 0, fresh := 0, pc := Machine.tlrStartPc s t, ready := cyc + 1, wait := .none } ∧
      BitsBut [Reg.SEC_TLR_STAT_STATE t, Reg.SEC_TLR_STAT_FCAUSE t] s u ∧ { u with regs := s.regs, cyc := s.cyc, tellers := s.tellers } = s) ∧
    (s.alive = true → s.clockOn = true → Machine.exec (.tellerSoft t) s = .next (s.setTlr t
      (if (s.tlr t).freshAt = cyc then { s.tlr t with fresh := (s.tlr t).fresh ||| 4 }
       else { s.tlr t with pend := (s.tlr t).pend ||| (s.tlr t).fresh, fresh := 4, freshAt := cyc }))) ∧
    (∀ s1 i len, Machine.tlrMayIssue s t = true → Machine.tlrFetch s t = (s1, .inl (i, len)) →
      let pc := (s1.tlr t).pc
      let next := (pc + len) % 2 ^ 32
      let ends := fun (u : Machine.State) => Machine.exec (.tellerInstruction t) s = .next u ∧ (u.tlr t).pc = next ∧ (u.tlr t).v = (s1.tlr t).v
      (i = .fence false → Machine.tlrStores s1 t = false → Machine.exec (.tellerFence t) s = .next
        (s1.setTlr t { s1.tlr t with pc := next, ready := s1.tlrCycle + 1 })) ∧
      (i = .fence false → Machine.tlrStores s1 t = true → Machine.exec (.tellerFence t) s = .next s1) ∧
      (i = .ecall → ∃ u, Machine.exec (.tellerEcall t) s = .next u ∧ fault s1 u 6) ∧
      (i = .ebreak → ∃ u, Machine.exec (.tellerEbreak t) s = .next u ∧ fault s1 u 7) ∧
      (i = .illegal → ∃ u, Machine.exec (.tellerInstruction t) s = .next u ∧ fault s1 u 1) ∧
      (∀ n rd v, Machine.rvPlain 32 i len pc (Machine.tlrX s1 t) = some (n, rd, v) → ∃ u, Machine.exec (.tellerInstruction t) s = .next u ∧
        (u.tlr t).pc = n ∧ (rd ≠ 0 → Machine.tlrX u t rd = v % 2 ^ 32) ∧ (∀ r, r ≠ rd → Machine.tlrX u t r = Machine.tlrX s1 t r) ∧
        (u.tlr t).v = (s1.tlr t).v ∧ { u with tellers := s1.tellers } = s1) ∧
      (∀ rd rs1 imm size signed, i = .load rd rs1 imm size signed →
        let a := Machine.wrapN 32 ((Machine.tlrX s1 t rs1 : Int) + imm)
        (a % size ≠ 0 → ∃ u, Machine.exec (.tellerInstruction t) s = .next u ∧ fault s1 u 2 ∧ (u.reg (Reg.SEC_TLR_FADDR t)).toNat = a) ∧
        (a % size = 0 → Machine.tlrTarget s1 t a = .none → ∃ u, Machine.exec (.tellerInstruction t) s = .next u ∧ fault s1 u 3 ∧
          (u.reg (Reg.SEC_TLR_FADDR t)).toNat = a) ∧
        (∀ k s2 d, a % size = 0 → Machine.tlrTarget s1 t a = .ram k → Machine.tramRead s1 t k = (s2, some d) → ∃ u, ends u ∧
          (rd ≠ 0 → Machine.tlrX u t rd = Machine.loadExt 32 size signed (d / 256 ^ (a % 8) % 256 ^ size) % 2 ^ 32) ∧
          (∀ r, r ≠ rd → Machine.tlrX u t r = Machine.tlrX s2 t r) ∧ { u with tellers := s2.tellers } = s2) ∧
        (∀ off, a % size = 0 → Machine.tlrTarget s1 t a = .page off → size = 4 →
          Machine.exec (.tellerInstruction t) s = .next (Machine.tlrNext (Machine.tlrSetX s1 t rd (Machine.pageRead s1 t off)) t next)) ∧
        (∀ j k, a % size = 0 → Machine.tlrTarget s1 t a = .bank j k →
          Machine.exec (.tellerInstruction t) s = .next (Machine.tlrBankStart s1 t j 0 rd size signed [(a, Machine.tlrBankReq t .read k a size 0)] next)) ∧
        (∀ p, a % size = 0 → Machine.tlrTarget s1 t a = .net p → Machine.tlrStores s1 t = false → Machine.tlrOut s1 t < 8 → s1.napFenced t = false →
          let q := Machine.tlrIssue s1 t 0 p size 0 1 0
          Machine.exec (.tellerInstruction t) s = .next (q.1.setTlr t { s1.tlr t with wait := .net false rd size signed a [q.2] [] false next }))) ∧
      (∀ rs1 rs2 imm size, i = .store rs1 rs2 imm size →
        let a := Machine.wrapN 32 ((Machine.tlrX s1 t rs1 : Int) + imm)
        (a % size ≠ 0 → ∃ u, Machine.exec (.tellerInstruction t) s = .next u ∧ fault s1 u 2 ∧ (u.reg (Reg.SEC_TLR_FADDR t)).toNat = a) ∧
        (a % size = 0 → Machine.tlrTarget s1 t a = .none → ∃ u, Machine.exec (.tellerInstruction t) s = .next u ∧ fault s1 u 3 ∧
          (u.reg (Reg.SEC_TLR_FADDR t)).toNat = a) ∧
        (∀ k s2 d, a % size = 0 → Machine.tlrTarget s1 t a = .ram k → Machine.tramRead s1 t k = (s2, some d) →
          Machine.exec (.tellerInstruction t) s = .next (Machine.tlrNext (Machine.tramWrite s2 t k (Machine.mergeBytes d
            (Machine.tlrX s1 t rs2 % 256 ^ size * 256 ^ (a % 8)) ((2 ^ size - 1) * 2 ^ (a % 8)))) t next)) ∧
        (∀ off, a % size = 0 → Machine.tlrTarget s1 t a = .page off → size = 4 →
          Machine.exec (.tellerInstruction t) s = .next (Machine.tlrNext (Machine.pageWrite s1 t off (Machine.tlrX s1 t rs2)) t next)) ∧
        (∀ j k, a % size = 0 → Machine.tlrTarget s1 t a = .bank j k →
          Machine.exec (.tellerInstruction t) s = .next (Machine.tlrBankStart s1 t j 2 0 size false
            [(a, Machine.tlrBankReq t .write k a size (Machine.tlrX s1 t rs2))] next)) ∧
        (∀ p, a % size = 0 → Machine.tlrTarget s1 t a = .net p → Machine.tlrOut s1 t < 8 → s1.napFenced t = false →
          Machine.exec (.tellerInstruction t) s = .next (Machine.tlrNext (Machine.tlrIssue s1 t 1 p size (Machine.tlrX s1 t rs2) 0 0).1 t next)))) ∧
    (∀ s1 c, c < 16 → Machine.tlrMayIssue s t = true → Machine.tlrFetch s t = (s1, .inr c) → ∃ u, Machine.exec (.tellerInstruction t) s = .next u ∧ fault s1 u c)

/-- R240 to R244: the vector instructions of a teller that may issue one. Lanes of 16 or 32 bits are added, subtracted, multiplied, compared and
selected each for itself; VSEL is bitwise with its destination as the mask; a reduction sums the lanes, VSPLAT copies a register to every lane,
VEXT and VINS move one lane; VLD and VST move 16 bytes between a vector and the data RAM, an own bank or the network, or fault with cause 2 on an
address that is not aligned to them; VTALLY makes eight additions at an own bank, or faults with cause 3. Nothing else of the teller changes but the
program counter and the cycle of its next issue. -/
def Obligations.TellerVectors : Prop :=
  ∀ (s s1 : Machine.State) (t : Fin 240) (w len : Nat), Machine.tlrMayIssue s t = true → Machine.tlrFetch s t = (s1, .inl (.custom w, len)) →
    let x := Machine.tlrX s1 t
    let v := Machine.tlrV s1 t
    let next := ((s1.tlr t).pc + 4) % 2 ^ 32
    let bits := fun (w32 : Bool) => if w32 then 32 else 16
    let count := fun (w32 : Bool) => if w32 then 4 else 8
    let writesV := fun (u : Machine.State) (vd : Nat) => (u.tlr t).pc = next ∧ (u.tlr t).x = (s1.tlr t).x ∧ (∀ r, r ≠ vd → Machine.tlrV u t r = v r) ∧
      { u with tellers := s1.tellers } = s1
    let lanes := fun (u : Machine.State) (w32 : Bool) (vd a b : Nat) (f : Nat → Nat → Nat → Nat) => ∀ i < count w32,
      Machine.vlane w32 (Machine.tlrV u t vd) i = f (bits w32) (Machine.vlane w32 (v a) i) (Machine.vlane w32 (v b) i)
    let writesX := fun (u : Machine.State) (rd : Nat) => (u.tlr t).pc = next ∧ (u.tlr t).v = (s1.tlr t).v ∧ (∀ r, r ≠ rd → Machine.tlrX u t r = x r) ∧
      { u with tellers := s1.tellers } = s1
    (∀ w32 vd a b, Machine.decodeT w = some (.vv .add w32 vd a b) → ∃ u, Machine.exec (.vadd t) s = .next u ∧
      lanes u w32 vd a b (fun n a b => (a + b) % 2 ^ n) ∧ writesV u vd) ∧
    (∀ w32 vd a b, Machine.decodeT w = some (.vv .sub w32 vd a b) → ∃ u, Machine.exec (.vsub t) s = .next u ∧
      lanes u w32 vd a b (fun n a b => (a + (2 ^ n - b)) % 2 ^ n) ∧ writesV u vd) ∧
    (∀ w32 vd a b, Machine.decodeT w = some (.vv .mul w32 vd a b) → ∃ u, Machine.exec (.vmul t) s = .next u ∧
      lanes u w32 vd a b (fun n a b => a * b % 2 ^ n) ∧ writesV u vd) ∧
    (∀ w32 vd a b, Machine.decodeT w = some (.vv .mulh w32 vd a b) → ∃ u, Machine.exec (.vmulh t) s = .next u ∧
      lanes u w32 vd a b (fun n a b => Machine.wrapN n (Machine.sext n a * Machine.sext n b / (2 ^ n : Nat))) ∧ writesV u vd) ∧
    (∀ w32 vd a b, Machine.decodeT w = some (.vv .mulhu w32 vd a b) → ∃ u, Machine.exec (.vmulhu t) s = .next u ∧
      lanes u w32 vd a b (fun n a b => a * b / 2 ^ n) ∧ writesV u vd) ∧
    (∀ w32 vd a b, Machine.decodeT w = some (.vv .min w32 vd a b) → ∃ u, Machine.exec (.vmin t) s = .next u ∧
      lanes u w32 vd a b (fun n a b => if Machine.sext n a < Machine.sext n b then a else b) ∧ writesV u vd) ∧
    (∀ w32 vd a b, Machine.decodeT w = some (.vv .minu w32 vd a b) → ∃ u, Machine.exec (.vminu t) s = .next u ∧
      lanes u w32 vd a b (fun _ a b => min a b) ∧ writesV u vd) ∧
    (∀ w32 vd a b, Machine.decodeT w = some (.vv .max w32 vd a b) → ∃ u, Machine.exec (.vmax t) s = .next u ∧
      lanes u w32 vd a b (fun n a b => if Machine.sext n b < Machine.sext n a then a else b) ∧ writesV u vd) ∧
    (∀ w32 vd a b, Machine.decodeT w = some (.vv .maxu w32 vd a b) → ∃ u, Machine.exec (.vmaxu t) s = .next u ∧
      lanes u w32 vd a b (fun _ a b => max a b) ∧ writesV u vd) ∧
    (∀ w32 vd a b, Machine.decodeT w = some (.vv .seq w32 vd a b) → ∃ u, Machine.exec (.vseq t) s = .next u ∧
      lanes u w32 vd a b (fun n a b => if a = b then 2 ^ n - 1 else 0) ∧ writesV u vd) ∧
    (∀ w32 vd a b, Machine.decodeT w = some (.vv .slt w32 vd a b) → ∃ u, Machine.exec (.vslt t) s = .next u ∧
      lanes u w32 vd a b (fun n a b => if Machine.sext n a < Machine.sext n b then 2 ^ n - 1 else 0) ∧ writesV u vd) ∧
    (∀ w32 vd a b, Machine.decodeT w = some (.vv .sltu w32 vd a b) → ∃ u, Machine.exec (.vsltu t) s = .next u ∧
      lanes u w32 vd a b (fun n a b => if a < b then 2 ^ n - 1 else 0) ∧ writesV u vd) ∧
    (∀ vd a b, Machine.decodeT w = some (.vv .sel false vd a b) → ∃ u, Machine.exec (.vsel t) s = .next u ∧
      (∀ i < 128, (Machine.tlrV u t vd).testBit i = if (v vd).testBit i then (v a).testBit i else (v b).testBit i) ∧ writesV u vd) ∧
    (∀ w32 rd a, Machine.decodeT w = some (.vredsum false w32 rd a) → ∃ u, Machine.exec (.vredsum t) s = .next u ∧ writesX u rd ∧
      (rd ≠ 0 → (Machine.tlrX u t rd : Int) = (((List.range (count w32)).map (fun i => Machine.sext (bits w32) (Machine.vlane w32 (v a) i))).sum) % 2 ^ 32)) ∧
    (∀ w32 rd a, Machine.decodeT w = some (.vredsum true w32 rd a) → ∃ u, Machine.exec (.vredsumu t) s = .next u ∧ writesX u rd ∧
      (rd ≠ 0 → (Machine.tlrX u t rd : Int) = (((List.range (count w32)).map (fun i => (Machine.vlane w32 (v a) i : Int))).sum) % 2 ^ 32)) ∧
    (∀ w32 vd r, Machine.decodeT w = some (.vsplat w32 vd r) → ∃ u, Machine.exec (.vsplat t) s = .next u ∧
      (∀ i < count w32, Machine.vlane w32 (Machine.tlrV u t vd) i = x r % 2 ^ bits w32) ∧ writesV u vd) ∧
    (∀ w32 rd a l, Machine.decodeT w = some (.vext true w32 rd a l) → ∃ u, Machine.exec (.vextu t) s = .next u ∧ writesX u rd ∧
      (rd ≠ 0 → Machine.tlrX u t rd = Machine.vlane w32 (v a) l)) ∧
    (∀ w32 rd a l, Machine.decodeT w = some (.vext false w32 rd a l) → ∃ u, Machine.exec (.vext t) s = .next u ∧ writesX u rd ∧
      (rd ≠ 0 → Machine.tlrX u t rd = Machine.wrapN 32 (Machine.sext (bits w32) (Machine.vlane w32 (v a) l)))) ∧
    (∀ w32 vd r l, Machine.decodeT w = some (.vins w32 vd r l) → ∃ u, Machine.exec (.vins t) s = .next u ∧
      (∀ i < count w32, Machine.vlane w32 (Machine.tlrV u t vd) i = if i = l then x r % 2 ^ bits w32 else Machine.vlane w32 (v vd) i) ∧ writesV u vd) ∧
    (∀ vd r imm, Machine.decodeT w = some (.vld vd r imm) →
      let a := Machine.wrapN 32 ((x r : Int) + imm)
      (a % 16 ≠ 0 → Machine.exec (.vld t) s = .next (Machine.tlrFault s1 t 2 (some a))) ∧
      (∀ k s2 lo s3 hi, a % 16 = 0 → Machine.tlrTarget s1 t a = .ram k → Machine.tramRead s1 t k = (s2, some lo) →
        Machine.tramRead s2 t (k + 1) = (s3, some hi) →
        Machine.exec (.vld t) s = .next (Machine.tlrNext (Machine.tlrSetV s3 t vd (lo + 2 ^ 64 * hi)) t next)) ∧
      (∀ j k, a % 16 = 0 → Machine.tlrTarget s1 t a = .bank j k → Machine.exec (.vld t) s = .next (Machine.tlrBankStart s1 t j 1 vd 16 false
        [(a, Machine.tlrBankReq t .read k a 8 0), (a, Machine.tlrBankReq t .read (k + 1) a 8 0)] next)) ∧
      (∀ p, a % 16 = 0 → Machine.tlrTarget s1 t a = .net p → Machine.tlrStores s1 t = false → Machine.tlrOut s1 t ≤ 6 → s1.napFenced t = false →
        let q1 := Machine.tlrIssue s1 t 0 p 8 0 1 0
        let q2 := Machine.tlrIssue q1.1 t 0 (p + 8) 8 0 1 1
        Machine.exec (.vld t) s = .next (q2.1.setTlr t { s1.tlr t with wait := .net true vd 16 false a [q1.2, q2.2] [] false next }))) ∧
    (∀ vs r imm, Machine.decodeT w = some (.vst vs r imm) →
      let a := Machine.wrapN 32 ((x r : Int) + imm)
      let lo := v vs % 2 ^ 64
      let hi := v vs / 2 ^ 64
      (a % 16 ≠ 0 → Machine.exec (.vst t) s = .next (Machine.tlrFault s1 t 2 (some a))) ∧
      (∀ k, a % 16 = 0 → Machine.tlrTarget s1 t a = .ram k →
        Machine.exec (.vst t) s = .next (Machine.tlrNext (Machine.tramWrite (Machine.tramWrite s1 t k lo) t (k + 1) hi) t next)) ∧
      (∀ j k, a % 16 = 0 → Machine.tlrTarget s1 t a = .bank j k → Machine.exec (.vst t) s = .next (Machine.tlrBankStart s1 t j 2 0 16 false
        [(a, Machine.tlrBankReq t .write k a 8 lo), (a, Machine.tlrBankReq t .write (k + 1) a 8 hi)] next)) ∧
      (∀ p, a % 16 = 0 → Machine.tlrTarget s1 t a = .net p → Machine.tlrOut s1 t ≤ 6 → s1.napFenced t = false →
        Machine.exec (.vst t) s = .next (Machine.tlrNext (Machine.tlrIssue (Machine.tlrIssue s1 t 1 p 8 lo 0 0).1 t 1 (p + 8) 8 hi 0 1).1 t next))) ∧
    (∀ vc vi r sat, Machine.decodeT w = some (.vtally vc vi r sat) →
      (∀ i k, Machine.tlrTarget s1 t (x r) = .bank i k → x r % 8 = 0 →
        let words := (List.range 8).map (fun l => (k + Machine.vlane false (v vi) l) % 4096)
        Machine.exec (.vtally t) s = .next (Machine.tlrBankStart s1 t i 3 0 8 false (words.zipIdx.map (fun p => (x r - 8 * k + 8 * p.1,
          Machine.tlrBankReq t (if sat then .addu else .add) p.1 (x r - 8 * k + 8 * p.1) 8 (Machine.vlane false (v vc) p.2)))) next)) ∧
      (x r % 8 ≠ 0 ∨ (∀ i k, Machine.tlrTarget s1 t (x r) ≠ .bank i k) → Machine.exec (.vtally t) s = .next (Machine.tlrFault s1 t 3 (some (x r)))))

/-- R247 to R250, R252: the trigger instructions of a teller. TWAIT and TSETTLE take what is pending at once, or the teller waits in WAIT or SETTLED
until a cause is visible; then the cause register holds the causes, they are no longer pending, and the teller runs on at the next instruction from
the next TLR cycle, in which it is in RUN again; after an overdraft it starts at OVD_PC. TRAISE records its code and raises the group event. -/
def Obligations.TellerTriggers : Prop :=
  ∀ (s : Machine.State) (t : Fin 240),
    let took := fun (u v : Machine.State) (rd : Nat) (c : Nat) (next : Nat) => (rd ≠ 0 → Machine.tlrX v t rd = c % 2 ^ 32) ∧
      (v.tlr t).pc = next ∧ (v.tlr t).wait = .none ∧ (v.tlr t).ready = u.tlrCycle + 1 ∧
      (v.tlr t).waking = (if u.tlrState t = 1 then none else some (u.tlrCycle, u.tlrState t)) ∧
      (∀ r, r ≠ rd → Machine.tlrX v t r = Machine.tlrX u t r) ∧ (v.tlr t).v = (u.tlr t).v ∧
      (∀ b < 16, c.testBit b = true → (Machine.tlrPend v t).testBit b = false) ∧
      (∀ b, c.testBit b = false → b < 16 → (Machine.tlrPend v t).testBit b = (Machine.tlrPend u t).testBit b) ∧
      { v with tellers := u.tellers } = u
    (∀ s1 w len, Machine.tlrMayIssue s t = true → Machine.tlrFetch s t = (s1, .inl (.custom w, len)) →
      let next := ((s1.tlr t).pc + 4) % 2 ^ 32
      (∀ rd, Machine.decodeT w = some (.twait rd) → Machine.tlrWaitCauses s1 t ≠ 0 →
        ∃ u, Machine.exec (.twait t) s = .next u ∧ took s1 u rd (Machine.tlrWaitCauses s1 t) next) ∧
      (∀ rd, Machine.decodeT w = some (.twait rd) → Machine.tlrWaitCauses s1 t = 0 → ∃ u, Machine.exec (.twait t) s = .next u ∧
        u.tlrState t = 2 ∧ u.tlr t = { s1.tlr t with wait := .twait rd next } ∧ BitsBut [Reg.SEC_TLR_STAT_STATE t] s1 u ∧
        { u with regs := s1.regs, cyc := s1.cyc, tellers := s1.tellers } = s1) ∧
      (∀ rd, Machine.decodeT w = some (.tsettle rd) → Machine.tlrOut s1 t = 0 → (Machine.tlrPend s1 t).testBit 1 = true →
        ∃ u, Machine.exec (.tsettle t) s = .next u ∧ took s1 u rd (Machine.tlrPend s1 t &&& 0x1A) next) ∧
      (∀ rd, Machine.decodeT w = some (.tsettle rd) → Machine.tlrOut s1 t = 0 → (Machine.tlrPend s1 t).testBit 1 = false → ∃ u, Machine.exec (.tsettle t) s = .next u ∧
        u.tlrState t = 3 ∧ u.tlr t = { s1.tlr t with wait := .settle rd next } ∧ BitsBut [Reg.SEC_TLR_STAT_STATE t] s1 u ∧
        { u with regs := s1.regs, cyc := s1.cyc, tellers := s1.tellers } = s1) ∧
      (∀ rd, Machine.decodeT w = some (.tsettle rd) → Machine.tlrOut s1 t ≠ 0 → Machine.exec (.tsettle t) s = .next s1) ∧
      (∀ r, Machine.decodeT w = some (.traise r) → ∃ u, Machine.exec (.traise t) s = .next u ∧ u.flag (Reg.SEC_TLR_STAT_EVT t) = true ∧
        u.getF (Reg.SEC_TLR_STAT_EVCODE t) = Machine.tlrX s1 t r % 256 ∧ u.raised = (s1.raiseEv (232 + t.val / 15)).raised ∧
        u.tlr t = { s1.tlr t with pc := next, ready := s1.tlrCycle + 1 } ∧
        BitsBut [Reg.SEC_TLR_STAT_EVT t, Reg.SEC_TLR_STAT_EVCODE t] s1 u ∧
        { u with regs := s1.regs, cyc := s1.cyc, raised := s1.raised, tellers := s1.tellers } = s1)) ∧
    (∀ rd next, (s.tlr t).wait = .twait rd next → s.slotRuns = true → Machine.tlrClock s = true → Machine.dutyOpen s s.tlrCycle = true → s.tlrState t = 2 →
      Machine.tlrWaitCauses s t ≠ 0 → ∃ u, Machine.exec (.tellerWake t) s = .next u ∧ took s u rd (Machine.tlrWaitCauses s t) next) ∧
    (s.slotRuns = true → Machine.tlrClock s = true → Machine.dutyOpen s s.tlrCycle = true → s.tlrState t = 3 → (Machine.tlrPend s t).testBit 1 = true →
      (∀ rd next, (s.tlr t).wait = .settle rd next → ∃ u, Machine.exec (.tellerSettleWake t) s = .next u ∧
        took s u rd (Machine.tlrPend s t &&& 0x1A) next) ∧
      ((s.tlr t).wait = .overdraft → Machine.exec (.tellerSettleWake t) s =
        .next (s.setTlr t { s.tlr t with wait := .none, ready := s.tlrCycle + 1, waking := some (s.tlrCycle, 3) }))) ∧
    (∀ c st, (s.tlr t).waking = some (c, st) → s.cfgSlots = 2 * c + 2 → Machine.tlrCycleEnd s t = s.setTlrState t 1)

/-- R16, R18, R256 to R258, R289, R364: requests at the steward RAM, and at an address that nothing answers. An aligned read returns its bytes in
their lanes, a write merges its bytes, an atomic returns the old word and stores the new one, a line write stores eight words; a correctable word
is repaired, one that cannot be corrected raises event 211 and is answered SLVERR; a misaligned request gets SLVERR, an address of no region DECERR;
the answer leaves for the initiator, and the request is off the list of those that wait at a memory controller. -/
def Obligations.NetworkRequests : Prop :=
  ∀ (s : Machine.State) (r : Fin 360) (vc : Fin 2) (q : Machine.NocReq), s.nocRuns = true →
    let reply := fun (u : Machine.State) (status data : Nat) => Machine.sendResponse u r q status data
    ((s.ejected r 0 vc).bind Machine.Flit.request = some q → Machine.memTurn s r 0 vc = true →
      let u := Machine.memChosen (s.eject r 0 vc) r 0 vc
      let k := q.addr % 0x400000 / 8
      let stored := fun (v : Machine.State) (x : Nat) => { v with sram := Machine.cwPut v.sram k (Machine.cwEncode (BitVec.ofNat 64 x)) }
      (Machine.regionOf q.addr = .none →
        (q.op = 0 → Machine.exec (.nocRead r vc) s = .next (reply u 2 0)) ∧
        (q.op = 1 → Machine.exec (.nocWrite r vc) s = .next (reply u 2 0)) ∧
        (q.op = 3 → Machine.exec (.nocAdd r vc) s = .next (reply u 2 0)) ∧
        (q.op = 4 → Machine.exec (.nocAddu r vc) s = .next (reply u 2 0)) ∧
        (q.op = 5 → Machine.exec (.nocAdds r vc) s = .next (reply u 2 0)) ∧
        (q.op = 6 → Machine.exec (.nocSwap r vc) s = .next (reply u 2 0))) ∧
      (Machine.regionOf q.addr = .sram → q.addr % Machine.sizeBytes q.size ≠ 0 →
        (q.op = 0 → Machine.exec (.nocRead r vc) s = .next (reply u 1 0)) ∧
        (q.op = 1 → Machine.exec (.nocWrite r vc) s = .next (reply u 1 0)) ∧
        (q.op = 3 → Machine.exec (.nocAdd r vc) s = .next (reply u 1 0)) ∧
        (q.op = 4 → Machine.exec (.nocAddu r vc) s = .next (reply u 1 0)) ∧
        (q.op = 5 → Machine.exec (.nocAdds r vc) s = .next (reply u 1 0)) ∧
        (q.op = 6 → Machine.exec (.nocSwap r vc) s = .next (reply u 1 0))) ∧
      (Machine.regionOf q.addr = .sram → q.size ≤ 3 → q.addr % 2 ^ q.size = 0 →
        (∀ (w : BitVec 64) (v : Machine.State),
          (Machine.cwDecode (Machine.cwAt s.sram k) = .clean w ∧ v = u) ∨ (Machine.cwDecode (Machine.cwAt s.sram k) = .corrected w ∧ v = stored u w.toNat) →
          (q.op = 0 → Machine.exec (.nocRead r vc) s = .next (reply v 0 (Machine.readLanes w.toNat q.addr q.size))) ∧
          (q.op = 1 → q.size < 3 → Machine.exec (.nocWrite r vc) s = .next (reply (stored v (Machine.mergeWord w.toNat q.data q.addr q.size)) 0 0)) ∧
          (q.size = 3 →
            (q.op = 3 → Machine.exec (.nocAdd r vc) s = .next (reply (stored v ((w.toNat + q.data % 2 ^ 64) % 2 ^ 64)) 0 w.toNat)) ∧
            (q.op = 4 → Machine.exec (.nocAddu r vc) s = .next (reply (stored v (min (w.toNat + q.data % 2 ^ 64) (2 ^ 64 - 1))) 0 w.toNat)) ∧
            (q.op = 5 → Machine.exec (.nocAdds r vc) s = .next (reply (stored v (Machine.wrapN 64 (max (-(2 ^ 63 : Int)) (min (Machine.sext 64 w.toNat +
              Machine.sext 64 (q.data % 2 ^ 64)) (2 ^ 63 - 1))))) 0 w.toNat)) ∧
            (q.op = 6 → Machine.exec (.nocSwap r vc) s = .next (reply (stored v (q.data % 2 ^ 64)) 0 w.toNat)))) ∧
        (q.op = 1 → q.size = 3 → Machine.exec (.nocWrite r vc) s = .next (reply (stored u q.data) 0 0)) ∧
        (Machine.cwDecode (Machine.cwAt s.sram k) = .bad →
          (q.op = 0 → Machine.exec (.nocRead r vc) s = .next (reply (u.raiseEv 211) 1 0)) ∧
          (q.op = 1 → q.size < 3 → Machine.exec (.nocWrite r vc) s = .next (reply (u.raiseEv 211) 1 0))))) ∧
    ((s.ejected r 2 0).bind Machine.Flit.request = some q → Machine.memTurn s r 2 0 = true → q.op = 2 → q.size = 4 →
      Machine.regionOf q.addr = .sram → q.addr % 64 = 0 →
      let u := Machine.memChosen (s.eject r 2 0) r 2 0
      Machine.exec (.nocWrline r) s = .next (reply { u with sram := (List.range 8).foldl (fun acc j => Machine.cwPut acc (q.addr % 0x400000 / 8 + j)
        (Machine.cwEncode (BitVec.ofNat 64 (q.data / 2 ^ (64 * j) % 2 ^ 64)))) u.sram } 0 0))

/-- R260 to R262, R265 to R267: a router forwards the flit that its arbiter grants, in dimension order, and the pointer stands at the pair granted;
a response reaches its initiator and ends the request, one that nobody waits for is dropped as late, with DROP of the sector whose NAP it would
have reached; the timer of a request that has entered its injection queue records it when it runs out, counts, raises event 228 or 230, puts the tag into quarantine and hands the initiator an error; a quarantine ends. -/
def Obligations.NetworkTransport : Prop :=
  ∀ s : Machine.State, s.nocRuns = true →
    (∀ (r : Fin 360) (out : Fin 7) (net : Fin 4) (p : Nat) (f : Machine.Flit) (rest : List Machine.Flit),
      let s0 := Machine.pullInject (Machine.collectBankRsps s r) r
      Machine.arbWinner s0 r out net = some p → s0.queue r net (p / 2) (p % 2) = f :: rest →
      let b := Machine.beyond r out
      Machine.nextPort r f.dst = out ∧ (s0.queue b.1 net b.2 (p % 2)).length < Machine.queueDepth net ∧
      ∃ t, Machine.exec (.nocFlitForward r out net) s = .next t ∧ t.queue r net (p / 2) (p % 2) = rest ∧
        t.queue b.1 net b.2 (p % 2) = s0.queue b.1 net b.2 (p % 2) ++ [f] ∧ t.arbPtr r out net = p ∧
        { t with netq := s0.netq, netPtr := s0.netPtr, memq := s0.memq, cyc := s0.cyc, fresh := s0.fresh } = s0 ∧
        (out.val ≠ 0 → { t with netq := s0.netq, netPtr := s0.netPtr } = s0)) ∧
    (∀ (r : Fin 360) (dat : Bool) (vc : Fin 2) (p : Machine.NocRsp),
      let net := if dat then 2 else 1
      (s.ejected r net vc).bind Machine.Flit.response = some p →
      let u := s.eject r net vc
      (∀ o, Machine.findOutst s p.id p.ln p.tag = some o → Machine.exec (.nocResponse r dat vc) s = .next (Machine.deliver
        { u with outst := s.outst.filter (fun x => !(x.id == o.id && x.ln == o.ln && x.tag == o.tag)) } o p.status p.data)) ∧
      (Machine.findOutst s p.id p.ln p.tag = none → ∃ t, Machine.exec (.nocResponse r dat vc) s = .next t ∧ t.flag Reg.NOC_STAT_LATE = true ∧
        t.getF Reg.NOC_CNT_LATE_CNT = min (s.getF Reg.NOC_CNT_LATE_CNT + 1) (2 ^ 16 - 1) ∧ t.raised = (s.raiseEv 229).raised ∧
        (p.id < 240 → t.flag (Reg.SEC_NAP_STAT_DROP p.id) = true) ∧
        (0x100 ≤ p.id → p.id < 0x1F0 → t.flag (Reg.SEC_NAP_STAT_DROP (p.id - 0x100)) = true) ∧
        BitsBut ([Reg.NOC_STAT_LATE, Reg.NOC_CNT_LATE_CNT] ++ (Machine.napOf p.id).toList.map Reg.SEC_NAP_STAT_DROP) s t ∧ { t with regs := s.regs, cyc := s.cyc, raised := s.raised, netq := s.netq } = s)) ∧
    (∀ (id : Fin 1024) (ln : Bool) (tag : Fin 256) (o : Machine.Outst), Machine.findOutst s id ln tag = some o → s.flag Reg.NOC_TMO_EN = true →
      o.tmo.isSome = true → o.addr < 2 ^ 48 →
      ∃ v, Machine.exec (.nocTimeout id ln tag) s = .next (Machine.deliver v o 3 0) ∧ v.flag Reg.NOC_STAT_TMO = true ∧
        v.getF Reg.NOC_STAT_NET = (if o.op = 2 then 1 else 0) ∧ v.getF Reg.NOC_STAT_ID = id.val ∧ v.getF Reg.NOC_STAT_TAG = tag.val ∧
        v.flag Reg.NOC_STAT_LN = ln ∧ (v.reg Reg.NOC_TADDR_LO).toNat + 2 ^ 32 * v.getF Reg.NOC_TADDR_HI_ADDR_HI = o.addr ∧
        v.getF Reg.NOC_CNT_TMO_CNT = min (s.getF Reg.NOC_CNT_TMO_CNT + 1) (2 ^ 16 - 1) ∧
        v.raised = (s.raiseEv (if o.op = 2 then 230 else 228)).raised ∧ v.quar = s.quar ++ [(2 * id.val + ln.toNat, tag.val)] ∧
        v.outst = s.outst.filter (fun p => !(p.id == id.val && p.ln == ln && p.tag == tag.val)) ∧
        BitsBut [Reg.NOC_STAT_TMO, Reg.NOC_STAT_NET, Reg.NOC_STAT_ID, Reg.NOC_STAT_TAG, Reg.NOC_STAT_LN, wholeReg Reg.NOC_TADDR_LO,
          Reg.NOC_TADDR_HI_ADDR_HI, Reg.NOC_CNT_TMO_CNT] s v ∧
        { v with regs := s.regs, cyc := s.cyc, raised := s.raised, outst := s.outst, quar := s.quar } = s) ∧
    (∀ (id : Fin 1024) (ln : Bool) (tag : Fin 256), Machine.exec (.tagQuarantineEnd id ln tag) s = .next
      { s with quar := s.quar.filter (fun p => p != (2 * id.val + ln.toNat, tag.val)) })

/-- R17, R268 to R273: the NAP of a sector. A credit goes to a free user slot; a request of user logic uses one, and without one it is discarded and
counted, and one that the fence has overtaken is answered SLVERR; a response is presented for one slot; a user-window request is presented under a free handle, answered by user logic or, at its
limit, with SLVERR; the fence is set and cleared. -/
def Obligations.NapPorts : Prop :=
  ∀ (s : Machine.State) (sec : Fin 240),
    let p := s.nap sec
    let now := s.time.slots
    let may := s.mayIssue sec = true
    (may → s.clrOpen = false → s.napFenced sec = false → p.grantAt ≠ some now → p.cred + Machine.outCount s sec false < p.icred →
      Machine.exec (.napCreditGrant sec) s = .next (s.setNap sec { p with cred := p.cred + 1, grantAt := some now })) ∧
    (may → p.reqAt ≠ some now → Machine.napValid s sec = true →
      let q := Machine.napRequest s sec
      (s.napFenced sec = false ∨ p.cred + p.lost = 0 → p.cred = 0 → ∃ t, Machine.exec (.napInitiatorRequest sec) s = .next t ∧
        t.flag (Reg.SEC_NAP_STAT_IOVR sec) = true ∧ t.getF (Reg.SEC_NAP_CNT_IOVR_CNT sec) = min (s.getF (Reg.SEC_NAP_CNT_IOVR_CNT sec) + 1) (2 ^ 16 - 1) ∧
        t.nap sec = { p with reqAt := some now } ∧ BitsBut [Reg.SEC_NAP_STAT_IOVR sec, Reg.SEC_NAP_CNT_IOVR_CNT sec] s t ∧
        { t with regs := s.regs, cyc := s.cyc, naps := s.naps } = s) ∧
      (s.napFenced sec = false → p.cred ≠ 0 → Machine.napOpOk q.1.op q.1.size = true → Machine.exec (.napInitiatorRequest sec) s =
        .next (Machine.issue (s.setNap sec { p with reqAt := some now, cred := p.cred - 1 }) q.1 q.2 0).1) ∧
      (s.napFenced sec = false → p.cred ≠ 0 → Machine.napOpOk q.1.op q.1.size = false → ∃ t, Machine.exec (.napInitiatorRequest sec) s = .next t ∧
        t.nap sec = { p with reqAt := some now, cred := p.cred - 1, resps := p.resps ++ [⟨now + 1, true, q.2, 1, 0⟩] } ∧ { t with naps := s.naps } = s) ∧
      (s.napFenced sec = true → p.cred + p.lost ≠ 0 → ∃ t, Machine.exec (.napInitiatorRequest sec) s = .next t ∧
        t.nap sec = { p with reqAt := some now, cred := p.cred - 1, lost := if p.cred = 0 then p.lost - 1 else p.lost,
                             resps := p.resps ++ [⟨now + 1, true, q.2, 1, 0⟩] } ∧ { t with naps := s.naps } = s)) ∧
    (s.slotRuns = true → p.shown.map (fun x => x.1) ≠ some now → ∀ r, Machine.nextResp p.resps now = some r →
      r ∈ p.resps ∧ r.at_ ≤ now ∧ (∀ r' ∈ p.resps, r.at_ ≤ r'.at_) ∧
      Machine.exec (.napResponsePresent sec) s = .next (s.setNap sec { p with shown := some (now, r), resps := p.resps.erase r })) ∧
    (may → s.clrOpen = false → p.uwShown.map (fun x => x.1) ≠ some now → (Machine.uwOpen p).length < p.tcred → p.tcred ≤ 16 →
      ∀ q, p.uw.find? (fun q => q.shown.isNone) = some q → ∃ h < 16, (∀ u ∈ p.uw, u.shown.map (fun x => x.1) ≠ some h) ∧
      Machine.exec (.napTargetPresent sec) s = .next ({ s with fresh := s.fresh + 1 }.setNap sec { p with
        uw := p.uw.map (fun u => if u = q then { q with shown := some (h, now) } else u), uwShown := some (now, { q with shown := some (h, now) }) })) ∧
    (may → p.ansAt ≠ some now → s.view.afIn (Machine.uwTile sec) 0 = true →
      let hd := s.view.afBus (Machine.uwTile sec) 11 4
      let u := s.setNap sec { p with ansAt := some now }
      (p.uw.find? (fun q => q.shown.map (fun x => x.1) == some hd) = none → Machine.exec (.napTargetAnswer sec) s = .next u) ∧
      (∀ q, p.uw.find? (fun q => q.shown.map (fun x => x.1) == some hd) = some q → Machine.exec (.napTargetAnswer sec) s = .next
        (Machine.uwAnswer u sec q (s.view.afIn (Machine.uwTile sec) 55).toNat (s.view.afBus (Machine.uwTile sec) 66 64)))) ∧
    (s.slotRuns = true → ∀ q h j, p.uw = [q] → q.shown = some (h, j) → j + max 1 (s.getF (Reg.SEC_NAP_LIM_TGT_LIM sec)) ≤ now →
      ∃ t, Machine.exec (.napTargetLimit sec) s = .next t ∧ t.flag (Reg.SEC_NAP_STAT_TLATE sec) = true ∧ t.nap sec = { p with uw := [] } ∧
        t.getF (Reg.SEC_NAP_CNT_TLATE_CNT sec) = min (s.getF (Reg.SEC_NAP_CNT_TLATE_CNT sec) + 1) (2 ^ 16 - 1) ∧
        BitsBut [Reg.SEC_NAP_STAT_TLATE sec, Reg.SEC_NAP_CNT_TLATE_CNT sec] s t ∧
        { t with regs := s.regs, cyc := s.cyc, naps := s.naps, inject := s.inject } = s) ∧
    (s.alive = true → (∃ t, Machine.exec (.napFence sec) s = .next t ∧ t.flag (Reg.SEC_NAP_CTRL_FENCE sec) = true ∧ OnlyBits [Reg.SEC_NAP_CTRL_FENCE sec] s t) ∧
      (∃ t, Machine.exec (.napUnfence sec) s = .next t ∧ t.flag (Reg.SEC_NAP_CTRL_FENCE sec) = false ∧ OnlyBits [Reg.SEC_NAP_CTRL_FENCE sec] s t))

/-- R290, R291, R293: a visit of the memory scrubber of a channel and the refresh rate. A clean line stays as it is; one that is already poisoned is
reported as a read of poison; a line of correctable words is rewritten and its words counted; one with an uncorrectable word is poisoned and
reported with its address and the scrubber as source, beside the words corrected in it. The position moves on and wraps with the sweep counted.
Refresh doubles where a sensor of the die stands above 85 °C. -/
def Obligations.MemoryMaintenance : Prop :=
  ∀ (s : Machine.State) (c : Fin 16), s.alive = true → s.flag (Reg.MEMC_STAT_SREF c) = false →
    let l := s.getF (Reg.MEMC_SCRUB_POS_LINE c)
    let a := Machine.channelAddr c (64 * l)
    let d := Machine.decodeLine s a Machine.allWords
    let last := 16777215
    let moved := fun (t : Machine.State) => t.getF (Reg.MEMC_SCRUB_POS_LINE c) = (if l = last then 0 else l + 1) ∧
      t.reg (Reg.MEMC_SWEEP c) = (if l = last then s.reg (Reg.MEMC_SWEEP c) + 1 else s.reg (Reg.MEMC_SWEEP c))
    let place := [Reg.MEMC_SCRUB_POS_LINE c, wholeReg (Reg.MEMC_SWEEP c)]
    (s.flag (Reg.MEMC_CTRL_SCRUB_EN c) = true →
      (Machine.linePoisoned s a = true → ∃ t, Machine.exec (.memoryScrubVisit c) s = .next t ∧ moved t ∧
        t.flag (Reg.MEMC_STAT_POISON_RD c) = true ∧
        t.getF (Reg.MEMC_ERRCNT_POIS_RD_CNT c) = min (s.getF (Reg.MEMC_ERRCNT_POIS_RD_CNT c) + 1) (2 ^ 16 - 1) ∧
        t.raised = (s.raiseEv (180 + c.val)).raised ∧
        BitsBut (place ++ [Reg.MEMC_STAT_POISON_RD c, Reg.MEMC_ERRCNT_POIS_RD_CNT c]) s t ∧
        { t with regs := s.regs, cyc := s.cyc, raised := s.raised } = s) ∧
      (Machine.linePoisoned s a = false → d.bad = false → d.fixed = 0 →
        ∃ t, Machine.exec (.memoryScrubVisit c) s = .next t ∧ moved t ∧ OnlyBits place s t) ∧
      (Machine.linePoisoned s a = false → d.bad = false → d.fixed ≠ 0 →
        ∃ t, Machine.exec (.memoryScrubVisit c) s = .next t ∧ moved t ∧ t.flag (Reg.MEMC_STAT_CORR c) = true ∧
          t.getF (Reg.MEMC_ECC_COR_CNT c) = min (s.getF (Reg.MEMC_ECC_COR_CNT c) + d.fixed) (2 ^ 16 - 1) ∧
          t.mem = (Machine.rewriteLine s a).mem ∧ BitsBut (place ++ [Reg.MEMC_STAT_CORR c, Reg.MEMC_ECC_COR_CNT c]) s t ∧
          { t with regs := s.regs, cyc := s.cyc, mem := s.mem } = s) ∧
      (Machine.linePoisoned s a = false → d.bad = true → s.flag (Reg.MEMC_STAT_UNCORR c) = false →
        s.logs = false ∨ (s.hwReg (Reg.MEMC_STAT c)).bits.getLsbD (Reg.MEMC_STAT_UNCORR c).lo = false →
        ∃ t, Machine.exec (.memoryScrubVisit c) s = .next t ∧ moved t ∧ t.flag (Reg.MEMC_STAT_UNCORR c) = true ∧
          t.getF (Reg.MEMC_ECC_UNC_CNT c) = min (s.getF (Reg.MEMC_ECC_UNC_CNT c) + 1) (2 ^ 16 - 1) ∧
          t.flag (Reg.MEMC_STAT_CORR c) = (s.flag (Reg.MEMC_STAT_CORR c) || d.fixed != 0) ∧
          t.getF (Reg.MEMC_ECC_COR_CNT c) = min (s.getF (Reg.MEMC_ECC_COR_CNT c) + d.fixed) (2 ^ 16 - 1) ∧ t.raised = (s.raiseEv (180 + c.val)).raised ∧
          t.getF (Reg.MEMC_UADDR_HI_SRC c) = 1 ∧ (t.reg (Reg.MEMC_UADDR_LO c)).toNat + 2 ^ 32 * t.getF (Reg.MEMC_UADDR_HI_ADDR_HI c) = a ∧
          t.mem = (Machine.poisonLine s a).mem ∧
          BitsBut (place ++ [Reg.MEMC_STAT_UNCORR c, Reg.MEMC_STAT_CORR c, Reg.MEMC_ECC_COR_CNT c, Reg.MEMC_ECC_UNC_CNT c,
            wholeReg (Reg.MEMC_UADDR_LO c), Reg.MEMC_UADDR_HI_SRC c, Reg.MEMC_UADDR_HI_ADDR_HI c]) s t ∧
          { t with regs := s.regs, cyc := s.cyc, mem := s.mem, raised := s.raised } = s)) ∧
    (∃ t, Machine.exec (.refresh c) s = .next t ∧
      (t.flag (Reg.MEMC_STAT_HOT c) = true ↔ ∃ i < 4, 4 * (85 + 64) < s.getF (Reg.THM_TEMP_TEMP (256 + 4 * (c.val / 4) + i))) ∧
      OnlyBits [Reg.MEMC_STAT_HOT c] s t)

/-- R297 to R299, R317, R345: fuse commands under their lock. The owner key is burned only into a blank part with the root key good, no burn under
way and all eight words written; the floor only upwards and no further than the loaded image; any other command fails with event 200 and needs the
words written again (log 138). Without the lock the command is turned away with event 201, and one at the floor fails beside it. When a burn
ends its bits are added to the fuses, the state is read back, and event 200 is raised. -/
def Obligations.FuseProgramming : Prop :=
  ∀ s : Machine.State,
    (∀ id : Fin 1024, s.alive = true → s.getF Reg.VLT_LOCK_STATE = 2 → s.getF Reg.VLT_LOCK_OWNER = id.val →
      let started := fun (t : Machine.State) (kind value : Nat) => t.flag Reg.VLT_STAT_FUSE_BUSY = true ∧ t.okeys = [] ∧ t.resp = ⟨0, 0⟩ ∧
        t.fuses = { s.fuses with burning := kind, latch := value } ∧ t.reg Reg.VLT_LOCK = 0 ∧
        BitsBut [Reg.VLT_STAT_FUSE_BUSY, wholeReg Reg.VLT_LOCK] s t ∧
        { t with regs := s.regs, cyc := s.cyc, okeys := s.okeys, resp := s.resp, fuses := s.fuses } = s
      let failed := fun (t : Machine.State) => t.flag Reg.VLT_STAT_FUSE_FAIL = true ∧ t.raised = (s.raiseEv 200).raised ∧ t.reg Reg.VLT_LOCK = 0 ∧ t.resp = ⟨0, 0⟩ ∧
        t.okeys = [] ∧ BitsBut [Reg.VLT_STAT_FUSE_FAIL, wholeReg Reg.VLT_LOCK] s t ∧
        { t with regs := s.regs, cyc := s.cyc, raised := s.raised, resp := s.resp, okeys := s.okeys } = s
      (∀ ko, Machine.okeyLatched s = some ko → s.getF Reg.VLT_STAT_OKEY_STATE = 0 → s.flag Reg.VLT_STAT_ROOT_OK = true →
        s.flag Reg.VLT_STAT_FUSE_BUSY = false → ∃ t, Machine.exec (.fuseProgramOwnerKey id) s = .next t ∧ started t 1 (Machine.okeyFuses ko)) ∧
      (Machine.okeyLatched s = none ∨ s.getF Reg.VLT_STAT_OKEY_STATE ≠ 0 ∨ s.flag Reg.VLT_STAT_ROOT_OK = false ∨ s.flag Reg.VLT_STAT_FUSE_BUSY = true →
        ∃ t, Machine.exec (.fuseProgramOwnerKey id) s = .next t ∧ failed t) ∧
      (∀ w : Word32, Machine.tget (fun _ => none) s.okeys 0 = some w →
        let n := w.toNat % 256
        let high := s.getF Reg.CFG_SEQ_HI_SEQ_HI / 2 ^ 24
        (s.flag Reg.VLT_STAT_FUSE_BUSY = false → Machine.floorOf s.fuses.floor < n → n ≤ high →
          ∃ t, Machine.exec (.fuseProgramFloor id) s = .next t ∧ started t 2 n) ∧
        (s.flag Reg.VLT_STAT_FUSE_BUSY = true ∨ n ≤ Machine.floorOf s.fuses.floor ∨ high < n →
          ∃ t, Machine.exec (.fuseProgramFloor id) s = .next t ∧ failed t)) ∧
      (Machine.tget (fun _ => none) s.okeys 0 = none → ∃ t, Machine.exec (.fuseProgramFloor id) s = .next t ∧ failed t)) ∧
    (∀ id : Fin 1024, s.alive = true → s.getF Reg.VLT_LOCK_STATE ≠ 2 ∨ s.getF Reg.VLT_LOCK_OWNER ≠ id.val →
      let turned := fun (t : Machine.State) => t.resp = ⟨1, 0⟩ ∧ t.reg Reg.VLT_LOCK = 0 ∧ t.flag Reg.VLT_STAT_LOCKERR = true ∧
        { t with regs := s.regs, cyc := s.cyc, raised := s.raised, resp := s.resp } = s
      (∃ t, Machine.exec (.fuseProgramOwnerKey id) s = .next t ∧ turned t ∧ t.raised = (s.raiseEv 201).raised ∧
        BitsBut [wholeReg Reg.VLT_LOCK, Reg.VLT_STAT_LOCKERR] s t) ∧
      (∃ t, Machine.exec (.fuseProgramFloor id) s = .next t ∧ turned t ∧ t.flag Reg.VLT_STAT_FUSE_FAIL = true ∧
        t.raised = ((s.raiseEv 201).raiseEv 200).raised ∧
        BitsBut [wholeReg Reg.VLT_LOCK, Reg.VLT_STAT_LOCKERR, Reg.VLT_STAT_FUSE_FAIL] s t)) ∧
    (s.phase ≠ .unpowered →
      (s.fuses.burning = 1 → ∃ t, Machine.exec .fuseBurnComplete s = .next t ∧ t.fuses.okey = s.fuses.okey ||| s.fuses.latch ∧ t.fuses.burning = 0 ∧
        t.fuses.floor = s.fuses.floor ∧ t.flag Reg.VLT_STAT_FUSE_BUSY = false ∧
        t.fuses.cut = s.fuses.cut ∧
        t.getF Reg.VLT_STAT_OKEY_STATE = Machine.okeyStateOf { s.fuses with okey := s.fuses.okey ||| s.fuses.latch } ∧ t.raised = (s.raiseEv 200).raised ∧
        BitsBut [Reg.VLT_STAT_FUSE_BUSY, Reg.VLT_STAT_OKEY_STATE] s t ∧ { t with regs := s.regs, cyc := s.cyc, raised := s.raised, fuses := s.fuses } = s) ∧
      (s.fuses.burning = 2 → ∃ t, Machine.exec .fuseBurnComplete s = .next t ∧ t.fuses.okey = s.fuses.okey ∧ t.fuses.burning = 0 ∧
        (∀ i, t.fuses.floor.testBit i = (s.fuses.floor.testBit i || decide (i < s.fuses.latch))) ∧ t.flag Reg.VLT_STAT_FUSE_BUSY = false ∧
        t.raised = (s.raiseEv 200).raised ∧ BitsBut [Reg.VLT_STAT_FUSE_BUSY] s t ∧ { t with regs := s.regs, cyc := s.cyc, raised := s.raised, fuses := s.fuses } = s))

/-- R301, R316, R317: locked sequences of the vault, the watchdog and the reset block. The two words of one initiator open a lock, a wrong word, another
initiator or an access of the debug port to a sequence in progress ends it with LOCKERR and its event, as does its window; the write that the lock
guards takes it. A key entry is cleared unless it is in use; zeroisation wipes every key, disables the protected windows, and completes. -/
def Obligations.LockedCommands : Prop :=
  ∀ s : Machine.State, s.alive = true →
    (∀ (which : Fin 3) (id : Fin 1024) (v : Word32),
      let st := s.getF (Machine.lockState which)
      let owner := s.getF (Machine.lockOwner which)
      let bad := match which with | 0 => (Reg.VLT_STAT_LOCKERR, 201) | 1 => (Reg.WDT_STAT_LOCKERR, 209) | 2 => (Reg.RST_BSTAT_LOCKERR, 212)
      let failed := fun (t : Machine.State) => t.reg (Machine.lockReg which) = 0 ∧ t.flag bad.1 = true ∧ t.raised = (s.raiseEv (bad.2)).raised ∧
        BitsBut [wholeReg (Machine.lockReg which), bad.1] s t ∧ { t with regs := s.regs, cyc := s.cyc, raised := s.raised, resp := s.resp } = s
      (st = 0 → v = 0x4C454447#32 → ∃ t, Machine.exec (.lockWrite which id v) s = .next t ∧ t.getF (Machine.lockState which) = 1 ∧
        t.getF (Machine.lockOwner which) = id.val ∧ t.resp = ⟨0, 0⟩ ∧ BitsBut [Machine.lockState which, Machine.lockOwner which] s t ∧
        { t with regs := s.regs, cyc := s.cyc, resp := s.resp } = s) ∧
      (id.val ≠ 0x204 → st = 1 → v = 0x42414E4B#32 → owner = id.val → ∃ t, Machine.exec (.lockWrite which id v) s = .next t ∧
        t.getF (Machine.lockState which) = 2 ∧ t.resp = ⟨0, 0⟩ ∧ BitsBut [Machine.lockState which] s t ∧ { t with regs := s.regs, cyc := s.cyc, resp := s.resp } = s) ∧
      ((st = 0 ∧ v ≠ 0x4C454447#32) ∨ (st = 1 ∧ (v ≠ 0x42414E4B#32 ∨ owner ≠ id.val)) ∨ 2 ≤ st →
        ∃ t, Machine.exec (.lockWrite which id v) s = .next t ∧ t.resp = ⟨1, 0⟩ ∧ failed t) ∧
      (id.val = 0x204 → st ≠ 0 → ∃ t, Machine.exec (.lockWrite which id v) s = .next t ∧ t.resp = ⟨1, 0⟩ ∧ failed t) ∧
      (st ≠ 0 → ∃ t, Machine.exec (.lockWindowExpiry which) s = .next t ∧ t.resp = s.resp ∧ failed t)) ∧
    (∀ (id : Fin 1024) (v : Word32),
      let e := Machine.nbits v.toNat 5 0
      let locked := s.getF Reg.VLT_LOCK_STATE = 2 ∧ s.getF Reg.VLT_LOCK_OWNER = id.val
      let turnedAway := fun (t : Machine.State) => t.resp = ⟨1, 0⟩ ∧ t.flag Reg.VLT_STAT_LOCKERR = true ∧ t.raised = (s.raiseEv 201).raised ∧
        BitsBut [wholeReg Reg.VLT_LOCK, Reg.VLT_STAT_LOCKERR] s t ∧ { t with regs := s.regs, cyc := s.cyc, raised := s.raised, resp := s.resp } = s
      let onlyLock := fun (t : Machine.State) => t.resp = ⟨0, 0⟩ ∧ BitsBut [wholeReg Reg.VLT_LOCK] s t ∧ { t with regs := s.regs, cyc := s.cyc, resp := s.resp } = s
      (¬ locked → ∃ t, Machine.exec (.keyClear id v) s = .next t ∧ turnedAway t) ∧
      (¬ locked → ∃ t, Machine.exec (.zeroise id v) s = .next t ∧ turnedAway t) ∧
      (locked → e = 0 → ∃ t, Machine.exec (.keyClear id v) s = .next t ∧ onlyLock t) ∧
      (locked → v.getLsbD 0 = false → ∃ t, Machine.exec (.zeroise id v) s = .next t ∧ onlyLock t) ∧
      (locked →
        (e ≠ 0 → Machine.keyInUse s e = true → ∃ t, Machine.exec (.keyClear id v) s = .next t ∧ t.flag Reg.VLT_STAT_KEYBUSY = true ∧ t.resp = ⟨0, 0⟩ ∧
          BitsBut [wholeReg Reg.VLT_LOCK, Reg.VLT_STAT_KEYBUSY] s t ∧ { t with regs := s.regs, cyc := s.cyc, resp := s.resp } = s) ∧
        (e ≠ 0 → Machine.keyInUse s e = false → ∃ t, Machine.exec (.keyClear id v) s = .next t ∧ Machine.keyHeld t e = false ∧
          (∀ i < 4, Machine.cwAt t.keyw (4 * e + i) = 0) ∧ (∀ k, k / 4 ≠ e → Machine.cwAt t.keyw k = Machine.cwAt s.keyw k) ∧
          t.resp = ⟨0, 0⟩ ∧ BitsBut [wholeReg Reg.VLT_LOCK, Machine.keyValBit e] s t ∧
          { t with regs := s.regs, cyc := s.cyc, resp := s.resp, keyw := s.keyw, winKey := s.winKey, tk := s.tk } = s) ∧
        (v.getLsbD 0 = true → ∃ t, Machine.exec (.zeroise id v) s = .next t ∧ t.keyw = [] ∧ t.winKey = [] ∧ t.nodes = [] ∧ t.rootw = [] ∧ t.okeys = [] ∧
          t.zeroing = Machine.protectedWindows s ∧ t.flag Reg.VLT_STAT_INIT_BUSY = true ∧ t.raised = (s.raiseEv 198).raised ∧ t.phase = s.phase ∧
          t.fuses = s.fuses ∧ t.mem = s.mem ∧ (∀ e, Machine.keyHeld t e = false)))) ∧
    (s.flag Reg.VLT_STAT_INIT_BUSY = true → ∃ t, Machine.exec .zeroiseComplete s = .next t ∧ t.zeroing = [] ∧ t.flag Reg.VLT_STAT_INIT_BUSY = Machine.anyInit s ∧
      BitsBut [Reg.VLT_STAT_INIT_BUSY] s t ∧ { t with regs := s.regs, cyc := s.cyc, zeroing := s.zeroing } = s)

/-- R303 to R305, R310: memory windows and random numbers. A window that R304 admits is enabled: a clear one is open at once, the others hold their
key and start their initialisation, which writes every line and ends with event 198; one it does not admit sets BADWIN. Disabling drops
the key, writes the cached nodes of the window back and drops them, and leaves the contents. A random number is new at each read and 0 once the health test has failed. -/
def Obligations.WindowsAndRandomNumbers : Prop :=
  ∀ s : Machine.State, s.alive = true →
    (∀ (w : Fin 16) (v : Word32),
      let x := v ||| 0x80000000#32
      let inTree := fun (a : Nat) => s.getF (Reg.VLT_WCTL_MODE w) == 2 && decide (s.getF (Reg.VLT_WTREE_TBASE w) * 4096 ≤ a) &&
        decide (a < s.getF (Reg.VLT_WTREE_TBASE w) * 4096 + 64 * Machine.treeLines (Machine.winSize s w))
      (s.flag (Reg.VLT_WCTL_EN w) = true → Machine.exec (.windowEnable w v) s = .next s) ∧
      (s.flag (Reg.VLT_WCTL_EN w) = false → Machine.windowAllowed s w x.toNat = false → ∃ t, Machine.exec (.windowEnable w v) s = .next t ∧
        t.flag Reg.VLT_STAT_BADWIN = true ∧ OnlyBitsEv [Reg.VLT_STAT_BADWIN] 198 s t) ∧
      (s.flag (Reg.VLT_WCTL_EN w) = false → Machine.windowAllowed s w x.toNat = true → Machine.nbits x.toNat 29 28 = 0 → (Machine.readKey s (Machine.nbits x.toNat 21 16)).1 = s →
        ∃ t, Machine.exec (.windowEnable w v) s = .next t ∧ t.reg (Reg.VLT_WCTL w) = x &&& 0xB03F003F#32 ∧ t.reg (Reg.VLT_WINFO w) = 0 ∧
          Machine.tget (fun _ => []) t.winKey w = [] ∧ BitsBut [wholeReg (Reg.VLT_WCTL w), wholeReg (Reg.VLT_WINFO w)] s t ∧
          { t with regs := s.regs, cyc := s.cyc, winKey := s.winKey } = s) ∧
      (∀ kb, s.flag (Reg.VLT_WCTL_EN w) = false → Machine.windowAllowed s w x.toNat = true → Machine.nbits x.toNat 29 28 ≠ 0 →
        Machine.readKey s (Machine.nbits x.toNat 21 16) = (s, some kb) → ∃ t, Machine.exec (.windowEnable w v) s = .next t ∧
          t.flag (Reg.VLT_WCTL_EN w) = true ∧ t.flag (Reg.VLT_WCTL_INIT w) = true ∧ t.flag Reg.VLT_STAT_INIT_BUSY = true ∧
          Machine.tget (fun _ => []) t.winKey w = kb ∧ BitsBut [wholeReg (Reg.VLT_WCTL w), wholeReg (Reg.VLT_WINFO w), Reg.VLT_STAT_INIT_BUSY] s t ∧
          { t with regs := s.regs, cyc := s.cyc, winKey := s.winKey } = s) ∧
      (s.flag (Reg.VLT_WCTL_EN w) = true → ∃ t, Machine.exec (.windowDisable w v) s = .next t ∧ t.flag (Reg.VLT_WCTL_EN w) = false ∧
        Machine.tget (fun _ => []) t.winKey w = [] ∧ t.reg (Reg.VLT_WINFO w) = 0 ∧
        t.flag Reg.VLT_STAT_INIT_BUSY = (Machine.anyInit t || !t.zeroing.isEmpty) ∧
        t.mem = (((Machine.tkeys id s.nodes).filter inTree).foldl Machine.writeBackNode s).mem ∧
        (∀ a, inTree a = true → Machine.tget (fun _ => 0) t.nodes a = 0) ∧
        BitsBut [wholeReg (Reg.VLT_WCTL w), wholeReg (Reg.VLT_WINFO w), Reg.VLT_STAT_INIT_BUSY] s t ∧
        { t with regs := s.regs, cyc := s.cyc, winKey := s.winKey, nodes := s.nodes, mem := s.mem } = s) ∧
      (s.flag (Reg.VLT_WCTL_INIT w) = true →
        let filled := if s.getF (Reg.VLT_WCTL_MODE w) = 2 then Machine.initTree (Machine.initLines s w) w else Machine.initLines s w
        ∃ t, Machine.exec (.windowInitComplete w) s = .next t ∧
        t.mem = filled.mem ∧ t.rootw = filled.rootw ∧ t.flag (Reg.VLT_WCTL_INIT w) = false ∧ t.raised = (s.raiseEv 198).raised ∧
        t.flag Reg.VLT_STAT_INIT_BUSY = (Machine.anyInit t || !t.zeroing.isEmpty) ∧
        BitsBut [Reg.VLT_WCTL_INIT w, Reg.VLT_STAT_INIT_BUSY] s t ∧
        { t with regs := s.regs, cyc := s.cyc, mem := s.mem, rootw := s.rootw, raised := s.raised } = s)) ∧
    (s.flag Reg.VLT_STAT_RNG_OK = true → ∃ w : Word32, Machine.exec (.rngRead false) s = .next { s with fresh := s.fresh + 1, resp := ⟨0, w.setWidth 64⟩ }) ∧
    (∀ peek, peek = true ∨ s.flag Reg.VLT_STAT_RNG_OK = false → Machine.exec (.rngRead peek) s = .next { s with resp := ⟨0, 0⟩ }) ∧
    (s.flag Reg.VLT_STAT_RNG_OK = true → ∃ t, Machine.exec .rngHealthFail s = .next t ∧ t.flag Reg.VLT_STAT_RNG_OK = false ∧
      t.flag Reg.VLT_STAT_RNGFAIL = true ∧ OnlyBitsEv [Reg.VLT_STAT_RNG_OK, Reg.VLT_STAT_RNGFAIL] 202 s t)

/-- R321, R324, R328 to R330, R335 to R337, R342, R454: how streams start and how their segments are read. GO_FLASH and GO_PORT start a partial stream when the
loader is idle in CONFIGURED and are refused with BUSYREJ otherwise. A service-port word enters the FIFO of an active port stream, starts a full
stream in WAIT_PORT, and is refused with SPOVR and an error response otherwise; CFG_STREAM offers the same word from the TAP. The boot load takes
the copy with the higher SEQNUM, A on a tie, and waits for the port with none. While the loader's clock runs and no FLASH command is in progress, a partial header declares its region, or fails with 0x0F. A
segment that verifies leaves its body, the next key and what END digests; one whose tag does not verify fails the stream with 0x05. ABORT ends a stream with 0x12: a partial one leaves its code and its region in escrow, a full one returns to the end of BIST, where its failure is recorded (log 139). A header in flash below 0x10_0000 is not read: 0x04 (log 140). -/
def Obligations.StreamsStart : Prop :=
  ∀ s : Machine.State,
    (s.alive = true →
      let idle := s.ld.src = 0 ∧ s.ld.rfxq = [] ∧ s.getF Reg.CFG_STAT_STATE = 3
      (∀ foff : BitVec 22,
        (idle → ∃ t, Machine.exec (.goFlash foff) s = .next t ∧ t.getF Reg.CFG_STAT_STATE = 4 ∧ t.getF Reg.CFG_STAT_PSRC = 1 ∧
          t.getF Reg.CFG_PCMD_FOFF = foff.toNat ∧ t.ld = { s.ld.idle with src := 3, base := 1024 * foff.toNat } ∧
          BitsBut [Reg.CFG_STAT_STATE, Reg.CFG_STAT_PSRC, Reg.CFG_PCMD_FOFF] s t ∧ { t with regs := s.regs, cyc := s.cyc, ld := s.ld } = s) ∧
        (¬ idle → ∃ t, Machine.exec (.goFlash foff) s = .next t ∧ t.flag Reg.CFG_STAT_BUSYREJ = true ∧ t.getF Reg.CFG_PCMD_FOFF = foff.toNat ∧
          OnlyBits [Reg.CFG_STAT_BUSYREJ, Reg.CFG_PCMD_FOFF] s t)) ∧
      (idle → ∃ t, Machine.exec .goPort s = .next t ∧ t.getF Reg.CFG_STAT_STATE = 4 ∧ t.getF Reg.CFG_STAT_PSRC = 2 ∧
        t.ld = { s.ld.idle with src := 4, base := 0 } ∧ BitsBut [Reg.CFG_STAT_STATE, Reg.CFG_STAT_PSRC] s t ∧
        { t with regs := s.regs, cyc := s.cyc, ld := s.ld } = s) ∧
      (¬ idle → ∃ t, Machine.exec .goPort s = .next t ∧ t.flag Reg.CFG_STAT_BUSYREJ = true ∧ OnlyBits [Reg.CFG_STAT_BUSYREJ] s t)) ∧
    (s.alive = true →
      (s.ld.src = 0 → ∃ t, Machine.exec .streamAbort s = .next t ∧ OnlyBits [] s t) ∧
      (s.ld.src ≠ 0 → s.ld.full = false → ∃ t, Machine.exec .streamAbort s = .next t ∧ t.getF Reg.CFG_ERR_CODE = 0x12 ∧
        t.getF Reg.CFG_ERR_SEG = (if s.ld.open_ then s.ld.index % 2 ^ 24 else 0xFFFFFF) ∧ t.flag Reg.CFG_STAT_ABORT = true ∧
        t.getF Reg.CFG_CNT_ABORT_CNT = min (s.getF Reg.CFG_CNT_ABORT_CNT + 1) 65535 ∧ t.getF Reg.CFG_STAT_STATE = 3 ∧ t.getF Reg.CFG_STAT_PSRC = 0 ∧
        t.raised = (if s.ld.declared then (s.raiseEv 224).raiseEv 226 else s.raiseEv 224).raised ∧ t.ld = s.ld.idle ∧
        t.outst = s.outst.map (fun o => if o.id = 0x205 then { o with note := 0 } else o) ∧
        BitsBut [wholeReg Reg.CFG_ERR, Reg.CFG_STAT_ABORT, Reg.CFG_CNT_ABORT_CNT, Reg.CFG_STAT_STATE, Reg.CFG_STAT_PSRC, Reg.CFG_SPSTAT_SPACE] s t ∧
        { t with regs := s.regs, cyc := s.cyc, raised := s.raised, ld := s.ld, outst := s.outst } = s) ∧
      (s.ld.src ≠ 0 → s.ld.full = true → ∃ t, Machine.exec .streamAbort s = .next t ∧ t.phase = .start ∧ t.raised = (s.raiseEv 224).raised ∧ t.ld.src = 0 ∧
        t.getF Reg.CFG_ERR_CODE = 0x12 ∧ t.getF Reg.CFG_ERR_SEG = (if s.ld.open_ then s.ld.index % 2 ^ 24 else 0xFFFFFF) ∧
        t.flag Reg.CFG_STAT_ABORT = true ∧ t.getF Reg.CFG_CNT_ABORT_CNT = 1 ∧
        (s.ld.src = 1 → t.ld.failed.testBit 0 = true) ∧ (s.ld.src = 2 → t.ld.failed.testBit 1 = true) ∧
        (s.ld.src = 1 ∨ s.ld.src = 2 → t.flag Reg.CFG_STAT_FALLBACK = true ∧ t.getF Reg.CFG_STAT_STATE = 0) ∧
        (s.ld.src ≠ 1 → s.ld.src ≠ 2 → t.getF Reg.CFG_STAT_STATE = 2) ∧
        (∀ sec p, sec < 240 → p < 8 → t.planeState sec p = 0) ∧ t.keyw = [] ∧ t.winKey = [] ∧ t.cfgw = [] ∧ t.getF Reg.RST_CAUSE_CAUSE = s.getF Reg.RST_CAUSE_CAUSE ∧
        t.flash = s.flash ∧ t.fuses = s.fuses)) ∧
    (∀ v : Word32,
      (s.phase = .run ∨ s.phase = .start →
        (s.ld.fifo.length < 256 → s.ld.src = 4 → s.getF Reg.CFG_STAT_STATE ≠ 2 → ∃ t, Machine.exec (.servicePortWord v) s = .next t ∧
          t.ld = { s.ld with fifo := s.ld.fifo ++ [v] } ∧ t.getF Reg.CFG_SPSTAT_SPACE = 256 - (s.ld.fifo.length + 1) ∧ t.resp = ⟨0, 0⟩ ∧
          BitsBut [Reg.CFG_SPSTAT_SPACE] s t ∧ { t with regs := s.regs, cyc := s.cyc, ld := s.ld, resp := s.resp } = s) ∧
        (s.ld.fifo.length < 256 → s.getF Reg.CFG_STAT_STATE = 2 → ∃ t, Machine.exec (.servicePortWord v) s = .next t ∧
          t.ld = { s.ld.idle with src := 4, full := true, fifo := [v] } ∧ t.getF Reg.CFG_STAT_STATE = 1 ∧ t.getF Reg.CFG_STAT_PSRC = 2 ∧
          t.getF Reg.CFG_SPSTAT_SPACE = 255 ∧ t.resp = ⟨0, 0⟩ ∧
          BitsBut [Reg.CFG_STAT_STATE, Reg.CFG_STAT_PSRC, Reg.CFG_SPSTAT_SPACE] s t ∧ { t with regs := s.regs, cyc := s.cyc, ld := s.ld, resp := s.resp } = s) ∧
        (s.ld.fifo.length = 256 ∨ (s.ld.src ≠ 4 ∧ s.getF Reg.CFG_STAT_STATE ≠ 2) → ∃ t, Machine.exec (.servicePortWord v) s = .next t ∧
          t.flag Reg.CFG_STAT_SPOVR = true ∧ t.resp = ⟨1, 0⟩ ∧ BitsBut [Reg.CFG_STAT_SPOVR] s t ∧ { t with regs := s.regs, cyc := s.cyc, resp := s.resp } = s) ∧
        (∃ t, Machine.exec (.servicePortWord v) (Machine.setIr s 0x24) = .next t ∧
          Machine.exec (.cfgStream v) s = .next { t with resp := s.resp })) ∧
      (s.phase = .waiting ∨ s.phase = .bistHeld ∨ s.phase = .hold ∨ s.phase = .integrity →
        Machine.exec (.cfgStream v) s = .next (Machine.setIr s 0x24))) ∧
    (s.alive = true → s.ld.src = 0 → s.phase = .start → s.getF Reg.RST_STAGE_STEP = 5 → s.getF Reg.CFG_STAT_STATE = 0 → s.ld.flOn = false →
      let a := (Machine.copyHeader s 1).2
      let b := (Machine.copyHeader (Machine.copyHeader s 1).1 2).2
      let seq := fun (h : List Nat) => Machine.leNat ((h.drop 8).take 8)
      let opens := fun (t : Machine.State) (src base : Nat) (h : List Nat × List Nat) => t.ld.src = src ∧ t.ld.base = base ∧ t.ld.hdr = h.1 ∧
        t.ld.key = h.2 ∧ t.ld.len = Machine.leNat ((h.1.drop 16).take 8) ∧ t.ld.pos = 128 ∧ t.ld.index = 0 ∧ t.ld.open_ = true ∧ t.ld.full = true ∧
        t.getF Reg.CFG_STAT_STATE = 1 ∧ t.getF Reg.CFG_STAT_PSRC = 1
      let regs := [Reg.CFG_STAT_A_VALID, Reg.CFG_STAT_B_VALID, Reg.CFG_STAT_STATE, Reg.CFG_STAT_PSRC, Reg.FL_ECC_UNC_CNT, Reg.FL_ECC_COR_CNT]
      ∃ t, Machine.exec .streamHeader s = .next t ∧ t.flag Reg.CFG_STAT_A_VALID = a.isSome ∧ t.flag Reg.CFG_STAT_B_VALID = b.isSome ∧
        BitsBut regs s t ∧ { t with regs := s.regs, cyc := s.cyc, ld := s.ld } = s ∧
        (∀ x, a = some x → s.ld.failed.testBit 0 = false →
          b = none ∨ s.ld.failed.testBit 1 = true ∨ (∃ y, b = some y ∧ seq y.1 ≤ seq x.1) → opens t 1 0x20000000 x) ∧
        (∀ y, b = some y → s.ld.failed.testBit 1 = false →
          a = none ∨ s.ld.failed.testBit 0 = true ∨ (∃ x, a = some x ∧ seq x.1 < seq y.1) → opens t 2 0x90000000 y) ∧
        (a = none ∨ s.ld.failed.testBit 0 = true → b = none ∨ s.ld.failed.testBit 1 = true → t.getF Reg.CFG_STAT_STATE = 2 ∧ t.ld = s.ld)) ∧
    (s.ld.src = 3 →
      (s.ld.flOn = true → Machine.exec .streamHeader s = .next s ∧ Machine.exec .segment s = .next s) ∧
      (s.alive = true → Machine.tlrClock s = true → s.ld.flOn = false → s.ld.open_ = false → (Machine.ownerKey s).isSome = true →
        s.ld.base < 0x100000 → Machine.exec .streamHeader s = .next (Machine.streamFail s 4 0xFFFFFF))) ∧
    (∀ s1 hdr key, s.alive = true → Machine.tlrClock s = true → s.ld.flOn = false → s.ld.src = 3 → s.ld.full = false → s.ld.open_ = false →
      Machine.flashHeader s s.ld.base (2 ^ 32 - s.ld.base) = (s1, .ok (hdr, key)) → hdr.getD 5 0 ≠ 0 →
      let secs := Machine.declaredSecs hdr
      let planes := Machine.declaredPlanes hdr
      let free := secs ≠ [] ∧ planes ≠ [] ∧ ∀ sec ∈ secs, ∀ p ∈ planes, Machine.blockedPlane s1 sec p = false
      (free → ∃ t, Machine.exec .streamHeader s = .next t ∧ t.ld.open_ = true ∧ t.ld.key = key ∧ t.ld.hdr = hdr ∧ t.ld.secs = secs ∧ t.ld.planes = planes ∧
        (∀ sec p, sec < 240 → p < 8 → t.planeState sec p = if sec ∈ secs ∧ p ∈ planes then 2 else s.planeState sec p) ∧
        { t with regs := s.regs, cyc := s.cyc, ld := s.ld, sreg := s.sreg } = s) ∧
      (¬ free → ∃ t, Machine.exec .streamHeader s = .next t ∧ t.flag Reg.CFG_STAT_REGION_REF = true ∧ t.getF Reg.CFG_ERR_CODE = 15 ∧
        t.raised = ((s.raiseEv 224).raiseEv 226).raised ∧ t.ld.src = 0 ∧ (∀ sec p, sec < 240 → p < 8 → t.planeState sec p = s.planeState sec p))) ∧
    (∀ s1 s2 h seg, s.alive = true → Machine.tlrClock s = true → s.ld.flOn = false → s.ld.src = 1 ∨ s.ld.src = 2 ∨ s.ld.src = 3 → s.ld.open_ = true → s.ld.seg = none → s.ld.rfxq = [] →
      Machine.ldOut s = 0 →
      let a := s.ld.base + s.ld.pos
      let n := 80 + Machine.leNat ((h.drop 4).take 4)
      Machine.flashBytes s a 32 = (s1, some h) → Machine.flashBytes s a n = (s2, some seg) → s.ld.pos + 32 ≤ s.ld.len + 128 → s.ld.pos + n ≤ s.ld.len + 128 →
      let ty := seg.getD 0 0
      let plain := Machine.segPlain s.ld.key seg
      (Machine.segTagOk s.ld.key seg = true → Machine.leNat ((seg.drop 8).take 4) = s.ld.index → Machine.typeAllowed s.ld.full ty = true →
        Machine.lenAllowed ty (seg.length - 80) = true → Machine.exec .segment s = .next { s2 with ld := { s.ld with
          pos := s.ld.pos + seg.length, key := plain.take 32, segKey := s.ld.key, segAt := a, seg := some (ty, plain.drop 32),
          seen := if ty = 15 then s.ld.seen else s.ld.seen ++ seg.take 32 ++ plain.drop 32 } }) ∧
      (Machine.segTagOk s.ld.key seg = false → Machine.exec .segment s = .next (Machine.streamFail s2 5 s.ld.index)) ∧
      (Machine.segTagOk s.ld.key seg = true → Machine.leNat ((seg.drop 8).take 4) ≠ s.ld.index ∨ Machine.typeAllowed s.ld.full ty = false ∨
        Machine.lenAllowed ty (seg.length - 80) = false → Machine.exec .segment s = .next (Machine.streamFail s2 6 s.ld.index)))

/-- R325 to R327, R332, R337 to R339, R348, R353, R389: what the records of a verified segment do while the loader's clock runs. BANKINIT, FIRMWARE and TELLER words leave as network
writes of initiator 0x205 to their places, up to the 64 that may be outstanding; the record is done when its last word has left. HARDBLK words
leave as the three numbered writes of an indirect port, one access at a time, store words in user mode only while the clearing window is open; a word
served goes on to the next, an abandoned one is issued again. A REGS word leaves alone once every write before it is answered. A retained bank
is skipped; a malformed record fails with 0x07, a refused unwrap with 0x0B. Plane blocks are written, marked loaded; the vertical-link check
fails with 0x0A, a block outside the region with 0x0E. END waits for the answers and completes a full stream: planes that received a block are
READY and the image is named; a digest that differs fails with 0x0D, an incomplete region with 0x14; a complete region leaves escrow, and no sweep in
progress reads its planes. -/
def Obligations.StreamRecords : Prop :=
  ∀ s : Machine.State, s.alive = true → Machine.tlrClock s = true →
    let failed := fun (code : Nat) => Machine.streamFail s code s.ld.index
    let taken := fun (ty n : Nat) (body : List Nat) (t : Machine.State) =>
      let l := { s.ld with word := 0, busy := false, port := none }
      t.ld = if body.length ≤ n then { l with seg := none, index := s.ld.index + 1 } else { l with seg := some (ty, body.drop n) }
    let request := fun (u : Machine.State) (size addr data note aux : Nat) => (Machine.issue u (Machine.mkReq 1 size 0x205 0 addr data) note aux).1
    let word := fun (body : List Nat) (i : Nat) => BitVec.ofNat 64 (Machine.leNat ((body.drop (8 + 8 * i)).take 8))
    let cells := fun (body : List Nat) (key count : Nat) (a b : Tab CodeWord) => ∀ k, Machine.tget (fun _ => 0) b k =
      if key ≤ k ∧ k < key + count then Machine.cwEncode (word body (k - key)) else Machine.tget (fun _ => 0) a k
    let desc := fun (body : List Nat) => Machine.leNat (body.take 8)
    let posted := fun (ty : Nat) (body : List Nat) (at_ count : Nat) (t : Machine.State) =>
      let n := min count (s.ld.word + (64 - Machine.ldOut s))
      let u := (List.range' s.ld.word (n - s.ld.word)).foldl (fun u i => request u 3 (at_ + 8 * i) (word body i).toNat 1 0) s
      { t with ld := s.ld } = { u with ld := s.ld } ∧ (if n = count then taken ty (8 + 8 * count) body t else t.ld = { s.ld with word := n })
    (∀ body, s.ld.seg = some (3, body) →
      let d := desc body
      let b := Machine.nbits d 10 0
      let start := Machine.nbits d 23 12
      let count := Machine.nbits d 36 24
      let fits := b < 1920 ∧ Machine.nbits d 11 11 = 0 ∧ d / 2 ^ 37 = 0 ∧ 1 ≤ count ∧ start + count ≤ 4096 ∧ 8 + 8 * count ≤ body.length
      (fits → b ∉ s.aon.retained → s.ld.word < count → ∃ t, Machine.exec (.bankinitRecord ()) s = .next t ∧
        posted 3 body (0x400000000 + 0x8000 * b + 8 * start) count t) ∧
      (fits → b ∈ s.aon.retained → ∃ t, Machine.exec (.bankinitRecord ()) s = .next t ∧ taken 3 (8 + 8 * count) body t ∧ { t with ld := s.ld } = s) ∧
      (¬ fits → Machine.exec (.bankinitRecord ()) s = .next (failed 7))) ∧
    (∀ body, s.ld.seg = some (4, body) →
      let d := desc body
      let start := Machine.nbits d 18 0
      let count := Machine.nbits d 38 19
      let fits := d / 2 ^ 39 = 0 ∧ 1 ≤ count ∧ count ≤ 131067 ∧ start + count ≤ 524288 ∧ 8 + 8 * count ≤ body.length
      (fits → s.ld.word < count → ∃ t, Machine.exec (.firmwareRecord ()) s = .next t ∧ posted 4 body (0x600000000 + 8 * start) count t) ∧
      (¬ fits → Machine.exec (.firmwareRecord ()) s = .next (failed 7))) ∧
    (∀ body, s.ld.seg = some (5, body) →
      let d := desc body
      let sec := Machine.nbits d 7 0
      let start := Machine.nbits d 20 9
      let count := Machine.nbits d 33 21
      let fits := sec < 240 ∧ d / 2 ^ 34 = 0 ∧ 1 ≤ count ∧ start + count ≤ 4096 ∧ 8 + 8 * count ≤ body.length
      (fits → s.ld.word < count → ∃ t, Machine.exec (.tellerRecord ()) s = .next t ∧
        posted 5 body (0x500000000 + 0x10000 * sec + 0x8000 * Machine.nbits d 8 8 + 8 * start) count t) ∧
      (¬ fits → Machine.exec (.tellerRecord ()) s = .next (failed 7))) ∧
    (∀ body, s.ld.seg = some (2, body) →
      (Machine.hardDesc body = none → Machine.exec (.hardblkRecord ()) s = .next (failed 7)) ∧
      (∀ sec kind start count, Machine.hardDesc body = some (sec, kind, start, count) →
        let inside := s.ld.full = true ∨ (sec ∈ s.ld.secs ∧ (kind = 0 → ∀ i, i < count → (start + i) % 8 ∈ s.ld.planes))
        let at_ := 0x700500000 + 0x1000 * sec + (if kind = 0 then 0x100 else 0x200)
        let w := (word body s.ld.word).toNat
        let place := start + s.ld.word
        let sel := if kind = 0 then 2 ^ 31 + 2 ^ 30 + 2 ^ 29 + 2 ^ 8 * (place % 8) + place / 8 else 2 ^ 31 + 2 ^ 30 + place
        let pending := if kind = 0 then s.flag (Reg.SEC_HB_STAT_ACC_BUSY sec) else s.flag (Reg.SEC_MT_STAT_BUSY sec)
        let done := { s with ld := { s.ld with word := s.ld.word + 1, busy := false, port := none } }
        (¬ inside → Machine.exec (.hardblkRecord ()) s = .next (failed 14)) ∧
        (inside → s.ld.busy = false → pending = false → (kind = 1 → s.user = true → s.clrOpen = true) → Machine.ldOut s ≤ 61 →
          s.ld.word < count →
          let n := s.ld.seq + 1
          let u := request (request (request s 2 (at_ + 4) (w % 2 ^ 32 * 2 ^ 32) 1 n) 2 (at_ + 8) (w / 2 ^ 32) 1 n) 2 at_ sel 3 n
          Machine.exec (.hardblkRecord ()) s = .next { u with ld := { u.ld with busy := true, seq := n } }) ∧
        (inside → s.ld.busy = false → pending = true ∨ (kind = 1 ∧ s.user = true ∧ s.clrOpen = false) ∨ 61 < Machine.ldOut s →
          Machine.exec (.hardblkRecord ()) s = .next s) ∧
        (inside → s.ld.busy = true → (∀ a b r, s.ld.port ≠ some (a, b, some r)) → Machine.exec (.hardblkRecord ()) s = .next s) ∧
        (∀ a b, inside → s.ld.busy = true → s.ld.port = some (a, b, some false) → s.ld.word < count → Machine.exec (.hardblkRecord ()) s =
          .next { s with ld := { s.ld with busy := false, port := none } }) ∧
        (∀ a b, inside → s.ld.busy = true → s.ld.port = some (a, b, some true) →
          (s.ld.word + 1 < count → Machine.exec (.hardblkRecord ()) s = .next done) ∧
          (count ≤ s.ld.word + 1 → ∃ t, Machine.exec (.hardblkRecord ()) s = .next t ∧ taken 2 (8 + 8 * count) body t ∧ { t with ld := s.ld } = s)))) ∧
    (∀ body, s.ld.seg = some (6, body) →
      let e := Machine.nbits (desc body) 5 0
      let key := (Machine.ownerKey s).bind (fun ko => Machine.keyUnwrap (Machine.deriveKey ko 0x4B) ((body.drop 8).take 40))
      (e = 0 ∨ desc body / 64 ≠ 0 ∨ body.length < 48 → Machine.exec .keysRecord s = .next (failed 7)) ∧
      (e ≠ 0 → desc body / 64 = 0 → 48 ≤ body.length →
        (key = none ∨ Machine.keyInUse s e = true → Machine.exec .keysRecord s = .next (failed 11)) ∧
        (∀ k, key = some k → Machine.keyInUse s e = false → ∃ t, Machine.exec .keysRecord s = .next t ∧ taken 6 48 body t ∧
          t.keyw = (Machine.fillKey s e k).keyw ∧ t.flag (Machine.keyValBit e) = true ∧ BitsBut [Machine.keyValBit e] s t ∧
          { t with regs := s.regs, cyc := s.cyc, keyw := s.keyw, ld := s.ld } = s))) ∧
    (∀ body, s.ld.seg = some (7, body) →
      let d := desc body
      let fits := d % 4 = 0 ∧ Machine.nbits d 31 24 = 0 ∧ 8 ≤ body.length
      (¬ fits → Machine.exec (.regsRecord ()) s = .next (failed 7)) ∧
      (fits → s.ld.busy = false → Machine.ldOut s = 0 →
        let o := d % 2 ^ 24
        let u := request s 2 (0x700000000 + o) (d / 2 ^ 32 * 2 ^ (8 * (o % 8))) 2 0
        Machine.exec (.regsRecord ()) s = .next { u with ld := { u.ld with busy := true } }) ∧
      (fits → s.ld.busy = true ∨ Machine.ldOut s ≠ 0 → Machine.exec (.regsRecord ()) s = .next s)) ∧
    (∀ body, s.ld.seg = some (1, body) →
      (Machine.framesDesc body = none → ∀ bad, Machine.exec (.framesRecord bad) s = .next (failed 7)) ∧
      (∀ first count, Machine.framesDesc body = some (first, count) →
        let sec := first / 1152
        let allowed := fun (b : Nat) => s.ld.full = true ∨ (sec ∈ s.ld.secs ∧ b % 1152 / 144 ∈ s.ld.planes)
        (¬ allowed first → ∀ bad, Machine.exec (.framesRecord bad) s = .next (failed 14)) ∧
        (allowed first → Machine.vlinkClash s first (Machine.blockWords body 0) = true → ∀ bad,
          Machine.exec (.framesRecord bad) s = .next (failed 10)) ∧
        ((∀ i, i < count → allowed (first + i) ∧ Machine.vlinkClash s (first + i) (Machine.blockWords body i) = false) →
          ∃ t, Machine.exec (.framesRecord none) s = .next t ∧ t.ld.seg = none ∧ t.ld.index = s.ld.index + 1 ∧
            cells body (320 * first) (320 * count) s.cfgw t.cfgw ∧
            (∀ b, Machine.tget (fun _ => 0) t.loaded b = if first ≤ b ∧ b < first + count then 7 else Machine.tget (fun _ => 0) s.loaded b) ∧
            (∀ b, Machine.tget (fun _ => false) t.ld.got b = (decide (first ≤ b ∧ b < first + count) || Machine.tget (fun _ => false) s.ld.got b)) ∧
            BitsBut [Reg.CFG_STAT_RFX_OVF, Reg.CFG_STAT_RFX_BUSY] s t ∧
            { t with regs := s.regs, cyc := s.cyc, cfgw := s.cfgw, loaded := s.loaded, scrub := s.scrub, ld := s.ld } = s))) ∧
    (∀ body, s.ld.seg = some (15, body) →
      let ends := s.ld.pos ≥ 128 + s.ld.len
      let match_ := Machine.sha384 (s.ld.hdr.take 112 ++ s.ld.seen) = body
      (Machine.ldOut s ≠ 0 → Machine.exec .endSegment s = .next s) ∧ (Machine.ldOut s = 0 →
      (¬ ends → Machine.exec .endSegment s = .next (failed 0x13)) ∧
      (ends → ¬ match_ → Machine.exec .endSegment s = .next (failed 0x0D)) ∧
      (ends → match_ → s.ld.full = true → ∃ t, Machine.exec .endSegment s = .next t ∧
        (∀ sec p, sec < 240 → p < 8 → t.planeState sec p =
          if (∃ kv ∈ s.ld.got, kv.1 / 144 = 8 * sec + p) then 1 else s.planeState sec p) ∧
        t.getF Reg.CFG_STAT_STATE = 3 ∧ t.getF Reg.CFG_STAT_COPY = (if s.ld.src = 1 then 1 else if s.ld.src = 2 then 2 else 0) ∧
        (t.reg Reg.CFG_SEQ_LO).toNat + 2 ^ 32 * (t.reg Reg.CFG_SEQ_HI).toNat = Machine.leNat ((s.ld.hdr.drop 8).take 8) % 2 ^ 64 ∧
        t.flag Reg.CFG_STAT_DONE_OK = true ∧ t.raised = (s.raiseEv 224).raised ∧ t.ld = s.ld.idle ∧ { t with regs := s.regs, cyc := s.cyc, raised := s.raised, ld := s.ld } = s) ∧
      (ends → match_ → s.ld.full = false → (∃ b ∈ Machine.regionBlocks s.ld, Machine.tget (fun _ => false) s.ld.got b = false) →
        Machine.exec .endSegment s = .next (failed 0x14)) ∧
      (ends → match_ → s.ld.full = false → (∀ b ∈ Machine.regionBlocks s.ld, Machine.tget (fun _ => false) s.ld.got b = true) →
        (∀ kv ∈ s.ld.got, kv.1 ∉ (s.scrubOf (kv.1 / 1152)).pend ∧ kv.1 ∉ (s.scrubOf (kv.1 / 1152)).failed) →
        s.ld.secs.Nodup → (∀ sec ∈ s.ld.secs, sec < 240) → (∀ p ∈ s.ld.planes, p < 8) → ∃ t, Machine.exec .endSegment s = .next t ∧
          (∀ sec p, sec < 240 → p < 8 → t.planeState sec p = if sec ∈ s.ld.secs ∧ p ∈ s.ld.planes then 1 else s.planeState sec p) ∧
          t.getF Reg.CFG_STAT_STATE = 3 ∧ t.flag Reg.CFG_STAT_DONE_OK = true ∧ t.raised = (s.raiseEv 224).raised ∧ t.ld = s.ld.idle ∧
          (∀ sec, t.scrubOf sec = if sec ∈ s.ld.secs then { s.scrubOf sec with skip := (s.scrubOf sec).skip ++ s.ld.planes } else s.scrubOf sec) ∧
          { t with regs := s.regs, cyc := s.cyc, raised := s.raised, ld := s.ld, sreg := s.sreg, scrub := s.scrub } = s)))

/-- R332, R341, R343, R357, R358, R363, R389, R452: release of the steward and of DONE, refetches, FLASH commands. The release starts the four cores (held
under connect-under-reset) and sets STEP 6; DONE follows unless DONE_HOLD keeps it low, and then waits for DONE_GO. A refetch that verifies writes its
block again and may end the repair, or let a FAILED sector go in the slot after; one that fails is counted, raises 224 and puts the sector in FAILED;
RETRY asks for every failed block again. A FLASH command starts when the loader does not read, holds up refetches, acts and completes with DONE and event 224; PROGRAM needs an erased page; the active copy is protected. -/
def Obligations.ReleaseRefetchAndFlash : Prop :=
  ∀ s : Machine.State,
    (∀ dt, s.phase = .start → 3 ≤ s.getF Reg.CFG_STAT_STATE → Machine.anyInit s = false → s.ld.released = false →
      ∃ t, Machine.exec (.stewardRelease dt) s = .next t ∧ t.phase = .run ∧ t.getF Reg.RST_STAGE_STEP = 6 ∧
        t.getF Reg.RST_STAGE_RELEASE_T = min (s.aon.ticks + dt - s.aon.startAt) 0xFFFFFF ∧
        t.ld = { s.ld with released := true, doneCur := s.aon.cur } ∧ t.aon.ticks = s.aon.ticks + dt ∧ t.aon.cur = false ∧ t.aon.retained = [] ∧
        (∀ i, i < 4 → t.core i = { Machine.Core.reset with on := true, held := s.aon.cur, cycle0 := s.stwCycle }) ∧ t.stores = s.stores ∧ t.fuses = s.fuses ∧ t.time = s.time) ∧
    (
      let released := fun (t : Machine.State) => t.ld = { s.ld with doneRel := true } ∧ t.getF Reg.RST_STAGE_STEP = (if s.user then 8 else 7) ∧
        BitsBut [Reg.RST_STAGE_STEP] s t ∧ { t with regs := s.regs, cyc := s.cyc, ld := s.ld } = s
      (s.ld.released = true → s.ld.doneRel = false → s.ld.doneCur = false →
        (s.flag Reg.CFG_CTRL_DONE_HOLD = false → ∃ t, Machine.exec .doneRelease s = .next t ∧ released t) ∧
        (s.flag Reg.CFG_CTRL_DONE_HOLD = true → Machine.exec .doneRelease s = .next s) ∧
        (s.flag Reg.CFG_CTRL_DONE_HOLD = true → s.alive = true → ∃ t, Machine.exec .doneGo s = .next t ∧ released t)) ∧
      (s.ld.released = false ∨ s.ld.doneRel = true ∨ s.ld.doneCur = true → Machine.exec .doneRelease s = .next s) ∧
      (s.ld.released = false ∨ s.ld.doneRel = true ∨ s.ld.doneCur = true ∨ s.flag Reg.CFG_CTRL_DONE_HOLD = false → s.alive = true →
        ∃ t, Machine.exec .doneGo s = .next t ∧ OnlyBits [] s t)) ∧
    (∀ b rest bad, s.ld.flOn = true → s.ld.rfxq = b :: rest → Machine.exec (.refetch bad) s = .next s) ∧
    (∀ b rest bad, s.alive = true → Machine.tlrClock s = true → s.ld.flOn = false → s.ld.seg = none → s.ld.rfxq = b :: rest → b < 276480 →
      let sec := b / 1152
      let x := s.scrubOf sec
      let st := s.getF (Reg.SCRB_SSTAT_STATE sec)
      let pend := x.pend.filter (· != b)
      let failed := x.failed.filter (· != b)
      let due := if failed ≠ [] then [] else if st = 2 then [(s.time.slots + 1, 4)]
        else if st ≠ 0 ∧ pend = [] ∧ x.policy = 0 then [(s.time.slots + 1, 2)] else []
      let find := s.ld.rfx.find? (fun e => e.blocks.contains b)
      let regs := [Reg.CFG_RFX_RFX_CNT, Reg.CFG_RFX_RFX_FAIL_CNT, Reg.CFG_STAT_RFX_BUSY, Reg.CFG_STAT_REFETCH_FAIL, Reg.SCRB_SSTAT_STATE sec,
        Reg.FL_ECC_UNC_CNT, Reg.FL_ECC_COR_CNT]
      let counted := fun (t : Machine.State) => t.ld = { s.ld with rfxq := rest } ∧ t.flag Reg.CFG_STAT_RFX_BUSY = (!rest.isEmpty) ∧
        t.getF Reg.CFG_RFX_RFX_CNT = min (s.getF Reg.CFG_RFX_RFX_CNT + 1) 65535 ∧ BitsBut regs s t
      (find = none ∨ (∃ e, find = some e ∧ ((Machine.refetchWords s e b).2 = none ∨ bad = true ∨
          ∃ words, (Machine.refetchWords s e b).2 = some words ∧ Machine.vlinkClash s b words = true)) → ∃ t, Machine.exec (.refetch bad) s = .next t ∧ counted t ∧
        t.getF Reg.CFG_RFX_RFX_FAIL_CNT = min (s.getF Reg.CFG_RFX_RFX_FAIL_CNT + 1) 65535 ∧ t.flag Reg.CFG_STAT_REFETCH_FAIL = true ∧
        t.raised = (s.raiseEv 224).raised ∧ t.getF (Reg.SCRB_SSTAT_STATE sec) = 2 ∧
        t.scrubOf sec = { x with pend := pend, failed := failed ++ [b], due := x.due ++ [(s.time.slots + 1, 3)] } ∧
        { t with regs := s.regs, cyc := s.cyc, raised := s.raised, scrub := s.scrub, ld := s.ld } = s) ∧
      (∀ e words, find = some e → bad = false → (Machine.refetchWords s e b).2 = some words → words.length = 320 → Machine.vlinkClash s b words = false →
        ∃ t, Machine.exec (.refetch bad) s = .next t ∧ counted t ∧ (∀ k, Machine.tget (fun _ => 0) t.cfgw k =
          if 320 * b ≤ k ∧ k < 320 * b + 320 then Machine.cwEncode (words.getD (k - 320 * b) 0) else Machine.tget (fun _ => 0) s.cfgw k) ∧
          Machine.tget (fun _ => 0) t.loaded b = 7 ∧
          t.getF (Reg.SCRB_SSTAT_STATE sec) = (if st ≠ 2 ∧ failed = [] ∧ pend = [] then 0 else st) ∧
          t.scrubOf sec = { x with fixes := x.fixes.filter (fun e => e.2.1 / 320 != b), pend := pend, failed := failed, due := x.due ++ due } ∧
          t.raised = s.raised ∧ (∀ b', b' ≠ b → Machine.tget (fun _ => 0) t.loaded b' = Machine.tget (fun _ => 0) s.loaded b') ∧
          { t with regs := s.regs, cyc := s.cyc, cfgw := s.cfgw, loaded := s.loaded, scrub := s.scrub, ld := s.ld } = s)) ∧
    (∀ sec : Fin 240, s.alive = true →
      let x := s.scrubOf sec.val
      let ask := x.failed.filter (fun b => !x.pend.contains b)
      (s.getF (Reg.SCRB_SSTAT_STATE sec.val) = 2 → ∃ t, Machine.exec (.scrubRetry sec) s = .next t ∧ t.ld = { s.ld with rfxq := s.ld.rfxq ++ ask } ∧
        t.scrubOf sec.val = { x with pend := x.pend ++ ask } ∧ t.flag Reg.CFG_STAT_RFX_BUSY = (!(s.ld.rfxq ++ ask).isEmpty) ∧
        BitsBut [Reg.CFG_STAT_RFX_BUSY] s t ∧ { t with regs := s.regs, cyc := s.cyc, scrub := s.scrub, ld := s.ld } = s) ∧
      (s.getF (Reg.SCRB_SSTAT_STATE sec.val) ≠ 2 → Machine.exec (.scrubRetry sec) s = .next s)) ∧
    (s.alive = true →
      let page := s.getF Reg.FL_ADDR_PAGE
      let started := fun (op : Nat) (t : Machine.State) => t.flag Reg.FL_STAT_BUSY = true ∧ t.getF Reg.FL_CMD_OP = op ∧
        t.ld = { s.ld with flCmd := some (op, page), flOn := s.ld.flOn || !Machine.loaderReads s } ∧ BitsBut [Reg.FL_STAT_BUSY, Reg.FL_CMD_OP] s t ∧ { t with regs := s.regs, cyc := s.cyc, ld := s.ld } = s
      let guarded := fun (op : Nat) (t : Machine.State) => t.flag Reg.FL_STAT_PROT = true ∧ t.getF Reg.FL_CMD_OP = op ∧
        OnlyBits [Reg.FL_STAT_PROT, Reg.FL_CMD_OP] s t
      let ignored := fun (op : Nat) (t : Machine.State) => t.getF Reg.FL_CMD_OP = op ∧ OnlyBits [Reg.FL_CMD_OP] s t
      (s.flag Reg.FL_STAT_BUSY = true → (∃ t, Machine.exec .flashRead s = .next t ∧ ignored 0 t) ∧
        (∃ t, Machine.exec .flashProgram s = .next t ∧ ignored 1 t) ∧ (∃ t, Machine.exec .flashErase s = .next t ∧ ignored 2 t)) ∧
      (s.flag Reg.FL_STAT_BUSY = false → (∃ t, Machine.exec .flashRead s = .next t ∧ started 0 t) ∧
        (Machine.activeCopy s (page * 512) = false → ∃ t, Machine.exec .flashProgram s = .next t ∧ started 1 t) ∧
        (Machine.activeCopy s (page * 512) = true → ∃ t, Machine.exec .flashProgram s = .next t ∧ guarded 1 t) ∧
        (Machine.activeCopy s (page / 512 * 0x40000) = false → ∃ t, Machine.exec .flashErase s = .next t ∧ started 2 t) ∧
        (Machine.activeCopy s (page / 512 * 0x40000) = true → ∃ t, Machine.exec .flashErase s = .next t ∧ guarded 2 t)) ∧
      (∀ op page failed, s.ld.flCmd = some (op, page) →
        (s.ld.flOn = false → Machine.exec (.flashCommandComplete failed) s = .next s) ∧
        (s.ld.flOn = true → ∃ t, Machine.exec (.flashCommandComplete failed) s = .next t ∧ t.flag Reg.FL_STAT_BUSY = false ∧
          t.flag Reg.FL_STAT_DONE = true ∧ t.raised = (s.raiseEv 224).raised ∧ t.ld = { s.ld with flCmd := none, flOn := false } ∧
          { t with regs := s.regs, cyc := s.cyc, raised := s.raised, ld := s.ld, flash := s.flash, fresh := s.fresh } = s ∧
          (op = 0 → t.flash = s.flash ∧ ∀ i v, i < 64 → Machine.cwDecode (Machine.flashWord s (page * 64 + i)) = .clean v →
            (t.reg (Reg.FL_BUF (2 * i))).toNat = v.toNat % 2 ^ 32 ∧ (t.reg (Reg.FL_BUF (2 * i + 1))).toNat = v.toNat / 2 ^ 32) ∧
          (op = 1 → failed = false → (∀ i, i < 64 → Machine.flashWord s (page * 64 + i) = Machine.erased) → t.fresh = s.fresh ∧
            ∀ k, Machine.flashWord t k = if page * 64 ≤ k ∧ k < page * 64 + 64 then Machine.cwEncode (BitVec.ofNat 64
              ((s.reg (Reg.FL_BUF (2 * (k - page * 64)))).toNat + 2 ^ 32 * (s.reg (Reg.FL_BUF (2 * (k - page * 64) + 1))).toNat)) else Machine.flashWord s k) ∧
          (op = 1 → (failed = true ∨ ∃ i, i < 64 ∧ Machine.flashWord s (page * 64 + i) ≠ Machine.erased) →
            t.flash = s.flash ∧ t.fresh = s.fresh ∧ t.flag Reg.FL_STAT_FAIL = true) ∧
          (op = 2 → failed = false → t.fresh = s.fresh ∧ ∀ k, Machine.flashWord t k =
            if k / 32768 = page / 512 then Machine.erased else Machine.flashWord s k) ∧
          (op = 2 → failed = true → t.flash = s.flash ∧ t.fresh = s.fresh ∧ t.flag Reg.FL_STAT_FAIL = true))))

/-- R284, R348, R350 to R354, R361: one CFG cycle of a scrub engine reads four words. Clean words change nothing but the position; the last four of a
sweep count it. A correctable word is counted and its corrected code word waits for the rewrite. An uncorrectable word of a loaded block is poisoned,
recorded with its address, raises 225, asks for a refetch and puts the sector in REPAIR; one of a block never loaded is rewritten as zero. An engine
that does not sweep votes and rewrites the copies of its index alone, while CFG runs. -/
def Obligations.ScrubEngineCycle : Prop :=
  ∀ (s : Machine.State) (sec : Fin 240),
    let i := Machine.sweepAt s sec.val
    let x := s.scrubOf sec.val
    let key := 368640 * sec.val + i
    let b := key / 320
    let word := fun (j : Nat) => Machine.tget (fun _ => 0) s.cfgw (key + j)
    let clean := fun (j : Nat) => ∃ v, Machine.cwDecode (word j) = .clean v
    let runs := Machine.scrubRuns s = true ∧ x.cycle ≠ some s.tlrCycle
    let pos := fun (t : Machine.State) => t.getF (Reg.SCRB_SPOS_POS sec.val) = i + 4 ∧ Machine.sweepAt t sec.val = i + 4 ∧
      (t.scrubOf sec.val).cycle = some s.tlrCycle
    let first := x.skip.contains (b % 1152 / 144) = false ∧ s.planeState sec.val (b % 1152 / 144) ≠ 2 ∧ clean 1 ∧ clean 2 ∧ clean 3
    (Machine.scrubRuns s = false ∨ x.cycle = some s.tlrCycle ∨ (i = 0 ∧ Machine.scrubEn s sec.val = false) →
      (s.slotRuns = false ∨ Machine.tlrClock s = false → Machine.exec (.configScrubCycle sec) s = .next s) ∧
      (s.slotRuns = true → Machine.tlrClock s = true → ∃ t, Machine.exec (.configScrubCycle sec) s = .next t ∧
        (∀ k, Machine.tget (fun _ => 0) t.sweepIdx k = if k / 3 = sec.val then i else Machine.tget (fun _ => 0) s.sweepIdx k) ∧
        { t with sweepIdx := s.sweepIdx } = s)) ∧
    (runs → i ≠ 0 → (∀ j, j < 4 → clean j) →
      (i + 4 < 368640 → ∃ t, Machine.exec (.configScrubCycle sec) s = .next t ∧ pos t ∧ BitsBut [Reg.SCRB_SPOS_POS sec.val] s t ∧
        { t with regs := s.regs, cyc := s.cyc, scrub := s.scrub, sweepIdx := s.sweepIdx } = s) ∧
      (i + 4 = 368640 → ∃ t, Machine.exec (.configScrubCycle sec) s = .next t ∧ t.getF (Reg.SCRB_SPOS_POS sec.val) = 0 ∧ Machine.sweepAt t sec.val = 0 ∧
        t.getF (Reg.SCRB_SPOS_SWEEPS sec.val) = (s.getF (Reg.SCRB_SPOS_SWEEPS sec.val) + 1) % 8192 ∧
        Machine.tget (fun _ => 0) t.sweepDone sec.val = Machine.tget (fun _ => 0) s.sweepDone sec.val + 1 ∧
        BitsBut [Reg.SCRB_SPOS_POS sec.val, Reg.SCRB_SPOS_SWEEPS sec.val] s t ∧
        t.vheld = Machine.tmap (fun _ => none) (fun k o => o.map (fun h =>
          if Machine.linkSector k = sec.val % 120 ∧ h.at_ < x.begun then
            { h with ok0 := h.ok0 || decide (sec.val < 120), ok1 := h.ok1 || decide (120 ≤ sec.val) } else h)) s.vheld ∧
        { t with regs := s.regs, cyc := s.cyc, scrub := s.scrub, sweepIdx := s.sweepIdx, sweepDone := s.sweepDone, vheld := s.vheld } = s)) ∧
    (runs → i ≠ 0 → i + 4 < 368640 → i % 4 = 0 → first →
      (∀ d, Machine.cwDecode (word 0) = .corrected d → x.thr = 0 → ∃ t, Machine.exec (.configScrubCycle sec) s = .next t ∧ pos t ∧
        t.flag (Reg.SCRB_SSTAT_CORR sec.val) = true ∧ t.getF (Reg.SCRB_SCNT_COR_CNT sec.val) = min (s.getF (Reg.SCRB_SCNT_COR_CNT sec.val) + 1) 4095 ∧
        t.flag (Machine.mapBit (Reg.SCRB_CORR ·) sec.val) = true ∧ (t.scrubOf sec.val).fixes = x.fixes ++ [(s.tlrCycle, key, Machine.cwEncode d)] ∧
        BitsBut [Reg.SCRB_SPOS_POS sec.val, Reg.SCRB_SSTAT_CORR sec.val, Reg.SCRB_SCNT_COR_CNT sec.val, Machine.mapBit (Reg.SCRB_CORR ·) sec.val] s t ∧
        { t with regs := s.regs, cyc := s.cyc, scrub := s.scrub, sweepIdx := s.sweepIdx } = s) ∧
      (Machine.cwDecode (word 0) = .bad → Machine.blockLoaded s b = false → ∃ t, Machine.exec (.configScrubCycle sec) s = .next t ∧ pos t ∧
        t.flag (Reg.SCRB_SSTAT_ZFIX sec.val) = true ∧ t.getF (Reg.SCRB_SCNT_UNC_CNT sec.val) = min (s.getF (Reg.SCRB_SCNT_UNC_CNT sec.val) + 1) 4095 ∧
        t.flag (Machine.mapBit (Reg.SCRB_UNC ·) sec.val) = true ∧ (t.scrubOf sec.val).fixes = x.fixes ++ [(s.tlrCycle, key, Machine.cwEncode 0)] ∧
        t.raised = s.raised ∧ t.ld = s.ld ∧ { t with regs := s.regs, cyc := s.cyc, scrub := s.scrub, sweepIdx := s.sweepIdx } = s) ∧
      (Machine.cwDecode (word 0) = .bad → Machine.blockLoaded s b = true → s.getF (Reg.SCRB_SSTAT_STATE sec.val) = 0 →
        s.flag (Reg.SCRB_SSTAT_UNCORR sec.val) = false →
        s.logs = false ∨ (s.hwReg (Reg.SCRB_SSTAT sec.val)).bits.getLsbD (Reg.SCRB_SSTAT_UNCORR sec.val).lo = false → b ∉ x.pend → b ∉ x.failed →
        let p := Machine.tget (fun _ => 0) s.policy sec.val
        ∃ t, Machine.exec (.configScrubCycle sec) s = .next t ∧ pos t ∧ Machine.tget (fun _ => 0) t.cfgw key = Machine.cwSetPoison (word 0) ∧
          (∀ k, k ≠ key → Machine.tget (fun _ => 0) t.cfgw k = Machine.tget (fun _ => 0) s.cfgw k) ∧
          t.flag (Reg.SCRB_SSTAT_UNCORR sec.val) = true ∧ t.getF (Reg.SCRB_SCNT_UNC_CNT sec.val) = min (s.getF (Reg.SCRB_SCNT_UNC_CNT sec.val) + 1) 4095 ∧
          t.flag (Machine.mapBit (Reg.SCRB_UNC ·) sec.val) = true ∧ t.getF (Reg.SCRB_SSTAT_STATE sec.val) = 1 ∧ t.raised = (s.raiseEv 225).raised ∧
          (t.reg (Reg.SCRB_SUADDR sec.val)).toNat = b % 1152 / 144 * 2 ^ 17 + b % 144 / 12 * 2 ^ 13 + b % 12 * 2 ^ 9 + key % 320 ∧
          t.ld = { s.ld with rfxq := s.ld.rfxq ++ [b] } ∧ (t.scrubOf sec.val).pend = x.pend ++ [b] ∧ (t.scrubOf sec.val).policy = p ∧
          (t.scrubOf sec.val).due = x.due ++ [(2 * s.tlrCycle + 4 + s.time.off, if p = 0 then 1 else 0)] ∧
          { t with regs := s.regs, cyc := s.cyc, raised := s.raised, cfgw := s.cfgw, scrub := s.scrub, sweepIdx := s.sweepIdx, ld := s.ld } = s))

/-- R362, R365, R366, R367, R370, R371, R377, R435: instructions of a steward core whose encoding is there. One without memory writes its register and goes on; a load or store that
hits the data cache reads or writes its word, a miss asks the snoop hub under a free request tag of the core, once its own write-back of the line
is over; mcycle counts STW cycles from what was written; no instruction issues in a cycle that the throttling duty closes; a misaligned one traps; ECALL, EBREAK, an access fault and an interrupt take their
trap, MRET returns. WFI goes on only with an enabled interrupt pending. FENCE.I empties the instruction cache, FENCE waits for posted stores and
write-backs, a cache-block operation asks the hub and has no effect on an uncached address. LR reserves, SC without a reservation fails with 1, an
AMO stores in M; an uncached one outside the banks faults. MTIP is 1 while the time is at or above TCMP. -/
def Obligations.StewardInstructions : Prop :=
  ∀ (s : Machine.State) (i : Fin 4), Machine.coreRuns s i.val = true →
    let c := s.core i.val
    let after := fun (t : Machine.State) (d : Machine.Core) => t.core i.val = d ∧ (∀ j, j ≠ i.val → t.core j = s.core j) ∧ { t with cores := s.cores } = s
    let goes := fun (d : Machine.Core) (pc : Nat) => { d with pc := pc, retired := (d.retired + 1) % 2 ^ 64, wait := .none, ubuf := [] }
    let traps := fun (t : Machine.State) (cause base : Nat) => (t.core i.val).csrGet 0x341 = c.pc % 2 ^ 64 ∧
      (t.core i.val).csrGet 0x342 = cause ∧ (t.core i.val).csrGet 0x300 = 128 * (c.csrGet 0x300 / 8 % 2) ∧
      (t.core i.val).pc = base % 2 ^ 64 ∧ (t.core i.val).wait = .none ∧ (t.core i.val).x = c.x ∧ (t.core i.val).retired = c.retired ∧
      (t.core i.val).dline = c.dline ∧ (t.core i.val).dword = c.dword ∧ (∀ j, j ≠ i.val → t.core j = s.core j)
    let mtvec := c.csrGet 0x305
    let free := (Machine.freeTags s (0x200 + i.val) false).filter (fun t => t < 64)
    let asks := fun (t : Machine.State) (kind a : Nat) =>
      (free ≠ [] → Machine.wbOpen c (a / 64) = false → ∃ tag, tag ∈ free ∧
        t.core i.val = { c with wait := .coh kind (a / 64) a 1, snp := some tag } ∧ (∀ j, j ≠ i.val → t.core j = s.core j) ∧
        (let r := Machine.initiatorRouter (0x200 + i.val)
         Machine.tget (fun _ => []) t.inject r = Machine.tget (fun _ => []) s.inject r ++
          [(3, 0, .snp (Machine.snpFlit (Machine.snpKind kind) i.val 0 (a / 64) tag 0 0) Machine.hubRouter)]) ∧
        { t with cores := s.cores, inject := s.inject, fresh := s.fresh } = s) ∧
      (free = [] ∨ Machine.wbOpen c (a / 64) = true → t = s)
    (∀ a cause, c.wait = .fault cause a → ∃ t, Machine.exec (.stewardInstruction i) s = .next t ∧ traps t (cause % 2 ^ 64) (mtvec / 4 * 4) ∧
      (t.core i.val).csrGet 0x343 = a % 2 ^ 64 ∧ { t with cores := s.cores } = s) ∧
    (c.wait = .wfi →
      (Machine.coreInts s i.val = 0 → Machine.exec (.stewardInstruction i) s = .next s ∧ Machine.exec (.wfi i) s = .next s) ∧
      (Machine.coreInts s i.val ≠ 0 → ∃ t, Machine.exec (.stewardInstruction i) s = .next t ∧ Machine.exec (.wfi i) s = .next t ∧
        after t (goes c ((c.pc + 4) % 2 ^ 64)))) ∧
    (∀ n, c.wait = .none → Machine.coreInterrupt s i.val = some n → ∃ t, Machine.exec (.stewardInstruction i) s = .next t ∧
      traps t (n + 2 ^ 63) (if mtvec % 4 = 1 then mtvec / 4 * 4 + 4 * n else mtvec / 4 * 4) ∧ { t with cores := s.cores } = s) ∧
    (s.gateOpen 5 = false → c.wait = .none → Machine.coreInterrupt s i.val = none → Machine.exec (.stewardInstruction i) s = .next s ∧
      Machine.exec (.wfi i) s = .next s ∧ Machine.exec (.fenceI i) s = .next s ∧ Machine.exec (.stewardFence i) s = .next s ∧
      Machine.exec (.cboInval i) s = .next s ∧ Machine.exec (.cboClean i) s = .next s ∧ Machine.exec (.cboFlush i) s = .next s ∧
      Machine.exec (.stewardAmo i) s = .next s) ∧
    (∀ ins len, s.gateOpen 5 = true → c.wait = .none → Machine.coreInterrupt s i.val = none → Machine.coreFetch s i.val = (s, some (ins, len)) →
      let npc := (c.pc + len) % 2 ^ 64
      (∀ n rd v, Machine.rvPlain 64 ins len c.pc c.rx = some (n, rd, v) →
        ∃ t, Machine.exec (.stewardInstruction i) s = .next t ∧ after t (goes (c.setX rd v) n)) ∧
      (∀ rd rs1 imm size signed, ins = .load rd rs1 imm size signed →
        let a := Machine.wrapN 64 ((c.rx rs1 : Int) + imm)
        (a % size ≠ 0 → ∃ t, Machine.exec (.stewardInstruction i) s = .next t ∧ traps t 4 (mtvec / 4 * 4) ∧ (t.core i.val).csrGet 0x343 = a) ∧
        (a % size = 0 → Machine.cacheable a = true → Machine.dSlot c (a / 64) = none →
          ∃ t, Machine.exec (.stewardInstruction i) s = .next t ∧ asks t 1 a) ∧
        (∀ k w, a % size = 0 → Machine.cacheable a = true → Machine.dSlot c (a / 64) = some k →
          Machine.cwDecode (Machine.dWordAt c k (a % 64 / 8)) = .clean w → ∃ t, Machine.exec (.stewardInstruction i) s = .next t ∧
            after t (goes (c.setX rd (Machine.loadExt 64 size signed (w.toNat / 2 ^ (8 * (a % 8))))) npc))) ∧
      (∀ rs1 rs2 imm size, ins = .store rs1 rs2 imm size →
        let a := Machine.wrapN 64 ((c.rx rs1 : Int) + imm)
        (a % size ≠ 0 → ∃ t, Machine.exec (.stewardInstruction i) s = .next t ∧ traps t 6 (mtvec / 4 * 4) ∧ (t.core i.val).csrGet 0x343 = a) ∧
        (a % size = 0 → Machine.cacheable a = true → Machine.dSlot c (a / 64) = none →
          ∃ t, Machine.exec (.stewardInstruction i) s = .next t ∧ asks t 2 a) ∧
        (∀ k, a % size = 0 → size = 8 → Machine.cacheable a = true → Machine.dSlot c (a / 64) = some k → Machine.dState c k = 1 →
          ∃ t, Machine.exec (.stewardInstruction i) s = .next t ∧ asks t 3 a) ∧
        (∀ k, a % size = 0 → size = 8 → Machine.cacheable a = true → Machine.dSlot c (a / 64) = some k → Machine.dState c k = 3 →
          ∃ t, Machine.exec (.stewardInstruction i) s = .next t ∧ after t (goes (Machine.dPut c k (a % 64 / 8) (c.rx rs2)) npc))) ∧
      (∀ rd rs1, ins = .csr 1 rd rs1 0x340 → ∃ t, Machine.exec (.stewardInstruction i) s = .next t ∧
        after t (goes ((c.csrPut 0x340 (c.rx rs1)).setX rd (c.csrGet 0x340)) npc)) ∧
      (∀ rd rs1, ins = .csr 1 rd rs1 0xB00 → ∃ t, Machine.exec (.stewardInstruction i) s = .next t ∧ Machine.mcycle t i.val = c.rx rs1 ∧
        (rd ≠ 0 → (t.core i.val).rx rd = Machine.mcycle s i.val) ∧ (t.core i.val).pc = npc ∧ (∀ j, j ≠ i.val → t.core j = s.core j) ∧
        { t with cores := s.cores } = s) ∧
      (ins = .ecall → ∃ t, Machine.exec (.stewardInstruction i) s = .next t ∧ traps t 11 (mtvec / 4 * 4)) ∧
      (ins = .ebreak → ∃ t, Machine.exec (.stewardInstruction i) s = .next t ∧ traps t 3 (mtvec / 4 * 4)) ∧
      (ins = .illegal → ∃ t, Machine.exec (.stewardInstruction i) s = .next t ∧ traps t 2 (mtvec / 4 * 4)) ∧
      (ins = .mret → ∃ t, Machine.exec (.stewardInstruction i) s = .next t ∧
        after t (goes (c.csrPut 0x300 (128 + 8 * (c.csrGet 0x300 / 128 % 2))) (c.csrGet 0x341))) ∧
      (ins = .wfi → (Machine.coreInts s i.val ≠ 0 → ∃ t, Machine.exec (.wfi i) s = .next t ∧ after t (goes c npc)) ∧
        (Machine.coreInts s i.val = 0 → ∃ t, Machine.exec (.wfi i) s = .next t ∧ after t { c with wait := .wfi })) ∧
      (ins = .fenceI → ∃ t, Machine.exec (.fenceI i) s = .next t ∧ after t (goes { c with iline := [], iword := [] } npc)) ∧
      (ins = .fence false →
        (Machine.postedStores s i.val = false → c.wb = [] → ∃ t, Machine.exec (.stewardFence i) s = .next t ∧ after t (goes c npc)) ∧
        (Machine.postedStores s i.val = true ∨ c.wb ≠ [] → Machine.exec (.stewardFence i) s = .next s)) ∧
      (∀ rs1, let a := c.rx rs1
        (ins = .cbo 0 rs1 → (Machine.cacheable a = true → ∃ t, Machine.exec (.cboInval i) s = .next t ∧ asks t 6 a) ∧
          (Machine.cacheable a = false → ∃ t, Machine.exec (.cboInval i) s = .next t ∧ after t (goes c npc))) ∧
        (ins = .cbo 1 rs1 → (Machine.cacheable a = true → ∃ t, Machine.exec (.cboClean i) s = .next t ∧ asks t 4 a) ∧
          (Machine.cacheable a = false → ∃ t, Machine.exec (.cboClean i) s = .next t ∧ after t (goes c npc))) ∧
        (ins = .cbo 2 rs1 → (Machine.cacheable a = true → ∃ t, Machine.exec (.cboFlush i) s = .next t ∧ asks t 5 a) ∧
          (Machine.cacheable a = false → ∃ t, Machine.exec (.cboFlush i) s = .next t ∧ after t (goes c npc)))) ∧
      (∀ rd rs1 rs2 size, let a := c.rx rs1
        (ins = .sc rd rs1 rs2 size → a % size = 0 → Machine.cacheable a = true → c.resv ≠ some (a / 64) →
          ∃ t, Machine.exec (.stewardAmo i) s = .next t ∧ after t (goes ({ c with resv := none }.setX rd 1) npc)) ∧
        (ins = .lr rd rs1 size → a % size = 0 → Machine.cacheable a = true → Machine.dSlot c (a / 64) = none →
          ∃ t, Machine.exec (.stewardAmo i) s = .next t ∧ asks t 7 a) ∧
        (∀ k w, size = 8 → a % size = 0 → Machine.cacheable a = true → Machine.dSlot c (a / 64) = some k → Machine.dState c k = 3 →
          Machine.cwDecode (Machine.dWordAt c k (a % 64 / 8)) = .clean w →
          (ins = .lr rd rs1 size → ∃ t, Machine.exec (.stewardAmo i) s = .next t ∧ (t.core i.val).resv = some (a / 64) ∧ (t.core i.val).pc = npc ∧
            (rd ≠ 0 → (t.core i.val).rx rd = w.toNat) ∧ (t.core i.val).dword = c.dword) ∧
          (ins = .sc rd rs1 rs2 size → c.resv = some (a / 64) → ∃ t, Machine.exec (.stewardAmo i) s = .next t ∧ (t.core i.val).resv = none ∧
            (rd ≠ 0 → (t.core i.val).rx rd = 0) ∧ Machine.dWordAt (t.core i.val) k (a % 64 / 8) = Machine.cwEncode (BitVec.ofNat 64 (c.rx rs2))) ∧
          (∀ o, ins = .amo o rd rs1 rs2 size → ∃ t, Machine.exec (.stewardAmo i) s = .next t ∧ (t.core i.val).pc = npc ∧
            (rd ≠ 0 → (t.core i.val).rx rd = w.toNat) ∧
            Machine.dWordAt (t.core i.val) k (a % 64 / 8) = Machine.cwEncode (BitVec.ofNat 64 (Machine.amoEval 64 o w.toNat (c.rx rs2))))) ∧
        (∀ o, ins = .amo o rd rs1 rs2 size → a % size = 0 → Machine.cacheable a = false → (∀ b, Machine.regionOf a ≠ .bank b) →
          ∃ t, Machine.exec (.stewardAmo i) s = .next t ∧ traps t 7 (mtvec / 4 * 4) ∧ (t.core i.val).csrGet 0x343 = a % 2 ^ 64))) ∧
    (∀ dt, ∃ t, Machine.exec (.machineTimerInterrupt dt) s = .next t ∧ t.aon.ticks = s.aon.ticks + dt ∧
      (Machine.mtip t i.val = true ↔ (s.reg (Reg.EVT_TCMP_LO i.val)).toNat + 2 ^ 32 * (s.reg (Reg.EVT_TCMP_HI i.val)).toNat ≤ (s.aon.ticks + dt) % 2 ^ 64) ∧
      BitsBut Machine.tickFields s t ∧ { t with regs := s.regs, cyc := s.cyc, aon := s.aon } = s)

/-- R265, R267, R367 to R369, R371, R372: the snoop hub and the cores. The hub takes a request and forwards it to the other three cores unless it serves another for the line; DONE ends one and
the next is forwarded; other types are consumed. A snooped core acts by Table 18.3 and sends ACK, after the write-back its action needs. The
hub counts ACKs of the request's core, line and tag and sends GRANT with the last, with SHARED where a copy is kept; at T_o, while timers run, it grants
with ERR, event 231 and the capture, and the tag is quarantined. On GRANT the requester reads its line, or takes its copy to M, or ends in an access
fault, and sends DONE under its tag, which is free then. A modified line with an uncorrectable word is discarded with event 211. -/
def Obligations.SnoopProtocol : Prop :=
  ∀ (s : Machine.State) (f d : Nat) (rest : List Machine.Flit), s.nocRuns = true →
    let hub := Machine.hubRouter
    let line := Machine.snpLine f
    let sends := fun (t : Machine.State) (r : Nat) (fs : List (Nat × Nat)) => Machine.tget (fun _ => []) t.inject r =
      Machine.tget (fun _ => []) s.inject r ++ fs.map (fun e => (3, 0, Machine.Flit.snp e.1 e.2))
    let others := fun (g : Nat) => ((List.range 4).filter (· != g / 2 ^ 4 % 4)).map (fun j => (g + 2 ^ 6, Machine.initiatorRouter (0x200 + j)))
    let hubOnly := fun (t : Machine.State) => t.queue hub 3 7 0 = rest ∧ { t with hub := s.hub, netq := s.netq, inject := s.inject } = s
    let mine := fun (h : Machine.HubReq) => Machine.snpLine h.flit == line
    (s.queue hub 3 7 0 = .snp f d :: rest →
      (1 ≤ f % 16 → f % 16 ≤ 6 →
        ((∀ h ∈ s.hub, Machine.snpLine h.flit ≠ line) → ∃ t, Machine.exec .snoopRequest s = .next t ∧ hubOnly t ∧ sends t hub (others f) ∧
          t.hub = s.hub ++ [{ flit := f, fwd := true, left := 3, shared := false, granted := false }]) ∧
        ((∃ h ∈ s.hub, Machine.snpLine h.flit = line ∧ h.fwd = true) → ∃ t, Machine.exec .snoopRequest s = .next t ∧ hubOnly t ∧ t.inject = s.inject ∧
          t.hub = s.hub ++ [{ flit := f, fwd := false, left := 0, shared := false, granted := false }])) ∧
      (f % 16 = 10 →
        let left := s.hub.filter (fun h => !(h.fwd && mine h && h.flit / 2 ^ 4 % 4 == f / 2 ^ 4 % 4))
        ((∀ h ∈ left, Machine.snpLine h.flit ≠ line) → ∃ t, Machine.exec .snoopDone s = .next t ∧ hubOnly t ∧ t.hub = left ∧ t.inject = s.inject) ∧
        (∀ h, left.find? mine = some h → (∀ g ∈ left, Machine.snpLine g.flit = line → g.fwd = false) → ∃ t, Machine.exec .snoopDone s = .next t ∧ hubOnly t ∧
          sends t hub (others h.flit) ∧ t.hub = left.map (fun g => if g = h then { g with fwd := true, left := 3 } else g))) ∧
      (f % 16 = 0 ∨ f % 16 = 7 ∨ f % 16 = 9 ∨ 10 < f % 16 → ∃ t, Machine.exec .snoopDone s = .next t ∧ hubOnly t ∧ t.hub = s.hub ∧ t.inject = s.inject) ∧
      (f % 16 = 8 →
        let waits := s.hub.find? (fun h => h.fwd && !h.granted && h.left != 0 && Machine.snpLine h.flit == line && Machine.snpCore h.flit == f / 2 ^ 4 % 4 &&
          h.flit / 2 ^ 36 % 64 == f / 2 ^ 36 % 64)
        (waits = none → ∃ t, Machine.exec .snoopAck s = .next t ∧ t.queue hub 3 7 0 = rest ∧ t.flag Reg.NOC_STAT_LATE = true ∧
          t.getF Reg.NOC_CNT_LATE_CNT = min (s.getF Reg.NOC_CNT_LATE_CNT + 1) (2 ^ 16 - 1) ∧ t.raised = (s.raiseEv 229).raised ∧
          BitsBut [Reg.NOC_STAT_LATE, Reg.NOC_CNT_LATE_CNT] s t ∧ { t with regs := s.regs, cyc := s.cyc, raised := s.raised, netq := s.netq } = s) ∧
        (∀ h, waits = some h → h.left ≠ 1 → ∃ t, Machine.exec .snoopAck s = .next t ∧ hubOnly t ∧ t.inject = s.inject ∧
          t.hub = s.hub.map (fun g => if g = h then { h with left := h.left - 1, shared := h.shared || f.testBit 42 } else g)) ∧
        (∀ h, waits = some h → h.left = 1 → ∃ t, Machine.exec .snoopAck s = .next t ∧ hubOnly t ∧
          { h with left := 0, shared := h.shared || f.testBit 42, granted := true } ∈ t.hub ∧ sends t hub [(Machine.snpFlit 9 (h.flit / 2 ^ 4 % 4) 0 line
            (h.flit / 2 ^ 36 % 64) (h.shared || f.testBit 42).toNat 0, Machine.initiatorRouter (0x200 + h.flit / 2 ^ 4 % 4))]))) ∧
    (∀ j : Fin 4, s.queue (Machine.initiatorRouter (0x200 + j.val)) 3 7 0 = .snp f d :: rest →
      let r := Machine.initiatorRouter (0x200 + j.val)
      let c := s.core j.val
      let ack := fun (keeps : Nat) => (Machine.snpFlit 8 (f / 2 ^ 4 % 4) 0 line (f / 2 ^ 36 % 64) keeps 0, hub)
      let done := (Machine.snpFlit 10 j.val 0 line (c.snp.getD 0) 0 0, hub)
      let coreOnly := fun (t : Machine.State) => t.queue r 3 7 0 = rest ∧ (∀ i, i ≠ j.val → t.core i = s.core i) ∧
        { t with cores := s.cores, netq := s.netq, inject := s.inject } = s
      (f.testBit 6 = true → c.acks = [] → Machine.wbOpen c line = false →
        (Machine.dSlot c line = none → ∃ t, Machine.exec (.snoopForward j) s = .next t ∧ coreOnly t ∧ t.core j.val = c ∧ sends t r [ack 0]) ∧
        (∀ k, Machine.dSlot c line = some k → Machine.dState c k ≠ 3 →
          (f % 16 = 1 → ∃ t, Machine.exec (.snoopForward j) s = .next t ∧ coreOnly t ∧ Machine.dState (t.core j.val) k = 1 ∧
            (t.core j.val).dword = c.dword ∧ sends t r [ack 1]) ∧
          (f % 16 = 4 → ∃ t, Machine.exec (.snoopForward j) s = .next t ∧ coreOnly t ∧ t.core j.val = c ∧ sends t r [ack 1]) ∧
          (f % 16 = 2 ∨ f % 16 = 3 ∨ f % 16 = 5 ∨ f % 16 = 6 → ∃ t, Machine.exec (.snoopForward j) s = .next t ∧ coreOnly t ∧
            Machine.dState (t.core j.val) k = 0 ∧ (c.resv = some line → (t.core j.val).resv = none) ∧ (∃ keeps, sends t r [ack keeps]))) ∧
        (∀ k data, Machine.dSlot c line = some k → Machine.dState c k = 3 → Machine.dLine c k = some data → f % 16 = 1 ∨ f % 16 = 2 ∨ f % 16 = 4 ∨ f % 16 = 5 →
          ∃ t tag, Machine.exec (.snoopForward j) s = .next t ∧ (t.core j.val).wb = c.wb ++ [(tag, line)] ∧ (t.core j.val).acks.map (·.1) = [line] ∧
            Machine.dState (t.core j.val) k = (if f % 16 = 1 then 1 else if f % 16 = 4 then 2 else 0) ∧ t.outst.length = s.outst.length + 1) ∧
        (∀ k, Machine.dSlot c line = some k → Machine.dState c k = 3 → Machine.dLine c k = none → Machine.dSlot (Machine.dSet c k line 0 0) line = none →
          1 ≤ f % 16 → f % 16 ≤ 5 → ∃ t, Machine.exec (.snoopForward j) s = .next t ∧ Machine.dState (t.core j.val) k = 0 ∧
            t.raised = (s.raiseEv 211).raised ∧ (t.core j.val).wb = c.wb ∧ t.outst = s.outst ∧ sends t r [ack 0])) ∧
      (∀ kind a, c.wait = .coh kind line a 1 → f % 16 = 9 →
        (f.testBit 43 = true → ∃ t, Machine.exec (.snoopGrant j) s = .next t ∧ coreOnly t ∧
          t.core j.val = { c with wait := .fault (if kind = 1 ∨ 7 ≤ kind then 5 else 7) a, snp := none } ∧ sends t r [done]) ∧
        (f.testBit 43 = false → kind = 1 ∨ kind = 2 ∨ kind = 7 ∨ ((kind = 3 ∨ kind = 8) ∧ Machine.dSlot c line = none) → ∃ t, Machine.exec (.snoopGrant j) s = .next t ∧
          t.core j.val = { c with wait := .coh kind line a (if kind = 1 then (if f.testBit 42 then 3 else 2) else 4) } ∧
          t.outst.length = s.outst.length + 1 ∧ t.queue r 3 7 0 = rest) ∧
        (∀ k, f.testBit 43 = false → kind = 3 ∨ kind = 8 → Machine.dSlot c line = some k → ∃ t, Machine.exec (.snoopGrant j) s = .next t ∧ coreOnly t ∧
          Machine.dState (t.core j.val) k = 3 ∧ (t.core j.val).wait = .none ∧ (t.core j.val).dword = c.dword ∧ (t.core j.val).snp = none ∧ sends t r [done]) ∧
        (f.testBit 43 = false → 4 ≤ kind → kind ≤ 6 → Machine.dSlot c line = none → Machine.wbOpen c line = false → ∃ t, Machine.exec (.snoopGrant j) s = .next t ∧
          coreOnly t ∧ t.core j.val = { c with wait := .cboDone, snp := none } ∧ sends t r [done]) ∧
        (∀ k, f.testBit 43 = false → kind = 4 ∨ kind = 5 → Machine.dSlot c line = some k → Machine.dState c k = 3 → Machine.dLine c k = none →
          ∃ t, Machine.exec (.snoopGrant j) s = .next t ∧ Machine.dState (t.core j.val) k = 0 ∧ (t.core j.val).wait = .fault 7 a ∧
            t.raised = (s.raiseEv 211).raised ∧ t.outst = s.outst ∧ sends t r [done]))) ∧
    (∀ (i : Fin 4) (h : Machine.HubReq), s.hub.find? (fun h => h.fwd && !h.granted && Machine.snpCore h.flit == i.val) = some h →
      (s.flag Reg.NOC_TMO_EN = false → Machine.exec (.snoopAckTimeout i) s = .next s) ∧
      (s.flag Reg.NOC_TMO_EN = true → ∃ t, Machine.exec (.snoopAckTimeout i) s = .next t ∧ t.hub = s.hub.map (fun g => if g = h then { g with granted := true } else g) ∧
        t.raised = (s.raiseEv 231).raised ∧ t.getF Reg.NOC_STAT_NET = 2 ∧ t.getF Reg.NOC_STAT_ID = 0x200 + i.val ∧ t.getF Reg.NOC_STAT_TAG = h.flit / 2 ^ 36 % 64 ∧
        (t.reg Reg.NOC_TADDR_LO).toNat + 2 ^ 32 * t.getF Reg.NOC_TADDR_HI_ADDR_HI = 64 * Machine.snpLine h.flit ∧
        sends t hub [(Machine.snpFlit 9 i.val 0 (Machine.snpLine h.flit) (h.flit / 2 ^ 36 % 64) h.shared.toNat 1, Machine.initiatorRouter (0x200 + i.val))] ∧
        t.quar = s.quar ++ [(2 * (0x200 + i.val), h.flit / 2 ^ 36 % 64)] ∧
        { t with regs := s.regs, cyc := s.cyc, raised := s.raised, hub := s.hub, inject := s.inject, quar := s.quar } = s))

/-- R373 to R375, R378, R379: the event controller and the watchdog. The oldest raising sets its pending bit, or counts in EVT_LOST where that is set. A
claim takes the candidate of highest priority, the first after the pointer among equals, clears it and moves the pointer (a raising of the slot that the
claim meets stays pending and is not lost); a peek changes nothing; with no candidate it reads 0. EVT_SWRAISE raises sources below 288. A locked write enables the watchdog at WDT_LOAD1; the kick word restarts stage 1, any
other value is a bad kick; stage 1 ends with event 208 and stage 2, stage 2 with a WATCHDOG reset. -/
def Obligations.EventsAndWatchdog : Prop :=
  ∀ s : Machine.State,
    (∀ e r, s.raised = e :: r → s.alive = true → e < 288 →
      (s.flag (Machine.pendBit e) = false → ∃ t, Machine.exec .eventPending s = .next t ∧ t.flag (Machine.pendBit e) = true ∧ t.raised = r ∧
        BitsBut [Machine.pendBit e] s t ∧ { t with regs := s.regs, cyc := s.cyc, raised := s.raised } = s) ∧
      (s.flag (Machine.pendBit e) = true → ∃ t, Machine.exec .eventPending s = .next t ∧ t.raised = r ∧
        t.getF Reg.EVT_LOST_LOST = min (s.getF Reg.EVT_LOST_LOST + 1) (2 ^ (Reg.EVT_LOST_LOST.hi + 1 - Reg.EVT_LOST_LOST.lo) - 1) ∧
        BitsBut [Reg.EVT_LOST_LOST] s t ∧ { t with regs := s.regs, cyc := s.cyc, raised := s.raised } = s)) ∧
    (∀ i : Fin 4, s.alive = true →
      let cand := fun (e : Nat) => s.flag (Machine.pendBit e) = true ∧ s.flag (Reg.EVT_CFG_EN e) = true ∧ (s.getF (Reg.EVT_CFG_MASK e)).testBit i.val = true ∧
        s.getF (Reg.EVT_THRESH_THRESH i) < s.getF (Reg.EVT_CFG_PRIO e)
      let ptr := Machine.tget (fun _ => 287) s.evtPtr i.val
      let dist := fun (e : Nat) => (e + 288 - (ptr + 1)) % 288
      ((∀ e, e < 288 → ¬ cand e) → ∀ peek, Machine.exec (.eventClaim i peek) s = .next { s with resp := ⟨0, 0⟩ }) ∧
      (∀ e, e < 288 → ptr < 288 → cand e → (∀ e', e' < 288 → cand e' → s.getF (Reg.EVT_CFG_PRIO e') < s.getF (Reg.EVT_CFG_PRIO e) ∨
          (s.getF (Reg.EVT_CFG_PRIO e') = s.getF (Reg.EVT_CFG_PRIO e) ∧ dist e ≤ dist e')) →
        Machine.exec (.eventClaim i true) s = .next { s with resp := ⟨0, (BitVec.ofNat 32 (2 ^ 31 + e)).setWidth 64⟩ } ∧
        ∃ t, Machine.exec (.eventClaim i false) s = .next t ∧ t.resp = ⟨0, (BitVec.ofNat 32 (2 ^ 31 + e)).setWidth 64⟩ ∧
          (t.flag (Machine.pendBit e) = true ↔ s.logs = true ∧ e ∈ s.cyc.lost) ∧ (s.logs = true → e ∉ t.cyc.lost) ∧
          (e ∉ s.cyc.lost → t.getF Reg.EVT_LOST_LOST = s.getF Reg.EVT_LOST_LOST) ∧ Machine.tget (fun _ => 287) t.evtPtr i.val = e ∧
          (∀ j, j ≠ i.val → Machine.tget (fun _ => 287) t.evtPtr j = Machine.tget (fun _ => 287) s.evtPtr j) ∧
          BitsBut [Machine.pendBit e, wholeReg Reg.EVT_LOST] s t ∧ { t with regs := s.regs, cyc := s.cyc, resp := s.resp, evtPtr := s.evtPtr } = s)) ∧
    (∀ e : Fin 512, s.alive = true → Machine.exec (.evtSwraise e) s = .next (if e.val < 288 then { s with raised := s.raised ++ [e.val] } else s)) ∧
    (∀ (id : Fin 1024) (v : Word32), s.alive = true →
      let load := max 1024 (s.getF Reg.WDT_LOAD1_LOAD1)
      (s.getF Reg.WDT_LOCK_STATE = 2 → s.getF Reg.WDT_LOCK_OWNER = id.val → ∃ t, Machine.exec (.wdtEnable id v) s = .next t ∧ t.resp = ⟨0, 0⟩ ∧
        t.reg Reg.WDT_LOCK = 0 ∧ t.flag Reg.WDT_CTRL_STICKY = (s.flag Reg.WDT_CTRL_STICKY || v.getLsbD 1) ∧
        t.flag Reg.WDT_CTRL_EN = (v.getLsbD 0 || (s.flag Reg.WDT_CTRL_STICKY && s.flag Reg.WDT_CTRL_EN)) ∧
        (s.flag Reg.WDT_CTRL_EN = false → v.getLsbD 0 = true → t.getF Reg.WDT_STAT_STAGE = 0 ∧ t.getF Reg.WDT_STAT_COUNT = load) ∧
        (s.flag Reg.WDT_CTRL_EN = true → t.getF Reg.WDT_STAT_STAGE = s.getF Reg.WDT_STAT_STAGE ∧ t.getF Reg.WDT_STAT_COUNT = s.getF Reg.WDT_STAT_COUNT) ∧
        BitsBut [wholeReg Reg.WDT_LOCK, Reg.WDT_CTRL_STICKY, Reg.WDT_CTRL_EN, Reg.WDT_STAT_STAGE, Reg.WDT_STAT_COUNT] s t ∧
        { t with regs := s.regs, cyc := s.cyc, resp := s.resp } = s) ∧
      (s.getF Reg.WDT_LOCK_STATE ≠ 2 ∨ s.getF Reg.WDT_LOCK_OWNER ≠ id.val → ∃ t, Machine.exec (.wdtEnable id v) s = .next t ∧ t.resp = ⟨1, 0⟩ ∧
        t.flag Reg.WDT_STAT_LOCKERR = true ∧ t.raised = (s.raiseEv 209).raised ∧ t.reg Reg.WDT_LOCK = 0 ∧
        BitsBut [wholeReg Reg.WDT_LOCK, Reg.WDT_STAT_LOCKERR] s t ∧ { t with regs := s.regs, cyc := s.cyc, raised := s.raised, resp := s.resp } = s) ∧
      (s.flag Reg.WDT_CTRL_EN = true → v = 0x4B49434B#32 → ∃ t, Machine.exec (.wdtKick v) s = .next t ∧ t.getF Reg.WDT_STAT_STAGE = 0 ∧
        t.getF Reg.WDT_STAT_COUNT = load ∧ OnlyBits [Reg.WDT_STAT_STAGE, Reg.WDT_STAT_COUNT] s t) ∧
      (s.flag Reg.WDT_CTRL_EN = true → v ≠ 0x4B49434B#32 → ∃ t, Machine.exec (.wdtKick v) s = .next t ∧ t.flag Reg.WDT_STAT_BADKICK = true ∧
        OnlyBitsEv [Reg.WDT_STAT_BADKICK] 209 s t) ∧
      (s.flag Reg.WDT_CTRL_EN = false → Machine.exec (.wdtKick v) s = .next s)) ∧
    (∀ dt, Machine.wdtRuns s = true → s.getF Reg.WDT_STAT_COUNT ≤ dt →
      (s.getF Reg.WDT_STAT_STAGE = 0 → ∃ t, Machine.exec (.wdtStage1Expiry dt) s = .next t ∧ t.getF Reg.WDT_STAT_STAGE = 1 ∧
        t.getF Reg.WDT_STAT_COUNT = max 1024 (s.getF Reg.WDT_LOAD2_LOAD2) ∧ t.raised = ((Machine.aonPass s dt).raiseEv 208).raised ∧ t.aon.ticks = s.aon.ticks + dt ∧
        BitsBut (Reg.WDT_STAT_STAGE :: Machine.tickFields) s t ∧ { t with regs := s.regs, cyc := s.cyc, raised := s.raised, aon := s.aon } = s) ∧
      (s.getF Reg.WDT_STAT_STAGE = 1 → ∃ u, Machine.exec (.wdtStage2Expiry dt) s = .next (Machine.deviceReset u 3 0) ∧
        u.aon.ticks = s.aon.ticks + dt ∧ BitsBut Machine.tickFields s u ∧ { u with regs := s.regs, cyc := s.cyc, aon := s.aon } = s))

/-- R383 to R388, R391, R392, R394, R395, R415, R49: clocks. RCO and XO become ready, by which step 1 of a start ends; a failed XO start is flagged
with event 204; the AON multiplexer goes over to a source that runs; MREF settles and is lost, and ends a hang of the root multiplexer; a trip is
recorded, of a source in use it resets the device with CLKLOSS, of another it clears its OK bit and raises 204, or 205
for MREF; a tripped source that runs recovers. A GO that R386 allows starts a root switch, with SWITCHING, voltages for the higher
VCO, and memory in self-refresh once they stand; any other sets BADCFG. The trim code moves one step, or event 207 is raised at its end. Delay taps
change at a beat boundary only. -/
def Obligations.ClockCommands : Prop :=
  ∀ s : Machine.State,
    let goes := fun (c : Machine.Clocks) (t : Machine.State) => t.clk = c ∧ Machine.ClocksShown t ∧ BitsBut Machine.clockFields s t ∧
      { t with regs := s.regs, cyc := s.cyc, clk := s.clk } = s
    let stepOne := fun (t : Machine.State) => s.phase = .waiting ∧ s.getF Reg.RST_STAGE_STEP ≤ 1 ∧ s.aon.resetLow = false ∧ s.aon.hot = false ∧
      (t.clk.rco && (!t.clk.tripped.contains 1 || t.clk.xo)) = true
    let endsOne := fun (t u : Machine.State) => (¬ stepOne t → u = t) ∧ (stepOne t → u = Machine.causeWrite (t.setF Reg.RST_STAGE_STEP 2))
    (s.phase ≠ .unpowered →
      (s.clk.rco = false → s.phase ≠ .keep → s.phase ≠ .hold ∨ s.wakes ≠ 0 →
        ∃ t u, Machine.exec .rcoReady s = .next u ∧ goes { s.clk with rco := true } t ∧ endsOne t u) ∧
      (s.clk.rco = true → s.clk.xo = false → s.clk.xoStop = false →
        (∃ t u, Machine.exec .xoReady s = .next u ∧ goes { s.clk with xo := true } t ∧ endsOne t u) ∧
        (∃ t, Machine.exec .xoStartFail s = .next t ∧ t.flag Reg.CLK_FLAG_XO_FAIL = true ∧ t.clk = { s.clk with xoStop := true } ∧
          t.raised = (s.raiseEv 204).raised ∧ BitsBut [Reg.CLK_FLAG_XO_FAIL] s t ∧
          { t with regs := s.regs, cyc := s.cyc, raised := s.raised, clk := s.clk } = s)) ∧
      ((if s.flag Reg.CLK_CTRL_AON_SRC then s.clk.xo else s.clk.rco) = true →
        ∃ t, Machine.exec .aonSourceChange s = .next t ∧ goes { s.clk with aonXo := s.flag Reg.CLK_CTRL_AON_SRC } t) ∧
      ((if s.flag Reg.CLK_CTRL_AON_SRC then s.clk.xo else s.clk.rco) = false →
        Machine.exec .aonSourceChange s = .next s) ∧
      (∀ khz ticks, 19000 ≤ khz → khz ≤ 51000 → ∃ t,
        goes { s.clk with mref := some khz, stable := if s.clk.mref.any (fun f => Machine.mrefSame f khz) then s.clk.stable + ticks else ticks } t ∧
        (s.clk.hang = false → Machine.exec (.mrefSettled (khz, ticks)) s = .next t) ∧
        (s.clk.hang = true → Machine.exec (.mrefSettled (khz, ticks)) s = .next (Machine.rootRelock { t with clk := { t.clk with hang := false } }))) ∧
      (∀ khz, 19000 ≤ khz → khz ≤ 51000 → s.clk.hang = false →
        ∃ t, Machine.exec (.mrefLost (some khz)) s = .next t ∧ goes { s.clk with mref := some khz, stable := 0 } t) ∧
      (∃ t, Machine.exec (.mrefLost none) s = .next t ∧ goes { s.clk with mref := none, stable := 0 } t)) ∧
    (∀ src : Fin 4, s.phase ≠ .unpowered →
      (Machine.sourceWatched s src.val = false → Machine.exec (.clockMonitorTrip src) s = .next s) ∧
      (Machine.sourceWatched s src.val = true →
        let recorded := fun (t : Machine.State) => t.flag Reg.CLK_FLAG_TRIP = true ∧ t.getF Reg.CLK_STAT_TRIP_SRC = src.val ∧
          t.getF Reg.CLK_CNT_TRIP_CNT = min (s.getF Reg.CLK_CNT_TRIP_CNT + 1) 65535 ∧ (src.val = 0 → t.flag Reg.CLK_FLAG_XO_FAIL = true) ∧
          BitsBut ([Reg.CLK_FLAG_TRIP, Reg.CLK_STAT_TRIP_SRC, Reg.CLK_CNT_TRIP_CNT, Reg.CLK_FLAG_XO_FAIL] ++ Machine.clockFields) s t
        (Machine.sourceInUse s src.val = false → ∃ t, Machine.exec (.clockMonitorTrip src) s = .next t ∧ recorded t ∧ Machine.ClocksShown t ∧
          t.clk = { s.clk with tripped := s.clk.tripped ++ [src.val] } ∧ t.raised = (s.raiseEv (if src.val = 2 then 205 else 204)).raised ∧
          { t with regs := s.regs, cyc := s.cyc, raised := s.raised, clk := s.clk } = s) ∧
        (Machine.sourceInUse s src.val = true → ∃ u, recorded u ∧
          (s.phase ≠ .integrity → s.phase ≠ .bistHeld → Machine.exec (.clockMonitorTrip src) s = .next (Machine.deviceReset u 4 (src.val + 1))) ∧
          (s.phase = .integrity ∨ s.phase = .bistHeld → ∃ t, Machine.exec (.clockMonitorTrip src) s = .next t ∧ recorded t ∧ Machine.ClocksShown t ∧
            t.clk = u.clk ∧ { t with regs := s.regs, cyc := s.cyc, clk := s.clk } = s) ∧
          u.clk = { s.clk with
            tripped := if src.val = 3 then s.clk.tripped else s.clk.tripped ++ [src.val]
            xo := s.clk.xo && src.val != 0
            aonXo := if src.val = 0 then false else if src.val = 1 then true else s.clk.aonXo } ∧
          { u with regs := s.regs, cyc := s.cyc, clk := s.clk } = s))) ∧
    (∀ src : Fin 4,
      let runs := (src.val = 0 ∧ s.clk.xo = true) ∨ (src.val = 1 ∧ s.clk.rco = true ∧ s.clk.xo = true) ∨ (src.val = 2 ∧ s.clk.mref.isSome = true)
      (src.val ∈ s.clk.tripped → runs → ∃ t, Machine.exec (.sourceRecovered src) s = .next t ∧
        goes { s.clk with tripped := s.clk.tripped.filter (· != src.val) } t) ∧
      (src.val ∉ s.clk.tripped ∨ ¬ runs → Machine.exec (.sourceRecovered src) s = .next s)) ∧
    (∀ (src : Fin 4) (m : Fin 512), s.alive = true →
      (Machine.rootAllowed s src.val m.val = false → ∃ t, Machine.exec (.rootSwitch src m) s = .next t ∧ t.flag Reg.CLK_FLAG_BADCFG = true ∧
        t.getF Reg.CLK_ROOT_SRC = src.val ∧ t.getF Reg.CLK_ROOT_M = m.val ∧ OnlyBits [Reg.CLK_FLAG_BADCFG, Reg.CLK_ROOT_SRC, Reg.CLK_ROOT_M] s t) ∧
      (Machine.rootAllowed s src.val m.val = true → s.user = false → ∃ t, Machine.exec (.rootSwitch src m) s = .next t ∧ t.flag Reg.CLK_STAT_SWITCHING = true ∧
        t.getF Reg.CLK_ROOT_SRC = src.val ∧ t.getF Reg.CLK_ROOT_M = m.val ∧
        (let ref := if src.val = 1 then s.getF Reg.CLK_MREF_FREQ * 1000 else 50000000
         t.clk = { s.clk with ramp := some 0, next := (src.val, m.val), nextHz := ref } ∧
         (src.val ≠ 1 → t.flag Reg.TIME_STATUS_SYNC = false) ∧
         let khz := max (s.refHz * s.rootM / 1000) (ref * m.val / 1000)
         t.getF Reg.PWR_VNOW_VF_NOW = max (s.getF Reg.PWR_VSET_VF_REQ) (Machine.minCodes khz).1 ∧
         t.getF Reg.PWR_VNOW_VT_NOW = max (s.getF Reg.PWR_VSET_VT_REQ) (Machine.minCodes khz).2.1 ∧
         t.getF Reg.PWR_VNOW_VS_NOW = max (s.getF Reg.PWR_VSET_VS_REQ) (Machine.minCodes khz).2.2) ∧
        (t.flag Reg.PWR_VNOW_SLEW = true ↔ s.aon.rails ≠ (t.getF Reg.PWR_VNOW_VF_NOW, t.getF Reg.PWR_VNOW_VT_NOW, t.getF Reg.PWR_VNOW_VS_NOW)) ∧
        (t.flag Reg.PWR_VNOW_SLEW = false → ∀ c, c < 16 → t.flag (Reg.MEMC_STAT_SREF c) = true) ∧
        (t.flag Reg.PWR_VNOW_SLEW = true → ∀ c, t.flag (Reg.MEMC_STAT_SREF c) = s.flag (Reg.MEMC_STAT_SREF c)) ∧
        { t with regs := s.regs, cyc := s.cyc, clk := s.clk } = s) ∧
      (Machine.rootAllowed s src.val m.val = true → s.user = true → ∃ t, Machine.exec (.rootSwitch src m) s = .next t ∧
        t.flag Reg.TIME_STATUS_SLIP = true ∧ t.raised = (s.raiseEv 285).raised ∧
        t.getF Reg.TIME_ERR_SLIP_CNT = min (s.getF Reg.TIME_ERR_SLIP_CNT + 1) 255 ∧
        (s.flag Reg.TIME_CTRL_SLIP_TAINT = true → s.tickOver = false → ∀ i, i < 240 → t.tainted i = true) ∧
        (s.flag Reg.TIME_CTRL_SLIP_TAINT = false → t.taint = s.taint))) ∧
    (∀ count, s.phase ≠ .unpowered → s.flag Reg.CLK_TRIM_EN = true → s.clk.rco = true → Machine.trimRefOk s = true →
      let c := s.getF Reg.CLK_TCODE_CODE
      let want := Machine.trimNominal s
      (count = want → Machine.exec (.rcoTrimWindow count) s = .next s) ∧
      (count < want ∧ c ≠ 4095 ∨ want < count ∧ c ≠ 0 → ∃ t, Machine.exec (.rcoTrimWindow count) s = .next t ∧
        t.getF Reg.CLK_TCODE_CODE = (if count < want then c + 1 else c - 1) ∧ OnlyBits [Reg.CLK_TCODE_CODE] s t) ∧
      (count < want ∧ c = 4095 ∨ want < count ∧ c = 0 → ∃ t, Machine.exec (.rcoTrimWindow count) s = .next t ∧ t.flag Reg.CLK_FLAG_RANGE_ERR = true ∧
        OnlyBitsEv [Reg.CLK_FLAG_RANGE_ERR] 207 s t)) ∧
    (∀ count, s.clk.rco = false ∨ Machine.trimRefOk s = false ∨ s.flag Reg.CLK_TRIM_EN = false → Machine.exec (.rcoTrimWindow count) s = .next s) ∧
    (∀ b : Fin 4,
      (s.alive = true → s.k = 0 → ∃ t, Machine.exec (.gpioDelayCompensate b) s = .next t ∧
        (∀ i, i < 96 → i / 24 ≠ b.val → Machine.tget (fun _ => 0) t.gpio.tap i = Machine.tget (fun _ => 0) s.gpio.tap i) ∧
        { t with gpio := { t.gpio with tap := s.gpio.tap }, fresh := s.fresh } = s) ∧
      (s.alive = false ∨ s.k ≠ 0 → Machine.exec (.gpioDelayCompensate b) s = .next s))

/-- R397 to R401, R403, R404, R406, R410 to R412, R452: resets, starts and block resets. A reset ends everything outside the always-on fields: every other register bit
returns to its reset value, flash, fuses and the queue stay, the first cause in the order of R399 waits for the start. A start records it,
measures the strap, runs the root on XO at M = 150 (RCO after an XO failure), puts the repairs of its self-test into force and begins step 5; a pin
or a third failing link of a group, or a memory that cannot be filled, holds it with cause BIST. A block reset is refused
with its reason or holds the sector; its end is reported. Supply warnings set their flags with event 223. -/
def Obligations.ResetsAndStarts : Prop :=
  ∀ s : Machine.State,
    let moved := [Reg.RST_ALARM_PIN, Reg.CLK_TCODE_CODE, Reg.VLT_STAT_FUSE_BUSY, Reg.RST_STAGE_STEP]
    let clocksUp := fun (k : Machine.Clocks) => k.rco = true ∧ (1 ∉ k.tripped ∨ k.xo = true)
    let shows := fun (t : Machine.State) (c : Nat × Nat) =>
      t.getF Reg.RST_CAUSE_CAUSE = c.1 % 16 ∧ t.getF Reg.RST_CAUSE_SUB = c.2 % 16 ∧ t.flag Reg.RST_CAUSE_CUR = false
    let resets := fun (t : Machine.State) (cause sub : Nat) =>
      let c := Machine.firstCause s.aon.cause (cause, sub)
      let goesOn := t.aon.resetLow = false ∧ t.aon.hot = false ∧ clocksUp t.clk
      t.phase = .waiting ∧ t.clockOn = false ∧ t.dbgHalt = false ∧ t.raised = [] ∧
      t.aon.cause = some c ∧ t.aon.ticks = 0 ∧ t.aon.res = [0, 0, 0, 0] ∧
      (∀ f ∈ Machine.alwaysOn, f.reg ≠ Reg.RST_CAUSE → t.getF f = s.getF f) ∧
      (goesOn → t.getF Reg.RST_STAGE_STEP = 2 ∧ shows t c) ∧
      (¬ goesOn → t.getF Reg.RST_STAGE_STEP = 0 ∧ ∀ f ∈ Machine.alwaysOn, f.reg = Reg.RST_CAUSE → t.getF f = s.getF f) ∧
      (∀ o i, (∀ f ∈ Machine.alwaysOn ++ moved, f.reg = o → i < f.lo ∨ f.hi < i) → (t.reg o).getLsbD i = (Machine.regReset o).getLsbD i) ∧
      (t.clk.rco = s.clk.rco ∧ t.clk.mref = s.clk.mref ∧ t.clk.ramp = none ∧ t.clk.hang = false ∧
        (s.flag Reg.CLK_FLAG_XO_FAIL = true → t.clk.xo = false ∧ t.clk.xoStop = true ∧ t.clk.aonXo = false) ∧
        (s.flag Reg.CLK_FLAG_XO_FAIL = false → t.clk.xo = s.clk.xo ∧ t.clk.xoStop = false ∧ t.clk.aonXo = s.clk.aonXo)) ∧
      t.flash = s.flash ∧ t.fuses = s.fuses ∧ t.pending = s.pending ∧ t.time = Machine.TimeState.reset ∧ t.cores = [] ∧ t.outst = [] ∧
      t.cfgw = [] ∧ t.mstore = [] ∧ t.bmem = [] ∧ t.mem = [] ∧ t.tram = [] ∧ t.sram = [] ∧ t.keyw = []
    (s.phase = .unpowered → ∃ t, Machine.exec .powerOn s = .next t ∧ t.phase = .waiting ∧ t.aon.cause = some (1, 0) ∧ t.flash = s.flash ∧
      t.getF Reg.CLK_TCODE_CODE = (Config.trimCode 0).toNat ∧ t.getF Reg.RST_STAGE_STEP = 1 ∧ t.clk = Machine.Clocks.reset ∧
      (∀ o i, (∀ f ∈ [Reg.CLK_TCODE_CODE, Reg.RST_STAGE_STEP], f.reg = o → i < f.lo ∨ f.hi < i) → (t.reg o).getLsbD i = (Machine.regReset o).getLsbD i) ∧
      t.fuses = s.fuses ∧ t.pending = s.pending ∧ t.aon.resetLow = s.aon.resetLow) ∧
    (s.phase ≠ .unpowered → Machine.exec .powerOn s = .next s ∧ ∃ t, Machine.exec .lossOfPower s = .next t ∧ t.phase = .unpowered ∧ t.regs = [] ∧
      t.clockOn = false ∧ t.flash = s.flash ∧ FusesKept s t ∧ t.fuses.burning = 0 ∧ t.pending = s.pending) ∧
    (s.phase ≠ .unpowered → s.aon.resetLow = false → s.fuses.burning = 0 → ∃ t, Machine.exec .resetNAssert s = .next t ∧ t.aon.resetLow = true ∧
      (s.phase ≠ .integrity → resets t 2 0) ∧ (s.phase = .integrity → resets t 6 (s.getF Reg.VLT_HALT0_SUBCODE))) ∧
    (s.aon.resetLow = true → Machine.exec .resetNAssert s = .next s) ∧
    (let t := { s with aon := { s.aon with resetLow := false } }
     let goesOn := s.phase = .waiting ∧ s.getF Reg.RST_STAGE_STEP ≤ 1 ∧ s.aon.hot = false ∧ clocksUp s.clk
     (¬ goesOn → Machine.exec .resetNRelease s = .next t) ∧
     (goesOn → ∃ u, Machine.exec .resetNRelease s = .next u ∧ u.getF Reg.RST_STAGE_STEP = 2 ∧ (∀ c, s.aon.cause = some c → shows u c) ∧
       BitsBut [Reg.RST_STAGE_STEP, Reg.RST_CAUSE_CAUSE, Reg.RST_CAUSE_SUB, Reg.RST_CAUSE_CUR] s u ∧ { u with regs := s.regs, cyc := s.cyc } = t)) ∧
    (∀ (id : Fin 1024) (v : Word32), s.alive = true →
      (s.getF Reg.RST_LOCK_STATE = 2 → s.getF Reg.RST_LOCK_OWNER = id.val →
        (v.getLsbD 0 = true → ∃ t, Machine.exec (.firmwareReset id v) s = .next t ∧ t.resp = ⟨0, 0⟩ ∧ resets t 7 0) ∧
        (v.getLsbD 0 = false → ∃ t, Machine.exec (.firmwareReset id v) s = .next t ∧ t.resp = ⟨0, 0⟩ ∧ t.reg Reg.RST_LOCK = 0 ∧
          BitsBut [wholeReg Reg.RST_LOCK] s t ∧ { t with regs := s.regs, cyc := s.cyc, resp := s.resp } = s)) ∧
      (s.getF Reg.RST_LOCK_STATE ≠ 2 ∨ s.getF Reg.RST_LOCK_OWNER ≠ id.val → ∃ t, Machine.exec (.firmwareReset id v) s = .next t ∧ t.resp = ⟨1, 0⟩ ∧
        t.reg Reg.RST_LOCK = 0 ∧ t.flag Reg.RST_BSTAT_LOCKERR = true ∧ t.raised = (s.raiseEv 212).raised ∧
        BitsBut [wholeReg Reg.RST_LOCK, Reg.RST_BSTAT_LOCKERR] s t ∧ { t with regs := s.regs, cyc := s.cyc, raised := s.raised, resp := s.resp } = s)) ∧
    (s.resettable = true → ∃ t, Machine.exec .vinLoss s = .next t ∧ resets t 10 0 ∧ t.aon.vinOk = false ∧ t.aon.vb = false) ∧
    (s.phase = .bistHeld ∨ s.phase = .integrity → ∃ t, Machine.exec .vinLoss s = .next t ∧ t.aon = { s.aon with vinOk := false, vinFor := 0, vb := false } ∧
      { t with aon := s.aon, tapIr := s.tapIr, dbg := s.dbg } = s) ∧
    (s.phase = .keep ∨ s.phase = .off ∨ s.phase = .unpowered → Machine.exec .vinLoss s = .next s) ∧
    (∀ vin vaux, s.phase ≠ .unpowered → vin < 65536 → vaux < 65536 →
      let bi := vin < 10800 ∨ 13200 < vin
      let ba := vaux < 3135 ∨ 3465 < vaux
      ∃ t, Machine.exec (.supplyWarning vin vaux) s = .next t ∧ t.getF Reg.PWR_VMON_VIN = vin ∧ t.getF Reg.PWR_VMON_VAUX = vaux ∧
        (bi → t.flag Reg.PWR_FLAG_VIN_WARN = true) ∧ (¬ bi → t.flag Reg.PWR_FLAG_VIN_WARN = s.flag Reg.PWR_FLAG_VIN_WARN) ∧
        (ba → t.flag Reg.PWR_FLAG_VAUX_WARN = true) ∧ (¬ ba → t.flag Reg.PWR_FLAG_VAUX_WARN = s.flag Reg.PWR_FLAG_VAUX_WARN) ∧
        (bi ∨ ba → t.raised = (s.raiseEv 223).raised) ∧ (¬ (bi ∨ ba) → t.raised = s.raised) ∧
        (let good := if 10500 < vin then true else if vin < 10200 ∧ s.aon.vb = false then false else s.aon.vinOk
         t.aon = { s.aon with vmon := (vin, vaux), vinOk := good, vinFor := if good then s.aon.vinFor else 0 }) ∧
        BitsBut [Reg.PWR_VMON_VIN, Reg.PWR_VMON_VAUX, Reg.PWR_FLAG_VIN_WARN, Reg.PWR_FLAG_VAUX_WARN] s t ∧
        { t with regs := s.regs, cyc := s.cyc, raised := s.raised, aon := s.aon } = s) ∧
    (∀ dt raws rootOk rngOk pin bad fill,
      (Machine.startReady s dt = false → Machine.exec (.deviceStart dt raws rootOk rngOk pin bad fill () () ()) s = .next s) ∧
      (Machine.startReady s dt = true →
        let codes := raws.map (fun r => Machine.strapCode r.toNat)
        let code := Machine.strapMode codes
        let groups := Machine.badGroups bad
        let third := groups.find? (fun g => decide (2 < (Machine.groupBad bad g).length))
        let common := fun (t : Machine.State) => t.getF Reg.RST_STRAP_CODE = code ∧ t.flag Reg.RST_STRAP_UNSTABLE = codes.any (· != code) ∧
          t.aon.ticks = s.aon.ticks + dt ∧ t.fuses = s.fuses ∧ t.flash = s.flash
        let held := fun (sub path index : Nat) (t : Machine.State) => common t ∧ t.phase = .bistHeld ∧ t.clockOn = false ∧
          t.getF Reg.RST_STAGE_STEP = 15 ∧ t.getF Reg.RST_CAUSE_CAUSE = 9 ∧ t.getF Reg.RST_CAUSE_SUB = sub ∧ t.flag Reg.RST_ALARM_PIN = true ∧
          t.aon.bistAt = (path, index)
        (pin = none → third = none → fill = none → ∃ t, Machine.exec (.deviceStart dt raws rootOk rngOk pin bad fill () () ()) s = .next t ∧ common t ∧
          t.phase = .start ∧ t.clockOn = true ∧ t.getF Reg.RST_STAGE_STEP = 5 ∧ t.aon.cause = none ∧
          (∀ c u, s.aon.cause = some (c, u) → c < 16 → t.getF Reg.RST_CAUSE_CAUSE = c ∧ t.getF Reg.RST_CAUSE_SUB = u % 16 ∧ t.flag Reg.RST_CAUSE_CUR = false) ∧
          (s.aon.cause = none → t.reg Reg.RST_CAUSE = s.reg Reg.RST_CAUSE) ∧
          t.getF Reg.CLK_STAT_M_NOW = 150 ∧ t.rootM = 150 ∧ t.getF Reg.CLK_STAT_SRC_NOW = (if s.flag Reg.CLK_FLAG_XO_FAIL then 2 else 0) ∧
          t.flag Reg.CLK_STAT_LOCK = true ∧ t.flag Reg.VLT_STAT_ROOT_OK = rootOk ∧ t.flag Reg.VLT_STAT_RNG_OK = rngOk ∧
          (rngOk = false → t.flag Reg.VLT_STAT_RNGFAIL = true) ∧
          t.getF Reg.VLT_STAT_OKEY_STATE = Machine.okeyStateOf s.fuses % 4 ∧ t.getF Reg.CFG_FLOOR_FLOOR = Machine.floorOf s.fuses.floor % 256 ∧
          (code.testBit 3 = true → t.getF Reg.CFG_STAT_STATE = s.getF Reg.CFG_STAT_STATE) ∧ (code.testBit 3 = false → t.getF Reg.CFG_STAT_STATE = 2) ∧
          t.getF Reg.BIST_POST_GROUPS_REP = (groups.filter (fun g => !(Machine.groupMoves bad g).isEmpty)).length % 65536 ∧
          t.getF Reg.BIST_POST_LINKS_REP = (groups.map (fun g => (Machine.groupMoves bad g).length)).sum % 65536 ∧
          (∀ g ∈ groups, (∀ g' ∈ groups, Machine.groupKey g' = Machine.groupKey g → g' = g) →
            Machine.tget (fun _ => 0) t.spares (Machine.groupKey g) = (Machine.groupMoves bad g).foldl (fun m e => Machine.spareSet m e.2 e.1) 0)) ∧
        (∀ p, pin = some p → ∃ t, Machine.exec (.deviceStart dt raws rootOk rngOk pin bad fill () () ()) s = .next t ∧ held 1 7 p t) ∧
        (∀ g, pin = none → third = some g → ∃ t, Machine.exec (.deviceStart dt raws rootOk rngOk pin bad fill () () ()) s = .next t ∧ held 2 g.1 g.2 t) ∧
        (pin = none → third = none → fill = some none → ∃ t, Machine.exec (.deviceStart dt raws rootOk rngOk pin bad fill () () ()) s = .next t ∧ held 3 0 0 t) ∧
        (∀ c, pin = none → third = none → fill = some (some c) → ∃ t, Machine.exec (.deviceStart dt raws rootOk rngOk pin bad fill () () ()) s = .next t ∧
          held 3 7 c.val t ∧ t.flag (Reg.MEMC_STAT_FILLFAIL c.val) = true))) ∧
    (∀ sec : Fin 256, s.alive = true →
      let refused := fun (why : Nat) (t : Machine.State) => t.flag Reg.RST_BSTAT_REFUSED = true ∧
        t.getF Reg.RST_BSTAT_REF_WHY = why ∧ t.getF Reg.RST_BSTAT_LAST = sec.val ∧
        OnlyBitsEv [Reg.RST_BLK_SECTOR, Reg.RST_BSTAT_REFUSED, Reg.RST_BSTAT_REF_WHY, Reg.RST_BSTAT_LAST] 212 s t
      let quiet := s.napFenced sec.val = true ∧ Machine.napIdle s sec.val = true
      (240 ≤ sec.val → ∃ t, Machine.exec (.blockReset sec) s = .next t ∧ refused 3 t) ∧
      (sec.val < 240 → s.blk ≠ none → ∃ t, Machine.exec (.blockReset sec) s = .next t ∧ refused 2 t) ∧
      (sec.val < 240 → s.blk = none → ¬ quiet → ∃ t, Machine.exec (.blockReset sec) s = .next t ∧ refused 1 t) ∧
      (sec.val < 240 → s.blk = none → quiet → ∃ t, Machine.exec (.blockReset sec) s = .next t ∧ t.flag Reg.RST_BLK_BUSY = true ∧ t.blk = some (sec.val, 65) ∧
        t.getF Reg.RST_BLK_SECTOR = sec.val ∧ BitsBut [Reg.RST_BLK_SECTOR, Reg.RST_BLK_BUSY] s t ∧ { t with regs := s.regs, cyc := s.cyc, blk := s.blk } = s)) ∧
    (∀ sec, s.blk = some (sec, 0) → ∃ t, Machine.exec .blockResetEnd s = .next t ∧ t.blk = none ∧ t.flag Reg.RST_BLK_BUSY = false ∧
      t.flag Reg.RST_BSTAT_DONE = true ∧ t.getF Reg.RST_BSTAT_LAST = sec % 256 ∧ t.raised = (s.raiseEv 212).raised ∧
      BitsBut [Reg.RST_BLK_BUSY, Reg.RST_BSTAT_DONE, Reg.RST_BSTAT_LAST] s t ∧ { t with regs := s.regs, cyc := s.cyc, raised := s.raised, blk := s.blk } = s) ∧
    (∀ mask : Fin 16, s.alive = true → ∃ t, Machine.exec (.coreRelease mask) s = .next t ∧ t.ld = s.ld ∧
      (∀ i, i < 4 → t.core i = if mask.val.testBit i ∧ (s.core i).held = true then { s.core i with held := false, pc :=
        (s.reg (Reg.DBG_PC_LO i)).toNat + 2 ^ 32 * (s.reg (Reg.DBG_PC_HI i)).toNat } else s.core i) ∧
      (∀ i, i < 4 → (t.reg Reg.DBG_STAT).getLsbD i = ((s.reg Reg.DBG_STAT).getLsbD i && !(mask.val.testBit i && (s.core i).held))) ∧
      BitsBut [Reg.DBG_STAT_HELD] s t ∧ { t with regs := s.regs, cyc := s.cyc, cores := s.cores } = s) ∧
    (s.alive = true → Machine.exec .doneOk s = .next { s with ld := { s.ld with doneCur := false } })

/-- R377, R414 to R416, R420, R421, R423 to R427, R430: power states, supplies and their counters. With every core in WFI and PWR_MODE not RUN the entry begins; a
block that answers NACK, a latched wake or a missing answer refuses it with its block and reason, those after the lanes once the tick has ended and the lanes
are idle; then every NAP is fenced, and once the network is empty HOLD keeps everything, KEEP the banks marked for it, OFF none. A write of PWR_MODE during
entry is for the next one. Wakes are latched and recorded. A PWR_VSET write takes legal codes; from the next AON tick on the larger
of request and minimum applies, and the rails move to it. A regulator fault names its first rail. A residency read answers the low half and captures the high one. -/
def Obligations.PowerStates : Prop :=
  ∀ s : Machine.State,
    let mode := if s.aon.entry = 0 then s.getF Reg.PWR_MODE_MODE else s.aon.mode
    let refused := fun (t : Machine.State) (block why : Nat) => t.flag Reg.PWR_STATUS_REFUSED = true ∧ t.getF Reg.PWR_STATUS_REF_BLOCK = block ∧
      t.getF Reg.PWR_STATUS_REF_WHY = why ∧ t.flag Reg.PWR_STATUS_ENTERING = false ∧ t.aon.entry = 0 ∧ (216 ∈ t.raised ∨ 216 ∈ s.cyc.evs) ∧ t.phase = s.phase ∧ t.clockOn = true ∧
      t.stores = s.stores
    let done := fun (t : Machine.State) => t.clockOn = false ∧ t.aon.entry = 0 ∧ t.aon.entryAt = s.aon.ticks ∧
      t.fuses = s.fuses ∧ t.flash = s.flash ∧ t.phase = (if mode = 1 then .hold else if mode = 2 then .keep else .off) ∧
      (mode = 1 → t.stores = s.stores ∧ t.cores = s.cores ∧ t.time = s.time) ∧ (mode ≠ 1 → t.aon.vb = false) ∧
      (mode = 2 → (∀ b, b ∈ t.aon.retained ↔ b < 1920 ∧ s.flag (Reg.SEC_BCFG_KEEP (b / 8) (b % 8)) = true) ∧
        t.bmem = s.bmem.filter (fun kv => t.aon.retained.contains (kv.1 / 4096)) ∧ t.cfgw = [] ∧ t.mem = [] ∧ t.cores = []) ∧
      (mode ≠ 1 → mode ≠ 2 → t.aon.retained = [] ∧ t.bmem = [] ∧ t.cfgw = [] ∧ t.mem = [] ∧ t.cores = [])
    (s.phase = .run → s.dbgHalt = false → s.aon.entry ≠ 0 ∨ (mode ≠ 0 ∧ Machine.allWfi s = true) →
      (s.wakes ≠ 0 → ∃ t, Machine.exec .powerStateEntry s = .next t ∧ refused t 0 3 ∧ t.wakes = 0) ∧
      (s.wakes = 0 → s.aon.entry ≠ 2 →
        let within := if s.ramping = true then s.k ≠ 0 else s.time.inTick < s.time.tickSlots
        let sending := ∃ n, n < 144 ∧ s.flag (Reg.LN_WAKE_SENDING n) = true
        let fenced := Machine.entryFence (Machine.allLanesReeval { s.raiseF Reg.PWR_STATUS_ENTERING with
          clockOn := false, aon := { s.aon with entry := 2, mode := mode } })
        (mode = 1 → s.user = true → ∃ t, Machine.exec .powerStateEntry s = .next t ∧ refused t 1 1) ∧
        (mode ≠ 1 ∨ s.user = false →
          (within → ∃ t, Machine.exec .powerStateEntry s = .next t ∧
            t.flag Reg.PWR_STATUS_ENTERING = true ∧ t.aon = { s.aon with entry := max 1 s.aon.entry, mode := mode } ∧ BitsBut [Reg.PWR_STATUS_ENTERING] s t ∧
            { t with regs := s.regs, cyc := s.cyc, aon := s.aon } = s) ∧
          (¬ within → sending → ∃ t, Machine.exec .powerStateEntry s = .next t ∧ refused t 3 1) ∧
          (∀ b, ¬ within → ¬ sending → Machine.entryNack s = some b → ∃ t, Machine.exec .powerStateEntry s = .next t ∧ refused t b 1) ∧
          (¬ within → ¬ sending → Machine.entryNack s = none →
            (∀ i, (fenced.nap i).cred = 0 ∧ (fenced.nap i).lost = (s.nap i).lost + (s.nap i).cred) ∧
            (Machine.netEmpty fenced = false → Machine.exec .powerStateEntry s = .next fenced) ∧
            (Machine.netEmpty fenced = true → ∃ t, Machine.exec .powerStateEntry s = .next t ∧ done t)))) ∧
      (s.wakes = 0 → s.aon.entry = 2 →
        (Machine.netEmpty s = false → ∃ t, Machine.exec .powerStateEntry s = .next t ∧ t.flag Reg.PWR_STATUS_ENTERING = true ∧
          OnlyBits [Reg.PWR_STATUS_ENTERING] s t) ∧
        (Machine.netEmpty s = true → ∃ t, Machine.exec .powerStateEntry s = .next t ∧ done t))) ∧
    (s.phase ≠ .run ∨ s.dbgHalt = true ∨ (s.aon.entry = 0 ∧ (mode = 0 ∨ Machine.allWfi s = false)) → Machine.exec .powerStateEntry s = .next s) ∧
    (∀ block : Fin 12, (s.aon.entry ≠ 0 → block ≠ 0 → ∃ t, Machine.exec (.entryBlockTimeout block) s = .next t ∧ refused t block.val 2) ∧
      (s.aon.entry = 0 → Machine.exec (.entryBlockTimeout block) s = .next s)) ∧
    (∀ dt, s.phase = .hold ∨ s.phase = .keep ∨ s.phase = .off → s.flag Reg.PWR_WAKE_TIMER_EN = true → s.getF Reg.PWR_WTIME_TICKS ≠ 0 →
      s.aon.entryAt + s.getF Reg.PWR_WTIME_TICKS ≤ s.aon.ticks + dt → ∃ t, Machine.exec (.wakeTimer dt) s = .next t ∧
        t.wakes = (if s.wakes = 0 then 4 else s.wakes) ∧ t.aon.ticks = s.aon.ticks + dt ∧ t.phase = s.phase ∧ t.stores = s.stores) ∧
    (s.phase = .hold → s.wakes ≠ 0 → s.wakes < 8 → ∃ t, Machine.exec .wakeFromHold s = .next t ∧ t.phase = .run ∧ t.clockOn = true ∧ t.wakes = 0 ∧
      t.getF Reg.PWR_STATUS_LAST_WAKE = 1 ∧ t.getF Reg.PWR_STATUS_WAKE_SRC = s.wakes ∧ (217 ∈ t.raised ∨ 217 ∈ s.cyc.evs) ∧ t.stores = s.stores ∧ t.cores = s.cores) ∧
    (s.phase = .keep ∨ s.phase = .off → s.wakes ≠ 0 → s.wakes < 8 →
      let n := if s.phase = .keep then 2 else 3
      ∃ t, Machine.exec .wakeFromKeep s = .next t ∧ t.phase = .waiting ∧ t.aon = { s.aon with wakeFrom := n } ∧ t.wakes = 0 ∧
        t.getF Reg.PWR_STATUS_LAST_WAKE = n ∧ t.getF Reg.PWR_STATUS_WAKE_SRC = s.wakes ∧ t.reg Reg.RST_CAUSE = s.reg Reg.RST_CAUSE ∧
        t.getF Reg.RST_STAGE_STEP = 2 ∧
        BitsBut [Reg.PWR_STATUS_LAST_WAKE, Reg.PWR_STATUS_WAKE_SRC, Reg.RST_STAGE_STEP] s t ∧ { t with regs := s.regs, cyc := s.cyc, wakes := s.wakes, phase := s.phase, aon := s.aon } = s) ∧
    (∀ v : Word32, s.alive = true →
      let x := v.toNat
      let vf := x % 256
      let vt := x / 2 ^ 8 % 256
      let vs := x / 2 ^ 16 % 256
      let legal := fun (c : Nat) => 10 ≤ c ∧ c ≤ 60
      let locked := s.user = true ∧ s.flag Reg.TIME_STATUS_SYNC = true ∧ vf ≠ s.getF Reg.PWR_VSET_VF_REQ
      ∃ t, Machine.exec (.voltageRequest v) s = .next t ∧ (legal vf → ¬ locked → t.getF Reg.PWR_VSET_VF_REQ = vf) ∧
        (¬ legal vf ∨ locked → t.getF Reg.PWR_VSET_VF_REQ = s.getF Reg.PWR_VSET_VF_REQ) ∧
        t.getF Reg.PWR_VSET_VT_REQ = (if legal vt then vt else s.getF Reg.PWR_VSET_VT_REQ) ∧
        t.getF Reg.PWR_VSET_VS_REQ = (if legal vs then vs else s.getF Reg.PWR_VSET_VS_REQ) ∧
        (¬ legal vf ∨ locked ∨ ¬ legal vt ∨ ¬ legal vs → t.flag Reg.PWR_FLAG_BADVSET = true) ∧
        OnlyBits [Reg.PWR_VSET_VF_REQ, Reg.PWR_VSET_VT_REQ, Reg.PWR_VSET_VS_REQ, Reg.PWR_FLAG_BADVSET] s t ∧
        (∀ dt, 0 < dt → s.aon.vb = true → ∃ u, Machine.exec (.machineTimerInterrupt dt) t = .next u ∧
          u.getF Reg.PWR_VNOW_VF_NOW = max (t.getF Reg.PWR_VSET_VF_REQ) (Machine.minCodes (Machine.voltVco s)).1 ∧
          u.getF Reg.PWR_VNOW_VT_NOW = max (t.getF Reg.PWR_VSET_VT_REQ) (Machine.minCodes (Machine.voltVco s)).2.1 ∧
          u.getF Reg.PWR_VNOW_VS_NOW = max (t.getF Reg.PWR_VSET_VS_REQ) (Machine.minCodes (Machine.voltVco s)).2.2 ∧
          u.aon.rails = (Machine.railMove (2 * dt) s.aon.rails.1 (u.getF Reg.PWR_VNOW_VF_NOW),
            Machine.railMove (2 * dt) s.aon.rails.2.1 (u.getF Reg.PWR_VNOW_VT_NOW), Machine.railMove (2 * dt) s.aon.rails.2.2 (u.getF Reg.PWR_VNOW_VS_NOW)) ∧
          (u.flag Reg.PWR_VNOW_SLEW = true ↔ u.aon.rails ≠ (u.getF Reg.PWR_VNOW_VF_NOW, u.getF Reg.PWR_VNOW_VT_NOW, u.getF Reg.PWR_VNOW_VS_NOW)))) ∧
    (∀ rail : Fin 10, s.phase = .run → ∃ t, Machine.exec (.regulatorFault rail) s = .next t ∧ t.flag Reg.PWR_FLAG_REGFAULT = true ∧
      (s.flag Reg.PWR_FLAG_REGFAULT = true → t.getF Reg.PWR_FLAG_FAULT_RAIL = s.getF Reg.PWR_FLAG_FAULT_RAIL) ∧
      (s.flag Reg.PWR_FLAG_REGFAULT = false → (s.hwReg Reg.PWR_FLAG_REGFAULT.reg).bits.getLsbD Reg.PWR_FLAG_REGFAULT.lo = false →
        t.getF Reg.PWR_FLAG_FAULT_RAIL = rail.val) ∧
      OnlyBitsEv [Reg.PWR_FLAG_REGFAULT, Reg.PWR_FLAG_FAULT_RAIL] 222 s t) ∧
    (∀ (m : Fin 4) (dt : Nat), s.alive = true → s.aon.res.length = 4 → s.aon.wakeFrom < 4 →
      let c := if m.val = s.aon.wakeFrom then (s.aon.res.getD m.val 0 + dt) % 2 ^ 64 else s.aon.res.getD m.val 0
      ∃ t, Machine.exec (.residencyRead m dt) s = .next t ∧ t.resp = ⟨0, (BitVec.ofNat 32 c).setWidth 64⟩ ∧
        t.reg (Reg.PWR_RES_HI m) = BitVec.ofNat 32 (c / 2 ^ 32) ∧ t.aon.ticks = s.aon.ticks + dt ∧
        BitsBut (wholeReg (Reg.PWR_RES_HI m) :: Machine.tickFields) s t ∧ { t with regs := s.regs, cyc := s.cyc, resp := s.resp, aon := s.aon } = s)

/-- R428 to R432, R434 to R436, R438, R439: sensors, the governor and shutdown. A sample records every powered sensor, marks BAD one that fails its check or
jumps by more than 20 °C, and reads 0 from an unpowered one; the time at or below 80 °C is counted; a valid sensor at 110 °C or more in two consecutive samples shuts the device down with ALARM_N low,
THM_TRIP and cause THERMAL. A dwell boundary that is due moves the step up on a trigger and down when cooled, with event 219; a memory channel's HOT follows its sensors. The duty moves one step every 100 µs
and stays between 1 and 16; DEFICIT is raised once. The restart waits for 10 s of the sentinels at 80 °C or less. -/
def Obligations.ThermalProtection : Prop :=
  ∀ s : Machine.State,
    (∀ dt readings failed, s.phase ≠ .unpowered →
      let r := fun (n : Nat) => (((readings : List (BitVec 11))[n]?).getD 0).toNat
      let jump := fun (n : Nat) => ∃ e ∈ (Machine.tget (fun _ => []) s.th.hist n).head?, e.2 + 80 < r n ∨ r n + 80 < e.2
      let bad := fun (n : Nat) => s.flag (Reg.THM_TEMP_BAD n) = true ∨ n ∈ failed ∨ jump n
      (s.th.hot = [] → s.th.rated = [] → ∃ t, Machine.exec (.thermalSample dt readings failed) s = .next t ∧ t.phase = s.phase ∧
        t.aon.ticks = s.aon.ticks + dt ∧
        (∀ n, n < 272 → Machine.sensorPowered s n = true → t.getF (Reg.THM_TEMP_TEMP n) = r n ∧ (t.flag (Reg.THM_TEMP_BAD n) = true ↔ bad n) ∧
          (t.flag (Reg.THM_TEMP_VALID n) = true ↔ ¬ bad n)) ∧
        (∀ n, n < 272 → Machine.sensorPowered s n = false → t.getF (Reg.THM_TEMP_TEMP n) = 0 ∧ t.flag (Reg.THM_TEMP_VALID n) = false) ∧
        (∀ n, n ∈ t.th.hot → n < 272 ∧ (t.flag (Reg.THM_TEMP_VALID n) = true → 4 * (110 + 64) ≤ t.getF (Reg.THM_TEMP_TEMP n))) ∧
        (∀ c, c < 16 → (t.flag (Reg.MEMC_STAT_HOT c) = true ↔ ∃ i, i < 4 ∧ 4 * (85 + 64) < t.getF (Reg.THM_TEMP_TEMP (256 + 4 * (c / 4) + i)))) ∧
        (let step := if s.flag Reg.THM_STAT_FAST = true then 1 else 16
         t.th.now = s.th.now + step ∧ t.th.cool = (if Machine.coolNow t = true ∧ Machine.coolNow s = true then s.th.cool + step else 0)) ∧
        t.stores = s.stores ∧ t.fuses = s.fuses) ∧
      (∀ n, n < 272 → n ∈ s.th.hot → (∀ m ∈ s.th.hot, m < 272) → Machine.sensorPowered s n = true → ¬ bad n → 4 * (110 + 64) ≤ r n → s.aon.hot = false →
        (s.phase = .integrity ∨ s.phase = .bistHeld → ∃ t, Machine.exec (.thermalSample dt readings failed) s = .next t ∧ t.phase = s.phase ∧
          t.aon.hot = true ∧ t.aon.alarm = true ∧ t.aon.vb = false ∧ t.getF Reg.THM_TRIP_SUB = 1 ∧ t.fuses = s.fuses ∧ t.flash = s.flash) ∧
        (s.phase ≠ .integrity → s.phase ≠ .bistHeld → ∃ t, Machine.exec (.thermalSample dt readings failed) s = .next t ∧ t.phase = .waiting ∧ t.aon.hot = true ∧
          t.clockOn = false ∧ t.flag Reg.RST_ALARM_PIN = true ∧ t.getF Reg.THM_TRIP_SUB = 1 ∧ (∃ m ∈ s.th.hot, t.getF Reg.THM_TRIP_SENSOR = m) ∧
          t.aon.cause = some (Machine.firstCause s.aon.cause (5, 1)) ∧ t.fuses = s.fuses ∧ t.flash = s.flash ∧ t.bmem = []))) ∧
    (s.phase ≠ .unpowered → s.getF Reg.THM_STAT_STEP ≤ 16 →
      let n := s.getF Reg.THM_STAT_STEP
      let plMax := Machine.clampN 50 300 (s.getF Reg.THM_PL_PL_MAX)
      let moved := fun (m : Nat) (t : Machine.State) => t.getF Reg.THM_STAT_STEP = m ∧
        t.getF Reg.THM_PLNOW_PL = 8 * plMax * (16 - m) / 16 ∧ t.th = { s.th with plMax := plMax, dwell := s.getF Reg.THM_PL_DWELL, bound := some s.th.now } ∧
        t.getF Reg.THM_CNT_STEP_CNT = (if m = n then s.getF Reg.THM_CNT_STEP_CNT else min (s.getF Reg.THM_CNT_STEP_CNT + 1) 65535) ∧
        t.raised = (if m = n then s else s.raiseEv 219).raised ∧ BitsBut [Reg.THM_STAT_STEP, Reg.THM_PLNOW_PL, Reg.THM_CNT_STEP_CNT] s t ∧
        { t with regs := s.regs, cyc := s.cyc, raised := s.raised, th := s.th } = s
      let due := if n = 0 then Machine.thmTrigger s = true ∧ s.th.bound ≠ some s.th.now
        else ∀ t, s.th.bound = some t → t + 16 * max 1 s.th.dwell ≤ s.th.now
      (s.flag Reg.THM_CTRL_TEN = false ∨ ¬ due → Machine.exec .governorDwell s = .next s) ∧
      (s.flag Reg.THM_CTRL_TEN = true → due →
        (Machine.thmTrigger s = true → ∃ t, Machine.exec .governorDwell s = .next t ∧ moved (min 16 (n + 1)) t) ∧
        (Machine.thmTrigger s = false → n ≠ 0 → Machine.thmCooled s = true → ∃ t, Machine.exec .governorDwell s = .next t ∧ moved (n - 1) t) ∧
        (Machine.thmTrigger s = false → n ≠ 0 → Machine.thmCooled s = false → ∃ t, Machine.exec .governorDwell s = .next t ∧ moved n t))) ∧
    (∀ tot fix, s.phase ≠ .unpowered → tot < 65536 → fix < 65536 → 1 ≤ s.getF Reg.THM_STAT_DUTY → s.getF Reg.THM_STAT_DUTY ≤ 16 →
      let d := s.getF Reg.THM_STAT_DUTY
      let n := s.getF Reg.THM_STAT_STEP
      let pl := s.getF Reg.THM_PLNOW_PL
      let on := s.flag Reg.THM_CTRL_TEN = true ∧ n ≠ 0
      ∃ t, Machine.exec (.dutyAdjust tot fix) s = .next t ∧ t.getF Reg.THM_POWER_P_TOT = tot ∧ t.getF Reg.THM_POWER_P_FIX = fix ∧
        (s.flag Reg.THM_CTRL_TEN = false → t.getF Reg.THM_STAT_DUTY = 16) ∧
        (s.flag Reg.THM_CTRL_TEN = true → n = 0 → t.getF Reg.THM_STAT_DUTY = min 16 (d + 1)) ∧
        (on → pl < tot → t.getF Reg.THM_STAT_DUTY = max 1 (d - 1)) ∧
        (on → tot ≤ pl → 8 * tot + s.th.plMax ≤ 4 * s.th.plMax * (16 - n) → t.getF Reg.THM_STAT_DUTY = min 16 (d + 1)) ∧
        (on → tot ≤ pl → 4 * s.th.plMax * (16 - n) < 8 * tot + s.th.plMax → t.getF Reg.THM_STAT_DUTY = d) ∧
        (pl < fix → s.th.deficit = false → t.flag Reg.THM_FLAG_DEFICIT = true ∧ t.raised = (s.raiseEv 218).raised ∧ t.th.deficit = true) ∧
        (fix ≤ pl ∨ s.th.deficit = true → t.raised = s.raised ∧ t.flag Reg.THM_FLAG_DEFICIT = s.flag Reg.THM_FLAG_DEFICIT) ∧
        (fix < pl → t.th.deficit = false) ∧ (t.flag Reg.THM_STAT_DEF_NOW = true ↔ pl < fix) ∧
        BitsBut [Reg.THM_POWER_P_TOT, Reg.THM_POWER_P_FIX, Reg.THM_STAT_DUTY, Reg.THM_STAT_DEF_NOW, Reg.THM_FLAG_DEFICIT] s t ∧
        { t with regs := s.regs, cyc := s.cyc, raised := s.raised, th := s.th } = s) ∧
    (let cool := ∀ n ∈ Machine.coolSensors s, s.flag (Reg.THM_TEMP_VALID n) = true ∧ s.getF (Reg.THM_TEMP_TEMP n) ≤ 4 * (80 + 64)
     (s.aon.hot = true → s.phase = .waiting → cool → 160000 ≤ s.th.cool →
       Machine.exec .thermalRestart s = .next (Machine.stepTwo { s with aon := { s.aon with hot := false } })) ∧
     (s.aon.hot = false ∨ s.phase ≠ .waiting ∨ ¬ cool ∨ s.th.cool < 160000 → Machine.exec .thermalRestart s = .next s))

/-- R443: IDCODE captures the identification of the device: version, part number, manufacturer and a one. -/
def Obligations.IdcodeCapture : Prop :=
  ∀ s : Machine.State, Machine.servicePins s = true → ∃ t, Machine.exec .idcode s = .next t ∧ t.dbg.dr = 0x1A980DD3 ∧
    t.dbg.dr / 2 ^ 28 = 0x1 ∧ t.dbg.dr / 2 ^ 12 % 2 ^ 16 = 0xA980 ∧ t.dbg.dr / 2 % 2 ^ 11 = 0x6E9 ∧ t.dbg.dr % 2 = 1 ∧
    t.tapIr = 2 ∧ (Machine.tapAc s = false → { t with tapIr := s.tapIr, dbg := { t.dbg with dr := s.dbg.dr } } = s)

/-- R453: with bit 1 of CUR_ARM the device is reset with cause DEBUG, and an ARM in the same write acts first and only while RESET_N is low. -/
def Obligations.CurArmResetsTheDevice : Prop :=
  ∀ (s : Machine.State) (v : BitVec 2), Machine.servicePins s = true → v.getLsbD 1 = true → s.phase = .run ∨ s.phase = .start ∨ s.phase = .hold ∨ s.phase = .waiting → ∃ t,
    Machine.exec (.curArm v) s = .next t ∧ t.phase = .waiting ∧ t.aon.cause = some (Machine.firstCause s.aon.cause (8, 0)) ∧ t.clockOn = false ∧
    t.aon.cur = (s.aon.cur || (v.getLsbD 0 && s.aon.resetLow)) ∧ t.tapIr = 0x23

/-- R441, R442, R445, R452, R455: the instructions of the TAP. Each takes its code and captures its data register; PRELOAD loads the boundary
register; SAMPLE disturbs nothing; the EXTEST class captures the pins, drives the boundary register and holds every lane in IDLE; CAUSE_READ
captures cause, start-up step, alarm and the first BIST failure. -/
def Obligations.TapInstructions : Prop :=
  ∀ (s : Machine.State), Machine.servicePins s = true → Machine.tapAc s = false →
    let held := fun (code : Nat) (dr : Nat) => ({ s with tapIr := code, dbg := { s.dbg with dr := dr } } : Machine.State)
    let cause := (s.reg Reg.RST_CAUSE).toNat + 2 ^ 32 * s.getF Reg.RST_STAGE_STEP + 2 ^ 36 * s.getF Reg.RST_ALARM_PIN +
      2 ^ 37 * (s.aon.bistAt.1 % 8) + 2 ^ 40 * (s.aon.bistAt.2 % 2 ^ 20)
    Machine.exec .tapReset s = .next { s with tapIr := 2 } ∧
    Machine.exec .bypass s = .next (held 0xFF 0) ∧
    (∀ pins, Machine.exec (.sample pins) s = .next (held 1 pins.toNat)) ∧
    (∀ v, Machine.exec (.preload v) s = .next { s with tapIr := 3, dbg := { s.dbg with bnd := v } }) ∧
    Machine.exec .causeRead s = .next { held 0x25 cause with resp := ⟨0, BitVec.ofNat 64 cause⟩ } ∧
    (∀ v : BitVec 2, v.getLsbD 1 = false → Machine.exec (.curArm v) s = .next
      { held 0x23 (s.aon.cur.toNat + 2 * s.aon.resetLow.toNat) with aon := { s.aon with cur := s.aon.cur || (v.getLsbD 0 && s.aon.resetLow) } }) ∧
    (∀ pins v,
      let tests := fun (code : Nat) (t : Machine.State) => t.tapIr = code ∧ t.dbg = { s.dbg with dr := pins.toNat, bnd := v } ∧
        (∀ n < 144, t.laneState n = 0) ∧ t.stores = s.stores ∧ t.time = s.time
      (∃ t, Machine.exec (.extest pins v) s = .next t ∧ tests 0 t) ∧ (∃ t, Machine.exec (.extestPulse pins v) s = .next t ∧ tests 8 t) ∧
      (∃ t, Machine.exec (.extestTrain pins v) s = .next t ∧ tests 9 t))

/-- R446, R449, R450, R453: HALT makes the halt pending and puts every memory channel into self-refresh; it acts at once where the slot clock is
off. RESUME ends a halt, raises event 214, thaws the watchdog and, outside a root switch, wakes memory, or is remembered while the halt is pending. Service-bus reset resets
the device with cause DEBUG. -/
def Obligations.HaltAndResume : Prop :=
  ∀ (s : Machine.State), Machine.servicePins s = true → Machine.tapAc s = false →
    let on := s.phase = .run ∨ s.phase = .start ∨ s.phase = .hold
    let word := (s.flag Reg.DBG_STAT_HALTED).toNat + 2 * (s.flag Reg.DBG_STAT_HALT_PEND).toNat
    (on → s.dbgHalt = false → s.flag Reg.DBG_STAT_HALT_PEND = false → s.clockOn = true ∨ s.phase = .hold ∨ s.aon.entry ≠ 0 → ∃ t, Machine.exec .halt s = .next t ∧
      t.flag Reg.DBG_STAT_HALT_PEND = true ∧ (∀ c < 16, t.flag (Reg.MEMC_STAT_SREF c) = true) ∧ t.tapIr = 0x21 ∧
      t.dbg = { s.dbg with dr := word } ∧
      BitsBut (Reg.DBG_STAT_HALT_PEND :: (List.range 16).map Reg.MEMC_STAT_SREF) s t ∧
      { t with regs := s.regs, cyc := s.cyc, tapIr := s.tapIr, dbg := s.dbg } = s) ∧
    (on → s.dbgHalt = false → s.flag Reg.DBG_STAT_HALT_PEND = false → s.clockOn = false → s.phase ≠ .hold → s.aon.entry = 0 → s.dbg.resume = false → ∃ t,
      Machine.exec .halt s = .next t ∧ t.dbgHalt = true ∧ t.flag Reg.DBG_STAT_HALTED = true ∧ t.flag Reg.DBG_STAT_HALT_PEND = false ∧
      (∀ c < 16, t.flag (Reg.MEMC_STAT_SREF c) = true) ∧ t.flag Reg.WDT_STAT_FROZEN = s.flag Reg.WDT_CTRL_EN ∧ t.tapIr = 0x21 ∧
      t.stores = s.stores ∧ t.time = s.time) ∧
    (s.dbgHalt = false → s.flag Reg.DBG_STAT_HALT_PEND = true → Machine.exec .resume s = .next
      { s with tapIr := 0x22, dbg := { s.dbg with dr := word, resume := true } }) ∧
    (s.dbgHalt = true → s.user = false → s.dbg.wait = none → s.flag Reg.WDT_CTRL_EN = false → ∃ t, Machine.exec .resume s = .next t ∧
      t.dbgHalt = false ∧ t.flag Reg.DBG_STAT_HALTED = false ∧ t.raised = (({ s with dbgHalt := false } : Machine.State).raiseEv 214).raised ∧
      t.flag Reg.WDT_STAT_FROZEN = false ∧
      (∀ c < 16, t.flag (Reg.MEMC_STAT_SREF c) = (s.clk.ramp.isSome && s.flag (Reg.MEMC_STAT_SREF c))) ∧ t.time = s.time) ∧
    (on ∨ s.phase = .waiting → ∃ t, Machine.exec .sysrst s = .next t ∧ t.phase = .waiting ∧ t.clockOn = false ∧
      t.aon.cause = some (Machine.firstCause s.aon.cause (8, 0)) ∧ t.flash = s.flash ∧ t.fuses = s.fuses)

/-- R421, R423, R446 to R448, R456 to R458, R460, R462, R478: debug access, the I2C target, the run-time link test and GPIO. Update-DR issues one request of ID 0x204, with
peek on a read, or sets ACC_OVR while one is outstanding; in a halt a direct block answers at once and anything else waits. The I2C target
issues through the same engine, NACKs while it is busy, answers its status byte, and puts a new address into force at STOP. A link test is
refused or accepted; on its end a failing link is moved onto a free spare, or reads 0 from then on. Edges set GPIO_EVT with event 280 + b;
a wake pin latches a wake from HOLD, and on the way into it. -/
def Obligations.DebugAccessLinkTestAndPins : Prop :=
  ∀ s : Machine.State,
    let busy := s.flag Reg.DBG_STAT_ACC_BUSY
    let request := fun (write : Bool) (size key addr data : Nat) =>
      { Machine.mkReq write.toNat size 0x204 key addr (data % 2 ^ (8 * 2 ^ size) * 2 ^ (8 * (addr % 8)) % 2 ^ 64) with peek := !write }
    let sent := fun (u : Machine.State) (i2c write : Bool) (size key addr data : Nat) =>
      (Machine.issue (({ u with dbg := { u.dbg with i2c := i2c } } : Machine.State).raiseF Reg.DBG_STAT_ACC_BUSY) (request write size key addr data) 0 0).1
    (∀ v : BitVec 123, Machine.servicePins s = true → Machine.tapAc s = false →
      let x := v.toNat
      let op := x % 4
      let addr := x / 2 ^ 10 % 2 ^ 48
      let dr := busy.toNat + 4 * s.getF Reg.DBG_STAT_ACC_RESP + 2 ^ 59 * s.dbg.val.toNat
      let loaded := ({ s with tapIr := 0x20, dbg := { s.dbg with dr := dr } } : Machine.State)
      (op = 0 ∨ op = 3 ∨ Machine.engineOn s = false → Machine.exec (.dbgAccess v) s = .next loaded) ∧
      (op = 1 ∨ op = 2 → Machine.engineOn s = true →
        (busy = true → ∃ t, Machine.exec (.dbgAccess v) s = .next t ∧ t.flag Reg.DBG_STAT_ACC_OVR = true ∧
          BitsBut [Reg.DBG_STAT_ACC_OVR] s t ∧ { t with regs := s.regs, cyc := s.cyc } = loaded) ∧
        (busy = false → s.nocRuns = true → Machine.exec (.dbgAccess v) s =
          .next (sent loaded false (op == 2) (x / 4 % 4) (x / 16 % 64) addr (x / 2 ^ 59))) ∧
        (busy = false → s.dbgHalt = true → Machine.directBlock addr = false → ∃ t, Machine.exec (.dbgAccess v) s = .next t ∧
          t.flag Reg.DBG_STAT_ACC_BUSY = true ∧ t.dbg.wait = some (request (op == 2) (x / 4 % 4) (x / 16 % 64) addr (x / 2 ^ 59)) ∧ t.outst = s.outst ∧
          BitsBut [Reg.DBG_STAT_ACC_BUSY] s t) ∧
        (∀ o, busy = false → s.dbgHalt = true → Machine.directBlock addr = true → op = 1 → x / 4 % 4 = 2 → addr = 0x700000000 + o → o % 4 = 0 →
          (Machine.regRow o).isSome = true → ∃ u t, Machine.exec (.dbgAccess v) s = .next t ∧ BitsBut [Reg.DBG_STAT_ACC_BUSY] s u ∧
            (let g := Machine.regRead u o true 0x204
             t.flag Reg.DBG_STAT_ACC_BUSY = false ∧ t.getF Reg.DBG_STAT_ACC_RESP = g.2.1 % 4 ∧
             t.dbg.val = if g.2.1 = 0 then g.2.2.setWidth 64 else 0)))) ∧
    (∀ (a : BitVec 7) (addr : BitVec 48) (v : Word32),
      let stopped := fun (resp : Machine.Response) => ({ s with resp := resp, dbg := { s.dbg with i2cAddr := s.getF Reg.DBG_I2C_ADDR } } : Machine.State)
      let acked := fun (u : Machine.State) => ({ u with resp := ⟨0, 0⟩, dbg := { u.dbg with i2cAddr := s.getF Reg.DBG_I2C_ADDR } } : Machine.State)
      (Machine.i2cMine s a = false → Machine.exec (.i2cWrite a addr v) s = .next (stopped s.resp) ∧
        Machine.exec (.i2cRead a addr) s = .next (stopped s.resp) ∧ Machine.exec (.i2cStream a v) s = .next (stopped s.resp) ∧
        Machine.exec (.i2cStatusRead a) s = .next (stopped s.resp)) ∧
      (Machine.i2cMine s a = true →
        (busy = true ∨ Machine.engineOn s = false → Machine.exec (.i2cWrite a addr v) s = .next (stopped ⟨1, 0⟩) ∧
          Machine.exec (.i2cRead a addr) s = .next (stopped ⟨1, 0⟩) ∧ Machine.exec (.i2cStream a v) s = .next (stopped ⟨1, 0⟩)) ∧
        (busy = false → s.nocRuns = true →
          Machine.exec (.i2cWrite a addr v) s = .next (acked (sent s true true 2 0 addr.toNat v.toNat)) ∧
          Machine.exec (.i2cRead a addr) s = .next (acked (sent s true false 2 0 addr.toNat 0)) ∧
          Machine.exec (.i2cStream a v) s = .next (acked (sent s true true 2 0 0x70005001C v.toNat))) ∧
        Machine.exec (.i2cStatusRead a) s = .next (stopped ⟨0, BitVec.ofNat 64 (busy.toNat + 2 * s.getF Reg.DBG_STAT_ACC_RESP +
          8 * s.getF Reg.DBG_STAT_ACC_OVR + 256 * (s.dbg.val.toNat % 2 ^ 32))⟩))) ∧
    (∀ (pair : Fin 128) (repair : Bool), s.alive = true →
      let stored := fun (t : Machine.State) => t.getF Reg.BIST_RT_CTRL_PAIR = pair.val ∧ t.flag Reg.BIST_RT_CTRL_REPAIR = repair
      (120 ≤ pair.val ∨ s.rt ≠ none ∨ s.user = false → ∃ t, Machine.exec (.rtBistRequest pair repair) s = .next t ∧ stored t ∧
        t.flag Reg.BIST_RT_STAT_REFUSED = true ∧ OnlyBits [Reg.BIST_RT_CTRL_PAIR, Reg.BIST_RT_CTRL_REPAIR, Reg.BIST_RT_STAT_REFUSED] s t) ∧
      (pair.val < 120 → s.rt = none → s.user = true → ∃ t, Machine.exec (.rtBistRequest pair repair) s = .next t ∧ stored t ∧
        t.flag Reg.BIST_RT_STAT_BUSY = true ∧ t.rt = some { pair := pair.val, repair := repair, start := none, saved := [] } ∧
        BitsBut [Reg.BIST_RT_CTRL_PAIR, Reg.BIST_RT_CTRL_REPAIR, Reg.BIST_RT_STAT_BUSY] s t ∧ { t with regs := s.regs, cyc := s.cyc, rt := s.rt } = s)) ∧
    (∀ (e : Machine.RtTest) (j : Nat), s.rt = some e → e.start = some j → j + 200 ≤ s.time.slots →
      let ended := fun (t : Machine.State) => t.rt = none ∧ t.flag Reg.BIST_RT_STAT_DONE = true ∧ t.flag Reg.BIST_RT_STAT_BUSY = false ∧
        t.raised = (s.raiseEv 213).raised ∧ BitsBut [wholeReg Reg.BIST_RT_STAT, wholeReg Reg.BIST_RT_FAIL] s t ∧
        { t with regs := s.regs, cyc := s.cyc, raised := s.raised, rt := s.rt, spares := s.spares, vdead := s.vdead } = s
      (∃ t, Machine.exec (.rtBistRun []) s = .next t ∧ ended t ∧ t.getF Reg.BIST_RT_STAT_FAIL_CNT = 0 ∧ t.getF Reg.BIST_RT_STAT_REP_CNT = 0 ∧
        t.reg Reg.BIST_RT_FAIL = 0 ∧ t.spares = s.spares ∧ t.vdead = s.vdead) ∧
      (∀ (p : Fin 144) (n : Fin 50), n.val < 48 →
        let link := Machine.vlinkKey (Machine.tileOf e.pair (p.val % 12) (p.val / 12)) n.val
        Machine.tget (fun _ => 0) s.spares (144 * e.pair + p.val) = 0 → Machine.tget (fun _ => false) s.vdead link = false →
        ∃ t, Machine.exec (.rtBistRun [(p, n)]) s = .next t ∧ ended t ∧ t.getF Reg.BIST_RT_FAIL_U = p.val % 12 ∧ t.getF Reg.BIST_RT_FAIL_V = p.val / 12 ∧
          t.getF Reg.BIST_RT_FAIL_LINK = n.val ∧
          (e.repair = true → t.getF Reg.BIST_RT_STAT_REP_CNT = 1 ∧ t.getF Reg.BIST_RT_STAT_FAIL_CNT = 0 ∧ t.vdead = s.vdead ∧
            Machine.tget (fun _ => 0) t.spares (144 * e.pair + p.val) = n.val + 1) ∧
          (e.repair = false → t.getF Reg.BIST_RT_STAT_REP_CNT = 0 ∧ t.getF Reg.BIST_RT_STAT_FAIL_CNT = 1 ∧ t.flag Reg.BIST_RT_STAT_FAIL = true ∧
            t.spares = s.spares ∧ Machine.tget (fun _ => false) t.vdead link = true))) ∧
    (∀ b : Fin 4,
      let bits := s.gpio.edge.toNat / 2 ^ (24 * b.val) % 2 ^ 24
      (bits = 0 → Machine.exec (.gpioEdge b) s = .next s) ∧
      (bits ≠ 0 → ∃ t, Machine.exec (.gpioEdge b) s = .next t ∧ t.getF (Reg.GPIO_EVT_EDGE b) = s.getF (Reg.GPIO_EVT_EDGE b) ||| bits ∧
        t.raised = (s.raiseEv (280 + b.val)).raised ∧ (∀ i, t.gpio.edge.getLsbD i = (s.gpio.edge.getLsbD i && !decide (i / 24 = b.val))) ∧
        BitsBut [Reg.GPIO_EVT_EDGE b] s t ∧ { t with regs := s.regs, cyc := s.cyc, raised := s.raised, gpio := { t.gpio with edge := s.gpio.edge } } = s)) ∧
    (∀ i : Fin 96,
      let asleep := s.phase = .hold ∨ (s.aon.entry ≠ 0 ∧ s.aon.mode = 1)
      (asleep → s.flag (Reg.GPIO_CFG_WAKE_EN i) = true → Machine.pairOdd s i.val = false → s.flag Reg.PWR_WAKE_GPIO_EN = true →
        Machine.exec (.gpioWake i) s = .next { s with wakes := if s.wakes = 0 then 2 else s.wakes }) ∧
      (¬ asleep ∨ s.flag (Reg.GPIO_CFG_WAKE_EN i) = false ∨ Machine.pairOdd s i.val = true ∨ s.flag Reg.PWR_WAKE_GPIO_EN = false →
        Machine.exec (.gpioWake i) s = .next s))

/-- R4, R6, R51: a step takes the command at the front of the queue and runs it on the state with the queue's rest; on an empty queue the block idles,
its clock runs by the command SLOT. That commands wait in a queue, and that an empty one idles, is the model's own choice (log 1). -/
def Obligations.StepRunsFrontCommand : Prop :=
  ∀ (s : Machine.State), (∀ (c : Instr) (rest : List Instr), s.pending = c :: rest → Machine.step s = Machine.exec c { s with pending := rest }) ∧
    (s.pending = [] → Machine.step s = .next s)

/-- R7: the state after reset has every register at its reset value, no event raised, no command waiting, no memory written, no key, no fuse burned,
machine time at rest, and the device waiting for its start. -/
def Obligations.ResetState : Prop :=
  Machine.State.reset.pending = [] ∧ (∀ o, Machine.State.reset.reg o = Machine.regReset o) ∧ Machine.State.reset.raised = [] ∧ Machine.State.reset.clockOn = false ∧
  Machine.State.reset.phase = .waiting ∧ Machine.State.reset.fuses = ⟨0, false, 0, 0, 0⟩ ∧ Machine.State.reset.keyw = [] ∧ Machine.State.reset.stores = ([], [], [], [], [], [], []) ∧
  Machine.State.reset.time = Machine.TimeState.reset

/-- R7, R343: the invariant holds of the state after reset: no ill-formed command waits, and the flash image has its canonical form. -/
def Obligations.ResetMeetsInvariant : Prop := Machine.State.reset.Inv

/-- R343, R95: every step keeps the invariant, whatever command runs: the commands that wait stay well formed, and the flash image keeps its
canonical form. -/
def Obligations.EveryStepKeepsInvariant : Prop := ∀ s t : Machine.State, s.Inv → Machine.step s = .next t → t.Inv

/-- R298, R299, R345: a fuse bit that has burned stays burned, over every step and through every reset and loss of power. -/
def Obligations.FusesNeverClear : Prop := ∀ s t : Machine.State, Machine.step s = .next t → Machine.FusesKept s t

/-- R343: no command but the completion of a flash command changes flash. -/
def Obligations.OnlyFlashCompletionChangesFlash : Prop :=
  ∀ (c : Instr) (s t : Machine.State), (∀ failed, c ≠ .flashCommandComplete failed) → Machine.exec c s = .next t → t.flash = s.flash

/-- R14, R95: no command touches the queue of commands that wait (the queue is the model's own, log 1). -/
def Obligations.QueueIsKept : Prop := ∀ (c : Instr) (s t : Machine.State), Machine.exec c s = .next t → t.pending = s.pending

/-- R10, R14: every command, on every operand and in every state, answers a next state: none faults and none is refused. Where its conditions
do not hold it has no effect, and which effects it has is said command by command. -/
def Obligations.EveryCommandAnswers : Prop := ∀ (c : Instr) (s : Machine.State), ∃ t, Machine.exec c s = .next t

end
end

