-- ==== Sys2Proof/Laws/Exec.lean ====
section
/-!
SUPPORT. What exec answers for each command: one equation for each arm, so that no proof unfolds the dispatch.
-/

namespace Sys2Proof.Machine

theorem exec_registerWrite (s : State) off v : exec (.registerWrite off v) s = execRegisterWrite off v s := rfl
theorem exec_readClear (s : State) off peek : exec (.readClear off peek) s = execReadClear off peek s := rfl
theorem exec_slot (s : State) pins : exec (.slot pins) s = execSlot pins s := rfl
theorem exec_guardRelease (s : State) u v xy n : exec (.guardRelease u v xy n) s = execGuardRelease u v xy n s := rfl
theorem exec_tickBoundary (s : State) : exec (.tickBoundary) s = execTickBoundary s := rfl
theorem exec_doneRise (s : State) : exec (.doneRise) s = execDoneRise s := rfl
theorem exec_waitOrbitReminder (s : State) : exec (.waitOrbitReminder) s = execWaitOrbitReminder s := rfl
theorem exec_orbitMarkerEdge (s : State) start : exec (.orbitMarkerEdge start) s = execOrbitMarkerEdge start s := rfl
theorem exec_timingWord (s : State) lane bad k1 k2 c1 c2 : exec (.timingWord lane bad k1 k2 c1 c2) s = execTimingWord lane bad k1 k2 c1 c2 s := rfl
theorem exec_nop (s : State) : exec (.nop) s = execNop s := rfl
theorem exec_orbit (s : State) : exec (.orbit) s = execOrbit s := rfl
theorem exec_tickReset (s : State) : exec (.tickReset) s = execTickReset s := rfl
theorem exec_frameReset (s : State) : exec (.frameReset) s = execFrameReset s := rfl
theorem exec_clearReq (s : State) : exec (.clearReq) s = execClearReq s := rfl
theorem exec_swapGo (s : State) : exec (.swapGo) s = execSwapGo s := rfl
theorem exec_testPulse (s : State) : exec (.testPulse) s = execTestPulse s := rfl
theorem exec_frameBoundary (s : State) : exec (.frameBoundary) s = execFrameBoundary s := rfl
theorem exec_clearingWindowOpen (s : State) : exec (.clearingWindowOpen) s = execClearingWindowOpen s := rfl
theorem exec_userModeStart (s : State) : exec (.userModeStart) s = execUserModeStart s := rfl
theorem exec_startForce (s : State) : exec (.startForce) s = execStartForce s := rfl
theorem exec_doneFall (s : State) : exec (.doneFall) s = execDoneFall s := rfl
theorem exec_tickLoRead (s : State) : exec (.tickLoRead) s = execTickLoRead s := rfl
theorem exec_swapArm (s : State) sec v : exec (.swapArm sec v) s = execSwapArm sec v s := rfl
theorem exec_swapDisarm (s : State) sec v : exec (.swapDisarm sec v) s = execSwapDisarm sec v s := rfl
theorem exec_scheduleWrite (s : State) sec v : exec (.scheduleWrite sec v) s = execScheduleWrite sec v s := rfl
theorem exec_scheduleApply (s : State) sec : exec (.scheduleApply sec) s = execScheduleApply sec s := rfl
theorem exec_swap (s : State) sec : exec (.swap sec) s = execSwap sec s := rfl
theorem exec_madd (s : State) sec m : exec (.madd sec m) s = execMadd sec m s := rfl
theorem exec_leaf (s : State) sec m : exec (.leaf sec m) s = execLeaf sec m s := rfl
theorem exec_head (s : State) sec m : exec (.head sec m) s = execHead sec m s := rfl
theorem exec_macPortRead (s : State) sec pre p m : exec (.macPortRead sec pre p m) s = execMacPortRead sec pre p m s := rfl
theorem exec_macPortWrite (s : State) sec pre p m : exec (.macPortWrite sec pre p m) s = execMacPortWrite sec pre p m s := rfl
theorem exec_macPortServe (s : State) sec : exec (.macPortServe sec) s = execMacPortServe sec s := rfl
theorem exec_macPortTimeout (s : State) sec : exec (.macPortTimeout sec) s = execMacPortTimeout sec s := rfl
theorem exec_top (s : State) sec r : exec (.top sec r) s = execTop sec r s := rfl
theorem exec_flush (s : State) sec r : exec (.flush sec r) s = execFlush sec r s := rfl
theorem exec_merge (s : State) sec r : exec (.merge sec r) s = execMerge sec r s := rfl
theorem exec_matcherHit (s : State) sec h : exec (.matcherHit sec h) s = execMatcherHit sec h s := rfl
theorem exec_eventEnd (s : State) sec : exec (.eventEnd sec) s = execEventEnd sec s := rfl
theorem exec_road (s : State) sec : exec (.road sec) s = execRoad sec s := rfl
theorem exec_mtPortRead (s : State) sec stream a : exec (.mtPortRead sec stream a) s = execMtPortRead sec stream a s := rfl
theorem exec_mtPortWrite (s : State) sec stream a : exec (.mtPortWrite sec stream a) s = execMtPortWrite sec stream a s := rfl
theorem exec_mtStreamWrite (s : State) sec v : exec (.mtStreamWrite sec v) s = execMtStreamWrite sec v s := rfl
theorem exec_mtPortServe (s : State) sec : exec (.mtPortServe sec) s = execMtPortServe sec s := rfl
theorem exec_mtPortTimeout (s : State) sec : exec (.mtPortTimeout sec) s = execMtPortTimeout sec s := rfl
theorem exec_storeCheck (s : State) sec : exec (.storeCheck sec) s = execStoreCheck sec s := rfl
theorem exec_bankRead (s : State) sec ix : exec (.bankRead sec ix) s = execBankRead sec ix s := rfl
theorem exec_bankWrite (s : State) sec ix : exec (.bankWrite sec ix) s = execBankWrite sec ix s := rfl
theorem exec_bankAdd (s : State) sec ix : exec (.bankAdd sec ix) s = execBankAdd sec ix s := rfl
theorem exec_bankAddu (s : State) sec ix : exec (.bankAddu sec ix) s = execBankAddu sec ix s := rfl
theorem exec_bankAdds (s : State) sec ix : exec (.bankAdds sec ix) s = execBankAdds sec ix s := rfl
theorem exec_bankSwap (s : State) sec ix : exec (.bankSwap sec ix) s = execBankSwap sec ix s := rfl
theorem exec_bankNonownerServe (s : State) sec ix : exec (.bankNonownerServe sec ix) s = execBankNonownerServe sec ix s := rfl
theorem exec_ownerHandover (s : State) sec ix v : exec (.ownerHandover sec ix v) s = execOwnerHandover sec ix v s := rfl
theorem exec_bankConfigWrite (s : State) sec ix v : exec (.bankConfigWrite sec ix v) s = execBankConfigWrite sec ix v s := rfl
theorem exec_bankScrubVisit (s : State) sec ix : exec (.bankScrubVisit sec ix) s = execBankScrubVisit sec ix s := rfl
theorem exec_quadModeWrite (s : State) q v : exec (.quadModeWrite q v) s = execQuadModeWrite q v s := rfl
theorem exec_feAlignment (s : State) n bits phase fits rd : exec (.feAlignment n bits phase fits rd) s = execFeAlignment n bits phase fits rd s := rfl
theorem exec_feWordReceive (s : State) n w : exec (.feWordReceive n w) s = execFeWordReceive n w s := rfl
theorem exec_feAlignmentLoss (s : State) n drift : exec (.feAlignmentLoss n drift) s = execFeAlignmentLoss n drift s := rfl
theorem exec_feWordTransmit (s : State) n : exec (.feWordTransmit n) s = execFeWordTransmit n s := rfl
theorem exec_polarityWrite (s : State) n v : exec (.polarityWrite n v) s = execPolarityWrite n v s := rfl
theorem exec_trunkRateWrite (s : State) q v : exec (.trunkRateWrite q v) s = execTrunkRateWrite q v s := rfl
theorem exec_codewordSend (s : State) n : exec (.codewordSend n) s = execCodewordSend n s := rfl
theorem exec_codewordReceive (s : State) n syms : exec (.codewordReceive n syms) s = execCodewordReceive n syms s := rfl
theorem exec_codewordLock (s : State) n slip phase : exec (.codewordLock n slip phase) s = execCodewordLock n slip phase s := rfl
theorem exec_codewordLockLoss (s : State) n : exec (.codewordLockLoss n) s = execCodewordLockLoss n s := rfl
theorem exec_superframeLock (s : State) n : exec (.superframeLock n) s = execSuperframeLock n s := rfl
theorem exec_superframeLockLoss (s : State) n : exec (.superframeLockLoss n) s = execSuperframeLockLoss n s := rfl
theorem exec_streamVerify (s : State) n c : exec (.streamVerify n c) s = execStreamVerify n c s := rfl
theorem exec_streamBlockTransmit (s : State) n : exec (.streamBlockTransmit n) s = execStreamBlockTransmit n s := rfl
theorem exec_queuePacketSend (s : State) n : exec (.queuePacketSend n) s = execQueuePacketSend n s := rfl
theorem exec_queuePacketReceive (s : State) n : exec (.queuePacketReceive n) s = execQueuePacketReceive n s := rfl
theorem exec_queueDeliver (s : State) n q : exec (.queueDeliver n q) s = execQueueDeliver n q s := rfl
theorem exec_qackReceive (s : State) n : exec (.qackReceive n) s = execQackReceive n s := rfl
theorem exec_queueRetryTimeout (s : State) n q : exec (.queueRetryTimeout n q) s = execQueueRetryTimeout n q s := rfl
theorem exec_queueTailWrite (s : State) n q v : exec (.queueTailWrite n q v) s = execQueueTailWrite n q v s := rfl
theorem exec_queueHeadWrite (s : State) n q v : exec (.queueHeadWrite n q v) s = execQueueHeadWrite n q v s := rfl
theorem exec_laneEnable (s : State) n v : exec (.laneEnable n v) s = execLaneEnable n v s := rfl
theorem exec_laneRestart (s : State) n : exec (.laneRestart n) s = execLaneRestart n s := rfl
theorem exec_detectAttempt (s : State) n found : exec (.detectAttempt n found) s = execDetectAttempt n found s := rfl
theorem exec_trainComplete (s : State) n : exec (.trainComplete n) s = execTrainComplete n s := rfl
theorem exec_bitlockComplete (s : State) n : exec (.bitlockComplete n) s = execBitlockComplete n s := rfl
theorem exec_laneStateTimeout (s : State) n : exec (.laneStateTimeout n) s = execLaneStateTimeout n s := rfl
theorem exec_lossOfSignal (s : State) n : exec (.lossOfSignal n) s = execLossOfSignal n s := rfl
theorem exec_quadPllLock (s : State) q t : exec (.quadPllLock q t) s = execQuadPllLock q t s := rfl
theorem exec_quadPllLoss (s : State) q : exec (.quadPllLoss q) s = execQuadPllLoss q s := rfl
theorem exec_quadPllRecal (s : State) q : exec (.quadPllRecal q) s = execQuadPllRecal q s := rfl
theorem exec_hskMessage (s : State) n : exec (.hskMessage n) s = execHskMessage n s := rfl
theorem exec_handshakeExit (s : State) n : exec (.handshakeExit n) s = execHandshakeExit n s := rfl
theorem exec_laneWake (s : State) n pattern : exec (.laneWake n pattern) s = execLaneWake n pattern s := rfl
theorem exec_wakeSend (s : State) n : exec (.wakeSend n) s = execWakeSend n s := rfl
theorem exec_wakeSendEnd (s : State) n : exec (.wakeSendEnd n) s = execWakeSendEnd n s := rfl
theorem exec_testPatternWrite (s : State) n v : exec (.testPatternWrite n v) s = execTestPatternWrite n v s := rfl
theorem exec_prbsErrRead (s : State) n : exec (.prbsErrRead n) s = execPrbsErrRead n s := rfl
theorem exec_injSingle (s : State) n : exec (.injSingle n) s = execInjSingle n s := rfl
theorem exec_injBurst (s : State) n : exec (.injBurst n) s = execInjBurst n s := rfl
theorem exec_loopbackSelect (s : State) n lb : exec (.loopbackSelect n lb) s = execLoopbackSelect n lb s := rfl
theorem exec_tellerStop (s : State) t : exec (.tellerStop t) s = execTellerStop t s := rfl
theorem exec_tellerRun (s : State) t : exec (.tellerRun t) s = execTellerRun t s := rfl
theorem exec_tellerSoft (s : State) t : exec (.tellerSoft t) s = execTellerSoft t s := rfl
theorem exec_tellerInstruction (s : State) t : exec (.tellerInstruction t) s = execTellerInstruction t s := rfl
theorem exec_tellerFence (s : State) t : exec (.tellerFence t) s = execTellerFence t s := rfl
theorem exec_tellerEcall (s : State) t : exec (.tellerEcall t) s = execTellerEcall t s := rfl
theorem exec_tellerEbreak (s : State) t : exec (.tellerEbreak t) s = execTellerEbreak t s := rfl
theorem exec_vadd (s : State) t : exec (.vadd t) s = execVadd t s := rfl
theorem exec_vsub (s : State) t : exec (.vsub t) s = execVsub t s := rfl
theorem exec_vmul (s : State) t : exec (.vmul t) s = execVmul t s := rfl
theorem exec_vmulh (s : State) t : exec (.vmulh t) s = execVmulh t s := rfl
theorem exec_vmulhu (s : State) t : exec (.vmulhu t) s = execVmulhu t s := rfl
theorem exec_vmin (s : State) t : exec (.vmin t) s = execVmin t s := rfl
theorem exec_vminu (s : State) t : exec (.vminu t) s = execVminu t s := rfl
theorem exec_vmax (s : State) t : exec (.vmax t) s = execVmax t s := rfl
theorem exec_vmaxu (s : State) t : exec (.vmaxu t) s = execVmaxu t s := rfl
theorem exec_vseq (s : State) t : exec (.vseq t) s = execVseq t s := rfl
theorem exec_vslt (s : State) t : exec (.vslt t) s = execVslt t s := rfl
theorem exec_vsltu (s : State) t : exec (.vsltu t) s = execVsltu t s := rfl
theorem exec_vsel (s : State) t : exec (.vsel t) s = execVsel t s := rfl
theorem exec_vredsum (s : State) t : exec (.vredsum t) s = execVredsum t s := rfl
theorem exec_vredsumu (s : State) t : exec (.vredsumu t) s = execVredsumu t s := rfl
theorem exec_vsplat (s : State) t : exec (.vsplat t) s = execVsplat t s := rfl
theorem exec_vext (s : State) t : exec (.vext t) s = execVext t s := rfl
theorem exec_vextu (s : State) t : exec (.vextu t) s = execVextu t s := rfl
theorem exec_vins (s : State) t : exec (.vins t) s = execVins t s := rfl
theorem exec_vld (s : State) t : exec (.vld t) s = execVld t s := rfl
theorem exec_vst (s : State) t : exec (.vst t) s = execVst t s := rfl
theorem exec_vtally (s : State) t : exec (.vtally t) s = execVtally t s := rfl
theorem exec_twait (s : State) t : exec (.twait t) s = execTwait t s := rfl
theorem exec_tsettle (s : State) t : exec (.tsettle t) s = execTsettle t s := rfl
theorem exec_traise (s : State) t : exec (.traise t) s = execTraise t s := rfl
theorem exec_tellerWake (s : State) t : exec (.tellerWake t) s = execTellerWake t s := rfl
theorem exec_tellerSettleWake (s : State) t : exec (.tellerSettleWake t) s = execTellerSettleWake t s := rfl
theorem exec_nocRead (s : State) r vc : exec (.nocRead r vc) s = execNocRead r vc s := rfl
theorem exec_nocWrite (s : State) r vc : exec (.nocWrite r vc) s = execNocWrite r vc s := rfl
theorem exec_nocWrline (s : State) r : exec (.nocWrline r) s = execNocWrline r s := rfl
theorem exec_nocAdd (s : State) r vc : exec (.nocAdd r vc) s = execNocAdd r vc s := rfl
theorem exec_nocAddu (s : State) r vc : exec (.nocAddu r vc) s = execNocAddu r vc s := rfl
theorem exec_nocAdds (s : State) r vc : exec (.nocAdds r vc) s = execNocAdds r vc s := rfl
theorem exec_nocSwap (s : State) r vc : exec (.nocSwap r vc) s = execNocSwap r vc s := rfl
theorem exec_nocFlitForward (s : State) r out net : exec (.nocFlitForward r out net) s = execNocFlitForward r out net s := rfl
theorem exec_nocResponse (s : State) r dat vc : exec (.nocResponse r dat vc) s = execNocResponse r dat vc s := rfl
theorem exec_nocTimeout (s : State) id ln tag : exec (.nocTimeout id ln tag) s = execNocTimeout id ln tag s := rfl
theorem exec_tagQuarantineEnd (s : State) id ln tag : exec (.tagQuarantineEnd id ln tag) s = execTagQuarantineEnd id ln tag s := rfl
theorem exec_napCreditGrant (s : State) sec : exec (.napCreditGrant sec) s = execNapCreditGrant sec s := rfl
theorem exec_napInitiatorRequest (s : State) sec : exec (.napInitiatorRequest sec) s = execNapInitiatorRequest sec s := rfl
theorem exec_napResponsePresent (s : State) sec : exec (.napResponsePresent sec) s = execNapResponsePresent sec s := rfl
theorem exec_napTargetPresent (s : State) sec : exec (.napTargetPresent sec) s = execNapTargetPresent sec s := rfl
theorem exec_napTargetAnswer (s : State) sec : exec (.napTargetAnswer sec) s = execNapTargetAnswer sec s := rfl
theorem exec_napTargetLimit (s : State) sec : exec (.napTargetLimit sec) s = execNapTargetLimit sec s := rfl
theorem exec_napFence (s : State) sec : exec (.napFence sec) s = execNapFence sec s := rfl
theorem exec_napUnfence (s : State) sec : exec (.napUnfence sec) s = execNapUnfence sec s := rfl
theorem exec_memoryScrubVisit (s : State) c : exec (.memoryScrubVisit c) s = execMemoryScrubVisit c s := rfl
theorem exec_refresh (s : State) c : exec (.refresh c) s = execRefresh c s := rfl
theorem exec_fuseProgramOwnerKey (s : State) id : exec (.fuseProgramOwnerKey id) s = execFuseProgramOwnerKey id s := rfl
theorem exec_fuseProgramFloor (s : State) id : exec (.fuseProgramFloor id) s = execFuseProgramFloor id s := rfl
theorem exec_fuseBurnComplete (s : State) : exec (.fuseBurnComplete) s = execFuseBurnComplete s := rfl
theorem exec_keyClear (s : State) id v : exec (.keyClear id v) s = execKeyClear id v s := rfl
theorem exec_zeroise (s : State) id v : exec (.zeroise id v) s = execZeroise id v s := rfl
theorem exec_zeroiseComplete (s : State) : exec (.zeroiseComplete) s = execZeroiseComplete s := rfl
theorem exec_lockWrite (s : State) which id v : exec (.lockWrite which id v) s = execLockWrite which id v s := rfl
theorem exec_lockWindowExpiry (s : State) which : exec (.lockWindowExpiry which) s = execLockWindowExpiry which s := rfl
theorem exec_windowEnable (s : State) w v : exec (.windowEnable w v) s = execWindowEnable w v s := rfl
theorem exec_windowDisable (s : State) w v : exec (.windowDisable w v) s = execWindowDisable w v s := rfl
theorem exec_windowInitComplete (s : State) w : exec (.windowInitComplete w) s = execWindowInitComplete w s := rfl
theorem exec_rngRead (s : State) peek : exec (.rngRead peek) s = execRngRead peek s := rfl
theorem exec_rngHealthFail (s : State) : exec (.rngHealthFail) s = execRngHealthFail s := rfl
theorem exec_streamHeader (s : State) : exec (.streamHeader) s = execStreamHeader s := rfl
theorem exec_segment (s : State) : exec (.segment) s = execSegment s := rfl
theorem exec_framesRecord (s : State) bad : exec (.framesRecord bad) s = execFramesRecord bad s := rfl
theorem exec_hardblkRecord (s : State) late : exec (.hardblkRecord late) s = execHardblkRecord late s := rfl
theorem exec_bankinitRecord (s : State) late : exec (.bankinitRecord late) s = execBankinitRecord late s := rfl
theorem exec_firmwareRecord (s : State) late : exec (.firmwareRecord late) s = execFirmwareRecord late s := rfl
theorem exec_tellerRecord (s : State) late : exec (.tellerRecord late) s = execTellerRecord late s := rfl
theorem exec_keysRecord (s : State) : exec (.keysRecord) s = execKeysRecord s := rfl
theorem exec_regsRecord (s : State) late : exec (.regsRecord late) s = execRegsRecord late s := rfl
theorem exec_endSegment (s : State) : exec (.endSegment) s = execEndSegment s := rfl
theorem exec_stewardRelease (s : State) dt : exec (.stewardRelease dt) s = execStewardRelease dt s := rfl
theorem exec_doneRelease (s : State) : exec (.doneRelease) s = execDoneRelease s := rfl
theorem exec_doneGo (s : State) : exec (.doneGo) s = execDoneGo s := rfl
theorem exec_goFlash (s : State) foff : exec (.goFlash foff) s = execGoFlash foff s := rfl
theorem exec_goPort (s : State) : exec (.goPort) s = execGoPort s := rfl
theorem exec_streamAbort (s : State) : exec (.streamAbort) s = execStreamAbort s := rfl
theorem exec_refetch (s : State) bad : exec (.refetch bad) s = execRefetch bad s := rfl
theorem exec_servicePortWord (s : State) v : exec (.servicePortWord v) s = execServicePortWord v s := rfl
theorem exec_flashRead (s : State) : exec (.flashRead) s = execFlashRead s := rfl
theorem exec_flashProgram (s : State) : exec (.flashProgram) s = execFlashProgram s := rfl
theorem exec_flashErase (s : State) : exec (.flashErase) s = execFlashErase s := rfl
theorem exec_flashCommandComplete (s : State) failed : exec (.flashCommandComplete failed) s = execFlashCommandComplete failed s := rfl
theorem exec_configScrubCycle (s : State) sec : exec (.configScrubCycle sec) s = execConfigScrubCycle sec s := rfl
theorem exec_scrubRetry (s : State) sec : exec (.scrubRetry sec) s = execScrubRetry sec s := rfl
theorem exec_stewardInstruction (s : State) ix : exec (.stewardInstruction ix) s = execStewardInstruction ix s := rfl
theorem exec_cboClean (s : State) ix : exec (.cboClean ix) s = execCboClean ix s := rfl
theorem exec_cboFlush (s : State) ix : exec (.cboFlush ix) s = execCboFlush ix s := rfl
theorem exec_cboInval (s : State) ix : exec (.cboInval ix) s = execCboInval ix s := rfl
theorem exec_fenceI (s : State) ix : exec (.fenceI ix) s = execFenceI ix s := rfl
theorem exec_stewardFence (s : State) ix : exec (.stewardFence ix) s = execStewardFence ix s := rfl
theorem exec_stewardAmo (s : State) ix : exec (.stewardAmo ix) s = execStewardAmo ix s := rfl
theorem exec_wfi (s : State) ix : exec (.wfi ix) s = execWfi ix s := rfl
theorem exec_snoopRequest (s : State) : exec (.snoopRequest) s = execSnoopRequest s := rfl
theorem exec_snoopForward (s : State) j : exec (.snoopForward j) s = execSnoopForward j s := rfl
theorem exec_snoopAck (s : State) : exec (.snoopAck) s = execSnoopAck s := rfl
theorem exec_snoopGrant (s : State) ix : exec (.snoopGrant ix) s = execSnoopGrant ix s := rfl
theorem exec_snoopDone (s : State) : exec (.snoopDone) s = execSnoopDone s := rfl
theorem exec_snoopAckTimeout (s : State) ix : exec (.snoopAckTimeout ix) s = execSnoopAckTimeout ix s := rfl
theorem exec_eventPending (s : State) : exec (.eventPending) s = execEventPending s := rfl
theorem exec_eventClaim (s : State) ix peek : exec (.eventClaim ix peek) s = execEventClaim ix peek s := rfl
theorem exec_evtSwraise (s : State) e : exec (.evtSwraise e) s = execEvtSwraise e s := rfl
theorem exec_wdtEnable (s : State) id v : exec (.wdtEnable id v) s = execWdtEnable id v s := rfl
theorem exec_wdtKick (s : State) v : exec (.wdtKick v) s = execWdtKick v s := rfl
theorem exec_wdtStage1Expiry (s : State) dt : exec (.wdtStage1Expiry dt) s = execWdtStage1Expiry dt s := rfl
theorem exec_wdtStage2Expiry (s : State) dt : exec (.wdtStage2Expiry dt) s = execWdtStage2Expiry dt s := rfl
theorem exec_rcoReady (s : State) : exec (.rcoReady) s = execRcoReady s := rfl
theorem exec_xoReady (s : State) : exec (.xoReady) s = execXoReady s := rfl
theorem exec_xoStartFail (s : State) : exec (.xoStartFail) s = execXoStartFail s := rfl
theorem exec_aonSourceChange (s : State) : exec (.aonSourceChange) s = execAonSourceChange s := rfl
theorem exec_rootSwitch (s : State) src m : exec (.rootSwitch src m) s = execRootSwitch src m s := rfl
theorem exec_mrefSettled (s : State) khz : exec (.mrefSettled khz) s = execMrefSettled khz s := rfl
theorem exec_clockMonitorTrip (s : State) src : exec (.clockMonitorTrip src) s = execClockMonitorTrip src s := rfl
theorem exec_sourceRecovered (s : State) src : exec (.sourceRecovered src) s = execSourceRecovered src s := rfl
theorem exec_rcoTrimWindow (s : State) err : exec (.rcoTrimWindow err) s = execRcoTrimWindow err s := rfl
theorem exec_gpioDelayCompensate (s : State) b : exec (.gpioDelayCompensate b) s = execGpioDelayCompensate b s := rfl
theorem exec_powerOn (s : State) : exec (.powerOn) s = execPowerOn s := rfl
theorem exec_resetNAssert (s : State) : exec (.resetNAssert) s = execResetNAssert s := rfl
theorem exec_resetNRelease (s : State) : exec (.resetNRelease) s = execResetNRelease s := rfl
theorem exec_firmwareReset (s : State) id v : exec (.firmwareReset id v) s = execFirmwareReset id v s := rfl
theorem exec_vinLoss (s : State) : exec (.vinLoss) s = execVinLoss s := rfl
theorem exec_supplyWarning (s : State) vin vaux : exec (.supplyWarning vin vaux) s = execSupplyWarning vin vaux s := rfl
theorem exec_deviceStart (s : State) dt raws rootOk rngOk pin bad fill groups links moved : exec (.deviceStart dt raws rootOk rngOk pin bad fill groups links moved) s = execDeviceStart dt raws rootOk rngOk pin bad fill groups links moved s := rfl
theorem exec_blockReset (s : State) sec : exec (.blockReset sec) s = execBlockReset sec s := rfl
theorem exec_blockResetEnd (s : State) : exec (.blockResetEnd) s = execBlockResetEnd s := rfl
theorem exec_powerStateEntry (s : State) : exec (.powerStateEntry) s = execPowerStateEntry s := rfl
theorem exec_entryBlockTimeout (s : State) block : exec (.entryBlockTimeout block) s = execEntryBlockTimeout block s := rfl
theorem exec_wakeTimer (s : State) dt : exec (.wakeTimer dt) s = execWakeTimer dt s := rfl
theorem exec_wakeFromHold (s : State) : exec (.wakeFromHold) s = execWakeFromHold s := rfl
theorem exec_wakeFromKeep (s : State) : exec (.wakeFromKeep) s = execWakeFromKeep s := rfl
theorem exec_voltageRequest (s : State) v : exec (.voltageRequest v) s = execVoltageRequest v s := rfl
theorem exec_regulatorFault (s : State) rail : exec (.regulatorFault rail) s = execRegulatorFault rail s := rfl
theorem exec_residencyRead (s : State) m dt : exec (.residencyRead m dt) s = execResidencyRead m dt s := rfl
theorem exec_thermalSample (s : State) dt readings failed : exec (.thermalSample dt readings failed) s = execThermalSample dt readings failed s := rfl
theorem exec_governorDwell (s : State) : exec (.governorDwell) s = execGovernorDwell s := rfl
theorem exec_dutyAdjust (s : State) tot fix : exec (.dutyAdjust tot fix) s = execDutyAdjust tot fix s := rfl
theorem exec_thermalRestart (s : State) : exec (.thermalRestart) s = execThermalRestart s := rfl
theorem exec_tapReset (s : State) : exec (.tapReset) s = execTapReset s := rfl
theorem exec_extest (s : State) pins v : exec (.extest pins v) s = execExtest pins v s := rfl
theorem exec_sample (s : State) pins : exec (.sample pins) s = execSample pins s := rfl
theorem exec_preload (s : State) v : exec (.preload v) s = execPreload v s := rfl
theorem exec_idcode (s : State) : exec (.idcode) s = execIdcode s := rfl
theorem exec_extestPulse (s : State) pins v : exec (.extestPulse pins v) s = execExtestPulse pins v s := rfl
theorem exec_extestTrain (s : State) pins v : exec (.extestTrain pins v) s = execExtestTrain pins v s := rfl
theorem exec_bypass (s : State) : exec (.bypass) s = execBypass s := rfl
theorem exec_dbgAccess (s : State) v : exec (.dbgAccess v) s = execDbgAccess v s := rfl
theorem exec_halt (s : State) : exec (.halt) s = execHalt s := rfl
theorem exec_resume (s : State) : exec (.resume) s = execResume s := rfl
theorem exec_curArm (s : State) v : exec (.curArm v) s = execCurArm v s := rfl
theorem exec_sysrst (s : State) : exec (.sysrst) s = execSysrst s := rfl
theorem exec_cfgStream (s : State) v : exec (.cfgStream v) s = execCfgStream v s := rfl
theorem exec_causeRead (s : State) : exec (.causeRead) s = execCauseRead s := rfl
theorem exec_coreRelease (s : State) mask : exec (.coreRelease mask) s = execCoreRelease mask s := rfl
theorem exec_doneOk (s : State) : exec (.doneOk) s = execDoneOk s := rfl
theorem exec_i2cWrite (s : State) a addr v : exec (.i2cWrite a addr v) s = execI2cWrite a addr v s := rfl
theorem exec_i2cRead (s : State) a addr : exec (.i2cRead a addr) s = execI2cRead a addr s := rfl
theorem exec_i2cStream (s : State) a v : exec (.i2cStream a v) s = execI2cStream a v s := rfl
theorem exec_i2cStatusRead (s : State) a : exec (.i2cStatusRead a) s = execI2cStatusRead a s := rfl
theorem exec_rtBistRequest (s : State) pair repair : exec (.rtBistRequest pair repair) s = execRtBistRequest pair repair s := rfl
theorem exec_rtBistRun (s : State) fails : exec (.rtBistRun fails) s = execRtBistRun fails s := rfl
theorem exec_gpioEdge (s : State) b : exec (.gpioEdge b) s = execGpioEdge b s := rfl
theorem exec_gpioWake (s : State) ix : exec (.gpioWake ix) s = execGpioWake ix s := rfl
theorem exec_lossOfPower (s : State) : exec (.lossOfPower) s = execLossOfPower s := rfl
theorem exec_mrefLost (s : State) present : exec (.mrefLost present) s = execMrefLost present s := rfl
theorem exec_machineTimerInterrupt (s : State) dt : exec (.machineTimerInterrupt dt) s = execMachineTimerInterrupt dt s := rfl
theorem exec_prbsCheckerSync (s : State) n : exec (.prbsCheckerSync n) s = execPrbsCheckerSync n s := rfl
theorem exec_prbsSyncLoss (s : State) n : exec (.prbsSyncLoss n) s = execPrbsSyncLoss n s := rfl

end Sys2Proof.Machine
end

