-- ==== Sys2Proof/Laws/Table.lean ====
section
/-!
SUPPORT. Laws of the sparse tables: a read after a write of the same key gives the value written, a write leaves every other key
alone, and every table operation keeps the canonical form.
-/

namespace Sys2Proof.Machine

variable {α : Type}

theorem tget_filter_ne (d : Nat → α) (t : Tab α) (k k' : Nat) (h : k' ≠ k) :
    tget d (t.filter (fun kv => kv.1 != k)) k' = tget d t k' := by
  induction t with
  | nil => rfl
  | cons x t ih =>
    obtain ⟨a, v⟩ := x
    by_cases hk : a = k
    · subst hk; simp only [List.filter_cons, bne_self_eq_false, Bool.false_eq_true, if_false, tget]
      rw [ih, if_neg (fun e => h e.symm)]
    · have : (a != k) = true := by simpa using hk
      simp only [List.filter_cons, this, if_true, tget, ih]

theorem tget_filter_self (d : Nat → α) (t : Tab α) (k : Nat) : tget d (t.filter (fun kv => kv.1 != k)) k = d k := by
  induction t with
  | nil => rfl
  | cons x t ih =>
    obtain ⟨a, v⟩ := x
    by_cases hk : a = k
    · subst hk; simpa using ih
    · have : (a != k) = true := by simpa using hk
      simp only [List.filter_cons, this, if_true, tget, if_neg hk, ih]

theorem tget_tinsert_ne (d : Nat → α) (t : Tab α) (k k' : Nat) (v : α) (h : k' ≠ k) :
    tget d (tinsert k v t) k' = tget d t k' := by
  induction t with
  | nil => simp [tinsert, tget, Ne.symm h]
  | cons x t ih =>
    obtain ⟨a, w⟩ := x
    unfold tinsert; split
    · simp [tget, Ne.symm h]
    · simp [tget, ih]

theorem tget_tinsert_self (d : Nat → α) (t : Tab α) (k : Nat) (v : α) (h : ∀ kv ∈ t, kv.1 ≠ k) :
    tget d (tinsert k v t) k = v := by
  induction t with
  | nil => simp [tinsert, tget]
  | cons x t ih =>
    obtain ⟨a, w⟩ := x
    have ha : a ≠ k := h (a, w) List.mem_cons_self
    unfold tinsert; split
    · simp [tget]
    · simp only [tget, if_neg ha]; exact ih (fun kv hm => h kv (List.mem_cons_of_mem _ hm))

/-- A table with a key set is the other keys with the pair put in its place. -/
theorem tset_eq [DecidableEq α] (d : Nat → α) (t : Tab α) (k : Nat) (v : α) :
    tset d t k v = if v = d k then t.filter (fun kv => kv.1 != k) else tinsert k v (t.filter (fun kv => kv.1 != k)) := by
  unfold tset; cases t.filter (fun kv => kv.1 != k) <;> rfl

/-- A read after a write of the same key gives the value written. -/
@[simp] theorem tget_tset_self [DecidableEq α] (d : Nat → α) (t : Tab α) (k : Nat) (v : α) : tget d (tset d t k v) k = v := by
  rw [tset_eq]; split
  · rename_i h; rw [tget_filter_self, h]
  · exact tget_tinsert_self d _ k v (fun kv hm => by simpa using (List.mem_filter.mp hm).2)

/-- A write leaves every other key alone. -/
theorem tget_tset_ne [DecidableEq α] (d : Nat → α) (t : Tab α) (k k' : Nat) (v : α) (h : k' ≠ k) :
    tget d (tset d t k v) k' = tget d t k' := by
  rw [tset_eq]; split
  · exact tget_filter_ne d t k k' h
  · rw [tget_tinsert_ne d _ k k' v h, tget_filter_ne d t k k' h]

/-- What a write of one key leaves at any key. -/
theorem tget_tset [DecidableEq α] (d : Nat → α) (t : Tab α) (k k' : Nat) (v : α) :
    tget d (tset d t k v) k' = if k' = k then v else tget d t k' := by
  split
  · rename_i h; subst h; exact tget_tset_self d t k' v
  · rename_i h; exact tget_tset_ne d t k k' v h

/-! ### The canonical form -/

theorem twf_nil [DecidableEq α] (d : Nat → α) : twf d [] = true := rfl

/-- The canonical form said by membership and order. -/
theorem twf_iff [DecidableEq α] (d : Nat → α) (t : Tab α) :
    twf d t = true ↔ t.Pairwise (fun x y => x.1 < y.1) ∧ ∀ x ∈ t, x.2 ≠ d x.1 := by
  match t with
  | [] => simp [twf]
  | [(k, v)] => simp [twf]
  | (k, v) :: (k', v') :: r =>
    have ih := twf_iff d ((k', v') :: r)
    simp only [twf, Bool.and_eq_true, decide_eq_true_eq, ih]
    constructor
    · rintro ⟨hv, hk, hp, hm⟩
      refine ⟨List.pairwise_cons.mpr ⟨fun y hy => ?_, hp⟩, fun x hx => ?_⟩
      · rcases List.mem_cons.mp hy with rfl | hy
        · exact hk
        · exact Nat.lt_trans hk ((List.pairwise_cons.mp hp).1 y hy)
      · rcases List.mem_cons.mp hx with rfl | hx
        · exact hv
        · exact hm x hx
    · rintro ⟨hp, hm⟩
      exact ⟨hm (k, v) List.mem_cons_self, (List.pairwise_cons.mp hp).1 (k', v') List.mem_cons_self,
        (List.pairwise_cons.mp hp).2, fun x hx => hm x (List.mem_cons_of_mem _ hx)⟩

/-- Leaving pairs out keeps the canonical form. -/
theorem twf_filter [DecidableEq α] (d : Nat → α) (t : Tab α) (p : Nat × α → Bool) (h : twf d t = true) :
    twf d (t.filter p) = true := by
  rw [twf_iff] at h ⊢
  exact ⟨h.1.filter _, fun x hx => h.2 x (List.mem_filter.mp hx).1⟩

theorem mem_tinsert (t : Tab α) (k : Nat) (v : α) (x : Nat × α) (hx : x ∈ tinsert k v t) : x = (k, v) ∨ x ∈ t := by
  induction t with
  | nil => simpa [tinsert] using hx
  | cons y t ih =>
    obtain ⟨a, w⟩ := y
    unfold tinsert at hx; split at hx
    · simpa using hx
    · rcases List.mem_cons.mp hx with rfl | hx
      · exact Or.inr List.mem_cons_self
      · exact (ih hx).imp id (List.mem_cons_of_mem _)

theorem twf_tinsert [DecidableEq α] (d : Nat → α) (t : Tab α) (k : Nat) (v : α) (h : twf d t = true) (hv : v ≠ d k)
    (hk : ∀ x ∈ t, x.1 ≠ k) : twf d (tinsert k v t) = true := by
  rw [twf_iff] at h ⊢
  refine ⟨?_, fun x hx => ?_⟩
  · obtain ⟨hp, hm⟩ := h
    clear hm
    induction t with
    | nil => simp [tinsert]
    | cons y t ih =>
      obtain ⟨a, w⟩ := y
      have hy := List.pairwise_cons.mp hp
      unfold tinsert; split
      · rename_i hlt
        exact List.pairwise_cons.mpr ⟨fun z hz => by
          rcases List.mem_cons.mp hz with rfl | hz
          · exact hlt
          · exact Nat.lt_trans hlt (hy.1 z hz), hp⟩
      · rename_i hge
        have ha : a < k := Nat.lt_of_le_of_ne (Nat.le_of_not_lt hge) (hk (a, w) List.mem_cons_self)
        refine List.pairwise_cons.mpr ⟨fun z hz => ?_, ih (fun x hx => hk x (List.mem_cons_of_mem _ hx)) hy.2⟩
        rcases mem_tinsert t k v z hz with rfl | hz
        · exact ha
        · exact hy.1 z hz
  · rcases mem_tinsert t k v x hx with rfl | hx
    · exact hv
    · exact h.2 x hx

/-- A write keeps the canonical form. -/
theorem twf_tset [DecidableEq α] (d : Nat → α) (t : Tab α) (k : Nat) (v : α) (h : twf d t = true) :
    twf d (tset d t k v) = true := by
  rw [tset_eq]; split
  · exact twf_filter d t _ h
  · rename_i hv
    exact twf_tinsert d _ k v (twf_filter d t _ h) hv (fun x hx => by simpa using (List.mem_filter.mp hx).2)

/-- Several writes keep it. -/
theorem twf_tsets [DecidableEq α] (d : Nat → α) (kvs : List (Nat × α)) (t : Tab α) (h : twf d t = true) :
    twf d (tsets d t kvs) = true := by
  unfold tsets
  induction kvs generalizing t with
  | nil => exact h
  | cons x kvs ih => exact ih _ (twf_tset d t x.1 x.2 h)

/-- A change of every listed value keeps it. -/
theorem twf_tmap [DecidableEq α] (d : Nat → α) (f : Nat → α → α) (t : Tab α) (h : twf d t = true) :
    twf d (tmap d f t) = true := by
  rw [twf_iff] at h ⊢
  unfold tmap
  refine ⟨List.Pairwise.filter _ (List.pairwise_map.mpr h.1), fun x hx => ?_⟩
  simpa using (List.mem_filter.mp hx).2

end Sys2Proof.Machine
end

