-- ==== Sys2Proof/Laws/Regs.lean ====
section
/-!
SUPPORT. Laws of the register file: what a register and a field read after a register or a field is written.
-/

namespace Sys2Proof.Machine

/-- A register reads what was written to it. -/
@[simp] theorem reg_setReg_self (s : State) (o : Nat) (v : Word32) : (s.setReg o v).reg o = v := by
  simp [State.setReg, State.reg]

/-- A write of one register leaves every other one. -/
theorem reg_setReg_ne (s : State) (o o' : Nat) (v : Word32) (h : o' ≠ o) : (s.setReg o v).reg o' = s.reg o' := by
  simp [State.setReg, State.reg, tget_tset, h]

/-- A write of a field leaves every register but its own. -/
theorem reg_setF_ne (s : State) (f : Field) (v o : Nat) (h : o ≠ f.reg) : (s.setF f v).reg o = s.reg o :=
  reg_setReg_ne s _ _ _ h

theorem reg_setF_self (s : State) (f : Field) (v : Nat) : (s.setF f v).reg f.reg = putBits (s.reg f.reg) f.hi f.lo v :=
  reg_setReg_self s _ _

/-- Bits of a word with a field replaced lie below 2^32. -/
theorem putBits_lt (w : Word32) (hi lo v : Nat) (hl : lo ≤ hi) (hh : hi < 32) :
    w.toNat % 2 ^ lo + 2 ^ lo * (v % 2 ^ (hi + 1 - lo)) + 2 ^ (hi + 1) * (w.toNat / 2 ^ (hi + 1)) < 2 ^ 32 := by
  have h1 : w.toNat % 2 ^ lo < 2 ^ lo := Nat.mod_lt _ (by positivity)
  have h2 : v % 2 ^ (hi + 1 - lo) < 2 ^ (hi + 1 - lo) := Nat.mod_lt _ (by positivity)
  have e1 : 2 ^ lo * 2 ^ (hi + 1 - lo) = 2 ^ (hi + 1) := by rw [← pow_add]; congr 1; omega
  have h3 : w.toNat % 2 ^ lo + 2 ^ lo * (v % 2 ^ (hi + 1 - lo)) < 2 ^ (hi + 1) := by
    calc _ < 2 ^ lo + 2 ^ lo * (v % 2 ^ (hi + 1 - lo)) := by omega
      _ = 2 ^ lo * (v % 2 ^ (hi + 1 - lo) + 1) := by ring
      _ ≤ 2 ^ lo * 2 ^ (hi + 1 - lo) := Nat.mul_le_mul_left _ h2
      _ = 2 ^ (hi + 1) := e1
  have e2 : 2 ^ (hi + 1) * 2 ^ (32 - (hi + 1)) = 2 ^ 32 := by rw [← pow_add]; congr 1; omega
  have h4 : w.toNat / 2 ^ (hi + 1) < 2 ^ (32 - (hi + 1)) := by
    apply Nat.div_lt_of_lt_mul; rw [e2]; exact w.isLt
  calc _ < 2 ^ (hi + 1) + 2 ^ (hi + 1) * (w.toNat / 2 ^ (hi + 1)) := by omega
    _ = 2 ^ (hi + 1) * (w.toNat / 2 ^ (hi + 1) + 1) := by ring
    _ ≤ 2 ^ (hi + 1) * 2 ^ (32 - (hi + 1)) := Nat.mul_le_mul_left _ h4
    _ = 2 ^ 32 := e2

theorem putBits_toNat (w : Word32) (hi lo v : Nat) (hl : lo ≤ hi) (hh : hi < 32) :
    (putBits w hi lo v).toNat =
      w.toNat % 2 ^ lo + 2 ^ lo * (v % 2 ^ (hi + 1 - lo)) + 2 ^ (hi + 1) * (w.toNat / 2 ^ (hi + 1)) := by
  unfold putBits
  rw [BitVec.toNat_ofNat]
  exact Nat.mod_eq_of_lt (putBits_lt w hi lo v hl hh)

/-- A bit of a word with a field replaced. -/
theorem putBits_testBit (w : Word32) (hi lo v i : Nat) (hl : lo ≤ hi) (hh : hi < 32) :
    (putBits w hi lo v).toNat.testBit i =
      if lo ≤ i ∧ i ≤ hi then v.testBit (i - lo) else w.toNat.testBit i := by
  rw [putBits_toNat w hi lo v hl hh]
  have e1 : 2 ^ (hi + 1) = 2 ^ lo * 2 ^ (hi + 1 - lo) := by rw [← pow_add]; congr 1; omega
  have e : w.toNat % 2 ^ lo + 2 ^ lo * (v % 2 ^ (hi + 1 - lo)) + 2 ^ (hi + 1) * (w.toNat / 2 ^ (hi + 1)) =
      2 ^ lo * (2 ^ (hi + 1 - lo) * (w.toNat / 2 ^ (hi + 1)) + v % 2 ^ (hi + 1 - lo)) + w.toNat % 2 ^ lo := by
    rw [e1]; ring
  rw [e, Nat.testBit_two_pow_mul_add _ (Nat.mod_lt _ (by positivity))]
  split
  · rename_i h
    rw [if_neg (by omega), Nat.testBit_mod_two_pow]; simp [h]
  · rename_i h
    rw [Nat.testBit_two_pow_mul_add _ (Nat.mod_lt _ (by positivity))]
    split
    · rename_i h2
      rw [if_pos (by omega), Nat.testBit_mod_two_pow]; simp [h2]
    · rename_i h2
      rw [if_neg (by omega), ← Nat.shiftRight_eq_div_pow, Nat.testBit_shiftRight]; congr 1; omega

theorem testBit_field (x hi lo i : Nat) :
    (x / 2 ^ lo % 2 ^ (hi + 1 - lo)).testBit i = (decide (i < hi + 1 - lo) && x.testBit (lo + i)) := by
  rw [Nat.testBit_mod_two_pow, ← Nat.shiftRight_eq_div_pow, Nat.testBit_shiftRight]

/-- A field reads what was written to it, cut to its width. -/
theorem getF_setF_self (s : State) (f : Field) (v : Nat) (hl : f.lo ≤ f.hi) (hh : f.hi < 32) :
    (s.setF f v).getF f = v % 2 ^ (f.hi + 1 - f.lo) := by
  unfold State.getF; rw [reg_setF_self]
  apply Nat.eq_of_testBit_eq; intro i
  rw [testBit_field, putBits_testBit _ _ _ _ _ hl hh, Nat.testBit_mod_two_pow]
  by_cases h : i < f.hi + 1 - f.lo
  · rw [if_pos ⟨by omega, by omega⟩]; simp [h]
  · simp [h]

/-- A write of a field leaves the fields of other registers. -/
theorem getF_setF_reg_ne (s : State) (f g : Field) (v : Nat) (h : g.reg ≠ f.reg) : (s.setF f v).getF g = s.getF g := by
  unfold State.getF; rw [reg_setF_ne s f v _ h]

/-- A write of a field leaves a field that shares no bit with it. -/
theorem getF_setF_disjoint (s : State) (f g : Field) (v : Nat) (hl : f.lo ≤ f.hi) (hh : f.hi < 32)
    (h : f.hi < g.lo ∨ g.hi < f.lo) : (s.setF f v).getF g = s.getF g := by
  by_cases hr : g.reg = f.reg
  · unfold State.getF; rw [hr, reg_setF_self]
    apply Nat.eq_of_testBit_eq; intro i
    rw [testBit_field, testBit_field, putBits_testBit _ _ _ _ _ hl hh]
    by_cases hi : i < g.hi + 1 - g.lo
    · rw [if_neg (by omega)]
    · simp [hi]
  · exact getF_setF_reg_ne s f g v hr

/-- A write of a register leaves the fields of other registers. -/
theorem getF_setReg_ne (s : State) (o : Nat) (v : Word32) (g : Field) (h : g.reg ≠ o) : (s.setReg o v).getF g = s.getF g := by
  unfold State.getF; rw [reg_setReg_ne s o _ v h]

theorem getF_setReg_self (s : State) (o : Nat) (v : Word32) (g : Field) (h : g.reg = o) :
    (s.setReg o v).getF g = v.toNat / 2 ^ g.lo % 2 ^ (g.hi + 1 - g.lo) := by
  unfold State.getF; rw [h, reg_setReg_self]

/-! ### The record of the slot -/

/-- States with the same registers read the same registers, fields and flags. -/
theorem reg_of_regs {s t : State} (e : t.regs = s.regs) (o : Nat) : t.reg o = s.reg o := by unfold State.reg; rw [e]

theorem getF_of_regs {s t : State} (e : t.regs = s.regs) (f : Field) : t.getF f = s.getF f := by
  unfold State.getF; rw [reg_of_regs e]

theorem flag_of_regs {s t : State} (e : t.regs = s.regs) (f : Field) : t.flag f = s.flag f := by
  unfold State.flag; rw [getF_of_regs e]

/-- What is recorded of a slot changes no register. -/
@[simp] theorem reg_note (s : State) (o : Nat) (h : HwReg) (x : Nat) : (s.note o h).reg x = s.reg x := reg_of_regs rfl x
@[simp] theorem getF_note (s : State) (o : Nat) (h : HwReg) (f : Field) : (s.note o h).getF f = s.getF f := getF_of_regs rfl f
@[simp] theorem flag_note (s : State) (o : Nat) (h : HwReg) (f : Field) : (s.note o h).flag f = s.flag f := flag_of_regs rfl f

/-- A raised flag reads as a field set to 1. -/
theorem reg_raiseF (s : State) (f : Field) (o : Nat) : (s.raiseF f).reg o = (s.setF f 1).reg o := reg_of_regs rfl o
theorem getF_raiseF_eq (s : State) (f g : Field) : (s.raiseF f).getF g = (s.setF f 1).getF g := getF_of_regs rfl g

/-- A count reads as its field set to the sum, or to all ones where that is larger. -/
theorem reg_addF (s : State) (f : Field) (n o : Nat) :
    (s.addF f n).reg o = (s.setF f (min (s.getF f + n) (2 ^ (f.hi + 1 - f.lo) - 1))).reg o := reg_of_regs rfl o
theorem getF_addF_eq (s : State) (f g : Field) (n : Nat) :
    (s.addF f n).getF g = (s.setF f (min (s.getF f + n) (2 ^ (f.hi + 1 - f.lo) - 1))).getF g := getF_of_regs rfl g

/-- A raised flag is 1. -/
theorem flag_raiseF (s : State) (f : Field) (hl : f.lo ≤ f.hi) (hh : f.hi < 32) : (s.raiseF f).flag f = true := by
  unfold State.flag
  rw [getF_raiseF_eq, getF_setF_self s f 1 hl hh]
  have : 1 % 2 ^ (f.hi + 1 - f.lo) = 1 := Nat.mod_eq_of_lt (Nat.one_lt_two_pow (by omega))
  simp [this]

/-- A cleared flag is 0. -/
theorem flag_clearF (s : State) (f : Field) (hl : f.lo ≤ f.hi) (hh : f.hi < 32) : (s.clearF f).flag f = false := by
  unfold State.flag State.clearF
  rw [getF_setF_self s f 0 hl hh]; simp

end Sys2Proof.Machine
end

