-- ==== Sys2Proof/Laws/Kept.lean ====
section
/-!
SUPPORT. What the operations of the machine leave alone: the queue of commands, flash, and the burned fuses. One lemma for each
operation, so that no later proof unfolds it for this; the few operations that program flash or burn fuses have no such lemma.
-/

set_option linter.unusedSimpArgs false
set_option linter.unusedTactic false
set_option linter.unreachableTactic false
set_option maxRecDepth 4000

namespace Sys2Proof.Machine
/-- What hardly any command touches: the queue, flash and the burned fuses. -/
def State.kept (s : State) : List Instr × Tab CodeWord × Nat × Nat := (s.pending, s.flash, s.fuses.okey, s.fuses.floor)
/-- A command that leaves those as they are. -/
def ResKept (s : State) (r : Res) : Prop := ∀ t, r = .next t → t.kept = s.kept
@[simp] theorem kept_fold (s : State) : (s.pending, s.flash, s.fuses.okey, s.fuses.floor) = s.kept := by simp only [State.kept]
@[simp] theorem resKept_next (s t : State) : ResKept s (.next t) ↔ t.kept = s.kept := by simp [ResKept]
@[simp] theorem resKept_ok (s t : State) : ResKept s (ok t) ↔ t.kept = s.kept := by simp [ResKept]
@[simp] theorem resKept_okIf (c : Bool) (s a t : State) : ResKept s (okIf c a t) ↔ (if c then t.kept else a.kept) = s.kept := by
  unfold okIf; split <;> simp
/-- The same of a special register access. -/
def OptKept {α : Type} (s : State) (o : Option (State × α)) : Prop := ∀ p, o = some p → p.1.kept = s.kept
@[simp] theorem optKept_none {α : Type} (s : State) : OptKept s (none : Option (State × α)) := by simp [OptKept]
@[simp] theorem optKept_some {α : Type} (s : State) (p : State × α) : OptKept s (some p) ↔ p.1.kept = s.kept := by
  simp [OptKept]
@[simp] theorem optKept_map {α β : Type} (s t : State) (o : Option α) (f : α → β) (h : t.kept = s.kept) :
    OptKept s (o.map (fun w => (t, f w))) := by cases o <;> simp [h]
@[simp] theorem optKept_okay (s t : State) : OptKept s (okay t) ↔ t.kept = s.kept := by simp [okay]
/-- The same of a target that serves a request. -/
def ServedKept (s : State) : Served → Prop
  | .answer t _ _ => t.kept = s.kept
  | .taken t => t.kept = s.kept
  | .waits => True
@[simp] theorem servedKept_answer (s t : State) (a b : Nat) : ServedKept s (.answer t a b) ↔ t.kept = s.kept := Iff.rfl
@[simp] theorem servedKept_taken (s t : State) : ServedKept s (.taken t) ↔ t.kept = s.kept := Iff.rfl
@[simp] theorem servedKept_waits (s : State) : ServedKept s .waits := trivial
@[simp] theorem servedKept_refuse (s t : State) : ServedKept s (refuse t) ↔ t.kept = s.kept := Iff.rfl
/-- A RAM port that leaves them as they are. -/
def PortKept (p : RamPort) : Prop :=
  (∀ s w, (p.look s w).1.kept = s.kept) ∧ (∀ s w, (p.read s w).1.kept = s.kept) ∧ ∀ s w v be, (p.write s w v be).kept = s.kept
theorem fst_ite {α : Type} {c : Prop} [Decidable c] {a b : State × α} {s : State} (ha : a.1.kept = s.kept)
    (hb : b.1.kept = s.kept) : (if c then a else b).1.kept = s.kept := by split <;> assumption
theorem opt_ite {α : Type} {c : Prop} [Decidable c] {a b : Option (State × α)} {s : State} (ha : OptKept s a)
    (hb : OptKept s b) : OptKept s (if c then a else b) := by split <;> assumption
theorem fst_kept {α : Type} {s t : State} {p : State × α} {x : α} (h : p = (t, x)) (hp : p.1.kept = s.kept) : t.kept = s.kept := by
  rw [h] at hp; exact hp
theorem foldl_kept {α : Type} (g : State → α → State) (h : ∀ s x, (g s x).kept = s.kept) (l : List α) (s : State) :
    (l.foldl g s).kept = s.kept := by
  induction l generalizing s with
  | nil => rfl
  | cons x t ih => simp [List.foldl_cons, ih, h]
theorem foldl_kept1 {α β : Type} (g : State × β → α → State × β) (h : ∀ s x, (g s x).1.kept = s.1.kept) (l : List α)
    (s : State × β) : (l.foldl g s).1.kept = s.1.kept := by
  induction l generalizing s with
  | nil => rfl
  | cons x t ih => simp [List.foldl_cons, ih, h]
theorem foldr_kept {α : Type} (g : α → State → State) (h : ∀ x s, (g x s).kept = s.kept) (l : List α) (s : State) :
    (l.foldr g s).kept = s.kept := by
  induction l with
  | nil => rfl
  | cons x t ih => simp [List.foldr_cons, ih, h]
@[simp] theorem kept_mk pending_ regs_ resp_ fresh_ raised_ cyc_ clockOn_ time_ schedPend_ armFresh_ cfgw_ sreg_ wreg_
    vheld_ sweepDone_ macAcc_ macPre_ macs_ macWait_ rankers_ mstore_ matchers_ bmem_ banks_ bsel_ bdirty_ tally_
    policy_ blk_ taint_ rsps_ fe_ refHz_ rootM_ phase_ dbgHalt_ netq_ netPtr_ memq_ memPtr_ inject_ outst_ quar_ naps_
    mem_ tram_ sram_ tellers_ keyw_ winKey_ rootw_ nodes_ zeroing_ okeys_ fuses_ tk_ laneTest_ pllDue_ wakes_ tapIr_
    flash_ ld_ loaded_ scrub_ pstore_ sweepIdx_ cores_ hub_ evtPtr_ aon_ th_ rt_ vdead_ spares_ dbg_ gpio_ clk_ :
        State.kept (State.mk pending_ regs_ resp_ fresh_ raised_ cyc_ clockOn_ time_ schedPend_ armFresh_ cfgw_ sreg_
    wreg_ vheld_ sweepDone_ macAcc_ macPre_ macs_ macWait_ rankers_ mstore_ matchers_ bmem_ banks_ bsel_ bdirty_
    tally_ policy_ blk_ taint_ rsps_ fe_ refHz_ rootM_ phase_ dbgHalt_ netq_ netPtr_ memq_ memPtr_ inject_ outst_
    quar_ naps_ mem_ tram_ sram_ tellers_ keyw_ winKey_ rootw_ nodes_ zeroing_ okeys_ fuses_ tk_ laneTest_ pllDue_
    wakes_ tapIr_ flash_ ld_ loaded_ scrub_ pstore_ sweepIdx_ cores_ hub_ evtPtr_ aon_ th_ rt_ vdead_ spares_ dbg_
    gpio_ clk_) =
      (pending_, flash_, fuses_.okey, fuses_.floor) := by simp only [State.kept]

/-! ### One lemma for each operation -/

/-! Ops.lean -/

@[simp] theorem State.setReg_kept : ∀ s o v, (State.setReg s o v).kept = s.kept := by
  intros; unfold State.setReg; simp

@[simp] theorem State.setF_kept : ∀ s f v, (State.setF s f v).kept = s.kept := by
  intros; unfold State.setF; simp

@[simp] theorem State.note_kept : ∀ s o h, (State.note s o h).kept = s.kept := by
  intros; unfold State.note; simp

@[simp] theorem State.raiseF_kept : ∀ s f, (State.raiseF s f).kept = s.kept := by
  intros; unfold State.raiseF; simp

@[simp] theorem State.clearF_kept : ∀ s f, (State.clearF s f).kept = s.kept := by
  intros; unfold State.clearF; simp

@[simp] theorem State.putF_kept : ∀ s f b, (State.putF s f b).kept = s.kept := by
  intros; unfold State.putF; simp

@[simp] theorem State.addF_kept : ∀ s f n, (State.addF s f n).kept = s.kept := by
  intros; unfold State.addF; simp

@[simp] theorem State.incF_kept : ∀ s f, (State.incF s f).kept = s.kept := by
  intros; unfold State.incF; simp

@[simp] theorem State.capture_kept : ∀ s f vals, (State.capture s f vals).kept = s.kept := by
  intros; unfold State.capture; simp [foldl_kept, foldl_kept1, apply_ite State.kept]

@[simp] theorem State.w1c_kept : ∀ s o m, (State.w1c s o m).kept = s.kept := by
  intros; unfold State.w1c; simp [foldl_kept, foldl_kept1, apply_ite State.kept]

@[simp] theorem State.rc_kept : ∀ s o m, (State.rc s o m).kept = s.kept := by
  intros; unfold State.rc; simp [foldl_kept, foldl_kept1, apply_ite State.kept]

@[simp] theorem State.raiseEv_kept : ∀ s e, (State.raiseEv s e).kept = s.kept := by
  intros; unfold State.raiseEv; simp

@[simp] theorem State.raiseEach_kept : ∀ s e, (State.raiseEach s e).kept = s.kept := by
  intros; unfold State.raiseEach; simp

@[simp] theorem State.portEnds_kept : ∀ s kind sec served, (State.portEnds s kind sec served).kept = s.kept := by
  intros; unfold State.portEnds; simp [foldl_kept, foldl_kept1, apply_ite State.kept]
  (repeat' split) <;> simp [*, foldl_kept, foldl_kept1, apply_ite State.kept]

@[simp] theorem State.newSlot_kept : ∀ s, (State.newSlot s).kept = s.kept := by
  intros; unfold State.newSlot; simp

@[simp] theorem State.newAonTick_kept : ∀ s, (State.newAonTick s).kept = s.kept := by
  intros; unfold State.newAonTick; try simp [foldl_kept, foldl_kept1, apply_ite State.kept]
  all_goals (repeat' split) <;> simp [*, foldl_kept, foldl_kept1, apply_ite State.kept]

@[simp] theorem State.inLastSlot_kept : ∀ s f, (State.inLastSlot s f).kept = (f { s with cyc := SlotLog.reset }).kept := by
  intros; rfl

@[simp] theorem State.began_kept : ∀ s, (State.began s).kept = s.kept := by
  intros; unfold State.began; try simp [foldl_kept, foldl_kept1, apply_ite State.kept]
  all_goals (repeat' split) <;> simp [*, foldl_kept, foldl_kept1, apply_ite State.kept]

@[simp] theorem State.begin_kept : ∀ s, (State.begin s).kept = s.kept := by
  intros; unfold State.begin; try simp [foldl_kept, foldl_kept1, apply_ite State.kept]
  all_goals (repeat' split) <;> simp [*, foldl_kept, foldl_kept1, apply_ite State.kept]

@[simp] theorem State.keepOld_kept : ∀ s o, (State.keepOld s o).kept = s.kept := by
  intros; unfold State.keepOld; try simp [foldl_kept, foldl_kept1, apply_ite State.kept]
  all_goals (repeat' split) <;> simp [*, foldl_kept, foldl_kept1, apply_ite State.kept]

@[simp] theorem State.laneTo_kept : ∀ s n st, (State.laneTo s n st).kept = s.kept := by
  intros; unfold State.laneTo; simp

@[simp] theorem State.untimedRegs_kept : ∀ s n u, (State.untimedRegs s n u).kept = s.kept := by
  intros; unfold State.untimedRegs; try simp [foldl_kept, foldl_kept1, apply_ite State.kept]
  all_goals (repeat' split) <;> simp [*, foldl_kept, foldl_kept1, apply_ite State.kept]

@[simp] theorem State.untimed_kept : ∀ s n, (State.untimed s n).kept = s.kept := by
  intros; unfold State.untimed; simp [foldl_kept, foldl_kept1, apply_ite State.kept]
  (repeat' split) <;> simp [*, foldl_kept, foldl_kept1, apply_ite State.kept]

@[simp] theorem vbDown_kept : ∀ s, (vbDown s).kept = s.kept := by
  intros; unfold vbDown; try simp [foldl_kept, foldl_kept1, apply_ite State.kept]
  all_goals (repeat' split) <;> simp [*, foldl_kept, foldl_kept1, apply_ite State.kept]

@[simp] theorem hotFollows_kept : ∀ s c, (hotFollows s c).kept = s.kept := by
  intros; unfold hotFollows; simp

@[simp] theorem State.setCore_kept : ∀ s i c, (State.setCore s i c).kept = s.kept := by
  intros; unfold State.setCore; simp

@[simp] theorem ok_kept : ∀ s, ResKept s (ok s) := by
  intros; unfold ok; simp

@[simp] theorem State.setPlaneState_kept : ∀ s sec p v, (State.setPlaneState s sec p v).kept = s.kept := by
  intros; unfold State.setPlaneState; simp

@[simp] theorem State.taintSector_kept : ∀ s sec, (State.taintSector s sec).kept = s.kept := by
  intros; unfold State.taintSector; simp [foldl_kept, foldl_kept1, apply_ite State.kept]

@[simp] theorem State.draw_kept : ∀ s, (State.draw s).2.kept = s.kept := by
  intros; unfold State.draw; simp

/-! LaneTest.lean -/

@[simp] theorem State.setTest_kept : ∀ s n t, (State.setTest s n t).kept = s.kept := by
  intros; unfold State.setTest; simp

@[simp] theorem injectInto_kept : ∀ s n w len, (injectInto s n w len).1.kept = s.kept := by
  intros; unfold injectInto; simp

@[simp] theorem injRequest_kept : ∀ s n bits, (injRequest s n bits).kept = s.kept := by
  intros; unfold injRequest; simp [foldl_kept, foldl_kept1, apply_ite State.kept]

@[simp] theorem prbsSend_kept : ∀ s n len, (prbsSend s n len).1.kept = s.kept := by
  intros; unfold prbsSend; simp [foldl_kept, foldl_kept1, apply_ite State.kept]
  (repeat' split) <;> simp [*, foldl_kept, foldl_kept1, apply_ite State.kept]

@[simp] theorem prbsReceive_kept : ∀ s n w len, (prbsReceive s n w len).kept = s.kept := by
  intros; unfold prbsReceive; simp [foldl_kept, foldl_kept1, apply_ite State.kept]
  (repeat' split) <;> simp [*, foldl_kept, foldl_kept1, apply_ite State.kept]

@[simp] theorem prbsErrRead_kept : ∀ s n, (prbsErrRead s n).1.kept = s.kept := by
  intros; unfold prbsErrRead; simp

/-! FeLane.lean -/

@[simp] theorem State.setFe_kept : ∀ s n l, (State.setFe s n l).kept = s.kept := by
  intros; unfold State.setFe; simp

@[simp] theorem feRateCheck_kept : ∀ s q, (feRateCheck s q).kept = s.kept := by
  intros; unfold feRateCheck; simp [foldl_kept, foldl_kept1, apply_ite State.kept]

@[simp] theorem feClear_kept : ∀ s n, (feClear s n).kept = s.kept := by
  intros; unfold feClear; simp

@[simp] theorem lqModeWrite_kept : ∀ s q v, (lqModeWrite s q v).kept = s.kept := by
  intros; unfold lqModeWrite; simp [foldl_kept, foldl_kept1, apply_ite State.kept]

@[simp] theorem feAlign_kept : ∀ s n w cap done c rd, (feAlign s n w cap done c rd).kept = s.kept := by
  intros; unfold feAlign; simp

@[simp] theorem feSymlock_kept : ∀ s n, (feSymlock s n).kept = s.kept := by
  intros; unfold feSymlock; simp

@[simp] theorem feLose_kept : ∀ s n, (feLose s n).kept = s.kept := by
  intros; unfold feLose; simp

@[simp] theorem feTake_kept : ∀ s n w put, (feTake s n w put).kept = s.kept := by
  intros; unfold feTake; simp [foldl_kept, foldl_kept1, apply_ite State.kept]

@[simp] theorem feDiscards_kept : ∀ s, (feDiscards s).kept = s.kept := by
  intros; unfold feDiscards; simp [foldl_kept, foldl_kept1, apply_ite State.kept]

@[simp] theorem feBeatEnd_kept : ∀ s, (feBeatEnd s).kept = s.kept := by
  intros; unfold feBeatEnd; simp [foldl_kept, foldl_kept1, apply_ite State.kept]

@[simp] theorem feResume_kept : ∀ s, (feResume s).kept = s.kept := by
  intros; unfold feResume; simp

@[simp] theorem feOut_kept : ∀ s n out rd, (feOut s n out rd).kept = s.kept := by
  intros; unfold feOut; simp

@[simp] theorem feSend_kept : ∀ s n w rd, (feSend s n w rd).kept = s.kept := by
  intros; unfold feSend; simp

@[simp] theorem feCtrlWrite_kept : ∀ s n v, (feCtrlWrite s n v).kept = s.kept := by
  intros; unfold feCtrlWrite; simp [foldl_kept, foldl_kept1, apply_ite State.kept]

/-! Mac.lean -/

@[simp] theorem State.setAcc_kept : ∀ s sec m p v, (State.setAcc s sec m p v).kept = s.kept := by
  intros; unfold State.setAcc; simp

@[simp] theorem State.setPre_kept : ∀ s sec m p v, (State.setPre s sec m p v).kept = s.kept := by
  intros; unfold State.setPre; simp

@[simp] theorem State.setMac_kept : ∀ s sec m b, (State.setMac s sec m b).kept = s.kept := by
  intros; unfold State.setMac; simp

@[simp] theorem macTake_kept : ∀ s sec m kind, ResKept s (macTake s sec m kind) := by
  intros; unfold macTake; simp [foldl_kept, foldl_kept1, apply_ite State.kept]
  (repeat' split) <;> simp [*, foldl_kept, foldl_kept1, apply_ite State.kept]

@[simp] theorem macSlot_kept : ∀ s0 s key, (macSlot s0 s key).kept = s.kept := by
  intros; unfold macSlot; simp [foldl_kept, foldl_kept1, apply_ite State.kept]
  (repeat' split) <;> simp [*, foldl_kept, foldl_kept1, apply_ite State.kept]

@[simp] theorem accHeld_kept : ∀ s, (accHeld s).kept = s.kept := by
  intros; unfold accHeld; simp

@[simp] theorem macsSlot_kept : ∀ s, (macsSlot s).kept = s.kept := by
  intros; unfold macsSlot; simp [foldl_kept, foldl_kept1, apply_ite State.kept]

@[simp] theorem macsFrameEnd_kept : ∀ s, (macsFrameEnd s).kept = s.kept := by
  intros; unfold macsFrameEnd; simp

@[simp] theorem macsSwapClear_kept : ∀ s sec planes, (macsSwapClear s sec planes).kept = s.kept := by
  intros; unfold macsSwapClear; simp

@[simp] theorem macSelWrite_kept : ∀ s sec v, (macSelWrite s sec v).kept = s.kept := by
  intros; unfold macSelWrite; simp [foldl_kept, foldl_kept1, apply_ite State.kept]

@[simp] theorem macPortDo_kept : ∀ s sec, (macPortDo s sec).kept = s.kept := by
  intros; unfold macPortDo; simp [foldl_kept, foldl_kept1, apply_ite State.kept]

@[simp] theorem macPortsDone_kept : ∀ s, (macPortsDone s).kept = s.kept := by
  intros; unfold macPortsDone; simp [foldl_kept, foldl_kept1, apply_ite State.kept]

@[simp] theorem macPortsWait_kept : ∀ s, (macPortsWait s).kept = s.kept := by
  intros; unfold macPortsWait; simp

/-! Rank.lean -/

@[simp] theorem State.setRanker_kept : ∀ s sec r x, (State.setRanker s sec r x).kept = s.kept := by
  intros; unfold State.setRanker; simp

@[simp] theorem rankRefuse_kept : ∀ s sec r inSide, (rankRefuse s sec r inSide).kept = s.kept := by
  intros; unfold rankRefuse; simp

@[simp] theorem rankerSlot_kept : ∀ s0 s key, (rankerSlot s0 s key).kept = s.kept := by
  intros; unfold rankerSlot; simp [foldl_kept, foldl_kept1, apply_ite State.kept]

@[simp] theorem rankersSlot_kept : ∀ s0 s, (rankersSlot s0 s).kept = s.kept := by
  intros; unfold rankersSlot; simp [foldl_kept, foldl_kept1, apply_ite State.kept]

@[simp] theorem rankersFrameEnd_kept : ∀ s, (rankersFrameEnd s).kept = s.kept := by
  intros; unfold rankersFrameEnd; simp

@[simp] theorem rankersSwap_kept : ∀ s sec clear, (rankersSwap s sec clear).kept = s.kept := by
  intros; unfold rankersSwap; simp

/-! Match.lean -/

@[simp] theorem State.setMatcher_kept : ∀ s sec m, (State.setMatcher s sec m).kept = s.kept := by
  intros; unfold State.setMatcher; simp

@[simp] theorem State.setStoreWord_kept : ∀ s sec a w, (State.setStoreWord s sec a w).kept = s.kept := by
  intros; unfold State.setStoreWord; simp

@[simp] theorem matcherSlot_kept : ∀ s0 s sec, (matcherSlot s0 s sec).kept = s.kept := by
  intros; unfold matcherSlot; simp [foldl_kept, foldl_kept1, apply_ite State.kept]
  (repeat' split) <;> simp [*, foldl_kept, foldl_kept1, apply_ite State.kept]

@[simp] theorem matcherClear_kept : ∀ s sec, (matcherClear s sec).kept = s.kept := by
  intros; unfold matcherClear; simp [foldl_kept, foldl_kept1, apply_ite State.kept]

@[simp] theorem matchersFrameEnd_kept : ∀ s, (matchersFrameEnd s).kept = s.kept := by
  intros; unfold matchersFrameEnd; simp [foldl_kept, foldl_kept1, apply_ite State.kept]

@[simp] theorem matchersSlot_kept : ∀ s0 s, (matchersSlot s0 s).kept = s.kept := by
  intros; unfold matchersSlot; simp [foldl_kept, foldl_kept1, apply_ite State.kept]

@[simp] theorem portReject_kept : ∀ s sec, (portReject s sec).kept = s.kept := by
  intros; unfold portReject; simp

@[simp] theorem portStart_kept : ∀ s sec, (portStart s sec).kept = s.kept := by
  intros; unfold portStart; simp

@[simp] theorem mtSelWrite_kept : ∀ s sec v, (mtSelWrite s sec v).1.kept = s.kept := by
  intros; unfold mtSelWrite; simp [foldl_kept, foldl_kept1, apply_ite State.kept]
  (repeat' split) <;> simp [*, foldl_kept, foldl_kept1, apply_ite State.kept]

@[simp] theorem mtDhiWrite_kept : ∀ s sec v, (mtDhiWrite s sec v).1.kept = s.kept := by
  intros; unfold mtDhiWrite; simp [foldl_kept, foldl_kept1, apply_ite State.kept]
  (repeat' split) <;> simp [*, foldl_kept, foldl_kept1, apply_ite State.kept]

@[simp] theorem State.answer_kept : ∀ s status data, (State.answer s status data).kept = s.kept := by
  intros; unfold State.answer; simp

@[simp] theorem answered_kept : ∀ r, (answered r).kept = r.1.kept := by
  intros; unfold answered; simp

@[simp] theorem mtPortDo_kept : ∀ s sec, (mtPortDo s sec).kept = s.kept := by
  intros; unfold mtPortDo; simp [foldl_kept, foldl_kept1, apply_ite State.kept]
  (repeat' split) <;> simp [*, foldl_kept, foldl_kept1, apply_ite State.kept]

@[simp] theorem mtPortsDone_kept : ∀ s, (mtPortsDone s).kept = s.kept := by
  intros; unfold mtPortsDone; simp [foldl_kept, foldl_kept1, apply_ite State.kept]

@[simp] theorem portGiveUp_kept : ∀ s sec, (portGiveUp s sec).kept = s.kept := by
  intros; unfold portGiveUp; simp

@[simp] theorem mtPortAbandon_kept : ∀ s sec, (mtPortAbandon s sec).kept = s.kept := by
  intros; unfold mtPortAbandon; simp [foldl_kept, foldl_kept1, apply_ite State.kept]

@[simp] theorem mtPortsWait_kept : ∀ s, (mtPortsWait s).kept = s.kept := by
  intros; unfold mtPortsWait; simp [foldl_kept, foldl_kept1, apply_ite State.kept]

@[simp] theorem storeFix_kept : ∀ s sec a w, (storeFix s sec a w).kept = s.kept := by
  intros; unfold storeFix; simp

@[simp] theorem storeFixes_kept : ∀ s, (storeFixes s).kept = s.kept := by
  intros; unfold storeFixes; simp

/-! BankOps.lean -/

@[simp] theorem State.setBank_kept : ∀ s b k, (State.setBank s b k).kept = s.kept := by
  intros; unfold State.setBank; simp

@[simp] theorem State.setBankWord_kept : ∀ s b w c, (State.setBankWord s b w c).kept = s.kept := by
  intros; unfold State.setBankWord; simp [foldl_kept, foldl_kept1, apply_ite State.kept]
  (repeat' split) <;> simp [*, foldl_kept, foldl_kept1, apply_ite State.kept]

@[simp] theorem bankCorr_kept : ∀ s b, (bankCorr s b).kept = s.kept := by
  intros; unfold bankCorr; simp

@[simp] theorem bankUnc_kept : ∀ s b w, (bankUnc s b w).kept = s.kept := by
  intros; unfold bankUnc; simp

@[simp] theorem arrayRead_kept : ∀ s b w, (arrayRead s b w).1.kept = s.kept := by
  intros; unfold arrayRead; (try dsimp only)
  (repeat' split) <;> simp [*, foldl_kept, foldl_kept1, apply_ite State.kept]

@[simp] theorem bankStore_kept : ∀ s b a v, (bankStore s b a v).kept = s.kept := by
  intros; unfold bankStore; simp [foldl_kept, foldl_kept1, apply_ite State.kept]

@[simp] theorem bankRange_kept : ∀ s b r, (bankRange s b r).1.kept = s.kept := by
  intros; unfold bankRange; simp [foldl_kept, foldl_kept1, apply_ite State.kept]

@[simp] theorem bankWordOp_kept : ∀ s b r, (bankWordOp s b r).1.kept = s.kept := by
  intros
  rename_i s b r
  unfold bankWordOp
  split
  · simp
  · split
    · simp
    · have h := arrayRead_kept s b (readWord s b (r.word + r.step))
      generalize arrayRead s b (readWord s b (r.word + r.step)) = p at h ⊢
      obtain ⟨s1, o⟩ := p
      cases o <;> simpa using h

@[simp] theorem bankReadHalf_kept : ∀ s b r, (bankReadHalf s b r).1.kept = s.kept := by
  intros
  rename_i s b r
  unfold bankReadHalf
  split
  · simp
  · have h := arrayRead_kept s b (readWord s b r.word)
    generalize arrayRead s b (readWord s b r.word) = p at h ⊢
    obtain ⟨s1, o⟩ := p
    cases o <;> simpa using h

@[simp] theorem bankWriteHalf_kept : ∀ s b r, (bankWriteHalf s b r).1.kept = s.kept := by
  intros; unfold bankWriteHalf; simp [foldl_kept, foldl_kept1, apply_ite State.kept]

@[simp] theorem restartHalf_kept : ∀ s b w, (restartHalf s b w).kept = s.kept := by
  intros; unfold restartHalf; simp [foldl_kept, foldl_kept1, apply_ite State.kept]
  (repeat' split) <;> simp [*, foldl_kept, foldl_kept1, apply_ite State.kept]

@[simp] theorem ownerWordOp_kept : ∀ s b r, (ownerWordOp s b r).1.kept = s.kept := by
  intros; unfold ownerWordOp; simp [foldl_kept, foldl_kept1, apply_ite State.kept]

@[simp] theorem ownerWriteHalf_kept : ∀ s b r, (ownerWriteHalf s b r).1.kept = s.kept := by
  intros; unfold ownerWriteHalf; simp [foldl_kept, foldl_kept1, apply_ite State.kept]

@[simp] theorem reqDone_kept : ∀ s b r, (reqDone s b r).kept = s.kept := by
  intros; unfold reqDone; simp [foldl_kept, foldl_kept1, apply_ite State.kept]

@[simp] theorem fabricOwnerDo_kept : ∀ s b r, (fabricOwnerDo s b r).kept = s.kept := by
  intros; unfold fabricOwnerDo; simp [foldl_kept, foldl_kept1, apply_ite State.kept]

@[simp] theorem fabricTake_kept : ∀ s sec i op, ResKept s (fabricTake s sec i op) := by
  intros; unfold fabricTake; simp [foldl_kept, foldl_kept1, apply_ite State.kept]
  (repeat' split) <;> simp [*, foldl_kept, foldl_kept1, apply_ite State.kept]

@[simp] theorem bankArrive_kept : ∀ s b r, (bankArrive s b r).kept = s.kept := by
  intros; unfold bankArrive; simp [foldl_kept, foldl_kept1, apply_ite State.kept]

@[simp] theorem portOwnerDo_kept : ∀ s b r, (portOwnerDo s b r).kept = s.kept := by
  intros; unfold portOwnerDo; simp [foldl_kept, foldl_kept1, apply_ite State.kept]

@[simp] theorem ownerCycle_kept : ∀ s b, (ownerCycle s b).kept = s.kept := by
  intros; unfold ownerCycle; simp [foldl_kept, foldl_kept1, apply_ite State.kept]
  (repeat' split) <;> simp [*, foldl_kept, foldl_kept1, apply_ite State.kept]

@[simp] theorem nonownerServe_kept : ∀ s b c r, (nonownerServe s b c r).kept = s.kept := by
  intros; unfold nonownerServe; simp [foldl_kept, foldl_kept1, apply_ite State.kept]

@[simp] theorem bownWrite_kept : ∀ s sec i v, (bownWrite s sec i v).kept = s.kept := by
  intros; unfold bownWrite; simp [foldl_kept, foldl_kept1, apply_ite State.kept]

@[simp] theorem bcfgWrite_kept : ∀ s sec i v, (bcfgWrite s sec i v).kept = s.kept := by
  intros; unfold bcfgWrite; simp [foldl_kept, foldl_kept1, apply_ite State.kept]

@[simp] theorem bankConflicts_kept : ∀ s b k own, (bankConflicts s b k own).kept = s.kept := by
  intros; unfold bankConflicts; simp

@[simp] theorem bankPresent_kept : ∀ s b now, (bankPresent s b now).kept = s.kept := by
  intros; unfold bankPresent; simp

@[simp] theorem bankHandover_kept : ∀ s0 s b, (bankHandover s0 s b).kept = s.kept := by
  intros; unfold bankHandover; simp [foldl_kept, foldl_kept1, apply_ite State.kept]

@[simp] theorem scrubSlot_kept : ∀ s0 s b, (scrubSlot s0 s b).kept = s.kept := by
  intros; unfold scrubSlot; simp [foldl_kept, foldl_kept1, apply_ite State.kept]
  (repeat' split) <;> simp [*, foldl_kept, foldl_kept1, apply_ite State.kept]

@[simp] theorem bankSlot_kept : ∀ s0 s b, (bankSlot s0 s b).kept = s.kept := by
  intros; unfold bankSlot; simp

@[simp] theorem banksSlot_kept : ∀ s0 s, (banksSlot s0 s).kept = s.kept := by
  intros; unfold banksSlot; simp [foldl_kept, foldl_kept1, apply_ite State.kept]

@[simp] theorem ringStep_kept : ∀ s, (ringStep s).kept = s.kept := by
  intros; unfold ringStep; simp

@[simp] theorem banksSample_kept : ∀ s, (banksSample s).kept = s.kept := by
  intros; unfold banksSample; simp [foldl_kept, foldl_kept1, apply_ite State.kept]

@[simp] theorem pendingCommit_kept : ∀ s, (pendingCommit s).kept = s.kept := by
  intros; unfold pendingCommit; simp

@[simp] theorem talliesSlot_kept : ∀ s0 s secs, (talliesSlot s0 s secs).kept = s.kept := by
  intros; unfold talliesSlot; simp

@[simp] theorem tallySnapshot_kept : ∀ s frame ovd tnt, (tallySnapshot s frame ovd tnt).kept = s.kept := by
  intros; unfold tallySnapshot; simp [foldl_kept, foldl_kept1, apply_ite State.kept]

/-! Time.lean -/

@[simp] theorem State.setTime_kept : ∀ s t, (State.setTime s t).kept = s.kept := by
  intros; unfold State.setTime; simp

@[simp] theorem schedule_kept : ∀ s cmd arg, (schedule s cmd arg).kept = s.kept := by
  intros; unfold schedule; simp

@[simp] theorem discardWord_kept : ∀ s count, (discardWord s count).kept = s.kept := by
  intros; unfold discardWord; simp

@[simp] theorem timingWord_kept : ∀ s bad k1 k2 c1 c2, (timingWord s bad k1 k2 c1 c2).kept = s.kept := by
  intros; unfold timingWord; simp [foldl_kept, foldl_kept1, apply_ite State.kept]

@[simp] theorem timingChar_kept : ∀ acc c, (timingChar acc c).1.kept = acc.1.kept := by
  intros; unfold timingChar; simp [foldl_kept, foldl_kept1, apply_ite State.kept]
  (repeat' split) <;> simp [*, foldl_kept, foldl_kept1, apply_ite State.kept]

@[simp] theorem feTiming_kept : ∀ s n, (feTiming s n).kept = s.kept := by
  intros; unfold feTiming; simp [foldl_kept, foldl_kept1, apply_ite State.kept]
  (repeat' split) <;> simp [*, foldl_kept, foldl_kept1, apply_ite State.kept]

@[simp] theorem feTimings_kept : ∀ s, (feTimings s).kept = s.kept := by
  intros; unfold feTimings; simp [foldl_kept, foldl_kept1, apply_ite State.kept]

@[simp] theorem sampleMarker_kept : ∀ s pins, (sampleMarker s pins).kept = s.kept := by
  intros; unfold sampleMarker; simp [foldl_kept, foldl_kept1, apply_ite State.kept]

@[simp] theorem orbPinChange_kept : ∀ old s, (orbPinChange old s).kept = s.kept := by
  intros; unfold orbPinChange; simp [foldl_kept, foldl_kept1, apply_ite State.kept]

@[simp] theorem dropDue_kept : ∀ s cmd, (dropDue s cmd).kept = s.kept := by
  intros; unfold dropDue; simp

@[simp] theorem sampleLengths_kept : ∀ s, (sampleLengths s).kept = s.kept := by
  intros; unfold sampleLengths; simp

@[simp] theorem tickAdvance_kept : ∀ s, (tickAdvance s).kept = s.kept := by
  intros; unfold tickAdvance; simp

@[simp] theorem startForce_kept : ∀ s, (startForce s).kept = s.kept := by
  intros; unfold startForce; simp [foldl_kept, foldl_kept1, apply_ite State.kept]

@[simp] theorem tickLoRead_kept : ∀ s, (tickLoRead s).2.kept = s.kept := by
  intros; unfold tickLoRead; simp

/-! Sched.lean -/

@[simp] theorem schedWrite_kept : ∀ s sec v, (schedWrite s sec v).kept = s.kept := by
  intros; unfold schedWrite; simp [foldl_kept, foldl_kept1, apply_ite State.kept]

@[simp] theorem sregReset_kept : ∀ s hit, (sregReset s hit).kept = s.kept := by
  intros; unfold sregReset; simp

@[simp] theorem sregFrameEnd_kept : ∀ s, (sregFrameEnd s).kept = s.kept := by
  intros; unfold sregFrameEnd; simp

@[simp] theorem wregClear_kept : ∀ s hit, (wregClear s hit).kept = s.kept := by
  intros; unfold wregClear; simp

@[simp] theorem savedClear_kept : ∀ s sec, (savedClear s sec).kept = s.kept := by
  intros; unfold savedClear; try simp [foldl_kept, foldl_kept1, apply_ite State.kept]
  all_goals (repeat' split) <;> simp [*, foldl_kept, foldl_kept1, apply_ite State.kept]

@[simp] theorem swapSector_kept : ∀ s sec planes clear, (swapSector s sec planes clear).kept = s.kept := by
  intros; unfold swapSector; simp [foldl_kept, foldl_kept1, apply_ite State.kept]

@[simp] theorem refuseIn_kept : ∀ s sec plane partnerOnly, (refuseIn s sec plane partnerOnly).kept = s.kept := by
  intros; unfold refuseIn; simp

@[simp] theorem swapRefuse_kept : ∀ s sec plane, (swapRefuse s sec plane).kept = s.kept := by
  intros; unfold swapRefuse; simp [foldl_kept, foldl_kept1, apply_ite State.kept]
  (repeat' split) <;> simp [*, foldl_kept, foldl_kept1, apply_ite State.kept]

@[simp] theorem heldCount_kept : ∀ s sec, (heldCount s sec).kept = s.kept := by
  intros; unfold heldCount; simp

@[simp] theorem recordTrips_kept : ∀ s sec other trips, (recordTrips s sec other trips).kept = s.kept := by
  intros; unfold recordTrips; simp [foldl_kept, foldl_kept1, apply_ite State.kept]
  (repeat' split) <;> simp [*, foldl_kept, foldl_kept1, apply_ite State.kept]

@[simp] theorem guardTrips_kept : ∀ s, (guardTrips s).kept = s.kept := by
  intros; unfold guardTrips; simp [foldl_kept, foldl_kept1, apply_ite State.kept]

@[simp] theorem releaseLinks_kept : ∀ s, (releaseLinks s).kept = s.kept := by
  intros; unfold releaseLinks; simp

@[simp] theorem fabricSlot_kept : ∀ s0 s, (fabricSlot s0 s).kept = s.kept := by
  intros; unfold fabricSlot; simp

/-! Net.lean -/

@[simp] theorem State.setQueue_kept : ∀ s r net port vc q, (State.setQueue s r net port vc q).kept = s.kept := by
  intros; unfold State.setQueue; simp

@[simp] theorem injectFlit_kept : ∀ s r net vc f, (injectFlit s r net vc f).kept = s.kept := by
  intros; unfold injectFlit; simp

@[simp] theorem memArrive_kept : ∀ s r net vc port q, (memArrive s r net vc port q).kept = s.kept := by
  intros; unfold memArrive; simp [foldl_kept, foldl_kept1, apply_ite State.kept]
  (repeat' split) <;> simp [*, foldl_kept, foldl_kept1, apply_ite State.kept]

@[simp] theorem ejectArrive_kept : ∀ s r net vc port f, (ejectArrive s r net vc port f).kept = s.kept := by
  intros; unfold ejectArrive; (try dsimp only)
  (repeat' split) <;> simp [*, foldl_kept, foldl_kept1, apply_ite State.kept]

@[simp] theorem memChosen_kept : ∀ s r net vc, (memChosen s r net vc).kept = s.kept := by
  intros; unfold memChosen; (try dsimp only)
  (repeat' split) <;> simp [*, foldl_kept, foldl_kept1, apply_ite State.kept]

@[simp] theorem enterQueue_kept : ∀ s r net port vc f, (enterQueue s r net port vc f).kept = s.kept := by
  intros; unfold enterQueue; simp [foldl_kept, foldl_kept1, apply_ite State.kept]
  (repeat' split) <;> simp [*, foldl_kept, foldl_kept1, apply_ite State.kept]

@[simp] theorem pullInject_kept : ∀ s r, (pullInject s r).kept = s.kept := by
  intros
  unfold pullInject
  simp only [kept_mk, kept_fold]
  exact foldl_kept1 _ (fun _ _ => by (try dsimp only); (repeat' split) <;> simp) _ _

@[simp] theorem takeTag_kept : ∀ s id ln, (takeTag s id ln).1.kept = s.kept := by
  intros; unfold takeTag; simp [foldl_kept, foldl_kept1, apply_ite State.kept]
  (repeat' split) <;> simp [*, foldl_kept, foldl_kept1, apply_ite State.kept]

@[simp] theorem issue_kept : ∀ s r note aux, (issue s r note aux).1.kept = s.kept := by
  intros; unfold issue; simp [foldl_kept, foldl_kept1, apply_ite State.kept]

@[simp] theorem dbgFlush_kept : ∀ s, (dbgFlush s).kept = s.kept := by
  intros; unfold dbgFlush; simp [foldl_kept, foldl_kept1, apply_ite State.kept]
  (repeat' split) <;> simp [*, foldl_kept, foldl_kept1, apply_ite State.kept]

@[simp] theorem sendResponse_kept : ∀ s at_ r status data, (sendResponse s at_ r status data).kept = s.kept := by
  intros; unfold sendResponse; simp

@[simp] theorem collectBankRsps_kept : ∀ s r, (collectBankRsps s r).kept = s.kept := by
  intros; unfold collectBankRsps; simp [foldl_kept, foldl_kept1, apply_ite State.kept]

@[simp] theorem State.eject_kept : ∀ s r net vc, (State.eject s r net vc).kept = s.kept := by
  intros; unfold State.eject; simp

@[simp] theorem endOutst_kept : ∀ s o, (endOutst s o).kept = s.kept := by
  intros; unfold endOutst; simp

@[simp] theorem closeOutst_kept : ∀ s o, (closeOutst s o).kept = s.kept := by
  intros; unfold closeOutst; simp

/-! Vault.lean -/

@[simp] theorem emptyKey_kept : ∀ s e, (emptyKey s e).kept = s.kept := by
  intros; unfold emptyKey; simp

@[simp] theorem readKey_kept : ∀ s e, (readKey s e).1.kept = s.kept := by
  intros; unfold readKey; simp [foldl_kept, foldl_kept1, apply_ite State.kept]
  (repeat' split) <;> simp [*, foldl_kept, foldl_kept1, apply_ite State.kept]

@[simp] theorem fillKey_kept : ∀ s e key, (fillKey s e key).kept = s.kept := by
  intros; unfold fillKey; simp

@[simp] theorem lanesIdle_kept : ∀ s, (lanesIdle s).kept = s.kept := by
  intros; unfold lanesIdle; simp [foldl_kept, foldl_kept1, apply_ite State.kept]

@[simp] theorem wipeKeys_kept : ∀ s, (wipeKeys s).kept = s.kept := by
  intros; unfold wipeKeys; simp

@[simp] theorem integrityHalt_kept : ∀ s sub lane unit line, (integrityHalt s sub lane unit line).kept = s.kept := by
  intros; unfold integrityHalt; simp [foldl_kept, foldl_kept1, apply_ite State.kept]

@[simp] theorem lockFail_kept : ∀ s which, (lockFail s which).kept = s.kept := by
  intros; unfold lockFail; simp [foldl_kept, foldl_kept1, apply_ite State.kept]
  (repeat' split) <;> simp [*, foldl_kept, foldl_kept1, apply_ite State.kept]

@[simp] theorem lockWrite_kept : ∀ s which id v, (lockWrite s which id v).1.kept = s.kept := by
  intros; unfold lockWrite; simp [foldl_kept, foldl_kept1, apply_ite State.kept]
  (repeat' split) <;> simp [*, foldl_kept, foldl_kept1, apply_ite State.kept]

@[simp] theorem lockRead_kept : ∀ s which id, (lockRead s which id).kept = s.kept := by
  intros; unfold lockRead; simp [foldl_kept, foldl_kept1, apply_ite State.kept]

@[simp] theorem lockedWrite_kept : ∀ s w id f, (∀ t, (f t).kept = t.kept) → (lockedWrite s w id f).1.kept = s.kept :=
    by
  intros
  rename_i s w id f hf
  unfold lockedWrite; split <;> simp [hf]

@[simp] theorem answerWrite_kept : ∀ r, ResKept r.1 (answerWrite r) := by
  intros; unfold answerWrite; simp

@[simp] theorem keyClear_kept : ∀ s e, (keyClear s e).kept = s.kept := by
  intros; unfold keyClear; simp [foldl_kept, foldl_kept1, apply_ite State.kept]

@[simp] theorem rngRead_kept : ∀ s peek, (rngRead s peek).1.kept = s.kept := by
  intros; unfold rngRead; simp [foldl_kept, foldl_kept1, apply_ite State.kept]
  (repeat' split) <;> simp [*, foldl_kept, foldl_kept1, apply_ite State.kept]

@[simp] theorem fuseRefuse_kept : ∀ s, (fuseRefuse s).kept = s.kept := by
  intros; unfold fuseRefuse; simp

@[simp] theorem startBurn_kept : ∀ s kind value, (startBurn s kind value).kept = s.kept := by
  intros
  unfold startBurn State.raiseF State.setF State.setReg; simp only [kept_mk]
  rfl

@[simp] theorem fuseOwnerKey_kept : ∀ s, (fuseOwnerKey s).kept = s.kept := by
  intros; unfold fuseOwnerKey; simp [foldl_kept, foldl_kept1, apply_ite State.kept]
  (repeat' split) <;> simp [*, foldl_kept, foldl_kept1, apply_ite State.kept]

@[simp] theorem fuseFloor_kept : ∀ s, (fuseFloor s).kept = s.kept := by
  intros; unfold fuseFloor; simp [foldl_kept, foldl_kept1, apply_ite State.kept]
  (repeat' split) <;> simp [*, foldl_kept, foldl_kept1, apply_ite State.kept]

@[simp] theorem fuseCommand_kept : ∀ s cmd, (fuseCommand s cmd).kept = s.kept := by
  intros; unfold fuseCommand; (try dsimp only)
  (repeat' split) <;> simp [*, foldl_kept, foldl_kept1, apply_ite State.kept]

@[simp] theorem fuseWrite_kept : ∀ s id cmd, (fuseWrite s id cmd).1.kept = s.kept := by
  intros; unfold fuseWrite; try simp [foldl_kept, foldl_kept1, apply_ite State.kept]
  all_goals (repeat' split) <;> simp [*, foldl_kept, foldl_kept1, apply_ite State.kept]

/-! Memory.lean -/

@[simp] theorem setMemWord_kept : ∀ s k w, (setMemWord s k w).kept = s.kept := by
  intros; unfold setMemWord; simp

@[simp] theorem poisonLine_kept : ∀ s a, (poisonLine s a).kept = s.kept := by
  intros; unfold poisonLine; simp [foldl_kept, foldl_kept1, apply_ite State.kept]

@[simp] theorem putLine_kept : ∀ s a data tag, (putLine s a data tag).kept = s.kept := by
  intros; unfold putLine; simp [foldl_kept, foldl_kept1, apply_ite State.kept]

@[simp] theorem reportUnc_kept : ∀ s a src, (reportUnc s a src).kept = s.kept := by
  intros; unfold reportUnc; simp

@[simp] theorem rewriteLine_kept : ∀ s a, (rewriteLine s a).kept = s.kept := by
  intros
  unfold rewriteLine
  exact foldl_kept _ (fun _ _ => by split <;> simp) _ _

@[simp] theorem reportCorr_kept : ∀ s a fixed, (reportCorr s a fixed).kept = s.kept := by
  intros; unfold reportCorr; simp [foldl_kept, foldl_kept1, apply_ite State.kept]

@[simp] theorem reportPoison_kept : ∀ s a, (reportPoison s a).kept = s.kept := by
  intros; unfold reportPoison; simp

@[simp] theorem correctedRead_kept : ∀ s a fixed, (correctedRead s a fixed).kept = s.kept := by
  intros; unfold correctedRead; simp [foldl_kept, foldl_kept1, apply_ite State.kept]

@[simp] theorem demandRead_kept : ∀ s a words, (demandRead s a words).1.kept = s.kept := by
  intros; unfold demandRead; simp [foldl_kept, foldl_kept1, apply_ite State.kept]
  (repeat' split) <;> simp [*, foldl_kept, foldl_kept1, apply_ite State.kept]

@[simp] theorem rmwRead_kept : ∀ s a, (rmwRead s a).1.kept = s.kept := by
  intros; unfold rmwRead; simp [foldl_kept, foldl_kept1, apply_ite State.kept]
  (repeat' split) <;> simp [*, foldl_kept, foldl_kept1, apply_ite State.kept]

@[simp] theorem windowKey_kept : ∀ s w e, (windowKey s w e).1.kept = s.kept := by
  intros; unfold windowKey; simp [foldl_kept, foldl_kept1, apply_ite State.kept]
  (repeat' split) <;> simp [*, foldl_kept, foldl_kept1, apply_ite State.kept]

@[simp] theorem setRoot_kept : ∀ s w x, (setRoot s w x).kept = s.kept := by
  intros; unfold setRoot; simp

@[simp] theorem writeBackNode_kept : ∀ s a, (writeBackNode s a).kept = s.kept := by
  intros; unfold writeBackNode; simp

@[simp] theorem nodeRoom_kept : ∀ s, (nodeRoom s).kept = s.kept := by
  intros; unfold nodeRoom; simp [foldl_kept, foldl_kept1, apply_ite State.kept]
  (repeat' split) <;> simp [*, foldl_kept, foldl_kept1, apply_ite State.kept]

@[simp] theorem trustNode_kept : ∀ s a node, (trustNode s a node).kept = s.kept := by
  intros; unfold trustNode; simp [foldl_kept, foldl_kept1, apply_ite State.kept]

@[simp] theorem restoreNode_kept : ∀ s a, (restoreNode s a).kept = s.kept := by
  intros; unfold restoreNode; simp [foldl_kept, foldl_kept1, apply_ite State.kept]

@[simp] theorem rootVersion_kept : ∀ s w j, (rootVersion s w j).1.kept = s.kept := by
  intros; unfold rootVersion; (try dsimp only)
  (repeat' split) <;> simp [*, foldl_kept, foldl_kept1, apply_ite State.kept]

@[simp] theorem nodeCheck_kept : ∀ key w k j a par, (nodeCheck key w k j a par).1.kept = par.1.kept := by
  intros; unfold nodeCheck; simp [foldl_kept, foldl_kept1, apply_ite State.kept]
  (repeat' split) <;> simp [*, foldl_kept, foldl_kept1, apply_ite State.kept]

@[simp] theorem getNode_kept : ∀ key w y2 y3 y4 y5, (getNode key w y2 y3 y4 y5).1.kept = y5.kept := by
  intros
  rename_i key w up k j s
  induction up generalizing k j s with
  | zero => unfold getNode; split <;> simp
  | succ u ih => unfold getNode; split <;> simp [ih]

@[simp] theorem lineVersion_kept : ∀ s key w i, (lineVersion s key w i).1.kept = s.kept := by
  intros; unfold lineVersion; simp

@[simp] theorem bumpPath_kept : ∀ s key w i lineA, (bumpPath s key w i lineA).1.kept = s.kept := by
  intros
  rename_i s key w i lineA
  have h : ((pathOf s w i).foldl (fun (acc : State × Option (List Nat)) p =>
    match acc.2 with
    | none => acc
    | some xs =>
      let r := getNode key w ((pathOf s w i).length - 1 - p.1) p.1 p.2.1 acc.1
      (r.1, r.2.map (fun x => xs ++ [x]))) (s, some [])).1.kept = s.kept :=
    foldl_kept1 _ (fun _ _ => by split <;> simp) _ _
  unfold bumpPath; dsimp only at h ⊢
  generalize List.foldl _ _ _ = got at h ⊢
  repeat' split
  all_goals first
    | simpa using h
    | (dsimp only; rw [foldl_kept _ (fun _ _ => by simp)]; simpa using h)

@[simp] theorem readPlain_kept : ∀ s a key words, (readPlain s a key words).1.kept = s.kept := by
  intros; unfold readPlain; simp [foldl_kept, foldl_kept1, apply_ite State.kept]
  (repeat' split) <;> simp [*, foldl_kept, foldl_kept1, apply_ite State.kept]

@[simp] theorem writePlainLine_kept : ∀ s a key data, (writePlainLine s a key data).1.kept = s.kept := by
  intros; unfold writePlainLine; simp [foldl_kept, foldl_kept1, apply_ite State.kept]
  (repeat' split) <;> simp [*, foldl_kept, foldl_kept1, apply_ite State.kept]

@[simp] theorem rmwPlain_kept : ∀ s a key, (rmwPlain s a key).1.kept = s.kept := by
  intros; unfold rmwPlain; simp [foldl_kept, foldl_kept1, apply_ite State.kept]
  (repeat' split) <;> simp [*, foldl_kept, foldl_kept1, apply_ite State.kept]

@[simp] theorem keyRefused_kept : ∀ s a key, (keyRefused s a key).1.kept = s.kept := by
  intros; unfold keyRefused; (try dsimp only)
  (repeat' split) <;> simp [*, foldl_kept, foldl_kept1, apply_ite State.kept]

@[simp] theorem serveRead_kept : ∀ s r, ServedKept s (serveRead s r) := by
  intros; unfold serveRead; simp [foldl_kept, foldl_kept1, apply_ite State.kept]
  (repeat' split) <;> simp [*, foldl_kept, foldl_kept1, apply_ite State.kept]

@[simp] theorem serveMem_kept : ∀ s r, ServedKept s (serveMem s r) := by
  intros; unfold serveMem; simp [foldl_kept, foldl_kept1, apply_ite State.kept]
  (repeat' split) <;> simp [*, foldl_kept, foldl_kept1, apply_ite State.kept]

@[simp] theorem windowOn_kept : ∀ s w v, (windowOn s w v).kept = s.kept := by
  intros; unfold windowOn; simp [foldl_kept, foldl_kept1, apply_ite State.kept]

@[simp] theorem windowOff_kept : ∀ s w v, (windowOff s w v).kept = s.kept := by
  intros; unfold windowOff; simp [foldl_kept, foldl_kept1, apply_ite State.kept]

@[simp] theorem wctlWrite_kept : ∀ s w v, (wctlWrite s w v).kept = s.kept := by
  intros; unfold wctlWrite; simp [foldl_kept, foldl_kept1, apply_ite State.kept]

@[simp] theorem initLines_kept : ∀ s w, (initLines s w).kept = s.kept := by
  intros; unfold initLines; simp [foldl_kept, foldl_kept1, apply_ite State.kept]

@[simp] theorem initTree_kept : ∀ s w, (initTree s w).kept = s.kept := by
  intros; unfold initTree; simp [foldl_kept, foldl_kept1, apply_ite State.kept]

/-! Trunk.lean -/

@[simp] theorem State.setTk_kept : ∀ s n l, (State.setTk s n l).kept = s.kept := by
  intros; unfold State.setTk; simp

@[simp] theorem tkRateCheck_kept : ∀ s q, (tkRateCheck s q).kept = s.kept := by
  intros; unfold tkRateCheck; simp [foldl_kept, foldl_kept1, apply_ite State.kept]

@[simp] theorem lqTrkWrite_kept : ∀ s q v, (lqTrkWrite s q v).kept = s.kept := by
  intros; unfold lqTrkWrite; simp [foldl_kept, foldl_kept1, apply_ite State.kept]

@[simp] theorem enterHandshake_kept : ∀ s n, (enterHandshake s n).kept = s.kept := by
  intros; unfold enterHandshake; simp [foldl_kept, foldl_kept1, apply_ite State.kept]

@[simp] theorem tkLeave_kept : ∀ s n st, (tkLeave s n st).kept = s.kept := by
  intros; unfold tkLeave; simp

@[simp] theorem tkLoseLock_kept : ∀ s n st, (tkLoseLock s n st).kept = s.kept := by
  intros; unfold tkLoseLock; simp [foldl_kept, foldl_kept1, apply_ite State.kept]

@[simp] theorem queueAck_kept : ∀ s n q nak, (queueAck s n q nak).kept = s.kept := by
  intros; unfold queueAck; simp

@[simp] theorem tkOut_kept : ∀ s n l w len, (tkOut s n l w len).kept = s.kept := by
  intros; unfold tkOut; simp

@[simp] theorem sendCw_kept : ∀ s n l fec blocks, (sendCw s n l fec blocks).kept = s.kept := by
  intros; unfold sendCw; simp

@[simp] theorem periodicAcks_kept : ∀ s n, (periodicAcks s n).kept = s.kept := by
  intros; unfold periodicAcks; simp [foldl_kept, foldl_kept1, apply_ite State.kept]

@[simp] theorem ringIssue_kept : ∀ s n q op size addr data note, (ringIssue s n q op size addr data note).1.kept =
    s.kept := by
  intros; unfold ringIssue; simp

@[simp] theorem ringFetch_kept : ∀ s0 n, (ringFetch s0 n).kept = s0.kept := by
  intros; unfold ringFetch; simp [foldl_kept, foldl_kept1, apply_ite State.kept]
  (repeat' split) <;> simp [*, foldl_kept, foldl_kept1, apply_ite State.kept]

@[simp] theorem ringWrites_kept : ∀ s n, (ringWrites s n).kept = s.kept := by
  intros
  unfold ringWrites
  refine foldl_kept _ (fun _ _ => foldl_kept _ (fun _ _ => ?_) _ _) _ _
  dsimp only
  split
  · rfl
  · split
    · rfl
    · split <;> simp

@[simp] theorem ringError_kept : ∀ s n q tx, (ringError s n q tx).kept = s.kept := by
  intros; unfold ringError; simp [foldl_kept, foldl_kept1, apply_ite State.kept]

@[simp] theorem ringReadDone_kept : ∀ s n rd tag line status data, (ringReadDone s n rd tag line status data).kept =
    s.kept := by
  intros; unfold ringReadDone; simp [foldl_kept, foldl_kept1, apply_ite State.kept]

@[simp] theorem laneRespond_kept : ∀ s0 n o status data, (laneRespond s0 n o status data).kept = s0.kept := by
  intros; unfold laneRespond; simp [foldl_kept, foldl_kept1, apply_ite State.kept]
  (repeat' split) <;> simp [*, foldl_kept, foldl_kept1, apply_ite State.kept]

@[simp] theorem resend_kept : ∀ s n q, (resend s n q).kept = s.kept := by
  intros; unfold resend; simp

@[simp] theorem queueTailWrite_kept : ∀ s n q v, (queueTailWrite s n q v).kept = s.kept := by
  intros; unfold queueTailWrite; simp [foldl_kept, foldl_kept1, apply_ite State.kept]

@[simp] theorem queueHeadWrite_kept : ∀ s n q v, (queueHeadWrite s n q v).kept = s.kept := by
  intros; unfold queueHeadWrite; simp [foldl_kept, foldl_kept1, apply_ite State.kept]

@[simp] theorem badBlock_kept : ∀ s n, (badBlock s n).kept = s.kept := by
  intros; unfold badBlock; simp

@[simp] theorem rxStreamBlock_kept : ∀ s n l c cw p blk lost, (rxStreamBlock s n l c cw p blk lost).1.kept = s.kept :=
    by
  intros; unfold rxStreamBlock; simp [foldl_kept, foldl_kept1, apply_ite State.kept]

@[simp] theorem rxPoolBlock_kept : ∀ s n l blk, (rxPoolBlock s n l blk).1.kept = s.kept := by
  intros; unfold rxPoolBlock; simp [foldl_kept, foldl_kept1, apply_ite State.kept]
  (repeat' split) <;> simp [*, foldl_kept, foldl_kept1, apply_ite State.kept]

@[simp] theorem rxReserved_kept : ∀ s n l0 cw blks lost, (rxReserved s n l0 cw blks lost).1.kept = s.kept := by
  intros; unfold rxReserved; simp [foldl_kept, foldl_kept1, apply_ite State.kept]

@[simp] theorem rxPoolEarly_kept : ∀ s n blk, (rxPoolEarly s n blk).kept = s.kept := by
  intros; unfold rxPoolEarly; simp [foldl_kept, foldl_kept1, apply_ite State.kept]

@[simp] theorem rxActive_kept : ∀ s n l0 cw blks lost, (rxActive s n l0 cw blks lost).1.kept = s.kept := by
  intros
  rename_i s n l0 cw blks lost
  unfold rxActive; dsimp only
  have key : ∀ (g : State × TkLane × Nat × List (Nat × Nat × Nat) → Nat → State × TkLane × Nat × List (Nat × Nat × Nat))
      (r : State × TkLane), (∀ a p, (g a p).1.kept = a.1.kept) → r.1.kept = s.kept →
      ((List.range 16).foldl g (r.1, r.2, 0, [])).1.kept = s.kept :=
    fun g r hg hr => (foldl_kept1 g hg _ _).trans hr
  refine key _ _ (fun a p => ?_) ?_
  · split
    · rfl
    · split
      · split
        · split <;> simp
        · simp
      · split
        · split <;> simp
        · split
          · rfl
          · simp
  · split <;> simp

@[simp] theorem hskDiscards_kept : ∀ s n blks, (hskDiscards s n blks).kept = s.kept := by
  intros; unfold hskDiscards; simp [foldl_kept, foldl_kept1, apply_ite State.kept]

@[simp] theorem rxHandshake_kept : ∀ s n l blks lost, (rxHandshake s n l blks lost).1.kept = s.kept := by
  intros; unfold rxHandshake; simp [foldl_kept, foldl_kept1, apply_ite State.kept]
  (repeat' split) <;> simp [*, foldl_kept, foldl_kept1, apply_ite State.kept]

@[simp] theorem presentBad_kept : ∀ s n c keyed, (presentBad s n c keyed).kept = s.kept := by
  intros; unfold presentBad; simp [foldl_kept, foldl_kept1, apply_ite State.kept]

@[simp] theorem tkBeatEnd_kept : ∀ s, (tkBeatEnd s).kept = s.kept := by
  intros; unfold tkBeatEnd; simp [foldl_kept, foldl_kept1, apply_ite State.kept]

@[simp] theorem tkResume_kept : ∀ s, (tkResume s).kept = s.kept := by
  intros; unfold tkResume; simp

@[simp] theorem zeroise_kept : ∀ s, (zeroise s).kept = s.kept := by
  intros; unfold zeroise; simp [foldl_kept, foldl_kept1, apply_ite State.kept]

/-! BringUp.lean -/

@[simp] theorem laneEnter_kept : ∀ s n st, (laneEnter s n st).kept = s.kept := by
  intros; unfold laneEnter; simp [foldl_kept, foldl_kept1, apply_ite State.kept]

@[simp] theorem checkerReset_kept : ∀ s n, (checkerReset s n).kept = s.kept := by
  intros; unfold checkerReset; simp

@[simp] theorem enterTest_kept : ∀ s n, (enterTest s n).kept = s.kept := by
  intros; unfold enterTest; simp

@[simp] theorem laneRestart_kept : ∀ s n, (laneRestart s n).kept = s.kept := by
  intros; unfold laneRestart; simp [foldl_kept, foldl_kept1, apply_ite State.kept]

@[simp] theorem laneReeval_kept : ∀ s n, (laneReeval s n).kept = s.kept := by
  intros; unfold laneReeval; simp [foldl_kept, foldl_kept1, apply_ite State.kept]

@[simp] theorem quadReeval_kept : ∀ s q, (quadReeval s q).kept = s.kept := by
  intros; unfold quadReeval; simp [foldl_kept, foldl_kept1, apply_ite State.kept]

@[simp] theorem allLanesReeval_kept : ∀ s, (allLanesReeval s).kept = s.kept := by
  intros; unfold allLanesReeval; simp [foldl_kept, foldl_kept1, apply_ite State.kept]

@[simp] theorem setIr_kept : ∀ s code, (setIr s code).kept = s.kept := by
  intros; unfold setIr; simp [foldl_kept, foldl_kept1, apply_ite State.kept]

@[simp] theorem buCtrlWrite_kept : ∀ s n v, (buCtrlWrite s n v).kept = s.kept := by
  intros; unfold buCtrlWrite; simp [foldl_kept, foldl_kept1, apply_ite State.kept]

@[simp] theorem testCtrlWrite_kept : ∀ s n v, (testCtrlWrite s n v).kept = s.kept := by
  intros; unfold testCtrlWrite; simp [foldl_kept, foldl_kept1, apply_ite State.kept]

@[simp] theorem tkRegsClear_kept : ∀ s n, (tkRegsClear s n).kept = s.kept := by
  intros; unfold tkRegsClear; simp [foldl_kept, foldl_kept1, apply_ite State.kept]

@[simp] theorem pllStop_kept : ∀ s q, (pllStop s q).kept = s.kept := by
  intros; unfold pllStop; simp [foldl_kept, foldl_kept1, apply_ite State.kept]

@[simp] theorem quadModeWrite_kept : ∀ s q v, (quadModeWrite s q v).kept = s.kept := by
  intros; unfold quadModeWrite; simp [foldl_kept, foldl_kept1, apply_ite State.kept]

@[simp] theorem quadTrkWrite_kept : ∀ s q v, (quadTrkWrite s q v).kept = s.kept := by
  intros; unfold quadTrkWrite; simp

@[simp] theorem laneTimeout_kept : ∀ s n, (laneTimeout s n).kept = s.kept := by
  intros; unfold laneTimeout; simp [foldl_kept, foldl_kept1, apply_ite State.kept]

@[simp] theorem pllLose_kept : ∀ s q, (pllLose s q).kept = s.kept := by
  intros; unfold pllLose; simp [foldl_kept, foldl_kept1, apply_ite State.kept]

@[simp] theorem pllTemperature_kept : ∀ s q, (pllTemperature s q).kept = s.kept := by
  intros; unfold pllTemperature; simp [foldl_kept, foldl_kept1, apply_ite State.kept]

@[simp] theorem wakeWrite_kept : ∀ s n v, (wakeWrite s n v).kept = s.kept := by
  intros; unfold wakeWrite; simp [foldl_kept, foldl_kept1, apply_ite State.kept]

/-! Teller.lean -/

@[simp] theorem State.setTlr_kept : ∀ s sec t, (State.setTlr s sec t).kept = s.kept := by
  intros; unfold State.setTlr; simp

@[simp] theorem State.setTlrState_kept : ∀ s sec st, (State.setTlrState s sec st).kept = s.kept := by
  intros; unfold State.setTlrState; simp

@[simp] theorem tlrRegWrite_kept : ∀ s sec reg v, (tlrRegWrite s sec reg v).kept = s.kept := by
  intros; unfold tlrRegWrite; simp

@[simp] theorem tlrEvent_kept : ∀ s sec, (tlrEvent s sec).kept = s.kept := by
  intros; unfold tlrEvent; simp

@[simp] theorem tlrFault_kept : ∀ s sec cause addr, (tlrFault s sec cause addr).kept = s.kept := by
  intros; unfold tlrFault; simp [foldl_kept, foldl_kept1, apply_ite State.kept]
  (repeat' split) <;> simp [*, foldl_kept, foldl_kept1, apply_ite State.kept]

@[simp] theorem tlrWithdraw_kept : ∀ s sec, (tlrWithdraw s sec).kept = s.kept := by
  intros; unfold tlrWithdraw; simp [foldl_kept, foldl_kept1, apply_ite State.kept]

@[simp] theorem tlrAbandon_kept : ∀ s sec, (tlrAbandon s sec).kept = s.kept := by
  intros; unfold tlrAbandon; simp

@[simp] theorem tlrStop_kept : ∀ s sec, (tlrStop s sec).kept = s.kept := by
  intros; unfold tlrStop; simp [foldl_kept, foldl_kept1, apply_ite State.kept]

@[simp] theorem tlrRun_kept : ∀ s sec, (tlrRun s sec).kept = s.kept := by
  intros; unfold tlrRun; simp [foldl_kept, foldl_kept1, apply_ite State.kept]

@[simp] theorem tlrLatch_kept : ∀ s sec bits, (tlrLatch s sec bits).kept = s.kept := by
  intros; unfold tlrLatch; simp [foldl_kept, foldl_kept1, apply_ite State.kept]

@[simp] theorem tlrClear_kept : ∀ s sec bits, (tlrClear s sec bits).kept = s.kept := by
  intros; unfold tlrClear; simp [foldl_kept, foldl_kept1, apply_ite State.kept]

@[simp] theorem tlrCmdWrite_kept : ∀ s sec v, (tlrCmdWrite s sec v).kept = s.kept := by
  intros; unfold tlrCmdWrite; simp [foldl_kept, foldl_kept1, apply_ite State.kept]

@[simp] theorem tlrReset_kept : ∀ s sec, (tlrReset s sec).kept = s.kept := by
  intros; unfold tlrReset; simp

@[simp] theorem tlrSetX_kept : ∀ s sec r v, (tlrSetX s sec r v).kept = s.kept := by
  intros; unfold tlrSetX; simp [foldl_kept, foldl_kept1, apply_ite State.kept]

@[simp] theorem tlrSetV_kept : ∀ s sec r v, (tlrSetV s sec r v).kept = s.kept := by
  intros; unfold tlrSetV; simp

@[simp] theorem setRamCycle_kept : ∀ s sec c, (setRamCycle s sec c).kept = s.kept := by
  intros; unfold setRamCycle; simp [foldl_kept, foldl_kept1, apply_ite State.kept]

@[simp] theorem tramPut_kept : ∀ s sec k w, (tramPut s sec k w).kept = s.kept := by
  intros; unfold tramPut; simp

@[simp] theorem tramRead_kept : ∀ s sec k, (tramRead s sec k).1.kept = s.kept := by
  intros; unfold tramRead; simp [foldl_kept, foldl_kept1, apply_ite State.kept]
  (repeat' split) <;> simp [*, foldl_kept, foldl_kept1, apply_ite State.kept]

@[simp] theorem tramWrite_kept : ∀ s sec k v, (tramWrite s sec k v).kept = s.kept := by
  intros; unfold tramWrite; simp

@[simp] theorem tramNetWrite_kept : ∀ s sec k v be, (tramNetWrite s sec k v be).kept = s.kept := by
  intros; unfold tramNetWrite; simp

@[simp] theorem tlrHalf_kept : ∀ s sec a, (tlrHalf s sec a).1.kept = s.kept := by
  intros; unfold tlrHalf; simp [foldl_kept, foldl_kept1, apply_ite State.kept]
  (repeat' split) <;> simp [*, foldl_kept, foldl_kept1, apply_ite State.kept]

@[simp] theorem tlrFetch_kept : ∀ s sec, (tlrFetch s sec).1.kept = s.kept := by
  intros
  rename_i s sec
  unfold tlrFetch; dsimp only
  have h := tlrHalf_kept s sec (s.tlr sec).pc
  generalize tlrHalf s sec (s.tlr sec).pc = p at h ⊢
  obtain ⟨s1, o⟩ := p
  cases o with
  | inr c => exact h
  | inl lo =>
    have h2 := tlrHalf_kept s1 sec ((s.tlr sec).pc + 2)
    dsimp only at h ⊢
    split
    · exact h
    · split
      · exact h
      · generalize tlrHalf s1 sec ((s.tlr sec).pc + 2) = q at h2 ⊢
        obtain ⟨s2, o2⟩ := q
        cases o2 <;> exact h2.trans h

@[simp] theorem tlrNext_kept : ∀ s sec pc, (tlrNext s sec pc).kept = s.kept := by
  intros; unfold tlrNext; simp

@[simp] theorem tlrBankStart_kept : ∀ s sec i kind reg size signed reqs next, (tlrBankStart s sec i kind reg size
    signed reqs next).kept = s.kept := by
  intros; unfold tlrBankStart; simp [foldl_kept, foldl_kept1, apply_ite State.kept]
  (repeat' split) <;> simp [*, foldl_kept, foldl_kept1, apply_ite State.kept]

@[simp] theorem tlrIssue_kept : ∀ s sec op a size v note aux, (tlrIssue s sec op a size v note aux).1.kept = s.kept :=
    by
  intros; unfold tlrIssue; simp

@[simp] theorem pageWrite_kept : ∀ s sec off v, (pageWrite s sec off v).kept = s.kept := by
  intros; unfold pageWrite; simp [foldl_kept, foldl_kept1, apply_ite State.kept]
  (repeat' split) <;> simp [*, foldl_kept, foldl_kept1, apply_ite State.kept]

@[simp] theorem tlrLoad_kept : ∀ s sec rd a size signed next, (tlrLoad s sec rd a size signed next).kept = s.kept :=
    by
  intros
  rename_i s sec rd a size signed next
  unfold tlrLoad
  split
  · simp
  · split
    · rename_i w _
      have h := tramRead_kept s sec w
      generalize tramRead s sec w = p at h ⊢
      obtain ⟨s1, o⟩ := p
      cases o <;> simpa using h
    · split <;> simp
    · simp
    · split <;> simp
    · simp

@[simp] theorem tlrStore_kept : ∀ s sec a size v next, (tlrStore s sec a size v next).kept = s.kept := by
  intros
  rename_i s sec a size v next
  unfold tlrStore
  split
  · simp
  · split
    · rename_i w _
      have h := tramRead_kept s sec w
      generalize tramRead s sec w = p at h ⊢
      obtain ⟨s1, o⟩ := p
      cases o <;> simpa using h
    · split <;> simp
    · simp
    · split <;> simp
    · simp

@[simp] theorem tlrBankDone_kept : ∀ s sec e, (tlrBankDone s sec e).kept = s.kept := by
  intros; unfold tlrBankDone; simp [foldl_kept, foldl_kept1, apply_ite State.kept]
  (repeat' split) <;> simp [*, foldl_kept, foldl_kept1, apply_ite State.kept]

@[simp] theorem tlrBankStep_kept : ∀ s sec, (tlrBankStep s sec).kept = s.kept := by
  intros; unfold tlrBankStep; simp [foldl_kept, foldl_kept1, apply_ite State.kept]
  (repeat' split) <;> simp [*, foldl_kept, foldl_kept1, apply_ite State.kept]

@[simp] theorem tlrRespond_kept : ∀ s o status data, (tlrRespond s o status data).kept = s.kept := by
  intros; unfold tlrRespond; simp [foldl_kept, foldl_kept1, apply_ite State.kept]
  (repeat' split) <;> simp [*, foldl_kept, foldl_kept1, apply_ite State.kept]

@[simp] theorem tlrResume_kept : ∀ s sec next, (tlrResume s sec next).kept = s.kept := by
  intros; unfold tlrResume; simp

@[simp] theorem tlrTwaitTake_kept : ∀ s sec rd next, (tlrTwaitTake s sec rd next).kept = s.kept := by
  intros; unfold tlrTwaitTake; simp

@[simp] theorem tlrSettleTake_kept : ∀ s sec rd next, (tlrSettleTake s sec rd next).kept = s.kept := by
  intros; unfold tlrSettleTake; simp

@[simp] theorem tlrOverdraft_kept : ∀ s sec, (tlrOverdraft s sec).kept = s.kept := by
  intros; unfold tlrOverdraft; simp [foldl_kept, foldl_kept1, apply_ite State.kept]

@[simp] theorem wakesSlot_kept : ∀ s0 s secs, (wakesSlot s0 s secs).kept = s.kept := by
  intros; unfold wakesSlot; simp [foldl_kept, foldl_kept1, apply_ite State.kept]

@[simp] theorem tlrCycleEnd_kept : ∀ s sec, (tlrCycleEnd s sec).kept = s.kept := by
  intros; unfold tlrCycleEnd; simp [foldl_kept, foldl_kept1, apply_ite State.kept]
  (repeat' split) <;> simp [*, foldl_kept, foldl_kept1, apply_ite State.kept]

@[simp] theorem tellersSlot_kept : ∀ s, (tellersSlot s).kept = s.kept := by
  intros; unfold tellersSlot; simp [foldl_kept, foldl_kept1, apply_ite State.kept]

@[simp] theorem tlrLatchAll_kept : ∀ s bits, (tlrLatchAll s bits).kept = s.kept := by
  intros; unfold tlrLatchAll; simp [foldl_kept, foldl_kept1, apply_ite State.kept]

@[simp] theorem tlrBase_kept : ∀ s sec i len, (tlrBase s sec i len).kept = s.kept := by
  intros; unfold tlrBase; simp [foldl_kept, foldl_kept1, apply_ite State.kept]
  (repeat' split) <;> simp [*, foldl_kept, foldl_kept1, apply_ite State.kept]

@[simp] theorem tlrRow_kept : ∀ s sec mine run fail, (∀ t i l, (run t i l).kept = t.kept) → ResKept s (tlrRow s sec
    mine run fail) := by
  intros
  rename_i s sec mine run fail hr
  have h := tlrFetch_kept s sec
  unfold tlrRow
  split
  · generalize tlrFetch s sec = p at h ⊢
    obtain ⟨s1, o⟩ := p
    dsimp only at h
    cases o with
    | inl il => simp only [resKept_okIf]; split <;> simp [hr, h]
    | inr c => simp only [resKept_okIf]; split <;> simp [h]
  · simp

/-! TellerVec.lean -/

@[simp] theorem tlrVld_kept : ∀ s sec vd a, (tlrVld s sec vd a).kept = s.kept := by
  intros
  rename_i s sec vd a
  unfold tlrVld; dsimp only
  split
  · simp
  · split
    · rename_i w _
      have h := tramRead_kept s sec w
      generalize tramRead s sec w = p at h ⊢
      obtain ⟨s1, o⟩ := p
      cases o with
      | none => simpa using h
      | some lo =>
        have h2 := tramRead_kept s1 sec (w + 1)
        dsimp only at h ⊢
        generalize tramRead s1 sec (w + 1) = q at h2 ⊢
        obtain ⟨s2, o2⟩ := q
        cases o2 <;> simpa using h2.trans h
    · simp
    · split <;> simp
    · simp

@[simp] theorem tlrVst_kept : ∀ s sec vs a, (tlrVst s sec vs a).kept = s.kept := by
  intros; unfold tlrVst; simp [foldl_kept, foldl_kept1, apply_ite State.kept]
  (repeat' split) <;> simp [*, foldl_kept, foldl_kept1, apply_ite State.kept]

@[simp] theorem tlrVtally_kept : ∀ s sec vc vi a sat, (tlrVtally s sec vc vi a sat).kept = s.kept := by
  intros; unfold tlrVtally; simp [foldl_kept, foldl_kept1, apply_ite State.kept]
  (repeat' split) <;> simp [*, foldl_kept, foldl_kept1, apply_ite State.kept]

@[simp] theorem tlrTwait_kept : ∀ s sec rd, (tlrTwait s sec rd).kept = s.kept := by
  intros; unfold tlrTwait; simp [foldl_kept, foldl_kept1, apply_ite State.kept]

@[simp] theorem tlrTsettle_kept : ∀ s sec rd, (tlrTsettle s sec rd).kept = s.kept := by
  intros; unfold tlrTsettle; simp [foldl_kept, foldl_kept1, apply_ite State.kept]

@[simp] theorem tlrTraise_kept : ∀ s sec rs1, (tlrTraise s sec rs1).kept = s.kept := by
  intros; unfold tlrTraise; simp

@[simp] theorem tlrT_kept : ∀ s sec i, (tlrT s sec i).kept = s.kept := by
  intros; unfold tlrT; simp [foldl_kept, foldl_kept1, apply_ite State.kept]
  (repeat' split) <;> simp [*, foldl_kept, foldl_kept1, apply_ite State.kept]

@[simp] theorem tRow_kept : ∀ s t mine, ResKept s (tRow s t mine) := by
  intros
  unfold tRow
  refine tlrRow_kept _ _ _ _ _ (fun _ _ _ => ?_)
  split
  · split
    · simp
    · rfl
  · rfl

/-! Nap.lean -/

@[simp] theorem State.setNap_kept : ∀ s sec p, (State.setNap s sec p).kept = s.kept := by
  intros; unfold State.setNap; simp

@[simp] theorem napOwn_kept : ∀ s sec ut, (napOwn s sec ut).kept = s.kept := by
  intros; unfold napOwn; simp

@[simp] theorem napRespond_kept : ∀ s o status data, (napRespond s o status data).kept = s.kept := by
  intros; unfold napRespond; simp [foldl_kept, foldl_kept1, apply_ite State.kept]

@[simp] theorem napAccept_kept : ∀ s sec r vc, (napAccept s sec r vc).1.kept = s.kept := by
  intros; unfold napAccept; simp [foldl_kept, foldl_kept1, apply_ite State.kept]
  (repeat' split) <;> simp [*, foldl_kept, foldl_kept1, apply_ite State.kept]

@[simp] theorem uwAnswer_kept : ∀ s sec q status data, (uwAnswer s sec q status data).kept = s.kept := by
  intros; unfold uwAnswer; simp

@[simp] theorem fenceWrite_kept : ∀ s sec b, (fenceWrite s sec b).kept = s.kept := by
  intros; unfold fenceWrite; simp

@[simp] theorem uwFlush_kept : ∀ s sec, (uwFlush s sec).kept = s.kept := by
  intros; unfold uwFlush; simp [foldl_kept, foldl_kept1, apply_ite State.kept]

@[simp] theorem napSlot_kept : ∀ s sec, (napSlot s sec).kept = s.kept := by
  intros; unfold napSlot; simp

@[simp] theorem napsSlot_kept : ∀ s, (napsSlot s).kept = s.kept := by
  intros; unfold napsSlot; simp [foldl_kept, foldl_kept1, apply_ite State.kept]

@[simp] theorem napsFrame_kept : ∀ s, (napsFrame s).kept = s.kept := by
  intros; unfold napsFrame; simp [foldl_kept, foldl_kept1, apply_ite State.kept]

@[simp] theorem sectorOverdraft_kept : ∀ s sec, (sectorOverdraft s sec).kept = s.kept := by
  intros; unfold sectorOverdraft; simp [foldl_kept, foldl_kept1, apply_ite State.kept]

/-! Reset.lean -/

@[simp] theorem muxBusy_kept : ∀ s, (muxBusy s).kept = s.kept := by
  intros; unfold muxBusy; simp

@[simp] theorem oscReport_kept : ∀ s, (oscReport s).kept = s.kept := by
  intros; unfold oscReport; try simp [foldl_kept, foldl_kept1, apply_ite State.kept]
  all_goals (repeat' split) <;> simp [*, foldl_kept, foldl_kept1, apply_ite State.kept]

@[simp] theorem mrefReport_kept : ∀ s, (mrefReport s).kept = s.kept := by
  intros; unfold mrefReport; try simp [foldl_kept, foldl_kept1, apply_ite State.kept]
  all_goals (repeat' split) <;> simp [*, foldl_kept, foldl_kept1, apply_ite State.kept]

@[simp] theorem clkReport_kept : ∀ s, (clkReport s).kept = s.kept := by
  intros; unfold clkReport; try simp [foldl_kept, foldl_kept1, apply_ite State.kept]
  all_goals (repeat' split) <;> simp [*, foldl_kept, foldl_kept1, apply_ite State.kept]

@[simp] theorem vmonReport_kept : ∀ s, (vmonReport s).kept = s.kept := by
  intros; unfold vmonReport; try simp [foldl_kept, foldl_kept1, apply_ite State.kept]
  all_goals (repeat' split) <;> simp [*, foldl_kept, foldl_kept1, apply_ite State.kept]

@[simp] theorem slewShow_kept : ∀ s, (slewShow s).kept = s.kept := by
  intros; unfold slewShow; try simp [foldl_kept, foldl_kept1, apply_ite State.kept]
  all_goals (repeat' split) <;> simp [*, foldl_kept, foldl_kept1, apply_ite State.kept]

@[simp] theorem applyVolts_kept : ∀ s khz, (applyVolts s khz).kept = s.kept := by
  intros; unfold applyVolts; simp

@[simp] theorem railsPass_kept : ∀ s dt, (railsPass s dt).kept = s.kept := by
  intros; unfold railsPass; try simp [foldl_kept, foldl_kept1, apply_ite State.kept]
  all_goals (repeat' split) <;> simp [*, foldl_kept, foldl_kept1, apply_ite State.kept]

@[simp] theorem aonPass_kept : ∀ s dt, (aonPass s dt).kept = s.kept := by
  intros; unfold aonPass; simp [foldl_kept, foldl_kept1, apply_ite State.kept]

@[simp] theorem wdtThaw_kept : ∀ s, (wdtThaw s).kept = s.kept := by
  intros; unfold wdtThaw; simp [foldl_kept, foldl_kept1, apply_ite State.kept]

@[simp] theorem wdtFreeze_kept : ∀ s, (wdtFreeze s).kept = s.kept := by
  intros; unfold wdtFreeze; simp

@[simp] theorem setAlarm_kept : ∀ s, (setAlarm s).kept = s.kept := by
  intros; unfold setAlarm; simp

@[simp] theorem keepFields_kept : ∀ old s fs, (keepFields old s fs).kept = s.kept := by
  intros; unfold keepFields; simp [foldl_kept, foldl_kept1, apply_ite State.kept]

@[simp] theorem blank_kept : ∀ s p kept, (blank s p kept).kept = s.kept := by
  intros; unfold blank; simp

@[simp] theorem causeWrite_kept : ∀ s, (causeWrite s).kept = s.kept := by
  intros; unfold causeWrite; try simp [foldl_kept, foldl_kept1, apply_ite State.kept]
  all_goals (repeat' split) <;> simp [*, foldl_kept, foldl_kept1, apply_ite State.kept]

@[simp] theorem stepTwo_kept : ∀ s, (stepTwo s).kept = s.kept := by
  intros; unfold stepTwo; try simp [foldl_kept, foldl_kept1, apply_ite State.kept]
  all_goals (repeat' split) <;> simp [*, foldl_kept, foldl_kept1, apply_ite State.kept]

@[simp] theorem deviceReset_kept : ∀ s cause sub, (deviceReset s cause sub).kept = s.kept := by
  intros; unfold deviceReset; simp

@[simp] theorem firmwareReset_kept : ∀ s v, (firmwareReset s v).kept = s.kept := by
  intros; unfold firmwareReset; simp [foldl_kept, foldl_kept1, apply_ite State.kept]

@[simp] theorem measureStrap_kept : ∀ s raws, (measureStrap s raws).kept = s.kept := by
  intros; unfold measureStrap; simp

@[simp] theorem bootRoot_kept : ∀ s, (bootRoot s).kept = s.kept := by
  intros; unfold bootRoot; (try dsimp only)
  (repeat' split) <;> simp [*, foldl_kept, foldl_kept1, apply_ite State.kept]

@[simp] theorem startStep2_kept : ∀ s rootOk rngOk, (startStep2 s rootOk rngOk).kept = s.kept := by
  intros; unfold startStep2; (try dsimp only)
  (repeat' split) <;> simp [*, foldl_kept, foldl_kept1, apply_ite State.kept]

@[simp] theorem startStep5_kept : ∀ s, (startStep5 s).kept = s.kept := by
  intros; unfold startStep5; simp [foldl_kept, foldl_kept1, apply_ite State.kept]

@[simp] theorem bistFailed_kept : ∀ s sub path index, (bistFailed s sub path index).kept = s.kept := by
  intros; unfold bistFailed; simp [foldl_kept, foldl_kept1, apply_ite State.kept]

@[simp] theorem postMove_kept : ∀ bad s g, (postMove bad s g).kept = s.kept := by
  intros; unfold postMove; simp

@[simp] theorem postRepair_kept : ∀ s bad, (postRepair s bad).kept = s.kept := by
  intros; unfold postRepair; simp [foldl_kept, foldl_kept1, apply_ite State.kept]

@[simp] theorem endOfBist_kept : ∀ s, (endOfBist s).kept = s.kept := by
  intros; unfold endOfBist; simp [foldl_kept, foldl_kept1, apply_ite State.kept]

@[simp] theorem blockReset_kept : ∀ s sec, (blockReset s sec).kept = s.kept := by
  intros; unfold blockReset; simp [foldl_kept, foldl_kept1, apply_ite State.kept]

@[simp] theorem blkSlot_kept : ∀ s, (blkSlot s).kept = s.kept := by
  intros; unfold blkSlot; (try dsimp only)
  (repeat' split) <;> simp [*, foldl_kept, foldl_kept1, apply_ite State.kept]

@[simp] theorem blkBegin_kept : ∀ s, (blkBegin s).kept = s.kept := by
  intros; unfold blkBegin; try simp [foldl_kept, foldl_kept1, apply_ite State.kept]
  all_goals (repeat' split) <;> simp [*, foldl_kept, foldl_kept1, apply_ite State.kept]

/-! Evt.lean -/

@[simp] theorem evtLatch_kept : ∀ s e, (evtLatch s e).kept = s.kept := by
  intros; unfold evtLatch; simp [foldl_kept, foldl_kept1, apply_ite State.kept]

@[simp] theorem unlost_kept : ∀ s e, (unlost s e).kept = s.kept := by
  intros; unfold unlost; simp [foldl_kept, foldl_kept1, apply_ite State.kept]

@[simp] theorem claimClear_kept : ∀ s e, (claimClear s e).kept = s.kept := by
  intros; unfold claimClear; simp [foldl_kept, foldl_kept1, apply_ite State.kept]

@[simp] theorem pendWrite_kept : ∀ s n v, (pendWrite s n v).kept = s.kept := by
  intros; unfold pendWrite; simp [foldl_kept, foldl_kept1, apply_ite State.kept]

@[simp] theorem claimRead_kept : ∀ s i peek, (claimRead s i peek).1.kept = s.kept := by
  intros; unfold claimRead; simp [foldl_kept, foldl_kept1, apply_ite State.kept]
  (repeat' split) <;> simp [*, foldl_kept, foldl_kept1, apply_ite State.kept]

@[simp] theorem swraise_kept : ∀ s v, (swraise s v).kept = s.kept := by
  intros; unfold swraise; simp [foldl_kept, foldl_kept1, apply_ite State.kept]

@[simp] theorem wdtStage_kept : ∀ s stage, (wdtStage s stage).kept = s.kept := by
  intros; unfold wdtStage; simp

@[simp] theorem wdtCtrlWrite_kept : ∀ s v, (wdtCtrlWrite s v).kept = s.kept := by
  intros; unfold wdtCtrlWrite; simp [foldl_kept, foldl_kept1, apply_ite State.kept]

@[simp] theorem wdtKick_kept : ∀ s v, (wdtKick s v).kept = s.kept := by
  intros; unfold wdtKick; simp [foldl_kept, foldl_kept1, apply_ite State.kept]

/-! Clock.lean -/

@[simp] theorem hangEnds_kept : ∀ s relock, (∀ t, (relock t).kept = t.kept) → (hangEnds s relock).kept = s.kept := by
  intro s relock h; unfold hangEnds; split <;> simp [h]

@[simp] theorem fallBack_kept : ∀ s src, (fallBack s src).kept = s.kept := by
  intros; unfold fallBack; try simp [foldl_kept, foldl_kept1, apply_ite State.kept]
  all_goals (repeat' split) <;> simp [*, foldl_kept, foldl_kept1, apply_ite State.kept]

@[simp] theorem tripRecord_kept : ∀ s src, (tripRecord s src).kept = s.kept := by
  intros; unfold tripRecord; try simp [foldl_kept, foldl_kept1, apply_ite State.kept]
  all_goals (repeat' split) <;> simp [*, foldl_kept, foldl_kept1, apply_ite State.kept]

@[simp] theorem vsetWrite_kept : ∀ s v, (vsetWrite s v).kept = s.kept := by
  intros; unfold vsetWrite; simp [foldl_kept, foldl_kept1, apply_ite State.kept]

@[simp] theorem slip_kept : ∀ s, (slip s).kept = s.kept := by
  intros; unfold slip; simp [foldl_kept, foldl_kept1, apply_ite State.kept]

@[simp] theorem selfRefresh_kept : ∀ s b, (selfRefresh s b).kept = s.kept := by
  intros; unfold selfRefresh; simp [foldl_kept, foldl_kept1, apply_ite State.kept]

@[simp] theorem switchStep1_kept : ∀ s, (switchStep1 s).kept = s.kept := by
  intros; unfold switchStep1; try simp [foldl_kept, foldl_kept1, apply_ite State.kept]
  all_goals (repeat' split) <;> simp [*, foldl_kept, foldl_kept1, apply_ite State.kept]

@[simp] theorem rootWrite_kept : ∀ s v, (rootWrite s v).kept = s.kept := by
  intros; unfold rootWrite; simp [foldl_kept, foldl_kept1, apply_ite State.kept]

@[simp] theorem rootStop_kept : ∀ s, (rootStop s).kept = s.kept := by
  intros; unfold rootStop; try simp [foldl_kept, foldl_kept1, apply_ite State.kept]
  all_goals (repeat' split) <;> simp [*, foldl_kept, foldl_kept1, apply_ite State.kept]

@[simp] theorem rootRelock_kept : ∀ s, (rootRelock s).kept = s.kept := by
  intros; unfold rootRelock; simp [foldl_kept, foldl_kept1, apply_ite State.kept]

@[simp] theorem rootMux_kept : ∀ s, (rootMux s).kept = s.kept := by
  intros; unfold rootMux; try simp [foldl_kept, foldl_kept1, apply_ite State.kept]
  all_goals (repeat' split) <;> simp [*, foldl_kept, foldl_kept1, apply_ite State.kept]

@[simp] theorem rootDone_kept : ∀ s, (rootDone s).kept = s.kept := by
  intros; unfold rootDone; simp

@[simp] theorem rampSlot_kept : ∀ s, (rampSlot s).kept = s.kept := by
  intros; unfold rampSlot; simp [foldl_kept, foldl_kept1, apply_ite State.kept]
  (repeat' split) <;> simp [*, foldl_kept, foldl_kept1, apply_ite State.kept]

/-! Power.lean -/

@[simp] theorem entryRefuse_kept : ∀ s block why, (entryRefuse s block why).kept = s.kept := by
  intros; unfold entryRefuse; simp

@[simp] theorem sensorsKept_kept : ∀ old s, (sensorsKept old s).kept = s.kept := by
  intros; unfold sensorsKept; simp [foldl_kept, foldl_kept1, apply_ite State.kept]

@[simp] theorem rcoSleep_kept : ∀ s asleep, (rcoSleep s asleep).kept = s.kept := by
  intros; unfold rcoSleep; try simp [foldl_kept, foldl_kept1, apply_ite State.kept]
  all_goals (repeat' split) <;> simp [*, foldl_kept, foldl_kept1, apply_ite State.kept]

@[simp] theorem entryDone_kept : ∀ s, (entryDone s).kept = s.kept := by
  intros; unfold entryDone; simp [foldl_kept, foldl_kept1, apply_ite State.kept]

@[simp] theorem entryFence_kept : ∀ s, (entryFence s).kept = s.kept := by
  intros; unfold entryFence; try simp [foldl_kept, foldl_kept1, apply_ite State.kept]
  all_goals (repeat' split) <;> simp [*, foldl_kept, foldl_kept1, apply_ite State.kept]

@[simp] theorem entryStops_kept : ∀ s, (entryStops s).kept = s.kept := by
  intros; unfold entryStops; try simp [foldl_kept, foldl_kept1, apply_ite State.kept]
  all_goals (repeat' split) <;> simp [*, foldl_kept, foldl_kept1, apply_ite State.kept]

@[simp] theorem latchWake_kept : ∀ s bit, (latchWake s bit).kept = s.kept := by
  intros; unfold latchWake; simp

@[simp] theorem recordWake_kept : ∀ s from_, (recordWake s from_).kept = s.kept := by
  intros; unfold recordWake; simp

@[simp] theorem residencyRead_kept : ∀ s m, (residencyRead s m).1.kept = s.kept := by
  intros; unfold residencyRead; simp

/-! Thermal.lean -/

@[simp] theorem sampleSensor_kept : ∀ failed s nr, (sampleSensor failed s nr).kept = s.kept := by
  intros; unfold sampleSensor; simp [foldl_kept, foldl_kept1, apply_ite State.kept]

@[simp] theorem thermalShutdown_kept : ∀ s sub sensor, (thermalShutdown s sub sensor).kept = s.kept := by
  intros; unfold thermalShutdown; simp [foldl_kept, foldl_kept1, apply_ite State.kept]

@[simp] theorem trimCompensate_kept : ∀ s, (trimCompensate s).kept = s.kept := by
  intros; unfold trimCompensate; simp [foldl_kept, foldl_kept1, apply_ite State.kept]

@[simp] theorem sampleJudge_kept : ∀ s, (sampleJudge s).kept = s.kept := by
  intros; unfold sampleJudge; simp [foldl_kept, foldl_kept1, apply_ite State.kept]

@[simp] theorem sampleRate_kept : ∀ s step, (sampleRate s step).kept = s.kept := by
  intros; unfold sampleRate; simp [foldl_kept, foldl_kept1, apply_ite State.kept]

@[simp] theorem setStep_kept : ∀ s n, (setStep s n).kept = s.kept := by
  intros; unfold setStep; simp

@[simp] theorem stepTo_kept : ∀ s n, (stepTo s n).kept = s.kept := by
  intros; unfold stepTo; try simp [foldl_kept, foldl_kept1, apply_ite State.kept]
  all_goals (repeat' split) <;> simp [*, foldl_kept, foldl_kept1, apply_ite State.kept]

@[simp] theorem thmPlWrite_kept : ∀ s v, (thmPlWrite s v).kept = s.kept := by
  intros; unfold thmPlWrite; simp [foldl_kept, foldl_kept1, apply_ite State.kept]

@[simp] theorem thmCtrlWrite_kept : ∀ s v, (thmCtrlWrite s v).kept = s.kept := by
  intros; unfold thmCtrlWrite; simp [foldl_kept, foldl_kept1, apply_ite State.kept]

/-! Scrub.lean -/

@[simp] theorem State.setScrub_kept : ∀ s sec x, (State.setScrub s sec x).kept = s.kept := by
  intros; unfold State.setScrub; simp

@[simp] theorem pwrite_kept : ∀ s sec w v, (pwrite s sec w v).kept = s.kept := by
  intros; unfold pwrite; simp

@[simp] theorem keepPolicy_kept : ∀ s sec, (keepPolicy s sec).kept = s.kept := by
  intros; unfold keepPolicy; try simp [foldl_kept, foldl_kept1, apply_ite State.kept]
  all_goals (repeat' split) <;> simp [*, foldl_kept, foldl_kept1, apply_ite State.kept]

@[simp] theorem pstoreWrite_kept : ∀ s sec w v, (pstoreWrite s sec w v).kept = s.kept := by
  intros; unfold pstoreWrite; simp [foldl_kept, foldl_kept1, apply_ite State.kept]
  (repeat' split) <;> simp [*, foldl_kept, foldl_kept1, apply_ite State.kept]

@[simp] theorem sweepCopies_kept : ∀ s sec i, (sweepCopies s sec i).kept = s.kept := by
  intros; rfl

@[simp] theorem setSweep_kept : ∀ s sec i, (setSweep s sec i).kept = s.kept := by
  intros; unfold setSweep; simp

@[simp] theorem holdBegin_kept : ∀ s sec, (holdBegin s sec).kept = s.kept := by
  intros; unfold holdBegin; simp

@[simp] theorem leaveFailed_kept : ∀ s sec, (leaveFailed s sec).kept = s.kept := by
  intros; unfold leaveFailed; dsimp only; split <;> simp [apply_ite State.kept]

@[simp] theorem dueStep_kept : ∀ s sec, (dueStep s sec).kept = s.kept := by
  intros
  unfold dueStep; dsimp only
  rw [foldl_kept _ (fun _ _ => by split <;> simp)]; simp

@[simp] theorem slotBegins_kept : ∀ s, (slotBegins s).kept = s.kept := by
  intros; unfold slotBegins; try simp [foldl_kept, foldl_kept1, apply_ite State.kept]
  all_goals (repeat' split) <;> simp [*, foldl_kept, foldl_kept1, apply_ite State.kept]

@[simp] theorem setRfxq_kept : ∀ s q, (setRfxq s q).kept = s.kept := by
  intros; unfold setRfxq; simp

@[simp] theorem uncFound_kept : ∀ s sec key policy, (uncFound s sec key policy).kept = s.kept := by
  intros; unfold uncFound; simp [foldl_kept, foldl_kept1, apply_ite State.kept]

@[simp] theorem sweepWord_kept : ∀ sec s i, (sweepWord sec s i).kept = s.kept := by
  intros; unfold sweepWord; simp [foldl_kept, foldl_kept1, apply_ite State.kept]
  (repeat' split) <;> simp [*, foldl_kept, foldl_kept1, apply_ite State.kept]

@[simp] theorem sweepBegin_kept : ∀ s sec, (sweepBegin s sec).kept = s.kept := by
  intros; unfold sweepBegin; simp [foldl_kept, foldl_kept1, apply_ite State.kept]

@[simp] theorem sweepCounts_kept : ∀ s sec, (sweepCounts s sec).kept = s.kept := by
  intros; unfold sweepCounts; simp

@[simp] theorem scrubFix_kept : ∀ s sec, (scrubFix s sec).kept = s.kept := by
  intros; unfold scrubFix; simp [foldl_kept, foldl_kept1, apply_ite State.kept]

@[simp] theorem scrubFixes_kept : ∀ s, (scrubFixes s).kept = s.kept := by
  intros; unfold scrubFixes; simp [foldl_kept, foldl_kept1, apply_ite State.kept]

@[simp] theorem blockRepaired_kept : ∀ s b, (blockRepaired s b).kept = s.kept := by
  intros; unfold blockRepaired; simp [foldl_kept, foldl_kept1, apply_ite State.kept]

@[simp] theorem blockFailed_kept : ∀ s b, (blockFailed s b).kept = s.kept := by
  intros; unfold blockFailed; simp

@[simp] theorem scrubRetry_kept : ∀ s sec, (scrubRetry s sec).kept = s.kept := by
  intros; unfold scrubRetry; simp [foldl_kept, foldl_kept1, apply_ite State.kept]

/-! CfgPort.lean -/

@[simp] theorem flashBytes_kept : ∀ s a n, (flashBytes s a n).1.kept = s.kept := by
  intros; unfold flashBytes; simp [foldl_kept, foldl_kept1, apply_ite State.kept]
  (repeat' split) <;> simp [*, foldl_kept, foldl_kept1, apply_ite State.kept]

@[simp] theorem flStart_kept : ∀ s, (flStart s).kept = s.kept := by
  intros; unfold flStart; try simp [foldl_kept, foldl_kept1, apply_ite State.kept]
  all_goals (repeat' split) <;> simp [*, foldl_kept, foldl_kept1, apply_ite State.kept]

@[simp] theorem flCmdWrite_kept : ∀ s v, (flCmdWrite s v).kept = s.kept := by
  intros; unfold flCmdWrite; simp [foldl_kept, foldl_kept1, apply_ite State.kept]

@[simp] theorem flRead_kept : ∀ s page, (flRead s page).kept = s.kept := by
  intros
  unfold flRead
  exact foldl_kept _ (fun _ _ => by dsimp only; split <;> simp) _ _

@[simp] theorem setSpace_kept : ∀ s, (setSpace s).kept = s.kept := by
  intros; unfold setSpace; simp

@[simp] theorem orphanWrites_kept : ∀ s, (orphanWrites s).kept = s.kept := by
  intros; unfold orphanWrites; simp

@[simp] theorem streamFail_kept : ∀ s code seg, (streamFail s code seg).kept = s.kept := by
  intros; unfold streamFail; simp [foldl_kept, foldl_kept1, apply_ite State.kept]

@[simp] theorem consume_kept : ∀ s n, (consume s n).kept = s.kept := by
  intros; unfold consume; simp [foldl_kept, foldl_kept1, apply_ite State.kept]
  (repeat' split) <;> simp [*, foldl_kept, foldl_kept1, apply_ite State.kept]

@[simp] theorem recFail_kept : ∀ s code, (recFail s code).kept = s.kept := by
  intros; unfold recFail; simp

@[simp] theorem loaderRespond_kept : ∀ s o status, (loaderRespond s o status).kept = s.kept := by
  intros; unfold loaderRespond; simp [foldl_kept, foldl_kept1, apply_ite State.kept]

@[simp] theorem partialStart_kept : ∀ s src base, (partialStart s src base).kept = s.kept := by
  intros; unfold partialStart; simp [foldl_kept, foldl_kept1, apply_ite State.kept]

@[simp] theorem streamAbort_kept : ∀ s, (streamAbort s).kept = s.kept := by
  intros; unfold streamAbort; simp [foldl_kept, foldl_kept1, apply_ite State.kept]

@[simp] theorem pcmdWrite_kept : ∀ s v, (pcmdWrite s v).kept = s.kept := by
  intros; unfold pcmdWrite; simp [foldl_kept, foldl_kept1, apply_ite State.kept]
  (repeat' split) <;> simp [*, foldl_kept, foldl_kept1, apply_ite State.kept]

@[simp] theorem spWord_kept : ∀ s v, (spWord s v).1.kept = s.kept := by
  intros; unfold spWord; simp [foldl_kept, foldl_kept1, apply_ite State.kept]
  (repeat' split) <;> simp [*, foldl_kept, foldl_kept1, apply_ite State.kept]

@[simp] theorem releaseDone_kept : ∀ s, (releaseDone s).kept = s.kept := by
  intros; unfold releaseDone; simp

@[simp] theorem cfgCtrlWrite_kept : ∀ s v, (cfgCtrlWrite s v).kept = s.kept := by
  intros; unfold cfgCtrlWrite; simp [foldl_kept, foldl_kept1, apply_ite State.kept]

/-! Steward.lean -/

@[simp] theorem coreTrap_kept : ∀ s i cause int tval, (coreTrap s i cause int tval).kept = s.kept := by
  intros; unfold coreTrap; simp

@[simp] theorem coreTrapFree_kept : ∀ s i cause, (coreTrapFree s i cause).kept = s.kept := by
  intros; unfold coreTrapFree; simp

@[simp] theorem csrRead_kept : ∀ s i n, (csrRead s i n).1.kept = s.kept := by
  intros
  unfold csrRead
  repeat (refine fst_ite ?_ ?_; · rfl)
  rfl

@[simp] theorem writeBack_kept : ∀ s i k line, (writeBack s i k line).kept = s.kept := by
  intros; unfold writeBack; simp [foldl_kept, foldl_kept1, apply_ite State.kept]
  (repeat' split) <;> simp [*, foldl_kept, foldl_kept1, apply_ite State.kept]

@[simp] theorem dEvict_kept : ∀ s i k line wb, (dEvict s i k line wb).kept = s.kept := by
  intros; unfold dEvict; simp [foldl_kept, foldl_kept1, apply_ite State.kept]

@[simp] theorem dInstall_kept : ∀ s i line st key data, (dInstall s i line st key data).kept = s.kept := by
  intros; unfold dInstall; simp [foldl_kept, foldl_kept1, apply_ite State.kept]
  (repeat' split) <;> simp [*, foldl_kept, foldl_kept1, apply_ite State.kept]

@[simp] theorem sendSnp_kept : ∀ s at_ f dst, (sendSnp s at_ f dst).kept = s.kept := by
  intros; unfold sendSnp; simp

@[simp] theorem askHub_kept : ∀ s i kind line addr, (askHub s i kind line addr).kept = s.kept := by
  intros; unfold askHub; (try dsimp only)
  (repeat' split) <;> simp [*, foldl_kept, foldl_kept1, apply_ite State.kept]

@[simp] theorem hubServe_kept : ∀ s line, (hubServe s line).kept = s.kept := by
  intros; unfold hubServe; simp [foldl_kept, foldl_kept1, apply_ite State.kept]
  (repeat' split) <;> simp [*, foldl_kept, foldl_kept1, apply_ite State.kept]

@[simp] theorem snoopAct_kept : ∀ s j f, (snoopAct s j f).kept = s.kept := by
  intros; unfold snoopAct; simp [foldl_kept, foldl_kept1, apply_ite State.kept]
  (repeat' split) <;> simp [*, foldl_kept, foldl_kept1, apply_ite State.kept]

@[simp] theorem sendAcks_kept : ∀ s j, (sendAcks s j).kept = s.kept := by
  intros; unfold sendAcks; simp [foldl_kept, foldl_kept1, apply_ite State.kept]

@[simp] theorem hubGrant_kept : ∀ s h err, (hubGrant s h err).kept = s.kept := by
  intros; unfold hubGrant; simp

@[simp] theorem lateDrop_kept : ∀ s, (lateDrop s).kept = s.kept := by
  intros; unfold lateDrop; simp

@[simp] theorem sendDone_kept : ∀ s i line, (sendDone s i line).kept = s.kept := by
  intros; unfold sendDone; simp

@[simp] theorem cohRead_kept : ∀ s i kind line addr stage, (cohRead s i kind line addr stage).kept = s.kept := by
  intros; unfold cohRead; simp

@[simp] theorem cohOwn_kept : ∀ s i kind line addr, (cohOwn s i kind line addr).kept = s.kept := by
  intros; unfold cohOwn; simp [foldl_kept, foldl_kept1, apply_ite State.kept]
  (repeat' split) <;> simp [*, foldl_kept, foldl_kept1, apply_ite State.kept]

/-! StewardExec.lean -/

@[simp] theorem iFill_kept : ∀ s i line a, (iFill s i line a).kept = s.kept := by
  intros; unfold iFill; simp [foldl_kept, foldl_kept1, apply_ite State.kept]

@[simp] theorem iInstall_kept : ∀ s i line data, (iInstall s i line data).kept = s.kept := by
  intros; unfold iInstall; simp [foldl_kept, foldl_kept1, apply_ite State.kept]
  (repeat' split) <;> simp [*, foldl_kept, foldl_kept1, apply_ite State.kept]

@[simp] theorem fetchHalf_kept : ∀ s i a, (fetchHalf s i a).1.kept = s.kept := by
  intros; unfold fetchHalf; simp [foldl_kept, foldl_kept1, apply_ite State.kept]
  (repeat' split) <;> simp [*, foldl_kept, foldl_kept1, apply_ite State.kept]

@[simp] theorem coreFetch_kept : ∀ s i, (coreFetch s i).1.kept = s.kept := by
  intros
  rename_i s i
  unfold coreFetch; dsimp only
  have h := fetchHalf_kept s i (s.core i).pc
  generalize fetchHalf s i (s.core i).pc = p at h ⊢
  obtain ⟨s1, o⟩ := p
  cases o with
  | none => exact h
  | some lo =>
    have h2 := fetchHalf_kept s1 i (((s.core i).pc + 2) % 2 ^ 64)
    dsimp only at h ⊢
    split
    · exact h
    · generalize fetchHalf s1 i (((s.core i).pc + 2) % 2 ^ 64) = q at h2 ⊢
      obtain ⟨s2, o2⟩ := q
      cases o2 <;> exact h2.trans h

@[simp] theorem coreRetire_kept : ∀ s i npc, (coreRetire s i npc).kept = s.kept := by
  intros; unfold coreRetire; simp

@[simp] theorem coreFinish_kept : ∀ s i npc rd v, (coreFinish s i npc rd v).kept = s.kept := by
  intros; unfold coreFinish; simp

@[simp] theorem coreRow_kept : ∀ s i mine run, (∀ t j l, (run t j l).kept = t.kept) → ResKept s (coreRow s i mine run)
    := by
  intros
  rename_i s i mine run hr
  have h := coreFetch_kept s i
  unfold coreRow
  split
  · generalize coreFetch s i = p at h ⊢
    obtain ⟨s1, o⟩ := p
    dsimp only at h
    cases o with
    | none => simpa using h
    | some il => dsimp only; split <;> simp [hr, h]
  · simp

@[simp] theorem dWord_kept : ∀ s i k line j, (dWord s i k line j).1.kept = s.kept := by
  intros; unfold dWord; simp [foldl_kept, foldl_kept1, apply_ite State.kept]
  (repeat' split) <;> simp [*, foldl_kept, foldl_kept1, apply_ite State.kept]

@[simp] theorem uncached_kept : ∀ s i op size a data note, (uncached s i op size a data note).kept = s.kept := by
  intros; unfold uncached; simp [foldl_kept, foldl_kept1, apply_ite State.kept]

@[simp] theorem coreLoad_kept : ∀ s i rd a size signed npc, (coreLoad s i rd a size signed npc).kept = s.kept := by
  intros
  rename_i s i rd a size signed npc
  unfold coreLoad; dsimp only
  split
  · simp
  · split
    · split
      · simp
      · rename_i k _
        have h := dWord_kept s i k (a / 64) (a % 64 / 8)
        generalize dWord s i k (a / 64) (a % 64 / 8) = p at h ⊢
        obtain ⟨s1, o, b⟩ := p
        cases o <;> cases b <;> simpa using h
    · split <;> simp

@[simp] theorem ownLine_kept : ∀ s i line a lr, (ownLine s i line a lr).1.kept = s.kept := by
  intros; unfold ownLine; (repeat' split) <;> simp

@[simp] theorem ownWord_kept : ∀ s i line a lr, (ownWord s i line a lr).1.kept = s.kept := by
  intros
  rename_i s i line a lr
  unfold ownWord
  split
  · simp
  · rename_i k _
    have h := dWord_kept s i k line (a % 64 / 8)
    split <;> rename_i e <;> rw [e] at h
    · rename_i s1 v _
      have h2 := ownLine_kept s1 i line a lr
      split <;> rename_i e2 <;> rw [e2] at h2 <;> simp_all
    · simpa using h
    · simpa using h

@[simp] theorem coreStore_kept : ∀ s i a size v npc, (coreStore s i a size v npc).kept = s.kept := by
  intros
  rename_i s i a size v npc
  unfold coreStore; dsimp only
  split
  · simp
  · split
    · split
      · have h := ownLine_kept s i (a / 64) a false
        generalize ownLine s i (a / 64) a false = p at h ⊢
        obtain ⟨s1, o⟩ := p
        cases o <;> simpa using h
      · have h := ownWord_kept s i (a / 64) a false
        generalize ownWord s i (a / 64) a false = p at h ⊢
        obtain ⟨s1, o⟩ := p
        cases o <;> simpa using h
    · split <;> simp

@[simp] theorem coreCsr_kept : ∀ s i f3 rd rs1 num npc, (coreCsr s i f3 rd rs1 num npc).kept = s.kept := by
  intros
  rename_i s i f3 rd rs1 num npc
  have h := csrRead_kept s i num
  unfold coreCsr; dsimp only
  generalize csrRead s i num = p at h ⊢
  obtain ⟨s1, o⟩ := p
  cases o with
  | none => simp
  | some old =>
    dsimp only at h ⊢
    split
    · simp
    · split <;> simpa using h

@[simp] theorem coreMret_kept : ∀ s i, (coreMret s i).kept = s.kept := by
  intros; unfold coreMret; simp

@[simp] theorem coreRun_kept : ∀ s i ins len, (coreRun s i ins len).kept = s.kept := by
  intros; unfold coreRun; simp [foldl_kept, foldl_kept1, apply_ite State.kept]
  (repeat' split) <;> simp [*, foldl_kept, foldl_kept1, apply_ite State.kept]

@[simp] theorem wfiEnd_kept : ∀ s i, (wfiEnd s i).kept = s.kept := by
  intros; unfold wfiEnd; simp

@[simp] theorem cboRun_kept : ∀ s i rs1 type len, (cboRun s i rs1 type len).kept = s.kept := by
  intros; unfold cboRun; simp [foldl_kept, foldl_kept1, apply_ite State.kept]

@[simp] theorem cboRow_kept : ∀ s i kind type, ResKept s (cboRow s i kind type) := by
  intros
  unfold cboRow
  refine coreRow_kept _ _ _ _ (fun _ _ _ => ?_)
  split
  · simp
  · rfl

@[simp] theorem cachedAmo_kept : ∀ s i a size rd npc f resv lr, (cachedAmo s i a size rd npc f resv lr).kept = s.kept := by
  intros
  rename_i s i a size rd npc f resv lr
  have h := ownWord_kept s i (a / 64) a lr
  unfold cachedAmo
  split <;> rename_i e <;> rw [e] at h <;> simpa using h

@[simp] theorem uncachedAmo_kept : ∀ s i o rd rs2 a size npc, (uncachedAmo s i o rd rs2 a size npc).kept = s.kept :=
    by
  intros; unfold uncachedAmo; simp [foldl_kept, foldl_kept1, apply_ite State.kept]
  (repeat' split) <;> simp [*, foldl_kept, foldl_kept1, apply_ite State.kept]

@[simp] theorem amoRun_kept : ∀ s i ins len, (amoRun s i ins len).kept = s.kept := by
  intros; unfold amoRun; simp [foldl_kept, foldl_kept1, apply_ite State.kept]
  (repeat' split) <;> simp [*, foldl_kept, foldl_kept1, apply_ite State.kept]

@[simp] theorem busErr_kept : ∀ s i a status, (busErr s i a status).kept = s.kept := by
  intros; unfold busErr; simp

@[simp] theorem wbAnswered_kept : ∀ s i o, (wbAnswered s i o).kept = s.kept := by
  intros; unfold wbAnswered; simp [foldl_kept, foldl_kept1, apply_ite State.kept]
  (repeat' split) <;> simp [*, foldl_kept, foldl_kept1, apply_ite State.kept]

@[simp] theorem cohInstall_kept : ∀ s i key status data, (cohInstall s i key status data).kept = s.kept := by
  intros; unfold cohInstall; simp [foldl_kept, foldl_kept1, apply_ite State.kept]
  (repeat' split) <;> simp [*, foldl_kept, foldl_kept1, apply_ite State.kept]

@[simp] theorem stewardRespond_kept : ∀ s o status data, (stewardRespond s o status data).kept = s.kept := by
  intros; unfold stewardRespond; simp [foldl_kept, foldl_kept1, apply_ite State.kept]
  (repeat' split) <;> simp [*, foldl_kept, foldl_kept1, apply_ite State.kept]

@[simp] theorem releaseCores_kept : ∀ s, (releaseCores s).kept = s.kept := by
  intros; unfold releaseCores; simp [foldl_kept, foldl_kept1, apply_ite State.kept]

/-! Gpio.lean -/

@[simp] theorem gpioBeat_kept : ∀ s pins, (gpioBeat s pins).kept = s.kept := by
  intros; unfold gpioBeat; simp [foldl_kept, foldl_kept1, apply_ite State.kept]

@[simp] theorem gpioTake_kept : ∀ s0 s, (gpioTake s0 s).kept = s.kept := by
  intros; unfold gpioTake; simp

@[simp] theorem gpioSlot_kept : ∀ s pins, (gpioSlot s pins).kept = s.kept := by
  intros; unfold gpioSlot; simp [foldl_kept, foldl_kept1, apply_ite State.kept]

/-! LinkTest.lean -/

@[simp] theorem curWrite_kept : ∀ s v, (curWrite s v).kept = s.kept := by
  intros; unfold curWrite; simp [foldl_kept, foldl_kept1, apply_ite State.kept]

@[simp] theorem rtWrite_kept : ∀ s v, (rtWrite s v).kept = s.kept := by
  intros; unfold rtWrite; simp [foldl_kept, foldl_kept1, apply_ite State.kept]

@[simp] theorem rtOpen_kept : ∀ s, (rtOpen s).kept = s.kept := by
  intros; unfold rtOpen; simp [foldl_kept, foldl_kept1, apply_ite State.kept]
  (repeat' split) <;> simp [*, foldl_kept, foldl_kept1, apply_ite State.kept]

@[simp] theorem rtSlot_kept : ∀ s, (rtSlot s).kept = s.kept := by
  intros; unfold rtSlot; simp [foldl_kept, foldl_kept1, apply_ite State.kept]
  (repeat' split) <;> simp [*, foldl_kept, foldl_kept1, apply_ite State.kept]

@[simp] theorem rtAbort_kept : ∀ s, (rtAbort s).kept = s.kept := by
  intros; unfold rtAbort; simp [foldl_kept, foldl_kept1, apply_ite State.kept]
  (repeat' split) <;> simp [*, foldl_kept, foldl_kept1, apply_ite State.kept]

@[simp] theorem rtGroup_kept : ∀ s pair place repair bad, (rtGroup s pair place repair bad).kept = s.kept := by
  intros
  unfold rtGroup; dsimp only
  rw [foldl_kept _ (fun _ _ => by simp)]
  refine foldl_kept _ (fun _ _ => ?_) _ _
  split
  · split
    · split <;> simp
    · simp
  · rfl

/-! RegWrite.lean -/

@[simp] theorem genericWrite_kept : ∀ s o v, (genericWrite s o v).kept = s.kept := by
  intros; unfold genericWrite; simp [foldl_kept, foldl_kept1, apply_ite State.kept]
  (repeat' split) <;> simp [*, foldl_kept, foldl_kept1, apply_ite State.kept]

@[simp] theorem genericRead_kept : ∀ s o peek, (genericRead s o peek).1.kept = s.kept := by
  intros; unfold genericRead; simp [foldl_kept, foldl_kept1, apply_ite State.kept]
  (repeat' split) <;> simp [*, foldl_kept, foldl_kept1, apply_ite State.kept]

@[simp] theorem writeLow_kept : ∀ s o v id, OptKept s (writeLow s o v id) := by
  intros
  unfold writeLow; (try dsimp only)
  repeat' split
  all_goals first | (simp; done) | (simp [apply_ite State.kept]; done) | skip
  all_goals (simp [foldl_kept])

@[simp] theorem writeConfig_kept : ∀ s o v, OptKept s (writeConfig s o v) := by
  intros
  unfold writeConfig; (try dsimp only)
  repeat' split
  all_goals first | (simp; done) | (simp [apply_ite State.kept]; done) | skip

@[simp] theorem writeVault_kept : ∀ s o v id, OptKept s (writeVault s o v id) := by
  intros
  unfold writeVault; (try dsimp only)
  repeat' split
  all_goals first | (simp; done) | (simp [apply_ite State.kept]; done) | skip

@[simp] theorem writeService_kept : ∀ s o v id, OptKept s (writeService s o v id) := by
  intros
  unfold writeService; (try dsimp only)
  repeat' split
  all_goals first | (simp; done) | (simp [apply_ite State.kept]; done) | skip

@[simp] theorem writeLane_kept : ∀ s o v, OptKept s (writeLane s o v) := by
  intros
  unfold writeLane; (try dsimp only)
  repeat' split
  all_goals first | (simp; done) | (simp [apply_ite State.kept]; done) | skip

@[simp] theorem portOwner_kept : ∀ s t id kind sec busy, (portOwner s t id kind sec busy).kept = t.kept := by
  intros; unfold portOwner; simp [foldl_kept, foldl_kept1, apply_ite State.kept]

@[simp] theorem writeSector_kept : ∀ s o v id, OptKept s (writeSector s o v id) := by
  intros
  unfold writeSector; (try dsimp only)
  repeat' split
  all_goals first | (simp; done) | (simp [apply_ite State.kept]; done) | skip

@[simp] theorem specialWrite_kept : ∀ s o v id, OptKept s (specialWrite s o v id) := by
  intros
  unfold specialWrite; (try dsimp only)
  repeat' split
  all_goals first | (simp; done) | (simp [apply_ite State.kept]; done) | skip

@[simp] theorem regWrite_kept : ∀ s o v id, (regWrite s o v id).1.kept = s.kept := by
  intros
  rename_i s o v id
  unfold regWrite
  split
  · rfl
  · have hk : (if sampledReg o then s.keepOld o else s).kept = s.kept := by split <;> simp
    generalize (if sampledReg o then s.keepOld o else s) = t at hk ⊢
    dsimp only
    have h := specialWrite_kept t o v id
    generalize specialWrite t o v id = p at h ⊢
    cases p with
    | none => simp [hk]
    | some q => rw [← hk]; simpa using h

@[simp] theorem specialRead_kept : ∀ s o peek id, OptKept s (specialRead s o peek id) := by
  intros
  unfold specialRead; dsimp only
  repeat' (refine opt_ite ?_ ?_)
  all_goals first | exact optKept_map _ _ _ _ rfl | (simp; done) | (split <;> (try split) <;> simp)

@[simp] theorem regRead_kept : ∀ s o peek id, (regRead s o peek id).1.kept = s.kept := by
  intros
  rename_i s o peek id
  have h := specialRead_kept s o peek id
  unfold regRead
  split
  · rfl
  · generalize specialRead s o peek id = p at h ⊢
    cases p with
    | none => simp
    | some q => simpa using h

/-! NocServe.lean -/

@[simp] theorem sramRead_kept : ∀ s w, (sramRead s w).1.kept = s.kept := by
  intros; unfold sramRead; (try dsimp only)
  (repeat' split) <;> simp [*, foldl_kept, foldl_kept1, apply_ite State.kept]

@[simp] theorem ramLine_kept : ∀ p s w, PortKept p → (ramLine p s w).1.kept = s.kept := by
  intros
  rename_i p s w h
  unfold ramLine
  refine foldl_kept1 _ (fun a x => ?_) _ _
  exact h.1 _ _

@[simp] theorem serveRam_kept : ∀ p a s w r, PortKept p → ServedKept s (serveRam p a s w r) := by
  intros
  rename_i p a s w r h
  have hl := ramLine_kept p s w h
  have hr := h.2.1 s w
  have hk := h.1 s w
  unfold serveRam
  split
  · simp
  · split
    · dsimp only
      split <;> split <;> first | exact hl | exact hk
    · split
      · simp
      · split
        · exact h.2.2 _ _ _ _
        · dsimp only; split
          · exact (h.2.2 _ _ _ _).trans hr
          · exact hr
    · exact foldl_kept _ (fun _ _ => h.2.2 _ _ _ _) _ _
    · dsimp only
      split
      · simp
      · split
        · simp
        · split
          · exact (h.2.2 _ _ _ _).trans hr
          · exact hr

@[simp] theorem serveTram_kept : ∀ s sec r, ServedKept s (serveTram s sec r) := by
  intros
  rename_i s sec r
  unfold serveTram; dsimp only
  split
  · simp
  · split
    · simp
    · have h := serveRam_kept (tramPort sec) false (setRamCycle s sec { ramCycle s sec with net := true }) (r.addr % 0x10000 / 8) r
        ⟨fun _ _ => by simp [tramPort], fun _ _ => by simp [tramPort], fun _ _ _ _ => by simp [tramPort]⟩
      have e := setRamCycle_kept s sec { ramCycle s sec with net := true }
      generalize serveRam _ _ _ _ _ = v at h ⊢
      cases v <;> simp_all [ServedKept]

@[simp] theorem serveBank_kept : ∀ s b r, ServedKept s (serveBank s b r) := by
  intros; unfold serveBank; simp [foldl_kept, foldl_kept1, apply_ite State.kept]
  (repeat' split) <;> simp [*, foldl_kept, foldl_kept1, apply_ite State.kept]

@[simp] theorem serveReg_kept : ∀ s r, ServedKept s (serveReg s r) := by
  intros; unfold serveReg; simp [foldl_kept, foldl_kept1, apply_ite State.kept]
  (repeat' split) <;> simp [*, foldl_kept, foldl_kept1, apply_ite State.kept]

@[simp] theorem serve_kept : ∀ s r vc, ServedKept s (serve s r vc) := by
  intros
  unfold serve
  split
  · simp
  · simp
  · simp
  · exact serveRam_kept _ _ _ _ _ ⟨fun _ _ => by simp [sramPort], fun _ _ => by simp [sramPort], fun _ _ _ _ => by simp [sramPort]⟩
  · simp
  · dsimp only; split <;> simp
  · simp

@[simp] theorem takeRequest_kept : ∀ s r net vc mine, ResKept s (takeRequest s r net vc mine) := by
  intros
  rename_i s r net vc mine
  unfold takeRequest
  split
  · rename_i q _
    split
    · have h := serve_kept (memChosen (s.eject r net vc) r net vc) q vc
      generalize serve (memChosen (s.eject r net vc) r net vc) q vc = v at h ⊢
      cases v with
      | answer s1 st d =>
        simp only [servedKept_answer, memChosen_kept, State.eject_kept] at h
        simp only [resKept_ok]; split <;> simp [h]
      | taken s1 => simpa using h
      | waits => simp
    · simp
  · simp

@[simp] theorem dbgRespond_kept : ∀ s o status data, (dbgRespond s o status data).kept = s.kept := by
  intros; unfold dbgRespond; simp [foldl_kept, foldl_kept1, apply_ite State.kept]

@[simp] theorem deliver_kept : ∀ s o status data, (deliver s o status data).kept = s.kept := by
  intros; unfold deliver; simp [foldl_kept, foldl_kept1, apply_ite State.kept]
  (repeat' split) <;> simp [*, foldl_kept, foldl_kept1, apply_ite State.kept]

/-! Debug.lean -/

@[simp] theorem tapLoad_kept : ∀ s code dr, (tapLoad s code dr).kept = s.kept := by
  intros; unfold tapLoad; simp

@[simp] theorem extestRun_kept : ∀ s code pins v, (extestRun s code pins v).kept = s.kept := by
  intros; unfold extestRun; simp

@[simp] theorem engineBusy_kept : ∀ s i2c, (engineBusy s i2c).kept = s.kept := by
  intros
  unfold engineBusy; simp

@[simp] theorem engineAnswer_kept : ∀ s r v, ServedKept s v → (engineAnswer s r v).kept = s.kept := by
  intros
  rename_i s r v h
  cases v with
  | answer s1 st d => exact (dbgRespond_kept _ _ _ _).trans h
  | taken s1 => rfl
  | waits => rfl

@[simp] theorem engineDirect_kept : ∀ s r, (engineDirect s r).kept = s.kept := by
  intros
  exact engineAnswer_kept _ _ _ (serveReg_kept _ _)

@[simp] theorem engineIssue_kept : ∀ s write i2c size key addr data, (engineIssue s write i2c size key addr data).kept
    = s.kept := by
  intros; unfold engineIssue; simp [foldl_kept, foldl_kept1, apply_ite State.kept]

@[simp] theorem resumeNow_kept : ∀ s, (resumeNow s).kept = s.kept := by
  intros; unfold resumeNow; simp [foldl_kept, foldl_kept1, apply_ite State.kept]

@[simp] theorem haltNow_kept : ∀ s, (haltNow s).kept = s.kept := by
  intros; unfold haltNow; simp [foldl_kept, foldl_kept1, apply_ite State.kept]

@[simp] theorem haltSlot_kept : ∀ s, (haltSlot s).kept = s.kept := by
  intros; unfold haltSlot; simp [foldl_kept, foldl_kept1, apply_ite State.kept]

@[simp] theorem i2cStop_kept : ∀ s, (i2cStop s).kept = s.kept := by
  intros; unfold i2cStop; simp

@[simp] theorem i2cCommand_kept : ∀ s a write addr data, (i2cCommand s a write addr data).kept = s.kept := by
  intros; unfold i2cCommand; simp [foldl_kept, foldl_kept1, apply_ite State.kept]

/-! Loader.lean -/

@[simp] theorem ldFill_kept : ∀ s, (ldFill s).kept = s.kept := by
  intros; unfold ldFill; simp [foldl_kept, foldl_kept1, apply_ite State.kept]

@[simp] theorem ldRead_kept : ∀ s n, (ldRead s n).1.kept = s.kept := by
  intros
  rename_i s n
  unfold ldRead
  split
  · rfl
  · have h := flashBytes_kept s (s.ld.base + s.ld.pos) n
    generalize flashBytes s (s.ld.base + s.ld.pos) n = p at h ⊢
    obtain ⟨s1, o⟩ := p
    cases o <;> exact h

@[simp] theorem ldSkip_kept : ∀ s n, (ldSkip s n).kept = s.kept := by
  intros; unfold ldSkip; simp

@[simp] theorem flashHeader_kept : ∀ s base room, (flashHeader s base room).1.kept = s.kept := by
  intros
  rename_i s base room
  unfold flashHeader
  split
  · rfl
  · split
    · rfl
    · have h := flashBytes_kept s base 128
      generalize flashBytes s base 128 = p at h ⊢
      obtain ⟨s1, o⟩ := p
      cases o <;> exact h

@[simp] theorem copyHeader_kept : ∀ s src, (copyHeader s src).1.kept = s.kept := by
  intros
  rename_i s src
  have h := flashHeader_kept s (copyBase src) 0x70000000
  unfold copyHeader
  generalize flashHeader s (copyBase src) 0x70000000 = p at h ⊢
  obtain ⟨s1, o⟩ := p
  cases o <;> exact h

@[simp] theorem openStream_kept : ∀ s hdr key, (openStream s hdr key).kept = s.kept := by
  intros; unfold openStream; simp

@[simp] theorem bootHeader_kept : ∀ s, (bootHeader s).kept = s.kept := by
  intros; unfold bootHeader; simp [foldl_kept, foldl_kept1, apply_ite State.kept]
  (repeat' split) <;> simp [*, foldl_kept, foldl_kept1, apply_ite State.kept]

@[simp] theorem escrowEnter_kept : ∀ s secs planes, (escrowEnter s secs planes).kept = s.kept := by
  intros; unfold escrowEnter; simp [foldl_kept, foldl_kept1, apply_ite State.kept]

@[simp] theorem declareRegion_kept : ∀ s, (declareRegion s).kept = s.kept := by
  intros; unfold declareRegion; simp [foldl_kept, foldl_kept1, apply_ite State.kept]

@[simp] theorem acceptHeader_kept : ∀ s hdr key, (acceptHeader s hdr key).kept = s.kept := by
  intros; unfold acceptHeader; simp [foldl_kept, foldl_kept1, apply_ite State.kept]

@[simp] theorem startedHeader_kept : ∀ s0, (startedHeader s0).kept = s0.kept := by
  intros
  rename_i s0
  unfold startedHeader; dsimp only
  split
  · split
    · simp
    · have h := ldRead_kept (ldFill s0) 128
      generalize ldRead (ldFill s0) 128 = p at h ⊢
      obtain ⟨s1, o⟩ := p
      cases o with
      | got hdr => dsimp only; split <;> simpa using h
      | _ => simpa using h
  · have h := flashHeader_kept (ldFill s0) (ldFill s0).ld.base (2 ^ 32 - (ldFill s0).ld.base)
    generalize flashHeader (ldFill s0) (ldFill s0).ld.base (2 ^ 32 - (ldFill s0).ld.base) = p at h ⊢
    obtain ⟨s1, o⟩ := p
    cases o <;> simpa using h

@[simp] theorem segVerify_kept : ∀ s seg, (segVerify s seg).kept = s.kept := by
  intros; unfold segVerify; simp [foldl_kept, foldl_kept1, apply_ite State.kept]

@[simp] theorem segRead_kept : ∀ s, (segRead s).kept = s.kept := by
  intros
  rename_i s
  unfold segRead; dsimp only
  split
  · simp
  · have h := ldRead_kept s 32
    generalize ldRead s 32 = p at h ⊢
    obtain ⟨s1, o⟩ := p
    cases o with
    | wait => rfl
    | bad => simpa using h
    | got hd =>
      dsimp only
      split
      · simp
      · have h2 := ldRead_kept s (80 + leNat (slice hd 4 4))
        generalize ldRead s (80 + leNat (slice hd 4 4)) = q at h2 ⊢
        obtain ⟨s2, o2⟩ := q
        cases o2 <;> first | rfl | simpa using h2

@[simp] theorem loaderWrite_kept : ∀ s size addr data note aux, (loaderWrite s size addr data note aux).kept = s.kept := by
  intros; unfold loaderWrite; try simp [foldl_kept, foldl_kept1, apply_ite State.kept]
  all_goals (repeat' split) <;> simp [*, foldl_kept, foldl_kept1, apply_ite State.kept]

@[simp] theorem postWord_kept : ∀ body at_ s, (postWord body at_ s).kept = s.kept := by
  intros; unfold postWord; simp

@[simp] theorem postWords_kept : ∀ s body at_ count, (postWords s body at_ count).kept = s.kept := by
  intros; unfold postWords; simp [foldl_kept, foldl_kept1, apply_ite State.kept]

@[simp] theorem putBlock_kept : ∀ s b words, (putBlock s b words).kept = s.kept := by
  intros; unfold putBlock; simp

@[simp] theorem rfxNote_kept : ∀ s b, (rfxNote s b).kept = s.kept := by
  intros; unfold rfxNote; simp [foldl_kept, foldl_kept1, apply_ite State.kept]

@[simp] theorem frameBlock_kept : ∀ s b words bad, (frameBlock s b words bad).1.kept = s.kept := by
  intros; unfold frameBlock; simp [foldl_kept, foldl_kept1, apply_ite State.kept]
  (repeat' split) <;> simp [*, foldl_kept, foldl_kept1, apply_ite State.kept]

@[simp] theorem framesBlocks_kept : ∀ s body first count bad, (framesBlocks s body first count bad).1.kept = s.kept :=
    by
  intros
  unfold framesBlocks
  exact foldl_kept1 _ (fun _ _ => by split <;> simp) _ _

@[simp] theorem portWrites_kept : ∀ s sec kind i w, (portWrites s sec kind i w).kept = s.kept := by
  intros; unfold portWrites; simp

@[simp] theorem portRecord_kept : ∀ s body sec kind start count, (portRecord s body sec kind start count).kept =
    s.kept := by
  intros; unfold portRecord; simp [foldl_kept, foldl_kept1, apply_ite State.kept]
  (repeat' split) <;> simp [*, foldl_kept, foldl_kept1, apply_ite State.kept]

@[simp] theorem streamDone_kept : ∀ s, (streamDone s).kept = s.kept := by
  intros; unfold streamDone; simp

@[simp] theorem fullDone_kept : ∀ s, (fullDone s).kept = s.kept := by
  intros; unfold fullDone; simp [foldl_kept, foldl_kept1, apply_ite State.kept]

@[simp] theorem partialDone_kept : ∀ s, (partialDone s).kept = s.kept := by
  intros; unfold partialDone; simp [foldl_kept, foldl_kept1, apply_ite State.kept]

@[simp] theorem refetchWords_kept : ∀ s e b, (refetchWords s e b).1.kept = s.kept := by
  intros
  rename_i s e b
  unfold refetchWords; dsimp only
  generalize 80 + (match (flashBytes s e.addr 32).2 with | some h => leNat (slice h 4 4) | none => 0) = n
  split
  · rfl
  · have h := flashBytes_kept s e.addr n
    generalize flashBytes s e.addr n = p at h ⊢
    obtain ⟨s1, o⟩ := p
    cases o with
    | none => exact h
    | some seg =>
      dsimp only
      split
      · split <;> exact h
      · exact h

/-! Slot.lean -/

@[simp] theorem userEvents_kept : ∀ s0 s secs, (userEvents s0 s secs).kept = s.kept := by
  intros; unfold userEvents; simp [foldl_kept, foldl_kept1, apply_ite State.kept]

@[simp] theorem slotStart_kept : ∀ s pins, (slotStart s pins).kept = s.kept := by
  intros; unfold slotStart; simp

@[simp] theorem slotUnits_kept : ∀ s0, (slotUnits s0).kept = s0.kept := by
  intros; unfold slotUnits; simp [foldl_kept, foldl_kept1, apply_ite State.kept]

@[simp] theorem slotCount_kept : ∀ s, (slotCount s).kept = s.kept := by
  intros; unfold slotCount; simp

@[simp] theorem slotEnd_kept : ∀ s, (slotEnd s).kept = s.kept := by
  intros; unfold slotEnd; (try dsimp only)
  (repeat' split) <;> simp [*, foldl_kept, foldl_kept1, apply_ite State.kept]

/-! Frame.lean -/

@[simp] theorem overdraft_kept : ∀ s sec, (overdraft s sec).kept = s.kept := by
  intros; unfold overdraft; simp

@[simp] theorem frameClear_kept : ∀ s, (frameClear s).kept = s.kept := by
  intros; unfold frameClear; simp [foldl_kept, foldl_kept1, apply_ite State.kept]

@[simp] theorem frameSeal_kept : ∀ s early, (frameSeal s early).kept = s.kept := by
  intros; unfold frameSeal; simp [foldl_kept, foldl_kept1, apply_ite State.kept]

@[simp] theorem policySample_kept : ∀ s, (policySample s).kept = s.kept := by
  intros; unfold policySample; simp

@[simp] theorem frameCount_kept : ∀ s frame, (frameCount s frame).kept = s.kept := by
  intros; unfold frameCount; simp

@[simp] theorem frameBegin_kept : ∀ s ovd frame, (frameBegin s ovd frame).kept = s.kept := by
  intros; unfold frameBegin; simp [foldl_kept, foldl_kept1, apply_ite State.kept]

@[simp] theorem forcedBoundary_kept : ∀ s frame, (forcedBoundary s frame).kept = s.kept := by
  intros; unfold forcedBoundary; simp [foldl_kept, foldl_kept1, apply_ite State.kept]

@[simp] theorem orbitUser_kept : ∀ s, (orbitUser s).kept = s.kept := by
  intros; unfold orbitUser; simp [foldl_kept, foldl_kept1, apply_ite State.kept]

@[simp] theorem orbitEarly_kept : ∀ s, (orbitEarly s).kept = s.kept := by
  intros; unfold orbitEarly; simp [foldl_kept, foldl_kept1, apply_ite State.kept]

@[simp] theorem openWindow_kept : ∀ s, (openWindow s).kept = s.kept := by
  intros; unfold openWindow; simp

@[simp] theorem setResetRelease_kept : ∀ s, (setResetRelease s).kept = s.kept := by
  intros; unfold setResetRelease; simp

@[simp] theorem frameZero_kept : ∀ s, (frameZero s).kept = s.kept := by
  intros; unfold frameZero; simp [foldl_kept, foldl_kept1, apply_ite State.kept]

end Sys2Proof.Machine
end

