-- ==== Sys2Proof/Laws/RegsKept.lean ====
section
/-!
SUPPORT. The operations of the machine that leave the register file alone, one lemma for each; the operations that write a
register have no such lemma.
-/

set_option linter.unusedSimpArgs false
set_option linter.unusedTactic false
set_option linter.unreachableTactic false
set_option maxRecDepth 4000

namespace Sys2Proof.Machine
/-- A command that leaves the register file as it is. -/
def ResRegs (s : State) (r : Res) : Prop := ∀ t, r = .next t → t.regs = s.regs
@[simp] theorem resRegs_next (s t : State) : ResRegs s (.next t) ↔ t.regs = s.regs := by simp [ResRegs]
@[simp] theorem resRegs_ok (s t : State) : ResRegs s (ok t) ↔ t.regs = s.regs := by simp [ResRegs]
@[simp] theorem resRegs_okIf (c : Bool) (s a t : State) : ResRegs s (okIf c a t) ↔ (if c then t.regs else a.regs) = s.regs := by
  unfold okIf; split <;> simp
/-- A special register access that does. -/
def OptRegs {α : Type} (s : State) (o : Option (State × α)) : Prop := ∀ p, o = some p → p.1.regs = s.regs
@[simp] theorem optRegs_none {α : Type} (s : State) : OptRegs s (none : Option (State × α)) := by simp [OptRegs]
@[simp] theorem optRegs_some {α : Type} (s : State) (p : State × α) : OptRegs s (some p) ↔ p.1.regs = s.regs := by
  simp [OptRegs]
@[simp] theorem optRegs_map {α β : Type} (s t : State) (o : Option α) (f : α → β) (h : t.regs = s.regs) :
    OptRegs s (o.map (fun w => (t, f w))) := by cases o <;> simp [h]
@[simp] theorem optRegs_okay (s t : State) : OptRegs s (okay t) ↔ t.regs = s.regs := by simp [okay]
/-- A target that does. -/
def ServedRegs (s : State) : Served → Prop
  | .answer t _ _ => t.regs = s.regs
  | .taken t => t.regs = s.regs
  | .waits => True
@[simp] theorem servedRegs_answer (s t : State) (a b : Nat) : ServedRegs s (.answer t a b) ↔ t.regs = s.regs := Iff.rfl
@[simp] theorem servedRegs_taken (s t : State) : ServedRegs s (.taken t) ↔ t.regs = s.regs := Iff.rfl
@[simp] theorem servedRegs_waits (s : State) : ServedRegs s .waits := trivial
@[simp] theorem servedRegs_refuse (s t : State) : ServedRegs s (refuse t) ↔ t.regs = s.regs := Iff.rfl
/-- A RAM port that does. -/
def PortRegs (p : RamPort) : Prop :=
  (∀ s w, (p.look s w).1.regs = s.regs) ∧ (∀ s w, (p.read s w).1.regs = s.regs) ∧ ∀ s w v be, (p.write s w v be).regs = s.regs
theorem fst_ite_regs {α : Type} {c : Prop} [Decidable c] {a b : State × α} {s : State} (ha : a.1.regs = s.regs)
    (hb : b.1.regs = s.regs) : (if c then a else b).1.regs = s.regs := by split <;> assumption
theorem opt_ite_regs {α : Type} {c : Prop} [Decidable c] {a b : Option (State × α)} {s : State} (ha : OptRegs s a)
    (hb : OptRegs s b) : OptRegs s (if c then a else b) := by split <;> assumption
theorem fst_regs {α : Type} {s t : State} {p : State × α} {x : α} (h : p = (t, x)) (hp : p.1.regs = s.regs) : t.regs = s.regs := by
  rw [h] at hp; exact hp
theorem foldl_regs {α : Type} (g : State → α → State) (h : ∀ s x, (g s x).regs = s.regs) (l : List α) (s : State) :
    (l.foldl g s).regs = s.regs := by
  induction l generalizing s with
  | nil => rfl
  | cons x t ih => simp [List.foldl_cons, ih, h]
theorem foldl_regs1 {α β : Type} (g : State × β → α → State × β) (h : ∀ s x, (g s x).1.regs = s.1.regs) (l : List α)
    (s : State × β) : (l.foldl g s).1.regs = s.1.regs := by
  induction l generalizing s with
  | nil => rfl
  | cons x t ih => simp [List.foldl_cons, ih, h]
theorem foldr_regs {α : Type} (g : α → State → State) (h : ∀ x s, (g x s).regs = s.regs) (l : List α) (s : State) :
    (l.foldr g s).regs = s.regs := by
  induction l with
  | nil => rfl
  | cons x t ih => simp [List.foldr_cons, ih, h]
/-! Ops.lean -/

@[simp] theorem State.note_regs : ∀ s o h, (State.note s o h).regs = s.regs := by
  intros; unfold State.note; simp

@[simp] theorem State.raiseEv_regs : ∀ s e, (State.raiseEv s e).regs = s.regs := by
  intros; unfold State.raiseEv; simp

@[simp] theorem State.raiseEach_regs : ∀ s e, (State.raiseEach s e).regs = s.regs := by
  intros; unfold State.raiseEach; simp

@[simp] theorem State.portEnds_regs : ∀ s kind sec served, (State.portEnds s kind sec served).regs = s.regs := by
  intros; unfold State.portEnds; simp [foldl_regs, foldl_regs1, apply_ite State.regs]
  (repeat' split) <;> simp [*, foldl_regs, foldl_regs1, apply_ite State.regs]

@[simp] theorem State.newSlot_regs : ∀ s, (State.newSlot s).regs = s.regs := by
  intros; unfold State.newSlot; simp

@[simp] theorem State.newAonTick_regs : ∀ s, (State.newAonTick s).regs = s.regs := by
  intros; unfold State.newAonTick; try simp [foldl_regs, foldl_regs1, apply_ite State.regs]
  all_goals (repeat' split) <;> simp [*, foldl_regs, foldl_regs1, apply_ite State.regs]

@[simp] theorem State.inLastSlot_regs : ∀ s f, (State.inLastSlot s f).regs = (f { s with cyc := SlotLog.reset }).regs := by
  intros; rfl

@[simp] theorem State.begin_regs : ∀ s, (State.begin s).regs = s.regs := by
  intros; unfold State.begin; try simp [foldl_regs, foldl_regs1, apply_ite State.regs]
  all_goals (repeat' split) <;> simp [*, foldl_regs, foldl_regs1, apply_ite State.regs]

@[simp] theorem vbDown_regs : ∀ s, (vbDown s).regs = s.regs := by
  intros; unfold vbDown; try simp [foldl_regs, foldl_regs1, apply_ite State.regs]
  all_goals (repeat' split) <;> simp [*, foldl_regs, foldl_regs1, apply_ite State.regs]

@[simp] theorem State.setCore_regs : ∀ s i c, (State.setCore s i c).regs = s.regs := by
  intros; unfold State.setCore; simp

@[simp] theorem ok_regs : ∀ s, ResRegs s (ok s) := by
  intros; unfold ok; simp

@[simp] theorem State.draw_regs : ∀ s, (State.draw s).2.regs = s.regs := by
  intros; unfold State.draw; simp

/-! LaneTest.lean -/

@[simp] theorem State.setTest_regs : ∀ s n t, (State.setTest s n t).regs = s.regs := by
  intros; unfold State.setTest; simp

@[simp] theorem injectInto_regs : ∀ s n w len, (injectInto s n w len).1.regs = s.regs := by
  intros; unfold injectInto; simp

@[simp] theorem injRequest_regs : ∀ s n bits, (injRequest s n bits).regs = s.regs := by
  intros; unfold injRequest; simp [foldl_regs, foldl_regs1, apply_ite State.regs]

@[simp] theorem prbsSend_regs : ∀ s n len, (prbsSend s n len).1.regs = s.regs := by
  intros; unfold prbsSend; simp [foldl_regs, foldl_regs1, apply_ite State.regs]
  (repeat' split) <;> simp [*, foldl_regs, foldl_regs1, apply_ite State.regs]

/-! FeLane.lean -/

@[simp] theorem State.setFe_regs : ∀ s n l, (State.setFe s n l).regs = s.regs := by
  intros; unfold State.setFe; simp

@[simp] theorem feBeatEnd_regs : ∀ s, (feBeatEnd s).regs = s.regs := by
  intros; unfold feBeatEnd; simp [foldl_regs, foldl_regs1, apply_ite State.regs]

@[simp] theorem feResume_regs : ∀ s, (feResume s).regs = s.regs := by
  intros; unfold feResume; simp

@[simp] theorem feOut_regs : ∀ s n out rd, (feOut s n out rd).regs = s.regs := by
  intros; unfold feOut; simp

@[simp] theorem feSend_regs : ∀ s n w rd, (feSend s n w rd).regs = s.regs := by
  intros; unfold feSend; simp

/-! Mac.lean -/

@[simp] theorem State.setAcc_regs : ∀ s sec m p v, (State.setAcc s sec m p v).regs = s.regs := by
  intros; unfold State.setAcc; simp

@[simp] theorem State.setPre_regs : ∀ s sec m p v, (State.setPre s sec m p v).regs = s.regs := by
  intros; unfold State.setPre; simp

@[simp] theorem State.setMac_regs : ∀ s sec m b, (State.setMac s sec m b).regs = s.regs := by
  intros; unfold State.setMac; simp

@[simp] theorem macTake_regs : ∀ s sec m kind, ResRegs s (macTake s sec m kind) := by
  intros; unfold macTake; simp [foldl_regs, foldl_regs1, apply_ite State.regs]
  (repeat' split) <;> simp [*, foldl_regs, foldl_regs1, apply_ite State.regs]

@[simp] theorem macSlot_regs : ∀ s0 s key, (macSlot s0 s key).regs = s.regs := by
  intros; unfold macSlot; simp [foldl_regs, foldl_regs1, apply_ite State.regs]
  (repeat' split) <;> simp [*, foldl_regs, foldl_regs1, apply_ite State.regs]

@[simp] theorem accHeld_regs : ∀ s, (accHeld s).regs = s.regs := by
  intros; unfold accHeld; simp

@[simp] theorem macsSlot_regs : ∀ s, (macsSlot s).regs = s.regs := by
  intros; unfold macsSlot; simp [foldl_regs, foldl_regs1, apply_ite State.regs]

@[simp] theorem macsFrameEnd_regs : ∀ s, (macsFrameEnd s).regs = s.regs := by
  intros; unfold macsFrameEnd; simp

@[simp] theorem macsSwapClear_regs : ∀ s sec planes, (macsSwapClear s sec planes).regs = s.regs := by
  intros; unfold macsSwapClear; simp

@[simp] theorem macPortsWait_regs : ∀ s, (macPortsWait s).regs = s.regs := by
  intros; unfold macPortsWait; simp

/-! Rank.lean -/

@[simp] theorem State.setRanker_regs : ∀ s sec r x, (State.setRanker s sec r x).regs = s.regs := by
  intros; unfold State.setRanker; simp

@[simp] theorem rankerSlot_regs : ∀ s0 s key, (rankerSlot s0 s key).regs = s.regs := by
  intros; unfold rankerSlot; simp [foldl_regs, foldl_regs1, apply_ite State.regs]

@[simp] theorem rankersSlot_regs : ∀ s0 s, (rankersSlot s0 s).regs = s.regs := by
  intros; unfold rankersSlot; simp [foldl_regs, foldl_regs1, apply_ite State.regs]

@[simp] theorem rankersFrameEnd_regs : ∀ s, (rankersFrameEnd s).regs = s.regs := by
  intros; unfold rankersFrameEnd; simp

@[simp] theorem rankersSwap_regs : ∀ s sec clear, (rankersSwap s sec clear).regs = s.regs := by
  intros; unfold rankersSwap; simp

/-! Match.lean -/

@[simp] theorem State.setMatcher_regs : ∀ s sec m, (State.setMatcher s sec m).regs = s.regs := by
  intros; unfold State.setMatcher; simp

@[simp] theorem State.setStoreWord_regs : ∀ s sec a w, (State.setStoreWord s sec a w).regs = s.regs := by
  intros; unfold State.setStoreWord; simp

@[simp] theorem State.answer_regs : ∀ s status data, (State.answer s status data).regs = s.regs := by
  intros; unfold State.answer; simp

@[simp] theorem answered_regs : ∀ r, (answered r).regs = r.1.regs := by
  intros; unfold answered; simp

@[simp] theorem mtPortsWait_regs : ∀ s, (mtPortsWait s).regs = s.regs := by
  intros; unfold mtPortsWait; simp [foldl_regs, foldl_regs1, apply_ite State.regs]

@[simp] theorem storeFix_regs : ∀ s sec a w, (storeFix s sec a w).regs = s.regs := by
  intros; unfold storeFix; simp

@[simp] theorem storeFixes_regs : ∀ s, (storeFixes s).regs = s.regs := by
  intros; unfold storeFixes; simp

/-! BankOps.lean -/

@[simp] theorem State.setBank_regs : ∀ s b k, (State.setBank s b k).regs = s.regs := by
  intros; unfold State.setBank; simp

@[simp] theorem State.setBankWord_regs : ∀ s b w c, (State.setBankWord s b w c).regs = s.regs := by
  intros; unfold State.setBankWord; simp [foldl_regs, foldl_regs1, apply_ite State.regs]
  (repeat' split) <;> simp [*, foldl_regs, foldl_regs1, apply_ite State.regs]

@[simp] theorem bankStore_regs : ∀ s b a v, (bankStore s b a v).regs = s.regs := by
  intros; unfold bankStore; simp [foldl_regs, foldl_regs1, apply_ite State.regs]

@[simp] theorem bankWriteHalf_regs : ∀ s b r, (bankWriteHalf s b r).1.regs = s.regs := by
  intros; unfold bankWriteHalf; simp [foldl_regs, foldl_regs1, apply_ite State.regs]

@[simp] theorem restartHalf_regs : ∀ s b w, (restartHalf s b w).regs = s.regs := by
  intros; unfold restartHalf; simp [foldl_regs, foldl_regs1, apply_ite State.regs]
  (repeat' split) <;> simp [*, foldl_regs, foldl_regs1, apply_ite State.regs]

@[simp] theorem ownerWriteHalf_regs : ∀ s b r, (ownerWriteHalf s b r).1.regs = s.regs := by
  intros; unfold ownerWriteHalf; simp [foldl_regs, foldl_regs1, apply_ite State.regs]

@[simp] theorem reqDone_regs : ∀ s b r, (reqDone s b r).regs = s.regs := by
  intros; unfold reqDone; simp [foldl_regs, foldl_regs1, apply_ite State.regs]

@[simp] theorem bankArrive_regs : ∀ s b r, (bankArrive s b r).regs = s.regs := by
  intros; unfold bankArrive; simp [foldl_regs, foldl_regs1, apply_ite State.regs]

@[simp] theorem bankPresent_regs : ∀ s b now, (bankPresent s b now).regs = s.regs := by
  intros; unfold bankPresent; simp

@[simp] theorem bankHandover_regs : ∀ s0 s b, (bankHandover s0 s b).regs = s.regs := by
  intros; unfold bankHandover; simp [foldl_regs, foldl_regs1, apply_ite State.regs]

@[simp] theorem scrubSlot_regs : ∀ s0 s b, (scrubSlot s0 s b).regs = s.regs := by
  intros; unfold scrubSlot; simp [foldl_regs, foldl_regs1, apply_ite State.regs]
  (repeat' split) <;> simp [*, foldl_regs, foldl_regs1, apply_ite State.regs]

@[simp] theorem ringStep_regs : ∀ s, (ringStep s).regs = s.regs := by
  intros; unfold ringStep; simp

@[simp] theorem banksSample_regs : ∀ s, (banksSample s).regs = s.regs := by
  intros; unfold banksSample; simp [foldl_regs, foldl_regs1, apply_ite State.regs]

@[simp] theorem pendingCommit_regs : ∀ s, (pendingCommit s).regs = s.regs := by
  intros; unfold pendingCommit; simp

@[simp] theorem talliesSlot_regs : ∀ s0 s secs, (talliesSlot s0 s secs).regs = s.regs := by
  intros; unfold talliesSlot; simp

/-! Time.lean -/

@[simp] theorem State.setTime_regs : ∀ s t, (State.setTime s t).regs = s.regs := by
  intros; unfold State.setTime; simp

@[simp] theorem schedule_regs : ∀ s cmd arg, (schedule s cmd arg).regs = s.regs := by
  intros; unfold schedule; simp

@[simp] theorem sampleMarker_regs : ∀ s pins, (sampleMarker s pins).regs = s.regs := by
  intros; unfold sampleMarker; simp [foldl_regs, foldl_regs1, apply_ite State.regs]

@[simp] theorem orbPinChange_regs : ∀ old s, (orbPinChange old s).regs = s.regs := by
  intros; unfold orbPinChange; simp [foldl_regs, foldl_regs1, apply_ite State.regs]

@[simp] theorem dropDue_regs : ∀ s cmd, (dropDue s cmd).regs = s.regs := by
  intros; unfold dropDue; simp

@[simp] theorem tickAdvance_regs : ∀ s, (tickAdvance s).regs = s.regs := by
  intros; unfold tickAdvance; simp

@[simp] theorem startForce_regs : ∀ s, (startForce s).regs = s.regs := by
  intros; unfold startForce; simp [foldl_regs, foldl_regs1, apply_ite State.regs]

/-! Sched.lean -/

@[simp] theorem sregReset_regs : ∀ s hit, (sregReset s hit).regs = s.regs := by
  intros; unfold sregReset; simp

@[simp] theorem sregFrameEnd_regs : ∀ s, (sregFrameEnd s).regs = s.regs := by
  intros; unfold sregFrameEnd; simp

@[simp] theorem wregClear_regs : ∀ s hit, (wregClear s hit).regs = s.regs := by
  intros; unfold wregClear; simp

@[simp] theorem savedClear_regs : ∀ s sec, (savedClear s sec).regs = s.regs := by
  intros; unfold savedClear; try simp [foldl_regs, foldl_regs1, apply_ite State.regs]
  all_goals (repeat' split) <;> simp [*, foldl_regs, foldl_regs1, apply_ite State.regs]

@[simp] theorem releaseLinks_regs : ∀ s, (releaseLinks s).regs = s.regs := by
  intros; unfold releaseLinks; simp

@[simp] theorem fabricSlot_regs : ∀ s0 s, (fabricSlot s0 s).regs = s.regs := by
  intros; unfold fabricSlot; simp

/-! Net.lean -/

@[simp] theorem State.setQueue_regs : ∀ s r net port vc q, (State.setQueue s r net port vc q).regs = s.regs := by
  intros; unfold State.setQueue; simp

@[simp] theorem injectFlit_regs : ∀ s r net vc f, (injectFlit s r net vc f).regs = s.regs := by
  intros; unfold injectFlit; simp

@[simp] theorem memArrive_regs : ∀ s r net vc port q, (memArrive s r net vc port q).regs = s.regs := by
  intros; unfold memArrive; simp [foldl_regs, foldl_regs1, apply_ite State.regs]
  (repeat' split) <;> simp [*, foldl_regs, foldl_regs1, apply_ite State.regs]

@[simp] theorem ejectArrive_regs : ∀ s r net vc port f, (ejectArrive s r net vc port f).regs = s.regs := by
  intros; unfold ejectArrive; (try dsimp only)
  (repeat' split) <;> simp [*, foldl_regs, foldl_regs1, apply_ite State.regs]

@[simp] theorem memChosen_regs : ∀ s r net vc, (memChosen s r net vc).regs = s.regs := by
  intros; unfold memChosen; (try dsimp only)
  (repeat' split) <;> simp [*, foldl_regs, foldl_regs1, apply_ite State.regs]

@[simp] theorem enterQueue_regs : ∀ s r net port vc f, (enterQueue s r net port vc f).regs = s.regs := by
  intros; unfold enterQueue; simp [foldl_regs, foldl_regs1, apply_ite State.regs]
  (repeat' split) <;> simp [*, foldl_regs, foldl_regs1, apply_ite State.regs]

@[simp] theorem pullInject_regs : ∀ s r, (pullInject s r).regs = s.regs := by
  intro s r
  refine Eq.trans (b := ((tget (fun _ => []) s.inject r).foldl _ (s, ([] : List (Nat × Nat × Flit)))).1.regs) rfl
    (foldl_regs1 _ (fun _ _ => ?_) _ _)
  (try dsimp only); (repeat' split) <;> simp

@[simp] theorem takeTag_regs : ∀ s id ln, (takeTag s id ln).1.regs = s.regs := by
  intros; unfold takeTag; simp [foldl_regs, foldl_regs1, apply_ite State.regs]
  (repeat' split) <;> simp [*, foldl_regs, foldl_regs1, apply_ite State.regs]

@[simp] theorem issue_regs : ∀ s r note aux, (issue s r note aux).1.regs = s.regs := by
  intros; unfold issue; simp [foldl_regs, foldl_regs1, apply_ite State.regs]

@[simp] theorem dbgFlush_regs : ∀ s, (dbgFlush s).regs = s.regs := by
  intros; unfold dbgFlush; simp [foldl_regs, foldl_regs1, apply_ite State.regs]
  (repeat' split) <;> simp [*, foldl_regs, foldl_regs1, apply_ite State.regs]

@[simp] theorem sendResponse_regs : ∀ s at_ r status data, (sendResponse s at_ r status data).regs = s.regs := by
  intros; unfold sendResponse; simp

@[simp] theorem collectBankRsps_regs : ∀ s r, (collectBankRsps s r).regs = s.regs := by
  intros; unfold collectBankRsps; simp [foldl_regs, foldl_regs1, apply_ite State.regs]

@[simp] theorem State.eject_regs : ∀ s r net vc, (State.eject s r net vc).regs = s.regs := by
  intros; unfold State.eject; simp

@[simp] theorem endOutst_regs : ∀ s o, (endOutst s o).regs = s.regs := by
  intros; unfold endOutst; simp

@[simp] theorem closeOutst_regs : ∀ s o, (closeOutst s o).regs = s.regs := by
  intros; unfold closeOutst; simp

/-! Vault.lean -/

@[simp] theorem answerWrite_regs : ∀ r, ResRegs r.1 (answerWrite r) := by
  intros; unfold answerWrite; simp

@[simp] theorem rngRead_regs : ∀ s peek, (rngRead s peek).1.regs = s.regs := by
  intros; unfold rngRead; simp [foldl_regs, foldl_regs1, apply_ite State.regs]
  (repeat' split) <;> simp [*, foldl_regs, foldl_regs1, apply_ite State.regs]

/-! Memory.lean -/

@[simp] theorem setMemWord_regs : ∀ s k w, (setMemWord s k w).regs = s.regs := by
  intros; unfold setMemWord; simp

@[simp] theorem poisonLine_regs : ∀ s a, (poisonLine s a).regs = s.regs := by
  intros; unfold poisonLine; simp [foldl_regs, foldl_regs1, apply_ite State.regs]

@[simp] theorem putLine_regs : ∀ s a data tag, (putLine s a data tag).regs = s.regs := by
  intros; unfold putLine; simp [foldl_regs, foldl_regs1, apply_ite State.regs]

@[simp] theorem rewriteLine_regs : ∀ s a, (rewriteLine s a).regs = s.regs := by
  intros
  unfold rewriteLine
  exact foldl_regs _ (fun _ _ => by split <;> simp) _ _

@[simp] theorem setRoot_regs : ∀ s w x, (setRoot s w x).regs = s.regs := by
  intros; unfold setRoot; simp

@[simp] theorem writeBackNode_regs : ∀ s a, (writeBackNode s a).regs = s.regs := by
  intros; unfold writeBackNode; simp

@[simp] theorem nodeRoom_regs : ∀ s, (nodeRoom s).regs = s.regs := by
  intros; unfold nodeRoom; simp [foldl_regs, foldl_regs1, apply_ite State.regs]
  (repeat' split) <;> simp [*, foldl_regs, foldl_regs1, apply_ite State.regs]

@[simp] theorem trustNode_regs : ∀ s a node, (trustNode s a node).regs = s.regs := by
  intros; unfold trustNode; simp [foldl_regs, foldl_regs1, apply_ite State.regs]

@[simp] theorem restoreNode_regs : ∀ s a, (restoreNode s a).regs = s.regs := by
  intros; unfold restoreNode; simp [foldl_regs, foldl_regs1, apply_ite State.regs]

@[simp] theorem initLines_regs : ∀ s w, (initLines s w).regs = s.regs := by
  intros; unfold initLines; simp [foldl_regs, foldl_regs1, apply_ite State.regs]

@[simp] theorem initTree_regs : ∀ s w, (initTree s w).regs = s.regs := by
  intros; unfold initTree; simp [foldl_regs, foldl_regs1, apply_ite State.regs]

/-! Trunk.lean -/

@[simp] theorem State.setTk_regs : ∀ s n l, (State.setTk s n l).regs = s.regs := by
  intros; unfold State.setTk; simp

@[simp] theorem queueAck_regs : ∀ s n q nak, (queueAck s n q nak).regs = s.regs := by
  intros; unfold queueAck; simp

@[simp] theorem tkOut_regs : ∀ s n l w len, (tkOut s n l w len).regs = s.regs := by
  intros; unfold tkOut; simp

@[simp] theorem sendCw_regs : ∀ s n l fec blocks, (sendCw s n l fec blocks).regs = s.regs := by
  intros; unfold sendCw; simp

@[simp] theorem periodicAcks_regs : ∀ s n, (periodicAcks s n).regs = s.regs := by
  intros; unfold periodicAcks; simp [foldl_regs, foldl_regs1, apply_ite State.regs]

@[simp] theorem ringIssue_regs : ∀ s n q op size addr data note, (ringIssue s n q op size addr data note).1.regs =
    s.regs := by
  intros; unfold ringIssue; simp

@[simp] theorem ringFetch_regs : ∀ s0 n, (ringFetch s0 n).regs = s0.regs := by
  intros; unfold ringFetch; simp [foldl_regs, foldl_regs1, apply_ite State.regs]
  (repeat' split) <;> simp [*, foldl_regs, foldl_regs1, apply_ite State.regs]

@[simp] theorem ringWrites_regs : ∀ s n, (ringWrites s n).regs = s.regs := by
  intros
  unfold ringWrites
  refine foldl_regs _ (fun _ _ => foldl_regs _ (fun _ _ => ?_) _ _) _ _
  dsimp only
  split
  · rfl
  · split
    · rfl
    · split <;> simp

@[simp] theorem ringReadDone_regs : ∀ s n rd tag line status data, (ringReadDone s n rd tag line status data).regs =
    s.regs := by
  intros; unfold ringReadDone; simp [foldl_regs, foldl_regs1, apply_ite State.regs]

@[simp] theorem resend_regs : ∀ s n q, (resend s n q).regs = s.regs := by
  intros; unfold resend; simp

@[simp] theorem tkResume_regs : ∀ s, (tkResume s).regs = s.regs := by
  intros; unfold tkResume; simp

/-! Teller.lean -/

@[simp] theorem State.setTlr_regs : ∀ s sec t, (State.setTlr s sec t).regs = s.regs := by
  intros; unfold State.setTlr; simp

@[simp] theorem tlrEvent_regs : ∀ s sec, (tlrEvent s sec).regs = s.regs := by
  intros; unfold tlrEvent; simp

@[simp] theorem tlrWithdraw_regs : ∀ s sec, (tlrWithdraw s sec).regs = s.regs := by
  intros; unfold tlrWithdraw; simp [foldl_regs, foldl_regs1, apply_ite State.regs]

@[simp] theorem tlrAbandon_regs : ∀ s sec, (tlrAbandon s sec).regs = s.regs := by
  intros; unfold tlrAbandon; simp

@[simp] theorem tlrLatch_regs : ∀ s sec bits, (tlrLatch s sec bits).regs = s.regs := by
  intros; unfold tlrLatch; simp [foldl_regs, foldl_regs1, apply_ite State.regs]

@[simp] theorem tlrClear_regs : ∀ s sec bits, (tlrClear s sec bits).regs = s.regs := by
  intros; unfold tlrClear; simp [foldl_regs, foldl_regs1, apply_ite State.regs]

@[simp] theorem tlrSetX_regs : ∀ s sec r v, (tlrSetX s sec r v).regs = s.regs := by
  intros; unfold tlrSetX; simp [foldl_regs, foldl_regs1, apply_ite State.regs]

@[simp] theorem tlrSetV_regs : ∀ s sec r v, (tlrSetV s sec r v).regs = s.regs := by
  intros; unfold tlrSetV; simp

@[simp] theorem setRamCycle_regs : ∀ s sec c, (setRamCycle s sec c).regs = s.regs := by
  intros; unfold setRamCycle; simp [foldl_regs, foldl_regs1, apply_ite State.regs]

@[simp] theorem tramPut_regs : ∀ s sec k w, (tramPut s sec k w).regs = s.regs := by
  intros; unfold tramPut; simp

@[simp] theorem tramWrite_regs : ∀ s sec k v, (tramWrite s sec k v).regs = s.regs := by
  intros; unfold tramWrite; simp

@[simp] theorem tramNetWrite_regs : ∀ s sec k v be, (tramNetWrite s sec k v be).regs = s.regs := by
  intros; unfold tramNetWrite; simp

@[simp] theorem tlrNext_regs : ∀ s sec pc, (tlrNext s sec pc).regs = s.regs := by
  intros; unfold tlrNext; simp

@[simp] theorem tlrBankStart_regs : ∀ s sec i kind reg size signed reqs next, (tlrBankStart s sec i kind reg size
    signed reqs next).regs = s.regs := by
  intros; unfold tlrBankStart; simp [foldl_regs, foldl_regs1, apply_ite State.regs]
  (repeat' split) <;> simp [*, foldl_regs, foldl_regs1, apply_ite State.regs]

@[simp] theorem tlrIssue_regs : ∀ s sec op a size v note aux, (tlrIssue s sec op a size v note aux).1.regs = s.regs :=
    by
  intros; unfold tlrIssue; simp

@[simp] theorem pageWrite_regs : ∀ s sec off v, (pageWrite s sec off v).regs = s.regs := by
  intros; unfold pageWrite; simp [foldl_regs, foldl_regs1, apply_ite State.regs]
  (repeat' split) <;> simp [*, foldl_regs, foldl_regs1, apply_ite State.regs]

@[simp] theorem tlrResume_regs : ∀ s sec next, (tlrResume s sec next).regs = s.regs := by
  intros; unfold tlrResume; simp

@[simp] theorem tlrTwaitTake_regs : ∀ s sec rd next, (tlrTwaitTake s sec rd next).regs = s.regs := by
  intros; unfold tlrTwaitTake; simp

@[simp] theorem tlrSettleTake_regs : ∀ s sec rd next, (tlrSettleTake s sec rd next).regs = s.regs := by
  intros; unfold tlrSettleTake; simp

@[simp] theorem wakesSlot_regs : ∀ s0 s secs, (wakesSlot s0 s secs).regs = s.regs := by
  intros; unfold wakesSlot; simp [foldl_regs, foldl_regs1, apply_ite State.regs]

@[simp] theorem tlrLatchAll_regs : ∀ s bits, (tlrLatchAll s bits).regs = s.regs := by
  intros; unfold tlrLatchAll; simp [foldl_regs, foldl_regs1, apply_ite State.regs]

/-! Nap.lean -/

@[simp] theorem State.setNap_regs : ∀ s sec p, (State.setNap s sec p).regs = s.regs := by
  intros; unfold State.setNap; simp

@[simp] theorem napOwn_regs : ∀ s sec ut, (napOwn s sec ut).regs = s.regs := by
  intros; unfold napOwn; simp

@[simp] theorem napAccept_regs : ∀ s sec r vc, (napAccept s sec r vc).1.regs = s.regs := by
  intros; unfold napAccept; simp [foldl_regs, foldl_regs1, apply_ite State.regs]
  (repeat' split) <;> simp [*, foldl_regs, foldl_regs1, apply_ite State.regs]

@[simp] theorem uwAnswer_regs : ∀ s sec q status data, (uwAnswer s sec q status data).regs = s.regs := by
  intros; unfold uwAnswer; simp

@[simp] theorem uwFlush_regs : ∀ s sec, (uwFlush s sec).regs = s.regs := by
  intros; unfold uwFlush; simp [foldl_regs, foldl_regs1, apply_ite State.regs]

@[simp] theorem napSlot_regs : ∀ s sec, (napSlot s sec).regs = s.regs := by
  intros; unfold napSlot; simp

@[simp] theorem napsSlot_regs : ∀ s, (napsSlot s).regs = s.regs := by
  intros; unfold napsSlot; simp [foldl_regs, foldl_regs1, apply_ite State.regs]

@[simp] theorem napsFrame_regs : ∀ s, (napsFrame s).regs = s.regs := by
  intros; unfold napsFrame; simp [foldl_regs, foldl_regs1, apply_ite State.regs]

/-! Reset.lean -/

@[simp] theorem postMove_regs : ∀ bad s g, (postMove bad s g).regs = s.regs := by
  intros; unfold postMove; simp

/-! Evt.lean -/

@[simp] theorem swraise_regs : ∀ s v, (swraise s v).regs = s.regs := by
  intros; unfold swraise; simp [foldl_regs, foldl_regs1, apply_ite State.regs]

/-! Power.lean -/

@[simp] theorem entryFence_regs : ∀ s, (entryFence s).regs = s.regs := by
  intros; unfold entryFence; try simp [foldl_regs, foldl_regs1, apply_ite State.regs]
  all_goals (repeat' split) <;> simp [*, foldl_regs, foldl_regs1, apply_ite State.regs]

@[simp] theorem latchWake_regs : ∀ s bit, (latchWake s bit).regs = s.regs := by
  intros; unfold latchWake; simp

/-! Scrub.lean -/

@[simp] theorem State.setScrub_regs : ∀ s sec x, (State.setScrub s sec x).regs = s.regs := by
  intros; unfold State.setScrub; simp

@[simp] theorem pwrite_regs : ∀ s sec w v, (pwrite s sec w v).regs = s.regs := by
  intros; unfold pwrite; simp

@[simp] theorem keepPolicy_regs : ∀ s sec, (keepPolicy s sec).regs = s.regs := by
  intros; unfold keepPolicy; try simp [foldl_regs, foldl_regs1, apply_ite State.regs]
  all_goals (repeat' split) <;> simp [*, foldl_regs, foldl_regs1, apply_ite State.regs]

@[simp] theorem pstoreWrite_regs : ∀ s sec w v, (pstoreWrite s sec w v).regs = s.regs := by
  intros; unfold pstoreWrite; simp [foldl_regs, foldl_regs1, apply_ite State.regs]
  (repeat' split) <;> simp [*, foldl_regs, foldl_regs1, apply_ite State.regs]

@[simp] theorem sweepCounts_regs : ∀ s sec, (sweepCounts s sec).regs = s.regs := by
  intros; unfold sweepCounts; simp

@[simp] theorem scrubFix_regs : ∀ s sec, (scrubFix s sec).regs = s.regs := by
  intros; unfold scrubFix; simp [foldl_regs, foldl_regs1, apply_ite State.regs]

@[simp] theorem scrubFixes_regs : ∀ s, (scrubFixes s).regs = s.regs := by
  intros; unfold scrubFixes; simp [foldl_regs, foldl_regs1, apply_ite State.regs]

/-! CfgPort.lean -/

@[simp] theorem flStart_regs : ∀ s, (flStart s).regs = s.regs := by
  intros; unfold flStart; try simp [foldl_regs, foldl_regs1, apply_ite State.regs]
  all_goals (repeat' split) <;> simp [*, foldl_regs, foldl_regs1, apply_ite State.regs]

@[simp] theorem orphanWrites_regs : ∀ s, (orphanWrites s).regs = s.regs := by
  intros; unfold orphanWrites; simp

@[simp] theorem consume_regs : ∀ s n, (consume s n).regs = s.regs := by
  intros; unfold consume; simp [foldl_regs, foldl_regs1, apply_ite State.regs]
  (repeat' split) <;> simp [*, foldl_regs, foldl_regs1, apply_ite State.regs]

/-! Steward.lean -/

@[simp] theorem coreTrap_regs : ∀ s i cause int tval, (coreTrap s i cause int tval).regs = s.regs := by
  intros; unfold coreTrap; simp

@[simp] theorem coreTrapFree_regs : ∀ s i cause, (coreTrapFree s i cause).regs = s.regs := by
  intros; unfold coreTrapFree; simp

@[simp] theorem csrRead_regs : ∀ s i n, (csrRead s i n).1.regs = s.regs := by
  intros
  unfold csrRead
  repeat (refine fst_ite_regs ?_ ?_; · rfl)
  rfl

@[simp] theorem writeBack_regs : ∀ s i k line, (writeBack s i k line).regs = s.regs := by
  intros; unfold writeBack; simp [foldl_regs, foldl_regs1, apply_ite State.regs]
  (repeat' split) <;> simp [*, foldl_regs, foldl_regs1, apply_ite State.regs]

@[simp] theorem dEvict_regs : ∀ s i k line wb, (dEvict s i k line wb).regs = s.regs := by
  intros; unfold dEvict; simp [foldl_regs, foldl_regs1, apply_ite State.regs]

@[simp] theorem dInstall_regs : ∀ s i line st key data, (dInstall s i line st key data).regs = s.regs := by
  intros; unfold dInstall; simp [foldl_regs, foldl_regs1, apply_ite State.regs]
  (repeat' split) <;> simp [*, foldl_regs, foldl_regs1, apply_ite State.regs]

@[simp] theorem sendSnp_regs : ∀ s at_ f dst, (sendSnp s at_ f dst).regs = s.regs := by
  intros; unfold sendSnp; simp

@[simp] theorem askHub_regs : ∀ s i kind line addr, (askHub s i kind line addr).regs = s.regs := by
  intros; unfold askHub; (try dsimp only)
  (repeat' split) <;> simp [*, foldl_regs, foldl_regs1, apply_ite State.regs]

@[simp] theorem hubServe_regs : ∀ s line, (hubServe s line).regs = s.regs := by
  intros; unfold hubServe; simp [foldl_regs, foldl_regs1, apply_ite State.regs]
  (repeat' split) <;> simp [*, foldl_regs, foldl_regs1, apply_ite State.regs]

@[simp] theorem snoopAct_regs : ∀ s j f, (snoopAct s j f).regs = s.regs := by
  intros; unfold snoopAct; simp [foldl_regs, foldl_regs1, apply_ite State.regs]
  (repeat' split) <;> simp [*, foldl_regs, foldl_regs1, apply_ite State.regs]

@[simp] theorem sendAcks_regs : ∀ s j, (sendAcks s j).regs = s.regs := by
  intros; unfold sendAcks; simp [foldl_regs, foldl_regs1, apply_ite State.regs]

@[simp] theorem hubGrant_regs : ∀ s h err, (hubGrant s h err).regs = s.regs := by
  intros; unfold hubGrant; simp

@[simp] theorem sendDone_regs : ∀ s i line, (sendDone s i line).regs = s.regs := by
  intros; unfold sendDone; simp

@[simp] theorem cohRead_regs : ∀ s i kind line addr stage, (cohRead s i kind line addr stage).regs = s.regs := by
  intros; unfold cohRead; simp

@[simp] theorem cohOwn_regs : ∀ s i kind line addr, (cohOwn s i kind line addr).regs = s.regs := by
  intros; unfold cohOwn; simp [foldl_regs, foldl_regs1, apply_ite State.regs]
  (repeat' split) <;> simp [*, foldl_regs, foldl_regs1, apply_ite State.regs]

/-! StewardExec.lean -/

@[simp] theorem iFill_regs : ∀ s i line a, (iFill s i line a).regs = s.regs := by
  intros; unfold iFill; simp [foldl_regs, foldl_regs1, apply_ite State.regs]

@[simp] theorem iInstall_regs : ∀ s i line data, (iInstall s i line data).regs = s.regs := by
  intros; unfold iInstall; simp [foldl_regs, foldl_regs1, apply_ite State.regs]
  (repeat' split) <;> simp [*, foldl_regs, foldl_regs1, apply_ite State.regs]

@[simp] theorem fetchHalf_regs : ∀ s i a, (fetchHalf s i a).1.regs = s.regs := by
  intros; unfold fetchHalf; simp [foldl_regs, foldl_regs1, apply_ite State.regs]
  (repeat' split) <;> simp [*, foldl_regs, foldl_regs1, apply_ite State.regs]

@[simp] theorem coreFetch_regs : ∀ s i, (coreFetch s i).1.regs = s.regs := by
  intros
  rename_i s i
  unfold coreFetch; dsimp only
  have h := fetchHalf_regs s i (s.core i).pc
  generalize fetchHalf s i (s.core i).pc = p at h ⊢
  obtain ⟨s1, o⟩ := p
  cases o with
  | none => exact h
  | some lo =>
    have h2 := fetchHalf_regs s1 i (((s.core i).pc + 2) % 2 ^ 64)
    dsimp only at h ⊢
    split
    · exact h
    · generalize fetchHalf s1 i (((s.core i).pc + 2) % 2 ^ 64) = q at h2 ⊢
      obtain ⟨s2, o2⟩ := q
      cases o2 <;> exact h2.trans h

@[simp] theorem coreRetire_regs : ∀ s i npc, (coreRetire s i npc).regs = s.regs := by
  intros; unfold coreRetire; simp

@[simp] theorem coreFinish_regs : ∀ s i npc rd v, (coreFinish s i npc rd v).regs = s.regs := by
  intros; unfold coreFinish; simp

@[simp] theorem coreRow_regs : ∀ s i mine run, (∀ t j l, (run t j l).regs = t.regs) → ResRegs s (coreRow s i mine run)
    := by
  intros
  rename_i s i mine run hr
  have h := coreFetch_regs s i
  unfold coreRow
  split
  · generalize coreFetch s i = p at h ⊢
    obtain ⟨s1, o⟩ := p
    dsimp only at h
    cases o with
    | none => simpa using h
    | some il => dsimp only; split <;> simp [hr, h]
  · simp

@[simp] theorem dWord_regs : ∀ s i k line j, (dWord s i k line j).1.regs = s.regs := by
  intros; unfold dWord; simp [foldl_regs, foldl_regs1, apply_ite State.regs]
  (repeat' split) <;> simp [*, foldl_regs, foldl_regs1, apply_ite State.regs]

@[simp] theorem uncached_regs : ∀ s i op size a data note, (uncached s i op size a data note).regs = s.regs := by
  intros; unfold uncached; simp [foldl_regs, foldl_regs1, apply_ite State.regs]

@[simp] theorem coreLoad_regs : ∀ s i rd a size signed npc, (coreLoad s i rd a size signed npc).regs = s.regs := by
  intros
  rename_i s i rd a size signed npc
  unfold coreLoad; dsimp only
  split
  · simp
  · split
    · split
      · simp
      · rename_i k _
        have h := dWord_regs s i k (a / 64) (a % 64 / 8)
        generalize dWord s i k (a / 64) (a % 64 / 8) = p at h ⊢
        obtain ⟨s1, o, b⟩ := p
        cases o <;> cases b <;> simpa using h
    · split <;> simp

@[simp] theorem ownLine_regs : ∀ s i line a lr, (ownLine s i line a lr).1.regs = s.regs := by
  intros; unfold ownLine; (repeat' split) <;> simp

@[simp] theorem ownWord_regs : ∀ s i line a lr, (ownWord s i line a lr).1.regs = s.regs := by
  intros
  rename_i s i line a lr
  unfold ownWord
  split
  · simp
  · rename_i k _
    have h := dWord_regs s i k line (a % 64 / 8)
    split <;> rename_i e <;> rw [e] at h
    · rename_i s1 v _
      have h2 := ownLine_regs s1 i line a lr
      split <;> rename_i e2 <;> rw [e2] at h2 <;> simp_all
    · simpa using h
    · simpa using h

@[simp] theorem coreStore_regs : ∀ s i a size v npc, (coreStore s i a size v npc).regs = s.regs := by
  intros
  rename_i s i a size v npc
  unfold coreStore; dsimp only
  split
  · simp
  · split
    · split
      · have h := ownLine_regs s i (a / 64) a false
        generalize ownLine s i (a / 64) a false = p at h ⊢
        obtain ⟨s1, o⟩ := p
        cases o <;> simpa using h
      · have h := ownWord_regs s i (a / 64) a false
        generalize ownWord s i (a / 64) a false = p at h ⊢
        obtain ⟨s1, o⟩ := p
        cases o <;> simpa using h
    · split <;> simp

@[simp] theorem coreCsr_regs : ∀ s i f3 rd rs1 num npc, (coreCsr s i f3 rd rs1 num npc).regs = s.regs := by
  intros
  rename_i s i f3 rd rs1 num npc
  have h := csrRead_regs s i num
  unfold coreCsr; dsimp only
  generalize csrRead s i num = p at h ⊢
  obtain ⟨s1, o⟩ := p
  cases o with
  | none => simp
  | some old =>
    dsimp only at h ⊢
    split
    · simp
    · split <;> simpa using h

@[simp] theorem coreMret_regs : ∀ s i, (coreMret s i).regs = s.regs := by
  intros; unfold coreMret; simp

@[simp] theorem coreRun_regs : ∀ s i ins len, (coreRun s i ins len).regs = s.regs := by
  intros; unfold coreRun; simp [foldl_regs, foldl_regs1, apply_ite State.regs]
  (repeat' split) <;> simp [*, foldl_regs, foldl_regs1, apply_ite State.regs]

@[simp] theorem wfiEnd_regs : ∀ s i, (wfiEnd s i).regs = s.regs := by
  intros; unfold wfiEnd; simp

@[simp] theorem cboRun_regs : ∀ s i rs1 type len, (cboRun s i rs1 type len).regs = s.regs := by
  intros; unfold cboRun; simp [foldl_regs, foldl_regs1, apply_ite State.regs]

@[simp] theorem cboRow_regs : ∀ s i kind type, ResRegs s (cboRow s i kind type) := by
  intros
  unfold cboRow
  refine coreRow_regs _ _ _ _ (fun _ _ _ => ?_)
  split
  · simp
  · rfl

@[simp] theorem cachedAmo_regs : ∀ s i a size rd npc f resv lr, (cachedAmo s i a size rd npc f resv lr).regs = s.regs := by
  intros
  rename_i s i a size rd npc f resv lr
  have h := ownWord_regs s i (a / 64) a lr
  unfold cachedAmo
  split <;> rename_i e <;> rw [e] at h <;> simpa using h

@[simp] theorem uncachedAmo_regs : ∀ s i o rd rs2 a size npc, (uncachedAmo s i o rd rs2 a size npc).regs = s.regs :=
    by
  intros; unfold uncachedAmo; simp [foldl_regs, foldl_regs1, apply_ite State.regs]
  (repeat' split) <;> simp [*, foldl_regs, foldl_regs1, apply_ite State.regs]

@[simp] theorem amoRun_regs : ∀ s i ins len, (amoRun s i ins len).regs = s.regs := by
  intros; unfold amoRun; simp [foldl_regs, foldl_regs1, apply_ite State.regs]
  (repeat' split) <;> simp [*, foldl_regs, foldl_regs1, apply_ite State.regs]

@[simp] theorem wbAnswered_regs : ∀ s i o, (wbAnswered s i o).regs = s.regs := by
  intros; unfold wbAnswered; simp [foldl_regs, foldl_regs1, apply_ite State.regs]
  (repeat' split) <;> simp [*, foldl_regs, foldl_regs1, apply_ite State.regs]

@[simp] theorem cohInstall_regs : ∀ s i key status data, (cohInstall s i key status data).regs = s.regs := by
  intros; unfold cohInstall; simp [foldl_regs, foldl_regs1, apply_ite State.regs]
  (repeat' split) <;> simp [*, foldl_regs, foldl_regs1, apply_ite State.regs]

/-! Gpio.lean -/

@[simp] theorem gpioTake_regs : ∀ s0 s, (gpioTake s0 s).regs = s.regs := by
  intros; exact rfl

/-! LinkTest.lean -/

@[simp] theorem rtOpen_regs : ∀ s, (rtOpen s).regs = s.regs := by
  intros; unfold rtOpen; simp [foldl_regs, foldl_regs1, apply_ite State.regs]
  (repeat' split) <;> simp [*, foldl_regs, foldl_regs1, apply_ite State.regs]

@[simp] theorem rtSlot_regs : ∀ s, (rtSlot s).regs = s.regs := by
  intros; unfold rtSlot; simp [foldl_regs, foldl_regs1, apply_ite State.regs]
  (repeat' split) <;> simp [*, foldl_regs, foldl_regs1, apply_ite State.regs]

/-! RegWrite.lean -/

@[simp] theorem portOwner_regs : ∀ s t id kind sec busy, (portOwner s t id kind sec busy).regs = t.regs := by
  intros; unfold portOwner; simp [foldl_regs, foldl_regs1, apply_ite State.regs]

/-! NocServe.lean -/

@[simp] theorem sramRead_regs : ∀ s w, (sramRead s w).1.regs = s.regs := by
  intros; unfold sramRead; (try dsimp only)
  (repeat' split) <;> simp [*, foldl_regs, foldl_regs1, apply_ite State.regs]

@[simp] theorem ramLine_regs : ∀ p s w, PortRegs p → (ramLine p s w).1.regs = s.regs := by
  intros
  rename_i p s w h
  unfold ramLine
  refine foldl_regs1 _ (fun a x => ?_) _ _
  exact h.1 _ _

@[simp] theorem serveRam_regs : ∀ p a s w r, PortRegs p → ServedRegs s (serveRam p a s w r) := by
  intros
  rename_i p a s w r h
  have hl := ramLine_regs p s w h
  have hr := h.2.1 s w
  have hk := h.1 s w
  unfold serveRam
  split
  · simp
  · split
    · dsimp only
      split <;> split <;> first | exact hl | exact hk
    · split
      · simp
      · split
        · exact h.2.2 _ _ _ _
        · dsimp only; split
          · exact (h.2.2 _ _ _ _).trans hr
          · exact hr
    · exact foldl_regs _ (fun _ _ => h.2.2 _ _ _ _) _ _
    · dsimp only
      split
      · simp
      · split
        · simp
        · split
          · exact (h.2.2 _ _ _ _).trans hr
          · exact hr

@[simp] theorem serveTram_regs : ∀ s sec r, ServedRegs s (serveTram s sec r) := by
  intros
  rename_i s sec r
  unfold serveTram; dsimp only
  split
  · simp
  · split
    · simp
    · have h := serveRam_regs (tramPort sec) false (setRamCycle s sec { ramCycle s sec with net := true }) (r.addr % 0x10000 / 8) r
        ⟨fun _ _ => by simp [tramPort], fun _ _ => by simp [tramPort], fun _ _ _ _ => by simp [tramPort]⟩
      have e := setRamCycle_regs s sec { ramCycle s sec with net := true }
      generalize serveRam _ _ _ _ _ = v at h ⊢
      cases v <;> simp_all [ServedRegs]

@[simp] theorem serveBank_regs : ∀ s b r, ServedRegs s (serveBank s b r) := by
  intros; unfold serveBank; simp [foldl_regs, foldl_regs1, apply_ite State.regs]
  (repeat' split) <;> simp [*, foldl_regs, foldl_regs1, apply_ite State.regs]

/-! Debug.lean -/

@[simp] theorem i2cStop_regs : ∀ s, (i2cStop s).regs = s.regs := by
  intros; unfold i2cStop; simp

/-! Loader.lean -/

@[simp] theorem ldSkip_regs : ∀ s n, (ldSkip s n).regs = s.regs := by
  intros; unfold ldSkip; simp

@[simp] theorem openStream_regs : ∀ s hdr key, (openStream s hdr key).regs = s.regs := by
  intros; unfold openStream; simp

@[simp] theorem loaderWrite_regs : ∀ s size addr data note aux, (loaderWrite s size addr data note aux).regs = s.regs := by
  intros; unfold loaderWrite; try simp [foldl_regs, foldl_regs1, apply_ite State.regs]
  all_goals (repeat' split) <;> simp [*, foldl_regs, foldl_regs1, apply_ite State.regs]

@[simp] theorem postWord_regs : ∀ body at_ s, (postWord body at_ s).regs = s.regs := by
  intros; unfold postWord; simp

@[simp] theorem postWords_regs : ∀ s body at_ count, (postWords s body at_ count).regs = s.regs := by
  intros; unfold postWords; simp [foldl_regs, foldl_regs1, apply_ite State.regs]

@[simp] theorem putBlock_regs : ∀ s b words, (putBlock s b words).regs = s.regs := by
  intros; unfold putBlock; simp

@[simp] theorem portWrites_regs : ∀ s sec kind i w, (portWrites s sec kind i w).regs = s.regs := by
  intros; unfold portWrites; simp

@[simp] theorem portRecord_regs : ∀ s body sec kind start count, (portRecord s body sec kind start count).regs =
    s.regs := by
  intros; unfold portRecord; simp [foldl_regs, foldl_regs1, apply_ite State.regs]
  (repeat' split) <;> simp [*, foldl_regs, foldl_regs1, apply_ite State.regs]

/-! Slot.lean -/

@[simp] theorem userEvents_regs : ∀ s0 s secs, (userEvents s0 s secs).regs = s.regs := by
  intros; unfold userEvents; simp [foldl_regs, foldl_regs1, apply_ite State.regs]

@[simp] theorem slotCount_regs : ∀ s, (slotCount s).regs = s.regs := by
  intros; unfold slotCount; simp

/-! Frame.lean -/

@[simp] theorem policySample_regs : ∀ s, (policySample s).regs = s.regs := by
  intros; unfold policySample; simp

end Sys2Proof.Machine
end

