-- ==== Sys2Proof/Laws/TimeKept.lean ====
section
/-!
SUPPORT. The operations of the machine that leave machine time alone, one lemma for each; the operations that change it
have no such lemma.
-/

set_option linter.unusedSimpArgs false
set_option linter.unusedTactic false
set_option linter.unreachableTactic false
set_option maxRecDepth 4000

namespace Sys2Proof.Machine
/-- A command that leaves machine time as it is. -/
def ResTime (s : State) (r : Res) : Prop := ∀ t, r = .next t → t.time = s.time
@[simp] theorem resTime_next (s t : State) : ResTime s (.next t) ↔ t.time = s.time := by simp [ResTime]
@[simp] theorem resTime_ok (s t : State) : ResTime s (ok t) ↔ t.time = s.time := by simp [ResTime]
@[simp] theorem resTime_okIf (c : Bool) (s a t : State) : ResTime s (okIf c a t) ↔ (if c then t.time else a.time) = s.time := by
  unfold okIf; split <;> simp
/-- The same of a special register access. -/
def OptTime {α : Type} (s : State) (o : Option (State × α)) : Prop := ∀ p, o = some p → p.1.time = s.time
@[simp] theorem optTime_none {α : Type} (s : State) : OptTime s (none : Option (State × α)) := by simp [OptTime]
@[simp] theorem optTime_some {α : Type} (s : State) (p : State × α) : OptTime s (some p) ↔ p.1.time = s.time := by
  simp [OptTime]
@[simp] theorem optTime_map {α β : Type} (s t : State) (o : Option α) (f : α → β) (h : t.time = s.time) :
    OptTime s (o.map (fun w => (t, f w))) := by cases o <;> simp [h]
@[simp] theorem optTime_okay (s t : State) : OptTime s (okay t) ↔ t.time = s.time := by simp [okay]
/-- The same of a target that serves a request. -/
def ServedTime (s : State) : Served → Prop
  | .answer t _ _ => t.time = s.time
  | .taken t => t.time = s.time
  | .waits => True
@[simp] theorem servedTime_answer (s t : State) (a b : Nat) : ServedTime s (.answer t a b) ↔ t.time = s.time := Iff.rfl
@[simp] theorem servedTime_taken (s t : State) : ServedTime s (.taken t) ↔ t.time = s.time := Iff.rfl
@[simp] theorem servedTime_waits (s : State) : ServedTime s .waits := trivial
@[simp] theorem servedTime_refuse (s t : State) : ServedTime s (refuse t) ↔ t.time = s.time := Iff.rfl
/-- A RAM port that leaves them as they are. -/
def PortTime (p : RamPort) : Prop :=
  (∀ s w, (p.look s w).1.time = s.time) ∧ (∀ s w, (p.read s w).1.time = s.time) ∧ ∀ s w v be, (p.write s w v be).time = s.time
theorem fst_ite_time {α : Type} {c : Prop} [Decidable c] {a b : State × α} {s : State} (ha : a.1.time = s.time)
    (hb : b.1.time = s.time) : (if c then a else b).1.time = s.time := by split <;> assumption
theorem opt_ite_time {α : Type} {c : Prop} [Decidable c] {a b : Option (State × α)} {s : State} (ha : OptTime s a)
    (hb : OptTime s b) : OptTime s (if c then a else b) := by split <;> assumption
theorem fst_time {α : Type} {s t : State} {p : State × α} {x : α} (h : p = (t, x)) (hp : p.1.time = s.time) : t.time = s.time := by
  rw [h] at hp; exact hp
theorem foldl_time {α : Type} (g : State → α → State) (h : ∀ s x, (g s x).time = s.time) (l : List α) (s : State) :
    (l.foldl g s).time = s.time := by
  induction l generalizing s with
  | nil => rfl
  | cons x t ih => simp [List.foldl_cons, ih, h]
theorem foldl_time1 {α β : Type} (g : State × β → α → State × β) (h : ∀ s x, (g s x).1.time = s.1.time) (l : List α)
    (s : State × β) : (l.foldl g s).1.time = s.1.time := by
  induction l generalizing s with
  | nil => rfl
  | cons x t ih => simp [List.foldl_cons, ih, h]
theorem foldr_time {α : Type} (g : α → State → State) (h : ∀ x s, (g x s).time = s.time) (l : List α) (s : State) :
    (l.foldr g s).time = s.time := by
  induction l with
  | nil => rfl
  | cons x t ih => simp [List.foldr_cons, ih, h]
/-! Ops.lean -/

@[simp] theorem State.setReg_time : ∀ s o v, (State.setReg s o v).time = s.time := by
  intros; unfold State.setReg; simp

@[simp] theorem State.setF_time : ∀ s f v, (State.setF s f v).time = s.time := by
  intros; unfold State.setF; simp

@[simp] theorem State.note_time : ∀ s o h, (State.note s o h).time = s.time := by
  intros; unfold State.note; simp

@[simp] theorem State.raiseF_time : ∀ s f, (State.raiseF s f).time = s.time := by
  intros; unfold State.raiseF; simp

@[simp] theorem State.clearF_time : ∀ s f, (State.clearF s f).time = s.time := by
  intros; unfold State.clearF; simp

@[simp] theorem State.putF_time : ∀ s f b, (State.putF s f b).time = s.time := by
  intros; unfold State.putF; simp

@[simp] theorem State.addF_time : ∀ s f n, (State.addF s f n).time = s.time := by
  intros; unfold State.addF; simp

@[simp] theorem State.incF_time : ∀ s f, (State.incF s f).time = s.time := by
  intros; unfold State.incF; simp

@[simp] theorem State.capture_time : ∀ s f vals, (State.capture s f vals).time = s.time := by
  intros; unfold State.capture; simp [foldl_time, foldl_time1, apply_ite State.time]

@[simp] theorem State.w1c_time : ∀ s o m, (State.w1c s o m).time = s.time := by
  intros; unfold State.w1c; simp [foldl_time, foldl_time1, apply_ite State.time]

@[simp] theorem State.rc_time : ∀ s o m, (State.rc s o m).time = s.time := by
  intros; unfold State.rc; simp [foldl_time, foldl_time1, apply_ite State.time]

@[simp] theorem State.raiseEv_time : ∀ s e, (State.raiseEv s e).time = s.time := by
  intros; unfold State.raiseEv; simp

@[simp] theorem State.raiseEach_time : ∀ s e, (State.raiseEach s e).time = s.time := by
  intros; unfold State.raiseEach; simp

@[simp] theorem State.portEnds_time : ∀ s kind sec served, (State.portEnds s kind sec served).time = s.time := by
  intros; unfold State.portEnds; simp [foldl_time, foldl_time1, apply_ite State.time]
  (repeat' split) <;> simp [*, foldl_time, foldl_time1, apply_ite State.time]

@[simp] theorem State.newSlot_time : ∀ s, (State.newSlot s).time = s.time := by
  intros; unfold State.newSlot; simp

@[simp] theorem State.newAonTick_time : ∀ s, (State.newAonTick s).time = s.time := by
  intros; unfold State.newAonTick; try simp [foldl_time, foldl_time1, apply_ite State.time]
  all_goals (repeat' split) <;> simp [*, foldl_time, foldl_time1, apply_ite State.time]

@[simp] theorem State.inLastSlot_time : ∀ s f, (State.inLastSlot s f).time = (f { s with cyc := SlotLog.reset }).time := by
  intros; rfl

@[simp] theorem State.began_time : ∀ s, (State.began s).time = s.time := by
  intros; unfold State.began; try simp [foldl_time, foldl_time1, apply_ite State.time]
  all_goals (repeat' split) <;> simp [*, foldl_time, foldl_time1, apply_ite State.time]

@[simp] theorem State.begin_time : ∀ s, (State.begin s).time = s.time := by
  intros; unfold State.begin; try simp [foldl_time, foldl_time1, apply_ite State.time]
  all_goals (repeat' split) <;> simp [*, foldl_time, foldl_time1, apply_ite State.time]

@[simp] theorem State.keepOld_time : ∀ s o, (State.keepOld s o).time = s.time := by
  intros; unfold State.keepOld; try simp [foldl_time, foldl_time1, apply_ite State.time]
  all_goals (repeat' split) <;> simp [*, foldl_time, foldl_time1, apply_ite State.time]

@[simp] theorem State.laneTo_time : ∀ s n st, (State.laneTo s n st).time = s.time := by
  intros; unfold State.laneTo; simp

@[simp] theorem State.untimedRegs_time : ∀ s n u, (State.untimedRegs s n u).time = s.time := by
  intros; unfold State.untimedRegs; try simp [foldl_time, foldl_time1, apply_ite State.time]
  all_goals (repeat' split) <;> simp [*, foldl_time, foldl_time1, apply_ite State.time]

@[simp] theorem State.untimed_time : ∀ s n, (State.untimed s n).time = s.time := by
  intros; unfold State.untimed; simp [foldl_time, foldl_time1, apply_ite State.time]
  (repeat' split) <;> simp [*, foldl_time, foldl_time1, apply_ite State.time]

@[simp] theorem vbDown_time : ∀ s, (vbDown s).time = s.time := by
  intros; unfold vbDown; try simp [foldl_time, foldl_time1, apply_ite State.time]
  all_goals (repeat' split) <;> simp [*, foldl_time, foldl_time1, apply_ite State.time]

@[simp] theorem hotFollows_time : ∀ s c, (hotFollows s c).time = s.time := by
  intros; unfold hotFollows; simp

@[simp] theorem State.setCore_time : ∀ s i c, (State.setCore s i c).time = s.time := by
  intros; unfold State.setCore; simp

@[simp] theorem ok_time : ∀ s, ResTime s (ok s) := by
  intros; unfold ok; simp

@[simp] theorem State.setPlaneState_time : ∀ s sec p v, (State.setPlaneState s sec p v).time = s.time := by
  intros; unfold State.setPlaneState; simp

@[simp] theorem State.taintSector_time : ∀ s sec, (State.taintSector s sec).time = s.time := by
  intros; unfold State.taintSector; simp [foldl_time, foldl_time1, apply_ite State.time]

@[simp] theorem State.draw_time : ∀ s, (State.draw s).2.time = s.time := by
  intros; unfold State.draw; simp

/-! LaneTest.lean -/

@[simp] theorem State.setTest_time : ∀ s n t, (State.setTest s n t).time = s.time := by
  intros; unfold State.setTest; simp

@[simp] theorem injectInto_time : ∀ s n w len, (injectInto s n w len).1.time = s.time := by
  intros; unfold injectInto; simp

@[simp] theorem injRequest_time : ∀ s n bits, (injRequest s n bits).time = s.time := by
  intros; unfold injRequest; simp [foldl_time, foldl_time1, apply_ite State.time]

@[simp] theorem prbsSend_time : ∀ s n len, (prbsSend s n len).1.time = s.time := by
  intros; unfold prbsSend; simp [foldl_time, foldl_time1, apply_ite State.time]
  (repeat' split) <;> simp [*, foldl_time, foldl_time1, apply_ite State.time]

@[simp] theorem prbsReceive_time : ∀ s n w len, (prbsReceive s n w len).time = s.time := by
  intros; unfold prbsReceive; simp [foldl_time, foldl_time1, apply_ite State.time]
  (repeat' split) <;> simp [*, foldl_time, foldl_time1, apply_ite State.time]

@[simp] theorem prbsErrRead_time : ∀ s n, (prbsErrRead s n).1.time = s.time := by
  intros; unfold prbsErrRead; simp

/-! FeLane.lean -/

@[simp] theorem State.setFe_time : ∀ s n l, (State.setFe s n l).time = s.time := by
  intros; unfold State.setFe; simp

@[simp] theorem feRateCheck_time : ∀ s q, (feRateCheck s q).time = s.time := by
  intros; unfold feRateCheck; simp [foldl_time, foldl_time1, apply_ite State.time]

@[simp] theorem feClear_time : ∀ s n, (feClear s n).time = s.time := by
  intros; unfold feClear; simp

@[simp] theorem lqModeWrite_time : ∀ s q v, (lqModeWrite s q v).time = s.time := by
  intros; unfold lqModeWrite; simp [foldl_time, foldl_time1, apply_ite State.time]

@[simp] theorem feAlign_time : ∀ s n w cap done c rd, (feAlign s n w cap done c rd).time = s.time := by
  intros; unfold feAlign; simp

@[simp] theorem feSymlock_time : ∀ s n, (feSymlock s n).time = s.time := by
  intros; unfold feSymlock; simp

@[simp] theorem feLose_time : ∀ s n, (feLose s n).time = s.time := by
  intros; unfold feLose; simp

@[simp] theorem feTake_time : ∀ s n w put, (feTake s n w put).time = s.time := by
  intros; unfold feTake; simp [foldl_time, foldl_time1, apply_ite State.time]

@[simp] theorem feDiscards_time : ∀ s, (feDiscards s).time = s.time := by
  intros; unfold feDiscards; simp [foldl_time, foldl_time1, apply_ite State.time]

@[simp] theorem feBeatEnd_time : ∀ s, (feBeatEnd s).time = s.time := by
  intros; unfold feBeatEnd; simp [foldl_time, foldl_time1, apply_ite State.time]

@[simp] theorem feResume_time : ∀ s, (feResume s).time = s.time := by
  intros; unfold feResume; simp

@[simp] theorem feOut_time : ∀ s n out rd, (feOut s n out rd).time = s.time := by
  intros; unfold feOut; simp

@[simp] theorem feSend_time : ∀ s n w rd, (feSend s n w rd).time = s.time := by
  intros; unfold feSend; simp

@[simp] theorem feCtrlWrite_time : ∀ s n v, (feCtrlWrite s n v).time = s.time := by
  intros; unfold feCtrlWrite; simp [foldl_time, foldl_time1, apply_ite State.time]

/-! Mac.lean -/

@[simp] theorem State.setAcc_time : ∀ s sec m p v, (State.setAcc s sec m p v).time = s.time := by
  intros; unfold State.setAcc; simp

@[simp] theorem State.setPre_time : ∀ s sec m p v, (State.setPre s sec m p v).time = s.time := by
  intros; unfold State.setPre; simp

@[simp] theorem State.setMac_time : ∀ s sec m b, (State.setMac s sec m b).time = s.time := by
  intros; unfold State.setMac; simp

@[simp] theorem macTake_time : ∀ s sec m kind, ResTime s (macTake s sec m kind) := by
  intros; unfold macTake; simp [foldl_time, foldl_time1, apply_ite State.time]
  (repeat' split) <;> simp [*, foldl_time, foldl_time1, apply_ite State.time]

@[simp] theorem macSlot_time : ∀ s0 s key, (macSlot s0 s key).time = s.time := by
  intros; unfold macSlot; simp [foldl_time, foldl_time1, apply_ite State.time]
  (repeat' split) <;> simp [*, foldl_time, foldl_time1, apply_ite State.time]

@[simp] theorem accHeld_time : ∀ s, (accHeld s).time = s.time := by
  intros; unfold accHeld; simp

@[simp] theorem macsSlot_time : ∀ s, (macsSlot s).time = s.time := by
  intros; unfold macsSlot; simp [foldl_time, foldl_time1, apply_ite State.time]

@[simp] theorem macsFrameEnd_time : ∀ s, (macsFrameEnd s).time = s.time := by
  intros; unfold macsFrameEnd; simp

@[simp] theorem macsSwapClear_time : ∀ s sec planes, (macsSwapClear s sec planes).time = s.time := by
  intros; unfold macsSwapClear; simp

@[simp] theorem macSelWrite_time : ∀ s sec v, (macSelWrite s sec v).time = s.time := by
  intros; unfold macSelWrite; simp [foldl_time, foldl_time1, apply_ite State.time]

@[simp] theorem macPortDo_time : ∀ s sec, (macPortDo s sec).time = s.time := by
  intros; unfold macPortDo; simp [foldl_time, foldl_time1, apply_ite State.time]

@[simp] theorem macPortsDone_time : ∀ s, (macPortsDone s).time = s.time := by
  intros; unfold macPortsDone; simp [foldl_time, foldl_time1, apply_ite State.time]

@[simp] theorem macPortsWait_time : ∀ s, (macPortsWait s).time = s.time := by
  intros; unfold macPortsWait; simp

/-! Rank.lean -/

@[simp] theorem State.setRanker_time : ∀ s sec r x, (State.setRanker s sec r x).time = s.time := by
  intros; unfold State.setRanker; simp

@[simp] theorem rankRefuse_time : ∀ s sec r inSide, (rankRefuse s sec r inSide).time = s.time := by
  intros; unfold rankRefuse; simp

@[simp] theorem rankerSlot_time : ∀ s0 s key, (rankerSlot s0 s key).time = s.time := by
  intros; unfold rankerSlot; simp [foldl_time, foldl_time1, apply_ite State.time]

@[simp] theorem rankersSlot_time : ∀ s0 s, (rankersSlot s0 s).time = s.time := by
  intros; unfold rankersSlot; simp [foldl_time, foldl_time1, apply_ite State.time]

@[simp] theorem rankersFrameEnd_time : ∀ s, (rankersFrameEnd s).time = s.time := by
  intros; unfold rankersFrameEnd; simp

@[simp] theorem rankersSwap_time : ∀ s sec clear, (rankersSwap s sec clear).time = s.time := by
  intros; unfold rankersSwap; simp

/-! Match.lean -/

@[simp] theorem State.setMatcher_time : ∀ s sec m, (State.setMatcher s sec m).time = s.time := by
  intros; unfold State.setMatcher; simp

@[simp] theorem State.setStoreWord_time : ∀ s sec a w, (State.setStoreWord s sec a w).time = s.time := by
  intros; unfold State.setStoreWord; simp

@[simp] theorem matcherSlot_time : ∀ s0 s sec, (matcherSlot s0 s sec).time = s.time := by
  intros; unfold matcherSlot; simp [foldl_time, foldl_time1, apply_ite State.time]
  (repeat' split) <;> simp [*, foldl_time, foldl_time1, apply_ite State.time]

@[simp] theorem matcherClear_time : ∀ s sec, (matcherClear s sec).time = s.time := by
  intros; unfold matcherClear; simp [foldl_time, foldl_time1, apply_ite State.time]

@[simp] theorem matchersFrameEnd_time : ∀ s, (matchersFrameEnd s).time = s.time := by
  intros; unfold matchersFrameEnd; simp [foldl_time, foldl_time1, apply_ite State.time]

@[simp] theorem matchersSlot_time : ∀ s0 s, (matchersSlot s0 s).time = s.time := by
  intros; unfold matchersSlot; simp [foldl_time, foldl_time1, apply_ite State.time]

@[simp] theorem portReject_time : ∀ s sec, (portReject s sec).time = s.time := by
  intros; unfold portReject; simp

@[simp] theorem portStart_time : ∀ s sec, (portStart s sec).time = s.time := by
  intros; unfold portStart; simp

@[simp] theorem mtSelWrite_time : ∀ s sec v, (mtSelWrite s sec v).1.time = s.time := by
  intros; unfold mtSelWrite; simp [foldl_time, foldl_time1, apply_ite State.time]
  (repeat' split) <;> simp [*, foldl_time, foldl_time1, apply_ite State.time]

@[simp] theorem mtDhiWrite_time : ∀ s sec v, (mtDhiWrite s sec v).1.time = s.time := by
  intros; unfold mtDhiWrite; simp [foldl_time, foldl_time1, apply_ite State.time]
  (repeat' split) <;> simp [*, foldl_time, foldl_time1, apply_ite State.time]

@[simp] theorem State.answer_time : ∀ s status data, (State.answer s status data).time = s.time := by
  intros; unfold State.answer; simp

@[simp] theorem answered_time : ∀ r, (answered r).time = r.1.time := by
  intros; unfold answered; simp

@[simp] theorem mtPortDo_time : ∀ s sec, (mtPortDo s sec).time = s.time := by
  intros; unfold mtPortDo; simp [foldl_time, foldl_time1, apply_ite State.time]
  (repeat' split) <;> simp [*, foldl_time, foldl_time1, apply_ite State.time]

@[simp] theorem mtPortsDone_time : ∀ s, (mtPortsDone s).time = s.time := by
  intros; unfold mtPortsDone; simp [foldl_time, foldl_time1, apply_ite State.time]

@[simp] theorem portGiveUp_time : ∀ s sec, (portGiveUp s sec).time = s.time := by
  intros; unfold portGiveUp; simp

@[simp] theorem mtPortAbandon_time : ∀ s sec, (mtPortAbandon s sec).time = s.time := by
  intros; unfold mtPortAbandon; simp [foldl_time, foldl_time1, apply_ite State.time]

@[simp] theorem mtPortsWait_time : ∀ s, (mtPortsWait s).time = s.time := by
  intros; unfold mtPortsWait; simp [foldl_time, foldl_time1, apply_ite State.time]

@[simp] theorem storeFix_time : ∀ s sec a w, (storeFix s sec a w).time = s.time := by
  intros; unfold storeFix; simp

@[simp] theorem storeFixes_time : ∀ s, (storeFixes s).time = s.time := by
  intros; unfold storeFixes; simp

/-! BankOps.lean -/

@[simp] theorem State.setBank_time : ∀ s b k, (State.setBank s b k).time = s.time := by
  intros; unfold State.setBank; simp

@[simp] theorem State.setBankWord_time : ∀ s b w c, (State.setBankWord s b w c).time = s.time := by
  intros; unfold State.setBankWord; simp [foldl_time, foldl_time1, apply_ite State.time]
  (repeat' split) <;> simp [*, foldl_time, foldl_time1, apply_ite State.time]

@[simp] theorem bankCorr_time : ∀ s b, (bankCorr s b).time = s.time := by
  intros; unfold bankCorr; simp

@[simp] theorem bankUnc_time : ∀ s b w, (bankUnc s b w).time = s.time := by
  intros; unfold bankUnc; simp

@[simp] theorem arrayRead_time : ∀ s b w, (arrayRead s b w).1.time = s.time := by
  intros; unfold arrayRead; (try dsimp only)
  (repeat' split) <;> simp [*, foldl_time, foldl_time1, apply_ite State.time]

@[simp] theorem bankStore_time : ∀ s b a v, (bankStore s b a v).time = s.time := by
  intros; unfold bankStore; simp [foldl_time, foldl_time1, apply_ite State.time]

@[simp] theorem bankRange_time : ∀ s b r, (bankRange s b r).1.time = s.time := by
  intros; unfold bankRange; simp [foldl_time, foldl_time1, apply_ite State.time]

@[simp] theorem bankWordOp_time : ∀ s b r, (bankWordOp s b r).1.time = s.time := by
  intros
  rename_i s b r
  unfold bankWordOp
  split
  · simp
  · split
    · simp
    · have h := arrayRead_time s b (readWord s b (r.word + r.step))
      generalize arrayRead s b (readWord s b (r.word + r.step)) = p at h ⊢
      obtain ⟨s1, o⟩ := p
      cases o <;> simpa using h

@[simp] theorem bankReadHalf_time : ∀ s b r, (bankReadHalf s b r).1.time = s.time := by
  intros
  rename_i s b r
  unfold bankReadHalf
  split
  · simp
  · have h := arrayRead_time s b (readWord s b r.word)
    generalize arrayRead s b (readWord s b r.word) = p at h ⊢
    obtain ⟨s1, o⟩ := p
    cases o <;> simpa using h

@[simp] theorem bankWriteHalf_time : ∀ s b r, (bankWriteHalf s b r).1.time = s.time := by
  intros; unfold bankWriteHalf; simp [foldl_time, foldl_time1, apply_ite State.time]

@[simp] theorem restartHalf_time : ∀ s b w, (restartHalf s b w).time = s.time := by
  intros; unfold restartHalf; simp [foldl_time, foldl_time1, apply_ite State.time]
  (repeat' split) <;> simp [*, foldl_time, foldl_time1, apply_ite State.time]

@[simp] theorem ownerWordOp_time : ∀ s b r, (ownerWordOp s b r).1.time = s.time := by
  intros; unfold ownerWordOp; simp [foldl_time, foldl_time1, apply_ite State.time]

@[simp] theorem ownerWriteHalf_time : ∀ s b r, (ownerWriteHalf s b r).1.time = s.time := by
  intros; unfold ownerWriteHalf; simp [foldl_time, foldl_time1, apply_ite State.time]

@[simp] theorem reqDone_time : ∀ s b r, (reqDone s b r).time = s.time := by
  intros; unfold reqDone; simp [foldl_time, foldl_time1, apply_ite State.time]

@[simp] theorem fabricOwnerDo_time : ∀ s b r, (fabricOwnerDo s b r).time = s.time := by
  intros; unfold fabricOwnerDo; simp [foldl_time, foldl_time1, apply_ite State.time]

@[simp] theorem fabricTake_time : ∀ s sec i op, ResTime s (fabricTake s sec i op) := by
  intros; unfold fabricTake; simp [foldl_time, foldl_time1, apply_ite State.time]
  (repeat' split) <;> simp [*, foldl_time, foldl_time1, apply_ite State.time]

@[simp] theorem bankArrive_time : ∀ s b r, (bankArrive s b r).time = s.time := by
  intros; unfold bankArrive; simp [foldl_time, foldl_time1, apply_ite State.time]

@[simp] theorem portOwnerDo_time : ∀ s b r, (portOwnerDo s b r).time = s.time := by
  intros; unfold portOwnerDo; simp [foldl_time, foldl_time1, apply_ite State.time]

@[simp] theorem ownerCycle_time : ∀ s b, (ownerCycle s b).time = s.time := by
  intros; unfold ownerCycle; simp [foldl_time, foldl_time1, apply_ite State.time]
  (repeat' split) <;> simp [*, foldl_time, foldl_time1, apply_ite State.time]

@[simp] theorem nonownerServe_time : ∀ s b c r, (nonownerServe s b c r).time = s.time := by
  intros; unfold nonownerServe; simp [foldl_time, foldl_time1, apply_ite State.time]

@[simp] theorem bownWrite_time : ∀ s sec i v, (bownWrite s sec i v).time = s.time := by
  intros; unfold bownWrite; simp [foldl_time, foldl_time1, apply_ite State.time]

@[simp] theorem bcfgWrite_time : ∀ s sec i v, (bcfgWrite s sec i v).time = s.time := by
  intros; unfold bcfgWrite; simp [foldl_time, foldl_time1, apply_ite State.time]

@[simp] theorem bankConflicts_time : ∀ s b k own, (bankConflicts s b k own).time = s.time := by
  intros; unfold bankConflicts; simp

@[simp] theorem bankPresent_time : ∀ s b now, (bankPresent s b now).time = s.time := by
  intros; unfold bankPresent; simp

@[simp] theorem bankHandover_time : ∀ s0 s b, (bankHandover s0 s b).time = s.time := by
  intros; unfold bankHandover; simp [foldl_time, foldl_time1, apply_ite State.time]

@[simp] theorem scrubSlot_time : ∀ s0 s b, (scrubSlot s0 s b).time = s.time := by
  intros; unfold scrubSlot; simp [foldl_time, foldl_time1, apply_ite State.time]
  (repeat' split) <;> simp [*, foldl_time, foldl_time1, apply_ite State.time]

@[simp] theorem bankSlot_time : ∀ s0 s b, (bankSlot s0 s b).time = s.time := by
  intros; unfold bankSlot; simp

@[simp] theorem banksSlot_time : ∀ s0 s, (banksSlot s0 s).time = s.time := by
  intros; unfold banksSlot; simp [foldl_time, foldl_time1, apply_ite State.time]

@[simp] theorem ringStep_time : ∀ s, (ringStep s).time = s.time := by
  intros; unfold ringStep; simp

@[simp] theorem banksSample_time : ∀ s, (banksSample s).time = s.time := by
  intros; unfold banksSample; simp [foldl_time, foldl_time1, apply_ite State.time]

@[simp] theorem pendingCommit_time : ∀ s, (pendingCommit s).time = s.time := by
  intros; unfold pendingCommit; simp

@[simp] theorem talliesSlot_time : ∀ s0 s secs, (talliesSlot s0 s secs).time = s.time := by
  intros; unfold talliesSlot; simp

@[simp] theorem tallySnapshot_time : ∀ s frame ovd tnt, (tallySnapshot s frame ovd tnt).time = s.time := by
  intros; unfold tallySnapshot; simp [foldl_time, foldl_time1, apply_ite State.time]

/-! Time.lean -/

@[simp] theorem discardWord_time : ∀ s count, (discardWord s count).time = s.time := by
  intros; unfold discardWord; simp

@[simp] theorem tickLoRead_time : ∀ s, (tickLoRead s).2.time = s.time := by
  intros; unfold tickLoRead; simp

/-! Sched.lean -/

@[simp] theorem schedWrite_time : ∀ s sec v, (schedWrite s sec v).time = s.time := by
  intros; unfold schedWrite; simp [foldl_time, foldl_time1, apply_ite State.time]

@[simp] theorem sregReset_time : ∀ s hit, (sregReset s hit).time = s.time := by
  intros; unfold sregReset; simp

@[simp] theorem sregFrameEnd_time : ∀ s, (sregFrameEnd s).time = s.time := by
  intros; unfold sregFrameEnd; simp

@[simp] theorem wregClear_time : ∀ s hit, (wregClear s hit).time = s.time := by
  intros; unfold wregClear; simp

@[simp] theorem savedClear_time : ∀ s sec, (savedClear s sec).time = s.time := by
  intros; unfold savedClear; try simp [foldl_time, foldl_time1, apply_ite State.time]
  all_goals (repeat' split) <;> simp [*, foldl_time, foldl_time1, apply_ite State.time]

@[simp] theorem swapSector_time : ∀ s sec planes clear, (swapSector s sec planes clear).time = s.time := by
  intros; unfold swapSector; simp [foldl_time, foldl_time1, apply_ite State.time]

@[simp] theorem refuseIn_time : ∀ s sec plane partnerOnly, (refuseIn s sec plane partnerOnly).time = s.time := by
  intros; unfold refuseIn; simp

@[simp] theorem heldCount_time : ∀ s sec, (heldCount s sec).time = s.time := by
  intros; unfold heldCount; simp

@[simp] theorem recordTrips_time : ∀ s sec other trips, (recordTrips s sec other trips).time = s.time := by
  intros; unfold recordTrips; simp [foldl_time, foldl_time1, apply_ite State.time]
  (repeat' split) <;> simp [*, foldl_time, foldl_time1, apply_ite State.time]

@[simp] theorem guardTrips_time : ∀ s, (guardTrips s).time = s.time := by
  intros; unfold guardTrips; simp [foldl_time, foldl_time1, apply_ite State.time]

@[simp] theorem releaseLinks_time : ∀ s, (releaseLinks s).time = s.time := by
  intros; unfold releaseLinks; simp

@[simp] theorem fabricSlot_time : ∀ s0 s, (fabricSlot s0 s).time = s.time := by
  intros; unfold fabricSlot; simp

/-! Net.lean -/

@[simp] theorem State.setQueue_time : ∀ s r net port vc q, (State.setQueue s r net port vc q).time = s.time := by
  intros; unfold State.setQueue; simp

@[simp] theorem injectFlit_time : ∀ s r net vc f, (injectFlit s r net vc f).time = s.time := by
  intros; unfold injectFlit; simp

@[simp] theorem memArrive_time : ∀ s r net vc port q, (memArrive s r net vc port q).time = s.time := by
  intros; unfold memArrive; simp [foldl_time, foldl_time1, apply_ite State.time]
  (repeat' split) <;> simp [*, foldl_time, foldl_time1, apply_ite State.time]

@[simp] theorem ejectArrive_time : ∀ s r net vc port f, (ejectArrive s r net vc port f).time = s.time := by
  intros; unfold ejectArrive; (try dsimp only)
  (repeat' split) <;> simp [*, foldl_time, foldl_time1, apply_ite State.time]

@[simp] theorem memChosen_time : ∀ s r net vc, (memChosen s r net vc).time = s.time := by
  intros; unfold memChosen; (try dsimp only)
  (repeat' split) <;> simp [*, foldl_time, foldl_time1, apply_ite State.time]

@[simp] theorem enterQueue_time : ∀ s r net port vc f, (enterQueue s r net port vc f).time = s.time := by
  intros; unfold enterQueue; simp [foldl_time, foldl_time1, apply_ite State.time]
  (repeat' split) <;> simp [*, foldl_time, foldl_time1, apply_ite State.time]

@[simp] theorem pullInject_time : ∀ s r, (pullInject s r).time = s.time := by
  intro s r
  refine Eq.trans (b := ((tget (fun _ => []) s.inject r).foldl _ (s, ([] : List (Nat × Nat × Flit)))).1.time) rfl
    (foldl_time1 _ (fun _ _ => ?_) _ _)
  (try dsimp only); (repeat' split) <;> simp

@[simp] theorem takeTag_time : ∀ s id ln, (takeTag s id ln).1.time = s.time := by
  intros; unfold takeTag; simp [foldl_time, foldl_time1, apply_ite State.time]
  (repeat' split) <;> simp [*, foldl_time, foldl_time1, apply_ite State.time]

@[simp] theorem issue_time : ∀ s r note aux, (issue s r note aux).1.time = s.time := by
  intros; unfold issue; simp [foldl_time, foldl_time1, apply_ite State.time]

@[simp] theorem dbgFlush_time : ∀ s, (dbgFlush s).time = s.time := by
  intros; unfold dbgFlush; simp [foldl_time, foldl_time1, apply_ite State.time]
  (repeat' split) <;> simp [*, foldl_time, foldl_time1, apply_ite State.time]

@[simp] theorem sendResponse_time : ∀ s at_ r status data, (sendResponse s at_ r status data).time = s.time := by
  intros; unfold sendResponse; simp

@[simp] theorem collectBankRsps_time : ∀ s r, (collectBankRsps s r).time = s.time := by
  intros; unfold collectBankRsps; simp [foldl_time, foldl_time1, apply_ite State.time]

@[simp] theorem State.eject_time : ∀ s r net vc, (State.eject s r net vc).time = s.time := by
  intros; unfold State.eject; simp

@[simp] theorem endOutst_time : ∀ s o, (endOutst s o).time = s.time := by
  intros; unfold endOutst; simp

@[simp] theorem closeOutst_time : ∀ s o, (closeOutst s o).time = s.time := by
  intros; unfold closeOutst; simp

/-! Vault.lean -/

@[simp] theorem emptyKey_time : ∀ s e, (emptyKey s e).time = s.time := by
  intros; unfold emptyKey; simp

@[simp] theorem readKey_time : ∀ s e, (readKey s e).1.time = s.time := by
  intros; unfold readKey; simp [foldl_time, foldl_time1, apply_ite State.time]
  (repeat' split) <;> simp [*, foldl_time, foldl_time1, apply_ite State.time]

@[simp] theorem fillKey_time : ∀ s e key, (fillKey s e key).time = s.time := by
  intros; unfold fillKey; simp

@[simp] theorem lanesIdle_time : ∀ s, (lanesIdle s).time = s.time := by
  intros; unfold lanesIdle; simp [foldl_time, foldl_time1, apply_ite State.time]

@[simp] theorem wipeKeys_time : ∀ s, (wipeKeys s).time = s.time := by
  intros; unfold wipeKeys; simp

@[simp] theorem integrityHalt_time : ∀ s sub lane unit line, (integrityHalt s sub lane unit line).time = s.time := by
  intros; unfold integrityHalt; simp [foldl_time, foldl_time1, apply_ite State.time]

@[simp] theorem lockFail_time : ∀ s which, (lockFail s which).time = s.time := by
  intros; unfold lockFail; simp [foldl_time, foldl_time1, apply_ite State.time]
  (repeat' split) <;> simp [*, foldl_time, foldl_time1, apply_ite State.time]

@[simp] theorem lockWrite_time : ∀ s which id v, (lockWrite s which id v).1.time = s.time := by
  intros; unfold lockWrite; simp [foldl_time, foldl_time1, apply_ite State.time]
  (repeat' split) <;> simp [*, foldl_time, foldl_time1, apply_ite State.time]

@[simp] theorem lockRead_time : ∀ s which id, (lockRead s which id).time = s.time := by
  intros; unfold lockRead; simp [foldl_time, foldl_time1, apply_ite State.time]

@[simp] theorem lockedWrite_time : ∀ s w id f, (∀ t, (f t).time = t.time) → (lockedWrite s w id f).1.time = s.time :=
    by
  intros
  rename_i s w id f hf
  unfold lockedWrite; split <;> simp [hf]

@[simp] theorem answerWrite_time : ∀ r, ResTime r.1 (answerWrite r) := by
  intros; unfold answerWrite; simp

@[simp] theorem keyClear_time : ∀ s e, (keyClear s e).time = s.time := by
  intros; unfold keyClear; simp [foldl_time, foldl_time1, apply_ite State.time]

@[simp] theorem rngRead_time : ∀ s peek, (rngRead s peek).1.time = s.time := by
  intros; unfold rngRead; simp [foldl_time, foldl_time1, apply_ite State.time]
  (repeat' split) <;> simp [*, foldl_time, foldl_time1, apply_ite State.time]

@[simp] theorem fuseRefuse_time : ∀ s, (fuseRefuse s).time = s.time := by
  intros; unfold fuseRefuse; simp

@[simp] theorem startBurn_time : ∀ s kind value, (startBurn s kind value).time = s.time := by
  intro s k v; unfold startBurn; exact State.raiseF_time s Reg.VLT_STAT_FUSE_BUSY

@[simp] theorem fuseOwnerKey_time : ∀ s, (fuseOwnerKey s).time = s.time := by
  intros; unfold fuseOwnerKey; (repeat' split) <;> simp [fuseRefuse]

@[simp] theorem fuseFloor_time : ∀ s, (fuseFloor s).time = s.time := by
  intros; unfold fuseFloor; (try dsimp only); (repeat' split) <;> simp [fuseRefuse]

@[simp] theorem fuseCommand_time : ∀ s cmd, (fuseCommand s cmd).time = s.time := by
  intros; unfold fuseCommand; (try dsimp only)
  (repeat' split) <;> simp [*, foldl_time, foldl_time1, apply_ite State.time]

@[simp] theorem fuseWrite_time : ∀ s id cmd, (fuseWrite s id cmd).1.time = s.time := by
  intros; unfold fuseWrite; try simp [foldl_time, foldl_time1, apply_ite State.time]
  all_goals (repeat' split) <;> simp [*, foldl_time, foldl_time1, apply_ite State.time]

/-! Memory.lean -/

@[simp] theorem setMemWord_time : ∀ s k w, (setMemWord s k w).time = s.time := by
  intros; unfold setMemWord; simp

@[simp] theorem poisonLine_time : ∀ s a, (poisonLine s a).time = s.time := by
  intros; unfold poisonLine; simp [foldl_time, foldl_time1, apply_ite State.time]

@[simp] theorem putLine_time : ∀ s a data tag, (putLine s a data tag).time = s.time := by
  intros; unfold putLine; simp [foldl_time, foldl_time1, apply_ite State.time]

@[simp] theorem reportUnc_time : ∀ s a src, (reportUnc s a src).time = s.time := by
  intros; unfold reportUnc; simp

@[simp] theorem rewriteLine_time : ∀ s a, (rewriteLine s a).time = s.time := by
  intros
  unfold rewriteLine
  exact foldl_time _ (fun _ _ => by split <;> simp) _ _

@[simp] theorem reportCorr_time : ∀ s a fixed, (reportCorr s a fixed).time = s.time := by
  intros; unfold reportCorr; simp [foldl_time, foldl_time1, apply_ite State.time]

@[simp] theorem reportPoison_time : ∀ s a, (reportPoison s a).time = s.time := by
  intros; unfold reportPoison; simp

@[simp] theorem correctedRead_time : ∀ s a fixed, (correctedRead s a fixed).time = s.time := by
  intros; unfold correctedRead; simp [foldl_time, foldl_time1, apply_ite State.time]

@[simp] theorem demandRead_time : ∀ s a words, (demandRead s a words).1.time = s.time := by
  intros; unfold demandRead; simp [foldl_time, foldl_time1, apply_ite State.time]
  (repeat' split) <;> simp [*, foldl_time, foldl_time1, apply_ite State.time]

@[simp] theorem rmwRead_time : ∀ s a, (rmwRead s a).1.time = s.time := by
  intros; unfold rmwRead; simp [foldl_time, foldl_time1, apply_ite State.time]
  (repeat' split) <;> simp [*, foldl_time, foldl_time1, apply_ite State.time]

@[simp] theorem windowKey_time : ∀ s w e, (windowKey s w e).1.time = s.time := by
  intros; unfold windowKey; simp [foldl_time, foldl_time1, apply_ite State.time]
  (repeat' split) <;> simp [*, foldl_time, foldl_time1, apply_ite State.time]

@[simp] theorem setRoot_time : ∀ s w x, (setRoot s w x).time = s.time := by
  intros; unfold setRoot; simp

@[simp] theorem writeBackNode_time : ∀ s a, (writeBackNode s a).time = s.time := by
  intros; unfold writeBackNode; simp

@[simp] theorem nodeRoom_time : ∀ s, (nodeRoom s).time = s.time := by
  intros; unfold nodeRoom; simp [foldl_time, foldl_time1, apply_ite State.time]
  (repeat' split) <;> simp [*, foldl_time, foldl_time1, apply_ite State.time]

@[simp] theorem trustNode_time : ∀ s a node, (trustNode s a node).time = s.time := by
  intros; unfold trustNode; simp [foldl_time, foldl_time1, apply_ite State.time]

@[simp] theorem restoreNode_time : ∀ s a, (restoreNode s a).time = s.time := by
  intros; unfold restoreNode; simp [foldl_time, foldl_time1, apply_ite State.time]

@[simp] theorem rootVersion_time : ∀ s w j, (rootVersion s w j).1.time = s.time := by
  intros; unfold rootVersion; (try dsimp only)
  (repeat' split) <;> simp [*, foldl_time, foldl_time1, apply_ite State.time]

@[simp] theorem nodeCheck_time : ∀ key w k j a par, (nodeCheck key w k j a par).1.time = par.1.time := by
  intros; unfold nodeCheck; simp [foldl_time, foldl_time1, apply_ite State.time]
  (repeat' split) <;> simp [*, foldl_time, foldl_time1, apply_ite State.time]

@[simp] theorem getNode_time : ∀ key w y2 y3 y4 y5, (getNode key w y2 y3 y4 y5).1.time = y5.time := by
  intros
  rename_i key w up k j s
  induction up generalizing k j s with
  | zero => unfold getNode; split <;> simp
  | succ u ih => unfold getNode; split <;> simp [ih]

@[simp] theorem lineVersion_time : ∀ s key w i, (lineVersion s key w i).1.time = s.time := by
  intros; unfold lineVersion; simp

@[simp] theorem bumpPath_time : ∀ s key w i lineA, (bumpPath s key w i lineA).1.time = s.time := by
  intros
  rename_i s key w i lineA
  have h : ((pathOf s w i).foldl (fun (acc : State × Option (List Nat)) p =>
    match acc.2 with
    | none => acc
    | some xs =>
      let r := getNode key w ((pathOf s w i).length - 1 - p.1) p.1 p.2.1 acc.1
      (r.1, r.2.map (fun x => xs ++ [x]))) (s, some [])).1.time = s.time :=
    foldl_time1 _ (fun _ _ => by split <;> simp) _ _
  unfold bumpPath; dsimp only at h ⊢
  generalize List.foldl _ _ _ = got at h ⊢
  repeat' split
  all_goals first
    | simpa using h
    | (dsimp only; rw [foldl_time _ (fun _ _ => by simp)]; simpa using h)

@[simp] theorem readPlain_time : ∀ s a key words, (readPlain s a key words).1.time = s.time := by
  intros; unfold readPlain; simp [foldl_time, foldl_time1, apply_ite State.time]
  (repeat' split) <;> simp [*, foldl_time, foldl_time1, apply_ite State.time]

@[simp] theorem writePlainLine_time : ∀ s a key data, (writePlainLine s a key data).1.time = s.time := by
  intros; unfold writePlainLine; simp [foldl_time, foldl_time1, apply_ite State.time]
  (repeat' split) <;> simp [*, foldl_time, foldl_time1, apply_ite State.time]

@[simp] theorem rmwPlain_time : ∀ s a key, (rmwPlain s a key).1.time = s.time := by
  intros; unfold rmwPlain; simp [foldl_time, foldl_time1, apply_ite State.time]
  (repeat' split) <;> simp [*, foldl_time, foldl_time1, apply_ite State.time]

@[simp] theorem keyRefused_time : ∀ s a key, (keyRefused s a key).1.time = s.time := by
  intros; unfold keyRefused; (try dsimp only)
  (repeat' split) <;> simp [*, foldl_time, foldl_time1, apply_ite State.time]

@[simp] theorem serveRead_time : ∀ s r, ServedTime s (serveRead s r) := by
  intros; unfold serveRead; simp [foldl_time, foldl_time1, apply_ite State.time]
  (repeat' split) <;> simp [*, foldl_time, foldl_time1, apply_ite State.time]

@[simp] theorem serveMem_time : ∀ s r, ServedTime s (serveMem s r) := by
  intros; unfold serveMem; simp [foldl_time, foldl_time1, apply_ite State.time]
  (repeat' split) <;> simp [*, foldl_time, foldl_time1, apply_ite State.time]

@[simp] theorem windowOn_time : ∀ s w v, (windowOn s w v).time = s.time := by
  intros; unfold windowOn; simp [foldl_time, foldl_time1, apply_ite State.time]

@[simp] theorem windowOff_time : ∀ s w v, (windowOff s w v).time = s.time := by
  intros; unfold windowOff; simp [foldl_time, foldl_time1, apply_ite State.time]

@[simp] theorem wctlWrite_time : ∀ s w v, (wctlWrite s w v).time = s.time := by
  intros; unfold wctlWrite; simp [foldl_time, foldl_time1, apply_ite State.time]

@[simp] theorem initLines_time : ∀ s w, (initLines s w).time = s.time := by
  intros; unfold initLines; simp [foldl_time, foldl_time1, apply_ite State.time]

@[simp] theorem initTree_time : ∀ s w, (initTree s w).time = s.time := by
  intros; unfold initTree; simp [foldl_time, foldl_time1, apply_ite State.time]

/-! Trunk.lean -/

@[simp] theorem State.setTk_time : ∀ s n l, (State.setTk s n l).time = s.time := by
  intros; unfold State.setTk; simp

@[simp] theorem tkRateCheck_time : ∀ s q, (tkRateCheck s q).time = s.time := by
  intros; unfold tkRateCheck; simp [foldl_time, foldl_time1, apply_ite State.time]

@[simp] theorem lqTrkWrite_time : ∀ s q v, (lqTrkWrite s q v).time = s.time := by
  intros; unfold lqTrkWrite; simp [foldl_time, foldl_time1, apply_ite State.time]

@[simp] theorem enterHandshake_time : ∀ s n, (enterHandshake s n).time = s.time := by
  intros; unfold enterHandshake; simp [foldl_time, foldl_time1, apply_ite State.time]

@[simp] theorem tkLeave_time : ∀ s n st, (tkLeave s n st).time = s.time := by
  intros; unfold tkLeave; simp

@[simp] theorem tkLoseLock_time : ∀ s n st, (tkLoseLock s n st).time = s.time := by
  intros; unfold tkLoseLock; simp [foldl_time, foldl_time1, apply_ite State.time]

@[simp] theorem queueAck_time : ∀ s n q nak, (queueAck s n q nak).time = s.time := by
  intros; unfold queueAck; simp

@[simp] theorem tkOut_time : ∀ s n l w len, (tkOut s n l w len).time = s.time := by
  intros; unfold tkOut; simp

@[simp] theorem sendCw_time : ∀ s n l fec blocks, (sendCw s n l fec blocks).time = s.time := by
  intros; unfold sendCw; simp

@[simp] theorem periodicAcks_time : ∀ s n, (periodicAcks s n).time = s.time := by
  intros; unfold periodicAcks; simp [foldl_time, foldl_time1, apply_ite State.time]

@[simp] theorem ringIssue_time : ∀ s n q op size addr data note, (ringIssue s n q op size addr data note).1.time =
    s.time := by
  intros; unfold ringIssue; simp

@[simp] theorem ringFetch_time : ∀ s0 n, (ringFetch s0 n).time = s0.time := by
  intros; unfold ringFetch; simp [foldl_time, foldl_time1, apply_ite State.time]
  (repeat' split) <;> simp [*, foldl_time, foldl_time1, apply_ite State.time]

@[simp] theorem ringWrites_time : ∀ s n, (ringWrites s n).time = s.time := by
  intros
  unfold ringWrites
  refine foldl_time _ (fun _ _ => foldl_time _ (fun _ _ => ?_) _ _) _ _
  dsimp only
  split
  · rfl
  · split
    · rfl
    · split <;> simp

@[simp] theorem ringError_time : ∀ s n q tx, (ringError s n q tx).time = s.time := by
  intros; unfold ringError; simp [foldl_time, foldl_time1, apply_ite State.time]

@[simp] theorem ringReadDone_time : ∀ s n rd tag line status data, (ringReadDone s n rd tag line status data).time =
    s.time := by
  intros; unfold ringReadDone; simp [foldl_time, foldl_time1, apply_ite State.time]

@[simp] theorem laneRespond_time : ∀ s0 n o status data, (laneRespond s0 n o status data).time = s0.time := by
  intros; unfold laneRespond; simp [foldl_time, foldl_time1, apply_ite State.time]
  (repeat' split) <;> simp [*, foldl_time, foldl_time1, apply_ite State.time]

@[simp] theorem resend_time : ∀ s n q, (resend s n q).time = s.time := by
  intros; unfold resend; simp

@[simp] theorem queueTailWrite_time : ∀ s n q v, (queueTailWrite s n q v).time = s.time := by
  intros; unfold queueTailWrite; simp [foldl_time, foldl_time1, apply_ite State.time]

@[simp] theorem queueHeadWrite_time : ∀ s n q v, (queueHeadWrite s n q v).time = s.time := by
  intros; unfold queueHeadWrite; simp [foldl_time, foldl_time1, apply_ite State.time]

@[simp] theorem badBlock_time : ∀ s n, (badBlock s n).time = s.time := by
  intros; unfold badBlock; simp

@[simp] theorem rxStreamBlock_time : ∀ s n l c cw p blk lost, (rxStreamBlock s n l c cw p blk lost).1.time = s.time :=
    by
  intros; unfold rxStreamBlock; simp [foldl_time, foldl_time1, apply_ite State.time]

@[simp] theorem rxPoolBlock_time : ∀ s n l blk, (rxPoolBlock s n l blk).1.time = s.time := by
  intros; unfold rxPoolBlock; simp [foldl_time, foldl_time1, apply_ite State.time]
  (repeat' split) <;> simp [*, foldl_time, foldl_time1, apply_ite State.time]

@[simp] theorem rxReserved_time : ∀ s n l0 cw blks lost, (rxReserved s n l0 cw blks lost).1.time = s.time := by
  intros; unfold rxReserved; simp [foldl_time, foldl_time1, apply_ite State.time]

@[simp] theorem rxPoolEarly_time : ∀ s n blk, (rxPoolEarly s n blk).time = s.time := by
  intros; unfold rxPoolEarly; simp [foldl_time, foldl_time1, apply_ite State.time]

@[simp] theorem rxActive_time : ∀ s n l0 cw blks lost, (rxActive s n l0 cw blks lost).1.time = s.time := by
  intros
  rename_i s n l0 cw blks lost
  unfold rxActive; dsimp only
  have key : ∀ (g : State × TkLane × Nat × List (Nat × Nat × Nat) → Nat → State × TkLane × Nat × List (Nat × Nat × Nat))
      (r : State × TkLane), (∀ a p, (g a p).1.time = a.1.time) → r.1.time = s.time →
      ((List.range 16).foldl g (r.1, r.2, 0, [])).1.time = s.time :=
    fun g r hg hr => (foldl_time1 g hg _ _).trans hr
  refine key _ _ (fun a p => ?_) ?_
  · split
    · rfl
    · split
      · split
        · split <;> simp
        · simp
      · split
        · split <;> simp
        · split
          · rfl
          · simp
  · split <;> simp

@[simp] theorem hskDiscards_time : ∀ s n blks, (hskDiscards s n blks).time = s.time := by
  intros; unfold hskDiscards; simp [foldl_time, foldl_time1, apply_ite State.time]

@[simp] theorem rxHandshake_time : ∀ s n l blks lost, (rxHandshake s n l blks lost).1.time = s.time := by
  intros; unfold rxHandshake; simp [foldl_time, foldl_time1, apply_ite State.time]
  (repeat' split) <;> simp [*, foldl_time, foldl_time1, apply_ite State.time]

@[simp] theorem presentBad_time : ∀ s n c keyed, (presentBad s n c keyed).time = s.time := by
  intros; unfold presentBad; simp [foldl_time, foldl_time1, apply_ite State.time]

@[simp] theorem tkBeatEnd_time : ∀ s, (tkBeatEnd s).time = s.time := by
  intros; unfold tkBeatEnd; simp [foldl_time, foldl_time1, apply_ite State.time]

@[simp] theorem tkResume_time : ∀ s, (tkResume s).time = s.time := by
  intros; unfold tkResume; simp

@[simp] theorem zeroise_time : ∀ s, (zeroise s).time = s.time := by
  intros; unfold zeroise; simp [foldl_time, foldl_time1, apply_ite State.time]

/-! BringUp.lean -/

@[simp] theorem laneEnter_time : ∀ s n st, (laneEnter s n st).time = s.time := by
  intros; unfold laneEnter; simp [foldl_time, foldl_time1, apply_ite State.time]

@[simp] theorem checkerReset_time : ∀ s n, (checkerReset s n).time = s.time := by
  intros; unfold checkerReset; simp

@[simp] theorem enterTest_time : ∀ s n, (enterTest s n).time = s.time := by
  intros; unfold enterTest; simp

@[simp] theorem laneRestart_time : ∀ s n, (laneRestart s n).time = s.time := by
  intros; unfold laneRestart; simp [foldl_time, foldl_time1, apply_ite State.time]

@[simp] theorem laneReeval_time : ∀ s n, (laneReeval s n).time = s.time := by
  intros; unfold laneReeval; simp [foldl_time, foldl_time1, apply_ite State.time]

@[simp] theorem quadReeval_time : ∀ s q, (quadReeval s q).time = s.time := by
  intros; unfold quadReeval; simp [foldl_time, foldl_time1, apply_ite State.time]

@[simp] theorem allLanesReeval_time : ∀ s, (allLanesReeval s).time = s.time := by
  intros; unfold allLanesReeval; simp [foldl_time, foldl_time1, apply_ite State.time]

@[simp] theorem setIr_time : ∀ s code, (setIr s code).time = s.time := by
  intros; unfold setIr; simp [foldl_time, foldl_time1, apply_ite State.time]

@[simp] theorem buCtrlWrite_time : ∀ s n v, (buCtrlWrite s n v).time = s.time := by
  intros; unfold buCtrlWrite; simp [foldl_time, foldl_time1, apply_ite State.time]

@[simp] theorem testCtrlWrite_time : ∀ s n v, (testCtrlWrite s n v).time = s.time := by
  intros; unfold testCtrlWrite; simp [foldl_time, foldl_time1, apply_ite State.time]

@[simp] theorem tkRegsClear_time : ∀ s n, (tkRegsClear s n).time = s.time := by
  intros; unfold tkRegsClear; simp [foldl_time, foldl_time1, apply_ite State.time]

@[simp] theorem pllStop_time : ∀ s q, (pllStop s q).time = s.time := by
  intros; unfold pllStop; simp [foldl_time, foldl_time1, apply_ite State.time]

@[simp] theorem quadModeWrite_time : ∀ s q v, (quadModeWrite s q v).time = s.time := by
  intros; unfold quadModeWrite; simp [foldl_time, foldl_time1, apply_ite State.time]

@[simp] theorem quadTrkWrite_time : ∀ s q v, (quadTrkWrite s q v).time = s.time := by
  intros; unfold quadTrkWrite; simp

@[simp] theorem laneTimeout_time : ∀ s n, (laneTimeout s n).time = s.time := by
  intros; unfold laneTimeout; simp [foldl_time, foldl_time1, apply_ite State.time]

@[simp] theorem pllLose_time : ∀ s q, (pllLose s q).time = s.time := by
  intros; unfold pllLose; simp [foldl_time, foldl_time1, apply_ite State.time]

@[simp] theorem pllTemperature_time : ∀ s q, (pllTemperature s q).time = s.time := by
  intros; unfold pllTemperature; simp [foldl_time, foldl_time1, apply_ite State.time]

@[simp] theorem wakeWrite_time : ∀ s n v, (wakeWrite s n v).time = s.time := by
  intros; unfold wakeWrite; simp [foldl_time, foldl_time1, apply_ite State.time]

/-! Teller.lean -/

@[simp] theorem State.setTlr_time : ∀ s sec t, (State.setTlr s sec t).time = s.time := by
  intros; unfold State.setTlr; simp

@[simp] theorem State.setTlrState_time : ∀ s sec st, (State.setTlrState s sec st).time = s.time := by
  intros; unfold State.setTlrState; simp

@[simp] theorem tlrRegWrite_time : ∀ s sec reg v, (tlrRegWrite s sec reg v).time = s.time := by
  intros; unfold tlrRegWrite; simp

@[simp] theorem tlrEvent_time : ∀ s sec, (tlrEvent s sec).time = s.time := by
  intros; unfold tlrEvent; simp

@[simp] theorem tlrFault_time : ∀ s sec cause addr, (tlrFault s sec cause addr).time = s.time := by
  intros; unfold tlrFault; simp [foldl_time, foldl_time1, apply_ite State.time]
  (repeat' split) <;> simp [*, foldl_time, foldl_time1, apply_ite State.time]

@[simp] theorem tlrWithdraw_time : ∀ s sec, (tlrWithdraw s sec).time = s.time := by
  intros; unfold tlrWithdraw; simp [foldl_time, foldl_time1, apply_ite State.time]

@[simp] theorem tlrAbandon_time : ∀ s sec, (tlrAbandon s sec).time = s.time := by
  intros; unfold tlrAbandon; simp

@[simp] theorem tlrStop_time : ∀ s sec, (tlrStop s sec).time = s.time := by
  intros; unfold tlrStop; simp [foldl_time, foldl_time1, apply_ite State.time]

@[simp] theorem tlrRun_time : ∀ s sec, (tlrRun s sec).time = s.time := by
  intros; unfold tlrRun; simp [foldl_time, foldl_time1, apply_ite State.time]

@[simp] theorem tlrLatch_time : ∀ s sec bits, (tlrLatch s sec bits).time = s.time := by
  intros; unfold tlrLatch; simp [foldl_time, foldl_time1, apply_ite State.time]

@[simp] theorem tlrClear_time : ∀ s sec bits, (tlrClear s sec bits).time = s.time := by
  intros; unfold tlrClear; simp [foldl_time, foldl_time1, apply_ite State.time]

@[simp] theorem tlrCmdWrite_time : ∀ s sec v, (tlrCmdWrite s sec v).time = s.time := by
  intros; unfold tlrCmdWrite; simp [foldl_time, foldl_time1, apply_ite State.time]

@[simp] theorem tlrReset_time : ∀ s sec, (tlrReset s sec).time = s.time := by
  intros; unfold tlrReset; simp

@[simp] theorem tlrSetX_time : ∀ s sec r v, (tlrSetX s sec r v).time = s.time := by
  intros; unfold tlrSetX; simp [foldl_time, foldl_time1, apply_ite State.time]

@[simp] theorem tlrSetV_time : ∀ s sec r v, (tlrSetV s sec r v).time = s.time := by
  intros; unfold tlrSetV; simp

@[simp] theorem setRamCycle_time : ∀ s sec c, (setRamCycle s sec c).time = s.time := by
  intros; unfold setRamCycle; simp [foldl_time, foldl_time1, apply_ite State.time]

@[simp] theorem tramPut_time : ∀ s sec k w, (tramPut s sec k w).time = s.time := by
  intros; unfold tramPut; simp

@[simp] theorem tramRead_time : ∀ s sec k, (tramRead s sec k).1.time = s.time := by
  intros; unfold tramRead; simp [foldl_time, foldl_time1, apply_ite State.time]
  (repeat' split) <;> simp [*, foldl_time, foldl_time1, apply_ite State.time]

@[simp] theorem tramWrite_time : ∀ s sec k v, (tramWrite s sec k v).time = s.time := by
  intros; unfold tramWrite; simp

@[simp] theorem tramNetWrite_time : ∀ s sec k v be, (tramNetWrite s sec k v be).time = s.time := by
  intros; unfold tramNetWrite; simp

@[simp] theorem tlrHalf_time : ∀ s sec a, (tlrHalf s sec a).1.time = s.time := by
  intros; unfold tlrHalf; simp [foldl_time, foldl_time1, apply_ite State.time]
  (repeat' split) <;> simp [*, foldl_time, foldl_time1, apply_ite State.time]

@[simp] theorem tlrFetch_time : ∀ s sec, (tlrFetch s sec).1.time = s.time := by
  intros
  rename_i s sec
  unfold tlrFetch; dsimp only
  have h := tlrHalf_time s sec (s.tlr sec).pc
  generalize tlrHalf s sec (s.tlr sec).pc = p at h ⊢
  obtain ⟨s1, o⟩ := p
  cases o with
  | inr c => exact h
  | inl lo =>
    have h2 := tlrHalf_time s1 sec ((s.tlr sec).pc + 2)
    dsimp only at h ⊢
    split
    · exact h
    · split
      · exact h
      · generalize tlrHalf s1 sec ((s.tlr sec).pc + 2) = q at h2 ⊢
        obtain ⟨s2, o2⟩ := q
        cases o2 <;> exact h2.trans h

@[simp] theorem tlrNext_time : ∀ s sec pc, (tlrNext s sec pc).time = s.time := by
  intros; unfold tlrNext; simp

@[simp] theorem tlrBankStart_time : ∀ s sec i kind reg size signed reqs next, (tlrBankStart s sec i kind reg size
    signed reqs next).time = s.time := by
  intros; unfold tlrBankStart; simp [foldl_time, foldl_time1, apply_ite State.time]
  (repeat' split) <;> simp [*, foldl_time, foldl_time1, apply_ite State.time]

@[simp] theorem tlrIssue_time : ∀ s sec op a size v note aux, (tlrIssue s sec op a size v note aux).1.time = s.time :=
    by
  intros; unfold tlrIssue; simp

@[simp] theorem pageWrite_time : ∀ s sec off v, (pageWrite s sec off v).time = s.time := by
  intros; unfold pageWrite; simp [foldl_time, foldl_time1, apply_ite State.time]
  (repeat' split) <;> simp [*, foldl_time, foldl_time1, apply_ite State.time]

@[simp] theorem tlrLoad_time : ∀ s sec rd a size signed next, (tlrLoad s sec rd a size signed next).time = s.time :=
    by
  intros
  rename_i s sec rd a size signed next
  unfold tlrLoad
  split
  · simp
  · split
    · rename_i w _
      have h := tramRead_time s sec w
      generalize tramRead s sec w = p at h ⊢
      obtain ⟨s1, o⟩ := p
      cases o <;> simpa using h
    · split <;> simp
    · simp
    · split <;> simp
    · simp

@[simp] theorem tlrStore_time : ∀ s sec a size v next, (tlrStore s sec a size v next).time = s.time := by
  intros
  rename_i s sec a size v next
  unfold tlrStore
  split
  · simp
  · split
    · rename_i w _
      have h := tramRead_time s sec w
      generalize tramRead s sec w = p at h ⊢
      obtain ⟨s1, o⟩ := p
      cases o <;> simpa using h
    · split <;> simp
    · simp
    · split <;> simp
    · simp

@[simp] theorem tlrBankDone_time : ∀ s sec e, (tlrBankDone s sec e).time = s.time := by
  intros; unfold tlrBankDone; simp [foldl_time, foldl_time1, apply_ite State.time]
  (repeat' split) <;> simp [*, foldl_time, foldl_time1, apply_ite State.time]

@[simp] theorem tlrBankStep_time : ∀ s sec, (tlrBankStep s sec).time = s.time := by
  intros; unfold tlrBankStep; simp [foldl_time, foldl_time1, apply_ite State.time]
  (repeat' split) <;> simp [*, foldl_time, foldl_time1, apply_ite State.time]

@[simp] theorem tlrRespond_time : ∀ s o status data, (tlrRespond s o status data).time = s.time := by
  intros; unfold tlrRespond; simp [foldl_time, foldl_time1, apply_ite State.time]
  (repeat' split) <;> simp [*, foldl_time, foldl_time1, apply_ite State.time]

@[simp] theorem tlrResume_time : ∀ s sec next, (tlrResume s sec next).time = s.time := by
  intros; unfold tlrResume; simp

@[simp] theorem tlrTwaitTake_time : ∀ s sec rd next, (tlrTwaitTake s sec rd next).time = s.time := by
  intros; unfold tlrTwaitTake; simp

@[simp] theorem tlrSettleTake_time : ∀ s sec rd next, (tlrSettleTake s sec rd next).time = s.time := by
  intros; unfold tlrSettleTake; simp

@[simp] theorem tlrOverdraft_time : ∀ s sec, (tlrOverdraft s sec).time = s.time := by
  intros; unfold tlrOverdraft; simp [foldl_time, foldl_time1, apply_ite State.time]

@[simp] theorem wakesSlot_time : ∀ s0 s secs, (wakesSlot s0 s secs).time = s.time := by
  intros; unfold wakesSlot; simp [foldl_time, foldl_time1, apply_ite State.time]

@[simp] theorem tlrCycleEnd_time : ∀ s sec, (tlrCycleEnd s sec).time = s.time := by
  intros; unfold tlrCycleEnd; simp [foldl_time, foldl_time1, apply_ite State.time]
  (repeat' split) <;> simp [*, foldl_time, foldl_time1, apply_ite State.time]

@[simp] theorem tellersSlot_time : ∀ s, (tellersSlot s).time = s.time := by
  intros; unfold tellersSlot; simp [foldl_time, foldl_time1, apply_ite State.time]

@[simp] theorem tlrLatchAll_time : ∀ s bits, (tlrLatchAll s bits).time = s.time := by
  intros; unfold tlrLatchAll; simp [foldl_time, foldl_time1, apply_ite State.time]

@[simp] theorem tlrBase_time : ∀ s sec i len, (tlrBase s sec i len).time = s.time := by
  intros; unfold tlrBase; simp [foldl_time, foldl_time1, apply_ite State.time]
  (repeat' split) <;> simp [*, foldl_time, foldl_time1, apply_ite State.time]

@[simp] theorem tlrRow_time : ∀ s sec mine run fail, (∀ t i l, (run t i l).time = t.time) → ResTime s (tlrRow s sec
    mine run fail) := by
  intros
  rename_i s sec mine run fail hr
  have h := tlrFetch_time s sec
  unfold tlrRow
  split
  · generalize tlrFetch s sec = p at h ⊢
    obtain ⟨s1, o⟩ := p
    dsimp only at h
    cases o with
    | inl il => simp only [resTime_okIf]; split <;> simp [hr, h]
    | inr c => simp only [resTime_okIf]; split <;> simp [h]
  · simp

/-! TellerVec.lean -/

@[simp] theorem tlrVld_time : ∀ s sec vd a, (tlrVld s sec vd a).time = s.time := by
  intros
  rename_i s sec vd a
  unfold tlrVld; dsimp only
  split
  · simp
  · split
    · rename_i w _
      have h := tramRead_time s sec w
      generalize tramRead s sec w = p at h ⊢
      obtain ⟨s1, o⟩ := p
      cases o with
      | none => simpa using h
      | some lo =>
        have h2 := tramRead_time s1 sec (w + 1)
        dsimp only at h ⊢
        generalize tramRead s1 sec (w + 1) = q at h2 ⊢
        obtain ⟨s2, o2⟩ := q
        cases o2 <;> simpa using h2.trans h
    · simp
    · split <;> simp
    · simp

@[simp] theorem tlrVst_time : ∀ s sec vs a, (tlrVst s sec vs a).time = s.time := by
  intros; unfold tlrVst; simp [foldl_time, foldl_time1, apply_ite State.time]
  (repeat' split) <;> simp [*, foldl_time, foldl_time1, apply_ite State.time]

@[simp] theorem tlrVtally_time : ∀ s sec vc vi a sat, (tlrVtally s sec vc vi a sat).time = s.time := by
  intros; unfold tlrVtally; simp [foldl_time, foldl_time1, apply_ite State.time]
  (repeat' split) <;> simp [*, foldl_time, foldl_time1, apply_ite State.time]

@[simp] theorem tlrTwait_time : ∀ s sec rd, (tlrTwait s sec rd).time = s.time := by
  intros; unfold tlrTwait; simp [foldl_time, foldl_time1, apply_ite State.time]

@[simp] theorem tlrTsettle_time : ∀ s sec rd, (tlrTsettle s sec rd).time = s.time := by
  intros; unfold tlrTsettle; simp [foldl_time, foldl_time1, apply_ite State.time]

@[simp] theorem tlrTraise_time : ∀ s sec rs1, (tlrTraise s sec rs1).time = s.time := by
  intros; unfold tlrTraise; simp

@[simp] theorem tlrT_time : ∀ s sec i, (tlrT s sec i).time = s.time := by
  intros; unfold tlrT; simp [foldl_time, foldl_time1, apply_ite State.time]
  (repeat' split) <;> simp [*, foldl_time, foldl_time1, apply_ite State.time]

@[simp] theorem tRow_time : ∀ s t mine, ResTime s (tRow s t mine) := by
  intros
  unfold tRow
  refine tlrRow_time _ _ _ _ _ (fun _ _ _ => ?_)
  split
  · split
    · simp
    · rfl
  · rfl

/-! Nap.lean -/

@[simp] theorem State.setNap_time : ∀ s sec p, (State.setNap s sec p).time = s.time := by
  intros; unfold State.setNap; simp

@[simp] theorem napOwn_time : ∀ s sec ut, (napOwn s sec ut).time = s.time := by
  intros; unfold napOwn; simp

@[simp] theorem napRespond_time : ∀ s o status data, (napRespond s o status data).time = s.time := by
  intros; unfold napRespond; simp [foldl_time, foldl_time1, apply_ite State.time]

@[simp] theorem napAccept_time : ∀ s sec r vc, (napAccept s sec r vc).1.time = s.time := by
  intros; unfold napAccept; simp [foldl_time, foldl_time1, apply_ite State.time]
  (repeat' split) <;> simp [*, foldl_time, foldl_time1, apply_ite State.time]

@[simp] theorem uwAnswer_time : ∀ s sec q status data, (uwAnswer s sec q status data).time = s.time := by
  intros; unfold uwAnswer; simp

@[simp] theorem fenceWrite_time : ∀ s sec b, (fenceWrite s sec b).time = s.time := by
  intros; unfold fenceWrite; simp

@[simp] theorem uwFlush_time : ∀ s sec, (uwFlush s sec).time = s.time := by
  intros; unfold uwFlush; simp [foldl_time, foldl_time1, apply_ite State.time]

@[simp] theorem napSlot_time : ∀ s sec, (napSlot s sec).time = s.time := by
  intros; unfold napSlot; simp

@[simp] theorem napsSlot_time : ∀ s, (napsSlot s).time = s.time := by
  intros; unfold napsSlot; simp [foldl_time, foldl_time1, apply_ite State.time]

@[simp] theorem napsFrame_time : ∀ s, (napsFrame s).time = s.time := by
  intros; unfold napsFrame; simp [foldl_time, foldl_time1, apply_ite State.time]

@[simp] theorem sectorOverdraft_time : ∀ s sec, (sectorOverdraft s sec).time = s.time := by
  intros; unfold sectorOverdraft; simp [foldl_time, foldl_time1, apply_ite State.time]

/-! Reset.lean -/

@[simp] theorem muxBusy_time : ∀ s, (muxBusy s).time = s.time := by
  intros; unfold muxBusy; simp

@[simp] theorem oscReport_time : ∀ s, (oscReport s).time = s.time := by
  intros; unfold oscReport; try simp [foldl_time, foldl_time1, apply_ite State.time]
  all_goals (repeat' split) <;> simp [*, foldl_time, foldl_time1, apply_ite State.time]

@[simp] theorem mrefReport_time : ∀ s, (mrefReport s).time = s.time := by
  intros; unfold mrefReport; try simp [foldl_time, foldl_time1, apply_ite State.time]
  all_goals (repeat' split) <;> simp [*, foldl_time, foldl_time1, apply_ite State.time]

@[simp] theorem clkReport_time : ∀ s, (clkReport s).time = s.time := by
  intros; unfold clkReport; try simp [foldl_time, foldl_time1, apply_ite State.time]
  all_goals (repeat' split) <;> simp [*, foldl_time, foldl_time1, apply_ite State.time]

@[simp] theorem vmonReport_time : ∀ s, (vmonReport s).time = s.time := by
  intros; unfold vmonReport; try simp [foldl_time, foldl_time1, apply_ite State.time]
  all_goals (repeat' split) <;> simp [*, foldl_time, foldl_time1, apply_ite State.time]

@[simp] theorem slewShow_time : ∀ s, (slewShow s).time = s.time := by
  intros; unfold slewShow; try simp [foldl_time, foldl_time1, apply_ite State.time]
  all_goals (repeat' split) <;> simp [*, foldl_time, foldl_time1, apply_ite State.time]

@[simp] theorem applyVolts_time : ∀ s khz, (applyVolts s khz).time = s.time := by
  intros; unfold applyVolts; simp

@[simp] theorem railsPass_time : ∀ s dt, (railsPass s dt).time = s.time := by
  intros; unfold railsPass; try simp [foldl_time, foldl_time1, apply_ite State.time]
  all_goals (repeat' split) <;> simp [*, foldl_time, foldl_time1, apply_ite State.time]

@[simp] theorem aonPass_time : ∀ s dt, (aonPass s dt).time = s.time := by
  intros; unfold aonPass; simp [foldl_time, foldl_time1, apply_ite State.time]

@[simp] theorem wdtThaw_time : ∀ s, (wdtThaw s).time = s.time := by
  intros; unfold wdtThaw; simp [foldl_time, foldl_time1, apply_ite State.time]

@[simp] theorem wdtFreeze_time : ∀ s, (wdtFreeze s).time = s.time := by
  intros; unfold wdtFreeze; simp

@[simp] theorem setAlarm_time : ∀ s, (setAlarm s).time = s.time := by
  intros; unfold setAlarm; simp

@[simp] theorem keepFields_time : ∀ old s fs, (keepFields old s fs).time = s.time := by
  intros; unfold keepFields; simp [foldl_time, foldl_time1, apply_ite State.time]

@[simp] theorem causeWrite_time : ∀ s, (causeWrite s).time = s.time := by
  intros; unfold causeWrite; try simp [foldl_time, foldl_time1, apply_ite State.time]
  all_goals (repeat' split) <;> simp [*, foldl_time, foldl_time1, apply_ite State.time]

@[simp] theorem stepTwo_time : ∀ s, (stepTwo s).time = s.time := by
  intros; unfold stepTwo; try simp [foldl_time, foldl_time1, apply_ite State.time]
  all_goals (repeat' split) <;> simp [*, foldl_time, foldl_time1, apply_ite State.time]

@[simp] theorem measureStrap_time : ∀ s raws, (measureStrap s raws).time = s.time := by
  intros; unfold measureStrap; simp

@[simp] theorem startStep5_time : ∀ s, (startStep5 s).time = s.time := by
  intros; unfold startStep5; simp [foldl_time, foldl_time1, apply_ite State.time]

@[simp] theorem bistFailed_time : ∀ s sub path index, (bistFailed s sub path index).time = s.time := by
  intros; unfold bistFailed; simp [foldl_time, foldl_time1, apply_ite State.time]

@[simp] theorem postMove_time : ∀ bad s g, (postMove bad s g).time = s.time := by
  intros; unfold postMove; simp

@[simp] theorem postRepair_time : ∀ s bad, (postRepair s bad).time = s.time := by
  intros; unfold postRepair; simp [foldl_time, foldl_time1, apply_ite State.time]

@[simp] theorem blockReset_time : ∀ s sec, (blockReset s sec).time = s.time := by
  intros; unfold blockReset; simp [foldl_time, foldl_time1, apply_ite State.time]

@[simp] theorem blkSlot_time : ∀ s, (blkSlot s).time = s.time := by
  intros; unfold blkSlot; split <;> rfl

@[simp] theorem blkBegin_time : ∀ s, (blkBegin s).time = s.time := by
  intros; unfold blkBegin; try simp [foldl_time, foldl_time1, apply_ite State.time]
  all_goals (repeat' split) <;> simp [*, foldl_time, foldl_time1, apply_ite State.time]

/-! Evt.lean -/

@[simp] theorem evtLatch_time : ∀ s e, (evtLatch s e).time = s.time := by
  intros; unfold evtLatch; simp [foldl_time, foldl_time1, apply_ite State.time]

@[simp] theorem unlost_time : ∀ s e, (unlost s e).time = s.time := by
  intros; unfold unlost; simp [foldl_time, foldl_time1, apply_ite State.time]

@[simp] theorem claimClear_time : ∀ s e, (claimClear s e).time = s.time := by
  intros; unfold claimClear; simp [foldl_time, foldl_time1, apply_ite State.time]

@[simp] theorem pendWrite_time : ∀ s n v, (pendWrite s n v).time = s.time := by
  intros; unfold pendWrite; simp [foldl_time, foldl_time1, apply_ite State.time]

@[simp] theorem claimRead_time : ∀ s i peek, (claimRead s i peek).1.time = s.time := by
  intros; unfold claimRead; simp [foldl_time, foldl_time1, apply_ite State.time]
  (repeat' split) <;> simp [*, foldl_time, foldl_time1, apply_ite State.time]

@[simp] theorem swraise_time : ∀ s v, (swraise s v).time = s.time := by
  intros; unfold swraise; simp [foldl_time, foldl_time1, apply_ite State.time]

@[simp] theorem wdtStage_time : ∀ s stage, (wdtStage s stage).time = s.time := by
  intros; unfold wdtStage; simp

@[simp] theorem wdtCtrlWrite_time : ∀ s v, (wdtCtrlWrite s v).time = s.time := by
  intros; unfold wdtCtrlWrite; simp [foldl_time, foldl_time1, apply_ite State.time]

@[simp] theorem wdtKick_time : ∀ s v, (wdtKick s v).time = s.time := by
  intros; unfold wdtKick; simp [foldl_time, foldl_time1, apply_ite State.time]

/-! Clock.lean -/

@[simp] theorem hangEnds_time : ∀ s relock, (∀ t, (relock t).time = t.time) → (hangEnds s relock).time = s.time := by
  intro s relock h; unfold hangEnds; split <;> simp [h]

@[simp] theorem fallBack_time : ∀ s src, (fallBack s src).time = s.time := by
  intros; unfold fallBack; try simp [foldl_time, foldl_time1, apply_ite State.time]
  all_goals (repeat' split) <;> simp [*, foldl_time, foldl_time1, apply_ite State.time]

@[simp] theorem tripRecord_time : ∀ s src, (tripRecord s src).time = s.time := by
  intros; unfold tripRecord; try simp [foldl_time, foldl_time1, apply_ite State.time]
  all_goals (repeat' split) <;> simp [*, foldl_time, foldl_time1, apply_ite State.time]

@[simp] theorem vsetWrite_time : ∀ s v, (vsetWrite s v).time = s.time := by
  intros; unfold vsetWrite; simp [foldl_time, foldl_time1, apply_ite State.time]

@[simp] theorem slip_time : ∀ s, (slip s).time = s.time := by
  intros; unfold slip; simp [foldl_time, foldl_time1, apply_ite State.time]

@[simp] theorem selfRefresh_time : ∀ s b, (selfRefresh s b).time = s.time := by
  intros; unfold selfRefresh; simp [foldl_time, foldl_time1, apply_ite State.time]

@[simp] theorem switchStep1_time : ∀ s, (switchStep1 s).time = s.time := by
  intros; unfold switchStep1; try simp [foldl_time, foldl_time1, apply_ite State.time]
  all_goals (repeat' split) <;> simp [*, foldl_time, foldl_time1, apply_ite State.time]

@[simp] theorem rootWrite_time : ∀ s v, (rootWrite s v).time = s.time := by
  intros; unfold rootWrite; simp [foldl_time, foldl_time1, apply_ite State.time]

@[simp] theorem rootStop_time : ∀ s, (rootStop s).time = s.time := by
  intros; unfold rootStop; try simp [foldl_time, foldl_time1, apply_ite State.time]
  all_goals (repeat' split) <;> simp [*, foldl_time, foldl_time1, apply_ite State.time]

@[simp] theorem rootRelock_time : ∀ s, (rootRelock s).time = s.time := by
  intros; unfold rootRelock; simp [foldl_time, foldl_time1, apply_ite State.time]

@[simp] theorem rootMux_time : ∀ s, (rootMux s).time = s.time := by
  intros; unfold rootMux; try simp [foldl_time, foldl_time1, apply_ite State.time]
  all_goals (repeat' split) <;> simp [*, foldl_time, foldl_time1, apply_ite State.time]

/-! Power.lean -/

@[simp] theorem entryRefuse_time : ∀ s block why, (entryRefuse s block why).time = s.time := by
  intros; unfold entryRefuse; simp

@[simp] theorem sensorsKept_time : ∀ old s, (sensorsKept old s).time = s.time := by
  intros; unfold sensorsKept; simp [foldl_time, foldl_time1, apply_ite State.time]

@[simp] theorem rcoSleep_time : ∀ s asleep, (rcoSleep s asleep).time = s.time := by
  intros; unfold rcoSleep; try simp [foldl_time, foldl_time1, apply_ite State.time]
  all_goals (repeat' split) <;> simp [*, foldl_time, foldl_time1, apply_ite State.time]

@[simp] theorem entryFence_time : ∀ s, (entryFence s).time = s.time := by
  intros; unfold entryFence; try simp [foldl_time, foldl_time1, apply_ite State.time]
  all_goals (repeat' split) <;> simp [*, foldl_time, foldl_time1, apply_ite State.time]

@[simp] theorem latchWake_time : ∀ s bit, (latchWake s bit).time = s.time := by
  intros; unfold latchWake; simp

@[simp] theorem recordWake_time : ∀ s from_, (recordWake s from_).time = s.time := by
  intros; unfold recordWake; simp

@[simp] theorem residencyRead_time : ∀ s m, (residencyRead s m).1.time = s.time := by
  intros; unfold residencyRead; simp

/-! Thermal.lean -/

@[simp] theorem sampleSensor_time : ∀ failed s nr, (sampleSensor failed s nr).time = s.time := by
  intros; unfold sampleSensor; simp [foldl_time, foldl_time1, apply_ite State.time]

@[simp] theorem trimCompensate_time : ∀ s, (trimCompensate s).time = s.time := by
  intros; unfold trimCompensate; simp [foldl_time, foldl_time1, apply_ite State.time]

@[simp] theorem sampleJudge_time : ∀ s, (sampleJudge s).time = s.time := by
  intros; unfold sampleJudge; simp [foldl_time, foldl_time1, apply_ite State.time]

@[simp] theorem sampleRate_time : ∀ s step, (sampleRate s step).time = s.time := by
  intros; unfold sampleRate; simp [foldl_time, foldl_time1, apply_ite State.time]

@[simp] theorem setStep_time : ∀ s n, (setStep s n).time = s.time := by
  intros; unfold setStep; simp

@[simp] theorem stepTo_time : ∀ s n, (stepTo s n).time = s.time := by
  intros; unfold stepTo; try simp [foldl_time, foldl_time1, apply_ite State.time]
  all_goals (repeat' split) <;> simp [*, foldl_time, foldl_time1, apply_ite State.time]

@[simp] theorem thmPlWrite_time : ∀ s v, (thmPlWrite s v).time = s.time := by
  intros; unfold thmPlWrite; simp [foldl_time, foldl_time1, apply_ite State.time]

@[simp] theorem thmCtrlWrite_time : ∀ s v, (thmCtrlWrite s v).time = s.time := by
  intros; unfold thmCtrlWrite; simp [foldl_time, foldl_time1, apply_ite State.time]

/-! Scrub.lean -/

@[simp] theorem State.setScrub_time : ∀ s sec x, (State.setScrub s sec x).time = s.time := by
  intros; unfold State.setScrub; simp

@[simp] theorem pwrite_time : ∀ s sec w v, (pwrite s sec w v).time = s.time := by
  intros; unfold pwrite; simp

@[simp] theorem keepPolicy_time : ∀ s sec, (keepPolicy s sec).time = s.time := by
  intros; unfold keepPolicy; try simp [foldl_time, foldl_time1, apply_ite State.time]
  all_goals (repeat' split) <;> simp [*, foldl_time, foldl_time1, apply_ite State.time]

@[simp] theorem pstoreWrite_time : ∀ s sec w v, (pstoreWrite s sec w v).time = s.time := by
  intros; unfold pstoreWrite; simp [foldl_time, foldl_time1, apply_ite State.time]
  (repeat' split) <;> simp [*, foldl_time, foldl_time1, apply_ite State.time]

@[simp] theorem sweepCopies_time : ∀ s sec i, (sweepCopies s sec i).time = s.time := by
  intros; rfl

@[simp] theorem setSweep_time : ∀ s sec i, (setSweep s sec i).time = s.time := by
  intros; unfold setSweep; simp

@[simp] theorem holdBegin_time : ∀ s sec, (holdBegin s sec).time = s.time := by
  intros; unfold holdBegin; simp

@[simp] theorem leaveFailed_time : ∀ s sec, (leaveFailed s sec).time = s.time := by
  intros; unfold leaveFailed; dsimp only; split <;> simp [apply_ite State.time]

@[simp] theorem dueStep_time : ∀ s sec, (dueStep s sec).time = s.time := by
  intros
  unfold dueStep; dsimp only
  rw [foldl_time _ (fun _ _ => by split <;> simp)]; simp

@[simp] theorem slotBegins_time : ∀ s, (slotBegins s).time = s.time := by
  intros; unfold slotBegins; try simp [foldl_time, foldl_time1, apply_ite State.time]
  all_goals (repeat' split) <;> simp [*, foldl_time, foldl_time1, apply_ite State.time]

@[simp] theorem setRfxq_time : ∀ s q, (setRfxq s q).time = s.time := by
  intros; unfold setRfxq; simp

@[simp] theorem uncFound_time : ∀ s sec key policy, (uncFound s sec key policy).time = s.time := by
  intros; unfold uncFound; simp [foldl_time, foldl_time1, apply_ite State.time]

@[simp] theorem sweepWord_time : ∀ sec s i, (sweepWord sec s i).time = s.time := by
  intros; unfold sweepWord; simp [foldl_time, foldl_time1, apply_ite State.time]
  (repeat' split) <;> simp [*, foldl_time, foldl_time1, apply_ite State.time]

@[simp] theorem sweepBegin_time : ∀ s sec, (sweepBegin s sec).time = s.time := by
  intros; unfold sweepBegin; simp [foldl_time, foldl_time1, apply_ite State.time]

@[simp] theorem sweepCounts_time : ∀ s sec, (sweepCounts s sec).time = s.time := by
  intros; unfold sweepCounts; simp

@[simp] theorem scrubFix_time : ∀ s sec, (scrubFix s sec).time = s.time := by
  intros; unfold scrubFix; simp [foldl_time, foldl_time1, apply_ite State.time]

@[simp] theorem scrubFixes_time : ∀ s, (scrubFixes s).time = s.time := by
  intros; unfold scrubFixes; simp [foldl_time, foldl_time1, apply_ite State.time]

@[simp] theorem blockRepaired_time : ∀ s b, (blockRepaired s b).time = s.time := by
  intros; unfold blockRepaired; simp [foldl_time, foldl_time1, apply_ite State.time]

@[simp] theorem blockFailed_time : ∀ s b, (blockFailed s b).time = s.time := by
  intros; unfold blockFailed; simp

@[simp] theorem scrubRetry_time : ∀ s sec, (scrubRetry s sec).time = s.time := by
  intros; unfold scrubRetry; simp [foldl_time, foldl_time1, apply_ite State.time]

/-! CfgPort.lean -/

@[simp] theorem flashBytes_time : ∀ s a n, (flashBytes s a n).1.time = s.time := by
  intros; unfold flashBytes; simp [foldl_time, foldl_time1, apply_ite State.time]
  (repeat' split) <;> simp [*, foldl_time, foldl_time1, apply_ite State.time]

@[simp] theorem flStart_time : ∀ s, (flStart s).time = s.time := by
  intros; unfold flStart; try simp [foldl_time, foldl_time1, apply_ite State.time]
  all_goals (repeat' split) <;> simp [*, foldl_time, foldl_time1, apply_ite State.time]

@[simp] theorem flCmdWrite_time : ∀ s v, (flCmdWrite s v).time = s.time := by
  intros; unfold flCmdWrite; simp [foldl_time, foldl_time1, apply_ite State.time]

@[simp] theorem flRead_time : ∀ s page, (flRead s page).time = s.time := by
  intros
  unfold flRead
  exact foldl_time _ (fun _ _ => by dsimp only; split <;> simp) _ _

@[simp] theorem setSpace_time : ∀ s, (setSpace s).time = s.time := by
  intros; unfold setSpace; simp

@[simp] theorem orphanWrites_time : ∀ s, (orphanWrites s).time = s.time := by
  intros; unfold orphanWrites; simp

@[simp] theorem consume_time : ∀ s n, (consume s n).time = s.time := by
  intros; unfold consume; simp [foldl_time, foldl_time1, apply_ite State.time]
  (repeat' split) <;> simp [*, foldl_time, foldl_time1, apply_ite State.time]

@[simp] theorem partialStart_time : ∀ s src base, (partialStart s src base).time = s.time := by
  intros; unfold partialStart; simp [foldl_time, foldl_time1, apply_ite State.time]

@[simp] theorem spWord_time : ∀ s v, (spWord s v).1.time = s.time := by
  intros; unfold spWord; simp [foldl_time, foldl_time1, apply_ite State.time]
  (repeat' split) <;> simp [*, foldl_time, foldl_time1, apply_ite State.time]

@[simp] theorem releaseDone_time : ∀ s, (releaseDone s).time = s.time := by
  intros; unfold releaseDone; simp

@[simp] theorem cfgCtrlWrite_time : ∀ s v, (cfgCtrlWrite s v).time = s.time := by
  intros; unfold cfgCtrlWrite; simp [foldl_time, foldl_time1, apply_ite State.time]

/-! Steward.lean -/

@[simp] theorem coreTrap_time : ∀ s i cause int tval, (coreTrap s i cause int tval).time = s.time := by
  intros; unfold coreTrap; simp

@[simp] theorem coreTrapFree_time : ∀ s i cause, (coreTrapFree s i cause).time = s.time := by
  intros; unfold coreTrapFree; simp

@[simp] theorem csrRead_time : ∀ s i n, (csrRead s i n).1.time = s.time := by
  intros
  unfold csrRead
  repeat (refine fst_ite_time ?_ ?_; · rfl)
  rfl

@[simp] theorem writeBack_time : ∀ s i k line, (writeBack s i k line).time = s.time := by
  intros; unfold writeBack; simp [foldl_time, foldl_time1, apply_ite State.time]
  (repeat' split) <;> simp [*, foldl_time, foldl_time1, apply_ite State.time]

@[simp] theorem dEvict_time : ∀ s i k line wb, (dEvict s i k line wb).time = s.time := by
  intros; unfold dEvict; simp [foldl_time, foldl_time1, apply_ite State.time]

@[simp] theorem dInstall_time : ∀ s i line st key data, (dInstall s i line st key data).time = s.time := by
  intros; unfold dInstall; simp [foldl_time, foldl_time1, apply_ite State.time]
  (repeat' split) <;> simp [*, foldl_time, foldl_time1, apply_ite State.time]

@[simp] theorem sendSnp_time : ∀ s at_ f dst, (sendSnp s at_ f dst).time = s.time := by
  intros; unfold sendSnp; simp

@[simp] theorem askHub_time : ∀ s i kind line addr, (askHub s i kind line addr).time = s.time := by
  intros; unfold askHub; (try dsimp only)
  (repeat' split) <;> simp [*, foldl_time, foldl_time1, apply_ite State.time]

@[simp] theorem hubServe_time : ∀ s line, (hubServe s line).time = s.time := by
  intros; unfold hubServe; simp [foldl_time, foldl_time1, apply_ite State.time]
  (repeat' split) <;> simp [*, foldl_time, foldl_time1, apply_ite State.time]

@[simp] theorem snoopAct_time : ∀ s j f, (snoopAct s j f).time = s.time := by
  intros; unfold snoopAct; simp [foldl_time, foldl_time1, apply_ite State.time]
  (repeat' split) <;> simp [*, foldl_time, foldl_time1, apply_ite State.time]

@[simp] theorem sendAcks_time : ∀ s j, (sendAcks s j).time = s.time := by
  intros; unfold sendAcks; simp [foldl_time, foldl_time1, apply_ite State.time]

@[simp] theorem hubGrant_time : ∀ s h err, (hubGrant s h err).time = s.time := by
  intros; unfold hubGrant; simp

@[simp] theorem lateDrop_time : ∀ s, (lateDrop s).time = s.time := by
  intros; unfold lateDrop; simp

@[simp] theorem sendDone_time : ∀ s i line, (sendDone s i line).time = s.time := by
  intros; unfold sendDone; simp

@[simp] theorem cohRead_time : ∀ s i kind line addr stage, (cohRead s i kind line addr stage).time = s.time := by
  intros; unfold cohRead; simp

@[simp] theorem cohOwn_time : ∀ s i kind line addr, (cohOwn s i kind line addr).time = s.time := by
  intros; unfold cohOwn; simp [foldl_time, foldl_time1, apply_ite State.time]
  (repeat' split) <;> simp [*, foldl_time, foldl_time1, apply_ite State.time]

/-! StewardExec.lean -/

@[simp] theorem iFill_time : ∀ s i line a, (iFill s i line a).time = s.time := by
  intros; unfold iFill; simp [foldl_time, foldl_time1, apply_ite State.time]

@[simp] theorem iInstall_time : ∀ s i line data, (iInstall s i line data).time = s.time := by
  intros; unfold iInstall; simp [foldl_time, foldl_time1, apply_ite State.time]
  (repeat' split) <;> simp [*, foldl_time, foldl_time1, apply_ite State.time]

@[simp] theorem fetchHalf_time : ∀ s i a, (fetchHalf s i a).1.time = s.time := by
  intros; unfold fetchHalf; simp [foldl_time, foldl_time1, apply_ite State.time]
  (repeat' split) <;> simp [*, foldl_time, foldl_time1, apply_ite State.time]

@[simp] theorem coreFetch_time : ∀ s i, (coreFetch s i).1.time = s.time := by
  intros
  rename_i s i
  unfold coreFetch; dsimp only
  have h := fetchHalf_time s i (s.core i).pc
  generalize fetchHalf s i (s.core i).pc = p at h ⊢
  obtain ⟨s1, o⟩ := p
  cases o with
  | none => exact h
  | some lo =>
    have h2 := fetchHalf_time s1 i (((s.core i).pc + 2) % 2 ^ 64)
    dsimp only at h ⊢
    split
    · exact h
    · generalize fetchHalf s1 i (((s.core i).pc + 2) % 2 ^ 64) = q at h2 ⊢
      obtain ⟨s2, o2⟩ := q
      cases o2 <;> exact h2.trans h

@[simp] theorem coreRetire_time : ∀ s i npc, (coreRetire s i npc).time = s.time := by
  intros; unfold coreRetire; simp

@[simp] theorem coreFinish_time : ∀ s i npc rd v, (coreFinish s i npc rd v).time = s.time := by
  intros; unfold coreFinish; simp

@[simp] theorem coreRow_time : ∀ s i mine run, (∀ t j l, (run t j l).time = t.time) → ResTime s (coreRow s i mine run)
    := by
  intros
  rename_i s i mine run hr
  have h := coreFetch_time s i
  unfold coreRow
  split
  · generalize coreFetch s i = p at h ⊢
    obtain ⟨s1, o⟩ := p
    dsimp only at h
    cases o with
    | none => simpa using h
    | some il => dsimp only; split <;> simp [hr, h]
  · simp

@[simp] theorem dWord_time : ∀ s i k line j, (dWord s i k line j).1.time = s.time := by
  intros; unfold dWord; simp [foldl_time, foldl_time1, apply_ite State.time]
  (repeat' split) <;> simp [*, foldl_time, foldl_time1, apply_ite State.time]

@[simp] theorem uncached_time : ∀ s i op size a data note, (uncached s i op size a data note).time = s.time := by
  intros; unfold uncached; simp [foldl_time, foldl_time1, apply_ite State.time]

@[simp] theorem coreLoad_time : ∀ s i rd a size signed npc, (coreLoad s i rd a size signed npc).time = s.time := by
  intros
  rename_i s i rd a size signed npc
  unfold coreLoad; dsimp only
  split
  · simp
  · split
    · split
      · simp
      · rename_i k _
        have h := dWord_time s i k (a / 64) (a % 64 / 8)
        generalize dWord s i k (a / 64) (a % 64 / 8) = p at h ⊢
        obtain ⟨s1, o, b⟩ := p
        cases o <;> cases b <;> simpa using h
    · split <;> simp

@[simp] theorem ownLine_time : ∀ s i line a lr, (ownLine s i line a lr).1.time = s.time := by
  intros; unfold ownLine; (repeat' split) <;> simp

@[simp] theorem ownWord_time : ∀ s i line a lr, (ownWord s i line a lr).1.time = s.time := by
  intros
  rename_i s i line a lr
  unfold ownWord
  split
  · simp
  · rename_i k _
    have h := dWord_time s i k line (a % 64 / 8)
    split <;> rename_i e <;> rw [e] at h
    · rename_i s1 v _
      have h2 := ownLine_time s1 i line a lr
      split <;> rename_i e2 <;> rw [e2] at h2 <;> simp_all
    · simpa using h
    · simpa using h

@[simp] theorem coreStore_time : ∀ s i a size v npc, (coreStore s i a size v npc).time = s.time := by
  intros
  rename_i s i a size v npc
  unfold coreStore; dsimp only
  split
  · simp
  · split
    · split
      · have h := ownLine_time s i (a / 64) a false
        generalize ownLine s i (a / 64) a false = p at h ⊢
        obtain ⟨s1, o⟩ := p
        cases o <;> simpa using h
      · have h := ownWord_time s i (a / 64) a false
        generalize ownWord s i (a / 64) a false = p at h ⊢
        obtain ⟨s1, o⟩ := p
        cases o <;> simpa using h
    · split <;> simp

@[simp] theorem coreCsr_time : ∀ s i f3 rd rs1 num npc, (coreCsr s i f3 rd rs1 num npc).time = s.time := by
  intros
  rename_i s i f3 rd rs1 num npc
  have h := csrRead_time s i num
  unfold coreCsr; dsimp only
  generalize csrRead s i num = p at h ⊢
  obtain ⟨s1, o⟩ := p
  cases o with
  | none => simp
  | some old =>
    dsimp only at h ⊢
    split
    · simp
    · split <;> simpa using h

@[simp] theorem coreMret_time : ∀ s i, (coreMret s i).time = s.time := by
  intros; unfold coreMret; simp

@[simp] theorem coreRun_time : ∀ s i ins len, (coreRun s i ins len).time = s.time := by
  intros; unfold coreRun; simp [foldl_time, foldl_time1, apply_ite State.time]
  (repeat' split) <;> simp [*, foldl_time, foldl_time1, apply_ite State.time]

@[simp] theorem wfiEnd_time : ∀ s i, (wfiEnd s i).time = s.time := by
  intros; unfold wfiEnd; simp

@[simp] theorem cboRun_time : ∀ s i rs1 type len, (cboRun s i rs1 type len).time = s.time := by
  intros; unfold cboRun; simp [foldl_time, foldl_time1, apply_ite State.time]

@[simp] theorem cboRow_time : ∀ s i kind type, ResTime s (cboRow s i kind type) := by
  intros
  unfold cboRow
  refine coreRow_time _ _ _ _ (fun _ _ _ => ?_)
  split
  · simp
  · rfl

@[simp] theorem cachedAmo_time : ∀ s i a size rd npc f resv lr, (cachedAmo s i a size rd npc f resv lr).time = s.time := by
  intros
  rename_i s i a size rd npc f resv lr
  have h := ownWord_time s i (a / 64) a lr
  unfold cachedAmo
  split <;> rename_i e <;> rw [e] at h <;> simpa using h

@[simp] theorem uncachedAmo_time : ∀ s i o rd rs2 a size npc, (uncachedAmo s i o rd rs2 a size npc).time = s.time :=
    by
  intros; unfold uncachedAmo; simp [foldl_time, foldl_time1, apply_ite State.time]
  (repeat' split) <;> simp [*, foldl_time, foldl_time1, apply_ite State.time]

@[simp] theorem amoRun_time : ∀ s i ins len, (amoRun s i ins len).time = s.time := by
  intros; unfold amoRun; simp [foldl_time, foldl_time1, apply_ite State.time]
  (repeat' split) <;> simp [*, foldl_time, foldl_time1, apply_ite State.time]

@[simp] theorem busErr_time : ∀ s i a status, (busErr s i a status).time = s.time := by
  intros; unfold busErr; simp

@[simp] theorem wbAnswered_time : ∀ s i o, (wbAnswered s i o).time = s.time := by
  intros; unfold wbAnswered; simp [foldl_time, foldl_time1, apply_ite State.time]
  (repeat' split) <;> simp [*, foldl_time, foldl_time1, apply_ite State.time]

@[simp] theorem cohInstall_time : ∀ s i key status data, (cohInstall s i key status data).time = s.time := by
  intros; unfold cohInstall; simp [foldl_time, foldl_time1, apply_ite State.time]
  (repeat' split) <;> simp [*, foldl_time, foldl_time1, apply_ite State.time]

@[simp] theorem stewardRespond_time : ∀ s o status data, (stewardRespond s o status data).time = s.time := by
  intros; unfold stewardRespond; simp [foldl_time, foldl_time1, apply_ite State.time]
  (repeat' split) <;> simp [*, foldl_time, foldl_time1, apply_ite State.time]

@[simp] theorem releaseCores_time : ∀ s, (releaseCores s).time = s.time := by
  intros; unfold releaseCores; simp [foldl_time, foldl_time1, apply_ite State.time]

/-! Gpio.lean -/

@[simp] theorem gpioBeat_time : ∀ s pins, (gpioBeat s pins).time = s.time := by
  intros; unfold gpioBeat; simp [foldl_time, foldl_time1, apply_ite State.time]

@[simp] theorem gpioTake_time : ∀ s0 s, (gpioTake s0 s).time = s.time := by
  intros; exact rfl

@[simp] theorem gpioSlot_time : ∀ s pins, (gpioSlot s pins).time = s.time := by
  intros; unfold gpioSlot; simp [foldl_time, foldl_time1, apply_ite State.time]

/-! LinkTest.lean -/

@[simp] theorem curWrite_time : ∀ s v, (curWrite s v).time = s.time := by
  intros; unfold curWrite; simp [foldl_time, foldl_time1, apply_ite State.time]

@[simp] theorem rtWrite_time : ∀ s v, (rtWrite s v).time = s.time := by
  intros; unfold rtWrite; simp [foldl_time, foldl_time1, apply_ite State.time]

@[simp] theorem rtOpen_time : ∀ s, (rtOpen s).time = s.time := by
  intros; unfold rtOpen; simp [foldl_time, foldl_time1, apply_ite State.time]
  (repeat' split) <;> simp [*, foldl_time, foldl_time1, apply_ite State.time]

@[simp] theorem rtSlot_time : ∀ s, (rtSlot s).time = s.time := by
  intros; unfold rtSlot; simp [foldl_time, foldl_time1, apply_ite State.time]
  (repeat' split) <;> simp [*, foldl_time, foldl_time1, apply_ite State.time]

@[simp] theorem rtAbort_time : ∀ s, (rtAbort s).time = s.time := by
  intros; unfold rtAbort; simp [foldl_time, foldl_time1, apply_ite State.time]
  (repeat' split) <;> simp [*, foldl_time, foldl_time1, apply_ite State.time]

@[simp] theorem rtGroup_time : ∀ s pair place repair bad, (rtGroup s pair place repair bad).time = s.time := by
  intros
  unfold rtGroup; dsimp only
  rw [foldl_time _ (fun _ _ => by simp)]
  refine foldl_time _ (fun _ _ => ?_) _ _
  split
  · split
    · split <;> simp
    · simp
  · rfl

/-! RegWrite.lean -/

@[simp] theorem genericWrite_time : ∀ s o v, (genericWrite s o v).time = s.time := by
  intros; unfold genericWrite; simp [foldl_time, foldl_time1, apply_ite State.time]
  (repeat' split) <;> simp [*, foldl_time, foldl_time1, apply_ite State.time]

@[simp] theorem genericRead_time : ∀ s o peek, (genericRead s o peek).1.time = s.time := by
  intros; unfold genericRead; simp [foldl_time, foldl_time1, apply_ite State.time]
  (repeat' split) <;> simp [*, foldl_time, foldl_time1, apply_ite State.time]

@[simp] theorem writeVault_time : ∀ s o v id, OptTime s (writeVault s o v id) := by
  intros
  unfold writeVault; (try dsimp only)
  repeat' split
  all_goals first | (simp; done) | (simp [apply_ite State.time]; done) | skip

@[simp] theorem writeService_time : ∀ s o v id, OptTime s (writeService s o v id) := by
  intros
  unfold writeService; (try dsimp only)
  repeat' split
  all_goals first | (simp; done) | (simp [apply_ite State.time]; done) | skip

@[simp] theorem writeLane_time : ∀ s o v, OptTime s (writeLane s o v) := by
  intros
  unfold writeLane; (try dsimp only)
  repeat' split
  all_goals first | (simp; done) | (simp [apply_ite State.time]; done) | skip

@[simp] theorem portOwner_time : ∀ s t id kind sec busy, (portOwner s t id kind sec busy).time = t.time := by
  intros; unfold portOwner; simp [foldl_time, foldl_time1, apply_ite State.time]

@[simp] theorem writeSector_time : ∀ s o v id, OptTime s (writeSector s o v id) := by
  intros
  unfold writeSector; (try dsimp only)
  repeat' split
  all_goals first | (simp; done) | (simp [apply_ite State.time]; done) | skip

@[simp] theorem specialRead_time : ∀ s o peek id, OptTime s (specialRead s o peek id) := by
  intros
  unfold specialRead; dsimp only
  repeat' (refine opt_ite_time ?_ ?_)
  all_goals first | exact optTime_map _ _ _ _ rfl | (simp; done) | (split <;> (try split) <;> simp)

@[simp] theorem regRead_time : ∀ s o peek id, (regRead s o peek id).1.time = s.time := by
  intros
  rename_i s o peek id
  have h := specialRead_time s o peek id
  unfold regRead
  split
  · rfl
  · generalize specialRead s o peek id = p at h ⊢
    cases p with
    | none => simp
    | some q => simpa using h

/-! NocServe.lean -/

@[simp] theorem sramRead_time : ∀ s w, (sramRead s w).1.time = s.time := by
  intros; unfold sramRead; (try dsimp only)
  (repeat' split) <;> simp [*, foldl_time, foldl_time1, apply_ite State.time]

@[simp] theorem ramLine_time : ∀ p s w, PortTime p → (ramLine p s w).1.time = s.time := by
  intros
  rename_i p s w h
  unfold ramLine
  refine foldl_time1 _ (fun a x => ?_) _ _
  exact h.1 _ _

@[simp] theorem serveRam_time : ∀ p a s w r, PortTime p → ServedTime s (serveRam p a s w r) := by
  intros
  rename_i p a s w r h
  have hl := ramLine_time p s w h
  have hr := h.2.1 s w
  have hk := h.1 s w
  unfold serveRam
  split
  · simp
  · split
    · dsimp only
      split <;> split <;> first | exact hl | exact hk
    · split
      · simp
      · split
        · exact h.2.2 _ _ _ _
        · dsimp only; split
          · exact (h.2.2 _ _ _ _).trans hr
          · exact hr
    · exact foldl_time _ (fun _ _ => h.2.2 _ _ _ _) _ _
    · dsimp only
      split
      · simp
      · split
        · simp
        · split
          · exact (h.2.2 _ _ _ _).trans hr
          · exact hr

@[simp] theorem serveTram_time : ∀ s sec r, ServedTime s (serveTram s sec r) := by
  intros
  rename_i s sec r
  unfold serveTram; dsimp only
  split
  · simp
  · split
    · simp
    · have h := serveRam_time (tramPort sec) false (setRamCycle s sec { ramCycle s sec with net := true }) (r.addr % 0x10000 / 8) r
        ⟨fun _ _ => by simp [tramPort], fun _ _ => by simp [tramPort], fun _ _ _ _ => by simp [tramPort]⟩
      have e := setRamCycle_time s sec { ramCycle s sec with net := true }
      generalize serveRam _ _ _ _ _ = v at h ⊢
      cases v <;> simp_all [ServedTime]

@[simp] theorem serveBank_time : ∀ s b r, ServedTime s (serveBank s b r) := by
  intros; unfold serveBank; simp [foldl_time, foldl_time1, apply_ite State.time]
  (repeat' split) <;> simp [*, foldl_time, foldl_time1, apply_ite State.time]

@[simp] theorem dbgRespond_time : ∀ s o status data, (dbgRespond s o status data).time = s.time := by
  intros; unfold dbgRespond; simp [foldl_time, foldl_time1, apply_ite State.time]

/-! Debug.lean -/

@[simp] theorem tapLoad_time : ∀ s code dr, (tapLoad s code dr).time = s.time := by
  intros; unfold tapLoad; simp

@[simp] theorem extestRun_time : ∀ s code pins v, (extestRun s code pins v).time = s.time := by
  intros; unfold extestRun; simp

@[simp] theorem engineBusy_time : ∀ s i2c, (engineBusy s i2c).time = s.time := by
  intros
  unfold engineBusy; simp

@[simp] theorem engineAnswer_time : ∀ s r v, ServedTime s v → (engineAnswer s r v).time = s.time := by
  intros
  rename_i s r v h
  cases v with
  | answer s1 st d => exact (dbgRespond_time _ _ _ _).trans h
  | taken s1 => rfl
  | waits => rfl

@[simp] theorem resumeNow_time : ∀ s, (resumeNow s).time = s.time := by
  intros; unfold resumeNow; simp [foldl_time, foldl_time1, apply_ite State.time]

@[simp] theorem haltNow_time : ∀ s, (haltNow s).time = s.time := by
  intros; unfold haltNow; simp [foldl_time, foldl_time1, apply_ite State.time]

@[simp] theorem haltSlot_time : ∀ s, (haltSlot s).time = s.time := by
  intros; unfold haltSlot; simp [foldl_time, foldl_time1, apply_ite State.time]

@[simp] theorem i2cStop_time : ∀ s, (i2cStop s).time = s.time := by
  intros; unfold i2cStop; simp

/-! Loader.lean -/

@[simp] theorem ldFill_time : ∀ s, (ldFill s).time = s.time := by
  intros; unfold ldFill; simp [foldl_time, foldl_time1, apply_ite State.time]

@[simp] theorem ldRead_time : ∀ s n, (ldRead s n).1.time = s.time := by
  intros
  rename_i s n
  unfold ldRead
  split
  · rfl
  · have h := flashBytes_time s (s.ld.base + s.ld.pos) n
    generalize flashBytes s (s.ld.base + s.ld.pos) n = p at h ⊢
    obtain ⟨s1, o⟩ := p
    cases o <;> exact h

@[simp] theorem ldSkip_time : ∀ s n, (ldSkip s n).time = s.time := by
  intros; unfold ldSkip; simp

@[simp] theorem flashHeader_time : ∀ s base room, (flashHeader s base room).1.time = s.time := by
  intros
  rename_i s base room
  unfold flashHeader
  split
  · rfl
  · split
    · rfl
    · have h := flashBytes_time s base 128
      generalize flashBytes s base 128 = p at h ⊢
      obtain ⟨s1, o⟩ := p
      cases o <;> exact h

@[simp] theorem copyHeader_time : ∀ s src, (copyHeader s src).1.time = s.time := by
  intros
  rename_i s src
  have h := flashHeader_time s (copyBase src) 0x70000000
  unfold copyHeader
  generalize flashHeader s (copyBase src) 0x70000000 = p at h ⊢
  obtain ⟨s1, o⟩ := p
  cases o <;> exact h

@[simp] theorem openStream_time : ∀ s hdr key, (openStream s hdr key).time = s.time := by
  intros; unfold openStream; simp

@[simp] theorem bootHeader_time : ∀ s, (bootHeader s).time = s.time := by
  intros; unfold bootHeader; simp [foldl_time, foldl_time1, apply_ite State.time]
  (repeat' split) <;> simp [*, foldl_time, foldl_time1, apply_ite State.time]

@[simp] theorem escrowEnter_time : ∀ s secs planes, (escrowEnter s secs planes).time = s.time := by
  intros; unfold escrowEnter; simp [foldl_time, foldl_time1, apply_ite State.time]

@[simp] theorem loaderWrite_time : ∀ s size addr data note aux, (loaderWrite s size addr data note aux).time = s.time := by
  intros; unfold loaderWrite; try simp [foldl_time, foldl_time1, apply_ite State.time]
  all_goals (repeat' split) <;> simp [*, foldl_time, foldl_time1, apply_ite State.time]

@[simp] theorem postWord_time : ∀ body at_ s, (postWord body at_ s).time = s.time := by
  intros; unfold postWord; simp

@[simp] theorem postWords_time : ∀ s body at_ count, (postWords s body at_ count).time = s.time := by
  intros; unfold postWords; simp [foldl_time, foldl_time1, apply_ite State.time]

@[simp] theorem putBlock_time : ∀ s b words, (putBlock s b words).time = s.time := by
  intros; unfold putBlock; simp

@[simp] theorem rfxNote_time : ∀ s b, (rfxNote s b).time = s.time := by
  intros; unfold rfxNote; simp [foldl_time, foldl_time1, apply_ite State.time]

@[simp] theorem frameBlock_time : ∀ s b words bad, (frameBlock s b words bad).1.time = s.time := by
  intros; unfold frameBlock; simp [foldl_time, foldl_time1, apply_ite State.time]
  (repeat' split) <;> simp [*, foldl_time, foldl_time1, apply_ite State.time]

@[simp] theorem framesBlocks_time : ∀ s body first count bad, (framesBlocks s body first count bad).1.time = s.time :=
    by
  intros
  unfold framesBlocks
  exact foldl_time1 _ (fun _ _ => by split <;> simp) _ _

@[simp] theorem portWrites_time : ∀ s sec kind i w, (portWrites s sec kind i w).time = s.time := by
  intros; unfold portWrites; simp

@[simp] theorem portRecord_time : ∀ s body sec kind start count, (portRecord s body sec kind start count).time =
    s.time := by
  intros; unfold portRecord; simp [foldl_time, foldl_time1, apply_ite State.time]
  (repeat' split) <;> simp [*, foldl_time, foldl_time1, apply_ite State.time]

@[simp] theorem streamDone_time : ∀ s, (streamDone s).time = s.time := by
  intros; unfold streamDone; simp

@[simp] theorem fullDone_time : ∀ s, (fullDone s).time = s.time := by
  intros; unfold fullDone; simp [foldl_time, foldl_time1, apply_ite State.time]

@[simp] theorem partialDone_time : ∀ s, (partialDone s).time = s.time := by
  intros; unfold partialDone; simp [foldl_time, foldl_time1, apply_ite State.time]

@[simp] theorem refetchWords_time : ∀ s e b, (refetchWords s e b).1.time = s.time := by
  intros
  rename_i s e b
  unfold refetchWords; dsimp only
  generalize 80 + (match (flashBytes s e.addr 32).2 with | some h => leNat (slice h 4 4) | none => 0) = n
  split
  · rfl
  · have h := flashBytes_time s e.addr n
    generalize flashBytes s e.addr n = p at h ⊢
    obtain ⟨s1, o⟩ := p
    cases o with
    | none => exact h
    | some seg =>
      dsimp only
      split
      · split <;> exact h
      · exact h

/-! Slot.lean -/

@[simp] theorem userEvents_time : ∀ s0 s secs, (userEvents s0 s secs).time = s.time := by
  intros; unfold userEvents; simp [foldl_time, foldl_time1, apply_ite State.time]

/-! Frame.lean -/

@[simp] theorem overdraft_time : ∀ s sec, (overdraft s sec).time = s.time := by
  intros; unfold overdraft; simp

@[simp] theorem frameClear_time : ∀ s, (frameClear s).time = s.time := by
  intros; unfold frameClear; simp [foldl_time, foldl_time1, apply_ite State.time]

@[simp] theorem frameSeal_time : ∀ s early, (frameSeal s early).time = s.time := by
  intros; unfold frameSeal; simp [foldl_time, foldl_time1, apply_ite State.time]

@[simp] theorem policySample_time : ∀ s, (policySample s).time = s.time := by
  intros; unfold policySample; simp

@[simp] theorem openWindow_time : ∀ s, (openWindow s).time = s.time := by
  intros; unfold openWindow; simp

@[simp] theorem setResetRelease_time : ∀ s, (setResetRelease s).time = s.time := by
  intros; unfold setResetRelease; simp

end Sys2Proof.Machine
end

