-- ==== Sys2Proof/Laws/State.lean ====
section
/-!
SUPPORT. One lemma for each field of State under each of the updates that every unit uses, so that no proof unfolds a record
update: a write of a register or a field changes `regs` alone, what hardware sets is recorded in `cyc`, a raised event changes
`raised` and `cyc`.
-/

namespace Sys2Proof.Machine

variable (s : State)

/-! ### setReg -/

@[simp] theorem setReg_pending (o : Nat) (v : Word32) : (s.setReg o v).pending = s.pending := rfl
@[simp] theorem setReg_resp (o : Nat) (v : Word32) : (s.setReg o v).resp = s.resp := rfl
@[simp] theorem setReg_fresh (o : Nat) (v : Word32) : (s.setReg o v).fresh = s.fresh := rfl
@[simp] theorem setReg_raised (o : Nat) (v : Word32) : (s.setReg o v).raised = s.raised := rfl
@[simp] theorem setReg_cyc (o : Nat) (v : Word32) : (s.setReg o v).cyc = s.cyc := rfl
@[simp] theorem setReg_clockOn (o : Nat) (v : Word32) : (s.setReg o v).clockOn = s.clockOn := rfl
@[simp] theorem setReg_time (o : Nat) (v : Word32) : (s.setReg o v).time = s.time := rfl
@[simp] theorem setReg_schedPend (o : Nat) (v : Word32) : (s.setReg o v).schedPend = s.schedPend := rfl
@[simp] theorem setReg_armFresh (o : Nat) (v : Word32) : (s.setReg o v).armFresh = s.armFresh := rfl
@[simp] theorem setReg_cfgw (o : Nat) (v : Word32) : (s.setReg o v).cfgw = s.cfgw := rfl
@[simp] theorem setReg_sreg (o : Nat) (v : Word32) : (s.setReg o v).sreg = s.sreg := rfl
@[simp] theorem setReg_wreg (o : Nat) (v : Word32) : (s.setReg o v).wreg = s.wreg := rfl
@[simp] theorem setReg_vheld (o : Nat) (v : Word32) : (s.setReg o v).vheld = s.vheld := rfl
@[simp] theorem setReg_sweepDone (o : Nat) (v : Word32) : (s.setReg o v).sweepDone = s.sweepDone := rfl
@[simp] theorem setReg_macAcc (o : Nat) (v : Word32) : (s.setReg o v).macAcc = s.macAcc := rfl
@[simp] theorem setReg_macPre (o : Nat) (v : Word32) : (s.setReg o v).macPre = s.macPre := rfl
@[simp] theorem setReg_macs (o : Nat) (v : Word32) : (s.setReg o v).macs = s.macs := rfl
@[simp] theorem setReg_macWait (o : Nat) (v : Word32) : (s.setReg o v).macWait = s.macWait := rfl
@[simp] theorem setReg_rankers (o : Nat) (v : Word32) : (s.setReg o v).rankers = s.rankers := rfl
@[simp] theorem setReg_mstore (o : Nat) (v : Word32) : (s.setReg o v).mstore = s.mstore := rfl
@[simp] theorem setReg_matchers (o : Nat) (v : Word32) : (s.setReg o v).matchers = s.matchers := rfl
@[simp] theorem setReg_bmem (o : Nat) (v : Word32) : (s.setReg o v).bmem = s.bmem := rfl
@[simp] theorem setReg_banks (o : Nat) (v : Word32) : (s.setReg o v).banks = s.banks := rfl
@[simp] theorem setReg_bsel (o : Nat) (v : Word32) : (s.setReg o v).bsel = s.bsel := rfl
@[simp] theorem setReg_bdirty (o : Nat) (v : Word32) : (s.setReg o v).bdirty = s.bdirty := rfl
@[simp] theorem setReg_tally (o : Nat) (v : Word32) : (s.setReg o v).tally = s.tally := rfl
@[simp] theorem setReg_policy (o : Nat) (v : Word32) : (s.setReg o v).policy = s.policy := rfl
@[simp] theorem setReg_blk (o : Nat) (v : Word32) : (s.setReg o v).blk = s.blk := rfl
@[simp] theorem setReg_taint (o : Nat) (v : Word32) : (s.setReg o v).taint = s.taint := rfl
@[simp] theorem setReg_rsps (o : Nat) (v : Word32) : (s.setReg o v).rsps = s.rsps := rfl
@[simp] theorem setReg_fe (o : Nat) (v : Word32) : (s.setReg o v).fe = s.fe := rfl
@[simp] theorem setReg_refHz (o : Nat) (v : Word32) : (s.setReg o v).refHz = s.refHz := rfl
@[simp] theorem setReg_rootM (o : Nat) (v : Word32) : (s.setReg o v).rootM = s.rootM := rfl
@[simp] theorem setReg_phase (o : Nat) (v : Word32) : (s.setReg o v).phase = s.phase := rfl
@[simp] theorem setReg_dbgHalt (o : Nat) (v : Word32) : (s.setReg o v).dbgHalt = s.dbgHalt := rfl
@[simp] theorem setReg_netq (o : Nat) (v : Word32) : (s.setReg o v).netq = s.netq := rfl
@[simp] theorem setReg_netPtr (o : Nat) (v : Word32) : (s.setReg o v).netPtr = s.netPtr := rfl
@[simp] theorem setReg_memq (o : Nat) (v : Word32) : (s.setReg o v).memq = s.memq := rfl
@[simp] theorem setReg_memPtr (o : Nat) (v : Word32) : (s.setReg o v).memPtr = s.memPtr := rfl
@[simp] theorem setReg_inject (o : Nat) (v : Word32) : (s.setReg o v).inject = s.inject := rfl
@[simp] theorem setReg_outst (o : Nat) (v : Word32) : (s.setReg o v).outst = s.outst := rfl
@[simp] theorem setReg_quar (o : Nat) (v : Word32) : (s.setReg o v).quar = s.quar := rfl
@[simp] theorem setReg_naps (o : Nat) (v : Word32) : (s.setReg o v).naps = s.naps := rfl
@[simp] theorem setReg_mem (o : Nat) (v : Word32) : (s.setReg o v).mem = s.mem := rfl
@[simp] theorem setReg_tram (o : Nat) (v : Word32) : (s.setReg o v).tram = s.tram := rfl
@[simp] theorem setReg_sram (o : Nat) (v : Word32) : (s.setReg o v).sram = s.sram := rfl
@[simp] theorem setReg_tellers (o : Nat) (v : Word32) : (s.setReg o v).tellers = s.tellers := rfl
@[simp] theorem setReg_keyw (o : Nat) (v : Word32) : (s.setReg o v).keyw = s.keyw := rfl
@[simp] theorem setReg_winKey (o : Nat) (v : Word32) : (s.setReg o v).winKey = s.winKey := rfl
@[simp] theorem setReg_rootw (o : Nat) (v : Word32) : (s.setReg o v).rootw = s.rootw := rfl
@[simp] theorem setReg_nodes (o : Nat) (v : Word32) : (s.setReg o v).nodes = s.nodes := rfl
@[simp] theorem setReg_zeroing (o : Nat) (v : Word32) : (s.setReg o v).zeroing = s.zeroing := rfl
@[simp] theorem setReg_okeys (o : Nat) (v : Word32) : (s.setReg o v).okeys = s.okeys := rfl
@[simp] theorem setReg_fuses (o : Nat) (v : Word32) : (s.setReg o v).fuses = s.fuses := rfl
@[simp] theorem setReg_tk (o : Nat) (v : Word32) : (s.setReg o v).tk = s.tk := rfl
@[simp] theorem setReg_laneTest (o : Nat) (v : Word32) : (s.setReg o v).laneTest = s.laneTest := rfl
@[simp] theorem setReg_pllDue (o : Nat) (v : Word32) : (s.setReg o v).pllDue = s.pllDue := rfl
@[simp] theorem setReg_wakes (o : Nat) (v : Word32) : (s.setReg o v).wakes = s.wakes := rfl
@[simp] theorem setReg_tapIr (o : Nat) (v : Word32) : (s.setReg o v).tapIr = s.tapIr := rfl
@[simp] theorem setReg_flash (o : Nat) (v : Word32) : (s.setReg o v).flash = s.flash := rfl
@[simp] theorem setReg_ld (o : Nat) (v : Word32) : (s.setReg o v).ld = s.ld := rfl
@[simp] theorem setReg_loaded (o : Nat) (v : Word32) : (s.setReg o v).loaded = s.loaded := rfl
@[simp] theorem setReg_scrub (o : Nat) (v : Word32) : (s.setReg o v).scrub = s.scrub := rfl
@[simp] theorem setReg_pstore (o : Nat) (v : Word32) : (s.setReg o v).pstore = s.pstore := rfl
@[simp] theorem setReg_sweepIdx (o : Nat) (v : Word32) : (s.setReg o v).sweepIdx = s.sweepIdx := rfl
@[simp] theorem setReg_cores (o : Nat) (v : Word32) : (s.setReg o v).cores = s.cores := rfl
@[simp] theorem setReg_hub (o : Nat) (v : Word32) : (s.setReg o v).hub = s.hub := rfl
@[simp] theorem setReg_evtPtr (o : Nat) (v : Word32) : (s.setReg o v).evtPtr = s.evtPtr := rfl
@[simp] theorem setReg_aon (o : Nat) (v : Word32) : (s.setReg o v).aon = s.aon := rfl
@[simp] theorem setReg_th (o : Nat) (v : Word32) : (s.setReg o v).th = s.th := rfl
@[simp] theorem setReg_rt (o : Nat) (v : Word32) : (s.setReg o v).rt = s.rt := rfl
@[simp] theorem setReg_vdead (o : Nat) (v : Word32) : (s.setReg o v).vdead = s.vdead := rfl
@[simp] theorem setReg_spares (o : Nat) (v : Word32) : (s.setReg o v).spares = s.spares := rfl
@[simp] theorem setReg_dbg (o : Nat) (v : Word32) : (s.setReg o v).dbg = s.dbg := rfl
@[simp] theorem setReg_gpio (o : Nat) (v : Word32) : (s.setReg o v).gpio = s.gpio := rfl
@[simp] theorem setReg_clk (o : Nat) (v : Word32) : (s.setReg o v).clk = s.clk := rfl

/-! ### setF -/

@[simp] theorem setF_pending (f : Field) (v : Nat) : (s.setF f v).pending = s.pending := rfl
@[simp] theorem setF_resp (f : Field) (v : Nat) : (s.setF f v).resp = s.resp := rfl
@[simp] theorem setF_fresh (f : Field) (v : Nat) : (s.setF f v).fresh = s.fresh := rfl
@[simp] theorem setF_raised (f : Field) (v : Nat) : (s.setF f v).raised = s.raised := rfl
@[simp] theorem setF_cyc (f : Field) (v : Nat) : (s.setF f v).cyc = s.cyc := rfl
@[simp] theorem setF_clockOn (f : Field) (v : Nat) : (s.setF f v).clockOn = s.clockOn := rfl
@[simp] theorem setF_time (f : Field) (v : Nat) : (s.setF f v).time = s.time := rfl
@[simp] theorem setF_schedPend (f : Field) (v : Nat) : (s.setF f v).schedPend = s.schedPend := rfl
@[simp] theorem setF_armFresh (f : Field) (v : Nat) : (s.setF f v).armFresh = s.armFresh := rfl
@[simp] theorem setF_cfgw (f : Field) (v : Nat) : (s.setF f v).cfgw = s.cfgw := rfl
@[simp] theorem setF_sreg (f : Field) (v : Nat) : (s.setF f v).sreg = s.sreg := rfl
@[simp] theorem setF_wreg (f : Field) (v : Nat) : (s.setF f v).wreg = s.wreg := rfl
@[simp] theorem setF_vheld (f : Field) (v : Nat) : (s.setF f v).vheld = s.vheld := rfl
@[simp] theorem setF_sweepDone (f : Field) (v : Nat) : (s.setF f v).sweepDone = s.sweepDone := rfl
@[simp] theorem setF_macAcc (f : Field) (v : Nat) : (s.setF f v).macAcc = s.macAcc := rfl
@[simp] theorem setF_macPre (f : Field) (v : Nat) : (s.setF f v).macPre = s.macPre := rfl
@[simp] theorem setF_macs (f : Field) (v : Nat) : (s.setF f v).macs = s.macs := rfl
@[simp] theorem setF_macWait (f : Field) (v : Nat) : (s.setF f v).macWait = s.macWait := rfl
@[simp] theorem setF_rankers (f : Field) (v : Nat) : (s.setF f v).rankers = s.rankers := rfl
@[simp] theorem setF_mstore (f : Field) (v : Nat) : (s.setF f v).mstore = s.mstore := rfl
@[simp] theorem setF_matchers (f : Field) (v : Nat) : (s.setF f v).matchers = s.matchers := rfl
@[simp] theorem setF_bmem (f : Field) (v : Nat) : (s.setF f v).bmem = s.bmem := rfl
@[simp] theorem setF_banks (f : Field) (v : Nat) : (s.setF f v).banks = s.banks := rfl
@[simp] theorem setF_bsel (f : Field) (v : Nat) : (s.setF f v).bsel = s.bsel := rfl
@[simp] theorem setF_bdirty (f : Field) (v : Nat) : (s.setF f v).bdirty = s.bdirty := rfl
@[simp] theorem setF_tally (f : Field) (v : Nat) : (s.setF f v).tally = s.tally := rfl
@[simp] theorem setF_policy (f : Field) (v : Nat) : (s.setF f v).policy = s.policy := rfl
@[simp] theorem setF_blk (f : Field) (v : Nat) : (s.setF f v).blk = s.blk := rfl
@[simp] theorem setF_taint (f : Field) (v : Nat) : (s.setF f v).taint = s.taint := rfl
@[simp] theorem setF_rsps (f : Field) (v : Nat) : (s.setF f v).rsps = s.rsps := rfl
@[simp] theorem setF_fe (f : Field) (v : Nat) : (s.setF f v).fe = s.fe := rfl
@[simp] theorem setF_refHz (f : Field) (v : Nat) : (s.setF f v).refHz = s.refHz := rfl
@[simp] theorem setF_rootM (f : Field) (v : Nat) : (s.setF f v).rootM = s.rootM := rfl
@[simp] theorem setF_phase (f : Field) (v : Nat) : (s.setF f v).phase = s.phase := rfl
@[simp] theorem setF_dbgHalt (f : Field) (v : Nat) : (s.setF f v).dbgHalt = s.dbgHalt := rfl
@[simp] theorem setF_netq (f : Field) (v : Nat) : (s.setF f v).netq = s.netq := rfl
@[simp] theorem setF_netPtr (f : Field) (v : Nat) : (s.setF f v).netPtr = s.netPtr := rfl
@[simp] theorem setF_memq (f : Field) (v : Nat) : (s.setF f v).memq = s.memq := rfl
@[simp] theorem setF_memPtr (f : Field) (v : Nat) : (s.setF f v).memPtr = s.memPtr := rfl
@[simp] theorem setF_inject (f : Field) (v : Nat) : (s.setF f v).inject = s.inject := rfl
@[simp] theorem setF_outst (f : Field) (v : Nat) : (s.setF f v).outst = s.outst := rfl
@[simp] theorem setF_quar (f : Field) (v : Nat) : (s.setF f v).quar = s.quar := rfl
@[simp] theorem setF_naps (f : Field) (v : Nat) : (s.setF f v).naps = s.naps := rfl
@[simp] theorem setF_mem (f : Field) (v : Nat) : (s.setF f v).mem = s.mem := rfl
@[simp] theorem setF_tram (f : Field) (v : Nat) : (s.setF f v).tram = s.tram := rfl
@[simp] theorem setF_sram (f : Field) (v : Nat) : (s.setF f v).sram = s.sram := rfl
@[simp] theorem setF_tellers (f : Field) (v : Nat) : (s.setF f v).tellers = s.tellers := rfl
@[simp] theorem setF_keyw (f : Field) (v : Nat) : (s.setF f v).keyw = s.keyw := rfl
@[simp] theorem setF_winKey (f : Field) (v : Nat) : (s.setF f v).winKey = s.winKey := rfl
@[simp] theorem setF_rootw (f : Field) (v : Nat) : (s.setF f v).rootw = s.rootw := rfl
@[simp] theorem setF_nodes (f : Field) (v : Nat) : (s.setF f v).nodes = s.nodes := rfl
@[simp] theorem setF_zeroing (f : Field) (v : Nat) : (s.setF f v).zeroing = s.zeroing := rfl
@[simp] theorem setF_okeys (f : Field) (v : Nat) : (s.setF f v).okeys = s.okeys := rfl
@[simp] theorem setF_fuses (f : Field) (v : Nat) : (s.setF f v).fuses = s.fuses := rfl
@[simp] theorem setF_tk (f : Field) (v : Nat) : (s.setF f v).tk = s.tk := rfl
@[simp] theorem setF_laneTest (f : Field) (v : Nat) : (s.setF f v).laneTest = s.laneTest := rfl
@[simp] theorem setF_pllDue (f : Field) (v : Nat) : (s.setF f v).pllDue = s.pllDue := rfl
@[simp] theorem setF_wakes (f : Field) (v : Nat) : (s.setF f v).wakes = s.wakes := rfl
@[simp] theorem setF_tapIr (f : Field) (v : Nat) : (s.setF f v).tapIr = s.tapIr := rfl
@[simp] theorem setF_flash (f : Field) (v : Nat) : (s.setF f v).flash = s.flash := rfl
@[simp] theorem setF_ld (f : Field) (v : Nat) : (s.setF f v).ld = s.ld := rfl
@[simp] theorem setF_loaded (f : Field) (v : Nat) : (s.setF f v).loaded = s.loaded := rfl
@[simp] theorem setF_scrub (f : Field) (v : Nat) : (s.setF f v).scrub = s.scrub := rfl
@[simp] theorem setF_pstore (f : Field) (v : Nat) : (s.setF f v).pstore = s.pstore := rfl
@[simp] theorem setF_sweepIdx (f : Field) (v : Nat) : (s.setF f v).sweepIdx = s.sweepIdx := rfl
@[simp] theorem setF_cores (f : Field) (v : Nat) : (s.setF f v).cores = s.cores := rfl
@[simp] theorem setF_hub (f : Field) (v : Nat) : (s.setF f v).hub = s.hub := rfl
@[simp] theorem setF_evtPtr (f : Field) (v : Nat) : (s.setF f v).evtPtr = s.evtPtr := rfl
@[simp] theorem setF_aon (f : Field) (v : Nat) : (s.setF f v).aon = s.aon := rfl
@[simp] theorem setF_th (f : Field) (v : Nat) : (s.setF f v).th = s.th := rfl
@[simp] theorem setF_rt (f : Field) (v : Nat) : (s.setF f v).rt = s.rt := rfl
@[simp] theorem setF_vdead (f : Field) (v : Nat) : (s.setF f v).vdead = s.vdead := rfl
@[simp] theorem setF_spares (f : Field) (v : Nat) : (s.setF f v).spares = s.spares := rfl
@[simp] theorem setF_dbg (f : Field) (v : Nat) : (s.setF f v).dbg = s.dbg := rfl
@[simp] theorem setF_gpio (f : Field) (v : Nat) : (s.setF f v).gpio = s.gpio := rfl
@[simp] theorem setF_clk (f : Field) (v : Nat) : (s.setF f v).clk = s.clk := rfl

/-! ### note -/

@[simp] theorem note_pending (o : Nat) (h : HwReg) : (s.note o h).pending = s.pending := rfl
@[simp] theorem note_regs (o : Nat) (h : HwReg) : (s.note o h).regs = s.regs := rfl
@[simp] theorem note_resp (o : Nat) (h : HwReg) : (s.note o h).resp = s.resp := rfl
@[simp] theorem note_fresh (o : Nat) (h : HwReg) : (s.note o h).fresh = s.fresh := rfl
@[simp] theorem note_raised (o : Nat) (h : HwReg) : (s.note o h).raised = s.raised := rfl
@[simp] theorem note_clockOn (o : Nat) (h : HwReg) : (s.note o h).clockOn = s.clockOn := rfl
@[simp] theorem note_time (o : Nat) (h : HwReg) : (s.note o h).time = s.time := rfl
@[simp] theorem note_schedPend (o : Nat) (h : HwReg) : (s.note o h).schedPend = s.schedPend := rfl
@[simp] theorem note_armFresh (o : Nat) (h : HwReg) : (s.note o h).armFresh = s.armFresh := rfl
@[simp] theorem note_cfgw (o : Nat) (h : HwReg) : (s.note o h).cfgw = s.cfgw := rfl
@[simp] theorem note_sreg (o : Nat) (h : HwReg) : (s.note o h).sreg = s.sreg := rfl
@[simp] theorem note_wreg (o : Nat) (h : HwReg) : (s.note o h).wreg = s.wreg := rfl
@[simp] theorem note_vheld (o : Nat) (h : HwReg) : (s.note o h).vheld = s.vheld := rfl
@[simp] theorem note_sweepDone (o : Nat) (h : HwReg) : (s.note o h).sweepDone = s.sweepDone := rfl
@[simp] theorem note_macAcc (o : Nat) (h : HwReg) : (s.note o h).macAcc = s.macAcc := rfl
@[simp] theorem note_macPre (o : Nat) (h : HwReg) : (s.note o h).macPre = s.macPre := rfl
@[simp] theorem note_macs (o : Nat) (h : HwReg) : (s.note o h).macs = s.macs := rfl
@[simp] theorem note_macWait (o : Nat) (h : HwReg) : (s.note o h).macWait = s.macWait := rfl
@[simp] theorem note_rankers (o : Nat) (h : HwReg) : (s.note o h).rankers = s.rankers := rfl
@[simp] theorem note_mstore (o : Nat) (h : HwReg) : (s.note o h).mstore = s.mstore := rfl
@[simp] theorem note_matchers (o : Nat) (h : HwReg) : (s.note o h).matchers = s.matchers := rfl
@[simp] theorem note_bmem (o : Nat) (h : HwReg) : (s.note o h).bmem = s.bmem := rfl
@[simp] theorem note_banks (o : Nat) (h : HwReg) : (s.note o h).banks = s.banks := rfl
@[simp] theorem note_bsel (o : Nat) (h : HwReg) : (s.note o h).bsel = s.bsel := rfl
@[simp] theorem note_bdirty (o : Nat) (h : HwReg) : (s.note o h).bdirty = s.bdirty := rfl
@[simp] theorem note_tally (o : Nat) (h : HwReg) : (s.note o h).tally = s.tally := rfl
@[simp] theorem note_policy (o : Nat) (h : HwReg) : (s.note o h).policy = s.policy := rfl
@[simp] theorem note_blk (o : Nat) (h : HwReg) : (s.note o h).blk = s.blk := rfl
@[simp] theorem note_taint (o : Nat) (h : HwReg) : (s.note o h).taint = s.taint := rfl
@[simp] theorem note_rsps (o : Nat) (h : HwReg) : (s.note o h).rsps = s.rsps := rfl
@[simp] theorem note_fe (o : Nat) (h : HwReg) : (s.note o h).fe = s.fe := rfl
@[simp] theorem note_refHz (o : Nat) (h : HwReg) : (s.note o h).refHz = s.refHz := rfl
@[simp] theorem note_rootM (o : Nat) (h : HwReg) : (s.note o h).rootM = s.rootM := rfl
@[simp] theorem note_phase (o : Nat) (h : HwReg) : (s.note o h).phase = s.phase := rfl
@[simp] theorem note_dbgHalt (o : Nat) (h : HwReg) : (s.note o h).dbgHalt = s.dbgHalt := rfl
@[simp] theorem note_netq (o : Nat) (h : HwReg) : (s.note o h).netq = s.netq := rfl
@[simp] theorem note_netPtr (o : Nat) (h : HwReg) : (s.note o h).netPtr = s.netPtr := rfl
@[simp] theorem note_memq (o : Nat) (h : HwReg) : (s.note o h).memq = s.memq := rfl
@[simp] theorem note_memPtr (o : Nat) (h : HwReg) : (s.note o h).memPtr = s.memPtr := rfl
@[simp] theorem note_inject (o : Nat) (h : HwReg) : (s.note o h).inject = s.inject := rfl
@[simp] theorem note_outst (o : Nat) (h : HwReg) : (s.note o h).outst = s.outst := rfl
@[simp] theorem note_quar (o : Nat) (h : HwReg) : (s.note o h).quar = s.quar := rfl
@[simp] theorem note_naps (o : Nat) (h : HwReg) : (s.note o h).naps = s.naps := rfl
@[simp] theorem note_mem (o : Nat) (h : HwReg) : (s.note o h).mem = s.mem := rfl
@[simp] theorem note_tram (o : Nat) (h : HwReg) : (s.note o h).tram = s.tram := rfl
@[simp] theorem note_sram (o : Nat) (h : HwReg) : (s.note o h).sram = s.sram := rfl
@[simp] theorem note_tellers (o : Nat) (h : HwReg) : (s.note o h).tellers = s.tellers := rfl
@[simp] theorem note_keyw (o : Nat) (h : HwReg) : (s.note o h).keyw = s.keyw := rfl
@[simp] theorem note_winKey (o : Nat) (h : HwReg) : (s.note o h).winKey = s.winKey := rfl
@[simp] theorem note_rootw (o : Nat) (h : HwReg) : (s.note o h).rootw = s.rootw := rfl
@[simp] theorem note_nodes (o : Nat) (h : HwReg) : (s.note o h).nodes = s.nodes := rfl
@[simp] theorem note_zeroing (o : Nat) (h : HwReg) : (s.note o h).zeroing = s.zeroing := rfl
@[simp] theorem note_okeys (o : Nat) (h : HwReg) : (s.note o h).okeys = s.okeys := rfl
@[simp] theorem note_fuses (o : Nat) (h : HwReg) : (s.note o h).fuses = s.fuses := rfl
@[simp] theorem note_tk (o : Nat) (h : HwReg) : (s.note o h).tk = s.tk := rfl
@[simp] theorem note_laneTest (o : Nat) (h : HwReg) : (s.note o h).laneTest = s.laneTest := rfl
@[simp] theorem note_pllDue (o : Nat) (h : HwReg) : (s.note o h).pllDue = s.pllDue := rfl
@[simp] theorem note_wakes (o : Nat) (h : HwReg) : (s.note o h).wakes = s.wakes := rfl
@[simp] theorem note_tapIr (o : Nat) (h : HwReg) : (s.note o h).tapIr = s.tapIr := rfl
@[simp] theorem note_flash (o : Nat) (h : HwReg) : (s.note o h).flash = s.flash := rfl
@[simp] theorem note_ld (o : Nat) (h : HwReg) : (s.note o h).ld = s.ld := rfl
@[simp] theorem note_loaded (o : Nat) (h : HwReg) : (s.note o h).loaded = s.loaded := rfl
@[simp] theorem note_scrub (o : Nat) (h : HwReg) : (s.note o h).scrub = s.scrub := rfl
@[simp] theorem note_pstore (o : Nat) (h : HwReg) : (s.note o h).pstore = s.pstore := rfl
@[simp] theorem note_sweepIdx (o : Nat) (h : HwReg) : (s.note o h).sweepIdx = s.sweepIdx := rfl
@[simp] theorem note_cores (o : Nat) (h : HwReg) : (s.note o h).cores = s.cores := rfl
@[simp] theorem note_hub (o : Nat) (h : HwReg) : (s.note o h).hub = s.hub := rfl
@[simp] theorem note_evtPtr (o : Nat) (h : HwReg) : (s.note o h).evtPtr = s.evtPtr := rfl
@[simp] theorem note_aon (o : Nat) (h : HwReg) : (s.note o h).aon = s.aon := rfl
@[simp] theorem note_th (o : Nat) (h : HwReg) : (s.note o h).th = s.th := rfl
@[simp] theorem note_rt (o : Nat) (h : HwReg) : (s.note o h).rt = s.rt := rfl
@[simp] theorem note_vdead (o : Nat) (h : HwReg) : (s.note o h).vdead = s.vdead := rfl
@[simp] theorem note_spares (o : Nat) (h : HwReg) : (s.note o h).spares = s.spares := rfl
@[simp] theorem note_dbg (o : Nat) (h : HwReg) : (s.note o h).dbg = s.dbg := rfl
@[simp] theorem note_gpio (o : Nat) (h : HwReg) : (s.note o h).gpio = s.gpio := rfl
@[simp] theorem note_clk (o : Nat) (h : HwReg) : (s.note o h).clk = s.clk := rfl

/-! ### raiseF -/

@[simp] theorem raiseF_pending (f : Field) : (s.raiseF f).pending = s.pending := rfl
@[simp] theorem raiseF_resp (f : Field) : (s.raiseF f).resp = s.resp := rfl
@[simp] theorem raiseF_fresh (f : Field) : (s.raiseF f).fresh = s.fresh := rfl
@[simp] theorem raiseF_raised (f : Field) : (s.raiseF f).raised = s.raised := rfl
@[simp] theorem raiseF_clockOn (f : Field) : (s.raiseF f).clockOn = s.clockOn := rfl
@[simp] theorem raiseF_time (f : Field) : (s.raiseF f).time = s.time := rfl
@[simp] theorem raiseF_schedPend (f : Field) : (s.raiseF f).schedPend = s.schedPend := rfl
@[simp] theorem raiseF_armFresh (f : Field) : (s.raiseF f).armFresh = s.armFresh := rfl
@[simp] theorem raiseF_cfgw (f : Field) : (s.raiseF f).cfgw = s.cfgw := rfl
@[simp] theorem raiseF_sreg (f : Field) : (s.raiseF f).sreg = s.sreg := rfl
@[simp] theorem raiseF_wreg (f : Field) : (s.raiseF f).wreg = s.wreg := rfl
@[simp] theorem raiseF_vheld (f : Field) : (s.raiseF f).vheld = s.vheld := rfl
@[simp] theorem raiseF_sweepDone (f : Field) : (s.raiseF f).sweepDone = s.sweepDone := rfl
@[simp] theorem raiseF_macAcc (f : Field) : (s.raiseF f).macAcc = s.macAcc := rfl
@[simp] theorem raiseF_macPre (f : Field) : (s.raiseF f).macPre = s.macPre := rfl
@[simp] theorem raiseF_macs (f : Field) : (s.raiseF f).macs = s.macs := rfl
@[simp] theorem raiseF_macWait (f : Field) : (s.raiseF f).macWait = s.macWait := rfl
@[simp] theorem raiseF_rankers (f : Field) : (s.raiseF f).rankers = s.rankers := rfl
@[simp] theorem raiseF_mstore (f : Field) : (s.raiseF f).mstore = s.mstore := rfl
@[simp] theorem raiseF_matchers (f : Field) : (s.raiseF f).matchers = s.matchers := rfl
@[simp] theorem raiseF_bmem (f : Field) : (s.raiseF f).bmem = s.bmem := rfl
@[simp] theorem raiseF_banks (f : Field) : (s.raiseF f).banks = s.banks := rfl
@[simp] theorem raiseF_bsel (f : Field) : (s.raiseF f).bsel = s.bsel := rfl
@[simp] theorem raiseF_bdirty (f : Field) : (s.raiseF f).bdirty = s.bdirty := rfl
@[simp] theorem raiseF_tally (f : Field) : (s.raiseF f).tally = s.tally := rfl
@[simp] theorem raiseF_policy (f : Field) : (s.raiseF f).policy = s.policy := rfl
@[simp] theorem raiseF_blk (f : Field) : (s.raiseF f).blk = s.blk := rfl
@[simp] theorem raiseF_taint (f : Field) : (s.raiseF f).taint = s.taint := rfl
@[simp] theorem raiseF_rsps (f : Field) : (s.raiseF f).rsps = s.rsps := rfl
@[simp] theorem raiseF_fe (f : Field) : (s.raiseF f).fe = s.fe := rfl
@[simp] theorem raiseF_refHz (f : Field) : (s.raiseF f).refHz = s.refHz := rfl
@[simp] theorem raiseF_rootM (f : Field) : (s.raiseF f).rootM = s.rootM := rfl
@[simp] theorem raiseF_phase (f : Field) : (s.raiseF f).phase = s.phase := rfl
@[simp] theorem raiseF_dbgHalt (f : Field) : (s.raiseF f).dbgHalt = s.dbgHalt := rfl
@[simp] theorem raiseF_netq (f : Field) : (s.raiseF f).netq = s.netq := rfl
@[simp] theorem raiseF_netPtr (f : Field) : (s.raiseF f).netPtr = s.netPtr := rfl
@[simp] theorem raiseF_memq (f : Field) : (s.raiseF f).memq = s.memq := rfl
@[simp] theorem raiseF_memPtr (f : Field) : (s.raiseF f).memPtr = s.memPtr := rfl
@[simp] theorem raiseF_inject (f : Field) : (s.raiseF f).inject = s.inject := rfl
@[simp] theorem raiseF_outst (f : Field) : (s.raiseF f).outst = s.outst := rfl
@[simp] theorem raiseF_quar (f : Field) : (s.raiseF f).quar = s.quar := rfl
@[simp] theorem raiseF_naps (f : Field) : (s.raiseF f).naps = s.naps := rfl
@[simp] theorem raiseF_mem (f : Field) : (s.raiseF f).mem = s.mem := rfl
@[simp] theorem raiseF_tram (f : Field) : (s.raiseF f).tram = s.tram := rfl
@[simp] theorem raiseF_sram (f : Field) : (s.raiseF f).sram = s.sram := rfl
@[simp] theorem raiseF_tellers (f : Field) : (s.raiseF f).tellers = s.tellers := rfl
@[simp] theorem raiseF_keyw (f : Field) : (s.raiseF f).keyw = s.keyw := rfl
@[simp] theorem raiseF_winKey (f : Field) : (s.raiseF f).winKey = s.winKey := rfl
@[simp] theorem raiseF_rootw (f : Field) : (s.raiseF f).rootw = s.rootw := rfl
@[simp] theorem raiseF_nodes (f : Field) : (s.raiseF f).nodes = s.nodes := rfl
@[simp] theorem raiseF_zeroing (f : Field) : (s.raiseF f).zeroing = s.zeroing := rfl
@[simp] theorem raiseF_okeys (f : Field) : (s.raiseF f).okeys = s.okeys := rfl
@[simp] theorem raiseF_fuses (f : Field) : (s.raiseF f).fuses = s.fuses := rfl
@[simp] theorem raiseF_tk (f : Field) : (s.raiseF f).tk = s.tk := rfl
@[simp] theorem raiseF_laneTest (f : Field) : (s.raiseF f).laneTest = s.laneTest := rfl
@[simp] theorem raiseF_pllDue (f : Field) : (s.raiseF f).pllDue = s.pllDue := rfl
@[simp] theorem raiseF_wakes (f : Field) : (s.raiseF f).wakes = s.wakes := rfl
@[simp] theorem raiseF_tapIr (f : Field) : (s.raiseF f).tapIr = s.tapIr := rfl
@[simp] theorem raiseF_flash (f : Field) : (s.raiseF f).flash = s.flash := rfl
@[simp] theorem raiseF_ld (f : Field) : (s.raiseF f).ld = s.ld := rfl
@[simp] theorem raiseF_loaded (f : Field) : (s.raiseF f).loaded = s.loaded := rfl
@[simp] theorem raiseF_scrub (f : Field) : (s.raiseF f).scrub = s.scrub := rfl
@[simp] theorem raiseF_pstore (f : Field) : (s.raiseF f).pstore = s.pstore := rfl
@[simp] theorem raiseF_sweepIdx (f : Field) : (s.raiseF f).sweepIdx = s.sweepIdx := rfl
@[simp] theorem raiseF_cores (f : Field) : (s.raiseF f).cores = s.cores := rfl
@[simp] theorem raiseF_hub (f : Field) : (s.raiseF f).hub = s.hub := rfl
@[simp] theorem raiseF_evtPtr (f : Field) : (s.raiseF f).evtPtr = s.evtPtr := rfl
@[simp] theorem raiseF_aon (f : Field) : (s.raiseF f).aon = s.aon := rfl
@[simp] theorem raiseF_th (f : Field) : (s.raiseF f).th = s.th := rfl
@[simp] theorem raiseF_rt (f : Field) : (s.raiseF f).rt = s.rt := rfl
@[simp] theorem raiseF_vdead (f : Field) : (s.raiseF f).vdead = s.vdead := rfl
@[simp] theorem raiseF_spares (f : Field) : (s.raiseF f).spares = s.spares := rfl
@[simp] theorem raiseF_dbg (f : Field) : (s.raiseF f).dbg = s.dbg := rfl
@[simp] theorem raiseF_gpio (f : Field) : (s.raiseF f).gpio = s.gpio := rfl
@[simp] theorem raiseF_clk (f : Field) : (s.raiseF f).clk = s.clk := rfl

/-! ### clearF -/

@[simp] theorem clearF_pending (f : Field) : (s.clearF f).pending = s.pending := rfl
@[simp] theorem clearF_resp (f : Field) : (s.clearF f).resp = s.resp := rfl
@[simp] theorem clearF_fresh (f : Field) : (s.clearF f).fresh = s.fresh := rfl
@[simp] theorem clearF_raised (f : Field) : (s.clearF f).raised = s.raised := rfl
@[simp] theorem clearF_cyc (f : Field) : (s.clearF f).cyc = s.cyc := rfl
@[simp] theorem clearF_clockOn (f : Field) : (s.clearF f).clockOn = s.clockOn := rfl
@[simp] theorem clearF_time (f : Field) : (s.clearF f).time = s.time := rfl
@[simp] theorem clearF_schedPend (f : Field) : (s.clearF f).schedPend = s.schedPend := rfl
@[simp] theorem clearF_armFresh (f : Field) : (s.clearF f).armFresh = s.armFresh := rfl
@[simp] theorem clearF_cfgw (f : Field) : (s.clearF f).cfgw = s.cfgw := rfl
@[simp] theorem clearF_sreg (f : Field) : (s.clearF f).sreg = s.sreg := rfl
@[simp] theorem clearF_wreg (f : Field) : (s.clearF f).wreg = s.wreg := rfl
@[simp] theorem clearF_vheld (f : Field) : (s.clearF f).vheld = s.vheld := rfl
@[simp] theorem clearF_sweepDone (f : Field) : (s.clearF f).sweepDone = s.sweepDone := rfl
@[simp] theorem clearF_macAcc (f : Field) : (s.clearF f).macAcc = s.macAcc := rfl
@[simp] theorem clearF_macPre (f : Field) : (s.clearF f).macPre = s.macPre := rfl
@[simp] theorem clearF_macs (f : Field) : (s.clearF f).macs = s.macs := rfl
@[simp] theorem clearF_macWait (f : Field) : (s.clearF f).macWait = s.macWait := rfl
@[simp] theorem clearF_rankers (f : Field) : (s.clearF f).rankers = s.rankers := rfl
@[simp] theorem clearF_mstore (f : Field) : (s.clearF f).mstore = s.mstore := rfl
@[simp] theorem clearF_matchers (f : Field) : (s.clearF f).matchers = s.matchers := rfl
@[simp] theorem clearF_bmem (f : Field) : (s.clearF f).bmem = s.bmem := rfl
@[simp] theorem clearF_banks (f : Field) : (s.clearF f).banks = s.banks := rfl
@[simp] theorem clearF_bsel (f : Field) : (s.clearF f).bsel = s.bsel := rfl
@[simp] theorem clearF_bdirty (f : Field) : (s.clearF f).bdirty = s.bdirty := rfl
@[simp] theorem clearF_tally (f : Field) : (s.clearF f).tally = s.tally := rfl
@[simp] theorem clearF_policy (f : Field) : (s.clearF f).policy = s.policy := rfl
@[simp] theorem clearF_blk (f : Field) : (s.clearF f).blk = s.blk := rfl
@[simp] theorem clearF_taint (f : Field) : (s.clearF f).taint = s.taint := rfl
@[simp] theorem clearF_rsps (f : Field) : (s.clearF f).rsps = s.rsps := rfl
@[simp] theorem clearF_fe (f : Field) : (s.clearF f).fe = s.fe := rfl
@[simp] theorem clearF_refHz (f : Field) : (s.clearF f).refHz = s.refHz := rfl
@[simp] theorem clearF_rootM (f : Field) : (s.clearF f).rootM = s.rootM := rfl
@[simp] theorem clearF_phase (f : Field) : (s.clearF f).phase = s.phase := rfl
@[simp] theorem clearF_dbgHalt (f : Field) : (s.clearF f).dbgHalt = s.dbgHalt := rfl
@[simp] theorem clearF_netq (f : Field) : (s.clearF f).netq = s.netq := rfl
@[simp] theorem clearF_netPtr (f : Field) : (s.clearF f).netPtr = s.netPtr := rfl
@[simp] theorem clearF_memq (f : Field) : (s.clearF f).memq = s.memq := rfl
@[simp] theorem clearF_memPtr (f : Field) : (s.clearF f).memPtr = s.memPtr := rfl
@[simp] theorem clearF_inject (f : Field) : (s.clearF f).inject = s.inject := rfl
@[simp] theorem clearF_outst (f : Field) : (s.clearF f).outst = s.outst := rfl
@[simp] theorem clearF_quar (f : Field) : (s.clearF f).quar = s.quar := rfl
@[simp] theorem clearF_naps (f : Field) : (s.clearF f).naps = s.naps := rfl
@[simp] theorem clearF_mem (f : Field) : (s.clearF f).mem = s.mem := rfl
@[simp] theorem clearF_tram (f : Field) : (s.clearF f).tram = s.tram := rfl
@[simp] theorem clearF_sram (f : Field) : (s.clearF f).sram = s.sram := rfl
@[simp] theorem clearF_tellers (f : Field) : (s.clearF f).tellers = s.tellers := rfl
@[simp] theorem clearF_keyw (f : Field) : (s.clearF f).keyw = s.keyw := rfl
@[simp] theorem clearF_winKey (f : Field) : (s.clearF f).winKey = s.winKey := rfl
@[simp] theorem clearF_rootw (f : Field) : (s.clearF f).rootw = s.rootw := rfl
@[simp] theorem clearF_nodes (f : Field) : (s.clearF f).nodes = s.nodes := rfl
@[simp] theorem clearF_zeroing (f : Field) : (s.clearF f).zeroing = s.zeroing := rfl
@[simp] theorem clearF_okeys (f : Field) : (s.clearF f).okeys = s.okeys := rfl
@[simp] theorem clearF_fuses (f : Field) : (s.clearF f).fuses = s.fuses := rfl
@[simp] theorem clearF_tk (f : Field) : (s.clearF f).tk = s.tk := rfl
@[simp] theorem clearF_laneTest (f : Field) : (s.clearF f).laneTest = s.laneTest := rfl
@[simp] theorem clearF_pllDue (f : Field) : (s.clearF f).pllDue = s.pllDue := rfl
@[simp] theorem clearF_wakes (f : Field) : (s.clearF f).wakes = s.wakes := rfl
@[simp] theorem clearF_tapIr (f : Field) : (s.clearF f).tapIr = s.tapIr := rfl
@[simp] theorem clearF_flash (f : Field) : (s.clearF f).flash = s.flash := rfl
@[simp] theorem clearF_ld (f : Field) : (s.clearF f).ld = s.ld := rfl
@[simp] theorem clearF_loaded (f : Field) : (s.clearF f).loaded = s.loaded := rfl
@[simp] theorem clearF_scrub (f : Field) : (s.clearF f).scrub = s.scrub := rfl
@[simp] theorem clearF_pstore (f : Field) : (s.clearF f).pstore = s.pstore := rfl
@[simp] theorem clearF_sweepIdx (f : Field) : (s.clearF f).sweepIdx = s.sweepIdx := rfl
@[simp] theorem clearF_cores (f : Field) : (s.clearF f).cores = s.cores := rfl
@[simp] theorem clearF_hub (f : Field) : (s.clearF f).hub = s.hub := rfl
@[simp] theorem clearF_evtPtr (f : Field) : (s.clearF f).evtPtr = s.evtPtr := rfl
@[simp] theorem clearF_aon (f : Field) : (s.clearF f).aon = s.aon := rfl
@[simp] theorem clearF_th (f : Field) : (s.clearF f).th = s.th := rfl
@[simp] theorem clearF_rt (f : Field) : (s.clearF f).rt = s.rt := rfl
@[simp] theorem clearF_vdead (f : Field) : (s.clearF f).vdead = s.vdead := rfl
@[simp] theorem clearF_spares (f : Field) : (s.clearF f).spares = s.spares := rfl
@[simp] theorem clearF_dbg (f : Field) : (s.clearF f).dbg = s.dbg := rfl
@[simp] theorem clearF_gpio (f : Field) : (s.clearF f).gpio = s.gpio := rfl
@[simp] theorem clearF_clk (f : Field) : (s.clearF f).clk = s.clk := rfl

/-! ### putF -/

@[simp] theorem putF_pending (f : Field) (b : Bool) : (s.putF f b).pending = s.pending := rfl
@[simp] theorem putF_resp (f : Field) (b : Bool) : (s.putF f b).resp = s.resp := rfl
@[simp] theorem putF_fresh (f : Field) (b : Bool) : (s.putF f b).fresh = s.fresh := rfl
@[simp] theorem putF_raised (f : Field) (b : Bool) : (s.putF f b).raised = s.raised := rfl
@[simp] theorem putF_cyc (f : Field) (b : Bool) : (s.putF f b).cyc = s.cyc := rfl
@[simp] theorem putF_clockOn (f : Field) (b : Bool) : (s.putF f b).clockOn = s.clockOn := rfl
@[simp] theorem putF_time (f : Field) (b : Bool) : (s.putF f b).time = s.time := rfl
@[simp] theorem putF_schedPend (f : Field) (b : Bool) : (s.putF f b).schedPend = s.schedPend := rfl
@[simp] theorem putF_armFresh (f : Field) (b : Bool) : (s.putF f b).armFresh = s.armFresh := rfl
@[simp] theorem putF_cfgw (f : Field) (b : Bool) : (s.putF f b).cfgw = s.cfgw := rfl
@[simp] theorem putF_sreg (f : Field) (b : Bool) : (s.putF f b).sreg = s.sreg := rfl
@[simp] theorem putF_wreg (f : Field) (b : Bool) : (s.putF f b).wreg = s.wreg := rfl
@[simp] theorem putF_vheld (f : Field) (b : Bool) : (s.putF f b).vheld = s.vheld := rfl
@[simp] theorem putF_sweepDone (f : Field) (b : Bool) : (s.putF f b).sweepDone = s.sweepDone := rfl
@[simp] theorem putF_macAcc (f : Field) (b : Bool) : (s.putF f b).macAcc = s.macAcc := rfl
@[simp] theorem putF_macPre (f : Field) (b : Bool) : (s.putF f b).macPre = s.macPre := rfl
@[simp] theorem putF_macs (f : Field) (b : Bool) : (s.putF f b).macs = s.macs := rfl
@[simp] theorem putF_macWait (f : Field) (b : Bool) : (s.putF f b).macWait = s.macWait := rfl
@[simp] theorem putF_rankers (f : Field) (b : Bool) : (s.putF f b).rankers = s.rankers := rfl
@[simp] theorem putF_mstore (f : Field) (b : Bool) : (s.putF f b).mstore = s.mstore := rfl
@[simp] theorem putF_matchers (f : Field) (b : Bool) : (s.putF f b).matchers = s.matchers := rfl
@[simp] theorem putF_bmem (f : Field) (b : Bool) : (s.putF f b).bmem = s.bmem := rfl
@[simp] theorem putF_banks (f : Field) (b : Bool) : (s.putF f b).banks = s.banks := rfl
@[simp] theorem putF_bsel (f : Field) (b : Bool) : (s.putF f b).bsel = s.bsel := rfl
@[simp] theorem putF_bdirty (f : Field) (b : Bool) : (s.putF f b).bdirty = s.bdirty := rfl
@[simp] theorem putF_tally (f : Field) (b : Bool) : (s.putF f b).tally = s.tally := rfl
@[simp] theorem putF_policy (f : Field) (b : Bool) : (s.putF f b).policy = s.policy := rfl
@[simp] theorem putF_blk (f : Field) (b : Bool) : (s.putF f b).blk = s.blk := rfl
@[simp] theorem putF_taint (f : Field) (b : Bool) : (s.putF f b).taint = s.taint := rfl
@[simp] theorem putF_rsps (f : Field) (b : Bool) : (s.putF f b).rsps = s.rsps := rfl
@[simp] theorem putF_fe (f : Field) (b : Bool) : (s.putF f b).fe = s.fe := rfl
@[simp] theorem putF_refHz (f : Field) (b : Bool) : (s.putF f b).refHz = s.refHz := rfl
@[simp] theorem putF_rootM (f : Field) (b : Bool) : (s.putF f b).rootM = s.rootM := rfl
@[simp] theorem putF_phase (f : Field) (b : Bool) : (s.putF f b).phase = s.phase := rfl
@[simp] theorem putF_dbgHalt (f : Field) (b : Bool) : (s.putF f b).dbgHalt = s.dbgHalt := rfl
@[simp] theorem putF_netq (f : Field) (b : Bool) : (s.putF f b).netq = s.netq := rfl
@[simp] theorem putF_netPtr (f : Field) (b : Bool) : (s.putF f b).netPtr = s.netPtr := rfl
@[simp] theorem putF_memq (f : Field) (b : Bool) : (s.putF f b).memq = s.memq := rfl
@[simp] theorem putF_memPtr (f : Field) (b : Bool) : (s.putF f b).memPtr = s.memPtr := rfl
@[simp] theorem putF_inject (f : Field) (b : Bool) : (s.putF f b).inject = s.inject := rfl
@[simp] theorem putF_outst (f : Field) (b : Bool) : (s.putF f b).outst = s.outst := rfl
@[simp] theorem putF_quar (f : Field) (b : Bool) : (s.putF f b).quar = s.quar := rfl
@[simp] theorem putF_naps (f : Field) (b : Bool) : (s.putF f b).naps = s.naps := rfl
@[simp] theorem putF_mem (f : Field) (b : Bool) : (s.putF f b).mem = s.mem := rfl
@[simp] theorem putF_tram (f : Field) (b : Bool) : (s.putF f b).tram = s.tram := rfl
@[simp] theorem putF_sram (f : Field) (b : Bool) : (s.putF f b).sram = s.sram := rfl
@[simp] theorem putF_tellers (f : Field) (b : Bool) : (s.putF f b).tellers = s.tellers := rfl
@[simp] theorem putF_keyw (f : Field) (b : Bool) : (s.putF f b).keyw = s.keyw := rfl
@[simp] theorem putF_winKey (f : Field) (b : Bool) : (s.putF f b).winKey = s.winKey := rfl
@[simp] theorem putF_rootw (f : Field) (b : Bool) : (s.putF f b).rootw = s.rootw := rfl
@[simp] theorem putF_nodes (f : Field) (b : Bool) : (s.putF f b).nodes = s.nodes := rfl
@[simp] theorem putF_zeroing (f : Field) (b : Bool) : (s.putF f b).zeroing = s.zeroing := rfl
@[simp] theorem putF_okeys (f : Field) (b : Bool) : (s.putF f b).okeys = s.okeys := rfl
@[simp] theorem putF_fuses (f : Field) (b : Bool) : (s.putF f b).fuses = s.fuses := rfl
@[simp] theorem putF_tk (f : Field) (b : Bool) : (s.putF f b).tk = s.tk := rfl
@[simp] theorem putF_laneTest (f : Field) (b : Bool) : (s.putF f b).laneTest = s.laneTest := rfl
@[simp] theorem putF_pllDue (f : Field) (b : Bool) : (s.putF f b).pllDue = s.pllDue := rfl
@[simp] theorem putF_wakes (f : Field) (b : Bool) : (s.putF f b).wakes = s.wakes := rfl
@[simp] theorem putF_tapIr (f : Field) (b : Bool) : (s.putF f b).tapIr = s.tapIr := rfl
@[simp] theorem putF_flash (f : Field) (b : Bool) : (s.putF f b).flash = s.flash := rfl
@[simp] theorem putF_ld (f : Field) (b : Bool) : (s.putF f b).ld = s.ld := rfl
@[simp] theorem putF_loaded (f : Field) (b : Bool) : (s.putF f b).loaded = s.loaded := rfl
@[simp] theorem putF_scrub (f : Field) (b : Bool) : (s.putF f b).scrub = s.scrub := rfl
@[simp] theorem putF_pstore (f : Field) (b : Bool) : (s.putF f b).pstore = s.pstore := rfl
@[simp] theorem putF_sweepIdx (f : Field) (b : Bool) : (s.putF f b).sweepIdx = s.sweepIdx := rfl
@[simp] theorem putF_cores (f : Field) (b : Bool) : (s.putF f b).cores = s.cores := rfl
@[simp] theorem putF_hub (f : Field) (b : Bool) : (s.putF f b).hub = s.hub := rfl
@[simp] theorem putF_evtPtr (f : Field) (b : Bool) : (s.putF f b).evtPtr = s.evtPtr := rfl
@[simp] theorem putF_aon (f : Field) (b : Bool) : (s.putF f b).aon = s.aon := rfl
@[simp] theorem putF_th (f : Field) (b : Bool) : (s.putF f b).th = s.th := rfl
@[simp] theorem putF_rt (f : Field) (b : Bool) : (s.putF f b).rt = s.rt := rfl
@[simp] theorem putF_vdead (f : Field) (b : Bool) : (s.putF f b).vdead = s.vdead := rfl
@[simp] theorem putF_spares (f : Field) (b : Bool) : (s.putF f b).spares = s.spares := rfl
@[simp] theorem putF_dbg (f : Field) (b : Bool) : (s.putF f b).dbg = s.dbg := rfl
@[simp] theorem putF_gpio (f : Field) (b : Bool) : (s.putF f b).gpio = s.gpio := rfl
@[simp] theorem putF_clk (f : Field) (b : Bool) : (s.putF f b).clk = s.clk := rfl

/-! ### addF -/

@[simp] theorem addF_pending (f : Field) (n : Nat) : (s.addF f n).pending = s.pending := rfl
@[simp] theorem addF_resp (f : Field) (n : Nat) : (s.addF f n).resp = s.resp := rfl
@[simp] theorem addF_fresh (f : Field) (n : Nat) : (s.addF f n).fresh = s.fresh := rfl
@[simp] theorem addF_raised (f : Field) (n : Nat) : (s.addF f n).raised = s.raised := rfl
@[simp] theorem addF_clockOn (f : Field) (n : Nat) : (s.addF f n).clockOn = s.clockOn := rfl
@[simp] theorem addF_time (f : Field) (n : Nat) : (s.addF f n).time = s.time := rfl
@[simp] theorem addF_schedPend (f : Field) (n : Nat) : (s.addF f n).schedPend = s.schedPend := rfl
@[simp] theorem addF_armFresh (f : Field) (n : Nat) : (s.addF f n).armFresh = s.armFresh := rfl
@[simp] theorem addF_cfgw (f : Field) (n : Nat) : (s.addF f n).cfgw = s.cfgw := rfl
@[simp] theorem addF_sreg (f : Field) (n : Nat) : (s.addF f n).sreg = s.sreg := rfl
@[simp] theorem addF_wreg (f : Field) (n : Nat) : (s.addF f n).wreg = s.wreg := rfl
@[simp] theorem addF_vheld (f : Field) (n : Nat) : (s.addF f n).vheld = s.vheld := rfl
@[simp] theorem addF_sweepDone (f : Field) (n : Nat) : (s.addF f n).sweepDone = s.sweepDone := rfl
@[simp] theorem addF_macAcc (f : Field) (n : Nat) : (s.addF f n).macAcc = s.macAcc := rfl
@[simp] theorem addF_macPre (f : Field) (n : Nat) : (s.addF f n).macPre = s.macPre := rfl
@[simp] theorem addF_macs (f : Field) (n : Nat) : (s.addF f n).macs = s.macs := rfl
@[simp] theorem addF_macWait (f : Field) (n : Nat) : (s.addF f n).macWait = s.macWait := rfl
@[simp] theorem addF_rankers (f : Field) (n : Nat) : (s.addF f n).rankers = s.rankers := rfl
@[simp] theorem addF_mstore (f : Field) (n : Nat) : (s.addF f n).mstore = s.mstore := rfl
@[simp] theorem addF_matchers (f : Field) (n : Nat) : (s.addF f n).matchers = s.matchers := rfl
@[simp] theorem addF_bmem (f : Field) (n : Nat) : (s.addF f n).bmem = s.bmem := rfl
@[simp] theorem addF_banks (f : Field) (n : Nat) : (s.addF f n).banks = s.banks := rfl
@[simp] theorem addF_bsel (f : Field) (n : Nat) : (s.addF f n).bsel = s.bsel := rfl
@[simp] theorem addF_bdirty (f : Field) (n : Nat) : (s.addF f n).bdirty = s.bdirty := rfl
@[simp] theorem addF_tally (f : Field) (n : Nat) : (s.addF f n).tally = s.tally := rfl
@[simp] theorem addF_policy (f : Field) (n : Nat) : (s.addF f n).policy = s.policy := rfl
@[simp] theorem addF_blk (f : Field) (n : Nat) : (s.addF f n).blk = s.blk := rfl
@[simp] theorem addF_taint (f : Field) (n : Nat) : (s.addF f n).taint = s.taint := rfl
@[simp] theorem addF_rsps (f : Field) (n : Nat) : (s.addF f n).rsps = s.rsps := rfl
@[simp] theorem addF_fe (f : Field) (n : Nat) : (s.addF f n).fe = s.fe := rfl
@[simp] theorem addF_refHz (f : Field) (n : Nat) : (s.addF f n).refHz = s.refHz := rfl
@[simp] theorem addF_rootM (f : Field) (n : Nat) : (s.addF f n).rootM = s.rootM := rfl
@[simp] theorem addF_phase (f : Field) (n : Nat) : (s.addF f n).phase = s.phase := rfl
@[simp] theorem addF_dbgHalt (f : Field) (n : Nat) : (s.addF f n).dbgHalt = s.dbgHalt := rfl
@[simp] theorem addF_netq (f : Field) (n : Nat) : (s.addF f n).netq = s.netq := rfl
@[simp] theorem addF_netPtr (f : Field) (n : Nat) : (s.addF f n).netPtr = s.netPtr := rfl
@[simp] theorem addF_memq (f : Field) (n : Nat) : (s.addF f n).memq = s.memq := rfl
@[simp] theorem addF_memPtr (f : Field) (n : Nat) : (s.addF f n).memPtr = s.memPtr := rfl
@[simp] theorem addF_inject (f : Field) (n : Nat) : (s.addF f n).inject = s.inject := rfl
@[simp] theorem addF_outst (f : Field) (n : Nat) : (s.addF f n).outst = s.outst := rfl
@[simp] theorem addF_quar (f : Field) (n : Nat) : (s.addF f n).quar = s.quar := rfl
@[simp] theorem addF_naps (f : Field) (n : Nat) : (s.addF f n).naps = s.naps := rfl
@[simp] theorem addF_mem (f : Field) (n : Nat) : (s.addF f n).mem = s.mem := rfl
@[simp] theorem addF_tram (f : Field) (n : Nat) : (s.addF f n).tram = s.tram := rfl
@[simp] theorem addF_sram (f : Field) (n : Nat) : (s.addF f n).sram = s.sram := rfl
@[simp] theorem addF_tellers (f : Field) (n : Nat) : (s.addF f n).tellers = s.tellers := rfl
@[simp] theorem addF_keyw (f : Field) (n : Nat) : (s.addF f n).keyw = s.keyw := rfl
@[simp] theorem addF_winKey (f : Field) (n : Nat) : (s.addF f n).winKey = s.winKey := rfl
@[simp] theorem addF_rootw (f : Field) (n : Nat) : (s.addF f n).rootw = s.rootw := rfl
@[simp] theorem addF_nodes (f : Field) (n : Nat) : (s.addF f n).nodes = s.nodes := rfl
@[simp] theorem addF_zeroing (f : Field) (n : Nat) : (s.addF f n).zeroing = s.zeroing := rfl
@[simp] theorem addF_okeys (f : Field) (n : Nat) : (s.addF f n).okeys = s.okeys := rfl
@[simp] theorem addF_fuses (f : Field) (n : Nat) : (s.addF f n).fuses = s.fuses := rfl
@[simp] theorem addF_tk (f : Field) (n : Nat) : (s.addF f n).tk = s.tk := rfl
@[simp] theorem addF_laneTest (f : Field) (n : Nat) : (s.addF f n).laneTest = s.laneTest := rfl
@[simp] theorem addF_pllDue (f : Field) (n : Nat) : (s.addF f n).pllDue = s.pllDue := rfl
@[simp] theorem addF_wakes (f : Field) (n : Nat) : (s.addF f n).wakes = s.wakes := rfl
@[simp] theorem addF_tapIr (f : Field) (n : Nat) : (s.addF f n).tapIr = s.tapIr := rfl
@[simp] theorem addF_flash (f : Field) (n : Nat) : (s.addF f n).flash = s.flash := rfl
@[simp] theorem addF_ld (f : Field) (n : Nat) : (s.addF f n).ld = s.ld := rfl
@[simp] theorem addF_loaded (f : Field) (n : Nat) : (s.addF f n).loaded = s.loaded := rfl
@[simp] theorem addF_scrub (f : Field) (n : Nat) : (s.addF f n).scrub = s.scrub := rfl
@[simp] theorem addF_pstore (f : Field) (n : Nat) : (s.addF f n).pstore = s.pstore := rfl
@[simp] theorem addF_sweepIdx (f : Field) (n : Nat) : (s.addF f n).sweepIdx = s.sweepIdx := rfl
@[simp] theorem addF_cores (f : Field) (n : Nat) : (s.addF f n).cores = s.cores := rfl
@[simp] theorem addF_hub (f : Field) (n : Nat) : (s.addF f n).hub = s.hub := rfl
@[simp] theorem addF_evtPtr (f : Field) (n : Nat) : (s.addF f n).evtPtr = s.evtPtr := rfl
@[simp] theorem addF_aon (f : Field) (n : Nat) : (s.addF f n).aon = s.aon := rfl
@[simp] theorem addF_th (f : Field) (n : Nat) : (s.addF f n).th = s.th := rfl
@[simp] theorem addF_rt (f : Field) (n : Nat) : (s.addF f n).rt = s.rt := rfl
@[simp] theorem addF_vdead (f : Field) (n : Nat) : (s.addF f n).vdead = s.vdead := rfl
@[simp] theorem addF_spares (f : Field) (n : Nat) : (s.addF f n).spares = s.spares := rfl
@[simp] theorem addF_dbg (f : Field) (n : Nat) : (s.addF f n).dbg = s.dbg := rfl
@[simp] theorem addF_gpio (f : Field) (n : Nat) : (s.addF f n).gpio = s.gpio := rfl
@[simp] theorem addF_clk (f : Field) (n : Nat) : (s.addF f n).clk = s.clk := rfl

/-! ### incF -/

@[simp] theorem incF_pending (f : Field) : (s.incF f).pending = s.pending := rfl
@[simp] theorem incF_resp (f : Field) : (s.incF f).resp = s.resp := rfl
@[simp] theorem incF_fresh (f : Field) : (s.incF f).fresh = s.fresh := rfl
@[simp] theorem incF_raised (f : Field) : (s.incF f).raised = s.raised := rfl
@[simp] theorem incF_clockOn (f : Field) : (s.incF f).clockOn = s.clockOn := rfl
@[simp] theorem incF_time (f : Field) : (s.incF f).time = s.time := rfl
@[simp] theorem incF_schedPend (f : Field) : (s.incF f).schedPend = s.schedPend := rfl
@[simp] theorem incF_armFresh (f : Field) : (s.incF f).armFresh = s.armFresh := rfl
@[simp] theorem incF_cfgw (f : Field) : (s.incF f).cfgw = s.cfgw := rfl
@[simp] theorem incF_sreg (f : Field) : (s.incF f).sreg = s.sreg := rfl
@[simp] theorem incF_wreg (f : Field) : (s.incF f).wreg = s.wreg := rfl
@[simp] theorem incF_vheld (f : Field) : (s.incF f).vheld = s.vheld := rfl
@[simp] theorem incF_sweepDone (f : Field) : (s.incF f).sweepDone = s.sweepDone := rfl
@[simp] theorem incF_macAcc (f : Field) : (s.incF f).macAcc = s.macAcc := rfl
@[simp] theorem incF_macPre (f : Field) : (s.incF f).macPre = s.macPre := rfl
@[simp] theorem incF_macs (f : Field) : (s.incF f).macs = s.macs := rfl
@[simp] theorem incF_macWait (f : Field) : (s.incF f).macWait = s.macWait := rfl
@[simp] theorem incF_rankers (f : Field) : (s.incF f).rankers = s.rankers := rfl
@[simp] theorem incF_mstore (f : Field) : (s.incF f).mstore = s.mstore := rfl
@[simp] theorem incF_matchers (f : Field) : (s.incF f).matchers = s.matchers := rfl
@[simp] theorem incF_bmem (f : Field) : (s.incF f).bmem = s.bmem := rfl
@[simp] theorem incF_banks (f : Field) : (s.incF f).banks = s.banks := rfl
@[simp] theorem incF_bsel (f : Field) : (s.incF f).bsel = s.bsel := rfl
@[simp] theorem incF_bdirty (f : Field) : (s.incF f).bdirty = s.bdirty := rfl
@[simp] theorem incF_tally (f : Field) : (s.incF f).tally = s.tally := rfl
@[simp] theorem incF_policy (f : Field) : (s.incF f).policy = s.policy := rfl
@[simp] theorem incF_blk (f : Field) : (s.incF f).blk = s.blk := rfl
@[simp] theorem incF_taint (f : Field) : (s.incF f).taint = s.taint := rfl
@[simp] theorem incF_rsps (f : Field) : (s.incF f).rsps = s.rsps := rfl
@[simp] theorem incF_fe (f : Field) : (s.incF f).fe = s.fe := rfl
@[simp] theorem incF_refHz (f : Field) : (s.incF f).refHz = s.refHz := rfl
@[simp] theorem incF_rootM (f : Field) : (s.incF f).rootM = s.rootM := rfl
@[simp] theorem incF_phase (f : Field) : (s.incF f).phase = s.phase := rfl
@[simp] theorem incF_dbgHalt (f : Field) : (s.incF f).dbgHalt = s.dbgHalt := rfl
@[simp] theorem incF_netq (f : Field) : (s.incF f).netq = s.netq := rfl
@[simp] theorem incF_netPtr (f : Field) : (s.incF f).netPtr = s.netPtr := rfl
@[simp] theorem incF_memq (f : Field) : (s.incF f).memq = s.memq := rfl
@[simp] theorem incF_memPtr (f : Field) : (s.incF f).memPtr = s.memPtr := rfl
@[simp] theorem incF_inject (f : Field) : (s.incF f).inject = s.inject := rfl
@[simp] theorem incF_outst (f : Field) : (s.incF f).outst = s.outst := rfl
@[simp] theorem incF_quar (f : Field) : (s.incF f).quar = s.quar := rfl
@[simp] theorem incF_naps (f : Field) : (s.incF f).naps = s.naps := rfl
@[simp] theorem incF_mem (f : Field) : (s.incF f).mem = s.mem := rfl
@[simp] theorem incF_tram (f : Field) : (s.incF f).tram = s.tram := rfl
@[simp] theorem incF_sram (f : Field) : (s.incF f).sram = s.sram := rfl
@[simp] theorem incF_tellers (f : Field) : (s.incF f).tellers = s.tellers := rfl
@[simp] theorem incF_keyw (f : Field) : (s.incF f).keyw = s.keyw := rfl
@[simp] theorem incF_winKey (f : Field) : (s.incF f).winKey = s.winKey := rfl
@[simp] theorem incF_rootw (f : Field) : (s.incF f).rootw = s.rootw := rfl
@[simp] theorem incF_nodes (f : Field) : (s.incF f).nodes = s.nodes := rfl
@[simp] theorem incF_zeroing (f : Field) : (s.incF f).zeroing = s.zeroing := rfl
@[simp] theorem incF_okeys (f : Field) : (s.incF f).okeys = s.okeys := rfl
@[simp] theorem incF_fuses (f : Field) : (s.incF f).fuses = s.fuses := rfl
@[simp] theorem incF_tk (f : Field) : (s.incF f).tk = s.tk := rfl
@[simp] theorem incF_laneTest (f : Field) : (s.incF f).laneTest = s.laneTest := rfl
@[simp] theorem incF_pllDue (f : Field) : (s.incF f).pllDue = s.pllDue := rfl
@[simp] theorem incF_wakes (f : Field) : (s.incF f).wakes = s.wakes := rfl
@[simp] theorem incF_tapIr (f : Field) : (s.incF f).tapIr = s.tapIr := rfl
@[simp] theorem incF_flash (f : Field) : (s.incF f).flash = s.flash := rfl
@[simp] theorem incF_ld (f : Field) : (s.incF f).ld = s.ld := rfl
@[simp] theorem incF_loaded (f : Field) : (s.incF f).loaded = s.loaded := rfl
@[simp] theorem incF_scrub (f : Field) : (s.incF f).scrub = s.scrub := rfl
@[simp] theorem incF_pstore (f : Field) : (s.incF f).pstore = s.pstore := rfl
@[simp] theorem incF_sweepIdx (f : Field) : (s.incF f).sweepIdx = s.sweepIdx := rfl
@[simp] theorem incF_cores (f : Field) : (s.incF f).cores = s.cores := rfl
@[simp] theorem incF_hub (f : Field) : (s.incF f).hub = s.hub := rfl
@[simp] theorem incF_evtPtr (f : Field) : (s.incF f).evtPtr = s.evtPtr := rfl
@[simp] theorem incF_aon (f : Field) : (s.incF f).aon = s.aon := rfl
@[simp] theorem incF_th (f : Field) : (s.incF f).th = s.th := rfl
@[simp] theorem incF_rt (f : Field) : (s.incF f).rt = s.rt := rfl
@[simp] theorem incF_vdead (f : Field) : (s.incF f).vdead = s.vdead := rfl
@[simp] theorem incF_spares (f : Field) : (s.incF f).spares = s.spares := rfl
@[simp] theorem incF_dbg (f : Field) : (s.incF f).dbg = s.dbg := rfl
@[simp] theorem incF_gpio (f : Field) : (s.incF f).gpio = s.gpio := rfl
@[simp] theorem incF_clk (f : Field) : (s.incF f).clk = s.clk := rfl

/-! ### raiseEv -/

@[simp] theorem raiseEv_pending (e : Nat) : (s.raiseEv e).pending = s.pending := rfl
@[simp] theorem raiseEv_regs (e : Nat) : (s.raiseEv e).regs = s.regs := rfl
@[simp] theorem raiseEv_resp (e : Nat) : (s.raiseEv e).resp = s.resp := rfl
@[simp] theorem raiseEv_fresh (e : Nat) : (s.raiseEv e).fresh = s.fresh := rfl
@[simp] theorem raiseEv_clockOn (e : Nat) : (s.raiseEv e).clockOn = s.clockOn := rfl
@[simp] theorem raiseEv_time (e : Nat) : (s.raiseEv e).time = s.time := rfl
@[simp] theorem raiseEv_schedPend (e : Nat) : (s.raiseEv e).schedPend = s.schedPend := rfl
@[simp] theorem raiseEv_armFresh (e : Nat) : (s.raiseEv e).armFresh = s.armFresh := rfl
@[simp] theorem raiseEv_cfgw (e : Nat) : (s.raiseEv e).cfgw = s.cfgw := rfl
@[simp] theorem raiseEv_sreg (e : Nat) : (s.raiseEv e).sreg = s.sreg := rfl
@[simp] theorem raiseEv_wreg (e : Nat) : (s.raiseEv e).wreg = s.wreg := rfl
@[simp] theorem raiseEv_vheld (e : Nat) : (s.raiseEv e).vheld = s.vheld := rfl
@[simp] theorem raiseEv_sweepDone (e : Nat) : (s.raiseEv e).sweepDone = s.sweepDone := rfl
@[simp] theorem raiseEv_macAcc (e : Nat) : (s.raiseEv e).macAcc = s.macAcc := rfl
@[simp] theorem raiseEv_macPre (e : Nat) : (s.raiseEv e).macPre = s.macPre := rfl
@[simp] theorem raiseEv_macs (e : Nat) : (s.raiseEv e).macs = s.macs := rfl
@[simp] theorem raiseEv_macWait (e : Nat) : (s.raiseEv e).macWait = s.macWait := rfl
@[simp] theorem raiseEv_rankers (e : Nat) : (s.raiseEv e).rankers = s.rankers := rfl
@[simp] theorem raiseEv_mstore (e : Nat) : (s.raiseEv e).mstore = s.mstore := rfl
@[simp] theorem raiseEv_matchers (e : Nat) : (s.raiseEv e).matchers = s.matchers := rfl
@[simp] theorem raiseEv_bmem (e : Nat) : (s.raiseEv e).bmem = s.bmem := rfl
@[simp] theorem raiseEv_banks (e : Nat) : (s.raiseEv e).banks = s.banks := rfl
@[simp] theorem raiseEv_bsel (e : Nat) : (s.raiseEv e).bsel = s.bsel := rfl
@[simp] theorem raiseEv_bdirty (e : Nat) : (s.raiseEv e).bdirty = s.bdirty := rfl
@[simp] theorem raiseEv_tally (e : Nat) : (s.raiseEv e).tally = s.tally := rfl
@[simp] theorem raiseEv_policy (e : Nat) : (s.raiseEv e).policy = s.policy := rfl
@[simp] theorem raiseEv_blk (e : Nat) : (s.raiseEv e).blk = s.blk := rfl
@[simp] theorem raiseEv_taint (e : Nat) : (s.raiseEv e).taint = s.taint := rfl
@[simp] theorem raiseEv_rsps (e : Nat) : (s.raiseEv e).rsps = s.rsps := rfl
@[simp] theorem raiseEv_fe (e : Nat) : (s.raiseEv e).fe = s.fe := rfl
@[simp] theorem raiseEv_refHz (e : Nat) : (s.raiseEv e).refHz = s.refHz := rfl
@[simp] theorem raiseEv_rootM (e : Nat) : (s.raiseEv e).rootM = s.rootM := rfl
@[simp] theorem raiseEv_phase (e : Nat) : (s.raiseEv e).phase = s.phase := rfl
@[simp] theorem raiseEv_dbgHalt (e : Nat) : (s.raiseEv e).dbgHalt = s.dbgHalt := rfl
@[simp] theorem raiseEv_netq (e : Nat) : (s.raiseEv e).netq = s.netq := rfl
@[simp] theorem raiseEv_netPtr (e : Nat) : (s.raiseEv e).netPtr = s.netPtr := rfl
@[simp] theorem raiseEv_memq (e : Nat) : (s.raiseEv e).memq = s.memq := rfl
@[simp] theorem raiseEv_memPtr (e : Nat) : (s.raiseEv e).memPtr = s.memPtr := rfl
@[simp] theorem raiseEv_inject (e : Nat) : (s.raiseEv e).inject = s.inject := rfl
@[simp] theorem raiseEv_outst (e : Nat) : (s.raiseEv e).outst = s.outst := rfl
@[simp] theorem raiseEv_quar (e : Nat) : (s.raiseEv e).quar = s.quar := rfl
@[simp] theorem raiseEv_naps (e : Nat) : (s.raiseEv e).naps = s.naps := rfl
@[simp] theorem raiseEv_mem (e : Nat) : (s.raiseEv e).mem = s.mem := rfl
@[simp] theorem raiseEv_tram (e : Nat) : (s.raiseEv e).tram = s.tram := rfl
@[simp] theorem raiseEv_sram (e : Nat) : (s.raiseEv e).sram = s.sram := rfl
@[simp] theorem raiseEv_tellers (e : Nat) : (s.raiseEv e).tellers = s.tellers := rfl
@[simp] theorem raiseEv_keyw (e : Nat) : (s.raiseEv e).keyw = s.keyw := rfl
@[simp] theorem raiseEv_winKey (e : Nat) : (s.raiseEv e).winKey = s.winKey := rfl
@[simp] theorem raiseEv_rootw (e : Nat) : (s.raiseEv e).rootw = s.rootw := rfl
@[simp] theorem raiseEv_nodes (e : Nat) : (s.raiseEv e).nodes = s.nodes := rfl
@[simp] theorem raiseEv_zeroing (e : Nat) : (s.raiseEv e).zeroing = s.zeroing := rfl
@[simp] theorem raiseEv_okeys (e : Nat) : (s.raiseEv e).okeys = s.okeys := rfl
@[simp] theorem raiseEv_fuses (e : Nat) : (s.raiseEv e).fuses = s.fuses := rfl
@[simp] theorem raiseEv_tk (e : Nat) : (s.raiseEv e).tk = s.tk := rfl
@[simp] theorem raiseEv_laneTest (e : Nat) : (s.raiseEv e).laneTest = s.laneTest := rfl
@[simp] theorem raiseEv_pllDue (e : Nat) : (s.raiseEv e).pllDue = s.pllDue := rfl
@[simp] theorem raiseEv_wakes (e : Nat) : (s.raiseEv e).wakes = s.wakes := rfl
@[simp] theorem raiseEv_tapIr (e : Nat) : (s.raiseEv e).tapIr = s.tapIr := rfl
@[simp] theorem raiseEv_flash (e : Nat) : (s.raiseEv e).flash = s.flash := rfl
@[simp] theorem raiseEv_ld (e : Nat) : (s.raiseEv e).ld = s.ld := rfl
@[simp] theorem raiseEv_loaded (e : Nat) : (s.raiseEv e).loaded = s.loaded := rfl
@[simp] theorem raiseEv_scrub (e : Nat) : (s.raiseEv e).scrub = s.scrub := rfl
@[simp] theorem raiseEv_pstore (e : Nat) : (s.raiseEv e).pstore = s.pstore := rfl
@[simp] theorem raiseEv_sweepIdx (e : Nat) : (s.raiseEv e).sweepIdx = s.sweepIdx := rfl
@[simp] theorem raiseEv_cores (e : Nat) : (s.raiseEv e).cores = s.cores := rfl
@[simp] theorem raiseEv_hub (e : Nat) : (s.raiseEv e).hub = s.hub := rfl
@[simp] theorem raiseEv_evtPtr (e : Nat) : (s.raiseEv e).evtPtr = s.evtPtr := rfl
@[simp] theorem raiseEv_aon (e : Nat) : (s.raiseEv e).aon = s.aon := rfl
@[simp] theorem raiseEv_th (e : Nat) : (s.raiseEv e).th = s.th := rfl
@[simp] theorem raiseEv_rt (e : Nat) : (s.raiseEv e).rt = s.rt := rfl
@[simp] theorem raiseEv_vdead (e : Nat) : (s.raiseEv e).vdead = s.vdead := rfl
@[simp] theorem raiseEv_spares (e : Nat) : (s.raiseEv e).spares = s.spares := rfl
@[simp] theorem raiseEv_dbg (e : Nat) : (s.raiseEv e).dbg = s.dbg := rfl
@[simp] theorem raiseEv_gpio (e : Nat) : (s.raiseEv e).gpio = s.gpio := rfl
@[simp] theorem raiseEv_clk (e : Nat) : (s.raiseEv e).clk = s.clk := rfl

/-! ### raiseEach -/

@[simp] theorem raiseEach_pending (e : Nat) : (s.raiseEach e).pending = s.pending := rfl
@[simp] theorem raiseEach_regs (e : Nat) : (s.raiseEach e).regs = s.regs := rfl
@[simp] theorem raiseEach_resp (e : Nat) : (s.raiseEach e).resp = s.resp := rfl
@[simp] theorem raiseEach_fresh (e : Nat) : (s.raiseEach e).fresh = s.fresh := rfl
@[simp] theorem raiseEach_cyc (e : Nat) : (s.raiseEach e).cyc = s.cyc := rfl
@[simp] theorem raiseEach_clockOn (e : Nat) : (s.raiseEach e).clockOn = s.clockOn := rfl
@[simp] theorem raiseEach_time (e : Nat) : (s.raiseEach e).time = s.time := rfl
@[simp] theorem raiseEach_schedPend (e : Nat) : (s.raiseEach e).schedPend = s.schedPend := rfl
@[simp] theorem raiseEach_armFresh (e : Nat) : (s.raiseEach e).armFresh = s.armFresh := rfl
@[simp] theorem raiseEach_cfgw (e : Nat) : (s.raiseEach e).cfgw = s.cfgw := rfl
@[simp] theorem raiseEach_sreg (e : Nat) : (s.raiseEach e).sreg = s.sreg := rfl
@[simp] theorem raiseEach_wreg (e : Nat) : (s.raiseEach e).wreg = s.wreg := rfl
@[simp] theorem raiseEach_vheld (e : Nat) : (s.raiseEach e).vheld = s.vheld := rfl
@[simp] theorem raiseEach_sweepDone (e : Nat) : (s.raiseEach e).sweepDone = s.sweepDone := rfl
@[simp] theorem raiseEach_macAcc (e : Nat) : (s.raiseEach e).macAcc = s.macAcc := rfl
@[simp] theorem raiseEach_macPre (e : Nat) : (s.raiseEach e).macPre = s.macPre := rfl
@[simp] theorem raiseEach_macs (e : Nat) : (s.raiseEach e).macs = s.macs := rfl
@[simp] theorem raiseEach_macWait (e : Nat) : (s.raiseEach e).macWait = s.macWait := rfl
@[simp] theorem raiseEach_rankers (e : Nat) : (s.raiseEach e).rankers = s.rankers := rfl
@[simp] theorem raiseEach_mstore (e : Nat) : (s.raiseEach e).mstore = s.mstore := rfl
@[simp] theorem raiseEach_matchers (e : Nat) : (s.raiseEach e).matchers = s.matchers := rfl
@[simp] theorem raiseEach_bmem (e : Nat) : (s.raiseEach e).bmem = s.bmem := rfl
@[simp] theorem raiseEach_banks (e : Nat) : (s.raiseEach e).banks = s.banks := rfl
@[simp] theorem raiseEach_bsel (e : Nat) : (s.raiseEach e).bsel = s.bsel := rfl
@[simp] theorem raiseEach_bdirty (e : Nat) : (s.raiseEach e).bdirty = s.bdirty := rfl
@[simp] theorem raiseEach_tally (e : Nat) : (s.raiseEach e).tally = s.tally := rfl
@[simp] theorem raiseEach_policy (e : Nat) : (s.raiseEach e).policy = s.policy := rfl
@[simp] theorem raiseEach_blk (e : Nat) : (s.raiseEach e).blk = s.blk := rfl
@[simp] theorem raiseEach_taint (e : Nat) : (s.raiseEach e).taint = s.taint := rfl
@[simp] theorem raiseEach_rsps (e : Nat) : (s.raiseEach e).rsps = s.rsps := rfl
@[simp] theorem raiseEach_fe (e : Nat) : (s.raiseEach e).fe = s.fe := rfl
@[simp] theorem raiseEach_refHz (e : Nat) : (s.raiseEach e).refHz = s.refHz := rfl
@[simp] theorem raiseEach_rootM (e : Nat) : (s.raiseEach e).rootM = s.rootM := rfl
@[simp] theorem raiseEach_phase (e : Nat) : (s.raiseEach e).phase = s.phase := rfl
@[simp] theorem raiseEach_dbgHalt (e : Nat) : (s.raiseEach e).dbgHalt = s.dbgHalt := rfl
@[simp] theorem raiseEach_netq (e : Nat) : (s.raiseEach e).netq = s.netq := rfl
@[simp] theorem raiseEach_netPtr (e : Nat) : (s.raiseEach e).netPtr = s.netPtr := rfl
@[simp] theorem raiseEach_memq (e : Nat) : (s.raiseEach e).memq = s.memq := rfl
@[simp] theorem raiseEach_memPtr (e : Nat) : (s.raiseEach e).memPtr = s.memPtr := rfl
@[simp] theorem raiseEach_inject (e : Nat) : (s.raiseEach e).inject = s.inject := rfl
@[simp] theorem raiseEach_outst (e : Nat) : (s.raiseEach e).outst = s.outst := rfl
@[simp] theorem raiseEach_quar (e : Nat) : (s.raiseEach e).quar = s.quar := rfl
@[simp] theorem raiseEach_naps (e : Nat) : (s.raiseEach e).naps = s.naps := rfl
@[simp] theorem raiseEach_mem (e : Nat) : (s.raiseEach e).mem = s.mem := rfl
@[simp] theorem raiseEach_tram (e : Nat) : (s.raiseEach e).tram = s.tram := rfl
@[simp] theorem raiseEach_sram (e : Nat) : (s.raiseEach e).sram = s.sram := rfl
@[simp] theorem raiseEach_tellers (e : Nat) : (s.raiseEach e).tellers = s.tellers := rfl
@[simp] theorem raiseEach_keyw (e : Nat) : (s.raiseEach e).keyw = s.keyw := rfl
@[simp] theorem raiseEach_winKey (e : Nat) : (s.raiseEach e).winKey = s.winKey := rfl
@[simp] theorem raiseEach_rootw (e : Nat) : (s.raiseEach e).rootw = s.rootw := rfl
@[simp] theorem raiseEach_nodes (e : Nat) : (s.raiseEach e).nodes = s.nodes := rfl
@[simp] theorem raiseEach_zeroing (e : Nat) : (s.raiseEach e).zeroing = s.zeroing := rfl
@[simp] theorem raiseEach_okeys (e : Nat) : (s.raiseEach e).okeys = s.okeys := rfl
@[simp] theorem raiseEach_fuses (e : Nat) : (s.raiseEach e).fuses = s.fuses := rfl
@[simp] theorem raiseEach_tk (e : Nat) : (s.raiseEach e).tk = s.tk := rfl
@[simp] theorem raiseEach_laneTest (e : Nat) : (s.raiseEach e).laneTest = s.laneTest := rfl
@[simp] theorem raiseEach_pllDue (e : Nat) : (s.raiseEach e).pllDue = s.pllDue := rfl
@[simp] theorem raiseEach_wakes (e : Nat) : (s.raiseEach e).wakes = s.wakes := rfl
@[simp] theorem raiseEach_tapIr (e : Nat) : (s.raiseEach e).tapIr = s.tapIr := rfl
@[simp] theorem raiseEach_flash (e : Nat) : (s.raiseEach e).flash = s.flash := rfl
@[simp] theorem raiseEach_ld (e : Nat) : (s.raiseEach e).ld = s.ld := rfl
@[simp] theorem raiseEach_loaded (e : Nat) : (s.raiseEach e).loaded = s.loaded := rfl
@[simp] theorem raiseEach_scrub (e : Nat) : (s.raiseEach e).scrub = s.scrub := rfl
@[simp] theorem raiseEach_pstore (e : Nat) : (s.raiseEach e).pstore = s.pstore := rfl
@[simp] theorem raiseEach_sweepIdx (e : Nat) : (s.raiseEach e).sweepIdx = s.sweepIdx := rfl
@[simp] theorem raiseEach_cores (e : Nat) : (s.raiseEach e).cores = s.cores := rfl
@[simp] theorem raiseEach_hub (e : Nat) : (s.raiseEach e).hub = s.hub := rfl
@[simp] theorem raiseEach_evtPtr (e : Nat) : (s.raiseEach e).evtPtr = s.evtPtr := rfl
@[simp] theorem raiseEach_aon (e : Nat) : (s.raiseEach e).aon = s.aon := rfl
@[simp] theorem raiseEach_th (e : Nat) : (s.raiseEach e).th = s.th := rfl
@[simp] theorem raiseEach_rt (e : Nat) : (s.raiseEach e).rt = s.rt := rfl
@[simp] theorem raiseEach_vdead (e : Nat) : (s.raiseEach e).vdead = s.vdead := rfl
@[simp] theorem raiseEach_spares (e : Nat) : (s.raiseEach e).spares = s.spares := rfl
@[simp] theorem raiseEach_dbg (e : Nat) : (s.raiseEach e).dbg = s.dbg := rfl
@[simp] theorem raiseEach_gpio (e : Nat) : (s.raiseEach e).gpio = s.gpio := rfl
@[simp] theorem raiseEach_clk (e : Nat) : (s.raiseEach e).clk = s.clk := rfl

/-! ### newSlot -/

@[simp] theorem newSlot_pending : (s.newSlot).pending = s.pending := rfl
@[simp] theorem newSlot_regs : (s.newSlot).regs = s.regs := rfl
@[simp] theorem newSlot_resp : (s.newSlot).resp = s.resp := rfl
@[simp] theorem newSlot_fresh : (s.newSlot).fresh = s.fresh := rfl
@[simp] theorem newSlot_raised : (s.newSlot).raised = s.raised := rfl
@[simp] theorem newSlot_clockOn : (s.newSlot).clockOn = s.clockOn := rfl
@[simp] theorem newSlot_time : (s.newSlot).time = s.time := rfl
@[simp] theorem newSlot_schedPend : (s.newSlot).schedPend = s.schedPend := rfl
@[simp] theorem newSlot_armFresh : (s.newSlot).armFresh = s.armFresh := rfl
@[simp] theorem newSlot_cfgw : (s.newSlot).cfgw = s.cfgw := rfl
@[simp] theorem newSlot_sreg : (s.newSlot).sreg = s.sreg := rfl
@[simp] theorem newSlot_wreg : (s.newSlot).wreg = s.wreg := rfl
@[simp] theorem newSlot_vheld : (s.newSlot).vheld = s.vheld := rfl
@[simp] theorem newSlot_sweepDone : (s.newSlot).sweepDone = s.sweepDone := rfl
@[simp] theorem newSlot_macAcc : (s.newSlot).macAcc = s.macAcc := rfl
@[simp] theorem newSlot_macPre : (s.newSlot).macPre = s.macPre := rfl
@[simp] theorem newSlot_macs : (s.newSlot).macs = s.macs := rfl
@[simp] theorem newSlot_macWait : (s.newSlot).macWait = s.macWait := rfl
@[simp] theorem newSlot_rankers : (s.newSlot).rankers = s.rankers := rfl
@[simp] theorem newSlot_mstore : (s.newSlot).mstore = s.mstore := rfl
@[simp] theorem newSlot_matchers : (s.newSlot).matchers = s.matchers := rfl
@[simp] theorem newSlot_bmem : (s.newSlot).bmem = s.bmem := rfl
@[simp] theorem newSlot_banks : (s.newSlot).banks = s.banks := rfl
@[simp] theorem newSlot_bsel : (s.newSlot).bsel = s.bsel := rfl
@[simp] theorem newSlot_bdirty : (s.newSlot).bdirty = s.bdirty := rfl
@[simp] theorem newSlot_tally : (s.newSlot).tally = s.tally := rfl
@[simp] theorem newSlot_policy : (s.newSlot).policy = s.policy := rfl
@[simp] theorem newSlot_blk : (s.newSlot).blk = s.blk := rfl
@[simp] theorem newSlot_taint : (s.newSlot).taint = s.taint := rfl
@[simp] theorem newSlot_rsps : (s.newSlot).rsps = s.rsps := rfl
@[simp] theorem newSlot_fe : (s.newSlot).fe = s.fe := rfl
@[simp] theorem newSlot_refHz : (s.newSlot).refHz = s.refHz := rfl
@[simp] theorem newSlot_rootM : (s.newSlot).rootM = s.rootM := rfl
@[simp] theorem newSlot_phase : (s.newSlot).phase = s.phase := rfl
@[simp] theorem newSlot_dbgHalt : (s.newSlot).dbgHalt = s.dbgHalt := rfl
@[simp] theorem newSlot_netq : (s.newSlot).netq = s.netq := rfl
@[simp] theorem newSlot_netPtr : (s.newSlot).netPtr = s.netPtr := rfl
@[simp] theorem newSlot_memq : (s.newSlot).memq = s.memq := rfl
@[simp] theorem newSlot_memPtr : (s.newSlot).memPtr = s.memPtr := rfl
@[simp] theorem newSlot_inject : (s.newSlot).inject = s.inject := rfl
@[simp] theorem newSlot_outst : (s.newSlot).outst = s.outst := rfl
@[simp] theorem newSlot_quar : (s.newSlot).quar = s.quar := rfl
@[simp] theorem newSlot_naps : (s.newSlot).naps = s.naps := rfl
@[simp] theorem newSlot_mem : (s.newSlot).mem = s.mem := rfl
@[simp] theorem newSlot_tram : (s.newSlot).tram = s.tram := rfl
@[simp] theorem newSlot_sram : (s.newSlot).sram = s.sram := rfl
@[simp] theorem newSlot_tellers : (s.newSlot).tellers = s.tellers := rfl
@[simp] theorem newSlot_keyw : (s.newSlot).keyw = s.keyw := rfl
@[simp] theorem newSlot_winKey : (s.newSlot).winKey = s.winKey := rfl
@[simp] theorem newSlot_rootw : (s.newSlot).rootw = s.rootw := rfl
@[simp] theorem newSlot_nodes : (s.newSlot).nodes = s.nodes := rfl
@[simp] theorem newSlot_zeroing : (s.newSlot).zeroing = s.zeroing := rfl
@[simp] theorem newSlot_okeys : (s.newSlot).okeys = s.okeys := rfl
@[simp] theorem newSlot_fuses : (s.newSlot).fuses = s.fuses := rfl
@[simp] theorem newSlot_tk : (s.newSlot).tk = s.tk := rfl
@[simp] theorem newSlot_laneTest : (s.newSlot).laneTest = s.laneTest := rfl
@[simp] theorem newSlot_pllDue : (s.newSlot).pllDue = s.pllDue := rfl
@[simp] theorem newSlot_wakes : (s.newSlot).wakes = s.wakes := rfl
@[simp] theorem newSlot_tapIr : (s.newSlot).tapIr = s.tapIr := rfl
@[simp] theorem newSlot_flash : (s.newSlot).flash = s.flash := rfl
@[simp] theorem newSlot_ld : (s.newSlot).ld = s.ld := rfl
@[simp] theorem newSlot_loaded : (s.newSlot).loaded = s.loaded := rfl
@[simp] theorem newSlot_scrub : (s.newSlot).scrub = s.scrub := rfl
@[simp] theorem newSlot_pstore : (s.newSlot).pstore = s.pstore := rfl
@[simp] theorem newSlot_sweepIdx : (s.newSlot).sweepIdx = s.sweepIdx := rfl
@[simp] theorem newSlot_cores : (s.newSlot).cores = s.cores := rfl
@[simp] theorem newSlot_hub : (s.newSlot).hub = s.hub := rfl
@[simp] theorem newSlot_evtPtr : (s.newSlot).evtPtr = s.evtPtr := rfl
@[simp] theorem newSlot_aon : (s.newSlot).aon = s.aon := rfl
@[simp] theorem newSlot_th : (s.newSlot).th = s.th := rfl
@[simp] theorem newSlot_rt : (s.newSlot).rt = s.rt := rfl
@[simp] theorem newSlot_vdead : (s.newSlot).vdead = s.vdead := rfl
@[simp] theorem newSlot_spares : (s.newSlot).spares = s.spares := rfl
@[simp] theorem newSlot_dbg : (s.newSlot).dbg = s.dbg := rfl
@[simp] theorem newSlot_gpio : (s.newSlot).gpio = s.gpio := rfl
@[simp] theorem newSlot_clk : (s.newSlot).clk = s.clk := rfl

/-! ### laneTo -/

@[simp] theorem laneTo_pending (n st : Nat) : (s.laneTo n st).pending = s.pending := rfl
@[simp] theorem laneTo_resp (n st : Nat) : (s.laneTo n st).resp = s.resp := rfl
@[simp] theorem laneTo_fresh (n st : Nat) : (s.laneTo n st).fresh = s.fresh := rfl
@[simp] theorem laneTo_raised (n st : Nat) : (s.laneTo n st).raised = s.raised := rfl
@[simp] theorem laneTo_clockOn (n st : Nat) : (s.laneTo n st).clockOn = s.clockOn := rfl
@[simp] theorem laneTo_time (n st : Nat) : (s.laneTo n st).time = s.time := rfl
@[simp] theorem laneTo_schedPend (n st : Nat) : (s.laneTo n st).schedPend = s.schedPend := rfl
@[simp] theorem laneTo_armFresh (n st : Nat) : (s.laneTo n st).armFresh = s.armFresh := rfl
@[simp] theorem laneTo_cfgw (n st : Nat) : (s.laneTo n st).cfgw = s.cfgw := rfl
@[simp] theorem laneTo_sreg (n st : Nat) : (s.laneTo n st).sreg = s.sreg := rfl
@[simp] theorem laneTo_wreg (n st : Nat) : (s.laneTo n st).wreg = s.wreg := rfl
@[simp] theorem laneTo_vheld (n st : Nat) : (s.laneTo n st).vheld = s.vheld := rfl
@[simp] theorem laneTo_sweepDone (n st : Nat) : (s.laneTo n st).sweepDone = s.sweepDone := rfl
@[simp] theorem laneTo_macAcc (n st : Nat) : (s.laneTo n st).macAcc = s.macAcc := rfl
@[simp] theorem laneTo_macPre (n st : Nat) : (s.laneTo n st).macPre = s.macPre := rfl
@[simp] theorem laneTo_macs (n st : Nat) : (s.laneTo n st).macs = s.macs := rfl
@[simp] theorem laneTo_macWait (n st : Nat) : (s.laneTo n st).macWait = s.macWait := rfl
@[simp] theorem laneTo_rankers (n st : Nat) : (s.laneTo n st).rankers = s.rankers := rfl
@[simp] theorem laneTo_mstore (n st : Nat) : (s.laneTo n st).mstore = s.mstore := rfl
@[simp] theorem laneTo_matchers (n st : Nat) : (s.laneTo n st).matchers = s.matchers := rfl
@[simp] theorem laneTo_bmem (n st : Nat) : (s.laneTo n st).bmem = s.bmem := rfl
@[simp] theorem laneTo_banks (n st : Nat) : (s.laneTo n st).banks = s.banks := rfl
@[simp] theorem laneTo_bsel (n st : Nat) : (s.laneTo n st).bsel = s.bsel := rfl
@[simp] theorem laneTo_bdirty (n st : Nat) : (s.laneTo n st).bdirty = s.bdirty := rfl
@[simp] theorem laneTo_tally (n st : Nat) : (s.laneTo n st).tally = s.tally := rfl
@[simp] theorem laneTo_policy (n st : Nat) : (s.laneTo n st).policy = s.policy := rfl
@[simp] theorem laneTo_blk (n st : Nat) : (s.laneTo n st).blk = s.blk := rfl
@[simp] theorem laneTo_taint (n st : Nat) : (s.laneTo n st).taint = s.taint := rfl
@[simp] theorem laneTo_rsps (n st : Nat) : (s.laneTo n st).rsps = s.rsps := rfl
@[simp] theorem laneTo_fe (n st : Nat) : (s.laneTo n st).fe = s.fe := rfl
@[simp] theorem laneTo_refHz (n st : Nat) : (s.laneTo n st).refHz = s.refHz := rfl
@[simp] theorem laneTo_rootM (n st : Nat) : (s.laneTo n st).rootM = s.rootM := rfl
@[simp] theorem laneTo_phase (n st : Nat) : (s.laneTo n st).phase = s.phase := rfl
@[simp] theorem laneTo_dbgHalt (n st : Nat) : (s.laneTo n st).dbgHalt = s.dbgHalt := rfl
@[simp] theorem laneTo_netq (n st : Nat) : (s.laneTo n st).netq = s.netq := rfl
@[simp] theorem laneTo_netPtr (n st : Nat) : (s.laneTo n st).netPtr = s.netPtr := rfl
@[simp] theorem laneTo_memq (n st : Nat) : (s.laneTo n st).memq = s.memq := rfl
@[simp] theorem laneTo_memPtr (n st : Nat) : (s.laneTo n st).memPtr = s.memPtr := rfl
@[simp] theorem laneTo_inject (n st : Nat) : (s.laneTo n st).inject = s.inject := rfl
@[simp] theorem laneTo_outst (n st : Nat) : (s.laneTo n st).outst = s.outst := rfl
@[simp] theorem laneTo_quar (n st : Nat) : (s.laneTo n st).quar = s.quar := rfl
@[simp] theorem laneTo_naps (n st : Nat) : (s.laneTo n st).naps = s.naps := rfl
@[simp] theorem laneTo_mem (n st : Nat) : (s.laneTo n st).mem = s.mem := rfl
@[simp] theorem laneTo_tram (n st : Nat) : (s.laneTo n st).tram = s.tram := rfl
@[simp] theorem laneTo_sram (n st : Nat) : (s.laneTo n st).sram = s.sram := rfl
@[simp] theorem laneTo_tellers (n st : Nat) : (s.laneTo n st).tellers = s.tellers := rfl
@[simp] theorem laneTo_keyw (n st : Nat) : (s.laneTo n st).keyw = s.keyw := rfl
@[simp] theorem laneTo_winKey (n st : Nat) : (s.laneTo n st).winKey = s.winKey := rfl
@[simp] theorem laneTo_rootw (n st : Nat) : (s.laneTo n st).rootw = s.rootw := rfl
@[simp] theorem laneTo_nodes (n st : Nat) : (s.laneTo n st).nodes = s.nodes := rfl
@[simp] theorem laneTo_zeroing (n st : Nat) : (s.laneTo n st).zeroing = s.zeroing := rfl
@[simp] theorem laneTo_okeys (n st : Nat) : (s.laneTo n st).okeys = s.okeys := rfl
@[simp] theorem laneTo_fuses (n st : Nat) : (s.laneTo n st).fuses = s.fuses := rfl
@[simp] theorem laneTo_tk (n st : Nat) : (s.laneTo n st).tk = s.tk := rfl
@[simp] theorem laneTo_laneTest (n st : Nat) : (s.laneTo n st).laneTest = s.laneTest := rfl
@[simp] theorem laneTo_pllDue (n st : Nat) : (s.laneTo n st).pllDue = s.pllDue := rfl
@[simp] theorem laneTo_wakes (n st : Nat) : (s.laneTo n st).wakes = s.wakes := rfl
@[simp] theorem laneTo_tapIr (n st : Nat) : (s.laneTo n st).tapIr = s.tapIr := rfl
@[simp] theorem laneTo_flash (n st : Nat) : (s.laneTo n st).flash = s.flash := rfl
@[simp] theorem laneTo_ld (n st : Nat) : (s.laneTo n st).ld = s.ld := rfl
@[simp] theorem laneTo_loaded (n st : Nat) : (s.laneTo n st).loaded = s.loaded := rfl
@[simp] theorem laneTo_scrub (n st : Nat) : (s.laneTo n st).scrub = s.scrub := rfl
@[simp] theorem laneTo_pstore (n st : Nat) : (s.laneTo n st).pstore = s.pstore := rfl
@[simp] theorem laneTo_sweepIdx (n st : Nat) : (s.laneTo n st).sweepIdx = s.sweepIdx := rfl
@[simp] theorem laneTo_cores (n st : Nat) : (s.laneTo n st).cores = s.cores := rfl
@[simp] theorem laneTo_hub (n st : Nat) : (s.laneTo n st).hub = s.hub := rfl
@[simp] theorem laneTo_evtPtr (n st : Nat) : (s.laneTo n st).evtPtr = s.evtPtr := rfl
@[simp] theorem laneTo_aon (n st : Nat) : (s.laneTo n st).aon = s.aon := rfl
@[simp] theorem laneTo_th (n st : Nat) : (s.laneTo n st).th = s.th := rfl
@[simp] theorem laneTo_rt (n st : Nat) : (s.laneTo n st).rt = s.rt := rfl
@[simp] theorem laneTo_vdead (n st : Nat) : (s.laneTo n st).vdead = s.vdead := rfl
@[simp] theorem laneTo_spares (n st : Nat) : (s.laneTo n st).spares = s.spares := rfl
@[simp] theorem laneTo_dbg (n st : Nat) : (s.laneTo n st).dbg = s.dbg := rfl
@[simp] theorem laneTo_gpio (n st : Nat) : (s.laneTo n st).gpio = s.gpio := rfl
@[simp] theorem laneTo_clk (n st : Nat) : (s.laneTo n st).clk = s.clk := rfl

/-! ### setTime -/

@[simp] theorem setTime_pending (x : TimeState) : (s.setTime x).pending = s.pending := rfl
@[simp] theorem setTime_regs (x : TimeState) : (s.setTime x).regs = s.regs := rfl
@[simp] theorem setTime_resp (x : TimeState) : (s.setTime x).resp = s.resp := rfl
@[simp] theorem setTime_fresh (x : TimeState) : (s.setTime x).fresh = s.fresh := rfl
@[simp] theorem setTime_raised (x : TimeState) : (s.setTime x).raised = s.raised := rfl
@[simp] theorem setTime_cyc (x : TimeState) : (s.setTime x).cyc = s.cyc := rfl
@[simp] theorem setTime_clockOn (x : TimeState) : (s.setTime x).clockOn = s.clockOn := rfl
@[simp] theorem setTime_schedPend (x : TimeState) : (s.setTime x).schedPend = s.schedPend := rfl
@[simp] theorem setTime_armFresh (x : TimeState) : (s.setTime x).armFresh = s.armFresh := rfl
@[simp] theorem setTime_cfgw (x : TimeState) : (s.setTime x).cfgw = s.cfgw := rfl
@[simp] theorem setTime_sreg (x : TimeState) : (s.setTime x).sreg = s.sreg := rfl
@[simp] theorem setTime_wreg (x : TimeState) : (s.setTime x).wreg = s.wreg := rfl
@[simp] theorem setTime_vheld (x : TimeState) : (s.setTime x).vheld = s.vheld := rfl
@[simp] theorem setTime_sweepDone (x : TimeState) : (s.setTime x).sweepDone = s.sweepDone := rfl
@[simp] theorem setTime_macAcc (x : TimeState) : (s.setTime x).macAcc = s.macAcc := rfl
@[simp] theorem setTime_macPre (x : TimeState) : (s.setTime x).macPre = s.macPre := rfl
@[simp] theorem setTime_macs (x : TimeState) : (s.setTime x).macs = s.macs := rfl
@[simp] theorem setTime_macWait (x : TimeState) : (s.setTime x).macWait = s.macWait := rfl
@[simp] theorem setTime_rankers (x : TimeState) : (s.setTime x).rankers = s.rankers := rfl
@[simp] theorem setTime_mstore (x : TimeState) : (s.setTime x).mstore = s.mstore := rfl
@[simp] theorem setTime_matchers (x : TimeState) : (s.setTime x).matchers = s.matchers := rfl
@[simp] theorem setTime_bmem (x : TimeState) : (s.setTime x).bmem = s.bmem := rfl
@[simp] theorem setTime_banks (x : TimeState) : (s.setTime x).banks = s.banks := rfl
@[simp] theorem setTime_bsel (x : TimeState) : (s.setTime x).bsel = s.bsel := rfl
@[simp] theorem setTime_bdirty (x : TimeState) : (s.setTime x).bdirty = s.bdirty := rfl
@[simp] theorem setTime_tally (x : TimeState) : (s.setTime x).tally = s.tally := rfl
@[simp] theorem setTime_policy (x : TimeState) : (s.setTime x).policy = s.policy := rfl
@[simp] theorem setTime_blk (x : TimeState) : (s.setTime x).blk = s.blk := rfl
@[simp] theorem setTime_taint (x : TimeState) : (s.setTime x).taint = s.taint := rfl
@[simp] theorem setTime_rsps (x : TimeState) : (s.setTime x).rsps = s.rsps := rfl
@[simp] theorem setTime_fe (x : TimeState) : (s.setTime x).fe = s.fe := rfl
@[simp] theorem setTime_refHz (x : TimeState) : (s.setTime x).refHz = s.refHz := rfl
@[simp] theorem setTime_rootM (x : TimeState) : (s.setTime x).rootM = s.rootM := rfl
@[simp] theorem setTime_phase (x : TimeState) : (s.setTime x).phase = s.phase := rfl
@[simp] theorem setTime_dbgHalt (x : TimeState) : (s.setTime x).dbgHalt = s.dbgHalt := rfl
@[simp] theorem setTime_netq (x : TimeState) : (s.setTime x).netq = s.netq := rfl
@[simp] theorem setTime_netPtr (x : TimeState) : (s.setTime x).netPtr = s.netPtr := rfl
@[simp] theorem setTime_memq (x : TimeState) : (s.setTime x).memq = s.memq := rfl
@[simp] theorem setTime_memPtr (x : TimeState) : (s.setTime x).memPtr = s.memPtr := rfl
@[simp] theorem setTime_inject (x : TimeState) : (s.setTime x).inject = s.inject := rfl
@[simp] theorem setTime_outst (x : TimeState) : (s.setTime x).outst = s.outst := rfl
@[simp] theorem setTime_quar (x : TimeState) : (s.setTime x).quar = s.quar := rfl
@[simp] theorem setTime_naps (x : TimeState) : (s.setTime x).naps = s.naps := rfl
@[simp] theorem setTime_mem (x : TimeState) : (s.setTime x).mem = s.mem := rfl
@[simp] theorem setTime_tram (x : TimeState) : (s.setTime x).tram = s.tram := rfl
@[simp] theorem setTime_sram (x : TimeState) : (s.setTime x).sram = s.sram := rfl
@[simp] theorem setTime_tellers (x : TimeState) : (s.setTime x).tellers = s.tellers := rfl
@[simp] theorem setTime_keyw (x : TimeState) : (s.setTime x).keyw = s.keyw := rfl
@[simp] theorem setTime_winKey (x : TimeState) : (s.setTime x).winKey = s.winKey := rfl
@[simp] theorem setTime_rootw (x : TimeState) : (s.setTime x).rootw = s.rootw := rfl
@[simp] theorem setTime_nodes (x : TimeState) : (s.setTime x).nodes = s.nodes := rfl
@[simp] theorem setTime_zeroing (x : TimeState) : (s.setTime x).zeroing = s.zeroing := rfl
@[simp] theorem setTime_okeys (x : TimeState) : (s.setTime x).okeys = s.okeys := rfl
@[simp] theorem setTime_fuses (x : TimeState) : (s.setTime x).fuses = s.fuses := rfl
@[simp] theorem setTime_tk (x : TimeState) : (s.setTime x).tk = s.tk := rfl
@[simp] theorem setTime_laneTest (x : TimeState) : (s.setTime x).laneTest = s.laneTest := rfl
@[simp] theorem setTime_pllDue (x : TimeState) : (s.setTime x).pllDue = s.pllDue := rfl
@[simp] theorem setTime_wakes (x : TimeState) : (s.setTime x).wakes = s.wakes := rfl
@[simp] theorem setTime_tapIr (x : TimeState) : (s.setTime x).tapIr = s.tapIr := rfl
@[simp] theorem setTime_flash (x : TimeState) : (s.setTime x).flash = s.flash := rfl
@[simp] theorem setTime_ld (x : TimeState) : (s.setTime x).ld = s.ld := rfl
@[simp] theorem setTime_loaded (x : TimeState) : (s.setTime x).loaded = s.loaded := rfl
@[simp] theorem setTime_scrub (x : TimeState) : (s.setTime x).scrub = s.scrub := rfl
@[simp] theorem setTime_pstore (x : TimeState) : (s.setTime x).pstore = s.pstore := rfl
@[simp] theorem setTime_sweepIdx (x : TimeState) : (s.setTime x).sweepIdx = s.sweepIdx := rfl
@[simp] theorem setTime_cores (x : TimeState) : (s.setTime x).cores = s.cores := rfl
@[simp] theorem setTime_hub (x : TimeState) : (s.setTime x).hub = s.hub := rfl
@[simp] theorem setTime_evtPtr (x : TimeState) : (s.setTime x).evtPtr = s.evtPtr := rfl
@[simp] theorem setTime_aon (x : TimeState) : (s.setTime x).aon = s.aon := rfl
@[simp] theorem setTime_th (x : TimeState) : (s.setTime x).th = s.th := rfl
@[simp] theorem setTime_rt (x : TimeState) : (s.setTime x).rt = s.rt := rfl
@[simp] theorem setTime_vdead (x : TimeState) : (s.setTime x).vdead = s.vdead := rfl
@[simp] theorem setTime_spares (x : TimeState) : (s.setTime x).spares = s.spares := rfl
@[simp] theorem setTime_dbg (x : TimeState) : (s.setTime x).dbg = s.dbg := rfl
@[simp] theorem setTime_gpio (x : TimeState) : (s.setTime x).gpio = s.gpio := rfl
@[simp] theorem setTime_clk (x : TimeState) : (s.setTime x).clk = s.clk := rfl

/-! ### What the updates write -/

@[simp] theorem setTime_time (x : TimeState) : (s.setTime x).time = x := rfl

@[simp] theorem raiseEach_raised (e : Nat) : (s.raiseEach e).raised = s.raised ++ [e] := rfl

/-- An event is raised once in a slot. -/
theorem raiseEv_raised (e : Nat) : (s.raiseEv e).raised = if s.logs && s.cyc.evs.contains e then s.raised else s.raised ++ [e] := rfl

/-- The record of the slot's events: only a raised event writes it. -/
@[simp] theorem note_evs (o : Nat) (h : HwReg) : (s.note o h).cyc.evs = s.cyc.evs := by unfold State.note; dsimp only; split <;> rfl
@[simp] theorem setReg_evs (o : Nat) (v : Word32) : (s.setReg o v).cyc.evs = s.cyc.evs := rfl
@[simp] theorem setF_evs (f : Field) (v : Nat) : (s.setF f v).cyc.evs = s.cyc.evs := rfl
@[simp] theorem clearF_evs (f : Field) : (s.clearF f).cyc.evs = s.cyc.evs := rfl
@[simp] theorem putF_evs (f : Field) (b : Bool) : (s.putF f b).cyc.evs = s.cyc.evs := rfl
@[simp] theorem raiseF_evs (f : Field) : (s.raiseF f).cyc.evs = s.cyc.evs := note_evs _ _ _
@[simp] theorem addF_evs (f : Field) (n : Nat) : (s.addF f n).cyc.evs = s.cyc.evs := note_evs _ _ _
@[simp] theorem incF_evs (f : Field) : (s.incF f).cyc.evs = s.cyc.evs := note_evs _ _ _
@[simp] theorem laneTo_evs (n st : Nat) : (s.laneTo n st).cyc.evs = s.cyc.evs := rfl
@[simp] theorem setTime_evs (x : TimeState) : (s.setTime x).cyc.evs = s.cyc.evs := rfl

/-- What an event adds to those raised depends on the events raised, those of the slot, and whether slots run. -/
theorem raiseEv_raised_congr {t u : State} (e : Nat) (h1 : t.raised = u.raised) (h2 : t.cyc.evs = u.cyc.evs)
    (h3 : t.clockOn = u.clockOn) (h4 : t.dbgHalt = u.dbgHalt) : (t.raiseEv e).raised = (u.raiseEv e).raised := by
  simp [raiseEv_raised, State.logs, h1, h2, h3, h4]

/-- Where slots do not run every cause raises its event. -/
theorem raiseEv_of_not_logs (e : Nat) (h : s.logs = false) : s.raiseEv e = { s with raised := s.raised ++ [e] } := by
  simp [State.raiseEv, h]

/-- The end of an access through an indirect port changes the loader alone. -/
theorem portEnds_eq (kind sec : Nat) (served : Bool) :
    s.portEnds kind sec served = { s with ld := (s.portEnds kind sec served).ld } := by
  unfold State.portEnds; split
  · split <;> rfl
  · rfl

/-- What stands before a write is recorded in the record of the slot alone. -/
theorem keepOld_eq (o : Nat) : s.keepOld o = { s with cyc := (s.keepOld o).cyc } := by unfold State.keepOld; split <;> rfl
theorem keepPolicy_eq (sec : Nat) : keepPolicy s sec = { s with cyc := (keepPolicy s sec).cyc } := by unfold keepPolicy; split <;> rfl

/-- A capture changes registers and the record of the slot alone. -/
theorem capture_eq (f : Field) (vals : List (Field × Nat)) :
    s.capture f vals = { s with regs := (s.capture f vals).regs, cyc := (s.capture f vals).cyc } := by
  unfold State.capture
  split
  · rfl
  · split
    · rfl
    · have h : ∀ (l : List (Field × Nat)) (t : State),
          l.foldl (fun t x => t.setF x.1 x.2) t = { t with regs := (l.foldl (fun t x => t.setF x.1 x.2) t).regs } := by
        intro l
        induction l with
        | nil => intro t; rfl
        | cons x l ih => intro t; rw [List.foldl_cons, ih]; rfl
      rw [h]

/-- A read of RC fields changes registers and the record of the slot alone. -/
theorem rc_eq (o : Nat) (m : Word32) : s.rc o m = { s with regs := (s.rc o m).regs, cyc := (s.rc o m).cyc } := by
  unfold State.rc; dsimp only; split <;> rfl

/-- A write of W1C bits changes registers and the record of the slot alone. -/
theorem w1c_eq (o : Nat) (m : Word32) : s.w1c o m = { s with regs := (s.w1c o m).regs, cyc := (s.w1c o m).cyc } := by
  have h : ∀ (l : List (Field × Nat)) (t : State),
      l.foldl (fun u x => u.setF x.1 x.2) t = { t with regs := (l.foldl (fun u x => u.setF x.1 x.2) t).regs } := by
    intro l
    induction l with
    | nil => intro t; rfl
    | cons x l ih => intro t; rw [List.foldl_cons, ih]; rfl
  have h2 : ∀ (l : List (Nat × List (Field × Nat))) (t : State),
      l.foldl (fun t c => c.2.foldl (fun u x => u.setF x.1 x.2) t) t =
        { t with regs := (l.foldl (fun t c => c.2.foldl (fun u x => u.setF x.1 x.2) t) t).regs } := by
    intro l
    induction l with
    | nil => intro t; rfl
    | cons x l ih => intro t; rw [List.foldl_cons, ih, h]
  unfold State.w1c; dsimp only
  rw [h2]
  have h3 : ∀ (c : Prop) [Decidable c] (x : HwReg), (if c then s else s.note o x) = { s with cyc := (if c then s else s.note o x).cyc } := by
    intro c _ x
    split
    · rfl
    · unfold State.note; rfl
  rw [h3]; rfl

end Sys2Proof.Machine
end

