-- ==== Sys2Proof/Laws/Frame.lean ====
section
/-!
SUPPORT. Laws of the frame predicates of Safety.lean: what a chain of register and field writes leaves alone.
-/

namespace Sys2Proof.Machine

@[simp] theorem reg_setTime (s : State) (x : TimeState) (o : Nat) : (s.setTime x).reg o = s.reg o := reg_of_regs rfl o
@[simp] theorem getF_setTime (s : State) (x : TimeState) (f : Field) : (s.setTime x).getF f = s.getF f := getF_of_regs rfl f
@[simp] theorem flag_setTime (s : State) (x : TimeState) (f : Field) : (s.setTime x).flag f = s.flag f := flag_of_regs rfl f
@[simp] theorem reg_raiseEv (s : State) (e o : Nat) : (s.raiseEv e).reg o = s.reg o := reg_of_regs rfl o
@[simp] theorem getF_raiseEv (s : State) (e : Nat) (f : Field) : (s.raiseEv e).getF f = s.getF f := getF_of_regs rfl f
@[simp] theorem flag_raiseEv (s : State) (e : Nat) (f : Field) : (s.raiseEv e).flag f = s.flag f := flag_of_regs rfl f

/-- A raised, cleared or set flag. -/
theorem getF_raiseF (s : State) (f : Field) (hl : f.lo ≤ f.hi) (hh : f.hi < 32) : (s.raiseF f).getF f = 1 := by
  rw [getF_raiseF_eq, getF_setF_self s f 1 hl hh]
  exact Nat.mod_eq_of_lt (Nat.one_lt_two_pow (by omega))

theorem getF_clearF (s : State) (f : Field) (hl : f.lo ≤ f.hi) (hh : f.hi < 32) : (s.clearF f).getF f = 0 := by
  unfold State.clearF; rw [getF_setF_self s f 0 hl hh]; simp

theorem flag_putF (s : State) (f : Field) (b : Bool) (hl : f.lo ≤ f.hi) (hh : f.hi < 32) : (s.putF f b).flag f = b := by
  cases b
  · exact flag_clearF s f hl hh
  · exact flag_raiseF s f hl hh

/-- A counter counts one up, and stays at all ones. -/
theorem getF_addF (s : State) (f : Field) (n : Nat) (hl : f.lo ≤ f.hi) (hh : f.hi < 32) :
    (s.addF f n).getF f = min (s.getF f + n) (2 ^ (f.hi + 1 - f.lo) - 1) := by
  rw [getF_addF_eq, getF_setF_self s f _ hl hh]
  have : 0 < 2 ^ (f.hi + 1 - f.lo) := by positivity
  exact Nat.mod_eq_of_lt (by omega)

theorem reg_addF_ne (s : State) (f : Field) (n o : Nat) (h : o ≠ f.reg) : (s.addF f n).reg o = s.reg o := reg_setF_ne s f _ o h

theorem getF_addF_reg_ne (s : State) (f g : Field) (n : Nat) (h : g.reg ≠ f.reg) : (s.addF f n).getF g = s.getF g :=
  getF_setF_reg_ne s f g _ h

theorem getF_addF_disjoint (s : State) (f g : Field) (n : Nat) (hl : f.lo ≤ f.hi) (hh : f.hi < 32)
    (h : f.hi < g.lo ∨ g.hi < f.lo) : (s.addF f n).getF g = s.getF g := getF_setF_disjoint s f g _ hl hh h

theorem bitsBut_refl (fs : List Field) (s : State) : BitsBut fs s s := fun _ _ _ => rfl

/-- States with the same registers differ in no register bit. -/
theorem bitsBut_of_regs {fs : List Field} {s t u : State} (h : BitsBut fs s t) (e : u.regs = t.regs) : BitsBut fs s u := by
  intro o i hf
  have : u.reg o = t.reg o := by unfold State.reg; rw [e]
  rw [this]; exact h o i hf

theorem bitsBut_mono {fs gs : List Field} {s t : State} (h : BitsBut fs s t) (hs : ∀ f ∈ fs, f ∈ gs) : BitsBut gs s t :=
  fun o i hf => h o i (fun f hm => hf f (hs f hm))

theorem bitsBut_trans {fs : List Field} {s t u : State} (h : BitsBut fs s t) (h2 : BitsBut fs t u) : BitsBut fs s u :=
  fun o i hf => (h2 o i hf).trans (h o i hf)

/-- A field write changes no bit outside the field. -/
theorem bitsBut_setF {fs : List Field} {s t : State} (h : BitsBut fs s t) (f : Field) (v : Nat) (hm : f ∈ fs)
    (hl : f.lo ≤ f.hi) (hh : f.hi < 32) : BitsBut fs s (t.setF f v) := by
  intro o i hf
  rw [← h o i hf]
  by_cases ho : o = f.reg
  · subst ho
    rw [reg_setF_self]
    have hi := hf f hm rfl
    have e := putBits_testBit (t.reg f.reg) f.hi f.lo v i hl hh
    rw [if_neg (by omega)] at e
    exact e
  · rw [reg_setF_ne t f v o ho]

theorem bitsBut_raiseF {fs : List Field} {s t : State} (h : BitsBut fs s t) (f : Field) (hm : f ∈ fs)
    (hl : f.lo ≤ f.hi) (hh : f.hi < 32) : BitsBut fs s (t.raiseF f) := bitsBut_setF h f 1 hm hl hh

theorem bitsBut_clearF {fs : List Field} {s t : State} (h : BitsBut fs s t) (f : Field) (hm : f ∈ fs)
    (hl : f.lo ≤ f.hi) (hh : f.hi < 32) : BitsBut fs s (t.clearF f) := bitsBut_setF h f 0 hm hl hh

theorem bitsBut_putF {fs : List Field} {s t : State} (h : BitsBut fs s t) (f : Field) (b : Bool) (hm : f ∈ fs)
    (hl : f.lo ≤ f.hi) (hh : f.hi < 32) : BitsBut fs s (t.putF f b) := bitsBut_setF h f _ hm hl hh

theorem bitsBut_addF {fs : List Field} {s t : State} (h : BitsBut fs s t) (f : Field) (n : Nat) (hm : f ∈ fs)
    (hl : f.lo ≤ f.hi) (hh : f.hi < 32) : BitsBut fs s (t.addF f n) := bitsBut_setF h f _ hm hl hh

theorem bitsBut_incF {fs : List Field} {s t : State} (h : BitsBut fs s t) (f : Field) (hm : f ∈ fs)
    (hl : f.lo ≤ f.hi) (hh : f.hi < 32) : BitsBut fs s (t.incF f) := bitsBut_setF h f _ hm hl hh

/-- A write of a whole register changes no bit outside it. -/
theorem bitsBut_setReg {fs : List Field} {s t : State} (h : BitsBut fs s t) (o : Nat) (v : Word32) (hm : wholeReg o ∈ fs) :
    BitsBut fs s (t.setReg o v) := by
  intro o' i hf
  rw [← h o' i hf]
  by_cases ho : o' = o
  · subst ho
    have hi := hf (wholeReg o') hm rfl
    simp only [wholeReg] at hi
    rw [BitVec.getLsbD_of_ge _ _ (by omega), BitVec.getLsbD_of_ge _ _ (by omega)]
  · rw [reg_setReg_ne t o o' v ho]

end Sys2Proof.Machine
end

