-- ==== Sys2Proof/Tests/Slice0.lean ====
section
/-!
SUPPORT. The model's own tests: ill-formed commands are refused by each check, and small steps on small states. Expected results
come from the specification's own numbers.
-/

namespace Sys2Proof.Tests

set_option Elab.async false

open Sys2Proof Sys2Proof.Machine

/-! ### One ill-formed command for each check of WellFormed -/

theorem test_write_unaligned_refused : (Instr.registerWrite 2 0).wellFormed = false := by decide

theorem test_read_outside_refused : (Instr.readClear 0x1000000 false).wellFormed = false := by decide

theorem test_codeword_too_long_refused : (Instr.codewordReceive 0 (List.replicate 1145 0)).wellFormed = false := by decide +kernel

theorem test_mref_frequency_refused : (Instr.mrefSettled 1048576).wellFormed = false := by decide

theorem test_voltage_code_refused : (Instr.supplyWarning 65536 0).wellFormed = false := by decide

theorem test_start_without_straps_refused : (Instr.deviceStart 0 [] true true none [] none () () ()).wellFormed = false := by decide

theorem test_start_path_refused :
    (Instr.deviceStart 0 (List.replicate 16 0) true true none [(8, 0, 0)] none () () ()).wellFormed = false := by decide

theorem test_sample_of_no_sensor_refused : (Instr.thermalSample 0 [] []).wellFormed = false := by decide

theorem test_duty_above_total_refused : (Instr.dutyAdjust 1 2).wellFormed = false := by decide

/-! ### Small states -/

/-- The device running with some fields set. -/
def live (fs : List (Field × Nat)) : State :=
  fs.foldl (fun s f => s.setF f.1 f.2) { State.reset with phase := .run, clockOn := true, aon := { Aon.reset with vb := true } }

/-- User mode. -/
def userUp : Field × Nat := (Reg.TIME_STATUS_USER, 1)

/-- A timing command due in this slot. -/
def withDue (s : State) (cmd arg : Nat) : State :=
  { s with time := { s.time with due := [⟨0, cmd, arg, false⟩] } }

/-- Bit b of the attachment field of a tile set in plane 0: at the lowest bit of a select it names the source that is always 1. -/
def afBit (s : State) (g : Tile) (b : Nat) : State :=
  let r := (2496 + b) % 112
  let k := cfgKey g.sector 0 g.place (4 * ((2496 + b) / 112) + (if r < 48 then 2 else 3))
  let w := s.cfgInfo k ||| BitVec.ofNat 64 (2 ^ (if r < 48 then 16 + r else r - 48))
  { s with cfgw := tset (fun _ => 0) s.cfgw k (cwEncode w) }

/-- Several such bits. -/
def afBits (s : State) (g : Tile) (bs : List Nat) : State := bs.foldl (fun t b => afBit t g b) s

/-- A front-end lane in ACTIVE. -/
def feActive (n : Nat) : List (Field × Nat) :=
  [(Reg.LQ_MODE_MODE (n / 4), 1), (Reg.LN_BU_STAT_STATE n, 6), (Reg.LN_FE_STAT_ALIGNED n, 1)]

/-- A data character received without error. -/
def rxData (v : Nat) : RxChar := ⟨false, v, false, false, false⟩

/-- The state at slot j. -/
def atSlot (s : State) (j : Nat) : State := { s with time := { s.time with slots := j } }

/-! ### Single steps against numbers of the specification -/

/-- R443: the identification that IDCODE captures. -/
theorem test_idcode : (match exec .idcode (live []) with | .next t => t.dbg.dr | _ => 0) = 0x1A980DD3 := by decide +kernel

/-- R178: K28.5 from negative running disparity is 0011111010, its first bit in bit 0. -/
theorem test_comma_code : (encode8b10b true 0xBC false).1 = 0b0101111100 := by decide +kernel

/-- R316: the first word of a locked sequence opens the lock for its initiator. -/
theorem test_lock_opens :
    (match exec (.lockWrite 1 0x204 0x4C454447) (live []) with | .next t => (t.getF Reg.WDT_LOCK_STATE, t.getF Reg.WDT_LOCK_OWNER) | _ => (0, 0)) = (1, 0x204) := by
  decide +kernel

/-- R379: the kick word restarts the watchdog at no less than 1,024 ticks. -/
theorem test_kick_floor :
    (match exec (.wdtKick 0x4B49434B) (live [(Reg.WDT_CTRL_EN, 1), (Reg.WDT_LOAD1_LOAD1, 5), (Reg.WDT_STAT_STAGE, 1)]) with
      | .next t => (t.getF Reg.WDT_STAT_STAGE, t.getF Reg.WDT_STAT_COUNT) | _ => (9, 9)) = (0, 1024) := by decide +kernel

/-! ### Witnesses: states and operands that meet the hypotheses of each statement -/

theorem witness_TimingCommandsTakeEffect :
    takesEffect (withDue (live []) 0 0) 0 [] = true ∧ takesEffect (withDue (live []) 2 0) 2 [] = true ∧
    (∀ u : Bool, let s := withDue (live [(Reg.TIME_STATUS_USER, u.toNat)]) 5 255
     takesEffect s 5 [2, 1, 3, 4] = true ∧ s.user = u) ∧
    (∀ u : Bool, let s := withDue (live [(Reg.TIME_STATUS_USER, u.toNat)]) 6 255
     takesEffect s 6 [2, 1, 3, 4, 5] = true ∧ s.user = u) := by decide +kernel

theorem witness_WindowAndFrameReset :
    (let s := withDue (live [userUp]) 4 0; takesEffect s 4 [2, 1, 3] = true ∧ s.user = true ∧ s.clrOpen = false) ∧
    (let s := withDue (live []) 4 0; takesEffect s 4 [2, 1, 3] = true ∧ (s.user && !s.clrOpen) = false) ∧
    (let s := live [userUp, (Reg.TIME_TIF_TIF, 3744)]; s.slot0 = true ∧ s.user = true ∧ s.clrOpen = false ∧
      s.time.len ≤ s.getF Reg.TIME_TIF_TIF + s.time.clr) ∧
    (let s := withDue (live []) 3 0; takesEffect s 3 [2, 1] = true ∧ s.getF Reg.TIME_TIF_TIF = 0) ∧
    (let s := withDue (live [(Reg.TIME_TIF_TIF, 1)]) 3 0; takesEffect s 3 [2, 1] = true ∧ s.getF Reg.TIME_TIF_TIF ≠ 0 ∧ s.user = false) := by
  decide +kernel

theorem witness_SlotsTicksAndFramesCount :
    (live []).slotRuns = true ∧
    (∀ p ∈ [(3998, false), (3999, true)], let s := live [(Reg.TIME_TIF_TIF, p.1)]; let t := { s with time := { s.time with inTick := 48 } }
     t.tickOver = true ∧ t.lastTick = p.2 ∧ t.user = false) := by decide +kernel

theorem witness_TimingCommandsAreSupplied :
    (let s0 := live ((Reg.TIME_CMD_SRC_LANE, 143) :: feActive 143)
     let s := { s0 with time := { s0.time with src := 1 }, fe := [(143, { FeLane.reset with live := true, words := [(0, [rxData 0])] })] }
     s.logs = true ∧ suppliesWords s 143 = true ∧ feLocked s 143 = true ∧ (s.feLane 143).timedAt ≠ some (s.time.slots / 8) ∧
     (feBeatWord s 143).isSome = true ∧ s.time.wordBeat ≠ some (s.time.slots / 8)) ∧
    (let good := fun (b c : RxChar) => !(b.cv || b.rdErr || c.cv || c.rdErr) && !b.k && !c.k && timingChk (256 * b.v + c.v) == c.v % 16
     good (rxData 0x6F) (rxData 0xF0) = true ∧ 0x6F / 16 < 7 ∧ good (rxData 0x70) (rxData 0x0B) = true ∧
     good (rxData 0x70) (rxData 0) = false) ∧
    (let s0 := live [(Reg.TIME_CMD_ORB_PIN, 95)]; let s := { s0 with time := { s0.time with src := 2, lows := 2, pinSel := 95 } }
     s.slotRuns = true ∧ s.k = 0 ∧ s.time.src = 2 ∧ s.getF Reg.TIME_CMD_ORB_PIN < 96 ∧ 2 ≤ s.time.lows ∧
     s.time.pinSel = s.getF Reg.TIME_CMD_ORB_PIN) := by decide +kernel

theorem witness_GroupStartCommands :
    (let s0 := live [userUp, (Reg.RST_STRAP_CODE, 1)]; let s := { s0 with ld := { s0.ld with doneRel := true } }
     let h := { s with time := { s.time with doneHigh := true } }
     s.slot0 = true ∧ s.time.doneHigh = false ∧ s.ld.doneRel = true ∧ (s.user || s.time.doneSeen) = true ∧
     h.slot0 = true ∧ h.time.doneHigh = true ∧ (h.user && (h.getF Reg.RST_STRAP_CODE).testBit 0) = true) ∧
    (∀ src : Fin 4, let s0 := live []; let s := { s0 with ld := { s0.ld with doneRel := true }, time := { s0.time with src := src.val } }
     s.slot0 = true ∧ s.time.doneHigh = false ∧ s.ld.doneRel = true ∧ (s.user || s.time.doneSeen) = false ∧
     ((src = 1 ∨ src = 2) ∨ (s.time.src ≠ 1 ∧ s.time.src ≠ 2))) ∧
    (let s := live [(Reg.TIME_STATUS_WAIT_ORBIT, 1)]
     s.slot0 = true ∧ s.flag Reg.TIME_STATUS_WAIT_ORBIT = true ∧ s.time.remindIn = 0 ∧ s.alive = true) ∧
    (let s0 := live [userUp]; let s := { s0 with time := { s0.time with doneHigh := true } }
     s.slot0 = true ∧ s.time.doneHigh = true ∧ (s.user && (s.getF Reg.RST_STRAP_CODE).testBit 0) = false ∧ s.alive = true ∧
     s.flag Reg.TIME_STATUS_WAIT_ORBIT = false) := by decide +kernel

theorem witness_OrbitAndUserModeStart :
    (let s := withDue (live [userUp]) 1 0; takesEffect s 1 [2] = true ∧ s.user = true ∧ s.getF Reg.TIME_TIF_TIF = 0) ∧
    (let s := withDue (live [userUp, (Reg.TIME_TIF_TIF, 1), (Reg.TIME_CTRL_ORB_MODE, 1)]) 1 0
     takesEffect s 1 [2] = true ∧ s.user = true ∧ s.getF Reg.TIME_TIF_TIF ≠ 0 ∧ s.getF Reg.TIME_CTRL_ORB_MODE = 1 ∧
     s.flag Reg.TIME_STATUS_SLIP = false) ∧
    (let s := withDue (live []) 1 0; takesEffect s 1 [2] = true ∧ s.user = false ∧ s.getF Reg.TIME_CTRL_ORB_MODE ≠ 2) ∧
    (let s0 := live []; let s := { s0 with time := { s0.time with startIn := some 0 } }
     s.slot0 = true ∧ s.user = false ∧ s.time.startIn = some 0) := by decide +kernel

theorem witness_ScheduleWrites :
    (let s := live [userUp]; s.leader 239 = 239 ∧ s.alive = true ∧ s.user = true ∧ armValid 0xE0000000#32 = false ∧
     armValid 0x80370000#32 = false ∧ armValid 0x80240000#32 = true) ∧
    (let s := live []; s.leader 119 = 119 ∧ s.alive = true ∧ s.user = false ∧ (0x00000034#32).getLsbD 31 = false ∧
     nbits (0x00000030#32).toNat 2 0 % 2 ^ nbits (0x00000030#32).toNat 5 4 = 0 ∧
     nbits (0x00000034#32).toNat 2 0 % 2 ^ nbits (0x00000034#32).toNat 5 4 ≠ 0) ∧
    (let s0 := live []; let s := { s0 with schedPend := [(119, 1 + 8 * 3 + 7)] }
     s.leader 119 = 119 ∧ s.slot0 = true ∧ tget (fun _ => 0) s.schedPend 119 = 1 + 8 * 3 + 7 ∧ anyEscrow s 119 (planesOf 3 7) = false ∧
     anyEscrow (s.setPlaneState 119 7 2) 119 (planesOf 3 7) = true) := by decide +kernel

theorem witness_SwapsAndGuardRelease :
    (let s := live [(Reg.SEC_SCHED_ARM 119, 1), (Reg.SEC_SCHED_NEXT_FOLD 119, 3), (Reg.SEC_SCHED_PAIR 239, 1)]
     let e := s.setPlaneState 239 7 2
     s.slot0 = true ∧ s.leader 119 = 119 ∧ s.flag (Reg.SEC_SCHED_ARM 119) = true ∧ tget (fun _ => false) s.armFresh 119 = false ∧
     swapBoundary s 119 = true ∧ (planesOf 3 0).find? (fun p => anyEscrow s 119 [p]) = none ∧ follower s 119 = some 239 ∧
     e.slot0 = true ∧ e.leader 119 = 119 ∧ e.flag (Reg.SEC_SCHED_ARM 119) = true ∧ swapBoundary e 119 = true ∧
     (planesOf 3 0).find? (fun p => anyEscrow e 119 [p]) = some 7) ∧
    (let g := tileOf 119 11 11; let k := vlinkKey g 47; let s0 := live []; let s := { s0 with vheld := [(k, some ⟨0, true, true⟩)] }
     tget (fun _ => none) s.vheld k = some ⟨0, true, true⟩ ∧ tileMended s 119 g = true ∧ tileMended s 239 g = true) := by decide +kernel

theorem witness_MacOperationsAreTaken :
    (∀ p ∈ [((23 : Fin 24), 1), (22, 2), (23, 3)],
      let op := if p.2 = 3 then [0, 1] else [p.2 - 1]
      let s := afBits (live [userUp]) (macTile 239 p.1) ([1320, 0] ++ op.map (1344 + ·))
      let off := live [userUp]
      s.mayIssue 239 = true ∧ (s.mac 239 p.1).ops.all (fun q => q.at_ != s.time.slots) = true ∧
        s.view.afIn (macTile 239 p.1) 1320 = true ∧ nbits (mctl s.view (macTile 239 p.1)) 2 0 = p.2 ∧
        off.mayIssue 239 = true ∧ off.view.afIn (macTile 239 p.1) 1320 = false) := by decide +kernel

theorem witness_MacReductionIsExactSaturatingOrModular :
    (∀ b : Bool, (reduceS b 9223372036854775807).2 = false ∧ (reduceS b (-9223372036854775808)).2 = false ∧
      (reduceS b 9223372036854775808).2 = true ∧ (reduceS b (-9223372036854775809)).2 = true) := by decide +kernel

theorem witness_RankedListsStayRanked :
    ranked [0xFFFF0001, 0x10002, 0x10001] = true ∧ (∀ e ∈ [0xFFFF0001, 0x10002, 0x10001], entryKey e ≠ 0) ∧
    (0xFFFF0002 ∈ [0xFFFF0002, 0x00000005] ∧ ∀ f ∈ [0x10002, 0x10001] ++ [0xFFFF0002, 0x00000005],
      f = 0xFFFF0002 ∨ entryKey f < entryKey 0xFFFF0002) := by decide +kernel

theorem witness_RankerOperations :
    (∀ p ∈ [((0 : Fin 2), 1), (1, 2), (0, 3)],
      let s := atSlot (afBits (live [userUp]) (rankerTile 239 p.1) ([2816] ++ (if p.2 = 3 then [2848, 2849] else [2847 + p.2]))) 16
      let busy := { s with rankers := [(2 * 239 + p.1.val, { Ranker.reset with merge := some ⟨15, 0, 0, 0, 0, [], []⟩ })] }
      let full := { s with rankers := [(2 * 239 + p.1.val, { Ranker.reset with outs := [(30, [])] })] }
      rankIssues s 239 p.1 p.2 = true ∧ merging s (s.ranker 239 p.1) = false ∧ overlaps (s.ranker 239 p.1) 29 = false ∧
      overlaps (s.ranker 239 p.1) 30 = false ∧ rankIssues busy 239 p.1 p.2 = true ∧ merging busy (busy.ranker 239 p.1) = true ∧
      rankIssues full 239 p.1 p.2 = true ∧ merging full (full.ranker 239 p.1) = false ∧ overlaps (full.ranker 239 p.1) 29 = true ∧
      overlaps (full.ranker 239 p.1) 30 = true) := by decide +kernel

theorem witness_AccumulatorPort :
    (∀ tgt wr user : Bool,
      let s := live [(Reg.SEC_HB_STAT_ACC_BUSY 239, 1), (Reg.SEC_MAC_SEL_TGT 239, tgt.toNat), (Reg.SEC_MAC_SEL_WR 239, wr.toNat),
        (Reg.SEC_MAC_SEL_MAC 239, 23), (Reg.SEC_MAC_SEL_PLANE 239, 7), (Reg.TIME_STATUS_USER, user.toNat)]
      (s.slotRuns && s.flag (Reg.SEC_HB_STAT_ACC_BUSY 239) && !s.cyc.acc.contains 239 && (stage3 s 239 23).isNone) = true ∧ s.alive = true ∧
      s.flag (Reg.SEC_MAC_SEL_WR 239) = wr ∧ s.flag (Reg.SEC_MAC_SEL_TGT 239) = tgt ∧ s.held 239 = !user) ∧
    (let s0 := live [(Reg.SEC_HB_STAT_ACC_BUSY 239, 1)]; let s := { s0 with macWait := [(239, 16384)], cyc := { s0.cyc with acc := [239] } }
     s.flag (Reg.SEC_HB_STAT_ACC_BUSY 239) = true ∧ 16384 ≤ tget (fun _ => 0) s.macWait 239 ∧ 239 ∈ s.cyc.acc) ∧
    (live []).flag (Reg.SEC_HB_STAT_ACC_BUSY 239) = false ∧ 24 ≤ (31 : Fin 32).val := by decide +kernel

theorem witness_MatcherEvents :
    (let s := afBits (live [userUp]) (matcherTile 239) [912, 209, 220 * 3 + 209, 220 * 3 + 176]
     hitOf s 239 3 = some (1, 0)) ∧
    (let s := afBits (live [userUp]) (matcherTile 239) [913, 880]
     let d := { s with matchers := [(239, { Matcher.reset with fill := 1, drain := some ⟨0, 0, 1, 0, 255, some ([], false)⟩ })] }
     eventEnds s 239 = true ∧ (s.matcher 239).endedAt ≠ some s.time.slots ∧ (s.matcher 239).fill < 2 ∧ (s.matcher 239).drain = none ∧
     eventEnds d 239 = true ∧ (d.matcher 239).endedAt ≠ some d.time.slots ∧ (d.matcher 239).fill < 2 ∧
     (d.matcher 239).drain.bind (·.doneSlot) = some 24 ∧ d.time.slots ≠ 24) ∧
    (let s0 := atSlot (live [userUp]) 24
     let s := { s0 with matchers := [(239, { Matcher.reset with drain := some ⟨0, 0, 1, 0, 255, some ([], false)⟩ })] }
     ((s.matcher 239).due s.time.slots).isSome = true ∧ s.mayIssue 239 = true ∧ (s.matcher 239).shown.all (fun x => x.1 != s.time.slots) = true) := by
  decide +kernel

theorem witness_MatcherStorePort :
    (∀ p ∈ [(false, false), (false, true), (true, false), (true, true)],
     let s := live [(Reg.SEC_MT_SEL_STREAM 239, p.1.toNat), (Reg.SEC_MT_SEL_WR 239, p.1.toNat), (Reg.TIME_STATUS_USER, p.2.toNat)]
     s.alive = true ∧ s.flag (Reg.SEC_MT_STAT_BUSY 239) = false ∧
     (s.flag (Reg.SEC_MT_SEL_STREAM 239) && s.flag (Reg.SEC_MT_SEL_WR 239)) = p.1 ∧ storeClosed s = p.2) ∧
    (∀ wr : Bool, let s0 := live [(Reg.SEC_MT_STAT_BUSY 239, 1), (Reg.SEC_MT_SEL_STREAM 239, 1), (Reg.SEC_MT_SEL_WR 239, wr.toNat),
       (Reg.SEC_MT_SEL_ADDR 239, 16383)]
     let s := { s0 with matchers := [(239, { Matcher.reset with waited := 16384 })] }
     let bad := { s with mstore := tset (fun _ => 0) [] (16384 * 239 + 16383) 7 }
     let ended := { s with cyc := { s.cyc with mt := [239] } }
     s.alive = true ∧ s.flag (Reg.SEC_MT_STAT_BUSY 239) = true ∧
     (s.slotRuns && s.flag (Reg.SEC_MT_STAT_BUSY 239) && !s.cyc.mt.contains 239 && !anyHit s 239) = true ∧
     s.flag (Reg.SEC_MT_SEL_WR 239) = wr ∧ cwDecode (s.storeWord 239 (s.getF (Reg.SEC_MT_SEL_ADDR 239))) = .clean 0 ∧
     cwDecode (bad.storeWord 239 (bad.getF (Reg.SEC_MT_SEL_ADDR 239))) = .bad ∧
     (bad.slotRuns && bad.flag (Reg.SEC_MT_STAT_BUSY 239) && !bad.cyc.mt.contains 239 && !anyHit bad 239) = true ∧
     16384 ≤ (s.matcher 239).waited ∧ 239 ∈ ended.cyc.mt) := by decide +kernel

theorem witness_StoreChecker :
    (∀ p ∈ [(cwSetPoison 0, Decoded.bad), (0, Decoded.clean 0), (cwEncode 5 ^^^ 3, Decoded.corrected 5), (7, Decoded.bad)],
      let s0 := atSlot (live []) 7
      let s := { s0 with mstore := tset (fun _ => 0) [] (16384 * 239 + 16383) p.1, matchers := [(239, { Matcher.reset with check := 16383 })] }
      s.slotRuns = true ∧ s.k = 7 ∧ (s.matcher 239).checkAt ≠ some s.time.slots ∧ s.storeWord 239 (s.matcher 239).check = p.1 ∧
      cwDecode p.1 = p.2 ∧ s.cyc.fixes = []) ∧
    cwPoison (cwSetPoison 0) = true ∧ cwPoison 7 = false ∧ cwPoison (cwEncode 5 ^^^ 3) = false := by decide +kernel

/-- A read of the last word of a bank from the network. -/
def netRead : BankReq :=
  { id := 0x100, tag := 0, op := .read, word := 4095, off := 0, be := 255, size := 8, data := [], step := 0, got := [], err := false, half := false, old := 0, range := false }

theorem witness_BankFabricOperations :
    (∀ p ∈ [(BankOp.read, [0]), (.write, [0, 11, 880, 891, 902, 913, 924, 935, 946, 957]), (.write, [0, 11, 880]), (.add, [0, 22]), (.addu, [0, 11, 22]),
        (.adds, [0, 33]), (.swap, [0, 11, 33])],
      let s := afBits (live [userUp]) (bankTile 239 7) p.2
      let k := s.bank 1919
      let second := { s with banks := [(1919, { k with second := fabricReq s 239 7 })] }
      let other := { s with banks := [(1919, { k with own := (1, 0) })] }
      let held := { s with banks := [(1919, { k with own := (1, 0), held := fabricReq s 239 7 })] }
      (fabricReq s 239 7).map (fun r => (r.op, r.word)) = some (p.1, 0) ∧ (p.1 = .write → (fabricReq s 239 7).map (·.be % 256) =
        some (if p.2.length = 10 then 255 else 1)) ∧
      k.acceptAt ≠ some s.time.slots ∧ k.refusedAt ≠ some s.time.slots ∧ k.own.1 = 0 ∧ k.second = none ∧
      bankPending s 1919 = false ∧ cwDecode (s.bankWord 1919 (readWord s 1919 0)) = .clean 0 ∧
      (fabricReq second 239 7).isSome = true ∧ (second.bank 1919).own.1 = 0 ∧ (second.bank 1919).second.isSome = true ∧
      (fabricReq other 239 7).isSome = true ∧ (other.bank 1919).own.1 ≠ 0 ∧ (other.bank 1919).held = none ∧
      (held.bank 1919).own.1 ≠ 0 ∧ (held.bank 1919).held.isSome = true) ∧
    (let s0 := atSlot (live [userUp]) 1
     let q := { netRead with id := 0x3FF, op := .add, half := true }
     let s := { s0 with banks := [(1919, { Bank.reset with second := some q })] }
     (s.bank 1919).second = some q ∧ (s.bank 1919).usedAt ≠ some s.time.slots ∧ q.err = false ∧ q.op ≠ .read ∧ q.op ≠ .write) := by decide +kernel

theorem witness_BankServiceAndScrubber :
    (live []).alive = true ∧ nbits (0xC0000000#32).toNat 31 30 = 3 ∧ nbits (0x800003FF#32).toNat 31 30 ≠ 3 ∧
    ((6#32).getLsbD 2 && (6#32).getLsbD 1) = true ∧ ((4#32).getLsbD 2 && (4#32).getLsbD 1) = false ∧
    (∀ op ∈ [BankOp.read, .add], let s0 := live []; let r := { netRead with op := op }
     let s := { s0 with banks := [(1919, { Bank.reset with net := [r] })] }
     cycleIdle s 239 7 = true ∧ (s.bank 1919).mid = none ∧ nextCand s (s.bank 1919) = some (2, r) ∧ (s.bank 1919).net = [r] ∧
     twoCycle r.op r.be = (op == .add) ∧ r.half = false ∧ outOfRange s 1919 r = false ∧
     cwDecode (s.bankWord 1919 (readWord s 1919 r.word)) = .clean 0) ∧
    (∀ p ∈ [(0, Decoded.clean 0), (cwEncode 5 ^^^ 1, Decoded.corrected 5)],
      let s0 := atSlot (live [(Reg.SEC_BSCRUB_EN 239, 1)]) 65536
      let s := { s0 with bmem := tset (fun _ => 0) [] (4096 * 1919 + 4095) p.1, banks := [(1919, { Bank.reset with scrubWord := 4095 })] }
      let k := s.bank 1919
      (scrubDueAt s 239 7 && (scrubFree s 239 7).1 && k.fix.isNone) = true ∧
      cwPoison (s.bankWord 1919 k.scrubWord) = false ∧ cwDecode (s.bankWord 1919 k.scrubWord) = p.2 ∧ (scrubFree s 239 7).2 = false) := by
  decide +kernel

theorem witness_RegisterAccess :
    (live []).alive = true ∧ regRow 0x4 ≠ none ∧ regRow 0xFFFFFC = none ∧ 0x5 % 4 ≠ 0 ∧
    (∀ o ∈ [Reg.SEC_BSTAT 239, Reg.SEC_HB_STAT 0, Reg.TIME_TAINT 7],
      o % 4 = 0 ∧ (regRow o).isSome = true ∧ specialRead (live []) o true 0x200 = none ∧ specialRead (live []) o false 0x200 = none ∧
      specialWrite (live []) o 0 0x200 = none ∧ ((live []).hwReg o).caps = []) := by decide +kernel

theorem witness_QuadModeAndRate :
    (let s := live []; s.alive = true ∧ quadDisabled s 35 = true ∧ (∀ l, l < 4 → s.laneState (4 * 35 + l) = 0) ∧ s.getF (Reg.LQ_MODE_MODE 35) = 0 ∧
     (s.hwReg (Reg.LQ_MODE 35)).caps = [] ∧ (∀ m : Fin 4, m ≠ 0 → nbits (BitVec.ofNat 32 m.val).toNat 1 0 ≠ 0)) ∧
    (let s := live [(Reg.LQ_MODE_MODE 35, 2)]; s.alive = true ∧ quadDisabled s 35 = true ∧ (∀ l, l < 4 → s.laneState (4 * 35 + l) = 0) ∧
     nbits (0x11C#32).toNat 7 0 ≠ s.getF (Reg.LQ_TRK_H 35) ∧ s.getF (Reg.LQ_MODE_MODE 35) = 2 ∧ tkRateBad s 28 false = false ∧
     tkRateBad s 255 true = true) := by decide +kernel

/-- The comma K28.5 as received, twice. -/
def commas : List Bool := (List.range 20).map (fun i => (0x17C : Nat).testBit (i % 10))

theorem witness_FrontEndLanes :
    (∀ p ∈ [((0 : Nat), (1023 : Nat), true), (2, 512, true), (2, 1023, false), (1, 511, false), (1, 512, true)],
      let s := live [(Reg.LQ_MODE_MODE 35, 1), (Reg.LN_BU_STAT_STATE 143, 4), (Reg.LN_FE_CTRL_COMMA_EN 143, 2), (Reg.LN_FE_CTRL_ALIGN_N 143, 1), (Reg.LN_FE_CTRL_PLACE 143, p.1)]
      s.laneMode 143 = 1 ∧ s.laneState 143 = 4 ∧ tget (fun _ => none) s.cyc.timed 143 = none ∧
      (feSearch s 143 commas).done.isSome = true ∧ (feSearch s 143 (commas.take 19)).done = none ∧
      (placeWord 30 (s.getF (Reg.LN_FE_CTRL_PLACE 143)) (1024 * s.time.slots + p.2.1)).2.2 = p.2.2) ∧
    (live []).alive = true ∧ (live []).laneMode 143 ≠ 1 ∧
    (∀ pol : Bool, let s := atSlot (live ((Reg.LN_FE_CTRL_POL_RX 143, pol.toNat) :: feActive 143)) 0
      s.alive = true ∧ feLocked s 143 = true ∧ s.laneMode 143 = 1 ∧ driftLost (s.feLane 143) 0 = false ∧ driftLost (s.feLane 143) 1 = true ∧
      (0x00010000#32).getLsbD 16 = true ∧ (0xFFFEFFFF#32).getLsbD 16 = false) ∧
    (∀ p ∈ [((9 : Nat), false), (8, true)], let s := live ((Reg.LN_FE_CTRL_LOSS_CV 143, p.1) :: (Reg.LQ_MODE_FE_J 35, 1) :: feActive 143)
      feLocked s 143 = true ∧ s.logs = true ∧ (s.feLane 143).gotAt ≠ some s.time.slots ∧
      ((s.feLane 143).buf.at s.time.slots (s.getF (Reg.LN_FE_STAT_WAIT 143))).word s.rootM (s.getF (Reg.LQ_MODE_FE_J 35)) s.time.slots = some 0 ∧
      (feScan s 143 0).lost = p.2) ∧
    (let s0 := atSlot (live ((Reg.LQ_MODE_FE_J 35, 1) :: feActive 143)) 7
     let s := { s0 with fe := [(143, { FeLane.reset with live := true })] }
     s.slotRuns = true ∧ s.k = 7 ∧ s.laneMode 143 = 1 ∧ s.laneState 143 = 6 ∧ feTxReady s 143 = true ∧ (s.feLane 143).sentAt ≠ some 7 ∧
     s.getF (Reg.LN_TEST_CTRL_LB 143) = 0) := by decide +kernel
/-- A trunk lane in state `st`. -/
def trunkLane (n st : Nat) (fs : List (Field × Nat)) (l : TkLane) : State :=
  { live ((Reg.LQ_MODE_MODE (n / 4), 2) :: (Reg.LN_BU_STAT_STATE n, st) :: fs) with tk := [(n, l)] }

theorem witness_TrunkCodewords :
    (∀ st ∈ [2, 3, 4, 5, 6], let l := { TkLane.reset with seed := some 0, txCw := 2 ^ 48 - 2 }; let s := trunkLane 143 st [] l
      s.laneMode 143 = 2 ∧ s.laneState 143 = st ∧ s.getF (Reg.LN_TEST_CTRL_LB 143) ≠ 3 ∧ (s.tkLane 143).seed.isSome = true ∧
      (st = 6 → let u := periodicAcks s 143; (activeBlocks u 143 (u.tkLane 143)).1.txCw + 1 < 2 ^ 48)) ∧
    (∀ p ∈ [((0 : Nat), (1023 : Nat), true), (1, 511, false)], let l := { TkLane.reset with good := 4 }
      let s := trunkLane 143 4 [(Reg.LN_TK_CTRL_LOCK_N 143, 4), (Reg.LN_TK_CTRL_PLACE 143, p.1)] l
      s.laneMode 143 = 2 ∧ s.laneState 143 = 4 ∧ tget (fun _ => none) s.cyc.timed 143 = none ∧
      max 1 (s.getF (Reg.LN_TK_CTRL_LOCK_N 143)) ≤ (s.tkLane 143).good ∧
      (placeWord 37 (s.getF (Reg.LN_TK_CTRL_PLACE 143)) (1024 * s.time.slots + p.2.1)).2.2 = p.2.2 ∧
      keysNamed (sampleCfg ((s.setF (Reg.LN_TK_STAT_SLIP 143) 1143).setF (Reg.LN_TK_STAT_WAIT 143) 0) 143) = []) ∧
    (∀ st ∈ [5, 6], let s := trunkLane 143 st [(Reg.LN_TK_CTRL_UNLOCK_N 143, 0)] { TkLane.reset with bad := 1, sfSeen := 2 }
      s.laneMode 143 = 2 ∧ s.laneState 143 = st ∧ max 1 (s.getF (Reg.LN_TK_CTRL_UNLOCK_N 143)) ≤ (s.tkLane 143).bad ∧
      (openStreams (s.tkLane 143)).length = 0 ∧ tget (fun _ => none) s.cyc.timed 143 = none ∧ (s.tkLane 143).sfOk = false ∧
      (s.tkLane 143).sfSeen = 2) ∧
    (let s := atSlot (trunkLane 143 6 [] { TkLane.reset with sfOk := true, sfMiss := 4 }) 7
     s.laneMode 143 = 2 ∧ s.laneState 143 = 6 ∧ (s.tkLane 143).sfOk = true ∧ 4 ≤ (s.tkLane 143).sfMiss ∧ s.slotRuns = true ∧ s.k = 7) := by
  decide +kernel

/-- A trunk lane at which stream 7 awaits its verdict, with the key entry, check value and tag given. -/
def verdictLane (key : Nat) (chk tag : Option Nat) : TkLane :=
  { TkLane.reset with cfg := { TkCfg.reset with scfg := List.replicate 7 0 ++ [2 ^ 30 + 256 * key] }, rxCw := some 513
                      rxs := List.replicate 7 TkRxS.reset ++ [{ TkRxS.reset with prevSpoiled := false, chk := chk, tag := tag, due := true }] }

theorem witness_TrunkCodewordVerdicts :
    (∀ p ∈ [((0 : Nat), some (crc32 [] + 1), (none : Option Nat)), (63, some (crc32 []), some 0),
        (63, some (crc32 []), some (tag64 (List.replicate 32 0) (linkIv 0 7 1) [] []))],
      let s := trunkLane 143 6 [] (verdictLane p.1 p.2.1 p.2.2)
      let l := s.tkLane 143
      let r := l.rxs.getD 7 TkRxS.reset
      let cfg := l.cfg.scfg.getD 7 0
      let clean := !r.prevSpoiled && r.chk == some (crc32 (payloadBytes r.prev)) && (rxKeyOf cfg == 0 || r.tag.isSome)
      s.laneMode 143 = 2 ∧ s.laneState 143 = 6 ∧ r.due = true ∧ s.time.slots = 8 * r.beat ∧ rxEnabled cfg = true ∧ rxKeyOf cfg = p.1 ∧
      clean = (p.1 == 63)) ∧
    tag64 (List.replicate 32 0) (linkIv 0 7 1) [] [] ≠ 0 := by decide +kernel
theorem witness_TrunkQueues :
    (let p : TkPkt := { q := 7, seq := 0, len := 0, words := [], qst := 0, crc := 0, tag := 0, bad := false }
     let l := { TkLane.reset with ready := some p, qacks := [0x700], txq := List.replicate 7 TkTxQ.reset ++ [{ TkTxQ.reset with limit := some 0, top := 1, live := false }] }
     let s := trunkLane 143 6 [(Reg.LN_TK_QCFG_TXEN 143 7, 1)] l
     let x := (s.tkLane 143).txq.getD 7 TkTxQ.reset
     s.laneMode 143 = 2 ∧ s.laneState 143 = 6 ∧ s.dbgHalt = false ∧ (s.tkLane 143).ready = some p ∧ (s.tkLane 143).qOut = [] ∧
     s.flag (Reg.LN_TK_QCFG_TXEN 143 p.q) = true ∧ x.limit = some 0 ∧ x.seq ≤ 0 ∧ (s.tkLane 143).qacks = [0x700] ∧ nbits 0x700 10 8 < (s.tkLane 143).txq.length ∧
     s.alive = true ∧ x.live = false) ∧
    (let s := trunkLane 143 6 [] { TkLane.reset with txq := List.replicate 7 TkTxQ.reset ++ [{ TkTxQ.reset with top := 1, wait := 1024 }] }
     let x := (s.tkLane 143).txq.getD 7 TkTxQ.reset
     s.laneMode 143 = 2 ∧ s.laneState 143 = 6 ∧ x.acked < x.top ∧ 64 * max 1 (s.getF (Reg.LN_TK_CTRL_RTO 143)) ≤ x.wait) ∧
    (∀ rxen ∈ [(0 : Nat), 1], ∀ bad : Bool, ∀ seq ∈ [(0 : Nat), 1, 2 ^ 15 - 1, 2 ^ 15, 2 ^ 16 - 1], ∀ key ∈ [(0 : Nat), 63], ∀ tag ∈ [0, tag64 (List.replicate 32 0) (linkIv 0 15 0) (packetAad 0) []],
      let p : TkPkt := { q := 7, seq := seq, len := 0, words := [], qst := 0, crc := 0, tag := tag, bad := bad }
      let l := { TkLane.reset with packets := [p], cfg := { TkCfg.reset with qcfg := List.replicate 7 0 ++ [2 ^ 30 + 256 * key] } }
      let s := trunkLane 143 6 [(Reg.LN_TK_QCFG_RXEN 143 7, rxen)] l
      let cfg := l.cfg.qcfg.getD 7 0
      s.laneMode 143 = 2 ∧ s.tkLane 143 = l ∧ s.flag (Reg.LN_TK_QCFG_RXEN 143 p.q) = (rxen == 1) ∧ rxEnabled cfg = true ∧ rxKeyOf cfg = key ∧
      l.rxq.getD 7 (0, 0) = (0, 0) ∧
      0 < (s.getF (Reg.LN_TK_QRXP_HEAD 143 7) % rxRing l 7 + rxRing l 7 - 1 - s.getF (Reg.LN_TK_QRXP_TAIL 143 7) % rxRing l 7) % rxRing l 7 ∧
      l.buf.length < 4 ∧ s.dbgHalt = false) ∧
    (let b : TkBuf := { q := 7, seq := 0, todo := [], left := [], err := false }
     let s := trunkLane 143 6 [] { TkLane.reset with buf := [b] }
     s.laneMode 143 = 2 ∧ (s.tkLane 143).buf.findIdx? (fun b => b.q == 7) = some 0 ∧ (s.tkLane 143).buf[0]? = some b ∧ b.todo = [] ∧ b.left = [] ∧
     s.dbgHalt = false ∧ b.err = false) := by decide +kernel
/-- Lane n enabled in mode m and state `st`, with nothing that holds it in IDLE. -/
def laneUp (n m st : Nat) : List (Field × Nat) :=
  [(Reg.LQ_MODE_MODE (n / 4), m), (Reg.LN_BU_STAT_STATE n, st), (Reg.LN_BU_CTRL_EN n, 1), (Reg.CFG_STAT_STATE, 3), (Reg.LQ_PLL_STAT_LOCK (n / 4), 1)]

theorem witness_LaneBringUp :
    (∀ m ∈ [(1 : Nat), 2], ∀ st ∈ [(0 : Nat), 1, 2, 3, 4, 5, 6], let s := live (laneUp 143 m st)
      patterned s 143 = false ∧ s.alive = true ∧ s.laneState 143 = st ∧ s.laneMode 143 = m ∧ tget (fun _ => none) s.cyc.timed 143 = none ∧
      idleCond s 143 = false ∧ idleCond (s.setReg (Reg.LN_BU_CTRL 143) (0xFFFFFFFF &&& 5)) 143 = false ∧
      idleCond (s.setReg (Reg.LN_BU_CTRL 143) (0xFFFFFFFE &&& 5)) 143 = true ∧
      idleCond (s.setReg (Reg.LN_BU_CTRL 143) (s.reg (Reg.LN_BU_CTRL 143) &&& 0x00000005#32)) 143 = false ∧
      (2 ≤ st ∧ st ≤ 5 → mayTimeout s 143 = true)) ∧
    (let s := { live (laneUp 143 2 6) with tk := [(143, { TkLane.reset with unlocked := 1024 })] }
     patterned s 143 = false ∧ mayTimeout s 143 = true) := by decide +kernel

/-- The handshake message of a lane whose H is h. -/
def hskOf (h : Nat) : List Nat :=
  let m := [2 ^ 16 + h * 2 ^ 24, 0, 0, 0, 0]
  m ++ [2 ^ 16 * crc32 (payloadBytes m)]

theorem witness_PllHandshakeAndWake :
    (∀ m ∈ [(1 : Nat), 2], let s := live [(Reg.LQ_MODE_MODE 35, m), (Reg.CLK_STAT_LOCK, 1), (Reg.LQ_PLL_STAT_LOCK 35, 0), (Reg.LQ_MODE_RATE_ERR 35, 0), (Reg.LQ_TRK_RATE_ERR 35, 0)]
      pllMayRun s 35 = true ∧ s.flag (Reg.LQ_PLL_STAT_LOCK 35) = false) ∧
    (let s := { live [(Reg.LQ_PLL_STAT_LOCK 35, 1)] with pllDue := [(35, true)] }
     s.flag (Reg.LQ_PLL_STAT_LOCK 35) = true ∧ (∀ l < 4, s.laneState (4 * 35 + l) = 0) ∧ tget (fun _ => false) s.pllDue 35 = true) ∧
    (∀ h ∈ [(0 : Nat), 1], let m := hskOf h
      let l := { TkLane.reset with hsk := some m, hskTwo := true, passed := true, acksSent := 2, ackSeen := true, seed := some 0 }
      let s := { live [(Reg.LQ_MODE_MODE 35, 2), (Reg.LN_BU_STAT_STATE 143, 5)] with tk := [(143, l)] }
      s.laneMode 143 = 2 ∧ s.laneState 143 = 5 ∧ tget (fun _ => none) s.cyc.timed 143 = none ∧ s.tkLane 143 = l ∧
      nbits (m.getD 5 0) 47 16 = crc32 (payloadBytes (m.take 5)) ∧ nbits (m.getD 0 0) 23 16 = 1 ∧ l.peer ≠ some m ∧
      hskCause s l m = 2 * h) ∧
    (∀ p ∈ [Phase.hold, .keep], let s := { live [(Reg.LN_WAKE_EN 143, 1), (Reg.PWR_WAKE_LANE_EN, 1)] with phase := p }
      s.phase = p ∧ s.wakes = 0 ∧ s.flag (Reg.LN_WAKE_EN 143) = true ∧ s.flag Reg.PWR_WAKE_LANE_EN = true ∧ s.flag (Reg.LN_WAKE_CLASS 143) = false) ∧
    (let s0 := live [(Reg.LN_WAKE_EN 143, 1), (Reg.PWR_WAKE_LANE_EN, 1)]; let s := { s0 with aon := { s0.aon with entry := 2, mode := 1 } }
     (s.aon.entry = 2 ∧ s.aon.mode ≠ 3) ∧ s.wakes = 0 ∧ s.flag (Reg.LN_WAKE_EN 143) = true ∧ s.flag Reg.PWR_WAKE_LANE_EN = true) ∧
    (let s := live []; s.alive = true ∧ s.phase = .run ∧ s.flag (Reg.LN_WAKE_SENDING 143) = false ∧ s.laneState 143 = 0) ∧
    (live [(Reg.LN_WAKE_SENDING 143, 1)]).flag (Reg.LN_WAKE_SENDING 143) = true := by decide +kernel

theorem witness_LaneTestFeatures :
    (∀ st ∈ [(0 : Nat), 6, 7], ∀ pat ∈ [(0 : Nat), 1, 5], let s := live [(Reg.LN_BU_STAT_STATE 143, st), (Reg.LN_TEST_CTRL_TXPAT 143, pat)]
      let u := fun v : Word32 => s.setReg (Reg.LN_TEST_CTRL 143) (v &&& 0x00FFFFFF#32)
      s.alive = true ∧ s.laneState 143 = st ∧ patterned s 143 = (pat != 0) ∧ (0x5#32).getLsbD 31 = false ∧ (0x5#32).getLsbD 30 = false ∧
      patterned (u 5) 143 = true ∧ patterned (u 0) 143 = false ∧ (nbits (5#32).toNat 5 0 = nbits (s.reg (Reg.LN_TEST_CTRL 143)).toNat 5 0 ↔ pat = 5) ∧
      (u 0x45).getF (Reg.LN_TEST_CTRL_LB 143) ≠ s.getF (Reg.LN_TEST_CTRL_LB 143) ∧ patterned (u 0x45) 143 = true ∧
      ((u 5).getF (Reg.LN_TEST_CTRL_RXPAT 143) = s.getF (Reg.LN_TEST_CTRL_RXPAT 143)) ∧
      ((u 0x2D).getF (Reg.LN_TEST_CTRL_RXPAT 143) ≠ s.getF (Reg.LN_TEST_CTRL_RXPAT 143) ∧ (u 0x2D).getF (Reg.LN_TEST_CTRL_LB 143) = s.getF (Reg.LN_TEST_CTRL_LB 143)) ∧
      (u 0x40).getF (Reg.LN_TEST_CTRL_LB 143) ≠ s.getF (Reg.LN_TEST_CTRL_LB 143) ∧ patterned (u 0x40) 143 = false ∧
      (u 0).getF (Reg.LN_TEST_CTRL_LB 143) = s.getF (Reg.LN_TEST_CTRL_LB 143) ∧
      s.reg (Reg.LN_TEST_CTRL 143) &&& 0xFF000000#32 = 0 ∧ (s.test 143).inj = 0 ∧ (s.test 143).bits < 2 ^ 48) ∧
    (let s := { live [(Reg.LN_BU_STAT_STATE 143, 7), (Reg.LN_TEST_CTRL_RXPAT 143, 5)] with
        laneTest := [(143, { LaneTest.reset with cmp := true, lost := true, inj := 1 })] }
     s.alive = true ∧ s.laneState 143 = 7 ∧ (prbsTaps (s.getF (Reg.LN_TEST_CTRL_RXPAT 143))).isSome = true ∧
     s.flag (Reg.LN_TEST_STAT_SYNC 143) = false ∧ (s.test 143).cmp = true ∧ (s.test 143).lost = true ∧ (s.test 143).inj ≠ 0) := by decide +kernel
/-- Teller 239 in RUN before the instruction `w`, with the value of x2 given. -/
def tellerAt (w x2 : Nat) (fs : List (Field × Nat)) : State :=
  let s := live ((Reg.SEC_TLR_STAT_STATE 239, 1) :: fs)
  { s with tram := cwPut s.tram (8192 * 239) (cwEncode (BitVec.ofNat 64 w)), tellers := [(239, { Teller.reset with x := [(2, BitVec.ofNat 32 x2)] })] }

theorem witness_TellerControl :
    (∀ st ∈ [(0 : Nat), 1, 2, 3, 4], let s := live [(Reg.SEC_TLR_STAT_STATE 239, st)]; s.alive = true ∧ s.tlrState 239 = st ∧ s.clockOn = true ∧ s.phase ≠ .start) ∧
    (∀ st ∈ [(2 : Nat), 3], let s := { live [(Reg.CFG_STAT_STATE, st)] with phase := .start }
      s.alive = true ∧ s.phase = .start ∧ (s.getF Reg.CFG_STAT_STATE < 3 ↔ st = 2) ∧ s.tlrState 239 = 0) ∧
    (∀ p ∈ [(0x0000000F, Rv.fence false), (0x73, .ecall), (0x00100073, .ebreak), (0xFFFFFFFF, .illegal)], let s := tellerAt p.1 0 []
      tlrMayIssue s 239 = true ∧ (tlrFetch s 239).2 = .inl (p.2, 4) ∧ tlrStores (tlrFetch s 239).1 239 = false) ∧
    (let s := { tellerAt 0x0000000F 0 [] with
        outst := [{ id := 0x100 + 239, ln := false, tag := 0, op := 1, addr := 0, size := 8, tmo := none, note := 0, aux := 0 }] }
     tlrMayIssue s 239 = true ∧ (tlrFetch s 239).2 = .inl (.fence false, 4) ∧ tlrStores (tlrFetch s 239).1 239 = true) ∧
    (let s := tellerAt 0x00100093 0 []; tlrMayIssue s 239 = true ∧ (tlrFetch s 239).2 = .inl (.opImm .add 1 0 1 false, 4) ∧
      (rvPlain 32 (.opImm .add 1 0 1 false) 4 0 (tlrX (tlrFetch s 239).1 239)).isSome = true) ∧
    (∀ w ∈ [(0x00012083 : Nat), 0x00112023],
      ∀ p ∈ [((0x10001 : Nat), TlrTarget.ram 4096), (0xFFFC, .none), (0x17FFC, .ram 8191), (0x60014, .page 20), (0x5FFFC, .bank 7 4095), (0xFFFFFFFC, .net 0x7FFFFFFC)],
      let s := tellerAt w p.1 []; let s1 := (tlrFetch s 239).1
      tlrMayIssue s 239 = true ∧ (tlrFetch s 239).2 = .inl (if w = 0x00012083 then .load 1 2 0 4 true else .store 2 1 0 4, 4) ∧
      wrapN 32 ((tlrX s1 239 2 : Int) + 0) = p.1 ∧ (p.1 % 4 = 0 ↔ p.1 ≠ 0x10001) ∧ tlrTarget s1 239 p.1 = p.2 ∧
      (tramRead s1 239 8191).2 = some 0 ∧ tlrStores s1 239 = false ∧ tlrOut s1 239 < 8 ∧ s1.napFenced 239 = false) ∧
    (let s := { tellerAt 0 0 [] with tellers := [(239, { Teller.reset with pc := 0x8000 })] }
     tlrMayIssue s 239 = true ∧ (tlrFetch s 239).2 = .inr 3 ∧ 3 < 16) := by decide +kernel
/-- The word of a vector instruction: OPV, W, the three registers, the kind. -/
def vword (opv w32 b a d kind op : Nat) : Nat := 2 ^ 26 * opv + 2 ^ 25 * w32 + 2 ^ 20 * b + 2 ^ 15 * a + 2 ^ 12 * kind + 2 ^ 7 * d + op

theorem witness_TellerVectors :
    (∀ p ∈ [(0, VOp.add), (1, .sub), (2, .mul), (3, .mulh), (4, .mulhu), (5, .min), (6, .minu), (7, .max), (8, .maxu), (9, .seq), (10, .slt), (11, .sltu)],
      ∀ w32 : Bool, decodeT (vword p.1 w32.toNat 14 15 13 0 0x0B) = some (.vv p.2 w32 13 15 14)) ∧
    decodeT (vword 12 0 14 15 13 0 0x0B) = some (.vv .sel false 13 15 14) ∧
    (∀ w32 : Bool, ∀ d ∈ [(0 : Nat), 31], let l := if w32 then 3 else 7
      decodeT (vword 0 w32.toNat 0 15 d 1 0x0B) = some (.vredsum false w32 d 15) ∧ decodeT (vword 1 w32.toNat 0 15 d 1 0x0B) = some (.vredsum true w32 d 15) ∧
      decodeT (vword 2 w32.toNat 0 d 15 1 0x0B) = some (.vsplat w32 15 d) ∧ decodeT (vword 3 w32.toNat l 15 d 1 0x0B) = some (.vext false w32 d 15 l) ∧
      decodeT (vword 4 w32.toNat l 15 d 1 0x0B) = some (.vext true w32 d 15 l) ∧ decodeT (vword 5 w32.toNat l d 15 1 0x0B) = some (.vins w32 15 d l)) ∧
    (∀ w ∈ [vword 0 1 14 15 13 0 0x0B, vword 0 0 0 2 15 0 0x2B, vword 0 0 15 2 0 1 0x2B, vword 0 1 14 2 15 2 0x2B],
      ∀ p ∈ [((0x10008 : Nat), TlrTarget.ram 4097), (0x17FF0, .ram 8190), (0, .none), (0x5FFF0, .bank 7 4094), (0xFFFFFFF0, .net 0x7FFFFFF0)],
      let s := tellerAt w p.1 []; let s1 := (tlrFetch s 239).1
      tlrMayIssue s 239 = true ∧ (tlrFetch s 239).2 = .inl (.custom w, 4) ∧ tlrX s1 239 2 = p.1 ∧ tlrTarget s1 239 p.1 = p.2 ∧
      (tramRead s1 239 8190).2 = some 0 ∧ (tramRead s1 239 8191).2 = some 0 ∧ tlrStores s1 239 = false ∧ tlrOut s1 239 ≤ 6 ∧ s1.napFenced 239 = false) ∧
    decodeT (vword 0 0 0 2 15 0 0x2B) = some (.vld 15 2 0) ∧ decodeT (vword 0 0 15 2 0 1 0x2B) = some (.vst 15 2 0) ∧
    (∀ sat : Bool, decodeT (vword 0 sat.toNat 14 2 15 2 0x2B) = some (.vtally 15 14 2 sat)) := by decide +kernel

theorem witness_TellerTriggers :
    (∀ q ∈ [(0 : Nat), 1], ∀ p ∈ [(0 : Nat), 2, 0x1A], ∀ w ∈ [vword 0 0 0 0 31 2 0x0B, vword 1 0 0 0 31 2 0x0B, vword 2 0 0 31 0 2 0x0B],
      let s0 := tellerAt w 0 [(Reg.SEC_TLR_CFG_WEN_FRAME 239, 1)]
      let s := { s0 with tellers := [(239, { Teller.reset with pend := p })]
                         outst := List.replicate q { id := 0x100 + 239, ln := false, tag := 0, op := 1, addr := 0, size := 8, tmo := none, note := 0, aux := 0 } }
      let s1 := (tlrFetch s 239).1
      tlrMayIssue s 239 = true ∧ (tlrFetch s 239).2 = .inl (.custom w, 4) ∧ (tlrWaitCauses s1 239 = 0 ↔ p = 0) ∧ (tlrOut s1 239 = 0 ↔ q = 0) ∧
      (tlrPend s1 239).testBit 1 = (p != 0)) ∧
    decodeT (vword 0 0 0 0 31 2 0x0B) = some (.twait 31) ∧ decodeT (vword 1 0 0 0 31 2 0x0B) = some (.tsettle 31) ∧
    decodeT (vword 2 0 0 31 0 2 0x0B) = some (.traise 31) ∧
    (∀ p ∈ [((2 : Nat), TlrWait.twait 31 4), (3, .settle 31 4), (3, .overdraft)],
      let s := { live [(Reg.SEC_TLR_STAT_STATE 239, p.1), (Reg.SEC_TLR_CFG_WEN_FRAME 239, 1)] with
        tellers := [(239, { Teller.reset with pend := 2, wait := p.2, waking := some (0, 3) })] }
      (s.tlr 239).wait = p.2 ∧ s.slotRuns = true ∧ tlrClock s = true ∧ dutyOpen s s.tlrCycle = true ∧ s.tlrState 239 = p.1 ∧ tlrWaitCauses s 239 ≠ 0 ∧
      (tlrPend s 239).testBit 1 = true ∧ (atSlot s 2).cfgSlots = 2 * 0 + 2) := by decide +kernel
/-- Router 359 with a request ejected there on a network and virtual channel. -/
def asked (q : NocReq) (net vc : Nat) : State :=
  { live [] with netq := [(queueKey 359 net 7 vc, [Flit.ofReq q 359])] }

theorem witness_NetworkRequests :
    (∀ op ∈ [(0 : Nat), 1, 3, 4, 5, 6], ∀ size ∈ [(0 : Nat), 3], ∀ a ∈ [(0x403C00000 : Nat), 0x6003FFFF8, 0x600000000],
      let q := { mkReq op size 0x200 0 a 5 with tag := 255 }; let s := asked q 0 1
      s.nocRuns = true ∧ (s.ejected 359 0 1).bind Flit.request = some q ∧ memTurn s 359 0 1 = true ∧
      regionOf a = (if a = 0x403C00000 then .none else .sram) ∧ q.size ≤ 3 ∧ q.addr % 2 ^ q.size = 0) ∧
    (let q := mkReq 0 3 0x200 0 0x6003FFFF9 0
     ((asked q 0 0).ejected 359 0 0).bind Flit.request = some q ∧ memTurn (asked q 0 0) 359 0 0 = true ∧ regionOf q.addr = .sram ∧ q.addr % sizeBytes q.size ≠ 0) ∧
    (∀ p ∈ [((0 : CodeWord), Decoded.clean 0), (3, .corrected 0), (7, .bad)],
      let s := { asked (mkReq 0 3 0x200 0 0x6003FFFF8 0) 0 0 with sram := cwPut [] 524287 p.1 }
      cwDecode (cwAt s.sram (0x6003FFFF8 % 0x400000 / 8)) = p.2) ∧
    (let q := mkReq 2 4 0x200 0 0x6003FFFC0 (2 ^ 512 - 1); let s := asked q 2 0
     s.nocRuns = true ∧ (s.ejected 359 2 0).bind Flit.request = some q ∧ memTurn s 359 2 0 = true ∧ q.op = 2 ∧ q.size = 4 ∧ regionOf q.addr = .sram ∧
     q.addr % 64 = 0) := by decide +kernel

theorem witness_NetworkTransport :
    (∀ p ∈ [((358 : Nat), (1 : Nat)), (359, 0)],
      let f := Flit.ofReq (mkReq 0 3 0x200 0 0 0) 359
      let s := { live [] with netq := [(queueKey p.1 0 2 1, [f])] }
      let s0 := pullInject (collectBankRsps s p.1) p.1
      s.nocRuns = true ∧ arbWinner s0 p.1 p.2 0 = some 5 ∧ s0.queue p.1 0 2 1 = [f]) ∧
    (∀ dat : Bool, let s := { live [] with netq := [(queueKey 359 (if dat then 2 else 1) 7 1, [Flit.ofRsp dat false 0x1EF 255 true 2 7])] }
      let o : Outst := { id := 0x1EF, ln := true, tag := 255, op := 0, addr := 0, size := 3, tmo := some 0, note := 0, aux := 0 }
      (s.ejected 359 (if dat then 2 else 1) 1).bind Flit.response = some ⟨0x1EF, 255, true, 2, 7⟩ ∧ findOutst s 0x1EF true 255 = none ∧
      findOutst { s with outst := [o] } 0x1EF true 255 = some o) ∧
    (∀ op ∈ [(0 : Nat), 2], let o : Outst := { id := 1023, ln := true, tag := 255, op := op, addr := 2 ^ 48 - 1, size := 3, tmo := some 0, note := 0, aux := 0 }
      let s := { live [(Reg.NOC_TMO_EN, 1)] with outst := [o] }
      s.nocRuns = true ∧ findOutst s 1023 true 255 = some o ∧ s.flag Reg.NOC_TMO_EN = true ∧ o.tmo.isSome = true ∧ o.addr < 2 ^ 48) := by decide +kernel

theorem witness_NapPorts :
    (∀ fence : Bool, ∀ cred ∈ [(0 : Nat), 1], ∀ lost ∈ [(0 : Nat), 1], ∀ bad : Bool,
      let s0 := afBits (live [userUp]) (napTile 239) (if bad then [88, 110] else [88])
      let s := { s0 with naps := [(239, { Nap.reset with cred := cred, lost := lost, fenced := fence })] }
      let p := s.nap 239
      s.mayIssue 239 = true ∧ s.clrOpen = false ∧ s.napFenced 239 = fence ∧ p.grantAt ≠ some s.time.slots ∧ p.cred + outCount s 239 false < p.icred ∧
      p.reqAt ≠ some s.time.slots ∧ napValid s 239 = true ∧ p.cred = cred ∧ p.lost = lost ∧
      napOpOk (napRequest s 239).1.op (napRequest s 239).1.size = !bad) ∧
    (let r : UserRsp := ⟨0, true, 63, 3, 0⟩
     let s := { live [userUp] with naps := [(239, { Nap.reset with resps := [⟨1, false, 0, 0, 0⟩, r] })] }
     s.slotRuns = true ∧ (s.nap 239).shown.map (fun x => x.1) ≠ some s.time.slots ∧ nextResp (s.nap 239).resps s.time.slots = some r) ∧
    (∀ h ∈ [(none : Option (Nat × Nat)), some (0, 0), some (15, 0)],
      let q : UwReq := { r := mkReq 0 3 0x200 0 0x80EF00000 0, vc := 1, shown := h }
      let s0 := afBits (live [userUp]) (uwTile 239) [0]
      let s := atSlot { s0 with naps := [(239, { Nap.reset with uw := [q] })] } (max 1 (s0.getF (Reg.SEC_NAP_LIM_TGT_LIM 239)))
      let p := s.nap 239
      s.mayIssue 239 = true ∧ s.clrOpen = false ∧ p.uwShown.map (fun x => x.1) ≠ some s.time.slots ∧ (uwOpen p).length < p.tcred ∧ p.tcred ≤ 16 ∧
      p.uw.find? (fun q => q.shown.isNone) = (if h = none then some q else none) ∧ p.ansAt ≠ some s.time.slots ∧
      s.view.afIn (uwTile 239) 0 = true ∧ s.view.afBus (uwTile 239) 11 4 = 0 ∧
      (p.uw.find? (fun q => q.shown.map (fun x => x.1) == some 0) = if h = some (0, 0) then some q else none) ∧ s.slotRuns = true ∧
      p.uw = [q] ∧ 0 + max 1 (s.getF (Reg.SEC_NAP_LIM_TGT_LIM 239)) ≤ s.time.slots) ∧
    (live []).alive = true := by decide +kernel

/-- A memory channel whose scrubber stands at its last line, with the first word of that line given. -/
def scrubAt (w : BitVec 88) (line : Nat) : State :=
  { live [(Reg.MEMC_CTRL_SCRUB_EN 15, 1), (Reg.MEMC_STAT_SREF 15, 0), (Reg.MEMC_SCRUB_POS_LINE 15, line)] with mem := [(channelAddr 15 (64 * line) / 8, w)] }

theorem witness_MemoryMaintenance :
    (∀ line ∈ [(0 : Nat), 16777215], ∀ p ∈ [((2 ^ 87 : BitVec 88), true, false, (0 : Nat)), (mwEncode 5, false, false, 0), (mwEncode 5 ^^^ 3, false, false, 1), (7, false, true, 0)],
      let s := scrubAt p.1 line
      let a := channelAddr 15 (64 * line)
      s.alive = true ∧ s.flag (Reg.MEMC_STAT_SREF 15) = false ∧ s.getF (Reg.MEMC_SCRUB_POS_LINE 15) = line ∧ s.flag (Reg.MEMC_CTRL_SCRUB_EN 15) = true ∧
      linePoisoned s a = p.2.1 ∧ (p.2.1 = false → (decodeLine s a allWords).bad = p.2.2.1 ∧ (decodeLine s a allWords).fixed = p.2.2.2) ∧
      s.flag (Reg.MEMC_STAT_UNCORR 15) = false ∧ (s.hwReg (Reg.MEMC_STAT 15)).bits.getLsbD (Reg.MEMC_STAT_UNCORR 15).lo = false) := by decide +kernel
theorem witness_FuseProgramming :
    (∀ id ∈ [(0 : Nat), 1023], ∀ busy ∈ [(0 : Nat), 1],
      let s := { live [(Reg.VLT_LOCK_STATE, 2), (Reg.VLT_LOCK_OWNER, id), (Reg.VLT_STAT_ROOT_OK, 1), (Reg.VLT_STAT_OKEY_STATE, 0), (Reg.VLT_STAT_FUSE_BUSY, busy), (Reg.CFG_SEQ_HI_SEQ_HI, 255 * 2 ^ 24)] with
        okeys := (List.range 8).map (fun i => (i, some (255 : Word32))) }
      let t := { s with okeys := [] }
      s.alive = true ∧ s.getF Reg.VLT_LOCK_STATE = 2 ∧ s.getF Reg.VLT_LOCK_OWNER = id ∧ (okeyLatched s).isSome = true ∧ okeyLatched t = none ∧
      s.getF Reg.VLT_STAT_OKEY_STATE = 0 ∧ s.flag Reg.VLT_STAT_ROOT_OK = true ∧ s.flag Reg.VLT_STAT_FUSE_BUSY = (busy == 1) ∧
      tget (fun _ => none) s.okeys 0 = some (255 : Word32) ∧ floorOf s.fuses.floor < 255 ∧ 255 ≤ s.getF Reg.CFG_SEQ_HI_SEQ_HI / 2 ^ 24 ∧
      tget (fun _ => none) t.okeys 0 = none ∧ (∀ st ∈ [(0 : Nat), 1], (s.setF Reg.VLT_LOCK_STATE st).getF Reg.VLT_LOCK_STATE ≠ 2)) ∧
    (∀ b ∈ [(1 : Nat), 2], let s0 := live []; let s := { s0 with fuses := { s0.fuses with burning := b, latch := 1 } }
      s.phase ≠ .unpowered ∧ s.fuses.burning = b) := by decide +kernel

theorem witness_LockedCommands :
    (∀ which : Fin 3, ∀ st ∈ [(0 : Nat), 1, 2, 3], let s := live [(lockState which, st), (lockOwner which, 1023)]
      s.alive = true ∧ s.getF (lockState which) = st ∧ s.getF (lockOwner which) = 1023) ∧
    (∀ used ∈ [(0 : Nat), 1], ∀ st ∈ [(0 : Nat), 2],
      let s := live [(Reg.VLT_LOCK_STATE, st), (Reg.VLT_LOCK_OWNER, 1023), (Reg.VLT_WCTL_EN 15, used), (Reg.VLT_WCTL_MODE 15, 1), (Reg.VLT_WCTL_KEY 15, 63)]
      s.alive = true ∧ s.getF Reg.VLT_LOCK_STATE = st ∧ s.getF Reg.VLT_LOCK_OWNER = 1023 ∧ keyInUse s 63 = (used == 1) ∧
      nbits (63#32).toNat 5 0 = 63 ∧ (63#32).getLsbD 0 = true ∧ nbits (64#32).toNat 5 0 = 0 ∧ (64#32).getLsbD 0 = false) ∧
    (let s := live [(Reg.VLT_STAT_INIT_BUSY, 1)]; s.alive = true ∧ s.flag Reg.VLT_STAT_INIT_BUSY = true ∧ anyInit s = false) := by decide +kernel

theorem witness_WindowsAndRandomNumbers :
    (∀ en ∈ [(0 : Nat), 1], ∀ mode ∈ [(0 : Nat), 1, 2], let s := live [(keyValBit 63, 1), (Reg.VLT_WCTL_EN 15, en), (Reg.VLT_WCTL_INIT 15, 1), (Reg.VLT_WTREE_TBASE 15, 1024)]
      let v := BitVec.ofNat 32 (22 + 63 * 2 ^ 16 + mode * 2 ^ 28 + 2 ^ 31)
      s.alive = true ∧ s.flag (Reg.VLT_WCTL_EN 15) = (en == 1) ∧ s.flag (Reg.VLT_WCTL_INIT 15) = true ∧
      windowAllowed s 15 (v ||| 0x80000000#32).toNat = true ∧ windowAllowed s 15 ((v - 1) ||| 0x80000000#32).toNat = false ∧
      nbits (v ||| 0x80000000#32).toNat 29 28 = mode ∧ nbits (v ||| 0x80000000#32).toNat 21 16 = 63 ∧
      (readKey s 63).1 = s ∧ (readKey s 63).2 = some (List.replicate 32 0)) ∧
    (∀ ok : Bool, let s := live [(Reg.VLT_STAT_RNG_OK, ok.toNat)]; s.alive = true ∧ s.flag Reg.VLT_STAT_RNG_OK = ok) := by decide +kernel
/-- The flash with octets at an address. -/
def flashWith (a n bytes : Nat) : Tab CodeWord :=
  (List.range (n / 8)).map (fun i => (a / 8 + i, cwEncode (BitVec.ofNat 64 (bytes / 2 ^ (64 * i)))))

/-- The header of a full image, wrapped under the blank owner key. -/
def fullHeader : Nat := 0x950219b6d914cc8acd013faa4aab986c0000000000000000000000000000000000000000000000000000000000000000ff7de1ff164b6d3bc291285bcadc12c47628b6085aefae67e85c0bdd52cbe16800000000000000000000000000000000000000000000000000000000000003e8000000000000000100000001aed1a980
/-- The header of a partial stream for plane 7 of sector 239. -/
def partialHeader : Nat := 0x18244e79693c5c7582eb2307e77eb1410080800000000000000000000000000000000000000000000000000000000000ff7de1ff164b6d3bc291285bcadc12c47628b6085aefae67e85c0bdd52cbe16800000000000000000000000000000000000000000000000000000000000003e8000000000000000100000101aed1a980
/-- A first segment of eight octets under a key of zeros. -/
def firstSegment : Nat := 0x9ecb3c827ff27abe8e83ff1ea3c67dfe7be14a4d28b14add8e3506758ef5a2d1742aa637ca036072189df3bad3c54e076e6b604d3d40a7ce0000000000000000000000000000000000000000000000000000000800000001

theorem witness_StreamsStart :
    (∀ st ∈ [(1 : Nat), 3], ∀ src ∈ [(0 : Nat), 1, 2, 3, 4], ∀ full : Bool,
      let s0 := live [(Reg.CFG_STAT_STATE, st)]; let s := { s0 with ld := { s0.ld with src := src, full := full } }
      s.alive = true ∧ s.ld.src = src ∧ s.ld.full = full ∧ s.ld.rfxq = [] ∧ s.getF Reg.CFG_STAT_STATE = st) ∧
    (∀ p ∈ [Phase.run, .start], ∀ n ∈ [(0 : Nat), 255, 256], ∀ st ∈ [(1 : Nat), 2], ∀ src ∈ [(0 : Nat), 4],
      let s0 := live [(Reg.CFG_STAT_STATE, st)]; let s := { s0 with phase := p, ld := { s0.ld with src := src, fifo := List.replicate n 0 } }
      s.phase = p ∧ s.ld.fifo.length = n ∧ s.ld.src = src ∧ s.getF Reg.CFG_STAT_STATE = st) ∧
    (∀ p ∈ [Phase.waiting, .bistHeld, .hold, .integrity], ({ live [] with phase := p }).phase = p) ∧
    (∀ on : Bool, let s0 := live [(Reg.VLT_STAT_ROOT_OK, 1)]; let s := { s0 with ld := { s0.ld with src := 3, base := 0xFFC00, flOn := on } }
      s.alive = true ∧ tlrClock s = true ∧ s.ld.src = 3 ∧ s.ld.flOn = on ∧ s.ld.open_ = false ∧ s.ld.base < 0x100000 ∧ (ownerKey s).isSome = true) := by
  decide +kernel

theorem witness_StreamsStartSegment :
    (∀ key ∈ [List.replicate 32 0, []], ∀ src ∈ [(1 : Nat), 2, 3], ∀ index ∈ [(0 : Nat), 1],
      let s0 := live [(Reg.CFG_STAT_STATE, 4)]
      let s := { s0 with flash := flashWith (2 ^ 32 - 88) 88 firstSegment
                         ld := { s0.ld with src := src, open_ := true, base := 2 ^ 32 - 88, key := key, index := index } }
      s.alive = true ∧ tlrClock s = true ∧ s.ld.flOn = false ∧ s.ld.src = src ∧ s.ld.open_ = true ∧ s.ld.seg = none ∧ s.ld.rfxq = [] ∧ ldOut s = 0 ∧ s.ld.pos + 88 ≤ s.ld.len + 128 ∧
      (flashBytes s (2 ^ 32 - 88) 32).2 = some (leBytes 32 firstSegment) ∧ 80 + leNat (((leBytes 32 firstSegment).drop 4).take 4) = 88 ∧
      (flashBytes s (2 ^ 32 - 88) 88).2 = some (leBytes 88 firstSegment) ∧ leNat (((leBytes 88 firstSegment).drop 8).take 4) = 0 ∧
      typeAllowed false ((leBytes 88 firstSegment).getD 0 0) = true ∧ lenAllowed ((leBytes 88 firstSegment).getD 0 0) (88 - 80) = true) ∧
    segTagOk (List.replicate 32 0) (leBytes 88 firstSegment) = true ∧ segTagOk [] (leBytes 88 firstSegment) = false := by decide +kernel

theorem witness_StreamsStartPartialHeader :
    let s0 := live [(Reg.CFG_STAT_STATE, 4), (Reg.VLT_STAT_ROOT_OK, 1), (Reg.VLT_STAT_OKEY_STATE, 0), (Reg.SEC_SCHED_FOLD (State.reset.leader 239), 0)]
    let s := { s0 with flash := flashWith 0x100000 128 partialHeader, ld := { s0.ld with src := 3, base := 0x100000 } }
    s.alive = true ∧ tlrClock s = true ∧ s.ld.flOn = false ∧ s.ld.src = 3 ∧ s.ld.full = false ∧ s.ld.open_ = false ∧ (flashHeader s s.ld.base (2 ^ 32 - s.ld.base)).2.toOption.map (·.1) = some (leBytes 128 partialHeader) ∧
    (leBytes 128 partialHeader).getD 5 0 ≠ 0 ∧ declaredSecs (leBytes 128 partialHeader) = [239] ∧ declaredPlanes (leBytes 128 partialHeader) = [7] ∧
    blockedPlane s 239 7 = false ∧ blockedPlane (live []) 239 7 = true := by decide +kernel

theorem witness_StreamsStartFullHeader :
    let s0 := live [(Reg.VLT_STAT_ROOT_OK, 1), (Reg.VLT_STAT_OKEY_STATE, 0), (Reg.RST_STAGE_STEP, 5), (Reg.CFG_STAT_STATE, 0)]
    let s := { s0 with phase := .start, flash := flashWith 0x20000000 128 fullHeader }
    s.alive = true ∧ s.ld.src = 0 ∧ s.phase = .start ∧ s.getF Reg.RST_STAGE_STEP = 5 ∧ s.getF Reg.CFG_STAT_STATE = 0 ∧ s.ld.failed.testBit 0 = false ∧ s.ld.flOn = false ∧
    (copyHeader s 1).2.isSome = true ∧ (copyHeader s 2).2 = none := by decide +kernel
/-- The device with a segment of a type and body verified. -/
def withSeg (ty : Nat) (body : List Nat) (l : Loader) (fs : List (Field × Nat)) : State :=
  { live fs with ld := { l with seg := some (ty, body) } }

theorem witness_StreamRecordsPosted :
    (∀ p ∈ [((3 : Nat), 1919 + 4095 * 2 ^ 12 + 2 ^ 24), (4, 524287 + 2 ^ 19), (5, 239 + 2 ^ 8 + 4095 * 2 ^ 9 + 2 ^ 21)],
      let body := leBytes 16 p.2; let s := withSeg p.1 body Loader.reset []
      s.alive = true ∧ tlrClock s = true ∧ s.ld.seg = some (p.1, body) ∧ s.ld.word < 1 ∧
      (p.1 = 3 → nbits p.2 10 0 = 1919 ∧ nbits p.2 11 11 = 0 ∧ p.2 / 2 ^ 37 = 0 ∧ nbits p.2 36 24 = 1 ∧ nbits p.2 23 12 + 1 ≤ 4096) ∧
      (p.1 = 4 → p.2 / 2 ^ 39 = 0 ∧ nbits p.2 38 19 = 1 ∧ nbits p.2 18 0 + 1 ≤ 524288) ∧
      (p.1 = 5 → nbits p.2 7 0 < 240 ∧ p.2 / 2 ^ 34 = 0 ∧ nbits p.2 33 21 = 1 ∧ nbits p.2 20 9 + 1 ≤ 4096) ∧ leNat (body.take 8) = p.2 ∧ 8 + 8 * 1 ≤ body.length ∧
      ¬ 1 ≤ nbits (leNat ((leBytes 16 0).take 8)) 36 24 ∧ ¬ 1 ≤ nbits (leNat ((leBytes 16 0).take 8)) 38 19 ∧ ¬ 1 ≤ nbits (leNat ((leBytes 16 0).take 8)) 33 21) ∧
    (let s0 := live []; 1919 ∉ s0.aon.retained ∧ 1919 ∈ ({ s0 with aon := { s0.aon with retained := [1919] } }).aon.retained) := by decide +kernel

/-- The loader at a HARDBLK record of two words that end their store, in sector 239. -/
def atHardBlock (kind word user pend : Nat) (full busy : Bool) (port : Option (Nat × Nat × Option Bool)) : State :=
  withSeg 2 (leBytes 24 (239 + kind * 2 ^ 8 + (if kind = 0 then 190 else 16382) * 2 ^ 16 + 2 * 2 ^ 30))
    { Loader.reset with full := full, busy := busy, port := port, word := word }
    [(Reg.TIME_STATUS_USER, user), (Reg.SEC_HB_STAT_ACC_BUSY 239, pend), (Reg.SEC_MT_STAT_BUSY 239, pend)]

theorem witness_StreamRecordsHardBlock :
    hardDesc [] = none ∧
    (∀ kind ∈ [(0 : Nat), 1], ∀ full : Bool, ∀ user ∈ [(0 : Nat), 1], ∀ pend ∈ [(0 : Nat), 1],
      let s := atHardBlock kind 0 user pend full false none
      s.alive = true ∧ tlrClock s = true ∧ (s.ld.seg.map (fun x => x.1)) = some 2 ∧ (s.ld.seg.bind (fun x => hardDesc x.2)) = some (239, kind, if kind = 0 then 190 else 16382, 2) ∧ s.ld.full = full ∧
        s.ld.secs = [] ∧ s.ld.busy = false ∧ s.flag (Reg.SEC_HB_STAT_ACC_BUSY 239) = (pend == 1) ∧ s.flag (Reg.SEC_MT_STAT_BUSY 239) = (pend == 1) ∧
        s.user = (user == 1) ∧ s.clrOpen = false ∧ ldOut s ≤ 61) ∧
    (∀ kind ∈ [(0 : Nat), 1], ∀ full : Bool, ∀ word ∈ [(0 : Nat), 1], ∀ port ∈ [none, some (0, 239, none), some (0, 239, some false), some (0, 239, some true)],
        let s := atHardBlock kind word 0 0 full true port
        s.alive = true ∧ tlrClock s = true ∧ s.ld.full = full ∧ s.ld.busy = true ∧ s.ld.port = port ∧ s.ld.word = word) := by decide +kernel

theorem witness_StreamRecordsKeysAndRegisters :
    (∀ e ∈ [(0 : Nat), 63], ∀ used ∈ [(0 : Nat), 1],
      let body := leBytes 48 e
      let s := withSeg 6 body Loader.reset [(Reg.VLT_STAT_ROOT_OK, 0), (Reg.VLT_WCTL_EN 15, used), (Reg.VLT_WCTL_MODE 15, 1), (Reg.VLT_WCTL_KEY 15, 63)]
      s.alive = true ∧ tlrClock s = true ∧ s.ld.seg = some (6, body) ∧ nbits (leNat (body.take 8)) 5 0 = e ∧ leNat (body.take 8) / 64 = 0 ∧ body.length = 48 ∧ ownerKey s = none ∧
      keyInUse s 63 = (used == 1)) ∧
    (∀ busy : Bool, let body := leBytes 8 (0x5EFFFC + 5 * 2 ^ 32)
      let s := withSeg 7 body { Loader.reset with busy := busy } []
      s.alive = true ∧ tlrClock s = true ∧ s.ld.seg = some (7, body) ∧ leNat (body.take 8) % 4 = 0 ∧ nbits (leNat (body.take 8)) 31 24 = 0 ∧ 8 ≤ body.length ∧ s.ld.busy = busy ∧ ldOut s = 0) := by
  decide +kernel

/-- A block of plane 7 of sector 239 with the configuration word that drives its first vertical link given. -/
def frameBody (x : Nat) : List Nat :=
  leBytes 8 (11 + 11 * 2 ^ 4 + 7 * 2 ^ 8 + 11 * 2 ^ 11 + 9 * 2 ^ 15 + 2 ^ 19 + 2 ^ 20) ++ List.replicate 564 0 ++ [x] ++ List.replicate 1995 0

theorem witness_StreamRecordsFrames :
    framesDesc [] = none ∧ framesDesc (frameBody 0) = some (276479, 1) ∧ framesDesc (frameBody 1) = some (276479, 1) ∧
    (∀ secs ∈ [[], [(239 : Nat)]], let s := withSeg 1 (frameBody 0) { Loader.reset with secs := secs, planes := [7] } []
      s.alive = true ∧ tlrClock s = true ∧ s.ld.seg = some (1, frameBody 0) ∧ s.ld.full = false ∧ s.ld.secs = secs ∧ 276479 / 1152 = 239 ∧ 276479 % 1152 / 144 = 7) ∧
    vlinkClash (live []) 276479 (blockWords (frameBody 1) 0) = false ∧
    vlinkClash { live [] with cfgw := [(320 * (119 * 1152 + 1151) + 70, cwEncode (2 ^ 32))] } 276479 (blockWords (frameBody 1) 0) = true := by decide +kernel

theorem witness_StreamRecordsEnd :
    let hdr := List.replicate 112 0
    let body := sha384 hdr
    (∀ got ∈ [[], (List.range 144).map (fun i => (239 * 1152 + 7 * 144 + i, true))], ∀ full : Bool,
      let s := withSeg 15 body { Loader.reset with hdr := hdr, pos := 128, full := full, src := 3, secs := [239], planes := [7], got := got } []
      s.alive = true ∧ tlrClock s = true ∧ s.ld.seg = some (15, body) ∧ ldOut s = 0 ∧ s.ld.secs.Nodup ∧ s.ld.pos ≥ 128 + s.ld.len ∧ s.ld.full = full ∧ s.ld.hdr.take 112 ++ s.ld.seen = hdr ∧ s.scrub = [] ∧
      (∀ b ∈ regionBlocks s.ld, tget (fun _ => false) s.ld.got b = !got.isEmpty) ∧ (239 * 1152 + 7 * 144) ∈ regionBlocks s.ld) ∧
    sha384 hdr = body ∧ body ≠ [] := by decide +kernel
/-- Steward core 3 before the instruction `w` in an uncached halfword, with x2 given and the line of 0x3FFFFFFC0 in its data cache in state `st`. -/
def coreAt (w x2 st : Nat) (c : Core) (fs : List (Field × Nat)) : State :=
  { live fs with cores := [(3, { c with on := true, pc := 0x403BFFFF8, x := [(2, BitVec.ofNat 64 x2), (3, 5)]
                                        ubuf := [(0x403BFFFF8, w % 65536), (0x403BFFFFA, w / 65536)]
                                        dline := [(511, (0xFFFFFFF, st, 0))], dword := [(4095, cwEncode 7)] })] }

/-- The core fetches an instruction without any effect. -/
def fetched (s : State) (i : Rv) : Bool := decide ((coreFetch s 3).1 = s) && decide ((coreFetch s 3).2 = some (i, 4))

theorem witness_StewardInstructions :
    (∀ p ∈ [CoreWait.fault 5 0x403C00000, .wfi, .none], ∀ mie ∈ [(0 : Nat), 8], ∀ tcmp ∈ [(0 : Nat), 1],
      let s := coreAt 0x10500073 0 3 { Core.reset with wait := p, csr := [(0x300, BitVec.ofNat 64 mie), (0x304, 128)] } [(wholeReg (Reg.EVT_TCMP_LO 3), tcmp), (wholeReg (Reg.EVT_TCMP_HI 3), 0)]
      coreRuns s 3 = true ∧ (s.core 3).wait = p ∧ (coreInts s 3 = 0 ↔ tcmp = 1) ∧
      coreInterrupt s 3 = (if p = .none ∧ mie = 8 ∧ tcmp = 0 then some 7 else none)) ∧
    (∀ p ∈ [((0x00013083 : Nat), Rv.load 1 2 0 8 true), (0x00113023, .store 2 1 0 8), (0x100130AF, .lr 1 2 8), (0x183130AF, .sc 1 2 3 8), (0x003130AF, .amo .add 1 2 3 8)],
      ∀ x2 ∈ [(0x3FFFFFFF8 : Nat), 0x3FFFFFFF9, 0x3FFFFFF80, 0x700000000], ∀ st ∈ [(1 : Nat), 3],
      let s := coreAt p.1 x2 st Core.reset []; let c := s.core 3
      coreRuns s 3 = true ∧ s.gateOpen 5 = true ∧ ((freeTags s 0x203 false).filter (fun t => t < 64)).length = 64 ∧ wbOpen c (x2 / 64) = false ∧
      c.wait = .none ∧ coreInterrupt s 3 = none ∧ fetched s p.2 = true ∧ c.rx 2 = x2 ∧ (x2 % 8 = 0 ↔ x2 ≠ 0x3FFFFFFF9) ∧
      cacheable x2 = (x2 != 0x700000000) ∧ (x2 = 0x3FFFFFFF8 → dSlot c (x2 / 64) = some 511 ∧ dState c 511 = st ∧ cwDecode (dWordAt c 511 (x2 % 64 / 8)) = .clean 7) ∧
      (x2 = 0x3FFFFFF80 → dSlot c (x2 / 64) = none) ∧ regionOf 0x700000000 = .regs ∧ c.resv = none) ∧
    (∀ p ∈ [((0x340110F3 : Nat), Rv.csr 1 1 2 0x340), (0xB00110F3, .csr 1 1 2 0xB00), (0x73, .ecall), (0x00100073, .ebreak), (0xFFFFFFFF, .illegal), (0x30200073, .mret), (0x10500073, .wfi),
        (0x0000100F, .fenceI), (0x0000000F, .fence false), (0x0001200F, .cbo 0 2), (0x0011200F, .cbo 1 2), (0x0021200F, .cbo 2 2)],
      ∀ wb ∈ [[], [((0 : Nat), (0 : Nat))]], let s := coreAt p.1 0x3FFFFFFF8 3 { Core.reset with wb := wb } []
      coreRuns s 3 = true ∧ s.gateOpen 5 = true ∧ (s.core 3).wait = .none ∧ coreInterrupt s 3 = none ∧ fetched s p.2 = true ∧ (s.core 3).wb = wb ∧ postedStores s 3 = false ∧
      (s.core 3).rx 2 = 0x3FFFFFFF8) ∧
    (let s := coreAt 0x00100093 0 3 { Core.reset with resv := some 0xFFFFFFF } []
     fetched s (.opImm .add 1 0 1 false) = true ∧ (rvPlain 64 (.opImm .add 1 0 1 false) 4 (s.core 3).pc (s.core 3).rx).isSome = true ∧
     (s.core 3).resv = some 0xFFFFFFF) ∧
    (let s := coreAt 0x00013083 0x3FFFFFF80 3 { Core.reset with wb := [(0, 0x3FFFFFF80 / 64)] } []; wbOpen (s.core 3) (0x3FFFFFF80 / 64) = true) := by decide +kernel

/-- A core at a duty of 1/16, in the VCO cycle given. -/
def throttled (v : Nat) : State :=
  let s := coreAt 0x00100093 0 3 Core.reset [(Reg.THM_STAT_DUTY, 1)]
  { s with time := { s.time with vco := v } }

/-- Of two neighbouring cycles a duty of 1/16 closes one at least, wherever its pattern stands. -/
theorem witness_StewardGateCloses :
    ∃ v, coreRuns (throttled v) 3 = true ∧ ((throttled v).core 3).wait = .none ∧ coreInterrupt (throttled v) 3 = none ∧ (throttled v).gateOpen 5 = false := by
  have duty : ∀ v, (throttled v).getF Reg.THM_STAT_DUTY = 1 := fun _ => by
    change (throttled 0).getF Reg.THM_STAT_DUTY = 1
    decide +kernel
  have gate : ∀ v, (throttled v).gateOpen 5 = decide ((v / 5 + Config.gatePhase) % 16 = 15) := fun v => by
    have hv : (throttled v).time.vco = v := rfl
    simp only [State.gateOpen, dutyOpen, duty, hv]
    by_cases h : (v / 5 + Config.gatePhase) % 16 = 15
    · simp [h]
    · simp [h]; omega
  by_cases h : Config.gatePhase % 16 = 15
  · exact ⟨5, by decide +kernel, by decide +kernel, by decide +kernel, by rw [gate]; simp; omega⟩
  · exact ⟨0, by decide +kernel, by decide +kernel, by decide +kernel, by rw [gate]; simp; omega⟩

/-- A snoop flit ejected at a router. -/
def snooped (r f : Nat) (hub : List HubReq) (cores : Tab Core) : State :=
  { live [] with netq := [(queueKey r 3 7 0, [.snp f 0])], hub := hub, cores := cores }

/-- A request that the hub holds. -/
def hubReq (f left : Nat) (fwd : Bool) : HubReq := { flit := f, fwd := fwd, left := left, shared := false, granted := false }

theorem witness_SnoopProtocol :
    (∀ type ∈ List.range 16, ∀ line ∈ [(0 : Nat), 0xFFFFFFF, 0x6003FFFC0 / 64], let f := snpFlit type 3 0 line 63 1 0
      let s := snooped hubRouter f [] []
      s.nocRuns = true ∧ s.queue hubRouter 3 7 0 = [.snp f 0] ∧ f % 16 = type ∧ snpLine f = line) ∧
    (let f := snpFlit 1 3 0 5 63 0 0
     ∀ p ∈ [([hubReq f 3 true], true), ([hubReq f 1 true], true), ([hubReq f 0 false], false)],
      (∃ h ∈ p.1, snpLine h.flit = snpLine f ∧ h.fwd = p.2) ∧
      (p.1.find? (fun h => h.fwd && !h.granted && h.left != 0 && snpLine h.flit == 5 && snpCore h.flit == snpFlit 8 3 0 5 63 0 0 / 2 ^ 4 % 4 &&
        h.flit / 2 ^ 36 % 64 == snpFlit 8 3 0 5 63 0 0 / 2 ^ 36 % 64)).isSome = p.2 ∧
      p.1.find? (fun h => h.fwd && !h.granted && h.left != 0 && h.flit / 2 ^ 36 % 64 == snpFlit 8 3 0 5 62 0 0 / 2 ^ 36 % 64) = none ∧
      (p.1.filter (fun h => !(h.fwd && snpLine h.flit == 5 && h.flit / 2 ^ 4 % 4 == snpFlit 10 3 0 5 0 0 0 / 2 ^ 4 % 4))).isEmpty = p.2 ∧
      (p.1.find? (fun h => h.fwd && !h.granted && snpCore h.flit == 3)).isSome = p.2) ∧
    (∀ type ∈ [(1 : Nat), 2, 3, 4, 5, 6], ∀ st ∈ [(0 : Nat), 1, 2, 3], ∀ bad : Bool,
      let c := { Core.reset with dline := [(511, (0xFFFFFFF, st, 0))], dword := if bad then [(4095, 7)] else [], resv := some 0xFFFFFFF }
      let f := snpFlit type 0 1 0xFFFFFFF 63 0 0
      let s := snooped (initiatorRouter 0x203) f [] [(3, c)]
      s.nocRuns = true ∧ s.queue (initiatorRouter 0x203) 3 7 0 = [.snp f 0] ∧ f.testBit 6 = true ∧ f % 16 = type ∧ (s.core 3).acks = [] ∧
      wbOpen (s.core 3) (snpLine f) = false ∧ dSlot (s.core 3) (snpLine f) = (if st = 0 then none else some 511) ∧ dState (s.core 3) 511 = st ∧
      dLine (s.core 3) 511 = (if bad then none else some 0) ∧ dSlot (dSet (s.core 3) 511 (snpLine f) 0 0) (snpLine f) = none) ∧
    (∀ en ∈ [(0 : Nat), 1], let s := { live [(Reg.NOC_TMO_EN, en)] with hub := [hubReq (snpFlit 1 3 0 5 63 0 0) 1 true] }
      s.nocRuns = true ∧ s.flag Reg.NOC_TMO_EN = (en == 1) ∧ (s.hub.find? (fun h => h.fwd && !h.granted && snpCore h.flit == 3)).isSome = true) ∧
    (∀ kind ∈ [(1 : Nat), 2, 3, 4, 5, 6, 7, 8], ∀ st ∈ [(0 : Nat), 1, 3], ∀ err ∈ [(0 : Nat), 1],
      let c := { Core.reset with wait := .coh kind 0xFFFFFFF 0x3FFFFFFF8 1, snp := some 63, dword := [(4095, 7)], dline := [(511, (0xFFFFFFF, st, 0))] }
      let f := snpFlit 9 3 0 0xFFFFFFF 63 1 err
      let s := snooped (initiatorRouter 0x203) f [] [(3, c)]
      (s.core 3).wait = .coh kind (snpLine f) 0x3FFFFFFF8 1 ∧ f % 16 = 9 ∧ f.testBit 43 = (err == 1) ∧ f.testBit 42 = true ∧
      dSlot (s.core 3) (snpLine f) = (if st = 0 then none else some 511) ∧ (st = 3 → dState (s.core 3) 511 = 3 ∧ dLine (s.core 3) 511 = none) ∧
      wbOpen (s.core 3) (snpLine f) = false) := by decide +kernel

theorem witness_EventsAndWatchdog :
    (∀ pend ∈ [(0 : Nat), 1], let s := { live [(pendBit 287, pend)] with raised := [287] }
      s.raised = [287] ∧ s.alive = true ∧ s.flag (pendBit 287) = (pend == 1)) ∧
    (let s := live [(pendBit 0, 1), (pendBit 287, 1), (Reg.EVT_CFG_EN 0, 1), (Reg.EVT_CFG_EN 287, 1), (Reg.EVT_CFG_MASK 0, 8), (Reg.EVT_CFG_MASK 287, 8),
       (Reg.EVT_CFG_PRIO 0, 1), (Reg.EVT_CFG_PRIO 287, 1), (Reg.EVT_THRESH_THRESH 3, 0)]
     let cand := fun (s : State) (e : Nat) => s.flag (pendBit e) && s.flag (Reg.EVT_CFG_EN e) && (s.getF (Reg.EVT_CFG_MASK e)).testBit 3 &&
       decide (s.getF (Reg.EVT_THRESH_THRESH 3) < s.getF (Reg.EVT_CFG_PRIO e))
     s.alive = true ∧ tget (fun _ => 287) s.evtPtr 3 = 287 ∧ (List.range 288).filter (cand s) = [0, 287] ∧ (0 + 288 - (287 + 1)) % 288 ≤ (287 + 288 - (287 + 1)) % 288 ∧
     (List.range 288).filter (cand (live [])) = []) ∧
    (∀ st ∈ [(0 : Nat), 2], ∀ en ∈ [(0 : Nat), 1], ∀ stage ∈ [(0 : Nat), 1],
      let s := live [(Reg.WDT_LOCK_STATE, st), (Reg.WDT_LOCK_OWNER, 1023), (Reg.WDT_CTRL_EN, en), (Reg.WDT_STAT_STAGE, stage), (Reg.WDT_STAT_COUNT, 5)]
      s.alive = true ∧ s.getF Reg.WDT_LOCK_STATE = st ∧ s.getF Reg.WDT_LOCK_OWNER = 1023 ∧ s.flag Reg.WDT_CTRL_EN = (en == 1) ∧ wdtRuns s = (en == 1) ∧
      s.getF Reg.WDT_STAT_COUNT ≤ 5 ∧ s.getF Reg.WDT_STAT_STAGE = stage) := by decide +kernel
/-- The device with the state of its oscillators given. -/
def clocked (c : Clocks) (fs : List (Field × Nat)) : State := { live fs with clk := c }

theorem witness_ClockCommands :
    (∀ rco : Bool, ∀ xo : Bool, ∀ src ∈ [(0 : Nat), 1], let s := clocked { Clocks.reset with rco := rco, xo := xo } [(Reg.CLK_CTRL_AON_SRC, src)]
      s.phase ≠ .unpowered ∧ s.phase ≠ .keep ∧ s.phase ≠ .hold ∧ s.clk.rco = rco ∧ s.clk.xo = xo ∧ s.clk.xoStop = false ∧
      s.flag Reg.CLK_CTRL_AON_SRC = (src == 1) ∧ s.clk.hang = false) ∧
    (∀ step ∈ [(0 : Nat), 1, 2], let s0 := clocked Clocks.reset [(Reg.RST_STAGE_STEP, step)]; let s := { s0 with phase := .waiting }
      s.phase = .waiting ∧ s.getF Reg.RST_STAGE_STEP = step ∧ s.aon.resetLow = false ∧ s.aon.hot = false) ∧
    (let s := { clocked Clocks.reset [] with phase := .hold, wakes := 1 }; s.phase = .hold ∧ s.wakes ≠ 0 ∧ s.clk.rco = false) ∧
    (let s := clocked { Clocks.reset with rco := true, xo := true, aonXo := true } [(Reg.CLK_STAT_LOCK, 1), (Reg.CLK_STAT_SRC_NOW, 1)]
     let t := clocked { Clocks.reset with rco := true, xo := true } [(Reg.CLK_STAT_LOCK, 0), (Reg.CLK_STAT_SWITCHING, 0), (Reg.CLK_STAT_SRC_NOW, 1)]
     (∀ src : Fin 4, sourceWatched s src = true) ∧ sourceInUse s 0 = true ∧ sourceInUse s 1 = false ∧ sourceInUse s 2 = true ∧ sourceInUse s 3 = true ∧
     sourceWatched t 0 = true ∧ sourceInUse t 0 = false ∧ sourceWatched t 2 = true ∧ sourceInUse t 2 = false ∧ sourceWatched t 3 = false ∧
     sourceWatched t 1 = true ∧ sourceInUse t 1 = true ∧ (∀ p ∈ [Phase.integrity, .bistHeld, .run],
       let u := { s with phase := p }; u.phase = p ∧ ∀ src : Fin 4, sourceWatched u src = true ∧ sourceInUse u src = (src != 1))) := by decide +kernel

theorem witness_ClockCommandsSources :
    (∀ src : Fin 4, ∀ mref ∈ [none, some (40000 : Nat)], let c := { Clocks.reset with rco := true, xo := true, mref := mref }
     let s := clocked { c with tripped := [src.val] } []
     src.val ∈ s.clk.tripped ∧ src.val ∉ c.tripped ∧ s.clk.xo = true ∧ s.clk.rco = true ∧ s.clk.mref.isSome = (mref != none) ∧
     (src ≠ 3 → sourceWatched s src = false)) ∧
    (∀ khz ∈ [(19000 : Nat), 40000, 51000], ∀ hang : Bool, let s := clocked { Clocks.reset with mref := some 40000, hang := hang } []
     s.phase ≠ .unpowered ∧ 19000 ≤ khz ∧ khz ≤ 51000 ∧ s.clk.hang = hang ∧ s.clk.mref.any (fun f => mrefSame f khz) = (khz == 40000)) ∧
    (∀ c ∈ [(0 : Nat), 1, 4094, 4095], let s := clocked { Clocks.reset with rco := true, xo := true } [(Reg.CLK_TRIM_EN, 1), (Reg.CLK_TCODE_CODE, c)]
     s.phase ≠ .unpowered ∧ s.flag Reg.CLK_TRIM_EN = true ∧ s.getF Reg.CLK_TCODE_CODE = c ∧ s.clk.rco = true ∧ trimRefOk s = true ∧ 0 < trimNominal s) ∧
    trimRefOk (live []) = false ∧
    (live []).alive = true ∧ (live []).k = 0 ∧ (atSlot (live []) 1).k ≠ 0 := by decide +kernel

theorem witness_ClockCommandsRootSwitch :
    (∀ user ∈ [(0 : Nat), 1], ∀ slip ∈ [(0 : Nat), 1], let s0 := live [(Reg.TIME_STATUS_USER, user), (Reg.TIME_CTRL_SLIP_TAINT, slip)]
      let s := { s0 with ld := { s0.ld with released := true } }
      s.alive = true ∧ s.user = (user == 1) ∧ s.flag Reg.TIME_CTRL_SLIP_TAINT = (slip == 1) ∧ s.tickOver = false ∧
      rootAllowed s 0 120 = true ∧ rootAllowed s 0 119 = false ∧ rootAllowed s 3 150 = false) ∧
    (let s0 := clocked { Clocks.reset with rco := true, xo := true } [(Reg.CLK_STAT_MREF_SETTLED, 1), (Reg.CLK_MREF_FREQ, 31250), (Reg.CLK_STAT_SRC_NOW, 2)]
     let s := { s0 with ld := { s0.ld with released := true } }
     s.alive = true ∧ rootAllowed s 1 192 = true ∧ rootAllowed s 1 193 = false) ∧
    rootAllowed (live []) 0 120 = false := by
  cases h : Config.gradeTwo 0 <;> simp only [rootAllowed, cxLimit, h] <;> decide +kernel

theorem witness_ResetsAndStarts :
    (∀ p ∈ [Phase.unpowered, .waiting, .start, .bistHeld, .run, .hold, .keep, .off, .integrity], ∀ low : Bool, let s0 := live []
      let s := { s0 with phase := p, aon := { s0.aon with resetLow := low } }
      s.phase = p ∧ s.aon.resetLow = low ∧ s.fuses.burning = 0 ∧ s.resettable = (p == .waiting || p == .start || p == .run || p == .hold)) ∧
    (∀ rco : Bool, ∀ fail ∈ [(0 : Nat), 1], let s := clocked { Clocks.reset with rco := rco, tripped := [1] } [(Reg.CLK_FLAG_XO_FAIL, fail)]
      s.flag Reg.CLK_FLAG_XO_FAIL = (fail == 1) ∧ s.clk.rco = rco ∧ s.resettable = true ∧ s.aon.hot = false) ∧
    (∀ rco : Bool, let s := { clocked { Clocks.reset with rco := rco } [(Reg.RST_STAGE_STEP, 1)] with phase := .waiting }
      s.phase = .waiting ∧ s.getF Reg.RST_STAGE_STEP ≤ 1 ∧ s.aon.hot = false ∧ s.clk.rco = rco ∧ 1 ∉ s.clk.tripped ∧ s.aon.cause = some (1, 0)) ∧
    (∀ st ∈ [(0 : Nat), 2], let s := live [(Reg.RST_LOCK_STATE, st), (Reg.RST_LOCK_OWNER, 1023)]
      s.alive = true ∧ s.getF Reg.RST_LOCK_STATE = st ∧ s.getF Reg.RST_LOCK_OWNER = 1023) ∧
    ¬ ((10800 < 10800 ∨ 13200 < 10800) ∨ (3465 < 3135 ∨ 3465 < 3465)) ∧
    (∀ cause ∈ [(none : Option (Nat × Nat)), some (15, 15)], ∀ fail ∈ [(0 : Nat), 1], ∀ held : Nat × Bool,
      held ∈ [((19999 : Nat), false), (20000, true)] →
      let s0 := clocked { Clocks.reset with rco := true, xo := fail == 0 } [(Reg.CLK_FLAG_XO_FAIL, fail)]
      let s := { s0 with phase := .waiting, aon := { s0.aon with cause := cause, vinOk := true } }
      startReady s held.1 = held.2 ∧ s.aon.cause = cause ∧ s.flag Reg.CLK_FLAG_XO_FAIL = (fail == 1) ∧ startReady s0 20000 = false) ∧
    (let third := fun (bad : List (Nat × Nat × Nat)) => (badGroups bad).find? (fun g => decide (2 < (groupBad bad g).length))
     third [(1, 5, 0), (1, 5, 47)] = none ∧ third [(1, 5, 0), (1, 5, 1), (1, 5, 47)] = some (1, 5) ∧ badGroups [(1, 5, 0), (1, 5, 47)] = [(1, 5)]) ∧
    (∀ fence ∈ [(0 : Nat), 1], let s0 := live [(Reg.SEC_NAP_CTRL_FENCE 239, fence)]
      let s := { s0 with naps := [(239, { Nap.reset with fenced := fence == 1 })] }
      s.alive = true ∧ s.blk = none ∧ (s.napFenced 239 && napIdle s 239) = (fence == 1) ∧ ({ s with blk := some (239, 0) }).blk ≠ none) := by decide +kernel

/-- The device with every core in WFI, with an entry at the stage and to the mode given. -/
def entering (stage mode wakes : Nat) (fs : List (Field × Nat)) : State :=
  { live fs with cores := (List.range 4).map (fun i => (i, { Core.reset with on := true, wait := .wfi })), wakes := wakes,
                 aon := { Aon.reset with vb := true, entry := stage, mode := mode } }

/-- The same between two ticks. -/
def betweenTicks (s : State) : State := { s with time := { s.time with inTick := s.time.tickSlots } }

/-- What a block still to be stopped has in hand. -/
def refusals : List (State × Nat) :=
  let s := betweenTicks (entering 1 2 0 [])
  [({ s with ld := { s.ld with src := 1 } }, 5), (betweenTicks (entering 1 2 0 [(Reg.VLT_STAT_INIT_BUSY, 1)]), 6),
   ({ s with clk := { s.clk with ramp := some 0 }, time := { s.time with slots := 0 } }, 7)]

theorem witness_PowerStatesEntry :
    (∀ mode ∈ [(1 : Nat), 2, 3], ∀ stage ∈ [(0 : Nat), 1, 2], ∀ wakes ∈ [(0 : Nat), 7], ∀ within : Bool,
      let s0 := entering stage mode wakes [(Reg.PWR_MODE_MODE, mode)]; let s := if within then s0 else betweenTicks s0
      s.phase = .run ∧ s.dbgHalt = false ∧ s.getF Reg.PWR_MODE_MODE = mode ∧ allWfi s = true ∧ s.wakes = wakes ∧ s.aon.entry = stage ∧ entryNack s = none ∧
      s.user = false ∧ s.ramping = false ∧ (s.time.inTick < s.time.tickSlots ↔ within = true) ∧
      ((List.range 144).any (fun n => s.flag (Reg.LN_WAKE_SENDING n))) = false ∧ netEmpty s = true ∧ netEmpty { s with netq := [(0, [.snp 0 0])] } = false) ∧
    (let s := betweenTicks (entering 1 2 0 [(Reg.LN_WAKE_SENDING 143, 1)]); s.flag (Reg.LN_WAKE_SENDING 143) = true ∧ s.aon.mode = 2 ∧ s.aon.entry = 1) ∧
    (∀ p ∈ refusals, entryNack p.1 = some p.2 ∧ (if p.1.ramping then p.1.k = 0 else ¬ p.1.time.inTick < p.1.time.tickSlots) ∧
      ((List.range 144).any (fun n => p.1.flag (Reg.LN_WAKE_SENDING n))) = false) ∧
    (let s := entering 1 1 0 [userUp]; s.user = true ∧ s.aon.mode = 1) ∧
    (∀ q ∈ [[], [((0 : Nat), [Flit.snp 0 0])]], let s := { betweenTicks (entering 1 2 0 []) with netq := q }
     netEmpty (entryFence (allLanesReeval { s.raiseF Reg.PWR_STATUS_ENTERING with clockOn := false, aon := { s.aon with entry := 2, mode := 2 } })) = q.isEmpty) ∧
    allWfi (live [(Reg.PWR_MODE_MODE, 1)]) = false := by decide +kernel

theorem witness_PowerStates :
    (∀ p ∈ [Phase.hold, .keep, .off], let s := { live [(Reg.PWR_WAKE_TIMER_EN, 1), (Reg.PWR_WTIME_TICKS, 1)] with phase := p, wakes := 7 }
      s.phase = p ∧ s.flag Reg.PWR_WAKE_TIMER_EN = true ∧ s.getF Reg.PWR_WTIME_TICKS ≠ 0 ∧ s.aon.entryAt + s.getF Reg.PWR_WTIME_TICKS ≤ s.aon.ticks + 1 ∧
      s.wakes ≠ 0 ∧ s.wakes < 8) ∧
    (∀ user ∈ [(0 : Nat), 1], let s := live [(Reg.TIME_STATUS_USER, user), (Reg.TIME_STATUS_SYNC, 1), (Reg.PWR_VSET_VF_REQ, 40)]
      s.alive = true ∧ s.user = (user == 1) ∧ s.flag Reg.TIME_STATUS_SYNC = true ∧ s.aon.vb = true ∧
      (0x00280A3C#32).toNat % 256 = 60 ∧ (0x00280A3C#32).toNat / 2 ^ 8 % 256 = 10 ∧ (0x00280A3C#32).toNat / 2 ^ 16 % 256 = 40 ∧
      (60 : Nat) ≠ s.getF Reg.PWR_VSET_VF_REQ ∧ (0x003D0928#32).toNat % 256 = s.getF Reg.PWR_VSET_VF_REQ) ∧
    (∀ fault ∈ [(0 : Nat), 1], let s := live [(Reg.PWR_FLAG_REGFAULT, fault)]
      s.phase = .run ∧ s.alive = true ∧ s.flag Reg.PWR_FLAG_REGFAULT = (fault == 1) ∧ (s.hwReg Reg.PWR_FLAG_REGFAULT.reg).bits.getLsbD Reg.PWR_FLAG_REGFAULT.lo = false ∧
      s.aon.res.length = 4 ∧ s.aon.wakeFrom < 4) := by decide +kernel

theorem witness_ThermalProtection :
    (∀ hot ∈ [[], [(256 : Nat)]], ∀ p ∈ [Phase.run, .integrity, .bistHeld], let s0 := live []
      let s := { s0 with phase := p, th := { s0.th with hot := hot } }
      s.phase = p ∧ s.th.hot = hot ∧ s.th.rated = [] ∧ sensorPowered s 256 = true ∧ s.flag (Reg.THM_TEMP_BAD 256) = false ∧
      (tget (fun _ => []) s.th.hist 256).head? = none ∧ 4 * (110 + 64) ≤ ((List.replicate 272 (696 : BitVec 11))[256]?.getD 0).toNat ∧ s.aon.hot = false ∧
      (∀ m ∈ s.th.hot, m < 272) ∧ sensorPowered { s with phase := .keep } 0 = false) ∧
    (∀ ten ∈ [(0 : Nat), 1], ∀ n ∈ [(0 : Nat), 1, 16], ∀ rate : Bool, ∀ now ∈ [(159 : Nat), 160],
      let s0 := live [(Reg.THM_CTRL_TEN, ten), (Reg.THM_STAT_STEP, n), (Reg.THM_STAT_DUTY, 16), (Reg.THM_PLNOW_PL, 8)]
      let s := { s0 with th := { s0.th with rate := rate, now := now, bound := some 0 } }
      s.phase ≠ .unpowered ∧ s.getF Reg.THM_STAT_STEP = n ∧ s.flag Reg.THM_CTRL_TEN = (ten == 1) ∧ thmTrigger s = rate ∧ thmCooled s = !rate ∧
      (dwellDue s = if n = 0 then rate else now == 160) ∧ (n ≠ 0 → (0 + 16 * max 1 s.th.dwell ≤ s.th.now ↔ now = 160)) ∧
      1 ≤ s.getF Reg.THM_STAT_DUTY ∧ s.getF Reg.THM_STAT_DUTY ≤ 16 ∧ s.getF Reg.THM_PLNOW_PL = 8 ∧ s.th.deficit = false) ∧
    (∀ t ∈ [(328 : Nat), 339], let s := live [(Reg.THM_LIMIT_T_THR, 85), (Reg.THM_TEMP_VALID 0, 1), (Reg.THM_TEMP_TEMP 0, t)]
     thmTrigger s = false ∧ thmCooled s = false) ∧
    (∀ temp ∈ [(576 : Nat), 577], ∀ cool ∈ [(159999 : Nat), 160000],
      let s0 := live ((List.range 16).flatMap (fun i => [(Reg.THM_TEMP_VALID (240 + i), 1), (Reg.THM_TEMP_TEMP (240 + i), temp)]) ++
        (coolSensors (live [])).flatMap (fun i => [(Reg.THM_TEMP_VALID i, 1), (Reg.THM_TEMP_TEMP i, temp)]))
      let s := { s0 with phase := .waiting, aon := { s0.aon with hot := true }, th := { s0.th with cool := cool } }
      s.aon.hot = true ∧ s.phase = .waiting ∧ (160000 ≤ s.th.cool ↔ cool = 160000) ∧
      ((∀ n ∈ coolSensors s, s.flag (Reg.THM_TEMP_VALID n) = true ∧ s.getF (Reg.THM_TEMP_TEMP n) ≤ 4 * (80 + 64)) ↔ temp = 576)) := by
  decide +kernel
theorem witness_IdcodeCapture : servicePins (live []) = true ∧ tapAc (live []) = false := by decide +kernel

theorem witness_CurArmResetsTheDevice :
    ∀ p ∈ [Phase.run, .start, .hold, .waiting], let s := { live [] with phase := p }
      servicePins s = true ∧ (2#2).getLsbD 1 = true ∧ (3#2).getLsbD 0 = true ∧ s.phase = p := by decide +kernel

theorem witness_TapInstructions : servicePins (live []) = true ∧ tapAc (live []) = false ∧ (1#2).getLsbD 1 = false := by decide +kernel

theorem witness_HaltAndResume :
    (∀ p ∈ [Phase.run, .start, .hold], ∀ clk : Bool, ∀ stage ∈ [(0 : Nat), 2], let s0 := live []
      let s := { s0 with phase := p, clockOn := clk, aon := { s0.aon with entry := stage } }
      servicePins s = true ∧ tapAc s = false ∧ s.phase = p ∧ s.dbgHalt = false ∧ s.flag Reg.DBG_STAT_HALT_PEND = false ∧ s.clockOn = clk ∧
      s.aon.entry = stage ∧ s.dbg.resume = false) ∧
    (let s := live [(Reg.DBG_STAT_HALT_PEND, 1)]; servicePins s = true ∧ tapAc s = false ∧ s.dbgHalt = false ∧ s.flag Reg.DBG_STAT_HALT_PEND = true) ∧
    (∀ ramp ∈ [none, some (769 : Nat)], let s0 := live [(Reg.WDT_CTRL_EN, 0)]; let s := { s0 with dbgHalt := true, clk := { s0.clk with ramp := ramp } }
     servicePins s = true ∧ tapAc s = false ∧ s.dbgHalt = true ∧ s.user = false ∧ s.dbg.wait = none ∧ s.flag Reg.WDT_CTRL_EN = false ∧
     s.clk.ramp.isSome = (ramp != none)) := by decide +kernel

theorem witness_DebugAccessLinkTestAndPins :
    (∀ halt : Bool, ∀ busy ∈ [(0 : Nat), 1], let s := { live [(Reg.DBG_STAT_ACC_BUSY, busy)] with dbgHalt := halt }
      servicePins s = true ∧ tapAc s = false ∧ engineOn s = true ∧ s.flag Reg.DBG_STAT_ACC_BUSY = (busy == 1) ∧ s.nocRuns = (!halt) ∧ s.dbgHalt = halt) ∧
    engineOn State.reset = false ∧ directBlock 0x400000000 = false ∧
    directBlock (0x700000000 + Reg.DBG_STAT) = true ∧ Reg.DBG_STAT % 4 = 0 ∧ (regRow Reg.DBG_STAT).isSome = true ∧
    (let s := live []; i2cMine s (BitVec.ofNat 7 s.dbg.i2cAddr) = true ∧ i2cMine s (BitVec.ofNat 7 (s.dbg.i2cAddr + 1)) = false ∧ s.nocRuns = true ∧
     s.flag Reg.DBG_STAT_ACC_BUSY = false) ∧
    (∀ user ∈ [(0 : Nat), 1], let s := live [(Reg.TIME_STATUS_USER, user)]; s.alive = true ∧ s.rt = none ∧ s.user = (user == 1)) ∧
    (∀ repair : Bool, let e : RtTest := { pair := 119, repair := repair, start := some 0, saved := [] }; let s := atSlot { live [] with rt := some e } 200
      s.rt = some e ∧ e.start = some 0 ∧ 0 + 200 ≤ s.time.slots ∧ tget (fun _ => 0) s.spares (144 * 119 + 143) = 0 ∧
      tget (fun _ => false) s.vdead (vlinkKey (tileOf 119 11 11) 47) = false) ∧
    (let s0 := live []; let s := { s0 with gpio := { s0.gpio with edge := BitVec.ofNat 96 (2 ^ 95) } }
     s.gpio.edge.toNat / 2 ^ (24 * 3) % 2 ^ 24 ≠ 0 ∧ s.gpio.edge.toNat / 2 ^ (24 * 2) % 2 ^ 24 = 0) ∧
    (∀ i ∈ [(0 : Nat), 95], ∀ p ∈ [Phase.hold, .run], let s0 := live [(Reg.GPIO_CFG_WAKE_EN i, 1), (Reg.PWR_WAKE_GPIO_EN, 1)]
     let s := { s0 with phase := p, aon := { s0.aon with entry := if p = .run then 2 else 0, mode := 1 } }
     (s.phase = .hold ∨ (s.aon.entry ≠ 0 ∧ s.aon.mode = 1)) ∧ s.flag (Reg.GPIO_CFG_WAKE_EN i) = true ∧ pairOdd s i = false ∧ s.flag Reg.PWR_WAKE_GPIO_EN = true) := by decide +kernel

theorem witness_StepRunsFrontCommand :
    let s := { State.reset with pending := [.tapReset, .idcode] }; s.pending = .tapReset :: [.idcode] ∧ State.reset.pending = [] := by decide +kernel

/-- A step that runs, for the statements about every step and every command. -/
theorem witness_EveryStepKeepsInvariant :
    let s := { State.reset with pending := [.tapReset] }
    s.Inv ∧ step s = .next { State.reset with tapIr := 2 } ∧ exec .tapReset s = .next { s with tapIr := 2 } :=
  ⟨by unfold State.Inv; decide +kernel, rfl, rfl⟩
theorem witness_ReleaseRefetchAndFlash :
    (∀ st ∈ [(3 : Nat), 4], let s := { live [(Reg.CFG_STAT_STATE, st)] with phase := .start }
     s.phase = .start ∧ 3 ≤ s.getF Reg.CFG_STAT_STATE ∧ anyInit s = false ∧ s.ld.released = false) ∧
    (∀ released : Bool, ∀ hold ∈ [(0 : Nat), 1], let s0 := live [(Reg.CFG_CTRL_DONE_HOLD, hold)]; let s := { s0 with ld := { s0.ld with released := released } }
      s.alive = true ∧ s.ld.released = released ∧ s.ld.doneRel = false ∧ s.ld.doneCur = false ∧ s.flag Reg.CFG_CTRL_DONE_HOLD = (hold == 1)) ∧
    (∀ blocks ∈ [[], [(276479 : Nat)]], ∀ on : Bool, let s0 := live [(Reg.SCRB_SSTAT_STATE 239, 2)]
      let s := { s0 with ld := { s0.ld with flOn := on, rfxq := [276479], rfx := [{ addr := 0, key := [], index := 0, blocks := blocks }] }
                         scrub := [(239, { Scrub.reset with failed := [276479] })] }
      s.alive = true ∧ tlrClock s = true ∧ s.ld.flOn = on ∧ s.ld.seg = none ∧ s.ld.rfxq = [276479] ∧ 276479 < 276480 ∧ s.getF (Reg.SCRB_SSTAT_STATE 239) = 2 ∧
      (s.ld.rfx.find? (fun e => e.blocks.contains 276479)).isSome = (blocks != [])) ∧
    (∀ busy ∈ [(0 : Nat), 1], ∀ copy ∈ [(0 : Nat), 1], let s := live [(Reg.FL_STAT_BUSY, busy), (Reg.CFG_STAT_COPY, copy), (Reg.FL_ADDR_PAGE, 0x100000)]
      s.alive = true ∧ s.flag Reg.FL_STAT_BUSY = (busy == 1) ∧ s.getF Reg.FL_ADDR_PAGE = 0x100000 ∧ activeCopy s (0x100000 * 512) = (copy == 1) ∧
      activeCopy s (0x100000 / 512 * 0x40000) = (copy == 1)) ∧
    (∀ op ∈ [(0 : Nat), 1, 2], ∀ on : Bool, let s0 := live [(Reg.CFG_STAT_STATE, 3)]
      let s := { s0 with ld := { s0.ld with flCmd := some (op, 0x7FFFFF), flOn := on }, flash := [(64 * 0x7FFFFF, cwEncode 5)] }
      s.alive = true ∧ s.ld.flCmd = some (op, 0x7FFFFF) ∧ s.ld.flOn = on ∧ cwDecode (flashWord s (0x7FFFFF * 64)) = .clean 5 ∧
      flashWord s (0x7FFFFF * 64) ≠ erased ∧ flashWord s (0x7FFFFF * 64 + 1) = erased) := by decide +kernel

/-- The engine of sector 239 at a word of its sweep, the word given. -/
def sweeping (pos : Nat) (w : CodeWord) (x : Scrub) (loaded : Nat) : State :=
  { live [(Reg.CFG_STAT_STATE, 3)] with
      cfgw := cwPut [] (368640 * 239 + pos) w, sweepIdx := [(717, pos), (718, pos), (719, pos)], scrub := [(239, x)],
      loaded := [((368640 * 239 + pos) / 320, loaded)] }

theorem witness_ScrubEngineCycle :
    (∀ pos ∈ [(4 : Nat), 368632, 368636], ∀ p ∈ [((0 : CodeWord), Decoded.clean (0 : BitVec 64)), (3, .corrected 0), (7, .bad)], ∀ loaded ∈ [(0 : Nat), 7],
      let s := sweeping pos p.1 Scrub.reset loaded; let x := s.scrubOf 239
      scrubRuns s = true ∧ x.cycle ≠ some s.tlrCycle ∧ sweepAt s 239 = pos ∧ cwDecode (tget (fun _ => 0) s.cfgw (368640 * 239 + pos)) = p.2 ∧
      (∀ j ∈ [(1 : Nat), 2, 3], cwDecode (tget (fun _ => 0) s.cfgw (368640 * 239 + pos + j)) = .clean 0) ∧ x.skip = [] ∧
      s.planeState 239 ((368640 * 239 + pos) / 320 % 1152 / 144) ≠ 2 ∧ x.thr = 0 ∧ blockLoaded s ((368640 * 239 + pos) / 320) = (loaded == 7) ∧
      s.getF (Reg.SCRB_SSTAT_STATE 239) = 0 ∧ s.flag (Reg.SCRB_SSTAT_UNCORR 239) = false ∧
      (s.hwReg (Reg.SCRB_SSTAT 239)).bits.getLsbD (Reg.SCRB_SSTAT_UNCORR 239).lo = false ∧ x.pend = [] ∧ x.failed = []) ∧
    scrubRuns State.reset = false ∧ State.reset.slotRuns = false ∧
    (let s := live [(Reg.CFG_STAT_STATE, 1)]; scrubRuns s = false ∧ s.slotRuns = true ∧ tlrClock s = true) ∧ scrubEn { live [] with pstore := [(64 * 717, 0), (64 * 718, 0), (64 * 719, 0)] } 239 = false ∧
    ((sweeping 0 0 { Scrub.reset with cycle := some 0 } 0).scrubOf 239).cycle = some (sweeping 0 0 Scrub.reset 0).tlrCycle := by decide +kernel

end Sys2Proof.Tests
end

/-!
SUPPORT. The scope rules (00_scope.md): what the register commands of the steward do at a register that has no effect beyond its
access types (R4, R6, R14, R16), the step (R51), and the state after reset (R7).
-/

namespace Sys2Proof.Machine

variable (s : State)

/-! ### What changes register bits alone -/

theorem onlyBits_refl (fs : List Field) : OnlyBits fs s s := ⟨bitsBut_refl fs s, rfl⟩

theorem onlyBits_trans {fs : List Field} {s t u : State} (h : OnlyBits fs s t) (h2 : OnlyBits fs t u) : OnlyBits fs s u :=
  ⟨bitsBut_trans h.1 h2.1, (congrArg (fun x : State => { x with regs := s.regs, cyc := s.cyc }) h2.2).trans h.2⟩

/-- A state that is `s` but for its registers and its record of the slot changes no more than the register bits it changes. -/
theorem onlyBits_of_eq {fs : List Field} {s t : State} (hb : BitsBut fs s t) (e : t = { s with regs := t.regs, cyc := t.cyc }) :
    OnlyBits fs s t :=
  ⟨hb, congrArg (fun x : State => { x with regs := s.regs, cyc := s.cyc }) e⟩

theorem onlyBits_setReg (o : Nat) (v : Word32) : OnlyBits [wholeReg o] s (s.setReg o v) :=
  ⟨bitsBut_setReg (bitsBut_refl _ s) o v (List.mem_singleton.mpr rfl), rfl⟩

/-- An access that changes register bits alone and gives its answer: the same bits, and beside them the answer. -/
theorem onlyBits_answer {fs : List Field} {s t : State} (h : OnlyBits fs s t) (p : Response) :
    BitsBut fs s { t with resp := p } ∧ { t with resp := s.resp, regs := s.regs, cyc := s.cyc } = s :=
  ⟨bitsBut_of_regs h.1 rfl, congrArg (fun x : State => { x with resp := s.resp }) h.2⟩

/-! ### The record of the slot, as a write finds it -/

@[simp] theorem hwReg_keepOld (o x : Nat) : (s.keepOld o).hwReg x = s.hwReg x := by unfold State.keepOld; split <;> rfl

/-- The bits of a register that hardware has set in the present slot, which a W1C write of that slot leaves set. -/
def State.hwSet (o : Nat) : Word32 := if s.logsAt o then (s.hwReg o).bits else 0

@[simp] theorem hwSet_setReg (o x : Nat) (v : Word32) : (s.setReg o v).hwSet x = s.hwSet x := rfl

/-- The state in which a write of a register acts: a register that a boundary samples is first kept as it stands (R14). -/
def State.beforeWrite (o : Nat) : State := if sampledReg o then s.keepOld o else s

/-- What is kept stands in the record of the slot alone. -/
theorem beforeWrite_eq (o : Nat) : s.beforeWrite o = { s with cyc := (s.beforeWrite o).cyc } := by
  unfold State.beforeWrite
  split
  · exact keepOld_eq s o
  · rfl

@[simp] theorem logsAt_beforeWrite (o x : Nat) : (s.beforeWrite o).logsAt x = s.logsAt x := by rw [beforeWrite_eq]; rfl
@[simp] theorem reg_beforeWrite (o x : Nat) : (s.beforeWrite o).reg x = s.reg x := by rw [beforeWrite_eq]; rfl
@[simp] theorem hwReg_beforeWrite (o x : Nat) : (s.beforeWrite o).hwReg x = s.hwReg x := by
  unfold State.beforeWrite
  split
  · exact hwReg_keepOld s o x
  · rfl
@[simp] theorem hwSet_beforeWrite (o x : Nat) : (s.beforeWrite o).hwSet x = s.hwSet x := by simp [State.hwSet]

theorem onlyBits_beforeWrite (fs : List Field) (o : Nat) : OnlyBits fs s (s.beforeWrite o) :=
  ⟨fun x i _ => by rw [reg_beforeWrite],
    congrArg (fun t : State => { t with regs := s.regs, cyc := s.cyc }) (beforeWrite_eq s o)⟩

/-! ### W1C bits -/

/-- A W1C write with no finding to capture clears the bits that hardware has not set in the slot, and no other bit of the registers. -/
theorem regs_w1c (o : Nat) (m : Word32) (hc : s.logsAt o = true → (s.hwReg o).caps = []) :
    (s.w1c o m).regs = (s.setReg o (s.reg o &&& ~~~(m &&& ~~~s.hwSet o))).regs := by
  unfold State.w1c State.hwSet
  cases hl : s.logsAt o with
  | false => simp [HwReg.reset]
  | true =>
    simp only [if_true, hc hl, List.filter_nil, List.foldl_nil]
    split <;> rfl

theorem reg_w1c_self (o : Nat) (m : Word32) (hc : s.logsAt o = true → (s.hwReg o).caps = []) :
    (s.w1c o m).reg o = s.reg o &&& ~~~(m &&& ~~~s.hwSet o) := by
  rw [reg_of_regs (regs_w1c s o m hc), reg_setReg_self]

theorem onlyBits_w1c (o : Nat) (m : Word32) (hc : s.logsAt o = true → (s.hwReg o).caps = []) :
    OnlyBits [wholeReg o] s (s.w1c o m) :=
  onlyBits_of_eq (bitsBut_of_regs (onlyBits_setReg s o _).1 (regs_w1c s o m hc)) (w1c_eq s o m)

/-! ### RC fields -/

/-- What a read finds in RC fields is the count before those of the slot. -/
theorem rcValue_eq (o : Nat) (m : Word32) : s.rcValue o m =
    (s.reg o &&& ~~~m) ||| ((if s.logsAt o then (s.hwReg o).old.getD (s.reg o) else s.reg o) &&& m) := by
  unfold State.rcValue
  cases s.logsAt o with
  | false => simp only [Bool.false_eq_true, if_false, ← BitVec.and_or_distrib_left, BitVec.not_or_self, BitVec.and_allOnes]
  | true => rfl

/-- The counts that hardware has made in a register in the present slot. -/
def State.slotCounts (o : Nat) : Word32 := if s.logsAt o && (s.hwReg o).old.isSome then (s.hwReg o).inc else 0

/-- What a read leaves in RC fields is the counts of the slot. -/
theorem regs_rc (o : Nat) (m : Word32) : (s.rc o m).regs = (s.setReg o ((s.reg o &&& ~~~m) ||| (s.slotCounts o &&& m))).regs := by
  unfold State.rc State.slotCounts
  dsimp only
  split
  · rfl
  · simp

theorem reg_rc_self (o : Nat) (m : Word32) : (s.rc o m).reg o = (s.reg o &&& ~~~m) ||| (s.slotCounts o &&& m) := by
  rw [reg_of_regs (regs_rc s o m), reg_setReg_self]

theorem onlyBits_rc (o : Nat) (m : Word32) : OnlyBits [wholeReg o] s (s.rc o m) :=
  onlyBits_of_eq (bitsBut_of_regs (onlyBits_setReg s o _).1 (regs_rc s o m)) (rc_eq s o m)

/-! ### Writes and reads by access types -/

section
variable {s} {o : Nat} {row : RegRow} (hrow : regRow o = some row)
include hrow

/-- The three access types that take a write, one after another: RW, W1S, W1C. -/
theorem genericWrite_of_row (v : Word32) : genericWrite s o v =
    (s.setReg o (((s.reg o &&& ~~~accMask row.fields .rw) ||| (v &&& accMask row.fields .rw)) |||
      (v &&& accMask row.fields .w1s))).w1c o (v &&& accMask row.fields .w1c) := by
  unfold genericWrite; rw [hrow]

theorem genericRead_of_row (peek : Bool) : genericRead s o peek =
    (if peek then s else s.rc o (accMask row.fields .rc),
      s.rcValue o (accMask row.fields .rc) &&& ~~~accMask row.fields .wo) := by
  unfold genericRead; rw [hrow]

/-- Bit by bit: RW bits take the value, W1S bits written 1 are set, W1C bits written 1 clear but those that hardware has set. -/
theorem getLsbD_genericWrite (v : Word32) (hc : s.logsAt o = true → (s.hwReg o).caps = []) (i : Nat) :
    ((genericWrite s o v).reg o).getLsbD i =
      (((if (accMask row.fields .rw).getLsbD i then v.getLsbD i else (s.reg o).getLsbD i) ||
          (v.getLsbD i && (accMask row.fields .w1s).getLsbD i)) &&
        !(v.getLsbD i && (accMask row.fields .w1c).getLsbD i && !(s.hwSet o).getLsbD i)) := by
  rw [genericWrite_of_row hrow, reg_w1c_self (s.setReg o _) o _ hc, reg_setReg_self, hwSet_setReg]
  by_cases hi : i < 32
  · simp only [BitVec.getLsbD_and, BitVec.getLsbD_or, BitVec.getLsbD_not, hi, decide_true, Bool.true_and]
    cases (accMask row.fields .rw).getLsbD i <;> simp
  · simp [BitVec.getLsbD_of_ge _ i (Nat.le_of_not_lt hi)]

theorem onlyBits_genericWrite (v : Word32) (hc : s.logsAt o = true → (s.hwReg o).caps = []) :
    OnlyBits [wholeReg o] s (genericWrite s o v) := by
  rw [genericWrite_of_row hrow]
  exact onlyBits_trans (onlyBits_setReg s o _) (onlyBits_w1c (s.setReg o _) o _ hc)

theorem reg_genericRead (peek : Bool) : (genericRead s o peek).1.reg o =
    if peek then s.reg o else (s.reg o &&& ~~~accMask row.fields .rc) |||
      (s.slotCounts o &&& accMask row.fields .rc) := by
  rw [genericRead_of_row hrow]
  cases peek with
  | true => rfl
  | false => exact reg_rc_self s o _

theorem onlyBits_genericRead (peek : Bool) : OnlyBits [wholeReg o] s (genericRead s o peek).1 := by
  rw [genericRead_of_row hrow]
  cases peek with
  | true => exact onlyBits_refl s _
  | false => exact onlyBits_rc s o _

/-! ### The decoder: which offset answers how -/

/-- A register with no effect of its own is written by its access types; one that a boundary samples is kept for it first. -/
theorem regWrite_of_generic (v : Word32) (id : Nat)
    (hsp : specialWrite (s.beforeWrite o) o v id = none) :
    regWrite s o v id = (genericWrite (s.beforeWrite o) o v, 0) := by
  unfold State.beforeWrite at hsp
  unfold regWrite State.beforeWrite; rw [hrow]; dsimp only; rw [hsp]

/-- A register with no effect of its own is read by its access types. -/
theorem regRead_of_generic (peek : Bool) (id : Nat) (hsp : specialRead s o peek id = none) :
    regRead s o peek id = ((genericRead s o peek).1, 0, (genericRead s o peek).2) := by
  unfold regRead; rw [hrow]; dsimp only; rw [hsp]

end

section
variable {o : Nat}

theorem regWrite_of_no_row (hrow : regRow o = none) (v : Word32) (id : Nat) : regWrite s o v id = (s, 2) := by
  unfold regWrite; rw [hrow]

theorem regRead_of_no_row (hrow : regRow o = none) (peek : Bool) (id : Nat) : regRead s o peek id = (s, 2, 0) := by
  unfold regRead; rw [hrow]

end

/-! ### The register commands -/

section
variable {s} {o : Nat} (ha : s.hostAlive = true)
include ha

theorem exec_registerWrite_aligned (v : Word32) (h4 : o % 4 = 0) : exec (.registerWrite o v) s =
    .next { (regWrite s o v hostId).1 with resp := ⟨(regWrite s o v hostId).2, 0⟩ } := by
  rw [exec_registerWrite]; unfold execRegisterWrite; rw [if_pos ha, if_pos h4]

theorem exec_readClear_aligned (peek : Bool) (h4 : o % 4 = 0) : exec (.readClear o peek) s =
    .next { (regRead s o peek hostId).1 with
      resp := ⟨(regRead s o peek hostId).2.1, (regRead s o peek hostId).2.2.setWidth 64⟩ } := by
  rw [exec_readClear]; unfold execReadClear; rw [if_pos ha, if_pos h4]

theorem exec_registerWrite_misaligned (v : Word32) (h4 : o % 4 ≠ 0) :
    exec (.registerWrite o v) s = .next { s with resp := ⟨misalignedStatus o, 0⟩ } := by
  rw [exec_registerWrite]; unfold execRegisterWrite; rw [if_pos ha, if_neg h4]

theorem exec_readClear_misaligned (peek : Bool) (h4 : o % 4 ≠ 0) :
    exec (.readClear o peek) s = .next { s with resp := ⟨misalignedStatus o, 0⟩ } := by
  rw [exec_readClear]; unfold execReadClear; rw [if_pos ha, if_neg h4]; rfl

/-- A register with no effect of its own is written by its access types, with OKAY. -/
theorem exec_registerWrite_generic {row : RegRow} (v : Word32) (h4 : o % 4 = 0) (hrow : regRow o = some row)
    (hsp : specialWrite (s.beforeWrite o) o v hostId = none) :
    exec (.registerWrite o v) s = .next { genericWrite (s.beforeWrite o) o v with resp := ⟨0, 0⟩ } := by
  rw [exec_registerWrite_aligned ha v h4, regWrite_of_generic hrow v _ hsp]

/-- A register with no effect of its own is read by its access types, with OKAY. -/
theorem exec_readClear_generic {row : RegRow} (peek : Bool) (h4 : o % 4 = 0) (hrow : regRow o = some row)
    (hsp : specialRead s o peek hostId = none) : exec (.readClear o peek) s =
      .next { (genericRead s o peek).1 with resp := ⟨0, (genericRead s o peek).2.setWidth 64⟩ } := by
  rw [exec_readClear_aligned ha peek h4, regRead_of_generic hrow peek _ hsp]

end

/-! ### The step and the state after reset -/

variable {s} in
theorem step_of_cons {c : Instr} {rest : List Instr} (h : s.pending = c :: rest) :
    step s = exec c { s with pending := rest } := by
  unfold step; rw [h]

variable {s} in
theorem step_of_nil (h : s.pending = []) : step s = .next s := by
  unfold step; rw [h]

/-- After reset no register holds a value of its own, so each reads its reset value. -/
theorem reg_reset (o : Nat) : State.reset.reg o = regReset o := rfl

/-! ### The obligations of the family -/

/-- Settles O19: a gap answers DECERR, a misaligned access its status, and a register without further effects acts by its access
types. -/
theorem registerAccess : Obligations.RegisterAccess := by
  unfold Obligations.RegisterAccess
  intro s o v peek ha
  refine ⟨fun h4 hrow => ?_, fun h4 => ?_, fun row h4 hrow hsp hc => ?_, fun row h4 hrow hsp => ?_⟩
  · rw [exec_registerWrite_aligned ha v h4, exec_readClear_aligned ha peek h4, regWrite_of_no_row s hrow,
      regRead_of_no_row s hrow]
    exact ⟨rfl, rfl⟩
  · exact ⟨exec_registerWrite_misaligned ha v h4, exec_readClear_misaligned ha peek h4⟩
  · have hc0 : (s.beforeWrite o).logsAt o = true → ((s.beforeWrite o).hwReg o).caps = [] := by simpa using hc
    have hbit := getLsbD_genericWrite hrow v hc0
    simp only [reg_beforeWrite, hwSet_beforeWrite] at hbit
    exact ⟨_, exec_registerWrite_generic ha v h4 hrow hsp, rfl, hbit,
      onlyBits_answer (onlyBits_trans (onlyBits_beforeWrite s _ o) (onlyBits_genericWrite hrow v hc0)) _⟩
  · intro rc
    refine ⟨_, exec_readClear_generic ha peek h4 hrow hsp, ?_, reg_genericRead hrow peek,
      onlyBits_answer (onlyBits_genericRead hrow peek) _⟩
    rw [genericRead_of_row hrow, rcValue_eq]

/-- Settles O53: the step by the two forms of its queue. -/
theorem stepRunsFrontCommand : Obligations.StepRunsFrontCommand := by
  unfold Obligations.StepRunsFrontCommand
  exact fun s => ⟨fun _ _ h => step_of_cons h, step_of_nil⟩

/-- Settles O54: the state after reset lists no register and holds the values that reset gives its parts. -/
theorem resetState : Obligations.ResetState := by
  unfold Obligations.ResetState
  exact ⟨rfl, reg_reset, rfl, rfl, rfl, rfl, rfl, rfl, rfl⟩

/-- Settles O55: no command waits after reset, and an erased flash lists no word. -/
theorem resetMeetsInvariant : Obligations.ResetMeetsInvariant := by
  unfold Obligations.ResetMeetsInvariant
  exact ⟨fun _ hc => absurd hc List.not_mem_nil, twf_nil _⟩

end Sys2Proof.Machine

/-!
SUPPORT. What every command answers (01_architecture.md): a next state, with the queue of commands, flash and the burned fuses as they
were, but for the commands that program flash or end a burn of fuses.
-/

namespace Sys2Proof.Machine

/-! ### Answering a next state that keeps a view -/

/-- A command that answers a next state, with what `view` shows of the state as it was. -/
def Answers {α : Type} (view : State → α) (s : State) (r : Res) : Prop := ∃ t, r = .next t ∧ view t = view s

section
variable {α : Type} {view : State → α} {s t u : State}

@[simp] theorem answers_next_iff : Answers view s (.next t) ↔ view t = view s := by simp [Answers]

theorem answers_ok (h : view t = view s) : Answers view s (ok t) := ⟨t, rfl, h⟩

theorem answers_ite {c : Prop} [Decidable c] {a b : Res} (ha : Answers view s a) (hb : Answers view s b) :
    Answers view s (if c then a else b) := by split <;> assumption

theorem answers_choice {c : Prop} [Decidable c] (ht : view t = view s) (hu : view u = view s) :
    Answers view s (if c then ok t else ok u) := answers_ite (answers_ok ht) (answers_ok hu)

theorem answers_guard {c : Prop} [Decidable c] (h : view t = view s) : Answers view s (if c then ok t else ok s) :=
  answers_choice h rfl

theorem answers_unless {c : Prop} [Decidable c] {r : Res} (h : Answers view s r) : Answers view s (if c then ok s else r) :=
  answers_ite (answers_ok rfl) h

theorem answers_when {c : Prop} [Decidable c] {r : Res} (h : Answers view s r) : Answers view s (if c then r else ok s) :=
  answers_ite h (answers_ok rfl)

theorem answers_okIf {c : Bool} (h : view t = view s) : Answers view s (okIf c s t) := answers_guard h

/-- A shared form of which a law says what it keeps needs only to be shown to answer. -/
theorem answers_of_resKept {r : Res} (hn : ∃ t, r = .next t) (hk : ResKept s r) : Answers State.kept s r := by
  obtain ⟨t, rfl⟩ := hn
  exact ⟨t, rfl, hk t rfl⟩

end

theorem pending_of_kept {s t : State} (h : t.kept = s.kept) : t.pending = s.pending := congrArg Prod.fst h

theorem answers_pending_of_kept {s : State} {r : Res} (h : Answers State.kept s r) : Answers State.pending s r := by
  obtain ⟨t, ht, hk⟩ := h
  exact ⟨t, ht, pending_of_kept hk⟩

section
variable (s : State)

/-! ### The rows that many commands share -/

theorem fabricTake_answers (sec i op) : Answers State.kept s (fabricTake s sec i op) := by
  unfold fabricTake
  split
  · exact answers_ok rfl
  · exact answers_unless (answers_ite (answers_choice (by simp) (by simp)) (answers_choice rfl (by simp)))

theorem macTake_answers (sec m kind) : Answers State.kept s (macTake s sec m kind) := by
  refine answers_when ?_
  split
  · exact answers_guard (by simp)
  · exact answers_ok rfl

theorem takeRequest_answers (r net vc mine) : Answers State.kept s (takeRequest s r net vc mine) := by
  refine answers_of_resKept ?_ (takeRequest_kept s r net vc mine)
  unfold takeRequest
  (repeat' split) <;> exact ⟨_, rfl⟩

/-- A row of teller instructions, where what the instruction does keeps the view. -/
theorem tlrRow_answers (sec mine run fail) (h : ∀ t i l, (run t i l).kept = t.kept) :
    Answers State.kept s (tlrRow s sec mine run fail) := by
  refine answers_of_resKept ?_ (tlrRow_kept s sec mine run fail h)
  unfold tlrRow okIf
  (repeat' split) <;> exact ⟨_, rfl⟩

theorem tRow_answers (t mine) : Answers State.kept s (tRow s t mine) := by
  refine tlrRow_answers s _ _ _ _ (fun _ i _ => ?_)
  split
  · split
    · simp
    · rfl
  · rfl

/-- A row of core instructions, where what the instruction does keeps the view. -/
theorem coreRow_answers (i mine run) (h : ∀ t j l, (run t j l).kept = t.kept) : Answers State.kept s (coreRow s i mine run) := by
  refine answers_of_resKept ?_ (coreRow_kept s i mine run h)
  unfold coreRow
  (repeat' split) <;> exact ⟨_, rfl⟩

theorem cboRow_answers (i kind type) : Answers State.kept s (cboRow s i kind type) := by
  refine coreRow_answers s _ _ _ (fun _ j _ => ?_)
  split
  · simp
  · rfl

/-! ### The commands that look something up before they act -/

theorem execRegisterWrite_answers (off v) : Answers State.kept s (execRegisterWrite off v s) :=
  answers_guard (show (if off % 4 = 0 then regWrite s off v hostId else (s, misalignedStatus off)).1.kept = s.kept from
    fst_ite (by simp) rfl)

theorem execReadClear_answers (off peek) : Answers State.kept s (execReadClear off peek s) :=
  answers_guard (show (if off % 4 = 0 then regRead s off peek hostId else (s, misalignedStatus off, 0)).1.kept = s.kept from
    fst_ite (by simp) rfl)

theorem execGuardRelease_answers (u v xy n) : Answers State.kept s (execGuardRelease u v xy n s) := by
  unfold execGuardRelease; dsimp only
  split
  · exact answers_okIf (by simp)
  · exact answers_ok rfl

theorem execDoneRise_answers : Answers State.kept s (execDoneRise s) :=
  answers_when (answers_ite (answers_ok (by simp)) (answers_choice (by simp) (by simp)))

theorem execScheduleApply_answers (sec) : Answers State.kept s (execScheduleApply sec s) :=
  answers_when (answers_choice (by simp) (by simp))

theorem execSwap_answers (sec) : Answers State.kept s (execSwap sec s) := by
  refine answers_when ?_
  split
  · exact answers_ok (by simp)
  · dsimp only
    split <;> simp

theorem execTop_answers (sec r) : Answers State.kept s (execTop sec r s) :=
  answers_when (answers_choice (by simp) (by simp))

theorem execFlush_answers (sec r) : Answers State.kept s (execFlush sec r s) :=
  answers_when (answers_ite (answers_ok (by simp)) (answers_choice (by simp) (by simp)))

theorem execMerge_answers (sec r) : Answers State.kept s (execMerge sec r s) :=
  answers_when (answers_ite (answers_ok (by simp)) (answers_choice (by simp) (by simp)))

theorem execMatcherHit_answers (sec h) : Answers State.kept s (execMatcherHit sec h s) := by
  unfold execMatcherHit
  split <;> simp

theorem execRoad_answers (sec) : Answers State.kept s (execRoad sec s) := by
  unfold execRoad; dsimp only
  split
  · exact answers_ok rfl
  · exact answers_okIf (by simp)

theorem execStoreCheck_answers (sec) : Answers State.kept s (execStoreCheck sec s) := by
  refine answers_when (answers_ite (answers_ok (by simp)) ?_)
  split <;> simp

theorem execBankNonownerServe_answers (sec ix) : Answers State.kept s (execBankNonownerServe sec ix s) := by
  unfold execBankNonownerServe; dsimp only
  split
  · exact answers_okIf (by simp)
  · exact answers_ok rfl

theorem execBankScrubVisit_answers (sec ix) : Answers State.kept s (execBankScrubVisit sec ix s) := by
  refine answers_when (answers_ite (answers_ok (by simp [apply_ite State.kept])) ?_)
  split <;> simp [apply_ite State.kept]

theorem execFeAlignment_answers (n bits phase fits rd) : Answers State.kept s (execFeAlignment n bits phase fits rd s) := by
  refine answers_when ?_
  split
  · exact answers_ok (by simp)
  · exact answers_okIf (by simp [apply_ite State.kept])

theorem execFeWordReceive_answers (n w) : Answers State.kept s (execFeWordReceive n w s) := by
  refine answers_ite (answers_ok (by simp)) (answers_ite (answers_ok (by simp)) (answers_ite (answers_ok (by simp)) ?_))
  split <;> simp

theorem execFeWordTransmit_answers (n) : Answers State.kept s (execFeWordTransmit n s) := by
  refine answers_when (answers_ite (answers_ok (by simp)) ?_)
  split
  · rename_i hsent
    exact answers_ok (by simpa using fst_kept hsent (fst_ite (by simp) rfl))
  · exact answers_choice (by simp) (by simp)

theorem execCodewordSend_answers (n) : Answers State.kept s (execCodewordSend n s) := by
  refine answers_unless (answers_ite (answers_ok (by simp)) ?_)
  split
  · exact answers_unless (answers_ok (by simp))
  · exact answers_choice (by simp) (by simp)
  · split
    · rename_i hsent
      exact answers_ok (by simpa using fst_kept hsent (by simp))
    · exact answers_ok (by simp)
  · exact answers_ok (by simp)

theorem execCodewordReceive_answers (n syms) : Answers State.kept s (execCodewordReceive n syms s) := by
  refine answers_unless (answers_ite (answers_ok (by simp)) (answers_ite (answers_ok (by simp)) (answers_choice ?_ ?_)))
  · split <;> simp
  · split <;> split <;> simp

theorem execStreamVerify_answers (n c) : Answers State.kept s (execStreamVerify n c s) :=
  answers_when (answers_ite (answers_ok (by simp)) (answers_ite (answers_ok (by simp))
    (answers_ite (answers_ok (by simp)) (answers_choice (by simp) (by simp)))))

theorem execQueuePacketSend_answers (n) : Answers State.kept s (execQueuePacketSend n s) := by
  unfold execQueuePacketSend; dsimp only
  split
  · exact answers_ok (by simp)
  · exact answers_guard (by simp [apply_ite State.kept])

theorem execQueuePacketReceive_answers (n) : Answers State.kept s (execQueuePacketReceive n s) := by
  unfold execQueuePacketReceive; dsimp only
  split
  · exact answers_ok rfl
  · exact answers_ite (answers_ok (by simp)) (answers_ite (answers_ok (by simp)) (answers_ite (answers_ok (by simp))
      (answers_choice (by simp) (by simp))))

theorem execQueueDeliver_answers (n q) : Answers State.kept s (execQueueDeliver n q s) := by
  unfold execQueueDeliver; dsimp only
  split
  · exact answers_ok rfl
  · split
    · exact answers_ok rfl
    · exact answers_ite (answers_ok (by simp)) (answers_choice (by simp) (by simp [apply_ite State.kept]))

theorem execQackReceive_answers (n) : Answers State.kept s (execQackReceive n s) := by
  unfold execQackReceive; dsimp only
  split
  · exact answers_ok rfl
  · exact answers_ok (by simp [apply_ite State.kept])

theorem execHskMessage_answers (n) : Answers State.kept s (execHskMessage n s) := by
  unfold execHskMessage; dsimp only
  split
  · exact answers_ok rfl
  · exact answers_when (answers_choice (by simp) (by simp))

theorem execTellerFence_answers (t) : Answers State.kept s (execTellerFence t s) :=
  tlrRow_answers s _ _ _ _ (fun _ _ _ => by split <;> simp)

theorem execTellerWake_answers (t) : Answers State.kept s (execTellerWake t s) := by
  unfold execTellerWake; dsimp only
  split
  · exact answers_okIf (by simp)
  · exact answers_ok rfl

theorem execTellerSettleWake_answers (t) : Answers State.kept s (execTellerSettleWake t s) := by
  unfold execTellerSettleWake; dsimp only
  split
  · exact answers_okIf (by simp)
  · exact answers_okIf (by simp)
  · exact answers_ok rfl

theorem execNocFlitForward_answers (r out net) : Answers State.kept s (execNocFlitForward r out net s) := by
  refine answers_when ?_
  dsimp only
  split
  · exact answers_ok (by simp)
  · exact answers_ok (by simp [apply_ite State.kept])

theorem execNocResponse_answers (r dat vc) : Answers State.kept s (execNocResponse r dat vc s) := by
  unfold execNocResponse; dsimp only
  split
  · refine answers_when ?_
    split
    · exact answers_ok (by simp)
    · exact answers_ok (by split <;> simp)
  · exact answers_ok rfl

theorem execNocTimeout_answers (id ln tag) : Answers State.kept s (execNocTimeout id ln tag s) := by
  unfold execNocTimeout
  split
  · exact answers_guard (by simp)
  · exact answers_ok rfl

theorem execNapInitiatorRequest_answers (sec) : Answers State.kept s (execNapInitiatorRequest sec s) :=
  answers_when (answers_ite (answers_ok (by simp)) (answers_ite (answers_ok (by simp)) (answers_choice (by simp) (by simp))))

theorem execNapResponsePresent_answers (sec) : Answers State.kept s (execNapResponsePresent sec s) := by
  refine answers_when ?_
  split <;> simp

theorem execNapTargetPresent_answers (sec) : Answers State.kept s (execNapTargetPresent sec s) := by
  refine answers_when ?_
  split <;> simp

theorem execNapTargetAnswer_answers (sec) : Answers State.kept s (execNapTargetAnswer sec s) := by
  refine answers_when ?_
  split <;> simp

theorem execNapTargetLimit_answers (sec) : Answers State.kept s (execNapTargetLimit sec s) := by
  refine answers_when ?_
  split <;> simp

theorem execStreamHeader_answers : Answers State.kept s (execStreamHeader s) :=
  answers_unless (answers_ite (answers_okIf (by simp)) (answers_okIf (by simp)))

/-! ### The records of a stream: a record that has not been read yet changes nothing -/

theorem execFramesRecord_answers (bad) : Answers State.kept s (execFramesRecord bad s) := by
  unfold execFramesRecord
  split
  · exact answers_ok rfl
  · split
    · exact answers_ok (by simp)
    · dsimp only
      exact answers_ok (by simp [apply_ite State.kept])

theorem execHardblkRecord_answers (late) : Answers State.kept s (execHardblkRecord late s) := by
  unfold execHardblkRecord
  split
  · exact answers_ok rfl
  · split
    · exact answers_ok (by simp)
    · exact answers_choice (by simp) (by simp)

theorem execBankinitRecord_answers (late) : Answers State.kept s (execBankinitRecord late s) := by
  unfold execBankinitRecord
  split
  · exact answers_ok rfl
  · exact answers_ite (answers_choice (by simp) (by simp)) (answers_ok (by simp))

theorem execFirmwareRecord_answers (late) : Answers State.kept s (execFirmwareRecord late s) := by
  unfold execFirmwareRecord
  split
  · exact answers_ok rfl
  · exact answers_choice (by simp) (by simp)

theorem execTellerRecord_answers (late) : Answers State.kept s (execTellerRecord late s) := by
  unfold execTellerRecord
  split
  · exact answers_ok rfl
  · exact answers_choice (by simp) (by simp)

theorem execKeysRecord_answers : Answers State.kept s (execKeysRecord s) := by
  unfold execKeysRecord
  split
  · exact answers_ok rfl
  · refine answers_ite (answers_ok (by simp)) ?_
    split
    · exact answers_ok (by simp [apply_ite State.kept])
    · exact answers_ok (by simp)

theorem execRegsRecord_answers (late) : Answers State.kept s (execRegsRecord late s) := by
  unfold execRegsRecord
  split
  · exact answers_ok rfl
  · exact answers_ite (answers_ok (by simp)) (answers_okIf (by simp))

theorem execEndSegment_answers : Answers State.kept s (execEndSegment s) := by
  unfold execEndSegment
  split
  · exact answers_ok rfl
  · exact answers_unless (answers_ite (answers_ok (by simp)) (answers_ite (answers_ok (by simp))
      (answers_ite (answers_ok (by simp)) (answers_choice (by simp) (by simp)))))

theorem execRefetch_answers (bad) : Answers State.kept s (execRefetch bad s) := by
  unfold execRefetch
  split
  · exact answers_ok rfl
  · refine answers_when ?_
    split
    · exact answers_ok (by simp)
    · dsimp only
      split <;> rename_i hread
      · have h := fst_kept hread (refetchWords_kept _ _ _)
        exact answers_ok (by simpa [apply_ite State.kept] using h)
      · have h := fst_kept hread (refetchWords_kept _ _ _)
        exact answers_ok (by simpa using h)

theorem execConfigScrubCycle_answers (sec) : Answers State.kept s (execConfigScrubCycle sec s) := by
  have hsweep : ∀ (l : List Nat) (i : Nat) (t : State), (l.foldl (fun acc j => sweepWord sec.val acc (i + j)) t).kept = t.kept :=
    fun l i t => foldl_kept _ (by simp) l t
  exact answers_ite (answers_choice (by simp [hsweep, apply_ite State.kept]) (by simp [hsweep, apply_ite State.kept]))
    (answers_okIf (by simp))

/-! ### The steward: its cores and the coherence hub -/

theorem execStewardInstruction_answers (ix) : Answers State.kept s (execStewardInstruction ix s) := by
  refine answers_when ?_
  split
  · exact answers_ok (by simp)
  · exact answers_okIf (by simp)
  · split
    · exact answers_ok (by simp)
    · exact coreRow_answers s _ _ _ (by simp)

theorem execFenceI_answers (ix) : Answers State.kept s (execFenceI ix s) :=
  coreRow_answers s _ _ _ (by simp)

theorem execStewardFence_answers (ix) : Answers State.kept s (execStewardFence ix s) :=
  coreRow_answers s _ _ _ (fun _ _ _ => by split <;> simp)

theorem execStewardAmo_answers (ix) : Answers State.kept s (execStewardAmo ix s) :=
  coreRow_answers s _ _ _ (by simp)

theorem execWfi_answers (ix) : Answers State.kept s (execWfi ix s) :=
  answers_ite (answers_okIf (by simp)) (coreRow_answers s _ _ _ (fun _ _ _ => by split <;> simp))

theorem execSnoopRequest_answers : Answers State.kept s (execSnoopRequest s) := by
  unfold execSnoopRequest
  split
  · exact answers_guard (by simp)
  · exact answers_ok rfl

theorem execSnoopForward_answers (j) : Answers State.kept s (execSnoopForward j s) := by
  unfold execSnoopForward; dsimp only
  split
  · exact answers_guard (by simp)
  · exact answers_ok rfl

theorem execSnoopAck_answers : Answers State.kept s (execSnoopAck s) := by
  unfold execSnoopAck
  split
  · refine answers_when ?_
    dsimp only
    split
    · exact answers_ok (by simp)
    · exact answers_ok (by simp [apply_ite State.kept])
  · exact answers_ok rfl

theorem execSnoopGrant_answers (ix) : Answers State.kept s (execSnoopGrant ix s) := by
  unfold execSnoopGrant; dsimp only
  split
  · refine answers_when (answers_ite (answers_ok (by simp)) ?_)
    split
    · exact answers_ok (by simp)
    · exact answers_ok (by simp)
    · split <;> simp
    · exact answers_ok (by simp)
  · exact answers_ok (by simp [apply_ite State.kept])
  · exact answers_ok rfl

theorem execSnoopDone_answers : Answers State.kept s (execSnoopDone s) := by
  unfold execSnoopDone
  split
  · exact answers_when (answers_choice (by simp) (by simp))
  · exact answers_ok rfl

theorem execSnoopAckTimeout_answers (ix) : Answers State.kept s (execSnoopAckTimeout ix s) := by
  unfold execSnoopAckTimeout; dsimp only
  split
  · exact answers_okIf (by simp)
  · exact answers_ok rfl

theorem execEventPending_answers : Answers State.kept s (execEventPending s) := by
  unfold execEventPending
  split
  · exact answers_ok rfl
  · exact answers_okIf (by simp)

/-! ### Time in the always-on domain, clocks, power and debug -/

theorem execWdtStage1Expiry_answers (dt) : Answers State.kept s (execWdtStage1Expiry dt s) :=
  answers_choice (by simp) (by simp)

theorem execWdtStage2Expiry_answers (dt) : Answers State.kept s (execWdtStage2Expiry dt s) :=
  answers_choice (by simp) (by simp)

theorem execClockMonitorTrip_answers (src) : Answers State.kept s (execClockMonitorTrip src s) :=
  answers_when (answers_ite (answers_ok (by simp)) (answers_choice (by simp) (by simp)))

theorem execRcoTrimWindow_answers (err) : Answers State.kept s (execRcoTrimWindow err s) :=
  answers_when (answers_ite (answers_ok (by simp [apply_ite State.kept])) (answers_guard (by simp [apply_ite State.kept])))

theorem execVinLoss_answers : Answers State.kept s (execVinLoss s) :=
  answers_ite (answers_ok (by simp)) (answers_okIf (by simp))

theorem execDeviceStart_answers (dt raws rootOk rngOk pin bad fill groups links moved) :
    Answers State.kept s (execDeviceStart dt raws rootOk rngOk pin bad fill groups links moved s) := by
  refine answers_when ?_
  split
  · exact answers_ok (by simp)
  · exact answers_ok (by simp)

theorem execBlockResetEnd_answers : Answers State.kept s (execBlockResetEnd s) := by
  unfold execBlockResetEnd
  split <;> simp

theorem execPowerStateEntry_answers : Answers State.kept s (execPowerStateEntry s) :=
  answers_when (answers_ite (answers_ok (by simp)) (answers_ite (answers_ok (by simp [apply_ite State.kept]))
    (answers_ite (answers_ok (by simp)) (answers_choice (by simp) (by simp)))))

theorem execWakeTimer_answers (dt) : Answers State.kept s (execWakeTimer dt s) :=
  answers_choice (by simp) (by simp)

theorem execWakeFromKeep_answers : Answers State.kept s (execWakeFromKeep s) := by
  have h (n : Nat) : ((recordWake s n).setF Reg.RST_STAGE_STEP 2).kept = s.kept := by simp
  exact answers_okIf (h (if s.phase = .keep then 2 else 3))

theorem execThermalSample_answers (dt readings failed) : Answers State.kept s (execThermalSample dt readings failed s) := by
  refine answers_unless ?_
  extract_lets step th s0 s1 s2 s3 hot rated th3 s4
  have h : s4.kept = s.kept := by simp [s4, s3, s2, s1, s0, foldl_kept]
  split <;> simp [h, apply_ite State.kept]

theorem execDutyAdjust_answers (tot fix) : Answers State.kept s (execDutyAdjust tot fix s) :=
  answers_unless (answers_ok (by simp [apply_ite State.kept]))

theorem execDbgAccess_answers (v) : Answers State.kept s (execDbgAccess v s) :=
  answers_unless (answers_ite (answers_ok (by simp)) (answers_choice (by simp) (by simp)))

theorem execHalt_answers : Answers State.kept s (execHalt s) :=
  answers_unless (answers_choice (by simp) (by simp [apply_ite State.kept]))

theorem execResume_answers : Answers State.kept s (execResume s) :=
  answers_unless (answers_ite (answers_ok (by simp)) (answers_choice (by simp) (by simp)))

theorem execCurArm_answers (v) : Answers State.kept s (execCurArm v s) :=
  answers_unless (answers_ok (by simp [apply_ite State.kept]))

theorem execRtBistRun_answers (fails) : Answers State.kept s (execRtBistRun fails s) := by
  unfold execRtBistRun
  split
  · refine answers_guard ?_
    simp only [State.raiseEv_kept, kept_mk, kept_fold, State.clearF_kept, State.raiseF_kept]
    rw [foldl_kept _ (by simp)]
    split <;> simp
  · exact answers_ok rfl

end

/-! ### Every command -/

/-- The commands that program flash or end a burn of fuses, or cut one off (R298, R299, R343). -/
def EndsFlashOrBurn (c : Instr) : Prop :=
  c = .fuseBurnComplete ∨ c = .resetNAssert ∨ c = .lossOfPower ∨ ∃ failed, c = .flashCommandComplete failed

/-- Every other command answers a next state, and keeps the queue, flash and the burned fuses: most act under one condition and change
nothing without it; the rest are the lemmas above. -/
theorem exec_answers_kept (c : Instr) (s : State) (hc : ¬ EndsFlashOrBurn c) : Answers State.kept s (exec c s) := by
  cases c with
  | slot _ | waitOrbitReminder | orbitMarkerEdge _ | nop | tickReset | clearingWindowOpen | userModeStart | startForce
  | tickLoRead | swapArm _ _ | swapDisarm _ _ | scheduleWrite _ _ | macPortRead _ _ _ _ | macPortWrite _ _ _ _
  | macPortServe _ | macPortTimeout _ | mtPortRead _ _ _ | mtPortWrite _ _ _ | mtStreamWrite _ _ | mtPortServe _
  | mtPortTimeout _ | ownerHandover _ _ _ | bankConfigWrite _ _ _ | quadModeWrite _ _ | feAlignmentLoss _ _
  | polarityWrite _ _ | trunkRateWrite _ _ | codewordLockLoss _ | superframeLock _ | superframeLockLoss _
  | streamBlockTransmit _ | queueRetryTimeout _ _ | queueTailWrite _ _ _ | queueHeadWrite _ _ _ | laneEnable _ _
  | laneRestart _ | trainComplete _ | laneStateTimeout _ | lossOfSignal _ | quadPllLock _ _ | quadPllRecal _
  | handshakeExit _ | laneWake _ _ | wakeSend _ | wakeSendEnd _ | testPatternWrite _ _ | prbsErrRead _ | injSingle _
  | injBurst _ | loopbackSelect _ _ | tellerStop _ | tellerRun _ | tellerSoft _ | tagQuarantineEnd _ _ _ | napCreditGrant _
  | napFence _ | napUnfence _ | refresh _ | fuseProgramOwnerKey _ | fuseProgramFloor _ | keyClear _ _ | zeroiseComplete
  | lockWrite _ _ _ | lockWindowExpiry _ | windowEnable _ _ | windowDisable _ _ | rngRead _ | rngHealthFail | segment
  | stewardRelease _ | doneRelease | doneGo | goFlash _ | goPort | streamAbort | servicePortWord _ | flashRead | flashProgram
  | flashErase | scrubRetry _ | eventClaim _ _ | evtSwraise _ | wdtEnable _ _ | wdtKick _ | rcoReady | xoReady | xoStartFail
  | aonSourceChange | rootSwitch _ _ | mrefSettled _ | sourceRecovered _ | powerOn | firmwareReset _ _ | blockReset _
  | entryBlockTimeout _ | wakeFromHold | voltageRequest _ | regulatorFault _ | residencyRead _ _ | governorDwell
  | thermalRestart | tapReset | extest _ _ | sample _ | preload _ | idcode | extestPulse _ _ | extestTrain _ _ | bypass
  | sysrst | causeRead | coreRelease _ | doneOk | i2cStatusRead _ | rtBistRequest _ _ | gpioWake _ | prbsCheckerSync _
  | prbsSyncLoss _ =>
    exact answers_okIf (by simp)
  | tickBoundary | orbit | frameReset | clearReq | swapGo | testPulse | frameBoundary | doneFall | eventEnd _
  | codewordLock _ _ _ | bitlockComplete _ | memoryScrubVisit _ | zeroise _ _ | windowInitComplete _ | supplyWarning _ _
  | cfgStream _ | mrefLost _ =>
    exact answers_okIf (by simp [apply_ite State.kept])
  | gpioDelayCompensate _ =>
    exact answers_okIf (by simp [foldl_kept])
  | gpioEdge _ =>
    exact answers_guard (by simp)
  | detectAttempt _ _ =>
    exact answers_guard (by simp [apply_ite State.kept])
  | timingWord _ _ _ _ _ _ | quadPllLoss _ | resetNRelease | i2cWrite _ _ _ | i2cRead _ _ | i2cStream _ _
  | machineTimerInterrupt _ =>
    exact answers_ok (by simp)
  | madd _ _ | leaf _ _ | head _ _ =>
    exact macTake_answers s _ _ _
  | bankRead _ _ | bankWrite _ _ | bankAdd _ _ | bankAddu _ _ | bankAdds _ _ | bankSwap _ _ =>
    exact fabricTake_answers s _ _ _
  | tellerInstruction _ | tellerEcall _ | tellerEbreak _ =>
    exact tlrRow_answers s _ _ _ _ (by simp)
  | vadd _ | vsub _ | vmul _ | vmulh _ | vmulhu _ | vmin _ | vminu _ | vmax _ | vmaxu _ | vseq _ | vslt _ | vsltu _ | vsel _
  | vredsum _ | vredsumu _ | vsplat _ | vext _ | vextu _ | vins _ | vld _ | vst _ | vtally _ | twait _ | tsettle _ | traise _ =>
    exact tRow_answers s _ _
  | nocRead _ _ | nocWrite _ _ | nocWrline _ | nocAdd _ _ | nocAddu _ _ | nocAdds _ _ | nocSwap _ _ =>
    unfold exec
    exact takeRequest_answers s _ _ _ _
  | cboClean _ | cboFlush _ | cboInval _ =>
    exact cboRow_answers s _ _ _
  | registerWrite off v => exact execRegisterWrite_answers s off v
  | readClear off peek => exact execReadClear_answers s off peek
  | guardRelease u v xy n => exact execGuardRelease_answers s u v xy n
  | doneRise => exact execDoneRise_answers s
  | scheduleApply sec => exact execScheduleApply_answers s sec
  | swap sec => exact execSwap_answers s sec
  | top sec r => exact execTop_answers s sec r
  | flush sec r => exact execFlush_answers s sec r
  | merge sec r => exact execMerge_answers s sec r
  | matcherHit sec h => exact execMatcherHit_answers s sec h
  | road sec => exact execRoad_answers s sec
  | storeCheck sec => exact execStoreCheck_answers s sec
  | bankNonownerServe sec ix => exact execBankNonownerServe_answers s sec ix
  | bankScrubVisit sec ix => exact execBankScrubVisit_answers s sec ix
  | feAlignment n bits phase fits rd => exact execFeAlignment_answers s n bits phase fits rd
  | feWordReceive n w => exact execFeWordReceive_answers s n w
  | feWordTransmit n => exact execFeWordTransmit_answers s n
  | codewordSend n => exact execCodewordSend_answers s n
  | codewordReceive n syms => exact execCodewordReceive_answers s n syms
  | streamVerify n c => exact execStreamVerify_answers s n c
  | queuePacketSend n => exact execQueuePacketSend_answers s n
  | queuePacketReceive n => exact execQueuePacketReceive_answers s n
  | queueDeliver n q => exact execQueueDeliver_answers s n q
  | qackReceive n => exact execQackReceive_answers s n
  | hskMessage n => exact execHskMessage_answers s n
  | tellerFence t => exact execTellerFence_answers s t
  | tellerWake t => exact execTellerWake_answers s t
  | tellerSettleWake t => exact execTellerSettleWake_answers s t
  | nocFlitForward r out net => exact execNocFlitForward_answers s r out net
  | nocResponse r dat vc => exact execNocResponse_answers s r dat vc
  | nocTimeout id ln tag => exact execNocTimeout_answers s id ln tag
  | napInitiatorRequest sec => exact execNapInitiatorRequest_answers s sec
  | napResponsePresent sec => exact execNapResponsePresent_answers s sec
  | napTargetPresent sec => exact execNapTargetPresent_answers s sec
  | napTargetAnswer sec => exact execNapTargetAnswer_answers s sec
  | napTargetLimit sec => exact execNapTargetLimit_answers s sec
  | streamHeader => exact execStreamHeader_answers s
  | framesRecord bad => exact execFramesRecord_answers s bad
  | hardblkRecord late => exact execHardblkRecord_answers s late
  | bankinitRecord late => exact execBankinitRecord_answers s late
  | firmwareRecord late => exact execFirmwareRecord_answers s late
  | tellerRecord late => exact execTellerRecord_answers s late
  | keysRecord => exact execKeysRecord_answers s
  | regsRecord late => exact execRegsRecord_answers s late
  | endSegment => exact execEndSegment_answers s
  | refetch bad => exact execRefetch_answers s bad
  | configScrubCycle sec => exact execConfigScrubCycle_answers s sec
  | stewardInstruction ix => exact execStewardInstruction_answers s ix
  | fenceI ix => exact execFenceI_answers s ix
  | stewardFence ix => exact execStewardFence_answers s ix
  | stewardAmo ix => exact execStewardAmo_answers s ix
  | wfi ix => exact execWfi_answers s ix
  | snoopRequest => exact execSnoopRequest_answers s
  | snoopForward j => exact execSnoopForward_answers s j
  | snoopAck => exact execSnoopAck_answers s
  | snoopGrant ix => exact execSnoopGrant_answers s ix
  | snoopDone => exact execSnoopDone_answers s
  | snoopAckTimeout ix => exact execSnoopAckTimeout_answers s ix
  | eventPending => exact execEventPending_answers s
  | wdtStage1Expiry dt => exact execWdtStage1Expiry_answers s dt
  | wdtStage2Expiry dt => exact execWdtStage2Expiry_answers s dt
  | clockMonitorTrip src => exact execClockMonitorTrip_answers s src
  | rcoTrimWindow err => exact execRcoTrimWindow_answers s err
  | vinLoss => exact execVinLoss_answers s
  | deviceStart dt raws rootOk rngOk pin bad fill groups links moved =>
    exact execDeviceStart_answers s dt raws rootOk rngOk pin bad fill groups links moved
  | blockResetEnd => exact execBlockResetEnd_answers s
  | powerStateEntry => exact execPowerStateEntry_answers s
  | wakeTimer dt => exact execWakeTimer_answers s dt
  | wakeFromKeep => exact execWakeFromKeep_answers s
  | thermalSample dt readings failed => exact execThermalSample_answers s dt readings failed
  | dutyAdjust tot fix => exact execDutyAdjust_answers s tot fix
  | dbgAccess v => exact execDbgAccess_answers s v
  | halt => exact execHalt_answers s
  | resume => exact execResume_answers s
  | curArm v => exact execCurArm_answers s v
  | rtBistRun fails => exact execRtBistRun_answers s fails
  | fuseBurnComplete => exact absurd (.inl rfl) hc
  | resetNAssert => exact absurd (.inr (.inl rfl)) hc
  | lossOfPower => exact absurd (.inr (.inr (.inl rfl))) hc
  | flashCommandComplete _ => exact absurd (.inr (.inr (.inr ⟨_, rfl⟩))) hc

theorem execFuseBurnComplete_answers (s : State) : Answers State.pending s (execFuseBurnComplete s) :=
  answers_unless (answers_ok (by simp only [raiseEv_pending, clearF_pending]; split <;> rfl))

theorem execResetNAssert_answers (s : State) : Answers State.pending s (execResetNAssert s) := by
  refine answers_unless (answers_ok ?_)
  have hcut (t : State) : (cutBurn t).pending = t.pending := by unfold cutBurn; dsimp only; split <;> rfl
  have hreset (t : State) (cause sub : Nat) : (deviceReset t cause sub).pending = t.pending := pending_of_kept (by simp)
  split <;> simp [hreset, hcut]

theorem execLossOfPower_answers (s : State) : Answers State.pending s (execLossOfPower s) := answers_unless (answers_ok rfl)

theorem flProgram_pending (s : State) (page : Nat) : (flProgram s page).pending = s.pending := by
  unfold flProgram
  split <;> rfl

theorem execFlashCommandComplete_answers (failed : Bool) (s : State) : Answers State.pending s (execFlashCommandComplete failed s) := by
  unfold execFlashCommandComplete
  split
  · refine answers_okIf ?_
    simp only [raiseEv_pending, raiseF_pending, clearF_pending]
    split
    · exact pending_of_kept (by simp)
    · split
      · rfl
      · exact flProgram_pending s _
    · split <;> rfl
  · exact answers_ok rfl

/-- Every command answers a next state and keeps the queue. -/
theorem exec_answers (c : Instr) (s : State) : Answers State.pending s (exec c s) := by
  by_cases h : EndsFlashOrBurn c
  · obtain rfl | rfl | rfl | ⟨failed, rfl⟩ := h
    · exact execFuseBurnComplete_answers s
    · exact execResetNAssert_answers s
    · exact execLossOfPower_answers s
    · exact execFlashCommandComplete_answers failed s
  · exact answers_pending_of_kept (exec_answers_kept c s h)

/-- Settles O59: what a command answers is its one next state, and that one keeps the queue. -/
theorem queueIsKept : Obligations.QueueIsKept := by
  unfold Obligations.QueueIsKept
  intro c s t ht
  obtain ⟨u, hu, hq⟩ := exec_answers c s
  cases hu.symm.trans ht
  exact hq

/-- Settles O60: every command answers. -/
theorem everyCommandAnswers : Obligations.EveryCommandAnswers := by
  unfold Obligations.EveryCommandAnswers
  intro c s
  obtain ⟨t, ht, -⟩ := exec_answers c s
  exact ⟨t, ht⟩

end Sys2Proof.Machine

/-!
SUPPORT. Requests on the network (13_network.md R256 to R258, 18_steward_events.md R364): what a RAM answers to each operation, what
the steward RAM reads, and how the answer of a target leaves.
-/

namespace Sys2Proof.Machine

/-! ### What a RAM target answers -/

theorem sizeBytes_of_le {size : Nat} (h : size ≤ 3) : sizeBytes size = 2 ^ size := if_pos h

section
variable {p : RamPort} {atomics : Bool} {s v : State} {w x : Nat} {q : NocReq}

theorem serveRam_of_misaligned (h : q.addr % sizeBytes q.size ≠ 0) : serveRam p atomics s w q = .answer s 1 0 := if_pos (.inl h)

section
variable (ha : q.addr % sizeBytes q.size = 0)
include ha

theorem serveRam_read (h3 : q.size ≤ 3) (hop : q.op = 0) (hr : p.look s w = (v, some x)) :
    serveRam p atomics s w q = .answer v 0 (readLanes x q.addr q.size) := by
  unfold serveRam
  rw [if_neg (by omega), hop]
  simp only [show q.size ≠ 4 by omega, if_false, hr]

theorem serveRam_read_bad (h3 : q.size ≤ 3) (hop : q.op = 0) (hr : p.look s w = (v, none)) :
    serveRam p atomics s w q = .answer v 1 0 := by
  unfold serveRam
  rw [if_neg (by omega), hop]
  simp only [show q.size ≠ 4 by omega, if_false, hr, refuse]

theorem serveRam_write_bytes (h3 : q.size < 3) (hop : q.op = 1) (hr : p.read s w = (v, some x)) :
    serveRam p atomics s w q = .answer (p.write v w (mergeWord x q.data q.addr q.size) (laneMask q.addr q.size)) 0 0 := by
  unfold serveRam
  rw [if_neg (by omega), hop]
  simp only [show q.size ≠ 4 by omega, show q.size ≠ 3 by omega, if_false, hr]

theorem serveRam_write_bad (h3 : q.size < 3) (hop : q.op = 1) (hr : p.read s w = (v, none)) :
    serveRam p atomics s w q = .answer v 1 0 := by
  unfold serveRam
  rw [if_neg (by omega), hop]
  simp only [show q.size ≠ 4 by omega, show q.size ≠ 3 by omega, if_false, hr, refuse]

theorem serveRam_write_word (h3 : q.size = 3) (hop : q.op = 1) :
    serveRam p atomics s w q = .answer (p.write s w q.data 255) 0 0 := by
  unfold serveRam
  rw [if_neg (by omega), hop]
  simp [h3]

theorem serveRam_line (h4 : q.size = 4) (hop : q.op = 2) : serveRam p atomics s w q =
    .answer ((List.range 8).foldl (fun acc j => p.write acc (w + j) (q.data / 2 ^ (64 * j) % 2 ^ 64) 255) s) 0 0 := by
  unfold serveRam
  rw [if_neg (by omega), hop]
  rfl

theorem serveRam_atomic {o : BankOp} (h3 : q.size = 3) (h : 3 ≤ q.op) (hop : bankOpOf q.op = some o) (hr : p.read s w = (v, some x)) :
    serveRam p true s w q = .answer (p.write v w (atomicValue o x (q.data % 2 ^ 64)) 255) 0 x := by
  unfold serveRam
  rw [if_neg (by omega)]
  generalize q.op = op at h hop
  unfold bankOpOf at hop
  split at hop
  case h_1 | h_2 | h_3 => omega
  case h_4 | h_5 | h_6 | h_7 => cases hop; simp [h3, hr]
  case h_8 => cases hop

end
end

theorem atomicValue_swap (x y : Nat) : atomicValue .swap x (y % 2 ^ 64) = y % 2 ^ 64 := Nat.mod_mod y _

/-! ### The steward RAM -/

/-- The steward RAM with one word stored. -/
def sramStored (s : State) (w x : Nat) : State := { s with sram := cwPut s.sram w (cwEncode (BitVec.ofNat 64 x)) }

/-- A word that can be read: a clean one leaves the RAM as it is, a correctable one is stored again (R364). -/
theorem sramRead_word {s v : State} {w : Nat} {x : BitVec 64}
    (h : (cwDecode (cwAt s.sram w) = .clean x ∧ v = s) ∨ (cwDecode (cwAt s.sram w) = .corrected x ∧ v = sramStored s w x.toNat)) :
    sramRead s w = (v, some x.toNat) := by
  unfold sramRead
  obtain ⟨hx, rfl⟩ | ⟨hx, rfl⟩ := h
  · rw [hx]
  · rw [hx]; simp [sramStored]

theorem sramRead_bad {s : State} {w : Nat} (h : cwDecode (cwAt s.sram w) = .bad) : sramRead s w = (s.raiseEv 211, none) := by
  unfold sramRead; rw [h]

theorem sramPort_write_fold (w : Nat → Nat) (x : Nat → Nat) (l : List Nat) (s : State) :
    l.foldl (fun acc j => sramPort.write acc (w j) (x j) 255) s =
      { s with sram := l.foldl (fun acc j => cwPut acc (w j) (cwEncode (BitVec.ofNat 64 (x j)))) s.sram } := by
  induction l generalizing s with
  | nil => rfl
  | cons j l ih => rw [List.foldl_cons, ih]; rfl

theorem serve_none {q : NocReq} (s : State) (vc : Nat) (h : regionOf q.addr = .none) : serve s q vc = .answer s 2 0 := by
  unfold serve; rw [h]

theorem serve_sram {q : NocReq} (s : State) (vc : Nat) (h : regionOf q.addr = .sram) :
    serve s q vc = serveRam sramPort true s (q.addr % 0x400000 / 8) q := by
  unfold serve; rw [h]

section
variable {s v : State} {x vc : Nat} {q : NocReq} (hreg : regionOf q.addr = .sram) (ha : q.addr % sizeBytes q.size = 0)
include hreg ha

theorem serve_sram_write_bytes (hr : sramRead s (q.addr % 0x400000 / 8) = (v, some x)) (h3 : q.size < 3) (hop : q.op = 1) :
    serve s q vc = .answer (sramStored v (q.addr % 0x400000 / 8) (mergeWord x q.data q.addr q.size)) 0 0 :=
  (serve_sram s vc hreg).trans (serveRam_write_bytes ha h3 hop hr)

theorem serve_sram_write_word (h3 : q.size = 3) (hop : q.op = 1) :
    serve s q vc = .answer (sramStored s (q.addr % 0x400000 / 8) q.data) 0 0 :=
  (serve_sram s vc hreg).trans (serveRam_write_word ha h3 hop)

theorem serve_sram_atomic {o : BankOp} (hr : sramRead s (q.addr % 0x400000 / 8) = (v, some x)) (h3 : q.size = 3) (h : 3 ≤ q.op)
    (hop : bankOpOf q.op = some o) :
    serve s q vc = .answer (sramStored v (q.addr % 0x400000 / 8) (atomicValue o x (q.data % 2 ^ 64))) 0 x :=
  (serve_sram s vc hreg).trans (serveRam_atomic ha h3 h hop hr)

end

/-! ### A request taken from an ejection queue -/

theorem memChosen_eq (s : State) (r net vc : Nat) :
    memChosen s r net vc = { s with memq := (memChosen s r net vc).memq, memPtr := (memChosen s r net vc).memPtr } := by
  unfold memChosen; split <;> rfl

theorem nocRuns_memChosen (s : State) (r net vc : Nat) : (memChosen s r net vc).nocRuns = s.nocRuns := by rw [memChosen_eq]; rfl

theorem sram_memChosen (s : State) (r net vc : Nat) : (memChosen s r net vc).sram = s.sram := by rw [memChosen_eq]

/-- The state in which a target finds a request that it takes: off its queue and off the list of those that wait. -/
def State.taken (s : State) (r net vc : Nat) : State := memChosen (s.eject r net vc) r net vc

theorem nocRuns_taken (s : State) (r net vc : Nat) : (s.taken r net vc).nocRuns = s.nocRuns := nocRuns_memChosen _ r net vc

theorem sram_taken (s : State) (r net vc : Nat) : (s.taken r net vc).sram = s.sram := sram_memChosen _ r net vc

section
variable {s t : State} {r net vc : Nat} {q : NocReq} {status data : Nat} (hn : s.nocRuns = true)
  (hq : (s.ejected r net vc).bind Flit.request = some q) (hm : memTurn s r net vc = true)
include hn hq hm

/-- A request that is answered at once: the answer leaves for the initiator. -/
theorem takeRequest_of_answer {mine : Nat → Bool} (hop : mine q.op = true)
    (hs : serve (s.taken r net vc) q vc = .answer t status data) (ht : t.nocRuns = true) :
    takeRequest s r net vc mine = .next (sendResponse t r q status data) := by
  unfold State.taken at hs
  unfold takeRequest
  rw [hq]
  simp only [hn, hop, hm, Bool.and_self, if_true, hs, ht]

end

section
variable {s t : State} {r : Fin 360} {vc : Fin 2} {q : NocReq} {status data : Nat} (hn : s.nocRuns = true)
  (hq : (s.ejected r 0 vc).bind Flit.request = some q) (hm : memTurn s r 0 vc = true)
  (hs : serve (s.taken r 0 vc) q vc = .answer t status data) (ht : t.nocRuns = true)
include hn hq hm hs ht

theorem exec_nocRead_of_answer (hop : q.op = 0) : exec (.nocRead r vc) s = .next (sendResponse t r q status data) := by
  rw [exec_nocRead]; exact takeRequest_of_answer hn hq hm (by simp [hop]) hs ht

theorem exec_nocWrite_of_answer (hop : q.op = 1) : exec (.nocWrite r vc) s = .next (sendResponse t r q status data) := by
  rw [exec_nocWrite]; exact takeRequest_of_answer hn hq hm (by simp [hop]) hs ht

theorem exec_nocAdd_of_answer (hop : q.op = 3) : exec (.nocAdd r vc) s = .next (sendResponse t r q status data) := by
  rw [exec_nocAdd]; exact takeRequest_of_answer hn hq hm (by simp [hop]) hs ht

theorem exec_nocAddu_of_answer (hop : q.op = 4) : exec (.nocAddu r vc) s = .next (sendResponse t r q status data) := by
  rw [exec_nocAddu]; exact takeRequest_of_answer hn hq hm (by simp [hop]) hs ht

theorem exec_nocAdds_of_answer (hop : q.op = 5) : exec (.nocAdds r vc) s = .next (sendResponse t r q status data) := by
  rw [exec_nocAdds]; exact takeRequest_of_answer hn hq hm (by simp [hop]) hs ht

theorem exec_nocSwap_of_answer (hop : q.op = 6) : exec (.nocSwap r vc) s = .next (sendResponse t r q status data) := by
  rw [exec_nocSwap]; exact takeRequest_of_answer hn hq hm (by simp [hop]) hs ht

/-- An answer that does not depend on the operation is sent by each of the six commands for its own. -/
theorem exec_request_of_answer :
    (q.op = 0 → exec (.nocRead r vc) s = .next (sendResponse t r q status data)) ∧
    (q.op = 1 → exec (.nocWrite r vc) s = .next (sendResponse t r q status data)) ∧
    (q.op = 3 → exec (.nocAdd r vc) s = .next (sendResponse t r q status data)) ∧
    (q.op = 4 → exec (.nocAddu r vc) s = .next (sendResponse t r q status data)) ∧
    (q.op = 5 → exec (.nocAdds r vc) s = .next (sendResponse t r q status data)) ∧
    (q.op = 6 → exec (.nocSwap r vc) s = .next (sendResponse t r q status data)) :=
  ⟨exec_nocRead_of_answer hn hq hm hs ht, exec_nocWrite_of_answer hn hq hm hs ht, exec_nocAdd_of_answer hn hq hm hs ht,
    exec_nocAddu_of_answer hn hq hm hs ht, exec_nocAdds_of_answer hn hq hm hs ht, exec_nocSwap_of_answer hn hq hm hs ht⟩

end

/-- Settles O30: by the region of the address, and at the steward RAM by the operation and by what the word reads. -/
theorem networkRequests : Obligations.NetworkRequests := by
  unfold Obligations.NetworkRequests
  intro s r vc q hn reply
  constructor
  · intro hq hm u k stored
    have hu : u.nocRuns = true := (nocRuns_taken s r 0 vc).trans hn
    have hsram : u.sram = s.sram := sram_taken s r 0 vc
    refine ⟨fun hreg => exec_request_of_answer hn hq hm (serve_none u vc hreg) hu,
      fun hreg hal => exec_request_of_answer hn hq hm ((serve_sram u vc hreg).trans (serveRam_of_misaligned hal)) hu,
      fun hreg h3 hal => ?_⟩
    have ha : q.addr % sizeBytes q.size = 0 := by rw [sizeBytes_of_le h3]; exact hal
    refine ⟨fun w v hv => ?_, fun hop h3 => ?_, fun hbad => ?_⟩
    · rw [← hsram] at hv
      have hread : sramRead u k = (v, some w.toNat) := sramRead_word hv
      have hvn : v.nocRuns = true := by obtain ⟨-, rfl⟩ | ⟨-, rfl⟩ := hv <;> exact hu
      have hatomic := fun (o : BankOp) => serve_sram_atomic (o := o) (vc := vc) hreg ha hread
      refine ⟨fun hop => exec_nocRead_of_answer hn hq hm ((serve_sram u vc hreg).trans (serveRam_read ha h3 hop hread)) hvn hop,
        fun hop h3 => exec_nocWrite_of_answer hn hq hm (serve_sram_write_bytes hreg ha hread h3 hop) hvn hop,
        fun h3 => ⟨fun hop => ?_, fun hop => ?_, fun hop => ?_, fun hop => ?_⟩⟩
      · exact exec_nocAdd_of_answer hn hq hm (hatomic .add h3 (by omega) (by rw [hop]; rfl)) hvn hop
      · exact exec_nocAddu_of_answer hn hq hm (hatomic .addu h3 (by omega) (by rw [hop]; rfl)) hvn hop
      · exact exec_nocAdds_of_answer hn hq hm (hatomic .adds h3 (by omega) (by rw [hop]; rfl)) hvn hop
      · have hswap := hatomic .swap h3 (by omega) (by rw [hop]; rfl)
        rw [atomicValue_swap] at hswap
        exact exec_nocSwap_of_answer hn hq hm hswap hvn hop
    · exact exec_nocWrite_of_answer hn hq hm (serve_sram_write_word hreg ha h3 hop) hu hop
    · rw [← hsram] at hbad
      have hread : sramRead u k = (u.raiseEv 211, none) := sramRead_bad hbad
      have hserve := serve_sram u vc hreg
      exact ⟨fun hop => exec_nocRead_of_answer hn hq hm (hserve.trans (serveRam_read_bad ha h3 hop hread)) hu hop,
        fun hop h3 => exec_nocWrite_of_answer hn hq hm (hserve.trans (serveRam_write_bad ha h3 hop hread)) hu hop⟩
  · intro hq hm hop h4 hreg hal u
    have hu : u.nocRuns = true := (nocRuns_taken s r 2 0).trans hn
    have ha : q.addr % sizeBytes q.size = 0 := by rw [h4]; exact hal
    have hserve := (serve_sram u 0 hreg).trans (serveRam_line ha h4 hop)
    rw [sramPort_write_fold] at hserve
    rw [exec_nocWrline]
    exact takeRequest_of_answer hn hq hm (by simp [hop]) hserve hu

end Sys2Proof.Machine

/-!
SUPPORT. The NAP of a sector (13_network.md R268 to R273): what each of its commands does where its conditions hold, which response is
presented first, and that a free handle is found.
-/

namespace Sys2Proof.Machine

theorem okIf_of_true {c : Bool} (s t : State) (h : c = true) : okIf c s t = .next t := if_pos h

@[simp] theorem nap_setNap_self (s : State) (sec : Nat) (p : Nap) : (s.setNap sec p).nap sec = p := tget_tset_self _ _ _ _

/-! ### Flags and counters that a command of the NAP sets -/

/-- A flag raised and a counter of another register counted: both read so, and no other register bit changes. -/
theorem raiseF_incF_reads {s u : State} {f g : Field} (hu : u.regs = s.regs) (hr : f.reg ≠ g.reg)
    (hf : f.lo ≤ f.hi ∧ f.hi < 32) (hg : g.lo ≤ g.hi ∧ g.hi < 32) :
    ((u.raiseF f).incF g).flag f = true ∧
      ((u.raiseF f).incF g).getF g = min (s.getF g + 1) (2 ^ (g.hi + 1 - g.lo) - 1) ∧
      BitsBut [f, g] s ((u.raiseF f).incF g) := by
  refine ⟨?_, ?_, ?_⟩
  · have h : ((u.raiseF f).incF g).getF f = (u.raiseF f).getF f := getF_addF_reg_ne _ g f 1 hr
    unfold State.flag
    rw [h, getF_raiseF u f hf.1 hf.2]; rfl
  · have h : (u.raiseF f).getF g = s.getF g := by
      rw [getF_raiseF_eq, getF_setF_reg_ne u f g 1 (Ne.symm hr)]; exact getF_of_regs hu g
    unfold State.incF
    rw [getF_addF _ g 1 hg.1 hg.2, h]
  · exact bitsBut_incF (bitsBut_raiseF (bitsBut_of_regs (bitsBut_refl _ s) hu) f (by simp) hf.1 hf.2) g (by simp) hg.1 hg.2

/-- A change of the NAPs, injection, registers and the record of the slot alone stays one with a flag raised and a counter counted. -/
theorem raiseF_incF_frame {s u : State} (f g : Field)
    (h : { u with regs := s.regs, cyc := s.cyc, naps := s.naps, inject := s.inject } = s) :
    { (u.raiseF f).incF g with regs := s.regs, cyc := s.cyc, naps := s.naps, inject := s.inject } = s := h

/-! ### The initiator port -/

section
variable {s : State} {sec : Fin 240}

theorem exec_napCreditGrant_of_free (hm : s.mayIssue sec = true) (hc : s.clrOpen = false) (hf : s.napFenced sec = false)
    (hg : (s.nap sec).grantAt ≠ some s.time.slots) (hb : (s.nap sec).cred + outCount s sec false < (s.nap sec).icred) :
    exec (.napCreditGrant sec) s =
      .next (s.setNap sec { s.nap sec with cred := (s.nap sec).cred + 1, grantAt := some s.time.slots }) := by
  rw [exec_napCreditGrant]
  exact okIf_of_true _ _ (by simp [hm, hc, hf, hg, napBusy, hb])

/-- A request taken without a credit: discarded and counted (R268, R273). -/
def napDiscard (s : State) (sec : Nat) : State :=
  ((s.setNap sec { s.nap sec with reqAt := some s.time.slots }).raiseF (Reg.SEC_NAP_STAT_IOVR sec)).incF (Reg.SEC_NAP_CNT_IOVR_CNT sec)

theorem napDiscard_reads (s : State) (sec : Nat) :
    (napDiscard s sec).flag (Reg.SEC_NAP_STAT_IOVR sec) = true ∧
      (napDiscard s sec).getF (Reg.SEC_NAP_CNT_IOVR_CNT sec) = min (s.getF (Reg.SEC_NAP_CNT_IOVR_CNT sec) + 1) (2 ^ 16 - 1) ∧
      BitsBut [Reg.SEC_NAP_STAT_IOVR sec, Reg.SEC_NAP_CNT_IOVR_CNT sec] s (napDiscard s sec) :=
  raiseF_incF_reads (u := s.setNap sec _) rfl
    (by simp [Reg.SEC_NAP_STAT_IOVR, Reg.SEC_NAP_CNT_IOVR_CNT, Reg.SEC_NAP_STAT, Reg.SEC_NAP_CNT])
    (by simp [Reg.SEC_NAP_STAT_IOVR]) (by simp [Reg.SEC_NAP_CNT_IOVR_CNT])

section
variable (hm : s.mayIssue sec = true) (hr : (s.nap sec).reqAt ≠ some s.time.slots) (hv : napValid s sec = true)
include hm hr hv

theorem exec_napInitiatorRequest_of_valid : exec (.napInitiatorRequest sec) s =
    let p := s.nap sec
    let s1 := s.setNap sec
      { p with reqAt := some s.time.slots, cred := p.cred - 1, lost := if p.cred = 0 then p.lost - 1 else p.lost }
    if s.napFenced sec && p.cred + p.lost != 0 then ok (napOwn s1 sec (napRequest s sec).2)
    else if p.cred = 0 then ok (napDiscard s sec)
    else if napOpOk (napRequest s sec).1.op (napRequest s sec).1.size then ok (issue s1 (napRequest s sec).1 (napRequest s sec).2 0).1
    else ok (napOwn s1 sec (napRequest s sec).2) := by
  rw [exec_napInitiatorRequest]
  exact if_pos (by simp [hm, hr, hv])

theorem exec_napInitiatorRequest_discard (h : s.napFenced sec = false ∨ (s.nap sec).cred + (s.nap sec).lost = 0)
    (h0 : (s.nap sec).cred = 0) : exec (.napInitiatorRequest sec) s = .next (napDiscard s sec) := by
  rw [exec_napInitiatorRequest_of_valid hm hr hv]
  dsimp only
  rw [if_neg (by obtain h | h := h <;> simp [h]), if_pos h0]

theorem exec_napInitiatorRequest_overtaken (hf : s.napFenced sec = true) (hl : (s.nap sec).cred + (s.nap sec).lost ≠ 0) :
    exec (.napInitiatorRequest sec) s = .next (napOwn (s.setNap sec { s.nap sec with
      reqAt := some s.time.slots, cred := (s.nap sec).cred - 1,
      lost := if (s.nap sec).cred = 0 then (s.nap sec).lost - 1 else (s.nap sec).lost }) sec (napRequest s sec).2) := by
  rw [exec_napInitiatorRequest_of_valid hm hr hv]
  exact if_pos (by rw [hf, Bool.true_and]; exact bne_iff_ne.mpr hl)

section
variable (hf : s.napFenced sec = false) (h0 : (s.nap sec).cred ≠ 0)
include hf h0

theorem exec_napInitiatorRequest_issue (ho : napOpOk (napRequest s sec).1.op (napRequest s sec).1.size = true) :
    exec (.napInitiatorRequest sec) s = .next (issue (s.setNap sec { s.nap sec with
      reqAt := some s.time.slots, cred := (s.nap sec).cred - 1 }) (napRequest s sec).1 (napRequest s sec).2 0).1 := by
  rw [exec_napInitiatorRequest_of_valid hm hr hv]
  simp [hf, h0, ho]

theorem exec_napInitiatorRequest_refuse (ho : napOpOk (napRequest s sec).1.op (napRequest s sec).1.size = false) :
    exec (.napInitiatorRequest sec) s = .next (napOwn (s.setNap sec { s.nap sec with
      reqAt := some s.time.slots, cred := (s.nap sec).cred - 1 }) sec (napRequest s sec).2) := by
  rw [exec_napInitiatorRequest_of_valid hm hr hv]
  simp [hf, h0, ho]

end
end

/-- A response that the NAP makes itself joins those that wait, and comes in the next slot; nothing but the NAPs changes. -/
theorem napOwn_setNap (s : State) (sec : Nat) (p : Nap) (ut : Nat) :
    (napOwn (s.setNap sec p) sec ut).nap sec = { p with resps := p.resps ++ [⟨s.time.slots + 1, true, ut, 1, 0⟩] } ∧
      { napOwn (s.setNap sec p) sec ut with naps := s.naps } = s := by
  refine ⟨?_, rfl⟩
  unfold napOwn
  simp only [nap_setNap_self]
  rfl

end

/-! ### Responses -/

theorem foldl_min_le (l : List UserRsp) (b : Nat) :
    l.foldl (fun acc r => min acc r.at_) b ≤ b ∧ ∀ r ∈ l, l.foldl (fun acc r => min acc r.at_) b ≤ r.at_ := by
  induction l generalizing b with
  | nil => simp
  | cons x l ih =>
    obtain ⟨hb, hl⟩ := ih (min b x.at_)
    rw [List.foldl_cons]
    refine ⟨hb.trans (Nat.min_le_left _ _), fun r hr => ?_⟩
    rcases List.mem_cons.mp hr with rfl | hr
    · exact hb.trans (Nat.min_le_right _ _)
    · exact hl r hr

/-- The response to present has arrived, and none has arrived before it. -/
theorem nextResp_first {rs : List UserRsp} {now : Nat} {r : UserRsp} (h : nextResp rs now = some r) :
    r ∈ rs ∧ r.at_ ≤ now ∧ ∀ r' ∈ rs, r.at_ ≤ r'.at_ := by
  have hsome : r ∈ rs.filter (fun r => decide (r.at_ ≤ now)) ∧
      r.at_ = (rs.filter (fun r => decide (r.at_ ≤ now))).foldl (fun acc r => min acc r.at_) now := by
    unfold nextResp at h
    dsimp only at h
    split at h
    · rename_i hfind
      cases h
      have hp := List.find?_some hfind
      rw [Bool.and_eq_true, beq_iff_eq] at hp
      exact ⟨List.mem_of_find?_eq_some hfind, hp.1⟩
    · exact ⟨List.mem_of_find?_eq_some h, by simpa using List.find?_some h⟩
  obtain ⟨hdue, hat⟩ := hsome
  obtain ⟨hnow, hfirst⟩ := foldl_min_le (rs.filter (fun r => decide (r.at_ ≤ now))) now
  obtain ⟨hmem, hle⟩ := List.mem_filter.mp hdue
  refine ⟨hmem, by simpa using hle, fun r' hr' => hat ▸ ?_⟩
  by_cases hd : r'.at_ ≤ now
  · exact hfirst r' (List.mem_filter.mpr ⟨hr', by simpa using hd⟩)
  · omega

theorem exec_napResponsePresent_of_next {s : State} {sec : Fin 240} {r : UserRsp} (hs : s.slotRuns = true)
    (hn : (s.nap sec).shown.map (fun x => x.1) ≠ some s.time.slots) (hr : nextResp (s.nap sec).resps s.time.slots = some r) :
    exec (.napResponsePresent sec) s =
      .next (s.setNap sec { s.nap sec with shown := some (s.time.slots, r), resps := (s.nap sec).resps.erase r }) := by
  rw [exec_napResponsePresent]
  unfold execNapResponsePresent
  dsimp only
  rw [if_pos (by rw [hs, Bool.true_and]; exact bne_iff_ne.mpr hn), hr]

/-! ### The user window -/

/-- The handles of the requests that are presented. -/
def usedHandles (p : Nap) : List Nat := (uwOpen p).filterMap (fun u => u.shown.map (fun x => x.1))

/-- The handles that are free. -/
def freeHandles (p : Nap) : List Nat := (List.range 16).filter (fun h => !(usedHandles p).contains h)

/-- The free handle that a draw picks. -/
def pickHandle (p : Nap) (n : Nat) : Nat := (freeHandles p).getD (Config.tagPick n % max 1 (freeHandles p).length) 0

theorem length_usedHandles_le (p : Nap) : (usedHandles p).length ≤ (uwOpen p).length := List.length_filterMap_le _ _

/-- With fewer requests presented than there are handles, one is free. -/
theorem freeHandles_ne_nil {p : Nap} (h : (uwOpen p).length < 16) : freeHandles p ≠ [] := by
  intro hnil
  have hsub : List.range 16 ⊆ usedHandles p := fun x hx => by
    have := List.filter_eq_nil_iff.mp hnil x hx
    simpa using this
  have hlen := (List.nodup_range.subperm hsub).length_le
  have hused := length_usedHandles_le p
  simp only [List.length_range] at hlen
  omega

theorem pickHandle_mem {p : Nap} (h : (uwOpen p).length < 16) (n : Nat) : pickHandle p n ∈ freeHandles p := by
  have hpos : 0 < (freeHandles p).length := List.length_pos_iff.mpr (freeHandles_ne_nil h)
  have hlt : Config.tagPick n % max 1 (freeHandles p).length < (freeHandles p).length := by
    rw [Nat.max_eq_right hpos]; exact Nat.mod_lt _ hpos
  unfold pickHandle
  rw [List.getD_eq_getElem _ _ hlt]
  exact List.getElem_mem hlt

/-- A handle that is free is below 16, and no request is presented under it. -/
theorem free_of_mem_freeHandles {p : Nap} {x : Nat} (h : x ∈ freeHandles p) :
    x < 16 ∧ ∀ u ∈ p.uw, u.shown.map (fun y => y.1) ≠ some x := by
  obtain ⟨hlt, hfree⟩ := List.mem_filter.mp h
  refine ⟨List.mem_range.mp hlt, fun u hu hx => ?_⟩
  have hshown : u.shown.isSome = true := by
    cases hs : u.shown with
    | none => rw [hs] at hx; cases hx
    | some y => rfl
  have hused : x ∈ usedHandles p := List.mem_filterMap.mpr ⟨u, List.mem_filter.mpr ⟨hu, hshown⟩, hx⟩
  simp [hused] at hfree

section
variable {s : State} {sec : Fin 240} {q : UwReq}

theorem exec_napTargetPresent_of_waiting (hm : s.mayIssue sec = true) (hc : s.clrOpen = false)
    (hn : (s.nap sec).uwShown.map (fun x => x.1) ≠ some s.time.slots) (hl : (uwOpen (s.nap sec)).length < (s.nap sec).tcred)
    (hq : (s.nap sec).uw.find? (fun q => q.shown.isNone) = some q) :
    let q1 := { q with shown := some (pickHandle (s.nap sec) s.fresh, s.time.slots) }
    exec (.napTargetPresent sec) s = .next ({ s with fresh := s.fresh + 1 }.setNap sec { s.nap sec with
      uw := (s.nap sec).uw.map (fun u => if u = q then q1 else u), uwShown := some (s.time.slots, q1) }) := by
  rw [exec_napTargetPresent]
  unfold execNapTargetPresent
  dsimp only
  rw [if_pos (by simp only [hm, hc, hl, bne_iff_ne.mpr hn, Bool.not_false, Bool.and_self, decide_true]), hq]
  rfl

section
variable (hm : s.mayIssue sec = true) (ha : (s.nap sec).ansAt ≠ some s.time.slots) (hv : s.view.afIn (uwTile sec) 0 = true)
include hm ha hv

theorem exec_napTargetAnswer_ignored
    (hq : (s.nap sec).uw.find? (fun q => q.shown.map (fun x => x.1) == some (s.view.afBus (uwTile sec) 11 4)) = none) :
    exec (.napTargetAnswer sec) s = .next (s.setNap sec { s.nap sec with ansAt := some s.time.slots }) := by
  rw [exec_napTargetAnswer]
  unfold execNapTargetAnswer
  dsimp only
  rw [if_pos (by simp [hm, ha, hv]), hq]

theorem exec_napTargetAnswer_of_presented
    (hq : (s.nap sec).uw.find? (fun q => q.shown.map (fun x => x.1) == some (s.view.afBus (uwTile sec) 11 4)) = some q) :
    exec (.napTargetAnswer sec) s = .next (uwAnswer (s.setNap sec { s.nap sec with ansAt := some s.time.slots }) sec q
      (s.view.afIn (uwTile sec) 55).toNat (s.view.afBus (uwTile sec) 66 64)) := by
  rw [exec_napTargetAnswer]
  unfold execNapTargetAnswer
  dsimp only
  rw [if_pos (by simp [hm, ha, hv]), hq]

end

/-- A request that has reached its limit: answered with SLVERR, recorded and counted (R270). -/
def napLate (s : State) (sec : Nat) (q : UwReq) : State :=
  ((uwAnswer s sec q 1 0).raiseF (Reg.SEC_NAP_STAT_TLATE sec)).incF (Reg.SEC_NAP_CNT_TLATE_CNT sec)

theorem napLate_reads (s : State) (sec : Nat) (q : UwReq) :
    (napLate s sec q).flag (Reg.SEC_NAP_STAT_TLATE sec) = true ∧
      (napLate s sec q).getF (Reg.SEC_NAP_CNT_TLATE_CNT sec) = min (s.getF (Reg.SEC_NAP_CNT_TLATE_CNT sec) + 1) (2 ^ 16 - 1) ∧
      BitsBut [Reg.SEC_NAP_STAT_TLATE sec, Reg.SEC_NAP_CNT_TLATE_CNT sec] s (napLate s sec q) :=
  raiseF_incF_reads (u := uwAnswer s sec q 1 0) rfl
    (by simp [Reg.SEC_NAP_STAT_TLATE, Reg.SEC_NAP_CNT_TLATE_CNT, Reg.SEC_NAP_STAT, Reg.SEC_NAP_CNT])
    (by simp [Reg.SEC_NAP_STAT_TLATE]) (by simp [Reg.SEC_NAP_CNT_TLATE_CNT])

/-- An answer changes the NAP and what waits for injection, and nothing else. -/
theorem uwAnswer_frame (s : State) (sec : Nat) (q : UwReq) (status data : Nat) :
    { uwAnswer s sec q status data with regs := s.regs, cyc := s.cyc, naps := s.naps, inject := s.inject } = s := rfl

theorem napLate_frame (s : State) (sec : Nat) (q : UwReq) :
    { napLate s sec q with regs := s.regs, cyc := s.cyc, naps := s.naps, inject := s.inject } = s :=
  raiseF_incF_frame _ _ (uwAnswer_frame s sec q 1 0)

theorem nap_napLate_of_single (hp : (s.nap sec).uw = [q]) : (napLate s sec q).nap sec = { s.nap sec with uw := [] } := by
  have h : (napLate s sec q).nap sec = { s.nap sec with uw := (s.nap sec).uw.erase q } := nap_setNap_self s sec _
  rw [h, hp, List.erase_cons_head]

theorem exec_napTargetLimit_of_late {h j : Nat} (hs : s.slotRuns = true) (hp : (s.nap sec).uw = [q]) (hq : q.shown = some (h, j))
    (hl : j + max 1 (s.getF (Reg.SEC_NAP_LIM_TGT_LIM sec)) ≤ s.time.slots) :
    exec (.napTargetLimit sec) s = .next (napLate s sec q) := by
  rw [exec_napTargetLimit]
  unfold execNapTargetLimit
  dsimp only
  rw [if_pos hs, hp, List.find?_cons_of_pos (by simp only [hq]; exact decide_eq_true hl)]
  rfl

end

/-! ### The fence -/

theorem exec_napFence_of_alive {s : State} {sec : Fin 240} (h : s.alive = true) :
    exec (.napFence sec) s = .next (s.putF (Reg.SEC_NAP_CTRL_FENCE sec) true) := if_pos h

theorem exec_napUnfence_of_alive {s : State} {sec : Fin 240} (h : s.alive = true) :
    exec (.napUnfence sec) s = .next (s.putF (Reg.SEC_NAP_CTRL_FENCE sec) false) := if_pos h

/-- A fence written reads as it was written, and no other bit changes. -/
theorem fence_putF (s : State) (sec : Nat) (b : Bool) :
    (s.putF (Reg.SEC_NAP_CTRL_FENCE sec) b).flag (Reg.SEC_NAP_CTRL_FENCE sec) = b ∧
      OnlyBits [Reg.SEC_NAP_CTRL_FENCE sec] s (s.putF (Reg.SEC_NAP_CTRL_FENCE sec) b) := by
  have hl : (Reg.SEC_NAP_CTRL_FENCE sec).lo ≤ (Reg.SEC_NAP_CTRL_FENCE sec).hi := Nat.le_refl 31
  have hh : (Reg.SEC_NAP_CTRL_FENCE sec).hi < 32 := Nat.lt_succ_self 31
  exact ⟨flag_putF s _ b hl hh, bitsBut_putF (bitsBut_refl _ s) _ b (List.mem_singleton.mpr rfl) hl hh, rfl⟩

/-! ### The obligation -/

/-- Settles O32: command by command, by what each does where its conditions hold. -/
theorem napPorts : Obligations.NapPorts := by
  unfold Obligations.NapPorts
  intro s sec p now may
  refine ⟨exec_napCreditGrant_of_free, fun hm hr hv => ?_, fun hs hn r hr => ?_, fun hm hc hn hl ht q hq => ?_,
    fun hm ha hv => ?_, fun hs q h j hp hq hl => ?_, fun ha => ⟨?_, ?_⟩⟩
  · intro q
    refine ⟨fun h h0 => ?_, exec_napInitiatorRequest_issue hm hr hv, fun hf h0 ho => ?_, fun hf hl => ?_⟩
    · obtain ⟨hflag, hcnt, hbits⟩ := napDiscard_reads s sec
      exact ⟨_, exec_napInitiatorRequest_discard hm hr hv h h0, hflag, hcnt, nap_setNap_self s sec _, hbits, rfl⟩
    · obtain ⟨hnap, hrest⟩ := napOwn_setNap s sec { p with reqAt := some now, cred := p.cred - 1 } q.2
      exact ⟨_, exec_napInitiatorRequest_refuse hm hr hv hf h0 ho, hnap, hrest⟩
    · obtain ⟨hnap, hrest⟩ := napOwn_setNap s sec { p with
        reqAt := some now, cred := p.cred - 1, lost := if p.cred = 0 then p.lost - 1 else p.lost } q.2
      exact ⟨_, exec_napInitiatorRequest_overtaken hm hr hv hf hl, hnap, hrest⟩
  · obtain ⟨hmem, hle, hfirst⟩ := nextResp_first hr
    exact ⟨hmem, hle, hfirst, exec_napResponsePresent_of_next hs hn hr⟩
  · obtain ⟨hlt, hfree⟩ := free_of_mem_freeHandles (pickHandle_mem (p := p) (by omega) s.fresh)
    exact ⟨_, hlt, hfree, exec_napTargetPresent_of_waiting hm hc hn hl hq⟩
  · exact ⟨exec_napTargetAnswer_ignored hm ha hv, fun q hq => exec_napTargetAnswer_of_presented hm ha hv hq⟩
  · obtain ⟨hflag, hcnt, hbits⟩ := napLate_reads s sec q
    exact ⟨_, exec_napTargetLimit_of_late hs hp hq hl, hflag, nap_napLate_of_single hp, hcnt, hbits, napLate_frame s sec q⟩
  · exact ⟨_, exec_napFence_of_alive ha, fence_putF s sec true⟩
  · exact ⟨_, exec_napUnfence_of_alive ha, fence_putF s sec false⟩

end Sys2Proof.Machine

/-!
SUPPORT. Machine time (02_machine_time.md R22 to R49): the commands at their effect tick, the counters of slots, ticks and frames, the
supply of timing commands, the group start, and the orbit.
-/

namespace Sys2Proof.Machine

/-! ### Commands at their effect tick -/

section
variable {s : State}

@[simp] theorem reg_dropDue (cmd o : Nat) : (dropDue s cmd).reg o = s.reg o := reg_of_regs (dropDue_regs s cmd) o
@[simp] theorem getF_dropDue (cmd : Nat) (f : Field) : (dropDue s cmd).getF f = s.getF f := getF_of_regs (dropDue_regs s cmd) f
@[simp] theorem flag_dropDue (cmd : Nat) (f : Field) : (dropDue s cmd).flag f = s.flag f := flag_of_regs (dropDue_regs s cmd) f
@[simp] theorem user_dropDue (cmd : Nat) : (dropDue s cmd).user = s.user := flag_dropDue cmd _

theorem exec_nop_of_turn (h : takesEffect s 0 [] = true) : exec .nop s = .next (dropDue s 0) :=
  (exec_nop s).trans (okIf_of_true _ _ h)

theorem exec_tickReset_of_turn (h : takesEffect s 2 [] = true) :
    exec .tickReset s = .next { s with time := { (dropDue s 2).time with tick := 0 } } :=
  (exec_tickReset s).trans (okIf_of_true _ _ h)

theorem exec_swapGo_of_turn (h : takesEffect s 5 [2, 1, 3, 4] = true) : exec .swapGo s =
    .next (if s.user then { s with time := { (dropDue s 5).time with swapGo := BitVec.ofNat 8 (dueOr s 5) } } else dropDue s 5) :=
  (exec_swapGo s).trans (okIf_of_true _ _ h)

theorem exec_testPulse_of_turn (h : takesEffect s 6 [2, 1, 3, 4, 5] = true) : exec .testPulse s =
    .next (if s.user then { s with time := { (dropDue s 6).time with
        test := true, testType := BitVec.ofNat 8 ((dueArgs s 6).getLastD 0) } } else dropDue s 6) :=
  (exec_testPulse s).trans (okIf_of_true _ _ h)

theorem exec_clearReq_of_turn (h : takesEffect s 4 [2, 1, 3] = true) : exec .clearReq s =
    .next (if s.user && !s.clrOpen then openWindow (dropDue s 4) else dropDue s 4) :=
  (exec_clearReq s).trans (okIf_of_true _ _ h)

theorem exec_frameReset_of_turn (h : takesEffect s 3 [2, 1] = true) : exec .frameReset s =
    .next (if midFrame s then forcedBoundary (dropDue s 3) 0 else (dropDue s 3).setReg Reg.TIME_FRAME 0) :=
  (exec_frameReset s).trans (okIf_of_true _ _ h)

end

/-- Settles O1: each command by the state it makes in its turn, and by whether the device is in user mode. -/
theorem timingCommandsTakeEffect : Obligations.TimingCommandsTakeEffect := by
  unfold Obligations.TimingCommandsTakeEffect
  intro s
  refine ⟨exec_nop_of_turn, exec_tickReset_of_turn, fun h hu => ?_, fun h hu => ?_, fun h hu => ?_, fun h hu => ?_⟩
  · rw [exec_swapGo_of_turn h, if_pos hu]
  · rw [exec_swapGo_of_turn h, if_neg (Bool.eq_false_iff.mp hu)]
  · rw [exec_testPulse_of_turn h, if_pos hu]
  · rw [exec_testPulse_of_turn h, if_neg (Bool.eq_false_iff.mp hu)]

/-! ### The clearing window and the counters at a frame boundary -/

section
variable (s : State)

/-- A requested link test that begins records when, saves the wire registers of its pair and clears them. -/
theorem rtOpen_eq : rtOpen s = { s with rt := (rtOpen s).rt, wreg := (rtOpen s).wreg } := by
  unfold rtOpen
  (repeat' split) <;> rfl

theorem clrOpen_openWindow : (openWindow s).clrOpen = true := by
  have h : (openWindow s).clrOpen = (s.raiseF Reg.TIME_STATUS_CLR).clrOpen := flag_of_regs (rtOpen_regs _) _
  rw [h]
  exact flag_raiseF s _ (by decide) (by decide)

theorem bitsBut_openWindow : BitsBut [Reg.TIME_STATUS_CLR] s (openWindow s) :=
  bitsBut_of_regs (bitsBut_raiseF (bitsBut_refl _ s) _ (by simp) (by decide) (by decide)) (rtOpen_regs _)

theorem openWindow_frame : { openWindow s with regs := s.regs, cyc := s.cyc, rt := s.rt, wreg := s.wreg } = s := by
  unfold openWindow
  rw [rtOpen_eq]
  rfl

variable (frame : Word32)

theorem reg_frameCount : (frameCount s frame).reg Reg.TIME_FRAME = frame := by
  unfold frameCount sampleLengths State.putF
  rw [reg_setF_ne _ _ _ _ (by decide), reg_setTime, reg_setTime, reg_setReg_self]

theorem tif_frameCount : (frameCount s frame).getF Reg.TIME_TIF_TIF = 0 := by
  unfold frameCount sampleLengths State.putF
  rw [getF_setF_reg_ne _ _ _ _ (by decide), getF_setTime, getF_setTime, getF_setReg_ne _ _ _ _ (by decide),
    getF_setF_self _ _ _ (by decide) (by decide), Nat.zero_mod]

theorem bitsBut_frameCount : BitsBut [wholeReg Reg.TIME_FRAME, Reg.TIME_TIF_TIF, Reg.TIME_STATUS_CLAMP] s (frameCount s frame) :=
  have htif := bitsBut_setF (bitsBut_refl [wholeReg Reg.TIME_FRAME, Reg.TIME_TIF_TIF, Reg.TIME_STATUS_CLAMP] s) Reg.TIME_TIF_TIF 0
    (by simp) (by decide) (by decide)
  have hframe := bitsBut_setReg htif Reg.TIME_FRAME frame (by simp)
  bitsBut_putF (bitsBut_of_regs hframe rfl) Reg.TIME_STATUS_CLAMP _ (by simp) (by decide) (by decide)

/-- A boundary changes registers and machine time alone. -/
theorem frameCount_frame : { frameCount s frame with regs := s.regs, time := s.time } = s := by
  unfold frameCount sampleLengths
  rfl

/-- Of machine time it changes FRAME_STB and the lengths sampled. -/
theorem time_frameCount : (frameCount s frame).time =
    { s.time with frameStb := true, len := (frameCount s frame).time.len, clr := (frameCount s frame).time.clr } := rfl

end

/-- Settles O2: the window by what opening it does; FRAME_RESET by whether the tick is tick 0 of a frame. -/
theorem windowAndFrameReset : Obligations.WindowAndFrameReset := by
  unfold Obligations.WindowAndFrameReset
  intro s
  refine ⟨fun h hu hc => ?_, fun h hc => ?_, fun h0 hu hc hl => ?_, fun h htif => ?_, fun h htif hu => ?_⟩
  · have hopen : (s.user && !s.clrOpen) = true := by rw [hu, hc]; rfl
    refine ⟨openWindow (dropDue s 4), ?_, clrOpen_openWindow _, openWindow_time _, bitsBut_openWindow (dropDue s 4),
      congrArg (fun x : State => { x with time := s.time }) (openWindow_frame (dropDue s 4))⟩
    rw [exec_clearReq_of_turn h, if_pos hopen]
  · rw [exec_clearReq_of_turn h, if_neg (Bool.eq_false_iff.mp hc)]
  · refine ⟨openWindow s, ?_, clrOpen_openWindow s, bitsBut_openWindow s, openWindow_frame s⟩
    exact (exec_clearingWindowOpen s).trans (okIf_of_true _ _ (by simp [h0, hu, hc, hl]))
  · refine ⟨(dropDue s 3).setReg Reg.TIME_FRAME 0, ?_, reg_setReg_self _ _ _,
      bitsBut_setReg (bitsBut_of_regs (bitsBut_refl _ s) (dropDue_regs s 3)) _ _ (by simp), rfl, rfl⟩
    rw [exec_frameReset_of_turn h, if_neg (by simp [midFrame, htif])]
  · have htime := time_frameCount (dropDue s 3) 0
    refine ⟨frameCount (dropDue s 3) 0, ?_, reg_frameCount _ _, tif_frameCount _ _, congrArg TimeState.frameStb htime,
      (congrArg TimeState.tick htime :), bitsBut_frameCount (dropDue s 3) 0,
      congrArg (fun x : State => { x with cyc := s.cyc, time := s.time }) (frameCount_frame (dropDue s 3) 0)⟩
    rw [exec_frameReset_of_turn h, if_pos (by simp [midFrame, htif])]
    unfold forcedBoundary
    rw [user_dropDue, if_neg (Bool.eq_false_iff.mp hu)]
/-! ### The counters of a slot

A slot is one of few operations that change machine time; TICK and the slot counter are what the parts of it leave alone. -/

/-- TICK and the slot counter. -/
def State.counts (s : State) : BitVec 48 × Nat := (s.time.tick, s.time.slots)

theorem counts_of_time {s t : State} (h : t.time = s.time) : t.counts = s.counts := by unfold State.counts; rw [h]

@[simp] theorem counts_sampleMarker (s : State) (pins : BitVec 96) : (sampleMarker s pins).counts = s.counts := by
  unfold sampleMarker
  dsimp only
  split <;> rfl

@[simp] theorem counts_timingWord (s : State) (bad k1 k2 : Bool) (c1 c2 : Nat) :
    (timingWord s bad k1 k2 c1 c2).counts = s.counts := by
  unfold timingWord
  dsimp only
  split
  · rfl
  · split <;> rfl

@[simp] theorem counts_timingChar (acc : State × List RxChar) (c : RxChar) : (timingChar acc c).1.counts = acc.1.counts := by
  unfold timingChar
  split
  · split <;> rfl
  · rfl
  · exact counts_timingWord _ _ _ _ _ _

theorem counts_timingChars (cs : List RxChar) (acc : State × List RxChar) : (cs.foldl timingChar acc).1.counts = acc.1.counts := by
  induction cs generalizing acc with
  | nil => rfl
  | cons c cs ih => rw [List.foldl_cons, ih, counts_timingChar]

@[simp] theorem counts_feTiming (s : State) (n : Nat) : (feTiming s n).counts = s.counts := by
  unfold feTiming
  dsimp only
  split
  · rfl
  · exact counts_timingChars _ (s, _)

@[simp] theorem counts_feTimings (s : State) : (feTimings s).counts = s.counts := by
  unfold feTimings
  split
  · exact counts_feTiming _ _
  · rfl

theorem counts_slotStart (s : State) (pins : BitVec 96) : (slotStart s pins).counts = s.counts :=
  (counts_of_time (by simp [slotStart])).trans (counts_sampleMarker s pins)

theorem counts_slotUnits (s : State) : (slotUnits s).counts = s.counts := by
  unfold slotUnits
  dsimp only
  rw [apply_ite State.counts, counts_of_time (gpioTake_time _ _), ite_self, counts_of_time (napsSlot_time _),
    counts_of_time (tkBeatEnd_time _), counts_of_time (feBeatEnd_time _), counts_feTimings]
  exact counts_of_time (by simp)

/-- The end of a root switch sets the slot count of the tick and its length, and nothing else of machine time. -/
theorem counts_rampSlot (s : State) : (rampSlot s).counts = s.counts := by
  have hdone (u : State) : (rootDone u).counts = u.counts := by
    have h : (rootDone u).time = { u.time with tickSlots := (rootDone u).time.tickSlots, inTick := (rootDone u).time.inTick } := by
      simp [rootDone]
    unfold State.counts
    rw [h]
  unfold rampSlot
  split
  · rfl
  · refine counts_of_time ?_
    (repeat' split) <;> simp
  · split
    · exact hdone s
    · refine counts_of_time ?_
      dsimp only
      split <;> simp

theorem counts_slotEnd (s : State) : (slotEnd s).counts = (s.time.tick, s.time.slots + 1) := by
  unfold slotEnd
  have hcount : (rampSlot (rtSlot (slotCount s))).counts = (slotCount s).counts :=
    (counts_rampSlot _).trans (counts_of_time (rtSlot_time _))
  have hrest (u : State) : (haltSlot (slotBegins (flStart (blkSlot u)).newSlot)).counts = u.counts := counts_of_time (by simp)
  rw [hrest, apply_ite State.counts, counts_of_time (tellersSlot_time _), counts_of_time (scrubFixes_time _), ite_self, hcount]
  rfl

theorem exec_slot_of_runs {s : State} (pins : BitVec 96) (h : s.slotRuns = true) :
    exec (.slot pins) s = .next (slotEnd (slotUnits (slotStart s pins))) :=
  (exec_slot s pins).trans (okIf_of_true _ _ h)

theorem counts_slot (s : State) (pins : BitVec 96) :
    (slotEnd (slotUnits (slotStart s pins))).counts = (s.time.tick, s.time.slots + 1) := by
  have h : (slotUnits (slotStart s pins)).counts = s.counts := (counts_slotUnits _).trans (counts_slotStart s pins)
  obtain ⟨htick, hslots⟩ := Prod.mk.inj h
  rw [counts_slotEnd, htick, hslots]

/-! ### What begins with a slot leaves the registers of machine time

A table entry of a sector that the device does not have reaches other registers, but none below the counter of taints. -/

/-- The registers up to FRAME, among them TIME_STATUS, TIF and FRAME, read in `t` what they read in `s`. -/
def TimeRegsKept (s t : State) : Prop := ∀ o ≤ Reg.TIME_FRAME, t.reg o = s.reg o

section
variable {s t u : State}

theorem timeRegsKept_of_regs (h : t.regs = s.regs) : TimeRegsKept s t := fun o _ => reg_of_regs h o

theorem TimeRegsKept.trans (h : TimeRegsKept s t) (h2 : TimeRegsKept t u) : TimeRegsKept s u :=
  fun o ho => (h2 o ho).trans (h o ho)

theorem TimeRegsKept.getF (h : TimeRegsKept s t) {f : Field} (hf : f.reg ≤ Reg.TIME_FRAME) : t.getF f = s.getF f := by
  unfold State.getF; rw [h _ hf]

theorem TimeRegsKept.flag (h : TimeRegsKept s t) {f : Field} (hf : f.reg ≤ Reg.TIME_FRAME) : t.flag f = s.flag f := by
  unfold State.flag; rw [h.getF hf]

theorem TimeRegsKept.setF (h : TimeRegsKept s t) {f : Field} (v : Nat) (hf : Reg.TIME_FRAME < f.reg) : TimeRegsKept s (t.setF f v) :=
  fun o ho => (reg_setF_ne t f v o (by omega)).trans (h o ho)

theorem TimeRegsKept.raiseF (h : TimeRegsKept s t) {f : Field} (hf : Reg.TIME_FRAME < f.reg) : TimeRegsKept s (t.raiseF f) :=
  h.setF 1 hf

theorem TimeRegsKept.clearF (h : TimeRegsKept s t) {f : Field} (hf : Reg.TIME_FRAME < f.reg) : TimeRegsKept s (t.clearF f) :=
  h.setF 0 hf

theorem TimeRegsKept.addF (h : TimeRegsKept s t) {f : Field} (n : Nat) (hf : Reg.TIME_FRAME < f.reg) : TimeRegsKept s (t.addF f n) :=
  h.setF _ hf

theorem TimeRegsKept.of_regs (h : TimeRegsKept s t) (e : u.regs = t.regs) : TimeRegsKept s u := h.trans (timeRegsKept_of_regs e)

end

theorem timeRegsKept_refl (s : State) : TimeRegsKept s s := fun _ _ => rfl

theorem timeRegsKept_foldl {α : Type} {g : State → α → State} (h : ∀ s x, TimeRegsKept s (g s x)) (l : List α) (s : State) :
    TimeRegsKept s (l.foldl g s) := by
  induction l generalizing s with
  | nil => exact timeRegsKept_refl s
  | cons x l ih => exact (h s x).trans (ih _)

section
variable (s : State) (sec : Nat)

theorem timeRegsKept_taintSector : TimeRegsKept s (s.taintSector sec) := by
  unfold State.taintSector
  split
  · exact timeRegsKept_refl s
  · exact ((timeRegsKept_of_regs rfl).raiseF (by simp only [mapBit, Reg.TIME_TAINT, Reg.TIME_FRAME]; omega)).addF 1 (by decide)

theorem timeRegsKept_matcherClear : TimeRegsKept s (matcherClear s sec) := by
  have hclear : TimeRegsKept s ((s.setMatcher sec { Matcher.reset with
      check := (s.matcher sec).check, checkAt := (s.matcher sec).checkAt, waited := (s.matcher sec).waited }).clearF
        (Reg.SEC_MT_STAT_DRAINING sec)) :=
    (timeRegsKept_of_regs rfl).clearF (by simp only [Reg.SEC_MT_STAT_DRAINING, Reg.SEC_MT_STAT, Reg.TIME_FRAME]; omega)
  unfold matcherClear
  dsimp only
  split
  · exact hclear
  · exact (hclear.raiseF (by simp only [Reg.SEC_MT_STAT_LOST, Reg.SEC_MT_STAT, Reg.TIME_FRAME]; omega)).addF _
      (by simp only [Reg.SEC_MT_LOST_LOST_CNT, Reg.SEC_MT_LOST, Reg.TIME_FRAME]; omega)

theorem timeRegsKept_tlrReset : TimeRegsKept s (tlrReset s sec) :=
  have hstate := (timeRegsKept_of_regs (tlrAbandon_regs s sec)).setF (f := Reg.SEC_TLR_STAT_STATE sec) 0
    (by simp only [Reg.SEC_TLR_STAT_STATE, Reg.SEC_TLR_STAT, Reg.TIME_FRAME]; omega)
  hstate.of_regs (State.setTlr_regs _ _ _)

theorem timeFrame_lt_held : Reg.TIME_FRAME < (mapBit (Reg.SCRB_HELD ·) sec).reg := by
  simp only [mapBit, Reg.SCRB_HELD, Reg.TIME_FRAME]; omega

theorem timeRegsKept_holdBegin : TimeRegsKept s (holdBegin s sec) :=
  have hclear : TimeRegsKept s (wregClear (sregReset (s.raiseF (mapBit (Reg.SCRB_HELD ·) sec)) (fun x _ => x == sec)) (· == sec)) :=
    ((timeRegsKept_refl s).raiseF (timeFrame_lt_held sec)).of_regs (by simp)
  (hclear.trans (timeRegsKept_matcherClear _ sec)).of_regs (accHeld_regs _)

theorem timeRegsKept_leaveFailed : TimeRegsKept s (leaveFailed s sec) := by
  unfold leaveFailed
  dsimp only
  split
  · exact timeRegsKept_refl s
  · have hstate (v : Nat) : TimeRegsKept s (s.setF (Reg.SCRB_SSTAT_STATE sec) v) :=
      (timeRegsKept_refl s).setF v (by simp only [Reg.SCRB_SSTAT_STATE, Reg.SCRB_SSTAT, Reg.TIME_FRAME]; omega)
    split
    · exact hstate _
    · exact (hstate _).clearF (timeFrame_lt_held sec)

theorem timeRegsKept_dueStep : TimeRegsKept s (dueStep s sec) := by
  unfold dueStep
  refine (timeRegsKept_of_regs (State.setScrub_regs s sec _)).trans (timeRegsKept_foldl (fun t e => ?_) _ _)
  split
  · exact timeRegsKept_taintSector t sec
  · exact (timeRegsKept_taintSector t sec).trans (timeRegsKept_holdBegin _ sec)
  · exact (timeRegsKept_refl t).clearF (timeFrame_lt_held sec)
  · exact timeRegsKept_holdBegin t sec
  · exact timeRegsKept_leaveFailed t sec

theorem timeRegsKept_blkBegin : TimeRegsKept s (blkBegin s) := by
  unfold blkBegin
  split
  · rename_i b _
    have htaint : TimeRegsKept s { s.taintSector b with blk := some (b, 64) } := (timeRegsKept_taintSector s b).of_regs rfl
    exact (htaint.trans (timeRegsKept_tlrReset _ b)).trans (timeRegsKept_matcherClear _ b)
  · exact timeRegsKept_refl s

theorem timeRegsKept_slotBegins : TimeRegsKept s (slotBegins s) := by
  unfold slotBegins
  split
  · exact timeRegsKept_refl s
  · exact (timeRegsKept_foldl timeRegsKept_dueStep _ s).trans (timeRegsKept_blkBegin _)

end

/-! ### The boundaries of ticks and of frames before user mode -/

/-- Machine time at a tick boundary inside a frame: its counts have moved on, and TIF with them. -/
def tickCounted (s : State) : State := (tickAdvance s).setF Reg.TIME_TIF_TIF (s.getF Reg.TIME_TIF_TIF + 1)

section
variable {s t : State}

theorem exec_tickBoundary_of_over (ho : s.tickOver = true) (hl : s.lastTick = false) : exec .tickBoundary s =
    .next (slotBegins (if s.user then tlrLatchAll (ringStep (tickCounted s)) (fun _ => 1) else tickCounted s).begin) :=
  (exec_tickBoundary s).trans (okIf_of_true _ _ (by simp [ho, hl]))

theorem exec_frameBoundary_early (ho : s.tickOver = true) (hl : s.lastTick = true) (hu : s.user = false) :
    exec .frameBoundary s = .next (slotBegins (frameCount (tickAdvance s.begin) (nextFrame s))) := by
  refine (exec_frameBoundary s).trans ((okIf_of_true _ _ (by simp [ho, hl])).trans ?_)
  rw [if_neg (Bool.eq_false_iff.mp hu)]

theorem fusesKept_of_kept (h : t.kept = s.kept) : FusesKept s t := by
  obtain ⟨-, h1⟩ := Prod.mk.inj h
  obtain ⟨-, h2⟩ := Prod.mk.inj h1
  obtain ⟨hokey, hfloor⟩ := Prod.mk.inj h2
  exact ⟨fun i hi => hokey ▸ hi, fun i hi => hfloor ▸ hi⟩

theorem flash_of_kept (h : t.kept = s.kept) : t.flash = s.flash := congrArg (fun k => k.2.1) h

/-- What `State.kept` shows, part by part. -/
theorem parts_of_kept (h : t.kept = s.kept) : t.pending = s.pending ∧ t.flash = s.flash ∧ FusesKept s t :=
  ⟨pending_of_kept h, flash_of_kept h, fusesKept_of_kept h⟩

end

/-- Settles O3: a slot by its counters, a boundary by its own counts and by what the slot that begins leaves alone. -/
theorem slotsTicksAndFramesCount : Obligations.SlotsTicksAndFramesCount := by
  unfold Obligations.SlotsTicksAndFramesCount
  intro s
  refine ⟨fun pins hr => ?_, fun ho hl => ?_, fun ho hl hu => ?_⟩
  · obtain ⟨htick, hslots⟩ := Prod.mk.inj (counts_slot s pins)
    exact ⟨_, exec_slot_of_runs pins hr, hslots, htick, parts_of_kept (by simp)⟩
  · generalize ht : (if s.user then tlrLatchAll (ringStep (tickCounted s)) (fun _ => 1) else tickCounted s).begin = t
    have htime : t.time = (tickAdvance s).time := by rw [← ht]; split <;> simp [tickCounted]
    have hregs : t.regs = (tickCounted s).regs := by rw [← ht]; split <;> simp
    have hkept : t.kept = s.kept := by rw [← ht]; split <;> simp [tickCounted]
    have hbegins : (slotBegins t).time = (tickAdvance s).time := (slotBegins_time t).trans htime
    have hlow := (timeRegsKept_of_regs hregs).trans (timeRegsKept_slotBegins t)
    refine ⟨slotBegins t, ht ▸ exec_tickBoundary_of_over ho hl, (congrArg TimeState.tick hbegins :),
      congrArg TimeState.inTick hbegins, (congrArg TimeState.slots hbegins :), congrArg TimeState.frameStb hbegins,
      congrArg TimeState.test hbegins, ?_, ?_,
      parts_of_kept ((slotBegins_kept t).trans hkept)⟩
    · rw [hlow.getF (by decide)]
      exact getF_setF_self _ _ _ (by decide) (by decide)
    · rw [hlow _ (Nat.le_refl _)]
      exact (reg_setF_ne _ _ _ _ (by decide)).trans (reg_of_regs (tickAdvance_regs s) _)
  · generalize ht : frameCount (tickAdvance s.begin) (nextFrame s) = t
    have hbegins : (slotBegins t).time =
        { (tickAdvance s.begin).time with frameStb := true, len := t.time.len, clr := t.time.clr } :=
      (slotBegins_time t).trans (ht ▸ time_frameCount _ _)
    have hlow := timeRegsKept_slotBegins t
    refine ⟨slotBegins t, ht ▸ exec_frameBoundary_early ho hl hu, (congrArg TimeState.tick hbegins :),
      congrArg TimeState.inTick hbegins, (congrArg TimeState.slots hbegins :), congrArg TimeState.frameStb hbegins, ?_, ?_,
      parts_of_kept (by rw [slotBegins_kept, ← ht]; simp)⟩
    · rw [hlow.getF (by decide), ← ht, tif_frameCount]
    · rw [hlow _ (Nat.le_refl _), ← ht, reg_frameCount]
      rfl

/-! ### Timing words -/

section
variable {s : State} {n : Nat}

theorem feTiming_of_presented {cs : List RxChar} (hl : s.logs = true) (hs : suppliesWords s n = true) (hk : feLocked s n = true)
    (ha : (s.feLane n).timedAt ≠ some (s.time.slots / 8)) (hw : feBeatWord s n = some cs) :
    feTiming s n = (cs.foldl timingChar (s, (s.feLane n).part)).1.setFe n { s.feLane n with
      part := (cs.foldl timingChar (s, (s.feLane n).part)).2, timedAt := some (s.time.slots / 8) } := by
  unfold feTiming
  dsimp only
  rw [if_pos (by simp [hl, hs, hk, ha]), hw]

theorem feTiming_of_none (h : s.logs = false ∨ suppliesWords s n = false ∨ feLocked s n = false ∨
    (s.feLane n).timedAt = some (s.time.slots / 8) ∨ feBeatWord s n = none) : feTiming s n = s := by
  have hnone : (if s.logs && suppliesWords s n && feLocked s n && (s.feLane n).timedAt != some (s.time.slots / 8) then feBeatWord s n
      else none) = none := by
    obtain h | h | h | h | h := h <;> simp [h]
  unfold feTiming
  dsimp only
  rw [hnone]

end

theorem timingChar_begin (s : State) (c : RxChar) :
    timingChar (s, []) c = (s, if c.k ∧ c.v = 0x3C then [c] else []) := by
  unfold timingChar
  dsimp only
  by_cases h : c.k ∧ c.v = 0x3C
  · rw [if_pos h, if_pos (by simpa using h)]
  · rw [if_neg h, if_neg (by simpa using h)]

/-- The checks of the word that characters `b` and `c` complete after the K28.1 `a` (R27). -/
def wordPasses (s : State) (a b c : RxChar) : Bool :=
  !(a.cv || a.rdErr || b.cv || b.rdErr || c.cv || c.rdErr) && !b.k && !c.k &&
    s.time.wordBeat != some (s.time.slots / 8) && timingChk (256 * b.v + c.v) == (256 * b.v + c.v) % 16

/-- The state with the present beat recorded as one in which a timing word has completed. -/
def State.wordDone (s : State) : State := { s with time := { s.time with wordBeat := some (s.time.slots / 8) } }

/-- A word that completes: discarded by the first check it fails, or its command waits. -/
theorem timingChar_complete (s : State) (a b c : RxChar) : timingChar (s, [a, b]) c =
    (if wordPasses s a b c then
      if 7 ≤ (256 * b.v + c.v) / 4096 then discardWord s.wordDone Reg.TIME_ERR_UNK_CMD
      else schedule s.wordDone ((256 * b.v + c.v) / 4096) ((256 * b.v + c.v) / 16 % 256)
    else discardWord s.wordDone Reg.TIME_ERR_CHK_ERR, []) := by
  have hbad : ([a, b, c].any (fun x => x.cv || x.rdErr) || b.k || c.k || s.time.wordBeat == some (s.time.slots / 8) ||
      timingChk (256 * b.v + c.v) != (256 * b.v + c.v) % 16) = !wordPasses s a b c := by
    simp [wordPasses, bne, Bool.or_assoc]
  change (timingWord s _ b.k c.k b.v c.v, ([] : List RxChar)) = _
  unfold timingWord
  dsimp only
  rw [hbad]
  cases wordPasses s a b c <;> rfl

/-- A discarded word is counted once and raises event 284. -/
theorem discardWord_reads (s : State) {f : Field} (hl : f.lo ≤ f.hi) (hh : f.hi < 32) :
    (discardWord s f).getF f = min (s.getF f + 1) (2 ^ (f.hi + 1 - f.lo) - 1) ∧
    (discardWord s f).raised = (s.raiseEv 284).raised ∧ BitsBut [f] s (discardWord s f) ∧
    { discardWord s f with regs := s.regs, cyc := s.cyc, raised := s.raised } = s :=
  ⟨(getF_raiseEv _ _ _).trans (getF_addF s f 1 hl hh), raiseEv_raised_congr 284 rfl (incF_evs s f) rfl rfl,
    bitsBut_incF (bitsBut_refl _ s) f (by simp) hl hh, rfl⟩

theorem exec_orbitMarkerEdge_of_edge {s : State} (start : Bool) (hr : s.slotRuns = true) (hk : s.k = 0) (hsrc : s.time.src = 2)
    (hp : s.getF Reg.TIME_CMD_ORB_PIN < 96) (hlow : 2 ≤ s.time.lows) (hsel : s.time.pinSel = s.getF Reg.TIME_CMD_ORB_PIN) :
    exec (.orbitMarkerEdge start) s = .next (schedule (s.setTime { s.time with lows := 0 }) 1
      (start && s.getF Reg.TIME_CMD_START_PIN < 96).toNat) :=
  (exec_orbitMarkerEdge s start).trans (okIf_of_true _ _ (by simp [hr, hk, hsrc, hp, hlow, hsel]))

/-- Settles O4: the decoder by whether the lane presents a word, a character by those held before it, a word by its checks. -/
theorem timingCommandsAreSupplied : Obligations.TimingCommandsAreSupplied := by
  unfold Obligations.TimingCommandsAreSupplied
  intro s
  refine ⟨fun lane cs hl hs hk ha hw => ?_, fun lane h => ?_, fun c => ⟨timingChar_begin s c, fun _ => rfl⟩, fun a b c => ?_,
    exec_orbitMarkerEdge_of_edge⟩
  · exact (exec_timingWord s lane () () () () ()).trans (congrArg Host.Outcome.next (feTiming_of_presented hl hs hk ha hw))
  · exact (exec_timingWord s lane () () () () ()).trans (congrArg Host.Outcome.next (feTiming_of_none h))
  · intro w good
    have hw := timingChar_complete s a b c
    refine ⟨fun hg hc => ?_, fun hg hc => ?_, fun hg => ?_⟩
    · have hpass : wordPasses s a b c = true := hg
      rw [if_pos hpass, if_neg (Nat.not_le.mpr hc)] at hw
      exact hw
    · have hpass : wordPasses s a b c = true := hg
      rw [if_pos hpass, if_pos hc] at hw
      exact ⟨_, hw, discardWord_reads s.wordDone (by decide) (by decide)⟩
    · have hfail : wordPasses s a b c = false := hg
      rw [if_neg (Bool.eq_false_iff.mp hfail)] at hw
      exact ⟨_, hw, discardWord_reads s.wordDone (by decide) (by decide)⟩

/-! ### The group start -/

section
variable {s : State}

theorem exec_doneRise_of_rise (h0 : s.slot0 = true) (hd : s.time.doneHigh = false) (hr : s.ld.doneRel = true) :
    exec .doneRise s =
      let s1 := s.setTime { s.time with doneHigh := true }
      if s.user || s.time.doneSeen then ok s1
      else if s.time.src = 1 ∨ s.time.src = 2 then
        ok (((s1.setTime { s1.time with doneSeen := true, remindIn := s.time.len }).raiseF Reg.TIME_STATUS_WAIT_ORBIT).raiseEv 285)
      else ok (s1.setTime { s1.time with doneSeen := true, startIn := some 64 }) :=
  (exec_doneRise s).trans (if_pos (by simp [h0, hd, hr]))

theorem exec_doneFall_of_fall (h0 : s.slot0 = true) (hd : s.time.doneHigh = true) :
    exec .doneFall s =
      let s1 := s.setTime { s.time with doneHigh := false }
      .next (if s.user && (s.getF Reg.RST_STRAP_CODE).testBit 0 then (s1.raiseF Reg.TIME_STATUS_DONE_DROP).raiseEv 285 else s1) :=
  (exec_doneFall s).trans (okIf_of_true _ _ (by simp [h0, hd]))

/-- A flag raised with its event after a change of machine time: what of the state differs, and how. -/
theorem raiseF_raiseEv_reads (s : State) (x : TimeState) (e : Nat) {f : Field} (hl : f.lo ≤ f.hi) (hh : f.hi < 32) :
    let t := ((s.setTime x).raiseF f).raiseEv e
    t.flag f = true ∧ t.raised = (s.raiseEv e).raised ∧ t.time = x ∧ BitsBut [f] s t ∧
    { t with regs := s.regs, cyc := s.cyc, raised := s.raised, time := s.time } = s :=
  ⟨(flag_raiseEv _ _ _).trans (flag_raiseF _ f hl hh), raiseEv_raised_congr e rfl (raiseF_evs _ f) rfl rfl, rfl,
    bitsBut_raiseF (bitsBut_refl _ s) f (by simp) hl hh, rfl⟩

end

/-- Settles O5: command by command, by what each does where its conditions hold. -/
theorem groupStartCommands : Obligations.GroupStartCommands := by
  unfold Obligations.GroupStartCommands
  intro s
  refine ⟨fun h0 hd hr hu => ?_, fun h0 hd hr hu hsrc => ?_, fun h0 hd hr hu h1 h2 => ?_, fun h0 hw hi => ?_, fun h0 hd hg => ?_,
    fun h0 hd hg => ?_, fun ha hw => ?_, fun ha hw => ?_, fun ha => ?_⟩
  · rw [exec_doneRise_of_rise h0 hd hr]
    exact if_pos hu
  · refine ⟨_, ?_, raiseF_raiseEv_reads s _ 285 (by decide) (by decide)⟩
    rw [exec_doneRise_of_rise h0 hd hr]
    exact (if_neg (Bool.eq_false_iff.mp hu)).trans (if_pos hsrc)
  · rw [exec_doneRise_of_rise h0 hd hr]
    exact (if_neg (Bool.eq_false_iff.mp hu)).trans (if_neg (not_or.mpr ⟨h1, h2⟩))
  · refine ⟨(s.setTime { s.time with remindIn := s.time.len }).raiseEv 285, ?_, rfl, rfl, rfl⟩
    exact (exec_waitOrbitReminder s).trans (okIf_of_true _ _ (by simp [h0, hw, hi]))
  · refine ⟨_, ?_, raiseF_raiseEv_reads s { s.time with doneHigh := false } 285 (by decide) (by decide)⟩
    rw [exec_doneFall_of_fall h0 hd]
    exact congrArg Host.Outcome.next (if_pos hg)
  · rw [exec_doneFall_of_fall h0 hd]
    exact congrArg Host.Outcome.next (if_neg (Bool.eq_false_iff.mp hg))
  · exact ((exec_startForce s).trans (okIf_of_true _ _ ha)).trans (congrArg Host.Outcome.next (if_pos hw))
  · exact ((exec_startForce s).trans (okIf_of_true _ _ ha)).trans (congrArg Host.Outcome.next (if_neg (Bool.eq_false_iff.mp hw)))
  · exact ⟨_, (exec_tickLoRead s).trans (okIf_of_true _ _ ha), rfl, reg_setReg_self _ _ _,
      bitsBut_setReg (bitsBut_refl _ s) _ _ (by simp), rfl⟩

/-! ### The orbit and the start of user mode -/

/-- A field that shares no bit with those that may differ reads the same. -/
theorem getF_of_bitsBut {fs : List Field} {s t : State} (h : BitsBut fs s t) {g : Field}
    (hd : ∀ f ∈ fs, f.reg = g.reg → g.hi < f.lo ∨ f.hi < g.lo) : t.getF g = s.getF g := by
  unfold State.getF
  apply Nat.eq_of_testBit_eq
  intro i
  rw [testBit_field, testBit_field]
  by_cases hi : i < g.hi + 1 - g.lo
  · have hbit := h g.reg (g.lo + i) (fun f hf hr => by
      have := hd f hf hr
      omega)
    rw [show (t.reg g.reg).toNat.testBit (g.lo + i) = (s.reg g.reg).toNat.testBit (g.lo + i) from hbit]
  · simp [hi]

theorem flag_of_bitsBut {fs : List Field} {s t : State} (h : BitsBut fs s t) {g : Field}
    (hd : ∀ f ∈ fs, f.reg = g.reg → g.hi < f.lo ∨ f.hi < g.lo) : t.flag g = s.flag g := by
  unfold State.flag
  rw [getF_of_bitsBut h hd]

/-- What every ORBIT does first: it leaves the queue and is seen. -/
def orbitSeen (s : State) : State := (dropDue s 1).raiseF Reg.TIME_STATUS_ORB_SEEN

/-- What every ORBIT of user mode does to SLIP, which it ends (R49). -/
def slipEnded (s : State) : State := s.clearF Reg.TIME_STATUS_SLIP

/-- What an ORBIT outside tick 0 of a frame does where ORB_MODE checks: a miss is counted, with its event (R32). -/
def orbitMissed (s : State) : State := (s.incF Reg.TIME_ERR_ORB_MISS).raiseEv 285

section
variable {s : State}

theorem exec_orbit_of_turn (h : takesEffect s 1 [2] = true) : exec .orbit s =
    .next (if s.user then orbitUser (orbitSeen s)
      else orbitEarly (if startOrbit s then (orbitSeen s).setTime { (orbitSeen s).time with startIn := some 0 } else orbitSeen s)) :=
  (exec_orbit s).trans (okIf_of_true _ _ h)

theorem orbitUser_of_tick0 (h : s.getF Reg.TIME_TIF_TIF = 0) : orbitUser s = slipEnded s := by
  simp [orbitUser, midFrame, h, slipEnded]

theorem orbitUser_of_miss (h : s.getF Reg.TIME_TIF_TIF ≠ 0) (hm : s.getF Reg.TIME_CTRL_ORB_MODE = 1)
    (hs : s.flag Reg.TIME_STATUS_SLIP = false) : orbitUser s = slipEnded (orbitMissed s) := by
  simp [orbitUser, midFrame, h, hm, hs, slipEnded, orbitMissed]

theorem orbitEarly_of_not_aligning (h : s.getF Reg.TIME_CTRL_ORB_MODE ≠ 2) : orbitEarly s = s := by
  simp [orbitEarly, h]

end

section
variable (s : State)

theorem bitsBut_orbitSeen : BitsBut [Reg.TIME_STATUS_ORB_SEEN] s (orbitSeen s) :=
  bitsBut_raiseF (bitsBut_of_regs (bitsBut_refl _ s) (dropDue_regs s 1)) _ (by simp) (by decide) (by decide)

theorem flag_orbitSeen : (orbitSeen s).flag Reg.TIME_STATUS_ORB_SEEN = true := flag_raiseF _ _ (by decide) (by decide)

theorem orbitSeen_frame : { orbitSeen s with regs := s.regs, cyc := s.cyc, time := s.time } = s := rfl

theorem bitsBut_slipEnded : BitsBut [Reg.TIME_STATUS_SLIP] s (slipEnded s) :=
  bitsBut_clearF (bitsBut_refl _ s) _ (by simp) (by decide) (by decide)

theorem slipEnded_frame : { slipEnded s with regs := s.regs } = s := rfl

theorem bitsBut_orbitMissed : BitsBut [Reg.TIME_ERR_ORB_MISS] s (orbitMissed s) :=
  bitsBut_incF (bitsBut_refl _ s) _ (by simp) (by decide) (by decide)

theorem orbMiss_orbitMissed : (orbitMissed s).getF Reg.TIME_ERR_ORB_MISS = min (s.getF Reg.TIME_ERR_ORB_MISS + 1) 255 :=
  (getF_raiseEv _ _ _).trans (getF_addF s _ 1 (by decide) (by decide))

theorem raised_orbitMissed : (orbitMissed s).raised = (s.raiseEv 285).raised := raiseEv_raised_congr 285 rfl (incF_evs s _) rfl rfl

theorem orbitMissed_frame : { orbitMissed s with regs := s.regs, cyc := s.cyc, raised := s.raised } = s := rfl

theorem raiseEv_orbitSeen (e : Nat) : ((orbitSeen s).raiseEv e).raised = (s.raiseEv e).raised :=
  raiseEv_raised_congr e rfl (raiseF_evs (dropDue s 1) _) rfl rfl

end

section
variable {s : State} (h : takesEffect s 1 [2] = true)
include h

theorem exec_orbit_tick0 (hu : s.user = true) (h0 : s.getF Reg.TIME_TIF_TIF = 0) : exec .orbit s = .next (slipEnded (orbitSeen s)) := by
  have htif : (orbitSeen s).getF Reg.TIME_TIF_TIF = s.getF Reg.TIME_TIF_TIF := getF_of_bitsBut (bitsBut_orbitSeen s) (by decide)
  rw [exec_orbit_of_turn h, if_pos hu, orbitUser_of_tick0 (htif.trans h0)]

theorem exec_orbit_miss (hu : s.user = true) (h0 : s.getF Reg.TIME_TIF_TIF ≠ 0) (hm : s.getF Reg.TIME_CTRL_ORB_MODE = 1)
    (hs : s.flag Reg.TIME_STATUS_SLIP = false) : exec .orbit s = .next (slipEnded (orbitMissed (orbitSeen s))) := by
  have hseen := bitsBut_orbitSeen s
  have htif : (orbitSeen s).getF Reg.TIME_TIF_TIF = s.getF Reg.TIME_TIF_TIF := getF_of_bitsBut hseen (by decide)
  have hmode : (orbitSeen s).getF Reg.TIME_CTRL_ORB_MODE = s.getF Reg.TIME_CTRL_ORB_MODE := getF_of_bitsBut hseen (by decide)
  have hslip : (orbitSeen s).flag Reg.TIME_STATUS_SLIP = s.flag Reg.TIME_STATUS_SLIP := flag_of_bitsBut hseen (by decide)
  rw [exec_orbit_of_turn h, if_pos hu, orbitUser_of_miss (htif ▸ h0) (hmode.trans hm) (hslip.trans hs)]

/-- Before user mode a qualifying ORBIT makes the present tick the start tick. -/
theorem exec_orbit_early (hu : s.user = false) (hm : s.getF Reg.TIME_CTRL_ORB_MODE ≠ 2) :
    exec .orbit s = .next ((orbitSeen s).setTime { (dropDue s 1).time with
      startIn := if startOrbit s then some 0 else s.time.startIn }) := by
  have hmode : (orbitSeen s).getF Reg.TIME_CTRL_ORB_MODE = s.getF Reg.TIME_CTRL_ORB_MODE :=
    getF_of_bitsBut (bitsBut_orbitSeen s) (by decide)
  rw [exec_orbit_of_turn h, if_neg (Bool.eq_false_iff.mp hu)]
  split <;> rw [orbitEarly_of_not_aligning (hmode ▸ hm)] <;> rfl

end

/-- The state in which the counters of frame 0 are set: set-reset released, no ORBIT awaited, no start tick set. -/
def userReady (s : State) : State :=
  let s1 := (setResetRelease s).clearF Reg.TIME_STATUS_WAIT_ORBIT
  s1.setTime { s1.time with startIn := none }

theorem exec_userModeStart_of_start {s : State} (h0 : s.slot0 = true) (hu : s.user = false) (hi : s.time.startIn = some 0) :
    exec .userModeStart s = .next ((frameZero (userReady s)).setF Reg.RST_STAGE_STEP 8) :=
  (exec_userModeStart s).trans (okIf_of_true _ _ (by simp [h0, hu, hi]))

section
variable (s : State)

theorem timeRegsKept_frameZero : TimeRegsKept (frameCount s 0) (frameZero s) :=
  have hpolicy : TimeRegsKept (frameCount s 0)
      (policySample { tlrLatchAll (napsFrame (banksSample (frameCount s 0))) (fun _ => 3) with taint := [] }) :=
    timeRegsKept_of_regs (by simp)
  hpolicy.trans (timeRegsKept_foldl timeRegsKept_taintSector _ _)

theorem time_frameZero : (frameZero s).time = (frameCount s 0).time := by
  unfold frameZero
  rw [foldl_time _ State.taintSector_time]
  simp

theorem user_userReady : (userReady s).user = true := by
  have h : (userReady s).flag Reg.TIME_STATUS_USER = (setResetRelease s).flag Reg.TIME_STATUS_USER :=
    flag_of_bitsBut (bitsBut_clearF (bitsBut_refl [Reg.TIME_STATUS_WAIT_ORBIT] _) _ (by simp) (by decide) (by decide)) (by decide)
  exact h.trans (flag_raiseF _ _ (by decide) (by decide))

theorem waitOrbit_userReady : (userReady s).flag Reg.TIME_STATUS_WAIT_ORBIT = false := flag_clearF _ _ (by decide) (by decide)

theorem time_userReady : (userReady s).time = { s.time with startIn := none } := by
  simp [userReady]

end

/-- Settles O6: an ORBIT by mode, tick and SLIP; the start of user mode by the registers and the counters of frame 0. -/
theorem orbitAndUserModeStart : Obligations.OrbitAndUserModeStart := by
  unfold Obligations.OrbitAndUserModeStart
  intro s
  have hseen := bitsBut_orbitSeen s
  refine ⟨fun h hu h0 => ?_, fun h hu h0 hm hs => ?_, fun h hu hm => ?_, fun h0 hu hi => ?_⟩
  · have hslip := bitsBut_slipEnded (orbitSeen s)
    exact ⟨_, exec_orbit_tick0 h hu h0, (flag_of_bitsBut hslip (by decide)).trans (flag_orbitSeen s),
      flag_clearF _ _ (by decide) (by decide), bitsBut_trans (bitsBut_mono hseen (by simp)) (bitsBut_mono hslip (by simp)), rfl,
      orbitSeen_frame s⟩
  · have hmiss := bitsBut_orbitMissed (orbitSeen s)
    have hslip := bitsBut_slipEnded (orbitMissed (orbitSeen s))
    have hflag := (flag_of_bitsBut hslip (by decide)).trans ((flag_of_bitsBut hmiss (by decide)).trans (flag_orbitSeen s))
    have hcount := (getF_of_bitsBut hslip (by decide)).trans (orbMiss_orbitMissed (orbitSeen s))
    rw [getF_of_bitsBut hseen (by decide)] at hcount
    exact ⟨_, exec_orbit_miss h hu h0 hm hs, hflag, (raised_orbitMissed (orbitSeen s)).trans (raiseEv_orbitSeen s 285), hcount,
      bitsBut_trans (bitsBut_mono hseen (by simp)) (bitsBut_trans (bitsBut_mono hmiss (by simp)) (bitsBut_mono hslip (by simp))),
      congrArg (fun x : State => { x with regs := s.regs, cyc := s.cyc, time := s.time }) (orbitMissed_frame (orbitSeen s))⟩
  · exact ⟨_, exec_orbit_early h hu hm, flag_orbitSeen s, rfl, hseen, orbitSeen_frame s⟩
  · have hcount := bitsBut_frameCount (userReady s) 0
    have hlow : TimeRegsKept (frameCount (userReady s) 0) ((frameZero (userReady s)).setF Reg.RST_STAGE_STEP 8) :=
      (timeRegsKept_frameZero (userReady s)).setF 8 (by decide)
    have htime : ((frameZero (userReady s)).setF Reg.RST_STAGE_STEP 8).time = (frameCount (userReady s) 0).time := time_frameZero _
    rw [time_frameCount, time_userReady] at htime
    refine ⟨_, exec_userModeStart_of_start h0 hu hi, ?_, ?_, ?_, ?_, getF_setF_self _ _ _ (by decide) (by decide),
      congrArg TimeState.startIn htime, (congrArg TimeState.tick htime :), (congrArg TimeState.slots htime :),
      parts_of_kept (by simp [userReady])⟩
    · exact ((hlow.flag (by decide)).trans (flag_of_bitsBut hcount (by decide))).trans (user_userReady s)
    · exact ((hlow.flag (by decide)).trans (flag_of_bitsBut hcount (by decide))).trans (waitOrbit_userReady s)
    · rw [hlow.getF (by decide), tif_frameCount]
    · rw [hlow _ (Nat.le_refl _), reg_frameCount]

end Sys2Proof.Machine

/-!
SUPPORT. Schedules, swaps and MAC operations (03_slots_planes.md R54, R66 to R72, 05_routing.md R107, 06_mac_ranker.md R115 to R120):
what a write of SEC_SCHED leaves, what a swap puts into force or refuses in a sector, the release of a held link, and what a MAC
block takes.
-/

namespace Sys2Proof.Machine

/-! ### Writes of SEC_SCHED -/

/-- A flag raised after other changes reads 1, and no bit changes beyond it and theirs. -/
theorem raiseF_reads {fs : List Field} {s u : State} (f : Field) (h : BitsBut fs s u) (hm : f ∈ fs)
    (hw : f.lo ≤ f.hi ∧ f.hi < 32) :
    (u.raiseF f).flag f = true ∧ BitsBut fs s (u.raiseF f) :=
  ⟨flag_raiseF u f hw.1 hw.2, bitsBut_raiseF h f hm hw.1 hw.2⟩

theorem badSched_reads {fs : List Field} {s u : State} (sec : Nat) (h : BitsBut fs s u)
    (hm : Reg.SEC_SCHED_STAT_BADSCHED sec ∈ fs) :
    (u.raiseF (Reg.SEC_SCHED_STAT_BADSCHED sec)).flag (Reg.SEC_SCHED_STAT_BADSCHED sec) = true ∧
      BitsBut fs s (u.raiseF (Reg.SEC_SCHED_STAT_BADSCHED sec)) :=
  raiseF_reads _ h hm (by simp [Reg.SEC_SCHED_STAT_BADSCHED])

/-- A write of SEC_SCHED that is taken: the fields of a swap are replaced, and an ARM that it sets is fresh (R67). -/
def schedStored (s : State) (sec : Nat) (v : Word32) : State :=
  { s.setReg (Reg.SEC_SCHED sec) ((s.reg (Reg.SEC_SCHED sec) &&& ~~~schedSwapMask) ||| (v &&& schedSwapMask)) with
    armFresh := tset (fun _ => false) s.armFresh sec (v.getLsbD 31) }

section
variable (s : State) (sec : Nat) (v : Word32)

theorem reg_schedStored : (schedStored s sec v).reg (Reg.SEC_SCHED sec) =
    (s.reg (Reg.SEC_SCHED sec) &&& ~~~schedSwapMask) ||| (v &&& schedSwapMask) := reg_setReg_self s _ _

theorem armFresh_schedStored : tget (fun _ => false) (schedStored s sec v).armFresh sec = v.getLsbD 31 := tget_tset_self _ _ _ _

theorem bitsBut_schedStored {fs : List Field} (h : wholeReg (Reg.SEC_SCHED sec) ∈ fs) : BitsBut fs s (schedStored s sec v) :=
  bitsBut_of_regs (bitsBut_setReg (bitsBut_refl fs s) _ _ h) rfl

theorem schedStored_frame : { schedStored s sec v with regs := s.regs, cyc := s.cyc, armFresh := s.armFresh } = s := rfl

end

section
variable {s : State} {sec : Nat} {v : Word32}

theorem schedWrite_of_bad_arm (harm : v.getLsbD 31 = true) (hv : armValid v = false) :
    schedWrite s sec v = s.raiseF (Reg.SEC_SCHED_STAT_BADARM sec) := if_pos (by rw [harm, hv]; rfl)

section
variable (hl : s.leader sec = sec) (hv : v.getLsbD 31 = true → armValid v = true)
include hl hv

/-- In user mode an accepted word replaces the fields of the swap, whatever its FOLD and BASE. -/
theorem schedWrite_of_user (hu : s.user = true) : schedWrite s sec v = schedStored s sec v := by
  unfold schedWrite
  dsimp only
  rw [if_neg (by simpa using hv)]
  simp only [hl, hu, bne_self_eq_false, Bool.not_true, Bool.and_false, Bool.false_eq_true, if_false, if_true]
  rfl

/-- Before user mode an accepted word of a T0 sector also has its FOLD and BASE wait, or sets BADSCHED. -/
theorem schedWrite_of_early (hu : s.user = false) (ht : sec < 120) : schedWrite s sec v =
    if nbits v.toNat 2 0 % 2 ^ nbits v.toNat 5 4 = 0 then
      { schedStored s sec v with
        schedPend := tset (fun _ => 0) s.schedPend sec (65 + 8 * nbits v.toNat 5 4 + nbits v.toNat 2 0) }
    else (schedStored s sec v).raiseF (Reg.SEC_SCHED_STAT_BADSCHED sec) := by
  unfold schedWrite
  dsimp only
  rw [if_neg (by simpa using hv), decide_eq_false (Nat.not_le.mpr ht)]
  simp only [hl, hu, bne_self_eq_false, Bool.false_and, Bool.false_eq_true, if_false]
  rfl

end
end

section
variable {s : State} {sec : Fin 240} (ha : s.alive = true) (v : Word32)
include ha

theorem exec_swapArm_of_alive : exec (.swapArm sec v) s = .next (schedWrite s sec (v ||| 0x80000000#32)) :=
  (exec_swapArm s sec v).trans (okIf_of_true _ _ ha)

theorem exec_swapDisarm_of_alive : exec (.swapDisarm sec v) s = .next (schedWrite s sec (v &&& 0x7FFFFFFF#32)) :=
  (exec_swapDisarm s sec v).trans (okIf_of_true _ _ ha)

theorem exec_scheduleWrite_of_alive : exec (.scheduleWrite sec v) s = .next (schedWrite s sec v) :=
  (exec_scheduleWrite s sec v).trans (okIf_of_true _ _ ha)

end

/-! ### A waiting schedule at its tick boundary -/

/-- The state in which no schedule waits in a sector any more. -/
def schedTaken (s : State) (sec : Nat) : State := { s with schedPend := tset (fun _ => 0) s.schedPend sec 0 }

section
variable (s : State) (sec f b : Nat)

/-- FOLD and BASE put into force. -/
def State.setSched : State := (s.setF (Reg.SEC_SCHED_FOLD sec) f).setF (Reg.SEC_SCHED_BASE sec) b

theorem fold_setSched : (s.setSched sec f b).getF (Reg.SEC_SCHED_FOLD sec) = f % 4 :=
  (getF_setF_disjoint _ (Reg.SEC_SCHED_BASE sec) _ _ (by simp [Reg.SEC_SCHED_BASE]) (by simp [Reg.SEC_SCHED_BASE])
    (by simp [Reg.SEC_SCHED_BASE, Reg.SEC_SCHED_FOLD])).trans
    (getF_setF_self _ _ _ (by simp [Reg.SEC_SCHED_FOLD]) (by simp [Reg.SEC_SCHED_FOLD]))

theorem base_setSched : (s.setSched sec f b).getF (Reg.SEC_SCHED_BASE sec) = b % 8 :=
  getF_setF_self _ _ _ (by simp [Reg.SEC_SCHED_BASE]) (by simp [Reg.SEC_SCHED_BASE])

theorem bitsBut_setSched : BitsBut [Reg.SEC_SCHED_FOLD sec, Reg.SEC_SCHED_BASE sec] s (s.setSched sec f b) :=
  bitsBut_setF (bitsBut_setF (bitsBut_refl _ s) _ _ (by simp) (by simp [Reg.SEC_SCHED_FOLD]) (by simp [Reg.SEC_SCHED_FOLD]))
    _ _ (by simp) (by simp [Reg.SEC_SCHED_BASE]) (by simp [Reg.SEC_SCHED_BASE])

end

section
variable {s : State} {sec : Fin 240} {f b : Nat} (h0 : s.slot0 = true) (hf : f < 4) (hb : b < 8)
  (hp : tget (fun _ => 0) s.schedPend sec = 1 + 8 * f + b)
include h0 hf hb hp

theorem exec_scheduleApply_of_waiting : exec (.scheduleApply sec) s =
    .next (if anyEscrow s sec (planesOf f b) then (schedTaken s sec).raiseF (Reg.SEC_SCHED_STAT_BADSCHED sec)
      else (schedTaken s sec).setSched sec f b) := by
  have hwait : (s.slot0 && (1 + 8 * f + b) != 0 && decide (1 + 8 * f + b < 64)) = true := by
    simp only [h0, Bool.true_and, Bool.and_eq_true, bne_iff_ne, decide_eq_true_eq]; omega
  rw [exec_scheduleApply]
  unfold execScheduleApply
  dsimp only
  rw [hp, if_pos hwait, show (1 + 8 * f + b - 1) / 8 = f by omega, show (1 + 8 * f + b - 1) % 8 = b by omega]
  split <;> rfl

theorem exec_scheduleApply_escrow (he : anyEscrow s sec (planesOf f b) = true) :
    exec (.scheduleApply sec) s = .next ((schedTaken s sec).raiseF (Reg.SEC_SCHED_STAT_BADSCHED sec)) := by
  rw [exec_scheduleApply_of_waiting h0 hf hb hp, if_pos he]

theorem exec_scheduleApply_ready (he : anyEscrow s sec (planesOf f b) = false) :
    exec (.scheduleApply sec) s = .next ((schedTaken s sec).setSched sec f b) := by
  rw [exec_scheduleApply_of_waiting h0 hf hb hp, if_neg (Bool.eq_false_iff.mp he)]

end

/-- Settles O7: a write by the arming test, by user mode and by its BASE; a waiting schedule by whether a plane of it is in escrow. -/
theorem scheduleWrites : Obligations.ScheduleWrites := by
  unfold Obligations.ScheduleWrites
  intro s sec v hl arm dis stored
  have harm : arm.getLsbD 31 = true := by simp [arm]
  have hdis : dis.getLsbD 31 = false := by simp [dis]
  refine ⟨fun ha hv => ?_, fun ha hv hu => ?_, fun ha hu => ?_, fun ha hu ht h31 hb => ?_, fun ha hu ht h31 hb => ?_,
    fun f b hf hb h0 hp => ?_⟩
  · have hw : schedWrite s sec arm = _ := schedWrite_of_bad_arm harm hv
    obtain ⟨hflag, hbits⟩ := raiseF_reads (Reg.SEC_SCHED_STAT_BADARM sec) (bitsBut_refl [Reg.SEC_SCHED_STAT_BADARM sec] s) (by simp)
      (by simp [Reg.SEC_SCHED_STAT_BADARM])
    exact ⟨_, (exec_swapArm_of_alive ha v).trans (congrArg _ hw), hflag, hbits, rfl⟩
  · have hw := schedWrite_of_user hl (fun _ => hv) hu
    exact ⟨_, (exec_swapArm_of_alive ha v).trans (congrArg _ hw), reg_schedStored s sec arm,
      (armFresh_schedStored s sec arm).trans harm, bitsBut_schedStored s sec arm (by simp), schedStored_frame s sec arm⟩
  · have hw := schedWrite_of_user hl (fun h => absurd h (Bool.eq_false_iff.mp hdis)) hu
    exact ⟨_, (exec_swapDisarm_of_alive ha v).trans (congrArg _ hw), reg_schedStored s sec dis,
      (armFresh_schedStored s sec dis).trans hdis, bitsBut_schedStored s sec dis (by simp), schedStored_frame s sec dis⟩
  · have hw := schedWrite_of_early hl (fun h => absurd h (Bool.eq_false_iff.mp h31)) hu ht
    rw [if_pos hb] at hw
    exact ⟨_, (exec_scheduleWrite_of_alive ha v).trans (congrArg _ hw), tget_tset_self _ _ _ _, reg_schedStored s sec v,
      bitsBut_schedStored s sec v (by simp), schedStored_frame s sec v⟩
  · have hw := schedWrite_of_early hl (fun h => absurd h (Bool.eq_false_iff.mp h31)) hu ht
    rw [if_neg hb] at hw
    obtain ⟨hflag, hbits⟩ := badSched_reads sec (bitsBut_schedStored (fs := [wholeReg (Reg.SEC_SCHED sec),
      Reg.SEC_SCHED_STAT_BADSCHED sec]) s sec v (by simp)) (by simp)
    exact ⟨_, (exec_scheduleWrite_of_alive ha v).trans (congrArg _ hw), hflag, hbits, schedStored_frame s sec v⟩
  · cases he : anyEscrow s sec (planesOf f b) with
    | true =>
      exact ⟨_, exec_scheduleApply_escrow h0 hf hb hp he, tget_tset_self _ _ _ _, fun h => Bool.noConfusion h,
        fun _ => badSched_reads sec (bitsBut_of_regs (bitsBut_refl _ s) rfl) (by simp), rfl⟩
    | false =>
      exact ⟨_, exec_scheduleApply_ready h0 hf hb hp he, tget_tset_self _ _ _ _,
        fun _ => ⟨(fold_setSched _ sec f b).trans (Nat.mod_eq_of_lt hf), (base_setSched _ sec f b).trans (Nat.mod_eq_of_lt hb),
          bitsBut_setSched (schedTaken s sec) sec f b⟩, fun h => Bool.noConfusion h, rfl⟩

/-! ### What a swap puts into force -/

section
variable (s : State) (sec : Nat)

/-- The fields of a sector in which a swap with clear records what its matcher loses (R68, R146). -/
def lossFields : List Field := [Reg.SEC_MT_STAT_DRAINING sec, Reg.SEC_MT_STAT_LOST sec, Reg.SEC_MT_LOST_LOST_CNT sec]

/-- The bits that a swap may change in a sector. -/
def swapFields : List Field :=
  [Reg.SEC_SCHED_ARM sec, Reg.SEC_SCHED_FOLD sec, Reg.SEC_SCHED_BASE sec, Reg.SEC_SWAP_CNT_SWAP_CNT sec,
    Reg.SEC_MT_STAT_DRAINING sec, Reg.SEC_MT_STAT_LOST sec, Reg.SEC_MT_LOST_LOST_CNT sec]

theorem bitsBut_matcherClear : BitsBut (lossFields sec) s (matcherClear s sec) := by
  have hclear := bitsBut_clearF (bitsBut_of_regs (bitsBut_refl (lossFields sec) s) (State.setMatcher_regs s sec { Matcher.reset with
      check := (s.matcher sec).check, checkAt := (s.matcher sec).checkAt, waited := (s.matcher sec).waited }))
    (Reg.SEC_MT_STAT_DRAINING sec) (by simp [lossFields]) (by simp [Reg.SEC_MT_STAT_DRAINING]) (by simp [Reg.SEC_MT_STAT_DRAINING])
  unfold matcherClear
  dsimp only
  split
  · exact hclear
  · exact bitsBut_addF (bitsBut_raiseF hclear _ (by simp [lossFields]) (by simp [Reg.SEC_MT_STAT_LOST]) (by simp [Reg.SEC_MT_STAT_LOST]))
      _ _ (by simp [lossFields]) (by simp [Reg.SEC_MT_LOST_LOST_CNT]) (by simp [Reg.SEC_MT_LOST_LOST_CNT])

@[simp] theorem matcherClear_stores : (matcherClear s sec).stores = s.stores := by
  unfold matcherClear
  dsimp only
  split <;> rfl

variable (planes : List Nat) (clear : Bool)

theorem bitsBut_swapSector : BitsBut (lossFields sec) s (swapSector s sec planes clear) := by
  unfold swapSector
  dsimp only
  split
  · exact bitsBut_trans (bitsBut_of_regs (bitsBut_refl _ s) (by simp)) (bitsBut_matcherClear _ sec)
  · exact bitsBut_of_regs (bitsBut_refl _ s) (by simp)

@[simp] theorem wregClear_stores (hit : Nat → Bool) : (wregClear s hit).stores = s.stores := rfl
@[simp] theorem savedClear_stores : (savedClear s sec).stores = s.stores := rfl
@[simp] theorem rankersSwap_stores : (rankersSwap s sec clear).stores = s.stores := rfl
@[simp] theorem sregReset_stores (hit : Nat → Nat → Bool) : (sregReset s hit).stores = s.stores := rfl
@[simp] theorem macsSwapClear_stores : (macsSwapClear s sec planes).stores = s.stores := rfl

@[simp] theorem swapSector_stores : (swapSector s sec planes clear).stores = s.stores := by
  unfold swapSector
  dsimp only
  split <;> simp

/-- A swap put into force in one sector and counted there. -/
def swapCounted : State := (swapSector s sec planes clear).incF (Reg.SEC_SWAP_CNT_SWAP_CNT sec)

theorem bitsBut_swapCounted :
    BitsBut (Reg.SEC_SWAP_CNT_SWAP_CNT sec :: lossFields sec) s (swapCounted s sec planes clear) :=
  bitsBut_incF (bitsBut_mono (bitsBut_swapSector s sec planes clear) (fun _ => List.mem_cons_of_mem _)) _ (by simp)
    (by simp [Reg.SEC_SWAP_CNT_SWAP_CNT]) (by simp [Reg.SEC_SWAP_CNT_SWAP_CNT])

theorem bitsBut_swapCounted_swapFields : BitsBut (swapFields sec) s (swapCounted s sec planes clear) :=
  bitsBut_mono (bitsBut_swapCounted s sec planes clear) (by simp [swapFields, lossFields])

theorem swapCnt_swapCounted : (swapCounted s sec planes clear).getF (Reg.SEC_SWAP_CNT_SWAP_CNT sec) =
    min (s.getF (Reg.SEC_SWAP_CNT_SWAP_CNT sec) + 1) 65535 := by
  have hsector : (swapSector s sec planes clear).getF (Reg.SEC_SWAP_CNT_SWAP_CNT sec) = s.getF (Reg.SEC_SWAP_CNT_SWAP_CNT sec) :=
    getF_of_bitsBut (bitsBut_swapSector s sec planes clear) (by
      simp [lossFields, Reg.SEC_MT_STAT_DRAINING, Reg.SEC_MT_STAT_LOST, Reg.SEC_MT_LOST_LOST_CNT, Reg.SEC_SWAP_CNT_SWAP_CNT,
        Reg.SEC_MT_STAT, Reg.SEC_MT_LOST, Reg.SEC_SWAP_CNT])
  unfold swapCounted State.incF
  rw [getF_addF _ _ 1 (by simp [Reg.SEC_SWAP_CNT_SWAP_CNT]) (by simp [Reg.SEC_SWAP_CNT_SWAP_CNT]), hsector]
  rfl

@[simp] theorem swapCounted_stores : (swapCounted s sec planes clear).stores = s.stores := swapSector_stores s sec planes clear

@[simp] theorem swapCounted_time : (swapCounted s sec planes clear).time = s.time := swapSector_time s sec planes clear

/-- A swap in one sector touches no SEC_SCHED, and SWAP_CNT of that sector alone. -/
theorem getF_swapCounted {g : Field} (h : ∃ q, g.reg = Reg.SEC_SCHED q ∨ q ≠ sec ∧ g.reg = Reg.SEC_SWAP_CNT q) :
    (swapCounted s sec planes clear).getF g = s.getF g := by
  refine getF_of_bitsBut (bitsBut_swapCounted s sec planes clear) (fun f hf hr => absurd hr ?_)
  have hreg : f.reg = Reg.SEC_SWAP_CNT sec ∨ f.reg = Reg.SEC_MT_STAT sec ∨ f.reg = Reg.SEC_MT_LOST sec := by
    simp only [lossFields, List.mem_cons, List.not_mem_nil, or_false] at hf
    obtain rfl | rfl | rfl | rfl := hf <;>
      simp [Reg.SEC_SWAP_CNT_SWAP_CNT, Reg.SEC_MT_STAT_DRAINING, Reg.SEC_MT_STAT_LOST, Reg.SEC_MT_LOST_LOST_CNT]
  obtain ⟨q, hq⟩ := h
  simp only [Reg.SEC_SWAP_CNT, Reg.SEC_MT_STAT, Reg.SEC_MT_LOST, Reg.SEC_SCHED] at hreg hq
  omega

end

section
variable (s : State) (sec : Nat)

/-- NEXT_FOLD and NEXT_BASE put into force in SEC_SCHED, with ARM cleared (R68). -/
def schedSwapped : State :=
  (s.setSched sec (s.getF (Reg.SEC_SCHED_NEXT_FOLD sec)) (s.getF (Reg.SEC_SCHED_NEXT_BASE sec))).clearF (Reg.SEC_SCHED_ARM sec)

theorem bitsBut_schedSwapped :
    BitsBut [Reg.SEC_SCHED_ARM sec, Reg.SEC_SCHED_FOLD sec, Reg.SEC_SCHED_BASE sec] s (schedSwapped s sec) :=
  bitsBut_clearF (bitsBut_mono (bitsBut_setSched s sec _ _) (by simp)) _ (by simp) (by simp [Reg.SEC_SCHED_ARM])
    (by simp [Reg.SEC_SCHED_ARM])

theorem bitsBut_clearArm (u : State) : BitsBut [Reg.SEC_SCHED_ARM sec] u (u.clearF (Reg.SEC_SCHED_ARM sec)) :=
  bitsBut_clearF (bitsBut_refl _ u) _ (by simp) (by simp [Reg.SEC_SCHED_ARM]) (by simp [Reg.SEC_SCHED_ARM])

theorem onlyBits_clearArm (u : State) : OnlyBits [Reg.SEC_SCHED_ARM sec] u (u.clearF (Reg.SEC_SCHED_ARM sec)) :=
  ⟨bitsBut_clearArm sec u, rfl⟩

theorem arm_clearArm (u : State) : (u.clearF (Reg.SEC_SCHED_ARM sec)).flag (Reg.SEC_SCHED_ARM sec) = false :=
  flag_clearF u _ (by simp [Reg.SEC_SCHED_ARM]) (by simp [Reg.SEC_SCHED_ARM])

theorem fold_schedSwapped : (schedSwapped s sec).getF (Reg.SEC_SCHED_FOLD sec) = s.getF (Reg.SEC_SCHED_NEXT_FOLD sec) := by
  unfold schedSwapped
  rw [getF_of_bitsBut (bitsBut_clearArm sec _) (by simp [Reg.SEC_SCHED_ARM, Reg.SEC_SCHED_FOLD]), fold_setSched]
  exact Nat.mod_mod _ 4

theorem base_schedSwapped : (schedSwapped s sec).getF (Reg.SEC_SCHED_BASE sec) = s.getF (Reg.SEC_SCHED_NEXT_BASE sec) := by
  unfold schedSwapped
  rw [getF_of_bitsBut (bitsBut_clearArm sec _) (by simp [Reg.SEC_SCHED_ARM, Reg.SEC_SCHED_BASE]), base_setSched]
  exact Nat.mod_mod _ 8

/-- The planes that an armed swap brings in. -/
def nextPlanes : List Nat := planesOf (s.getF (Reg.SEC_SCHED_NEXT_FOLD sec)) (s.getF (Reg.SEC_SCHED_NEXT_BASE sec))

/-- The swap in the sector that leads. -/
def leadSwapped : State := swapCounted (schedSwapped s sec) sec (nextPlanes s sec) (!s.flag (Reg.SEC_SCHED_MODE sec))

/-- The swap in the sector that leads and in the partner that follows it. -/
def swapped : State :=
  (follower s sec).elim (leadSwapped s sec)
    (fun q => swapCounted (leadSwapped s sec) q (nextPlanes s sec) (!s.flag (Reg.SEC_SCHED_MODE sec)))

theorem bitsBut_leadSwapped : BitsBut (swapFields sec) s (leadSwapped s sec) :=
  bitsBut_trans (bitsBut_mono (bitsBut_schedSwapped s sec) (by simp [swapFields]))
    (bitsBut_swapCounted_swapFields _ sec _ _)

theorem getF_leadSwapped {g : Field} (hg : g.reg = Reg.SEC_SCHED sec) : (leadSwapped s sec).getF g = (schedSwapped s sec).getF g :=
  getF_swapCounted _ sec _ _ ⟨sec, .inl hg⟩

theorem getF_schedSwapped_swapCnt (q : Nat) :
    (schedSwapped s sec).getF (Reg.SEC_SWAP_CNT_SWAP_CNT q) = s.getF (Reg.SEC_SWAP_CNT_SWAP_CNT q) :=
  getF_of_bitsBut (bitsBut_schedSwapped s sec) (by
    simp [Reg.SEC_SCHED_ARM, Reg.SEC_SCHED_FOLD, Reg.SEC_SCHED_BASE, Reg.SEC_SWAP_CNT_SWAP_CNT, Reg.SEC_SCHED, Reg.SEC_SWAP_CNT]
    omega)

theorem swapCnt_leadSwapped : (leadSwapped s sec).getF (Reg.SEC_SWAP_CNT_SWAP_CNT sec) =
    min (s.getF (Reg.SEC_SWAP_CNT_SWAP_CNT sec) + 1) 65535 := by
  unfold leadSwapped
  rw [swapCnt_swapCounted, getF_schedSwapped_swapCnt]

theorem follower_ne {q : Nat} (h : follower s sec = some q) : q ≠ sec := by
  unfold follower at h
  split at h
  · cases h; omega
  · cases h

/-- The partner that follows adds nothing to SEC_SCHED and SWAP_CNT of the sector that leads. -/
theorem getF_swapped {g : Field} (hg : g.reg = Reg.SEC_SCHED sec ∨ g.reg = Reg.SEC_SWAP_CNT sec) :
    (swapped s sec).getF g = (leadSwapped s sec).getF g := by
  unfold swapped
  cases hq : follower s sec with
  | none => rfl
  | some q =>
    exact getF_swapCounted _ q _ _ ⟨sec, hg.imp_right (fun h => ⟨(follower_ne s sec hq).symm, h⟩)⟩

theorem swapCnt_follower {q : Nat} (hq : follower s sec = some q) : (swapped s sec).getF (Reg.SEC_SWAP_CNT_SWAP_CNT q) =
    min (s.getF (Reg.SEC_SWAP_CNT_SWAP_CNT q) + 1) 65535 := by
  have hlead : (leadSwapped s sec).getF (Reg.SEC_SWAP_CNT_SWAP_CNT q) = (schedSwapped s sec).getF (Reg.SEC_SWAP_CNT_SWAP_CNT q) :=
    getF_swapCounted _ sec _ _ ⟨q, .inr ⟨follower_ne s sec hq, rfl⟩⟩
  unfold swapped
  rw [hq, Option.elim_some, swapCnt_swapCounted, hlead, getF_schedSwapped_swapCnt]

theorem bitsBut_swapped : BitsBut (swapFields sec ++ (follower s sec).elim [] swapFields) s (swapped s sec) := by
  have hlead := bitsBut_leadSwapped s sec
  unfold swapped
  cases follower s sec with
  | none => exact bitsBut_mono hlead (by simp)
  | some q =>
    exact bitsBut_trans (bitsBut_mono hlead (fun _ => List.mem_append_left _))
      (bitsBut_mono (bitsBut_swapCounted_swapFields _ q _ _) (fun _ => List.mem_append_right _))

theorem swapped_stores : (swapped s sec).stores = s.stores := by
  have hsched : (schedSwapped s sec).stores = s.stores := rfl
  unfold swapped leadSwapped
  cases follower s sec <;> simp [hsched]

theorem swapped_time : (swapped s sec).time = s.time := by
  have hsched : (schedSwapped s sec).time = s.time := rfl
  unfold swapped leadSwapped
  cases follower s sec <;> simp [hsched]

end

/-! ### A swap that is refused -/

theorem onlyBits_mono {fs gs : List Field} {s t : State} (h : OnlyBits fs s t) (hs : ∀ f ∈ fs, f ∈ gs) : OnlyBits gs s t :=
  ⟨bitsBut_mono h.1 hs, h.2⟩

section
variable (s : State) (sec plane : Nat) (pair : Bool)

/-- The bits in which a refusal is recorded in a sector (R69). -/
def refuseFields : List Field :=
  [Reg.SEC_SCHED_STAT_REFUSED sec, Reg.SEC_SCHED_STAT_REF_PLANE sec, Reg.SEC_SCHED_STAT_REF_PAIR sec,
    Reg.SEC_SWAP_CNT_REFUSE_CNT sec]

theorem refuseFields_bounds : ∀ f ∈ refuseFields sec, f.lo ≤ f.hi ∧ f.hi < 32 := by
  simp [refuseFields, Reg.SEC_SCHED_STAT_REFUSED, Reg.SEC_SCHED_STAT_REF_PLANE, Reg.SEC_SCHED_STAT_REF_PAIR,
    Reg.SEC_SWAP_CNT_REFUSE_CNT]

theorem refuseFields_reg : ∀ f ∈ refuseFields sec, f.reg = Reg.SEC_SCHED_STAT sec ∨ f.reg = Reg.SEC_SWAP_CNT sec := by
  simp [refuseFields, Reg.SEC_SCHED_STAT_REFUSED, Reg.SEC_SCHED_STAT_REF_PLANE, Reg.SEC_SCHED_STAT_REF_PAIR,
    Reg.SEC_SWAP_CNT_REFUSE_CNT]

/-- What follows REF_PLANE in the record of a refusal: REF_PAIR and the count. -/
theorem bitsBut_refuseIn_plane :
    BitsBut [Reg.SEC_SCHED_STAT_REF_PAIR sec, Reg.SEC_SWAP_CNT_REFUSE_CNT sec]
      ((s.raiseF (Reg.SEC_SCHED_STAT_REFUSED sec)).setF (Reg.SEC_SCHED_STAT_REF_PLANE sec) plane) (refuseIn s sec plane pair) :=
  have hpair := refuseFields_bounds sec (Reg.SEC_SCHED_STAT_REF_PAIR sec) (by simp [refuseFields])
  have hcnt := refuseFields_bounds sec (Reg.SEC_SWAP_CNT_REFUSE_CNT sec) (by simp [refuseFields])
  bitsBut_incF (bitsBut_putF (bitsBut_refl _ _) _ pair (by simp) hpair.1 hpair.2) _ (by simp) hcnt.1 hcnt.2

/-- What follows REFUSED in the record of a refusal. -/
theorem bitsBut_refuseIn_refused :
    BitsBut [Reg.SEC_SCHED_STAT_REF_PLANE sec, Reg.SEC_SCHED_STAT_REF_PAIR sec, Reg.SEC_SWAP_CNT_REFUSE_CNT sec]
      (s.raiseF (Reg.SEC_SCHED_STAT_REFUSED sec)) (refuseIn s sec plane pair) :=
  have hplane := refuseFields_bounds sec (Reg.SEC_SCHED_STAT_REF_PLANE sec) (by simp [refuseFields])
  bitsBut_trans (bitsBut_setF (bitsBut_refl _ _) _ plane (by simp) hplane.1 hplane.2)
    (bitsBut_mono (bitsBut_refuseIn_plane s sec plane pair) (by simp))

theorem bitsBut_refuseIn : BitsBut (refuseFields sec) s (refuseIn s sec plane pair) :=
  have hrefused := refuseFields_bounds sec (Reg.SEC_SCHED_STAT_REFUSED sec) (by simp [refuseFields])
  bitsBut_trans (bitsBut_raiseF (bitsBut_refl _ s) _ (by simp [refuseFields]) hrefused.1 hrefused.2)
    (bitsBut_mono (bitsBut_refuseIn_refused s sec plane pair) (by simp [refuseFields]))

theorem onlyBits_refuseIn : OnlyBits (refuseFields sec) s (refuseIn s sec plane pair) := ⟨bitsBut_refuseIn s sec plane pair, rfl⟩

theorem refused_refuseIn : (refuseIn s sec plane pair).flag (Reg.SEC_SCHED_STAT_REFUSED sec) = true := by
  have hrefused := refuseFields_bounds sec (Reg.SEC_SCHED_STAT_REFUSED sec) (by simp [refuseFields])
  rw [flag_of_bitsBut (bitsBut_refuseIn_refused s sec plane pair) (by
    simp [Reg.SEC_SCHED_STAT_REFUSED, Reg.SEC_SCHED_STAT_REF_PLANE, Reg.SEC_SCHED_STAT_REF_PAIR, Reg.SEC_SWAP_CNT_REFUSE_CNT,
      Reg.SEC_SCHED_STAT, Reg.SEC_SWAP_CNT])]
  exact flag_raiseF s _ hrefused.1 hrefused.2

theorem refPlane_refuseIn : (refuseIn s sec plane pair).getF (Reg.SEC_SCHED_STAT_REF_PLANE sec) = plane % 8 := by
  have hplane := refuseFields_bounds sec (Reg.SEC_SCHED_STAT_REF_PLANE sec) (by simp [refuseFields])
  rw [getF_of_bitsBut (bitsBut_refuseIn_plane s sec plane pair) (by
    simp [Reg.SEC_SCHED_STAT_REF_PLANE, Reg.SEC_SCHED_STAT_REF_PAIR, Reg.SEC_SWAP_CNT_REFUSE_CNT, Reg.SEC_SCHED_STAT,
      Reg.SEC_SWAP_CNT])]
  exact getF_setF_self _ _ plane hplane.1 hplane.2

theorem refuseCnt_refuseIn : (refuseIn s sec plane pair).getF (Reg.SEC_SWAP_CNT_REFUSE_CNT sec) =
    min (s.getF (Reg.SEC_SWAP_CNT_REFUSE_CNT sec) + 1) 65535 := by
  have hcnt := refuseFields_bounds sec (Reg.SEC_SWAP_CNT_REFUSE_CNT sec) (by simp [refuseFields])
  have hne : Reg.SEC_SWAP_CNT sec ≠ Reg.SEC_SCHED_STAT sec := by simp [Reg.SEC_SWAP_CNT, Reg.SEC_SCHED_STAT]
  unfold refuseIn State.incF State.putF
  rw [getF_addF _ _ 1 hcnt.1 hcnt.2, getF_setF_reg_ne _ _ _ _ hne, getF_setF_reg_ne _ _ _ _ hne, getF_raiseF_eq,
    getF_setF_reg_ne _ _ _ _ hne]
  rfl

end

section
variable (s : State) (sec plane : Nat)

/-- The refusal in the sector that leads: recorded, with ARM cleared. -/
def leadRefused : State := (refuseIn s sec plane (!(s.planeState sec plane == 2))).clearF (Reg.SEC_SCHED_ARM sec)

/-- The refusal in the sector that leads and in the partner that follows it. -/
def swapRefused : State :=
  (follower s sec).elim (leadRefused s sec plane) (fun q => refuseIn (leadRefused s sec plane) q plane (s.planeState q plane != 2))

/-- A refusal raises event 226 where none has raised it in the slot (R78). -/
theorem swapRefuse_eq : swapRefuse s sec plane =
    if s.time.refusedAt = some s.time.slots then swapRefused s sec plane
    else ((swapRefused s sec plane).setTime { s.time with refusedAt := some s.time.slots }).raiseEv 226 := by
  unfold swapRefuse swapRefused
  dsimp only
  cases follower s sec <;> rfl

theorem getF_swapRefuse (g : Field) : (swapRefuse s sec plane).getF g = (swapRefused s sec plane).getF g := by
  rw [swapRefuse_eq]
  split
  · rfl
  · rw [getF_raiseEv, getF_setTime]

theorem onlyBits_leadRefused : OnlyBits (Reg.SEC_SCHED_ARM sec :: refuseFields sec) s (leadRefused s sec plane) :=
  onlyBits_trans (onlyBits_mono (onlyBits_refuseIn s sec plane _) (fun _ => List.mem_cons_of_mem _))
    (onlyBits_mono (onlyBits_clearArm sec _) (by simp))

/-- A refusal changes the bits in which it is recorded, and ARM of the sector that leads. -/
theorem onlyBits_swapRefused : OnlyBits ((Reg.SEC_SCHED_ARM sec :: refuseFields sec) ++ (follower s sec).elim [] refuseFields) s
    (swapRefused s sec plane) := by
  have hlead := onlyBits_leadRefused s sec plane
  unfold swapRefused
  cases follower s sec with
  | none => exact onlyBits_mono hlead (fun _ => List.mem_append_left _)
  | some q =>
    exact onlyBits_trans (onlyBits_mono hlead (fun _ => List.mem_append_left _))
      (onlyBits_mono (onlyBits_refuseIn _ q plane _) (fun _ => List.mem_append_right _))

theorem swapRefused_evs : (swapRefused s sec plane).cyc.evs = s.cyc.evs := by
  unfold swapRefused leadRefused
  cases follower s sec <;> simp [refuseIn]

theorem swapRefuse_frame :
    { swapRefuse s sec plane with regs := s.regs, cyc := s.cyc, raised := s.raised, time := s.time } = s := by
  have h := congrArg (fun x : State => { x with raised := s.raised, time := s.time }) (onlyBits_swapRefused s sec plane).2
  rw [swapRefuse_eq]
  split <;> exact h

theorem raised_swapRefuse : (swapRefuse s sec plane).raised =
    if s.time.refusedAt = some s.time.slots then s.raised else (s.raiseEv 226).raised := by
  have hrest := (onlyBits_swapRefused s sec plane).2
  rw [swapRefuse_eq]
  split
  · exact (congrArg State.raised hrest :)
  · exact raiseEv_raised_congr 226 (congrArg State.raised hrest :) (swapRefused_evs s sec plane) (congrArg State.clockOn hrest :)
      (congrArg State.dbgHalt hrest :)

/-- The partner that follows adds nothing to the registers of the sector that leads. -/
theorem getF_swapRefused {g : Field}
    (hg : g.reg = Reg.SEC_SCHED sec ∨ g.reg = Reg.SEC_SCHED_STAT sec ∨ g.reg = Reg.SEC_SWAP_CNT sec) :
    (swapRefused s sec plane).getF g = (leadRefused s sec plane).getF g := by
  unfold swapRefused
  cases hq : follower s sec with
  | none => rfl
  | some q =>
    have hne := follower_ne s sec hq
    refine getF_of_bitsBut (bitsBut_refuseIn _ q plane _) (fun f hf hr => absurd hr ?_)
    have hreg := refuseFields_reg q f hf
    simp only [Reg.SEC_SCHED, Reg.SEC_SCHED_STAT, Reg.SEC_SWAP_CNT] at hg hreg
    omega

theorem getF_swapRefuse_lead {g : Field}
    (hg : g.reg = Reg.SEC_SCHED sec ∨ g.reg = Reg.SEC_SCHED_STAT sec ∨ g.reg = Reg.SEC_SWAP_CNT sec) :
    (swapRefuse s sec plane).getF g = (leadRefused s sec plane).getF g :=
  (getF_swapRefuse s sec plane g).trans (getF_swapRefused s sec plane hg)

/-- Clearing ARM adds nothing outside SEC_SCHED to a refusal. -/
theorem getF_leadRefused {g : Field} (hg : g.reg = Reg.SEC_SCHED_STAT sec ∨ g.reg = Reg.SEC_SWAP_CNT sec) :
    (leadRefused s sec plane).getF g = (refuseIn s sec plane (!(s.planeState sec plane == 2))).getF g :=
  getF_setF_reg_ne _ _ _ _ (by
    simp only [Reg.SEC_SCHED_ARM, Reg.SEC_SCHED, Reg.SEC_SCHED_STAT, Reg.SEC_SWAP_CNT] at hg ⊢
    omega)

/-- A refusal leaves SEC_SCHED but for ARM. -/
theorem getF_leadRefused_sched {g : Field} (hr : g.reg = Reg.SEC_SCHED sec) (hh : g.hi < 31) :
    (leadRefused s sec plane).getF g = s.getF g := by
  unfold leadRefused
  rw [getF_of_bitsBut (bitsBut_clearArm sec _) (by simp [Reg.SEC_SCHED_ARM, hh])]
  refine getF_of_bitsBut (bitsBut_refuseIn s sec plane _) (fun f hf hfr => absurd hfr ?_)
  have hreg := refuseFields_reg sec f hf
  simp only [Reg.SEC_SCHED, Reg.SEC_SCHED_STAT, Reg.SEC_SWAP_CNT] at hr hreg
  omega

/-- What a refusal leaves in the fields of the sector that leads. -/
theorem swapRefuse_reads (hp : plane < 8) :
    let t := swapRefuse s sec plane
    t.flag (Reg.SEC_SCHED_ARM sec) = false ∧ t.getF (Reg.SEC_SCHED_FOLD sec) = s.getF (Reg.SEC_SCHED_FOLD sec) ∧
    t.getF (Reg.SEC_SCHED_BASE sec) = s.getF (Reg.SEC_SCHED_BASE sec) ∧ t.flag (Reg.SEC_SCHED_STAT_REFUSED sec) = true ∧
    t.getF (Reg.SEC_SCHED_STAT_REF_PLANE sec) = plane ∧
    t.getF (Reg.SEC_SWAP_CNT_REFUSE_CNT sec) = min (s.getF (Reg.SEC_SWAP_CNT_REFUSE_CNT sec) + 1) 65535 := by
  refine ⟨?_, ?_, ?_, ?_, ?_, ?_⟩
  · unfold State.flag
    rw [getF_swapRefuse_lead s sec plane (.inl rfl)]
    exact arm_clearArm sec _
  · rw [getF_swapRefuse_lead s sec plane (.inl rfl), getF_leadRefused_sched s sec plane rfl (by simp [Reg.SEC_SCHED_FOLD])]
  · rw [getF_swapRefuse_lead s sec plane (.inl rfl), getF_leadRefused_sched s sec plane rfl (by simp [Reg.SEC_SCHED_BASE])]
  · unfold State.flag
    rw [getF_swapRefuse_lead s sec plane (.inr (.inl rfl)), getF_leadRefused s sec plane (.inl rfl)]
    exact refused_refuseIn s sec plane _
  · rw [getF_swapRefuse_lead s sec plane (.inr (.inl rfl)), getF_leadRefused s sec plane (.inl rfl), refPlane_refuseIn,
      Nat.mod_eq_of_lt hp]
  · rw [getF_swapRefuse_lead s sec plane (.inr (.inr rfl)), getF_leadRefused s sec plane (.inr rfl), refuseCnt_refuseIn]

end

/-! ### SWAP at its boundary -/

theorem lt_of_mem_planesOf {f b p : Nat} (h : p ∈ planesOf f b) : p < 8 := by
  obtain ⟨x, -, rfl⟩ := List.mem_map.mp h
  exact Nat.mod_lt _ (by decide)

section
variable {s : State} {sec : Fin 240} (h0 : s.slot0 = true) (hl : s.leader sec = sec) (ha : s.flag (Reg.SEC_SCHED_ARM sec) = true)
  (hf : tget (fun _ => false) s.armFresh sec = false) (hb : swapBoundary s sec = true)
include h0 hl ha hf hb

theorem exec_swap_of_ready (hp : (nextPlanes s sec).find? (fun p => anyEscrow s sec [p]) = none) :
    exec (.swap sec) s = .next (swapped s sec) := by
  unfold nextPlanes at hp
  rw [exec_swap]
  unfold execSwap
  dsimp only
  rw [if_pos (by simp [h0, hl, ha, hf, hb]), hp]
  unfold swapped
  cases follower s sec <;> rfl

theorem exec_swap_of_escrow {p : Nat} (hp : (nextPlanes s sec).find? (fun p => anyEscrow s sec [p]) = some p) :
    exec (.swap sec) s = .next (swapRefuse s sec p) := by
  unfold nextPlanes at hp
  rw [exec_swap]
  unfold execSwap
  dsimp only
  rw [if_pos (by simp [h0, hl, ha, hf, hb]), hp]

end

/-! ### The release of a held link -/

section
variable (s : State) (sec : Nat)

/-- The bits that count the held links of a sector (R107). -/
def heldFields : List Field := [Reg.SEC_VG_CNT_HELD_CNT sec, Reg.SEC_VG_STAT_HELD sec]

theorem bitsBut_heldCount : BitsBut (heldFields sec) s (heldCount s sec) :=
  bitsBut_putF (bitsBut_setF (bitsBut_refl _ s) _ _ (by simp [heldFields]) (by simp [Reg.SEC_VG_CNT_HELD_CNT])
    (by simp [Reg.SEC_VG_CNT_HELD_CNT])) _ _ (by simp [heldFields]) (by simp [Reg.SEC_VG_STAT_HELD]) (by simp [Reg.SEC_VG_STAT_HELD])

end

/-- The state in which a link is held no more. -/
def linkFreed (s : State) (k : Nat) : State := { s with vheld := tset (fun _ => none) s.vheld k none }

theorem exec_guardRelease_of_mended {s : State} {u v : Fin 12} {xy : Fin 120} {n : Fin 48} {h : HeldLink}
    (hk : tget (fun _ => none) s.vheld (vlinkKey (tileOf xy.val u.val v.val) n.val) = some h) (h0 : h.ok0 = true) (h1 : h.ok1 = true)
    (hm0 : tileMended s xy (tileOf xy.val u.val v.val) = true) (hm1 : tileMended s (xy.val + 120) (tileOf xy.val u.val v.val) = true) :
    exec (.guardRelease u v xy n) s = .next
      (heldCount (heldCount (linkFreed s (vlinkKey (tileOf xy.val u.val v.val) n.val)) xy.val) (xy.val + 120)) := by
  rw [exec_guardRelease]
  unfold execGuardRelease
  dsimp only
  rw [hk]
  exact okIf_of_true _ _ (by simp [h0, h1, hm0, hm1])

/-- Settles O8: a swap by the first incoming plane in escrow, the release by what it writes to the table of held links. -/
theorem swapsAndGuardRelease : Obligations.SwapsAndGuardRelease := by
  unfold Obligations.SwapsAndGuardRelease
  intro s
  refine ⟨fun sec h0 hl ha hf hb => ⟨fun hp => ?_, fun p hp => ?_⟩, fun u v xy n h => ?_⟩
  · refine ⟨_, exec_swap_of_ready h0 hl ha hf hb hp, ?_, ?_, ?_, ?_, fun q => swapCnt_follower s sec, bitsBut_swapped s sec,
      swapped_stores s sec, swapped_time s sec⟩
    · rw [getF_swapped s sec (.inl rfl), getF_leadSwapped s sec rfl, fold_schedSwapped]
    · rw [getF_swapped s sec (.inl rfl), getF_leadSwapped s sec rfl, base_schedSwapped]
    · unfold State.flag
      rw [getF_swapped s sec (.inl rfl), getF_leadSwapped s sec rfl]
      exact arm_clearArm sec _
    · rw [getF_swapped s sec (.inr rfl), swapCnt_leadSwapped]
  · obtain ⟨harm, hfold, hbase, hrefused, hplane, hcnt⟩ := swapRefuse_reads s sec p
      (lt_of_mem_planesOf (List.mem_of_find?_eq_some hp))
    exact ⟨_, exec_swap_of_escrow h0 hl ha hf hb hp, harm, hfold, hbase, hrefused, hplane, hcnt, raised_swapRefuse s sec p,
      swapRefuse_frame s sec p⟩
  · intro k hk h0 h1 hm0 hm1
    refine ⟨_, exec_guardRelease_of_mended hk h0 h1 hm0 hm1, tget_tset_self _ _ _ _,
      fun k' hne => tget_tset_ne _ _ _ _ _ hne, ?_, rfl⟩
    exact bitsBut_trans (bitsBut_mono (bitsBut_of_regs (bitsBut_heldCount (linkFreed s k) xy) rfl) (by simp [heldFields]))
      (bitsBut_mono (bitsBut_heldCount _ (xy.val + 120)) (by simp [heldFields]))

/-! ### Operations of MAC blocks -/

section
variable {s : State} {sec m : Nat} {kind : MacKind}

/-- The operation of a kind that the operands and the controls of a block give in this slot (R116, R117, R120). -/
def macOperation (s : State) (sec m : Nat) (kind : MacKind) : MacOp :=
  let v := s.view
  let g := macTile sec m
  let c := mctl v g
  { at_ := s.time.slots, plane := s.plane sec, kind := kind,
    t := if kind = .madd then maddTerm c (v.afBus g 0 24) (v.afBus g 264 24) (v.afBus g 528 24)
      else leafSum c (v.afBus g 0 24) (v.afBus g 264 24) (v.afBus g 528 24) (v.afBus g 792 48),
    c := operand (c.testBit 12) 48 (v.afBus g 792 48), zsel := nbits c 6 4, ld := v.afIn g 1331, wracc := c.testBit 13,
    sat := c.testBit 14 }

section
variable (hen : s.view.afIn (macTile sec m) 1320 = true)
include hen

theorem macIssue_madd (hop : nbits (mctl s.view (macTile sec m)) 2 0 = 1) :
    macIssue s sec m = some (macOperation s sec m .madd) := by
  unfold macIssue; simp only [hop, hen]; rfl

theorem macIssue_leaf (hop : nbits (mctl s.view (macTile sec m)) 2 0 = 2) (hm : m % 4 ≠ 3) :
    macIssue s sec m = some (macOperation s sec m .leaf) := by
  unfold macIssue; simp only [hop, hen, hm]; rfl

theorem macIssue_head (hop : nbits (mctl s.view (macTile sec m)) 2 0 = 3) (hm : m % 4 = 3) :
    macIssue s sec m = some (macOperation s sec m .head) := by
  unfold macIssue; simp only [hop, hen, hm]; rfl

end

theorem macIssue_of_disabled (hen : s.view.afIn (macTile sec m) 1320 = false) : macIssue s sec m = none := by
  unfold macIssue
  dsimp only
  rw [hen]
  split <;> rfl

theorem macTake_of_issue (hi : s.mayIssue sec = true) (hb : (s.mac sec m).ops.all (fun o => o.at_ != s.time.slots) = true)
    (h : macIssue s sec m = some (macOperation s sec m kind)) : macTake s sec m kind =
      .next (s.setMac sec m { s.mac sec m with ops := (s.mac sec m).ops ++ [macOperation s sec m kind] }) := by
  unfold macTake
  dsimp only
  rw [if_pos (by rw [hi, hb]; rfl), h]
  exact if_pos rfl

theorem macTake_of_none (h : macIssue s sec m = none) : macTake s sec m kind = .next s := by
  unfold macTake
  dsimp only
  rw [h]
  exact ite_self _

end

/-- Settles O9: by what the operation code issues, and by nothing issued with EN at 0. -/
theorem macOperationsAreTaken : Obligations.MacOperationsAreTaken := by
  unfold Obligations.MacOperationsAreTaken
  intro s sec m hi hb
  refine ⟨fun hen hop => ?_, fun hen hop hm => ?_, fun hen hop hm => ?_, fun hen => ?_⟩
  · exact (exec_madd s sec m).trans (macTake_of_issue hi hb (macIssue_madd hen hop))
  · exact (exec_leaf s sec m).trans (macTake_of_issue hi hb (macIssue_leaf hen hop hm))
  · exact (exec_head s sec m).trans (macTake_of_issue hi hb (macIssue_head hen hop hm))
  · have hnone := macIssue_of_disabled hen
    exact ⟨(exec_madd s sec m).trans (macTake_of_none hnone), (exec_leaf s sec m).trans (macTake_of_none hnone),
      (exec_head s sec m).trans (macTake_of_none hnone)⟩

end Sys2Proof.Machine

/-!
SUPPORT. Results of MAC blocks, rankers and the accumulator port (06_mac_ranker.md R116, R117, R125 to R129, R134): what the
reduction of a sum gives, what inserting entries leaves in a ranked list, what a ranker takes or refuses, and how an access through
the accumulator port starts, is served and is given up.
-/

namespace Sys2Proof.Machine

/-! ### The reduction of S -/

section
variable (sat : Bool) {x : Int}

theorem reduceS_ovf_iff : (reduceS sat x).2 = true ↔ x < -9223372036854775808 ∨ 9223372036854775807 < x := by
  simp [reduceS]

theorem reduceS_inside (hlo : -9223372036854775808 ≤ x) (hhi : x ≤ 9223372036854775807) :
    (reduceS sat x).1 = BitVec.ofInt 64 x := by
  have hlo' : ¬ x < -(2 ^ 63 : Nat) := by omega
  have hhi' : ¬ (2 ^ 63 : Nat) - 1 < x := by omega
  simp only [reduceS, hlo', hhi', if_false, ite_self]

theorem reduceS_saturated (h : (reduceS true x).2 = true) : (reduceS true x).1 =
    if x < 0 then BitVec.ofInt 64 (-9223372036854775808) else BitVec.ofInt 64 9223372036854775807 := by
  rw [reduceS_ovf_iff] at h
  simp only [reduceS, if_true]
  split
  · rw [if_pos (by omega)]; rfl
  · rw [if_pos (by omega), if_neg (by omega)]; rfl

theorem reduceS_modular : (reduceS false x).1 = BitVec.ofInt 64 x := rfl

end

/-- Settles O10: by the place of S inside or outside the signed range. -/
theorem macReductionIsExactSaturatingOrModular : Obligations.MacReductionIsExactSaturatingOrModular := by
  unfold Obligations.MacReductionIsExactSaturatingOrModular
  intro sat x
  refine ⟨reduceS_ovf_iff sat, fun hin => ?_, fun hout hsat => ?_, fun hsat => ?_⟩
  · rw [Bool.eq_false_iff, ne_eq, reduceS_ovf_iff] at hin
    rw [reduceS_inside sat (by omega) (by omega)]
    exact BitVec.toInt_ofInt_eq_self (by decide) (by omega) (by omega)
  · subst hsat
    rw [reduceS_saturated hout]
    split <;> rfl
  · subst hsat
    rw [reduceS_modular, BitVec.toNat_ofInt]
    omega

/-! ### Ranked lists -/

/-- Keys that do not rise from one entry to any later one. -/
theorem ranked_iff_pairwise (l : List Nat) : ranked l = true ↔ l.Pairwise (fun a b => entryKey b ≤ entryKey a) := by
  have htrans : IsTrans Nat (fun a b => entryKey b ≤ entryKey a) := ⟨fun _ _ _ hab hbc => hbc.trans hab⟩
  rw [← List.isChain_iff_pairwise]
  match l with
  | [] => simp [ranked]
  | [_] => simp [ranked]
  | a :: b :: r => rw [ranked, Bool.and_eq_true, decide_eq_true_eq, ranked_iff_pairwise (b :: r), List.isChain_cons_cons,
      List.isChain_iff_pairwise]

/-- Putting an entry into its place is the ordered insertion by key. -/
theorem rankInsert_eq_orderedInsert (e : Nat) (l : List Nat) :
    rankInsert e l = l.orderedInsert (fun a b => entryKey b < entryKey a) e := by
  induction l with
  | nil => rfl
  | cons x l ih => rw [rankInsert, ih, List.orderedInsert_cons]

theorem mem_rankInsert {e x : Nat} {l : List Nat} : x ∈ rankInsert e l ↔ x = e ∨ x ∈ l := by
  rw [rankInsert_eq_orderedInsert, List.mem_orderedInsert]

theorem ranked_rankInsert (e : Nat) {l : List Nat} (h : ranked l = true) : ranked (rankInsert e l) = true := by
  rw [ranked_iff_pairwise] at h ⊢
  induction l with
  | nil => exact List.pairwise_singleton _ e
  | cons x l ih =>
    obtain ⟨hx, hl⟩ := List.pairwise_cons.mp h
    unfold rankInsert
    split
    · rename_i hlt
      refine List.pairwise_cons.mpr ⟨fun y hy => ?_, h⟩
      rcases List.mem_cons.mp hy with rfl | hy
      · exact hlt.le
      · exact (hx y hy).trans hlt.le
    · rename_i hge
      refine List.pairwise_cons.mpr ⟨fun y hy => ?_, ih hl⟩
      rcases mem_rankInsert.mp hy with rfl | hy
      · exact Nat.le_of_not_lt hge
      · exact hx y hy

/-- The entries offered, inserted one after another; empty ones are dropped. -/
def rankFold (l es : List Nat) : List Nat := es.foldl (fun acc e => if entryKey e = 0 then acc else rankInsert e acc) l

theorem rankAll_eq_take (l es : List Nat) : rankAll l es = (rankFold l es).take 32 := rfl

theorem ranked_rankFold {l : List Nat} (es : List Nat) (h : ranked l = true) : ranked (rankFold l es) = true := by
  unfold rankFold
  induction es generalizing l with
  | nil => exact h
  | cons e es ih =>
    refine ih ?_
    dsimp only
    split
    · exact h
    · exact ranked_rankInsert e h

theorem mem_rankFold {x : Nat} {l es : List Nat} : x ∈ rankFold l es ↔ x ∈ l ∨ (x ∈ es ∧ entryKey x ≠ 0) := by
  unfold rankFold
  induction es generalizing l with
  | nil => simp
  | cons e es ih =>
    rw [List.foldl_cons, ih, List.mem_cons, or_and_right]
    by_cases h0 : entryKey e = 0
    · have hdrop : ¬(x = e ∧ entryKey x ≠ 0) := fun ⟨hx, hkey⟩ => hkey (hx ▸ h0)
      rw [if_pos h0, or_iff_right hdrop]
    · have hkeep : x = e ∧ entryKey x ≠ 0 ↔ x = e := and_iff_left_of_imp (fun hx => hx ▸ h0)
      rw [if_neg h0, hkeep, mem_rankInsert, or_comm (a := x = e), or_assoc]

/-- What stands first in a ranked list has the highest key. -/
theorem entryKey_le_head {h : Nat} {l : List Nat} (hr : ranked l = true) (hh : l.head? = some h) :
    ∀ x ∈ l, entryKey x ≤ entryKey h := by
  obtain ⟨r, rfl⟩ := List.head?_eq_some_iff.mp hh
  intro x hx
  rcases List.mem_cons.mp hx with rfl | hx
  · exact Nat.le_refl _
  · exact (List.pairwise_cons.mp ((ranked_iff_pairwise _).mp hr)).1 x hx

/-- The only entry with the highest key stands first. -/
theorem head_of_highest {e : Nat} {l : List Nat} (hr : ranked l = true) (he : e ∈ l)
    (hmax : ∀ f ∈ l, f = e ∨ entryKey f < entryKey e) : l.head? = some e := by
  cases hh : l.head? with
  | none => rw [List.head?_eq_none_iff] at hh; subst hh; cases he
  | some h =>
    have hle := entryKey_le_head hr hh e he
    rcases hmax h (List.mem_of_head? hh) with rfl | hlt
    · rfl
    · omega

/-- Settles O11: by what an insertion keeps, and by the highest key standing first in a ranked list. -/
theorem rankedListsStayRanked : Obligations.RankedListsStayRanked := by
  unfold Obligations.RankedListsStayRanked
  intro l es hl h0
  have hr := ranked_rankFold es hl
  dsimp only
  rw [rankAll_eq_take]
  have hmem : ∀ e ∈ (rankFold l es).take 32, e ∈ l ∨ (e ∈ es ∧ entryKey e ≠ 0) :=
    fun e he => mem_rankFold.mp (List.mem_of_mem_take he)
  refine ⟨?_, List.length_take_le _ _, fun e he => (hmem e he).elim (h0 e) And.right, fun e he => (hmem e he).imp_right And.left,
    fun e he hkey hmax => ?_⟩
  · rw [ranked_iff_pairwise] at hr ⊢
    exact hr.sublist (List.take_sublist _ _)
  · rw [List.head?_take, if_neg (by decide)]
    refine head_of_highest hr (mem_rankFold.mpr (.inr ⟨he, hkey⟩)) (fun f hf => hmax f ?_)
    exact List.mem_append.mpr ((mem_rankFold.mp hf).imp_right And.left)

/-! ### Operations of rankers -/

section
variable {s : State} {sec : Fin 240} {r : Fin 2}

section
variable (hi : rankIssues s sec r 1 = true)
include hi

theorem exec_top_of_merging (hm : merging s (s.ranker sec r) = true) : exec (.top sec r) s = .next (rankRefuse s sec r true) := by
  rw [exec_top]
  unfold execTop
  dsimp only
  rw [if_pos hi, if_pos hm]

theorem exec_top_of_free (hm : merging s (s.ranker sec r) = false) : exec (.top sec r) s = .next (s.setRanker sec r
    { s.ranker sec r with
      list := rankAll (s.ranker sec r).list (fabEntries s.view sec r), opAt := some s.time.slots }) := by
  rw [exec_top]
  unfold execTop
  dsimp only
  rw [if_pos hi, if_neg (Bool.eq_false_iff.mp hm)]

end

section
variable (hi : rankIssues s sec r 2 = true)
include hi

theorem exec_flush_of_merging (hm : merging s (s.ranker sec r) = true) :
    exec (.flush sec r) s = .next (rankRefuse s sec r true) := by
  rw [exec_flush]
  unfold execFlush
  dsimp only
  rw [if_pos hi, if_pos hm]

theorem exec_flush_of_overlap (hm : merging s (s.ranker sec r) = false)
    (ho : overlaps (s.ranker sec r) (s.time.slots + 14) = true) : exec (.flush sec r) s = .next (rankRefuse s sec r false) := by
  rw [exec_flush]
  unfold execFlush
  dsimp only
  rw [if_pos hi, if_neg (Bool.eq_false_iff.mp hm), if_pos ho]

theorem exec_flush_of_free (hm : merging s (s.ranker sec r) = false)
    (ho : overlaps (s.ranker sec r) (s.time.slots + 14) = false) : exec (.flush sec r) s = .next (s.setRanker sec r
      { s.ranker sec r with
        list := [], opAt := some s.time.slots
        outs := (s.ranker sec r).outs ++ (List.range 4).map (fun g =>
          (s.time.slots + 14 + g, groupOf (rankAll (s.ranker sec r).list (fabEntries s.view sec r)) g)) }) := by
  rw [exec_flush]
  unfold execFlush
  dsimp only
  rw [if_pos hi, if_neg (Bool.eq_false_iff.mp hm), if_neg (Bool.eq_false_iff.mp ho)]

end

section
variable (hi : rankIssues s sec r 3 = true)
include hi

theorem exec_merge_of_merging (hm : merging s (s.ranker sec r) = true) :
    exec (.merge sec r) s = .next (rankRefuse s sec r true) := by
  rw [exec_merge]
  unfold execMerge
  dsimp only
  rw [if_pos hi, if_pos hm]

theorem exec_merge_of_overlap (hm : merging s (s.ranker sec r) = false)
    (ho : overlaps (s.ranker sec r) (s.time.slots + 13) = true) : exec (.merge sec r) s = .next (rankRefuse s sec r false) := by
  rw [exec_merge]
  unfold execMerge
  dsimp only
  rw [if_pos hi, if_neg (Bool.eq_false_iff.mp hm), if_pos ho]

/-- The MERGE that a ranker takes note of, with no input yet (R127). -/
def mergeTaken (s : State) (sec r : Nat) : MergeIn :=
  let c := rctl s.view sec r
  ⟨s.time.slots, nbits c 7 4, nbits c 11 8, nbits c 16 12, nbits c 21 17, [], []⟩

theorem exec_merge_of_free (hm : merging s (s.ranker sec r) = false)
    (ho : overlaps (s.ranker sec r) (s.time.slots + 13) = false) : exec (.merge sec r) s = .next (s.setRanker sec r
      { s.ranker sec r with
        merge := some (mergeTaken s sec r), opAt := some s.time.slots
        outs := (s.ranker sec r).outs ++ (List.range 4).map (fun g => (s.time.slots + 13 + g, [])) }) := by
  rw [exec_merge]
  unfold execMerge
  dsimp only
  rw [if_pos hi, if_neg (Bool.eq_false_iff.mp hm), if_neg (Bool.eq_false_iff.mp ho)]
  rfl

end

/-- The flag of a refusal's cause: a MERGE that takes its inputs, or output slots already promised (R129). -/
def refuseFlag (sec r : Nat) (inSide : Bool) : Field :=
  if r = 0 then (if inSide then Reg.SEC_HB_STAT_RK0_IN sec else Reg.SEC_HB_STAT_RK0_OUT sec)
  else (if inSide then Reg.SEC_HB_STAT_RK1_IN sec else Reg.SEC_HB_STAT_RK1_OUT sec)

/-- The count of the refusals of a ranker. -/
def refuseCount (sec r : Nat) : Field := if r = 0 then Reg.SEC_HB_CNT_RK0_REF sec else Reg.SEC_HB_CNT_RK1_REF sec

end

section
variable (sec r : Nat) (inSide : Bool)

theorem refuseFlag_place : (refuseFlag sec r inSide).reg = Reg.SEC_HB_STAT sec ∧
    (refuseFlag sec r inSide).lo ≤ (refuseFlag sec r inSide).hi ∧ (refuseFlag sec r inSide).hi < 32 := by
  unfold refuseFlag
  split <;> split <;>
    simp [Reg.SEC_HB_STAT_RK0_IN, Reg.SEC_HB_STAT_RK0_OUT, Reg.SEC_HB_STAT_RK1_IN, Reg.SEC_HB_STAT_RK1_OUT]

theorem refuseCount_place : (refuseCount sec r).reg = Reg.SEC_HB_CNT sec ∧
    (refuseCount sec r).lo ≤ (refuseCount sec r).hi ∧ (refuseCount sec r).hi < 32 := by
  unfold refuseCount
  split <;> simp [Reg.SEC_HB_CNT_RK0_REF, Reg.SEC_HB_CNT_RK1_REF]

variable (s : State)

/-- The refusal of a ranker: its cause and its count are recorded, and the ranker has had its operation of the slot. -/
theorem rankRefuse_eq : rankRefuse s sec r inSide = ((s.raiseF (refuseFlag sec r inSide)).incF (refuseCount sec r)).setRanker sec r
    { s.ranker sec r with opAt := some s.time.slots } := rfl

theorem rankRefuse_reads : (rankRefuse s sec r inSide).flag (refuseFlag sec r inSide) = true ∧
    BitsBut [refuseFlag sec r inSide, refuseCount sec r] s (rankRefuse s sec r inSide) := by
  obtain ⟨hfreg, hf⟩ := refuseFlag_place sec r inSide
  obtain ⟨hcreg, hc⟩ := refuseCount_place sec r
  have hne : (refuseFlag sec r inSide).reg ≠ (refuseCount sec r).reg := by
    rw [hfreg, hcreg]; simp [Reg.SEC_HB_STAT, Reg.SEC_HB_CNT]
  obtain ⟨hflag, -, hbits⟩ := raiseF_incF_reads (u := s) rfl hne hf hc
  rw [rankRefuse_eq]
  exact ⟨(flag_of_regs (State.setRanker_regs _ _ _ _) _).trans hflag, bitsBut_of_regs hbits (State.setRanker_regs _ _ _ _)⟩

theorem rankers_rankRefuse : (rankRefuse s sec r inSide).rankers =
    (s.setRanker sec r { s.ranker sec r with opAt := some s.time.slots }).rankers := rfl

theorem rankRefuse_frame : { rankRefuse s sec r inSide with regs := s.regs, cyc := s.cyc, rankers := s.rankers } = s := rfl

end

/-- Settles O12: each operation by whether a MERGE takes its inputs and by whether its output slots are promised. -/
theorem rankerOperations : Obligations.RankerOperations := by
  unfold Obligations.RankerOperations
  intro s sec r x j es c put gs m0 fl cIn cOut refused
  have hin : refused cIn (rankRefuse s sec r true) := by
    obtain ⟨hflag, hbits⟩ := rankRefuse_reads sec r true s
    exact ⟨hflag, rankers_rankRefuse sec r true s, hbits, rankRefuse_frame sec r true s⟩
  have hout : refused cOut (rankRefuse s sec r false) := by
    obtain ⟨hflag, hbits⟩ := rankRefuse_reads sec r false s
    exact ⟨hflag, rankers_rankRefuse sec r false s, hbits, rankRefuse_frame sec r false s⟩
  exact ⟨exec_top_of_free, exec_flush_of_free, exec_merge_of_free,
    fun hi hm => ⟨_, exec_top_of_merging hi hm, hin⟩, fun hi hm => ⟨_, exec_flush_of_merging hi hm, hin⟩,
    fun hi hm => ⟨_, exec_merge_of_merging hi hm, hin⟩, fun hi hm ho => ⟨_, exec_flush_of_overlap hi hm ho, hout⟩,
    fun hi hm ho => ⟨_, exec_merge_of_overlap hi hm ho, hout⟩⟩

/-! ### The accumulator port -/

/-- A field of a masked number is the field of the number where the mask has ones in all its bits. -/
theorem nbits_and_of_ones {x m hi lo : Nat} (h : nbits m hi lo = 2 ^ (hi + 1 - lo) - 1) :
    nbits (x &&& m) hi lo = nbits x hi lo := by
  unfold nbits at h ⊢
  rw [← Nat.shiftRight_eq_div_pow] at h ⊢
  rw [Nat.shiftRight_and_distrib, Nat.and_mod_two_pow, h, Nat.and_two_pow_sub_one_eq_mod, Nat.mod_mod, Nat.shiftRight_eq_div_pow]

section
variable {wr tgt : Bool} {q n : Nat} (hq : q < 8) (hn : n < 32)
include hq hn

theorem toNat_macSelWord : (macSelWord wr tgt q n).toNat = 2 ^ 31 + 2 ^ 30 * wr.toNat + 2 ^ 29 * tgt.toNat + 2 ^ 8 * q + n := by
  have hwr := Bool.toNat_le wr
  have htgt := Bool.toNat_le tgt
  unfold macSelWord
  rw [BitVec.toNat_ofNat]
  omega

theorem nbits_macSelWord_mac : nbits (macSelWord wr tgt q n).toNat 4 0 = n := by
  rw [toNat_macSelWord hq hn, nbits]; omega

theorem nbits_macSelWord_plane : nbits (macSelWord wr tgt q n).toNat 10 8 = q := by
  rw [toNat_macSelWord hq hn, nbits]; omega

theorem nbits_macSelWord_tgt : nbits (macSelWord wr tgt q n).toNat 29 29 = tgt.toNat := by
  have htgt := Bool.toNat_le tgt
  rw [toNat_macSelWord hq hn, nbits]; omega

theorem nbits_macSelWord_wr : nbits (macSelWord wr tgt q n).toNat 30 30 = wr.toNat := by
  have hwr := Bool.toNat_le wr
  have htgt := Bool.toNat_le tgt
  rw [toNat_macSelWord hq hn, nbits]; omega

theorem go_macSelWord : (macSelWord wr tgt q n).getLsbD 31 = true := by
  have hwr := Bool.toNat_le wr
  have htgt := Bool.toNat_le tgt
  rw [BitVec.getLsbD, toNat_macSelWord hq hn, Nat.testBit_eq_decide_div_mod_eq, decide_eq_true_eq]
  omega

end

/-- The state in which SEC_MAC_SEL of a sector holds the selection of a word, without its GO. -/
def macSelected (s : State) (sec : Nat) (v : Word32) : State := s.setReg (Reg.SEC_MAC_SEL sec) (v &&& 0x6000071F#32)

/-- The start of an access in a sector whose selection stands (R134). -/
def accStarted (s : State) (sec : Nat) : State :=
  { s.raiseF (Reg.SEC_HB_STAT_ACC_BUSY sec) with
    macWait := tset (fun _ => 0) s.macWait sec 0
    cyc := if s.logs then { s.cyc with accNew := sec :: s.cyc.accNew } else s.cyc }

section
variable {s : State} {sec : Nat} {v : Word32}

theorem macSelWrite_of_busy (hb : s.flag (Reg.SEC_HB_STAT_ACC_BUSY sec) = true) : macSelWrite s sec v = s := if_pos hb

section
variable (hb : s.flag (Reg.SEC_HB_STAT_ACC_BUSY sec) = false) (hgo : v.getLsbD 31 = true)
include hb hgo

theorem macSelWrite_of_missing_block (h : 24 ≤ nbits v.toNat 4 0) :
    macSelWrite s sec v = (macSelected s sec v).raiseF (Reg.SEC_HB_STAT_ACC_ERR sec) := by
  unfold macSelWrite
  dsimp only
  rw [if_neg (Bool.eq_false_iff.mp hb), if_pos hgo, if_pos h]
  rfl

theorem macSelWrite_of_block (h : nbits v.toNat 4 0 < 24) : macSelWrite s sec v = accStarted (macSelected s sec v) sec := by
  unfold macSelWrite
  dsimp only
  rw [if_neg (Bool.eq_false_iff.mp hb), if_pos hgo, if_neg (Nat.not_le.mpr h)]
  rfl

end
end

/-- Where `t` shows the word of a GO in SEC_MAC_SEL, its fields read the selection. -/
theorem selection_reads {s t : State} {sec : Nat} {wr tgt : Bool} {q n : Nat} (hq : q < 8) (hn : n < 32)
    (h : t.reg (Reg.SEC_MAC_SEL sec) = (macSelected s sec (macSelWord wr tgt q n)).reg (Reg.SEC_MAC_SEL sec)) :
    t.getF (Reg.SEC_MAC_SEL_MAC sec) = n ∧ t.getF (Reg.SEC_MAC_SEL_PLANE sec) = q ∧
      t.flag (Reg.SEC_MAC_SEL_TGT sec) = tgt ∧ t.flag (Reg.SEC_MAC_SEL_WR sec) = wr := by
  have hfield (f : Field) (hr : f.reg = Reg.SEC_MAC_SEL sec) 
      (hm : nbits (0x6000071F#32).toNat f.hi f.lo = 2 ^ (f.hi + 1 - f.lo) - 1) :
      t.getF f = nbits (macSelWord wr tgt q n).toNat f.hi f.lo := by
    rw [← nbits_and_of_ones hm, nbits, State.getF, hr, h, macSelected, reg_setReg_self, BitVec.toNat_and]
  refine ⟨?_, ?_, ?_, ?_⟩
  · exact (hfield (Reg.SEC_MAC_SEL_MAC sec) rfl (by simp [Reg.SEC_MAC_SEL_MAC, nbits])).trans (nbits_macSelWord_mac hq hn)
  · exact (hfield (Reg.SEC_MAC_SEL_PLANE sec) rfl (by simp [Reg.SEC_MAC_SEL_PLANE, nbits])).trans (nbits_macSelWord_plane hq hn)
  · rw [State.flag, hfield (Reg.SEC_MAC_SEL_TGT sec) rfl (by simp [Reg.SEC_MAC_SEL_TGT, nbits])]
    refine (congrArg (· != 0) (nbits_macSelWord_tgt hq hn)).trans ?_
    cases tgt <;> rfl
  · rw [State.flag, hfield (Reg.SEC_MAC_SEL_WR sec) rfl (by simp [Reg.SEC_MAC_SEL_WR, nbits])]
    refine (congrArg (· != 0) (nbits_macSelWord_wr hq hn)).trans ?_
    cases wr <;> rfl

section
variable (s : State) (sec : Nat)

/-- The bits that a GO may change in a sector. -/
def goFields : List Field := [wholeReg (Reg.SEC_MAC_SEL sec), Reg.SEC_HB_STAT_ACC_BUSY sec, Reg.SEC_HB_STAT_ACC_ERR sec]

theorem bitsBut_macSelected (v : Word32) : BitsBut (goFields sec) s (macSelected s sec v) :=
  bitsBut_setReg (bitsBut_refl _ s) _ _ (by simp [goFields])

theorem busy_macSelected (v : Word32) :
    (macSelected s sec v).flag (Reg.SEC_HB_STAT_ACC_BUSY sec) = s.flag (Reg.SEC_HB_STAT_ACC_BUSY sec) := by
  unfold State.flag macSelected
  rw [getF_setReg_ne _ _ _ _ (by simp [Reg.SEC_HB_STAT_ACC_BUSY, Reg.SEC_HB_STAT, Reg.SEC_MAC_SEL])]

/-- A bit raised in SEC_HB_STAT leaves SEC_MAC_SEL. -/
theorem macSel_raiseF {f : Field} (hf : f.reg = Reg.SEC_HB_STAT sec) :
    (s.raiseF f).reg (Reg.SEC_MAC_SEL sec) = s.reg (Reg.SEC_MAC_SEL sec) := by
  rw [reg_raiseF, reg_setF_ne _ _ _ _ (by rw [hf]; simp [Reg.SEC_HB_STAT, Reg.SEC_MAC_SEL])]

theorem busy_raiseErr : (s.raiseF (Reg.SEC_HB_STAT_ACC_ERR sec)).flag (Reg.SEC_HB_STAT_ACC_BUSY sec) =
    s.flag (Reg.SEC_HB_STAT_ACC_BUSY sec) :=
  flag_of_bitsBut (bitsBut_raiseF (bitsBut_refl [Reg.SEC_HB_STAT_ACC_ERR sec] s) _ (List.mem_singleton.mpr rfl)
    (by simp [Reg.SEC_HB_STAT_ACC_ERR]) (by simp [Reg.SEC_HB_STAT_ACC_ERR]))
    (by simp [Reg.SEC_HB_STAT_ACC_ERR, Reg.SEC_HB_STAT_ACC_BUSY])

/-- `t` is what a GO makes of `s`: the selection stands, an access of a block below 24 has started, and for another ACC_ERR is
set. -/
def GoTaken (s t : State) (sec : Nat) (wr tgt : Bool) (q : Fin 8) (n : Fin 32) : Prop :=
  t.getF (Reg.SEC_MAC_SEL_MAC sec) = n.val ∧ t.getF (Reg.SEC_MAC_SEL_PLANE sec) = q.val ∧
  t.flag (Reg.SEC_MAC_SEL_TGT sec) = tgt ∧ t.flag (Reg.SEC_MAC_SEL_WR sec) = wr ∧
  t.flag (Reg.SEC_HB_STAT_ACC_BUSY sec) = decide (n.val < 24) ∧ (24 ≤ n.val → t.flag (Reg.SEC_HB_STAT_ACC_ERR sec) = true) ∧
  BitsBut (goFields sec) s t ∧ { t with regs := s.regs, cyc := s.cyc, macWait := s.macWait } = s

theorem goTaken_macSelWrite (hb : s.flag (Reg.SEC_HB_STAT_ACC_BUSY sec) = false) (wr tgt : Bool) (q : Fin 8) (n : Fin 32) :
    GoTaken s (macSelWrite s sec (macSelWord wr tgt q n)) sec wr tgt q n := by
  have hgo : (macSelWord wr tgt q n).getLsbD 31 = true := go_macSelWord q.isLt n.isLt
  have hmac : nbits (macSelWord wr tgt q n).toNat 4 0 = n := nbits_macSelWord_mac q.isLt n.isLt
  have hsel := bitsBut_macSelected s sec (macSelWord wr tgt q n)
  unfold GoTaken
  rcases Nat.lt_or_ge n.val 24 with hlt | hge
  · rw [macSelWrite_of_block hb hgo (by omega), decide_eq_true hlt]
    obtain ⟨hmac, hplane, htgt, hwr⟩ := selection_reads q.isLt n.isLt
      (t := accStarted (macSelected s sec (macSelWord wr tgt q n)) sec) (macSel_raiseF _ sec rfl)
    obtain ⟨hflag, hbits⟩ := raiseF_reads (Reg.SEC_HB_STAT_ACC_BUSY sec) hsel (by simp [goFields])
      (by simp [Reg.SEC_HB_STAT_ACC_BUSY])
    exact ⟨hmac, hplane, htgt, hwr, hflag, fun h => absurd hlt (Nat.not_lt.mpr h), bitsBut_of_regs hbits rfl, rfl⟩
  · rw [macSelWrite_of_missing_block hb hgo (by omega), decide_eq_false (Nat.not_lt.mpr hge)]
    obtain ⟨hmac, hplane, htgt, hwr⟩ := selection_reads q.isLt n.isLt
      (t := (macSelected s sec (macSelWord wr tgt q n)).raiseF (Reg.SEC_HB_STAT_ACC_ERR sec)) (macSel_raiseF _ sec rfl)
    obtain ⟨hflag, hbits⟩ := raiseF_reads (Reg.SEC_HB_STAT_ACC_ERR sec) hsel (by simp [goFields])
      (by simp [Reg.SEC_HB_STAT_ACC_ERR])
    exact ⟨hmac, hplane, htgt, hwr, by rw [busy_raiseErr, busy_macSelected, hb], fun _ => hflag, hbits, rfl⟩

end

section
variable {s : State} {sec : Fin 240}

theorem exec_macPortRead_of_alive (ha : s.alive = true) (tgt : Bool) (q : Fin 8) (n : Fin 32) :
    exec (.macPortRead sec tgt q n) s = .next (macSelWrite s sec (macSelWord false tgt q n)) :=
  (exec_macPortRead s sec tgt q n).trans (okIf_of_true _ _ ha)

theorem exec_macPortWrite_of_alive (ha : s.alive = true) (tgt : Bool) (q : Fin 8) (n : Fin 32) :
    exec (.macPortWrite sec tgt q n) s = .next (macSelWrite s sec (macSelWord true tgt q n)) :=
  (exec_macPortWrite s sec tgt q n).trans (okIf_of_true _ _ ha)

end

/-! ### An access served -/

section
variable (s : State) (sec : Nat)

/-- DHI:DLO of a sector. -/
def accData : Word64 := s.reg (Reg.SEC_MAC_DHI sec) ++ s.reg (Reg.SEC_MAC_DLO sec)

/-- What a read through the port finds at its selection: PRE[p] for TGT = 1 and for an accumulator under the set-reset. -/
def accFound : Word64 :=
  let m := s.getF (Reg.SEC_MAC_SEL_MAC sec)
  let p := s.getF (Reg.SEC_MAC_SEL_PLANE sec)
  if s.flag (Reg.SEC_MAC_SEL_TGT sec) || s.held sec then s.pre sec m p else s.acc sec m p

/-- The access itself, before its service is recorded: a write stores DHI:DLO, a read answers in them. -/
def accPerformed : State :=
  let m := s.getF (Reg.SEC_MAC_SEL_MAC sec)
  let p := s.getF (Reg.SEC_MAC_SEL_PLANE sec)
  if s.flag (Reg.SEC_MAC_SEL_WR sec) then
    if s.flag (Reg.SEC_MAC_SEL_TGT sec) then s.setPre sec m p (accData s sec)
    else if s.held sec then s else s.setAcc sec m p (accData s sec)
  else
    (s.setReg (Reg.SEC_MAC_DLO sec) ((accFound s sec).setWidth 32)).setReg (Reg.SEC_MAC_DHI sec)
      ((accFound s sec >>> 32).setWidth 32)

/-- The record of a service: the wait starts again, and ACC_BUSY is to fall with the slot. -/
def accServed (u : State) : State :=
  { u with macWait := tset (fun _ => 0) u.macWait sec 0, cyc := { u.cyc with acc := u.cyc.acc ++ [sec] } }

theorem macPortDo_eq : macPortDo s sec = (accServed sec (accPerformed s sec)).portEnds 0 sec true := by
  unfold macPortDo accPerformed accFound
  cases s.flag (Reg.SEC_MAC_SEL_TGT sec) <;> rfl

theorem portEnds_ld_congr {s t : State} (h : t.ld = s.ld) (kind sec : Nat) (served : Bool) :
    (t.portEnds kind sec served).ld = (s.portEnds kind sec served).ld := by
  unfold State.portEnds
  rw [h]
  split
  · split
    · rfl
    · exact h
  · exact h

/-- The fields in which a read answers. -/
def answerFields : List Field := [wholeReg (Reg.SEC_MAC_DHI sec), wholeReg (Reg.SEC_MAC_DLO sec)]

theorem accPerformed_eq : accPerformed s sec =
    { s with regs := (accPerformed s sec).regs, macAcc := (accPerformed s sec).macAcc, macPre := (accPerformed s sec).macPre } := by
  unfold accPerformed
  dsimp only
  split
  · split
    · rfl
    · split <;> rfl
  · rfl

theorem bitsBut_accPerformed : BitsBut (answerFields sec) s (accPerformed s sec) := by
  unfold accPerformed
  dsimp only
  split
  · split
    · exact bitsBut_of_regs (bitsBut_refl _ s) rfl
    · split
      · exact bitsBut_refl _ s
      · exact bitsBut_of_regs (bitsBut_refl _ s) rfl
  · exact bitsBut_setReg (bitsBut_setReg (bitsBut_refl _ s) _ _ (by simp [answerFields])) _ _ (by simp [answerFields])

theorem macPortDo_regs : (macPortDo s sec).regs = (accPerformed s sec).regs := by
  rw [macPortDo_eq, State.portEnds_regs]; rfl

theorem bitsBut_macPortDo : BitsBut (answerFields sec) s (macPortDo s sec) :=
  bitsBut_of_regs (bitsBut_accPerformed s sec) (macPortDo_regs s sec)

theorem busy_macPortDo : (macPortDo s sec).flag (Reg.SEC_HB_STAT_ACC_BUSY sec) = s.flag (Reg.SEC_HB_STAT_ACC_BUSY sec) :=
  flag_of_bitsBut (bitsBut_macPortDo s sec) (by
    simp [answerFields, wholeReg, Reg.SEC_HB_STAT_ACC_BUSY, Reg.SEC_HB_STAT, Reg.SEC_MAC_DHI, Reg.SEC_MAC_DLO])

theorem macPortDo_served : (macPortDo s sec).cyc.acc = s.cyc.acc ++ [sec] := by
  rw [macPortDo_eq, portEnds_eq, accServed, accPerformed_eq]

theorem macPortDo_ld : (macPortDo s sec).ld = (s.portEnds 0 sec true).ld := by
  rw [macPortDo_eq]
  exact portEnds_ld_congr (by rw [accServed, accPerformed_eq]) 0 sec true

theorem macPortDo_frame : { macPortDo s sec with
    regs := s.regs, cyc := s.cyc, macWait := s.macWait, macAcc := s.macAcc, macPre := s.macPre, ld := s.ld } = s := by
  rw [macPortDo_eq, portEnds_eq, accServed, accPerformed_eq]

variable {s sec}

theorem pre_macPortDo (hw : s.flag (Reg.SEC_MAC_SEL_WR sec) = true) (ht : s.flag (Reg.SEC_MAC_SEL_TGT sec) = true) :
    (macPortDo s sec).pre sec (s.getF (Reg.SEC_MAC_SEL_MAC sec)) (s.getF (Reg.SEC_MAC_SEL_PLANE sec)) = accData s sec := by
  rw [macPortDo_eq, portEnds_eq, accPerformed, if_pos hw, if_pos ht]
  exact tget_tset_self _ _ _ _

theorem acc_macPortDo (hw : s.flag (Reg.SEC_MAC_SEL_WR sec) = true) (ht : s.flag (Reg.SEC_MAC_SEL_TGT sec) = false)
    (hh : s.held sec = false) :
    (macPortDo s sec).acc sec (s.getF (Reg.SEC_MAC_SEL_MAC sec)) (s.getF (Reg.SEC_MAC_SEL_PLANE sec)) = accData s sec := by
  rw [macPortDo_eq, portEnds_eq, accPerformed, if_pos hw, if_neg (Bool.eq_false_iff.mp ht), if_neg (Bool.eq_false_iff.mp hh)]
  exact tget_tset_self _ _ _ _

theorem halves_append (w : Word64) : (w >>> 32).setWidth 32 ++ w.setWidth 32 = w := by
  apply BitVec.eq_of_getLsbD_eq
  intro i hi
  rw [BitVec.getLsbD_append]
  split
  · rename_i hlt; simp [hlt]
  · rename_i hge
    simp [show 32 + (i - 32) = i by omega, show i - 32 < 32 by omega]

theorem accData_macPortDo (hw : s.flag (Reg.SEC_MAC_SEL_WR sec) = false) : accData (macPortDo s sec) sec = accFound s sec := by
  have hne : Reg.SEC_MAC_DLO sec ≠ Reg.SEC_MAC_DHI sec := by simp [Reg.SEC_MAC_DLO, Reg.SEC_MAC_DHI]
  rw [accData, reg_of_regs (macPortDo_regs s sec), reg_of_regs (macPortDo_regs s sec), accPerformed,
    if_neg (Bool.eq_false_iff.mp hw), reg_setReg_self, reg_setReg_ne _ _ _ _ hne, reg_setReg_self]
  exact halves_append _

end

/-! ### The end of an access -/

theorem busy_clearF_self (t : State) (sec : Nat) :
    (t.clearF (Reg.SEC_HB_STAT_ACC_BUSY sec)).flag (Reg.SEC_HB_STAT_ACC_BUSY sec) = false :=
  flag_clearF t _ (by simp [Reg.SEC_HB_STAT_ACC_BUSY]) (by simp [Reg.SEC_HB_STAT_ACC_BUSY])

/-- ACC_BUSY of a sector that is 0 stays 0 as the accesses of any sectors end. -/
theorem busy_clearF_of_idle {t : State} {sec : Nat} (h : t.flag (Reg.SEC_HB_STAT_ACC_BUSY sec) = false) (q : Nat) :
    (t.clearF (Reg.SEC_HB_STAT_ACC_BUSY q)).flag (Reg.SEC_HB_STAT_ACC_BUSY sec) = false := by
  by_cases hq : q = sec
  · subst hq
    exact busy_clearF_self t q
  · have hne : (Reg.SEC_HB_STAT_ACC_BUSY sec).reg ≠ (Reg.SEC_HB_STAT_ACC_BUSY q).reg := by
      simp only [Reg.SEC_HB_STAT_ACC_BUSY, Reg.SEC_HB_STAT]; omega
    rw [State.flag, State.clearF, getF_setF_reg_ne _ _ _ _ hne]
    exact h

theorem busy_foldl_clearF {t : State} {sec : Nat} {l : List Nat} (h : sec ∈ l ∨ t.flag (Reg.SEC_HB_STAT_ACC_BUSY sec) = false) :
    (l.foldl (fun t q => t.clearF (Reg.SEC_HB_STAT_ACC_BUSY q)) t).flag (Reg.SEC_HB_STAT_ACC_BUSY sec) = false := by
  induction l generalizing t with
  | nil => exact h.resolve_left List.not_mem_nil
  | cons q l ih =>
    refine ih ?_
    rcases h with h | h
    · rcases List.mem_cons.mp h with rfl | h
      · exact .inr (busy_clearF_self t _)
      · exact .inl h
    · exact .inr (busy_clearF_of_idle h q)

section
variable (s : State) (sec : Nat)

/-- An access given up: ACC_BUSY falls, ACC_TMO is set and the wait starts again. -/
def accGivenUp : State :=
  { (s.clearF (Reg.SEC_HB_STAT_ACC_BUSY sec)).raiseF (Reg.SEC_HB_STAT_ACC_TMO sec) with
    macWait := tset (fun _ => 0) s.macWait sec 0 }

theorem accGivenUp_reads : (accGivenUp s sec).flag (Reg.SEC_HB_STAT_ACC_BUSY sec) = false ∧
    (accGivenUp s sec).flag (Reg.SEC_HB_STAT_ACC_TMO sec) = true ∧
    BitsBut [Reg.SEC_HB_STAT_ACC_BUSY sec, Reg.SEC_HB_STAT_ACC_TMO sec] s (accGivenUp s sec) := by
  have hcleared : BitsBut [Reg.SEC_HB_STAT_ACC_BUSY sec] s (s.clearF (Reg.SEC_HB_STAT_ACC_BUSY sec)) :=
    bitsBut_clearF (bitsBut_refl _ s) _ (by simp) (by simp [Reg.SEC_HB_STAT_ACC_BUSY]) (by simp [Reg.SEC_HB_STAT_ACC_BUSY])
  obtain ⟨htmo, hraised⟩ := raiseF_reads (Reg.SEC_HB_STAT_ACC_TMO sec)
    (bitsBut_refl [Reg.SEC_HB_STAT_ACC_TMO sec] (s.clearF (Reg.SEC_HB_STAT_ACC_BUSY sec))) (by simp)
    (by simp [Reg.SEC_HB_STAT_ACC_TMO])
  refine ⟨?_, htmo, ?_⟩
  · exact (flag_of_bitsBut hraised (by simp [Reg.SEC_HB_STAT_ACC_TMO, Reg.SEC_HB_STAT_ACC_BUSY])).trans (busy_clearF_self s sec)
  · exact bitsBut_trans (bitsBut_mono hcleared (by simp)) (bitsBut_mono hraised (by simp))

end

section
variable {s : State} {sec : Fin 240}

theorem exec_macPortTimeout_of_late (hb : s.flag (Reg.SEC_HB_STAT_ACC_BUSY sec) = true)
    (hw : 16384 ≤ tget (fun _ => 0) s.macWait sec) :
    exec (.macPortTimeout sec) s = .next ((accGivenUp s sec).portEnds 0 sec false) :=
  (exec_macPortTimeout s sec).trans (okIf_of_true _ _ (by rw [hb, Bool.true_and]; exact decide_eq_true hw))

end

/-- Settles O13: a GO by its block, a service by WR and TGT, and the two ends of an access by the fields that they write. -/
theorem accumulatorPort : Obligations.AccumulatorPort := by
  unfold Obligations.AccumulatorPort
  intro s sec m p pre busy serves started
  refine ⟨fun tgt q n ha hb => ⟨?_, ?_⟩, fun tgt q n ha hb => ?_, fun tgt q n ha hb => ?_, fun hs => ?_,
    fun hacc => busy_foldl_clearF (.inl hacc), fun hb hw => ?_⟩
  · rw [exec_macPortRead_of_alive ha, macSelWrite_of_busy hb]
  · rw [exec_macPortWrite_of_alive ha, macSelWrite_of_busy hb]
  · exact ⟨_, exec_macPortRead_of_alive ha tgt q n, goTaken_macSelWrite s sec hb false tgt q n⟩
  · exact ⟨_, exec_macPortWrite_of_alive ha tgt q n, goTaken_macSelWrite s sec hb true tgt q n⟩
  · have hb : busy = true := by
      simp only [serves, Bool.and_eq_true] at hs
      obtain ⟨⟨⟨⟨⟨-, hb⟩, -⟩, -⟩, -⟩, -⟩ := hs
      exact hb
    exact ⟨_, (exec_macPortServe s sec).trans (okIf_of_true _ _ hs), (busy_macPortDo s sec).trans hb, macPortDo_served s sec,
      macPortDo_ld s sec, pre_macPortDo, acc_macPortDo, accData_macPortDo, bitsBut_macPortDo s sec, macPortDo_frame s sec⟩
  · obtain ⟨hbusy, htmo, hbits⟩ := accGivenUp_reads s sec
    have hregs := State.portEnds_regs (accGivenUp s sec) 0 sec false
    exact ⟨_, exec_macPortTimeout_of_late hb hw, (flag_of_regs hregs _).trans hbusy, (flag_of_regs hregs _).trans htmo,
      portEnds_ld_congr (s := s) (t := accGivenUp s sec) rfl 0 sec false, bitsBut_of_regs hbits hregs, by rw [portEnds_eq]; rfl⟩

end Sys2Proof.Machine

/-!
SUPPORT. The matcher (07_matcher.md R138 to R144, R147, R148): what a hit, an event end and a due road leave, how an access through the
store port starts, is refused, is served and is given up, and what the store checker makes of the word that it visits.
-/

namespace Sys2Proof.Machine

/-! ### What hardware records of a slot -/

/-- A record of a register changes the record of the slot in its registers alone. -/
theorem note_cyc (s : State) (o : Nat) (h : HwReg) : (s.note o h).cyc = { s.cyc with regs := (s.note o h).cyc.regs } := by
  unfold State.note; dsimp only; split <;> rfl

@[simp] theorem raiseF_mt (s : State) (f : Field) : (s.raiseF f).cyc.mt = s.cyc.mt := by
  unfold State.raiseF; rw [note_cyc]; rfl

/-- Fields written one after another leave the record of the slot. -/
theorem cyc_foldl_setF (vals : List (Field × Nat)) (t : State) : (vals.foldl (fun t x => t.setF x.1 x.2) t).cyc = t.cyc := by
  induction vals generalizing t with
  | nil => rfl
  | cons x vals ih => exact ih _

theorem bitsBut_foldl_setF {fs : List Field} {s t : State} {vals : List (Field × Nat)} (h : BitsBut fs s t)
    (hv : ∀ x ∈ vals, x.1 ∈ fs ∧ x.1.lo ≤ x.1.hi ∧ x.1.hi < 32) : BitsBut fs s (vals.foldl (fun t x => t.setF x.1 x.2) t) := by
  induction vals generalizing t with
  | nil => exact h
  | cons x vals ih =>
    obtain ⟨⟨hm, hl, hh⟩, hvals⟩ := List.forall_mem_cons.mp hv
    exact ih (bitsBut_setF h x.1 x.2 hm hl hh) hvals

section
variable (s : State) (f : Field)

/-- A capture changes the record of the slot in its registers alone. -/
theorem capture_cyc (vals : List (Field × Nat)) :
    (s.capture f vals).cyc = { s.cyc with regs := (s.capture f vals).cyc.regs } := by
  unfold State.capture
  split
  · rfl
  · split
    · exact note_cyc _ _ _
    · rw [cyc_foldl_setF]

/-- A capture writes no field but those captured. -/
theorem bitsBut_capture {fs : List Field} {vals : List (Field × Nat)}
    (hv : ∀ x ∈ vals, x.1 ∈ fs ∧ x.1.lo ≤ x.1.hi ∧ x.1.hi < 32) :
    BitsBut fs s (s.capture f vals) := by
  unfold State.capture
  split
  · exact bitsBut_refl fs s
  · split
    · exact bitsBut_of_regs (bitsBut_refl fs s) (note_regs s _ _)
    · exact bitsBut_foldl_setF (bitsBut_refl fs s) hv

@[simp] theorem raiseF_fixes : (s.raiseF f).cyc.fixes = s.cyc.fixes := by
  unfold State.raiseF; rw [note_cyc]; rfl

@[simp] theorem incF_fixes : (s.incF f).cyc.fixes = s.cyc.fixes := by
  unfold State.incF State.addF; dsimp only; rw [note_cyc]; rfl

@[simp] theorem capture_fixes (vals : List (Field × Nat)) : (s.capture f vals).cyc.fixes = s.cyc.fixes := by rw [capture_cyc]

@[simp] theorem capture_evs (vals : List (Field × Nat)) : (s.capture f vals).cyc.evs = s.cyc.evs := by rw [capture_cyc]

@[simp] theorem raiseEv_fixes (e : Nat) : (s.raiseEv e).cyc.fixes = s.cyc.fixes := by
  unfold State.raiseEv; dsimp only; split <;> rfl

end

/-! ### The matcher of a sector -/

section
variable (s : State) (sec : Nat) (m : Matcher)

@[simp] theorem matcher_setMatcher_self : (s.setMatcher sec m).matcher sec = m := tget_tset_self _ _ _ _

theorem matcher_setMatcher_ne {q : Nat} (h : q ≠ sec) : (s.setMatcher sec m).matcher q = s.matcher q := tget_tset_ne _ _ _ _ _ h

@[simp] theorem ctx_setCtx_self (c : Nat) (x : MatchCtx) : (m.setCtx c x).ctx c = x := by
  unfold Matcher.setCtx Matcher.ctx
  by_cases hc : c = 0
  · simp only [if_pos hc]
  · simp only [if_neg hc]

end

/-! ### Hits -/

section
variable (s : State) (sec l key : Nat)

/-- A hit recorded for one pattern: the bit of its layer where the pattern matches (R139). -/
def hitMarked (t : Tab Nat) (n : Nat) : Tab Nat :=
  if layerMatches s sec n l key then tset (fun _ => 0) t n (tget (fun _ => 0) t n ||| 2 ^ l) else t

theorem bits_addHit_eq (x : MatchCtx) : (addHit s sec l key x).bits = (patterns s sec).foldl (hitMarked s sec l key) x.bits := rfl

theorem tget_hitMarked (t : Tab Nat) (k n : Nat) : tget (fun _ => 0) (hitMarked s sec l key t k) n =
    if n = k ∧ layerMatches s sec n l key = true then tget (fun _ => 0) t n ||| 2 ^ l else tget (fun _ => 0) t n := by
  unfold hitMarked
  by_cases hm : layerMatches s sec k l key = true
  · rw [if_pos hm, tget_tset]
    by_cases hn : n = k
    · subst hn; simp [hm]
    · simp [hn]
  · rw [if_neg hm, if_neg (fun ⟨hn, hmatch⟩ => hm (hn ▸ hmatch))]

/-- Patterns marked one after another: each that is among them and matches has the bit of the layer, however often it stands there. -/
theorem tget_foldl_hitMarked (ns : List Nat) (t : Tab Nat) (n : Nat) : tget (fun _ => 0) (ns.foldl (hitMarked s sec l key) t) n =
    if n ∈ ns ∧ layerMatches s sec n l key = true then tget (fun _ => 0) t n ||| 2 ^ l else tget (fun _ => 0) t n := by
  induction ns generalizing t with
  | nil => simp
  | cons k ns ih =>
    rw [List.foldl_cons, ih, tget_hitMarked]
    by_cases hm : layerMatches s sec n l key = true
    · simp only [hm, and_true, List.mem_cons]
      by_cases hns : n ∈ ns
      · rw [if_pos hns, if_pos (Or.inr hns)]
        split
        · rw [Nat.or_assoc, Nat.or_self]
        · rfl
      · simp only [hns, if_false, or_false]
    · simp [hm]

theorem bits_addHit (x : MatchCtx) (n : Nat) : tget (fun _ => 0) (addHit s sec l key x).bits n =
    if n ∈ patterns s sec ∧ layerMatches s sec n l key = true then tget (fun _ => 0) x.bits n ||| 2 ^ l
    else tget (fun _ => 0) x.bits n := by
  rw [bits_addHit_eq, tget_foldl_hitMarked]

/-- The context that takes the hits of the present slot: the one that fills, or the one whose event has ended in this slot (R140). -/
def hitContext : Nat :=
  if (s.matcher sec).endedAt = some s.time.slots then 1 - (s.matcher sec).fill else (s.matcher sec).fill

end

theorem exec_matcherHit_of_hit {s : State} {sec : Fin 240} {h : Fin 4} {l key : Nat} (hh : hitOf s sec h = some (l, key)) :
    exec (.matcherHit sec h) s = .next (s.setMatcher sec ((s.matcher sec).setCtx (hitContext s sec)
      (addHit s sec l key ((s.matcher sec).ctx (hitContext s sec))))) := by
  rw [exec_matcherHit]
  unfold execMatcherHit
  rw [hh]
  rfl

/-! ### Event ends -/

/-- An event end in slot j cuts the event that drains: its DONE word is not due in that slot (R144). -/
def Matcher.cutAt (m : Matcher) (j : Nat) : Bool := m.drain.any (fun d => d.doneSlot != some j)

/-- The cut of an event recorded. -/
def cutCounted (u : State) (sec : Nat) : State := (u.raiseF (Reg.SEC_MT_STAT_CUT sec)).incF (Reg.SEC_MT_CNT_CUT_CNT sec)

/-- The counts of an event end in a state whose matcher has taken it: the event's, and that of a cut. -/
def eventCounted (u : State) (sec : Nat) (cut : Bool) : State :=
  if cut then cutCounted (u.incF (Reg.SEC_MT_EVCNT_EVENTS sec)) sec else u.incF (Reg.SEC_MT_EVCNT_EVENTS sec)

/-- `m1` is what an event end in slot j with a control word leaves of a matcher: the context that filled drains, the other one is
empty and fills (R140, R143). -/
def EventTaken (m m1 : Matcher) (j ctl : Nat) : Prop :=
  m1.drain = some ⟨m.fill, j, nbits ctl 7 4, nbits ctl 8 8, m.evnum, none⟩ ∧ m1.fill = 1 - m.fill ∧
  m1.evnum = (m.evnum + 1) % 256 ∧ m1.ctx (1 - m.fill) = MatchCtx.empty

theorem exec_eventEnd_of_ends {s : State} {sec : Fin 240} (he : eventEnds s sec = true)
    (hn : (s.matcher sec).endedAt ≠ some s.time.slots) :
    ∃ m1, EventTaken (s.matcher sec) m1 s.time.slots (xctl s.view sec) ∧
      exec (.eventEnd sec) s = .next (eventCounted (s.setMatcher sec m1) sec ((s.matcher sec).cutAt s.time.slots)) := by
  rw [exec_eventEnd]
  unfold execEventEnd
  dsimp only
  rw [if_pos (by rw [he, Bool.true_and]; exact bne_iff_ne.mpr hn)]
  unfold Matcher.cutAt eventCounted
  cases (s.matcher sec).drain <;>
  · refine ⟨_, ?_, rfl⟩
    exact ⟨rfl, rfl, rfl, ctx_setCtx_self _ _ _⟩

section
variable (u : State) (sec : Nat)

theorem cutCounted_reads : (cutCounted u sec).flag (Reg.SEC_MT_STAT_CUT sec) = true ∧
    (cutCounted u sec).getF (Reg.SEC_MT_CNT_CUT_CNT sec) = min (u.getF (Reg.SEC_MT_CNT_CUT_CNT sec) + 1) 65535 ∧
    BitsBut [Reg.SEC_MT_STAT_CUT sec, Reg.SEC_MT_CNT_CUT_CNT sec] u (cutCounted u sec) :=
  raiseF_incF_reads rfl (by simp [Reg.SEC_MT_STAT_CUT, Reg.SEC_MT_CNT_CUT_CNT, Reg.SEC_MT_STAT, Reg.SEC_MT_CNT])
    (by simp [Reg.SEC_MT_STAT_CUT]) (by simp [Reg.SEC_MT_CNT_CUT_CNT])

theorem bitsBut_incEvents : BitsBut [Reg.SEC_MT_EVCNT_EVENTS sec] u (u.incF (Reg.SEC_MT_EVCNT_EVENTS sec)) :=
  bitsBut_incF (bitsBut_refl _ u) _ (by simp) (by simp [Reg.SEC_MT_EVCNT_EVENTS]) (by simp [Reg.SEC_MT_EVCNT_EVENTS])

variable (cut : Bool)

theorem events_eventCounted : (eventCounted u sec cut).getF (Reg.SEC_MT_EVCNT_EVENTS sec) =
    min (u.getF (Reg.SEC_MT_EVCNT_EVENTS sec) + 1) 0xFFFFFFFF := by
  have hcounted : (u.incF (Reg.SEC_MT_EVCNT_EVENTS sec)).getF (Reg.SEC_MT_EVCNT_EVENTS sec) =
      min (u.getF (Reg.SEC_MT_EVCNT_EVENTS sec) + 1) 0xFFFFFFFF := by
    rw [State.incF, getF_addF u _ 1 (by simp [Reg.SEC_MT_EVCNT_EVENTS]) (by simp [Reg.SEC_MT_EVCNT_EVENTS])]
    simp only [Reg.SEC_MT_EVCNT_EVENTS, Nat.reduceAdd, Nat.reduceSub, Nat.reducePow]
  unfold eventCounted
  split
  · obtain ⟨-, -, hbits⟩ := cutCounted_reads (u.incF (Reg.SEC_MT_EVCNT_EVENTS sec)) sec
    refine (getF_of_bitsBut hbits ?_).trans hcounted
    simp [Reg.SEC_MT_STAT_CUT, Reg.SEC_MT_CNT_CUT_CNT, Reg.SEC_MT_EVCNT_EVENTS, Reg.SEC_MT_STAT, Reg.SEC_MT_CNT, Reg.SEC_MT_EVCNT]
  · exact hcounted

theorem cut_eventCounted : (eventCounted u sec true).flag (Reg.SEC_MT_STAT_CUT sec) = true ∧
    (eventCounted u sec true).getF (Reg.SEC_MT_CNT_CUT_CNT sec) = min (u.getF (Reg.SEC_MT_CNT_CUT_CNT sec) + 1) 65535 := by
  obtain ⟨hflag, hcount, -⟩ := cutCounted_reads (u.incF (Reg.SEC_MT_EVCNT_EVENTS sec)) sec
  refine ⟨hflag, hcount.trans ?_⟩
  rw [getF_of_bitsBut (bitsBut_incEvents u sec)
    (by simp [Reg.SEC_MT_CNT_CUT_CNT, Reg.SEC_MT_EVCNT_EVENTS, Reg.SEC_MT_CNT, Reg.SEC_MT_EVCNT])]

theorem eventCounted_eq : eventCounted u sec cut =
    { u with regs := (eventCounted u sec cut).regs, cyc := (eventCounted u sec cut).cyc } := by
  cases cut <;> rfl

end

/-- An event that has ended in a slot drains from the end of that slot (R143). -/
theorem matcherSlot_of_ended {s0 s : State} {sec : Nat} {d : Drain} (hd : (s.matcher sec).drain = some d)
    (hj : s0.time.slots = d.at_) : matcherSlot s0 s sec = s.raiseF (Reg.SEC_MT_STAT_DRAINING sec) := by
  unfold matcherSlot
  dsimp only
  rw [hd]
  exact if_pos hj

/-! ### Roads -/

theorem exec_road_of_due {s : State} {sec : Fin 240} {w : RoadWord} (hw : (s.matcher sec).due s.time.slots = some w)
    (hm : s.mayIssue sec = true) (hs : (s.matcher sec).shown.all (fun x => x.1 != s.time.slots) = true) :
    exec (.road sec) s = .next (s.setMatcher sec { s.matcher sec with shown := some (s.time.slots, w) }) := by
  rw [exec_road]
  unfold execRoad
  dsimp only
  rw [hw]
  exact okIf_of_true _ _ (by rw [hm, hs]; rfl)

/-- Settles O14: a hit by what it adds to its context, an event end by what it leaves of the matcher and what it counts. -/
theorem matcherEvents : Obligations.MatcherEvents := by
  unfold Obligations.MatcherEvents
  intro s sec m j c into
  refine ⟨fun h l key hh => ⟨_, exec_matcherHit_of_hit hh, ?_⟩, fun he hn _ => ?_, fun w hw hm hs => exec_road_of_due hw hm hs⟩
  · rw [matcher_setMatcher_self, show into = hitContext s sec from rfl, ctx_setCtx_self]
    exact ⟨rfl, bits_addHit s sec l key _, fun q hq => matcher_setMatcher_ne s _ _ hq, rfl⟩
  · obtain ⟨m1, ⟨hdrain, hfill, hevnum, hctx⟩, hexec⟩ := exec_eventEnd_of_ends he hn
    have hm1 (cut : Bool) : (eventCounted (s.setMatcher sec m1) sec cut).matcher sec = m1 := by
      rw [eventCounted_eq]; exact matcher_setMatcher_self s sec m1
    have hslot (cut : Bool) : (eventCounted (s.setMatcher sec m1) sec cut).time.slots = j := by rw [eventCounted_eq]; rfl
    refine ⟨_, hexec, ?_⟩
    rw [matcherSlot_of_ended (by rw [hm1]; exact hdrain) (hslot _), hm1]
    refine ⟨hdrain, hfill, hevnum, hctx, ?_, events_eventCounted (s.setMatcher sec m1) sec _, fun hd => ?_, fun d hd hdone => ?_, ?_⟩
    · exact flag_raiseF _ _ (by simp [Reg.SEC_MT_STAT_DRAINING]) (by simp [Reg.SEC_MT_STAT_DRAINING])
    · have hcut : (s.matcher sec).cutAt s.time.slots = false := by unfold Matcher.cutAt; rw [hd]; rfl
      rw [hcut]
      exact bitsBut_incEvents (s.setMatcher sec m1) sec
    · have hcut : (s.matcher sec).cutAt s.time.slots = true := by
        unfold Matcher.cutAt; rw [hd]; exact bne_iff_ne.mpr hdone
      rw [hcut]
      exact cut_eventCounted (s.setMatcher sec m1) sec
    · rw [eventCounted_eq]; rfl

/-! ### The store port: an access starts or is refused -/

section
variable {wr stream : Bool} {a : Nat} (ha : a < 16384)
include ha

theorem toNat_mtSelWord : (mtSelWord wr stream a).toNat = 2 ^ 31 + 2 ^ 30 * wr.toNat + 2 ^ 29 * stream.toNat + a := by
  have hwr := Bool.toNat_le wr
  have hstream := Bool.toNat_le stream
  unfold mtSelWord
  rw [BitVec.toNat_ofNat]
  omega

theorem go_mtSelWord : (mtSelWord wr stream a).getLsbD 31 = true := by
  have hwr := Bool.toNat_le wr
  have hstream := Bool.toNat_le stream
  rw [BitVec.getLsbD, toNat_mtSelWord ha, Nat.testBit_eq_decide_div_mod_eq, decide_eq_true_eq]
  omega

theorem wr_mtSelWord : (mtSelWord wr stream a).getLsbD 30 = wr := by
  have hstream := Bool.toNat_le stream
  rw [BitVec.getLsbD, toNat_mtSelWord ha, Nat.testBit_eq_decide_div_mod_eq]
  cases wr
  · exact decide_eq_false (by simp only [Bool.toNat_false]; omega)
  · exact decide_eq_true (by simp only [Bool.toNat_true]; omega)

/-- What SEC_MT_SEL keeps of the word of a GO: WR, STREAM and ADDR. The mask has ones in all bits of ADDR, and above them only in
those two. -/
theorem mtSelWord_and_mask : mtSelWord wr stream a &&& 0x60003FFF#32 =
    BitVec.ofNat 32 (2 ^ 30 * wr.toNat + 2 ^ 29 * stream.toNat + a) := by
  apply BitVec.eq_of_toNat_eq
  rw [BitVec.toNat_and, toNat_mtSelWord ha, show (0x60003FFF#32).toNat = 0x60003FFF from rfl, BitVec.toNat_ofNat]
  have hlow : ((2 ^ 31 + 2 ^ 30 * wr.toNat + 2 ^ 29 * stream.toNat + a) &&& 0x60003FFF) % 2 ^ 14 = a := by
    rw [Nat.and_mod_two_pow, show (0x60003FFF : Nat) % 2 ^ 14 = 2 ^ 14 - 1 from rfl, Nat.and_two_pow_sub_one_eq_mod]
    omega
  have hhigh : ((2 ^ 31 + 2 ^ 30 * wr.toNat + 2 ^ 29 * stream.toNat + a) &&& 0x60003FFF) / 2 ^ 14 =
      2 ^ 16 * wr.toNat + 2 ^ 15 * stream.toNat := by
    have hdiv : (2 ^ 31 + 2 ^ 30 * wr.toNat + 2 ^ 29 * stream.toNat + a) / 2 ^ 14 =
        2 ^ 17 + 2 ^ 16 * wr.toNat + 2 ^ 15 * stream.toNat := by omega
    rw [Nat.and_div_two_pow, hdiv]
    cases wr <;> cases stream <;> rfl
  have hwr := Bool.toNat_le wr
  have hstream := Bool.toNat_le stream
  omega

end

/-- The state in which SEC_MT_SEL of a sector holds the selection of a word, without its GO. -/
def mtSelected (s : State) (sec : Nat) (v : Word32) : State := s.setReg (Reg.SEC_MT_SEL sec) (v &&& 0x60003FFF#32)

section
variable {s : State} {sec : Nat} {v : Word32}

theorem mtSelWrite_of_busy (hb : s.flag (Reg.SEC_MT_STAT_BUSY sec) = true) : mtSelWrite s sec v = (s, true) := if_pos hb

theorem mtDhiWrite_of_busy (hb : s.flag (Reg.SEC_MT_STAT_BUSY sec) = true) : mtDhiWrite s sec v = (s, true) := if_pos hb

section
variable (hb : s.flag (Reg.SEC_MT_STAT_BUSY sec) = false)
include hb

theorem mtSelWrite_of_closed (hgo : v.getLsbD 31 = true) (hw : v.getLsbD 30 = true) (hc : storeClosed s = true) :
    mtSelWrite s sec v = (portReject s sec, true) := by
  unfold mtSelWrite
  rw [if_neg (Bool.eq_false_iff.mp hb), if_pos (by rw [hgo, hw, hc]; rfl)]

theorem mtSelWrite_of_open (hgo : v.getLsbD 31 = true) (ho : v.getLsbD 30 = false ∨ storeClosed s = false) :
    mtSelWrite s sec v = (portStart (mtSelected s sec v) sec, false) := by
  unfold mtSelWrite
  rw [if_neg (Bool.eq_false_iff.mp hb), if_neg (by obtain ho | ho := ho <;> rw [ho] <;> simp)]
  dsimp only
  rw [if_pos hgo]
  rfl

theorem mtDhiWrite_of_single (hs : (s.flag (Reg.SEC_MT_SEL_STREAM sec) && s.flag (Reg.SEC_MT_SEL_WR sec)) = false) :
    mtDhiWrite s sec v = (s.setReg (Reg.SEC_MT_DHI sec) v, false) := by
  unfold mtDhiWrite
  rw [if_neg (Bool.eq_false_iff.mp hb), if_neg (Bool.eq_false_iff.mp hs)]

section
variable (hs : (s.flag (Reg.SEC_MT_SEL_STREAM sec) && s.flag (Reg.SEC_MT_SEL_WR sec)) = true)
include hs

theorem mtDhiWrite_of_closed (hc : storeClosed s = true) : mtDhiWrite s sec v = (portReject s sec, true) := by
  unfold mtDhiWrite
  rw [if_neg (Bool.eq_false_iff.mp hb), if_pos hs, if_pos hc]

theorem mtDhiWrite_of_open (hc : storeClosed s = false) :
    mtDhiWrite s sec v = (portStart (s.setReg (Reg.SEC_MT_DHI sec) v) sec, false) := by
  unfold mtDhiWrite
  rw [if_neg (Bool.eq_false_iff.mp hb), if_pos hs, if_neg (Bool.eq_false_iff.mp hc)]

end
end

end

section
variable {s : State} {sec : Fin 240} (ha : s.alive = true)
include ha

theorem exec_mtPortRead_of_alive (stream : Bool) (a : Fin 16384) :
    exec (.mtPortRead sec stream a) s = .next (answered (mtSelWrite s sec (mtSelWord false stream a))) :=
  (exec_mtPortRead s sec stream a).trans (okIf_of_true _ _ ha)

theorem exec_mtPortWrite_of_alive (stream : Bool) (a : Fin 16384) :
    exec (.mtPortWrite sec stream a) s = .next (answered (mtSelWrite s sec (mtSelWord true stream a))) :=
  (exec_mtPortWrite s sec stream a).trans (okIf_of_true _ _ ha)

theorem exec_mtStreamWrite_of_alive (v : Word32) : exec (.mtStreamWrite sec v) s = .next (answered (mtDhiWrite s sec v)) :=
  (exec_mtStreamWrite s sec v).trans (okIf_of_true _ _ ha)

end

section
variable (s : State) (sec : Nat)

theorem portReject_reads : (portReject s sec).flag (Reg.SEC_MT_STAT_PORT_REJ sec) = true ∧
    (portReject s sec).getF (Reg.SEC_MT_LOST_PORT_REJ_CNT sec) = min (s.getF (Reg.SEC_MT_LOST_PORT_REJ_CNT sec) + 1) 65535 ∧
    BitsBut [Reg.SEC_MT_STAT_PORT_REJ sec, Reg.SEC_MT_LOST_PORT_REJ_CNT sec] s (portReject s sec) :=
  raiseF_incF_reads rfl (by simp [Reg.SEC_MT_STAT_PORT_REJ, Reg.SEC_MT_LOST_PORT_REJ_CNT, Reg.SEC_MT_STAT, Reg.SEC_MT_LOST])
    (by simp [Reg.SEC_MT_STAT_PORT_REJ]) (by simp [Reg.SEC_MT_LOST_PORT_REJ_CNT])

/-- `t` is `s` with a register write refused: an error response, PORT_REJ and its count (R147). -/
def PortRejected (t : State) : Prop :=
  t.resp = ⟨1, 0⟩ ∧ t.flag (Reg.SEC_MT_STAT_PORT_REJ sec) = true ∧
  t.getF (Reg.SEC_MT_LOST_PORT_REJ_CNT sec) = min (s.getF (Reg.SEC_MT_LOST_PORT_REJ_CNT sec) + 1) 65535 ∧
  BitsBut [Reg.SEC_MT_STAT_PORT_REJ sec, Reg.SEC_MT_LOST_PORT_REJ_CNT sec] s t ∧
  { t with regs := s.regs, cyc := s.cyc, resp := s.resp } = s

theorem portRejected_answered : PortRejected s sec (answered (portReject s sec, true)) := by
  obtain ⟨hflag, hcount, hbits⟩ := portReject_reads s sec
  exact ⟨rfl, hflag, hcount, bitsBut_of_regs hbits rfl, rfl⟩

/-- `t` is `s` with register `o` written and an access that waits: OKAY, BUSY, and the wait starts (R147). -/
def PortWaits (o : Nat) (t : State) : Prop :=
  t.resp = ⟨0, 0⟩ ∧ t.flag (Reg.SEC_MT_STAT_BUSY sec) = true ∧ t.matcher sec = { s.matcher sec with waited := 0 } ∧
  BitsBut [wholeReg o, Reg.SEC_MT_STAT_BUSY sec] s t ∧
  { t with regs := s.regs, cyc := s.cyc, resp := s.resp, matchers := s.matchers } = s

theorem portWaits_answered (o : Nat) (w : Word32) : PortWaits s sec o (answered (portStart (s.setReg o w) sec, false)) := by
  obtain ⟨hbusy, hbits⟩ := raiseF_reads (Reg.SEC_MT_STAT_BUSY sec)
    (bitsBut_setReg (bitsBut_refl [wholeReg o, Reg.SEC_MT_STAT_BUSY sec] s) o w (by simp)) (by simp) (by simp [Reg.SEC_MT_STAT_BUSY])
  unfold answered portStart
  exact ⟨rfl, hbusy, matcher_setMatcher_self _ _ _, bitsBut_of_regs hbits rfl, rfl⟩

/-- The register written keeps its value as the access starts. -/
theorem reg_portStart {o : Nat} (ho : o ≠ Reg.SEC_MT_STAT sec) (w : Word32) :
    (answered (portStart (s.setReg o w) sec, false)).reg o = w := by
  have hraised : ((s.setReg o w).raiseF (Reg.SEC_MT_STAT_BUSY sec)).reg o = w := by
    rw [reg_raiseF, reg_setF_ne _ _ _ _ ho, reg_setReg_self]
  exact hraised

end

/-! ### An access served -/

section
variable (s : State) (sec : Nat)

/-- DHI:DLO of a sector's store port. -/
def mtWord : Word64 := s.reg (Reg.SEC_MT_DHI sec) ++ s.reg (Reg.SEC_MT_DLO sec)

/-- The store address that the port selects. -/
def mtAddr : Nat := s.getF (Reg.SEC_MT_SEL_ADDR sec)

/-- A word answered in DHI:DLO. -/
def mtAnswered (d : Word64) : State :=
  (s.setReg (Reg.SEC_MT_DLO sec) (d.setWidth 32)).setReg (Reg.SEC_MT_DHI sec) ((d >>> 32).setWidth 32)

/-- The fields in which a read answers. -/
def mtAnswerFields : List Field := [wholeReg (Reg.SEC_MT_DHI sec), wholeReg (Reg.SEC_MT_DLO sec)]

/-- The address after a served access: the next one in stream mode (R147). -/
def mtNextAddr : Nat := if s.flag (Reg.SEC_MT_SEL_STREAM sec) then (mtAddr s sec + 1) % 16384 else mtAddr s sec

/-- A state in which the access of `s` is performed, with its address counted in stream mode. -/
def mtAddrCounted (u : State) : State :=
  if s.flag (Reg.SEC_MT_SEL_STREAM sec) then u.setF (Reg.SEC_MT_SEL_ADDR sec) ((mtAddr s sec + 1) % 16384) else u

/-- The record of a service: the wait starts again, and BUSY is to fall with the slot. -/
def mtServed (u : State) : State :=
  { u.setMatcher sec { u.matcher sec with waited := 0 } with cyc := { u.cyc with mt := u.cyc.mt ++ [sec] } }

/-- What follows an access of `s` that `u` has performed. -/
def mtEnded (u : State) : State := (mtServed sec (mtAddrCounted s sec u)).portEnds 1 sec true

theorem mtWord_mtAnswered (d : Word64) : mtWord (mtAnswered s sec d) sec = d := by
  unfold mtWord mtAnswered
  rw [reg_setReg_self, reg_setReg_ne _ _ _ _ (by simp [Reg.SEC_MT_DLO, Reg.SEC_MT_DHI]), reg_setReg_self]
  exact halves_append d

theorem bitsBut_mtAnswered (d : Word64) : BitsBut (mtAnswerFields sec) s (mtAnswered s sec d) :=
  bitsBut_setReg (bitsBut_setReg (bitsBut_refl _ s) _ _ (by simp [mtAnswerFields])) _ _ (by simp [mtAnswerFields])

theorem mtAnswerFields_reg : ∀ f ∈ mtAnswerFields sec, f.reg ≠ Reg.SEC_MT_SEL sec ∧ f.reg ≠ Reg.SEC_MT_STAT sec := by
  simp [mtAnswerFields, wholeReg, Reg.SEC_MT_DHI, Reg.SEC_MT_DLO, Reg.SEC_MT_SEL, Reg.SEC_MT_STAT]

/-- A poisoned word answered, with POISON_RD. -/
def mtAnsweredBad (d : Word64) : State := (mtAnswered s sec d).raiseF (Reg.SEC_MT_STAT_POISON_RD sec)

theorem mtAnsweredBad_reads (d : Word64) : (mtAnsweredBad s sec d).flag (Reg.SEC_MT_STAT_POISON_RD sec) = true ∧
    BitsBut (Reg.SEC_MT_STAT_POISON_RD sec :: mtAnswerFields sec) s (mtAnsweredBad s sec d) :=
  raiseF_reads _ (bitsBut_mono (bitsBut_mtAnswered s sec d) (fun f hf => List.mem_cons_of_mem _ hf)) List.mem_cons_self
    (by simp [Reg.SEC_MT_STAT_POISON_RD])

theorem mtWord_mtAnsweredBad (d : Word64) : mtWord (mtAnsweredBad s sec d) sec = d := by
  refine Eq.trans ?_ (mtWord_mtAnswered s sec d)
  have hreg {o : Nat} (ho : o ≠ Reg.SEC_MT_STAT sec) : (mtAnsweredBad s sec d).reg o = (mtAnswered s sec d).reg o :=
    (reg_raiseF _ _ _).trans (reg_setF_ne _ _ _ _ ho)
  unfold mtWord
  rw [hreg (by simp [Reg.SEC_MT_DHI, Reg.SEC_MT_STAT]), hreg (by simp [Reg.SEC_MT_DLO, Reg.SEC_MT_STAT])]

section
variable {s sec}

theorem mtPortDo_write (hw : s.flag (Reg.SEC_MT_SEL_WR sec) = true) :
    mtPortDo s sec = mtEnded s sec (s.setStoreWord sec (mtAddr s sec) (cwEncode (mtWord s sec))) := by
  unfold mtPortDo
  dsimp only
  rw [if_pos hw]
  rfl

variable (hw : s.flag (Reg.SEC_MT_SEL_WR sec) = false)
include hw

theorem mtPortDo_clean {d : Word64} (hd : cwDecode (s.storeWord sec (mtAddr s sec)) = .clean d) :
    mtPortDo s sec = mtEnded s sec ((mtAnswered s sec d).answer 0 d) := by
  unfold mtPortDo
  dsimp only
  rw [if_neg (Bool.eq_false_iff.mp hw), show cwDecode (s.storeWord sec (s.getF (Reg.SEC_MT_SEL_ADDR sec))) = .clean d from hd]
  rfl

theorem mtPortDo_bad (hd : cwDecode (s.storeWord sec (mtAddr s sec)) = .bad) :
    mtPortDo s sec = mtEnded s sec ((mtAnsweredBad s sec (cwInfo (s.storeWord sec (mtAddr s sec)))).answer 1
      (cwInfo (s.storeWord sec (mtAddr s sec)))) := by
  unfold mtPortDo
  dsimp only
  rw [if_neg (Bool.eq_false_iff.mp hw), show cwDecode (s.storeWord sec (s.getF (Reg.SEC_MT_SEL_ADDR sec))) = .bad from hd]
  rfl

end

variable (u : State)

theorem mtAddrCounted_eq : mtAddrCounted s sec u = { u with regs := (mtAddrCounted s sec u).regs } := by
  unfold mtAddrCounted; split <;> rfl

theorem mtEnded_regs : (mtEnded s sec u).regs = (mtAddrCounted s sec u).regs := by
  unfold mtEnded; rw [State.portEnds_regs]; rfl

/-- What follows an access changes registers, the record of the slot, the matcher and the loader alone. -/
theorem mtEnded_eq : mtEnded s sec u = { u with
    regs := (mtEnded s sec u).regs, cyc := (mtEnded s sec u).cyc, matchers := (mtEnded s sec u).matchers,
    ld := (mtEnded s sec u).ld } := by
  unfold mtEnded
  rw [portEnds_eq]
  unfold mtServed
  rw [mtAddrCounted_eq]
  rfl

theorem mtEnded_served : (mtEnded s sec u).cyc.mt = u.cyc.mt ++ [sec] := by
  unfold mtEnded mtServed
  rw [portEnds_eq, mtAddrCounted_eq]

theorem mtEnded_ld : (mtEnded s sec u).ld = (u.portEnds 1 sec true).ld := by
  have hld : (mtAddrCounted s sec u).ld = u.ld := by rw [mtAddrCounted_eq]
  exact portEnds_ld_congr (s := u) (t := mtServed sec (mtAddrCounted s sec u)) hld 1 sec true

variable {u}

theorem reg_mtEnded {o : Nat} (ho : o ≠ Reg.SEC_MT_SEL sec) : (mtEnded s sec u).reg o = u.reg o := by
  rw [reg_of_regs (mtEnded_regs s sec u)]
  unfold mtAddrCounted
  split
  · exact reg_setF_ne _ _ _ _ ho
  · rfl

theorem flag_mtEnded {f : Field} (hf : f.reg ≠ Reg.SEC_MT_SEL sec) : (mtEnded s sec u).flag f = u.flag f := by
  unfold State.flag State.getF; rw [reg_mtEnded s sec hf]

theorem mtWord_mtEnded : mtWord (mtEnded s sec u) sec = mtWord u sec := by
  unfold mtWord
  rw [reg_mtEnded s sec (by simp [Reg.SEC_MT_DHI, Reg.SEC_MT_SEL]), reg_mtEnded s sec (by simp [Reg.SEC_MT_DLO, Reg.SEC_MT_SEL])]

theorem mtAddr_mtEnded (hu : mtAddr u sec = mtAddr s sec) : (mtEnded s sec u).getF (Reg.SEC_MT_SEL_ADDR sec) = mtNextAddr s sec := by
  rw [getF_of_regs (mtEnded_regs s sec u)]
  unfold mtAddrCounted mtNextAddr
  split
  · rw [getF_setF_self _ _ _ (by simp [Reg.SEC_MT_SEL_ADDR]) (by simp [Reg.SEC_MT_SEL_ADDR])]
    exact Nat.mod_mod _ _
  · exact hu

theorem bitsBut_mtEnded {fs : List Field} (h : BitsBut fs s u) : BitsBut (Reg.SEC_MT_SEL_ADDR sec :: fs) s (mtEnded s sec u) := by
  refine bitsBut_of_regs ?_ (mtEnded_regs s sec u)
  have hu : BitsBut (Reg.SEC_MT_SEL_ADDR sec :: fs) s u := bitsBut_mono h (fun f hf => List.mem_cons_of_mem _ hf)
  unfold mtAddrCounted
  split
  · exact bitsBut_setF hu _ _ List.mem_cons_self (by simp [Reg.SEC_MT_SEL_ADDR]) (by simp [Reg.SEC_MT_SEL_ADDR])
  · exact hu

/-- `t` is `s` after the slot's service of the port, beside what the access itself did, whose register bits are `fs` (R147). -/
def PortServed (fs : List Field) (t : State) : Prop :=
  t.flag (Reg.SEC_MT_STAT_BUSY sec) = true ∧ t.cyc.mt = s.cyc.mt ++ [sec] ∧ t.ld = (s.portEnds 1 sec true).ld ∧
  t.getF (Reg.SEC_MT_SEL_ADDR sec) = mtNextAddr s sec ∧ BitsBut (Reg.SEC_MT_SEL_ADDR sec :: fs) s t

/-- An access that writes neither ADDR nor BUSY is served. -/
theorem portServed_mtEnded {fs : List Field} (hb : s.flag (Reg.SEC_MT_STAT_BUSY sec) = true) (h : BitsBut fs s u)
    (haddr : ∀ f ∈ fs, f.reg = Reg.SEC_MT_SEL sec → 13 < f.lo) (hbusy : ∀ f ∈ fs, f.reg = Reg.SEC_MT_STAT sec → 0 < f.lo)
    (hmt : u.cyc.mt = s.cyc.mt) (hld : u.ld = s.ld) : PortServed s sec fs (mtEnded s sec u) := by
  refine ⟨?_, ?_, ?_, mtAddr_mtEnded s sec ?_, bitsBut_mtEnded s sec h⟩
  · rw [flag_mtEnded s sec (by simp [Reg.SEC_MT_STAT_BUSY, Reg.SEC_MT_STAT, Reg.SEC_MT_SEL]), flag_of_bitsBut h, hb]
    exact fun f hf hr => .inl (hbusy f hf hr)
  · rw [mtEnded_served, hmt]
  · rw [mtEnded_ld]; exact portEnds_ld_congr hld 1 sec true
  · exact getF_of_bitsBut h (fun f hf hr => .inl (haddr f hf hr))

end

/-! ### The end of an access -/

/-- Fields of distinct registers cleared one after another, one for each number of a list: the one of a number that is among them, or
that was 0 before, is 0. -/
theorem flag_foldl_clearF {F : Nat → Field} (hF : ∀ q, (F q).lo ≤ (F q).hi ∧ (F q).hi < 32)
    (hne : ∀ p q, p ≠ q → (F p).reg ≠ (F q).reg) {t : State} {x : Nat} {l : List Nat} (h : x ∈ l ∨ t.flag (F x) = false) :
    (l.foldl (fun t q => t.clearF (F q)) t).flag (F x) = false := by
  induction l generalizing t with
  | nil => exact h.resolve_left List.not_mem_nil
  | cons q l ih =>
    refine ih ?_
    by_cases hx : x = q
    · subst hx
      exact .inr (flag_clearF t _ (hF x).1 (hF x).2)
    · refine h.imp (fun hm => (List.mem_cons.mp hm).resolve_left hx) (fun h0 => ?_)
      unfold State.flag State.clearF
      rw [getF_setF_reg_ne _ _ _ _ (hne x q hx)]
      exact h0

section
variable (s : State) (sec : Nat)

/-- The port without the access that has waited: BUSY falls, and the wait starts again. -/
def portLeft : State := (s.clearF (Reg.SEC_MT_STAT_BUSY sec)).setMatcher sec { s.matcher sec with waited := 0 }

theorem portGiveUp_eq : portGiveUp s sec = { portLeft s sec with ld := (s.portEnds 1 sec false).ld } := by
  rw [show portGiveUp s sec = (portLeft s sec).portEnds 1 sec false from rfl, portEnds_eq,
    portEnds_ld_congr (s := s) (t := portLeft s sec) rfl]

theorem portGiveUp_regs : (portGiveUp s sec).regs = (s.clearF (Reg.SEC_MT_STAT_BUSY sec)).regs := by rw [portGiveUp_eq]; rfl

/-- An access given up for want of a slot without hits. -/
def portTimedOut : State := (portGiveUp s sec).raiseF (Reg.SEC_MT_STAT_PORT_TMO sec)

theorem portTimedOut_reads : (portTimedOut s sec).flag (Reg.SEC_MT_STAT_BUSY sec) = false ∧
    (portTimedOut s sec).flag (Reg.SEC_MT_STAT_PORT_TMO sec) = true ∧
    BitsBut [Reg.SEC_MT_STAT_BUSY sec, Reg.SEC_MT_STAT_PORT_TMO sec] s (portTimedOut s sec) := by
  have hcleared : BitsBut [Reg.SEC_MT_STAT_BUSY sec] s (portGiveUp s sec) :=
    bitsBut_of_regs (bitsBut_clearF (bitsBut_refl _ s) _ (by simp) (by simp [Reg.SEC_MT_STAT_BUSY]) (by simp [Reg.SEC_MT_STAT_BUSY]))
      (portGiveUp_regs s sec)
  obtain ⟨htmo, hraised⟩ := raiseF_reads (Reg.SEC_MT_STAT_PORT_TMO sec)
    (bitsBut_refl [Reg.SEC_MT_STAT_PORT_TMO sec] (portGiveUp s sec)) (by simp) (by simp [Reg.SEC_MT_STAT_PORT_TMO])
  refine ⟨?_, htmo, bitsBut_trans (bitsBut_mono hcleared (by simp)) (bitsBut_mono hraised (by simp))⟩
  have hbusy : (portTimedOut s sec).flag (Reg.SEC_MT_STAT_BUSY sec) = (portGiveUp s sec).flag (Reg.SEC_MT_STAT_BUSY sec) :=
    flag_of_bitsBut hraised (by simp [Reg.SEC_MT_STAT_PORT_TMO, Reg.SEC_MT_STAT_BUSY])
  rw [hbusy, flag_of_regs (portGiveUp_regs s sec)]
  exact flag_clearF s _ (by simp [Reg.SEC_MT_STAT_BUSY]) (by simp [Reg.SEC_MT_STAT_BUSY])

theorem matcher_portTimedOut : (portTimedOut s sec).matcher sec = { s.matcher sec with waited := 0 } := by
  unfold portTimedOut
  rw [portGiveUp_eq]
  exact matcher_setMatcher_self _ _ _

end

section
variable {s : State} {sec : Fin 240}

theorem exec_mtPortServe_of_ready (h : (s.slotRuns && s.flag (Reg.SEC_MT_STAT_BUSY sec) && !s.cyc.mt.contains sec.val &&
    !s.cyc.mtNew.contains sec.val && decide ((s.matcher sec).waited < 16384) && !anyHit s sec) = true) :
    exec (.mtPortServe sec) s = .next (mtPortDo s sec) := (exec_mtPortServe s sec).trans (okIf_of_true _ _ h)

theorem exec_mtPortTimeout_of_late (hb : s.flag (Reg.SEC_MT_STAT_BUSY sec) = true) (hw : 16384 ≤ (s.matcher sec).waited) :
    exec (.mtPortTimeout sec) s = .next (portTimedOut s sec) :=
  (exec_mtPortTimeout s sec).trans (okIf_of_true _ _ (by rw [hb, Bool.true_and]; exact decide_eq_true hw))

end

/-- Settles O15: a GO and a stream write by what they leave of the port, a service by what the access does and by what follows every
access, and the two ends of an access by the fields that they write. -/
theorem matcherStorePort : Obligations.MatcherStorePort := by
  unfold Obligations.MatcherStorePort
  intro s sec busy word at_ serves next streams rejected waits served both
  have hSel : Reg.SEC_MT_SEL sec ≠ Reg.SEC_MT_STAT sec := by simp [Reg.SEC_MT_SEL, Reg.SEC_MT_STAT]
  have hDhi : Reg.SEC_MT_DHI sec ≠ Reg.SEC_MT_STAT sec := by simp [Reg.SEC_MT_DHI, Reg.SEC_MT_STAT]
  have hready : serves = true → busy = true ∧ exec (.mtPortServe sec) s = .next (mtPortDo s sec) := by
    intro hs
    refine ⟨?_, exec_mtPortServe_of_ready hs⟩
    simp only [serves, Bool.and_eq_true] at hs
    obtain ⟨⟨⟨⟨⟨-, hb⟩, -⟩, -⟩, -⟩, -⟩ := hs
    exact hb
  refine ⟨fun stream a ha hb => ⟨?_, ?_⟩, fun v ha hb => ?_, fun stream a ha hb hc => ?_, fun v ha hb hs hc => ?_,
    fun stream a ha hb => ?_, fun stream a ha hb hc => ?_, fun v ha hb hs => ?_, fun v ha hb hs hc => ?_, fun hs hw => ?_,
    fun d hs hw hd => ?_, fun hs hw hd => ?_, fun hmt => ?_, fun hb hw => ?_⟩
  · rw [exec_mtPortRead_of_alive ha, mtSelWrite_of_busy hb]; rfl
  · rw [exec_mtPortWrite_of_alive ha, mtSelWrite_of_busy hb]; rfl
  · rw [exec_mtStreamWrite_of_alive ha, mtDhiWrite_of_busy hb]; rfl
  · rw [exec_mtPortWrite_of_alive ha, mtSelWrite_of_closed hb (go_mtSelWord a.isLt) (wr_mtSelWord a.isLt) hc]
    exact ⟨_, rfl, portRejected_answered s sec⟩
  · rw [exec_mtStreamWrite_of_alive ha, mtDhiWrite_of_closed hb hs hc]
    exact ⟨_, rfl, portRejected_answered s sec⟩
  · rw [exec_mtPortRead_of_alive ha, mtSelWrite_of_open hb (go_mtSelWord a.isLt) (.inl (wr_mtSelWord a.isLt))]
    refine ⟨_, rfl, portWaits_answered s sec _ _, (reg_portStart s sec hSel _).trans ?_⟩
    exact (mtSelWord_and_mask a.isLt).trans (congrArg _ (by simp))
  · rw [exec_mtPortWrite_of_alive ha, mtSelWrite_of_open hb (go_mtSelWord a.isLt) (.inr hc)]
    refine ⟨_, rfl, portWaits_answered s sec _ _, (reg_portStart s sec hSel _).trans ?_⟩
    exact (mtSelWord_and_mask a.isLt).trans (congrArg _ (by simp))
  · rw [exec_mtStreamWrite_of_alive ha, mtDhiWrite_of_single hb hs]
    exact ⟨_, rfl, reg_setReg_self s _ v, rfl, bitsBut_setReg (bitsBut_refl _ s) _ v (by simp), rfl⟩
  · rw [exec_mtStreamWrite_of_alive ha, mtDhiWrite_of_open hb hs hc]
    exact ⟨_, rfl, reg_portStart s sec hDhi v, portWaits_answered s sec _ v⟩
  · obtain ⟨hb, hexec⟩ := hready hs
    rw [hexec, mtPortDo_write hw]
    refine ⟨_, rfl, ?_, fun k hk => ?_, ?_, ?_⟩
    · rw [mtEnded_eq]; exact tget_tset_self _ _ _ _
    · rw [mtEnded_eq]; exact tget_tset_ne _ _ _ _ _ hk
    · exact portServed_mtEnded s sec hb (bitsBut_of_regs (bitsBut_refl [] s) rfl) (by simp) (by simp) rfl rfl
    · rw [mtEnded_eq]; rfl
  · obtain ⟨hb, hexec⟩ := hready hs
    rw [hexec, mtPortDo_clean hw hd]
    refine ⟨_, rfl, ?_, ?_, ?_, ?_⟩
    · rw [mtEnded_eq]; rfl
    · exact (mtWord_mtEnded s sec).trans (mtWord_mtAnswered s sec d)
    · exact portServed_mtEnded s sec hb (bitsBut_of_regs (bitsBut_mtAnswered s sec d) rfl)
        (fun f hf hr => absurd hr (mtAnswerFields_reg sec f hf).1) (fun f hf hr => absurd hr (mtAnswerFields_reg sec f hf).2) rfl rfl
    · rw [mtEnded_eq]; rfl
  · obtain ⟨hb, hexec⟩ := hready hs
    rw [hexec, mtPortDo_bad hw hd]
    refine ⟨_, rfl, ?_, ?_, ?_, ?_, ?_⟩
    · rw [mtEnded_eq]; rfl
    · exact (mtWord_mtEnded s sec).trans (mtWord_mtAnsweredBad s sec _)
    · exact (flag_mtEnded s sec hSel.symm).trans (mtAnsweredBad_reads s sec _).1
    · refine portServed_mtEnded s sec hb (bitsBut_of_regs (mtAnsweredBad_reads s sec _).2 rfl) ?_ ?_ (raiseF_mt _ _) rfl
      · exact List.forall_mem_cons.mpr ⟨fun hr => absurd hr hSel.symm, fun f hf hr => absurd hr (mtAnswerFields_reg sec f hf).1⟩
      · exact List.forall_mem_cons.mpr ⟨fun _ => by simp [Reg.SEC_MT_STAT_POISON_RD],
          fun f hf hr => absurd hr (mtAnswerFields_reg sec f hf).2⟩
    · rw [mtEnded_eq]; rfl
  · exact flag_foldl_clearF (fun q => by simp [Reg.SEC_MT_STAT_BUSY])
      (fun p q hpq => by simp only [Reg.SEC_MT_STAT_BUSY, Reg.SEC_MT_STAT]; omega) (.inl hmt)
  · obtain ⟨hbusy, htmo, hbits⟩ := portTimedOut_reads s sec
    refine ⟨_, exec_mtPortTimeout_of_late hb hw, hbusy, htmo, matcher_portTimedOut s sec, ?_, hbits, ?_⟩ <;>
    · unfold portTimedOut; rw [portGiveUp_eq]; rfl

/-! ### The store checker -/

section
variable (s : State) (sec : Nat)

/-- The word that the checker of a sector visits next. -/
def checkWord : CodeWord := s.storeWord sec (s.matcher sec).check

/-- The checker has visited a word: it moves on, and has had its visit of the slot. -/
def checkMoved : State := s.setMatcher sec
  { s.matcher sec with check := ((s.matcher sec).check + 1) % 16384, checkAt := some s.time.slots }

/-- The word visited is to be rewritten at the end of the slot. -/
def checkFixed (w : CodeWord) : State := storeFix (checkMoved s sec) sec (s.matcher sec).check w

/-- A word found correctable. -/
def checkCorrected (d : Word64) : State :=
  ((checkFixed s sec (cwEncode d)).raiseF (Reg.SEC_MT_STAT_CORR sec)).incF (Reg.SEC_MT_ECC_COR_CNT sec)

/-- A word found uncorrectable, before its flag and count: its address is captured. -/
def checkCaptured : State := (checkFixed s sec (cwSetPoison (checkWord s sec))).capture (Reg.SEC_MT_STAT_UNCORR sec)
  [(Reg.SEC_MT_STAT_UADDR sec, (s.matcher sec).check)]

/-- A word found uncorrectable. -/
def checkPoisoned : State :=
  (((checkCaptured s sec).raiseF (Reg.SEC_MT_STAT_UNCORR sec)).incF (Reg.SEC_MT_ECC_UNC_CNT sec)).raiseEv 225

/-- What a visit makes of a word whose poison bit is clear, by what its decoding finds (R148). -/
def checkOutcome : Decoded 64 → State
  | .clean _ => checkMoved s sec
  | .corrected d => checkCorrected s sec d
  | .bad => checkPoisoned s sec

end

section
variable {s : State} {sec : Fin 240} (hr : s.slotRuns = true) (hk : s.k = 7) (hn : (s.matcher sec).checkAt ≠ some s.time.slots)
include hr hk hn

theorem exec_storeCheck_of_poison (hp : cwPoison (checkWord s sec) = true) :
    exec (.storeCheck sec) s = .next (checkMoved s sec) := by
  rw [exec_storeCheck]
  unfold execStoreCheck
  dsimp only
  rw [if_pos (by simp [hr, hk, hn])]
  exact if_pos hp

section
variable (hp : cwPoison (checkWord s sec) = false)
include hp

theorem exec_storeCheck_of_decoded {x : Decoded 64} (hx : cwDecode (checkWord s sec) = x) :
    exec (.storeCheck sec) s = .next (checkOutcome s sec x) := by
  rw [exec_storeCheck]
  unfold execStoreCheck
  dsimp only
  rw [if_pos (by simp [hr, hk, hn])]
  refine (if_neg (Bool.eq_false_iff.mp hp)).trans ?_
  rw [show cwDecode (s.storeWord sec (s.matcher sec).check) = x from hx]
  cases x <;> rfl

end
end

/-- The one rewrite that a slot has left to its end stands then, where the word is still as it was read. -/
theorem storeWord_storeFixes {t : State} {sec a : Nat} {v w : CodeWord} (hf : t.cyc.fixes = [(16384 * sec + a, v, w)])
    (hv : t.storeWord sec a = v) : (storeFixes t).storeWord sec a = w := by
  unfold storeFixes
  rw [hf]
  exact (congrArg (fun x => tget (fun _ => 0) x (16384 * sec + a)) (if_pos hv)).trans (tget_tset_self _ _ _ _)

section
variable (s : State) (sec : Nat)

/-- A rewrite left to the end of the slot changes no register. -/
theorem checkFixed_regs (w : CodeWord) : (checkFixed s sec w).regs = s.regs := rfl

theorem fixes_checkFixed {w : CodeWord} (h : s.cyc.fixes = []) :
    (checkFixed s sec w).cyc.fixes = [(16384 * sec + (s.matcher sec).check, checkWord s sec, w)] := by
  unfold checkFixed storeFix
  rw [show (checkMoved s sec).cyc.fixes = [] from h]
  rfl

theorem checkCorrected_reads (d : Word64) : (checkCorrected s sec d).flag (Reg.SEC_MT_STAT_CORR sec) = true ∧
    (checkCorrected s sec d).getF (Reg.SEC_MT_ECC_COR_CNT sec) = min (s.getF (Reg.SEC_MT_ECC_COR_CNT sec) + 1) 65535 ∧
    BitsBut [Reg.SEC_MT_STAT_CORR sec, Reg.SEC_MT_ECC_COR_CNT sec] s (checkCorrected s sec d) :=
  raiseF_incF_reads (checkFixed_regs s sec _)
    (by simp [Reg.SEC_MT_STAT_CORR, Reg.SEC_MT_ECC_COR_CNT, Reg.SEC_MT_STAT, Reg.SEC_MT_ECC])
    (by simp [Reg.SEC_MT_STAT_CORR]) (by simp [Reg.SEC_MT_ECC_COR_CNT])

theorem fixes_checkCorrected (d : Word64) : (checkCorrected s sec d).cyc.fixes = (checkFixed s sec (cwEncode d)).cyc.fixes := by
  simp [checkCorrected]

/-- The visit of a correctable word changes registers and the record of the slot, beside its move. -/
theorem checkCorrected_eq (d : Word64) : checkCorrected s sec d = { checkMoved s sec with
    regs := (checkCorrected s sec d).regs, cyc := (checkCorrected s sec d).cyc } := by
  unfold checkCorrected State.incF State.addF State.raiseF State.note State.setF State.setReg
  rfl

/-- The bits that the visit of an uncorrectable word may change. -/
def poisonFields : List Field := [Reg.SEC_MT_STAT_UNCORR sec, Reg.SEC_MT_STAT_UADDR sec, Reg.SEC_MT_ECC_UNC_CNT sec]

theorem bitsBut_checkCaptured : BitsBut [Reg.SEC_MT_STAT_UADDR sec] s (checkCaptured s sec) :=
  bitsBut_trans (bitsBut_of_regs (bitsBut_refl _ s) (checkFixed_regs s sec _))
    (bitsBut_capture _ _ (by simp [Reg.SEC_MT_STAT_UADDR]))

theorem checkPoisoned_reads : (checkPoisoned s sec).flag (Reg.SEC_MT_STAT_UNCORR sec) = true ∧
    (checkPoisoned s sec).getF (Reg.SEC_MT_ECC_UNC_CNT sec) = min (s.getF (Reg.SEC_MT_ECC_UNC_CNT sec) + 1) 65535 ∧
    BitsBut (poisonFields sec) s (checkPoisoned s sec) := by
  obtain ⟨hflag, hcount, hbits⟩ := raiseF_incF_reads (s := checkCaptured s sec) (f := Reg.SEC_MT_STAT_UNCORR sec)
    (g := Reg.SEC_MT_ECC_UNC_CNT sec) rfl
    (by simp [Reg.SEC_MT_STAT_UNCORR, Reg.SEC_MT_ECC_UNC_CNT, Reg.SEC_MT_STAT, Reg.SEC_MT_ECC])
    (by simp [Reg.SEC_MT_STAT_UNCORR]) (by simp [Reg.SEC_MT_ECC_UNC_CNT])
  have hunc : (checkCaptured s sec).getF (Reg.SEC_MT_ECC_UNC_CNT sec) = s.getF (Reg.SEC_MT_ECC_UNC_CNT sec) :=
    getF_of_bitsBut (bitsBut_checkCaptured s sec)
      (by simp [Reg.SEC_MT_STAT_UADDR, Reg.SEC_MT_ECC_UNC_CNT, Reg.SEC_MT_STAT, Reg.SEC_MT_ECC])
  rw [hunc] at hcount
  exact ⟨hflag, hcount, bitsBut_trans (bitsBut_mono (bitsBut_checkCaptured s sec) (by simp [poisonFields]))
    (bitsBut_of_regs (bitsBut_mono hbits (by simp [poisonFields])) rfl)⟩

theorem fixes_checkPoisoned :
    (checkPoisoned s sec).cyc.fixes = (checkFixed s sec (cwSetPoison (checkWord s sec))).cyc.fixes := by
  simp [checkPoisoned, checkCaptured]

theorem checkCaptured_eq : checkCaptured s sec = { checkFixed s sec (cwSetPoison (checkWord s sec)) with
    regs := (checkCaptured s sec).regs, cyc := (checkCaptured s sec).cyc } := capture_eq _ _ _

theorem raised_checkPoisoned : (checkPoisoned s sec).raised = (s.raiseEv 225).raised := by
  refine raiseEv_raised_congr 225 ?_ ?_ ?_ ?_
  · show (checkCaptured s sec).raised = s.raised
    rw [checkCaptured_eq]; rfl
  · rw [incF_evs, raiseF_evs]
    exact capture_evs _ _ _
  · show (checkCaptured s sec).clockOn = s.clockOn
    rw [checkCaptured_eq]; rfl
  · show (checkCaptured s sec).dbgHalt = s.dbgHalt
    rw [checkCaptured_eq]; rfl

/-- The visit of an uncorrectable word changes registers, the record of the slot and the events raised, beside its move. -/
theorem checkPoisoned_eq : checkPoisoned s sec = { checkMoved s sec with
    regs := (checkPoisoned s sec).regs, cyc := (checkPoisoned s sec).cyc, raised := (checkPoisoned s sec).raised } := by
  unfold checkPoisoned
  rw [checkCaptured_eq]
  rfl

end

/-- Settles O16: a visit by the poison bit of the word and by what its decoding finds. -/
theorem storeChecker : Obligations.StoreChecker := by
  unfold Obligations.StoreChecker
  intro s sec m w m1 hr hk hn
  refine ⟨fun hp => exec_storeCheck_of_poison hr hk hn hp, fun d hp hd => exec_storeCheck_of_decoded hr hk hn hp hd,
    fun d hp hd => ?_, fun hp hd => ?_⟩
  · obtain ⟨hflag, hcount, hbits⟩ := checkCorrected_reads s sec d
    refine ⟨checkCorrected s sec d, exec_storeCheck_of_decoded hr hk hn hp hd, ?_, ?_, fun hf => ?_, hflag, hcount, hbits, ?_⟩
    · rw [checkCorrected_eq]; exact matcher_setMatcher_self _ _ _
    · rw [checkCorrected_eq]; rfl
    · refine storeWord_storeFixes ((fixes_checkCorrected s sec d).trans (fixes_checkFixed s sec hf)) ?_
      rw [checkCorrected_eq]; rfl
    · rw [checkCorrected_eq]; rfl
  · obtain ⟨hflag, hcount, hbits⟩ := checkPoisoned_reads s sec
    refine ⟨checkPoisoned s sec, exec_storeCheck_of_decoded hr hk hn hp hd, ?_, ?_, fun hf => ?_, hflag, hcount,
      raised_checkPoisoned s sec, hbits, ?_⟩
    · rw [checkPoisoned_eq]; exact matcher_setMatcher_self _ _ _
    · rw [checkPoisoned_eq]; rfl
    · refine storeWord_storeFixes ((fixes_checkPoisoned s sec).trans (fixes_checkFixed s sec hf)) ?_
      rw [checkPoisoned_eq]; rfl
    · rw [checkPoisoned_eq]; rfl

end Sys2Proof.Machine

/-!
SUPPORT. Banks (08_banks_tallies.md R153 to R166): what one operation does to the array, how a request is finished, how the fabric's
request is taken by its owner, refused, held or ignored, how a cycle idle for the owner is given away, and what a visit of the scrubber
leaves.
-/

namespace Sys2Proof.Machine

/-! ### The state of a bank -/

section
variable (s : State) (b : Nat) (k : Bank)

@[simp] theorem bank_setBank_self : (s.setBank b k).bank b = k := tget_tset_self _ _ _ _

/-- An update that leaves the registers, policies and persistence leaves what is pending. -/
theorem bankPending_setBank (h : k.persist = (s.bank b).persist) : bankPending (s.setBank b k) b = bankPending s b := by
  unfold bankPending
  rw [bank_setBank_self, h]
  rfl

theorem readWord_setBank (h : k.persist = (s.bank b).persist) (a : Nat) : readWord (s.setBank b k) b a = readWord s b a := by
  unfold readWord
  rw [bankPending_setBank s b k h]
  rfl

theorem outOfRange_setBank (h : k.persist = (s.bank b).persist) (r : BankReq) :
    outOfRange (s.setBank b k) b r = outOfRange s b r := by
  unfold outOfRange
  rw [bankPending_setBank s b k h]

end

/-- Before its first word a request reaches the word that it names. -/
theorem outOfRange_of_unbegun {s : State} {b : Nat} {r : BankReq} (h : r.step = 0) :
    outOfRange s b r = (bankPending s b && decide (2048 ≤ r.word)) := by
  unfold outOfRange
  rw [h, Nat.add_zero]

/-! ### Array operations on words without error -/

section
variable {s : State} {b w : Nat} {d : Word64}

theorem arrayRead_of_clean (hd : cwDecode (s.bankWord b w) = .clean d) : arrayRead s b w = (s, some d) := by
  unfold arrayRead
  rw [hd]

variable {r : BankReq} (hr : outOfRange s b r = false)
include hr

theorem bankReadHalf_of_clean (hd : cwDecode (s.bankWord b (readWord s b r.word)) = .clean d) :
    bankReadHalf s b r = (s, { r with half := true, err := false, old := d.toNat }) := by
  unfold bankReadHalf
  rw [if_neg (Bool.eq_false_iff.mp hr), arrayRead_of_clean hd]

theorem bankWordOp_of_clean (hop : r.op ≠ .write)
    (hd : cwDecode (s.bankWord b (readWord s b (r.word + r.step))) = .clean d) :
    bankWordOp s b r = (s, { r with step := r.step + 1, got := r.got ++ [laneValue r d.toNat] }) := by
  unfold bankWordOp
  rw [if_neg (Bool.eq_false_iff.mp hr), if_neg hop, arrayRead_of_clean hd]

theorem bankWordOp_of_write (hop : r.op = .write) :
    bankWordOp s b r = (bankStore s b (r.word + r.step) (r.data.getD r.step 0), { r with step := r.step + 1 }) := by
  unfold bankWordOp
  rw [if_neg (Bool.eq_false_iff.mp hr), if_pos hop]

end

/-- The value of a request for a whole word is the word. -/
theorem laneValue_of_word {r : BankReq} (h : r.size = 8) (v : Nat) : laneValue r v = v := if_pos h.ge

/-! ### A word stored -/

section
variable (s : State) (b w : Nat)

/-- A word written leaves of its bank everything but a rewrite of the scrubber that waits. -/
theorem bank_setBankWord (c : CodeWord) : ∃ x, (s.setBankWord b w c).bank b = { s.bank b with fix := x } := by
  unfold State.setBankWord
  dsimp only
  split
  case h_1 =>
    split
    · exact ⟨none, bank_setBank_self s b _⟩
    · exact ⟨_, rfl⟩
  case h_2 => exact ⟨_, rfl⟩

theorem setBankWord_eq (c : CodeWord) : s.setBankWord b w c =
    { s with banks := (s.setBankWord b w c).banks, bmem := tset (fun _ => 0) s.bmem (4096 * b + w) c } := by
  unfold State.setBankWord
  dsimp only
  split
  · split <;> rfl
  · rfl

/-- A restart touches only the operation between its halves. -/
theorem bank_restartHalf : ∃ m, (restartHalf s b w).bank b = { s.bank b with mid := m } := by
  unfold restartHalf
  dsimp only
  split
  case h_1 =>
    split
    · exact ⟨_, bank_setBank_self s b _⟩
    · exact ⟨_, rfl⟩
  case h_2 => exact ⟨_, rfl⟩

theorem restartHalf_eq : restartHalf s b w = { s with banks := (restartHalf s b w).banks } := by
  unfold restartHalf
  dsimp only
  split
  · split <;> rfl
  · rfl

variable (a v : Nat)

theorem bank_bankStore : ∃ x, (bankStore s b a v).bank b = { s.bank b with fix := x } := by
  unfold bankStore
  dsimp only
  split <;> exact bank_setBankWord s b (writeWord s b a) (cwEncode (BitVec.ofNat 64 v))

theorem bankStore_eq : bankStore s b a v = { s with
    banks := (bankStore s b a v).banks, bdirty := (bankStore s b a v).bdirty,
    bmem := tset (fun _ => 0) s.bmem (4096 * b + writeWord s b a) (cwEncode (BitVec.ofNat 64 v)) } := by
  unfold bankStore
  dsimp only
  rw [setBankWord_eq]
  split <;> rfl

/-- A word of an owner stored, with the restart of a non-owner's operation on it (R156). -/
def ownerStored : State := restartHalf (bankStore s b a v) b (writeWord s b a)

/-- A store of an owner leaves of its bank everything but a waiting rewrite and the operation between its halves. -/
theorem bank_ownerStored : ∃ x m, (ownerStored s b a v).bank b = { s.bank b with fix := x, mid := m } := by
  obtain ⟨x, hx⟩ := bank_bankStore s b a v
  obtain ⟨m, hm⟩ := bank_restartHalf (bankStore s b a v) b (writeWord s b a)
  exact ⟨x, m, by unfold ownerStored; rw [hm, hx]⟩

theorem ownerStored_eq : ownerStored s b a v = { s with
    banks := (ownerStored s b a v).banks, bdirty := (ownerStored s b a v).bdirty,
    bmem := tset (fun _ => 0) s.bmem (4096 * b + writeWord s b a) (cwEncode (BitVec.ofNat 64 v)) } := by
  unfold ownerStored
  rw [restartHalf_eq, bankStore_eq]

theorem ownerStored_bmem : (ownerStored s b a v).bmem =
    tset (fun _ => 0) s.bmem (4096 * b + writeWord s b a) (cwEncode (BitVec.ofNat 64 v)) :=
  congrArg State.bmem (ownerStored_eq s b a v)

@[simp] theorem ownerStored_time : (ownerStored s b a v).time = s.time := by simp [ownerStored]

@[simp] theorem results_ownerStored : ((ownerStored s b a v).bank b).results = (s.bank b).results := by
  obtain ⟨x, m, h⟩ := bank_ownerStored s b a v
  rw [h]

/-- The word that an owner has stored reads as its code word. -/
theorem bankWord_ownerStored :
    (ownerStored s b a v).bankWord b (writeWord s b a) = cwEncode (BitVec.ofNat 64 v) := by
  unfold State.bankWord
  rw [ownerStored_bmem, tget_tset_self]

end

/-! ### Operations of an owner -/

section
variable {s : State} {b : Nat} {r : BankReq}

theorem ownerWordOp_of_clean {d : Word64} (hr : outOfRange s b r = false) (hop : r.op = .read)
    (hd : cwDecode (s.bankWord b (readWord s b (r.word + r.step))) = .clean d) :
    ownerWordOp s b r = (s, { r with step := r.step + 1, got := r.got ++ [laneValue r d.toNat] }) := by
  unfold ownerWordOp
  rw [bankWordOp_of_clean hr (by simp [hop]) hd]
  dsimp only
  rw [if_neg (by simp [hop])]

theorem ownerWordOp_of_write (hr : outOfRange s b r = false) (hop : r.op = .write) :
    ownerWordOp s b r = (ownerStored s b (r.word + r.step) (r.data.getD r.step 0), { r with step := r.step + 1 }) := by
  unfold ownerWordOp
  rw [bankWordOp_of_write hr hop]
  dsimp only
  rw [if_pos (by simp [hop, hr])]
  rfl

/-- The write half of an atomic stores the new value and answers the old one. -/
theorem ownerWriteHalf_of_atomic (he : r.err = false) (hop : r.op ≠ .write) :
    ownerWriteHalf s b r = (ownerStored s b r.word (atomicValue r.op r.old (r.data.headD 0)),
      { r with step := 1, got := [laneValue r r.old] }) := by
  unfold ownerWriteHalf bankWriteHalf
  simp only [he, hop, if_false, Bool.false_eq_true]
  rfl

end

/-! ### A request finished -/

section
variable {s : State} {b : Nat} {r : BankReq}

/-- The fabric learns nothing of a request that has no answer. -/
theorem reqDone_of_silent (hid : r.id = 0x3FF) (ha : fabricAnswers r = false) : reqDone s b r = s := by
  unfold reqDone
  dsimp only
  rw [if_pos hid, if_neg (Bool.eq_false_iff.mp ha)]

/-- The fabric's answer without error is presented 4 slots on. -/
theorem reqDone_of_fabric (hid : r.id = 0x3FF) (ha : fabricAnswers r = true) (he : r.err = false) :
    reqDone s b r = s.setBank b
      { s.bank b with results := (s.bank b).results ++ [⟨s.time.slots + 4, r.got.headD 0, false⟩] } := by
  unfold reqDone
  dsimp only
  rw [if_pos hid, if_pos ha, he]
  rfl

/-- The response of the port to a read leaves 4 slots on. -/
theorem reqDone_of_port (hid : r.id ≠ 0x3FF) (hno : r.id ≠ nobody) (hop : r.op = .read) :
    reqDone s b r = { s with rsps := s.rsps ++ [reqResponse r (s.time.slots + 4)] } := by
  unfold reqDone
  dsimp only
  rw [if_neg hid, if_neg hno, if_neg (by simp [hop])]

theorem fabricAnswers_of_ne_write (hop : r.op ≠ .write) : fabricAnswers r = true := by
  unfold fabricAnswers
  split
  · contradiction
  · rfl

/-- A write of all bytes answers nothing. -/
theorem fabricAnswers_of_full (hop : r.op = .write) (hbe : r.be % 256 = 255) : fabricAnswers r = false := by
  unfold fabricAnswers
  rw [hop]
  simp [hbe]

end

/-! ### The request of the fabric -/

/-- A request of the fabric is one of a whole word that has not begun. -/
theorem fabricReq_begins {s : State} {sec i : Nat} {r : BankReq} (h : fabricReq s sec i = some r) :
    r.id = 0x3FF ∧ r.size = 8 ∧ r.step = 0 ∧ r.err = false ∧ r.got = [] := by
  unfold fabricReq at h
  dsimp only at h
  split at h
  case isFalse => contradiction
  case isTrue =>
    split at h
    case h_1 => contradiction
    case h_2 =>
      split at h
      case isTrue => contradiction
      case isFalse =>
        obtain rfl := Option.some.inj h
        exact ⟨rfl, rfl, rfl, rfl, rfl⟩

section
variable (s : State) (b : Nat) (r : BankReq)

/-- The bank has taken the fabric's request in this slot (R155). -/
def fabricTaken : State :=
  s.setBank b { s.bank b with usedAt := some s.time.slots, acceptAt := some s.time.slots }

@[simp] theorem bank_fabricTaken : (fabricTaken s b).bank b =
    { s.bank b with usedAt := some s.time.slots, acceptAt := some s.time.slots } := bank_setBank_self s b _

/-- The read half of the fabric's two-cycle operation has found `d`. -/
def fabricHalfRead (d : Word64) : State :=
  s.setBank b { s.bank b with
    second := some { r with half := true, err := false, old := d.toNat }, usedAt := some s.time.slots, acceptAt := some s.time.slots }

/-- The bank has refused the fabric's request in this slot (R155). -/
def fabricRefused : State := s.setBank b { s.bank b with refusedAt := some s.time.slots }

/-- The bank of another owner holds the fabric's request (R157). -/
def fabricHeld : State := s.setBank b { s.bank b with held := some r, heldAt := s.time.slots }

end

section
variable {s : State} {b : Nat} {r : BankReq}

theorem fabricOwnerDo_of_half {d : Word64} (htwo : twoCycle r.op r.be = true) (hr : outOfRange s b r = false)
    (hd : cwDecode (s.bankWord b (readWord s b r.word)) = .clean d) : fabricOwnerDo s b r = fabricHalfRead s b r d := by
  unfold fabricOwnerDo
  dsimp only
  rw [if_pos htwo, bankReadHalf_of_clean hr hd]
  rfl

/-- An operation of one cycle is taken in the state in which its request is finished. -/
theorem fabricOwnerDo_of_one {t u : State} {q : BankReq} (htwo : twoCycle r.op r.be = false) (hdo : ownerWordOp s b r = (t, q))
    (hdone : reqDone t b q = u) (htime : u.time = s.time) : fabricOwnerDo s b r = fabricTaken u b := by
  unfold fabricOwnerDo fabricTaken
  simp only [htwo, hdo, hdone, htime, Bool.false_eq_true, if_false]

/-- A read of the fabric's own bank has its word in its result. -/
theorem fabricOwnerDo_of_read {d : Word64} (hop : r.op = .read) (hid : r.id = 0x3FF) (he : r.err = false)
    (hr : outOfRange s b r = false) (hd : cwDecode (s.bankWord b (readWord s b (r.word + r.step))) = .clean d) :
    fabricOwnerDo s b r = fabricTaken (s.setBank b { s.bank b with results := (s.bank b).results ++
      [⟨s.time.slots + 4, (r.got ++ [laneValue r d.toNat]).headD 0, false⟩] }) b :=
  fabricOwnerDo_of_one (by rw [hop]; rfl) (ownerWordOp_of_clean hr hop hd)
    (reqDone_of_fabric hid (fabricAnswers_of_ne_write (by simp [hop])) he) rfl

/-- A write of all bytes of a word of the fabric's own bank stores it. -/
theorem fabricOwnerDo_of_write (hop : r.op = .write) (hbe : r.be % 256 = 255) (hid : r.id = 0x3FF)
    (hr : outOfRange s b r = false) :
    fabricOwnerDo s b r = fabricTaken (ownerStored s b (r.word + r.step) (r.data.getD r.step 0)) b :=
  fabricOwnerDo_of_one (by simp [hop, hbe, twoCycle]) (ownerWordOp_of_write hr hop)
    (reqDone_of_silent hid (fabricAnswers_of_full hop hbe)) (ownerStored_time s b _ _)

end

/-! ### The fabric's request by the owner of the bank -/

section
variable {s : State} {sec i : Nat} {r : BankReq} {op : BankOp}

/-- The fabric presents a request that the bank has neither taken nor refused in this slot. -/
def FabricFresh (s : State) (sec i : Nat) (r : BankReq) : Prop :=
  fabricReq s sec i = some r ∧ (s.bank (8 * sec + i)).acceptAt ≠ some s.time.slots ∧
    (s.bank (8 * sec + i)).refusedAt ≠ some s.time.slots

section
variable (hf : FabricFresh s sec i r) (hop : r.op = op)
include hf hop

/-- A fresh request comes to the owner of the bank, or to the place of a held one. -/
theorem fabricTake_of_fresh : fabricTake s sec i op =
    if (s.bank (8 * sec + i)).own.1 = 0 then
      if (s.bank (8 * sec + i)).second.isSome then
        ok (((fabricRefused s (8 * sec + i)).raiseF (Reg.SEC_BSTAT_COLL sec)).incF (Reg.SEC_BCOLL_COLL_CNT sec))
      else ok (fabricOwnerDo s (8 * sec + i) r)
    else if (s.bank (8 * sec + i)).held.isSome then ok s
    else ok (fabricHeld s (8 * sec + i) r) := by
  obtain ⟨hreq, hacc, href⟩ := hf
  unfold fabricTake
  rw [hreq]
  exact if_neg (by simp [hop, hacc, href])

theorem fabricTake_of_owner (hown : (s.bank (8 * sec + i)).own.1 = 0) (hsec : (s.bank (8 * sec + i)).second = none) :
    fabricTake s sec i op = .next (fabricOwnerDo s (8 * sec + i) r) := by
  rw [fabricTake_of_fresh hf hop, if_pos hown, if_neg (by simp [hsec])]

theorem fabricTake_of_second (hown : (s.bank (8 * sec + i)).own.1 = 0)
    (hsec : (s.bank (8 * sec + i)).second.isSome = true) : fabricTake s sec i op =
      .next (((fabricRefused s (8 * sec + i)).raiseF (Reg.SEC_BSTAT_COLL sec)).incF (Reg.SEC_BCOLL_COLL_CNT sec)) := by
  rw [fabricTake_of_fresh hf hop, if_pos hown, if_pos hsec]

theorem fabricTake_of_nonowner (hown : (s.bank (8 * sec + i)).own.1 ≠ 0) (hheld : (s.bank (8 * sec + i)).held = none) :
    fabricTake s sec i op = .next (fabricHeld s (8 * sec + i) r) := by
  rw [fabricTake_of_fresh hf hop, if_neg hown, if_neg (by simp [hheld])]

end

/-- While a request is held the bank ignores what the fabric presents (R157). -/
theorem fabricTake_of_held (op : BankOp) (hown : (s.bank (8 * sec + i)).own.1 ≠ 0)
    (hheld : (s.bank (8 * sec + i)).held.isSome = true) : fabricTake s sec i op = .next s := by
  unfold fabricTake
  split
  · rfl
  · dsimp only
    rw [if_neg hown, if_pos hheld]
    exact ite_self _

end

/-- `t` is `s` with the fabric's request refused: the slot of it, COLL and its count (R155). -/
def RequestRefused (s : State) (sec i : Nat) (t : State) : Prop :=
  t.bank (8 * sec + i) = { s.bank (8 * sec + i) with refusedAt := some s.time.slots } ∧
  t.flag (Reg.SEC_BSTAT_COLL sec) = true ∧
  t.getF (Reg.SEC_BCOLL_COLL_CNT sec) = min (s.getF (Reg.SEC_BCOLL_COLL_CNT sec) + 1) 65535 ∧
  BitsBut [Reg.SEC_BSTAT_COLL sec, Reg.SEC_BCOLL_COLL_CNT sec] s t ∧ { t with regs := s.regs, cyc := s.cyc, banks := s.banks } = s

theorem fabricRefused_counted (s : State) (sec i : Nat) : RequestRefused s sec i
    (((fabricRefused s (8 * sec + i)).raiseF (Reg.SEC_BSTAT_COLL sec)).incF (Reg.SEC_BCOLL_COLL_CNT sec)) := by
  obtain ⟨hflag, hcount, hbits⟩ := raiseF_incF_reads (s := s) (u := fabricRefused s (8 * sec + i))
    (f := Reg.SEC_BSTAT_COLL sec) (g := Reg.SEC_BCOLL_COLL_CNT sec) rfl
    (by simp [Reg.SEC_BSTAT_COLL, Reg.SEC_BCOLL_COLL_CNT, Reg.SEC_BSTAT, Reg.SEC_BCOLL])
    (by simp [Reg.SEC_BSTAT_COLL]) (by simp [Reg.SEC_BCOLL_COLL_CNT])
  exact ⟨bank_setBank_self s _ _, hflag, hcount, hbits, rfl⟩

/-! ### The second cycle of the fabric's atomic -/

section
variable {s : State} {b : Nat} {q : BankReq}

theorem ownerCycle_of_second (hq : (s.bank b).second = some q) (hu : (s.bank b).usedAt ≠ some s.time.slots) :
    ownerCycle s b = reqDone ((ownerWriteHalf s b q).1.setBank b { (ownerWriteHalf s b q).1.bank b with second := none }) b
      (ownerWriteHalf s b q).2 := by
  unfold ownerCycle
  dsimp only
  rw [hq]
  exact if_neg hu

/-- The state in which the write half of an atomic has stored its word and the operation is over. -/
def atomicStored (s : State) (b : Nat) (q : BankReq) : State :=
  let t := ownerStored s b q.word (atomicValue q.op q.old (q.data.headD 0))
  t.setBank b { t.bank b with second := none }

/-- The second cycle of the fabric's atomic stores its new value and answers the old one. -/
theorem ownerCycle_of_atomic (hq : (s.bank b).second = some q) (hu : (s.bank b).usedAt ≠ some s.time.slots)
    (hid : q.id = 0x3FF) (he : q.err = false) (hsize : q.size = 8) (hop : q.op ≠ .write) :
    ownerCycle s b = (atomicStored s b q).setBank b { (atomicStored s b q).bank b with
      results := ((atomicStored s b q).bank b).results ++ [⟨s.time.slots + 4, q.old, false⟩] } := by
  have htime : (atomicStored s b q).time = s.time := ownerStored_time s b _ _
  rw [ownerCycle_of_second hq hu, ownerWriteHalf_of_atomic he hop, laneValue_of_word hsize, ← htime]
  exact reqDone_of_fabric hid (fabricAnswers_of_ne_write hop) he

/-- The answer of the atomic is under way, its second cycle is over, and its word reads as the new value. -/
theorem ownerCycle_atomic_reads (hq : (s.bank b).second = some q) (hu : (s.bank b).usedAt ≠ some s.time.slots)
    (hid : q.id = 0x3FF) (he : q.err = false) (hsize : q.size = 8) (hop : q.op ≠ .write) :
    ((ownerCycle s b).bank b).results = (s.bank b).results ++ [⟨s.time.slots + 4, q.old, false⟩] ∧
      ((ownerCycle s b).bank b).second = none ∧
      (ownerCycle s b).bankWord b (writeWord s b q.word) =
        cwEncode (BitVec.ofNat 64 (atomicValue q.op q.old (q.data.headD 0))) := by
  rw [ownerCycle_of_atomic hq hu hid he hsize hop]
  exact ⟨by simp [atomicStored], by simp [atomicStored], bankWord_ownerStored s b q.word _⟩

end

/-- The other words of the array stay as an owner stores one. -/
theorem tget_bmem_ownerStored (s : State) (b a v : Nat) {x : Nat} (h : x ≠ 4096 * b + writeWord s b a) :
    tget (fun _ => 0) (ownerStored s b a v).bmem x = tget (fun _ => 0) s.bmem x := by
  rw [ownerStored_bmem]
  exact tget_tset_ne _ _ _ _ _ h

section
variable {s : State} {sec i : Nat} {r : BankReq} {op : BankOp} (hf : FabricFresh s sec i r)
  (ho : (s.bank (8 * sec + i)).own.1 = 0 ∧ (s.bank (8 * sec + i)).second = none) (hop : r.op = op)
  (hr : (bankPending s (8 * sec + i) && decide (2048 ≤ r.word)) = false)
include hf ho hop hr

/-- A narrow write or an atomic of the fabric reads its word in the first of its cycles. -/
theorem fabricTake_half {d : Word64} (htwo : twoCycle op r.be = true)
    (hd : cwDecode (s.bankWord (8 * sec + i) (readWord s (8 * sec + i) r.word)) = .clean d) :
    fabricTake s sec i op = .next (fabricHalfRead s (8 * sec + i) r d) := by
  obtain ⟨-, -, hstep, -, -⟩ := fabricReq_begins hf.1
  rw [fabricTake_of_owner hf hop ho.1 ho.2,
    fabricOwnerDo_of_half (hop.symm ▸ htwo) ((outOfRange_of_unbegun hstep).trans hr) hd]

/-- A read of the fabric answers its word 4 slots on. -/
theorem fabricTake_read {d : Word64} (hread : op = .read)
    (hd : cwDecode (s.bankWord (8 * sec + i) (readWord s (8 * sec + i) r.word)) = .clean d) :
    fabricTake s sec i op = .next (fabricTaken (s.setBank (8 * sec + i) { s.bank (8 * sec + i) with
      results := (s.bank (8 * sec + i)).results ++ [⟨s.time.slots + 4, d.toNat, false⟩] }) (8 * sec + i)) := by
  obtain ⟨hid, hsize, hstep, herr, hgot⟩ := fabricReq_begins hf.1
  rw [fabricTake_of_owner hf hop ho.1 ho.2, fabricOwnerDo_of_read (hop.trans hread) hid herr
    ((outOfRange_of_unbegun hstep).trans hr) (by rw [hstep]; exact hd), hgot, laneValue_of_word hsize]
  rfl

/-- A write of all bytes stores the word of the fabric. -/
theorem fabricTake_write (hwrite : op = .write) (hbe : r.be % 256 = 255) :
    fabricTake s sec i op =
      .next (fabricTaken (ownerStored s (8 * sec + i) r.word (r.data.headD 0)) (8 * sec + i)) := by
  obtain ⟨hid, -, hstep, -, -⟩ := fabricReq_begins hf.1
  rw [fabricTake_of_owner hf hop ho.1 ho.2, fabricOwnerDo_of_write (hop.trans hwrite) hbe hid
    ((outOfRange_of_unbegun hstep).trans hr), hstep, List.headD_eq_getD]
  rfl

end

/-- Settles O17: a request by the owner of the bank and by what the operation does in its first cycle, the second cycle by the store
and the answer of the write half. -/
theorem bankFabricOperations : Obligations.BankFabricOperations := by
  unfold Obligations.BankFabricOperations
  intro s sec i r b k now w inRange old fresh owns halfRead refused held
  have hrefuse : ∀ {op : BankOp}, fresh → k.own.1 = 0 → k.second.isSome = true → r.op = op →
      ∃ t, fabricTake s sec i op = .next t ∧ refused t := fun hf ho hs hop =>
    ⟨_, fabricTake_of_second hf hop ho hs, fabricRefused_counted s sec i⟩
  have hread := exec_bankRead s sec i
  have hwrite := exec_bankWrite s sec i
  have hadd := exec_bankAdd s sec i
  have haddu := exec_bankAddu s sec i
  have hadds := exec_bankAdds s sec i
  have hswap := exec_bankSwap s sec i
  refine ⟨fun d hf ho hop hr hd => ?_, fun hf ho hop hbe hr => ?_,
    fun d hf ho hop hbe hr hd => hwrite.trans (fabricTake_half hf ho hop hr (bne_iff_ne.mpr hbe) hd),
    fun d hf ho hop hr hd => hadd.trans (fabricTake_half hf ho hop hr rfl hd),
    fun d hf ho hop hr hd => haddu.trans (fabricTake_half hf ho hop hr rfl hd),
    fun d hf ho hop hr hd => hadds.trans (fabricTake_half hf ho hop hr rfl hd),
    fun d hf ho hop hr hd => hswap.trans (fabricTake_half hf ho hop hr rfl hd),
    fun hf ho hs hop => hread ▸ hrefuse hf ho hs hop, fun hf ho hs hop => hwrite ▸ hrefuse hf ho hs hop,
    fun hf ho hs hop => hadd ▸ hrefuse hf ho hs hop, fun hf ho hs hop => haddu ▸ hrefuse hf ho hs hop,
    fun hf ho hs hop => hadds ▸ hrefuse hf ho hs hop, fun hf ho hs hop => hswap ▸ hrefuse hf ho hs hop,
    fun hf ho hh hop => hread.trans (fabricTake_of_nonowner hf hop ho hh),
    fun hf ho hh hop => hwrite.trans (fabricTake_of_nonowner hf hop ho hh),
    fun hf ho hh hop => hadd.trans (fabricTake_of_nonowner hf hop ho hh),
    fun hf ho hh hop => haddu.trans (fabricTake_of_nonowner hf hop ho hh),
    fun hf ho hh hop => hadds.trans (fabricTake_of_nonowner hf hop ho hh),
    fun hf ho hh hop => hswap.trans (fabricTake_of_nonowner hf hop ho hh),
    fun ho hh => ⟨hread.trans (fabricTake_of_held _ ho hh), hwrite.trans (fabricTake_of_held _ ho hh),
      hadd.trans (fabricTake_of_held _ ho hh), haddu.trans (fabricTake_of_held _ ho hh),
      hadds.trans (fabricTake_of_held _ ho hh), hswap.trans (fabricTake_of_held _ ho hh)⟩,
    fun q hq hu hid he hsize _ hop => ownerCycle_atomic_reads hq hu hid he hsize hop⟩
  · refine ⟨_, hread.trans (fabricTake_read hf ho hop hr rfl hd), ?_, ?_, ?_, rfl⟩ <;> simp [fabricTaken, b, k, now]
  · refine ⟨_, hwrite.trans (fabricTake_write hf ho hop hr rfl hbe), ?_, ?_, bankWord_ownerStored s b r.word _,
      fun y hy => tget_bmem_ownerStored s b r.word _ hy, ?_⟩
    · exact (congrArg Bank.results (bank_fabricTaken _ b)).trans (results_ownerStored s b r.word _)
    · exact (congrArg Bank.acceptAt (bank_fabricTaken _ b)).trans (by rw [ownerStored_time])
    · unfold fabricTaken; rw [ownerStored_eq]; rfl

/-! ### Writes of SEC_BOWN and SEC_BCFG -/

theorem onlyBits_keepOld (s : State) (fs : List Field) (o : Nat) : OnlyBits fs s (s.keepOld o) :=
  onlyBits_of_eq (bitsBut_of_regs (bitsBut_refl fs s) (by rw [keepOld_eq])) (by rw [keepOld_eq])

/-- BADCFG is raised, and nothing else but the record of the slot changes. -/
theorem badCfg_reads {s u : State} (sec : Nat) (h : OnlyBits [Reg.SEC_BSTAT_BADCFG sec] s u) :
    (u.raiseF (Reg.SEC_BSTAT_BADCFG sec)).flag (Reg.SEC_BSTAT_BADCFG sec) = true ∧
      OnlyBits [Reg.SEC_BSTAT_BADCFG sec] s (u.raiseF (Reg.SEC_BSTAT_BADCFG sec)) := by
  obtain ⟨hbut, hrest⟩ := h
  obtain ⟨hflag, hbits⟩ := raiseF_reads (Reg.SEC_BSTAT_BADCFG sec) hbut (by simp) (by simp [Reg.SEC_BSTAT_BADCFG])
  exact ⟨hflag, hbits, hrest⟩

section
variable {s : State} {sec i : Nat} {v : Word32}

theorem bownWrite_of_bad (h : nbits v.toNat 31 30 = 3) : bownWrite s sec i v = s.raiseF (Reg.SEC_BSTAT_BADCFG sec) := if_pos h

theorem bownWrite_of_class (h : nbits v.toNat 31 30 ≠ 3) :
    bownWrite s sec i v = s.setReg (Reg.SEC_BOWN sec i) (v &&& 0xC00003FF#32) := if_neg h

theorem bcfgWrite_of_both (h : (v.getLsbD 2 && v.getLsbD 1) = true) :
    bcfgWrite s sec i v = s.raiseF (Reg.SEC_BSTAT_BADCFG sec) := if_pos h

theorem bcfgWrite_of_one (h : (v.getLsbD 2 && v.getLsbD 1) = false) :
    bcfgWrite s sec i v = s.setReg (Reg.SEC_BCFG sec i) (v &&& 0xE#32) := if_neg (Bool.eq_false_iff.mp h)

end

section
variable {s : State} (sec : Fin 240) (i : Fin 8) (ha : s.alive = true)
include ha

theorem exec_ownerHandover_of_alive (v : Word32) : exec (.ownerHandover sec i v) s = .next (bownWrite s sec i v) :=
  (exec_ownerHandover s sec i v).trans (okIf_of_true _ _ ha)

theorem exec_bankConfigWrite_of_alive (v : Word32) :
    exec (.bankConfigWrite sec i v) s = .next (bcfgWrite (s.keepOld (Reg.SEC_BCFG sec i)) sec i v) :=
  (exec_bankConfigWrite s sec i v).trans (okIf_of_true _ _ ha)

end

/-! ### Non-owner service -/

section
variable (s : State) (b c : Nat)

/-- The bank in whose cycle candidate `c` is served (R156). -/
def bankServing : Bank :=
  { s.bank b with
    usedAt := some s.time.slots, servAt := some s.time.slots, ptr := c,
    acceptAt := if c = 0 ∧ (s.bank b).mid.isNone = true then some s.time.slots else (s.bank b).acceptAt }

/-- The state in which a bank cycle is given to candidate `c`. -/
def cycleGiven : State := s.setBank b (bankServing s b c)

@[simp] theorem bank_cycleGiven : (cycleGiven s b c).bank b = bankServing s b c := bank_setBank_self s b _

@[simp] theorem outOfRange_cycleGiven (r : BankReq) : outOfRange (cycleGiven s b c) b r = outOfRange s b r :=
  outOfRange_setBank s b (bankServing s b c) rfl r

@[simp] theorem readWord_cycleGiven (a : Nat) : readWord (cycleGiven s b c) b a = readWord s b a :=
  readWord_setBank s b (bankServing s b c) rfl a

@[simp] theorem bankWord_cycleGiven (w : Nat) : (cycleGiven s b c).bankWord b w = s.bankWord b w := rfl

/-- Taking a candidate's request away leaves the record of the cycle. -/
theorem candPut_bankServing (x : Option BankReq) : candPut (bankServing s b c) c x =
    { candPut (s.bank b) c x with
      usedAt := some s.time.slots, servAt := some s.time.slots, ptr := c,
      acceptAt := if c = 0 ∧ (s.bank b).mid.isNone = true then some s.time.slots else (s.bank b).acceptAt } :=
  match c with
  | 0 => rfl
  | 1 => rfl
  | _ + 2 => rfl

end

section
variable {s : State} {b c : Nat} {r : BankReq}

theorem nonownerServe_of_two (hm : (s.bank b).mid = none) (htwo : twoCycle r.op r.be = true) (hh : r.half = false) {q : BankReq}
    (hdo : bankReadHalf (cycleGiven s b c) b r = (cycleGiven s b c, q)) :
    nonownerServe s b c r = (cycleGiven s b c).setBank b { candPut (bankServing s b c) c none with mid := some (c, q) } := by
  have hnone : (s.bank b).mid.isNone = true := by rw [hm]; rfl
  rw [← bank_cycleGiven]
  refine (if_pos htwo).trans ((if_neg (Bool.eq_false_iff.mp hh)).trans ?_)
  change (bankReadHalf (cycleGiven s b c) b r).1.setBank b { (if (s.bank b).mid.isNone = true then
    candPut ((bankReadHalf (cycleGiven s b c) b r).1.bank b) c none else (bankReadHalf (cycleGiven s b c) b r).1.bank b) with
    mid := some (c, (bankReadHalf (cycleGiven s b c) b r).2) } = _
  rw [hdo, if_pos hnone]

theorem nonownerServe_of_last (htwo : twoCycle r.op r.be = false) {q : BankReq}
    (hdo : bankWordOp (cycleGiven s b c) b r = (cycleGiven s b c, q)) (hlast : reqWords r ≤ q.step) :
    nonownerServe s b c r = reqDone ((cycleGiven s b c).setBank b (candPut (bankServing s b c) c none)) b q := by
  rw [← bank_cycleGiven]
  refine (if_neg (Bool.eq_false_iff.mp htwo)).trans ?_
  change (if (bankWordOp (cycleGiven s b c) b r).2.step < reqWords r then _ else
    reqDone ((bankWordOp (cycleGiven s b c) b r).1.setBank b
      (candPut ((bankWordOp (cycleGiven s b c) b r).1.bank b) c none)) b (bankWordOp (cycleGiven s b c) b r).2) = _
  rw [hdo]
  exact if_neg (Nat.not_lt.mpr hlast)

theorem exec_bankNonownerServe_of_cand {sec : Fin 240} {i : Fin 8} (hidle : cycleIdle s sec i = true)
    (hc : nextCand s (s.bank (8 * sec.val + i.val)) = some (c, r)) :
    exec (.bankNonownerServe sec i) s = .next (nonownerServe s (8 * sec.val + i.val) c r) := by
  rw [exec_bankNonownerServe]
  unfold execBankNonownerServe
  dsimp only
  rw [hc]
  exact okIf_of_true _ _ hidle

section
variable {d : Word64} (hr : outOfRange s b r = false)
include hr

/-- The first half of a two-cycle operation reads its word and stands between its halves (R156). -/
theorem nonownerServe_half (hm : (s.bank b).mid = none) (htwo : twoCycle r.op r.be = true) (hh : r.half = false)
    (hd : cwDecode (s.bankWord b (readWord s b r.word)) = .clean d) :
    nonownerServe s b c r = (cycleGiven s b c).setBank b { candPut (bankServing s b c) c none with
      mid := some (c, { r with half := true, err := false, old := d.toNat }) } :=
  nonownerServe_of_two hm htwo hh (bankReadHalf_of_clean (by simpa using hr) (by simpa using hd))

/-- A read of one word through the port is answered in its cycle and leaves its queue (R156). -/
theorem nonownerServe_read (hop : r.op = .read) (hsize : r.size < 64) (hstep : r.step = 0) (hid : r.id ≠ 0x3FF)
    (hno : r.id ≠ nobody) (hd : cwDecode (s.bankWord b (readWord s b r.word)) = .clean d) :
    nonownerServe s b c r = { (cycleGiven s b c).setBank b (candPut (bankServing s b c) c none) with
      rsps := s.rsps ++
        [reqResponse { r with step := r.step + 1, got := r.got ++ [laneValue r d.toNat] } (s.time.slots + 4)] } := by
  have hlast : reqWords r ≤ r.step + 1 := by simp [reqWords, hstep, Nat.not_le.mpr hsize]
  have hdo := bankWordOp_of_clean (s := cycleGiven s b c) (b := b) (r := r) (d := d)
    (by simpa using hr) (by simp [hop]) (by simpa [hstep] using hd)
  exact (nonownerServe_of_last (by rw [hop]; rfl) hdo hlast).trans (reqDone_of_port hid hno hop)

end

end

/-! ### The scrubber -/

section
variable (s : State) (b : Nat)

/-- The bank after a visit of the scrubber: the next word, the slot, and the cycle used (R162). -/
def bankVisited : Bank :=
  { s.bank b with
    scrubWord := ((s.bank b).scrubWord + 1) % 4096, scrubAt := some s.time.slots, scrubWait := 0, usedAt := some s.time.slots }

/-- The scrubber has visited a word of the bank. -/
def scrubMoved : State := s.setBank b (bankVisited s b)

/-- The word visited waits to be rewritten with `d`. -/
def scrubCorrected (d : Word64) : State :=
  (bankCorr (scrubMoved s b) b).setBank b { bankVisited s b with fix := some ((s.bank b).scrubWord, cwEncode d) }

/-- What a visit makes of a word that is not poisoned, by what its decoding finds (R162). -/
def scrubOutcome : Decoded 64 → State
  | .clean _ => scrubMoved s b
  | .corrected d => scrubCorrected s b d
  | .bad => (bankUnc (scrubMoved s b) b (s.bank b).scrubWord).setBank b { bankVisited s b with
      fix := some ((s.bank b).scrubWord, cwSetPoison (s.bankWord b (s.bank b).scrubWord)) }

theorem exec_bankScrubVisit_of_due {sec : Fin 240} {i : Fin 8} (hb : b = 8 * sec.val + i.val)
    (hv : (scrubDueAt s sec i && (scrubFree s sec i).1 && (s.bank b).fix.isNone) = true)
    (hp : cwPoison (s.bankWord b (s.bank b).scrubWord) = false) (hq : (scrubFree s sec i).2 = false) {x : Decoded 64}
    (hx : cwDecode (s.bankWord b (s.bank b).scrubWord) = x) :
    exec (.bankScrubVisit sec i) s = .next (scrubOutcome s b x) := by
  subst hb
  rw [exec_bankScrubVisit]
  unfold execBankScrubVisit
  dsimp only
  rw [if_pos hv, if_neg (Bool.eq_false_iff.mp hp), hq, hx]
  cases x <;> rfl

theorem scrubCorrected_reads {sec i : Nat} (hi : i < 8) (d : Word64) :
    (scrubCorrected s (8 * sec + i) d).flag (Reg.SEC_BSTAT_CORR sec) = true ∧
      (scrubCorrected s (8 * sec + i) d).getF (Reg.SEC_BECC_COR_CNT sec) = min (s.getF (Reg.SEC_BECC_COR_CNT sec) + 1) 65535 ∧
      BitsBut [Reg.SEC_BSTAT_CORR sec, Reg.SEC_BECC_COR_CNT sec] s (scrubCorrected s (8 * sec + i) d) := by
  have hsec : (8 * sec + i) / 8 = sec := by omega
  obtain ⟨hflag, hcount, hbits⟩ := raiseF_incF_reads (s := s) (u := scrubMoved s (8 * sec + i))
    (f := Reg.SEC_BSTAT_CORR sec) (g := Reg.SEC_BECC_COR_CNT sec) rfl
    (by simp [Reg.SEC_BSTAT_CORR, Reg.SEC_BECC_COR_CNT, Reg.SEC_BSTAT, Reg.SEC_BECC])
    (by simp [Reg.SEC_BSTAT_CORR]) (by simp [Reg.SEC_BECC_COR_CNT])
  unfold scrubCorrected bankCorr
  rw [hsec]
  exact ⟨hflag, hcount, bitsBut_of_regs hbits rfl⟩

end

/-- Settles O18: a write of SEC_BOWN and of SEC_BCFG by whether it is refused, an idle cycle by the operation of its candidate, and a
visit of the scrubber by what the decoding of its word finds. -/
theorem bankServiceAndScrubber : Obligations.BankServiceAndScrubber := by
  unfold Obligations.BankServiceAndScrubber
  intro s sec i b k now visits cw k1
  have hkeep := onlyBits_keepOld s
  refine ⟨fun v ha hv => ?_, fun v ha hv => ?_, fun v ha hv => ?_, fun v ha hv => ?_,
    fun c r d hidle hm hc htwo hh hr hd => ?_, fun r rest d hidle hm hc hnet hop hsize hstep herr hgot hid hno hr hd => ?_,
    fun d hv hp hd hq => ?_, fun d hv hp hd hq => ?_⟩
  · rw [exec_ownerHandover_of_alive sec i ha, bownWrite_of_bad hv]
    exact ⟨_, rfl, badCfg_reads sec (onlyBits_refl s _)⟩
  · rw [exec_ownerHandover_of_alive sec i ha, bownWrite_of_class hv]
    exact ⟨_, rfl, reg_setReg_self s _ _, onlyBits_setReg s _ _⟩
  · rw [exec_bankConfigWrite_of_alive sec i ha, bcfgWrite_of_both hv]
    exact ⟨_, rfl, badCfg_reads sec (hkeep _ _)⟩
  · rw [exec_bankConfigWrite_of_alive sec i ha, bcfgWrite_of_one hv]
    exact ⟨_, rfl, reg_setReg_self _ _ _, onlyBits_trans (hkeep _ _) (onlyBits_setReg _ _ _)⟩
  · rw [exec_bankNonownerServe_of_cand hidle hc, nonownerServe_half hr hm htwo hh hd, candPut_bankServing]
    refine ⟨_, rfl, ?_, rfl⟩
    rw [bank_setBank_self]
    simp [hm, k, b, now]
  · rw [exec_bankNonownerServe_of_cand hidle hc, nonownerServe_read hr hop hsize hstep hid hno hd]
    refine ⟨_, rfl, ?_, ?_, ?_, rfl⟩
    · simp [reqResponse, herr, hgot, now]
    · exact (congrArg Bank.net (bank_setBank_self _ _ _)).trans (congrArg (List.drop 1) hnet)
    · exact congrArg Bank.ptr (bank_setBank_self _ _ _)
  · exact exec_bankScrubVisit_of_due s b rfl hv hp hq hd
  · obtain ⟨hflag, hcount, hbits⟩ := scrubCorrected_reads s (sec := sec) i.isLt d
    exact ⟨_, exec_bankScrubVisit_of_due s b rfl hv hp hq hd, bank_setBank_self _ _ _, hflag, hcount, hbits, rfl⟩

end Sys2Proof.Machine

/-!
SUPPORT. Quad mode and rate (09_frontend_lanes.md R174 to R176, 10_trunk_links.md R191, R193, 11_lane_bringup_test.md R221): the
fields that a chain of register writes leaves, and the writes of LQ_MODE and LQ_TRK in a quad at rest.
-/

namespace Sys2Proof.Machine

/-! ### Fields written one after another -/

/-- A field that lies in a register. -/
def Field.Fits (f : Field) : Prop := f.lo ≤ f.hi ∧ f.hi < 32

/-- Two fields that share no bit. -/
def Field.Apart (f g : Field) : Prop := f.reg = g.reg → g.hi < f.lo ∨ f.hi < g.lo

theorem Field.Apart.symm {f g : Field} (h : f.Apart g) : g.Apart f := fun e => (h e.symm).symm

/-- Fields of registers, no two of which share a bit. -/
def Separate (fs : List Field) : Prop := (∀ f ∈ fs, f.Fits) ∧ fs.Pairwise Field.Apart

theorem Separate.tail {f : Field} {fs : List Field} (h : Separate (f :: fs)) : Separate fs :=
  ⟨(List.forall_mem_cons.mp h.1).2, (List.pairwise_cons.mp h.2).2⟩

/-- A state with fields written, the last one listed first. -/
def State.setFields (s : State) : List (Field × Nat) → State
  | [] => s
  | x :: vals => (s.setFields vals).setF x.1 x.2

/-- The registers of `t` are those of `s` with fields written, the last one listed first. -/
def Wrote (vals : List (Field × Nat)) (s t : State) : Prop := t.regs = (s.setFields vals).regs

theorem getF_setF_apart (s : State) {f g : Field} (v : Nat) (hf : f.Fits) (h : f.Apart g) : (s.setF f v).getF g = s.getF g :=
  getF_of_bitsBut (bitsBut_setF (bitsBut_refl [f] s) f v (by simp) hf.1 hf.2) (List.forall_mem_singleton.mpr h)

theorem regs_setF_congr {s t : State} (h : t.regs = s.regs) (f : Field) (v : Nat) : (t.setF f v).regs = (s.setF f v).regs := by
  unfold State.setF State.setReg
  rw [reg_of_regs h, h]

/-- Each field of a separate list reads the value written to it. -/
theorem getF_setFields (s : State) {vals : List (Field × Nat)} (hs : Separate (vals.map Prod.fst)) {f : Field} {v : Nat}
    (hm : (f, v) ∈ vals) : (s.setFields vals).getF f = v % 2 ^ (f.hi + 1 - f.lo) := by
  induction vals with
  | nil => simp at hm
  | cons x vals ih =>
    obtain ⟨hfit, hpair⟩ := hs
    obtain ⟨hx, hfits⟩ := List.forall_mem_cons.mp hfit
    obtain ⟨hapart, hrest⟩ := List.pairwise_cons.mp hpair
    obtain rfl | hin := List.mem_cons.mp hm
    · exact getF_setF_self _ f v hx.1 hx.2
    · exact (getF_setF_apart _ x.2 hx (hapart f (List.mem_map_of_mem hin))).trans (ih ⟨hfits, hrest⟩ hin)

theorem bitsBut_setFields (s : State) {vals : List (Field × Nat)} (hs : Separate (vals.map Prod.fst)) :
    BitsBut (vals.map Prod.fst) s (s.setFields vals) := by
  suffices h : ∀ fs : List Field, (∀ f ∈ vals.map Prod.fst, f ∈ fs) → BitsBut fs s (s.setFields vals) from h _ fun _ => id
  intro fs hsub
  obtain ⟨hfit, -⟩ := hs
  induction vals with
  | nil => exact bitsBut_refl fs s
  | cons x vals ih =>
    obtain ⟨hx, hfits⟩ := List.forall_mem_cons.mp hfit
    obtain ⟨hmem, hrest⟩ := List.forall_mem_cons.mp hsub
    exact bitsBut_setF (ih hrest hfits) x.1 x.2 hmem hx.1 hx.2

namespace Wrote

variable {vals : List (Field × Nat)} {s t u : State}

theorem refl (s : State) : Wrote [] s s := rfl

theorem of_regs (h : Wrote vals s t) (e : u.regs = t.regs) : Wrote vals s u := e.trans h

theorem setF (h : Wrote vals s t) (f : Field) (v : Nat) : Wrote ((f, v) :: vals) s (t.setF f v) := regs_setF_congr h f v

theorem raiseF (h : Wrote vals s t) (f : Field) : Wrote ((f, 1) :: vals) s (t.raiseF f) := (h.setF f 1).of_regs rfl

theorem laneTo (h : Wrote vals s t) (n st : Nat) : Wrote ((Reg.LN_BU_STAT_STATE n, st) :: vals) s (t.laneTo n st) :=
  (h.setF (Reg.LN_BU_STAT_STATE n) st).of_regs rfl

theorem setFe (h : Wrote vals s t) (n : Nat) (l : FeLane) : Wrote vals s (t.setFe n l) := h.of_regs rfl

section
variable (h : Wrote vals s t) (hs : Separate (vals.map Prod.fst))
include h hs

theorem bitsBut : BitsBut (vals.map Prod.fst) s t := bitsBut_of_regs (bitsBut_setFields s hs) h

theorem getF_mod {f : Field} {v : Nat} (hm : (f, v) ∈ vals) : t.getF f = v % 2 ^ (f.hi + 1 - f.lo) :=
  (getF_of_regs h f).trans (getF_setFields s hs hm)

theorem getF {f : Field} {v : Nat} (hm : (f, v) ∈ vals) (hv : v < 2 ^ (f.hi + 1 - f.lo)) : t.getF f = v :=
  (h.getF_mod hs hm).trans (Nat.mod_eq_of_lt hv)

theorem flag {f : Field} {b : Bool} (hm : (f, b.toNat) ∈ vals) : t.flag f = b := by
  obtain ⟨hlo, -⟩ := hs.1 f (List.mem_map_of_mem hm)
  have hv : b.toNat < 2 ^ (f.hi + 1 - f.lo) := (Bool.toNat_lt b).trans_le (Nat.le_self_pow (by omega) 2)
  unfold State.flag
  rw [h.getF hs hm hv]
  cases b <;> rfl

end

/-- A count of a field that nothing else has written. -/
theorem addF (h : Wrote vals s t) {f : Field} (n : Nat) (hs : Separate (f :: vals.map Prod.fst)) {m : Nat}
    (hm : 2 ^ (f.hi + 1 - f.lo) - 1 = m) : Wrote ((f, min (s.getF f + n) m) :: vals) s (t.addF f n) := by
  obtain ⟨hapart, -⟩ := List.pairwise_cons.mp hs.2
  have hf : t.getF f = s.getF f := getF_of_bitsBut (h.bitsBut hs.tail) fun g hg => (hapart g hg).symm
  have hadd : (t.addF f n).regs = (t.setF f (min (t.getF f + n) (2 ^ (f.hi + 1 - f.lo) - 1))).regs := rfl
  rw [hf, hm] at hadd
  exact (h.setF f _).of_regs hadd

end Wrote

theorem getF_wholeReg (s : State) (o : Nat) : s.getF (wholeReg o) = (s.reg o).toNat := by
  unfold State.getF wholeReg
  simp [Nat.mod_eq_of_lt (s.reg o).isLt]


/-- Bits of fields that lie in others are bits of those. -/
theorem bitsBut_cover {fs gs : List Field} {s t : State} (h : BitsBut fs s t)
    (hc : ∀ f ∈ fs, ∃ g ∈ gs, g.reg = f.reg ∧ g.lo ≤ f.lo ∧ f.hi ≤ g.hi) : BitsBut gs s t := by
  intro o i hg
  refine h o i (fun f hf hr => ?_)
  obtain ⟨g, hm, hreg, hlo, hhi⟩ := hc f hf
  have hout := hg g hm (hreg.trans hr)
  omega

/-- Nothing but registers, the record of the slot and the events raised differs. -/
def SameBeside (s t : State) : Prop := { t with regs := s.regs, cyc := s.cyc, raised := s.raised } = s

theorem sameBeside_iff {s t : State} : SameBeside s t ↔ { t with regs := s.regs, cyc := s.cyc, raised := s.raised } = s := Iff.rfl

theorem SameBeside.trans {s t u : State} (h : SameBeside s t) (h2 : SameBeside t u) : SameBeside s u := by
  rw [sameBeside_iff] at h h2 ⊢
  exact (congrArg (fun x : State => { x with regs := s.regs, cyc := s.cyc, raised := s.raised }) h2).trans h

theorem SameBeside.refHz {s t : State} (h : SameBeside s t) : t.refHz = s.refHz := (congrArg State.refHz (sameBeside_iff.mp h) :)

theorem SameBeside.rootM {s t : State} (h : SameBeside s t) : t.rootM = s.rootM := (congrArg State.rootM (sameBeside_iff.mp h) :)

theorem sameBeside_of_onlyBits {fs : List Field} {s t : State} (h : OnlyBits fs s t) : SameBeside s t :=
  sameBeside_iff.mpr (congrArg (fun x : State => { x with raised := s.raised }) h.2)

theorem nbits_lt (x hi lo : Nat) : nbits x hi lo < 2 ^ (hi + 1 - lo) := Nat.mod_lt _ (by positivity)

/-! ### A quad at rest -/

/-- A quad whose lanes have bring-up disabled and are in IDLE. -/
def QuadAtRest (s : State) (q : Nat) : Prop := quadDisabled s q = true ∧ ∀ l, l < 4 → s.laneState (4 * q + l) = 0

section
variable {s t : State} {q : Nat}

/-- Writes of LQ_MODE, LQ_TRK and LQ_PLL_STAT leave a quad at rest. -/
theorem QuadAtRest.of_bitsBut {fs : List Field} (h : QuadAtRest s q) (hb : BitsBut fs s t)
    (hf : ∀ f ∈ fs, f.reg ≤ Reg.LQ_PLL_STAT q) : QuadAtRest t q := by
  have hlane : ∀ {l : Nat} {g : Field}, l < 4 → Reg.LN_BU_CTRL (4 * q + l) ≤ g.reg → t.getF g = s.getF g := fun {l g} hl hg =>
    getF_of_bitsBut hb (fun f hm hr => by
      have hle := hf f hm
      simp only [Reg.LQ_PLL_STAT, Reg.LN_BU_CTRL] at hle hg
      omega)
  obtain ⟨hdis, hidle⟩ := h
  refine ⟨?_, fun l hl => (hlane hl (Nat.le_add_right _ _)).trans (hidle l hl)⟩
  unfold quadDisabled at hdis ⊢
  rw [List.all_eq_true] at hdis ⊢
  intro l hl
  have hen : t.getF (Reg.LN_BU_CTRL_EN (4 * q + l)) = s.getF (Reg.LN_BU_CTRL_EN (4 * q + l)) :=
    hlane (List.mem_range.mp hl) le_rfl
  unfold State.flag
  rw [hen]
  exact hdis l hl

/-- A lane with bring-up disabled stays in IDLE (R217). -/
theorem laneReeval_of_rest {n : Nat} (hen : s.flag (Reg.LN_BU_CTRL_EN n) = false) (h0 : s.laneState n = 0) : laneReeval s n = s := by
  unfold laneReeval
  rw [if_pos (by simp [idleCond, hen]), if_pos h0]

theorem quadReeval_of_rest (h : QuadAtRest s q) : quadReeval s q = s := by
  obtain ⟨hdis, hidle⟩ := h
  have hstay : ∀ l < 4, laneReeval s (4 * q + l) = s := fun l hl =>
    laneReeval_of_rest (by simpa using List.all_eq_true.mp hdis l (List.mem_range.mpr hl)) (hidle l hl)
  unfold quadReeval
  have hfirst : laneReeval s (4 * q) = s := hstay 0 (by omega)
  simp [List.range_succ, hfirst, hstay 1, hstay 2, hstay 3]

end

/-! ### Rate errors and the quad PLL -/

section
variable (s : State) (q : Nat)

theorem feRateBad_congr {s t : State} (h : SameBeside s t) (j : Nat) : feRateBad t j = feRateBad s j := by
  unfold feRateBad
  rw [h.refHz, h.rootM]

theorem tkRateBad_congr {s t : State} (h : SameBeside s t) (x : Nat) (pam4 : Bool) : tkRateBad t x pam4 = tkRateBad s x pam4 := by
  unfold tkRateBad
  rw [h.refHz, h.rootM]

/-- The front-end rate of the quad is in error. -/
def feRateError : Bool := s.getF (Reg.LQ_MODE_MODE q) == 1 && feRateBad s (s.getF (Reg.LQ_MODE_FE_J q))

/-- The trunk rate of the quad is in error. -/
def tkRateError : Bool :=
  s.getF (Reg.LQ_MODE_MODE q) == 2 && tkRateBad s (s.getF (Reg.LQ_TRK_H q)) (s.flag (Reg.LQ_TRK_PAM4 q))

theorem feRateCheck_regs : (feRateCheck s q).regs = (s.putF (Reg.LQ_MODE_RATE_ERR q) (feRateError s q)).regs := by
  unfold feRateCheck
  dsimp only
  split <;> rfl

theorem sameBeside_feRateCheck : SameBeside s (feRateCheck s q) := by
  unfold feRateCheck
  dsimp only
  split <;> rfl

theorem tkRateCheck_regs : (tkRateCheck s q).regs = (s.putF (Reg.LQ_TRK_RATE_ERR q) (tkRateError s q)).regs := by
  unfold tkRateCheck
  dsimp only
  split <;> rfl

theorem sameBeside_tkRateCheck : SameBeside s (tkRateCheck s q) := by
  unfold tkRateCheck
  dsimp only
  split <;> rfl

theorem sameBeside_pllStop : SameBeside s (pllStop s q) := by
  unfold pllStop
  dsimp only
  split <;> rfl

theorem bitsBut_pllStop : BitsBut [Reg.LQ_PLL_STAT_LOCK q] s (pllStop s q) := by
  unfold pllStop
  dsimp only
  split
  · exact bitsBut_refl _ s
  · exact bitsBut_clearF (bitsBut_refl _ s) _ (by simp) (by simp [Reg.LQ_PLL_STAT_LOCK]) (by simp [Reg.LQ_PLL_STAT_LOCK])

variable {s q}

theorem getF_pllStop {g : Field} (hg : g.reg ≠ Reg.LQ_PLL_STAT q) : (pllStop s q).getF g = s.getF g :=
  getF_of_bitsBut (bitsBut_pllStop s q) (List.forall_mem_singleton.mpr fun e => absurd e.symm hg)

theorem flag_pllStop {g : Field} (hg : g.reg ≠ Reg.LQ_PLL_STAT q) : (pllStop s q).flag g = s.flag g := by
  unfold State.flag
  rw [getF_pllStop hg]

/-- The quad PLL loses LOCK where the quad is off or its trunk rate in error. -/
theorem lock_pllStop (h : s.getF (Reg.LQ_MODE_MODE q) = 3 ∨
    s.getF (Reg.LQ_MODE_MODE q) = 2 ∧ s.flag (Reg.LQ_TRK_RATE_ERR q) = true) :
    (pllStop s q).flag (Reg.LQ_PLL_STAT_LOCK q) = false := by
  unfold pllStop
  dsimp only
  rw [if_neg (by obtain h | ⟨h, hr⟩ := h <;> simp [*])]
  exact flag_clearF s _ (by simp [Reg.LQ_PLL_STAT_LOCK]) (by simp [Reg.LQ_PLL_STAT_LOCK])

end

/-! ### A write of LQ_MODE -/

section
variable (s : State) (q : Nat) (v : Word32)

/-- LQ_MODE with its W1C bit acknowledged. -/
def modeAcked : State := s.w1c (Reg.LQ_MODE q) (v &&& 0x80000000#32)

/-- LQ_MODE with MODE and FE_J stored. -/
def modeStored : State :=
  ((modeAcked s q v).setF (Reg.LQ_MODE_MODE q) (nbits v.toNat 1 0)).setF (Reg.LQ_MODE_FE_J q) (nbits v.toNat 15 8)

/-- A write of LQ_MODE with the front-end rate error evaluated. -/
def modeChecked : State := feRateCheck (modeStored s q v) q

/-- A write of LQ_MODE with both rate errors evaluated. -/
def modeRated : State := tkRateCheck (modeChecked s q v) q

/-- The bits of a quad that a write of LQ_MODE may change. -/
def modeFields : List Field := [wholeReg (Reg.LQ_MODE q), Reg.LQ_TRK_RATE_ERR q, Reg.LQ_PLL_STAT_LOCK q]

variable {s q v}

theorem quadModeWrite_of_off (hr : QuadAtRest s q) (hoff : s.getF (Reg.LQ_MODE_MODE q) = 0) (hm : nbits v.toNat 1 0 ≠ 0) :
    quadModeWrite s q v = quadReeval (pllStop (modeRated s q v) q) q := by
  have hmode : lqModeWrite s q v = modeChecked s q v := by
    unfold lqModeWrite
    dsimp only
    rw [if_neg (by simp [hoff, hm]), if_pos hr.1, hoff]
    rfl
  unfold quadModeWrite
  dsimp only
  rw [hmode, if_neg (by simp [hoff])]
  rfl

theorem wrote_modeStored : Wrote [(Reg.LQ_MODE_FE_J q, nbits v.toNat 15 8), (Reg.LQ_MODE_MODE q, nbits v.toNat 1 0)]
    (modeAcked s q v) (modeStored s q v) := rfl

theorem wrote_modeChecked : Wrote [(Reg.LQ_MODE_RATE_ERR q, (feRateError (modeStored s q v) q).toNat),
    (Reg.LQ_MODE_FE_J q, nbits v.toNat 15 8), (Reg.LQ_MODE_MODE q, nbits v.toNat 1 0)]
    (modeAcked s q v) (modeChecked s q v) :=
  (wrote_modeStored.setF _ _).of_regs (feRateCheck_regs (modeStored s q v) q)

/-- What a write of LQ_MODE leaves in MODE, FE_J and the two rate errors. -/
theorem wrote_modeRated : Wrote [(Reg.LQ_TRK_RATE_ERR q, (tkRateError (modeChecked s q v) q).toNat),
    (Reg.LQ_MODE_RATE_ERR q, (feRateError (modeStored s q v) q).toNat), (Reg.LQ_MODE_FE_J q, nbits v.toNat 15 8),
    (Reg.LQ_MODE_MODE q, nbits v.toNat 1 0)] (modeAcked s q v) (modeRated s q v) :=
  (wrote_modeChecked.setF _ _).of_regs (tkRateCheck_regs (modeChecked s q v) q)

theorem separate_modeWritten :
    Separate [Reg.LQ_TRK_RATE_ERR q, Reg.LQ_MODE_RATE_ERR q, Reg.LQ_MODE_FE_J q, Reg.LQ_MODE_MODE q] := by
  simp [Separate, Field.Fits, Field.Apart, Reg.LQ_TRK_RATE_ERR, Reg.LQ_MODE_RATE_ERR, Reg.LQ_MODE_FE_J, Reg.LQ_MODE_MODE,
    Reg.LQ_TRK, Reg.LQ_MODE]

theorem mode_modeStored : (modeStored s q v).getF (Reg.LQ_MODE_MODE q) = nbits v.toNat 1 0 :=
  wrote_modeStored.getF separate_modeWritten.tail.tail (by simp) (nbits_lt _ _ _)

theorem mode_modeChecked : (modeChecked s q v).getF (Reg.LQ_MODE_MODE q) = nbits v.toNat 1 0 :=
  wrote_modeChecked.getF separate_modeWritten.tail (by simp) (nbits_lt _ _ _)

theorem mode_modeRated : (modeRated s q v).getF (Reg.LQ_MODE_MODE q) = nbits v.toNat 1 0 :=
  wrote_modeRated.getF separate_modeWritten (by simp) (nbits_lt _ _ _)

section
variable (hc : (s.hwReg (Reg.LQ_MODE q)).caps = [])
include hc

theorem onlyBits_modeAcked : OnlyBits [wholeReg (Reg.LQ_MODE q)] s (modeAcked s q v) := onlyBits_w1c s _ _ fun _ => hc

theorem sameBeside_modeStored : SameBeside s (modeStored s q v) :=
  (sameBeside_of_onlyBits (onlyBits_modeAcked hc)).trans (show SameBeside (modeAcked s q v) (modeStored s q v) from rfl)

theorem sameBeside_modeChecked : SameBeside s (modeChecked s q v) :=
  (sameBeside_modeStored hc).trans (sameBeside_feRateCheck (modeStored s q v) q)

theorem feRateError_modeStored :
    feRateError (modeStored s q v) q = (nbits v.toNat 1 0 == 1 && feRateBad s (nbits v.toNat 15 8)) := by
  have hj : (modeStored s q v).getF (Reg.LQ_MODE_FE_J q) = nbits v.toNat 15 8 :=
    wrote_modeStored.getF separate_modeWritten.tail.tail (by simp) (nbits_lt _ _ _)
  unfold feRateError
  rw [feRateBad_congr (sameBeside_modeStored hc), mode_modeStored, hj]

theorem bitsBut_modeChecked : BitsBut [wholeReg (Reg.LQ_MODE q)] s (modeChecked s q v) :=
  bitsBut_trans (onlyBits_modeAcked hc).1
    (bitsBut_cover (wrote_modeChecked.bitsBut separate_modeWritten.tail)
      (by simp [wholeReg, Reg.LQ_MODE_RATE_ERR, Reg.LQ_MODE_FE_J, Reg.LQ_MODE_MODE]))

theorem tkRateError_modeChecked : tkRateError (modeChecked s q v) q =
    (nbits v.toNat 1 0 == 2 && tkRateBad s (s.getF (Reg.LQ_TRK_H q)) (s.flag (Reg.LQ_TRK_PAM4 q))) := by
  have hb := bitsBut_modeChecked (v := v) hc
  have hh : (modeChecked s q v).getF (Reg.LQ_TRK_H q) = s.getF (Reg.LQ_TRK_H q) :=
    getF_of_bitsBut hb (by simp [wholeReg, Reg.LQ_MODE, Reg.LQ_TRK_H, Reg.LQ_TRK])
  have hp : (modeChecked s q v).flag (Reg.LQ_TRK_PAM4 q) = s.flag (Reg.LQ_TRK_PAM4 q) :=
    flag_of_bitsBut hb (by simp [wholeReg, Reg.LQ_MODE, Reg.LQ_TRK_PAM4, Reg.LQ_TRK])
  unfold tkRateError
  rw [tkRateBad_congr (sameBeside_modeChecked hc), mode_modeChecked, hh, hp]

theorem bitsBut_modeWritten : BitsBut (modeFields q) s (pllStop (modeRated s q v) q) := by
  have hrated : BitsBut (modeFields q) (modeChecked s q v) (modeRated s q v) :=
    bitsBut_of_regs (bitsBut_putF (bitsBut_refl _ _) _ _ (by simp [modeFields]) (by simp [Reg.LQ_TRK_RATE_ERR])
      (by simp [Reg.LQ_TRK_RATE_ERR])) (tkRateCheck_regs (modeChecked s q v) q)
  exact bitsBut_trans (bitsBut_mono (bitsBut_modeChecked hc) (by simp [modeFields]))
    (bitsBut_trans hrated (bitsBut_mono (bitsBut_pllStop _ q) (by simp [modeFields])))

theorem sameBeside_modeWritten : SameBeside s (pllStop (modeRated s q v) q) :=
  ((sameBeside_modeChecked hc).trans (sameBeside_tkRateCheck (modeChecked s q v) q)).trans (sameBeside_pllStop (modeRated s q v) q)

end

end

/-! ### A write of LQ_TRK -/

section
variable (s : State) (q : Nat) (v : Word32)

/-- LQ_TRK with H and PAM4 stored. -/
def trkStored : State := (s.setF (Reg.LQ_TRK_H q) (nbits v.toNat 7 0)).putF (Reg.LQ_TRK_PAM4 q) (v.getLsbD 8)

/-- A write of LQ_TRK with the trunk rate error evaluated. -/
def trkRated : State := tkRateCheck (trkStored s q v) q

/-- The bits of a quad that a write of LQ_TRK may change. -/
def trkFields : List Field := [Reg.LQ_TRK_H q, Reg.LQ_TRK_PAM4 q, Reg.LQ_TRK_RATE_ERR q, Reg.LQ_PLL_STAT_LOCK q]

theorem wrote_trkStored : Wrote [(Reg.LQ_TRK_PAM4 q, (v.getLsbD 8).toNat), (Reg.LQ_TRK_H q, nbits v.toNat 7 0)]
    s (trkStored s q v) := rfl

/-- What a write of LQ_TRK leaves in H, PAM4 and RATE_ERR. -/
theorem wrote_trkRated : Wrote [(Reg.LQ_TRK_RATE_ERR q, (tkRateError (trkStored s q v) q).toNat),
    (Reg.LQ_TRK_PAM4 q, (v.getLsbD 8).toNat), (Reg.LQ_TRK_H q, nbits v.toNat 7 0)] s (trkRated s q v) :=
  ((wrote_trkStored s q v).setF _ _).of_regs (tkRateCheck_regs (trkStored s q v) q)

theorem separate_trkWritten : Separate [Reg.LQ_TRK_RATE_ERR q, Reg.LQ_TRK_PAM4 q, Reg.LQ_TRK_H q] := by
  simp [Separate, Field.Fits, Field.Apart, Reg.LQ_TRK_RATE_ERR, Reg.LQ_TRK_PAM4, Reg.LQ_TRK_H]

theorem tkRateError_trkStored (hm : s.getF (Reg.LQ_MODE_MODE q) = 2) :
    tkRateError (trkStored s q v) q = tkRateBad s (nbits v.toNat 7 0) (v.getLsbD 8) := by
  have hw := wrote_trkStored s q v
  have hsep := (separate_trkWritten q).tail
  have hmode : (trkStored s q v).getF (Reg.LQ_MODE_MODE q) = s.getF (Reg.LQ_MODE_MODE q) :=
    getF_of_bitsBut (hw.bitsBut hsep) (by simp [Reg.LQ_TRK_PAM4, Reg.LQ_TRK_H, Reg.LQ_MODE_MODE, Reg.LQ_TRK, Reg.LQ_MODE])
  have hh : (trkStored s q v).getF (Reg.LQ_TRK_H q) = nbits v.toNat 7 0 := hw.getF hsep (by simp) (nbits_lt _ _ _)
  have hp : (trkStored s q v).flag (Reg.LQ_TRK_PAM4 q) = v.getLsbD 8 := hw.flag hsep (by simp)
  unfold tkRateError
  rw [hmode, hh, hp, hm]
  rfl

theorem bitsBut_trkWritten : BitsBut (trkFields q) s (pllStop (trkRated s q v) q) :=
  bitsBut_trans (bitsBut_mono ((wrote_trkRated s q v).bitsBut (separate_trkWritten q)) (by simp [trkFields]))
    (bitsBut_mono (bitsBut_pllStop _ q) (by simp [trkFields]))

theorem sameBeside_trkWritten : SameBeside s (pllStop (trkRated s q v) q) :=
  (show SameBeside s (trkStored s q v) from rfl).trans
    ((sameBeside_tkRateCheck (trkStored s q v) q).trans (sameBeside_pllStop (trkRated s q v) q))

variable {s q v}

theorem quadTrkWrite_of_change (hr : QuadAtRest s q) (hh : nbits v.toNat 7 0 ≠ s.getF (Reg.LQ_TRK_H q)) :
    quadTrkWrite s q v = quadReeval (pllStop (trkRated s q v) q) q := by
  have htrk : lqTrkWrite s q v = trkRated s q v := by
    unfold lqTrkWrite
    dsimp only
    rw [if_neg (by simp [hh]), if_pos hr.1]
    rfl
  unfold quadTrkWrite
  rw [htrk]

end

/-! ### The obligation of quad modes and rates -/

section
variable {s : State} {q : Fin 36} {v : Word32} (ha : s.alive = true) (hr : QuadAtRest s q)
include ha hr

theorem exec_quadModeWrite_of_off (hc : (s.hwReg (Reg.LQ_MODE q)).caps = []) (hoff : s.getF (Reg.LQ_MODE_MODE q) = 0)
    (hm : nbits v.toNat 1 0 ≠ 0) : exec (.quadModeWrite q v) s = .next (pllStop (modeRated s q v) q) := by
  have hrest : QuadAtRest (pllStop (modeRated s q v) q) q := hr.of_bitsBut (bitsBut_modeWritten hc)
    (by simp [modeFields, wholeReg, Reg.LQ_MODE, Reg.LQ_TRK_RATE_ERR, Reg.LQ_TRK, Reg.LQ_PLL_STAT_LOCK, Reg.LQ_PLL_STAT])
  rw [exec_quadModeWrite]
  unfold execQuadModeWrite
  rw [if_pos ha, quadModeWrite_of_off hr hoff hm, quadReeval_of_rest hrest]

theorem exec_trunkRateWrite_of_change (hh : nbits v.toNat 7 0 ≠ s.getF (Reg.LQ_TRK_H q)) :
    exec (.trunkRateWrite q v) s = .next (pllStop (trkRated s q v) q) := by
  have hrest : QuadAtRest (pllStop (trkRated s q v) q) q := hr.of_bitsBut (bitsBut_trkWritten s q v)
    (by simp [trkFields, Reg.LQ_TRK_H, Reg.LQ_TRK_PAM4, Reg.LQ_TRK_RATE_ERR, Reg.LQ_TRK, Reg.LQ_PLL_STAT_LOCK, Reg.LQ_PLL_STAT])
  rw [exec_trunkRateWrite]
  unfold execTrunkRateWrite
  rw [if_pos ha, quadTrkWrite_of_change hr hh, quadReeval_of_rest hrest]

end

/-- Settles O20: a write of LQ_MODE and one of LQ_TRK by the fields that they write, and by whether the quad PLL then stops. -/
theorem quadModeAndRate : Obligations.QuadModeAndRate := by
  unfold Obligations.QuadModeAndRate
  intro s q v mode j h ha hdis hidle hc
  have hr : QuadAtRest s q := ⟨hdis, hidle⟩
  refine ⟨fun hoff hm => ?_, fun hh hm => ?_⟩
  · have hw := wrote_modeRated (s := s) (q := q) (v := v)
    have hsep := separate_modeWritten (q := q)
    rw [feRateError_modeStored hc, tkRateError_modeChecked hc] at hw
    refine ⟨_, exec_quadModeWrite_of_off ha hr hc hoff hm, ?_, ?_, ?_, ?_, fun h3 => lock_pllStop (.inl ?_),
      bitsBut_modeWritten hc, sameBeside_modeWritten hc⟩
    · rw [getF_pllStop (by simp [Reg.LQ_MODE_MODE, Reg.LQ_PLL_STAT, Reg.LQ_MODE]), mode_modeRated]
    · rw [getF_pllStop (by simp [Reg.LQ_MODE_FE_J, Reg.LQ_PLL_STAT, Reg.LQ_MODE])]
      exact hw.getF hsep (by simp [j]) (nbits_lt _ _ _)
    · rw [flag_pllStop (by simp [Reg.LQ_MODE_RATE_ERR, Reg.LQ_PLL_STAT, Reg.LQ_MODE])]
      exact hw.flag hsep (by simp [mode, j])
    · rw [flag_pllStop (by simp [Reg.LQ_TRK_RATE_ERR, Reg.LQ_PLL_STAT, Reg.LQ_TRK])]
      exact hw.flag hsep (by simp [mode])
    · rw [mode_modeRated, ← h3]
  · have hw := wrote_trkRated s q v
    have hsep := separate_trkWritten q
    rw [tkRateError_trkStored s q v hm] at hw
    have herr : (trkRated s q v).flag (Reg.LQ_TRK_RATE_ERR q) = tkRateBad s h (v.getLsbD 8) :=
      hw.flag hsep (by simp [h])
    refine ⟨_, exec_trunkRateWrite_of_change ha hr hh, ?_, ?_, ?_, fun hbad => lock_pllStop (.inr ⟨?_, herr.trans hbad⟩),
      bitsBut_trkWritten s q v, sameBeside_trkWritten s q v⟩
    · rw [getF_pllStop (by simp [Reg.LQ_TRK_H, Reg.LQ_PLL_STAT, Reg.LQ_TRK])]
      exact hw.getF hsep (by simp [h]) (nbits_lt _ _ _)
    · rw [flag_pllStop (by simp [Reg.LQ_TRK_PAM4, Reg.LQ_PLL_STAT, Reg.LQ_TRK])]
      exact hw.flag hsep (by simp)
    · rw [flag_pllStop (by simp [Reg.LQ_TRK_RATE_ERR, Reg.LQ_PLL_STAT, Reg.LQ_TRK])]
      exact herr
    · rw [getF_of_bitsBut (hw.bitsBut hsep) (by
        simp [Reg.LQ_TRK_RATE_ERR, Reg.LQ_TRK_PAM4, Reg.LQ_TRK_H, Reg.LQ_MODE_MODE, Reg.LQ_TRK, Reg.LQ_MODE]), hm]

end Sys2Proof.Machine

/-!
SUPPORT. Front-end lanes (09_frontend_lanes.md R181 to R189, 11_lane_bringup_test.md R230): what alignment, its loss, a write of
LN_FE_CTRL, a received word and a sent one do to a lane.
-/

namespace Sys2Proof.Machine

/-! ### The state of a lane -/

@[simp] theorem feLane_setFe_self (s : State) (n : Nat) (l : FeLane) : (s.setFe n l).feLane n = l := tget_tset_self _ _ _ _

/-- A lane without a timeout of the present slot stands as it is (R219). -/
theorem untimed_of_none {s : State} {n : Nat} (h : tget (fun _ => none) s.cyc.timed n = none) : s.untimed n = s := by
  unfold State.untimed
  rw [h]

section
variable {vals : List (Field × Nat)} {s t : State}

/-- A write of a register is one of all its bits as one field. -/
theorem setF_wholeReg (t : State) (o : Nat) (w : Word32) : t.setF (wholeReg o) w.toNat = t.setReg o w := by
  have hput : putBits (t.reg o) 31 0 w.toNat = w := by
    apply BitVec.eq_of_toNat_eq
    rw [putBits_toNat _ _ _ _ (by omega) (by omega)]
    have := (t.reg o).isLt
    have := w.isLt
    omega
  unfold State.setF wholeReg
  rw [hput]

theorem Wrote.setReg (h : Wrote vals s t) (o : Nat) (w : Word32) : Wrote ((wholeReg o, w.toNat) :: vals) s (t.setReg o w) :=
  (h.setF (wholeReg o) w.toNat).of_regs (by rw [setF_wholeReg])

end

/-! ### The loss of alignment -/

section
variable (s : State) (n : Nat)

/-- What a loss of alignment writes (R183), the last field first. -/
def alignLossWrites : List (Field × Nat) :=
  [(Reg.LN_FE_CNT_RELOCK_CNT n, min (s.getF (Reg.LN_FE_CNT_RELOCK_CNT n) + 1) 65535), (Reg.LN_FE_STAT_LOCK_LOSS n, 1),
   (Reg.LN_BU_STAT_STATE n, 4), (Reg.LN_FE_STAT_SLIP n, 0), (Reg.LN_FE_STAT_ALIGNED n, 0)]

/-- The fields that a loss of alignment writes. -/
def alignLossFields : List Field :=
  [Reg.LN_FE_CNT_RELOCK_CNT n, Reg.LN_FE_STAT_LOCK_LOSS n, Reg.LN_BU_STAT_STATE n, Reg.LN_FE_STAT_SLIP n, Reg.LN_FE_STAT_ALIGNED n]

/-- `t` is what a lane of `s` is after its alignment has ended: back in SYMLOCK, with LOCK_LOSS, its count and event n (R183). -/
def AlignmentLost (t : State) : Prop :=
  t.flag (Reg.LN_FE_STAT_ALIGNED n) = false ∧ t.getF (Reg.LN_FE_STAT_SLIP n) = 0 ∧ t.flag (Reg.LN_FE_STAT_LOCK_LOSS n) = true ∧
  t.laneState n = 4 ∧ t.raised = (s.raiseEv n).raised ∧
  t.getF (Reg.LN_FE_CNT_RELOCK_CNT n) = min (s.getF (Reg.LN_FE_CNT_RELOCK_CNT n) + 1) 65535

theorem separate_alignLossFields : Separate (alignLossFields n) := by
  simp [alignLossFields, Separate, Field.Fits, Field.Apart, Reg.LN_FE_CNT_RELOCK_CNT, Reg.LN_FE_STAT_LOCK_LOSS, Reg.LN_BU_STAT_STATE,
    Reg.LN_FE_STAT_SLIP, Reg.LN_FE_STAT_ALIGNED, Reg.LN_FE_CNT, Reg.LN_FE_STAT, Reg.LN_BU_STAT]

/-- A loss of alignment writes its fields, with the count as it stood. -/
theorem wrote_feLose : Wrote (alignLossWrites s n) s (feLose s n) := by
  have hsym : Wrote (alignLossWrites s n).tail s ((feSymlock s n).raiseF (Reg.LN_FE_STAT_LOCK_LOSS n)) :=
    (((((Wrote.refl s).setFe n ((s.feLane n).left s.beatSlot)).setF (Reg.LN_FE_STAT_ALIGNED n) 0).setF (Reg.LN_FE_STAT_SLIP n) 0).laneTo
      n 4).raiseF (Reg.LN_FE_STAT_LOCK_LOSS n)
  exact (hsym.addF 1 (separate_alignLossFields n) (by simp [Reg.LN_FE_CNT_RELOCK_CNT])).of_regs rfl

theorem raised_feLose : (feLose s n).raised = (s.raiseEv n).raised := by
  simp [feLose, feSymlock, State.setFe, raiseEv_raised, State.logs]

theorem feLose_frame : { feLose s n with regs := s.regs, cyc := s.cyc, raised := s.raised, fe := s.fe } = s := by
  simp [feLose, feSymlock, State.setFe]

end

section
variable {s u : State} {n : Nat} {vals : List (Field × Nat)} (h : Wrote vals s u) (hs : Separate (vals.map Prod.fst))
include h hs

theorem bitsBut_feLose : BitsBut (alignLossFields n ++ vals.map Prod.fst) s (feLose u n) :=
  bitsBut_trans (bitsBut_mono (h.bitsBut hs) fun _ => List.mem_append_right _)
    (bitsBut_mono ((wrote_feLose u n).bitsBut (separate_alignLossFields n)) fun _ => List.mem_append_left _)

variable (hapart : ∀ f ∈ alignLossFields n, ∀ g ∈ vals.map Prod.fst, f.Apart g)
include hapart

/-- A loss of alignment after other writes leaves what they wrote. -/
theorem getF_feLose {f : Field} {v : Nat} (hm : (f, v) ∈ vals) (hv : v < 2 ^ (f.hi + 1 - f.lo)) : (feLose u n).getF f = v :=
  (getF_of_bitsBut ((wrote_feLose u n).bitsBut (separate_alignLossFields n))
    (fun g hg => hapart g hg f (List.mem_map_of_mem hm))).trans (h.getF hs hm hv)

theorem alignmentLost_feLose (hr : (u.raiseEv n).raised = (s.raiseEv n).raised) : AlignmentLost s n (feLose u n) := by
  have hw := wrote_feLose u n
  have hsep : Separate ((alignLossWrites u n).map Prod.fst) := separate_alignLossFields n
  have hcnt : u.getF (Reg.LN_FE_CNT_RELOCK_CNT n) = s.getF (Reg.LN_FE_CNT_RELOCK_CNT n) :=
    getF_of_bitsBut (h.bitsBut hs) fun f hf => (hapart _ (by simp [alignLossFields]) f hf).symm
  refine ⟨hw.flag hsep (b := false) (by simp [alignLossWrites]), hw.getF hsep (by simp [alignLossWrites]) (by positivity),
    hw.flag hsep (b := true) (by simp [alignLossWrites]), hw.getF hsep (by simp [alignLossWrites]) (by simp [Reg.LN_BU_STAT_STATE]),
    (raised_feLose u n).trans hr, ?_⟩
  rw [← hcnt]
  exact hw.getF hsep (by simp [alignLossWrites]) (by simp [Reg.LN_FE_CNT_RELOCK_CNT])

end

/-- A loss of alignment after other changes to the registers, the record of the slot, the events and the lanes is no more than one. -/
theorem feLose_frame_of {s u : State} {n : Nat} (h : { u with regs := s.regs, cyc := s.cyc, raised := s.raised, fe := s.fe } = s) :
    { feLose u n with regs := s.regs, cyc := s.cyc, raised := s.raised, fe := s.fe } = s :=
  (congrArg (fun x : State => { x with regs := s.regs, cyc := s.cyc, raised := s.raised, fe := s.fe }) (feLose_frame u n)).trans h

/-! ### The comma search -/

section
variable (s : State) (n : Nat) (c : CommaSearch)

/-- The search of a lane carried on: SLIP follows it (R181). -/
def searched : State := (s.setFe n { s.feLane n with srch := c }).setF (Reg.LN_FE_STAT_SLIP n) (c.slip % 80)

/-- A search that ended without the margin of a forced placement is repeated, with ALIGN_FAIL and event n (R182). -/
def alignFailed : State :=
  (((searched s n c).setFe n { s.feLane n with srch := { CommaSearch.reset with slip := c.slip } }).raiseF
    (Reg.LN_FE_STAT_ALIGN_FAIL n)).raiseEv n

/-- The lane aligned after a search, with the wait, capture edge and completion of its placement. -/
def aligned (w cap done : Nat) (rd : Bool) : State := feAlign (searched s n c) n w cap done c rd

end

section
variable {s : State} {n : Fin 144} (hm : s.laneMode n = 1) (hst : s.laneState n = 4)
  (ht : tget (fun _ => none) s.cyc.timed n.val = none) {line : List Bool} {phase : Nat} {rd : Bool}
include hm hst ht

theorem exec_feAlignment_of_placed (hd : (feSearch s n (feReturned s n line)).done = some rd)
    (hp : (placeWord 30 (s.getF (Reg.LN_FE_CTRL_PLACE n)) (1024 * s.time.slots + phase)).2.2 = true) :
    exec (.feAlignment n line phase () ()) s = .next (aligned s n (feSearch s n (feReturned s n line))
      (placeWord 30 (s.getF (Reg.LN_FE_CTRL_PLACE n)) (1024 * s.time.slots + phase)).1
      (placeWord 30 (s.getF (Reg.LN_FE_CTRL_PLACE n)) (1024 * s.time.slots + phase)).2.1 (1024 * s.time.slots + phase) rd) := by
  rw [exec_feAlignment]
  unfold execFeAlignment
  dsimp only
  rw [untimed_of_none ht, if_pos (by simp [hm, hst]), if_pos hp, hd]
  rfl

theorem exec_feAlignment_of_misplaced (hd : (feSearch s n (feReturned s n line)).done = some rd)
    (hp : (placeWord 30 (s.getF (Reg.LN_FE_CTRL_PLACE n)) (1024 * s.time.slots + phase)).2.2 = false) :
    exec (.feAlignment n line phase () ()) s = .next (alignFailed s n (feSearch s n (feReturned s n line))) := by
  rw [exec_feAlignment]
  unfold execFeAlignment
  dsimp only
  rw [untimed_of_none ht, if_pos (by simp [hm, hst]), if_neg (Bool.eq_false_iff.mp hp), hd]
  exact okIf_of_true _ _ (by simp [hst])

theorem exec_feAlignment_of_unfinished (hd : (feSearch s n (feReturned s n line)).done = none) :
    exec (.feAlignment n line phase () ()) s = .next (searched s n (feSearch s n (feReturned s n line))) := by
  rw [exec_feAlignment]
  unfold execFeAlignment
  dsimp only
  rw [untimed_of_none ht, if_pos (by simp [hm, hst]), hd, ite_self]
  exact okIf_of_true _ _ (by simp [hst])

end

section
variable (s : State) (n w cap done : Nat) (c : CommaSearch) (rd : Bool)

/-- What an alignment writes (R181, R182, R218), the last field first. -/
def alignWrites : List (Field × Nat) :=
  [(Reg.LN_BU_CNT_ACT_CNT n, min (s.getF (Reg.LN_BU_CNT_ACT_CNT n) + 1) 65535), (Reg.LN_BU_STAT_STATE n, 6),
   (Reg.LN_FE_STAT_WAIT n, w), (Reg.LN_FE_STAT_ALIGNED n, 1), (Reg.LN_FE_STAT_SLIP n, c.slip % 80)]

theorem separate_alignWrites : Separate ((alignWrites s n w c).map Prod.fst) := by
  simp [alignWrites, Separate, Field.Fits, Field.Apart, Reg.LN_BU_CNT_ACT_CNT, Reg.LN_BU_STAT_STATE, Reg.LN_FE_STAT_WAIT,
    Reg.LN_FE_STAT_ALIGNED, Reg.LN_FE_STAT_SLIP, Reg.LN_BU_CNT, Reg.LN_BU_STAT, Reg.LN_FE_STAT]

theorem wrote_searched : Wrote [(Reg.LN_FE_STAT_SLIP n, c.slip % 80)] s (searched s n c) :=
  ((Wrote.refl s).setFe n { s.feLane n with srch := c }).setF _ _

theorem wrote_aligned : Wrote (alignWrites s n w c) s (aligned s n c w cap done rd) := by
  have hactive : Wrote (alignWrites s n w c).tail s
      ((((searched s n c).raiseF (Reg.LN_FE_STAT_ALIGNED n)).setF (Reg.LN_FE_STAT_WAIT n) w).laneTo n 6) :=
    (((wrote_searched s n c).raiseF (Reg.LN_FE_STAT_ALIGNED n)).setF (Reg.LN_FE_STAT_WAIT n) w).laneTo n 6
  exact (hactive.addF 1 (separate_alignWrites s n w c) (by simp [Reg.LN_BU_CNT_ACT_CNT])).of_regs rfl

theorem raised_aligned : (aligned s n c w cap done rd).raised = (s.raiseEv n).raised := by
  simp [aligned, feAlign, searched, State.setFe, raiseEv_raised, State.logs]

theorem rxRd_aligned : ((aligned s n c w cap done rd).feLane n).rxRd = rd := congrArg FeLane.rxRd (feLane_setFe_self _ n _)

theorem first_aligned : ((aligned s n c w cap done rd).feLane n).buf.first = cap + 30 + w :=
  congrArg (fun l : FeLane => l.buf.first) (feLane_setFe_self _ n _)

theorem aligned_frame : { aligned s n c w cap done rd with regs := s.regs, cyc := s.cyc, raised := s.raised, fe := s.fe } = s := by
  simp [aligned, feAlign, searched, State.setFe]

theorem alignFailed_reads : (alignFailed s n c).flag (Reg.LN_FE_STAT_ALIGN_FAIL n) = true ∧
    (alignFailed s n c).raised = (s.raiseEv n).raised ∧
    BitsBut [Reg.LN_FE_STAT_SLIP n, Reg.LN_FE_STAT_ALIGN_FAIL n] s (alignFailed s n c) ∧
    { alignFailed s n c with regs := s.regs, cyc := s.cyc, raised := s.raised, fe := s.fe } = s := by
  have hw : Wrote [(Reg.LN_FE_STAT_ALIGN_FAIL n, 1), (Reg.LN_FE_STAT_SLIP n, c.slip % 80)] s (alignFailed s n c) :=
    (((wrote_searched s n c).setFe n _).raiseF (Reg.LN_FE_STAT_ALIGN_FAIL n)).of_regs rfl
  have hsep : Separate [Reg.LN_FE_STAT_ALIGN_FAIL n, Reg.LN_FE_STAT_SLIP n] := by
    simp [Separate, Field.Fits, Field.Apart, Reg.LN_FE_STAT_ALIGN_FAIL, Reg.LN_FE_STAT_SLIP]
  refine ⟨hw.flag hsep (b := true) (by simp), ?_, bitsBut_mono (hw.bitsBut hsep) (by simp), ?_⟩
  · simp [alignFailed, searched, State.setFe, raiseEv_raised, State.logs]
  · simp [alignFailed, searched, State.setFe]

end

/-! ### Drift and polarity -/

section
variable {s : State} {n : Fin 144}

theorem feLocked_iff {m : Nat} : feLocked s m = true ↔
    s.laneMode m = 1 ∧ s.laneState m = 6 ∧ s.flag (Reg.LN_FE_STAT_ALIGNED m) = true := by
  simp [feLocked, and_assoc]

/-- A lane whose phase has drifted beyond its margin. -/
def driftedAway (s : State) (n : Nat) : State := feLose (s.raiseF (Reg.LN_FE_STAT_PHASE_ERR n)) n

theorem exec_feAlignmentLoss_of_drift {drift : Int} (hl : feLocked s n = true) (hd : driftLost (s.feLane n) drift = true) :
    exec (.feAlignmentLoss n drift) s = .next (driftedAway s n) :=
  (exec_feAlignmentLoss s n drift).trans (okIf_of_true _ _ (by rw [hl, hd]; rfl))

theorem driftedAway_reads (s : State) (n : Nat) : AlignmentLost s n (driftedAway s n) ∧
    (driftedAway s n).flag (Reg.LN_FE_STAT_PHASE_ERR n) = true ∧
    BitsBut (alignLossFields n ++ [Reg.LN_FE_STAT_PHASE_ERR n]) s (driftedAway s n) ∧
    { driftedAway s n with regs := s.regs, cyc := s.cyc, raised := s.raised, fe := s.fe } = s := by
  have hw : Wrote [(Reg.LN_FE_STAT_PHASE_ERR n, 1)] s (s.raiseF (Reg.LN_FE_STAT_PHASE_ERR n)) := (Wrote.refl s).raiseF _
  have hsep : Separate [Reg.LN_FE_STAT_PHASE_ERR n] := by simp [Separate, Field.Fits, Reg.LN_FE_STAT_PHASE_ERR]
  have hapart : ∀ f ∈ alignLossFields n, ∀ g ∈ [Reg.LN_FE_STAT_PHASE_ERR n], f.Apart g := by
    simp [alignLossFields, Field.Apart, Reg.LN_FE_STAT_PHASE_ERR, Reg.LN_FE_CNT_RELOCK_CNT, Reg.LN_FE_STAT_LOCK_LOSS,
      Reg.LN_BU_STAT_STATE, Reg.LN_FE_STAT_SLIP, Reg.LN_FE_STAT_ALIGNED, Reg.LN_FE_CNT, Reg.LN_FE_STAT, Reg.LN_BU_STAT]
  have herr : (driftedAway s n).getF (Reg.LN_FE_STAT_PHASE_ERR n) = 1 :=
    getF_feLose hw hsep hapart (by simp) (by simp [Reg.LN_FE_STAT_PHASE_ERR])
  refine ⟨alignmentLost_feLose hw hsep hapart (raiseEv_raised_congr n rfl (raiseF_evs s _) rfl rfl), ?_, bitsBut_feLose hw hsep,
    feLose_frame_of rfl⟩
  unfold State.flag
  rw [herr]
  rfl

/-- LN_FE_CTRL with its defined fields written. -/
def ctrlStored (s : State) (n : Nat) (v : Word32) : State := s.setReg (Reg.LN_FE_CTRL n) (v &&& 0x0003FFF7#32)

theorem exec_polarityWrite_of_alive (ha : s.alive = true) (v : Word32) :
    exec (.polarityWrite n v) s = .next (feCtrlWrite s n v) := (exec_polarityWrite s n v).trans (okIf_of_true _ _ ha)

theorem feCtrlWrite_of_other {n : Nat} (v : Word32) (hm : s.laneMode n ≠ 1) : feCtrlWrite s n v = s := if_neg hm

theorem feCtrlWrite_of_kept {n : Nat} {v : Word32} (hm : s.laneMode n = 1)
    (h : v.getLsbD 16 = s.flag (Reg.LN_FE_CTRL_POL_RX n) ∨ feLocked s n = false) : feCtrlWrite s n v = ctrlStored s n v := by
  unfold feCtrlWrite
  dsimp only
  rw [if_pos hm, if_neg (by obtain h | h := h <;> rw [h] <;> simp)]
  rfl

theorem feCtrlWrite_of_turned {n : Nat} {v : Word32} (hv : v.getLsbD 16 ≠ s.flag (Reg.LN_FE_CTRL_POL_RX n))
    (hl : feLocked s n = true) : feCtrlWrite s n v = feLose (ctrlStored s n v) n := by
  unfold feCtrlWrite
  dsimp only
  rw [if_pos (feLocked_iff.mp hl).1, if_pos (by rw [hl, Bool.and_true]; exact bne_iff_ne.mpr hv)]
  rfl

theorem turned_reads (s : State) (n : Nat) (v : Word32) :
    (feLose (ctrlStored s n v) n).reg (Reg.LN_FE_CTRL n) = v &&& 0x0003FFF7#32 ∧
    AlignmentLost s n (feLose (ctrlStored s n v) n) ∧
    BitsBut (alignLossFields n ++ [wholeReg (Reg.LN_FE_CTRL n)]) s (feLose (ctrlStored s n v) n) ∧
    { feLose (ctrlStored s n v) n with regs := s.regs, cyc := s.cyc, raised := s.raised, fe := s.fe } = s := by
  have hw : Wrote [(wholeReg (Reg.LN_FE_CTRL n), (v &&& 0x0003FFF7#32).toNat)] s (ctrlStored s n v) := (Wrote.refl s).setReg _ _
  have hsep : Separate [wholeReg (Reg.LN_FE_CTRL n)] := by simp [Separate, Field.Fits, wholeReg]
  have hapart : ∀ f ∈ alignLossFields n, ∀ g ∈ [wholeReg (Reg.LN_FE_CTRL n)], f.Apart g := by
    simp [alignLossFields, Field.Apart, wholeReg, Reg.LN_FE_CNT_RELOCK_CNT, Reg.LN_FE_STAT_LOCK_LOSS, Reg.LN_BU_STAT_STATE,
      Reg.LN_FE_STAT_SLIP, Reg.LN_FE_STAT_ALIGNED, Reg.LN_FE_CNT, Reg.LN_FE_STAT, Reg.LN_BU_STAT, Reg.LN_FE_CTRL]
  exact ⟨BitVec.eq_of_toNat_eq ((getF_wholeReg _ _).symm.trans (getF_feLose hw hsep hapart (by simp) (BitVec.isLt _))),
    alignmentLost_feLose hw hsep hapart (raiseEv_raised_congr n rfl rfl rfl rfl), bitsBut_feLose hw hsep,
    feLose_frame_of rfl⟩

end

/-! ### A word received -/

section
variable (s : State) (n : Nat) (w : BitVec 80)

/-- The bits that the receiver of a lane recovers: those on the line, or those that a loopback returns (R231). -/
def recovered : BitVec 80 := BitVec.ofNat 80 (loopedBack s n (s.feLane n).txWord.toNat w.toNat)

/-- The word that the decoder of a lane takes, in its polarity (R189). -/
def decoderWord : Nat := polarised (s.flag (Reg.LN_FE_CTRL_POL_RX n)) (recovered s n w)

/-- The lane keeps the bits recovered last. -/
def rawKept : State := s.setTest n { s.test n with raw := (recovered s n w).toNat }

/-- The phase buffer in force in the present slot. -/
def lanePhaseBuf : PhaseBuf := (s.feLane n).buf.at s.time.slots (s.getF (Reg.LN_FE_STAT_WAIT n))

/-- The lane with word `i` from word 0 put into its phase buffer. -/
def bufferPut (i : Nat) (cs : List RxChar) (l : FeLane) : FeLane :=
  { l with buf := lanePhaseBuf s n, gotAt := some s.time.slots,
           words := (s.feLane n).words ++ [((lanePhaseBuf s n).shows s.rootM (s.getF (Reg.LQ_MODE_FE_J (n / 4))) i, cs)] }

/-- The errors of a scan counted (R179). -/
def scanCounted (r : RxScan) : State :=
  (s.addF (Reg.LN_FE_ERR_CV_CNT n) (r.cs.filter (fun c => c.cv)).length).addF (Reg.LN_FE_ERR_RD_CNT n)
    (r.cs.filter (fun c => c.rdErr)).length

/-- What counting a scan writes, the last field first. -/
def countWrites (r : RxScan) : List (Field × Nat) :=
  [(Reg.LN_FE_ERR_RD_CNT n, min (s.getF (Reg.LN_FE_ERR_RD_CNT n) + (r.cs.filter (fun c => c.rdErr)).length) 65535),
   (Reg.LN_FE_ERR_CV_CNT n, min (s.getF (Reg.LN_FE_ERR_CV_CNT n) + (r.cs.filter (fun c => c.cv)).length) 65535)]

theorem separate_errFields : Separate [Reg.LN_FE_ERR_RD_CNT n, Reg.LN_FE_ERR_CV_CNT n] := by
  simp [Separate, Field.Fits, Field.Apart, Reg.LN_FE_ERR_RD_CNT, Reg.LN_FE_ERR_CV_CNT]

theorem wrote_scanCounted (r : RxScan) : Wrote (countWrites s n r) s (scanCounted s n r) :=
  ((Wrote.refl s).addF _ (separate_errFields n).tail (by simp [Reg.LN_FE_ERR_CV_CNT])).addF _ (separate_errFields n)
    (by simp [Reg.LN_FE_ERR_RD_CNT])

theorem feTake_of_lost {x : Nat} {put : List RxChar → FeLane → FeLane} (h : (feScan s n x).lost = true) :
    feTake s n x put = feLose (scanCounted s n (feScan s n x)) n := if_pos h

theorem feTake_of_kept {x : Nat} {put : List RxChar → FeLane → FeLane} (h : (feScan s n x).lost = false) :
    feTake s n x put = (scanCounted s n (feScan s n x)).setFe n (put (feScan s n x).cs
      { s.feLane n with rxRd := (feScan s n x).rd, cv := (feScan s n x).cv, last := (feScan s n x).last }) :=
  if_neg (Bool.eq_false_iff.mp h)

end

section
variable (s : State) (n : Nat) (w : BitVec 80)

/-- What the decoder of a lane finds in a word (R179, R183). -/
def laneScan : RxScan := feScan s n (decoderWord s n w)

/-- The errors of a word counted, with the bits recovered kept. -/
def wordCounted : State := scanCounted (rawKept s n w) n (laneScan s n w)

/-- A word put into the phase buffer of its lane (R184). -/
def wordBuffered (i : Nat) : State :=
  (wordCounted s n w).setFe n (bufferPut s n i (laneScan s n w).cs
    { s.feLane n with rxRd := (laneScan s n w).rd, cv := (laneScan s n w).cv, last := (laneScan s n w).last })

/-- `t` has the errors that a scan finds counted beside those of `s` (R179). -/
def ErrorsCounted (r : RxScan) (t : State) : Prop :=
  t.getF (Reg.LN_FE_ERR_CV_CNT n) = min (s.getF (Reg.LN_FE_ERR_CV_CNT n) + (r.cs.filter (fun c => c.cv)).length) 65535 ∧
  t.getF (Reg.LN_FE_ERR_RD_CNT n) = min (s.getF (Reg.LN_FE_ERR_RD_CNT n) + (r.cs.filter (fun c => c.rdErr)).length) 65535

theorem wrote_wordCounted : Wrote (countWrites s n (laneScan s n w)) s (wordCounted s n w) :=
  wrote_scanCounted (rawKept s n w) n (laneScan s n w)

theorem wordBuffered_reads (i : Nat) :
    ErrorsCounted s n (laneScan s n w) (wordBuffered s n w i) ∧
    ((wordBuffered s n w i).feLane n).words = (s.feLane n).words ++
      [((lanePhaseBuf s n).shows s.rootM (s.getF (Reg.LQ_MODE_FE_J (n / 4))) i, (laneScan s n w).cs)] ∧
    ((wordBuffered s n w i).feLane n).rxRd = (laneScan s n w).rd ∧
    ((wordBuffered s n w i).feLane n).gotAt = some s.time.slots ∧
    BitsBut [Reg.LN_FE_ERR_RD_CNT n, Reg.LN_FE_ERR_CV_CNT n] s (wordBuffered s n w i) ∧
    { wordBuffered s n w i with regs := s.regs, cyc := s.cyc, fe := s.fe, laneTest := s.laneTest } = s := by
  have hw : Wrote (countWrites s n (laneScan s n w)) s (wordBuffered s n w i) := (wrote_wordCounted s n w).setFe n _
  have hsep : Separate ((countWrites s n (laneScan s n w)).map Prod.fst) := separate_errFields n
  refine ⟨⟨hw.getF hsep (by simp [countWrites]) (by simp [Reg.LN_FE_ERR_CV_CNT]),
    hw.getF hsep (by simp [countWrites]) (by simp [Reg.LN_FE_ERR_RD_CNT])⟩, ?_, ?_, ?_, hw.bitsBut hsep, ?_⟩
  · exact congrArg FeLane.words (feLane_setFe_self (wordCounted s n w) n _)
  · exact congrArg FeLane.rxRd (feLane_setFe_self (wordCounted s n w) n _)
  · exact congrArg FeLane.gotAt (feLane_setFe_self (wordCounted s n w) n _)
  · simp [wordBuffered, wordCounted, scanCounted, rawKept, State.setTest, State.setFe]

theorem apart_lossAndErrFields : ∀ f ∈ alignLossFields n, ∀ g ∈ [Reg.LN_FE_ERR_RD_CNT n, Reg.LN_FE_ERR_CV_CNT n], f.Apart g := by
  simp [alignLossFields, Field.Apart, Reg.LN_FE_ERR_RD_CNT, Reg.LN_FE_ERR_CV_CNT, Reg.LN_FE_CNT_RELOCK_CNT, Reg.LN_FE_STAT_LOCK_LOSS,
    Reg.LN_BU_STAT_STATE, Reg.LN_FE_STAT_SLIP, Reg.LN_FE_STAT_ALIGNED, Reg.LN_FE_CNT, Reg.LN_FE_STAT, Reg.LN_BU_STAT, Reg.LN_FE_ERR]

theorem wordLost_reads :
    ErrorsCounted s n (laneScan s n w) (feLose (wordCounted s n w) n) ∧ AlignmentLost s n (feLose (wordCounted s n w) n) ∧
    BitsBut (alignLossFields n ++ [Reg.LN_FE_ERR_RD_CNT n, Reg.LN_FE_ERR_CV_CNT n]) s (feLose (wordCounted s n w) n) ∧
    { feLose (wordCounted s n w) n with
      regs := s.regs, cyc := s.cyc, raised := s.raised, fe := s.fe, laneTest := s.laneTest } = s := by
  have hw := wrote_wordCounted s n w
  have hsep : Separate ((countWrites s n (laneScan s n w)).map Prod.fst) := separate_errFields n
  have hapart := apart_lossAndErrFields n
  refine ⟨⟨getF_feLose hw hsep hapart (by simp [countWrites]) (by simp [Reg.LN_FE_ERR_CV_CNT]),
    getF_feLose hw hsep hapart (by simp [countWrites]) (by simp [Reg.LN_FE_ERR_RD_CNT])⟩,
    alignmentLost_feLose hw hsep hapart ?_, bitsBut_feLose hw hsep, ?_⟩
  · simp [wordCounted, scanCounted, rawKept, State.setTest, raiseEv_raised, State.logs]
  · simp [wordCounted, scanCounted, rawKept, State.setTest, feLose, feSymlock, State.setFe]

end

section
variable {s : State} {n : Fin 144} {w : BitVec 80} {i : Nat} (hl : feLocked s n = true) (hlogs : s.logs = true)
  (hg : (s.feLane n).gotAt ≠ some s.time.slots)
  (hi : (lanePhaseBuf s n).word s.rootM (s.getF (Reg.LQ_MODE_FE_J (n.val / 4))) s.time.slots = some i)
include hl hlogs hg hi

/-- An aligned lane takes a word that completes in the present slot. -/
theorem exec_feWordReceive_of_due :
    exec (.feWordReceive n w) s = .next (feTake (rawKept s n w) n (decoderWord s n w) (bufferPut s n i)) := by
  obtain ⟨-, hst, -⟩ := feLocked_iff.mp hl
  unfold lanePhaseBuf at hi
  rw [exec_feWordReceive]
  unfold execFeWordReceive
  dsimp only
  rw [if_neg (by simp [hst]), if_neg (by simp [hl]), if_neg (by simp [hlogs]), if_neg (by simp [hg]), hi]
  rfl

theorem exec_feWordReceive_of_kept (h : (laneScan s n w).lost = false) :
    exec (.feWordReceive n w) s = .next (wordBuffered s n w i) :=
  (exec_feWordReceive_of_due hl hlogs hg hi).trans (congrArg Host.Outcome.next (feTake_of_kept (rawKept s n w) n h))

theorem exec_feWordReceive_of_lost (h : (laneScan s n w).lost = true) :
    exec (.feWordReceive n w) s = .next (feLose (wordCounted s n w) n) :=
  (exec_feWordReceive_of_due hl hlogs hg hi).trans (congrArg Host.Outcome.next (feTake_of_lost (rawKept s n w) n h))

end

/-! ### A word sent -/

section
variable (s : State) (n w : Nat) (rd : Bool)

/-- A word in the transmit polarity of a lane. -/
def txPolarised : BitVec 80 := if s.flag (Reg.LN_FE_CTRL_POL_TX n) then ~~~(BitVec.ofNat 80 w) else BitVec.ofNat 80 w

theorem feSend_reads : ((feSend s n w rd).feLane n).txRd = rd ∧
    ((feSend s n w rd).feLane n).txWord = BitVec.ofNat 80 ((txPolarised s n w).toNat ^^^ injMask s n 80) ∧
    (s.getF (Reg.LN_TEST_CTRL_LB n) ≠ 2 → ((feSend s n w rd).feLane n).pins = some ((feSend s n w rd).feLane n).txWord) ∧
    { feSend s n w rd with fe := s.fe, laneTest := s.laneTest } = s := by
  unfold feSend feOut
  dsimp only
  rw [feLane_setFe_self]
  exact ⟨rfl, rfl, fun hlb => if_neg hlb, rfl⟩

end

/-- The data and K bits that a lane sends in a beat with TX_RDY: those of the fabric where its word is valid and the sector is not held,
else the fill word (R185). -/
def txData (s : State) (n : Nat) : Nat × Nat :=
  let g := tileOf (landing n) 11 4
  let valid := !s.held (landing n) && s.view.afIn g 792
  (if valid then s.view.afBus g 0 64 else fillData, if valid then s.view.afBus g 704 8 else fillKs)

theorem exec_feWordTransmit_of_ready {s : State} {n : Fin 144} {w : Nat} {rd : Bool} (hr : s.slotRuns = true) (hk : s.k = 7)
    (hm : s.laneMode n = 1) (hst : s.laneState n = 6) (hx : feTxReady s n = true) (hs : (s.feLane n).sentAt ≠ some s.time.slots)
    (hlb : s.getF (Reg.LN_TEST_CTRL_LB n) ≠ 3) (he : encodeWord (txData s n).1 (txData s n).2 (s.feLane n).txRd = (w, rd, 0)) :
    exec (.feWordTransmit n) s = .next (feSend s n w rd) := by
  have hruns : (s.slotRuns && s.k == 7 && feTxReady s n && s.laneMode n == 1 && s.laneState n == 6 &&
      (s.feLane n).sentAt != some s.time.slots) = true := by
    simp [hr, hk, hm, hst, hx, hs]
  unfold txData at he
  rw [exec_feWordTransmit]
  unfold execFeWordTransmit
  dsimp only at he ⊢
  rw [hruns]
  simp only [Bool.true_or, Bool.true_and, if_true]
  rw [if_neg hlb, if_neg (by simp [hst]), he]
  rfl

/-! ### The obligation of front-end lanes -/

/-- Settles O21: the search by whether it completes with its margin, drift and polarity by the loss of alignment that they end in, a word
received by what its scan finds, and a word sent by its coding. -/
theorem frontEndLanes : Obligations.FrontEndLanes := by
  unfold Obligations.FrontEndLanes
  intro s n l pol place lose lostBits errBits seeks srch taken scan counted buf
  refine ⟨fun bits phase rd hseek hd hp => ?_, fun bits phase rd hseek hd hp => ?_, fun bits phase hseek hd => ?_,
    fun drift hl hdrift => ?_, fun v ha hm => ?_, fun v ha hm h => ?_, fun v ha hv hl => ?_, fun w i hl hlogs hg hi hscan => ?_,
    fun w i hl hlogs hg hi hscan => ?_, fun w rd hr hk hm hst hx hs hlb he => ?_⟩
  · obtain ⟨hm, hst, ht⟩ := hseek
    have hw := wrote_aligned s n (place phase).1 (place phase).2.1 (1024 * s.time.slots + phase) (srch bits) rd
    have hsep := separate_alignWrites s n (place phase).1 (srch bits)
    have hslip : (srch bits).slip % 80 < 128 := (Nat.mod_lt _ (by omega)).trans (by omega)
    refine ⟨_, exec_feAlignment_of_placed hm hst ht hd hp, ?_, ?_, ?_, ?_, ?_, rxRd_aligned s n _ _ _ _ rd,
      first_aligned s n _ _ _ _ rd, raised_aligned s n _ _ _ _ rd, bitsBut_mono (hw.bitsBut hsep) (by simp [alignWrites]),
      aligned_frame s n _ _ _ _ rd⟩
    · exact hw.getF hsep (by simp [alignWrites]) (by simp [Reg.LN_BU_STAT_STATE])
    · exact hw.flag hsep (b := true) (by simp [alignWrites])
    · exact hw.getF hsep (by simp [alignWrites]) hslip
    · exact hw.getF_mod hsep (by simp [alignWrites])
    · exact hw.getF hsep (by simp [alignWrites]) (by simp [Reg.LN_BU_CNT_ACT_CNT])
  · obtain ⟨hm, hst, ht⟩ := hseek
    exact ⟨_, exec_feAlignment_of_misplaced hm hst ht hd hp, alignFailed_reads s n (srch bits)⟩
  · obtain ⟨hm, hst, ht⟩ := hseek
    have hbits := (wrote_searched s n (srch bits)).bitsBut (by simp [Separate, Field.Fits, Reg.LN_FE_STAT_SLIP])
    refine ⟨_, exec_feAlignment_of_unfinished hm hst ht hd, congrArg FeLane.srch (feLane_setFe_self s n _), ?_, hbits,
      by simp [searched, State.setFe]⟩
    exact (getF_of_bitsBut hbits (by simp [Reg.LN_FE_STAT_SLIP, Reg.LN_BU_STAT_STATE, Reg.LN_FE_STAT, Reg.LN_BU_STAT])).trans hst
  · obtain ⟨hlost, herr, hbits, hrest⟩ := driftedAway_reads s n
    exact ⟨_, exec_feAlignmentLoss_of_drift hl hdrift, hlost, herr, bitsBut_mono hbits (by simp [alignLossFields, lostBits]), hrest⟩
  · rw [exec_polarityWrite_of_alive ha, feCtrlWrite_of_other v hm]
  · rw [exec_polarityWrite_of_alive ha, feCtrlWrite_of_kept hm h]
    exact ⟨_, rfl, reg_setReg_self s _ _, onlyBits_setReg s _ _⟩
  · obtain ⟨hreg, hlost, hbits, hrest⟩ := turned_reads s n v
    rw [exec_polarityWrite_of_alive ha, feCtrlWrite_of_turned hv hl]
    exact ⟨_, rfl, hreg, hlost, bitsBut_mono hbits (by simp [alignLossFields, lostBits]), hrest⟩
  · obtain ⟨hcount, hwords, hrd, hgot, hbits, hrest⟩ := wordBuffered_reads s n w i
    exact ⟨_, exec_feWordReceive_of_kept hl hlogs hg hi hscan, hcount, hwords, hrd, hgot, bitsBut_mono hbits (by simp [errBits]), hrest⟩
  · obtain ⟨hcount, hlost, hbits, hrest⟩ := wordLost_reads s n w
    exact ⟨_, exec_feWordReceive_of_lost hl hlogs hg hi hscan, hcount, hlost,
      bitsBut_mono hbits (by simp [alignLossFields, errBits, lostBits]), hrest⟩
  · obtain ⟨hrd, hword, hpins, hrest⟩ := feSend_reads s n w rd
    exact ⟨_, exec_feWordTransmit_of_ready hr hk hm hst hx hs hlb he, hrd, hword, hpins, hrest⟩

end Sys2Proof.Machine

/-!
SUPPORT. Codewords of a trunk lane (10_trunk_links.md R194 to R199, R207 to R209, R212, R215, 11_lane_bringup_test.md R218, R222): what a codeword
sent or received, lock and its loss, superframe lock and its loss, and the verdict on a superframe do to the lane.
-/

namespace Sys2Proof.Machine

/-! ### The state of a lane -/

@[simp] theorem tkLane_setTk_self (s : State) (n : Nat) (l : TkLane) : (s.setTk n l).tkLane n = l := tget_tset_self _ _ _ _

/-! ### Writes beside the registers -/

section
variable {vals : List (Field × Nat)} {s t : State}

theorem Wrote.setTk (h : Wrote vals s t) (n : Nat) (l : TkLane) : Wrote vals s (t.setTk n l) := h.of_regs rfl

theorem Wrote.raiseEv (h : Wrote vals s t) (e : Nat) : Wrote vals s (t.raiseEv e) := h.of_regs rfl

end

theorem Separate.sublist {fs gs : List Field} (h : Separate fs) (hs : gs.Sublist fs) : Separate gs :=
  ⟨fun f hf => h.1 f (hs.subset hf), h.2.sublist hs⟩

/-- A field that counts nothing further stays. -/
theorem min_getF_add_zero (s : State) (f : Field) {m : Nat} (hm : 2 ^ (f.hi + 1 - f.lo) - 1 = m) : min (s.getF f + 0) m = s.getF f := by
  have hlt : s.getF f < 2 ^ (f.hi + 1 - f.lo) := Nat.mod_lt _ (by positivity)
  omega

theorem laneState_laneTo (s : State) (n : Nat) {st : Nat} (h : st < 8) : (s.laneTo n st).laneState n = st :=
  ((Wrote.refl s).laneTo n st).getF (by simp [Separate, Field.Fits, Reg.LN_BU_STAT_STATE]) (by simp)
    (by simpa [Reg.LN_BU_STAT_STATE] using h)

/-! ### A codeword sent -/

section
variable (s : State) (n : Nat) (l : TkLane) (fec : Bool) (blocks : List (Bool × Nat))

/-- The bits on the line of a codeword: in the transmit polarity, with injection (R194, R230). -/
def lineBits (w : Nat) : Nat :=
  turned (s.flag (Reg.LN_TK_CTRL_POL_TX n)) (s.flag (Reg.LQ_TRK_PAM4 (n / 4))) (cwBits fec) w ^^^ injMask s n (cwBits fec)

/-- The symbols of a codeword on the pins, none in PCS loopback (R231). -/
def pinSymbols (w : Nat) : Option (List Int) :=
  if s.getF (Reg.LN_TEST_CTRL_LB n) = 2 then none
  else some (lineSymbols (s.flag (Reg.LQ_TRK_PAM4 (n / 4))) (cwBits fec) (lineBits s n fec w))

/-- The bits that injection inverts do not depend on the trunk lanes. -/
theorem injMask_setTk (m len : Nat) : injMask (s.setTk n l) m len = injMask s m len := rfl

theorem tkLane_tkOut (w len : Nat) : (tkOut s n l w len).tkLane n =
    { l with line := w ^^^ injMask s n len, lineLen := len
             pins := if s.getF (Reg.LN_TEST_CTRL_LB n) = 2 then none
               else some (lineSymbols (s.flag (Reg.LQ_TRK_PAM4 (n / 4))) len (w ^^^ injMask s n len)) } := by
  unfold tkOut injectInto
  dsimp only
  rw [tkLane_setTk_self, injMask_setTk]

theorem tkLane_sendCw : (sendCw s n l fec blocks).tkLane n =
    { l with txScr := (encodeCw fec l.txScr blocks).2, line := lineBits s n fec (encodeCw fec l.txScr blocks).1, lineLen := cwBits fec
             pins := pinSymbols s n fec (encodeCw fec l.txScr blocks).1 } := by
  unfold pinSymbols lineBits sendCw
  dsimp only
  rw [tkLane_tkOut]

theorem sendCw_reads : ((sendCw s n l fec blocks).tkLane n).txCw = l.txCw ∧
    ((sendCw s n l fec blocks).tkLane n).txScr = (encodeCw fec l.txScr blocks).2 ∧
    ((sendCw s n l fec blocks).tkLane n).lineLen = cwBits fec := by
  rw [tkLane_sendCw]
  exact ⟨rfl, rfl, rfl⟩

theorem tkOut_frame (w len : Nat) : { tkOut s n l w len with tk := s.tk, laneTest := s.laneTest } = s := by
  simp [tkOut, injectInto, State.setTk, State.setTest]

theorem sendCw_frame : { sendCw s n l fec blocks with tk := s.tk, laneTest := s.laneTest } = s := tkOut_frame s n _ _ _

variable {s} in
/-- What is sent after a change of the trunk lanes changes no more than they and the test of the lane. -/
theorem sendCw_frame_of {u : State} (h : { u with tk := s.tk } = s) :
    { sendCw u n l fec blocks with tk := s.tk, laneTest := s.laneTest } = s :=
  (congrArg (fun t : State => { t with tk := s.tk, laneTest := s.laneTest }) (sendCw_frame u n l fec blocks)).trans
    (congrArg (fun t : State => { t with laneTest := s.laneTest }) h)

/-- Acknowledgments queued change the trunk lanes alone. -/
theorem periodicAcks_frame : { periodicAcks s n with tk := s.tk } = s := by
  have hfold : ∀ (qs : List Nat) (u : State),
      { qs.foldl (fun acc q => if s.flag (Reg.LN_TK_QCFG_RXEN n q) then queueAck acc n q false else acc) u with tk := s.tk } =
        { u with tk := s.tk } := by
    intro qs
    induction qs with
    | nil => exact fun _ => rfl
    | cons q qs ih =>
      intro u
      rw [List.foldl_cons, ih]
      split <;> rfl
  unfold periodicAcks
  dsimp only
  split
  · exact hfold _ s
  · rfl

end

section
variable {s : State} {n : Fin 144} (hm : s.laneMode n = 2) (hlb : s.getF (Reg.LN_TEST_CTRL_LB n) ≠ 3)
include hm hlb

theorem exec_codewordSend_of_training (hst : s.laneState n = 2 ∨ s.laneState n = 3 ∨ s.laneState n = 4) :
    exec (.codewordSend n) s = .next (sendCw s n (s.tkLane n) true idleBlocks) := by
  rw [exec_codewordSend]
  unfold execCodewordSend
  dsimp only
  rw [if_neg (by omega), if_neg hlb]
  obtain h | h | h := hst <;> rw [h] <;> rfl

theorem exec_codewordSend_of_handshake (hst : s.laneState n = 5) (hseed : (s.tkLane n).seed.isSome = true) :
    exec (.codewordSend n) s = .next (sendCw s n { s.tkLane n with acksSent := (s.tkLane n).acksSent + (s.tkLane n).passed.toNat } true
      (hskBlocks n (s.tkLane n) (s.tkLane n).passed false)) := by
  rw [exec_codewordSend]
  unfold execCodewordSend
  dsimp only
  rw [if_neg (by omega), if_neg hlb, hst]
  exact if_neg (by simp [Option.isSome_iff_ne_none.mp hseed])

/-- The lane after the blocks of a codeword have been made: the codeword counts, and so does the wait of its queues. -/
def codewordMade (l : TkLane) : TkLane := { l with txCw := l.txCw + 1, txq := l.txq.map countWait }

theorem exec_codewordSend_of_active (hst : s.laneState n = 6) {b : TkLane × List (Bool × Nat)}
    (hb : activeBlocks (periodicAcks s n) n ((periodicAcks s n).tkLane n) = b) (hlast : b.1.txCw + 1 < 2 ^ 48) :
    exec (.codewordSend n) s = .next (sendCw (periodicAcks s n) n (codewordMade b.1) b.1.txFec b.2) := by
  rw [exec_codewordSend]
  unfold execCodewordSend
  dsimp only
  rw [if_neg (by omega), if_neg hlb, hst, hb]
  exact if_neg (Nat.ne_of_lt hlast)

end

/-! ### A codeword received -/

section
variable (s : State) (n : Nat) (syms : List Int)

/-- The bits of a codeword that a lane receives, from the line or from a loopback (R194, R231). -/
def cwReceived : Nat :=
  loopedBack s n (s.tkLane n).line (symbolBits (s.flag (Reg.LQ_TRK_PAM4 (n / 4))) syms) % 2 ^ cwBits (s.tkLane n).rxFec

/-- The codeword that a lane decodes, in the polarity of its receiver (R197). -/
def cwDecoded : Option Nat × Nat :=
  decodeCw (s.tkLane n).rxFec
    (turned (s.flag (Reg.LN_TK_CTRL_POL_RX n)) (s.flag (Reg.LQ_TRK_PAM4 (n / 4))) (cwBits (s.tkLane n).rxFec) (cwReceived s n syms))

/-- A codeword counted: as uncorrectable, or as corrected with the symbols corrected in it (R197). -/
def cwCounted (d : Option Nat) : State :=
  match d with
  | none => s.incF (Reg.LN_TK_FEC_UNCOR_CNT n)
  | some 0 => s
  | some k => (s.incF (Reg.LN_TK_FEC_CWCORR_CNT n)).addF (Reg.LN_TK_SYM_SYMCORR_CNT n) k

/-- The counts of the decoder of a lane. -/
def cwCounts : List Field := [Reg.LN_TK_FEC_UNCOR_CNT n, Reg.LN_TK_FEC_CWCORR_CNT n, Reg.LN_TK_SYM_SYMCORR_CNT n]

theorem separate_cwCounts : Separate (cwCounts n) := by
  simp [cwCounts, Separate, Field.Fits, Field.Apart, Reg.LN_TK_FEC_UNCOR_CNT, Reg.LN_TK_FEC_CWCORR_CNT, Reg.LN_TK_SYM_SYMCORR_CNT,
    Reg.LN_TK_FEC, Reg.LN_TK_SYM]

/-- `t` has a codeword counted beside those of `s`. -/
def CodewordCounted (d : Option Nat) (t : State) : Prop :=
  t.getF (Reg.LN_TK_FEC_UNCOR_CNT n) = min (s.getF (Reg.LN_TK_FEC_UNCOR_CNT n) + if d = none then 1 else 0) 65535 ∧
  t.getF (Reg.LN_TK_FEC_CWCORR_CNT n) = min (s.getF (Reg.LN_TK_FEC_CWCORR_CNT n) + if d = none ∨ d = some 0 then 0 else 1) 65535 ∧
  t.getF (Reg.LN_TK_SYM_SYMCORR_CNT n) = min (s.getF (Reg.LN_TK_SYM_SYMCORR_CNT n) + d.getD 0) 0xFFFFFFFF ∧
  BitsBut (cwCounts n) s t

theorem codewordCounted_cwCounted (d : Option Nat) : CodewordCounted s n d (cwCounted s n d) := by
  have huncor := min_getF_add_zero s (Reg.LN_TK_FEC_UNCOR_CNT n) (m := 65535) (by simp [Reg.LN_TK_FEC_UNCOR_CNT])
  have hcorr := min_getF_add_zero s (Reg.LN_TK_FEC_CWCORR_CNT n) (m := 65535) (by simp [Reg.LN_TK_FEC_CWCORR_CNT])
  have hsym := min_getF_add_zero s (Reg.LN_TK_SYM_SYMCORR_CNT n) (m := 0xFFFFFFFF) (by simp [Reg.LN_TK_SYM_SYMCORR_CNT])
  obtain ⟨hfit, hpair⟩ := separate_cwCounts n
  obtain ⟨⟨hfu, hfc, hfs⟩, ⟨huc, hus⟩, hcs⟩ :
      ((Reg.LN_TK_FEC_UNCOR_CNT n).Fits ∧ (Reg.LN_TK_FEC_CWCORR_CNT n).Fits ∧ (Reg.LN_TK_SYM_SYMCORR_CNT n).Fits) ∧
      ((Reg.LN_TK_FEC_UNCOR_CNT n).Apart (Reg.LN_TK_FEC_CWCORR_CNT n) ∧ (Reg.LN_TK_FEC_UNCOR_CNT n).Apart (Reg.LN_TK_SYM_SYMCORR_CNT n)) ∧
      (Reg.LN_TK_FEC_CWCORR_CNT n).Apart (Reg.LN_TK_SYM_SYMCORR_CNT n) := by
    simpa [cwCounts] using And.intro hfit hpair
  match d with
  | none =>
    have hw : Wrote [(Reg.LN_TK_FEC_UNCOR_CNT n, min (s.getF (Reg.LN_TK_FEC_UNCOR_CNT n) + 1) 65535)] s (cwCounted s n none) :=
      (Wrote.refl s).addF 1 (by simp [Separate, hfu]) (by simp [Reg.LN_TK_FEC_UNCOR_CNT])
    have hsep : Separate [Reg.LN_TK_FEC_UNCOR_CNT n] := by simp [Separate, hfu]
    have hb := hw.bitsBut hsep
    refine ⟨hw.getF hsep (by simp) (by simp [Reg.LN_TK_FEC_UNCOR_CNT]), ?_, ?_, bitsBut_mono hb (by simp [cwCounts])⟩
    · exact (getF_of_bitsBut hb (List.forall_mem_singleton.mpr huc)).trans hcorr.symm
    · exact (getF_of_bitsBut hb (List.forall_mem_singleton.mpr hus)).trans hsym.symm
  | some 0 => exact ⟨huncor.symm, hcorr.symm, hsym.symm, bitsBut_refl _ s⟩
  | some (k + 1) =>
    have hw : Wrote [(Reg.LN_TK_SYM_SYMCORR_CNT n, min (s.getF (Reg.LN_TK_SYM_SYMCORR_CNT n) + (k + 1)) 0xFFFFFFFF),
        (Reg.LN_TK_FEC_CWCORR_CNT n, min (s.getF (Reg.LN_TK_FEC_CWCORR_CNT n) + 1) 65535)] s (cwCounted s n (some (k + 1))) :=
      ((Wrote.refl s).addF 1 (by simp [Separate, hfc]) (by simp [Reg.LN_TK_FEC_CWCORR_CNT])).addF (k + 1)
        (by simp [Separate, hfc, hfs, hcs.symm]) (by simp [Reg.LN_TK_SYM_SYMCORR_CNT])
    have hsep : Separate [Reg.LN_TK_SYM_SYMCORR_CNT n, Reg.LN_TK_FEC_CWCORR_CNT n] := by simp [Separate, hfc, hfs, hcs.symm]
    have hb := hw.bitsBut hsep
    refine ⟨?_, ?_, hw.getF hsep (by simp) (by simp [Reg.LN_TK_SYM_SYMCORR_CNT]), bitsBut_mono hb (by simp [cwCounts])⟩
    · exact (getF_of_bitsBut hb (by simpa using ⟨hus.symm, huc.symm⟩)).trans huncor.symm
    · exact hw.getF hsep (by simp) (by simp [Reg.LN_TK_FEC_CWCORR_CNT])

/-- The lane of a codeword received in SYMLOCK: it only counts as good or as uncorrectable (R198). -/
def cwSearched : State :=
  let l := s.tkLane n
  let d := cwDecoded s n syms
  (cwCounted (s.setTest n { s.test n with raw := cwReceived s n syms }) n d.1).setTk n
    { l with rxScr := (cwBlocks l.rxScr d.2).2, good := if d.1.isNone then 0 else l.good + 1, bad := if d.1.isNone then l.bad + 1 else 0 }

theorem exec_codewordReceive_of_symlock {s : State} {n : Fin 144} (syms : List Int) (hm : s.laneMode n = 2) (hst : s.laneState n = 4) :
    exec (.codewordReceive n syms) s = .next (cwSearched s n syms) := by
  rw [exec_codewordReceive]
  unfold execCodewordReceive
  dsimp only
  rw [if_neg (by omega), if_neg (by omega), if_neg (by omega), if_pos hst]
  rfl

theorem codewordCounted_cwSearched : CodewordCounted s n (cwDecoded s n syms).1 (cwSearched s n syms) :=
  codewordCounted_cwCounted (s.setTest n { s.test n with raw := cwReceived s n syms }) n (cwDecoded s n syms).1

theorem cwCounted_frame (d : Option Nat) : { cwCounted s n d with regs := s.regs, cyc := s.cyc } = s := by
  match d with
  | none => rfl
  | some 0 => rfl
  | some (k + 1) => rfl

theorem cwSearched_frame :
    { cwSearched s n syms with regs := s.regs, cyc := s.cyc, tk := s.tk, laneTest := s.laneTest } = s :=
  congrArg (fun t : State => { t with tk := s.tk, laneTest := s.laneTest })
    (cwCounted_frame (s.setTest n { s.test n with raw := cwReceived s n syms }) n (cwDecoded s n syms).1)

end

/-! ### Lock -/

section
variable (s : State) (n : Nat)

/-- What a search that ends in lock writes: SLIP and the wait of the placement (R198). -/
def slipPlaced (slip w : Nat) : State := (s.setF (Reg.LN_TK_STAT_SLIP n) slip).setF (Reg.LN_TK_STAT_WAIT n) w

/-- An entry into HANDSHAKE draws an IV seed while RNG_OK is 1 (R206). -/
def seedDrawn : State := if s.flag Reg.VLT_STAT_RNG_OK then s.draw.2 else s

/-- The lane that enters HANDSHAKE with no key named. -/
def handshakeLane : TkLane :=
  let l := (seedDrawn s).tkLane n
  { TkLane.reset with
    cfg := { sampleCfg s n with keys := [] }, txScr := l.txScr, rxScr := l.rxScr, txq := l.txq
    seed := if s.flag Reg.VLT_STAT_RNG_OK then some (Config.ivSeed s.draw.1).toNat else none
    line := l.line, lineLen := l.lineLen, pins := l.pins, vbad := l.vbad, vbadNext := l.vbadNext }

/-- The device with that lane in HANDSHAKE. -/
def handshaking : State := ((seedDrawn s).setTk n (handshakeLane s n)).laneTo n 5

/-- A schedule of a lane breaks R200. -/
def schedBroken : Bool := badSched (sampleCfg s n).txSched || badSched (sampleCfg s n).rxSched

theorem enterHandshake_of_no_keys (h : keysNamed (sampleCfg s n) = []) : enterHandshake s n =
    if schedBroken s n then ((handshaking s n).raiseF (Reg.LN_TK_STAT_BADSCHED n)).raiseEv n else handshaking s n := by
  unfold enterHandshake
  dsimp only
  rw [h]
  rfl

theorem laneState_schedFlagged (u : State) : ((u.raiseF (Reg.LN_TK_STAT_BADSCHED n)).raiseEv n).laneState n = u.laneState n :=
  (getF_raiseEv _ _ _).trans (getF_setF_reg_ne u _ _ _ (by
    simp [Reg.LN_BU_STAT_STATE, Reg.LN_TK_STAT_BADSCHED, Reg.LN_BU_STAT, Reg.LN_TK_STAT]))

theorem tkLane_schedFlagged (u : State) : ((u.raiseF (Reg.LN_TK_STAT_BADSCHED n)).raiseEv n).tkLane n = u.tkLane n := rfl

/-- An entry into HANDSHAKE ends with the move of the lane, and BADSCHED after it. -/
theorem enterHandshake_moves : ∃ (u : State) (b : Bool), enterHandshake s n =
    if b then ((u.laneTo n 5).raiseF (Reg.LN_TK_STAT_BADSCHED n)).raiseEv n else u.laneTo n 5 := ⟨_, _, rfl⟩

theorem laneState_enterHandshake : (enterHandshake s n).laneState n = 5 := by
  obtain ⟨u, b, h⟩ := enterHandshake_moves s n
  rw [h]
  cases b
  · exact laneState_laneTo u n (by omega)
  · exact (laneState_schedFlagged n _).trans (laneState_laneTo u n (by omega))

theorem regs_seedDrawn : (seedDrawn s).regs = s.regs := by
  unfold seedDrawn
  split <;> rfl

theorem seed_handshakeLane : (handshakeLane s n).seed.isSome = s.flag Reg.VLT_STAT_RNG_OK := by
  unfold handshakeLane
  cases s.flag Reg.VLT_STAT_RNG_OK <;> rfl

/-- The lane enters HANDSHAKE with a seed while RNG_OK is 1, and writes no field but its state and BADSCHED. -/
theorem enterHandshake_reads (h : keysNamed (sampleCfg s n) = []) :
    BitsBut [Reg.LN_TK_STAT_BADSCHED n, Reg.LN_BU_STAT_STATE n] s (enterHandshake s n) ∧
    ((enterHandshake s n).tkLane n).seed.isSome = s.flag Reg.VLT_STAT_RNG_OK := by
  have hw : Wrote [(Reg.LN_BU_STAT_STATE n, 5)] s (handshaking s n) :=
    (((Wrote.refl s).of_regs (regs_seedDrawn s)).setTk n _).laneTo n 5
  have hsep : Separate [Reg.LN_TK_STAT_BADSCHED n, Reg.LN_BU_STAT_STATE n] := by
    simp [Separate, Field.Fits, Field.Apart, Reg.LN_TK_STAT_BADSCHED, Reg.LN_BU_STAT_STATE, Reg.LN_TK_STAT, Reg.LN_BU_STAT]
  have hlane : (handshaking s n).tkLane n = handshakeLane s n := tkLane_setTk_self _ n _
  rw [enterHandshake_of_no_keys s n h]
  split
  · rw [tkLane_schedFlagged, hlane]
    exact ⟨((hw.raiseF (Reg.LN_TK_STAT_BADSCHED n)).raiseEv n).bitsBut hsep, seed_handshakeLane s n⟩
  · rw [hlane]
    exact ⟨bitsBut_mono (hw.bitsBut hsep.tail) (by simp), seed_handshakeLane s n⟩

variable {s n} in
/-- A lane that locks enters HANDSHAKE with SLIP and the wait of its placement (R198). -/
theorem enterHandshake_slipPlaced_reads {slip w : Nat} (hslip : slip < 2048) (h : keysNamed (sampleCfg (slipPlaced s n slip w) n) = []) :
    (enterHandshake (slipPlaced s n slip w) n).getF (Reg.LN_TK_STAT_SLIP n) = slip ∧
    BitsBut [Reg.LN_TK_STAT_SLIP n, Reg.LN_TK_STAT_WAIT n, Reg.LN_TK_STAT_BADSCHED n, Reg.LN_BU_STAT_STATE n] s
      (enterHandshake (slipPlaced s n slip w) n) ∧
    ((enterHandshake (slipPlaced s n slip w) n).tkLane n).seed.isSome = s.flag Reg.VLT_STAT_RNG_OK := by
  have hw : Wrote [(Reg.LN_TK_STAT_WAIT n, w), (Reg.LN_TK_STAT_SLIP n, slip)] s (slipPlaced s n slip w) := ((Wrote.refl s).setF _ _).setF _ _
  have hsep : Separate [Reg.LN_TK_STAT_WAIT n, Reg.LN_TK_STAT_SLIP n] := by
    simp [Separate, Field.Fits, Field.Apart, Reg.LN_TK_STAT_WAIT, Reg.LN_TK_STAT_SLIP]
  have hplace := hw.bitsBut hsep
  obtain ⟨henter, hseed⟩ := enterHandshake_reads _ n h
  refine ⟨?_, bitsBut_trans (bitsBut_mono hplace (by simp)) (bitsBut_mono henter (by simp)), hseed.trans (flag_of_bitsBut hplace ?_)⟩
  · refine (getF_of_bitsBut henter ?_).trans (hw.getF hsep (by simp) (by simpa [Reg.LN_TK_STAT_SLIP] using hslip))
    simp [Reg.LN_TK_STAT_BADSCHED, Reg.LN_BU_STAT_STATE, Reg.LN_TK_STAT_SLIP, Reg.LN_BU_STAT, Reg.LN_TK_STAT]
  · simp [Reg.LN_TK_STAT_WAIT, Reg.LN_TK_STAT_SLIP, Reg.VLT_STAT_RNG_OK, Reg.LN_TK_STAT, Reg.VLT_STAT]

end

section
variable {s : State} {n : Fin 144} (hm : s.laneMode n = 2) (hst : s.laneState n = 4) (ht : tget (fun _ => none) s.cyc.timed n.val = none)
  (hgood : max 1 (s.getF (Reg.LN_TK_CTRL_LOCK_N n)) ≤ (s.tkLane n).good) (slip : Fin 1144) {phase : Nat}
include hm hst ht hgood

theorem exec_codewordLock_of_placed
    (hp : (placeWord 37 (s.getF (Reg.LN_TK_CTRL_PLACE n)) (1024 * s.time.slots + phase)).2.2 = true) :
    exec (.codewordLock n slip phase) s = .next (enterHandshake (slipPlaced s n slip
      (placeWord 37 (s.getF (Reg.LN_TK_CTRL_PLACE n)) (1024 * s.time.slots + phase)).1) n) := by
  rw [exec_codewordLock]
  unfold execCodewordLock
  dsimp only
  rw [untimed_of_none ht, if_pos hp]
  exact okIf_of_true _ _ (by simp only [hm, hst, hgood, beq_self_eq_true, decide_true, Bool.and_self])

theorem exec_codewordLock_of_misplaced
    (hp : (placeWord 37 (s.getF (Reg.LN_TK_CTRL_PLACE n)) (1024 * s.time.slots + phase)).2.2 = false) :
    exec (.codewordLock n slip phase) s = .next ((s.setTk n { s.tkLane n with good := 0 }).raiseEv n) := by
  rw [exec_codewordLock]
  unfold execCodewordLock
  dsimp only
  rw [untimed_of_none ht, if_neg (Bool.eq_false_iff.mp hp)]
  exact okIf_of_true _ _ (by simp only [hm, hst, hgood, beq_self_eq_true, decide_true, Bool.and_self])

end

/-! ### The loss of lock -/

/-- The streams of which a loss of lock leaves a superframe incomplete (R208). -/
def cutStreams (l : TkLane) : List Nat := (openStreams l).filter (fun c => openFrames l c != 0)

/-- The superframes that a loss of lock leaves incomplete (R208). -/
def cutFrames (l : TkLane) : Nat := (cutStreams l).foldl (fun acc c => acc + openFrames l c) 0

/-- The lane with VBAD to be presented for each of those streams. -/
def cutMarked (l : TkLane) : TkLane := { l with vbadNext := l.vbadNext ||| (cutStreams l).foldl (fun acc c => acc + 2 ^ c) 0 }

section
variable (s : State) (n st : Nat)

/-- Each incomplete superframe counted and, where there is one, VBAD and event n raised (R208). -/
def cutFramesCounted : State :=
  let l := s.tkLane n
  if (cutStreams l).isEmpty then s.setTk n (cutMarked l)
  else (((s.setTk n (cutMarked l)).raiseF (Reg.LN_TK_STAT_VBAD n)).addF (Reg.LN_TK_VER_VBAD_CNT n) (cutFrames l)).raiseEv n

theorem tkLoseLock_eq : tkLoseLock s n st = tkLeave (cutFramesCounted s n) n st := rfl

theorem tkLane_cutFramesCounted : (cutFramesCounted s n).tkLane n = cutMarked (s.tkLane n) := by
  unfold cutFramesCounted
  dsimp only
  split <;> exact tkLane_setTk_self s n _

theorem cutFramesCounted_of_nil (h : cutStreams (s.tkLane n) = []) : cutFramesCounted s n = s.setTk n (cutMarked (s.tkLane n)) :=
  if_pos (by rw [h]; rfl)

theorem cutFramesCounted_of_cut (h : cutStreams (s.tkLane n) ≠ []) : cutFramesCounted s n =
    (((s.setTk n (cutMarked (s.tkLane n))).raiseF (Reg.LN_TK_STAT_VBAD n)).addF (Reg.LN_TK_VER_VBAD_CNT n)
      (cutFrames (s.tkLane n))).raiseEv n :=
  if_neg (by simpa using h)

theorem cutFrames_of_nil {l : TkLane} (h : cutStreams l = []) : cutFrames l = 0 := by
  unfold cutFrames
  rw [h]
  rfl

theorem tkLoseLock_frame : { tkLoseLock s n st with regs := s.regs, cyc := s.cyc, raised := s.raised, tk := s.tk } = s := by
  rw [tkLoseLock_eq]
  unfold cutFramesCounted
  dsimp only
  split <;> simp [tkLeave, State.setTk]

/-- `t` is `s` with the lane out of ACTIVE by a loss of lock that `f` records (R198, R208, R218). -/
def LockLost (f : Field) (t : State) : Prop :=
  let l := s.tkLane n
  t.laneState n = st ∧ t.flag f = true ∧
  (t.flag (Reg.LN_TK_STAT_LOCKED n) = false ∧ t.tkLane n = tkClear (cutMarked l) ∧
    t.getF (Reg.LN_TK_VER_VBAD_CNT n) = min (s.getF (Reg.LN_TK_VER_VBAD_CNT n) + cutFrames l) 65535 ∧
    (cutStreams l = [] → t.raised = (s.raiseEv n).raised) ∧
    { t with regs := s.regs, cyc := s.cyc, raised := s.raised, tk := s.tk } = s) ∧
  BitsBut [f, Reg.LN_TK_STAT_LOCKED n, Reg.LN_TK_STAT_VBAD n, Reg.LN_TK_VER_VBAD_CNT n, Reg.LN_BU_STAT_STATE n] s t

/-- The device with a loss of lock recorded in `f`, and the lane out of ACTIVE. -/
def lockDropped (f : Field) : State := tkLoseLock ((s.raiseF f).raiseEv n) n st

/-- The fields that a loss of lock recorded in `f` writes, the last one first. -/
def lockLossFields (f : Field) : List Field :=
  [Reg.LN_BU_STAT_STATE n, Reg.LN_TK_STAT_LOCKED n, Reg.LN_TK_VER_VBAD_CNT n, Reg.LN_TK_STAT_VBAD n, f]

/-- What a loss of lock that cuts no superframe writes. -/
def cleanLossWrites (f : Field) : List (Field × Nat) := [(Reg.LN_BU_STAT_STATE n, st), (Reg.LN_TK_STAT_LOCKED n, 0), (f, 1)]

/-- What a loss of lock that cuts superframes writes. -/
def cutLossWrites (f : Field) : List (Field × Nat) :=
  [(Reg.LN_BU_STAT_STATE n, st), (Reg.LN_TK_STAT_LOCKED n, 0),
   (Reg.LN_TK_VER_VBAD_CNT n, min (s.getF (Reg.LN_TK_VER_VBAD_CNT n) + cutFrames (s.tkLane n)) 65535), (Reg.LN_TK_STAT_VBAD n, 1), (f, 1)]

theorem Wrote.tkLeave {vals : List (Field × Nat)} {s t : State} (h : Wrote vals s t) (n st : Nat) :
    Wrote ((Reg.LN_BU_STAT_STATE n, st) :: (Reg.LN_TK_STAT_LOCKED n, 0) :: vals) s (Machine.tkLeave t n st) :=
  ((h.setTk n _).setF (Reg.LN_TK_STAT_LOCKED n) 0).laneTo n st

variable {s n st}

theorem wrote_lockDropped_of_nil {f : Field} (h : cutStreams (s.tkLane n) = []) :
    Wrote (cleanLossWrites n st f) s (lockDropped s n st f) := by
  unfold lockDropped
  rw [tkLoseLock_eq, cutFramesCounted_of_nil ((s.raiseF f).raiseEv n) n h]
  exact ((((Wrote.refl s).raiseF f).raiseEv n).setTk n _).tkLeave n st

theorem wrote_lockDropped_of_cut {f : Field} (hsep : Separate (lockLossFields n f)) (h : cutStreams (s.tkLane n) ≠ []) :
    Wrote (cutLossWrites s n st f) s (lockDropped s n st f) := by
  unfold lockDropped
  rw [tkLoseLock_eq, cutFramesCounted_of_cut ((s.raiseF f).raiseEv n) n h]
  have hbad := ((((Wrote.refl s).raiseF f).raiseEv n).setTk n (cutMarked (s.tkLane n))).raiseF (Reg.LN_TK_STAT_VBAD n)
  exact ((hbad.addF (cutFrames (s.tkLane n)) hsep.tail.tail (by simp [Reg.LN_TK_VER_VBAD_CNT])).raiseEv n).tkLeave n st

theorem raised_lockDropped_of_nil {f : Field} (h : cutStreams (s.tkLane n) = []) : (lockDropped s n st f).raised = (s.raiseEv n).raised := by
  unfold lockDropped
  rw [tkLoseLock_eq, cutFramesCounted_of_nil ((s.raiseF f).raiseEv n) n h]
  exact raiseEv_raised_congr n rfl (raiseF_evs s f) rfl rfl

theorem lockLost_lockDropped {f : Field} (hst : st < 8) (hsep : Separate (lockLossFields n f)) :
    LockLost s n st f (lockDropped s n st f) := by
  have hlane : (lockDropped s n st f).tkLane n = tkClear (cutMarked (s.tkLane n)) :=
    (tkLane_setTk_self _ n _).trans (congrArg tkClear (tkLane_cutFramesCounted ((s.raiseF f).raiseEv n) n))
  have hframe : { lockDropped s n st f with regs := s.regs, cyc := s.cyc, raised := s.raised, tk := s.tk } = s :=
    congrArg (fun t : State => { t with regs := s.regs, cyc := s.cyc, raised := s.raised, tk := s.tk })
      (tkLoseLock_frame ((s.raiseF f).raiseEv n) n st)
  have hwidth : st < 2 ^ ((Reg.LN_BU_STAT_STATE n).hi + 1 - (Reg.LN_BU_STAT_STATE n).lo) := by simpa [Reg.LN_BU_STAT_STATE] using hst
  by_cases hcut : cutStreams (s.tkLane n) = []
  · have hw := wrote_lockDropped_of_nil (st := st) (f := f) hcut
    have hclean : Separate ((cleanLossWrites n st f).map Prod.fst) :=
      hsep.sublist (.cons_cons _ (.cons_cons _ (.cons _ (.cons _ (.cons_cons _ .slnil)))))
    obtain ⟨⟨-, hstate, -⟩, ⟨hlocked, -⟩, ⟨-, hcount⟩, -⟩ := by simpa [lockLossFields] using hsep.2
    have hb := hw.bitsBut hclean
    refine ⟨hw.getF hclean (by simp [cleanLossWrites]) hwidth, hw.flag hclean (b := true) (by simp [cleanLossWrites]),
      ⟨hw.flag hclean (b := false) (by simp [cleanLossWrites]), hlane, ?_, raised_lockDropped_of_nil, hframe⟩,
      bitsBut_mono hb (by simp [cleanLossWrites])⟩
    rw [cutFrames_of_nil hcut, min_getF_add_zero s _ (by simp [Reg.LN_TK_VER_VBAD_CNT])]
    exact getF_of_bitsBut hb (by simpa [cleanLossWrites] using ⟨hstate, hlocked, hcount.symm⟩)
  · have hw := wrote_lockDropped_of_cut (st := st) hsep hcut
    have hcutsep : Separate ((cutLossWrites s n st f).map Prod.fst) := hsep
    exact ⟨hw.getF hcutsep (by simp [cutLossWrites]) hwidth, hw.flag hcutsep (b := true) (by simp [cutLossWrites]),
      ⟨hw.flag hcutsep (b := false) (by simp [cutLossWrites]), hlane,
        hw.getF hcutsep (by simp [cutLossWrites]) (by simp [Reg.LN_TK_VER_VBAD_CNT]), fun h => absurd h hcut, hframe⟩,
      bitsBut_mono (hw.bitsBut hcutsep) (by simp [cutLossWrites])⟩

end

section
variable {s : State} {n : Fin 144} (hm : s.laneMode n = 2)
include hm

theorem exec_codewordLockLoss_of_bad (hst : s.laneState n = 5 ∨ s.laneState n = 6) (ht : tget (fun _ => none) s.cyc.timed n.val = none)
    (hbad : max 1 (s.getF (Reg.LN_TK_CTRL_UNLOCK_N n)) ≤ (s.tkLane n).bad) :
    exec (.codewordLockLoss n) s = .next (lockDropped s n 4 (Reg.LN_TK_STAT_LOCK_LOSS n)) := by
  rw [exec_codewordLockLoss]
  unfold execCodewordLockLoss
  rw [untimed_of_none ht]
  exact okIf_of_true _ _ (by
    obtain h | h := hst <;>
    simp only [hm, h, hbad, beq_self_eq_true, decide_true, Bool.true_or, Bool.or_true, Bool.and_self])

theorem exec_superframeLockLoss_of_missed (hst : s.laneState n = 6) (hok : (s.tkLane n).sfOk = true) (hmiss : 4 ≤ (s.tkLane n).sfMiss) :
    exec (.superframeLockLoss n) s = .next (lockDropped s n 2 (Reg.LN_BU_STAT_SF_LOSS n)) :=
  (exec_superframeLockLoss s n).trans (okIf_of_true _ _ (by simp only [hm, hst, hok, hmiss, beq_self_eq_true, decide_true, Bool.and_self]))

end

/-! ### Superframe lock -/

/-- The lane with superframe lock: every stream of the superframe in progress is spoiled (R199). -/
def superframeLane (l : TkLane) : TkLane :=
  { l with sfOk := true, sfMiss := 0, unlocked := 0, bads := 0, badSf := false
           rxs := l.rxs.map (fun t => { t with spoiled := true, prevSpoiled := true }) }

/-- The device with superframe lock of a lane, and LOCKED. -/
def superframeLocked (s : State) (n : Nat) : State := (s.setTk n (superframeLane (s.tkLane n))).raiseF (Reg.LN_TK_STAT_LOCKED n)

theorem exec_superframeLock_of_seen {s : State} {n : Fin 144} (hm : s.laneMode n = 2) (hst : s.laneState n = 5 ∨ s.laneState n = 6)
    (ht : tget (fun _ => none) s.cyc.timed n.val = none) (hok : (s.tkLane n).sfOk = false) (hseen : (s.tkLane n).sfSeen = 2) :
    exec (.superframeLock n) s = .next (superframeLocked s n) := by
  rw [exec_superframeLock]
  unfold execSuperframeLock
  rw [untimed_of_none ht]
  exact okIf_of_true _ _ (by obtain h | h := hst <;> simp [hm, h, hok, hseen])

theorem superframeLocked_reads (s : State) (n : Nat) : (superframeLocked s n).flag (Reg.LN_TK_STAT_LOCKED n) = true ∧
    ((superframeLocked s n).tkLane n).sfOk = true ∧ ((superframeLocked s n).tkLane n).sfMiss = 0 ∧
    BitsBut [Reg.LN_TK_STAT_LOCKED n] s (superframeLocked s n) ∧
    { superframeLocked s n with regs := s.regs, cyc := s.cyc, tk := s.tk } = s := by
  have hw : Wrote [(Reg.LN_TK_STAT_LOCKED n, 1)] s (superframeLocked s n) := ((Wrote.refl s).setTk n _).raiseF _
  have hsep : Separate [Reg.LN_TK_STAT_LOCKED n] := by simp [Separate, Field.Fits, Reg.LN_TK_STAT_LOCKED]
  have hlane : (superframeLocked s n).tkLane n = superframeLane (s.tkLane n) := tkLane_setTk_self s n _
  rw [hlane]
  exact ⟨hw.flag hsep (b := true) (by simp), rfl, rfl, hw.bitsBut hsep, rfl⟩

/-! ### Streams sent -/

theorem exec_streamBlockTransmit_of_grant {s : State} {n : Fin 144} (hr : s.slotRuns = true) (hk : s.k = 7) (hm : s.laneMode n = 2)
    (hst : s.laneState n = 6) : exec (.streamBlockTransmit n) s =
      .next (s.setTk n { s.tkLane n with taken := (s.tkLane n).taken ++ takeWords s n s.view }) :=
  (exec_streamBlockTransmit s n).trans (okIf_of_true _ _ (by simp [hr, hk, hm, hst]))

/-! ### Verdicts -/

section
variable (s : State) (n c : Nat)

/-- A stream of a lane at its receiver. -/
def rxStream : TkRxS := (s.tkLane n).rxs.getD c TkRxS.reset

/-- The receive key index of a stream. -/
def rxStreamKey : Nat := rxKeyOf ((s.tkLane n).cfg.scfg.getD c 0)

/-- The last superframe of a stream came whole, with its CRC and, where it is keyed, with a tag (R207). -/
def superframeClean : Bool :=
  let r := rxStream s n c
  !r.prevSpoiled && r.chk == some (crc32 (payloadBytes r.prev)) && (rxStreamKey s n c == 0 || r.tag.isSome)

/-- The tag of the last superframe of a stream is right (R206, R207). -/
abbrev TagRight : Prop :=
  let l := s.tkLane n
  let r := rxStream s n c
  r.tag = some (tag64 (laneKey l (rxStreamKey s n c)) (linkIv l.peerSeed c ((l.rxCw.getD 0 - 1) / 256 - 1)) [] (payloadBytes r.prev))

/-- The receive streams of a lane, with no verdict due on stream c any more. -/
def verdictGiven : List TkRxS := (s.tkLane n).rxs.set c { rxStream s n c with due := false }

/-- VOK presented for a stream (R207). -/
def presentedGood : State :=
  (s.setTk n { s.tkLane n with vok := (s.tkLane n).vok ||| 2 ^ c, rxs := verdictGiven s n c }).incF (Reg.LN_TK_VER_VOK_CNT n)

/-- VBAD presented for a stream without a key (R208). -/
def presentedBad : State :=
  let l := s.tkLane n
  (((s.setTk n { l with vbad := l.vbad ||| 2 ^ c, rxs := verdictGiven s n c, bads := l.bads, badSf := l.badSf || false }).raiseF
    (Reg.LN_TK_STAT_VBAD n)).incF (Reg.LN_TK_VER_VBAD_CNT n)).raiseEv n

theorem presentBad_unkeyed : presentBad s n c false = presentedBad s n c := rfl

theorem presentedBad_reads : ((presentedBad s n c).tkLane n).vbad = (s.tkLane n).vbad ||| 2 ^ c ∧
    (presentedBad s n c).flag (Reg.LN_TK_STAT_VBAD n) = true ∧ (presentedBad s n c).raised = (s.raiseEv n).raised ∧
    (presentedBad s n c).getF (Reg.LN_TK_VER_VBAD_CNT n) = min (s.getF (Reg.LN_TK_VER_VBAD_CNT n) + 1) 65535 ∧
    BitsBut [Reg.LN_TK_STAT_VBAD n, Reg.LN_TK_VER_VBAD_CNT n] s (presentedBad s n c) ∧
    { presentedBad s n c with regs := s.regs, cyc := s.cyc, raised := s.raised, tk := s.tk } = s := by
  have hsep : Separate [Reg.LN_TK_VER_VBAD_CNT n, Reg.LN_TK_STAT_VBAD n] := by
    simp [Separate, Field.Fits, Field.Apart, Reg.LN_TK_VER_VBAD_CNT, Reg.LN_TK_STAT_VBAD, Reg.LN_TK_VER, Reg.LN_TK_STAT]
  have hw : Wrote [(Reg.LN_TK_VER_VBAD_CNT n, min (s.getF (Reg.LN_TK_VER_VBAD_CNT n) + 1) 65535), (Reg.LN_TK_STAT_VBAD n, 1)] s
      (presentedBad s n c) :=
    ((((Wrote.refl s).setTk n _).raiseF (Reg.LN_TK_STAT_VBAD n)).addF 1 hsep (by simp [Reg.LN_TK_VER_VBAD_CNT])).raiseEv n
  exact ⟨congrArg TkLane.vbad (tkLane_setTk_self s n _), hw.flag hsep (b := true) (by simp),
    raiseEv_raised_congr n rfl ((incF_evs _ _).trans (raiseF_evs _ _)) rfl rfl,
    hw.getF hsep (by simp) (by simp [Reg.LN_TK_VER_VBAD_CNT]), bitsBut_mono (hw.bitsBut hsep) (by simp), rfl⟩

theorem presentedGood_reads : ((presentedGood s n c).tkLane n).vok = (s.tkLane n).vok ||| 2 ^ c ∧
    (presentedGood s n c).getF (Reg.LN_TK_VER_VOK_CNT n) = min (s.getF (Reg.LN_TK_VER_VOK_CNT n) + 1) 65535 ∧
    BitsBut [Reg.LN_TK_VER_VOK_CNT n] s (presentedGood s n c) ∧
    { presentedGood s n c with regs := s.regs, cyc := s.cyc, tk := s.tk } = s := by
  have hsep : Separate [Reg.LN_TK_VER_VOK_CNT n] := by simp [Separate, Field.Fits, Reg.LN_TK_VER_VOK_CNT]
  have hw : Wrote [(Reg.LN_TK_VER_VOK_CNT n, min (s.getF (Reg.LN_TK_VER_VOK_CNT n) + 1) 65535)] s (presentedGood s n c) :=
    ((Wrote.refl s).setTk n _).addF 1 hsep (by simp [Reg.LN_TK_VER_VOK_CNT])
  exact ⟨congrArg TkLane.vok (tkLane_setTk_self s n _), hw.getF hsep (by simp) (by simp [Reg.LN_TK_VER_VOK_CNT]), hw.bitsBut hsep, rfl⟩

end

section
variable {s : State} {n : Fin 144} {c : Fin 8} (hm : s.laneMode n = 2) (hst : s.laneState n = 6) (hdue : (rxStream s n c).due = true)
  (hbeat : s.logs = true → s.time.slots = 8 * (rxStream s n c).beat) (hen : rxEnabled ((s.tkLane n).cfg.scfg.getD c.val 0) = true)
include hm hst hdue hbeat hen

/-- The verdict on a superframe that is due at an enabled stream: VBAD, nothing of a stream without a key, VOK, or an integrity halt
(R207, R208). -/
theorem exec_streamVerify_of_due : exec (.streamVerify n c) s =
    if !superframeClean s n c then .next (presentBad s n c (rxStreamKey s n c != 0))
    else if rxStreamKey s n c = 0 then .next (s.setTk n { s.tkLane n with rxs := verdictGiven s n c })
    else if TagRight s n c then .next (presentedGood s n c)
    else .next (integrityHalt s 6 n c 0) := by
  have hnow : (!s.logs || s.time.slots == 8 * (rxStream s n c).beat) = true := by
    cases hl : s.logs with
    | false => rfl
    | true => simp [hbeat hl]
  unfold rxStream at hdue hnow
  rw [exec_streamVerify]
  unfold execStreamVerify
  dsimp only
  rw [if_pos (by rw [hm, hst, hdue, hnow]; rfl), if_neg (by rw [hen]; simp)]
  rfl

theorem exec_streamVerify_of_dirty (hclean : superframeClean s n c = false) (hkey : rxStreamKey s n c = 0) :
    exec (.streamVerify n c) s = .next (presentedBad s n c) := by
  rw [exec_streamVerify_of_due hm hst hdue hbeat hen, if_pos (by simp [hclean]), hkey]
  exact congrArg Host.Outcome.next (presentBad_unkeyed s n c)

variable (hclean : superframeClean s n c = true) (hkey : rxStreamKey s n c ≠ 0)
include hclean hkey

theorem exec_streamVerify_of_right (hright : TagRight s n c) : exec (.streamVerify n c) s = .next (presentedGood s n c) := by
  rw [exec_streamVerify_of_due hm hst hdue hbeat hen, if_neg (by simp [hclean]), if_neg hkey, if_pos hright]

theorem exec_streamVerify_of_wrong (hwrong : ¬ TagRight s n c) : exec (.streamVerify n c) s = .next (integrityHalt s 6 n c 0) := by
  rw [exec_streamVerify_of_due hm hst hdue hbeat hen, if_neg (by simp [hclean]), if_neg hkey, if_neg hwrong]

end

/-! ### The obligation of codewords -/

/-- Settles O22: a codeword sent by the state of its lane, one received in SYMLOCK by what it decodes to, lock and superframe lock by what
the lane enters, both losses by the superframes that they cut, and a verdict by whether the superframe came clean and its tag is right. -/
theorem trunkCodewords : Obligations.TrunkCodewords := by
  unfold Obligations.TrunkCodewords
  intro s n hm l st pam onLine pins idle hsk place timely cut gone lost
  refine ⟨fun hst hlb => ⟨_, exec_codewordSend_of_training hm hlb hst, tkLane_sendCw s n _ _ _, sendCw_frame s n _ _ _⟩,
    fun hst hseed hlb => ⟨_, exec_codewordSend_of_handshake hm hlb hst hseed, tkLane_sendCw s n _ _ _, sendCw_frame s n _ _ _⟩,
    fun hst hlb => ?_, fun syms hst => ?_, fun slip phase hst ht hgood hp => ⟨_, exec_codewordLock_of_placed hm hst ht hgood slip hp,
      laneState_enterHandshake _ n, enterHandshake_slipPlaced_reads (by omega)⟩,
    fun slip phase hst ht hgood hp => exec_codewordLock_of_misplaced hm hst ht hgood slip hp,
    fun hst ht hbad => ⟨_, exec_codewordLockLoss_of_bad hm hst ht hbad, lockLost_lockDropped (by omega) ?_⟩,
    fun hst ht hok hseen => ⟨_, exec_superframeLock_of_seen hm hst ht hok hseen, superframeLocked_reads s n⟩,
    fun hst hok hmiss => ⟨_, exec_superframeLockLoss_of_missed hm hst hok hmiss, lockLost_lockDropped (by omega) ?_⟩,
    fun hr hk hst => exec_streamBlockTransmit_of_grant hr hk hm hst, fun c => ?_⟩
  · intro u b hlast
    have hb : activeBlocks u n (u.tkLane n) = b := rfl
    clear_value b
    obtain ⟨hcw, hscr, hlen⟩ := sendCw_reads u n (codewordMade b.1) b.1.txFec b.2
    exact ⟨_, exec_codewordSend_of_active hm hlb hst hb hlast, hcw, hscr, hlen, sendCw_frame_of n _ _ _ (periodicAcks_frame s n)⟩
  · intro len raw d
    obtain ⟨huncor, hcorr, hsym, hbits⟩ := codewordCounted_cwSearched s n syms
    exact ⟨_, exec_codewordReceive_of_symlock syms hm hst, tkLane_setTk_self _ n _, huncor, hcorr, hsym, hbits, cwSearched_frame s n syms⟩
  · simp [lockLossFields, Separate, Field.Fits, Field.Apart, Reg.LN_BU_STAT_STATE, Reg.LN_TK_STAT_LOCKED, Reg.LN_TK_VER_VBAD_CNT,
      Reg.LN_TK_STAT_VBAD, Reg.LN_TK_STAT_LOCK_LOSS, Reg.LN_BU_STAT, Reg.LN_TK_STAT, Reg.LN_TK_VER]
  · simp [lockLossFields, Separate, Field.Fits, Field.Apart, Reg.LN_BU_STAT_STATE, Reg.LN_TK_STAT_LOCKED, Reg.LN_TK_VER_VBAD_CNT,
      Reg.LN_TK_STAT_VBAD, Reg.LN_BU_STAT_SF_LOSS, Reg.LN_BU_STAT, Reg.LN_TK_STAT, Reg.LN_TK_VER]
  · intro r cfg key bs clean right hst hdue hbeat hen
    exact ⟨fun hclean hkey => ⟨presentedBad s n c, exec_streamVerify_of_dirty hm hst hdue hbeat hen hclean hkey, presentedBad_reads s n c⟩,
      fun hclean hkey hright =>
        ⟨presentedGood s n c, exec_streamVerify_of_right hm hst hdue hbeat hen hclean hkey hright, presentedGood_reads s n c⟩,
      fun hclean hkey hwrong => exec_streamVerify_of_wrong hm hst hdue hbeat hen hclean hkey hwrong⟩

end Sys2Proof.Machine

/-!
SUPPORT. Queues of a trunk lane (10_trunk_links.md R202 to R204, R210, R215, R216): what a packet sent, an acknowledgment, a retry timeout, a
write of a ring pointer, a packet received and a delivery do to the lane and its rings.
-/

namespace Sys2Proof.Machine

/-! ### Packets sent -/

section
variable (s : State) (n : Nat)

/-- A transmit queue of a lane. -/
def txQueue (q : Nat) : TkTxQ := (s.tkLane n).txq.getD q TkTxQ.reset

/-- A transmit queue with its next entry sent under the next SEQ (R203, R204). -/
def entrySent (ring : Nat) (t : TkTxQ) : TkTxQ :=
  { t with send := (t.send + 1) % ring, seq := t.seq + 1, top := max t.top (t.seq + 1) }

/-- The packet that was read stands before the line as its blocks (R202). -/
def packetSent (p : TkPkt) : State :=
  let l := s.tkLane n
  let t := txQueue s n p.q
  s.setTk n { l with ready := none, qOut := packetBlocks l p t.seq, txq := l.txq.set p.q (entrySent (txRing l p.q) t) }

/-- The lane with every unacknowledged packet of a queue to be sent again, from the entry at `head` on (R204). -/
def resentLane (l : TkLane) (q : Nat) (t : TkTxQ) (head : Nat) : TkLane :=
  { l with txq := l.txq.set q { t with send := head % txRing l q, seq := t.acked, wait := 0 }
           reading := if (l.reading.map (fun r => r.q == q)).getD false then none else l.reading
           ready := if (l.ready.map (fun r => r.q == q)).getD false then none else l.ready }

theorem resend_eq (q : Nat) : resend s n q =
    ringFetch (s.setTk n (resentLane (s.tkLane n) q (txQueue s n q) (s.getF (Reg.LN_TK_QTXP_HEAD n q)))) n := rfl

variable {s n}

/-- A packet stays in the packet buffer while its queue sends. -/
theorem dropUnready_of_enabled {p : TkPkt} (hr : (s.tkLane n).ready = some p) (hen : s.flag (Reg.LN_TK_QCFG_TXEN n p.q) = true) :
    dropUnready s (s.tkLane n) n = s.tkLane n := if_neg (by simp [hr, hen])

end

section
variable {s : State} {n : Fin 144}

theorem exec_queuePacketSend_of_ready {p : TkPkt} {lim : Nat} (hm : s.laneMode n = 2) (hst : s.laneState n = 6)
    (hd : s.dbgHalt = false) (hr : (s.tkLane n).ready = some p) (ho : (s.tkLane n).qOut = [])
    (hen : s.flag (Reg.LN_TK_QCFG_TXEN n p.q) = true) (hl : (txQueue s n p.q).limit = some lim) (hseq : (txQueue s n p.q).seq ≤ lim) :
    exec (.queuePacketSend n) s = .next (ringFetch (if (txQueue s n p.q).seq < (txQueue s n p.q).top
      then (packetSent s n p).incF (Reg.LN_TK_CNT_RETRY_CNT n) else packetSent s n p) n) := by
  unfold txQueue at hl hseq
  rw [exec_queuePacketSend]
  unfold execQueuePacketSend
  dsimp only
  rw [dropUnready_of_enabled hr hen, hr]
  exact if_pos ⟨hm, hst, by simp [hd], by simp [ho], hen, by rw [hl]; exact hseq, by rw [hl]; rfl⟩

theorem exec_queueRetryTimeout_of_due {q : Fin 8} (hm : s.laneMode n = 2) (hst : s.laneState n = 6)
    (ht : (txQueue s n q).acked < (txQueue s n q).top)
    (hw : 64 * max 1 (s.getF (Reg.LN_TK_CTRL_RTO n)) ≤ (txQueue s n q).wait) :
    exec (.queueRetryTimeout n q) s = .next (resend s n q) := by
  unfold txQueue at ht hw
  exact (exec_queueRetryTimeout s n q).trans (okIf_of_true _ _ (by simp only [hm, hst, ht, hw, beq_self_eq_true, decide_true, Bool.and_self]))

end

/-! ### Acknowledgments -/

section
variable (s : State) (n a : Nat) (rest : List Nat)

/-- The queue that a QACK names. -/
def qackQueue : Nat := nbits a 10 8

/-- By how many packets a QACK advances ACK: none where it names a packet that was never sent (R204). -/
def ackStep (t : TkTxQ) : Nat :=
  let step := (nbits a 27 12 + 1 + 2 ^ 16 - t.acked % 2 ^ 16) % 2 ^ 16
  if t.acked + step ≤ t.top then step else 0

/-- A transmit queue with ACK and LIMIT of a QACK (R204). -/
def ackedQueue (t : TkTxQ) : TkTxQ :=
  let acked := t.acked + ackStep a t
  let room := (nbits a 43 28 + 1 + 2 ^ 16 - acked % 2 ^ 16) % 2 ^ 16
  { t with acked := acked, limit := if acked + room = 0 then none else some (acked + room - 1)
           wait := if ackStep a t = 0 then t.wait else 0 }

/-- The lane that has taken its first QACK. -/
def ackedLane : TkLane :=
  let l := s.tkLane n
  { l with qacks := rest, txq := l.txq.set (qackQueue a) (ackedQueue a (txQueue s n (qackQueue a))) }

/-- A QACK taken: HEAD advances with ACK (R203, R204). -/
def qackTaken : State :=
  (s.setTk n (ackedLane s n a rest)).setF (Reg.LN_TK_QTXP_HEAD n (qackQueue a))
    ((s.getF (Reg.LN_TK_QTXP_HEAD n (qackQueue a)) + ackStep a (txQueue s n (qackQueue a))) % txRing (s.tkLane n) (qackQueue a))

theorem tkLane_qackTaken : (qackTaken s n a rest).tkLane n = ackedLane s n a rest := tkLane_setTk_self s n _

theorem txQueue_qackTaken (hq : qackQueue a < (s.tkLane n).txq.length) :
    txQueue (qackTaken s n a rest) n (qackQueue a) = ackedQueue a (txQueue s n (qackQueue a)) := by
  unfold txQueue
  rw [tkLane_qackTaken]
  simp [ackedLane, txQueue, List.getD, hq]

variable {s a rest} in
theorem exec_qackReceive_of_cons {n : Fin 144} (h : (s.tkLane n).qacks = a :: rest) : exec (.qackReceive n) s =
    .next (if a.testBit 11 then resend (qackTaken s n a rest) n (qackQueue a) else ringFetch (qackTaken s n a rest) n) := by
  rw [exec_qackReceive]
  unfold execQackReceive
  dsimp only
  rw [h]
  rfl

end

/-! ### Ring pointers -/

section
variable {s : State} {n : Fin 144} {q : Fin 8} (hm : s.laneMode n = 2) (ha : s.alive = true) (v : Word32)
include hm ha

/-- The first write of TAIL since a return to TRAIN starts the queue at HEAD (R215). -/
theorem exec_queueTailWrite_of_stopped (hl : (txQueue s n q).live = false) : exec (.queueTailWrite n q v) s =
    .next (ringFetch ((s.setF (Reg.LN_TK_QTXP_TAIL n q) (v.toNat % 2 ^ 16)).setTk n { s.tkLane n with
      txq := (s.tkLane n).txq.set q { txQueue s n q with live := true, send := s.getF (Reg.LN_TK_QTXP_HEAD n q) } }) n) := by
  have hs : (((s.setF (Reg.LN_TK_QTXP_TAIL n q) (v.toNat % 2 ^ 16)).tkLane n).txq.getD q TkTxQ.reset).live = false := hl
  rw [exec_queueTailWrite]
  unfold execQueueTailWrite queueTailWrite
  dsimp only
  rw [if_pos ha, if_pos hm, if_neg (Bool.eq_false_iff.mp hs)]
  rfl

theorem exec_queueHeadWrite_of_trunk :
    exec (.queueHeadWrite n q v) s = .next (s.setF (Reg.LN_TK_QRXP_HEAD n q) (v.toNat % 2 ^ 16)) := by
  rw [exec_queueHeadWrite]
  unfold execQueueHeadWrite queueHeadWrite
  rw [if_pos ha, if_pos hm]

end

/-! ### Packets received -/

section
variable (s : State) (n : Nat) (p : TkPkt) (rest : List TkPkt)

/-- The next SEQ that receive queue q of a lane accepts. -/
def rxNext (q : Nat) : Nat := ((s.tkLane n).rxq.getD q (0, 0)).1

/-- The next SEQ that receive queue q of a lane delivers. -/
def rxGone (q : Nat) : Nat := ((s.tkLane n).rxq.getD q (0, 0)).2

/-- By how many packets SEQ of a packet lies ahead of the one that its queue accepts, in 16 bits (R204). -/
def rxAhead : Nat := (p.seq + 2 ^ 16 - rxNext s n p.q % 2 ^ 16) % 2 ^ 16

/-- The free entries of the ring of receive queue q, one of which stays empty (R203). -/
def rxRoom (q : Nat) : Nat :=
  let size := rxRing (s.tkLane n) q
  (s.getF (Reg.LN_TK_QRXP_HEAD n q) % size + size - 1 - s.getF (Reg.LN_TK_QRXP_TAIL n q) % size) % size

/-- The lane without the packet that it handles. -/
def packetTaken : State := s.setTk n { s.tkLane n with packets := rest }

/-- The receive key index of the queue of a packet. -/
def packetKey : Nat := rxKeyOf ((s.tkLane n).cfg.qcfg.getD p.q 0)

/-- The payload of a packet as it stands on the line. -/
def packetData : List Nat := (payloadBytes p.words).take p.len

/-- The IV of the packet that its queue accepts next (R206). -/
def packetIv : List Nat := linkIv (s.tkLane n).peerSeed (8 + p.q) (rxNext s n p.q)

/-- A keyed packet whose tag is not that of its payload (R204, R206). -/
abbrev forged : Prop := packetKey s n p ≠ 0 ∧
  tag64 (laneKey (s.tkLane n) (packetKey s n p)) (packetIv s n p) (packetAad p.qst) (packetData p) ≠ p.tag

/-- A packet with its payload in clear (R206). -/
def opened : TkPkt :=
  let key := packetKey s n p
  let plain := if key = 0 then packetData p else gcmCrypt (laneKey (s.tkLane n) key) (packetIv s n p) (packetData p)
  { p with words := (chunks 8 (p.words.length + 1) plain).map leNat }

/-- The ring address of the entry that a packet takes (R203). -/
def packetPlace : Nat :=
  let l := s.tkLane n
  let size := rxRing l p.q
  ringAddr (l.cfg.rxBase.getD p.q 0) ((s.getF (Reg.LN_TK_QRXP_TAIL n p.q) % size + (rxNext s n p.q - rxGone s n p.q)) % size)

/-- A packet in the receive buffer, with the ring writes that it owes (R203). -/
def buffered : TkBuf :=
  { q := p.q, seq := rxNext s n p.q, left := [], err := false,
    todo := packetWrites (packetPlace s n p) (opened s n p) (rxNext s n p.q) }

/-- The lane with a packet accepted. -/
def packetHeld : TkLane :=
  let l := s.tkLane n
  { l with packets := rest, rxq := l.rxq.set p.q (rxNext s n p.q + 1, rxGone s n p.q), buf := l.buf ++ [buffered s n p] }

end

section
variable {s : State} {n : Fin 144} {p : TkPkt} {rest : List TkPkt} (hp : (s.tkLane n).packets = p :: rest)
include hp

theorem exec_queuePacketReceive_of_disabled (hrx : s.flag (Reg.LN_TK_QCFG_RXEN n p.q) = false) :
    exec (.queuePacketReceive n) s = .next (packetTaken s n rest) := by
  rw [exec_queuePacketReceive]
  unfold execQueuePacketReceive
  dsimp only
  rw [hp]
  exact if_pos (by simp [hrx])

variable (hrx : s.flag (Reg.LN_TK_QCFG_RXEN n p.q) = true) (hcfg : rxEnabled ((s.tkLane n).cfg.qcfg.getD p.q 0) = true)
include hrx hcfg

/-- What an enabled queue makes of a packet: the acknowledgment repeated, a NAK, an integrity halt, or the packet held (R204, R210). -/
theorem exec_queuePacketReceive_of_enabled : exec (.queuePacketReceive n) s =
    if !p.bad && decide (2 ^ 15 ≤ rxAhead s n p) then .next (queueAck (packetTaken s n rest) n p.q false)
    else if p.bad || rxAhead s n p != 0 || decide (rxRoom s n p.q ≤ rxNext s n p.q - rxGone s n p.q) ||
        decide (4 ≤ (s.tkLane n).buf.length) || s.dbgHalt then .next (queueAck (packetTaken s n rest) n p.q true)
    else if forged s n p then .next (integrityHalt (packetTaken s n rest) 7 n p.q 0)
    else .next (ringWrites ((packetTaken s n rest).setTk n (packetHeld s n p rest)) n) := by
  rw [exec_queuePacketReceive]
  unfold execQueuePacketReceive
  dsimp only
  rw [hp]
  exact if_neg (by rw [hrx, hcfg]; simp)

theorem exec_queuePacketReceive_of_late (hbad : p.bad = false) (hlate : 2 ^ 15 ≤ rxAhead s n p) :
    exec (.queuePacketReceive n) s = .next (queueAck (packetTaken s n rest) n p.q false) := by
  rw [exec_queuePacketReceive_of_enabled hp hrx hcfg, if_pos (by rw [hbad, decide_eq_true hlate]; rfl)]

theorem exec_queuePacketReceive_of_unfit (h : p.bad = true ∨ 0 < rxAhead s n p ∧ rxAhead s n p < 2 ^ 15) :
    exec (.queuePacketReceive n) s = .next (queueAck (packetTaken s n rest) n p.q true) := by
  rw [exec_queuePacketReceive_of_enabled hp hrx hcfg]
  obtain hbad | ⟨hahead, hnear⟩ := h
  · rw [if_neg (by simp [hbad]), if_pos (by simp [hbad])]
  · rw [if_neg (by rw [decide_eq_false hnear.not_ge, Bool.and_false]; exact Bool.false_ne_true), if_pos (by simp [hahead.ne'])]

/-- A packet in its turn that finds room is held, or halts the device where its tag is wrong (R204, R210). -/
theorem exec_queuePacketReceive_of_fit (hbad : p.bad = false) (hturn : rxAhead s n p = 0)
    (hroom : rxNext s n p.q - rxGone s n p.q < rxRoom s n p.q) (hbuf : (s.tkLane n).buf.length < 4) (hd : s.dbgHalt = false) :
    exec (.queuePacketReceive n) s = if forged s n p then .next (integrityHalt (packetTaken s n rest) 7 n p.q 0)
      else .next (ringWrites ((packetTaken s n rest).setTk n (packetHeld s n p rest)) n) := by
  rw [exec_queuePacketReceive_of_enabled hp hrx hcfg, if_neg (by simp [hturn]), if_neg (by simp [hbad, hturn, hroom, hbuf, hd])]

end

/-! ### Deliveries -/

section
variable (s : State) (n : Fin 144) (q : Fin 8) (i : Nat)

/-- A packet whose ring writes have all been answered: TAIL advances, and a QACK goes out (R203, R204). -/
def delivered : State :=
  let l := s.tkLane n
  queueAck ((s.setTk n { l with buf := l.buf.eraseIdx i, rxq := l.rxq.set q (rxNext s n q, rxGone s n q + 1) }).setF
    (Reg.LN_TK_QRXP_TAIL n q) ((s.getF (Reg.LN_TK_QRXP_TAIL n q) + 1) % rxRing l q)) n q false

variable {s n q i}

theorem exec_queueDeliver_of_written {b : TkBuf} (hi : (s.tkLane n).buf.findIdx? (fun b => b.q == q.val) = some i)
    (hb : (s.tkLane n).buf[i]? = some b) (htodo : b.todo = []) (hleft : b.left = []) (hd : s.dbgHalt = false) (herr : b.err = false) :
    exec (.queueDeliver n q) s =
      .next (ringWrites (if s.flag (Reg.LN_TK_QCFG_IRQ n q) then (delivered s n q i).raiseEach n else delivered s n q i) n) := by
  rw [exec_queueDeliver]
  unfold execQueueDeliver
  dsimp only
  rw [hi]
  dsimp only
  rw [hb]
  dsimp only
  rw [if_neg (by simp [htodo, hleft, hd]), if_neg (Bool.eq_false_iff.mp herr)]
  rfl

end

/-! ### The obligation of queues -/

/-- Settles O23: the packet sent, the acknowledgment, the timeout and the pointers by one equation each, a packet received by what its queue makes
of its SEQ and tag, and the delivery by its ring writes. -/
theorem trunkQueues : Obligations.TrunkQueues := by
  unfold Obligations.TrunkQueues
  intro s n hm l tx again
  refine ⟨fun p lim hst hd hr ho hen hl hseq => exec_queuePacketSend_of_ready hm hst hd hr ho hen hl hseq, fun a rest ha => ?_,
    fun q hst ht hw => exec_queueRetryTimeout_of_due hm hst ht hw, fun q v ha hl => exec_queueTailWrite_of_stopped hm ha v hl,
    fun q v ha => ?_, fun p rest hp => ?_, fun q i b hi hb htodo hleft hd herr => exec_queueDeliver_of_written hi hb htodo hleft hd herr⟩
  · intro q step adv acked room x v head u hq
    rw [exec_qackReceive_of_cons ha, resend_eq, txQueue_qackTaken s n a rest hq, tkLane_qackTaken]
    rfl
  · refine ⟨_, exec_queueHeadWrite_of_trunk hm ha v, (getF_setF_self s _ _ (by simp [Reg.LN_TK_QRXP_HEAD])
      (by simp [Reg.LN_TK_QRXP_HEAD])).trans (Nat.mod_mod _ _), bitsBut_setF (bitsBut_refl _ s) _ _ (by simp) (by simp [Reg.LN_TK_QRXP_HEAD])
      (by simp [Reg.LN_TK_QRXP_HEAD]), rfl⟩
  · intro cfg accept gone ahead size head tail room u key data iv plain opened place buffered held
    refine ⟨exec_queuePacketReceive_of_disabled hp, fun hrx hcfg => ⟨exec_queuePacketReceive_of_late hp hrx hcfg,
      exec_queuePacketReceive_of_unfit hp hrx hcfg, fun hbad hturn hroom hbuf hd => ⟨fun hkey htag => ?_, fun hopen => ?_⟩⟩⟩
    · have hforged : forged s n p := ⟨hkey, htag⟩
      exact (exec_queuePacketReceive_of_fit hp hrx hcfg hbad hturn hroom hbuf hd).trans (if_pos hforged)
    · have hright : ¬ forged s n p := fun h => hopen.elim h.1 h.2
      exact (exec_queuePacketReceive_of_fit hp hrx hcfg hbad hturn hroom hbuf hd).trans (if_neg hright)

end Sys2Proof.Machine

/-!
SUPPORT. Bring-up of a lane (11_lane_bringup_test.md R217 to R220, R232, R233): what a lane moved between its states writes, when
the conditions of R217 and RESTART move it, and what a timeout and a loss of signal record.
-/

namespace Sys2Proof.Machine

/-! ### A lane moved -/

section
variable (s : State) (n st : Nat)

/-- The fields that a lane moved writes: its state, and the lock or alignment that it gives up. -/
def moveFields : List Field := [Reg.LN_BU_STAT_STATE n, Reg.LN_TK_STAT_LOCKED n, Reg.LN_FE_STAT_ALIGNED n]

/-- A lane moved gives up the lock or alignment of its mode, starts its unit afresh, and then changes its state (R215, R218). -/
theorem laneEnter_eq : ∃ f ∈ [Reg.LN_TK_STAT_LOCKED n, Reg.LN_FE_STAT_ALIGNED n], ∃ (tk : Tab TkLane) (fe : Tab FeLane),
    laneEnter s n st = State.laneTo { s.clearF f with tk := tk, fe := fe } n st := by
  unfold laneEnter
  dsimp only
  split
  · refine ⟨Reg.LN_TK_STAT_LOCKED n, by simp, ?_⟩
    split
    case isTrue h => subst h; exact ⟨_, _, rfl⟩
    case isFalse =>
      split
      case isTrue h => subst h; exact ⟨_, _, rfl⟩
      case isFalse => exact ⟨_, _, rfl⟩
  · exact ⟨Reg.LN_FE_STAT_ALIGNED n, by simp, _, _, rfl⟩

theorem bitsBut_laneEnter : BitsBut (moveFields n) s (laneEnter s n st) := by
  obtain ⟨f, hf, tk, fe, h⟩ := laneEnter_eq s n st
  have hmem : f ∈ moveFields n := List.mem_cons_of_mem _ hf
  have hfit : f.Fits := by
    obtain rfl | rfl : f = Reg.LN_TK_STAT_LOCKED n ∨ f = Reg.LN_FE_STAT_ALIGNED n := by simpa using hf
    all_goals simp [Field.Fits, Reg.LN_TK_STAT_LOCKED, Reg.LN_FE_STAT_ALIGNED]
  have hclear : BitsBut (moveFields n) s { s.clearF f with tk := tk, fe := fe } :=
    bitsBut_of_regs (bitsBut_clearF (bitsBut_refl _ s) f hmem hfit.1 hfit.2) rfl
  rw [h]
  exact bitsBut_of_regs (bitsBut_setF hclear (Reg.LN_BU_STAT_STATE n) st (by simp [moveFields]) (by simp [Reg.LN_BU_STAT_STATE])
    (by simp [Reg.LN_BU_STAT_STATE])) rfl

theorem laneState_laneEnter (hst : st < 8) : (laneEnter s n st).laneState n = st := by
  obtain ⟨f, -, tk, fe, h⟩ := laneEnter_eq s n st
  rw [h]
  exact laneState_laneTo _ n hst

@[simp] theorem raised_laneEnter : (laneEnter s n st).raised = s.raised := by
  obtain ⟨f, -, tk, fe, h⟩ := laneEnter_eq s n st
  rw [h]
  rfl

theorem laneEnter_frame : { laneEnter s n st with regs := s.regs, cyc := s.cyc, tk := s.tk, fe := s.fe } = s := by
  obtain ⟨f, -, tk, fe, h⟩ := laneEnter_eq s n st
  rw [h]
  rfl

variable {n} in
/-- The other fields of LN_BU_STAT lie below STATE. -/
theorem apart_move_of_buStat {g : Field} (hreg : g.reg = Reg.LN_BU_STAT n) (hhi : g.hi < 29) : ∀ f ∈ moveFields n, f.Apart g := by
  simp [moveFields, Field.Apart, hreg, hhi, Reg.LN_BU_STAT_STATE, Reg.LN_TK_STAT_LOCKED, Reg.LN_FE_STAT_ALIGNED, Reg.LN_BU_STAT,
    Reg.LN_TK_STAT, Reg.LN_FE_STAT]

variable {n} in
theorem apart_move_of_other {g : Field} (hbu : g.reg ≠ Reg.LN_BU_STAT n) (htk : g.reg ≠ Reg.LN_TK_STAT n) (hfe : g.reg ≠ Reg.LN_FE_STAT n) :
    ∀ f ∈ moveFields n, f.Apart g := by
  simp [moveFields, Field.Apart, Reg.LN_BU_STAT_STATE, Reg.LN_TK_STAT_LOCKED, Reg.LN_FE_STAT_ALIGNED, hbu.symm, htk.symm, hfe.symm]

/-- A field apart from those of the move reads as before it. -/
theorem getF_laneEnter {g : Field} (hg : ∀ f ∈ moveFields n, f.Apart g) : (laneEnter s n st).getF g = s.getF g :=
  getF_of_bitsBut (bitsBut_laneEnter s n st) fun f hf hr => (hg f hf hr)

theorem flag_laneEnter {g : Field} (hg : ∀ f ∈ moveFields n, f.Apart g) : (laneEnter s n st).flag g = s.flag g :=
  flag_of_bitsBut (bitsBut_laneEnter s n st) fun f hf hr => (hg f hf hr)

variable {s n st}

/-- `t` is `s` with lane n in state `st`; beside the move only bits of the fields listed differ. -/
def Moved (fs : List Field) (s : State) (n st : Nat) (t : State) : Prop :=
  t.laneState n = st ∧ BitsBut (fs ++ moveFields n) s t ∧ { t with regs := s.regs, cyc := s.cyc, tk := s.tk, fe := s.fe } = s

/-- What a move after other writes changes. -/
theorem bitsBut_move {fs : List Field} {u : State} (hb : BitsBut fs s u) : BitsBut (fs ++ moveFields n) s (laneEnter u n st) :=
  bitsBut_trans (bitsBut_mono hb fun _ => List.mem_append_left _)
    (bitsBut_mono (bitsBut_laneEnter u n st) fun _ => List.mem_append_right _)

theorem moved_laneEnter {fs : List Field} {u : State} (hst : st < 8) (h : OnlyBits fs s u) : Moved fs s n st (laneEnter u n st) :=
  ⟨laneState_laneEnter u n st hst, bitsBut_move h.1,
    (congrArg (fun x : State => { x with regs := s.regs, cyc := s.cyc, tk := s.tk, fe := s.fe }) (laneEnter_frame u n st)).trans
      (congrArg (fun x : State => { x with tk := s.tk, fe := s.fe }) h.2)⟩

end

/-! ### Where a lane restarts -/

section
variable {s t : State} {n : Nat} {fs : List Field} (h : BitsBut fs s t)
include h

theorem laneMode_of_bitsBut (hf : ∀ f ∈ fs, f.reg ≠ Reg.LQ_MODE (n / 4)) : t.laneMode n = s.laneMode n :=
  getF_of_bitsBut h fun f hm hr => absurd hr (hf f hm)

theorem laneState_of_bitsBut (hf : ∀ f ∈ fs, f.Apart (Reg.LN_BU_STAT_STATE n)) : t.laneState n = s.laneState n :=
  getF_of_bitsBut h fun f hm hr => hf f hm hr

/-- Only LN_TEST_CTRL says whether a pattern is set. -/
theorem patterned_of_bitsBut (hf : ∀ f ∈ fs, f.reg ≠ Reg.LN_TEST_CTRL n) : patterned t n = patterned s n := by
  have htx : t.getF (Reg.LN_TEST_CTRL_TXPAT n) = s.getF (Reg.LN_TEST_CTRL_TXPAT n) :=
    getF_of_bitsBut h fun f hm hr => absurd hr (hf f hm)
  have hrx : t.getF (Reg.LN_TEST_CTRL_RXPAT n) = s.getF (Reg.LN_TEST_CTRL_RXPAT n) :=
    getF_of_bitsBut h fun f hm hr => absurd hr (hf f hm)
  unfold patterned
  rw [htx, hrx]

theorem restartTo_of_bitsBut (hm : ∀ f ∈ fs, f.reg ≠ Reg.LQ_MODE (n / 4)) (hd : ∀ f ∈ fs, f.Apart (Reg.LN_BU_CTRL_DET_EN n)) :
    restartTo t n = restartTo s n := by
  unfold restartTo
  rw [laneMode_of_bitsBut h hm, flag_of_bitsBut h fun f hf hr => hd f hf hr]

end

section
variable {s : State} {n : Nat}

theorem restartTo_lt (s : State) (n : Nat) : restartTo s n < 8 := by
  unfold restartTo
  split <;> omega

/-- Without a pattern a lane restarts in DETECT or TRAIN. -/
theorem laneRestart_of_plain (hp : patterned s n = false) : laneRestart s n = laneEnter s n (restartTo s n) :=
  if_neg (Bool.eq_false_iff.mp hp)

theorem laneReeval_of_held_idle (hc : idleCond s n = true) (h0 : s.laneState n = 0) : laneReeval s n = s := by
  unfold laneReeval
  rw [if_pos hc, if_pos h0]

theorem laneReeval_of_held (hc : idleCond s n = true) (h0 : s.laneState n ≠ 0) : laneReeval s n = laneEnter s n 0 := by
  unfold laneReeval
  rw [if_pos hc, if_neg h0]

theorem laneReeval_of_free_idle (hc : idleCond s n = false) (h0 : s.laneState n = 0) : laneReeval s n = laneRestart s n := by
  unfold laneReeval
  rw [if_neg (Bool.eq_false_iff.mp hc), if_pos h0]

theorem laneReeval_of_free (hc : idleCond s n = false) (h0 : s.laneState n ≠ 0) : laneReeval s n = s := by
  unfold laneReeval
  rw [if_neg (Bool.eq_false_iff.mp hc), if_neg h0]

end

/-- A one-bit field reads as its bit of the register. -/
theorem flag_eq_getLsbD (s : State) {f : Field} (hf : f.hi = f.lo) : s.flag f = (s.reg f.reg).getLsbD f.lo := by
  unfold State.flag State.getF
  rw [hf, Nat.add_sub_cancel_left, pow_one, ← BitVec.testBit_toNat, Nat.testBit_eq_decide_div_mod_eq]
  obtain h | h := Nat.mod_two_eq_zero_or_one ((s.reg f.reg).toNat / 2 ^ f.lo) <;> simp [h]

/-! ### Writes of LN_BU_CTRL -/

section
variable (s : State) (n : Nat) (v : Word32)

/-- LN_BU_CTRL with EN and DET_EN written. -/
def enableStored : State := s.setReg (Reg.LN_BU_CTRL n) (v &&& 0x00000005#32)

theorem onlyBits_enableStored : OnlyBits [wholeReg (Reg.LN_BU_CTRL n)] s (enableStored s n v) := onlyBits_setReg s _ _

theorem laneState_enableStored : (enableStored s n v).laneState n = s.laneState n :=
  getF_setReg_ne s _ _ _ (by simp [Reg.LN_BU_STAT_STATE, Reg.LN_BU_STAT, Reg.LN_BU_CTRL])

theorem laneMode_enableStored : (enableStored s n v).laneMode n = s.laneMode n :=
  getF_setReg_ne s _ _ _ (by simp only [Reg.LQ_MODE_MODE, Reg.LQ_MODE, Reg.LN_BU_CTRL]; omega)

theorem patterned_enableStored : patterned (enableStored s n v) n = patterned s n :=
  patterned_of_bitsBut (onlyBits_enableStored s n v).1 (by simp [wholeReg, Reg.LN_BU_CTRL, Reg.LN_TEST_CTRL])

variable {s n v}

theorem buCtrlWrite_of_idle (h0 : s.laneState n = 0) : buCtrlWrite s n v = laneReeval (enableStored s n v) n := by
  unfold buCtrlWrite
  dsimp only
  rw [if_neg (by simp [h0])]
  rfl

/-- A condition of R217 takes a lane back to IDLE, whatever RESTART says. -/
theorem buCtrlWrite_of_held (h0 : s.laneState n ≠ 0) (hc : idleCond (enableStored s n v) n = true) :
    buCtrlWrite s n v = laneEnter (enableStored s n v) n 0 := by
  have hre : laneReeval (enableStored s n v) n = laneEnter (enableStored s n v) n 0 :=
    laneReeval_of_held hc (by rwa [laneState_enableStored])
  unfold enableStored at hre
  unfold buCtrlWrite
  dsimp only
  rw [hre, if_neg (by simp [laneState_laneEnter])]
  rfl

/-- RESTART acts in every state but IDLE and TEST (R219). -/
theorem buCtrlWrite_of_restart (hv : v.getLsbD 31 = true) (h0 : s.laneState n ≠ 0) (h7 : s.laneState n ≠ 7)
    (hc : idleCond (enableStored s n v) n = false) : buCtrlWrite s n v = laneRestart (enableStored s n v) n := by
  have hst := laneState_enableStored s n v
  have hre : laneReeval (enableStored s n v) n = enableStored s n v := laneReeval_of_free hc (by rwa [hst])
  unfold enableStored at hre hst
  unfold buCtrlWrite
  dsimp only
  rw [hre, if_pos ⟨hv, by rwa [hst], by rwa [hst], h0⟩]
  rfl

/-- RESTART written with the other fields as they stand leaves those. -/
theorem enableStored_restart : enableStored s n (s.reg (Reg.LN_BU_CTRL n) ||| 0x80000000#32) =
    enableStored s n (s.reg (Reg.LN_BU_CTRL n)) := by
  have hmask : 0x80000000#32 &&& 0x00000005#32 = 0#32 := rfl
  unfold enableStored
  rw [BitVec.and_or_distrib_right, hmask, BitVec.or_zero]

theorem detEn_enableStored : (enableStored s n (s.reg (Reg.LN_BU_CTRL n))).flag (Reg.LN_BU_CTRL_DET_EN n) =
    s.flag (Reg.LN_BU_CTRL_DET_EN n) := by
  have hstored : (enableStored s n (s.reg (Reg.LN_BU_CTRL n))).reg (Reg.LN_BU_CTRL_DET_EN n).reg =
      s.reg (Reg.LN_BU_CTRL n) &&& 0x00000005#32 := reg_setReg_self s _ _
  rw [flag_eq_getLsbD _ rfl, flag_eq_getLsbD _ rfl, hstored]
  simp [Reg.LN_BU_CTRL_DET_EN]

end

section
variable {s : State} {n : Fin 144} (ha : s.alive = true)
include ha

theorem exec_laneEnable_of_alive (v : Word32) : exec (.laneEnable n v) s = .next (buCtrlWrite s n v) :=
  (exec_laneEnable s n v).trans (if_pos ha)

theorem exec_laneEnable_of_waiting {v : Word32} (h0 : s.laneState n = 0) (hc : idleCond (enableStored s n v) n = true) :
    exec (.laneEnable n v) s = .next (enableStored s n v) := by
  rw [exec_laneEnable_of_alive ha, buCtrlWrite_of_idle h0, laneReeval_of_held_idle hc ((laneState_enableStored s n v).trans h0)]

theorem exec_laneEnable_of_freed {v : Word32} (hp : patterned s n = false) (h0 : s.laneState n = 0)
    (hc : idleCond (enableStored s n v) n = false) :
    exec (.laneEnable n v) s = .next (laneEnter (enableStored s n v) n (restartTo (enableStored s n v) n)) := by
  rw [exec_laneEnable_of_alive ha, buCtrlWrite_of_idle h0, laneReeval_of_free_idle hc ((laneState_enableStored s n v).trans h0),
    laneRestart_of_plain ((patterned_enableStored s n v).trans hp)]

theorem exec_laneEnable_of_held {v : Word32} (h0 : s.laneState n ≠ 0) (hc : idleCond (enableStored s n v) n = true) :
    exec (.laneEnable n v) s = .next (laneEnter (enableStored s n v) n 0) := by
  rw [exec_laneEnable_of_alive ha, buCtrlWrite_of_held h0 hc]

theorem exec_laneRestart_of_free (hp : patterned s n = false) (hst : 1 ≤ s.laneState n ∧ s.laneState n ≤ 6)
    (hc : idleCond (enableStored s n (s.reg (Reg.LN_BU_CTRL n))) n = false) : exec (.laneRestart n) s =
      .next (laneEnter (enableStored s n (s.reg (Reg.LN_BU_CTRL n))) n (restartTo s n)) := by
  have hv : (s.reg (Reg.LN_BU_CTRL n) ||| 0x80000000#32).getLsbD 31 = true := by simp
  have hto : restartTo (enableStored s n (s.reg (Reg.LN_BU_CTRL n))) n = restartTo s n := by
    unfold restartTo
    rw [laneMode_enableStored, detEn_enableStored]
  have hwrite := buCtrlWrite_of_restart (s := s) (n := n) hv (by omega) (by omega) (by rwa [enableStored_restart])
  rw [enableStored_restart, laneRestart_of_plain ((patterned_enableStored s n _).trans hp), hto] at hwrite
  exact ((exec_laneRestart s n).trans (if_pos ha)).trans (congrArg Host.Outcome.next hwrite)

end

/-! ### Transitions -/

section
variable (s : State) (n : Nat)

/-- A detection attempt over: PARTNER says whether a receiver was found (R220). -/
def attempted (found : Bool) : State := s.putF (Reg.LN_BU_STAT_PARTNER n) found

theorem onlyBits_attempted (found : Bool) : OnlyBits [Reg.LN_BU_STAT_PARTNER n] s (attempted s n found) :=
  ⟨bitsBut_putF (bitsBut_refl _ s) _ _ (by simp) (by simp [Reg.LN_BU_STAT_PARTNER]) (by simp [Reg.LN_BU_STAT_PARTNER]), rfl⟩

theorem partner_attempted (found : Bool) : (attempted s n found).flag (Reg.LN_BU_STAT_PARTNER n) = found :=
  flag_putF s _ found (by simp [Reg.LN_BU_STAT_PARTNER]) (by simp [Reg.LN_BU_STAT_PARTNER])

theorem laneState_attempted (found : Bool) : (attempted s n found).laneState n = s.laneState n :=
  laneState_of_bitsBut (onlyBits_attempted s n found).1
    (by simp [Field.Apart, Reg.LN_BU_STAT_PARTNER, Reg.LN_BU_STAT_STATE])

theorem onlyBits_laneTo (st : Nat) : OnlyBits [Reg.LN_BU_STAT_STATE n] s (s.laneTo n st) :=
  ⟨bitsBut_of_regs (bitsBut_setF (bitsBut_refl _ s) (Reg.LN_BU_STAT_STATE n) st (by simp) (by simp [Reg.LN_BU_STAT_STATE])
    (by simp [Reg.LN_BU_STAT_STATE])) rfl, rfl⟩

/-- A search begun: SYMLOCK with SLIP 0, not aligned (R181). -/
theorem feSymlock_reads : (feSymlock s n).laneState n = 4 ∧ (feSymlock s n).getF (Reg.LN_FE_STAT_SLIP n) = 0 ∧
    (feSymlock s n).flag (Reg.LN_FE_STAT_ALIGNED n) = false ∧
    BitsBut [Reg.LN_BU_STAT_STATE n, Reg.LN_FE_STAT_SLIP n, Reg.LN_FE_STAT_ALIGNED n] s (feSymlock s n) ∧
    { feSymlock s n with regs := s.regs, cyc := s.cyc, fe := s.fe } = s := by
  have hw : Wrote [(Reg.LN_BU_STAT_STATE n, 4), (Reg.LN_FE_STAT_SLIP n, 0), (Reg.LN_FE_STAT_ALIGNED n, 0)] s (feSymlock s n) :=
    ((((Wrote.refl s).setFe n _).setF (Reg.LN_FE_STAT_ALIGNED n) 0).setF (Reg.LN_FE_STAT_SLIP n) 0).laneTo n 4
  have hsep : Separate [Reg.LN_BU_STAT_STATE n, Reg.LN_FE_STAT_SLIP n, Reg.LN_FE_STAT_ALIGNED n] :=
    (separate_alignLossFields n).tail.tail
  exact ⟨hw.getF hsep (by simp) (by simp [Reg.LN_BU_STAT_STATE]), hw.getF hsep (by simp) (by positivity),
    hw.flag hsep (b := false) (by simp), hw.bitsBut hsep, rfl⟩

end

section
variable {s : State} {n : Fin 144}

theorem exec_detectAttempt_of_waiting (hst : s.laneState n = 1) (hc : idleCond s n = false) (found : Bool) :
    exec (.detectAttempt n found) s = .next (if found then laneEnter (attempted s n found) n 2 else attempted s n found) :=
  (exec_detectAttempt s n found).trans (if_pos ⟨hst, by simp [hc]⟩)

theorem exec_detectAttempt_of_found (hst : s.laneState n = 1) (hc : idleCond s n = false) :
    exec (.detectAttempt n true) s = .next (laneEnter (attempted s n true) n 2) := by
  rw [exec_detectAttempt_of_waiting hst hc, if_pos rfl]

theorem exec_detectAttempt_of_missed (hst : s.laneState n = 1) (hc : idleCond s n = false) :
    exec (.detectAttempt n false) s = .next (attempted s n false) := by
  rw [exec_detectAttempt_of_waiting hst hc, if_neg Bool.false_ne_true]

variable (ht : tget (fun _ => none) s.cyc.timed n.val = none)
include ht

theorem exec_trainComplete_of_train (hst : s.laneState n = 2) : exec (.trainComplete n) s = .next (s.laneTo n 3) := by
  rw [exec_trainComplete]
  unfold execTrainComplete
  rw [untimed_of_none ht]
  exact okIf_of_true _ _ (by simp [hst])

theorem exec_bitlockComplete_of_bitlock (hst : s.laneState n = 3) :
    exec (.bitlockComplete n) s = .next (if s.laneMode n = 2 then s.laneTo n 4 else feSymlock s n) := by
  rw [exec_bitlockComplete]
  unfold execBitlockComplete
  dsimp only
  rw [untimed_of_none ht]
  exact okIf_of_true _ _ (by simp [hst])

end

/-! ### Timeouts and loss of signal -/

section
variable (s : State) (n : Nat)

/-- What a timeout records: TMO, the state that it struck, its count (R219), the last field first. -/
def timeoutWrites : List (Field × Nat) :=
  [(Reg.LN_BU_CNT_TMO_CNT n, min (s.getF (Reg.LN_BU_CNT_TMO_CNT n) + 1) (2 ^ 16 - 1)), (Reg.LN_BU_STAT_TMO_STATE n, s.laneState n),
   (Reg.LN_BU_STAT_TMO n, 1)]

/-- A timeout recorded, with event n raised. -/
def struck : State :=
  (((s.raiseF (Reg.LN_BU_STAT_TMO n)).setF (Reg.LN_BU_STAT_TMO_STATE n) (s.laneState n)).incF (Reg.LN_BU_CNT_TMO_CNT n)).raiseEv n

theorem separate_timeoutWrites : Separate ((timeoutWrites s n).map Prod.fst) := by
  simp [timeoutWrites, Separate, Field.Fits, Field.Apart, Reg.LN_BU_CNT_TMO_CNT, Reg.LN_BU_STAT_TMO_STATE, Reg.LN_BU_STAT_TMO,
    Reg.LN_BU_CNT, Reg.LN_BU_STAT]

theorem wrote_struck : Wrote (timeoutWrites s n) s (struck s n) :=
  ((((Wrote.refl s).raiseF (Reg.LN_BU_STAT_TMO n)).setF (Reg.LN_BU_STAT_TMO_STATE n) (s.laneState n)).addF 1
    (separate_timeoutWrites s n) (by simp [Reg.LN_BU_CNT_TMO_CNT])).raiseEv n

theorem bitsBut_struck : BitsBut [Reg.LN_BU_STAT_TMO n, Reg.LN_BU_STAT_TMO_STATE n, Reg.LN_BU_CNT_TMO_CNT n] s (struck s n) :=
  bitsBut_mono ((wrote_struck s n).bitsBut (separate_timeoutWrites s n)) (by simp [timeoutWrites])

theorem raised_struck : (struck s n).raised = (s.raiseEv n).raised :=
  raiseEv_raised_congr n rfl ((incF_evs _ _).trans (raiseF_evs s _)) rfl rfl

/-- A timeout of a lane, with what it undoes kept to the end of the slot. -/
def timedOut : State :=
  let t := laneEnter (struck s n) n (if s.laneState n = 2 then restartTo s n else 2)
  { t with cyc := { t.cyc with timed := tset (fun _ => none) t.cyc.timed n (some (laneUndo s n)) } }

theorem laneTimeout_of_plain {s : State} {n : Nat} (hp : patterned s n = false) :
    laneTimeout s n = laneEnter (struck s n) n (if s.laneState n = 2 then restartTo s n else 2) := by
  have hb := bitsBut_struck s n
  have hplain : patterned (struck s n) n = false := (patterned_of_bitsBut hb (by
    simp [Reg.LN_BU_STAT_TMO, Reg.LN_BU_STAT_TMO_STATE, Reg.LN_BU_CNT_TMO_CNT, Reg.LN_BU_STAT, Reg.LN_BU_CNT, Reg.LN_TEST_CTRL])).trans hp
  have hto : restartTo (struck s n) n = restartTo s n := restartTo_of_bitsBut hb
    (by simp only [Reg.LN_BU_STAT_TMO, Reg.LN_BU_STAT_TMO_STATE, Reg.LN_BU_CNT_TMO_CNT, Reg.LN_BU_STAT, Reg.LN_BU_CNT, Reg.LQ_MODE]; simp; omega)
    (by simp [Field.Apart, Reg.LN_BU_STAT_TMO, Reg.LN_BU_STAT_TMO_STATE, Reg.LN_BU_CNT_TMO_CNT, Reg.LN_BU_CTRL_DET_EN,
      Reg.LN_BU_STAT, Reg.LN_BU_CNT, Reg.LN_BU_CTRL])
  rw [← hto, apply_ite (laneEnter (struck s n) n), ← laneRestart_of_plain hplain]
  rfl

theorem timedOut_frame : { timedOut s n with regs := s.regs, cyc := s.cyc, raised := s.raised, tk := s.tk, fe := s.fe } = s :=
  congrArg (fun x : State => { x with regs := s.regs, cyc := s.cyc, raised := s.raised, tk := s.tk, fe := s.fe })
    (laneEnter_frame (struck s n) n (if s.laneState n = 2 then restartTo s n else 2))

theorem timedOut_reads : (timedOut s n).flag (Reg.LN_BU_STAT_TMO n) = true ∧
    (timedOut s n).getF (Reg.LN_BU_STAT_TMO_STATE n) = s.laneState n ∧
    (timedOut s n).getF (Reg.LN_BU_CNT_TMO_CNT n) = min (s.getF (Reg.LN_BU_CNT_TMO_CNT n) + 1) (2 ^ 16 - 1) ∧
    (timedOut s n).raised = (s.raiseEv n).raised ∧
    (timedOut s n).laneState n = (if s.laneState n = 2 then restartTo s n else 2) ∧
    BitsBut ([Reg.LN_BU_STAT_TMO n, Reg.LN_BU_STAT_TMO_STATE n, Reg.LN_BU_CNT_TMO_CNT n] ++ moveFields n) s (timedOut s n) := by
  have hto : (if s.laneState n = 2 then restartTo s n else 2) < 8 := by
    split
    · exact restartTo_lt s n
    · omega
  have hregs : (timedOut s n).regs = (laneEnter (struck s n) n (if s.laneState n = 2 then restartTo s n else 2)).regs := rfl
  have hraised : (timedOut s n).raised = (laneEnter (struck s n) n (if s.laneState n = 2 then restartTo s n else 2)).raised := rfl
  have hw := wrote_struck s n
  have hsep := separate_timeoutWrites s n
  have hst : s.laneState n < 2 ^ ((Reg.LN_BU_STAT_TMO_STATE n).hi + 1 - (Reg.LN_BU_STAT_TMO_STATE n).lo) := Nat.mod_lt _ (by positivity)
  refine ⟨?_, ?_, ?_, ?_, (getF_of_regs hregs _).trans (laneState_laneEnter _ n _ hto),
    bitsBut_of_regs (bitsBut_move (bitsBut_struck s n)) hregs⟩
  · rw [flag_of_regs hregs, flag_laneEnter _ _ _ (apart_move_of_buStat rfl (by simp [Reg.LN_BU_STAT_TMO]))]
    exact hw.flag hsep (b := true) (by simp [timeoutWrites])
  · rw [getF_of_regs hregs, getF_laneEnter _ _ _ (apart_move_of_buStat rfl (by simp [Reg.LN_BU_STAT_TMO_STATE]))]
    exact hw.getF hsep (by simp [timeoutWrites]) hst
  · rw [getF_of_regs hregs, getF_laneEnter _ _ _ (apart_move_of_other (by simp [Reg.LN_BU_CNT_TMO_CNT, Reg.LN_BU_CNT, Reg.LN_BU_STAT])
      (by simp [Reg.LN_BU_CNT_TMO_CNT, Reg.LN_BU_CNT, Reg.LN_TK_STAT]) (by simp [Reg.LN_BU_CNT_TMO_CNT, Reg.LN_BU_CNT, Reg.LN_FE_STAT]))]
    exact hw.getF hsep (by simp [timeoutWrites]) (by simp [Reg.LN_BU_CNT_TMO_CNT])
  · rw [hraised, raised_laneEnter, raised_struck]

/-- A loss of signal recorded, with event n raised (R218). -/
def signalLost : State := (s.raiseF (Reg.LN_BU_STAT_LOS n)).raiseEv n

theorem bitsBut_signalLost : BitsBut [Reg.LN_BU_STAT_LOS n] s (signalLost s n) :=
  bitsBut_of_regs (bitsBut_raiseF (bitsBut_refl _ s) (Reg.LN_BU_STAT_LOS n) (by simp) (by simp [Reg.LN_BU_STAT_LOS])
    (by simp [Reg.LN_BU_STAT_LOS])) rfl

theorem laneRestart_signalLost {s : State} {n : Nat} (hp : patterned s n = false) :
    laneRestart (signalLost s n) n = laneEnter (signalLost s n) n (restartTo s n) := by
  have hb := bitsBut_signalLost s n
  have hplain : patterned (signalLost s n) n = false :=
    (patterned_of_bitsBut hb (by simp [Reg.LN_BU_STAT_LOS, Reg.LN_BU_STAT, Reg.LN_TEST_CTRL])).trans hp
  have hto : restartTo (signalLost s n) n = restartTo s n := restartTo_of_bitsBut hb
    (by simp only [List.forall_mem_singleton, Reg.LN_BU_STAT_LOS, Reg.LN_BU_STAT, Reg.LQ_MODE]; omega)
    (by simp [Field.Apart, Reg.LN_BU_STAT_LOS, Reg.LN_BU_STAT, Reg.LN_BU_CTRL_DET_EN, Reg.LN_BU_CTRL])
  rw [laneRestart_of_plain hplain, hto]

theorem signalLost_reads {st : Nat} (hst : st < 8) : (laneEnter (signalLost s n) n st).flag (Reg.LN_BU_STAT_LOS n) = true ∧
    (laneEnter (signalLost s n) n st).raised = (s.raiseEv n).raised ∧
    (laneEnter (signalLost s n) n st).laneState n = st ∧
    BitsBut (Reg.LN_BU_STAT_LOS n :: moveFields n) s (laneEnter (signalLost s n) n st) ∧
    { laneEnter (signalLost s n) n st with
      regs := s.regs, cyc := s.cyc, raised := s.raised, tk := s.tk, fe := s.fe } = s := by
  refine ⟨?_, ?_, laneState_laneEnter _ n st hst, bitsBut_move (bitsBut_signalLost s n),
    congrArg (fun x : State => { x with regs := s.regs, cyc := s.cyc, raised := s.raised, tk := s.tk, fe := s.fe })
      (laneEnter_frame (signalLost s n) n st)⟩
  · rw [flag_laneEnter _ _ _ (apart_move_of_buStat rfl (by simp [Reg.LN_BU_STAT_LOS]))]
    exact (flag_raiseEv _ n _).trans (flag_raiseF s _ (by simp [Reg.LN_BU_STAT_LOS]) (by simp [Reg.LN_BU_STAT_LOS]))
  · rw [raised_laneEnter]
    exact raiseEv_raised_congr n rfl (raiseF_evs s _) rfl rfl

end

section
variable {s : State} {n : Fin 144} (hp : patterned s n = false)
include hp

theorem exec_laneStateTimeout_of_due (ht : mayTimeout s n = true) : exec (.laneStateTimeout n) s = .next (timedOut s n) := by
  rw [exec_laneStateTimeout]
  unfold execLaneStateTimeout
  dsimp only
  rw [laneTimeout_of_plain hp]
  exact okIf_of_true _ _ ht

theorem exec_lossOfSignal_of_plain (ht : tget (fun _ => none) s.cyc.timed n.val = none) (h3 : 3 ≤ s.laneState n)
    (h6 : s.laneState n ≤ 6) : exec (.lossOfSignal n) s = .next (laneEnter (signalLost s n) n (restartTo s n)) := by
  rw [exec_lossOfSignal]
  unfold execLossOfSignal
  dsimp only
  rw [untimed_of_none ht, ← laneRestart_signalLost hp]
  exact okIf_of_true _ _ (by simp [h3, h6])

end

/-! ### The obligation of bring-up -/

/-- Settles O24: a write of LN_BU_CTRL by what it stores and whether a condition of R217 then holds, each transition by the state that it
enters, a timeout and a loss of signal by what they record before the lane moves. -/
theorem laneBringUp : Obligations.LaneBringUp := by
  unfold Obligations.LaneBringUp
  intro s n hp st moved first timely
  refine ⟨fun v ha => ?_, fun ha hst => ?_, fun found hst hc => ?_, fun hst ht => ?_, fun hst ht hm => ?_, fun hst ht hm => ?_,
    fun ht => ?_, fun h3 h6 ht => ?_⟩
  · intro u
    have hu : OnlyBits [wholeReg (Reg.LN_BU_CTRL n)] s u := onlyBits_enableStored s n v
    have hto : restartTo (enableStored s n v) n = first u := by
      unfold restartTo
      rw [laneMode_enableStored]
      rfl
    refine ⟨fun h0 hc => exec_laneEnable_of_waiting ha h0 hc, fun h0 hc => ⟨_, exec_laneEnable_of_freed ha hp h0 hc, ?_⟩,
      fun h0 hc => ⟨_, exec_laneEnable_of_held ha h0 hc, moved_laneEnter (by omega) hu⟩⟩
    obtain ⟨hstate, hrest⟩ := moved_laneEnter (n := n) (restartTo_lt (enableStored s n v) n) hu
    exact ⟨hstate.trans hto, hrest⟩
  · exact fun hc => ⟨_, exec_laneRestart_of_free ha hp hst hc, moved_laneEnter (restartTo_lt s n) (onlyBits_enableStored s n _)⟩
  · cases found with
    | false =>
      obtain ⟨hbits, hrest⟩ := onlyBits_attempted s n false
      exact ⟨_, exec_detectAttempt_of_missed hst hc, partner_attempted s n false, (laneState_attempted s n false).trans hst,
        bitsBut_mono hbits (by simp), congrArg (fun x : State => { x with tk := s.tk, fe := s.fe }) hrest⟩
    | true =>
      have hpartner : ∀ f ∈ moveFields n, f.Apart (Reg.LN_BU_STAT_PARTNER n) :=
        apart_move_of_buStat rfl (by simp [Reg.LN_BU_STAT_PARTNER])
      exact ⟨_, exec_detectAttempt_of_found hst hc, (flag_laneEnter _ _ _ hpartner).trans (partner_attempted s n true),
        moved_laneEnter (by omega) (onlyBits_attempted s n true)⟩
  · exact ⟨_, exec_trainComplete_of_train ht hst, laneState_laneTo s n (by omega), onlyBits_laneTo s n 3⟩
  · refine ⟨_, exec_bitlockComplete_of_bitlock ht hst, ?_⟩
    rw [if_pos hm]
    exact ⟨laneState_laneTo s n (by omega), onlyBits_laneTo s n 4⟩
  · refine ⟨_, exec_bitlockComplete_of_bitlock ht hst, ?_⟩
    rw [if_neg hm]
    exact feSymlock_reads s n
  · obtain ⟨htmo, hstate, hcnt, hraised, hto, hbits⟩ := timedOut_reads s n
    exact ⟨_, exec_laneStateTimeout_of_due hp ht, htmo, hstate, hcnt, hraised, hto, hbits, timedOut_frame s n⟩
  · exact ⟨_, exec_lossOfSignal_of_plain hp ht h3 h6, signalLost_reads s n (restartTo_lt s n)⟩

end Sys2Proof.Machine

/-!
SUPPORT. Quad PLL, handshake and wake (11_lane_bringup_test.md R221, R223 to R228): lock and its loss in a quad whose lanes are in IDLE, a
handshake message taken and the entry into ACTIVE, and the wake of the device or of a partner.
-/

namespace Sys2Proof.Machine

/-! ### The quad PLL -/

section
variable {s : State}

/-- Without lock of its quad PLL a lane is held in IDLE (R217). -/
theorem idleCond_of_unlocked {n : Nat} (h : s.flag (Reg.LQ_PLL_STAT_LOCK (n / 4)) = false) : idleCond s n = true := by
  simp [idleCond, h]

/-- A lane that sends a wake pattern is held in IDLE (R217, R228). -/
theorem idleCond_of_sending {n : Nat} (h : s.flag (Reg.LN_WAKE_SENDING n) = true) : idleCond s n = true := by
  simp [idleCond, h]

/-- A quad without lock whose lanes are in IDLE stays as it is. -/
theorem quadReeval_of_unlocked {q : Nat} (hlock : s.flag (Reg.LQ_PLL_STAT_LOCK q) = false)
    (hidle : ∀ l < 4, s.laneState (4 * q + l) = 0) : quadReeval s q = s := by
  have hstay : ∀ l < 4, laneReeval s (4 * q + l) = s := fun l hl =>
    laneReeval_of_held_idle (idleCond_of_unlocked (by rwa [show (4 * q + l) / 4 = q by omega])) (hidle l hl)
  have hfirst : laneReeval s (4 * q) = s := hstay 0 (by omega)
  unfold quadReeval
  simp [List.range_succ, hfirst, hstay 1, hstay 2, hstay 3]

end

section
variable (s : State) (q : Nat)

/-- A loss of lock recorded (R221): LOCK falls, LOSS and the count, event 144 + q. -/
def pllLost : State :=
  (((s.clearF (Reg.LQ_PLL_STAT_LOCK q)).raiseF (Reg.LQ_PLL_STAT_LOSS q)).incF (Reg.LQ_PLL_CNT_RELOCK_CNT q)).raiseEv (144 + q)

/-- What a loss of lock writes, the last field first. -/
def pllLossWrites : List (Field × Nat) :=
  [(Reg.LQ_PLL_CNT_RELOCK_CNT q, min (s.getF (Reg.LQ_PLL_CNT_RELOCK_CNT q) + 1) (2 ^ 16 - 1)), (Reg.LQ_PLL_STAT_LOSS q, 1),
   (Reg.LQ_PLL_STAT_LOCK q, 0)]

theorem separate_pllLossWrites : Separate ((pllLossWrites s q).map Prod.fst) := by
  simp [pllLossWrites, Separate, Field.Fits, Field.Apart, Reg.LQ_PLL_CNT_RELOCK_CNT, Reg.LQ_PLL_STAT_LOSS, Reg.LQ_PLL_STAT_LOCK,
    Reg.LQ_PLL_CNT, Reg.LQ_PLL_STAT]

theorem wrote_pllLost : Wrote (pllLossWrites s q) s (pllLost s q) :=
  ((((Wrote.refl s).setF (Reg.LQ_PLL_STAT_LOCK q) 0).raiseF (Reg.LQ_PLL_STAT_LOSS q)).addF 1 (separate_pllLossWrites s q)
    (by simp [Reg.LQ_PLL_CNT_RELOCK_CNT])).raiseEv (144 + q)

theorem pllLost_reads : (pllLost s q).flag (Reg.LQ_PLL_STAT_LOCK q) = false ∧ (pllLost s q).flag (Reg.LQ_PLL_STAT_LOSS q) = true ∧
    (pllLost s q).getF (Reg.LQ_PLL_CNT_RELOCK_CNT q) = min (s.getF (Reg.LQ_PLL_CNT_RELOCK_CNT q) + 1) (2 ^ 16 - 1) ∧
    OnlyBitsEv [Reg.LQ_PLL_STAT_LOCK q, Reg.LQ_PLL_STAT_LOSS q, Reg.LQ_PLL_CNT_RELOCK_CNT q] (144 + q) s (pllLost s q) := by
  have hw := wrote_pllLost s q
  have hsep := separate_pllLossWrites s q
  exact ⟨hw.flag hsep (b := false) (by simp [pllLossWrites]), hw.flag hsep (b := true) (by simp [pllLossWrites]),
    hw.getF hsep (by simp [pllLossWrites]) (by simp [Reg.LQ_PLL_CNT_RELOCK_CNT]),
    bitsBut_mono (hw.bitsBut hsep) (by simp [pllLossWrites]),
    raiseEv_raised_congr _ rfl ((incF_evs _ _).trans (raiseF_evs _ _)) rfl rfl, by simp [pllLost]⟩

/-- LOCK cleared for a recalibration (R221). -/
theorem onlyBits_unlocked : OnlyBits [Reg.LQ_PLL_STAT_LOCK q] s (s.clearF (Reg.LQ_PLL_STAT_LOCK q)) :=
  ⟨bitsBut_clearF (bitsBut_refl _ s) _ (by simp) (by simp [Reg.LQ_PLL_STAT_LOCK]) (by simp [Reg.LQ_PLL_STAT_LOCK]), rfl⟩

theorem lock_unlocked : (s.clearF (Reg.LQ_PLL_STAT_LOCK q)).flag (Reg.LQ_PLL_STAT_LOCK q) = false :=
  flag_clearF s _ (by simp [Reg.LQ_PLL_STAT_LOCK]) (by simp [Reg.LQ_PLL_STAT_LOCK])

variable {s q}

/-- The registers of a quad PLL are no lane's LN_BU_STAT. -/
theorem idle_of_pllBits {t : State} (h : BitsBut [Reg.LQ_PLL_STAT_LOCK q, Reg.LQ_PLL_STAT_LOSS q, Reg.LQ_PLL_CNT_RELOCK_CNT q] s t)
    (hidle : ∀ l < 4, s.laneState (4 * q + l) = 0) : ∀ l < 4, t.laneState (4 * q + l) = 0 := by
  have hstat : Reg.LQ_PLL_STAT q % 0x1000 = 8 := by simp only [Reg.LQ_PLL_STAT]; omega
  have hcnt : Reg.LQ_PLL_CNT q % 0x1000 = 12 := by simp only [Reg.LQ_PLL_CNT]; omega
  have hlane : ∀ n, Reg.LN_BU_STAT n % 0x1000 = 4 := fun n => by simp only [Reg.LN_BU_STAT]; omega
  refine fun l hl => (laneState_of_bitsBut h fun f hf hr => ?_).trans (hidle l hl)
  have hbu : (Reg.LN_BU_STAT_STATE (4 * q + l)).reg % 0x1000 = 4 := hlane _
  have hreg : f.reg = Reg.LQ_PLL_STAT q ∨ f.reg = Reg.LQ_PLL_CNT q := by
    obtain rfl | rfl | rfl : f = Reg.LQ_PLL_STAT_LOCK q ∨ f = Reg.LQ_PLL_STAT_LOSS q ∨ f = Reg.LQ_PLL_CNT_RELOCK_CNT q := by
      simpa using hf
    · exact .inl rfl
    · exact .inl rfl
    · exact .inr rfl
  omega

end

section
variable {s : State} {q : Fin 36}

theorem exec_quadPllLock_of_free (hrun : pllMayRun s q = true) (hlock : s.flag (Reg.LQ_PLL_STAT_LOCK q) = false) :
    exec (.quadPllLock q ()) s = .next (quadReeval
      { (s.raiseF (Reg.LQ_PLL_STAT_LOCK q)).setF (Reg.LQ_PLL_STAT_CAL_T q) (quadReading s q / 4) with
        pllDue := tset (fun _ => false) s.pllDue q false } q) :=
  (exec_quadPllLock s q ()).trans (if_pos (by rw [hrun, hlock]; rfl))

variable (hlock : s.flag (Reg.LQ_PLL_STAT_LOCK q) = true) (hidle : ∀ l < 4, s.laneState (4 * q.val + l) = 0)
include hlock hidle

theorem exec_quadPllLoss_of_locked : exec (.quadPllLoss q) s = .next (pllLost s q) := by
  obtain ⟨hfall, -, -, hbits, -⟩ := pllLost_reads s q
  have hlose : pllLose s q = quadReeval (pllLost s q) q := if_pos hlock
  rw [exec_quadPllLoss]
  unfold execQuadPllLoss
  rw [hlose, quadReeval_of_unlocked hfall (idle_of_pllBits hbits hidle)]

theorem exec_quadPllRecal_of_due (hdue : tget (fun _ => false) s.pllDue q = true) :
    exec (.quadPllRecal q) s = .next (s.clearF (Reg.LQ_PLL_STAT_LOCK q)) := by
  have hbits := bitsBut_mono (onlyBits_unlocked s q).1 (gs := [Reg.LQ_PLL_STAT_LOCK q, Reg.LQ_PLL_STAT_LOSS q, Reg.LQ_PLL_CNT_RELOCK_CNT q])
    (by simp)
  have hrest : (List.range 4).all (fun l => s.laneState (4 * q.val + l) ≤ 1) = true := by
    rw [List.all_eq_true]
    intro l hl
    simp [hidle l (List.mem_range.mp hl)]
  rw [exec_quadPllRecal]
  unfold execQuadPllRecal
  rw [hdue, hlock, hrest, quadReeval_of_unlocked (lock_unlocked s q) (idle_of_pllBits hbits hidle)]
  exact okIf_of_true _ _ rfl

end

/-! ### The handshake -/

section
variable (s : State) (n : Nat) (m : List Nat)

/-- The lane that accepts a message, with what R224 says of it. -/
def messageLane : TkLane :=
  { s.tkLane n with peer := some m, passed := hskCause s (s.tkLane n) m == 0, peerSeed := m.getD 2 0 / 2 ^ 16, acksSent := 0 }

/-- A message accepted: the lane holds it, and PEER_LANE its lane number (R223). -/
def messageTaken : State :=
  (s.setTk n (messageLane s n m)).setF (Reg.LN_BU_STAT_PEER_LANE n) (nbits (m.getD 1 0) 39 32)

/-- A message accepted and refused: REFUSED, its cause and event n (R224). -/
def messageRefused : State :=
  (((messageTaken s n m).raiseF (Reg.LN_BU_STAT_REFUSED n)).setF (Reg.LN_BU_STAT_REF_CAUSE n) (hskCause s (s.tkLane n) m)).raiseEv n

theorem hskCause_le (l : TkLane) : hskCause s l m ≤ 6 := by
  unfold hskCause
  dsimp only
  split_ifs <;> omega

/-- What a refused message writes, the last field first. -/
def refusalWrites : List (Field × Nat) :=
  [(Reg.LN_BU_STAT_REF_CAUSE n, hskCause s (s.tkLane n) m), (Reg.LN_BU_STAT_REFUSED n, 1),
   (Reg.LN_BU_STAT_PEER_LANE n, nbits (m.getD 1 0) 39 32)]

theorem separate_refusalWrites : Separate ((refusalWrites s n m).map Prod.fst) := by
  simp [refusalWrites, Separate, Field.Fits, Field.Apart, Reg.LN_BU_STAT_REF_CAUSE, Reg.LN_BU_STAT_REFUSED, Reg.LN_BU_STAT_PEER_LANE]

theorem wrote_messageTaken : Wrote [(Reg.LN_BU_STAT_PEER_LANE n, nbits (m.getD 1 0) 39 32)] s (messageTaken s n m) :=
  ((Wrote.refl s).setTk n _).setF _ _

theorem wrote_messageRefused : Wrote (refusalWrites s n m) s (messageRefused s n m) :=
  (((wrote_messageTaken s n m).raiseF (Reg.LN_BU_STAT_REFUSED n)).setF (Reg.LN_BU_STAT_REF_CAUSE n) _).raiseEv n

theorem tkLane_messageTaken : (messageTaken s n m).tkLane n = messageLane s n m := tkLane_setTk_self s n _

theorem peerLane_messageTaken : (messageTaken s n m).getF (Reg.LN_BU_STAT_PEER_LANE n) = nbits (m.getD 1 0) 39 32 :=
  (wrote_messageTaken s n m).getF (separate_refusalWrites s n m).tail.tail (by simp) (nbits_lt _ _ _)

theorem bitsBut_messageTaken : BitsBut [Reg.LN_BU_STAT_PEER_LANE n] s (messageTaken s n m) :=
  (wrote_messageTaken s n m).bitsBut (separate_refusalWrites s n m).tail.tail

theorem messageRefused_reads : (messageRefused s n m).tkLane n = messageLane s n m ∧
    (messageRefused s n m).getF (Reg.LN_BU_STAT_PEER_LANE n) = nbits (m.getD 1 0) 39 32 ∧
    (messageRefused s n m).flag (Reg.LN_BU_STAT_REFUSED n) = true ∧
    (messageRefused s n m).getF (Reg.LN_BU_STAT_REF_CAUSE n) = hskCause s (s.tkLane n) m ∧
    (messageRefused s n m).raised = (s.raiseEv n).raised ∧
    BitsBut [Reg.LN_BU_STAT_PEER_LANE n, Reg.LN_BU_STAT_REFUSED n, Reg.LN_BU_STAT_REF_CAUSE n] s (messageRefused s n m) := by
  have hw := wrote_messageRefused s n m
  have hsep := separate_refusalWrites s n m
  have hcause : hskCause s (s.tkLane n) m < 16 := by
    have := hskCause_le s m (s.tkLane n)
    omega
  refine ⟨tkLane_messageTaken s n m, hw.getF hsep (by simp [refusalWrites]) (nbits_lt _ _ _),
    hw.flag hsep (b := true) (by simp [refusalWrites]), hw.getF hsep (by simp [refusalWrites]) hcause, ?_,
    bitsBut_mono (hw.bitsBut hsep) (by simp [refusalWrites])⟩
  exact raiseEv_raised_congr n rfl (raiseF_evs (messageTaken s n m) (Reg.LN_BU_STAT_REFUSED n)) rfl rfl

/-- The FEC setting that both partners ask for (R225). -/
def agreedFec : Bool := (s.tkLane n).cfg.fec && (((s.tkLane n).peer.getD []).getD 0 0).testBit 33

/-- The codeword with LAST sent (R225). -/
def lastSent : State := sendCw s n (s.tkLane n) true (hskBlocks n (s.tkLane n) true true)

/-- A lane that enters ACTIVE at a FEC setting: its codewords count from the tick of entry. -/
def activeLane (l : TkLane) (fec : Bool) : TkLane :=
  { l with txFec := fec, txCw := 0, actSlot := s.time.slots - s.time.inTick, lag := 0, taken := [] }

/-- Lane n put into ACTIVE at a FEC setting, counted and with event n raised (R218, R225). -/
def activated (l : TkLane) (fec : Bool) : State :=
  ((((s.setTk n l).putF (Reg.LN_TK_STAT_FEC_ON n) fec).laneTo n 6).incF (Reg.LN_BU_CNT_ACT_CNT n)).raiseEv n

/-- What an entry into ACTIVE writes, the last field first. -/
def activeWrites (fec : Bool) : List (Field × Nat) :=
  [(Reg.LN_BU_CNT_ACT_CNT n, min (s.getF (Reg.LN_BU_CNT_ACT_CNT n) + 1) (2 ^ 16 - 1)), (Reg.LN_BU_STAT_STATE n, 6),
   (Reg.LN_TK_STAT_FEC_ON n, fec.toNat)]

theorem separate_activeWrites (fec : Bool) : Separate ((activeWrites s n fec).map Prod.fst) := by
  simp [activeWrites, Separate, Field.Fits, Field.Apart, Reg.LN_BU_CNT_ACT_CNT, Reg.LN_BU_STAT_STATE, Reg.LN_TK_STAT_FEC_ON,
    Reg.LN_BU_CNT, Reg.LN_BU_STAT, Reg.LN_TK_STAT]

variable {s} in
/-- What an entry into ACTIVE after a codeword sent changes. -/
theorem activated_reads {u : State} (hsent : { u with tk := s.tk, laneTest := s.laneTest } = s) (l : TkLane) (fec : Bool) :
    (activated u n l fec).laneState n = 6 ∧ (activated u n l fec).flag (Reg.LN_TK_STAT_FEC_ON n) = fec ∧
    (activated u n l fec).getF (Reg.LN_BU_CNT_ACT_CNT n) = min (s.getF (Reg.LN_BU_CNT_ACT_CNT n) + 1) (2 ^ 16 - 1) ∧
    (activated u n l fec).raised = (s.raiseEv n).raised ∧ (activated u n l fec).tkLane n = l ∧
    BitsBut [Reg.LN_TK_STAT_FEC_ON n, Reg.LN_BU_STAT_STATE n, Reg.LN_BU_CNT_ACT_CNT n] s (activated u n l fec) ∧
    { activated u n l fec with regs := s.regs, cyc := s.cyc, tk := s.tk, laneTest := s.laneTest, raised := s.raised } = s := by
  have hregs : u.regs = s.regs := (congrArg State.regs hsent :)
  have hevs : u.cyc.evs = s.cyc.evs := (congrArg (fun x : State => x.cyc.evs) hsent :)
  have hsep := separate_activeWrites s n fec
  have hw : Wrote (activeWrites s n fec) s (activated u n l fec) :=
    ((((((Wrote.refl s).of_regs hregs).setTk n l).setF (Reg.LN_TK_STAT_FEC_ON n) fec.toNat).laneTo n 6).addF 1 hsep
      (by simp [Reg.LN_BU_CNT_ACT_CNT])).raiseEv n
  exact ⟨hw.getF hsep (by simp [activeWrites]) (by simp [Reg.LN_BU_STAT_STATE]), hw.flag hsep (by simp [activeWrites]),
    hw.getF hsep (by simp [activeWrites]) (by simp [Reg.LN_BU_CNT_ACT_CNT]),
    raiseEv_raised_congr n (congrArg State.raised hsent :) ((incF_evs _ _).trans hevs) (congrArg State.clockOn hsent :)
      (congrArg State.dbgHalt hsent :), tkLane_setTk_self u n l, bitsBut_mono (hw.bitsBut hsep) (by simp [activeWrites]),
    congrArg (fun x : State => { x with regs := s.regs, cyc := s.cyc, raised := s.raised }) hsent⟩

/-- The lane that has sent its last codeword of the handshake, put into ACTIVE. -/
def handshaken : State := activated (lastSent s n) n (activeLane s ((lastSent s n).tkLane n) (agreedFec s n)) (agreedFec s n)

theorem lastSent_frame : { lastSent s n with tk := s.tk, laneTest := s.laneTest } = s := sendCw_frame s n _ true _

theorem lineLen_lastSent : ((lastSent s n).tkLane n).lineLen = cwBits true := by
  obtain ⟨-, -, hlen⟩ := sendCw_reads s n (s.tkLane n) true (hskBlocks n (s.tkLane n) true true)
  exact hlen

end

section
variable {s : State} {n : Fin 144} (hm : s.laneMode n = 2) (hst : s.laneState n = 5)
  (ht : tget (fun _ => none) s.cyc.timed n.val = none)
include hm hst ht

section
variable {m : List Nat} (hmsg : (s.tkLane n).hsk = some m) (htwo : (s.tkLane n).hskTwo = true)
  (hcrc : nbits (m.getD 5 0) 47 16 = crc32 (payloadBytes (m.take 5))) (hver : nbits (m.getD 0 0) 23 16 = 1)
  (hnew : (s.tkLane n).peer ≠ some m)
include hmsg htwo hcrc hver hnew

theorem exec_hskMessage_of_new : exec (.hskMessage n) s =
    if hskCause s (s.tkLane n) m = 0 then .next (messageTaken s n m) else .next (messageRefused s n m) := by
  rw [exec_hskMessage]
  unfold execHskMessage
  rw [untimed_of_none ht]
  dsimp only
  split
  case h_1 hnone => exact absurd (hmsg.symm.trans hnone) (by simp)
  case h_2 m' hm' =>
    obtain rfl : m = m' := Option.some.inj (hmsg.symm.trans hm')
    rw [if_pos (by simp only [hm, hst, htwo, hcrc, hver, bne_iff_ne.mpr hnew, beq_self_eq_true, Bool.and_self])]
    rfl

theorem exec_hskMessage_of_passed (hc : hskCause s (s.tkLane n) m = 0) : exec (.hskMessage n) s = .next (messageTaken s n m) := by
  rw [exec_hskMessage_of_new hm hst ht hmsg htwo hcrc hver hnew, if_pos hc]

theorem exec_hskMessage_of_refused (hc : hskCause s (s.tkLane n) m ≠ 0) : exec (.hskMessage n) s = .next (messageRefused s n m) := by
  rw [exec_hskMessage_of_new hm hst ht hmsg htwo hcrc hver hnew, if_neg hc]

end

theorem exec_handshakeExit_of_acked (hpass : (s.tkLane n).passed = true) (hacks : 2 ≤ (s.tkLane n).acksSent)
    (hseen : (s.tkLane n).ackSeen = true) (hseed : (s.tkLane n).seed.isSome = true) :
    exec (.handshakeExit n) s = .next (handshaken s n) := by
  rw [exec_handshakeExit]
  unfold execHandshakeExit
  dsimp only
  rw [untimed_of_none ht, if_pos (by simp [hm, hst, hpass, hacks, hseen, hseed])]
  rfl

end

/-! ### Wake -/

section
variable (s : State) (n : Nat)

/-- The device woken by a lane: SEEN, the cause latched, event n (R227). -/
def laneWoken : State := { s.raiseF (Reg.LN_WAKE_SEEN n) with wakes := 1 }.raiseEv n

theorem laneWoken_reads : (laneWoken s n).flag (Reg.LN_WAKE_SEEN n) = true ∧ (laneWoken s n).wakes = 1 ∧
    (laneWoken s n).raised = (s.raiseEv n).raised ∧ BitsBut [Reg.LN_WAKE_SEEN n] s (laneWoken s n) ∧
    { laneWoken s n with regs := s.regs, cyc := s.cyc, wakes := s.wakes, raised := s.raised } = s := by
  have hw : Wrote [(Reg.LN_WAKE_SEEN n, 1)] s (laneWoken s n) := ((Wrote.refl s).raiseF _).of_regs rfl
  have hsep : Separate [Reg.LN_WAKE_SEEN n] := by simp [Separate, Field.Fits, Reg.LN_WAKE_SEEN]
  exact ⟨hw.flag hsep (b := true) (by simp), rfl, raiseEv_raised_congr n rfl (raiseF_evs s _) rfl rfl, hw.bitsBut hsep, rfl⟩

/-- A field written with what it holds changes nothing. -/
theorem onlyBits_setF_held (s : State) {f : Field} {v : Nat} (hf : f.Fits) (hv : v % 2 ^ (f.hi + 1 - f.lo) = s.getF f) :
    OnlyBits [] s (s.setF f v) := by
  refine ⟨fun o i _ => ?_, rfl⟩
  by_cases ho : o = f.reg
  · subst ho
    rw [reg_setF_self]
    by_cases hi : f.lo ≤ i ∧ i ≤ f.hi
    · have hbit := congrArg (Nat.testBit · (i - f.lo)) hv
      simp only [Nat.testBit_mod_two_pow, State.getF, Nat.testBit_div_two_pow, Nat.sub_add_cancel hi.1] at hbit
      have hnew := putBits_testBit (s.reg f.reg) f.hi f.lo v i hf.1 hf.2
      rw [if_pos hi] at hnew
      rw [decide_eq_true (by omega : i - f.lo < f.hi + 1 - f.lo), Bool.true_and, Bool.true_and] at hbit
      exact hnew.trans hbit
    · have hold := putBits_testBit (s.reg f.reg) f.hi f.lo v i hf.1 hf.2
      rw [if_neg hi] at hold
      exact hold
  · rw [reg_setF_ne s f v o ho]

theorem onlyBits_raiseF (s : State) {f : Field} (hf : f.Fits) : OnlyBits [f] s (s.raiseF f) :=
  ⟨bitsBut_raiseF (bitsBut_refl _ s) f (by simp) hf.1 hf.2, rfl⟩

/-- A W1C write of no bit changes nothing. -/
theorem onlyBits_w1c_zero (s : State) (o : Nat) : OnlyBits [] s (s.w1c o 0#32) := by
  have hkeep : s.reg o &&& 4294967295#32 = s.reg o := BitVec.and_allOnes
  have hw : s.w1c o 0#32 = s.setReg o (s.reg o) := by simp [State.w1c, hkeep]
  rw [hw]
  refine ⟨fun o' i _ => ?_, rfl⟩
  by_cases ho : o' = o
  · subst ho
    rw [reg_setReg_self]
  · rw [reg_setReg_ne s o o' _ ho]

/-- What a write of SEND writes: CLASS and EN as they stand, and SENDING. -/
def sendWord : Word32 := (s.reg (Reg.LN_WAKE n) &&& 0x00000003#32) ||| 0x80000000#32

/-- LN_WAKE with the access types of that write applied. -/
def wakeStored : State :=
  ((s.setF (Reg.LN_WAKE_CLASS n) ((sendWord s n).toNat / 2 % 2)).setF (Reg.LN_WAKE_EN n) ((sendWord s n).toNat % 2)).w1c (Reg.LN_WAKE n)
    (sendWord s n &&& 0x00000004#32)

/-- CLASS and EN are written as they stand. -/
theorem sendWord_bit {i : Nat} (hi : i < 2) :
    (sendWord s n).toNat / 2 ^ i % 2 = (s.reg (Reg.LN_WAKE n)).toNat / 2 ^ i % 2 := by
  have hbit : (sendWord s n).getLsbD i = (s.reg (Reg.LN_WAKE n)).getLsbD i := by
    obtain rfl | rfl : i = 0 ∨ i = 1 := by omega
    all_goals simp [sendWord]
  rw [← Nat.toNat_testBit, ← Nat.toNat_testBit, BitVec.testBit_toNat, BitVec.testBit_toNat, hbit]

theorem sendWord_seen : sendWord s n &&& 0x00000004#32 = 0#32 := by
  have hkept : 0x00000003#32 &&& 0x00000004#32 = 0#32 := rfl
  have hsend : 0x80000000#32 &&& 0x00000004#32 = 0#32 := rfl
  unfold sendWord
  rw [BitVec.and_or_distrib_right, BitVec.and_assoc, hkept, hsend, BitVec.and_zero, BitVec.or_zero]

theorem onlyBits_wakeStored : OnlyBits [] s (wakeStored s n) := by
  have hclass : OnlyBits [] s (s.setF (Reg.LN_WAKE_CLASS n) ((sendWord s n).toNat / 2 % 2)) :=
    onlyBits_setF_held s (by simp [Field.Fits, Reg.LN_WAKE_CLASS]) ((Nat.mod_mod _ _).trans (sendWord_bit s n (i := 1) (by omega)))
  have hen : OnlyBits [] (s.setF (Reg.LN_WAKE_CLASS n) ((sendWord s n).toNat / 2 % 2))
      ((s.setF (Reg.LN_WAKE_CLASS n) ((sendWord s n).toNat / 2 % 2)).setF (Reg.LN_WAKE_EN n) ((sendWord s n).toNat % 2)) := by
    refine onlyBits_setF_held _ (by simp [Field.Fits, Reg.LN_WAKE_EN]) ?_
    rw [getF_of_bitsBut hclass.1 (by simp)]
    have hbit := sendWord_bit s n (i := 0) (by omega)
    rw [pow_zero, Nat.div_one] at hbit
    exact (Nat.mod_mod _ _).trans hbit
  unfold wakeStored
  rw [sendWord_seen]
  exact onlyBits_trans (onlyBits_trans hclass hen) (onlyBits_w1c_zero _ _)

/-- A lane that begins to send a wake pattern (R228). -/
def wakeSending : State := (wakeStored s n).raiseF (Reg.LN_WAKE_SENDING n)

theorem onlyBits_wakeSending : OnlyBits [Reg.LN_WAKE_SENDING n] s (wakeSending s n) := by
  obtain ⟨hbits, hrest⟩ := onlyBits_wakeStored s n
  exact onlyBits_trans ⟨bitsBut_mono hbits (by simp), hrest⟩
    (onlyBits_raiseF (wakeStored s n) (by simp [Field.Fits, Reg.LN_WAKE_SENDING]))

theorem sending_wakeSending : (wakeSending s n).flag (Reg.LN_WAKE_SENDING n) = true :=
  flag_raiseF _ _ (by simp [Reg.LN_WAKE_SENDING]) (by simp [Reg.LN_WAKE_SENDING])

variable {s n} in
/-- A write of SEND begins a pattern in a lane in IDLE, which stays there for it. -/
theorem wakeWrite_sendWord (hrun : s.phase = .run) (hoff : s.flag (Reg.LN_WAKE_SENDING n) = false) (h0 : s.laneState n = 0) :
    wakeWrite s n (sendWord s n) = wakeSending s n := by
  obtain ⟨hbits, hrest⟩ := onlyBits_wakeStored s n
  have hphase : (wakeStored s n).phase = .run := ((congrArg State.phase hrest :)).trans hrun
  have hflag : (wakeStored s n).flag (Reg.LN_WAKE_SENDING n) = false := (flag_of_bitsBut hbits (by simp)).trans hoff
  have hidle : (wakeStored s n).laneState n = 0 := (laneState_of_bitsBut hbits (by simp)).trans h0
  have hsent : (wakeSending s n).laneState n = 0 := (laneState_of_bitsBut (onlyBits_wakeSending s n).1
    (by simp [Field.Apart, Reg.LN_WAKE_SENDING, Reg.LN_WAKE, Reg.LN_BU_STAT_STATE, Reg.LN_BU_STAT])).trans h0
  have hsend : (sendWord s n).getLsbD 31 = true := by simp [sendWord]
  have hwrite : wakeWrite s n (sendWord s n) = if (sendWord s n).getLsbD 31 && (wakeStored s n).phase == .run &&
      !(wakeStored s n).flag (Reg.LN_WAKE_SENDING n) && (wakeStored s n).laneState n != 7
      then laneReeval (wakeSending s n) n else wakeStored s n := rfl
  rw [hwrite, if_pos (by rw [hsend, hphase, hflag, hidle]; rfl),
    laneReeval_of_held_idle (idleCond_of_sending (sending_wakeSending s n)) hsent]

end

section
variable {s : State} {n : Fin 144}

theorem exec_laneWake_of_watched {pattern : Bool} (hph : s.phase = .hold ∨ s.phase = .keep ∨ (s.aon.entry = 2 ∧ s.aon.mode ≠ 3))
    (hw : s.wakes = 0) (hen : s.flag (Reg.LN_WAKE_EN n) = true) (hdev : s.flag Reg.PWR_WAKE_LANE_EN = true)
    (hpat : pattern = true ∨ s.flag (Reg.LN_WAKE_CLASS n) = false) : exec (.laneWake n pattern) s = .next (laneWoken s n) := by
  have hasleep : (s.phase == .hold || s.phase == .keep || (s.aon.entry == 2 && s.aon.mode != 3)) = true := by
    obtain h | h | ⟨h, hmode⟩ := hph
    · simp [h]
    · simp [h]
    · simp [h, hmode]
  have hclass : (pattern || !s.flag (Reg.LN_WAKE_CLASS n)) = true := by
    obtain h | h := hpat <;> simp [h]
  refine (exec_laneWake s n pattern).trans (okIf_of_true _ _ ?_)
  rw [hasleep, hen, hdev, hclass, hw]
  rfl

theorem exec_wakeSend_of_idle (ha : s.alive = true) (hrun : s.phase = .run) (hoff : s.flag (Reg.LN_WAKE_SENDING n) = false)
    (h0 : s.laneState n = 0) : exec (.wakeSend n) s = .next (wakeSending s n) := by
  rw [← wakeWrite_sendWord hrun hoff h0]
  exact (exec_wakeSend s n).trans (if_pos ha)

end

/-! ### The obligation of PLL, handshake and wake -/

/-- Settles O25: the PLL by lock, loss and recalibration, a message by whether R224 names a cause, the entry into ACTIVE by what it writes
after the last codeword, and wake by the bits of LN_WAKE. -/
theorem pllHandshakeAndWake : Obligations.PllHandshakeAndWake := by
  unfold Obligations.PllHandshakeAndWake
  intro s
  refine ⟨fun q hrun hlock => exec_quadPllLock_of_free hrun hlock,
    fun q hlock hidle => ⟨_, exec_quadPllLoss_of_locked hlock hidle, pllLost_reads s q⟩,
    fun q hdue hlock hidle => ⟨_, exec_quadPllRecal_of_due hlock hidle hdue, lock_unlocked s q, onlyBits_unlocked s q⟩,
    fun n hm hst ht => ⟨fun m hmsg htwo hcrc hver hnew => ?_, fun hpass hacks hseen hseed => ?_⟩,
    fun n pattern hph hw hen hdev hpat => ⟨_, exec_laneWake_of_watched hph hw hen hdev hpat, laneWoken_reads s n⟩,
    fun n ha hrun hoff h0 => ⟨_, exec_wakeSend_of_idle ha hrun hoff h0, sending_wakeSending s n, onlyBits_wakeSending s n⟩,
    fun n hsend => (exec_wakeSendEnd s n).trans (okIf_of_true _ _ hsend)⟩
  · intro cause
    by_cases hc : cause = 0
    · exact ⟨_, exec_hskMessage_of_passed hm hst ht hmsg htwo hcrc hver hnew hc, tkLane_messageTaken s n m, peerLane_messageTaken s n m,
        fun _ => ⟨rfl, bitsBut_messageTaken s n m⟩, fun h => absurd hc h, rfl⟩
    · obtain ⟨hlane, hpeer, href, hcause, hraised, hbits⟩ := messageRefused_reads s n m
      exact ⟨_, exec_hskMessage_of_refused hm hst ht hmsg htwo hcrc hver hnew hc, hlane, hpeer, fun h => absurd h hc,
        fun _ => ⟨href, hcause, hraised, hbits⟩, rfl⟩
  · intro fec
    obtain ⟨hstate, hfec, hcnt, hraised, hlane, hbits, hrest⟩ :=
      activated_reads n (lastSent_frame s n) (activeLane s ((lastSent s n).tkLane n) (agreedFec s n)) (agreedFec s n)
    refine ⟨_, exec_handshakeExit_of_acked hm hst ht hpass hacks hseen hseed, hstate, hfec, hcnt, hraised, ?_⟩
    rw [show (handshaken s n).tkLane n = _ from hlane]
    exact ⟨rfl, rfl, rfl, rfl, rfl, lineLen_lastSent s n, hbits, hrest⟩

end Sys2Proof.Machine

/-!
SUPPORT. Test features of a lane (11_lane_bringup_test.md R219, R229 to R231, R233): the writes of LN_TEST_CTRL, injection, the checker of a
pattern and the read of its error count.
-/

namespace Sys2Proof.Machine

/-! ### The test state of a lane -/

@[simp] theorem test_setTest_self (s : State) (n : Nat) (t : LaneTest) : (s.setTest n t).test n = t := tget_tset_self _ _ _ _

theorem test_of_laneTest {s t : State} (h : t.laneTest = s.laneTest) (n : Nat) : t.test n = s.test n := by
  unfold State.test
  rw [h]

/-- A checker that starts afresh. -/
def freshChecker (t : LaneTest) : LaneTest := { t with run := 0, cmp := false, win := 0, errs := 0, lost := false, chk := 0 }

section
variable (s : State) (n : Nat)

theorem sync_checkerReset : (checkerReset s n).flag (Reg.LN_TEST_STAT_SYNC n) = false :=
  (flag_of_regs rfl _).trans (flag_clearF s _ (by simp [Reg.LN_TEST_STAT_SYNC]) (by simp [Reg.LN_TEST_STAT_SYNC]))

theorem test_checkerReset : (checkerReset s n).test n = freshChecker (s.test n) := test_setTest_self _ n _

theorem bitsBut_checkerReset : BitsBut [Reg.LN_TEST_STAT_SYNC n] s (checkerReset s n) :=
  bitsBut_of_regs (bitsBut_clearF (bitsBut_refl _ s) (Reg.LN_TEST_STAT_SYNC n) (by simp) (by simp [Reg.LN_TEST_STAT_SYNC])
    (by simp [Reg.LN_TEST_STAT_SYNC])) rfl

theorem checkerReset_frame : { checkerReset s n with regs := s.regs, laneTest := s.laneTest } = s := rfl

variable {s n}

/-- What an entry into TEST after other writes changes. -/
theorem enterTest_reads {fs : List Field} {u : State} (h : OnlyBits fs s u) : (enterTest u n).laneState n = 7 ∧
    (enterTest u n).flag (Reg.LN_TEST_STAT_SYNC n) = false ∧ (enterTest u n).test n = freshChecker (s.test n) ∧
    BitsBut (fs ++ [Reg.LN_TEST_STAT_SYNC n] ++ moveFields n) s (enterTest u n) ∧
    { enterTest u n with regs := s.regs, cyc := s.cyc, tk := s.tk, fe := s.fe, laneTest := s.laneTest } = s := by
  obtain ⟨hstate, hbits, hrest⟩ := moved_laneEnter (n := n) (st := 7) (by omega) h
  have hreset := bitsBut_checkerReset (laneEnter u n 7) n
  have htest : (laneEnter u n 7).test n = s.test n := test_of_laneTest (congrArg State.laneTest hrest :) n
  refine ⟨(laneState_of_bitsBut hreset ?_).trans hstate, sync_checkerReset _ n, ?_, ?_, ?_⟩
  · simp [Field.Apart, Reg.LN_TEST_STAT_SYNC, Reg.LN_TEST_STAT, Reg.LN_BU_STAT_STATE, Reg.LN_BU_STAT]
  · rw [← htest]
    exact test_checkerReset (laneEnter u n 7) n
  · exact bitsBut_trans (bitsBut_mono hbits fun f hf => by simp only [List.mem_append] at hf ⊢; tauto) (bitsBut_mono hreset (by simp))
  · exact (congrArg (fun x : State => { x with regs := s.regs, cyc := s.cyc, tk := s.tk, fe := s.fe, laneTest := s.laneTest })
      (checkerReset_frame (laneEnter u n 7) n)).trans (congrArg (fun x : State => { x with laneTest := s.laneTest }) hrest)

end

/-! ### Writes of LN_TEST_CTRL -/

section
variable (s : State) (n : Nat) (v : Word32)

/-- LN_TEST_CTRL with its fields written. -/
def testStored : State := s.setReg (Reg.LN_TEST_CTRL n) (v &&& 0x00FFFFFF#32)

theorem onlyBits_testStored : OnlyBits [wholeReg (Reg.LN_TEST_CTRL n)] s (testStored s n v) := onlyBits_setReg s _ _

variable {s n v}

/-- A write of LN_TEST_CTRL leaves where a lane restarts. -/
theorem restartTo_of_testBits {fs : List Field} {u : State} (h : BitsBut fs s u) (hf : ∀ f ∈ fs, f.reg = Reg.LN_TEST_CTRL n) :
    restartTo u n = restartTo s n := by
  have hmode : Reg.LN_TEST_CTRL n ≠ Reg.LQ_MODE (n / 4) := by
    simp only [Reg.LN_TEST_CTRL, Reg.LQ_MODE]
    omega
  have hctrl : Reg.LN_TEST_CTRL n ≠ Reg.LN_BU_CTRL n := by simp [Reg.LN_TEST_CTRL, Reg.LN_BU_CTRL]
  exact restartTo_of_bitsBut h (fun f hm hr => hmode ((hf f hm).symm.trans hr)) fun f hm hr => absurd ((hf f hm).symm.trans hr) hctrl

theorem laneState_testStored : (testStored s n v).laneState n = s.laneState n :=
  getF_setReg_ne s _ _ _ (by simp [Reg.LN_BU_STAT_STATE, Reg.LN_BU_STAT, Reg.LN_TEST_CTRL])

/-- A write of LN_TEST_CTRL that injects nothing, by what it leaves of the patterns and of LB (R219, R229, R231). -/
theorem testCtrlWrite_of_quiet (h31 : v.getLsbD 31 = false) (h30 : v.getLsbD 30 = false) : testCtrlWrite s n v =
    if s.laneState n = 0 then testStored s n v
    else if patterned (testStored s n v) n then
      if s.laneState n ≠ 7 ∨ (testStored s n v).getF (Reg.LN_TEST_CTRL_LB n) ≠ s.getF (Reg.LN_TEST_CTRL_LB n)
      then enterTest (testStored s n v) n
      else if (testStored s n v).getF (Reg.LN_TEST_CTRL_RXPAT n) ≠ s.getF (Reg.LN_TEST_CTRL_RXPAT n) then checkerReset (testStored s n v) n
      else testStored s n v
    else if patterned s n || (testStored s n v).getF (Reg.LN_TEST_CTRL_LB n) != s.getF (Reg.LN_TEST_CTRL_LB n)
      then laneRestart (testStored s n v) n
    else testStored s n v := by
  have hst : (testStored s n v).laneState n = s.laneState n := laneState_testStored
  rw [← hst]
  unfold testCtrlWrite
  dsimp only
  rw [if_neg (Bool.eq_false_iff.mp h30), if_neg (Bool.eq_false_iff.mp h31)]
  rfl

end

section
variable {s : State} {n : Fin 144} {v : Word32} (ha : s.alive = true) (h31 : v.getLsbD 31 = false) (h30 : v.getLsbD 30 = false)
include ha h31 h30

theorem exec_testPatternWrite_of_idle (h0 : s.laneState n = 0) : exec (.testPatternWrite n v) s = .next (testStored s n v) := by
  refine ((exec_testPatternWrite s n v).trans (if_pos ha)).trans (congrArg Host.Outcome.next ?_)
  rw [testCtrlWrite_of_quiet h31 h30, if_pos h0]

section
variable (hp : patterned (testStored s n v) n = true)
include hp

theorem exec_testPatternWrite_of_entry (h0 : s.laneState n ≠ 0)
    (h : s.laneState n ≠ 7 ∨ (testStored s n v).getF (Reg.LN_TEST_CTRL_LB n) ≠ s.getF (Reg.LN_TEST_CTRL_LB n)) :
    exec (.testPatternWrite n v) s = .next (enterTest (testStored s n v) n) := by
  refine ((exec_testPatternWrite s n v).trans (if_pos ha)).trans (congrArg Host.Outcome.next ?_)
  rw [testCtrlWrite_of_quiet h31 h30, if_neg h0, if_pos hp, if_pos h]

variable (h7 : s.laneState n = 7) (hlb : (testStored s n v).getF (Reg.LN_TEST_CTRL_LB n) = s.getF (Reg.LN_TEST_CTRL_LB n))
include h7 hlb

theorem exec_testPatternWrite_of_same
    (hrx : (testStored s n v).getF (Reg.LN_TEST_CTRL_RXPAT n) = s.getF (Reg.LN_TEST_CTRL_RXPAT n)) :
    exec (.testPatternWrite n v) s = .next (testStored s n v) := by
  refine ((exec_testPatternWrite s n v).trans (if_pos ha)).trans (congrArg Host.Outcome.next ?_)
  rw [testCtrlWrite_of_quiet h31 h30, if_neg (by omega), if_pos hp, if_neg (by simp [h7, hlb]), if_neg (by simp [hrx])]

theorem exec_testPatternWrite_of_changed
    (hrx : (testStored s n v).getF (Reg.LN_TEST_CTRL_RXPAT n) ≠ s.getF (Reg.LN_TEST_CTRL_RXPAT n)) :
    exec (.testPatternWrite n v) s = .next (checkerReset (testStored s n v) n) := by
  refine ((exec_testPatternWrite s n v).trans (if_pos ha)).trans (congrArg Host.Outcome.next ?_)
  rw [testCtrlWrite_of_quiet h31 h30, if_neg (by omega), if_pos hp, if_neg (by simp [h7, hlb]), if_pos hrx]

end

variable (h0 : s.laneState n ≠ 0) (hp : patterned (testStored s n v) n = false)
include h0 hp

theorem exec_testPatternWrite_of_restart
    (h : patterned s n = true ∨ (testStored s n v).getF (Reg.LN_TEST_CTRL_LB n) ≠ s.getF (Reg.LN_TEST_CTRL_LB n)) :
    exec (.testPatternWrite n v) s = .next (laneEnter (testStored s n v) n (restartTo s n)) := by
  refine ((exec_testPatternWrite s n v).trans (if_pos ha)).trans (congrArg Host.Outcome.next ?_)
  rw [testCtrlWrite_of_quiet h31 h30, if_neg h0, if_neg (by simp [hp]), if_pos (by simpa using h), laneRestart_of_plain hp,
    restartTo_of_testBits (onlyBits_testStored s n v).1 (by simp [wholeReg])]

theorem exec_testPatternWrite_of_plain (hq : patterned s n = false)
    (hlb : (testStored s n v).getF (Reg.LN_TEST_CTRL_LB n) = s.getF (Reg.LN_TEST_CTRL_LB n)) :
    exec (.testPatternWrite n v) s = .next (testStored s n v) := by
  refine ((exec_testPatternWrite s n v).trans (if_pos ha)).trans (congrArg Host.Outcome.next ?_)
  rw [testCtrlWrite_of_quiet h31 h30, if_neg h0, if_neg (by simp [hp]), if_neg (by simp [hq, hlb])]

end

/-! ### Loopback -/

/-- A word whose upper octet is 0 lies under the mask of LN_TEST_CTRL. -/
theorem and_lowMask {w : Word32} (h : ∀ i, 24 ≤ i → w.getLsbD i = false) : w &&& 0x00FFFFFF#32 = w := by
  have hmask : ∀ i < 32, (0x00FFFFFF#32).getLsbD i = decide (i < 24) := by decide
  refine BitVec.eq_of_getLsbD_eq fun i hi => ?_
  rw [BitVec.getLsbD_and, hmask i hi]
  by_cases hlow : i < 24
  · simp [hlow]
  · simp [hlow, h i (by omega)]

/-- A write of LB leaves the upper octet 0. -/
theorem putLoopback_high {w : Word32} (h : w &&& 0xFF000000#32 = 0#32) (v i : Nat) (hi : 24 ≤ i) :
    (putBits w 7 6 v).getLsbD i = false := by
  have hput := putBits_testBit w 7 6 v i (by omega) (by omega)
  rw [if_neg (by omega), BitVec.testBit_toNat, BitVec.testBit_toNat] at hput
  rw [hput]
  by_cases h32 : i < 32
  · have hmask : ∀ j < 32, 24 ≤ j → (0xFF000000#32).getLsbD j = true := by decide
    have hbit := congrArg (BitVec.getLsbD · i) h
    simpa [hmask i h32 hi] using hbit
  · exact BitVec.getLsbD_of_ge w i (by omega)

section
variable (s : State) (n lb : Nat)

/-- LB written with the other fields as they stand (R231). -/
def loopbackSet : State := s.setF (Reg.LN_TEST_CTRL_LB n) lb

theorem onlyBits_loopbackSet : OnlyBits [Reg.LN_TEST_CTRL_LB n] s (loopbackSet s n lb) :=
  ⟨bitsBut_setF (bitsBut_refl _ s) _ lb (by simp) (by simp [Reg.LN_TEST_CTRL_LB]) (by simp [Reg.LN_TEST_CTRL_LB]), rfl⟩

variable {lb} in
theorem lb_loopbackSet (hlb : lb < 4) : (loopbackSet s n lb).getF (Reg.LN_TEST_CTRL_LB n) = lb :=
  (getF_setF_self s _ lb (by simp [Reg.LN_TEST_CTRL_LB]) (by simp [Reg.LN_TEST_CTRL_LB])).trans
    (Nat.mod_eq_of_lt (by simpa [Reg.LN_TEST_CTRL_LB] using hlb))

theorem patterned_loopbackSet : patterned (loopbackSet s n lb) n = patterned s n := by
  have hbits := (onlyBits_loopbackSet s n lb).1
  have htx : (loopbackSet s n lb).getF (Reg.LN_TEST_CTRL_TXPAT n) = s.getF (Reg.LN_TEST_CTRL_TXPAT n) :=
    getF_of_bitsBut hbits (by simp [Reg.LN_TEST_CTRL_LB, Reg.LN_TEST_CTRL_TXPAT])
  have hrx : (loopbackSet s n lb).getF (Reg.LN_TEST_CTRL_RXPAT n) = s.getF (Reg.LN_TEST_CTRL_RXPAT n) :=
    getF_of_bitsBut hbits (by simp [Reg.LN_TEST_CTRL_LB, Reg.LN_TEST_CTRL_RXPAT])
  unfold patterned
  rw [htx, hrx]

end

/-- A change of loopback restarts a lane without a pattern (R231). -/
theorem exec_loopbackSelect_of_changed {s : State} {n : Fin 144} {lb : Fin 4} (ha : s.alive = true) (h0 : s.laneState n ≠ 0)
    (hp : patterned s n = false) (hlb : s.getF (Reg.LN_TEST_CTRL_LB n) ≠ lb.val)
    (hhigh : s.reg (Reg.LN_TEST_CTRL n) &&& 0xFF000000#32 = 0) :
    exec (.loopbackSelect n lb) s = .next (laneEnter (loopbackSet s n lb) n (restartTo s n)) := by
  have hbits := putLoopback_high hhigh lb.val
  have hstored : testStored s n (putBits (s.reg (Reg.LN_TEST_CTRL n)) 7 6 lb.val) = loopbackSet s n lb := by
    unfold testStored
    rw [and_lowMask hbits]
    rfl
  have hplain : patterned (loopbackSet s n lb) n = false := (patterned_loopbackSet s n lb).trans hp
  refine ((exec_loopbackSelect s n lb).trans (if_pos ha)).trans (congrArg Host.Outcome.next ?_)
  rw [testCtrlWrite_of_quiet (hbits 31 (by omega)) (hbits 30 (by omega)), hstored, if_neg h0, if_neg (by simp [hplain]),
    if_pos (by rw [lb_loopbackSet s n lb.isLt]; simp [hlb.symm]), laneRestart_of_plain hplain,
    restartTo_of_testBits (onlyBits_loopbackSet s n lb).1 (by simp [Reg.LN_TEST_CTRL_LB])]

/-! ### Injection -/

section
variable {s : State} {n : Nat} {bits : Nat}

theorem injRequest_of_free (h0 : s.laneState n ≠ 0) (hi : (s.test n).inj = 0) :
    injRequest s n bits = s.setTest n { s.test n with inj := bits } := if_pos ⟨hi, h0⟩

/-- A request is dropped in IDLE and while an injection is under way (R230). -/
theorem injRequest_of_busy (h : s.laneState n = 0 ∨ (s.test n).inj ≠ 0) : injRequest s n bits = s :=
  if_neg fun ⟨hi, h0⟩ => h.elim h0 fun hn => hn hi

end

section
variable {s : State} {n : Fin 144} (ha : s.alive = true)
include ha

theorem exec_injSingle_of_alive : exec (.injSingle n) s = .next (injRequest s n 1) := (exec_injSingle s n).trans (okIf_of_true _ _ ha)

theorem exec_injBurst_of_alive :
    exec (.injBurst n) s = .next (injRequest s n (max 1 (s.getF (Reg.LN_TEST_CTRL_BURST_LEN n)))) :=
  (exec_injBurst s n).trans (okIf_of_true _ _ ha)

end

/-! ### The checker -/

section
variable (s : State) (n : Nat)

theorem onlyBits_syncRaised : OnlyBits [Reg.LN_TEST_STAT_SYNC n] s (s.raiseF (Reg.LN_TEST_STAT_SYNC n)) :=
  onlyBits_raiseF s (by simp [Field.Fits, Reg.LN_TEST_STAT_SYNC])

/-- Synchronisation lost (R229): SYNC falls, SYNC_LOSS and event n. -/
def syncLost : State :=
  (((s.clearF (Reg.LN_TEST_STAT_SYNC n)).raiseF (Reg.LN_TEST_STAT_SYNC_LOSS n)).raiseEv n).setTest n { s.test n with lost := false }

theorem syncLost_reads : (syncLost s n).flag (Reg.LN_TEST_STAT_SYNC n) = false ∧ (syncLost s n).flag (Reg.LN_TEST_STAT_SYNC_LOSS n) = true ∧
    (syncLost s n).raised = (s.raiseEv n).raised ∧ (syncLost s n).test n = { s.test n with lost := false } ∧
    BitsBut [Reg.LN_TEST_STAT_SYNC n, Reg.LN_TEST_STAT_SYNC_LOSS n] s (syncLost s n) ∧
    { syncLost s n with regs := s.regs, cyc := s.cyc, laneTest := s.laneTest, raised := s.raised } = s := by
  have hw : Wrote [(Reg.LN_TEST_STAT_SYNC_LOSS n, 1), (Reg.LN_TEST_STAT_SYNC n, 0)] s (syncLost s n) :=
    ((((Wrote.refl s).setF (Reg.LN_TEST_STAT_SYNC n) 0).raiseF (Reg.LN_TEST_STAT_SYNC_LOSS n)).raiseEv n).of_regs rfl
  have hsep : Separate [Reg.LN_TEST_STAT_SYNC_LOSS n, Reg.LN_TEST_STAT_SYNC n] := by
    simp [Separate, Field.Fits, Field.Apart, Reg.LN_TEST_STAT_SYNC_LOSS, Reg.LN_TEST_STAT_SYNC]
  exact ⟨hw.flag hsep (b := false) (by simp), hw.flag hsep (b := true) (by simp),
    raiseEv_raised_congr n rfl (raiseF_evs _ _) rfl rfl, test_setTest_self _ n _, bitsBut_mono (hw.bitsBut hsep) (by simp),
    by simp [syncLost, State.setTest]⟩

end

section
variable {s : State} {n : Fin 144} (h7 : s.laneState n = 7)
include h7

theorem exec_prbsCheckerSync_of_agreed (hpat : (prbsTaps (s.getF (Reg.LN_TEST_CTRL_RXPAT n))).isSome = true)
    (hoff : s.flag (Reg.LN_TEST_STAT_SYNC n) = false) (hcmp : (s.test n).cmp = true) :
    exec (.prbsCheckerSync n) s = .next (s.raiseF (Reg.LN_TEST_STAT_SYNC n)) :=
  (exec_prbsCheckerSync s n).trans (okIf_of_true _ _ (by rw [h7, hpat, hoff, hcmp]; rfl))

theorem exec_prbsSyncLoss_of_lost (hlost : (s.test n).lost = true) : exec (.prbsSyncLoss n) s = .next (syncLost s n) :=
  (exec_prbsSyncLoss s n).trans (okIf_of_true _ _ (by rw [h7, hlost]; rfl))

end

section
variable (l : LaneTest) (p b : Bool)

/-- The errors among the last 1,024 compared bits, with one bit more. -/
def windowErrors : Nat := l.errs + (if b = p then 0 else 1) - (if l.win.testBit 1023 then 1 else 0)

theorem windowErrors_eq : l.errs + (xor b p).toNat - (l.win.testBit 1023).toNat = windowErrors l p b := by
  unfold windowErrors
  cases b <;> cases p <;> cases l.win.testBit 1023 <;> rfl

variable {l p b}

theorem prbsCompare_of_few (h : windowErrors l p b < 32) :
    (prbsCompare l p b).lost = l.lost ∧ (prbsCompare l p b).cmp = l.cmp := by
  unfold prbsCompare
  dsimp only
  rw [windowErrors_eq, if_neg (by omega)]
  exact ⟨rfl, rfl⟩

/-- 32 errors within 1,024 bits end synchronisation (R229). -/
theorem prbsCompare_of_many (h : 32 ≤ windowErrors l p b) :
    (prbsCompare l p b).lost = true ∧ (prbsCompare l p b).cmp = false ∧ (prbsCompare l p b).run = 0 := by
  unfold prbsCompare
  dsimp only
  rw [windowErrors_eq, if_pos h]
  exact ⟨rfl, rfl, rfl⟩

end

/-! ### A read of the error count -/

section
variable (s : State) (n : Nat)

/-- The compared bits of the present slot, which a read of that slot leaves (R233). -/
def bitsNow : Nat := if s.logs = true ∧ (s.test n).bitsAt.1 = s.time.slots then (s.test n).bitsAt.2 else 0

/-- The bits that a read captures. -/
def bitsRead : Nat := (s.test n).bits - bitsNow s n

/-- The compared bits captured in their two registers. -/
def bitsCaptured : State :=
  (s.setReg (Reg.LN_PRBS_BITS_LO n) (BitVec.ofNat 32 (bitsRead s n % 2 ^ 32))).setReg (Reg.LN_PRBS_BITS_HI n)
    (BitVec.ofNat 32 (bitsRead s n / 2 ^ 32))

/-- The device after a read of the error count: it and the compared bits are cleared but for those of the slot (R229, R233). -/
def errorsRead : State :=
  ((bitsCaptured s n).rc (Reg.LN_PRBS_ERR n) 0xFFFFFFFF#32).setTest n { s.test n with bits := bitsNow s n }

theorem prbsErrRead_eq : prbsErrRead s n = (errorsRead s n, s.rcValue (Reg.LN_PRBS_ERR n) 0xFFFFFFFF#32) := rfl

/-- The registers of a lane are not of the always-on domain. -/
theorem logsAt_prbsErr : s.logsAt (Reg.LN_PRBS_ERR n) = s.logs := by
  have hoff : 0x200000 ≤ Reg.LN_PRBS_ERR n := by
    simp only [Reg.LN_PRBS_ERR]
    omega
  have hlane : ofAon (Reg.LN_PRBS_ERR n) = false := by
    simp only [ofAon, Bool.or_eq_false_iff, Bool.and_eq_false_imp, decide_eq_true_eq, decide_eq_false_iff_not, not_lt]
    omega
  unfold State.logsAt
  rw [hlane, Bool.or_false]

theorem rcValue_all (o : Nat) : s.rcValue o 0xFFFFFFFF#32 = if s.logsAt o then (s.hwReg o).old.getD (s.reg o) else s.reg o := by
  have hnone : ∀ w : Word32, w &&& ~~~0xFFFFFFFF#32 = 0#32 := fun w => BitVec.and_zero
  have hall : ∀ w : Word32, w &&& 0xFFFFFFFF#32 = w := fun w => BitVec.and_allOnes
  rw [rcValue_eq, hnone, hall, BitVec.zero_or]

theorem regs_rc_all (o : Nat) : (s.rc o 0xFFFFFFFF#32).regs = (s.setReg o (s.slotCounts o)).regs := by
  have hnone : ∀ w : Word32, w &&& ~~~0xFFFFFFFF#32 = 0#32 := fun w => BitVec.and_zero
  have hall : ∀ w : Word32, w &&& 0xFFFFFFFF#32 = w := fun w => BitVec.and_allOnes
  rw [regs_rc, hnone, hall, BitVec.zero_or]

/-- What a read of the error count leaves in the registers, the last one written first. -/
theorem regs_errorsRead : (errorsRead s n).regs = ((bitsCaptured s n).setReg (Reg.LN_PRBS_ERR n) (s.slotCounts (Reg.LN_PRBS_ERR n))).regs :=
  regs_rc_all (bitsCaptured s n) (Reg.LN_PRBS_ERR n)

theorem reg_errorsRead_err : (errorsRead s n).reg (Reg.LN_PRBS_ERR n) = s.slotCounts (Reg.LN_PRBS_ERR n) :=
  (reg_of_regs (regs_errorsRead s n) _).trans (reg_setReg_self _ _ _)

theorem reg_errorsRead_lo : (errorsRead s n).reg (Reg.LN_PRBS_BITS_LO n) = BitVec.ofNat 32 (bitsRead s n % 2 ^ 32) := by
  rw [reg_of_regs (regs_errorsRead s n), reg_setReg_ne _ _ _ _ (by simp [Reg.LN_PRBS_BITS_LO, Reg.LN_PRBS_ERR])]
  unfold bitsCaptured
  rw [reg_setReg_ne _ _ _ _ (by simp [Reg.LN_PRBS_BITS_LO, Reg.LN_PRBS_BITS_HI]), reg_setReg_self]

theorem reg_errorsRead_hi : (errorsRead s n).reg (Reg.LN_PRBS_BITS_HI n) = BitVec.ofNat 32 (bitsRead s n / 2 ^ 32) := by
  rw [reg_of_regs (regs_errorsRead s n), reg_setReg_ne _ _ _ _ (by simp [Reg.LN_PRBS_BITS_HI, Reg.LN_PRBS_ERR])]
  exact reg_setReg_self _ _ _

/-- The two registers hold the captured bits in full. -/
theorem bits_errorsRead (hb : (s.test n).bits < 2 ^ 48) : ((errorsRead s n).reg (Reg.LN_PRBS_BITS_LO n)).toNat +
    2 ^ 32 * ((errorsRead s n).reg (Reg.LN_PRBS_BITS_HI n)).toNat = bitsRead s n := by
  have hlt : bitsRead s n < 2 ^ 48 := (Nat.sub_le _ _).trans_lt hb
  rw [reg_errorsRead_lo, reg_errorsRead_hi, BitVec.toNat_ofNat, BitVec.toNat_ofNat]
  omega

theorem bitsBut_errorsRead : BitsBut [wholeReg (Reg.LN_PRBS_ERR n), wholeReg (Reg.LN_PRBS_BITS_LO n), wholeReg (Reg.LN_PRBS_BITS_HI n)] s
    (errorsRead s n) := by
  have hlo := bitsBut_setReg (bitsBut_refl
    [wholeReg (Reg.LN_PRBS_ERR n), wholeReg (Reg.LN_PRBS_BITS_LO n), wholeReg (Reg.LN_PRBS_BITS_HI n)] s) (Reg.LN_PRBS_BITS_LO n)
    (BitVec.ofNat 32 (bitsRead s n % 2 ^ 32)) (by simp)
  have hhi := bitsBut_setReg hlo (Reg.LN_PRBS_BITS_HI n) (BitVec.ofNat 32 (bitsRead s n / 2 ^ 32)) (by simp)
  exact bitsBut_of_regs (bitsBut_setReg hhi (Reg.LN_PRBS_ERR n) (s.slotCounts (Reg.LN_PRBS_ERR n)) (by simp)) (regs_errorsRead s n)

theorem errorsRead_frame : { errorsRead s n with regs := s.regs, cyc := s.cyc, laneTest := s.laneTest } = s := by
  unfold errorsRead
  rw [rc_eq]
  rfl

end

theorem exec_prbsErrRead_of_alive {s : State} {n : Fin 144} (ha : s.alive = true) : exec (.prbsErrRead n) s =
    .next { errorsRead s n with resp := ⟨0, (s.rcValue (Reg.LN_PRBS_ERR n) 0xFFFFFFFF#32).setWidth 64⟩ } := by
  rw [exec_prbsErrRead]
  unfold execPrbsErrRead
  dsimp only
  rw [prbsErrRead_eq, BitVec.ofNat_toNat]
  exact okIf_of_true _ _ ha

/-! ### The obligation of test features -/

/-- Settles O26: a write of LN_TEST_CTRL by the patterns and the loopback before and after it, injection by whether one is under way, the
checker by the errors of its window, and a read by the registers that it writes. -/
theorem laneTestFeatures : Obligations.LaneTestFeatures := by
  unfold Obligations.LaneTestFeatures
  intro s n st first left lbKept fresh
  refine ⟨fun v ha h31 h30 => ?_, fun lb ha h0 hp hlb hhigh => ?_, fun ha h0 hi => ⟨?_, ?_⟩, fun ha h => ⟨?_, ?_⟩, fun ha hb => ?_,
    fun h7 hpat hoff hcmp => ⟨_, exec_prbsCheckerSync_of_agreed h7 hpat hoff hcmp,
      flag_raiseF s _ (by simp [Reg.LN_TEST_STAT_SYNC]) (by simp [Reg.LN_TEST_STAT_SYNC]), onlyBits_syncRaised s n⟩,
    fun h7 hlost => ⟨_, exec_prbsSyncLoss_of_lost h7 hlost, syncLost_reads s n⟩,
    fun l p b => ⟨by simp [prbsSeed], prbsCompare_of_few, prbsCompare_of_many⟩⟩
  · intro u
    have hu : OnlyBits [wholeReg (Reg.LN_TEST_CTRL n)] s (testStored s n v) := onlyBits_testStored s n v
    refine ⟨exec_testPatternWrite_of_idle ha h31 h30, fun h7 hp hlb hrx => exec_testPatternWrite_of_same ha h31 h30 hp h7 hlb hrx,
      fun h7 hp hlb hrx => ⟨_, exec_testPatternWrite_of_changed ha h31 h30 hp h7 hlb hrx, sync_checkerReset _ n, test_checkerReset _ n, ?_, rfl⟩,
      fun h0 hp h => ?_,
      fun h0 hp h => ⟨_, exec_testPatternWrite_of_restart ha h31 h30 h0 hp h, moved_laneEnter (restartTo_lt s n) hu⟩,
      fun h0 hp hq hlb => exec_testPatternWrite_of_plain ha h31 h30 h0 hp hq hlb⟩
    · exact bitsBut_trans (bitsBut_mono hu.1 (by simp)) (bitsBut_mono (bitsBut_checkerReset _ n) (by simp))
    · exact ⟨_, exec_testPatternWrite_of_entry ha h31 h30 hp h0 h, enterTest_reads hu⟩
  · refine ⟨_, exec_loopbackSelect_of_changed ha h0 hp hlb hhigh, ?_, moved_laneEnter (restartTo_lt s n) (onlyBits_loopbackSet s n lb)⟩
    exact (getF_laneEnter _ _ _ (apart_move_of_other (by simp [Reg.LN_TEST_CTRL_LB, Reg.LN_TEST_CTRL, Reg.LN_BU_STAT])
      (by simp [Reg.LN_TEST_CTRL_LB, Reg.LN_TEST_CTRL, Reg.LN_TK_STAT])
      (by simp [Reg.LN_TEST_CTRL_LB, Reg.LN_TEST_CTRL, Reg.LN_FE_STAT]))).trans (lb_loopbackSet s n lb.isLt)
  · rw [exec_injSingle_of_alive ha, injRequest_of_free h0 hi]
  · rw [exec_injBurst_of_alive ha, injRequest_of_free h0 hi]
  · rw [exec_injSingle_of_alive ha, injRequest_of_busy h]
  · rw [exec_injBurst_of_alive ha, injRequest_of_busy h]
  · intro h now
    refine ⟨_, exec_prbsErrRead_of_alive ha, ?_, ?_, bits_errorsRead s n hb, test_setTest_self _ n _,
      bitsBut_of_regs (bitsBut_errorsRead s n) rfl, congrArg (fun x : State => { x with resp := s.resp }) (errorsRead_frame s n)⟩
    · rw [rcValue_all, logsAt_prbsErr]
    · refine (reg_of_regs rfl _).trans ((reg_errorsRead_err s n).trans ?_)
      unfold State.slotCounts
      rw [logsAt_prbsErr]

end Sys2Proof.Machine

/-!
SUPPORT. Tellers (12_tellers.md R235, R236, R239, R242, R246, R247, R254): the rules of a teller's state, what a fault and a register write leave,
the rows of the instructions, and the base instructions.
-/

namespace Sys2Proof.Machine

/-! ### The state of a teller -/

@[simp] theorem tlr_setTlr_self (s : State) (sec : Nat) (x : Teller) : (s.setTlr sec x).tlr sec = x := tget_tset_self _ _ _ _

theorem tlr_of_tellers {s u : State} (h : u.tellers = s.tellers) (sec : Nat) : u.tlr sec = s.tlr sec := by
  unfold State.tlr
  rw [h]

/-- Nothing but the tellers differs. -/
def TellersOnly (s u : State) : Prop := { u with tellers := s.tellers } = s

theorem tellersOnly_iff {s u : State} : TellersOnly s u ↔ { u with tellers := s.tellers } = s := Iff.rfl

theorem TellersOnly.trans {s u v : State} (h : TellersOnly s u) (h2 : TellersOnly u v) : TellersOnly s v := by
  rw [tellersOnly_iff] at h h2 ⊢
  exact (congrArg (fun x : State => { x with tellers := s.tellers }) h2).trans h

theorem TellersOnly.regs {s u : State} (h : TellersOnly s u) : u.regs = s.regs := (congrArg State.regs (tellersOnly_iff.mp h) :)

theorem TellersOnly.tlrCycle {s u : State} (h : TellersOnly s u) : u.tlrCycle = s.tlrCycle :=
  (congrArg State.tlrCycle (tellersOnly_iff.mp h) :)

theorem tellersOnly_setTlr (s : State) (sec : Nat) (x : Teller) : TellersOnly s (s.setTlr sec x) := tellersOnly_iff.mpr rfl

theorem tellersOnly_tlrNext (s : State) (sec next : Nat) : TellersOnly s (tlrNext s sec next) := tellersOnly_setTlr s sec _

theorem tellersOnly_tlrSetV (s : State) (sec r v : Nat) : TellersOnly s (tlrSetV s sec r v) := tellersOnly_setTlr s sec _

theorem tellersOnly_tlrSetX (s : State) (sec r v : Nat) : TellersOnly s (tlrSetX s sec r v) := by
  unfold tlrSetX
  split
  · exact tellersOnly_iff.mpr rfl
  · exact tellersOnly_setTlr s sec _

/-- A write of STATE changes that field alone. -/
theorem wrote_setTlrState {vals : List (Field × Nat)} {s u : State} (h : Wrote vals s u) (sec st : Nat) :
    Wrote ((Reg.SEC_TLR_STAT_STATE sec, st) :: vals) s (u.setTlrState sec st) := h.setF _ st

theorem separate_state (sec : Nat) : Separate [Reg.SEC_TLR_STAT_STATE sec] := by
  simp [Separate, Field.Fits, Reg.SEC_TLR_STAT_STATE]

theorem tlrState_setTlrState (s : State) (sec : Nat) {st : Nat} (h : st < 8) : (s.setTlrState sec st).tlrState sec = st :=
  (wrote_setTlrState (Wrote.refl s) sec st).getF (separate_state sec) (by simp) (by simpa [Reg.SEC_TLR_STAT_STATE] using h)

theorem bitsBut_setTlrState {s u : State} (h : u.regs = s.regs) (sec st : Nat) :
    BitsBut [Reg.SEC_TLR_STAT_STATE sec] s (u.setTlrState sec st) :=
  (wrote_setTlrState ((Wrote.refl s).of_regs h) sec st).bitsBut (separate_state sec)

/-! ### Registers -/

section
variable (s : State) (sec r v : Nat)

/-- Only the registers x1 to x31 of the teller differ. -/
theorem tlr_tlrSetX : (tlrSetX s sec r v).tlr sec = { s.tlr sec with x := ((tlrSetX s sec r v).tlr sec).x } := by
  unfold tlrSetX
  split
  · rfl
  · simp

theorem tlrX_tlrSetX_self (hr : r ≠ 0) : tlrX (tlrSetX s sec r v) sec r = v % 2 ^ 32 := by
  simp [tlrX, tlrSetX, hr]

theorem tlrX_tlrSetX_ne {q : Nat} (h : q ≠ r) : tlrX (tlrSetX s sec r v) sec q = tlrX s sec q := by
  unfold tlrSetX
  split
  · rfl
  · simp [tlrX, tget_tset_ne _ _ _ _ _ h]

theorem tlrV_lt : tlrV s sec r < 2 ^ 128 := BitVec.isLt _

end

/-- The teller of a sector with its program counter at `next`, register rd written and every other register, the vectors and the rest of
the device as they were. -/
structure WroteX (s u : State) (sec rd v next : Nat) : Prop where
  pc : (u.tlr sec).pc = next
  reg : rd ≠ 0 → tlrX u sec rd = v % 2 ^ 32
  others : ∀ r, r ≠ rd → tlrX u sec r = tlrX s sec r
  vecs : (u.tlr sec).v = (s.tlr sec).v
  rest : TellersOnly s u

/-- The teller of a sector with its program counter at `next`, vector vd written and every other vector, the registers and the rest of the
device as they were. -/
structure WroteV (s u : State) (sec vd v next : Nat) : Prop where
  pc : (u.tlr sec).pc = next
  vec : tlrV u sec vd = v % 2 ^ 128
  others : ∀ r, r ≠ vd → tlrV u sec r = tlrV s sec r
  regs : (u.tlr sec).x = (s.tlr sec).x
  rest : TellersOnly s u

section
variable (s : State) (sec : Nat)

theorem wroteX_tlrSetX (rd v next : Nat) : WroteX s (tlrNext (tlrSetX s sec rd v) sec next) sec rd v next := by
  have hx : ∀ r, tlrX (tlrNext (tlrSetX s sec rd v) sec next) sec r = tlrX (tlrSetX s sec rd v) sec r := by simp [tlrX, tlrNext]
  have hv : ((tlrSetX s sec rd v).tlr sec).v = (s.tlr sec).v := by rw [tlr_tlrSetX]
  exact
    { pc := by simp [tlrNext]
      reg := fun h => (hx rd).trans (tlrX_tlrSetX_self s sec rd v h)
      others := fun r h => (hx r).trans (tlrX_tlrSetX_ne s sec rd v h)
      vecs := by simpa [tlrNext] using hv
      rest := (tellersOnly_tlrSetX s sec rd v).trans (tellersOnly_tlrNext _ sec next) }

theorem wroteV_tlrSetV (vd v next : Nat) : WroteV s (tlrNext (tlrSetV s sec vd v) sec next) sec vd v next where
  pc := by simp [tlrNext]
  vec := by simp [tlrV, tlrNext, tlrSetV]
  others r h := by simp [tlrV, tlrNext, tlrSetV, tget_tset_ne _ _ _ _ _ h]
  regs := by simp [tlrNext, tlrSetV]
  rest := (tellersOnly_tlrSetV s sec vd v).trans (tellersOnly_tlrNext _ sec next)

end

/-! ### A fault of a teller -/

section
variable (sec cause : Nat)

/-- The fields that a fault writes (R239), the last one first. -/
def faultWrites (addr : Option Nat) : List (Field × Nat) :=
  (addr.elim [] fun a => [(Reg.SEC_TLR_FADDR_FADDR sec, (BitVec.ofNat 32 a).toNat)]) ++
    [(Reg.SEC_TLR_STAT_FCAUSE sec, cause), (Reg.SEC_TLR_STAT_STATE sec, 4)]

theorem separate_faultWrites (addr : Option Nat) : Separate ((faultWrites sec cause addr).map Prod.fst) := by
  cases addr <;> simp [faultWrites, Separate, Field.Fits, Field.Apart, Reg.SEC_TLR_FADDR_FADDR, Reg.SEC_TLR_FADDR,
    Reg.SEC_TLR_STAT_FCAUSE, Reg.SEC_TLR_STAT_STATE, Reg.SEC_TLR_STAT]

theorem wrote_tlrFault (s : State) (addr : Option Nat) : Wrote (faultWrites sec cause addr) s (tlrFault s sec cause addr) := by
  have hcause : Wrote (faultWrites sec cause none) s
      (((s.setTlr sec { s.tlr sec with wait := .none, waking := none }).setTlrState sec 4).setF (Reg.SEC_TLR_STAT_FCAUSE sec) cause) :=
    (wrote_setTlrState ((Wrote.refl s).of_regs rfl) sec 4).setF _ cause
  cases addr with
  | none => exact hcause.of_regs rfl
  | some a => exact (hcause.setReg (Reg.SEC_TLR_FADDR sec) (BitVec.ofNat 32 a)).of_regs rfl

/-- A teller in FAULT with its cause, its group event raised, and nothing in progress (R239). -/
def Faulted (s u : State) : Prop :=
  u.tlrState sec = 4 ∧ u.getF (Reg.SEC_TLR_STAT_FCAUSE sec) = cause ∧ u.raised = (s.raiseEv (232 + sec / 15)).raised ∧
    u.tlr sec = { s.tlr sec with wait := .none, waking := none } ∧
    BitsBut [Reg.SEC_TLR_STAT_STATE sec, Reg.SEC_TLR_STAT_FCAUSE sec, Reg.SEC_TLR_FADDR_FADDR sec] s u ∧
    { u with regs := s.regs, cyc := s.cyc, raised := s.raised, tellers := s.tellers } = s

variable {cause}

theorem faulted_tlrFault (s : State) (hc : cause < 16) (addr : Option Nat) : Faulted sec cause s (tlrFault s sec cause addr) := by
  have hw := wrote_tlrFault sec cause s addr
  have hsep := separate_faultWrites sec cause addr
  have htlr : (tlrFault s sec cause addr).tlr sec = { s.tlr sec with wait := .none, waking := none } :=
    (tlr_of_tellers (by cases addr <;> rfl) sec).trans (tlr_setTlr_self s sec _)
  refine ⟨hw.getF hsep (by simp [faultWrites]) (by simp [Reg.SEC_TLR_STAT_STATE]),
    hw.getF hsep (by simp [faultWrites]) (by simpa [Reg.SEC_TLR_STAT_FCAUSE] using hc), ?_, htlr, bitsBut_mono (hw.bitsBut hsep) ?_,
    by cases addr <;> rfl⟩
  · cases addr <;> exact raiseEv_raised_congr _ rfl rfl rfl rfl
  · cases addr <;> simp [faultWrites]

/-- A fault with a data address shows it in SEC_TLR_FADDR. -/
theorem faultAddr_tlrFault (s : State) (cause : Nat) {a : Nat} (ha : a < 2 ^ 32) :
    ((tlrFault s sec cause (some a)).reg (Reg.SEC_TLR_FADDR sec)).toNat = a := by
  rw [← getF_wholeReg]
  refine ((wrote_tlrFault sec cause s (some a)).getF_mod (separate_faultWrites sec cause (some a))
    (f := wholeReg (Reg.SEC_TLR_FADDR sec)) (v := (BitVec.ofNat 32 a).toNat) (by simp [faultWrites, wholeReg, Reg.SEC_TLR_FADDR_FADDR])).trans ?_
  simpa [wholeReg] using ha

end

theorem wrapN_lt (n : Nat) (x : Int) : wrapN n x < 2 ^ n := by
  unfold wrapN
  have hpos : (0 : Int) < ((2 ^ n : Nat) : Int) := by positivity
  have := Int.emod_lt_of_pos x hpos
  have := Int.emod_nonneg x hpos.ne'
  omega

/-! ### STOP, RUN and SOFT -/

section
variable (s : State) (sec : Nat)

theorem tlrCmdWrite_stop : tlrCmdWrite s sec 2 = tlrStop s sec := rfl

theorem tlrCmdWrite_run : tlrCmdWrite s sec 1 = if s.phase != .start || 3 ≤ s.getF Reg.CFG_STAT_STATE then tlrRun s sec else s := rfl

theorem tlrCmdWrite_soft : tlrCmdWrite s sec 4 = tlrLatch s sec 4 := rfl

/-- A withdrawn request leaves everything but the banks and the responses on their way. -/
theorem tlrWithdraw_eq : tlrWithdraw s sec = { s with banks := (tlrWithdraw s sec).banks, rsps := (tlrWithdraw s sec).rsps } := by
  have hfold : ∀ (b : Nat → Nat) (k : State → Nat → Bank) (l : List Nat) (u : State),
      l.foldl (fun acc i => acc.setBank (b i) (k acc i)) u = { u with banks := (l.foldl (fun acc i => acc.setBank (b i) (k acc i)) u).banks } := by
    intro b k l
    induction l with
    | nil => exact fun _ => rfl
    | cons i l ih => exact fun u => ih (u.setBank (b i) (k u i))
  unfold tlrWithdraw
  dsimp only
  rw [hfold]

/-- What STOP leaves of a teller that does not stand in STOP (R235). -/
theorem tlrStop_reads (h : s.tlrState sec ≠ 0) : (tlrStop s sec).tlrState sec = 0 ∧
    (tlrStop s sec).tlr sec = { s.tlr sec with wait := .none, waking := none } ∧ BitsBut [Reg.SEC_TLR_STAT_STATE sec] s (tlrStop s sec) ∧
    { tlrStop s sec with regs := s.regs, cyc := s.cyc, tellers := s.tellers, banks := s.banks, outst := s.outst, rsps := s.rsps } = s := by
  unfold tlrStop
  rw [if_neg h]
  refine ⟨tlrState_setTlrState _ sec (by omega), ?_, bitsBut_setTlrState (tlrAbandon_regs s sec) sec 0, ?_⟩
  · refine (tlr_of_tellers ?_ sec).trans (tlr_setTlr_self s sec _)
    unfold tlrAbandon
    dsimp only
    rw [State.setTlrState, setF_tellers, tlrWithdraw_eq]
    rfl
  · unfold tlrAbandon
    dsimp only
    rw [tlrWithdraw_eq]
    rfl

/-- What RUN leaves of a teller in STOP or FAULT (R236). -/
theorem tlrRun_reads (h : s.tlrState sec = 0 ∨ s.tlrState sec = 4) : (tlrRun s sec).tlrState sec = 1 ∧
    (tlrRun s sec).getF (Reg.SEC_TLR_STAT_FCAUSE sec) = 0 ∧
    (tlrRun s sec).tlr sec = { s.tlr sec with pend := 0, fresh := 0, pc := tlrStartPc s sec, ready := s.tlrCycle + 1, wait := .none } ∧
    BitsBut [Reg.SEC_TLR_STAT_STATE sec, Reg.SEC_TLR_STAT_FCAUSE sec] s (tlrRun s sec) ∧
    { tlrRun s sec with regs := s.regs, cyc := s.cyc, tellers := s.tellers } = s := by
  have hw : Wrote [(Reg.SEC_TLR_STAT_STATE sec, 1), (Reg.SEC_TLR_STAT_FCAUSE sec, 0)] s (tlrRun s sec) := by
    unfold tlrRun
    rw [if_pos h]
    exact wrote_setTlrState (((Wrote.refl s).of_regs rfl).setF _ 0) sec 1
  have hsep : Separate [Reg.SEC_TLR_STAT_STATE sec, Reg.SEC_TLR_STAT_FCAUSE sec] := by
    simp [Separate, Field.Fits, Field.Apart, Reg.SEC_TLR_STAT_STATE, Reg.SEC_TLR_STAT_FCAUSE]
  refine ⟨hw.getF hsep (by simp) (by simp [Reg.SEC_TLR_STAT_STATE]), hw.getF hsep (by simp) (by simp [Reg.SEC_TLR_STAT_FCAUSE]), ?_,
    hw.bitsBut hsep, ?_⟩
  · unfold tlrRun
    rw [if_pos h]
    exact (tlr_of_tellers rfl sec).trans (tlr_setTlr_self s sec _)
  · unfold tlrRun
    rw [if_pos h]
    rfl

end

section
variable {s : State} {t : Fin 240} (ha : s.alive = true)
include ha

theorem exec_tellerStop_of_alive : exec (.tellerStop t) s = .next (tlrStop s t) :=
  ((exec_tellerStop s t).trans (if_pos ha)).trans (congrArg Host.Outcome.next (tlrCmdWrite_stop s t))

theorem exec_tellerRun_of_alive (h : s.phase ≠ .start ∨ 3 ≤ s.getF Reg.CFG_STAT_STATE) :
    exec (.tellerRun t) s = .next (tlrRun s t) :=
  ((exec_tellerRun s t).trans (if_pos ha)).trans (congrArg Host.Outcome.next ((tlrCmdWrite_run s t).trans (if_pos (by simpa using h))))

/-- RUN does nothing before a full load has ended (R331, R332). -/
theorem exec_tellerRun_of_unloaded (hp : s.phase = .start) (hl : s.getF Reg.CFG_STAT_STATE < 3) : exec (.tellerRun t) s = .next s :=
  ((exec_tellerRun s t).trans (if_pos ha)).trans (congrArg Host.Outcome.next ((tlrCmdWrite_run s t).trans (if_neg (by simp [hp, hl]))))

theorem exec_tellerSoft_of_running (hc : s.clockOn = true) : exec (.tellerSoft t) s = .next (s.setTlr t
    (if (s.tlr t).freshAt = s.tlrCycle then { s.tlr t with fresh := (s.tlr t).fresh ||| 4 }
     else { s.tlr t with pend := (s.tlr t).pend ||| (s.tlr t).fresh, fresh := 4, freshAt := s.tlrCycle })) := by
  refine ((exec_tellerSoft s t).trans (if_pos ha)).trans (congrArg Host.Outcome.next ?_)
  rw [tlrCmdWrite_soft]
  unfold tlrLatch
  rw [if_neg (by simp [hc])]
  split <;> rfl

end

/-! ### The rows of teller instructions -/

section
variable {s s1 : State} {sec : Nat} {mine : Rv → Bool} {run : State → Rv → Nat → State} (hmay : tlrMayIssue s sec = true)
include hmay

theorem tlrRow_of_fetched {i : Rv} {len : Nat} {fail : Bool} (hf : tlrFetch s sec = (s1, .inl (i, len))) (hm : mine i = true) :
    tlrRow s sec mine run fail = .next (run s1 i len) := by
  unfold tlrRow
  rw [if_pos hmay, hf]
  exact okIf_of_true _ _ hm

theorem tlrRow_of_failed {c : Nat} (hf : tlrFetch s sec = (s1, .inr c)) : tlrRow s sec mine run true = .next (tlrFault s1 sec c none) := by
  unfold tlrRow
  rw [if_pos hmay, hf]
  exact okIf_of_true _ _ rfl

end

/-! ### Loads and stores by where their addresses lead -/

/-- A read of a teller's RAM changes no teller. -/
theorem tramRead_tellers (s : State) (sec k : Nat) : (tramRead s sec k).1.tellers = s.tellers := by
  unfold tramRead
  dsimp only
  split
  · rfl
  · split <;> rfl
  · split <;> rfl

section
variable {s : State} {sec a size : Nat}

section
variable {rd next : Nat} {signed : Bool}

theorem tlrLoad_of_misaligned (h : a % size ≠ 0) : tlrLoad s sec rd a size signed next = tlrFault s sec 2 (some a) := if_pos h

variable (ha : a % size = 0)
include ha

theorem tlrLoad_of_unmapped (ht : tlrTarget s sec a = .none) : tlrLoad s sec rd a size signed next = tlrFault s sec 3 (some a) := by
  unfold tlrLoad
  rw [if_neg (not_not.mpr ha), ht]

theorem tlrLoad_of_ram {k d : Nat} {s2 : State} (ht : tlrTarget s sec a = .ram k) (hr : tramRead s sec k = (s2, some d)) :
    tlrLoad s sec rd a size signed next = tlrNext (tlrSetX s2 sec rd (loadExt 32 size signed (lanesOut d a size))) sec next := by
  unfold tlrLoad
  rw [if_neg (not_not.mpr ha), ht]
  dsimp only
  rw [hr]

theorem tlrLoad_of_page {off : Nat} (ht : tlrTarget s sec a = .page off) (hs : size = 4) :
    tlrLoad s sec rd a size signed next = tlrNext (tlrSetX s sec rd (pageRead s sec off)) sec next := by
  unfold tlrLoad
  rw [if_neg (not_not.mpr ha), ht]
  exact if_pos hs

theorem tlrLoad_of_bank {j k : Nat} (ht : tlrTarget s sec a = .bank j k) :
    tlrLoad s sec rd a size signed next = tlrBankStart s sec j 0 rd size signed [(a, tlrBankReq sec .read k a size 0)] next := by
  unfold tlrLoad
  rw [if_neg (not_not.mpr ha), ht]

/-- A network load waits for no store outstanding, for room among eight requests and for a NAP that is not fenced (R246). -/
theorem tlrLoad_of_net {p : Nat} (ht : tlrTarget s sec a = .net p) (hst : tlrStores s sec = false) (ho : tlrOut s sec < 8)
    (hn : s.napFenced sec = false) : tlrLoad s sec rd a size signed next =
      (tlrIssue s sec 0 p size 0 1 0).1.setTlr sec
        { s.tlr sec with wait := .net false rd size signed a [(tlrIssue s sec 0 p size 0 1 0).2] [] false next } := by
  unfold tlrLoad
  rw [if_neg (not_not.mpr ha), ht]
  exact if_neg (by simp [hst, hn, ho])

end

section
variable {v next : Nat}

theorem tlrStore_of_misaligned (h : a % size ≠ 0) : tlrStore s sec a size v next = tlrFault s sec 2 (some a) := if_pos h

variable (ha : a % size = 0)
include ha

theorem tlrStore_of_unmapped (ht : tlrTarget s sec a = .none) : tlrStore s sec a size v next = tlrFault s sec 3 (some a) := by
  unfold tlrStore
  rw [if_neg (not_not.mpr ha), ht]

theorem tlrStore_of_ram {k d : Nat} {s2 : State} (ht : tlrTarget s sec a = .ram k) (hr : tramRead s sec k = (s2, some d)) :
    tlrStore s sec a size v next = tlrNext (tramWrite s2 sec k (mergeBytes d (lanesIn v a size) (lanesBe a size))) sec next := by
  unfold tlrStore
  rw [if_neg (not_not.mpr ha), ht]
  dsimp only
  rw [hr]

theorem tlrStore_of_page {off : Nat} (ht : tlrTarget s sec a = .page off) (hs : size = 4) :
    tlrStore s sec a size v next = tlrNext (pageWrite s sec off v) sec next := by
  unfold tlrStore
  rw [if_neg (not_not.mpr ha), ht]
  exact if_pos hs

theorem tlrStore_of_bank {j k : Nat} (ht : tlrTarget s sec a = .bank j k) :
    tlrStore s sec a size v next = tlrBankStart s sec j 2 0 size false [(a, tlrBankReq sec .write k a size v)] next := by
  unfold tlrStore
  rw [if_neg (not_not.mpr ha), ht]

theorem tlrStore_of_net {p : Nat} (ht : tlrTarget s sec a = .net p) (ho : tlrOut s sec < 8) (hn : s.napFenced sec = false) :
    tlrStore s sec a size v next = tlrNext (tlrIssue s sec 1 p size v 0 0).1 sec next := by
  unfold tlrStore
  rw [if_neg (not_not.mpr ha), ht]
  exact if_neg (by simp [hn, ho])

end

end

/-! ### Base instructions -/

/-- An instruction that computes has no row of its own. -/
theorem ownRow_of_plain {w len pc : Nat} {i : Rv} {x : Nat → Nat} {r : Nat × Nat × Nat} (h : rvPlain w i len pc x = some r) :
    ownRow i = false := by
  cases i with
  | lui | auipc | jal | jalr | branch | opImm | op => rfl
  | load | store | fence | fenceI | ecall | ebreak | wfi | mret | csr | lr | sc | amo | cbo | custom | illegal => cases h

theorem tlrBase_of_plain {s : State} {sec len n rd v : Nat} {i : Rv}
    (h : rvPlain 32 i len (s.tlr sec).pc (tlrX s sec) = some (n, rd, v)) : tlrBase s sec i len = tlrNext (tlrSetX s sec rd v) sec n := by
  unfold tlrBase
  dsimp only
  rw [h]

section
variable {s s1 : State} {t : Fin 240} (hmay : tlrMayIssue s t = true)
include hmay

theorem exec_tellerInstruction_of_fetched {i : Rv} {len : Nat} (hf : tlrFetch s t = (s1, .inl (i, len))) (hown : ownRow i = false) :
    exec (.tellerInstruction t) s = .next (tlrBase s1 t i len) :=
  (exec_tellerInstruction s t).trans (tlrRow_of_fetched hmay hf (by simp [hown]))

theorem exec_load_of_fetched {rd rs1 size len : Nat} {imm : Int} {signed : Bool} {u : State}
    (hf : tlrFetch s t = (s1, .inl (.load rd rs1 imm size signed, len)))
    (h : tlrLoad s1 t rd (wrapN 32 ((tlrX s1 t rs1 : Int) + imm)) size signed (((s1.tlr t).pc + len) % 2 ^ 32) = u) :
    exec (.tellerInstruction t) s = .next u :=
  (exec_tellerInstruction_of_fetched hmay hf rfl).trans (congrArg Host.Outcome.next h)

theorem exec_store_of_fetched {rs1 rs2 size len : Nat} {imm : Int} {u : State}
    (hf : tlrFetch s t = (s1, .inl (.store rs1 rs2 imm size, len)))
    (h : tlrStore s1 t (wrapN 32 ((tlrX s1 t rs1 : Int) + imm)) size (tlrX s1 t rs2) (((s1.tlr t).pc + len) % 2 ^ 32) = u) :
    exec (.tellerInstruction t) s = .next u :=
  (exec_tellerInstruction_of_fetched hmay hf rfl).trans (congrArg Host.Outcome.next h)

theorem exec_fence_of_fetched {len : Nat} (hf : tlrFetch s t = (s1, .inl (.fence false, len))) : exec (.tellerFence t) s =
    .next (if tlrStores s1 t then s1 else tlrNext s1 t (((s1.tlr t).pc + len) % 2 ^ 32)) :=
  (exec_tellerFence s t).trans (tlrRow_of_fetched hmay hf rfl)

end

/-- A load from the data RAM leaves the vectors and the other registers, whatever the read repairs (R237, R238). -/
theorem wroteX_ramLoad {s s2 : State} {sec k : Nat} {d : Option Nat} (hr : tramRead s sec k = (s2, d)) (rd v next : Nat) :
    let u := tlrNext (tlrSetX s2 sec rd v) sec next
    WroteX s2 u sec rd v next ∧ (u.tlr sec).v = (s.tlr sec).v := by
  have hw := wroteX_tlrSetX s2 sec rd v next
  have htellers : s2.tellers = s.tellers := by
    rw [← tramRead_tellers s sec k, hr]
  exact ⟨hw, hw.vecs.trans (congrArg Teller.v (tlr_of_tellers htellers sec))⟩

/-! ### The obligation of teller control -/

/-- Settles O27: STOP, RUN and SOFT by what each writes, an instruction by its row, loads and stores by where their addresses lead, and every
fault by the fields that it writes. -/
theorem tellerControl : Obligations.TellerControl := by
  unfold Obligations.TellerControl
  intro s t st cyc fault
  refine ⟨fun ha h0 => ?_, fun ha h0 => ⟨_, exec_tellerStop_of_alive ha, tlrStop_reads s t h0⟩,
    fun ha hp hl => exec_tellerRun_of_unloaded ha hp hl,
    fun ha hl h0 => ⟨_, exec_tellerRun_of_alive ha hl, tlrRun_reads s t h0⟩,
    fun ha hc => exec_tellerSoft_of_running ha hc, fun s1 i len hmay hf => ?_,
    fun s1 c hc hmay hf => ⟨_, (exec_tellerInstruction s t).trans (tlrRow_of_failed hmay hf), faulted_tlrFault t s1 hc none⟩⟩
  · exact (exec_tellerStop_of_alive ha).trans (congrArg Host.Outcome.next (if_pos h0))
  · intro pc next ends
    refine ⟨?_, ?_, ?_, ?_, ?_, fun n rd v hv => ?_, ?_, ?_⟩
    · rintro rfl hst
      exact (exec_fence_of_fetched hmay hf).trans (congrArg Host.Outcome.next (if_neg (by simp [hst])))
    · rintro rfl hst
      exact (exec_fence_of_fetched hmay hf).trans (congrArg Host.Outcome.next (if_pos hst))
    · rintro rfl
      exact ⟨_, (exec_tellerEcall s t).trans (tlrRow_of_fetched hmay hf rfl), faulted_tlrFault t s1 (by omega) none⟩
    · rintro rfl
      exact ⟨_, (exec_tellerEbreak s t).trans (tlrRow_of_fetched hmay hf rfl), faulted_tlrFault t s1 (by omega) none⟩
    · rintro rfl
      exact ⟨_, exec_tellerInstruction_of_fetched hmay hf rfl, faulted_tlrFault t s1 (by omega) none⟩
    · have hexec := (exec_tellerInstruction_of_fetched hmay hf (ownRow_of_plain hv)).trans
        (congrArg Host.Outcome.next (tlrBase_of_plain hv))
      obtain ⟨hpc, hreg, hothers, hvecs, hrest⟩ := wroteX_tlrSetX s1 t rd v n
      exact ⟨_, hexec, hpc, hreg, hothers, hvecs, hrest⟩
    · rintro rd rs1 imm size signed rfl a
      refine ⟨fun h => ?_, fun h ht => ?_, fun k s2 d h ht hr => ?_,
        fun off h ht hs => exec_load_of_fetched hmay hf (tlrLoad_of_page h ht hs),
        fun j k h ht => exec_load_of_fetched hmay hf (tlrLoad_of_bank h ht),
        fun p h ht hst ho hn => exec_load_of_fetched hmay hf (tlrLoad_of_net h ht hst ho hn)⟩
      · exact ⟨_, exec_load_of_fetched hmay hf (tlrLoad_of_misaligned h), faulted_tlrFault t s1 (by omega) _,
          faultAddr_tlrFault t s1 2 (wrapN_lt 32 _)⟩
      · exact ⟨_, exec_load_of_fetched hmay hf (tlrLoad_of_unmapped h ht), faulted_tlrFault t s1 (by omega) _,
          faultAddr_tlrFault t s1 3 (wrapN_lt 32 _)⟩
      · obtain ⟨⟨hpc, hreg, hothers, -, hrest⟩, hvecs⟩ := wroteX_ramLoad hr rd (loadExt 32 size signed (lanesOut d a size)) next
        exact ⟨_, ⟨exec_load_of_fetched hmay hf (tlrLoad_of_ram h ht hr), hpc, hvecs⟩, hreg, hothers, hrest⟩
    · rintro rs1 rs2 imm size rfl a
      refine ⟨fun h => ?_, fun h ht => ?_,
        fun k s2 d h ht hr => exec_store_of_fetched hmay hf (tlrStore_of_ram h ht hr),
        fun off h ht hs => exec_store_of_fetched hmay hf (tlrStore_of_page h ht hs),
        fun j k h ht => exec_store_of_fetched hmay hf (tlrStore_of_bank h ht),
        fun p h ht ho hn => exec_store_of_fetched hmay hf (tlrStore_of_net h ht ho hn)⟩
      · exact ⟨_, exec_store_of_fetched hmay hf (tlrStore_of_misaligned h), faulted_tlrFault t s1 (by omega) _,
          faultAddr_tlrFault t s1 2 (wrapN_lt 32 _)⟩
      · exact ⟨_, exec_store_of_fetched hmay hf (tlrStore_of_unmapped h ht), faulted_tlrFault t s1 (by omega) _,
          faultAddr_tlrFault t s1 3 (wrapN_lt 32 _)⟩

end Sys2Proof.Machine

/-!
SUPPORT. Vector instructions of tellers (12_tellers.md R240 to R244): the lanes of a packed vector, each operation on its lanes, and the
accesses of vectors.
-/

namespace Sys2Proof.Machine

/-! ### Packed lanes -/

/-- Digits of `b` bits each, digit i at bit b·i. -/
def packDigits (b : Nat) (f : Nat → Nat) (n : Nat) : Nat :=
  (List.range n).foldl (fun acc i => acc + f i % 2 ^ b * 2 ^ (b * i)) 0

section
variable (b : Nat) (f : Nat → Nat)

theorem packDigits_succ (n : Nat) : packDigits b f (n + 1) = packDigits b f n + f n % 2 ^ b * 2 ^ (b * n) := by
  unfold packDigits
  rw [List.range_succ, List.foldl_append]
  rfl

theorem packDigits_lt (n : Nat) : packDigits b f n < 2 ^ (b * n) := by
  induction n with
  | zero => simp [packDigits]
  | succ n ih =>
    have hdigit : f n % 2 ^ b < 2 ^ b := Nat.mod_lt _ (by positivity)
    calc packDigits b f (n + 1) = packDigits b f n + f n % 2 ^ b * 2 ^ (b * n) := packDigits_succ b f n
      _ < 2 ^ (b * n) + f n % 2 ^ b * 2 ^ (b * n) := by omega
      _ = (f n % 2 ^ b + 1) * 2 ^ (b * n) := by ring
      _ ≤ 2 ^ b * 2 ^ (b * n) := Nat.mul_le_mul_right _ hdigit
      _ = 2 ^ (b * (n + 1)) := by rw [← pow_add, Nat.mul_add_one, Nat.add_comm]

/-- Each digit reads as it was packed. -/
theorem digit_packDigits {i n : Nat} (h : i < n) : packDigits b f n / 2 ^ (b * i) % 2 ^ b = f i % 2 ^ b := by
  induction n with
  | zero => omega
  | succ n ih =>
    rw [packDigits_succ]
    obtain hlt | rfl := Nat.lt_succ_iff_lt_or_eq.mp h
    · obtain ⟨k, rfl⟩ := Nat.exists_eq_add_of_lt hlt
      have hsplit : f (i + k + 1) % 2 ^ b * 2 ^ (b * (i + k + 1)) = 2 ^ (b * i) * (2 ^ b * (f (i + k + 1) % 2 ^ b * 2 ^ (b * k))) := by
        rw [show b * (i + k + 1) = b * i + (b + b * k) by ring, pow_add, pow_add]
        ring
      rw [hsplit, Nat.add_mul_div_left _ _ (by positivity), Nat.add_mul_mod_self_left]
      exact ih hlt
    · rw [Nat.add_mul_div_right _ _ (by positivity), Nat.div_eq_of_lt (packDigits_lt b f i), Nat.zero_add, Nat.mod_mod]

end

section
variable (w32 : Bool)

theorem vpack_eq (f : Nat → Nat) : vpack w32 f = packDigits (laneBits w32) f (laneCount w32) := rfl

theorem laneBits_mul_laneCount : laneBits w32 * laneCount w32 = 128 := by cases w32 <;> rfl

theorem laneBits_bytes : 8 * (laneBits w32 / 8) = laneBits w32 := by cases w32 <;> rfl

theorem vpack_lt (f : Nat → Nat) : vpack w32 f < 2 ^ 128 := by
  rw [vpack_eq, ← laneBits_mul_laneCount w32]
  exact packDigits_lt _ f _

theorem vlane_vpack (f : Nat → Nat) {i : Nat} (h : i < laneCount w32) : vlane w32 (vpack w32 f) i = f i % 2 ^ laneBits w32 :=
  digit_packDigits _ f h

theorem vlane_lt (v i : Nat) : vlane w32 v i < 2 ^ laneBits w32 := Nat.mod_lt _ (by positivity)

end

/-- What is packed from lanes and written to a vector register reads back lane by lane. -/
theorem WroteV.lane {s u : State} {sec vd next : Nat} {w32 : Bool} {f : Nat → Nat} (h : WroteV s u sec vd (vpack w32 f) next) {i : Nat}
    (hi : i < laneCount w32) : vlane w32 (tlrV u sec vd) i = f i % 2 ^ laneBits w32 := by
  rw [h.vec, Nat.mod_eq_of_lt (vpack_lt w32 f), vlane_vpack w32 f hi]

/-! ### Lane arithmetic -/

/-- An operation that neither adds, subtracts nor multiplies modulo the lane gives a number of the lane's width. -/
theorem vopLane_lt {n a b : Nat} (ha : a < 2 ^ n) (hb : b < 2 ^ n) {o : VOp} (ho : o ≠ .add ∧ o ≠ .sub ∧ o ≠ .mul) :
    vopLane n o a b < 2 ^ n := by
  have hpos : 0 < 2 ^ n := by positivity
  have hite : ∀ (p : Prop) [Decidable p] {x y : Nat}, x < 2 ^ n → y < 2 ^ n → (if p then x else y) < 2 ^ n :=
    fun p _ _ _ hx hy => by split <;> assumption
  have hall : 2 ^ n - 1 < 2 ^ n := by omega
  cases o with
  | add | sub | mul => simp at ho
  | mulh => exact wrapN_lt n _
  | mulhu => exact Nat.div_lt_of_lt_mul (Nat.mul_lt_mul'' ha hb)
  | min => exact hite _ ha hb
  | minu => exact (Nat.min_le_left a b).trans_lt ha
  | max => exact hite _ ha hb
  | maxu => exact Nat.max_lt.mpr ⟨ha, hb⟩
  | seq => exact hite _ hall hpos
  | slt => exact hite _ hall hpos
  | sltu => exact hite _ hall hpos
  | sel => exact hpos

/-- VSEL takes a bit from its first source where its destination holds 1, and from its second one elsewhere (R241). -/
theorem testBit_vsel {d : Nat} (hd : d < 2 ^ 128) (a b : Nat) {i : Nat} (hi : i < 128) :
    (vopEval .sel false d a b).testBit i = if d.testBit i then a.testBit i else b.testBit i := by
  have hnot : (2 ^ 128 - 1 - d).testBit i = !d.testBit i := by
    rw [Nat.sub_sub, Nat.add_comm 1 d, Nat.testBit_two_pow_sub_succ hd]
    simp [hi]
  change ((d &&& a) ||| ((2 ^ 128 - 1 - d) &&& b)).testBit i = _
  rw [Nat.testBit_or, Nat.testBit_and, Nat.testBit_and, hnot]
  cases d.testBit i <;> simp

theorem coe_wrapN (n : Nat) (x : Int) : (wrapN n x : Int) = x % 2 ^ n := by
  unfold wrapN
  have hpos : ((2 ^ n : Nat) : Int) ≠ 0 := by positivity
  rw [Int.toNat_of_nonneg (Int.emod_nonneg x hpos)]
  norm_cast

/-- A reduction is the sum of its lanes modulo 2^32. -/
theorem coe_vredsumEval (unsig w32 : Bool) (a : Nat) : (vredsumEval unsig w32 a : Int) =
    (((List.range (laneCount w32)).map fun i => if unsig then (vlane w32 a i : Int) else sext (laneBits w32) (vlane w32 a i)).sum) % 2 ^ 32 := by
  unfold vredsumEval
  rw [coe_wrapN, List.sum_eq_foldl, List.foldl_map]

/-- A reduction written to a register other than x0 reads as the sum. -/
theorem WroteX.redsum {s u : State} {sec rd next a : Nat} {unsig w32 : Bool} (h : WroteX s u sec rd (vredsumEval unsig w32 a) next)
    (hr : rd ≠ 0) : (tlrX u sec rd : Int) =
      (((List.range (laneCount w32)).map fun i => if unsig then (vlane w32 a i : Int) else sext (laneBits w32) (vlane w32 a i)).sum) % 2 ^ 32 := by
  rw [h.reg hr, Nat.mod_eq_of_lt (show vredsumEval unsig w32 a < 2 ^ 32 from wrapN_lt 32 _), coe_vredsumEval]

/-- VEXTU gives its lane as it stands. -/
theorem loadExt_lane_unsigned (w32 : Bool) (v l : Nat) : loadExt 32 (laneBits w32 / 8) false (vlane w32 v l) % 2 ^ 32 = vlane w32 v l := by
  have hlane := vlane_lt w32 v l
  have hwidth : laneBits w32 ≤ 32 := by cases w32 <;> decide
  unfold loadExt
  rw [if_neg Bool.false_ne_true, laneBits_bytes, Nat.mod_eq_of_lt hlane]
  exact Nat.mod_eq_of_lt (hlane.trans_le (Nat.pow_le_pow_right (by omega) hwidth))

/-- VEXT gives its lane with its sign. -/
theorem loadExt_lane_signed (w32 : Bool) (v l : Nat) :
    loadExt 32 (laneBits w32 / 8) true (vlane w32 v l) % 2 ^ 32 = wrapN 32 (sext (laneBits w32) (vlane w32 v l)) := by
  unfold loadExt
  rw [if_pos rfl, laneBits_bytes]
  exact Nat.mod_eq_of_lt (wrapN_lt 32 _)

/-! ### The row of a vector instruction -/

theorem wroteV_vv (s : State) (sec : Nat) (o : VOp) (w32 : Bool) (vd a b : Nat) : WroteV s (tlrT s sec (.vv o w32 vd a b)) sec vd
    (vopEval o w32 (tlrV s sec vd) (tlrV s sec a) (tlrV s sec b)) (tNext s sec) := wroteV_tlrSetV s sec vd _ _

section
variable {s s1 : State} {t : Fin 240} {w len : Nat} (hmay : tlrMayIssue s t = true) (hf : tlrFetch s t = (s1, .inl (.custom w, len)))
include hmay hf

theorem tRow_of_decoded {mine : TInstr → Bool} {d : TInstr} (hd : decodeT w = some d) (hm : mine d = true) :
    tRow s t mine = .next (tlrT s1 t d) := by
  refine (tlrRow_of_fetched hmay hf ?_).trans (congrArg Host.Outcome.next ?_)
  · dsimp only
    rw [hd]
    exact hm
  · dsimp only
    rw [hd]

/-- A lane-wise operation: each lane of the destination is the operation on the lanes of its sources. -/
theorem tRow_lanes {o : VOp} (ho : o ≠ .sel) {f : Nat → Nat → Nat → Nat}
    (hlane : ∀ n a b, a < 2 ^ n → b < 2 ^ n → vopLane n o a b % 2 ^ n = f n a b) {w32 : Bool} {vd a b : Nat}
    (hd : decodeT w = some (.vv o w32 vd a b)) : ∃ u, tRow s t (isVV o) = .next u ∧
      (∀ i < laneCount w32, vlane w32 (tlrV u t vd) i =
        f (laneBits w32) (vlane w32 (tlrV s1 t a) i) (vlane w32 (tlrV s1 t b) i)) ∧
      (u.tlr t).pc = tNext s1 t ∧ (u.tlr t).x = (s1.tlr t).x ∧ (∀ r, r ≠ vd → tlrV u t r = tlrV s1 t r) ∧
      { u with tellers := s1.tellers } = s1 := by
  have hpack : vopEval o w32 (tlrV s1 t vd) (tlrV s1 t a) (tlrV s1 t b) =
      vpack w32 fun i => vopLane (laneBits w32) o (vlane w32 (tlrV s1 t a) i) (vlane w32 (tlrV s1 t b) i) := by
    cases o with
    | sel => exact absurd rfl ho
    | add | sub | mul | mulh | mulhu | min | minu | max | maxu | seq | slt | sltu => rfl
  have hw := wroteV_vv s1 t o w32 vd a b
  rw [hpack] at hw
  exact ⟨_, tRow_of_decoded hmay hf hd (by simp [isVV]),
    fun i hi => (hw.lane hi).trans (hlane _ _ _ (vlane_lt w32 _ i) (vlane_lt w32 _ i)), hw.pc, hw.regs, hw.others, hw.rest⟩

/-- A lane-wise operation whose result is within the lane. -/
theorem tRow_lanes_of_lt {o : VOp} (ho : o ≠ .sel ∧ o ≠ .add ∧ o ≠ .sub ∧ o ≠ .mul) {w32 : Bool} {vd a b : Nat}
    (hd : decodeT w = some (.vv o w32 vd a b)) : ∃ u, tRow s t (isVV o) = .next u ∧
      (∀ i < laneCount w32, vlane w32 (tlrV u t vd) i =
        vopLane (laneBits w32) o (vlane w32 (tlrV s1 t a) i) (vlane w32 (tlrV s1 t b) i)) ∧
      (u.tlr t).pc = tNext s1 t ∧ (u.tlr t).x = (s1.tlr t).x ∧ (∀ r, r ≠ vd → tlrV u t r = tlrV s1 t r) ∧
      { u with tellers := s1.tellers } = s1 :=
  tRow_lanes hmay hf ho.1 (f := fun n => vopLane n o) (fun _ _ _ ha hb => Nat.mod_eq_of_lt (vopLane_lt ha hb ho.2)) hd

end

/-! ### Vector accesses by where their addresses lead -/

section
variable {s : State} {sec a vd : Nat}

theorem tlrVld_of_misaligned (h : a % 16 ≠ 0) : tlrVld s sec vd a = tlrFault s sec 2 (some a) := if_pos h

theorem tlrVst_of_misaligned (h : a % 16 ≠ 0) : tlrVst s sec vd a = tlrFault s sec 2 (some a) := if_pos h

variable (ha : a % 16 = 0)
include ha

theorem tlrVld_of_ram {k lo hi : Nat} {s2 s3 : State} (ht : tlrTarget s sec a = .ram k) (hlo : tramRead s sec k = (s2, some lo))
    (hhi : tramRead s2 sec (k + 1) = (s3, some hi)) :
    tlrVld s sec vd a = tlrNext (tlrSetV s3 sec vd (lo + 2 ^ 64 * hi)) sec (tNext s sec) := by
  unfold tlrVld
  dsimp only
  rw [if_neg (not_not.mpr ha), ht]
  dsimp only
  rw [hlo]
  dsimp only
  rw [hhi]

theorem tlrVld_of_bank {j k : Nat} (ht : tlrTarget s sec a = .bank j k) : tlrVld s sec vd a = tlrBankStart s sec j 1 vd 16 false
    [(a, tlrBankReq sec .read k a 8 0), (a, tlrBankReq sec .read (k + 1) a 8 0)] (tNext s sec) := by
  unfold tlrVld
  dsimp only
  rw [if_neg (not_not.mpr ha), ht]

/-- Both halves of a network VLD are requested together, with room for two. -/
theorem tlrVld_of_net {p : Nat} (ht : tlrTarget s sec a = .net p) (hst : tlrStores s sec = false) (ho : tlrOut s sec ≤ 6)
    (hn : s.napFenced sec = false) :
    let q1 := tlrIssue s sec 0 p 8 0 1 0
    let q2 := tlrIssue q1.1 sec 0 (p + 8) 8 0 1 1
    tlrVld s sec vd a = q2.1.setTlr sec { s.tlr sec with wait := .net true vd 16 false a [q1.2, q2.2] [] false (tNext s sec) } := by
  unfold tlrVld
  dsimp only
  rw [if_neg (not_not.mpr ha), ht]
  exact if_neg (by simp [hst, hn, ho])

theorem tlrVst_of_ram {k : Nat} (ht : tlrTarget s sec a = .ram k) : tlrVst s sec vd a =
    tlrNext (tramWrite (tramWrite s sec k (tlrV s sec vd % 2 ^ 64)) sec (k + 1) (tlrV s sec vd / 2 ^ 64)) sec (tNext s sec) := by
  unfold tlrVst
  dsimp only
  rw [if_neg (not_not.mpr ha), ht]

theorem tlrVst_of_bank {j k : Nat} (ht : tlrTarget s sec a = .bank j k) : tlrVst s sec vd a = tlrBankStart s sec j 2 0 16 false
    [(a, tlrBankReq sec .write k a 8 (tlrV s sec vd % 2 ^ 64)), (a, tlrBankReq sec .write (k + 1) a 8 (tlrV s sec vd / 2 ^ 64))]
    (tNext s sec) := by
  unfold tlrVst
  dsimp only
  rw [if_neg (not_not.mpr ha), ht]

theorem tlrVst_of_net {p : Nat} (ht : tlrTarget s sec a = .net p) (ho : tlrOut s sec ≤ 6) (hn : s.napFenced sec = false) :
    tlrVst s sec vd a = tlrNext (tlrIssue (tlrIssue s sec 1 p 8 (tlrV s sec vd % 2 ^ 64) 0 0).1 sec 1 (p + 8) 8
      (tlrV s sec vd / 2 ^ 64) 0 1).1 sec (tNext s sec) := by
  unfold tlrVst
  dsimp only
  rw [if_neg (not_not.mpr ha), ht]
  exact if_neg (by simp [hn, ho])

end

section
variable {s : State} {sec a vc vi : Nat} {sat : Bool}

/-- The eight additions of VTALLY, at words of one bank (R244). -/
theorem tlrVtally_of_bank {i k : Nat} (ht : tlrTarget s sec a = .bank i k) (ha : a % 8 = 0) : tlrVtally s sec vc vi a sat =
    tlrBankStart s sec i 3 0 8 false
      ((((List.range 8).map fun l => (k + vlane false (tlrV s sec vi) l) % 4096).zipIdx).map fun p => (a - 8 * k + 8 * p.1,
        tlrBankReq sec (if sat then .addu else .add) p.1 (a - 8 * k + 8 * p.1) 8 (vlane false (tlrV s sec vc) p.2))) (tNext s sec) := by
  unfold tlrVtally
  rw [ht]
  exact if_neg (by omega)

theorem tlrVtally_of_bad (h : a % 8 ≠ 0 ∨ ∀ i k, tlrTarget s sec a ≠ .bank i k) :
    tlrVtally s sec vc vi a sat = tlrFault s sec 3 (some a) := by
  unfold tlrVtally
  split
  next i k hb => exact if_pos (h.resolve_right fun hn => hn i k hb)
  next => rfl

end

/-! ### The obligation of vectors -/

/-- Settles O28: a lane-wise operation by its lanes, VSEL by its bits, a reduction by its sum, and an access by where its address leads. -/
theorem tellerVectors : Obligations.TellerVectors := by
  unfold Obligations.TellerVectors
  intro s s1 t w len hmay hf x v next bits count writesV lanes writesX
  have hadd : ∀ n a b, a < 2 ^ n → b < 2 ^ n → vopLane n .add a b % 2 ^ n = (a + b) % 2 ^ n := fun _ _ _ _ _ => rfl
  have hsub : ∀ n a b, a < 2 ^ n → b < 2 ^ n → vopLane n .sub a b % 2 ^ n = (a + (2 ^ n - b)) % 2 ^ n :=
    fun n a b _ hb => congrArg (· % 2 ^ n) (Nat.add_sub_assoc hb.le a)
  have hmul : ∀ n a b, a < 2 ^ n → b < 2 ^ n → vopLane n .mul a b % 2 ^ n = a * b % 2 ^ n := fun _ _ _ _ _ => rfl
  refine ⟨fun _ _ _ _ => tRow_lanes hmay hf (by decide) hadd, fun _ _ _ _ => tRow_lanes hmay hf (by decide) hsub,
    fun _ _ _ _ => tRow_lanes hmay hf (by decide) hmul, fun _ _ _ _ => tRow_lanes_of_lt hmay hf (by decide),
    fun _ _ _ _ => tRow_lanes_of_lt hmay hf (by decide), fun _ _ _ _ => tRow_lanes_of_lt hmay hf (by decide),
    fun _ _ _ _ => tRow_lanes_of_lt hmay hf (by decide), fun _ _ _ _ => tRow_lanes_of_lt hmay hf (by decide),
    fun _ _ _ _ => tRow_lanes_of_lt hmay hf (by decide), fun _ _ _ _ => tRow_lanes_of_lt hmay hf (by decide),
    fun _ _ _ _ => tRow_lanes_of_lt hmay hf (by decide), fun _ _ _ _ => tRow_lanes_of_lt hmay hf (by decide),
    fun vd a b hd => ?_, fun w32 rd a hd => ?_, fun w32 rd a hd => ?_, fun w32 vd r hd => ?_, fun w32 rd a l hd => ?_, fun w32 rd a l hd => ?_,
    fun w32 vd r l hd => ?_, fun vd r imm hd => ?_, fun vs r imm hd => ?_, fun vc vi r sat hd => ?_⟩
  · have hw := wroteV_vv s1 t .sel false vd a b
    refine ⟨_, tRow_of_decoded hmay hf hd rfl, fun i hi => ?_, hw.pc, hw.regs, hw.others, hw.rest⟩
    rw [hw.vec, Nat.testBit_mod_two_pow, decide_eq_true hi, Bool.true_and]
    exact testBit_vsel (tlrV_lt s1 t vd) _ _ hi
  · have hw := wroteX_tlrSetX s1 t rd (vredsumEval false w32 (v a)) next
    exact ⟨_, tRow_of_decoded hmay hf hd rfl, ⟨hw.pc, hw.vecs, hw.others, hw.rest⟩, hw.redsum⟩
  · have hw := wroteX_tlrSetX s1 t rd (vredsumEval true w32 (v a)) next
    exact ⟨_, tRow_of_decoded hmay hf hd rfl, ⟨hw.pc, hw.vecs, hw.others, hw.rest⟩, hw.redsum⟩
  · have hw := wroteV_tlrSetV s1 t vd (vpack w32 fun _ => x r) next
    exact ⟨_, tRow_of_decoded hmay hf hd rfl, fun i hi => hw.lane hi, hw.pc, hw.regs, hw.others, hw.rest⟩
  · have hw := wroteX_tlrSetX s1 t rd (loadExt 32 (laneBits w32 / 8) false (vlane w32 (v a) l)) next
    refine ⟨_, tRow_of_decoded hmay hf hd rfl, ⟨hw.pc, hw.vecs, hw.others, hw.rest⟩, fun hr => (hw.reg hr).trans ?_⟩
    exact loadExt_lane_unsigned w32 _ l
  · have hw := wroteX_tlrSetX s1 t rd (loadExt 32 (laneBits w32 / 8) true (vlane w32 (v a) l)) next
    refine ⟨_, tRow_of_decoded hmay hf hd rfl, ⟨hw.pc, hw.vecs, hw.others, hw.rest⟩, fun hr => (hw.reg hr).trans ?_⟩
    exact loadExt_lane_signed w32 _ l
  · have hw := wroteV_tlrSetV s1 t vd (vpack w32 fun i => if i = l then x r else vlane w32 (v vd) i) next
    refine ⟨_, tRow_of_decoded hmay hf hd rfl, fun i hi => (hw.lane hi).trans ?_, hw.pc, hw.regs, hw.others, hw.rest⟩
    split
    · rfl
    · exact Nat.mod_eq_of_lt (vlane_lt w32 _ i)
  · have hexec : exec (.vld t) s = .next (tlrVld s1 t vd (wrapN 32 ((x r : Int) + imm))) := tRow_of_decoded hmay hf hd rfl
    intro a
    exact ⟨fun h => hexec.trans (congrArg Host.Outcome.next (tlrVld_of_misaligned h)),
      fun k s2 lo s3 hi h ht hlo hhi => hexec.trans (congrArg Host.Outcome.next (tlrVld_of_ram h ht hlo hhi)),
      fun j k h ht => hexec.trans (congrArg Host.Outcome.next (tlrVld_of_bank h ht)),
      fun p h ht hst ho hn => hexec.trans (congrArg Host.Outcome.next (tlrVld_of_net h ht hst ho hn))⟩
  · have hexec : exec (.vst t) s = .next (tlrVst s1 t vs (wrapN 32 ((x r : Int) + imm))) := tRow_of_decoded hmay hf hd rfl
    intro a lo hi
    exact ⟨fun h => hexec.trans (congrArg Host.Outcome.next (tlrVst_of_misaligned h)),
      fun k h ht => hexec.trans (congrArg Host.Outcome.next (tlrVst_of_ram h ht)),
      fun j k h ht => hexec.trans (congrArg Host.Outcome.next (tlrVst_of_bank h ht)),
      fun p h ht ho hn => hexec.trans (congrArg Host.Outcome.next (tlrVst_of_net h ht ho hn))⟩
  · have hexec : exec (.vtally t) s = .next (tlrVtally s1 t vc vi (x r) sat) := tRow_of_decoded hmay hf hd rfl
    exact ⟨fun i k ht h => hexec.trans (congrArg Host.Outcome.next (tlrVtally_of_bank ht h)),
      fun h => hexec.trans (congrArg Host.Outcome.next (tlrVtally_of_bad h))⟩

end Sys2Proof.Machine

/-!
SUPPORT. Triggers of tellers (12_tellers.md R247 to R250, R252): what is pending, the causes that TWAIT and TSETTLE take, waiting, waking and
TRAISE.
-/

namespace Sys2Proof.Machine

/-! ### Causes that are pending -/

section
variable (s : State) (sec : Nat)

/-- What a teller sees pending rests on its causes and on the TLR cycle. -/
theorem tlrPend_congr {u : State} (hp : (u.tlr sec).pend = (s.tlr sec).pend) (hf : (u.tlr sec).fresh = (s.tlr sec).fresh)
    (ha : (u.tlr sec).freshAt = (s.tlr sec).freshAt) (hc : u.tlrCycle = s.tlrCycle) : tlrPend u sec = tlrPend s sec := by
  unfold tlrPend
  dsimp only
  rw [hp, hf, ha, hc]

theorem tlrPend_tlrSetX (rd v : Nat) : tlrPend (tlrSetX s sec rd v) sec = tlrPend s sec := by
  have htlr := tlr_tlrSetX s sec rd v
  exact tlrPend_congr s sec (congrArg Teller.pend htlr :) (congrArg Teller.fresh htlr :) (congrArg Teller.freshAt htlr :)
    (tellersOnly_tlrSetX s sec rd v).tlrCycle

theorem tellersOnly_tlrClear (bits : Nat) : TellersOnly s (tlrClear s sec bits) := by
  unfold tlrClear
  dsimp only
  split <;> exact tellersOnly_setTlr s sec _

theorem tellersOnly_tlrResume (next : Nat) : TellersOnly s (tlrResume s sec next) := tellersOnly_setTlr s sec _

/-- Clearing causes changes nothing else of the teller. -/
theorem tlr_tlrClear (bits : Nat) : (tlrClear s sec bits).tlr sec =
    { s.tlr sec with pend := ((tlrClear s sec bits).tlr sec).pend, fresh := ((tlrClear s sec bits).tlr sec).fresh } := by
  unfold tlrClear
  dsimp only
  split <;> simp

/-- Of the causes that are visible, those cleared are pending no longer. -/
theorem tlrPend_tlrClear (bits : Nat) : tlrPend (tlrClear s sec bits) sec = tlrPend s sec &&& (0xFFFF ^^^ bits) := by
  have hcycle := (tellersOnly_tlrClear s sec bits).tlrCycle
  by_cases h : (s.tlr sec).freshAt < s.tlrCycle
  · have htlr : (tlrClear s sec bits).tlr sec =
        { s.tlr sec with pend := ((s.tlr sec).pend ||| (s.tlr sec).fresh) &&& (0xFFFF ^^^ bits), fresh := 0 } := by
      unfold tlrClear
      dsimp only
      rw [if_pos h, tlr_setTlr_self]
    simp [tlrPend, htlr, hcycle, h]
  · have htlr : (tlrClear s sec bits).tlr sec = { s.tlr sec with pend := (s.tlr sec).pend &&& (0xFFFF ^^^ bits) } := by
      unfold tlrClear
      dsimp only
      rw [if_neg h, tlr_setTlr_self]
    simp [tlrPend, htlr, hcycle, h]

/-- A cause of the sixteen stays pending unless it is cleared. -/
theorem testBit_clearedPend (p bits : Nat) {b : Nat} (hb : b < 16) :
    (p &&& (0xFFFF ^^^ bits)).testBit b = (p.testBit b && !bits.testBit b) := by
  have hones : Nat.testBit 0xFFFF b = true := by
    rw [show 0xFFFF = 2 ^ 16 - 1 from rfl, Nat.testBit_two_pow_sub_one]
    exact decide_eq_true hb
  rw [Nat.testBit_and, Nat.testBit_xor, hones, Bool.true_xor]

end

/-! ### Causes taken -/

/-- A TWAIT or TSETTLE that has taken the causes `c` in the present cycle: register rd holds them, they are pending no longer, and the teller
runs on at `next` from the next TLR cycle, in which it is in RUN again if it has waited (R247 to R249). -/
def Took (sec : Nat) (u v : State) (rd c next : Nat) : Prop :=
  (rd ≠ 0 → tlrX v sec rd = c % 2 ^ 32) ∧ (v.tlr sec).pc = next ∧ (v.tlr sec).wait = .none ∧ (v.tlr sec).ready = u.tlrCycle + 1 ∧
    (v.tlr sec).waking = (if u.tlrState sec = 1 then none else some (u.tlrCycle, u.tlrState sec)) ∧
    (∀ r, r ≠ rd → tlrX v sec r = tlrX u sec r) ∧ (v.tlr sec).v = (u.tlr sec).v ∧
    (∀ b < 16, c.testBit b = true → (tlrPend v sec).testBit b = false) ∧
    (∀ b, c.testBit b = false → b < 16 → (tlrPend v sec).testBit b = (tlrPend u sec).testBit b) ∧ { v with tellers := u.tellers } = u

/-- The causes written to rd, cleared, and the teller resumed. -/
def causesTaken (s : State) (sec rd c next : Nat) : State := tlrResume (tlrClear (tlrSetX s sec rd c) sec c) sec next

section
variable (s : State) (sec rd c next : Nat)

theorem tellersOnly_causesCleared : TellersOnly s (tlrClear (tlrSetX s sec rd c) sec c) :=
  (tellersOnly_tlrSetX s sec rd c).trans (tellersOnly_tlrClear _ sec c)

theorem tellersOnly_causesTaken : TellersOnly s (causesTaken s sec rd c next) :=
  (tellersOnly_causesCleared s sec rd c).trans (tellersOnly_tlrResume _ sec next)

theorem tlr_causesTaken : (causesTaken s sec rd c next).tlr sec = { (tlrClear (tlrSetX s sec rd c) sec c).tlr sec with
    wait := .none, pc := next, ready := s.tlrCycle + 1,
    waking := if s.tlrState sec = 1 then none else some (s.tlrCycle, s.tlrState sec) } := by
  have hcleared := tellersOnly_causesCleared s sec rd c
  have hstate : (tlrClear (tlrSetX s sec rd c) sec c).tlrState sec = s.tlrState sec := getF_of_regs hcleared.regs _
  rw [← hcleared.tlrCycle, ← hstate]
  exact tlr_setTlr_self _ sec _

theorem tlrX_causesTaken (r : Nat) : tlrX (causesTaken s sec rd c next) sec r = tlrX (tlrSetX s sec rd c) sec r := by
  have hregs : ((causesTaken s sec rd c next).tlr sec).x = ((tlrSetX s sec rd c).tlr sec).x :=
    (congrArg Teller.x (tlr_causesTaken s sec rd c next) :).trans (congrArg Teller.x (tlr_tlrClear (tlrSetX s sec rd c) sec c) :)
  unfold tlrX
  rw [hregs]

theorem vecs_causesTaken : ((causesTaken s sec rd c next).tlr sec).v = (s.tlr sec).v :=
  calc ((causesTaken s sec rd c next).tlr sec).v = ((tlrClear (tlrSetX s sec rd c) sec c).tlr sec).v :=
        (congrArg Teller.v (tlr_causesTaken s sec rd c next) :)
    _ = ((tlrSetX s sec rd c).tlr sec).v := (congrArg Teller.v (tlr_tlrClear (tlrSetX s sec rd c) sec c) :)
    _ = (s.tlr sec).v := (congrArg Teller.v (tlr_tlrSetX s sec rd c) :)

theorem tlrPend_causesTaken : tlrPend (causesTaken s sec rd c next) sec = tlrPend s sec &&& (0xFFFF ^^^ c) := by
  have htlr := tlr_causesTaken s sec rd c next
  have hcycle := (tellersOnly_tlrResume (tlrClear (tlrSetX s sec rd c) sec c) sec next).tlrCycle
  calc tlrPend (causesTaken s sec rd c next) sec = tlrPend (tlrClear (tlrSetX s sec rd c) sec c) sec :=
        tlrPend_congr _ sec (congrArg Teller.pend htlr :) (congrArg Teller.fresh htlr :) (congrArg Teller.freshAt htlr :) hcycle
    _ = tlrPend s sec &&& (0xFFFF ^^^ c) := by rw [tlrPend_tlrClear, tlrPend_tlrSetX]

theorem took_causesTaken : Took sec s (causesTaken s sec rd c next) rd c next := by
  have htlr := tlr_causesTaken s sec rd c next
  refine ⟨fun h => (tlrX_causesTaken s sec rd c next rd).trans (tlrX_tlrSetX_self s sec rd c h), congrArg Teller.pc htlr,
    congrArg Teller.wait htlr, congrArg Teller.ready htlr, congrArg Teller.waking htlr,
    fun r h => (tlrX_causesTaken s sec rd c next r).trans (tlrX_tlrSetX_ne s sec rd c h), vecs_causesTaken s sec rd c next,
    fun b hb hc => ?_, fun b hc hb => ?_, tellersOnly_causesTaken s sec rd c next⟩
  · rw [tlrPend_causesTaken, testBit_clearedPend _ _ hb, hc, Bool.not_true, Bool.and_false]
  · rw [tlrPend_causesTaken, testBit_clearedPend _ _ hb, hc, Bool.not_false, Bool.and_true]

end

/-! ### TWAIT and TSETTLE -/

/-- A teller that waits, in its state of waiting. -/
def waiting (s : State) (sec : Nat) (w : TlrWait) (st : Nat) : State := (s.setTlr sec { s.tlr sec with wait := w }).setTlrState sec st

theorem waiting_reads (s : State) (sec : Nat) (w : TlrWait) {st : Nat} (h : st < 8) : (waiting s sec w st).tlrState sec = st ∧
    (waiting s sec w st).tlr sec = { s.tlr sec with wait := w } ∧ BitsBut [Reg.SEC_TLR_STAT_STATE sec] s (waiting s sec w st) ∧
    { waiting s sec w st with regs := s.regs, cyc := s.cyc, tellers := s.tellers } = s :=
  ⟨tlrState_setTlrState _ sec h, (tlr_of_tellers rfl sec).trans (tlr_setTlr_self s sec _),
    bitsBut_setTlrState (State.setTlr_regs s sec _) sec st, rfl⟩

section
variable {s : State} {sec rd : Nat}

theorem tlrTwait_of_pending (h : tlrWaitCauses s sec ≠ 0) :
    tlrTwait s sec rd = causesTaken s sec rd (tlrWaitCauses s sec) (tNext s sec) := if_pos h

theorem tlrTwait_of_none (h : tlrWaitCauses s sec = 0) : tlrTwait s sec rd = waiting s sec (.twait rd (tNext s sec)) 2 :=
  if_neg (not_not.mpr h)

theorem tlrTsettle_of_outstanding (h : tlrOut s sec ≠ 0) : tlrTsettle s sec rd = s := if_pos h

section
variable (h : tlrOut s sec = 0)
include h

theorem tlrTsettle_of_frame (hp : (tlrPend s sec).testBit 1 = true) :
    tlrTsettle s sec rd = causesTaken s sec rd (tlrPend s sec &&& 0x1A) (tNext s sec) :=
  (if_neg (not_not.mpr h)).trans (if_pos hp)

theorem tlrTsettle_of_none (hp : (tlrPend s sec).testBit 1 = false) : tlrTsettle s sec rd = waiting s sec (.settle rd (tNext s sec)) 3 :=
  (if_neg (not_not.mpr h)).trans (if_neg (by simp [hp]))

end

end

/-! ### TRAISE -/

/-- What TRAISE records of itself (R252). -/
theorem tlrTraise_reads (s : State) (sec r : Nat) : (tlrTraise s sec r).flag (Reg.SEC_TLR_STAT_EVT sec) = true ∧
    (tlrTraise s sec r).getF (Reg.SEC_TLR_STAT_EVCODE sec) = tlrX s sec r % 256 ∧
    (tlrTraise s sec r).raised = (s.raiseEv (232 + sec / 15)).raised ∧
    (tlrTraise s sec r).tlr sec = { s.tlr sec with pc := tNext s sec, ready := s.tlrCycle + 1 } ∧
    BitsBut [Reg.SEC_TLR_STAT_EVT sec, Reg.SEC_TLR_STAT_EVCODE sec] s (tlrTraise s sec r) ∧
    { tlrTraise s sec r with regs := s.regs, cyc := s.cyc, raised := s.raised, tellers := s.tellers } = s := by
  have hw : Wrote [(Reg.SEC_TLR_STAT_EVCODE sec, tlrX s sec r % 256), (Reg.SEC_TLR_STAT_EVT sec, 1)] s (tlrTraise s sec r) :=
    (((Wrote.refl s).raiseF _).setF _ _).of_regs rfl
  have hsep : Separate [Reg.SEC_TLR_STAT_EVCODE sec, Reg.SEC_TLR_STAT_EVT sec] := by
    simp [Separate, Field.Fits, Field.Apart, Reg.SEC_TLR_STAT_EVCODE, Reg.SEC_TLR_STAT_EVT]
  exact ⟨hw.flag hsep (b := true) (by simp), hw.getF hsep (by simp) (Nat.mod_lt _ (by decide)),
    raiseEv_raised_congr _ rfl (raiseF_evs _ _) rfl rfl, tlr_setTlr_self _ sec _, bitsBut_mono (hw.bitsBut hsep) (by simp), rfl⟩

/-! ### Waking -/

section
variable {s : State} {t : Fin 240} (hrun : s.slotRuns = true) (hclk : tlrClock s = true) (hduty : dutyOpen s s.tlrCycle = true)
include hrun hclk hduty

theorem exec_tellerWake_of_cause {rd next : Nat} (hw : (s.tlr t).wait = .twait rd next) (hst : s.tlrState t = 2)
    (hc : tlrWaitCauses s t ≠ 0) : exec (.tellerWake t) s = .next (causesTaken s t rd (tlrWaitCauses s t) next) := by
  rw [exec_tellerWake]
  unfold execTellerWake
  dsimp only
  rw [hw]
  exact okIf_of_true _ _ (by simp [hrun, hclk, hduty, hst, hc])

variable (hst : s.tlrState t = 3) (hp : (tlrPend s t).testBit 1 = true)
include hst hp

theorem exec_tellerSettleWake_of_frame {rd next : Nat} (hw : (s.tlr t).wait = .settle rd next) :
    exec (.tellerSettleWake t) s = .next (causesTaken s t rd (tlrPend s t &&& 0x1A) next) := by
  rw [exec_tellerSettleWake]
  unfold execTellerSettleWake
  dsimp only
  rw [hw]
  exact okIf_of_true _ _ (by simp [hrun, hclk, hduty, hst, hp])

/-- After an overdraft the teller starts where its program counter stands, at OVD_PC (R250). -/
theorem exec_tellerSettleWake_of_overdraft (hw : (s.tlr t).wait = .overdraft) : exec (.tellerSettleWake t) s =
    .next (s.setTlr t { s.tlr t with wait := .none, ready := s.tlrCycle + 1, waking := some (s.tlrCycle, 3) }) := by
  rw [exec_tellerSettleWake]
  unfold execTellerSettleWake
  dsimp only
  rw [hw]
  refine (okIf_of_true _ _ (by simp [hrun, hclk, hduty, hst, hp])).trans ?_
  unfold tlrResume
  rw [hst]
  rfl

end

/-- The cycle in which a teller woke ends with it in RUN. -/
theorem tlrCycleEnd_of_waking {s : State} {sec c st : Nat} (hw : (s.tlr sec).waking = some (c, st)) (hc : s.cfgSlots = 2 * c + 2) :
    tlrCycleEnd s sec = s.setTlrState sec 1 := by
  unfold tlrCycleEnd
  dsimp only
  rw [if_neg (by omega), hw]
  exact if_pos (by omega)

/-! ### The obligation of triggers -/

/-- Settles O29: an instruction by whether its causes are pending, a teller that waits by what wakes it, and the end of the cycle by the state
that it writes. -/
theorem tellerTriggers : Obligations.TellerTriggers := by
  unfold Obligations.TellerTriggers
  intro s t took
  refine ⟨fun s1 w len hmay hf => ?_,
    fun rd next hw hrun hclk hduty hst hc => ⟨_, exec_tellerWake_of_cause hrun hclk hduty hw hst hc, took_causesTaken s t rd _ next⟩,
    fun hrun hclk hduty hst hp => ⟨fun rd next hw =>
        ⟨_, exec_tellerSettleWake_of_frame hrun hclk hduty hst hp hw, took_causesTaken s t rd _ next⟩,
      fun hw => exec_tellerSettleWake_of_overdraft hrun hclk hduty hst hp hw⟩,
    fun c st hw hc => tlrCycleEnd_of_waking hw hc⟩
  intro next
  have htwait : ∀ rd, decodeT w = some (.twait rd) → ∀ u, tlrTwait s1 t rd = u → exec (.twait t) s = .next u :=
    fun rd hd u h => (tRow_of_decoded hmay hf hd rfl).trans (congrArg Host.Outcome.next h)
  have htsettle : ∀ rd, decodeT w = some (.tsettle rd) → ∀ u, tlrTsettle s1 t rd = u → exec (.tsettle t) s = .next u :=
    fun rd hd u h => (tRow_of_decoded hmay hf hd rfl).trans (congrArg Host.Outcome.next h)
  exact ⟨fun rd hd h => ⟨_, htwait rd hd _ (tlrTwait_of_pending h), took_causesTaken s1 t rd _ next⟩,
    fun rd hd h => ⟨_, htwait rd hd _ (tlrTwait_of_none h), waiting_reads s1 t _ (by omega)⟩,
    fun rd hd h hp => ⟨_, htsettle rd hd _ (tlrTsettle_of_frame h hp), took_causesTaken s1 t rd _ next⟩,
    fun rd hd h hp => ⟨_, htsettle rd hd _ (tlrTsettle_of_none h hp), waiting_reads s1 t _ (by omega)⟩,
    fun rd hd h => htsettle rd hd _ (tlrTsettle_of_outstanding h),
    fun r hd => ⟨_, tRow_of_decoded hmay hf hd rfl, tlrTraise_reads s1 t r⟩⟩

end Sys2Proof.Machine

/-!
SUPPORT. What every step keeps (R298, R299, R343, R345): burned fuses stay burned, only the completion of a FLASH command changes flash,
and the invariant of the state holds from step to step.
-/

namespace Sys2Proof.Machine

/-! ### Burned fuses -/

section
variable {s t u : State}

theorem fusesKept_of_fuses (h : t.fuses = s.fuses) : FusesKept s t := ⟨fun _ hi => h ▸ hi, fun _ hi => h ▸ hi⟩

theorem FusesKept.trans (h : FusesKept s t) (h2 : FusesKept t u) : FusesKept s u :=
  ⟨fun i hi => h2.1 i (h.1 i hi), fun i hi => h2.2 i (h.2 i hi)⟩

/-- A burn of the floor adds the fuses below its new value. -/
theorem testBit_burnFloor (f n i : Nat) : (burnFloor f n).testBit i = (f.testBit i || decide (i < n)) := by
  unfold burnFloor
  induction n with
  | zero => simp
  | succ n ih =>
    rw [List.range_succ, List.foldl_concat, Nat.testBit_or, ih, Nat.testBit_two_pow, Bool.or_assoc, ← Bool.decide_or]
    congr 2
    exact propext (by omega)

/-- A burn adds the owner key's bits, or those of the floor. -/
theorem fusesKept_of_burn (added floor : Nat) (key up : Prop) [Decidable key] [Decidable up]
    (hokey : t.fuses.okey = if key then s.fuses.okey ||| added else s.fuses.okey)
    (hfloor : t.fuses.floor = if up then burnFloor s.fuses.floor floor else s.fuses.floor) : FusesKept s t := by
  refine ⟨fun i hi => ?_, fun i hi => ?_⟩
  · rw [hokey]
    split
    · simp [Nat.testBit_or, hi]
    · exact hi
  · rw [hfloor]
    split
    · rw [testBit_burnFloor, hi, Bool.true_or]
    · exact hi

theorem fusesKept_cutBurn (s : State) : FusesKept s (cutBurn s) := by
  unfold cutBurn
  dsimp only
  split
  · exact fusesKept_of_fuses rfl
  · exact fusesKept_of_burn _ _ _ _ rfl rfl

end

section
variable (s : State)

/-- A burn that ends adds its bits (R298, R299). -/
theorem exec_fuseBurnComplete_fuses : ∃ t, exec .fuseBurnComplete s = .next t ∧ FusesKept s t ∧ t.flash = s.flash := by
  rw [exec_fuseBurnComplete]
  unfold execFuseBurnComplete
  dsimp only
  split
  · exact ⟨s, rfl, fusesKept_of_fuses rfl, rfl⟩
  · refine ⟨_, rfl, fusesKept_of_burn s.fuses.latch s.fuses.latch (s.fuses.burning = 1) (s.fuses.burning = 2) ?_ ?_, ?_⟩ <;>
      split <;> rfl

/-- RESET_N cuts a burn off, whose part stays burned (R345), and resets the device, which leaves fuses alone. -/
theorem exec_resetNAssert_fuses : ∃ t, exec .resetNAssert s = .next t ∧ FusesKept s t ∧ t.flash = s.flash := by
  rw [exec_resetNAssert]
  unfold execResetNAssert
  split
  · exact ⟨s, rfl, fusesKept_of_fuses rfl, rfl⟩
  · let low : State := { s with aon := { s.aon with resetLow := true } }
    have hcut : FusesKept s (cutBurn low) := (fusesKept_of_fuses rfl).trans (fusesKept_cutBurn low)
    have hflash : (cutBurn low).flash = s.flash := by unfold cutBurn; dsimp only; split <;> rfl
    have hreset (cause sub) : FusesKept s (deviceReset (cutBurn low) cause sub) ∧ (deviceReset (cutBurn low) cause sub).flash = s.flash :=
      ⟨hcut.trans (fusesKept_of_kept (deviceReset_kept _ _ _)), (flash_of_kept (deviceReset_kept _ _ _)).trans hflash⟩
    refine ⟨_, rfl, ?_⟩
    dsimp only
    split <;> exact hreset _ _

/-- A loss of power cuts a burn off too, and leaves fuses and flash alone beside it. -/
theorem exec_lossOfPower_fuses : ∃ t, exec .lossOfPower s = .next t ∧ FusesKept s t ∧ t.flash = s.flash := by
  rw [exec_lossOfPower]
  unfold execLossOfPower
  split
  · exact ⟨s, rfl, fusesKept_of_fuses rfl, rfl⟩
  · exact ⟨_, rfl, fusesKept_cutBurn s, rfl⟩

/-! ### Flash -/

/-- What the completion of a FLASH command keeps: burned fuses, and the canonical form of the flash image. -/
def FlashSound (s t : State) : Prop :=
  FusesKept s t ∧ (twf (fun _ => erased) s.flash = true → twf (fun _ => erased) t.flash = true)

variable {s} in
theorem flashSound_of_kept {t : State} (h : t.kept = s.kept) : FlashSound s t :=
  ⟨fusesKept_of_kept h, fun hw => (flash_of_kept h).symm ▸ hw⟩

theorem flashSound_tsets (kvs : List (Nat × CodeWord)) : FlashSound s { s with flash := tsets (fun _ => erased) s.flash kvs } := by
  refine ⟨fusesKept_of_fuses rfl, fun hw => ?_⟩
  exact twf_tsets (fun _ => erased) kvs s.flash hw

theorem flashSound_flProgram (page : Nat) : FlashSound s (flProgram s page) := by
  unfold flProgram
  split
  · exact flashSound_tsets s _
  · exact flashSound_of_kept (State.raiseF_kept _ _)

theorem flashSound_flErase (page : Nat) : FlashSound s (flErase s page) := by
  unfold flErase
  exact ⟨fusesKept_of_fuses rfl, fun hw => twf_filter _ _ _ hw⟩

/-- What a FLASH command does as it ends: operation 0 reads, 1 programs, any other erases (R343). -/
def flashActed (op page : Nat) (failed : Bool) : State :=
  if op = 0 then flRead s page
  else if failed then s.raiseF Reg.FL_STAT_FAIL
  else if op = 1 then flProgram s page
  else flErase s page

theorem flashSound_flashActed (op page : Nat) (failed : Bool) : FlashSound s (flashActed s op page failed) := by
  unfold flashActed
  split
  · exact flashSound_of_kept (flRead_kept _ _)
  · split
    · exact flashSound_of_kept (State.raiseF_kept _ _)
    · split
      · exact flashSound_flProgram s page
      · exact flashSound_flErase s page

/-- A FLASH command that has acted: DONE with event 224, and the loader free of it. -/
def flashEnded : State :=
  let t := (s.clearF Reg.FL_STAT_BUSY).raiseF Reg.FL_STAT_DONE
  { t with ld := { t.ld with flCmd := none, flOn := false } }.raiseEv 224

theorem flashSound_flashEnded {u : State} (h : FlashSound s u) : FlashSound s (flashEnded u) :=
  ⟨h.1.trans (fusesKept_of_fuses rfl), h.2⟩

variable {s} in
theorem exec_flashCommandComplete_of_command {op page : Nat} (h : s.ld.flCmd = some (op, page)) (failed : Bool) :
    exec (.flashCommandComplete failed) s = okIf (s.alive && s.ld.flOn) s (flashEnded (flashActed s op page failed)) := by
  rw [exec_flashCommandComplete]
  unfold execFlashCommandComplete flashActed
  rw [h]
  match op with
  | 0 => rfl
  | 1 => cases failed <;> rfl
  | n + 2 => cases failed <;> rfl

theorem exec_flashCommandComplete_sound (failed : Bool) : ∃ t, exec (.flashCommandComplete failed) s = .next t ∧ FlashSound s t := by
  cases hcmd : s.ld.flCmd with
  | none =>
    refine ⟨s, ?_, flashSound_of_kept rfl⟩
    rw [exec_flashCommandComplete]
    unfold execFlashCommandComplete
    rw [hcmd]
  | some cmd =>
    rw [exec_flashCommandComplete_of_command hcmd]
    unfold okIf
    split
    · exact ⟨_, rfl, flashSound_flashEnded s (flashSound_flashActed s _ _ _)⟩
    · exact ⟨s, rfl, flashSound_of_kept rfl⟩

end

/-! ### The obligations -/

/-- Every command keeps burned fuses. -/
theorem exec_fusesKept (c : Instr) (s : State) : ∃ t, exec c s = .next t ∧ FusesKept s t := by
  by_cases h : EndsFlashOrBurn c
  · obtain rfl | rfl | rfl | ⟨failed, rfl⟩ := h
    · obtain ⟨t, ht, hf, -⟩ := exec_fuseBurnComplete_fuses s
      exact ⟨t, ht, hf⟩
    · obtain ⟨t, ht, hf, -⟩ := exec_resetNAssert_fuses s
      exact ⟨t, ht, hf⟩
    · obtain ⟨t, ht, hf, -⟩ := exec_lossOfPower_fuses s
      exact ⟨t, ht, hf⟩
    · obtain ⟨t, ht, hf, -⟩ := exec_flashCommandComplete_sound s failed
      exact ⟨t, ht, hf⟩
  · obtain ⟨t, ht, hk⟩ := exec_answers_kept c s h
    exact ⟨t, ht, fusesKept_of_kept hk⟩

/-- Every command but the completion of a FLASH command keeps flash. -/
theorem exec_keeps_flash {c : Instr} (s : State) (hc : ∀ failed, c ≠ .flashCommandComplete failed) :
    ∃ t, exec c s = .next t ∧ t.flash = s.flash := by
  by_cases h : EndsFlashOrBurn c
  · obtain rfl | rfl | rfl | ⟨failed, rfl⟩ := h
    · obtain ⟨t, ht, -, hf⟩ := exec_fuseBurnComplete_fuses s
      exact ⟨t, ht, hf⟩
    · obtain ⟨t, ht, -, hf⟩ := exec_resetNAssert_fuses s
      exact ⟨t, ht, hf⟩
    · obtain ⟨t, ht, -, hf⟩ := exec_lossOfPower_fuses s
      exact ⟨t, ht, hf⟩
    · exact absurd rfl (hc failed)
  · obtain ⟨t, ht, hk⟩ := exec_answers_kept c s h
    exact ⟨t, ht, flash_of_kept hk⟩

theorem exec_keeps_flashForm (c : Instr) (s : State) (hw : twf (fun _ => erased) s.flash = true) :
    ∃ t, exec c s = .next t ∧ twf (fun _ => erased) t.flash = true := by
  by_cases hc : ∃ failed, c = .flashCommandComplete failed
  · obtain ⟨failed, rfl⟩ := hc
    obtain ⟨t, ht, -, hf⟩ := exec_flashCommandComplete_sound s failed
    exact ⟨t, ht, hf hw⟩
  · obtain ⟨t, ht, hf⟩ := exec_keeps_flash s fun failed h => hc ⟨failed, h⟩
    exact ⟨t, ht, hf.symm ▸ hw⟩

/-- Settles O57: by whether the command ends a burn, cuts one off, or leaves fuses alone. -/
theorem fusesNeverClear : Obligations.FusesNeverClear := by
  unfold Obligations.FusesNeverClear
  intro s t ht
  cases hp : s.pending with
  | nil =>
    cases (step_of_nil hp).symm.trans ht
    exact fusesKept_of_fuses rfl
  | cons c rest =>
    obtain ⟨u, hu, hf⟩ := exec_fusesKept c { s with pending := rest }
    cases hu.symm.trans ((step_of_cons hp).symm.trans ht)
    exact ⟨hf.1, hf.2⟩

/-- Settles O56: the queue loses its front and no more, and flash keeps its form under the completion of a FLASH command. -/
theorem everyStepKeepsInvariant : Obligations.EveryStepKeepsInvariant := by
  unfold Obligations.EveryStepKeepsInvariant
  rintro s t ⟨hq, hw⟩ ht
  cases hp : s.pending with
  | nil =>
    cases (step_of_nil hp).symm.trans ht
    exact ⟨hq, hw⟩
  | cons c rest =>
    have hexec := (step_of_cons hp).symm.trans ht
    obtain ⟨u, hu, hform⟩ := exec_keeps_flashForm c { s with pending := rest } hw
    obtain ⟨v, hv, hqueue⟩ := exec_answers c { s with pending := rest }
    cases hu.symm.trans hexec
    cases hv.symm.trans hexec
    have hrest : t.pending = rest := hqueue
    refine ⟨fun x hx => hq x ?_, hform⟩
    rw [hrest] at hx
    rw [hp]
    exact List.mem_cons_of_mem c hx

/-- Settles O58: by the commands that end or cut off a burn, and by what every other command keeps. -/
theorem onlyFlashCompletionChangesFlash : Obligations.OnlyFlashCompletionChangesFlash := by
  unfold Obligations.OnlyFlashCompletionChangesFlash
  intro c s t hc ht
  obtain ⟨u, hu, hf⟩ := exec_keeps_flash s hc
  cases hu.symm.trans ht
  exact hf

end Sys2Proof.Machine

/-!
SUPPORT. The service pins (23_debug_bist.md R441 to R455): the instructions of the TAP, halt and resume, connect-under-reset, and what a reset
leaves of the state beside the registers.
-/

namespace Sys2Proof.Machine

/-! ### Fields of numbered registers, written one after another -/

section
variable {s t : State} {vals : List (Field × Nat)}

/-- Fields written in the order of a list. -/
theorem Wrote.foldl {α : Type} (h : Wrote vals s t) (l : List α) (f : α → Field) (v : α → Nat) :
    Wrote ((l.map fun x => (f x, v x)).reverse ++ vals) s (l.foldl (fun u x => u.setF (f x) (v x)) t) := by
  induction l generalizing t vals with
  | nil => exact h
  | cons x l ih => simpa using ih (h.setF (f x) (v x))

theorem Separate.of_indexed {f : Nat → Field} {l : List Nat} (hl : l.Nodup) (hfit : ∀ i, (f i).Fits)
    (hap : ∀ i j, i ≠ j → (f i).Apart (f j)) : Separate (l.map f) :=
  ⟨List.forall_mem_map.mpr fun i _ => hfit i, List.pairwise_map.mpr (hl.imp fun h => hap _ _ h)⟩

theorem Separate.reverse {fs : List Field} (h : Separate fs) : Separate fs.reverse :=
  ⟨fun f hf => h.1 f (List.mem_reverse.mp hf), List.pairwise_reverse.mpr (h.2.imp Field.Apart.symm)⟩

/-- Nothing but registers differs. -/
def RegsOnly (s t : State) : Prop := { t with regs := s.regs } = s

theorem RegsOnly.iff : RegsOnly s t ↔ { t with regs := s.regs } = s := Iff.rfl

theorem RegsOnly.refl (s : State) : RegsOnly s s := rfl

theorem RegsOnly.eq (h : RegsOnly s t) : t = { s with regs := t.regs } :=
  (congrArg (fun x : State => { x with regs := t.regs }) (RegsOnly.iff.mp h) :)

/-- What does not look at registers is kept. -/
theorem RegsOnly.keeps {α : Type} (h : RegsOnly s t) (f : State → α) (hf : ∀ u r, f { u with regs := r } = f u) : f t = f s := by
  rw [h.eq]
  exact hf s t.regs

theorem RegsOnly.trans {u : State} (h : RegsOnly s t) (h2 : RegsOnly t u) : RegsOnly s u := by
  rw [h2.eq, h.eq]
  rfl

theorem RegsOnly.setF (h : RegsOnly s t) (f : Field) (v : Nat) : RegsOnly s (t.setF f v) := h

theorem RegsOnly.setReg (h : RegsOnly s t) (o : Nat) (v : Word32) : RegsOnly s (t.setReg o v) := h

theorem RegsOnly.foldl {α : Type} (h : RegsOnly s t) {g : State → α → State} (hg : ∀ u x, RegsOnly u (g u x)) (l : List α) :
    RegsOnly s (l.foldl g t) := by
  induction l generalizing t with
  | nil => exact h
  | cons x l ih => exact ih (h.trans (hg t x))

section
variable {fs gs : List Field}

theorem RegsOnly.onlyBits (h : RegsOnly s t) (hb : BitsBut fs s t) : OnlyBits fs s t := by
  refine ⟨hb, ?_⟩
  rw [h.eq]

theorem OnlyBits.eq (h : OnlyBits fs s t) : t = { s with regs := t.regs, cyc := t.cyc } :=
  (congrArg (fun x : State => { x with regs := t.regs, cyc := t.cyc }) h.2 :)

theorem OnlyBits.keeps {α : Type} (h : OnlyBits fs s t) (f : State → α) (hf : ∀ u r c, f { u with regs := r, cyc := c } = f u) :
    f t = f s := by
  rw [h.eq]
  exact hf s t.regs t.cyc

theorem OnlyBits.mono (h : OnlyBits fs s t) (hs : ∀ f ∈ fs, f ∈ gs) : OnlyBits gs s t := ⟨bitsBut_mono h.1 hs, h.2⟩

theorem OnlyBits.setF (h : OnlyBits fs s t) (f : Field) (v : Nat) (hm : f ∈ fs) (hf : f.Fits) : OnlyBits fs s (t.setF f v) :=
  ⟨bitsBut_setF h.1 f v hm hf.1 hf.2, h.2⟩

theorem OnlyBits.raiseF (h : OnlyBits fs s t) (f : Field) (hm : f ∈ fs) (hf : f.Fits) : OnlyBits fs s (t.raiseF f) :=
  ⟨bitsBut_raiseF h.1 f hm hf.1 hf.2, h.2⟩

end

theorem Field.fits_iff (f : Field) : f.Fits ↔ (decide (f.lo ≤ f.hi) && decide (f.hi < 32)) = true := by simp [Field.Fits]

/-- Whether fields are separate, for lists of fields that are written out. -/
def separateOk : List Field → Bool
  | [] => true
  | f :: fs => decide (f.lo ≤ f.hi) && decide (f.hi < 32) &&
      fs.all (fun g => f.reg != g.reg || decide (g.hi < f.lo) || decide (f.hi < g.lo)) && separateOk fs

theorem Separate.of_ok {fs : List Field} (h : separateOk fs = true) : Separate fs := by
  induction fs with
  | nil => exact ⟨by simp, List.Pairwise.nil⟩
  | cons f fs ih =>
    simp only [separateOk, Bool.and_eq_true, decide_eq_true_eq, List.all_eq_true, Bool.or_eq_true, bne_iff_ne] at h
    obtain ⟨⟨⟨hlo, hhi⟩, hap⟩, hrest⟩ := h
    obtain ⟨hfit, hpair⟩ := ih hrest
    exact ⟨List.forall_mem_cons.mpr ⟨⟨hlo, hhi⟩, hfit⟩, List.pairwise_cons.mpr ⟨fun g hg hreg => by have := hap g hg; omega, hpair⟩⟩

end

/-! ### Self-refresh -/

section
variable (s : State) (b : Bool)

theorem separate_sref : Separate ((List.range 16).map Reg.MEMC_STAT_SREF) := by
  refine .of_indexed List.nodup_range (fun c => by simp [Field.Fits, Reg.MEMC_STAT_SREF]) fun c d hcd hreg => ?_
  simp only [Reg.MEMC_STAT_SREF, Reg.MEMC_STAT] at hreg
  omega

theorem wrote_selfRefresh :
    Wrote ((List.range 16).map fun c => (Reg.MEMC_STAT_SREF c, b.toNat)).reverse s (selfRefresh s b) := by
  unfold selfRefresh State.putF
  simpa using (Wrote.refl s).foldl (List.range 16) Reg.MEMC_STAT_SREF fun _ => b.toNat

theorem regsOnly_selfRefresh : RegsOnly s (selfRefresh s b) :=
  (RegsOnly.refl s).foldl (fun u c => (RegsOnly.refl u).setF (Reg.MEMC_STAT_SREF c) b.toNat) _

/-- Every channel is in self-refresh, or in none of them (R294). -/
theorem selfRefresh_reads : (∀ c < 16, (selfRefresh s b).flag (Reg.MEMC_STAT_SREF c) = b) ∧
    OnlyBits ((List.range 16).map Reg.MEMC_STAT_SREF) s (selfRefresh s b) := by
  have hw := wrote_selfRefresh s b
  have hfst : (((List.range 16).map fun c => (Reg.MEMC_STAT_SREF c, b.toNat)).reverse.map Prod.fst) =
      ((List.range 16).map Reg.MEMC_STAT_SREF).reverse := by simp [List.map_reverse]
  have hsep := separate_sref.reverse
  rw [← hfst] at hsep
  refine ⟨fun c hc => hw.flag hsep (by simp; exact ⟨c, hc, rfl⟩),
    (regsOnly_selfRefresh s b).onlyBits (bitsBut_mono (hw.bitsBut hsep) fun f hf => ?_)⟩
  rw [hfst] at hf
  exact List.mem_reverse.mp hf

end

/-! ### What a reset leaves beside the registers -/

section
variable (s : State) (cause sub : Nat)

theorem regsOnly_causeWrite : RegsOnly s (causeWrite s) := by
  unfold causeWrite
  split
  · exact (((RegsOnly.refl s).setF _ _).setF _ _).setF _ _
  · exact .refl s

theorem regsOnly_stepTwo : RegsOnly s (stepTwo s) := by
  unfold stepTwo
  split
  · exact ((RegsOnly.refl s).setF _ _).trans (regsOnly_causeWrite _)
  · exact .refl s

theorem regsOnly_keepFields (old : State) (fs : List Field) : RegsOnly s (keepFields old s fs) :=
  (RegsOnly.refl s).foldl (fun u f => (RegsOnly.refl u).setF f (old.getF f)) fs

/-- The always-on state beside registers and clocks after a reset with a cause (R398, R399). -/
def resetAon : Aon :=
  { s.aon with ticks := 0, res := [0, 0, 0, 0], cause := some (firstCause s.aon.cause (cause, sub)), wakeFrom := 0,
               retained := [], bistAt := (0, 0), entry := 0, alarm := s.aon.alarm || s.phase == .integrity }

/-- Everything after a reset but the registers (R397, R398). -/
def resetLeaves : State :=
  { State.reset with
    pending := s.pending, resp := s.resp, fresh := s.fresh, fuses := s.fuses, flash := s.flash, aon := resetAon s cause sub,
    clk := clocksReset s, th := thKept s.th, tapIr := s.tapIr, dbg := { s.dbg with wait := none, i2c := false, resume := false } }

/-- The state after a reset beside the registers. -/
theorem deviceReset_eq : deviceReset s cause sub = { resetLeaves s cause sub with regs := (deviceReset s cause sub).regs } := by
  let start : State := { State.reset with
    pending := s.pending, resp := s.resp, fresh := s.fresh, phase := .waiting, fuses := s.fuses, flash := s.flash, aon := s.aon,
    clk := { s.clk with ramp := none, hang := false }, th := thKept s.th, tapIr := s.tapIr,
    dbg := { s.dbg with wait := none, i2c := false, resume := false } }
  have hblank : RegsOnly start (blank s .waiting alwaysOn) := ((regsOnly_keepFields start s alwaysOn).setF _ _).setF _ _
  have hset : RegsOnly { blank s .waiting alwaysOn with aon := resetAon s cause sub, clk := clocksReset s } (deviceReset s cause sub) :=
    ((RegsOnly.refl _).setF _ _).trans (regsOnly_stepTwo _)
  rw [hset.eq, hblank.eq]
  rfl

end

/-! ### Every lane evaluated again -/

/-- Nothing but what a lane that moves may change differs: registers, the record of the slot, and the units of lanes. -/
def LanesOnly (s t : State) : Prop := { t with regs := s.regs, cyc := s.cyc, tk := s.tk, fe := s.fe, laneTest := s.laneTest } = s

section
variable {s t u : State}

theorem lanesOnly_iff : LanesOnly s t ↔ { t with regs := s.regs, cyc := s.cyc, tk := s.tk, fe := s.fe, laneTest := s.laneTest } = s := Iff.rfl

theorem LanesOnly.trans (h : LanesOnly s t) (h2 : LanesOnly t u) : LanesOnly s u := by
  rw [lanesOnly_iff] at h h2 ⊢
  exact (congrArg (fun x : State => { x with regs := s.regs, cyc := s.cyc, tk := s.tk, fe := s.fe, laneTest := s.laneTest }) h2).trans h

theorem LanesOnly.eq (h : LanesOnly s t) :
    t = { s with regs := t.regs, cyc := t.cyc, tk := t.tk, fe := t.fe, laneTest := t.laneTest } :=
  (congrArg (fun x : State => { x with regs := t.regs, cyc := t.cyc, tk := t.tk, fe := t.fe, laneTest := t.laneTest }) (lanesOnly_iff.mp h) :)

theorem lanesOnly_laneEnter (s : State) (n st : Nat) : LanesOnly s (laneEnter s n st) :=
  (congrArg (fun x : State => { x with laneTest := s.laneTest }) (laneEnter_frame s n st) :)

theorem lanesOnly_laneReeval (s : State) (n : Nat) : LanesOnly s (laneReeval s n) := by
  have htest : LanesOnly s (enterTest s n) := (lanesOnly_laneEnter s n 7).trans rfl
  unfold laneReeval laneRestart
  split
  · split
    · rfl
    · exact lanesOnly_laneEnter s n 0
  · split
    · split
      · exact htest
      · exact lanesOnly_laneEnter s n _
    · rfl

theorem lanesOnly_allLanesReeval (s : State) : LanesOnly s (allLanesReeval s) := by
  unfold allLanesReeval
  induction List.range 144 generalizing s with
  | nil => rfl
  | cons n l ih => exact (lanesOnly_laneReeval s n).trans (ih _)

theorem lanesOnly_setIr (s : State) (code : Nat) : LanesOnly { s with tapIr := code } (setIr s code) := by
  unfold setIr
  dsimp only
  split
  · exact lanesOnly_allLanesReeval _
  · rfl

end

/-! ### Lanes held in IDLE -/

section
variable {s : State} {n m : Nat}

/-- A lane that moves changes the state of no other lane. -/
theorem laneState_laneEnter_ne (st : Nat) (h : m ≠ n) : (laneEnter s n st).laneState m = s.laneState m := by
  refine laneState_of_bitsBut (bitsBut_laneEnter s n st) fun f hf hreg => ?_
  have hlow : Reg.LN_BU_STAT m % 0x1000 = 4 ∧ Reg.LN_TK_STAT n % 0x1000 = 0x204 ∧ Reg.LN_FE_STAT n % 0x1000 = 0x104 := by
    simp only [Reg.LN_BU_STAT, Reg.LN_TK_STAT, Reg.LN_FE_STAT]
    omega
  have hreg' : f.reg = Reg.LN_BU_STAT m := hreg
  simp only [moveFields, List.mem_cons, List.not_mem_nil, or_false] at hf
  obtain rfl | rfl | rfl := hf
  · simp only [Reg.LN_BU_STAT_STATE, Reg.LN_BU_STAT] at hreg'
    omega
  · simp only [Reg.LN_TK_STAT_LOCKED] at hreg'
    omega
  · simp only [Reg.LN_FE_STAT_ALIGNED] at hreg'
    omega

theorem idleCond_of_tapAc (h : tapAc s = true) (n : Nat) : idleCond s n = true := by simp [idleCond, h]

/-- While an instruction of the EXTEST class is held, a lane that is evaluated again stands in IDLE, and the other lanes as they stood. -/
theorem laneState_laneReeval_of_tapAc (h : tapAc s = true) :
    (laneReeval s n).laneState m = if m = n then 0 else s.laneState m := by
  by_cases h0 : s.laneState n = 0
  · rw [laneReeval_of_held_idle (idleCond_of_tapAc h n) h0]
    split
    · subst m; exact h0
    · rfl
  · rw [laneReeval_of_held (idleCond_of_tapAc h n) h0]
    split
    · subst m; exact laneState_laneEnter s n 0 (by omega)
    · exact laneState_laneEnter_ne 0 (by assumption)

theorem tapAc_of_lanesOnly {t : State} (h : LanesOnly s t) : tapAc t = tapAc s := by
  rw [h.eq]
  rfl

theorem laneState_allLanesReeval_of_tapAc (h : tapAc s = true) (hm : m < 144) : (allLanesReeval s).laneState m = 0 := by
  have hfold (l : List Nat) (u : State) (hu : tapAc u = true) :
      (l.foldl laneReeval u).laneState m = if m ∈ l then 0 else u.laneState m := by
    induction l generalizing u with
    | nil => simp
    | cons n l ih =>
      rw [List.foldl_cons, ih _ ((tapAc_of_lanesOnly (lanesOnly_laneReeval u n)).trans hu), laneState_laneReeval_of_tapAc hu]
      by_cases hmn : m = n <;> simp [hmn]
  exact (hfold _ s h).trans (if_pos (List.mem_range.mpr hm))

end

/-! ### An instruction in the register of the TAP -/

section
variable {s : State} {code : Nat}

/-- An instruction outside the EXTEST class, after one outside it, moves no lane. -/
theorem setIr_of_not_ac (ht : tapAc s = false) (hc : code ≠ 0 ∧ code ≠ 8 ∧ code ≠ 9) : setIr s code = { s with tapIr := code } := by
  have hcode : tapAc { s with tapIr := code } = false := by simp [tapAc, hc]
  unfold setIr
  simp [ht, hcode]

theorem tapLoad_of_not_ac (ht : tapAc s = false) (hc : code ≠ 0 ∧ code ≠ 8 ∧ code ≠ 9) (dr : Nat) :
    tapLoad s code dr = { s with tapIr := code, dbg := { s.dbg with dr := dr } } := by
  unfold tapLoad
  rw [setIr_of_not_ac ht hc]

/-- An instruction of the EXTEST class, after one outside it, evaluates every lane again. -/
theorem setIr_of_ac (ht : tapAc s = false) (hc : code = 0 ∨ code = 8 ∨ code = 9) :
    setIr s code = allLanesReeval { s with tapIr := code } := by
  have hcode : tapAc { s with tapIr := code } = true := by
    obtain rfl | rfl | rfl := hc <;> rfl
  unfold setIr
  simp [ht, hcode]

/-- The boundary register drives the pins, and every lane stands in IDLE (R445). -/
theorem extestRun_reads (ht : tapAc s = false) (hc : code = 0 ∨ code = 8 ∨ code = 9) (pins v : BitVec 872) :
    (extestRun s code pins v).tapIr = code ∧ (extestRun s code pins v).dbg = { s.dbg with dr := pins.toNat, bnd := v } ∧
      (∀ n < 144, (extestRun s code pins v).laneState n = 0) ∧ (extestRun s code pins v).stores = s.stores ∧
      (extestRun s code pins v).time = s.time := by
  have hac : tapAc { s with tapIr := code } = true := by
    obtain rfl | rfl | rfl := hc <;> rfl
  have hlanes := (lanesOnly_allLanesReeval { s with tapIr := code }).eq
  have hidle : ∀ n < 144, (allLanesReeval { s with tapIr := code }).laneState n = 0 := fun n hn =>
    laneState_allLanesReeval_of_tapAc hac hn
  unfold extestRun tapLoad
  rw [setIr_of_ac ht hc]
  generalize allLanesReeval { s with tapIr := code } = u at hlanes hidle ⊢
  have hdbg : u.dbg = s.dbg := (congrArg State.dbg hlanes :)
  refine ⟨(congrArg State.tapIr hlanes :), ?_, hidle, (congrArg State.stores hlanes :), (congrArg State.time hlanes :)⟩
  dsimp only
  rw [hdbg]

end

/-! ### Halt and resume -/

section
variable (s : State)

/-- A register below the memory controllers is none of theirs. -/
theorem apart_sref {g : Field} (hg : g.reg < 0x100000) : ∀ f ∈ (List.range 16).map Reg.MEMC_STAT_SREF, f.Apart g := by
  intro f hf hreg
  obtain ⟨c, -, rfl⟩ := List.mem_map.mp hf
  simp only [Reg.MEMC_STAT_SREF, Reg.MEMC_STAT] at hreg
  omega

theorem flag_selfRefresh (b : Bool) {g : Field} (hg : g.reg < 0x100000) : (selfRefresh s b).flag g = s.flag g :=
  flag_of_bitsBut (selfRefresh_reads s b).2.1 (apart_sref hg)

/-- A halt that becomes pending, with memory in self-refresh (R449). -/
def haltAsked : State := selfRefresh (s.raiseF Reg.DBG_STAT_HALT_PEND) true

theorem haltAsked_reads : (haltAsked s).flag Reg.DBG_STAT_HALT_PEND = true ∧ (∀ c < 16, (haltAsked s).flag (Reg.MEMC_STAT_SREF c) = true) ∧
    OnlyBits (Reg.DBG_STAT_HALT_PEND :: (List.range 16).map Reg.MEMC_STAT_SREF) s (haltAsked s) := by
  obtain ⟨hsref, hbits⟩ := selfRefresh_reads (s.raiseF Reg.DBG_STAT_HALT_PEND) true
  have hraise : OnlyBits (Reg.DBG_STAT_HALT_PEND :: (List.range 16).map Reg.MEMC_STAT_SREF) s (s.raiseF Reg.DBG_STAT_HALT_PEND) :=
    (onlyBits_refl s _).raiseF _ (by simp) ((Field.fits_iff _).mpr rfl)
  exact ⟨(flag_selfRefresh _ true (by decide)).trans (flag_raiseF s _ (by decide) (by decide)), hsref,
    onlyBits_trans hraise (hbits.mono fun f hf => List.mem_cons_of_mem _ hf)⟩

/-- Memory as a resume leaves it: awake, outside a root switch (R450). -/
def resumedMemory : State :=
  if s.clk.ramp.isSome then s.clearF Reg.DBG_STAT_HALTED else selfRefresh (s.clearF Reg.DBG_STAT_HALTED) false

theorem regsOnly_resumedMemory : RegsOnly s (resumedMemory s) := by
  have hclear : RegsOnly s (s.clearF Reg.DBG_STAT_HALTED) := (RegsOnly.refl s).setF _ _
  unfold resumedMemory
  split
  · exact hclear
  · exact hclear.trans (regsOnly_selfRefresh _ false)

/-- Below the memory controllers only HALTED differs. -/
theorem flag_resumedMemory {g : Field} (hg : g.reg < 0x100000) : (resumedMemory s).flag g = (s.clearF Reg.DBG_STAT_HALTED).flag g := by
  unfold resumedMemory
  split
  · rfl
  · exact flag_selfRefresh _ false hg

theorem sref_resumedMemory {c : Nat} (hc : c < 16) :
    (resumedMemory s).flag (Reg.MEMC_STAT_SREF c) = (s.clk.ramp.isSome && s.flag (Reg.MEMC_STAT_SREF c)) := by
  have hreg : (Reg.MEMC_STAT_SREF c).reg ≠ Reg.DBG_STAT_HALTED.reg := by
    simp only [Reg.MEMC_STAT_SREF, Reg.MEMC_STAT, Reg.DBG_STAT_HALTED, Reg.DBG_STAT]
    omega
  unfold resumedMemory
  cases s.clk.ramp.isSome with
  | true => exact congrArg (· != 0) (getF_setF_reg_ne s _ _ 0 hreg)
  | false => exact (selfRefresh_reads (s.clearF Reg.DBG_STAT_HALTED) false).1 c hc

/-- The registers as a resume leaves them, with the watchdog thawed. -/
def resumedRegs : State :=
  State.clearF { resumedMemory s with dbgHalt := false, dbg := { (resumedMemory s).dbg with resume := false } } Reg.WDT_STAT_FROZEN

theorem flag_resumedRegs {g : Field} (hg : g.reg ≠ Reg.WDT_STAT) : (resumedRegs s).flag g = (resumedMemory s).flag g :=
  congrArg (· != 0) (getF_setF_reg_ne _ _ _ 0 hg)

/-- A resume outside user mode, with no request that waits and the watchdog off. -/
def resumed : State := tkResume (feResume ((resumedRegs s).raiseEv 214))

variable {s}

theorem resumeNow_of_idle (hu : s.user = false) (hw : s.dbg.wait = none) (he : s.flag Reg.WDT_CTRL_EN = false) : resumeNow s = resumed s := by
  have hmem := regsOnly_resumedMemory s
  have hread {g : Field} (hg : g.reg < 0x100000) (hw : g.reg ≠ Reg.WDT_STAT) (hd : g.reg ≠ Reg.DBG_STAT) :
      (resumedRegs s).flag g = s.flag g :=
    ((flag_resumedRegs s hw).trans (flag_resumedMemory s hg)).trans (congrArg (· != 0) (getF_setF_reg_ne s _ _ 0 hd))
  have hen : (resumedRegs s).flag Reg.WDT_CTRL_EN = false := (hread (by decide) (by decide) (by decide)).trans he
  have huser : (resumed s).user = false := (hread (g := Reg.TIME_STATUS_USER) (by decide) (by decide) (by decide)).trans hu
  have hwait : (resumed s).dbg.wait = none := (hmem.keeps (fun x => x.dbg.wait) fun _ _ => rfl).trans hw
  have hthaw : wdtThaw { resumedMemory s with dbgHalt := false, dbg := { (resumedMemory s).dbg with resume := false } } = resumedRegs s :=
    if_neg (by simp only [resumedRegs] at hen; simp [hen])
  have hnow : resumeNow s = dbgFlush (if (tkResume (feResume ((wdtThaw
      { resumedMemory s with dbgHalt := false, dbg := { (resumedMemory s).dbg with resume := false } }).raiseEv 214))).user
      then slip (tkResume (feResume ((wdtThaw
        { resumedMemory s with dbgHalt := false, dbg := { (resumedMemory s).dbg with resume := false } }).raiseEv 214)))
      else tkResume (feResume ((wdtThaw
        { resumedMemory s with dbgHalt := false, dbg := { (resumedMemory s).dbg with resume := false } }).raiseEv 214))) := rfl
  rw [hnow, hthaw]
  change dbgFlush (if (resumed s).user then slip (resumed s) else resumed s) = resumed s
  rw [huser, if_neg Bool.false_ne_true]
  unfold dbgFlush
  rw [hwait]

theorem resumed_reads : (resumed s).dbgHalt = false ∧ (resumed s).flag Reg.DBG_STAT_HALTED = false ∧
    (resumed s).raised = (({ s with dbgHalt := false } : State).raiseEv 214).raised ∧ (resumed s).flag Reg.WDT_STAT_FROZEN = false ∧
    (∀ c < 16, (resumed s).flag (Reg.MEMC_STAT_SREF c) = (s.clk.ramp.isSome && s.flag (Reg.MEMC_STAT_SREF c))) ∧
    (resumed s).time = s.time := by
  have hmem := regsOnly_resumedMemory s
  have hregs (g : Field) : (resumed s).flag g = (resumedRegs s).flag g := flag_of_regs rfl g
  refine ⟨rfl, ?_, ?_, (hregs _).trans (flag_clearF _ _ (by decide) (by decide)), fun c hc => ?_, hmem.keeps State.time fun _ _ => rfl⟩
  · exact (((hregs _).trans (flag_resumedRegs s (by decide))).trans (flag_resumedMemory s (by decide))).trans
      (flag_clearF s _ (by decide) (by decide))
  · refine raiseEv_raised_congr 214 ?_ ?_ ?_ rfl
    · exact hmem.keeps State.raised fun _ _ => rfl
    · exact hmem.keeps (fun x => x.cyc.evs) fun _ _ => rfl
    · exact hmem.keeps State.clockOn fun _ _ => rfl
  · refine ((hregs _).trans (flag_resumedRegs s fun h => ?_)).trans (sref_resumedMemory s hc)
    simp only [Reg.MEMC_STAT_SREF, Reg.MEMC_STAT, Reg.WDT_STAT] at h
    omega

variable (s)

/-- The registers of a halt but those of memory (R449): HALTED, and the watchdog frozen if it is enabled. -/
def haltedRegs : State := wdtFreeze ((s.clearF Reg.DBG_STAT_HALT_PEND).raiseF Reg.DBG_STAT_HALTED)

theorem wrote_haltedRegs : Wrote [(Reg.WDT_STAT_FROZEN, (s.flag Reg.WDT_CTRL_EN).toNat), (Reg.DBG_STAT_HALTED, 1), (Reg.DBG_STAT_HALT_PEND, 0)]
    s (haltedRegs s) := by
  have hu : Wrote [(Reg.DBG_STAT_HALTED, 1), (Reg.DBG_STAT_HALT_PEND, 0)] s ((s.clearF Reg.DBG_STAT_HALT_PEND).raiseF Reg.DBG_STAT_HALTED) :=
    ((Wrote.refl s).setF Reg.DBG_STAT_HALT_PEND 0).raiseF Reg.DBG_STAT_HALTED
  have hen : ((s.clearF Reg.DBG_STAT_HALT_PEND).raiseF Reg.DBG_STAT_HALTED).flag Reg.WDT_CTRL_EN = s.flag Reg.WDT_CTRL_EN :=
    flag_of_bitsBut (hu.bitsBut (.of_ok rfl)) (by decide)
  unfold haltedRegs wdtFreeze State.putF
  rw [hen]
  exact hu.setF _ _

theorem onlyBits_haltedRegs :
    OnlyBits [Reg.WDT_STAT_FROZEN, Reg.DBG_STAT_HALTED, Reg.DBG_STAT_HALT_PEND] s (haltedRegs s) := by
  have hfit {f : Field} (h : (decide (f.lo ≤ f.hi) && decide (f.hi < 32)) = true) : f.Fits := f.fits_iff.mpr h
  exact (((onlyBits_refl s _).setF Reg.DBG_STAT_HALT_PEND 0 (by simp) (hfit rfl)).raiseF Reg.DBG_STAT_HALTED (by simp) (hfit rfl)).setF
    Reg.WDT_STAT_FROZEN _ (by simp) (hfit rfl)

/-- Memory in self-refresh beside them. -/
def haltedMemory : State := selfRefresh (haltedRegs s) true

theorem regsOnly_haltedMemory : RegsOnly (haltedRegs s) (haltedMemory s) := regsOnly_selfRefresh _ true

theorem sref_haltedMemory : ∀ c < 16, (haltedMemory s).flag (Reg.MEMC_STAT_SREF c) = true := (selfRefresh_reads (haltedRegs s) true).1

theorem flag_haltedMemory {g : Field} (hg : g.reg < 0x100000) : (haltedMemory s).flag g = (haltedRegs s).flag g :=
  flag_selfRefresh (haltedRegs s) true hg

/-- The clocks of slots have stopped. -/
def State.stopped : State := { s with dbgHalt := true }

theorem flag_stopped (g : Field) : s.stopped.flag g = s.flag g := flag_of_regs rfl g

/-- A halt that takes effect. -/
def halted : State := (haltedMemory s).stopped

theorem flag_halted (g : Field) : (halted s).flag g = (haltedMemory s).flag g := flag_stopped (haltedMemory s) g

variable {s}

theorem haltNow_of_no_resume (h : s.dbg.resume = false) : haltNow s = halted s := if_neg (Bool.eq_false_iff.mp h)

theorem halted_flags : (halted s).flag Reg.DBG_STAT_HALTED = true ∧ (halted s).flag Reg.DBG_STAT_HALT_PEND = false ∧
    (∀ c < 16, (halted s).flag (Reg.MEMC_STAT_SREF c) = true) ∧ (halted s).flag Reg.WDT_STAT_FROZEN = s.flag Reg.WDT_CTRL_EN := by
  have hw := wrote_haltedRegs s
  have hsep : Separate [Reg.WDT_STAT_FROZEN, Reg.DBG_STAT_HALTED, Reg.DBG_STAT_HALT_PEND] := .of_ok rfl
  have hread {g : Field} (hg : g.reg < 0x100000) : (halted s).flag g = (haltedRegs s).flag g :=
    (flag_halted s g).trans (flag_haltedMemory s hg)
  exact ⟨(hread (by decide)).trans (hw.flag hsep (b := true) (by simp)), (hread (by decide)).trans (hw.flag hsep (b := false) (by simp)),
    fun c hc => (flag_halted s _).trans (sref_haltedMemory s c hc), (hread (by decide)).trans (hw.flag hsep (by simp))⟩

/-- A halt keeps memories, machine time and the instruction of the TAP. -/
theorem halted_keeps : (halted s).stores = s.stores ∧ (halted s).time = s.time ∧ (halted s).tapIr = s.tapIr := by
  have hregs := onlyBits_haltedRegs s
  have hmem := regsOnly_haltedMemory s
  have hkeeps {α : Type} (f : State → α) (hf : ∀ u r c h, f { u with regs := r, cyc := c, dbgHalt := h } = f u) : f (halted s) = f s :=
    ((hf (haltedMemory s) _ _ true).trans (hmem.keeps f fun u r => hf u r u.cyc u.dbgHalt)).trans
      (hregs.keeps f fun u r c => hf u r c u.dbgHalt)
  exact ⟨hkeeps State.stores fun _ _ _ _ => rfl, hkeeps State.time fun _ _ _ _ => rfl, hkeeps State.tapIr fun _ _ _ _ => rfl⟩

end

/-! ### The obligations of the service pins -/

section
variable {s : State}

/-- Settles O48: by the value that the instruction captures, which no lane that moves changes. -/
theorem idcodeCapture : Obligations.IdcodeCapture := by
  unfold Obligations.IdcodeCapture
  intro s hpins
  have hlanes := (lanesOnly_setIr s 2).eq
  have hdr : (tapLoad s 2 0x1A980DD3).dbg.dr = 0x1A980DD3 := rfl
  refine ⟨tapLoad s 2 0x1A980DD3, (exec_idcode s).trans (okIf_of_true _ _ hpins), hdr, by simp [hdr], by simp [hdr], by simp [hdr], by simp [hdr],
    (congrArg State.tapIr hlanes :), fun hac => ?_⟩
  rw [tapLoad_of_not_ac hac (by decide)]

/-- Settles O49: the latch is set first, then the reset acts, which keeps the latch and the instruction. -/
theorem curArmResetsTheDevice : Obligations.CurArmResetsTheDevice := by
  unfold Obligations.CurArmResetsTheDevice
  intro s v hpins hrst hphase
  let s1 := tapLoad s 0x23 (s.aon.cur.toNat + 2 * s.aon.resetLow.toNat)
  let s2 := if v.getLsbD 0 && s.aon.resetLow then { s1 with aon := { s1.aon with cur := true } } else s1
  have hlanes := (lanesOnly_setIr s 0x23).eq
  have haon : s1.aon = s.aon := (congrArg State.aon hlanes :)
  have hph : s2.phase = s.phase := by
    have h1 : s1.phase = s.phase := (congrArg State.phase hlanes :)
    unfold s2
    split <;> exact h1
  have hcause : s2.aon.cause = s.aon.cause := by
    have h1 : s1.aon.cause = s.aon.cause := congrArg Aon.cause haon
    unfold s2
    split <;> exact h1
  have hcur : s2.aon.cur = (s.aon.cur || (v.getLsbD 0 && s.aon.resetLow)) := by
    unfold s2
    cases hset : v.getLsbD 0 && s.aon.resetLow with
    | true => simp
    | false => simpa using congrArg Aon.cur haon
  have hir : s2.tapIr = 0x23 := by
    have h1 : s1.tapIr = 0x23 := (congrArg State.tapIr hlanes :)
    unfold s2
    split <;> exact h1
  have hable : s2.resettable = true := by
    unfold State.resettable
    rw [hph]
    obtain h | h | h | h := hphase <;> rw [h] <;> rfl
  have hexec : exec (.curArm v) s = .next (deviceReset s2 8 0) := by
    rw [exec_curArm]
    unfold execCurArm
    exact (if_neg (by simp [hpins])).trans (congrArg ok (if_pos (by rw [hrst, hable]; rfl)))
  refine ⟨_, hexec, ?_⟩
  rw [deviceReset_eq s2 8 0]
  exact ⟨rfl, congrArg (fun c => some (firstCause c (8, 0))) hcause, rfl, hcur, hir⟩

/-- Settles O50: each instruction outside the EXTEST class by what it captures, those of the class by the lanes that they hold. -/
theorem tapInstructions : Obligations.TapInstructions := by
  unfold Obligations.TapInstructions
  intro s hpins hac held cause
  have hload (code dr : Nat) (hc : code ≠ 0 ∧ code ≠ 8 ∧ code ≠ 9) : tapLoad s code dr = held code dr := tapLoad_of_not_ac hac hc dr
  have hdo {t : State} : okIf (servicePins s) s t = .next t := okIf_of_true _ _ hpins
  refine ⟨(exec_tapReset s).trans (hdo.trans (congrArg _ (setIr_of_not_ac hac (by decide)))),
    (exec_bypass s).trans (hdo.trans (congrArg _ (hload _ _ (by decide)))),
    fun pins => (exec_sample s pins).trans (hdo.trans (congrArg _ (hload _ _ (by decide)))),
    fun v => ?_, ?_, fun v hv => ?_, fun pins v => ?_⟩
  · rw [exec_preload]
    unfold execPreload
    rw [setIr_of_not_ac hac (by decide)]
    exact hdo
  · rw [exec_causeRead]
    unfold execCauseRead
    dsimp only
    rw [hload 0x25 _ (by decide)]
    exact hdo
  · rw [exec_curArm]
    unfold execCurArm
    rw [hload _ _ (by decide)]
    simp only [hpins, hv, Bool.not_true, Bool.false_and, Bool.false_eq_true, if_false]
    cases v.getLsbD 0 && s.aon.resetLow <;> simp [held]
  · exact ⟨⟨_, (exec_extest s pins v).trans hdo, extestRun_reads hac (by decide) pins v⟩,
      ⟨_, (exec_extestPulse s pins v).trans hdo, extestRun_reads hac (by decide) pins v⟩,
      ⟨_, (exec_extestTrain s pins v).trans hdo, extestRun_reads hac (by decide) pins v⟩⟩

/-- HALT outside a halt: pending, or in force at once where the slot clock does not run. -/
theorem exec_halt_of_free {s : State} (hpins : servicePins s = true) (hon : engineOn s = true) (hh : s.dbgHalt = false)
    (hp : s.flag Reg.DBG_STAT_HALT_PEND = false) : exec .halt s =
      ok (if s.clockOn || s.phase == .hold || s.aon.entry != 0 then haltAsked (tapLoad s 0x21 (haltCapture s))
        else haltNow (haltAsked (tapLoad s 0x21 (haltCapture s)))) := by
  rw [exec_halt]
  unfold execHalt haltAsked
  dsimp only
  rw [if_neg (by simp [hpins]), if_neg (by simp [hh, hp, hon])]

/-- Settles O51: HALT by whether the slot clock runs, RESUME by whether the halt is in force, and the service-bus reset by what a reset leaves. -/
theorem haltAndResume : Obligations.HaltAndResume := by
  unfold Obligations.HaltAndResume
  intro s hpins hac on word
  have hload (code dr : Nat) (hc : code ≠ 0 ∧ code ≠ 8 ∧ code ≠ 9) :
      tapLoad s code dr = { s with tapIr := code, dbg := { s.dbg with dr := dr } } := tapLoad_of_not_ac hac hc dr
  let s1 : State := { s with tapIr := 0x21, dbg := { s.dbg with dr := word } }
  have hhalt (hon : on) (hh : s.dbgHalt = false) (hp : s.flag Reg.DBG_STAT_HALT_PEND = false) : exec .halt s =
      ok (if s.clockOn || s.phase == .hold || s.aon.entry != 0 then haltAsked s1 else haltNow (haltAsked s1)) := by
    have hengine : engineOn s = true := by
      unfold engineOn
      obtain h | h | h := hon <;> rw [h] <;> rfl
    rw [exec_halt_of_free hpins hengine hh hp, hload 0x21 (haltCapture s) (by decide)]
    rfl
  obtain ⟨hpend, hsref, hbits⟩ := haltAsked_reads s1
  refine ⟨fun hon hh hp hrun => ?_, fun hon hh hp hclk hph hent hres => ?_, fun hh hp => ?_, fun hh hu hw he => ?_, fun hon => ?_⟩
  · have hwait : (s.clockOn || s.phase == .hold || s.aon.entry != 0) = true := by
      obtain h | h | h := hrun <;> simp [h]
    have hexec := hhalt hon hh hp
    rw [if_pos hwait] at hexec
    exact ⟨haltAsked s1, hexec, hpend, hsref, hbits.keeps State.tapIr fun _ _ _ => rfl, hbits.keeps State.dbg fun _ _ _ => rfl, hbits.1,
      hbits.keeps (fun x => { x with regs := s.regs, cyc := s.cyc, tapIr := s.tapIr, dbg := s.dbg }) fun _ _ _ => rfl⟩
  · have hno : (haltAsked s1).dbg.resume = false := (hbits.keeps (fun x => x.dbg.resume) fun _ _ _ => rfl).trans hres
    obtain ⟨hhalted, hgone, hmem, hfrozen⟩ := halted_flags (s := haltAsked s1)
    obtain ⟨hstores, htime, hir⟩ := halted_keeps (s := haltAsked s1)
    have hexec := hhalt hon hh hp
    rw [if_neg (by simp [hclk, hph, hent]), haltNow_of_no_resume hno] at hexec
    refine ⟨_, hexec, rfl, hhalted, hgone, hmem,
      hfrozen.trans ?_, hir.trans (hbits.keeps State.tapIr fun _ _ _ => rfl), hstores.trans (hbits.keeps State.stores fun _ _ _ => rfl),
      htime.trans (hbits.keeps State.time fun _ _ _ => rfl)⟩
    exact flag_of_bitsBut hbits.1 (List.forall_mem_cons.mpr ⟨fun h => absurd h (by decide), apart_sref (by decide)⟩)
  · rw [exec_resume]
    unfold execResume
    rw [hload _ _ (by decide), hpins, hh, hp]
    rfl
  · have hexec : exec .resume s = .next (resumeNow { s with tapIr := 0x22, dbg := { s.dbg with dr := word } }) := by
      rw [exec_resume]
      unfold execResume
      rw [hload _ _ (by decide), hpins, hh]
      rfl
    exact ⟨_, hexec.trans (congrArg ok (resumeNow_of_idle hu hw he)), resumed_reads⟩
  · have hable : s.resettable = true := by
      unfold State.resettable
      obtain (h | h | h) | h := hon <;> rw [h] <;> rfl
    refine ⟨_, (exec_sysrst s).trans (okIf_of_true _ _ (by rw [hpins, hable]; rfl)), ?_⟩
    rw [deviceReset_eq s 8 0]
    exact ⟨rfl, rfl, rfl, rfl, rfl⟩

end

end Sys2Proof.Machine

/-!
SUPPORT. Always-on time (19_clocks.md R383 to R391, 21_power.md R411, R415): what AON ticks that pass leave alone, what the always-on block
then shows of clocks, supplies and rails.
-/

namespace Sys2Proof.Machine

/-! ### What only the always-on block changes -/

/-- Nothing but register bits in the fields listed, the record of the slot, and the always-on state differs. -/
def AonOnly (fs : List Field) (s t : State) : Prop := BitsBut fs s t ∧ { t with regs := s.regs, cyc := s.cyc, aon := s.aon } = s

section
variable {fs : List Field} {s t u : State}

theorem AonOnly.refl (fs : List Field) (s : State) : AonOnly fs s s := ⟨bitsBut_refl fs s, rfl⟩

theorem AonOnly.frame (h : AonOnly fs s t) : { t with regs := s.regs, cyc := s.cyc, aon := s.aon } = s := h.2

theorem AonOnly.eq (h : AonOnly fs s t) : t = { s with regs := t.regs, cyc := t.cyc, aon := t.aon } :=
  (congrArg (fun x : State => { x with regs := t.regs, cyc := t.cyc, aon := t.aon }) h.2 :)

/-- What looks neither at registers nor at the always-on state is kept. -/
theorem AonOnly.keeps {α : Type} (h : AonOnly fs s t) (f : State → α)
    (hf : ∀ u r c a, f { u with regs := r, cyc := c, aon := a } = f u) : f t = f s := by
  rw [h.eq]
  exact hf s t.regs t.cyc t.aon

theorem AonOnly.trans (h : AonOnly fs s t) (h2 : AonOnly fs t u) : AonOnly fs s u := by
  refine ⟨bitsBut_trans h.1 h2.1, ?_⟩
  rw [h2.eq, h.eq]

theorem AonOnly.setF (h : AonOnly fs s t) (f : Field) (v : Nat) (hm : f ∈ fs) (hf : f.Fits) : AonOnly fs s (t.setF f v) :=
  ⟨bitsBut_setF h.1 f v hm hf.1 hf.2, h.2⟩

theorem AonOnly.putF (h : AonOnly fs s t) (f : Field) (b : Bool) (hm : f ∈ fs) (hf : f.Fits) : AonOnly fs s (t.putF f b) :=
  h.setF f b.toNat hm hf

theorem AonOnly.withAon (h : AonOnly fs s t) (a : Aon) : AonOnly fs s { t with aon := a } :=
  ⟨bitsBut_of_regs h.1 rfl, h.2⟩

theorem OnlyBits.putF (h : OnlyBits fs s t) (f : Field) (b : Bool) (hm : f ∈ fs) (hf : f.Fits) : OnlyBits fs s (t.putF f b) :=
  h.setF f b.toNat hm hf

theorem OnlyBits.addF (h : OnlyBits fs s t) (f : Field) (n : Nat) (hm : f ∈ fs) (hf : f.Fits) : OnlyBits fs s (t.addF f n) :=
  ⟨bitsBut_addF h.1 f n hm hf.1 hf.2, h.2⟩

theorem OnlyBits.incF (h : OnlyBits fs s t) (f : Field) (hm : f ∈ fs) (hf : f.Fits) : OnlyBits fs s (t.incF f) := h.addF f 1 hm hf

theorem AonOnly.of_onlyBits (h : OnlyBits fs s t) : AonOnly fs s t :=
  ⟨h.1, (congrArg (fun x : State => { x with aon := s.aon }) h.2 :)⟩

end

/-- What each step of a fold keeps is kept by the fold. -/
theorem foldl_keeps {α β : Type} (f : State → β) {g : State → α → State} (hg : ∀ u x, f (g u x) = f u) (l : List α) (s : State) :
    f (l.foldl g s) = f s := by
  induction l generalizing s with
  | nil => rfl
  | cons x l ih => exact (ih _).trans (hg s x)

/-- A register none of whose bits are listed. -/
theorem reg_of_bitsBut {fs : List Field} {s t : State} (h : BitsBut fs s t) {o : Nat} (ho : ∀ f ∈ fs, f.reg ≠ o) : t.reg o = s.reg o :=
  BitVec.eq_of_getLsbD_eq fun i _ => h o i fun f hf hr => absurd hr (ho f hf)

/-- Register bits of the fields listed, and an event raised last. -/
theorem OnlyBits.raiseEv {fs : List Field} {s t : State} (h : OnlyBits fs s t) (e : Nat) (hev : t.cyc.evs = s.cyc.evs) :
    OnlyBitsEv fs e s (t.raiseEv e) :=
  ⟨bitsBut_of_regs h.1 rfl, raiseEv_raised_congr e (h.keeps State.raised fun _ _ _ => rfl) hev (h.keeps State.clockOn fun _ _ _ => rfl)
    (h.keeps State.dbgHalt fun _ _ _ => rfl), (congrArg (fun x : State => { x with raised := s.raised }) h.2 :)⟩

theorem raiseEv_evs (s : State) (e : Nat) : (s.raiseEv e).cyc.evs =
    if s.logs && !s.cyc.evs.contains e then s.cyc.evs ++ [e] else s.cyc.evs := by
  unfold State.raiseEv
  dsimp only
  split <;> rfl

theorem raiseEv_evs_congr {t u : State} (e : Nat) (h : t.cyc.evs = u.cyc.evs) (hc : t.clockOn = u.clockOn) (hd : t.dbgHalt = u.dbgHalt) :
    (t.raiseEv e).cyc.evs = (u.raiseEv e).cyc.evs := by
  simp [raiseEv_evs, State.logs, h, hc, hd]

theorem onlyBitsEv_raiseF (s : State) (f : Field) (e : Nat) (hf : f.Fits) : OnlyBitsEv [f] e s ((s.raiseF f).raiseEv e) :=
  ((onlyBits_refl s _).raiseF f (by simp) hf).raiseEv e (by simp)

theorem Wrote.putF {vals : List (Field × Nat)} {s t : State} (h : Wrote vals s t) (f : Field) (b : Bool) :
    Wrote ((f, b.toNat) :: vals) s (t.putF f b) := h.setF f b.toNat

/-! ### The sources, the inputs and the rails as registers show them -/

section
variable (s : State)

theorem regsOnly_setFields (vals : List (Field × Nat)) : RegsOnly s (s.setFields vals) := by
  induction vals with
  | nil => exact .refl s
  | cons x vals ih => exact ih.setF x.1 x.2

theorem wrote_setFields (vals : List (Field × Nat)) : Wrote vals s (s.setFields vals) := rfl

theorem onlyBits_setFields {vals : List (Field × Nat)} (hs : Separate (vals.map Prod.fst)) :
    OnlyBits (vals.map Prod.fst) s (s.setFields vals) :=
  (regsOnly_setFields s vals).onlyBits (bitsBut_setFields s hs)

/-- The oscillators as CLK_STAT shows them. -/
def oscShows : List (Field × Nat) :=
  [(Reg.CLK_STAT_AON_NOW, s.clk.aonXo.toNat), (Reg.CLK_STAT_RCO_OK, (rcoPasses s).toNat), (Reg.CLK_STAT_XO_OK, (xoPasses s).toNat),
   (Reg.CLK_STAT_XO_READY, s.clk.xo.toNat), (Reg.CLK_STAT_RCO_READY, s.clk.rco.toNat)]

/-- The oscillators and MREF as CLK_STAT and CLK_MREF show them. -/
def sourceShows : List (Field × Nat) :=
  (Reg.CLK_STAT_MREF_SETTLED, (s.clk.mref.isSome && decide (strapWait s ≤ s.clk.stable)).toNat) ::
    (Reg.CLK_STAT_MREF_OK, (s.clk.mref.isSome && !s.clk.tripped.contains 2).toNat) ::
    (Reg.CLK_MREF_FREQ, s.clk.mref.getD 0) :: oscShows s

/-- The clocks as CLK_STAT and CLK_MREF show them. -/
def clockShows : List (Field × Nat) :=
  (Reg.CLK_STAT_MUX_BUSY, (s.clk.hang ||
    (s.flag Reg.CLK_CTRL_AON_SRC != s.clk.aonXo && (!s.flag Reg.CLK_CTRL_AON_SRC || s.clk.xo))).toNat) :: sourceShows s

theorem oscReport_eq : oscReport s = s.setFields (oscShows s) := rfl

theorem strapWait_of_bitsBut {s t : State} (h : BitsBut clockFields s t) : strapWait t = strapWait s := by
  unfold strapWait
  rw [getF_of_bitsBut h (g := Reg.RST_STRAP_CODE) (by decide)]

theorem mrefReport_oscReport_eq : mrefReport (oscReport s) = s.setFields (sourceShows s) := by
  have hclk : (oscReport s).clk = s.clk := rfl
  have hbits : BitsBut clockFields s (s.setFields (oscShows s)) :=
    bitsBut_mono (bitsBut_setFields s (vals := oscShows s) (.of_ok rfl)) (by simp [oscShows, clockFields])
  have hwait : strapWait (oscReport s) = strapWait s := strapWait_of_bitsBut hbits
  unfold mrefReport
  rw [hclk, hwait]
  rfl

theorem clkReport_eq : clkReport s = s.setFields (clockShows s) := by
  have hclk : (s.setFields (sourceShows s)).clk = s.clk := rfl
  have hbits : BitsBut clockFields s (s.setFields (sourceShows s)) :=
    bitsBut_mono (bitsBut_setFields s (vals := sourceShows s) (.of_ok rfl)) (by simp [sourceShows, oscShows, clockFields])
  have hsrc : (s.setFields (sourceShows s)).flag Reg.CLK_CTRL_AON_SRC = s.flag Reg.CLK_CTRL_AON_SRC := flag_of_bitsBut hbits (by decide)
  unfold clkReport muxBusy
  rw [mrefReport_oscReport_eq, hclk, hsrc]
  rfl

theorem vmonReport_eq : vmonReport s = s.setFields [(Reg.PWR_VMON_VAUX, s.aon.vmon.2), (Reg.PWR_VMON_VIN, s.aon.vmon.1)] := rfl

theorem separate_clockShows : Separate ((clockShows s).map Prod.fst) := .of_ok rfl

theorem onlyBits_clkReport : OnlyBits clockFields s (clkReport s) := by
  rw [clkReport_eq]
  exact (onlyBits_setFields s (separate_clockShows s)).mono (by simp [clockShows, sourceShows, oscShows, clockFields])

theorem onlyBits_vmonReport : OnlyBits [Reg.PWR_VMON_VAUX, Reg.PWR_VMON_VIN] s (vmonReport s) :=
  onlyBits_setFields s (vals := [(Reg.PWR_VMON_VAUX, s.aon.vmon.2), (Reg.PWR_VMON_VIN, s.aon.vmon.1)]) (.of_ok rfl)

/-- Once reported, the clocks are shown as they are. -/
theorem clocksShown_clkReport : ClocksShown (clkReport s) := by
  have hbits := (onlyBits_clkReport s).1
  have hclk : (clkReport s).clk = s.clk := (onlyBits_clkReport s).keeps State.clk fun _ _ _ => rfl
  have hsrc : (clkReport s).flag Reg.CLK_CTRL_AON_SRC = s.flag Reg.CLK_CTRL_AON_SRC := flag_of_bitsBut hbits (by decide)
  have hwait : strapWait (clkReport s) = strapWait s := strapWait_of_bitsBut hbits
  have hw : Wrote (clockShows s) s (clkReport s) := congrArg State.regs (clkReport_eq s)
  have hsep := separate_clockShows s
  unfold ClocksShown
  rw [hclk, hsrc, hwait]
  exact ⟨hw.flag hsep (by simp [clockShows, sourceShows, oscShows]), hw.flag hsep (by simp [clockShows, sourceShows, oscShows]),
    hw.flag hsep (by simp [clockShows, sourceShows, oscShows, xoPasses]), hw.flag hsep (by simp [clockShows, sourceShows, oscShows, rcoPasses]),
    hw.flag hsep (by simp [clockShows, sourceShows, oscShows]), hw.getF_mod hsep (by simp [clockShows, sourceShows, oscShows]),
    hw.flag hsep (by simp [clockShows, sourceShows]), hw.flag hsep (by simp [clockShows, sourceShows]), hw.flag hsep (by simp [clockShows])⟩

end

/-! ### Rails -/

/-- What PWR_VNOW shows of setpoints and rails. -/
def railFields : List Field := [Reg.PWR_VNOW_VF_NOW, Reg.PWR_VNOW_VT_NOW, Reg.PWR_VNOW_VS_NOW, Reg.PWR_VNOW_SLEW]

section
variable (s : State)

theorem onlyBits_slewShow : OnlyBits railFields s (slewShow s) :=
  (onlyBits_refl s railFields).putF _ _ (by simp [railFields]) ((Field.fits_iff _).mpr rfl)

theorem onlyBits_applyVolts (khz : Nat) : OnlyBits railFields s (applyVolts s khz) := by
  refine onlyBits_trans ?_ (onlyBits_slewShow _)
  exact (((onlyBits_refl s railFields).setF _ _ (by simp [railFields]) ((Field.fits_iff _).mpr rfl)).setF _ _ (by simp [railFields])
    ((Field.fits_iff _).mpr rfl)).setF _ _ (by simp [railFields]) ((Field.fits_iff _).mpr rfl)

theorem aonOnly_railsPass (dt : Nat) : AonOnly railFields s (railsPass s dt) := by
  unfold railsPass
  split
  · exact ((AonOnly.of_onlyBits (onlyBits_applyVolts s _)).withAon _).trans (.of_onlyBits (onlyBits_slewShow _))
  · exact .refl _ s

theorem minCodes_lt (khz : Nat) : (minCodes khz).1 < 256 ∧ (minCodes khz).2.1 < 256 ∧ (minCodes khz).2.2 < 256 := by
  unfold minCodes
  split_ifs <;> simp

theorem setpoints_slewShow : setpoints (slewShow s) = setpoints s := by
  have hbits : BitsBut [Reg.PWR_VNOW_SLEW] s (slewShow s) :=
    bitsBut_putF (bitsBut_refl _ s) _ _ (by simp) (by decide) (by decide)
  unfold setpoints
  rw [getF_of_bitsBut hbits (by decide), getF_of_bitsBut hbits (by decide), getF_of_bitsBut hbits (by decide)]

/-- The setpoints that apply: the larger of request and minimum (R415). -/
theorem setpoints_applyVolts (khz : Nat) :
    setpoints (applyVolts s khz) = (max (s.getF Reg.PWR_VSET_VF_REQ) (minCodes khz).1, max (s.getF Reg.PWR_VSET_VT_REQ) (minCodes khz).2.1,
      max (s.getF Reg.PWR_VSET_VS_REQ) (minCodes khz).2.2) := by
  obtain ⟨hf, ht, hs⟩ := minCodes_lt khz
  have hreq (f : Field) (h : f.hi + 1 - f.lo = 8) : s.getF f < 256 := by
    unfold State.getF
    rw [h]
    exact Nat.mod_lt _ (by decide)
  have hw := (((Wrote.refl s).setF Reg.PWR_VNOW_VF_NOW (max (s.getF Reg.PWR_VSET_VF_REQ) (minCodes khz).1)).setF Reg.PWR_VNOW_VT_NOW
    (max (s.getF Reg.PWR_VSET_VT_REQ) (minCodes khz).2.1)).setF Reg.PWR_VNOW_VS_NOW (max (s.getF Reg.PWR_VSET_VS_REQ) (minCodes khz).2.2)
  have hsep : Separate [Reg.PWR_VNOW_VS_NOW, Reg.PWR_VNOW_VT_NOW, Reg.PWR_VNOW_VF_NOW] := .of_ok rfl
  refine (setpoints_slewShow _).trans ?_
  unfold setpoints
  rw [hw.getF hsep (.tail _ (.tail _ (.head _))) (max_lt (hreq _ rfl) hf), hw.getF hsep (.tail _ (.head _)) (max_lt (hreq _ rfl) ht),
    hw.getF hsep (.head _) (max_lt (hreq _ rfl) hs)]

theorem flag_slewShow : (slewShow s).flag Reg.PWR_VNOW_SLEW = (s.aon.rails != setpoints s) := flag_putF _ _ _ (by decide) (by decide)

/-- Rails on their way to the setpoints of the VCO (R415, R416). -/
theorem railsPass_reads (dt : Nat) (hvb : s.aon.vb = true) :
    let g := setpoints (applyVolts s (voltVco s))
    setpoints (railsPass s dt) = g ∧
      (railsPass s dt).aon.rails =
        (railMove (2 * dt) s.aon.rails.1 g.1, railMove (2 * dt) s.aon.rails.2.1 g.2.1, railMove (2 * dt) s.aon.rails.2.2 g.2.2) ∧
      (railsPass s dt).flag Reg.PWR_VNOW_SLEW = ((railsPass s dt).aon.rails != g) := by
  have haon : (applyVolts s (voltVco s)).aon = s.aon := (onlyBits_applyVolts s _).keeps State.aon fun _ _ _ => rfl
  unfold railsPass
  rw [if_pos hvb]
  dsimp only
  rw [haon]
  generalize applyVolts s (voltVco s) = u
  exact ⟨setpoints_slewShow _, rfl, flag_slewShow _⟩

end

/-! ### Ticks that pass -/

section
variable (s : State) (dt : Nat)

/-- Time, residency and the watchdog count after AON ticks (R362, R379, R426). -/
def aonCounted : State :=
  let m := residencyOf s
  let s1 := { s with aon := { s.aon with
    ticks := s.aon.ticks + dt, res := s.aon.res.set m ((s.aon.res.getD m 0 + dt) % 2 ^ 64),
    vinFor := if s.aon.vinOk then s.aon.vinFor + dt else 0 } }
  if wdtRuns s then s1.setF Reg.WDT_STAT_COUNT (s1.getF Reg.WDT_STAT_COUNT - dt) else s1

theorem aonPass_of_ticks (h : s.phase ≠ .unpowered) (hdt : dt ≠ 0) :
    aonPass s dt = vmonReport (clkReport (railsPass (aonCounted s dt) dt)).newAonTick := by
  unfold aonPass
  exact if_neg (by tauto)

theorem aonPass_of_none (h : s.phase = .unpowered ∨ dt = 0) : aonPass s dt = s := if_pos h

theorem aonOnly_aonCounted : AonOnly [Reg.WDT_STAT_COUNT] s (aonCounted s dt) := by
  unfold aonCounted
  dsimp only
  split
  · exact ((AonOnly.refl _ s).withAon _).setF _ _ (by simp) ((Field.fits_iff _).mpr rfl)
  · exact (AonOnly.refl _ s).withAon _

theorem aonCounted_aon : (aonCounted s dt).aon = { s.aon with
    ticks := s.aon.ticks + dt, res := s.aon.res.set (residencyOf s) ((s.aon.res.getD (residencyOf s) 0 + dt) % 2 ^ 64),
    vinFor := if s.aon.vinOk then s.aon.vinFor + dt else 0 } := by
  unfold aonCounted
  dsimp only
  split
  · rfl
  · rfl

theorem count_aonCounted : (aonCounted s dt).getF Reg.WDT_STAT_COUNT =
    if wdtRuns s then s.getF Reg.WDT_STAT_COUNT - dt else s.getF Reg.WDT_STAT_COUNT := by
  have hcount : s.getF Reg.WDT_STAT_COUNT - dt < 2 ^ 24 := (Nat.sub_le _ _).trans_lt (Nat.mod_lt _ (by decide))
  unfold aonCounted
  dsimp only
  split
  · exact (getF_setF_self _ _ _ (by decide) (by decide)).trans (Nat.mod_eq_of_lt hcount)
  · rfl

theorem AonOnly.newAonTick {fs : List Field} {s t : State} (h : AonOnly fs s t) : AonOnly fs s t.newAonTick :=
  ⟨bitsBut_of_regs h.1 rfl, h.2⟩

theorem AonOnly.mono {fs gs : List Field} {s t : State} (h : AonOnly fs s t) (hs : ∀ f ∈ fs, f ∈ gs) : AonOnly gs s t :=
  ⟨bitsBut_mono h.1 hs, h.2⟩

/-- What the end of a tick reports beside the rails. -/
theorem onlyBits_reports : OnlyBits (Reg.PWR_VMON_VAUX :: Reg.PWR_VMON_VIN :: clockFields) s (vmonReport (clkReport s).newAonTick) := by
  have hclk := (onlyBits_clkReport s).mono (gs := Reg.PWR_VMON_VAUX :: Reg.PWR_VMON_VIN :: clockFields) (by simp +contextual)
  have htick : OnlyBits (Reg.PWR_VMON_VAUX :: Reg.PWR_VMON_VIN :: clockFields) s (clkReport s).newAonTick :=
    ⟨bitsBut_of_regs hclk.1 rfl, hclk.2⟩
  exact onlyBits_trans htick ((onlyBits_vmonReport _).mono (by simp))

theorem aonOnly_aonPass : AonOnly tickFields s (aonPass s dt) := by
  by_cases h : s.phase = .unpowered ∨ dt = 0
  · rw [aonPass_of_none s dt h]
    exact .refl _ s
  · rw [aonPass_of_ticks s dt (by tauto) (by tauto)]
    have hcount := (aonOnly_aonCounted s dt).mono (gs := tickFields) (by decide)
    have hrails := (aonOnly_railsPass (aonCounted s dt) dt).mono (gs := tickFields) (by decide)
    exact (hcount.trans hrails).trans (.of_onlyBits ((onlyBits_reports _).mono (by decide)))

theorem aon_aonPass (h : s.phase ≠ .unpowered) (hdt : dt ≠ 0) : (aonPass s dt).aon = (railsPass (aonCounted s dt) dt).aon := by
  rw [aonPass_of_ticks s dt h hdt]
  exact (onlyBits_reports _).keeps State.aon fun _ _ _ => rfl

theorem aon_railsPass : { (railsPass s dt).aon with rails := s.aon.rails } = s.aon := by
  have haon : (applyVolts s (voltVco s)).aon = s.aon := (onlyBits_applyVolts s _).keeps State.aon fun _ _ _ => rfl
  unfold railsPass
  split
  · dsimp only
    rw [haon]
    generalize applyVolts s (voltVco s) = u
    rfl
  · rfl

theorem ticks_aonPass (h : s.phase ≠ .unpowered) : (aonPass s dt).aon.ticks = s.aon.ticks + dt := by
  by_cases hdt : dt = 0
  · rw [aonPass_of_none s dt (.inr hdt), hdt]
    rfl
  · rw [aon_aonPass s dt h hdt]
    exact (congrArg Aon.ticks (aon_railsPass (aonCounted s dt) dt) :).trans (congrArg Aon.ticks (aonCounted_aon s dt) :)

theorem count_aonPass : (aonPass s dt).getF Reg.WDT_STAT_COUNT =
    if wdtRuns s then s.getF Reg.WDT_STAT_COUNT - dt else s.getF Reg.WDT_STAT_COUNT := by
  by_cases h : s.phase = .unpowered ∨ dt = 0
  · rw [aonPass_of_none s dt h]
    obtain h | h := h
    · simp [wdtRuns, h]
    · simp [h]
  · rw [aonPass_of_ticks s dt (by tauto) (by tauto), getF_of_bitsBut (onlyBits_reports _).1 (by decide),
      getF_of_bitsBut (aonOnly_railsPass _ dt).1 (by decide), count_aonCounted]

theorem wdtRuns_phase (h : wdtRuns s = true) : s.phase ≠ .unpowered := by
  simp [wdtRuns] at h
  exact h.2

theorem stage_aonPass : (aonPass s dt).getF Reg.WDT_STAT_STAGE = s.getF Reg.WDT_STAT_STAGE :=
  getF_of_bitsBut (aonOnly_aonPass s dt).1 (by decide)

end

end Sys2Proof.Machine

/-!
SUPPORT. Locked sequences (15_protection.md R317, 18_steward_events.md R378, 20_reset_startup.md): what a sequence that fails leaves, and a
locked write with and without its lock.
-/

namespace Sys2Proof.Machine

/-- The LOCKERR bit of a lock and its event. -/
def lockErr (which : Nat) : Field × Nat :=
  match which with
  | 0 => (Reg.VLT_STAT_LOCKERR, 201)
  | 1 => (Reg.WDT_STAT_LOCKERR, 209)
  | _ => (Reg.RST_BSTAT_LOCKERR, 212)

/-- A locked sequence has failed: no sequence is in progress, LOCKERR is set, and its event is raised. -/
def LockFailed (which : Nat) (s t : State) : Prop :=
  t.reg (lockReg which) = 0 ∧ t.flag (lockErr which).1 = true ∧ t.raised = (s.raiseEv (lockErr which).2).raised ∧
    BitsBut [wholeReg (lockReg which), (lockErr which).1] s t ∧
    { t with regs := s.regs, cyc := s.cyc, raised := s.raised, resp := s.resp } = s

section
variable (s : State) (which id : Nat) (f : State → State)

theorem lockFail_eq : lockFail s which = ((s.setReg (lockReg which) 0).raiseF (lockErr which).1).raiseEv (lockErr which).2 := by
  match which with
  | 0 | 1 | _ + 2 => rfl

theorem lockFail_evs : (lockFail s which).cyc.evs = (s.raiseEv (lockErr which).2).cyc.evs := by
  rw [lockFail_eq]
  exact raiseEv_evs_congr _ (by simp) rfl rfl

theorem lockErr_fits : (lockErr which).1.Fits := by
  match which with
  | 0 | 1 | _ + 2 => exact (Field.fits_iff _).mpr rfl

theorem lockErr_reg_ne : lockReg which ≠ (lockErr which).1.reg := by
  match which with
  | 0 | 1 | _ + 2 => simp [lockReg, lockErr, Reg.VLT_LOCK, Reg.WDT_LOCK, Reg.RST_LOCK, Reg.VLT_STAT_LOCKERR, Reg.WDT_STAT_LOCKERR,
      Reg.RST_BSTAT_LOCKERR, Reg.VLT_STAT, Reg.WDT_STAT, Reg.RST_BSTAT]

theorem lockFailed_lockFail (r : Response) : LockFailed which s { lockFail s which with resp := r } := by
  obtain ⟨hlo, hhi⟩ := lockErr_fits which
  rw [lockFail_eq]
  refine ⟨?_, ?_, raiseEv_raised_congr _ rfl ?_ rfl rfl, ?_, rfl⟩
  · exact (reg_setF_ne _ _ 1 _ (lockErr_reg_ne which)).trans (reg_setReg_self s _ 0)
  · exact (flag_of_regs rfl _).trans (flag_raiseF (s.setReg (lockReg which) 0) (lockErr which).1 hlo hhi)
  · simp
  · exact bitsBut_of_regs (bitsBut_raiseF (bitsBut_setReg (bitsBut_refl _ s) (lockReg which) 0 (by simp)) (lockErr which).1 (by simp) hlo hhi) rfl

/-- An answered write whose initiator owns a completed sequence. -/
theorem lockedWrite_of_open (h : s.getF (lockState which) = 2 ∧ s.getF (lockOwner which) = id) :
    answerWrite (lockedWrite s which id f) = .next { f (s.setReg (lockReg which) 0) with resp := ⟨0, 0⟩ } := by
  unfold lockedWrite
  rw [if_pos h]
  rfl

theorem lockedWrite_of_shut (h : ¬ (s.getF (lockState which) = 2 ∧ s.getF (lockOwner which) = id)) :
    answerWrite (lockedWrite s which id f) = .next { lockFail s which with resp := ⟨1, 0⟩ } := by
  unfold lockedWrite
  rw [if_neg h]
  rfl

end

end Sys2Proof.Machine

/-!
SUPPORT. The event controller and the watchdog (18_steward_events.md R373 to R380): raisings that reach the controller, claims, and the stages of
the watchdog.
-/

namespace Sys2Proof.Machine

/-! ### Raisings -/

section
variable {s t : State} {fs : List Field}

/-- A bit that is set already is not changed by setting it. -/
theorem reg_raiseF_of_flag {f : Field} (hf : f.hi = f.lo) (hhi : f.hi < 32) (h : s.flag f = true) (o : Nat) : (s.raiseF f).reg o = s.reg o := by
  by_cases ho : o = f.reg
  · subst ho
    rw [flag_eq_getLsbD s hf] at h
    rw [reg_raiseF, reg_setF_self]
    refine BitVec.eq_of_getLsbD_eq fun i _ => ?_
    rw [← BitVec.testBit_toNat, ← BitVec.testBit_toNat, putBits_testBit _ _ _ _ _ hf.ge hhi]
    split
    · obtain rfl : i = f.lo := by omega
      rw [BitVec.testBit_toNat, h, Nat.sub_self]
      rfl
    · rfl
  · rw [reg_raiseF, reg_setF_ne _ _ _ _ ho]

theorem bitsBut_of_reg {u : State} (h : BitsBut fs s t) (e : ∀ o, u.reg o = t.reg o) : BitsBut fs s u :=
  fun o i hf => by rw [e o]; exact h o i hf

end

section
variable {s : State} {e : Nat}

theorem pendBit_single (e : Nat) : (pendBit e).hi = (pendBit e).lo := rfl

theorem pendBit_fits (e : Nat) : (pendBit e).Fits := ⟨le_rfl, Nat.mod_lt _ (by decide)⟩

theorem pendBit_reg_ne (e : Nat) : (pendBit e).reg ≠ Reg.EVT_LOST := by
  simp only [pendBit, mapBit, Reg.EVT_PEND, Reg.EVT_LOST]
  omega

theorem evtLatch_of_clear (he : e < 288) (h : s.flag (pendBit e) = false) : evtLatch s e = s.raiseF (pendBit e) := by
  unfold evtLatch
  rw [if_neg (by omega), if_neg (by simp [h])]

/-- A raising of a source that is pending is counted (R373). -/
theorem evtLatch_of_pending (he : e < 288) (h : s.flag (pendBit e) = true) :
    (evtLatch s e).getF Reg.EVT_LOST_LOST =
        min (s.getF Reg.EVT_LOST_LOST + 1) (2 ^ (Reg.EVT_LOST_LOST.hi + 1 - Reg.EVT_LOST_LOST.lo) - 1) ∧
      OnlyBits [Reg.EVT_LOST_LOST] s (evtLatch s e) := by
  have hinc : BitsBut [Reg.EVT_LOST_LOST] s (s.incF Reg.EVT_LOST_LOST) :=
    bitsBut_incF (bitsBut_refl _ s) _ (by simp) (by decide) (by decide)
  have hflag : (s.incF Reg.EVT_LOST_LOST).flag (pendBit e) = true :=
    (flag_of_bitsBut hinc (by simpa using fun h => absurd h.symm (pendBit_reg_ne e))).trans h
  have hreg := reg_raiseF_of_flag (pendBit_single e) (pendBit_fits e).2 hflag
  have hcount : ((s.incF Reg.EVT_LOST_LOST).raiseF (pendBit e)).getF Reg.EVT_LOST_LOST =
      min (s.getF Reg.EVT_LOST_LOST + 1) (2 ^ (Reg.EVT_LOST_LOST.hi + 1 - Reg.EVT_LOST_LOST.lo) - 1) := by
    rw [getF_raiseF_eq, getF_setF_reg_ne _ _ _ 1 (pendBit_reg_ne e).symm]
    exact getF_addF s _ 1 (by decide) (by decide)
  have honly : OnlyBits [Reg.EVT_LOST_LOST] s ((s.incF Reg.EVT_LOST_LOST).raiseF (pendBit e)) := ⟨bitsBut_of_reg hinc hreg, rfl⟩
  have hregs : (evtLatch s e).regs = ((s.incF Reg.EVT_LOST_LOST).raiseF (pendBit e)).regs := by
    unfold evtLatch
    rw [if_neg (by omega), if_pos h]
  refine ⟨(getF_of_regs hregs _).trans hcount, bitsBut_of_regs honly.1 hregs, ?_⟩
  unfold evtLatch
  rw [if_neg (by omega), if_pos h]
  exact honly.2

end

/-! ### Claims -/

section
variable {α : Type} {l : List α} {g : α → Nat} {a : α}

/-- The greatest value of a list that has one. -/
theorem foldl_max_eq (ha : a ∈ l) (hle : ∀ b ∈ l, g b ≤ g a) : l.foldl (fun m b => max m (g b)) 0 = g a := by
  suffices h : ∀ m, m ≤ g a → a ∈ l ∨ m = g a → l.foldl (fun m b => max m (g b)) m = g a from h 0 (Nat.zero_le _) (.inl ha)
  clear ha
  induction l with
  | nil => exact fun m _ h => h.resolve_left (by simp)
  | cons b l ih =>
    intro m hm h
    obtain ⟨hb, hl⟩ := List.forall_mem_cons.mp hle
    refine ih hl _ (max_le hm hb) ?_
    obtain hmem | rfl := h
    · obtain rfl | hin := List.mem_cons.mp hmem
      · exact .inr (max_eq_right hm)
      · exact .inl hin
    · exact .inr (max_eq_left hb)

end

section
variable (s : State) (i : Nat)

/-- How far a source stands behind the pointer of core i (R374). -/
def claimDist (e : Nat) : Nat := (e + 288 - (tget (fun _ => 287) s.evtPtr i + 1)) % 288

/-- The sources that a claim looks at, the first after the pointer first. -/
def claimOrder : List Nat := (List.range 288).map fun d => (tget (fun _ => 287) s.evtPtr i + 1 + d) % 288

theorem claimPick_eq : claimPick s i = ((claimOrder s i).filter (candidate s i)).find? fun e =>
    s.getF (Reg.EVT_CFG_PRIO e) == ((claimOrder s i).filter (candidate s i)).foldl (fun m e => max m (s.getF (Reg.EVT_CFG_PRIO e))) 0 := rfl

variable {s i} {e : Nat}

theorem lt_of_mem_claimOrder (h : e ∈ claimOrder s i) : e < 288 := by
  obtain ⟨d, -, rfl⟩ := List.mem_map.mp h
  omega

theorem claimPick_of_none (h : ∀ e, e < 288 → candidate s i e = false) : claimPick s i = none := by
  rw [claimPick_eq, List.filter_eq_nil_iff.mpr fun e he => by simp [h e (lt_of_mem_claimOrder he)]]
  rfl

/-- A claim takes the candidate of highest priority, the first after the pointer among equals (R374). -/
theorem claimPick_of_best (he : e < 288) (hptr : tget (fun _ => 287) s.evtPtr i < 288) (hc : candidate s i e = true)
    (hbest : ∀ e', e' < 288 → candidate s i e' = true → s.getF (Reg.EVT_CFG_PRIO e') < s.getF (Reg.EVT_CFG_PRIO e) ∨
      (s.getF (Reg.EVT_CFG_PRIO e') = s.getF (Reg.EVT_CFG_PRIO e) ∧ claimDist s i e ≤ claimDist s i e')) : claimPick s i = some e := by
  have hat : ∀ d, d < 288 → claimDist s i ((tget (fun _ => 287) s.evtPtr i + 1 + d) % 288) = d := fun d hd => by
    unfold claimDist
    omega
  have hdist : claimDist s i e < 288 := Nat.mod_lt _ (by decide)
  have hself : (tget (fun _ => 287) s.evtPtr i + 1 + claimDist s i e) % 288 = e := by
    unfold claimDist
    omega
  have hmem : e ∈ (claimOrder s i).filter (candidate s i) :=
    List.mem_filter.mpr ⟨List.mem_map.mpr ⟨_, List.mem_range.mpr hdist, hself⟩, hc⟩
  have htop : ((claimOrder s i).filter (candidate s i)).foldl (fun m e => max m (s.getF (Reg.EVT_CFG_PRIO e))) 0 =
      s.getF (Reg.EVT_CFG_PRIO e) := foldl_max_eq hmem fun e' he' => by
    obtain ⟨hin, hc'⟩ := List.mem_filter.mp he'
    have := hbest e' (lt_of_mem_claimOrder hin) hc'
    omega
  rw [claimPick_eq, htop, List.find?_filter]
  unfold claimOrder
  rw [List.find?_map, List.find?_range_eq_some.mpr ⟨?_, List.mem_range.mpr hdist, ?_⟩, Option.map_some, hself]
  · simp [hself, hc]
  · intro d hd
    have hd' : d < 288 := by omega
    by_contra hne
    simp only [Function.comp, Bool.not_eq_true', Bool.not_eq_false, decide_eq_true_eq, beq_iff_eq] at hne
    obtain ⟨hcand, hprio⟩ := hne
    have := hbest _ (Nat.mod_lt _ (by decide)) hcand
    rw [hat d hd'] at this
    omega

/-- Source e is a candidate for core i (R373). -/
theorem candidate_iff : candidate s i e = true ↔ s.flag (pendBit e) = true ∧ s.flag (Reg.EVT_CFG_EN e) = true ∧
    (s.getF (Reg.EVT_CFG_MASK e)).testBit i = true ∧ s.getF (Reg.EVT_THRESH_THRESH i) < s.getF (Reg.EVT_CFG_PRIO e) := by
  simp [candidate, and_assoc]

theorem claimRead_of_none (peek : Bool) (h : claimPick s i = none) : claimRead s i peek = (s, 0) := by
  unfold claimRead
  rw [h]

theorem claimRead_peek (h : claimPick s i = some e) : claimRead s i true = (s, BitVec.ofNat 32 (2 ^ 31 + e)) := by
  unfold claimRead
  rw [h]
  rfl

theorem claimRead_take (h : claimPick s i = some e) :
    claimRead s i false = ({ claimClear s e with evtPtr := tset (fun _ => 287) s.evtPtr i e }, BitVec.ofNat 32 (2 ^ 31 + e)) := by
  unfold claimRead
  rw [h]
  rfl

/-- A source claimed is pending no more, but one that was raised again in the slot is, and no raising of it is counted as lost (R375). -/
theorem claimClear_reads (h : s.flag (pendBit e) = true) :
    ((claimClear s e).flag (pendBit e) = true ↔ s.logs = true ∧ e ∈ s.cyc.lost) ∧ (s.logs = true → e ∉ (claimClear s e).cyc.lost) ∧
      (e ∉ s.cyc.lost → (claimClear s e).getF Reg.EVT_LOST_LOST = s.getF Reg.EVT_LOST_LOST) ∧
      OnlyBits [pendBit e, wholeReg Reg.EVT_LOST] s (claimClear s e) := by
  have hne := pendBit_reg_ne e
  unfold claimClear
  split
  case isTrue hlost =>
    obtain ⟨hlogs, hmem⟩ : s.logs = true ∧ e ∈ s.cyc.lost := by simpa using hlost
    have hcount : s.cyc.lost.count e ≠ 0 := (List.count_pos_iff.mpr hmem).ne'
    unfold unlost
    dsimp only
    rw [if_neg (by simp [hlogs, hcount])]
    refine ⟨⟨fun _ => ⟨hlogs, hmem⟩, fun _ => ?_⟩, fun _ => by simp, fun h => absurd hmem h, ?_, rfl⟩
    · refine (flag_of_bitsBut (bitsBut_setReg (bitsBut_refl [wholeReg Reg.EVT_LOST] s) Reg.EVT_LOST _ (by simp)) ?_).trans h
      simpa using fun h => absurd h.symm hne
    · exact bitsBut_setReg (bitsBut_refl _ s) _ _ (by simp)
  case isFalse hlost =>
    have hlost' : ¬ (s.logs = true ∧ e ∈ s.cyc.lost) := by simpa using hlost
    have hclear : (s.clearF (pendBit e)).flag (pendBit e) = false := flag_clearF s _ (pendBit_fits e).1 (pendBit_fits e).2
    refine ⟨⟨fun h => absurd (hclear.symm.trans h) (by simp), fun h => absurd h hlost'⟩, fun hl hm => hlost' ⟨hl, hm⟩,
      fun _ => getF_setF_reg_ne s _ _ 0 hne.symm, ?_, rfl⟩
    exact bitsBut_clearF (bitsBut_refl _ s) _ (by simp) (pendBit_fits e).1 (pendBit_fits e).2

end

/-! ### The watchdog -/

section
variable {s t : State}

/-- The bits that a stage of the watchdog writes as it starts. -/
theorem wdtStage_reads (s : State) {stage load : Nat} (hs : stage < 2) (hl : wdtLoad s stage = load) (hload : load < 2 ^ 24) :
    (wdtStage s stage).getF Reg.WDT_STAT_STAGE = stage ∧ (wdtStage s stage).getF Reg.WDT_STAT_COUNT = load ∧
      OnlyBits [Reg.WDT_STAT_STAGE, Reg.WDT_STAT_COUNT] s (wdtStage s stage) := by
  have hsep : Separate [Reg.WDT_STAT_COUNT, Reg.WDT_STAT_STAGE] := .of_ok rfl
  have hw := ((Wrote.refl s).setF Reg.WDT_STAT_STAGE stage).setF Reg.WDT_STAT_COUNT load
  unfold wdtStage
  rw [hl]
  exact ⟨hw.getF hsep (.tail _ (.head _)) hs, hw.getF hsep (.head _) hload, bitsBut_mono (hw.bitsBut hsep) (by simp), rfl⟩

theorem wdtStage_evs (s : State) (stage : Nat) : (wdtStage s stage).cyc.evs = s.cyc.evs := rfl

theorem wdtLoad_zero (s : State) : wdtLoad s 0 = max 1024 (s.getF Reg.WDT_LOAD1_LOAD1) := by simp [wdtLoad]

theorem wdtLoad_one (s : State) : wdtLoad s 1 = max 1024 (s.getF Reg.WDT_LOAD2_LOAD2) := by simp [wdtLoad]

theorem wdtLoad_lt (s : State) (stage : Nat) : wdtLoad s stage < 2 ^ 24 := by
  unfold wdtLoad
  refine max_lt (by decide) ?_
  split <;> exact Nat.mod_lt _ (by decide)

theorem wdtLoad_of_bitsBut {fs : List Field} (h : BitsBut fs s t)
    (h1 : ∀ f ∈ fs, f.reg = Reg.WDT_LOAD1_LOAD1.reg → Reg.WDT_LOAD1_LOAD1.hi < f.lo ∨ f.hi < Reg.WDT_LOAD1_LOAD1.lo)
    (h2 : ∀ f ∈ fs, f.reg = Reg.WDT_LOAD2_LOAD2.reg → Reg.WDT_LOAD2_LOAD2.hi < f.lo ∨ f.hi < Reg.WDT_LOAD2_LOAD2.lo) (stage : Nat) :
    wdtLoad t stage = wdtLoad s stage := by
  unfold wdtLoad
  rw [getF_of_bitsBut h h1, getF_of_bitsBut h h2]

/-- The two control bits of the watchdog as a locked write leaves them (R378). -/
def wdtSwitched (s : State) (v : Word32) : State :=
  (s.putF Reg.WDT_CTRL_STICKY (s.flag Reg.WDT_CTRL_STICKY || v.getLsbD 1)).putF Reg.WDT_CTRL_EN
    (v.getLsbD 0 || (s.flag Reg.WDT_CTRL_STICKY && s.flag Reg.WDT_CTRL_EN))

theorem wdtCtrlWrite_eq (s : State) (v : Word32) : wdtCtrlWrite s v =
    if ((v.getLsbD 0 || (s.flag Reg.WDT_CTRL_STICKY && s.flag Reg.WDT_CTRL_EN)) && !s.flag Reg.WDT_CTRL_EN) = true then
      wdtStage (wdtSwitched s v) 0 else wdtSwitched s v := rfl

theorem wdtSwitched_reads (s : State) (v : Word32) :
    (wdtSwitched s v).flag Reg.WDT_CTRL_STICKY = (s.flag Reg.WDT_CTRL_STICKY || v.getLsbD 1) ∧
      (wdtSwitched s v).flag Reg.WDT_CTRL_EN = (v.getLsbD 0 || (s.flag Reg.WDT_CTRL_STICKY && s.flag Reg.WDT_CTRL_EN)) ∧
      OnlyBits [Reg.WDT_CTRL_STICKY, Reg.WDT_CTRL_EN] s (wdtSwitched s v) := by
  have hsep : Separate [Reg.WDT_CTRL_EN, Reg.WDT_CTRL_STICKY] := .of_ok rfl
  have hw := ((Wrote.refl s).putF Reg.WDT_CTRL_STICKY (s.flag Reg.WDT_CTRL_STICKY || v.getLsbD 1)).putF Reg.WDT_CTRL_EN
    (v.getLsbD 0 || (s.flag Reg.WDT_CTRL_STICKY && s.flag Reg.WDT_CTRL_EN))
  exact ⟨hw.flag hsep (.tail _ (.head _)), hw.flag hsep (.head _), bitsBut_mono (hw.bitsBut hsep) (by simp), rfl⟩

/-- A watchdog that is enabled starts its first stage; one that runs already goes on (R378, R379). -/
theorem wdtCtrlWrite_reads (s : State) (v : Word32) :
    (wdtCtrlWrite s v).flag Reg.WDT_CTRL_STICKY = (s.flag Reg.WDT_CTRL_STICKY || v.getLsbD 1) ∧
      (wdtCtrlWrite s v).flag Reg.WDT_CTRL_EN = (v.getLsbD 0 || (s.flag Reg.WDT_CTRL_STICKY && s.flag Reg.WDT_CTRL_EN)) ∧
      (s.flag Reg.WDT_CTRL_EN = false → v.getLsbD 0 = true → (wdtCtrlWrite s v).getF Reg.WDT_STAT_STAGE = 0 ∧
        (wdtCtrlWrite s v).getF Reg.WDT_STAT_COUNT = wdtLoad s 0) ∧
      (s.flag Reg.WDT_CTRL_EN = true → (wdtCtrlWrite s v).getF Reg.WDT_STAT_STAGE = s.getF Reg.WDT_STAT_STAGE ∧
        (wdtCtrlWrite s v).getF Reg.WDT_STAT_COUNT = s.getF Reg.WDT_STAT_COUNT) ∧
      OnlyBits [Reg.WDT_CTRL_STICKY, Reg.WDT_CTRL_EN, Reg.WDT_STAT_STAGE, Reg.WDT_STAT_COUNT] s (wdtCtrlWrite s v) := by
  obtain ⟨hsticky, hen, honly⟩ := wdtSwitched_reads s v
  obtain ⟨hstage, hcount, hrest⟩ := wdtStage_reads (wdtSwitched s v) (stage := 0) (by decide)
    (wdtLoad_of_bitsBut honly.1 (by decide) (by decide) 0) (wdtLoad_lt s 0)
  rw [wdtCtrlWrite_eq]
  split
  case isTrue h =>
    refine ⟨(flag_of_bitsBut hrest.1 (by decide)).trans hsticky, (flag_of_bitsBut hrest.1 (by decide)).trans hen, fun _ _ => ⟨hstage, hcount⟩,
      fun hon => ?_, onlyBits_trans (honly.mono (by simp)) (hrest.mono (by simp))⟩
    simp [hon] at h
  case isFalse h =>
    refine ⟨hsticky, hen, fun hoff hv => ?_, fun _ => ⟨getF_of_bitsBut honly.1 (by decide), getF_of_bitsBut honly.1 (by decide)⟩,
      honly.mono (by simp)⟩
    simp [hoff, hv] at h

end

section
variable {s : State} {dt : Nat} (hrun : wdtRuns s = true)
include hrun

theorem exec_wdtStage1Expiry_of_due (hst : (aonPass s dt).getF Reg.WDT_STAT_STAGE = 0) (hc : (aonPass s dt).getF Reg.WDT_STAT_COUNT = 0) :
    exec (.wdtStage1Expiry dt) s = .next ((wdtStage (aonPass s dt) 1).raiseEv 208) := by
  rw [exec_wdtStage1Expiry]
  unfold execWdtStage1Expiry
  exact okIf_of_true _ _ (by simp [hrun, hst, hc])

theorem exec_wdtStage2Expiry_of_due (hst : (aonPass s dt).getF Reg.WDT_STAT_STAGE = 1) (hc : (aonPass s dt).getF Reg.WDT_STAT_COUNT = 0) :
    exec (.wdtStage2Expiry dt) s = .next (deviceReset (aonPass s dt) 3 0) := by
  rw [exec_wdtStage2Expiry]
  unfold execWdtStage2Expiry
  exact okIf_of_true _ _ (by simp [hrun, hst, hc])

end

/-- Settles O43: a raising by the pending bit of its source, a claim by the candidates that stand, a watchdog write by its lock, a kick by its
word, and a stage's end by the count that AON time has run down. -/
theorem eventsAndWatchdog : Obligations.EventsAndWatchdog := by
  unfold Obligations.EventsAndWatchdog
  intro s
  refine ⟨fun e r hr ha he => ?_, fun i ha => ?_, fun e ha => ?_, fun id v ha => ?_, fun dt hrun hdt => ?_⟩
  · have hexec : exec .eventPending s = .next (evtLatch { s with raised := r } e) := by
      rw [exec_eventPending]
      unfold execEventPending
      rw [hr]
      exact okIf_of_true _ _ ha
    refine ⟨fun hclear => ⟨_, hexec, ?_⟩, fun hpend => ⟨_, hexec, ?_⟩⟩
    · rw [evtLatch_of_clear (s := { s with raised := r }) he hclear]
      obtain ⟨hlo, hhi⟩ := pendBit_fits e
      exact ⟨flag_raiseF _ _ hlo hhi, rfl, bitsBut_raiseF (bitsBut_refl _ s) _ (by simp) hlo hhi, rfl⟩
    · obtain ⟨hlost, honly⟩ := evtLatch_of_pending (s := { s with raised := r }) he hpend
      exact ⟨honly.keeps State.raised fun _ _ _ => rfl, hlost, honly.1,
        (congrArg (fun x : State => { x with raised := s.raised }) honly.2 :)⟩
  · intro cand ptr dist
    have hexec (peek : Bool) : exec (.eventClaim i peek) s =
        .next { (claimRead s i peek).1 with resp := ⟨0, (claimRead s i peek).2.setWidth 64⟩ } := by
      rw [exec_eventClaim]
      exact if_pos ha
    refine ⟨fun hnone peek => ?_, fun e he hptr hc hbest => ?_⟩
    · rw [hexec, claimRead_of_none peek (claimPick_of_none fun e he => by simpa using fun h => hnone e he (candidate_iff.mp h))]
      rfl
    · have hpick := claimPick_of_best he hptr (candidate_iff.mpr hc) fun e' he' hc' => hbest e' he' (candidate_iff.mp hc')
      obtain ⟨hpend, hlost, hcount, honly⟩ := claimClear_reads hc.1
      have htake : exec (.eventClaim i false) s = .next { claimClear s e with
          evtPtr := tset (fun _ => 287) s.evtPtr i e, resp := ⟨0, (BitVec.ofNat 32 (2 ^ 31 + e)).setWidth 64⟩ } :=
        (hexec false).trans (by rw [claimRead_take hpick])
      refine ⟨(hexec true).trans (by rw [claimRead_peek hpick]), _, htake, rfl, hpend, hlost, hcount,
        tget_tset_self _ _ _ _, fun j hj => tget_tset_ne _ _ _ _ _ hj, honly.1, ?_⟩
      exact (congrArg (fun x : State => { x with resp := s.resp, evtPtr := s.evtPtr }) honly.2 :)
  · have hexec : exec (.evtSwraise e) s = .next (swraise s (BitVec.ofNat 32 e.val)) := by
      rw [exec_evtSwraise]
      exact if_pos ha
    have he : (BitVec.ofNat 32 e.val).toNat % 512 = e.val := by
      have := e.isLt
      simp only [BitVec.toNat_ofNat]
      omega
    rw [hexec]
    unfold swraise
    dsimp only
    rw [he]
    rfl
  · intro load
    have hexec : exec (.wdtEnable id v) s = answerWrite (lockedWrite s 1 id.val fun t => wdtCtrlWrite t v) := by
      rw [exec_wdtEnable]
      exact if_pos ha
    have hkick : exec (.wdtKick v) s = .next (wdtKick s v) := by
      rw [exec_wdtKick]
      exact if_pos ha
    refine ⟨fun hst how => ?_, fun hshut => ?_, fun hen hv => ?_, fun hen hv => ?_, fun hen => ?_⟩
    · have hlock : OnlyBits [wholeReg Reg.WDT_LOCK] s (s.setReg Reg.WDT_LOCK 0) := onlyBits_setReg s _ _
      obtain ⟨hsticky, hon, hstart, hgoes, honly⟩ := wdtCtrlWrite_reads (s.setReg Reg.WDT_LOCK 0) v
      rw [flag_of_bitsBut hlock.1 (by decide)] at hsticky
      rw [flag_of_bitsBut hlock.1 (by decide), flag_of_bitsBut hlock.1 (by decide)] at hon
      rw [flag_of_bitsBut hlock.1 (by decide)] at hstart hgoes
      rw [wdtLoad_of_bitsBut hlock.1 (by decide) (by decide), wdtLoad_zero] at hstart
      rw [getF_of_bitsBut hlock.1 (by decide), getF_of_bitsBut hlock.1 (by decide)] at hgoes
      have hall := onlyBits_answer (onlyBits_trans (hlock.mono (by simp)) (honly.mono (gs := [wholeReg Reg.WDT_LOCK, Reg.WDT_CTRL_STICKY,
        Reg.WDT_CTRL_EN, Reg.WDT_STAT_STAGE, Reg.WDT_STAT_COUNT]) (by simp))) ⟨0, 0⟩
      refine ⟨_, hexec.trans (lockedWrite_of_open s 1 id.val _ ⟨hst, how⟩), rfl, ?_, hsticky, hon, hstart, hgoes, hall.1, hall.2⟩
      exact (reg_of_bitsBut honly.1 (by decide)).trans (reg_setReg_self s _ 0)
    · obtain ⟨hreg, hflag, hraised, hbits, hframe⟩ := lockFailed_lockFail s 1 ⟨1, 0⟩
      exact ⟨_, hexec.trans (lockedWrite_of_shut s 1 id.val _ (by tauto)), rfl, hflag, hraised, hreg, hbits, hframe⟩
    · obtain ⟨hstage, hcount, honly⟩ := wdtStage_reads s (stage := 0) (by decide) rfl (wdtLoad_lt s 0)
      rw [wdtLoad_zero] at hcount
      refine ⟨_, hkick.trans ?_, hstage, hcount, honly⟩
      unfold wdtKick
      rw [if_neg (by simp [hen]), if_pos hv]
    · have hbad : wdtKick s v = (s.raiseF Reg.WDT_STAT_BADKICK).raiseEv 209 := by
        unfold wdtKick
        rw [if_neg (by simp [hen]), if_neg hv]
      rw [hkick, hbad]
      exact ⟨_, rfl, flag_raiseF s _ (by decide) (by decide), onlyBitsEv_raiseF s _ 209 ((Field.fits_iff _).mpr rfl)⟩
    · rw [hkick]
      unfold wdtKick
      rw [if_pos (by simp [hen])]
  · have hphase := wdtRuns_phase s hrun
    have honly := aonOnly_aonPass s dt
    have hticks := ticks_aonPass s dt hphase
    have hcount : (aonPass s dt).getF Reg.WDT_STAT_COUNT = 0 := by
      rw [count_aonPass, if_pos hrun]
      omega
    have hstage := stage_aonPass s dt
    refine ⟨fun hst => ?_, fun hst => ?_⟩
    · rw [exec_wdtStage1Expiry_of_due hrun (hstage.trans hst) hcount]
      have hload : wdtLoad (aonPass s dt) 1 = wdtLoad s 1 := wdtLoad_of_bitsBut honly.1 (by decide) (by decide) 1
      obtain ⟨hone, hload2, hrest⟩ := wdtStage_reads (aonPass s dt) (stage := 1) (by decide) hload (wdtLoad_lt s 1)
      rw [wdtLoad_one] at hload2
      have hall := (honly.mono (gs := Reg.WDT_STAT_STAGE :: tickFields) (by simp +contextual)).trans
        (.of_onlyBits (hrest.mono (by decide)))
      have haon : (wdtStage (aonPass s dt) 1).aon = (aonPass s dt).aon := hrest.keeps State.aon fun _ _ _ => rfl
      rw [← haon] at hticks
      have hraised := (hrest.raiseEv 208 (wdtStage_evs _ 1)).2.1
      generalize wdtStage (aonPass s dt) 1 = u at hone hload2 hall hticks hraised ⊢
      refine ⟨_, rfl, ?_, ?_, hraised, ?_, bitsBut_of_regs hall.1 rfl, ?_⟩
      · rw [getF_raiseEv, hone]
      · rw [getF_raiseEv, hload2]
      · rw [raiseEv_aon, hticks]
      · exact (congrArg (fun x : State => { x with raised := s.raised }) hall.2 :)
    · exact ⟨aonPass s dt, exec_wdtStage2Expiry_of_due hrun (hstage.trans hst) hcount, hticks, honly.1, honly.2⟩

end Sys2Proof.Machine

/-!
SUPPORT. Fuse commands (15_protection.md R297 to R299, R317, 16_configuration.md R345): what a burn that starts, a command that is refused and a
burn that ends leave.
-/

namespace Sys2Proof.Machine

/-- A fuse bit outside VLT_LOCK is not touched by the end of a locked sequence. -/
theorem apart_vltLock {g : Field} (h : Reg.VLT_LOCK ≠ g.reg) : ∀ f ∈ [wholeReg Reg.VLT_LOCK], f.reg = g.reg → g.hi < f.lo ∨ f.hi < g.lo := by
  exact List.forall_mem_singleton.mpr fun e => absurd e h

/-- The lock is taken by the write that it guards. -/
def lockTaken (s : State) : State := s.setReg Reg.VLT_LOCK 0

section
variable (s : State)

theorem bitsBut_lockTaken : BitsBut [wholeReg Reg.VLT_LOCK] s (lockTaken s) := (onlyBits_setReg s _ _).1

theorem flag_lockTaken {g : Field} (h : Reg.VLT_LOCK ≠ g.reg) : (lockTaken s).flag g = s.flag g :=
  flag_of_bitsBut (bitsBut_lockTaken s) (apart_vltLock h)

theorem getF_lockTaken {g : Field} (h : Reg.VLT_LOCK ≠ g.reg) : (lockTaken s).getF g = s.getF g :=
  getF_of_bitsBut (bitsBut_lockTaken s) (apart_vltLock h)

/-- A burn has started under its lock: VLT_STAT shows it, and VLT_OKEYn have to be written anew (R298). -/
def BurnStarted (kind value : Nat) (t : State) : Prop :=
  t.flag Reg.VLT_STAT_FUSE_BUSY = true ∧ t.okeys = [] ∧ t.resp = ⟨0, 0⟩ ∧
    t.fuses = { s.fuses with burning := kind, latch := value } ∧ t.reg Reg.VLT_LOCK = 0 ∧
    BitsBut [Reg.VLT_STAT_FUSE_BUSY, wholeReg Reg.VLT_LOCK] s t ∧
    { t with regs := s.regs, cyc := s.cyc, okeys := s.okeys, resp := s.resp, fuses := s.fuses } = s

/-- A fuse command has failed under its lock (R298; log 138). -/
def FuseFailed (t : State) : Prop :=
  t.flag Reg.VLT_STAT_FUSE_FAIL = true ∧ t.raised = (s.raiseEv 200).raised ∧ t.reg Reg.VLT_LOCK = 0 ∧ t.resp = ⟨0, 0⟩ ∧
    t.okeys = [] ∧ BitsBut [Reg.VLT_STAT_FUSE_FAIL, wholeReg Reg.VLT_LOCK] s t ∧
    { t with regs := s.regs, cyc := s.cyc, raised := s.raised, resp := s.resp, okeys := s.okeys } = s

theorem burnStarted_startBurn (kind value : Nat) : BurnStarted s kind value { startBurn (lockTaken s) kind value with resp := ⟨0, 0⟩ } := by
  have hbits : BitsBut [Reg.VLT_STAT_FUSE_BUSY, wholeReg Reg.VLT_LOCK] s ((lockTaken s).raiseF Reg.VLT_STAT_FUSE_BUSY) :=
    bitsBut_raiseF (bitsBut_mono (bitsBut_lockTaken s) (by simp)) _ (by simp) (by decide) (by decide)
  refine ⟨?_, rfl, rfl, rfl, ?_, bitsBut_of_regs hbits rfl, rfl⟩
  · exact (flag_of_regs rfl _).trans (flag_raiseF (lockTaken s) Reg.VLT_STAT_FUSE_BUSY (by decide) (by decide))
  · exact (reg_setF_ne _ _ 1 _ (by decide)).trans (reg_setReg_self s _ 0)

theorem fuseFailed_fuseRefuse : FuseFailed s { fuseRefuse (lockTaken s) with resp := ⟨0, 0⟩ } := by
  have hbits : BitsBut [Reg.VLT_STAT_FUSE_FAIL, wholeReg Reg.VLT_LOCK] s ((lockTaken s).raiseF Reg.VLT_STAT_FUSE_FAIL) :=
    bitsBut_raiseF (bitsBut_mono (bitsBut_lockTaken s) (by simp)) _ (by simp) (by decide) (by decide)
  have hraised : (((lockTaken s).raiseF Reg.VLT_STAT_FUSE_FAIL).raiseEv 200).raised = (s.raiseEv 200).raised :=
    raiseEv_raised_congr _ rfl (by simp [lockTaken]) rfl rfl
  refine ⟨?_, hraised, ?_, rfl, rfl, bitsBut_of_regs hbits rfl, rfl⟩
  · exact (flag_of_regs rfl _).trans (flag_raiseF (lockTaken s) Reg.VLT_STAT_FUSE_FAIL (by decide) (by decide))
  · exact (reg_setF_ne _ _ 1 _ (by decide)).trans (reg_setReg_self s _ 0)

/-! ### The two commands -/

/-- The owner key may be burned (R298). -/
def okeyOpen (s : State) : Bool :=
  decide (s.getF Reg.VLT_STAT_OKEY_STATE = 0) && s.flag Reg.VLT_STAT_ROOT_OK && !s.flag Reg.VLT_STAT_FUSE_BUSY

theorem okeyLatched_lockTaken : okeyLatched (lockTaken s) = okeyLatched s := rfl

variable {s} {ko : Nat}

theorem fuseOwnerKey_of_open (hko : okeyLatched s = some ko) (h : okeyOpen s = true) :
    fuseOwnerKey (lockTaken s) = startBurn (lockTaken s) 1 (okeyFuses ko) := by
  simp only [okeyOpen, Bool.and_eq_true, decide_eq_true_eq, Bool.not_eq_true'] at h
  unfold fuseOwnerKey
  rw [okeyLatched_lockTaken, hko]
  dsimp only
  rw [getF_lockTaken s (by decide), flag_lockTaken s (by decide), flag_lockTaken s (by decide), if_pos (by simp [h])]

theorem fuseOwnerKey_of_shut (h : okeyLatched s = none ∨ okeyOpen s = false) : fuseOwnerKey (lockTaken s) = fuseRefuse (lockTaken s) := by
  unfold fuseOwnerKey
  rw [okeyLatched_lockTaken]
  cases hko : okeyLatched s with
  | none => rfl
  | some ko =>
    have hshut : okeyOpen s = false := h.resolve_left (by simp [hko])
    dsimp only
    rw [getF_lockTaken s (by decide), flag_lockTaken s (by decide), flag_lockTaken s (by decide), if_neg]
    simpa [okeyOpen, and_assoc] using hshut

/-- The floor may be raised to n (R345). -/
def floorOpen (s : State) (n : Nat) : Prop :=
  s.flag Reg.VLT_STAT_FUSE_BUSY = false ∧ floorOf s.fuses.floor < n ∧ n ≤ s.getF Reg.CFG_SEQ_HI_SEQ_HI / 2 ^ 24

theorem fuseFloor_of_none (h : tget (fun _ => none) s.okeys 0 = none) : fuseFloor (lockTaken s) = fuseRefuse (lockTaken s) := by
  have hsame : tget (fun _ => none) (lockTaken s).okeys 0 = none := h
  unfold fuseFloor
  rw [hsame]

variable {w : Word32} (hw : tget (fun _ => none) s.okeys 0 = some w)
include hw

theorem fuseFloor_of_open (h : floorOpen s (w.toNat % 256)) : fuseFloor (lockTaken s) = startBurn (lockTaken s) 2 (w.toNat % 256) := by
  obtain ⟨hbusy, hlow, hhigh⟩ := h
  have hsame : tget (fun _ => none) (lockTaken s).okeys 0 = some w := hw
  unfold fuseFloor
  rw [hsame]
  dsimp only
  rw [flag_lockTaken s (by decide), getF_lockTaken s (by decide), if_pos ⟨by simp [hbusy], hlow, hhigh⟩]

theorem fuseFloor_of_shut (h : ¬ floorOpen s (w.toNat % 256)) : fuseFloor (lockTaken s) = fuseRefuse (lockTaken s) := by
  have hsame : tget (fun _ => none) (lockTaken s).okeys 0 = some w := hw
  unfold fuseFloor
  rw [hsame]
  dsimp only
  rw [flag_lockTaken s (by decide), getF_lockTaken s (by decide), if_neg fun hall => h ⟨by simpa using hall.1, hall.2.1, hall.2.2⟩]

end

section
variable {s : State} {id : Fin 1024} (ha : s.alive = true)
include ha

section
variable (hopen : s.getF (lockState 0) = 2 ∧ s.getF (lockOwner 0) = id.val)
include hopen

theorem exec_fuseProgramOwnerKey_of_open : exec (.fuseProgramOwnerKey id) s = .next { fuseOwnerKey (lockTaken s) with resp := ⟨0, 0⟩ } := by
  rw [exec_fuseProgramOwnerKey]
  unfold execFuseProgramOwnerKey fuseWrite lockedWrite
  rw [if_pos ha, if_pos hopen]
  rfl

theorem exec_fuseProgramFloor_of_open : exec (.fuseProgramFloor id) s = .next { fuseFloor (lockTaken s) with resp := ⟨0, 0⟩ } := by
  rw [exec_fuseProgramFloor]
  unfold execFuseProgramFloor fuseWrite lockedWrite
  rw [if_pos ha, if_pos hopen]
  rfl

end

variable (hshut : ¬ (s.getF (lockState 0) = 2 ∧ s.getF (lockOwner 0) = id.val))
include hshut

theorem exec_fuseProgramOwnerKey_of_shut : exec (.fuseProgramOwnerKey id) s = .next { lockFail s 0 with resp := ⟨1, 0⟩ } := by
  rw [exec_fuseProgramOwnerKey]
  unfold execFuseProgramOwnerKey fuseWrite lockedWrite
  rw [if_pos ha, if_neg hshut]
  rfl

theorem exec_fuseProgramFloor_of_shut :
    exec (.fuseProgramFloor id) s = .next { ((lockFail s 0).raiseF Reg.VLT_STAT_FUSE_FAIL).raiseEv 200 with resp := ⟨1, 0⟩ } := by
  rw [exec_fuseProgramFloor]
  unfold execFuseProgramFloor fuseWrite lockedWrite
  rw [if_pos ha, if_neg hshut]
  rfl

end

/-- Without the lock a command at the floor fails beside the sequence that does (R345; log 138). -/
theorem floorTurnedAway_reads (s : State) :
    let t := { ((lockFail s 0).raiseF Reg.VLT_STAT_FUSE_FAIL).raiseEv 200 with resp := ⟨1, 0⟩ }
    t.reg Reg.VLT_LOCK = 0 ∧ t.flag Reg.VLT_STAT_LOCKERR = true ∧ t.flag Reg.VLT_STAT_FUSE_FAIL = true ∧
      t.raised = ((s.raiseEv 201).raiseEv 200).raised ∧ BitsBut [wholeReg Reg.VLT_LOCK, Reg.VLT_STAT_LOCKERR, Reg.VLT_STAT_FUSE_FAIL] s t ∧
      { t with regs := s.regs, cyc := s.cyc, raised := s.raised, resp := s.resp } = s := by
  have hfailed := lockFailed_lockFail s 0 ⟨1, 0⟩
  have hevs := lockFail_evs s 0
  generalize lockFail s 0 = u at hfailed hevs ⊢
  obtain ⟨hlock, herr, hraised, hbits, hframe⟩ := hfailed
  have hfail : BitsBut [Reg.VLT_STAT_FUSE_FAIL] u (u.raiseF Reg.VLT_STAT_FUSE_FAIL) :=
    bitsBut_raiseF (bitsBut_refl _ u) _ (by simp) (by decide) (by decide)
  have hclock : u.clockOn = s.clockOn := (congrArg State.clockOn hframe :)
  have hhalt : u.dbgHalt = s.dbgHalt := (congrArg State.dbgHalt hframe :)
  have hevs' : (u.raiseF Reg.VLT_STAT_FUSE_FAIL).cyc.evs = (s.raiseEv 201).cyc.evs := (raiseF_evs _ _).trans hevs
  intro t
  exact ⟨(reg_of_bitsBut hfail (by decide)).trans hlock, (flag_of_bitsBut hfail (by decide)).trans herr, flag_raiseF u _ (by decide) (by decide),
    raiseEv_raised_congr 200 hraised hevs' hclock hhalt,
    bitsBut_of_regs (bitsBut_trans (bitsBut_mono hbits (by simp [lockReg, lockErr])) (bitsBut_mono hfail (by simp))) rfl, hframe⟩

/-! ### A burn that ends -/

section
variable {s : State} (hp : s.phase ≠ .unpowered)
include hp

theorem exec_fuseBurnComplete_of_okey (hb : s.fuses.burning = 1) :
    let f := { s.fuses with burning := 0, latch := 0, okey := s.fuses.okey ||| s.fuses.latch }
    exec .fuseBurnComplete s = .next ((({ s with fuses := f }.setF Reg.VLT_STAT_OKEY_STATE (okeyStateOf f)).clearF
      Reg.VLT_STAT_FUSE_BUSY).raiseEv 200) := by
  rw [exec_fuseBurnComplete]
  unfold execFuseBurnComplete
  rw [if_neg (by simp [hb, hp])]
  simp only [hb, if_true]
  rfl

theorem exec_fuseBurnComplete_of_floor (hb : s.fuses.burning = 2) :
    let f := { s.fuses with burning := 0, latch := 0, floor := burnFloor s.fuses.floor s.fuses.latch }
    exec .fuseBurnComplete s = .next (({ s with fuses := f }.clearF Reg.VLT_STAT_FUSE_BUSY).raiseEv 200) := by
  rw [exec_fuseBurnComplete]
  unfold execFuseBurnComplete
  rw [if_neg (by simp [hb, hp])]
  simp only [hb, if_true]
  rfl

end

theorem okeyStateOf_congr {f g : Fuses} (hokey : f.okey = g.okey) (hcut : f.cut = g.cut) : okeyStateOf f = okeyStateOf g := by
  unfold okeyStateOf
  rw [hokey, hcut]

theorem okeyStateOf_lt (f : Fuses) : okeyStateOf f < 4 := by
  unfold okeyStateOf
  split_ifs <;> decide

/-- Settles O34: a fuse command by its lock and by what it needs, and the end of a burn by what was burned. -/
theorem fuseProgramming : Obligations.FuseProgramming := by
  unfold Obligations.FuseProgramming
  intro s
  refine ⟨fun id ha hst how => ?_, fun id ha hshut => ?_, fun hp => ⟨fun hb => ?_, fun hb => ?_⟩⟩
  · intro started failed
    have hkey := exec_fuseProgramOwnerKey_of_open ha ⟨hst, how⟩
    have hfloor := exec_fuseProgramFloor_of_open ha ⟨hst, how⟩
    refine ⟨fun ko hko h1 h2 h3 => ⟨_, hkey, ?_⟩, fun h => ⟨_, hkey, ?_⟩, fun w hw => ⟨fun h1 h2 h3 => ⟨_, hfloor, ?_⟩, fun h => ⟨_, hfloor, ?_⟩⟩,
      fun h => ⟨_, hfloor, ?_⟩⟩
    · rw [fuseOwnerKey_of_open hko (by simp [okeyOpen, h1, h2, h3])]
      exact burnStarted_startBurn s 1 _
    · rw [fuseOwnerKey_of_shut (h.imp_right fun h => by rcases h with h | h | h <;> simp [okeyOpen, h])]
      exact fuseFailed_fuseRefuse s
    · rw [fuseFloor_of_open hw ⟨h1, h2, h3⟩]
      exact burnStarted_startBurn s 2 _
    · rw [fuseFloor_of_shut hw fun ⟨h1, h2, h3⟩ => by rcases h with h | h | h <;> simp_all <;> omega]
      exact fuseFailed_fuseRefuse s
    · rw [fuseFloor_of_none h]
      exact fuseFailed_fuseRefuse s
  · intro turned
    have hshut' : ¬ (s.getF (lockState 0) = 2 ∧ s.getF (lockOwner 0) = id.val) := fun h => hshut.elim (· h.1) (· h.2)
    obtain ⟨hlock, herr, hraised, hbits, hframe⟩ := lockFailed_lockFail s 0 ⟨1, 0⟩
    obtain ⟨hlock2, herr2, hfail2, hraised2, hbits2, hframe2⟩ := floorTurnedAway_reads s
    exact ⟨⟨_, exec_fuseProgramOwnerKey_of_shut ha hshut', ⟨rfl, hlock, herr, hframe⟩, hraised, hbits⟩,
      ⟨_, exec_fuseProgramFloor_of_shut ha hshut', ⟨rfl, hlock2, herr2, hframe2⟩, hfail2, hraised2, hbits2⟩⟩
  · have hsep : Separate [Reg.VLT_STAT_FUSE_BUSY, Reg.VLT_STAT_OKEY_STATE] := .of_ok rfl
    rw [exec_fuseBurnComplete_of_okey hp hb]
    have hw (v : Nat) := ((Wrote.refl s).setF Reg.VLT_STAT_OKEY_STATE v).setF Reg.VLT_STAT_FUSE_BUSY 0
    exact ⟨_, rfl, rfl, rfl, rfl, (hw _).flag (b := false) hsep (.head _), rfl,
      ((hw _).getF hsep (.tail _ (.head _)) (okeyStateOf_lt _)).trans (okeyStateOf_congr rfl rfl), raiseEv_raised_congr _ rfl rfl rfl rfl,
      bitsBut_mono ((hw _).bitsBut hsep) (by simp), rfl⟩
  · rw [exec_fuseBurnComplete_of_floor hp hb]
    have hw := (Wrote.refl s).setF Reg.VLT_STAT_FUSE_BUSY 0
    have hsep : Separate [Reg.VLT_STAT_FUSE_BUSY] := .of_ok rfl
    exact ⟨_, rfl, rfl, rfl, testBit_burnFloor _ _, hw.flag (b := false) hsep (.head _), raiseEv_raised_congr _ rfl rfl rfl rfl,
      hw.bitsBut hsep, rfl⟩

end Sys2Proof.Machine

/-!
SUPPORT. The vault under its lock (15_protection.md R301, R316, R317): the words of a locked sequence, a key entry that is cleared, and
zeroisation.
-/

namespace Sys2Proof.Machine

/-! ### The words of a locked sequence -/

section
variable {s : State} {which id : Nat} {v : Word32}

theorem separate_lock (which : Nat) : Separate [lockOwner which, lockState which] := by
  match which with
  | 0 | 1 | _ + 2 => exact .of_ok rfl

theorem lockWrite_first (hst : s.getF (lockState which) = 0) (hv : v = 0x4C454447#32) :
    lockWrite s which id v = ((s.setF (lockState which) 1).setF (lockOwner which) id, true) := by
  unfold lockWrite
  dsimp only
  rw [if_neg (by tauto), if_pos ⟨hst, hv⟩]

theorem lockWrite_second (hid : id ≠ 0x204) (hst : s.getF (lockState which) = 1) (hv : v = 0x42414E4B#32)
    (how : s.getF (lockOwner which) = id) : lockWrite s which id v = (s.setF (lockState which) 2, true) := by
  unfold lockWrite
  dsimp only
  rw [if_neg (by tauto), if_neg (by omega), if_pos ⟨hst, hv, how⟩]

/-- Any other word fails the sequence, as any access of DBG_ACCESS to one in progress does (R317). -/
theorem lockWrite_other (h : (id = 0x204 ∧ s.getF (lockState which) ≠ 0) ∨ (¬ (s.getF (lockState which) = 0 ∧ v = 0x4C454447#32) ∧
    ¬ (s.getF (lockState which) = 1 ∧ v = 0x42414E4B#32 ∧ s.getF (lockOwner which) = id))) :
    lockWrite s which id v = (lockFail s which, false) := by
  unfold lockWrite
  dsimp only
  obtain h | ⟨h1, h2⟩ := h
  · rw [if_pos h]
  · rw [if_neg h1, if_neg h2, ite_self]

end

/-! ### A key entry that is cleared -/

section
variable (s : State) (e : Nat)

theorem keyInUse_lockTaken : keyInUse (lockTaken s) e = keyInUse s e := by
  have hwin (w : Nat) : (lockTaken s).flag (Reg.VLT_WCTL_EN w) = s.flag (Reg.VLT_WCTL_EN w) ∧
      (lockTaken s).getF (Reg.VLT_WCTL_MODE w) = s.getF (Reg.VLT_WCTL_MODE w) ∧
      (lockTaken s).getF (Reg.VLT_WCTL_KEY w) = s.getF (Reg.VLT_WCTL_KEY w) := by
    have hne : Reg.VLT_LOCK ≠ Reg.VLT_WCTL w := by simp only [Reg.VLT_LOCK, Reg.VLT_WCTL]; omega
    exact ⟨flag_lockTaken s hne, getF_lockTaken s hne, getF_lockTaken s hne⟩
  have hlane (n : Nat) : laneUsesKey (lockTaken s) n e = laneUsesKey s n e := by
    have hstate : Reg.VLT_LOCK ≠ (Reg.LN_BU_STAT_STATE n).reg := by
      simp only [Reg.VLT_LOCK, Reg.LN_BU_STAT_STATE, Reg.LN_BU_STAT]; omega
    have hmode : Reg.VLT_LOCK ≠ (Reg.LQ_MODE_MODE (n / 4)).reg := by
      simp only [Reg.VLT_LOCK, Reg.LQ_MODE_MODE, Reg.LQ_MODE]; omega
    unfold laneUsesKey
    rw [getF_lockTaken s hstate, getF_lockTaken s hmode]
    rfl
  unfold keyInUse
  simp only [hwin, hlane]
  rfl

theorem keyValBit_fits (h : e < 64) : (keyValBit e).Fits := by
  unfold keyValBit
  split
  · exact ⟨le_rfl, by omega⟩
  · exact ⟨le_rfl, by dsimp only; omega⟩

theorem keyHeld_of_flag {t : State} (h : t.flag (keyValBit e) = false) : keyHeld t e = false := by
  simp [keyHeld, h]

theorem cwAt_cwPut_self (t : Tab CodeWord) (k : Nat) (w : CodeWord) : cwAt (cwPut t k w) k = w := tget_tset_self _ t k w

theorem cwAt_cwPut_ne (t : Tab CodeWord) {k x : Nat} (w : CodeWord) (h : x ≠ k) : cwAt (cwPut t k w) x = cwAt t x := tget_tset_ne _ t k x w h

/-- The words of an entry that is emptied. -/
theorem cwAt_emptied (t : Tab CodeWord) (x : Nat) :
    cwAt ((List.range 4).foldl (fun t i => cwPut t (4 * e + i) 0) t) x = if x / 4 = e then 0 else cwAt t x := by
  have hput (n : Nat) : cwAt ((List.range n).foldl (fun t i => cwPut t (4 * e + i) 0) t) x =
      if 4 * e ≤ x ∧ x < 4 * e + n then 0 else cwAt t x := by
    induction n with
    | zero => exact (if_neg (by omega)).symm
    | succ n ih =>
      rw [List.range_succ, List.foldl_concat]
      by_cases hx : x = 4 * e + n
      · rw [hx, cwAt_cwPut_self, if_pos (by omega)]
      · rw [cwAt_cwPut_ne _ _ hx, ih]
        exact if_congr (by omega) rfl rfl
  rw [hput 4]
  exact if_congr (by omega) rfl rfl

end

/-! ### Zeroisation -/

section
variable (s : State)

/-- The protected windows disabled (R316). -/
def windowsClosed (ws : List Nat) : State :=
  ws.foldl (fun acc w => ((acc.clearF (Reg.VLT_WCTL_EN w)).clearF (Reg.VLT_WCTL_INIT w)).setReg (Reg.VLT_WINFO w) 0) s

/-- The lanes that a zeroisation returns to TRAIN. -/
def keyedLanes : List Nat :=
  (tkeys id s.tk).filter fun n => laneKeyed s n && 2 < s.getF (Reg.LN_BU_STAT_STATE n) && s.getF (Reg.LN_BU_STAT_STATE n) != 7

/-- The device without keys, before its initialisation shows. -/
def wiped : State := (keyedLanes s).foldl (fun acc n => tkLeave acc n 2) (wipeKeys (windowsClosed s (protectedWindows s)))

theorem zeroise_eq : zeroise s = State.raiseEv { (wiped s).raiseF Reg.VLT_STAT_INIT_BUSY with zeroing := protectedWindows s } 198 := rfl

theorem regsOnly_windowsClosed (ws : List Nat) : RegsOnly s (windowsClosed s ws) :=
  (RegsOnly.refl s).foldl (fun u w => (((RegsOnly.refl u).setF (Reg.VLT_WCTL_EN w) 0).setF (Reg.VLT_WCTL_INIT w) 0).setReg (Reg.VLT_WINFO w) 0) ws

theorem lanesOnly_tkLeave (n st : Nat) : LanesOnly s (tkLeave s n st) := lanesOnly_iff.mpr rfl

theorem tkLeave_evs (n st : Nat) : (tkLeave s n st).cyc.evs = s.cyc.evs := rfl

theorem reg_tkLeave_keyval (n : Nat) {o : Nat} (ho : o = Reg.VLT_KEYVAL0 ∨ o = Reg.VLT_KEYVAL1) : (tkLeave s n 2).reg o = s.reg o := by
  have hstate : o ≠ (Reg.LN_BU_STAT_STATE n).reg := by
    simp only [Reg.LN_BU_STAT_STATE, Reg.LN_BU_STAT, Reg.VLT_KEYVAL0, Reg.VLT_KEYVAL1] at ho ⊢; omega
  have hlocked : o ≠ (Reg.LN_TK_STAT_LOCKED n).reg := by
    simp only [Reg.LN_TK_STAT_LOCKED, Reg.LN_TK_STAT, Reg.VLT_KEYVAL0, Reg.VLT_KEYVAL1] at ho ⊢; omega
  have hregs : (tkLeave s n 2).regs = ((s.setF (Reg.LN_TK_STAT_LOCKED n) 0).setF (Reg.LN_BU_STAT_STATE n) 2).regs := rfl
  rw [reg_of_regs hregs, reg_setF_ne _ _ _ _ hstate, reg_setF_ne _ _ _ _ hlocked]

theorem lanesOnly_leaves (l : List Nat) (u : State) : LanesOnly u (l.foldl (fun acc n => tkLeave acc n 2) u) := by
  induction l generalizing u with
  | nil => rfl
  | cons n l ih => exact (lanesOnly_tkLeave u n 2).trans (ih _)

/-- No key is left, and nothing else of these goes. -/
theorem wiped_reads :
    (wiped s).keyw = [] ∧ (wiped s).winKey = [] ∧ (wiped s).nodes = [] ∧ (wiped s).rootw = [] ∧ (wiped s).okeys = [] ∧
      (wiped s).raised = s.raised ∧ (wiped s).cyc.evs = s.cyc.evs ∧ (wiped s).clockOn = s.clockOn ∧ (wiped s).dbgHalt = s.dbgHalt ∧
      (wiped s).phase = s.phase ∧ (wiped s).fuses = s.fuses ∧ (wiped s).mem = s.mem ∧ (wiped s).reg Reg.VLT_KEYVAL0 = 0 ∧
      (wiped s).reg Reg.VLT_KEYVAL1 = 0 := by
  have hclosed := (regsOnly_windowsClosed s (protectedWindows s)).eq
  have hlanes := (lanesOnly_leaves (keyedLanes s) (wipeKeys (windowsClosed s (protectedWindows s)))).eq
  have hevs := foldl_keeps (fun u => u.cyc.evs) (fun u n => tkLeave_evs u n 2) (keyedLanes s) (wipeKeys (windowsClosed s (protectedWindows s)))
  have hlow := foldl_keeps (fun u => u.reg Reg.VLT_KEYVAL0) (fun u n => reg_tkLeave_keyval u n (.inl rfl)) (keyedLanes s)
    (wipeKeys (windowsClosed s (protectedWindows s)))
  have hhigh := foldl_keeps (fun u => u.reg Reg.VLT_KEYVAL1) (fun u n => reg_tkLeave_keyval u n (.inr rfl)) (keyedLanes s)
    (wipeKeys (windowsClosed s (protectedWindows s)))
  unfold wiped
  generalize (keyedLanes s).foldl (fun acc n => tkLeave acc n 2) (wipeKeys (windowsClosed s (protectedWindows s))) = t at hlanes hevs hlow hhigh ⊢
  generalize windowsClosed s (protectedWindows s) = u at hclosed hlanes hevs hlow hhigh
  have hzero : (wipeKeys u).reg Reg.VLT_KEYVAL0 = 0 := (reg_setReg_ne (u.setReg Reg.VLT_KEYVAL0 0) _ _ 0 (by decide)).trans (reg_setReg_self u _ 0)
  have hone : (wipeKeys u).reg Reg.VLT_KEYVAL1 = 0 := reg_setReg_self (u.setReg Reg.VLT_KEYVAL0 0) _ 0
  have hcyc : (wipeKeys u).cyc.evs = s.cyc.evs := (congrArg (fun x : State => x.cyc.evs) hclosed :)
  refine ⟨?_, ?_, ?_, ?_, ?_, ?_, hevs.trans hcyc, ?_, ?_, ?_, ?_, ?_, hlow.trans hzero, hhigh.trans hone⟩ <;> rw [hlanes]
  iterate 5 rfl
  all_goals
    rw [hclosed]
    rfl

theorem keyHeld_of_keyval {t : State} (h0 : t.reg Reg.VLT_KEYVAL0 = 0) (h1 : t.reg Reg.VLT_KEYVAL1 = 0) (e : Nat) : keyHeld t e = false := by
  refine keyHeld_of_flag e ?_
  unfold keyValBit State.flag State.getF
  split
  · simp [h0]
  · simp [h1]

end

section
variable (s : State) {e : Nat}

/-- A key entry that is in use stays, and KEYBUSY says so (R301). -/
theorem keyClear_of_used (he : e ≠ 0) (h : keyInUse s e = true) : keyClear (lockTaken s) e = (lockTaken s).raiseF Reg.VLT_STAT_KEYBUSY := by
  unfold keyClear
  rw [if_neg he, keyInUse_lockTaken, if_pos h]

theorem keyClear_of_free (he : e ≠ 0) (h : keyInUse s e = false) : keyClear (lockTaken s) e = emptyKey (lockTaken s) e := by
  unfold keyClear
  rw [if_neg he, keyInUse_lockTaken, if_neg (by simp [h])]

theorem protectedWindows_lockTaken : protectedWindows (lockTaken s) = protectedWindows s := by
  have hwin (w : Nat) : (lockTaken s).flag (Reg.VLT_WCTL_EN w) = s.flag (Reg.VLT_WCTL_EN w) ∧
      (lockTaken s).getF (Reg.VLT_WCTL_MODE w) = s.getF (Reg.VLT_WCTL_MODE w) := by
    have hne : Reg.VLT_LOCK ≠ Reg.VLT_WCTL w := by simp only [Reg.VLT_LOCK, Reg.VLT_WCTL]; omega
    exact ⟨flag_lockTaken s hne, getF_lockTaken s hne⟩
  unfold protectedWindows
  simp only [hwin]

end

section
variable {s : State} {id : Fin 1024} {v : Word32} (ha : s.alive = true)
include ha

theorem exec_keyClear_of_alive :
    exec (.keyClear id v) s = answerWrite (lockedWrite s 0 id.val fun t => keyClear t (nbits v.toNat 5 0)) := by
  rw [exec_keyClear]
  exact if_pos ha

theorem exec_zeroise_of_alive :
    exec (.zeroise id v) s = answerWrite (lockedWrite s 0 id.val fun t => if v.getLsbD 0 then zeroise t else t) := by
  rw [exec_zeroise]
  exact if_pos ha

end

/-- Settles O35: the words of a locked sequence by the state of the lock, and the writes that it guards. -/
theorem lockedCommands : Obligations.LockedCommands := by
  unfold Obligations.LockedCommands
  intro s ha
  refine ⟨fun which id v => ?_, fun id v => ?_, fun hbusy => ?_⟩
  · intro st owner bad failed
    have hexec : exec (.lockWrite which id v) s = answerWrite (lockWrite s which.val id.val v) := by
      rw [exec_lockWrite]
      exact if_pos ha
    have hfail (h : (id.val = 0x204 ∧ st ≠ 0) ∨ (¬ (st = 0 ∧ v = 0x4C454447#32) ∧ ¬ (st = 1 ∧ v = 0x42414E4B#32 ∧ owner = id.val))) :
        exec (.lockWrite which id v) s = .next { lockFail s which.val with resp := ⟨1, 0⟩ } := by
      rw [hexec, lockWrite_other h]
      rfl
    have hfailed (r : Response) : failed { lockFail s which.val with resp := r } := by
      fin_cases which <;> exact lockFailed_lockFail s _ r
    have hsep := separate_lock which.val
    have hid : id.val < 2 ^ 10 := id.isLt
    have hstate : ∀ x < 4, x < 2 ^ ((lockState which.val).hi + 1 - (lockState which.val).lo) := fun _ hx => hx
    refine ⟨fun hst hv => ?_, fun hne hst hv how => ?_, fun h => ⟨_, hfail (.inr ?_), rfl, hfailed _⟩,
      fun h hst => ⟨_, hfail (.inl ⟨h, hst⟩), rfl, hfailed _⟩, fun hst => ⟨lockFail s which.val, ?_, ?_, hfailed (lockFail s which.val).resp⟩⟩
    · have hw := ((Wrote.refl s).setF (lockState which.val) 1).setF (lockOwner which.val) id.val
      rw [hexec, lockWrite_first hst hv]
      exact ⟨_, rfl, hw.getF hsep (.tail _ (.head _)) (hstate 1 (by decide)), hw.getF hsep (.head _) hid, rfl, bitsBut_mono (hw.bitsBut hsep) (by simp), rfl⟩
    · have hw := (Wrote.refl s).setF (lockState which.val) 2
      rw [hexec, lockWrite_second hne hst hv how]
      exact ⟨_, rfl, hw.getF hsep.tail (.head _) (hstate 2 (by decide)), rfl, hw.bitsBut hsep.tail, rfl⟩
    · obtain ⟨h0, hv⟩ | ⟨h1, hv⟩ | h2 := h
      · exact ⟨fun h => hv h.2, fun h => by omega⟩
      · exact ⟨fun h => by omega, fun h => hv.elim (· h.2.1) (· h.2.2)⟩
      · exact ⟨fun h => by omega, fun h => by omega⟩
    · rw [exec_lockWindowExpiry]
      exact okIf_of_true _ _ (by simp [ha, show s.getF (lockState which.val) ≠ 0 from hst])
    · rw [lockFail_eq]
      rfl
  · intro e locked turnedAway onlyLock
    have hshut (f : State → State) (h : ¬ locked) : ∃ t, answerWrite (lockedWrite s 0 id.val f) = .next t ∧ turnedAway t := by
      obtain ⟨hreg, hflag, hraised, hbits, hframe⟩ := lockFailed_lockFail s 0 ⟨1, 0⟩
      exact ⟨_, lockedWrite_of_shut s 0 id.val f h, rfl, hflag, hraised, hbits, hframe⟩
    have hopen (f : State → State) (h : locked) : answerWrite (lockedWrite s 0 id.val f) = .next { f (lockTaken s) with resp := ⟨0, 0⟩ } :=
      lockedWrite_of_open s 0 id.val f h
    have honly : onlyLock { lockTaken s with resp := ⟨0, 0⟩ } := ⟨rfl, bitsBut_lockTaken s, rfl⟩
    rw [exec_keyClear_of_alive ha, exec_zeroise_of_alive ha]
    refine ⟨hshut _, hshut _, fun h he => ⟨_, (hopen _ h).trans ?_, honly⟩, fun h hv => ⟨_, (hopen _ h).trans ?_, honly⟩, fun h => ⟨fun he hu => ?_,
        fun he hu => ?_, fun hv => ?_⟩⟩
    · rw [show nbits v.toNat 5 0 = 0 from he]
      rfl
    · rw [hv]
      rfl
    · rw [hopen _ h, keyClear_of_used s he hu]
      refine ⟨_, rfl, flag_raiseF (lockTaken s) _ (by decide) (by decide), rfl, ?_, rfl⟩
      exact bitsBut_raiseF (bitsBut_mono (bitsBut_lockTaken s) (by simp)) _ (by simp) (by decide) (by decide)
    · have hfit := keyValBit_fits e (Nat.mod_lt _ (by decide))
      rw [hopen _ h, keyClear_of_free s he hu]
      refine ⟨_, rfl, keyHeld_of_flag e (flag_clearF (lockTaken s) _ hfit.1 hfit.2), fun i hi => ?_, fun k hk => ?_, rfl, ?_, rfl⟩
      · exact (cwAt_emptied e s.keyw (4 * e + i)).trans (if_pos (by omega))
      · exact (cwAt_emptied e s.keyw k).trans (if_neg hk)
      · exact bitsBut_clearF (bitsBut_mono (bitsBut_lockTaken s) (by simp)) _ (by simp) hfit.1 hfit.2
    · rw [hopen _ h, if_pos hv, zeroise_eq, protectedWindows_lockTaken]
      obtain ⟨hkeyw, hwin, hnodes, hroot, hokeys, hraised, hevs, hclock, hhalt, hphase, hfuses, hmem, hlow, hhigh⟩ := wiped_reads (lockTaken s)
      generalize wiped (lockTaken s) = u at hkeyw hwin hnodes hroot hokeys hraised hevs hclock hhalt hphase hfuses hmem hlow hhigh ⊢
      have hbusy : BitsBut [Reg.VLT_STAT_INIT_BUSY] u (u.raiseF Reg.VLT_STAT_INIT_BUSY) :=
        bitsBut_raiseF (bitsBut_refl _ u) _ (by simp) (by decide) (by decide)
      refine ⟨_, rfl, hkeyw, hwin, hnodes, hroot, hokeys, rfl, flag_raiseF u _ (by decide) (by decide),
        raiseEv_raised_congr 198 hraised ((raiseF_evs u _).trans hevs) hclock hhalt, hphase, hfuses, hmem, fun e => ?_⟩
      exact keyHeld_of_keyval ((reg_of_bitsBut hbusy (by decide)).trans hlow) ((reg_of_bitsBut hbusy (by decide)).trans hhigh) e
  · exact ⟨_, okIf_of_true _ _ (by simp [ha, hbusy]), rfl, flag_putF { s with zeroing := [] } _ _ (by decide) (by decide),
      bitsBut_putF (bitsBut_refl _ s) _ _ (by simp) (by decide) (by decide), rfl⟩

end Sys2Proof.Machine

/-!
SUPPORT. Memory windows and random numbers (15_protection.md R303 to R305, R310): a window that is enabled, disabled or initialised, and what
writing lines leaves alone.
-/

namespace Sys2Proof.Machine

/-! ### Writing memory lines -/

/-- Nothing but the words of the memory dies differs. -/
def MemOnly (s t : State) : Prop := { t with mem := s.mem } = s

section
variable {s t u : State}

theorem memOnly_iff : MemOnly s t ↔ { t with mem := s.mem } = s := Iff.rfl

theorem MemOnly.refl (s : State) : MemOnly s s := rfl

theorem MemOnly.eq (h : MemOnly s t) : t = { s with mem := t.mem } :=
  (congrArg (fun x : State => { x with mem := t.mem }) (memOnly_iff.mp h) :)

theorem MemOnly.keeps {α : Type} (h : MemOnly s t) (f : State → α) (hf : ∀ u m, f { u with mem := m } = f u) : f t = f s := by
  rw [h.eq]
  exact hf s t.mem

theorem MemOnly.trans (h : MemOnly s t) (h2 : MemOnly t u) : MemOnly s u := by
  rw [h2.eq, h.eq]
  rfl

theorem MemOnly.foldl {α : Type} (h : MemOnly s t) {g : State → α → State} (hg : ∀ u x, MemOnly u (g u x)) (l : List α) :
    MemOnly s (l.foldl g t) := by
  induction l generalizing t with
  | nil => exact h
  | cons x l ih => exact ih (h.trans (hg t x))

theorem memOnly_setMemWord (s : State) (k : Nat) (w : BitVec 88) : MemOnly s (setMemWord s k w) := memOnly_iff.mpr rfl

theorem memOnly_putLine (s : State) (a data tag : Nat) : MemOnly s (putLine s a data tag) := by
  unfold putLine
  exact (MemOnly.refl s).foldl (fun u i => memOnly_setMemWord u _ _) _

theorem memOnly_writeBackNode (s : State) (a : Nat) : MemOnly s (writeBackNode s a) := memOnly_putLine s _ _ _

theorem memOnly_initLines (s : State) (w : Nat) : MemOnly s (initLines s w) := by
  unfold initLines
  refine (MemOnly.refl s).foldl (fun u i => ?_) _
  dsimp only
  split <;> exact memOnly_putLine u _ _ _

theorem initTree_frame (s : State) (w : Nat) : { initTree s w with mem := s.mem, rootw := s.rootw } = s := by
  have htree : MemOnly s ((levelsOf (winSize s w)).zipIdx.foldl (fun acc nk => (List.range nk.1).foldl (fun acc2 j =>
      putLine acc2 (nodeAddr s w nk.2 j) (2 ^ 448 * nodeTag (tget (fun _ => []) s.winKey w) nk.2 j 0 0) 0) acc) s) :=
    (MemOnly.refl s).foldl (fun u nk => (MemOnly.refl u).foldl (fun v j => memOnly_putLine v _ _ _) _) _
  unfold initTree setRoot
  exact (congrArg (fun x : State => { x with rootw := s.rootw }) (memOnly_iff.mp htree) :)

/-- A table in which the entries of some keys have been emptied. -/
theorem tget_tmap_emptied {α : Type} [DecidableEq α] {d : Nat → α} (t : Tab α) {p : Nat → Bool} {k : Nat} (h : p k = true) :
    tget d (tmap d (fun a x => if p a then d a else x) t) k = d k := by
  unfold tmap
  induction t with
  | nil => rfl
  | cons kv t ih =>
    obtain ⟨a, x⟩ := kv
    rw [List.map_cons, List.filter_cons]
    split
    case isTrue hne =>
      have hak : a ≠ k := fun e => by subst e; simp [h] at hne
      exact (if_neg hak).trans ih
    case isFalse => exact ih

end

/-! ### Windows -/

section
variable {s : State} {w : Nat} {v : Word32}

theorem wctlWrite_again (hv : v.getLsbD 31 = true) (hon : s.flag (Reg.VLT_WCTL_EN w) = true) : wctlWrite s w v = s := by
  unfold wctlWrite
  dsimp only
  rw [if_pos hv, if_pos hon]

theorem wctlWrite_bad (hv : v.getLsbD 31 = true) (hoff : s.flag (Reg.VLT_WCTL_EN w) = false) (hw : windowAllowed s w v.toNat = false) :
    wctlWrite s w v = (s.raiseF Reg.VLT_STAT_BADWIN).raiseEv 198 := by
  unfold wctlWrite
  dsimp only
  rw [if_pos hv, if_neg (by simp [hoff]), if_neg (by simp [hw])]

theorem wctlWrite_on (hv : v.getLsbD 31 = true) (hoff : s.flag (Reg.VLT_WCTL_EN w) = false) (hw : windowAllowed s w v.toNat = true) :
    wctlWrite s w v = windowOn s w v.toNat := by
  unfold wctlWrite
  dsimp only
  rw [if_pos hv, if_neg (by simp [hoff]), if_pos hw]

theorem wctlWrite_off (hv : v.getLsbD 31 = false) (hon : s.flag (Reg.VLT_WCTL_EN w) = true) : wctlWrite s w v = windowOff s w v.toNat := by
  unfold wctlWrite
  dsimp only
  rw [if_neg (by rw [hv]; decide), if_pos hon]

/-- What an accepted enable stores of its word and its key (R304). -/
def windowBound (s : State) (w : Nat) (v : Word32) (kb : List Nat) (info : Nat) : State :=
  { (s.setReg (Reg.VLT_WCTL w) (v &&& 0xB03F003F#32)).setReg (Reg.VLT_WINFO w) (BitVec.ofNat 32 info) with
    winKey := tset (fun _ => []) s.winKey w kb }

/-- What WINFO reports of the tree of a window that is enabled. -/
def windowInfo (v : Nat) : Nat :=
  if nbits v 29 28 = 2 then (levelsOf (nbits v 5 0)).length * 2 ^ 28 + treeLines (nbits v 5 0) else 0

theorem ofNat_mod_toNat (v : Word32) : BitVec.ofNat 32 (v.toNat % 2 ^ 32) = v := by
  rw [Nat.mod_eq_of_lt v.isLt, BitVec.ofNat_toNat, BitVec.setWidth_eq]

theorem windowOn_of_clear (hmode : nbits v.toNat 29 28 = 0) (hkey : (readKey s (nbits v.toNat 21 16)).1 = s) :
    windowOn s w v.toNat = windowBound s w v [] 0 := by
  unfold windowOn
  dsimp only
  rw [hkey, hmode, ofNat_mod_toNat]
  rfl

theorem windowOn_of_key {kb : List Nat} (hmode : nbits v.toNat 29 28 ≠ 0) (hkey : readKey s (nbits v.toNat 21 16) = (s, some kb)) :
    windowOn s w v.toNat =
      ((windowBound s w v kb (windowInfo v.toNat)).raiseF (Reg.VLT_WCTL_INIT w)).raiseF Reg.VLT_STAT_INIT_BUSY := by
  unfold windowOn
  dsimp only
  rw [hkey, if_neg hmode, if_neg hmode, ofNat_mod_toNat]
  rfl

theorem wctl_ne_winfo (w : Nat) : Reg.VLT_WCTL w ≠ Reg.VLT_WINFO w := by
  simp only [Reg.VLT_WCTL, Reg.VLT_WINFO]
  omega

theorem windowBound_reads (s : State) (w : Nat) (v : Word32) (kb : List Nat) (info : Nat) :
    (windowBound s w v kb info).reg (Reg.VLT_WCTL w) = v &&& 0xB03F003F#32 ∧
      (windowBound s w v kb info).reg (Reg.VLT_WINFO w) = BitVec.ofNat 32 info ∧
      tget (fun _ => []) (windowBound s w v kb info).winKey w = kb ∧
      BitsBut [wholeReg (Reg.VLT_WCTL w), wholeReg (Reg.VLT_WINFO w)] s (windowBound s w v kb info) ∧
      { windowBound s w v kb info with regs := s.regs, cyc := s.cyc, winKey := s.winKey } = s := by
  refine ⟨?_, reg_setReg_self (s.setReg _ _) _ _, tget_tset_self _ _ _ _, ?_, rfl⟩
  · exact (reg_setReg_ne (s.setReg _ _) _ _ _ (wctl_ne_winfo w)).trans (reg_setReg_self s _ _)
  · exact bitsBut_of_regs (bitsBut_setReg (bitsBut_setReg (bitsBut_refl _ s) (Reg.VLT_WCTL w) _ (by simp)) (Reg.VLT_WINFO w) _ (by simp)) rfl

theorem wctl_ne_stat (w : Nat) : Reg.VLT_WCTL w ≠ Reg.VLT_STAT := by
  simp only [Reg.VLT_WCTL, Reg.VLT_STAT]
  omega

theorem winfo_ne_stat (w : Nat) : Reg.VLT_WINFO w ≠ Reg.VLT_STAT := by
  simp only [Reg.VLT_WINFO, Reg.VLT_STAT]
  omega

/-- The tree area of a window as it stands. -/
def inTreeOf (s : State) (w a : Nat) : Bool :=
  s.getF (Reg.VLT_WCTL_MODE w) == 2 && decide (s.getF (Reg.VLT_WTREE_TBASE w) * 4096 ≤ a) &&
    decide (a < s.getF (Reg.VLT_WTREE_TBASE w) * 4096 + 64 * treeLines (winSize s w))

/-- The cached nodes of a window written back (R310). -/
def nodesBack (s : State) (w : Nat) : State := ((tkeys id s.nodes).filter (inTreeOf s w)).foldl writeBackNode s

/-- A window that is disabled, before INIT_BUSY follows. -/
def windowDropped (s : State) (w : Nat) (v : Word32) : State :=
  { ((nodesBack s w).setReg (Reg.VLT_WCTL w) (v &&& 0x303F003F#32)).setReg (Reg.VLT_WINFO w) 0 with
    winKey := tset (fun _ => []) (nodesBack s w).winKey w []
    nodes := tmap (fun _ => 0) (fun a x => if inTreeOf s w a then 0 else x) (nodesBack s w).nodes }

/-- INIT_BUSY follows what is still being initialised or zeroised. -/
def busyFollows (s : State) : State := s.putF Reg.VLT_STAT_INIT_BUSY (anyInit s || !s.zeroing.isEmpty)

theorem windowOff_eq : windowOff s w v.toNat = busyFollows (windowDropped s w v) := by
  unfold windowOff
  dsimp only
  rw [ofNat_mod_toNat]
  rfl

theorem anyInit_of_bitsBut {t : State} (h : BitsBut [Reg.VLT_STAT_INIT_BUSY] s t) : anyInit t = anyInit s := by
  have hflag (w : Nat) : t.flag (Reg.VLT_WCTL_INIT w) = s.flag (Reg.VLT_WCTL_INIT w) :=
    flag_of_bitsBut h (List.forall_mem_singleton.mpr fun e => absurd e.symm (wctl_ne_stat w))
  unfold anyInit
  simp only [hflag]

theorem anyInit_raiseEv (s : State) (e : Nat) : anyInit (s.raiseEv e) = anyInit s := by
  unfold anyInit
  simp only [flag_raiseEv]

theorem bitsBut_busyFollows (s : State) : BitsBut [Reg.VLT_STAT_INIT_BUSY] s (busyFollows s) :=
  bitsBut_putF (bitsBut_refl _ s) _ _ (by simp) (by decide) (by decide)

theorem flag_busyFollows (s : State) :
    (busyFollows s).flag Reg.VLT_STAT_INIT_BUSY = (anyInit (busyFollows s) || !(busyFollows s).zeroing.isEmpty) := by
  rw [anyInit_of_bitsBut (bitsBut_busyFollows s)]
  exact flag_putF s _ _ (by decide) (by decide)

theorem memOnly_nodesBack (s : State) (w : Nat) : MemOnly s (nodesBack s w) := (MemOnly.refl s).foldl memOnly_writeBackNode _

theorem windowDropped_reads (s : State) (w : Nat) (v : Word32) :
    (windowDropped s w v).reg (Reg.VLT_WCTL w) = v &&& 0x303F003F#32 ∧ (windowDropped s w v).reg (Reg.VLT_WINFO w) = 0 ∧
      tget (fun _ => []) (windowDropped s w v).winKey w = [] ∧ (windowDropped s w v).mem = (nodesBack s w).mem ∧
      (∀ a, inTreeOf s w a = true → tget (fun _ => 0) (windowDropped s w v).nodes a = 0) ∧
      BitsBut [wholeReg (Reg.VLT_WCTL w), wholeReg (Reg.VLT_WINFO w)] s (windowDropped s w v) ∧
      { windowDropped s w v with regs := s.regs, cyc := s.cyc, winKey := s.winKey, nodes := s.nodes, mem := s.mem } = s := by
  have hmem := (memOnly_nodesBack s w).eq
  unfold windowDropped
  generalize nodesBack s w = u at hmem ⊢
  have hregs : u.regs = s.regs := (congrArg State.regs hmem :)
  have hbits : BitsBut [wholeReg (Reg.VLT_WCTL w), wholeReg (Reg.VLT_WINFO w)] s u := bitsBut_of_regs (bitsBut_refl _ s) hregs
  refine ⟨?_, reg_setReg_self (u.setReg _ _) _ 0, tget_tset_self _ _ _ _, rfl, fun a ha => tget_tmap_emptied _ ha, ?_, ?_⟩
  · exact (reg_setReg_ne (u.setReg _ _) _ _ 0 (wctl_ne_winfo w)).trans (reg_setReg_self u _ _)
  · exact bitsBut_of_regs (bitsBut_setReg (bitsBut_setReg hbits (Reg.VLT_WCTL w) _ (by simp)) (Reg.VLT_WINFO w) 0 (by simp)) rfl
  · rw [hmem]
    rfl

/-! ### Initialisation -/

/-- A window whose lines, and whose tree for ENC+INT, have been written (R305). -/
def windowFilled (s : State) (w : Nat) : State :=
  if s.getF (Reg.VLT_WCTL_MODE w) = 2 then initTree (initLines s w) w else initLines s w

theorem windowFilled_frame (s : State) (w : Nat) : { windowFilled s w with mem := s.mem, rootw := s.rootw } = s := by
  have hlines := memOnly_initLines s w
  unfold windowFilled
  split
  · have htree := initTree_frame (initLines s w) w
    generalize initLines s w = u at hlines htree ⊢
    generalize initTree u w = t at htree ⊢
    exact (congrArg (fun x : State => { x with mem := s.mem, rootw := s.rootw }) htree).trans (by rw [hlines.eq])
  · exact (congrArg (fun x : State => { x with rootw := s.rootw }) (memOnly_iff.mp hlines) :)

theorem exec_windowInitComplete_of_init {s : State} {w : Fin 16} (ha : s.alive = true) (hi : s.flag (Reg.VLT_WCTL_INIT w) = true) :
    exec (.windowInitComplete w) s = .next ((busyFollows ((windowFilled s w).clearF (Reg.VLT_WCTL_INIT w))).raiseEv 198) := by
  rw [exec_windowInitComplete]
  unfold execWindowInitComplete
  rw [if_pos (by simp [ha, hi])]
  rfl

end

theorem separate_init (w : Nat) : Separate [Reg.VLT_STAT_INIT_BUSY, Reg.VLT_WCTL_INIT w] := by
  refine ⟨by simp [Field.Fits, Reg.VLT_STAT_INIT_BUSY, Reg.VLT_WCTL_INIT], ?_⟩
  simpa [Field.Apart] using fun e => absurd e.symm (wctl_ne_stat w)

/-- A window of mode ENC or ENC+INT as its initialisation starts (R305). -/
theorem windowStarts_reads {s u : State} {w : Nat} (hon : u.flag (Reg.VLT_WCTL_EN w) = true)
    (hbits : BitsBut [wholeReg (Reg.VLT_WCTL w), wholeReg (Reg.VLT_WINFO w)] s u)
    (hframe : { u with regs := s.regs, cyc := s.cyc, winKey := s.winKey } = s) {t : State}
    (ht : t = (u.raiseF (Reg.VLT_WCTL_INIT w)).raiseF Reg.VLT_STAT_INIT_BUSY) :
    t.flag (Reg.VLT_WCTL_EN w) = true ∧ t.flag (Reg.VLT_WCTL_INIT w) = true ∧ t.flag Reg.VLT_STAT_INIT_BUSY = true ∧ t.winKey = u.winKey ∧
      BitsBut [wholeReg (Reg.VLT_WCTL w), wholeReg (Reg.VLT_WINFO w), Reg.VLT_STAT_INIT_BUSY] s t ∧
      { t with regs := s.regs, cyc := s.cyc, winKey := s.winKey } = s := by
  subst ht
  have hw := ((Wrote.refl u).raiseF (Reg.VLT_WCTL_INIT w)).raiseF Reg.VLT_STAT_INIT_BUSY
  have hset := hw.bitsBut (separate_init w)
  refine ⟨(flag_of_bitsBut hset ?_).trans hon, hw.flag (b := true) (separate_init w) (.tail _ (.head _)),
    hw.flag (b := true) (separate_init w) (.head _), rfl, bitsBut_trans (bitsBut_mono hbits (by simp)) (bitsBut_cover hset ?_), hframe⟩
  · exact List.forall_mem_cons.mpr ⟨fun e => absurd e.symm (wctl_ne_stat w),
      List.forall_mem_singleton.mpr fun _ => .inr (by simp [Reg.VLT_WCTL_EN, Reg.VLT_WCTL_INIT])⟩
  · exact List.forall_mem_cons.mpr ⟨⟨Reg.VLT_STAT_INIT_BUSY, by simp, rfl, le_rfl, le_rfl⟩,
      List.forall_mem_singleton.mpr ⟨wholeReg (Reg.VLT_WCTL w), by simp, rfl, by simp [wholeReg], by simp [wholeReg, Reg.VLT_WCTL_INIT]⟩⟩

/-- Settles O36: a window by the tests of R304 and by its mode, and the random numbers by the health test. -/
theorem windowsAndRandomNumbers : Obligations.WindowsAndRandomNumbers := by
  unfold Obligations.WindowsAndRandomNumbers
  intro s ha
  refine ⟨fun w v => ?_, fun hok => ?_, fun peek h => ?_, fun hok => ?_⟩
  · intro x inTree
    have hx : x.getLsbD 31 = true := by simp [x]
    have hy : (v &&& 0x7FFFFFFF#32).getLsbD 31 = false := by simp
    have hwinfo := wctl_ne_winfo w
    have hstat := wctl_ne_stat w
    have hstat2 := winfo_ne_stat w
    have hen : exec (.windowEnable w v) s = .next (wctlWrite s w x) := by
      rw [exec_windowEnable]
      exact if_pos ha
    have hdis : exec (.windowDisable w v) s = .next (wctlWrite s w (v &&& 0x7FFFFFFF#32)) := by
      rw [exec_windowDisable]
      exact if_pos ha
    refine ⟨fun hon => ?_, fun hoff hbad => ?_, fun hoff hgood hmode hkey => ?_, fun kb hoff hgood hmode hkey => ?_, fun hon => ?_, fun hinit => ?_⟩
    · rw [hen, wctlWrite_again hx hon]
    · rw [hen, wctlWrite_bad hx hoff hbad]
      exact ⟨_, rfl, flag_raiseF s _ (by decide) (by decide), onlyBitsEv_raiseF s _ 198 ((Field.fits_iff _).mpr rfl)⟩
    · rw [hen, wctlWrite_on hx hoff hgood, windowOn_of_clear hmode hkey]
      obtain ⟨hctl, hinfo, hkeys, hbits, hframe⟩ := windowBound_reads s w x [] 0
      exact ⟨_, rfl, hctl, hinfo, hkeys, hbits, hframe⟩
    · rw [hen, wctlWrite_on hx hoff hgood, windowOn_of_key hmode hkey]
      obtain ⟨hctl, -, hkeys, hbits, hframe⟩ := windowBound_reads s w x kb (windowInfo x.toNat)
      have hon : (windowBound s w x kb (windowInfo x.toNat)).flag (Reg.VLT_WCTL_EN w) = true := by
        rw [flag_eq_getLsbD _ rfl, show (Reg.VLT_WCTL_EN w).reg = Reg.VLT_WCTL w from rfl, hctl]
        simp [x, Reg.VLT_WCTL_EN]
      obtain ⟨hen', hinit, hbusy, hkey', hall, hrest⟩ := windowStarts_reads hon hbits hframe rfl
      exact ⟨_, rfl, hen', hinit, hbusy, hkey' ▸ hkeys, hall, hrest⟩
    · rw [hdis, wctlWrite_off hy hon, windowOff_eq]
      obtain ⟨hctl, hinfo, hkeys, hmem, hnodes, hbits, hframe⟩ := windowDropped_reads s w (v &&& 0x7FFFFFFF#32)
      have hoff : (windowDropped s w (v &&& 0x7FFFFFFF#32)).flag (Reg.VLT_WCTL_EN w) = false := by
        rw [flag_eq_getLsbD _ rfl, show (Reg.VLT_WCTL_EN w).reg = Reg.VLT_WCTL w from rfl, hctl]
        simp [Reg.VLT_WCTL_EN]
      generalize windowDropped s w (v &&& 0x7FFFFFFF#32) = u at hinfo hkeys hmem hnodes hbits hframe hoff ⊢
      have hbusy := bitsBut_busyFollows u
      refine ⟨_, rfl, (flag_of_bitsBut hbusy ?_).trans hoff, hkeys, (reg_of_bitsBut hbusy ?_).trans hinfo, flag_busyFollows u, hmem, hnodes,
        bitsBut_trans (bitsBut_mono hbits (by simp)) (bitsBut_mono hbusy (by simp)), hframe⟩
      · exact List.forall_mem_singleton.mpr fun e => absurd e.symm hstat
      · exact List.forall_mem_singleton.mpr hstat2.symm
    · intro filled
      have hframe := windowFilled_frame s w
      rw [exec_windowInitComplete_of_init ha hinit]
      have hfilled : filled = windowFilled s w := rfl
      clear_value filled
      subst hfilled
      generalize windowFilled s w = u at hframe ⊢
      have hregs : u.regs = s.regs := (congrArg State.regs hframe :)
      have hclear : BitsBut [Reg.VLT_WCTL_INIT w, Reg.VLT_STAT_INIT_BUSY] s (u.clearF (Reg.VLT_WCTL_INIT w)) :=
        bitsBut_clearF (bitsBut_of_regs (bitsBut_refl _ s) hregs) _ (by simp) (by simp [Reg.VLT_WCTL_INIT]) (by simp [Reg.VLT_WCTL_INIT])
      have hzero : (u.clearF (Reg.VLT_WCTL_INIT w)).flag (Reg.VLT_WCTL_INIT w) = false :=
        flag_clearF u _ (by simp [Reg.VLT_WCTL_INIT]) (by simp [Reg.VLT_WCTL_INIT])
      have hbusy := bitsBut_busyFollows (u.clearF (Reg.VLT_WCTL_INIT w))
      have hshown := flag_busyFollows (u.clearF (Reg.VLT_WCTL_INIT w))
      have hdone : (busyFollows (u.clearF (Reg.VLT_WCTL_INIT w))).flag (Reg.VLT_WCTL_INIT w) = false :=
        (flag_of_bitsBut hbusy (List.forall_mem_singleton.mpr fun e => absurd e.symm hstat)).trans hzero
      refine ⟨_, rfl, rfl, rfl, ?_, ?_, ?_, bitsBut_of_regs (bitsBut_trans hclear (bitsBut_mono hbusy (by simp))) rfl, ?_⟩
      · rw [flag_raiseEv, hdone]
      · exact raiseEv_raised_congr 198 (congrArg State.raised hframe :) (congrArg (fun x : State => x.cyc.evs) hframe :)
          (congrArg State.clockOn hframe :) (congrArg State.dbgHalt hframe :)
      · rw [flag_raiseEv, anyInit_raiseEv, raiseEv_zeroing, hshown]
      · exact (congrArg (fun x : State => { x with regs := s.regs, cyc := s.cyc, raised := s.raised }) hframe :)
  · rw [exec_rngRead]
    unfold execRngRead rngRead
    rw [if_pos ha, if_neg (by simp [hok])]
    refine ⟨Config.random s.fresh, ?_⟩
    rw [← BitVec.ofNat_toNat]
    rfl
  · rw [exec_rngRead]
    unfold execRngRead rngRead
    rw [if_pos ha, if_pos (by rcases h with h | h <;> simp [h])]
    rfl
  · rw [exec_rngHealthFail]
    unfold execRngHealthFail
    rw [okIf_of_true _ _ (by simp [ha, hok])]
    have hsep : Separate [Reg.VLT_STAT_RNGFAIL, Reg.VLT_STAT_RNG_OK] := .of_ok rfl
    have hw := ((Wrote.refl s).setF Reg.VLT_STAT_RNG_OK 0).raiseF Reg.VLT_STAT_RNGFAIL
    have honly : OnlyBits [Reg.VLT_STAT_RNG_OK, Reg.VLT_STAT_RNGFAIL] s ((s.clearF Reg.VLT_STAT_RNG_OK).raiseF Reg.VLT_STAT_RNGFAIL) :=
      ⟨bitsBut_mono (hw.bitsBut hsep) (by simp), rfl⟩
    exact ⟨_, rfl, hw.flag (b := false) hsep (.tail _ (.head _)), hw.flag (b := true) hsep (.head _), honly.raiseEv 202 (by simp)⟩

end Sys2Proof.Machine

/-!
SUPPORT. Maintenance of the memory dies (14_memory_layer.md R290, R291, R293): what a visit of the scrubber reports of a line, where the scrubber
goes next, and the refresh rate.
-/

namespace Sys2Proof.Machine

/-! ### Lines rewritten -/

section
variable {s t : State}

/-- Words written by a step that looks at the memory dies alone. -/
theorem foldl_mem_congr {α : Type} {g : State → α → State} (hg : ∀ u v x, u.mem = v.mem → (g u x).mem = (g v x).mem) (l : List α)
    (h : t.mem = s.mem) : (l.foldl g t).mem = (l.foldl g s).mem := by
  induction l generalizing s t with
  | nil => exact h
  | cons x l ih => exact ih (hg t s x h)

theorem memWord_congr (h : t.mem = s.mem) (k : Nat) : memWord t k = memWord s k := congrArg (fun m => tget (fun _ => 0) m k) h

theorem mem_setMemWord_congr (h : t.mem = s.mem) (k : Nat) (w : BitVec 88) : (setMemWord t k w).mem = (setMemWord s k w).mem :=
  congrArg (fun m => tset (fun _ => 0) m k w) h

theorem mem_rewriteLine_congr (h : t.mem = s.mem) (a : Nat) : (rewriteLine t a).mem = (rewriteLine s a).mem := by
  refine foldl_mem_congr (fun u v i huv => ?_) _ h
  rw [memWord_congr huv]
  split
  · exact mem_setMemWord_congr huv _ _
  · exact huv

theorem mem_poisonLine_congr (h : t.mem = s.mem) (a : Nat) : (poisonLine t a).mem = (poisonLine s a).mem := by
  refine foldl_mem_congr (fun u v i huv => ?_) _ h
  rw [memWord_congr huv]
  exact mem_setMemWord_congr huv _ _

theorem memOnly_rewriteLine (s : State) (a : Nat) : MemOnly s (rewriteLine s a) := by
  refine (MemOnly.refl s).foldl (fun u i => ?_) _
  split
  · exact memOnly_setMemWord u _ _
  · exact .refl u

theorem memOnly_poisonLine (s : State) (a : Nat) : MemOnly s (poisonLine s a) :=
  (MemOnly.refl s).foldl (fun u _ => memOnly_setMemWord u _ _) _

end

/-! ### Captures -/

section
variable (s : State)

theorem hwReg_note_self {o : Nat} (h : HwReg) (hl : s.logsAt o = true) : (s.note o h).hwReg o = h := by
  unfold State.note State.hwReg
  rw [if_pos hl]
  exact tget_tset_self _ _ _ _

theorem hwReg_note_ne {o x : Nat} (h : HwReg) (hx : x ≠ o) : (s.note o h).hwReg x = s.hwReg x := by
  unfold State.note State.hwReg
  dsimp only
  split
  · exact tget_tset_ne _ _ _ _ _ hx
  · rfl

/-- A note that keeps the bits hardware has set keeps them in every register. -/
theorem hwBits_note {o : Nat} (h : HwReg) (hb : h.bits = (s.hwReg o).bits) (x : Nat) : ((s.note o h).hwReg x).bits = (s.hwReg x).bits := by
  by_cases hx : x = o
  · subst hx
    unfold State.note State.hwReg
    dsimp only
    split
    · rw [tget_tset_self, hb]
      rfl
    · rfl
  · rw [hwReg_note_ne s h hx]

theorem hwBits_addF (f : Field) (n x : Nat) : ((s.addF f n).hwReg x).bits = (s.hwReg x).bits :=
  hwBits_note (s.setReg f.reg (f.add (s.reg f.reg) n))
    { s.hwReg f.reg with old := some ((s.hwReg f.reg).old.getD (s.reg f.reg)), inc := f.add (s.hwReg f.reg).inc n } rfl x

/-- A bit that hardware sets leaves the other bits that it has set. -/
theorem hwBit_raiseF (f : Field) {x b : Nat} (hx : x = f.reg → b ≠ f.lo) :
    ((s.raiseF f).hwReg x).bits.getLsbD b = (s.hwReg x).bits.getLsbD b := by
  by_cases hf : x = f.reg
  · subst hf
    unfold State.raiseF State.note State.hwReg
    dsimp only
    split
    · rw [tget_tset_self, BitVec.getLsbD_or, BitVec.getLsbD_ofNat, Nat.testBit_two_pow_of_ne (hx rfl).symm, Bool.and_false, Bool.or_false]
    · rfl
  · exact congrArg (fun h : HwReg => h.bits.getLsbD b) (hwReg_note_ne (s.setF f 1) _ hf)

/-- The first condition of a slot is captured where none stands. -/
theorem capture_of_free {f : Field} (vals : List (Field × Nat)) (h : (s.logsAt f.reg && (s.hwReg f.reg).bits.getLsbD f.lo) = false)
    (hf : s.flag f = false) : s.capture f vals = vals.foldl (fun t x => t.setF x.1 x.2) s := by
  unfold State.capture
  rw [if_neg (by simp [h]), if_neg (by simp [hf])]

end

/-! ### Reports -/

section
variable (s : State) {a c : Nat} (ha : channelOf a = c)
include ha

theorem reportPoison_reads : (reportPoison s a).flag (Reg.MEMC_STAT_POISON_RD c) = true ∧
    (reportPoison s a).getF (Reg.MEMC_ERRCNT_POIS_RD_CNT c) = min (s.getF (Reg.MEMC_ERRCNT_POIS_RD_CNT c) + 1) (2 ^ 16 - 1) ∧
    OnlyBitsEv [Reg.MEMC_STAT_POISON_RD c, Reg.MEMC_ERRCNT_POIS_RD_CNT c] (180 + c) s (reportPoison s a) := by
  have hsep : Separate [Reg.MEMC_ERRCNT_POIS_RD_CNT c, Reg.MEMC_STAT_POISON_RD c] := by
    simp [Separate, Field.Fits, Field.Apart, Reg.MEMC_ERRCNT_POIS_RD_CNT, Reg.MEMC_STAT_POISON_RD, Reg.MEMC_ERRCNT, Reg.MEMC_STAT]
  have hw := ((Wrote.refl s).raiseF (Reg.MEMC_STAT_POISON_RD c)).addF (f := Reg.MEMC_ERRCNT_POIS_RD_CNT c) 1 hsep (m := 2 ^ 16 - 1) rfl
  have honly : OnlyBits [Reg.MEMC_STAT_POISON_RD c, Reg.MEMC_ERRCNT_POIS_RD_CNT c] s
      ((s.raiseF (Reg.MEMC_STAT_POISON_RD c)).incF (Reg.MEMC_ERRCNT_POIS_RD_CNT c)) := ⟨bitsBut_mono (hw.bitsBut hsep) (by simp), rfl⟩
  unfold reportPoison
  rw [ha]
  exact ⟨hw.flag (b := true) hsep (.tail _ (.head _)), hw.getF hsep (.head _) (by simp [Reg.MEMC_ERRCNT_POIS_RD_CNT]), honly.raiseEv _ (by simp)⟩

/-- Words corrected in a line are counted with its channel (R290). -/
theorem reportCorr_reads (fixed : Nat) : (reportCorr s a fixed).flag (Reg.MEMC_STAT_CORR c) = (s.flag (Reg.MEMC_STAT_CORR c) || fixed != 0) ∧
    (reportCorr s a fixed).getF (Reg.MEMC_ECC_COR_CNT c) = min (s.getF (Reg.MEMC_ECC_COR_CNT c) + fixed) (2 ^ 16 - 1) ∧
    OnlyBits [Reg.MEMC_STAT_CORR c, Reg.MEMC_ECC_COR_CNT c] s (reportCorr s a fixed) := by
  have hlt : s.getF (Reg.MEMC_ECC_COR_CNT c) < 2 ^ 16 := Nat.mod_lt _ (by simp)
  unfold reportCorr
  rw [ha]
  split
  case isTrue h => exact ⟨by simp [h], by omega, onlyBits_refl s _⟩
  case isFalse h =>
    have hsep : Separate [Reg.MEMC_ECC_COR_CNT c, Reg.MEMC_STAT_CORR c] := by
      simp [Separate, Field.Fits, Field.Apart, Reg.MEMC_ECC_COR_CNT, Reg.MEMC_STAT_CORR, Reg.MEMC_ECC, Reg.MEMC_STAT]
    have hw := ((Wrote.refl s).raiseF (Reg.MEMC_STAT_CORR c)).addF (f := Reg.MEMC_ECC_COR_CNT c) fixed hsep (m := 2 ^ 16 - 1) rfl
    refine ⟨?_, hw.getF hsep (.head _) (by simp [Reg.MEMC_ECC_COR_CNT]), bitsBut_mono (hw.bitsBut hsep) (by simp), rfl⟩
    exact (hw.flag (b := true) hsep (.tail _ (.head _))).trans (by simp [h])

end

/-- A line of correctable words, reported and rewritten (R290). -/
theorem rewritten_reads (s : State) {a c : Nat} (ha : channelOf a = c) (fixed : Nat) :
    let u := rewriteLine (reportCorr s a fixed) a
    u.flag (Reg.MEMC_STAT_CORR c) = (s.flag (Reg.MEMC_STAT_CORR c) || fixed != 0) ∧
      u.getF (Reg.MEMC_ECC_COR_CNT c) = min (s.getF (Reg.MEMC_ECC_COR_CNT c) + fixed) (2 ^ 16 - 1) ∧ u.mem = (rewriteLine s a).mem ∧
      BitsBut [Reg.MEMC_STAT_CORR c, Reg.MEMC_ECC_COR_CNT c] s u ∧ { u with regs := s.regs, cyc := s.cyc, mem := s.mem } = s := by
  obtain ⟨hflag, hcnt, honly⟩ := reportCorr_reads s ha fixed
  have hmem := mem_rewriteLine_congr (honly.keeps State.mem fun _ _ _ => rfl) a
  have hrest := memOnly_rewriteLine (reportCorr s a fixed) a
  have hregs := hrest.keeps State.regs fun _ _ => rfl
  intro u
  refine ⟨(flag_of_regs hregs _).trans hflag, (getF_of_regs hregs _).trans hcnt, hmem, bitsBut_of_regs honly.1 hregs, ?_⟩
  exact (hrest.keeps (fun x : State => { x with regs := s.regs, cyc := s.cyc, mem := s.mem }) fun _ _ => rfl).trans
    (honly.keeps (fun x : State => { x with regs := s.regs, cyc := s.cyc, mem := s.mem }) fun _ _ _ => rfl)

/-- What a line found uncorrectable leaves in the registers of its channel. -/
def uncFields (c : Nat) : List Field :=
  [Reg.MEMC_STAT_UNCORR c, Reg.MEMC_ECC_UNC_CNT c, wholeReg (Reg.MEMC_UADDR_LO c), Reg.MEMC_UADDR_HI_SRC c, Reg.MEMC_UADDR_HI_ADDR_HI c]

theorem separate_uncFields (c : Nat) : Separate [Reg.MEMC_ECC_UNC_CNT c, Reg.MEMC_STAT_UNCORR c, Reg.MEMC_UADDR_HI_ADDR_HI c,
    Reg.MEMC_UADDR_HI_SRC c, ⟨Reg.MEMC_UADDR_LO c, 31, 0⟩] := by
  simp [Separate, Field.Fits, Field.Apart, Reg.MEMC_ECC_UNC_CNT, Reg.MEMC_STAT_UNCORR, Reg.MEMC_UADDR_HI_ADDR_HI, Reg.MEMC_UADDR_HI_SRC,
    Reg.MEMC_UADDR_LO, Reg.MEMC_UADDR_HI, Reg.MEMC_ECC, Reg.MEMC_STAT]

/-- The registers of a channel that has found a line uncorrectable, before its event. -/
def uncRecorded (s : State) (a src c : Nat) : State :=
  ((((s.setF ⟨Reg.MEMC_UADDR_LO c, 31, 0⟩ a).setF (Reg.MEMC_UADDR_HI_SRC c) src).setF (Reg.MEMC_UADDR_HI_ADDR_HI c) (a / 2 ^ 32)).raiseF
    (Reg.MEMC_STAT_UNCORR c)).incF (Reg.MEMC_ECC_UNC_CNT c)

theorem uncRecorded_reads (s : State) {a : Nat} (c : Nat) (hlt : a < 2 ^ 48) {src : Nat} (hs : src < 2) :
    (uncRecorded s a src c).flag (Reg.MEMC_STAT_UNCORR c) = true ∧
      (uncRecorded s a src c).getF (Reg.MEMC_ECC_UNC_CNT c) = min (s.getF (Reg.MEMC_ECC_UNC_CNT c) + 1) (2 ^ 16 - 1) ∧
      (uncRecorded s a src c).getF (Reg.MEMC_UADDR_HI_SRC c) = src ∧
      ((uncRecorded s a src c).reg (Reg.MEMC_UADDR_LO c)).toNat +
        2 ^ 32 * (uncRecorded s a src c).getF (Reg.MEMC_UADDR_HI_ADDR_HI c) = a ∧
      OnlyBits (uncFields c) s (uncRecorded s a src c) := by
  have hsep := separate_uncFields c
  have hw := ((((Wrote.refl s).setF ⟨Reg.MEMC_UADDR_LO c, 31, 0⟩ a).setF (Reg.MEMC_UADDR_HI_SRC c) src).setF
    (Reg.MEMC_UADDR_HI_ADDR_HI c) (a / 2 ^ 32)).raiseF (Reg.MEMC_STAT_UNCORR c)
  have hall : Wrote _ s (uncRecorded s a src c) := hw.addF (f := Reg.MEMC_ECC_UNC_CNT c) 1 hsep (m := 2 ^ 16 - 1) rfl
  have hlow := hall.getF_mod hsep (f := ⟨Reg.MEMC_UADDR_LO c, 31, 0⟩) (.tail _ (.tail _ (.tail _ (.tail _ (.head _)))))
  have hhigh := hall.getF hsep (f := Reg.MEMC_UADDR_HI_ADDR_HI c) (.tail _ (.tail _ (.head _))) (by simp [Reg.MEMC_UADDR_HI_ADDR_HI]; omega)
  have hreg := (getF_wholeReg (uncRecorded s a src c) (Reg.MEMC_UADDR_LO c)).symm.trans hlow
  refine ⟨hall.flag (b := true) hsep (.tail _ (.head _)), hall.getF hsep (.head _) (by simp [Reg.MEMC_ECC_UNC_CNT]),
    hall.getF hsep (.tail _ (.tail _ (.tail _ (.head _)))) hs, ?_, ?_⟩
  · rw [hreg, hhigh]
    exact Nat.mod_add_div a (2 ^ 32)
  · obtain ⟨hcnt, hunc, hhi, hsrc, hlo, -⟩ : _ ∧ _ ∧ _ ∧ _ ∧ _ ∧ True := by simpa using hsep.1
    exact (((((onlyBits_refl s (uncFields c)).setF _ a (by simp [uncFields, wholeReg]) hlo).setF _ src (by simp [uncFields]) hsrc).setF _
      (a / 2 ^ 32) (by simp [uncFields]) hhi).raiseF _ (by simp [uncFields]) hunc).incF _ (by simp [uncFields]) hcnt

theorem uncRecorded_evs (s : State) (a src c : Nat) : (uncRecorded s a src c).cyc.evs = s.cyc.evs := by
  unfold uncRecorded
  rw [incF_evs, raiseF_evs, setF_evs, setF_evs, setF_evs]

/-- The line is the first of its channel that is found uncorrectable. -/
def uncFree (s : State) (c : Nat) : Prop :=
  s.flag (Reg.MEMC_STAT_UNCORR c) = false ∧ (s.logsAt (Reg.MEMC_STAT c) && (s.hwReg (Reg.MEMC_STAT c)).bits.getLsbD 3) = false

theorem reportUnc_of_free (s : State) {a c : Nat} (ha : channelOf a = c) (h : uncFree s c) (src : Nat) :
    reportUnc s a src = (uncRecorded (poisonLine s a) a src c).raiseEv (180 + c) := by
  have hmem := memOnly_poisonLine s a
  obtain ⟨hflag, hbit⟩ := h
  unfold reportUnc
  dsimp only
  rw [ha]
  generalize poisonLine s a = u at hmem ⊢
  have hflag' : u.flag (Reg.MEMC_STAT_UNCORR c) = false := (hmem.keeps (fun x => x.flag _) fun _ _ => rfl).trans hflag
  have hlogs : u.logsAt (Reg.MEMC_STAT c) = s.logsAt (Reg.MEMC_STAT c) := hmem.keeps (fun x => x.logsAt _) fun _ _ => rfl
  have hhw : u.hwReg (Reg.MEMC_STAT c) = s.hwReg (Reg.MEMC_STAT c) := hmem.keeps (fun x => x.hwReg _) fun _ _ => rfl
  rw [← hlogs, ← hhw] at hbit
  rw [capture_of_free u _ hbit hflag']
  simp only [List.foldl_cons, List.foldl_nil]
  rfl

theorem reportCorr_evs (s : State) (a fixed : Nat) : (reportCorr s a fixed).cyc.evs = s.cyc.evs := by
  unfold reportCorr
  split
  · rfl
  · simp

theorem uncFree_reportCorr {s : State} {a c : Nat} (ha : channelOf a = c) (h : uncFree s c) (fixed : Nat) : uncFree (reportCorr s a fixed) c := by
  obtain ⟨-, -, honly⟩ := reportCorr_reads s ha fixed
  obtain ⟨hflag, hbit⟩ := h
  have hlogs : (reportCorr s a fixed).logsAt (Reg.MEMC_STAT c) = s.logsAt (Reg.MEMC_STAT c) := honly.keeps (fun x => x.logsAt _) fun _ _ _ => rfl
  have hbits : ((reportCorr s a fixed).hwReg (Reg.MEMC_STAT c)).bits.getLsbD 3 = (s.hwReg (Reg.MEMC_STAT c)).bits.getLsbD 3 := by
    unfold reportCorr
    split
    · rfl
    · rw [hwBits_addF]
      exact hwBit_raiseF s _ fun _ => by simp [Reg.MEMC_STAT_CORR]
  refine ⟨(flag_of_bitsBut honly.1 ?_).trans hflag, by rw [hlogs, hbits, hbit]⟩
  simp [Reg.MEMC_STAT_CORR, Reg.MEMC_ECC_COR_CNT, Reg.MEMC_STAT_UNCORR, Reg.MEMC_STAT, Reg.MEMC_ECC]

/-- A line with an uncorrectable word, found first in its channel: its corrected words are counted beside it, and it is poisoned (R290). -/
theorem poisoned_reads (s : State) {a c : Nat} (ha : channelOf a = c) (hlt : a < 2 ^ 48) (hfree : uncFree s c) (fixed : Nat) :
    let u := reportUnc (reportCorr s a fixed) a 1
    u.flag (Reg.MEMC_STAT_UNCORR c) = true ∧ u.getF (Reg.MEMC_ECC_UNC_CNT c) = min (s.getF (Reg.MEMC_ECC_UNC_CNT c) + 1) (2 ^ 16 - 1) ∧
      u.flag (Reg.MEMC_STAT_CORR c) = (s.flag (Reg.MEMC_STAT_CORR c) || fixed != 0) ∧
      u.getF (Reg.MEMC_ECC_COR_CNT c) = min (s.getF (Reg.MEMC_ECC_COR_CNT c) + fixed) (2 ^ 16 - 1) ∧ u.raised = (s.raiseEv (180 + c)).raised ∧
      u.getF (Reg.MEMC_UADDR_HI_SRC c) = 1 ∧
      (u.reg (Reg.MEMC_UADDR_LO c)).toNat + 2 ^ 32 * u.getF (Reg.MEMC_UADDR_HI_ADDR_HI c) = a ∧ u.mem = (poisonLine s a).mem ∧
      BitsBut ([Reg.MEMC_STAT_CORR c, Reg.MEMC_ECC_COR_CNT c] ++ uncFields c) s u ∧
      { u with regs := s.regs, cyc := s.cyc, mem := s.mem, raised := s.raised } = s := by
  obtain ⟨hcorr, hcnt, honly⟩ := reportCorr_reads s ha fixed
  have hrep := reportUnc_of_free _ ha (uncFree_reportCorr ha hfree fixed) 1
  have hmem := mem_poisonLine_congr (honly.keeps State.mem fun _ _ _ => rfl) a
  have hline := memOnly_poisonLine (reportCorr s a fixed) a
  have hevs := reportCorr_evs s a fixed
  intro u
  have hu : u = (uncRecorded (poisonLine (reportCorr s a fixed) a) a 1 c).raiseEv (180 + c) := hrep
  clear_value u
  generalize poisonLine (reportCorr s a fixed) a = p at hu hmem hline
  generalize reportCorr s a fixed = v at hcorr hcnt honly hline hevs
  have hregs : p.regs = v.regs := hline.keeps State.regs fun _ _ => rfl
  have hapart : ∀ f ∈ uncFields c, f.Apart (Reg.MEMC_STAT_CORR c) ∧ f.Apart (Reg.MEMC_ECC_COR_CNT c) := by
    simp [uncFields, wholeReg, Field.Apart, Reg.MEMC_ECC_UNC_CNT, Reg.MEMC_STAT_UNCORR, Reg.MEMC_UADDR_HI_ADDR_HI, Reg.MEMC_UADDR_HI_SRC,
      Reg.MEMC_UADDR_LO, Reg.MEMC_UADDR_HI, Reg.MEMC_ECC, Reg.MEMC_STAT, Reg.MEMC_STAT_CORR, Reg.MEMC_ECC_COR_CNT]
  have hunc : v.getF (Reg.MEMC_ECC_UNC_CNT c) = s.getF (Reg.MEMC_ECC_UNC_CNT c) := getF_of_bitsBut honly.1 (by
    simp [Reg.MEMC_ECC_UNC_CNT, Reg.MEMC_ECC, Reg.MEMC_STAT, Reg.MEMC_STAT_CORR, Reg.MEMC_ECC_COR_CNT])
  obtain ⟨h1, h2, h3, h4, h5⟩ := uncRecorded_reads p c hlt (src := 1) (by decide)
  have hevs' : (uncRecorded p a 1 c).cyc.evs = s.cyc.evs := by
    rw [uncRecorded_evs, ← hevs]
    exact hline.keeps (fun x => x.cyc.evs) fun _ _ => rfl
  have hbits : BitsBut ([Reg.MEMC_STAT_CORR c, Reg.MEMC_ECC_COR_CNT c] ++ uncFields c) s (uncRecorded p a 1 c) :=
    bitsBut_trans (bitsBut_of_regs (bitsBut_mono honly.1 fun f hf => List.mem_append_left _ hf) hregs)
      (bitsBut_mono h5.1 fun f hf => List.mem_append_right _ hf)
  have hframe : { uncRecorded p a 1 c with regs := s.regs, cyc := s.cyc, mem := s.mem } = s :=
    ((h5.keeps (fun x : State => { x with regs := s.regs, cyc := s.cyc, mem := s.mem }) fun _ _ _ => rfl).trans
      (hline.keeps (fun x : State => { x with regs := s.regs, cyc := s.cyc, mem := s.mem }) fun _ _ => rfl)).trans
      (honly.keeps (fun x : State => { x with regs := s.regs, cyc := s.cyc, mem := s.mem }) fun _ _ _ => rfl)
  have hcorr' := (flag_of_bitsBut h5.1 fun f hf => (hapart f hf).1).trans ((flag_of_regs hregs _).trans hcorr)
  have hcnt' := (getF_of_bitsBut h5.1 fun f hf => (hapart f hf).2).trans ((getF_of_regs hregs _).trans hcnt)
  have hmem' := (h5.keeps State.mem fun _ _ _ => rfl).trans hmem
  rw [getF_of_regs hregs, hunc] at h2
  generalize uncRecorded p a 1 c = t at hu h1 h2 h3 h4 hevs' hbits hframe hcorr' hcnt' hmem'
  subst hu
  refine ⟨(flag_raiseEv t _ _).trans h1, (getF_raiseEv t _ _).trans h2, (flag_raiseEv t _ _).trans hcorr', (getF_raiseEv t _ _).trans hcnt',
    ?_, (getF_raiseEv t _ _).trans h3, ?_, (raiseEv_mem t _).trans hmem', bitsBut_of_regs hbits rfl, ?_⟩
  · exact raiseEv_raised_congr _ (congrArg State.raised hframe :) hevs' (congrArg State.clockOn hframe :) (congrArg State.dbgHalt hframe :)
  · rw [reg_raiseEv, getF_raiseEv, h4]
  · exact (congrArg (fun x : State => { x with raised := s.raised }) hframe :)

/-! ### The scrubber -/

/-- Where the scrubber of a channel stands. -/
def scrubPlace (c : Nat) : List Field := [Reg.MEMC_SCRUB_POS_LINE c, wholeReg (Reg.MEMC_SWEEP c)]

/-- The scrubber goes on from line l, and counts a sweep after the last one (R291). -/
def scrubNext (s : State) (c l : Nat) : State :=
  if l = 16777215 then (s.setF (Reg.MEMC_SCRUB_POS_LINE c) 0).setReg (Reg.MEMC_SWEEP c) (s.reg (Reg.MEMC_SWEEP c) + 1)
  else s.setF (Reg.MEMC_SCRUB_POS_LINE c) (l + 1)

section
variable (s : State) (c : Nat)

theorem onlyBits_pos (v : Nat) : OnlyBits (scrubPlace c) s (s.setF (Reg.MEMC_SCRUB_POS_LINE c) v) :=
  (onlyBits_refl s _).setF _ _ (by simp [scrubPlace]) (by simp [Field.Fits, Reg.MEMC_SCRUB_POS_LINE])

theorem reg_sweep_setPos (v : Nat) : (s.setF (Reg.MEMC_SCRUB_POS_LINE c) v).reg (Reg.MEMC_SWEEP c) = s.reg (Reg.MEMC_SWEEP c) :=
  reg_setF_ne s _ _ _ (by simp [Reg.MEMC_SWEEP, Reg.MEMC_SCRUB_POS_LINE, Reg.MEMC_SCRUB_POS])

theorem getF_pos_setPos {v : Nat} (hv : v < 2 ^ 24) : (s.setF (Reg.MEMC_SCRUB_POS_LINE c) v).getF (Reg.MEMC_SCRUB_POS_LINE c) = v :=
  (getF_setF_self s _ v (by simp [Reg.MEMC_SCRUB_POS_LINE]) (by simp [Reg.MEMC_SCRUB_POS_LINE])).trans (Nat.mod_eq_of_lt hv)

theorem scrubNext_reads {l : Nat} (hl : l < 2 ^ 24) :
    (scrubNext s c l).getF (Reg.MEMC_SCRUB_POS_LINE c) = (if l = 16777215 then 0 else l + 1) ∧
      (scrubNext s c l).reg (Reg.MEMC_SWEEP c) =
        (if l = 16777215 then s.reg (Reg.MEMC_SWEEP c) + 1 else s.reg (Reg.MEMC_SWEEP c)) ∧
      OnlyBits (scrubPlace c) s (scrubNext s c l) := by
  unfold scrubNext
  split
  · refine ⟨?_, reg_setReg_self _ _ _, onlyBits_trans (onlyBits_pos s c 0) ((onlyBits_setReg _ _ _).mono (by simp [scrubPlace]))⟩
    rw [getF_setReg_ne _ _ _ _ (by simp [Reg.MEMC_SWEEP, Reg.MEMC_SCRUB_POS_LINE, Reg.MEMC_SCRUB_POS])]
    exact getF_pos_setPos s c (by decide)
  · exact ⟨getF_pos_setPos s c (by omega), reg_sweep_setPos s c _, onlyBits_pos s c _⟩

/-- What a visit of the scrubber reports of its line, before it goes on (R290, R291). -/
def scrubReported (s : State) (a : Nat) : State :=
  if linePoisoned s a then reportPoison s a
  else if (decodeLine s a allWords).bad then reportUnc (reportCorr s a (decodeLine s a allWords).fixed) a 1
  else if (decodeLine s a allWords).fixed = 0 then s else rewriteLine (reportCorr s a (decodeLine s a allWords).fixed) a

theorem channelOf_channelAddr {o : Nat} (hc : c < 16) : channelOf (channelAddr c o) = c := by
  unfold channelOf channelAddr
  omega

theorem channelAddr_lt {o : Nat} (hc : c < 16) (ho : o < 2 ^ 30) : channelAddr c o < 2 ^ 48 := by
  unfold channelAddr
  omega

end

section
variable {s : State} {c : Fin 16} (ha : s.alive = true) (hsref : s.flag (Reg.MEMC_STAT_SREF c) = false)
include ha hsref

theorem memRuns_of_alive : memRuns s c = true := by simp [memRuns, ha, hsref]

theorem exec_memoryScrubVisit_of_enabled (hen : s.flag (Reg.MEMC_CTRL_SCRUB_EN c) = true) :
    exec (.memoryScrubVisit c) s = .next (scrubNext (scrubReported s (channelAddr c (64 * s.getF (Reg.MEMC_SCRUB_POS_LINE c)))) c
      (s.getF (Reg.MEMC_SCRUB_POS_LINE c))) := by
  rw [exec_memoryScrubVisit]
  unfold execMemoryScrubVisit
  rw [if_pos (by simp [memRuns_of_alive ha hsref, hen])]
  unfold scrubNext
  dsimp only
  split
  · rw [reg_sweep_setPos]
    rfl
  · rfl

end

section
variable {s u : State} {c : Nat} {fs : List Field}

/-- What the scrubber reports of a line stays as it goes on. -/
theorem apart_scrubPlace {g : Field} (h : Reg.MEMC_STAT c ≤ g.reg) : ∀ f ∈ scrubPlace c, f.Apart g := by
  simp only [Reg.MEMC_STAT] at h
  refine List.forall_mem_cons.mpr ⟨fun e => ?_, List.forall_mem_singleton.mpr fun e => ?_⟩
  · simp only [Reg.MEMC_SCRUB_POS_LINE, Reg.MEMC_SCRUB_POS] at e
    omega
  · simp only [wholeReg, Reg.MEMC_SWEEP] at e
    omega

theorem flag_scrubNext {l : Nat} (hl : l < 2 ^ 24) {g : Field} (h : Reg.MEMC_STAT c ≤ g.reg) : (scrubNext u c l).flag g = u.flag g :=
  flag_of_bitsBut (scrubNext_reads u c hl).2.2.1 (apart_scrubPlace h)

theorem getF_scrubNext {l : Nat} (hl : l < 2 ^ 24) {g : Field} (h : Reg.MEMC_STAT c ≤ g.reg) : (scrubNext u c l).getF g = u.getF g :=
  getF_of_bitsBut (scrubNext_reads u c hl).2.2.1 (apart_scrubPlace h)

theorem reg_scrubNext {l : Nat} (hl : l < 2 ^ 24) {o : Nat} (h : Reg.MEMC_STAT c ≤ o) : (scrubNext u c l).reg o = u.reg o := by
  refine reg_of_bitsBut (scrubNext_reads u c hl).2.2.1 fun f hf e => ?_
  simp only [Reg.MEMC_STAT] at h
  simp only [scrubPlace, List.mem_cons, List.not_mem_nil, or_false] at hf
  obtain rfl | rfl := hf
  · simp only [Reg.MEMC_SCRUB_POS_LINE, Reg.MEMC_SCRUB_POS] at e
    omega
  · simp only [wholeReg, Reg.MEMC_SWEEP] at e
    omega

/-- The scrubber has gone on from a line, beside what it reported of it. -/
theorem scrubNext_moved {l : Nat} (hl : l < 2 ^ 24) (hb : BitsBut fs s u) (hfs : ∀ f ∈ fs, Reg.MEMC_STAT c ≤ f.reg) :
    (scrubNext u c l).getF (Reg.MEMC_SCRUB_POS_LINE c) = (if l = 16777215 then 0 else l + 1) ∧
      (scrubNext u c l).reg (Reg.MEMC_SWEEP c) = (if l = 16777215 then s.reg (Reg.MEMC_SWEEP c) + 1 else s.reg (Reg.MEMC_SWEEP c)) ∧
      BitsBut (scrubPlace c ++ fs) s (scrubNext u c l) := by
  obtain ⟨hpos, hsweep, honly⟩ := scrubNext_reads u c hl
  have hsame : u.reg (Reg.MEMC_SWEEP c) = s.reg (Reg.MEMC_SWEEP c) := reg_of_bitsBut hb fun f hf e => by
    have hle := hfs f hf
    rw [e] at hle
    simp only [Reg.MEMC_STAT, Reg.MEMC_SWEEP] at hle
    omega
  rw [hsame] at hsweep
  exact ⟨hpos, hsweep, bitsBut_trans (bitsBut_mono hb fun f hf => List.mem_append_right _ hf)
    (bitsBut_mono honly.1 fun f hf => List.mem_append_left _ hf)⟩

end

/-- Settles O33: a visit of the scrubber by what it finds in its line, and a refresh by the sensors of the die. -/
theorem memoryMaintenance : Obligations.MemoryMaintenance := by
  unfold Obligations.MemoryMaintenance
  intro s c ha hsref l a d last moved place
  have hl : l < 2 ^ 24 := Nat.mod_lt _ (by simp [Reg.MEMC_SCRUB_POS_LINE])
  have hchan : channelOf a = c := channelOf_channelAddr c c.isLt
  have haddr : a < 2 ^ 48 := channelAddr_lt c c.isLt (by omega)
  have habove (n : Nat) (h : 16 ≤ n) : Reg.MEMC_STAT c ≤ 0x100000 + 0x10000 * c + n := Nat.add_le_add_left h _
  refine ⟨fun hen => ?_, ?_⟩
  · have hexec := exec_memoryScrubVisit_of_enabled ha hsref hen
    refine ⟨fun hp => ?_, fun hp hb hf => ?_, fun hp hb hf => ?_, fun hp hb hunc hlog => ?_⟩
    · have hrep : scrubReported s a = reportPoison s a := if_pos hp
      obtain ⟨hflag, hcnt, hbits, hraised, hframe⟩ := reportPoison_reads s hchan
      obtain ⟨hpos, hsweep, hall⟩ := scrubNext_moved hl hbits 
        (List.forall_mem_cons.mpr ⟨habove 0x10 (by decide), List.forall_mem_singleton.mpr (habove 0x20 (by decide))⟩)
      have honly := (scrubNext_reads (reportPoison s a) c hl).2.2
      rw [hexec, hrep]
      exact ⟨_, rfl, ⟨hpos, hsweep⟩, (flag_scrubNext hl (habove 0x10 (by decide))).trans hflag, (getF_scrubNext hl (habove 0x20 (by decide))).trans hcnt,
        (honly.keeps State.raised fun _ _ _ => rfl).trans hraised, hall,
        (honly.keeps (fun x => { x with regs := s.regs, cyc := s.cyc, raised := s.raised }) fun _ _ _ => rfl).trans
          (congrArg (fun x : State => { x with cyc := s.cyc }) hframe :)⟩
    · have hrep : scrubReported s a = s := by
        unfold scrubReported
        rw [hp, if_neg (by simp), show (decodeLine s a allWords).bad = false from hb, if_neg (by simp), if_pos hf]
      obtain ⟨hpos, hsweep, honly⟩ := scrubNext_reads s c hl
      rw [hexec, hrep]
      exact ⟨_, rfl, ⟨hpos, hsweep⟩, honly⟩
    · have hrep : scrubReported s a = rewriteLine (reportCorr s a d.fixed) a := by
        unfold scrubReported
        rw [hp, if_neg (by simp), show (decodeLine s a allWords).bad = false from hb, if_neg (by simp), if_neg hf]
      obtain ⟨hflag, hcnt, hmem, hbits, hframe⟩ := rewritten_reads s hchan d.fixed
      rw [hexec, hrep]
      generalize rewriteLine (reportCorr s a d.fixed) a = u at hflag hcnt hmem hbits hframe ⊢
      obtain ⟨hpos, hsweep, hall⟩ := scrubNext_moved hl hbits
        (List.forall_mem_cons.mpr ⟨habove 0x10 (by decide), List.forall_mem_singleton.mpr (habove 0x1C (by decide))⟩)
      have honly := (scrubNext_reads u c hl).2.2
      exact ⟨_, rfl, ⟨hpos, hsweep⟩, (flag_scrubNext hl (habove 0x10 (by decide))).trans (hflag.trans (by simp [hf])),
        (getF_scrubNext hl (habove 0x1C (by decide))).trans hcnt, (honly.keeps State.mem fun _ _ _ => rfl).trans hmem, hall,
        (honly.keeps (fun x => { x with regs := s.regs, cyc := s.cyc, mem := s.mem }) fun _ _ _ => rfl).trans hframe⟩
    · have hfree : uncFree s c := ⟨hunc, by
        have hoff : ofAon (Reg.MEMC_STAT c) = false := by
          have h1 : ¬ Reg.MEMC_STAT c < 0x20000 := by simp only [Reg.MEMC_STAT]; omega
          have h2 : ¬ Reg.MEMC_STAT c < 0x50000 := by simp only [Reg.MEMC_STAT]; omega
          simp [ofAon, h1, h2]
        rcases hlog with h | h
        · simp [State.logsAt, h, hoff]
        · rw [show (s.hwReg (Reg.MEMC_STAT c)).bits.getLsbD 3 = false from h, Bool.and_false]⟩
      have hrep : scrubReported s a = reportUnc (reportCorr s a d.fixed) a 1 := by
        unfold scrubReported
        rw [hp, if_neg (by simp), show (decodeLine s a allWords).bad = true from hb, if_pos rfl]
      obtain ⟨hflag, hucnt, hcorr, hccnt, hraised, hsrc, hadr, hmem, hbits, hframe⟩ := poisoned_reads s hchan haddr hfree d.fixed
      rw [hexec, hrep]
      generalize reportUnc (reportCorr s a d.fixed) a 1 = u at hflag hucnt hcorr hccnt hraised hsrc hadr hmem hbits hframe ⊢
      obtain ⟨hpos, hsweep, hall⟩ := scrubNext_moved hl hbits (by
        simp only [uncFields, List.cons_append, List.nil_append, List.forall_mem_cons]
        exact ⟨habove 0x10 (by decide), habove 0x1C (by decide), habove 0x10 (by decide), habove 0x1C (by decide), habove 0x14 (by decide),
          habove 0x18 (by decide), habove 0x18 (by decide), by simp⟩)
      have honly := (scrubNext_reads u c hl).2.2
      refine ⟨_, rfl, ⟨hpos, hsweep⟩, (flag_scrubNext hl (habove 0x10 (by decide))).trans hflag,
        (getF_scrubNext hl (habove 0x1C (by decide))).trans hucnt, (flag_scrubNext hl (habove 0x10 (by decide))).trans hcorr,
        (getF_scrubNext hl (habove 0x1C (by decide))).trans hccnt, (honly.keeps State.raised fun _ _ _ => rfl).trans hraised,
        (getF_scrubNext hl (habove 0x18 (by decide))).trans hsrc, ?_, (honly.keeps State.mem fun _ _ _ => rfl).trans hmem,
        bitsBut_mono hall (by simp [uncFields, scrubPlace, place]),
        (honly.keeps (fun x => { x with regs := s.regs, cyc := s.cyc, mem := s.mem, raised := s.raised }) fun _ _ _ => rfl).trans hframe⟩
      rw [reg_scrubNext hl (o := Reg.MEMC_UADDR_LO c) (habove 0x14 (by decide)),
        getF_scrubNext hl (g := Reg.MEMC_UADDR_HI_ADDR_HI c) (habove 0x18 (by decide)), hadr]
  · rw [exec_refresh]
    unfold execRefresh hotFollows
    rw [okIf_of_true _ _ (memRuns_of_alive ha hsref)]
    refine ⟨_, rfl, ?_, (onlyBits_refl s _).putF _ _ (by simp) (by simp [Field.Fits, Reg.MEMC_STAT_HOT])⟩
    rw [flag_putF _ _ _ (by simp [Reg.MEMC_STAT_HOT]) (by simp [Reg.MEMC_STAT_HOT])]
    simp

end Sys2Proof.Machine

/-!
SUPPORT. Thermal protection (22_thermal.md R428 to R439): what a sample leaves of each sensor, what the steps after it keep, the shutdown, the
governor and its duty.
-/

namespace Sys2Proof.Machine

/-! ### What a sample changes -/

/-- Nothing but registers, the record of the slot, events, the sensors, the numbers drawn and the recalibrations due differs. -/
def SensorOnly (s t : State) : Prop :=
  { t with regs := s.regs, cyc := s.cyc, raised := s.raised, th := s.th, fresh := s.fresh, pllDue := s.pllDue } = s

section
variable {s t u : State}

theorem SensorOnly.refl (s : State) : SensorOnly s s := rfl

theorem SensorOnly.eq (h : SensorOnly s t) :
    t = { s with regs := t.regs, cyc := t.cyc, raised := t.raised, th := t.th, fresh := t.fresh, pllDue := t.pllDue } :=
  (congrArg (fun x : State => { x with regs := t.regs, cyc := t.cyc, raised := t.raised, th := t.th, fresh := t.fresh, pllDue := t.pllDue }) h :)

theorem SensorOnly.keeps {α : Type} (h : SensorOnly s t) (f : State → α)
    (hf : ∀ u r c e v n p, f { u with regs := r, cyc := c, raised := e, th := v, fresh := n, pllDue := p } = f u) : f t = f s := by
  rw [h.eq]
  exact hf s _ _ _ _ _ _

theorem SensorOnly.trans (h : SensorOnly s t) (h2 : SensorOnly t u) : SensorOnly s u := by
  unfold SensorOnly
  rw [h2.eq]
  exact h

theorem SensorOnly.setF (h : SensorOnly s t) (f : Field) (v : Nat) : SensorOnly s (t.setF f v) := h

theorem SensorOnly.putF (h : SensorOnly s t) (f : Field) (b : Bool) : SensorOnly s (t.putF f b) := h

theorem SensorOnly.raiseF (h : SensorOnly s t) (f : Field) : SensorOnly s (t.raiseF f) := h

theorem SensorOnly.incF (h : SensorOnly s t) (f : Field) : SensorOnly s (t.incF f) := h

theorem SensorOnly.withTh (h : SensorOnly s t) (v : Thermal) : SensorOnly s { t with th := v } := h

theorem SensorOnly.raiseEv (h : SensorOnly s t) (e : Nat) : SensorOnly s (t.raiseEv e) := by
  unfold State.raiseEv
  split <;> exact h

theorem SensorOnly.ite {c : Prop} [Decidable c] (h : SensorOnly s t) (h2 : SensorOnly s u) : SensorOnly s (if c then t else u) := by
  split <;> assumption

theorem SensorOnly.foldl {α : Type} (h : SensorOnly s t) {g : State → α → State} (hg : ∀ u x, SensorOnly u (g u x)) (l : List α) :
    SensorOnly s (l.foldl g t) := by
  induction l generalizing t with
  | nil => exact h
  | cons x l ih => exact ih (h.trans (hg t x))

end

/-! ### One sensor sampled -/

section
variable (s : State) (failed : List Nat) (n r : Nat)

/-- A reading that differs from the last one by more than 20 °C (R428). -/
def sensorJumps : Bool := (tget (fun _ => []) s.th.hist n).head?.any fun e => decide (e.2 + 80 < r) || decide (r + 80 < e.2)

/-- A sensor is BAD after a sample: it was, failed its own check, or jumped (R428, R429). -/
def sensorFails : Bool := s.flag (Reg.THM_TEMP_BAD n) || failed.contains n || sensorJumps s n r

/-- What a sample leaves of a sensor (R428, R429). -/
def Sensed (t : State) (n : Nat) (powered bad : Bool) (r : Nat) : Prop :=
  if powered then t.getF (Reg.THM_TEMP_TEMP n) = r ∧ t.flag (Reg.THM_TEMP_BAD n) = bad ∧ t.flag (Reg.THM_TEMP_VALID n) = !bad
  else t.getF (Reg.THM_TEMP_TEMP n) = 0 ∧ t.flag (Reg.THM_TEMP_VALID n) = false

theorem getF_of_reg {s t : State} {f : Field} (h : t.reg f.reg = s.reg f.reg) : t.getF f = s.getF f := by
  unfold State.getF
  rw [h]

theorem flag_of_reg {s t : State} {f : Field} (h : t.reg f.reg = s.reg f.reg) : t.flag f = s.flag f := by
  unfold State.flag
  rw [getF_of_reg h]

theorem Sensed.of_reg {t u : State} {n r : Nat} {p b : Bool} (h : Sensed t n p b r) (hreg : u.reg (Reg.THM_TEMP n) = t.reg (Reg.THM_TEMP n)) :
    Sensed u n p b r := by
  unfold Sensed at h ⊢
  rwa [getF_of_reg (f := Reg.THM_TEMP_TEMP n) hreg, flag_of_reg (f := Reg.THM_TEMP_BAD n) hreg, flag_of_reg (f := Reg.THM_TEMP_VALID n) hreg]

/-- A powered sensor's register written. -/
def sensorWritten (bad : Bool) : State :=
  ((s.setF (Reg.THM_TEMP_TEMP n) r).putF (Reg.THM_TEMP_BAD n) bad).putF (Reg.THM_TEMP_VALID n) (!bad)

/-- A sensor's reading kept in its history. -/
def sensorKept (t : State) (n : Nat) (h : List (Nat × Nat)) : State := { t with th := { t.th with hist := tset (fun _ => []) t.th.hist n h } }

theorem separate_sensor : Separate [Reg.THM_TEMP_VALID n, Reg.THM_TEMP_BAD n, Reg.THM_TEMP_TEMP n] := by
  simp [Separate, Field.Fits, Field.Apart, Reg.THM_TEMP_VALID, Reg.THM_TEMP_BAD, Reg.THM_TEMP_TEMP]

theorem sensed_sensorWritten (hr : r < 2048) (bad : Bool) : Sensed (sensorWritten s n r bad) n true bad r := by
  have hw := (((Wrote.refl s).setF (Reg.THM_TEMP_TEMP n) r).putF (Reg.THM_TEMP_BAD n) bad).putF (Reg.THM_TEMP_VALID n) (!bad)
  have hsep := separate_sensor n
  exact ⟨hw.getF hsep (by simp) hr, hw.flag hsep (by simp), hw.flag hsep (by simp)⟩

theorem sampleSensor_powered (hr : r < 2048) (hp : sensorPowered s n = true) : ∃ h, sampleSensor failed s (n, r) =
    if sensorFails s failed n r && !s.flag (Reg.THM_TEMP_BAD n)
      then ((sensorKept (sensorWritten s n r (sensorFails s failed n r)) n h).raiseF Reg.THM_FLAG_BADSENS).raiseEv 220
      else sensorKept (sensorWritten s n r (sensorFails s failed n r)) n h := by
  refine ⟨((s.th.now, r) :: tget (fun _ => []) s.th.hist n).take 40, ?_⟩
  unfold sampleSensor sensorFails sensorJumps
  dsimp only
  rw [if_pos hp, Nat.mod_eq_of_lt hr]
  cases hhead : (tget (fun _ => []) s.th.hist n).head? with
  | none => rfl
  | some e => rfl

theorem sampleSensor_unpowered (hp : sensorPowered s n = false) : sampleSensor failed s (n, r) =
    sensorKept ((s.setF (Reg.THM_TEMP_TEMP n) 0).putF (Reg.THM_TEMP_VALID n) false) n [] := by
  unfold sampleSensor
  exact if_neg (by simp [hp])

theorem sensorOnly_sampleSensor (nr : Nat × Nat) : SensorOnly s (sampleSensor failed s nr) := by
  unfold sampleSensor
  refine .ite (.ite ?_ ?_) ?_
  · exact ((((((SensorOnly.refl s).setF _ _).putF _ _).putF _ _).withTh _).raiseF _).raiseEv _
  · exact ((((SensorOnly.refl s).setF _ _).putF _ _).putF _ _).withTh _
  · exact (((SensorOnly.refl s).setF _ _).putF _ _).withTh _

/-- Sampling one sensor keeps the time, the other sensors and their histories. -/
def OneSensor (s t : State) (n : Nat) : Prop :=
  t.th.now = s.th.now ∧ ∀ m, m ≠ n → t.reg (Reg.THM_TEMP m) = s.reg (Reg.THM_TEMP m) ∧
    tget (fun _ => []) t.th.hist m = tget (fun _ => []) s.th.hist m

theorem thm_temp_ne {m n : Nat} (h : m ≠ n) : Reg.THM_TEMP m ≠ Reg.THM_TEMP n := by
  simp only [Reg.THM_TEMP]
  omega

theorem oneSensor_sensorKept {t : State} (h : List (Nat × Nat)) (hth : t.th = s.th)
    (hregs : ∀ m, m ≠ n → t.reg (Reg.THM_TEMP m) = s.reg (Reg.THM_TEMP m)) : OneSensor s (sensorKept t n h) n := by
  refine ⟨(congrArg Thermal.now hth :), fun m hm => ⟨hregs m hm, ?_⟩⟩
  exact (tget_tset_ne _ _ _ _ _ hm).trans (congrArg (fun v : Thermal => tget (fun _ => []) v.hist m) hth)

theorem OneSensor.badsens {t : State} (h : OneSensor s t n) : OneSensor s ((t.raiseF Reg.THM_FLAG_BADSENS).raiseEv 220) n := by
  obtain ⟨hnow, hrest⟩ := h
  have hth : ((t.raiseF Reg.THM_FLAG_BADSENS).raiseEv 220).th = t.th := by rw [raiseEv_th]; rfl
  refine ⟨by rw [hth, hnow], fun m hm => ⟨?_, by rw [hth, (hrest m hm).2]⟩⟩
  rw [reg_raiseEv, reg_raiseF, reg_setF_ne _ _ _ _ (by simp only [Reg.THM_TEMP, Reg.THM_FLAG_BADSENS, Reg.THM_FLAG]; omega), (hrest m hm).1]

/-- One sensor sampled (R428, R429). -/
theorem sampleSensor_reads (hr : r < 2048) : Sensed (sampleSensor failed s (n, r)) n (sensorPowered s n) (sensorFails s failed n r) r ∧
    OneSensor s (sampleSensor failed s (n, r)) n := by
  cases hp : sensorPowered s n with
  | false =>
    rw [sampleSensor_unpowered s failed n r hp]
    have hsep : Separate [Reg.THM_TEMP_VALID n, Reg.THM_TEMP_TEMP n] := by
      simp [Separate, Field.Fits, Field.Apart, Reg.THM_TEMP_VALID, Reg.THM_TEMP_TEMP]
    have hw := ((Wrote.refl s).setF (Reg.THM_TEMP_TEMP n) 0).putF (Reg.THM_TEMP_VALID n) false
    refine ⟨⟨hw.getF hsep (by simp) (by simp [Reg.THM_TEMP_TEMP]), hw.flag (b := false) hsep (by simp)⟩, oneSensor_sensorKept s n [] rfl fun m hm => ?_⟩
    exact (reg_setF_ne _ _ _ _ (thm_temp_ne hm)).trans (reg_setF_ne _ _ _ _ (thm_temp_ne hm))
  | true =>
    obtain ⟨h, heq⟩ := sampleSensor_powered s failed n r hr hp
    have hsensed : Sensed (sensorKept (sensorWritten s n r (sensorFails s failed n r)) n h) n true (sensorFails s failed n r) r :=
      (sensed_sensorWritten s n r hr _).of_reg rfl
    have hone : OneSensor s (sensorKept (sensorWritten s n r (sensorFails s failed n r)) n h) n :=
      oneSensor_sensorKept s n h rfl fun m hm =>
        ((reg_setF_ne _ _ _ _ (thm_temp_ne hm)).trans (reg_setF_ne _ _ _ _ (thm_temp_ne hm))).trans (reg_setF_ne _ _ _ _ (thm_temp_ne hm))
    rw [heq]
    split
    · refine ⟨hsensed.of_reg ?_, hone.badsens⟩
      rw [reg_raiseEv, reg_raiseF, reg_setF_ne _ _ _ _ (by simp only [Reg.THM_TEMP, Reg.THM_FLAG_BADSENS, Reg.THM_FLAG]; omega)]
    · exact ⟨hsensed, hone⟩

end

/-! ### Every sensor sampled -/

section
variable (s : State) (failed : List Nat) (r : Nat → Nat)

/-- The sensors below a number sampled. -/
def sensorsSampled (k : Nat) : State := (List.range k).foldl (fun acc n => sampleSensor failed acc (n, r n)) s

theorem sensorsSampled_succ (k : Nat) : sensorsSampled s failed r (k + 1) = sampleSensor failed (sensorsSampled s failed r k) (k, r k) := by
  unfold sensorsSampled
  rw [List.range_succ, List.foldl_concat]

theorem sensorOnly_sensorsSampled (k : Nat) : SensorOnly s (sensorsSampled s failed r k) :=
  (SensorOnly.refl s).foldl (fun u n => sensorOnly_sampleSensor u failed (n, r n)) _

theorem sensorPowered_sensorsSampled (k n : Nat) : sensorPowered (sensorsSampled s failed r k) n = sensorPowered s n :=
  (sensorOnly_sensorsSampled s failed r k).keeps (fun x => sensorPowered x n) fun _ _ _ _ _ _ _ => rfl

/-- Each sensor is judged by the state before the sample. -/
theorem sensorsSampled_reads (hr : ∀ n, r n < 2048) (k : Nat) : (sensorsSampled s failed r k).th.now = s.th.now ∧
    (∀ n < k, Sensed (sensorsSampled s failed r k) n (sensorPowered s n) (sensorFails s failed n (r n)) (r n)) ∧
    ∀ n, k ≤ n → (sensorsSampled s failed r k).reg (Reg.THM_TEMP n) = s.reg (Reg.THM_TEMP n) ∧
      tget (fun _ => []) (sensorsSampled s failed r k).th.hist n = tget (fun _ => []) s.th.hist n := by
  induction k with
  | zero => exact ⟨rfl, fun n hn => absurd hn (Nat.not_lt_zero n), fun n _ => ⟨rfl, rfl⟩⟩
  | succ k ih =>
    obtain ⟨hnow, hdone, hrest⟩ := ih
    have hpow := sensorPowered_sensorsSampled s failed r k k
    have hfails : sensorFails (sensorsSampled s failed r k) failed k (r k) = sensorFails s failed k (r k) := by
      unfold sensorFails sensorJumps
      rw [flag_of_reg (f := Reg.THM_TEMP_BAD k) (hrest k le_rfl).1, (hrest k le_rfl).2]
    obtain ⟨hsensed, hnow2, hother⟩ := sampleSensor_reads (sensorsSampled s failed r k) failed k (r k) (hr k)
    rw [hpow, hfails] at hsensed
    rw [sensorsSampled_succ]
    refine ⟨hnow2.trans hnow, fun n hn => ?_, fun n hn => ?_⟩
    · by_cases hk : n = k
      · subst hk
        exact hsensed
      · exact (hdone n (by omega)).of_reg (hother n hk).1
    · obtain ⟨hreg, hhist⟩ := hother n (by omega)
      exact ⟨hreg.trans (hrest n (by omega)).1, hhist.trans (hrest n (by omega)).2⟩

end

/-! ### What the judgement of a sample keeps -/

/-- The sensors' registers and the time stand. -/
def SensesKept (s t : State) : Prop :=
  SensorOnly s t ∧ t.th.now = s.th.now ∧ ∀ n < 272, t.reg (Reg.THM_TEMP n) = s.reg (Reg.THM_TEMP n)

section
variable {s t u : State}

theorem SensesKept.refl (s : State) : SensesKept s s := ⟨.refl s, rfl, fun _ _ => rfl⟩

theorem SensesKept.trans (h : SensesKept s t) (h2 : SensesKept t u) : SensesKept s u :=
  ⟨h.1.trans h2.1, h2.2.1.trans h.2.1, fun n hn => (h2.2.2 n hn).trans (h.2.2 n hn)⟩

theorem SensesKept.ite {c : Prop} [Decidable c] (h : SensesKept s t) (h2 : SensesKept s u) : SensesKept s (if c then t else u) := by
  split <;> assumption

theorem SensesKept.foldl {α : Type} (h : SensesKept s t) {g : State → α → State} (hg : ∀ u x, SensesKept u (g u x)) (l : List α) :
    SensesKept s (l.foldl g t) := by
  induction l generalizing t with
  | nil => exact h
  | cons x l ih => exact ih (h.trans (hg t x))

/-- A register outside the sensors. -/
theorem SensesKept.setF (h : SensesKept s t) (f : Field) (v : Nat) (hf : ∀ n < 272, Reg.THM_TEMP n ≠ f.reg) : SensesKept s (t.setF f v) :=
  ⟨h.1.setF f v, h.2.1, fun n hn => (reg_setF_ne _ _ _ _ (hf n hn)).trans (h.2.2 n hn)⟩

theorem SensesKept.raiseF (h : SensesKept s t) (f : Field) (hf : ∀ n < 272, Reg.THM_TEMP n ≠ f.reg) : SensesKept s (t.raiseF f) :=
  ⟨h.1.raiseF f, h.2.1, fun n hn => (h.setF f 1 hf).2.2 n hn⟩

theorem SensesKept.incF (h : SensesKept s t) (f : Field) (hf : ∀ n < 272, Reg.THM_TEMP n ≠ f.reg) : SensesKept s (t.incF f) :=
  ⟨h.1.incF f, h.2.1, fun n hn => (reg_setReg_ne _ _ _ _ (hf n hn)).trans (h.2.2 n hn)⟩

theorem SensesKept.raiseEv (h : SensesKept s t) (e : Nat) : SensesKept s (t.raiseEv e) :=
  ⟨h.1.raiseEv e, (congrArg Thermal.now (raiseEv_th t e)).trans h.2.1, fun n hn => (reg_raiseEv t e _).trans (h.2.2 n hn)⟩

theorem SensesKept.withTh (h : SensesKept s t) (v : Thermal) (hv : v.now = t.th.now) : SensesKept s { t with th := v } :=
  ⟨h.1.withTh v, hv.trans h.2.1, h.2.2⟩

end

section
variable (s : State)

theorem thm_temp_below {n o : Nat} (h : o < 0x40100) : Reg.THM_TEMP n ≠ o := by
  simp only [Reg.THM_TEMP]
  omega

theorem thm_temp_above {n o : Nat} (hn : n < 272) (h : 0x40540 ≤ o) : Reg.THM_TEMP n ≠ o := by
  simp only [Reg.THM_TEMP]
  omega

theorem sensesKept_sampleJudge : SensesKept s (sampleJudge s) := by
  have hlow (f : Field) (hf : f.reg < 0x40100) : ∀ n < 272, Reg.THM_TEMP n ≠ f.reg := fun n _ => thm_temp_below hf
  have hhot (v : Nat) : SensesKept s (s.setF Reg.THM_STAT_HOT v) := (SensesKept.refl s).setF _ _ (hlow _ (by decide))
  have hwarn (v : Nat) (b : Bool) : SensesKept s
      (if b then ((s.setF Reg.THM_STAT_HOT v).raiseF Reg.THM_FLAG_WARN).raiseEv 220 else s.setF Reg.THM_STAT_HOT v) :=
    .ite (((hhot v).raiseF _ (hlow _ (by decide))).raiseEv _) (hhot v)
  unfold sampleJudge
  dsimp only
  refine SensesKept.withTh (.ite ((((hwarn _ _).raiseF _ (hlow _ (by decide))).incF _ (hlow _ (by decide))).raiseEv _) (hwarn _ _)) _ rfl

theorem sensesKept_sampleRate (step : Nat) : SensesKept s (sampleRate s step) := by
  have hne : ∀ n < 272, Reg.THM_TEMP n ≠ Reg.THM_STAT_FAST.reg := fun n _ => thm_temp_below (by decide)
  unfold sampleRate
  split
  · exact ((SensesKept.refl s).raiseF _ hne).withTh _ rfl
  · exact ((SensesKept.refl s).setF _ _ hne).withTh _ rfl

theorem sensesKept_trimCompensate : SensesKept s (trimCompensate s) := by
  unfold trimCompensate
  refine .ite (.refl s) ?_
  have hdraw : SensesKept s { s with fresh := s.fresh + 1 } := ⟨rfl, rfl, fun _ _ => rfl⟩
  exact (hdraw.setF _ _ fun n _ => thm_temp_below (by decide)).withTh _ rfl

theorem sensesKept_hotFollows (c : Nat) : SensesKept s (hotFollows s c) :=
  (SensesKept.refl s).setF _ _ fun n hn => thm_temp_above hn (by simp only [Reg.MEMC_STAT_HOT, Reg.MEMC_STAT]; omega)

theorem sensesKept_pllTemperature (q : Nat) : SensesKept s (pllTemperature s q) := by
  unfold pllTemperature
  refine .ite ?_ (.refl s)
  have hdue : SensesKept s { s with pllDue := tset (fun _ => false) s.pllDue q true } := ⟨rfl, rfl, fun _ _ => rfl⟩
  exact (hdue.raiseF _ fun n hn => thm_temp_above hn (by simp only [Reg.LQ_PLL_STAT_VCAL_DUE, Reg.LQ_PLL_STAT]; omega)).raiseEv _

/-- The state after a sample and its judgement (R428 to R432). -/
def sampleJudged (failed : List Nat) (r : Nat → Nat) (step : Nat) : State :=
  (List.range 36).foldl pllTemperature ((List.range 16).foldl hotFollows
    (trimCompensate (sampleRate (sampleJudge (sensorsSampled s failed r 272)) step)))

/-- Where a memory channel's HOT stands for a sensor of its die above 85 °C (R290, R293). -/
def dieHot (c : Nat) : Bool := (List.range 4).any fun i => decide (4 * (85 + 64) < s.getF (Reg.THM_TEMP_TEMP (256 + 4 * (c / 4) + i)))

variable {s} in
theorem dieHot_of_kept {t : State} (h : ∀ n < 272, t.reg (Reg.THM_TEMP n) = s.reg (Reg.THM_TEMP n)) {c : Nat} (hc : c < 16) :
    dieHot t c = dieHot s c := by
  have hget (i : Nat) (hi : i < 4) := getF_of_reg (f := Reg.THM_TEMP_TEMP (256 + 4 * (c / 4) + i)) (h _ (by omega))
  unfold dieHot
  rw [Bool.eq_iff_iff, List.any_eq_true, List.any_eq_true]
  exact exists_congr fun i => and_congr_right fun hi => by rw [hget i (List.mem_range.mp hi)]

theorem flag_foldl_hotFollows (k : Nat) (hk : k ≤ 16) : SensesKept s ((List.range k).foldl hotFollows s) ∧
    ∀ c < k, ((List.range k).foldl hotFollows s).flag (Reg.MEMC_STAT_HOT c) = dieHot s c := by
  induction k with
  | zero => exact ⟨.refl s, fun c hc => absurd hc (Nat.not_lt_zero c)⟩
  | succ k ih =>
    obtain ⟨hkept, hhot⟩ := ih (by omega)
    rw [List.range_succ, List.foldl_concat]
    refine ⟨hkept.trans (sensesKept_hotFollows _ k), fun c hc => ?_⟩
    by_cases hck : c = k
    · subst hck
      exact (flag_putF _ _ _ (by simp [Reg.MEMC_STAT_HOT]) (by simp [Reg.MEMC_STAT_HOT])).trans (dieHot_of_kept hkept.2.2 hk)
    · refine (flag_of_reg (reg_setF_ne _ _ _ _ ?_)).trans (hhot c (by omega))
      simp only [Reg.MEMC_STAT_HOT, Reg.MEMC_STAT]
      omega

theorem flag_foldl_pllTemperature (l : List Nat) (c : Nat) :
    (l.foldl pllTemperature s).flag (Reg.MEMC_STAT_HOT c) = s.flag (Reg.MEMC_STAT_HOT c) := by
  refine foldl_keeps (fun x => x.flag (Reg.MEMC_STAT_HOT c)) (fun u q => ?_) l s
  have hne : (Reg.MEMC_STAT_HOT c).reg ≠ (Reg.LQ_PLL_STAT_VCAL_DUE q).reg := by
    simp only [Reg.MEMC_STAT_HOT, Reg.MEMC_STAT, Reg.LQ_PLL_STAT_VCAL_DUE, Reg.LQ_PLL_STAT]
    omega
  unfold pllTemperature
  dsimp only
  split
  · refine (flag_raiseEv _ _ _).trans (flag_of_reg ((reg_raiseF _ _ _).trans ((reg_setF_ne _ _ _ _ hne).trans ?_)))
    exact reg_of_regs rfl _
  · rfl

/-- What a sample leaves (R428 to R430). -/
theorem sampleJudged_reads (failed : List Nat) (r : Nat → Nat) (step : Nat) (hr : ∀ n, r n < 2048) :
    let t := sampleJudged s failed r step
    SensorOnly s t ∧ t.th.now = s.th.now ∧ (∀ n < 272, Sensed t n (sensorPowered s n) (sensorFails s failed n (r n)) (r n)) ∧
      ∀ c < 16, t.flag (Reg.MEMC_STAT_HOT c) = dieHot t c := by
  obtain ⟨hnow, hsensed, -⟩ := sensorsSampled_reads s failed r hr 272
  have hframe := sensorOnly_sensorsSampled s failed r 272
  unfold sampleJudged
  generalize sensorsSampled s failed r 272 = s1 at hnow hsensed hframe ⊢
  have h2 : SensesKept s1 (trimCompensate (sampleRate (sampleJudge s1) step)) :=
    ((sensesKept_sampleJudge _).trans (sensesKept_sampleRate _ step)).trans (sensesKept_trimCompensate _)
  generalize trimCompensate (sampleRate (sampleJudge s1) step) = s2 at h2 ⊢
  obtain ⟨h3, hhot⟩ := flag_foldl_hotFollows s2 16 le_rfl
  generalize (List.range 16).foldl hotFollows s2 = s3 at h3 hhot ⊢
  have h4 := (SensesKept.refl s3).foldl sensesKept_pllTemperature (List.range 36)
  have hkept := h2.trans (h3.trans h4)
  refine ⟨hframe.trans hkept.1, hkept.2.1.trans hnow, fun n hn => (hsensed n hn).of_reg (hkept.2.2 n hn), fun c hc => ?_⟩
  rw [flag_foldl_pllTemperature s3 _ c, hhot c hc, dieHot_of_kept (h3.trans h4).2.2 hc]

end

/-! ### A sample -/

section
variable (s : State) (dt : Nat) (readings : List (BitVec 11)) (failed : List Nat)

/-- The time between two samples in 1/16 ms (R428). -/
def sampleStep : Nat := if s.flag Reg.THM_STAT_FAST then 1 else 16

/-- A reading of a sample. -/
def readingOf (n : Nat) : Nat := ((readings[n]?).getD 0).toNat

/-- The state before the sensors are read. -/
def sampleTime : State := aonPass { s with th := { s.th with now := s.th.now + sampleStep s } } dt

/-- The state after a sample, before shutdown is judged. -/
def sampled : State := sampleJudged (sampleTime s dt) failed (readingOf readings) (sampleStep s)

/-- The sensors that count towards shutdown recorded (R429, R439). -/
def sampleCounted : State :=
  { sampled s dt readings failed with th := { (sampled s dt readings failed).th with
      hot := (List.range 272).filter (countsHot (sampled s dt readings failed) s.th.hot),
      rated := (List.range 272).filter (countsRated (sampled s dt readings failed) s.th.rated),
      cool := coolTime s (sampled s dt readings failed) (sampleStep s) } }

theorem exec_thermalSample_of_calm (hp : s.phase ≠ .unpowered) (hhot : s.th.hot = []) (hrated : s.th.rated = []) :
    exec (.thermalSample dt readings failed) s = .next (sampleCounted s dt readings failed) := by
  have hnone (l : List Nat) : l.find? (fun n => ([] : List Nat).contains n) = none := List.find?_eq_none.mpr (by simp)
  rw [exec_thermalSample]
  unfold execThermalSample sampleCounted
  rw [if_neg hp, hhot, hrated]
  dsimp only
  rw [hnone, hnone]
  rfl

/-- A sensor that counted in the last sample and counts again shuts the device down (R438). -/
theorem exec_thermalSample_of_hot {n : Nat} (hp : s.phase ≠ .unpowered) (hn : n < 272) (hold : n ∈ s.th.hot)
    (hcount : countsHot (sampled s dt readings failed) s.th.hot n = true) (hhot : s.aon.hot = false) : ∃ m ∈ s.th.hot,
    exec (.thermalSample dt readings failed) s = .next (thermalShutdown (sampleCounted s dt readings failed) 1 m) := by
  have hsome : (((List.range 272).filter (countsHot (sampled s dt readings failed) s.th.hot)).find? fun n => s.th.hot.contains n).isSome = true :=
    List.find?_isSome.mpr ⟨n, List.mem_filter.mpr ⟨List.mem_range.mpr hn, hcount⟩, by simpa using hold⟩
  obtain ⟨m, hm⟩ := Option.isSome_iff_exists.mp hsome
  refine ⟨m, by simpa using List.find?_some hm, ?_⟩
  unfold sampled sampleJudged sampleTime sampleStep readingOf sensorsSampled at hm
  rw [exec_thermalSample]
  unfold execThermalSample sampleCounted
  rw [if_neg hp, hhot]
  dsimp only
  rw [hm]
  rfl

theorem sensorFails_iff (n r : Nat) : sensorFails s failed n r = true ↔ s.flag (Reg.THM_TEMP_BAD n) = true ∨ n ∈ failed ∨
    ∃ e ∈ (tget (fun _ => []) s.th.hist n).head?, e.2 + 80 < r ∨ r + 80 < e.2 := by
  unfold sensorFails sensorJumps
  simp [Option.any_eq_true, or_assoc]

/-- What is in the always-on state beside its counters and rails stands over AON time. -/
theorem aonPass_keeps_aon {α : Type} (g : Aon → α) (hg : ∀ a n r v l, g { a with ticks := n, res := r, vinFor := v, rails := l } = g a) :
    g (aonPass s dt).aon = g s.aon := by
  by_cases h : s.phase = .unpowered ∨ dt = 0
  · rw [aonPass_of_none s dt h]
  · rw [aon_aonPass s dt (by tauto) (by tauto)]
    have hrails := aon_railsPass (aonCounted s dt) dt
    rw [aonCounted_aon s dt] at hrails
    generalize (railsPass (aonCounted s dt) dt).aon = a at hrails ⊢
    exact (hg a a.ticks a.res a.vinFor s.aon.rails).symm.trans ((congrArg g hrails).trans (hg s.aon _ _ _ s.aon.rails))

theorem sampleTime_reads (hp : s.phase ≠ .unpowered) : (sampleTime s dt).phase = s.phase ∧ (sampleTime s dt).aon.ticks = s.aon.ticks + dt ∧
    (sampleTime s dt).aon.hot = s.aon.hot ∧ (sampleTime s dt).aon.cause = s.aon.cause ∧
    (sampleTime s dt).th = { s.th with now := s.th.now + sampleStep s } ∧
    (sampleTime s dt).stores = s.stores ∧ (sampleTime s dt).fuses = s.fuses ∧
    ∀ n < 272, (sampleTime s dt).reg (Reg.THM_TEMP n) = s.reg (Reg.THM_TEMP n) := by
  have hpass := aonOnly_aonPass { s with th := { s.th with now := s.th.now + sampleStep s } } dt
  have hticks := ticks_aonPass { s with th := { s.th with now := s.th.now + sampleStep s } } dt hp
  have hhot := aonPass_keeps_aon { s with th := { s.th with now := s.th.now + sampleStep s } } dt Aon.hot fun _ _ _ _ _ => rfl
  have hcause := aonPass_keeps_aon { s with th := { s.th with now := s.th.now + sampleStep s } } dt Aon.cause fun _ _ _ _ _ => rfl
  unfold sampleTime
  generalize aonPass { s with th := { s.th with now := s.th.now + sampleStep s } } dt = t at hpass hticks hhot hcause ⊢
  have hout : ∀ f ∈ tickFields, f.reg < 0x40100 ∨ 0x40540 ≤ f.reg := by decide
  exact ⟨hpass.keeps State.phase fun _ _ _ _ => rfl, hticks, hhot, hcause, hpass.keeps State.th fun _ _ _ _ => rfl,
    hpass.keeps State.stores fun _ _ _ _ => rfl, hpass.keeps State.fuses fun _ _ _ _ => rfl,
    fun n hn => reg_of_bitsBut hpass.1 fun f hf => ((hout f hf).elim thm_temp_below (thm_temp_above hn)).symm⟩

/-- What a sample leaves, by the state before it (R428, R429). -/
theorem sampled_reads (hp : s.phase ≠ .unpowered) :
    let t := sampled s dt readings failed
    t.phase = s.phase ∧ t.aon.ticks = s.aon.ticks + dt ∧ t.aon.hot = s.aon.hot ∧ t.aon.cause = s.aon.cause ∧ t.th.now = s.th.now + sampleStep s ∧
    t.stores = s.stores ∧ t.fuses = s.fuses ∧
    (∀ n < 272, Sensed t n (sensorPowered s n) (sensorFails s failed n (readingOf readings n)) (readingOf readings n)) ∧
    ∀ c < 16, t.flag (Reg.MEMC_STAT_HOT c) = dieHot t c := by
  obtain ⟨hphase, hticks, hhot, hcause, hth, hstores, hfuses, hreg⟩ := sampleTime_reads s dt hp
  have hread := sampleJudged_reads (sampleTime s dt) failed (readingOf readings) (sampleStep s) fun n => BitVec.isLt _
  have hpow (n : Nat) : sensorPowered (sampleTime s dt) n = sensorPowered s n := by
    unfold sensorPowered
    rw [hphase, hhot]
  have hfails (n r : Nat) (hn : n < 272) : sensorFails (sampleTime s dt) failed n r = sensorFails s failed n r := by
    unfold sensorFails sensorJumps
    rw [flag_of_reg (f := Reg.THM_TEMP_BAD n) (hreg n hn), hth]
  simp only [hpow] at hread
  unfold sampled
  generalize sampleJudged (sampleTime s dt) failed (readingOf readings) (sampleStep s) = t at hread ⊢
  obtain ⟨hframe, hnow, hsensed, hdie⟩ := hread
  exact ⟨(hframe.keeps State.phase fun _ _ _ _ _ _ _ => rfl).trans hphase,
    (hframe.keeps (fun x => x.aon.ticks) fun _ _ _ _ _ _ _ => rfl).trans hticks, (hframe.keeps (fun x => x.aon.hot) fun _ _ _ _ _ _ _ => rfl).trans hhot,
    (hframe.keeps (fun x => x.aon.cause) fun _ _ _ _ _ _ _ => rfl).trans hcause, hnow.trans (congrArg Thermal.now hth),
    (hframe.keeps State.stores fun _ _ _ _ _ _ _ => rfl).trans hstores,
    (hframe.keeps State.fuses fun _ _ _ _ _ _ _ => rfl).trans hfuses,
    fun n hn => hfails n _ hn ▸ hsensed n hn, hdie⟩

end

theorem coolNow_of_regs {s t : State} (h : t.regs = s.regs) : coolNow t = coolNow s := by
  have hflag (f : Field) : t.flag f = s.flag f := flag_of_regs h f
  have hget (f : Field) : t.getF f = s.getF f := getF_of_regs h f
  unfold coolNow coolSensors sensorValid sensorTemp
  simp only [hflag, hget]

theorem dieHot_iff (s : State) (c : Nat) : dieHot s c = true ↔
    ∃ i, i < 4 ∧ 4 * (85 + 64) < s.getF (Reg.THM_TEMP_TEMP (256 + 4 * (c / 4) + i)) := by
  unfold dieHot
  simp

/-- A state that differs in the sensors' record alone from one after a sample. -/
theorem coolTime_eq (was s : State) (step : Nat) :
    coolTime was s step = if coolNow s = true ∧ coolNow was = true then was.th.cool + step else 0 := by
  unfold coolTime
  split <;> split <;> simp_all

theorem le_temp_of_countsHot {s : State} {old : List Nat} {n : Nat} (h : countsHot s old n = true) (hv : s.flag (Reg.THM_TEMP_VALID n) = true) :
    4 * (110 + 64) ≤ s.getF (Reg.THM_TEMP_TEMP n) := by
  unfold countsHot at h
  rw [if_pos (show sensorValid s n = true from hv)] at h
  exact of_decide_eq_true h

theorem countsHot_of_valid {s : State} {old : List Nat} {n : Nat} (hv : s.flag (Reg.THM_TEMP_VALID n) = true)
    (h : 4 * (110 + 64) ≤ s.getF (Reg.THM_TEMP_TEMP n)) : countsHot s old n = true := by
  unfold countsHot
  rw [if_pos (show sensorValid s n = true from hv)]
  exact decide_eq_true h

/-! ### Always-on fields over a reset -/

section
variable (s : State)

theorem wrote_keepFields (old : State) (fs : List Field) : Wrote ((fs.map fun f => (f, old.getF f)).reverse) s (keepFields old s fs) := by
  simpa [keepFields] using (Wrote.refl s).foldl fs id fun f => old.getF f

theorem separate_alwaysOn : Separate alwaysOn := .of_ok rfl

/-- The registers that a reset writes after the always-on ones. -/
theorem getF_trimmed (code : Nat) (b : Bool) {f : Field} (hf : f ∈ alwaysOn) :
    ((s.setF Reg.CLK_TCODE_CODE code).putF Reg.VLT_STAT_FUSE_BUSY b).getF f = s.getF f := by
  have hout : ∀ f ∈ alwaysOn, f.reg ≠ Reg.CLK_TCODE_CODE.reg ∧ f.reg ≠ Reg.VLT_STAT_FUSE_BUSY.reg := by decide
  exact getF_of_reg ((reg_setF_ne _ _ _ _ (hout f hf).2).trans (reg_setF_ne _ _ _ _ (hout f hf).1))

theorem getF_keepFields (old : State) {fs : List Field} (hsep : Separate fs) {f : Field} (hf : f ∈ fs) :
    (keepFields s old fs).getF f = s.getF f := by
  have hw := wrote_keepFields old s fs
  have hfst : (fs.map fun f => (f, s.getF f)).reverse.map Prod.fst = fs.reverse := by simp [List.map_reverse, Function.comp_def]
  have hsep2 := hsep.reverse
  rw [← hfst] at hsep2
  refine (hw.getF_mod hsep2 (List.mem_reverse.mpr (List.mem_map.mpr ⟨f, hf, rfl⟩))).trans ?_
  exact Nat.mod_mod _ _

/-- An always-on field after everything else is reset (R398). -/
theorem getF_blank (p : Phase) {f : Field} (hf : f ∈ alwaysOn) : (blank s p alwaysOn).getF f = s.getF f := by
  unfold blank
  dsimp only
  rw [getF_trimmed _ _ _ hf]
  exact getF_keepFields s _ separate_alwaysOn hf

/-- No start begins while the die is hot (R439). -/
theorem stepTwo_of_hot (h : s.aon.hot = true) : stepTwo s = s := by
  unfold stepTwo
  exact if_neg (by simp [h])

end

section
variable (s : State) (cause sub : Nat)

/-- A reset with the die hot (R398, R438). -/
theorem deviceReset_of_hot (h : s.aon.hot = true) : (∀ f ∈ alwaysOn, (deviceReset s cause sub).getF f = s.getF f) ∧
    (s.aon.alarm = true → (deviceReset s cause sub).flag Reg.RST_ALARM_PIN = true) := by
  have hout : ∀ f ∈ alwaysOn, f.reg ≠ Reg.RST_ALARM_PIN.reg := by decide
  have heq : deviceReset s cause sub = setAlarm { blank s .waiting alwaysOn with aon := resetAon s cause sub, clk := clocksReset s } :=
    stepTwo_of_hot _ h
  have hblank (f : Field) (hf : f ∈ alwaysOn) := getF_blank s .waiting hf
  rw [heq]
  generalize blank s .waiting alwaysOn = b at hblank ⊢
  refine ⟨fun f hf => ?_, fun ha => ?_⟩
  · exact ((getF_of_reg (reg_setF_ne _ _ _ _ (hout f hf))).trans (getF_of_regs rfl f)).trans (hblank f hf)
  · refine (flag_putF _ _ _ (by decide) (by decide)).trans ?_
    simp [alarmDue, resetAon, ha]

end

/-! ### Shutdown -/

section
variable (s : State) (sub sensor : Nat) (hsub : sub < 16) (hsensor : sensor < 512)

/-- The state that a thermal shutdown is recorded in (R438). -/
def shutdownMarked : State :=
  vbDown { (s.setF Reg.THM_TRIP_SUB sub).setF Reg.THM_TRIP_SENSOR sensor with
    aon := { s.aon with hot := true, alarm := true }, th := { s.th with cool := 0 } }

theorem thermalShutdown_of_held (h : s.phase = .integrity ∨ s.phase = .bistHeld) : thermalShutdown s sub sensor = shutdownMarked s sub sensor := by
  unfold thermalShutdown
  exact if_pos h

theorem thermalShutdown_of_not_held (h : s.phase ≠ .integrity) (h2 : s.phase ≠ .bistHeld) :
    thermalShutdown s sub sensor = deviceReset (shutdownMarked s sub sensor) 5 sub := by
  unfold thermalShutdown
  exact if_neg (by simp [h, h2])

include hsub hsensor in
theorem getF_shutdownMarked : (shutdownMarked s sub sensor).getF Reg.THM_TRIP_SUB = sub ∧
    (shutdownMarked s sub sensor).getF Reg.THM_TRIP_SENSOR = sensor := by
  have hw := ((Wrote.refl s).setF Reg.THM_TRIP_SUB sub).setF Reg.THM_TRIP_SENSOR sensor
  have hsep : Separate [Reg.THM_TRIP_SENSOR, Reg.THM_TRIP_SUB] := .of_ok rfl
  exact ⟨(getF_of_regs (vbDown_regs _) _).trans (hw.getF hsep (.tail _ (.head _)) hsub),
    (getF_of_regs (vbDown_regs _) _).trans (hw.getF hsep (.head _) hsensor)⟩

include hsub in
/-- A shutdown in a halt (R438). -/
theorem thermalShutdown_of_held_reads (h : s.phase = .integrity ∨ s.phase = .bistHeld) :
    let t := thermalShutdown s sub sensor
    t.phase = s.phase ∧ t.aon.hot = true ∧ t.aon.alarm = true ∧ t.aon.vb = false ∧ t.getF Reg.THM_TRIP_SUB = sub ∧ t.fuses = s.fuses ∧
      t.flash = s.flash := by
  have hw := ((Wrote.refl s).setF Reg.THM_TRIP_SUB sub).setF Reg.THM_TRIP_SENSOR sensor
  have hsep : Separate [Reg.THM_TRIP_SENSOR, Reg.THM_TRIP_SUB] := .of_ok rfl
  rw [thermalShutdown_of_held s sub sensor h]
  exact ⟨rfl, rfl, rfl, rfl, (getF_of_regs (vbDown_regs _) _).trans (hw.getF hsep (.tail _ (.head _)) hsub), rfl, rfl⟩

include hsub hsensor in
/-- The device after a shutdown outside a halt (R398, R438). -/
theorem thermalShutdown_of_not_held_reads (h : s.phase ≠ .integrity) (h2 : s.phase ≠ .bistHeld) :
    let t := thermalShutdown s sub sensor
    t.phase = .waiting ∧ t.aon.hot = true ∧ t.clockOn = false ∧ t.flag Reg.RST_ALARM_PIN = true ∧ t.getF Reg.THM_TRIP_SUB = sub ∧
      t.getF Reg.THM_TRIP_SENSOR = sensor ∧ t.aon.cause = some (firstCause s.aon.cause (5, sub)) ∧ t.fuses = s.fuses ∧ t.flash = s.flash ∧
      t.bmem = [] := by
  obtain ⟨htrip, htripped⟩ := getF_shutdownMarked s sub sensor hsub hsensor
  obtain ⟨hfield, halarm⟩ := deviceReset_of_hot (shutdownMarked s sub sensor) 5 sub rfl
  have hsubmem : Reg.THM_TRIP_SUB ∈ alwaysOn := by decide
  have hsensormem : Reg.THM_TRIP_SENSOR ∈ alwaysOn := by decide
  have heq := deviceReset_eq (shutdownMarked s sub sensor) 5 sub
  rw [thermalShutdown_of_not_held s sub sensor h h2]
  generalize deviceReset (shutdownMarked s sub sensor) 5 sub = t at hfield halarm heq ⊢
  have haon : t.aon = resetAon (shutdownMarked s sub sensor) 5 sub := congrArg State.aon heq
  refine ⟨(congrArg State.phase heq :), congrArg Aon.hot haon, (congrArg State.clockOn heq :), halarm rfl, (hfield _ hsubmem).trans htrip,
    (hfield _ hsensormem).trans htripped, congrArg Aon.cause haon, (congrArg State.fuses heq :), (congrArg State.flash heq :),
    (congrArg State.bmem heq :)⟩

end

/-! ### The governor and its duty -/

section
variable (s : State)

theorem plWritten_bounds : 50 ≤ plWritten s ∧ plWritten s ≤ 300 := by
  unfold plWritten clampN
  omega

theorem plOf_lt {m n : Nat} (h : m ≤ 300) : plOf m n < 65536 := by
  unfold plOf
  have hmul : 8 * m * (16 - n) ≤ 8 * 300 * 16 := Nat.mul_le_mul (by omega) (by omega)
  omega

/-- What a step of the governor leaves (R434, R437). -/
theorem stepTo_reads {m : Nat} (hm : m < 32) :
    let n := s.getF Reg.THM_STAT_STEP
    let t := stepTo s m
    t.getF Reg.THM_STAT_STEP = m ∧ t.getF Reg.THM_PLNOW_PL = plOf (plWritten s) m ∧
      t.th = { s.th with plMax := plWritten s, dwell := s.getF Reg.THM_PL_DWELL } ∧
      t.getF Reg.THM_CNT_STEP_CNT = (if m = n then s.getF Reg.THM_CNT_STEP_CNT else min (s.getF Reg.THM_CNT_STEP_CNT + 1) 65535) ∧
      t.raised = (if m = n then s else s.raiseEv 219).raised ∧
      BitsBut [Reg.THM_STAT_STEP, Reg.THM_PLNOW_PL, Reg.THM_CNT_STEP_CNT] s t ∧
      { t with regs := s.regs, cyc := s.cyc, raised := s.raised, th := s.th } = s := by
  have hpl := plOf_lt (n := m) (plWritten_bounds s).2
  have hw := ((Wrote.refl s).setF Reg.THM_STAT_STEP m).setF Reg.THM_PLNOW_PL (plOf (plWritten s) m)
  have hset : Wrote [(Reg.THM_PLNOW_PL, plOf (plWritten s) m), (Reg.THM_STAT_STEP, m)] s (setStep s m) := hw.of_regs rfl
  have hsep : Separate [Reg.THM_PLNOW_PL, Reg.THM_STAT_STEP] := .of_ok rfl
  have hsep2 : Separate [Reg.THM_CNT_STEP_CNT, Reg.THM_PLNOW_PL, Reg.THM_STAT_STEP] := .of_ok rfl
  have hcnt := hset.addF (f := Reg.THM_CNT_STEP_CNT) 1 hsep2 (m := 65535) rfl
  have hlt : s.getF Reg.THM_CNT_STEP_CNT < 65536 := Nat.mod_lt _ (by decide)
  intro n t
  by_cases hmn : m = n
  · have ht : t = setStep s m := if_pos hmn
    rw [ht, if_pos hmn, if_pos hmn]
    refine ⟨hset.getF hsep (.tail _ (.head _)) hm, hset.getF hsep (.head _) hpl, rfl, ?_, rfl, bitsBut_mono (hset.bitsBut hsep) (by simp), rfl⟩
    exact (getF_setF_reg_ne _ _ _ _ (by decide)).trans (getF_setF_reg_ne _ _ _ _ (by decide))
  · have ht : t = ((setStep s m).incF Reg.THM_CNT_STEP_CNT).raiseEv 219 := if_neg hmn
    have hev := hcnt.raiseEv 219
    rw [ht, if_neg hmn, if_neg hmn]
    refine ⟨hev.getF hsep2 (.tail _ (.tail _ (.head _))) hm, hev.getF hsep2 (.tail _ (.head _)) hpl, ?_, hev.getF hsep2 (.head _) ?_, ?_,
      bitsBut_mono (hev.bitsBut hsep2) (by simp), ?_⟩
    · exact (raiseEv_th _ _).trans rfl
    · exact (Nat.min_le_right _ _).trans_lt (by decide)
    · exact raiseEv_raised_congr 219 rfl (incF_evs _ _) rfl rfl
    · rfl

theorem dwellDue_iff : dwellDue s = true ↔ if s.getF Reg.THM_STAT_STEP = 0 then thmTrigger s = true ∧ s.th.bound ≠ some s.th.now
    else ∀ t, s.th.bound = some t → t + 16 * max 1 s.th.dwell ≤ s.th.now := by
  unfold dwellDue dwellTime
  split
  · simp
  · cases s.th.bound <;> simp

theorem exec_governorDwell_of_not_due (h : s.flag Reg.THM_CTRL_TEN = false ∨ dwellDue s = false) : exec .governorDwell s = .next s := by
  rw [exec_governorDwell]
  unfold execGovernorDwell
  exact if_neg (by rcases h with h | h <;> simp [h])

/-- A dwell boundary that is due, with the step that follows (R434). -/
theorem exec_governorDwell_of_due {m : Nat} (hp : s.phase ≠ .unpowered) (hten : s.flag Reg.THM_CTRL_TEN = true) (hdue : dwellDue s = true)
    (hm : (if thmTrigger s then min 16 (s.getF Reg.THM_STAT_STEP + 1) else if thmCooled s then s.getF Reg.THM_STAT_STEP - 1
      else s.getF Reg.THM_STAT_STEP) = m) :
    exec .governorDwell s = .next { stepTo s m with th := { (stepTo s m).th with bound := some s.th.now } } := by
  subst hm
  rw [exec_governorDwell]
  unfold execGovernorDwell
  exact if_pos (by simp [hp, hten, hdue])

/-- The step that a dwell boundary sets (R434). -/
theorem governorDwell_moves {m : Nat} (hp : s.phase ≠ .unpowered) (hten : s.flag Reg.THM_CTRL_TEN = true) (hdue : dwellDue s = true)
    (hm : (if thmTrigger s then min 16 (s.getF Reg.THM_STAT_STEP + 1) else if thmCooled s then s.getF Reg.THM_STAT_STEP - 1
      else s.getF Reg.THM_STAT_STEP) = m) (hlt : m < 32) :
    ∃ t, exec .governorDwell s = .next t ∧ t.getF Reg.THM_STAT_STEP = m ∧ t.getF Reg.THM_PLNOW_PL = plOf (plWritten s) m ∧
      t.th = { s.th with plMax := plWritten s, dwell := s.getF Reg.THM_PL_DWELL, bound := some s.th.now } ∧
      t.getF Reg.THM_CNT_STEP_CNT =
        (if m = s.getF Reg.THM_STAT_STEP then s.getF Reg.THM_CNT_STEP_CNT else min (s.getF Reg.THM_CNT_STEP_CNT + 1) 65535) ∧
      t.raised = (if m = s.getF Reg.THM_STAT_STEP then s else s.raiseEv 219).raised ∧
      BitsBut [Reg.THM_STAT_STEP, Reg.THM_PLNOW_PL, Reg.THM_CNT_STEP_CNT] s t ∧
      { t with regs := s.regs, cyc := s.cyc, raised := s.raised, th := s.th } = s := by
  have hexec := exec_governorDwell_of_due s hp hten hdue hm
  obtain ⟨hstep, hpl, hth, hcnt, hraised, hbits, hframe⟩ := stepTo_reads s hlt
  generalize stepTo s m = u at hexec hstep hpl hth hcnt hraised hbits hframe
  refine ⟨_, hexec, (getF_of_regs rfl _).trans hstep, (getF_of_regs rfl _).trans hpl, ?_, (getF_of_regs rfl _).trans hcnt, hraised,
    bitsBut_of_regs hbits rfl, hframe⟩
  exact (congrArg (fun v : Thermal => { v with bound := some s.th.now }) hth :)

/-- The duty after a 100 µs average of the total draw (R435). -/
def dutyNext (tot : Nat) : Nat :=
  if !s.flag Reg.THM_CTRL_TEN then 16
  else if s.getF Reg.THM_STAT_STEP = 0 then min 16 (s.getF Reg.THM_STAT_DUTY + 1)
  else if s.getF Reg.THM_PLNOW_PL < tot then max 1 (s.getF Reg.THM_STAT_DUTY - 1)
  else if 8 * tot + s.th.plMax ≤ 4 * (s.th.plMax * (16 - s.getF Reg.THM_STAT_STEP)) then min 16 (s.getF Reg.THM_STAT_DUTY + 1)
  else s.getF Reg.THM_STAT_DUTY

theorem dutyNext_le (tot : Nat) (h : s.getF Reg.THM_STAT_DUTY ≤ 16) : dutyNext s tot ≤ 16 := by
  unfold dutyNext
  split <;> [skip; split <;> [skip; split <;> [skip; split]]] <;> omega

/-- The averages, the duty and DEF_NOW shown (R435, R436). -/
def dutyShown (tot fix : Nat) : State :=
  (((s.setF Reg.THM_POWER_P_TOT tot).setF Reg.THM_POWER_P_FIX fix).setF Reg.THM_STAT_DUTY (dutyNext s tot)).putF Reg.THM_STAT_DEF_NOW
    (decide (s.getF Reg.THM_PLNOW_PL < fix))

/-- DEFICIT raised at its first average (R436). -/
def deficitRaised (t : State) : State := (t.raiseF Reg.THM_FLAG_DEFICIT).raiseEv 218

theorem deficitRaised_frame (u t : State) : { deficitRaised u with regs := t.regs, cyc := t.cyc, raised := t.raised, th := t.th } =
    { u with regs := t.regs, cyc := t.cyc, raised := t.raised, th := t.th } := rfl

theorem wrote_dutyShown (tot fix : Nat) : Wrote [(Reg.THM_STAT_DEF_NOW, (decide (s.getF Reg.THM_PLNOW_PL < fix)).toNat),
    (Reg.THM_STAT_DUTY, dutyNext s tot), (Reg.THM_POWER_P_FIX, fix), (Reg.THM_POWER_P_TOT, tot)] s (dutyShown s tot fix) :=
  ((((Wrote.refl s).setF _ _).setF _ _).setF _ _).putF _ _

/-- DEFICIT raised where the fixed draw is first above PL (R436). -/
theorem exec_dutyAdjust_of_deficit (tot fix : Nat) (hp : s.phase ≠ .unpowered) (habove : s.getF Reg.THM_PLNOW_PL < fix) (hold : s.th.deficit = false) :
    exec (.dutyAdjust tot fix) s = .next { deficitRaised (dutyShown s tot fix) with th := { s.th with deficit := true } } := by
  have hcond : (decide (s.getF Reg.THM_PLNOW_PL < fix) && !s.th.deficit) = true := by simp [habove, hold]
  have hval : (if decide (s.getF Reg.THM_PLNOW_PL < fix) then true else if fix < s.getF Reg.THM_PLNOW_PL then false else s.th.deficit) = true :=
    if_pos (decide_eq_true habove)
  rw [exec_dutyAdjust]
  unfold execDutyAdjust
  rw [if_neg hp]
  dsimp only
  rw [hcond, hval]
  rfl

theorem exec_dutyAdjust_of_no_deficit (tot fix : Nat) (hp : s.phase ≠ .unpowered) (h : fix ≤ s.getF Reg.THM_PLNOW_PL ∨ s.th.deficit = true) :
    exec (.dutyAdjust tot fix) s = .next { dutyShown s tot fix with
      th := { s.th with deficit := !decide (fix < s.getF Reg.THM_PLNOW_PL) && s.th.deficit } } := by
  have hcond : (decide (s.getF Reg.THM_PLNOW_PL < fix) && !s.th.deficit) = false := by
    rcases h with h | h <;> simp [h]
  have hval : (if decide (s.getF Reg.THM_PLNOW_PL < fix) then true else if fix < s.getF Reg.THM_PLNOW_PL then false else s.th.deficit) =
      (!decide (fix < s.getF Reg.THM_PLNOW_PL) && s.th.deficit) := by
    rcases h with h | h
    · rw [if_neg (by simpa using h)]
      split <;> simp [*]
    · rw [h]
      split
      case isTrue habove => simp [Nat.le_of_lt (of_decide_eq_true habove)]
      case isFalse => split <;> simp [*]
  rw [exec_dutyAdjust]
  unfold execDutyAdjust
  rw [if_neg hp]
  dsimp only
  rw [hcond, hval]
  rfl

/-- What the averages and the duty leave (R435). -/
def DutyReads (s t : State) (tot fix : Nat) : Prop :=
  t.getF Reg.THM_POWER_P_TOT = tot ∧ t.getF Reg.THM_POWER_P_FIX = fix ∧ t.getF Reg.THM_STAT_DUTY = dutyNext s tot ∧
    (t.flag Reg.THM_STAT_DEF_NOW = true ↔ s.getF Reg.THM_PLNOW_PL < fix) ∧
    BitsBut [Reg.THM_POWER_P_TOT, Reg.THM_POWER_P_FIX, Reg.THM_STAT_DUTY, Reg.THM_STAT_DEF_NOW, Reg.THM_FLAG_DEFICIT] s t

variable {s} in
theorem DutyReads.of_regs {t u : State} {tot fix : Nat} (h : DutyReads s t tot fix) (hregs : u.regs = t.regs) : DutyReads s u tot fix := by
  obtain ⟨htot, hfix, hduty, hdef, hbits⟩ := h
  exact ⟨(getF_of_regs hregs _).trans htot, (getF_of_regs hregs _).trans hfix, (getF_of_regs hregs _).trans hduty,
    (flag_of_regs hregs _) ▸ hdef, bitsBut_of_regs hbits hregs⟩

section
variable (tot fix : Nat) (htot : tot < 65536) (hfix : fix < 65536) (hd : s.getF Reg.THM_STAT_DUTY ≤ 16)
include htot hfix hd

theorem dutyReads_dutyShown : DutyReads s (dutyShown s tot fix) tot fix := by
  have hw := wrote_dutyShown s tot fix
  have hsep : Separate [Reg.THM_STAT_DEF_NOW, Reg.THM_STAT_DUTY, Reg.THM_POWER_P_FIX, Reg.THM_POWER_P_TOT] := .of_ok rfl
  have hflag := hw.flag hsep (.head _)
  exact ⟨hw.getF hsep (by simp) htot, hw.getF hsep (by simp) hfix, hw.getF hsep (by simp) ((dutyNext_le s tot hd).trans_lt (by decide)),
    by rw [hflag]; exact decide_eq_true_iff, bitsBut_mono (hw.bitsBut hsep) (by simp)⟩

theorem dutyReads_deficitRaised : DutyReads s (deficitRaised (dutyShown s tot fix)) tot fix ∧
    (deficitRaised (dutyShown s tot fix)).flag Reg.THM_FLAG_DEFICIT = true := by
  have hw := ((wrote_dutyShown s tot fix).raiseF Reg.THM_FLAG_DEFICIT).raiseEv 218
  have hsep : Separate [Reg.THM_FLAG_DEFICIT, Reg.THM_STAT_DEF_NOW, Reg.THM_STAT_DUTY, Reg.THM_POWER_P_FIX, Reg.THM_POWER_P_TOT] := .of_ok rfl
  have hflag := hw.flag (f := Reg.THM_STAT_DEF_NOW) (b := decide (s.getF Reg.THM_PLNOW_PL < fix)) hsep (.tail _ (.head _))
  refine ⟨⟨hw.getF hsep (by simp) htot, hw.getF hsep (by simp) hfix, hw.getF hsep (by simp) ((dutyNext_le s tot hd).trans_lt (by decide)),
    ?_, bitsBut_mono (hw.bitsBut hsep) (by simp)⟩, hw.flag (b := true) hsep (by simp)⟩
  exact (iff_of_eq (congrArg (· = true) hflag)).trans decide_eq_true_iff

/-- A duty adjustment (R435, R436). -/
theorem dutyAdjust_reads (hp : s.phase ≠ .unpowered) : ∃ t, exec (.dutyAdjust tot fix) s = .next t ∧ DutyReads s t tot fix ∧
    (s.getF Reg.THM_PLNOW_PL < fix → s.th.deficit = false →
      t.flag Reg.THM_FLAG_DEFICIT = true ∧ t.raised = (s.raiseEv 218).raised ∧ t.th.deficit = true) ∧
    (fix ≤ s.getF Reg.THM_PLNOW_PL ∨ s.th.deficit = true → t.raised = s.raised ∧ t.flag Reg.THM_FLAG_DEFICIT = s.flag Reg.THM_FLAG_DEFICIT) ∧
    (fix < s.getF Reg.THM_PLNOW_PL → t.th.deficit = false) ∧
    { t with regs := s.regs, cyc := s.cyc, raised := s.raised, th := s.th } = s := by
  by_cases h : s.getF Reg.THM_PLNOW_PL < fix ∧ s.th.deficit = false
  · obtain ⟨hreads, hflag⟩ := dutyReads_deficitRaised s tot fix htot hfix hd
    have hraised : (deficitRaised (dutyShown s tot fix)).raised = (s.raiseEv 218).raised :=
      raiseEv_raised_congr 218 rfl (raiseF_evs _ _) rfl rfl
    have hframe : { deficitRaised (dutyShown s tot fix) with regs := s.regs, cyc := s.cyc, raised := s.raised, th := s.th } = s :=
      (deficitRaised_frame _ s).trans rfl
    have hexec := exec_dutyAdjust_of_deficit s tot fix hp h.1 h.2
    generalize deficitRaised (dutyShown s tot fix) = u at hreads hflag hraised hframe hexec
    refine ⟨_, hexec, hreads.of_regs rfl, fun _ _ => ⟨(flag_of_regs (s := u) rfl _).trans hflag, hraised, rfl⟩,
      fun hno => ?_, fun hlt => absurd hlt (by omega), hframe⟩
    rcases hno with hno | hno
    · omega
    · simp [h.2] at hno
  · have hno : fix ≤ s.getF Reg.THM_PLNOW_PL ∨ s.th.deficit = true := by
      by_contra hc
      simp only [not_or, not_le, Bool.not_eq_true] at hc
      exact h hc
    have hsep : Separate [Reg.THM_STAT_DEF_NOW, Reg.THM_STAT_DUTY, Reg.THM_POWER_P_FIX, Reg.THM_POWER_P_TOT] := .of_ok rfl
    have hflag := flag_of_bitsBut ((wrote_dutyShown s tot fix).bitsBut hsep) (g := Reg.THM_FLAG_DEFICIT) (by simp; decide)
    have hreads := dutyReads_dutyShown s tot fix htot hfix hd
    have hraised : (dutyShown s tot fix).raised = s.raised := rfl
    have hframe : { dutyShown s tot fix with regs := s.regs, cyc := s.cyc, raised := s.raised, th := s.th } = s := rfl
    have hexec := exec_dutyAdjust_of_no_deficit s tot fix hp hno
    have hlow (hlt : fix < s.getF Reg.THM_PLNOW_PL) : (!decide (fix < s.getF Reg.THM_PLNOW_PL) && s.th.deficit) = false := by simp [hlt]
    generalize dutyShown s tot fix = u at hreads hflag hraised hframe hexec
    generalize (!decide (fix < s.getF Reg.THM_PLNOW_PL) && s.th.deficit) = b at hexec hlow
    exact ⟨_, hexec, hreads.of_regs rfl, fun h1 h2 => absurd ⟨h1, h2⟩ h, fun _ => ⟨hraised, (flag_of_regs (s := u) rfl _).trans hflag⟩, hlow,
      hframe⟩

end

end

/-! ### Restart -/

theorem exec_thermalRestart_of (s : State) : exec .thermalRestart s =
    if s.aon.hot = true ∧ s.phase = .waiting ∧ coolNow s = true ∧ 160000 ≤ s.th.cool
      then .next (stepTwo { s with aon := { s.aon with hot := false } }) else .next s := by
  rw [exec_thermalRestart]
  unfold execThermalRestart
  split
  case isTrue h => exact okIf_of_true _ _ (by simp [h])
  case isFalse h =>
    refine if_neg fun hc => h ?_
    simpa [and_assoc] using hc

theorem coolNow_iff (s : State) : coolNow s = true ↔
    ∀ n ∈ coolSensors s, s.flag (Reg.THM_TEMP_VALID n) = true ∧ s.getF (Reg.THM_TEMP_TEMP n) ≤ 4 * (80 + 64) := by
  unfold coolNow sensorValid sensorTemp
  simp

/-! ### What a sample and a shutdown leave, clause by clause -/

section
variable (s : State) (dt : Nat) (readings : List (BitVec 11)) (failed : List Nat)

/-- A sensor in a state after a sample. -/
theorem sensed_sampleCounted (hp : s.phase ≠ .unpowered) {n : Nat} (hn : n < 272) : Sensed (sampleCounted s dt readings failed) n
    (sensorPowered s n) (sensorFails s failed n (readingOf readings n)) (readingOf readings n) := by
  obtain ⟨-, -, -, -, -, -, -, hsensed, -⟩ := sampled_reads s dt readings failed hp
  exact (hsensed n hn).of_reg rfl

theorem hot_sampleCounted {n : Nat} (h : n ∈ (sampleCounted s dt readings failed).th.hot) : n < 272 ∧
    ((sampleCounted s dt readings failed).flag (Reg.THM_TEMP_VALID n) = true →
      4 * (110 + 64) ≤ (sampleCounted s dt readings failed).getF (Reg.THM_TEMP_TEMP n)) := by
  obtain ⟨hn, hcount⟩ := List.mem_filter.mp (show n ∈ (List.range 272).filter (countsHot (sampled s dt readings failed) s.th.hot) from h)
  exact ⟨List.mem_range.mp hn, fun hv => le_temp_of_countsHot hcount hv⟩

/-- A valid reading of 110 °C counts (R429). -/
theorem countsHot_sampled (hp : s.phase ≠ .unpowered) {n : Nat} (hn : n < 272) (hpow : sensorPowered s n = true)
    (hgood : sensorFails s failed n (readingOf readings n) = false) (hr : 4 * (110 + 64) ≤ readingOf readings n) :
    countsHot (sampled s dt readings failed) s.th.hot n = true := by
  obtain ⟨-, -, -, -, -, -, -, hsensed, -⟩ := sampled_reads s dt readings failed hp
  have hn := hsensed n hn
  rw [hpow, hgood] at hn
  obtain ⟨htemp, -, hvalid⟩ := hn
  exact countsHot_of_valid hvalid (htemp ▸ hr)

end

/-- Settles O47: each sensor is judged by the state before the sample, and what follows keeps its register; the governor and its duty write a few
fields; the restart waits for the sentinels. -/
theorem thermalProtection : Obligations.ThermalProtection := by
  unfold Obligations.ThermalProtection
  intro s
  refine ⟨fun dt readings failed hp => ?_, fun hp hstep => ?_, fun tot fix hp htot hfix hd1 hd => ?_, fun hhot hph hcool hlong => ?_, fun h => ?_⟩
  · intro r jump bad
    have hbad (n : Nat) : sensorFails s failed n (r n) = true ↔ bad n := sensorFails_iff s failed n (r n)
    obtain ⟨hphase, hticks, haonhot, hcause, hnow, hstores, hfuses, -, hdie⟩ := sampled_reads s dt readings failed hp
    refine ⟨fun hhot hrated => ⟨_, exec_thermalSample_of_calm s dt readings failed hp hhot hrated, hphase, hticks, fun n hn hpow => ?_,
      fun n hn hpow => ?_, fun n hin => hot_sampleCounted s dt readings failed hin, fun c hc => ?_, ⟨hnow, ?_⟩, hstores, hfuses⟩,
      fun n hn hold hin hpow hgood hr hcold => ?_⟩
    · have hs := sensed_sampleCounted s dt readings failed hp hn
      rw [hpow] at hs
      obtain ⟨htemp, hb, hv⟩ := hs
      refine ⟨htemp, (iff_of_eq (congrArg (· = true) hb)).trans (hbad n), (iff_of_eq (congrArg (· = true) hv)).trans ?_⟩
      rw [← hbad n, Bool.not_eq_true, Bool.not_eq_true']
      exact Iff.rfl
    · have hs := sensed_sampleCounted s dt readings failed hp hn
      rw [hpow] at hs
      exact hs
    · exact (iff_of_eq (congrArg (· = true) (hdie c hc))).trans (dieHot_iff _ c)
    · exact coolTime_eq _ _ _
    · have hcount := countsHot_sampled s dt readings failed hp hn hpow (Bool.eq_false_iff.mpr fun h => hgood ((hbad n).mp h)) hr
      obtain ⟨m, hm, hexec⟩ := exec_thermalSample_of_hot s dt readings failed hp hn hold hcount hcold
      have hm512 : m < 512 := (hin m hm).trans (by decide)
      have hphase2 : (sampleCounted s dt readings failed).phase = s.phase := hphase
      have hcause2 : (sampleCounted s dt readings failed).aon.cause = s.aon.cause := hcause
      have hfuses2 : (sampleCounted s dt readings failed).fuses = s.fuses := hfuses
      have hflash2 : (sampleCounted s dt readings failed).flash = s.flash := congrArg (fun x => x.2.2.2.2.2.2) hstores
      generalize sampleCounted s dt readings failed = u at hexec hphase2 hcause2 hfuses2 hflash2
      refine ⟨fun hheld => ⟨_, hexec, ?_⟩, fun h1 h2 => ⟨_, hexec, ?_⟩⟩
      · obtain ⟨h1, h2, h3, h4, h5, h6, h7⟩ := thermalShutdown_of_held_reads u 1 m (by decide) (by rwa [hphase2])
        exact ⟨h1.trans hphase2, h2, h3, h4, h5, h6.trans hfuses2, h7.trans hflash2⟩
      · obtain ⟨t1, t2, t3, t4, t5, t6, t7, t8, t9, t10⟩ :=
          thermalShutdown_of_not_held_reads u 1 m (by decide) hm512 (by rwa [hphase2]) (by rwa [hphase2])
        exact ⟨t1, t2, t3, t4, t5, ⟨m, hm, t6⟩, by rw [t7, hcause2], t8.trans hfuses2, t9.trans hflash2, t10⟩
  · intro n plMax moved due
    have hdue : dwellDue s = true ↔ due := dwellDue_iff s
    refine ⟨fun h => exec_governorDwell_of_not_due s (h.imp_right fun h => by rwa [← Bool.not_eq_true, hdue]), fun hten hd => ⟨fun ht => ?_,
      fun ht hn hc => ?_, fun ht hn hc => ?_⟩⟩
    · exact governorDwell_moves s hp hten (hdue.mpr hd) (by rw [if_pos ht]) (by omega)
    · exact governorDwell_moves s hp hten (hdue.mpr hd) (by rw [if_neg (by simp [ht]), if_pos hc]) (by omega)
    · exact governorDwell_moves s hp hten (hdue.mpr hd) (by rw [if_neg (by simp [ht]), if_neg (by simp [hc])]) (by omega)
  · obtain ⟨t, hexec, hreads, hnew, hold, hlow, hframe⟩ := dutyAdjust_reads s tot fix htot hfix hd hp
    obtain ⟨htot2, hfix2, hduty, hdef, hbits⟩ := hreads
    refine ⟨t, hexec, htot2, hfix2, fun hten => ?_, fun hten hn => ?_, fun hon hlt => ?_, fun hon hle hroom => ?_, fun hon hle hroom => ?_,
      hnew, hold, hlow, hdef, hbits, hframe⟩
    · rw [hduty, dutyNext, if_pos (by simp [hten])]
    · rw [hduty, dutyNext, if_neg (by simp [hten]), if_pos hn]
    · rw [hduty, dutyNext, if_neg (by simp [hon.1]), if_neg hon.2, if_pos hlt]
    · rw [hduty, dutyNext, if_neg (by simp [hon.1]), if_neg hon.2, if_neg (Nat.not_lt.mpr hle), if_pos (by rwa [← Nat.mul_assoc])]
    · rw [hduty, dutyNext, if_neg (by simp [hon.1]), if_neg hon.2, if_neg (Nat.not_lt.mpr hle), if_neg (by rw [← Nat.mul_assoc]; exact Nat.not_le.mpr hroom)]
  · rw [exec_thermalRestart_of]
    exact if_pos ⟨hhot, hph, (coolNow_iff s).mpr hcool, hlong⟩
  · rw [exec_thermalRestart_of]
    refine if_neg fun ⟨h1, h2, h3, h4⟩ => ?_
    rcases h with h | h | h | h
    · simp [h] at h1
    · exact h h2
    · exact h ((coolNow_iff s).mp h3)
    · omega

end Sys2Proof.Machine

/-!
SUPPORT. The scrub engine's cycle (17_scrubbing.md R348 to R354): the sweep index and its copies, what one word brings, and the words of a cycle.
-/

namespace Sys2Proof.Machine

/-! ### The sweep index -/

section
variable (s : State) (sec n : Nat)

theorem major3_same : major3 n n n = n := by
  unfold major3
  rw [Nat.and_self, Nat.or_self, Nat.or_self]

theorem tget_sweepCopies (k : Nat) : tget (fun _ => 0) (sweepCopies s sec n).sweepIdx k =
    if k / 3 = sec then n else tget (fun _ => 0) s.sweepIdx k := by
  have hput (m : Nat) : tget (fun _ => 0) ((List.range m).foldl (fun t c => tset (fun _ => 0) t (3 * sec + c) n) s.sweepIdx) k =
      if 3 * sec ≤ k ∧ k < 3 * sec + m then n else tget (fun _ => 0) s.sweepIdx k := by
    induction m with
    | zero => exact (if_neg (by omega)).symm
    | succ m ih =>
      rw [List.range_succ, List.foldl_concat, tget_tset, ih]
      split
      · exact (if_pos (by omega)).symm
      · exact if_congr (by omega) rfl rfl
  refine (hput 3).trans (if_congr ?_ rfl rfl)
  omega

theorem sweepAt_sweepCopies : sweepAt (sweepCopies s sec n) sec = n := by
  unfold sweepAt
  dsimp only
  rw [tget_sweepCopies, tget_sweepCopies, tget_sweepCopies, if_pos (by omega), if_pos (by omega), if_pos (by omega), major3_same]

theorem scrubOf_setScrub_self (x : Scrub) : (s.setScrub sec x).scrubOf sec = x := tget_tset_self _ _ _ _

/-- The engine has run in the present cycle. -/
def cycleTaken : State := s.setScrub sec { s.scrubOf sec with cycle := some s.tlrCycle }

/-- The four words of a cycle swept. -/
def wordsSwept : State := (List.range 4).foldl (fun acc j => sweepWord sec acc (n + j)) (cycleTaken s sec)

/-- A sweep of a sector completed and its index back at 0. -/
def sweepEnded (u : State) : State :=
  sweepCounts ((setSweep u sec 0).setF (Reg.SCRB_SPOS_SWEEPS sec) (s.getF (Reg.SCRB_SPOS_SWEEPS sec) + 1)) sec

end

section
variable (s : State) (sec : Fin 240)

/-- An engine that does not sweep (R351). -/
theorem exec_configScrubCycle_of_idle
    (h : scrubRuns s = false ∨ (s.scrubOf sec.val).cycle = some s.tlrCycle ∨ (sweepAt s sec.val = 0 ∧ scrubEn s sec.val = false)) :
    exec (.configScrubCycle sec) s = if s.slotRuns && tlrClock s then .next (sweepCopies s sec.val (sweepAt s sec.val)) else .next s := by
  rw [exec_configScrubCycle]
  unfold execConfigScrubCycle okIf
  dsimp only
  refine if_neg ?_
  rcases h with h | h | ⟨h, h2⟩
  · simp [h]
  · simp [h]
  · simp [h, h2]

/-- A cycle inside a sweep (R348). -/
theorem exec_configScrubCycle_of_sweep (hr : scrubRuns s = true) (hc : (s.scrubOf sec.val).cycle ≠ some s.tlrCycle) (hi : sweepAt s sec.val ≠ 0) :
    exec (.configScrubCycle sec) s = if sweepAt s sec.val + 4 < 368640
      then .next (setSweep (wordsSwept s sec.val (sweepAt s sec.val)) sec.val (sweepAt s sec.val + 4))
      else .next (sweepEnded s sec.val (wordsSwept s sec.val (sweepAt s sec.val))) := by
  rw [exec_configScrubCycle]
  unfold execConfigScrubCycle
  dsimp only
  rw [if_pos (by simp [hr, hc, hi]), if_neg hi]
  rfl

end

/-! ### One word -/

section
variable (s : State) (sec i : Nat)

theorem sweepWord_of_clean {v : BitVec 64} (h : cwDecode (tget (fun _ => 0) s.cfgw (sec * sweepWords + i)) = .clean v) : sweepWord sec s i = s := by
  unfold sweepWord
  dsimp only
  rw [h]
  exact ite_self _

/-- Words that decode clean, swept one after another. -/
theorem foldl_sweepWord_of_clean (n : Nat) (l : List Nat)
    (h : ∀ j ∈ l, ∃ v, cwDecode (tget (fun _ => 0) s.cfgw (sec * sweepWords + (n + j))) = .clean v) :
    l.foldl (fun acc j => sweepWord sec acc (n + j)) s = s := by
  induction l with
  | nil => rfl
  | cons j l ih =>
    obtain ⟨v, hv⟩ := h j List.mem_cons_self
    rw [List.foldl_cons, sweepWord_of_clean s sec (n + j) hv]
    exact ih fun k hk => h k (List.mem_cons_of_mem j hk)

/-- A cycle in which the words after the first decode clean. -/
theorem wordsSwept_of_rest_clean {n : Nat} {u : State} (hu : sweepWord sec (cycleTaken s sec) n = u)
    (h : ∀ j ∈ [1, 2, 3], ∃ v, cwDecode (tget (fun _ => 0) u.cfgw (sec * sweepWords + (n + j))) = .clean v) : wordsSwept s sec n = u := by
  have hrange : List.range 4 = [0, 1, 2, 3] := rfl
  unfold wordsSwept
  rw [hrange, List.foldl_cons, Nat.add_zero, hu]
  exact foldl_sweepWord_of_clean u sec n [1, 2, 3] h

/-- A word that the engine reads at all: its plane is not skipped (R348). -/
def wordSwept : Prop :=
  (s.scrubOf sec).skip.contains (blockPlane ((sec * sweepWords + i) / 320)) = false ∧
    s.planeState sec (blockPlane ((sec * sweepWords + i) / 320)) ≠ 2

/-- A correctable word below the threshold (R352). -/
def wordCorrected (key : Nat) (d : BitVec 64) : State :=
  (((s.raiseF (Reg.SCRB_SSTAT_CORR sec)).incF (Reg.SCRB_SCNT_COR_CNT sec)).raiseF (mapBit (Reg.SCRB_CORR ·) sec)).setScrub sec
    { s.scrubOf sec with corr := (s.scrubOf sec).corr + 1, fixes := (s.scrubOf sec).fixes ++ [(s.tlrCycle, key, cwEncode d)] }

/-- A word of a block never loaded, to be rewritten as zero (R353). -/
def wordZeroed (key : Nat) : State :=
  (((s.raiseF (Reg.SCRB_SSTAT_ZFIX sec)).incF (Reg.SCRB_SCNT_UNC_CNT sec)).raiseF (mapBit (Reg.SCRB_UNC ·) sec)).setScrub sec
    { s.scrubOf sec with fixes := (s.scrubOf sec).fixes ++ [(s.tlrCycle, key, cwEncode 0)] }

theorem sweepWord_of_corrected {d : BitVec 64} (hs : wordSwept s sec i) (hthr : (s.scrubOf sec).thr = 0)
    (h : cwDecode (tget (fun _ => 0) s.cfgw (sec * sweepWords + i)) = .corrected d) :
    sweepWord sec s i = wordCorrected s sec (sec * sweepWords + i) d := by
  unfold sweepWord
  dsimp only
  rw [if_neg (not_or.mpr ⟨Bool.eq_false_iff.mp hs.1, hs.2⟩), h]
  dsimp only
  rw [if_neg (by simp [hthr])]
  rfl

theorem sweepWord_of_not_loaded (hs : wordSwept s sec i) (h : cwDecode (tget (fun _ => 0) s.cfgw (sec * sweepWords + i)) = .bad)
    (hl : blockLoaded s ((sec * sweepWords + i) / 320) = false) : sweepWord sec s i = wordZeroed s sec (sec * sweepWords + i) := by
  unfold sweepWord
  dsimp only
  rw [if_neg (not_or.mpr ⟨Bool.eq_false_iff.mp hs.1, hs.2⟩), h]
  dsimp only
  rw [if_pos (by simp [hl])]
  rfl

/-- A word of a loaded block marked as poison (R354). -/
def wordPoisoned (key : Nat) : State := { s with cfgw := tset (fun _ => 0) s.cfgw key (cwSetPoison (tget (fun _ => 0) s.cfgw key)) }

theorem sweepWord_of_loaded (hs : wordSwept s sec i) (h : cwDecode (tget (fun _ => 0) s.cfgw (sec * sweepWords + i)) = .bad)
    (hl : blockLoaded s ((sec * sweepWords + i) / 320) = true) (hp : (sec * sweepWords + i) / 320 ∉ (s.scrubOf sec).pend)
    (hf : (sec * sweepWords + i) / 320 ∉ (s.scrubOf sec).failed) :
    sweepWord sec s i = uncFound (wordPoisoned s (sec * sweepWords + i)) sec (sec * sweepWords + i) (tget (fun _ => 0) s.policy sec) := by
  unfold sweepWord
  dsimp only
  rw [if_neg (not_or.mpr ⟨Bool.eq_false_iff.mp hs.1, hs.2⟩), h]
  dsimp only
  rw [if_neg (by simp [hl]), if_neg (by simp [hp, hf])]
  rfl

end

/-! ### Words found -/

section
variable (s : State) {sec : Nat} (key : Nat)

/-- Nothing but registers, the scrub engines and the sweep's index differs. -/
def ScrubOnly (s t : State) : Prop := { t with regs := s.regs, cyc := s.cyc, scrub := s.scrub, sweepIdx := s.sweepIdx } = s

variable {s} in
theorem ScrubOnly.setF {t : State} (h : ScrubOnly s t) (f : Field) (v : Nat) : ScrubOnly s (t.setF f v) := h

variable {s} in
theorem ScrubOnly.raiseF {t : State} (h : ScrubOnly s t) (f : Field) : ScrubOnly s (t.raiseF f) := h

variable {s} in
theorem ScrubOnly.incF {t : State} (h : ScrubOnly s t) (f : Field) : ScrubOnly s (t.incF f) := h

variable {s} in
theorem ScrubOnly.setScrub {t : State} (h : ScrubOnly s t) (sec : Nat) (x : Scrub) : ScrubOnly s (t.setScrub sec x) := h

variable {s} in
theorem ScrubOnly.setSweep {t : State} (h : ScrubOnly s t) (sec n : Nat) : ScrubOnly s (setSweep t sec n) := h

theorem scrubOnly_cycleTaken : ScrubOnly s (cycleTaken s sec) := rfl

theorem scrubOf_cycleTaken : (cycleTaken s sec).scrubOf sec = { s.scrubOf sec with cycle := some s.tlrCycle } := scrubOf_setScrub_self _ _ _

theorem wrote_setSweep {vals : List (Field × Nat)} {t : State} (h : Wrote vals s t) (n : Nat) :
    Wrote ((Reg.SCRB_SPOS_POS sec, n) :: vals) s (setSweep t sec n) := (h.setF (Reg.SCRB_SPOS_POS sec) n).of_regs rfl

theorem scrubOf_setSweep (n x : Nat) : (setSweep s sec n).scrubOf x = s.scrubOf x := rfl

theorem cfgw_setSweep (n : Nat) : (setSweep s sec n).cfgw = s.cfgw := rfl

theorem sweepAt_setSweep (n : Nat) : sweepAt (setSweep s sec n) sec = n := sweepAt_sweepCopies _ _ _

theorem scrubOnly_wordCorrected (d : BitVec 64) : ScrubOnly s (wordCorrected (cycleTaken s sec) sec key d) :=
  ((((scrubOnly_cycleTaken s).raiseF _).incF _).raiseF _).setScrub _ _

theorem scrubOnly_wordZeroed : ScrubOnly s (wordZeroed (cycleTaken s sec) sec key) :=
  ((((scrubOnly_cycleTaken s).raiseF _).incF _).raiseF _).setScrub _ _

theorem separate_corrected :
    Separate [Reg.SCRB_SPOS_POS sec, mapBit (Reg.SCRB_CORR ·) sec, Reg.SCRB_SCNT_COR_CNT sec, Reg.SCRB_SSTAT_CORR sec] := by
  simp only [Separate, Field.Fits, mapBit, Reg.SCRB_SCNT_COR_CNT, Reg.SCRB_SSTAT_CORR, Reg.SCRB_CORR, Reg.SCRB_SCNT, Reg.SCRB_SSTAT,
    Reg.SCRB_SPOS_POS, Reg.SCRB_SPOS]
  simp [Field.Apart]
  omega

theorem separate_zeroed :
    Separate [Reg.SCRB_SPOS_POS sec, mapBit (Reg.SCRB_UNC ·) sec, Reg.SCRB_SCNT_UNC_CNT sec, Reg.SCRB_SSTAT_ZFIX sec] := by
  simp only [Separate, Field.Fits, mapBit, Reg.SCRB_SCNT_UNC_CNT, Reg.SCRB_SSTAT_ZFIX, Reg.SCRB_UNC, Reg.SCRB_SCNT, Reg.SCRB_SSTAT,
    Reg.SCRB_SPOS_POS, Reg.SCRB_SPOS]
  simp [Field.Apart]
  omega

/-- A cycle that found a correctable word (R352). -/
theorem corrected_reads (d : BitVec 64) {n : Nat} (hn : n < 2 ^ 19) : let t := setSweep (wordCorrected (cycleTaken s sec) sec key d) sec n
    t.getF (Reg.SCRB_SPOS_POS sec) = n ∧ t.flag (Reg.SCRB_SSTAT_CORR sec) = true ∧
      t.getF (Reg.SCRB_SCNT_COR_CNT sec) = min (s.getF (Reg.SCRB_SCNT_COR_CNT sec) + 1) 4095 ∧ t.flag (mapBit (Reg.SCRB_CORR ·) sec) = true ∧
      t.scrubOf sec = { s.scrubOf sec with cycle := some s.tlrCycle, corr := (s.scrubOf sec).corr + 1,
                                           fixes := (s.scrubOf sec).fixes ++ [(s.tlrCycle, key, cwEncode d)] } ∧
      BitsBut [Reg.SCRB_SPOS_POS sec, Reg.SCRB_SSTAT_CORR sec, Reg.SCRB_SCNT_COR_CNT sec, mapBit (Reg.SCRB_CORR ·) sec] s t ∧ ScrubOnly s t := by
  have hsep := separate_corrected (sec := sec)
  have hbase : Wrote [] s (cycleTaken s sec) := (Wrote.refl s).of_regs rfl
  have hw := wrote_setSweep (sec := sec) s ((((hbase.raiseF (Reg.SCRB_SSTAT_CORR sec)).addF (f := Reg.SCRB_SCNT_COR_CNT sec) 1 hsep.tail.tail
    (m := 4095) rfl).raiseF (mapBit (Reg.SCRB_CORR ·) sec)).of_regs (u := wordCorrected (cycleTaken s sec) sec key d) rfl) n
  have hscrub : (wordCorrected (cycleTaken s sec) sec key d).scrubOf sec = _ := scrubOf_setScrub_self _ _ _
  rw [scrubOf_cycleTaken] at hscrub
  refine ⟨hw.getF hsep (by simp) (by simpa [Reg.SCRB_SPOS_POS] using hn), hw.flag (b := true) hsep (by simp), hw.getF hsep (by simp) ?_,
    hw.flag (b := true) hsep (by simp), hscrub, bitsBut_mono (hw.bitsBut hsep) (by simp), ?_⟩
  · simp [Reg.SCRB_SCNT_COR_CNT]
  · exact (scrubOnly_wordCorrected s key d).setSweep sec n

/-- A cycle that found an uncorrectable word of a block never loaded (R353). -/
theorem zeroed_reads {n : Nat} (hn : n < 2 ^ 19) : let t := setSweep (wordZeroed (cycleTaken s sec) sec key) sec n
    t.getF (Reg.SCRB_SPOS_POS sec) = n ∧ t.flag (Reg.SCRB_SSTAT_ZFIX sec) = true ∧
      t.getF (Reg.SCRB_SCNT_UNC_CNT sec) = min (s.getF (Reg.SCRB_SCNT_UNC_CNT sec) + 1) 4095 ∧ t.flag (mapBit (Reg.SCRB_UNC ·) sec) = true ∧
      t.scrubOf sec = { s.scrubOf sec with cycle := some s.tlrCycle, fixes := (s.scrubOf sec).fixes ++ [(s.tlrCycle, key, cwEncode 0)] } ∧
      ScrubOnly s t := by
  have hsep := separate_zeroed (sec := sec)
  have hbase : Wrote [] s (cycleTaken s sec) := (Wrote.refl s).of_regs rfl
  have hw := wrote_setSweep (sec := sec) s ((((hbase.raiseF (Reg.SCRB_SSTAT_ZFIX sec)).addF (f := Reg.SCRB_SCNT_UNC_CNT sec) 1 hsep.tail.tail
    (m := 4095) rfl).raiseF (mapBit (Reg.SCRB_UNC ·) sec)).of_regs (u := wordZeroed (cycleTaken s sec) sec key) rfl) n
  have hscrub : (wordZeroed (cycleTaken s sec) sec key).scrubOf sec = _ := scrubOf_setScrub_self _ _ _
  rw [scrubOf_cycleTaken] at hscrub
  refine ⟨hw.getF hsep (by simp) (by simpa [Reg.SCRB_SPOS_POS] using hn), hw.flag (b := true) hsep (by simp), hw.getF hsep (by simp) ?_,
    hw.flag (b := true) hsep (by simp), hscrub, ?_⟩
  · simp [Reg.SCRB_SCNT_UNC_CNT]
  · exact (scrubOnly_wordZeroed s key).setSweep sec n

/-! ### A word of a loaded block -/

/-- SUADDR as a word (R354). -/
def uncAddr : Nat := blockPlane (key / 320) * 2 ^ 17 + key / 320 % 144 / 12 * 2 ^ 13 + key / 320 % 12 * 2 ^ 9 + key % 320

/-- What an uncorrectable word of a loaded block leaves in its registers, in a sector at work (R354). -/
def uncCounted : State :=
  (((s.setF (wholeReg (Reg.SCRB_SUADDR sec)) (uncAddr key)).raiseF (Reg.SCRB_SSTAT_UNCORR sec)).incF (Reg.SCRB_SCNT_UNC_CNT sec)).raiseF
    (mapBit (Reg.SCRB_UNC ·) sec)

/-- The repair that begins with it: REPAIR, and the refetch asked for (R354, R356). -/
def repairAsked (x : Scrub) (q : List Nat) : State := (setRfxq (s.setF (Reg.SCRB_SSTAT_STATE sec) 1) q).setScrub sec x

/-- The engine's record of it. -/
def repairNoted (policy : Nat) : Scrub :=
  { s.scrubOf sec with policy := policy, pend := (s.scrubOf sec).pend ++ [key / 320],
                       due := (s.scrubOf sec).due ++ [(2 * s.tlrCycle + 4 + s.time.off, if policy = 0 then 1 else 0)] }

theorem wrote_repairAsked {vals : List (Field × Nat)} {t u : State} (h : Wrote vals t u) (x : Scrub) (q : List Nat) :
    Wrote ((Reg.CFG_STAT_RFX_BUSY, (!q.isEmpty).toNat) :: (Reg.SCRB_SSTAT_STATE sec, 1) :: vals) t (repairAsked u (sec := sec) x q) := by
  have hst : Wrote _ t { u.setF (Reg.SCRB_SSTAT_STATE sec) 1 with ld := { u.ld with rfxq := q } } :=
    (h.setF (Reg.SCRB_SSTAT_STATE sec) 1).of_regs rfl
  exact (hst.putF Reg.CFG_STAT_RFX_BUSY (!q.isEmpty)).of_regs rfl

/-- What the words recorded with the finding leave beside it. -/
theorem uncCounted_keeps : (uncCounted (sec := sec) s key).raised = s.raised ∧ (uncCounted (sec := sec) s key).cyc.evs = s.cyc.evs ∧
    (uncCounted (sec := sec) s key).clockOn = s.clockOn ∧ (uncCounted (sec := sec) s key).dbgHalt = s.dbgHalt ∧
    (uncCounted (sec := sec) s key).cfgw = s.cfgw ∧ (uncCounted (sec := sec) s key).ld = s.ld := by
  refine ⟨rfl, ?_, rfl, rfl, rfl, rfl⟩
  unfold uncCounted
  rw [raiseF_evs, incF_evs, raiseF_evs, setF_evs]

theorem uncFound_of_fresh (policy : Nat) (hst : s.getF (Reg.SCRB_SSTAT_STATE sec) = 0) (hflag : s.flag (Reg.SCRB_SSTAT_UNCORR sec) = false)
    (hfree : (s.logsAt (Reg.SCRB_SSTAT sec) && (s.hwReg (Reg.SCRB_SSTAT sec)).bits.getLsbD (Reg.SCRB_SSTAT_UNCORR sec).lo) = false)
    (hp : key / 320 ∉ (s.scrubOf sec).pend) : uncFound s sec key policy =
      repairAsked ((uncCounted (sec := sec) s key).raiseEv 225) (sec := sec) (repairNoted (sec := sec) s key policy) (s.ld.rfxq ++ [key / 320]) := by
  unfold uncFound
  dsimp only
  have hfresh : (scrubState s sec = 0) = True := eq_true hst
  have hask : (!(s.scrubOf sec).pend.contains (key / 320)) = true := by simpa using hp
  rw [capture_of_free s _ hfree hflag]
  simp only [hfresh, hask, if_true]
  rfl

end

/-! ### A repair that begins -/

/-- Nothing differs but what a word of a loaded block changes. -/
def RepairOnly (s t : State) : Prop :=
  { t with regs := s.regs, cyc := s.cyc, raised := s.raised, cfgw := s.cfgw, scrub := s.scrub, sweepIdx := s.sweepIdx, ld := s.ld } = s

section
variable {s t : State}

theorem RepairOnly.setF (h : RepairOnly s t) (f : Field) (v : Nat) : RepairOnly s (t.setF f v) := h

theorem RepairOnly.raiseF (h : RepairOnly s t) (f : Field) : RepairOnly s (t.raiseF f) := h

theorem RepairOnly.incF (h : RepairOnly s t) (f : Field) : RepairOnly s (t.incF f) := h

theorem RepairOnly.raiseEv (h : RepairOnly s t) (e : Nat) : RepairOnly s (t.raiseEv e) := h

theorem RepairOnly.setRfxq (h : RepairOnly s t) (q : List Nat) : RepairOnly s (setRfxq t q) := h

theorem RepairOnly.setScrub (h : RepairOnly s t) (sec : Nat) (x : Scrub) : RepairOnly s (t.setScrub sec x) := h

theorem RepairOnly.setSweep (h : RepairOnly s t) (sec n : Nat) : RepairOnly s (setSweep t sec n) := h

theorem repairOnly_wordPoisoned (s : State) (sec key : Nat) : RepairOnly s (wordPoisoned (cycleTaken s sec) key) := rfl

end

section
variable (s : State) {sec : Nat} (key : Nat)

/-- A cycle that found an uncorrectable word of a loaded block. -/
def repairBegun (policy n : Nat) : State :=
  setSweep (repairAsked ((uncCounted (sec := sec) (wordPoisoned (cycleTaken s sec) key) key).raiseEv 225) (sec := sec)
    (repairNoted (sec := sec) (wordPoisoned (cycleTaken s sec) key) key policy) (s.ld.rfxq ++ [key / 320])) sec n

theorem repairOnly_repairBegun (policy n : Nat) : RepairOnly s (repairBegun (sec := sec) s key policy n) :=
  (((((((((repairOnly_wordPoisoned s sec key).setF _ _).raiseF _).incF _).raiseF _).raiseEv _).setF _ _).setRfxq _).setScrub _ _).setSweep _ _

theorem separate_repair : Separate [Reg.SCRB_SPOS_POS sec, Reg.CFG_STAT_RFX_BUSY, Reg.SCRB_SSTAT_STATE sec, mapBit (Reg.SCRB_UNC ·) sec,
    Reg.SCRB_SCNT_UNC_CNT sec, Reg.SCRB_SSTAT_UNCORR sec, wholeReg (Reg.SCRB_SUADDR sec)] := by
  simp only [Separate, Field.Fits, mapBit, Reg.SCRB_SCNT_UNC_CNT, Reg.SCRB_SSTAT_STATE, Reg.SCRB_UNC, Reg.SCRB_SCNT, Reg.SCRB_SSTAT,
    Reg.SCRB_SPOS_POS, Reg.SCRB_SPOS, Reg.CFG_STAT_RFX_BUSY, Reg.CFG_STAT, Reg.SCRB_SSTAT_UNCORR, Reg.SCRB_SUADDR, wholeReg]
  simp [Field.Apart]
  omega

/-- The registers of a repair that begins (R354). -/
theorem wrote_repairBegun (policy n : Nat) : Wrote [(Reg.SCRB_SPOS_POS sec, n),
    (Reg.CFG_STAT_RFX_BUSY, (!(s.ld.rfxq ++ [key / 320]).isEmpty).toNat), (Reg.SCRB_SSTAT_STATE sec, 1), (mapBit (Reg.SCRB_UNC ·) sec, 1),
    (Reg.SCRB_SCNT_UNC_CNT sec, min (s.getF (Reg.SCRB_SCNT_UNC_CNT sec) + 1) 4095), (Reg.SCRB_SSTAT_UNCORR sec, 1),
    (wholeReg (Reg.SCRB_SUADDR sec), uncAddr key)] s (repairBegun (sec := sec) s key policy n) := by
  have hsep := separate_repair (sec := sec)
  have hbase : Wrote [] s (wordPoisoned (cycleTaken s sec) key) := (Wrote.refl s).of_regs rfl
  have hcounted := (((hbase.setF (wholeReg (Reg.SCRB_SUADDR sec)) (uncAddr key)).raiseF (Reg.SCRB_SSTAT_UNCORR sec)).addF
    (f := Reg.SCRB_SCNT_UNC_CNT sec) 1 hsep.tail.tail.tail.tail (m := 4095) rfl).raiseF (mapBit (Reg.SCRB_UNC ·) sec)
  have hraised : Wrote _ s ((uncCounted (sec := sec) (wordPoisoned (cycleTaken s sec) key) key).raiseEv 225) := hcounted.raiseEv 225
  exact wrote_setSweep s (wrote_repairAsked (sec := sec) hraised _ _) n

theorem repairBegun_keeps (policy n : Nat) : (repairBegun (sec := sec) s key policy n).raised = (s.raiseEv 225).raised ∧
    (repairBegun (sec := sec) s key policy n).cfgw = tset (fun _ => 0) s.cfgw key (cwSetPoison (tget (fun _ => 0) s.cfgw key)) ∧
    (repairBegun (sec := sec) s key policy n).ld = { s.ld with rfxq := s.ld.rfxq ++ [key / 320] } := by
  have htail (u : State) (x : Scrub) (q : List Nat) : (setSweep (repairAsked (u.raiseEv 225) (sec := sec) x q) sec n).raised = (u.raiseEv 225).raised ∧
    (setSweep (repairAsked (u.raiseEv 225) (sec := sec) x q) sec n).cfgw = u.cfgw ∧
    (setSweep (repairAsked (u.raiseEv 225) (sec := sec) x q) sec n).ld = { u.ld with rfxq := q } := ⟨rfl, rfl, rfl⟩
  obtain ⟨hraised, hevs, hclock, hhalt, hcfg, hld⟩ := uncCounted_keeps (sec := sec) (wordPoisoned (cycleTaken s sec) key) key
  unfold repairBegun
  generalize uncCounted (sec := sec) (wordPoisoned (cycleTaken s sec) key) key = u at hraised hevs hclock hhalt hcfg hld ⊢
  obtain ⟨h1, h2, h3⟩ := htail u (repairNoted (sec := sec) (wordPoisoned (cycleTaken s sec) key) key policy) (s.ld.rfxq ++ [key / 320])
  refine ⟨h1.trans (raiseEv_raised_congr 225 hraised hevs hclock hhalt), h2.trans hcfg, h3.trans ?_⟩
  rw [hld]
  rfl

theorem uncAddr_lt : uncAddr key < 2 ^ 32 := by
  unfold uncAddr blockPlane
  omega

/-- A cycle that found an uncorrectable word of a loaded block (R354). -/
theorem repairBegun_reads (policy : Nat) {n : Nat} (hn : n < 2 ^ 19) : let t := repairBegun (sec := sec) s key policy n
    t.getF (Reg.SCRB_SPOS_POS sec) = n ∧ sweepAt t sec = n ∧ t.flag (Reg.SCRB_SSTAT_UNCORR sec) = true ∧
      t.getF (Reg.SCRB_SCNT_UNC_CNT sec) = min (s.getF (Reg.SCRB_SCNT_UNC_CNT sec) + 1) 4095 ∧ t.flag (mapBit (Reg.SCRB_UNC ·) sec) = true ∧
      t.getF (Reg.SCRB_SSTAT_STATE sec) = 1 ∧ (t.reg (Reg.SCRB_SUADDR sec)).toNat = uncAddr key ∧
      t.cfgw = tset (fun _ => 0) s.cfgw key (cwSetPoison (tget (fun _ => 0) s.cfgw key)) ∧ t.ld = { s.ld with rfxq := s.ld.rfxq ++ [key / 320] } ∧
      t.scrubOf sec = { s.scrubOf sec with
        cycle := some s.tlrCycle, policy := policy, pend := (s.scrubOf sec).pend ++ [key / 320],
        due := (s.scrubOf sec).due ++ [(2 * s.tlrCycle + 4 + s.time.off, if policy = 0 then 1 else 0)] } := by
  have hsep := separate_repair (sec := sec)
  have hw := wrote_repairBegun (sec := sec) s key policy n
  obtain ⟨-, hcfg, hld⟩ := repairBegun_keeps (sec := sec) s key policy n
  have hscrub : (repairBegun (sec := sec) s key policy n).scrubOf sec = repairNoted (sec := sec) (wordPoisoned (cycleTaken s sec) key) key policy := by
    unfold repairBegun repairAsked
    exact (scrubOf_setSweep _ _ _).trans (scrubOf_setScrub_self _ _ _)
  have hat : sweepAt (repairBegun (sec := sec) s key policy n) sec = n := by
    unfold repairBegun
    exact sweepAt_setSweep _ _
  have hnoted : repairNoted (sec := sec) (wordPoisoned (cycleTaken s sec) key) key policy = _ :=
    congrArg (fun x : Scrub =>
      { x with policy := policy, pend := x.pend ++ [key / 320], due := x.due ++ [(2 * s.tlrCycle + 4 + s.time.off, if policy = 0 then 1 else 0)] })
      (scrubOf_cycleTaken (sec := sec) s)
  refine ⟨hw.getF hsep (by simp) (by simpa [Reg.SCRB_SPOS_POS] using hn), hat, hw.flag (b := true) hsep (by simp),
    hw.getF hsep (by simp) (by simp [Reg.SCRB_SCNT_UNC_CNT]), hw.flag (b := true) hsep (by simp), hw.getF hsep (by simp) (by simp [Reg.SCRB_SSTAT_STATE]),
    ?_, hcfg, hld, hscrub.trans hnoted⟩
  rw [← getF_wholeReg]
  exact hw.getF hsep (by simp) (uncAddr_lt key)

end

/-! ### A cycle of a sweep -/

section
variable (s : State) (sec i : Nat)

theorem key_eq : sec * sweepWords + i = 368640 * sec + i := by rw [sweepWords, Nat.mul_comm]

theorem key_add (j : Nat) : sec * sweepWords + (i + j) = 368640 * sec + i + j := by rw [sweepWords, Nat.mul_comm, Nat.add_assoc]

theorem wordSwept_cycleTaken (hskip : (s.scrubOf sec).skip.contains ((368640 * sec + i) / 320 % 1152 / 144) = false)
    (hplane : s.planeState sec ((368640 * sec + i) / 320 % 1152 / 144) ≠ 2) : wordSwept (cycleTaken s sec) sec i := by
  unfold wordSwept
  rw [scrubOf_cycleTaken, key_eq]
  exact ⟨hskip, hplane⟩

/-- An engine with no capture of this slot in the way (R354). -/
theorem capture_free_of_logs (h : s.logs = false ∨ (s.hwReg (Reg.SCRB_SSTAT sec)).bits.getLsbD (Reg.SCRB_SSTAT_UNCORR sec).lo = false) :
    (s.logsAt (Reg.SCRB_SSTAT sec) && (s.hwReg (Reg.SCRB_SSTAT sec)).bits.getLsbD (Reg.SCRB_SSTAT_UNCORR sec).lo) = false := by
  have haon : ofAon (Reg.SCRB_SSTAT sec) = false := by
    have hhigh : ¬ Reg.SCRB_SSTAT sec < 0x50000 := by
      simp only [Reg.SCRB_SSTAT]
      omega
    have hlow : ¬ Reg.SCRB_SSTAT sec < 0x20000 := fun h => hhigh (by omega)
    simp [ofAon, hlow, hhigh]
  unfold State.logsAt
  rw [haon, Bool.or_false]
  rcases h with h | h
  · rw [h, Bool.false_and]
  · rw [h, Bool.and_false]

/-- A cycle of clean words inside a sweep (R348). -/
theorem cycleClean_reads {n : Nat} (hn : n < 2 ^ 19) : let t := setSweep (cycleTaken s sec) sec n
    (t.getF (Reg.SCRB_SPOS_POS sec) = n ∧ sweepAt t sec = n ∧ (t.scrubOf sec).cycle = some s.tlrCycle) ∧ BitsBut [Reg.SCRB_SPOS_POS sec] s t ∧
      ScrubOnly s t := by
  have hsep : Separate [Reg.SCRB_SPOS_POS sec] := by simp [Separate, Field.Fits, Reg.SCRB_SPOS_POS]
  have hbase : Wrote [] s (cycleTaken s sec) := (Wrote.refl s).of_regs rfl
  have hw := wrote_setSweep (sec := sec) s hbase n
  have hscrub : (setSweep (cycleTaken s sec) sec n).scrubOf sec = _ := scrubOf_cycleTaken s
  exact ⟨⟨hw.getF hsep (.head _) hn, sweepAt_setSweep _ _, congrArg Scrub.cycle hscrub⟩, hw.bitsBut hsep, (scrubOnly_cycleTaken s).setSweep sec n⟩

/-- What a sweep leaves as it ends (R107, R348). -/
theorem sweepEnded_reads : let t := sweepEnded s sec (cycleTaken s sec)
    t.getF (Reg.SCRB_SPOS_POS sec) = 0 ∧ sweepAt t sec = 0 ∧
      t.getF (Reg.SCRB_SPOS_SWEEPS sec) = (s.getF (Reg.SCRB_SPOS_SWEEPS sec) + 1) % 8192 ∧
      tget (fun _ => 0) t.sweepDone sec = tget (fun _ => 0) s.sweepDone sec + 1 ∧ BitsBut [Reg.SCRB_SPOS_POS sec, Reg.SCRB_SPOS_SWEEPS sec] s t ∧
      t.vheld = tmap (fun _ => none) (fun k o => o.map (fun h =>
        if linkSector k = sec % 120 ∧ h.at_ < (s.scrubOf sec).begun
          then { h with ok0 := h.ok0 || decide (sec < 120), ok1 := h.ok1 || decide (120 ≤ sec) } else h)) s.vheld ∧
      { t with regs := s.regs, cyc := s.cyc, scrub := s.scrub, sweepIdx := s.sweepIdx, sweepDone := s.sweepDone, vheld := s.vheld } = s := by
  have hsep : Separate [Reg.SCRB_SPOS_SWEEPS sec, Reg.SCRB_SPOS_POS sec] := by
    simp [Separate, Field.Fits, Field.Apart, Reg.SCRB_SPOS_SWEEPS, Reg.SCRB_SPOS_POS]
  have hbase : Wrote [] s (cycleTaken s sec) := (Wrote.refl s).of_regs rfl
  have hw : Wrote _ s (sweepEnded s sec (cycleTaken s sec)) :=
    ((wrote_setSweep (sec := sec) s hbase 0).setF (Reg.SCRB_SPOS_SWEEPS sec) (s.getF (Reg.SCRB_SPOS_SWEEPS sec) + 1)).of_regs rfl
  have hat : sweepAt (sweepEnded s sec (cycleTaken s sec)) sec = sweepAt (setSweep (cycleTaken s sec) sec 0) sec := rfl
  have hscrub : ((setSweep (cycleTaken s sec) sec 0).setF (Reg.SCRB_SPOS_SWEEPS sec) (s.getF (Reg.SCRB_SPOS_SWEEPS sec) + 1)).scrubOf sec = _ :=
    scrubOf_cycleTaken s
  refine ⟨hw.getF hsep (by simp) (by simp [Reg.SCRB_SPOS_POS]), hat.trans (sweepAt_setSweep _ _), hw.getF_mod hsep (by simp), tget_tset_self _ _ _ _,
    bitsBut_mono (hw.bitsBut hsep) (by simp), ?_, rfl⟩
  unfold sweepEnded sweepCounts
  dsimp only
  rw [hscrub]
  rfl

end

/-- What the engine looks at beside its own record and the words. -/
theorem uncCond_of_words (s : State) (c : Tab CodeWord) (x : Tab Scrub) : let u := { s with cfgw := c, scrub := x }
    (∀ f, u.getF f = s.getF f) ∧ (∀ f, u.flag f = s.flag f) ∧ (∀ o, u.logsAt o = s.logsAt o) ∧ ∀ o, u.hwReg o = s.hwReg o :=
  ⟨fun f => getF_of_regs rfl f, fun f => flag_of_regs rfl f, fun _ => rfl, fun _ => rfl⟩

theorem uncCond_wordPoisoned (s : State) (sec key : Nat) : let u := wordPoisoned (cycleTaken s sec) key
    (∀ f, u.getF f = s.getF f) ∧ (∀ f, u.flag f = s.flag f) ∧ (∀ o, u.logsAt o = s.logsAt o) ∧ ∀ o, u.hwReg o = s.hwReg o :=
  uncCond_of_words s _ _

theorem blockLoaded_setScrub (s : State) (sec : Nat) (x : Scrub) (b : Nat) : blockLoaded (s.setScrub sec x) b = blockLoaded s b := rfl

/-- The first word of a cycle where a loaded block holds it uncorrectable (R354). -/
theorem sweepWord_repair (s : State) (sec i : Nat) (hswept : wordSwept (cycleTaken s sec) sec i)
    (hbad : cwDecode (tget (fun _ => 0) s.cfgw (368640 * sec + i)) = .bad) (hload : blockLoaded s ((368640 * sec + i) / 320) = true)
    (hst : s.getF (Reg.SCRB_SSTAT_STATE sec) = 0) (hflag : s.flag (Reg.SCRB_SSTAT_UNCORR sec) = false)
    (hfree : (s.logsAt (Reg.SCRB_SSTAT sec) && (s.hwReg (Reg.SCRB_SSTAT sec)).bits.getLsbD (Reg.SCRB_SSTAT_UNCORR sec).lo) = false)
    (hpend : (368640 * sec + i) / 320 ∉ (s.scrubOf sec).pend) (hfailed : (368640 * sec + i) / 320 ∉ (s.scrubOf sec).failed) :
    sweepWord sec (cycleTaken s sec) i =
      repairAsked ((uncCounted (sec := sec) (wordPoisoned (cycleTaken s sec) (368640 * sec + i)) (368640 * sec + i)).raiseEv 225) (sec := sec)
        (repairNoted (sec := sec) (wordPoisoned (cycleTaken s sec) (368640 * sec + i)) (368640 * sec + i) (tget (fun _ => 0) s.policy sec))
        (s.ld.rfxq ++ [(368640 * sec + i) / 320]) := by
  have hword := sweepWord_of_loaded (cycleTaken s sec) sec i hswept (by rw [key_eq]; exact hbad)
    (by rw [key_eq]; exact (blockLoaded_setScrub _ _ _ _).trans hload)
    (by rw [key_eq, scrubOf_cycleTaken]; exact hpend) (by rw [key_eq, scrubOf_cycleTaken]; exact hfailed)
  have hscrub : (wordPoisoned (cycleTaken s sec) (368640 * sec + i)).scrubOf sec = _ := scrubOf_cycleTaken s
  obtain ⟨hget, hflags, hlogsAt, hhw⟩ := uncCond_wordPoisoned s sec (368640 * sec + i)
  rw [key_eq] at hword
  rw [hword]
  exact uncFound_of_fresh (sec := sec) (wordPoisoned (cycleTaken s sec) (368640 * sec + i)) (368640 * sec + i) (tget (fun _ => 0) s.policy sec)
    ((hget _).trans hst) ((hflags _).trans hflag) (by rw [hlogsAt, hhw]; exact hfree) (by rw [hscrub]; exact hpend)

/-- A repair that begins, as a command leaves it (R354). -/
theorem repairBegun_done (s : State) (sec key n policy : Nat) (hn : n < 2 ^ 19) : let t := repairBegun (sec := sec) s key policy n
    (t.getF (Reg.SCRB_SPOS_POS sec) = n ∧ sweepAt t sec = n ∧ (t.scrubOf sec).cycle = some s.tlrCycle) ∧
      tget (fun _ => 0) t.cfgw key = cwSetPoison (tget (fun _ => 0) s.cfgw key) ∧
      (∀ k, k ≠ key → tget (fun _ => 0) t.cfgw k = tget (fun _ => 0) s.cfgw k) ∧
      t.flag (Reg.SCRB_SSTAT_UNCORR sec) = true ∧ t.getF (Reg.SCRB_SCNT_UNC_CNT sec) = min (s.getF (Reg.SCRB_SCNT_UNC_CNT sec) + 1) 4095 ∧
      t.flag (mapBit (Reg.SCRB_UNC ·) sec) = true ∧ t.getF (Reg.SCRB_SSTAT_STATE sec) = 1 ∧ t.raised = (s.raiseEv 225).raised ∧
      (t.reg (Reg.SCRB_SUADDR sec)).toNat = uncAddr key ∧
      t.ld = { s.ld with rfxq := s.ld.rfxq ++ [key / 320] } ∧ (t.scrubOf sec).pend = (s.scrubOf sec).pend ++ [key / 320] ∧
      (t.scrubOf sec).policy = policy ∧
      (t.scrubOf sec).due = (s.scrubOf sec).due ++ [(2 * s.tlrCycle + 4 + s.time.off, if policy = 0 then 1 else 0)] ∧
      { t with regs := s.regs, cyc := s.cyc, raised := s.raised, cfgw := s.cfgw, scrub := s.scrub, sweepIdx := s.sweepIdx, ld := s.ld } = s := by
  obtain ⟨hraised, hcfg, hld⟩ := repairBegun_keeps (sec := sec) s key policy n
  obtain ⟨hpos, hat, hunc, hcnt, hmap, hstate, haddr, -, -, hscrub⟩ := repairBegun_reads (sec := sec) s key policy hn
  have hframe := repairOnly_repairBegun (sec := sec) s key policy n
  generalize repairBegun (sec := sec) s key policy n = t at hraised hcfg hld hpos hat hunc hcnt hmap hstate haddr hscrub hframe ⊢
  exact ⟨⟨hpos, hat, congrArg Scrub.cycle hscrub⟩, hcfg ▸ tget_tset_self _ _ _ _, fun k hk => hcfg ▸ tget_tset_ne _ _ _ _ _ hk, hunc, hcnt, hmap, hstate,
    hraised, haddr, hld, congrArg Scrub.pend hscrub, congrArg Scrub.policy hscrub, congrArg Scrub.due hscrub, hframe⟩

/-- Settles O40: a clean word leaves the state as it is, so a cycle is its first word, then the position. -/
theorem scrubEngineCycle : Obligations.ScrubEngineCycle := by
  unfold Obligations.ScrubEngineCycle
  intro s sec i x key b word clean runs pos first
  have hcleanAt (u : State) (hu : ∀ j ∈ [1, 2, 3], tget (fun _ => 0) u.cfgw (key + j) = word j) (h1 : clean 1) (h2 : clean 2) (h3 : clean 3) :
      ∀ j ∈ [1, 2, 3], ∃ v, cwDecode (tget (fun _ => 0) u.cfgw (sec.val * sweepWords + (i + j))) = .clean v := by
    intro j hj
    rw [key_add, hu j hj]
    have hcase : j = 1 ∨ j = 2 ∨ j = 3 := by simpa using hj
    rcases hcase with rfl | rfl | rfl
    · exact h1
    · exact h2
    · exact h3
  refine ⟨fun h => ⟨fun hoff => ?_, fun hslot htlr => ?_⟩, fun hruns hi hclean => ?_, fun hruns hi hlt hmod hfirst => ?_⟩
  · rw [exec_configScrubCycle_of_idle s sec h]
    exact if_neg (by rcases hoff with h | h <;> simp [h])
  · rw [exec_configScrubCycle_of_idle s sec h, if_pos (by simp [hslot, htlr])]
    exact ⟨_, rfl, tget_sweepCopies s sec.val i, rfl⟩
  · have hwords : wordsSwept s sec.val i = cycleTaken s sec.val :=
      wordsSwept_of_rest_clean s sec.val (sweepWord_of_clean _ sec.val i (v := (hclean 0 (by decide)).choose) (by
        rw [key_eq]
        exact (hclean 0 (by decide)).choose_spec))
        (hcleanAt _ (fun j _ => rfl) (hclean 1 (by decide)) (hclean 2 (by decide)) (hclean 3 (by decide)))
    have hexec := exec_configScrubCycle_of_sweep s sec hruns.1 hruns.2 hi
    rw [hwords] at hexec
    refine ⟨fun hin => ?_, fun hend => ?_⟩
    · rw [if_pos hin] at hexec
      exact ⟨_, hexec, cycleClean_reads s sec.val (by omega)⟩
    · rw [if_neg (by omega)] at hexec
      exact ⟨_, hexec, sweepEnded_reads s sec.val⟩
  · obtain ⟨hskip, hplane, h1, h2, h3⟩ := hfirst
    have hswept := wordSwept_cycleTaken s sec.val i hskip hplane
    have hexec := exec_configScrubCycle_of_sweep s sec hruns.1 hruns.2 hi
    rw [if_pos hlt] at hexec
    have hn : i + 4 < 2 ^ 19 := by omega
    have hlogs := capture_free_of_logs s sec.val
    refine ⟨fun d hd hthr => ?_, fun hbad hload => ?_, fun hbad hload hst hflag hfree hpend hfailed => ?_⟩
    · have hword := sweepWord_of_corrected (cycleTaken s sec.val) sec.val i (d := d) hswept (by rw [scrubOf_cycleTaken]; exact hthr)
        (by rw [key_eq]; exact hd)
      rw [wordsSwept_of_rest_clean s sec.val hword (hcleanAt _ (fun j _ => rfl) h1 h2 h3), key_eq] at hexec
      obtain ⟨hpos, hcorr, hcnt, hmap, hscrub, hbits, hframe⟩ := corrected_reads (sec := sec.val) s key d hn
      exact ⟨_, hexec, ⟨hpos, sweepAt_setSweep _ _, congrArg Scrub.cycle hscrub⟩, hcorr, hcnt, hmap, congrArg Scrub.fixes hscrub, hbits, hframe⟩
    · have hword := sweepWord_of_not_loaded (cycleTaken s sec.val) sec.val i hswept (by rw [key_eq]; exact hbad)
        (by rw [key_eq]; exact (blockLoaded_setScrub _ _ _ _).trans hload)
      rw [wordsSwept_of_rest_clean s sec.val hword (hcleanAt _ (fun j _ => rfl) h1 h2 h3), key_eq] at hexec
      obtain ⟨hpos, hzfix, hcnt, hmap, hscrub, hframe⟩ := zeroed_reads (sec := sec.val) s key hn
      exact ⟨_, hexec, ⟨hpos, sweepAt_setSweep _ _, congrArg Scrub.cycle hscrub⟩, hzfix, hcnt, hmap, congrArg Scrub.fixes hscrub,
        rfl, rfl, hframe⟩
    · have hword := sweepWord_repair s sec.val i hswept hbad hload hst hflag (hlogs hfree) hpend hfailed
      obtain ⟨hraised, hcfg, -⟩ := repairBegun_keeps (sec := sec.val) s key (tget (fun _ => 0) s.policy sec.val) (i + 4)
      have hother (k : Nat) (hk : k ≠ key) := congrArg (fun m => tget (fun _ => 0) m k) hcfg
      have hother (k : Nat) (hk : k ≠ key) := (hother k hk).trans (tget_tset_ne _ _ _ _ _ hk)
      have hne (j : Nat) (hj : j ∈ [1, 2, 3]) : key + j ≠ key := by
        have hpos : j ≠ 0 := by
          rintro rfl
          simp at hj
        omega
      have hcfgw (u : State) (k : Nat) : tget (fun _ => 0) u.cfgw k = tget (fun _ => 0) (setSweep u sec.val (i + 4)).cfgw k :=
        congrArg (fun m => tget (fun _ => 0) m k) (cfgw_setSweep u _).symm
      have hclean := hcleanAt _ (fun j hj => (hcfgw _ _).trans (hother (key + j) (hne j hj))) h1 h2 h3
      rw [wordsSwept_of_rest_clean s sec.val hword hclean] at hexec
      exact ⟨_, hexec, repairBegun_done s sec.val key (i + 4) _ hn⟩

end Sys2Proof.Machine

/-!
SUPPORT. The network's transport (13_network.md R260 to R267): a flit that an arbiter grants, responses, timeouts and quarantine.
-/

namespace Sys2Proof.Machine

/-! ### Queues of a router -/

section
variable (s : State) {r net port vc : Nat}

theorem queue_setQueue_self (q : List Flit) : (s.setQueue r net port vc q).queue r net port vc = q := tget_tset_self _ _ _ _

theorem queue_setQueue_ne {r2 net2 port2 vc2 : Nat} (q : List Flit) (h : queueKey r2 net2 port2 vc2 ≠ queueKey r net port vc) :
    (s.setQueue r net port vc q).queue r2 net2 port2 vc2 = s.queue r2 net2 port2 vc2 := tget_tset_ne _ _ _ _ _ h

/-- The queue that a grant takes from is not the one that it goes into (R260). -/
theorem queueKey_beyond_ne {out dst : Nat} (hport : port < 7) (h : nextPort r dst = out) :
    queueKey (beyond r out).1 net (beyond r out).2 vc ≠ queueKey r net port vc := by
  unfold nextPort at h
  dsimp only at h
  unfold queueKey beyond
  subst h
  split_ifs <;> simp only <;> omega

end

/-! ### A grant -/

section
variable (s : State) (r out net : Nat)

/-- What the arbiter grants: a port of the fourteen, a flit that goes that way, and room beyond (R260, R261). -/
theorem arbWinner_spec {p : Nat} (h : arbWinner s r out net = some p) {f : Flit} {rest : List Flit} (hq : s.queue r net (p / 2) (p % 2) = f :: rest) :
    p < 14 ∧ nextPort r f.dst = out ∧ (s.queue (beyond r out).1 net (beyond r out).2 (p % 2)).length < queueDepth net := by
  unfold arbWinner at h
  have hmem := List.mem_of_find?_eq_some h
  have helig := List.find?_some h
  obtain ⟨d, -, hd⟩ := List.mem_map.mp hmem
  unfold eligible at helig
  rw [hq] at helig
  simp only [List.head?_cons, Bool.and_eq_true, beq_iff_eq, decide_eq_true_eq] at helig
  exact ⟨by omega, helig⟩

/-- The flit at the head of a queue moved on, and the pointer at the pair granted (R260, R261). -/
def flitMoved (p : Nat) (f : Flit) (rest : List Flit) : State :=
  let s1 := s.setQueue r net (p / 2) (p % 2) rest
  let s2 := s1.setQueue (beyond r out).1 net (beyond r out).2 (p % 2) (s1.queue (beyond r out).1 net (beyond r out).2 (p % 2) ++ [f])
  { s2 with netPtr := tset (fun _ => 13) s2.netPtr (arbKey r out net) p }

variable {r out net} in
theorem flitMoved_reads {p : Nat} {f : Flit} {rest : List Flit} (hp : p < 14) (h : nextPort r f.dst = out) :
    let t := flitMoved s r out net p f rest
    t.queue r net (p / 2) (p % 2) = rest ∧
      t.queue (beyond r out).1 net (beyond r out).2 (p % 2) = s.queue (beyond r out).1 net (beyond r out).2 (p % 2) ++ [f] ∧
      t.arbPtr r out net = p := by
  have hne := queueKey_beyond_ne (r := r) (net := net) (port := p / 2) (vc := p % 2) (by omega) h
  refine ⟨?_, ?_, tget_tset_self _ _ _ _⟩
  · exact (queue_setQueue_ne _ _ hne.symm).trans (queue_setQueue_self _ _)
  · exact (queue_setQueue_self _ _).trans (congrArg (· ++ [f]) (queue_setQueue_ne _ _ hne))

theorem flitMoved_frame (p : Nat) (f : Flit) (rest : List Flit) :
    { flitMoved s r out net p f rest with netq := s.netq, netPtr := s.netPtr } = s := by
  unfold flitMoved State.setQueue
  rfl

/-- A flit that leaves the network changes only what waits at the memory dies. -/
theorem ejectArrive_frame (vc port : Nat) (f : Option Flit) :
    { ejectArrive s r net vc port f with memq := s.memq, cyc := s.cyc, fresh := s.fresh } = s := by
  unfold ejectArrive
  split
  · split
    · unfold memArrive State.draw
      dsimp only
      split <;> split <;> rfl
    · rfl
  · rfl

/-- A grant forwards its flit (R260 to R262). -/
theorem exec_nocFlitForward_of_grant (r : Fin 360) (out : Fin 7) (net : Fin 4) (hruns : s.nocRuns = true) {s0 : State}
    (hs0 : pullInject (collectBankRsps s r) r = s0) {p : Nat} (hw : arbWinner s0 r out net = some p) {f : Flit} {rest : List Flit}
    (hq : s0.queue r net (p / 2) (p % 2) = f :: rest) : exec (.nocFlitForward r out net) s =
      .next (if out.val = 0 then ejectArrive (flitMoved s0 r out net p f rest) r net (p % 2) (p / 2) (some f) else flitMoved s0 r out net p f rest) := by
  rw [exec_nocFlitForward]
  unfold execNocFlitForward
  rw [if_pos hruns, hs0]
  dsimp only
  rw [hw]
  dsimp only
  rw [hq]
  rfl

end

/-! ### Responses -/

section
variable (s : State)

theorem exec_nocResponse_of_waiting (r : Fin 360) (dat : Bool) (vc : Fin 2) (hruns : s.nocRuns = true) {p : NocRsp}
    (hp : (s.ejected r (if dat then 2 else 1) vc).bind Flit.response = some p) {o : Outst} (ho : findOutst s p.id p.ln p.tag = some o) :
    exec (.nocResponse r dat vc) s = .next (deliver (closeOutst (s.eject r (if dat then 2 else 1) vc) o) o p.status p.data) := by
  have ho2 : findOutst (s.eject r (if dat then 2 else 1) vc) p.id p.ln p.tag = some o := ho
  rw [exec_nocResponse]
  unfold execNocResponse
  dsimp only
  rw [hp]
  dsimp only
  rw [if_pos hruns, ho2]

/-- A response dropped as late, with DROP of the sector that it was for (R266). -/
def lateDropped (id : Nat) : State :=
  match napOf id with
  | some sec => (lateDrop s).raiseF (Reg.SEC_NAP_STAT_DROP sec)
  | none => lateDrop s

theorem exec_nocResponse_of_late (r : Fin 360) (dat : Bool) (vc : Fin 2) (hruns : s.nocRuns = true) {p : NocRsp}
    (hp : (s.ejected r (if dat then 2 else 1) vc).bind Flit.response = some p) (ho : findOutst s p.id p.ln p.tag = none) :
    exec (.nocResponse r dat vc) s = .next (lateDropped (s.eject r (if dat then 2 else 1) vc) p.id) := by
  have ho2 : findOutst (s.eject r (if dat then 2 else 1) vc) p.id p.ln p.tag = none := ho
  rw [exec_nocResponse]
  unfold execNocResponse
  dsimp only
  rw [hp]
  dsimp only
  rw [if_pos hruns, ho2]
  rfl

theorem wrote_lateDrop : Wrote [(Reg.NOC_CNT_LATE_CNT, min (s.getF Reg.NOC_CNT_LATE_CNT + 1) (2 ^ 16 - 1)), (Reg.NOC_STAT_LATE, 1)] s (lateDrop s) :=
  (((Wrote.refl s).raiseF Reg.NOC_STAT_LATE).addF (f := Reg.NOC_CNT_LATE_CNT) 1 (.of_ok rfl) rfl).raiseEv 229

theorem raised_lateDrop : (lateDrop s).raised = (s.raiseEv 229).raised :=
  raiseEv_raised_congr 229 rfl ((incF_evs _ _).trans (raiseF_evs _ _)) rfl rfl

theorem lateDrop_frame : { lateDrop s with regs := s.regs, cyc := s.cyc, raised := s.raised } = s := rfl

theorem raiseF_frame (f : Field) (t : State) :
    { s.raiseF f with regs := t.regs, cyc := t.cyc, raised := t.raised } = { s with regs := t.regs, cyc := t.cyc, raised := t.raised } := rfl

theorem separate_drop (sec : Nat) : Separate [Reg.SEC_NAP_STAT_DROP sec, Reg.NOC_CNT_LATE_CNT, Reg.NOC_STAT_LATE] := by
  simp only [Separate, Field.Fits, Reg.SEC_NAP_STAT_DROP, Reg.NOC_CNT_LATE_CNT, Reg.NOC_STAT_LATE, Reg.SEC_NAP_STAT, Reg.NOC_CNT, Reg.NOC_STAT]
  simp [Field.Apart]
  omega

/-- What is left of a response that nobody waits for (R266). -/
theorem lateDropped_reads (id : Nat) : let t := lateDropped s id
    t.flag Reg.NOC_STAT_LATE = true ∧ t.getF Reg.NOC_CNT_LATE_CNT = min (s.getF Reg.NOC_CNT_LATE_CNT + 1) (2 ^ 16 - 1) ∧
      t.raised = (s.raiseEv 229).raised ∧ (∀ sec, napOf id = some sec → t.flag (Reg.SEC_NAP_STAT_DROP sec) = true) ∧
      BitsBut ([Reg.NOC_STAT_LATE, Reg.NOC_CNT_LATE_CNT] ++ (napOf id).toList.map Reg.SEC_NAP_STAT_DROP) s t ∧
      { t with regs := s.regs, cyc := s.cyc, raised := s.raised } = s := by
  have hlt : min (s.getF Reg.NOC_CNT_LATE_CNT + 1) (2 ^ 16 - 1) < 2 ^ 16 := (Nat.min_le_right _ _).trans_lt (by decide)
  have hw := wrote_lateDrop s
  have hraised := raised_lateDrop s
  have hframe := lateDrop_frame s
  unfold lateDropped
  generalize lateDrop s = u at hw hraised hframe ⊢
  cases hnap : napOf id with
  | none =>
    have hsep : Separate [Reg.NOC_CNT_LATE_CNT, Reg.NOC_STAT_LATE] := .of_ok rfl
    exact ⟨hw.flag (b := true) hsep (by simp), hw.getF hsep (by simp) hlt, hraised, nofun, bitsBut_mono (hw.bitsBut hsep) (by simp), hframe⟩
  | some sec =>
    have hsep := separate_drop sec
    have hw := hw.raiseF (Reg.SEC_NAP_STAT_DROP sec)
    refine ⟨hw.flag (b := true) hsep (by simp), hw.getF hsep (by simp) hlt, (raiseF_raised _ _).trans hraised, fun x hx => ?_,
      bitsBut_mono (hw.bitsBut hsep) (by simp), (raiseF_frame u _ s).trans hframe⟩
    obtain rfl := Option.some.inj hx
    exact hw.flag (b := true) hsep (by simp)

theorem napOf_port {id : Nat} (h : id < 240) : napOf id = some id := if_pos h

theorem napOf_teller {id : Nat} (h : 0x100 ≤ id) (h2 : id < 0x1F0) : napOf id = some (id - 0x100) := by
  unfold napOf
  rw [if_neg (by omega), if_pos ⟨h, h2⟩]

end

/-! ### Timeouts -/

section
variable (s : State) (o : Outst)

/-- A request whose timer has run out, shown and counted (R265). -/
def timeoutShown : State :=
  (((((((s.raiseF Reg.NOC_STAT_TMO).setF Reg.NOC_STAT_NET (if o.op = 2 then 1 else 0)).setF Reg.NOC_STAT_ID o.id).setF Reg.NOC_STAT_TAG o.tag).setF
    Reg.NOC_STAT_LN o.ln.toNat).setReg Reg.NOC_TADDR_LO (BitVec.ofNat 32 o.addr)).setF Reg.NOC_TADDR_HI_ADDR_HI (o.addr / 2 ^ 32)).incF
    Reg.NOC_CNT_TMO_CNT

/-- The same with its event. -/
def timeoutRecorded : State := (timeoutShown s o).raiseEv (if o.op = 2 then 230 else 228)

/-- Nothing but registers, the record of the slot and events differs. -/
def RegsEvOnly (s t : State) : Prop := { t with regs := s.regs, cyc := s.cyc, raised := s.raised } = s

variable {s} in
theorem RegsEvOnly.setF {t : State} (h : RegsEvOnly s t) (f : Field) (v : Nat) : RegsEvOnly s (t.setF f v) := h

variable {s} in
theorem RegsEvOnly.setReg {t : State} (h : RegsEvOnly s t) (r : Nat) (v : Word32) : RegsEvOnly s (t.setReg r v) := h

variable {s} in
theorem RegsEvOnly.raiseF {t : State} (h : RegsEvOnly s t) (f : Field) : RegsEvOnly s (t.raiseF f) := h

variable {s} in
theorem RegsEvOnly.incF {t : State} (h : RegsEvOnly s t) (f : Field) : RegsEvOnly s (t.incF f) := h

variable {s} in
theorem RegsEvOnly.raiseEv {t : State} (h : RegsEvOnly s t) (e : Nat) : RegsEvOnly s (t.raiseEv e) := h

variable {s} in
theorem RegsEvOnly.eq {t : State} (h : RegsEvOnly s t) : t = { s with regs := t.regs, cyc := t.cyc, raised := t.raised } :=
  (congrArg (fun x : State => { x with regs := t.regs, cyc := t.cyc, raised := t.raised }) h :)

theorem regsEvOnly_timeoutRecorded : RegsEvOnly s (timeoutRecorded s o) :=
  ((((((((RegsEvOnly.raiseF (s := s) (t := s) rfl _).setF _ _).setF _ _).setF _ _).setF _ _).setReg _ _).setF _ _).incF _).raiseEv _

theorem timeoutShown_keeps : (timeoutShown s o).cyc.evs = s.cyc.evs ∧ (timeoutShown s o).raised = s.raised ∧
    (timeoutShown s o).clockOn = s.clockOn ∧ (timeoutShown s o).dbgHalt = s.dbgHalt := by
  unfold timeoutShown
  refine ⟨?_, ?_, ?_, ?_⟩
  · rw [incF_evs, setF_evs, setReg_evs, setF_evs, setF_evs, setF_evs, setF_evs, raiseF_evs]
  · rw [incF_raised, setF_raised, setReg_raised, setF_raised, setF_raised, setF_raised, setF_raised, raiseF_raised]
  · rw [incF_clockOn, setF_clockOn, setReg_clockOn, setF_clockOn, setF_clockOn, setF_clockOn, setF_clockOn, raiseF_clockOn]
  · rw [incF_dbgHalt, setF_dbgHalt, setReg_dbgHalt, setF_dbgHalt, setF_dbgHalt, setF_dbgHalt, setF_dbgHalt, raiseF_dbgHalt]

theorem raised_timeoutRecorded : (timeoutRecorded s o).raised = (s.raiseEv (if o.op = 2 then 230 else 228)).raised := by
  obtain ⟨hevs, hraised, hclock, hhalt⟩ := timeoutShown_keeps s o
  exact raiseEv_raised_congr _ hraised hevs hclock hhalt

theorem exec_nocTimeout_of_run_out (id : Fin 1024) (ln : Bool) (tag : Fin 256) (hruns : s.nocRuns = true) (ho : findOutst s id ln tag = some o)
    (hen : s.flag Reg.NOC_TMO_EN = true) (htmo : o.tmo.isSome = true) :
    exec (.nocTimeout id ln tag) s = .next (deliver (endOutst (timeoutRecorded s o) o) o 3 0) := by
  rw [exec_nocTimeout]
  unfold execNocTimeout
  rw [ho]
  dsimp only
  exact if_pos (by rw [hruns, hen, htmo, Bool.and_self, Bool.and_self])

theorem eq_of_findOutst {id tag : Nat} {ln : Bool} (h : findOutst s id ln tag = some o) : o.id = id ∧ o.ln = ln ∧ o.tag = tag := by
  have := List.find?_some h
  simpa [and_assoc] using this

theorem wrote_timeoutRecorded : Wrote [(Reg.NOC_CNT_TMO_CNT, min (s.getF Reg.NOC_CNT_TMO_CNT + 1) (2 ^ 16 - 1)),
    (Reg.NOC_TADDR_HI_ADDR_HI, o.addr / 2 ^ 32), (wholeReg Reg.NOC_TADDR_LO, (BitVec.ofNat 32 o.addr).toNat), (Reg.NOC_STAT_LN, o.ln.toNat),
    (Reg.NOC_STAT_TAG, o.tag), (Reg.NOC_STAT_ID, o.id), (Reg.NOC_STAT_NET, if o.op = 2 then 1 else 0), (Reg.NOC_STAT_TMO, 1)] s
    (timeoutRecorded s o) :=
  ((((((((Wrote.refl s).raiseF _).setF _ _).setF _ _).setF _ _).setF _ _).setReg _ _).setF _ _ |>.addF (f := Reg.NOC_CNT_TMO_CNT) 1
    (.of_ok rfl) rfl).raiseEv _

/-- What is recorded of a request that has run out (R265). -/
theorem timeoutRecorded_reads (haddr : o.addr < 2 ^ 48) (hid : o.id < 1024) (htag : o.tag < 256) : let v := timeoutRecorded s o
    v.flag Reg.NOC_STAT_TMO = true ∧ v.getF Reg.NOC_STAT_NET = (if o.op = 2 then 1 else 0) ∧ v.getF Reg.NOC_STAT_ID = o.id ∧
      v.getF Reg.NOC_STAT_TAG = o.tag ∧ v.flag Reg.NOC_STAT_LN = o.ln ∧
      (v.reg Reg.NOC_TADDR_LO).toNat + 2 ^ 32 * v.getF Reg.NOC_TADDR_HI_ADDR_HI = o.addr ∧
      v.getF Reg.NOC_CNT_TMO_CNT = min (s.getF Reg.NOC_CNT_TMO_CNT + 1) (2 ^ 16 - 1) ∧
      BitsBut [Reg.NOC_STAT_TMO, Reg.NOC_STAT_NET, Reg.NOC_STAT_ID, Reg.NOC_STAT_TAG, Reg.NOC_STAT_LN, wholeReg Reg.NOC_TADDR_LO,
        Reg.NOC_TADDR_HI_ADDR_HI, Reg.NOC_CNT_TMO_CNT] s v := by
  have hsep : Separate [Reg.NOC_CNT_TMO_CNT, Reg.NOC_TADDR_HI_ADDR_HI, wholeReg Reg.NOC_TADDR_LO, Reg.NOC_STAT_LN, Reg.NOC_STAT_TAG, Reg.NOC_STAT_ID,
    Reg.NOC_STAT_NET, Reg.NOC_STAT_TMO] := .of_ok rfl
  have hw := wrote_timeoutRecorded s o
  have hnet : (if o.op = 2 then 1 else 0) < 2 ^ 2 := by split <;> decide
  have hcnt : min (s.getF Reg.NOC_CNT_TMO_CNT + 1) (2 ^ 16 - 1) < 2 ^ 16 := (Nat.min_le_right _ _).trans_lt (by decide)
  have hhi := hw.getF (f := Reg.NOC_TADDR_HI_ADDR_HI) hsep (.tail _ (.head _)) (show o.addr / 2 ^ 32 < 2 ^ 16 by omega)
  have hlo := hw.getF (f := wholeReg Reg.NOC_TADDR_LO) hsep (.tail _ (.tail _ (.head _))) (BitVec.isLt _)
  rw [getF_wholeReg, BitVec.toNat_ofNat] at hlo
  intro v
  refine ⟨hw.flag (b := true) hsep (by simp), hw.getF hsep (by simp) hnet, hw.getF hsep (by simp) hid, hw.getF hsep (by simp) htag,
    hw.flag (f := Reg.NOC_STAT_LN) hsep (by simp), ?_, hw.getF hsep (by simp) hcnt, bitsBut_mono (hw.bitsBut hsep) (by simp)⟩
  rw [hlo, hhi]
  omega

end

/-- Settles O31: a grant moves one flit between two different queues; a response finds its request or is dropped; a timeout writes a few fields. -/
theorem networkTransport : Obligations.NetworkTransport := by
  unfold Obligations.NetworkTransport
  intro s hruns
  refine ⟨fun r out net p f rest => ?_, fun r dat vc p => ?_, fun id ln tag o ho hen htmo haddr => ?_, fun id ln tag => ?_⟩
  · intro s0 hwin hq b
    obtain ⟨hp, hdir, hroom⟩ := arbWinner_spec s0 r out net hwin hq
    obtain ⟨h1, h2, h3⟩ := flitMoved_reads (net := net.val) s0 (rest := rest) hp hdir
    have hexec := exec_nocFlitForward_of_grant s r out net hruns rfl hwin hq
    have hframe := flitMoved_frame s0 r out net p f rest
    refine ⟨hdir, hroom, ?_⟩
    by_cases hout : out.val = 0
    · rw [if_pos hout] at hexec
      have heject := ejectArrive_frame (flitMoved s0 r out net p f rest) r net (p % 2) (p / 2) (some f)
      generalize flitMoved s0 r out net p f rest = u at h1 h2 h3 hexec hframe heject
      generalize ejectArrive u r net (p % 2) (p / 2) (some f) = t at hexec heject
      have hnetq : t.netq = u.netq := (congrArg State.netq heject :)
      have hptr : t.netPtr = u.netPtr := (congrArg State.netPtr heject :)
      have hqueue (r n port vc : Nat) : t.queue r n port vc = u.queue r n port vc := congrArg (fun q => tget (fun _ => []) q (queueKey r n port vc)) hnetq
      refine ⟨t, hexec, (hqueue _ _ _ _).trans h1, (hqueue _ _ _ _).trans h2, ?_, ?_, fun h => absurd hout h⟩
      · exact (congrArg (fun q => tget (fun _ => 13) q (arbKey r out net)) hptr).trans h3
      · exact (congrArg (fun x : State => { x with netq := s0.netq, netPtr := s0.netPtr, memq := s0.memq, cyc := s0.cyc, fresh := s0.fresh }) heject :).trans
          (congrArg (fun x : State => { x with memq := s0.memq, cyc := s0.cyc, fresh := s0.fresh }) hframe :)
    · rw [if_neg hout] at hexec
      exact ⟨_, hexec, h1, h2, h3, (congrArg (fun x : State => { x with memq := s0.memq, cyc := s0.cyc, fresh := s0.fresh }) hframe :), fun _ => hframe⟩
  · intro net hp u
    refine ⟨fun o ho => exec_nocResponse_of_waiting s r dat vc hruns hp ho, fun ho => ?_⟩
    obtain ⟨hlate, hcnt, hraised, hdrop, hbits, hframe⟩ := lateDropped_reads u p.id
    have hexec := exec_nocResponse_of_late s r dat vc hruns hp ho
    have hq : { u with netq := s.netq } = s := rfl
    have hregs : u.regs = s.regs := rfl
    rw [getF_of_regs hregs] at hcnt
    have hbits := bitsBut_trans (bitsBut_of_regs (bitsBut_refl _ s) hregs) hbits
    refine ⟨_, hexec, hlate, hcnt, hraised.trans (raiseEv_raised_congr 229 rfl rfl rfl rfl), fun h => hdrop _ (napOf_port h),
        fun h h2 => hdrop _ (napOf_teller h h2), hbits, ?_⟩
    exact (congrArg (fun x : State => { x with netq := s.netq }) hframe :).trans hq
  · obtain ⟨hid, hln, htag⟩ := eq_of_findOutst s o ho
    obtain ⟨h1, h2, h3, h4, h5, h6, h7, h8⟩ := timeoutRecorded_reads s o haddr (hid ▸ id.isLt) (htag ▸ tag.isLt)
    have hraised := raised_timeoutRecorded s o
    have hframe := regsEvOnly_timeoutRecorded s o
    have hexec := exec_nocTimeout_of_run_out s o id ln tag hruns ho hen htmo
    generalize timeoutRecorded s o = v at h1 h2 h3 h4 h5 h6 h7 h8 hraised hframe hexec
    have hquar : v.quar = s.quar := (congrArg State.quar hframe :)
    have houtst : v.outst = s.outst := (congrArg State.outst hframe :)
    have hregs : (endOutst v o).regs = v.regs := rfl
    refine ⟨endOutst v o, hexec, (flag_of_regs hregs _).trans h1, (getF_of_regs hregs _).trans h2, (getF_of_regs hregs _).trans (h3.trans hid),
      (getF_of_regs hregs _).trans (h4.trans htag), (flag_of_regs hregs _).trans (h5.trans hln), ?_, (getF_of_regs hregs _).trans h7, hraised,
      ?_, ?_, bitsBut_of_regs h8 hregs, ?_⟩
    · rw [reg_of_regs hregs, getF_of_regs hregs]
      exact h6
    · rw [← hid, ← hln, ← htag, ← hquar]
      rfl
    · rw [← hid, ← hln, ← htag, ← houtst]
      rfl
    · exact (congrArg (fun x : State => { x with outst := s.outst, quar := s.quar }) hframe :)
  · rw [exec_tagQuarantineEnd]
    exact okIf_of_true _ _ hruns

end Sys2Proof.Machine

/-!
SUPPORT. Registers outside the lanes while lanes are evaluated again, and what a request that enters the network changes.
-/

namespace Sys2Proof.Machine

/-! ### Lanes evaluated again -/

/-- What looks at none of these is kept. -/
theorem LanesOnly.keeps {s t : State} {α : Type} (h : LanesOnly s t) (f : State → α)
    (hf : ∀ u r c a b d, f { u with regs := r, cyc := c, tk := a, fe := b, laneTest := d } = f u) : f t = f s := by
  rw [h.eq]
  exact hf s _ _ _ _ _

section
variable (s : State) {n o : Nat}

/-- A register outside the lanes. -/
def offLanes (o : Nat) : Prop := o < 0x200000 ∨ 0x480000 ≤ o

theorem reg_laneEnter (hn : n < 144) (ho : offLanes o) (st : Nat) : (laneEnter s n st).reg o = s.reg o := by
  refine reg_of_bitsBut (bitsBut_laneEnter s n st) fun f hf => ?_
  have hcase : f = Reg.LN_BU_STAT_STATE n ∨ f = Reg.LN_TK_STAT_LOCKED n ∨ f = Reg.LN_FE_STAT_ALIGNED n := by simpa [moveFields] using hf
  unfold offLanes at ho
  rcases hcase with rfl | rfl | rfl
  · simp only [Reg.LN_BU_STAT_STATE, Reg.LN_BU_STAT]
    omega
  · simp only [Reg.LN_TK_STAT_LOCKED, Reg.LN_TK_STAT]
    omega
  · simp only [Reg.LN_FE_STAT_ALIGNED, Reg.LN_FE_STAT]
    omega

theorem evs_laneEnter (n st : Nat) : (laneEnter s n st).cyc.evs = s.cyc.evs := by
  obtain ⟨f, -, tk, fe, h⟩ := laneEnter_eq s n st
  rw [h]
  rfl

theorem reg_enterTest (hn : n < 144) (ho : offLanes o) : (enterTest s n).reg o = s.reg o := by
  unfold offLanes at ho
  refine (reg_setF_ne (laneEnter s n 7) _ _ _ ?_).trans (reg_laneEnter s hn ho 7)
  simp only [Reg.LN_TEST_STAT_SYNC, Reg.LN_TEST_STAT]
  omega

theorem laneReeval_keeps (hn : n < 144) (ho : offLanes o) :
    (laneReeval s n).reg o = s.reg o ∧ (laneReeval s n).cyc.evs = s.cyc.evs := by
  have htest : (enterTest s n).cyc.evs = s.cyc.evs := evs_laneEnter s n 7
  unfold laneReeval laneRestart
  split
  · split
    · exact ⟨rfl, rfl⟩
    · exact ⟨reg_laneEnter s hn ho 0, evs_laneEnter s n 0⟩
  · split
    · split
      · exact ⟨reg_enterTest s hn ho, htest⟩
      · exact ⟨reg_laneEnter s hn ho _, evs_laneEnter s n _⟩
    · exact ⟨rfl, rfl⟩

theorem allLanesReeval_keeps (ho : offLanes o) :
    (allLanesReeval s).reg o = s.reg o ∧ (allLanesReeval s).cyc.evs = s.cyc.evs := by
  have hfold (l : List Nat) (u : State) (hl : ∀ n ∈ l, n < 144) :
      (l.foldl laneReeval u).reg o = u.reg o ∧ (l.foldl laneReeval u).cyc.evs = u.cyc.evs := by
    induction l generalizing u with
    | nil => exact ⟨rfl, rfl⟩
    | cons n l ih =>
      obtain ⟨hreg, hevs⟩ := ih (laneReeval u n) fun m hm => hl m (List.mem_cons_of_mem n hm)
      obtain ⟨hreg1, hevs1⟩ := laneReeval_keeps u (hl n List.mem_cons_self) ho
      exact ⟨hreg.trans hreg1, hevs.trans hevs1⟩
  exact hfold (List.range 144) s fun n hn => List.mem_range.mp hn

theorem reg_allLanesReeval (ho : offLanes o) : (allLanesReeval s).reg o = s.reg o := (allLanesReeval_keeps s ho).1

theorem evs_allLanesReeval : (allLanesReeval s).cyc.evs = s.cyc.evs := (allLanesReeval_keeps s (o := 0) (.inl (by decide))).2

theorem flag_allLanesReeval {f : Field} (ho : offLanes f.reg) : (allLanesReeval s).flag f = s.flag f := flag_of_reg (reg_allLanesReeval s ho)

theorem getF_allLanesReeval {f : Field} (ho : offLanes f.reg) : (allLanesReeval s).getF f = s.getF f := getF_of_reg (reg_allLanesReeval s ho)

end

/-! ### Requests that enter the network -/

/-- Nothing but the network's queues, tags and timers, the record of the slot and the numbers drawn differs, and no event is recorded. -/
def NetOnly (s t : State) : Prop :=
  { t with fresh := s.fresh, quar := s.quar, outst := s.outst, inject := s.inject, netq := s.netq, memq := s.memq, cyc := s.cyc } = s ∧
    t.cyc.evs = s.cyc.evs

section
variable {s t u : State}

theorem NetOnly.refl (s : State) : NetOnly s s := ⟨rfl, rfl⟩

theorem NetOnly.eq (h : NetOnly s t) :
    t = { s with fresh := t.fresh, quar := t.quar, outst := t.outst, inject := t.inject, netq := t.netq, memq := t.memq, cyc := t.cyc } :=
  (congrArg (fun x : State =>
    { x with fresh := t.fresh, quar := t.quar, outst := t.outst, inject := t.inject, netq := t.netq, memq := t.memq, cyc := t.cyc }) h.1 :)

theorem NetOnly.keeps {α : Type} (h : NetOnly s t) (f : State → α)
    (hf : ∀ u a b c d e g k, f { u with fresh := a, quar := b, outst := c, inject := d, netq := e, memq := g, cyc := k } = f u) : f t = f s := by
  rw [h.eq]
  exact hf s _ _ _ _ _ _ _

theorem NetOnly.trans (h : NetOnly s t) (h2 : NetOnly t u) : NetOnly s u := by
  refine ⟨?_, h2.2.trans h.2⟩
  rw [h2.eq]
  exact h.1

theorem netOnly_draw (s : State) : NetOnly s s.draw.2 := ⟨rfl, rfl⟩

theorem netOnly_setQueue (s : State) (r net port vc : Nat) (q : List Flit) : NetOnly s (s.setQueue r net port vc q) := ⟨rfl, rfl⟩

theorem netOnly_memArrive (s : State) (r net vc port : Nat) (q : NocReq) : NetOnly s (memArrive s r net vc port q) := by
  unfold memArrive State.draw
  dsimp only
  split <;> split <;> exact ⟨rfl, rfl⟩

theorem netOnly_ejectArrive (s : State) (r net vc port : Nat) (f : Option Flit) : NetOnly s (ejectArrive s r net vc port f) := by
  unfold ejectArrive
  split
  · split
    · exact netOnly_memArrive s r net vc port _
    · exact .refl s
  · exact .refl s

theorem netOnly_enterQueue (s : State) (r net port vc : Nat) (f : Flit) : NetOnly s (enterQueue s r net port vc f) := by
  have hq := netOnly_setQueue s r net port vc (s.queue r net port vc ++ [f])
  have harrive (b : Prop) [Decidable b] : NetOnly s (if b then ejectArrive (s.setQueue r net port vc (s.queue r net port vc ++ [f])) r net vc 0 (some f)
      else s.setQueue r net port vc (s.queue r net port vc ++ [f])) := by
    split
    · exact hq.trans (netOnly_ejectArrive _ _ _ _ _ _)
    · exact hq
  unfold enterQueue
  dsimp only
  generalize hu : (if port = 7 then ejectArrive (s.setQueue r net port vc (s.queue r net port vc ++ [f])) r net vc 0 (some f)
      else s.setQueue r net port vc (s.queue r net port vc ++ [f])) = u
  have hu : NetOnly s u := hu ▸ harrive (port = 7)
  split
  · exact hu.trans ⟨rfl, rfl⟩
  · exact hu

theorem netOnly_pullInject (s : State) (r : Nat) : NetOnly s (pullInject s r) := by
  have hfold (g : State × List (Nat × Nat × Flit) → Nat × Nat × Flit → State × List (Nat × Nat × Flit))
      (hg : ∀ a e, NetOnly a.1 (g a e).1) (l : List (Nat × Nat × Flit)) (a : State × List (Nat × Nat × Flit)) :
      NetOnly a.1 (l.foldl g a).1 := by
    induction l generalizing a with
    | nil => exact .refl _
    | cons e l ih => exact (hg a e).trans (ih _)
  have hstep (u : State) (c : Bool) (net port vc : Nat) (f : Flit) (x y : List (Nat × Nat × Flit)) :
      NetOnly u (if c = true then (u, x) else (enterQueue u r net port vc f, y)).1 := by
    cases c
    · exact netOnly_enterQueue _ _ _ _ _ _
    · exact .refl _
  unfold pullInject
  exact (hfold _ (fun a e => hstep a.1 _ _ _ _ _ _ _) _ (s, [])).trans ⟨rfl, rfl⟩

theorem netOnly_takeTag (s : State) (id : Nat) (ln : Bool) : NetOnly s (takeTag s id ln).1 := by
  unfold takeTag State.draw
  dsimp only
  split
  · exact ⟨rfl, rfl⟩
  · split <;> exact ⟨rfl, rfl⟩

/-- A request issued (R260). -/
theorem netOnly_issue (s : State) (r : NocReq) (note aux : Nat) : NetOnly s (issue s r note aux).1 := by
  have htag := netOnly_takeTag s r.src r.ln
  unfold issue
  generalize takeTag s r.src r.ln = p at htag
  obtain ⟨s1, tag⟩ := p
  dsimp only at htag ⊢
  have hinject (o : Outst) (a net vc : Nat) (f : Flit) : NetOnly s (injectFlit { s1 with outst := s1.outst ++ [o] } a net vc f) :=
    htag.trans ⟨rfl, rfl⟩
  split
  · exact (hinject _ _ _ _ _).trans (netOnly_pullInject _ _)
  · exact hinject _ _ _ _ _

end

end Sys2Proof.Machine

/-!
SUPPORT. Power states (21_power.md R414 to R427): a state that the statement on the entry does not fit.
-/

namespace Sys2Proof.Machine

/-- An entry into KEEP under way at the end of its tick, with two entries for the NAP of sector 0: the first, which reads show, holds no credits
and the second, which no read shows, holds five. -/
def twiceNap : State :=
  { State.reset with
    phase := .run, time := { TimeState.reset with inTick := 8, tickSlots := 8 }, aon := { Aon.reset with entry := 1, mode := 2 },
    naps := [(0, Nap.reset), (0, { Nap.reset with cred := 5 })] }

set_option maxRecDepth 4000 in
theorem not_sending_twiceNap : ¬ ∃ n, n < 144 ∧ twiceNap.flag (Reg.LN_WAKE_SENDING n) = true := by
  have h : ∀ n ∈ List.range 144, twiceNap.flag (Reg.LN_WAKE_SENDING n) = false := by decide
  rintro ⟨n, hn, hs⟩
  exact Bool.false_ne_true ((h n (List.mem_range.mpr hn)).symm.trans hs)

/-- Fencing empties the first entry, which a table does not hold, so that a read then meets the second. -/
theorem lost_entryFence_of_twiceNap {x : State} (h : x.naps = twiceNap.naps) : ((entryFence x).nap 0).lost = 5 := by
  unfold entryFence
  rw [h]
  rfl

/-- Refutes O46: the entry of `twiceNap` fences the NAP of sector 0, which held and had lost nothing, and leaves five credits lost there. -/
theorem not_powerStates : ¬ Obligations.PowerStates := by
  unfold Obligations.PowerStates
  intro h
  obtain ⟨hentry, -⟩ := h twiceNap
  obtain ⟨-, hstops, -⟩ := hentry rfl rfl (.inl (by decide))
  obtain ⟨-, hgo⟩ := hstops rfl (by decide)
  obtain ⟨-, -, -, hfenced⟩ := hgo (.inl (by decide))
  have hlost := ((hfenced (by decide) not_sending_twiceNap (by decide)).1 0).2
  refine absurd ((lost_entryFence_of_twiceNap ?_).symm.trans hlost) (by decide)
  exact (lanesOnly_allLanesReeval _).keeps State.naps fun _ _ _ _ _ _ => rfl

end Sys2Proof.Machine

/-!
SUPPORT. Debug access, the run-time link test and GPIO (23_debug_bist.md R446 to R462, 24_pins_package.md R478).
-/

namespace Sys2Proof.Machine

/-! ### The access engine -/

section
variable (s : State)

/-- The request of the engine in the words of Table 23.3. -/
theorem engineReq_eq {size : Nat} (h : size ≤ 3) (write : Bool) (key addr data : Nat) : engineReq write size key addr data =
    { mkReq write.toNat size 0x204 key addr (data % 2 ^ (8 * 2 ^ size) * 2 ^ (8 * (addr % 8)) % 2 ^ 64) with peek := !write } := by
  unfold engineReq
  rw [sizeBytes_of_le h]

theorem engineIssue_of_runs {s : State} (h : s.nocRuns = true) (write i2c : Bool) (size key addr data : Nat) :
    engineIssue s write i2c size key addr data = (issue (engineBusy s i2c) (engineReq write size key addr data) 0 0).1 := by
  have hhalt : s.dbgHalt = false := by
    unfold State.nocRuns at h
    simp only [Bool.and_eq_true, Bool.not_eq_true'] at h
    exact h.1.2
  have hruns : (engineBusy s i2c).nocRuns = true := h
  unfold engineIssue
  simp [hhalt, h]

theorem engineOn_of_runs {s : State} (h : s.nocRuns = true) : engineOn s = true := by
  unfold State.nocRuns at h
  unfold engineOn
  simp only [Bool.and_eq_true, Bool.or_eq_true] at h ⊢
  exact .inl h.1.1.symm

theorem engineBusy_eq (i2c : Bool) :
    engineBusy s i2c = ({ s with dbg := { s.dbg with i2c := i2c } } : State).raiseF Reg.DBG_STAT_ACC_BUSY := rfl

/-- In a debug halt what the stopped network would have to carry waits (R448). -/
theorem engineIssue_of_waits {s : State} {addr : Nat} (hhalt : s.dbgHalt = true) (hfar : directBlock addr = false) (write i2c : Bool) (size key data : Nat) :
    engineIssue s write i2c size key addr data =
      { engineBusy s i2c with dbg := { (engineBusy s i2c).dbg with wait := some (engineReq write size key addr data) } } := by
  have hruns : s.nocRuns = false := by
    unfold State.nocRuns
    simp [hhalt]
  unfold engineIssue
  simp [hfar, hruns]

theorem engineIssue_of_direct {s : State} {addr : Nat} (hhalt : s.dbgHalt = true) (hnear : directBlock addr = true) (write i2c : Bool) (size key data : Nat) :
    engineIssue s write i2c size key addr data = engineDirect (engineBusy s i2c) (engineReq write size key addr data) := by
  unfold engineIssue
  simp [hhalt, hnear]

/-- The data register of DBG_ACCESS with what it captures (R447). -/
def accessLoaded : State := { s with tapIr := 0x20, dbg := { s.dbg with dr := accessCapture s } }

theorem exec_dbgAccess_eq (v : BitVec 123) (hserv : servicePins s = true) (hac : tapAc s = false) : exec (.dbgAccess v) s =
    if v.toNat % 4 = 0 ∨ v.toNat % 4 = 3 ∨ engineOn s = false then .next (accessLoaded s)
    else if accBusy s then .next ((accessLoaded s).raiseF Reg.DBG_STAT_ACC_OVR)
    else .next (engineIssue (accessLoaded s) (v.toNat % 4 == 2) false (v.toNat / 4 % 4) (v.toNat / 16 % 64) (v.toNat / 2 ^ 10 % 2 ^ 48)
      (v.toNat / 2 ^ 59)) := by
  rw [exec_dbgAccess]
  unfold execDbgAccess tapLoad
  rw [setIr_of_not_ac hac (by decide)]
  simp only [hserv, Bool.not_true, Bool.false_eq_true, if_false, Bool.not_eq_true']
  rfl

theorem accBusy_raised : BitsBut [Reg.DBG_STAT_ACC_BUSY] s (engineBusy s false) ∧ (engineBusy s false).flag Reg.DBG_STAT_ACC_BUSY = true :=
  ⟨bitsBut_of_regs (bitsBut_raiseF (bitsBut_refl _ s) _ (by simp) (by decide) (by decide)) rfl,
    (flag_of_regs (s := s.raiseF Reg.DBG_STAT_ACC_BUSY) rfl _).trans (flag_raiseF s _ (by decide) (by decide))⟩

/-- A read through the direct path answers at once (R448). -/
theorem engineDirect_of_read {u : State} {key o data : Nat} (h4 : o % 4 = 0) (hrow : (regRow o).isSome = true) :
    engineDirect u (engineReq false 2 key (0x700000000 + o) data) =
      dbgRespond (regRead u o true 0x204).1
        { id := 0x204, ln := false, tag := 0, op := 0, addr := 0x700000000 + o, size := 2, tmo := none, note := 0, aux := 0 }
        (regRead u o true 0x204).2.1 ((regRead u o true 0x204).2.2.toNat * 2 ^ (8 * (o % 8))) := by
  have ho : 0x700000000 + o - 0x700000000 = o := by omega
  have hal : o / 4 * 4 = o := by omega
  have hrow : (regRow o).isNone = false := by simpa using hrow
  unfold engineDirect serveReg
  simp only [engineReq, mkReq, ho, hal, hrow, h4, Bool.false_eq_true, if_false, ne_eq, not_true_eq_false, or_self, Bool.toNat_false,
    Bool.not_false]
  rfl

/-- What the engine keeps of the answer to a read of a register (R447). -/
theorem dbgRespond_reads (u : State) (o status : Nat) (w : Word32) (h4 : o % 4 = 0) :
    let t := dbgRespond u { id := 0x204, ln := false, tag := 0, op := 0, addr := 0x700000000 + o, size := 2, tmo := none, note := 0, aux := 0 }
      status (w.toNat * 2 ^ (8 * (o % 8)))
    t.flag Reg.DBG_STAT_ACC_BUSY = false ∧ t.getF Reg.DBG_STAT_ACC_RESP = status % 4 ∧ t.dbg.val = if status = 0 then w.setWidth 64 else 0 := by
  have hw : Wrote [(Reg.DBG_STAT_ACC_RESP, status), (Reg.DBG_STAT_ACC_BUSY, 0)] u
      ((u.clearF Reg.DBG_STAT_ACC_BUSY).setF Reg.DBG_STAT_ACC_RESP status) := ((Wrote.refl u).setF _ 0).setF _ _
  have hsep : Separate [Reg.DBG_STAT_ACC_RESP, Reg.DBG_STAT_ACC_BUSY] := .of_ok rfl
  refine ⟨(flag_of_regs rfl _).trans (hw.flag (b := false) hsep (by simp)), (getF_of_regs rfl _).trans (hw.getF_mod hsep (by simp)), ?_⟩
  have haddr : (0x700000000 + o) % 8 = o % 8 := by omega
  have hval : w.toNat * 2 ^ (8 * (o % 8)) / 2 ^ (8 * (o % 8)) % 2 ^ (8 * sizeBytes 2) = w.toNat := by
    rw [Nat.mul_div_cancel _ (by positivity)]
    exact Nat.mod_eq_of_lt w.isLt
  unfold dbgRespond
  simp only [haddr, hval, if_true]
  split
  · exact BitVec.eq_of_toNat_eq (by simp)
  · rfl

end

/-! ### The I2C target -/

section
variable {s : State} {a : BitVec 7}

theorem i2cCommand_of_other (h : i2cMine s a = false) (write : Bool) (addr data : Nat) : i2cCommand s a write addr data = i2cStop s := by
  unfold i2cCommand
  simp [h]

theorem i2cCommand_of_nack (h : i2cMine s a = true) (hn : accBusy s = true ∨ engineOn s = false) (write : Bool) (addr data : Nat) :
    i2cCommand s a write addr data = i2cStop { s with resp := ⟨1, 0⟩ } := by
  unfold i2cCommand
  rcases hn with hn | hn <;> simp [h, hn]

/-- The request of the target issued (R457). -/
def i2cSent (s : State) (write : Bool) (addr data : Nat) : State :=
  (issue (({ s with dbg := { s.dbg with i2c := true } } : State).raiseF Reg.DBG_STAT_ACC_BUSY)
    { mkReq write.toNat 2 0x204 0 addr (data % 2 ^ (8 * 2 ^ 2) * 2 ^ (8 * (addr % 8)) % 2 ^ 64) with peek := !write } 0 0).1

/-- The address that the STOP puts into force is the one that stood before the request was issued. -/
theorem i2cAddr_i2cSent (write : Bool) (addr data : Nat) : (i2cSent s write addr data).getF Reg.DBG_I2C_ADDR = s.getF Reg.DBG_I2C_ADDR := by
  unfold i2cSent
  generalize hu : ({ s with dbg := { s.dbg with i2c := true } } : State) = u
  have hregs := (netOnly_issue (u.raiseF Reg.DBG_STAT_ACC_BUSY)
    { mkReq write.toNat 2 0x204 0 addr (data % 2 ^ (8 * 2 ^ 2) * 2 ^ (8 * (addr % 8)) % 2 ^ 64) with peek := !write } 0 0).keeps State.regs
      fun _ _ _ _ _ _ _ _ => rfl
  refine (getF_of_regs hregs _).trans ((getF_setF_reg_ne u Reg.DBG_STAT_ACC_BUSY _ 1 (by decide)).trans ?_)
  exact getF_of_regs (by rw [← hu]) _

theorem i2cCommand_of_issue (h : i2cMine s a = true) (hfree : accBusy s = false) (hruns : s.nocRuns = true) (write : Bool) (addr data : Nat) :
    i2cCommand s a write addr data = { i2cSent s write addr data with
      resp := ⟨0, 0⟩, dbg := { (i2cSent s write addr data).dbg with i2cAddr := s.getF Reg.DBG_I2C_ADDR } } := by
  have hsent : engineIssue s write true 2 0 addr data = i2cSent s write addr data := by
    rw [engineIssue_of_runs hruns, engineReq_eq (show 2 ≤ 3 by decide), engineBusy_eq]
    rfl
  have haddr : State.getF { i2cSent s write addr data with resp := ⟨0, 0⟩ } Reg.DBG_I2C_ADDR = s.getF Reg.DBG_I2C_ADDR :=
    (getF_of_regs rfl _).trans (i2cAddr_i2cSent write addr data)
  unfold i2cCommand i2cStop
  rw [hsent, haddr]
  simp [h, hfree, engineOn_of_runs hruns]

end

/-! ### The run-time link test -/

/-- Nothing but registers, the record of the slot, events, the test, the spares in use and the links lost differs. -/
def RtOnly (s t : State) : Prop :=
  { t with regs := s.regs, cyc := s.cyc, raised := s.raised, rt := s.rt, spares := s.spares, vdead := s.vdead } = s

section
variable {s t u : State}

theorem RtOnly.setF (h : RtOnly s t) (f : Field) (v : Nat) : RtOnly s (t.setF f v) := h
theorem RtOnly.raiseF (h : RtOnly s t) (f : Field) : RtOnly s (t.raiseF f) := h
theorem RtOnly.incF (h : RtOnly s t) (f : Field) : RtOnly s (t.incF f) := h
theorem RtOnly.setReg (h : RtOnly s t) (o : Nat) (v : Word32) : RtOnly s (t.setReg o v) := h
theorem RtOnly.spares (h : RtOnly s t) (x : Tab Nat) : RtOnly s { t with spares := x } := h
theorem RtOnly.vdead (h : RtOnly s t) (x : Tab Bool) : RtOnly s { t with vdead := x } := h

end

section
variable (s : State)

/-- The counts and the record of a test that ends, cleared. -/
def rtCleared : State := ((s.setF Reg.BIST_RT_STAT_FAIL_CNT 0).setF Reg.BIST_RT_STAT_REP_CNT 0).setReg Reg.BIST_RT_FAIL 0

/-- The first failing link named. -/
def rtNamed (p n : Nat) : State :=
  ((s.setF Reg.BIST_RT_FAIL_U (p % 12)).setF Reg.BIST_RT_FAIL_V (p / 12)).setF Reg.BIST_RT_FAIL_LINK n

/-- A test reported. -/
def rtReported : State := { (s.raiseF Reg.BIST_RT_STAT_DONE).clearF Reg.BIST_RT_STAT_BUSY with rt := none }.raiseEv 213

/-- The registers of the test. -/
def rtFields : List Field := [wholeReg Reg.BIST_RT_STAT, wholeReg Reg.BIST_RT_FAIL]

theorem rtCleared_reads : (rtCleared s).getF Reg.BIST_RT_STAT_FAIL_CNT = 0 ∧ (rtCleared s).getF Reg.BIST_RT_STAT_REP_CNT = 0 ∧
    (rtCleared s).reg Reg.BIST_RT_FAIL = 0 ∧ BitsBut rtFields s (rtCleared s) ∧ RtOnly s (rtCleared s) := by
  have hw : Wrote [(Reg.BIST_RT_STAT_REP_CNT, 0), (Reg.BIST_RT_STAT_FAIL_CNT, 0)] s
      ((s.setF Reg.BIST_RT_STAT_FAIL_CNT 0).setF Reg.BIST_RT_STAT_REP_CNT 0) := ((Wrote.refl s).setF _ _).setF _ _
  have hw := hw.setReg Reg.BIST_RT_FAIL 0
  have hsep : Separate [wholeReg Reg.BIST_RT_FAIL, Reg.BIST_RT_STAT_REP_CNT, Reg.BIST_RT_STAT_FAIL_CNT] := .of_ok rfl
  refine ⟨hw.getF hsep (by simp) (by decide), hw.getF hsep (by simp) (by decide), reg_setReg_self _ _ _, ?_, rfl⟩
  exact bitsBut_cover (hw.bitsBut hsep) (by decide)

theorem rtReported_raised {s u : State} (h : RtOnly s u) (hraised : u.raised = s.raised) (hevs : u.cyc.evs = s.cyc.evs) :
    (rtReported u).raised = (s.raiseEv 213).raised :=
  raiseEv_raised_congr 213 hraised (by simpa [raiseF_evs] using hevs) (congrArg State.clockOn h :) (congrArg State.dbgHalt h :)

/-- A fold of steps that do nothing but at one place takes the step there. -/
theorem foldl_at {α β : Type} {f : α → β → α} {n : β} (hf : ∀ a k, k ≠ n → f a k = a) {l : List β} (hn : n ∈ l) (hnd : l.Nodup) (a : α) :
    l.foldl f a = f a n := by
  have hrest : ∀ (l : List β), n ∉ l → ∀ a, l.foldl f a = a := by
    intro l hl
    induction l with
    | nil => intro a; rfl
    | cons k l ih =>
      intro a
      rw [List.foldl_cons, hf a k fun h => hl (h ▸ List.mem_cons_self)]
      exact ih (fun h => hl (List.mem_cons_of_mem k h)) a
  induction l generalizing a with
  | nil => exact absurd hn List.not_mem_nil
  | cons k l ih =>
    obtain ⟨hk, hl⟩ := List.nodup_cons.mp hnd
    rw [List.foldl_cons]
    rcases List.mem_cons.mp hn with rfl | hm
    · exact hrest l hk _
    · rw [hf a k fun h => hk (h ▸ hm)]
      exact ih hm hl a

theorem physical_zero (link : Nat) : physical 0 link = link := rfl

theorem spareSet_zero (n : Nat) : spareSet 0 48 n = n + 1 := by
  unfold spareSet
  simp

/-- One failing working link of a group whose spares are free (R462): moved onto spare 48, or lost. -/
theorem rtGroup_of_one {pair p n : Nat} {repair : Bool} (hn : n < 48) (hspare : tget (fun _ => 0) s.spares (144 * pair + p) = 0)
    (hlive : tget (fun _ => false) s.vdead (vlinkKey (tileOf pair (p % 12) (p / 12)) n) = false) : rtGroup s pair p repair [n] =
    if repair then { s.incF Reg.BIST_RT_STAT_REP_CNT with spares := tset (fun _ => 0) s.spares (144 * pair + p) (n + 1) }
    else ({ s with vdead := tset (fun _ => false) s.vdead (vlinkKey (tileOf pair (p % 12) (p / 12)) n) true }.raiseF
      Reg.BIST_RT_STAT_FAIL).incF Reg.BIST_RT_STAT_FAIL_CNT := by
  have hlast (m : Nat) : [48, 49].filter (fun k => [n].contains k && (spareUser m k).isNone) = [] := by
    have h48 : n ≠ 48 := by omega
    have h49 : n ≠ 49 := by omega
    simp [h48.symm, h49.symm]
  unfold rtGroup
  dsimp only
  rw [hspare, hlast, List.foldl_nil, foldl_at (n := n) ?_ (List.mem_range.mpr hn) List.nodup_range]
  · have hfree : [48, 49].find? (fun k => (spareUser 0 k).isNone && !([n].contains k)) = some 48 := by
      have h48 : 48 ≠ n := by omega
      simp [h48, spareUser]
    have hbad : [n].contains n = true := by simp
    simp only [physical_zero, hbad, hlive, hspare, hfree, spareSet_zero, Bool.not_false, Bool.and_self, if_true]
  · intro u k hk
    simp [physical_zero, hk]

end

/-- The group of a test that fails at one link. -/
theorem exec_rtBistRun_of_end {s : State} {e : RtTest} {j : Nat} (he : s.rt = some e) (hj : e.start = some j) (hend : j + 200 ≤ s.time.slots)
    (fails : List (Fin 144 × Fin 50)) : exec (.rtBistRun fails) s = .next (rtReported (((fails.map (fun f => f.1.val)).eraseDups).foldl (fun acc p =>
      rtGroup acc e.pair p e.repair ((fails.filter (fun f => f.1.val == p)).map (fun f => f.2.val)))
      ((fails.head?).elim (rtCleared s) fun f => rtNamed (rtCleared s) f.1.val f.2.val))) := by
  rw [exec_rtBistRun]
  unfold execRtBistRun
  simp only [he, hj, Option.any_some, decide_eq_true hend, if_true]
  cases fails <;> rfl

theorem exec_rtBistRun_of_none {s : State} {e : RtTest} {j : Nat} (he : s.rt = some e) (hj : e.start = some j) (hend : j + 200 ≤ s.time.slots) :
    exec (.rtBistRun []) s = .next (rtReported (rtCleared s)) := exec_rtBistRun_of_end he hj hend []

theorem exec_rtBistRun_of_one {s : State} {e : RtTest} {j : Nat} (he : s.rt = some e) (hj : e.start = some j) (hend : j + 200 ≤ s.time.slots)
    (p : Fin 144) (n : Fin 50) : exec (.rtBistRun [(p, n)]) s =
      .next (rtReported (rtGroup (rtNamed (rtCleared s) p.val n.val) e.pair p.val e.repair [n.val])) := by
  rw [exec_rtBistRun_of_end he hj hend]
  simp [List.eraseDups_cons]

/-- A test of `s` ended and reported (R462). -/
def RtEnded (s t : State) : Prop :=
  t.rt = none ∧ t.flag Reg.BIST_RT_STAT_DONE = true ∧ t.flag Reg.BIST_RT_STAT_BUSY = false ∧ t.raised = (s.raiseEv 213).raised ∧
    BitsBut [wholeReg Reg.BIST_RT_STAT, wholeReg Reg.BIST_RT_FAIL] s t ∧
    { t with regs := s.regs, cyc := s.cyc, raised := s.raised, rt := s.rt, spares := s.spares, vdead := s.vdead } = s

section
variable {s x u : State}

/-- The report of a test leaves the fields that its groups wrote. -/
theorem wrote_rtReported {vals : List (Field × Nat)} (h : Wrote vals x u) :
    Wrote ((Reg.BIST_RT_STAT_BUSY, 0) :: (Reg.BIST_RT_STAT_DONE, 1) :: vals) x (rtReported u) :=
  ((h.raiseF Reg.BIST_RT_STAT_DONE).setF Reg.BIST_RT_STAT_BUSY 0).of_regs rfl

theorem rtEnded_rtReported {vals : List (Field × Nat)} (hw : Wrote vals (rtCleared s) u)
    (hsep : Separate (Reg.BIST_RT_STAT_BUSY :: Reg.BIST_RT_STAT_DONE :: vals.map Prod.fst))
    (hin : ∀ f ∈ vals.map Prod.fst, f.reg = Reg.BIST_RT_STAT ∨ f.reg = Reg.BIST_RT_FAIL) (honly : RtOnly s u) (hraised : u.raised = s.raised)
    (hevs : u.cyc.evs = s.cyc.evs) : RtEnded s (rtReported u) := by
  have hrep := wrote_rtReported hw
  refine ⟨rfl, hrep.flag (b := true) hsep (by simp), hrep.flag (b := false) hsep (by simp), rtReported_raised honly hraised hevs, ?_, honly⟩
  refine bitsBut_trans (rtCleared_reads s).2.2.2.1 (bitsBut_cover (hrep.bitsBut hsep) fun f hf => ?_)
  have hhi : f.hi ≤ 31 := Nat.le_of_lt_succ (hsep.1 f hf).2
  have hreg : f.reg = Reg.BIST_RT_STAT ∨ f.reg = Reg.BIST_RT_FAIL := by
    rcases List.mem_cons.mp hf with rfl | hf
    · exact .inl rfl
    · rcases List.mem_cons.mp hf with rfl | hf
      · exact .inl rfl
      · exact hin f hf
  rcases hreg with h | h
  · exact ⟨wholeReg Reg.BIST_RT_STAT, .head _, h.symm, Nat.zero_le _, hhi⟩
  · exact ⟨wholeReg Reg.BIST_RT_FAIL, .tail _ (.head _), h.symm, Nat.zero_le _, hhi⟩

/-- What the failing link is named with. -/
def namedWrites (p n : Nat) : List (Field × Nat) :=
  [(Reg.BIST_RT_FAIL_LINK, n), (Reg.BIST_RT_FAIL_V, p / 12), (Reg.BIST_RT_FAIL_U, p % 12)]

theorem wrote_rtNamed (s : State) (p n : Nat) : Wrote (namedWrites p n) s (rtNamed s p n) := (((Wrote.refl s).setF _ _).setF _ _).setF _ _

/-- A test that found nothing (R462). -/
theorem rtEnded_of_none (s : State) : let t := rtReported (rtCleared s)
    RtEnded s t ∧ t.getF Reg.BIST_RT_STAT_FAIL_CNT = 0 ∧ t.getF Reg.BIST_RT_STAT_REP_CNT = 0 ∧ t.reg Reg.BIST_RT_FAIL = 0 ∧ t.spares = s.spares ∧
      t.vdead = s.vdead := by
  obtain ⟨hfails, hreps, hfail, -, honly⟩ := rtCleared_reads s
  have hw := Wrote.refl (rtCleared s)
  have hbits := (wrote_rtReported hw).bitsBut (.of_ok rfl)
  refine ⟨rtEnded_rtReported hw (.of_ok rfl) (by simp) honly rfl rfl, ?_, ?_, ?_, rfl, rfl⟩
  · exact (getF_of_bitsBut hbits (by decide)).trans hfails
  · exact (getF_of_bitsBut hbits (by decide)).trans hreps
  · exact (reg_of_bitsBut hbits (by decide)).trans hfail

/-- What a test that names a failing link has done to `s` before it deals with the link. -/
structure Named (s x : State) (p n : Nat) : Prop where
  wrote : Wrote (namedWrites p n) (rtCleared s) x
  only : RtOnly s x
  raised : x.raised = s.raised
  evs : x.cyc.evs = s.cyc.evs
  spares : x.spares = s.spares
  vdead : x.vdead = s.vdead

theorem rtNamed_frame (s : State) (p n : Nat) : (rtNamed s p n).raised = s.raised ∧ (rtNamed s p n).cyc.evs = s.cyc.evs ∧
    (rtNamed s p n).spares = s.spares ∧ (rtNamed s p n).vdead = s.vdead := ⟨rfl, rfl, rfl, rfl⟩

theorem rtCleared_frame (s : State) : (rtCleared s).raised = s.raised ∧ (rtCleared s).cyc.evs = s.cyc.evs ∧
    (rtCleared s).spares = s.spares ∧ (rtCleared s).vdead = s.vdead := ⟨rfl, rfl, rfl, rfl⟩

theorem named_rtNamed (s : State) (p n : Nat) : Named s (rtNamed (rtCleared s) p n) p n := by
  obtain ⟨-, -, -, -, honly⟩ := rtCleared_reads s
  obtain ⟨h1, h2, h3, h4⟩ := rtCleared_frame s
  generalize hx : rtCleared s = x at *
  obtain ⟨h5, h6, h7, h8⟩ := rtNamed_frame x p n
  exact ⟨hx ▸ wrote_rtNamed x p n, ((honly.setF _ _).setF _ _).setF _ _, h5.trans h1, h6.trans h2, h7.trans h3, h8.trans h4⟩

section
variable {p n : Nat}

/-- The link that a test names. -/
theorem named_of_wrote {vals : List (Field × Nat)} {x t : State} (hw : Wrote vals x t) (hsep : Separate (vals.map Prod.fst))
    (hsub : ∀ v ∈ namedWrites p n, v ∈ vals) (hp : p < 144) (hn : n < 48) :
    t.getF Reg.BIST_RT_FAIL_U = p % 12 ∧ t.getF Reg.BIST_RT_FAIL_V = p / 12 ∧ t.getF Reg.BIST_RT_FAIL_LINK = n := by
  have hv : p / 12 < 2 ^ 4 := by omega
  have hu : p % 12 < 2 ^ 4 := by omega
  have hl : n < 2 ^ 6 := by omega
  exact ⟨hw.getF hsep (hsub _ (by simp [namedWrites])) hu, hw.getF hsep (hsub _ (by simp [namedWrites])) hv,
    hw.getF hsep (hsub _ (by simp [namedWrites])) hl⟩

/-- A failing link moved onto a spare (R462). -/
def rtMoved (x : State) (key n : Nat) : State := { x.incF Reg.BIST_RT_STAT_REP_CNT with spares := tset (fun _ => 0) x.spares key (n + 1) }

/-- A failing link lost (R462). -/
def rtLost (x : State) (link : Nat) : State :=
  ({ x with vdead := tset (fun _ => false) x.vdead link true }.raiseF Reg.BIST_RT_STAT_FAIL).incF Reg.BIST_RT_STAT_FAIL_CNT

theorem evs_rtMoved (x : State) (key n : Nat) : (rtMoved x key n).cyc.evs = x.cyc.evs := incF_evs x Reg.BIST_RT_STAT_REP_CNT

theorem evs_rtLost (x : State) (link : Nat) : (rtLost x link).cyc.evs = x.cyc.evs :=
  (incF_evs _ _).trans (raiseF_evs { x with vdead := tset (fun _ => false) x.vdead link true } Reg.BIST_RT_STAT_FAIL)

theorem rtMoved_reads (h : Named s x p n) (hp : p < 144) (hn : n < 48) (key : Nat) : let t := rtReported (rtMoved x key n)
    RtEnded s t ∧ (t.getF Reg.BIST_RT_FAIL_U = p % 12 ∧ t.getF Reg.BIST_RT_FAIL_V = p / 12 ∧ t.getF Reg.BIST_RT_FAIL_LINK = n) ∧
      t.getF Reg.BIST_RT_STAT_REP_CNT = 1 ∧ t.getF Reg.BIST_RT_STAT_FAIL_CNT = 0 ∧ t.vdead = s.vdead ∧
      tget (fun _ => 0) t.spares key = n + 1 := by
  obtain ⟨hfails, hreps, -, -, -⟩ := rtCleared_reads s
  have hw := h.wrote.addF (f := Reg.BIST_RT_STAT_REP_CNT) 1 (.of_ok rfl) rfl
  rw [hreps] at hw
  have hw : Wrote [(Reg.BIST_RT_STAT_REP_CNT, 1), (Reg.BIST_RT_FAIL_LINK, n), (Reg.BIST_RT_FAIL_V, p / 12), (Reg.BIST_RT_FAIL_U, p % 12)]
    (rtCleared s) (rtMoved x key n) := hw.of_regs rfl
  have hrep := wrote_rtReported hw
  have hregs : ∀ f ∈ [Reg.BIST_RT_STAT_REP_CNT, Reg.BIST_RT_FAIL_LINK, Reg.BIST_RT_FAIL_V, Reg.BIST_RT_FAIL_U],
    f.reg = Reg.BIST_RT_STAT ∨ f.reg = Reg.BIST_RT_FAIL := by decide
  have hsep : Separate [Reg.BIST_RT_STAT_BUSY, Reg.BIST_RT_STAT_DONE, Reg.BIST_RT_STAT_REP_CNT, Reg.BIST_RT_FAIL_LINK, Reg.BIST_RT_FAIL_V,
    Reg.BIST_RT_FAIL_U] := .of_ok rfl
  refine ⟨rtEnded_rtReported hw hsep hregs ((h.only.incF _).spares _) h.raised ((evs_rtMoved x key n).trans h.evs),
    named_of_wrote hrep hsep ?_ hp hn, hrep.getF hsep (by simp) (by decide), ?_, h.vdead, tget_tset_self _ _ _ _⟩
  · exact fun v hv => .tail _ (.tail _ (.tail _ hv))
  · exact (getF_of_bitsBut (hrep.bitsBut hsep) (by simp [Reg.BIST_RT_STAT_BUSY, Reg.BIST_RT_STAT_DONE, Reg.BIST_RT_STAT_REP_CNT,
      Reg.BIST_RT_STAT_FAIL_CNT, Reg.BIST_RT_FAIL_LINK, Reg.BIST_RT_FAIL_V, Reg.BIST_RT_FAIL_U, Reg.BIST_RT_STAT, Reg.BIST_RT_FAIL])).trans hfails

theorem rtLost_reads (h : Named s x p n) (hp : p < 144) (hn : n < 48) (link : Nat) : let t := rtReported (rtLost x link)
    RtEnded s t ∧ (t.getF Reg.BIST_RT_FAIL_U = p % 12 ∧ t.getF Reg.BIST_RT_FAIL_V = p / 12 ∧ t.getF Reg.BIST_RT_FAIL_LINK = n) ∧
      t.getF Reg.BIST_RT_STAT_REP_CNT = 0 ∧ t.getF Reg.BIST_RT_STAT_FAIL_CNT = 1 ∧ t.flag Reg.BIST_RT_STAT_FAIL = true ∧ t.spares = s.spares ∧
      tget (fun _ => false) t.vdead link = true := by
  obtain ⟨hfails, hreps, -, -, -⟩ := rtCleared_reads s
  have hw := ((h.wrote.of_regs (u := { x with vdead := tset (fun _ => false) x.vdead link true }) rfl).raiseF Reg.BIST_RT_STAT_FAIL).addF
    (f := Reg.BIST_RT_STAT_FAIL_CNT) 1 (.of_ok rfl) rfl
  rw [hfails] at hw
  have hw : Wrote [(Reg.BIST_RT_STAT_FAIL_CNT, 1), (Reg.BIST_RT_STAT_FAIL, 1), (Reg.BIST_RT_FAIL_LINK, n), (Reg.BIST_RT_FAIL_V, p / 12),
    (Reg.BIST_RT_FAIL_U, p % 12)] (rtCleared s) (rtLost x link) := hw
  have hrep := wrote_rtReported hw
  have hregs : ∀ f ∈ [Reg.BIST_RT_STAT_FAIL_CNT, Reg.BIST_RT_STAT_FAIL, Reg.BIST_RT_FAIL_LINK, Reg.BIST_RT_FAIL_V, Reg.BIST_RT_FAIL_U],
    f.reg = Reg.BIST_RT_STAT ∨ f.reg = Reg.BIST_RT_FAIL := by decide
  have hsep : Separate [Reg.BIST_RT_STAT_BUSY, Reg.BIST_RT_STAT_DONE, Reg.BIST_RT_STAT_FAIL_CNT, Reg.BIST_RT_STAT_FAIL, Reg.BIST_RT_FAIL_LINK,
    Reg.BIST_RT_FAIL_V, Reg.BIST_RT_FAIL_U] := .of_ok rfl
  refine ⟨rtEnded_rtReported hw hsep hregs (((h.only.vdead _).raiseF _).incF _) h.raised ((evs_rtLost x link).trans h.evs),
    named_of_wrote hrep hsep ?_ hp hn, ?_, hrep.getF hsep (by simp) (by decide), hrep.flag (b := true) hsep (by simp), h.spares,
    tget_tset_self _ _ _ _⟩
  · exact fun v hv => .tail _ (.tail _ (.tail _ (.tail _ hv)))
  · exact (getF_of_bitsBut (hrep.bitsBut hsep) (by simp [Reg.BIST_RT_STAT_BUSY, Reg.BIST_RT_STAT_DONE, Reg.BIST_RT_STAT_REP_CNT,
      Reg.BIST_RT_STAT_FAIL_CNT, Reg.BIST_RT_STAT_FAIL, Reg.BIST_RT_FAIL_LINK, Reg.BIST_RT_FAIL_V, Reg.BIST_RT_FAIL_U, Reg.BIST_RT_STAT,
          Reg.BIST_RT_FAIL])).trans hreps

end

end

section
variable (s : State) (pair : Fin 128) (repair : Bool)

/-- The word that a request of a test writes (R460). -/
def rtWord : Word32 := BitVec.ofNat 32 (2 ^ 31 + repair.toNat * 2 ^ 30 + pair.val)

theorem rtWord_reads : (rtWord pair repair).toNat % 128 = pair.val ∧ (rtWord pair repair).getLsbD 30 = repair ∧
    (rtWord pair repair).getLsbD 31 = true := by
  have hpair := pair.isLt
  have hnat : (rtWord pair repair).toNat = 2 ^ 31 + repair.toNat * 2 ^ 30 + pair.val := by
    unfold rtWord
    rw [BitVec.toNat_ofNat, Nat.mod_eq_of_lt]
    cases repair <;> simp <;> omega
  refine ⟨?_, ?_, ?_⟩
  · rw [hnat]
    omega
  · rw [BitVec.getLsbD, hnat, Nat.testBit_eq_decide_div_mod_eq]
    cases repair <;> simp <;> omega
  · rw [BitVec.getLsbD, hnat, Nat.testBit_eq_decide_div_mod_eq]
    cases repair <;> simp <;> omega

/-- The request stored (R460). -/
def rtStored : State := (s.putF Reg.BIST_RT_CTRL_REPAIR repair).setF Reg.BIST_RT_CTRL_PAIR pair.val

theorem wrote_rtStored : Wrote [(Reg.BIST_RT_CTRL_PAIR, pair.val), (Reg.BIST_RT_CTRL_REPAIR, repair.toNat)] s (rtStored s pair repair) :=
  ((Wrote.refl s).putF _ repair).setF _ _

theorem exec_rtBistRequest_eq (ha : s.alive = true) : exec (.rtBistRequest pair repair) s =
    if 120 ≤ pair.val ∨ s.rt ≠ none ∨ s.user = false then .next ((rtStored s pair repair).raiseF Reg.BIST_RT_STAT_REFUSED)
    else .next { (rtStored s pair repair).raiseF Reg.BIST_RT_STAT_BUSY with
      rt := some { pair := pair.val, repair := repair, start := none, saved := [] } } := by
  obtain ⟨hpair, hrepair, hgo⟩ := rtWord_reads pair repair
  have hrt : s.rt.isSome = true ↔ s.rt ≠ none := Option.isSome_iff_ne_none
  rw [exec_rtBistRequest]
  unfold execRtBistRequest
  rw [if_pos ha]
  change ok (rtWrite s (rtWord pair repair)) = _
  unfold rtWrite
  rw [hpair, hrepair, hgo]
  simp only [Bool.not_true, Bool.false_eq_true, if_false, hrt, Bool.not_eq_true']
  split <;> rfl

theorem rtRefused_reads : let t := (rtStored s pair repair).raiseF Reg.BIST_RT_STAT_REFUSED
    (t.getF Reg.BIST_RT_CTRL_PAIR = pair.val ∧ t.flag Reg.BIST_RT_CTRL_REPAIR = repair) ∧ t.flag Reg.BIST_RT_STAT_REFUSED = true ∧
      OnlyBits [Reg.BIST_RT_CTRL_PAIR, Reg.BIST_RT_CTRL_REPAIR, Reg.BIST_RT_STAT_REFUSED] s t := by
  have hw := (wrote_rtStored s pair repair).raiseF Reg.BIST_RT_STAT_REFUSED
  have hsep : Separate [Reg.BIST_RT_STAT_REFUSED, Reg.BIST_RT_CTRL_PAIR, Reg.BIST_RT_CTRL_REPAIR] := .of_ok rfl
  have hpair : pair.val < 2 ^ 7 := pair.isLt
  exact ⟨⟨hw.getF hsep (by simp) hpair, hw.flag hsep (by simp)⟩, hw.flag (b := true) hsep (by simp),
    bitsBut_mono (hw.bitsBut hsep) (by simp), rfl⟩

theorem rtAccepted_reads (e : RtTest) : let t := { (rtStored s pair repair).raiseF Reg.BIST_RT_STAT_BUSY with rt := some e }
    (t.getF Reg.BIST_RT_CTRL_PAIR = pair.val ∧ t.flag Reg.BIST_RT_CTRL_REPAIR = repair) ∧ t.flag Reg.BIST_RT_STAT_BUSY = true ∧ t.rt = some e ∧
      BitsBut [Reg.BIST_RT_CTRL_PAIR, Reg.BIST_RT_CTRL_REPAIR, Reg.BIST_RT_STAT_BUSY] s t ∧
      { t with regs := s.regs, cyc := s.cyc, rt := s.rt } = s := by
  have hw := (wrote_rtStored s pair repair).raiseF Reg.BIST_RT_STAT_BUSY
  have hsep : Separate [Reg.BIST_RT_STAT_BUSY, Reg.BIST_RT_CTRL_PAIR, Reg.BIST_RT_CTRL_REPAIR] := .of_ok rfl
  have hpair : pair.val < 2 ^ 7 := pair.isLt
  have hw := hw.of_regs (u := { (rtStored s pair repair).raiseF Reg.BIST_RT_STAT_BUSY with rt := some e }) rfl
  exact ⟨⟨hw.getF hsep (by simp) hpair, hw.flag hsep (by simp)⟩, hw.flag (b := true) hsep (by simp), rfl,
    bitsBut_mono (hw.bitsBut hsep) (by simp), rfl⟩

end

/-! ### GPIO -/

section
variable (s : State) (b : Fin 4)

/-- The edges of a bank that wait to be shown. -/
def edgeBits : Nat := s.gpio.edge.toNat / 2 ^ (24 * b.val) % 2 ^ 24

theorem exec_gpioEdge_of_some (h : edgeBits s b ≠ 0) : exec (.gpioEdge b) s =
    .next ({ s.setF (Reg.GPIO_EVT_EDGE b.val) (s.getF (Reg.GPIO_EVT_EDGE b.val) ||| edgeBits s b) with
      gpio := { s.gpio with edge := s.gpio.edge &&& ~~~(BitVec.ofNat 96 (edgeBits s b * 2 ^ (24 * b.val))) } }.raiseEv (280 + b.val)) := by
  rw [exec_gpioEdge]
  unfold execGpioEdge
  exact if_neg h

theorem exec_gpioEdge_of_zero (h : edgeBits s b = 0) : exec (.gpioEdge b) s = .next s := by
  rw [exec_gpioEdge]
  unfold execGpioEdge
  exact if_pos h

/-- The edges of the bank are gone, those of the others wait on. -/
theorem getLsbD_edgesLeft (i : Nat) : (s.gpio.edge &&& ~~~(BitVec.ofNat 96 (edgeBits s b * 2 ^ (24 * b.val)))).getLsbD i =
    (s.gpio.edge.getLsbD i && !decide (i / 24 = b.val)) := by
  by_cases hi : i < 96
  · have hbit : (edgeBits s b * 2 ^ (24 * b.val)).testBit i = (decide (i / 24 = b.val) && s.gpio.edge.getLsbD i) := by
      unfold edgeBits
      rw [Nat.testBit_mul_two_pow, Nat.testBit_mod_two_pow, Nat.testBit_div_two_pow]
      by_cases hle : 24 * b.val ≤ i
      · have hsum : i - 24 * b.val + 24 * b.val = i := by omega
        have hiff : i - 24 * b.val < 24 ↔ i / 24 = b.val := by omega
        simp [hle, hsum, hiff, BitVec.getLsbD]
      · have hne : i / 24 ≠ b.val := by omega
        simp [hle, hne]
    simp only [BitVec.getLsbD_and, BitVec.getLsbD_not, BitVec.getLsbD_ofNat, hi, decide_true, Bool.true_and, hbit]
    cases s.gpio.edge.getLsbD i <;> simp
  · rw [BitVec.getLsbD_of_ge _ _ (by omega), BitVec.getLsbD_of_ge s.gpio.edge i (by omega), Bool.false_and]

end

section
variable (s : State)

/-- The edges shown: as they stood or have come. -/
theorem edgesShown_reads (b : Fin 4) : let t := { s.setF (Reg.GPIO_EVT_EDGE b.val) (s.getF (Reg.GPIO_EVT_EDGE b.val) ||| edgeBits s b) with
      gpio := { s.gpio with edge := s.gpio.edge &&& ~~~(BitVec.ofNat 96 (edgeBits s b * 2 ^ (24 * b.val))) } }.raiseEv (280 + b.val)
    t.getF (Reg.GPIO_EVT_EDGE b) = s.getF (Reg.GPIO_EVT_EDGE b) ||| edgeBits s b ∧ t.raised = (s.raiseEv (280 + b.val)).raised ∧
      (∀ i, t.gpio.edge.getLsbD i = (s.gpio.edge.getLsbD i && !decide (i / 24 = b.val))) ∧ BitsBut [Reg.GPIO_EVT_EDGE b] s t ∧
      { t with regs := s.regs, cyc := s.cyc, raised := s.raised, gpio := { t.gpio with edge := s.gpio.edge } } = s := by
  have hlt : s.getF (Reg.GPIO_EVT_EDGE b) ||| edgeBits s b < 2 ^ 24 :=
    Nat.or_lt_two_pow (Nat.mod_lt _ (by simp [Reg.GPIO_EVT_EDGE])) (Nat.mod_lt _ (by decide))
  refine ⟨(getF_of_regs rfl _).trans ((getF_setF_self s _ _ (by simp [Reg.GPIO_EVT_EDGE]) (by simp [Reg.GPIO_EVT_EDGE])).trans ?_),
    raiseEv_raised_congr _ rfl rfl rfl rfl, getLsbD_edgesLeft s b, ?_, rfl⟩
  · exact Nat.mod_eq_of_lt hlt
  · exact bitsBut_of_regs (bitsBut_setF (bitsBut_refl _ s) _ _ (.head _) (by simp [Reg.GPIO_EVT_EDGE]) (by simp [Reg.GPIO_EVT_EDGE])) rfl

/-- What latches a wake of a pin (R421, R478). -/
def wakesBy (i : Fin 96) : Bool := (s.phase == .hold || (s.aon.entry != 0 && s.aon.mode == 1)) && s.flag (Reg.GPIO_CFG_WAKE_EN i.val) && !pairOdd s i.val &&
  s.flag Reg.PWR_WAKE_GPIO_EN

theorem exec_gpioWake_eq (i : Fin 96) : exec (.gpioWake i) s =
    if wakesBy s i then .next { s with wakes := if s.wakes = 0 then 2 else s.wakes } else .next s := by
  rw [exec_gpioWake]
  rfl

theorem wakesBy_iff (i : Fin 96) : wakesBy s i = true ↔ ((s.phase = .hold ∨ (s.aon.entry ≠ 0 ∧ s.aon.mode = 1)) ∧
    s.flag (Reg.GPIO_CFG_WAKE_EN i) = true) ∧ pairOdd s i.val = false ∧ s.flag Reg.PWR_WAKE_GPIO_EN = true := by
  simp [wakesBy, and_assoc]

end

/-- Settles O52: the engine by what the data register holds and where the access goes, the link test by the one link that fails. -/
theorem debugAccessLinkTestAndPins : Obligations.DebugAccessLinkTestAndPins := by
  unfold Obligations.DebugAccessLinkTestAndPins
  intro s
  dsimp only
  refine ⟨fun v hserv hac => ?_, fun a addr v => ?_, fun pair repair ha => ?_, fun e j he hj hend => ?_, fun b => ?_, fun i => ?_⟩
  · have hexec := exec_dbgAccess_eq s v hserv hac
    refine ⟨fun hidle => hexec.trans (if_pos hidle), fun hop hon => ?_⟩
    have hgo : ¬ (v.toNat % 4 = 0 ∨ v.toNat % 4 = 3 ∨ engineOn s = false) := by
      rintro (h | h | h)
      · omega
      · omega
      · exact Bool.false_ne_true (h.symm.trans hon)
    rw [if_neg hgo] at hexec
    have hsize : v.toNat / 4 % 4 ≤ 3 := by omega
    have hfree (h : s.flag Reg.DBG_STAT_ACC_BUSY = false) : ¬ accBusy s = true := Bool.eq_false_iff.mp h
    refine ⟨fun hbusy => ⟨_, hexec.trans (if_pos hbusy), ?_, ?_, rfl⟩, fun hbusy hruns => ?_, fun hbusy hhalt hfar => ?_,
        fun o hbusy hhalt hdirect h1 h2 ho h4 hrow => ?_⟩
    · exact flag_raiseF _ _ (by decide) (by decide)
    · exact bitsBut_raiseF (bitsBut_of_regs (bitsBut_refl _ s) rfl) _ (.head _) (by decide) (by decide)
    · rw [hexec, if_neg (hfree hbusy), engineIssue_of_runs (s := accessLoaded s) hruns, engineReq_eq hsize, engineBusy_eq]
      rfl
    · rw [if_neg (hfree hbusy), engineIssue_of_waits (s := accessLoaded s) hhalt hfar, engineReq_eq hsize] at hexec
      obtain ⟨hbits, hflag⟩ := accBusy_raised (accessLoaded s)
      exact ⟨_, hexec, (flag_of_regs rfl _).trans hflag, rfl, rfl, bitsBut_of_regs hbits rfl⟩
    · have hread : (v.toNat % 4 == 2) = false := by simp [h1]
      rw [if_neg (hfree hbusy), engineIssue_of_direct (s := accessLoaded s) hhalt hdirect, ho, h2, hread,
        engineDirect_of_read h4 hrow] at hexec
      exact ⟨engineBusy (accessLoaded s) false, _, hexec, (accBusy_raised (accessLoaded s)).1, dbgRespond_reads _ _ _ _ h4⟩
  · rw [exec_i2cWrite, exec_i2cRead, exec_i2cStream, exec_i2cStatusRead]
    unfold execI2cWrite execI2cRead execI2cStream execI2cStatusRead
    refine ⟨fun hother => ?_, fun hmine => ⟨fun hn => ?_, fun hbusy hruns => ?_, ?_⟩⟩
    · simp only [i2cCommand_of_other hother, hother, Bool.false_eq_true, if_false]
      exact ⟨rfl, rfl, rfl, rfl⟩
    · simp only [i2cCommand_of_nack hmine hn]
      exact ⟨rfl, rfl, rfl⟩
    · have hstream : 0x700000000 + Reg.CFG_SPDATA = 0x70005001C := by decide
      rw [hstream, i2cCommand_of_issue hmine hbusy hruns, i2cCommand_of_issue hmine hbusy hruns, i2cCommand_of_issue hmine hbusy hruns]
      exact ⟨rfl, rfl, rfl⟩
    · rw [if_pos hmine]
      rfl
  · rw [exec_rtBistRequest_eq s pair repair ha]
    refine ⟨fun h => ⟨_, if_pos h, rtRefused_reads s pair repair⟩, fun hp hrt huser => ⟨_, if_neg ?_, rtAccepted_reads s pair repair _⟩⟩
    rintro (h | h | h)
    · omega
    · exact h hrt
    · exact Bool.false_ne_true (h.symm.trans huser)
  · refine ⟨⟨_, exec_rtBistRun_of_none he hj hend, rtEnded_of_none s⟩, fun p n hn hspare hlive => ?_⟩
    have hexec := exec_rtBistRun_of_one he hj hend p n
    have hnamed := named_rtNamed s p.val n.val
    generalize rtNamed (rtCleared s) p.val n.val = x at hexec hnamed
    rw [rtGroup_of_one x hn (hnamed.spares ▸ hspare) (hnamed.vdead ▸ hlive)] at hexec
    cases hrep : e.repair with
    | true =>
      obtain ⟨hended, ⟨hu, hv, hl⟩, hreps, hfails, hvd, hsp⟩ := rtMoved_reads hnamed p.isLt hn (144 * e.pair + p.val)
      exact ⟨_, hexec.trans (by rw [hrep]; rfl), hended, hu, hv, hl, fun _ => ⟨hreps, hfails, hvd, hsp⟩, fun h => absurd h Bool.noConfusion⟩
    | false =>
      obtain ⟨hended, ⟨hu, hv, hl⟩, hrest⟩ := rtLost_reads hnamed p.isLt hn (vlinkKey (tileOf e.pair (p.val % 12) (p.val / 12)) n.val)
      exact ⟨_, hexec.trans (by rw [hrep]; rfl), hended, hu, hv, hl, fun h => absurd h Bool.noConfusion, fun _ => hrest⟩
  · exact ⟨exec_gpioEdge_of_zero s b, fun h => ⟨_, exec_gpioEdge_of_some s b h, edgesShown_reads s b⟩⟩
  · rw [exec_gpioWake_eq]
    refine ⟨fun h1 h2 h3 h4 => if_pos ((wakesBy_iff s i).mpr ⟨⟨h1, h2⟩, h3, h4⟩), fun h => if_neg fun hw => ?_⟩
    obtain ⟨⟨h1, h2⟩, h3, h4⟩ := (wakesBy_iff s i).mp hw
    simp [h1, h2, h3, h4] at h

end Sys2Proof.Machine

/-!
SUPPORT. Clocks (19_clocks.md R383 to R395): sources, trips, the root switch and the trim.
-/

namespace Sys2Proof.Machine

/-! ### Sources -/

/-- The clocks of `s` have become `c`, and are shown so (R385). -/
def ClocksBecome (s : State) (c : Clocks) (t : State) : Prop :=
  t.clk = c ∧ ClocksShown t ∧ BitsBut clockFields s t ∧ { t with regs := s.regs, cyc := s.cyc, clk := s.clk } = s

/-- What ends step 1 of a start: RCO runs, or XO where RCO has tripped, and nothing else holds it (R384, R408). -/
def StepOneEnds (s t : State) : Prop :=
  s.phase = .waiting ∧ s.getF Reg.RST_STAGE_STEP ≤ 1 ∧ s.aon.resetLow = false ∧ s.aon.hot = false ∧
    (t.clk.rco && (!t.clk.tripped.contains 1 || t.clk.xo)) = true

section
variable {s t : State}

theorem clocksBecome_clkReport (s : State) (c : Clocks) : ClocksBecome s c (clkReport { s with clk := c }) := by
  have honly := onlyBits_clkReport { s with clk := c }
  refine ⟨honly.keeps State.clk fun _ _ _ => rfl, clocksShown_clkReport _, bitsBut_trans (bitsBut_of_regs (bitsBut_refl _ s) rfl) honly.1, ?_⟩
  exact (congrArg (fun x : State => { x with clk := s.clk }) honly.2 :)

theorem endsOne_stepTwo {c : Clocks} (h : ClocksBecome s c t) :
    (¬ StepOneEnds s t → stepTwo t = t) ∧ (StepOneEnds s t → stepTwo t = causeWrite (t.setF Reg.RST_STAGE_STEP 2)) := by
  obtain ⟨-, -, hbits, hframe⟩ := h
  have hphase : t.phase = s.phase := (congrArg State.phase hframe :)
  have haon : t.aon = s.aon := (congrArg State.aon hframe :)
  have hstep : t.getF Reg.RST_STAGE_STEP = s.getF Reg.RST_STAGE_STEP := getF_of_bitsBut hbits (by decide)
  have hiff : (t.phase == .waiting && decide (t.getF Reg.RST_STAGE_STEP ≤ 1) && !t.aon.resetLow && !t.aon.hot && clocksReady t) = true ↔
      StepOneEnds s t := by
    rw [hphase, haon, hstep]
    simp only [StepOneEnds, clocksReady, Bool.and_eq_true, Bool.not_eq_true', beq_iff_eq, decide_eq_true_eq, and_assoc]
  exact ⟨fun hn => if_neg fun hc => hn (hiff.mp hc), fun hs => if_pos (hiff.mpr hs)⟩

theorem exec_rcoReady_of_wait (h0 : s.phase ≠ .unpowered) (hr : s.clk.rco = false) (hk : s.phase ≠ .keep) (hh : s.phase ≠ .hold ∨ s.wakes ≠ 0) :
    exec .rcoReady s = .next (stepTwo (clkReport { s with clk := { s.clk with rco := true } })) := by
  rw [exec_rcoReady]
  refine okIf_of_true _ _ ?_
  rcases hh with hh | hh <;> simp [h0, hr, hk, hh]

theorem xoStarting_of (h0 : s.phase ≠ .unpowered) (hr : s.clk.rco = true) (hx : s.clk.xo = false) (hs : s.clk.xoStop = false) :
    xoStarting s = true := by
  simp [xoStarting, h0, hr, hx, hs]

theorem exec_xoReady_of_start (h : xoStarting s = true) :
    exec .xoReady s = .next (stepTwo (clkReport { s with clk := { s.clk with xo := true } })) := by
  rw [exec_xoReady]
  exact okIf_of_true _ _ h

/-- XO that has not started (R384). -/
def xoFailed (s : State) : State := (({ s with clk := { s.clk with xoStop := true } }).raiseF Reg.CLK_FLAG_XO_FAIL).raiseEv 204

theorem exec_xoStartFail_of_start (h : xoStarting s = true) : exec .xoStartFail s = .next (xoFailed s) := by
  rw [exec_xoStartFail]
  exact okIf_of_true _ _ h

theorem xoFailed_reads (s : State) : (xoFailed s).flag Reg.CLK_FLAG_XO_FAIL = true ∧ (xoFailed s).clk = { s.clk with xoStop := true } ∧
    (xoFailed s).raised = (s.raiseEv 204).raised ∧ BitsBut [Reg.CLK_FLAG_XO_FAIL] s (xoFailed s) ∧
    { xoFailed s with regs := s.regs, cyc := s.cyc, raised := s.raised, clk := s.clk } = s := by
  have hw : Wrote [(Reg.CLK_FLAG_XO_FAIL, 1)] s (xoFailed s) := ((Wrote.refl s).raiseF Reg.CLK_FLAG_XO_FAIL).of_regs rfl
  have hsep : Separate [Reg.CLK_FLAG_XO_FAIL] := .of_ok rfl
  exact ⟨hw.flag (b := true) hsep (.head _), rfl, raiseEv_raised_congr _ rfl (raiseF_evs _ _) rfl rfl, hw.bitsBut hsep, rfl⟩

theorem exec_aonSourceChange_eq (h0 : s.phase ≠ .unpowered) : exec .aonSourceChange s =
    if (if s.flag Reg.CLK_CTRL_AON_SRC then s.clk.xo else s.clk.rco) = true then
      .next (clkReport { s with clk := { s.clk with aonXo := s.flag Reg.CLK_CTRL_AON_SRC } }) else .next s := by
  have hp : (s.phase != .unpowered) = true := by simpa using h0
  rw [exec_aonSourceChange]
  unfold execAonSourceChange okIf
  dsimp only
  rw [hp, Bool.true_and]

theorem exec_mrefSettled_of_present {khz ticks : Nat} (h0 : s.phase ≠ .unpowered) (hlo : 19000 ≤ khz) (hhi : khz ≤ 51000) :
    exec (.mrefSettled (khz, ticks)) s = .next (hangEnds (clkReport { s with clk := { s.clk with
      mref := some khz, stable := if s.clk.mref.any (fun f => mrefSame f khz) then s.clk.stable + ticks else ticks } }) rootRelock) := by
  rw [exec_mrefSettled]
  exact okIf_of_true _ _ (by simp [h0, mrefPresent, hlo, hhi])

theorem exec_mrefLost_eq (h0 : s.phase ≠ .unpowered) (present : Option Nat) : exec (.mrefLost present) s =
    .next (if (present.filter mrefPresent).isSome then
      hangEnds (clkReport { s with clk := { s.clk with mref := present.filter mrefPresent, stable := 0 } }) rootRelock
    else clkReport { s with clk := { s.clk with mref := present.filter mrefPresent, stable := 0 } }) := by
  rw [exec_mrefLost]
  exact okIf_of_true _ _ (by simpa using h0)

end

section
variable {x : State}

theorem hangEnds_of_hang (h : x.clk.hang = true) : hangEnds x rootRelock = rootRelock { x with clk := { x.clk with hang := false } } := if_pos h

theorem hangEnds_of_none (h : x.clk.hang = false) : hangEnds x rootRelock = x := if_neg (Bool.eq_false_iff.mp h)

theorem clocksShown_raiseEv (h : ClocksShown x) (e : Nat) : ClocksShown (x.raiseEv e) := h

theorem evs_clkReport (x : State) : (clkReport x).cyc.evs = x.cyc.evs := rfl

end

/-! ### Trips -/

section
variable (s : State) (src : Nat)

/-- What a trip writes of its own. -/
def tripFields : List Field := [Reg.CLK_FLAG_TRIP, Reg.CLK_STAT_TRIP_SRC, Reg.CLK_CNT_TRIP_CNT, Reg.CLK_FLAG_XO_FAIL]

/-- A trip recorded (R391). -/
def TripRecorded (s : State) (src : Nat) (t : State) : Prop :=
  t.flag Reg.CLK_FLAG_TRIP = true ∧ t.getF Reg.CLK_STAT_TRIP_SRC = src ∧
    t.getF Reg.CLK_CNT_TRIP_CNT = min (s.getF Reg.CLK_CNT_TRIP_CNT + 1) 65535 ∧ (src = 0 → t.flag Reg.CLK_FLAG_XO_FAIL = true) ∧
    BitsBut ([Reg.CLK_FLAG_TRIP, Reg.CLK_STAT_TRIP_SRC, Reg.CLK_CNT_TRIP_CNT, Reg.CLK_FLAG_XO_FAIL] ++ clockFields) s t

/-- The fields that every trip writes. -/
def tripShown : State := ((s.raiseF Reg.CLK_FLAG_TRIP).setF Reg.CLK_STAT_TRIP_SRC src).incF Reg.CLK_CNT_TRIP_CNT

theorem wrote_tripShown : Wrote [(Reg.CLK_CNT_TRIP_CNT, min (s.getF Reg.CLK_CNT_TRIP_CNT + 1) 65535), (Reg.CLK_STAT_TRIP_SRC, src),
    (Reg.CLK_FLAG_TRIP, 1)] s (tripShown s src) :=
  (((Wrote.refl s).raiseF _).setF _ src).addF 1 (.of_ok rfl) rfl

theorem tripRecord_eq : tripRecord s src = { (if src = 0 then (tripShown s src).raiseF Reg.CLK_FLAG_XO_FAIL else tripShown s src) with
    clk := { s.clk with tripped := if src = 3 then s.clk.tripped else s.clk.tripped ++ [src] } } := by
  unfold tripRecord
  dsimp only
  by_cases h : src = 0
  · rw [if_pos h, if_pos h]
    rfl
  · rw [if_neg h, if_neg h]
    rfl

theorem tripRecorded_tripRecord (h : src < 4) : TripRecorded s src (tripRecord s src) := by
  have hw := wrote_tripShown s src
  have hcount : min (s.getF Reg.CLK_CNT_TRIP_CNT + 1) 65535 < 2 ^ 16 := by omega
  rw [tripRecord_eq]
  by_cases h0 : src = 0
  · rw [if_pos h0]
    have hw := (hw.raiseF Reg.CLK_FLAG_XO_FAIL).of_regs (u := { (tripShown s src).raiseF Reg.CLK_FLAG_XO_FAIL with
      clk := { s.clk with tripped := if src = 3 then s.clk.tripped else s.clk.tripped ++ [src] } }) rfl
    have hsep : Separate [Reg.CLK_FLAG_XO_FAIL, Reg.CLK_CNT_TRIP_CNT, Reg.CLK_STAT_TRIP_SRC, Reg.CLK_FLAG_TRIP] := .of_ok rfl
    exact ⟨hw.flag (b := true) hsep (by simp), hw.getF hsep (by simp) h, hw.getF hsep (by simp) hcount, fun _ => hw.flag (b := true) hsep (by simp),
      bitsBut_mono (hw.bitsBut hsep) (by simp)⟩
  · rw [if_neg h0]
    have hw := hw.of_regs (u := { tripShown s src with
      clk := { s.clk with tripped := if src = 3 then s.clk.tripped else s.clk.tripped ++ [src] } }) rfl
    have hsep : Separate [Reg.CLK_CNT_TRIP_CNT, Reg.CLK_STAT_TRIP_SRC, Reg.CLK_FLAG_TRIP] := .of_ok rfl
    exact ⟨hw.flag (b := true) hsep (by simp), hw.getF hsep (by simp) h, hw.getF hsep (by simp) hcount, fun h => absurd h h0,
      bitsBut_mono (hw.bitsBut hsep) (by simp)⟩

variable {s src}

theorem TripRecorded.of_regs {t u : State} (h : TripRecorded s src t) (e : u.regs = t.regs) : TripRecorded s src u := by
  obtain ⟨h1, h2, h3, h4, h5⟩ := h
  exact ⟨(flag_of_regs e _).trans h1, (getF_of_regs e _).trans h2, (getF_of_regs e _).trans h3, fun h => (flag_of_regs e _).trans (h4 h),
    bitsBut_of_regs h5 e⟩

theorem TripRecorded.clkReport {t : State} (h : TripRecorded s src t) : TripRecorded s src (clkReport t) := by
  obtain ⟨h1, h2, h3, h4, h5⟩ := h
  have hbits := (onlyBits_clkReport t).1
  exact ⟨(flag_of_bitsBut hbits (by decide)).trans h1, (getF_of_bitsBut hbits (by decide)).trans h2, (getF_of_bitsBut hbits (by decide)).trans h3,
    fun h => (flag_of_bitsBut hbits (by decide)).trans (h4 h), bitsBut_trans h5 (bitsBut_mono hbits fun f hf => List.mem_append_right _ hf)⟩

/-- What a trip leaves beside registers. -/
theorem tripRecord_frame (s : State) (src : Nat) : (tripRecord s src).cyc.evs = s.cyc.evs ∧
    { tripRecord s src with regs := s.regs, cyc := s.cyc, clk := s.clk } = s ∧
    (tripRecord s src).clk = { s.clk with tripped := if src = 3 then s.clk.tripped else s.clk.tripped ++ [src] } := by
  have hshown : OnlyBits tripFields s (tripShown s src) :=
    (((onlyBits_refl s tripFields).raiseF _ (by simp [tripFields]) ((Field.fits_iff _).mpr rfl)).setF _ src (by simp [tripFields])
      ((Field.fits_iff _).mpr rfl)).incF _ (by simp [tripFields]) ((Field.fits_iff _).mpr rfl)
  have hevs : (tripShown s src).cyc.evs = s.cyc.evs :=
    (incF_evs ((s.raiseF Reg.CLK_FLAG_TRIP).setF Reg.CLK_STAT_TRIP_SRC src) Reg.CLK_CNT_TRIP_CNT).trans (raiseF_evs s Reg.CLK_FLAG_TRIP)
  have hframe : OnlyBits tripFields s (if src = 0 then (tripShown s src).raiseF Reg.CLK_FLAG_XO_FAIL else tripShown s src) ∧
      (if src = 0 then (tripShown s src).raiseF Reg.CLK_FLAG_XO_FAIL else tripShown s src).cyc.evs = s.cyc.evs := by
    split
    · exact ⟨hshown.raiseF _ (by simp [tripFields]) ((Field.fits_iff _).mpr rfl), (raiseF_evs _ _).trans hevs⟩
    · exact ⟨hshown, hevs⟩
  rw [tripRecord_eq]
  exact ⟨hframe.2, (congrArg (fun x : State => { x with clk := s.clk }) hframe.1.2 :), rfl⟩

/-- The clocks after the fall-back (R392). -/
theorem fallBack_eq {t : State} (src : Fin 4) : fallBack t src.val = { t with clk := { t.clk with
    xo := t.clk.xo && src.val != 0, aonXo := if src.val = 0 then false else if src.val = 1 then true else t.clk.aonXo } } := by
  fin_cases src <;> simp [fallBack]

/-- A trip of a source that is not in use (R391). -/
theorem tripElsewhere_reads {src e : Nat} (hs : src < 3) : let t := (Machine.clkReport (tripRecord s src)).raiseEv e
    TripRecorded s src t ∧ ClocksShown t ∧ t.clk = { s.clk with tripped := s.clk.tripped ++ [src] } ∧ t.raised = (s.raiseEv e).raised ∧
      { t with regs := s.regs, cyc := s.cyc, raised := s.raised, clk := s.clk } = s := by
  have hrec := (tripRecorded_tripRecord s src (by omega)).clkReport
  obtain ⟨hevs, hframe, hclk⟩ := tripRecord_frame s src
  have hne : src ≠ 3 := by omega
  rw [if_neg hne] at hclk
  generalize tripRecord s src = x at hrec hevs hframe hclk
  have honly := onlyBits_clkReport x
  have hshown := clocksShown_clkReport x
  have hevs2 := (evs_clkReport x).trans hevs
  generalize Machine.clkReport x = y at hrec honly hshown hevs2
  have hframe2 : { y with regs := s.regs, cyc := s.cyc, clk := s.clk } = s :=
    (congrArg (fun z : State => { z with regs := s.regs, cyc := s.cyc, clk := s.clk }) honly.2 :).trans hframe
  exact ⟨hrec.of_regs rfl, clocksShown_raiseEv hshown e, (honly.keeps State.clk fun _ _ _ => rfl).trans hclk,
    raiseEv_raised_congr e (congrArg State.raised hframe2 :) hevs2 (congrArg State.clockOn hframe2 :) (congrArg State.dbgHalt hframe2 :),
    (congrArg (fun z : State => { z with raised := s.raised }) hframe2 :)⟩

/-- The state that a trip of a source in use leaves before the reset (R391, R392). -/
theorem fallBack_reads (src : Fin 4) : let u := fallBack (tripRecord s src.val) src.val
    TripRecorded s src.val u ∧ u.clk = { s.clk with
      tripped := if src.val = 3 then s.clk.tripped else s.clk.tripped ++ [src.val]
      xo := s.clk.xo && src.val != 0
      aonXo := if src.val = 0 then false else if src.val = 1 then true else s.clk.aonXo } ∧
    { u with regs := s.regs, cyc := s.cyc, clk := s.clk } = s := by
  have hrec := tripRecorded_tripRecord s src.val src.isLt
  obtain ⟨-, hframe, hclk⟩ := tripRecord_frame s src.val
  dsimp only
  generalize tripRecord s src.val = x at hrec hframe hclk
  rw [fallBack_eq, hclk]
  exact ⟨hrec.of_regs rfl, rfl, hframe⟩

theorem exec_clockMonitorTrip_of_watched {src : Fin 4} (h0 : s.phase ≠ .unpowered) (hw : sourceWatched s src.val = true) :
    exec (.clockMonitorTrip src) s =
      if sourceInUse s src.val = false then .next ((Machine.clkReport (tripRecord s src.val)).raiseEv (if src.val = 2 then 205 else 204))
      else if s.phase = .integrity ∨ s.phase = .bistHeld then .next (Machine.clkReport (fallBack (tripRecord s src.val) src.val))
      else .next (deviceReset (fallBack (tripRecord s src.val) src.val) 4 (src.val + 1)) := by
  have hp : (s.phase != .unpowered) = true := by simpa using h0
  rw [exec_clockMonitorTrip]
  unfold execClockMonitorTrip
  dsimp only
  rw [hp, hw]
  simp only [Bool.and_self, if_true, Bool.not_eq_true', Bool.or_eq_true, beq_iff_eq]

theorem exec_clockMonitorTrip_of_unwatched {src : Fin 4} (hw : sourceWatched s src.val = false) : exec (.clockMonitorTrip src) s = .next s := by
  rw [exec_clockMonitorTrip]
  unfold execClockMonitorTrip
  dsimp only
  rw [hw, Bool.and_false]
  rfl

theorem sourceRuns_iff (src : Fin 4) : sourceRuns s src.val = true ↔
    (src.val = 0 ∧ s.clk.xo = true) ∨ (src.val = 1 ∧ s.clk.rco = true ∧ s.clk.xo = true) ∨ (src.val = 2 ∧ s.clk.mref.isSome = true) := by
  fin_cases src <;> simp [sourceRuns]

theorem exec_sourceRecovered_eq (src : Fin 4) : exec (.sourceRecovered src) s =
    if src.val ∈ s.clk.tripped ∧ sourceRuns s src.val = true then
      .next (Machine.clkReport { s with clk := { s.clk with tripped := s.clk.tripped.filter (· != src.val) } }) else .next s := by
  rw [exec_sourceRecovered]
  unfold execSourceRecovered okIf
  simp only [Bool.and_eq_true, List.contains_eq_mem, decide_eq_true_eq]

end

/-! ### The root switch -/

/-- Nothing but registers, the record of the slot and the clocks differs, and no event is recorded. -/
def SwitchOnly (s t : State) : Prop := { t with regs := s.regs, cyc := s.cyc, clk := s.clk } = s ∧ t.cyc.evs = s.cyc.evs

section
variable {s t u : State}

theorem SwitchOnly.refl (s : State) : SwitchOnly s s := ⟨rfl, rfl⟩

theorem SwitchOnly.setF (h : SwitchOnly s t) (f : Field) (v : Nat) : SwitchOnly s (t.setF f v) := h

theorem SwitchOnly.raiseF (h : SwitchOnly s t) (f : Field) : SwitchOnly s (t.raiseF f) := ⟨h.1, (raiseF_evs t f).trans h.2⟩

theorem SwitchOnly.withClk (h : SwitchOnly s t) (c : Clocks) : SwitchOnly s { t with clk := c } := h

theorem SwitchOnly.applyVolts (h : SwitchOnly s t) (khz : Nat) : SwitchOnly s (applyVolts t khz) := h

theorem SwitchOnly.selfRefresh (h : SwitchOnly s t) (b : Bool) : SwitchOnly s (selfRefresh t b) := by
  unfold Machine.selfRefresh
  generalize List.range 16 = l
  induction l generalizing t with
  | nil => exact h
  | cons c l ih => exact ih (h.setF (Reg.MEMC_STAT_SREF c) b.toNat)

theorem SwitchOnly.switchStep1 (h : SwitchOnly s t) : SwitchOnly s (switchStep1 t) := by
  unfold Machine.switchStep1
  split
  · exact h
  · exact h.selfRefresh true

end

section
variable (s : State) (src m : Nat)

/-- The word that a root switch writes (R386). -/
def rootWord : Word32 := BitVec.ofNat 32 (2 ^ 31 + src * 2 ^ 16 + m)

variable {src m} in
theorem rootWord_reads (hs : src < 4) (hm : m < 512) : nbits (rootWord src m).toNat 17 16 = src ∧ nbits (rootWord src m).toNat 8 0 = m ∧
    (rootWord src m).getLsbD 31 = true := by
  have hnat : (rootWord src m).toNat = 2 ^ 31 + src * 2 ^ 16 + m := by
    unfold rootWord
    rw [BitVec.toNat_ofNat, Nat.mod_eq_of_lt (by omega)]
  refine ⟨?_, ?_, ?_⟩
  · rw [hnat, nbits]
    omega
  · rw [hnat, nbits]
    omega
  · rw [BitVec.getLsbD, hnat, Nat.testBit_eq_decide_div_mod_eq]
    simp only [decide_eq_true_eq]
    omega

/-- What a write of CLK_ROOT stores. -/
def rootStored : State := (s.setF Reg.CLK_ROOT_SRC src).setF Reg.CLK_ROOT_M m

/-- A root switch asked: in progress, to the source and multiplier written (R388). -/
def switchAsked : State :=
  { (rootStored s src m).raiseF Reg.CLK_STAT_SWITCHING with clk := { s.clk with ramp := some 0, next := (src, m), nextHz := nextRef s src } }

/-- SYNC ends where the root leaves MREF (R393). -/
def syncLeft : State := if src = 1 then switchAsked s src m else (switchAsked s src m).clearF Reg.TIME_STATUS_SYNC

/-- A root switch begun: the voltages of the higher VCO, and self-refresh once they stand (R388, R415). -/
def switchBegun : State := switchStep1 (applyVolts (syncLeft s src m) (voltVco (switchAsked s src m)))

theorem exec_rootSwitch_eq (src : Fin 4) (m : Fin 512) (ha : s.alive = true) : exec (.rootSwitch src m) s =
    if rootAllowed s src.val m.val = true then
      .next (if s.user then slip (switchBegun s src.val m.val) else switchBegun s src.val m.val)
    else .next ((rootStored s src.val m.val).raiseF Reg.CLK_FLAG_BADCFG) := by
  obtain ⟨hsrc, hm, hgo⟩ := rootWord_reads src.isLt m.isLt
  rw [exec_rootSwitch]
  unfold execRootSwitch
  rw [if_pos ha]
  change ok (rootWrite s (rootWord src.val m.val)) = _
  unfold rootWrite
  dsimp only
  rw [hsrc, hm, hgo, if_pos rfl]
  split <;> rfl

theorem rootRefused_reads (hs : src < 4) (hm : m < 512) : let t := (rootStored s src m).raiseF Reg.CLK_FLAG_BADCFG
    t.flag Reg.CLK_FLAG_BADCFG = true ∧ t.getF Reg.CLK_ROOT_SRC = src ∧ t.getF Reg.CLK_ROOT_M = m ∧
      OnlyBits [Reg.CLK_FLAG_BADCFG, Reg.CLK_ROOT_SRC, Reg.CLK_ROOT_M] s t := by
  have hw : Wrote [(Reg.CLK_FLAG_BADCFG, 1), (Reg.CLK_ROOT_M, m), (Reg.CLK_ROOT_SRC, src)] s ((rootStored s src m).raiseF Reg.CLK_FLAG_BADCFG) :=
    (((Wrote.refl s).setF _ _).setF _ _).raiseF _
  have hsep : Separate [Reg.CLK_FLAG_BADCFG, Reg.CLK_ROOT_M, Reg.CLK_ROOT_SRC] := .of_ok rfl
  exact ⟨hw.flag (b := true) hsep (by simp), hw.getF hsep (by simp) hs, hw.getF hsep (by simp) hm, bitsBut_mono (hw.bitsBut hsep) (by simp), rfl⟩

/-- What a root switch writes before the voltages follow. -/
def switchFields : List Field := [Reg.CLK_ROOT_SRC, Reg.CLK_ROOT_M, Reg.CLK_STAT_SWITCHING, Reg.TIME_STATUS_SYNC]

theorem switchOnly_switchAsked : SwitchOnly s (switchAsked s src m) :=
  ((((SwitchOnly.refl s).setF _ _).setF _ _).raiseF _).withClk _

theorem switchOnly_syncLeft : SwitchOnly s (syncLeft s src m) := by
  unfold syncLeft
  split
  · exact switchOnly_switchAsked s src m
  · exact (switchOnly_switchAsked s src m).setF Reg.TIME_STATUS_SYNC 0

variable {src m} in
theorem syncLeft_reads (hs : src < 4) (hm : m < 512) : let t := syncLeft s src m
    t.flag Reg.CLK_STAT_SWITCHING = true ∧ t.getF Reg.CLK_ROOT_SRC = src ∧ t.getF Reg.CLK_ROOT_M = m ∧
      (src ≠ 1 → t.flag Reg.TIME_STATUS_SYNC = false) ∧ BitsBut switchFields s t ∧
      t.clk = { s.clk with ramp := some 0, next := (src, m), nextHz := nextRef s src } := by
  have hw : Wrote [(Reg.CLK_STAT_SWITCHING, 1), (Reg.CLK_ROOT_M, m), (Reg.CLK_ROOT_SRC, src)] s (switchAsked s src m) :=
    ((((Wrote.refl s).setF _ src).setF _ m).raiseF _).of_regs rfl
  unfold syncLeft
  by_cases h1 : src = 1
  · have hsep : Separate [Reg.CLK_STAT_SWITCHING, Reg.CLK_ROOT_M, Reg.CLK_ROOT_SRC] := .of_ok rfl
    rw [if_pos h1]
    exact ⟨hw.flag (b := true) hsep (by simp), hw.getF hsep (by simp) hs, hw.getF hsep (by simp) hm, fun h => absurd h1 h,
      bitsBut_mono (hw.bitsBut hsep) (by simp [switchFields]), rfl⟩
  · have hw : Wrote _ s ((switchAsked s src m).clearF Reg.TIME_STATUS_SYNC) := hw.setF Reg.TIME_STATUS_SYNC 0
    have hsep : Separate [Reg.TIME_STATUS_SYNC, Reg.CLK_STAT_SWITCHING, Reg.CLK_ROOT_M, Reg.CLK_ROOT_SRC] := .of_ok rfl
    rw [if_neg h1]
    exact ⟨hw.flag (b := true) hsep (by simp), hw.getF hsep (by simp) hs, hw.getF hsep (by simp) hm, fun _ => hw.flag (b := false) hsep (by simp),
      bitsBut_mono (hw.bitsBut hsep) (by simp [switchFields]), rfl⟩

theorem voltVco_switchAsked : voltVco (switchAsked s src m) = max (s.refHz * s.rootM / 1000) (nextRef s src * m / 1000) := rfl

theorem switchRegs_low : ∀ g ∈ switchFields ++ railFields, g.reg < 0x100000 := by decide

/-- Step 1 of a switch: self-refresh once the rails stand, and nothing before (R388, R415). -/
theorem switchStep1_reads (y : State) : let z := switchStep1 y
    (∀ f : Field, f.reg < 0x100000 → z.getF f = y.getF f) ∧
      (y.flag Reg.PWR_VNOW_SLEW = false → ∀ c < 16, z.flag (Reg.MEMC_STAT_SREF c) = true) ∧
      (y.flag Reg.PWR_VNOW_SLEW = true → z = y) ∧ z.clk = y.clk := by
  unfold switchStep1
  cases h : y.flag Reg.PWR_VNOW_SLEW with
  | true => exact ⟨fun _ _ => rfl, fun h => absurd h Bool.noConfusion, fun _ => rfl, rfl⟩
  | false =>
    obtain ⟨hsref, hbits⟩ := selfRefresh_reads y true
    exact ⟨fun f hf => getF_of_bitsBut hbits.1 (apart_sref hf), fun _ => hsref, fun h => absurd h Bool.noConfusion,
      hbits.keeps State.clk fun _ _ _ => rfl⟩

/-- What the voltages that follow a switch leave (R415). -/
theorem applyVolts_shown (x : State) (khz : Nat) : let y := applyVolts x khz
    y.getF Reg.PWR_VNOW_VF_NOW = max (x.getF Reg.PWR_VSET_VF_REQ) (minCodes khz).1 ∧
      y.getF Reg.PWR_VNOW_VT_NOW = max (x.getF Reg.PWR_VSET_VT_REQ) (minCodes khz).2.1 ∧
      y.getF Reg.PWR_VNOW_VS_NOW = max (x.getF Reg.PWR_VSET_VS_REQ) (minCodes khz).2.2 ∧
      (y.flag Reg.PWR_VNOW_SLEW = true ↔
        x.aon.rails ≠ (y.getF Reg.PWR_VNOW_VF_NOW, y.getF Reg.PWR_VNOW_VT_NOW, y.getF Reg.PWR_VNOW_VS_NOW)) := by
  have hset := setpoints_applyVolts x khz
  have haon : (applyVolts x khz).aon = x.aon := (onlyBits_applyVolts x khz).keeps State.aon fun _ _ _ => rfl
  have hslew : (applyVolts x khz).flag Reg.PWR_VNOW_SLEW = (x.aon.rails != setpoints (applyVolts x khz)) := by
    unfold applyVolts
    dsimp only
    rw [setpoints_slewShow]
    exact flag_slewShow _
  refine ⟨congrArg Prod.fst hset, congrArg (fun p => p.2.1) hset, congrArg (fun p => p.2.2) hset, ?_⟩
  rw [hslew, bne_iff_ne]
  rfl

variable {src m} in
theorem switchBegun_reads (hs : src < 4) (hm : m < 512) : let t := switchBegun s src m
    let khz := max (s.refHz * s.rootM / 1000) (nextRef s src * m / 1000)
    (t.flag Reg.CLK_STAT_SWITCHING = true ∧ t.getF Reg.CLK_ROOT_SRC = src ∧ t.getF Reg.CLK_ROOT_M = m ∧
      (t.clk = { s.clk with ramp := some 0, next := (src, m), nextHz := nextRef s src } ∧ (src ≠ 1 → t.flag Reg.TIME_STATUS_SYNC = false) ∧
        t.getF Reg.PWR_VNOW_VF_NOW = max (s.getF Reg.PWR_VSET_VF_REQ) (minCodes khz).1 ∧
        t.getF Reg.PWR_VNOW_VT_NOW = max (s.getF Reg.PWR_VSET_VT_REQ) (minCodes khz).2.1 ∧
        t.getF Reg.PWR_VNOW_VS_NOW = max (s.getF Reg.PWR_VSET_VS_REQ) (minCodes khz).2.2) ∧
      (t.flag Reg.PWR_VNOW_SLEW = true ↔
        s.aon.rails ≠ (t.getF Reg.PWR_VNOW_VF_NOW, t.getF Reg.PWR_VNOW_VT_NOW, t.getF Reg.PWR_VNOW_VS_NOW)) ∧
      (t.flag Reg.PWR_VNOW_SLEW = false → ∀ c, c < 16 → t.flag (Reg.MEMC_STAT_SREF c) = true) ∧
      (t.flag Reg.PWR_VNOW_SLEW = true → ∀ c, t.flag (Reg.MEMC_STAT_SREF c) = s.flag (Reg.MEMC_STAT_SREF c)) ∧
      { t with regs := s.regs, cyc := s.cyc, clk := s.clk } = s) ∧
    (∀ f : Field, f.reg < 0x100000 → (∀ g ∈ switchFields ++ railFields, g.reg = f.reg → f.hi < g.lo ∨ g.hi < f.lo) → t.getF f = s.getF f) ∧
    SwitchOnly s t := by
  have hleft := syncLeft_reads s hs hm
  have honly := switchOnly_syncLeft s src m
  unfold switchBegun
  rw [voltVco_switchAsked]
  generalize max (s.refHz * s.rootM / 1000) (nextRef s src * m / 1000) = khz
  generalize syncLeft s src m = x at hleft honly ⊢
  obtain ⟨hsw, hsrc, hm, hsync, hbits, hclk⟩ := hleft
  obtain ⟨hvf, hvt, hvs, hslew⟩ := applyVolts_shown x khz
  have hrails := (onlyBits_applyVolts x khz).1
  have hclk2 : (applyVolts x khz).clk = x.clk := (onlyBits_applyVolts x khz).keeps State.clk fun _ _ _ => rfl
  have honly2 := honly.applyVolts khz
  have haon : x.aon = s.aon := (congrArg State.aon honly.1 :)
  have hreq (f : Field) (hf : ∀ g ∈ switchFields, g.reg = f.reg → f.hi < g.lo ∨ g.hi < f.lo) : x.getF f = s.getF f := getF_of_bitsBut hbits hf
  rw [hreq Reg.PWR_VSET_VF_REQ (by decide)] at hvf
  rw [hreq Reg.PWR_VSET_VT_REQ (by decide)] at hvt
  rw [hreq Reg.PWR_VSET_VS_REQ (by decide)] at hvs
  rw [haon] at hslew
  have hflag (f : Field) (hf : ∀ g ∈ railFields, g.reg = f.reg → f.hi < g.lo ∨ g.hi < f.lo) : (applyVolts x khz).flag f = x.flag f :=
    flag_of_bitsBut hrails hf
  have hget (f : Field) (hf : ∀ g ∈ railFields, g.reg = f.reg → f.hi < g.lo ∨ g.hi < f.lo) : (applyVolts x khz).getF f = x.getF f :=
    getF_of_bitsBut hrails hf
  have hold (f : Field) (hf : ∀ g ∈ switchFields ++ railFields, g.reg = f.reg → f.hi < g.lo ∨ g.hi < f.lo) :
      (applyVolts x khz).getF f = s.getF f :=
    (hget f fun g hg => hf g (List.mem_append_right _ hg)).trans (hreq f fun g hg => hf g (List.mem_append_left _ hg))
  have hsw := (hflag Reg.CLK_STAT_SWITCHING (by decide)).trans hsw
  have hsrc := (hget Reg.CLK_ROOT_SRC (by decide)).trans hsrc
  have hm := (hget Reg.CLK_ROOT_M (by decide)).trans hm
  have hsync : src ≠ 1 → _ := fun h => (hflag Reg.TIME_STATUS_SYNC (by decide)).trans (hsync h)
  have hclk := hclk2.trans hclk
  have hmemc (c : Nat) : (applyVolts x khz).flag (Reg.MEMC_STAT_SREF c) = s.flag (Reg.MEMC_STAT_SREF c) := by
    unfold State.flag
    rw [hold _ fun g hg hreg => absurd hreg (ne_of_lt ?_)]
    refine (switchRegs_low g hg).trans_le ?_
    simp only [Reg.MEMC_STAT_SREF, Reg.MEMC_STAT]
    omega
  generalize applyVolts x khz = y at *
  obtain ⟨hlow, hstand, hmove, hclk3⟩ := switchStep1_reads y
  have honly3 := honly2.switchStep1
  have hlowF (f : Field) (hf : f.reg < 0x100000) : (switchStep1 y).flag f = y.flag f := by
    unfold State.flag
    rw [hlow f hf]
  dsimp only
  rw [hlow Reg.CLK_ROOT_SRC (by decide), hlow Reg.CLK_ROOT_M (by decide), hlow Reg.PWR_VNOW_VF_NOW (by decide), hlow Reg.PWR_VNOW_VT_NOW (by decide),
    hlow Reg.PWR_VNOW_VS_NOW (by decide), hlowF Reg.CLK_STAT_SWITCHING (by decide), hlowF Reg.TIME_STATUS_SYNC (by decide),
    hlowF Reg.PWR_VNOW_SLEW (by decide)]
  refine ⟨⟨hsw, hsrc, hm, ⟨hclk3.trans hclk, hsync, hvf, hvt, hvs⟩, hslew, hstand, fun h c => ?_, honly3.1⟩,
      fun f hf hd => (hlow f hf).trans (hold f hd), honly3⟩
  rw [hmove h]
  exact hmemc c

end

/-! ### A slip of time -/

section
variable (s : State)

theorem taintSector_keeps {α : Type} (f : State → α) (hf : ∀ u r c x, f { u with regs := r, cyc := c, taint := x } = f u) (sec : Nat) :
    f (s.taintSector sec) = f s := by
  unfold State.taintSector
  split
  · rfl
  · exact hf s _ _ _

theorem reg_taintSector {o : Nat} (ho : o < Reg.TIME_TAINT_CNT) (sec : Nat) : (s.taintSector sec).reg o = s.reg o := by
  unfold State.taintSector
  split
  · rfl
  · refine (reg_addF_ne _ _ 1 o (Nat.ne_of_lt ho)).trans ((reg_setF_ne _ (mapBit (Reg.TIME_TAINT ·) sec) 1 o ?_).trans (reg_of_regs rfl o))
    simp only [mapBit, Reg.TIME_TAINT, Reg.TIME_TAINT_CNT] at ho ⊢
    omega

theorem tainted_taintSector (sec i : Nat) : (s.taintSector sec).tainted i = (s.tainted i || decide (i = sec)) := by
  unfold State.taintSector
  by_cases hi : i = sec
  · subst hi
    split
    · next h => rw [h, Bool.true_or]
    · exact (tget_tset_self _ s.taint i true).trans (by simp)
  · have hother : (s.tainted i || decide (i = sec)) = s.tainted i := by simp [hi]
    rw [hother]
    split
    · rfl
    · exact tget_tset_ne _ s.taint sec i true hi

theorem tainted_foldl_taintSector (l : List Nat) (i : Nat) : (l.foldl State.taintSector s).tainted i = (s.tainted i || decide (i ∈ l)) := by
  induction l generalizing s with
  | nil => simp
  | cons k l ih =>
    rw [List.foldl_cons, ih, tainted_taintSector, Bool.or_assoc]
    simp

/-- A slip recorded (R49). -/
def slipRecorded : State := ((s.raiseF Reg.TIME_STATUS_SLIP).incF Reg.TIME_ERR_SLIP_CNT).raiseEv 285

theorem slip_eq : slip s = if (s.flag Reg.TIME_CTRL_SLIP_TAINT && !(s.tickOver && s.lastTick)) = true then
    (List.range 240).foldl State.taintSector (slipRecorded s) else slipRecorded s := rfl

theorem slipRecorded_reads : (slipRecorded s).flag Reg.TIME_STATUS_SLIP = true ∧
    (slipRecorded s).getF Reg.TIME_ERR_SLIP_CNT = min (s.getF Reg.TIME_ERR_SLIP_CNT + 1) 255 ∧
    (slipRecorded s).raised = (s.raiseEv 285).raised ∧ (slipRecorded s).taint = s.taint := by
  have hw : Wrote [(Reg.TIME_ERR_SLIP_CNT, min (s.getF Reg.TIME_ERR_SLIP_CNT + 1) 255), (Reg.TIME_STATUS_SLIP, 1)] s (slipRecorded s) :=
    (((Wrote.refl s).raiseF _).addF 1 (.of_ok rfl) rfl).of_regs rfl
  have hsep : Separate [Reg.TIME_ERR_SLIP_CNT, Reg.TIME_STATUS_SLIP] := .of_ok rfl
  have hevs : ((s.raiseF Reg.TIME_STATUS_SLIP).incF Reg.TIME_ERR_SLIP_CNT).cyc.evs = s.cyc.evs := (incF_evs _ _).trans (raiseF_evs _ _)
  have hcount : min (s.getF Reg.TIME_ERR_SLIP_CNT + 1) 255 < 2 ^ 8 := by omega
  exact ⟨hw.flag (b := true) hsep (by simp), hw.getF hsep (by simp) hcount, raiseEv_raised_congr 285 rfl hevs rfl rfl, rfl⟩

theorem slip_reads : (slip s).flag Reg.TIME_STATUS_SLIP = true ∧ (slip s).raised = (s.raiseEv 285).raised ∧
    (slip s).getF Reg.TIME_ERR_SLIP_CNT = min (s.getF Reg.TIME_ERR_SLIP_CNT + 1) 255 ∧
    (s.flag Reg.TIME_CTRL_SLIP_TAINT = true → s.tickOver = false → ∀ i, i < 240 → (slip s).tainted i = true) ∧
    (s.flag Reg.TIME_CTRL_SLIP_TAINT = false → (slip s).taint = s.taint) := by
  obtain ⟨hslip, hcount, hraised, htaint⟩ := slipRecorded_reads s
  rw [slip_eq]
  generalize slipRecorded s = x at hslip hcount hraised htaint
  have hreg {o : Nat} (ho : o < Reg.TIME_TAINT_CNT) : ((List.range 240).foldl State.taintSector x).reg o = x.reg o :=
    foldl_keeps (fun u => u.reg o) (fun u sec => reg_taintSector u ho sec) _ x
  have hkeep : ((List.range 240).foldl State.taintSector x).raised = x.raised :=
    foldl_keeps State.raised (fun u sec => taintSector_keeps u State.raised (fun _ _ _ _ => rfl) sec) _ x
  split
  · next h =>
    refine ⟨(flag_of_reg (hreg (by decide))).trans hslip, hkeep.trans hraised, (getF_of_reg (hreg (by decide))).trans hcount, fun _ _ i hi => ?_, fun hf => ?_⟩
    · rw [tainted_foldl_taintSector]
      simp [hi]
    · rw [hf] at h
      exact absurd h Bool.noConfusion
  · next h =>
    refine ⟨hslip, hraised, hcount, fun hf hover => ?_, fun _ => htaint⟩
    exact absurd (by rw [hf, hover]; rfl) h

end

/-- A root switch in user mode slips time (R49, R388). -/
theorem slip_switchBegun_reads {s : State} {src m : Nat} (hs : src < 4) (hm : m < 512) (hyes : rootAllowed s src m = true) :
    let t := slip (switchBegun s src m)
    t.flag Reg.TIME_STATUS_SLIP = true ∧ t.raised = (s.raiseEv 285).raised ∧
      t.getF Reg.TIME_ERR_SLIP_CNT = min (s.getF Reg.TIME_ERR_SLIP_CNT + 1) 255 ∧
      (s.flag Reg.TIME_CTRL_SLIP_TAINT = true → s.tickOver = false → ∀ i, i < 240 → t.tainted i = true) ∧
      (s.flag Reg.TIME_CTRL_SLIP_TAINT = false → t.taint = s.taint) := by
  have hidle : s.clk.ramp = none := by
    simp only [rootAllowed, Bool.and_eq_true, Option.isNone_iff_eq_none] at hyes
    exact hyes.1.1.2
  obtain ⟨⟨-, -, -, ⟨hclk, -⟩, -⟩, hold, hframe, hevs⟩ := switchBegun_reads s hs hm
  generalize switchBegun s src m = z at hclk hold hframe hevs
  obtain ⟨hslip, hraised, hcount, htaint, hkept⟩ := slip_reads z
  have hflag : z.flag Reg.TIME_CTRL_SLIP_TAINT = s.flag Reg.TIME_CTRL_SLIP_TAINT := by
    unfold State.flag
    rw [hold _ (by decide) (by decide)]
  have hclock : z.clockOn = s.clockOn := (congrArg State.clockOn hframe :)
  have hhalt : z.dbgHalt = s.dbgHalt := (congrArg State.dbgHalt hframe :)
  have htime : z.time = s.time := (congrArg State.time hframe :)
  have hover : z.tickOver = s.tickOver := by
    unfold State.tickOver State.ramping
    rw [hclock, hhalt, htime, hclk, hidle]
  rw [hold _ (by decide) (by decide)] at hcount
  exact ⟨hslip, hraised.trans (raiseEv_raised_congr 285 (congrArg State.raised hframe :) hevs hclock hhalt), hcount,
    fun ht ho => htaint (hflag.trans ht) (hover.trans ho), fun hf => (hkept (hflag.trans hf)).trans (congrArg State.taint hframe :)⟩

/-! ### Trimming and compensation -/

section
variable {s : State} {count : Nat}

/-- A window of the trim counts (R394). -/
def trims (s : State) : Prop := s.phase ≠ .unpowered ∧ s.flag Reg.CLK_TRIM_EN = true ∧ s.clk.rco = true ∧ trimRefOk s = true

/-- The trim at its limit. -/
def trimLimit (s : State) : State := (s.raiseF Reg.CLK_FLAG_RANGE_ERR).raiseEv 207

theorem exec_rcoTrimWindow_of_trims (h : trims s) : exec (.rcoTrimWindow count) s =
    if count < trimNominal s then .next (if s.getF Reg.CLK_TCODE_CODE = 4095 then trimLimit s else
      s.setF Reg.CLK_TCODE_CODE (s.getF Reg.CLK_TCODE_CODE + 1))
    else if trimNominal s < count then .next (if s.getF Reg.CLK_TCODE_CODE = 0 then trimLimit s else
      s.setF Reg.CLK_TCODE_CODE (s.getF Reg.CLK_TCODE_CODE - 1))
    else .next s := by
  obtain ⟨h1, h2, h3, h4⟩ := h
  rw [exec_rcoTrimWindow]
  exact if_pos (by simp [h1, h2, h3, h4])

theorem exec_rcoTrimWindow_of_not (h : s.clk.rco = false ∨ trimRefOk s = false ∨ s.flag Reg.CLK_TRIM_EN = false) :
    exec (.rcoTrimWindow count) s = .next s := by
  rw [exec_rcoTrimWindow]
  exact if_neg (by rcases h with h | h | h <;> simp [h])

theorem trimCode_reads {c : Nat} (hc : c < 4096) : (s.setF Reg.CLK_TCODE_CODE c).getF Reg.CLK_TCODE_CODE = c ∧
    OnlyBits [Reg.CLK_TCODE_CODE] s (s.setF Reg.CLK_TCODE_CODE c) := by
  have hw := (Wrote.refl s).setF Reg.CLK_TCODE_CODE c
  have hsep : Separate [Reg.CLK_TCODE_CODE] := .of_ok rfl
  exact ⟨hw.getF hsep (.head _) hc, hw.bitsBut hsep, rfl⟩

theorem trimLimit_reads (s : State) : (trimLimit s).flag Reg.CLK_FLAG_RANGE_ERR = true ∧ OnlyBitsEv [Reg.CLK_FLAG_RANGE_ERR] 207 s (trimLimit s) :=
  ⟨(flag_of_regs (s := s.raiseF Reg.CLK_FLAG_RANGE_ERR) rfl _).trans (flag_raiseF s _ (by decide) (by decide)),
    onlyBitsEv_raiseF s Reg.CLK_FLAG_RANGE_ERR 207 ((Field.fits_iff _).mpr rfl)⟩

/-- One pin's tap code corrected (R395). -/
def tapFixed (b : Fin 4) (acc : State) (ii : Nat) : State :=
  let i := 24 * b.val + ii
  let (n, s1) := acc.draw
  let g := s1.gpio
  { s1 with gpio := { g with tap := tset (fun _ => 0) g.tap i (s1.getF (Reg.GPIO_CFG_DEL i) + Config.tapFix n) } }

theorem tapFixed_reads (b : Fin 4) (s : State) {ii : Nat} (hii : ii < 24) :
    (∀ i, i / 24 ≠ b.val → tget (fun _ => 0) (tapFixed b s ii).gpio.tap i = tget (fun _ => 0) s.gpio.tap i) ∧
      { tapFixed b s ii with gpio := { (tapFixed b s ii).gpio with tap := s.gpio.tap }, fresh := s.fresh } = s :=
  ⟨fun i hb => tget_tset_ne _ s.gpio.tap _ i _ (by omega), rfl⟩

theorem exec_gpioDelayCompensate_eq (b : Fin 4) : exec (.gpioDelayCompensate b) s =
    if s.alive = true ∧ s.k = 0 then .next ((List.range 24).foldl (tapFixed b) s) else .next s := by
  rw [exec_gpioDelayCompensate]
  unfold execGpioDelayCompensate
  simp only [Bool.and_eq_true, beq_iff_eq]
  rfl

theorem foldl_tapFixed_reads (b : Fin 4) (l : List Nat) (hl : ∀ ii ∈ l, ii < 24) (s : State) :
    (∀ i, i / 24 ≠ b.val → tget (fun _ => 0) (l.foldl (tapFixed b) s).gpio.tap i = tget (fun _ => 0) s.gpio.tap i) ∧
      { l.foldl (tapFixed b) s with gpio := { (l.foldl (tapFixed b) s).gpio with tap := s.gpio.tap }, fresh := s.fresh } = s := by
  induction l generalizing s with
  | nil => exact ⟨fun _ _ => rfl, rfl⟩
  | cons ii l ih =>
    obtain ⟨hii, hl⟩ := List.forall_mem_cons.mp hl
    obtain ⟨htap, hframe⟩ := ih hl (tapFixed b s ii)
    obtain ⟨htap1, hframe1⟩ := tapFixed_reads b s hii
    rw [List.foldl_cons]
    generalize l.foldl (tapFixed b) (tapFixed b s ii) = t at htap hframe ⊢
    generalize tapFixed b s ii = u at htap hframe htap1 hframe1
    exact ⟨fun i hb => (htap i hb).trans (htap1 i hb),
      (congrArg (fun x : State => { x with gpio := { x.gpio with tap := s.gpio.tap }, fresh := s.fresh }) hframe :).trans hframe1⟩

end

/-- Settles O44: sources by what makes them ready, trips by what the source drives, the root switch by what R386 allows. -/
theorem clockCommands : Obligations.ClockCommands := by
  unfold Obligations.ClockCommands
  intro s
  dsimp only
  refine ⟨fun h0 => ⟨fun hr hk hh => ?_, fun hr hx hs => ⟨?_, ?_⟩, fun hc => ?_, fun hc => ?_, fun khz ticks hlo hhi => ?_, fun khz hlo hhi hhang => ?_, ?_⟩,
    fun src h0 => ⟨exec_clockMonitorTrip_of_unwatched, fun hw => ?_⟩, fun src => ?_, fun src m ha => ?_, fun count h0 hen hrco href => ?_,
    fun count h => exec_rcoTrimWindow_of_not h, fun b => ?_⟩
  · exact ⟨_, _, exec_rcoReady_of_wait h0 hr hk hh, clocksBecome_clkReport s _, endsOne_stepTwo (clocksBecome_clkReport s _)⟩
  · exact ⟨_, _, exec_xoReady_of_start (xoStarting_of h0 hr hx hs), clocksBecome_clkReport s _, endsOne_stepTwo (clocksBecome_clkReport s _)⟩
  · exact ⟨_, exec_xoStartFail_of_start (xoStarting_of h0 hr hx hs), xoFailed_reads s⟩
  · exact ⟨_, (exec_aonSourceChange_eq h0).trans (if_pos hc), clocksBecome_clkReport s _⟩
  · exact (exec_aonSourceChange_eq h0).trans (if_neg (Bool.eq_false_iff.mp hc))
  · have hbecome := clocksBecome_clkReport s { s.clk with
      mref := some khz, stable := if s.clk.mref.any (fun f => mrefSame f khz) then s.clk.stable + ticks else ticks }
    have hexec := exec_mrefSettled_of_present (s := s) (ticks := ticks) h0 hlo hhi
    refine ⟨_, hbecome, fun hhang => hexec.trans ?_, fun hhang => hexec.trans ?_⟩
    · rw [hangEnds_of_none ((congrArg Clocks.hang hbecome.1).trans hhang)]
    · rw [hangEnds_of_hang ((congrArg Clocks.hang hbecome.1).trans hhang)]
  · have hbecome := clocksBecome_clkReport s { s.clk with mref := some khz, stable := 0 }
    have hkeep : (some khz).filter mrefPresent = some khz := by simp [mrefPresent, hlo, hhi]
    have hexec := exec_mrefLost_eq h0 (some khz)
    rw [hkeep, hangEnds_of_none ((congrArg Clocks.hang hbecome.1).trans hhang)] at hexec
    exact ⟨_, hexec, hbecome⟩
  · exact ⟨_, exec_mrefLost_eq h0 none, clocksBecome_clkReport s _⟩
  · have hexec := exec_clockMonitorTrip_of_watched h0 hw
    refine ⟨fun huse => ?_, fun huse => ?_⟩
    · have hs : src.val < 3 := by
        have h3 : src.val ≠ 3 := fun h => by simp [sourceInUse, h] at huse
        omega
      rw [if_pos huse] at hexec
      exact ⟨_, hexec, tripElsewhere_reads hs⟩
    · obtain ⟨hrec, hclk, hframe⟩ := fallBack_reads (s := s) src
      rw [if_neg (by simp [huse])] at hexec
      generalize fallBack (tripRecord s src.val) src.val = u at hexec hrec hclk hframe
      have honly := onlyBits_clkReport u
      refine ⟨u, hrec, fun hi hb => hexec.trans (if_neg (by simp [hi, hb])), fun h => ⟨_, hexec.trans (if_pos h), hrec.clkReport, clocksShown_clkReport u,
        honly.keeps State.clk fun _ _ _ => rfl, ?_⟩, hclk, hframe⟩
      exact (congrArg (fun z : State => { z with regs := s.regs, cyc := s.cyc, clk := s.clk }) honly.2 :).trans hframe
  · have hiff := sourceRuns_iff (s := s) src
    rw [exec_sourceRecovered_eq]
    refine ⟨fun hm hr => ⟨_, if_pos ⟨hm, hiff.mpr hr⟩, clocksBecome_clkReport s _⟩, fun h => if_neg fun ⟨hm, hr⟩ => ?_⟩
    rcases h with h | h
    · exact h hm
    · exact h (hiff.mp hr)
  · have hexec := exec_rootSwitch_eq s src m ha
    refine ⟨fun hno => ⟨_, hexec.trans (if_neg (Bool.eq_false_iff.mp hno)), rootRefused_reads s src.val m.val src.isLt m.isLt⟩, fun hyes huser => ?_,
      fun hyes huser => ?_⟩
    · rw [if_pos hyes, huser] at hexec
      exact ⟨_, hexec, (switchBegun_reads s src.isLt m.isLt).1⟩
    · rw [if_pos hyes, huser] at hexec
      exact ⟨_, hexec, slip_switchBegun_reads src.isLt m.isLt hyes⟩
  · have hcode : s.getF Reg.CLK_TCODE_CODE < 2 ^ 12 := Nat.mod_lt _ (by decide)
    have hexec := exec_rcoTrimWindow_of_trims (count := count) ⟨h0, hen, hrco, href⟩
    refine ⟨fun h => ?_, fun h => ?_, fun h => ?_⟩
    · rw [if_neg (by omega), if_neg (by omega)] at hexec
      exact hexec
    · rcases h with ⟨hlt, hc⟩ | ⟨hlt, hc⟩
      · rw [if_pos hlt, if_neg hc] at hexec
        obtain ⟨hval, honly⟩ := trimCode_reads (s := s) (c := s.getF Reg.CLK_TCODE_CODE + 1) (by omega)
        exact ⟨_, hexec, hval.trans (if_pos hlt).symm, honly⟩
      · rw [if_neg (by omega), if_pos hlt, if_neg hc] at hexec
        obtain ⟨hval, honly⟩ := trimCode_reads (s := s) (c := s.getF Reg.CLK_TCODE_CODE - 1) (by omega)
        exact ⟨_, hexec, hval.trans (if_neg (by omega)).symm, honly⟩
    · rcases h with ⟨hlt, hc⟩ | ⟨hlt, hc⟩
      · rw [if_pos hlt, if_pos hc] at hexec
        exact ⟨_, hexec, trimLimit_reads s⟩
      · rw [if_neg (by omega), if_pos hlt, if_pos hc] at hexec
        exact ⟨_, hexec, trimLimit_reads s⟩
  · rw [exec_gpioDelayCompensate_eq]
    refine ⟨fun ha hk => ⟨_, if_pos ⟨ha, hk⟩, ?_⟩, fun h => if_neg fun ⟨ha, hk⟩ => ?_⟩
    · obtain ⟨htap, hframe⟩ := foldl_tapFixed_reads b (List.range 24) (fun ii h => List.mem_range.mp h) s
      exact ⟨fun i _ hb => htap i hb, hframe⟩
    · rcases h with h | h
      · exact Bool.false_ne_true (h.symm.trans ha)
      · exact h hk

end Sys2Proof.Machine

/-!
SUPPORT. How streams start (16_configuration.md R342, 23_debug_bist.md R454): a state that the statement does not fit.
-/

namespace Sys2Proof.Machine

/-- Without VB the service pins do not work, so that CFG_STREAM acts on nothing. -/
theorem execCfgStream_reset (v : Word32) : execCfgStream v State.reset = .next State.reset := rfl

theorem setIr_reset : setIr State.reset 0x24 = { State.reset with tapIr := 0x24 } := setIr_of_not_ac rfl (by decide)

/-- Refutes O37: the state of a device without power waits too, and there CFG_STREAM leaves the instruction of the TAP as it is (R441). -/
theorem not_streamsStart : ¬ Obligations.StreamsStart := by
  unfold Obligations.StreamsStart
  intro h
  obtain ⟨-, -, hport, -⟩ := h State.reset
  obtain ⟨-, hwaits⟩ := hport 0
  have hset := (execCfgStream_reset 0).symm.trans (hwaits (.inl rfl))
  rw [setIr_reset] at hset
  exact absurd (congrArg State.tapIr (Host.Outcome.next.inj hset)) (by decide)

end Sys2Proof.Machine

/-!
SUPPORT. The snoop protocol (18_steward_events.md R368 to R372): a state that the statement on the grant of a read does not fit.
-/

namespace Sys2Proof.Machine

/-- Core 0 has asked for line 0 to read it and its GRANT has arrived, while another SNP flit for the core waits in its own router to enter the
queue that the GRANT leaves. -/
def grantedRead : State :=
  let r := initiatorRouter 0x200
  { State.reset with
    phase := .run, aon := { Aon.reset with entry := 2 }, cores := [(0, { Core.reset with wait := .coh 1 0 0 1 })],
    netq := [(queueKey r 3 7 0, [.snp 9 r])], inject := [(r, [(3, 0, .snp 64 r)])] }

/-- The read of the line is issued at that router, so that the flit which waited there follows the GRANT into the queue. -/
theorem execSnoopGrant_grantedRead : execSnoopGrant 0 grantedRead = .next (cohRead (grantedRead.eject (initiatorRouter 0x200) 3 0) 0 1 0 0 2) := rfl

theorem queue_cohRead_grantedRead :
    (cohRead (grantedRead.eject (initiatorRouter 0x200) 3 0) 0 1 0 0 2).queue (initiatorRouter 0x200) 3 7 0 = [.snp 64 (initiatorRouter 0x200)] := rfl

/-- Refutes O42: after the GRANT of `grantedRead` the queue that held the GRANT alone holds the SNP flit that waited behind it. -/
theorem not_snoopProtocol : ¬ Obligations.SnoopProtocol := by
  unfold Obligations.SnoopProtocol
  intro h
  obtain ⟨-, hcores, -⟩ := h grantedRead 9 (initiatorRouter 0x200) [] rfl
  obtain ⟨-, hgrant⟩ := hcores 0 rfl
  obtain ⟨-, hread, -⟩ := hgrant 1 0 rfl rfl
  obtain ⟨t, hexec, -, -, hqueue⟩ := hread (by decide) (.inl rfl)
  rw [exec_snoopGrant, execSnoopGrant_grantedRead] at hexec
  cases hexec
  exact absurd (queue_cohRead_grantedRead.symm.trans hqueue) (by decide)

end Sys2Proof.Machine

/-!
SUPPORT. Resets (20_reset_startup.md R397 to R400, R410): what a reset leaves, and what begins the start.
-/

namespace Sys2Proof.Machine

/-! ### Step 2 of a start -/

/-- The oscillators that a start needs are ready (R383, R392). -/
def ClocksUp (k : Clocks) : Prop := k.rco = true ∧ (1 ∉ k.tripped ∨ k.xo = true)

/-- A waiting device that has not begun its start goes on to step 2 (R397, R403). -/
def StepTwoDue (s : State) : Prop := s.aon.resetLow = false ∧ s.aon.hot = false ∧ ClocksUp s.clk

/-- RST_CAUSE shows a cause. -/
def CauseShown (s : State) (c : Nat × Nat) : Prop :=
  s.getF Reg.RST_CAUSE_CAUSE = c.1 % 16 ∧ s.getF Reg.RST_CAUSE_SUB = c.2 % 16 ∧ s.flag Reg.RST_CAUSE_CUR = false

def causeFields : List Field := [Reg.RST_CAUSE_CUR, Reg.RST_CAUSE_SUB, Reg.RST_CAUSE_CAUSE]

section
variable {s : State}

theorem clocksReady_iff : clocksReady s = true ↔ ClocksUp s.clk := by simp [clocksReady, ClocksUp]

theorem stepTwo_iff : (s.phase == .waiting && decide (s.getF Reg.RST_STAGE_STEP ≤ 1) && !s.aon.resetLow && !s.aon.hot && clocksReady s) = true ↔
    s.phase = .waiting ∧ s.getF Reg.RST_STAGE_STEP ≤ 1 ∧ StepTwoDue s := by
  simp only [StepTwoDue, ← clocksReady_iff, Bool.and_eq_true, Bool.not_eq_true', beq_iff_eq, decide_eq_true_eq, and_assoc]

theorem stepTwo_of_due (hp : s.phase = .waiting) (hs : s.getF Reg.RST_STAGE_STEP ≤ 1) (h : StepTwoDue s) :
    stepTwo s = causeWrite (s.setF Reg.RST_STAGE_STEP 2) := if_pos (stepTwo_iff.mpr ⟨hp, hs, h⟩)

theorem stepTwo_of_not (h : ¬ (s.phase = .waiting ∧ s.getF Reg.RST_STAGE_STEP ≤ 1 ∧ StepTwoDue s)) : stepTwo s = s :=
  if_neg fun hc => h (stepTwo_iff.mp hc)

theorem causeWrite_of_none (h : s.aon.cause = none) : causeWrite s = s := by
  unfold causeWrite
  rw [h]

theorem wrote_causeWrite {c : Nat × Nat} (h : s.aon.cause = some c) :
    Wrote [(Reg.RST_CAUSE_CUR, 0), (Reg.RST_CAUSE_SUB, c.2), (Reg.RST_CAUSE_CAUSE, c.1)] s (causeWrite s) := by
  unfold causeWrite
  rw [h]
  exact (((Wrote.refl s).setF _ _).setF _ _).setF Reg.RST_CAUSE_CUR 0

theorem separate_causeFields : Separate causeFields := .of_ok rfl

theorem causeShown_causeWrite {c : Nat × Nat} (h : s.aon.cause = some c) : CauseShown (causeWrite s) c := by
  have hw := wrote_causeWrite h
  exact ⟨hw.getF_mod separate_causeFields (by simp), hw.getF_mod separate_causeFields (by simp), hw.flag (b := false) separate_causeFields (by simp)⟩

theorem bitsBut_causeWrite : BitsBut causeFields s (causeWrite s) := by
  cases h : s.aon.cause with
  | none =>
    rw [causeWrite_of_none h]
    exact bitsBut_refl _ s
  | some c => exact (wrote_causeWrite h).bitsBut separate_causeFields

/-- The start that begins: STEP shows 2 and RST_CAUSE the cause that waits (R399, R403). -/
theorem stepTwo_reads (hp : s.phase = .waiting) (hs : s.getF Reg.RST_STAGE_STEP ≤ 1) (h : StepTwoDue s) :
    (stepTwo s).getF Reg.RST_STAGE_STEP = 2 ∧ (∀ c, s.aon.cause = some c → CauseShown (stepTwo s) c) ∧
      BitsBut (Reg.RST_STAGE_STEP :: causeFields) s (stepTwo s) := by
  rw [stepTwo_of_due hp hs h]
  have haon : (s.setF Reg.RST_STAGE_STEP 2).aon = s.aon := rfl
  have hset : (s.setF Reg.RST_STAGE_STEP 2).getF Reg.RST_STAGE_STEP = 2 := getF_setF_self _ _ _ (by decide) (by decide)
  have hbits : BitsBut [Reg.RST_STAGE_STEP] s (s.setF Reg.RST_STAGE_STEP 2) :=
    bitsBut_setF (bitsBut_refl _ s) _ _ (by simp) (by decide) (by decide)
  generalize s.setF Reg.RST_STAGE_STEP 2 = u at haon hset hbits ⊢
  refine ⟨(getF_of_bitsBut bitsBut_causeWrite (by decide)).trans hset, fun c hc => causeShown_causeWrite (haon ▸ hc), ?_⟩
  exact bitsBut_trans (bitsBut_mono hbits (by simp)) (bitsBut_mono bitsBut_causeWrite fun f hf => .tail _ hf)

end

/-! ### What a reset leaves -/

/-- The fields beside the always-on ones that stand at another value than the reset value after a reset. -/
def resetMoves : List Field := [Reg.RST_ALARM_PIN, Reg.CLK_TCODE_CODE, Reg.VLT_STAT_FUSE_BUSY, Reg.RST_STAGE_STEP]

/-- A reset with a cause and its subcode leads from `s` to `t` (R397 to R399). -/
def ResetBy (s t : State) (cause sub : Nat) : Prop :=
  let c := firstCause s.aon.cause (cause, sub)
  t.phase = .waiting ∧ t.clockOn = false ∧ t.dbgHalt = false ∧ t.raised = [] ∧
  t.aon.cause = some c ∧ t.aon.ticks = 0 ∧ t.aon.res = [0, 0, 0, 0] ∧
  (∀ f ∈ alwaysOn, f.reg ≠ Reg.RST_CAUSE → t.getF f = s.getF f) ∧
  (StepTwoDue t → t.getF Reg.RST_STAGE_STEP = 2 ∧ CauseShown t c) ∧
  (¬ StepTwoDue t → t.getF Reg.RST_STAGE_STEP = 0 ∧ ∀ f ∈ alwaysOn, f.reg = Reg.RST_CAUSE → t.getF f = s.getF f) ∧
  (∀ o i, (∀ f ∈ alwaysOn ++ resetMoves, f.reg = o → i < f.lo ∨ f.hi < i) → (t.reg o).getLsbD i = (regReset o).getLsbD i) ∧
  (t.clk.rco = s.clk.rco ∧ t.clk.mref = s.clk.mref ∧ t.clk.ramp = none ∧ t.clk.hang = false ∧
    (s.flag Reg.CLK_FLAG_XO_FAIL = true → t.clk.xo = false ∧ t.clk.xoStop = true ∧ t.clk.aonXo = false) ∧
    (s.flag Reg.CLK_FLAG_XO_FAIL = false → t.clk.xo = s.clk.xo ∧ t.clk.xoStop = false ∧ t.clk.aonXo = s.clk.aonXo)) ∧
  t.flash = s.flash ∧ t.fuses = s.fuses ∧ t.pending = s.pending ∧ t.time = TimeState.reset ∧ t.cores = [] ∧ t.outst = [] ∧
  t.cfgw = [] ∧ t.mstore = [] ∧ t.bmem = [] ∧ t.mem = [] ∧ t.tram = [] ∧ t.sram = [] ∧ t.keyw = []

section
variable {s t : State} {cause sub : Nat}

/-- A reset reads of the state before it only what it keeps. -/
theorem ResetBy.congr {u : State} (h : ResetBy u t cause sub) (hregs : ∀ f ∈ alwaysOn, u.getF f = s.getF f) (hcause : u.aon.cause = s.aon.cause)
    (hclk : u.clk = s.clk) (hflash : u.flash = s.flash) (hfuses : u.fuses = s.fuses) (hpending : u.pending = s.pending) :
    ResetBy s t cause sub := by
  have hfail : u.flag Reg.CLK_FLAG_XO_FAIL = s.flag Reg.CLK_FLAG_XO_FAIL := by
    unfold State.flag
    rw [hregs _ (by decide)]
  unfold ResetBy at h ⊢
  rw [hcause, hfail, hclk, hflash, hfuses, hpending] at h
  obtain ⟨h1, h2, h3, h4, h5, h6, h7, hkept, hon, hoff, hrest⟩ := h
  refine ⟨h1, h2, h3, h4, h5, h6, h7, fun f hf hne => (hkept f hf hne).trans (hregs f hf), hon, fun hno => ?_, hrest⟩
  exact ⟨(hoff hno).1, fun f hf heq => ((hoff hno).2 f hf heq).trans (hregs f hf)⟩

theorem clocksReset_reads (s : State) : let k := clocksReset s
    k.rco = s.clk.rco ∧ k.mref = s.clk.mref ∧ k.ramp = none ∧ k.hang = false ∧
      (s.flag Reg.CLK_FLAG_XO_FAIL = true → k.xo = false ∧ k.xoStop = true ∧ k.aonXo = false) ∧
      (s.flag Reg.CLK_FLAG_XO_FAIL = false → k.xo = s.clk.xo ∧ k.xoStop = false ∧ k.aonXo = s.clk.aonXo) := by
  refine ⟨rfl, rfl, rfl, rfl, fun h => ?_, fun h => ?_⟩ <;> simp [clocksReset, h]

theorem bitsBut_keepFields (old : State) {fs : List Field} (hsep : Separate fs) : BitsBut fs s (keepFields old s fs) := by
  have hw := wrote_keepFields s old fs
  have hfst : (fs.map fun f => (f, old.getF f)).reverse.map Prod.fst = fs.reverse := by simp [List.map_reverse, Function.comp_def]
  have hsep2 := hsep.reverse
  rw [← hfst] at hsep2
  exact bitsBut_mono (hw.bitsBut hsep2) (by simp [Function.comp_def])

/-- The state that a reset leaves before a start may begin. -/
def blanked (s : State) (cause sub : Nat) : State :=
  setAlarm { blank s .waiting alwaysOn with aon := resetAon s cause sub, clk := clocksReset s }

theorem deviceReset_eq_stepTwo : deviceReset s cause sub = stepTwo (blanked s cause sub) := rfl

/-- The registers of a blanked state that are not kept stand at their reset values, but for the trim code and the burn in progress. -/
theorem bitsBut_blank (s : State) (p : Phase) {kept : List Field} (hsep : Separate kept) :
    BitsBut (Reg.CLK_TCODE_CODE :: Reg.VLT_STAT_FUSE_BUSY :: kept) State.reset (blank s p kept) := by
  let start : State := { State.reset with
    pending := s.pending, resp := s.resp, fresh := s.fresh, phase := p, fuses := s.fuses, flash := s.flash, aon := s.aon,
    clk := { s.clk with ramp := none, hang := false }, th := thKept s.th, tapIr := s.tapIr,
    dbg := { s.dbg with wait := none, i2c := false, resume := false } }
  have hstart : BitsBut kept State.reset start := bitsBut_of_regs (bitsBut_refl _ _) rfl
  have hkept := bitsBut_mono (gs := Reg.CLK_TCODE_CODE :: Reg.VLT_STAT_FUSE_BUSY :: kept)
    (bitsBut_trans hstart (bitsBut_keepFields s hsep)) fun f hf => .tail _ (.tail _ hf)
  exact bitsBut_putF (bitsBut_setF hkept _ _ (.head _) (by decide) (by decide)) _ _ (.tail _ (.head _)) (by decide) (by decide)

theorem blanked_reads (s : State) (cause sub : Nat) :
    (blanked s cause sub).phase = .waiting ∧ (blanked s cause sub).aon = resetAon s cause sub ∧
      (blanked s cause sub).clk = clocksReset s ∧ (blanked s cause sub).getF Reg.RST_STAGE_STEP = 0 ∧
      (∀ f ∈ alwaysOn, (blanked s cause sub).getF f = s.getF f) ∧
      BitsBut (alwaysOn ++ resetMoves) State.reset (blanked s cause sub) := by
  have hphase : (blank s .waiting alwaysOn).phase = .waiting :=
    (RegsOnly.keeps (((regsOnly_keepFields _ s alwaysOn).setF _ _).setF _ _) State.phase fun _ _ => rfl).trans rfl
  have hkept (f : Field) (hf : f ∈ alwaysOn) := getF_blank s .waiting hf
  have hblank := bitsBut_blank s .waiting separate_alwaysOn
  unfold blanked
  generalize blank s .waiting alwaysOn = b at hphase hkept hblank ⊢
  have hregs : ({ b with aon := resetAon s cause sub, clk := clocksReset s } : State).regs = b.regs := rfl
  have hx : ({ b with aon := resetAon s cause sub, clk := clocksReset s } : State).phase = b.phase ∧
      ({ b with aon := resetAon s cause sub, clk := clocksReset s } : State).aon = resetAon s cause sub ∧
      ({ b with aon := resetAon s cause sub, clk := clocksReset s } : State).clk = clocksReset s := ⟨rfl, rfl, rfl⟩
  generalize ({ b with aon := resetAon s cause sub, clk := clocksReset s } : State) = x at hregs hx ⊢
  obtain ⟨hxp, hxa, hxc⟩ := hx
  have halarm : BitsBut [Reg.RST_ALARM_PIN] x (setAlarm x) := bitsBut_putF (bitsBut_refl _ x) _ _ (.head _) (by decide) (by decide)
  have hbits : BitsBut (Reg.RST_ALARM_PIN :: Reg.CLK_TCODE_CODE :: Reg.VLT_STAT_FUSE_BUSY :: alwaysOn) State.reset (setAlarm x) :=
    bitsBut_trans (bitsBut_mono (bitsBut_of_regs hblank hregs) fun f hf => .tail _ hf) (bitsBut_mono halarm fun f hf => by simp_all)
  refine ⟨hxp.trans hphase, hxa, hxc, (getF_of_bitsBut hbits (by decide)).trans rfl, fun f hf => ?_, bitsBut_mono hbits ?_⟩
  · have hout : ∀ f ∈ alwaysOn, f.reg ≠ Reg.RST_ALARM_PIN.reg := by decide
    exact ((getF_of_reg (reg_setF_ne _ _ _ _ (hout f hf))).trans (getF_of_regs hregs f)).trans (hkept f hf)
  · intro f hf
    simp only [List.mem_cons, List.mem_append, resetMoves] at hf ⊢
    tauto

/-- What of a reset state is not a register. -/
theorem resetLeft {t : State} (h : t = { resetLeaves s cause sub with regs := t.regs }) :
    t.phase = .waiting ∧ t.clockOn = false ∧ t.dbgHalt = false ∧ t.raised = [] ∧ t.aon = resetAon s cause sub ∧ t.clk = clocksReset s ∧
      t.flash = s.flash ∧ t.fuses = s.fuses ∧ t.pending = s.pending ∧ t.time = TimeState.reset ∧ t.cores = [] ∧ t.outst = [] ∧
      t.cfgw = [] ∧ t.mstore = [] ∧ t.bmem = [] ∧ t.mem = [] ∧ t.tram = [] ∧ t.sram = [] ∧ t.keyw = [] := by
  generalize t.regs = r at h
  subst h
  exact ⟨rfl, rfl, rfl, rfl, rfl, rfl, rfl, rfl, rfl, rfl, rfl, rfl, rfl, rfl, rfl, rfl, rfl, rfl, rfl⟩

/-- A reset as R397 to R399 have it. -/
theorem resetBy_deviceReset (s : State) (cause sub : Nat) : ResetBy s (deviceReset s cause sub) cause sub := by
  obtain ⟨h1, h2, h3, h4, haon, hclk, hrest⟩ := resetLeft (deviceReset_eq s cause sub)
  obtain ⟨hphase, huaon, huclk, hstep, hkept, hbits⟩ := blanked_reads s cause sub
  rw [deviceReset_eq_stepTwo] at h1 h2 h3 h4 haon hclk hrest ⊢
  generalize blanked s cause sub = u at hphase huaon huclk hstep hkept hbits h1 h2 h3 h4 haon hclk hrest ⊢
  have hdue : StepTwoDue (stepTwo u) ↔ StepTwoDue u := by rw [StepTwoDue, StepTwoDue, haon, hclk, huaon, huclk]
  have hle : u.getF Reg.RST_STAGE_STEP ≤ 1 := by omega
  have hnext : BitsBut (Reg.RST_STAGE_STEP :: causeFields) u (stepTwo u) := by
    by_cases hd : StepTwoDue u
    · exact (stepTwo_reads hphase hle hd).2.2
    · rw [stepTwo_of_not fun hc => hd hc.2.2]
      exact bitsBut_refl _ u
  have hout : ∀ f ∈ alwaysOn, f.reg ≠ Reg.RST_CAUSE → ∀ g ∈ Reg.RST_STAGE_STEP :: causeFields, g.reg ≠ f.reg := by decide
  have hin : ∀ f ∈ Reg.RST_STAGE_STEP :: causeFields, f ∈ alwaysOn ++ resetMoves := by decide
  refine ⟨h1, h2, h3, h4, haon ▸ rfl, haon ▸ rfl, haon ▸ rfl, fun f hf hne => ?_, fun hd => ?_, fun hd => ?_, fun o i hoi => ?_, ?_, hrest⟩
  · exact (getF_of_reg (reg_of_bitsBut hnext (hout f hf hne))).trans (hkept f hf)
  · obtain ⟨h2, hshown, -⟩ := stepTwo_reads hphase hle (hdue.mp hd)
    exact ⟨h2, hshown _ (huaon ▸ rfl)⟩
  · rw [stepTwo_of_not fun hc => hd (hdue.mpr hc.2.2)]
    exact ⟨hstep, fun f hf _ => hkept f hf⟩
  · exact ((bitsBut_trans hbits (bitsBut_mono hnext hin)) o i hoi).trans (congrArg (fun w : Word32 => w.getLsbD i) (reg_reset o))
  · rw [hclk]
    exact clocksReset_reads s

end

end Sys2Proof.Machine

/-!
SUPPORT. Power, RESET_N and supplies (20_reset_startup.md R397 to R400, R410, 21_power.md R411, R412): the commands that reset or power the
device, over the lemmas on the reset itself.
-/

namespace Sys2Proof.Machine

/-! ### Power -/

section
variable (s : State)

/-- The state after power has risen, before the trim code and STEP. -/
def powered : State :=
  { State.reset with pending := s.pending, resp := s.resp, fresh := s.fresh, fuses := s.fuses, flash := s.flash,
                     aon := { Aon.reset with resetLow := s.aon.resetLow } }

/-- The registers that POWER_ON writes. -/
def powerShows : List (Field × Nat) := [(Reg.RST_STAGE_STEP, 1), (Reg.CLK_TCODE_CODE, (Config.trimCode 0).toNat)]

theorem exec_powerOn_of_unpowered {s : State} (h : s.phase = .unpowered) : exec .powerOn s = .next ((powered s).setFields powerShows) := by
  rw [exec_powerOn]
  exact okIf_of_true _ _ (by rw [h]; rfl)

theorem separate_powerShows : Separate (powerShows.map Prod.fst) := .of_ok rfl

theorem powerOn_reads : let t := (powered s).setFields powerShows
    t.phase = .waiting ∧ t.aon.cause = some (1, 0) ∧ t.flash = s.flash ∧ t.getF Reg.CLK_TCODE_CODE = (Config.trimCode 0).toNat ∧
      t.getF Reg.RST_STAGE_STEP = 1 ∧ t.clk = Clocks.reset ∧
      (∀ o i, (∀ f ∈ [Reg.CLK_TCODE_CODE, Reg.RST_STAGE_STEP], f.reg = o → i < f.lo ∨ f.hi < i) → (t.reg o).getLsbD i = (regReset o).getLsbD i) ∧
      t.fuses = s.fuses ∧ t.pending = s.pending ∧ t.aon.resetLow = s.aon.resetLow := by
  have hw := wrote_setFields (powered s) powerShows
  have hsep := separate_powerShows
  have hframe := regsOnly_setFields (powered s) powerShows
  have hstart : BitsBut (powerShows.map Prod.fst) State.reset (powered s) := bitsBut_of_regs (bitsBut_refl _ _) rfl
  have hbits := bitsBut_trans hstart (hw.bitsBut hsep)
  refine ⟨hframe.keeps State.phase fun _ _ => rfl, hframe.keeps (fun t => t.aon.cause) fun _ _ => rfl, hframe.keeps State.flash fun _ _ => rfl,
    hw.getF hsep (by simp [powerShows]) (Config.trimCode 0).isLt, hw.getF hsep (by simp [powerShows]) (by decide),
    hframe.keeps State.clk fun _ _ => rfl, fun o i hoi => ?_, hframe.keeps State.fuses fun _ _ => rfl, hframe.keeps State.pending fun _ _ => rfl,
    hframe.keeps (fun t => t.aon.resetLow) fun _ _ => rfl⟩
  have hout : ∀ f ∈ powerShows.map Prod.fst, f.reg = o → i < f.lo ∨ f.hi < i := fun f hf => hoi f (by simpa [powerShows, or_comm] using hf)
  exact (hbits o i hout).trans (congrArg (fun w : Word32 => w.getLsbD i) (reg_reset o))

theorem burning_cutBurn : (cutBurn s).fuses.burning = 0 := by
  unfold cutBurn
  dsimp only
  split
  · assumption
  · rfl

theorem cutBurn_of_idle {s : State} (h : s.fuses.burning = 0) : cutBurn s = s := if_pos h

end

/-! ### Causes of a reset -/

section
variable {s t : State} {cause sub : Nat}

theorem ResetBy.answered (h : ResetBy s t cause sub) (r : Response) : ResetBy s { t with resp := r } cause sub := h

/-- A reset of a state that has the registers and what else a reset keeps of `s`. -/
theorem resetBy_of_regs {u : State} (hregs : u.regs = s.regs) (hcause : u.aon.cause = s.aon.cause) (hclk : u.clk = s.clk)
    (hflash : u.flash = s.flash) (hfuses : u.fuses = s.fuses) (hpending : u.pending = s.pending) (cause sub : Nat) :
    ResetBy s (deviceReset u cause sub) cause sub :=
  (resetBy_deviceReset u cause sub).congr (fun f _ => getF_of_regs hregs f) hcause hclk hflash hfuses hpending

theorem exec_resetNAssert_of_high (hp : s.phase ≠ .unpowered) (hl : s.aon.resetLow = false) (hb : s.fuses.burning = 0) :
    exec .resetNAssert s = .next (if s.phase = .integrity then deviceReset { s with aon := { s.aon with resetLow := true } } 6 (s.getF Reg.VLT_HALT0_SUBCODE)
      else deviceReset { s with aon := { s.aon with resetLow := true } } 2 0) := by
  rw [exec_resetNAssert]
  unfold execResetNAssert
  rw [if_neg (by simp [hp, hl]), cutBurn_of_idle (s := { s with aon := { s.aon with resetLow := true } }) hb]

theorem exec_resetNAssert_of_low (hl : s.aon.resetLow = true) : exec .resetNAssert s = .next s := by
  rw [exec_resetNAssert]
  exact if_pos (.inr hl)

/-- RESET_N resets, with the subcode of an integrity halt that it ends (R397, R400). -/
theorem resetNAssert_reads (hp : s.phase ≠ .unpowered) (hl : s.aon.resetLow = false) (hb : s.fuses.burning = 0) :
    ∃ t, exec .resetNAssert s = .next t ∧ t.aon.resetLow = true ∧ (s.phase ≠ .integrity → ResetBy s t 2 0) ∧
      (s.phase = .integrity → ResetBy s t 6 (s.getF Reg.VLT_HALT0_SUBCODE)) := by
  have hlow (cause sub : Nat) : (deviceReset { s with aon := { s.aon with resetLow := true } } cause sub).aon.resetLow = true :=
    congrArg (fun t : State => t.aon.resetLow) (deviceReset_eq _ cause sub)
  have hreset (cause sub : Nat) : ResetBy s (deviceReset { s with aon := { s.aon with resetLow := true } } cause sub) cause sub :=
    resetBy_of_regs rfl rfl rfl rfl rfl rfl cause sub
  refine ⟨_, exec_resetNAssert_of_high hp hl hb, ?_⟩
  split
  · next h => exact ⟨hlow 6 _, fun hne => absurd h hne, fun _ => hreset 6 _⟩
  · next h => exact ⟨hlow 2 0, fun _ => hreset 2 0, fun heq => absurd heq h⟩

/-- RESET_N is high. -/
def State.released (s : State) : State := { s with aon := { s.aon with resetLow := false } }

theorem released_reads (s : State) : s.released.regs = s.regs ∧ s.released.cyc = s.cyc ∧ s.released.phase = s.phase ∧
    s.released.aon.cause = s.aon.cause ∧ (StepTwoDue s.released ↔ s.aon.hot = false ∧ ClocksUp s.clk) :=
  ⟨rfl, rfl, rfl, rfl, and_iff_right rfl⟩

theorem resetNRelease_of_not (h : ¬ (s.phase = .waiting ∧ s.getF Reg.RST_STAGE_STEP ≤ 1 ∧ s.aon.hot = false ∧ ClocksUp s.clk)) :
    exec .resetNRelease s = .next s.released := by
  obtain ⟨hregs, -, hphase, -, hdue⟩ := released_reads s
  have hexec : exec .resetNRelease s = .next (stepTwo s.released) := exec_resetNRelease s
  rw [hexec, stepTwo_of_not]
  rwa [hphase, getF_of_regs hregs, hdue]

/-- The start that RESET_N lets begin (R403). -/
theorem resetNRelease_reads (hp : s.phase = .waiting) (hs : s.getF Reg.RST_STAGE_STEP ≤ 1) (hh : s.aon.hot = false) (hc : ClocksUp s.clk) :
    ∃ u, exec .resetNRelease s = .next u ∧ u.getF Reg.RST_STAGE_STEP = 2 ∧ (∀ c, s.aon.cause = some c → CauseShown u c) ∧
      BitsBut (Reg.RST_STAGE_STEP :: causeFields) s u ∧ { u with regs := s.regs, cyc := s.cyc } = s.released := by
  obtain ⟨hregs, hcyc, hphase, hcause, hdue⟩ := released_reads s
  obtain ⟨hstep, hshown, hbits⟩ := stepTwo_reads (hphase.trans hp) ((getF_of_regs hregs _).trans_le hs) (hdue.mpr ⟨hh, hc⟩)
  have hframe := regsOnly_stepTwo s.released
  refine ⟨_, exec_resetNRelease s, hstep, fun c hc => hshown c (hcause.trans hc),
    bitsBut_trans (bitsBut_of_regs (bitsBut_refl _ s) hregs) hbits, ?_⟩
  exact hregs ▸ hcyc ▸ (hframe.onlyBits hbits).2

/-- A locked write of RST_FULL (R410). -/
theorem exec_firmwareReset_of_alive (ha : s.alive = true) (id : Fin 1024) (v : Word32) :
    exec (.firmwareReset id v) s = answerWrite (lockedWrite s 2 id.val fun t => firmwareReset t v) := by
  rw [exec_firmwareReset]
  exact if_pos ha

theorem resetBy_locked : ResetBy s (deviceReset (s.setReg Reg.RST_LOCK 0) cause sub) cause sub := by
  have hout : ∀ f ∈ alwaysOn, f.reg ≠ Reg.RST_LOCK := by decide
  exact (resetBy_deviceReset _ cause sub).congr (fun f hf => getF_of_reg (reg_setReg_ne s _ _ _ (hout f hf))) rfl rfl rfl rfl rfl

/-- The loss of VIN (R404, R412). -/
def vinLost (s : State) : State := vbDown { s with aon := { s.aon with vinOk := false, vinFor := 0 } }

theorem vinLost_reads (s : State) : (vinLost s).regs = s.regs ∧ (vinLost s).aon.cause = s.aon.cause ∧ (vinLost s).clk = s.clk ∧
    (vinLost s).flash = s.flash ∧ (vinLost s).fuses = s.fuses ∧ (vinLost s).pending = s.pending ∧ (vinLost s).aon.vinOk = false ∧
    (vinLost s).aon.vb = false := ⟨rfl, rfl, rfl, rfl, rfl, rfl, rfl, rfl⟩

theorem aon_deviceReset (s : State) (cause sub : Nat) : (deviceReset s cause sub).aon = resetAon s cause sub := by
  obtain ⟨-, -, -, -, haon, -⟩ := resetLeft (deviceReset_eq s cause sub)
  exact haon

theorem vinLoss_resets (h : s.resettable = true) : ∃ t, exec .vinLoss s = .next t ∧ ResetBy s t 10 0 ∧ t.aon.vinOk = false ∧ t.aon.vb = false := by
  have hexec : exec .vinLoss s = .next (deviceReset (vinLost s) 10 0) := by
    rw [exec_vinLoss]
    exact if_pos h
  obtain ⟨hregs, hcause, hclk, hflash, hfuses, hpending, hok, hvb⟩ := vinLost_reads s
  have haon := aon_deviceReset (vinLost s) 10 0
  refine ⟨_, hexec, ?_⟩
  generalize vinLost s = u at hregs hcause hclk hflash hfuses hpending hok hvb haon ⊢
  exact ⟨resetBy_of_regs hregs hcause hclk hflash hfuses hpending 10 0, (congrArg Aon.vinOk haon).trans hok, (congrArg Aon.vb haon).trans hvb⟩

theorem vinLoss_held (h : s.phase = .bistHeld ∨ s.phase = .integrity) : exec .vinLoss s = .next (vinLost s) := by
  have hres : s.resettable = false := by
    unfold State.resettable
    rcases h with h | h <;> rw [h] <;> rfl
  rw [exec_vinLoss]
  unfold execVinLoss
  dsimp only
  rw [if_neg (by simp [hres])]
  exact okIf_of_true _ _ (by rcases h with h | h <;> rw [h] <;> rfl)

theorem vinLoss_ignored (h : s.phase = .keep ∨ s.phase = .off ∨ s.phase = .unpowered) : exec .vinLoss s = .next s := by
  have hres : s.resettable = false := by
    unfold State.resettable
    rcases h with h | h | h <;> rw [h] <;> rfl
  have hheld : (s.phase == .bistHeld || s.phase == .integrity) = false := by rcases h with h | h | h <;> rw [h] <;> rfl
  rw [exec_vinLoss]
  unfold execVinLoss okIf
  dsimp only
  rw [if_neg (by simp [hres]), if_neg (by simp [hheld])]

end

/-! ### Supply warnings -/

section
variable (s : State) (vin vaux : Nat)

/-- The supplies as measured. -/
def supplyMeasured : State :=
  { s with aon := { s.aon with vmon := (vin, vaux), vinOk := vinValid s vin, vinFor := if vinValid s vin then s.aon.vinFor else 0 } }

def warned (s : State) (f : Field) (b : Bool) : State := if b then s.raiseF f else s

/-- A measurement that outside its range sets its flag (R411, R412). -/
def supplyWarned (bi ba : Bool) : State := warned (warned (vmonReport (supplyMeasured s vin vaux)) Reg.PWR_FLAG_VIN_WARN bi) Reg.PWR_FLAG_VAUX_WARN ba

def warnEvent (s : State) (b : Bool) : State := if b then s.raiseEv 223 else s

theorem exec_supplyWarning_of_powered (h : s.phase ≠ .unpowered) : exec (.supplyWarning vin vaux) s =
    .next (warnEvent (supplyWarned s vin vaux (decide (vin < 10800) || decide (13200 < vin)) (decide (vaux < 3135) || decide (3465 < vaux)))
      ((decide (vin < 10800) || decide (13200 < vin)) || (decide (vaux < 3135) || decide (3465 < vaux)))) := by
  rw [exec_supplyWarning]
  exact okIf_of_true _ _ (by simpa using h)

variable {s} in
theorem warned_reads (f : Field) (b : Bool) (hf : f.Fits) : (b = true → (warned s f b).flag f = true) ∧ (b = false → (warned s f b).flag f = s.flag f) ∧
    OnlyBits [f] s (warned s f b) ∧ (warned s f b).cyc.evs = s.cyc.evs := by
  cases b with
  | true => exact ⟨fun _ => flag_raiseF s f hf.1 hf.2, nofun, (onlyBits_refl s [f]).raiseF f (.head _) hf, raiseF_evs s f⟩
  | false => exact ⟨nofun, fun _ => rfl, onlyBits_refl s [f], rfl⟩

theorem vinValid_eq : vinValid s vin = if 10500 < vin then true else if vin < 10200 ∧ s.aon.vb = false then false else s.aon.vinOk := by
  simp [vinValid]

def supplyFields : List Field := [Reg.PWR_VMON_VIN, Reg.PWR_VMON_VAUX, Reg.PWR_FLAG_VIN_WARN, Reg.PWR_FLAG_VAUX_WARN]

theorem supplyWarned_reads (bi ba : Bool) (hvin : vin < 65536) (hvaux : vaux < 65536) : let t := supplyWarned s vin vaux bi ba
    t.getF Reg.PWR_VMON_VIN = vin ∧ t.getF Reg.PWR_VMON_VAUX = vaux ∧
      (bi = true → t.flag Reg.PWR_FLAG_VIN_WARN = true) ∧ (bi = false → t.flag Reg.PWR_FLAG_VIN_WARN = s.flag Reg.PWR_FLAG_VIN_WARN) ∧
      (ba = true → t.flag Reg.PWR_FLAG_VAUX_WARN = true) ∧ (ba = false → t.flag Reg.PWR_FLAG_VAUX_WARN = s.flag Reg.PWR_FLAG_VAUX_WARN) ∧
      BitsBut supplyFields s t ∧ { t with regs := s.regs, cyc := s.cyc } = supplyMeasured s vin vaux ∧ t.cyc.evs = s.cyc.evs := by
  have hregs : (supplyMeasured s vin vaux).regs = s.regs ∧ (supplyMeasured s vin vaux).cyc = s.cyc ∧
      (supplyMeasured s vin vaux).aon.vmon = (vin, vaux) := ⟨rfl, rfl, rfl⟩
  unfold supplyWarned
  generalize supplyMeasured s vin vaux = m at hregs ⊢
  obtain ⟨hregs, hcyc, hvmon⟩ := hregs
  have hw := wrote_setFields m [(Reg.PWR_VMON_VAUX, m.aon.vmon.2), (Reg.PWR_VMON_VIN, m.aon.vmon.1)]
  have hsep : Separate [Reg.PWR_VMON_VAUX, Reg.PWR_VMON_VIN] := .of_ok rfl
  have honly := onlyBits_vmonReport m
  have hevs : (vmonReport m).cyc.evs = m.cyc.evs := by rw [vmonReport, setF_evs, setF_evs]
  rw [← vmonReport_eq, hvmon] at hw
  have hgv : (vmonReport m).getF Reg.PWR_VMON_VIN = vin := hw.getF hsep (by simp) hvin
  have hga : (vmonReport m).getF Reg.PWR_VMON_VAUX = vaux := hw.getF hsep (by simp) hvaux
  generalize vmonReport m = v at honly hgv hga hevs ⊢
  obtain ⟨hi1, hi0, honlyi, hevi⟩ := warned_reads (s := v) Reg.PWR_FLAG_VIN_WARN bi ((Field.fits_iff _).mpr rfl)
  generalize warned v Reg.PWR_FLAG_VIN_WARN bi = x at hi1 hi0 honlyi hevi ⊢
  obtain ⟨ha1, ha0, honlya, heva⟩ := warned_reads (s := x) Reg.PWR_FLAG_VAUX_WARN ba ((Field.fits_iff _).mpr rfl)
  generalize warned x Reg.PWR_FLAG_VAUX_WARN ba = y at ha1 ha0 honlya heva ⊢
  have hall := onlyBits_trans (onlyBits_trans (honly.mono (gs := supplyFields) (by decide)) (honlyi.mono (by decide))) (honlya.mono (by decide))
  refine ⟨?_, ?_, fun h => ?_, fun h => ?_, ha1, fun h => ?_, bitsBut_trans (bitsBut_of_regs (bitsBut_refl _ s) hregs) hall.1, ?_, ?_⟩
  · exact ((getF_of_bitsBut honlya.1 (by decide)).trans (getF_of_bitsBut honlyi.1 (by decide))).trans hgv
  · exact ((getF_of_bitsBut honlya.1 (by decide)).trans (getF_of_bitsBut honlyi.1 (by decide))).trans hga
  · exact (flag_of_bitsBut honlya.1 (by decide)).trans (hi1 h)
  · exact ((flag_of_bitsBut honlya.1 (by decide)).trans (hi0 h)).trans ((flag_of_bitsBut honly.1 (by decide)).trans (flag_of_regs hregs _))
  · exact (ha0 h).trans ((flag_of_bitsBut honlyi.1 (by decide)).trans ((flag_of_bitsBut honly.1 (by decide)).trans (flag_of_regs hregs _)))
  · rw [← hregs, ← hcyc]
    exact hall.2
  · rw [heva, hevi, hevs, hcyc]

theorem warnEvent_reads (t : State) (b : Bool) : (warnEvent t b).regs = t.regs ∧ (warnEvent t b).aon = t.aon ∧
    (b = true → (warnEvent t b).raised = (t.raiseEv 223).raised) ∧ (b = false → (warnEvent t b).raised = t.raised) ∧
    { warnEvent t b with cyc := t.cyc, raised := t.raised } = t := by
  cases b with
  | true => exact ⟨rfl, rfl, fun _ => rfl, nofun, rfl⟩
  | false => exact ⟨rfl, rfl, nofun, fun _ => rfl, rfl⟩

end

end Sys2Proof.Machine

/-!
SUPPORT. The start (20_reset_startup.md R401 to R404, 23_debug_bist.md R459): steps 1 to 4 and the beginning of step 5, over the fields that each
part writes.
-/

namespace Sys2Proof.Machine

/-! ### Steps 1 and 2 -/

/-- Outside registers and events only the course of the start differs: the clocks of slots, the phase and the always-on state. -/
def StartOnly (s t : State) : Prop :=
  { t with regs := s.regs, cyc := s.cyc, raised := s.raised, aon := s.aon, clockOn := s.clockOn, refHz := s.refHz, rootM := s.rootM,
           time := s.time, phase := s.phase } = s

section
variable {s t u : State}

theorem StartOnly.eq (h : StartOnly s t) :
    t = { s with regs := t.regs, cyc := t.cyc, raised := t.raised, aon := t.aon, clockOn := t.clockOn, refHz := t.refHz, rootM := t.rootM,
                 time := t.time, phase := t.phase } :=
  (congrArg (fun x : State => { x with regs := t.regs, cyc := t.cyc, raised := t.raised, aon := t.aon, clockOn := t.clockOn, refHz := t.refHz,
                                       rootM := t.rootM, time := t.time, phase := t.phase }) h :)

theorem StartOnly.trans (h : StartOnly s t) (h2 : StartOnly t u) : StartOnly s u := by
  rw [h2.eq, h.eq]
  rfl

theorem StartOnly.of_onlyBits {fs : List Field} (h : OnlyBits fs s t) : StartOnly s t := by
  rw [h.eq]
  rfl

theorem StartOnly.of_aonOnly {fs : List Field} (h : AonOnly fs s t) : StartOnly s t := by
  rw [h.eq]
  rfl

theorem StartOnly.of_regsOnly (h : RegsOnly s t) : StartOnly s t := by
  rw [h.eq]
  rfl

/-- What a start leaves as it stands. -/
theorem StartOnly.reads (h : StartOnly s t) : t.fuses = s.fuses ∧ t.flash = s.flash ∧ t.spares = s.spares ∧ t.clk = s.clk := by
  rw [h.eq]
  exact ⟨rfl, rfl, rfl, rfl⟩

end

section
variable (s : State) (raws : List Byte)

/-- The strap codes of the samples, and the registers that show them (R401). -/
def strapCodes : List Nat := raws.map fun r => strapCode r.toNat

def strapShows : List (Field × Nat) :=
  [(Reg.RST_STRAP_UNSTABLE, ((strapCodes raws).any (· != strapMode (strapCodes raws))).toNat),
   (Reg.RST_STRAP_RAW, (raws.map (·.toNat)).getLastD 0), (Reg.RST_STRAP_CODE, strapMode (strapCodes raws))]

theorem measureStrap_eq : measureStrap s raws = s.setFields (strapShows raws) := rfl

def strapFields : List Field := [Reg.RST_STRAP_UNSTABLE, Reg.RST_STRAP_RAW, Reg.RST_STRAP_CODE]

theorem separate_strapShows : Separate ((strapShows raws).map Prod.fst) := .of_ok rfl

theorem strapMode_lt (codes : List Nat) : strapMode codes < 16 := by
  have hall : ∀ l : List Nat, (∀ c ∈ l, c < 16) → ∀ b < 16, l.foldl (fun best c => if codes.count best < codes.count c then c else best) b < 16 := by
    intro l
    induction l with
    | nil => exact fun _ b hb => hb
    | cons c l ih =>
      intro hl b hb
      rw [List.foldl_cons]
      refine ih (fun d hd => hl d (List.mem_cons_of_mem c hd)) _ ?_
      split
      · exact hl c List.mem_cons_self
      · exact hb
  exact hall _ (fun c hc => List.mem_range.mp hc) 0 (by decide)

theorem measureStrap_reads : (measureStrap s raws).getF Reg.RST_STRAP_CODE = strapMode (strapCodes raws) ∧
    (measureStrap s raws).flag Reg.RST_STRAP_UNSTABLE = (strapCodes raws).any (· != strapMode (strapCodes raws)) ∧
    OnlyBits strapFields s (measureStrap s raws) := by
  have hw := wrote_setFields s (strapShows raws)
  have hsep := separate_strapShows raws
  rw [measureStrap_eq]
  exact ⟨hw.getF hsep (by simp [strapShows]) (strapMode_lt _), hw.flag hsep (by simp [strapShows]), onlyBits_setFields s hsep⟩

/-- The root shown as it starts (R386). -/
def rootShown : State :=
  ((s.raiseF Reg.CLK_STAT_LOCK).setF Reg.CLK_STAT_SRC_NOW (if s.flag Reg.CLK_FLAG_XO_FAIL then 2 else 0)).setF Reg.CLK_STAT_M_NOW 150

def rootFields : List Field := [Reg.CLK_STAT_M_NOW, Reg.CLK_STAT_SRC_NOW, Reg.CLK_STAT_LOCK]

/-- The clocks of a started device beside the registers. -/
def rootRuns (t : State) : State :=
  { t with clockOn := true, refHz := 50000000, rootM := 150, time := { t.time with tickSlots := 48 },
           aon := { t.aon with vb := true, rails := setpoints t } }

theorem bootRoot_eq : bootRoot s = rootRuns (rootShown s) := rfl

theorem rootRuns_reads (t : State) : (rootRuns t).regs = t.regs ∧ (rootRuns t).clockOn = true ∧ (rootRuns t).rootM = 150 ∧
    (rootRuns t).aon.ticks = t.aon.ticks ∧ StartOnly t (rootRuns t) := ⟨rfl, rfl, rfl, rfl, rfl⟩

theorem separate_rootFields : Separate rootFields := .of_ok rfl

theorem rootShown_reads : Wrote [(Reg.CLK_STAT_M_NOW, 150), (Reg.CLK_STAT_SRC_NOW, if s.flag Reg.CLK_FLAG_XO_FAIL then 2 else 0), (Reg.CLK_STAT_LOCK, 1)]
    s (rootShown s) ∧ OnlyBits rootFields s (rootShown s) :=
  ⟨(((Wrote.refl s).raiseF _).setF _ _).setF _ _,
    (((onlyBits_refl s rootFields).raiseF _ (by simp [rootFields]) ((Field.fits_iff _).mpr rfl)).setF _ _ (by simp [rootFields])
      ((Field.fits_iff _).mpr rfl)).setF _ _ (by simp [rootFields]) ((Field.fits_iff _).mpr rfl)⟩

/-- The root runs on XO, or on RCO where XO has failed, with M = 150 (R386). -/
theorem bootRoot_reads : (bootRoot s).getF Reg.CLK_STAT_M_NOW = 150 ∧
    (bootRoot s).getF Reg.CLK_STAT_SRC_NOW = (if s.flag Reg.CLK_FLAG_XO_FAIL then 2 else 0) ∧ (bootRoot s).flag Reg.CLK_STAT_LOCK = true ∧
    (bootRoot s).clockOn = true ∧ (bootRoot s).rootM = 150 ∧ (bootRoot s).aon.ticks = s.aon.ticks ∧
    BitsBut rootFields s (bootRoot s) ∧ StartOnly s (bootRoot s) := by
  have hsep := separate_rootFields
  obtain ⟨hw, honly⟩ := rootShown_reads s
  rw [bootRoot_eq]
  generalize rootShown s = u at hw honly ⊢
  have hticks : u.aon.ticks = s.aon.ticks := honly.keeps (fun t => t.aon.ticks) fun _ _ _ => rfl
  obtain ⟨hr, hclock, hm, ht, hruns⟩ := rootRuns_reads u
  refine ⟨(getF_of_regs hr _).trans (hw.getF hsep (.head _) (by decide)), ?_, (flag_of_regs hr _).trans (hw.flag (b := true) hsep (by simp)),
    hclock, hm, ht.trans hticks, bitsBut_of_regs honly.1 hr, (StartOnly.of_onlyBits honly).trans hruns⟩
  refine (getF_of_regs hr _).trans (hw.getF hsep (.tail _ (.head _)) ?_)
  split <;> decide

/-! ### The fuses, the root key and the generator -/

/-- What step 2 shows of the vault (R296, R297, R303). -/
def vaultRead (rootOk rngOk : Bool) : State :=
  (((s.setF Reg.VLT_STAT_OKEY_STATE (okeyStateOf s.fuses)).putF Reg.VLT_STAT_ROOT_OK rootOk).putF Reg.VLT_STAT_RNG_OK rngOk)

def rngShown (rngOk : Bool) : State := if rngOk then s else (s.raiseF Reg.VLT_STAT_RNGFAIL).raiseEv 202

def rootTold (rootOk : Bool) : State := if rootOk then s else s.raiseEv 200

def vaultFields : List Field := [Reg.VLT_STAT_RNG_OK, Reg.VLT_STAT_ROOT_OK, Reg.VLT_STAT_OKEY_STATE]

theorem separate_vaultFields : Separate vaultFields := .of_ok rfl

variable (rootOk rngOk : Bool)

theorem vaultRead_reads : (vaultRead s rootOk rngOk).getF Reg.VLT_STAT_OKEY_STATE = okeyStateOf s.fuses % 4 ∧
    (vaultRead s rootOk rngOk).flag Reg.VLT_STAT_ROOT_OK = rootOk ∧ (vaultRead s rootOk rngOk).flag Reg.VLT_STAT_RNG_OK = rngOk ∧
    BitsBut vaultFields s (vaultRead s rootOk rngOk) ∧ RegsOnly s (vaultRead s rootOk rngOk) := by
  have hw : Wrote [(Reg.VLT_STAT_RNG_OK, rngOk.toNat), (Reg.VLT_STAT_ROOT_OK, rootOk.toNat), (Reg.VLT_STAT_OKEY_STATE, okeyStateOf s.fuses)]
    s (vaultRead s rootOk rngOk) := (((Wrote.refl s).setF _ _).putF _ _).putF _ _
  have hsep := separate_vaultFields
  exact ⟨hw.getF_mod hsep (by simp), hw.flag hsep (by simp), hw.flag hsep (by simp), hw.bitsBut hsep, (((RegsOnly.refl s).setF _ _).setF _ _).setF _ _⟩

theorem rngShown_reads : (rngOk = false → (rngShown s rngOk).flag Reg.VLT_STAT_RNGFAIL = true) ∧ BitsBut [Reg.VLT_STAT_RNGFAIL] s (rngShown s rngOk) ∧
    RegsEvOnly s (rngShown s rngOk) := by
  cases rngOk with
  | true => exact ⟨nofun, bitsBut_refl _ s, rfl⟩
  | false =>
    obtain ⟨hbits, hframe⟩ : BitsBut [Reg.VLT_STAT_RNGFAIL] s (rngShown s false) ∧ RegsEvOnly s (rngShown s false) :=
      ⟨bitsBut_of_regs (bitsBut_raiseF (bitsBut_refl _ s) _ (.head _) (by decide) (by decide)) rfl,
        (RegsEvOnly.raiseF (s := s) (t := s) rfl _).raiseEv _⟩
    exact ⟨fun _ => (flag_of_regs (s := s.raiseF Reg.VLT_STAT_RNGFAIL) rfl _).trans (flag_raiseF s _ (by decide) (by decide)), hbits, hframe⟩

theorem rootTold_reads : (rootTold s rootOk).regs = s.regs ∧ RegsEvOnly s (rootTold s rootOk) := by
  cases rootOk <;> exact ⟨rfl, rfl⟩

end

/-! ### Step 2 -/

section
variable (s : State) (rootOk rngOk : Bool)

/-- The rails and the root of a start. -/
def startRoot : State := bootRoot (clkReport (causeWrite (s.setF Reg.RST_STAGE_STEP 2)))

/-- The phase of a start, which has taken its cause. -/
def startPhase (t : State) (at_ : Nat) : State := { t with phase := .start, aon := { t.aon with cause := none, startAt := at_, alarm := false } }

/-- The vault of a start. -/
def startVault (t : State) : State := rngShown (vaultRead t rootOk rngOk) rngOk

def startFloor (t : State) (floor : Nat) : State := setAlarm (rootTold (t.setF Reg.CFG_FLOOR_FLOOR (floorOf floor)) rootOk)

theorem okeyStateOf_startPhase (t : State) (a : Nat) : (startPhase t a).fuses = t.fuses := rfl

theorem startStep2_eq (hf : (startRoot s).fuses = s.fuses) : startStep2 s rootOk rngOk =
    startFloor rootOk (startVault rootOk rngOk (startPhase (startRoot s) s.aon.ticks)) s.fuses.floor := by
  unfold startFloor startVault vaultRead
  rw [okeyStateOf_startPhase, hf]
  rfl

def startFields : List Field :=
  Reg.RST_STAGE_STEP :: Reg.CFG_FLOOR_FLOOR :: Reg.RST_ALARM_PIN :: Reg.VLT_STAT_RNGFAIL :: (causeFields ++ clockFields ++ rootFields ++ vaultFields)

/-- The cause shown, the clocks and the root (R386, R399). -/
theorem startRoot_reads : let t := startRoot s
    t.getF Reg.CLK_STAT_M_NOW = 150 ∧ t.getF Reg.CLK_STAT_SRC_NOW = (if s.flag Reg.CLK_FLAG_XO_FAIL then 2 else 0) ∧
      t.flag Reg.CLK_STAT_LOCK = true ∧ t.clockOn = true ∧ t.rootM = 150 ∧ t.aon.ticks = s.aon.ticks ∧
      (∀ c, s.aon.cause = some c → CauseShown t c) ∧ (s.aon.cause = none → t.reg Reg.RST_CAUSE = s.reg Reg.RST_CAUSE) ∧
      BitsBut startFields s t ∧ StartOnly s t := by
  have hset : BitsBut [Reg.RST_STAGE_STEP] s (s.setF Reg.RST_STAGE_STEP 2) :=
    bitsBut_setF (bitsBut_refl _ s) _ _ (.head _) (by decide) (by decide)
  have honly : RegsOnly s (s.setF Reg.RST_STAGE_STEP 2) := (RegsOnly.refl s).setF _ _
  unfold startRoot
  generalize s.setF Reg.RST_STAGE_STEP 2 = x at hset honly ⊢
  have haon : x.aon = s.aon := honly.keeps State.aon fun _ _ => rfl
  have hcause := bitsBut_causeWrite (s := x)
  have honlyc := honly.trans (regsOnly_causeWrite x)
  have hshown (c : Nat × Nat) (hc : s.aon.cause = some c) : CauseShown (causeWrite x) c := causeShown_causeWrite (haon ▸ hc)
  have hnone (hc : s.aon.cause = none) : (causeWrite x).reg Reg.RST_CAUSE = s.reg Reg.RST_CAUSE := by
    rw [causeWrite_of_none (haon ▸ hc)]
    exact reg_of_bitsBut hset (by decide)
  generalize causeWrite x = y at hcause honlyc hshown hnone ⊢
  have hclk := onlyBits_clkReport y
  generalize clkReport y = z at hclk ⊢
  obtain ⟨hm, hsrc, hlock, hclock, hroot, hticks, hbits, hstart⟩ := bootRoot_reads z
  generalize bootRoot z = t at hm hsrc hlock hclock hroot hticks hbits hstart ⊢
  have hfail : z.flag Reg.CLK_FLAG_XO_FAIL = s.flag Reg.CLK_FLAG_XO_FAIL :=
    ((flag_of_bitsBut hclk.1 (by decide)).trans (flag_of_bitsBut hcause (by decide))).trans (flag_of_bitsBut hset (by decide))
  have hreg : t.reg Reg.RST_CAUSE = y.reg Reg.RST_CAUSE := (reg_of_bitsBut hbits (by decide)).trans (reg_of_bitsBut hclk.1 (by decide))
  have hzticks : z.aon.ticks = s.aon.ticks := (hclk.keeps (fun t => t.aon.ticks) fun _ _ _ => rfl).trans (honlyc.keeps (fun t => t.aon.ticks) fun _ _ => rfl)
  rw [hfail] at hsrc
  refine ⟨hm, hsrc, hlock, hclock, hroot, hticks.trans hzticks, fun c hc => ?_, fun hc => hreg.trans (hnone hc), ?_, ?_⟩
  · obtain ⟨hcc, hsub, hcur⟩ := hshown c hc
    exact ⟨(getF_of_reg hreg).trans hcc, (getF_of_reg hreg).trans hsub, (flag_of_reg hreg).trans hcur⟩
  · have hsx := bitsBut_mono (gs := startFields) hset (by decide)
    have hxy := bitsBut_mono (gs := startFields) hcause (by decide)
    have hyz := bitsBut_mono (gs := startFields) hclk.1 (by decide)
    exact bitsBut_trans (bitsBut_trans (bitsBut_trans hsx hxy) hyz) (bitsBut_mono hbits (by decide))
  · exact ((StartOnly.of_regsOnly honlyc).trans (.of_onlyBits hclk)).trans hstart

theorem startPhase_reads (t : State) (a : Nat) : (startPhase t a).regs = t.regs ∧ (startPhase t a).phase = .start ∧ (startPhase t a).aon.cause = none ∧
    (startPhase t a).aon.ticks = t.aon.ticks ∧ (startPhase t a).clockOn = t.clockOn ∧ (startPhase t a).rootM = t.rootM ∧ StartOnly t (startPhase t a) :=
  ⟨rfl, rfl, rfl, rfl, rfl, rfl, rfl⟩

variable {s} in
theorem RegsEvOnly.reads {t : State} (h : RegsEvOnly s t) : t.phase = s.phase ∧ t.aon = s.aon ∧ t.clockOn = s.clockOn ∧ t.rootM = s.rootM ∧
    t.fuses = s.fuses ∧ StartOnly s t := by
  rw [h.eq]
  exact ⟨rfl, rfl, rfl, rfl, rfl, rfl⟩

variable {s} in
theorem RegsEvOnly.trans {t u : State} (h : RegsEvOnly s t) (h2 : RegsEvOnly t u) : RegsEvOnly s u := by
  rw [h2.eq, h.eq]
  rfl

variable {s} in
theorem RegsEvOnly.of_regsOnly {t : State} (h : RegsOnly s t) : RegsEvOnly s t := by
  rw [h.eq]
  rfl

theorem startVault_reads : let t := startVault rootOk rngOk s
    t.getF Reg.VLT_STAT_OKEY_STATE = okeyStateOf s.fuses % 4 ∧ t.flag Reg.VLT_STAT_ROOT_OK = rootOk ∧ t.flag Reg.VLT_STAT_RNG_OK = rngOk ∧
      (rngOk = false → t.flag Reg.VLT_STAT_RNGFAIL = true) ∧ BitsBut (Reg.VLT_STAT_RNGFAIL :: vaultFields) s t ∧ RegsEvOnly s t := by
  obtain ⟨hokey, hroot, hrng, hbits, honly⟩ := vaultRead_reads s rootOk rngOk
  unfold startVault
  generalize vaultRead s rootOk rngOk = u at hokey hroot hrng hbits honly ⊢
  obtain ⟨hfail, hbits2, hev⟩ := rngShown_reads u rngOk
  refine ⟨(getF_of_bitsBut hbits2 (by decide)).trans hokey, (flag_of_bitsBut hbits2 (by decide)).trans hroot,
    (flag_of_bitsBut hbits2 (by decide)).trans hrng, hfail, ?_, (RegsEvOnly.of_regsOnly honly).trans hev⟩
  exact bitsBut_trans (bitsBut_mono hbits fun f hf => .tail _ hf) (bitsBut_mono hbits2 (by simp))

theorem startFloor_reads (floor : Nat) : (startFloor rootOk s floor).getF Reg.CFG_FLOOR_FLOOR = floorOf floor % 256 ∧
    BitsBut [Reg.CFG_FLOOR_FLOOR, Reg.RST_ALARM_PIN] s (startFloor rootOk s floor) ∧ RegsEvOnly s (startFloor rootOk s floor) := by
  have hset : (s.setF Reg.CFG_FLOOR_FLOOR (floorOf floor)).getF Reg.CFG_FLOOR_FLOOR = floorOf floor % 256 := getF_setF_self _ _ _ (by decide) (by decide)
  have hbits : BitsBut [Reg.CFG_FLOOR_FLOOR] s (s.setF Reg.CFG_FLOOR_FLOOR (floorOf floor)) :=
    bitsBut_setF (bitsBut_refl _ s) _ _ (.head _) (by decide) (by decide)
  have honly : RegsOnly s (s.setF Reg.CFG_FLOOR_FLOOR (floorOf floor)) := (RegsOnly.refl s).setF _ _
  unfold startFloor
  generalize s.setF Reg.CFG_FLOOR_FLOOR (floorOf floor) = u at hset hbits honly ⊢
  obtain ⟨hregs, hev⟩ := rootTold_reads u rootOk
  generalize rootTold u rootOk = x at hregs hev ⊢
  have halarm : BitsBut [Reg.RST_ALARM_PIN] x (setAlarm x) := bitsBut_putF (bitsBut_refl _ x) _ _ (.head _) (by decide) (by decide)
  have honlya : RegsOnly x (setAlarm x) := (RegsOnly.refl x).setF _ _
  refine ⟨((getF_of_bitsBut halarm (by decide)).trans (getF_of_regs hregs _)).trans hset, ?_,
    ((RegsEvOnly.of_regsOnly honly).trans hev).trans (.of_regsOnly honlya)⟩
  exact bitsBut_trans (bitsBut_of_regs (bitsBut_mono hbits (by simp)) hregs) (bitsBut_mono halarm (by simp))

/-- Step 2 of a start (R296, R297, R303, R345, R386, R399). -/
theorem startStep2_reads : let t := startStep2 s rootOk rngOk
    t.phase = .start ∧ t.clockOn = true ∧ t.rootM = 150 ∧ t.aon.cause = none ∧ t.aon.ticks = s.aon.ticks ∧
      (∀ c, s.aon.cause = some c → CauseShown t c) ∧ (s.aon.cause = none → t.reg Reg.RST_CAUSE = s.reg Reg.RST_CAUSE) ∧
      t.getF Reg.CLK_STAT_M_NOW = 150 ∧ t.getF Reg.CLK_STAT_SRC_NOW = (if s.flag Reg.CLK_FLAG_XO_FAIL then 2 else 0) ∧
      t.flag Reg.CLK_STAT_LOCK = true ∧ t.flag Reg.VLT_STAT_ROOT_OK = rootOk ∧ t.flag Reg.VLT_STAT_RNG_OK = rngOk ∧
      (rngOk = false → t.flag Reg.VLT_STAT_RNGFAIL = true) ∧ t.getF Reg.VLT_STAT_OKEY_STATE = okeyStateOf s.fuses % 4 ∧
      t.getF Reg.CFG_FLOOR_FLOOR = floorOf s.fuses.floor % 256 ∧ BitsBut startFields s t ∧ StartOnly s t := by
  obtain ⟨hm, hsrc, hlock, hclock, hroot, hticks, hshown, hnone, hbits, honly⟩ := startRoot_reads s
  obtain ⟨hfuses, -⟩ := honly.reads
  rw [startStep2_eq s rootOk rngOk hfuses]
  generalize startRoot s = r at hm hsrc hlock hclock hroot hticks hshown hnone hbits honly hfuses ⊢
  obtain ⟨hpregs, hphase, hpcause, hpticks, hpclock, hproot, hponly⟩ := startPhase_reads r s.aon.ticks
  have hpfuses := okeyStateOf_startPhase r s.aon.ticks
  generalize startPhase r s.aon.ticks = p at hpregs hphase hpcause hpticks hpclock hproot hponly hpfuses ⊢
  obtain ⟨hokey, hrootok, hrng, hfail, hvbits, hvev⟩ := startVault_reads p rootOk rngOk
  obtain ⟨hvphase, hvaon, hvclock, hvroot, -, hvonly⟩ := hvev.reads
  generalize startVault rootOk rngOk p = v at hokey hrootok hrng hfail hvbits hvphase hvaon hvclock hvroot hvonly ⊢
  obtain ⟨hfloor, hfbits, hfev⟩ := startFloor_reads v rootOk s.fuses.floor
  obtain ⟨hfphase, hfaon, hfclock, hfroot, -, hfonly⟩ := hfev.reads
  generalize startFloor rootOk v s.fuses.floor = t at hfloor hfbits hfphase hfaon hfclock hfroot hfonly ⊢
  have hpt : BitsBut (Reg.CFG_FLOOR_FLOOR :: Reg.RST_ALARM_PIN :: Reg.VLT_STAT_RNGFAIL :: vaultFields) r t :=
    bitsBut_trans (bitsBut_mono (bitsBut_trans (bitsBut_of_regs (bitsBut_refl _ r) hpregs) hvbits) fun f hf => .tail _ (.tail _ hf))
      (bitsBut_mono hfbits (by simp))
  have hreg : t.reg Reg.RST_CAUSE = r.reg Reg.RST_CAUSE := reg_of_bitsBut hpt (by decide)
  refine ⟨hfphase.trans (hvphase.trans hphase), (hfclock.trans hvclock).trans (hpclock.trans hclock), (hfroot.trans hvroot).trans (hproot.trans hroot),
    ?_, ?_, fun c hc => ?_, fun hc => hreg.trans (hnone hc), (getF_of_bitsBut hpt (by decide)).trans hm, (getF_of_bitsBut hpt (by decide)).trans hsrc,
    (flag_of_bitsBut hpt (by decide)).trans hlock, (flag_of_bitsBut hfbits (by decide)).trans hrootok, (flag_of_bitsBut hfbits (by decide)).trans hrng,
    fun h => (flag_of_bitsBut hfbits (by decide)).trans (hfail h), ?_, hfloor, ?_, ((honly.trans hponly).trans hvonly).trans hfonly⟩
  · rw [hfaon, hvaon, hpcause]
  · rw [hfaon, hvaon, hpticks, hticks]
  · obtain ⟨hcc, hsub, hcur⟩ := hshown c hc
    exact ⟨(getF_of_reg hreg).trans hcc, (getF_of_reg hreg).trans hsub, (flag_of_reg hreg).trans hcur⟩
  · rw [getF_of_bitsBut hfbits (by decide), hokey, hpfuses, hfuses]
  · exact bitsBut_trans hbits (bitsBut_mono hpt (by decide))

end

end Sys2Proof.Machine

/-!
SUPPORT. The end of the start, block resets and connect-under-reset (20_reset_startup.md R404 to R406, 23_debug_bist.md R452, R459), and the
statement on resets and starts.
-/

namespace Sys2Proof.Machine

/-! ### Steps 1 to 3 -/

section
variable (s : State) (dt : Nat) (raws : List Byte) (rootOk rngOk : Bool)

/-- A start up to the test of step 3. -/
def startTested : State := (startStep2 (aonPass (measureStrap s raws) dt) rootOk rngOk).setF Reg.RST_STAGE_STEP 3

/-- What every start shows of its strap and of the time (R401), and keeps. -/
def StartCommon (t : State) : Prop :=
  t.getF Reg.RST_STRAP_CODE = strapMode (strapCodes raws) ∧
    t.flag Reg.RST_STRAP_UNSTABLE = (strapCodes raws).any (· != strapMode (strapCodes raws)) ∧
    t.aon.ticks = s.aon.ticks + dt ∧ t.fuses = s.fuses ∧ t.flash = s.flash

/-- What step 2 shows of the root and of the vault. -/
def StartShown (t : State) : Prop :=
  (∀ c, s.aon.cause = some c → CauseShown t c) ∧ (s.aon.cause = none → t.reg Reg.RST_CAUSE = s.reg Reg.RST_CAUSE) ∧
    t.getF Reg.CLK_STAT_M_NOW = 150 ∧ t.rootM = 150 ∧ t.getF Reg.CLK_STAT_SRC_NOW = (if s.flag Reg.CLK_FLAG_XO_FAIL then 2 else 0) ∧
    t.flag Reg.CLK_STAT_LOCK = true ∧ t.flag Reg.VLT_STAT_ROOT_OK = rootOk ∧ t.flag Reg.VLT_STAT_RNG_OK = rngOk ∧
    (rngOk = false → t.flag Reg.VLT_STAT_RNGFAIL = true) ∧
    t.getF Reg.VLT_STAT_OKEY_STATE = okeyStateOf s.fuses % 4 ∧ t.getF Reg.CFG_FLOOR_FLOOR = floorOf s.fuses.floor % 256

theorem startTested_reads (hp : s.phase ≠ .unpowered) : let t := startTested s dt raws rootOk rngOk
    StartCommon s dt raws t ∧ StartShown s rootOk rngOk t ∧ t.phase = .start ∧ t.clockOn = true ∧ t.aon.cause = none ∧
      t.spares = s.spares ∧ t.getF Reg.CFG_STAT_STATE = s.getF Reg.CFG_STAT_STATE := by
  obtain ⟨hcode, hunst, honlym⟩ := measureStrap_reads s raws
  have hphase : (measureStrap s raws).phase = s.phase := honlym.keeps State.phase fun _ _ _ => rfl
  have hmaon : (measureStrap s raws).aon = s.aon := honlym.keeps State.aon fun _ _ _ => rfl
  unfold startTested
  generalize measureStrap s raws = m at hcode hunst honlym hphase hmaon ⊢
  have hticks := ticks_aonPass m dt (hphase ▸ hp)
  have hcause := aonPass_keeps_aon m dt Aon.cause fun _ _ _ _ _ => rfl
  have honlya := aonOnly_aonPass m dt
  generalize aonPass m dt = a at hticks hcause honlya ⊢
  have ham : StartOnly s a := (StartOnly.of_onlyBits honlym).trans (.of_aonOnly honlya)
  obtain ⟨hafuses, -⟩ := ham.reads
  rw [hmaon] at hticks hcause
  obtain ⟨hsphase, hclock, hrootm, hnocause, hsticks, hshown, hnone, hmnow, hsrc, hlock, hroot, hrng, hfail, hokey, hfloor, hbits, honly⟩ :=
    startStep2_reads a rootOk rngOk
  generalize startStep2 a rootOk rngOk = u at hsphase hclock hrootm hnocause hsticks hshown hnone hmnow hsrc hlock hroot hrng hfail hokey hfloor hbits honly ⊢
  have hset : BitsBut [Reg.RST_STAGE_STEP] u (u.setF Reg.RST_STAGE_STEP 3) := bitsBut_setF (bitsBut_refl _ u) _ _ (.head _) (by decide) (by decide)
  have hregs : RegsOnly u (u.setF Reg.RST_STAGE_STEP 3) := (RegsOnly.refl u).setF _ _
  generalize u.setF Reg.RST_STAGE_STEP 3 = t at hset hregs ⊢
  have hmt : BitsBut (tickFields ++ startFields) m t :=
    bitsBut_trans (bitsBut_trans (bitsBut_mono honlya.1 fun f hf => List.mem_append_left _ hf) (bitsBut_mono hbits fun f hf => List.mem_append_right _ hf))
      (bitsBut_mono hset (by decide))
  have hct : t.reg Reg.RST_CAUSE = u.reg Reg.RST_CAUSE := reg_of_bitsBut hset (by decide)
  have hcs : a.reg Reg.RST_CAUSE = s.reg Reg.RST_CAUSE := (reg_of_bitsBut honlya.1 (by decide)).trans (reg_of_bitsBut honlym.1 (by decide))
  have hxo : a.flag Reg.CLK_FLAG_XO_FAIL = s.flag Reg.CLK_FLAG_XO_FAIL := (flag_of_bitsBut honlya.1 (by decide)).trans (flag_of_bitsBut honlym.1 (by decide))
  obtain ⟨hfuses, hflash, hspares, -⟩ := (ham.trans (honly.trans (.of_regsOnly hregs))).reads
  have htaon : t.aon = u.aon := hregs.keeps State.aon fun _ _ => rfl
  rw [hxo] at hsrc
  rw [hafuses] at hokey hfloor
  rw [hcause] at hshown hnone
  refine ⟨⟨(getF_of_bitsBut hmt (by decide)).trans hcode, (flag_of_bitsBut hmt (by decide)).trans hunst, ?_, hfuses, hflash⟩,
    ⟨fun c hc => ?_, fun hc => hct.trans ((hnone hc).trans hcs), (getF_of_bitsBut hset (by decide)).trans hmnow,
      (hregs.keeps State.rootM fun _ _ => rfl).trans hrootm, (getF_of_bitsBut hset (by decide)).trans hsrc, (flag_of_bitsBut hset (by decide)).trans hlock,
      (flag_of_bitsBut hset (by decide)).trans hroot, (flag_of_bitsBut hset (by decide)).trans hrng,
      fun h => (flag_of_bitsBut hset (by decide)).trans (hfail h), (getF_of_bitsBut hset (by decide)).trans hokey,
      (getF_of_bitsBut hset (by decide)).trans hfloor⟩,
    (hregs.keeps State.phase fun _ _ => rfl).trans hsphase, (hregs.keeps State.clockOn fun _ _ => rfl).trans hclock, ?_, hspares, ?_⟩
  · rw [htaon, hsticks, hticks]
  · obtain ⟨hcc, hsub, hcur⟩ := hshown c hc
    exact ⟨(getF_of_reg hct).trans hcc, (getF_of_reg hct).trans hsub, (flag_of_reg hct).trans hcur⟩
  · rw [htaon, hnocause]
  · exact (getF_of_bitsBut hmt (by decide)).trans (getF_of_bitsBut honlym.1 (by decide))

theorem exec_deviceStart_of_not (pin : Option Nat) (bad : List (Nat × Nat × Nat)) (fill : Option (Option (Fin 16))) (h : startReady s dt = false) :
    exec (.deviceStart dt raws rootOk rngOk pin bad fill () () ()) s = .next s := by
  rw [exec_deviceStart]
  exact if_neg (Bool.eq_false_iff.mp h)

theorem exec_deviceStart_of_none {pin : Option Nat} {bad : List (Nat × Nat × Nat)} {fill : Option (Option (Fin 16))} (h : startReady s dt = true)
    (hf : startFailure pin bad fill = none) : exec (.deviceStart dt raws rootOk rngOk pin bad fill () () ()) s =
      .next (startStep5 ((postRepair (startTested s dt raws rootOk rngOk) bad).setF Reg.RST_STAGE_STEP 4)) := by
  rw [exec_deviceStart]
  unfold execDeviceStart
  rw [if_pos h, hf]
  rfl

theorem exec_deviceStart_of_some {pin : Option Nat} {bad : List (Nat × Nat × Nat)} {fill : Option (Option (Fin 16))} {sub path index : Nat}
    (h : startReady s dt = true) (hf : startFailure pin bad fill = some (sub, path, index)) :
    exec (.deviceStart dt raws rootOk rngOk pin bad fill () () ()) s = .next (bistFailed (startTested s dt raws rootOk rngOk) sub path index) := by
  rw [exec_deviceStart]
  unfold execDeviceStart
  rw [if_pos h, hf]
  rfl

variable {s} in
theorem waiting_of_startReady (h : startReady s dt = true) : s.phase ≠ .unpowered := by
  unfold startReady at h
  simp only [Bool.and_eq_true, beq_iff_eq] at h
  obtain ⟨⟨⟨⟨⟨⟨hp, -⟩, -⟩, -⟩, -⟩, -⟩, -⟩ := h
  rw [hp]
  decide

end

/-! ### The repair and step 5 -/

section
variable (s : State) (bad : List (Nat × Nat × Nat))

/-- The spares that a group takes. -/
def groupSpares (g : Nat × Nat) : Nat := (groupMoves bad g).foldl (fun m e => spareSet m e.2 e.1) 0

theorem spares_postMove (g : Nat × Nat) : (postMove bad s g).spares = tset (fun _ => 0) s.spares (groupKey g) (groupSpares bad g) := rfl

/-- The map after the repair of a list of groups, at a group that shares its key with no other. -/
theorem spares_repaired {g : Nat × Nat} (l : List (Nat × Nat)) (h : ∀ g' ∈ l, groupKey g' = groupKey g → g' = g) :
    tget (fun _ => 0) (l.foldl (postMove bad) s).spares (groupKey g) =
      if g ∈ l then groupSpares bad g else tget (fun _ => 0) s.spares (groupKey g) := by
  induction l generalizing s with
  | nil => rfl
  | cons a l ih =>
    rw [List.foldl_cons, ih (postMove bad s a) fun g' hg' => h g' (.tail _ hg'), spares_postMove]
    by_cases ha : a = g
    · subst ha
      simp [tget_tset_self]
    · rw [tget_tset_ne _ _ _ _ _ fun hk => ha (h a (.head _) hk.symm)]
      simp [Ne.symm ha]

theorem frame_repaired (l : List (Nat × Nat)) : { l.foldl (postMove bad) s with spares := s.spares } = s := by
  induction l generalizing s with
  | nil => rfl
  | cons a l ih =>
    rw [List.foldl_cons]
    exact (congrArg (fun x : State => { x with spares := s.spares }) (ih (postMove bad s a)) :)

def postFields : List Field := [Reg.BIST_POST_LINKS_REP, Reg.BIST_POST_GROUPS_REP]

theorem separate_postFields : Separate postFields := .of_ok rfl

/-- The groups that use a spare, and the links moved (R459). -/
def groupsMoved : Nat := ((badGroups bad).filter fun g => !(groupMoves bad g).isEmpty).length

def linksMoved : Nat := ((badGroups bad).map fun g => (groupMoves bad g).length).sum

theorem postRepair_eq : postRepair s bad =
    (((badGroups bad).foldl (postMove bad) s).setF Reg.BIST_POST_GROUPS_REP (groupsMoved bad)).setF Reg.BIST_POST_LINKS_REP (linksMoved bad) := by
  unfold postRepair groupsMoved linksMoved
  simp only [List.filter_map, List.length_map, List.map_map]
  rfl

/-- What a repair changes: the map, and BIST_POST. -/
theorem postRepair_reads : let t := postRepair s bad
    t.getF Reg.BIST_POST_GROUPS_REP = groupsMoved bad % 65536 ∧ t.getF Reg.BIST_POST_LINKS_REP = linksMoved bad % 65536 ∧
      t.spares = ((badGroups bad).foldl (postMove bad) s).spares ∧ BitsBut postFields s t ∧ { t with regs := s.regs, spares := s.spares } = s := by
  have hframe := frame_repaired s bad (badGroups bad)
  rw [postRepair_eq]
  generalize (badGroups bad).foldl (postMove bad) s = u at hframe ⊢
  have hregs : u.regs = s.regs := (congrArg State.regs hframe :)
  have hw : Wrote [(Reg.BIST_POST_LINKS_REP, linksMoved bad), (Reg.BIST_POST_GROUPS_REP, groupsMoved bad)] u
    ((u.setF Reg.BIST_POST_GROUPS_REP (groupsMoved bad)).setF Reg.BIST_POST_LINKS_REP (linksMoved bad)) := ((Wrote.refl u).setF _ _).setF _ _
  have hsep := separate_postFields
  have honly := ((RegsOnly.refl u).setF Reg.BIST_POST_GROUPS_REP (groupsMoved bad)).setF Reg.BIST_POST_LINKS_REP (linksMoved bad)
  generalize (u.setF Reg.BIST_POST_GROUPS_REP (groupsMoved bad)).setF Reg.BIST_POST_LINKS_REP (linksMoved bad) = t at hw honly ⊢
  refine ⟨hw.getF_mod hsep (by simp), hw.getF_mod hsep (by simp), honly.keeps State.spares fun _ _ => rfl,
    bitsBut_trans (bitsBut_of_regs (bitsBut_refl _ s) hregs) (hw.bitsBut hsep), ?_⟩
  rw [honly.eq]
  exact (congrArg (fun x : State => { x with regs := s.regs }) hframe :)

/-- Step 5: the loader checks the copies where the strap says so, and waits for the port otherwise (R328, R330). -/
theorem startStep5_reads : let t := startStep5 s
    t.getF Reg.RST_STAGE_STEP = 5 ∧ ((s.getF Reg.RST_STRAP_CODE).testBit 3 = true → t.getF Reg.CFG_STAT_STATE = s.getF Reg.CFG_STAT_STATE) ∧
      ((s.getF Reg.RST_STRAP_CODE).testBit 3 = false → t.getF Reg.CFG_STAT_STATE = 2) ∧
      BitsBut [Reg.CFG_STAT_STATE, Reg.RST_STAGE_STEP] s t ∧ RegsOnly s t := by
  have hset : (s.setF Reg.RST_STAGE_STEP 5).getF Reg.RST_STAGE_STEP = 5 := getF_setF_self _ _ _ (by decide) (by decide)
  have hbits : BitsBut [Reg.RST_STAGE_STEP] s (s.setF Reg.RST_STAGE_STEP 5) := bitsBut_setF (bitsBut_refl _ s) _ _ (.head _) (by decide) (by decide)
  have honly : RegsOnly s (s.setF Reg.RST_STAGE_STEP 5) := (RegsOnly.refl s).setF _ _
  unfold startStep5
  generalize s.setF Reg.RST_STAGE_STEP 5 = u at hset hbits honly ⊢
  cases hb : (s.getF Reg.RST_STRAP_CODE).testBit 3 with
  | true =>
    rw [if_pos rfl]
    exact ⟨hset, fun _ => getF_of_bitsBut hbits (by decide), nofun, bitsBut_mono hbits (by simp), honly⟩
  | false =>
    rw [if_neg Bool.false_ne_true]
    have hstate : BitsBut [Reg.CFG_STAT_STATE] u (u.setF Reg.CFG_STAT_STATE 2) :=
      bitsBut_setF (bitsBut_refl _ u) _ _ (.head _) (by decide) (by decide)
    exact ⟨(getF_of_bitsBut hstate (by decide)).trans hset, nofun, fun _ => getF_setF_self _ _ _ (by decide) (by decide),
      bitsBut_trans (bitsBut_mono hbits (by simp)) (bitsBut_mono hstate (by simp)), honly.setF _ _⟩

end

section
variable {s : State} (raws : List Byte) (rootOk rngOk : Bool) (bad : List (Nat × Nat × Nat))

/-- A start that goes through to step 5 (R403, R459). -/
theorem started_reads {dt : Nat} (h : startReady s dt = true) :
    let t := startStep5 ((postRepair (startTested s dt raws rootOk rngOk) bad).setF Reg.RST_STAGE_STEP 4)
    StartCommon s dt raws t ∧ StartShown s rootOk rngOk t ∧ t.phase = .start ∧ t.clockOn = true ∧ t.getF Reg.RST_STAGE_STEP = 5 ∧ t.aon.cause = none ∧
      ((strapMode (strapCodes raws)).testBit 3 = true → t.getF Reg.CFG_STAT_STATE = s.getF Reg.CFG_STAT_STATE) ∧
      ((strapMode (strapCodes raws)).testBit 3 = false → t.getF Reg.CFG_STAT_STATE = 2) ∧
      t.getF Reg.BIST_POST_GROUPS_REP = groupsMoved bad % 65536 ∧ t.getF Reg.BIST_POST_LINKS_REP = linksMoved bad % 65536 ∧
      (∀ g ∈ badGroups bad, (∀ g' ∈ badGroups bad, groupKey g' = groupKey g → g' = g) →
        tget (fun _ => 0) t.spares (groupKey g) = groupSpares bad g) := by
  obtain ⟨hcommon, hshown, hphase, hclock, hcause, -, hstate⟩ := startTested_reads s dt raws rootOk rngOk (waiting_of_startReady dt h)
  generalize startTested s dt raws rootOk rngOk = u at hcommon hshown hphase hclock hcause hstate ⊢
  obtain ⟨hgroups, hlinks, hspares, hpbits, hpframe⟩ := postRepair_reads u bad
  have hmap {g : Nat × Nat} (hg : g ∈ badGroups bad) (hk : ∀ g' ∈ badGroups bad, groupKey g' = groupKey g → g' = g) :=
    (spares_repaired u bad (badGroups bad) hk).trans (if_pos hg)
  generalize postRepair u bad = p at hgroups hlinks hspares hpbits hpframe ⊢
  have h4bits : BitsBut [Reg.RST_STAGE_STEP] p (p.setF Reg.RST_STAGE_STEP 4) := bitsBut_setF (bitsBut_refl _ p) _ _ (.head _) (by decide) (by decide)
  have h4only : RegsOnly p (p.setF Reg.RST_STAGE_STEP 4) := (RegsOnly.refl p).setF _ _
  generalize p.setF Reg.RST_STAGE_STEP 4 = q at h4bits h4only ⊢
  obtain ⟨hstep, hcopies, hport, h5bits, h5only⟩ := startStep5_reads q
  generalize startStep5 q = t at hstep hcopies hport h5bits h5only ⊢
  have honly := h4only.trans h5only
  have hpt : BitsBut [Reg.CFG_STAT_STATE, Reg.RST_STAGE_STEP] p t := bitsBut_trans (bitsBut_mono h4bits (by simp)) h5bits
  have hut : BitsBut (Reg.CFG_STAT_STATE :: Reg.RST_STAGE_STEP :: postFields) u t :=
    bitsBut_trans (bitsBut_mono hpbits fun f hf => .tail _ (.tail _ hf)) (bitsBut_mono hpt (by simp))
  have huq : BitsBut (Reg.RST_STAGE_STEP :: postFields) u q :=
    bitsBut_trans (bitsBut_mono hpbits fun f hf => .tail _ hf) (bitsBut_mono h4bits (by simp))
  have hframe : { t with regs := u.regs, spares := u.spares } = u := by
    rw [honly.eq]
    exact hpframe
  have haon : t.aon = u.aon := (congrArg State.aon hframe :)
  have hct : t.reg Reg.RST_CAUSE = u.reg Reg.RST_CAUSE := reg_of_bitsBut hut (by decide)
  obtain ⟨hcode, hunst, hticks, hfuses, hflash⟩ := hcommon
  obtain ⟨hsome, hnone, hm, hrootm, hsrc, hlock, hroot, hrng, hfail, hokey, hfloor⟩ := hshown
  have hqcode : q.getF Reg.RST_STRAP_CODE = strapMode (strapCodes raws) := (getF_of_bitsBut huq (by decide)).trans hcode
  rw [hqcode] at hcopies hport
  refine ⟨⟨(getF_of_bitsBut hut (by decide)).trans hcode, (flag_of_bitsBut hut (by decide)).trans hunst, (congrArg Aon.ticks haon).trans hticks,
      (congrArg State.fuses hframe :).trans hfuses, (congrArg State.flash hframe :).trans hflash⟩,
    ⟨fun c hc => ?_, fun hc => hct.trans (hnone hc), (getF_of_bitsBut hut (by decide)).trans hm, (congrArg State.rootM hframe :).trans hrootm,
      (getF_of_bitsBut hut (by decide)).trans hsrc, (flag_of_bitsBut hut (by decide)).trans hlock, (flag_of_bitsBut hut (by decide)).trans hroot,
      (flag_of_bitsBut hut (by decide)).trans hrng, fun hr => (flag_of_bitsBut hut (by decide)).trans (hfail hr),
      (getF_of_bitsBut hut (by decide)).trans hokey, (getF_of_bitsBut hut (by decide)).trans hfloor⟩,
    (congrArg State.phase hframe :).trans hphase, (congrArg State.clockOn hframe :).trans hclock, hstep, (congrArg Aon.cause haon).trans hcause,
    fun hb => (hcopies hb).trans ((getF_of_bitsBut huq (by decide)).trans hstate), hport,
    (getF_of_bitsBut hpt (by decide)).trans hgroups, (getF_of_bitsBut hpt (by decide)).trans hlinks, fun g hg hk => ?_⟩
  · obtain ⟨hcc, hsub, hcur⟩ := hsome c hc
    exact ⟨(getF_of_reg hct).trans hcc, (getF_of_reg hct).trans hsub, (flag_of_reg hct).trans hcur⟩
  · rw [(honly.keeps State.spares fun _ _ => rfl : t.spares = p.spares), hspares]
    exact hmap hg hk

end

/-! ### A failure of the test -/

section
variable (s : State) (sub path index : Nat)

/-- The device held, and the registers that say why. -/
def bistHeldState : State :=
  { s with phase := .bistHeld, clockOn := false, aon := { s.aon with cause := some (9, sub), bistAt := (path, index) } }

def heldShown (t : State) : State := ((t.setF Reg.RST_CAUSE_CAUSE 9).setF Reg.RST_CAUSE_SUB sub).setF Reg.RST_STAGE_STEP 15

/-- The channel whose memory cannot be filled (R292). -/
def fillFailed (t : State) : State :=
  if sub = 3 ∧ path = 7 then (t.raiseF (Reg.MEMC_STAT_FILLFAIL (index % 16))).raiseEv (180 + index % 16) else t

theorem bistFailed_eq : bistFailed s sub path index = setAlarm (fillFailed sub path index (heldShown sub (bistHeldState s sub path index))) := rfl

theorem bistHeldState_reads : let t := bistHeldState s sub path index
    t.regs = s.regs ∧ t.phase = .bistHeld ∧ t.clockOn = false ∧ t.aon.bistAt = (path, index) ∧ t.aon.ticks = s.aon.ticks ∧ t.fuses = s.fuses ∧
      t.flash = s.flash := ⟨rfl, rfl, rfl, rfl, rfl, rfl, rfl⟩

def bistFields : List Field := [Reg.RST_STAGE_STEP, Reg.RST_CAUSE_SUB, Reg.RST_CAUSE_CAUSE]

theorem separate_bistFields : Separate bistFields := .of_ok rfl

theorem fillFailed_reads (t : State) : let u := fillFailed sub path index t
    (∀ g : Field, g.reg < 0x100000 → u.reg g.reg = t.reg g.reg) ∧
      (sub = 3 → path = 7 → index < 16 → u.flag (Reg.MEMC_STAT_FILLFAIL index) = true) ∧ RegsEvOnly t u := by
  have hhigh : ∀ c, 0x100000 ≤ (Reg.MEMC_STAT_FILLFAIL c).reg := fun c => by simp only [Reg.MEMC_STAT_FILLFAIL, Reg.MEMC_STAT]; omega
  unfold fillFailed
  split
  · refine ⟨fun g hg => ?_, fun _ _ hi => ?_, (RegsEvOnly.raiseF (s := t) (t := t) rfl _).raiseEv _⟩
    · have hne : g.reg ≠ (Reg.MEMC_STAT_FILLFAIL (index % 16)).reg := (hg.trans_le (hhigh _)).ne
      exact (reg_of_regs rfl _).trans ((reg_raiseF t _ _).trans (reg_setF_ne t _ 1 _ hne))
    · rw [Nat.mod_eq_of_lt hi]
      exact (flag_of_regs (s := t.raiseF (Reg.MEMC_STAT_FILLFAIL index)) rfl _).trans
        (flag_raiseF t _ (by simp [Reg.MEMC_STAT_FILLFAIL]) (by simp [Reg.MEMC_STAT_FILLFAIL]))
  · next h => exact ⟨fun _ _ => rfl, fun h3 h7 _ => absurd ⟨h3, h7⟩ h, rfl⟩

/-- A device that its test holds (R404). -/
theorem bistFailed_reads (hsub : sub < 16) : let t := bistFailed s sub path index
    t.phase = .bistHeld ∧ t.clockOn = false ∧ t.getF Reg.RST_STAGE_STEP = 15 ∧ t.getF Reg.RST_CAUSE_CAUSE = 9 ∧ t.getF Reg.RST_CAUSE_SUB = sub ∧
      t.flag Reg.RST_ALARM_PIN = true ∧ t.aon.bistAt = (path, index) ∧ t.aon.ticks = s.aon.ticks ∧ t.fuses = s.fuses ∧ t.flash = s.flash ∧
      t.reg Reg.RST_STRAP = s.reg Reg.RST_STRAP ∧ (sub = 3 → path = 7 → index < 16 → t.flag (Reg.MEMC_STAT_FILLFAIL index) = true) := by
  obtain ⟨hregs, hphase, hclock, hat, hticks, hfuses, hflash⟩ := bistHeldState_reads s sub path index
  rw [bistFailed_eq]
  generalize bistHeldState s sub path index = b at hregs hphase hclock hat hticks hfuses hflash ⊢
  have hw : Wrote [(Reg.RST_STAGE_STEP, 15), (Reg.RST_CAUSE_SUB, sub), (Reg.RST_CAUSE_CAUSE, 9)] b (heldShown sub b) :=
    (((Wrote.refl b).setF _ _).setF _ _).setF _ _
  have hsep := separate_bistFields
  have hstep : (heldShown sub b).getF Reg.RST_STAGE_STEP = 15 := hw.getF hsep (by simp) (by decide)
  have hcs : (heldShown sub b).getF Reg.RST_CAUSE_SUB = sub := hw.getF hsep (by simp) hsub
  have hcc : (heldShown sub b).getF Reg.RST_CAUSE_CAUSE = 9 := hw.getF hsep (by simp) (by decide)
  have hstrap : (heldShown sub b).reg Reg.RST_STRAP = s.reg Reg.RST_STRAP :=
    (reg_of_bitsBut (show BitsBut bistFields b _ from hw.bitsBut hsep) (by decide)).trans (reg_of_regs hregs _)
  have honlyh : RegsEvOnly b (heldShown sub b) := .of_regsOnly ((((RegsOnly.refl b).setF _ _).setF _ _).setF _ _)
  generalize heldShown sub b = x at hstep hcs hcc hstrap honlyh ⊢
  obtain ⟨hlow, hfill, honlyf⟩ := fillFailed_reads sub path index x
  have honly := honlyh.trans honlyf
  generalize fillFailed sub path index x = y at hlow hfill honly ⊢
  have halarm : BitsBut [Reg.RST_ALARM_PIN] y (setAlarm y) := bitsBut_putF (bitsBut_refl _ y) _ _ (.head _) (by decide) (by decide)
  have honlya : RegsEvOnly y (setAlarm y) := .of_regsOnly ((RegsOnly.refl y).setF _ _)
  obtain ⟨hyphase, -⟩ := honly.reads
  have hpin : (setAlarm y).flag Reg.RST_ALARM_PIN = true := by
    refine (flag_putF y Reg.RST_ALARM_PIN (alarmDue y) (by decide) (by decide)).trans ?_
    simp [alarmDue, hyphase, hphase]
  generalize setAlarm y = t at halarm honlya hpin ⊢
  obtain ⟨htphase, htaon, htclock, -, htfuses, htonly⟩ := (honly.trans honlya).reads
  obtain ⟨-, htflash, -, -⟩ := htonly.reads
  have hread (g : Field) (hg : g.reg < 0x100000) (ha : Reg.RST_ALARM_PIN.reg ≠ g.reg) : t.reg g.reg = x.reg g.reg :=
    (reg_of_bitsBut halarm (by simpa using ha)).trans (hlow g hg)
  have hfillpin (c : Nat) (hc : c < 16) : t.flag (Reg.MEMC_STAT_FILLFAIL c) = y.flag (Reg.MEMC_STAT_FILLFAIL c) :=
    flag_of_reg (reg_of_bitsBut halarm (by simp [Reg.MEMC_STAT_FILLFAIL, Reg.MEMC_STAT, Reg.RST_ALARM_PIN, Reg.RST_ALARM]; omega))
  refine ⟨htphase.trans hphase, htclock.trans hclock, (getF_of_reg (hread _ (by decide) (by decide))).trans hstep,
    (getF_of_reg (hread _ (by decide) (by decide))).trans hcc, (getF_of_reg (hread _ (by decide) (by decide))).trans hcs, hpin,
    (congrArg Aon.bistAt htaon).trans hat, (congrArg Aon.ticks htaon).trans hticks, htfuses.trans hfuses, htflash.trans hflash,
    (hread Reg.RST_STRAP_CODE (by decide) (by decide)).trans hstrap, fun h3 h7 hi => (hfillpin index hi).trans (hfill h3 h7 hi)⟩

/-- The device held with cause BIST (R404). -/
def StartHeld (s : State) (dt : Nat) (raws : List Byte) (sub path index : Nat) (t : State) : Prop :=
  StartCommon s dt raws t ∧ t.phase = .bistHeld ∧ t.clockOn = false ∧ t.getF Reg.RST_STAGE_STEP = 15 ∧ t.getF Reg.RST_CAUSE_CAUSE = 9 ∧
    t.getF Reg.RST_CAUSE_SUB = sub ∧ t.flag Reg.RST_ALARM_PIN = true ∧ t.aon.bistAt = (path, index)

variable {s sub path index} in
/-- A start whose test fails. -/
theorem failed_reads {dt : Nat} {raws : List Byte} {rootOk rngOk : Bool} {pin : Option Nat} {bad : List (Nat × Nat × Nat)}
    {fill : Option (Option (Fin 16))} (h : startReady s dt = true) (hf : startFailure pin bad fill = some (sub, path, index)) (hsub : sub < 16) :
    ∃ t, exec (.deviceStart dt raws rootOk rngOk pin bad fill () () ()) s = .next t ∧ StartHeld s dt raws sub path index t ∧
      (sub = 3 → path = 7 → index < 16 → t.flag (Reg.MEMC_STAT_FILLFAIL index) = true) := by
  obtain ⟨⟨hcode, hunst, hticks, hfuses, hflash⟩, -⟩ := startTested_reads s dt raws rootOk rngOk (waiting_of_startReady dt h)
  obtain ⟨hphase, hclock, hstep, hcause, hcsub, hpin, hat, hbticks, hbfuses, hbflash, hstrap, hfill⟩ :=
    bistFailed_reads (startTested s dt raws rootOk rngOk) sub path index hsub
  exact ⟨_, exec_deviceStart_of_some s dt raws rootOk rngOk h hf, ⟨⟨(getF_of_reg hstrap).trans hcode, (flag_of_reg hstrap).trans hunst,
    hbticks.trans hticks, hbfuses.trans hfuses, hbflash.trans hflash⟩, hphase, hclock, hstep, hcause, hcsub, hpin, hat⟩, hfill⟩

end

end Sys2Proof.Machine

/-!
SUPPORT. Block resets and connect-under-reset (20_reset_startup.md R406, 23_debug_bist.md R452), and the statement on resets and starts.
-/

namespace Sys2Proof.Machine

/-! ### Block resets -/

section
variable (s : State) (sec : Nat)

theorem napIdle_sector (v : Nat) : napIdle (s.setF Reg.RST_BLK_SECTOR v) sec = napIdle s sec := by
  have hregs : RegsOnly s (s.setF Reg.RST_BLK_SECTOR v) := (RegsOnly.refl s).setF _ _
  have hfence : (s.setF Reg.RST_BLK_SECTOR v).flag (Reg.SEC_NAP_CTRL_FENCE sec) = s.flag (Reg.SEC_NAP_CTRL_FENCE sec) :=
    flag_of_reg (reg_setF_ne _ _ _ _ (by
      show (0x500000 + 0x1000 * sec + 0x700 : Nat) ≠ 0x20020
      omega))
  generalize s.setF Reg.RST_BLK_SECTOR v = u at hregs hfence ⊢
  unfold napIdle
  rw [hfence, hregs.keeps State.fencing fun _ _ => rfl, hregs.keeps (fun x => outCount x sec false) fun _ _ => rfl,
    hregs.keeps (fun x => tlrOut x sec) fun _ _ => rfl, hregs.keeps (fun x => x.nap sec) fun _ _ => rfl]

/-- The refusal of a block reset (R406). -/
def blockRefused (why : Nat) : State :=
  (((s.raiseF Reg.RST_BSTAT_REFUSED).setF Reg.RST_BSTAT_REF_WHY why).setF Reg.RST_BSTAT_LAST sec).raiseEv 212

theorem blockReset_of_outside (h : 240 ≤ sec) : blockReset s sec = blockRefused s sec 3 := if_pos h

theorem blockReset_of_busy (h : sec < 240) (hb : s.blk ≠ none) : blockReset s sec = blockRefused s sec 2 := by
  unfold blockReset blockRefused
  rw [if_neg (by omega), if_pos (Option.isSome_iff_ne_none.mpr hb)]

theorem blockReset_of_active (h : sec < 240) (hb : s.blk = none) (hq : ¬ (s.napFenced sec = true ∧ napIdle s sec = true)) :
    blockReset s sec = blockRefused s sec 1 := by
  unfold blockReset blockRefused
  rw [if_neg (by omega), if_neg (by simp [hb]), if_pos]
  rw [← Bool.and_eq_true] at hq
  simp [hq]

theorem blockReset_of_quiet (h : sec < 240) (hb : s.blk = none) (hf : s.napFenced sec = true) (hi : napIdle s sec = true) :
    blockReset s sec = { s.raiseF Reg.RST_BLK_BUSY with blk := some (sec, 65) } := by
  unfold blockReset
  rw [if_neg (by omega), if_neg (by simp [hb]), if_neg (by simp [hf, hi])]

def refusedFields : List Field := [Reg.RST_BLK_SECTOR, Reg.RST_BSTAT_REFUSED, Reg.RST_BSTAT_REF_WHY, Reg.RST_BSTAT_LAST]

theorem blockRefused_reads (why : Nat) (hs : sec < 256) (hw : why < 4) : let t := blockRefused (s.setF Reg.RST_BLK_SECTOR sec) sec why
    t.flag Reg.RST_BSTAT_REFUSED = true ∧ t.getF Reg.RST_BSTAT_REF_WHY = why ∧ t.getF Reg.RST_BSTAT_LAST = sec ∧ OnlyBitsEv refusedFields 212 s t := by
  have hsep : Separate [Reg.RST_BSTAT_LAST, Reg.RST_BSTAT_REF_WHY, Reg.RST_BSTAT_REFUSED, Reg.RST_BLK_SECTOR] := .of_ok rfl
  have hfit {f : Field} (hf : (decide (f.lo ≤ f.hi) && decide (f.hi < 32)) = true) : f.Fits := (Field.fits_iff f).mpr hf
  have hwrote := ((((Wrote.refl s).setF Reg.RST_BLK_SECTOR sec).raiseF Reg.RST_BSTAT_REFUSED).setF Reg.RST_BSTAT_REF_WHY why).setF Reg.RST_BSTAT_LAST sec
  have honly := ((((onlyBits_refl s refusedFields).setF Reg.RST_BLK_SECTOR sec (by simp [refusedFields]) (hfit rfl)).raiseF Reg.RST_BSTAT_REFUSED
    (by simp [refusedFields]) (hfit rfl)).setF Reg.RST_BSTAT_REF_WHY why (by simp [refusedFields]) (hfit rfl)).setF Reg.RST_BSTAT_LAST sec
    (by simp [refusedFields]) (hfit rfl)
  have hevs : ((((s.setF Reg.RST_BLK_SECTOR sec).raiseF Reg.RST_BSTAT_REFUSED).setF Reg.RST_BSTAT_REF_WHY why).setF Reg.RST_BSTAT_LAST sec).cyc.evs =
    s.cyc.evs := by simp
  unfold blockRefused
  generalize (((s.setF Reg.RST_BLK_SECTOR sec).raiseF Reg.RST_BSTAT_REFUSED).setF Reg.RST_BSTAT_REF_WHY why).setF Reg.RST_BSTAT_LAST sec = u
    at hwrote honly hevs ⊢
  have hev := hwrote.raiseEv 212
  exact ⟨hev.flag (b := true) hsep (by simp), hev.getF hsep (by simp) hw, hev.getF hsep (by simp) hs, honly.raiseEv 212 hevs⟩

theorem exec_blockReset_of_alive {s : State} (ha : s.alive = true) (sec : Fin 256) :
    exec (.blockReset sec) s = .next (blockReset (s.setF Reg.RST_BLK_SECTOR sec.val) sec.val) := by
  rw [exec_blockReset]
  exact if_pos ha

/-- A block reset asked for. -/
def blockAsked : State := { (s.setF Reg.RST_BLK_SECTOR sec).raiseF Reg.RST_BLK_BUSY with blk := some (sec, 65) }

theorem blockAsked_reads (hs : sec < 256) : (blockAsked s sec).flag Reg.RST_BLK_BUSY = true ∧ (blockAsked s sec).blk = some (sec, 65) ∧
    (blockAsked s sec).getF Reg.RST_BLK_SECTOR = sec ∧ BitsBut [Reg.RST_BLK_SECTOR, Reg.RST_BLK_BUSY] s (blockAsked s sec) ∧
    { blockAsked s sec with regs := s.regs, cyc := s.cyc, blk := s.blk } = s := by
  have hsep : Separate [Reg.RST_BLK_BUSY, Reg.RST_BLK_SECTOR] := .of_ok rfl
  have hw : Wrote [(Reg.RST_BLK_BUSY, 1), (Reg.RST_BLK_SECTOR, sec)] s (blockAsked s sec) := (((Wrote.refl s).setF _ _).raiseF _).of_regs rfl
  exact ⟨hw.flag (b := true) hsep (by simp), rfl, hw.getF hsep (by simp) hs, bitsBut_mono (hw.bitsBut hsep) (by simp), rfl⟩

/-- The block is free again. -/
def blockFreed : State := { s.clearF Reg.RST_BLK_BUSY with blk := none }

/-- The end of a block reset (R406). -/
def blockEnded : State := (((blockFreed s).raiseF Reg.RST_BSTAT_DONE).setF Reg.RST_BSTAT_LAST sec).raiseEv 212

theorem exec_blockResetEnd_of_due {s : State} {sec : Nat} (h : s.blk = some (sec, 0)) : exec .blockResetEnd s = .next (blockEnded s sec) := by
  rw [exec_blockResetEnd]
  unfold execBlockResetEnd
  rw [h]
  rfl

theorem blockFreed_reads : Wrote [(Reg.RST_BLK_BUSY, 0)] s (blockFreed s) ∧ (blockFreed s).cyc = s.cyc ∧ (blockFreed s).raised = s.raised ∧
    (blockFreed s).clockOn = s.clockOn ∧ (blockFreed s).dbgHalt = s.dbgHalt ∧ (blockFreed s).blk = none ∧
    { blockFreed s with regs := s.regs, blk := s.blk } = s :=
  ⟨((Wrote.refl s).setF _ 0).of_regs rfl, rfl, rfl, rfl, rfl, rfl, rfl⟩

theorem blockEnded_reads : let t := blockEnded s sec
    t.blk = none ∧ t.flag Reg.RST_BLK_BUSY = false ∧ t.flag Reg.RST_BSTAT_DONE = true ∧ t.getF Reg.RST_BSTAT_LAST = sec % 256 ∧
      t.raised = (s.raiseEv 212).raised ∧ BitsBut [Reg.RST_BLK_BUSY, Reg.RST_BSTAT_DONE, Reg.RST_BSTAT_LAST] s t ∧
      { t with regs := s.regs, cyc := s.cyc, raised := s.raised, blk := s.blk } = s := by
  have hsep : Separate [Reg.RST_BSTAT_LAST, Reg.RST_BSTAT_DONE, Reg.RST_BLK_BUSY] := .of_ok rfl
  obtain ⟨hclear, hcyc, hraised, hclock, hhalt, hblk, hframe⟩ := blockFreed_reads s
  unfold blockEnded
  generalize blockFreed s = u at hclear hcyc hraised hclock hhalt hblk hframe ⊢
  have hw := ((hclear.raiseF Reg.RST_BSTAT_DONE).setF Reg.RST_BSTAT_LAST sec).raiseEv 212
  refine ⟨hblk, hw.flag (b := false) hsep (by simp), hw.flag (b := true) hsep (by simp), hw.getF_mod hsep (by simp), ?_,
    bitsBut_mono (hw.bitsBut hsep) (by simp), ?_⟩
  · refine raiseEv_raised_congr 212 hraised ?_ hclock hhalt
    rw [setF_evs, raiseF_evs, hcyc]
  · exact (congrArg (fun x : State => { x with cyc := s.cyc, raised := s.raised }) hframe :)

end

/-! ### Connect-under-reset -/

section
variable (v : Word32)

/-- GO of one core: a core that is held goes on at DBG_PCi (R452). -/
def curReleased (acc : State) (i : Nat) : State :=
  if v.getLsbD i && (acc.core i).held then
    let pc := (acc.reg (Reg.DBG_PC_LO i)).toNat + 2 ^ 32 * (acc.reg (Reg.DBG_PC_HI i)).toNat
    (acc.setCore i { acc.core i with held := false, pc := pc }).clearF ⟨Reg.DBG_STAT, i, i⟩
  else acc

theorem curWrite_eq (s : State) (hv : v.getLsbD 31 = false) : curWrite s v = (List.range 4).foldl (curReleased v) s := by
  unfold curWrite
  exact if_neg (Bool.eq_false_iff.mp hv)

/-- A core where GO has reached it. -/
def goneOn (s : State) (i : Nat) : Core :=
  { s.core i with held := false, pc := (s.reg (Reg.DBG_PC_LO i)).toNat + 2 ^ 32 * (s.reg (Reg.DBG_PC_HI i)).toNat }

variable {v} in
theorem curReleased_of_held {s : State} {i : Nat} (h : v.getLsbD i = true ∧ (s.core i).held = true) :
    curReleased v s i = (s.setCore i (goneOn s i)).clearF ⟨Reg.DBG_STAT, i, i⟩ := if_pos (by simp [h])

variable {v} in
theorem curReleased_of_not {s : State} {i : Nat} (h : ¬ (v.getLsbD i = true ∧ (s.core i).held = true)) : curReleased v s i = s :=
  if_neg fun hc => h (by simpa using hc)

theorem curReleased_reads (s : State) {i : Nat} (hi : i < 4) : let t := curReleased v s i
    (t.core i = if v.getLsbD i = true ∧ (s.core i).held = true then goneOn s i else s.core i) ∧
      (t.reg Reg.DBG_STAT).getLsbD i = ((s.reg Reg.DBG_STAT).getLsbD i && !(v.getLsbD i && (s.core i).held)) ∧
      (∀ j, j ≠ i → t.core j = s.core j) ∧ BitsBut [⟨Reg.DBG_STAT, i, i⟩] s t ∧ { t with regs := s.regs, cores := s.cores } = s := by
  by_cases h : v.getLsbD i = true ∧ (s.core i).held = true
  · rw [curReleased_of_held h, if_pos h]
    have hbit := flag_clearF (s.setCore i (goneOn s i)) ⟨Reg.DBG_STAT, i, i⟩ (le_refl i) (by omega : i < 32)
    rw [flag_eq_getLsbD _ rfl] at hbit
    have hset : BitsBut [⟨Reg.DBG_STAT, i, i⟩] s (s.setCore i (goneOn s i)) := bitsBut_of_regs (bitsBut_refl _ s) rfl
    refine ⟨tget_tset_self _ _ _ _, hbit.trans (by simp [h]), fun j hj => tget_tset_ne _ _ _ _ _ hj, ?_, rfl⟩
    exact bitsBut_setF hset _ 0 (.head _) (le_refl i) (by omega : i < 32)
  · rw [curReleased_of_not h, if_neg h]
    have hb : (v.getLsbD i && (s.core i).held) = false := by simpa using h
    exact ⟨rfl, by simp [hb], fun _ _ => rfl, bitsBut_refl _ s, rfl⟩

theorem foldl_curReleased_reads (l : List Nat) (hl : ∀ i ∈ l, i < 4) (hnd : l.Nodup) (s : State) : let t := l.foldl (curReleased v) s
    (∀ i, t.core i = if i ∈ l ∧ v.getLsbD i = true ∧ (s.core i).held = true then goneOn s i else s.core i) ∧
      (∀ i ∈ l, (t.reg Reg.DBG_STAT).getLsbD i = ((s.reg Reg.DBG_STAT).getLsbD i && !(v.getLsbD i && (s.core i).held))) ∧
      BitsBut (l.map fun i => ⟨Reg.DBG_STAT, i, i⟩) s t ∧ { t with regs := s.regs, cores := s.cores } = s := by
  induction l generalizing s with
  | nil => exact ⟨fun i => by simp, by simp, bitsBut_refl _ s, rfl⟩
  | cons a l ih =>
    obtain ⟨ha, hnd⟩ := List.nodup_cons.mp hnd
    obtain ⟨hself, hbit, hother, hbits, hframe⟩ := curReleased_reads v s (hl a (.head _))
    rw [List.foldl_cons]
    generalize curReleased v s a = u at hself hbit hother hbits hframe ⊢
    obtain ⟨hcore, hstat, hrest, hkeep⟩ := ih (fun i hi => hl i (.tail _ hi)) hnd u
    generalize l.foldl (curReleased v) u = t at hcore hstat hrest hkeep ⊢
    have hpc (i : Nat) (o : Nat) (ho : o = Reg.DBG_PC_LO i ∨ o = Reg.DBG_PC_HI i) : u.reg o = s.reg o := by
      refine reg_of_bitsBut hbits ?_
      simp only [List.mem_singleton, forall_eq]
      rcases ho with rfl | rfl
      · show (0xA0000 : Nat) ≠ 0xA0010 + 8 * i
        omega
      · show (0xA0000 : Nat) ≠ 0xA0014 + 8 * i
        omega
    have hgone (i : Nat) (hi : i ≠ a) : goneOn u i = goneOn s i := by
      rw [goneOn, goneOn, hother i hi, hpc i _ (.inl rfl), hpc i _ (.inr rfl)]
    refine ⟨fun i => ?_, fun i hi => ?_, ?_, ?_⟩
    · rw [hcore i]
      by_cases hi : i = a
      · subst hi
        rw [if_neg fun hc => ha hc.1, hself]
        simp
      · rw [hother i hi, hgone i hi]
        simp [hi]
    · by_cases hia : i = a
      · subst hia
        rw [← hbit]
        refine hrest _ _ fun f hf hreg => ?_
        obtain ⟨j, hj, rfl⟩ := List.mem_map.mp hf
        have hne : j ≠ i := fun hji => ha (hji ▸ hj)
        show i < j ∨ j < i
        omega
      · rw [hstat i ((List.mem_cons.mp hi).resolve_left hia), hother i hia]
        have hold := hbits Reg.DBG_STAT i (by simp only [List.mem_singleton, forall_eq]; omega)
        rw [hold]
    · exact bitsBut_trans (bitsBut_mono hbits (by simp)) (bitsBut_mono hrest fun f hf => .tail _ hf)
    · have h2 := congrArg (fun x : State => { x with regs := s.regs, cores := s.cores }) hkeep
      exact (h2 :).trans hframe

end

section
variable {s : State} (ha : s.alive = true)
include ha

theorem coreRelease_reads (mask : Fin 16) : ∃ t, exec (.coreRelease mask) s = .next t ∧ t.ld = s.ld ∧
    (∀ i, i < 4 → t.core i = if mask.val.testBit i ∧ (s.core i).held = true then goneOn s i else s.core i) ∧
    (∀ i, i < 4 → (t.reg Reg.DBG_STAT).getLsbD i = ((s.reg Reg.DBG_STAT).getLsbD i && !(mask.val.testBit i && (s.core i).held))) ∧
    BitsBut [Reg.DBG_STAT_HELD] s t ∧ { t with regs := s.regs, cyc := s.cyc, cores := s.cores } = s := by
  have hmask (i : Nat) (hi : i < 32) : (BitVec.ofNat 32 mask.val).getLsbD i = mask.val.testBit i := by
    rw [BitVec.getLsbD_ofNat, decide_eq_true hi, Bool.true_and]
  have h31 : (BitVec.ofNat 32 mask.val).getLsbD 31 = false := by
    rw [hmask 31 (by omega)]
    exact Nat.testBit_lt_two_pow (mask.isLt.trans (by decide))
  have hexec : exec (.coreRelease mask) s = .next ((List.range 4).foldl (curReleased (BitVec.ofNat 32 mask.val)) s) := by
    rw [exec_coreRelease, ← curWrite_eq _ _ h31]
    exact if_pos ha
  obtain ⟨hcore, hstat, hbits, hframe⟩ := foldl_curReleased_reads (BitVec.ofNat 32 mask.val) (List.range 4) (by simp) List.nodup_range s
  refine ⟨_, hexec, ?_⟩
  generalize (List.range 4).foldl (curReleased (BitVec.ofNat 32 mask.val)) s = t at hcore hstat hbits hframe ⊢
  have hcyc : t.cyc = s.cyc := (congrArg State.cyc hframe :)
  refine ⟨(congrArg State.ld hframe :), fun i hi => ?_, fun i hi => ?_, ?_, ?_⟩
  · rw [hcore i, hmask i (by omega)]
    simp [hi]
  · rw [hstat i (List.mem_range.mpr hi), hmask i (by omega)]
  · refine bitsBut_cover hbits fun f hf => ⟨_, .head _, ?_⟩
    obtain ⟨i, hi, rfl⟩ := List.mem_map.mp hf
    exact ⟨rfl, Nat.zero_le _, by have := List.mem_range.mp hi; show i ≤ 3; omega⟩
  · exact (congrArg (fun x : State => { x with cyc := s.cyc }) hframe :)

theorem doneOk_reads : exec .doneOk s = .next { s with ld := { s.ld with doneCur := false } } := by
  have hnone : (List.range 4).foldl (curReleased 0x80000000#32) s = s := by
    have hstep (i : Nat) (hi : i ∈ List.range 4) (u : State) : curReleased 0x80000000#32 u i = u := by
      have hbit : ∀ i ∈ List.range 4, (0x80000000#32).getLsbD i = false := by decide
      exact curReleased_of_not fun hc => Bool.false_ne_true ((hbit i hi).symm.trans hc.1)
    have hall : ∀ l : List Nat, (∀ i ∈ l, i ∈ List.range 4) → l.foldl (curReleased 0x80000000#32) s = s := by
      intro l
      induction l with
      | nil => exact fun _ => rfl
      | cons a l ih =>
        intro h
        rw [List.foldl_cons, hstep a (h a (.head _))]
        exact ih fun i hi => h i (.tail _ hi)
    exact hall _ fun _ h => h
  have hcur : curWrite s 0x80000000#32 = { s with ld := { s.ld with doneCur := false } } := by
    unfold curWrite
    refine (if_pos rfl).trans ?_
    exact congrArg (fun t : State => { t with ld := { t.ld with doneCur := false } }) hnone
  rw [exec_doneOk, ← hcur]
  exact if_pos ha

end

/-! ### The statement -/

/-- The loss of VAUX cuts a burn off and leaves fuses and flash (R299, R412). -/
theorem lossOfPower_reads {s : State} (h : s.phase ≠ .unpowered) : ∃ t, exec .lossOfPower s = .next t ∧ t.phase = .unpowered ∧ t.regs = [] ∧
    t.clockOn = false ∧ t.flash = s.flash ∧ FusesKept s t ∧ t.fuses.burning = 0 ∧ t.pending = s.pending := by
  rw [exec_lossOfPower]
  exact ⟨_, if_neg h, rfl, rfl, rfl, rfl, fusesKept_cutBurn s, burning_cutBurn s, rfl⟩

/-- Settles O45, clause by clause. -/
theorem resetsAndStarts : Obligations.ResetsAndStarts := by
  unfold Obligations.ResetsAndStarts
  intro s moved clocksUp showsCause resets
  refine ⟨fun h => ⟨_, exec_powerOn_of_unpowered h, powerOn_reads s⟩, fun h => ⟨?_, lossOfPower_reads h⟩,
    fun hp hl hb => resetNAssert_reads hp hl hb, fun hl => exec_resetNAssert_of_low hl, ⟨fun h => resetNRelease_of_not h, fun h => ?_⟩,
    fun id v ha => ⟨fun hst how => ⟨fun hv => ?_, fun hv => ?_⟩, fun hshut => ?_⟩, fun h => vinLoss_resets h,
    fun h => ⟨_, vinLoss_held h, rfl, rfl⟩, fun h => vinLoss_ignored h, fun vin vaux hp hvin hvaux => ?_,
    fun dt raws rootOk rngOk pin bad fill => ⟨fun h => exec_deviceStart_of_not s dt raws rootOk rngOk pin bad fill h, fun h => ?_⟩,
    fun sec ha => ?_, fun sec h => ⟨_, exec_blockResetEnd_of_due h, blockEnded_reads s sec⟩, fun mask ha => coreRelease_reads ha mask,
        fun ha => doneOk_reads ha⟩
  · rw [exec_powerOn]
    exact if_neg (by simp [h])
  · obtain ⟨hp, hs, hh, hc⟩ := h
    obtain ⟨u, hexec, hstep, hshown, hbits, hframe⟩ := resetNRelease_reads hp hs hh hc
    exact ⟨u, hexec, hstep, hshown, bitsBut_mono hbits (by simp [causeFields]), hframe⟩
  · have hreset : ResetBy s (firmwareReset (s.setReg Reg.RST_LOCK 0) v) 7 0 := by
      rw [show firmwareReset (s.setReg Reg.RST_LOCK 0) v = deviceReset (s.setReg Reg.RST_LOCK 0) 7 0 from if_pos hv]
      exact resetBy_locked
    exact ⟨_, (exec_firmwareReset_of_alive ha id v).trans (lockedWrite_of_open s 2 id.val _ ⟨hst, how⟩), rfl, hreset.answered ⟨0, 0⟩⟩
  · have hkeep : firmwareReset (s.setReg Reg.RST_LOCK 0) v = s.setReg Reg.RST_LOCK 0 := if_neg (Bool.eq_false_iff.mp hv)
    have hexec := (exec_firmwareReset_of_alive ha id v).trans (lockedWrite_of_open s 2 id.val (fun t => firmwareReset t v) ⟨hst, how⟩)
    rw [show lockReg 2 = Reg.RST_LOCK from rfl, hkeep] at hexec
    exact ⟨_, hexec, rfl, (reg_of_regs (s := s.setReg Reg.RST_LOCK 0) rfl _).trans (reg_setReg_self s _ 0),
      bitsBut_of_regs (s := s) (bitsBut_setReg (bitsBut_refl _ s) Reg.RST_LOCK 0 (.head _)) rfl, rfl⟩
  · obtain ⟨hlock, herr, hraised, hbits, hframe⟩ := lockFailed_lockFail s 2 ⟨1, 0⟩
    have hshut2 : ¬ (s.getF (lockState 2) = 2 ∧ s.getF (lockOwner 2) = id.val) := fun hc => hshut.elim (· hc.1) (· hc.2)
    exact ⟨_, (exec_firmwareReset_of_alive ha id v).trans (lockedWrite_of_shut s 2 id.val _ hshut2), rfl, hlock, herr, hraised, hbits, hframe⟩
  · intro bi ba
    obtain ⟨hgv, hga, hi1, hi0, ha1, ha0, hbits, hframe, hevs⟩ :=
      supplyWarned_reads s vin vaux (decide (vin < 10800) || decide (13200 < vin)) (decide (vaux < 3135) || decide (3465 < vaux)) hvin hvaux
    have hexec := exec_supplyWarning_of_powered s vin vaux hp
    have hbi : (decide (vin < 10800) || decide (13200 < vin)) = true ↔ bi := by simp [bi]
    have hba : (decide (vaux < 3135) || decide (3465 < vaux)) = true ↔ ba := by simp [ba]
    generalize (decide (vin < 10800) || decide (13200 < vin)) = x at hi1 hi0 hbits hframe hevs hexec hgv hga ha1 ha0 hbi
    generalize (decide (vaux < 3135) || decide (3465 < vaux)) = y at hi1 hi0 hbits hframe hevs hexec hgv hga ha1 ha0 hba
    generalize supplyWarned s vin vaux x y = w at hi1 hi0 hbits hframe hevs hexec hgv hga ha1 ha0
    obtain ⟨hregs, haon, hyes, hno, hkeep⟩ := warnEvent_reads w (x || y)
    have hraised : w.raised = s.raised := (congrArg State.raised hframe :)
    have hevent : (w.raiseEv 223).raised = (s.raiseEv 223).raised :=
      raiseEv_raised_congr 223 hraised hevs (congrArg State.clockOn hframe :) (congrArg State.dbgHalt hframe :)
    have hflag (f : Field) : (warnEvent w (x || y)).flag f = w.flag f := flag_of_regs hregs f
    refine ⟨_, hexec, (getF_of_regs hregs _).trans hgv, (getF_of_regs hregs _).trans hga, fun h => (hflag _).trans (hi1 (hbi.mpr h)),
      fun h => (hflag _).trans (hi0 (Bool.eq_false_iff.mpr fun hc => h (hbi.mp hc))), fun h => (hflag _).trans (ha1 (hba.mpr h)),
      fun h => (hflag _).trans (ha0 (Bool.eq_false_iff.mpr fun hc => h (hba.mp hc))), fun h => (hyes ?_).trans hevent, fun h => (hno ?_).trans hraised, ?_,
      bitsBut_of_regs hbits hregs, ?_⟩
    · simpa [hbi, hba] using h
    · refine Bool.eq_false_iff.mpr fun hc => h ?_
      simpa [hbi, hba] using hc
    · intro good
      have hgood : good = vinValid s vin := (vinValid_eq s vin).symm
      have haonw : w.aon = (supplyMeasured s vin vaux).aon := (congrArg State.aon hframe :)
      rw [haon, haonw, hgood]
      rfl
    · have h1 := congrArg (fun t : State => { t with regs := s.regs, cyc := s.cyc, raised := s.raised, aon := s.aon }) hkeep
      have h2 := congrArg (fun t : State => { t with raised := s.raised, aon := s.aon }) hframe
      exact (h1 :).trans h2
  · intro codes code groups third common held
    have hfailure {sub path index : Nat} (hf : startFailure pin bad fill = some (sub, path, index)) (hsub : sub < 16) :=
      failed_reads (rootOk := rootOk) (rngOk := rngOk) (raws := raws) h hf hsub
    refine ⟨fun hpin hthird hfill => ?_, fun p hpin => ?_, fun g hpin hthird => ?_, fun hpin hthird hfill => ?_, fun c hpin hthird hfill => ?_⟩
    · have hf : startFailure pin bad fill = none := by
        unfold startFailure
        rw [hpin, show (badGroups bad).find? (fun g => decide (2 < (groupBad bad g).length)) = none from hthird, hfill]
      obtain ⟨hcommon, ⟨hsome, hnone, hm, hrootm, hsrc, hlock, hroot, hrng, hfail, hokey, hfloor⟩, hphase, hclock, hstep, hcause, hcopies, hport, hgroups,
        hlinks, hspares⟩ := started_reads raws rootOk rngOk bad h
      refine ⟨_, exec_deviceStart_of_none s dt raws rootOk rngOk h hf, hcommon, hphase, hclock, hstep, hcause, fun c u hc hc16 => ?_, hnone, hm,
          hrootm, hsrc, hlock,
        hroot, hrng, hfail, hokey, hfloor, hcopies, hport, hgroups, hlinks, hspares⟩
      obtain ⟨hcc, hsub, hcur⟩ := hsome _ hc
      exact ⟨hcc.trans (Nat.mod_eq_of_lt hc16), hsub, hcur⟩
    · obtain ⟨t, hexec, hheld, -⟩ := hfailure (sub := 1) (path := 7) (index := p) (by rw [hpin]; rfl) (by decide)
      exact ⟨t, hexec, hheld⟩
    · have hf : startFailure pin bad fill = some (2, g.1, g.2) := by
        unfold startFailure
        rw [hpin, show (badGroups bad).find? (fun g => decide (2 < (groupBad bad g).length)) = some g from hthird]
      obtain ⟨t, hexec, hheld, -⟩ := hfailure hf (by decide)
      exact ⟨t, hexec, hheld⟩
    · have hf : startFailure pin bad fill = some (3, 0, 0) := by
        unfold startFailure
        rw [hpin, show (badGroups bad).find? (fun g => decide (2 < (groupBad bad g).length)) = none from hthird, hfill]
      obtain ⟨t, hexec, hheld, -⟩ := hfailure hf (by decide)
      exact ⟨t, hexec, hheld⟩
    · have hf : startFailure pin bad fill = some (3, 7, c.val) := by
        unfold startFailure
        rw [hpin, show (badGroups bad).find? (fun g => decide (2 < (groupBad bad g).length)) = none from hthird, hfill]
      obtain ⟨t, hexec, hheld, hfull⟩ := hfailure hf (by decide)
      exact ⟨t, hexec, hheld, hfull rfl rfl c.isLt⟩
  · have hexec := exec_blockReset_of_alive ha sec
    have hblk : (s.setF Reg.RST_BLK_SECTOR sec.val).blk = s.blk := rfl
    have hfenced : (s.setF Reg.RST_BLK_SECTOR sec.val).napFenced sec.val = s.napFenced sec.val := rfl
    have hidle := napIdle_sector s sec.val sec.val
    refine ⟨fun h => ⟨_, hexec, ?_⟩, fun h hb => ⟨_, hexec, ?_⟩, fun h hb hq => ⟨_, hexec, ?_⟩, fun h hb hq => ⟨_, hexec, ?_⟩⟩
    · rw [blockReset_of_outside _ _ h]
      exact blockRefused_reads s sec.val 3 sec.isLt (by decide)
    · rw [blockReset_of_busy _ _ h (hblk ▸ hb)]
      exact blockRefused_reads s sec.val 2 sec.isLt (by decide)
    · rw [blockReset_of_active _ _ h (hblk.trans hb) (by rwa [hfenced, hidle])]
      exact blockRefused_reads s sec.val 1 sec.isLt (by decide)
    · rw [blockReset_of_quiet _ _ h (hblk.trans hb) (hfenced.trans hq.1) (hidle.trans hq.2)]
      exact blockAsked_reads s sec.val sec.isLt

end Sys2Proof.Machine

/-!
SUPPORT. Release of the steward and of DONE, and refetches (16_configuration.md R332, R341, 17_scrubbing.md R357, R358, 23_debug_bist.md R452).
-/

namespace Sys2Proof.Machine

/-! ### The steward's release -/

section
variable (s : State)

/-- A core as the release leaves it (R363). -/
def freshCore : Core := { Core.reset with on := true, held := s.aon.cur, cycle0 := s.stwCycle }

/-- The four cores released. -/
def coresReleased : State := (List.range 4).foldl (fun acc i => acc.setCore i (freshCore s)) s

/-- Connect-under-reset shown (R452). -/
def curShown (u : State) (cur : Bool) : State := if cur then (u.raiseF Reg.RST_CAUSE_CUR).setF Reg.DBG_STAT_HELD 15 else u

/-- The release beside the cores. -/
def stewardGone (u : State) (cur : Bool) : State :=
  { u with ld := { u.ld with released := true, doneCur := cur }, aon := { u.aon with cur := false } }

theorem releaseCores_eq : releaseCores s = stewardGone (curShown (coresReleased s) s.aon.cur) s.aon.cur := rfl

theorem coresReleased_reads : (∀ i, i < 4 → (coresReleased s).core i = freshCore s) ∧ { coresReleased s with cores := s.cores } = s := by
  have hfold (l : List Nat) (u : State) : (∀ i ∈ l, (l.foldl (fun acc i => acc.setCore i (freshCore s)) u).core i = freshCore s) ∧
      (∀ i, u.core i = freshCore s → (l.foldl (fun acc i => acc.setCore i (freshCore s)) u).core i = freshCore s) ∧
      { l.foldl (fun acc i => acc.setCore i (freshCore s)) u with cores := u.cores } = u := by
    induction l generalizing u with
    | nil => exact ⟨nofun, fun _ h => h, rfl⟩
    | cons a l ih =>
      obtain ⟨-, hkeep, hframe⟩ := ih (u.setCore a (freshCore s))
      have hset (i : Nat) (h : i = a ∨ u.core i = freshCore s) : (u.setCore a (freshCore s)).core i = freshCore s := by
        rcases h with rfl | h
        · exact tget_tset_self _ _ _ _
        · by_cases hi : i = a
          · exact hi ▸ tget_tset_self _ _ _ _
          · exact (tget_tset_ne _ _ _ _ _ hi).trans h
      rw [List.foldl_cons]
      refine ⟨fun i hi => ?_, fun i hi => hkeep i (hset i (.inr hi)), (congrArg (fun x : State => { x with cores := u.cores }) hframe :)⟩
      rcases List.mem_cons.mp hi with rfl | hi
      · exact hkeep i (hset i (.inl rfl))
      · exact (ih (u.setCore a (freshCore s))).1 i hi
  obtain ⟨hall, -, hframe⟩ := hfold (List.range 4) s
  exact ⟨fun i hi => hall i (List.mem_range.mpr hi), hframe⟩

theorem curShown_reads (u : State) (cur : Bool) : OnlyBits [Reg.RST_CAUSE_CUR, Reg.DBG_STAT_HELD] u (curShown u cur) := by
  cases cur with
  | true => exact ((onlyBits_refl u _).raiseF _ (.head _) ((Field.fits_iff _).mpr rfl)).setF _ 15 (.tail _ (.head _)) ((Field.fits_iff _).mpr rfl)
  | false => exact onlyBits_refl u _

/-- What a release leaves as it stands. -/
def ReleaseOnly (s t : State) : Prop :=
  { t with regs := s.regs, cyc := s.cyc, cores := s.cores, ld := s.ld, aon := s.aon, phase := s.phase } = s

theorem ReleaseOnly.reads {s t : State} (h : ReleaseOnly s t) : t.stores = s.stores ∧ t.fuses = s.fuses ∧ t.time = s.time := by
  have heq : t = { s with regs := t.regs, cyc := t.cyc, cores := t.cores, ld := t.ld, aon := t.aon, phase := t.phase } :=
    (congrArg (fun x : State => { x with regs := t.regs, cyc := t.cyc, cores := t.cores, ld := t.ld, aon := t.aon, phase := t.phase }) h :)
  rw [heq]
  exact ⟨rfl, rfl, rfl⟩

theorem releaseCores_reads : let t := releaseCores s
    (∀ i, i < 4 → t.core i = freshCore s) ∧ t.ld = { s.ld with released := true, doneCur := s.aon.cur } ∧ t.aon = { s.aon with cur := false } ∧
      ReleaseOnly s t := by
  obtain ⟨hcores, hframe⟩ := coresReleased_reads s
  rw [releaseCores_eq]
  generalize coresReleased s = u at hcores hframe ⊢
  have honly := curShown_reads u s.aon.cur
  have hld : u.ld = s.ld := (congrArg State.ld hframe :)
  have haon : u.aon = s.aon := (congrArg State.aon hframe :)
  generalize curShown u s.aon.cur = v at honly ⊢
  have hcorev : v.cores = u.cores := honly.keeps State.cores fun _ _ _ => rfl
  have hldv : v.ld = s.ld := (honly.keeps State.ld fun _ _ _ => rfl).trans hld
  have haonv : v.aon = s.aon := (honly.keeps State.aon fun _ _ _ => rfl).trans haon
  refine ⟨fun i hi => ?_, ?_, ?_, ?_⟩
  · exact (congrArg (fun c => tget (fun _ => Core.reset) c i) hcorev).trans (hcores i hi)
  · exact congrArg (fun l : Loader => { l with released := true, doneCur := s.aon.cur }) hldv
  · exact congrArg (fun a : Aon => { a with cur := false }) haonv
  · have h1 := congrArg (fun x : State => { x with cores := s.cores, ld := s.ld, aon := s.aon, phase := s.phase }) honly.2
    have h2 := congrArg (fun x : State => { x with regs := s.regs, cyc := s.cyc, ld := s.ld, aon := s.aon, phase := s.phase }) hframe
    have h3 := congrArg (fun x : State => { x with regs := s.regs, cyc := s.cyc }) h1
    exact (h3 :).trans h2

/-- Step 6 begun (R332). -/
def stepSix (u : State) (t : Nat) : State := (u.setF Reg.RST_STAGE_STEP 6).setF Reg.RST_STAGE_RELEASE_T t

/-- The device in user operation. -/
def runBegun (u : State) : State := { u with phase := .run, aon := { u.aon with wakeFrom := 0, retained := [] } }

variable {s} in
theorem exec_stewardRelease_of_ready (dt : Nat) (hp : s.phase = .start) (hst : 3 ≤ s.getF Reg.CFG_STAT_STATE) (hi : anyInit s = false)
    (hr : s.ld.released = false) : exec (.stewardRelease dt) s =
      .next (allLanesReeval (runBegun (stepSix (releaseCores (aonPass s dt)) (min ((aonPass s dt).aon.ticks - (aonPass s dt).aon.startAt) 0xFFFFFF)))) := by
  rw [exec_stewardRelease]
  exact if_pos (by simp [hp, hst, hi, hr])

theorem separate_stage : Separate [Reg.RST_STAGE_RELEASE_T, Reg.RST_STAGE_STEP] := .of_ok rfl

theorem stepSix_reads (u : State) {t : Nat} (ht : t ≤ 0xFFFFFF) : (stepSix u t).getF Reg.RST_STAGE_STEP = 6 ∧
    (stepSix u t).getF Reg.RST_STAGE_RELEASE_T = t ∧ RegsOnly u (stepSix u t) := by
  have hw : Wrote [(Reg.RST_STAGE_RELEASE_T, t), (Reg.RST_STAGE_STEP, 6)] u (stepSix u t) := ((Wrote.refl u).setF _ _).setF _ _
  refine ⟨hw.getF separate_stage (by simp) (by decide), hw.getF separate_stage (by simp) ?_, ((RegsOnly.refl u).setF _ _).setF _ _⟩
  show t < 2 ^ 24
  omega

theorem runBegun_reads (u : State) : (runBegun u).regs = u.regs ∧ (runBegun u).phase = .run ∧ (runBegun u).aon = { u.aon with wakeFrom := 0, retained := [] } ∧
    (runBegun u).ld = u.ld ∧ (runBegun u).cores = u.cores ∧ { runBegun u with phase := u.phase, aon := u.aon } = u := ⟨rfl, rfl, rfl, rfl, rfl, rfl⟩

variable {s} in
/-- The release: the cores start and step 6 begins (R332, R363, R389, R452). -/
theorem stewardRelease_reads (dt : Nat) (hp : s.phase = .start) (hst : 3 ≤ s.getF Reg.CFG_STAT_STATE) (hi : anyInit s = false)
    (hr : s.ld.released = false) : ∃ t, exec (.stewardRelease dt) s = .next t ∧ t.phase = .run ∧ t.getF Reg.RST_STAGE_STEP = 6 ∧
      t.getF Reg.RST_STAGE_RELEASE_T = min (s.aon.ticks + dt - s.aon.startAt) 0xFFFFFF ∧
      t.ld = { s.ld with released := true, doneCur := s.aon.cur } ∧ t.aon.ticks = s.aon.ticks + dt ∧ t.aon.cur = false ∧ t.aon.retained = [] ∧
      (∀ i, i < 4 → t.core i = freshCore s) ∧ t.stores = s.stores ∧ t.fuses = s.fuses ∧ t.time = s.time := by
  refine ⟨_, exec_stewardRelease_of_ready dt hp hst hi hr, ?_⟩
  have honlya := aonOnly_aonPass s dt
  have hticks : (aonPass s dt).aon.ticks = s.aon.ticks + dt := ticks_aonPass s dt (by simp [hp])
  have hcur : (aonPass s dt).aon.cur = s.aon.cur := aonPass_keeps_aon s dt Aon.cur fun _ _ _ _ _ => rfl
  have hstart : (aonPass s dt).aon.startAt = s.aon.startAt := aonPass_keeps_aon s dt Aon.startAt fun _ _ _ _ _ => rfl
  generalize aonPass s dt = a at honlya hticks hcur hstart ⊢
  rw [hticks, hstart]
  have hstw : a.stwCycle = s.stwCycle := honlya.keeps State.stwCycle fun _ _ _ _ => rfl
  have hlda : a.ld = s.ld := honlya.keeps State.ld fun _ _ _ _ => rfl
  obtain ⟨hcores, hld, haon, honlyr⟩ := releaseCores_reads a
  generalize releaseCores a = r at hcores hld haon honlyr ⊢
  obtain ⟨hstep, ht, honly6⟩ := stepSix_reads r (Nat.min_le_right (s.aon.ticks + dt - s.aon.startAt) 0xFFFFFF)
  generalize stepSix r (min (s.aon.ticks + dt - s.aon.startAt) 0xFFFFFF) = x at hstep ht honly6 ⊢
  obtain ⟨hregs, hphase, hyaon, hyld, hycores, hyframe⟩ := runBegun_reads x
  generalize runBegun x = y at hregs hphase hyaon hyld hycores hyframe ⊢
  have hlanes := lanesOnly_allLanesReeval y
  have hstage := getF_allLanesReeval y (f := Reg.RST_STAGE_STEP) (.inl (by decide))
  have hrel := getF_allLanesReeval y (f := Reg.RST_STAGE_RELEASE_T) (.inl (by decide))
  generalize allLanesReeval y = t at hlanes hstage hrel ⊢
  have htaon : t.aon = { a.aon with cur := false, wakeFrom := 0, retained := [] } := by
    rw [(hlanes.keeps State.aon fun _ _ _ _ _ _ => rfl : t.aon = y.aon), hyaon, (honly6.keeps State.aon fun _ _ => rfl : x.aon = r.aon), haon]
  have htld : t.ld = { a.ld with released := true, doneCur := a.aon.cur } := by
    rw [(hlanes.keeps State.ld fun _ _ _ _ _ _ => rfl : t.ld = y.ld), hyld, (honly6.keeps State.ld fun _ _ => rfl : x.ld = r.ld), hld]
  have htcores : t.cores = r.cores :=
    ((hlanes.keeps State.cores fun _ _ _ _ _ _ => rfl).trans hycores).trans (honly6.keeps State.cores fun _ _ => rfl)
  have hkeep {α : Type} (f : State → α) (hf : ∀ u r2 c k a2 b l cs ad p,
      f { u with regs := r2, cyc := c, tk := k, fe := a2, laneTest := b, ld := l, cores := cs, aon := ad, phase := p } = f u) :
      f t = f s := by
    have h1 : f t = f y := hlanes.keeps f fun u r2 c k a2 b => hf u r2 c k a2 b u.ld u.cores u.aon u.phase
    have h2 : f y = f x := (hf y y.regs y.cyc y.tk y.fe y.laneTest y.ld y.cores x.aon x.phase).symm.trans (congrArg f hyframe)
    have h3 : f x = f r := honly6.keeps f fun u r2 => hf u r2 u.cyc u.tk u.fe u.laneTest u.ld u.cores u.aon u.phase
    have h4 : f r = f a := (hf r a.regs a.cyc r.tk r.fe r.laneTest a.ld a.cores a.aon a.phase).symm.trans (congrArg f honlyr)
    have h5 : f a = f s := honlya.keeps f fun u r2 c ad => hf u r2 c u.tk u.fe u.laneTest u.ld u.cores ad u.phase
    exact h1.trans (h2.trans (h3.trans (h4.trans h5)))
  refine ⟨(hlanes.keeps State.phase fun _ _ _ _ _ _ => rfl).trans hphase, hstage.trans ((getF_of_regs hregs _).trans hstep),
    hrel.trans ((getF_of_regs hregs _).trans ht), ?_, ?_, ?_, ?_, fun i hi => ?_, hkeep State.stores fun _ _ _ _ _ _ _ _ _ _ => rfl,
    hkeep State.fuses fun _ _ _ _ _ _ _ _ _ _ => rfl, hkeep State.time fun _ _ _ _ _ _ _ _ _ _ => rfl⟩
  · rw [htld, hlda, hcur]
  · rw [htaon, ← hticks]
  · rw [htaon]
  · rw [htaon]
  · refine ((congrArg (fun c => tget (fun _ => Core.reset) c i) htcores :).trans (hcores i hi)).trans ?_
    rw [freshCore, freshCore, hcur, hstw]

/-! ### DONE -/

/-- DONE released (R332). -/
def DoneReleased (s t : State) : Prop :=
  t.ld = { s.ld with doneRel := true } ∧ t.getF Reg.RST_STAGE_STEP = (if s.user then 8 else 7) ∧
    BitsBut [Reg.RST_STAGE_STEP] s t ∧ { t with regs := s.regs, cyc := s.cyc, ld := s.ld } = s

theorem doneReleased_releaseDone : DoneReleased s (releaseDone s) := by
  have hset : BitsBut [Reg.RST_STAGE_STEP] s (releaseDone s) :=
    bitsBut_of_regs (bitsBut_setF (bitsBut_refl _ s) Reg.RST_STAGE_STEP (if s.user then 8 else 7) (.head _) (by decide) (by decide)) rfl
  refine ⟨rfl, ?_, hset, rfl⟩
  refine (getF_of_regs (s := s.setF Reg.RST_STAGE_STEP (if s.user then 8 else 7)) rfl _).trans ((getF_setF_self _ _ _ (by decide) (by decide)).trans ?_)
  split <;> rfl

variable {s} in
theorem DoneReleased.of_onlyBits {u t : State} (h : OnlyBits [] s u) (hd : DoneReleased u t) : DoneReleased s t := by
  obtain ⟨hld, hstep, hbits, hframe⟩ := hd
  have huld : u.ld = s.ld := h.keeps State.ld fun _ _ _ => rfl
  have huser : u.user = s.user := flag_of_bitsBut h.1 nofun
  refine ⟨by rw [hld, huld], by rw [hstep, huser], bitsBut_trans (bitsBut_mono h.1 nofun) hbits, ?_⟩
  have h1 := congrArg (fun x : State => { x with regs := s.regs, cyc := s.cyc, ld := s.ld }) hframe
  have h2 := congrArg (fun x : State => { x with ld := s.ld }) h.2
  exact (h1 :).trans h2

/-- The word of DONE_GO, which writes DONE_HOLD with what it holds. -/
theorem doneGo_word : (BitVec.ofNat 32 (2 ^ 31 + s.getF Reg.CFG_CTRL_DONE_HOLD)).getLsbD 31 = true ∧
    (BitVec.ofNat 32 (2 ^ 31 + s.getF Reg.CFG_CTRL_DONE_HOLD)).getLsbD 0 = s.flag Reg.CFG_CTRL_DONE_HOLD := by
  have hlt : s.getF Reg.CFG_CTRL_DONE_HOLD < 2 := Nat.mod_lt _ (by decide)
  unfold State.flag
  generalize s.getF Reg.CFG_CTRL_DONE_HOLD = n at hlt ⊢
  match n, hlt with
  | 0, _ => exact ⟨by decide, by decide⟩
  | 1, _ => exact ⟨by decide, by decide⟩

/-- DONE_HOLD written with what it holds. -/
def holdKept : State := s.putF Reg.CFG_CTRL_DONE_HOLD (s.flag Reg.CFG_CTRL_DONE_HOLD)

theorem onlyBits_holdKept : OnlyBits [] s (holdKept s) := by
  refine onlyBits_setF_held s ((Field.fits_iff _).mpr rfl) ?_
  have hlt : s.getF Reg.CFG_CTRL_DONE_HOLD < 2 := Nat.mod_lt _ (by decide)
  unfold State.flag
  generalize s.getF Reg.CFG_CTRL_DONE_HOLD = n at hlt ⊢
  match n, hlt with
  | 0, _ => rfl
  | 1, _ => rfl

variable {s} in
theorem exec_doneGo_eq (ha : s.alive = true) : exec .doneGo s =
    .next (if (s.flag Reg.CFG_CTRL_DONE_HOLD && s.ld.released && !s.ld.doneCur && !s.ld.doneRel) = true then releaseDone (holdKept s) else holdKept s) := by
  obtain ⟨h31, h0⟩ := doneGo_word s
  rw [exec_doneGo]
  unfold execDoneGo cfgCtrlWrite
  rw [if_pos ha]
  dsimp only
  rw [h31, h0, Bool.true_and]
  rfl

end

end Sys2Proof.Machine

/-!
SUPPORT. Refetches (16_configuration.md R341, 17_scrubbing.md R357, R358): a block fetched again from flash, written or failed.
-/

namespace Sys2Proof.Machine

/-! ### What a refetch reads -/

section
variable {s t : State}

theorem flashWord_congr (h : t.flash = s.flash) (k : Nat) : flashWord t k = flashWord s k := by
  unfold flashWord
  rw [h]

/-- What flash gives depends on flash alone. -/
theorem snd_flashBytes_congr (h : t.flash = s.flash) (a n : Nat) : (flashBytes t a n).2 = (flashBytes s a n).2 := by
  unfold flashBytes
  simp only [flashWord_congr h]
  split <;> rfl

theorem snd_refetchWords_congr (h : t.flash = s.flash) (e : RfxEntry) (b : Nat) : (refetchWords t e b).2 = (refetchWords s e b).2 := by
  have hread := snd_flashBytes_congr h
  unfold refetchWords
  rw [hread e.addr 32]
  generalize 80 + (match (flashBytes s e.addr 32).2 with | some h => leNat (slice h 4 4) | none => 0) = n
  dsimp only
  split
  · rfl
  · have hn := hread e.addr n
    generalize flashBytes t e.addr n = x at hn ⊢
    generalize flashBytes s e.addr n = y at hn ⊢
    obtain ⟨t1, r⟩ := x
    obtain ⟨s1, r2⟩ := y
    dsimp only at hn
    subst hn
    cases r with
    | none => rfl
    | some seg =>
      dsimp only
      split
      · cases framesDesc (List.drop 32 (segPlain e.key seg)) <;> rfl
      · rfl

/-- The counts of a read of flash (R343). -/
def eccFields : List Field := [Reg.FL_ECC_UNC_CNT, Reg.FL_ECC_COR_CNT]

theorem onlyBits_flashBytes (s : State) (a n : Nat) : OnlyBits eccFields s (flashBytes s a n).1 ∧ (flashBytes s a n).1.cyc.evs = s.cyc.evs := by
  have hcount (m k : Nat) : OnlyBits eccFields s ((s.addF Reg.FL_ECC_UNC_CNT m).addF Reg.FL_ECC_COR_CNT k) ∧
      ((s.addF Reg.FL_ECC_UNC_CNT m).addF Reg.FL_ECC_COR_CNT k).cyc.evs = s.cyc.evs :=
    ⟨((onlyBits_refl s eccFields).addF _ m (.head _) ((Field.fits_iff _).mpr rfl)).addF _ k (.tail _ (.head _)) ((Field.fits_iff _).mpr rfl),
      (addF_evs _ _ _).trans (addF_evs s _ _)⟩
  unfold flashBytes
  dsimp only
  split <;> exact hcount _ _

theorem onlyBits_refetchWords (s : State) (e : RfxEntry) (b : Nat) :
    OnlyBits eccFields s (refetchWords s e b).1 ∧ (refetchWords s e b).1.cyc.evs = s.cyc.evs := by
  unfold refetchWords
  generalize 80 + (match (flashBytes s e.addr 32).2 with | some h => leNat (slice h 4 4) | none => 0) = n
  have hn := onlyBits_flashBytes s e.addr n
  dsimp only
  split
  · exact ⟨onlyBits_refl s _, rfl⟩
  · generalize flashBytes s e.addr n = x at hn ⊢
    obtain ⟨s1, r⟩ := x
    cases r with
    | none => exact hn
    | some seg =>
      dsimp only
      split
      · cases framesDesc (List.drop 32 (segPlain e.key seg)) <;> exact hn
      · exact hn

theorem vlinkClash_congr (h : t.cfgw = s.cfgw) (b : Nat) (words : List Word64) : vlinkClash t b words = vlinkClash s b words := by
  unfold vlinkClash State.cfgInfo
  rw [h]

end

/-! ### The outcomes -/

section
variable (s : State)

/-- A refetch counted as it is served. -/
def refetchCounted (rest : List Nat) : State := setRfxq (s.incF Reg.CFG_RFX_RFX_CNT) rest

theorem refetchCounted_reads (rest : List Nat) : let t := refetchCounted s rest
    t.ld = { s.ld with rfxq := rest } ∧ t.flag Reg.CFG_STAT_RFX_BUSY = (!rest.isEmpty) ∧
      t.getF Reg.CFG_RFX_RFX_CNT = min (s.getF Reg.CFG_RFX_RFX_CNT + 1) 65535 ∧ BitsBut [Reg.CFG_STAT_RFX_BUSY, Reg.CFG_RFX_RFX_CNT] s t ∧
      t.cyc.evs = s.cyc.evs ∧ { t with regs := s.regs, cyc := s.cyc, ld := s.ld } = s := by
  have hsep : Separate [Reg.CFG_STAT_RFX_BUSY, Reg.CFG_RFX_RFX_CNT] := .of_ok rfl
  have hcount : Wrote [(Reg.CFG_RFX_RFX_CNT, min (s.getF Reg.CFG_RFX_RFX_CNT + 1) 65535)] s
      { s.incF Reg.CFG_RFX_RFX_CNT with ld := { s.ld with rfxq := rest } } :=
    ((Wrote.refl s).addF 1 hsep.tail rfl).of_regs rfl
  have hw : Wrote [(Reg.CFG_STAT_RFX_BUSY, (!rest.isEmpty).toNat), (Reg.CFG_RFX_RFX_CNT, min (s.getF Reg.CFG_RFX_RFX_CNT + 1) 65535)] s
    (refetchCounted s rest) := hcount.putF _ _
  refine ⟨rfl, hw.flag hsep (by simp), hw.getF hsep (by simp) (Nat.lt_of_le_of_lt (Nat.min_le_right _ _) (by decide)), hw.bitsBut hsep, ?_, rfl⟩
  refine (setF_evs _ _ _).trans ?_
  exact incF_evs s _

variable (b : Nat)

/-- The registers of a refetch that fails. -/
def failShown : State :=
  (((s.incF Reg.CFG_RFX_RFX_FAIL_CNT).raiseF Reg.CFG_STAT_REFETCH_FAIL).raiseEv 224).setF (Reg.SCRB_SSTAT_STATE (b / 1152)) 2

/-- The engine's record of a failed refetch (R358). -/
def failNoted : Scrub :=
  let x := s.scrubOf (b / 1152)
  { x with pend := x.pend.filter (· != b), failed := (x.failed.filter (· != b)) ++ [b], due := x.due ++ [(s.time.slots + 1, 3)] }

theorem blockFailed_eq : blockFailed s b = (failShown s b).setScrub (b / 1152) (failNoted s b) := rfl

def failFields : List Field := [Reg.SCRB_SSTAT_STATE (b / 1152), Reg.CFG_STAT_REFETCH_FAIL, Reg.CFG_RFX_RFX_FAIL_CNT]

theorem separate_failFields : Separate (failFields b) := by
  simp [failFields, Separate, Field.Fits, Field.Apart, Reg.SCRB_SSTAT_STATE, Reg.CFG_STAT_REFETCH_FAIL, Reg.CFG_RFX_RFX_FAIL_CNT, Reg.SCRB_SSTAT,
    Reg.CFG_STAT, Reg.CFG_RFX]
  omega

/-- A refetch that fails (R341, R358). -/
theorem blockFailed_reads : let t := blockFailed s b
    t.getF Reg.CFG_RFX_RFX_FAIL_CNT = min (s.getF Reg.CFG_RFX_RFX_FAIL_CNT + 1) 65535 ∧ t.flag Reg.CFG_STAT_REFETCH_FAIL = true ∧
      t.raised = (s.raiseEv 224).raised ∧ t.getF (Reg.SCRB_SSTAT_STATE (b / 1152)) = 2 ∧ t.scrubOf (b / 1152) = failNoted s b ∧
      BitsBut (failFields b) s t ∧ { t with regs := s.regs, cyc := s.cyc, raised := s.raised, scrub := s.scrub } = s := by
  have hsep := separate_failFields b
  have hcount : Wrote [(Reg.CFG_RFX_RFX_FAIL_CNT, min (s.getF Reg.CFG_RFX_RFX_FAIL_CNT + 1) 65535)] s (s.incF Reg.CFG_RFX_RFX_FAIL_CNT) :=
    (Wrote.refl s).addF 1 hsep.tail.tail rfl
  have hw : Wrote [(Reg.SCRB_SSTAT_STATE (b / 1152), 2), (Reg.CFG_STAT_REFETCH_FAIL, 1),
    (Reg.CFG_RFX_RFX_FAIL_CNT, min (s.getF Reg.CFG_RFX_RFX_FAIL_CNT + 1) 65535)] s (failShown s b) := ((hcount.raiseF _).raiseEv 224).setF _ _
  have hraised : (failShown s b).raised = (s.raiseEv 224).raised := by
    refine raiseEv_raised_congr 224 rfl ?_ rfl rfl
    rw [raiseF_evs, incF_evs]
  have hframe : RegsEvOnly s (failShown s b) :=
    (((RegsEvOnly.incF (s := s) (t := s) rfl _).raiseF _).raiseEv _).setF _ _
  rw [blockFailed_eq]
  generalize failShown s b = u at hw hraised hframe ⊢
  have hregs : (u.setScrub (b / 1152) (failNoted s b)).regs = u.regs := rfl
  refine ⟨(getF_of_regs hregs _).trans (hw.getF hsep (by simp) (Nat.lt_of_le_of_lt (Nat.min_le_right _ _) (by decide))),
    (flag_of_regs hregs _).trans (hw.flag (b := true) hsep (by simp)), hraised,
        (getF_of_regs hregs _).trans (hw.getF hsep (.head _) (show 2 < 2 ^ 2 by decide)),
    scrubOf_setScrub_self u _ _, bitsBut_of_regs (hw.bitsBut hsep) hregs, ?_⟩
  exact (congrArg (fun x : State => { x with scrub := s.scrub }) hframe :)

/-- The words of a block written, one key after another. -/
theorem tget_tsets_words (words : List Word64) (n : Nat) (tab : Tab CodeWord) (k : Nat) :
    tget (fun _ => 0) (tsets (fun _ => 0) tab ((words.zipIdx n).map fun wi => (320 * b + wi.2, cwEncode wi.1))) k =
      if 320 * b + n ≤ k ∧ k < 320 * b + n + words.length then cwEncode (words.getD (k - (320 * b + n)) 0) else tget (fun _ => 0) tab k := by
  induction words generalizing n tab with
  | nil => exact (if_neg (by simp)).symm
  | cons w words ih =>
    rw [List.zipIdx_cons, List.map_cons]
    refine (ih (n + 1) _).trans ?_
    rw [tget_tset, List.length_cons]
    by_cases hk : k = 320 * b + n
    · subst hk
      rw [if_neg (by omega), if_pos rfl, if_pos (by omega), Nat.sub_self, List.getD_cons_zero]
    · rw [if_neg hk]
      by_cases hin : 320 * b + (n + 1) ≤ k ∧ k < 320 * b + (n + 1) + words.length
      · rw [if_pos hin, if_pos (by omega), show k - (320 * b + n) = k - (320 * b + (n + 1)) + 1 by omega, List.getD_cons_succ]
      · rw [if_neg hin, if_neg (by omega)]

theorem putBlock_reads (words : List Word64) : let t := putBlock s b words
    t.regs = s.regs ∧ t.time = s.time ∧ t.raised = s.raised ∧
      t.scrubOf (b / 1152) = { s.scrubOf (b / 1152) with fixes := (s.scrubOf (b / 1152)).fixes.filter (fun e => e.2.1 / 320 != b) } ∧
      (∀ k, tget (fun _ => 0) t.cfgw k = if 320 * b ≤ k ∧
          k < 320 * b + words.length then cwEncode (words.getD (k - 320 * b) 0) else tget (fun _ => 0) s.cfgw k) ∧
      tget (fun _ => 0) t.loaded b = 7 ∧ (∀ b', b' ≠ b → tget (fun _ => 0) t.loaded b' = tget (fun _ => 0) s.loaded b') ∧
      { t with cfgw := s.cfgw, loaded := s.loaded, scrub := s.scrub } = s :=
  ⟨rfl, rfl, rfl, tget_tset_self _ _ _ _, fun k => tget_tsets_words b words 0 s.cfgw k, tget_tset_self _ _ _ _, fun _ hb => tget_tset_ne _ _ _ _ _ hb, rfl⟩

/-- What the end of a repair makes due: a FAILED sector lets go in the slot after the last of its failed blocks, and one in REPAIR under policy 0 at
its last pending block (R357, R358). -/
def repairDue (slots st policy : Nat) (pend failed : List Nat) : List (Nat × Nat) :=
  if failed ≠ [] then [] else if st = 2 then [(slots + 1, 4)] else if st ≠ 0 ∧ pend = [] ∧ policy = 0 then [(slots + 1, 2)] else []

/-- The engine's record without a block. -/
def blockDropped (x : Scrub) (due : List (Nat × Nat)) : Scrub :=
  { x with pend := x.pend.filter (· != b), failed := x.failed.filter (· != b), due := x.due ++ due }

theorem blockDropped_nil (x : Scrub) : blockDropped b x [] = { x with pend := x.pend.filter (· != b), failed := x.failed.filter (· != b) } := by
  unfold blockDropped
  rw [List.append_nil]

/-- A block written again (R357, R358). -/
theorem blockRepaired_reads : let t := blockRepaired s b
    let x := s.scrubOf (b / 1152)
    let st := s.getF (Reg.SCRB_SSTAT_STATE (b / 1152))
    let pend := x.pend.filter (· != b)
    let failed := x.failed.filter (· != b)
    t.getF (Reg.SCRB_SSTAT_STATE (b / 1152)) = (if st ≠ 2 ∧ failed = [] ∧ pend = [] then 0 else st) ∧
      t.scrubOf (b / 1152) = blockDropped b x (repairDue s.time.slots st x.policy pend failed) ∧
      BitsBut [Reg.SCRB_SSTAT_STATE (b / 1152)] s t ∧ { t with regs := s.regs, scrub := s.scrub } = s := by
  intro t x st pend failed
  have hkeep (y : Scrub) : (s.setScrub (b / 1152) y).getF (Reg.SCRB_SSTAT_STATE (b / 1152)) = st ∧ (s.setScrub (b / 1152) y).scrubOf (b / 1152) = y ∧
      BitsBut [Reg.SCRB_SSTAT_STATE (b / 1152)] s (s.setScrub (b / 1152) y) ∧ { s.setScrub (b / 1152) y with regs := s.regs, scrub := s.scrub } = s :=
    ⟨rfl, scrubOf_setScrub_self s _ y, bitsBut_of_regs (bitsBut_refl _ s) rfl, rfl⟩
  by_cases hstay : st = 0 ∨ (!failed.isEmpty) = true ∨ (st ≠ 2 ∧ (!pend.isEmpty) = true)
  · have ht : t = s.setScrub (b / 1152) { x with pend := pend, failed := failed } := if_pos hstay
    have hdue : repairDue s.time.slots st x.policy pend failed = [] := by
      unfold repairDue
      rcases hstay with h | h | ⟨h2, h⟩
      · simp [h]
      · exact if_pos (by simpa using h)
      · rw [if_neg h2, if_neg (show ¬ (st ≠ 0 ∧ pend = [] ∧ x.policy = 0) from fun hc => by simp [hc.2.1] at h), ite_self]
    have hst : (if st ≠ 2 ∧ failed = [] ∧ pend = [] then 0 else st) = st := by
      rcases hstay with h | h | ⟨-, h⟩
      · rw [h, ite_self]
      · exact if_neg fun hc => by simp [hc.2.1] at h
      · exact if_neg fun hc => by simp [hc.2.2] at h
    rw [ht, hdue, hst, blockDropped_nil]
    exact hkeep _
  · obtain ⟨h0, hf, hp⟩ : st ≠ 0 ∧ failed = [] ∧ (st ≠ 2 → pend = []) := by simpa [not_or] using hstay
    by_cases h2 : st = 2
    · have ht : t = (s.setScrub (b / 1152) { x with pend := pend, failed := failed }).setScrub (b / 1152)
          { x with pend := pend, failed := failed, due := x.due ++ [(s.time.slots + 1, 4)] } := (if_neg hstay).trans (if_pos h2)
      have hdue : repairDue s.time.slots st x.policy pend failed = [(s.time.slots + 1, 4)] := (if_neg (by simp [hf])).trans (if_pos h2)
      rw [ht, hdue, if_neg fun hc => hc.1 h2]
      exact ⟨rfl, scrubOf_setScrub_self _ _ _, bitsBut_of_regs (bitsBut_refl _ s) rfl, rfl⟩
    · have hpend := hp h2
      have hset (u : State) (hu : u.regs = s.regs) (hf2 : { u with scrub := s.scrub } = s) :
          (u.setF (Reg.SCRB_SSTAT_STATE (b / 1152)) 0).getF (Reg.SCRB_SSTAT_STATE (b / 1152)) = 0 ∧
            BitsBut [Reg.SCRB_SSTAT_STATE (b / 1152)] s (u.setF (Reg.SCRB_SSTAT_STATE (b / 1152)) 0) ∧
            { u.setF (Reg.SCRB_SSTAT_STATE (b / 1152)) 0 with regs := s.regs, scrub := s.scrub } = s :=
        ⟨getF_setF_self u _ 0 (show 30 ≤ 31 by decide) (show 31 < 32 by decide),
          bitsBut_setF (bitsBut_of_regs (bitsBut_refl _ s) hu) _ 0 (.head _) (show 30 ≤ 31 by decide) (show 31 < 32 by decide),
          (congrArg (fun y : State => { y with regs := s.regs }) hf2 :)⟩
      rw [if_pos ⟨h2, hf, hpend⟩]
      by_cases hpol : x.policy = 0
      · have ht : t = ((s.setScrub (b / 1152) { x with pend := pend, failed := failed }).setF (Reg.SCRB_SSTAT_STATE (b / 1152)) 0).setScrub (b / 1152)
            { x with pend := pend, failed := failed, due := x.due ++ [(s.time.slots + 1, 2)] } :=
          ((if_neg hstay).trans (if_neg h2)).trans (if_pos hpol)
        have hdue : repairDue s.time.slots st x.policy pend failed = [(s.time.slots + 1, 2)] :=
          ((if_neg (by simp [hf])).trans (if_neg h2)).trans (if_pos ⟨h0, hpend, hpol⟩)
        obtain ⟨hzero, hbits, hframe⟩ := hset (s.setScrub (b / 1152) { x with pend := pend, failed := failed }) rfl rfl
        rw [ht, hdue]
        generalize (s.setScrub (b / 1152) { x with pend := pend, failed := failed }).setF (Reg.SCRB_SSTAT_STATE (b / 1152)) 0 = u at hzero hbits hframe ⊢
        exact ⟨hzero, scrubOf_setScrub_self _ _ _, bitsBut_of_regs hbits rfl, hframe⟩
      · have ht : t = (s.setScrub (b / 1152) { x with pend := pend, failed := failed }).setF (Reg.SCRB_SSTAT_STATE (b / 1152)) 0 :=
          ((if_neg hstay).trans (if_neg h2)).trans (if_neg hpol)
        have hdue : repairDue s.time.slots st x.policy pend failed = [] :=
          ((if_neg (by simp [hf])).trans (if_neg h2)).trans (if_neg fun hc => hpol hc.2.2)
        obtain ⟨hzero, hbits, hframe⟩ := hset (s.setScrub (b / 1152) { x with pend := pend, failed := failed }) rfl rfl
        rw [ht, hdue, blockDropped_nil]
        exact ⟨hzero, scrubOf_setScrub_self s _ _, hbits, hframe⟩

end

/-! ### The command -/

section
variable {s : State} {b : Nat} {rest : List Nat} {bad : Bool}

theorem exec_refetch_of_flash (hf : s.ld.flOn = true) (hq : s.ld.rfxq = b :: rest) : exec (.refetch bad) s = .next s := by
  rw [exec_refetch]
  unfold execRefetch
  rw [hq]
  exact if_neg (by simp [hf])

/-- A refetch is served: the loader works, between the segments of a stream, and no FLASH command is in progress. -/
def RefetchServed (s : State) (b : Nat) (rest : List Nat) : Prop :=
  s.alive = true ∧ tlrClock s = true ∧ s.ld.flOn = false ∧ s.ld.seg = none ∧ s.ld.rfxq = b :: rest

theorem exec_refetch_of_none (h : RefetchServed s b rest) (hfind : s.ld.rfx.find? (fun e => e.blocks.contains b) = none) :
    exec (.refetch bad) s = .next (blockFailed (refetchCounted s rest) b) := by
  obtain ⟨ha, hclock, hfl, hseg, hq⟩ := h
  rw [exec_refetch]
  unfold execRefetch
  rw [hq]
  refine (if_pos (by simp [ha, hclock, hfl, hseg])).trans ?_
  dsimp only
  rw [hfind]
  rfl

theorem exec_refetch_of_some {e : RfxEntry} (h : RefetchServed s b rest) (hfind : s.ld.rfx.find? (fun e => e.blocks.contains b) = some e) :
    exec (.refetch bad) s = .next (match (refetchWords (refetchCounted s rest) e b).2 with
      | some words => if bad || vlinkClash (refetchWords (refetchCounted s rest) e b).1 b words then blockFailed (refetchWords (refetchCounted s rest) e b).1 b
        else blockRepaired (putBlock (refetchWords (refetchCounted s rest) e b).1 b words) b
      | none => blockFailed (refetchWords (refetchCounted s rest) e b).1 b) := by
  obtain ⟨ha, hclock, hfl, hseg, hq⟩ := h
  rw [exec_refetch]
  unfold execRefetch
  rw [hq]
  refine (if_pos (by simp [ha, hclock, hfl, hseg])).trans ?_
  dsimp only
  rw [hfind]
  change (match refetchWords (refetchCounted s rest) e b with
    | (s2, some words) => ok (if bad || vlinkClash s2 b words then blockFailed s2 b else blockRepaired (putBlock s2 b words) b)
    | (s2, none) => ok (blockFailed s2 b)) = _
  obtain ⟨u, r⟩ := refetchWords (refetchCounted s rest) e b
  cases r <;> rfl

/-- The state in which a served refetch ends: counted, and with what reading flash counts. -/
def RefetchRead (s : State) (rest : List Nat) (u : State) : Prop :=
  OnlyBits eccFields (refetchCounted s rest) u ∧ u.cyc.evs = (refetchCounted s rest).cyc.evs

theorem refetchRead_words (e : RfxEntry) : RefetchRead s rest (refetchWords (refetchCounted s rest) e b).1 := onlyBits_refetchWords _ e b

/-- What a refetch may write beside the state of its sector. -/
def refetchFields (b : Nat) : List Field := [Reg.CFG_RFX_RFX_CNT, Reg.CFG_RFX_RFX_FAIL_CNT, Reg.CFG_STAT_RFX_BUSY, Reg.CFG_STAT_REFETCH_FAIL,
  Reg.SCRB_SSTAT_STATE (b / 1152), Reg.FL_ECC_UNC_CNT, Reg.FL_ECC_COR_CNT]

/-- What every refetch shows. -/
theorem RefetchRead.reads {u : State} (h : RefetchRead s rest u) : u.ld = { s.ld with rfxq := rest } ∧
    u.flag Reg.CFG_STAT_RFX_BUSY = (!rest.isEmpty) ∧ u.getF Reg.CFG_RFX_RFX_CNT = min (s.getF Reg.CFG_RFX_RFX_CNT + 1) 65535 ∧
    BitsBut [Reg.CFG_RFX_RFX_CNT, Reg.CFG_STAT_RFX_BUSY, Reg.FL_ECC_UNC_CNT, Reg.FL_ECC_COR_CNT] s u ∧ u.cyc.evs = s.cyc.evs ∧
    { u with regs := s.regs, cyc := s.cyc, ld := s.ld } = s := by
  obtain ⟨honly, hevs⟩ := h
  obtain ⟨hld, hbusy, hcnt, hbits, hcevs, hframe⟩ := refetchCounted_reads s rest
  generalize refetchCounted s rest = c at honly hevs hld hbusy hcnt hbits hcevs hframe
  refine ⟨(honly.keeps State.ld fun _ _ _ => rfl).trans hld, (flag_of_bitsBut honly.1 (by decide)).trans hbusy,
    (getF_of_bitsBut honly.1 (by decide)).trans hcnt, ?_, hevs.trans hcevs, ?_⟩
  · exact bitsBut_trans (bitsBut_mono hbits (by simp)) (bitsBut_mono honly.1 (by simp [eccFields]))
  · rw [honly.eq]
    exact hframe

theorem snd_refetchWords_counted (s : State) (rest : List Nat) (e : RfxEntry) (b : Nat) :
    (refetchWords (refetchCounted s rest) e b).2 = (refetchWords s e b).2 := by
  obtain ⟨-, -, -, -, -, hframe⟩ := refetchCounted_reads s rest
  have hflash : (refetchCounted s rest).flash = s.flash := (congrArg State.flash hframe :)
  exact snd_refetchWords_congr hflash e b

theorem RefetchRead.clash {u : State} (h : RefetchRead s rest u) (b : Nat) (words : List Word64) : vlinkClash u b words = vlinkClash s b words := by
  obtain ⟨-, -, -, -, -, hframe⟩ := h.reads
  have hcfg : u.cfgw = s.cfgw := (congrArg State.cfgw hframe :)
  exact vlinkClash_congr hcfg b words

/-- A refetch that does not verify, whose block reads back wrong, or that the vertical-link check refuses. -/
theorem exec_refetch_fails (h : RefetchServed s b rest) (hfail : s.ld.rfx.find? (fun e => e.blocks.contains b) = none ∨
    (∃ e, s.ld.rfx.find? (fun e => e.blocks.contains b) = some e ∧ ((refetchWords s e b).2 = none ∨ bad = true ∨
      ∃ words, (refetchWords s e b).2 = some words ∧ vlinkClash s b words = true))) :
    ∃ u, exec (.refetch bad) s = .next (blockFailed u b) ∧ RefetchRead s rest u := by
  rcases hfail with hnone | ⟨e, hsome, hwhy⟩
  · exact ⟨_, exec_refetch_of_none h hnone, onlyBits_refl _ _, rfl⟩
  · have hread := refetchRead_words (s := s) (rest := rest) (b := b) e
    refine ⟨_, (exec_refetch_of_some h hsome).trans (congrArg _ ?_), hread⟩
    rw [snd_refetchWords_counted]
    cases hw : (refetchWords s e b).2 with
    | none => rfl
    | some words =>
      refine if_pos ?_
      rcases hwhy with hn | hb | ⟨words2, hw2, hclash⟩
      · exact absurd (hw.symm.trans hn) (Option.some_ne_none words)
      · simp [hb]
      · obtain rfl : words = words2 := Option.some.inj (hw.symm.trans hw2)
        rw [hread.clash b words, hclash, Bool.or_true]

theorem exec_refetch_writes {e : RfxEntry} {words : List Word64} (h : RefetchServed s b rest)
    (hfind : s.ld.rfx.find? (fun e => e.blocks.contains b) = some e) (hb : bad = false) (hw : (refetchWords s e b).2 = some words)
    (hclash : vlinkClash s b words = false) :
    ∃ u, exec (.refetch bad) s = .next (blockRepaired (putBlock u b words) b) ∧ RefetchRead s rest u := by
  have hread := refetchRead_words (s := s) (rest := rest) (b := b) e
  refine ⟨_, (exec_refetch_of_some h hfind).trans (congrArg _ ?_), hread⟩
  rw [snd_refetchWords_counted, hw]
  refine if_neg ?_
  rw [hread.clash b words, hclash, hb]
  exact Bool.false_ne_true

end

end Sys2Proof.Machine

/-!
SUPPORT. Refetches served (16_configuration.md R341, 17_scrubbing.md R357, R358): what stands after one that failed, and one that wrote its block.
-/

namespace Sys2Proof.Machine

/-! ### Refetches served -/

section
variable {s u : State} {b : Nat} {rest : List Nat}

/-- What every served refetch counts. -/
def RefetchShown (s : State) (b : Nat) (rest : List Nat) (t : State) : Prop :=
  t.ld = { s.ld with rfxq := rest } ∧ t.flag Reg.CFG_STAT_RFX_BUSY = (!rest.isEmpty) ∧
    t.getF Reg.CFG_RFX_RFX_CNT = min (s.getF Reg.CFG_RFX_RFX_CNT + 1) 65535 ∧ BitsBut (refetchFields b) s t

theorem state_apart (b : Nat) {f : Field} (hf : f ∈ [Reg.CFG_RFX_RFX_CNT, Reg.CFG_STAT_RFX_BUSY, Reg.FL_ECC_UNC_CNT, Reg.FL_ECC_COR_CNT])
    (hb : b < 276480) : f.reg ≠ (Reg.SCRB_SSTAT_STATE (b / 1152)).reg := by
  have hfar : ∀ f ∈ [Reg.CFG_RFX_RFX_CNT, Reg.CFG_STAT_RFX_BUSY, Reg.FL_ECC_UNC_CNT, Reg.FL_ECC_COR_CNT], f.reg < 0x60100 ∨ 0x70000 ≤ f.reg := by decide
  have hcase := hfar f hf
  show f.reg ≠ 0x60100 + 16 * (b / 1152)
  omega

theorem RefetchRead.state (h : RefetchRead s rest u) (hb : b < 276480) :
    u.reg (Reg.SCRB_SSTAT_STATE (b / 1152)).reg = s.reg (Reg.SCRB_SSTAT_STATE (b / 1152)).reg := by
  obtain ⟨-, -, -, hbits, -, -⟩ := h.reads
  exact reg_of_bitsBut hbits fun f hf => state_apart b hf hb

theorem RefetchRead.failed_reads (h : RefetchRead s rest u) (hb : b < 276480) : let t := blockFailed u b
    let x := s.scrubOf (b / 1152)
    RefetchShown s b rest t ∧ t.getF Reg.CFG_RFX_RFX_FAIL_CNT = min (s.getF Reg.CFG_RFX_RFX_FAIL_CNT + 1) 65535 ∧
      t.flag Reg.CFG_STAT_REFETCH_FAIL = true ∧ t.raised = (s.raiseEv 224).raised ∧ t.getF (Reg.SCRB_SSTAT_STATE (b / 1152)) = 2 ∧
      t.scrubOf (b / 1152) = { x with pend := x.pend.filter (· != b), failed := x.failed.filter (· != b) ++ [b], due := x.due ++ [(s.time.slots + 1, 3)] } ∧
      { t with regs := s.regs, cyc := s.cyc, raised := s.raised, scrub := s.scrub, ld := s.ld } = s := by
  obtain ⟨hld, hbusy, hcnt, hbits, hevs, hframe⟩ := h.reads
  obtain ⟨hfail, hflag, hraised, hst, hscrub, hfbits, hfframe⟩ := blockFailed_reads u b
  have hscrubs : u.scrub = s.scrub := (congrArg State.scrub hframe :)
  have htime : u.time = s.time := (congrArg State.time hframe :)
  have hnoted : failNoted u b = failNoted s b := by
    unfold failNoted State.scrubOf
    rw [hscrubs, htime]
  have hucnt : u.getF Reg.CFG_RFX_RFX_FAIL_CNT = s.getF Reg.CFG_RFX_RFX_FAIL_CNT := getF_of_bitsBut hbits (by decide)
  have hevent : (u.raiseEv 224).raised = (s.raiseEv 224).raised :=
    raiseEv_raised_congr 224 (congrArg State.raised hframe :) hevs (congrArg State.clockOn hframe :) (congrArg State.dbgHalt hframe :)
  have hsep := separate_failFields b
  dsimp only
  generalize blockFailed u b = t at hfail hflag hraised hst hscrub hfbits hfframe ⊢
  have hkeep {f : Field} (hf : f ∈ [Reg.CFG_RFX_RFX_CNT, Reg.CFG_STAT_RFX_BUSY, Reg.FL_ECC_UNC_CNT, Reg.FL_ECC_COR_CNT])
      (h1 : ∀ g ∈ [Reg.CFG_STAT_REFETCH_FAIL, Reg.CFG_RFX_RFX_FAIL_CNT], g.reg = f.reg → f.hi < g.lo ∨ g.hi < f.lo) : t.getF f = u.getF f := by
    refine getF_of_bitsBut hfbits fun g hg hreg => ?_
    rcases List.mem_cons.mp hg with rfl | hg
    · exact absurd hreg.symm (state_apart b hf hb)
    · exact h1 g hg hreg
  refine ⟨⟨(congrArg State.ld hfframe :).trans hld, (congrArg (· != 0) (hkeep (by simp) (by decide))).trans hbusy,
    (hkeep (by simp) (by decide)).trans hcnt, ?_⟩, hfail.trans (by rw [hucnt]), hflag, hraised.trans hevent, hst, hscrub.trans hnoted, ?_⟩
  · exact bitsBut_trans (bitsBut_mono hbits (by simp [refetchFields])) (bitsBut_mono hfbits (by simp [failFields, refetchFields]))
  · have h1 := congrArg (fun x : State => { x with regs := s.regs, cyc := s.cyc, raised := s.raised, scrub := s.scrub, ld := s.ld }) hfframe
    have h2 := congrArg (fun x : State => { x with raised := s.raised, scrub := s.scrub }) hframe
    exact (h1 :).trans h2

theorem RefetchRead.repaired_reads {words : List Word64} (h : RefetchRead s rest u) (hb : b < 276480) (hlen : words.length = 320) :
    let t := blockRepaired (putBlock u b words) b
    let x := s.scrubOf (b / 1152)
    let st := s.getF (Reg.SCRB_SSTAT_STATE (b / 1152))
    let pend := x.pend.filter (· != b)
    let failed := x.failed.filter (· != b)
    RefetchShown s b rest t ∧ (∀ k, tget (fun _ => 0) t.cfgw k =
        if 320 * b ≤ k ∧ k < 320 * b + 320 then cwEncode (words.getD (k - 320 * b) 0) else tget (fun _ => 0) s.cfgw k) ∧
      tget (fun _ => 0) t.loaded b = 7 ∧ t.getF (Reg.SCRB_SSTAT_STATE (b / 1152)) = (if st ≠ 2 ∧ failed = [] ∧ pend = [] then 0 else st) ∧
      t.scrubOf (b / 1152) = { x with fixes := x.fixes.filter (fun e => e.2.1 / 320 != b), pend := pend, failed := failed,
                                      due := x.due ++ repairDue s.time.slots st x.policy pend failed } ∧
      t.raised = s.raised ∧ (∀ b', b' ≠ b → tget (fun _ => 0) t.loaded b' = tget (fun _ => 0) s.loaded b') ∧
      { t with regs := s.regs, cyc := s.cyc, cfgw := s.cfgw, loaded := s.loaded, scrub := s.scrub, ld := s.ld } = s := by
  obtain ⟨hld, hbusy, hcnt, hbits, -, hframe⟩ := h.reads
  have hureg := h.state hb
  have huscrub : u.scrubOf (b / 1152) = s.scrubOf (b / 1152) := (congrArg (fun x : State => x.scrubOf (b / 1152)) hframe :)
  have hutime : u.time = s.time := (congrArg State.time hframe :)
  obtain ⟨hpregs, hptime, hpraised, hpscrub, hpcfg, hploaded, hprest, hpframe⟩ := putBlock_reads u b words
  generalize putBlock u b words = p at hpregs hptime hpraised hpscrub hpcfg hploaded hprest hpframe ⊢
  rw [huscrub] at hpscrub
  obtain ⟨hst, hscrub, hrbits, hrframe⟩ := blockRepaired_reads p b
  have hpst : p.getF (Reg.SCRB_SSTAT_STATE (b / 1152)) = s.getF (Reg.SCRB_SSTAT_STATE (b / 1152)) := (getF_of_regs hpregs _).trans (getF_of_reg hureg)
  rw [hpscrub, hpst] at hst hscrub
  rw [hptime, hutime] at hscrub
  generalize blockRepaired p b = t at hst hscrub hrbits hrframe ⊢
  have hpt : BitsBut [Reg.SCRB_SSTAT_STATE (b / 1152)] u t := bitsBut_trans (bitsBut_of_regs (bitsBut_refl _ u) hpregs) hrbits
  have hkeep {f : Field} (hf : f ∈ [Reg.CFG_RFX_RFX_CNT, Reg.CFG_STAT_RFX_BUSY, Reg.FL_ECC_UNC_CNT, Reg.FL_ECC_COR_CNT]) : t.getF f = u.getF f := by
    refine getF_of_bitsBut hpt fun g hg hreg => ?_
    obtain rfl := List.mem_singleton.mp hg
    exact absurd hreg.symm (state_apart b hf hb)
  have hcfg : t.cfgw = p.cfgw := (congrArg State.cfgw hrframe :)
  have hloaded : t.loaded = p.loaded := (congrArg State.loaded hrframe :)
  have hucfg : u.cfgw = s.cfgw := (congrArg State.cfgw hframe :)
  have huloaded : u.loaded = s.loaded := (congrArg State.loaded hframe :)
  have htld : t.ld = p.ld := (congrArg State.ld hrframe :)
  have hpld : p.ld = u.ld := (congrArg State.ld hpframe :)
  have htraised : t.raised = p.raised := (congrArg State.raised hrframe :)
  have huraised : u.raised = s.raised := (congrArg State.raised hframe :)
  refine ⟨⟨htld.trans (hpld.trans hld), (congrArg (· != 0) (hkeep (by simp))).trans hbusy, (hkeep (by simp)).trans hcnt, ?_⟩, fun k => ?_, ?_, hst, hscrub,
    htraised.trans (hpraised.trans huraised), fun b' hne => ?_, ?_⟩
  · exact bitsBut_trans (bitsBut_mono hbits (by simp [refetchFields])) (bitsBut_mono hpt (by simp [refetchFields]))
  · rw [hcfg, hpcfg k, hucfg, hlen]
  · rw [hloaded, hploaded]
  · rw [hloaded, hprest b' hne, huloaded]
  · have h1 := congrArg (fun x : State => { x with regs := s.regs, cyc := s.cyc, cfgw := s.cfgw, loaded := s.loaded, scrub := s.scrub, ld := s.ld }) hrframe
    have h2 := congrArg (fun x : State => { x with regs := s.regs, cyc := s.cyc, scrub := s.scrub, ld := s.ld, cfgw := s.cfgw, loaded := s.loaded }) hpframe
    have h3 := congrArg (fun x : State => { x with scrub := s.scrub, cfgw := s.cfgw, loaded := s.loaded }) hframe
    exact (h1 :).trans ((h2 :).trans h3)

/-- RETRY in a FAILED sector (R358). -/
def retryAsked (s : State) (sec : Nat) (ask : List Nat) : State :=
  setRfxq (s.setScrub sec { s.scrubOf sec with pend := (s.scrubOf sec).pend ++ ask }) (s.ld.rfxq ++ ask)

theorem retryAsked_reads (sec : Nat) (ask : List Nat) : let t := retryAsked s sec ask
    t.ld = { s.ld with rfxq := s.ld.rfxq ++ ask } ∧ t.scrubOf sec = { s.scrubOf sec with pend := (s.scrubOf sec).pend ++ ask } ∧
      t.flag Reg.CFG_STAT_RFX_BUSY = (!(s.ld.rfxq ++ ask).isEmpty) ∧ BitsBut [Reg.CFG_STAT_RFX_BUSY] s t ∧
      { t with regs := s.regs, cyc := s.cyc, scrub := s.scrub, ld := s.ld } = s := by
  refine ⟨rfl, tget_tset_self _ _ _ _, flag_putF _ _ _ (by decide) (by decide), ?_, rfl⟩
  exact bitsBut_putF (bitsBut_of_regs (bitsBut_refl _ s) rfl) _ _ (.head _) (by decide) (by decide)

theorem exec_scrubRetry_of_failed (ha : s.alive = true) (sec : Fin 240) (hst : s.getF (Reg.SCRB_SSTAT_STATE sec.val) = 2) :
    exec (.scrubRetry sec) s =
      .next (retryAsked s sec.val ((s.scrubOf sec.val).failed.filter (fun b => !(s.scrubOf sec.val).pend.contains b))) := by
  rw [exec_scrubRetry]
  exact (if_pos ha).trans (congrArg _ (if_pos hst))

theorem exec_scrubRetry_of_not (ha : s.alive = true) (sec : Fin 240) (hst : s.getF (Reg.SCRB_SSTAT_STATE sec.val) ≠ 2) :
    exec (.scrubRetry sec) s = .next s := by
  rw [exec_scrubRetry]
  exact (if_pos ha).trans (congrArg _ (if_neg hst))

end

end Sys2Proof.Machine

/-!
SUPPORT. FLASH commands (16_configuration.md R343), and the statement on release, refetches and FLASH commands.
-/

namespace Sys2Proof.Machine

/-! ### Commands given -/

section
variable (s : State) (op : Nat)

/-- The byte address that a command acts on. -/
def flTarget : Nat := if op = 2 then s.getF Reg.FL_ADDR_PAGE / 512 * 0x40000 else s.getF Reg.FL_ADDR_PAGE * 512

/-- OP stored. -/
def opStored : State := s.setF Reg.FL_CMD_OP op

/-- A command accepted. -/
def flAsked : State :=
  { (opStored s op).raiseF Reg.FL_STAT_BUSY with ld := { s.ld with flCmd := some (op, s.getF Reg.FL_ADDR_PAGE) } }

/-- The word of a command: GO with its OP. -/
def CmdWord (v : Word32) (op : Nat) : Prop := v.toNat % 4 = op ∧ v.getLsbD 31 = true ∧ op ≠ 3

variable {s op} {v : Word32}

theorem flCmdWrite_of_busy (hv : CmdWord v op) (h : s.flag Reg.FL_STAT_BUSY = true) : flCmdWrite s v = opStored s op := by
  unfold flCmdWrite
  rw [hv.1]
  exact if_pos (by simp [h])

theorem flCmdWrite_of_guarded (hv : CmdWord v op) (h : s.flag Reg.FL_STAT_BUSY = false) (h0 : op ≠ 0) (ha : activeCopy s (flTarget s op) = true) :
    flCmdWrite s v = (opStored s op).raiseF Reg.FL_STAT_PROT := by
  obtain ⟨hop, hgo, h3⟩ := hv
  unfold flCmdWrite
  rw [hop]
  dsimp only
  rw [if_neg (by rw [hgo, h]; simpa using h3)]
  exact if_pos ⟨h0, ha⟩

theorem flCmdWrite_of_accepted (hv : CmdWord v op) (h : s.flag Reg.FL_STAT_BUSY = false) (ha : op = 0 ∨ activeCopy s (flTarget s op) = false) :
    flCmdWrite s v = flStart (flAsked s op) := by
  obtain ⟨hop, hgo, h3⟩ := hv
  unfold flCmdWrite
  rw [hop]
  dsimp only
  rw [if_neg (by rw [hgo, h]; simpa using h3)]
  refine if_neg fun hc => ?_
  rcases ha with h0 | ha
  · exact hc.1 h0
  · exact Bool.false_ne_true (ha.symm.trans hc.2)

variable (s) in
theorem opStored_reads (hlt : op < 4) : (opStored s op).getF Reg.FL_CMD_OP = op ∧ OnlyBits [Reg.FL_CMD_OP] s (opStored s op) :=
  ⟨(getF_setF_self s _ op (by decide) (by decide)).trans (Nat.mod_eq_of_lt hlt), (onlyBits_refl s _).setF _ _ (.head _) ((Field.fits_iff _).mpr rfl)⟩

variable (s) in
theorem guarded_reads (hlt : op < 4) : let t := (opStored s op).raiseF Reg.FL_STAT_PROT
    t.flag Reg.FL_STAT_PROT = true ∧ t.getF Reg.FL_CMD_OP = op ∧ OnlyBits [Reg.FL_STAT_PROT, Reg.FL_CMD_OP] s t := by
  obtain ⟨hop, honly⟩ := opStored_reads s hlt
  generalize opStored s op = u at hop honly ⊢
  have hset := (onlyBits_refl u [Reg.FL_STAT_PROT]).raiseF Reg.FL_STAT_PROT (.head _) ((Field.fits_iff _).mpr rfl)
  exact ⟨flag_raiseF u _ (by decide) (by decide), (getF_of_bitsBut hset.1 (by decide)).trans hop,
    onlyBits_trans (honly.mono (by simp)) (hset.mono (by simp))⟩

variable (s) in
theorem flAsked_reads (hlt : op < 4) : let t := flAsked s op
    t.flag Reg.FL_STAT_BUSY = true ∧ t.getF Reg.FL_CMD_OP = op ∧ t.ld = { s.ld with flCmd := some (op, s.getF Reg.FL_ADDR_PAGE) } ∧
      BitsBut [Reg.FL_STAT_BUSY, Reg.FL_CMD_OP] s t ∧ { t with regs := s.regs, cyc := s.cyc, ld := s.ld } = s := by
  have hsep : Separate [Reg.FL_STAT_BUSY, Reg.FL_CMD_OP] := .of_ok rfl
  have hw : Wrote [(Reg.FL_STAT_BUSY, 1), (Reg.FL_CMD_OP, op)] s (flAsked s op) := (((Wrote.refl s).setF _ _).raiseF _).of_regs rfl
  exact ⟨hw.flag (b := true) hsep (by simp), hw.getF hsep (by simp) hlt, rfl, hw.bitsBut hsep, rfl⟩

/-- A FLASH command under way or waiting (R343). -/
def FlStarted (s : State) (op : Nat) (t : State) : Prop :=
  t.flag Reg.FL_STAT_BUSY = true ∧ t.getF Reg.FL_CMD_OP = op ∧
    t.ld = { s.ld with flCmd := some (op, s.getF Reg.FL_ADDR_PAGE), flOn := s.ld.flOn || !loaderReads s } ∧
    BitsBut [Reg.FL_STAT_BUSY, Reg.FL_CMD_OP] s t ∧ { t with regs := s.regs, cyc := s.cyc, ld := s.ld } = s

variable (s) in
theorem flStarted_flStart (hlt : op < 4) : FlStarted s op (flStart (flAsked s op)) := by
  obtain ⟨hbusy, hop, hld, hbits, hframe⟩ := flAsked_reads s hlt
  generalize flAsked s op = u at hbusy hop hld hbits hframe ⊢
  have hreads : loaderReads u = loaderReads s := by
    unfold loaderReads
    rw [hld, getF_of_bitsBut hbits (by decide)]
  have hcmd : u.ld.flCmd.isSome = true := by rw [hld]; rfl
  unfold flStart FlStarted
  rw [hcmd, hreads, Bool.true_and]
  cases hr : loaderReads s with
  | true =>
    rw [if_neg (by decide)]
    refine ⟨hbusy, hop, ?_, hbits, hframe⟩
    rw [hld, Bool.not_true, Bool.or_false]
  | false =>
    rw [if_pos (by decide)]
    have hregs : ({ u with ld := { u.ld with flOn := true } } : State).regs = u.regs := rfl
    refine ⟨(flag_of_regs hregs _).trans hbusy, (getF_of_regs hregs _).trans hop, ?_, bitsBut_of_regs hbits hregs, ?_⟩
    · show ({ u.ld with flOn := true } : Loader) = _
      rw [hld, Bool.not_false, Bool.or_true]
    · exact (congrArg (fun x : State => { x with ld := s.ld }) hframe :)

end

/-! ### Commands that end -/

section
variable (s : State)

/-- What ends with a FLASH command beside what it does. -/
theorem flashEnded_reads : let t := flashEnded s
    t.flag Reg.FL_STAT_BUSY = false ∧ t.flag Reg.FL_STAT_DONE = true ∧ t.raised = (s.raiseEv 224).raised ∧
      t.ld = { s.ld with flCmd := none, flOn := false } ∧ t.flash = s.flash ∧ t.fresh = s.fresh ∧
      BitsBut [Reg.FL_STAT_DONE, Reg.FL_STAT_BUSY] s t ∧ { t with regs := s.regs, cyc := s.cyc, raised := s.raised, ld := s.ld } = s := by
  have hsep : Separate [Reg.FL_STAT_DONE, Reg.FL_STAT_BUSY] := .of_ok rfl
  have hw := ((Wrote.refl s).setF Reg.FL_STAT_BUSY 0).raiseF Reg.FL_STAT_DONE
  have hevs : ((s.clearF Reg.FL_STAT_BUSY).raiseF Reg.FL_STAT_DONE).cyc.evs = s.cyc.evs := (raiseF_evs _ _).trans (clearF_evs s _)
  have honly : OnlyBits [Reg.FL_STAT_DONE, Reg.FL_STAT_BUSY] s ((s.clearF Reg.FL_STAT_BUSY).raiseF Reg.FL_STAT_DONE) :=
    ((onlyBits_refl s _).setF Reg.FL_STAT_BUSY 0 (by simp) ((Field.fits_iff _).mpr rfl)).raiseF _ (by simp) ((Field.fits_iff _).mpr rfl)
  unfold flashEnded
  change Wrote _ s ((s.clearF Reg.FL_STAT_BUSY).raiseF Reg.FL_STAT_DONE) at hw
  generalize (s.clearF Reg.FL_STAT_BUSY).raiseF Reg.FL_STAT_DONE = u at hw hevs honly ⊢
  have hld : u.ld = s.ld := honly.keeps State.ld fun _ _ _ => rfl
  have hend : Wrote _ s (State.raiseEv { u with ld := { u.ld with flCmd := none, flOn := false } } 224) := (hw.of_regs rfl).raiseEv 224
  refine ⟨hend.flag (b := false) hsep (by simp), hend.flag (b := true) hsep (by simp), ?_,
    congrArg (fun l : Loader => { l with flCmd := none, flOn := false }) hld,
    honly.keeps State.flash fun _ _ _ => rfl, honly.keeps State.fresh fun _ _ _ => rfl, hend.bitsBut hsep, ?_⟩
  · exact raiseEv_raised_congr 224 (honly.keeps State.raised fun _ _ _ => rfl) hevs (honly.keeps State.clockOn fun _ _ _ => rfl)
      (honly.keeps State.dbgHalt fun _ _ _ => rfl)
  · exact (congrArg (fun x : State => { x with raised := s.raised, ld := s.ld }) honly.2 :)

/-- A command changes flash, the registers and what is drawn, and raises nothing. -/
def FlashOnly (s t : State) : Prop :=
  { t with regs := s.regs, cyc := s.cyc, flash := s.flash, fresh := s.fresh } = s ∧ t.cyc.evs = s.cyc.evs

variable {s} in
theorem FlashOnly.eq {t : State} (h : FlashOnly s t) : t = { s with regs := t.regs, cyc := t.cyc, flash := t.flash, fresh := t.fresh } :=
  (congrArg (fun x : State => { x with regs := t.regs, cyc := t.cyc, flash := t.flash, fresh := t.fresh }) h.1 :)

variable {s} in
theorem FlashOnly.trans {t u : State} (h : FlashOnly s t) (h2 : FlashOnly t u) : FlashOnly s u := by
  refine ⟨?_, h2.2.trans h.2⟩
  rw [h2.eq]
  exact h.1

/-- A word of a page read into FL_BUF. -/
def wordRead (acc : State) (v i : Nat) : State :=
  (acc.setReg (Reg.FL_BUF (2 * i)) (BitVec.ofNat 32 v)).setReg (Reg.FL_BUF (2 * i + 1)) (BitVec.ofNat 32 (v / 2 ^ 32))

/-- A word of a page read, with what its decoding counts. -/
def pageWordRead (acc : State) (di : Decoded 64 × Nat) : State :=
  match di.1 with
  | .clean v => wordRead acc v.toNat di.2
  | .corrected v => (wordRead acc v.toNat di.2).incF Reg.FL_ECC_COR_CNT
  | .bad => ((wordRead acc.draw.2 (Config.random acc.draw.1).toNat di.2).incF Reg.FL_ECC_UNC_CNT).raiseF Reg.FL_STAT_UNC

theorem flRead_eq (page : Nat) :
    flRead s page = (((List.range 64).map fun i => cwDecode (flashWord s (page * 64 + i))).zipIdx).foldl pageWordRead s := rfl

theorem wordRead_reads (v i : Nat) : let t := wordRead s v i
    t.reg (Reg.FL_BUF (2 * i)) = BitVec.ofNat 32 v ∧ t.reg (Reg.FL_BUF (2 * i + 1)) = BitVec.ofNat 32 (v / 2 ^ 32) ∧
      (∀ o, o ≠ Reg.FL_BUF (2 * i) → o ≠ Reg.FL_BUF (2 * i + 1) → t.reg o = s.reg o) ∧ FlashOnly s t := by
  have hne : Reg.FL_BUF (2 * i) ≠ Reg.FL_BUF (2 * i + 1) := by
    show 0xE0200 + 4 * (2 * i) ≠ 0xE0200 + 4 * (2 * i + 1)
    omega
  exact ⟨(reg_setReg_ne _ _ _ _ hne).trans (reg_setReg_self s _ _), reg_setReg_self _ _ _,
    fun o h0 h1 => (reg_setReg_ne _ _ _ _ h1).trans (reg_setReg_ne s _ _ _ h0), rfl, rfl⟩

theorem pageWordRead_reads (d : Decoded 64) (i : Nat) : let t := pageWordRead s (d, i)
    (∀ v, d = .clean v → t.reg (Reg.FL_BUF (2 * i)) = BitVec.ofNat 32 v.toNat ∧ t.reg (Reg.FL_BUF (2 * i + 1)) = BitVec.ofNat 32 (v.toNat / 2 ^ 32)) ∧
      (∀ k, k ≠ 2 * i → k ≠ 2 * i + 1 → t.reg (Reg.FL_BUF k) = s.reg (Reg.FL_BUF k)) ∧ FlashOnly s t := by
  have hbuf {k j : Nat} (h : k ≠ j) : Reg.FL_BUF k ≠ Reg.FL_BUF j := by
    show 0xE0200 + 4 * k ≠ 0xE0200 + 4 * j
    omega
  have hout (k : Nat) : Reg.FL_BUF k ≠ Reg.FL_ECC ∧ Reg.FL_BUF k ≠ Reg.FL_STAT := by
    constructor
    · show 0xE0200 + 4 * k ≠ 0xE000C
      omega
    · show 0xE0200 + 4 * k ≠ 0xE0008
      omega
  cases d with
  | clean w =>
    obtain ⟨hlo, hhi, hkeep, honly⟩ := wordRead_reads s w.toNat i
    refine ⟨fun v hv => ?_, fun k h0 h1 => hkeep _ (hbuf h0) (hbuf h1), honly⟩
    obtain rfl := Decoded.clean.inj hv
    exact ⟨hlo, hhi⟩
  | corrected w =>
    obtain ⟨-, -, hkeep, honly⟩ := wordRead_reads s w.toNat i
    have hlast (u : State) (hu : FlashOnly s u) : FlashOnly s (u.incF Reg.FL_ECC_COR_CNT) := ⟨hu.1, (incF_evs u _).trans hu.2⟩
    refine ⟨nofun, fun k h0 h1 => ?_, hlast _ honly⟩
    exact (reg_addF_ne _ _ 1 _ (hout k).1).trans (hkeep _ (hbuf h0) (hbuf h1))
  | bad =>
    obtain ⟨-, -, hkeep, honly⟩ := wordRead_reads s.draw.2 (Config.random s.draw.1).toNat i
    have hlast (u : State) (hu : FlashOnly s.draw.2 u) : FlashOnly s ((u.incF Reg.FL_ECC_UNC_CNT).raiseF Reg.FL_STAT_UNC) :=
      ⟨(congrArg (fun x : State => { x with fresh := s.fresh }) hu.1 :), ((raiseF_evs _ _).trans (incF_evs u _)).trans hu.2⟩
    refine ⟨nofun, fun k h0 h1 => ?_, hlast _ honly⟩
    refine ((reg_raiseF _ _ _).trans (reg_setF_ne _ _ 1 _ (hout k).2)).trans ((reg_addF_ne _ _ 1 _ (hout k).1).trans ?_)
    exact (hkeep _ (hbuf h0) (hbuf h1)).trans (reg_of_regs rfl _)

theorem foldl_pageWordRead_reads (ds : List (Decoded 64)) (n : Nat) (s : State) : let t := (ds.zipIdx n).foldl pageWordRead s
    (∀ j v, ds[j]? = some (.clean v) → t.reg (Reg.FL_BUF (2 * (n + j))) = BitVec.ofNat 32 v.toNat ∧
        t.reg (Reg.FL_BUF (2 * (n + j) + 1)) = BitVec.ofNat 32 (v.toNat / 2 ^ 32)) ∧
      (∀ k, k < 2 * n → t.reg (Reg.FL_BUF k) = s.reg (Reg.FL_BUF k)) ∧ FlashOnly s t := by
  induction ds generalizing n s with
  | nil => exact ⟨nofun, fun _ _ => rfl, rfl, rfl⟩
  | cons d ds ih =>
    obtain ⟨hclean, hkeep, honly⟩ := pageWordRead_reads s d n
    rw [List.zipIdx_cons, List.foldl_cons]
    generalize pageWordRead s (d, n) = u at hclean hkeep honly ⊢
    obtain ⟨hrest, hlow, honlyr⟩ := ih (n + 1) u
    refine ⟨fun j v hj => ?_, fun k hk => (hlow k (by omega)).trans (hkeep k (by omega) (by omega)), honly.trans honlyr⟩
    cases j with
    | zero =>
      obtain ⟨hlo, hhi⟩ := hclean v (Option.some.inj hj)
      exact ⟨(hlow _ (by omega)).trans hlo, (hlow _ (by omega)).trans hhi⟩
    | succ j =>
      have hnext := hrest j v hj
      rwa [show n + 1 + j = n + (j + 1) by omega] at hnext

theorem flash_pageWordRead (di : Decoded 64 × Nat) : (pageWordRead s di).flash = s.flash := by
  unfold pageWordRead
  split <;> rfl

/-- READ (R343). -/
theorem flRead_reads (page : Nat) : (flRead s page).flash = s.flash ∧ FlashOnly s (flRead s page) ∧
    ∀ i v, i < 64 → cwDecode (flashWord s (page * 64 + i)) = .clean v →
      ((flRead s page).reg (Reg.FL_BUF (2 * i))).toNat = v.toNat % 2 ^ 32 ∧
        ((flRead s page).reg (Reg.FL_BUF (2 * i + 1))).toNat = v.toNat / 2 ^ 32 := by
  obtain ⟨hclean, -, honly⟩ := foldl_pageWordRead_reads ((List.range 64).map fun i => cwDecode (flashWord s (page * 64 + i))) 0 s
  rw [flRead_eq]
  refine ⟨foldl_keeps State.flash flash_pageWordRead _ s, honly, fun i v hi hv => ?_⟩
  obtain ⟨hlo, hhi⟩ := hclean i v (by simp [hi, hv])
  rw [Nat.zero_add] at hlo hhi
  rw [hlo, hhi, BitVec.toNat_ofNat, BitVec.toNat_ofNat]
  exact ⟨rfl, Nat.mod_eq_of_lt (by have := v.isLt; omega)⟩

/-- A run of keys written. -/
theorem tget_tsets_range {α : Type} [DecidableEq α] (d : Nat → α) (a n : Nat) (f : Nat → α) (tab : Tab α) (k : Nat) :
    tget d (tsets d tab ((List.range n).map fun i => (a + i, f i))) k = if a ≤ k ∧ k < a + n then f (k - a) else tget d tab k := by
  induction n with
  | zero => exact (if_neg (by omega)).symm
  | succ n ih =>
    have hsplit : tsets d tab ((List.range (n + 1)).map fun i => (a + i, f i)) =
        tset d (tsets d tab ((List.range n).map fun i => (a + i, f i))) (a + n) (f n) := by
      unfold tsets
      rw [List.range_succ, List.map_append, List.foldl_append]
      rfl
    rw [hsplit, tget_tset, ih]
    by_cases hk : k = a + n
    · subst hk
      rw [if_pos rfl, if_pos (by omega), Nat.add_sub_cancel_left]
    · rw [if_neg hk]
      exact if_congr (by omega) rfl rfl

/-- Keys taken out by a test of theirs. -/
theorem tget_filter_key {α : Type} (d : Nat → α) (p : Nat → Bool) (tab : Tab α) (k : Nat) :
    tget d (tab.filter fun kv => p kv.1) k = if p k then tget d tab k else d k := by
  induction tab with
  | nil => exact (ite_self _).symm
  | cons kv tab ih =>
    obtain ⟨k', v⟩ := kv
    by_cases hp : p k' = true
    · rw [List.filter_cons_of_pos (by simpa using hp)]
      by_cases hk : k' = k
      · subst hk
        simp [tget, hp]
      · simp only [tget, hk, if_false]
        exact ih
    · rw [List.filter_cons_of_neg (by simpa using hp), ih]
      by_cases hk : k' = k
      · subst hk
        simp [hp]
      · simp [tget, hk]

/-- The word that PROGRAM writes at a place of the page. -/
def bufWord (i : Nat) : CodeWord := cwEncode (BitVec.ofNat 64 ((s.reg (Reg.FL_BUF (2 * i))).toNat + 2 ^ 32 * (s.reg (Reg.FL_BUF (2 * i + 1))).toNat))

/-- The first `n` words of a page written from FL_BUF. -/
def pageWritten (page n : Nat) : State :=
  { s with flash := tsets (fun _ => erased) s.flash ((List.range n).map fun i => (page * 64 + i, bufWord s i)) }

theorem pageWritten_reads (page n : Nat) : (pageWritten s page n).fresh = s.fresh ∧ FlashOnly s (pageWritten s page n) ∧
    ∀ k, flashWord (pageWritten s page n) k = if page * 64 ≤ k ∧ k < page * 64 + n then bufWord s (k - page * 64) else flashWord s k :=
  ⟨rfl, ⟨rfl, rfl⟩, fun k => tget_tsets_range _ _ n (bufWord s) _ k⟩

variable {s} in
/-- PROGRAM of an erased page (R343). -/
theorem flProgram_reads {page : Nat} (h : ∀ i, i < 64 → flashWord s (page * 64 + i) = erased) : (flProgram s page).fresh = s.fresh ∧
    FlashOnly s (flProgram s page) ∧
    ∀ k, flashWord (flProgram s page) k = if page * 64 ≤ k ∧ k < page * 64 + 64 then bufWord s (k - page * 64) else flashWord s k := by
  have hall : (List.range 64).all (fun i => flashWord s (page * 64 + i) == erased) = true :=
    List.all_eq_true.mpr fun i hi => beq_iff_eq.mpr (h i (List.mem_range.mp hi))
  have heq : flProgram s page = pageWritten s page 64 := if_pos hall
  rw [heq]
  exact pageWritten_reads s page 64

/-- A command that does not take. -/
theorem flashFailed_reads : (s.raiseF Reg.FL_STAT_FAIL).flag Reg.FL_STAT_FAIL = true ∧ (s.raiseF Reg.FL_STAT_FAIL).flash = s.flash ∧
    (s.raiseF Reg.FL_STAT_FAIL).fresh = s.fresh ∧ FlashOnly s (s.raiseF Reg.FL_STAT_FAIL) :=
  ⟨flag_raiseF s _ (by decide) (by decide), rfl, rfl, rfl, raiseF_evs s _⟩

variable {s} in
theorem flProgram_of_written {page i : Nat} (hi : i < 64) (h : flashWord s (page * 64 + i) ≠ erased) : flProgram s page = s.raiseF Reg.FL_STAT_FAIL := by
  refine if_neg fun hall => h ?_
  exact beq_iff_eq.mp (List.all_eq_true.mp hall i (List.mem_range.mpr hi))

/-- ERASE (R343). -/
theorem flErase_reads (page : Nat) : (flErase s page).fresh = s.fresh ∧ FlashOnly s (flErase s page) ∧
    ∀ k, flashWord (flErase s page) k = if k / 32768 = page / 512 then erased else flashWord s k := by
  refine ⟨rfl, ⟨rfl, rfl⟩, fun k => (tget_filter_key _ (fun k => k / 32768 != page / 512) s.flash k).trans ?_⟩
  by_cases hk : k / 32768 = page / 512 <;> simp [hk, flashWord]

theorem flashOnly_flashActed (op page : Nat) (failed : Bool) : FlashOnly s (flashActed s op page failed) := by
  obtain ⟨-, -, -, hfailed⟩ := flashFailed_reads s
  unfold flashActed
  split
  · exact (flRead_reads s page).2.1
  · split
    · exact hfailed
    · split
      · unfold flProgram
        split
        · exact ⟨rfl, rfl⟩
        · exact hfailed
      · exact (flErase_reads s page).2.1

end

/-! ### The statement -/

/-- A FLASH command in progress that ends (R343). -/
theorem flashComplete_reads {s : State} {op page : Nat} (ha : s.alive = true) (hcmd : s.ld.flCmd = some (op, page)) (hon : s.ld.flOn = true) (failed : Bool) :
    ∃ t, exec (.flashCommandComplete failed) s = .next t ∧ t.flag Reg.FL_STAT_BUSY = false ∧ t.flag Reg.FL_STAT_DONE = true ∧
      t.raised = (s.raiseEv 224).raised ∧ t.ld = { s.ld with flCmd := none, flOn := false } ∧
      { t with regs := s.regs, cyc := s.cyc, raised := s.raised, ld := s.ld, flash := s.flash, fresh := s.fresh } = s ∧
      t.flash = (flashActed s op page failed).flash ∧ t.fresh = (flashActed s op page failed).fresh ∧
      BitsBut [Reg.FL_STAT_DONE, Reg.FL_STAT_BUSY] (flashActed s op page failed) t := by
  have hexec : exec (.flashCommandComplete failed) s = .next (flashEnded (flashActed s op page failed)) := by
    rw [exec_flashCommandComplete_of_command hcmd]
    exact okIf_of_true _ _ (by simp [ha, hon])
  have hacted := flashOnly_flashActed s op page failed
  refine ⟨_, hexec, ?_⟩
  generalize flashActed s op page failed = u at hacted ⊢
  obtain ⟨hbusy, hdone, hraised, hld, hflash, hfresh, hbits, hframe⟩ := flashEnded_reads u
  obtain ⟨huframe, huevs⟩ := hacted
  have huraised : u.raised = s.raised := (congrArg State.raised huframe :)
  have huclock : u.clockOn = s.clockOn := (congrArg State.clockOn huframe :)
  have huhalt : u.dbgHalt = s.dbgHalt := (congrArg State.dbgHalt huframe :)
  have huld : u.ld = s.ld := (congrArg State.ld huframe :)
  refine ⟨hbusy, hdone, hraised.trans (raiseEv_raised_congr 224 huraised huevs huclock huhalt), by rw [hld, huld], ?_, hflash, hfresh, hbits⟩
  have h1 := congrArg (fun x : State => { x with regs := s.regs, cyc := s.cyc, raised := s.raised, ld := s.ld, flash := s.flash, fresh := s.fresh }) hframe
  have h2 := congrArg (fun x : State => { x with raised := s.raised, ld := s.ld }) huframe
  exact (h1 :).trans h2

/-- Settles O39: the release, DONE, refetches and FLASH commands, each by its lemmas. -/
theorem releaseRefetchAndFlash : Obligations.ReleaseRefetchAndFlash := by
  unfold Obligations.ReleaseRefetchAndFlash
  intro s
  refine ⟨fun dt hp hst hi hr => stewardRelease_reads dt hp hst hi hr, ⟨fun hrel hdone hcur => ⟨fun hh => ?_, fun hh => ?_, fun hh ha => ?_⟩,
      fun h => ?_, fun h ha => ?_⟩,
    fun b rest bad hf hq => exec_refetch_of_flash hf hq, fun b rest bad ha hclock hfl hseg hq hb => ?_, fun sec ha => ⟨fun hst => ?_, fun hst => ?_⟩,
        fun ha => ?_⟩
  · refine ⟨_, ?_, doneReleased_releaseDone s⟩
    rw [exec_doneRelease]
    exact okIf_of_true _ _ (by simp [hrel, hdone, hcur, hh])
  · rw [exec_doneRelease]
    exact if_neg (by simp [hh])
  · refine ⟨_, (exec_doneGo_eq ha).trans (congrArg _ (if_pos (by simp [hrel, hdone, hcur, hh]))), ?_⟩
    exact (doneReleased_releaseDone (holdKept s)).of_onlyBits (onlyBits_holdKept s)
  · rw [exec_doneRelease]
    exact if_neg (by rcases h with h | h | h <;> simp [h])
  · refine ⟨_, (exec_doneGo_eq ha).trans (congrArg _ (if_neg ?_)), onlyBits_holdKept s⟩
    rcases h with h | h | h | h <;> simp [h]
  · have hserved : RefetchServed s b rest := ⟨ha, hclock, hfl, hseg, hq⟩
    intro sec x st pend failed due find regs counted
    refine ⟨fun hfail => ?_, fun e words hfind hbad hw hlen hclash => ?_⟩
    · obtain ⟨u, hexec, hread⟩ := exec_refetch_fails hserved hfail
      exact ⟨_, hexec, hread.failed_reads hb⟩
    · obtain ⟨u, hexec, hread⟩ := exec_refetch_writes hserved hfind hbad hw hclash
      exact ⟨_, hexec, hread.repaired_reads hb hlen⟩
  · exact ⟨_, exec_scrubRetry_of_failed ha sec hst, retryAsked_reads sec.val _⟩
  · exact exec_scrubRetry_of_not ha sec hst
  · intro page started guarded ignored
    have hread : exec .flashRead s = .next (flCmdWrite s 0x80000000#32) := by
      rw [exec_flashRead]
      exact if_pos ha
    have hprogram : exec .flashProgram s = .next (flCmdWrite s 0x80000001#32) := by
      rw [exec_flashProgram]
      exact if_pos ha
    have herase : exec .flashErase s = .next (flCmdWrite s 0x80000002#32) := by
      rw [exec_flashErase]
      exact if_pos ha
    have hv0 : CmdWord 0x80000000#32 0 := ⟨by decide, by decide, by decide⟩
    have hv1 : CmdWord 0x80000001#32 1 := ⟨by decide, by decide, by decide⟩
    have hv2 : CmdWord 0x80000002#32 2 := ⟨by decide, by decide, by decide⟩
    refine ⟨fun hb => ⟨⟨_, hread, ?_⟩, ⟨_, hprogram, ?_⟩, ⟨_, herase, ?_⟩⟩, fun hb => ⟨⟨_, hread, ?_⟩, fun hc => ⟨_, hprogram, ?_⟩, fun hc => ⟨_, hprogram, ?_⟩,
      fun hc => ⟨_, herase, ?_⟩, fun hc => ⟨_, herase, ?_⟩⟩, fun op page2 failed hcmd => ⟨fun hon => ?_, fun hon => ?_⟩⟩
    · rw [flCmdWrite_of_busy hv0 hb]
      exact opStored_reads s (by decide)
    · rw [flCmdWrite_of_busy hv1 hb]
      exact opStored_reads s (by decide)
    · rw [flCmdWrite_of_busy hv2 hb]
      exact opStored_reads s (by decide)
    · rw [flCmdWrite_of_accepted hv0 hb (.inl rfl)]
      exact flStarted_flStart s (by decide)
    · rw [flCmdWrite_of_accepted hv1 hb (.inr hc)]
      exact flStarted_flStart s (by decide)
    · rw [flCmdWrite_of_guarded hv1 hb (by decide) hc]
      exact guarded_reads s (by decide)
    · rw [flCmdWrite_of_accepted hv2 hb (.inr hc)]
      exact flStarted_flStart s (by decide)
    · rw [flCmdWrite_of_guarded hv2 hb (by decide) hc]
      exact guarded_reads s (by decide)
    · rw [exec_flashCommandComplete_of_command hcmd]
      exact if_neg (by simp [hon])
    · obtain ⟨t, hexec, hbusy, hdone, hraised, hld, hframe, hflash, hfresh, hbits⟩ := flashComplete_reads ha hcmd hon failed
      refine ⟨t, hexec, hbusy, hdone, hraised, hld, hframe, fun h0 => ?_, fun h1 hok herased => ?_, fun h1 hbad => ?_, fun h2 hok => ?_, fun h2 hbad => ?_⟩
      · subst h0
        obtain ⟨hkeep, -, hwords⟩ := flRead_reads s page2
        have hbuf (k : Nat) : t.reg (Reg.FL_BUF k) = (flRead s page2).reg (Reg.FL_BUF k) := by
          refine reg_of_bitsBut hbits fun f hf => ?_
          have hreg : ∀ f ∈ [Reg.FL_STAT_DONE, Reg.FL_STAT_BUSY], f.reg = 0xE0008 := by decide
          rw [hreg f hf]
          show 0xE0008 ≠ 0xE0200 + 4 * k
          omega
        refine ⟨hflash.trans hkeep, fun i v hi hv => ?_⟩
        rw [hbuf, hbuf]
        exact hwords i v hi hv
      · subst h1 hok
        obtain ⟨hkeep, -, hwords⟩ := flProgram_reads herased
        exact ⟨hfresh.trans hkeep, fun k => (flashWord_congr hflash k).trans (hwords k)⟩
      · have hacted : flashActed s op page2 failed = s.raiseF Reg.FL_STAT_FAIL := by
          subst h1
          rcases hbad with hbad | ⟨i, hi, hne⟩
          · exact if_pos hbad
          · cases failed with
            | true => rfl
            | false => exact flProgram_of_written hi hne
        rw [hacted] at hflash hfresh hbits
        obtain ⟨hfail, hkeep, hkeep2, -⟩ := flashFailed_reads s
        exact ⟨hflash.trans hkeep, hfresh.trans hkeep2, (flag_of_bitsBut hbits (by decide)).trans hfail⟩
      · subst h2 hok
        obtain ⟨hkeep, -, hwords⟩ := flErase_reads s page2
        exact ⟨hfresh.trans hkeep, fun k => (flashWord_congr hflash k).trans (hwords k)⟩
      · have hacted : flashActed s op page2 failed = s.raiseF Reg.FL_STAT_FAIL := by
          subst h2
          exact if_pos hbad
        rw [hacted] at hflash hfresh hbits
        obtain ⟨hfail, hkeep, hkeep2, -⟩ := flashFailed_reads s
        exact ⟨hflash.trans hkeep, hfresh.trans hkeep2, (flag_of_bitsBut hbits (by decide)).trans hfail⟩

end Sys2Proof.Machine

/-!
SUPPORT. Steward cores (18_steward_events.md R362 to R372): one core changed and nothing else, traps, requests to the snoop hub, and the
instruction that a core has fetched.
-/

namespace Sys2Proof.Machine

/-! ### One core -/

/-- Of everything only core `i` differs, which is `d` now. -/
def CoreOnly (s : State) (i : Nat) (t : State) (d : Core) : Prop :=
  t.core i = d ∧ (∀ j, j ≠ i → t.core j = s.core j) ∧ { t with cores := s.cores } = s

/-- A core past an instruction. -/
def Core.goes (d : Core) (pc : Nat) : Core := { d with pc := pc, retired := (d.retired + 1) % 2 ^ 64, wait := .none, ubuf := [] }

section
variable {s t : State} {i : Nat} {d : Core}

theorem CoreOnly.refl (s : State) (i : Nat) : CoreOnly s i s (s.core i) := ⟨rfl, fun _ _ => rfl, rfl⟩

theorem CoreOnly.setCore (h : CoreOnly s i t d) (e : Core) : CoreOnly s i (t.setCore i e) e := by
  obtain ⟨-, hrest, hframe⟩ := h
  exact ⟨tget_tset_self _ _ _ _, fun j hj => (tget_tset_ne _ _ _ _ _ hj).trans (hrest j hj), hframe⟩

theorem CoreOnly.retire (h : CoreOnly s i t d) (npc : Nat) : CoreOnly s i (coreRetire t i npc) (d.goes npc) := by
  obtain rfl := h.1
  exact h.setCore ((t.core i).goes npc)

theorem CoreOnly.finish (h : CoreOnly s i t d) (npc rd v : Nat) : CoreOnly s i (coreFinish t i npc rd v) ((d.setX rd v).goes npc) := by
  obtain rfl := h.1
  exact (h.setCore ((t.core i).setX rd v)).retire npc

/-! ### Registers -/

theorem rx_setX_self (d : Core) {r : Nat} (hr : r ≠ 0) (v : Nat) : (d.setX r v).rx r = v % 2 ^ 64 := by
  unfold Core.rx Core.setX
  rw [if_neg hr, if_neg hr, tget_tset_self, BitVec.toNat_ofNat]

theorem rx_lt (d : Core) (r : Nat) : d.rx r < 2 ^ 64 := by
  unfold Core.rx
  split
  · decide
  · exact BitVec.isLt _

/-- What a register write leaves of a core. -/
theorem setX_keeps (d : Core) (r v : Nat) : (d.setX r v).resv = d.resv ∧ (d.setX r v).dword = d.dword ∧ (d.setX r v).dline = d.dline ∧
    (d.setX r v).cycle0 = d.cycle0 := by
  unfold Core.setX
  split <;> exact ⟨rfl, rfl, rfl, rfl⟩

theorem csrGet_csrPut_self (d : Core) (n v : Nat) : (d.csrPut n v).csrGet n = v % 2 ^ 64 := by
  unfold Core.csrGet Core.csrPut
  rw [tget_tset_self, BitVec.toNat_ofNat]

theorem csrGet_csrPut_ne (d : Core) {n m : Nat} (v : Nat) (h : m ≠ n) : (d.csrPut n v).csrGet m = d.csrGet m := by
  unfold Core.csrGet Core.csrPut
  rw [tget_tset_ne _ _ _ _ _ h]

end

/-! ### Traps -/

/-- Where a trap goes (Table 18.1). -/
def trapBase (d : Core) (cause : Nat) (int : Bool) : Nat :=
  if int = true ∧ d.csrGet 0x305 % 4 = 1 then d.csrGet 0x305 / 4 * 4 + 4 * cause else d.csrGet 0x305 / 4 * 4

/-- The CSRs of a core that takes a trap. -/
def trapCsrs (d : Core) (cause : Nat) (int : Bool) (tval : Nat) : Core :=
  (((d.csrPut 0x341 d.pc).csrPut 0x342 (cause + if int then 2 ^ 63 else 0)).csrPut 0x343 tval).csrPut 0x300 (128 * (d.csrGet 0x300 / 8 % 2))

/-- A core that has taken a trap. -/
def Core.trapped (d : Core) (cause : Nat) (int : Bool) (tval : Nat) : Core :=
  { trapCsrs d cause int tval with pc := trapBase d cause int % 2 ^ 64, wait := .none, ubuf := [] }

section
variable {s t : State} {i : Nat} {d : Core} (cause : Nat) (int : Bool) (tval : Nat)

theorem coreTrap_eq : coreTrap t i cause int tval = t.setCore i ((t.core i).trapped cause int tval) := rfl

theorem CoreOnly.trap (h : CoreOnly s i t d) : CoreOnly s i (coreTrap t i cause int tval) (d.trapped cause int tval) := by
  obtain rfl := h.1
  exact h.setCore ((t.core i).trapped cause int tval)

/-- The CSRs of a trap. -/
theorem trapped_csrs (d : Core) : (d.trapped cause int tval).csrGet 0x341 = d.pc % 2 ^ 64 ∧
    (d.trapped cause int tval).csrGet 0x342 = (cause + if int then 2 ^ 63 else 0) % 2 ^ 64 ∧
    (d.trapped cause int tval).csrGet 0x343 = tval % 2 ^ 64 ∧ (d.trapped cause int tval).csrGet 0x300 = 128 * (d.csrGet 0x300 / 8 % 2) := by
  have hget (n : Nat) : (d.trapped cause int tval).csrGet n = (trapCsrs d cause int tval).csrGet n := rfl
  simp only [hget]
  unfold trapCsrs
  refine ⟨?_, ?_, ?_, ?_⟩
  · rw [csrGet_csrPut_ne _ _ (by decide), csrGet_csrPut_ne _ _ (by decide), csrGet_csrPut_ne _ _ (by decide), csrGet_csrPut_self]
  · rw [csrGet_csrPut_ne _ _ (by decide), csrGet_csrPut_ne _ _ (by decide), csrGet_csrPut_self]
  · rw [csrGet_csrPut_ne _ _ (by decide), csrGet_csrPut_self]
  · rw [csrGet_csrPut_self]
    exact Nat.mod_eq_of_lt (by omega)

/-- Core `i` takes a trap with a cause, to a place. -/
def Trapped (s : State) (i : Nat) (t : State) (cause base : Nat) : Prop :=
  (t.core i).csrGet 0x341 = (s.core i).pc % 2 ^ 64 ∧ (t.core i).csrGet 0x342 = cause ∧
    (t.core i).csrGet 0x300 = 128 * ((s.core i).csrGet 0x300 / 8 % 2) ∧ (t.core i).pc = base % 2 ^ 64 ∧ (t.core i).wait = .none ∧
    (t.core i).x = (s.core i).x ∧ (t.core i).retired = (s.core i).retired ∧ (t.core i).dline = (s.core i).dline ∧
    (t.core i).dword = (s.core i).dword ∧ (∀ j, j ≠ i → t.core j = s.core j)

theorem CoreOnly.trapped (h : CoreOnly s i t ((s.core i).trapped cause int tval)) :
    Trapped s i t ((cause + if int then 2 ^ 63 else 0) % 2 ^ 64) (trapBase (s.core i) cause int) := by
  obtain ⟨hself, hrest, -⟩ := h
  obtain ⟨h341, h342, -, h300⟩ := trapped_csrs cause int tval (s.core i)
  rw [Trapped, hself]
  exact ⟨h341, h342, h300, rfl, rfl, rfl, rfl, rfl, rfl, hrest⟩

/-- A trap that is no interrupt. -/
theorem trapped_coreTrap (s : State) (i : Nat) : Trapped s i (coreTrap s i cause false tval) (cause % 2 ^ 64) ((s.core i).csrGet 0x305 / 4 * 4) ∧
    ((coreTrap s i cause false tval).core i).csrGet 0x343 = tval % 2 ^ 64 ∧ { coreTrap s i cause false tval with cores := s.cores } = s := by
  have h := (CoreOnly.refl s i).trap cause false tval
  obtain ⟨-, -, h343, -⟩ := trapped_csrs cause false tval (s.core i)
  exact ⟨h.trapped cause false tval, (congrArg (fun d : Core => d.csrGet 0x343) h.1).trans h343, h.2.2⟩

theorem trapped_coreTrapFree (s : State) (i : Nat) : Trapped s i (coreTrapFree s i cause) (cause % 2 ^ 64) ((s.core i).csrGet 0x305 / 4 * 4) :=
  (trapped_coreTrap cause (Config.mtval s.draw.1).toNat s.draw.2 i).1

end

/-! ### Requests to the snoop hub -/

section
variable {s t : State} {i : Nat}

/-- The request tags that a core may take. -/
def coreTags (s : State) (i : Nat) : List Nat := (freeTags s (0x200 + i) false).filter (fun t => t < 64)

/-- Core `i` asks the snoop hub for the line of an address, or waits (R367). -/
def AsksHub (s : State) (i : Nat) (t : State) (kind a : Nat) : Prop :=
  (coreTags s i ≠ [] → wbOpen (s.core i) (a / 64) = false → ∃ tag, tag ∈ coreTags s i ∧
    t.core i = { s.core i with wait := .coh kind (a / 64) a 1, snp := some tag } ∧ (∀ j, j ≠ i → t.core j = s.core j) ∧
    (let r := initiatorRouter (0x200 + i)
     tget (fun _ => []) t.inject r = tget (fun _ => []) s.inject r ++
      [(3, 0, .snp (snpFlit (snpKind kind) i 0 (a / 64) tag 0 0) hubRouter)]) ∧
    { t with cores := s.cores, inject := s.inject, fresh := s.fresh } = s) ∧
  (coreTags s i = [] ∨ wbOpen (s.core i) (a / 64) = true → t = s)

theorem askHub_of_wait (kind a : Nat) (h : coreTags s i = [] ∨ wbOpen (s.core i) (a / 64) = true) : askHub s i kind (a / 64) a = s := by
  change (match coreTags s i with
    | [] => s
    | t :: ts => if wbOpen (s.core i) (a / 64) then s else _) = s
  cases hfree : coreTags s i with
  | nil => rfl
  | cons t ts =>
    rcases h with h | h
    · exact absurd (hfree.symm.trans h) (List.cons_ne_nil t ts)
    · exact if_pos h

/-- The request under a tag. -/
def hubAsked (s : State) (i kind line addr tag : Nat) : State :=
  sendSnp (s.draw.2.setCore i { s.draw.2.core i with wait := .coh kind line addr 1, snp := some tag }) (initiatorRouter (coreId i))
    (snpFlit (snpKind kind) i 0 line tag 0 0) hubRouter

theorem askHub_of_tags {tag : Nat} {tags : List Nat} (kind a : Nat) (h : coreTags s i = tag :: tags) (hw : wbOpen (s.core i) (a / 64) = false) :
    askHub s i kind (a / 64) a = hubAsked s i kind (a / 64) a ((tag :: tags).getD (Config.tagPick s.draw.1 % (tags.length + 1)) tag) := by
  unfold askHub
  rw [show (freeTags s (coreId i) false).filter (fun t => t < 64) = tag :: tags from h]
  exact if_neg (Bool.eq_false_iff.mp hw)

theorem asksHub_askHub (s : State) (i kind a : Nat) : AsksHub s i (askHub s i kind (a / 64) a) kind a := by
  refine ⟨fun hfree hw => ?_, fun h => askHub_of_wait kind a h⟩
  cases htags : coreTags s i with
  | nil => exact absurd htags hfree
  | cons tag tags =>
    rw [askHub_of_tags kind a htags hw]
    have hlt : Config.tagPick s.draw.1 % (tags.length + 1) < (tag :: tags).length := Nat.mod_lt _ (Nat.succ_pos _)
    have hmem : (tag :: tags).getD (Config.tagPick s.draw.1 % (tags.length + 1)) tag ∈ tag :: tags := by
      rw [List.getD_eq_getElem _ _ hlt]
      exact List.getElem_mem hlt
    generalize (tag :: tags).getD (Config.tagPick s.draw.1 % (tags.length + 1)) tag = pick at hmem ⊢
    exact ⟨pick, hmem, tget_tset_self _ _ _ _, fun j hj => tget_tset_ne _ _ _ _ _ hj, tget_tset_self _ _ _ _, rfl⟩

end

/-! ### The instruction at hand -/

/-- Core `i` runs, its cycle is open, it waits for nothing and no interrupt is due, and an instruction is there. -/
def Fetched (s : State) (i : Nat) (ins : Rv) (len : Nat) : Prop :=
  coreRuns s i = true ∧ s.gateOpen 5 = true ∧ (s.core i).wait = .none ∧ coreInterrupt s i = none ∧ coreFetch s i = (s, some (ins, len))

section
variable {s : State} {i : Nat} {ins : Rv} {len : Nat}

theorem coreRow_of_fetched (h : Fetched s i ins len) (mine : Rv → Bool) (run : State → Rv → Nat → State) :
    coreRow s i mine run = .next (if mine ins then run s ins len else s) := by
  obtain ⟨hr, hg, hw, hi, hf⟩ := h
  have hready : coreReady (s.core i) = true := by
    unfold coreReady
    rw [hw]
  unfold coreRow
  rw [if_pos (by simp [hr, hg, hready, hi]), hf]
  dsimp only
  split <;> rfl

theorem coreRow_of_closed (hg : s.gateOpen 5 = false) (mine : Rv → Bool) (run : State → Rv → Nat → State) : coreRow s i mine run = .next s := by
  unfold coreRow
  exact if_neg (by simp [hg])

end

section
variable {s : State} {i : Fin 4} {ins : Rv} {len : Nat}

theorem exec_stewardInstruction_of_row (hr : coreRuns s i.val = true) (hw : (s.core i.val).wait = .none) (hi : coreInterrupt s i.val = none) :
    exec (.stewardInstruction i) s = coreRow s i.val plainRv (fun t ins len => coreRun t i.val ins len) := by
  rw [exec_stewardInstruction]
  unfold execStewardInstruction
  rw [if_pos hr, hw]
  dsimp only
  rw [hi]

theorem exec_stewardInstruction_of_fetched (h : Fetched s i.val ins len) (hp : plainRv ins = true) :
    exec (.stewardInstruction i) s = .next (coreRun s i.val ins len) := by
  rw [exec_stewardInstruction_of_row h.1 h.2.2.1 h.2.2.2.1, coreRow_of_fetched h, if_pos hp]

theorem exec_wfi_of_row (hw : (s.core i.val).wait = .none) : exec (.wfi i) s = coreRow s i.val (fun ins => ins == .wfi) (fun t _ len =>
    if coreInts t i.val != 0 then coreRetire t i.val (coreNext t i.val len) else t.setCore i.val { t.core i.val with wait := .wfi }) := by
  rw [exec_wfi]
  exact if_neg (by simp [hw])

end

end Sys2Proof.Machine

/-!
SUPPORT. Loads, stores and atomics of steward cores (18_steward_events.md R365, R370, R371), and the statement on their instructions.
-/

namespace Sys2Proof.Machine

/-! ### Loads and stores -/

section
variable {s : State} {i k line a size npc : Nat} {w : BitVec 64}

theorem dWord_of_clean {j : Nat} (h : cwDecode (dWordAt (s.core i) k j) = .clean w) : dWord s i k line j = (s, some w.toNat, false) := by
  unfold dWord decVal
  rw [h]

theorem coreLoad_of_misaligned (h : a % size ≠ 0) (rd : Nat) (signed : Bool) : coreLoad s i rd a size signed npc = coreTrap s i 4 false a := if_pos h

theorem coreLoad_of_miss (h : a % size = 0) (hc : cacheable a = true) (hd : dSlot (s.core i) (a / 64) = none) (rd : Nat) (signed : Bool) :
    coreLoad s i rd a size signed npc = askHub s i 1 (a / 64) a := by
  unfold coreLoad
  dsimp only
  rw [if_neg (not_not.mpr h), if_pos hc, hd]

theorem coreLoad_of_hit (h : a % size = 0) (hc : cacheable a = true) (hd : dSlot (s.core i) (a / 64) = some k)
    (hw : cwDecode (dWordAt (s.core i) k (a % 64 / 8)) = .clean w) (rd : Nat) (signed : Bool) :
    coreLoad s i rd a size signed npc = coreFinish s i npc rd (loadExt 64 size signed (w.toNat / 2 ^ (8 * (a % 8)))) := by
  unfold coreLoad
  dsimp only
  rw [if_neg (not_not.mpr h), if_pos hc, hd]
  dsimp only
  rw [dWord_of_clean hw]

theorem ownLine_of_miss (hd : dSlot (s.core i) line = none) (lr : Bool) : ownLine s i line a lr = (askHub s i (if lr then 7 else 2) line a, none) := by
  unfold ownLine
  rw [hd]

theorem ownLine_of_shared (hd : dSlot (s.core i) line = some k) (hs : dState (s.core i) k = 1) (lr : Bool) :
    ownLine s i line a lr = (askHub s i (if lr then 8 else 3) line a, none) := by
  unfold ownLine
  rw [hd]
  dsimp only
  rw [hs]
  rfl

theorem ownLine_of_modified (hd : dSlot (s.core i) line = some k) (hs : dState (s.core i) k = 3) (lr : Bool) : ownLine s i line a lr = (s, some k) := by
  unfold ownLine
  rw [hd]
  dsimp only
  rw [hs]
  rfl

theorem ownWord_of_miss (hd : dSlot (s.core i) line = none) (lr : Bool) : ownWord s i line a lr = (askHub s i (if lr then 7 else 2) line a, none) := by
  unfold ownWord
  rw [hd]

theorem ownWord_of_modified (hd : dSlot (s.core i) line = some k) (hs : dState (s.core i) k = 3)
    (hw : cwDecode (dWordAt (s.core i) k (a % 64 / 8)) = .clean w) (lr : Bool) : ownWord s i line a lr = (s, some (k, w.toNat)) := by
  unfold ownWord
  rw [hd]
  dsimp only
  rw [dWord_of_clean hw]
  dsimp only
  rw [ownLine_of_modified hd hs]

theorem coreStore_of_misaligned (h : a % size ≠ 0) (v : Nat) : coreStore s i a size v npc = coreTrap s i 6 false a := if_pos h

theorem coreStore_of_miss (h : a % size = 0) (hc : cacheable a = true) (hd : dSlot (s.core i) (a / 64) = none) (v : Nat) :
    coreStore s i a size v npc = askHub s i 2 (a / 64) a := by
  unfold coreStore
  dsimp only
  rw [if_neg (not_not.mpr h), if_pos hc, ownLine_of_miss hd, ownWord_of_miss hd]
  exact ite_self _

theorem coreStore_of_shared (h : a % 8 = 0) (hc : cacheable a = true) (hd : dSlot (s.core i) (a / 64) = some k) (hs : dState (s.core i) k = 1) (v : Nat) :
    coreStore s i a 8 v npc = askHub s i 3 (a / 64) a := by
  unfold coreStore
  dsimp only
  rw [if_neg (not_not.mpr h), if_pos hc, ownLine_of_shared hd hs]
  rfl

theorem coreStore_of_modified (h : a % 8 = 0) (hc : cacheable a = true) (hd : dSlot (s.core i) (a / 64) = some k) (hs : dState (s.core i) k = 3) (v : Nat) :
    coreStore s i a 8 v npc = coreRetire (s.setCore i (dPut (s.core i) k (a % 64 / 8) v)) i npc := by
  unfold coreStore
  dsimp only
  rw [if_neg (not_not.mpr h), if_pos hc, ownLine_of_modified hd hs]
  rfl

/-! ### CSRs -/

/-- CSRRW of a CSR that a core may write and that holds `old`. -/
theorem coreCsr_of_write {num old : Nat} (rd rs1 : Nat) (hread : csrRead s i num = (s, some old)) (hnum : num < 0xB02) :
    coreCsr s i 1 rd rs1 num npc = coreFinish (s.setCore i (csrWrite s.stwCycle (s.core i) num ((s.core i).rx rs1))) i npc rd old := by
  have hyes : 1 % 4 = 1 ∨ rs1 ≠ 0 := .inl rfl
  have hopen : ¬ ((1 % 4 = 1 ∨ rs1 ≠ 0) ∧ 0xC00 ≤ num) := fun h => absurd h.2 (by omega)
  have hfew : ¬ ((1 % 4 = 1 ∨ rs1 ≠ 0) ∧ num = 0xB02) := fun h => absurd h.2 (by omega)
  unfold coreCsr
  dsimp only
  rw [hread]
  dsimp only
  rw [if_neg hopen, if_neg hfew, if_pos hyes]
  rfl

theorem csrRead_scratch : csrRead s i 0x340 = (s, some ((s.core i).csrGet 0x340)) := rfl

theorem csrRead_mcycle : csrRead s i 0xB00 = (s, some (mcycle s i)) := rfl

/-- mcycle counts from what was written (R362). -/
theorem mcycle_of_written {t : State} {v : Nat} (ht : t.time = s.time) (hv : v < 2 ^ 64)
    (hc : (t.core i).cycle0 = (s.stwCycle + 2 ^ 64 - v % 2 ^ 64) % 2 ^ 64) : mcycle t i = v := by
  have hstw : t.stwCycle = s.stwCycle := congrArg (fun x : TimeState => x.vco / 5) ht
  unfold mcycle
  rw [hc, hstw]
  generalize s.stwCycle = now
  omega

/-! ### Atomics -/

theorem amoOld_of_aligned (h : a % 8 = 0) (w : BitVec 64) : amoOld w.toNat a 8 = w.toNat := by
  unfold amoOld
  rw [h, Nat.mul_zero, Nat.pow_zero, Nat.div_one]
  exact Nat.mod_eq_of_lt w.isLt

theorem coreMerge_of_aligned (h : a % 8 = 0) (w : BitVec 64) (v : Nat) : coreMerge w.toNat a 8 v = v % 2 ^ 64 := by
  unfold coreMerge
  dsimp only
  rw [h, Nat.mul_zero, Nat.pow_zero, Nat.zero_add, Nat.mod_one, Nat.mul_one, Nat.zero_add, Nat.div_eq_of_lt w.isLt, Nat.zero_mul, Nat.add_zero]

theorem loadExt_word (w : BitVec 64) : loadExt 64 8 true w.toNat % 2 ^ 64 = w.toNat := by
  have hlt := w.isLt
  have hpow : ((2 ^ 64 : Nat) : Int) = 18446744073709551616 := by norm_num
  unfold loadExt wrapN sext
  dsimp only
  rw [if_pos rfl, hpow]
  split <;> omega

/-- What an atomic stores at its place. -/
def amoPut (d : Core) (k a : Nat) (w : BitVec 64) (new : Option Nat) : Core :=
  match new with
  | some v => dPut d k (a % 64 / 8) (coreMerge w.toNat a 8 v)
  | none => d

theorem cachedAmo_of_miss (hd : dSlot (s.core i) (a / 64) = none) (rd : Nat) (f : Core → Nat → Option Nat × Nat) (resv : Option Nat) (lr : Bool) :
    cachedAmo s i a size rd npc f resv lr = askHub s i (if lr then 7 else 2) (a / 64) a := by
  unfold cachedAmo
  rw [ownWord_of_miss hd]

variable (npc) in
/-- An atomic on a line in M (R370). -/
theorem coreOnly_cachedAmo (ha : a % 8 = 0) (hd : dSlot (s.core i) (a / 64) = some k) (hs : dState (s.core i) k = 3)
    (hw : cwDecode (dWordAt (s.core i) k (a % 64 / 8)) = .clean w) (rd : Nat) (f : Core → Nat → Option Nat × Nat) (resv : Option Nat) (lr : Bool) :
    CoreOnly s i (cachedAmo s i a 8 rd npc f resv lr)
      (({ amoPut (s.core i) k a w (f (s.core i) w.toNat).1 with resv := resv }.setX rd (f (s.core i) w.toNat).2).goes npc) := by
  have heq : cachedAmo s i a 8 rd npc f resv lr =
      coreFinish (s.setCore i { amoPut (s.core i) k a w (f (s.core i) (amoOld w.toNat a 8)).1 with resv := resv }) i npc rd
        (f (s.core i) (amoOld w.toNat a 8)).2 := by
    unfold cachedAmo
    rw [ownWord_of_modified hd hs hw]
    rfl
  rw [heq, amoOld_of_aligned ha]
  exact ((CoreOnly.refl s i).setCore _).finish npc rd _

theorem dWordAt_dPut (d : Core) (k j v : Nat) : dWordAt (dPut d k j v) k j = cwEncode (BitVec.ofNat 64 v) := tget_tset_self _ _ _ _

/-- What an atomic that stores leaves of its core. -/
theorem amoDone_reads (d : Core) (k : Nat) (ha : a % 8 = 0) (w : BitVec 64) (v rd x : Nat) (resv : Option Nat) :
    let e := ({ amoPut d k a w (some v) with resv := resv }.setX rd x).goes npc
    e.resv = resv ∧ e.pc = npc ∧ (rd ≠ 0 → e.rx rd = x % 2 ^ 64) ∧ dWordAt e k (a % 64 / 8) = cwEncode (BitVec.ofNat 64 v) := by
  intro e
  obtain ⟨hresv, hword, -, -⟩ := setX_keeps { amoPut d k a w (some v) with resv := resv } rd x
  refine ⟨hresv, rfl, fun hr => rx_setX_self _ hr x, ?_⟩
  have hput : dWordAt (amoPut d k a w (some v)) k (a % 64 / 8) = cwEncode (BitVec.ofNat 64 v) := by
    refine (dWordAt_dPut d k (a % 64 / 8) _).trans (congrArg cwEncode (BitVec.eq_of_toNat_eq ?_))
    rw [coreMerge_of_aligned ha, BitVec.toNat_ofNat, BitVec.toNat_ofNat, Nat.mod_mod]
  exact (congrArg (fun tab => tget (fun _ => 0) tab (8 * k + a % 64 / 8)) hword).trans hput

end

end Sys2Proof.Machine

/-!
SUPPORT. What a steward core does with the instruction that it has fetched (18_steward_events.md R362 to R371), and the statement on it.
-/

namespace Sys2Proof.Machine

/-! ### Instructions with a row in common -/

section
variable {s : State} {i : Fin 4} {len : Nat}

/-- An instruction that computes runs in the common row. -/
theorem plainRv_of_plain {ins : Rv} {w pc : Nat} {x : Nat → Nat} {r : Nat × Nat × Nat} (h : rvPlain w ins len pc x = some r) : plainRv ins = true := by
  cases ins with
  | lui | auipc | jal | jalr | branch | opImm | op => rfl
  | load | store | fence | fenceI | ecall | ebreak | wfi | mret | csr | lr | sc | amo | cbo | custom | illegal => cases h

theorem exec_of_plain {ins : Rv} {n rd v : Nat} (h : Fetched s i.val ins len)
    (hv : rvPlain 64 ins len (s.core i.val).pc (s.core i.val).rx = some (n, rd, v)) :
    ∃ t, exec (.stewardInstruction i) s = .next t ∧ CoreOnly s i.val t (((s.core i.val).setX rd v).goes n) := by
  have hrun : coreRun s i.val ins len = coreFinish s i.val n rd v := by
    unfold coreRun
    dsimp only
    rw [hv]
  exact ⟨_, (exec_stewardInstruction_of_fetched h (plainRv_of_plain hv)).trans (congrArg Host.Outcome.next hrun), (CoreOnly.refl s i.val).finish n rd v⟩

/-- A trap whose value is an address. -/
theorem trapped_at (s : State) (i cause : Nat) {a : Nat} (ha : a < 2 ^ 64) (hc : cause < 2 ^ 64) :
    Trapped s i (coreTrap s i cause false a) cause ((s.core i).csrGet 0x305 / 4 * 4) ∧ ((coreTrap s i cause false a).core i).csrGet 0x343 = a := by
  obtain ⟨htrap, htval, -⟩ := trapped_coreTrap cause a s i
  rw [Nat.mod_eq_of_lt hc] at htrap
  exact ⟨htrap, htval.trans (Nat.mod_eq_of_lt ha)⟩

theorem exec_load {rd rs1 size : Nat} {imm : Int} {signed : Bool} (h : Fetched s i.val (.load rd rs1 imm size signed) len) :
    let a := wrapN 64 (((s.core i.val).rx rs1 : Int) + imm)
    (a % size ≠ 0 → ∃ t, exec (.stewardInstruction i) s = .next t ∧ Trapped s i.val t 4 ((s.core i.val).csrGet 0x305 / 4 * 4) ∧
      (t.core i.val).csrGet 0x343 = a) ∧
    (a % size = 0 → cacheable a = true → dSlot (s.core i.val) (a / 64) = none →
      ∃ t, exec (.stewardInstruction i) s = .next t ∧ AsksHub s i.val t 1 a) ∧
    (∀ k w, a % size = 0 → cacheable a = true → dSlot (s.core i.val) (a / 64) = some k → cwDecode (dWordAt (s.core i.val) k (a % 64 / 8)) = .clean w →
      ∃ t, exec (.stewardInstruction i) s = .next t ∧
        CoreOnly s i.val t (((s.core i.val).setX rd (loadExt 64 size signed (w.toNat / 2 ^ (8 * (a % 8))))).goes (coreNext s i.val len))) := by
  intro a
  have hrun {t : State} (ht : coreLoad s i.val rd a size signed (coreNext s i.val len) = t) : exec (.stewardInstruction i) s = .next t :=
    (exec_stewardInstruction_of_fetched h rfl).trans (congrArg Host.Outcome.next ht)
  refine ⟨fun hm => ⟨_, hrun (coreLoad_of_misaligned hm rd signed), trapped_at s i.val 4 (wrapN_lt 64 _) (by decide)⟩,
    fun hm hc hd => ⟨_, hrun (coreLoad_of_miss hm hc hd rd signed), asksHub_askHub s i.val 1 a⟩,
    fun k w hm hc hd hw => ⟨_, hrun (coreLoad_of_hit hm hc hd hw rd signed), (CoreOnly.refl s i.val).finish _ rd _⟩⟩

theorem exec_store {rs1 rs2 size : Nat} {imm : Int} (h : Fetched s i.val (.store rs1 rs2 imm size) len) :
    let a := wrapN 64 (((s.core i.val).rx rs1 : Int) + imm)
    (a % size ≠ 0 → ∃ t, exec (.stewardInstruction i) s = .next t ∧ Trapped s i.val t 6 ((s.core i.val).csrGet 0x305 / 4 * 4) ∧
      (t.core i.val).csrGet 0x343 = a) ∧
    (a % size = 0 → cacheable a = true → dSlot (s.core i.val) (a / 64) = none →
      ∃ t, exec (.stewardInstruction i) s = .next t ∧ AsksHub s i.val t 2 a) ∧
    (∀ k, a % size = 0 → size = 8 → cacheable a = true → dSlot (s.core i.val) (a / 64) = some k → dState (s.core i.val) k = 1 →
      ∃ t, exec (.stewardInstruction i) s = .next t ∧ AsksHub s i.val t 3 a) ∧
    (∀ k, a % size = 0 → size = 8 → cacheable a = true → dSlot (s.core i.val) (a / 64) = some k → dState (s.core i.val) k = 3 →
      ∃ t, exec (.stewardInstruction i) s = .next t ∧
        CoreOnly s i.val t ((dPut (s.core i.val) k (a % 64 / 8) ((s.core i.val).rx rs2)).goes (coreNext s i.val len))) := by
  intro a
  have hrun {t : State} (ht : coreStore s i.val a size ((s.core i.val).rx rs2) (coreNext s i.val len) = t) : exec (.stewardInstruction i) s = .next t :=
    (exec_stewardInstruction_of_fetched h rfl).trans (congrArg Host.Outcome.next ht)
  refine ⟨fun hm => ⟨_, hrun (coreStore_of_misaligned hm _), trapped_at s i.val 6 (wrapN_lt 64 _) (by decide)⟩,
    fun hm hc hd => ⟨_, hrun (coreStore_of_miss hm hc hd _), asksHub_askHub s i.val 2 a⟩, ?_, ?_⟩
  · rintro k hm rfl hc hd hs
    exact ⟨_, hrun (coreStore_of_shared hm hc hd hs _), asksHub_askHub s i.val 3 a⟩
  · rintro k hm rfl hc hd hs
    exact ⟨_, hrun (coreStore_of_modified hm hc hd hs _), ((CoreOnly.refl s i.val).setCore _).retire _⟩

theorem exec_csr_of_write {rd rs1 num old : Nat} (h : Fetched s i.val (.csr 1 rd rs1 num) len) (hread : csrRead s i.val num = (s, some old))
    (hnum : num < 0xB02) : ∃ t, exec (.stewardInstruction i) s = .next t ∧
      CoreOnly s i.val t (((csrWrite s.stwCycle (s.core i.val) num ((s.core i.val).rx rs1)).setX rd old).goes (coreNext s i.val len)) :=
  ⟨_, (exec_stewardInstruction_of_fetched h rfl).trans (congrArg Host.Outcome.next (coreCsr_of_write rd rs1 hread hnum)),
    ((CoreOnly.refl s i.val).setCore _).finish _ rd old⟩

theorem exec_csr_mcycle {rd rs1 : Nat} (h : Fetched s i.val (.csr 1 rd rs1 0xB00) len) :
    ∃ t, exec (.stewardInstruction i) s = .next t ∧ mcycle t i.val = (s.core i.val).rx rs1 ∧
      (rd ≠ 0 → (t.core i.val).rx rd = mcycle s i.val) ∧ (t.core i.val).pc = coreNext s i.val len ∧ (∀ j, j ≠ i.val → t.core j = s.core j) ∧
      { t with cores := s.cores } = s := by
  obtain ⟨t, hexec, hself, hrest, hframe⟩ := exec_csr_of_write h csrRead_mcycle (by decide)
  have hkept := (setX_keeps (csrWrite s.stwCycle (s.core i.val) 0xB00 ((s.core i.val).rx rs1)) rd (mcycle s i.val)).2.2.2
  refine ⟨t, hexec, mcycle_of_written (congrArg State.time hframe :) (rx_lt _ rs1) ((congrArg Core.cycle0 hself).trans hkept), fun hr => ?_,
    congrArg Core.pc hself, hrest, hframe⟩
  have hlt : mcycle s i.val < 2 ^ 64 := Nat.mod_lt _ (by decide)
  exact (congrArg (fun d : Core => d.rx rd) hself).trans ((rx_setX_self _ hr _).trans (Nat.mod_eq_of_lt hlt))

end

/-! ### Instructions with a row of their own -/

section
variable {s : State} {i : Fin 4} {len : Nat}

theorem exec_wfi_of_fetched (h : Fetched s i.val .wfi len) :
    (coreInts s i.val ≠ 0 → ∃ t, exec (.wfi i) s = .next t ∧ CoreOnly s i.val t ((s.core i.val).goes (coreNext s i.val len))) ∧
    (coreInts s i.val = 0 → ∃ t, exec (.wfi i) s = .next t ∧ CoreOnly s i.val t { s.core i.val with wait := .wfi }) := by
  have hrun : exec (.wfi i) s = .next (if coreInts s i.val != 0 then coreRetire s i.val (coreNext s i.val len)
      else s.setCore i.val { s.core i.val with wait := .wfi }) :=
    ((exec_wfi_of_row h.2.2.1).trans (coreRow_of_fetched h _ _)).trans (congrArg Host.Outcome.next (if_pos rfl))
  exact ⟨fun hn => ⟨_, hrun.trans (congrArg Host.Outcome.next (if_pos (bne_iff_ne.mpr hn))), (CoreOnly.refl s i.val).retire _⟩,
    fun h0 => ⟨_, hrun.trans (congrArg Host.Outcome.next (if_neg (by simp [h0]))), (CoreOnly.refl s i.val).setCore _⟩⟩

theorem exec_fenceI_of_fetched (h : Fetched s i.val .fenceI len) : ∃ t, exec (.fenceI i) s = .next t ∧
    CoreOnly s i.val t (Core.goes { s.core i.val with iline := [], iword := [] } (coreNext s i.val len)) :=
  ⟨_, (exec_fenceI s i).trans (coreRow_of_fetched h _ _), ((CoreOnly.refl s i.val).setCore _).retire _⟩

theorem exec_stewardFence_of_fetched (h : Fetched s i.val (.fence false) len) :
    (postedStores s i.val = false → (s.core i.val).wb = [] →
      ∃ t, exec (.stewardFence i) s = .next t ∧ CoreOnly s i.val t ((s.core i.val).goes (coreNext s i.val len))) ∧
    (postedStores s i.val = true ∨ (s.core i.val).wb ≠ [] → exec (.stewardFence i) s = .next s) := by
  have hrun : exec (.stewardFence i) s = .next
      (if postedStores s i.val || !(s.core i.val).wb.isEmpty then s else coreRetire s i.val (coreNext s i.val len)) :=
    ((exec_stewardFence s i).trans (coreRow_of_fetched h _ _)).trans (congrArg Host.Outcome.next (if_pos rfl))
  exact ⟨fun hp hw => ⟨_, hrun.trans (congrArg Host.Outcome.next (if_neg (by simp [hp, hw]))), (CoreOnly.refl s i.val).retire _⟩,
    fun hwait => hrun.trans (congrArg Host.Outcome.next (if_pos (by simpa using hwait)))⟩

/-- A cache-block operation on its kind. -/
theorem cboRow_of_fetched {kind rs1 : Nat} (type : Nat) (h : Fetched s i.val (.cbo kind rs1) len) :
    (cacheable ((s.core i.val).rx rs1) = true → ∃ t, cboRow s i.val kind type = .next t ∧ AsksHub s i.val t type ((s.core i.val).rx rs1)) ∧
    (cacheable ((s.core i.val).rx rs1) = false →
      ∃ t, cboRow s i.val kind type = .next t ∧ CoreOnly s i.val t ((s.core i.val).goes (coreNext s i.val len))) := by
  have hrun : cboRow s i.val kind type = .next (cboRun s i.val rs1 type len) :=
    (coreRow_of_fetched h _ _).trans (congrArg Host.Outcome.next (if_pos (beq_self_eq_true kind)))
  have hwait : (s.core i.val).wait ≠ .cboDone := by
    rw [h.2.2.1]
    exact CoreWait.noConfusion
  exact ⟨fun hc => ⟨_, hrun.trans (congrArg Host.Outcome.next (if_neg (by simp [hc, hwait]))), asksHub_askHub s i.val type _⟩,
    fun hc => ⟨_, hrun.trans (congrArg Host.Outcome.next (if_pos (by simp [hc]))), (CoreOnly.refl s i.val).retire _⟩⟩

/-! ### Atomics -/

variable {rd rs1 rs2 size : Nat}

theorem exec_lr (h : Fetched s i.val (.lr rd rs1 size) len) (ha : (s.core i.val).rx rs1 % size = 0) (hc : cacheable ((s.core i.val).rx rs1) = true) :
    exec (.stewardAmo i) s = .next (cachedAmo s i.val ((s.core i.val).rx rs1) size rd (coreNext s i.val len)
      (fun _ old => (none, loadExt 64 size true old)) (some ((s.core i.val).rx rs1 / 64)) true) :=
  ((exec_stewardAmo s i).trans (coreRow_of_fetched h _ _)).trans
    (congrArg Host.Outcome.next ((if_neg (not_not.mpr ha)).trans (if_pos hc)))

theorem exec_sc (h : Fetched s i.val (.sc rd rs1 rs2 size) len) (ha : (s.core i.val).rx rs1 % size = 0)
    (hc : cacheable ((s.core i.val).rx rs1) = true) : exec (.stewardAmo i) s = .next
      (if (s.core i.val).resv = some ((s.core i.val).rx rs1 / 64) then
        cachedAmo s i.val ((s.core i.val).rx rs1) size rd (coreNext s i.val len) (fun d _ => (some (d.rx rs2), 0)) none false
      else coreFinish (s.setCore i.val { s.core i.val with resv := none }) i.val (coreNext s i.val len) rd 1) :=
  ((exec_stewardAmo s i).trans (coreRow_of_fetched h _ _)).trans
    (congrArg Host.Outcome.next ((if_neg (not_not.mpr ha)).trans (if_neg (by simp [hc]))))

theorem exec_amo {o : AmoOp} (h : Fetched s i.val (.amo o rd rs1 rs2 size) len) (ha : (s.core i.val).rx rs1 % size = 0) :
    exec (.stewardAmo i) s = .next
      (if cacheable ((s.core i.val).rx rs1) then
        cachedAmo s i.val ((s.core i.val).rx rs1) size rd (coreNext s i.val len) (fun d old =>
          (some (amoEval (8 * size) o old (d.rx rs2 % 2 ^ (8 * size))), loadExt 64 size true old)) (s.core i.val).resv false
      else uncachedAmo s i.val o rd rs2 ((s.core i.val).rx rs1) size (coreNext s i.val len)) :=
  ((exec_stewardAmo s i).trans (coreRow_of_fetched h _ _)).trans (congrArg Host.Outcome.next (if_neg (not_not.mpr ha)))

/-- Outside the banks an uncached atomic faults. -/
theorem uncachedAmo_of_noBank {a npc : Nat} (o : AmoOp) (h : ∀ b, regionOf a ≠ .bank b) :
    uncachedAmo s i.val o rd rs2 a size npc = coreTrap s i.val 7 false a := by
  unfold uncachedAmo
  cases hr : regionOf a with
  | bank b => exact absurd hr (h b)
  | _ => rfl

end

end Sys2Proof.Machine

/-!
SUPPORT. The atomics of steward cores on a line in M (18_steward_events.md R370), cores that wait or whose cycle is closed, and the statement on
steward instructions.
-/

namespace Sys2Proof.Machine

/-! ### Atomics on a line in M -/

section
variable {s : State} {i : Fin 4} {len k rd rs1 rs2 : Nat} {w : BitVec 64}

section
variable (ha : (s.core i.val).rx rs1 % 8 = 0) (hc : cacheable ((s.core i.val).rx rs1) = true)
  (hd : dSlot (s.core i.val) ((s.core i.val).rx rs1 / 64) = some k) (hs : dState (s.core i.val) k = 3)
  (hw : cwDecode (dWordAt (s.core i.val) k ((s.core i.val).rx rs1 % 64 / 8)) = .clean w)
include ha hc hd hs hw

theorem exec_lr_in_m (h : Fetched s i.val (.lr rd rs1 8) len) : ∃ t, exec (.stewardAmo i) s = .next t ∧
    (t.core i.val).resv = some ((s.core i.val).rx rs1 / 64) ∧ (t.core i.val).pc = coreNext s i.val len ∧
    (rd ≠ 0 → (t.core i.val).rx rd = w.toNat) ∧ (t.core i.val).dword = (s.core i.val).dword := by
  obtain ⟨hself, -, -⟩ := coreOnly_cachedAmo (coreNext s i.val len) ha hd hs hw rd (fun _ old => (none, loadExt 64 8 true old))
    (some ((s.core i.val).rx rs1 / 64)) true
  obtain ⟨hresv, hword, -, -⟩ := setX_keeps { s.core i.val with resv := some ((s.core i.val).rx rs1 / 64) } rd (loadExt 64 8 true w.toNat)
  refine ⟨_, exec_lr h ha hc, (congrArg Core.resv hself).trans hresv, congrArg Core.pc hself, fun hr => ?_, (congrArg Core.dword hself).trans hword⟩
  exact (congrArg (fun d : Core => d.rx rd) hself).trans ((rx_setX_self _ hr _).trans (loadExt_word w))

theorem exec_sc_in_m (h : Fetched s i.val (.sc rd rs1 rs2 8) len) (hresv : (s.core i.val).resv = some ((s.core i.val).rx rs1 / 64)) :
    ∃ t, exec (.stewardAmo i) s = .next t ∧ (t.core i.val).resv = none ∧ (rd ≠ 0 → (t.core i.val).rx rd = 0) ∧
      dWordAt (t.core i.val) k ((s.core i.val).rx rs1 % 64 / 8) = cwEncode (BitVec.ofNat 64 ((s.core i.val).rx rs2)) := by
  obtain ⟨hself, -, -⟩ := coreOnly_cachedAmo (coreNext s i.val len) ha hd hs hw rd (fun d _ => (some (d.rx rs2), 0)) none false
  obtain ⟨hnone, -, hzero, hstored⟩ := amoDone_reads (npc := coreNext s i.val len) (s.core i.val) k ha w ((s.core i.val).rx rs2) rd 0 none
  refine ⟨_, (exec_sc h ha hc).trans (congrArg Host.Outcome.next (if_pos hresv)), ?_, fun hr => ?_, ?_⟩
  · exact (congrArg Core.resv hself).trans hnone
  · exact (congrArg (fun d : Core => d.rx rd) hself).trans (hzero hr)
  · exact (congrArg (fun d : Core => dWordAt d k ((s.core i.val).rx rs1 % 64 / 8)) hself).trans hstored

theorem exec_amo_in_m {o : AmoOp} (h : Fetched s i.val (.amo o rd rs1 rs2 8) len) : ∃ t, exec (.stewardAmo i) s = .next t ∧
    (t.core i.val).pc = coreNext s i.val len ∧ (rd ≠ 0 → (t.core i.val).rx rd = w.toNat) ∧
    dWordAt (t.core i.val) k ((s.core i.val).rx rs1 % 64 / 8) =
      cwEncode (BitVec.ofNat 64 (amoEval 64 o w.toNat ((s.core i.val).rx rs2))) := by
  have hsrc : (s.core i.val).rx rs2 % 2 ^ (8 * 8) = (s.core i.val).rx rs2 := Nat.mod_eq_of_lt (rx_lt _ rs2)
  obtain ⟨hself, -, -⟩ := coreOnly_cachedAmo (coreNext s i.val len) ha hd hs hw rd (fun d old =>
    (some (amoEval (8 * 8) o old (d.rx rs2 % 2 ^ (8 * 8))), loadExt 64 8 true old)) (s.core i.val).resv false
  obtain ⟨-, hpc, hold, hstored⟩ := amoDone_reads (npc := coreNext s i.val len) (s.core i.val) k ha w
    (amoEval (8 * 8) o w.toNat ((s.core i.val).rx rs2 % 2 ^ (8 * 8))) rd (loadExt 64 8 true w.toNat) (s.core i.val).resv
  refine ⟨_, (exec_amo h ha).trans (congrArg Host.Outcome.next (if_pos hc)), (congrArg Core.pc hself).trans hpc, fun hr => ?_, ?_⟩
  · exact (congrArg (fun d : Core => d.rx rd) hself).trans ((hold hr).trans (loadExt_word w))
  · refine ((congrArg (fun d : Core => dWordAt d k ((s.core i.val).rx rs1 % 64 / 8)) hself).trans hstored).trans ?_
    rw [hsrc]

end

/-! ### Atomics that do not reach M -/

theorem exec_sc_unreserved {size : Nat} (h : Fetched s i.val (.sc rd rs1 rs2 size) len) (ha : (s.core i.val).rx rs1 % size = 0)
    (hc : cacheable ((s.core i.val).rx rs1) = true) (hr : (s.core i.val).resv ≠ some ((s.core i.val).rx rs1 / 64)) :
    ∃ t, exec (.stewardAmo i) s = .next t ∧
      CoreOnly s i.val t ((Core.setX { s.core i.val with resv := none } rd 1).goes (coreNext s i.val len)) :=
  ⟨_, (exec_sc h ha hc).trans (congrArg Host.Outcome.next (if_neg hr)), ((CoreOnly.refl s i.val).setCore _).finish _ rd 1⟩

theorem exec_lr_of_miss {size : Nat} (h : Fetched s i.val (.lr rd rs1 size) len) (ha : (s.core i.val).rx rs1 % size = 0)
    (hc : cacheable ((s.core i.val).rx rs1) = true) (hd : dSlot (s.core i.val) ((s.core i.val).rx rs1 / 64) = none) :
    ∃ t, exec (.stewardAmo i) s = .next t ∧ AsksHub s i.val t 7 ((s.core i.val).rx rs1) :=
  ⟨_, (exec_lr h ha hc).trans (congrArg Host.Outcome.next (cachedAmo_of_miss hd rd _ _ true)), asksHub_askHub s i.val 7 _⟩

theorem exec_amo_outside {o : AmoOp} {size : Nat} (h : Fetched s i.val (.amo o rd rs1 rs2 size) len) (ha : (s.core i.val).rx rs1 % size = 0)
    (hc : cacheable ((s.core i.val).rx rs1) = false) (hb : ∀ b, regionOf ((s.core i.val).rx rs1) ≠ .bank b) :
    ∃ t, exec (.stewardAmo i) s = .next t ∧ Trapped s i.val t 7 ((s.core i.val).csrGet 0x305 / 4 * 4) ∧
      (t.core i.val).csrGet 0x343 = (s.core i.val).rx rs1 % 2 ^ 64 := by
  obtain ⟨htrap, htval, -⟩ := trapped_coreTrap 7 ((s.core i.val).rx rs1) s i.val
  exact ⟨_, (exec_amo h ha).trans (congrArg Host.Outcome.next ((if_neg (by simp [hc])).trans (uncachedAmo_of_noBank o hb))), htrap, htval⟩

end

/-! ### Cores that do not go on with an instruction -/

section
variable {s : State} {i : Fin 4}

theorem exec_of_fault (hr : coreRuns s i.val = true) {a cause : Nat} (hw : (s.core i.val).wait = .fault cause a) :
    exec (.stewardInstruction i) s = .next (coreTrap s i.val cause false a) := by
  rw [exec_stewardInstruction]
  unfold execStewardInstruction
  rw [if_pos hr, hw]

theorem exec_of_wfi (hr : coreRuns s i.val = true) (hw : (s.core i.val).wait = .wfi) :
    exec (.stewardInstruction i) s = okIf (coreInts s i.val != 0) s (wfiEnd s i.val) ∧
      exec (.wfi i) s = okIf (coreInts s i.val != 0) s (wfiEnd s i.val) := by
  refine ⟨?_, (exec_wfi s i).trans (if_pos (by simp [hr, hw]))⟩
  rw [exec_stewardInstruction]
  unfold execStewardInstruction
  rw [if_pos hr, hw]

theorem exec_of_interrupt (hr : coreRuns s i.val = true) (hw : (s.core i.val).wait = .none) {n : Nat} (hi : coreInterrupt s i.val = some n) :
    exec (.stewardInstruction i) s = .next (coreTrap s i.val n true 0) := by
  rw [exec_stewardInstruction]
  unfold execStewardInstruction
  rw [if_pos hr, hw]
  dsimp only
  rw [hi]

theorem coreInterrupt_lt {n : Nat} (hi : coreInterrupt s i.val = some n) : n < 12 := by
  unfold coreInterrupt at hi
  dsimp only at hi
  split at hi
  · obtain rfl := Option.some.inj hi
    split
    · decide
    · split <;> decide
  · cases hi

theorem trapped_of_interrupt {n : Nat} (hi : coreInterrupt s i.val = some n) :
    Trapped s i.val (coreTrap s i.val n true 0) (n + 2 ^ 63)
      (if (s.core i.val).csrGet 0x305 % 4 = 1 then (s.core i.val).csrGet 0x305 / 4 * 4 + 4 * n else (s.core i.val).csrGet 0x305 / 4 * 4) := by
  have htrap := ((CoreOnly.refl s i.val).trap n true 0).trapped n true 0
  have hlt := coreInterrupt_lt hi
  have hcause : (n + if true then 2 ^ 63 else 0) % 2 ^ 64 = n + 2 ^ 63 := Nat.mod_eq_of_lt (by rw [if_pos rfl]; omega)
  have hbase : trapBase (s.core i.val) n true =
      if (s.core i.val).csrGet 0x305 % 4 = 1 then (s.core i.val).csrGet 0x305 / 4 * 4 + 4 * n else (s.core i.val).csrGet 0x305 / 4 * 4 := by
    unfold trapBase
    simp only [true_and]
  rwa [hcause, hbase] at htrap

/-- No tick writes the compare registers of a core. -/
theorem tickFields_noCompare : ∀ i : Fin 4, ∀ f ∈ tickFields, f.reg ≠ Reg.EVT_TCMP_LO i.val ∧ f.reg ≠ Reg.EVT_TCMP_HI i.val := by decide

/-- What the timers add shows in MTIP (R362). -/
theorem machineTimer_reads (hr : coreRuns s i.val = true) (dt : Nat) : ∃ t, exec (.machineTimerInterrupt dt) s = .next t ∧
    t.aon.ticks = s.aon.ticks + dt ∧
    (mtip t i.val = true ↔ (s.reg (Reg.EVT_TCMP_LO i.val)).toNat + 2 ^ 32 * (s.reg (Reg.EVT_TCMP_HI i.val)).toNat ≤ (s.aon.ticks + dt) % 2 ^ 64) ∧
    BitsBut tickFields s t ∧ { t with regs := s.regs, cyc := s.cyc, aon := s.aon } = s := by
  have hphase : s.phase ≠ .unpowered := by
    intro h
    simp [coreRuns, h] at hr
  obtain ⟨hbits, hframe⟩ := aonOnly_aonPass s dt
  have hticks := ticks_aonPass s dt hphase
  have hlo : (aonPass s dt).reg (Reg.EVT_TCMP_LO i.val) = s.reg (Reg.EVT_TCMP_LO i.val) :=
    reg_of_bitsBut hbits fun f hf => (tickFields_noCompare i f hf).1
  have hhi : (aonPass s dt).reg (Reg.EVT_TCMP_HI i.val) = s.reg (Reg.EVT_TCMP_HI i.val) :=
    reg_of_bitsBut hbits fun f hf => (tickFields_noCompare i f hf).2
  refine ⟨_, exec_machineTimerInterrupt s dt, hticks, ?_, hbits, hframe⟩
  rw [← hlo, ← hhi, ← hticks]
  exact decide_eq_true_iff

/-- In a cycle that the throttling duty closes no command of the core has an effect (R435). -/
theorem exec_of_closed (hr : coreRuns s i.val = true) (hg : s.gateOpen 5 = false) (hw : (s.core i.val).wait = .none)
    (hi : coreInterrupt s i.val = none) : exec (.stewardInstruction i) s = .next s ∧ exec (.wfi i) s = .next s ∧ exec (.fenceI i) s = .next s ∧
      exec (.stewardFence i) s = .next s ∧ exec (.cboInval i) s = .next s ∧ exec (.cboClean i) s = .next s ∧ exec (.cboFlush i) s = .next s ∧
      exec (.stewardAmo i) s = .next s := by
  have hrow (mine : Rv → Bool) (run : State → Rv → Nat → State) := coreRow_of_closed (i := i.val) hg mine run
  exact ⟨(exec_stewardInstruction_of_row hr hw hi).trans (hrow _ _), (exec_wfi_of_row hw).trans (hrow _ _), (exec_fenceI s i).trans (hrow _ _),
    (exec_stewardFence s i).trans (hrow _ _), (exec_cboInval s i).trans (hrow _ _), (exec_cboClean s i).trans (hrow _ _),
    (exec_cboFlush s i).trans (hrow _ _), (exec_stewardAmo s i).trans (hrow _ _)⟩

end

/-- Settles O41: the rows of a core run the instruction that it has fetched; each clause is one instruction or one reason not to go on. -/
theorem stewardInstructions : Obligations.StewardInstructions := by
  unfold Obligations.StewardInstructions
  intro s i hr c after goes traps mtvec free asks
  refine ⟨?_, ?_, ?_, fun hg hw hi => exec_of_closed hr hg hw hi, ?_, fun dt => machineTimer_reads hr dt⟩
  · intro a cause hw
    obtain ⟨htrap, htval, hframe⟩ := trapped_coreTrap cause a s i.val
    exact ⟨_, exec_of_fault hr hw, htrap, htval, hframe⟩
  · intro hw
    obtain ⟨hplain, hwfi⟩ := exec_of_wfi hr hw
    refine ⟨fun h0 => ?_, fun hn => ?_⟩
    · have hstay : okIf (coreInts s i.val != 0) s (wfiEnd s i.val) = .next s := if_neg (by simp [h0])
      exact ⟨hplain.trans hstay, hwfi.trans hstay⟩
    · have hgo := okIf_of_true s (wfiEnd s i.val) (bne_iff_ne.mpr hn)
      exact ⟨_, hplain.trans hgo, hwfi.trans hgo, (CoreOnly.refl s i.val).retire _⟩
  · intro n hw hi
    exact ⟨_, exec_of_interrupt hr hw hi, trapped_of_interrupt hi, ((CoreOnly.refl s i.val).trap n true 0).2.2⟩
  · intro ins len hg hw hi hf npc
    have h : Fetched s i.val ins len := ⟨hr, hg, hw, hi, hf⟩
    refine ⟨fun n rd v hv => exec_of_plain h hv, ?_, ?_, ?_, ?_, ?_, ?_, ?_, ?_, ?_, ?_, ?_, ?_, ?_⟩
    · rintro rd rs1 imm size signed rfl
      exact exec_load h
    · rintro rs1 rs2 imm size rfl
      exact exec_store h
    · rintro rd rs1 rfl
      exact exec_csr_of_write h csrRead_scratch (by decide)
    · rintro rd rs1 rfl
      exact exec_csr_mcycle h
    · rintro rfl
      exact ⟨_, exec_stewardInstruction_of_fetched h rfl, (trapped_coreTrap 11 0 s i.val).1⟩
    · rintro rfl
      exact ⟨_, exec_stewardInstruction_of_fetched h rfl, trapped_coreTrapFree 3 s i.val⟩
    · rintro rfl
      exact ⟨_, exec_stewardInstruction_of_fetched h rfl, trapped_coreTrapFree 2 s i.val⟩
    · rintro rfl
      exact ⟨_, exec_stewardInstruction_of_fetched h rfl, ((CoreOnly.refl s i.val).setCore _).retire _⟩
    · rintro rfl
      exact exec_wfi_of_fetched h
    · rintro rfl
      exact exec_fenceI_of_fetched h
    · rintro rfl
      exact exec_stewardFence_of_fetched h
    · intro rs1 a
      refine ⟨?_, ?_, ?_⟩
      · rintro rfl
        exact cboRow_of_fetched 6 h
      · rintro rfl
        exact cboRow_of_fetched 4 h
      · rintro rfl
        exact cboRow_of_fetched 5 h
    · intro rd rs1 rs2 size a
      refine ⟨?_, ?_, ?_, ?_⟩
      · rintro rfl ha hc hres
        exact exec_sc_unreserved h ha hc hres
      · rintro rfl ha hc hd
        exact exec_lr_of_miss h ha hc hd
      · rintro k w rfl ha hc hd hs hword
        refine ⟨?_, ?_, ?_⟩
        · rintro rfl
          exact exec_lr_in_m ha hc hd hs hword h
        · rintro rfl hres
          exact exec_sc_in_m ha hc hd hs hword h hres
        · rintro o rfl
          exact exec_amo_in_m ha hc hd hs hword h
      · rintro o rfl ha hc hb
        exact exec_amo_outside h ha hc hb

end Sys2Proof.Machine

/-!
SUPPORT. A request that the loader issues (13_network.md R256, R260): whatever the loader does goes on beside it, and one more is outstanding.
-/

namespace Sys2Proof.Machine

/-! ### The loader beside the network -/

section
variable (s : State) (l : Loader)

theorem placeArrival_congr {t : State} (h : t.memPtr = s.memPtr) (x : MemArrival) (q : List MemArrival) : placeArrival t x q = placeArrival s x q := by
  have hrank (r port : Nat) : portRank t r port = portRank s r port := by
    unfold portRank
    rw [h]
  induction q with
  | nil => rfl
  | cons y ys ih =>
    unfold placeArrival
    rw [ih, hrank, hrank]

theorem memArrive_withLd (r net vc port : Nat) (q : NocReq) :
    memArrive { s with ld := l } r net vc port q = { memArrive s r net vc port q with ld := l } := by
  have hkept (x : MemArrival) (m : List MemArrival) : placeArrival { s with ld := l } x m = placeArrival s x m :=
    placeArrival_congr s (t := { s with ld := l }) rfl x m
  have hdrawn (x : MemArrival) (m : List MemArrival) :
      placeArrival { s with fresh := s.fresh + 1, ld := l } x m = placeArrival { s with fresh := s.fresh + 1 } x m :=
    placeArrival_congr { s with fresh := s.fresh + 1 } (t := { s with fresh := s.fresh + 1, ld := l }) rfl x m
  unfold memArrive State.draw
  dsimp only
  split <;> split <;> simp only [hkept, hdrawn]

theorem ejectArrive_withLd (r net vc port : Nat) (f : Option Flit) :
    ejectArrive { s with ld := l } r net vc port f = { ejectArrive s r net vc port f with ld := l } := by
  unfold ejectArrive
  split
  · split
    · exact memArrive_withLd s l r net vc port _
    · rfl
  · rfl

theorem enterQueue_withLd (r net port vc : Nat) (f : Flit) : enterQueue { s with ld := l } r net port vc f = { enterQueue s r net port vc f with ld := l } := by
  have harrive : (if port = 7 then
          ejectArrive (State.setQueue { s with ld := l } r net port vc (State.queue { s with ld := l } r net port vc ++ [f])) r net vc 0 (some f)
        else State.setQueue { s with ld := l } r net port vc (State.queue { s with ld := l } r net port vc ++ [f])) =
      { (if port = 7 then ejectArrive (s.setQueue r net port vc (s.queue r net port vc ++ [f])) r net vc 0 (some f)
        else s.setQueue r net port vc (s.queue r net port vc ++ [f])) with ld := l } := by
    split
    · exact ejectArrive_withLd (s.setQueue r net port vc (s.queue r net port vc ++ [f])) l r net vc 0 (some f)
    · rfl
  unfold enterQueue
  dsimp only
  rw [harrive]
  split <;> rfl

theorem pullInject_withLd (r : Nat) : pullInject { s with ld := l } r = { pullInject s r with ld := l } := by
  have hfold (g : State × List (Nat × Nat × Flit) → Nat × Nat × Flit → State × List (Nat × Nat × Flit))
      (hg : ∀ u x e, g ({ u with ld := l }, x) e = ({ (g (u, x) e).1 with ld := l }, (g (u, x) e).2)) (q : List (Nat × Nat × Flit)) (u : State)
      (x : List (Nat × Nat × Flit)) : q.foldl g ({ u with ld := l }, x) = ({ (q.foldl g (u, x)).1 with ld := l }, (q.foldl g (u, x)).2) := by
    induction q generalizing u x with
    | nil => rfl
    | cons e q ih =>
      rw [List.foldl_cons, hg]
      exact ih _ _
  have hstep (u : State) (c : Bool) (x y : List (Nat × Nat × Flit)) (net port vc : Nat) (f : Flit) :
      (if c = true then ({ u with ld := l }, x) else (enterQueue { u with ld := l } r net port vc f, y)) =
        ({ (if c = true then (u, x) else (enterQueue u r net port vc f, y)).1 with ld := l },
          (if c = true then (u, x) else (enterQueue u r net port vc f, y)).2) := by
    cases c
    · exact congrArg (·, y) (enterQueue_withLd u l r net port vc f)
    · rfl
  unfold pullInject
  dsimp only
  rw [hfold]
  exact fun u x e => hstep u _ _ _ _ _ _ _

theorem takeTag_withLd (id : Nat) (ln : Bool) : takeTag { s with ld := l } id ln = ({ (takeTag s id ln).1 with ld := l }, (takeTag s id ln).2) := by
  have htags : freeTags { s with ld := l } id ln = freeTags s id ln := rfl
  unfold takeTag State.draw
  dsimp only
  rw [htags]
  split
  · rfl
  · split <;> rfl

/-- A request is issued beside the loader. -/
theorem issue_withLd (r : NocReq) (note aux : Nat) :
    (issue { s with ld := l } r note aux).1 = { (issue s r note aux).1 with ld := l } := by
  have hruns : State.nocRuns { s with ld := l } = s.nocRuns := rfl
  unfold issue
  rw [takeTag_withLd, hruns]
  generalize takeTag s r.src r.ln = p
  obtain ⟨u, tag⟩ := p
  dsimp only
  split
  · exact pullInject_withLd (injectFlit { u with outst := u.outst ++ [_] } _ _ _ _) l _
  · rfl

end

/-! ### What is outstanding -/

/-- The initiators that wait for an answer. -/
def outKeys (s : State) : List (Nat × Bool) := s.outst.map (fun o => (o.id, o.ln))

section
variable (s : State)

theorem outCount_eq (id : Nat) (ln : Bool) : outCount s id ln = ((outKeys s).filter (fun k => k.1 == id && k.2 == ln)).length := by
  unfold outCount outKeys
  rw [List.filter_map, List.length_map]
  rfl

theorem outst_ejectArrive (r net vc port : Nat) (f : Option Flit) : (ejectArrive s r net vc port f).outst = s.outst := by
  unfold ejectArrive
  split
  · split
    · unfold memArrive State.draw
      dsimp only
      split <;> split <;> rfl
    · rfl
  · rfl

theorem outKeys_enterQueue (r net port vc : Nat) (f : Flit) : outKeys (enterQueue s r net port vc f) = outKeys s := by
  have harrive : (if port = 7 then ejectArrive (s.setQueue r net port vc (s.queue r net port vc ++ [f])) r net vc 0 (some f)
      else s.setQueue r net port vc (s.queue r net port vc ++ [f])).outst = s.outst := by
    split
    · exact outst_ejectArrive _ r net vc 0 (some f)
    · rfl
  unfold outKeys enterQueue
  dsimp only
  split
  · dsimp only
    rw [harrive, List.map_map]
    refine List.map_congr_left fun o _ => ?_
    dsimp only [Function.comp_apply]
    split <;> rfl
  · rw [harrive]

theorem outKeys_pullInject (r : Nat) : outKeys (pullInject s r) = outKeys s := by
  have hfold (g : State × List (Nat × Nat × Flit) → Nat × Nat × Flit → State × List (Nat × Nat × Flit))
      (hg : ∀ a e, outKeys (g a e).1 = outKeys a.1) (q : List (Nat × Nat × Flit)) (a : State × List (Nat × Nat × Flit)) :
      outKeys (q.foldl g a).1 = outKeys a.1 := by
    induction q generalizing a with
    | nil => rfl
    | cons e q ih => exact (ih _).trans (hg a e)
  have hstep (u : State) (c : Bool) (x y : List (Nat × Nat × Flit)) (net port vc : Nat) (f : Flit) :
      outKeys (if c = true then (u, x) else (enterQueue u r net port vc f, y)).1 = outKeys u := by
    cases c
    · exact outKeys_enterQueue u r net port vc f
    · rfl
  unfold pullInject
  exact hfold _ (fun a e => hstep a.1 _ _ _ _ _ _ _) _ (s, [])

theorem outst_takeTag (id : Nat) (ln : Bool) : (takeTag s id ln).1.outst = s.outst := by
  unfold takeTag State.draw
  dsimp only
  split
  · rfl
  · split <;> rfl

theorem outKeys_issue (r : NocReq) (note aux : Nat) : outKeys (issue s r note aux).1 = outKeys s ++ [(r.src, r.ln)] := by
  have htag := outst_takeTag s r.src r.ln
  unfold issue
  generalize takeTag s r.src r.ln = p at htag
  obtain ⟨u, tag⟩ := p
  dsimp only at htag ⊢
  have hinject (o : Outst) (ho : (o.id, o.ln) = (r.src, r.ln)) (a net vc : Nat) (f : Flit) :
      outKeys (injectFlit { u with outst := u.outst ++ [o] } a net vc f) = outKeys s ++ [(r.src, r.ln)] := by
    change (u.outst ++ [o]).map (fun o => (o.id, o.ln)) = _
    rw [htag, List.map_append, List.map_singleton, ho]
    rfl
  split
  · exact (outKeys_pullInject _ _).trans (hinject _ rfl _ _ _ _)
  · exact hinject _ rfl _ _ _ _

/-- A write of the loader is one more outstanding. -/
theorem ldOut_loaderWrite (size addr data note aux : Nat) : ldOut (loaderWrite s size addr data note aux) = ldOut s + 1 := by
  unfold ldOut loaderWrite
  rw [outCount_eq, outCount_eq, outKeys_issue, List.filter_append, List.length_append]
  rfl

theorem loaderWrite_withLd (l : Loader) (size addr data note aux : Nat) :
    loaderWrite { s with ld := l } size addr data note aux = { loaderWrite s size addr data note aux with ld := l } :=
  issue_withLd s l _ _ _

theorem ld_loaderWrite (size addr data note aux : Nat) : (loaderWrite s size addr data note aux).ld = s.ld :=
  (netOnly_issue s _ note aux).keeps State.ld fun _ _ _ _ _ _ _ _ => rfl

end

end Sys2Proof.Machine

/-!
SUPPORT. Records that leave as network writes (16_configuration.md R325, R326): the words posted, as many as may be outstanding, and a record taken.
-/

namespace Sys2Proof.Machine

/-! ### A record taken -/

/-- A record of `n` bytes of a body of a type has been taken (R324). -/
def Taken (s : State) (ty n : Nat) (body : List Nat) (t : State) : Prop :=
  t.ld = if body.length ≤ n then { { s.ld with word := 0, busy := false, port := none } with seg := none, index := s.ld.index + 1 }
    else { { s.ld with word := 0, busy := false, port := none } with seg := some (ty, body.drop n) }

section
variable {s t : State} {ty : Nat} {body : List Nat}

theorem consume_eq (n : Nat) (h : s.ld.seg = some (ty, body)) :
    consume s n = if body.length ≤ n then
        { s with ld := { { s.ld with word := 0, busy := false, port := none } with seg := none, index := s.ld.index + 1 } }
      else { s with ld := { { s.ld with word := 0, busy := false, port := none } with seg := some (ty, body.drop n) } } := by
  unfold consume
  rw [h]

/-- Taking a record changes the loader alone, whatever word of the record it stood at. -/
theorem consume_reads (n : Nat) {l : Loader} (h : s.ld.seg = some (ty, body))
    (hl : { l with word := s.ld.word, busy := s.ld.busy, port := s.ld.port } = s.ld) (ht : t.ld = l) :
    Taken s ty n body (consume t n) ∧ { consume t n with ld := s.ld } = { t with ld := s.ld } := by
  have hseg : t.ld.seg = some (ty, body) := (congrArg Loader.seg ht).trans ((congrArg Loader.seg hl :).trans h)
  have hstart : { t.ld with word := 0, busy := false, port := none } = { s.ld with word := 0, busy := false, port := none } := by
    rw [ht]
    exact (congrArg (fun x : Loader => { x with word := 0, busy := false, port := none }) hl :)
  have hindex : t.ld.index = s.ld.index := (congrArg Loader.index ht).trans (congrArg Loader.index hl :)
  rw [consume_eq n hseg, Taken, hstart, hindex]
  by_cases hn : body.length ≤ n
  · rw [if_pos hn, if_pos hn]
    exact ⟨rfl, rfl⟩
  · rw [if_neg hn, if_neg hn]
    exact ⟨rfl, rfl⟩

end

/-! ### Words posted -/

section
variable (s : State) (body : List Nat) (at_ count : Nat)

/-- The words of a record from the present one up to word `n` written at their places. -/
def wroteUpTo (n : Nat) : State :=
  (List.range' s.ld.word (n - s.ld.word)).foldl (fun u i => loaderWrite u 3 (at_ + 8 * i) (recWord body i).toNat 1 0) s

theorem wroteUpTo_start : wroteUpTo s body at_ s.ld.word = s := by
  unfold wroteUpTo
  rw [Nat.sub_self]
  rfl

variable {s} in
theorem wroteUpTo_succ {n : Nat} (h : s.ld.word ≤ n) :
    wroteUpTo s body at_ (n + 1) = loaderWrite (wroteUpTo s body at_ n) 3 (at_ + 8 * n) (recWord body n).toNat 1 0 := by
  unfold wroteUpTo
  rw [Nat.succ_sub h, List.range'_1_concat, List.foldl_append, Nat.add_sub_cancel' h]
  rfl

variable {s} in
theorem wroteUpTo_reads {n : Nat} (h : s.ld.word ≤ n) :
    (wroteUpTo s body at_ n).ld = s.ld ∧ ldOut (wroteUpTo s body at_ n) = ldOut s + (n - s.ld.word) := by
  induction n, h using Nat.le_induction with
  | base =>
    rw [wroteUpTo_start, Nat.sub_self]
    exact ⟨rfl, rfl⟩
  | succ n hn ih =>
    obtain ⟨hld, hout⟩ := ih
    rw [wroteUpTo_succ body at_ hn, ld_loaderWrite, ldOut_loaderWrite]
    exact ⟨hld, by omega⟩

/-- The loader at word `n` of the record, the words before it written. -/
def postedTo (n : Nat) : State := { wroteUpTo s body at_ n with ld := { s.ld with word := n } }

variable {s} in
theorem postWord_postedTo {n : Nat} (h : s.ld.word ≤ n) : postWord body at_ (postedTo s body at_ n) = postedTo s body at_ (n + 1) := by
  unfold postWord postedTo
  dsimp only
  rw [loaderWrite_withLd, wroteUpTo_succ body at_ h]

/-- The word at which posting stops: the end of the record, or 64 writes outstanding. -/
def postStop : Nat := min count (s.ld.word + (64 - ldOut s))

theorem postedTo_start : postedTo s body at_ s.ld.word = s := by
  unfold postedTo
  rw [wroteUpTo_start]

variable {s count} (h : s.ld.word < count)
include h

theorem posting (k : Nat) :
    (List.range k).foldl (fun acc _ => if acc.ld.word < count ∧ ldOut acc < 64 then postWord body at_ acc else acc) s =
      postedTo s body at_ (min (s.ld.word + k) (postStop s count)) := by
  have hstop : s.ld.word ≤ postStop s count := le_min h.le (Nat.le_add_right _ _)
  induction k with
  | zero =>
    rw [Nat.add_zero, Nat.min_eq_left hstop, postedTo_start]
    rfl
  | succ k ih =>
    rw [List.range_succ, List.foldl_append, ih]
    generalize hn : min (s.ld.word + k) (postStop s count) = n
    have hle : s.ld.word ≤ n := hn ▸ le_min (Nat.le_add_right _ k) hstop
    have hout : ldOut (postedTo s body at_ n) = ldOut s + (n - s.ld.word) := (wroteUpTo_reads body at_ hle).2
    have hcount : postStop s count ≤ count := min_le_left _ _
    have hroom : postStop s count ≤ s.ld.word + (64 - ldOut s) := min_le_right _ _
    by_cases hgo : n < postStop s count
    · have hmay : (postedTo s body at_ n).ld.word < count ∧ ldOut (postedTo s body at_ n) < 64 := ⟨hgo.trans_le hcount, by omega⟩
      refine (if_pos hmay).trans ((postWord_postedTo body at_ hle).trans ?_)
      congr 1
      omega
    · have hmay : ¬ ((postedTo s body at_ n).ld.word < count ∧ ldOut (postedTo s body at_ n) < 64) := by
        rintro ⟨hword, hfree⟩
        have hword : n < count := hword
        have hlt : n < postStop s count := lt_min hword (by omega)
        exact hgo hlt
      refine (if_neg hmay).trans ?_
      congr 1
      omega

/-- A record's words leave (R325). -/
theorem postWords_reads {ty : Nat} (hseg : s.ld.seg = some (ty, body)) : let t := postWords s body at_ count
    { t with ld := s.ld } = { wroteUpTo s body at_ (postStop s count) with ld := s.ld } ∧
      (if postStop s count = count then Taken s ty (8 + 8 * count) body t else t.ld = { s.ld with word := postStop s count }) := by
  intro t
  have hfold : t = if count ≤ postStop s count then consume (postedTo s body at_ (postStop s count)) (8 + 8 * count)
      else postedTo s body at_ (postStop s count) := by
    have hmin : min (s.ld.word + 64) (postStop s count) = postStop s count :=
      Nat.min_eq_right ((min_le_right _ _).trans (Nat.add_le_add_left (Nat.sub_le _ _) _))
    unfold t postWords
    rw [posting body at_ h 64, hmin]
    rfl
  have hcount : postStop s count ≤ count := min_le_left _ _
  by_cases hend : postStop s count = count
  · have ht : t = consume (postedTo s body at_ (postStop s count)) (8 + 8 * count) := hfold.trans (if_pos hend.ge)
    rw [ht, if_pos hend]
    obtain ⟨htaken, hrest⟩ := consume_reads (s := s) (t := postedTo s body at_ (postStop s count)) (8 + 8 * count) hseg
      (l := { s.ld with word := postStop s count }) rfl rfl
    exact ⟨hrest, htaken⟩
  · have ht : t = postedTo s body at_ (postStop s count) := hfold.trans (if_neg fun hle => hend (hcount.antisymm hle))
    rw [ht, if_neg hend]
    exact ⟨rfl, rfl⟩

end

/-! ### The records that post words -/

/-- The descriptor of a record. -/
def recDesc (body : List Nat) : Nat := leNat (body.take 8)

/-- A BANKINIT record is well formed (Table 16.8). -/
abbrev BankFits (body : List Nat) : Prop :=
  nbits (recDesc body) 10 0 < 1920 ∧ nbits (recDesc body) 11 11 = 0 ∧ recDesc body / 2 ^ 37 = 0 ∧ 1 ≤ nbits (recDesc body) 36 24 ∧
    nbits (recDesc body) 23 12 + nbits (recDesc body) 36 24 ≤ 4096 ∧ 8 + 8 * nbits (recDesc body) 36 24 ≤ body.length

/-- A FIRMWARE record is well formed. -/
abbrev FirmwareFits (body : List Nat) : Prop :=
  recDesc body / 2 ^ 39 = 0 ∧ 1 ≤ nbits (recDesc body) 38 19 ∧ nbits (recDesc body) 38 19 ≤ 131067 ∧
    nbits (recDesc body) 18 0 + nbits (recDesc body) 38 19 ≤ 524288 ∧ 8 + 8 * nbits (recDesc body) 38 19 ≤ body.length

/-- A TELLER record is well formed. -/
abbrev TellerFits (body : List Nat) : Prop :=
  nbits (recDesc body) 7 0 < 240 ∧ recDesc body / 2 ^ 34 = 0 ∧ 1 ≤ nbits (recDesc body) 33 21 ∧
    nbits (recDesc body) 20 9 + nbits (recDesc body) 33 21 ≤ 4096 ∧ 8 + 8 * nbits (recDesc body) 33 21 ≤ body.length

/-- A record's words have left, as many as may be outstanding (R325). -/
def Posted (s : State) (ty : Nat) (body : List Nat) (at_ count : Nat) (t : State) : Prop :=
  { t with ld := s.ld } = { wroteUpTo s body at_ (postStop s count) with ld := s.ld } ∧
    (if postStop s count = count then Taken s ty (8 + 8 * count) body t else t.ld = { s.ld with word := postStop s count })

section
variable {s : State} {ty : Nat} {body : List Nat} (ha : s.alive = true) (hc : tlrClock s = true)
include ha hc

theorem recordBody_of_seg (h : s.ld.seg = some (ty, body)) : recordBody s ty = some body := by
  unfold recordBody
  rw [h]
  exact if_pos ⟨rfl, ha, hc⟩

theorem bankinit_clauses (h : s.ld.seg = some (3, body)) :
    (BankFits body → nbits (recDesc body) 10 0 ∉ s.aon.retained → s.ld.word < nbits (recDesc body) 36 24 →
      ∃ t, exec (.bankinitRecord ()) s = .next t ∧
        Posted s 3 body (0x400000000 + 0x8000 * nbits (recDesc body) 10 0 + 8 * nbits (recDesc body) 23 12) (nbits (recDesc body) 36 24) t) ∧
    (BankFits body → nbits (recDesc body) 10 0 ∈ s.aon.retained →
      ∃ t, exec (.bankinitRecord ()) s = .next t ∧ Taken s 3 (8 + 8 * nbits (recDesc body) 36 24) body t ∧ { t with ld := s.ld } = s) ∧
    (¬ BankFits body → exec (.bankinitRecord ()) s = .next (recFail s 7)) := by
  have hrun : exec (.bankinitRecord ()) s =
      if BankFits body then
        if s.aon.retained.contains (nbits (recDesc body) 10 0) then .next (consume s (8 + 8 * nbits (recDesc body) 36 24))
        else .next (postWords s body (0x400000000 + 0x8000 * nbits (recDesc body) 10 0 + 8 * nbits (recDesc body) 23 12) (nbits (recDesc body) 36 24))
      else .next (recFail s 7) := by
    rw [exec_bankinitRecord]
    unfold execBankinitRecord
    rw [recordBody_of_seg ha hc h]
    rfl
  refine ⟨fun hf hr hw => ⟨_, hrun.trans ((if_pos hf).trans (if_neg (by simpa using hr))), postWords_reads body _ hw h⟩, fun hf hr => ?_,
    fun hf => hrun.trans (if_neg hf)⟩
  exact ⟨_, hrun.trans ((if_pos hf).trans (if_pos (by simpa using hr))), consume_reads (s := s) (t := s) _ h rfl rfl⟩

theorem firmware_clauses (h : s.ld.seg = some (4, body)) :
    (FirmwareFits body → s.ld.word < nbits (recDesc body) 38 19 → ∃ t, exec (.firmwareRecord ()) s = .next t ∧
      Posted s 4 body (0x600000000 + 8 * nbits (recDesc body) 18 0) (nbits (recDesc body) 38 19) t) ∧
    (¬ FirmwareFits body → exec (.firmwareRecord ()) s = .next (recFail s 7)) := by
  have hrun : exec (.firmwareRecord ()) s = if FirmwareFits body then
      .next (postWords s body (0x600000000 + 8 * nbits (recDesc body) 18 0) (nbits (recDesc body) 38 19)) else .next (recFail s 7) := by
    rw [exec_firmwareRecord]
    unfold execFirmwareRecord
    rw [recordBody_of_seg ha hc h]
    rfl
  exact ⟨fun hf hw => ⟨_, hrun.trans (if_pos hf), postWords_reads body _ hw h⟩, fun hf => hrun.trans (if_neg hf)⟩

theorem teller_clauses (h : s.ld.seg = some (5, body)) :
    (TellerFits body → s.ld.word < nbits (recDesc body) 33 21 → ∃ t, exec (.tellerRecord ()) s = .next t ∧
      Posted s 5 body (0x500000000 + 0x10000 * nbits (recDesc body) 7 0 + 0x8000 * nbits (recDesc body) 8 8 + 8 * nbits (recDesc body) 20 9)
        (nbits (recDesc body) 33 21) t) ∧
    (¬ TellerFits body → exec (.tellerRecord ()) s = .next (recFail s 7)) := by
  have hrun : exec (.tellerRecord ()) s = if TellerFits body then
      .next (postWords s body (0x500000000 + 0x10000 * nbits (recDesc body) 7 0 + 0x8000 * nbits (recDesc body) 8 8 + 8 * nbits (recDesc body) 20 9)
        (nbits (recDesc body) 33 21)) else .next (recFail s 7) := by
    rw [exec_tellerRecord]
    unfold execTellerRecord
    rw [recordBody_of_seg ha hc h]
    rfl
  exact ⟨fun hf hw => ⟨_, hrun.trans (if_pos hf), postWords_reads body _ hw h⟩, fun hf => hrun.trans (if_neg hf)⟩

end

end Sys2Proof.Machine

/-!
SUPPORT. HARDBLK, KEYS and REGS records (16_configuration.md R325, R339): words through an indirect port, wrapped keys, and register writes.
-/

namespace Sys2Proof.Machine

/-! ### Words through an indirect port -/

/-- The three writes of an access: DLO, DHI, and the one that starts it. -/
def portPut (s : State) (at_ lo hi sel n : Nat) : State :=
  loaderWrite (loaderWrite (loaderWrite s 2 (at_ + 4) lo 1 n) 2 (at_ + 8) hi 1 n) 2 at_ sel 3 n

/-- Where a sector's indirect port lies. -/
def portBase (sec kind : Nat) : Nat := 0x700500000 + 0x1000 * sec + (if kind = 0 then 0x100 else 0x200)

/-- The word that starts a write at a place. -/
def portStartWord (kind place : Nat) : Nat :=
  if kind = 0 then 2 ^ 31 + 2 ^ 30 + 2 ^ 29 + 2 ^ 8 * (place % 8) + place / 8 else 2 ^ 31 + 2 ^ 30 + place

section
variable {s : State} {body : List Nat} {sec kind start count : Nat}

theorem portSel_toNat {place : Nat} (hp : place < if kind = 0 then 192 else 16384) :
    (portSel kind place).toNat % 2 ^ 32 = portStartWord kind place := by
  unfold portSel portStartWord macSelWord mtSelWord
  by_cases h0 : kind = 0
  · rw [if_pos h0] at hp ⊢
    rw [if_pos h0, BitVec.toNat_ofNat, Bool.toNat_true]
    omega
  · rw [if_neg h0] at hp ⊢
    rw [if_neg h0, BitVec.toNat_ofNat, Bool.toNat_true, Bool.toNat_false]
    omega

theorem portWrites_eq {place : Nat} (w : Word64) (hp : place < if kind = 0 then 192 else 16384) :
    portWrites s sec kind place w =
      { portPut s (portBase sec kind) (w.toNat % 2 ^ 32 * 2 ^ 32) (w.toNat / 2 ^ 32) (portStartWord kind place) (s.ld.seq + 1) with
        ld := { (portPut s (portBase sec kind) (w.toNat % 2 ^ 32 * 2 ^ 32) (w.toNat / 2 ^ 32) (portStartWord kind place) (s.ld.seq + 1)).ld with
          busy := true, seq := s.ld.seq + 1 } } := by
  have hhi : w.toNat / 2 ^ 32 % 2 ^ 32 = w.toNat / 2 ^ 32 := Nat.mod_eq_of_lt (by have := w.isLt; omega)
  unfold portWrites portPut
  dsimp only
  rw [portSel_toNat hp, hhi, Nat.mod_self, Nat.mul_zero, Nat.pow_zero, Nat.mul_one, Nat.mul_one]
  rfl

theorem hardDesc_bounds (h : hardDesc body = some (sec, kind, start, count)) :
    kind ≤ 1 ∧ start + count ≤ (if kind = 0 then 192 else 16384) := by
  unfold hardDesc at h
  dsimp only at h
  obtain ⟨⟨_, hk, _, _, _, htop, _⟩, heq⟩ := Option.ite_none_right_eq_some.mp h
  simp only [Option.some.injEq, Prod.mk.injEq] at heq
  obtain ⟨rfl, rfl, rfl, rfl⟩ := heq
  exact ⟨hk, htop⟩

/-! ### HARDBLK -/

/-- A word of a port record that is under way or waits. -/
def portPending (s : State) (sec kind : Nat) : Bool :=
  if kind = 0 then s.flag (Reg.SEC_HB_STAT_ACC_BUSY sec) else s.flag (Reg.SEC_MT_STAT_BUSY sec)

theorem portRecord_issues (hb : s.ld.busy = false) (hp : portPending s sec kind = false)
    (hclr : kind = 1 → s.user = true → s.clrOpen = true) (hout : ldOut s ≤ 61) :
    portRecord s body sec kind start count = portWrites s sec kind (start + s.ld.word) (recWord body s.ld.word) := by
  have hstore : (kind == 1 && storeClosed s) = false := by
    by_cases h1 : kind = 1
    · cases hu : s.user
      · simp [storeClosed, hu]
      · simp [storeClosed, hclr h1 hu]
    · simp [h1]
  have hgo : ¬ (portPending s sec kind || (kind == 1 && storeClosed s) || decide (61 < ldOut s)) = true := by
    rw [hp, hstore]
    simpa using hout
  exact (if_neg (Bool.eq_false_iff.mp hb)).trans (if_neg hgo)

theorem portRecord_waits (hb : s.ld.busy = false)
    (hw : portPending s sec kind = true ∨ (kind = 1 ∧ s.user = true ∧ s.clrOpen = false) ∨ 61 < ldOut s) :
    portRecord s body sec kind start count = s := by
  have hstay : (portPending s sec kind || (kind == 1 && storeClosed s) || decide (61 < ldOut s)) = true := by
    rcases hw with h | ⟨rfl, hu, hclr⟩ | h
    · simp [h]
    · simp [storeClosed, hu, hclr]
    · simp [h]
  exact (if_neg (Bool.eq_false_iff.mp hb)).trans (if_pos hstay)

theorem portRecord_unserved (hb : s.ld.busy = true) (hp : ∀ a b r, s.ld.port ≠ some (a, b, some r)) : portRecord s body sec kind start count = s := by
  refine (if_pos hb).trans ?_
  cases hport : s.ld.port with
  | none => rfl
  | some e =>
    obtain ⟨a, b, r⟩ := e
    cases r with
    | none => rfl
    | some r => exact absurd hport (hp a b r)

theorem portRecord_served {a : Nat} {b : Nat} {served : Bool} (hb : s.ld.busy = true) (hp : s.ld.port = some (a, b, some served)) :
    portRecord s body sec kind start count =
      if count ≤ (if served then s.ld.word + 1 else s.ld.word) then
        consume { s with ld := { s.ld with word := if served then s.ld.word + 1 else s.ld.word, busy := false, port := none } } (8 + 8 * count)
      else { s with ld := { s.ld with word := if served then s.ld.word + 1 else s.ld.word, busy := false, port := none } } := by
  refine (if_pos hb).trans ?_
  rw [hp]

/-- The places of a record lie inside the region that the stream may write (R337). -/
def HardInside (s : State) (sec kind start count : Nat) : Prop :=
  s.ld.full = true ∨ (sec ∈ s.ld.secs ∧ (kind = 0 → ∀ i, i < count → (start + i) % 8 ∈ s.ld.planes))

theorem hardInside_iff : HardInside s sec kind start count ↔
    ¬ ((!s.ld.full) = true ∧ ((!s.ld.secs.contains sec) = true ∨
      (kind = 0 ∧ (List.range count).any (fun i => !s.ld.planes.contains ((start + i) % 8)) = true))) := by
  unfold HardInside
  simp [not_or, imp_iff_not_or]

end

section
variable {s : State} {body : List Nat} (ha : s.alive = true) (hc : tlrClock s = true)
include ha hc

theorem exec_hardblk_of_none (h : s.ld.seg = some (2, body)) (hd : hardDesc body = none) : exec (.hardblkRecord ()) s = .next (recFail s 7) := by
  rw [exec_hardblkRecord]
  unfold execHardblkRecord
  rw [recordBody_of_seg ha hc h]
  dsimp only
  rw [hd]

theorem hardblk_clauses {sec kind start count : Nat} (h : s.ld.seg = some (2, body)) (hd : hardDesc body = some (sec, kind, start, count)) :
    (¬ HardInside s sec kind start count → exec (.hardblkRecord ()) s = .next (recFail s 14)) ∧
    (HardInside s sec kind start count → exec (.hardblkRecord ()) s = .next (portRecord s body sec kind start count)) := by
  have hrun : exec (.hardblkRecord ()) s = if (!s.ld.full) = true ∧ ((!s.ld.secs.contains sec) = true ∨
      (kind = 0 ∧ (List.range count).any (fun i => !s.ld.planes.contains ((start + i) % 8)) = true)) then .next (recFail s 14)
      else .next (portRecord s body sec kind start count) := by
    rw [exec_hardblkRecord]
    unfold execHardblkRecord
    rw [recordBody_of_seg ha hc h]
    dsimp only
    rw [hd]
  exact ⟨fun hout => hrun.trans (if_pos (not_not.mp fun hn => hout (hardInside_iff.mpr hn))), fun hin => hrun.trans (if_neg (hardInside_iff.mp hin))⟩

/-! ### KEYS -/

/-- The key that a KEYS record wraps. -/
def recKey (s : State) (body : List Nat) : Option (List Nat) :=
  (ownerKey s).bind (fun ko => keyUnwrap (deriveKey ko 0x4B) ((body.drop 8).take 40))

theorem exec_keys_of_malformed (h : s.ld.seg = some (6, body)) (hd : nbits (recDesc body) 5 0 = 0 ∨ recDesc body / 64 ≠ 0 ∨ body.length < 48) :
    exec .keysRecord s = .next (recFail s 7) := by
  rw [exec_keysRecord]
  unfold execKeysRecord
  rw [recordBody_of_seg ha hc h]
  exact if_pos hd

theorem exec_keys_of_fits (h : s.ld.seg = some (6, body)) (he : nbits (recDesc body) 5 0 ≠ 0) (hd : recDesc body / 64 = 0) (hl : 48 ≤ body.length) :
    (recKey s body = none → exec .keysRecord s = .next (recFail s 11)) ∧
    (∀ k, recKey s body = some k → exec .keysRecord s =
      .next (if keyInUse s (nbits (recDesc body) 5 0) then recFail s 11 else consume (fillKey s (nbits (recDesc body) 5 0) k) 48)) := by
  have hfits : ¬ (nbits (recDesc body) 5 0 = 0 ∨ recDesc body / 64 ≠ 0 ∨ body.length < 48) := by omega
  have hrun : exec .keysRecord s = match recKey s body with
      | some k => .next (if keyInUse s (nbits (recDesc body) 5 0) then recFail s 11 else consume (fillKey s (nbits (recDesc body) 5 0) k) 48)
      | none => .next (recFail s 11) := by
    rw [exec_keysRecord]
    unfold execKeysRecord
    rw [recordBody_of_seg ha hc h]
    exact if_neg hfits
  refine ⟨fun hk => ?_, fun k hk => ?_⟩
  · rw [hrun, hk]
  · rw [hrun, hk]

end

section
variable {s : State} {body : List Nat}

/-- A record's key fills its entry (R301). -/
theorem keyTaken_reads {e : Nat} (he : e < 64) (k : List Nat) (h : s.ld.seg = some (6, body)) : let t := consume (fillKey s e k) 48
    Taken s 6 48 body t ∧ t.keyw = (fillKey s e k).keyw ∧ t.flag (keyValBit e) = true ∧ BitsBut [keyValBit e] s t ∧
      { t with regs := s.regs, cyc := s.cyc, keyw := s.keyw, ld := s.ld } = s := by
  intro t
  have hfits := keyValBit_fits e he
  have hsep : Separate [keyValBit e] := by simp [Separate, hfits]
  have hld : (fillKey s e k).ld = s.ld := rfl
  obtain ⟨htaken, hrest⟩ := consume_reads (s := s) (t := fillKey s e k) 48 h rfl hld
  have hw : Wrote [(keyValBit e, 1)] s (fillKey s e k) := ((Wrote.refl s).raiseF (keyValBit e)).of_regs rfl
  have hregs : t.regs = (fillKey s e k).regs := (congrArg State.regs hrest :)
  have hframe : { fillKey s e k with regs := s.regs, cyc := s.cyc, keyw := s.keyw, ld := s.ld } = s := rfl
  exact ⟨htaken, (congrArg State.keyw hrest :), (flag_of_regs hregs _).trans (hw.flag (b := true) hsep (by simp)),
    bitsBut_of_regs (hw.bitsBut hsep) hregs,
    (congrArg (fun u : State => { u with regs := s.regs, cyc := s.cyc, keyw := s.keyw, ld := s.ld }) hrest :).trans hframe⟩

/-! ### REGS -/

/-- A REGS record is well formed. -/
abbrev RegsFits (body : List Nat) : Prop := recDesc body % 4 = 0 ∧ nbits (recDesc body) 31 24 = 0 ∧ 8 ≤ body.length

theorem regs_clauses (ha : s.alive = true) (hc : tlrClock s = true) (h : s.ld.seg = some (7, body)) :
    let u := loaderWrite s 2 (0x700000000 + recDesc body % 2 ^ 24) (recDesc body / 2 ^ 32 * 2 ^ (8 * (recDesc body % 2 ^ 24 % 8))) 2 0
    (¬ RegsFits body → exec (.regsRecord ()) s = .next (recFail s 7)) ∧
    (RegsFits body → s.ld.busy = false → ldOut s = 0 → exec (.regsRecord ()) s = .next { u with ld := { u.ld with busy := true } }) ∧
    (RegsFits body → s.ld.busy = true ∨ ldOut s ≠ 0 → exec (.regsRecord ()) s = .next s) := by
  intro u
  have hrun : exec (.regsRecord ()) s = if recDesc body % 4 ≠ 0 ∨ nbits (recDesc body) 31 24 ≠ 0 ∨ body.length < 8 then .next (recFail s 7)
      else okIf (!s.ld.busy && ldOut s == 0) s { u with ld := { u.ld with busy := true } } := by
    rw [exec_regsRecord]
    unfold execRegsRecord
    rw [recordBody_of_seg ha hc h]
    rfl
  have hgo (hf : RegsFits body) : ¬ (recDesc body % 4 ≠ 0 ∨ nbits (recDesc body) 31 24 ≠ 0 ∨ body.length < 8) := by
    obtain ⟨h4, hz, hl⟩ := hf
    omega
  refine ⟨fun hf => hrun.trans (if_pos ?_), fun hf hb ho => (hrun.trans (if_neg (hgo hf))).trans (okIf_of_true s _ (by simp [hb, ho])),
    fun hf hw => (hrun.trans (if_neg (hgo hf))).trans (if_neg ?_)⟩
  · simp only [not_and_or, not_le] at hf
    exact hf
  · rcases hw with hb | ho
    · simp [hb]
    · simp [ho]

end

end Sys2Proof.Machine

/-!
SUPPORT. FRAMES records (16_configuration.md R325 to R327, R337; 04_cells_tiles.md R104): plane blocks written one after another, or the first one refused.
-/

namespace Sys2Proof.Machine

/-! ### The vertical-link check -/

theorem rtBit_congr {f g : Nat → Word64} {b : Nat} (h2 : f (4 * (b / 112) + 2) = g (4 * (b / 112) + 2))
    (h3 : f (4 * (b / 112) + 3) = g (4 * (b / 112) + 3)) : rtBit f b = rtBit g b := by
  unfold rtBit
  dsimp only
  rw [h2, h3]

/-- The block at the other end of the vertical links of a block. -/
def farBlock (b : Nat) : Nat := partner (blockSec b) * 1152 + b % 1152

/-- The check looks at the stored words of the block at the other end alone. -/
theorem vlinkClash_of_far {s t : State} {b : Nat} (words : List Word64)
    (h : ∀ w, w < 320 → tget (fun _ => 0) t.cfgw (320 * farBlock b + w) = tget (fun _ => 0) s.cfgw (320 * farBlock b + w)) :
    vlinkClash t b words = vlinkClash s b words := by
  have hinfo (w : Nat) (hw : w < 320) : t.cfgInfo (320 * farBlock b + w) = s.cfgInfo (320 * farBlock b + w) := congrArg cwInfo (h w hw)
  have hbit (n : Nat) (hn : n < 48) : rtBit (fun w => t.cfgInfo (320 * farBlock b + w)) (1920 + 12 * n) =
      rtBit (fun w => s.cfgInfo (320 * farBlock b + w)) (1920 + 12 * n) := rtBit_congr (hinfo _ (by omega)) (hinfo _ (by omega))
  unfold vlinkClash
  rw [Bool.eq_iff_iff, List.any_eq_true, List.any_eq_true]
  refine exists_congr fun n => and_congr_right fun hn => ?_
  exact iff_of_eq (congrArg (fun x => ((rtBit (fun w => words.getD w 0) (1920 + 12 * n)) && x) = true) (hbit n (List.mem_range.mp hn)))

theorem farBlock_apart (b : Nat) : farBlock b / 1152 ≠ b / 1152 := by
  unfold farBlock partner blockSec
  split <;> omega

/-! ### One block -/

/-- The words of a body's blocks. -/
theorem blockWords_length (body : List Nat) (i : Nat) : (blockWords body i).length = 320 := by simp [blockWords]

theorem blockWords_getD (body : List Nat) (i : Nat) {w : Nat} (hw : w < 320) : (blockWords body i).getD w 0 = recWord body (320 * i + w) := by
  unfold blockWords
  rw [List.getD_eq_getElem _ _ (by simpa using hw), List.getElem_map, List.getElem_range]

/-- The bits of CFG_STAT that a block written may change. -/
def noteFields : List Field := [Reg.CFG_STAT_RFX_OVF, Reg.CFG_STAT_RFX_BUSY]

section
variable {s : State} (b : Nat)

theorem rfxNote_reads (s : State) : { (rfxNote s b).ld with rfx := s.ld.rfx } = s.ld ∧ BitsBut noteFields s (rfxNote s b) ∧
    { rfxNote s b with regs := s.regs, cyc := s.cyc, ld := s.ld } = s := by
  unfold rfxNote
  dsimp only
  split
  · exact ⟨rfl, bitsBut_of_regs (bitsBut_refl _ s) rfl, rfl⟩
  · split
    · exact ⟨rfl, bitsBut_of_regs (bitsBut_refl _ s) rfl, rfl⟩
    · split
      · exact ⟨rfl, bitsBut_of_regs (bitsBut_refl _ s) rfl, rfl⟩
      · exact ⟨rfl, bitsBut_of_regs (bitsBut_raiseF (bitsBut_refl noteFields s) Reg.CFG_STAT_RFX_OVF (.head _) (by decide) (by decide)) rfl, rfl⟩

theorem setRfxq_reads (s : State) (q : List Nat) : (setRfxq s q).ld = { s.ld with rfxq := q } ∧ BitsBut noteFields s (setRfxq s q) ∧
    { setRfxq s q with regs := s.regs, ld := s.ld } = s :=
  ⟨rfl, bitsBut_putF (bitsBut_of_regs (bitsBut_refl noteFields s) rfl) Reg.CFG_STAT_RFX_BUSY _ (.tail _ (.head _)) (by decide) (by decide), rfl⟩

/-- The plane blocks of a body from `first` on have been written, `n` of them. -/
structure Framed (s : State) (body : List Nat) (first n : Nat) (t : State) : Prop where
  cells : ∀ k, tget (fun _ => 0) t.cfgw k =
    if 320 * first ≤ k ∧ k < 320 * first + 320 * n then cwEncode (recWord body (k - 320 * first)) else tget (fun _ => 0) s.cfgw k
  loaded : ∀ b, tget (fun _ => 0) t.loaded b = if first ≤ b ∧ b < first + n then 7 else tget (fun _ => 0) s.loaded b
  got : ∀ b, tget (fun _ => false) t.ld.got b = (decide (first ≤ b ∧ b < first + n) || tget (fun _ => false) s.ld.got b)
  loader : { t.ld with rfx := s.ld.rfx, rfxq := s.ld.rfxq, got := s.ld.got } = s.ld
  bits : BitsBut noteFields s t
  rest : { t with regs := s.regs, cyc := s.cyc, cfgw := s.cfgw, loaded := s.loaded, scrub := s.scrub, ld := s.ld } = s

theorem Framed.start (s : State) (body : List Nat) (first : Nat) : Framed s body first 0 s where
  cells k := (if_neg (by omega)).symm
  loaded b := (if_neg (by omega)).symm
  got b := by rw [decide_eq_false (by omega), Bool.false_or]
  loader := rfl
  bits := bitsBut_refl _ s
  rest := rfl

/-- A block that the region and the vertical-link check let pass. -/
def blockDone (t : State) (words : List Word64) : State :=
  let s1 := rfxNote (putBlock t b words) b
  let s2 := setRfxq s1 (s1.ld.rfxq.filter (· != b))
  { s2 with ld := { s2.ld with got := tset (fun _ => false) s2.ld.got b true } }

theorem blockDone_reads (t : State) (words : List Word64) : let u := blockDone b t words
    u.cfgw = (putBlock t b words).cfgw ∧ u.loaded = (putBlock t b words).loaded ∧ u.ld.got = tset (fun _ => false) t.ld.got b true ∧
      { u.ld with rfx := t.ld.rfx, rfxq := t.ld.rfxq, got := t.ld.got } = t.ld ∧ BitsBut noteFields t u ∧
      { u with regs := t.regs, cyc := t.cyc, cfgw := t.cfgw, loaded := t.loaded, scrub := t.scrub, ld := t.ld } = t := by
  intro u
  obtain ⟨hregs, -, -, -, -, -, -, hput⟩ := putBlock_reads t b words
  have hld : (putBlock t b words).ld = t.ld := (congrArg State.ld hput :)
  obtain ⟨hrfx, hnbits, hnote⟩ := rfxNote_reads b (putBlock t b words)
  unfold u blockDone
  generalize putBlock t b words = p at hregs hput hld hrfx hnbits hnote ⊢
  generalize rfxNote p b = x at hrfx hnbits hnote ⊢
  obtain ⟨hq, hqbits, hset⟩ := setRfxq_reads x (x.ld.rfxq.filter (· != b))
  dsimp only
  generalize setRfxq x (x.ld.rfxq.filter (· != b)) = y at hq hqbits hset ⊢
  have hgot : y.ld.got = t.ld.got := (congrArg Loader.got hq).trans ((congrArg Loader.got hrfx :).trans (congrArg Loader.got hld))
  refine ⟨(congrArg State.cfgw hset :).trans (congrArg State.cfgw hnote :), (congrArg State.loaded hset :).trans (congrArg State.loaded hnote :),
    congrArg (fun g => tset (fun _ => false) g b true) hgot, ?_, ?_, ?_⟩
  · rw [hq]
    exact (congrArg (fun l : Loader => { l with rfxq := t.ld.rfxq, rfx := t.ld.rfx, got := t.ld.got }) hrfx :).trans (by rw [hld])
  · exact bitsBut_of_regs (bitsBut_trans (bitsBut_trans (bitsBut_of_regs (bitsBut_refl noteFields t) hregs) hnbits) hqbits) rfl
  · have hx : { y with regs := t.regs, cyc := t.cyc, cfgw := t.cfgw, loaded := t.loaded, scrub := t.scrub, ld := t.ld } =
        { x with regs := t.regs, cyc := t.cyc, cfgw := t.cfgw, loaded := t.loaded, scrub := t.scrub, ld := t.ld } :=
      (congrArg (fun z : State => { z with regs := t.regs, cyc := t.cyc, cfgw := t.cfgw, loaded := t.loaded, scrub := t.scrub, ld := t.ld }) hset :)
    have hp : { x with regs := t.regs, cyc := t.cyc, cfgw := t.cfgw, loaded := t.loaded, scrub := t.scrub, ld := t.ld } =
        { p with regs := t.regs, cyc := t.cyc, cfgw := t.cfgw, loaded := t.loaded, scrub := t.scrub, ld := t.ld } :=
      (congrArg (fun z : State => { z with regs := t.regs, cyc := t.cyc, cfgw := t.cfgw, loaded := t.loaded, scrub := t.scrub, ld := t.ld }) hnote :)
    exact hx.trans (hp.trans (congrArg (fun z : State => { z with regs := t.regs, cyc := t.cyc, ld := t.ld }) hput :))

end

end Sys2Proof.Machine

/-!
SUPPORT. A FRAMES record as a whole (16_configuration.md R325 to R327, R337): every block written, or the first refused.
-/

namespace Sys2Proof.Machine

/-! ### The blocks of a record -/

/-- A block of the record's sector that the stream may write (R337). -/
def FrameAllowed (s : State) (first b : Nat) : Prop := s.ld.full = true ∨ (first / 1152 ∈ s.ld.secs ∧ b % 1152 / 144 ∈ s.ld.planes)

section
variable {s t : State} {body : List Nat} {first n : Nat}

theorem Framed.fullSecsPlanes (h : Framed s body first n t) : t.ld.full = s.ld.full ∧ t.ld.secs = s.ld.secs ∧ t.ld.planes = s.ld.planes :=
  ⟨(congrArg Loader.full h.loader :), (congrArg Loader.secs h.loader :), (congrArg Loader.planes h.loader :)⟩

/-- The blocks written leave the check of the next one as it was: its links end in another sector. -/
theorem Framed.clash (h : Framed s body first n t) (hsec : (first + n) / 1152 = first / 1152) (words : List Word64) :
    vlinkClash t (first + n) words = vlinkClash s (first + n) words := by
  refine vlinkClash_of_far words fun w hw => (h.cells _).trans (if_neg ?_)
  have hfar := farBlock_apart (first + n)
  generalize farBlock (first + n) = far at hfar ⊢
  omega

theorem Framed.step (h : Framed s body first n t) : Framed s body first (n + 1) (blockDone (first + n) t (blockWords body n)) := by
  obtain ⟨-, -, -, -, hcells, h7, hloaded, -⟩ := putBlock_reads t (first + n) (blockWords body n)
  obtain ⟨hcfg, hload, hgot, hloader, hbits, hrest⟩ := blockDone_reads (first + n) t (blockWords body n)
  generalize blockDone (first + n) t (blockWords body n) = u at hcfg hload hgot hloader hbits hrest ⊢
  generalize putBlock t (first + n) (blockWords body n) = p at hcells h7 hloaded hcfg hload
  refine ⟨fun k => ?_, fun b => ?_, fun b => ?_, ?_, bitsBut_trans h.bits hbits, ?_⟩
  · rw [hcfg, hcells, blockWords_length]
    by_cases hk : 320 * (first + n) ≤ k ∧ k < 320 * (first + n) + 320
    · rw [if_pos hk, if_pos (by omega), blockWords_getD body n (by omega)]
      congr 2
      omega
    · rw [if_neg hk, h.cells]
      by_cases hin : 320 * first ≤ k ∧ k < 320 * first + 320 * n
      · rw [if_pos hin, if_pos (by omega)]
      · rw [if_neg hin, if_neg (by omega)]
  · rw [hload]
    by_cases hb : b = first + n
    · rw [hb, h7, if_pos (by omega)]
    · rw [hloaded b hb, h.loaded]
      exact if_congr (by omega) rfl rfl
  · rw [hgot, tget_tset, h.got]
    by_cases hb : b = first + n
    · rw [if_pos hb, decide_eq_true (by omega), Bool.true_or]
    · rw [if_neg hb]
      congr 2
      exact propext (by omega)
  · exact (congrArg (fun l : Loader => { l with rfx := s.ld.rfx, rfxq := s.ld.rfxq, got := s.ld.got }) hloader :).trans h.loader
  · exact (congrArg (fun x : State => { x with regs := s.regs, cyc := s.cyc, cfgw := s.cfgw, loaded := s.loaded, scrub := s.scrub, ld := s.ld })
      hrest :).trans h.rest

theorem frameBlock_of_outside {b : Nat} (words : List Word64) (bad : Bool) (hb : b / 1152 = first / 1152) (h : ¬ FrameAllowed s first b) :
    frameBlock s b words bad = (s, 0x0E) := by
  refine if_pos ?_
  unfold FrameAllowed at h
  rw [← hb] at h
  simpa [blockSec, blockPlane, not_or, imp_iff_not_or] using h

theorem frameBlock_of_allowed {b : Nat} (words : List Word64) (bad : Bool) (hb : b / 1152 = first / 1152) (h : FrameAllowed s first b) :
    frameBlock s b words bad = if vlinkClash s b words then (s, 0x0A) else (blockDone b s words, if bad then 0x09 else 0) := by
  refine if_neg ?_
  unfold FrameAllowed at h
  rw [← hb] at h
  simpa [blockSec, blockPlane, imp_iff_not_or] using h

/-- A failed block is the last one looked at. -/
theorem framesFold_of_failed (f : Nat → State → State × Nat) (l : List Nat) {acc : State × Nat} (h : acc.2 ≠ 0) :
    l.foldl (fun acc i => if acc.2 ≠ 0 then acc else f i acc.1) acc = acc := by
  induction l with
  | nil => rfl
  | cons i l ih => exact (congrArg (List.foldl _ · l) (if_pos h)).trans ih

/-- A record whose first block fails. -/
theorem framesBlocks_of_first {count code : Nat} (bad : Option Nat) (hc : 1 ≤ count) (h0 : code ≠ 0)
    (h : frameBlock s first (blockWords body 0) (bad == some 0) = (s, code)) : framesBlocks s body first count bad = (s, code) := by
  obtain ⟨c, rfl⟩ := Nat.exists_eq_add_of_le' hc
  unfold framesBlocks
  rw [List.range_succ_eq_map, List.foldl_cons]
  have hfirst : (if (s, 0).2 ≠ 0 then (s, 0) else frameBlock (s, 0).1 (first + 0) (blockWords body 0) (bad == some 0)) = (s, code) :=
    (if_neg (not_not.mpr rfl)).trans h
  rw [hfirst]
  exact framesFold_of_failed (fun i t => frameBlock t (first + i) (blockWords body i) (bad == some i)) _ h0

/-- A record all of whose blocks pass. -/
theorem framed_framesBlocks {count : Nat} (hsec : ∀ i, i < count → (first + i) / 1152 = first / 1152)
    (hok : ∀ i, i < count → FrameAllowed s first (first + i) ∧ vlinkClash s (first + i) (blockWords body i) = false) :
    (framesBlocks s body first count none).2 = 0 ∧ Framed s body first count (framesBlocks s body first count none).1 := by
  unfold framesBlocks
  induction count with
  | zero => exact ⟨rfl, .start s body first⟩
  | succ c ih =>
    obtain ⟨hzero, hdone⟩ := ih (fun i hi => hsec i (by omega)) fun i hi => hok i (by omega)
    rw [List.range_succ, List.foldl_append]
    generalize (List.range c).foldl (fun (acc : State × Nat) i =>
      if acc.2 ≠ 0 then acc else frameBlock acc.1 (first + i) (blockWords body i) (none == some i)) (s, 0) = acc at hzero hdone
    obtain ⟨t, code⟩ := acc
    obtain rfl : code = 0 := hzero
    obtain ⟨hallowed, hclash⟩ := hok c (by omega)
    have hpass : FrameAllowed t first (first + c) := by
      obtain ⟨hfull, hsecs, hplanes⟩ := hdone.fullSecsPlanes
      unfold FrameAllowed at hallowed ⊢
      rwa [hfull, hsecs, hplanes]
    have hstep : frameBlock t (first + c) (blockWords body c) (none == some c) = (blockDone (first + c) t (blockWords body c), 0) := by
      rw [frameBlock_of_allowed _ _ (hsec c (by omega)) hpass, hdone.clash (hsec c (by omega)), hclash]
      rfl
    have hlast : [c].foldl (fun (acc : State × Nat) i =>
        if acc.2 ≠ 0 then acc else frameBlock acc.1 (first + i) (blockWords body i) (none == some i)) (t, 0) =
        (blockDone (first + c) t (blockWords body c), 0) := hstep
    rw [hlast]
    exact ⟨rfl, hdone.step⟩

end

/-! ### The command -/

theorem framesDesc_bounds {body : List Nat} {first count : Nat} (h : framesDesc body = some (first, count)) :
    1 ≤ count ∧ ∀ i, i < count → (first + i) / 1152 = first / 1152 := by
  unfold framesDesc at h
  dsimp only at h
  obtain ⟨⟨h1, _, _, _, _, _, _, hl, _⟩, heq⟩ := Option.ite_none_right_eq_some.mp h
  simp only [Option.some.injEq, Prod.mk.injEq] at heq
  obtain ⟨rfl, rfl⟩ := heq
  refine ⟨h1, fun i hi => ?_⟩
  generalize 144 * nbits (leNat (slice body 0 8)) 10 8 + 12 * nbits (leNat (slice body 0 8)) 7 4 + nbits (leNat (slice body 0 8)) 3 0 = low at hl ⊢
  generalize nbits (leNat (slice body 0 8)) 28 20 = c at hl hi
  omega

section
variable {s : State} {body : List Nat} (ha : s.alive = true) (hc : tlrClock s = true) (h : s.ld.seg = some (1, body))
include ha hc h

theorem exec_frames_of_none (hd : framesDesc body = none) (bad : Option (Fin 409)) : exec (.framesRecord bad) s = .next (recFail s 7) := by
  rw [exec_framesRecord]
  unfold execFramesRecord
  rw [recordBody_of_seg ha hc h]
  dsimp only
  rw [hd]

variable {first count : Nat} (hd : framesDesc body = some (first, count))
include hd

theorem exec_frames_of_some (bad : Option (Fin 409)) : exec (.framesRecord bad) s =
    .next (if (framesBlocks s body first count (bad.map (·.val))).2 = 0 then consume (framesBlocks s body first count (bad.map (·.val))).1 body.length
      else recFail (framesBlocks s body first count (bad.map (·.val))).1 (framesBlocks s body first count (bad.map (·.val))).2) := by
  rw [exec_framesRecord]
  unfold execFramesRecord
  rw [recordBody_of_seg ha hc h]
  dsimp only
  rw [hd]

theorem exec_frames_refused {code : Nat} (h0 : code ≠ 0) (bad : Option (Fin 409))
    (hf : ∀ bad, frameBlock s first (blockWords body 0) bad = (s, code)) : exec (.framesRecord bad) s = .next (recFail s code) := by
  rw [exec_frames_of_some ha hc h hd, framesBlocks_of_first _ (framesDesc_bounds hd).1 h0 (hf _)]
  exact congrArg Host.Outcome.next (if_neg h0)

theorem frames_clauses :
    (¬ FrameAllowed s first first → ∀ bad, exec (.framesRecord bad) s = .next (recFail s 14)) ∧
    (FrameAllowed s first first → vlinkClash s first (blockWords body 0) = true → ∀ bad, exec (.framesRecord bad) s = .next (recFail s 10)) ∧
    ((∀ i, i < count → FrameAllowed s first (first + i) ∧ vlinkClash s (first + i) (blockWords body i) = false) →
      ∃ t, exec (.framesRecord none) s = .next t ∧ t.ld.seg = none ∧ t.ld.index = s.ld.index + 1 ∧
        (∀ k, tget (fun _ => 0) t.cfgw k = if 320 * first ≤ k ∧ k < 320 * first + 320 * count then cwEncode (recWord body (k - 320 * first))
          else tget (fun _ => 0) s.cfgw k) ∧
        (∀ b, tget (fun _ => 0) t.loaded b = if first ≤ b ∧ b < first + count then 7 else tget (fun _ => 0) s.loaded b) ∧
        (∀ b, tget (fun _ => false) t.ld.got b = (decide (first ≤ b ∧ b < first + count) || tget (fun _ => false) s.ld.got b)) ∧
        BitsBut noteFields s t ∧
        { t with regs := s.regs, cyc := s.cyc, cfgw := s.cfgw, loaded := s.loaded, scrub := s.scrub, ld := s.ld } = s) := by
  refine ⟨fun hout bad => ?_, fun hin hclash bad => ?_, fun hok => ?_⟩
  · exact exec_frames_refused ha hc h hd (by decide) bad fun _ => frameBlock_of_outside _ _ rfl hout
  · exact exec_frames_refused ha hc h hd (by decide) bad fun _ => (frameBlock_of_allowed _ _ rfl hin).trans (if_pos hclash)
  · obtain ⟨hzero, hdone⟩ := framed_framesBlocks (framesDesc_bounds hd).2 hok
    have hexec := (exec_frames_of_some ha hc h hd none).trans (congrArg Host.Outcome.next (if_pos hzero))
    change exec (.framesRecord none) s = .next (consume (framesBlocks s body first count none).1 body.length) at hexec
    generalize (framesBlocks s body first count none).1 = u at hdone hexec
    have hseg : u.ld.seg = some (1, body) := (congrArg Loader.seg hdone.loader :).trans h
    have hindex : u.ld.index = s.ld.index := (congrArg Loader.index hdone.loader :)
    rw [consume_eq body.length hseg, if_pos le_rfl] at hexec
    exact ⟨_, hexec, rfl, congrArg (· + 1) hindex, hdone.cells, hdone.loaded, hdone.got, bitsBut_of_regs hdone.bits rfl, hdone.rest⟩

end

end Sys2Proof.Machine

/-!
SUPPORT. The end of a stream (16_configuration.md R324, R332, R337, R338): planes that become READY, what CFG_STAT and CFG_SEQ show, and a region that
leaves escrow.
-/

namespace Sys2Proof.Machine

/-! ### Planes that become READY -/

section
variable {α : Type} (sec p : α → Nat) {s t : State}

theorem planeState_setPlaneState (s : State) {a b q r : Nat} (hq : q < 8) (hr : r < 8) :
    (s.setPlaneState a q 1).planeState b r = if a = b ∧ q = r then 1 else s.planeState b r := by
  unfold State.setPlaneState State.planeState
  by_cases hb : a = b
  · subst hb
    by_cases hqr : q = r
    · subst hqr
      rw [if_pos ⟨rfl, rfl⟩, getF_setF_self _ _ _ (Nat.le_succ _) (show 2 * q + 1 < 32 by omega)]
      have hwidth : 2 * q + 1 + 1 - 2 * q = 2 := by omega
      exact congrArg (1 % 2 ^ ·) hwidth
    · rw [if_neg fun h => hqr h.2]
      exact getF_setF_disjoint _ _ _ _ (Nat.le_succ _) (show 2 * q + 1 < 32 by omega) (show 2 * q + 1 < 2 * r ∨ 2 * r + 1 < 2 * q by omega)
  · rw [if_neg fun h => hb h.1]
    refine getF_setF_reg_ne _ _ _ _ ?_
    simp only [Reg.SEC_PLANE]
    omega

/-- Planes of sectors set READY, one after another. -/
def planesReady (s : State) (l : List α) : State := l.foldl (fun acc a => acc.setPlaneState (sec a) (p a) 1) s

theorem regsOnly_planesReady (s : State) (l : List α) : RegsOnly s (planesReady sec p s l) :=
  (RegsOnly.refl s).foldl (fun u _ => (RegsOnly.refl u).setF _ _) l

theorem planeState_planesReady (s : State) {l : List α} (hp : ∀ a ∈ l, p a < 8) (b : Nat) {q : Nat} (hq : q < 8) :
    (planesReady sec p s l).planeState b q = if ∃ a ∈ l, sec a = b ∧ p a = q then 1 else s.planeState b q := by
  induction l generalizing s with
  | nil => exact (if_neg (by simp)).symm
  | cons a l ih =>
    refine (ih (s.setPlaneState (sec a) (p a) 1) fun x hx => hp x (List.mem_cons_of_mem a hx)).trans ?_
    rw [planeState_setPlaneState s (hp a List.mem_cons_self) hq]
    by_cases hl : ∃ x ∈ l, sec x = b ∧ p x = q
    · obtain ⟨x, hx, heq⟩ := hl
      rw [if_pos ⟨x, hx, heq⟩, if_pos ⟨x, List.mem_cons_of_mem a hx, heq⟩]
    · rw [if_neg hl]
      exact if_congr ((List.exists_mem_cons_iff _ _ _).trans (or_iff_left hl)).symm rfl rfl

/-- The planes of a region set READY. -/
theorem regionReady_eq (s : State) (secs planes : List Nat) :
    secs.foldl (fun acc sec => planes.foldl (fun acc p => acc.setPlaneState sec p 1) acc) s =
      planesReady Prod.fst Prod.snd s (secs.flatMap fun sec => planes.map (sec, ·)) := by
  unfold planesReady
  rw [List.foldl_flatMap]
  congr 1
  funext acc sec
  rw [List.foldl_map]

end

/-! ### What a completed stream shows -/

/-- The fields that the end of a stream writes. -/
def doneFields : List Field := [Reg.CFG_SPSTAT_SPACE, Reg.CFG_CNT_OK_CNT, Reg.CFG_STAT_DONE_OK, Reg.CFG_STAT_PSRC, Reg.CFG_STAT_STATE]

section
variable {s t : State}

/-- CFG_STAT and CFG_CNT at the end of a stream. -/
def doneShown (s : State) : State :=
  (((s.setF Reg.CFG_STAT_STATE 3).setF Reg.CFG_STAT_PSRC 0).raiseF Reg.CFG_STAT_DONE_OK).incF Reg.CFG_CNT_OK_CNT

/-- The loader idle, and CFG_SPSTAT with it. -/
def doneIdle (u : State) : State := { u with ld := u.ld.idle }.setF Reg.CFG_SPSTAT_SPACE (256 - u.ld.idle.fifo.length)

theorem streamDone_eq (s : State) : streamDone s = (doneIdle (doneShown s)).raiseEv 224 := rfl

theorem doneIdle_reads {vals : List (Field × Nat)} {s u : State} (hw : Wrote vals s u) (hframe : { u with regs := s.regs, cyc := s.cyc } = s)
    (hevs : u.cyc.evs = s.cyc.evs) : Wrote ((Reg.CFG_SPSTAT_SPACE, 256 - u.ld.idle.fifo.length) :: vals) s (doneIdle u) ∧
      (doneIdle u).ld = s.ld.idle ∧ (doneIdle u).cyc.evs = s.cyc.evs ∧ { doneIdle u with regs := s.regs, cyc := s.cyc, ld := s.ld } = s := by
  have hld : u.ld = s.ld := (congrArg State.ld hframe :)
  exact ⟨(hw.of_regs (t := u) rfl).setF _ _, congrArg Loader.idle hld, hevs, (congrArg (fun x : State => { x with ld := s.ld }) hframe :)⟩

theorem raiseEv_frame {s v : State} (e : Nat) (hevs : v.cyc.evs = s.cyc.evs) (hframe : { v with regs := s.regs, cyc := s.cyc, ld := s.ld } = s) :
    (v.raiseEv e).raised = (s.raiseEv e).raised ∧
      { v.raiseEv e with regs := s.regs, cyc := s.cyc, raised := s.raised, ld := s.ld } = s :=
  ⟨raiseEv_raised_congr e (congrArg State.raised hframe :) hevs (congrArg State.clockOn hframe :) (congrArg State.dbgHalt hframe :),
    (congrArg (fun x : State => { x with raised := s.raised }) hframe :)⟩

theorem doneShown_reads (s : State) : Wrote [(Reg.CFG_CNT_OK_CNT, min (s.getF Reg.CFG_CNT_OK_CNT + 1) 65535), (Reg.CFG_STAT_DONE_OK, 1),
    (Reg.CFG_STAT_PSRC, 0), (Reg.CFG_STAT_STATE, 3)] s (doneShown s) ∧ (doneShown s).cyc.evs = s.cyc.evs ∧
      { doneShown s with regs := s.regs, cyc := s.cyc } = s := by
  have hsep : Separate doneFields := .of_ok rfl
  refine ⟨?_, ?_, ?_⟩
  · exact ((((Wrote.refl s).setF _ 3).setF _ 0).raiseF _).addF 1 hsep.tail rfl
  · exact (incF_evs _ _).trans (raiseF_evs _ _)
  · have hfits (f : Field) (hf : f ∈ doneFields) : f.Fits := hsep.1 f hf
    exact (((((onlyBits_refl s doneFields).setF Reg.CFG_STAT_STATE 3 (by decide) (hfits _ (by decide))).setF Reg.CFG_STAT_PSRC 0 (by decide)
      (hfits _ (by decide))).raiseF Reg.CFG_STAT_DONE_OK (by decide) (hfits _ (by decide))).addF Reg.CFG_CNT_OK_CNT 1 (by decide) (hfits _ (by decide))).2

theorem streamDone_reads (s : State) : let t := streamDone s
    t.getF Reg.CFG_STAT_STATE = 3 ∧ t.flag Reg.CFG_STAT_DONE_OK = true ∧ t.raised = (s.raiseEv 224).raised ∧ t.ld = s.ld.idle ∧
      BitsBut doneFields s t ∧ { t with regs := s.regs, cyc := s.cyc, raised := s.raised, ld := s.ld } = s := by
  have hsep : Separate doneFields := .of_ok rfl
  obtain ⟨hshown, hevs, hframe⟩ := doneShown_reads s
  obtain ⟨hw, hld, hdevs, hdframe⟩ := doneIdle_reads hshown hframe hevs
  rw [streamDone_eq]
  generalize doneIdle (doneShown s) = v at hw hld hdevs hdframe ⊢
  obtain ⟨hraised, hrest⟩ := raiseEv_frame 224 hdevs hdframe
  have hwe := hw.raiseEv 224
  exact ⟨hwe.getF hsep (by simp) (show 3 < 2 ^ 4 by decide), hwe.flag (b := true) hsep (by simp), hraised, hld, hwe.bitsBut hsep, hrest⟩

end

end Sys2Proof.Machine

/-!
SUPPORT. END (16_configuration.md R324, R332, R337, R338, 17_scrubbing.md R348): a full stream complete, a partial one complete, and what fails.
-/

namespace Sys2Proof.Machine

/-! ### A full stream -/

section
variable (s : State)

/-- The planes that received a block, by sector and plane together. -/
def gotPlanes : List Nat := tkeys (fun b => b / 144) s.ld.got

theorem mem_gotPlanes {q : Nat} : q ∈ gotPlanes s ↔ ∃ kv ∈ s.ld.got, kv.1 / 144 = q := by
  unfold gotPlanes tkeys
  rw [List.mem_eraseDups, List.mem_map]

/-- The sequence number of the image at hand. -/
def imageSeq : Nat := leNat ((s.ld.hdr.drop 8).take 8)

/-- The image named and its planes READY. -/
def imageNamed : State :=
  (((planesReady (· / 8) (· % 8) s (gotPlanes s)).setF Reg.CFG_STAT_COPY (if s.ld.src = 1 then 1 else if s.ld.src = 2 then 2 else 0)).setReg Reg.CFG_SEQ_LO
    (BitVec.ofNat 32 (imageSeq s))).setReg Reg.CFG_SEQ_HI (BitVec.ofNat 32 (imageSeq s / 2 ^ 32))

theorem fullDone_eq : fullDone s = streamDone (imageNamed s) := rfl

theorem imageNamed_reads : RegsOnly s (imageNamed s) ∧
    (∀ sec p, p < 8 → (imageNamed s).planeState sec p = if ∃ kv ∈ s.ld.got, kv.1 / 144 = 8 * sec + p then 1 else s.planeState sec p) ∧
    (imageNamed s).getF Reg.CFG_STAT_COPY = (if s.ld.src = 1 then 1 else if s.ld.src = 2 then 2 else 0) ∧
    ((imageNamed s).reg Reg.CFG_SEQ_LO).toNat + 2 ^ 32 * ((imageNamed s).reg Reg.CFG_SEQ_HI).toNat = imageSeq s % 2 ^ 64 := by
  have hready := regsOnly_planesReady (· / 8) (· % 8) s (gotPlanes s)
  have hplanes (sec : Nat) {p : Nat} (hp : p < 8) := planeState_planesReady (· / 8) (· % 8) s (l := gotPlanes s)
    (fun a _ => Nat.mod_lt a (by decide)) sec hp
  unfold imageNamed
  generalize planesReady (· / 8) (· % 8) s (gotPlanes s) = u at hready hplanes ⊢
  refine ⟨((hready.setF _ _).setReg _ _).setReg _ _, fun sec p hp => ?_, ?_, ?_⟩
  · have hoff (o : Nat) (ho : o < 0x500000) : Reg.SEC_PLANE sec ≠ o := by
      simp only [Reg.SEC_PLANE]
      omega
    unfold State.planeState at hplanes ⊢
    rw [getF_setReg_ne _ _ _ _ (hoff _ (by decide)), getF_setReg_ne _ _ _ _ (hoff _ (by decide)), getF_setF_reg_ne _ _ _ _ (hoff _ (by decide)),
      hplanes sec hp]
    refine if_congr ?_ rfl rfl
    constructor
    · rintro ⟨q, hq, h8, hmod⟩
      obtain ⟨kv, hkv, heq⟩ := (mem_gotPlanes s).mp hq
      exact ⟨kv, hkv, by omega⟩
    · rintro ⟨kv, hkv, heq⟩
      exact ⟨8 * sec + p, (mem_gotPlanes s).mpr ⟨kv, hkv, heq⟩, by omega, by omega⟩
  · rw [getF_setReg_ne _ _ _ _ (by decide), getF_setReg_ne _ _ _ _ (by decide), getF_setF_self _ _ _ (by decide) (by decide)]
    split
    · rfl
    · split <;> rfl
  · rw [reg_setReg_self, reg_setReg_ne _ _ _ _ (by decide), reg_setReg_self, BitVec.toNat_ofNat, BitVec.toNat_ofNat]
    omega

/-- No plane's state lies in a register of CFG. -/
theorem doneFields_noPlane (sec : Nat) : ∀ f ∈ doneFields, f.reg ≠ Reg.SEC_PLANE sec := by
  have hlow : ∀ f ∈ doneFields, f.reg < 0x500000 := by decide
  intro f hf h
  have := hlow f hf
  rw [h] at this
  simp only [Reg.SEC_PLANE] at this
  omega

theorem fullDone_reads : let t := fullDone s
    (∀ sec p, p < 8 → t.planeState sec p = if ∃ kv ∈ s.ld.got, kv.1 / 144 = 8 * sec + p then 1 else s.planeState sec p) ∧
    t.getF Reg.CFG_STAT_STATE = 3 ∧ t.getF Reg.CFG_STAT_COPY = (if s.ld.src = 1 then 1 else if s.ld.src = 2 then 2 else 0) ∧
    (t.reg Reg.CFG_SEQ_LO).toNat + 2 ^ 32 * (t.reg Reg.CFG_SEQ_HI).toNat = imageSeq s % 2 ^ 64 ∧
    t.flag Reg.CFG_STAT_DONE_OK = true ∧ t.raised = (s.raiseEv 224).raised ∧ t.ld = s.ld.idle ∧
    { t with regs := s.regs, cyc := s.cyc, raised := s.raised, ld := s.ld } = s := by
  obtain ⟨honly, hplanes, hcopy, hseq⟩ := imageNamed_reads s
  rw [fullDone_eq]
  generalize imageNamed s = u at honly hplanes hcopy hseq ⊢
  obtain ⟨hstate, hok, hraised, hld, hbits, hframe⟩ := streamDone_reads u
  have hsame : { u with regs := s.regs } = s := honly
  have hev : (u.raiseEv 224).raised = (s.raiseEv 224).raised :=
    raiseEv_raised_congr 224 (congrArg State.raised hsame :) (congrArg (fun x : State => x.cyc.evs) hsame :) (congrArg State.clockOn hsame :)
      (congrArg State.dbgHalt hsame :)
  have hlds : u.ld = s.ld := (congrArg State.ld hsame :)
  have hlo : (streamDone u).reg Reg.CFG_SEQ_LO = u.reg Reg.CFG_SEQ_LO := reg_of_bitsBut hbits (by decide)
  have hhi : (streamDone u).reg Reg.CFG_SEQ_HI = u.reg Reg.CFG_SEQ_HI := reg_of_bitsBut hbits (by decide)
  generalize streamDone u = t at hstate hok hraised hld hbits hframe hlo hhi ⊢
  refine ⟨fun sec p hp => ?_, hstate, (getF_of_bitsBut hbits (by decide)).trans hcopy, ?_, hok, hraised.trans hev, hld.trans (congrArg Loader.idle hlds), ?_⟩
  · exact (getF_of_reg (reg_of_bitsBut hbits (doneFields_noPlane sec))).trans (hplanes sec p hp)
  · rw [hlo, hhi]
    exact hseq
  · have hrest : { t with regs := s.regs, cyc := s.cyc, raised := s.raised, ld := s.ld } =
        { u with regs := s.regs, cyc := s.cyc, raised := s.raised, ld := s.ld } :=
      (congrArg (fun x : State => { x with regs := s.regs, cyc := s.cyc, raised := s.raised, ld := s.ld }) hframe :)
    exact hrest.trans (congrArg (fun x : State => { x with cyc := s.cyc, raised := s.raised, ld := s.ld }) hsame :)

end

/-! ### A partial stream -/

section
variable {s : State} {secs planes : List Nat}

/-- A sweep of a sector in progress reads none of the planes (R348). -/
def sweepSkips (planes : List Nat) (acc : State) (sec : Nat) : State :=
  acc.setScrub sec { acc.scrubOf sec with skip := (acc.scrubOf sec).skip ++ planes }

theorem scrubOf_setScrub_ne (s : State) {a b : Nat} (x : Scrub) (h : b ≠ a) : (s.setScrub a x).scrubOf b = s.scrubOf b := tget_tset_ne _ _ _ _ _ h

theorem sweepSkips_reads (s : State) (hnd : secs.Nodup) :
    (∀ sec, (secs.foldl (sweepSkips planes) s).scrubOf sec =
      if sec ∈ secs then { s.scrubOf sec with skip := (s.scrubOf sec).skip ++ planes } else s.scrubOf sec) ∧
    { secs.foldl (sweepSkips planes) s with scrub := s.scrub } = s := by
  induction secs generalizing s with
  | nil => exact ⟨fun _ => (if_neg List.not_mem_nil).symm, rfl⟩
  | cons a l ih =>
    obtain ⟨ha, hl⟩ := List.nodup_cons.mp hnd
    obtain ⟨hread, hframe⟩ := ih (sweepSkips planes s a) hl
    have hstep : { sweepSkips planes s a with scrub := s.scrub } = s := rfl
    refine ⟨fun sec => (hread sec).trans ?_, (congrArg (fun x : State => { x with scrub := s.scrub }) hframe :).trans hstep⟩
    by_cases hs : sec = a
    · subst hs
      rw [if_neg ha, if_pos List.mem_cons_self]
      exact scrubOf_setScrub_self s sec _
    · have hkeep : (sweepSkips planes s a).scrubOf sec = s.scrubOf sec := scrubOf_setScrub_ne s _ hs
      rw [hkeep]
      exact if_congr (by simp [hs]) rfl rfl

/-- Repairs that wait for a block end. -/
def mendBlock (acc : State) (b : Nat) : State :=
  if (acc.scrubOf (blockSec b)).pend.contains b || (acc.scrubOf (blockSec b)).failed.contains b then blockRepaired acc b else acc

theorem mendBlocks_of_none {l : List Nat} (h : ∀ b ∈ l, b ∉ (s.scrubOf (blockSec b)).pend ∧ b ∉ (s.scrubOf (blockSec b)).failed) :
    l.foldl mendBlock s = s := by
  induction l with
  | nil => rfl
  | cons b l ih =>
    obtain ⟨hp, hf⟩ := h b List.mem_cons_self
    have hstep : mendBlock s b = s := if_neg (by simp [hp, hf])
    rw [List.foldl_cons, hstep]
    exact ih fun c hc => h c (List.mem_cons_of_mem b hc)

/-- The region of a partial stream READY, with its slot registers reset. -/
def regionReady (s : State) : State :=
  sregReset (planesReady Prod.fst Prod.snd s (s.ld.secs.flatMap fun sec => s.ld.planes.map (sec, ·)))
    (fun sec p => s.ld.secs.contains sec && s.ld.planes.contains p)

theorem partialDone_eq (s : State) : partialDone s =
    streamDone ((s.ld.got.map (·.1)).foldl mendBlock (s.ld.secs.foldl (sweepSkips s.ld.planes) (regionReady s))) := by
  unfold regionReady
  rw [← regionReady_eq]
  rfl

theorem regionReady_reads (s : State) (hp : ∀ p ∈ s.ld.planes, p < 8) :
    (∀ sec p, p < 8 → (regionReady s).planeState sec p = if sec ∈ s.ld.secs ∧ p ∈ s.ld.planes then 1 else s.planeState sec p) ∧
    { regionReady s with regs := s.regs, sreg := s.sreg } = s := by
  have honly : { planesReady Prod.fst Prod.snd s (s.ld.secs.flatMap fun sec => s.ld.planes.map (sec, ·)) with regs := s.regs } = s :=
    regsOnly_planesReady Prod.fst Prod.snd s (s.ld.secs.flatMap fun sec => s.ld.planes.map (sec, ·))
  have hmem (a : Nat × Nat) : a ∈ s.ld.secs.flatMap (fun sec => s.ld.planes.map (sec, ·)) ↔ a.1 ∈ s.ld.secs ∧ a.2 ∈ s.ld.planes := by
    simp only [List.mem_flatMap, List.mem_map]
    constructor
    · rintro ⟨sec, hs, p, hp, rfl⟩
      exact ⟨hs, hp⟩
    · exact fun h => ⟨a.1, h.1, a.2, h.2, rfl⟩
  have hread (sec : Nat) {p : Nat} (hp8 : p < 8) := planeState_planesReady Prod.fst Prod.snd s
    (l := s.ld.secs.flatMap fun sec => s.ld.planes.map (sec, ·)) (fun a ha => hp a.2 ((hmem a).mp ha).2) sec hp8
  unfold regionReady
  generalize planesReady Prod.fst Prod.snd s (s.ld.secs.flatMap fun sec => s.ld.planes.map (sec, ·)) = u at honly hread ⊢
  refine ⟨fun sec p hp8 => (hread sec hp8).trans (if_congr ?_ rfl rfl),
    (congrArg (fun x : State => { x with sreg := s.sreg }) honly :)⟩
  constructor
  · rintro ⟨a, ha, rfl, rfl⟩
    exact (hmem a).mp ha
  · exact fun h => ⟨(sec, p), (hmem (sec, p)).mpr h, rfl, rfl⟩

theorem partialDone_reads (s : State) (hp : ∀ p ∈ s.ld.planes, p < 8) (hnd : s.ld.secs.Nodup)
    (hmend : ∀ kv ∈ s.ld.got, kv.1 ∉ (s.scrubOf (kv.1 / 1152)).pend ∧ kv.1 ∉ (s.scrubOf (kv.1 / 1152)).failed) : let t := partialDone s
    (∀ sec p, p < 8 → t.planeState sec p = if sec ∈ s.ld.secs ∧ p ∈ s.ld.planes then 1 else s.planeState sec p) ∧
    t.getF Reg.CFG_STAT_STATE = 3 ∧ t.flag Reg.CFG_STAT_DONE_OK = true ∧ t.raised = (s.raiseEv 224).raised ∧ t.ld = s.ld.idle ∧
    (∀ sec, t.scrubOf sec = if sec ∈ s.ld.secs then { s.scrubOf sec with skip := (s.scrubOf sec).skip ++ s.ld.planes } else s.scrubOf sec) ∧
    { t with regs := s.regs, cyc := s.cyc, raised := s.raised, ld := s.ld, sreg := s.sreg, scrub := s.scrub } = s := by
  obtain ⟨hplanes, hready⟩ := regionReady_reads s hp
  rw [partialDone_eq]
  generalize regionReady s = u at hplanes hready ⊢
  have huscrub (sec : Nat) : u.scrubOf sec = s.scrubOf sec := congrArg (fun tab => tget (fun _ => Scrub.reset) tab sec) (congrArg State.scrub hready :)
  obtain ⟨hskip, hskipped⟩ := sweepSkips_reads (planes := s.ld.planes) u hnd
  generalize s.ld.secs.foldl (sweepSkips s.ld.planes) u = v at hskip hskipped ⊢
  have hvscrub (sec : Nat) : v.scrubOf sec =
      if sec ∈ s.ld.secs then { s.scrubOf sec with skip := (s.scrubOf sec).skip ++ s.ld.planes } else s.scrubOf sec := by
    rw [hskip, huscrub]
  have hquiet (b : Nat) (hb : b ∈ s.ld.got.map (·.1)) : b ∉ (v.scrubOf (blockSec b)).pend ∧ b ∉ (v.scrubOf (blockSec b)).failed := by
    obtain ⟨kv, hkv, rfl⟩ := List.mem_map.mp hb
    rw [hvscrub]
    split <;> exact hmend kv hkv
  rw [mendBlocks_of_none hquiet]
  obtain ⟨hstate, hok, hraised, hld, hbits, hframe⟩ := streamDone_reads v
  generalize streamDone v = t at hstate hok hraised hld hbits hframe ⊢
  have hregs : v.regs = u.regs := (congrArg State.regs hskipped :)
  have hsame : { v with regs := s.regs, sreg := s.sreg, scrub := s.scrub } = s :=
    (congrArg (fun x : State => { x with regs := s.regs, sreg := s.sreg, scrub := s.scrub }) hskipped :).trans
      (congrArg (fun x : State => { x with scrub := s.scrub }) hready :)
  have hev : (v.raiseEv 224).raised = (s.raiseEv 224).raised :=
    raiseEv_raised_congr 224 (congrArg State.raised hsame :) (congrArg (fun x : State => x.cyc.evs) hsame :) (congrArg State.clockOn hsame :)
      (congrArg State.dbgHalt hsame :)
  have hlds : v.ld = s.ld := (congrArg State.ld hsame :)
  have htscrub : t.scrub = v.scrub := (congrArg State.scrub hframe :)
  refine ⟨fun sec p hp8 => ?_, hstate, hok, hraised.trans hev, hld.trans (congrArg Loader.idle hlds), fun sec => ?_, ?_⟩
  · exact (getF_of_reg (reg_of_bitsBut hbits (doneFields_noPlane sec))).trans ((getF_of_regs hregs _).trans (hplanes sec p hp8))
  · exact (congrArg (fun tab => tget (fun _ => Scrub.reset) tab sec) htscrub).trans (hvscrub sec)
  · have hrest : { t with regs := s.regs, cyc := s.cyc, raised := s.raised, ld := s.ld, sreg := s.sreg, scrub := s.scrub } =
        { v with regs := s.regs, cyc := s.cyc, raised := s.raised, ld := s.ld, sreg := s.sreg, scrub := s.scrub } :=
      (congrArg (fun x : State => { x with regs := s.regs, cyc := s.cyc, raised := s.raised, ld := s.ld, sreg := s.sreg, scrub := s.scrub }) hframe :)
    exact hrest.trans (congrArg (fun x : State => { x with cyc := s.cyc, raised := s.raised, ld := s.ld }) hsame :)

end

/-! ### The command -/

section
variable {s : State} {body : List Nat} (ha : s.alive = true) (hc : tlrClock s = true) (h : s.ld.seg = some (15, body))
include ha hc h

/-- What END digests is what the body says. -/
def EndMatches (s : State) (body : List Nat) : Prop := sha384 (s.ld.hdr.take 112 ++ s.ld.seen) = body

theorem exec_end_of_outstanding (ho : ldOut s ≠ 0) : exec .endSegment s = .next s := by
  rw [exec_endSegment]
  unfold execEndSegment
  rw [recordBody_of_seg ha hc h]
  exact if_pos ho

theorem exec_end_of_more (ho : ldOut s = 0) (hl : ¬ s.ld.pos ≥ 128 + s.ld.len) : exec .endSegment s = .next (recFail s 0x13) := by
  rw [exec_endSegment]
  unfold execEndSegment
  rw [recordBody_of_seg ha hc h]
  exact (if_neg (not_not.mpr ho)).trans (if_pos (not_le.mp hl))

variable (ho : ldOut s = 0) (hl : s.ld.pos ≥ 128 + s.ld.len)
include ho hl

theorem exec_end_of_digest (hm : ¬ EndMatches s body) : exec .endSegment s = .next (recFail s 0x0D) := by
  rw [exec_endSegment]
  unfold execEndSegment
  rw [recordBody_of_seg ha hc h]
  exact ((if_neg (not_not.mpr ho)).trans (if_neg (not_lt.mpr hl))).trans (if_pos hm)

theorem exec_end_of_matches (hm : EndMatches s body) : exec .endSegment s = .next (if s.ld.full = true then fullDone s
    else if (regionBlocks s.ld).any (fun b => !tget (fun _ => false) s.ld.got b) then recFail s 0x14 else partialDone s) := by
  rw [exec_endSegment]
  unfold execEndSegment
  rw [recordBody_of_seg ha hc h]
  refine ((if_neg (not_not.mpr ho)).trans (if_neg (not_lt.mpr hl))).trans ((if_neg (not_not.mpr hm)).trans ?_)
  split
  · rfl
  · split <;> rfl

end

end Sys2Proof.Machine

/-!
SUPPORT. The statement on the records of a stream (16_configuration.md R325 to R327, R332, R337 to R339).
-/

namespace Sys2Proof.Machine

section
variable {s : State} {body : List Nat} {sec kind start count : Nat} (h : s.ld.seg = some (2, body))
  (hd : hardDesc body = some (sec, kind, start, count))

include hd in
theorem portRecord_starts (hb : s.ld.busy = false) (hp : portPending s sec kind = false) (hclr : kind = 1 → s.user = true → s.clrOpen = true)
    (hout : ldOut s ≤ 61) (hw : s.ld.word < count) : portRecord s body sec kind start count =
      { portPut s (portBase sec kind) ((recWord body s.ld.word).toNat % 2 ^ 32 * 2 ^ 32) ((recWord body s.ld.word).toNat / 2 ^ 32)
          (portStartWord kind (start + s.ld.word)) (s.ld.seq + 1) with
        ld := { (portPut s (portBase sec kind) ((recWord body s.ld.word).toNat % 2 ^ 32 * 2 ^ 32) ((recWord body s.ld.word).toNat / 2 ^ 32)
          (portStartWord kind (start + s.ld.word)) (s.ld.seq + 1)).ld with busy := true, seq := s.ld.seq + 1 } } := by
  obtain ⟨-, htop⟩ := hardDesc_bounds hd
  exact (portRecord_issues hb hp hclr hout).trans (portWrites_eq _ (Nat.lt_of_lt_of_le (by omega) htop))

theorem portRecord_reissues {a b : Nat} (hb : s.ld.busy = true) (hp : s.ld.port = some (a, b, some false)) (hw : s.ld.word < count) :
    portRecord s body sec kind start count = { s with ld := { s.ld with busy := false, port := none } } :=
  (portRecord_served hb hp).trans (if_neg (not_le.mpr hw))

include h in
theorem portRecord_goesOn {a b : Nat} (hb : s.ld.busy = true) (hp : s.ld.port = some (a, b, some true)) :
    (s.ld.word + 1 < count →
      portRecord s body sec kind start count = { s with ld := { s.ld with word := s.ld.word + 1, busy := false, port := none } }) ∧
    (count ≤ s.ld.word + 1 → Taken s 2 (8 + 8 * count) body (portRecord s body sec kind start count) ∧
      { portRecord s body sec kind start count with ld := s.ld } = s) := by
  refine ⟨fun hmore => (portRecord_served hb hp).trans (if_neg (not_le.mpr hmore)), fun hlast => ?_⟩
  have hdone : portRecord s body sec kind start count =
      consume { s with ld := { s.ld with word := s.ld.word + 1, busy := false, port := none } } (8 + 8 * count) :=
          (portRecord_served hb hp).trans (if_pos hlast)
  rw [hdone]
  exact consume_reads (s := s) (8 + 8 * count) h (l := { s.ld with word := s.ld.word + 1, busy := false, port := none }) rfl rfl

end

/-- Settles O38: one family of clauses for each type of segment, each by what its record's command does. -/
theorem streamRecords : Obligations.StreamRecords := by
  unfold Obligations.StreamRecords
  intro s ha hc failed taken request word cells desc posted
  refine ⟨fun body h => bankinit_clauses ha hc h, fun body h => firmware_clauses ha hc h, fun body h => teller_clauses ha hc h, fun body h => ⟨?_, ?_⟩,
    fun body h => ⟨?_, ?_⟩, fun body h => regs_clauses ha hc h, fun body h => ⟨?_, ?_⟩, fun body h => ⟨?_, fun ho => ⟨?_, ?_, ?_, ?_, ?_⟩⟩⟩
  · exact exec_hardblk_of_none ha hc h
  · intro sec kind start count hd inside at_ w place sel pending done
    obtain ⟨hout, hin⟩ := hardblk_clauses ha hc h hd
    refine ⟨hout, ?_, fun hi hb hwait => ?_, fun hi hb hport => ?_, fun a b hi hb hport hw => ?_, fun a b hi hb hport => ?_⟩
    · intro hi hb hp hclr hfew hw n u
      have hstart := portRecord_starts hd hb hp hclr hfew hw
      have hu : portPut s (portBase sec kind) ((recWord body s.ld.word).toNat % 2 ^ 32 * 2 ^ 32) ((recWord body s.ld.word).toNat / 2 ^ 32)
        (portStartWord kind (start + s.ld.word)) (s.ld.seq + 1) = u := rfl
      rw [hu] at hstart
      exact (hin hi).trans (congrArg Host.Outcome.next hstart)
    · exact (hin hi).trans (congrArg Host.Outcome.next (portRecord_waits hb hwait))
    · exact (hin hi).trans (congrArg Host.Outcome.next (portRecord_unserved hb hport))
    · exact (hin hi).trans (congrArg Host.Outcome.next (portRecord_reissues hb hport hw))
    · obtain ⟨hmore, hlast⟩ := portRecord_goesOn (sec := sec) (kind := kind) (start := start) (count := count) h hb hport
      exact ⟨fun hw => (hin hi).trans (congrArg Host.Outcome.next (hmore hw)), fun hw => ⟨_, hin hi, hlast hw⟩⟩
  · exact exec_keys_of_malformed ha hc h
  · intro he hd hl
    obtain ⟨hnone, hsome⟩ := exec_keys_of_fits ha hc h he hd hl
    refine ⟨fun hfail => ?_, fun k hk huse => ?_⟩
    · cases hk : recKey s body with
      | none => exact hnone hk
      | some k =>
        have huse := hfail.resolve_left fun hn => Option.some_ne_none k (hk.symm.trans hn)
        exact (hsome k hk).trans (congrArg Host.Outcome.next (if_pos huse))
    · exact ⟨_, (hsome k hk).trans (congrArg Host.Outcome.next (if_neg (Bool.eq_false_iff.mp huse))),
        keyTaken_reads (Nat.mod_lt _ (by decide)) k h⟩
  · exact exec_frames_of_none ha hc h
  · intro first count hd
    exact frames_clauses ha hc h hd
  · exact exec_end_of_outstanding ha hc h
  · exact exec_end_of_more ha hc h ho
  · intro hl hm
    exact exec_end_of_digest ha hc h ho hl hm
  · intro hl hm hfull
    obtain ⟨hplanes, hrest⟩ := fullDone_reads s
    exact ⟨_, (exec_end_of_matches ha hc h ho hl hm).trans (congrArg Host.Outcome.next (if_pos hfull)), fun sec p _ hp => hplanes sec p hp, hrest⟩
  · intro hl hm hfull hmiss
    refine (exec_end_of_matches ha hc h ho hl hm).trans (congrArg Host.Outcome.next ((if_neg (Bool.eq_false_iff.mp hfull)).trans (if_pos ?_)))
    obtain ⟨b, hb, hnot⟩ := hmiss
    exact List.any_eq_true.mpr ⟨b, hb, by rw [hnot]; rfl⟩
  · intro hl hm hfull hall hquiet hnd _ hp
    obtain ⟨hplanes, hrest⟩ := partialDone_reads s hp hnd hquiet
    refine ⟨_, (exec_end_of_matches ha hc h ho hl hm).trans (congrArg Host.Outcome.next ((if_neg (Bool.eq_false_iff.mp hfull)).trans (if_neg ?_))),
      fun sec p _ hp8 => hplanes sec p hp8, hrest⟩
    intro hany
    obtain ⟨b, hb, hnot⟩ := List.any_eq_true.mp hany
    rw [hall b hb] at hnot
    exact absurd hnot (by decide)

end Sys2Proof.Machine
